-- ==== Sys2Proof/Word.lean ====
section
/-! DEFINITION. The bytes, the 32-bit register word and the sparse table that the state is made of (R7, R22). -/
namespace Sys2Proof

/-- One byte. -/
abbrev Byte := BitVec 8

/-- A 32-bit register (R22) or an Ixmet general register. -/
abbrev Word := BitVec 32

/-- A byte string, first byte first. -/
abbrev Bytes := List Byte

/-- A sparse table: keys strictly rising, and no entry equal to the value an unlisted key has. -/
abbrev Tbl (α : Type) := List (Nat × α)

end Sys2Proof
end

