-- ==== Sys2Proof/Syntax.lean ====
section
/-! DEFINITION. The commands the FZX-4816 takes and the events that happen to it: one constructor per row of the opcode
table, with the data that reaches the device from outside (a descriptor's bytes, a read-back's outcome, a card's answer)
as operands. Every row of the table has an empty field list, so the operands are the model's reading of each row. -/
namespace Sys2Proof

/-- A PCIe port (R42). -/
abbrev PortNo := Fin 2
/-- An Ixmet core (R41). -/
abbrev CoreNo := Fin 16
/-- A global function number FN (R44). -/
abbrev FnNo := Fin 256
/-- A queue number (R26). -/
abbrev QueueNo := Fin 16384
/-- A command context (R63). -/
abbrev CtxNo := Fin 65536
/-- A Key Table slot (R165). -/
abbrev SlotNo := Fin 131072
/-- A register page (R21). -/
abbrev PageNo := Fin 256
/-- A lane pair (R123). -/
abbrev LaneNo := Fin 64
/-- A Boulevard pipeline. -/
abbrev PipeNo := Fin 2
/-- A hash unit. -/
abbrev HashNo := Fin 32
/-- An Arcade unit. -/
abbrev ArcNo := Fin 8
/-- A lane group. -/
abbrev GroupNo := Fin 8
/-- A unit of the cipher shares: 0 to 63 a lane, 64 and 65 a Boulevard pipeline. -/
abbrev CipherUnit := Fin 66
/-- An on-chip DMA engine. -/
abbrev DmaNo := Fin 8
/-- A Kerb source (R418). -/
abbrev SrcNo := Fin 13
/-- A power domain (R512). -/
abbrev DomNo := Fin 24
/-- An Ixmet general register. -/
abbrev GReg := Fin 16

/-- Who makes a register access: BAR0 of a port's physical function, an Ixmet core through the internal map, or a
function through its own BAR2 or BAR4 (R21, R27, R45). -/
inductive Src where
  | port (p : PortNo)
  | core (c : CoreNo)
  | bar2 (fn : FnNo)
  | bar4 (fn : FnNo)
deriving DecidableEq, Repr

/-- What a host write to BAR4, to the MSI-X capability or to the Device Control register names (R42, R57, R79, R546). -/
inductive MsixField where
  | addrLo (e : Fin 2048)
  | addrHi (e : Fin 2048)
  | data (e : Fin 2048)
  | vectorControl (e : Fin 2048)
  | messageControl
  | deviceControl
deriving DecidableEq, Repr

/-- What a link trains to: SPEED 1 to 6, log2 of the width, and whether an L0p reduced width is in use (R42, R84). -/
structure LinkTrain where
  speed : Fin 7
  widthLog : Fin 5
  l0p : Bool
deriving DecidableEq, Repr

/-- What happened on the way to one transfer (R36 to R38): the beat that arrived altered, the bits of its payload that were flipped,
and those of its Seal code; beats misrouted or reordered arrive with a code that differs. -/
structure Hit where
  beat : Nat := 0
  flip : Bytes := []
  code : BitVec 32 := 0
deriving DecidableEq, Repr

/-- The host memory a command's acceptance reads: its parameter block and its two scatter lists (R91, R92), and what happened to
them and to the descriptor on their way from the Quay to the Roundabout. -/
structure AcceptIn where
  param : Bytes
  srcList : Bytes
  dstList : Bytes
  descHit : Option Hit := none
  paramHit : Option Hit := none
  srcHit : Option Hit := none
  dstHit : Option Hit := none
deriving DecidableEq, Repr

/-- A fault in one core of a pair during a beat (R123, R144): what is flipped in its key schedule, its counter or IV, its chaining
state and its output. -/
structure CoreErr where
  sched : Bytes := []
  ctr : Bytes := []
  acc : Bytes := []
  out : Bytes := []
deriving DecidableEq, Repr

/-- What happened in the two cores of a pair during a step (R123). -/
structure PairErr where
  pe : CoreErr := {}
  ce : CoreErr := {}
deriving DecidableEq, Repr

/-- What happened in the two cores of a pair during a beat, and to the beat on its way to the Quay (R38, R123). -/
structure BeatIn where
  pe : CoreErr
  ce : CoreErr
  hit : Option Hit
deriving DecidableEq, Repr

/-- A register read: its bytes, whether a word's parity is wrong (R22, R39), and what happens to the data on its way (R38). -/
structure RegRead where
  size : Nat
  par : Bool
  hit : Option Hit := none
deriving DecidableEq, Repr

/-- A register write: its bytes, and what happens to a word on its way to the register; the hit's beat is the word's number (R22,
R38). -/
structure RegWrite where
  size : Nat
  hit : Option Hit := none
deriving DecidableEq, Repr

/-- The context whose blob leaves, and what happens to it on the way to the Quay (R38, R186). -/
structure BlobOut where
  ctx : CtxNo
  hit : Option Hit
deriving DecidableEq, Repr

/-- The unit whose digest leaves, and what happens to it on the way to the Quay (R38, R159). -/
structure HashOut where
  n : HashNo
  hit : Option Hit
deriving DecidableEq, Repr

/-- The generate request served: of the software service or an internal draw, and what happens to its bytes on the way (R290, R292). -/
structure DrbgTurn where
  sw : Bool
  hit : Option Hit
deriving DecidableEq, Repr

/-- What the ECC of an Arcade unit's operand memory showed during a command (R249, R273): words corrected, or the byte offset of one
that could not be. -/
inductive OpEcc where
  | clean
  | corrected (n : Fin 65536)
  | uncorr (off : Fin 65536)
deriving DecidableEq, Repr

/-- What an Arcade unit meets before it releases a result: the bits flipped in its arithmetic, and what its operand memory showed (R268,
R273). -/
structure ArcSeen where
  err : Bytes
  ecc : OpEcc
deriving DecidableEq, Repr

/-- The engine classes of the Roundabout (R93, R118). -/
inductive EngClass where
  | lane | blvd | hash | arcade | mews | fountain | composite | roundabout
deriving DecidableEq, Repr

/-- A unit a stop can reach (R150, R215, R271). -/
inductive Engine where
  | cipher (u : CipherUnit)
  | hash (u : HashNo)
  | arcade (u : ArcNo)
  | composite (c : CtxNo)
deriving DecidableEq, Repr

/-- What the ECC of the Key Table or Curve Store showed when a command used it (R197, R416). -/
inductive EccSeen where
  | clean
  | corrected
  | keyTable (slot : SlotNo) (attrLost : Bool)
  | curve (entry : Fin 64)
deriving DecidableEq, Repr

/-- What a dispatched command's key read meets: the ECC of its store, and the way to the engine (R37, R197). -/
structure KeySeen where
  ecc : EccSeen
  hit : Option Hit
deriving DecidableEq, Repr

/-- The amount of a shift: an immediate or a register (R338). -/
inductive ShAmt where
  | imm (n : Fin 32)
  | reg (b : GReg)
deriving DecidableEq, Repr

/-- The count of LOOP (R348). -/
inductive LoopCnt where
  | imm (n : BitVec 10)
  | reg (a : GReg)
deriving DecidableEq, Repr

/-- The second operand of TEST (R344). -/
inductive TestArg where
  | imm (n : BitVec 12)
  | reg (b : GReg)
deriving DecidableEq, Repr

/-- What a load met: what its memory's error correction or its Seal showed (R38, R413), or bad parity of the register it reads (R39). -/
inductive MemFlt where
  | none | corrected | uncorr | hit (h : Hit) | parity
deriving DecidableEq, Repr

/-- What an entry of a core meets: on the fetch of the handler's first instruction, and on the way of the words it stores (R37, R38,
R324, R372). -/
structure EntryMet where
  fetch : MemFlt := .none
  hit : Option Hit := none
deriving DecidableEq, Repr

/-- How an Ixmet instruction issues: its GUARD (R332); what error correction and the Seal find on its fetch, on its data reads in
their order, and on a handler's entry (R324, R372); and what happens to the data it writes on the way to the sink (R37, R38). -/
structure IssueIn where
  guard : BitVec 4
  fetch : MemFlt := .none
  data : List MemFlt := []
  entry : EntryMet := {}
  hit : Option Hit := none
deriving DecidableEq, Repr

/-- The core that takes an interrupt, and what its entry meets (R324, R374). -/
structure EntryIn where
  c : CoreNo
  entry : EntryMet
deriving DecidableEq, Repr

/-- The I and W fields of PAR and BREV (R338). -/
structure BitField where
  i : Bool
  w : BitVec 2
deriving DecidableEq, Repr

/-- The SZ and X fields of a store (R340). -/
structure StoreKind where
  sz : BitVec 2
  x : Bool
deriving DecidableEq, Repr

/-- The count register and the POLY field of BCOPY (R354). -/
structure BlockLen where
  n : GReg
  poly : BitVec 2
deriving DecidableEq, Repr

/-- The Ga field, the count register and the POLY field of BCLR (R354). -/
structure ClearLen where
  a : GReg
  n : GReg
  poly : BitVec 2
deriving DecidableEq, Repr

/-- A word the SRAM scrubber visits (R413, R416). -/
inductive ScrubSite where
  | sharedSram (word : Nat)
  | context (ctx : CtxNo)
  | keyTable (slot : SlotNo) (attrLost : Bool)
  | replay (q : QueueNo) (entry : Fin 64)
  | curve (entry : Fin 64)
deriving DecidableEq, Repr

/-- How a DMA transfer came to its end (R411): every beat moved, what happened to one of them on its way (R38); an uncorrectable
error, poisoned data or the ABORT met after the bytes its row brings. -/
inductive DmaEnd where
  | ok (hit : Option Hit) | ecc | poisoned | aborted
deriving DecidableEq, Repr

/-- The end of a DMA transfer, and the byte offsets in its source at which an error was corrected (R413). -/
structure DmaFin where
  how : DmaEnd
  corrected : List Nat := []
deriving DecidableEq, Repr

/-- An entry of the Curve Store (R263): p, a, b, Gx, Gy, n, the bit length of p, the cofactor and the owning domain. -/
structure Curve where
  p : Nat
  a : Nat
  b : Nat
  gx : Nat
  gy : Nat
  n : Nat
  pbits : Nat
  h : Nat
  dom : Nat
deriving DecidableEq, Repr

/-- A Key Table slot (R165, R173). USAGE 0xF is EMPTY and 0xE a continuation (R174); each slot holds its own part of a run's material. -/
structure Slot where
  gen : Nat := 1
  asg : Bool := false
  dom : Nat := 0
  usage : Nat := 15
  alg : Nat := 0
  exp : Bool := false
  casc : Bool := false
  epEn : Bool := false
  epFirst : Nat := 0
  epLast : Nat := 0
  parent : Nat := 0
  mat : Bytes := []
deriving DecidableEq, Repr

/-- One half of a reservation record: the highest block reserved by a parity, and the half's check code (R138, R234). -/
structure RsvHalf where
  blk : Nat
  code : BitVec 16
deriving DecidableEq, Repr

/-- A slot's reservation record (R138): the half of each parity, none while nothing has been recorded in it. -/
structure RsvRec where
  even : Option RsvHalf := none
  odd : Option RsvHalf := none
deriving DecidableEq, Repr

/-- A Ward entry of a Town Hall (R464): serial, K_W, last sequence number made. -/
structure WardEnt where
  serial : Nat
  key : Bytes
  seq : Nat := 0
deriving DecidableEq, Repr

/-- A commit into the Key Table or Curve Store: a key written at a head, a key pair, a slot erased, a curve entry replaced
or emptied (R172, R187, R258, R263). -/
inductive SlotOp where
  | write (head : Nat) (key : Slot)
  | pair (head1 : Nat) (key1 : Slot) (head2 : Nat) (key2 : Slot)
  | erase (slot : Nat) (attrLost : Bool)
  | curve (entry : Nat) (c : Option Curve)
deriving DecidableEq, Repr

/-- What the peer presents while a pairing COMMIT waits for it (R449): its serial, and its key confirmation. -/
structure PeerHello where
  serial : BitVec 64
  confirm : Bytes
deriving DecidableEq, Repr

/-- What a link-up exchange learns of the partner (R444, R451, R452): serial, session value, lifecycle state, CT_CFG.K,
LANE_NONCE_CFG.DEV, COMP_CTRL, whether it is SOLO, and whether it was given LEAVE; and whether XALIVE_IN shows an edge then. -/
structure PeerInfo where
  serial : BitVec 64
  value : Bytes
  life : Nat
  k : Nat
  dev : Nat
  comp : Word
  solo : Bool
  left : Bool
  alive : Bool
deriving DecidableEq, Repr

/-- What a join copies (R452, R462): on the joiner the sequencer's tables and tick, on both the partner's reservation records. -/
structure JoinImage where
  gen0 : Nat
  slots : Tbl Slot
  curves : Tbl Curve
  tick : Nat
  rsv : Tbl RsvRec
  dukpt : Tbl RsvRec
  fleetRole : Nat
  fleetId : Nat
  fleetRoot : Option Bytes
  wards : Tbl WardEnt
deriving DecidableEq, Repr

/-- What the frames of a body that the partner's Mews has enciphered say (R445 to R447, R449, R453, R456). -/
inductive XFrame where
  | heartbeat
  | marker
  | peerHello (p : PeerHello)
  | commit (op : SlotOp) (gens : List (Nat × Nat))
  | assign (op dom base cnt : Nat)
  | reservation (slot : SlotNo) (blk : Nat) (dukpt : Bool)
  | ward (idx : Nat) (e : Option WardEnt)
  | queueRec (q : QueueNo) (words : Tbl Word)
  | queueRole (q : QueueNo) (primary : Bool) (words : Tbl Word) (win : List (Nat × Bytes))
  | replay (q : QueueNo) (tag : Nat) (cpl : Bytes)
  | dissolve
deriving DecidableEq, Repr

/-- The tags of the frames as they arrive, in order (R444), and whether XALIVE_IN has shown an edge within the last 2 µs (R446). -/
structure XRx where
  tags : List Bytes
  alive : Bool
deriving DecidableEq, Repr

/-- What the Kerb's sensors show (R418): the conditions of the sources that have a detector of their own (bits 3, 6 and 11 are not
used); a Hub rail below its window, one above it, and anything else that VMAIN watches; the junction temperature in °C, two's
complement; the levels of TAMP0 and TAMP1. -/
structure KSense where
  mask : BitVec 13
  hubLow : Bool
  hubHigh : Bool
  kerbRail : Bool
  temp : BitVec 8
  tamp : BitVec 2
deriving DecidableEq, Repr

/-- What met the beats of a block or an image between a buffer and its sink: what happened to one of them (R38), the byte offsets
at which an SRAM error was corrected, and the first at which one was uncorrectable (R413, R414). -/
structure Passage where
  hit : Option Hit := none
  corrected : List Nat := []
  uncorr : Option Nat := none
deriving DecidableEq, Repr

/-- What reaches the image loader from its source (R359): the bytes a host delivers, cut where the host or the link fails, and what
their beats met. A source in the device gives its own bytes. -/
structure ImgIn where
  bytes : Bytes := []
  way : Passage := {}
deriving DecidableEq, Repr

/-- An SD response token (R473, R474): what arrived without start, CRC and end bits, whether its CRC was right, and, where it lets a
write run send its first block, what that block's beats meet on their way from the buffer; or none within 64 clocks. -/
inductive SdResp where
  | token (bits : BitVec 128) (crcOk : Bool) (way : Passage)
  | timeout
deriving DecidableEq, Repr

/-- What completes on the SD data lines (R471 to R473, R478): a block, with what happened to one of its beats on the way to the
buffer and whether the buffer path cannot take the next one yet (R476); a CRC status token, with what the next block's beats meet on
their way from the buffer; the modes a CMD6 status block offers; the 64 taps of a tuning sweep that passed. -/
inductive SdData where
  | block (bytes : Bytes) (crcOk : Bool) (full : Bool) (hit : Option Hit)
  | token (positive : Bool) (way : Passage)
  | modes (offered : BitVec 8)
  | taps (passed : BitVec 64)
deriving DecidableEq, Repr

/-- What a contact card puts on the line under T=0 (R489): a character with its parity, or the error signal for the character of the
TPDU at a place in it. -/
inductive T0Ev where
  | char (b : Byte) (parityOk : Bool)
  | errorSignal (i : BitVec 9)
deriving DecidableEq, Repr

/-- A card's reply frame (R497, R498): its bytes without CRC, one whose CRC failed, one with a framing, parity or length error, or
replies that collide after a number of valid bits. -/
inductive RdFrame where
  | frame (bytes : Bytes)
  | badCrc
  | malformed
  | collision (bytes : Bytes) (bits : Nat)
deriving DecidableEq, Repr

/-- A reader frame below the APDU layer (R501): REQA or WUPA, anticollision and SELECT of a cascade level, RATS, PPS, DESELECT, HLTA. -/
inductive TagFrame where
  | reqa
  | wupa
  | anticol (level : Bool)
  | select (level : Bool) (uid : Bytes)
  | rats (param : Byte)
  | pps (pps0 pps1 : Byte)
  | deselect
  | hlta
deriving DecidableEq, Repr

/-- One command or event of the opcode table. -/
inductive Instr where
  /-- REGISTER_WRITE (R24). A port or Ixmet core writes a register that has no row of its own; fields are updated by access type and clashes with hardware updates are resolved field by field. -/
  | registerWrite (src : Src) (addr : Nat) (wr : RegWrite) (v : BitVec 64)
  /-- RC_FIELD_READ (R22). A read of a register holding RC fields returns the values and then clears the fields that were addressed. -/
  | rcFieldRead (src : Src) (addr : Nat) (rd : RegRead)
  /-- CNT_CLEAR (R34). A write of 1 to PAGE_CTRL.CNT_CLEAR sets FAULT_CNT to 0, clears LASTING and stops any running fault window. -/
  | cntClear (src : Src) (page : PageNo)
  /-- INT_FORCE (R30). A write to INT_FORCE sets the named INT_STAT bits as if their events had occurred. -/
  | intForce (src : Src) (page : PageNo) (v : BitVec 32)
  /-- PAGE_LOCK (R33). A write of 1 to PAGE_LOCK.LOCK makes every RWL field of the page read-only until reset of its domain. -/
  | pageLock (src : Src) (page : PageNo)
  /-- FAULT_WINDOW_EXPIRE (R34). A page's fault window expires with COUNT below THRESHOLD, and COUNT returns to 0. -/
  | faultWindowExpire (page : PageNo)
  /-- PARITY_SCRUB (R39). The background scrub checks the parity of every implemented register once every 4,096 CLK_TICK cycles. -/
  | parityScrub (bad : List Nat)
  /-- SQ_TAIL_DB (R52). A write to a queue's SQ_TAIL_DB submits the SQ entries from SQ_HEAD up to the new tail, or is ignored or flagged. -/
  | sqTailDb (fn : FnNo) (q : QueueNo) (v : BitVec 32)
  /-- CQ_HEAD_DB (R50). A write to a queue's CQ_HEAD_DB releases CQ entries when the value is a valid forward move not passing CQ_TAIL. -/
  | cqHeadDb (fn : FnNo) (q : QueueNo) (v : BitVec 32)
  /-- ADMIT (R63). On its round-robin turn the Quay reserves a context and a CQ entry for a ready queue and issues the descriptor fetch. -/
  | admitOne (ctx : CtxNo)
  /-- DESCRIPTOR_ARRIVE (R67). A fetched descriptor arrives, is sealed, advances SQ_HEAD and is looked up in the replay window before going to the Roundabout. -/
  | descriptorArrive (ctx : CtxNo) (bytes : Bytes) (ecc : Option (Fin 64))
  /-- COAL_TIME_EXPIRE (R81). COAL_TIME µs pass after the first uncounted completion and the queue's MSI-X message is sent. -/
  | coalTimeExpire (q : QueueNo)
  /-- MSIX_TABLE_WRITE (R81). A host write to a function's MSI-X table that unmasks an entry with its Pending Bit set sends the pending message. -/
  | msixTableWrite (fn : FnNo) (fld : MsixField) (v : BitVec 32)
  /-- QCMD_READ (R76). QUAY_QCMD READ copies the selected queue's record into QDATA0 to QDATA31. -/
  | qcmdRead (src : Src) (early : Bool)
  /-- QCMD_WRITE (R76). QUAY_QCMD WRITE copies the staged record into the queue at one instant, checking it unless the queue is DISABLED. -/
  | qcmdWrite (src : Src) (early : Bool)
  /-- ENABLE (R76). QUAY_QCMD ENABLE validates a DISABLED queue's record, resets its indices and phase, and makes it ENABLED. -/
  | enable (src : Src) (early : Bool)
  /-- DISABLE (R76). QUAY_QCMD DISABLE moves an ENABLED queue to DRAINING, letting in-flight commands complete. -/
  | disable (src : Src) (early : Bool)
  /-- DISABLE_ABORT (R77). QUAY_QCMD DISABLE_ABORT ends a queue's in-flight commands early and takes it to DISABLED. -/
  | disableAbort (src : Src) (early : Bool)
  /-- CLEAR_REPLAY (R76). QUAY_QCMD CLEAR_REPLAY empties a DISABLED queue's replay window. -/
  | clearReplay (src : Src) (early : Bool)
  /-- WIN_SYNC (R61). A write of 1 to QUAY_WIN_SYNC.SYNC clears DONE until every access checked before it has completed. -/
  | winSync (src : Src)
  /-- WIN_SYNC_DONE (R61). The last access checked before a window sync completes, and DONE reads 1. -/
  | winSyncDone
  /-- DOM_RESV_WRITE (R64). A write to QUAY_DOM_RESV sets the selected domain's reservation, or is ignored with CODE 0x13 if the sum would exceed 65,536. -/
  | domResvWrite (src : Src) (v : BitVec 32)
  /-- DOM_CAP_WRITE (R64). A write to QUAY_DOM_CAP sets the selected domain's in-flight cap at once without taking contexts away. -/
  | domCapWrite (src : Src) (v : BitVec 32)
  /-- FLR (R78). Function Level Reset ends the function's queues' commands, stores their completions in the replay window only and disables the queues. -/
  | flr (fn : FnNo)
  /-- FLR_DONE (R78). A Function Level Reset completes and sets BLOCK_INT.FLR_DONE on the functions page. -/
  | flrDone (fn : FnNo)
  /-- VF_DISABLE (R44). VF Enable is cleared or NumVFs lowered, and each virtual function that ceases to exist is reset as by an FLR. -/
  | vfDisable (p : PortNo) (n : BitVec 7)
  /-- LINK_DOWN (R547). A port's link goes down: no MSI-X is generated, unsent read completions are discarded and every function of the port acts as under an FLR. -/
  | linkDown (p : PortNo)
  /-- LINK_UP (R84). A port's link completes training and its data link layer comes up. -/
  | linkUp (p : PortNo) (tr : LinkTrain)
  /-- RETRAIN (R84). A write of 1 to QUAY_LINK_CTRL.RETRAIN takes the link through Recovery within MAX_SPEED and MAX_WIDTH. -/
  | retrain (src : Src) (p : PortNo) (v : BitVec 32) (tr : LinkTrain)
  /-- POISONED_TLP (R82). A poisoned TLP is received: a fault is counted and the command whose source data it carries ends ABORTED. -/
  | poisonedTlp (p : PortNo) (fn : FnNo) (addr : BitVec 64) (ctx : Option CtxNo) (uncorr : Bool)
  /-- PERST (R523). PERST0_N or PERST1_N goes low, resetting the port's PHY, link and configuration space and every function of the port. -/
  | perst (p : PortNo)
  /-- SOURCE_DATA_ARRIVE (R37). Host data for a command arrives at the Quay, is sealed and passed to the engine. -/
  | sourceDataArrive (ctx : CtxNo) (bytes : Bytes) (hit : Option Hit)
  /-- ROUNDABOUT_ACCEPT (R113). The Roundabout runs checks 1 to 4 on a command, captures its key operands, and holds or readies it. -/
  | roundaboutAccept (ctx : CtxNo) (inp : AcceptIn)
  /-- CONVOY_RELEASE (R100). All held commands whose launch tick equals the current tick are released in its first CLK_FAB cycle. -/
  | convoyRelease
  /-- DISPATCH (R118). A ready command is dispatched to a free unit of its engine class, round-robin across domains, subject to FENCE. -/
  | dispatch (cls : EngClass) (unit : Nat) (seen : KeySeen)
  /-- RESERVATION_CONFIRM (R138). A reservation write is read back from FeRAM: on success waiting commands proceed, on failure it is retried. -/
  | reservationConfirm (slot : SlotNo) (ok : Bool)
  /-- NOP (R93). Opcode NOP completes OK in the Roundabout without using any engine. -/
  | nop (ctx : CtxNo)
  /-- ENCRYPT (R125). Opcode ENCRYPT runs a cipher mode on a lane or Boulevard pipeline with a device-generated nonce or IV. -/
  | encrypt (ctx : CtxNo)
  /-- DECRYPT (R125). Opcode DECRYPT runs a cipher mode with the IV, nonce and tag from the parameter block. -/
  | decrypt (ctx : CtxNo)
  /-- MAC_GENERATE (R125). Opcode MAC_GENERATE computes an AES-CMAC or TDES-CMAC on a lane. -/
  | macGenerate (ctx : CtxNo)
  /-- MAC_VERIFY (R130). Opcode MAC_VERIFY computes a CMAC and compares it in constant time with the expected MAC. -/
  | macVerify (ctx : CtxNo)
  /-- WRAP (R125). Opcode WRAP applies AES-KW or AES-KWP on a lane. -/
  | wrap (ctx : CtxNo)
  /-- UNWRAP (R129). Opcode UNWRAP holds its output until the ICV and padding checks pass, otherwise AUTH_FAIL. -/
  | unwrap (ctx : CtxNo)
  /-- HASH (R153). Opcode HASH computes a SHA-2, SHA3 or SHAKE digest on a hash unit. -/
  | hash (ctx : CtxNo)
  /-- HMAC_GENERATE (R153). Opcode HMAC_GENERATE computes an HMAC on a hash unit under a Mews key. -/
  | hmacGenerate (ctx : CtxNo)
  /-- HMAC_VERIFY (R153). Opcode HMAC_VERIFY computes an HMAC and compares it with the expected MAC. -/
  | hmacVerify (ctx : CtxNo)
  /-- LANE_BEAT (R145). A lane or pipeline finishes a 64-byte beat and releases it when every comparison for it agrees. -/
  | laneBeat (u : CipherUnit) (e : BeatIn)
  /-- LANE_KAT_DONE (R147). A lane's known-answer test ends: on pass it returns to service, on fail it goes offline with KAT_FAIL. -/
  | laneKatDone (n : LaneNo) (pass : Bool)
  /-- BLVD_KAT_DONE (R156). A Boulevard pipeline's known-answer test ends, returning it to service or taking it offline. -/
  | blvdKatDone (n : PipeNo) (pass : Bool)
  /-- HASH_KAT_DONE (R154). A hash unit's known-answer test ends; a failing unit goes offline and sets KAT_FAIL. -/
  | hashKatDone (n : HashNo) (pass : Bool)
  /-- UNIT_STOP (R150). A revocation, abort or Kerb stop reaches a lane, pipeline or hash unit, which stops at its stop point and zeroises. -/
  | unitStop (u : Engine)
  /-- LANE_RETEST (R148). A RETEST bit in LANE_OFFLINE_CTRL zeroises the lane and runs its test when its command completes. -/
  | laneRetest (src : Src) (g : GroupNo) (bits : BitVec 8)
  /-- LANE_FORCE_OFF (R148). A FORCE_OFF bit in LANE_OFFLINE_CTRL holds the lane offline from the end of its current command. -/
  | laneForceOff (src : Src) (g : GroupNo) (bits : BitVec 8)
  /-- BLVD_RETEST (R148). A RETEST bit in BLVD_OFFLINE_CTRL zeroises the pipeline and runs its test. -/
  | blvdRetest (src : Src) (bits : BitVec 2)
  /-- BLVD_FORCE_OFF (R148). A FORCE_OFF bit in BLVD_OFFLINE_CTRL holds the pipeline offline. -/
  | blvdForceOff (src : Src) (bits : BitVec 2)
  /-- HASH_RETEST (R154). A bit of HASH_RETEST runs that hash unit's test when it is next idle. -/
  | hashRetest (src : Src) (bits : BitVec 32)
  /-- LANE_BLOCKS_LO_READ (R162). A read of LANE_BLOCKS_LO returns the low count and latches LANE_BLOCKS_HI. -/
  | laneBlocksLoRead (src : Src) (g : GroupNo)
  /-- BLVD_BYTES_LO_READ (R163). A read of BLVD_BYTES0_LO or BLVD_BYTES1_LO latches the matching HI register. -/
  | blvdBytesLoRead (src : Src) (n : PipeNo)
  /-- HASH_BYTES_LO_READ (R164). A read of HASH_BYTES_LO latches HASH_BYTES_HI. -/
  | hashBytesLoRead (src : Src)
  /-- RBT_NEXT_LAUNCH_LO_READ (R100). A read of RBT_NEXT_LAUNCH_LO latches RBT_NEXT_LAUNCH_HI. -/
  | rbtNextLaunchLoRead (src : Src)
  /-- KEY_GENERATE (R182). Opcode KEY_GENERATE fills a target slot with Fountain material under a template. -/
  | keyGenerate (ctx : CtxNo)
  /-- KEY_DERIVE (R183). Opcode KEY_DERIVE writes a key derived by the SP 800-108 KDF from operand 0 into the target and records lineage. -/
  | keyDerive (ctx : CtxNo)
  /-- KEY_IMPORT (R185). Opcode KEY_IMPORT checks and unwraps a root or tenant blob and writes it into the target. -/
  | keyImport (ctx : CtxNo)
  /-- KEY_EXPORT (R186). Opcode KEY_EXPORT writes operand 1 as a root or tenant blob to the destination. -/
  | keyExport (o : BlobOut)
  /-- KEY_ERASE (R187). Opcode KEY_ERASE empties the run of operand 0, advances its generations and applies CASCADE. -/
  | keyErase (ctx : CtxNo)
  /-- KEY_QUERY (R188). Opcode KEY_QUERY returns the attribute word of operand 0 in RESULT. -/
  | keyQuery (ctx : CtxNo) (ecc : EccSeen)
  /-- CASCADE_REVOKE (R200). The cascade of an invalidated CASCADE 1 key reaches and revokes its descendants in lineage order. -/
  | cascadeRevoke
  /-- ZEROISING_END (R196). The Key Table material overwrite finishes, ZEROISING falls and held slot operations are applied. -/
  | zeroisingEnd
  /-- ASSIGN (R549). MEWS_ASSIGN_CMD ASSIGN assigns EMPTY slots of the range to a domain, skipping others. -/
  | assign (src : Src) (dom : BitVec 12)
  /-- UNASSIGN (R549). MEWS_ASSIGN_CMD UNASSIGN unassigns EMPTY slots of the range. -/
  | unassign (src : Src)
  /-- ERASE_ASSIGN (R549). MEWS_ASSIGN_CMD ERASE_ASSIGN erases every key in the range and assigns every slot to a domain. -/
  | eraseAssign (src : Src) (dom : BitVec 12)
  /-- ERASE_UNASSIGN (R549). MEWS_ASSIGN_CMD ERASE_UNASSIGN erases every key in the range and unassigns every slot. -/
  | eraseUnassign (src : Src)
  /-- ASSIGN_DONE (R549). An assignment operation reaches the end of its range, BUSY falls, held slot writes resume and ASSIGN_DONE is set. -/
  | assignDone
  /-- MEWS_SLOT_ATTR0_READ (R173). A read of MEWS_SLOT_ATTR0 returns the selected slot's attribute word bits and latches all four words. -/
  | mewsSlotAttr0Read (src : Src) (ecc : EccSeen)
  /-- TRANSITION (R205). LC_CMD TRANSITION checks the row, its condition and signature, zeroises if needed and writes the new lifecycle record. -/
  | transition (src : Src) (fails : Nat)
  /-- CUST_INSTALL (R208). LC_CMD CUST_INSTALL carries a SECRET-256 key to PD_BACKUP as the customer secret and erases the slot. -/
  | custInstall (src : Src)
  /-- LC_CMD_END (R211). A lifecycle command ends: BUSY falls, LC_DONE and possibly LC_REJECT are set and LC_AUTH is cleared. -/
  | lcCmdEnd
  /-- PIN_TRANSLATE (R227). Opcode PIN_TRANSLATE decodes a PIN block under one PIN key and re-encodes it under another. -/
  | pinTranslate (ctx : CtxNo)
  /-- DUKPT_PIN_TRANSLATE (R232). Opcode DUKPT_PIN_TRANSLATE decodes a PIN block under a DUKPT working key and re-encodes it under operand 1. -/
  | dukptPinTranslate (ctx : CtxNo)
  /-- DUKPT_MAC_VERIFY (R231). Opcode DUKPT_MAC_VERIFY verifies a MAC over the source under a DUKPT working key. -/
  | dukptMacVerify (ctx : CtxNo)
  /-- DUKPT_ORIGINATE (R233). Opcode DUKPT_ORIGINATE issues a DUKPT counter and encodes a PIN block under its working key. -/
  | dukptOriginate (ctx : CtxNo)
  /-- DUKPT_RESERVATION_CONFIRM (R234). A DUKPT record reservation is read back from FeRAM, releasing waiting commands or being retried. -/
  | dukptReservationConfirm (slot : SlotNo) (ok : Bool)
  /-- EMV_ARQC_VERIFY (R238). Opcode EMV_ARQC_VERIFY derives the session key and verifies the card's ARQC. -/
  | emvArqcVerify (ctx : CtxNo)
  /-- EMV_ARPC_GENERATE (R239). Opcode EMV_ARPC_GENERATE verifies the ARQC and forms the ARPC. -/
  | emvArpcGenerate (ctx : CtxNo)
  /-- FF1_ENCRYPT (R240). Opcode FF1_ENCRYPT applies FF1 encryption to LEN numerals. -/
  | ff1Encrypt (ctx : CtxNo)
  /-- FF1_DECRYPT (R240). Opcode FF1_DECRYPT applies FF1 decryption to LEN numerals. -/
  | ff1Decrypt (ctx : CtxNo)
  /-- MILENAGE_VECTOR (R244). Opcode MILENAGE with MODE VECTOR writes an authentication vector to the destination. -/
  | milenageVector (ctx : CtxNo)
  /-- MILENAGE_RESYNC (R245). Opcode MILENAGE with MODE RESYNC recovers SQN_MS from AUTS after checking MAC-S. -/
  | milenageResync (ctx : CtxNo)
  /-- TUAK_VECTOR (R244). Opcode TUAK with MODE VECTOR writes a TUAK authentication vector. -/
  | tuakVector (ctx : CtxNo)
  /-- TUAK_RESYNC (R245). Opcode TUAK with MODE RESYNC recovers SQN_MS after checking MAC-S. -/
  | tuakResync (ctx : CtxNo)
  /-- AKA5G_DERIVE (R246). Opcode AKA5G_DERIVE runs MILENAGE or TUAK and the 5G KDF, writing AUTN, XRES*, HXRES*, K_SEAF and K_AUSF. -/
  | aka5gDerive (ctx : CtxNo)
  /-- PK_SIGN (R255). Opcode PK_SIGN produces an ECDSA, Ed25519, RSA or ML-DSA signature on an Arcade unit. -/
  | pkSign (ctx : CtxNo)
  /-- PK_VERIFY (R255). Opcode PK_VERIFY verifies a signature, returning OK or ARC_REJECT. -/
  | pkVerify (ctx : CtxNo)
  /-- PK_ENCRYPT (R255). Opcode PK_ENCRYPT performs RSAES-OAEP encryption. -/
  | pkEncrypt (ctx : CtxNo)
  /-- PK_DECRYPT (R255). Opcode PK_DECRYPT performs RSAES-OAEP decryption. -/
  | pkDecrypt (ctx : CtxNo)
  /-- PK_KEYPAIR (R258). Opcode PK_KEYPAIR generates a key pair, writing both slots at one commit and the public key to the destination. -/
  | pkKeypair (ctx : CtxNo)
  /-- PK_AGREE (R259). Opcode PK_AGREE computes an ECDH or X25519 shared secret into a target slot. -/
  | pkAgree (ctx : CtxNo)
  /-- KEM_ENCAP (R259). Opcode KEM_ENCAP performs ML-KEM encapsulation, writing the ciphertext and storing the shared secret. -/
  | kemEncap (ctx : CtxNo)
  /-- KEM_DECAP (R260). Opcode KEM_DECAP performs ML-KEM decapsulation with implicit rejection into a target slot. -/
  | kemDecap (ctx : CtxNo)
  /-- MOD_ADD (R261). ARC_COMPUTE FREE function MOD_ADD computes A + B mod N. -/
  | modAdd (ctx : CtxNo)
  /-- MOD_SUB (R261). ARC_COMPUTE FREE function MOD_SUB computes A − B mod N. -/
  | modSub (ctx : CtxNo)
  /-- MOD_MUL (R261). ARC_COMPUTE FREE function MOD_MUL computes A × B mod N. -/
  | modMul (ctx : CtxNo)
  /-- MOD_INV (R261). ARC_COMPUTE FREE function MOD_INV computes A^−1 mod N. -/
  | modInv (ctx : CtxNo)
  /-- MOD_EXP (R261). ARC_COMPUTE FREE function MOD_EXP computes A^E mod N. -/
  | modExp (ctx : CtxNo)
  /-- PT_ADD (R261). ARC_COMPUTE CURVE function PT_ADD adds two points. -/
  | ptAdd (ctx : CtxNo)
  /-- PT_DBL (R261). ARC_COMPUTE CURVE function PT_DBL doubles a point. -/
  | ptDbl (ctx : CtxNo)
  /-- PT_MUL (R261). ARC_COMPUTE CURVE function PT_MUL computes kP, blinded. -/
  | ptMul (ctx : CtxNo)
  /-- PT_MUL_G (R261). ARC_COMPUTE CURVE function PT_MUL_G computes kG, blinded. -/
  | ptMulG (ctx : CtxNo)
  /-- PT_CHECK (R261). ARC_COMPUTE CURVE function PT_CHECK validates a point. -/
  | ptCheck (ctx : CtxNo)
  /-- CURVE_LOAD (R264). ARC_COMPUTE CURVE_LOAD validates curve parameters and commits them into a Curve Store entry. -/
  | curveLoad (ctx : CtxNo)
  /-- CURVE_FREE (R263). ARC_COMPUTE CURVE_FREE empties a Curve Store entry of the queue's domain. -/
  | curveFree (ctx : CtxNo)
  /-- NTT (R261). ARC_COMPUTE POLY function NTT transforms one polynomial. -/
  | ntt (ctx : CtxNo)
  /-- INTT (R261). ARC_COMPUTE POLY function INTT applies the inverse NTT. -/
  | intt (ctx : CtxNo)
  /-- PMUL (R261). ARC_COMPUTE POLY function PMUL multiplies two polynomials in the NTT domain. -/
  | pmul (ctx : CtxNo)
  /-- PADD (R261). ARC_COMPUTE POLY function PADD adds two polynomials. -/
  | padd (ctx : CtxNo)
  /-- PSUB (R261). ARC_COMPUTE POLY function PSUB subtracts two polynomials. -/
  | psub (ctx : CtxNo)
  /-- ARC_ZEROISE_DONE (R252). An Arcade unit finishes zeroising its operand memory and the command's completion is written. -/
  | arcZeroiseDone (n : ArcNo)
  /-- ARC_KAT_DONE (R274). An Arcade unit's known-answer test ends, taking it offline on failure. -/
  | arcKatDone (n : ArcNo) (pass : Bool)
  /-- ARC_RETEST (R274). ARC_OFFLINE_CTRL.RETEST zeroises the unit and runs its test after the current command. -/
  | arcRetest (src : Src) (n : ArcNo)
  /-- ARC_FORCE_OFF (R148). ARC_OFFLINE_CTRL.FORCE_OFF holds the unit offline from the end of its current command. -/
  | arcForceOff (src : Src) (n : ArcNo) (on : Bool)
  /-- ARC_CURVE_FREE (R263). A write of 1 to ARC_CURVE_FREE empties the selected Curve Store entry. -/
  | arcCurveFree (src : Src)
  /-- RNG_READ (R295). Opcode RNG_READ writes software-instance random bytes in 4,096-byte requests, or completes RNG_NOT_READY. -/
  | rngRead (ctx : CtxNo)
  /-- NOISE_SAMPLE (R280). Every 200 ns the noise cells are sampled and the samples are health-tested, credited and conditioned. -/
  | noiseSample (bits : BitVec 4)
  /-- FOUNTAIN_SETTLE_END (R297). The 100 µs settling period ends and the start-up test begins. -/
  | fountainSettleEnd
  /-- STARTUP_TIMEOUT (R298). Step 3 of start-up has not completed 3 ms after power-up and the Fountain enters FAILED. -/
  | startupTimeout
  /-- DRBG_GENERATE (R290). The expander serves one generate request of up to 4,096 bytes to a consumer and updates its state. -/
  | drbgGenerate (turn : DrbgTurn)
  /-- FNT_KAT (R301). A write of 1 to FNT_KAT.RUN runs the Fountain known-answer test, pausing both instances. -/
  | fntKat (src : Src)
  /-- FNT_KAT_DONE (R302). The Fountain known-answer test ends, setting KAT_DONE or entering FAILED. -/
  | fntKatDone (pass : Bool)
  /-- FNT_SW_DATA_READ (R296). A read of FNT_SW_DATA returns 16 fresh bits from the software instance, or VALID 0. -/
  | fntSwDataRead (src : Src)
  /-- FNT_RAW_DATA_READ (R303). A read of FNT_RAW_DATA removes and returns the oldest 32 raw samples. -/
  | fntRawDataRead (src : Src)
  /-- EPOCH_BOUNDARY (R311). The tick enters a new epoch: EPOCH is raised and CT_EPOCH advances. -/
  | epochBoundary
  /-- SLEW_STEP (R312). A pending correction applies one hold or hurry step to the tick. -/
  | slewStep
  /-- SYNC_MARKER (R314). A SYNC pin or Crossing boundary marker is timestamped, its offset measured and accepted, rejected or ignored. -/
  | syncMarker (fromXing : Bool)
  /-- HOLDOVER_TIMEOUT (R316). TIMEOUT whole epochs pass without an accepted marker and the Clocktower enters HOLDOVER. -/
  | holdoverTimeout
  /-- CT_CFG_WRITE (R307). A write of CT_CFG changes K if allowed, and SRC changes move the lock state. -/
  | ctCfgWrite (src : Src) (v : BitVec 32)
  /-- LOAD_NOW (R317). CT_CMD LOAD_NOW loads the tick in the next cycle, releasing held commands it passes over. -/
  | loadNow (src : Src)
  /-- LOAD_AT_SYNC (R317). CT_CMD LOAD_AT_SYNC arms a tick load at the next marker. -/
  | loadAtSync (src : Src)
  /-- CANCEL_LOAD (R317). CT_CMD CANCEL_LOAD ends a pending LOAD_AT_SYNC with CANCELLED. -/
  | cancelLoad (src : Src)
  /-- CT_TICK_LO_READ (R319). A read of CT_TICK_LO latches CT_TICK_HI and the epoch registers from the same tick. -/
  | ctTickLoRead (src : Src)
  /-- TICK_COMPARE_MATCH (R373). The tick reaches TICKCMP and the core's tick-compare source becomes pending. -/
  | tickCompareMatch (c : CoreNo)
  /-- UDF (R334). Instruction UDF raises the illegal-instruction exception. -/
  | udf (c : CoreNo) (g : IssueIn) (w : BitVec 32)
  /-- SYS_NOP (R334). SYS instruction NOP does nothing. -/
  | sysNop (c : CoreNo) (g : IssueIn)
  /-- WFI (R375). Instruction WFI waits until an interrupt above IPL is pending. -/
  | wfi (c : CoreNo) (g : IssueIn)
  /-- MBAR (R323). Instruction MBAR stalls until every earlier store has taken effect for every master. -/
  | mbar (c : CoreNo) (g : IssueIn)
  /-- MFS (R327). Instruction MFS reads a special register into a general register. -/
  | mfs (c : CoreNo) (g : IssueIn) (d : GReg) (sr : BitVec 8)
  /-- MTS (R382). Instruction MTS writes a special register; a PSW mode, IE or IPL change applies from the shadow instruction. -/
  | mts (c : CoreNo) (g : IssueIn) (sr : BitVec 8) (a : GReg)
  /-- GATE (R385). Instruction GATE checks Tollgate entry n and its buffer pairs and enters the handler. -/
  | gate (c : CoreNo) (g : IssueIn) (n : BitVec 12)
  /-- ERET (R379). Instruction ERET checks and pops the frame and return-stack copy and returns. -/
  | eret (c : CoreNo) (g : IssueIn)
  /-- HALT (R334). Instruction HALT stops the core in HALTED. -/
  | halt (c : CoreNo) (g : IssueIn)
  /-- ADD (R335). ALU ADD writes Ga + Gb. -/
  | add (c : CoreNo) (g : IssueIn) (d : GReg) (a : GReg) (b : GReg)
  /-- ADDC (R335). ALU ADDC writes Ga + Gb and the carry. -/
  | addc (c : CoreNo) (g : IssueIn) (d : GReg) (a : GReg) (b : GReg)
  /-- ADDX (R335). ALU ADDX writes Ga + Gb + CY and the carry. -/
  | addx (c : CoreNo) (g : IssueIn) (d : GReg) (a : GReg) (b : GReg)
  /-- SUB (R335). ALU SUB writes Ga − Gb. -/
  | sub (c : CoreNo) (g : IssueIn) (d : GReg) (a : GReg) (b : GReg)
  /-- SUBC (R335). ALU SUBC writes Ga − Gb and the borrow. -/
  | subc (c : CoreNo) (g : IssueIn) (d : GReg) (a : GReg) (b : GReg)
  /-- SUBX (R335). ALU SUBX writes Ga − Gb − CY and the borrow. -/
  | subx (c : CoreNo) (g : IssueIn) (d : GReg) (a : GReg) (b : GReg)
  /-- AND (R335). ALU AND writes Ga AND Gb. -/
  | and (c : CoreNo) (g : IssueIn) (d : GReg) (a : GReg) (b : GReg)
  /-- OR (R335). ALU OR writes Ga OR Gb. -/
  | or (c : CoreNo) (g : IssueIn) (d : GReg) (a : GReg) (b : GReg)
  /-- XOR (R335). ALU XOR writes Ga XOR Gb. -/
  | xor (c : CoreNo) (g : IssueIn) (d : GReg) (a : GReg) (b : GReg)
  /-- ANDN (R335). ALU ANDN writes Ga AND NOT Gb. -/
  | andn (c : CoreNo) (g : IssueIn) (d : GReg) (a : GReg) (b : GReg)
  /-- COPY (R335). ALU COPY writes Gb. -/
  | copy (c : CoreNo) (g : IssueIn) (d : GReg) (a : GReg) (b : GReg)
  /-- INV (R335). ALU INV writes NOT Gb. -/
  | inv (c : CoreNo) (g : IssueIn) (d : GReg) (a : GReg) (b : GReg)
  /-- MIN (R335). ALU MIN writes the signed minimum. -/
  | min (c : CoreNo) (g : IssueIn) (d : GReg) (a : GReg) (b : GReg)
  /-- MAX (R335). ALU MAX writes the signed maximum. -/
  | max (c : CoreNo) (g : IssueIn) (d : GReg) (a : GReg) (b : GReg)
  /-- MINU (R335). ALU MINU writes the unsigned minimum. -/
  | minu (c : CoreNo) (g : IssueIn) (d : GReg) (a : GReg) (b : GReg)
  /-- MAXU (R335). ALU MAXU writes the unsigned maximum. -/
  | maxu (c : CoreNo) (g : IssueIn) (d : GReg) (a : GReg) (b : GReg)
  /-- ADDI (R336). ALUI ADDI adds a sign-extended immediate. -/
  | addi (c : CoreNo) (g : IssueIn) (d : GReg) (a : GReg) (imm : BitVec 12)
  /-- ANDI (R336). ALUI ANDI ANDs a zero-extended immediate. -/
  | andi (c : CoreNo) (g : IssueIn) (d : GReg) (a : GReg) (imm : BitVec 12)
  /-- ORI (R336). ALUI ORI ORs a zero-extended immediate. -/
  | ori (c : CoreNo) (g : IssueIn) (d : GReg) (a : GReg) (imm : BitVec 12)
  /-- XORI (R336). ALUI XORI XORs a zero-extended immediate. -/
  | xori (c : CoreNo) (g : IssueIn) (d : GReg) (a : GReg) (imm : BitVec 12)
  /-- ADDCI (R336). ALUI ADDCI adds a sign-extended immediate and writes CY. -/
  | addci (c : CoreNo) (g : IssueIn) (d : GReg) (a : GReg) (imm : BitVec 12)
  /-- MOVI (R337). MOVI loads a 16-bit immediate into the low or high half of Gd. -/
  | movi (c : CoreNo) (g : IssueIn) (d : GReg) (h : Bool) (imm : BitVec 16)
  /-- SHL (R338). BIT SHL shifts left. -/
  | shl (c : CoreNo) (g : IssueIn) (d : GReg) (a : GReg) (amt : ShAmt)
  /-- SHR (R338). BIT SHR shifts right with zeros in. -/
  | shr (c : CoreNo) (g : IssueIn) (d : GReg) (a : GReg) (amt : ShAmt)
  /-- SAR (R338). BIT SAR shifts right with bit 31 in. -/
  | sar (c : CoreNo) (g : IssueIn) (d : GReg) (a : GReg) (amt : ShAmt)
  /-- ROR (R338). BIT ROR rotates right. -/
  | ror (c : CoreNo) (g : IssueIn) (d : GReg) (a : GReg) (amt : ShAmt)
  /-- CLZ (R338). BIT CLZ counts leading zero bits. -/
  | clz (c : CoreNo) (g : IssueIn) (d : GReg) (a : GReg)
  /-- POPC (R338). BIT POPC counts one bits. -/
  | popc (c : CoreNo) (g : IssueIn) (d : GReg) (a : GReg)
  /-- PAR (R338). BIT PAR computes the even-parity bit of a field. -/
  | par (c : CoreNo) (g : IssueIn) (d : GReg) (a : GReg) (f : BitField)
  /-- BPAR (R338). BIT BPAR computes the even-parity bit of each byte. -/
  | bpar (c : CoreNo) (g : IssueIn) (d : GReg) (a : GReg)
  /-- BREV (R338). BIT BREV reverses the low W bits. -/
  | brev (c : CoreNo) (g : IssueIn) (d : GReg) (a : GReg) (f : BitField)
  /-- BREVB (R338). BIT BREVB reverses the bits of each byte. -/
  | brevb (c : CoreNo) (g : IssueIn) (d : GReg) (a : GReg)
  /-- BSWAP (R338). BIT BSWAP reverses the byte order. -/
  | bswap (c : CoreNo) (g : IssueIn) (d : GReg) (a : GReg)
  /-- MUL (R339). MULDIV MUL writes the low 32 bits of the product. -/
  | mul (c : CoreNo) (g : IssueIn) (d : GReg) (a : GReg) (b : GReg)
  /-- MULHU (R339). MULDIV MULHU writes the high 32 bits of the unsigned product. -/
  | mulhu (c : CoreNo) (g : IssueIn) (d : GReg) (a : GReg) (b : GReg)
  /-- MULHS (R339). MULDIV MULHS writes the high 32 bits of the signed product. -/
  | mulhs (c : CoreNo) (g : IssueIn) (d : GReg) (a : GReg) (b : GReg)
  /-- DIVU (R339). MULDIV DIVU divides unsigned. -/
  | divu (c : CoreNo) (g : IssueIn) (d : GReg) (a : GReg) (b : GReg)
  /-- DIVS (R339). MULDIV DIVS divides signed. -/
  | divs (c : CoreNo) (g : IssueIn) (d : GReg) (a : GReg) (b : GReg)
  /-- REMU (R339). MULDIV REMU gives the unsigned remainder. -/
  | remu (c : CoreNo) (g : IssueIn) (d : GReg) (a : GReg) (b : GReg)
  /-- REMS (R339). MULDIV REMS gives the signed remainder. -/
  | rems (c : CoreNo) (g : IssueIn) (d : GReg) (a : GReg) (b : GReg)
  /-- LDST_LOAD (R340). LDST with L 1 loads a byte, halfword or word from Gb + OFF12. -/
  | ldstLoad (c : CoreNo) (g : IssueIn) (d : GReg) (b : GReg) (sz : BitVec 2) (x : Bool) (off : BitVec 12) (flt : MemFlt)
  /-- LDST_STORE (R340). LDST with L 0 stores a byte, halfword or word to Gb + OFF12. -/
  | ldstStore (c : CoreNo) (g : IssueIn) (d : GReg) (b : GReg) (k : StoreKind) (off : BitVec 12)
  /-- PUSHM (R341). STACK PUSHM pushes the masked registers onto the data stack. -/
  | pushm (c : CoreNo) (g : IssueIn) (mask : BitVec 16)
  /-- POPM (R341). STACK POPM pops the masked registers. -/
  | popm (c : CoreNo) (g : IssueIn) (mask : BitVec 16)
  /-- ADJ (R341). STACK ADJ adds IMM16 × 4 to DSP. -/
  | adj (c : CoreNo) (g : IssueIn) (imm : BitVec 16)
  /-- SWAP (R342). ATOMIC SWAP exchanges a shared SRAM word indivisibly. -/
  | swap (c : CoreNo) (g : IssueIn) (d : GReg) (b : GReg) (a : GReg)
  /-- CAS (R342). ATOMIC CAS compares and swaps a shared SRAM word and sets predicate PD. -/
  | cas (c : CoreNo) (g : IssueIn) (d : GReg) (b : GReg) (a : GReg) (pd : BitVec 2)
  /-- ADDA (R342). ATOMIC ADDA adds to a shared SRAM word indivisibly. -/
  | adda (c : CoreNo) (g : IssueIn) (d : GReg) (b : GReg) (a : GReg)
  /-- B (R343). BRANCH B transfers relative after its delay slot. -/
  | b (c : CoreNo) (g : IssueIn) (disp : BitVec 22)
  /-- CALL (R343). BRANCH CALL transfers relative and pushes the return address on both stacks. -/
  | call (c : CoreNo) (g : IssueIn) (disp : BitVec 22)
  /-- JMP (R343). JUMP JMP transfers to Ga. -/
  | jmp (c : CoreNo) (g : IssueIn) (a : GReg)
  /-- CALLR (R343). JUMP CALLR transfers to Ga and pushes the return address. -/
  | callr (c : CoreNo) (g : IssueIn) (a : GReg)
  /-- RET (R383). JUMP RET pops both return-address copies, compares them and returns. -/
  | ret (c : CoreNo) (g : IssueIn)
  /-- LOOP (R348). LOOP sets a hardware loop level's start, end and count. -/
  | loop (c : CoreNo) (g : IssueIn) (lvl : Bool) (cnt : LoopCnt) (len : BitVec 12)
  /-- BCOPY (R354). BLOCK BCOPY copies words element by element, interruptibly. -/
  | bcopy (c : CoreNo) (g : IssueIn) (d : GReg) (a : GReg) (m : BlockLen)
  /-- BCLR (R354). BLOCK BCLR clears words element by element. -/
  | bclr (c : CoreNo) (g : IssueIn) (d : GReg) (m : ClearLen)
  /-- BCRC (R354). BLOCK BCRC advances a CRC over bytes element by element. -/
  | bcrc (c : CoreNo) (g : IssueIn) (d : GReg) (a : GReg) (n : GReg) (poly : BitVec 2)
  /-- CRC (R352). CRC advances the CRC in Gd over 8, 16 or 32 bits of Ga. -/
  | crc (c : CoreNo) (g : IssueIn) (d : GReg) (a : GReg) (poly : BitVec 2) (sz : BitVec 2)
  /-- TEST (R344). TEST compares Ga with b and writes the result into a predicate. -/
  | test (c : CoreNo) (g : IssueIn) (pd : BitVec 2) (comb : BitVec 2) (a : GReg) (rel : BitVec 3) (b : TestArg)
  /-- INTERRUPT_ENTRY (R374). At an instruction boundary the core takes the highest-priority pending interrupt source. -/
  | interruptEntry (e : EntryIn)
  /-- SV_SMP_CLEAR (R394). SV_SMP_CTRL.CLEAR empties the sampling buffer. -/
  | svSmpClear (src : Src) (c : CoreNo)
  /-- IXM_SWI_RAISE (R373). A write to IXM_SWI_RAISE sets software interrupt pending bits of the page's core. -/
  | ixmSwiRaise (src : Src) (c : CoreNo) (bits : BitVec 16)
  /-- IXM_CTRL_START (R363). IXM_CTRL START runs a HALTED core from IXM_START_PC. -/
  | ixmCtrlStart (src : Src) (c : CoreNo)
  /-- IXM_CTRL_HALT (R363). IXM_CTRL HALT stops the core at the next instruction boundary. -/
  | ixmCtrlHalt (src : Src) (c : CoreNo)
  /-- IXM_CTRL_RESET (R363). IXM_CTRL RESET resets a core's registers and zeroises its local RAM. -/
  | ixmCtrlReset (src : Src) (c : CoreNo)
  /-- CORE_RESET_DONE (R363). A core's local RAM zeroisation ends and it enters HALTED. -/
  | coreResetDone (c : CoreNo)
  /-- LOAD (R359). IXM_LD_CMD LOAD verifies and loads a signed image into the target cores, leaving them HALTED. -/
  | load (src : Src) (img : ImgIn)
  /-- LOAD_START (R359). IXM_LD_CMD LOAD_START loads an image and starts the target cores at ENTRY. -/
  | loadStart (src : Src) (img : ImgIn)
  /-- IMAGE_LOAD_DONE (R359). The image body has streamed and its hash compared, and the load ends with its RESULT. -/
  | imageLoadDone (body : ImgIn) (fails : Nat)
  /-- SRAM_SCRUB (R413). The background scrubber visits SRAM words, correcting or marking errors found. -/
  | sramScrub (site : ScrubSite) (uncorr : Bool)
  /-- RCMD_READ (R408). CHECKPOINT_RCMD READ copies the selected rule into RDATA0 to RDATA3. -/
  | rcmdRead (src : Src) (early : Bool)
  /-- RCMD_WRITE (R405). CHECKPOINT_RCMD WRITE checks the staged rule and commits it for every Checkpoint in one cycle. -/
  | rcmdWrite (src : Src) (early : Bool)
  /-- RCMD_CLEAR (R408). CHECKPOINT_RCMD CLEAR zeroes the selected rule. -/
  | rcmdClear (src : Src) (early : Bool)
  /-- CHECKPOINT_SYNC_READ (R407). A read of CHECKPOINT_SYNC waits for every earlier-checked access to complete. -/
  | checkpointSyncRead (src : Src)
  /-- CHECKPOINT_SYNC_RETURN (R407). The pending CHECKPOINT_SYNC read returns DONE 1 when accesses have completed, or DONE 0 after 50 µs. -/
  | checkpointSyncReturn
  /-- DMA_GO (R409). DMA GO latches the engine domain, checks both ranges and starts the transfer. -/
  | dmaGo (src : Src) (e : DmaNo) (v : BitVec 32)
  /-- DMA_ABORT (R411). DMA ABORT stops the engine at its next beat boundary. -/
  | dmaAbort (src : Src) (e : DmaNo)
  /-- DMA_DONE (R411). A DMA transfer ends with a status, clears BUSY and sets DMA_DONE. -/
  | dmaDone (e : DmaNo) (data : Bytes) (fin : DmaFin)
  /-- KERB_DETECTION (R421). A Kerb sensor source detects its condition, counts it and may become lasting and apply its response. -/
  | kerbDetection (sense : KSense)
  /-- KERB_REPORT (R422). A Seal, compare, Fountain or fault report from the Hub reaches the Kerb and is counted, logged or made lasting. -/
  | kerbReport
  /-- KERB_INJECT (R418). A write to KERB_INJECT makes one detection on each named source, subject to HARD_LOCK. -/
  | kerbInject (src : Src) (v : BitVec 32)
  /-- KERB_WINDOW_EXPIRE (R421). A Kerb source's count window expires below threshold and COUNT returns to 0. -/
  | kerbWindowExpire (n : SrcNo)
  /-- KERB_RESET_ACTION (R425). Once every other action of a response has completed and logged, the RESET action resets the Hub die. -/
  | kerbResetAction
  /-- RESPONSE_END (R425). The last action of a response completes and RESP_BUSY falls. -/
  | responseEnd
  /-- KERB_SRC_CLR (R423). A write to KERB_SRC_CLR clears lasting sources and logs CLEARED. -/
  | kerbSrcClr (src : Src) (v : BitVec 32)
  /-- LOCKDOWN_CLR (R428). KERB_ACK.LOCKDOWN_CLR ends lockdown. -/
  | lockdownClr (src : Src)
  /-- SEV_CLR (R441). KERB_ACK.SEV_CLR sets KERB_STAT.SEV and the KSEV pins to 0. -/
  | sevClr (src : Src)
  /-- MAIN_POWER_FAIL (R431). Main power fails and PD_BACKUP runs alone from VBAT. -/
  | mainPowerFail
  /-- BACKUP_ALARM (R432). An armed source detects in backup operation, the secrets are erased and a backup log entry is written. -/
  | backupAlarm (n : SrcNo)
  /-- BROWNOUT (R434). VBAT falls below 2.2 V without main power and PD_BACKUP erases and logs BROWNOUT. -/
  | brownout
  /-- KOSC_STOP (R435). No KOSC edge arrives in 4 backup-clock cycles and PD_BACKUP treats it as a CLOCK alarm. -/
  | koscStop
  /-- MESH_PATTERN_CHANGE (R418). The Kerb changes the mesh pattern every 1 µs, or every backup-clock cycle in backup operation. -/
  | meshPatternChange
  /-- KERB_POWER_UP (R436). Main power rises, the Kerb powers up and applies every unapplied backup-log entry before boot continues. -/
  | kerbPowerUp
  /-- LOG_ENTRY_WRITE (R438). The next queued Kerb log entry is written to FeRAM and confirmed by read-back, or falls back to the backup log. -/
  | logEntryWrite (fails : Nat)
  /-- KERB_BLOG_CLR (R442). KERB_BLOG_CLR removes every backup-log entry marked APPLIED. -/
  | kerbBlogClr (src : Src)
  /-- KERB_LOG_DATA0_READ (R442). A read of KERB_LOG_DATA0 latches all eight words of the selected entry. -/
  | kerbLogData0Read (src : Src)
  /-- KERB_BLOG_DATA0_READ (R442). A read of KERB_BLOG_DATA0 latches all four words of the selected backup entry. -/
  | kerbBlogData0Read (src : Src)
  /-- KERB_BTIME_LO_READ (R431). A read of KERB_BTIME_LO latches KERB_BTIME_HI. -/
  | kerbBtimeLoRead (src : Src)
  /-- PREPARE (R448). XING_CMD PREPARE generates an ephemeral P-256 key pair and shows the public key. -/
  | prepare (src : Src)
  /-- COMMIT (R449). XING_CMD COMMIT verifies the pairing statement and, with the peer, derives and stores the pairing root. -/
  | commit (src : Src) (peer : Option PeerHello) (fails : Nat)
  /-- COMMIT_PEER_TIMEOUT (R449). No matching peer appears within 10 s and COMMIT ends with PEER. -/
  | commitPeerTimeout
  /-- LEAVE (R459). XING_CMD LEAVE gives up the sequencer role or takes the link down as a cut. -/
  | leave (src : Src)
  /-- TAKEOVER (R458). XING_CMD TAKEOVER makes an ISOLATED device SOLO and sequencer. -/
  | takeover (src : Src)
  /-- UNPAIR (R450). XING_CMD UNPAIR erases the pairing root. -/
  | unpair (src : Src)
  /-- XING_LINK_UP (R444). The Crossing link trains, session values are exchanged and directional session keys derived. -/
  | xingLinkUp (peer : PeerInfo)
  /-- JOIN_DONE (R452). The join copy ends and the state becomes PAIRED with JOINED set. -/
  | joinDone (img : JoinImage)
  /-- FRAME_RECEIVE (R445). A Crossing frame arrives and is authenticated; a tag failure discards it and retrains the link. -/
  | frameReceive (fr : XFrame) (rx : XRx)
  /-- MIRROR_CONFIRM (R453). The partner confirms a mirrored effect and the originating command proceeds. -/
  | mirrorConfirm (n : Nat)
  /-- HEARTBEAT_SEND (R446). The link layer sends a heartbeat frame every 1 µs while conditions allow. -/
  | heartbeatSend
  /-- XING_LINK_LOST (R457). No valid frame arrives for 200 µs and the link is declared lost. -/
  | xingLinkLost
  /-- PARTNER_DECISION (R457). The non-sequencer decides on XALIVE_IN and becomes SOLO or ISOLATED. -/
  | partnerDecision (stopped : Bool)
  /-- FAILOVER (R457). A device that held STANDBY queues reaches SOLO and its last queue changes role. -/
  | failover
  /-- RTT_MEASURE (R447). The Crossing measures the round trip every 1 ms for marker compensation. -/
  | rttMeasure (n : BitVec 16)
  /-- XING_QROLE_WRITE (R456). A write to XING_QROLE sets a queue PRIMARY or LOCAL, copying the record and window to the standby. -/
  | xingQroleWrite (src : Src) (v : BitVec 32) (peerDisabled : Bool)
  /-- FOUND (R462). FLEET_CMD FOUND creates the fleet root and Town Hall keys. -/
  | found (src : Src)
  /-- ENROL (R464). FLEET_CMD ENROL on a Ward checks the voucher, derives K_W and writes a request. -/
  | enrol (src : Src) (fails : Nat)
  /-- MAKE (R465). FLEET_CMD MAKE builds a signed KEY, TICK or RETIRE parcel. -/
  | make (src : Src)
  /-- ACCEPT (R466). FLEET_CMD ACCEPT checks a parcel and acts on it. -/
  | accept (src : Src) (fails : Nat)
  /-- RETIRE_WARD (R462). FLEET_CMD RETIRE_WARD empties the selected Ward entry. -/
  | retireWard (src : Src) (fails : Nat)
  /-- DISSOLVE (R462). FLEET_CMD DISSOLVE erases the fleet root and sets the role to NONE. -/
  | dissolve (src : Src) (fails : Nat)
  /-- DEPOT_INIT (R471). DEPOT_CMD INIT powers, identifies, configures and tunes the SD card. -/
  | depotInit (src : Src)
  /-- DEPOT_READ (R477). DEPOT_CMD READ moves card blocks into the shared SRAM in runs. -/
  | depotRead (src : Src)
  /-- DEPOT_WRITE (R477). DEPOT_CMD WRITE moves shared SRAM blocks to the card in runs. -/
  | depotWrite (src : Src)
  /-- SEG_WRITE (R482). DEPOT_CMD SEG_WRITE writes a journalled segment and marks it VERIFIED after read-back. -/
  | segWrite (src : Src)
  /-- DEPOT_RAW (R484). DEPOT_CMD RAW sends one SD command and captures its response. -/
  | depotRaw (src : Src)
  /-- POWER_OFF (R484). DEPOT_CMD POWER_OFF switches the card supply off. -/
  | powerOff (src : Src)
  /-- DEPOT_ABORT (R485). DEPOT_CMD ABORT ends the running command at its next run boundary. -/
  | depotAbort (src : Src)
  /-- SD_RESPONSE (R474). An SD response token arrives, or fails to within 64 clocks, and the command proceeds or is retried. -/
  | sdResponse (r : SdResp)
  /-- SD_DATA_BLOCK (R473). An SD data block or CRC status token completes and is checked. -/
  | sdDataBlock (d : SdData)
  /-- CARD_BUSY_END (R475). The card releases DAT0 after a busy phase and the run is confirmed. -/
  | cardBusyEnd
  /-- BUSY_TIMEOUT (R475). DAT0 busy lasts BUSY_MS and the command ends with BUSY_TIMEOUT. -/
  | busyTimeout
  /-- RETUNE_TIMER (R472). RETUNE seconds pass since tuning and the Depot retunes before the next command. -/
  | retuneTimer
  /-- CARD_LOST (R480). The card is gone for 20 µs, or three responses time out, and the Depot powers down the card. -/
  | cardLost
  /-- CARD_IN (R480). A card is inserted and CARD_IN is set. -/
  | cardIn
  /-- ACTIVATE (R486). PB_CMD ACTIVATE cold-resets the card through the enabled classes and receives its ATR. -/
  | activate (src : Src) (p : PortNo)
  /-- EXCHANGE (R489). PB_CMD EXCHANGE sends a TPDU under T=0 or an APDU under T=1 and returns the response. -/
  | exchange (src : Src) (p : PortNo)
  /-- DEACTIVATE (R491). PB_CMD DEACTIVATE runs the deactivation sequence. -/
  | deactivate (src : Src) (p : PortNo)
  /-- WARM_RESET (R493). PB_CMD WARM_RESET holds RST low with VCC and CLK on and re-runs the ATR and protocol selection. -/
  | warmReset (src : Src) (p : PortNo)
  /-- ATR_RECEIVE (R487). A card's ATR is received whole and checked. -/
  | atrReceive (p : PortNo) (bytes : Bytes)
  /-- PPS_RESPONSE (R488). The card's PPS response arrives or fails, setting Fi and Di or forcing a new cold reset. -/
  | ppsResponse (p : PortNo) (bytes : Option Bytes)
  /-- T1_BLOCK_RECEIVE (R490). A T=1 block arrives and is acknowledged, chained or answered with an R or S block. -/
  | t1BlockReceive (p : PortNo) (bytes : Bytes) (good : Bool)
  /-- CARD_WAIT_TIMEOUT (R490). WT, BWT or the ATR window expires without a card answer. -/
  | cardWaitTimeout (p : PortNo)
  /-- CLASS_RETRY (R486). 10 ms after a failed class the Postbox tries the next class. -/
  | classRetry (p : PortNo)
  /-- PB_REMOVE (R491). PBp_DET shows no card for 20 µs, the port deactivates and any command ends REMOVED. -/
  | pbRemove (p : PortNo)
  /-- PB_INSERT (R495). A card is inserted on a Postbox port and INSERT is set. -/
  | pbInsert (p : PortNo)
  /-- KIOSK_MODE_WRITE (R496). A write of KIOSK_MODE requests a new mode, pending until the current command or APDU ends. -/
  | kioskModeWrite (src : Src) (v : BitVec 2)
  /-- MODE_CHANGE_APPLY (R496). The current reader command or tag APDU ends and the pending mode takes effect. -/
  | modeChangeApply
  /-- POLL_A (R498). KIOSK_RD_CMD POLL_A finds and selects a Type A card. -/
  | pollA (src : Src) (extField : Bool)
  /-- POLL_B (R498). KIOSK_RD_CMD POLL_B polls a Type B card. -/
  | pollB (src : Src) (extField : Bool)
  /-- TRANSCEIVE (R498). KIOSK_RD_CMD TRANSCEIVE sends a frame and waits up to FWT for a reply. -/
  | transceive (src : Src) (extField : Bool)
  /-- READER_HALT (R498). KIOSK_RD_CMD HALT sends HLTA or HLTB. -/
  | readerHalt (src : Src) (extField : Bool)
  /-- READER_FRAME_RECEIVE (R497). A card's reply frame is received whole and its CRC checked. -/
  | readerFrameReceive (f : RdFrame)
  /-- FWT_EXPIRE (R498). No reply arrives within FWT and the reader command ends NO_CARD. -/
  | fwtExpire
  /-- LPCD_PING (R500). Every PERIOD ms the Kiosk sends a carrier burst and compares the amplitude with REF. -/
  | lpcdPing (extField : Bool) (amp : BitVec 10)
  /-- LPCD_CALIBRATE (R500). KIOSK_LPCD_CFG.CALIBRATE stores the next measurement as REF. -/
  | lpcdCalibrate (src : Src)
  /-- FIELD_ON (R501). An external field appears in TAG mode. -/
  | fieldOn (strong : Bool)
  /-- FIELD_OFF (R507). The field collapses, ending the session and perhaps clearing the mailbox. -/
  | fieldOff
  /-- TAG_APDU (R502). A field APDU arrives whole and the tag answers it. -/
  | tagApdu (apdu : Bytes) (crcOk : Bool)
  /-- WTX_EXPIRE (R506). An extended waiting time runs out while the host holds the mailbox. -/
  | wtxExpire
  /-- KICK (R501). KIOSK_TAG_CFG.KICK ends the session and mutes the tag. -/
  | kick (src : Src)
  /-- PLC_COMMIT (R503). KIOSK_PLC_CMD COMMIT writes the staged Placard to the idle bank and switches the record. -/
  | plcCommit (src : Src) (len : BitVec 12)
  /-- PLC_COMMIT_DONE (R503). The Placard record write is confirmed and PLC_DONE is set. -/
  | plcCommitDone (ok : Bool)
  /-- MBX_HOLD (R506). A write of MBX_CTRL.HOLD requests or releases host ownership of the mailbox. -/
  | mbxHold (src : Src) (on : Bool)
  /-- DOMAIN_SWITCH_OFF (R514). A 0 in a PWR_REQ bit stops dispatch to a switchable domain before removing its power. -/
  | domainSwitchOff (src : Src) (n : DomNo)
  /-- DOMAIN_OFF_DONE (R514). A domain's units have drained and its power is removed. -/
  | domainOffDone (n : DomNo)
  /-- DOMAIN_SWITCH_ON (R516). A 1 in a PWR_REQ bit switches a domain on. -/
  | domainSwitchOn (src : Src) (n : DomNo)
  /-- DOMAIN_ON_DONE (R516). A domain powers up, its registers reset and its units begin their known-answer tests. -/
  | domainOnDone (n : DomNo)
  /-- SYS_RST_N (R523). SYS_RST_N held low for at least 1 µs resets the Hub die. -/
  | sysRstN
  /-- HUB_RESET (R523). RST_CTRL HUB_RESET with the right KEY resets the Hub die. -/
  | hubReset (src : Src) (key : BitVec 16)
  /-- PLL_LOSS (R522). The PLL loses lock, every divided clock stops and the Hub is reset. -/
  | pllLoss
  /-- PLL_LOCK (R520). The Hub PLL locks to the reference and the Hub domains power up in order. -/
  | pllLock (ref0 : Bool) (ref1 : Bool)
  /-- SRAM_INIT_DONE (R525). Hub SRAM zeroing ends, the lifecycle record is read, state effects applied, the root derived and READY reached. -/
  | sramInitDone (us : BitVec 32)
  /-- AUTOLOAD (R528). After the Arcade tests end, the device runs Depot INIT and loads the boot image. -/
  | autoload (ended : Unit)
  /-- BOOT_CFG_WRITE (R530). A BOOT_CFG write is stored in FeRAM and confirmed by read-back. -/
  | bootCfgWrite (src : Src) (v : BitVec 3) (fails : Nat)
  /-- BOOT_LBA_WRITE (R530). A BOOT_LBA write is stored in FeRAM and confirmed by read-back. -/
  | bootLbaWrite (src : Src) (v : BitVec 32) (fails : Nat)
  /-- FLEET_ADMIT (R464). FLEET_CMD ADMIT on the Town Hall checks a Ward's enrolment request, derives K_W and stores the Ward entry. -/
  | fleetAdmit (src : Src) (fails : Nat)
  /-- VF_ENABLE (R44). Setting VF Enable or raising NumVFs brings virtual functions into existence, so queues naming them can be enabled. -/
  | vfEnable (p : PortNo) (n : BitVec 7)
  /-- LINK_WIDTH_CHANGE (R84). The link enters or leaves an L0p width, or otherwise changes speed or width with the data link layer up, setting SPEED_CHANGE. -/
  | linkWidthChange (p : PortNo) (tr : LinkTrain)
  /-- AER_ERROR_LOGGED (R82). A correctable or uncorrectable error is logged in AER, counting QUAY_LINK_ERR or a port-page fault with UNCORR. -/
  | aerErrorLogged (p : PortNo) (uncorr : Bool)
  /-- ARC_RESULT_RELEASE (R272). An Arcade unit finishes its arithmetic, checks the invariant and releases its result before the final zeroisation. -/
  | arcResultRelease (n : ArcNo) (seen : ArcSeen) (hit : Option Hit)
  /-- HASH_DIGEST_DONE (R159). A hash unit finishes its last block and releases the digest or MAC, and the command completes. -/
  | hashDigestDone (o : HashOut)
  /-- COMPOSITE_STEP_END (R215). A step of a composite sequence ends, and the next begins or the output is written and the command completes. -/
  | compositeStepEnd (ctx : CtxNo) (e : PairErr) (hit : Option Hit)
  /-- INTERNAL_HEARTBEAT_LOSS (R446). The Crossing misses the heartbeat of its own Roundabout and Mews for 100 µs and stops XALIVE_OUT and heartbeat frames. -/
  | internalHeartbeatLoss
  /-- LEVEL_CONDITION_END (R421). The condition of a Kerb level source goes away, KERB_PRESENT clears and the next beginning counts as a new detection. -/
  | levelConditionEnd (n : SrcNo)
  /-- VBAT_APPLIED (R431). VBAT is first applied and BTIME starts counting from 0. -/
  | vbatApplied
  /-- T0_CHARACTER_RECEIVE (R489). Under T=0 a procedure byte, data byte or SW1 SW2 arrives from the card and the Postbox continues or ends the exchange. -/
  | t0CharacterReceive (p : PortNo) (ev : T0Ev)
  /-- TAG_FRAME (R501). A reader frame below the APDU layer (REQA/WUPA, anticollision, SELECT, RATS, PPS, DESELECT, HLTA) reaches the tag and begins or ends a session. -/
  | tagFrame (f : TagFrame)
  /-- MUTE_END (R501). After KICK the field has been absent for 5 ms and the tag stops muting. -/
  | muteEnd
  /-- SYS_RST_N_RISE (R525). SYS_RST_N goes high and the boot sequence leaves stage RESET and starts locking the PLL. -/
  | sysRstNRise
  /-- SYNC_OUT_FALL (R536). With SYNC_OUT_EN set, SYNC_OUT falls 8 ticks after each boundary tick. -/
  | syncOutFall
deriving DecidableEq, Repr

end Sys2Proof
end

