-- ==== Sys2Proof/Decode.lean ====
section
/-! DEFINITION. The command a table word spells. The opcode table of this block gives no row any bits, so no word spells a
command. -/
namespace Sys2Proof

/-- The command that a word of nbits bits spells by the table's bits: none, since no row of the table has a bit. -/
def decodeTableWord (_nbits _w : Nat) : Option Instr := none

end Sys2Proof
end

