-- ==== Sys2Proof/Machine/Bits.lean ====
section
/-! DEFINITION. Bit fields, byte order, saturating counts and list slices: the helpers every family uses. -/
namespace Sys2Proof.Machine

/-- Bits [hi:lo] of a number (the manual's NAME[msb:lsb]). -/
def bits (v hi lo : Nat) : Nat := (v >>> lo) % 2 ^ (hi + 1 - lo)

/-- Bit n of a number. -/
def bitAt (v n : Nat) : Bool := v.testBit n

/-- Bits [hi:lo] of a word. -/
def wbits (w : Word) (hi lo : Nat) : Nat := bits w.toNat hi lo

/-- Bit n of a word. -/
def wbit (w : Word) (n : Nat) : Bool := w.toNat.testBit n

/-- A number with its bits [hi:lo] replaced by the low bits of v. -/
def putBits (x hi lo v : Nat) : Nat :=
  x % 2 ^ lo + (v % 2 ^ (hi + 1 - lo)) * 2 ^ lo + (x >>> (hi + 1)) * 2 ^ (hi + 1)

/-- A word with its bits [hi:lo] replaced. -/
def wput (w : Word) (hi lo v : Nat) : Word := BitVec.ofNat 32 (putBits w.toNat hi lo v)

/-- A Bool as a bit. -/
def b2n (b : Bool) : Nat := if b then 1 else 0

/-- A count that saturates at its ceiling. -/
def satAdd (top a b : Nat) : Nat := min top (a + b)

/-- Little-endian number of a byte string (the default byte order of chapter 3 and of Ixmet memory, R322). -/
def le : Bytes → Nat
  | [] => 0
  | b :: bs => b.toNat + 256 * le bs

/-- The n little-endian bytes of a number. -/
def toLe : Nat → Nat → Bytes
  | 0, _ => []
  | n + 1, v => BitVec.ofNat 8 v :: toLe n (v / 256)

/-- Big-endian number of a byte string. -/
def be (bs : Bytes) : Nat := bs.foldl (fun a b => 256 * a + b.toNat) 0

/-- The n big-endian bytes of a number. -/
def toBe (n v : Nat) : Bytes := (toLe n v).reverse

/-- A constant byte string. -/
def fill (n v : Nat) : Bytes := List.replicate n (BitVec.ofNat 8 v)

/-- Bytes from..from+n-1 of a string, zero beyond its end. -/
def sl (bs : Bytes) (from' n : Nat) : Bytes :=
  let t := (bs.drop from').take n
  t ++ List.replicate (n - t.length) 0

/-- Byte n of a string, zero beyond its end. -/
def byteAt (bs : Bytes) (n : Nat) : Nat := (bs.getD n 0).toNat

/-- The string cut or zero-filled to n bytes. -/
def fit (n : Nat) (bs : Bytes) : Bytes := sl bs 0 n

/-- Little-endian number of n bytes at an offset. -/
def leAt (bs : Bytes) (off n : Nat) : Nat := le (sl bs off n)

/-- Bytewise exclusive or, as long as the first string. -/
def xorBytes (a b : Bytes) : Bytes := List.zipWith (· ^^^ ·) a (fit a.length b)

/-- Two's complement reading of the low n bits. -/
def sext (n v : Nat) : Int := if v.testBit (n - 1) then ((v % 2 ^ n : Nat) : Int) - 2 ^ n else ((v % 2 ^ n : Nat) : Int)

/-- An integer modulo 2^n. -/
def wrapInt (n : Nat) (v : Int) : Nat := (v % (2 ^ n : Int)).toNat

/-- The set bits of v below n, lowest first. -/
def bitsOf (v n : Nat) : List Nat := (List.range n).filter fun i => v.testBit i

/-- The word with exactly the listed bits set. -/
def maskOf (l : List Nat) : Nat := l.foldl (fun a i => a ||| 2 ^ i) 0

/-- The n-byte pieces of a string, the last one possibly shorter. -/
def pieces (n : Nat) (b : Bytes) : List Bytes :=
  (List.range ((b.length + n - 1) / n)).map fun i => (b.drop (n * i)).take n

/-- Round v up to a multiple of m. -/
def roundUp (v m : Nat) : Nat := (v + m - 1) / m * m

/-- Lexicographic concatenation of byte strings. -/
def cat (l : List Bytes) : Bytes := l.flatten

/-- Put an element into a sorted list, after its equals. -/
def insertBy {α : Type} (le : α → α → Bool) (x : α) : List α → List α
  | [] => [x]
  | y :: l => if le y x then y :: insertBy le x l else x :: y :: l

/-- Insertion sort, keeping the order of equals. -/
def sortBy {α : Type} (le : α → α → Bool) (l : List α) : List α := l.foldl (fun a x => insertBy le x a) []

end Sys2Proof.Machine
end

