-- ==== Sys2Proof/Machine/HashAlg.lean ====
section
/-! DEFINITION. The hash algorithms the manual names by their standards (R94, R153): SHA-2 of FIPS 180-4, SHA3 and SHAKE of FIPS
202, HMAC of FIPS 198-1, and TUAK of 3GPP TS 35.231 (R242). PRESUMED: the bodies are those of the standards, which the manual cites
and does not repeat (assumption log, "standards"). -/
namespace Sys2Proof.Machine
open Sys2Proof

/-! ## SHA-2 (FIPS 180-4) -/

/-- The largest r below 2^bits with r^deg at most n. -/
def rootBelow (deg n : Nat) : (bits : Nat) → (r : Nat) → Nat
  | 0, r => r
  | b + 1, r => rootBelow deg n b (if (r + 2 ^ b) ^ deg ≤ n then r + 2 ^ b else r)
/-- The first 64 bits of the fractional part of the deg-th root of p. -/
def rootFraction (deg p : Nat) : BitVec 64 := BitVec.ofNat 64 (rootBelow deg (p * 2 ^ (64 * deg)) 70 0)

/-- The first 80 primes. -/
def sha2Primes : List Nat := (List.range 410).filter fun n => decide (2 ≤ n) && (List.range n).all fun d => d < 2 || n % d != 0

/-- The 80 round constants of SHA-512, from the cube roots of the first 80 primes; SHA-256 uses the upper halves of the first 64. -/
def sha2K : Array (BitVec 64) := (sha2Primes.map (rootFraction 3)).toArray

/-- Initial hash values, from square roots: SHA-512 of the first 8 primes, SHA-384 of the next 8; SHA-256 uses the upper halves of the
first. -/
def sha512Init : List (BitVec 64) := (sha2Primes.take 8).map (rootFraction 2)
def sha384Init : List (BitVec 64) := ((sha2Primes.drop 8).take 8).map (rootFraction 2)

/-- The upper half of a 64-bit constant. -/
def upperHalf (v : BitVec 64) : BitVec 32 := v.extractLsb' 32 32

/-- Rotation and shift amounts of the four sigma functions: Σ0, Σ1, σ0, σ1, the last of each σ a shift. -/
structure Sha2 (w : Nat) where
  sum0 : Nat × Nat × Nat
  sum1 : Nat × Nat × Nat
  mix0 : Nat × Nat × Nat
  mix1 : Nat × Nat × Nat
  k : Array (BitVec w)

def sha256P : Sha2 32 :=
  { sum0 := (2, 13, 22), sum1 := (6, 11, 25), mix0 := (7, 18, 3), mix1 := (17, 19, 10)
    k := (sha2K.extract 0 64).map upperHalf }
def sha512P : Sha2 64 :=
  { sum0 := (28, 34, 39), sum1 := (14, 18, 41), mix0 := (1, 8, 7), mix1 := (19, 61, 6), k := sha2K }

def shaSum {w : Nat} (r : Nat × Nat × Nat) (x : BitVec w) : BitVec w :=
  x.rotateRight r.1 ^^^ x.rotateRight r.2.1 ^^^ x.rotateRight r.2.2
def shaMix {w : Nat} (r : Nat × Nat × Nat) (x : BitVec w) : BitVec w :=
  x.rotateRight r.1 ^^^ x.rotateRight r.2.1 ^^^ x >>> r.2.2

/-- The message schedule of a block: as many words as there are round constants. -/
def shaSchedule {w : Nat} (p : Sha2 w) (blk : Bytes) : Array (BitVec w) :=
  let first : Array (BitVec w) := ((List.range 16).map fun i => BitVec.ofNat w (be (sl blk (w / 8 * i) (w / 8)))).toArray
  (List.range (p.k.size - 16)).foldl (fun m i =>
    m.push (shaMix p.mix1 (m.getD (i + 14) 0) + m.getD (i + 9) 0 + shaMix p.mix0 (m.getD (i + 1) 0) + m.getD i 0)) first

/-- One round on the working variables a to h. -/
def shaRound {w : Nat} (p : Sha2 w) (m : Array (BitVec w)) (v : List (BitVec w)) (i : Nat) : List (BitVec w) :=
  match v with
  | [a, b, c, d, e, f, g, h] =>
    let t1 := h + shaSum p.sum1 e + ((e &&& f) ^^^ (~~~e &&& g)) + p.k.getD i 0 + m.getD i 0
    let t2 := shaSum p.sum0 a + ((a &&& b) ^^^ (a &&& c) ^^^ (b &&& c))
    [t1 + t2, a, b, c, d + t1, e, f, g]
  | _ => v

/-- One block compressed into the hash value. -/
def shaBlock {w : Nat} (p : Sha2 w) (h : List (BitVec w)) (blk : Bytes) : List (BitVec w) :=
  let m := shaSchedule p blk
  List.zipWith (· + ·) h ((List.range p.k.size).foldl (shaRound p m) h)

/-- The padded message in blocks: a 1 bit, zeros, and the length in bits over the last eighth of a block. -/
def sha2Pad (blk : Nat) (msg : Bytes) : Bytes :=
  let n := roundUp (msg.length + 1 + blk / 8) blk
  fit (n - blk / 8) (msg ++ fill 1 0x80) ++ toBe (blk / 8) (8 * msg.length)

def sha2 {w : Nat} (p : Sha2 w) (init : List (BitVec w)) (outLen : Nat) (msg : Bytes) : Bytes :=
  let blk := 2 * w
  let m := sha2Pad blk msg
  let h := (List.range (m.length / blk)).foldl (fun h i => shaBlock p h (sl m (blk * i) blk)) init
  (cat (h.map fun v => toBe (w / 8) v.toNat)).take outLen

def sha256 (msg : Bytes) : Bytes := sha2 sha256P (sha512Init.map upperHalf) 32 msg
def sha384 (msg : Bytes) : Bytes := sha2 sha512P sha384Init 48 msg
def sha512 (msg : Bytes) : Bytes := sha2 sha512P sha512Init 64 msg

/-! ## Keccak (FIPS 202) -/

/-- One step of the linear feedback shift register of the round constants. -/
def keccakLfsr (r : Nat) : Nat := if r.testBit 7 then (2 * r % 256) ^^^ 0x71 else 2 * r
/-- Round constant: bit 2^j − 1 is output j of the round's seven. -/
def keccakRc (round : Nat) : BitVec 64 :=
  BitVec.ofNat 64 ((List.range 7).foldl (fun a j =>
    if ((List.range (7 * round + j)).foldl (fun r _ => keccakLfsr r) 1).testBit 0 then a ||| 2 ^ (2 ^ j - 1) else a) 0)
def keccakRcs : Array (BitVec 64) := ((List.range 24).map keccakRc).toArray

/-- ρ and π: lane t of the walk from (1, 0), its place and its rotation. -/
def keccakWalk : List (Nat × Nat × Nat) :=
  ((List.range 24).foldl (fun (r : List (Nat × Nat × Nat) × (Nat × Nat)) t =>
    let x := r.2.1
    let y := r.2.2
    let z := (2 * x + 3 * y) % 5
    (r.1 ++ [(x + 5 * y, y + 5 * z, (t + 1) * (t + 2) / 2 % 64)], (y, z))) ([], (1, 0))).1

/-- One round on the 25 lanes: θ, ρ with π, χ, ι. -/
def keccakRound (a : Array (BitVec 64)) (round : Nat) : Array (BitVec 64) :=
  let c : Array (BitVec 64) := ((List.range 5).map fun x =>
    (List.range 5).foldl (fun v y => v ^^^ a.getD (x + 5 * y) 0) 0).toArray
  let a := ((List.range 25).map fun i =>
    a.getD i 0 ^^^ c.getD ((i + 4) % 5) 0 ^^^ (c.getD ((i + 1) % 5) 0).rotateLeft 1).toArray
  let b := keccakWalk.foldl (fun b e => b.setIfInBounds e.2.1 ((a.getD e.1 0).rotateLeft e.2.2)) a
  let a := ((List.range 25).map fun i =>
    let y := i / 5 * 5
    b.getD i 0 ^^^ (~~~(b.getD (y + (i + 1) % 5) 0) &&& b.getD (y + (i + 2) % 5) 0)).toArray
  a.setIfInBounds 0 (a.getD 0 0 ^^^ keccakRcs.getD round 0)

/-- Keccak-f[1600] on 200 bytes. -/
def keccakF (b : Bytes) : Bytes :=
  let a := ((List.range 25).map fun i => BitVec.ofNat 64 (leAt b (8 * i) 8)).toArray
  let a := (List.range 24).foldl keccakRound a
  cat ((List.range 25).map fun i => toLe 8 (a.getD i 0).toNat)

/-- The sponge of a rate, after absorbing a message with its domain suffix. -/
def spongeIn (rate suffix : Nat) (msg : Bytes) : Bytes :=
  let n := msg.length / rate + 1
  let p := fit (n * rate) (msg ++ [BitVec.ofNat 8 suffix])
  let p := p.take (n * rate - 1) ++ (p.drop (n * rate - 1)).map (· ^^^ 0x80)
  (List.range n).foldl (fun s i => keccakF (xorBytes s (sl p (rate * i) rate))) (fill 200 0)
/-- n output bytes squeezed by whole rate blocks. -/
def squeeze (rate : Nat) : Nat → Bytes → Bytes
  | 0, _ => []
  | k + 1, s => s.take rate ++ squeeze rate k (keccakF s)
def sponge (rate suffix outLen : Nat) (msg : Bytes) : Bytes :=
  (squeeze rate ((outLen + rate - 1) / rate) (spongeIn rate suffix msg)).take outLen

def sha3 (outLen : Nat) (msg : Bytes) : Bytes := sponge (200 - 2 * outLen) 6 outLen msg
def shake128 (outLen : Nat) (msg : Bytes) : Bytes := sponge 168 0x1F outLen msg
def shake256 (outLen : Nat) (msg : Bytes) : Bytes := sponge 136 0x1F outLen msg

/-! ## By MODE (R94, R153) -/

/-- A digest by MODE: 1 SHA-256, 2 SHA-384, 3 SHA-512, 4 SHA3-256, 5 SHA3-512, 6 SHAKE128, 7 SHAKE256. -/
def hashOf (mode outLen : Nat) (msg : Bytes) : Bytes :=
  match mode with
  | 1 => sha256 msg
  | 2 => sha384 msg
  | 3 => sha512 msg
  | 4 => sha3 32 msg
  | 5 => sha3 64 msg
  | 6 => shake128 outLen msg
  | _ => shake256 outLen msg

/-- Block length of the hash HMAC runs over. -/
def hmacBlock (mode : Nat) : Nat :=
  match mode with
  | 1 => 64
  | 4 => 136
  | 5 => 72
  | _ => 128

/-- HMAC (FIPS 198-1) under a key no longer than the block, used as it is (R153). -/
def hmacOf (mode : Nat) (key msg : Bytes) : Bytes :=
  let n := hmacBlock mode
  let pad (v : Nat) : Bytes := xorBytes (fill n v) key
  hashOf mode 0 (pad 0x5C ++ hashOf mode 0 (pad 0x36 ++ msg))

/-! ## TUAK (TS 35.231) -/

/-- The input of the permutation: TOP or TOPc, INSTANCE, "TUAK1.0", RAND, AMF, SQN and the key, each with its last byte first. -/
def tuakIn (key top : Bytes) (inst : Nat) (rand amf sqn : Bytes) : Bytes :=
  let name : Bytes := (toBe 7 0x5455414B312E30).reverse
  (fit 32 top).reverse ++ toLe 1 inst ++ name ++ (fit 16 rand).reverse ++ (fit 2 amf).reverse ++ (fit 6 sqn).reverse
    ++ fit 32 key.reverse ++ fill 1 0x1F ++ fill 38 0 ++ fill 1 0x80 ++ fill 64 0

/-- A number of applications of the permutation. -/
def keccakTimes (n : Nat) (b : Bytes) : Bytes := (List.range n).foldl (fun b _ => keccakF b) b

/-- n output bytes at an offset, last byte first. -/
def tuakOut (b : Bytes) (off n : Nat) : Bytes := (sl b off n).reverse

end Sys2Proof.Machine
end

