-- ==== Sys2Proof/Config.lean ====
section
/-! DEFINITION. What the manual leaves to the device: its free values and its own numbers and secrets, as constants without a body. No
proof can see a value of one. -/
namespace Sys2Proof.Config

/-- A fresh free value: the counter of the state picks which. -/
opaque freeWord : Nat → BitVec 64
/-- A fresh free byte: which draw, and which byte of it. -/
opaque freeByte : Nat → Nat → Byte

/-- What fills the part of an Arcade operand memory whose contents the manual does not give: which part, which command. -/
opaque regionFill : (part : Nat) → (n : Nat) → Bytes

/-- The 16-bit Seal identity of the block that a page serves (R36 gives the width only). -/
opaque sealId : (page : Nat) → BitVec 16
/-- The check code of one half of a reservation record (R138, R234): a DUKPT record, slot, odd parity, block. -/
opaque rsvCode : (dukpt : Bool) → (slot : Nat) → (odd : Bool) → (blk : Nat) → BitVec 16

/-- LC_SERIAL of this device (R204: "per device"). -/
opaque serial : BitVec 64
/-- The key of the conditioner, built into the Fountain (R287). -/
opaque conditionKey : Bytes
/-- The 256-bit PUF device secret (R202). -/
opaque deviceSecret : Bytes
/-- The vendor P-256 public key x ∥ y, fixed in the Mews (R203). -/
opaque vendorKey : Bytes

/-- A number the Fountain bytes of a command give for a scalar (an ECDSA nonce, a new EC private key): bytes, attempt. -/
opaque ecScalar : (rnd : Bytes) → (attempt : Nat) → Nat
/-- A number the Fountain bytes give as a prime candidate of an RSA key pair: bytes, attempt. -/
opaque rsaCandidate : (rnd : Bytes) → (attempt : Nat) → Nat

/-- The P-256 private key derived from a fleet root with a label (R462: the manual does not say how 256 derived bits become a
scalar). -/
opaque fleetScalar : (root label : Bytes) → Nat

/-- The key confirmation that a partner of a role sends under a new pairing root (R449: the manual gives no form of it). -/
opaque keyConfirm : (root : Bytes) → (roleB : Bool) → Bytes

end Sys2Proof.Config
end

