-- ==== Sys2Proof/Machine/State.lean ====
section
/-! DEFINITION. The state of the FZX-4816 as plain data: every register, table, queue, unit and record the manual gives
the device, the queue of commands that wait, the trace of what the device sends, and the state right after reset. -/
namespace Sys2Proof.Machine
open Sys2Proof

/-- Why the model stops with a fault. No command of this device stops the machine: the manual gives every error a
status, a RESULT or a record. The one constructor is never raised. -/
inductive Fault where
  /-- Never raised (safe): kept so that the type has a name for a stop if a later revision needs one. -/
  | stopped
deriving DecidableEq, Repr

/-- Why the model refuses a command. -/
inductive Refusal where
  /-- Raised by an arm of `exec` whose meaning has not been written (safe). -/
  | notModelled (mnemonic : String)
deriving DecidableEq, Repr

/-! ## What the device sends -/

/-- One thing the device sends to the world outside: the model's trace, newest first. -/
inductive Out where
  /-- A memory read request issued for a function (descriptor, parameter block, scatter list, source). -/
  | hostRead (fn addr len : Nat)
  /-- A memory write request issued for a function (output, completion, head write-back), and whether it carries Relaxed Ordering
  (R57). -/
  | hostWrite (fn addr : Nat) (bytes : Bytes) (ro : Bool)
  /-- An MSI-X message: the function, its table entry, and the entry's Message Address and Message Data. -/
  | msix (fn entry addr : Nat) (data : Word)
  /-- The data of a register, BAR2 or memory read. -/
  | readData (src : Src) (bytes : Bytes)
  /-- A pin the device drives: KSEV, SYNC_OUT, a card or field pin, by name and level; for XALIVE_OUT 1 the square wave, 0 none. -/
  | pin (name : String) (value : Nat)
  /-- A frame on the Crossing (R443, R444): its header, its encrypted payload and its tag; what the partners exchange before a session
(a serial, a key confirmation, a session value) goes in clear and without a tag. -/
  | xing (header payload tag : Bytes)
  /-- An SD command token, and a block of SD write data with the CRC-16 of DAT0 to DAT3 (R473). -/
  | sdCmd (token : Bytes)
  | sdData (bytes : Bytes) (crc : List Nat)
  /-- Bytes sent to a contact card. -/
  | card (port : Nat) (bytes : Bytes)
  /-- A reader frame, and a tag frame, on the field, each with its rate: 0 to 3 for 106 to 848 kbit/s (R497, R501). -/
  | reader (bytes : Bytes) (rate : Nat)
  | tag (bytes : Bytes) (rate : Nat)
  /-- Bytes moved through a DMA engine to host memory. -/
  | dmaWrite (fn addr : Nat) (bytes : Bytes)
  /-- Request Retry Status, the answer to a function's configuration request before READY (R526). -/
  | retry (fn : Nat)
deriving DecidableEq, Repr

/-! ## The Quay and the Roundabout (chapters 2 and 3) -/

/-- A contiguous host buffer named by a descriptor or a scatter list (R59, R91). -/
structure Seg where
  addr : Nat
  len : Nat
deriving DecidableEq, Repr

/-- The fields of a descriptor (R88). -/
structure Desc where
  opcode : Nat := 0
  mode : Nat := 0
  idemp : Bool := false
  timed : Bool := false
  srcSgl : Bool := false
  dstSgl : Bool := false
  fence : Bool := false
  blvd : Bool := false
  len : Nat := 0
  handle : Nat := 0
  tag : Nat := 0
  src : Nat := 0
  dst : Nat := 0
  aadLen : Nat := 0
  param : Nat := 0
  launch : Nat := 0
  srcN : Nat := 0
  dstN : Nat := 0
  arg : Nat := 0
deriving DecidableEq, Repr

/-- Where a command in flight stands. -/
inductive Phase where
  /-- Its descriptor fetch is outstanding (R63). -/
  | fetching
  /-- Parked behind the command in another context (R68). -/
  | parked (behind : Nat)
  /-- Handed to the Roundabout, not yet accepted (R113). -/
  | fetched
  /-- Held after check 3 while a transition or an assignment runs (R207, R549). -/
  | heldCheck4
  /-- Held for its launch tick (R100). -/
  | held
  /-- Launched and ready to dispatch (R116). -/
  | ready
  /-- On its engine; its opcode has not run yet. -/
  | placed
  /-- Its opcode runs: beats, a digest, steps or a result are still to be released. -/
  | running
  /-- Its result is released and its unit zeroises before the completion (R252). -/
  | zeroising
deriving DecidableEq, Repr

/-- A key operand captured at check 4 (R113): its handle, slot, generation and run length. -/
structure KeyOp where
  handle : Nat
  slot : Nat
  gen : Nat
  /-- The operand is a target to be written (R180), not a key that is used. -/
  target : Bool := false
  /-- Slots of the run it names. -/
  run : Nat := 1
deriving DecidableEq, Repr

/-- How a stopped command ends (R149, R150): its status, DETAIL and the payload offset it stops at. -/
structure Stop where
  status : Nat
  detail : Nat
  at' : Nat
deriving DecidableEq, Repr

/-- One command context of the Context SRAM (R63, R28). -/
structure Ctx where
  q : Nat := 0
  dom : Nat := 0
  /-- Order of fetching (R113, R117). -/
  seq : Nat := 0
  /-- Order of acceptance (R114). -/
  acc : Nat := 0
  d : Desc := {}
  /-- The descriptor's 64 bytes as the Quay fetched them, sealed for the Roundabout (R37). -/
  raw : Bytes := []
  phase : Phase := .fetching
  param : Bytes := []
  srcs : List Seg := []
  dsts : List Seg := []
  keys : List KeyOp := []
  /-- Binding of each key operand at dispatch; the material itself goes over the key bus to the unit and is never here (R20). -/
  algs : List Nat := []
  /-- The launch tick (R99). -/
  launch : Nat := 0
  late : Bool := false
  convoy : Bool := false
  /-- Source bytes received intact. -/
  srcIn : Bytes := []
  /-- Source segments whose access has passed its check (R59), and whether the one after them was rejected (R60). -/
  srcChk : Nat := 0
  srcRej : Bool := false
  /-- How the source side ended early: status and DETAIL (R548). -/
  srcEnd : Option (Nat × Nat) := none
  eng : Option Engine := none
  /-- Units a composite sequence holds (R120). -/
  resv : List Engine := []
  /-- Waiting in its lane for a reservation (R138), or for a DUKPT record (R234). -/
  waitRsv : Bool := false
  /-- IV, nonce or initial counter block. -/
  iv : Bytes := []
  /-- The invocation it took at dispatch (R132), and the fixed field in force when its value was issued (R134, R138). -/
  inv : Option Nat := none
  fixed : Nat := 0
  /-- Output computed and not yet released. -/
  outp : Bytes := []
  /-- Payload bytes released or consumed. -/
  done : Nat := 0
  /-- Output bytes written to the destination. -/
  wrote : Nat := 0
  /-- Destination segments whose access has passed its check (R59, R61). -/
  dstChk : Nat := 0
  /-- The completion prepared for release: status, DETAIL, BYTES_DONE, RESULT, AUX. -/
  status : Nat := 0
  detail : Nat := 0
  bytesDone : Nat := 0
  result : Bytes := []
  aux : Nat := 0
  stop : Option Stop := none
  /-- Ends in the replay window only (R78). -/
  silent : Bool := false
  /-- The commit of the released result waits for the partner (R453). -/
  mirWait : Bool := false
  /-- Invocation block the command waits for (R138). -/
  step : Nat := 0
  /-- The Arcade unit that worked it, once it is freed; its result failed an invariant (R268). -/
  unit : Nat := 0
  broken : Bool := false
  /-- The Curve Store entry it names was lost to an uncorrectable error before it was copied, and has not been filled since (R416). -/
  curveBad : Option Nat := none
deriving DecidableEq, Repr

/-- A queue's state (R48). -/
inductive QState where
  | disabled | enabled | draining
deriving DecidableEq, Repr

/-- An entry of a replay window (R66): a tag, its 32-byte completion, and whether its storage is damaged (R72). -/
structure RplEntry where
  tag : Nat
  cpl : Bytes
  bad : Bool := false
deriving DecidableEq, Repr

/-- A queue pair: its record (R85), ring indices (R48, R53), coalescing (R81) and replay window (R66). -/
structure Queue where
  rec' : Tbl Word := []
  state : QState := .disabled
  dbErr : Bool := false
  sqHead : Nat := 0
  sqTail : Nat := 0
  cqTail : Nat := 0
  cqHead : Nat := 0
  phase : Bool := true
  coalCnt : Nat := 0
  coalTimer : Bool := false
  win : List RplEntry := []
  /-- Damaged storage that holds no entry, already counted (R72). -/
  badFree : List Nat := []
  /-- XING_QROLE of the queue (R456): 0 LOCAL, 1 PRIMARY, 2 STANDBY. -/
  role : Nat := 0
deriving DecidableEq, Repr

/-- A tenant domain's admission limits (R64), and the free contexts that stand ready for its reservation. -/
structure Dom where
  resv : Nat := 0
  cap : Nat := 65536
  own : Nat := 0
deriving DecidableEq, Repr

/-- An MSI-X table entry with its Pending Bit (R79, R546). -/
structure Msix where
  addrLo : Word := 0
  addrHi : Word := 0
  data : Word := 0
  mask : Bool := true
  pend : Bool := false
deriving DecidableEq, Repr

/-- The PCIe control bits of a function (R42, R57): Enable Relaxed Ordering, Max Payload Size (128 × 2^n bytes) and Max Read Request
Size (128 × 2^n bytes). PRESUMED: the reset values are those of PCI Express, since the manual gives none. -/
structure FnPcie where
  ro : Bool := true
  mps : Nat := 0
  mrrs : Nat := 2
deriving DecidableEq, Repr

/-- A WIN_SYNC that waits (R61): the commands with an access checked before it and not complete, by order of fetching, each with the
source and destination bytes it has to reach, and the DMA engines that were moving host data. -/
structure WinWait where
  cmds : List (Nat × Nat × Nat) := []
  dmas : List Nat := []
deriving DecidableEq, Repr

/-- The Quay: queues, domains, contexts, functions and MSI-X state. -/
structure Quay where
  queues : Tbl Queue := []
  doms : Tbl Dom := []
  /-- Domain that last received a released context (R64). -/
  domRR : Nat := 0
  ctxs : Tbl Ctx := []
  nextSeq : Nat := 0
  nextAcc : Nat := 0
  /-- Queue being served and descriptors left of its turn (R65). -/
  turnQ : Nat := 0
  turnLeft : Nat := 0
  /-- NumVFs in force on port 0 and port 1, 0 while VF Enable is clear (R44). -/
  vf0 : Nat := 0
  vf1 : Nat := 0
  /-- MSI-X entries by 2,048 × FN + entry. -/
  msix : Tbl Msix := []
  /-- Functions whose MSI-X Enable bit is set, and whose Function Mask bit is set (R546). -/
  msixEn : List Nat := []
  msixMask : List Nat := []
  /-- PCIe control bits by function (R42, R57). -/
  pcie : Tbl FnPcie := []
  /-- The speed and width limits each port's link last trained under: MAX_SPEED + 16 × MAX_WIDTH (R84). -/
  lims : Tbl Nat := []
  /-- What the last QUAY_WIN_SYNC waits for (R61). -/
  winWait : WinWait := {}
  /-- Functions whose Function Level Reset is running (R78). -/
  flr : List Nat := []
  /-- Domain served last, by engine class (R118). -/
  rr : Tbl Nat := []
deriving DecidableEq, Repr

/-! ## The engines (chapter 4, 7) -/

/-- Counter or IV state, and chaining state, of a cipher core. -/
structure Chain where
  ctr : Bytes := []
  acc : Bytes := []
deriving DecidableEq, Repr

/-- One core of a pair (R123): the key schedules of its command's operands, by the material they were expanded from, its counter, IV
and chaining state, and its composite store of intermediate values in the order they were computed (R213). -/
structure CipherCore where
  keys : List Bytes := []
  chain : Chain := {}
  store : List Bytes := []
deriving DecidableEq, Repr

/-- A lane pair or Boulevard pipeline. At power-up it runs its test before it takes a command (R147, R156). -/
structure CUnit where
  ctx : Option Nat := none
  kat : Bool := true
  offline : Bool := false
  /-- A RETEST that waits for the running command (R148). -/
  retest : Bool := false
  /-- Held offline by its FORCE_OFF bit (R148). -/
  forced : Bool := false
  /-- Slots and generations of the keys whose schedules the unit holds (R124); none once they are to be zeroised. -/
  key : List (Nat × Nat) := []
  /-- The primary and the checker core. -/
  prim : CipherCore := {}
  chk : CipherCore := {}
  /-- Shares a pipeline holds (R157). -/
  shares : Nat := 0
deriving DecidableEq, Repr

/-- A hash unit (R153, R154). -/
structure HUnit where
  ctx : Option Nat := none
  /-- The HMAC key of its command, from the key bus. -/
  key : Bytes := []
  kat : Bool := true
  offline : Bool := false
  retest : Bool := false
deriving DecidableEq, Repr

/-- The operand memory of an Arcade unit by its regions (R251). -/
structure OpMem where
  /-- Key material from the key bus. -/
  key : Bytes := []
  /-- Modulus, or curve parameters; and, in what they leave of that region, the Montgomery constants, which the manual names and does not
  lay out: a free value. -/
  modulus : Bytes := []
  mont : Bytes := []
  /-- Source operands, ciphertexts, signatures under test. -/
  input : Bytes := []
  result : Bytes := []
  /-- Window tables, polynomials and expanded matrix rows, which the manual names and does not lay out: a free value of at most 24 KiB. -/
  work : Bytes := []
  /-- Values drawn from the Fountain. -/
  blinding : Bytes := []
deriving DecidableEq, Repr

/-- An Arcade unit (chapter 7). -/
structure AUnit where
  ctx : Option Nat := none
  kat : Bool := true
  offline : Bool := false
  retest : Bool := false
  forced : Bool := false
  /-- Zeroising its operand memory outside a command's end (R252, R271). -/
  zero : Bool := false
  /-- The internal operation it holds while that waits for Fountain bytes (R276, R294). -/
  internal : Option Nat := none
  mem : OpMem := {}
deriving DecidableEq, Repr

/-- Every cipher, hash and Arcade unit, and the long counts kept for them. -/
structure Units where
  cipher : Tbl CUnit := []
  hash : Tbl HUnit := []
  arc : Tbl AUnit := []
  /-- Cipher blocks by lane group (LANE_BLOCKS), payload bytes by pipeline, bytes of all hash units. -/
  laneBlocks : Tbl Nat := []
  blvdBytes : Tbl Nat := []
  hashBytes : Nat := 0
  /-- RSV_RETRY and COUNTER_END events and retry faults held while PD_LANE0 is off (R135). -/
  heldRetry : Nat := 0
  heldEnd : Bool := false
  /-- The lock on LANE_NONCE_CFG.DEV, held in PD_MEWS (R135). -/
  devLock : Bool := false
deriving DecidableEq, Repr

/-! ## The Mews (chapter 5) -/

/-- A running MEWS_ASSIGN_CMD operation (R549). -/
structure AssignOp where
  op : Nat
  dom : Nat
  next : Nat
  last : Nat
  /-- Forwarded to the sequencer, which has not committed it yet; and sent to the partner, which has not confirmed it yet (R453). -/
  fwd : Bool := false
  peer : Bool := false
deriving DecidableEq, Repr

/-- The volatile state of a slot's invocation counter (R137, R138, R140). -/
structure Ctr where
  /-- Block being issued and next offset in it. -/
  blk : Nat
  off : Nat
  /-- Highest block confirmed, if one is, and the block whose write is being confirmed. -/
  conf : Option Nat
  pend : Option Nat
deriving DecidableEq, Repr

/-- The volatile state of a slot's DUKPT counter (R233, R234). -/
structure DukptCtr where
  /-- The parity the counters are issued from. -/
  par : Nat
  next : Nat
  top : Option Nat
  pend : Option Nat
deriving DecidableEq, Repr

/-- How a command ends (R104, R105). -/
structure CmdEnd where
  status : Nat := 0
  detail : Nat := 0
  bytesDone : Nat := 0
  result : Bytes := []
  aux : Nat := 0
  /-- TAG and NONCE of a form A completion (R105). -/
  formA : Option (Bytes × Bytes) := none
deriving DecidableEq, Repr

/-- What waits for the partner's confirmation (R453). -/
inductive MirrorWait where
  /-- A completion whose replay entry is being stored. -/
  | finish (c : Nat) (f : CmdEnd)
  /-- A commit that stands here already and is being made by the partner; its command, if it has one, ends with f. -/
  | slot (c : Option Nat) (f : CmdEnd)
  /-- A commit forwarded to the sequencer: applied here when it confirms, then the command ends with f. -/
  | commit (c : Option Nat) (op : SlotOp) (f : CmdEnd)
  /-- A nonce reservation, or a DUKPT reservation, of a block of a slot. -/
  | rsv (slot blk : Nat) (dukpt : Bool)
  /-- A WRITE of a PRIMARY queue's record, and the RESULT it sets. -/
  | qcmd (result : Nat)
  /-- The slot write of an ACCEPT, which is made here now if it was forwarded; and the RESULT the fleet command ends with. -/
  | fleet (op : Option SlotOp) (result : Nat)
  /-- A Ward entry, or the whole fleet record of a DISSOLVE, that was forwarded to the sequencer and changes here now. -/
  | ward (n : Nat) (e : Option WardEnt)
  | dissolve
  /-- The erase of the key CUST_INSTALL has taken, made here now if it was forwarded, with the customer secret held before (R208). -/
  | cust (op : Option SlotOp) (old : Option Bytes)
  /-- A running MEWS_ASSIGN_CMD operation (R453). -/
  | assign
  /-- A queue's role, a commit made during a join: nothing waits. -/
  | record
deriving DecidableEq, Repr

/-- A change of the Key Table that came by the Crossing and waits for ZEROISING to fall (R196): a commit of this device that the
sequencer has returned, one received in a frame, an assignment received. -/
inductive HeldOp where
  | back (w : MirrorWait)
  | frame (op : SlotOp) (gens : List (Nat × Nat))
  | assign (op dom base cnt : Nat)
deriving DecidableEq, Repr

/-- The Key Table and what runs on it. -/
structure Mews where
  slots : Tbl Slot := []
  /-- Generation of every slot not listed (R167, R196). -/
  genBase : Nat := 1
  /-- Generation given at the last power-up (MEWS_BOOT_GEN). -/
  bootGen : Nat := 1
  assign : Option AssignOp := none
  /-- Running cascades: each the handles of the descendants not yet reached, level by level, ascending by slot (R199, R200). -/
  cascades : List (List (List Nat)) := []
  /-- Slot writes, erases and assignments of the pair that wait for ZEROISING to fall (R196). -/
  heldOps : List HeldOp := []
  zeroising : Bool := false
  ctrs : Tbl Ctr := []
  dukpt : Tbl DukptCtr := []
deriving DecidableEq, Repr

/-! ## The Curve Store and the Fountain (chapters 7 and 8) -/

/-- One sample stream under test (R283, R284). -/
structure FStream where
  /-- Samples tested since the last start-up began. -/
  tested : Nat := 0
  last : Bool := false
  run : Nat := 0
  /-- First sample of the current window and how often it occurred. -/
  first : Bool := false
  cnt : Nat := 0
  /-- The window's counting has ended in a failure. -/
  aptDone : Bool := false
  /-- The first bit of an incomplete von Neumann pair (R280). -/
  half : Option Bool := none
deriving DecidableEq, Repr

/-- A DRBG instance of the expander: CTR_DRBG key and V, and requests served since its last seed (R288, R289). -/
structure Drbg where
  on : Bool := false
  key : Bytes := []
  v : Bytes := []
  reqs : Nat := 0
deriving DecidableEq, Repr

/-- Who waits for a request of the software instance (R551): a dispatched RNG_READ, or a read of FNT_SW_DATA. -/
inductive RngReq where
  | cmd (c : Nat)
  | read (src : Src)
deriving DecidableEq, Repr

/-- The Fountain. -/
structure Fnt where
  /-- A start-up has begun (R297): false until PD_MEWS first powers up. -/
  begun : Bool := false
  /-- FNT_STAT.STATE: 1 WARMUP, 2 STARTUP, 3 SEEDING, 4 READY, 5 FAILED. -/
  state : Nat := 1
  tries : Nat := 0
  /-- The settling period has ended, and the start-up known-answer test has passed (R297). -/
  settled : Bool := false
  katOk : Bool := false
  /-- The configuration in force since the last start-up (R282). -/
  xorEn : Bool := true
  vnEn : Bool := true
  hClaim : Nat := 128
  streams : List FStream := [{}]
  /-- Sample times of the start-up test that have passed (R297 step 2). -/
  passed : Nat := 0
  /-- No sample is credited until the window ends (R285). -/
  noCredit : Bool := false
  /-- Bits absorbed and credit carried by the block being collected, in 1/256 bit (R281, R287). -/
  absorbed : List Bool := []
  credit : Nat := 0
  /-- Full-entropy blocks of the seed being collected. -/
  seed : List Bytes := []
  /-- The next seed goes to the software instance (R289). -/
  swTurn : Bool := false
  int : Drbg := {}
  sw : Drbg := {}
  katBusy : Bool := false
  katPass : Bool := false
  /-- Raw samples diverted, oldest first (R303). -/
  raw : List Bool := []
  /-- Draws issued on private wires and not delivered: wire and consumer, oldest first (R291, R292). -/
  draws : List (Nat × Nat) := []
  /-- What the oldest draw has received of its bytes (R292). -/
  part : Bytes := []
  /-- Delivered draws not yet used, by consumer. -/
  got : Tbl Bytes := []
  /-- Takers of the software instance in order of dispatch: those still to be served in this round, and those served (R551). -/
  rng : List RngReq := []
  rngDone : List RngReq := []
  /-- RNG_READ commands that met FAILED: they end with RNG_NOT_READY (R295). -/
  rngDead : List Nat := []
  /-- Internal requests served since the software instance was last served (R290). -/
  intRun : Nat := 0
deriving DecidableEq, Repr


/-! ## FeRAM records and the backup domain (R29, R138, R205, R431) -/

/-- A copy of the lifecycle record (R205): sequence number, state, LC_TOTAL, row counters, whether it is valid. -/
structure LcRec where
  seq : Nat := 0
  state : Nat := 1
  total : Nat := 0
  cnt : Tbl Nat := []
  valid : Bool := true
deriving DecidableEq, Repr

/-- A running lifecycle command (R205, R208): its command code and the RESULT it will end with. -/
structure LcOp where
  cmd : Nat
  result : Nat
  /-- A TRANSITION that still waits for its Arcade unit (R276), with the read-backs of its record that will fail. -/
  verify : Option Nat := none
deriving DecidableEq, Repr

/-- What the Mews holds of the lifecycle (R201 to R211). -/
structure Life where
  op : Option LcOp := none
  /-- A transition stands between its signature check and its end (LC_STATE.TRANSITIONING). -/
  transitioning : Bool := false
  /-- The transition zeroises the Key Table, so commands that name a key are held (R207). -/
  zero : Bool := false
  /-- Root of the current state, when derived (R202). -/
  root : Option Bytes := none
  /-- State in force and hard lock (R203, R206). -/
  state : Nat := 1
  hardLock : Bool := false
deriving DecidableEq, Repr

/-- A report on its way from the Hub to the Kerb (R422): source number, a page or unit, and whether it is a lasting report. -/
structure KReport where
  src : Nat
  info : Nat
  lasting : Bool := false
deriving DecidableEq, Repr

/-- A copy of the Placard record (R503): active bank, length, UID, FWI, FIELD_TAG and sequence number. -/
structure PlcRec where
  bank : Bool
  len : Nat
  uid : Bytes
  fwi : Nat
  fieldTag : Bool
  seq : Nat
deriving DecidableEq, Repr

/-- The FeRAM's device records (R29). A record not listed has never been written. -/
structure FeRam where
  rsv : Tbl RsvRec := []
  dukpt : Tbl RsvRec := []
  /-- The two lifecycle record copies (R205). -/
  lcA : LcRec := { total := 1, cnt := [(1, 1)] }
  lcB : LcRec := { valid := false }
  integrator : Bytes := []
  /-- This device is role B of the pair (R449). -/
  pairB : Bool := false
  bootCount : Nat := 0
  /-- The pairing record: peer serial, pairing ID, count of successful COMMITs (R449). -/
  peerSerial : Nat := 0
  pairId : Nat := 0
  pairCnt : Nat := 0
  /-- Fleet role (0 NONE, 1 TOWN_HALL, 2 WARD), fleet ID, Wards, the Ward's voucher and last accepted sequence number. -/
  fleetRole : Nat := 0
  fleetId : Nat := 0
  wards : Tbl WardEnt := []
  voucher : Bytes := []
  lastSeq : Nat := 0
  /-- SVN floors of vendor-signed and integrator-signed images (R360). -/
  svnVendor : Nat := 0
  svnInteg : Nat := 0
  /-- The main log by ring position, and the sequence number of the next entry (R437). -/
  log : Tbl Bytes := []
  logNext : Nat := 0
  /-- BOOT_CFG and BOOT_LBA (R530). -/
  bootCfg : Word := 0
  bootLba : Word := 0
  /-- The two Placard banks and the two copies of the Placard record (R503). -/
  bank0 : Bytes := []
  bank1 : Bytes := []
  plcA : Option PlcRec := none
  plcB : Option PlcRec := none
deriving DecidableEq, Repr

/-- An entry of the backup log (R439). -/
structure BlogEnt where
  btime : Nat
  source : Nat
  kind : Nat
  actions : Nat
  sev : Nat
  erased : Bool
  applied : Bool
  count : Nat
deriving DecidableEq, Repr

/-- PD_BACKUP (R14, R427, R431). -/
structure Backup where
  /-- The customer secret, when one is confirmed (CUST_VALID). -/
  cust : Option Bytes := none
  /-- The pairing root and the fleet root (R450, R462). -/
  pairRoot : Option Bytes := none
  fleetRoot : Option Bytes := none
  /-- VBAT has been applied and BTIME counts (R431). -/
  vbat : Bool := false
  btime : Nat := 0
  /-- The backup log, oldest entry first (R439). -/
  blog : List BlogEnt := []
  /-- The copy of the armed sources and of the effective responses that backup operation uses (R431). -/
  arm : List Nat := []
  resp : Tbl Nat := []
deriving DecidableEq, Repr

/-- A log entry that waits for FeRAM (R437, R438). -/
structure LogEnt where
  tick : Nat
  btime : Nat
  kind : Nat
  source : Nat
  sources : Nat := 0
  actions : Nat := 0
  sev : Nat := 0
  lc : Nat := 0
  count : Nat := 0
  info : Nat := 0
deriving DecidableEq, Repr

/-- A running response (R424, R425, R429): its sources, its actions and its severity. -/
structure KResp where
  mask : Nat
  act : Nat
  sev : Nat
  /-- Its RESPONSE entry has entered the log queue, and is confirmed in FeRAM. -/
  logged : Bool := false
  conf : Bool := false
deriving DecidableEq, Repr

/-- The Kerb. -/
structure Kerb where
  /-- Reports on their way from the Hub, oldest first. -/
  reports : List KReport := []
  lockdown : Bool := false
  /-- The Kerb asserts the erase wires. -/
  erase : Bool := false
  /-- KERB_STAT.SEV, the code on the KSEV pins, and KERB_STAT.DEFERRED. -/
  sev : Nat := 0
  ksev : Nat := 0
  deferred : Bool := false
  /-- Sources whose count window runs (R421). -/
  wins : List Nat := []
  /-- Pages whose lasting report has been answered since FAULT was last cleared (R422). -/
  answered : List Nat := []
  resp : Option KResp := none
  /-- Log entries that wait to be written, oldest first (R438). -/
  logQ : List LogEnt := []
  /-- The pattern on the package mesh (R418). -/
  mesh : Nat := 0
deriving DecidableEq, Repr

/-! ## The Crossing (chapter 14) -/

/-- A mirrored item not yet confirmed: its frame, sent again after a retrain (R445), and what waits for it. -/
structure MirrorItem where
  kind : Nat
  body : Bytes
  wait : MirrorWait
deriving DecidableEq, Repr

/-- A Crossing session (R444): the two directional keys and frame counters, sent and received. -/
structure Sess where
  keyOut : Bytes
  keyIn : Bytes
  tx : Nat := 0
  rx : Nat := 0
deriving DecidableEq, Repr

/-- An XING_CMD command that waits for the Fountain (R294). -/
inductive XHeld where
  | prepare
  | commit (peer : Option PeerHello) (fails : Nat)
deriving DecidableEq, Repr

/-- A FLEET_CMD command that waits for the Fountain or the Key Table (R294, R196). -/
inductive FHeld where
  | found
  | foundRoot
  | enrol (fails : Nat)
  | admission (fails : Nat)
  | make
  | accept (fails : Nat)
deriving DecidableEq, Repr

/-- The Crossing. -/
structure Xing where
  /-- XING_STAT.STATE: 0 UNPAIRED, 1 DOWN, 2 JOINING, 3 PAIRED, 4 SOLO, 5 ISOLATED. -/
  state : Nat := 0
  /-- This device is the sequencer (R451). -/
  seqr : Bool := false
  /-- Mirrored items not yet confirmed, oldest first. -/
  mirror : List MirrorItem := []
  /-- The link is up, and its session: none while it retrains or waits for the Fountain (R443 to R445, R294). -/
  link : Bool := false
  sess : Option Sess := none
  /-- What a link-up that waits for the Fountain learned of the partner (R294). -/
  upWait : Option PeerInfo := none
  /-- XALIVE_IN showed an edge within 2 µs (XING_STAT.ALIVE_IN). -/
  aliveIn : Bool := false
  /-- XING_STAT.JOIN_ERR (R452). -/
  joinErr : Nat := 0
  /-- Command running (XING_CMD.BUSY): one that waits for the Fountain, or a COMMIT that waits for the peer with the contents of
  XING_AUTH, whether this device is role B, and the failed read-backs ahead of it (R449). -/
  held : Option XHeld := none
  stmt : Option (Bytes × Bool × Nat) := none
  /-- Ephemeral private key of PREPARE (R448). -/
  eph : Option Nat := none
  /-- The link is lost and the non-sequencer watches XALIVE_IN (R457). -/
  deciding : Bool := false
  /-- Queues whose role still changes after a loss of the partner (R457). -/
  failing : List Nat := []
  /-- LEAVE was given: this device joins at the next link-up (R459). -/
  left : Bool := false
  /-- The heartbeat of the device's own Roundabout and Mews is missed (R446). -/
  hbLost : Bool := false
  /-- XALIVE_OUT carries the square wave (R446). -/
  wave : Bool := false
deriving DecidableEq, Repr

/-- The volatile state of the fleet logic (R466). -/
structure Fleet where
  /-- Command that waits for the Fountain or for the Key Table's overwrite (R294, R196). -/
  held : Option FHeld := none
  tickPend : Bool := false
  tickFail : Bool := false
deriving DecidableEq, Repr

/-! ## The Clocktower (chapter 9) -/

/-- What the Clocktower holds beside its registers. -/
structure Clk where
  /-- Pending correction in ticks: negative means holds (CT_SLEW). -/
  corr : Int := 0
  /-- CLK_TICK cycles since the last slew step, no further than 15 (R312). -/
  gap : Nat := 15
  /-- CT_STAT.LOCK: 0 FREE, 1 ACQUIRING, 2 LOCKED, 3 HOLDOVER. -/
  lock : Nat := 0
  /-- The epochs whose markers have counted, oldest first (R314): the last four of them. -/
  marked : List Nat := []
  /-- Epoch of the last counted marker, its e, and whether it was beyond the outlier limit (R314, R315). -/
  lastMark : Option Nat := none
  lastE : Int := 0
  lastBeyond : Bool := false
  /-- Epoch of the last accepted marker or of the last change of SRC (R316). -/
  base : Nat := 0
  /-- Value of the pending LOAD_AT_SYNC (R317). -/
  load : Option Nat := none
  /-- Tick at which SYNC_OUT falls (R536). -/
  syncOut : Option Nat := none
deriving DecidableEq, Repr

/-! ## The Ixmet cores (chapters 10 and 11) -/

/-- One mode's copy of G15 and of the stack registers (R367). -/
structure Stacks where
  sp : Word := 0
  base : Word := 0
  limit : Word := 0
  rsp : Word := 0
  rbase : Word := 0
  rlimit : Word := 0
deriving DecidableEq, Repr

/-- The architectural registers of a core (R325 to R327, R366 to R368). -/
structure CoreRegs where
  /-- G1 to G14; G0 is not stored, G15 stands in the stack registers. -/
  g : Tbl Word := []
  sys : Stacks := {}
  usr : Stacks := {}
  pc : Word := 0
  psw : Word := 0
  lc0 : Word := 0
  ls0 : Word := 0
  le0 : Word := 0
  lc1 : Word := 0
  ls1 : Word := 0
  le1 : Word := 0
  cycHi : Word := 0
  tickHi : Word := 0
  vbase : Word := 0
  epc : Word := 0
  ecause : Word := 0
  eaddr : Word := 0
  tgBase : Word := 0
  tgLimit : Word := 0
  uwBase : Word := 0
  uwLimit : Word := 0
  /-- Tick compare in force, and TICKCMP_LO as last written (R368). -/
  cmp : Nat := 2 ^ 64 - 1
  cmpLo : Word := 0xFFFFFFFF
deriving DecidableEq, Repr

/-- A control transfer whose delay slot has not executed (R345, R347). -/
structure SlotWait where
  /-- The target, when the transfer is taken. -/
  target : Option Word
  /-- The registers before the transfer. -/
  before : CoreRegs
  /-- The accesses it has issued that take effect with its slot: a word pushed, with what happens to it on the way to the sink, or
  the read of a register. -/
  late : List (Nat × Option (Word × Option Hit)) := []
  /-- Its Survey events that count when it retires, and word 0 of their samples. -/
  evs : List (Nat × Nat × Bool) := []
  word0 : Word := 0
deriving DecidableEq, Repr

/-- A Survey sample: its four words (R394). -/
structure Sample where
  w0 : Word
  w1 : Word
  w2 : Word
  w3 : Word
deriving DecidableEq, Repr

/-- An Ixmet core. -/
structure Core where
  /-- IXM_STAT.STATE: 0 RESETTING, 1 HALTED, 2 RUNNING, 3 WFI, 4 LOADING, 5 STOPPED. -/
  state : Nat := 1
  r : CoreRegs := {}
  slot : Option SlotWait := none
  /-- The next instruction is a mode-change shadow instruction (R382). -/
  shadow : Bool := false
  /-- Survey events of the instruction being executed: event, address, system mode; empty between commands. -/
  evs : List (Nat × Nat × Bool) := []
  /-- Survey samples by entry (R394). -/
  samples : Tbl Sample := []
  /-- A HALT that arrived between a transfer and its slot, or inside an instruction (R363). -/
  haltReq : Bool := false
  /-- An instruction has issued and has not completed: a load stalls until its data returns (R322), and that data. -/
  busy : Bool := false
  loaded : Option Nat := none
deriving DecidableEq, Repr

/-- A running image load (R359): its header once it has been read, the START it ends with, and whether the boot sequence issued it
(R528). -/
structure LoadOp where
  hdr : Option Bytes
  start : Bool
  /-- It waits for a running Depot command (R485). -/
  wait : Bool := false
  auto : Bool := false
  /-- It waits for its Arcade unit (R276, R358). -/
  arc : Bool := false
  /-- The image was verified under the vendor key (R358, R360). -/
  vendor : Bool := false
  /-- Source, address and queue as the command found them. -/
  src : Nat := 0
  addr : Nat := 0
  queue : Nat := 0
  /-- What the card has delivered of the image, how much of it is written to its segments, and how the Depot's read ended, by the
  RESULT a command would have (R485). -/
  got : Bytes := []
  put : Nat := 0
  fin : Option Nat := none
deriving DecidableEq, Repr

/-- A DMA transfer in progress (R409): its latched domain, the function whose windows were checked (R61), and the ABORT written. -/
structure DmaOp where
  dom : Nat
  fn : Nat
  abort : Bool := false
  /-- Order of its start among checked accesses (R407). -/
  src : Nat
  dst : Nat
  len : Nat
  dir : Nat
  queue : Nat
deriving DecidableEq, Repr

/-- A rule command that is written and not committed (R405, R408): its RESULT, the entry it replaces with what words, and what it
leaves in RDATA. -/
structure RuleCmd where
  result : Nat
  entry : Nat := 0
  rule : Option (List Word) := none
  rdata : Option (List Word) := none
deriving DecidableEq, Repr

/-- The rule table and DMA engines (chapter 12). -/
structure Chk where
  /-- Rule words by 4 × entry + word. -/
  rules : Tbl Word := []
  dma : Tbl DmaOp := []
  /-- Who waits for CHECKPOINT_SYNC, and the engines that were BUSY when the read arrived (R407). -/
  sync : List (Src × List Nat) := []
  /-- Addresses of shared-SRAM and local-RAM words with an uncorrectable error found and not yet written (R414). -/
  eccBad : List Nat := []
  /-- Contexts and Key Table slots whose word showed an uncorrectable error and has not been written since (R414). -/
  ctxBad : List Nat := []
  slotBad : List Nat := []
  /-- CHECKPOINT_RCMD is BUSY with a command (R408). -/
  rcmd : Option RuleCmd := none
deriving DecidableEq, Repr

/-! ## The Depot and the Postbox (chapter 15) -/

/-- What a running DEPOT_CMD command does (R484). -/
inductive SdKind where
  | start | read | write | seg | raw
  /-- A run of the image loader (R485). -/
  | image
deriving DecidableEq, Repr

/-- What a running DEPOT_CMD command waits for. -/
inductive SdWait where
  | resp | data | busy | tune
deriving DecidableEq, Repr

/-- A running DEPOT_CMD command (R471 to R485). -/
structure SdOp where
  kind : SdKind
  wait : SdWait := .resp
  /-- Step of INIT (R471) or of SEG_WRITE (R482). -/
  step : Nat := 0
  /-- The SD command last sent. -/
  idx : Nat := 0
  arg : Nat := 0
  /-- Failed attempts of a run, and of a command, in a row at the mode in force (R474). -/
  fails : Nat := 0
  cfails : Nat := 0
  /-- CMD12 has followed a data error: the run is transferred again once its busy has ended (R474, R475). -/
  redo : Bool := false
  /-- RTYPE of RAW, and the capacity CMD9 gave, in units of 1,024 blocks. -/
  rtype : Nat := 0
  cap : Nat := 0
  /-- First card block, buffer address and count of the transfer; first block and length of its run, blocks of the run done. -/
  lba : Nat := 0
  buf : Nat := 0
  count : Nat := 0
  off : Nat := 0
  run : Nat := 0
  got : Nat := 0
  /-- The tick when SEG_WRITE began, and the data of its data step and of its read-back (R481, R482). -/
  tick : Nat := 0
  sent : Bytes := []
  back : Bytes := []
  /-- The card accepts 1.8 V. -/
  s18 : Bool := false
  /-- An ABORT that waits for the run boundary (R485). -/
  abort : Bool := false
  /-- The boot sequence issued this INIT (R528). -/
  auto : Bool := false
  /-- The buffer path cannot take the next block of a read yet (R476); the Hub was reset under it, so nothing it reads reaches the
  buffer any more (R524). -/
  full : Bool := false
  cut : Bool := false
deriving DecidableEq, Repr

/-- The Depot. -/
structure Sd where
  op : Option SdOp := none
  /-- The SD clock runs (R476). -/
  clk : Bool := false
  /-- Relative card address of CMD3, consecutive response timeouts (R480), the sample tap in use, and a retune that is due (R472). -/
  rca : Nat := 0
  timeouts : Nat := 0
  tap : Nat := 0
  retune : Bool := false
deriving DecidableEq, Repr

/-- What a Postbox port does (R486 to R491). -/
inductive PbPhase where
  | idle
  /-- 10 ms after a failed class, with the classes still to be tried. -/
  | retry
  | atr
  | pps
  | ifs
  /-- T=0: a procedure byte, the rest of the data, one byte, or SW2 is expected. -/
  | proc
  | recvAll
  | recvOne
  | sw2
  | t1
deriving DecidableEq, Repr

/-- A Postbox port. -/
structure PbPort where
  phase : PbPhase := .idle
  /-- PBp_CLK: the INC of the clock that runs, 0 while it is stopped (R486, R488, R491). -/
  clk : Nat := 0
  /-- Command running: 1 ACTIVATE, 2 EXCHANGE, 4 WARM_RESET. -/
  cmd : Nat := 0
  /-- Classes still to be tried (1 C, 2 B, 3 A). -/
  classes : List Nat := []
  /-- A failed PPS: this activation goes on without one (R488). -/
  noPps : Bool := false
  atr : Bytes := []
  /-- IFSC and the error code selected by TC3: CRC rather than LRC (R490). -/
  ifsc : Nat := 32
  crc : Bool := false
  /-- Bytes of the TPDU or APDU sent so far, and what has been received. -/
  sent : Nat := 0
  rx : Bytes := []
  sw1 : Nat := 0
  /-- The character of the TPDU last signalled in error, and how often (R489). -/
  repAt : Nat := 0
  rep : Nat := 0
  /-- T=1: sequence numbers of the next block sent and expected, bytes of the block last sent, that block, R-blocks sent for one
  block, and S(RESYNCH) sent. -/
  ns : Bool := false
  nr : Bool := false
  lastLen : Nat := 0
  last : Bytes := []
  rblocks : Nat := 0
  resyncs : Nat := 0
deriving DecidableEq, Repr

/-! ## The Kiosk (chapter 16) -/

/-- A running KIOSK_RD_CMD command (R498). -/
inductive RdOp where
  /-- POLL_A: ATQA expected; the UID CLn of a cascade level, of which a number of bits are known, and their value; the SAK of a level.
  With the ATQA and the UID found so far. -/
  | atqa
  | anticol (level : Nat) (atqa uid : Bytes) (known val : Nat)
  | sak (level : Nat) (atqa uid cl : Bytes)
  | atqb
  | reply
deriving DecidableEq, Repr

/-- Where the tag stands under ISO/IEC 14443-3 and -4. -/
inductive TagState where
  | idle | ready1 | ready2 | active | protocol | halt
deriving DecidableEq, Repr

/-- A KIOSK_PLC_CMD COMMIT (R503, R504): one that waits, with its length, for the session that holds its bank, or one that runs, with
what it commits. -/
inductive PlcOp where
  | waits (len : Nat)
  | runs (rcd : PlcRec) (data : Bytes)
deriving DecidableEq, Repr

/-- The Kiosk. -/
structure Kiosk where
  /-- A MODE write that waits (R496). -/
  pend : Option Nat := none
  rd : Option RdOp := none
  carrier : Bool := false
  calib : Bool := false
  tag : TagState := .idle
  /-- The rate PPS set for the tag's frames (R501). -/
  tagRate : Nat := 0
  /-- The harvest output in mV and its limit in mA, both 0 while it is off (R509). -/
  harv : Nat × Nat := (0, 0)
  /-- Record latched by the session (R504), and the selected file: false the Placard, true the mailbox. -/
  latched : Option PlcRec := none
  app : Bool := false
  file : Option Bool := none
  /-- A mailbox APDU that waits for the host, and the S(WTX) sent for it (R506). -/
  wtx : Option (Bytes × Nat) := none
  muted : Bool := false
  plc : Option PlcOp := none
  /-- An external field stands, and it is sufficient to power the tag; it powers the tag front end without main power (R508). -/
  field : Bool := false
  strong : Bool := false
  fieldPowered : Bool := false
deriving DecidableEq, Repr

/-! ## The whole state -/

/-- The whole device. -/
structure State where
  /-- The commands that wait, first in, first out (the model's own field). -/
  pending : List Instr := []
  /-- What the device has sent, newest first (the model's own field). -/
  out : List Out := []
  /-- The next free value (the model's own field; see the assumption log). -/
  free : Nat := 0
  /-- The Clocktower tick (R305). -/
  tick : Nat := 0
  /-- The register file: BAR0 offset to value, a register not listed holding its reset value (R21, R22). -/
  regs : Tbl Word := []
  /-- Registers found with bad parity and not yet written or updated again (R39, R40), with the value each showed when found. -/
  parBad : Tbl Nat := []
  /-- Pages whose fault window runs (R34). -/
  wins : List Nat := []
  quay : Quay := {}
  units : Units := {}
  mews : Mews := {}
  life : Life := {}
  kerb : Kerb := {}
  fer : FeRam := {}
  bak : Backup := {}
  fnt : Fnt := {}
  curves : Tbl Curve := []
  xing : Xing := {}
  fleet : Fleet := {}
  clk : Clk := {}
  cores : Tbl Core := []
  load : Option LoadOp := none
  /-- The autoload that this boot still owes or runs (R528): AUTOSTART and BOOT_LBA as they stood at boot. -/
  autoload : Option (Bool × Nat) := none
  chk : Chk := {}
  sd : Sd := {}
  /-- Postbox ports 0 and 1. -/
  pb0 : PbPort := {}
  pb1 : PbPort := {}
  kiosk : Kiosk := {}
  /-- Main power is present (R517), and the SYS_RST_N pin is high (R525). -/
  mainOn : Bool := true
  rstHigh : Bool := false
  /-- Bytes of local RAM, shared SRAM and the FeRAM firmware region, by internal address (R27, R29). -/
  mem : List Host.Cell := []
deriving DecidableEq, Repr

/-- The device right after reset: every field at its reset value. -/
def State.reset : State := {}

end Sys2Proof.Machine
end

