-- ==== Sys2Proof/Machine/ArcMath.lean ====
section
/-! DEFINITION. The arithmetic of the Arcade: modular numbers, short Weierstrass curves, the two lattice rings and the RSA
encodings (R255, R261, R264, R265). -/
namespace Sys2Proof.Machine
open Sys2Proof

/-! ## Modular numbers -/

/-- a^e mod n by its low k exponent bits. -/
def powBits : Nat → Nat → Nat → Nat → Nat
  | 0, _, _, n => 1 % n
  | k + 1, a, e, n =>
    let h := powBits k (a * a % n) (e / 2) n
    if e % 2 = 1 then a * h % n else h
def powMod (a e n : Nat) : Nat := powBits (e.log2 + 1) (a % n) e n

/-- Extended Euclid: the gcd of r0 and r1 and the first coefficient modulo n. -/
def euclid : Nat → Nat → Nat → Int → Int → Nat × Int
  | 0, r0, _, t0, _ => (r0, t0)
  | f + 1, r0, r1, t0, t1 => if r1 = 0 then (r0, t0) else euclid f r1 (r0 % r1) t1 (t0 - (r0 / r1 : Nat) * t1)

/-- The inverse of a modulo n, if there is one. -/
def invMod (a n : Nat) : Option Nat :=
  let r := euclid (2 * (n.log2 + 2)) n (a % n) 0 1
  if r.1 = 1 then some (r.2 % (n : Int)).toNat else none

/-- a − b modulo n. -/
def subMod (a b n : Nat) : Nat := (a + (n - b % n)) % n

/-! ## Points of a short Weierstrass curve, none the point at infinity -/

/-- P-256, P-384 and P-521 (FIPS 186). -/
def p256 : Curve :=
  { p := 0xffffffff00000001000000000000000000000000ffffffffffffffffffffffff
    a := 0xffffffff00000001000000000000000000000000fffffffffffffffffffffffc
    b := 0x5ac635d8aa3a93e7b3ebbd55769886bc651d06b0cc53b0f63bce3c3e27d2604b
    gx := 0x6b17d1f2e12c4247f8bce6e563a440f277037d812deb33a0f4a13945d898c296
    gy := 0x4fe342e2fe1a7f9b8ee7eb4a7c0f9e162bce33576b315ececbb6406837bf51f5
    n := 0xffffffff00000000ffffffffffffffffbce6faada7179e84f3b9cac2fc632551
    pbits := 256, h := 1, dom := 0 }
def p384 : Curve :=
  { p := 0xfffffffffffffffffffffffffffffffffffffffffffffffffffffffffffffffeffffffff0000000000000000ffffffff
    a := 0xfffffffffffffffffffffffffffffffffffffffffffffffffffffffffffffffeffffffff0000000000000000fffffffc
    b := 0xb3312fa7e23ee7e4988e056be3f82d19181d9c6efe8141120314088f5013875ac656398d8a2ed19d2a85c8edd3ec2aef
    gx := 0xaa87ca22be8b05378eb1c71ef320ad746e1d3b628ba79b9859f741e082542a385502f25dbf55296c3a545e3872760ab7
    gy := 0x3617de4a96262c6f5d9e98bf9292dc29f8f41dbd289a147ce9da3113b5f0b8c00a60b1ce1d7e819d7a431d7c90ea0e5f
    n := 0xffffffffffffffffffffffffffffffffffffffffffffffffc7634d81f4372ddf581a0db248b0a77aecec196accc52973
    pbits := 384, h := 1, dom := 0 }
def p521 : Curve :=
  { p := 0x1ffffffffffffffffffffffffffffffffffffffffffffffffffffffffffffffffffffffffffffffffffffffffffffffffffffffffffffffffffffffffffffffffff
    a := 0x1fffffffffffffffffffffffffffffffffffffffffffffffffffffffffffffffffffffffffffffffffffffffffffffffffffffffffffffffffffffffffffffffffc
    b := 0x51953eb9618e1c9a1f929a21a0b68540eea2da725b99b315f3b8b489918ef109e156193951ec7e937b1652c0bd3bb1bf073573df883d2c34f1ef451fd46b503f00
    gx := 0xc6858e06b70404e9cd9e3ecb662395b4429c648139053fb521f828af606b4d3dbaa14b5e77efe75928fe1dc127a2ffa8de3348b3c1856a429bf97e7e31c2e5bd66
    gy := 0x11839296a789a3bc0045c8a5fb42c7d1bd998f54449579b446817afbd17273e662c97ee72995ef42640c550b9013fad0761353c7086a272c24088be94769fd16650
    n := 0x1fffffffffffffffffffffffffffffffffffffffffffffffffffffffffffffffffa51868783bf2f966b7fcc0148f709a5d03bb5c9b8899c47aebb6fb71e91386409
    pbits := 521, h := 1, dom := 0 }

abbrev Pt := Option (Nat × Nat)

/-- A point lies on the curve, its coordinates below p. -/
def onCurve (c : Curve) (q : Nat × Nat) : Bool :=
  decide (q.1 < c.p) && decide (q.2 < c.p) && q.2 * q.2 % c.p == (q.1 * q.1 * q.1 + c.a * q.1 + c.b) % c.p

/-- The chord or tangent through two points of slope l. -/
def chord (c : Curve) (q : Nat × Nat) (x2 l : Nat) : Pt :=
  let x := subMod (l * l) (q.1 + x2) c.p
  some (x, subMod (l * subMod q.1 x c.p) q.2 c.p)

/-- The sum of two points. -/
def ptAdd (c : Curve) : Pt → Pt → Pt
  | none, q => q
  | q, none => q
  | some q, some r =>
    if q.1 = r.1 then
      if (q.2 + r.2) % c.p = 0 then none
      else (invMod (2 * q.2) c.p).bind fun i => chord c q r.1 ((3 * q.1 * q.1 + c.a) * i % c.p)
    else (invMod (subMod r.1 q.1 c.p) c.p).bind fun i => chord c q r.1 (subMod r.2 q.2 c.p * i % c.p)

/-- k times a point by its low f bits. -/
def ptMulBits (c : Curve) : Nat → Nat → Pt → Pt
  | 0, _, _ => none
  | f + 1, k, q =>
    let r := ptMulBits c f (k / 2) (ptAdd c q q)
    if k % 2 = 1 then ptAdd c q r else r
def ptMul (c : Curve) (k : Nat) (q : Pt) : Pt := ptMulBits c (k.log2 + 1) k q
def basePt (c : Curve) : Pt := some (c.gx, c.gy)

/-- Coordinate bytes and scalar bytes of a curve (R261). -/
def fieldLen (c : Curve) : Nat := (c.pbits + 7) / 8
def scalarLen (c : Curve) : Nat := (c.n.log2 + 1 + 7) / 8
/-- A point of 2F bytes at an offset, and its encoding. -/
def ptAt (c : Curve) (b : Bytes) (off : Nat) : Nat × Nat :=
  let f := fieldLen c
  (be (sl b off f), be (sl b (off + f) f))
def ptBytes (c : Curve) (q : Nat × Nat) : Bytes := toBe (fieldLen c) q.1 ++ toBe (fieldLen c) q.2

/-- A point taken as input: on the curve, and in the subgroup on a curve with a cofactor (R265). -/
def ptOk (c : Curve) (q : Nat × Nat) : Bool := onCurve c q && (c.h == 1 || (ptMul c c.n (some q)).isNone)
def scalarOk (c : Curve) (k : Nat) : Bool := decide (1 ≤ k ∧ k < c.n)

/-- ECDSA verification (FIPS 186-5) of a digest's leftmost bits. -/
def digestNum (c : Curve) (dig : Bytes) : Nat := be dig / 2 ^ (8 * dig.length - (c.n.log2 + 1))
def ecdsaOk (c : Curve) (q : Nat × Nat) (dig : Bytes) (r s : Nat) : Bool :=
  ptOk c q && scalarOk c r && scalarOk c s &&
    match invMod s c.n with
    | none => false
    | some w => match ptAdd c (ptMul c (digestNum c dig * w % c.n) (basePt c)) (ptMul c (r * w % c.n) (some q)) with
      | none => false
      | some v => v.1 % c.n == r

/-! ## Primes and curve parameters (R264) -/

/-- n − 1 = d · 2^s. -/
def oddPart : Nat → Nat → Nat × Nat
  | 0, d => (d, 0)
  | f + 1, d => if d % 2 = 0 ∧ d ≠ 0 then ((oddPart f (d / 2)).1, (oddPart f (d / 2)).2 + 1) else (d, 0)

/-- Squaring up to s times reaches n − 1. -/
def reaches : Nat → Nat → Nat → Bool
  | 0, _, _ => false
  | s + 1, x, n => x == n - 1 || reaches s (x * x % n) n

/-- One Miller–Rabin round. -/
def mrRound (n base : Nat) : Bool :=
  let d := oddPart (n.log2 + 1) (n - 1)
  let x := powMod base d.1 n
  x == 1 || reaches d.2 x n

/-- 64 rounds with bases from the Fountain bytes. -/
def mrPrime (n : Nat) (rnd : Bytes) : Bool :=
  n % 2 == 1 && decide (5 ≤ n)
    && (List.range 64).all fun i => mrRound n (2 + be (sl rnd (128 * i) 128) % (n - 3))

/-- The Hasse bound. -/
def hasse (p n h : Nat) : Bool :=
  let d : Int := (h * n : Nat) - ((p : Int) + 1)
  decide (d * d ≤ 4 * (p : Int))

/-- Every check of CURVE_LOAD. -/
def curveOk (c : Curve) (rnd : Bytes) : Bool :=
  c.p % 2 == 1 && c.p.log2 + 1 == c.pbits && mrPrime c.p rnd
    && decide (c.a < c.p) && decide (c.b < c.p) && decide (c.gx < c.p) && decide (c.gy < c.p)
    && (4 * c.a * c.a * c.a + 27 * c.b * c.b) % c.p != 0 && onCurve c (c.gx, c.gy)
    && mrPrime c.n rnd && (ptMul c c.n (basePt c)).isNone && decide (2 ^ (c.pbits - 4) ≤ c.n)
    && decide (1 ≤ c.h ∧ c.h ≤ 8) && hasse c.p c.n c.h

/-! ## The lattice rings (R261) -/

/-- A ring's modulus, root of unity, bits of the bit reversal, shortest layer and inverse scale. -/
structure Ring where
  q : Nat
  z : Nat
  rev : Nat
  low : Nat
  scale : Nat
deriving DecidableEq, Repr

def mlKem : Ring := { q := 3329, z := 17, rev := 7, low := 2, scale := 3303 }
def mlDsa : Ring := { q := 8380417, z := 1753, rev := 8, low := 1, scale := 8347681 }

/-- The low w bits of v reversed. -/
def bitRev : Nat → Nat → Nat
  | 0, _ => 0
  | w + 1, v => v % 2 * 2 ^ w + bitRev w (v / 2)
def zeta (r : Ring) (k : Nat) : Nat := powMod r.z (bitRev r.rev k) r.q

/-- One forward layer of length len over consecutive blocks, the zeta index rising from k. -/
def nttLayer (r : Ring) (len : Nat) : Nat → Nat → List Nat → List Nat
  | 0, _, _ => []
  | f + 1, k, l =>
    if l.isEmpty then []
    else
      let a := l.take len
      let z := zeta r k
      let t := ((l.drop len).take len).map fun v => z * v % r.q
      List.zipWith (fun x y => (x + y) % r.q) a t ++ List.zipWith (fun x y => subMod x y r.q) a t
        ++ nttLayer r len f (k + 1) (l.drop (2 * len))

/-- One inverse layer, the zeta index falling from k. -/
def inttLayer (r : Ring) (len : Nat) : Nat → Nat → List Nat → List Nat
  | 0, _, _ => []
  | f + 1, k, l =>
    if l.isEmpty then []
    else
      let a := l.take len
      let b := (l.drop len).take len
      let z := zeta r k
      List.zipWith (fun x y => (x + y) % r.q) a b ++ List.zipWith (fun x y => z * subMod y x r.q % r.q) a b
        ++ inttLayer r len f (k - 1) (l.drop (2 * len))

/-- The layers of the transforms, by their length. -/
def layers (r : Ring) : List Nat := ((List.range r.rev).map fun i => 128 / 2 ^ i)
def ntt (r : Ring) (l : List Nat) : List Nat :=
  (layers r).foldl (fun l len => nttLayer r len 256 (128 / len) l) l
def intt (r : Ring) (l : List Nat) : List Nat :=
  ((layers r).reverse.foldl (fun l len => inttLayer r len 256 (256 / len - 1) l) l).map fun v => v * r.scale % r.q

/-- The product of two polynomials in the transform domain: by degree-one factors, or pointwise. -/
def mulPairs (r : Ring) : Nat → List Nat → List Nat → List Nat
  | i, a0 :: a1 :: a, b0 :: b1 :: b =>
    let g := powMod r.z (2 * bitRev 7 i + 1) r.q
    (a0 * b0 + a1 * b1 % r.q * g) % r.q :: (a0 * b1 + a1 * b0) % r.q :: mulPairs r (i + 1) a b
  | _, _, _ => []
def pmul (r : Ring) (a b : List Nat) : List Nat :=
  if r.low = 2 then mulPairs r 0 a b else List.zipWith (fun x y => x * y % r.q) a b

/-- The 256 coefficients at an offset, and their encoding. -/
def polyAt (b : Bytes) (off : Nat) : List Nat := (List.range 256).map fun i => leAt b (off + 4 * i) 4
def polyBytes (l : List Nat) : Bytes := cat (l.map (toLe 4))

/-! ## RSA (RFC 8017) -/

/-- An RSA private key's fields and public modulus (R254). -/
structure RsaKey where
  p : Nat
  q : Nat
  dp : Nat
  dq : Nat
  qinv : Nat
  e : Nat
deriving DecidableEq, Repr

def rsaPriv (k : Nat) (m : Bytes) : RsaKey :=
  let h := k / 2
  { p := be (sl m 0 h), q := be (sl m h h), dp := be (sl m (2 * h) h), dq := be (sl m (3 * h) h)
    qinv := be (sl m (4 * h) h), e := be (sl m (5 * h) 8) }
/-- Modulus and exponent of a public key's material, which is also its edge encoding. -/
def rsaPub (k : Nat) (m : Bytes) : Nat × Nat := (be (sl m 0 k), be (sl m k 8))
/-- e is odd, at least 3 and below n (R265). -/
def rsaExpOk (n e : Nat) : Bool := e % 2 == 1 && decide (3 ≤ e ∧ e < n)

/-- The CRT private operation. -/
def rsaCrt (r : RsaKey) (m : Nat) : Nat :=
  let m1 := powMod m r.dp r.p
  let m2 := powMod m r.dq r.q
  m2 + r.q * (r.qinv * subMod m1 m2 r.p % r.p)

/-- MGF1 of n bytes. -/
def mgf1 (h : Nat) (hl : Nat) (seed : Bytes) (n : Nat) : Bytes :=
  fit n (cat ((List.range ((n + hl - 1) / hl)).map fun i => fit hl (hashOf h hl (seed ++ toBe 4 i))))

/-- EMSA-PKCS1-v1_5 of a DigestInfo. -/
def emPkcs1 (k : Nat) (t : Bytes) : Bytes := toBe 2 1 ++ fill (k - 3 - t.length) 255 ++ fill 1 0 ++ t

/-- The mask that clears the top bit of an encoded message. -/
def clearTop : Bytes → Bytes
  | [] => []
  | b :: l => BitVec.ofNat 8 (b.toNat % 128) :: l

/-- EMSA-PSS encoding with a salt of hLen bytes. -/
def emPss (h hl k : Nat) (mhash salt : Bytes) : Bytes :=
  let hh := fit hl (hashOf h hl (fill 8 0 ++ mhash ++ salt))
  let db := fill (k - 2 * hl - 2) 0 ++ fill 1 1 ++ salt
  clearTop (xorBytes db (mgf1 h hl hh db.length)) ++ hh ++ fill 1 0xBC

/-- EMSA-PSS verification. -/
def pssOk (h hl k : Nat) (mhash em : Bytes) : Bool :=
  let n := k - hl - 1
  let hh := sl em n hl
  let db := clearTop (xorBytes (sl em 0 n) (mgf1 h hl hh n))
  byteAt em (k - 1) == 0xBC && decide (byteAt em 0 < 128) && db.take (n - hl - 1) == fill (n - hl - 1) 0
    && byteAt db (n - hl - 1) == 1 && hh == fit hl (hashOf h hl (fill 8 0 ++ mhash ++ db.drop (n - hl)))

/-- EME-OAEP encoding with a seed of hLen bytes. -/
def emOaep (h hl k : Nat) (label msg seed : Bytes) : Bytes :=
  let db := fit hl (hashOf h hl label) ++ fill (k - msg.length - 2 * hl - 2) 0 ++ fill 1 1 ++ msg
  let mdb := xorBytes db (mgf1 h hl seed db.length)
  fill 1 0 ++ xorBytes seed (mgf1 h hl mdb hl) ++ mdb

/-- EME-OAEP decoding. -/
def oaepOpen (h hl k : Nat) (label em : Bytes) : Option Bytes :=
  let mdb := sl em (1 + hl) (k - hl - 1)
  let seed := xorBytes (sl em 1 hl) (mgf1 h hl mdb hl)
  let db := xorBytes mdb (mgf1 h hl seed mdb.length)
  let rest := (db.drop hl).dropWhile fun b => b == 0
  if byteAt em 0 == 0 && db.take hl == fit hl (hashOf h hl label) && byteAt rest 0 == 1 then some (rest.drop 1) else none

end Sys2Proof.Machine
end

