-- ==== Sys2Proof/Machine/BlockCipher.lean ====
section
/-! DEFINITION. The block ciphers the manual names by their standards (R125): AES of FIPS 197 and TDEA of SP 800-67, and the
ChaCha20 block function of RFC 8439. PRESUMED: the bodies are those of the standards, which the manual cites and does not repeat
(assumption log, "standards"). -/
namespace Sys2Proof.Machine
open Sys2Proof

/-! ## AES (FIPS 197) -/

/-- Multiplication by x in the field of AES. -/
def gfDouble (a : Nat) : Nat := if 128 ≤ a then (2 * a) ^^^ 0x11B else 2 * a

/-- Product of two field elements, by the bits of the second, lowest first. -/
def gfMul (a b : Nat) : Nat :=
  ((List.range 8).foldl (fun (r : Nat × Nat) i => (if b.testBit i then r.1 ^^^ r.2 else r.1, gfDouble r.2)) (0, a)).1

/-- The inverse a^254, 0 for 0. -/
def gfInv (a : Nat) : Nat := (List.range 253).foldl (fun r _ => gfMul r a) a

/-- The affine step of SubBytes: bit i of the result is the parity of bits i, i + 4 … i + 7 of the inverse and of bit i of 0x63. -/
def aesAffine (a : Nat) : Nat :=
  let rot (n : Nat) : Nat := (a <<< n ||| a >>> (8 - n)) % 256
  a ^^^ rot 1 ^^^ rot 2 ^^^ rot 3 ^^^ rot 4 ^^^ 0x63

/-- S-box and inverse S-box as tables. -/
def aesSbox : Array Byte := ((List.range 256).map fun a => BitVec.ofNat 8 (aesAffine (gfInv a))).toArray
def aesUnsbox : Array Byte :=
  (List.range 256).foldl (fun t a => t.setIfInBounds ((aesSbox.getD a 0).toNat) (BitVec.ofNat 8 a)) (Array.replicate 256 0)

def aesSub (b : Byte) : Byte := aesSbox.getD b.toNat 0
def aesUnsub (b : Byte) : Byte := aesUnsbox.getD b.toNat 0

/-- ShiftRows by rows of the column-major state, forward (dir 1) and back (dir 3). -/
def aesShift (dir : Nat) (b : Bytes) : Bytes :=
  (List.range 16).map fun i => b.getD (i % 4 + 4 * ((i / 4 + dir * (i % 4)) % 4)) 0

/-- One column times the circulant matrix of four coefficients. -/
def aesMixCol (m : List Nat) (c : Bytes) : Bytes :=
  (List.range 4).map fun r =>
    BitVec.ofNat 8 ((List.range 4).foldl (fun a k => a ^^^ gfMul (byteAt c k) (m.getD ((k + 4 - r) % 4) 0)) 0)
def aesMix (m : List Nat) (b : Bytes) : Bytes := cat ((List.range 4).map fun c => aesMixCol m (sl b (4 * c) 4))

/-- Round constant i (from 1). -/
def aesRcon (i : Nat) : Byte := BitVec.ofNat 8 ((List.range (i - 1)).foldl (fun a _ => gfDouble a) 1)

/-- The next word of the key schedule: word i of a key of nk words. -/
def aesKeyWord (nk i : Nat) (before back : Bytes) : Bytes :=
  let t :=
    if i % nk = 0 then
      match (before.drop 1 ++ before.take 1).map aesSub with
      | b :: l => (b ^^^ aesRcon (i / nk)) :: l
      | [] => []
    else if 6 < nk ∧ i % nk = 4 then before.map aesSub
    else before
  xorBytes back t

/-- KeyExpansion: the round keys of a 16-, 24- or 32-byte key, 16 bytes each. -/
def aesExpand (key : Bytes) : List Bytes :=
  let nk := key.length / 4
  let first : Array Bytes := ((List.range nk).map fun i => sl key (4 * i) 4).toArray
  let ws := (List.range (3 * nk + 28)).foldl
    (fun (w : Array Bytes) k => w.push (aesKeyWord nk (nk + k) (w.getD (nk + k - 1) []) (w.getD k []))) first
  (List.range (nk + 7)).map fun r => cat ((List.range 4).map fun j => ws.getD (4 * r + j) [])

/-- The cipher, from its round keys. -/
def aesForward (ks : List Bytes) (b : Bytes) : Bytes :=
  match ks with
  | [] => b
  | k :: ks =>
    let mid := ks.dropLast.foldl (fun x k => xorBytes (aesMix [2, 3, 1, 1] (aesShift 1 (x.map aesSub))) k) (xorBytes b k)
    xorBytes (aesShift 1 (mid.map aesSub)) (ks.getLastD [])

/-- The inverse cipher. -/
def aesBackward (ks : List Bytes) (b : Bytes) : Bytes :=
  match ks.reverse with
  | [] => b
  | k :: ks =>
    let mid := ks.dropLast.foldl (fun x k => aesMix [14, 11, 13, 9] (xorBytes ((aesShift 3 x).map aesUnsub) k)) (xorBytes b k)
    xorBytes ((aesShift 3 mid).map aesUnsub) (ks.getLastD [])

/-! ## TDEA (SP 800-67) -/

/-- A selection of bits, counted from the most significant of w as the standard counts them from 1. -/
def selectBits (w : Nat) (tab : List Nat) (v : Nat) : Nat := tab.foldl (fun a i => 2 * a + b2n (v.testBit (w - i))) 0

/-- IP, read row by row: the even columns then the odd ones, from the bottom row up. -/
def desIp : List Nat :=
  [2, 4, 6, 8, 1, 3, 5, 7].flatMap fun c => (List.range 8).map fun r => 56 - 8 * r + c
/-- The inverse of IP. -/
def desIpInv : List Nat := (List.range 64).map fun i => desIp.idxOf (i + 1) + 1
/-- E: six bits around each group of four. -/
def desE : List Nat := (List.range 48).map fun i => (4 * (i / 6) + i % 6 + 31) % 32 + 1
def desP : List Nat :=
  [16, 7, 20, 21, 29, 12, 28, 17, 1, 15, 23, 26, 5, 18, 31, 10, 2, 8, 24, 14, 32, 27, 3, 9, 19, 13, 30, 6, 22, 11, 4, 25]
def desPc1 : List Nat :=
  [57, 49, 41, 33, 25, 17, 9, 1, 58, 50, 42, 34, 26, 18, 10, 2, 59, 51, 43, 35, 27, 19, 11, 3, 60, 52, 44, 36]
  ++ [63, 55, 47, 39, 31, 23, 15, 7, 62, 54, 46, 38, 30, 22, 14, 6, 61, 53, 45, 37, 29, 21, 13, 5, 28, 20, 12, 4]
def desPc2 : List Nat :=
  [14, 17, 11, 24, 1, 5, 3, 28, 15, 6, 21, 10, 23, 19, 12, 4, 26, 8, 16, 7, 27, 20, 13, 2]
  ++ [41, 52, 31, 37, 47, 55, 30, 40, 51, 45, 33, 48, 44, 49, 39, 56, 34, 53, 46, 42, 50, 36, 29, 32]
/-- The eight S-boxes: 64 hexadecimal digits each, row by row. -/
def desS : List Nat :=
  [ 0xe4d12fb83a6c59070f74e2d1a6cb953841e8d62bfc973a50fc8249175b3ea06d,
    0xf18e6b34972dc05a3d47f28ec01a69b50e7ba4d158c6932fd8a13f42b67c05e9,
    0xa09e63f51dc7b428d709346a285ecbf1d6498f30b12c5ae71ad069874fe3b52c,
    0x7de3069a1285bc4fd8b56f03472c1ae9a690cb7df13e52843f06a1d8945bc72e,
    0x2c417ab6853fd0e9eb2c47d150fa3986421bad78f9c5630eb8c71e2d6f09a453,
    0xc1af92680d34e75baf427c9561de0b389ef528c3704a1db6432c95fabe17608d,
    0x4b2ef08d3c975a61d0b7491ae35c2f8614bdc37eaf6805926bd814a7950fe23c,
    0xd2846fb1a93e50c71fd8a374c56b0e927b419ce206adf35821e74a8dfc90356b ]

/-- The eight S-box outputs of 48 bits: outer bits choose the row, inner bits the column. -/
def desBoxes (v : Nat) : Nat :=
  (List.range 8).foldl (fun a i =>
    let x := v >>> (42 - 6 * i) % 64
    let row := 2 * (x / 32) + x % 2
    a * 16 + (desS.getD i 0 >>> (4 * (63 - (16 * row + x / 2 % 16)))) % 16) 0

/-- The cipher function f of one round. -/
def desF (r k : Nat) : Nat := selectBits 32 desP (desBoxes (selectBits 32 desE r ^^^ k))

/-- Rotation of a 28-bit half to the left. -/
def rot28 (n v : Nat) : Nat := (v <<< n ||| v >>> (28 - n)) % 2 ^ 28

/-- The sixteen round keys of eight key bytes; their parity bits are not used. -/
def desKeys (key : Bytes) : List Nat :=
  let cd := selectBits 64 desPc1 (be (fit 8 key))
  (List.range 16).map fun i =>
    let n := 2 * (i + 1) - (if i = 0 then 1 else if i < 8 then 2 else if i < 15 then 3 else 4)
    selectBits 56 desPc2 (rot28 (n % 28) (cd >>> 28) * 2 ^ 28 + rot28 (n % 28) (cd % 2 ^ 28))

/-- DES of one block with round keys in the order given. -/
def desRounds (ks : List Nat) (b : Nat) : Nat :=
  let v := selectBits 64 desIp b
  let r := ks.foldl (fun (h : Nat × Nat) k => (h.2, h.1 ^^^ desF h.2 k)) (v >>> 32, v % 2 ^ 32)
  selectBits 64 desIpInv (r.2 * 2 ^ 32 + r.1)

/-- TDEA: encrypt, decrypt, encrypt under three key parts; two parts stand for K1, K2, K1 (R125). -/
def tdeaBlock (inverse : Bool) (key b : Bytes) : Bytes :=
  let k1 := desKeys (sl key 0 8)
  let k2 := desKeys (sl key 8 8)
  let k3 := if key.length < 24 then k1 else desKeys (sl key 16 8)
  let v := be (fit 8 b)
  toBe 8 (if inverse then desRounds k1.reverse (desRounds k2 (desRounds k3.reverse v))
    else desRounds k3 (desRounds k2.reverse (desRounds k1 v)))

/-! ## ChaCha20 (RFC 8439) -/

/-- The quarter round on the words at four places of the state. -/
def chaChaQuarter (m : Array (BitVec 32)) (a b c d : Nat) : Array (BitVec 32) :=
  let half (m : Array (BitVec 32)) (r s : Nat) : Array (BitVec 32) :=
    let m := m.setIfInBounds a (m.getD a 0 + m.getD b 0)
    let m := m.setIfInBounds d ((m.getD d 0 ^^^ m.getD a 0).rotateLeft r)
    let m := m.setIfInBounds c (m.getD c 0 + m.getD d 0)
    m.setIfInBounds b ((m.getD b 0 ^^^ m.getD c 0).rotateLeft s)
  half (half m 16 12) 8 7

/-- A column round and a diagonal round. -/
def chaChaDouble (m : Array (BitVec 32)) : Array (BitVec 32) :=
  (List.range 8).foldl (fun m i =>
    let d := i / 4
    chaChaQuarter m (i % 4) (4 + (i + d) % 4) (8 + (i + 2 * d) % 4) (12 + (i + 3 * d) % 4)) m

/-- The 64-byte key stream block of a 32-byte key, a block counter and a 12-byte nonce. -/
def chaChaBlock (key : Bytes) (ctr : Nat) (nonce : Bytes) : Bytes :=
  let word (b : Bytes) (i : Nat) : BitVec 32 := BitVec.ofNat 32 (leAt b (4 * i) 4)
  let head : List (BitVec 32) := [0x61707865, 0x3320646e, 0x79622d32, 0x6b206574]
  let m := (head ++ (List.range 8).map (word key) ++ [BitVec.ofNat 32 ctr] ++ (List.range 3).map (word nonce)).toArray
  let r := (List.range 10).foldl (fun m _ => chaChaDouble m) m
  cat ((List.range 16).map fun i => toLe 4 (r.getD i 0 + m.getD i 0).toNat)

/-! ## One block under a binding -/

/-- TDES rather than AES (R176: bindings 8 and 9). -/
def tdesAlg (alg : Nat) : Bool := alg == 8 || alg == 9

/-- A key's cipher, forward or inverse, as a function of one block (R176). -/
def blockFn (tdes inverse : Bool) (key : Bytes) : Bytes → Bytes :=
  if tdes then tdeaBlock inverse key
  else
    let ks := aesExpand key
    fun b => if inverse then aesBackward ks (fit 16 b) else aesForward ks (fit 16 b)

/-- A key binding's cipher on one block. -/
def blockCipher (alg : Nat) (inverse : Bool) (key b : Bytes) : Bytes := blockFn (tdesAlg alg) inverse key b

end Sys2Proof.Machine
end

