-- ==== Sys2Proof/Machine/Modes.lean ====
section
/-! DEFINITION. The cipher modes of the lanes (R125 to R129, R136): what a core's counter and chaining state are at the start of a
command, what one beat does to them, and the tag, MAC or wrapped output at its end. PRESUMED where a standard the manual names
says it and the manual does not repeat it (assumption log, "standards"). -/
namespace Sys2Proof.Machine
open Sys2Proof

/-! ## Blocks and counters -/

/-- A counter block advanced by k: its last w bytes count big-endian and never carry into the bytes before them (R127). -/
def ctrAdd (w k : Nat) (b : Bytes) : Bytes :=
  let n := b.length - w
  b.take n ++ toBe w ((be (b.drop n) + k) % 256 ^ w)

/-- Counter-mode key stream over the payload pieces, from a counter block of which w bytes count. -/
def ctrStream (f : Bytes → Bytes) (w : Nat) (ctr inp : Bytes) : Bytes :=
  cat ((pieces 16 inp).zipIdx.map fun e => xorBytes e.1 (f (ctrAdd w e.2 ctr)))
/-- The counter block after that payload. -/
def ctrAfter (w : Nat) (ctr inp : Bytes) : Bytes := ctrAdd w ((inp.length + 15) / 16) ctr

/-- CBC over whole blocks: the output and the last ciphertext block. -/
def cbcForward (f : Bytes → Bytes) (n : Nat) (chain inp : Bytes) : Bytes × Bytes :=
  (pieces n inp).foldl (fun (r : Bytes × Bytes) p => let c := f (xorBytes (fit n p) r.2); (r.1 ++ c, c)) ([], chain)
def cbcBackward (g : Bytes → Bytes) (n : Nat) (chain inp : Bytes) : Bytes × Bytes :=
  (pieces n inp).foldl (fun (r : Bytes × Bytes) p => (r.1 ++ xorBytes (g (fit n p)) r.2, p)) ([], chain)

/-- CBC-MAC over zero-filled 16-byte blocks. -/
def cbcMac (f : Bytes → Bytes) (chain inp : Bytes) : Bytes :=
  (pieces 16 inp).foldl (fun c p => f (xorBytes (fit 16 p) c)) chain

/-! ## GHASH (SP 800-38D) and Poly1305 (RFC 8439) -/

/-- Product in the field of GCM, bit 0 of a block being its leftmost. -/
def ghashMul (x h : Nat) : Nat :=
  ((List.range 128).foldl (fun (r : Nat × Nat) i =>
    (if x.testBit (127 - i) then r.1 ^^^ r.2 else r.1, if r.2 % 2 = 1 then r.2 / 2 ^^^ 0xE1 <<< 120 else r.2 / 2)) (0, h)).1

/-- GHASH continued over zero-filled blocks. -/
def ghash (h : Nat) (y inp : Bytes) : Bytes :=
  (pieces 16 inp).foldl (fun y p => toBe 16 (ghashMul (be (xorBytes y (fit 16 p))) h)) y

/-- Poly1305 continued over pieces of 16 bytes, zero-filled when the string is shorter: the AEAD of RFC 8439 pads so. -/
def polyAcc (key : Bytes) (acc inp : Bytes) : Bytes :=
  let r := le (sl key 0 16) &&& 0x0FFFFFFC0FFFFFFC0FFFFFFC0FFFFFFF
  toLe 17 ((pieces 16 inp).foldl (fun a p => (a + le (fit 16 p) + 2 ^ 128) * r % (2 ^ 130 - 5)) (le acc))
/-- The tag of an accumulated message. -/
def polyEnd (key acc : Bytes) : Bytes := toLe 16 (le acc + le (sl key 16 16))

/-! ## AES-XTS (IEEE Std 1619, R128) -/

/-- A tweak doubled in its little-endian field. -/
def xtsDouble (t : Nat) : Nat := (2 * t % 2 ^ 128) ^^^ (if t.testBit 127 then 0x87 else 0)

/-- One data unit of at least 16 bytes, forward or inverse, with ciphertext stealing when it does not end on a block. -/
def xtsUnit (inverse : Bool) (key tweak unit : Bytes) : Bytes :=
  let half := key.length / 2
  let f := blockFn false inverse (key.take half)
  let t0 := le (blockFn false false (key.drop half) (fit 16 tweak))
  let tw (j : Nat) : Bytes := toLe 16 ((List.range j).foldl (fun t _ => xtsDouble t) t0)
  let one (j : Nat) (b : Bytes) : Bytes := xorBytes (f (xorBytes b (tw j))) (tw j)
  let m := unit.length / 16
  let r := unit.length % 16
  let whole (k : Nat) : Bytes := cat ((List.range k).map fun j => one j (sl unit (16 * j) 16))
  if r = 0 then whole m
  else
    let last := unit.drop (16 * m)
    let j1 := if inverse then m else m - 1
    let j2 := if inverse then m - 1 else m
    let c := one j1 (sl unit (16 * (m - 1)) 16)
    whole (m - 1) ++ one j2 (last ++ c.drop r) ++ c.take r

/-- A payload of data units of du bytes: the tweak rises by 1 for each further unit and wraps modulo 2^128 (R128). -/
def xtsPayload (inverse : Bool) (key tweak : Bytes) (du : Nat) (inp : Bytes) : Bytes :=
  cat ((pieces du inp).zipIdx.map fun e => xtsUnit inverse key (toLe 16 ((le (fit 16 tweak) + e.2) % 2 ^ 128)) e.1)

/-! ## CMAC (SP 800-38B) -/

/-- Block length of a binding. -/
def algBlock (tdes : Bool) : Nat := if tdes then 8 else 16

/-- A subkey doubled in the field of its block length. -/
def cmacDouble (b : Bytes) : Bytes :=
  let n := 8 * b.length
  toBe b.length ((2 * be b % 2 ^ n) ^^^ (if (be b).testBit (n - 1) then (if n = 64 then 0x1B else 0x87) else 0))

/-- The chaining value after whole blocks that are not the last. -/
def cmacChain (tdes : Bool) (key chain inp : Bytes) : Bytes :=
  (cbcForward (blockFn tdes false key) (algBlock tdes) chain inp).2

/-- The MAC from the chaining value and the last block, complete or not. -/
def cmacEnd (tdes : Bool) (key chain last : Bytes) : Bytes :=
  let f := blockFn tdes false key
  let n := algBlock tdes
  let k1 := cmacDouble (f (fill n 0))
  let b := if last.length = n then xorBytes last k1 else xorBytes (fit n (last ++ fill 1 0x80)) (cmacDouble k1)
  f (xorBytes b chain)

/-- Bytes of a message before its last block. -/
def cmacHead (tdes : Bool) (len : Nat) : Nat := (len - 1) / algBlock tdes * algBlock tdes

/-- AES-CMAC or TDES-CMAC of a message. -/
def cmacOf (alg : Nat) (key msg : Bytes) : Bytes :=
  let t := tdesAlg alg
  let h := cmacHead t msg.length
  cmacEnd t key (cmacChain t key (fill (algBlock t) 0) (msg.take h)) (msg.drop h)

/-! ## Key wrap (SP 800-38F) -/

/-- The state of a wrap: A, the semiblocks R, and every intermediate A and R value in order (R144). -/
structure WrapSt where
  a : Bytes
  r : List Bytes
  trace : Bytes := []

/-- Step t (from 1) of the wrapping function W on n semiblocks. -/
def wrapStep (f : Bytes → Bytes) (n : Nat) (w : WrapSt) (t : Nat) : WrapSt :=
  let i := (t - 1) % n
  let b := f (w.a ++ w.r.getD i [])
  let a := xorBytes (b.take 8) (toBe 8 t)
  { a := a, r := w.r.set i (b.drop 8), trace := w.trace ++ a ++ b.drop 8 }

/-- Step t of the inverse. -/
def unwrapStep (g : Bytes → Bytes) (n : Nat) (w : WrapSt) (t : Nat) : WrapSt :=
  let i := (t - 1) % n
  let b := g (xorBytes w.a (toBe 8 t) ++ w.r.getD i [])
  { a := b.take 8, r := w.r.set i (b.drop 8), trace := w.trace ++ b }

/-- A plaintext wrapped after its 8-byte check value: one block alone is enciphered as it is (RFC 5649). -/
def wrapRun (key icv pt : Bytes) : WrapSt :=
  let f := blockFn false false key
  let r := pieces 8 pt
  if r.length ≤ 1 then
    let b := f (icv ++ fit 8 pt)
    { a := b.take 8, r := [b.drop 8], trace := b }
  else (List.range (6 * r.length)).foldl (fun w t => wrapStep f r.length w (t + 1)) { a := icv, r }

/-- A ciphertext unwrapped to its check value and semiblocks. -/
def unwrapRun (key ct : Bytes) : WrapSt :=
  let g := blockFn false true key
  let r := pieces 8 (ct.drop 8)
  if r.length ≤ 1 then
    let b := g (fit 16 ct)
    { a := b.take 8, r := [b.drop 8], trace := b }
  else (List.range (6 * r.length)).foldl (fun w t => unwrapStep g r.length w (6 * r.length - t)) { a := ct.take 8, r }

def wrapBytes (w : WrapSt) : Bytes := w.a ++ cat w.r

/-- The check value of AES-KW (MODE 0x08) and of AES-KWP for a plaintext length (MODE 0x09, R125). -/
def wrapIcv (mode len : Nat) : Bytes := if mode = 8 then fill 8 0xA6 else toBe 4 0xA65959A6 ++ toBe 4 len

/-- The wrap of a plaintext, with its trace. -/
def wrapFor (mode : Nat) (key pt : Bytes) : WrapSt :=
  wrapRun key (wrapIcv mode pt.length) (if mode = 8 then pt else fit (roundUp pt.length 8) pt)

/-- The plaintext of an unwrap: none when the check value or the padding is wrong (R129). -/
def unwrapPlain (mode : Nat) (w : WrapSt) : Option Bytes :=
  let p := cat w.r
  if mode = 8 then (if w.a = fill 8 0xA6 then some p else none)
  else
    let len := be (w.a.drop 4)
    if w.a.take 4 = toBe 4 0xA65959A6 ∧ len ≤ p.length ∧ p.length < len + 8 ∧ (p.drop len).all (· == 0) then some (p.take len)
    else none

/-- AES-KW and AES-KWP, and their inverse. -/
def wrapKey (mode : Nat) (key pt : Bytes) : Bytes := wrapBytes (wrapFor mode key pt)
def unwrapKey (mode : Nat) (key ct : Bytes) : Option Bytes := unwrapPlain mode (unwrapRun key ct)

/-! ## One core's state through a command (R123, R550) -/

/-- TDES modes. -/
def tdesMode (mode : Nat) : Bool := mode == 0x11 || mode == 0x12 || mode == 0x17

/-- The one-time Poly1305 key: block counter 0 (R136). -/
def polyKey (key nonce : Bytes) : Bytes := (chaChaBlock key 0 nonce).take 32

/-- The state a core starts a payload of len bytes from, the additional data absorbed (R136, R550). -/
def chainStart (mode : Nat) (key iv aad : Bytes) (len : Nat) : Chain :=
  let f := blockFn false false key
  match mode with
  | 0x02 => { acc := fit 16 iv }
  | 0x12 => { acc := fit 8 iv }
  | 0x03 => { ctr := fit 16 iv }
  | 0x04 => { ctr := fit 12 iv ++ toBe 4 2, acc := ghash (be (f (fill 16 0))) (fill 16 0) aad }
  | 0x05 => { ctr := fit 16 iv }
  | 0x06 =>
    let n := fit 12 iv
    let b0 := fill 1 (if aad.isEmpty then 0x3A else 0x7A) ++ n ++ toBe 3 len
    let l := if aad.length < 0xFF00 then toBe 2 aad.length else toBe 2 0xFFFE ++ toBe 4 aad.length
    let m := cbcMac f (fill 16 0) b0
    { ctr := fill 1 2 ++ n ++ toBe 3 1, acc := if aad.isEmpty then m else cbcMac f m (l ++ aad) }
  | 0x20 => { ctr := toLe 4 1 ++ fit 12 iv, acc := polyAcc (polyKey key (fit 12 iv)) (fill 17 0) aad }
  | 0x07 => { acc := fill 16 0 }
  | 0x17 => { acc := fill 8 0 }
  | _ => {}

/-- One beat of payload through a core: its output and the state after it. XTS, whose units are longer than a beat, takes the
payload up to the beat's end (xtsPayload). -/
def chainBeat (mode : Nat) (inverse : Bool) (key inp : Bytes) (k : Chain) : Bytes × Chain :=
  let t := tdesMode mode
  let n := algBlock t
  let f := blockFn t false key
  let g := blockFn t true key
  match mode with
  | 0x02 | 0x12 =>
    let r := if inverse then cbcBackward g n k.acc inp else cbcForward f n k.acc inp
    (r.1, { k with acc := r.2 })
  | 0x03 => (ctrStream f 4 k.ctr inp, { k with ctr := ctrAfter 4 k.ctr inp })
  | 0x04 =>
    let out := ctrStream f 4 k.ctr inp
    let ct := if inverse then inp else out
    (out, { ctr := ctrAfter 4 k.ctr inp, acc := ghash (be (f (fill 16 0))) k.acc ct })
  | 0x06 =>
    let out := ctrStream f 3 k.ctr inp
    let pt := if inverse then out else inp
    (out, { ctr := ctrAfter 3 k.ctr inp, acc := cbcMac f k.acc pt })
  | 0x20 =>
    let nonce := k.ctr.drop 4
    let c := le (k.ctr.take 4)
    let out := cat ((pieces 64 inp).zipIdx.map fun e => xorBytes e.1 (chaChaBlock key (c + e.2) nonce))
    let ct := if inverse then inp else out
    (out, { ctr := toLe 4 (c + (inp.length + 63) / 64) ++ nonce, acc := polyAcc (polyKey key nonce) k.acc ct })
  | _ => (cat ((pieces n inp).map fun p => if inverse then g p else f p), k)

/-- The tag of an AEAD mode from the state after its payload (R125): 128 bits. -/
def chainTag (mode : Nat) (key : Bytes) (k : Chain) (aadLen len : Nat) : Bytes :=
  let f := blockFn false false key
  if mode = 4 then
    xorBytes (ghash (be (f (fill 16 0))) k.acc (toBe 8 (8 * aadLen) ++ toBe 8 (8 * len))) (f (k.ctr.take 12 ++ toBe 4 1))
  else if mode = 6 then xorBytes k.acc (f (k.ctr.take 13 ++ toBe 3 0))
  else
    let pk := polyKey key (k.ctr.drop 4)
    polyEnd pk (polyAcc pk k.acc (toLe 8 aadLen ++ toLe 8 len))

end Sys2Proof.Machine
end

