-- ==== Sys2Proof/Machine/Registers.lean ====
section
/-! DEFINITION. The register catalogue: every register of every page with its fields, access types and reset values,
as the manual's register tables give them (R9, R10, R30 and the tables of each chapter). A reset value the manual
takes from a live source (FeRAM, the power state, a clock) is 0 here and computed where the register is read. -/
namespace Sys2Proof.Machine

/-- The access types (R9). -/
inductive Acc where
  | ro | rw | w1c | w1s | wo | rwl | rc
deriving DecidableEq, Repr

/-- A field NAME[hi:lo] with its access type and reset value. -/
structure Fld where
  hi : Nat
  lo : Nat
  acc : Acc
  rst : Nat
deriving DecidableEq, Repr

/-- Registers at off, off + 4, … (count of them) of one layout. -/
structure RegSpec where
  off : Nat
  count : Nat
  flds : List Fld
deriving DecidableEq, Repr

/-- The header every implemented page has (R30); PAGE_ID, PAGE_CAP and PAGE_STAT are computed on reading. -/
def headerRegs : List RegSpec := [
  ⟨0x00C, 1, [⟨0, 0, .wo, 0⟩]⟩,
  ⟨0x014, 1, [⟨31, 0, .w1c, 0⟩]⟩,
  ⟨0x018, 1, [⟨31, 0, .rw, 0⟩]⟩,
  ⟨0x01C, 1, [⟨31, 0, .wo, 0⟩]⟩,
  ⟨0x020, 1, [⟨31, 24, .ro, 0⟩, ⟨23, 23, .w1c, 0⟩, ⟨22, 22, .ro, 0⟩, ⟨21, 16, .ro, 0⟩, ⟨15, 0, .ro, 0⟩]⟩,
  ⟨0x024, 1, [⟨31, 0, .ro, 0⟩]⟩,
  ⟨0x028, 1, [⟨0, 0, .w1s, 0⟩]⟩,
  ⟨0x02C, 1, [⟨31, 31, .w1c, 0⟩, ⟨30, 30, .ro, 0⟩, ⟨9, 0, .ro, 0⟩]⟩,
  ⟨0x030, 1, [⟨15, 0, .ro, 0⟩]⟩,
  ⟨0x034, 1, [⟨21, 0, .rwl, 1000⟩]⟩,
  ⟨0x038, 1, [⟨15, 0, .rwl, 16⟩]⟩]

/-- Block registers of page 0x01. -/
def blockRegs01 : List RegSpec := [
  ⟨0x040, 1, [⟨3, 3, .ro, 0⟩, ⟨2, 2, .ro, 0⟩, ⟨1, 1, .ro, 0⟩, ⟨0, 0, .ro, 1⟩]⟩]

/-- Block registers of page 0x02. -/
def blockRegs02 : List RegSpec := [
  ⟨0x040, 1, [⟨23, 0, .ro, 16777215⟩]⟩,
  ⟨0x044, 1, [⟨23, 0, .rw, 16777215⟩]⟩,
  ⟨0x048, 1, [⟨23, 0, .ro, 0⟩]⟩,
  ⟨0x04C, 1, [⟨23, 0, .rwl, 0⟩]⟩]

/-- Block registers of page 0x03. -/
def blockRegs03 : List RegSpec := [
  ⟨0x040, 1, [⟨4, 4, .w1c, 0⟩, ⟨3, 3, .w1c, 0⟩, ⟨2, 2, .w1c, 0⟩, ⟨1, 1, .w1c, 0⟩, ⟨0, 0, .w1c, 1⟩]⟩,
  ⟨0x044, 1, [⟨31, 16, .wo, 0⟩, ⟨0, 0, .wo, 0⟩]⟩,
  ⟨0x048, 1, [⟨31, 31, .ro, 0⟩, ⟨23, 16, .ro, 0⟩, ⟨7, 0, .ro, 0⟩]⟩,
  ⟨0x04C, 1, [⟨2, 2, .rwl, 0⟩, ⟨1, 1, .rwl, 0⟩, ⟨0, 0, .rwl, 0⟩]⟩,
  ⟨0x050, 1, [⟨31, 0, .rwl, 0⟩]⟩,
  ⟨0x054, 1, [⟨31, 0, .ro, 0⟩]⟩]

/-- Block registers of page 0x04. -/
def blockRegs04 : List RegSpec := [
  ⟨0x040, 1, [⟨31, 0, .ro, 0⟩]⟩,
  ⟨0x044, 1, [⟨31, 0, .ro, 0⟩]⟩,
  ⟨0x048, 1, [⟨31, 0, .ro, 0⟩]⟩,
  ⟨0x04C, 1, [⟨11, 0, .ro, 0⟩]⟩,
  ⟨0x050, 1, [⟨13, 13, .rw, 0⟩, ⟨12, 12, .rw, 0⟩, ⟨9, 8, .rw, 0⟩, ⟨5, 0, .rw, 24⟩]⟩,
  ⟨0x054, 1, [⟨31, 30, .rw, 1⟩, ⟨27, 24, .rw, 4⟩, ⟨23, 16, .rw, 4⟩, ⟨15, 0, .rw, 0⟩]⟩,
  ⟨0x058, 1, [⟨31, 0, .ro, 0⟩]⟩,
  ⟨0x05C, 1, [⟨31, 0, .ro, 0⟩]⟩,
  ⟨0x060, 1, [⟨2, 2, .ro, 0⟩, ⟨1, 0, .ro, 0⟩]⟩,
  ⟨0x064, 1, [⟨31, 0, .rw, 0⟩]⟩,
  ⟨0x068, 1, [⟨31, 0, .rw, 0⟩]⟩,
  ⟨0x06C, 1, [⟨31, 31, .ro, 0⟩, ⟨7, 4, .ro, 0⟩, ⟨3, 0, .wo, 0⟩]⟩,
  ⟨0x070, 1, [⟨31, 24, .rc, 0⟩, ⟨23, 16, .rc, 0⟩, ⟨15, 0, .rc, 0⟩]⟩]

/-- Block registers of page 0x08. -/
def blockRegs08 : List RegSpec := [
  ⟨0x040, 1, [⟨11, 11, .ro, 0⟩, ⟨10, 10, .ro, 0⟩, ⟨9, 9, .ro, 0⟩, ⟨8, 4, .ro, 0⟩, ⟨3, 0, .ro, 0⟩]⟩,
  ⟨0x044, 1, [⟨9, 9, .wo, 0⟩, ⟨8, 4, .rwl, 16⟩, ⟨3, 0, .rwl, 6⟩]⟩,
  ⟨0x048, 1, [⟨12, 0, .rw, 8191⟩]⟩,
  ⟨0x04C, 1, [⟨12, 0, .ro, 0⟩]⟩,
  ⟨0x050, 1, [⟨31, 16, .rc, 0⟩, ⟨15, 0, .rc, 0⟩]⟩]

/-- Block registers of page 0x09. -/
def blockRegs09 : List RegSpec := [
  ⟨0x040, 1, [⟨11, 11, .ro, 0⟩, ⟨10, 10, .ro, 0⟩, ⟨9, 9, .ro, 0⟩, ⟨8, 4, .ro, 0⟩, ⟨3, 0, .ro, 0⟩]⟩,
  ⟨0x044, 1, [⟨9, 9, .wo, 0⟩, ⟨8, 4, .rwl, 16⟩, ⟨3, 0, .rwl, 6⟩]⟩,
  ⟨0x048, 1, [⟨12, 0, .rw, 0⟩]⟩,
  ⟨0x04C, 1, [⟨12, 0, .ro, 0⟩]⟩,
  ⟨0x050, 1, [⟨31, 16, .rc, 0⟩, ⟨15, 0, .rc, 0⟩]⟩]

/-- Block registers of page 0x0A. -/
def blockRegs0A : List RegSpec := [
  ⟨0x040, 1, [⟨13, 0, .rw, 0⟩]⟩,
  ⟨0x044, 1, [⟨31, 31, .ro, 0⟩, ⟨7, 4, .ro, 0⟩, ⟨3, 0, .wo, 0⟩]⟩,
  ⟨0x048, 1, [⟨11, 0, .rw, 0⟩]⟩,
  ⟨0x04C, 1, [⟨16, 0, .rw, 0⟩]⟩,
  ⟨0x050, 1, [⟨16, 0, .rw, 65536⟩]⟩,
  ⟨0x054, 1, [⟨16, 0, .ro, 0⟩]⟩,
  ⟨0x058, 1, [⟨16, 0, .ro, 65536⟩]⟩,
  ⟨0x05C, 1, [⟨16, 0, .ro, 0⟩]⟩,
  ⟨0x060, 1, [⟨1, 1, .ro, 1⟩, ⟨0, 0, .w1s, 0⟩]⟩,
  ⟨0x080, 32, [⟨31, 0, .rw, 0⟩]⟩]

/-- Block registers of page 0x0B. -/
def blockRegs0B : List RegSpec := [
  ⟨0x040, 1, [⟨31, 0, .rc, 0⟩]⟩,
  ⟨0x044, 1, [⟨16, 0, .ro, 0⟩]⟩,
  ⟨0x048, 1, [⟨31, 16, .rc, 0⟩, ⟨15, 0, .rc, 0⟩]⟩]

/-- Block registers of page 0x10. -/
def blockRegs10 : List RegSpec := [
  ⟨0x040, 1, [⟨16, 0, .ro, 0⟩]⟩,
  ⟨0x044, 1, [⟨31, 0, .ro, 4294967295⟩]⟩,
  ⟨0x048, 1, [⟨31, 0, .ro, 4294967295⟩]⟩,
  ⟨0x04C, 1, [⟨31, 0, .rc, 0⟩]⟩,
  ⟨0x050, 1, [⟨31, 0, .rc, 0⟩]⟩,
  ⟨0x054, 1, [⟨17, 10, .rwl, 0⟩, ⟨9, 8, .rwl, 0⟩, ⟨7, 0, .rwl, 0⟩]⟩,
  ⟨0x058, 1, [⟨17, 10, .ro, 0⟩, ⟨9, 8, .ro, 0⟩, ⟨7, 0, .ro, 0⟩]⟩,
  ⟨0x05C, 1, [⟨31, 16, .rc, 0⟩, ⟨15, 0, .rc, 0⟩]⟩]

/-- Block registers of page 0x11. -/
def blockRegs11 : List RegSpec := [
  ⟨0x040, 1, [⟨15, 0, .rc, 0⟩]⟩,
  ⟨0x044, 1, [⟨31, 31, .ro, 0⟩, ⟨23, 16, .ro, 0⟩, ⟨15, 8, .ro, 0⟩, ⟨5, 0, .ro, 0⟩]⟩,
  ⟨0x048, 1, [⟨15, 8, .wo, 0⟩, ⟨7, 0, .rw, 0⟩]⟩,
  ⟨0x04C, 1, [⟨31, 0, .ro, 0⟩]⟩,
  ⟨0x050, 1, [⟨31, 0, .ro, 0⟩]⟩,
  ⟨0x054, 1, [⟨31, 16, .rc, 0⟩, ⟨15, 0, .rc, 0⟩]⟩,
  ⟨0x100, 1, [⟨31, 31, .ro, 0⟩, ⟨16, 0, .rwl, 0⟩]⟩,
  ⟨0x104, 1, [⟨30, 24, .ro, 64⟩, ⟨19, 16, .ro, 0⟩, ⟨15, 12, .ro, 0⟩, ⟨6, 0, .ro, 0⟩]⟩,
  ⟨0x108, 1, [⟨6, 0, .ro, 0⟩]⟩,
  ⟨0x10C, 1, [⟨31, 16, .rc, 0⟩, ⟨15, 0, .rc, 0⟩]⟩,
  ⟨0x110, 1, [⟨16, 0, .ro, 0⟩]⟩]

/-- Block registers of pages 0x12, 0x13, 0x14, 0x15, 0x16, 0x17, 0x18. -/
def blockRegs12 : List RegSpec := [
  ⟨0x040, 1, [⟨15, 0, .rc, 0⟩]⟩,
  ⟨0x044, 1, [⟨31, 31, .ro, 0⟩, ⟨23, 16, .ro, 0⟩, ⟨15, 8, .ro, 0⟩, ⟨5, 0, .ro, 0⟩]⟩,
  ⟨0x048, 1, [⟨15, 8, .wo, 0⟩, ⟨7, 0, .rw, 0⟩]⟩,
  ⟨0x04C, 1, [⟨31, 0, .ro, 0⟩]⟩,
  ⟨0x050, 1, [⟨31, 0, .ro, 0⟩]⟩,
  ⟨0x054, 1, [⟨31, 16, .rc, 0⟩, ⟨15, 0, .rc, 0⟩]⟩]

/-- Block registers of page 0x19. -/
def blockRegs19 : List RegSpec := [
  ⟨0x040, 1, [⟨31, 16, .ro, 62⟩, ⟨15, 0, .ro, 58⟩]⟩,
  ⟨0x044, 1, [⟨31, 16, .rc, 0⟩, ⟨15, 0, .rc, 0⟩]⟩,
  ⟨0x048, 1, [⟨9, 8, .wo, 0⟩, ⟨1, 0, .rw, 0⟩]⟩,
  ⟨0x04C, 1, [⟨31, 0, .ro, 0⟩]⟩,
  ⟨0x050, 1, [⟨31, 0, .ro, 0⟩]⟩,
  ⟨0x054, 1, [⟨31, 0, .ro, 0⟩]⟩,
  ⟨0x058, 1, [⟨31, 0, .ro, 0⟩]⟩]

/-- Block registers of page 0x1A. -/
def blockRegs1A : List RegSpec := [
  ⟨0x040, 1, [⟨31, 0, .ro, 0⟩]⟩,
  ⟨0x044, 1, [⟨31, 0, .ro, 0⟩]⟩,
  ⟨0x048, 1, [⟨31, 0, .wo, 0⟩]⟩,
  ⟨0x04C, 1, [⟨31, 0, .ro, 0⟩]⟩,
  ⟨0x050, 1, [⟨31, 0, .ro, 0⟩]⟩]

/-- Block registers of page 0x20. -/
def blockRegs20 : List RegSpec := [
  ⟨0x040, 1, [⟨14, 12, .ro, 0⟩, ⟨3, 0, .rwl, 15⟩]⟩,
  ⟨0x044, 1, [⟨31, 0, .rc, 0⟩]⟩,
  ⟨0x048, 1, [⟨31, 16, .rc, 0⟩, ⟨15, 0, .rc, 0⟩]⟩,
  ⟨0x04C, 1, [⟨31, 16, .rc, 0⟩, ⟨15, 0, .rc, 0⟩]⟩,
  ⟨0x050, 1, [⟨31, 16, .rc, 0⟩, ⟨15, 0, .rc, 0⟩]⟩,
  ⟨0x054, 1, [⟨8, 8, .wo, 0⟩, ⟨0, 0, .rw, 0⟩]⟩,
  ⟨0x058, 1, [⟨31, 24, .ro, 0⟩, ⟨23, 16, .ro, 0⟩, ⟨15, 8, .ro, 0⟩, ⟨7, 0, .ro, 0⟩]⟩,
  ⟨0x100, 1, [⟨5, 0, .rw, 0⟩]⟩,
  ⟨0x104, 1, [⟨31, 31, .ro, 0⟩, ⟨30, 27, .ro, 0⟩, ⟨26, 16, .ro, 0⟩, ⟨11, 0, .ro, 0⟩]⟩,
  ⟨0x108, 1, [⟨0, 0, .wo, 0⟩]⟩,
  ⟨0x10C, 1, [⟨6, 0, .ro, 0⟩]⟩]

/-- Block registers of pages 0x21, 0x22, 0x23, 0x24, 0x25, 0x26, 0x27. -/
def blockRegs21 : List RegSpec := [
  ⟨0x040, 1, [⟨14, 12, .ro, 0⟩, ⟨3, 0, .rwl, 15⟩]⟩,
  ⟨0x044, 1, [⟨31, 0, .rc, 0⟩]⟩,
  ⟨0x048, 1, [⟨31, 16, .rc, 0⟩, ⟨15, 0, .rc, 0⟩]⟩,
  ⟨0x04C, 1, [⟨31, 16, .rc, 0⟩, ⟨15, 0, .rc, 0⟩]⟩,
  ⟨0x050, 1, [⟨31, 16, .rc, 0⟩, ⟨15, 0, .rc, 0⟩]⟩,
  ⟨0x054, 1, [⟨8, 8, .wo, 0⟩, ⟨0, 0, .rw, 0⟩]⟩,
  ⟨0x058, 1, [⟨31, 24, .ro, 0⟩, ⟨23, 16, .ro, 0⟩, ⟨15, 8, .ro, 0⟩, ⟨7, 0, .ro, 0⟩]⟩]

/-- Block registers of page 0x28. -/
def blockRegs28 : List RegSpec := [
  ⟨0x040, 1, [⟨16, 0, .rw, 0⟩]⟩,
  ⟨0x044, 4, [⟨31, 0, .ro, 0⟩]⟩,
  ⟨0x054, 1, [⟨16, 0, .rw, 0⟩]⟩,
  ⟨0x058, 1, [⟨17, 0, .rw, 0⟩]⟩,
  ⟨0x05C, 1, [⟨31, 31, .ro, 0⟩, ⟨27, 24, .ro, 0⟩, ⟨13, 12, .wo, 0⟩, ⟨11, 0, .wo, 0⟩]⟩,
  ⟨0x060, 1, [⟨17, 0, .ro, 0⟩]⟩,
  ⟨0x064, 1, [⟨17, 0, .ro, 0⟩]⟩,
  ⟨0x068, 1, [⟨31, 16, .rc, 0⟩, ⟨15, 0, .rc, 0⟩]⟩,
  ⟨0x06C, 1, [⟨16, 0, .ro, 0⟩]⟩,
  ⟨0x070, 1, [⟨31, 16, .rc, 0⟩, ⟨15, 0, .rc, 0⟩]⟩,
  ⟨0x074, 1, [⟨14, 0, .ro, 0⟩]⟩]

/-- Block registers of page 0x29. -/
def blockRegs29 : List RegSpec := [
  ⟨0x040, 1, [⟨11, 11, .ro, 0⟩, ⟨10, 10, .ro, 0⟩, ⟨9, 9, .ro, 0⟩, ⟨8, 8, .ro, 0⟩, ⟨2, 0, .ro, 0⟩]⟩,
  ⟨0x044, 1, [⟨31, 0, .ro, 0⟩]⟩,
  ⟨0x048, 1, [⟨31, 0, .ro, 0⟩]⟩,
  ⟨0x04C, 1, [⟨31, 0, .ro, 0⟩]⟩,
  ⟨0x050, 1, [⟨31, 31, .ro, 0⟩, ⟨7, 4, .ro, 0⟩, ⟨3, 0, .wo, 0⟩]⟩,
  ⟨0x054, 1, [⟨2, 0, .rw, 0⟩]⟩,
  ⟨0x058, 1, [⟨31, 0, .rw, 0⟩]⟩,
  ⟨0x05C, 1, [⟨3, 0, .rw, 0⟩]⟩,
  ⟨0x060, 1, [⟨31, 0, .ro, 0⟩]⟩,
  ⟨0x080, 32, [⟨31, 0, .rw, 0⟩]⟩]

/-- Block registers of page 0x2A. -/
def blockRegs2A : List RegSpec := [
  ⟨0x040, 1, [⟨15, 12, .rwl, 12⟩, ⟨11, 8, .rwl, 4⟩, ⟨1, 1, .rwl, 0⟩, ⟨0, 0, .rwl, 0⟩]⟩,
  ⟨0x044, 1, [⟨6, 0, .ro, 0⟩]⟩,
  ⟨0x048, 1, [⟨31, 16, .rc, 0⟩, ⟨15, 0, .rc, 0⟩]⟩,
  ⟨0x04C, 1, [⟨31, 16, .rc, 0⟩, ⟨15, 0, .rc, 0⟩]⟩,
  ⟨0x050, 1, [⟨16, 0, .ro, 0⟩]⟩,
  ⟨0x054, 1, [⟨31, 0, .rc, 0⟩]⟩]

/-- Block registers of page 0x2C. -/
def blockRegs2C : List RegSpec := [
  ⟨0x040, 1, [⟨15, 8, .rwl, 128⟩, ⟨2, 2, .rwl, 0⟩, ⟨1, 1, .rwl, 1⟩, ⟨0, 0, .rwl, 1⟩]⟩,
  ⟨0x044, 1, [⟨7, 0, .rwl, 81⟩]⟩,
  ⟨0x048, 1, [⟨10, 0, .rwl, 830⟩]⟩,
  ⟨0x04C, 1, [⟨20, 16, .ro, 0⟩, ⟨11, 11, .ro, 0⟩, ⟨10, 10, .ro, 0⟩, ⟨9, 9, .ro, 0⟩, ⟨8, 8, .ro, 0⟩, ⟨2, 0, .ro, 1⟩]⟩,
  ⟨0x050, 1, [⟨31, 16, .rc, 0⟩, ⟨15, 0, .rc, 0⟩]⟩,
  ⟨0x054, 1, [⟨31, 0, .rc, 0⟩]⟩,
  ⟨0x058, 1, [⟨16, 0, .ro, 0⟩]⟩,
  ⟨0x05C, 1, [⟨9, 9, .ro, 0⟩, ⟨8, 8, .ro, 0⟩, ⟨0, 0, .wo, 0⟩]⟩,
  ⟨0x060, 1, [⟨31, 0, .ro, 0⟩]⟩,
  ⟨0x064, 1, [⟨10, 0, .ro, 0⟩]⟩,
  ⟨0x068, 1, [⟨31, 31, .ro, 0⟩, ⟨15, 0, .ro, 0⟩]⟩]

/-- Block registers of page 0x30. -/
def blockRegs30 : List RegSpec := [
  ⟨0x040, 1, [⟨2, 0, .wo, 0⟩]⟩,
  ⟨0x044, 1, [⟨2, 0, .ro, 1⟩]⟩,
  ⟨0x048, 1, [⟨31, 2, .rw, 0⟩]⟩,
  ⟨0x04C, 1, [⟨31, 0, .ro, 0⟩]⟩,
  ⟨0x050, 1, [⟨31, 16, .rc, 0⟩, ⟨15, 0, .rc, 0⟩]⟩,
  ⟨0x054, 1, [⟨31, 31, .ro, 0⟩, ⟨15, 0, .ro, 0⟩]⟩,
  ⟨0x100, 1, [⟨29, 16, .rw, 0⟩, ⟨1, 0, .rw, 0⟩]⟩,
  ⟨0x104, 1, [⟨31, 0, .rw, 0⟩]⟩,
  ⟨0x108, 1, [⟨31, 0, .rw, 0⟩]⟩,
  ⟨0x10C, 1, [⟨31, 31, .ro, 0⟩, ⟨7, 4, .ro, 0⟩, ⟨3, 0, .wo, 0⟩]⟩,
  ⟨0x110, 1, [⟨31, 16, .ro, 0⟩, ⟨15, 0, .ro, 0⟩]⟩,
  ⟨0x114, 1, [⟨19, 16, .ro, 0⟩, ⟨15, 0, .ro, 0⟩]⟩,
  ⟨0x200, 1, [⟨30, 0, .ro, 0⟩]⟩,
  ⟨0x204, 4, [⟨3, 0, .rw, 0⟩, ⟨7, 4, .rw, 0⟩, ⟨11, 8, .rw, 0⟩, ⟨15, 12, .rw, 0⟩, ⟨19, 16, .rw, 0⟩, ⟨23, 20, .rw, 0⟩, ⟨27, 24, .rw, 0⟩, ⟨31, 28, .rw, 0⟩]⟩,
  ⟨0x214, 1, [⟨15, 0, .w1c, 0⟩]⟩,
  ⟨0x218, 1, [⟨15, 0, .wo, 0⟩]⟩,
  ⟨0x21C, 1, [⟨31, 0, .ro, 0⟩]⟩,
  ⟨0x220, 1, [⟨31, 31, .ro, 0⟩, ⟨23, 0, .ro, 0⟩]⟩,
  ⟨0x224, 1, [⟨31, 16, .rc, 0⟩, ⟨15, 0, .rc, 0⟩]⟩,
  ⟨0x300, 8, [⟨13, 13, .rw, 0⟩, ⟨12, 12, .rw, 0⟩, ⟨11, 10, .rw, 0⟩, ⟨9, 9, .rw, 0⟩, ⟨8, 8, .rw, 0⟩, ⟨7, 0, .rw, 0⟩]⟩,
  ⟨0x320, 8, [⟨31, 0, .rw, 0⟩]⟩,
  ⟨0x340, 1, [⟨7, 0, .w1c, 0⟩]⟩,
  ⟨0x344, 1, [⟨6, 6, .wo, 0⟩, ⟨5, 5, .rw, 0⟩, ⟨4, 4, .rw, 0⟩, ⟨3, 1, .rw, 0⟩, ⟨0, 0, .rw, 0⟩]⟩,
  ⟨0x348, 1, [⟨31, 16, .rc, 0⟩, ⟨13, 8, .ro, 0⟩, ⟨6, 0, .ro, 0⟩]⟩,
  ⟨0x400, 256, [⟨31, 0, .ro, 0⟩]⟩]

/-- Block registers of pages 0x31, 0x32, 0x33, 0x34, 0x35, 0x36, 0x37, 0x38, 0x39, 0x3A, 0x3B, 0x3C, 0x3D, 0x3E, 0x3F. -/
def blockRegs31 : List RegSpec := [
  ⟨0x040, 1, [⟨2, 0, .wo, 0⟩]⟩,
  ⟨0x044, 1, [⟨2, 0, .ro, 1⟩]⟩,
  ⟨0x048, 1, [⟨31, 2, .rw, 0⟩]⟩,
  ⟨0x04C, 1, [⟨31, 0, .ro, 0⟩]⟩,
  ⟨0x050, 1, [⟨31, 16, .rc, 0⟩, ⟨15, 0, .rc, 0⟩]⟩,
  ⟨0x054, 1, [⟨31, 31, .ro, 0⟩, ⟨15, 0, .ro, 0⟩]⟩,
  ⟨0x200, 1, [⟨30, 0, .ro, 0⟩]⟩,
  ⟨0x204, 4, [⟨3, 0, .rw, 0⟩, ⟨7, 4, .rw, 0⟩, ⟨11, 8, .rw, 0⟩, ⟨15, 12, .rw, 0⟩, ⟨19, 16, .rw, 0⟩, ⟨23, 20, .rw, 0⟩, ⟨27, 24, .rw, 0⟩, ⟨31, 28, .rw, 0⟩]⟩,
  ⟨0x214, 1, [⟨15, 0, .w1c, 0⟩]⟩,
  ⟨0x218, 1, [⟨15, 0, .wo, 0⟩]⟩,
  ⟨0x21C, 1, [⟨31, 0, .ro, 0⟩]⟩,
  ⟨0x220, 1, [⟨31, 31, .ro, 0⟩, ⟨23, 0, .ro, 0⟩]⟩,
  ⟨0x224, 1, [⟨31, 16, .rc, 0⟩, ⟨15, 0, .rc, 0⟩]⟩,
  ⟨0x300, 8, [⟨13, 13, .rw, 0⟩, ⟨12, 12, .rw, 0⟩, ⟨11, 10, .rw, 0⟩, ⟨9, 9, .rw, 0⟩, ⟨8, 8, .rw, 0⟩, ⟨7, 0, .rw, 0⟩]⟩,
  ⟨0x320, 8, [⟨31, 0, .rw, 0⟩]⟩,
  ⟨0x340, 1, [⟨7, 0, .w1c, 0⟩]⟩,
  ⟨0x344, 1, [⟨6, 6, .wo, 0⟩, ⟨5, 5, .rw, 0⟩, ⟨4, 4, .rw, 0⟩, ⟨3, 1, .rw, 0⟩, ⟨0, 0, .rw, 0⟩]⟩,
  ⟨0x348, 1, [⟨31, 16, .rc, 0⟩, ⟨13, 8, .ro, 0⟩, ⟨6, 0, .ro, 0⟩]⟩,
  ⟨0x400, 256, [⟨31, 0, .ro, 0⟩]⟩]

/-- Block registers of page 0x40. -/
def blockRegs40 : List RegSpec := [
  ⟨0x040, 1, [⟨0, 0, .rwl, 0⟩]⟩,
  ⟨0x044, 1, [⟨7, 0, .rw, 0⟩]⟩,
  ⟨0x048, 1, [⟨31, 31, .ro, 0⟩, ⟨7, 4, .ro, 0⟩, ⟨3, 0, .wo, 0⟩]⟩,
  ⟨0x04C, 1, [⟨0, 0, .ro, 1⟩]⟩,
  ⟨0x050, 1, [⟨31, 0, .rc, 0⟩]⟩,
  ⟨0x054, 1, [⟨31, 16, .rc, 0⟩, ⟨15, 0, .rc, 0⟩]⟩,
  ⟨0x060, 4, [⟨31, 0, .rw, 0⟩]⟩,
  ⟨0x080, 24, [⟨11, 0, .rw, 0⟩]⟩,
  ⟨0x0E0, 8, [⟨31, 0, .rwl, 0⟩]⟩,
  ⟨0x100, 1, [⟨31, 0, .rw, 0⟩]⟩,
  ⟨0x104, 1, [⟨31, 0, .rw, 0⟩]⟩,
  ⟨0x108, 1, [⟨31, 0, .rw, 0⟩]⟩,
  ⟨0x10C, 1, [⟨31, 0, .rw, 0⟩]⟩,
  ⟨0x110, 1, [⟨24, 0, .rw, 0⟩]⟩,
  ⟨0x114, 1, [⟨31, 31, .w1s, 0⟩, ⟨30, 30, .w1s, 0⟩, ⟨29, 16, .rw, 0⟩, ⟨1, 0, .rw, 0⟩]⟩,
  ⟨0x118, 1, [⟨31, 31, .ro, 0⟩, ⟨7, 0, .ro, 0⟩]⟩,
  ⟨0x11C, 1, [⟨24, 0, .ro, 0⟩]⟩,
  ⟨0x120, 1, [⟨31, 0, .rw, 0⟩]⟩,
  ⟨0x124, 1, [⟨31, 0, .rw, 0⟩]⟩,
  ⟨0x128, 1, [⟨31, 0, .rw, 0⟩]⟩,
  ⟨0x12C, 1, [⟨31, 0, .rw, 0⟩]⟩,
  ⟨0x130, 1, [⟨24, 0, .rw, 0⟩]⟩,
  ⟨0x134, 1, [⟨31, 31, .w1s, 0⟩, ⟨30, 30, .w1s, 0⟩, ⟨29, 16, .rw, 0⟩, ⟨1, 0, .rw, 0⟩]⟩,
  ⟨0x138, 1, [⟨31, 31, .ro, 0⟩, ⟨7, 0, .ro, 0⟩]⟩,
  ⟨0x13C, 1, [⟨24, 0, .ro, 0⟩]⟩,
  ⟨0x140, 1, [⟨31, 0, .rw, 0⟩]⟩,
  ⟨0x144, 1, [⟨31, 0, .rw, 0⟩]⟩,
  ⟨0x148, 1, [⟨31, 0, .rw, 0⟩]⟩,
  ⟨0x14C, 1, [⟨31, 0, .rw, 0⟩]⟩,
  ⟨0x150, 1, [⟨24, 0, .rw, 0⟩]⟩,
  ⟨0x154, 1, [⟨31, 31, .w1s, 0⟩, ⟨30, 30, .w1s, 0⟩, ⟨29, 16, .rw, 0⟩, ⟨1, 0, .rw, 0⟩]⟩,
  ⟨0x158, 1, [⟨31, 31, .ro, 0⟩, ⟨7, 0, .ro, 0⟩]⟩,
  ⟨0x15C, 1, [⟨24, 0, .ro, 0⟩]⟩,
  ⟨0x160, 1, [⟨31, 0, .rw, 0⟩]⟩,
  ⟨0x164, 1, [⟨31, 0, .rw, 0⟩]⟩,
  ⟨0x168, 1, [⟨31, 0, .rw, 0⟩]⟩,
  ⟨0x16C, 1, [⟨31, 0, .rw, 0⟩]⟩,
  ⟨0x170, 1, [⟨24, 0, .rw, 0⟩]⟩,
  ⟨0x174, 1, [⟨31, 31, .w1s, 0⟩, ⟨30, 30, .w1s, 0⟩, ⟨29, 16, .rw, 0⟩, ⟨1, 0, .rw, 0⟩]⟩,
  ⟨0x178, 1, [⟨31, 31, .ro, 0⟩, ⟨7, 0, .ro, 0⟩]⟩,
  ⟨0x17C, 1, [⟨24, 0, .ro, 0⟩]⟩,
  ⟨0x180, 1, [⟨31, 0, .rw, 0⟩]⟩,
  ⟨0x184, 1, [⟨31, 0, .rw, 0⟩]⟩,
  ⟨0x188, 1, [⟨31, 0, .rw, 0⟩]⟩,
  ⟨0x18C, 1, [⟨31, 0, .rw, 0⟩]⟩,
  ⟨0x190, 1, [⟨24, 0, .rw, 0⟩]⟩,
  ⟨0x194, 1, [⟨31, 31, .w1s, 0⟩, ⟨30, 30, .w1s, 0⟩, ⟨29, 16, .rw, 0⟩, ⟨1, 0, .rw, 0⟩]⟩,
  ⟨0x198, 1, [⟨31, 31, .ro, 0⟩, ⟨7, 0, .ro, 0⟩]⟩,
  ⟨0x19C, 1, [⟨24, 0, .ro, 0⟩]⟩,
  ⟨0x1A0, 1, [⟨31, 0, .rw, 0⟩]⟩,
  ⟨0x1A4, 1, [⟨31, 0, .rw, 0⟩]⟩,
  ⟨0x1A8, 1, [⟨31, 0, .rw, 0⟩]⟩,
  ⟨0x1AC, 1, [⟨31, 0, .rw, 0⟩]⟩,
  ⟨0x1B0, 1, [⟨24, 0, .rw, 0⟩]⟩,
  ⟨0x1B4, 1, [⟨31, 31, .w1s, 0⟩, ⟨30, 30, .w1s, 0⟩, ⟨29, 16, .rw, 0⟩, ⟨1, 0, .rw, 0⟩]⟩,
  ⟨0x1B8, 1, [⟨31, 31, .ro, 0⟩, ⟨7, 0, .ro, 0⟩]⟩,
  ⟨0x1BC, 1, [⟨24, 0, .ro, 0⟩]⟩,
  ⟨0x1C0, 1, [⟨31, 0, .rw, 0⟩]⟩,
  ⟨0x1C4, 1, [⟨31, 0, .rw, 0⟩]⟩,
  ⟨0x1C8, 1, [⟨31, 0, .rw, 0⟩]⟩,
  ⟨0x1CC, 1, [⟨31, 0, .rw, 0⟩]⟩,
  ⟨0x1D0, 1, [⟨24, 0, .rw, 0⟩]⟩,
  ⟨0x1D4, 1, [⟨31, 31, .w1s, 0⟩, ⟨30, 30, .w1s, 0⟩, ⟨29, 16, .rw, 0⟩, ⟨1, 0, .rw, 0⟩]⟩,
  ⟨0x1D8, 1, [⟨31, 31, .ro, 0⟩, ⟨7, 0, .ro, 0⟩]⟩,
  ⟨0x1DC, 1, [⟨24, 0, .ro, 0⟩]⟩,
  ⟨0x1E0, 1, [⟨31, 0, .rw, 0⟩]⟩,
  ⟨0x1E4, 1, [⟨31, 0, .rw, 0⟩]⟩,
  ⟨0x1E8, 1, [⟨31, 0, .rw, 0⟩]⟩,
  ⟨0x1EC, 1, [⟨31, 0, .rw, 0⟩]⟩,
  ⟨0x1F0, 1, [⟨24, 0, .rw, 0⟩]⟩,
  ⟨0x1F4, 1, [⟨31, 31, .w1s, 0⟩, ⟨30, 30, .w1s, 0⟩, ⟨29, 16, .rw, 0⟩, ⟨1, 0, .rw, 0⟩]⟩,
  ⟨0x1F8, 1, [⟨31, 31, .ro, 0⟩, ⟨7, 0, .ro, 0⟩]⟩,
  ⟨0x1FC, 1, [⟨24, 0, .ro, 0⟩]⟩]

/-- Block registers of page 0x44. -/
def blockRegs44 : List RegSpec := [
  ⟨0x040, 1, [⟨5, 5, .ro, 0⟩, ⟨4, 4, .ro, 0⟩, ⟨3, 3, .ro, 0⟩, ⟨2, 2, .ro, 0⟩, ⟨1, 0, .ro, 0⟩]⟩,
  ⟨0x044, 1, [⟨12, 0, .ro, 0⟩]⟩,
  ⟨0x048, 1, [⟨12, 0, .ro, 0⟩]⟩,
  ⟨0x04C, 1, [⟨12, 0, .wo, 0⟩]⟩,
  ⟨0x050, 1, [⟨12, 0, .wo, 0⟩]⟩,
  ⟨0x054, 1, [⟨3, 2, .rwl, 0⟩, ⟨1, 0, .rwl, 0⟩]⟩,
  ⟨0x058, 1, [⟨15, 8, .rwl, 125⟩, ⟨7, 0, .rwl, 211⟩]⟩,
  ⟨0x05C, 1, [⟨7, 0, .ro, 0⟩]⟩,
  ⟨0x060, 1, [⟨11, 0, .ro, 0⟩]⟩,
  ⟨0x064, 1, [⟨31, 0, .ro, 0⟩]⟩,
  ⟨0x068, 1, [⟨31, 0, .ro, 0⟩]⟩,
  ⟨0x080, 1, [⟨31, 16, .rwl, 1⟩, ⟨2, 2, .rwl, 0⟩, ⟨1, 1, .rwl, 1⟩, ⟨0, 0, .rwl, 1⟩]⟩,
  ⟨0x084, 1, [⟨31, 16, .rwl, 1⟩, ⟨2, 2, .rwl, 0⟩, ⟨1, 1, .rwl, 1⟩, ⟨0, 0, .rwl, 1⟩]⟩,
  ⟨0x088, 1, [⟨31, 16, .rwl, 1⟩, ⟨2, 2, .rwl, 0⟩, ⟨1, 1, .rwl, 1⟩, ⟨0, 0, .rwl, 1⟩]⟩,
  ⟨0x08C, 1, [⟨31, 16, .rwl, 4⟩, ⟨2, 2, .rwl, 0⟩, ⟨1, 1, .rwl, 0⟩, ⟨0, 0, .rwl, 1⟩]⟩,
  ⟨0x090, 1, [⟨31, 16, .rwl, 1⟩, ⟨2, 2, .rwl, 0⟩, ⟨1, 1, .rwl, 0⟩, ⟨0, 0, .rwl, 1⟩]⟩,
  ⟨0x094, 1, [⟨31, 16, .rwl, 4⟩, ⟨2, 2, .rwl, 0⟩, ⟨1, 1, .rwl, 0⟩, ⟨0, 0, .rwl, 1⟩]⟩,
  ⟨0x098, 1, [⟨31, 16, .rwl, 1⟩, ⟨2, 2, .rwl, 0⟩, ⟨1, 1, .rwl, 0⟩, ⟨0, 0, .rwl, 1⟩]⟩,
  ⟨0x09C, 1, [⟨31, 16, .rwl, 16⟩, ⟨2, 2, .rwl, 0⟩, ⟨1, 1, .rwl, 0⟩, ⟨0, 0, .rwl, 1⟩]⟩,
  ⟨0x0A0, 1, [⟨31, 16, .rwl, 16⟩, ⟨2, 2, .rwl, 0⟩, ⟨1, 1, .rwl, 0⟩, ⟨0, 0, .rwl, 1⟩]⟩,
  ⟨0x0A4, 1, [⟨31, 16, .rwl, 0⟩, ⟨2, 2, .rwl, 0⟩, ⟨1, 1, .rwl, 0⟩, ⟨0, 0, .rwl, 1⟩]⟩,
  ⟨0x0A8, 1, [⟨31, 16, .rwl, 0⟩, ⟨2, 2, .rwl, 0⟩, ⟨1, 1, .rwl, 0⟩, ⟨0, 0, .rwl, 1⟩]⟩,
  ⟨0x0AC, 1, [⟨31, 16, .rwl, 1⟩, ⟨2, 2, .rwl, 0⟩, ⟨1, 1, .rwl, 0⟩, ⟨0, 0, .rwl, 0⟩]⟩,
  ⟨0x0B0, 1, [⟨31, 16, .rwl, 1⟩, ⟨2, 2, .rwl, 0⟩, ⟨1, 1, .rwl, 0⟩, ⟨0, 0, .rwl, 0⟩]⟩,
  ⟨0x0B4, 1, [⟨31, 16, .rwl, 0⟩, ⟨2, 2, .rwl, 0⟩, ⟨1, 1, .rwl, 0⟩, ⟨0, 0, .rwl, 0⟩]⟩,
  ⟨0x0B8, 1, [⟨31, 16, .rwl, 0⟩, ⟨2, 2, .rwl, 0⟩, ⟨1, 1, .rwl, 0⟩, ⟨0, 0, .rwl, 0⟩]⟩,
  ⟨0x0BC, 1, [⟨31, 16, .rwl, 0⟩, ⟨2, 2, .rwl, 0⟩, ⟨1, 1, .rwl, 0⟩, ⟨0, 0, .rwl, 0⟩]⟩,
  ⟨0x0C0, 1, [⟨21, 0, .rwl, 1000⟩]⟩,
  ⟨0x0C4, 1, [⟨21, 0, .rwl, 1000⟩]⟩,
  ⟨0x0C8, 1, [⟨21, 0, .rwl, 1000⟩]⟩,
  ⟨0x0CC, 1, [⟨21, 0, .rwl, 1000⟩]⟩,
  ⟨0x0D0, 1, [⟨21, 0, .rwl, 1000⟩]⟩,
  ⟨0x0D4, 1, [⟨21, 0, .rwl, 1000⟩]⟩,
  ⟨0x0D8, 1, [⟨21, 0, .rwl, 1000⟩]⟩,
  ⟨0x0DC, 1, [⟨21, 0, .rwl, 1000⟩]⟩,
  ⟨0x0E0, 1, [⟨21, 0, .rwl, 1000⟩]⟩,
  ⟨0x0E4, 1, [⟨21, 0, .rwl, 1000⟩]⟩,
  ⟨0x0E8, 1, [⟨21, 0, .rwl, 1000⟩]⟩,
  ⟨0x0EC, 1, [⟨21, 0, .rwl, 1000⟩]⟩,
  ⟨0x0F0, 1, [⟨21, 0, .rwl, 1000⟩]⟩,
  ⟨0x0F4, 1, [⟨21, 0, .rwl, 0⟩]⟩,
  ⟨0x0F8, 1, [⟨21, 0, .rwl, 0⟩]⟩,
  ⟨0x0FC, 1, [⟨21, 0, .rwl, 0⟩]⟩,
  ⟨0x100, 16, [⟨15, 0, .ro, 0⟩]⟩]

/-- Block registers of page 0x45. -/
def blockRegs45 : List RegSpec := [
  ⟨0x040, 1, [⟨1, 1, .wo, 0⟩, ⟨0, 0, .wo, 0⟩]⟩,
  ⟨0x044, 1, [⟨12, 0, .ro, 0⟩]⟩,
  ⟨0x048, 1, [⟨9, 8, .ro, 0⟩, ⟨7, 0, .ro, 0⟩]⟩,
  ⟨0x080, 1, [⟨9, 8, .rwl, 2⟩, ⟨7, 0, .rwl, 23⟩]⟩,
  ⟨0x084, 1, [⟨9, 8, .rwl, 2⟩, ⟨7, 0, .rwl, 23⟩]⟩,
  ⟨0x088, 1, [⟨9, 8, .rwl, 2⟩, ⟨7, 0, .rwl, 23⟩]⟩,
  ⟨0x08C, 1, [⟨9, 8, .rwl, 1⟩, ⟨7, 0, .rwl, 1⟩]⟩,
  ⟨0x090, 1, [⟨9, 8, .rwl, 1⟩, ⟨7, 0, .rwl, 1⟩]⟩,
  ⟨0x094, 1, [⟨9, 8, .rwl, 1⟩, ⟨7, 0, .rwl, 1⟩]⟩,
  ⟨0x098, 1, [⟨9, 8, .rwl, 1⟩, ⟨7, 0, .rwl, 1⟩]⟩,
  ⟨0x09C, 1, [⟨9, 8, .rwl, 1⟩, ⟨7, 0, .rwl, 1⟩]⟩,
  ⟨0x0A0, 1, [⟨9, 8, .rwl, 1⟩, ⟨7, 0, .rwl, 1⟩]⟩,
  ⟨0x0A4, 1, [⟨9, 8, .rwl, 2⟩, ⟨7, 0, .rwl, 5⟩]⟩,
  ⟨0x0A8, 1, [⟨9, 8, .rwl, 1⟩, ⟨7, 0, .rwl, 1⟩]⟩,
  ⟨0x0AC, 1, [⟨9, 8, .rwl, 1⟩, ⟨7, 0, .rwl, 1⟩]⟩,
  ⟨0x0B0, 1, [⟨9, 8, .rwl, 1⟩, ⟨7, 0, .rwl, 1⟩]⟩,
  ⟨0x0B4, 1, [⟨9, 8, .rwl, 0⟩, ⟨7, 0, .rwl, 0⟩]⟩,
  ⟨0x0B8, 1, [⟨9, 8, .rwl, 0⟩, ⟨7, 0, .rwl, 0⟩]⟩,
  ⟨0x0BC, 1, [⟨9, 8, .rwl, 0⟩, ⟨7, 0, .rwl, 0⟩]⟩,
  ⟨0x0C0, 16, [⟨9, 8, .ro, 0⟩, ⟨7, 0, .ro, 0⟩]⟩]

/-- Block registers of page 0x46. -/
def blockRegs46 : List RegSpec := [
  ⟨0x040, 1, [⟨31, 0, .ro, 0⟩]⟩,
  ⟨0x044, 1, [⟨31, 0, .rw, 0⟩]⟩,
  ⟨0x048, 1, [⟨15, 0, .rc, 0⟩]⟩,
  ⟨0x04C, 1, [⟨14, 8, .ro, 0⟩, ⟨6, 0, .ro, 0⟩]⟩,
  ⟨0x050, 1, [⟨5, 0, .rw, 0⟩]⟩,
  ⟨0x054, 1, [⟨0, 0, .wo, 0⟩]⟩,
  ⟨0x080, 8, [⟨31, 0, .ro, 0⟩]⟩,
  ⟨0x0A0, 4, [⟨31, 0, .ro, 0⟩]⟩]

/-- Block registers of page 0x48. -/
def blockRegs48 : List RegSpec := [
  ⟨0x040, 1, [⟨1, 1, .rw, 1⟩, ⟨0, 0, .rwl, 1⟩]⟩,
  ⟨0x044, 1, [⟨11, 8, .ro, 0⟩, ⟨7, 7, .ro, 0⟩, ⟨6, 6, .ro, 0⟩, ⟨5, 5, .ro, 0⟩, ⟨4, 4, .ro, 0⟩, ⟨2, 0, .ro, 0⟩]⟩,
  ⟨0x048, 1, [⟨31, 31, .ro, 0⟩, ⟨7, 4, .ro, 0⟩, ⟨3, 0, .wo, 0⟩]⟩,
  ⟨0x04C, 1, [⟨15, 0, .ro, 0⟩]⟩,
  ⟨0x050, 1, [⟨31, 0, .ro, 0⟩]⟩,
  ⟨0x054, 1, [⟨31, 0, .ro, 0⟩]⟩,
  ⟨0x058, 1, [⟨31, 0, .ro, 0⟩]⟩,
  ⟨0x05C, 1, [⟨31, 16, .rc, 0⟩, ⟨15, 0, .rc, 0⟩]⟩,
  ⟨0x060, 1, [⟨13, 0, .rw, 0⟩]⟩,
  ⟨0x064, 1, [⟨1, 0, .rw, 0⟩]⟩,
  ⟨0x080, 16, [⟨31, 0, .ro, 0⟩]⟩,
  ⟨0x100, 60, [⟨31, 0, .rw, 0⟩]⟩]

/-- Block registers of page 0x49. -/
def blockRegs49 : List RegSpec := [
  ⟨0x040, 1, [⟨4, 4, .ro, 0⟩, ⟨3, 3, .ro, 0⟩, ⟨2, 2, .ro, 0⟩, ⟨1, 0, .ro, 0⟩]⟩,
  ⟨0x044, 1, [⟨31, 31, .ro, 0⟩, ⟨7, 4, .ro, 0⟩, ⟨3, 0, .wo, 0⟩]⟩,
  ⟨0x048, 1, [⟨31, 0, .rw, 0⟩]⟩,
  ⟨0x04C, 1, [⟨31, 0, .rw, 0⟩]⟩,
  ⟨0x050, 1, [⟨31, 0, .rw, 0⟩]⟩,
  ⟨0x054, 1, [⟨10, 0, .ro, 0⟩]⟩,
  ⟨0x058, 1, [⟨9, 0, .rw, 0⟩]⟩,
  ⟨0x05C, 1, [⟨31, 0, .ro, 0⟩]⟩,
  ⟨0x400, 768, [⟨31, 0, .rw, 0⟩]⟩]

/-- Block registers of page 0x4C. -/
def blockRegs4C : List RegSpec := [
  ⟨0x040, 1, [⟨31, 16, .rwl, 500⟩, ⟨11, 8, .rwl, 4⟩, ⟨3, 3, .rwl, 0⟩, ⟨2, 0, .rwl, 7⟩]⟩,
  ⟨0x044, 1, [⟨6, 6, .ro, 0⟩, ⟨5, 3, .ro, 0⟩, ⟨2, 2, .ro, 0⟩, ⟨1, 1, .ro, 0⟩, ⟨0, 0, .ro, 0⟩]⟩,
  ⟨0x048, 1, [⟨22, 0, .ro, 0⟩]⟩,
  ⟨0x04C, 1, [⟨31, 0, .rw, 0⟩]⟩,
  ⟨0x050, 1, [⟨31, 15, .rw, 0⟩, ⟨14, 0, .rw, 0⟩]⟩,
  ⟨0x054, 1, [⟨31, 9, .rw, 0⟩]⟩,
  ⟨0x058, 1, [⟨31, 0, .rw, 0⟩]⟩,
  ⟨0x05C, 1, [⟨31, 31, .ro, 0⟩, ⟨7, 4, .ro, 0⟩, ⟨3, 0, .wo, 0⟩]⟩,
  ⟨0x060, 1, [⟨14, 0, .ro, 0⟩]⟩,
  ⟨0x064, 1, [⟨7, 6, .rw, 0⟩, ⟨5, 0, .rw, 0⟩]⟩,
  ⟨0x068, 1, [⟨31, 0, .rw, 0⟩]⟩,
  ⟨0x06C, 4, [⟨31, 0, .ro, 0⟩]⟩,
  ⟨0x07C, 1, [⟨31, 16, .rc, 0⟩, ⟨15, 0, .rc, 0⟩]⟩]

/-- Block registers of page 0x4D. -/
def blockRegs4D : List RegSpec := [
  ⟨0x040, 1, [⟨6, 6, .rwl, 0⟩, ⟨5, 5, .rw, 0⟩, ⟨4, 4, .rw, 1⟩, ⟨2, 0, .rw, 3⟩]⟩,
  ⟨0x044, 1, [⟨31, 16, .rw, 5243⟩, ⟨15, 0, .rw, 5243⟩]⟩,
  ⟨0x048, 1, [⟨15, 12, .ro, 0⟩, ⟨11, 8, .ro, 0⟩, ⟨5, 5, .ro, 0⟩, ⟨4, 4, .ro, 0⟩, ⟨3, 2, .ro, 0⟩, ⟨1, 1, .ro, 0⟩, ⟨0, 0, .ro, 0⟩]⟩,
  ⟨0x04C, 1, [⟨31, 31, .ro, 0⟩, ⟨7, 4, .ro, 0⟩, ⟨3, 0, .wo, 0⟩]⟩,
  ⟨0x050, 1, [⟨25, 16, .ro, 0⟩, ⟨9, 0, .rw, 0⟩]⟩,
  ⟨0x054, 1, [⟨31, 16, .rc, 0⟩, ⟨15, 0, .rc, 0⟩]⟩,
  ⟨0x080, 1, [⟨6, 6, .rwl, 0⟩, ⟨5, 5, .rw, 0⟩, ⟨4, 4, .rw, 1⟩, ⟨2, 0, .rw, 3⟩]⟩,
  ⟨0x084, 1, [⟨31, 16, .rw, 5243⟩, ⟨15, 0, .rw, 5243⟩]⟩,
  ⟨0x088, 1, [⟨15, 12, .ro, 0⟩, ⟨11, 8, .ro, 0⟩, ⟨5, 5, .ro, 0⟩, ⟨4, 4, .ro, 0⟩, ⟨3, 2, .ro, 0⟩, ⟨1, 1, .ro, 0⟩, ⟨0, 0, .ro, 0⟩]⟩,
  ⟨0x08C, 1, [⟨31, 31, .ro, 0⟩, ⟨7, 4, .ro, 0⟩, ⟨3, 0, .wo, 0⟩]⟩,
  ⟨0x090, 1, [⟨25, 16, .ro, 0⟩, ⟨9, 0, .rw, 0⟩]⟩,
  ⟨0x094, 1, [⟨31, 16, .rc, 0⟩, ⟨15, 0, .rc, 0⟩]⟩,
  ⟨0x400, 256, [⟨31, 0, .rw, 0⟩]⟩]

/-- Block registers of page 0x4E. -/
def blockRegs4E : List RegSpec := [
  ⟨0x040, 1, [⟨1, 0, .rw, 0⟩]⟩,
  ⟨0x044, 1, [⟨4, 4, .ro, 0⟩, ⟨3, 3, .ro, 0⟩, ⟨2, 2, .ro, 0⟩, ⟨1, 0, .ro, 0⟩]⟩,
  ⟨0x048, 1, [⟨31, 24, .rw, 16⟩, ⟨23, 16, .rw, 0⟩, ⟨5, 5, .rw, 0⟩, ⟨4, 4, .rw, 0⟩, ⟨3, 2, .rw, 0⟩, ⟨1, 0, .rw, 0⟩]⟩,
  ⟨0x04C, 1, [⟨31, 31, .ro, 0⟩, ⟨7, 4, .ro, 0⟩, ⟨3, 0, .wo, 0⟩]⟩,
  ⟨0x050, 1, [⟨24, 16, .ro, 0⟩, ⟨8, 0, .rw, 0⟩]⟩,
  ⟨0x054, 1, [⟨31, 31, .wo, 0⟩, ⟨25, 16, .rw, 16⟩, ⟨9, 0, .rw, 100⟩]⟩,
  ⟨0x058, 1, [⟨25, 16, .ro, 0⟩, ⟨9, 0, .rw, 0⟩]⟩,
  ⟨0x05C, 1, [⟨16, 16, .wo, 0⟩, ⟨13, 8, .rw, 1⟩, ⟨4, 4, .rw, 0⟩, ⟨3, 0, .rw, 4⟩]⟩,
  ⟨0x060, 1, [⟨31, 0, .rw, 0⟩]⟩,
  ⟨0x064, 1, [⟨23, 0, .rw, 0⟩]⟩,
  ⟨0x068, 1, [⟨31, 31, .ro, 0⟩, ⟨30, 28, .ro, 0⟩, ⟨27, 27, .wo, 0⟩, ⟨11, 0, .rw, 0⟩]⟩,
  ⟨0x06C, 1, [⟨2, 2, .rw, 0⟩, ⟨1, 1, .ro, 0⟩, ⟨0, 0, .rw, 0⟩]⟩,
  ⟨0x070, 1, [⟨23, 16, .ro, 0⟩, ⟨8, 0, .ro, 0⟩]⟩,
  ⟨0x074, 1, [⟨7, 4, .rw, 5⟩, ⟨1, 1, .rw, 0⟩, ⟨0, 0, .rw, 0⟩]⟩,
  ⟨0x078, 1, [⟨0, 0, .ro, 0⟩]⟩,
  ⟨0x400, 768, [⟨31, 0, .rw, 0⟩]⟩]

/-- The block registers of each page that has any (R41). -/
def blockRegs (page : Nat) : List RegSpec :=
  match page with
  | 0x01 => blockRegs01
  | 0x02 => blockRegs02
  | 0x03 => blockRegs03
  | 0x04 => blockRegs04
  | 0x08 => blockRegs08
  | 0x09 => blockRegs09
  | 0x0A => blockRegs0A
  | 0x0B => blockRegs0B
  | 0x10 => blockRegs10
  | 0x11 => blockRegs11
  | 0x12 | 0x13 | 0x14 | 0x15 | 0x16 | 0x17 | 0x18 => blockRegs12
  | 0x19 => blockRegs19
  | 0x1A => blockRegs1A
  | 0x20 => blockRegs20
  | 0x21 | 0x22 | 0x23 | 0x24 | 0x25 | 0x26 | 0x27 => blockRegs21
  | 0x28 => blockRegs28
  | 0x29 => blockRegs29
  | 0x2A => blockRegs2A
  | 0x2C => blockRegs2C
  | 0x30 => blockRegs30
  | 0x31 | 0x32 | 0x33 | 0x34 | 0x35 | 0x36 | 0x37 | 0x38 => blockRegs31
  | 0x39 | 0x3A | 0x3B | 0x3C | 0x3D | 0x3E | 0x3F => blockRegs31
  | 0x40 => blockRegs40
  | 0x44 => blockRegs44
  | 0x45 => blockRegs45
  | 0x46 => blockRegs46
  | 0x48 => blockRegs48
  | 0x49 => blockRegs49
  | 0x4C => blockRegs4C
  | 0x4D => blockRegs4D
  | 0x4E => blockRegs4E
  | _ => []

/-- The layout of the register at an offset of a list. -/
def specAt (l : List RegSpec) (off : Nat) : Option RegSpec :=
  l.find? fun r => decide (r.off ≤ off) && decide (off < r.off + 4 * r.count)

/-- The fields of the register at an offset of an implemented page (none where no register is). -/
def fieldsAt (page off : Nat) : List Fld :=
  match specAt headerRegs off with
  | some r => r.flds
  | none => match specAt (blockRegs page) off with
    | some r => r.flds
    | none => []

/-- The reset value of a register: its fields' reset values in place. -/
def resetWord (fs : List Fld) : Word := fs.foldl (fun w f => wput w f.hi f.lo f.rst) 0

/-- A register's key: page × 0x1000 + offset, its BAR0 offset (R21). -/
def rk (page off : Nat) : Nat := page * 0x1000 + off

/-- The value an unwritten register holds. -/
def regReset (key : Nat) : Word := resetWord (fieldsAt (key / 0x1000) (key % 0x1000))

/-! Register names: the BAR0 offset of a register of one page, the page offset of a register of several. -/
namespace Reg

def PAGE_CTRL : Nat := 0x00C
def PAGE_STAT : Nat := 0x010
def INT_STAT : Nat := 0x014
def INT_EN : Nat := 0x018
def INT_FORCE : Nat := 0x01C
def ERR_SYND : Nat := 0x020
def ERR_ADDR : Nat := 0x024
def PAGE_LOCK : Nat := 0x028
def PAR_STAT : Nat := 0x02C
def FAULT_CNT : Nat := 0x030
def FAULT_WIN : Nat := 0x034
def FAULT_THR : Nat := 0x038
def QUAY_LINK_STAT : Nat := 0x40
def QUAY_LINK_CTRL : Nat := 0x44
def QUAY_GRP_ROUTE : Nat := 0x48
def QUAY_DMA_OUTST : Nat := 0x4C
def QUAY_LINK_ERR : Nat := 0x50
def QUAY_QSEL : Nat := 0xA040
def QUAY_QCMD : Nat := 0xA044
def QUAY_DOM_SEL : Nat := 0xA048
def QUAY_DOM_RESV : Nat := 0xA04C
def QUAY_DOM_CAP : Nat := 0xA050
def QUAY_DOM_INFL : Nat := 0xA054
def QUAY_CTX_FREE : Nat := 0xA058
def QUAY_RESV_TOTAL : Nat := 0xA05C
def QUAY_WIN_SYNC : Nat := 0xA060
def QUAY_QDATA : Nat := 0xA080
def QUAY_RPL_HITS : Nat := 0xB040
def QUAY_RPL_PARKED : Nat := 0xB044
def QUAY_RPL_ECC : Nat := 0xB048
def RBT_HELD : Nat := 0x10040
def RBT_NEXT_LAUNCH_LO : Nat := 0x10044
def RBT_NEXT_LAUNCH_HI : Nat := 0x10048
def RBT_LATE : Nat := 0x1004C
def RBT_DISPATCHED : Nat := 0x10050
def RBT_ENG_EXCL : Nat := 0x10054
def RBT_ENG_AVAIL : Nat := 0x10058
def RBT_CTX_ECC : Nat := 0x1005C
def LANE_CMP_CNT : Nat := 0x40
def LANE_LAST_CMP : Nat := 0x44
def LANE_OFFLINE_CTRL : Nat := 0x48
def LANE_BLOCKS_LO : Nat := 0x4C
def LANE_BLOCKS_HI : Nat := 0x50
def LANE_STOPS : Nat := 0x54
def LANE_NONCE_CFG : Nat := 0x11100
def LANE_SHARES : Nat := 0x11104
def LANE_RSV_WAIT : Nat := 0x11108
def LANE_RSV_CNT : Nat := 0x1110C
def LANE_CTR_END : Nat := 0x11110
def BLVD_MODES : Nat := 0x19040
def BLVD_CMP_CNT : Nat := 0x19044
def BLVD_OFFLINE_CTRL : Nat := 0x19048
def BLVD_BYTES0_LO : Nat := 0x1904C
def BLVD_BYTES0_HI : Nat := 0x19050
def BLVD_BYTES1_LO : Nat := 0x19054
def BLVD_BYTES1_HI : Nat := 0x19058
def HASH_BUSY : Nat := 0x1A040
def HASH_OFFLINE : Nat := 0x1A044
def HASH_RETEST : Nat := 0x1A048
def HASH_BYTES_LO : Nat := 0x1A04C
def HASH_BYTES_HI : Nat := 0x1A050
def MEWS_SLOT_SEL : Nat := 0x28040
def MEWS_SLOT_ATTR : Nat := 0x28044
def MEWS_ASSIGN_BASE : Nat := 0x28054
def MEWS_ASSIGN_CNT : Nat := 0x28058
def MEWS_ASSIGN_CMD : Nat := 0x2805C
def MEWS_ASSIGN_SKIP : Nat := 0x28060
def MEWS_LIVE : Nat := 0x28064
def MEWS_REVOKES : Nat := 0x28068
def MEWS_CASCADE : Nat := 0x2806C
def MEWS_KT_ECC : Nat := 0x28070
def MEWS_BOOT_GEN : Nat := 0x28074
def LC_STATE : Nat := 0x29040
def LC_SERIAL_LO : Nat := 0x29044
def LC_SERIAL_HI : Nat := 0x29048
def LC_TOTAL : Nat := 0x2904C
def LC_CMD : Nat := 0x29050
def LC_TARGET : Nat := 0x29054
def LC_HANDLE : Nat := 0x29058
def LC_CNT_SEL : Nat := 0x2905C
def LC_CNT : Nat := 0x29060
def LC_AUTH : Nat := 0x29080
def COMP_CTRL : Nat := 0x2A040
def COMP_ACTIVE : Nat := 0x2A044
def COMP_AUTH_FAIL : Nat := 0x2A048
def COMP_DUKPT_RSV : Nat := 0x2A04C
def COMP_DUKPT_END : Nat := 0x2A050
def COMP_DONE : Nat := 0x2A054
def ARC_MODE : Nat := 0x40
def ARC_OPS : Nat := 0x44
def ARC_REJECTS : Nat := 0x48
def ARC_ABORTS : Nat := 0x4C
def ARC_OPMEM_ECC : Nat := 0x50
def ARC_OFFLINE_CTRL : Nat := 0x54
def ARC_LAST : Nat := 0x58
def ARC_CURVE_SEL : Nat := 0x20100
def ARC_CURVE_INFO : Nat := 0x20104
def ARC_CURVE_FREE : Nat := 0x20108
def ARC_CURVE_USED : Nat := 0x2010C
def FNT_CFG : Nat := 0x2C040
def FNT_RCT : Nat := 0x2C044
def FNT_APT : Nat := 0x2C048
def FNT_STAT : Nat := 0x2C04C
def FNT_HEALTH_CNT : Nat := 0x2C050
def FNT_SEEDS : Nat := 0x2C054
def FNT_WAIT : Nat := 0x2C058
def FNT_KAT : Nat := 0x2C05C
def FNT_RAW_DATA : Nat := 0x2C060
def FNT_RAW_CNT : Nat := 0x2C064
def FNT_SW_DATA : Nat := 0x2C068
def CT_TICK_LO : Nat := 0x4040
def CT_TICK_HI : Nat := 0x4044
def CT_EPOCH_LO : Nat := 0x4048
def CT_EPOCH_HI : Nat := 0x404C
def CT_CFG : Nat := 0x4050
def CT_SYNC_CFG : Nat := 0x4054
def CT_SYNC_ERR : Nat := 0x4058
def CT_SLEW : Nat := 0x405C
def CT_STAT : Nat := 0x4060
def CT_LOAD_LO : Nat := 0x4064
def CT_LOAD_HI : Nat := 0x4068
def CT_CMD : Nat := 0x406C
def CT_SYNC_CNT : Nat := 0x4070
def IXM_CTRL : Nat := 0x40
def IXM_STAT : Nat := 0x44
def IXM_START_PC : Nat := 0x48
def IXM_PC : Nat := 0x4C
def IXM_LRAM_ECC : Nat := 0x50
def IXM_IMG_SVN : Nat := 0x54
def IXM_LD_SRC : Nat := 0x30100
def IXM_LD_ADDR_LO : Nat := 0x30104
def IXM_LD_ADDR_HI : Nat := 0x30108
def IXM_LD_CMD : Nat := 0x3010C
def IXM_LD_FLOOR : Nat := 0x30110
def IXM_LD_INFO : Nat := 0x30114
def IXM_INT_STAT : Nat := 0x200
def IXM_INT_PRI : Nat := 0x204
def IXM_SWI_PEND : Nat := 0x214
def IXM_SWI_RAISE : Nat := 0x218
def IXM_FAULT_PC : Nat := 0x21C
def IXM_FAULT_CAUSE : Nat := 0x220
def IXM_EXC_CNT : Nat := 0x224
def SV_CFG : Nat := 0x300
def SV_CNT : Nat := 0x320
def SV_OVF : Nat := 0x340
def SV_SMP_CTRL : Nat := 0x344
def SV_SMP_STAT : Nat := 0x348
def SV_SMP_BUF : Nat := 0x400
def CHECKPOINT_CTRL : Nat := 0x40040
def CHECKPOINT_RSEL : Nat := 0x40044
def CHECKPOINT_RCMD : Nat := 0x40048
def CHECKPOINT_SYNC : Nat := 0x4004C
def CHECKPOINT_REFUSED : Nat := 0x40050
def CHECKPOINT_SRAM_ECC : Nat := 0x40054
def CHECKPOINT_RDATA : Nat := 0x40060
def CHECKPOINT_MDOM : Nat := 0x40080
def CHECKPOINT_HOST_DENY : Nat := 0x400E0
def KERB_STAT : Nat := 0x44040
def KERB_LASTING : Nat := 0x44044
def KERB_PRESENT : Nat := 0x44048
def KERB_SRC_CLR : Nat := 0x4404C
def KERB_INJECT : Nat := 0x44050
def KERB_EXT_CFG : Nat := 0x44054
def KERB_TEMP_LIM : Nat := 0x44058
def KERB_TEMP : Nat := 0x4405C
def KERB_VBAT : Nat := 0x44060
def KERB_BTIME_LO : Nat := 0x44064
def KERB_BTIME_HI : Nat := 0x44068
def KERB_SRC_CFG : Nat := 0x44080
def KERB_SRC_WIN : Nat := 0x440C0
def KERB_SRC_CNT : Nat := 0x44100
def KERB_ACK : Nat := 0x45040
def KERB_LAST_SRC : Nat := 0x45044
def KERB_LAST_ACT : Nat := 0x45048
def KERB_RESP : Nat := 0x45080
def KERB_RESP_EFF : Nat := 0x450C0
def KERB_LOG_NEXT : Nat := 0x46040
def KERB_LOG_SEL : Nat := 0x46044
def KERB_LOG_DROP : Nat := 0x46048
def KERB_BLOG_STAT : Nat := 0x4604C
def KERB_BLOG_SEL : Nat := 0x46050
def KERB_BLOG_CLR : Nat := 0x46054
def KERB_LOG_DATA : Nat := 0x46080
def KERB_BLOG_DATA : Nat := 0x460A0
def XING_CTRL : Nat := 0x48040
def XING_STAT : Nat := 0x48044
def XING_CMD : Nat := 0x48048
def XING_RTT : Nat := 0x4804C
def XING_PEER_SERIAL_LO : Nat := 0x48050
def XING_PEER_SERIAL_HI : Nat := 0x48054
def XING_PAIR_CNT : Nat := 0x48058
def XING_LINK_ERR : Nat := 0x4805C
def XING_QSEL : Nat := 0x48060
def XING_QROLE : Nat := 0x48064
def XING_EPUB : Nat := 0x48080
def XING_AUTH : Nat := 0x48100
def FLEET_STAT : Nat := 0x49040
def FLEET_CMD : Nat := 0x49044
def FLEET_HANDLE : Nat := 0x49048
def FLEET_ID_LO : Nat := 0x4904C
def FLEET_ID_HI : Nat := 0x49050
def FLEET_WARDS : Nat := 0x49054
def FLEET_WARD_SEL : Nat := 0x49058
def FLEET_WARD_SEQ : Nat := 0x4905C
def FLEET_BUF : Nat := 0x49400
def DEPOT_CFG : Nat := 0x4C040
def DEPOT_STAT : Nat := 0x4C044
def DEPOT_CAP : Nat := 0x4C048
def DEPOT_LBA : Nat := 0x4C04C
def DEPOT_XFER : Nat := 0x4C050
def DEPOT_BUF : Nat := 0x4C054
def DEPOT_JBASE : Nat := 0x4C058
def DEPOT_CMD : Nat := 0x4C05C
def DEPOT_DONE : Nat := 0x4C060
def DEPOT_RAW : Nat := 0x4C064
def DEPOT_ARG : Nat := 0x4C068
def DEPOT_RESP : Nat := 0x4C06C
def DEPOT_ERR : Nat := 0x4C07C
def PB_CFG : Nat := 0x4D040
def PB_CFG_1 : Nat := 0x4D080
def PB_CLK : Nat := 0x4D044
def PB_CLK_1 : Nat := 0x4D084
def PB_STAT : Nat := 0x4D048
def PB_STAT_1 : Nat := 0x4D088
def PB_CMD : Nat := 0x4D04C
def PB_CMD_1 : Nat := 0x4D08C
def PB_LEN : Nat := 0x4D050
def PB_LEN_1 : Nat := 0x4D090
def PB_ERR : Nat := 0x4D054
def PB_ERR_1 : Nat := 0x4D094
def PB_BUF : Nat := 0x4D400
def KIOSK_MODE : Nat := 0x4E040
def KIOSK_STAT : Nat := 0x4E044
def KIOSK_RD_CFG : Nat := 0x4E048
def KIOSK_RD_CMD : Nat := 0x4E04C
def KIOSK_RD_LEN : Nat := 0x4E050
def KIOSK_LPCD_CFG : Nat := 0x4E054
def KIOSK_LPCD_REF : Nat := 0x4E058
def KIOSK_TAG_CFG : Nat := 0x4E05C
def KIOSK_UID_LO : Nat := 0x4E060
def KIOSK_UID_HI : Nat := 0x4E064
def KIOSK_PLC_CMD : Nat := 0x4E068
def KIOSK_MBX_CTRL : Nat := 0x4E06C
def KIOSK_MBX_LAST : Nat := 0x4E070
def KIOSK_HARV_CTRL : Nat := 0x4E074
def KIOSK_HARV_STAT : Nat := 0x4E078
def KIOSK_BUF : Nat := 0x4E400
def CLK_STAT : Nat := 0x1040
def PWR_STAT : Nat := 0x2040
def PWR_REQ : Nat := 0x2044
def PWR_BUSY : Nat := 0x2048
def PWR_KEEP : Nat := 0x204C
def RST_CAUSE : Nat := 0x3040
def RST_CTRL : Nat := 0x3044
def BOOT_STAT : Nat := 0x3048
def BOOT_CFG : Nat := 0x304C
def BOOT_LBA : Nat := 0x3050
def BOOT_TIME : Nat := 0x3054

end Reg

end Sys2Proof.Machine
end

