-- ==== Sys2Proof/Machine/Ops.lean ====
section
/-! DEFINITION. The named operations every family shares: registers, free values, interrupts and MSI-X, error records,
page faults, memory. -/
namespace Sys2Proof.Machine
open Sys2Proof

/-! ## The outcome of a command and the trace -/

/-- A command's outcome: always a next state, since the manual gives every command an effect. -/
abbrev Res := Host.Outcome State Fault Refusal

/-- The state with one more thing sent. -/
def emit (s : State) (o : Out) : State := { s with out := o :: s.out }

/-! ## Free values -/

/-- A fresh free number and the state that has drawn it. -/
def freshNat (s : State) : Nat × State := ((Config.freeWord s.free).toNat, { s with free := s.free + 1 })

/-- n fresh free bytes and the state that has drawn them. -/
def freshBytes (n : Nat) (s : State) : Bytes × State :=
  ((List.range n).map (Config.freeByte s.free), { s with free := s.free + 1 })

/-! ## Registers -/

/-- The stored value of the register at a BAR0 offset. -/
def reg (s : State) (k : Nat) : Word := (tfind s.regs k).getD (regReset k)

/-- The state with a stored register set; its parity is regenerated (R39, R40). -/
def setReg (s : State) (k : Nat) (w : Word) : State :=
  { s with
    regs := if w = regReset k then tdel s.regs k else tput s.regs k w
    parBad := tdel s.parBad k }

/-- Field [hi:lo] of a stored register. -/
def fld (s : State) (k hi lo : Nat) : Nat := wbits (reg s k) hi lo

/-- Bit n of a stored register. -/
def rbit (s : State) (k n : Nat) : Bool := wbit (reg s k) n

/-- The state with field [hi:lo] of a register set. -/
def setFld (s : State) (k hi lo v : Nat) : State := setReg s k (wput (reg s k) hi lo v)

/-- The state with a saturating count field advanced by n. -/
def bump (s : State) (k hi lo n : Nat) : State :=
  setFld s k hi lo (satAdd (2 ^ (hi + 1 - lo) - 1) (fld s k hi lo) n)

/-! ## Pages, domains and links -/

/-- The pages of the page index (R41). -/
def implemented (p : Nat) : Bool :=
  p ≤ 4 || (0x08 ≤ p && p ≤ 0x0B) || (0x10 ≤ p && p ≤ 0x1A) || (0x20 ≤ p && p ≤ 0x2A) || p == 0x2C
    || (0x30 ≤ p && p ≤ 0x3F) || p == 0x40 || (0x44 ≤ p && p ≤ 0x46) || p == 0x48 || p == 0x49
    || (0x4C ≤ p && p ≤ 0x4E)

/-- The power domain a page's registers are powered from (R18), by its bit in R512. -/
def pageDom (p : Nat) : Nat :=
  if p < 0x08 then 0
  else if p ≤ 0x0B then 13
  else if p = 0x10 then 0
  else if p ≤ 0x18 then p - 0x10
  else if p = 0x19 then 9
  else if p = 0x1A then 0
  else if p ≤ 0x23 then 10
  else if p ≤ 0x27 then 11
  else if p ≤ 0x29 then 12
  else if p = 0x2A then 0
  else if p = 0x2C then 12
  else if p ≤ 0x3F then 16
  else if p = 0x40 then 0
  else if p ≤ 0x46 then 19
  else if p = 0x48 then 17
  else if p = 0x49 then 12
  else if p ≤ 0x4D then 23
  else 22

/-- BOOT_STAT.STAGE. -/
def bootStage (s : State) : Nat := fld s Reg.BOOT_STAT 7 0

/-- A power domain is on: PWR_STAT (R529), main power for every domain but PD_BACKUP, and for a Hub domain a boot sequence that
has switched it on (R525). -/
def domOn (s : State) (d : Nat) : Bool :=
  rbit s Reg.PWR_STAT d && (s.mainOn || d == 20) && (decide (19 ≤ d) || decide (2 ≤ bootStage s))

/-- A power domain is on and not switching off, nor held on only until its power has gone (R514, R516, R120). -/
def domUsable (s : State) (d : Nat) : Bool := domOn s d && rbit s Reg.PWR_REQ d && !rbit s Reg.PWR_BUSY d

/-- A page is implemented and powered (R25). -/
def pageOn (s : State) (p : Nat) : Bool := implemented p && domOn s (pageDom p)

/-- A port's data link layer is up (QUAY_LINK_STAT.DL_UP). -/
def linkUp (s : State) (p : Nat) : Bool := rbit s (rk (8 + p) Reg.QUAY_LINK_STAT) 10

/-- The port of a function (R44). -/
def fnPort (fn : Nat) : Nat := fn / 128

/-- A function exists (R44). -/
def fnExists (s : State) (fn : Nat) : Bool :=
  fn % 128 == 0 || fn % 128 ≤ (if fn < 128 then s.quay.vf0 else s.quay.vf1)

/-- The MASTER code of an access (ERR_SYND). -/
def masterOf : Src → Nat
  | .port p => p.val
  | .core c => 0x10 + c.val
  | .bar2 f => fnPort f.val
  | .bar4 f => fnPort f.val

/-! ## Host memory -/

/-- The PCIe control bits of a function. -/
def pcieOf (s : State) (fn : Nat) : FnPcie := tget {} s.quay.pcie fn

/-- A memory read request, and a memory write request, leave through the function's port; nothing leaves while its link is down
(R547). -/
def hostRead (s : State) (fn addr len : Nat) : State :=
  if linkUp s (fnPort fn) then emit s (.hostRead fn addr len) else s
def hostWrite (s : State) (fn addr : Nat) (b : Bytes) (ro : Bool) : State :=
  if linkUp s (fnPort fn) then emit s (.hostWrite fn addr b ro) else s

/-! ## MSI-X and interrupt groups (R79 to R81, R546, R547) -/

/-- The MSI-X entry e of function fn. -/
def msixAt (s : State) (fn e : Nat) : Msix := tget {} s.quay.msix (2048 * fn + e)

/-- The state with that entry set. -/
def setMsix (s : State) (fn e : Nat) (m : Msix) : State :=
  { s with quay := { s.quay with msix := tset {} s.quay.msix (2048 * fn + e) m } }

/-- A message of entry e may leave: enabled, and masked neither by the function nor by the entry. -/
def msixOpen (s : State) (fn e : Nat) : Bool :=
  s.quay.msixEn.contains fn && !s.quay.msixMask.contains fn && !(msixAt s fn e).mask

/-- A message is due from entry e of fn: sent, or held in the Pending Bit while masked (R80, R81); nothing is generated
while the port's link is down (R547). DESIGN CHOICE: while MSI-X Enable is 0 a due message is held in the Pending Bit too, and sent
once Enable is set; the manual speaks of masking only. -/
def sendMsix (s : State) (fn e : Nat) : State :=
  if !linkUp s (fnPort fn) then s
  else
    let m := msixAt s fn e
    if msixOpen s fn e then
      emit (setMsix s fn e { m with pend := false })
        (.msix fn e (m.addrLo.toNat + 2 ^ 32 * m.addrHi.toNat) m.data)
    else setMsix s fn e { m with pend := true }

/-- The interrupt group of a page (R41). -/
def groupOf (p : Nat) : Nat :=
  if p ≤ 3 then 0 else if p = 4 then 1 else if p ≤ 0x0B then 2 else if p = 0x10 then 3 else if p ≤ 0x1A then 4
  else if p ≤ 0x27 then 5 else if p ≤ 0x29 then 6 else if p = 0x2A then 3 else if p = 0x2C then 7
  else if p ≤ 0x3F then 8 else if p = 0x40 then 9 else if p ≤ 0x46 then 10 else if p ≤ 0x49 then 11 else 12

/-- The pages of an interrupt group. -/
def groupPages (g : Nat) : List Nat :=
  (List.range 0x50).filter fun p => implemented p && groupOf p == g

/-- A page asserts its interrupt (R31). -/
def pageInt (s : State) (p : Nat) : Bool :=
  pageOn s p && (reg s (rk p Reg.INT_STAT) &&& reg s (rk p Reg.INT_EN)) != 0

/-- An interrupt group is asserted (R80). -/
def groupOn (s : State) (g : Nat) : Bool := (groupPages g).any (pageInt s)

/-- One message through each entry that routes the group (R80). -/
def groupMessage (s : State) (g : Nat) : State :=
  let s := if rbit s (rk 8 Reg.QUAY_GRP_ROUTE) g then sendMsix s 0 g else s
  if rbit s (rk 9 Reg.QUAY_GRP_ROUTE) g then sendMsix s 128 g else s

/-- Block events of a page: INT_STAT bits set, and a message when the group rises (R30, R31, R80). -/
def raiseInt (s : State) (p mask : Nat) : State :=
  if !pageOn s p then s
  else
    let s' := setReg s (rk p Reg.INT_STAT) (reg s (rk p Reg.INT_STAT) ||| BitVec.ofNat 32 mask)
    if !groupOn s (groupOf p) && groupOn s' (groupOf p) then groupMessage s' (groupOf p) else s'

/-- After a write of INT_STAT or INT_EN the group, if still asserted or newly so, sends one message (R80). -/
def intWritten (s : State) (p : Nat) : State :=
  if groupOn s (groupOf p) then groupMessage s (groupOf p) else s

/-! ## Error records and page faults (R30 to R35) -/

/-- Record an error in a page's ERR_SYND and ERR_ADDR (R32). -/
def errSynd (s : State) (p code master info addr : Nat) : State :=
  if !pageOn s p then s
  else if rbit s (rk p Reg.ERR_SYND) 23 then setFld s (rk p Reg.ERR_SYND) 22 22 1
  else
    let s := setReg s (rk p Reg.ERR_SYND)
      (BitVec.ofNat 32 (code % 256 * 2 ^ 24 + 2 ^ 23 + master % 64 * 2 ^ 16 + info % 65536))
    let s := setReg s (rk p Reg.ERR_ADDR) (BitVec.ofNat 32 addr)
    raiseInt s p (2 ^ 29)

/-- A report leaves for the Kerb (R422). -/
def kreport (s : State) (r : KReport) : State :=
  { s with kerb := { s.kerb with reports := s.kerb.reports ++ [r] } }

/-- The Fountain enters FAILED: both instances and the conditioner zeroised, service stopped, the Kerb told (R286). -/
def fountainFail (s : State) : State :=
  let dead := (s.fnt.rng ++ s.fnt.rngDone).filterMap fun r => match r with
    | .cmd c => some c
    | .read _ => none
  let s := { s with fnt := { s.fnt with
    state := 5, int := {}, sw := {}, absorbed := [], credit := 0, seed := [], katBusy := false
    part := [], rngDead := s.fnt.rngDead ++ dead } }
  kreport (raiseInt s 0x2C 4) { src := 9, info := 0x2C, lasting := true }

/-- One fault of a page's class (R34): counted, a window started, LASTING at the threshold, and reported, marked as a lasting report when
the page becomes lasting by it (R420). -/
def countFault (s : State) (p : Nat) : State :=
  if !pageOn s p then s
  else
    let cnt := fld s (rk p Reg.FAULT_CNT) 15 0
    let s1 := bump s (rk p Reg.FAULT_CNT) 15 0 1
    let s2 := kreport s1 { src := 10, info := p }
    if rbit s (rk p Reg.PAGE_STAT) 31 then s2
    else if max 1 (fld s (rk p Reg.FAULT_THR) 15 0) ≤ cnt + 1 then
      let s3 := { setFld s1 (rk p Reg.PAGE_STAT) 31 31 1 with wins := s1.wins.filter fun q => q != p }
      let s4 := kreport (raiseInt s3 p (2 ^ 31)) { src := 10, info := p, lasting := true }
      if p = 0x2C then fountainFail s4 else s4
    else if cnt = 0 && !s2.wins.contains p then { s2 with wins := p :: s2.wins }
    else s2

/-! ## The ready state (R526) and internal memory -/

/-- Boot has reached READY (BOOT_STAT.READY). -/
def bootReady (s : State) : Bool := rbit s Reg.BOOT_STAT 31

/-- The core of the device as the boot, the Kerb and the queue machinery see it: lockdown stops admission (R428). -/
def admitting (s : State) : Bool := bootReady s && !s.kerb.lockdown

end Sys2Proof.Machine
end

