-- ==== Sys2Proof/Machine/Complete.lean ====
section
/-! DEFINITION. Queues, windows and rings; contexts and their release; the completion of a command; freeing its units;
and what a stop does to a command in flight (chapters 2 and 3, R149, R195). -/
namespace Sys2Proof.Machine
open Sys2Proof

/-! ## The queue record (R85) -/

/-- Word n of a queue's record. -/
def qw (q : Queue) (n : Nat) : Word := tget 0 q.rec' n
def qFunc (q : Queue) : Nat := wbits (qw q 0) 7 0
def qDomain (q : Queue) : Nat := wbits (qw q 0) 19 8
def qSqLog (q : Queue) : Nat := wbits (qw q 0) 24 20
def qCqLog (q : Queue) : Nat := wbits (qw q 0) 29 25
/-- MAX_INFLIGHT: 0 acts as 1, values above 65,536 as 65,536. -/
def qMaxInfl (q : Queue) : Nat := min 65536 (max 1 (wbits (qw q 1) 16 0))
/-- BURST: 0 acts as 64. -/
def qBurst (q : Queue) : Nat := if wbits (qw q 2) 5 0 = 0 then 64 else wbits (qw q 2) 5 0
def qVector (q : Queue) : Nat := wbits (qw q 2) 26 16
/-- COAL_CNT: 0 acts as 1 (R81). -/
def qCoalCnt (q : Queue) : Nat := max 1 (wbits (qw q 3) 7 0)
def qCoalTime (q : Queue) : Nat := wbits (qw q 3) 17 8
def qHwbEn (q : Queue) : Bool := wbit (qw q 3) 31
/-- A 64-bit address from two record words. -/
def qAddr (q : Queue) (n : Nat) : Nat := (qw q n).toNat + 2 ^ 32 * (qw q (n + 1)).toNat
def qSqBase (q : Queue) : Nat := qAddr q 4
def qCqBase (q : Queue) : Nat := qAddr q 6
def qHwbAddr (q : Queue) : Nat := qAddr q 8
def sqSize (q : Queue) : Nat := 2 ^ qSqLog q
def cqSize (q : Queue) : Nat := 2 ^ qCqLog q

/-- READ and WRITE permission of window n, its first byte and its last byte (R58). -/
def winRead (q : Queue) (n : Nat) : Bool := wbit (qw q (10 + 4 * n)) 0
def winWrite (q : Queue) (n : Nat) : Bool := wbit (qw q (10 + 4 * n)) 1
def winBase (q : Queue) (n : Nat) : Nat :=
  (wbits (qw q (10 + 4 * n)) 31 12) * 4096 + 2 ^ 32 * (qw q (11 + 4 * n)).toNat
def winLimit (q : Queue) (n : Nat) : Nat :=
  (wbits (qw q (12 + 4 * n)) 31 12) * 4096 + 2 ^ 32 * (qw q (13 + 4 * n)).toNat

/-- One window with the needed permission covers the whole access; an access of no bytes always passes (R59). -/
def covered (q : Queue) (write : Bool) (addr len : Nat) : Bool :=
  len == 0 || [0, 1, 2, 3].any fun n =>
    (if write then winWrite q n else winRead q n) && decide (winBase q n ≤ addr)
      && decide (addr + len ≤ winLimit q n + 4096)

/-- Queue q, and the state with it set. -/
def queueAt (s : State) (q : Nat) : Queue := tget {} s.quay.queues q
def setQueue (s : State) (q : Nat) (v : Queue) : State :=
  { s with quay := { s.quay with queues := tset {} s.quay.queues q v } }

/-! ## Contexts and domains (R63, R64) -/

/-- The command in context c, if one is there. -/
def ctxAt (s : State) (c : Nat) : Option Ctx := tfind s.quay.ctxs c
/-- The state with context c holding x. -/
def setCtx (s : State) (c : Nat) (x : Ctx) : State :=
  { s with quay := { s.quay with ctxs := tput s.quay.ctxs c x } }

/-- Commands of a queue admitted and not yet completed (QINFL.COUNT, R48, R63). -/
def qInfl (s : State) (q : Nat) : Nat := (s.quay.ctxs.filter fun e => e.2.q == q).length
/-- Contexts a domain holds (QUAY_DOM_INFL). -/
def domHeld (s : State) (d : Nat) : Nat := (s.quay.ctxs.filter fun e => e.2.dom == d).length
def domAt (s : State) (d : Nat) : Dom := tget {} s.quay.doms d
def setDom (s : State) (d : Nat) (v : Dom) : State :=
  { s with quay := { s.quay with doms := tset {} s.quay.doms d v } }
/-- Contexts no command holds (QUAY_CTX_FREE). -/
def ctxFree (s : State) : Nat := 65536 - s.quay.ctxs.length
/-- Free contexts set aside for reservations, and free contexts of the shared pool. -/
def ownTotal (s : State) : Nat := (s.quay.doms.map fun e => e.2.own).sum
def poolFree (s : State) : Nat := ctxFree s - ownTotal s
/-- The sum of all reservations (QUAY_RESV_TOTAL). -/
def resvTotal (s : State) : Nat := (s.quay.doms.map fun e => e.2.resv).sum

/-- A domain whose reservation is not yet covered by what it holds and what stands ready for it (R64). -/
def uncovered (s : State) (e : Nat × Dom) : Bool := decide (domHeld s e.1 + e.2.own < e.2.resv)

/-- Give n free contexts of the pool, one at a time, to reservations not yet covered, round-robin in ascending domain
number from the one after the last served (R64). DESIGN CHOICE: before any domain has received one, the round starts after
domain 0; the manual says where a round goes on, not where the first begins. -/
def redistribute : Nat → State → State
  | 0, s => s
  | n + 1, s =>
    if poolFree s = 0 then s
    else
      let l := s.quay.doms.filter (uncovered s)
      match (l.filter fun e => decide (s.quay.domRR < e.1)).head? <|> l.head? with
      | none => s
      | some (d, v) =>
        let s := setDom s d { v with own := v.own + 1 }
        redistribute n { s with quay := { s.quay with domRR := d } }

/-- Context c is released: back to its own domain's reservation if it was held within it, otherwise to the reservations not yet
covered or to the pool (R64). -/
def releaseCtx (s : State) (c dom : Nat) : State :=
  let inResv := decide (domHeld s dom ≤ (domAt s dom).resv)
  let s := { s with quay := { s.quay with ctxs := tdel s.quay.ctxs c } }
  if inResv then setDom s dom { domAt s dom with own := (domAt s dom).own + 1 }
  else redistribute 1 s

/-! ## Units -/

def cunit (s : State) (u : Nat) : CUnit := tget {} s.units.cipher u
def setCunit (s : State) (u : Nat) (v : CUnit) : State :=
  { s with units := { s.units with cipher := tset {} s.units.cipher u v } }
def hunit (s : State) (u : Nat) : HUnit := tget {} s.units.hash u
def setHunit (s : State) (u : Nat) (v : HUnit) : State :=
  { s with units := { s.units with hash := tset {} s.units.hash u v } }
def aunit (s : State) (u : Nat) : AUnit := tget {} s.units.arc u
def setAunit (s : State) (u : Nat) (v : AUnit) : State :=
  { s with units := { s.units with arc := tset {} s.units.arc u v } }

/-- Region capacities of the operand memory: key, modulus, input, result, work and blinding (R251). -/
def keyCap : Nat := 0x1000
def modulusCap : Nat := 0x800
def inputCap : Nat := 0x4000
def resultCap : Nat := 0x2800
def workCap : Nat := 0x6000
def blindingCap : Nat := 0x2000

/-- The page of a lane or pipeline, its index there, and its power domain. -/
def cunitPage (u : Nat) : Nat := if u < 64 then 0x11 + u / 8 else 0x19
def cunitBit (u : Nat) : Nat := if u < 64 then u % 8 else u - 64
def cunitDom (u : Nat) : Nat := if u < 64 then 1 + u / 8 else 9
def aunitDom (n : Nat) : Nat := if n < 4 then 10 else 11

/-- Shares held by lanes, and shares not held (R157, LANE_SHARES). -/
def laneShares (s : State) : Nat :=
  (s.units.cipher.filter fun e => decide (e.1 < 64) && e.2.ctx.isSome).length
def sharesFree (s : State) : Nat := 64 - laneShares s - (cunit s 64).shares - (cunit s 65).shares

/-- The FORCE_OFF bit of a lane or pipeline (R148). -/
def forceOff (s : State) (u : Nat) : Bool :=
  if u < 64 then rbit s (rk (cunitPage u) Reg.LANE_OFFLINE_CTRL) (cunitBit u)
  else rbit s Reg.BLVD_OFFLINE_CTRL (cunitBit u)

/-- A pair zeroises both cores: schedules, counter, IV and chaining state, and the composite stores (R124, R213). -/
def cleared (v : CUnit) : CUnit := { v with key := [], prim := {}, chk := {} }

/-- A lane or pipeline becomes idle: it keeps its schedules unless they were revoked meanwhile, it goes offline under FORCE_OFF or
a pending RETEST starts its test (R124, R148); the composite store never outlives its command (R213). -/
def cunitIdle (s : State) (u : Nat) : State :=
  let v := cunit s u
  let v := { v with
    ctx := none, shares := 0, forced := forceOff s u
    prim := { v.prim with store := [] }, chk := { v.chk with store := [] } }
  setCunit s u (if v.retest then { cleared v with retest := false, kat := true }
    else if v.forced || v.key.isEmpty then cleared v else v)

/-- A hash unit becomes idle: it keeps no key. -/
def hunitIdle (s : State) (u : Nat) : State :=
  let v := { hunit s u with ctx := none, key := [] }
  setHunit s u (if v.retest then { v with retest := false, kat := true } else v)

def aunitIdle (s : State) (u : Nat) : State :=
  let v := { aunit s u with ctx := none, zero := false,
                            forced := rbit s (rk (0x20 + u) Reg.ARC_OFFLINE_CTRL) 0 }
  let s := setFld s (rk (0x20 + u) Reg.ARC_MODE) 14 12 0
  setAunit s u (if v.retest then { v with retest := false, kat := true } else v)

/-- Released convoy commands that wait for a cipher share: those of the lane, Boulevard and composite classes that have taken no
unit yet (R157). -/
def convoyWaits (s : State) : Nat :=
  (s.quay.ctxs.filter fun e => e.2.convoy && decide (e.2.phase = .ready) && !(s.units.cipher.any fun u => u.2.ctx == some e.1)
    && (decide (0x10 ≤ e.2.d.opcode ∧ e.2.d.opcode ≤ 0x15) || decide (0x60 ≤ e.2.d.opcode))).length

/-- Free shares go first to waiting convoy commands, one each (taken at their dispatch), then to running pipelines holding fewer
than 8 (R157). -/
def shareOut (s : State) : State :=
  let top (u : Nat) (s : State) : State :=
    let v := cunit s u
    if v.ctx.isSome then setCunit s u { v with shares := min 8 (v.shares + (sharesFree s - convoyWaits s)) } else s
  top 65 (top 64 s)

/-- A unit is freed by its command's end. -/
def freeUnit (s : State) : Engine → State
  | .cipher u => shareOut (cunitIdle s u.val)
  | .hash u => hunitIdle s u.val
  | .arcade u => aunitIdle s u.val
  | .composite _ => s

/-! ## The completion (R104 to R107, R66 to R68, R53 to R57, R81) -/

/-- The 28 bytes before the status word (R105). -/
def finBody (f : CmdEnd) : Bytes :=
  match f.formA with
  | some (tag, nonce) => fit 16 tag ++ fit 12 nonce
  | none => toLe 8 (f.bytesDone % 2 ^ 40) ++ fit 16 f.result ++ toLe 4 f.aux

/-- The status word (R104). -/
def statusWord (status detail tag : Nat) (phase : Bool) : Nat :=
  status % 256 + detail % 256 * 2 ^ 8 + tag % 2 ^ 15 * 2 ^ 16 + b2n phase * 2 ^ 31

/-- A 32-byte completion. -/
def cplBytes (body : Bytes) (status detail tag : Nat) (phase : Bool) : Bytes :=
  body ++ toLe 4 (statusWord status detail tag phase)

/-- The newest n elements of a list that grows at its end. -/
def keepLast {α : Type} (n : Nat) (l : List α) : List α := l.drop (l.length - n)

/-- A completion enters the queue's replay window, evicting the oldest of 64 (R66); the storage it is written to is whole again
(R72). -/
def storeReplay (s : State) (q tag : Nat) (cpl : Bytes) : State :=
  let v := queueAt s q
  setQueue s q { v with win := keepLast 64 (v.win ++ [{ tag, cpl }]), badFree := v.badFree.filter fun i => i != v.win.length }

/-- A window that loses its contents (R71): the storage of a damaged entry stays damaged until an entry is written there (R72). -/
def noReplay (v : Queue) : Queue :=
  { v with win := [], badFree := v.badFree ++ (v.win.zipIdx.filter fun e => e.1.bad).map (·.2) }

/-- Count a completion written and send the queue's message when COAL_CNT is reached (R81). -/
def coalesce (s : State) (q : Nat) : State :=
  let v := queueAt s q
  if qCoalCnt v ≤ v.coalCnt + 1 then
    sendMsix (setQueue s q { v with coalCnt := 0, coalTimer := false }) (qFunc v) (qVector v)
  else setQueue s q { v with coalCnt := v.coalCnt + 1, coalTimer := true }

/-- Deliver a completion of queue q: to its next CQ entry and the replay window, or to the window alone when the command
ends silently (R78) or the entry's access is rejected (R60). REPLAYED completions never enter the window (R66). -/
def deliver (s : State) (q tag : Nat) (body bodyS : Bytes) (status detail : Nat) (silent : Bool) : State :=
  let v := queueAt s q
  let s := if status = 0x0D then bump s Reg.QUAY_RPL_HITS 31 0 1 else s
  let keep (s : State) (b : Bytes) (st dt : Nat) : State :=
    if status = 0x0D then s else storeReplay s q tag (cplBytes b st dt tag v.phase)
  if silent then keep s body status detail
  else if !covered v true (qCqBase v + 32 * v.cqTail) 32 then
    let s := keep s bodyS 0x04 0x06
    errSynd (countFault s 0x0A) 0x0A 0x14 0x20 q (qCqBase v + 32 * v.cqTail)
  else
    let cpl := cplBytes body status detail tag v.phase
    let s := hostWrite s (qFunc v) (qCqBase v + 32 * v.cqTail) cpl false
    let last := decide (v.cqTail + 1 = cqSize v)
    let s := setQueue s q { v with cqTail := if last then 0 else v.cqTail + 1
                                   phase := if last then !v.phase else v.phase }
    coalesce (keep s body status detail) q

/-- A DRAINING queue with nothing in flight becomes DISABLED (R76). -/
def drained (s : State) (q : Nat) : State :=
  let v := queueAt s q
  if v.state = .draining && qInfl s q = 0 then
    raiseInt (setQueue s q { v with state := .disabled }) 0x0A 2
  else s

/-- Commands parked behind context c, oldest first. -/
def parkedOn (s : State) (c : Nat) : List (Nat × Ctx) := s.quay.ctxs.filter fun e => decide (e.2.phase = .parked c)

/-- The commands parked behind a completed command receive its completion as REPLAYED (R68). -/
def unpark (s : State) (body : Bytes) (status : Nat) : List (Nat × Ctx) → State
  | [] => s
  | (c, x) :: l =>
    let s := deliver s x.q x.d.tag body body 0x0D status x.silent
    unpark (drained (releaseCtx s c x.dom) x.q) body status l

/-- Counts a composite command's end keeps (COMP_DONE, COMP_AUTH_FAIL, R248). -/
def compCounts (s : State) (op : Nat) (f : CmdEnd) : State :=
  if op < 0x60 || 0x6A < op then s
  else
    let s := bump s Reg.COMP_DONE 31 0 1
    if f.status = 0x05 && f.detail = 0x20 then
      let s := raiseInt (bump s Reg.COMP_AUTH_FAIL 31 16 1) 0x2A 4
      if rbit s Reg.COMP_CTRL 1 then countFault s 0x2A else s
    else if f.status = 0x05 && (f.detail = 0x21 || f.detail = 0x22) then bump s Reg.COMP_AUTH_FAIL 15 0 1
    else s

/-- Drop a context's draws and turns at the Fountain (R292, R551). -/
def fntForget (s : State) (c : Nat) : State :=
  { s with fnt := { s.fnt with
      draws := s.fnt.draws.filter fun e => e.2 != c
      part := if (s.fnt.draws.head?).any (fun e => e.2 == c) then [] else s.fnt.part
      got := tdel s.fnt.got c
      rng := s.fnt.rng.filter fun j => j != .cmd c
      rngDone := s.fnt.rngDone.filter fun j => j != .cmd c
      rngDead := s.fnt.rngDead.filter fun j => j != c } }

/-- A command ends: its completion is delivered, its units are freed, its context is released, the commands parked behind it
are served, and a draining queue may become DISABLED. The share that was kept for a convoy command which ends undispatched goes on
to a running pipeline (R157). -/
def endNow (s : State) (c : Nat) (f : CmdEnd) : State :=
  match ctxAt s c with
  | none => s
  | some x =>
    let body := finBody f
    let bodyS := finBody { f with formA := none }
    let park := parkedOn s c
    let s := compCounts s x.d.opcode f
    let s := deliver s x.q x.d.tag body bodyS f.status f.detail x.silent
    let s := (x.eng.toList ++ x.resv).foldl freeUnit s
    let s := releaseCtx (fntForget s c) c x.dom
    let s := drained s x.q
    let s := if x.convoy && decide (x.phase = .ready) then shareOut s else s
    unpark s body f.status park

/-- The device is PAIRED (XING_STAT.STATE 3). -/
def paired (s : State) : Bool := s.xing.state == 3
/-- The sequencer copies its tables to the joiner (R452). -/
def copies (s : State) : Bool := s.xing.state == 2 && s.xing.seqr

/-- A frame's header. DESIGN CHOICE: its 16 bytes hold the frame's kind, the number of the frame within its body, and the payload's
length; the manual gives its size only. -/
def frameHeader (kind : Nat) (piece : Bytes × Nat) : Bytes := toLe 1 kind ++ toLe 3 piece.2 ++ toLe 4 piece.1.length ++ fill 8 0

/-- A frame of at most 512 payload bytes and at least 16 (R443) under a session key, a direction and a frame counter: AES-256-GCM with
the header as additional data and the direction and the counter as IV (R444); its payload and its tag. -/
def sealFrame (key : Bytes) (dirB : Bool) (ctr kind : Nat) (piece : Bytes × Nat) : Bytes × Bytes :=
  let p := fit (max 16 piece.1.length) piece.1
  let header := frameHeader kind piece
  let b := chainBeat 4 false key p (chainStart 4 key (toBe 4 (b2n dirB) ++ toBe 8 ctr) header p.length)
  (b.1, chainTag 4 key b.2 header.length p.length)

/-- The frames a body needs, numbered. -/
def framesOf (body : Bytes) : List (Bytes × Nat) := (if body.isEmpty then [[]] else pieces 512 body).zipIdx

/-- One frame leaves under the session's next frame counter. -/
def sendPiece (kind : Nat) (s : State) (piece : Bytes × Nat) : State :=
  match s.xing.sess with
  | none => s
  | some e =>
    let b := sealFrame e.keyOut s.fer.pairB e.tx kind piece
    emit { s with xing := { s.xing with sess := some { e with tx := e.tx + 1 } } } (.xing (frameHeader kind piece) b.1 b.2)

/-- A frame body leaves, in as many frames as it needs. -/
def sendFrame (s : State) (kind : Nat) (body : Bytes) : State := (framesOf body).foldl (sendPiece kind) s

/-- What leaves on the Crossing before there is a session (R444, R449): in clear, with no tag. -/
def sendClear (s : State) (kind : Nat) (body : Bytes) : State := emit s (.xing (frameHeader kind (body, 0)) body [])

/-- The bodies of a replay entry's frame, and of a reservation's. DESIGN CHOICE, as for every body: the manual does not lay it out. -/
def replayBody (q tag : Nat) (cpl : Bytes) : Bytes := toLe 4 q ++ toLe 8 tag ++ cpl
def rsvBody (slot blk : Nat) : Bytes := toLe 4 slot ++ toLe 8 blk

/-- A mirrored item leaves for the partner and waits for its confirmation (R453). -/
def mirror (s : State) (kind : Nat) (body : Bytes) (wait : MirrorWait) : State :=
  let s := sendFrame s kind body
  { s with xing := { s.xing with mirror := s.xing.mirror ++ [{ kind, body, wait }] } }

/-- A command whose outcome is settled waits for the partner: its unit is freed, the units of a composite sequence stay reserved until
the completion is written (R212), and no stop reaches it any more (R151, R453). -/
def waitMirror (s : State) (c kind : Nat) (body : Bytes) (w : MirrorWait) : State :=
  match ctxAt s c with
  | none => s
  | some x =>
    let s := x.eng.toList.foldl freeUnit (fntForget s c)
    mirror (setCtx s c { x with phase := .zeroising, eng := none }) kind body w

/-- The completion of an ended command; on a PRIMARY queue of a pair it waits until the partner holds the replay entry (R453). -/
def endCmd (s : State) (c : Nat) (f : CmdEnd) : State :=
  match ctxAt s c with
  | none => s
  | some x =>
    if paired s && (queueAt s x.q).role == 1 then
      let cpl := cplBytes (finBody f) f.status f.detail x.d.tag (queueAt s x.q).phase
      waitMirror s c 7 (replayBody x.q x.d.tag cpl) (.finish c f)
    else endNow s c f

/-! ## Slots as the epoch test reads them (R165 to R167, R174, R178) -/

/-- What an unlisted slot holds: EMPTY, unassigned, at the common generation (R167). -/
def slotDefault (s : State) : Slot := { gen := s.mews.genBase }
def slotAt (s : State) (n : Nat) : Slot := tget (slotDefault s) s.mews.slots n
def setSlot (s : State) (n : Nat) (v : Slot) : State :=
  { s with
    mews := { s.mews with slots := tset (slotDefault s) s.mews.slots n v }
    chk := { s.chk with slotBad := s.chk.slotBad.filter (· != n) } }

def isLive (v : Slot) : Bool := decide (v.usage < 14)
def isCont (v : Slot) : Bool := v.usage == 14
def isEmpty (v : Slot) : Bool := v.usage == 15

/-- A key with EPOCH_EN 0 admits every epoch; otherwise the 26-bit window of R178. -/
def epochAdmits (v : Slot) (epoch : Nat) : Bool :=
  !v.epEn || decide ((epoch % 2 ^ 26 + 2 ^ 26 - v.epFirst) % 2 ^ 26 ≤ (v.epLast + 2 ^ 26 - v.epFirst) % 2 ^ 26)

/-! ## Launch and fences (R99 to R101, R117, R306, R309) -/

/-- The epoch length exponent in force (R307). -/
def epochExp (s : State) : Nat := fld s Reg.CT_CFG 5 0
/-- The epoch containing a tick (R306). -/
def epochOf (s : State) (t : Nat) : Nat := t / 2 ^ epochExp s

/-- Index of the first key operand, used or to be written, whose window excludes the epoch of a tick (R101, R180). -/
def epochFail (s : State) (x : Ctx) (t : Nat) : Option Nat :=
  x.keys.findIdx? fun k => k.gen != 0 && !epochAdmits (slotAt s k.slot) (epochOf s t)

/-- The fences of its queue let a command be dispatched (R117). -/
def fenceOk (s : State) (c : Nat) (x : Ctx) : Bool :=
  !(s.quay.ctxs.any fun e =>
    e.1 != c && e.2.q == x.q && decide (e.2.seq < x.seq) && (x.d.fence || e.2.d.fence))

/-- Contexts held for a launch tick that a test selects, by launch tick and then in order of acceptance. -/
def heldWhere (s : State) (p : Nat → Ctx → Bool) : List (Nat × Ctx) :=
  sortBy (fun a b => decide (a.2.launch < b.2.launch ∨ a.2.launch = b.2.launch ∧ a.2.acc ≤ b.2.acc))
    (s.quay.ctxs.filter fun e => decide (e.2.phase = .held) && p e.1 e.2)

/-- A command's launch tick and lateness are fixed (R99, R309). -/
def setLaunch (s : State) (c tick : Nat) (late convoy : Bool) : State :=
  match ctxAt s c with
  | none => s
  | some x =>
    let s := if late then raiseInt (bump s Reg.RBT_LATE 31 0 1) 0x10 1 else s
    setCtx s c { x with launch := tick, late := late, convoy := convoy, phase := .ready }

/-- A launched command's key windows are tested against the epoch of its launch tick (R101). -/
def testEpoch (s : State) (c : Nat) : State :=
  match ctxAt s c with
  | none => s
  | some x =>
    if x.phase ≠ .ready then s
    else match epochFail s x x.launch with
      | some i => endCmd s c { status := 0x09, detail := i }
      | none => s

/-- Held commands whose tick passed while a fence stood launch late, at the current tick, as soon as the fence allows (R117). DEDUCED:
one whose fence lifts within its launch tick is not late. -/
def releaseLate : Nat → State → State
  | 0, s => s
  | n + 1, s =>
    match heldWhere s (fun c x => decide (x.launch ≤ s.tick) && fenceOk s c x) with
    | [] => s
    | e :: _ =>
      let late := decide (e.2.launch < s.tick)
      releaseLate n (testEpoch (setLaunch s e.1 s.tick late (!late)) e.1)

/-- The fences after a command has ended. -/
def fencesLift (s : State) : State := releaseLate s.quay.ctxs.length s

/-- A command ends, its completion delivered; the fences it upheld lift (R117). -/
def finishNow (s : State) (c : Nat) (f : CmdEnd) : State := fencesLift (endNow s c f)

/-- A command ends; on a PRIMARY queue of a pair its completion waits until the partner holds the replay entry (R453). -/
def finish (s : State) (c : Nat) (f : CmdEnd) : State := fencesLift (endCmd s c f)

/-- The IV or initial counter block that ENCRYPT with AES-CBC, TDES-CBC or AES-CTR returns in RESULT (R106, R136). DESIGN CHOICE: a
command that ends before its lane has formed it, and for CBC before the two cores' IVs have agreed (R144, R145), returns zeros; the
manual does not say. -/
def ivResult (x : Ctx) : Bytes :=
  if x.d.opcode = 0x10 && (x.d.mode = 2 || x.d.mode = 3 || x.d.mode = 0x12) then x.iv else []

/-- A command ends in form S with a status, a DETAIL and a count. -/
def finishS (s : State) (c status detail bytes : Nat) : State :=
  finish s c { status, detail, bytesDone := bytes, result := ((ctxAt s c).map ivResult).getD [] }

/-! ## Stops (R77, R78, R149, R195, R426) -/

/-- Two stops of one command: the first one's point, KEY_REVOKED if either was a revocation (R149). DESIGN CHOICE: when two of its
key operands are revoked, DETAIL names the operand revoked first; the manual does not say. -/
def mergeStop (old : Option Stop) (status detail : Nat) : Stop :=
  match old with
  | none => { status, detail, at' := 2 ^ 64 }
  | some o => if status = 0x02 && o.status != 0x02 then { o with status, detail } else o

/-- A stop reaches the command in context c: one that has not reached a unit ends at once with nothing done; one on a unit is
marked, and stops when the stop reaches the unit (UNIT_STOP, COMPOSITE_STEP_END); one whose result is released, or that
is parked, keeps its end (R151, R68), but for an Arcade command that failed a validation: a stop takes its place (R272). -/
def stopCtx (s : State) (c status detail : Nat) : State :=
  match ctxAt s c with
  | none => s
  | some x =>
    match x.phase with
    | .fetching => setCtx s c { x with stop := some (mergeStop x.stop status detail) }
    | .parked _ => s
    | .zeroising =>
      if x.stop.isSome || (x.eng.isSome && x.status == 0x06) then
        setCtx s c { x with stop := some (mergeStop x.stop status detail) }
      else s
    | .fetched => finishS s c status detail 0
    | .heldCheck4 => finishS s c status detail 0
    | .held => finishS s c status detail 0
    | .ready => finishS s c status detail 0
    | .placed =>
      if x.eng.isNone && x.resv.isEmpty then finishS s c status detail x.done
      else setCtx s c { x with stop := some (mergeStop x.stop status detail) }
    | .running =>
      if x.eng.isNone && x.resv.isEmpty then finishS s c status detail x.done
      else setCtx s c { x with stop := some (mergeStop x.stop status detail) }

/-- The contexts, other than self, for which a test holds. -/
def ctxsWhere (s : State) (self : Option Nat) (p : Ctx → Bool) : List Nat :=
  (s.quay.ctxs.filter fun e => some e.1 != self && p e.2).map (·.1)

/-- A stop reaches every command, other than self, for which a test holds. -/
def stopWhere (s : State) (self : Option Nat) (p : Ctx → Bool) (status : Nat) (detail : Ctx → Nat) : State :=
  (ctxsWhere s self p).foldl (fun s c =>
    match ctxAt s c with
    | none => s
    | some x => stopCtx s c status (detail x)) s

/-- Index of the key operand that names a slot at a generation, for DETAIL (R110). -/
def opIndex (x : Ctx) (slot gen : Nat) : Nat :=
  (x.keys.findIdx? fun k => k.slot == slot && k.gen == gen).getD 0

/-- A unit works on no command: it is idle, or the outcome of the command that holds it is settled (R212, R453). -/
def cunitRests (s : State) (v : CUnit) : Bool :=
  match v.ctx.bind (ctxAt s) with
  | none => true
  | some x => decide (x.phase = .zeroising)

/-- The schedules kept of a slot and generation are zeroised, with chaining state and composite store (R124, R213): at once in a unit
that works on no command, and in a busy one when its command stops or ends. -/
def dropSchedules (s : State) (p : Nat × Nat → Bool) : State :=
  ((s.units.cipher.filter fun e => e.2.key.any p).map (·.1)).foldl (fun s u =>
    let v := cunit s u
    setCunit s u (if cunitRests s v then cleared v else { v with key := [] })) s

/-- A key is revoked: every command that captured its slot and generation, other than the one that commits, ends or is
stopped with KEY_REVOKED, and schedules kept of it are zeroised (R103, R124, R195). -/
def revokeUsers (s : State) (self : Option Nat) (slot gen : Nat) : State :=
  dropSchedules (stopWhere s self (fun x => x.keys.any fun k => k.slot == slot && k.gen == gen) 0x02
    (fun x => opIndex x slot gen)) fun k => k == (slot, gen)

end Sys2Proof.Machine
end

