-- ==== Sys2Proof/Machine/Keys.lean ====
section
/-! DEFINITION. The Key Table: slots, bindings and usage classes, commits, revocation, cascades and zeroisation
(R165 to R178, R194 to R200). -/
namespace Sys2Proof.Machine
open Sys2Proof

/-! ## Bindings and usage classes (R175 to R177) -/

def uENCRYPT : Nat := 0
def uDECRYPT : Nat := 1
def uWRAP : Nat := 2
def uUNWRAP : Nat := 3
def uDERIVE : Nat := 4
def uMACGEN : Nat := 5
def uMACVER : Nat := 6
def uSIGN : Nat := 7
def uVERIFY : Nat := 8
def uAGREE : Nat := 9
def uPIN : Nat := 10

/-- Material bits and run length of a binding, none for an ALG absent from R176. -/
def algInfo (alg : Nat) : Option (Nat × Nat) :=
  match alg with
  | 0x01 => some (128, 1) | 0x02 => some (192, 1) | 0x03 => some (256, 1)
  | 0x04 => some (256, 1) | 0x05 => some (512, 1)
  | 0x08 => some (128, 1) | 0x09 => some (192, 1) | 0x0C => some (256, 1)
  | 0x10 => some (128, 1) | 0x11 => some (256, 1) | 0x12 => some (512, 1)
  | 0x18 => some (128, 1) | 0x19 => some (256, 1) | 0x1A => some (512, 1)
  | 0x40 => some (256, 1) | 0x41 => some (512, 1)
  | 0x42 => some (384, 1) | 0x43 => some (768, 2)
  | 0x44 => some (521, 2) | 0x45 => some (1042, 4)
  | 0x46 => some (256, 1) | 0x47 => some (256, 1)
  | 0x48 => some (256, 1) | 0x49 => some (256, 1)
  | 0x50 => some (5184, 16) | 0x51 => some (2112, 8)
  | 0x52 => some (7744, 16) | 0x53 => some (3136, 8)
  | 0x54 => some (10304, 32) | 0x55 => some (4160, 16)
  | 0x60 => some (512, 1) | 0x61 => some (9472, 32)
  | 0x62 => some (512, 1) | 0x63 => some (12544, 32)
  | 0x64 => some (256, 1) | 0x65 => some (15616, 32)
  | 0x66 => some (256, 1) | 0x67 => some (20736, 64)
  | _ => none

def algBits (alg : Nat) : Nat := ((algInfo alg).map (·.1)).getD 0
def algRun (alg : Nat) : Nat := ((algInfo alg).map (·.2)).getD 1
/-- Material bytes: the material bits rounded up (R190). -/
def algBytes (alg : Nat) : Nat := (algBits alg + 7) / 8

def isAes (alg : Nat) : Bool := alg == 1 || alg == 2 || alg == 3
def isTdes (alg : Nat) : Bool := alg == 8 || alg == 9
def isHmac (alg : Nat) : Bool := alg == 0x10 || alg == 0x11 || alg == 0x12
def isSecret (alg : Nat) : Bool := alg == 0x18 || alg == 0x19 || alg == 0x1A

/-- The usage classes a binding permits (R177). -/
def usageOk (alg usage : Nat) : Bool :=
  let ok : List Nat :=
    if isAes alg then [0, 1, 2, 3, 4, 5, 6, 10]
    else if isTdes alg then [0, 1, 4, 5, 6, 10]
    else if alg = 4 || alg = 5 || alg = 0xC then [0, 1]
    else if isHmac alg then [5, 6, 4]
    else if isSecret alg then [4]
    else if alg = 0x40 || alg = 0x42 || alg = 0x44 then [7, 9]
    else if alg = 0x46 || alg = 0x60 || alg = 0x62 then [9]
    else if alg = 0x48 || alg = 0x64 || alg = 0x66 then [7]
    else if alg = 0x50 || alg = 0x52 || alg = 0x54 then [7, 1]
    else if alg = 0x41 || alg = 0x43 || alg = 0x45 || alg = 0x49 || alg = 0x65 || alg = 0x67 then [8]
    else if alg = 0x51 || alg = 0x53 || alg = 0x55 then [8, 0]
    else if alg = 0x47 || alg = 0x61 || alg = 0x63 then [9]
    else []
  ok.contains usage

/-! ## Slots (R165 to R174) -/

/-- The next generation: after 0x7FFF comes 0x0001 (R166). -/
def nextGen (g : Nat) : Nat := if g = 0x7FFF then 1 else g + 1

/-- A handle (R168), and its two fields. -/
def mkHandle (slot gen : Nat) : Nat := slot + gen * 2 ^ 17
def hSlot (h : Nat) : Nat := h % 2 ^ 17
def hGen (h : Nat) : Nat := h / 2 ^ 17 % 2 ^ 15

/-- The head of the key that holds a slot, if one does (R171, R174). -/
def headOf (s : State) (n : Nat) : Option Nat :=
  let v := slotAt s n
  if isLive v then some n else if isCont v then some (hSlot v.parent) else none

/-- The slots of the key at a head. -/
def runOf (s : State) (head : Nat) : List Nat :=
  (List.range (algRun (slotAt s head).alg)).map (head + ·)

/-- The 128-bit attribute word of a slot (R173, R174). -/
def attrWord (v : Slot) : Nat :=
  v.usage % 16 + v.alg % 256 * 2 ^ 4 + b2n v.exp * 2 ^ 12 + b2n v.casc * 2 ^ 13 + b2n v.epEn * 2 ^ 14
    + b2n v.asg * 2 ^ 15 + v.gen % 2 ^ 15 * 2 ^ 17 + v.parent % 2 ^ 32 * 2 ^ 32 + v.dom % 2 ^ 12 * 2 ^ 64
    + v.epFirst % 2 ^ 26 * 2 ^ 76 + v.epLast % 2 ^ 26 * 2 ^ 102

/-- The fields the Mews takes from an attribute template (R182). -/
def fromTemplate (t : Nat) : Slot :=
  { usage := bits t 3 0, alg := bits t 11 4, exp := bitAt t 12, casc := bitAt t 13, epEn := bitAt t 14
    epFirst := bits t 101 76, epLast := bits t 127 102 }

/-- The template of a parameter block's first 16 bytes. -/
def templateOf (param : Bytes) : Slot := fromTemplate (leAt param 0 16)

/-- A template is refused: an absent ALG, a reserved USAGE, or a pair the binding does not permit (R177). -/
def templateBad (t : Slot) : Bool := (algInfo t.alg).isNone || !usageOk t.alg t.usage

/-- Slots that are LIVE or continuation (MEWS_LIVE). -/
def liveCount (s : State) : Nat := (s.mews.slots.filter fun e => !isEmpty e.2).length

/-! ## Cascades (R199, R200) -/

/-- Heads whose PARENT is one of the given handles, in ascending slot order. -/
def childrenOf (s : State) (hs : List Nat) : List Nat :=
  (s.mews.slots.filter fun e => isLive e.2 && hs.contains e.2.parent).map fun e => mkHandle e.1 e.2.gen

/-- All descendants of the keys with the given handles, level by level (R199). -/
def descendants (s : State) : Nat → List Nat → List (List Nat)
  | 0, _ => []
  | f + 1, hs =>
    match childrenOf s hs with
    | [] => []
    | l => l :: descendants s f l

/-- Start the cascade of an invalidated key, if it has a descendant (R199, R210). -/
def startCascade (s : State) (handle : Nat) : State :=
  match descendants s s.mews.slots.length [handle] with
  | [] => s
  | l => { s with mews := { s.mews with cascades := s.mews.cascades ++ [l] } }

/-- A handle names the key its slot holds. -/
def liveHandle (s : State) (h : Nat) : Bool := isLive (slotAt s (hSlot h)) && (slotAt s (hSlot h)).gen == hGen h

/-- A key made from a descendant that a cascade has not reached is a descendant of the next level (R200). -/
def addChild (parent h : Nat) : List (List Nat) → List (List Nat)
  | [] => []
  | l :: rest =>
    if l.contains parent then l :: (match rest with
      | [] => [[h]]
      | m :: r => insertBy (fun a b => decide (hSlot a ≤ hSlot b)) h m :: r)
    else l :: addChild parent h rest

/-- The new key with a handle joins the cascades that have its parent still to reach. -/
def joinCascades (s : State) (parent h : Nat) : State :=
  { s with mews := { s.mews with cascades := s.mews.cascades.map (addChild parent h) } }

/-- Descendants revoked otherwise leave the running cascades; a cascade left with none ends, with CASCADE_DONE (R200, R210). -/
def settleCascades (s : State) : State :=
  let l := s.mews.cascades.map fun c => c.map fun lv => lv.filter (liveHandle s)
  let live := l.filter fun c => !c.flatten.isEmpty
  let s := { s with mews := { s.mews with cascades := live } }
  if live.length < l.length then raiseInt s 0x28 1 else s

/-! ## Commits (R172, R187, R194) -/

/-- An EMPTY slot with its next generation: assignment kept (R174). -/
def emptied (v : Slot) : Slot := { gen := nextGen v.gen, asg := v.asg, dom := v.dom }

/-- Empty the listed slots, each advancing its generation. -/
def emptySlots (s : State) (l : List Nat) : State := l.foldl (fun s n => setSlot s n (emptied (slotAt s n))) s

/-- Revoke the users of every listed slot at the generation it now has. -/
def revokeSlots (s : State) (self : Option Nat) (l : List (Nat × Nat)) : State :=
  l.foldl (fun s e => revokeUsers s self e.1 e.2) s

/-- The key at a head is invalidated: counted in MEWS_REVOKES, and cascaded if its CASCADE (or a lost attribute word)
says so. -/
def invalidate (s : State) (head : Nat) (lost cascade : Bool) : State :=
  let v := slotAt s head
  let s := if cascade then bump s Reg.MEWS_REVOKES 31 16 1 else bump s Reg.MEWS_REVOKES 15 0 1
  if v.casc || lost then startCascade s (mkHandle head v.gen) else s

/-- The heads of every key with a slot in a list, each once. -/
def headsIn (s : State) (l : List Nat) : List Nat := (l.filterMap (headOf s)).eraseDups

/-- Part i of a material that is longer than a slot: 64 bytes, zero beyond its end (R171, R254). -/
def matPart (mat : Bytes) (run i : Nat) : Bytes := if run = 1 then mat else sl mat (64 * i) 64

/-- The commit of a write into a run (R172, R182, R194, R254): every key with a slot there is revoked as if erased, its slots outside
the run emptied; every slot of the run advances its generation; then the head takes the new key, with the assignment the write
carries, and the others become its continuation slots, each with its part of the material. -/
def commitKey (s : State) (self : Option Nat) (head : Nat) (new : Slot) : State :=
  let run := (List.range (algRun new.alg)).map (head + ·)
  let olds := headsIn s run
  let outside := (olds.flatMap (runOf s)).filter fun n => !run.contains n
  let users := (run ++ outside).map fun n => (n, (slotAt s n).gen)
  let s := olds.foldl (fun s h => invalidate s h false false) s
  let s := emptySlots s outside
  let s := emptySlots s run
  let g := (slotAt s head).gen
  let s := setSlot s head { new with gen := g, mat := matPart new.mat run.length 0 }
  let s := (run.drop 1).foldl (fun s n => setSlot s n { slotAt s n with
    usage := 14, parent := mkHandle head g, dom := new.dom, asg := new.asg, mat := matPart new.mat run.length (n - head) }) s
  settleCascades (revokeSlots (joinCascades s new.parent (mkHandle head g)) self users)

/-- The whole material of the key at a head, from the slots of its run (R171, R254). -/
def keyMat (s : State) (head : Nat) : Bytes :=
  let v := slotAt s head
  if algRun v.alg = 1 then v.mat else (cat ((runOf s head).map fun n => (slotAt s n).mat)).take (algBytes v.alg)

/-- Erase the key that holds a slot, or advance an EMPTY slot's generation (R187, R194). -/
def eraseSlot (s : State) (self : Option Nat) (n : Nat) (lost cascade : Bool) : State :=
  match headOf s n with
  | none =>
    let g := (slotAt s n).gen
    revokeUsers (emptySlots s [n]) self n g
  | some h =>
    let run := runOf s h
    let users := run.map fun n => (n, (slotAt s n).gen)
    settleCascades (revokeSlots (emptySlots (invalidate s h lost cascade) run) self users)

/-- The whole table is zeroised (R196): every slot EMPTY at its next generation in one commit, every user revoked (an
Arcade command under a Kerb erase, wherever it is, ends ABORTED, DETAIL 0x06), ZEROISING set until the material is overwritten; damage
not yet overwritten in the table is gone. DESIGN CHOICE: all key operands of a command are revoked together, and DETAIL names the one
of lowest index; the manual does not say. -/
def zeroiseTable (s : State) (kerb : Bool) : State :=
  let n := (s.mews.slots.filter fun e => isLive e.2).length
  let s := bump s Reg.MEWS_REVOKES 15 0 n
  let s := { s with mews := { s.mews with
    slots := (s.mews.slots.map fun e => (e.1, emptied e.2)).filter fun e =>
      decide (e.2 ≠ { gen := nextGen s.mews.genBase })
    genBase := nextGen s.mews.genBase, zeroising := true } }
  let keyed (x : Ctx) : Bool := x.keys.any fun k => k.gen != 0
  let arc (x : Ctx) : Bool := decide (0x50 ≤ x.d.opcode ∧ x.d.opcode ≤ 0x57)
  let s := if kerb then stopWhere s none (fun x => keyed x && arc x) 0x08 (fun _ => 0x06) else s
  let s := stopWhere s none (fun x => keyed x && !(kerb && arc x)) 0x02
    (fun x => (x.keys.findIdx? fun k => k.gen != 0).getD 0)
  settleCascades (dropSchedules { s with chk := { s.chk with slotBad := [] } } fun _ => true)

/-! ## The key-derivation function (R183) -/

/-- The PRF of a KDF key and its output bits. -/
def prfBits (alg : Nat) : Nat :=
  if isAes alg then 128 else if isTdes alg then 64 else if alg = 0x12 || alg = 0x1A then 512 else 256
def prf (alg : Nat) (key msg : Bytes) : Bytes :=
  fit (prfBits alg / 8) (if isAes alg || isTdes alg then cmacOf alg key msg
    else if alg = 0x12 || alg = 0x1A then hmacOf 3 key msg else hmacOf 1 key msg)

/-- SP 800-108 in counter mode: L bits under a key, a label and a context. -/
def kdf (alg : Nat) (key label context : Bytes) (l : Nat) : Bytes :=
  let n := (l + prfBits alg - 1) / prfBits alg
  fit (l / 8) (cat ((List.range n).map fun i =>
    prf alg key (toBe 4 (i + 1) ++ label ++ fill 1 0 ++ context ++ toBe 4 l)))

/-! ## Commits by the pair (R194, R263, R453) -/

/-- A commit takes effect (R194, R263). -/
def applyOp (s : State) (self : Option Nat) : SlotOp → State
  | .write h k => commitKey s self h k
  | .pair h1 k1 h2 k2 => commitKey (commitKey s self h1 k1) self h2 k2
  | .erase n lost => eraseSlot s self n lost false
  | .curve e (some v) =>
    let refill (c : Nat × Ctx) : Nat × Ctx := if c.2.curveBad = some e then (c.1, { c.2 with curveBad := none }) else c
    raiseInt { s with curves := tput s.curves e v, quay := { s.quay with ctxs := s.quay.ctxs.map refill } } 0x20 16
  | .curve e none => { s with curves := tdel s.curves e }

/-- The mirror key (R444): derived from the pairing root with label "mirr". -/
def mirrorKey (s : State) : Bytes := kdf 0x11 ((s.bak.pairRoot).getD []) [0x6D, 0x69, 0x72, 0x72] [] 256

/-- Curve parameters as the modulus region holds them, and read back (DESIGN CHOICE: the manual does not lay them out). -/
def curveRegion (c : Curve) : Bytes :=
  toBe 2 c.pbits ++ toBe 1 c.h ++ cat ([c.p, c.a, c.b, c.gx, c.gy, c.n].map (toBe 129))
def curveFrom (b : Bytes) : Curve :=
  let v (i : Nat) : Nat := be (sl b (3 + 129 * i) 129)
  { p := v 0, a := v 1, b := v 2, gx := v 3, gy := v 4, n := v 5, pbits := be (sl b 0 2), h := be (sl b 2 1), dom := 0 }

/-- The frame of a mirrored commit: the generations its command named (R454), what is written and where, key material wrapped under
the mirror key. -/
def opBody (s : State) (op : SlotOp) (gens : List (Nat × Nat)) : Bytes :=
  let key (n : Nat) (k : Slot) : Bytes := toLe 4 n ++ toLe 16 (attrWord k) ++ wrapKey 9 (mirrorKey s) k.mat
  let names := toLe 1 gens.length ++ cat (gens.map fun g => toLe 4 g.1 ++ toLe 2 g.2)
  names ++ match op with
  | .write n k => toLe 1 1 ++ key n k
  | .pair n k m l => toLe 1 2 ++ key n k ++ key m l
  | .erase n lost => toLe 1 3 ++ toLe 4 n ++ toLe 1 (b2n lost)
  | .curve e none => toLe 1 4 ++ toLe 1 e
  | .curve e (some c) => toLe 1 5 ++ toLe 1 e ++ curveRegion c

/-- The frame kind of a commit: 1 a slot write or erase, 5 a Curve Store commit. -/
def opKind : SlotOp → Nat
  | .curve _ _ => 5
  | _ => 1

/-- A commit that has been made here leaves for a partner that is being joined, after the tables it is joined with (R452). -/
def copyCommit (s : State) (op : SlotOp) : State := if copies s then mirror s (opKind op) (opBody s op []) .record else s

/-- A commit that no command's context waits for: forwarded to the sequencer, or made here and sent to the partner (R453). -/
def commitVia (s : State) (op : SlotOp) (gens : List (Nat × Nat)) (forwarded made : MirrorWait) : State :=
  if paired s && !s.xing.seqr then mirror s (opKind op) (opBody s op gens) forwarded
  else
    let s := applyOp s none op
    if paired s then mirror s (opKind op) (opBody s op gens) made else copyCommit s op

/-- A commit that nothing waits for: a loss under R197, a Curve Store entry freed. -/
def commitAlone (s : State) (op : SlotOp) : State := commitVia s op [] (.commit none op {}) (.slot none {})

/-- A slot's uncorrectable ECC error is found (R197): the key that holds the slot is revoked as if erased. -/
def ktLoss (s : State) (n : Nat) (attrLost : Bool) : State :=
  if s.chk.slotBad.contains n then s else
  let s := { s with chk := { s.chk with slotBad := n :: s.chk.slotBad } }
  let isHead := decide (headOf s n = some n)
  let s := raiseInt (bump (countFault s 0x28) Reg.MEWS_KT_ECC 31 16 1) 0x28 4
  let s := errSynd s 0x28 0x10 0x20 n n
  match headOf s n with
  | none => s
  | some _ => commitAlone s (.erase n (attrLost && isHead))

/-- The first running cascade reaches its next descendant: level by level, ascending by slot (R199, R200). -/
def cascadeStep (s : State) : State :=
  match (s.mews.cascades.map List.flatten).flatten.find? (liveHandle s) with
  | none => settleCascades s
  | some h =>
    let run := runOf s (hSlot h)
    let users := run.map fun n => (n, (slotAt s n).gen)
    settleCascades (revokeSlots (emptySlots (bump s Reg.MEWS_REVOKES 31 16 1) run) none users)

/-- Descendants found and not yet revoked, each once (MEWS_CASCADE). -/
def cascadePending (s : State) : Nat :=
  ((s.mews.cascades.map List.flatten).flatten.filter (liveHandle s)).eraseDups.length

end Sys2Proof.Machine
end

