-- ==== Sys2Proof/Machine/Operands.lean ====
section
/-! DEFINITION. The operands of the Ixmet instructions: general registers, the stack registers of each mode, guards,
immediates, shift amounts and effective addresses (R325, R328, R330, R332, R338, R340, R341, R348, R367). -/
namespace Sys2Proof.Machine
open Sys2Proof

/-- User mode (PSW.UM, R366). -/
def userMode (r : CoreRegs) : Bool := wbit r.psw 4

/-- The stack registers of the current mode (R367). -/
def stk (r : CoreRegs) : Stacks := if userMode r then r.usr else r.sys
/-- The registers with the current mode's stack registers replaced. -/
def setStk (r : CoreRegs) (k : Stacks) : CoreRegs := if userMode r then { r with usr := k } else { r with sys := k }

/-- A general register: G0 reads 0, G15 is the current mode's data stack pointer (R325). -/
def gpr (r : CoreRegs) (n : GReg) : Word :=
  if n = 0 then 0 else if n = 15 then (stk r).sp else tget 0 r.g n.val
/-- The registers with a general register written: a write of G0 is discarded (R325). -/
def setGpr (r : CoreRegs) (n : GReg) (v : Word) : CoreRegs :=
  if n = 0 then r
  else if n = 15 then setStk r { stk r with sp := v }
  else { r with g := tset 0 r.g n.val v }

/-- The registers with the data stack pointer of the current mode replaced. -/
def setSp (r : CoreRegs) (v : Word) : CoreRegs := setStk r { stk r with sp := v }
/-- The registers with both stack pointers of the current mode replaced. -/
def setSps (r : CoreRegs) (sp rsp : Word) : CoreRegs := setStk r { stk r with sp := sp, rsp := rsp }

/-- GUARD 0x7, 0x8 and 0xF are undefined (R332). -/
def guardUndefined (g : BitVec 4) : Bool := g == 0x7 || g == 0x8 || g == 0xF

/-- What bits [30:28] of an instruction select (R332). -/
def guardSelects (r : CoreRegs) (n : Nat) : Bool :=
  match n with
  | 1 => wbit r.psw 1
  | 2 => wbit r.psw 2
  | 3 => wbit r.psw 3
  | 4 => wbit r.psw 0
  | 5 => r.lc0 == 1
  | 6 => r.lc1 == 1
  | _ => true

/-- The guard of an instruction is true (R332). -/
def guardTrue (r : CoreRegs) (g : BitVec 4) : Bool := (guardSelects r (g.toNat % 8)).xor (g.toNat.testBit 3)

/-- A 12-bit immediate sign-extended. -/
def imm12 (i : BitVec 12) : Word := i.signExtend 32
/-- A 12-bit immediate zero-extended. -/
def uimm12 (i : BitVec 12) : Word := i.zeroExtend 32

/-- A shift amount (R338). -/
def shAmount (r : CoreRegs) : ShAmt → Nat
  | .imm n => n.val
  | .reg b => (gpr r b).toNat % 32

/-- The count of LOOP (R348). -/
def loopCount (r : CoreRegs) : LoopCnt → Word
  | .imm n => n.zeroExtend 32
  | .reg a => gpr r a

/-- The second operand of TEST (R344). -/
def testArg (r : CoreRegs) : TestArg → Word
  | .imm n => imm12 n
  | .reg b => gpr r b

/-- The address of a load or store: Gb + OFF12 (R340). -/
def ldstAddr (r : CoreRegs) (b : GReg) (off : BitVec 12) : Word := gpr r b + imm12 off

/-- The target of a BRANCH: its own address + 4 × DISP22 (R343). -/
def branchTarget (r : CoreRegs) (disp : BitVec 22) : Word := r.pc + disp.signExtend 32 * 4

/-- The registers a PUSHM or POPM mask names, G1 first (R341). -/
def maskRegs (m : BitVec 16) : List GReg := (List.finRange 16).filter fun n => n != 0 && n != 15 && m.toNat.testBit n.val

/-- The width in bits of PAR and BREV (R338). -/
def fieldWidth (w : BitVec 2) : Nat := if w = 0 then 8 else if w = 1 then 16 else 32
/-- The bytes of a load or store (R340), and of the data of CRC (R352). -/
def sizeBytes (sz : BitVec 2) : Nat := if sz = 0 then 1 else if sz = 1 then 2 else 4

/-- Loaded data extended to a word (R340). -/
def extended (sz : BitVec 2) (x : Bool) (v : Nat) : Word :=
  let n := 8 * sizeBytes sz
  if x && v.testBit (n - 1) then BitVec.ofNat 32 (v % 2 ^ n) + BitVec.ofNat 32 (2 ^ 32 - 2 ^ n)
  else BitVec.ofNat 32 (v % 2 ^ n)

end Sys2Proof.Machine
end

