-- ==== Sys2Proof/Machine/Survey.lean ====
section
/-! DEFINITION. What every part of the device may see or wake of an Ixmet core: its interrupt sources, HALT, the Survey, how an
instruction completes with its loop ends and its delay slot, and how WFI ends (R345, R349, R350, R363, R373 to R376, R390 to R396). -/
namespace Sys2Proof.Machine
open Sys2Proof

/-- A core. -/
def coreAt (s : State) (c : Nat) : Core := tget {} s.cores c
def setCore (s : State) (c : Nat) (v : Core) : State := { s with cores := tset {} s.cores c v }

/-- The page of a core. -/
def corePage (c : Nat) : Nat := 0x30 + c
/-- A register of a core's page. -/
def ck (c off : Nat) : Nat := rk (corePage c) off

/-- The registers of core c, and the state with them replaced. -/
def cregs (s : State) (c : Nat) : CoreRegs := (coreAt s c).r
def setRegs (s : State) (c : Nat) (r : CoreRegs) : State := setCore s c { coreAt s c with r }

/-! ## Interrupt sources (R373, R374) -/

/-- Samples held in the Survey buffer. -/
def smpCount (s : State) (c : Nat) : Nat := fld s (ck c Reg.SV_SMP_STAT) 6 0

/-- Source 30: a wrapped counter with OVF_INT, or the sampling buffer at its threshold. -/
def surveyPending (s : State) (c : Nat) : Bool :=
  ((List.range 8).any fun n => rbit s (ck c Reg.SV_OVF) n && rbit s (ck c (Reg.SV_CFG + 4 * n)) 13)
    || (rbit s (ck c Reg.SV_SMP_CTRL) 5 && decide (48 ≤ smpCount s c))

/-- A source of core c is pending. -/
def srcPending (s : State) (c n : Nat) : Bool :=
  if n ≤ 12 then groupOn s n
  else if n ≤ 28 then rbit s (ck c Reg.IXM_SWI_PEND) (n - 13)
  else if n = 29 then decide ((coreAt s c).r.cmp ≤ s.tick)
  else if n = 30 then surveyPending s c
  else false

/-- IXM_INT_STAT.PEND. -/
def pendMask (s : State) (c : Nat) : Nat := maskOf ((List.range 31).filter fun n => srcPending s c n)

/-- The priority of a source. -/
def srcPri (s : State) (c n : Nat) : Nat := fld s (ck c (Reg.IXM_INT_PRI + n / 8 * 4)) (4 * (n % 8) + 3) (4 * (n % 8))

/-- The pending source of highest priority, the lowest number among equals, if its priority is above a level: source and priority. -/
def bestSource (s : State) (c level : Nat) : Option (Nat × Nat) :=
  (List.range 31).foldl (fun best n =>
    let p := srcPri s c n
    if decide (level < p) && srcPending s c n && (match best with
        | none => true
        | some b => decide (b.2 < p)) then some (n, p) else best) none

/-! ## The Survey (R390 to R394) -/

/-- A Survey event of the instruction in progress, with its address and whether it belongs to system mode. Numbers from 0x100 are
the model's own marks: 0x100 a corrected error at a physical address, 0x106 a store to a register of the internal map's pages,
0x108 a division, 0x10E a WFI that begins to wait, 0x20E one that has waited. -/
def surveyEvent (s : State) (c ev addr : Nat) (sys : Bool) : State :=
  setCore s c { coreAt s c with evs := (coreAt s c).evs ++ [(ev, addr, sys)] }

/-- The field of SV_SMP_STAT that counts dropped records, and NEXT. -/
def smpNext (s : State) (c : Nat) : Nat := fld s (ck c Reg.SV_SMP_STAT) 13 8

/-- A record enters the sampling buffer, or is dropped (R394, R396). -/
def sampleRecord (s : State) (c : Nat) (m : Sample) : State :=
  let st := ck c Reg.SV_SMP_STAT
  let n := smpCount s c
  let next := smpNext s c
  if decide (64 ≤ n) && !rbit s (ck c Reg.SV_SMP_CTRL) 4 then bump s st 31 16 1
  else
    let s := setCore s c { coreAt s c with samples := tput (coreAt s c).samples next m }
    let s := setFld s st 13 8 ((next + 1) % 64)
    if 64 ≤ n then s
    else
      let s := setFld s st 6 0 (n + 1)
      if n + 1 = 48 then raiseInt s (corePage c) 0x1000 else s

/-- A sampling record of counter k for an event (R394): word 1 is CYCLE_LO, a free value. -/
def sampleWrap (s : State) (c k ev addr : Nat) (w0 : Word) : State :=
  if rbit s (ck c Reg.SV_SMP_CTRL) 0 && fld s (ck c Reg.SV_SMP_CTRL) 3 1 == k then
    let f := freshNat s
    let a := if ev = 5 || ev = 6 || ev = 9 || ev = 0xA || ev = 0xB then addr else 0
    sampleRecord f.2 c
      { w0, w1 := BitVec.ofNat 32 f.1, w2 := BitVec.ofNat 32 a, w3 := BitVec.ofNat 32 (ev + k * 2 ^ 8) }
  else s

/-- Counter k advances by n: a wrap sets SV_OVF and its interrupt, and may be sampled (R393, R394). -/
def surveyAdd (s : State) (c k n ev addr : Nat) (w0 : Word) : State :=
  let key := ck c (Reg.SV_CNT + 4 * k)
  let v := (reg s key).toNat + n
  let s := setReg s key (BitVec.ofNat 32 v)
  if v < 2 ^ 32 then s
  else
    let s := setReg s (ck c Reg.SV_OVF) (reg s (ck c Reg.SV_OVF) ||| BitVec.ofNat 32 (2 ^ k))
    sampleWrap (raiseInt s (corePage c) 0x800) c k ev addr w0

/-- MODE lets a counter count events of a mode (R392). -/
def surveyMode (mode : Nat) (sys : Bool) : Bool :=
  match mode with
  | 1 => !sys
  | 2 => sys
  | _ => true

/-- What of a row raises the signal of an event (R391): a load may stall for its data, a store on a full buffer, a division on its
result. Event 0x01, which is always 1, never rises. -/
def raisesSignal (ev : Nat) (edge : Bool) (mark : Nat) : Bool :=
  match ev with
  | 0x07 => mark == 0x05
  | 0x08 => mark == 0x108
  | 0x0E => mark == 0x10E || (mark == 0x20E && !edge)
  | 0x12 => mark == 0x06
  | _ => mark == ev

/-- The events of a row that a counter's EVENT and EDGE may count. -/
def countedEvents (evs : List (Nat × Nat × Bool)) (ev : Nat) (edge sys : Bool) : List (Nat × Nat × Bool) :=
  if ev = 0x01 then (if edge then [] else [(1, 0, sys)]) else evs.filter fun e => raisesSignal ev edge e.1

/-- What one of them adds: with EDGE 0 one cycle, or a free number where the signal lasts, since cycles are not modelled; with EDGE 1
one for a WFI that begins to wait, and for another one or, in a cycle behind a cycle of the same signal or without a stall, none. -/
def eventAmount (s : State) (ev : Nat) (edge : Bool) : Nat × State :=
  let lasts := ev == 0x01 || ev == 0x07 || ev == 0x08 || ev == 0x0E || ev == 0x12
  let f := freshNat s
  if edge then (if ev = 0x0E then (1, s) else (f.1 % 2, f.2))
  else if lasts then (f.1 % 2 ^ 32, f.2)
  else (1, s)

/-- A row has written counter k through its page, so that what the row counts in it is discarded (R393). -/
def counterWritten (evs : List (Nat × Nat × Bool)) (c k : Nat) : Bool :=
  evs.any fun e => e.1 == 0x106 && e.2.1 == ck c (Reg.SV_CNT + 4 * k)

/-- Counter k counts the events of the instruction in progress. -/
def surveyCounter (evs : List (Nat × Nat × Bool)) (c : Nat) (sys : Bool) (w0 : Word) (s : State) (k : Nat) : State :=
  let cfg := reg s (ck c (Reg.SV_CFG + 4 * k))
  let ev := wbits cfg 7 0
  if !wbit cfg 8 || counterWritten evs c k then s
  else
    ((countedEvents evs ev (wbit cfg 9) sys).filter fun e => surveyMode (wbits cfg 11 10) e.2.2).foldl (fun s e =>
      let n := eventAmount s ev (wbit cfg 9)
      surveyAdd n.2 c k n.1 ev e.2.1 w0) s

/-- The eight counters count some events; w0 is word 0 of their samples. -/
def surveyEvents (s : State) (c : Nat) (evs : List (Nat × Nat × Bool)) (sys : Bool) (w0 : Word) : State :=
  (List.range 8).foldl (surveyCounter evs c sys w0) s

/-- The events of an instruction or of an entry are counted. -/
def survey (s : State) (c : Nat) (sys : Bool) (w0 : Word) : State :=
  surveyEvents (setCore s c { coreAt s c with evs := [] }) c (coreAt s c).evs sys w0

/-- The pc as an entry saves it: bits [1:0] are IN_SLOT and 0. -/
def savedPc (pc : Word) : Word := pc &&& 0xFFFFFFFC

/-- Word 0 of a sample of the instruction at the pc (R394). -/
def samplePc (v : Core) : Word :=
  savedPc v.r.pc ||| BitVec.ofNat 32 (2 * b2n (userMode v.r) + b2n v.slot.isSome)

/-! ## Completion: loop ends and delay slots (R345, R349, R350) -/

/-- The decision of one level at the instruction at address a: registers, next pc, and whether it looped back. -/
def loopEnd1 (r : CoreRegs) (a next : Word) : CoreRegs × Word × Bool :=
  if r.lc1 != 0 && r.le1 == a then
    if r.lc1 != 1 then ({ r with lc1 := r.lc1 - 1 }, r.ls1, true) else ({ r with lc1 := 0 }, a + 4, false)
  else (r, next, false)

/-- The loop-end decisions at address a: level 0 first, level 1 when level 0 does not loop back. -/
def loopEnds (r : CoreRegs) (a next : Word) : CoreRegs × Word × Bool :=
  if r.lc0 != 0 && r.le0 == a then
    if r.lc0 != 1 then ({ r with lc0 := r.lc0 - 1 }, r.ls0, true) else loopEnd1 { r with lc0 := 0 } a (a + 4)
  else loopEnd1 r a next

/-- The instruction at the pc has completed: the next pc is the transfer's target after its slot, or what the loop ends say; a
loop back is an event of the instruction's mode (R392). -/
def advance (s : State) (c : Nat) (sys : Bool) : State :=
  let v := coreAt s c
  if v.state ≠ 2 then s
  else
    let d := loopEnds v.r v.r.pc (v.r.pc + 4)
    let next := match v.slot with
      | some w => w.target.getD d.2.1
      | none => d.2.1
    let s := setCore s c { v with r := { d.1 with pc := next }, slot := none, busy := false, loaded := none }
    if d.2.2 then surveyEvent s c 0x0F 0 sys else s

/-- A transfer whose slot retires has completed: its own events are counted, as its own (R347, R391). -/
def transferRetires (s : State) (c : Nat) : State :=
  match (coreAt s c).slot with
  | some w => surveyEvents s c w.evs (!userMode w.before) w.word0
  | none => s

/-- The instruction at the pc completes in core v: its transfer first, then its own events. -/
def completes (s : State) (c : Nat) (v : Core) : State :=
  let sys := !userMode v.r
  survey (advance (surveyEvent (transferRetires s c) c 0x02 0 sys) c sys) c sys (samplePc v)

/-! ## HALT and WFI (R363, R375, R376) -/

/-- A core enters HALTED. -/
def coreHalted (s : State) (c : Nat) : State :=
  raiseInt (setCore s c { coreAt s c with
    state := 1, haltReq := false, shadow := false, busy := false, loaded := none }) (corePage c) 1

/-- The boundary after an instruction: a HALT that waited for it is performed (R363, R376). -/
def boundary (s : State) (c : Nat) : State :=
  let v := coreAt s c
  if v.haltReq && v.state == 2 && v.slot.isNone && !v.busy then coreHalted s c else s

/-- WFI completes when any source with priority above IPL is pending. -/
def wfiDone (s : State) (c : Nat) : Bool := (bestSource s c (wbits (cregs s c).psw 11 8)).isSome

/-- A core in WFI whose wait is over goes on behind the WFI. -/
def wake (s : State) (c : Nat) : State :=
  let v := coreAt s c
  if v.state = 3 && wfiDone s c then
    boundary (completes (surveyEvent (setCore s c { v with state := 2 }) c 0x20E 0 (!userMode v.r)) c v) c
  else s

/-- Every core whose WFI is over goes on. A pending source completes a WFI when it begins to be pending; the model makes the step
where the source could be withdrawn, or the core is looked at or acted on. -/
def wakeAll (s : State) : State := (List.range 16).foldl wake s

/-- IXM_STAT.STATE: a core whose WFI is over runs. -/
def coreStateOf (s : State) (c : Nat) : Nat :=
  if (coreAt s c).state = 3 && wfiDone s c then 2 else (coreAt s c).state

/-- The core stops at its next instruction boundary: at once, or after the instruction in progress and the slot that a transfer
waits for. -/
def haltCore (s : State) (c : Nat) : State :=
  let s := wake s c
  let v := coreAt s c
  if v.state ≠ 2 && v.state ≠ 3 then s
  else if v.slot.isSome || v.busy then setCore s c { v with haltReq := true }
  else coreHalted s c

end Sys2Proof.Machine
end

