-- ==== Sys2Proof/Machine/Access.lean ====
section
/-! DEFINITION. Whether a register access reaches its page: the link, READY, the port page filter and the page's power
(R25, R43, R412, R526), and the helper every register-command row goes through. -/
namespace Sys2Proof.Machine
open Sys2Proof

/-- The port page filter denies a page to BAR0 (R412). -/
def hostDenied (s : State) (page : Nat) : Bool :=
  rbit s (Reg.CHECKPOINT_HOST_DENY + 4 * (page / 32)) (page % 32)

/-- A refused BAR0 access is recorded on page 0x40 (R412, R417). -/
def denyRecord (s : State) (src : Src) (page off : Nat) : State :=
  errSynd (raiseInt s 0x40 2) 0x40 0x11 (masterOf src) page (rk page off)

/-- A register is powered: its page is on, or it is one of the page 0x11 registers held in PD_MEWS (R25, R135). -/
def regOn (s : State) (page off : Nat) : Bool :=
  if page = 0x11 && 0x100 ≤ off && off ≤ 0x110 then domOn s 12 else pageOn s page

/-- An access to a register page reaches the register: not before READY or while the port's link is down, not through the port page
filter when it denies the page, and not on a page that is absent or off. -/
def pageReaches (s : State) (src : Src) (page off : Nat) : Bool :=
  match src with
  | .port p => bootReady s && linkUp s p.val && !hostDenied s page && regOn s page off
  | .core _ => regOn s page off
  | .bar2 _ => false
  | .bar4 _ => false

/-- What an access that does not reach its register leaves behind: the record of a denied one (R412). -/
def dropped (s : State) (src : Src) (page off : Nat) : State :=
  match src with
  | .port p => if bootReady s && linkUp s p.val && hostDenied s page then denyRecord s src page off else s
  | _ => s

/-- A register written anew: its parity is regenerated, whatever the write does (R39, R40). -/
def reparity (s : State) (key : Nat) : State := { s with parBad := tdel s.parBad key }

/-- A write to a register page: dropped, or k on the register with its parity regenerated. -/
def gate (s : State) (src : Src) (page off : Nat) (k : State → State) : State :=
  if pageReaches s src page off then k (reparity s (rk page off)) else dropped s src page off

/-- A read completion can return to the requester (R547). -/
def answers (s : State) : Src → Bool
  | .port p => linkUp s p.val
  | .core _ => true
  | .bar2 f => linkUp s (fnPort f.val)
  | .bar4 f => linkUp s (fnPort f.val)

/-- A read of the register at a BAR0 offset: 0 when it does not reach the register (R25, R412, R526), otherwise k. -/
def gateRead (s : State) (src : Src) (key : Nat) (k : State → State) : State :=
  if pageReaches s src (key / 0x1000) (key % 0x1000) then k s
  else
    let s := dropped s src (key / 0x1000) (key % 0x1000)
    if answers s src then emit s (.readData src (toLe 4 0)) else s

/-- The gate of the register at a BAR0 offset. -/
def gateReg (s : State) (src : Src) (key : Nat) (k : State → State) : State :=
  gate s src (key / 0x1000) (key % 0x1000) k

/-! ## A plain register write (R9, R10, R24, R33) -/

/-- The value a field holds after a write of v (R9). -/
def fieldAfter (f : Fld) (locked : Bool) (old v : Word) : Nat :=
  let o := wbits old f.hi f.lo
  let n := wbits v f.hi f.lo
  match f.acc with
  | .ro => o
  | .rw => n
  | .w1c => o - (o &&& n)
  | .w1s => o ||| n
  | .wo => o
  | .rwl => if locked then o else n
  | .rc => o

/-- A register's value after a write of v: its fields by their access types, its reserved bits 0. -/
def wordAfter (fs : List Fld) (locked : Bool) (old v : Word) : Word :=
  fs.foldl (fun w f => wput w f.hi f.lo (fieldAfter f locked old v)) 0

/-- The RWL fields of a register are locked: by PAGE_LOCK, or for DEV by the lock held in PD_MEWS (R33, R135). -/
def pageLocked (s : State) (page off : Nat) : Bool :=
  if page = 0x11 && off = 0x100 then s.units.devLock else rbit s (rk page Reg.PAGE_LOCK) 0

/-- A write would change an RWL field. -/
def rwlChanges (fs : List Fld) (old v : Word) : Bool :=
  fs.any fun f => decide (f.acc = .rwl) && wbits old f.hi f.lo != wbits v f.hi f.lo

/-- What writing VALID of ERR_SYND or PAR_STAT clears with it (R30). -/
def headerClears (off : Nat) (v w : Word) : Word :=
  if off = Reg.ERR_SYND && wbit v 23 then wput (wput w 31 24 0) 22 22 0
  else if off = Reg.PAR_STAT && wbit v 31 then wput (wput w 30 30 0) 9 0 0
  else w

/-- A write that can withdraw a core's interrupt source or lower its priority, so that a WFI it completes is seen to first (R375). -/
def mayWithdraw (page off : Nat) : Bool :=
  off == Reg.INT_STAT || off == Reg.INT_EN
    || (decide (0x30 ≤ page) && decide (page ≤ 0x3F)
      && (off == Reg.IXM_SWI_PEND || off == Reg.SV_OVF || off == Reg.SV_SMP_CTRL
        || (decide (Reg.IXM_INT_PRI ≤ off) && decide (off < Reg.IXM_INT_PRI + 16))
        || (decide (Reg.SV_CFG ≤ off) && decide (off < Reg.SV_CFG + 32))))

/-- A 32-bit write of the register at page and offset by its fields' access types; an RWL change after PAGE_LOCK is recorded
with CODE 0x02 (R33); INT_STAT and INT_EN writes may send the group's message again (R80). -/
def plainWrite (s : State) (src : Src) (page off : Nat) (v : Word) : State :=
  let s := if mayWithdraw page off then wakeAll s else s
  let fs := fieldsAt page off
  let old := reg s (rk page off)
  let locked := pageLocked s page off
  let s := if fs.isEmpty then s
    else setReg s (rk page off) (headerClears off v (wordAfter fs locked old v))
  let s := if locked && rwlChanges fs old v then errSynd s page 0x02 (masterOf src) 0 off else s
  if off = Reg.INT_STAT || off = Reg.INT_EN then intWritten s page else s

end Sys2Proof.Machine
end

