-- ==== Sys2Proof/Machine/Memory.lean ====
section
/-! DEFINITION. The bytes of the internal map (R27, R29): core-local RAM, the shared SRAM and the FeRAM firmware region, as a
sparse table in its canonical form; where an address of a core lies; and the CRCs of R352. -/
namespace Sys2Proof.Machine
open Sys2Proof

/-! ## CRCs (R352) -/

/-- One bit d of a CRC: POLY 0 CRC-32C, 1 CRC-16/CCITT, 2 CRC-7. -/
def crcBit (poly acc : Nat) (d : Bool) : Nat :=
  if poly = 0 then
    if (acc.testBit 0).xor d then (acc / 2) ^^^ 0x82F63B78 else acc / 2
  else if poly = 1 then
    if (acc.testBit 15).xor d then (acc * 2 % 2 ^ 16) ^^^ 0x1021 else acc * 2 % 2 ^ 16
  else
    if (acc.testBit 6).xor d then (acc * 2 % 2 ^ 7) ^^^ 0x09 else acc * 2 % 2 ^ 7

/-- The accumulator bits a POLY uses. -/
def crcWidth (poly : Nat) : Nat := if poly = 0 then 32 else if poly = 1 then 16 else 7

/-- The CRC over the low w bits of v: least significant bit first for CRC-32C, most significant first for the others. -/
def crcStep (poly acc v w : Nat) : Nat :=
  ((List.range w).map fun i => v.testBit (if poly = 0 then i else w - 1 - i)).foldl (crcBit poly)
    (acc % 2 ^ crcWidth poly)

/-- CRC-32C with the initial value and final XOR of R36. -/
def crc32c (b : Bytes) : Nat := (b.foldl (fun a x => crcStep 0 a x.toNat 8) 0xFFFFFFFF) ^^^ 0xFFFFFFFF

/-! ## Seal codes (R36 to R38) -/

/-- The Seal code of a beat: CRC-32C over the 16-bit source and sink identities, the 32-bit command context index (all ones for a
transfer of no command), the 32-bit byte offset of the beat, and its payload. DESIGN CHOICE: each number least significant byte
first, and a block's identity is a free number of its page; the manual gives the widths and the order only. -/
def sealCode (source sink : Nat) (ctx : Option Nat) (off : Nat) (payload : Bytes) : Nat :=
  crc32c (toLe 2 (Config.sealId source).toNat ++ toLe 2 (Config.sealId sink).toNat ++ toLe 4 (ctx.getD (2 ^ 32 - 1)) ++ toLe 4 off
    ++ payload)

/-- A transfer of beats of at most 64 bytes from one page's block to another's, checked at its sink: the bytes accepted, which end
before the first beat whose code fails, and whether every beat passed. A beat to which nothing happened carries the code its sink
computes. -/
def sealPass (source sink : Nat) (ctx : Option Nat) (off : Nat) (data : Bytes) (hit : Option Hit) : Bytes × Bool :=
  match hit with
  | none => (data, true)
  | some h =>
    let start := 64 * h.beat
    let beat := (data.drop start).take 64
    let got := xorBytes beat h.flip
    if data.length ≤ start then (data, true)
    else if sealCode source sink ctx (off + start) beat ^^^ h.code.toNat = sealCode source sink ctx (off + start) got then
      (data.take start ++ got ++ data.drop (start + 64), true)
    else (data.take start, false)

/-! ## Memory -/

/-- The canonical form of memory: addresses rising, no byte listed that an unlisted address reads as. -/
def Memory.wf (m : List Host.Cell) : Bool := twf 0 m

/-- The byte at an internal address. -/
def memByte (s : State) (a : Nat) : Byte := tget 0 s.mem a

/-- n bytes from an address. -/
def memBytes (s : State) (a n : Nat) : Bytes := (List.range n).map fun i => memByte s (a + i)

/-- A table with a byte string written from an address. -/
def putBytes (m : List Host.Cell) (a : Nat) : Bytes → List Host.Cell
  | [] => m
  | b :: bs => putBytes (tset 0 m a b) (a + 1) bs

/-- The state with bytes written: a word written anew is no longer marked as damaged (R414). -/
def memWrite (s : State) (a : Nat) (b : Bytes) : State :=
  { s with
    mem := putBytes s.mem a b
    chk := { s.chk with eccBad := s.chk.eccBad.filter fun w => w * 8 + 8 ≤ a || a + b.length ≤ w * 8 } }

/-- The bytes from lo to hi - 1 are zeroised. -/
def memClear (s : State) (lo hi : Nat) : State :=
  { s with
    mem := s.mem.filter fun e => decide (e.1 < lo) || decide (hi ≤ e.1)
    chk := { s.chk with eccBad := s.chk.eccBad.filter fun w => w * 8 + 8 ≤ lo || hi ≤ w * 8 } }

/-! ## The internal map (R27, R29) -/

/-- The regions of the internal map. -/
inductive Region where
  /-- Local RAM of core c. -/
  | localRam (c : Nat)
  | shared
  | regs
  /-- The FeRAM: device region and firmware region (R29). -/
  | feram
deriving DecidableEq, Repr

/-- The shared SRAM. -/
def sramBase : Nat := 0x01000000
def sramEnd : Nat := 0x01800000
/-- Where the FeRAM's firmware region begins: the device region before it is written by the device's own logic only (R29). -/
def feramFirmware : Nat := 0x05380000
/-- The alias of core c's local RAM. -/
def lramBase (c : Nat) : Nat := 0x02000000 + c * 0x40000

/-- The region that holds the whole access of n bytes at an address, as core c sees it (none: 16 for a DMA engine, which has no
local RAM of its own). -/
def regionOf (c a n : Nat) : Option Region :=
  if a + n ≤ 0x40000 then (if c < 16 then some (.localRam c) else none)
  else if sramBase ≤ a ∧ a + n ≤ sramEnd then some .shared
  else if 0x02000000 ≤ a ∧ a + n ≤ 0x02400000 then some (.localRam ((a - 0x02000000) / 0x40000))
  else if 0x04000000 ≤ a ∧ a + n ≤ 0x04100000 then some .regs
  else if 0x05000000 ≤ a ∧ a + n ≤ 0x05400000 then some .feram
  else none

/-- The address under which a byte of core c's view is stored: its own local RAM at the alias. -/
def physAddr (c a : Nat) : Nat := if a < 0x40000 then lramBase c + a else a

/-- The main log as FeRAM holds it (R437): a byte of a ring position, zero where no entry has been written. -/
def logByte (s : State) (off : Nat) : Byte := (tget [] s.fer.log (off / 32)).getD (off % 32) 0

/-- The 16 bytes of a slot's reservation record (R138): the even half, then the odd half, each the highest block reserved in 6
bytes and its check code in 2 (DESIGN CHOICE: the manual fixes the record's size and contents, not the order within it). -/
def rsvBytes (r : RsvRec) : Bytes :=
  let half (h : Option RsvHalf) : Bytes := match h with
    | some v => toLe 6 v.blk ++ toLe 2 v.code.toNat
    | none => fill 8 0
  half r.even ++ half r.odd

/-- The 8 bytes of a slot's DUKPT record (R234), in the same form with 3 bytes and 1 for each half. -/
def dukptBytes (r : RsvRec) : Bytes :=
  let half (h : Option RsvHalf) : Bytes := match h with
    | some v => toLe 3 v.blk ++ toLe 1 v.code.toNat
    | none => fill 4 0
  half r.even ++ half r.odd

/-- A byte of the FeRAM through the internal map (R29): a reservation record, a DUKPT record, the main log, or the firmware region;
a byte of the other device records, whose layouts the manual leaves open, is the free byte given. -/
def feramByte (s : State) (a : Nat) (free : Byte) : Byte :=
  if a < 0x05200000 then (rsvBytes (tget {} s.fer.rsv ((a - 0x05000000) / 16))).getD (a % 16) 0
  else if a < 0x05300000 then (dukptBytes (tget {} s.fer.dukpt ((a - 0x05200000) / 8))).getD (a % 8) 0
  else if a < 0x05340000 then logByte s (a - 0x05300000)
  else if a < feramFirmware then free
  else memByte s a

/-- Bytes read through the internal map: memory, or FeRAM. -/
def mapRead (s : State) (c a n : Nat) : Bytes × State :=
  match regionOf c a n with
  | some .feram =>
    let r := freshBytes n s
    ((List.range n).map fun i => feramByte s (a + i) (r.1.getD i 0), r.2)
  | _ => (memBytes s (physAddr c a) n, s)

end Sys2Proof.Machine
end

