-- ==== Sys2Proof/Machine/Rules.lean ====
section
/-! DEFINITION. The Checkpoint rules: the table and its commands, what an access needs, refusals, and how a DMA transfer ends
(R397 to R408, R411). -/
namespace Sys2Proof.Machine
open Sys2Proof

/-! ## Rules (R397 to R404) -/

/-- The state with the rule table, engines and marks replaced. -/
def setChk (s : State) (c : Chk) : State := { s with chk := c }

/-- Word w of rule entry e. -/
def ruleWord (s : State) (e w : Nat) : Word := tget 0 s.chk.rules (4 * e + w)

/-- What an access needs: fetch X, read R, write W, atomic R and W. -/
inductive Need where
  | fetch | read | write | atomic
deriving DecidableEq, Repr

/-- The code of a kind of access in ERR_SYND INFO (R417). -/
def Need.code : Need → Nat
  | .fetch => 0
  | .read => 1
  | .write => 2
  | .atomic => 3

/-- The permissions of W0 grant a need. -/
def grants (w0 : Word) : Need → Bool
  | .fetch => wbit w0 3
  | .read => wbit w0 1
  | .write => wbit w0 2
  | .atomic => wbit w0 1 && wbit w0 2

/-- An access as its master carries it (R397). -/
structure Acs where
  mid : Nat
  user : Bool
  dom : Nat
  addr : Nat
  len : Nat
  need : Need

/-- Entry e admits an access (R400). -/
def entryAdmits (s : State) (e : Nat) (a : Acs) : Bool :=
  let w0 := ruleWord s e 0
  let w1 := (ruleWord s e 1).toNat
  let mask := bits w1 13 8
  let mode := wbits w0 6 5
  wbit w0 0 && (a.mid &&& mask) == (bits w1 5 0 &&& mask)
    && !(mode == 1 && !a.user) && !(mode == 2 && a.user)
    && (wbit w0 7 || wbits w0 19 8 == a.dom)
    && decide ((wbits (ruleWord s e 2) 31 6) * 64 ≤ a.addr)
    && decide (a.addr + a.len ≤ (wbits (ruleWord s e 3) 31 6) * 64 + 64)
    && grants w0 a.need

/-- The core of a MID, or none (16) for a DMA engine. -/
def midCore (mid : Nat) : Nat := if mid < 0x20 then mid - 0x10 else 16

/-- What the Checkpoint refuses whatever the table holds (R402). -/
def mapRefuses (a : Acs) : Bool :=
  match regionOf (midCore a.mid) a.addr a.len with
  | none => true
  | some r =>
    match r with
    | .feram => decide (a.need = .fetch)
        || (decide (a.need = .write ∨ a.need = .atomic) && decide (a.addr < feramFirmware))
    | .regs => decide (a.need = .fetch) || decide (0x20 ≤ a.mid)
    | .shared => false
    | .localRam _ => decide (a.need = .fetch) && decide (0x40000 ≤ a.addr)

/-- The fixed rule: a core in system mode and its own local RAM (R401). -/
def fixedRule (a : Acs) : Bool := decide (a.mid < 0x20) && !a.user && decide (a.addr + a.len ≤ 0x40000)

/-- A Checkpoint permits an access (R400 to R402). -/
def permits (s : State) (a : Acs) : Bool :=
  !mapRefuses a && (fixedRule a || (List.range 256).any fun e => entryAdmits s e a)

/-- A refused access is counted and recorded (R404, R417). -/
def refused (s : State) (a : Acs) : State :=
  let s := raiseInt (bump s Reg.CHECKPOINT_REFUSED 31 0 1) 0x40 1
  let s := errSynd s 0x40 0x10 (if a.mid < 0x20 then a.mid else 0x20)
    (a.mid + a.need.code * 2 ^ 8 + b2n a.user * 2 ^ 10) a.addr
  if rbit s Reg.CHECKPOINT_CTRL 0 then countFault s 0x40 else s

/-- The domain of a core (n = core number) or of a DMA engine (n = 16 + e). -/
def masterDom (s : State) (n : Nat) : Nat := fld s (Reg.CHECKPOINT_MDOM + 4 * n) 11 0

/-! ## CHECKPOINT_RCMD (R405 to R408) -/

/-- The rule words staged in CHECKPOINT_RDATA. -/
def staged (s : State) (w : Nat) : Word := reg s (Reg.CHECKPOINT_RDATA + 4 * w)
/-- The entry CHECKPOINT_RSEL selects. -/
def rsel (s : State) : Nat := fld s Reg.CHECKPOINT_RSEL 7 0

/-- A staged entry breaks the format of R408. -/
def ruleFormatBad (s : State) : Bool :=
  let w0 := staged s 0
  let w1 := staged s 1
  let w2 := staged s 2
  let w3 := staged s 3
  wbits w0 31 20 != 0 || wbits w1 31 14 != 0 || wbits w1 7 6 != 0 || wbits w2 5 0 != 0 || wbits w3 5 0 != 0
    || (wbit w0 0 && decide (w3.toNat < w2.toNat))

/-- The four words of an entry replaced. -/
def putRule (s : State) (e : Nat) (w : Nat → Word) : State :=
  setChk s { s.chk with rules := [0, 1, 2, 3].foldl (fun t i => tset 0 t (4 * e + i) (w i)) s.chk.rules }

/-- A command of CHECKPOINT_RCMD until its commit (R405, R408): what it did is decided when it is written (R33). -/
def setPendingRule (s : State) (p : Option RuleCmd) : State := setChk s { s.chk with rcmd := p }

/-- The commit of the command that is pending: its entry, or the words it has read, and its RESULT. -/
def ruleCommit (s : State) : State :=
  match s.chk.rcmd with
  | none => s
  | some p =>
    let s := setPendingRule s none
    let s := match p.rule with
      | some w => putRule s p.entry fun i => w.getD i 0
      | none => s
    let s := match p.rdata with
      | some w => [0, 1, 2, 3].foldl (fun s i => setReg s (Reg.CHECKPOINT_RDATA + 4 * i) (w.getD i 0)) s
      | none => s
    setFld s Reg.CHECKPOINT_RCMD 7 4 p.result

/-- A write of CHECKPOINT_RCMD: BUSY until its commit; a write before the commit of the one before it is recorded and ignored, and
one that comes later finds that commit made (R408). -/
def rcmd (s : State) (src : Src) (early : Bool) (v : Nat) (k : State → RuleCmd) : State :=
  gateReg s src Reg.CHECKPOINT_RCMD fun s =>
    let s := if early then s else ruleCommit s
    if s.chk.rcmd.isSome then errSynd s 0x40 0x14 (masterOf src) 0xFF v else setPendingRule s (some (k s))

/-- What refuses WRITE and CLEAR. -/
def rcmdLocked (s : State) : Option Nat :=
  if wbit (ruleWord s (rsel s) 0) 4 then some 0x1
  else if rbit s (rk 0x40 Reg.PAGE_LOCK) 0 then some 0x2 else none

/-- READ, WRITE, CLEAR and an unknown command as they are written. -/
def rcmdRead (s : State) : RuleCmd :=
  { result := 0x0, rdata := some ([0, 1, 2, 3].map fun i => ruleWord s (rsel s) i) }
def rcmdWrite (s : State) : RuleCmd :=
  match rcmdLocked s with
  | some r => { result := r }
  | none => if ruleFormatBad s then { result := 0x3 }
    else { result := 0x0, entry := rsel s, rule := some ([0, 1, 2, 3].map fun i => staged s i) }
def rcmdClear (s : State) : RuleCmd :=
  match rcmdLocked s with
  | some r => { result := r }
  | none => { result := 0x0, entry := rsel s, rule := some [] }
def rcmdUnknown (_s : State) : RuleCmd := { result := 0xF }

def execRcmdRead (src : Src) (early : Bool) (s : State) : Res := .next (rcmd s src early 1 rcmdRead)
def execRcmdWrite (src : Src) (early : Bool) (s : State) : Res := .next (rcmd s src early 2 rcmdWrite)
def execRcmdClear (src : Src) (early : Bool) (s : State) : Res := .next (rcmd s src early 3 rcmdClear)

/-! ## How a DMA transfer ends (R411) -/

/-- A register of DMA engine e. -/
def dmaReg (e off : Nat) : Nat := 0x40100 + 0x20 * e + off
/-- A transfer ends: STATUS, BYTES_DONE, BUSY 0 and DMA_DONE. -/
def dmaEnds (s : State) (e status bytes : Nat) : State :=
  let s := setReg (setReg s (dmaReg e 0x18) (BitVec.ofNat 32 status)) (dmaReg e 0x1C) (BitVec.ofNat 32 bytes)
  let s := setChk s { s.chk with
    dma := tdel s.chk.dma e, sync := s.chk.sync.map fun w => (w.1, w.2.filter fun j => j != e) }
  let w := s.quay.winWait
  raiseInt { s with quay := { s.quay with winWait := { w with dmas := w.dmas.filter fun j => j != e } } } 0x40 (2 ^ (8 + e))

/-- Transfers end before any of their data has come (R78, R547). DESIGN CHOICE: with ABORTED, as when their data arrives poisoned; the
manual names no status for it. -/
def dmaCut (s : State) (cut : DmaOp → Bool) : State :=
  (s.chk.dma.filter fun e => cut e.2).foldl (fun s e => dmaEnds s e.1 0x08 0) s

end Sys2Proof.Machine
end

