-- ==== Sys2Proof/Machine/Quay.lean ====
section
/-! DEFINITION. The Quay: doorbells, admission, descriptor arrival and replay, queue control, function reset, links,
MSI-X writes and source data (chapter 2). -/
namespace Sys2Proof.Machine
open Sys2Proof

/-! ## Doorbells (R48 to R52) -/

/-- A BAR2 access by a function reaches the device: READY, its port's link up, the function exists. -/
def bar2Open (s : State) (fn : Nat) : Bool := bootReady s && linkUp s (fnPort fn) && fnExists s fn

/-- A doorbell value out of range (R50). -/
def doorbellError (s : State) (fn q v : Nat) : State :=
  let s := setQueue s q { queueAt s q with dbErr := true }
  raiseInt (errSynd s 0x0A 0x10 (fnPort fn) q v) 0x0A 4

/-- A doorbell write by the owning function, otherwise recorded with CODE 0x11 (R49). -/
def doorbell (s : State) (fn q off : Nat) (k : State) : State :=
  if !bar2Open s fn then s
  else if qFunc (queueAt s q) != fn then errSynd s 0x0A 0x11 (fnPort fn) fn (0x40 * q + off)
  else if (queueAt s q).state = .enabled then k else s

/-- SQ_TAIL_DB (R50, R52). -/
def sqTailDb (s : State) (fn q : Nat) (v : Word) : State :=
  let t := wbits v 15 0
  doorbell s fn q 0x00
    (if t < sqSize (queueAt s q) then setQueue s q { queueAt s q with sqTail := t }
     else doorbellError s fn q v.toNat)

/-- Distance from a to b forward in a ring. -/
def ringFwd (size a b : Nat) : Nat := (b + size - a % size) % size

/-- CQ_HEAD_DB: a forward move that passes no entry not yet written (R50). -/
def cqHeadDb (s : State) (fn q : Nat) (v : Word) : State :=
  let h := wbits v 15 0
  let x := queueAt s q
  doorbell s fn q 0x04
    (if h < cqSize x && decide (ringFwd (cqSize x) x.cqHead h ≤ ringFwd (cqSize x) x.cqHead x.cqTail) then
       setQueue s q { x with cqHead := h }
     else doorbellError s fn q v.toNat)

def execSqTailDb (fn : FnNo) (q : QueueNo) (v : Word) (s : State) : Res := .next (sqTailDb s fn.val q.val v)
def execCqHeadDb (fn : FnNo) (q : QueueNo) (v : Word) (s : State) : Res := .next (cqHeadDb s fn.val q.val v)

/-! ## Admission (R54, R63 to R65) -/

/-- Commands of a queue whose descriptor fetch is outstanding. -/
def fetchingOf (s : State) (q : Nat) : List (Nat × Ctx) :=
  s.quay.ctxs.filter fun e => e.2.q == q && decide (e.2.phase = .fetching)

/-- The next SQ entry a fetch would take. -/
def fetchIdx (s : State) (q : Nat) : Nat :=
  let v := queueAt s q
  (v.sqHead + (fetchingOf s q).length) % sqSize v

/-- The queue has room for one more CQ reservation (R54). -/
def cqRoom (s : State) (q : Nat) : Bool :=
  let v := queueAt s q
  decide (1 + qInfl s q + ringFwd (cqSize v) v.cqHead v.cqTail ≤ cqSize v - 1)

/-- A domain may take one more context (R63, R64). -/
def domRoom (s : State) (d : Nat) : Bool :=
  let v := domAt s d
  decide (domHeld s d < min 65536 v.cap) && (decide (0 < v.own) || decide (0 < poolFree s))

/-- Every condition of R63 holds for a queue. DEDUCED: the link of its function is up, since a fetch can only leave through it. -/
def canAdmit (s : State) (q : Nat) : Bool :=
  let v := queueAt s q
  decide (v.state = .enabled) && fetchIdx s q != v.sqTail && decide (qInfl s q < qMaxInfl v) && cqRoom s q
    && domRoom s (qDomain v) && decide (0 < ctxFree s) && v.role != 2 && linkUp s (fnPort (qFunc v))

/-- The queue whose turn it is: the one being served while its burst lasts, otherwise the next ready one in round-robin
order by number (R65). DESIGN CHOICE: after reset the round starts after queue 0; the manual does not say where it begins. -/
def admitQueue (s : State) : Option Nat :=
  if 0 < s.quay.turnLeft && canAdmit s s.quay.turnQ then some s.quay.turnQ
  else
    let l := (s.quay.queues.map (·.1)).filter (canAdmit s)
    (l.filter fun q => decide (s.quay.turnQ < q)).head? <|> l.head?

/-- Reserve a context and a CQ entry for the queue whose turn it is and issue the fetch (R63); its turn ends when R63 stops it (R65). -/
def admitNext (s : State) (c : Nat) : State :=
  if !admitting s || (ctxAt s c).isSome then s
  else match admitQueue s with
    | none => s
    | some q =>
      let v := queueAt s q
      let d := qDomain v
      let i := fetchIdx s q
      let left := if 0 < s.quay.turnLeft && s.quay.turnQ = q then s.quay.turnLeft - 1 else qBurst v - 1
      let dv := domAt s d
      let s := setDom s d { dv with own := dv.own - 1 }
      let s := setCtx s c { q, dom := d, seq := s.quay.nextSeq }
      let s := { s with chk := { s.chk with ctxBad := s.chk.ctxBad.filter (· != c) } }
      let s := { s with quay := { s.quay with nextSeq := s.quay.nextSeq + 1, turnQ := q } }
      let s := { s with quay := { s.quay with turnLeft := if canAdmit s q then left else 0 } }
      hostRead s (qFunc v) (qSqBase v + 64 * i) 64

def execAdmitOne (ctx : CtxNo) (s : State) : Res := .next (admitNext s ctx.val)

/-! ## Descriptor arrival and the replay window (R56, R66 to R72, R88) -/

/-- The fields of a descriptor's 64 bytes (R88). -/
def decodeDesc (b : Bytes) : Desc :=
  let w0 := leAt b 0 4
  { opcode := bits w0 7 0, mode := bits w0 15 8, idemp := bitAt w0 16, timed := bitAt w0 17
    srcSgl := bitAt w0 18, dstSgl := bitAt w0 19, fence := bitAt w0 20, blvd := bitAt w0 21
    len := bits w0 31 24 * 2 ^ 32 + leAt b 0x20 4
    handle := leAt b 4 4, tag := leAt b 8 8, src := leAt b 0x10 8, dst := leAt b 0x18 8
    aadLen := leAt b 0x24 4, param := leAt b 0x28 8, launch := leAt b 0x30 8
    srcN := leAt b 0x38 2, dstN := leAt b 0x3A 2, arg := leAt b 0x3C 4 }

/-- Opcodes and modes that are non-idempotent whatever their marking (R69, R93). -/
def forcedOnce (op mode : Nat) : Bool :=
  (op == 0x10 && [0x02, 0x03, 0x04, 0x06, 0x12, 0x20].contains mode)
    || [0x30, 0x31, 0x52, 0x53, 0x54, 0x55, 0x63].contains op

/-- A command is non-idempotent (R97). -/
def nonIdem (d : Desc) : Bool := forcedOnce d.opcode d.mode || !d.idemp

/-- Damaged storage of a queue's replay window is found: counted once (R72, R87, R414). -/
def replayEcc (s : State) (q i : Nat) : State :=
  let v := queueAt s q
  let count (s : State) : State :=
    raiseInt (bump (countFault s 0x0B) Reg.QUAY_RPL_ECC 31 16 1) 0x0B 1
  match v.win[i]? with
  | some e =>
    if e.bad then s
    else count (setQueue s q { v with win := v.win.set i { e with bad := true } })
  | none => if v.badFree.contains i then s else count (setQueue s q { v with badFree := i :: v.badFree })

/-- The context a command with this tag would park behind (R68): the one of the queue in flight with the same tag, or
the one that is itself parked behind. -/
def parkTarget (s : State) (c : Nat) (x : Ctx) : Option Nat :=
  (s.quay.ctxs.find? fun e =>
    e.1 != c && e.2.q == x.q && e.2.d.tag == x.d.tag && decide (e.2.phase ≠ .fetching)).map fun e =>
      match e.2.phase with
      | .parked b => b
      | _ => e.1

/-- The Quay completes a command with a stored completion, as REPLAYED (R67). -/
def replayHit (s : State) (c : Nat) (x : Ctx) (e : RplEntry) : State :=
  let body := e.cpl.take 28
  let s := deliver s x.q x.d.tag body body 0x0D (byteAt e.cpl 28) x.silent
  fencesLift (drained (releaseCtx s c x.dom) x.q)

/-- Write the SQ head back (R56). -/
def headWriteback (s : State) (q : Nat) : State :=
  let v := queueAt s q
  if qHwbEn v && covered v true (qHwbAddr v) 8 then
    hostWrite s (qFunc v) (qHwbAddr v) (toLe 8 v.sqHead) false
  else s

/-- A fetched descriptor arrives (R56, R67, R68, R72); nothing arrives while the port's link is down. Fetches of one queue arrive
in their order; a lookup meets no storage that holds no entry. DESIGN CHOICE: a descriptor that arrives after a stop has reached
its command (R77) ends with the stop's status without a lookup; the manual does not say which comes first. -/
def descriptorArrive (s : State) (c : Nat) (b : Bytes) (ecc : Option (Fin 64)) : State :=
  match ctxAt s c with
  | none => s
  | some x =>
    if x.phase ≠ .fetching || !linkUp s (fnPort (qFunc (queueAt s x.q)))
        || (fetchingOf s x.q).any (fun e => decide (e.2.seq < x.seq)) then s
    else
      let v := queueAt s x.q
      let s := setQueue s x.q { v with sqHead := (v.sqHead + 1) % sqSize v }
      let s := headWriteback s x.q
      let d := decodeDesc b
      let x := { x with d, raw := b.take 64, phase := .fetched }
      let s := setCtx s c x
      match x.stop with
      | some st => finishS s c st.status st.detail 0
      | none =>
        if !nonIdem d then s
        else
          let s := match ecc with
            | some i => if i.val < (queueAt s x.q).win.length then replayEcc s x.q i.val else s
            | none => s
          let win := (queueAt s x.q).win
          if win.any (·.bad) then finishS s c 0x08 0x04 0
          else match win.reverse.find? (fun e => e.tag == d.tag) with
            | some e => replayHit s c x e
            | none => match parkTarget s c x with
              | some b => setCtx s c { x with phase := .parked b }
              | none => s

def execDescriptorArrive (ctx : CtxNo) (bytes : Bytes) (ecc : Option (Fin 64)) (s : State) : Res :=
  .next (descriptorArrive s ctx.val bytes ecc)

/-! ## Coalescing and MSI-X (R80, R81) -/

/-- COAL_TIME, as it stands now, has passed since the first uncounted completion; 0 disables the timer (R81). -/
def coalTimeExpire (s : State) (q : Nat) : State :=
  let v := queueAt s q
  if v.coalTimer && qCoalTime v != 0 then
    sendMsix (setQueue s q { v with coalCnt := 0, coalTimer := false }) (qFunc v) (qVector v)
  else s

def execCoalTimeExpire (q : QueueNo) (s : State) : Res := .next (coalTimeExpire s q.val)

/-- Send the pending message of entry e if it may leave (R80, R81). -/
def msixFlush (s : State) (fn e : Nat) : State :=
  if (msixAt s fn e).pend && msixOpen s fn e then sendMsix s fn e else s

/-- The entries of a function whose Pending Bit is set. -/
def msixPending (s : State) (fn : Nat) : List Nat :=
  (s.quay.msix.filter fun e => e.1 / 2048 == fn && e.2.pend).map fun e => e.1 % 2048

/-- A list with n put in or taken out. -/
def member (l : List Nat) (n : Nat) (b : Bool) : List Nat :=
  let r := l.filter fun i => i != n
  if b then n :: r else r

/-- Device Control as a write leaves it (PRESUMED layout: bit 4 Enable Relaxed Ordering, bits [7:5] Max Payload Size, bits [14:12] Max
Read Request Size). DESIGN CHOICE: a size that R42 does not list is not taken. -/
def devControl (o : FnPcie) (v : Word) : FnPcie :=
  let m := wbits v 7 5
  let r := wbits v 14 12
  { ro := wbit v 4, mps := if m ≤ 2 then m else o.mps, mrrs := if r ≤ 5 then r else o.mrrs }

/-- A host write to the MSI-X table, to Message Control (bit 15 MSI-X Enable, bit 14 Function Mask), or to Device Control. -/
def msixWrite (s : State) (fn : Nat) (f : MsixField) (v : Word) : State :=
  if !bar2Open s fn then s
  else match f with
    | .addrLo e => setMsix s fn e.val { msixAt s fn e.val with addrLo := wput v 1 0 0 }
    | .addrHi e => setMsix s fn e.val { msixAt s fn e.val with addrHi := v }
    | .data e => setMsix s fn e.val { msixAt s fn e.val with data := v }
    | .vectorControl e =>
      msixFlush (setMsix s fn e.val { msixAt s fn e.val with mask := wbit v 0 }) fn e.val
    | .messageControl =>
      let s := { s with quay := { s.quay with
        msixEn := member s.quay.msixEn fn (wbit v 15), msixMask := member s.quay.msixMask fn (wbit v 14) } }
      (msixPending s fn).foldl (fun s e => msixFlush s fn e) s
    | .deviceControl =>
      { s with quay := { s.quay with pcie := tset {} s.quay.pcie fn (devControl (pcieOf s fn) v) } }

def execMsixTableWrite (fn : FnNo) (fld : MsixField) (v : Word) (s : State) : Res :=
  .next (msixWrite s fn.val fld v)

/-! ## Queue control (R62, R76, R77, R85) -/

/-- The implemented bits of record word n (R85, R10). -/
def recMask (n : Nat) : Word :=
  if n = 0 then 0x3FFFFFFF else if n = 1 then 0x0001FFFF else if n = 2 then 0x07FF003F
  else if n = 3 then 0x8003FFFF else if n < 10 then 0xFFFFFFFF
  else if n < 26 then
    (if n % 4 = 2 then 0xFFFFF003 else if n % 4 = 0 then 0xFFFFF000 else 0xFFFFFFFF)
  else 0

/-- The staged record of QUAY_QDATA. -/
def stagedRec (s : State) : Tbl Word :=
  (List.range 32).foldl (fun t n => tset 0 t n (reg s (Reg.QUAY_QDATA + 4 * n) &&& recMask n)) []

/-- One window with a permission covers a range that is not empty. -/
def inWindow (v : Queue) (write : Bool) (addr len : Nat) : Bool := covered v write addr len

/-- The checks of ENABLE after STATE, in the order of R76: FUNC, SIZE, VECTOR, WINDOW, RING. -/
def checkRecord (s : State) (v : Queue) : Nat :=
  if !fnExists s (qFunc v) then 0x2
  else if qSqLog v < 4 || 16 < qSqLog v || qCqLog v < 4 || 16 < qCqLog v then 0x5
  else if qVector v < 16 then 0x4
  else if [0, 1, 2, 3].any (fun n => (winRead v n || winWrite v n) && decide (winLimit v n < winBase v n)) then 0x6
  else if !inWindow v false (qSqBase v) (64 * sqSize v) || !inWindow v true (qCqBase v) (32 * cqSize v)
      || (qHwbEn v && !inWindow v true (qHwbAddr v) 8)
      || qSqBase v % 4096 != 0 || qCqBase v % 4096 != 0 || (qHwbEn v && qHwbAddr v % 8 != 0) then 0x3
  else 0

/-- A WRITE waits for the partner to hold the record (R453), so BUSY reads 1. -/
def qcmdWaits (s : State) : Bool :=
  s.xing.mirror.any fun i => match i.wait with
    | .qcmd _ => true
    | _ => false

/-- A queue's record as a frame carries it, after the queue's number (R453). -/
def recordBody (q : Nat) (w : Tbl Word) : Bytes := toLe 4 q ++ cat ((List.range 32).map fun n => toLe 4 (tget 0 w n).toNat)

/-- The command ends with a RESULT. -/
def qcmdEnds (s : State) (r : Nat) : State := raiseInt (setFld s Reg.QUAY_QCMD 7 4 r) 0x0A 1

/-- QUAY_QCMD written with the value v (R76): ignored and recorded while BUSY, otherwise k on the selected queue gives a RESULT and a
state, and QCMD_DONE is set as BUSY falls (R86). -/
def qcmd (s : State) (src : Src) (early : Bool) (cmd v : Nat) (k : State → Nat → Nat × State) : State :=
  gateReg s src Reg.QUAY_QCMD fun s =>
    let q := fld s Reg.QUAY_QSEL 13 0
    if early || qcmdWaits s then errSynd s 0x0A 0x12 (masterOf src) q v
    else
      let r := k s q
      if cmd = 2 && r.1 = 0 && paired s && (queueAt s q).role = 1 then mirror r.2 8 (recordBody q (queueAt r.2 q).rec') (.qcmd r.1)
      else qcmdEnds r.2 r.1

/-- READ. -/
def qcmdRead (s : State) (q : Nat) : Nat × State :=
  (0, (List.range 32).foldl (fun s n => setReg s (Reg.QUAY_QDATA + 4 * n) (qw (queueAt s q) n)) s)

/-- Only W1 to W3 and the window words differ between two records (R76). -/
def onlyWindows (a b : Tbl Word) : Bool :=
  [0, 4, 5, 6, 7, 8, 9].all fun n => tget 0 a n == tget 0 b n

/-- Two records differ in FUNC and VECTOR alone (R456). -/
def sameButFunc (a b : Tbl Word) : Bool :=
  (List.range 32).all fun n =>
    if n = 0 then wput (tget 0 a 0) 7 0 0 == wput (tget 0 b 0) 7 0 0
    else if n = 2 then wput (tget 0 a 2) 26 16 0 == wput (tget 0 b 2) 26 16 0
    else tget 0 a n == tget 0 b n

/-- WRITE (R62, R71, R76). On a STANDBY queue it changes FUNC and VECTOR alone (R456). -/
def qcmdWrite (s : State) (q : Nat) : Nat × State :=
  let v := queueAt s q
  let n := { v with rec' := stagedRec s }
  if v.role = 2 && !sameButFunc v.rec' n.rec' then (0x1, s)
  else if v.state = .disabled then
    let moved := qFunc n != qFunc v || qDomain n != qDomain v
    (0, setQueue s q (if moved then noReplay n else n))
  else if !onlyWindows v.rec' n.rec' then (0x1, s)
  else
    let r := checkRecord s n
    (r, if r = 0 then setQueue s q n else s)

/-- ENABLE (R62, R76). A STANDBY queue stays DISABLED (R456). DESIGN CHOICE: the submitted tail last written becomes 0 with SQ_HEAD, so
that nothing is submitted before the next doorbell, and the reset of SQ_HEAD is not written back; the manual states neither. -/
def qcmdEnable (s : State) (q : Nat) : Nat × State :=
  let v := queueAt s q
  if v.state ≠ .disabled || v.role = 2 then (0x1, s)
  else
    let r := checkRecord s v
    (r, if r = 0 then setQueue s q { v with state := .enabled, sqHead := 0, sqTail := 0, cqTail := 0, cqHead := 0
                                            dbErr := false, phase := true }
        else s)

/-- DISABLE. -/
def qcmdDisable (s : State) (q : Nat) : Nat × State :=
  let v := queueAt s q
  (0, if v.state = .enabled then drained (setQueue s q { v with state := .draining }) q else s)

/-- DISABLE_ABORT (R77). -/
def qcmdAbort (s : State) (q : Nat) : Nat × State :=
  let v := queueAt s q
  if v.state = .disabled then (0, s)
  else
    let s := setQueue s q { v with state := .draining }
    (0, drained (stopWhere s none (fun x => x.q == q) 0x08 (fun _ => 0x01)) q)

/-- CLEAR_REPLAY. -/
def qcmdClear (s : State) (q : Nat) : Nat × State :=
  let v := queueAt s q
  if v.state = .disabled then (0, setQueue s q (noReplay v)) else (0x1, s)

def execQcmdRead (src : Src) (early : Bool) (s : State) : Res := .next (qcmd s src early 1 1 qcmdRead)
def execQcmdWrite (src : Src) (early : Bool) (s : State) : Res := .next (qcmd s src early 2 2 qcmdWrite)
def execEnable (src : Src) (early : Bool) (s : State) : Res := .next (qcmd s src early 3 3 qcmdEnable)
def execDisable (src : Src) (early : Bool) (s : State) : Res := .next (qcmd s src early 4 4 qcmdDisable)
def execDisableAbort (src : Src) (early : Bool) (s : State) : Res := .next (qcmd s src early 5 5 qcmdAbort)
def execClearReplay (src : Src) (early : Bool) (s : State) : Res := .next (qcmd s src early 6 6 qcmdClear)

/-- A write of an unknown command: RESULT 0xF (R76). -/
def qcmdUnknown (s : State) (src : Src) (cmd v : Nat) : State := qcmd s src false cmd v fun s _ => (0xF, s)

/-! ## Window sync and domain limits (R61, R64) -/

/-- The first byte of segment i of a list. -/
def segStart (l : List Seg) (i : Nat) : Nat := ((l.take i).map (·.len)).sum

/-- Source bytes a command needs (R90, R91); LEN of KEY_EXPORT, RNG_READ, PK_KEYPAIR and KEM_ENCAP is a destination length
(R93, R186, R255), and so it is in the VECTOR forms of MILENAGE and TUAK and in AKA5G_DERIVE (R220). DEDUCED: KEY_GENERATE,
KEY_DERIVE, KEY_ERASE and KEY_QUERY do not use LEN, so that a LEN that is not 0 there is a reserved field like any other (R73, R89) and
makes the command read nothing. -/
def srcNeed (x : Ctx) : Nat :=
  if x.d.opcode = 0x10 || x.d.opcode = 0x11 then x.d.aadLen + x.d.len
  else if [0x30, 0x31, 0x33, 0x34, 0x35, 0x40, 0x52, 0x54, 0x68, 0x69, 0x6A].contains x.d.opcode then 0 else x.d.len

/-- Source bytes whose access has passed its check, as far as the command needs them. -/
def srcGood (x : Ctx) : Nat := if x.srcRej then min (srcNeed x) (segStart x.srcs x.srcChk) else srcNeed x

/-- A command's checked accesses that have not completed: the order of its fetching, and the source and destination bytes it has to
reach. Its descriptor's fetch counts while it is outstanding. -/
def openAccess (x : Ctx) : Option (Nat × Nat × Nat) :=
  match x.phase with
  | .fetching => some (x.seq, 0, 0)
  | .placed => if x.srcIn.length < srcGood x && x.srcEnd.isNone then some (x.seq, srcGood x, 0) else none
  | .running =>
    let w := segStart x.dsts x.dstChk
    if (x.srcIn.length < srcGood x && x.srcEnd.isNone) || x.wrote < w then some (x.seq, srcGood x, w) else none
  | _ => none

/-- QUAY_WIN_SYNC.SYNC (R61): DONE reads 0 until every access checked before it has completed. -/
def winSync (s : State) (src : Src) : State :=
  gateReg s src Reg.QUAY_WIN_SYNC fun s =>
    let w : WinWait := {
      cmds := s.quay.ctxs.filterMap fun e => openAccess e.2
      dmas := (s.chk.dma.filter fun e => e.2.dir != 0).map (·.1) }
    setFld { s with quay := { s.quay with winWait := w } } Reg.QUAY_WIN_SYNC 1 1 0

/-- One of those commands has completed the accesses it had begun. -/
def accessDone (s : State) (w : Nat × Nat × Nat) : Bool :=
  match s.quay.ctxs.find? fun e => e.2.seq == w.1 with
  | none => true
  | some e => decide (e.2.phase ≠ .fetching) && (decide (w.2.1 ≤ e.2.srcIn.length) || e.2.srcEnd.isSome) && decide (w.2.2 ≤ e.2.wrote)

/-- DONE reads 1 once every access checked before the SYNC has completed (R61). -/
def winSyncDone (s : State) : State :=
  if s.quay.winWait.cmds.all (accessDone s) && s.quay.winWait.dmas.isEmpty then setFld s Reg.QUAY_WIN_SYNC 1 1 1 else s

def execWinSync (src : Src) (s : State) : Res := .next (winSync s src)
def execWinSyncDone (s : State) : Res := .next (winSyncDone s)

/-- A write of QUAY_DOM_RESV (R64): ignored and recorded when the sum would pass 65,536. -/
def domResvWrite (s : State) (src : Src) (v : Word) : State :=
  gateReg s src Reg.QUAY_DOM_RESV fun s =>
    let d := fld s Reg.QUAY_DOM_SEL 11 0
    let x := domAt s d
    let n := wbits v 16 0
    if 65536 < resvTotal s - x.resv + n then errSynd s 0x0A 0x13 (masterOf src) d v.toNat
    else
      let need := n - domHeld s d
      let own := min need (x.own + poolFree s)
      redistribute (x.own - own) (setDom s d { x with resv := n, own })

/-- A write of QUAY_DOM_CAP (R64). -/
def domCapWrite (s : State) (src : Src) (v : Word) : State :=
  gateReg s src Reg.QUAY_DOM_CAP fun s =>
    let d := fld s Reg.QUAY_DOM_SEL 11 0
    setDom s d { domAt s d with cap := wbits v 16 0 }

def execDomResvWrite (src : Src) (v : Word) (s : State) : Res := .next (domResvWrite s src v)
def execDomCapWrite (src : Src) (v : Word) (s : State) : Res := .next (domCapWrite s src v)

/-! ## Function Level Reset and virtual functions (R44, R78, R546) -/

/-- The queues a function owns. -/
def queuesOf (s : State) (fn : Nat) : List Nat :=
  (s.quay.queues.filter fun e => qFunc e.2 == fn).map (·.1)

/-- A function's MSI-X state returns to reset (R546), and with it its PCIe control bits; Max Payload Size stays, as PCI Express has it
(PRESUMED). -/
def msixReset (s : State) (fn : Nat) : State :=
  let s := { s with quay := { s.quay with
    msix := s.quay.msix.filter fun e => e.1 / 2048 != fn
    pcie := tset {} s.quay.pcie fn { mps := (pcieOf s fn).mps }
    msixEn := member s.quay.msixEn fn false, msixMask := member s.quay.msixMask fn false } }
  (queuesOf s fn).foldl (fun s q =>
    setQueue s q { queueAt s q with coalCnt := 0, coalTimer := false }) s

/-- Every command of a queue ends silently, as R77 states, with its completion kept for the replay window (R78). The queue becomes
DISABLED once none is in flight, at once when none is (DEDUCED: until then it reads DRAINING, and R86 reports its end). A fetch
that the lost link has abandoned (R547) has brought no descriptor, so its context is given back without a completion (DESIGN
CHOICE). -/
def silence (s : State) (q : Nat) : State :=
  let l := s.quay.ctxs.filter fun e => e.2.q == q
  let s := l.foldl (fun s e => setCtx s e.1 { e.2 with silent := true }) s
  let s := if linkUp s (fnPort (qFunc (queueAt s q))) then s
    else (l.filter fun e => decide (e.2.phase = .fetching)).foldl (fun s e => releaseCtx s e.1 e.2.dom) s
  let v := queueAt s q
  let s := if qInfl s q = 0 && v.state ≠ .draining then setQueue s q { v with state := .disabled }
    else if v.state = .disabled then s else setQueue s q { v with state := .draining }
  drained (stopWhere s none (fun x => x.q == q) 0x08 (fun _ => 0x01)) q

/-- The reset of one function (R78, R546). -/
def resetFn (s : State) (fn : Nat) : State :=
  let s := (queuesOf s fn).foldl silence s
  let s := msixReset s fn
  { s with quay := { s.quay with flr := member s.quay.flr fn true } }

/-- The functions of a port that exist, its physical function first. -/
def portFns (s : State) (p : Nat) : List Nat :=
  (List.range (1 + (if p = 0 then s.quay.vf0 else s.quay.vf1))).map fun i => 128 * p + i

/-- Function Level Reset; of a physical function, of every function of its port (R78). -/
def flr (s : State) (fn : Nat) : State :=
  if !fnExists s fn then s
  else if fn % 128 = 0 then (portFns s (fnPort fn)).foldl resetFn s
  else resetFn s fn

/-- The FLR of a function is complete once none of its commands is in flight (R78, R86). A DMA transfer through one of its queues'
windows ends with it, since nothing is requested on the function's behalf any more (R78). -/
def flrDone (s : State) (fn : Nat) : State :=
  if s.quay.flr.contains fn && !(s.quay.ctxs.any fun e => qFunc (queueAt s e.2.q) == fn && e.2.silent) then
    let s := dmaCut s fun o => decide (o.dir ≠ 0 ∧ o.fn = fn)
    raiseInt { s with quay := { s.quay with flr := member s.quay.flr fn false } } 0x0A 8
  else s

/-- A configuration request reaches a function: none while its link is down, and before READY it is answered with Request Retry
Status and does nothing (R526). -/
def cfgRequest (s : State) (fn : Nat) (k : State → State) : State :=
  if !linkUp s (fnPort fn) then s else if !bootReady s then emit s (.retry fn) else k s

def execFlr (fn : FnNo) (s : State) : Res := .next (cfgRequest s fn.val fun s => flr s fn.val)
def execFlrDone (fn : FnNo) (s : State) : Res := .next (flrDone s fn.val)

def numVfs (s : State) (p : Nat) : Nat := if p = 0 then s.quay.vf0 else s.quay.vf1
def setVfs (s : State) (p n : Nat) : State :=
  { s with quay := if p = 0 then { s.quay with vf0 := n } else { s.quay with vf1 := n } }

/-- NumVFs is lowered to n, or VF Enable cleared (n = 0): each virtual function that ceases to exist is reset (R44). -/
def vfDisable (s : State) (p n : Nat) : State :=
  if numVfs s p ≤ n then s
  else
    let gone := (List.range (numVfs s p - n)).map fun i => 128 * p + n + 1 + i
    setVfs (gone.foldl resetFn s) p n

/-- VF Enable is set or NumVFs raised to n (R44). -/
def vfEnable (s : State) (p n : Nat) : State :=
  if numVfs s p < n then setVfs s p (min 127 n) else s

def execVfDisable (p : PortNo) (n : BitVec 7) (s : State) : Res :=
  .next (cfgRequest s (128 * p.val) fun s => vfDisable s p.val n.toNat)
def execVfEnable (p : PortNo) (n : BitVec 7) (s : State) : Res :=
  .next (cfgRequest s (128 * p.val) fun s => vfEnable s p.val n.toNat)

/-! ## Links (R42, R43, R82 to R84, R523, R547) -/


/-- The widest width a port advertises: values other than 1, 2, 4, 8 and 16 act as 16 (QUAY_LINK_CTRL). -/
def maxWidth (s : State) (p : Nat) : Nat :=
  let w := fld s (rk (8 + p) Reg.QUAY_LINK_CTRL) 8 4
  if [1, 2, 4, 8, 16].contains w then w else 16

/-- The highest speed a port advertises: values outside 1 to 6 act as 6. -/
def maxSpeed (s : State) (p : Nat) : Nat :=
  let v := fld s (rk (8 + p) Reg.QUAY_LINK_CTRL) 3 0
  if 1 ≤ v && v ≤ 6 then v else 6

/-- The limits the port advertises now, and those its link last trained under: they take effect at training only (R84). -/
def limitsNow (s : State) (p : Nat) : Nat := maxSpeed s p + 16 * maxWidth s p
def limits (s : State) (p : Nat) : Nat := tget 0x106 s.quay.lims p
def withLimits (s : State) (p : Nat) : State :=
  { s with quay := { s.quay with lims := tset 0x106 s.quay.lims p (limitsNow s p) } }

/-- QUAY_LINK_STAT of a link at a speed and width: within the limits it trained under, FLIT mode at 64 GT/s, an L0p width of x2 or
more (R42, R84). -/
def trained (s : State) (p : Nat) (t : LinkTrain) : Word :=
  let sp := max 1 (min t.speed.val (limits s p % 16))
  let w := min (2 ^ t.widthLog.val) (limits s p / 16)
  BitVec.ofNat 32 (sp + w * 16 + b2n (sp == 6) * 512 + 1024 + b2n (t.l0p && 2 ≤ w) * 2048)

def linkUpEvent (s : State) (p : Nat) (t : LinkTrain) : State :=
  if linkUp s p || !domOn s (14 + p) then s
  else
    let s := withLimits s p
    raiseInt (setReg s (rk (8 + p) Reg.QUAY_LINK_STAT) (trained s p t)) (8 + p) 2

/-- Speed or width changes while the data link layer stays up (R84). -/
def relink (s : State) (p : Nat) (w : Word) : State :=
  let k := rk (8 + p) Reg.QUAY_LINK_STAT
  let old := reg s k
  let s' := setReg s k w
  if wbits old 8 0 != wbits w 8 0 || wbit old 11 != wbit w 11 then raiseInt s' (8 + p) 4 else s'

/-- A write of QUAY_LINK_CTRL with RETRAIN 1 (R84). -/
def retrain (s : State) (src : Src) (p : Nat) (v : Word) (t : LinkTrain) : State :=
  gate s src (8 + p) Reg.QUAY_LINK_CTRL fun s =>
    let s := plainWrite s src (8 + p) Reg.QUAY_LINK_CTRL v
    if wbit v 9 && linkUp s p then
      let s := withLimits s p
      relink s p (trained s p { t with l0p := false })
    else s

/-- The link enters or leaves an L0p width, or changes otherwise (R84). -/
def linkWidthChange (s : State) (p : Nat) (t : LinkTrain) : State :=
  if linkUp s p then relink s p (trained s p t) else s

/-- A correctable or uncorrectable error is logged in AER (R82, QUAY_LINK_ERR). -/
def aerError (s : State) (p : Nat) (uncorr : Bool) : State :=
  if uncorr then raiseInt (countFault s (8 + p)) (8 + p) 8
  else bump s (rk (8 + p) Reg.QUAY_LINK_ERR) 15 0 1

/-- The source side of a command ends early (R548): a lane, pipeline or hash command releases what it can, a
composite sequence goes on to the step that lacks its source, any other ends. -/
def sourceEnds (s : State) (c status detail : Nat) : State :=
  match ctxAt s c with
  | none => s
  | some x =>
    match x.eng with
    | some (.cipher _) => setCtx s c { x with srcEnd := x.srcEnd <|> some (status, detail) }
    | some (.hash _) => setCtx s c { x with srcEnd := x.srcEnd <|> some (status, detail) }
    | some (.arcade _) => setCtx s c { x with stop := x.stop <|> some { status, detail, at' := 0 } }
    | _ =>
      if x.resv.isEmpty then finishS s c status detail 0
      else setCtx s c { x with srcEnd := x.srcEnd <|> some (status, detail) }

/-- A poisoned TLP is received (R82, R83, R84). -/
def poisoned (s : State) (p fn : Nat) (addr : BitVec 64) (c : Option CtxNo) (uncorr : Bool) : State :=
  let s := countFault s (8 + p)
  let s := errSynd s (8 + p) 0x10 0x20 fn addr.toNat
  let s := raiseInt s (8 + p) 16
  let s := if uncorr then aerError s p true else s
  match c with
  | some c => sourceEnds s c.val 0x08 0x03
  | none => s

/-- A register read of port p, whose completion is discarded when the link goes down (R547). -/
def fromPort (p : Nat) : Src → Bool
  | .port i => i.val == p
  | _ => false
def portRead (p : Nat) : RngReq → Bool
  | .read src => fromPort p src
  | .cmd _ => false

/-- The reads a port had issued are abandoned (R547): its queues' commands on a unit get no further source data, a DMA transfer from
host memory ends, and the register reads of the port that wait are discarded. -/
def abandon (s : State) (p : Nat) : State :=
  let s := { s with
    chk := { s.chk with sync := s.chk.sync.filter fun e => !fromPort p e.1 }
    fnt := { s.fnt with
      rng := s.fnt.rng.filter fun r => !portRead p r
      rngDone := s.fnt.rngDone.filter fun r => !portRead p r } }
  let s := dmaCut s fun o => decide (o.dir = 1 ∧ fnPort o.fn = p)
  (s.quay.ctxs.filter fun e =>
    fnPort (qFunc (queueAt s e.2.q)) == p && decide (e.2.phase = .placed ∨ e.2.phase = .running)
      && decide (e.2.srcIn.length < srcNeed e.2)).foldl (fun s e => sourceEnds s e.1 0x08 0x01) s

/-- A port's link goes down: every function of the port is reset, and its reads are abandoned (R43, R78, R547). -/
def linkDown (s : State) (p : Nat) : State :=
  if !linkUp s p then s
  else
    let s := setFld s (rk (8 + p) Reg.QUAY_LINK_STAT) 11 0 0
    raiseInt (abandon ((portFns s p).foldl resetFn s) p) (8 + p) 1

/-- PERST: the port's PHY, link and configuration space are reset, and every function of the port (R523). -/
def perst (s : State) (p : Nat) : State :=
  let s := if linkUp s p then linkDown s p else (portFns s p).foldl resetFn s
  setVfs { s with quay := { s.quay with pcie := s.quay.pcie.filter fun e => fnPort e.1 != p } } p 0

def execLinkDown (p : PortNo) (s : State) : Res := .next (linkDown s p.val)
def execLinkUp (p : PortNo) (tr : LinkTrain) (s : State) : Res := .next (linkUpEvent s p.val tr)
def execRetrain (src : Src) (p : PortNo) (v : Word) (tr : LinkTrain) (s : State) : Res :=
  .next (retrain s src p.val v tr)
def execLinkWidthChange (p : PortNo) (tr : LinkTrain) (s : State) : Res := .next (linkWidthChange s p.val tr)
def execAerErrorLogged (p : PortNo) (uncorr : Bool) (s : State) : Res := .next (aerError s p.val uncorr)
def execPoisonedTlp (p : PortNo) (fn : FnNo) (addr : BitVec 64) (ctx : Option CtxNo) (uncorr : Bool) (s : State) : Res :=
  .next (poisoned s p.val fn.val addr ctx uncorr)
def execPerst (p : PortNo) (s : State) : Res := .next (perst s p.val)

/-! ## Source data (R37, R38, R58 to R60, R548) -/

/-- The page of the sink that checks a command's source data (R38). -/
def sinkPage (x : Ctx) : Nat :=
  match x.eng with
  | some (.cipher u) => cunitPage u.val
  | some (.hash _) => 0x1A
  | some (.arcade u) => 0x20 + u.val
  | _ => if x.d.opcode < 0x60 then 0x28 else 0x2A

/-- A Seal failure at a page: one fault there, and the Kerb Seal source (R38). -/
def sealFault (s : State) (page : Nat) : State := kreport (countFault s page) { src := 7, info := page }

/-- Check the source segments that bytes up to n reach into, each in full before any byte of it moves (R59): the number of
segments passed and whether one was rejected. -/
def checkSegs (q : Queue) (write : Bool) (l : List Seg) (n : Nat) : Nat → Nat → Nat × Bool
  | 0, i => (i, false)
  | f + 1, i =>
    if segStart l i < n then
      match l[i]? with
      | none => (i, false)
      | some g => if covered q write g.addr g.len then checkSegs q write l n f (i + 1) else (i, true)
    else (i, false)

/-- The page of the port a queue's host data passes through. -/
def portPage (s : State) (q : Nat) : Nat := 8 + fnPort (qFunc (queueAt s q))

/-- Source bytes arrive at the Quay and pass in sealed beats to the engine (R36 to R38): the bytes before a failing beat are taken.
The segments were checked when the reads were issued (R59, R61); where the data ends at a rejected one, so does the source
(R60). A list shorter than the command's count leaves the rest to whatever arrives (R73). -/
def sourceArrive (s : State) (c : Nat) (b : Bytes) (hit : Option Hit) : State :=
  match ctxAt s c with
  | none => s
  | some x =>
    if (x.phase ≠ .placed && x.phase ≠ .running) || x.srcEnd.isSome || !linkUp s (fnPort (qFunc (queueAt s x.q))) then s
    else
      let p := sealPass (portPage s x.q) (sinkPage x) (some c) x.srcIn.length (b.take (srcGood x - x.srcIn.length)) hit
      let got := x.srcIn ++ p.1
      let s := setCtx s c { x with srcIn := got }
      let s := match x.eng with
        | some (.arcade n) => setAunit s n.val { aunit s n.val with mem := { (aunit s n.val).mem with input := got.take inputCap } }
        | _ => s
      if !p.2 then sourceEnds (sealFault s (sinkPage x)) c 0x08 0x02
      else if x.srcRej && decide (srcGood x ≤ got.length) then sourceEnds s c 0x04 0x01
      else s

def execSourceDataArrive (ctx : CtxNo) (bytes : Bytes) (hit : Option Hit) (s : State) : Res :=
  .next (sourceArrive s ctx.val bytes hit)

end Sys2Proof.Machine
end

