-- ==== Sys2Proof/Machine/Checks.lean ====
section
/-! DEFINITION. The Roundabout's acceptance checks 1 to 4 for every opcode (R93 to R98, R109, R112, R126, R127, R168,
R180, R189, R217, R221 to R243, R255 to R262): what each command's fields, keys and lengths must be. -/
namespace Sys2Proof.Machine
open Sys2Proof

/-- A failed check: the status and DETAIL the command ends with. -/
abbrev Fail := Option (Nat × Nat)

def failIf (b : Bool) (status detail : Nat) : Fail := if b then some (status, detail) else none

/-- The first failure of a list of checks (R109). -/
def firstFail : List Fail → Fail
  | [] => none
  | none :: l => firstFail l
  | some f :: _ => some f

/-! ## Check 1: OPCODE, MODE, codes in ARG, lifecycle state -/

/-- The opcodes of the catalogue (R93). -/
def opcodes : List Nat :=
  [0x00, 0x10, 0x11, 0x12, 0x13, 0x14, 0x15, 0x20, 0x21, 0x22, 0x30, 0x31, 0x32, 0x33, 0x34, 0x35, 0x40,
   0x50, 0x51, 0x52, 0x53, 0x54, 0x55, 0x56, 0x57, 0x58,
   0x60, 0x61, 0x62, 0x63, 0x64, 0x65, 0x66, 0x67, 0x68, 0x69, 0x6A]

def isCipherOp (op : Nat) : Bool := op == 0x10 || op == 0x11
def isPinOp (op : Nat) : Bool := op == 0x60 || op == 0x61 || op == 0x63
def pinFormat (n : Nat) : Bool := n == 0 || n == 1 || n == 3 || n == 4
def pinIn (d : Desc) : Nat := d.mode / 16
def pinOut (d : Desc) : Nat := d.mode % 16

/-- The MODE values an opcode takes (R94, R220, R255, R261); opcodes without one accept any. -/
def modeOk (op mode : Nat) : Bool :=
  if isCipherOp op then [1, 2, 3, 4, 5, 6, 0x11, 0x12, 0x20].contains mode
  else if op == 0x12 || op == 0x13 then [7, 0x17].contains mode
  else if op == 0x14 || op == 0x15 then [8, 9].contains mode
  else if op == 0x20 then decide (1 ≤ mode ∧ mode ≤ 7)
  else if op == 0x21 || op == 0x22 then decide (1 ≤ mode ∧ mode ≤ 5)
  else if op == 0x50 || op == 0x51 then decide (1 ≤ mode ∧ mode ≤ 5)
  else if op == 0x56 || op == 0x57 then mode == 1
  else if op == 0x52 || op == 0x53 || op == 0x54 || op == 0x55 then mode == 0
  else if op == 0x58 then decide (1 ≤ mode ∧ mode ≤ 3)
  else if isPinOp op then pinFormat (mode / 16) && pinFormat (mode % 16)
  else if op == 0x62 || op == 0x66 || op == 0x67 then mode == 0
  else if op == 0x64 then mode == 1 || mode == 2
  else if op == 0x65 then decide (1 ≤ mode ∧ mode ≤ 3)
  else if op == 0x68 || op == 0x69 || op == 0x6A then mode == 1 || mode == 2
  else true

/-- ARC_COMPUTE function codes by MODE (R261). -/
def arcFuncOk (mode f : Nat) : Bool :=
  if mode = 1 then decide (0x01 ≤ f ∧ f ≤ 0x05)
  else if mode = 2 then decide (0x11 ≤ f ∧ f ≤ 0x17)
  else decide (0x21 ≤ f ∧ f ≤ 0x25)

def usesHashCode (d : Desc) : Bool :=
  ((d.opcode == 0x50 || d.opcode == 0x51) && d.mode == 4) || d.opcode == 0x56 || d.opcode == 0x57
def hashCode (d : Desc) : Nat := bits d.arg 11 8
/-- hLen of a PSS or OAEP hash code (R256). -/
def hLen (d : Desc) : Nat := if hashCode d = 1 then 32 else if hashCode d = 2 then 48 else 64

def ff1Radix (d : Desc) : Nat := bits d.arg 8 0

/-- Codes in ARG are defined (R217, R240, R242, R245, R256, R261). -/
def argCodesOk (d : Desc) : Bool :=
  (!usesHashCode d || decide (1 ≤ hashCode d ∧ hashCode d ≤ 3))
    && (d.opcode != 0x58 || arcFuncOk d.mode (bits d.arg 7 0))
    && (!(d.opcode == 0x66 || d.opcode == 0x67) || decide (2 ≤ ff1Radix d ∧ ff1Radix d ≤ 256))
    && (d.opcode != 0x69 || (bits d.arg 2 1 != 3 && (d.mode != 2 || bits d.arg 2 1 == 0)))

/-- States in which only NOP, HASH and RNG_READ are allowed (R112, R189, R527). -/
def stateClosed (st : Nat) : Bool := st == 0 || st == 5 || st == 6 || st == 7
/-- Opcodes that make new key material (R189). -/
def makesKey (op : Nat) : Bool := [0x30, 0x31, 0x52, 0x53, 0x54, 0x55].contains op
def lifecycleRefuses (st op : Nat) : Bool :=
  (stateClosed st && !(op == 0x00 || op == 0x20 || op == 0x40)) || (st == 4 && makesKey op)

def check1 (st : Nat) (d : Desc) : Fail :=
  firstFail [failIf (!opcodes.contains d.opcode) 0x0B 0x01, failIf (!modeOk d.opcode d.mode) 0x0B 0x02,
    failIf (!argCodesOk d) 0x0B 0x03, failIf (lifecycleRefuses st d.opcode) 0x0B 0x04]

/-! ## Check 2: lengths (R98, R185, R217, R256) -/

def macLen (d : Desc) : Nat := bits d.arg 6 0
def duLog (d : Desc) : Nat := bits d.arg 4 0
def outLen (d : Desc) : Nat := bits d.arg 16 0
/-- Digest bytes of a hash MODE (R94). -/
def digestLen (mode : Nat) : Nat :=
  if mode = 1 then 32 else if mode = 2 then 48 else if mode = 3 then 64 else if mode = 4 then 32 else 64

/-- The largest payload length a command may have. -/
def maxLen (d : Desc) : Nat :=
  if isCipherOp d.opcode then
    (if d.mode = 3 then 2 ^ 36 else if d.mode = 4 then 2 ^ 36 - 32 else if d.mode = 6 then 2 ^ 24 - 1
     else if d.mode = 0x11 || d.mode = 0x12 then 2 ^ 23 else if d.mode = 0x20 then 2 ^ 38 - 64 else 2 ^ 40 - 1)
  else if (d.opcode = 0x12 || d.opcode = 0x13) && d.mode = 0x17 then 2 ^ 23
  else if d.opcode = 0x14 then 4096
  else if d.opcode = 0x15 then 4104
  else if d.opcode = 0x40 then 2 ^ 20
  else if d.opcode = 0x32 then 4096
  else if d.opcode = 0x60 || d.opcode = 0x61 || d.opcode = 0x63 then 0
  else if d.opcode = 0x62 then 16384
  else if d.opcode = 0x64 || d.opcode = 0x65 then 1024
  else if d.opcode = 0x66 || d.opcode = 0x67 then 256
  else if d.opcode = 0x68 then (if d.mode = 1 then 64 else 0)
  else if d.opcode = 0x69 then (if d.mode = 1 then 144 else 0)
  else if d.opcode = 0x6A then 112
  else 2 ^ 40 - 1

/-- The smallest n with radix^n at least 1,000,000 (R240). -/
def ff1Min (radix : Nat) : Nat := ((List.range 21).find? fun n => decide (1000000 ≤ radix ^ n)).getD 21

/-- The smallest payload length the composite opcodes accept, whose failure is DETAIL 0x01 (R217, R220, R240). -/
def compMin (d : Desc) : Nat :=
  if d.opcode = 0x64 || d.opcode = 0x65 then 1
  else if d.opcode = 0x66 || d.opcode = 0x67 then max 2 (ff1Min (ff1Radix d))
  else if d.opcode = 0x68 || d.opcode = 0x69 || d.opcode = 0x6A then maxLen d
  else 0

/-- A length in ARG is out of range (R96, R98, R181, R231, R239, R246, R256). -/
def argLenBad (d : Desc) : Bool :=
  if isCipherOp d.opcode then d.mode == 5 && !decide (9 ≤ duLog d ∧ duLog d ≤ 24)
  else if d.opcode = 0x12 || d.opcode = 0x13 then
    (if d.mode = 7 then !decide (8 ≤ macLen d ∧ macLen d ≤ 16) else !decide (4 ≤ macLen d ∧ macLen d ≤ 8))
  else if d.opcode = 0x20 then (d.mode == 6 || d.mode == 7) && !decide (1 ≤ outLen d ∧ outLen d ≤ 65536)
  else if d.opcode = 0x21 || d.opcode = 0x22 then !decide (16 ≤ macLen d ∧ macLen d ≤ digestLen d.mode)
  else if d.opcode = 0x31 then decide (40 < bits d.arg 5 0)
  else if d.opcode = 0x50 || d.opcode = 0x51 || d.opcode = 0x56 || d.opcode = 0x57 then decide (64 < bits d.arg 6 0)
  else if d.opcode = 0x62 then !decide (4 ≤ macLen d ∧ macLen d ≤ 16)
  else if d.opcode = 0x65 then decide (8 < bits d.arg 3 0)
  else if d.opcode = 0x6A then !decide (1 ≤ bits d.arg 21 16 ∧ bits d.arg 21 16 ≤ 32)
  else false

/-- A multiple or minimum rule on the payload length is broken (R98). -/
def lenRuleBad (d : Desc) : Bool :=
  if isCipherOp d.opcode then
    (if d.mode = 1 || d.mode = 2 then d.len % 16 != 0
     else if d.mode = 5 then d.len < 16 || (d.len % 2 ^ duLog d != 0 && d.len % 2 ^ duLog d < 16)
     else if d.mode = 0x11 || d.mode = 0x12 then d.len % 8 != 0 else false)
  else if d.opcode = 0x14 then (if d.mode = 8 then d.len < 16 || d.len % 8 != 0 else d.len < 1)
  else if d.opcode = 0x15 then d.len < (if d.mode = 8 then 24 else 16) || d.len % 8 != 0
  else if d.opcode = 0x40 then d.len < 1
  else if d.opcode = 0x32 then d.len < 56 || d.len % 8 != 0
  else false

def check2 (d : Desc) : Fail :=
  firstFail [failIf (decide (maxLen d < d.len) || decide (d.len < compMin d)) 0x03 0x01,
    failIf (argLenBad d) 0x03 0x03, failIf (lenRuleBad d) 0x03 0x04]

/-! ## Check 3: the parameter block and scatter-list reads (R91, R92) -/

/-- The command uses a parameter block (R93). -/
def usesParam (d : Desc) : Bool :=
  if d.opcode = 0x10 then d.mode == 5
  else if d.opcode = 0x11 then !(d.mode == 1 || d.mode == 0x11)
  else [0x13, 0x22, 0x30, 0x31, 0x32, 0x33].contains d.opcode || decide (0x50 ≤ d.opcode)

def check3 (q : Queue) (d : Desc) : Fail :=
  firstFail [failIf (usesParam d && !covered q false d.param 64) 0x04 0x05,
    failIf (d.srcSgl && !covered q false d.src (16 * d.srcN)) 0x04 0x03,
    failIf (d.dstSgl && !covered q false d.dst (16 * d.dstN)) 0x04 0x04]

/-- The segments of a scatter list (R91). -/
def sglSegs (b : Bytes) : Nat → List Seg
  | 0 => []
  | n + 1 => { addr := leAt b 0 8, len := leAt b 8 4 } :: sglSegs (b.drop 16) n

/-! ## Codes and lengths in the parameter block (R217, R222, R229, R236, R240, R262) -/

def panLen (x : Ctx) : Nat := byteAt x.param (if x.d.opcode = 0x64 || x.d.opcode = 0x65 then 0x0A else 0x05)
def panLenBad (x : Ctx) : Bool := !decide (12 ≤ panLen x ∧ panLen x ≤ 19)
def usesPan (d : Desc) : Bool := pinIn d != 1 || pinOut d != 1
def wkAlg (x : Ctx) : Nat := byteAt x.param 0x04
def lWords (x : Ctx) : Nat := leAt x.param 0 2
def eWords (x : Ctx) : Nat := leAt x.param 2 2
def curveCode (x : Ctx) : Nat := byteAt x.param 4
def ringCode (x : Ctx) : Nat := byteAt x.param 5
def pBits (x : Ctx) : Nat := leAt x.param 6 2
def curveH (x : Ctx) : Nat := byteAt x.param 8
def arcFunc (d : Desc) : Nat := bits d.arg 7 0

/-- The entry of the Curve Store a code names. -/
def curveEntry (code : Nat) : Option Nat := if 0x80 ≤ code ∧ code ≤ 0xBF then some (code - 0x80) else none

/-- Field bytes of a curve code and scalar bytes (R261). -/
def curveF (s : State) (code : Nat) : Nat :=
  if code = 1 then 32 else if code = 2 then 48 else if code = 3 then 66
  else match curveEntry code with
    | some e => match tfind s.curves e with
      | some c => (c.pbits + 7) / 8
      | none => 0
    | none => 0
def curveS (s : State) (code : Nat) : Nat :=
  if code = 1 then 32 else if code = 2 then 48 else if code = 3 then 66
  else match curveEntry code with
    | some e => match tfind s.curves e with
      | some c => (c.n.log2 + 1 + 7) / 8
      | none => 0
    | none => 0

/-- The source size of an ARC_COMPUTE function (R261). -/
def arcSrcLen (s : State) (x : Ctx) : Nat :=
  let b := 8 * lWords x
  let f := curveF s (curveCode x)
  let sc := curveS s (curveCode x)
  match arcFunc x.d with
  | 0x01 => 3 * b | 0x02 => 3 * b | 0x03 => 3 * b | 0x04 => 2 * b | 0x05 => 2 * b + 8 * eWords x
  | 0x11 => 4 * f | 0x12 => 2 * f | 0x13 => sc + 2 * f | 0x14 => sc | 0x15 => 2 * f
  | 0x16 => 6 * ((pBits x + 7) / 8) | 0x17 => 0
  | 0x21 => 1024 | 0x22 => 1024 | _ => 2048

/-- The output size of an ARC_COMPUTE function. -/
def arcDstLen (s : State) (x : Ctx) : Nat :=
  let f := curveF s (curveCode x)
  match arcFunc x.d with
  | 0x11 => 2 * f | 0x12 => 2 * f | 0x13 => 2 * f | 0x14 => 2 * f
  | 0x15 => 0 | 0x16 => 0 | 0x17 => 0
  | n => if n < 0x10 then 8 * lWords x else 1024

def wordsBad (n : Nat) : Bool := !decide (1 ≤ n ∧ n ≤ 256)

/-- The parameter block of ARC_COMPUTE (R262), then the source length (R261). -/
def checkArcParam (s : State) (x : Ctx) : Fail :=
  let d := x.d
  let f := arcFunc d
  let code := curveCode x
  let entry := curveEntry code
  let held := entry.bind (tfind s.curves)
  firstFail [
    failIf (d.mode == 1 && (wordsBad (lWords x) || (f == 5 && wordsBad (eWords x)))) 0x03 0x07,
    failIf (d.mode == 2 && f == 0x16 &&
      !decide (160 ≤ pBits x ∧ pBits x ≤ 1024)) 0x03 0x07,
    failIf (d.mode == 2 && (if f == 0x16 || f == 0x17 then entry.isNone
      else !(code == 1 || code == 2 || code == 3 || entry.isSome))) 0x0B 0x03,
    failIf (d.mode == 3 && !(ringCode x == 1 || ringCode x == 2)) 0x0B 0x03,
    failIf (d.mode == 2 && entry.isSome && f != 0x16 && held.isNone) 0x0B 0x03,
    failIf (d.mode == 2 && held.any fun c => c.dom != x.dom) 0x0C 0x20,
    failIf (d.len != arcSrcLen s x) 0x03 0x01]

def isDukpt (op : Nat) : Bool := op == 0x61 || op == 0x62 || op == 0x63

/-- The binding that operand 0's slot holds, as the checks before check 4 see it; 0 when it holds no key. -/
def heldAlg (s : State) (d : Desc) : Nat := if isLive (slotAt s (hSlot d.handle)) then (slotAt s (hSlot d.handle)).alg else 0

/-- WK_ALG is undefined, or names a binding with more material bits than an AES operand 0; a TDES-2KEY operand 0 ignores it (R229). -/
def wkAlgBad (s : State) (x : Ctx) : Bool :=
  let a := heldAlg s x.d
  a != 8 && (!([1, 2, 3, 8, 9].contains (wkAlg x)) || (isAes a && decide (algBits a < algBits (wkAlg x))))

/-- The range of MAC_LEN under a working key (R231). -/
def macRange (w n : Nat) : Bool := if isAes w then decide (8 ≤ n ∧ n ≤ 16) else decide (4 ≤ n ∧ n ≤ 8)

/-- MAC_LEN of DUKPT_MAC_VERIFY at check 2, where operand 0's binding alone decides its range (R217, R231). -/
def checkMacLen (s : State) (d : Desc) : Fail := failIf (d.opcode == 0x62 && heldAlg s d == 8 && !macRange 8 (macLen d)) 0x03 0x03

/-- MAC_LEN where WK_ALG, which only the parameter block gives, decides its range. DEDUCED: it is then checked as soon as WK_ALG has
been read; R217 puts a length in ARG at check 2, before that. -/
def macLenBad (s : State) (x : Ctx) : Bool := x.d.opcode == 0x62 && heldAlg s x.d != 8 && !macRange (wkAlg x) (macLen x.d)

/-- Codes and lengths in the parameter block, after check 3 (R217). -/
def checkParam (s : State) (x : Ctx) : Fail :=
  let d := x.d
  if isDukpt d.opcode then
    firstFail [failIf (wkAlgBad s x) 0x0B 0x03, failIf (macLenBad s x) 0x03 0x03,
      failIf (d.opcode != 0x62 && usesPan d && panLenBad x) 0x03 0x07]
  else if isPinOp d.opcode then failIf (usesPan d && panLenBad x) 0x03 0x07
  else if d.opcode = 0x64 || d.opcode = 0x65 then failIf (panLenBad x) 0x03 0x07
  else if d.opcode = 0x66 || d.opcode = 0x67 then failIf (decide (56 < byteAt x.param 0)) 0x03 0x07
  else if d.opcode = 0x58 then checkArcParam s x
  else none

/-! ## Check 4: the key operands (R109, R126, R168, R170, R180) -/

/-- One operand of a command: its handle, what it must be, and for a target the key to be written. -/
inductive Operand where
  /-- A key that is used: allowed usage classes (empty for any) and a test of its binding. -/
  | use (handle : Nat) (usages : List Nat) (algOk : Nat → Bool)
  /-- ROOT, or a key that is used (R168, R185, R186). -/
  | rootOr (handle : Nat) (usages : List Nat) (algOk : Nat → Bool)
  /-- A slot to be written with a template (none while the binding is not yet known), refused when bad (R180). -/
  | target (handle : Nat) (alg : Option Nat) (bad : Bool)

def opHandle (x : Ctx) (off : Nat) : Nat := leAt x.param off 4
def anyAlg (_ : Nat) : Bool := true
def eqAlg (l : List Nat) (a : Nat) : Bool := l.contains a

/-- Bindings of a cipher MODE (R125). -/
def modeAlg (mode a : Nat) : Bool :=
  if mode = 5 then a == 4 || a == 5
  else if mode = 0x11 || mode = 0x12 || mode = 0x17 then isTdes a
  else if mode = 0x20 then a == 0x0C
  else isAes a

/-- Bindings of operand 0 of an Arcade opcode and MODE (R255). -/
def pkAlgs (op mode : Nat) : List Nat :=
  if op = 0x50 then
    (if mode = 1 then [0x40, 0x42, 0x44] else if mode = 2 then [0x48]
     else if mode = 5 then [0x64, 0x66] else [0x50, 0x52, 0x54])
  else if op = 0x51 then
    (if mode = 1 then [0x41, 0x43, 0x45] else if mode = 2 then [0x49]
     else if mode = 5 then [0x65, 0x67] else [0x51, 0x53, 0x55])
  else if op = 0x53 then [0x40, 0x42, 0x44, 0x46]
  else if op = 0x54 then [0x61, 0x63]
  else if op = 0x55 then [0x60, 0x62]
  else if op = 0x56 then [0x51, 0x53, 0x55]
  else [0x50, 0x52, 0x54]

/-- Templates a shared secret accepts, by the binding of operand 0 (R259). -/
def secretTemplateOk (alg t : Nat) : Bool :=
  if alg = 0x42 || alg = 0x44 then t == 0x1A else t == 0x03 || t == 0x19

def privateAlgs : List Nat := [0x40, 0x42, 0x44, 0x46, 0x48, 0x50, 0x52, 0x54, 0x60, 0x62, 0x64, 0x66]

/-- The public key PK_KEYPAIR writes (R258). -/
def publicTemplate (x : Ctx) : Slot :=
  let t := templateOf x.param
  { usage := byteAt x.param 0x14 % 16, alg := t.alg + 1, exp := bitAt (byteAt x.param 0x14) 4
    epEn := t.epEn, epFirst := t.epFirst, epLast := t.epLast }

/-- Bindings of a PIN key for a format (R221). -/
def pinAlg (fmt a : Nat) : Bool := if fmt = 4 then isAes a else isTdes a

/-- The key operands of a command in index order (R92, R93, R220, R255). -/
def operands (s : State) (x : Ctx) : List Operand :=
  let d := x.d
  let h := d.handle
  let t := templateOf x.param
  let src := slotAt s (hSlot h)
  let noExport := !src.exp && t.exp
  match d.opcode with
  | 0x10 => [.use h [uENCRYPT] (modeAlg d.mode)]
  | 0x11 => [.use h [uDECRYPT] (modeAlg d.mode)]
  | 0x12 => [.use h [uMACGEN] (modeAlg d.mode)]
  | 0x13 => [.use h [uMACVER] (modeAlg d.mode)]
  | 0x14 => [.use h [uWRAP] isAes]
  | 0x15 => [.use h [uUNWRAP] isAes]
  | 0x21 => [.use h [uMACGEN] isHmac]
  | 0x22 => [.use h [uMACVER] isHmac]
  | 0x30 => [.target h (some t.alg) (templateBad t || decide (0x40 ≤ t.alg))]
  | 0x31 => [.use h [uDERIVE] anyAlg,
             .target (opHandle x 0x10) (some t.alg) (templateBad t || decide (0x40 ≤ t.alg) || noExport)]
  | 0x32 => [.rootOr h [uUNWRAP] isAes, .target (opHandle x 0) none false]
  | 0x33 => [.rootOr h [uWRAP] isAes, .use (opHandle x 0) [] anyAlg]
  | 0x34 => [.target h none false]
  | 0x35 => [.use h [] anyAlg]
  | 0x50 => [.use h [uSIGN] (eqAlg (pkAlgs d.opcode d.mode))]
  | 0x51 => [.use h [uVERIFY] (eqAlg (pkAlgs d.opcode d.mode))]
  | 0x52 =>
    let bad := templateBad t || !privateAlgs.contains t.alg
    let p := publicTemplate x
    .target h (some t.alg) (bad || !usageOk p.alg p.usage) ::
      (if opHandle x 0x10 = 0 then [] else [.target (opHandle x 0x10) (some (t.alg + 1)) false])
  | 0x53 => [.use h [uAGREE] (eqAlg (pkAlgs 0x53 0)),
             .target (opHandle x 0x10) (some t.alg) (templateBad t || !secretTemplateOk src.alg t.alg)]
  | 0x54 => [.use h [uAGREE] (eqAlg (pkAlgs 0x54 0)),
             .target (opHandle x 0x10) (some t.alg) (templateBad t || !secretTemplateOk src.alg t.alg)]
  | 0x55 => [.use h [uAGREE] (eqAlg (pkAlgs 0x55 0)),
             .target (opHandle x 0x10) (some t.alg) (templateBad t || !secretTemplateOk src.alg t.alg)]
  | 0x56 => [.use h [uENCRYPT] (eqAlg (pkAlgs 0x56 1))]
  | 0x57 => [.use h [uDECRYPT] (eqAlg (pkAlgs 0x57 1))]
  | 0x60 => [.use h [uPIN] (pinAlg (pinIn d)), .use (opHandle x 0) [uPIN] (pinAlg (pinOut d))]
  | 0x61 => [.use h [uDERIVE] (fun a => isAes a || a == 8), .use (opHandle x 0) [uPIN] (pinAlg (pinOut d))]
  | 0x62 => [.use h [uDERIVE] (fun a => isAes a || a == 8)]
  | 0x63 => [.use h [uDERIVE] (fun a => isAes a || a == 8), .use (opHandle x 0) [uPIN] (pinAlg (pinIn d))]
  | 0x64 => [.use h [uDERIVE] (fun a => if d.mode = 1 then a == 8 else isAes a)]
  | 0x65 => [.use h [uDERIVE] (fun a => if d.mode = 3 then isAes a else a == 8)]
  | 0x66 => [.use h [uENCRYPT] isAes]
  | 0x67 => [.use h [uDECRYPT] isAes]
  | 0x68 => [.use h [uDERIVE] (· == 1), .use (opHandle x 0) [uDERIVE] (· == 0x18)]
  | 0x69 => [.use h [uDERIVE] (fun a => a == 0x18 || a == 0x19), .use (opHandle x 0) [uDERIVE] (· == 0x19)]
  | 0x6A =>
    if d.mode = 1 then [.use h [uDERIVE] (· == 1), .use (opHandle x 0) [uDERIVE] (· == 0x18)]
    else [.use h [uDERIVE] (fun a => a == 0x18 || a == 0x19), .use (opHandle x 0) [uDERIVE] (· == 0x19)]
  | _ => []

/-- A slot is assigned to a domain (R170). -/
def inDomain (s : State) (slot dom : Nat) : Bool := (slotAt s slot).asg && (slotAt s slot).dom == dom

/-- Key parts compared without the parity bit of each byte (R126). -/
def sameKeyPart (a b : Bytes) : Bool := (a.map fun c => c.toNat / 2) == b.map fun c => c.toNat / 2

/-- Material the lanes refuse (R126): equal XTS halves, degenerate TDES parts. -/
def weakKey (alg : Nat) (mat : Bytes) : Bool :=
  if alg = 4 then mat.take 16 == mat.drop 16
  else if alg = 5 then mat.take 32 == mat.drop 32
  else if isTdes alg then
    sameKeyPart (sl mat 0 8) (sl mat 8 8) || (alg == 9 && sameKeyPart (sl mat 8 8) (sl mat 16 8))
  else false

/-- The check of an operand that is used: pseudo-handles, DOMAIN, KEY_REVOKED, KEY_USAGE (R109, R168). -/
def checkUse (s : State) (dom i h : Nat) (usages : List Nat) (algOk : Nat → Bool) : Fail :=
  let v := slotAt s (hSlot h)
  if hGen h = 0 then some (if h = 1 then 0x01 else 0x02, i)
  else firstFail [failIf (!inDomain s (hSlot h) dom) 0x0C i,
    failIf (!isLive v || v.gen != hGen h) 0x02 i,
    failIf ((!usages.isEmpty && !usages.contains v.usage) || !algOk v.alg || weakKey v.alg v.mat) 0x01 i]

/-- The check of a target (R180). -/
def checkTarget (s : State) (dom i h : Nat) (alg : Option Nat) (bad : Bool) : Fail :=
  let v := slotAt s (hSlot h)
  let run := (alg.map algRun).getD 1
  if hGen h = 0 then some (if h = 1 then 0x01 else 0x02, i)
  else firstFail [failIf (!inDomain s (hSlot h) dom) 0x0C i,
    failIf (v.gen != hGen h || isCont v) 0x02 i,
    failIf bad 0x01 0x10, failIf (hSlot h % run != 0) 0x01 0x10,
    failIf ((List.range run).any fun n => !inDomain s (hSlot h + n) dom) 0x0C i]

/-- The check of operand i. -/
def checkOperand (s : State) (dom i : Nat) : Operand → Fail
  | .use h u a => checkUse s dom i h u a
  | .rootOr h u a => if h = 1 then failIf s.life.root.isNone 0x02 i else checkUse s dom i h u a
  | .target h a b => checkTarget s dom i h a b

def check4From (s : State) (dom : Nat) : Nat → List Operand → Fail
  | _, [] => none
  | i, o :: l => match checkOperand s dom i o with
    | some f => some f
    | none => check4From s dom (i + 1) l

/-- Check 4: each operand in index order. -/
def check4 (s : State) (x : Ctx) : Fail := check4From s x.dom 0 (operands s x)

/-- The operands as captured at check 4 (R113): a key that is used with the whole of its run. -/
def capture (s : State) (l : List Operand) : List KeyOp :=
  let used (h : Nat) : KeyOp := {
    handle := h, slot := hSlot h, gen := hGen h, run := if hGen h = 0 then 1 else algRun (slotAt s (hSlot h)).alg }
  l.map fun o => match o with
    | .use h _ _ => used h
    | .rootOr h _ _ => used h
    | .target h a _ => { handle := h, slot := hSlot h, gen := hGen h, target := true, run := (a.map algRun).getD 1 }

/-! ## Checks after check 4 (R127, R186, R226, R228, R229, R231, R257) -/

/-- Key operand n's slot, as captured. -/
def keySlot (s : State) (x : Ctx) (n : Nat) : Slot :=
  match x.keys[n]? with
  | some k => slotAt s k.slot
  | none => {}

/-- RSA modulus bytes of a binding. -/
def rsaK (alg : Nat) : Nat := if alg < 0x52 then 256 else if alg < 0x54 then 384 else 512
/-- Coordinate bytes of an EC binding. -/
def ecF (alg : Nat) : Nat := if alg < 0x42 then 32 else if alg < 0x44 then 48 else if alg < 0x46 then 66 else 32

/-- Bytes of a signature under a binding (R255). -/
def sigLen (alg : Nat) : Nat :=
  if alg < 0x46 then 2 * ecF alg else if alg < 0x50 then 64 else if alg < 0x60 then rsaK alg
  else if alg < 0x66 then 3309 else 4627

/-- Bytes of a public key at the device's edge, by its private or public binding (R255). -/
def pubLen (alg : Nat) : Nat :=
  if alg < 0x46 then 2 * ecF alg else if alg < 0x50 then 32 else if alg < 0x60 then rsaK alg + 8
  else if alg < 0x62 then 1184 else if alg < 0x64 then 1568 else if alg < 0x66 then 1952 else 2592

/-- Bytes of an ML-KEM ciphertext. -/
def kemCt (alg : Nat) : Nat := if alg < 0x62 then 1088 else 1568

/-- The source a signature opcode takes is of a permitted length (R255). -/
def signSrcOk (d : Desc) (alg n : Nat) : Bool :=
  if d.mode = 1 then decide (1 ≤ n ∧ n ≤ 64)
  else if d.mode = 2 || d.mode = 5 then decide (n ≤ 2 ^ 20)
  else if d.mode = 3 then decide (1 ≤ n ∧ n ≤ rsaK alg - 11)
  else n == hLen d

/-- Lengths that depend on operand 0's binding (R257). -/
def pkLenBad (d : Desc) (alg : Nat) (t : Slot) : Bool :=
  match d.opcode with
  | 0x50 => !signSrcOk d alg d.len
  | 0x51 => d.len < sigLen alg || !signSrcOk d alg (d.len - sigLen alg)
  | 0x52 => d.len < pubLen t.alg
  | 0x53 => d.len != (if alg = 0x46 then 32 else 2 * ecF alg)
  | 0x54 => d.len < kemCt alg
  | 0x55 => d.len != kemCt alg
  | 0x56 => decide (rsaK alg < d.len + 2 * hLen d + 2)
  | 0x57 => d.len != rsaK alg
  | _ => false

/-- The blob length of a key (R190). -/
def blobLen (alg : Nat) : Nat := 16 + (32 + algBytes alg + 7) / 8 * 8 + 8

/-- The transaction counter of a KSN: 32 bits under AES DUKPT, 21 under TDES (R228, R229). -/
def ksnCounter (tdes : Bool) (param : Bytes) : Nat :=
  if tdes then be (sl param 0x14 10) % 2 ^ 21 else be (sl param 0x14 12) % 2 ^ 32
def popCount (n w : Nat) : Nat := (bitsOf n w).length
/-- A DUKPT counter is valid (R228). -/
def dukptValid (tdes : Bool) (c : Nat) : Bool := c != 0 && decide (popCount c 32 ≤ if tdes then 10 else 16)

/-- The working key's binding (R229). -/
def workAlg (x : Ctx) (alg0 : Nat) : Nat := if alg0 = 8 then 8 else wkAlg x

/-- The checks of the DUKPT opcodes after check 4 (R221, R228, R229). -/
def checkDukpt (s : State) (x : Ctx) : Fail :=
  let a := (keySlot s x 0).alg
  let tdes := a == 8
  let w := workAlg x a
  let fmt := if x.d.opcode = 0x61 then pinIn x.d else pinOut x.d
  firstFail [
    failIf (x.d.opcode != 0x62 && !pinAlg fmt w) 0x01 0,
    failIf (x.d.opcode != 0x63 && !dukptValid tdes (ksnCounter tdes x.param)) 0x03 0x08]

/-- The checks made directly after check 4. -/
def checkAfter (s : State) (x : Ctx) : Fail :=
  let d := x.d
  let a := (keySlot s x 0).alg
  if d.opcode = 0x11 && d.mode = 3 then
    failIf (decide (2 ^ 32 < be (sl x.param 12 4) + (d.len + 15) / 16)) 0x03 0x06
  else if d.opcode = 0x33 then
    firstFail [failIf (x.d.handle != 1 && !(keySlot s x 1).exp) 0x01 0x01,
      failIf (decide (d.len < blobLen (keySlot s x 1).alg)) 0x03 0x01]
  else if 0x50 ≤ d.opcode ∧ d.opcode ≤ 0x57 then failIf (pkLenBad d a (templateOf x.param)) 0x03 0x01
  else firstFail [
    if isDukpt d.opcode then checkDukpt s x else none,
    failIf (isPinOp d.opcode && pinOut d == 1 && pinIn d != 1 && !rbit s Reg.COMP_CTRL 0) 0x01 0x11]

/-- The length of the single destination segment when no scatter list is given (R91, R94). -/
def dstLen (s : State) (x : Ctx) : Nat :=
  let d := x.d
  let a := (keySlot s x 0).alg
  if isCipherOp d.opcode then d.len
  else match d.opcode with
    | 0x12 => macLen d
    | 0x14 => if d.mode = 8 then d.len + 8 else roundUp d.len 8 + 8
    | 0x15 => d.len - 8
    | 0x20 => if d.mode = 6 || d.mode = 7 then outLen d else digestLen d.mode
    | 0x21 => macLen d
    | 0x33 => blobLen (keySlot s x 1).alg
    | 0x40 => d.len
    | 0x50 => sigLen a
    | 0x52 => pubLen (templateOf x.param).alg
    | 0x54 => kemCt a
    | 0x56 => rsaK a
    | 0x57 => rsaK a
    | 0x58 => arcDstLen s x
    | 0x66 => d.len | 0x67 => d.len
    | 0x68 => d.len | 0x69 => d.len | 0x6A => d.len
    | _ => 0

end Sys2Proof.Machine
end

