-- ==== Sys2Proof/Machine/Output.lean ====
section
/-! DEFINITION. A command's output on its way to the destination segments: each segment is one access, checked whole before
any byte of it is written (R59, R60, R91). -/
namespace Sys2Proof.Machine
open Sys2Proof

/-- Write the bytes of an output that fall at offset `at'`, segment by segment, with the Relaxed Ordering the function has enabled
(R57). DESIGN CHOICE: bytes past the end of a scatter list shorter than the output are written nowhere, and the command ends as if
they were; R73 leaves the data of such a command open. -/
def writeSegs (s : State) (fn : Nat) : List Seg → Nat → Bytes → State
  | [], _, _ => s
  | g :: l, at', b =>
    if b.isEmpty then s
    else if at' < g.len then
      let n := g.len - at'
      writeSegs (hostWrite s fn (g.addr + at') (b.take n) (pcieOf s fn).ro) fn l 0 (b.drop n)
    else writeSegs s fn l (at' - g.len) b

/-- Output of the command in context c passes in sealed beats from its unit to the Quay, whose page counts a failure (DESIGN CHOICE:
page 0x0A), and is written after what has been written already: the failing status and DETAIL, if any, and the state with the bytes
before a rejected access or a failing beat written (R37, R38, R59, R60). -/
def putDst (s : State) (c : Nat) (b : Bytes) (hit : Option Hit) : Option (Nat × Nat) × State :=
  match ctxAt s c with
  | none => (none, s)
  | some x =>
    let q := queueAt s x.q
    let p := sealPass (sinkPage x) 0x0A (some c) x.wrote b hit
    let r := checkSegs q true x.dsts (x.wrote + p.1.length) (x.dsts.length + 1) x.dstChk
    let limit := if r.2 then segStart x.dsts r.1 else x.wrote + p.1.length
    let out := p.1.take (limit - x.wrote)
    let s := setCtx s c { x with wrote := x.wrote + out.length, dstChk := r.1 }
    let s := writeSegs s (qFunc q) x.dsts x.wrote out
    if r.2 then (some (0x04, 0x02), s)
    else if p.2 then (none, s)
    else (some (0x08, 0x02), sealFault s 0x0A)

/-- Bytes a command reports when its output fails: the payload consumed by a MAC or hash command, the bytes written by any other
(R106). -/
def bytesAtFail (x : Ctx) : Nat := if [0x12, 0x20, 0x21].contains x.d.opcode then x.d.len else x.wrote

/-- A command that writes its whole output at its end: its completion on success, otherwise the failure's status with the bytes
completed (R38, R60, R106). -/
def finishOut (s : State) (c : Nat) (b : Bytes) (f : CmdEnd) (hit : Option Hit) : State :=
  let s := match ctxAt s c with
    | some x => if x.d.dstSgl then s else setCtx s c { x with dsts := [{ addr := x.d.dst, len := b.length }] }
    | none => s
  let r := putDst s c b hit
  match r.1 with
  | none => finish r.2 c f
  | some (st, dt) => finishS r.2 c st dt (((ctxAt r.2 c).map bytesAtFail).getD 0)

end Sys2Proof.Machine
end

