-- ==== Sys2Proof/Machine/Fountain.lean ====
section
/-! DEFINITION. The Fountain: noise samples and health tests, conditioner, expander, private wires and software port
(chapter 8). -/
namespace Sys2Proof.Machine
open Sys2Proof

/-- The state with the Fountain replaced. -/
def setFnt (s : State) (f : Fnt) : State := { s with fnt := f }

/-! ## Whether an instance serves (R289, R293, R301) -/

/-- The requests an instance serves from one seed (R289). -/
def seedLimit : Nat := 2 ^ 24
/-- An instance serves: instantiated, not at its request limit, no on-demand test running. -/
def drbgServes (f : Fnt) (d : Drbg) : Bool := d.on && decide (d.reqs < seedLimit) && !f.katBusy
/-- The private wires are served (R297 step 3). -/
def intServing (s : State) : Bool := drbgServes s.fnt s.fnt.int
/-- The software port is served. -/
def swServing (s : State) : Bool := drbgServes s.fnt s.fnt.sw

/-! ## CTR_DRBG with AES-256 (SP 800-90A, R288) -/

/-- The next counter block V + 1 modulo 2^128. -/
def incV (v : Bytes) : Bytes := toBe 16 ((be v + 1) % 2 ^ 128)

/-- n output blocks from a key and V, with the V they end at. -/
def drbgBlocks (key : Bytes) : Nat → Bytes → List Bytes × Bytes
  | 0, v => ([], v)
  | n + 1, v =>
    let v := incV v
    let r := drbgBlocks key n v
    (blockFn false false key v :: r.1, r.2)

/-- The update step with 48 bytes of data. -/
def drbgUpdate (d : Drbg) (data : Bytes) : Drbg :=
  let t := xorBytes (fit 48 (cat (drbgBlocks d.key 3 d.v).1)) data
  { d with key := t.take 32, v := t.drop 32 }

/-- Instantiation and reseeding take the 48-byte seed as it is (no derivation function). -/
def drbgSeed (d : Drbg) (seed : Bytes) : Drbg :=
  let base := if d.on then d else { d with key := fill 32 0, v := fill 16 0 }
  { drbgUpdate base (fit 48 seed) with on := true, reqs := 0 }

/-- One generate request of n bytes: its output and the instance after its update (R288). -/
def drbgRequest (d : Drbg) (n : Nat) : Bytes × Drbg :=
  let r := drbgBlocks d.key ((n + 15) / 16) d.v
  (fit n (cat r.1), { drbgUpdate { d with v := r.2 } (fill 48 0) with reqs := d.reqs + 1 })

/-! ## Start-up (R297 to R300) -/

/-- Start-up begins at step 1: everything collected is dropped and the configuration takes effect (R282, R297). -/
def fountainStart (s : State) : State :=
  let x := rbit s Reg.FNT_CFG 0
  setFnt s { s.fnt with
    begun := true, state := 1, tries := 0, settled := false, katOk := false
    xorEn := x, vnEn := rbit s Reg.FNT_CFG 1, hClaim := max 1 (fld s Reg.FNT_CFG 15 8)
    streams := List.replicate (if x then 1 else 4) {}
    passed := 0, noCredit := false, absorbed := [], credit := 0, seed := [], swTurn := false
    int := {}, sw := {}, katBusy := true, intRun := 0, part := [] }

/-- Step 2 begins once the cells have settled and the known-answer test has passed. -/
def startupTest (s : State) : State :=
  if s.fnt.state = 1 && s.fnt.settled && s.fnt.katOk then
    setFnt s { s.fnt with state := 2, tries := s.fnt.tries + 1, passed := 0 }
  else s

/-- The settling period ends (R297 step 1). -/
def settleEnd (s : State) : State :=
  if s.fnt.begun && s.fnt.state = 1 && !s.fnt.settled then
    startupTest (setFnt s { s.fnt with settled := true })
  else s

/-- 3 ms have passed without the first seed (R298). -/
def startupTimeout (s : State) : State :=
  if s.fnt.begun && s.fnt.state < 4 && !s.fnt.int.on then
    let t := s.fnt.tries
    let s := countFault (errSynd s 0x2C 0x12 0x20 t 0) 0x2C
    if s.fnt.state = 5 then s else fountainFail s
  else s

def execFountainSettleEnd (s : State) : Res := .next (settleEnd s)
def execStartupTimeout (s : State) : Res := .next (startupTimeout s)

/-! ## Health tests (R283 to R286) -/

def rctCutoff (s : State) : Nat := max 2 (fld s Reg.FNT_RCT 7 0)
def aptCutoff (s : State) : Nat := min 1024 (max 2 (fld s Reg.FNT_APT 10 0))

/-- One sample of a stream tested: the stream, and whether the repetition count and the adaptive proportion test fail. -/
def testSample (rct apt : Nat) (f : FStream) (b : Bool) : FStream × Bool × Bool :=
  let run := if f.run ≠ 0 && f.last == b then f.run + 1 else 1
  let rctBad := decide (rct ≤ run)
  let start := decide (f.tested % 1024 = 0)
  let first := if start then b else f.first
  let cnt := if start then 1 else if b == f.first then f.cnt + 1 else f.cnt
  let done := !start && f.aptDone
  let aptBad := !done && decide (apt ≤ cnt)
  ({ f with tested := f.tested + 1, last := b, run := if rctBad then 0 else run
            first, cnt, aptDone := done || aptBad }, rctBad, aptBad)

/-- A health-test failure (R284, R285). -/
def healthFail (s : State) (apt : Bool) (cell count : Nat) : State :=
  let s := bump s Reg.FNT_HEALTH_CNT (if apt then 31 else 15) (if apt then 16 else 0) 1
  let s := raiseInt s 0x2C (if apt then 2 else 1)
  let s := errSynd s 0x2C 0x10 0x20 (cell + 256 * b2n apt) count
  let s := countFault s 0x2C
  if s.fnt.state = 5 then s
  else if s.fnt.state = 2 then setFnt s { s.fnt with passed := 0, tries := s.fnt.tries + 1, noCredit := true }
  else setFnt s { s.fnt with absorbed := [], credit := 0, noCredit := true }

/-- Test one sample of stream i. -/
def sampleStream (s : State) (i : Nat) (b : Bool) : State :=
  let f := s.fnt.streams.getD i {}
  let r := testSample (rctCutoff s) (aptCutoff s) f b
  let cell := if s.fnt.xorEn then 15 else i
  let s := setFnt s { s.fnt with streams := s.fnt.streams.set i r.1 }
  let s := if r.2.1 then healthFail s false cell f.tested else s
  if r.2.2 then healthFail s true cell f.tested else s

/-- The von Neumann debiaser on one stream: the stream after the bit, and the output bit (R280). -/
def debias (f : FStream) (b : Bool) : FStream × List Bool :=
  match f.half with
  | none => ({ f with half := some b }, [])
  | some a => ({ f with half := none }, if a == b then [] else [a])

/-- A sample passes to the conditioner with its credit (R280, R281). -/
def absorbSample (s : State) (i : Nat) (b : Bool) : State :=
  let f := s.fnt.streams.getD i {}
  let r := if s.fnt.vnEn then debias f b else (f, [b])
  let credit := if s.fnt.noCredit then 0 else s.fnt.hClaim
  setFnt s { s.fnt with
    streams := s.fnt.streams.set i r.1
    absorbed := s.fnt.absorbed ++ r.2, credit := s.fnt.credit + credit }

/-- The instance the next seed goes to: one at its request limit first, otherwise in turn (R289); true is the software
instance. -/
def seedTarget (f : Fnt) : Bool :=
  if f.int.on && decide (seedLimit ≤ f.int.reqs) then false
  else if f.sw.on && decide (seedLimit ≤ f.sw.reqs) then true
  else f.swTurn

/-- A three-block seed is delivered (R289, R297 steps 3 and 4). -/
def deliverSeed (s : State) (seed : Bytes) : State :=
  let s := bump s Reg.FNT_SEEDS 31 0 1
  if seedTarget s.fnt then
    let fresh := !s.fnt.sw.on
    let s := setFnt s { s.fnt with sw := drbgSeed s.fnt.sw seed, swTurn := false, seed := []
                                   state := if s.fnt.state = 3 then 4 else s.fnt.state }
    if fresh then raiseInt s 0x2C 16 else s
  else
    let fresh := !s.fnt.int.on
    let s := setFnt s { s.fnt with int := drbgSeed s.fnt.int seed, swTurn := true, seed := [] }
    if fresh then raiseInt s 0x2C 8 else s

/-- Bits packed into bytes, the first the highest of its byte, the last byte filled with zeros. -/
def bytesOfBits (l : List Bool) : Bytes :=
  (List.range ((l.length + 7) / 8)).map fun i =>
    BitVec.ofNat 8 ((List.range 8).foldl (fun a j => 2 * a + b2n (l.getD (8 * i + j) false)) 0)

/-- The conditioner's block for the bits absorbed: AES-256 CBC-MAC under the Fountain's key (R287). DESIGN CHOICE: the bits fill bytes
from their highest bit and zeros fill the last block; the manual does not say how samples become blocks. -/
def condition (l : List Bool) : Bytes :=
  cbcMac (blockFn false false (fit 32 Config.conditionKey)) (fill 16 0) (bytesOfBits l)

/-- The conditioner releases a block once 192 bits of credit are absorbed, and a seed after three (R287). -/
def conditionerBlock (s : State) : State :=
  if s.fnt.credit < 192 * 256 then s
  else
    let b := condition s.fnt.absorbed
    let s := setFnt s { s.fnt with absorbed := [], credit := 0, seed := s.fnt.seed ++ [b] }
    if s.fnt.seed.length < 3 then s else deliverSeed s (cat s.fnt.seed)

/-- The raw tap takes samples while the buffer has room (R303). -/
def rawTap (s : State) : Bool :=
  rbit s Reg.FNT_CFG 2 && (s.life.state == 1 || s.life.state == 2) && decide (s.fnt.raw.length < 32768)

/-- One diverted sample; RAW_FULL as the buffer fills. -/
def rawSample (s : State) (b : Bool) : State :=
  let s := setFnt s { s.fnt with raw := s.fnt.raw ++ [b] }
  if s.fnt.raw.length = 32768 then raiseInt s 0x2C 64 else s

/-- Where a tested sample goes: the raw buffer, or the conditioner when the start-up test had passed before it. -/
def routeSample (s : State) (seeding : Bool) (i : Nat) (b : Bool) : State :=
  if s.fnt.state = 5 then s
  else if rawTap s then rawSample s b
  else if seeding then conditionerBlock (absorbSample s i b)
  else s

/-- The RNG_READ commands that met FAILED end (R295). -/
def endDead (s : State) : State :=
  s.fnt.rngDead.foldl (fun s c => match ctxAt s c with
    | none => s
    | some x => if x.phase = .running || x.phase = .placed then finishS s c 0x07 0x00 x.done else s) s

/-- The samples of one sampling time, by stream (R280). -/
def samplesOf (xorEn : Bool) (cells : BitVec 4) : List (Nat × Bool) :=
  if xorEn then [(0, (cells.getLsbD 0 != cells.getLsbD 1) != (cells.getLsbD 2 != cells.getLsbD 3))]
  else (List.range 4).map fun i => (i, cells.getLsbD i)

/-- At the end of a 1,024-sample window credit resumes (R285). -/
def windowEnd (s : State) : State :=
  if (s.fnt.streams.getD 0 {}).tested % 1024 = 0 then setFnt s { s.fnt with noCredit := false } else s

/-- 4,096 sample times without a failure end the start-up test (R297 step 2). -/
def countStartup (s : State) (failed : Bool) : State :=
  if s.fnt.state ≠ 2 || failed then s
  else if s.fnt.passed + 1 = 4096 then setFnt s { s.fnt with state := 3, passed := 0 }
  else setFnt s { s.fnt with passed := s.fnt.passed + 1 }

/-- The noise cells are sampled (R280): discarded while they settle, otherwise tested, credited and conditioned. -/
def noiseSample (s : State) (cells : BitVec 4) : State :=
  if !domOn s 12 || !s.fnt.begun || s.fnt.state = 1 || s.fnt.state = 5 then s
  else
    let l := samplesOf s.fnt.xorEn cells
    let tries := s.fnt.tries
    let seeding := decide (3 ≤ s.fnt.state)
    let s := l.foldl (fun s e => sampleStream s e.1 e.2) s
    let s := countStartup s (s.fnt.tries != tries)
    let s := l.foldl (fun s e => routeSample s seeding e.1 e.2) s
    endDead (windowEnd s)

def execNoiseSample (cells : BitVec 4) (s : State) : Res := .next (noiseSample s cells)

/-! ## Known-answer test (R301, R302) -/

/-- A write of 1 to FNT_KAT.RUN. -/
def fntKat (s : State) (src : Src) : State :=
  gateReg s src Reg.FNT_KAT fun s => setFnt s { s.fnt with katBusy := true }

/-- The test ends. -/
def fntKatDone (s : State) (pass : Bool) : State :=
  if !s.fnt.katBusy then s
  else
    let s := raiseInt (setFnt s { s.fnt with katBusy := false, katPass := pass }) 0x2C 32
    if pass then
      if s.fnt.state = 1 then startupTest (setFnt s { s.fnt with katOk := true }) else s
    else
      let s := countFault (errSynd s 0x2C 0x11 0x20 0 0) 0x2C
      endDead (if s.fnt.state = 5 then s else fountainFail s)

def execFntKat (src : Src) (s : State) : Res := .next (fntKat s src)
def execFntKatDone (pass : Bool) (s : State) : Res := .next (fntKatDone s pass)

/-! ## The private wires and the software port (R290 to R296, R551) -/

/-- Consumers of Fountain draws beside the contexts: a link-up's session value, FOUND's root, an XING_CMD and a FLEET_CMD. -/
def whoLink : Nat := 65536
def whoRoot : Nat := 65537
def whoXing : Nat := 65538
def whoFleet : Nat := 65539

/-- Bytes of a draw: on the Mews wire 32 for a session value or a fleet root and 64 for a key, 16 for PIN-block fill, 8 KiB for an Arcade
unit (R291). -/
def drawBytes (wire who : Nat) : Nat :=
  if wire = 0 then (if who = whoLink || who = whoRoot then 32 else 64) else if wire < 9 then 16 else 8192

/-- A consumer issues a draw on its wire. -/
def issueDraw (s : State) (wire who : Nat) : State :=
  setFnt s { s.fnt with draws := s.fnt.draws ++ [(wire, who)], got := tdel s.fnt.got who }

/-- The draw of a consumer has been delivered. -/
def drawn (s : State) (who : Nat) : Option Bytes := tfind s.fnt.got who

/-- A taker of the software instance can be served: a read, or an RNG_READ that has begun. -/
def rngReady (s : State) : RngReq → Bool
  | .read _ => true
  | .cmd c => (ctxAt s c).any fun x => decide (x.phase = .running)

/-- The software instance has a request waiting. -/
def swWaiting (s : State) : Bool := (s.fnt.rng ++ s.fnt.rngDone).any (rngReady s)

/-- The software instance is due: it has a request waiting, and the internal one has none it can serve or has had seven in
a row (R290). -/
def swDue (s : State) : Bool :=
  swWaiting s && (s.fnt.draws.isEmpty || !intServing s || decide (7 ≤ s.fnt.intRun))

/-- One generate request of n bytes to the internal instance. -/
def intRequest (s : State) (n : Nat) : Bytes × State :=
  let r := drbgRequest s.fnt.int n
  (r.1, setFnt s { s.fnt with int := r.2, intRun := if swWaiting s then s.fnt.intRun + 1 else 0 })

/-- The oldest draw receives its next request of at most 4,096 bytes; it is delivered whole, and starts again in full when the
instance stops serving before its end (R288, R292). -/
def serveDraw (s : State) : State :=
  match s.fnt.draws with
  | [] => s
  | (w, who) :: l =>
    if !intServing s || (swServing s && decide (7 ≤ s.fnt.intRun) && swWaiting s) then s
    else
      let r := intRequest s (min 4096 (drawBytes w who - s.fnt.part.length))
      let got := s.fnt.part ++ r.1
      let s := r.2
      if drawBytes w who ≤ got.length then setFnt s { s.fnt with draws := l, part := [], got := tput s.fnt.got who got }
      else setFnt s { s.fnt with part := if intServing s || s.fnt.katBusy then got else [] }

/-- The taker served leaves its place in the round, to wait for the next one. -/
def rngServed (s : State) (r : RngReq) (again : Bool) : State :=
  setFnt s { s.fnt with
    rng := s.fnt.rng.erase r, rngDone := if again then s.fnt.rngDone ++ [r] else s.fnt.rngDone, intRun := 0 }

/-- The command in context c receives a request of 4,096 bytes, or its last one, and writes it. -/
def rngTurn (s : State) (c : Nat) (x : Ctx) (hit : Option Hit) : State :=
  let n := min 4096 (x.d.len - x.done)
  let r := drbgRequest s.fnt.sw n
  let last := decide (x.done + n = x.d.len)
  let s := rngServed (setFnt s { s.fnt with sw := r.2 }) (.cmd c) (!last)
  let p := putDst s c r.1 hit
  match p.1 with
  | some (st, dt) => finishS p.2 c st dt (((ctxAt p.2 c).map bytesAtFail).getD 0)
  | none =>
    if last then finish p.2 c { detail := b2n x.late, bytesDone := x.d.len }
    else match ctxAt p.2 c with
      | none => p.2
      | some y => setCtx p.2 c { y with done := x.done + n }

/-- A read of FNT_SW_DATA receives 16 bits (R296). -/
def readTurn (s : State) (src : Src) : State :=
  let r := drbgRequest s.fnt.sw 2
  let s := rngServed (setFnt s { s.fnt with sw := r.2 }) (.read src) false
  if answers s src then emit s (.readData src (toLe 4 (2 ^ 31 + le r.1 % 2 ^ 16))) else s

/-- A read that the instance cannot serve answers VALID 0 (R296). -/
def readFails (s : State) : State :=
  let l := (s.fnt.rng ++ s.fnt.rngDone).filterMap fun r => match r with
    | .read src => some src
    | .cmd _ => none
  l.foldl (fun s src =>
    let s := setFnt s { s.fnt with rng := s.fnt.rng.erase (.read src), rngDone := s.fnt.rngDone.erase (.read src) }
    if answers s src then emit s (.readData src (toLe 4 0)) else s) s

/-- The taker whose turn it is receives its next request (R551); the commands that met FAILED end (R295), and reads are answered
when the instance cannot serve. -/
def serveRng (s : State) (hit : Option Hit) : State :=
  let s := endDead s
  if !swServing s then readFails s
  else if !swDue s then s
  else
    let s := if s.fnt.rng.any (rngReady s) then s
      else setFnt s { s.fnt with rng := s.fnt.rng ++ s.fnt.rngDone, rngDone := [] }
    match s.fnt.rng.find? (rngReady s) with
    | none => s
    | some (.read src) => readTurn s src
    | some (.cmd c) => match ctxAt s c with
      | none => s
      | some x => rngTurn s c x hit

/-- The expander serves a generate request. -/
def drbgGenerate (s : State) (sw : Bool) (hit : Option Hit) : State := if sw then serveRng s hit else serveDraw s

/-- A dispatched RNG_READ takes its place among the takers of the software instance (R551). -/
def rngJoin (s : State) (c : Nat) : State := setFnt s { s.fnt with rng := s.fnt.rng ++ [.cmd c] }

/-- RNG_READ begins on the Fountain, or ends at once when the software instance cannot serve (R295). -/
def rngRead (s : State) (c : Nat) : State :=
  match ctxAt s c with
  | none => s
  | some x =>
    if x.d.opcode ≠ 0x40 || x.phase ≠ .placed then s
    else if !s.fnt.sw.on then finishS s c 0x07 0x00 0
    else setCtx s c { x with phase := .running }

def execRngRead (ctx : CtxNo) (s : State) : Res := .next (rngRead s ctx.val)

/-- A read of FNT_SW_DATA (R296): answered at once unless others go first, then in its turn. -/
def swData (s : State) (src : Src) : State :=
  gateRead s src Reg.FNT_SW_DATA fun s =>
    if !swServing s then emit s (.readData src (toLe 4 0))
    else
      let first := !swWaiting s
      let s := setFnt s { s.fnt with rng := s.fnt.rng ++ [.read src] }
      if first && swDue s then readTurn s src else s

/-- A read of FNT_RAW_DATA removes the oldest 32 samples (R303). -/
def rawData (s : State) (src : Src) : State :=
  gateRead s src Reg.FNT_RAW_DATA fun s =>
    if s.fnt.raw.length < 32 then emit s (.readData src (toLe 4 0))
    else
      let w := (s.fnt.raw.take 32).foldr (fun b a => b2n b + 2 * a) 0
      emit (setFnt s { s.fnt with raw := s.fnt.raw.drop 32 }) (.readData src (toLe 4 w))

def execFntSwDataRead (src : Src) (s : State) : Res := .next (swData s src)
def execFntRawDataRead (src : Src) (s : State) : Res := .next (rawData s src)

end Sys2Proof.Machine
end

