-- ==== Sys2Proof/Machine/Roundabout.lean ====
section
/-! DEFINITION. The Roundabout: acceptance, launch and the epoch test, fences, dispatch to every engine class, invocation
and DUKPT counters with their reservations, and NOP (R99 to R122, R132 to R143, R212, R233, R234, R253). -/
namespace Sys2Proof.Machine
open Sys2Proof

/-! ## Acceptance (R109, R113, R207, R549) -/

/-- The command names a key operand, or writes a slot. -/
def namesKey (s : State) (x : Ctx) : Bool := !(operands s x).isEmpty
def writesSlot (op : Nat) : Bool := makesKey op || op == 0x32 || op == 0x34

/-- A transition or join holds commands that name a key, an assignment those that write a slot, after check 3 (R207, R452,
R549). -/
def holdsAfter3 (s : State) (x : Ctx) : Bool :=
  ((s.life.zero || (s.xing.state == 2 && !s.xing.seqr)) && namesKey s x) || (s.mews.assign.isSome && writesSlot x.d.opcode)

/-- The segments of a command's source and destination (R91). -/
def srcSegs (x : Ctx) (l : Bytes) : List Seg :=
  if x.d.srcSgl then sglSegs l x.d.srcN else [{ addr := x.d.src, len := srcNeed x }]
def dstSegs (s : State) (x : Ctx) (l : Bytes) : List Seg :=
  if x.d.dstSgl then sglSegs l x.d.dstN else [{ addr := x.d.dst, len := dstLen s x }]

/-- Checks after check 3, the capture of the operands, and the hold or launch (R99, R100, R113). -/
def acceptFrom4 (s : State) (c : Nat) (x : Ctx) : State :=
  let x := { x with keys := capture s (operands s x) }
  match firstFail [checkParam s x, check4 s x, checkAfter s x] with
  | some (st, dt) => finishS s c st dt 0
  | none =>
    let x := { x with
      acc := s.quay.nextAcc
      dsts := if x.d.dstSgl then x.dsts else dstSegs s x [] }
    let s := { s with quay := { s.quay with nextAcc := s.quay.nextAcc + 1 } }
    if x.d.timed && decide (s.tick < x.d.launch) then
      setCtx s c { x with launch := x.d.launch, phase := .held }
    else fencesLift (testEpoch (setLaunch (setCtx s c x) c s.tick x.d.timed false) c)

/-- Commands held after check 3 resume at check 4, in the order they were fetched (R207, R549). -/
def resumeHeld (s : State) : State :=
  (sortBy (fun a b => decide (a.2.seq ≤ b.2.seq)) (s.quay.ctxs.filter fun e => decide (e.2.phase = .heldCheck4))).foldl
    (fun s e => if holdsAfter3 s e.2 then s else acceptFrom4 s e.1 e.2) s

/-- The host reads of an acceptance: the parameter block and the scatter lists (R91, R92). -/
def acceptReads (s : State) (x : Ctx) : State :=
  let fn := qFunc (queueAt s x.q)
  let s := if usesParam x.d then hostRead s fn x.d.param 64 else s
  let s := if x.d.srcSgl && x.d.srcN != 0 then hostRead s fn x.d.src (16 * x.d.srcN) else s
  if x.d.dstSgl && x.d.dstN != 0 then hostRead s fn x.d.dst (16 * x.d.dstN) else s

/-- A transfer of a command's own data from the Quay to the Roundabout, whose page counts a failure (R37, R38): none when a beat
fails. DESIGN CHOICE: the Roundabout's page 0x10 stands for the sink of descriptors, parameter blocks and scatter lists. -/
def toRoundabout (s : State) (c : Nat) (x : Ctx) (b : Bytes) (hit : Option Hit) : Option Bytes :=
  let p := sealPass (portPage s x.q) 0x10 (some c) 0 b hit
  if p.2 then some p.1 else none

/-- A command with the parameter block and the scatter lists its acceptance has read: none when a beat of one fails. -/
def withInputs (s : State) (c : Nat) (x : Ctx) (inp : AcceptIn) : Option Ctx :=
  (toRoundabout s c x (if usesParam x.d then fit 64 inp.param else []) inp.paramHit).bind fun param =>
  (toRoundabout s c x (if x.d.srcSgl then fit (16 * x.d.srcN) inp.srcList else []) inp.srcHit).bind fun src =>
  (toRoundabout s c x (if x.d.dstSgl then fit (16 * x.d.dstN) inp.dstList else []) inp.dstHit).map fun dst =>
  { x with param := param, srcs := srcSegs x src, dsts := if x.d.dstSgl then sglSegs dst x.d.dstN else [] }

/-- The descriptor as the Roundabout receives it: none when a beat of it fails. -/
def withDesc (s : State) (c : Nat) (x : Ctx) (hit : Option Hit) : Option Ctx :=
  match hit with
  | none => some x
  | some _ => (toRoundabout s c x x.raw hit).map fun b => { x with d := decodeDesc b }

/-- A Seal failure on a command's way into the Roundabout ends it (R38). -/
def acceptSealFails (s : State) (c : Nat) : State := finishS (sealFault s 0x10) c 0x08 0x02 0

/-- No command fetched earlier from the queue is still to be accepted (R113). -/
def isNextToAccept (s : State) (c : Nat) (x : Ctx) : Bool :=
  !(s.quay.ctxs.any fun e => e.1 != c && e.2.q == x.q && decide (e.2.seq < x.seq)
      && (decide (e.2.phase = .fetched) || decide (e.2.phase = .fetching)))

/-- Checks 1 to 4 on the command in context c (R109, R113). -/
def accept (s : State) (c : Nat) (inp : AcceptIn) : State :=
  match ctxAt s c with
  | none => s
  | some x =>
    if x.phase ≠ .fetched || !isNextToAccept s c x then s
    else match withDesc s c x inp.descHit with
      | none => acceptSealFails s c
      | some x =>
        let s := setCtx s c x
        match firstFail [check1 s.life.state x.d, check2 x.d, checkMacLen s x.d, check3 (queueAt s x.q) x.d] with
        | some (st, dt) => finishS s c st dt 0
        | none => match withInputs s c x inp with
          | none => acceptSealFails (acceptReads s x) c
          | some x =>
            let s := acceptReads s x
            if holdsAfter3 s x then setCtx s c { x with phase := .heldCheck4 }
            else acceptFrom4 s c x

def execRoundaboutAccept (ctx : CtxNo) (inp : AcceptIn) (s : State) : Res := .next (accept s ctx.val inp)

/-- NOP: complete once launched and its fence allows it. -/
def nop (s : State) (c : Nat) : State :=
  match ctxAt s c with
  | none => s
  | some x =>
    if x.d.opcode = 0x00 && x.phase = .ready && fenceOk s c x then finish s c { detail := b2n x.late } else s

def execNop (ctx : CtxNo) (s : State) : Res := .next (nop s ctx.val)

/-! ## Engine classes and availability (R93, R119, R120, R148, R155, R253) -/

/-- Modes and directions the Boulevard supports (R155, BLVD_MODES). -/
def blvdMode (d : Desc) : Bool :=
  (d.opcode == 0x10 && [1, 3, 4, 5].contains d.mode) || (d.opcode == 0x11 && [1, 2, 3, 4, 5].contains d.mode)

/-- Exclusion bits of RBT_ENG_EXCL. -/
def exclGroup (s : State) (g : Nat) : Bool := rbit s Reg.RBT_ENG_EXCL g
def exclPipe (s : State) (n : Nat) : Bool := rbit s Reg.RBT_ENG_EXCL (8 + n)
def exclArc (s : State) (n : Nat) : Bool := rbit s Reg.RBT_ENG_EXCL (10 + n)

/-- A lane or pipeline is available: not excluded, powered, not offline; a unit under test is busy, not unavailable (R119,
R120). -/
def cunitAvail (s : State) (u : Nat) : Bool :=
  !(if u < 64 then exclGroup s (u / 8) else exclPipe s (u - 64)) && domUsable s (cunitDom u)
    && (!(cunit s u).offline || (cunit s u).kat) && !(cunit s u).forced
def hunitAvail (s : State) (u : Nat) : Bool :=
  !exclGroup s (u / 4) && domUsable s (1 + u / 4) && (!(hunit s u).offline || (hunit s u).kat)

/-- The class bit of ARC_MODE.ACCEPT (R253). -/
def arcClass (d : Desc) : Nat := if d.opcode = 0x58 then d.mode else 0
def aunitAvail (s : State) (d : Desc) (n : Nat) : Bool :=
  !exclArc s n && domUsable s (aunitDom n) && (!(aunit s n).offline || (aunit s n).kat) && !(aunit s n).forced
    && rbit s (rk (0x20 + n) Reg.ARC_MODE) (arcClass d)

/-- A share is free for a command: those that waiting convoy commands will take are theirs (R157). -/
def shareFor (s : State) (x : Ctx) : Bool :=
  decide (1 ≤ sharesFree s) && (x.convoy || decide (convoyWaits s < sharesFree s))

/-- A unit takes a command now: available, idle, its test passed. -/
def cunitFree (s : State) (u : Nat) : Bool :=
  cunitAvail s u && (cunit s u).ctx.isNone && !(cunit s u).kat
def hunitFree (s : State) (u : Nat) : Bool := hunitAvail s u && (hunit s u).ctx.isNone && !(hunit s u).kat
def aunitFree (s : State) (d : Desc) (n : Nat) : Bool :=
  aunitAvail s d n && (aunit s n).ctx.isNone && !(aunit s n).kat && !(aunit s n).zero && (aunit s n).internal.isNone

/-- The command runs on a pipeline (R119). -/
def wantsBlvd (s : State) (d : Desc) : Bool := d.blvd && blvdMode d && (cunitAvail s 64 || cunitAvail s 65)

/-- The engine class a command waits for. -/
def classOf (s : State) (d : Desc) : EngClass :=
  if d.opcode = 0x10 || d.opcode = 0x11 then (if wantsBlvd s d then .blvd else .lane)
  else if d.opcode < 0x10 then .roundabout
  else if d.opcode < 0x20 then .lane
  else if d.opcode < 0x30 then .hash
  else if d.opcode < 0x40 then .mews
  else if d.opcode = 0x40 then .fountain
  else if d.opcode < 0x60 then .arcade
  else .composite

/-- The sequence uses a hash unit (R212). -/
def usesHash (d : Desc) : Bool := d.opcode == 0x69 || d.opcode == 0x6A

/-- Some unit the command could run on is available (R120). -/
def anyAvail (s : State) (d : Desc) : Bool :=
  match classOf s d with
  | .lane => (List.range 64).any (cunitAvail s)
  | .blvd => true
  | .hash => (List.range 32).any (hunitAvail s)
  | .arcade => (List.range 8).any (aunitAvail s d)
  | .composite => (List.range 64).any (cunitAvail s) && (!usesHash d || (List.range 32).any (hunitAvail s))
  | .mews => true
  | .fountain => true
  | .roundabout => true

/-- The command needs Fountain output before it can run, so it waits while there is none (R115, R223, R270). -/
def needsFountain (d : Desc) : Bool :=
  d.opcode == 0x30 || (isPinOp d.opcode && pinOut d != 0)
    || [0x50, 0x52, 0x53, 0x54, 0x55, 0x56, 0x57].contains d.opcode
    || (d.opcode == 0x58 && d.mode == 2 && [0x13, 0x14, 0x16].contains (bits d.arg 7 0))

/-! ## Choosing the command (R100, R116 to R118) -/

/-- A hash unit that is free, the lowest. -/
def freeHash (s : State) : Option HashNo := (List.finRange 32).find? fun u => hunitFree s u.val

/-- The given unit of a class takes the command now (R116, R119, R253). -/
def canTake (s : State) (cls : EngClass) (unit : Nat) (x : Ctx) : Bool :=
  match cls with
  | .lane => decide (unit < 64) && cunitFree s unit && shareFor s x
  | .blvd => decide (unit < 2) && cunitFree s (64 + unit) && shareFor s x
  | .hash => decide (unit < 32) && hunitFree s unit
  | .arcade => decide (unit < 8) && aunitFree s x.d unit
  | .composite => decide (unit < 64) && cunitFree s unit && shareFor s x && (!usesHash x.d || (freeHash s).isSome)
  | .mews => true
  | .fountain => true
  | .roundabout => false

/-- Ready commands of a class that may be dispatched now: those the given unit takes, and those no unit can (R116, R120). -/
def candidates (s : State) (cls : EngClass) (unit : Nat) : List (Nat × Ctx) :=
  s.quay.ctxs.filter fun e => decide (e.2.phase = .ready) && decide (classOf s e.2.d = cls) && fenceOk s e.1 e.2
    && (!needsFountain e.2.d || intServing s) && (canTake s cls unit e.2 || !anyAvail s e.2.d)

/-- The candidate accepted first. -/
def oldest : List (Nat × Ctx) → Option (Nat × Ctx)
  | [] => none
  | e :: l => match oldest l with
    | none => some e
    | some f => if f.2.acc < e.2.acc then some f else some e

/-- The index of a class in the round-robin table. -/
def clsIndex : EngClass → Nat
  | .lane => 0 | .blvd => 1 | .hash => 2 | .arcade => 3 | .mews => 4 | .fountain => 5 | .composite => 6 | .roundabout => 7

/-- The next domain round-robin after the one served last that has a candidate. -/
def nextDomain (last : Nat) (l : List (Nat × Ctx)) : Nat :=
  let ds := l.map (·.2.dom)
  let min' (l : List Nat) : Option Nat := l.foldl (fun m d => match m with
    | none => some d
    | some a => some (min a d)) none
  ((min' (ds.filter fun d => decide (last < d))).orElse fun _ => min' ds).getD 0

/-- The command dispatched next to a class: released convoy commands first, then round-robin over domains, oldest first
(R100, R118). DESIGN CHOICE: among several released convoy commands of a class the one accepted first goes first, whatever its
domain; the manual gives no order among them. -/
def chooseNext (s : State) (cls : EngClass) (unit : Nat) : Option (Nat × Ctx) :=
  let l := candidates s cls unit
  match oldest (l.filter fun e => e.2.convoy) with
  | some e => some e
  | none =>
    let d := nextDomain (tget 0 s.quay.rr (clsIndex cls)) l
    oldest (l.filter fun e => e.2.dom == d)

/-! ## Invocations (R132 to R143) -/

/-- This device issues for role B (R133, R137). -/
def twinB (s : State) : Bool := s.bak.pairRoot.isSome && s.fer.pairB
/-- The parity of the blocks this device issues from (R137). -/
def parity (s : State) : Nat := b2n (twinB s)

/-- The highest block recorded for a parity (R138). -/
def rsvHigh (r : RsvRec) (par : Nat) : Option Nat := (if par = 0 then r.even else r.odd).map (·.blk)
/-- A block recorded in the half of its parity, with its check code. -/
def rsvPut (r : RsvRec) (dukpt : Bool) (slot blk : Nat) : RsvRec :=
  let h : RsvHalf := { blk, code := Config.rsvCode dukpt slot (blk % 2 == 1) blk }
  if blk % 2 = 0 then { r with even := some h } else { r with odd := some h }

def rsvAt (s : State) (slot : Nat) : RsvRec := tget {} s.fer.rsv slot
/-- The first block of this device's parity above the record (R138, R140). -/
def firstBlock (r : RsvRec) (par : Nat) : Nat :=
  match rsvHigh r par with
  | none => par
  | some b => b + 2

/-- The state of a slot's counter: where it stands, or where it resumes after power-up, and after the device's parity has changed
(R137, R140); a reservation under way is then still confirmed. -/
def ctrAt (s : State) (slot : Nat) : Ctr :=
  let fresh : Ctr := { blk := firstBlock (rsvAt s slot) (parity s), off := 0, conf := none, pend := none }
  match tfind s.mews.ctrs slot with
  | none => fresh
  | some v => if v.blk % 2 = parity s then v else { fresh with pend := v.pend }
def setCtr (s : State) (slot : Nat) (v : Ctr) : State :=
  { s with mews := { s.mews with ctrs := tput s.mews.ctrs slot v } }

/-- Block b of a slot is confirmed. -/
def blkConfirmed (v : Ctr) (b : Nat) : Bool := v.conf.any fun h => decide (b ≤ h)
/-- Begin the reservation of a block, if none is under way and the block exists and is not confirmed (R138, R142). -/
def reserve (v : Ctr) (b : Nat) : Ctr :=
  if b < 2 ^ 44 && v.pend.isNone && !blkConfirmed v b then { v with pend := some b } else v

/-- Take one invocation: the counter value, its block and the counter after it; none when the parity's values are used up
(R132, R137, R138, R142). -/
def takeInv (v : Ctr) : Option (Nat × Nat × Ctr) :=
  if 2 ^ 44 ≤ v.blk then none
  else
    let value := v.blk * 2 ^ 20 + v.off
    let w := reserve v v.blk
    let w := if v.off + 1 = 2 ^ 20 then { w with blk := v.blk + 2, off := 0 } else { w with off := v.off + 1 }
    let w := if v.off + 1 = 2 ^ 19 then reserve w (v.blk + 2) else w
    some (value, v.blk, w)

/-- The encryption needs a fresh value (R132). -/
def takesInv (d : Desc) : Bool := d.opcode == 0x10 && [0x02, 0x03, 0x04, 0x06, 0x12, 0x20].contains d.mode

/-- The fixed field: DEV, TWIN and QUEUE (R133). -/
def fixedField (s : State) (q : Nat) : Nat :=
  fld s Reg.LANE_NONCE_CFG 16 0 * 2 ^ 15 + b2n (twinB s) * 2 ^ 14 + q % 2 ^ 14

/-- The IV, nonce or initial counter block of each mode (R136). -/
def formIv (mode alg : Nat) (key : Bytes) (fixed ctr : Nat) : Bytes :=
  let n := toBe 4 fixed ++ toBe 8 ctr
  if mode = 3 then n ++ fill 4 0
  else if mode = 2 then fit 16 (blockCipher alg false key (n ++ fill 4 0))
  else if mode = 0x12 then fit 8 (blockCipher alg false key (xorBytes (toBe 4 fixed ++ fill 4 0) (toBe 8 ctr)))
  else n

/-- A COUNTER_END event; while PD_LANE0 is off it is held (R135, R142). -/
def counterEnd (s : State) (slot : Nat) : State :=
  let s := setReg s Reg.LANE_CTR_END (BitVec.ofNat 32 slot)
  if domOn s 1 then raiseInt s 0x11 (2 ^ 9)
  else { s with units := { s.units with heldEnd := true } }

/-! ## DUKPT counters (R233, R234) -/

/-- The smallest valid counter of own-parity blocks at or above n, below the counter's end. -/
def nextDukpt (tdes : Bool) (par : Nat) : Nat → Nat → Option Nat
  | 0, _ => none
  | f + 1, n =>
    let top := if tdes then 2 ^ 21 else 2 ^ 32
    let blk := n / 1024
    if top ≤ n then none
    else if blk % 2 ≠ par then nextDukpt tdes par f ((blk + 1) * 1024)
    else if (if tdes then 10 else 16) < popCount blk 32 then nextDukpt tdes par f ((blk + 2) * 1024)
    else if dukptValid tdes n then some n
    else nextDukpt tdes par f (n + 1)

def dukptRec (s : State) (slot : Nat) : RsvRec := tget {} s.fer.dukpt slot
/-- The state of a slot's DUKPT counter: where it stands, or where it resumes, as for invocations. -/
def dukptAt (s : State) (slot : Nat) : DukptCtr :=
  let fresh : DukptCtr := {
    par := parity s, next := firstBlock (dukptRec s slot) (parity s) * 1024, top := none, pend := none }
  match tfind s.mews.dukpt slot with
  | none => fresh
  | some v => if v.par = parity s then v else { fresh with pend := v.pend }
def setDukpt (s : State) (slot : Nat) (v : DukptCtr) : State :=
  { s with mews := { s.mews with dukpt := tput s.mews.dukpt slot v } }

/-- Reserve the block counters are issued from, and once it is confirmed and in use the block two above it (R234). -/
def dukptReserve (v : DukptCtr) (tdes : Bool) (blk : Nat) : DukptCtr :=
  let ok (b : Nat) : Bool := v.top.any fun t => decide (b ≤ t)
  if v.pend.isSome then v
  else if !ok blk then { v with pend := some blk }
  else if !ok (blk + 2) && decide ((blk + 2) * 1024 < if tdes then 2 ^ 21 else 2 ^ 32) then { v with pend := some (blk + 2) }
  else v

/-- Take the next valid counter of a slot, in the order of dispatch (R233): the counter and the state after it. -/
def takeDukpt (v : DukptCtr) (tdes : Bool) (par : Nat) : Option (Nat × DukptCtr) :=
  match nextDukpt tdes par (2 ^ 23) v.next with
  | none => none
  | some n => some (n, dukptReserve { v with next := n + 1 } tdes (n / 1024))

/-! ## Dispatch (R116 to R120) -/

/-- Read requests for the bytes up to the count n that the first k segments hold (R91). -/
def readSegs (s : State) (fn n : Nat) : Nat → List Seg → State
  | 0, _ => s
  | _, [] => s
  | k + 1, g :: l =>
    readSegs (if min g.len n = 0 then s else hostRead s fn g.addr (min g.len n)) fn (n - g.len) k l

/-- The source segments a command's count reaches are checked, each whole, and read up to the first one not covered; a source that
ends there before its first byte ends at once (R59, R60, R91). -/
def readSrc (s : State) (c : Nat) : State :=
  match ctxAt s c with
  | none => s
  | some x =>
    let q := queueAt s x.q
    let r := checkSegs q false x.srcs (srcNeed x) (x.srcs.length + 1) 0
    let x := { x with srcChk := r.1, srcRej := r.2 }
    let s := readSegs (setCtx s c x) (qFunc q) (srcNeed x) r.1 x.srcs
    if r.2 && srcGood x = 0 then sourceEnds s c 0x04 0x01 else s

/-! ## The key bus (R20, R37, R124, R213, R250, R251) -/

/-- The material of the key operands a command uses, in index order. -/
def busKeys (s : State) (x : Ctx) : List Bytes :=
  (x.keys.filter fun k => !k.target && k.gen != 0).map fun k => keyMat s k.slot

/-- A byte string cut into pieces of given lengths. -/
def cutAt : List Nat → Bytes → List Bytes
  | [], _ => []
  | n :: l, b => b.take n :: cutAt l (b.drop n)

/-- The material as it reaches a unit: none when a beat fails its check at the unit's page. -/
def keyBus (s : State) (page c : Nat) (x : Ctx) (hit : Option Hit) : Option (List Bytes) :=
  let l := busKeys s x
  let p := sealPass 0x28 page (some c) 0 (cat l) hit
  if p.2 then some (cutAt (l.map (·.length)) p.1) else none

/-- Slots and generations of the keys a command uses, in index order. -/
def keyTags (x : Ctx) : List (Nat × Nat) := (x.keys.filter fun k => !k.target && k.gen != 0).map fun k => (k.slot, k.gen)

/-- The curve of an EC binding. -/
def algCurve (alg : Nat) : Curve := if alg < 0x42 then p256 else if alg < 0x44 then p384 else p521

/-- The curve a command works on: its key's, a named one, or a copy of the Curve Store entry it names (R263). -/
def curveOf (s : State) (x : Ctx) : Option Curve :=
  if x.d.opcode = 0x58 then
    (if x.d.mode ≠ 2 then none
     else match curveCode x with
       | 1 => some p256
       | 2 => some p384
       | 3 => some p521
       | n => (curveEntry n).bind (tfind s.curves))
  else
    let a := if x.d.opcode = 0x52 then (templateOf x.param).alg else x.algs.getD 0 0
    if 0x40 ≤ a && a < 0x46 then some (algCurve a) else none

/-- A cipher pair takes its key: the schedules it keeps when they are of the same slot and generation, otherwise both cores expand the
material anew (R123, R124); none when the transfer fails. -/
def keyCunit (s : State) (u c : Nat) (x : Ctx) (hit : Option Hit) : Option State :=
  let v := cunit s u
  if v.key == keyTags x && v.key.length == 1 && v.prim.keys.length == 1 then
    some (setCunit s u { v with prim := { keys := v.prim.keys }, chk := { keys := v.chk.keys } })
  else (keyBus s (cunitPage u) c x hit).map fun l =>
    setCunit s u { v with key := keyTags x, prim := { keys := l }, chk := { keys := l } }

/-- A hash unit takes its HMAC key; in a composite step it works from the lane's store and keeps nothing (R213). -/
def keyHunit (s : State) (u c : Nat) (x : Ctx) (hit : Option Hit) : Option State :=
  (keyBus s 0x1A c x hit).map fun l => setHunit s u { hunit s u with key := l.headD [] }

/-- An Arcade unit takes its key and its curve into the operand memory (R250, R251, R263). -/
def keyAunit (s : State) (n c : Nat) (x : Ctx) (hit : Option Hit) : Option State :=
  (keyBus s (0x20 + n) c x hit).map fun l =>
    setAunit s n { aunit s n with mem := {
      key := (l.headD []).take keyCap, modulus := (((curveOf s x).map curveRegion).getD []).take modulusCap } }

/-- Every unit of a command takes its key. -/
def keyUnits (c : Nat) (x : Ctx) (hit : Option Hit) : List Engine → State → Option State
  | [], s => some s
  | e :: l, s =>
    (match e with
      | .cipher u => keyCunit s u.val c x hit
      | .hash u => if x.d.opcode < 0x60 then keyHunit s u.val c x hit else some s
      | .arcade u => keyAunit s u.val c x hit
      | .composite _ => some s).bind (keyUnits c x hit l)

/-- The end of an Arcade command is settled: its unit zeroises before the completion is written (R252). A stop that comes later
replaces a failed validation, and nothing else (R272). -/
def arcSettle (s : State) (n c : Nat) (f : CmdEnd) : State :=
  match ctxAt s c with
  | none => s
  | some x =>
    let s := setFld s (rk (0x20 + n) Reg.ARC_MODE) 14 12 5
    setCtx (fntForget s c) c { x with
      phase := .zeroising, stop := if f.status = 0x06 then x.stop else none
      status := f.status, detail := f.detail, bytesDone := f.bytesDone, result := f.result, aux := f.aux }

/-- A placed command ends before it begins. -/
def placedEnds (s : State) (c : Nat) (x : Ctx) (status detail : Nat) : State :=
  match x.eng with
  | some (.arcade n) => arcSettle s n.val c { status, detail }
  | _ => finishS s c status detail 0

/-- The command in context c leaves the Roundabout for its units: its keys go over the key bus, and its source is read. DESIGN CHOICE:
a released convoy command leaves its class's round-robin pointer where it stood; the manual does not say. -/
def place (s : State) (cls : EngClass) (c : Nat) (x : Ctx) (hit : Option Hit) : State :=
  let s := bump s Reg.RBT_DISPATCHED 31 0 1
  let s := { s with quay := { s.quay with
    rr := if x.convoy then s.quay.rr else tput s.quay.rr (clsIndex cls) x.dom } }
  let x := { x with phase := .placed, algs := x.keys.map fun k => (slotAt s k.slot).alg }
  let s := setCtx s c x
  match keyUnits c x hit (x.eng.toList ++ x.resv) s with
  | none => placedEnds (sealFault s (sinkPage x)) c x 0x08 0x02
  | some s => readSrc s c

/-- A cipher unit is taken with its share or shares: a pipeline starts with the free ones that no waiting convoy command is to have, at
least one; what is left goes to running pipelines (R157). -/
def takeCunit (s : State) (u c : Nat) : State :=
  let s := setCunit s u { cunit s u with ctx := some c, shares := 0 }
  let n := max 1 (min 8 (sharesFree s - convoyWaits s))
  shareOut (if u < 64 then s else setCunit s u { cunit s u with shares := n })

/-- The first key operand's slot and material. -/
def keySlotNo (x : Ctx) : Nat := ((x.keys.head?).map (·.slot)).getD 0

/-- An invocation is taken at dispatch when the mode needs one; the command waits in its unit while its block is not
confirmed, and its value is issued only then, under the DEV and TWIN of that moment (R132, R134, R138). -/
def withInv (s : State) (c : Nat) (x : Ctx) (k : State → Ctx → State) : State :=
  if !takesInv x.d then k s x
  else
    let slot := keySlotNo x
    match takeInv (ctrAt s slot) with
    | none => finishS (counterEnd s slot) c 0x03 0x06 0
    | some (value, blk, v) =>
      let ok := blkConfirmed v blk
      k (setCtr s slot v) { x with
        inv := some value, fixed := if ok then fixedField s x.q else 0, step := blk, waitRsv := !ok }

/-- A DUKPT counter is taken at dispatch by DUKPT_ORIGINATE (R233, R234). -/
def withDukpt (s : State) (c : Nat) (x : Ctx) (k : State → Ctx → State) : State :=
  if x.d.opcode ≠ 0x63 then k s x
  else
    let slot := keySlotNo x
    let tdes := (slotAt s slot).alg == 8
    match takeDukpt (dukptAt s slot) tdes (parity s) with
    | none =>
      let s := setReg s Reg.COMP_DUKPT_END (BitVec.ofNat 32 slot)
      finishS (raiseInt s 0x2A 2) c 0x03 0x06 0
    | some (n, v) =>
      let ok := v.top.any fun t => decide (n / 1024 ≤ t)
      k (setDukpt s slot v) { x with aux := n, waitRsv := !ok }

/-- The private wire a command draws from, with its unit (R291). -/
def wireOf (d : Desc) (unit : Nat) : Nat :=
  if d.opcode < 0x50 then 0 else if d.opcode < 0x60 then 9 + unit else 1 + unit / 8

/-- Place a command and issue its Fountain draw. -/
def placeDraw (s : State) (cls : EngClass) (unit c : Nat) (x : Ctx) (hit : Option Hit) : State :=
  let s := place s cls c x hit
  if needsFountain x.d && (ctxAt s c).any (fun y => decide (y.phase = .placed)) then issueDraw s (wireOf x.d unit) c else s

/-- The class CUR of ARC_MODE shows for a running command. -/
def arcCur (d : Desc) : Nat := 1 + arcClass d

/-- Dispatch the chosen command to the given unit of its class, which takes it. -/
def dispatchTo (s : State) (cls : EngClass) (unit c : Nat) (x : Ctx) (hit : Option Hit) : State :=
  match cls with
  | .lane =>
    if h : unit < 64 then
      withInv s c x fun s x => place (takeCunit s unit c) cls c { x with eng := some (.cipher ⟨unit, by omega⟩) } hit
    else s
  | .blvd =>
    if h : unit < 2 then
      withInv s c x fun s x =>
        place (takeCunit s (64 + unit) c) cls c { x with eng := some (.cipher ⟨64 + unit, by omega⟩) } hit
    else s
  | .hash =>
    if h : unit < 32 then
      place (setHunit s unit { hunit s unit with ctx := some c }) cls c { x with eng := some (.hash ⟨unit, h⟩) } hit
    else s
  | .arcade =>
    if h : unit < 8 then
      let s := setAunit s unit { aunit s unit with ctx := some c }
      let s := setFld s (rk (0x20 + unit) Reg.ARC_MODE) 14 12 (arcCur x.d)
      placeDraw s cls unit c { x with eng := some (.arcade ⟨unit, h⟩) } hit
    else s
  | .composite =>
    if h : unit < 64 then
      let hash := if usesHash x.d then (freeHash s).toList else []
      withDukpt s c x fun s x =>
        let s := takeCunit s unit c
        let s := hash.foldl (fun s u => setHunit s u.val { hunit s u.val with ctx := some c }) s
        placeDraw s cls unit c { x with resv := .cipher ⟨unit, by omega⟩ :: hash.map .hash } hit
    else s
  | .mews => placeDraw s cls unit c x hit
  | .fountain => rngJoin (place s cls c x hit) c
  | .roundabout => s

/-- A command that finds no available unit ends with UNSUPPORTED, DETAIL 0x05 (R120). -/
def noEngine (s : State) (c : Nat) : State := finishS (raiseInt s 0x10 2) c 0x0B 0x05 0

/-- A command on curve parameters names a Curve Store entry, in MODE 2 (R263). -/
def namesCurve (x : Ctx) (e : Nat) : Bool :=
  x.d.opcode == 0x58 && x.d.mode == 2 && curveCode x == 0x80 + e && bits x.d.arg 7 0 != 0x16 && bits x.d.arg 7 0 != 0x17

/-- A command that has been accepted and has not copied its curve. -/
def beforeCopy (x : Ctx) : Bool := decide (x.phase = .held ∨ x.phase = .ready)

/-- An uncorrectable Curve Store error empties the entry; commands that name it and have still to copy it will end (R416, R417). -/
def curveLoss (s : State) (e : Nat) : State :=
  let mark (c : Nat × Ctx) : Nat × Ctx := if beforeCopy c.2 && namesCurve c.2 e then (c.1, { c.2 with curveBad := some e }) else c
  let s := { s with quay := { s.quay with ctxs := s.quay.ctxs.map mark } }
  let s := bump { s with curves := tdel s.curves e } Reg.CHECKPOINT_SRAM_ECC 31 16 1
  raiseInt (errSynd (countFault s 0x40) 0x40 0x13 0x20 e 0) 0x40 8

/-- Commands that wait for a class with no unit left end (R120). -/
def noEngineSweep (s : State) : State :=
  (s.quay.ctxs.filter fun e =>
    decide (e.2.phase = .ready) && e.2.d.opcode != 0 && fenceOk s e.1 e.2 && !anyAvail s e.2.d).foldl
    (fun s e => noEngine s e.1) s

/-- The ECC of the Key Table or Curve Store as the dispatched command used it (R197, R413, R416). -/
def useEcc (s : State) (c : Nat) (x : Ctx) : EccSeen → State
  | .clean => s
  | .corrected => if x.keys.isEmpty then bump s Reg.CHECKPOINT_SRAM_ECC 15 0 1 else bump s Reg.MEWS_KT_ECC 15 0 1
  | .keyTable n lost =>
    if x.keys.any (fun k => decide (k.slot ≤ n.val ∧ n.val < k.slot + k.run)) then ktLoss s n.val lost else s
  | .curve e =>
    if namesCurve x e.val then placedEnds (curveLoss s e.val) c x 0x08 0x08 else s

/-- The Roundabout dispatches the next command of a class to a unit (R118, R120). -/
def dispatch (s : State) (cls : EngClass) (unit : Nat) (ecc : EccSeen) (hit : Option Hit) : State :=
  match chooseNext s cls unit with
  | none => s
  | some (c, x) =>
    if !anyAvail s x.d then noEngine s c
    else
      let s := dispatchTo s cls unit c x hit
      match ctxAt s c with
      | some y =>
        if y.phase ≠ .placed then s else if y.curveBad.isSome then placedEnds s c y 0x08 0x08 else useEcc s c y ecc
      | none => s

def execDispatch (cls : EngClass) (unit : Nat) (seen : KeySeen) (s : State) : Res :=
  .next (dispatch s cls unit seen.ecc seen.hit)

/-! ## Reservations (R138 to R140, R455) -/

/-- Commands that waited for a block up to the confirmed one go on, their values issued now (R134, R138). -/
def wakeRsv (s : State) (slot blk : Nat) (dukpt : Bool) : State :=
  let wakes (x : Ctx) : Bool := x.waitRsv && keySlotNo x == slot
    && (if dukpt then x.d.opcode == 0x63 && x.aux / 1024 % 2 == blk % 2 && decide (x.aux / 1024 ≤ blk)
        else x.d.opcode == 0x10 && x.step % 2 == blk % 2 && decide (x.step ≤ blk))
  let go (e : Nat × Ctx) : Nat × Ctx :=
    if wakes e.2 then (e.1, { e.2 with waitRsv := false, fixed := if dukpt then e.2.fixed else fixedField s e.2.q }) else e
  { s with quay := { s.quay with ctxs := s.quay.ctxs.map go } }

/-- Blocks that commands still wait for on a slot. -/
def rsvWanted (s : State) (slot : Nat) (dukpt : Bool) : List Nat :=
  s.quay.ctxs.filterMap fun e =>
    if e.2.waitRsv && keySlotNo e.2 == slot && (e.2.d.opcode == 0x63) == dukpt then
      some (if dukpt then e.2.aux / 1024 else e.2.step)
    else none

/-- A block is confirmed wherever it must be: values may be issued from it. A block that a command still waits for is reserved next. -/
def rsvConfirmed (s : State) (slot blk : Nat) (dukpt : Bool) : State :=
  let s := wakeRsv s slot blk dukpt
  let next := (rsvWanted s slot dukpt).head?
  if dukpt then
    let v := dukptAt s slot
    let tdes := (slotAt s slot).alg == 8
    let v := { v with top := if blk % 2 = v.par then some (max blk (v.top.getD 0)) else v.top, pend := none }
    let begun := blk % 2 == v.par && decide (blk * 1024 < v.next)
    setDukpt s slot (match next with
      | some b => dukptReserve v tdes b
      | none => if begun then dukptReserve v tdes blk else v)
  else
    let v := ctrAt s slot
    let v := { v with conf := if blk % 2 = v.blk % 2 then some (max blk (v.conf.getD 0)) else v.conf, pend := none }
    setCtr s slot (match next with
      | some b => reserve v b
      | none => v)

/-- The read-back of a reservation succeeded here: recorded, counted, and with a partner confirmed there too (R138, R455). -/
def rsvWritten (s : State) (slot blk : Nat) (dukpt : Bool) : State :=
  let s := if dukpt then
      bump { s with fer := { s.fer with dukpt := tput s.fer.dukpt slot (rsvPut (dukptRec s slot) true slot blk) } }
        Reg.COMP_DUKPT_RSV 15 0 1
    else
      bump { s with fer := { s.fer with rsv := tput s.fer.rsv slot (rsvPut (rsvAt s slot) false slot blk) } }
        Reg.LANE_RSV_CNT 15 0 1
  if paired s then mirror s (if dukpt then 4 else 3) (rsvBody slot blk) (.rsv slot blk dukpt)
  else rsvConfirmed s slot blk dukpt

/-- A failed read-back: counted and retried (R139); held while PD_LANE0 is off (R135). -/
def rsvRetry (s : State) (slot : Nat) : State :=
  let s := bump s Reg.LANE_RSV_CNT 31 16 1
  if domOn s 1 then raiseInt (errSynd (countFault s 0x11) 0x11 0x12 0x20 0 slot) 0x11 (2 ^ 8)
  else { s with units := { s.units with heldRetry := s.units.heldRetry + 1 } }

/-- A reservation waits for the partner's FeRAM already (R455). -/
def rsvMirrored (s : State) (slot blk : Nat) (dukpt : Bool) : Bool := s.xing.mirror.any fun i => i.wait == .rsv slot blk dukpt

/-- The reservation of a slot is read back (R138, R139). -/
def reservationConfirm (s : State) (slot : Nat) (ok : Bool) : State :=
  match (ctrAt s slot).pend with
  | none => s
  | some b =>
    if rsvMirrored s slot b false then s
    else if ok then rsvWritten s slot b false else rsvRetry s slot

/-- The DUKPT reservation of a slot is read back (R234). -/
def dukptConfirm (s : State) (slot : Nat) (ok : Bool) : State :=
  match (dukptAt s slot).pend with
  | none => s
  | some b =>
    if rsvMirrored s slot b true then s
    else if ok then rsvWritten s slot b true
    else
      let s := bump s Reg.COMP_DUKPT_RSV 31 16 1
      raiseInt (errSynd (countFault s 0x2A) 0x2A 0x10 0x20 0 slot) 0x2A 1

def execReservationConfirm (slot : SlotNo) (ok : Bool) (s : State) : Res :=
  .next (reservationConfirm s slot.val ok)
def execDukptReservationConfirm (slot : SlotNo) (ok : Bool) (s : State) : Res :=
  .next (dukptConfirm s slot.val ok)

end Sys2Proof.Machine
end

