-- ==== Sys2Proof/Machine/Lanes.lean ====
section
/-! DEFINITION. Lanes, Boulevard pipelines and hash units: the cipher and hash opcodes, beats and their compare, stops,
known-answer tests, retests and the long counts (chapter 4). -/
namespace Sys2Proof.Machine
open Sys2Proof

/-! ## A command on its unit -/

/-- Binding of key operand n, and its schedule in a core, with what a fault flips in it. -/
def algOf (x : Ctx) (n : Nat) : Nat := x.algs.getD n 0
def coreKey (v : CipherCore) (n : Nat) (err : CoreErr) : Bytes := xorBytes (v.keys.getD n []) err.sched

/-- Modes whose payload output is released beat by beat (R145, R150). -/
def streams (d : Desc) : Bool := isCipherOp d.opcode
def isAead (d : Desc) : Bool := isCipherOp d.opcode && (d.mode == 4 || d.mode == 6 || d.mode == 0x20)
/-- Bytes of a cipher block. -/
def blockBytes (d : Desc) : Nat := if d.mode = 0x11 || d.mode = 0x12 || d.mode = 0x17 then 8 else 16
/-- The granule of a stop point (R150). -/
def stopGrain (d : Desc) : Nat := if d.mode = 6 || d.mode = 0x11 || d.mode = 0x12 then 512 else 4096

/-- Modes whose generated IV is an encryption, which each core forms itself (R136, R144). -/
def ownIv (d : Desc) : Bool := takesInv d && (d.mode == 2 || d.mode == 0x12)

/-- The IV, nonce, initial counter block or tweak a command starts from (R95, R136): for a generated CBC IV, nothing before the cores
have formed it. -/
def startIv (x : Ctx) : Bytes :=
  if ownIv x.d then []
  else if takesInv x.d then formIv x.d.mode (algOf x 0) [] x.fixed (x.inv.getD 0)
  else if x.d.mode = 4 || x.d.mode = 6 || x.d.mode = 0x20 then sl x.param 0 12
  else if x.d.mode = 0x12 then sl x.param 0 8
  else if x.d.mode = 1 || x.d.mode = 0x11 then []
  else sl x.param 0 16

/-- A cipher opcode begins on its lane or pipeline once its invocation is confirmed (R138, R550). -/
def cipherStart (s : State) (c : Nat) (ops : List Nat) : State :=
  match ctxAt s c with
  | none => s
  | some x =>
    if x.phase = .placed && !x.waitRsv && ops.contains x.d.opcode then
      setCtx s c { x with phase := .running, iv := startIv x }
    else s

def execEncrypt (ctx : CtxNo) (s : State) : Res := .next (cipherStart s ctx.val [0x10])
def execDecrypt (ctx : CtxNo) (s : State) : Res := .next (cipherStart s ctx.val [0x11])
def execMacGenerate (ctx : CtxNo) (s : State) : Res := .next (cipherStart s ctx.val [0x12])
def execMacVerify (ctx : CtxNo) (s : State) : Res := .next (cipherStart s ctx.val [0x13])
def execWrap (ctx : CtxNo) (s : State) : Res := .next (cipherStart s ctx.val [0x14])
def execUnwrap (ctx : CtxNo) (s : State) : Res := .next (cipherStart s ctx.val [0x15])
def execHash (ctx : CtxNo) (s : State) : Res := .next (cipherStart s ctx.val [0x20])
def execHmacGenerate (ctx : CtxNo) (s : State) : Res := .next (cipherStart s ctx.val [0x21])
def execHmacVerify (ctx : CtxNo) (s : State) : Res := .next (cipherStart s ctx.val [0x22])

/-! ## Beats (R127 to R130, R144 to R146, R548) -/

/-- Additional data and payload received so far. -/
def aadIn (x : Ctx) : Bytes := if isCipherOp x.d.opcode then x.srcIn.take x.d.aadLen else []
def payIn (x : Ctx) : Bytes := if isCipherOp x.d.opcode then x.srcIn.drop x.d.aadLen else x.srcIn

/-- XTS data unit in bytes (R96). -/
def unitBytes (d : Desc) : Nat := 2 ^ duLog d

/-- Payload bytes whose output the mode can produce from n payload bytes (R548). -/
def producible (d : Desc) (n : Nat) : Nat :=
  if d.len ≤ n then d.len
  else if d.mode = 3 || d.mode = 4 || d.mode = 0x20 then n
  else if d.mode = 5 then n / unitBytes d * unitBytes d
  else n / blockBytes d * blockBytes d

/-- Payload input needed before the beat that ends at e leaves: the last two blocks of a payload that ends within a block are
stolen from one another (R128). -/
def inputFor (d : Desc) (e : Nat) : Nat :=
  if d.mode = 5 && d.len % 16 != 0 && decide (d.len / 16 * 16 < e + 16) then d.len else e

/-- Success DETAIL: LATE and BOULEVARD (R108). -/
def okDetail (x : Ctx) : Nat :=
  b2n x.late + (match x.eng with
    | some (.cipher u) => if 64 ≤ u.val then 2 else 0
    | _ => 0)

/-- The units' work is counted: cipher blocks by lane group, payload bytes by pipeline (LANE_BLOCKS, BLVD_BYTES). DESIGN CHOICE: a
cipher block is 8 payload bytes of a TDES mode and 16 of any other, ChaCha20 included; additional data, IVs, tags and the iterations
of a key wrap add none. The manual says only 'cipher blocks processed'. -/
def countWork (s : State) (u n : Nat) (d : Desc) : State :=
  if u < 64 then
    let g := u / 8
    let b := (n + blockBytes d - 1) / blockBytes d
    { s with units := { s.units with laneBlocks := tset 0 s.units.laneBlocks g ((tget 0 s.units.laneBlocks g + b) % 2 ^ 64) } }
  else
    { s with units := { s.units with
      blvdBytes := tset 0 s.units.blvdBytes (u - 64) ((tget 0 s.units.blvdBytes (u - 64) + n) % 2 ^ 64) } }

/-- The lane number FAULT_COMPARE reports: 0 to 63, or 0x40 + n (R110, R156). -/
def unitCode (u : Nat) : Nat := if u < 64 then u else 0x40 + (u - 64)

/-- The unit zeroises both cores and starts its known-answer test (R147). -/
def unitTest (s : State) (u : Nat) : State := setCunit s u { cleared (cunit s u) with kat := true }

/-- What a disagreement records on the unit's page and with the Kerb (R146, R162, R163). DESIGN CHOICE: 0x40 + n, which INFO[5:0] as
R163 has it cannot hold, is written whole, with its bit 6 in INFO bit 6. -/
def compareRecord (s : State) (u : Nat) (d : Desc) (off : Nat) : State :=
  let p := cunitPage u
  let s := errSynd (countFault s p) p 0x10 0x20 (unitCode u + d.mode * 256) off
  let s := raiseInt s p 1
  let s := if u < 64 then
      setReg (bump s (rk p Reg.LANE_CMP_CNT) 15 0 1) (rk p Reg.LANE_LAST_CMP)
        (BitVec.ofNat 32 (2 ^ 31 + d.opcode * 2 ^ 16 + d.mode * 2 ^ 8 + u))
    else bump s Reg.BLVD_CMP_CNT (15 + 16 * (u - 64)) (16 * (u - 64)) 1
  kreport s { src := 8, info := u }

/-- A comparison disagrees: nothing further is released (R146). -/
def compareFail (s : State) (u c : Nat) (x : Ctx) : State :=
  let off := if streams x.d then x.done else 0
  unitTest (finishS (compareRecord s u x.d off) c 0x0A (unitCode u) off) u

/-- The command on a unit stops: both cores zeroised, nothing more written (R150). LANE_STOPS counts revocations, and the stops of
DISABLE_ABORT, FLR and the Kerb: a command that ends by a Context SRAM error counts in neither. -/
def stopNow (s : State) (u c : Nat) (st : Stop) (bytes : Nat) : State :=
  let s := if u < 64 then
      (if st.status = 0x02 then bump s (rk (cunitPage u) Reg.LANE_STOPS) 15 0 1
       else if st.detail = 0x01 || st.detail = 0x06 then bump s (rk (cunitPage u) Reg.LANE_STOPS) 31 16 1
       else s)
    else s
  let s := finishS s c st.status st.detail bytes
  setCunit s u (cleared (cunit s u))

/-! ### The two cores (R123, R144, R145) -/

/-- The checker inverts the primary's work in these modes; in the others it repeats it (R144). -/
def inverseChecked (mode : Nat) : Bool := [1, 2, 5, 0x11, 0x12].contains mode

/-- The IV in a core: its own, where each forms it (R144). -/
def coreIv (x : Ctx) (v : CipherCore) (err : CoreErr) : Bytes :=
  if ownIv x.d then formIv x.d.mode (algOf x 0) (coreKey v 0 err) x.fixed (x.inv.getD 0) else x.iv

/-- The chaining state a core works from at the released offset: its start, or what its last beat left; with what a fault flips. -/
def coreChain (x : Ctx) (v : CipherCore) (err : CoreErr) : Chain :=
  let k := if x.done = 0 then chainStart x.d.mode (coreKey v 0 err) (coreIv x v err) (aadIn x) x.d.len else v.chain
  { ctr := xorBytes k.ctr err.ctr, acc := xorBytes k.acc err.acc }

/-- What a beat comes to: the bytes to release, and both cores after it. -/
structure BeatOut where
  out : Bytes
  prim : CipherCore
  chk : CipherCore
deriving DecidableEq, Repr

/-- An XTS beat: both cores work through the payload from its start, the checker back from the primary's output. -/
def xtsBeat (x : Ctx) (v : CUnit) (e : Nat) (pe ce : CoreErr) : Option BeatOut :=
  let n := e - x.done
  let inp := (payIn x).take (inputFor x.d e)
  let inv := x.d.opcode == 0x11
  let all := xtsPayload inv (coreKey v.prim 0 pe) (xorBytes (fit 16 x.iv) pe.ctr) (unitBytes x.d) inp
  let out := xorBytes (sl all x.done n) pe.out
  let back := xtsPayload (!inv) (coreKey v.chk 0 ce) (xorBytes (fit 16 x.iv) ce.ctr) (unitBytes x.d)
    (all.take x.done ++ out ++ all.drop e)
  if xorBytes (sl back x.done n) ce.out = sl inp x.done n then some { out, prim := v.prim, chk := v.chk } else none

/-- A beat of any other mode from the released offset to e: none when a comparison of R144 disagrees. -/
def chainedBeat (x : Ctx) (v : CUnit) (e : Nat) (pe ce : CoreErr) : Option BeatOut :=
  let inp := sl (payIn x) x.done (e - x.done)
  let inv := x.d.opcode == 0x11
  let kp := coreChain x v.prim pe
  let kc := coreChain x v.chk ce
  let p := chainBeat x.d.mode inv (coreKey v.prim 0 pe) inp kp
  let out := xorBytes p.1 pe.out
  let c := if inverseChecked x.d.mode then chainBeat x.d.mode (!inv) (coreKey v.chk 0 ce) out kc
    else chainBeat x.d.mode inv (coreKey v.chk 0 ce) inp kc
  let ivOk := x.done != 0 || !ownIv x.d || kp.acc == kc.acc
  if ivOk && xorBytes c.1 ce.out == (if inverseChecked x.d.mode then inp else out) then
    some { out, prim := { v.prim with chain := p.2 }, chk := { v.chk with chain := c.2 } }
  else none

/-- One payload beat through both cores. -/
def beatOf (x : Ctx) (v : CUnit) (e : Nat) (pe ce : CoreErr) : Option BeatOut :=
  if x.d.mode = 5 then xtsBeat x v e pe ce else chainedBeat x v e pe ce

/-- A core's CMAC chain over the message bytes up to e that are not of its last block (SP 800-38B). -/
def macBeat (x : Ctx) (v : CipherCore) (e : Nat) (err : CoreErr) : CipherCore :=
  let t := tdesMode x.d.mode
  let k := coreChain x v err
  let stop := min e (cmacHead t x.d.len)
  { v with chain := { k with acc := cmacChain t (coreKey v 0 err) k.acc (sl (payIn x) x.done (stop - x.done)) } }

/-- A core's MAC from its chain and the last block. -/
def macOf (x : Ctx) (v : CipherCore) (err : CoreErr) : Bytes :=
  let t := tdesMode x.d.mode
  let k := if x.d.len = 0 then coreChain x v err else v.chain
  xorBytes (cmacEnd t (coreKey v 0 err) (xorBytes k.acc err.acc) ((payIn x).drop (cmacHead t x.d.len))) err.out

/-- A core's tag of an AEAD mode. -/
def tagOf (x : Ctx) (v : CipherCore) (err : CoreErr) : Bytes :=
  let k := if x.d.len = 0 then coreChain x v err
    else { ctr := xorBytes v.chain.ctr err.ctr, acc := xorBytes v.chain.acc err.acc }
  xorBytes (chainTag x.d.mode (coreKey v 0 err) k x.d.aadLen x.d.len) err.out

/-- A core's run of a key wrap or unwrap, with every intermediate A and R value (R144). -/
def wrapOf (x : Ctx) (v : CipherCore) (err : CoreErr) : WrapSt :=
  let w := if x.d.opcode = 0x14 then wrapFor x.d.mode (coreKey v 0 err) (payIn x) else unwrapRun (coreKey v 0 err) (payIn x)
  { a := xorBytes w.a err.out, r := w.r, trace := xorBytes w.trace err.acc }

/-- The release of the tag, MAC or wrapped output that ends a command: nothing unless the cores' own values agree (R145). -/
def lastBeat (s : State) (u c : Nat) (x : Ctx) (pe ce : CoreErr) (hit : Option Hit) : State :=
  let d := x.d
  let v := cunit s u
  let ok : CmdEnd := { detail := okDetail x, bytesDone := d.len, result := ivResult x }
  if isAead d then
    let tag := tagOf x v.prim pe
    if tag ≠ tagOf x v.chk ce then compareFail s u c x
    else if d.opcode = 0x10 then finish s c { ok with formA := some (tag, fit 12 x.iv) }
    else if tag = sl x.param 0x10 16 then finish s c ok
    else finishS s c 0x05 0 d.len
  else if d.opcode = 0x12 || d.opcode = 0x13 then
    let mac := macOf x v.prim pe
    if mac ≠ macOf x v.chk ce then compareFail s u c x
    else if d.opcode = 0x12 then finishOut s c (fit (macLen d) mac) ok hit
    else if fit (macLen d) mac = sl x.param 0 (macLen d) then finish s c ok
    else finishS s c 0x05 0 d.len
  else if d.opcode = 0x14 || d.opcode = 0x15 then
    let w := wrapOf x v.prim pe
    let w' := wrapOf x v.chk ce
    if w.trace ≠ w'.trace || wrapBytes w ≠ wrapBytes w' then compareFail s u c x
    else
      let res := if d.opcode = 0x14 then some (wrapBytes w) else unwrapPlain d.mode w
      match res with
      | none => finishS s c 0x05 0 0
      | some out => finishOut s c out { ok with bytesDone := out.length } hit
  else if ownIv d && d.len = 0 then
    (if (coreChain x v.prim pe).acc ≠ (coreChain x v.chk ce).acc then compareFail s u c x
     else finish s c { ok with result := (coreChain x v.prim pe).acc })
  else finish s c ok

/-- The payload beat from the released offset to e leaves when the two cores agree (R145). -/
def streamBeat (s : State) (u c : Nat) (x : Ctx) (e : Nat) (pe ce : CoreErr) (hit : Option Hit) : State :=
  match beatOf x (cunit s u) e pe ce with
  | none => compareFail s u c x
  | some b =>
    let x := if x.done = 0 && ownIv x.d then { x with iv := coreIv x (cunit s u).prim pe } else x
    let s := setCtx s c x
    let s := setCunit s u { cunit s u with prim := b.prim, chk := b.chk }
    let p := putDst (countWork s u (e - x.done) x.d) c b.out hit
    match p.1 with
    | some (st, dt) => finishS p.2 c st dt (((ctxAt p.2 c).map bytesAtFail).getD 0)
    | none => match ctxAt p.2 c with
      | none => p.2
      | some y =>
        let y := { y with done := e }
        let s := setCtx p.2 c y
        let ends : Bool := e = y.d.len && !isAead y.d
        match y.stop with
        | some st => if st.at' ≤ e then stopNow s u c st e else if ends then lastBeat s u c y {} {} none else s
        | none => if ends then lastBeat s u c y {} {} none else s

/-- A command whose source side ended early has released all it can (R548). -/
def sourceStops (s : State) (c : Nat) (x : Ctx) (bytes : Nat) : State :=
  match x.srcEnd with
  | some (st, dt) => finishS s c st dt bytes
  | none => s

/-- A lane or pipeline finishes a beat; what faults flip in its two cores on the way is given. -/
def laneBeat (s : State) (u : Nat) (pe ce : CoreErr) (hit : Option Hit) : State :=
  match (cunit s u).ctx with
  | none => s
  | some c => match ctxAt s c with
    | none => s
    | some x =>
      if x.phase ≠ .running || !decide (x.eng.map (fun | .cipher v => v.val | _ => 66) = some u) then s
      else if streams x.d then
        let limit := match x.srcEnd with
          | some _ => producible x.d (payIn x).length
          | none => x.d.len
        let e := min limit (x.done + 64)
        if x.done = x.d.len then
          (if x.srcEnd.isSome || x.srcIn.length < srcNeed x then sourceStops s c x x.done
           else lastBeat s u c x pe ce hit)
        else if x.srcEnd.isSome && decide (limit ≤ x.done) then sourceStops s c x x.done
        else if x.srcEnd.isNone && decide ((payIn x).length < inputFor x.d e) then s
        else streamBeat s u c x e pe ce hit
      else
        let e := min (x.done + 64) (payIn x).length
        if x.done < e then
          let v := cunit s u
          let mac : Bool := x.d.opcode = 0x12 || x.d.opcode = 0x13
          let s := if mac then setCunit s u { v with prim := macBeat x v.prim e pe, chk := macBeat x v.chk e ce } else s
          setCtx (countWork s u (e - x.done) x.d) c { x with done := e }
        else if x.srcEnd.isSome then sourceStops s c x (if x.d.opcode = 0x12 || x.d.opcode = 0x13 then x.done else 0)
        else if x.done = x.d.len then lastBeat s u c x pe ce hit else s

def execLaneBeat (u : CipherUnit) (e : BeatIn) (s : State) : Res :=
  .next (laneBeat s u.val e.pe e.ce e.hit)

/-! ## Hash units (R153, R154) -/

/-- Bytes that hash units consumed are counted (HASH_BYTES). -/
def countHash (s : State) (n : Nat) : State :=
  { s with units := { s.units with hashBytes := (s.units.hashBytes + n) % 2 ^ 64 } }

/-- A hash unit ends its command: digest, MAC, or the comparison with the expected MAC. -/
def hashDone (s : State) (u : Nat) (hit : Option Hit) : State :=
  match (hunit s u).ctx with
  | none => s
  | some c => match ctxAt s c with
    | none => s
    | some x =>
      let d := x.d
      if x.phase ≠ .running || !decide (x.eng.map (fun | .hash v => v.val | _ => 32) = some u) then s
      else if x.srcEnd.isSome then sourceStops (countHash s x.srcIn.length) c x x.srcIn.length
      else if x.srcIn.length < d.len then s
      else
        let key := (hunit s u).key
        let s := countHash s x.srcIn.length
        let ok : CmdEnd := { detail := b2n x.late, bytesDone := d.len }
        let n := if d.mode = 6 || d.mode = 7 then outLen d else digestLen d.mode
        let mac := fit (macLen d) (hmacOf d.mode key x.srcIn)
        match d.opcode with
        | 0x20 => finishOut s c (fit n (hashOf d.mode n x.srcIn)) ok hit
        | 0x21 => finishOut s c mac ok hit
        | _ => if mac = sl x.param 0 (macLen d) then finish s c ok else finishS s c 0x05 0 d.len

def execHashDigestDone (o : HashOut) (s : State) : Res := .next (hashDone s o.n.val o.hit)

/-! ## Known-answer tests, retests and FORCE_OFF (R147, R148, R154, R156) -/

/-- A lane's or pipeline's test ends. -/
def cunitKatDone (s : State) (u : Nat) (pass : Bool) : State :=
  let v := cunit s u
  if !v.kat || !domOn s (cunitDom u) then s
  else if pass then setCunit s u { v with kat := false, offline := false }
  else
    let p := cunitPage u
    let s := setCunit s u { cleared v with kat := false, offline := true }
    noEngineSweep (raiseInt (errSynd (countFault s p) p 0x11 0x20 (unitCode u) 0) p 6)

def hunitKatDone (s : State) (u : Nat) (pass : Bool) : State :=
  let v := hunit s u
  if !v.kat || !domOn s (1 + u / 4) then s
  else if pass then setHunit s u { v with kat := false, offline := false }
  else
    let s := setHunit s u { v with kat := false, offline := true }
    noEngineSweep (raiseInt (errSynd (countFault s 0x1A) 0x1A 0x11 0x20 u 0) 0x1A 3)

def execLaneKatDone (n : LaneNo) (pass : Bool) (s : State) : Res := .next (cunitKatDone s n.val pass)
def execBlvdKatDone (n : PipeNo) (pass : Bool) (s : State) : Res := .next (cunitKatDone s (64 + n.val) pass)
def execHashKatDone (n : HashNo) (pass : Bool) (s : State) : Res := .next (hunitKatDone s n.val pass)

/-- A RETEST of a unit: at once, or when its command completes (R148). -/
def retestCunit (s : State) (u : Nat) : State :=
  let v := cunit s u
  setCunit s u (if v.ctx.isSome then { v with retest := true } else { cleared v with kat := true })
def retestHunit (s : State) (u : Nat) : State :=
  let v := hunit s u
  setHunit s u (if v.ctx.isSome then { v with retest := true } else { v with kat := true })
/-- FORCE_OFF reaches an idle unit at once (R148). DESIGN CHOICE: it sets no OFFLINE or LANE_OFFLINE event, which R147 gives to a
failed test only. -/
def forceCunit (s : State) (u : Nat) : State :=
  let v := cunit s u
  if v.ctx.isSome then s
  else if forceOff s u then setCunit s u { cleared v with forced := true } else setCunit s u { v with forced := false }

def laneRetest (s : State) (src : Src) (g bits' : Nat) : State :=
  gate s src (0x11 + g) Reg.LANE_OFFLINE_CTRL fun s =>
    (bitsOf bits' 8).foldl (fun s n => retestCunit s (8 * g + n)) s
def laneForceOff (s : State) (src : Src) (g bits' : Nat) : State :=
  gate s src (0x11 + g) Reg.LANE_OFFLINE_CTRL fun s =>
    let s := setFld s (rk (0x11 + g) Reg.LANE_OFFLINE_CTRL) 7 0 bits'
    (List.range 8).foldl (fun s n => forceCunit s (8 * g + n)) s
def blvdRetest (s : State) (src : Src) (bits' : Nat) : State :=
  gateReg s src Reg.BLVD_OFFLINE_CTRL fun s => (bitsOf bits' 2).foldl (fun s n => retestCunit s (64 + n)) s
def blvdForceOff (s : State) (src : Src) (bits' : Nat) : State :=
  gateReg s src Reg.BLVD_OFFLINE_CTRL fun s =>
    let s := setFld s Reg.BLVD_OFFLINE_CTRL 1 0 bits'
    (List.range 2).foldl (fun s n => forceCunit s (64 + n)) s
/-- Hash units of a group that is off are not reached. -/
def hashRetest (s : State) (src : Src) (v : Word) : State :=
  gateReg s src Reg.HASH_RETEST fun s =>
    (bitsOf v.toNat 32).foldl (fun s n => if domOn s (1 + n / 4) then retestHunit s n else s) s

def execLaneRetest (src : Src) (g : GroupNo) (bits' : BitVec 8) (s : State) : Res :=
  .next (laneRetest s src g.val bits'.toNat)
def execLaneForceOff (src : Src) (g : GroupNo) (bits' : BitVec 8) (s : State) : Res :=
  .next (laneForceOff s src g.val bits'.toNat)
def execBlvdRetest (src : Src) (bits' : BitVec 2) (s : State) : Res := .next (blvdRetest s src bits'.toNat)
def execBlvdForceOff (src : Src) (bits' : BitVec 2) (s : State) : Res := .next (blvdForceOff s src bits'.toNat)
def execHashRetest (src : Src) (v : BitVec 32) (s : State) : Res := .next (hashRetest s src v)

/-! ## Stops reaching a unit (R149 to R151, R215, R271) -/

/-- The stop point of a running lane command: none when it ends at once (R150). -/
def stopPoint (x : Ctx) : Option Nat :=
  if streams x.d then
    let p := min x.d.len (roundUp x.done (stopGrain x.d))
    if p ≤ x.done then none else some p
  else none

/-- Bytes a lane or hash command reports when a stop ends it (R106, R150). -/
def stopBytes (x : Ctx) : Nat :=
  if streams x.d || x.d.opcode = 0x12 || x.d.opcode = 0x13 then x.done
  else if 0x20 ≤ x.d.opcode then x.srcIn.length
  else 0

/-- A stop reaches a lane or pipeline. -/
def stopCunit (s : State) (u : Nat) : State :=
  match (cunit s u).ctx with
  | none => s
  | some c => match ctxAt s c with
    | none => s
    | some x => match x.stop, x.eng with
      | some st, some _ =>
        match if x.phase = .running then stopPoint x else none with
        | none => stopNow s u c st (stopBytes x)
        | some p => setCtx s c { x with stop := some { st with at' := min st.at' p } }
      | _, _ => s

/-- A stop reaches a hash unit: it ends at once. -/
def stopHunit (s : State) (u : Nat) : State :=
  match (hunit s u).ctx with
  | none => s
  | some c => match ctxAt s c with
    | none => s
    | some x => match x.stop, x.eng with
      | some st, some _ => finishS (countHash s x.srcIn.length) c st.status st.detail (stopBytes x)
      | _, _ => s

/-- A stop reaches an Arcade unit: it halts and zeroises; its completion follows (R271, R272). -/
def stopAunit (s : State) (u : Nat) : State :=
  match (aunit s u).ctx with
  | none => s
  | some c => match ctxAt s c with
    | none => s
    | some x => match x.stop with
      | none => s
      | some _ =>
        if x.phase = .zeroising then s
        else
          let s := setFld s (rk (0x20 + u) Reg.ARC_MODE) 14 12 5
          setCtx (fntForget s c) c { x with phase := .zeroising }

/-- The lane of a composite sequence. -/
def compLane (x : Ctx) : Option Nat :=
  x.resv.findSome? fun e => match e with
    | .cipher u => some u.val
    | _ => none

/-- A stop reaches a composite sequence: one that has not begun a step ends; another ends after its current step (R215). -/
def stopComposite (s : State) (c : Nat) : State :=
  match ctxAt s c with
  | none => s
  | some x => match x.stop with
    | none => s
    | some st =>
      match compLane x with
      | none => s
      | some u =>
      if x.phase = .placed then stopNow s u c st 0
      else setCtx s c { x with stop := some { st with at' := 0 } }

def unitStop (s : State) : Engine → State
  | .cipher u => stopCunit s u.val
  | .hash u => stopHunit s u.val
  | .arcade u => stopAunit s u.val
  | .composite c => stopComposite s c.val

def execUnitStop (u : Engine) (s : State) : Res := .next (unitStop s u)

/-! ## The erase wires (R16, R425, R426) -/

/-- A stopped streaming command runs on to its stop point with the bytes that have reached it, at most n beats. -/
def runOut : Nat → State → Nat → State
  | 0, s, _ => s
  | n + 1, s, u =>
    match (cunit s u).ctx.bind (ctxAt s) with
    | none => s
    | some x => if streams x.d && x.phase == .running then runOut n (laneBeat s u {} {} none) u else s

/-- The erase wires reach a lane or pipeline: its command stops, and its schedules, chaining state and composite store are gone.
DESIGN CHOICE: a streaming command reaches its stop point of R150 within the 0.5 µs that R425 gives the zeroisation if the bytes for
it have arrived, and otherwise stops where it stands, since nothing can be released once the keys are gone; a composite sequence's
current step ends then too. -/
def eraseCunit (s : State) (u : Nat) : State :=
  let s := runOut 64 (stopCunit s u) u
  let s := match (cunit s u).ctx with
    | none => s
    | some c => match ctxAt s c with
      | none => s
      | some x => match x.stop with
        | none => s
        | some st => if x.phase = .zeroising then s else stopNow s u c st (if x.eng.isNone then 0 else stopBytes x)
  setCunit s u (cleared (cunit s u))

/-- The erase wires reach a hash unit: its command ends, and its HMAC key and chaining state are gone. -/
def eraseHunit (s : State) (u : Nat) : State :=
  let s := stopHunit s u
  setHunit s u { hunit s u with key := [] }

/-- The erase wires reach every cipher, hash and Arcade unit. -/
def eraseUnits (s : State) : State :=
  let s := (List.range 66).foldl eraseCunit s
  let s := (List.range 32).foldl eraseHunit s
  (List.range 8).foldl stopAunit s

/-! ## Counts read low half first (R162, R163, R164) -/

/-- A read of the low word of a 64-bit count latches its high word. -/
def readLatch (s : State) (src : Src) (hi n : Nat) : State :=
  emit (setReg s hi (BitVec.ofNat 32 (n / 2 ^ 32))) (.readData src (toLe 4 n))

def laneBlocksRead (s : State) (src : Src) (g : Nat) : State :=
  gateRead s src (rk (0x11 + g) Reg.LANE_BLOCKS_LO) fun s =>
    readLatch s src (rk (0x11 + g) Reg.LANE_BLOCKS_HI) (tget 0 s.units.laneBlocks g)
def blvdBytesRead (s : State) (src : Src) (n : Nat) : State :=
  gateRead s src (Reg.BLVD_BYTES0_LO + 8 * n) fun s =>
    readLatch s src (Reg.BLVD_BYTES0_HI + 8 * n) (tget 0 s.units.blvdBytes n)
def hashBytesRead (s : State) (src : Src) : State :=
  gateRead s src Reg.HASH_BYTES_LO fun s => readLatch s src Reg.HASH_BYTES_HI s.units.hashBytes

/-- The earliest launch tick among held commands, all ones when none is held. -/
def nextLaunch (s : State) : Nat :=
  ((heldWhere s fun _ _ => true).head?.map fun e => e.2.launch).getD (2 ^ 64 - 1)
def nextLaunchRead (s : State) (src : Src) : State :=
  gateRead s src Reg.RBT_NEXT_LAUNCH_LO fun s => readLatch s src Reg.RBT_NEXT_LAUNCH_HI (nextLaunch s)

def execLaneBlocksLoRead (src : Src) (g : GroupNo) (s : State) : Res := .next (laneBlocksRead s src g.val)
def execBlvdBytesLoRead (src : Src) (n : PipeNo) (s : State) : Res := .next (blvdBytesRead s src n.val)
def execHashBytesLoRead (src : Src) (s : State) : Res := .next (hashBytesRead s src)
def execRbtNextLaunchLoRead (src : Src) (s : State) : Res := .next (nextLaunchRead s src)

end Sys2Proof.Machine
end

