-- ==== Sys2Proof/Machine/Mews.lean ====
section
/-! DEFINITION. The key-management commands, commits with and without a partner, cascades, assignments and the attribute
word's registers (R165 to R200, R210, R453, R549). -/
namespace Sys2Proof.Machine
open Sys2Proof

/-! ## Commits (R114, R194, R196, R453, R454, R458) -/

/-- The slots a slot-writing command will change: first slot and count of each run (R114). -/
def targetRuns (s : State) (x : Ctx) : List (Nat × Nat) :=
  (x.keys.filter (·.target)).map fun k =>
    if x.d.opcode = 0x34 then (k.slot, if isLive (slotAt s k.slot) then algRun (slotAt s k.slot).alg else 1)
    else if x.d.opcode = 0x32 then (k.slot, if 16 ≤ x.srcIn.length then algRun (byteAt x.srcIn 5) else 1)
    else (k.slot, k.run)

/-- Two runs share a slot. -/
def runsMeet (a b : Nat × Nat) : Bool := decide (a.1 < b.1 + b.2) && decide (b.1 < a.1 + a.2)

/-- A command has passed check 4. -/
def accepted (x : Ctx) : Bool :=
  match x.phase with
  | .held => true | .ready => true | .placed => true | .running => true | .zeroising => true
  | _ => false

/-- A slot write waits: the table is being overwritten (R196), or a command accepted earlier writes a slot of its runs (R114). -/
def slotWriteWaits (s : State) (c : Nat) (x : Ctx) : Bool :=
  s.mews.zeroising || s.quay.ctxs.any fun e =>
    e.1 != c && accepted e.2 && decide (e.2.acc < x.acc) && writesSlot e.2.d.opcode
      && (targetRuns s e.2).any fun a => (targetRuns s x).any (runsMeet a)

/-- The completion after a commit: the new handle of the written slot in AUX, a key pair's second handle in RESULT
(R106, R187, R258). -/
def endAfter (s : State) (op : SlotOp) (f : CmdEnd) : CmdEnd :=
  let h (n : Nat) : Nat := mkHandle n (slotAt s n).gen
  match op with
  | .write n _ => { f with aux := h n }
  | .pair n _ m _ => { f with aux := h n, result := toLe 4 (h m) }
  | .erase n _ => { f with aux := h n }
  | .curve _ _ => f

/-- Index of the first key operand whose slot has advanced its generation since check 4. -/
def lostKey (s : State) (x : Ctx) : Option Nat :=
  x.keys.findIdx? fun k => k.gen != 0 && (slotAt s k.slot).gen != k.gen

/-- Slots and generations a command names (R454). -/
def namedGens (s : State) (c : Nat) : List (Nat × Nat) :=
  match ctxAt s c with
  | none => []
  | some x => (x.keys.filter fun k => k.gen != 0).map fun k => (k.slot, k.gen)

/-- The unit's counts of an ended command (ARC_OPS, ARC_REJECTS, ARC_ABORTS, ARC_LAST). -/
def arcCount (s : State) (n : Nat) (x : Ctx) (status : Nat) : State :=
  let p := 0x20 + n
  let s := bump s (rk p Reg.ARC_OPS) 31 0 1
  let s := if status = 0x06 then
      (let s := bump s (rk p Reg.ARC_REJECTS) 15 0 1
       if x.broken then bump s (rk p Reg.ARC_REJECTS) 31 16 1 else s)
    else if status = 0x08 then bump s (rk p Reg.ARC_ABORTS) 31 16 1
    else if status = 0x02 then bump s (rk p Reg.ARC_ABORTS) 15 0 1 else s
  setReg s (rk p Reg.ARC_LAST) (BitVec.ofNat 32 (status * 2 ^ 24 + x.d.opcode * 2 ^ 16 + x.d.mode * 2 ^ 8
    + if x.d.opcode = 0x58 then arcFunc x.d else 0))

/-- A command commits and ends: refused while ISOLATED; with a partner after both have committed, through the sequencer; else
at once. -/
def commitFor (s : State) (c : Nat) (op : SlotOp) (f : CmdEnd) : State :=
  let gens := namedGens s c
  if s.xing.state = 5 then finishS s c 0x08 0x09 0
  else if paired s && !s.xing.seqr then waitMirror s c (opKind op) (opBody s op gens) (.commit (some c) op f)
  else
    let s := applyOp s (some c) op
    let f := endAfter s op f
    if paired s then waitMirror s c (opKind op) (opBody s op gens) (.slot (some c) f) else finish (copyCommit s op) c f

/-- The partner has made a mirrored commit, or it has failed: an output that waited for it is written on success (R460), and its command
ends, an Arcade command when its unit has zeroised; one whose unit has done so is counted there. -/
def commitSettle (s : State) (c : Nat) (f : CmdEnd) : State :=
  let out := ((ctxAt s c).map (·.outp)).getD []
  let s := if f.status = 0 && !out.isEmpty then (putDst s c out none).2 else s
  match ctxAt s c with
  | none => s
  | some x => match x.eng with
    | some (.arcade _) => setCtx s c { x with
        mirWait := false, outp := [], status := f.status, detail := f.detail, bytesDone := f.bytesDone
        result := f.result, aux := f.aux }
    | _ => finish (if 0x50 ≤ x.d.opcode && x.d.opcode ≤ 0x58 then arcCount s x.unit x f.status else s) c f

/-- A forwarded commit comes back ordered by the sequencer: its command ends with KEY_REVOKED when a key it named has changed
meanwhile (R114, R454). -/
def commitBack (s : State) (c : Option Nat) (op : SlotOp) (f : CmdEnd) : State :=
  match c with
  | none => applyOp s none op
  | some c => match ctxAt s c with
    | none => s
    | some x => match lostKey s x with
      | some i => commitSettle s c { status := 0x02, detail := i }
      | none =>
        let s := applyOp s (some c) op
        commitSettle s c (endAfter s op f)

/-! ## Blobs (R190 to R193) -/

/-- The clear header of a blob. -/
def blobHeader (kind state alg : Nat) (serial : Nat) : Bytes :=
  toLe 2 0xB10B ++ toLe 1 1 ++ toLe 1 kind ++ toLe 1 state ++ toLe 1 alg ++ toLe 2 (algBytes alg) ++ toLe 8 serial

/-- The key's attribute word as a blob carries it: GENERATION, PARENT and ASSIGNED cleared. -/
def blobAttr (v : Slot) : Nat := attrWord { v with gen := 0, parent := 0, asg := false }

/-- The slot of key operand n, and its material. -/
def targetOf (x : Ctx) (n : Nat) : Nat := ((x.keys[n]?).map (·.slot)).getD 0
def operandMat (s : State) (x : Ctx) (n : Nat) : Bytes := keyMat s (targetOf x n)

/-- The wrapping key of a blob operand: the root, or operand 0's material. -/
def blobKey (s : State) (x : Ctx) : Bytes :=
  if x.d.handle = 1 then (s.life.root).getD [] else operandMat s x 0

/-- The header a blob made or taken here must have. -/
def ownHeader (s : State) (root : Bool) (alg : Nat) : Bytes :=
  if root then blobHeader 1 s.life.state alg Config.serial.toNat else blobHeader 0 0 alg 0

/-- The blob of a key. -/
def makeBlob (s : State) (x : Ctx) (slot : Nat) : Bytes :=
  let v := slotAt s slot
  let h := ownHeader s (x.d.handle == 1) v.alg
  let pt := h ++ toLe 16 (blobAttr v) ++ fit (algBytes v.alg) (keyMat s slot)
  h ++ fit (blobLen v.alg - 16) (wrapKey 9 (blobKey s x) pt)

/-- A blob's attribute word and material, when every test of R192 passes. -/
def openBlob (s : State) (x : Ctx) (b : Bytes) : Option (Nat × Bytes) :=
  let alg := byteAt b 5
  let n := algBytes alg
  let h := b.take 16
  if (algInfo alg).isNone || b.length != blobLen alg || h != ownHeader s (x.d.handle == 1) alg then none
  else match unwrapKey 9 (blobKey s x) (b.drop 16) with
    | none => none
    | some pt =>
      if pt.length = 32 + n && pt.take 16 == h then some (leAt pt 16 16, sl pt 32 n) else none

/-! ## Key-management opcodes (R180 to R188) -/

/-- A command of an opcode runs on the Mews: dispatched, its turn in the order of slot writes come. -/
def mewsRun (s : State) (c op : Nat) (k : Ctx → State) : State :=
  match ctxAt s c with
  | none => s
  | some x =>
    if x.d.opcode ≠ op || x.phase ≠ .placed || (writesSlot op && slotWriteWaits s c x) then s else k x

/-- Success of the command. -/
def okEnd (x : Ctx) : CmdEnd := { detail := b2n x.late }

/-- A new key as its command writes it: its attributes and material, assigned to the command's domain (R182, R184). -/
def newKey (x : Ctx) (t : Slot) (mat : Bytes) : Slot := { t with mat := mat, asg := true, dom := x.dom }

/-- KEY_GENERATE (R182). -/
def keyGenerate (s : State) (c : Nat) : State :=
  mewsRun s c 0x30 fun x => match drawn s c with
    | none => s
    | some b =>
      let t := templateOf x.param
      commitFor s c (.write (targetOf x 0) (newKey x t (fit (algBytes t.alg) b))) (okEnd x)

/-- KEY_DERIVE (R183, R184, R198). -/
def keyDerive (s : State) (c : Nat) : State :=
  mewsRun s c 0x31 fun x =>
    let t := templateOf x.param
    let mat := kdf (algOf x 0) (operandMat s x 0) (sl x.param 0x14 4) (sl x.param 0x18 (bits x.d.arg 5 0)) (algBits t.alg)
    commitFor s c (.write (targetOf x 1) (newKey x { t with parent := x.d.handle } mat)) (okEnd x)

/-- The checks after the blob has passed (R177, R180 steps 4 and 5, R185). -/
def importCheck (s : State) (x : Ctx) (t : Slot) (alg dom slot : Nat) : Fail :=
  firstFail [failIf (x.d.handle == 1 && dom != x.dom) 0x0C 0x20,
    failIf (t.alg != alg || templateBad t) 0x01 0x10,
    failIf (slot % algRun alg != 0) 0x01 0x10,
    failIf ((List.range (algRun alg)).any fun n => !inDomain s (slot + n) x.dom) 0x0C 1]

/-- A command that names ROOT finds it discarded since check 4 (R427). -/
def rootGone (s : State) (x : Ctx) : Bool := x.d.handle == 1 && s.life.root.isNone

/-- KEY_IMPORT, once its whole blob has arrived (R185, R192). -/
def keyImport (s : State) (c : Nat) : State :=
  mewsRun s c 0x32 fun x =>
    if x.srcIn.length < x.d.len then s
    else if rootGone s x then finishS s c 0x02 0 0
    else match openBlob s x x.srcIn with
      | none => finishS s c 0x05 0 0
      | some (attr, mat) =>
        let t := fromTemplate attr
        let slot := targetOf x 1
        match importCheck s x t (byteAt x.srcIn 5) (bits attr 75 64) slot with
        | some (st, dt) => finishS s c st dt 0
        | none => commitFor s c (.write slot (newKey x t mat)) { okEnd x with bytesDone := x.d.len }

/-- KEY_EXPORT (R186, R191, R193). -/
def keyExport (s : State) (c : Nat) (hit : Option Hit) : State :=
  mewsRun s c 0x33 fun x =>
    if rootGone s x then finishS s c 0x02 0 0 else
    let b := makeBlob s x (targetOf x 1)
    finishOut s c b { okEnd x with bytesDone := b.length } hit

/-- KEY_ERASE (R187). -/
def keyErase (s : State) (c : Nat) : State :=
  mewsRun s c 0x34 fun x => commitFor s c (.erase (targetOf x 0) false) (okEnd x)

/-- KEY_QUERY (R188); a use of the slot, at which an error in it is found (R197). -/
def keyQuery (s : State) (c : Nat) (ecc : EccSeen) : State :=
  mewsRun s c 0x35 fun x =>
    let s := useEcc s c x ecc
    if (ctxAt s c).isNone then s
    else finish s c { okEnd x with result := toLe 16 (attrWord (slotAt s (targetOf x 0))) }

def execKeyGenerate (ctx : CtxNo) (s : State) : Res := .next (keyGenerate s ctx.val)
def execKeyDerive (ctx : CtxNo) (s : State) : Res := .next (keyDerive s ctx.val)
def execKeyImport (ctx : CtxNo) (s : State) : Res := .next (keyImport s ctx.val)
def execKeyExport (o : BlobOut) (s : State) : Res := .next (keyExport s o.ctx.val o.hit)
def execKeyErase (ctx : CtxNo) (s : State) : Res := .next (keyErase s ctx.val)
def execKeyQuery (ctx : CtxNo) (ecc : EccSeen) (s : State) : Res := .next (keyQuery s ctx.val ecc)

/-! ## Cascades and zeroisation (R196, R199, R200) -/

def execCascadeRevoke (s : State) : Res := .next (cascadeStep s)

/-! ## Assignment operations (R170, R210, R549) -/

/-- The operation reaches a slot. -/
def assignSlot (s : State) (op dom n : Nat) : State :=
  let set (s : State) : State :=
    let a := op == 0 || op == 2
    setSlot s n { slotAt s n with asg := a, dom := if a then dom else 0 }
  if op < 2 then
    if isEmpty (slotAt s n) then set s else bump s Reg.MEWS_ASSIGN_SKIP 17 0 1
  else set (if isEmpty (slotAt s n) then s else eraseSlot s none n false false)

/-- The body of an assignment's frame. -/
def assignBody (op dom base cnt : Nat) : Bytes := toLe 4 base ++ toLe 4 cnt ++ toLe 2 (op * 4096 + dom)

/-- The operation ends: BUSY falls, ASSIGN_DONE is set, held slot writes resume. -/
def assignEnd (s : State) : State :=
  resumeHeld (raiseInt { s with mews := { s.mews with assign := none } } 0x28 2)

/-- Up to n slots of the running operation are reached; nothing while the table is zeroised (R196) or while the sequencer has not
committed it (R451, R453). It ends once the partner has confirmed it too. -/
def assignRun : Nat → State → State
  | 0, s => s
  | f + 1, s =>
    if s.mews.zeroising then s
    else match s.mews.assign with
      | none => s
      | some a =>
        if a.fwd then s
        else if a.last < a.next then (if a.peer then s else assignEnd s)
        else
          let s := assignSlot s a.op a.dom a.next
          assignRun f { s with mews := { s.mews with assign := some { a with next := a.next + 1 } } }

/-- A write of MEWS_ASSIGN_CMD with a value: recorded whole and ignored while BUSY (R210). DESIGN CHOICE: an ISOLATED device, which
refuses every slot write (R458), refuses ERASE_ASSIGN and ERASE_UNASSIGN as it refuses a range, with RESULT 0x1 and nothing changed;
the manual gives MEWS_ASSIGN_CMD no other RESULT. -/
def assignCmd (s : State) (src : Src) (v : Nat) : State :=
  let op := bits v 13 12
  let dom := bits v 11 0
  gateReg s src Reg.MEWS_ASSIGN_CMD fun s =>
    if s.mews.assign.isSome then errSynd s 0x28 0x11 (masterOf src) 0 v
    else
      let base := fld s Reg.MEWS_ASSIGN_BASE 16 0
      let cnt := fld s Reg.MEWS_ASSIGN_CNT 17 0
      if cnt = 0 || 131072 < base + cnt || (2 ≤ op && s.xing.state = 5) then raiseInt (setFld s Reg.MEWS_ASSIGN_CMD 27 24 1) 0x28 2
      else
        let s := setFld s Reg.MEWS_ASSIGN_CMD 27 24 0
        let s := if op < 2 then setReg s Reg.MEWS_ASSIGN_SKIP 0 else s
        let a : AssignOp := { op, dom, next := base, last := base + cnt - 1, fwd := paired s && !s.xing.seqr, peer := paired s }
        let s := { s with mews := { s.mews with assign := some a } }
        if paired s || copies s then mirror s 2 (assignBody op dom base cnt) (if paired s then .assign else .record) else s

def execAssign (src : Src) (dom : BitVec 12) (s : State) : Res := .next (assignCmd s src dom.toNat)
def execUnassign (src : Src) (s : State) : Res := .next (assignCmd s src 0x1000)
def execEraseAssign (src : Src) (dom : BitVec 12) (s : State) : Res := .next (assignCmd s src (0x2000 + dom.toNat))
def execEraseUnassign (src : Src) (s : State) : Res := .next (assignCmd s src 0x3000)

/-- The operation reaches the end of its range. -/
def assignDone (s : State) : State :=
  match s.mews.assign with
  | none => s
  | some a => assignRun (a.last + 2 - a.next) s

def execAssignDone (s : State) : Res := .next (assignDone s)

/-! ## The attribute word's registers (R173, R197) -/

/-- A read of MEWS_SLOT_ATTR0: the slot's word is used, latched and returned. -/
def attrRead (s : State) (src : Src) (ecc : EccSeen) : State :=
  gateRead s src Reg.MEWS_SLOT_ATTR fun s =>
    let n := fld s Reg.MEWS_SLOT_SEL 16 0
    let s := match ecc with
      | .corrected => bump s Reg.MEWS_KT_ECC 15 0 1
      | .keyTable m lost => if m.val = n then ktLoss s n lost else s
      | _ => s
    let w := attrWord (slotAt s n)
    let s := (List.range 4).foldl (fun s i =>
      setReg s (Reg.MEWS_SLOT_ATTR + 4 * i) (BitVec.ofNat 32 (w / 2 ^ (32 * i)))) s
    emit s (.readData src (toLe 4 w))

def execMewsSlotAttr0Read (src : Src) (ecc : EccSeen) (s : State) : Res := .next (attrRead s src ecc)

end Sys2Proof.Machine
end

