-- ==== Sys2Proof/Machine/Composite.lean ====
section
/-! DEFINITION. The composite commands: PIN translation, DUKPT, EMV cryptograms, FF1, MILENAGE, TUAK and 5G AKA, and the
steps of their sequences (chapter 6). -/
namespace Sys2Proof.Machine
open Sys2Proof

/-! ## Cipher helpers -/

/-- One block forward and inverse under a binding. -/
def encBlk (alg : Nat) (key b : Bytes) : Bytes := fit b.length (blockCipher alg false key b)
def decBlk (alg : Nat) (key b : Bytes) : Bytes := fit b.length (blockCipher alg true key b)
/-- Single DES as TDES with one key. -/
def desEnc (k b : Bytes) : Bytes := encBlk 8 (k ++ k) b
def desDec (k b : Bytes) : Bytes := decBlk 8 (k ++ k) b

/-- One cipher block of a step: the binding, the direction, the key and the input. -/
structure BlkOp where
  alg : Nat
  inv : Bool
  key : Bytes
  inp : Bytes
deriving DecidableEq, Repr

/-- Its output, and what the other direction makes of an output. -/
def BlkOp.out (b : BlkOp) : Bytes := fit b.inp.length (blockCipher b.alg b.inv b.key b.inp)
def BlkOp.back (b : BlkOp) (out : Bytes) : Bytes := fit b.inp.length (blockCipher b.alg (!b.inv) b.key out)

/-- Forward blocks under one key; and single DES blocks, as TDES with one key. -/
def fwd (alg : Nat) (key : Bytes) (l : List Bytes) : List BlkOp := l.map fun b => { alg, inv := false, key, inp := b }
def desFwd (k b : Bytes) : BlkOp := { alg := 8, inv := false, key := k ++ k, inp := b }

/-- The CBC chain of MAC algorithm 3 over whole blocks, and its final block. -/
def alg3Chain (key chain msg : Bytes) : Bytes := (cbcForward (desEnc (sl key 0 8)) 8 chain msg).2
def alg3End (key chain : Bytes) : Bytes := desEnc (sl key 0 8) (desDec (sl key 8 8) chain)

/-- ISO/IEC 9797-1 MAC algorithm 3 over a padded message under a double-length key. -/
def macAlg3 (key msg : Bytes) : Bytes := alg3End key (alg3Chain key (fill 8 0) msg)

/-- Padding method 1 to blocks of n, one block of zeros for an empty message; and padding method 2. -/
def pad1 (n : Nat) (m : Bytes) : Bytes := fit (max n (roundUp m.length n)) m
def pad2 (n : Nat) (m : Bytes) : Bytes := fit (roundUp (m.length + 1) n) (m ++ fill 1 0x80)

/-! ## PIN blocks (R221 to R226) -/

/-- The nibbles of a byte string, high nibble first, and back. -/
def nibbles (b : Bytes) : List Nat := b.flatMap fun c => [c.toNat / 16, c.toNat % 16]
def packNib : List Nat → Bytes
  | a :: b :: l => BitVec.ofNat 8 (16 * a + b) :: packNib l
  | [a] => [BitVec.ofNat 8 (16 * a)]
  | [] => []

/-- The digits of a BCD PAN. -/
def panDigits (pan : Bytes) (len : Nat) : List Nat := (nibbles pan).take len

/-- The PAN field of formats 0 and 3, and of format 4 (R222). A PAN of 12 digits has 11 without its check digit: they are
right-justified behind a zero, as in ISO 9564-1. -/
def panField (d : List Nat) : Bytes :=
  let l := keepLast 12 d.dropLast
  packNib (List.replicate (16 - l.length) 0 ++ l)
def panField4 (d : List Nat) : Bytes :=
  packNib ((d.length - 12) :: d ++ List.replicate (31 - d.length) 0)

/-- PIN_MIN and PIN_MAX in force (COMP_CTRL). -/
def pinMin (s : State) : Nat := min 12 (max 4 (fld s Reg.COMP_CTRL 11 8))
def pinMax (s : State) : Nat := max (pinMin s) (min 12 (fld s Reg.COMP_CTRL 15 12))

/-- The clear PIN field of an incoming block. -/
def openPinBlock (fmt alg : Nat) (key blk : Bytes) (digits : List Nat) : List Nat :=
  if fmt = 4 then
    let a := xorBytes (decBlk alg key (fit 16 blk)) (panField4 digits)
    nibbles (decBlk alg key a)
  else
    let p := decBlk alg key (fit 8 blk)
    nibbles (if fmt = 1 then p else xorBytes p (panField digits))

/-- The PIN digits of a clear PIN field, when every check of R224 passes. -/
def pinOf (lo hi fmt : Nat) (f : List Nat) : Option (List Nat) :=
  let n := f.getD 1 0
  let pin := (f.drop 2).take n
  let rest := (f.take 16).drop (2 + n)
  let fillOk := if fmt = 0 then rest.all (· == 15) else if fmt = 3 then rest.all (decide <| 10 ≤ ·)
    else if fmt = 4 then rest.all (· == 10) else true
  if f.getD 0 16 == fmt && decide (lo ≤ n ∧ n ≤ hi) && pin.all (decide <| · ≤ 9) && fillOk then some pin else none

/-- The outgoing PIN field of a PIN, with 16 Fountain bytes for its random fill (R223). -/
def pinField (fmt : Nat) (pin : List Nat) (rnd : Bytes) : Bytes :=
  let head := fmt :: pin.length :: pin
  let rest := 16 - head.length
  if fmt = 4 then packNib (head ++ List.replicate rest 10) ++ sl rnd 8 8
  else packNib (head ++ (if fmt = 0 then List.replicate rest 15
    else if fmt = 1 then (nibbles rnd).take rest else (rnd.take rest).map fun b => 10 + b.toNat % 6))

/-- The outgoing block of a PIN field (R223, R225). -/
def pinBlock (fmt alg : Nat) (key : Bytes) (digits : List Nat) (field : Bytes) : Bytes :=
  if fmt = 4 then encBlk alg key (xorBytes (encBlk alg key field) (panField4 digits))
  else encBlk alg key (if fmt = 1 then field else xorBytes field (panField digits))

/-! ## DUKPT (R228 to R232) -/

/-- The derivation data of ANSI X9.24-3: usage, the derived key's binding, the key ID part and counter. -/
def dukptData (block usage alg : Nat) (tail : Bytes) : Bytes :=
  let ind := if alg = 8 then 0 else if alg = 9 then 1 else if alg = 1 then 2 else if alg = 2 then 3 else 4
  toBe 1 1 ++ toBe 1 block ++ toBe 2 usage ++ toBe 2 ind ++ toBe 2 (algBits alg) ++ fit 8 tail

/-- A key derived under an AES derivation key. -/
def dukptDerive (dalg : Nat) (dkey : Bytes) (usage alg : Nat) (tail : Bytes) : Bytes :=
  fit (algBytes alg) (cat ((List.range ((algBytes alg + 15) / 16)).map fun i =>
    encBlk dalg dkey (dukptData (i + 1) usage alg tail)))

/-- The counter at each of its one bits, from the top: itself with the bits below cleared. -/
def oneBits (ctr n : Nat) : List Nat := ((bitsOf ctr n).reverse).map fun b => ctr / 2 ^ b * 2 ^ b

/-- AES DUKPT: the initial key from the BDK, the next intermediate key, and the working key of a usage. -/
def dukptBlocks (dalg : Nat) (dkey : Bytes) (usage alg : Nat) (tail : Bytes) : List BlkOp :=
  fwd dalg dkey ((List.range ((algBytes alg + 15) / 16)).map fun i => dukptData (i + 1) usage alg tail)
def aesInitial (alg : Nat) (bdk ksn : Bytes) : Bytes := dukptDerive alg bdk 0x8001 alg (sl ksn 0 8)
def aesNext (alg : Nat) (ksn k : Bytes) (ctr : Nat) : Bytes := dukptDerive alg k 0x8000 alg (sl ksn 4 4 ++ toBe 4 ctr)
def aesWorking (alg : Nat) (ksn k : Bytes) (ctr usage wk : Nat) : Bytes :=
  dukptDerive alg k usage wk (sl ksn 4 4 ++ toBe 4 ctr)

/-- The TDES key variant 0xC0C0C0C0_00000000 in both halves. -/
def c0Variant (k : Bytes) : Bytes :=
  let c := toBe 8 0xC0C0C0C000000000
  xorBytes k (c ++ c)

/-- The non-reversible key generation process. -/
def nrkgHalf (k r8 : Bytes) : Bytes :=
  let r := sl k 8 8
  xorBytes (desEnc (sl k 0 8) (xorBytes r8 r)) r
def nrkg (k r8 : Bytes) : Bytes := nrkgHalf (c0Variant k) r8 ++ nrkgHalf k r8
def nrkgBlocks (k r8 : Bytes) : List BlkOp :=
  [c0Variant k, k].map fun h => desFwd (sl h 0 8) (xorBytes r8 (sl h 8 8))

/-- TDES DUKPT: the KSN with its counter cleared, the IPEK from the BDK, the next key, and the PIN or MAC variant. -/
def tdesBase (ksn : Bytes) : Nat := be (fit 10 ksn) / 2 ^ 21 * 2 ^ 21
def tdesInitial (bdk ksn : Bytes) : Bytes :=
  let k8 := sl (toBe 10 (tdesBase ksn)) 0 8
  encBlk 8 bdk k8 ++ encBlk 8 (c0Variant bdk) k8
def tdesR8 (ksn : Bytes) (ctr : Nat) : Bytes := toBe 8 ((tdesBase ksn + ctr) % 2 ^ 64)
def tdesNext (ksn k : Bytes) (ctr : Nat) : Bytes := nrkg k (tdesR8 ksn ctr)
def tdesVariant (k : Bytes) (mac : Bool) : Bytes :=
  let v := toBe 8 (if mac then 0xFF00 else 0xFF)
  xorBytes k (v ++ v)

/-- Binding of the working key (R229). -/
def workingAlg (x : Ctx) : Nat := if algOf x 0 = 8 then 8 else wkAlg x

/-! ## EMV (R236 to R239) -/

/-- The blocks whose encryptions make the ICC master key, and the session key from the ATC. -/
def iccBlocks (aes : Bool) (x : Ctx) : List Bytes :=
  let d := panDigits (sl x.param 0 10) (byteAt x.param 0x0A) ++ nibbles (sl x.param 0x0B 1)
  let y := if aes then packNib (List.replicate (32 - d.length) 0 ++ d) else packNib (keepLast 16 (List.replicate 16 0 ++ d))
  [y, xorBytes y (fill y.length 255)]
def sessionBlocks (aes : Bool) (alg : Nat) (atc : Bytes) : List Bytes :=
  let n := if aes then 16 else 8
  if aes && alg == 1 then [fit 16 atc] else [fit n (atc ++ fill 1 0xF0), fit n (atc ++ fill 1 0x0F)]

/-- A key made of encrypted blocks. -/
def keyFrom (aes : Bool) (alg : Nat) (key : Bytes) (l : List Bytes) : Bytes :=
  let a := if aes then alg else 8
  fit (if aes then algBytes alg else 16) (cat (l.map (encBlk a key)))
/-- The ICC master key; and the session key. -/
def iccMaster (aes : Bool) (alg : Nat) (imk : Bytes) (x : Ctx) : Bytes := keyFrom aes alg imk (iccBlocks aes x)
def emvSession (aes : Bool) (alg : Nat) (mk atc : Bytes) : Bytes := keyFrom aes alg mk (sessionBlocks aes alg atc)

/-- The ARQC MAC algorithm. -/
def emvMac (aes : Bool) (alg : Nat) (sk msg : Bytes) : Bytes :=
  if aes then fit 8 (cmacOf alg sk (pad2 16 msg)) else macAlg3 sk (pad2 8 msg)

/-- AES modes of the EMV opcodes. -/
def emvAes (d : Desc) : Bool := if d.opcode = 0x64 then d.mode == 2 else d.mode == 3

/-- The ARPC (R239), and the block that method 1 encrypts. -/
def arpcBlock (x : Ctx) : Bytes := xorBytes (sl x.param 0x10 8) (fit 8 (sl x.param 0x18 2))
def emvArpc (x : Ctx) (sk : Bytes) : Bytes :=
  let arqc := sl x.param 0x10 8
  if x.d.mode = 1 then encBlk 8 sk (arpcBlock x)
  else fit 4 (emvMac (emvAes x.d) (algOf x 0) sk
    (arqc ++ sl x.param 0x18 4 ++ sl x.param 0x1C (bits x.d.arg 3 0)))

/-! ## FF1 (R240, R241) -/

/-- The number of a numeral string, and its n numerals. -/
def numOf (radix : Nat) (l : List Nat) : Nat := l.foldl (fun a d => a * radix + d) 0
def numerals (radix : Nat) : Nat → Nat → List Nat
  | 0, _ => []
  | n + 1, v => numerals radix n (v / radix) ++ [v % radix]

/-- One round's y: the leading d bytes of the expanded PRF output. -/
def ff1Y (alg : Nat) (key tweak : Bytes) (radix n u i : Nat) (b : Nat) (v : Nat) : Nat :=
  let nb := ((radix ^ v - 1).log2 + 1 + 7) / 8
  let d := 4 * ((nb + 3) / 4) + 4
  let t := tweak.length
  let p := toBe 3 0x010201 ++ toBe 3 radix ++ toBe 2 (10 * 256 + u % 256) ++ toBe 4 n ++ toBe 4 t
  let q := tweak ++ fill ((16 - (t + nb + 1) % 16) % 16) 0 ++ toBe 1 i ++ toBe nb b
  let r := cbcMac (encBlk alg key) (fill 16 0) (p ++ q)
  be (fit d (r ++ cat ((List.range ((d + 15) / 16 - 1)).map fun j => encBlk alg key (xorBytes r (toBe 16 (j + 1))))))

/-- Round i of FF1 encryption, and of decryption, on the halves as numbers; u and v numerals to a half. -/
def ff1Round (enc : Bool) (alg : Nat) (key tweak : Bytes) (radix n i : Nat) (ab : Nat × Nat) : Nat × Nat :=
  let u := n / 2
  let v := n - u
  let top := radix ^ (if i % 2 = 0 then u else v)
  if enc then (ab.2, (ab.1 + ff1Y alg key tweak radix n u i ab.2 v) % top)
  else ((ab.2 + (top - ff1Y alg key tweak radix n u i ab.1 v % top)) % top, ab.1)

/-- The halves as they stand in the store. -/
def ff1Store (ab : Nat × Nat) : List Bytes := [toBe 128 ab.1, toBe 128 ab.2]
def ff1Halves (st : List Bytes) : Nat × Nat := (be (st.getD 0 []), be (st.getD 1 []))

/-! ## MILENAGE and TUAK (R242 to R245) -/

/-- A 16-byte value rotated left by n bytes. -/
def rotBytes (n : Nat) (b : Bytes) : Bytes := b.drop n ++ b.take n

/-- OUTn of MILENAGE: TEMP rotated by r bytes with constant c. -/
def milIn (opc t : Bytes) (r c : Nat) : Bytes := xorBytes (rotBytes r (xorBytes t opc)) (toBe 16 c)
def milOut (k opc t : Bytes) (r c : Nat) : Bytes := xorBytes (encBlk 1 k (milIn opc t r c)) opc

/-- OPc, TEMP and OUT1 of MILENAGE (TS 35.206) with the standard constants and rotations. -/
def milOpc (k op : Bytes) (isOp : Bool) : Bytes := if isOp then xorBytes (fit 16 op) (encBlk 1 k (fit 16 op)) else fit 16 op
def milTemp (k opc rand : Bytes) : Bytes := encBlk 1 k (xorBytes (fit 16 rand) opc)
def milIn1 (opc t sqn amf : Bytes) : Bytes :=
  let in1 := fit 6 sqn ++ fit 2 amf ++ fit 6 sqn ++ fit 2 amf
  xorBytes t (rotBytes 8 (xorBytes in1 opc))
def milOut1 (k opc t sqn amf : Bytes) : Bytes := xorBytes (encBlk 1 k (milIn1 opc t sqn amf)) opc

/-- TUAK lengths from ARG (R242); AKA5G_DERIVE uses its own (R246). -/
structure TuakCfg where
  mac : Nat
  res : Nat
  ck : Nat
  ik : Nat
  iter : Nat
deriving DecidableEq, Repr

def tuakCfg (d : Desc) : TuakCfg :=
  if d.opcode = 0x6A then { mac := 8, res := 8, ck := 16, ik := 16, iter := 1 }
  else { mac := 8 * 2 ^ bits d.arg 2 1
         res := [4, 8, 16, 32].getD (bits d.arg 4 3) 4
         ck := if bitAt d.arg 5 then 32 else 16, ik := if bitAt d.arg 6 then 32 else 16
         iter := max 1 (bits d.arg 15 8) }

/-- INSTANCE of TUAK: the function's code with the key length bit. -/
def tuakInst (key : Bytes) (code : Nat) : Nat := code + (if key.length = 32 then 1 else 0)
/-- The length codes of f1 and f1*, and of f2 to f5. -/
def tuakMacCode (c : TuakCfg) : Nat := c.mac
def tuakResCode (c : TuakCfg) : Nat :=
  0x40 + (if c.res = 4 then 0 else c.res) + (if c.ck = 32 then 4 else 0) + (if c.ik = 32 then 2 else 0)
/-- One function of TUAK (TS 35.231): the permutation over its input block. -/
def tuakRun (c : TuakCfg) (key top rand sqn amf : Bytes) (code : Nat) : Bytes :=
  keccakTimes c.iter (tuakIn key top (tuakInst key code) rand amf sqn)

/-- The TS 33.220 KDF. -/
def kdf33220 (key : Bytes) (fc : Nat) (ps : List Bytes) : Bytes :=
  fit 32 (hmacOf 1 key (toBe 1 fc ++ cat (ps.map fun p => p ++ toBe 2 p.length)))

/-! ## The sequences (R212 to R216, R220) -/

/-- A step of a sequence: the source bytes it needs, whether it needs the Fountain's, and what it makes of a core's composite store
with the key schedules the core holds (R213, R293); and the single blocks (ECB) the step works through, which the checker inverts (R144,
R214). DESIGN CHOICE: the manual fixes what each sequence computes and that no step lasts more than 1.8 µs, not where its steps are
cut; a MAC takes its message in steps of 256 bytes. -/
structure CStep where
  need : Nat := 0
  rnd : Bool := false
  run : (keys store : List Bytes) → List Bytes
  blocks : (keys store : List Bytes) → List BlkOp := fun _ _ => []

/-- Entry n of a store or of the key schedules. -/
def ent (l : List Bytes) (n : Nat) : Bytes := l.getD n []

/-- The digits of the PAN at offset 8 of a PIN block's parameters. -/
def pinPan (x : Ctx) : List Nat := panDigits (sl x.param 8 10) (panLen x)

/-- A PIN translation (R221 to R226): the incoming field; the checks and the outgoing field; the outgoing block. Entry 0 keeps the
DUKPT working key; which key opens and which closes is given. -/
def pinSteps (s : State) (x : Ctx) (rnd : Bytes) (inAlg outAlg : Nat) (inKey outKey : List Bytes → List Bytes → Bytes) :
    List CStep :=
  let blk := sl x.param 0x20 16
  [ { run := fun ks st => [ent st 0, packNib (openPinBlock (pinIn x.d) inAlg (inKey ks st) blk (pinPan x))]
      blocks := fun ks st =>
        let op (b : Bytes) : BlkOp := { alg := inAlg, inv := true, key := inKey ks st, inp := b }
        if pinIn x.d = 4 then [op (fit 16 blk), op (xorBytes (op (fit 16 blk)).out (panField4 (pinPan x)))]
        else [op (fit 8 blk)] },
    { rnd := pinOut x.d != 0
      run := fun _ st => match pinOf (pinMin s) (pinMax s) (pinIn x.d) (nibbles (ent st 1)) with
        | some pin => [ent st 0, fill 1 1, pinField (pinOut x.d) pin rnd]
        | none => [ent st 0, fill 1 0, pinField (pinOut x.d) [] rnd] },
    { run := fun ks st => [ent st 0, ent st 1, pinBlock (pinOut x.d) outAlg (outKey ks st) (pinPan x) (ent st 2)]
      blocks := fun ks st =>
        let k := outKey ks st
        let f := ent st 2
        if pinOut x.d = 4 then fwd outAlg k [f, xorBytes (encBlk outAlg k f) (panField4 (pinPan x))]
        else fwd outAlg k [if pinOut x.d = 1 then f else xorBytes f (panField (pinPan x))] } ]

/-- The derivation of a DUKPT working key for a counter (R229, R230): the initial key, one intermediate key for each one bit of the
counter, the working key. -/
def dukptSteps (x : Ctx) (ctr : Nat) (mac initial : Bool) : List CStep :=
  let a := algOf x 0
  let ksn := sl x.param 0x14 12
  if a = 8 then
    [{ run := fun ks _ => [if initial then ent ks 0 else tdesInitial (ent ks 0) ksn]
       blocks := fun ks _ =>
         let k8 := sl (toBe 10 (tdesBase ksn)) 0 8
         if initial then [] else fwd 8 (ent ks 0) [k8] ++ fwd 8 (c0Variant (ent ks 0)) [k8] }]
      ++ (oneBits ctr 21).map (fun n =>
        { run := fun _ st => [tdesNext ksn (ent st 0) n], blocks := fun _ st => nrkgBlocks (ent st 0) (tdesR8 ksn n) })
      ++ [{ run := fun _ st => [tdesVariant (ent st 0) mac] }]
  else
    let tail (n : Nat) : Bytes := sl ksn 4 4 ++ toBe 4 n
    let usage := if mac then 0x2000 else 0x1000
    [{ run := fun ks _ => [if initial then ent ks 0 else aesInitial a (ent ks 0) ksn]
       blocks := fun ks _ => if initial then [] else dukptBlocks a (ent ks 0) 0x8001 a (sl ksn 0 8) }]
      ++ (oneBits ctr 32).map (fun n =>
        { run := fun _ st => [aesNext a ksn (ent st 0) n], blocks := fun _ st => dukptBlocks a (ent st 0) 0x8000 a (tail n) })
      ++ [{ run := fun _ st => [aesWorking a ksn (ent st 0) ctr usage (wkAlg x)]
            blocks := fun _ st => dukptBlocks a (ent st 0) usage (wkAlg x) (tail ctr) }]

/-- A MAC of a padded message of a source of n bytes under the key in entry 0: its chain in entry 1, then the MAC there (R231,
R238). -/
def macSteps (alg3 : Bool) (alg n : Nat) (msg : Bytes) : List CStep :=
  let t := tdesAlg alg
  let head := if alg3 then msg.length else cmacHead t msg.length
  [{ run := fun _ st => [ent st 0, fill (algBlock t) 0] }]
    ++ (List.range ((msg.length + 255) / 256)).map (fun i =>
      { need := min n (256 * (i + 1))
        run := fun _ st =>
          let p := sl msg (256 * i) (min head (256 * (i + 1)) - 256 * i)
          [ent st 0, if alg3 then alg3Chain (ent st 0) (ent st 1) p else cmacChain t (ent st 0) (ent st 1) p] })
    ++ [{ need := n
          run := fun _ st =>
            [ent st 0, if alg3 then alg3End (ent st 0) (ent st 1) else cmacEnd t (ent st 0) (ent st 1) (msg.drop head)] }]

/-- The ARQC of an EMV command (R237, R238): the ICC master key, the session key, the MAC. -/
def arqcSteps (x : Ctx) : List CStep :=
  let aes := emvAes x.d
  let a := algOf x 0
  let n := x.d.len
  let src := fit n x.srcIn
  let atc := sl x.param 0x0C 2
  let e := if aes then a else 8
  [{ run := fun ks _ => [iccMaster aes a (ent ks 0) x], blocks := fun ks _ => fwd e (ent ks 0) (iccBlocks aes x) },
   { run := fun _ st => [emvSession aes a (ent st 0) atc], blocks := fun _ st => fwd e (ent st 0) (sessionBlocks aes a atc) }]
    ++ macSteps (!aes) e n (pad2 (if aes then 16 else 8) src)
    ++ [{ run := fun _ st => [ent st 0, (ent st 1).take 8] }]

/-- FF1 (R240): the source split in halves, then ten rounds. -/
def ff1Steps (x : Ctx) : List CStep :=
  let enc : Bool := x.d.opcode = 0x66
  let r := ff1Radix x.d
  let n := x.d.len
  let src := (fit n x.srcIn).map BitVec.toNat
  let tweak := sl x.param 8 (byteAt x.param 0)
  [{ need := n, run := fun _ _ => ff1Store (numOf r (src.take (n / 2)), numOf r (src.drop (n / 2))) }]
    ++ (List.range 10).map fun j =>
      { run := fun ks st => ff1Store (ff1Round enc (algOf x 0) (ent ks 0) tweak r n (if enc then j else 9 - j) (ff1Halves st)) }

def akaSqn (x : Ctx) : Bytes := sl x.param 4 6
def akaAmf (x : Ctx) : Bytes := sl x.param 0x0A 2
def akaRand (x : Ctx) : Bytes := sl x.param 0x10 16
def akaAuts (x : Ctx) : Bytes := sl x.param 0x20 14
/-- SQN_MS of an AUTS, once AK* is known (R245). -/
def akaSqnMs (x : Ctx) (ak : Bytes) : Bytes := xorBytes (sl (akaAuts x) 0 6) ak

/-- A step that adds to the store, with the single blocks it works through. -/
def adds (f : List Bytes → List Bytes → List Bytes) (blocks : List Bytes → List Bytes → List BlkOp := fun _ _ => []) : CStep :=
  { run := fun ks st => st ++ f ks st, blocks }

/-- MILENAGE: OPc and TEMP, then MAC-A; RES and AK; CK; IK; or for RESYNC AK* and MAC-S (R242, R245). -/
def milSteps (x : Ctx) (resync : Bool) : List CStep :=
  let out (ks st : List Bytes) (r c : Nat) : Bytes := milOut (ent ks 0) (ent st 0) (ent st 1) r c
  let blk (r c : Nat) (ks st : List Bytes) : List BlkOp := fwd 1 (ent ks 0) [milIn (ent st 0) (ent st 1) r c]
  let isOp := bitAt x.d.arg 0
  [adds (fun ks _ => [milOpc (ent ks 0) (ent ks 1) isOp]) (fun ks _ => if isOp then fwd 1 (ent ks 0) [fit 16 (ent ks 1)] else []),
   adds (fun ks st => [milTemp (ent ks 0) (ent st 0) (akaRand x)])
     (fun ks st => fwd 1 (ent ks 0) [xorBytes (fit 16 (akaRand x)) (ent st 0)])]
    ++ if resync then
        [adds (fun ks st => [(out ks st 12 8).take 6]) (blk 12 8),
         adds (fun ks st => [(milOut1 (ent ks 0) (ent st 0) (ent st 1) (akaSqnMs x (ent st 2)) (fill 2 0)).drop 8])
           (fun ks st => fwd 1 (ent ks 0) [milIn1 (ent st 0) (ent st 1) (akaSqnMs x (ent st 2)) (fill 2 0)])]
      else
        [adds (fun ks st => [(milOut1 (ent ks 0) (ent st 0) (ent st 1) (akaSqn x) (akaAmf x)).take 8])
           (fun ks st => fwd 1 (ent ks 0) [milIn1 (ent st 0) (ent st 1) (akaSqn x) (akaAmf x)]),
         adds (fun ks st => let o := out ks st 0 1; [o.drop 8, o.take 6]) (blk 0 1),
         adds (fun ks st => [out ks st 4 2]) (blk 4 2),
         adds (fun ks st => [out ks st 8 4]) (blk 8 4)]

/-- TUAK on the hash unit, in the same order: TOPc (and an empty entry), then MAC-A; RES, AK, CK and IK; or AK* and MAC-S. -/
def tuakSteps (x : Ctx) (resync : Bool) : List CStep :=
  let c := tuakCfg x.d
  let run (ks st : List Bytes) (sqn amf : Bytes) (code : Nat) : Bytes :=
    tuakRun c (ent ks 0) (ent st 0) (akaRand x) sqn amf code
  [adds fun ks _ => [if bitAt x.d.arg 0 then
      tuakOut (tuakRun c (ent ks 0) (ent ks 1) (fill 16 0) (fill 6 0) (fill 2 0) 0) 0 32 else fit 32 (ent ks 1), []]]
    ++ if resync then
        [adds fun ks st => [tuakOut (run ks st (fill 6 0) (fill 2 0) 0xC0) 96 6],
         adds fun ks st => [tuakOut (run ks st (akaSqnMs x (ent st 2)) (fill 2 0) (0x80 + tuakMacCode c)) 0 c.mac]]
      else
        [adds fun ks st => [tuakOut (run ks st (akaSqn x) (akaAmf x) (tuakMacCode c)) 0 c.mac],
         adds fun ks st =>
           let o := run ks st (fill 6 0) (fill 2 0) (tuakResCode c)
           [tuakOut o 0 c.res, tuakOut o 96 6, tuakOut o 32 c.ck, tuakOut o 64 c.ik]]

/-- The entries of the store after an authentication function set: MAC-A 2, RES 3, AK 4, CK 5, IK 6; AUTN (R244). -/
def autn (x : Ctx) (st : List Bytes) : Bytes := xorBytes (akaSqn x) (ent st 4) ++ akaAmf x ++ ent st 2

/-- The 5G steps after it: K_AUSF 7, XRES* 8, HXRES* 9, K_SEAF 10 (R246). -/
def aka5gSteps (x : Ctx) : List CStep :=
  let snn := sl x.param 0x20 (bits x.d.arg 21 16)
  let key (st : List Bytes) : Bytes := ent st 5 ++ ent st 6
  [adds fun _ st => [kdf33220 (key st) 0x6A [snn, xorBytes (akaSqn x) (ent st 4)]],
   adds fun _ st => [(kdf33220 (key st) 0x6B [snn, akaRand x, ent st 3]).drop 16],
   adds fun _ st => [(hashOf 1 32 (akaRand x ++ ent st 8)).drop 16],
   adds fun _ st => [kdf33220 (ent st 7) 0x6C [snn]]]

/-- The steps of each composite opcode (R220). -/
def compSteps (s : State) (x : Ctx) (rnd : Bytes) : List CStep :=
  let d := x.d
  let first (ks _ : List Bytes) : Bytes := ent ks 0
  let second (ks _ : List Bytes) : Bytes := ent ks 1
  let working (_ st : List Bytes) : Bytes := ent st 0
  let resync : Bool := d.mode = 2
  match d.opcode with
  | 0x60 => pinSteps s x rnd (algOf x 0) (algOf x 1) first second
  | 0x61 =>
    dukptSteps x (ksnCounter (algOf x 0 == 8) x.param) false false ++ pinSteps s x rnd (workingAlg x) (algOf x 1) working second
  | 0x62 =>
    let t : Bool := algOf x 0 = 8
    dukptSteps x (ksnCounter t x.param) true false
      ++ macSteps t (workingAlg x) d.len (if t then pad1 8 (fit d.len x.srcIn) else fit d.len x.srcIn)
  | 0x63 => dukptSteps x x.aux false true ++ pinSteps s x rnd (algOf x 1) (workingAlg x) second working
  | 0x64 => arqcSteps x
  | 0x65 => arqcSteps x ++ [adds (fun _ st => if ent st 1 = sl x.param 0x10 8 then [emvArpc x (ent st 0)] else [])
      (fun _ st => if ent st 1 = sl x.param 0x10 8 && x.d.mode = 1 then fwd 8 (ent st 0) [arpcBlock x] else [])]
  | 0x68 => milSteps x resync
  | 0x69 => tuakSteps x resync
  | 0x6A => (if d.mode = 1 then milSteps x false else tuakSteps x false) ++ aka5gSteps x
  | _ => ff1Steps x

/-- How a composite command ends: output to the destination, or a form S completion. -/
inductive CompEnd where
  | done (f : CmdEnd)
  | output (b : Bytes)
  | fail (detail : Nat)
deriving DecidableEq, Repr

/-- The result of each composite opcode, from the store after its last step. -/
def compEnd (x : Ctx) (st : List Bytes) : CompEnd :=
  let d := x.d
  let ok : CmdEnd := { bytesDone := d.len }
  let pin (aux : Nat) : CompEnd := if ent st 1 = fill 1 1 then .done { result := ent st 2, aux } else .fail 0x20
  let resync : CompEnd :=
    if ent st 3 = sl (akaAuts x) 6 8 then .done { result := akaSqnMs x (ent st 2) } else .fail 0x22
  match d.opcode with
  | 0x60 => pin 0
  | 0x61 => pin 0
  | 0x62 => if fit (macLen d) (ent st 1) = sl x.param 0x30 (macLen d) then .done ok else .fail 0x21
  | 0x63 => pin x.aux
  | 0x64 => if ent st 1 = sl x.param 0x10 8 then .done ok else .fail 0x21
  | 0x65 => if ent st 1 = sl x.param 0x10 8 then .done { ok with result := ent st 2 } else .fail 0x21
  | 0x68 =>
    if d.mode = 2 then resync
    else .output (fit 8 (ent st 3) ++ fit 16 (autn x st) ++ fit 16 (ent st 5) ++ fit 16 (ent st 6) ++ fit 8 (ent st 4))
  | 0x69 =>
    if d.mode = 2 then resync
    else .output (fit 32 (ent st 3) ++ fit 40 (autn x st) ++ fit 32 (ent st 5) ++ fit 32 (ent st 6) ++ fit 8 (ent st 4))
  | 0x6A => .output (fit 16 (autn x st) ++ ent st 8 ++ ent st 9 ++ ent st 10 ++ ent st 7)
  | _ =>
    let r := ff1Radix d
    if (fit d.len x.srcIn).any fun b => decide (r ≤ b.toNat) then .fail 0x30
    else
      let ab := ff1Halves st
      .output ((numerals r (d.len / 2) ab.1 ++ numerals r (d.len - d.len / 2) ab.2).map (BitVec.ofNat 8))

/-- A composite opcode's first step begins: its units are reserved and its counter is confirmed. -/
def compStart (s : State) (c op : Nat) (mode : Nat → Bool) : State :=
  match ctxAt s c with
  | none => s
  | some x =>
    if x.d.opcode ≠ op || !mode x.d.mode || x.phase ≠ .placed || x.resv.isEmpty || x.waitRsv then s
    else setCtx s c { x with phase := .running }

def anyMode (_ : Nat) : Bool := true

def execPinTranslate (ctx : CtxNo) (s : State) : Res := .next (compStart s ctx.val 0x60 anyMode)
def execDukptPinTranslate (ctx : CtxNo) (s : State) : Res := .next (compStart s ctx.val 0x61 anyMode)
def execDukptMacVerify (ctx : CtxNo) (s : State) : Res := .next (compStart s ctx.val 0x62 anyMode)
def execDukptOriginate (ctx : CtxNo) (s : State) : Res := .next (compStart s ctx.val 0x63 anyMode)
def execEmvArqcVerify (ctx : CtxNo) (s : State) : Res := .next (compStart s ctx.val 0x64 anyMode)
def execEmvArpcGenerate (ctx : CtxNo) (s : State) : Res := .next (compStart s ctx.val 0x65 anyMode)
def execFf1Encrypt (ctx : CtxNo) (s : State) : Res := .next (compStart s ctx.val 0x66 anyMode)
def execFf1Decrypt (ctx : CtxNo) (s : State) : Res := .next (compStart s ctx.val 0x67 anyMode)
def execMilenageVector (ctx : CtxNo) (s : State) : Res := .next (compStart s ctx.val 0x68 (· == 1))
def execMilenageResync (ctx : CtxNo) (s : State) : Res := .next (compStart s ctx.val 0x68 (· == 2))
def execTuakVector (ctx : CtxNo) (s : State) : Res := .next (compStart s ctx.val 0x69 (· == 1))
def execTuakResync (ctx : CtxNo) (s : State) : Res := .next (compStart s ctx.val 0x69 (· == 2))
def execAka5gDerive (ctx : CtxNo) (s : State) : Res := .next (compStart s ctx.val 0x6A anyMode)

/-- The blocks and hash bytes of a step are counted; how many each takes the manual does not say, so each count grows by a free
value. -/
def compWork (s : State) (u : Nat) (x : Ctx) : State :=
  let f := freshNat s
  let n := f.1 % 2 ^ 16
  let g := u / 8
  let s := { f.2 with units := { f.2.units with
    laneBlocks := tset 0 f.2.units.laneBlocks g ((tget 0 f.2.units.laneBlocks g + n) % 2 ^ 64) } }
  if usesHash x.d then
    let f := freshNat s
    { f.2 with units := { f.2.units with hashBytes := (f.2.units.hashBytes + f.1 % 2 ^ 16) % 2 ^ 64 } }
  else s

/-- The key schedules a core works a step with, what a fault flips in the first of them included. -/
def stepKeys (v : CipherCore) (err : CoreErr) : List Bytes := xorBytes (ent v.keys 0) err.sched :: v.keys.drop 1

/-- A core runs a step, with what a fault flips in its schedule and in the last value it leaves in its store. -/
def runStep (f : CStep) (v : CipherCore) (err : CoreErr) : CipherCore :=
  let st := f.run (stepKeys v err) v.store
  { v with store := match st.reverse with
    | [] => []
    | a :: l => (xorBytes a err.out :: l).reverse }

/-- The checker works a step's single blocks back from the primary's outputs, what faults flip in the last of them included, and compares
the inputs it comes to with the step's own (R144). -/
def blocksAgree (f : CStep) (p q : CipherCore) (pe ce : CoreErr) : Bool :=
  let ps := f.blocks (stepKeys p pe) p.store
  let qs := f.blocks (stepKeys q ce) q.store
  let last := ps.length - 1
  (ps.zip qs).zipIdx.all fun e =>
    let hit (b : Bytes) : Bytes := if e.2 = last then b else []
    xorBytes (e.1.2.back (xorBytes e.1.1.out (hit pe.out))) (hit ce.out) == e.1.1.inp

/-- The two cores after a step, when every comparison agrees: single blocks by inverse (R144, R214), anything else by redundant
computation. -/
def stepCores (f : CStep) (p q : CipherCore) (pe ce : CoreErr) : Option (CipherCore × CipherCore) :=
  let p' := runStep f p pe
  if (f.blocks (stepKeys p pe) p.store).isEmpty then
    (let q' := runStep f q ce
     if p'.store = q'.store then some (p', q') else none)
  else if blocksAgree f p q pe ce then some (p', { q with store := p'.store })
  else none

/-- Source bytes consumed by the steps before the current one. -/
def compRead (steps : List CStep) (n : Nat) : Nat := (steps.take n).foldl (fun m f => max m f.need) 0

/-- The last step has ended: the result leaves the store (R215, R220). -/
def compEnds (s : State) (c : Nat) (x : Ctx) (st : List Bytes) (hit : Option Hit) : State :=
  match compEnd x st with
  | .fail dt => finishS s c 0x05 dt (if dt = 0x30 then 0 else x.srcIn.length)
  | .done f => finish s c { f with detail := b2n x.late }
  | .output b => finishOut s c b { detail := b2n x.late, bytesDone := x.d.len } hit

/-- A step ends in both cores: on a disagreement (R214) or a stop (R215) the command ends; after the last step its output is
written. A step whose source or Fountain bytes are not there stalls (R293). DEDUCED: a single block of a sequence is worked in TDES-ECB
or AES-ECB and takes that scheme of R144; FF1's round function and the MACs take the redundant one. -/
def compStep (s : State) (c : Nat) (pe ce : CoreErr) (hit : Option Hit) : State :=
  match ctxAt s c with
  | none => s
  | some x => match compLane x with
    | none => s
    | some u =>
      if x.d.opcode < 0x60 || x.phase ≠ .running then s
      else
        let steps := compSteps s x ((drawn s c).getD [])
        match steps[x.step]? with
        | none => s
        | some f =>
          if x.srcIn.length < f.need || (f.rnd && (drawn s c).isNone) then
            match x.stop with
            | some st => stopNow s u c st 0
            | none => if x.srcIn.length < f.need then sourceStops s c x (compRead steps x.step) else s
          else
            let v := cunit s u
            let s := compWork s u x
            match stepCores f v.prim v.chk pe ce with
            | none => compareFail s u c x
            | some (p, q) => match x.stop with
              | some st => stopNow s u c st 0
              | none =>
                let s := setCunit s u { v with prim := p, chk := q }
                if x.step + 1 < steps.length then setCtx s c { x with step := x.step + 1 }
                else compEnds s c x p.store hit

def execCompositeStepEnd (ctx : CtxNo) (e : PairErr) (hit : Option Hit) (s : State) : Res :=
  .next (compStep s ctx.val e.pe e.ce hit)

end Sys2Proof.Machine
end

