-- ==== Sys2Proof/Machine/EdCurve.lean ====
section
/-! DEFINITION. X25519 (RFC 7748), Ed25519 (RFC 8032, verification by the cofactored equation) and ECDSA signing (FIPS 186-5), as
the Arcade runs them (R255, R265, R268). PRESUMED where a standard the manual names says it and the manual does not repeat it
(assumption log, "standards"). -/
namespace Sys2Proof.Machine
open Sys2Proof

/-- The field prime of both curves, and the order ℓ of their base points. -/
def p25519 : Nat := 2 ^ 255 - 19
def ell25519 : Nat := 2 ^ 252 + 27742317777372353535851937790883648493

/-- The 32-byte scalar of a private string, its low three bits and top bit cleared and bit 254 set. -/
def clampScalar (b : Bytes) : Nat := le (fit 32 b) % 2 ^ 254 / 8 * 8 + 2 ^ 254

/-! ## X25519 -/

/-- The pair of points (x2 : z2), (x3 : z3) of the ladder. -/
structure Ladder where
  x2 : Nat
  z2 : Nat
  x3 : Nat
  z3 : Nat

/-- One step for a scalar bit, on u-coordinate x1. -/
def ladderStep (x1 : Nat) (l : Ladder) (bit : Bool) : Ladder :=
  let p := p25519
  let q := if bit then { x2 := l.x3, z2 := l.z3, x3 := l.x2, z3 := l.z2 } else l
  let a := q.x2 + q.z2
  let b := subMod q.x2 q.z2 p
  let da := subMod q.x3 q.z3 p * a % p
  let cb := (q.x3 + q.z3) * b % p
  let aa := a * a % p
  let bb := b * b % p
  let e := subMod aa bb p
  let r : Ladder :=
    { x2 := aa * bb % p, z2 := e * (aa + 121665 * e) % p
      x3 := (da + cb) ^ 2 % p, z3 := x1 * (subMod da cb p ^ 2 % p) % p }
  if bit then { x2 := r.x3, z2 := r.z3, x3 := r.x2, z3 := r.z2 } else r

/-- X25519 of a private string and a u-coordinate, whose top bit is ignored. -/
def x25519 (key peer : Bytes) : Bytes :=
  let x1 := le (fit 32 peer) % 2 ^ 255
  let k := clampScalar key
  let r := (List.range 255).foldl (fun l i => ladderStep x1 l (k.testBit (254 - i))) { x2 := 1, z2 := 0, x3 := x1, z3 := 1 }
  toLe 32 (r.x2 * powMod r.z2 (p25519 - 2) p25519 % p25519)

/-! ## Ed25519 -/

/-- A point in extended coordinates. -/
structure EdPt where
  x : Nat
  y : Nat
  z : Nat
  t : Nat

/-- The curve constant d = −121665 / 121666. -/
def edD : Nat := subMod 0 (121665 * powMod 121666 (p25519 - 2) p25519) p25519

def edAdd (a b : EdPt) : EdPt :=
  let p := p25519
  let u := subMod a.y a.x p * subMod b.y b.x p % p
  let v := (a.y + a.x) * (b.y + b.x) % p
  let c := a.t * 2 * edD * b.t % p
  let d := a.z * 2 * b.z % p
  let e := subMod v u p
  let f := subMod d c p
  let g := d + c
  let h := v + u
  { x := e * f % p, y := g * h % p, z := f * g % p, t := e * h % p }
def edZero : EdPt := { x := 0, y := 1, z := 1, t := 0 }

/-- k times a point by its low n bits. -/
def edMulBits : Nat → Nat → EdPt → EdPt
  | 0, _, _ => edZero
  | n + 1, k, q =>
    let r := edMulBits n (k / 2) (edAdd q q)
    if k % 2 = 1 then edAdd q r else r
def edMul (k : Nat) (q : EdPt) : EdPt := edMulBits 256 k q

def edSame (a b : EdPt) : Bool :=
  a.x * b.z % p25519 == b.x * a.z % p25519 && a.y * b.z % p25519 == b.y * a.z % p25519

/-- The 32-byte encoding: y with the lowest bit of x as its top bit. -/
def edEncode (a : EdPt) : Bytes :=
  let i := powMod a.z (p25519 - 2) p25519
  toLe 32 (a.y * i % p25519 + (a.x * i % p25519 % 2) * 2 ^ 255)

/-- The point an encoding stands for, if it stands for one. -/
def edDecode (b : Bytes) : Option EdPt :=
  let p := p25519
  let v := le (fit 32 b)
  let y := v % 2 ^ 255
  let sign := v / 2 ^ 255
  let u := subMod (y * y) 1 p
  let w := (edD * (y * y) + 1) % p
  let r := u * powMod w (p - 2) p % p
  let x0 := powMod r ((p + 3) / 8) p
  let x1 := if x0 * x0 % p = r then x0 else x0 * powMod 2 ((p - 1) / 4) p % p
  if p ≤ y ∨ x1 * x1 % p ≠ r ∨ (x1 = 0 ∧ sign = 1) then none
  else
    let x := if x1 % 2 = sign then x1 else p - x1
    some { x := x, y := y, z := 1, t := x * y % p }

/-- The base point: y = 4/5, x even. -/
def edBase : EdPt := (edDecode (toLe 32 (4 * powMod 5 (p25519 - 2) p25519 % p25519))).getD edZero

/-- The public key of a 32-byte private string. -/
def edPublic (key : Bytes) : Bytes := edEncode (edMul (clampScalar ((sha512 (fit 32 key)).take 32)) edBase)

/-- The challenge k of a signature. -/
def edChallenge (r a msg : Bytes) : Nat := le (sha512 (r ++ a ++ msg)) % ell25519

def edSign (key msg : Bytes) : Bytes :=
  let h := sha512 (fit 32 key)
  let s := clampScalar (h.take 32)
  let r := le (sha512 (h.drop 32 ++ msg)) % ell25519
  let rb := edEncode (edMul r edBase)
  rb ++ toLe 32 ((r + edChallenge rb (edPublic key) msg * s) % ell25519)

/-- A and R decode, S is below ℓ, and [8][S]B = [8]R + [8][k]A (R255, R265). -/
def edVerify (key msg sig : Bytes) : Bool :=
  let s := le (sl sig 32 32)
  match edDecode (fit 32 key), edDecode (sl sig 0 32) with
  | some a, some r =>
    decide (s < ell25519)
      && edSame (edMul 8 (edMul s edBase))
        (edAdd (edMul 8 r) (edMul 8 (edMul (edChallenge (sl sig 0 32) (fit 32 key) msg) a)))
  | _, _ => false

/-! ## ECDSA signing -/

/-- r and s for one nonce k: none when either is 0. -/
def ecdsaWith (c : Curve) (d k : Nat) (digest : Bytes) : Option (Nat × Nat) :=
  match ptMul c k (basePt c), invMod k c.n with
  | some q, some i =>
    let r := q.1 % c.n
    let s := i * (digestNum c digest + r * d) % c.n
    if r = 0 ∨ s = 0 then none else some (r, s)
  | _, _ => none

/-- The nonce of an attempt: between 1 and n − 1 (R265), otherwise free in the Fountain bytes it comes from (R255 does not say how
they become k). -/
def ecdsaK (c : Curve) (rnd : Bytes) (try' : Nat) : Nat := 1 + Config.ecScalar rnd try' % (c.n - 1)

/-- The signature by the first attempt that gives no 0 (R267). -/
def ecdsaTries (c : Curve) (d : Nat) (digest rnd : Bytes) : Nat → Nat → Nat × Nat
  | 0, _ => (0, 0)
  | f + 1, i => match ecdsaWith c d (ecdsaK c rnd i) digest with
    | some v => v
    | none => ecdsaTries c d digest rnd f (i + 1)
def ecdsaSign (c : Curve) (d : Nat) (digest rnd : Bytes) : Nat × Nat := ecdsaTries c d digest rnd 256 0

end Sys2Proof.Machine
end

