-- ==== Sys2Proof/Machine/Lattice.lean ====
section
/-! DEFINITION. ML-KEM (FIPS 203) and ML-DSA (FIPS 204) as the Arcade runs them (R255, R258, R260, R265). PRESUMED where a standard
the manual names says it and the manual does not repeat it (assumption log, "standards"). -/
namespace Sys2Proof.Machine
open Sys2Proof

/-! ## Polynomials and their encodings -/

/-- A polynomial of 256 coefficients modulo q. -/
abbrev Poly := List Nat

def polyAdd (q : Nat) (a b : Poly) : Poly := List.zipWith (fun x y => (x + y) % q) a b
def polySub (q : Nat) (a b : Poly) : Poly := List.zipWith (fun x y => subMod x y q) a b
def polyZero : Poly := List.replicate 256 0

/-- Inner product of two vectors in the transform domain. -/
def polyDot (r : Ring) (a b : List Poly) : Poly :=
  (List.zipWith (pmul r) a b).foldl (polyAdd r.q) polyZero

/-- The bits of a byte string, lowest first, and of a number. -/
def bitsOfBytes (b : Bytes) : List Bool := b.flatMap fun x => (List.range 8).map fun i => x.toNat.testBit i
def numOfBits (l : List Bool) : Nat := l.foldr (fun b a => b2n b + 2 * a) 0

/-- ByteEncode and ByteDecode of d-bit numbers: the little-endian number with number i at bit d·i. -/
def packBits (d : Nat) (l : List Nat) : Bytes :=
  toLe (32 * d) ((l.foldr (fun v a => v % 2 ^ d + 2 ^ d * a) 0))
def unpackBits (d : Nat) (b : Bytes) : List Nat :=
  let v := le b
  (List.range 256).map fun i => v / 2 ^ (d * i) % 2 ^ d

/-- The centred representative of a residue. -/
def centred (q v : Nat) : Int := if v ≤ q / 2 then (v : Int) else (v : Int) - q
/-- The residue of an integer. -/
def residue (q : Nat) (v : Int) : Nat := (v % (q : Int)).toNat
/-- A vector's infinity norm is below a bound. -/
def normBelow (q bound : Nat) (l : List Poly) : Bool := l.all fun p => p.all fun v => decide ((centred q v).natAbs < bound)

/-! ## ML-KEM -/

/-- Rank and compression widths of a parameter set: ML-KEM-768 or ML-KEM-1024. -/
structure KemSet where
  k : Nat
  du : Nat
  dv : Nat
def kemSet (alg : Nat) : KemSet := if alg ≤ 0x61 then { k := 3, du := 10, dv := 4 } else { k := 4, du := 11, dv := 5 }

/-- Accepted 12-bit candidates of a byte stream. -/
def kemCandidates : Bytes → List Nat
  | a :: b :: c :: l =>
    [a.toNat + 256 * (b.toNat % 16), b.toNat / 16 + 16 * c.toNat].filter (fun v => decide (v < 3329)) ++ kemCandidates l
  | _ => []

/-- SampleNTT: the first 256 accepted candidates of SHAKE128; 1,008 bytes hold them but for a chance below 2^−500. -/
def sampleNtt (seed : Bytes) : Poly := (kemCandidates (shake128 1008 seed)).take 256
/-- SamplePolyCBD with η = 2, of PRF(σ, n). -/
def sampleCbd (seed : Bytes) (n : Nat) : Poly :=
  let v := le (shake256 128 (seed ++ toLe 1 n))
  (List.range 256).map fun i =>
    let t := v / 16 ^ i
    subMod (t % 2 + t / 2 % 2) (t / 4 % 2 + t / 8 % 2) 3329

/-- The matrix from ρ: entry (i, j) from ρ ∥ j ∥ i. -/
def kemMatrix (k : Nat) (rho : Bytes) : List (List Poly) :=
  (List.range k).map fun i => (List.range k).map fun j => sampleNtt (rho ++ toLe 1 j ++ toLe 1 i)
def transpose (k : Nat) (m : List (List Poly)) : List (List Poly) :=
  (List.range k).map fun i => m.map fun row => row.getD i polyZero

/-- Compress and Decompress to d bits. -/
def compress (d x : Nat) : Nat := (2 ^ (d + 1) * x + 3329) / 6658 % 2 ^ d
def decompress (d y : Nat) : Nat := (2 * 3329 * y + 2 ^ d) / 2 ^ (d + 1)

/-- K-PKE key generation from d: the encapsulation key and the secret vector in the transform domain. -/
def kemKeys (s : KemSet) (d : Bytes) : Bytes × List Poly :=
  let g := sha3 64 (fit 32 d ++ toLe 1 s.k)
  let rho := g.take 32
  let sec := (List.range s.k).map fun i => ntt mlKem (sampleCbd (g.drop 32) i)
  let err := (List.range s.k).map fun i => ntt mlKem (sampleCbd (g.drop 32) (s.k + i))
  let t := List.zipWith (fun row e => polyAdd 3329 (polyDot mlKem row sec) e) (kemMatrix s.k rho) err
  (cat (t.map (packBits 12)) ++ rho, sec)

/-- The vector t of an encapsulation key. -/
def kemT (s : KemSet) (ek : Bytes) : List Poly := (List.range s.k).map fun i => unpackBits 12 (sl ek (384 * i) 384)

/-- K-PKE encryption of a 32-byte message with 32 bytes of randomness. -/
def kemEncrypt (s : KemSet) (ek m r : Bytes) : Bytes :=
  let a := kemMatrix s.k (sl ek (384 * s.k) 32)
  let y := (List.range s.k).map fun i => ntt mlKem (sampleCbd r i)
  let u := (transpose s.k a).zipIdx.map fun e =>
    polyAdd 3329 (intt mlKem (polyDot mlKem e.1 y)) (sampleCbd r (s.k + e.2))
  let mu := (bitsOfBytes (fit 32 m)).map fun b => if b then 1665 else 0
  let v := polyAdd 3329 (polyAdd 3329 (intt mlKem (polyDot mlKem (kemT s ek) y)) (sampleCbd r (2 * s.k))) mu
  cat (u.map fun p => packBits s.du (p.map (compress s.du))) ++ packBits s.dv (v.map (compress s.dv))

/-- K-PKE decryption. -/
def kemDecrypt (s : KemSet) (sec : List Poly) (ct : Bytes) : Bytes :=
  let u := (List.range s.k).map fun i => (unpackBits s.du (sl ct (32 * s.du * i) (32 * s.du))).map (decompress s.du)
  let v := (unpackBits s.dv (sl ct (32 * s.du * s.k) (32 * s.dv))).map (decompress s.dv)
  let w := polySub 3329 v (intt mlKem (polyDot mlKem sec (u.map (ntt mlKem))))
  packBits 1 (w.map (compress 1))

/-- Every coefficient of an encapsulation key is below q (R265). -/
def kemKeyOk (s : KemSet) (ek : Bytes) : Bool := (kemT s ek).all fun p => p.all fun v => decide (v < 3329)

/-- The shared secret and the encryption randomness of a message under a key. -/
def kemDerive (m ek : Bytes) : Bytes × Bytes :=
  let g := sha3 64 (fit 32 m ++ sha3 32 ek)
  (g.take 32, g.drop 32)

/-- Encapsulation with 32 Fountain bytes: ciphertext and shared secret; none when the modulus check fails. -/
def kemEncapOf (alg : Nat) (ek m : Bytes) : Option (Bytes × Bytes) :=
  let s := kemSet alg
  if kemKeyOk s ek then
    let g := kemDerive m ek
    some (kemEncrypt s ek (fit 32 m) g.2, g.1)
  else none

/-- Decapsulation under a seed d ∥ z: the rejection secret K̄ when the re-encryption differs (R260). -/
def kemDecapOf (alg : Nat) (seed ct : Bytes) : Bytes :=
  let s := kemSet alg
  let key := kemKeys s (sl seed 0 32)
  let m := kemDecrypt s key.2 ct
  let g := kemDerive m key.1
  if kemEncrypt s key.1 m g.2 = ct then g.1 else shake256 32 (sl seed 32 32 ++ ct)

/-! ## ML-DSA -/

/-- The parameters of ML-DSA-65 or ML-DSA-87. -/
structure DsaSet where
  k : Nat
  l : Nat
  eta : Nat
  tau : Nat
  lambda : Nat
  omega : Nat
def dsaSet (alg : Nat) : DsaSet :=
  if alg ≤ 0x65 then { k := 6, l := 5, eta := 4, tau := 49, lambda := 192, omega := 55 }
  else { k := 8, l := 7, eta := 2, tau := 60, lambda := 256, omega := 75 }
def dsaQ : Nat := 8380417
def gamma1 : Nat := 2 ^ 19
def gamma2 : Nat := (dsaQ - 1) / 32
def dsaBeta (s : DsaSet) : Nat := s.tau * s.eta

/-- Accepted 23-bit candidates of a byte stream, and small coefficients of its half bytes. -/
def dsaCandidates : Bytes → List Nat
  | a :: b :: c :: l =>
    [a.toNat + 256 * b.toNat + 65536 * (c.toNat % 128)].filter (fun v => decide (v < dsaQ)) ++ dsaCandidates l
  | _ => []
def dsaHalf (eta b : Nat) : List Nat :=
  if eta = 2 ∧ b < 15 then [subMod 2 (b % 5) dsaQ] else if eta = 4 ∧ b < 9 then [subMod 4 b dsaQ] else []

/-- RejNTTPoly and RejBoundedPoly: the streams taken hold 256 accepted values but for a negligible chance. -/
def rejNtt (seed : Bytes) : Poly := (dsaCandidates (shake128 1008 seed)).take 256
def rejBounded (eta : Nat) (seed : Bytes) : Poly :=
  ((shake256 544 seed).flatMap fun b => dsaHalf eta (b.toNat % 16) ++ dsaHalf eta (b.toNat / 16)).take 256

/-- ExpandA: entry (r, c) from ρ ∥ c ∥ r. -/
def dsaMatrix (s : DsaSet) (rho : Bytes) : List (List Poly) :=
  (List.range s.k).map fun r => (List.range s.l).map fun c => rejNtt (rho ++ toLe 1 c ++ toLe 1 r)

/-- Power2Round with d = 13: the high part; and Decompose: high part and centred low part. -/
def power2High (v : Nat) : Nat := (v + 2 ^ 12 - 1) / 2 ^ 13
def decompose (v : Nat) : Nat × Int :=
  let a := 2 * gamma2
  let low : Int := if v % a ≤ gamma2 then ((v % a : Nat) : Int) else ((v % a : Nat) : Int) - a
  if (v : Int) - low = dsaQ - 1 then (0, low - 1) else (((v : Int) - low).toNat / a, low)
def highBits (v : Nat) : Nat := (decompose v).1
def useHint (h : Bool) (v : Nat) : Nat :=
  let d := decompose v
  if !h then d.1 else if 0 < d.2 then (d.1 + 1) % 16 else (d.1 + 15) % 16

/-- What the seed ξ expands to. -/
structure DsaKey where
  rho : Bytes
  kk : Bytes
  s1 : List Poly
  s2 : List Poly
  /-- t = A s1 + s2, and the public key. -/
  t : List Poly
  pk : Bytes

def dsaKeys (s : DsaSet) (seed : Bytes) : DsaKey :=
  let h := shake256 128 (fit 32 seed ++ toLe 1 s.k ++ toLe 1 s.l)
  let rho := h.take 32
  let small (i : Nat) : Poly := rejBounded s.eta (sl h 32 64 ++ toLe 2 i)
  let s1 := (List.range s.l).map small
  let s2 := (List.range s.k).map fun i => small (s.l + i)
  let s1n := s1.map (ntt mlDsa)
  let t := List.zipWith (fun row e => polyAdd dsaQ (intt mlDsa (polyDot mlDsa row s1n)) e) (dsaMatrix s rho) s2
  { rho, kk := h.drop 96, s1, s2, t, pk := rho ++ cat (t.map fun p => packBits 10 (p.map power2High)) }

/-- Swap-and-set of SampleInBall: positions i rising, a byte at most i chosen for each, and its sign. -/
def ballPlace : Nat → Nat → Bytes → List Bool → Poly → Poly
  | 0, _, _, _, c => c
  | n + 1, i, b, signs, c =>
    let r := b.dropWhile fun x => decide (i < x.toNat)
    let j := byteAt r 0
    let c := (c.set i (c.getD j 0)).set j (if signs.headD false then dsaQ - 1 else 1)
    ballPlace n (i + 1) (r.drop 1) (signs.drop 1) c
def sampleInBall (tau : Nat) (seed : Bytes) : Poly :=
  let h := shake256 680 seed
  ballPlace tau (256 - tau) (h.drop 8) (bitsOfBytes (h.take 8)) polyZero

/-- The message representative μ of a context string and message (FIPS 204, external ML-DSA). -/
def dsaMu (pk ctx msg : Bytes) : Bytes :=
  shake256 64 (shake256 64 pk ++ toLe 1 0 ++ toLe 1 ctx.length ++ ctx ++ msg)

/-- ExpandMask at κ. -/
def expandMask (s : DsaSet) (rho2 : Bytes) (kappa : Nat) : List Poly :=
  (List.range s.l).map fun r =>
    (unpackBits 20 (shake256 640 (rho2 ++ toLe 2 (kappa + r)))).map fun v => subMod gamma1 v dsaQ

def commitHash (s : DsaSet) (mu : Bytes) (w1 : List Poly) : Bytes :=
  shake256 (s.lambda / 4) (mu ++ cat (w1.map (packBits 4)))

/-- Positions of hints by polynomial, and their encoding and decoding. -/
def hintPack (s : DsaSet) (h : List (List Bool)) : Bytes :=
  let pos := h.map fun p => (p.zipIdx.filter (·.1)).map (·.2)
  let ends := (List.range s.k).map fun i => ((pos.take (i + 1)).map List.length).sum
  fit s.omega (pos.flatten.map (BitVec.ofNat 8)) ++ ends.map (BitVec.ofNat 8)
def hintUnpack (s : DsaSet) (b : Bytes) : Option (List (List Bool)) :=
  let ends := (List.range (s.k + 1)).map fun i => if i = 0 then 0 else byteAt b (s.omega + i - 1)
  let rising : List Nat → Bool := fun l => (l.zip (l.drop 1)).all fun e => decide (e.1 < e.2)
  let part (i : Nat) : List Nat := ((b.take (ends.getD (i + 1) 0)).drop (ends.getD i 0)).map (·.toNat)
  let ok := (List.range s.k).all fun i =>
    decide (ends.getD i 0 ≤ ends.getD (i + 1) 0) && decide (ends.getD (i + 1) 0 ≤ s.omega) && rising (part i)
  if ok && ((b.take s.omega).drop (ends.getD s.k 0)).all (· == 0) then
    some ((List.range s.k).map fun i => (List.range 256).map fun j => (part i).contains j)
  else none

/-- One pass of the rejection loop: the signature, or none when it must be repeated with a larger κ. -/
def dsaPass (s : DsaSet) (key : DsaKey) (a : List (List Poly)) (mu rho2 : Bytes) (kappa : Nat) : Option Bytes :=
  let q := dsaQ
  let y := expandMask s rho2 kappa
  let yn := y.map (ntt mlDsa)
  let w := a.map fun row => intt mlDsa (polyDot mlDsa row yn)
  let ct := commitHash s mu (w.map fun p => p.map highBits)
  let c := ntt mlDsa (sampleInBall s.tau ct)
  let times (p : Poly) : Poly := intt mlDsa (pmul mlDsa c (ntt mlDsa p))
  let z := List.zipWith (polyAdd q) y (key.s1.map times)
  let wr := List.zipWith (polySub q) w (key.s2.map times)
  let t0 := key.t.map fun p => p.map fun v => subMod v (power2High v * 2 ^ 13) q
  let ct0 := t0.map times
  let h := List.zipWith (fun p t => List.zipWith (fun v u => highBits v != highBits ((v + u) % q)) p t) wr ct0
  let ones := ((h.map fun p => (p.filter id).length)).sum
  if normBelow q (gamma1 - dsaBeta s) z
      && wr.all (fun p => p.all fun v => decide ((decompose v).2.natAbs < gamma2 - dsaBeta s))
      && normBelow q gamma2 ct0 && decide (ones ≤ s.omega) then
    some (ct ++ cat (z.map fun p => packBits 20 (p.map fun v => subMod gamma1 v q)) ++ hintPack s h)
  else none
def dsaLoop (s : DsaSet) (key : DsaKey) (a : List (List Poly)) (mu rho2 : Bytes) : Nat → Nat → Option Bytes
  | 0, _ => none
  | f + 1, kappa => match dsaPass s key a mu rho2 kappa with
    | some sig => some sig
    | none => dsaLoop s key a mu rho2 f (kappa + s.l)

/-- Hedged signing from the private seed, with 32 Fountain bytes; FIPS 204 lets an implementation bound its loop, and this bound is
not reached but for a negligible chance. -/
def mldsaSign (alg : Nat) (seed ctx msg rnd : Bytes) : Option Bytes :=
  let s := dsaSet alg
  let key := dsaKeys s seed
  let mu := dsaMu key.pk ctx msg
  dsaLoop s key (dsaMatrix s key.rho) mu (shake256 64 (key.kk ++ fit 32 rnd ++ mu)) 1024 0

/-- The norm of z and the hint of a signature are within the bounds of FIPS 204 (R268). -/
def dsaNorms (alg : Nat) (sig : Bytes) : Bool :=
  let s := dsaSet alg
  let n := s.lambda / 4
  let z := (List.range s.l).map fun i => (unpackBits 20 (sl sig (n + 640 * i) 640)).map fun v => subMod gamma1 v dsaQ
  (hintUnpack s (sl sig (n + 640 * s.l) (s.omega + s.k))).isSome && normBelow dsaQ (gamma1 - dsaBeta s) z

/-- Verification: the hint's encoding, the norm of z, and the equation (R265). -/
def mldsaVerify (alg : Nat) (pk ctx msg sig : Bytes) : Bool :=
  let s := dsaSet alg
  let q := dsaQ
  let n := s.lambda / 4
  let z := (List.range s.l).map fun i => (unpackBits 20 (sl sig (n + 640 * i) 640)).map fun v => subMod gamma1 v q
  match hintUnpack s (sl sig (n + 640 * s.l) (s.omega + s.k)) with
  | none => false
  | some h =>
    let c := ntt mlDsa (sampleInBall s.tau (sl sig 0 n))
    let zn := z.map (ntt mlDsa)
    let t1 := (List.range s.k).map fun i => (unpackBits 10 (sl pk (32 + 320 * i) 320)).map fun v => v * 2 ^ 13 % q
    let w := List.zipWith (fun row t =>
      intt mlDsa (polySub q (polyDot mlDsa row zn) (pmul mlDsa c (ntt mlDsa t)))) (dsaMatrix s (sl pk 0 32)) t1
    let w1 := List.zipWith (fun hp p => List.zipWith useHint hp p) h w
    normBelow q (gamma1 - dsaBeta s) z && commitHash s (dsaMu pk ctx msg) w1 == sl sig 0 n

end Sys2Proof.Machine
end

