-- ==== Sys2Proof/Machine/Arcade.lean ====
section
/-! DEFINITION. The Arcade: opcodes 0x50 to 0x58 on the operand memory, the release of a result, stops, zeroisation, known-answer
tests, the Curve Store, and the unit an internal operation uses (chapter 7). -/
namespace Sys2Proof.Machine
open Sys2Proof

/-! ## Operands (R251, R254 to R256) -/

/-- How the arithmetic of a command ends: what stands in the result region; a failed validation; a result that has no encoding and
so fails its invariant, such as the point at infinity. -/
inductive ArcRes where
  | res (b : Bytes)
  | reject
  | broken
deriving DecidableEq, Repr

/-- The source as the unit works on it: what the input region holds, and what of a longer message passed through it. -/
def arcInput (m : OpMem) (x : Ctx) : Bytes := m.input ++ x.srcIn.drop inputCap

/-- The curve in the modulus region. -/
def memCurve (m : OpMem) : Curve := curveFrom m.modulus

/-- d of a private key, and x, y of a public key, from their material (R254). -/
def ecPriv (b : Bytes) : Nat := be b
def ecPub (c : Curve) (alg : Nat) (b : Bytes) : Nat × Nat :=
  let v := be (fit (algBytes alg) b)
  (v / 2 ^ c.pbits, v % 2 ^ c.pbits)
def ecPubMat (c : Curve) (alg : Nat) (q : Nat × Nat) : Bytes := toBe (algBytes alg) (q.1 * 2 ^ c.pbits + q.2)

/-- The string at parameter-block byte 0 (R256). -/
def pkString (x : Ctx) : Bytes := sl x.param 0 (bits x.d.arg 6 0)

/-! ## The command level (R255 to R260, R265) -/

/-- The representative an RSA signature is made of (RFC 8017). -/
def rsaEncoded (x : Ctx) (m : OpMem) : Bytes :=
  let k := rsaK (algOf x 0)
  if x.d.mode = 3 then emPkcs1 k (arcInput m x) else emPss (hashCode x.d) (hLen x.d) k (arcInput m x) (fit (hLen x.d) m.blinding)

/-- RSA private operation with the checks of R265: e, and the representative below n. -/
def rsaPrivate (x : Ctx) (m : OpMem) (v : Nat) : ArcRes :=
  let k := rsaK (algOf x 0)
  let r := rsaPriv k m.key
  if !rsaExpOk (r.p * r.q) r.e || decide (r.p * r.q ≤ v) then .reject else .res (toBe k (rsaCrt r v))

/-- PK_SIGN. -/
def pkSign (x : Ctx) (m : OpMem) : ArcRes :=
  let a := algOf x 0
  let src := arcInput m x
  match x.d.mode with
  | 1 =>
    let c := memCurve m
    let d := ecPriv (fit (algBytes a) m.key)
    if scalarOk c d then
      let r := ecdsaSign c d src m.blinding
      .res (toBe (fieldLen c) r.1 ++ toBe (fieldLen c) r.2)
    else .reject
  | 2 => .res (edSign (sl m.key 0 32) src)
  | 5 => match mldsaSign a (sl m.key 0 32) (pkString x) src (fit 32 m.blinding) with
    | some s => .res s
    | none => .broken
  | _ => rsaPrivate x m (be (rsaEncoded x m))

/-- The RSA public operation with its checks. -/
def rsaPublic (k : Nat) (key : Bytes) (v : Nat) : Option Nat :=
  let r := rsaPub k key
  if rsaExpOk r.1 r.2 && decide (v < r.1) then some (powMod v r.2 r.1) else none

/-- A signature verifies under an ECDSA public key. -/
def ecdsaVerify (c : Curve) (q : Nat × Nat) (digest sig : Bytes) : Bool :=
  ecdsaOk c q digest (be (sl sig 0 (fieldLen c))) (be (sl sig (fieldLen c) (fieldLen c)))

/-- PK_VERIFY: signature, then the source PK_SIGN takes. -/
def pkVerify (x : Ctx) (m : OpMem) : ArcRes :=
  let a := algOf x 0
  let n := sigLen a
  let sig := (arcInput m x).take n
  let msg := (arcInput m x).drop n
  let k := rsaK a
  let ok : Bool := match x.d.mode with
    | 1 => ecdsaVerify (memCurve m) (ecPub (memCurve m) a m.key) msg sig
    | 2 => edVerify (sl m.key 0 32) msg sig
    | 3 => rsaPublic k m.key (be sig) == some (be (emPkcs1 k msg))
    | 4 => match rsaPublic k m.key (be sig) with
      | some v => pssOk (hashCode x.d) (hLen x.d) k msg (toBe k v)
      | none => false
    | _ => mldsaVerify a (sl m.key 0 (algBytes a)) (pkString x) msg sig
  if ok then .res [] else .reject

/-- PK_ENCRYPT. -/
def pkEncrypt (x : Ctx) (m : OpMem) : ArcRes :=
  let k := rsaK (algOf x 0)
  let em := emOaep (hashCode x.d) (hLen x.d) k (pkString x) (arcInput m x) (fit (hLen x.d) m.blinding)
  match rsaPublic k m.key (be em) with
  | some v => .res (toBe k v)
  | none => .reject

/-! ### Key pairs (R258) -/

/-- A prime of 4k bits as FIPS 186-5 A.1.3 asks: long enough, odd, p − 1 prime to 65537, far enough from the other prime, and 64
Miller–Rabin rounds. -/
def rsaPrimeOk (k : Nat) (other : Option Nat) (rnd : Bytes) (p : Nat) : Bool :=
  decide (2 * 2 ^ (8 * k - 2) ≤ p * p) && decide (p < 2 ^ (4 * k)) && Nat.gcd (p - 1) 65537 == 1
    && (other.all fun q => decide (2 ^ (4 * k - 100) < (max p q - min p q))) && mrPrime p rnd
/-- The first candidate that is such a prime, and the number of the next one. -/
def rsaPrime (k : Nat) (other : Option Nat) (rnd : Bytes) : Nat → Nat → Option (Nat × Nat)
  | 0, _ => none
  | f + 1, i =>
    let p := Config.rsaCandidate rnd i % 2 ^ (4 * k - 1) * 2 + 1
    if rsaPrimeOk k other rnd p then some (p, i + 1) else rsaPrime k other rnd f (i + 1)
/-- The fields of an RSA key of two primes, as the key region holds them. -/
def rsaPack (k p q : Nat) : Bytes :=
  let inv (a n : Nat) : Nat := (invMod a n).getD 0
  let h := k / 2
  toBe h p ++ toBe h q ++ toBe h (inv 65537 (p - 1)) ++ toBe h (inv 65537 (q - 1)) ++ toBe h (inv q p) ++ toBe 8 65537
/-- DESIGN CHOICE: the search is cut off after 2^20 candidates for each prime, which no device reaches. -/
def rsaNew (k : Nat) (rnd : Bytes) : Option Bytes :=
  (rsaPrime k none rnd (2 ^ 20) 0).bind fun a => (rsaPrime k (some a.1) rnd (2 ^ 20) a.2).map fun b => rsaPack k a.1 b.1

/-- New private key material of a binding from the Fountain bytes drawn (R254, R258). -/
def newPrivate (alg : Nat) (rnd : Bytes) : Option Bytes :=
  if alg < 0x46 then some (toBe (algBytes alg) (1 + Config.ecScalar rnd 0 % ((algCurve alg).n - 1)))
  else if 0x50 ≤ alg ∧ alg < 0x60 then rsaNew (rsaK alg) rnd
  else some (fit (algBytes alg) rnd)

/-- The edge encoding of the public key of private material: none for the point at infinity (R268). -/
def publicOf (alg : Nat) (priv : Bytes) : Option Bytes :=
  if alg < 0x46 then (ptMul (algCurve alg) (ecPriv priv) (basePt (algCurve alg))).map (ptBytes (algCurve alg))
  else if alg = 0x46 then some (x25519 priv (toLe 32 9))
  else if alg = 0x48 then some (edPublic priv)
  else if alg < 0x60 then
    let r := rsaPriv (rsaK alg) priv
    some (toBe (rsaK alg) (r.p * r.q) ++ toBe 8 r.e)
  else if alg < 0x64 then some (kemKeys (kemSet alg) (sl priv 0 32)).1
  else some (dsaKeys (dsaSet alg) priv).pk

/-- The material of a public key from its edge encoding. -/
def publicMat (alg : Nat) (edge : Bytes) : Bytes :=
  if alg < 0x46 then ecPubMat (algCurve alg) (alg + 1) (ptAt (algCurve alg) edge 0) else edge

/-- PK_KEYPAIR: the private material, then the public key. -/
def pkKeypair (x : Ctx) (m : OpMem) : ArcRes :=
  let a := (templateOf x.param).alg
  match newPrivate a m.blinding with
  | none => .broken
  | some d => match publicOf a d with
    | none => .broken
    | some e => .res (d ++ e)

/-! ### Agreement and encapsulation (R259, R260) -/

/-- The material a shared secret is stored as (R259). -/
def secretMat (z : Bytes) : Bytes :=
  if z.length = 32 then z else if z.length = 48 then z ++ fill 16 0 else hashOf 3 64 z

/-- The write of a shared secret into operand 1 (R198, R259). -/
def secretOp (x : Ctx) (z : Bytes) : SlotOp :=
  .write (targetOf x 1) (newKey x { templateOf x.param with parent := x.d.handle } (secretMat z))

/-- PK_AGREE: the shared point, or the X25519 output. -/
def pkAgree (x : Ctx) (m : OpMem) : ArcRes :=
  let a := algOf x 0
  if a = 0x46 then
    let z := x25519 (sl m.key 0 32) (arcInput m x)
    if z == fill 32 0 then .reject else .res z
  else
    let c := memCurve m
    let d := ecPriv (fit (algBytes a) m.key)
    let q := ptAt c (arcInput m x) 0
    if !scalarOk c d || !ptOk c q then .reject
    else match ptMul c d (some q) with
      | none => .broken
      | some r => .res (ptBytes c r)

/-- KEM_ENCAP: the ciphertext, then the secret; KEM_DECAP: the secret, or the rejection secret. -/
def kemEncap (x : Ctx) (m : OpMem) : ArcRes :=
  match kemEncapOf (algOf x 0) (sl m.key 0 (algBytes (algOf x 0))) (fit 32 m.blinding) with
  | none => .reject
  | some (ct, z) => .res (ct ++ z)
def kemDecap (x : Ctx) (m : OpMem) : ArcRes := .res (kemDecapOf (algOf x 0) (sl m.key 0 64) (arcInput m x))

/-! ## ARC_COMPUTE (R261, R264, R265) -/

/-- N, A and B of a FREE function, and the exponent of MOD_EXP. -/
def freeB (x : Ctx) : Nat := 8 * lWords x
def freeN (m : OpMem) : Nat := be m.modulus
def freeOp (x : Ctx) (m : OpMem) (i : Nat) : Nat := be (sl (arcInput m x) (i * freeB x) (freeB x))

/-- FREE functions. -/
def arcFree (x : Ctx) (m : OpMem) : ArcRes :=
  let n := freeN m
  let p := freeOp x m 1
  let q := freeOp x m 2
  let two := decide (p < n) && decide (q < n)
  let out (v : Nat) : ArcRes := .res (toBe (freeB x) v)
  if n % 2 = 0 || n < 3 then .reject
  else match arcFunc x.d with
    | 0x01 => if two then out ((p + q) % n) else .reject
    | 0x02 => if two then out (subMod p q n) else .reject
    | 0x03 => if two then out (p * q % n) else .reject
    | 0x04 => if 0 < p && p < n then
        (match invMod p n with
         | some v => out v
         | none => .reject) else .reject
    | _ =>
      if p < n then out (powMod p (be (sl (arcInput m x) (2 * freeB x) (8 * eWords x))) n) else .reject

/-- A point result. -/
def ptRes (c : Curve) : Pt → ArcRes
  | some q => .res (ptBytes c q)
  | none => .broken

/-- The parameters a CURVE_LOAD offers. -/
def loadParams (x : Ctx) (m : OpMem) : Curve :=
  let f := (pBits x + 7) / 8
  let v (i : Nat) : Nat := be (sl (arcInput m x) (i * f) f)
  { p := v 0, a := v 1, b := v 2, gx := v 3, gy := v 4, n := v 5, pbits := pBits x, h := curveH x, dom := x.dom }

/-- CURVE functions, on the copy of the curve the unit took at dispatch (R263). -/
def arcCurveFn (x : Ctx) (m : OpMem) : ArcRes :=
  let c := memCurve m
  let f := fieldLen c
  let sc := scalarLen c
  let src := arcInput m x
  match arcFunc x.d with
  | 0x11 =>
    let p := ptAt c src 0
    let q := ptAt c src (2 * f)
    if ptOk c p && ptOk c q then ptRes c (ptAdd c (some p) (some q)) else .reject
  | 0x12 =>
    let p := ptAt c src 0
    if ptOk c p then ptRes c (ptAdd c (some p) (some p)) else .reject
  | 0x13 =>
    let k := be (sl src 0 sc)
    let p := ptAt c src sc
    if scalarOk c k && ptOk c p then ptRes c (ptMul c k (some p)) else .reject
  | 0x14 =>
    let k := be (sl src 0 sc)
    if scalarOk c k then ptRes c (ptMul c k (basePt c)) else .reject
  | 0x15 => if ptOk c (ptAt c src 0) then .res [] else .reject
  | 0x16 => if curveOk (loadParams x m) m.blinding then .res [] else .reject
  | _ => .res []

/-- POLY functions. -/
def arcPoly (x : Ctx) (m : OpMem) : ArcRes :=
  let r := if ringCode x = 1 then mlKem else mlDsa
  let a := polyAt (arcInput m x) 0
  let b := polyAt (arcInput m x) 1024
  let ok (l : List Nat) : Bool := l.all fun v => decide (v < r.q)
  let two (l : List Nat) : ArcRes := if ok a && ok b then .res (polyBytes l) else .reject
  match arcFunc x.d with
  | 0x21 => if ok a then .res (polyBytes (ntt r a)) else .reject
  | 0x22 => if ok a then .res (polyBytes (intt r a)) else .reject
  | 0x23 => two (pmul r a b)
  | 0x24 => two (List.zipWith (fun p q => (p + q) % r.q) a b)
  | _ => two (List.zipWith (fun p q => subMod p q r.q) a b)

/-- The arithmetic of an Arcade command. -/
def arcResult (x : Ctx) (m : OpMem) : ArcRes :=
  match x.d.opcode with
  | 0x50 => pkSign x m
  | 0x51 => pkVerify x m
  | 0x52 => pkKeypair x m
  | 0x53 => pkAgree x m
  | 0x54 => kemEncap x m
  | 0x55 => kemDecap x m
  | 0x56 => pkEncrypt x m
  | 0x57 => rsaPrivate x m (be (arcInput m x))
  | _ => if x.d.mode = 1 then arcFree x m else if x.d.mode = 2 then arcCurveFn x m else arcPoly x m

/-! ## Invariants (R268) -/

/-- The invariant of a signature: it verifies under the public key of d, the representative comes back, or the norms and the hint
are within their bounds. -/
def signInv (x : Ctx) (m : OpMem) (b : Bytes) : Bool :=
  let a := algOf x 0
  match x.d.mode with
  | 1 =>
    let c := memCurve m
    match ptMul c (ecPriv (fit (algBytes a) m.key)) (basePt c) with
    | some q => ecdsaVerify c q (arcInput m x) b
    | none => false
  | 2 => edVerify (edPublic (sl m.key 0 32)) (arcInput m x) b
  | 5 => dsaNorms a b
  | _ => rsaInv x m (be (rsaEncoded x m)) b
where
  /-- s^e mod pq equals the representative. -/
  rsaInv (x : Ctx) (m : OpMem) (v : Nat) (b : Bytes) : Bool :=
    let r := rsaPriv (rsaK (algOf x 0)) m.key
    powMod (be b) r.e (r.p * r.q) == v

/-- The invariant of a key pair: the public key belongs to the private one, and an RSA key's fields agree. -/
def pairInv (x : Ctx) (b : Bytes) : Bool :=
  let a := (templateOf x.param).alg
  let d := b.take (algBytes a)
  publicOf a d == some (b.drop (algBytes a)) &&
    (if 0x50 ≤ a ∧ a < 0x60 then
      let k := rsaK a
      let r := rsaPriv k d
      (r.p * r.q).log2 + 1 == 8 * k && r.e * r.dp % (r.p - 1) == 1 && r.e * r.dq % (r.q - 1) == 1 && r.q * r.qinv % r.p == 1
    else if 0x60 ≤ a ∧ a < 0x64 then kemKeyOk (kemSet a) (b.drop (algBytes a)) else true)

/-- A point result is on the curve. -/
def pointInv (m : OpMem) (b : Bytes) : Bool := onCurve (memCurve m) (ptAt (memCurve m) b 0)

/-- The invariant of R268 on what the result region holds. -/
def arcInv (x : Ctx) (m : OpMem) (b : Bytes) : Bool :=
  match x.d.opcode with
  | 0x50 => signInv x m b
  | 0x52 => pairInv x b
  | 0x53 => algOf x 0 == 0x46 || pointInv m b
  | 0x57 => signInv.rsaInv x m (be (arcInput m x)) b
  | 0x58 =>
    if x.d.mode = 1 then
      decide (be b < freeN m) && (arcFunc x.d != 0x04 || freeOp x m 1 * be b % freeN m == 1)
    else if x.d.mode = 2 then 0x15 ≤ arcFunc x.d || pointInv m b
    else (polyAt b 0).all fun v => decide (v < (if ringCode x = 1 then mlKem.q else mlDsa.q))
  | _ => true

/-! ## What leaves the unit (R250, R255, R257 to R259) -/

/-- The release of a result: output bytes, a commit, and BYTES_DONE; none when its encoding fails (RFC 8017). -/
structure ArcOut where
  out : Bytes := []
  op : Option SlotOp := none
  bytes : Nat

def arcOut (x : Ctx) (m : OpMem) (b : Bytes) : Option ArcOut :=
  let a := algOf x 0
  let e := curveCode x - 0x80
  match x.d.opcode with
  | 0x51 => some { bytes := x.d.len }
  | 0x52 =>
    let t := templateOf x.param
    let edge := b.drop (algBytes t.alg)
    let key := newKey x t (b.take (algBytes t.alg))
    let op := if opHandle x 0x10 = 0 then SlotOp.write (targetOf x 0) key
      else .pair (targetOf x 0) key (targetOf x 1) (newKey x (publicTemplate x) (publicMat t.alg edge))
    some { out := edge, op := some op, bytes := edge.length }
  | 0x53 => some { op := some (secretOp x (if a = 0x46 then b else b.take (fieldLen (memCurve m)))), bytes := 0 }
  | 0x54 => some { out := b.take (kemCt a), op := some (secretOp x (b.drop (kemCt a))), bytes := kemCt a }
  | 0x55 => some { op := some (secretOp x b), bytes := x.d.len }
  | 0x57 => (oaepOpen (hashCode x.d) (hLen x.d) (rsaK a) (pkString x) b).map fun v => { out := v, bytes := v.length }
  | _ =>
    if x.d.opcode = 0x58 && x.d.mode = 2 && arcFunc x.d = 0x16 then
      some { op := some (.curve e (some (loadParams x m))), bytes := 0 }
    else if x.d.opcode = 0x58 && x.d.mode = 2 && arcFunc x.d = 0x17 then some { op := some (.curve e none), bytes := 0 }
    else some { out := b, bytes := b.length }

/-! ## The opcodes begin (R255, R261, R270) -/

/-- The operand memory as the arithmetic begins: the modulus of a FREE function or an RSA key, the Fountain bytes, and what fills the
work region and the rest of the modulus region. -/
def loadedMem (s : State) (c : Nat) (x : Ctx) (m : OpMem) : OpMem :=
  let a := algOf x 0
  let k := rsaK a
  let modulus := if x.d.opcode = 0x58 && x.d.mode = 1 then m.input.take (freeB x)
    else if x.d.opcode < 0x58 && decide (0x50 ≤ a ∧ a < 0x60) then
      (if a % 2 = 0 then toBe k ((rsaPriv k m.key).p * (rsaPriv k m.key).q) else m.key.take k)
    else m.modulus
  { m with
    modulus, mont := (Config.regionFill 0 s.free).take (modulusCap - modulus.length)
    work := (Config.regionFill 1 s.free).take workCap, blinding := ((drawn s c).getD []).take blindingCap }

/-- An Arcade opcode's arithmetic begins: its source and its Fountain draw are in the operand memory (R270). -/
def arcStart (s : State) (c op : Nat) (fn : Option (Nat × Nat)) : State :=
  match ctxAt s c with
  | none => s
  | some x =>
    let fnOk := match fn with
      | none => true
      | some (mode, f) => x.d.mode == mode && arcFunc x.d == f
    if x.d.opcode ≠ op || !fnOk || x.phase ≠ .placed || decide (x.srcIn.length < srcNeed x) || x.stop.isSome
        || (needsFountain x.d && (drawn s c).isNone) then s
    else match x.eng with
      | some (.arcade n) =>
        let s := setAunit s n.val { aunit s n.val with mem := loadedMem s c x (aunit s n.val).mem }
        setCtx { s with free := s.free + 1 } c { x with phase := .running }
      | _ => s

def execPkSign (ctx : CtxNo) (s : State) : Res := .next (arcStart s ctx.val 0x50 none)
def execPkVerify (ctx : CtxNo) (s : State) : Res := .next (arcStart s ctx.val 0x51 none)
def execPkKeypair (ctx : CtxNo) (s : State) : Res := .next (arcStart s ctx.val 0x52 none)
def execPkAgree (ctx : CtxNo) (s : State) : Res := .next (arcStart s ctx.val 0x53 none)
def execKemEncap (ctx : CtxNo) (s : State) : Res := .next (arcStart s ctx.val 0x54 none)
def execKemDecap (ctx : CtxNo) (s : State) : Res := .next (arcStart s ctx.val 0x55 none)
def execPkEncrypt (ctx : CtxNo) (s : State) : Res := .next (arcStart s ctx.val 0x56 none)
def execPkDecrypt (ctx : CtxNo) (s : State) : Res := .next (arcStart s ctx.val 0x57 none)
def execModAdd (ctx : CtxNo) (s : State) : Res := .next (arcStart s ctx.val 0x58 (some (1, 0x01)))
def execModSub (ctx : CtxNo) (s : State) : Res := .next (arcStart s ctx.val 0x58 (some (1, 0x02)))
def execModMul (ctx : CtxNo) (s : State) : Res := .next (arcStart s ctx.val 0x58 (some (1, 0x03)))
def execModInv (ctx : CtxNo) (s : State) : Res := .next (arcStart s ctx.val 0x58 (some (1, 0x04)))
def execModExp (ctx : CtxNo) (s : State) : Res := .next (arcStart s ctx.val 0x58 (some (1, 0x05)))
def execPtAdd (ctx : CtxNo) (s : State) : Res := .next (arcStart s ctx.val 0x58 (some (2, 0x11)))
def execPtDbl (ctx : CtxNo) (s : State) : Res := .next (arcStart s ctx.val 0x58 (some (2, 0x12)))
def execPtMul (ctx : CtxNo) (s : State) : Res := .next (arcStart s ctx.val 0x58 (some (2, 0x13)))
def execPtMulG (ctx : CtxNo) (s : State) : Res := .next (arcStart s ctx.val 0x58 (some (2, 0x14)))
def execPtCheck (ctx : CtxNo) (s : State) : Res := .next (arcStart s ctx.val 0x58 (some (2, 0x15)))
def execCurveLoad (ctx : CtxNo) (s : State) : Res := .next (arcStart s ctx.val 0x58 (some (2, 0x16)))
def execCurveFree (ctx : CtxNo) (s : State) : Res := .next (arcStart s ctx.val 0x58 (some (2, 0x17)))
def execNtt (ctx : CtxNo) (s : State) : Res := .next (arcStart s ctx.val 0x58 (some (3, 0x21)))
def execIntt (ctx : CtxNo) (s : State) : Res := .next (arcStart s ctx.val 0x58 (some (3, 0x22)))
def execPmul (ctx : CtxNo) (s : State) : Res := .next (arcStart s ctx.val 0x58 (some (3, 0x23)))
def execPadd (ctx : CtxNo) (s : State) : Res := .next (arcStart s ctx.val 0x58 (some (3, 0x24)))
def execPsub (ctx : CtxNo) (s : State) : Res := .next (arcStart s ctx.val 0x58 (some (3, 0x25)))

/-! ## Release and zeroisation (R252, R263, R266, R268, R272, R273) -/

/-- The command in context c waits for the partner's confirmation of a commit, with an output that leaves only then (R460). -/
def arcWaits (s : State) (c : Nat) (op : SlotOp) (gens : List (Nat × Nat)) (outp : Bytes) (w : MirrorWait) : State :=
  match ctxAt s c with
  | none => s
  | some y => mirror (setCtx s c { y with mirWait := true, outp }) (opKind op) (opBody s op gens) w

/-- A released result whose commit the sequencer has still to make (R451): its output is checked as if it were written, and written once
the commit has come back. -/
def arcForward (s : State) (n c : Nat) (op : SlotOp) (out : Bytes) (f : CmdEnd) (hit : Option Hit) : State :=
  let r := putDst s c out hit
  match r.1 with
  | some (st, dt) => arcSettle r.2 n c { status := st, detail := dt, bytesDone := ((ctxAt r.2 c).map (·.wrote)).getD 0 }
  | none =>
    let gens := namedGens s c
    arcWaits (arcSettle s n c f) c op gens out (.commit (some c) op f)

/-- The commit of a released result whose output has been written, and how its command will end. -/
def arcCommit (s : State) (n c : Nat) (op : SlotOp) (f : CmdEnd) : State :=
  let gens := namedGens s c
  let s := applyOp s (some c) op
  let f := endAfter s op f
  let s := arcSettle s n c f
  if paired s then arcWaits s c op gens [] (.slot (some c) f) else copyCommit s op

/-- An invariant fails (R268): one fault, recorded, and the command ends as R266 states, unless a stop takes its place (R272). -/
def arcInvariant (s : State) (n c : Nat) (x : Ctx) : State :=
  let p := 0x20 + n
  let s := errSynd (countFault s p) p 0x10 0x20 (x.d.opcode * 256 + x.d.mode) 0
  arcSettle (setCtx (raiseInt s p 1) c { x with broken := true }) n c { status := 0x06 }

/-- An uncorrectable operand-memory error (R273). -/
def opmemError (s : State) (n off : Nat) : State :=
  let p := 0x20 + n
  raiseInt (errSynd (bump (countFault s p) (rk p Reg.ARC_OPMEM_ECC) 31 16 1) p 0x12 0x20 0 off) p 8

/-- The result is released: output first, then its commit. A slot write that an ISOLATED device refuses, or that waits for the
sequencer, lets no output leave before it (R458, R460). -/
def arcRelease (s : State) (n c : Nat) (x : Ctx) (o : ArcOut) (hit : Option Hit) : State :=
  let s := if x.d.dstSgl then s else setCtx s c { x with dsts := [{ addr := x.d.dst, len := o.out.length }] }
  let f : CmdEnd := { detail := b2n x.late, bytesDone := o.bytes }
  if o.op.isSome && s.xing.state == 5 then arcSettle s n c { status := 0x08, detail := 0x09 }
  else match paired s && !s.xing.seqr, o.op with
    | true, some op => arcForward s n c op o.out f hit
    | _, _ =>
      let r := putDst s c o.out hit
      match r.1 with
      | some (st, dt) => arcSettle r.2 n c { status := st, detail := dt, bytesDone := ((ctxAt r.2 c).map (·.wrote)).getD 0 }
      | none => match o.op with
        | none => arcSettle r.2 n c f
        | some op => arcCommit r.2 n c op f

/-- The operand memory's ECC as the arithmetic met it: corrections are counted, an uncorrectable error ends the command (R273). -/
def opmemSeen (s : State) (n : Nat) : OpEcc → State
  | .clean => s
  | .corrected k => bump s (rk (0x20 + n) Reg.ARC_OPMEM_ECC) 15 0 k.val
  | .uncorr off => opmemError s n off.val

/-- A unit finishes its arithmetic; what a fault flips in the result is given. -/
def arcResultRelease (s : State) (n : Nat) (err : Bytes) (ecc : OpEcc) (hit : Option Hit) : State :=
  match (aunit s n).ctx with
  | none => s
  | some c => match ctxAt s c with
    | none => s
    | some x =>
      if x.phase ≠ .running || (x.stop.isSome && writesSlot x.d.opcode)
          || (writesSlot x.d.opcode && slotWriteWaits s c x) then s
      else
        let s := opmemSeen s n ecc
        match ecc with
        | .uncorr _ => arcSettle s n c { status := 0x08, detail := 0x07 }
        | _ =>
          let m := (aunit s n).mem
          match arcResult x m with
          | .reject => arcSettle s n c { status := 0x06 }
          | .broken => arcInvariant s n c x
          | .res b =>
            let b := xorBytes b err
            let s := setAunit s n { aunit s n with mem := { m with result := b.take resultCap } }
            if !arcInv x m b then arcInvariant s n c x
            else match arcOut x m b with
              | none => arcSettle s n c { status := 0x06 }
              | some o => arcRelease s n c x o hit

def execArcResultRelease (n : ArcNo) (seen : ArcSeen) (hit : Option Hit) (s : State) : Res :=
  .next (arcResultRelease s n.val seen.err seen.ecc hit)

/-- How a settled command ends. -/
def settledEnd (x : Ctx) : CmdEnd :=
  match x.stop with
  | some st => { status := st.status, detail := st.detail }
  | none => { status := x.status, detail := x.detail, bytesDone := x.bytesDone, result := x.result, aux := x.aux }

/-- The zeroisation of a unit's operand memory ends: the completion of its command is written (R252, R271). -/
def arcZeroised (s : State) (n : Nat) : State :=
  let v := { aunit s n with mem := {} }
  match v.ctx with
  | none => setAunit s n { v with zero := false }
  | some c => match ctxAt s c with
    | none => s
    | some x =>
      if x.phase ≠ .zeroising then s
      else
        let f := settledEnd x
        let s := setAunit s n v
        if x.mirWait && x.stop.isNone then setCtx (aunitIdle s n) c { x with eng := none, unit := n }
        else finish (arcCount s n x f.status) c f

/-! ## Known-answer tests and the Curve Store (R263, R274, R279) -/

def arcKatDone (s : State) (n : Nat) (pass : Bool) : State :=
  let v := aunit s n
  if !v.kat || !domOn s (aunitDom n) then s
  else if pass then setAunit s n { v with kat := false, offline := false }
  else
    let p := 0x20 + n
    let s := setAunit s n { v with kat := false, offline := true }
    noEngineSweep (raiseInt (errSynd (countFault s p) p 0x11 0x20 0 0) p 6)

def arcRetest (s : State) (src : Src) (n : Nat) : State :=
  gate s src (0x20 + n) Reg.ARC_OFFLINE_CTRL fun s =>
    let v := aunit s n
    setAunit s n (if v.ctx.isSome then { v with retest := true } else { v with kat := true, mem := {} })

def arcForceOff (s : State) (src : Src) (n : Nat) (on : Bool) : State :=
  gate s src (0x20 + n) Reg.ARC_OFFLINE_CTRL fun s =>
    let s := setFld s (rk (0x20 + n) Reg.ARC_OFFLINE_CTRL) 0 0 (b2n on)
    let v := aunit s n
    if v.ctx.isSome then s else setAunit s n { v with forced := on }

def arcCurveFree (s : State) (src : Src) : State :=
  gateReg s src Reg.ARC_CURVE_FREE fun s => commitAlone s (.curve (fld s Reg.ARC_CURVE_SEL 5 0) none)

def execArcRetest (src : Src) (n : ArcNo) (s : State) : Res := .next (arcRetest s src n.val)
def execArcForceOff (src : Src) (n : ArcNo) (on : Bool) (s : State) : Res := .next (arcForceOff s src n.val on)
def execArcCurveFree (src : Src) (s : State) : Res := .next (arcCurveFree s src)

/-! ## The unit an internal operation uses (R276, R294, R358) -/

/-- The lowest-numbered powered unit that is not offline; one that runs its test counts. -/
def arcPick (s : State) : Option Nat :=
  (List.range 8).find? fun n => domUsable s (aunitDom n) && (!(aunit s n).offline || (aunit s n).kat) && !(aunit s n).forced
/-- That unit is idle. -/
def arcIdle (s : State) (n : Nat) : Bool :=
  let v := aunit s n
  v.ctx.isNone && !v.kat && !v.zero && v.internal.isNone

/-- A draw of an internal operation on a wire: what it does once the draw is here, and what while it waits (R294). -/
def withDraw (s : State) (wire who : Nat) (wait : State → State) (k : Bytes → State → State) : State :=
  match drawn s who with
  | some b => k b (fntForget s who)
  | none => wait (if s.fnt.draws.any (fun e => e.2 == who) then s else issueDraw s wire who)

/-- An internal operation that only computes: with no unit, while it waits for its unit, and on it. -/
def withArc (s : State) (noUnit : State) (wait : State → State) (k : State → State) : State :=
  match arcPick s with
  | none => noUnit
  | some n => if arcIdle s n then k s else wait s

/-- An internal operation ends where it stands, and the unit it holds is free. -/
def freeInternal (s : State) (who : Nat) : State :=
  match (List.range 8).find? fun n => (aunit s n).internal == some who with
  | some n => setAunit s n { aunit s n with internal := none }
  | none => s

/-- An internal operation that draws 8 KiB over its unit's wire, and holds the unit while it waits for them (R270, R294). -/
def withArcDraw (s : State) (who : Nat) (noUnit : State) (wait : State → State) (k : Bytes → State → State) : State :=
  let done (n : Nat) (s : State) : State := setAunit s n { aunit s n with internal := none }
  let on (n : Nat) (s : State) : State := withDraw s (9 + n) who wait fun b s => k b (done n s)
  match (List.range 8).find? fun n => (aunit s n).internal == some who with
  | some n => on n s
  | none => match arcPick s with
    | none => noUnit
    | some n => if arcIdle s n then on n (setAunit s n { aunit s n with internal := some who }) else wait s

end Sys2Proof.Machine
end

