-- ==== Sys2Proof/Machine/Clock.lean ====
section
/-! DEFINITION. The Clocktower: the tick and its epochs, slewing, markers and lock, loads, SYNC_OUT, and the release of held
commands as ticks pass (chapter 9, R100). -/
namespace Sys2Proof.Machine
open Sys2Proof

/-- The state with the Clocktower replaced. -/
def setClk (s : State) (c : Clk) : State := { s with clk := c }

/-! ## Configuration in force -/

/-- k as a written value acts (R307). -/
def actK (k : Nat) : Nat := max 20 (min 40 k)
/-- SRC as a written value acts. -/
def actSrc (n : Nat) : Nat := if n = 3 then 0 else n
def clkSrc (s : State) : Nat := actSrc (fld s Reg.CT_CFG 9 8)
/-- The epoch length L. -/
def epochLen (s : State) : Nat := 2 ^ epochExp s
/-- The signed DELAY. -/
def syncDelay (s : State) : Int := sext 16 (fld s Reg.CT_SYNC_CFG 15 0)

/-- LOCKED is set on entering LOCKED, LOCK_LOST on leaving it (R316). -/
def setLock (s : State) (n : Nat) : State :=
  let old := s.clk.lock
  let s := setClk s { s.clk with lock := n }
  if n = 2 && old != 2 then raiseInt s 4 2 else if old = 2 && n != 2 then raiseInt s 4 4 else s

/-! ## The tick passes (R305, R306, R311, R313, R316, R447, R536) -/

/-- SYNC_OUT falls once its tick is reached. -/
def syncOutFall (s : State) : State :=
  match s.clk.syncOut with
  | some t => if t ≤ s.tick then emit (setClk s { s.clk with syncOut := none }) (.pin "SYNC_OUT" 0) else s
  | none => s

/-- SYNC_OUT rises at a boundary tick, when driven. -/
def syncOutRise (s : State) (b : Nat) : State :=
  if rbit s Reg.CT_CFG 12 && decide (s.tick < b + 8) then
    emit (setClk s { s.clk with syncOut := some (b + 8) }) (.pin "SYNC_OUT" 1)
  else s

/-- HOLDOVER at the boundary that ends the last of TIMEOUT whole epochs without an accepted marker (R316). -/
def holdoverCheck (s : State) : State :=
  let n := max 1 (fld s Reg.CT_SYNC_CFG 27 24)
  if (s.clk.lock = 1 || s.clk.lock = 2) && decide (s.clk.base + n + 1 ≤ epochOf s s.tick) then setLock s 3 else s

/-- The tick has entered a new epoch. -/
def enterEpoch (s : State) : State :=
  let e := epochOf s s.tick
  let s := syncOutRise (raiseInt s 4 1) (e * epochLen s)
  let s := holdoverCheck s
  if clkSrc s != 2 then sendFrame s 6 (toLe 8 e) else s

/-- The tick moves on to t by way of the next n epoch boundaries, each entered in turn. -/
def epochSteps : Nat → State → Nat → State
  | 0, s, t => syncOutFall { s with tick := t }
  | n + 1, s, t =>
    let b := (epochOf s s.tick + 1) * epochLen s
    epochSteps n (enterEpoch (syncOutFall { s with tick := b })) t
def passTick (s : State) (t : Nat) : State := epochSteps (epochOf s t - epochOf s s.tick) s t

/-- The tick becomes t, passing over those between, and what its new value brings follows. -/
def setTick (s : State) (t : Nat) : State :=
  let old := s.tick
  let s := syncOutFall { s with tick := t }
  if epochOf s old = epochOf s t then s else enterEpoch s

/-- Held commands are fixed to a launch tick each, then tested against their epochs, then the fences that lift are seen to. -/
def releaseHeld (s : State) (l : List (Nat × Ctx)) (tick : Ctx → Nat) (late : Ctx → Bool) : State :=
  let s := l.foldl (fun s e => setLaunch s e.1 (tick e.2) (late e.2) true) s
  fencesLift (l.foldl (fun s e => testEpoch s e.1) s)

/-- Held commands whose fences allow it, with a launch tick after the current one and up to t. -/
def heldUpTo (s : State) (t : Nat) : List (Nat × Ctx) :=
  heldWhere s fun c x => decide (s.tick < x.launch) && decide (x.launch ≤ t) && fenceOk s c x

/-- The tick moves on to t, by way of every launch tick on the way, whose held commands are released on time (R100, R309, R313). -/
def tickSteps (t : Nat) : Nat → State → State
  | 0, s => passTick s t
  | n + 1, s => match heldUpTo s t with
    | [] => passTick s t
    | e :: _ =>
      let l := (heldUpTo s t).filter fun f => f.2.launch == e.2.launch
      tickSteps t n (releaseHeld (passTick s e.2.launch) l (·.launch) fun _ => false)

/-- Time passes to tick t; a rule command that is pending has its commit first, within 10 ns of its write (R405). -/
def tickTo (s : State) (t : Nat) : State :=
  let s := ruleCommit s
  if t ≤ s.tick then s else tickSteps t (s.quay.ctxs.length + 1) s

/-- The slew after the tick has advanced by n, with the steps it took on the way (R312), and 1 when the last of them is a hurry that
passes over the n-th tick (R313). While the state is FREE no correction is made (R316). -/
def slewAfter (c : Clk) (n : Nat) : Clk × Nat :=
  let lead := 15 - c.gap
  if c.corr = 0 || c.lock = 0 || n ≤ lead then ({ c with gap := min 15 (c.gap + n) }, 0)
  else
    let rest := n - lead
    if 0 < c.corr then
      let due := (rest + 16) / 17
      let k := min c.corr.toNat due
      ({ c with corr := c.corr - k, gap := min 15 (rest - 17 * (k - 1) - 2) }, if k = due && rest % 17 = 1 then 1 else 0)
    else
      let k := min (-c.corr).toNat ((rest + 14) / 15)
      ({ c with corr := c.corr + k, gap := min 15 (rest - 15 * (k - 1)) }, 0)

/-- Time passes until the tick reaches t, or the tick after it in the cycle of a hurry that passes over t. -/
def passTo (s : State) (t : Nat) : State :=
  if t ≤ s.tick then s
  else
    let r := slewAfter s.clk (t - s.tick)
    tickTo (setClk s r.1) (t + r.2)

/-- CLK_TICK runs and the Clocktower is on: the boot sequence has reached the POWER stage. -/
def ticking (s : State) : Bool := domOn s 0

/-- A slew step that is due: a hold repeats the tick, a hurry passes over one (R312). -/
def slewNow (s : State) : State :=
  if 0 < s.clk.corr then tickTo (setClk s { s.clk with corr := s.clk.corr - 1, gap := 0 }) (s.tick + 2)
  else
    let s := ruleCommit s
    setClk s { s.clk with corr := s.clk.corr + 1, gap := 0 }

/-- One CLK_TICK cycle. -/
def oneTick (s : State) : State :=
  if !ticking s then s
  else if s.clk.corr ≠ 0 && s.clk.lock ≠ 0 && decide (15 ≤ s.clk.gap) then slewNow s
  else tickTo (setClk s { s.clk with gap := min 15 (s.clk.gap + 1) }) (s.tick + 1)

/-- What an empty command queue leaves to happen: one CLK_TICK cycle, in which a running assignment reaches up to 8 slots (R549). -/
def idleCycle (s : State) : State := assignRun 8 (oneTick s)

/-- Time passes to the next step of a pending correction. -/
def slewStep (s : State) : State :=
  if !ticking s || s.clk.corr = 0 || s.clk.lock = 0 then s
  else slewNow (tickTo (setClk s { s.clk with gap := 15 }) (s.tick + (15 - s.clk.gap)))

/-- Time passes to the next epoch boundary. -/
def epochBoundary (s : State) : State :=
  if ticking s then passTo s ((epochOf s s.tick + 1) * epochLen s) else s

/-- Time passes to the earliest held launch tick, whose commands are released; those a fence holds
are passed over (R100, R117). -/
def convoyRelease (s : State) : State :=
  if !ticking s then s
  else
    match heldWhere s (fun c x => decide (s.tick < x.launch) && fenceOk s c x) with
    | [] => s
    | e :: _ => passTo s e.2.launch

/-- Time passes to the boundary at which the last of TIMEOUT epochs ends (R316). -/
def holdoverTimeout (s : State) : State :=
  if ticking s && (s.clk.lock = 1 || s.clk.lock = 2) then
    passTo s ((s.clk.base + max 1 (fld s Reg.CT_SYNC_CFG 27 24) + 1) * epochLen s)
  else s

/-- Time passes to the fall of SYNC_OUT. -/
def syncOutDone (s : State) : State :=
  match s.clk.syncOut with
  | some t => if ticking s then syncOutFall (passTo s t) else s
  | none => s

/-- Time passes to a core's tick compare value (R373). -/
def tickCompare (s : State) (c : Nat) : State := if ticking s then passTo s (coreAt s c).r.cmp else s

def execEpochBoundary (s : State) : Res := .next (epochBoundary s)
def execSlewStep (s : State) : Res := .next (slewStep s)
def execConvoyRelease (s : State) : Res := .next (convoyRelease s)
def execHoldoverTimeout (s : State) : Res := .next (holdoverTimeout s)
def execSyncOutFall (s : State) : Res := .next (syncOutDone s)
def execTickCompareMatch (c : CoreNo) (s : State) : Res := .next (tickCompare s c.val)

/-! ## Loads (R317, R318) -/

/-- The result of a load, and what its end sets; a load issued by ACCEPT ends with it (R466). -/
def loadEnds (s : State) (result : Nat) (atSync : Bool) : State :=
  let s := setClk (setFld s Reg.CT_CMD 7 4 result) { s.clk with load := none }
  let s := if result = 0 then raiseInt s 4 16 else if atSync then raiseInt s 4 64 else s
  if atSync && s.fleet.tickPend then
    let s := { s with fleet := { s.fleet with tickPend := false, tickFail := result != 0 } }
    if result = 0 then s else raiseInt s 0x49 4
  else s

/-- The tick is loaded with t1, passing over the ticks between; the value decides which held commands are late (R318). -/
def loadTick (s : State) (value t1 : Nat) : State :=
  let late (x : Ctx) : Bool := decide (x.launch < value) && decide (x.launch < t1)
  releaseHeld (setTick s t1) (heldWhere s fun c x => decide (x.launch ≤ t1) && fenceOk s c x)
    (fun x => if late x then t1 else x.launch) late

/-- The value of CT_LOAD. -/
def loadValue (s : State) : Nat := (reg s Reg.CT_LOAD_LO).toNat + 2 ^ 32 * (reg s Reg.CT_LOAD_HI).toNat

/-- A write of CT_CMD with a value: recorded whole and ignored while a load is pending (R319). -/
def ctCmd (s : State) (src : Src) (v : Nat) (k : State → State) : State :=
  gateReg s src Reg.CT_CMD fun s =>
    if s.clk.load.isSome then errSynd s 4 0x11 (masterOf src) 0 v else k s

def loadNow (s : State) (src : Src) (w : Nat) : State :=
  ctCmd s src w fun s =>
    let v := loadValue s
    if v ≤ s.tick then loadEnds s 1 false else loadEnds (loadTick s v v) 0 false

/-- LOAD_AT_SYNC with a value: NO_SOURCE first, then ALIGN. -/
def loadAtSyncOf (s : State) (v : Nat) : State :=
  if clkSrc s = 0 then loadEnds s 3 true
  else if v % epochLen s ≠ 0 then loadEnds s 2 true
  else setClk (setFld s Reg.CT_CMD 7 4 0) { s.clk with load := some v }

def loadAtSync (s : State) (src : Src) (w : Nat) : State := ctCmd s src w fun s => loadAtSyncOf s (loadValue s)

def cancelLoad (s : State) (src : Src) : State :=
  gateReg s src Reg.CT_CMD fun s =>
    if s.clk.load.isSome then loadEnds s 4 true else setFld s Reg.CT_CMD 7 4 5

def execLoadNow (src : Src) (s : State) : Res := .next (loadNow s src 1)
def execLoadAtSync (src : Src) (s : State) : Res := .next (loadAtSync s src 2)
def execCancelLoad (src : Src) (s : State) : Res := .next (cancelLoad s src)

/-! ## Markers (R314 to R317, R447) -/

/-- A signed number saturated to 32 bits. -/
def sat32 (v : Int) : Word := BitVec.ofInt 32 (max (-(2 ^ 31)) (min (2 ^ 31 - 1) v))

/-- The outlier limit in ticks. -/
def outlierLimit (s : State) : Nat :=
  let n := fld s Reg.CT_SYNC_CFG 31 30
  if n = 0 then epochLen s / 8 else if n = 1 then epochLen s / 4 else epochLen s / 2

/-- The corrected arrival of a marker: half the round trip of a Crossing marker, the synchroniser's 3 ticks and DELAY
taken off. -/
def arrival (s : State) (fromXing : Bool) : Int :=
  (s.tick : Int) - (if fromXing then (fld s Reg.XING_RTT 15 0 + 8) / 16 else 0 : Nat) - 3 - syncDelay s

/-- The marker of a pending LOAD_AT_SYNC (R317). -/
def loadMarker (s : State) (v : Nat) : State :=
  let t1 : Int := (v : Int) + syncDelay s + 3
  if t1 ≤ (s.tick : Int) then loadEnds s 1 true
  else
    let s := loadTick s v t1.toNat
    let e := v / epochLen s
    let s := setClk s { s.clk with corr := 0, base := e, marked := keepLast 4 (s.clk.marked ++ [e]), lastMark := some e, lastE := 0, lastBeyond := false }
    loadEnds (setLock s 2) 0 true

/-- A counted marker with offset e, belonging to epoch n (R315, R316). -/
def countMarker (s : State) (n : Nat) (e : Int) : State :=
  let c := s.clk
  let s := setReg s Reg.CT_SYNC_ERR (sat32 e)
  let beyond := decide (outlierLimit s < e.natAbs)
  let follow := c.lastBeyond && c.lastMark == some (n - 1) && decide (1 ≤ n) && decide ((e - c.lastE).natAbs ≤ 16)
  let s := setClk s { s.clk with marked := keepLast 4 (s.clk.marked ++ [n]), lastMark := some n, lastE := e, lastBeyond := beyond }
  if beyond && !follow then countFault (raiseInt (bump s Reg.CT_SYNC_CNT 23 16 1) 4 8) 4
  else
    let lim : Int := (epochLen s / 16 : Nat)
    let s := bump s Reg.CT_SYNC_CNT 15 0 1
    let s := setClk s { s.clk with corr := max (-lim) (min lim (-e)), base := n }
    setLock s (if e.natAbs ≤ fld s Reg.CT_SYNC_CFG 23 16 then 2 else 1)

/-- A marker from the SYNC pin or from the twin partner. Only the first of an epoch counts, also when a new DELAY or another source has
a later one belong to an earlier epoch (R314). -/
def syncMarker (s : State) (fromXing : Bool) : State :=
  if !ticking s || clkSrc s ≠ (if fromXing then 2 else 1) then s
  else match s.clk.load with
    | some v => loadMarker s v
    | none =>
      let a := arrival s fromXing
      let l : Int := (epochLen s : Nat)
      let n := (a + l / 2) / l
      let e := a - n * l
      if s.clk.marked.contains n.toNat then raiseInt (bump s Reg.CT_SYNC_CNT 31 24 1) 4 32
      else countMarker s n.toNat e

def execSyncMarker (fromXing : Bool) (s : State) : Res := .next (syncMarker s fromXing)

/-! ## CT_CFG and CT_TICK_LO (R307, R316) -/

/-- Commands held for a launch tick (RBT_HELD). -/
def heldCount (s : State) : Nat := (s.quay.ctxs.filter fun e => decide (e.2.phase = .held)).length

/-- A write of CT_CFG. An accepted K renumbers every epoch (R307); the epochs of HOLDOVER are counted from the later of the current
epoch and the last accepted marker's (R316). -/
def ctCfgWrite (s : State) (src : Src) (v : Word) : State :=
  gateReg s src Reg.CT_CFG fun s =>
    let k := actK (wbits v 5 0)
    let ok := s.clk.lock = 0 && s.clk.load.isNone && heldCount s = 0
    let old := clkSrc s
    let k0 := epochExp s
    let kw := k != epochExp s
    let k' := if kw && !ok then epochExp s else k
    let s := if kw && !ok then errSynd s 4 0x10 (masterOf src) 0 v.toNat else s
    let s := setReg s Reg.CT_CFG
      (BitVec.ofNat 32 (wbits v 13 12 * 2 ^ 12 + wbits v 9 8 * 2 ^ 8 + k'))
    let scale (n : Nat) : Nat := n * 2 ^ k0 / 2 ^ k'
    let s := setClk s { s.clk with base := scale s.clk.base, marked := s.clk.marked.map scale, lastMark := s.clk.lastMark.map scale }
    if clkSrc s = old then s
    else setLock (setClk s { s.clk with base := max s.clk.base (epochOf s s.tick) }) (if clkSrc s = 0 then 0 else 1)

def execCtCfgWrite (src : Src) (v : BitVec 32) (s : State) : Res := .next (ctCfgWrite s src v)

/-- A read of CT_TICK_LO latches the tick and its epoch. -/
def tickLoRead (s : State) (src : Src) : State :=
  gateRead s src Reg.CT_TICK_LO fun s =>
    let e := epochOf s s.tick
    let s := setReg s Reg.CT_EPOCH_LO (BitVec.ofNat 32 e)
    let s := setReg s Reg.CT_EPOCH_HI (BitVec.ofNat 32 (e / 2 ^ 32 % 2 ^ 12))
    readLatch s src Reg.CT_TICK_HI s.tick

def execCtTickLoRead (src : Src) (s : State) : Res := .next (tickLoRead s src)

end Sys2Proof.Machine
end

