-- ==== Sys2Proof/Machine/Crossing.lean ====
section
/-! DEFINITION. The Crossing: pairing, sessions and frames, the join, mirroring and the loss of the partner (R443 to R460,
R467, R468). -/
namespace Sys2Proof.Machine
open Sys2Proof

/-- The state with the Crossing replaced. -/
def setXing (s : State) (x : Xing) : State := { s with xing := x }

/-! ## Byte buffers held in registers, P-256 in the Mews -/

/-- n bytes at an offset of a buffer of registers, four bytes to a register, low byte first. -/
def bufGet (s : State) (base off n : Nat) : Bytes :=
  (List.range n).map fun i => BitVec.ofNat 8 (wbits (reg s (base + (off + i) / 4 * 4)) 31 (8 * ((off + i) % 4)))

/-- Bytes put into such a buffer. -/
def bufPut (s : State) (base off : Nat) (b : Bytes) : State :=
  b.zipIdx.foldl (fun s e =>
    let k := 8 * ((off + e.2) % 4)
    setFld s (base + (off + e.2) / 4 * 4) (k + 7) k e.1.toNat) s

/-- A new P-256 key pair from Fountain bytes: the scalar and the public key x ∥ y. -/
def newP256 (rnd : Bytes) : Nat × Bytes :=
  let d := (newPrivate 0x40 rnd).getD []
  (ecPriv d, (publicOf 0x40 d).getD [])

/-- An ECDSA P-256 signature r ∥ s over SHA-256 of a message verifies under x ∥ y. -/
def p256Signed (key msg sig : Bytes) : Bool :=
  ecdsaOk p256 (ptAt p256 key 0) (hashOf 1 32 msg) (be (sl sig 0 32)) (be (sl sig 32 32))

/-- The x coordinate of an ECDH on P-256, none for a public key that is no point of the curve. -/
def p256Agree (d : Nat) (pub : Bytes) : Option Bytes :=
  let q := ptAt p256 pub 0
  if ptOk p256 q then (ptMul p256 d (some q)).map fun r => toBe 32 r.1 else none

/-- The lifecycle states in which pairing and fleet commands are allowed and the Crossing links (R448, R450, R462). -/
def twinState (s : State) : Bool := s.life.state == 2 || s.life.state == 3 || s.life.state == 4

/-! ## Pairing (R448 to R450, R468) -/

/-- LC_SERIAL as a number. -/
def ownSerial : Nat := Config.serial.toNat

/-- XING_CMD.BUSY. -/
def xingBusy (s : State) : Bool := s.xing.held.isSome || s.xing.stmt.isSome

/-- A command of XING_CMD ends: its RESULT, XING_AUTH cleared, CMD_DONE. -/
def xingEnd (s : State) (r : Nat) : State :=
  let s := setXing s { s.xing with held := none, stmt := none }
  let s := (List.range 60).foldl (fun s i => setReg s (Reg.XING_AUTH + 4 * i) 0) s
  raiseInt (setFld s Reg.XING_CMD 7 4 r) 0x48 16

/-- A write of XING_CMD with a value: recorded whole and ignored while BUSY (R467). -/
def xingCmd (s : State) (src : Src) (v : Nat) (k : State → State) : State :=
  gateReg s src Reg.XING_CMD fun s =>
    if xingBusy s then errSynd s 0x48 0x11 (masterOf src) 0 v else k s

/-- PREPARE (R448), which waits for its Arcade unit and the Fountain (R276, R294). -/
def prepareRun (s : State) : State :=
  if !twinState s then xingEnd s 0x1
  else withArcDraw s whoXing (xingEnd s 0x4) (fun s => setXing s { s.xing with held := some .prepare }) fun b s =>
    let r := newP256 b
    xingEnd (bufPut (setXing s { s.xing with eph := some r.1 }) Reg.XING_EPUB 0 r.2) 0x0

/-- A COMMIT ends: the ephemeral private key is zeroised whatever the RESULT. -/
def commitEnd (s : State) (r : Nat) : State := xingEnd (setXing s { s.xing with eph := none }) r

/-- The peer has presented its serial: the root, the confirmations, which cross the link, and the records (R449). -/
def commitPeer (s : State) (auth : Bytes) (roleB : Bool) (fails : Nat) (p : PeerHello) : State :=
  let other := be (sl auth (if roleB then 0 else 8) 8)
  if p.serial.toNat ≠ other then s
  else match p256Agree ((s.xing.eph).getD 0) (sl auth (if roleB then 0x20 else 0x60) 64) with
    | none => commitEnd s 0x2
    | some z =>
      let root := kdf 0x11 z [0x70, 0x61, 0x69, 0x72] (auth.take 176) 256
      let s := sendClear s 0x22 (Config.keyConfirm root roleB)
      if p.confirm ≠ Config.keyConfirm root !roleB then commitEnd s 0x2
      else
        let s := (List.range (min 3 fails)).foldl (fun s _ => countFault s 0x48) s
        if 3 ≤ fails then commitEnd s 0x5
        else
          let s := { s with
            bak := { s.bak with pairRoot := some root }
            fer := { s.fer with pairB := roleB, peerSerial := other, pairId := be (sl auth 0x18 8)
                                pairCnt := (s.fer.pairCnt + 1) % 2 ^ 32 } }
          commitEnd (if s.xing.state = 0 then setXing s { s.xing with state := 1 } else s) 0x0

/-- COMMIT up to the wait for the peer (R449); its ECDH's blinding values are drawn by its unit (R294). -/
def commitRun (s : State) (peer : Option PeerHello) (fails : Nat) : State :=
  let a := bufGet s Reg.XING_AUTH 0 240
  let isA := be (sl a 0 8) == ownSerial
  let isB := be (sl a 8 8) == ownSerial
  let epub := bufGet s Reg.XING_EPUB 0 64
  if !twinState s then commitEnd s 0x1
  else if !isA && !isB then commitEnd s 0x3
  else
    let roleB := !isA
    if be (sl a (if roleB then 0x14 else 0x10) 4) ≠ s.fer.pairCnt || s.xing.eph.isNone
        || sl a (if roleB then 0x60 else 0x20) 64 != epub then commitEnd s 0x3
    else withArcDraw s whoXing (commitEnd s 0x4) (fun s => setXing s { s.xing with held := some (.commit peer fails) }) fun _ s =>
      if !p256Signed s.fer.integrator (a.take 176) (sl a 176 64) then commitEnd s 0x2
      else
      let s := sendClear (setXing s { s.xing with held := none, stmt := some (a, roleB, fails) }) 0x21 (toBe 8 ownSerial)
      match peer with
      | none => s
      | some p => commitPeer s a roleB fails p

/-- Ten seconds pass without a matching peer. -/
def commitTimeout (s : State) : State := if s.xing.stmt.isSome then commitEnd s 0x6 else s

/-! ## Frame bodies (R453, R456) -/

/-- A Ward entry's frame: K_W, which the entry holds wrapped under the fleet root, wrapped under the mirror key (R20, R464). -/
def fleetRoot (s : State) : Bytes := (s.bak.fleetRoot).getD []
def wardSecret (s : State) (w : WardEnt) : Bytes := (unwrapKey 9 (fleetRoot s) w.key).getD []
def wardBody (s : State) (n : Nat) (e : Option WardEnt) : Bytes :=
  toLe 2 n ++ match e with
    | some w => toLe 8 w.serial ++ toLe 4 w.seq ++ wrapKey 9 (mirrorKey s) (wardSecret s w)
    | none => []

/-- A role's frame: for PRIMARY with the record and the window. -/
def roleBody (q : Nat) (primary : Bool) (w : Tbl Word) (win : List (Nat × Bytes)) : Bytes :=
  if primary then toLe 1 1 ++ recordBody q w ++ cat (win.map fun e => toLe 8 e.1 ++ e.2) else toLe 1 0 ++ toLe 4 q

/-! ## Outstanding mirrored items (R453, R457) -/

/-- A fleet command ends: RESULT, CMD_DONE, REJECT when it is not OK (R469). -/
def fleetEnd (s : State) (r : Nat) : State :=
  let s := { s with fleet := { s.fleet with held := none } }
  raiseInt (setFld s Reg.FLEET_CMD 7 4 r) 0x49 (if r = 0 then 1 else 3)

/-- A Ward entry is written or emptied; and the fleet record is erased, the role NONE. -/
def setWard (s : State) (n : Nat) (e : Option WardEnt) : State :=
  { s with fer := { s.fer with wards := match e with
    | some w => tput s.fer.wards n w
    | none => tdel s.fer.wards n } }
def dissolved (s : State) : State :=
  { s with
    bak := { s.bak with fleetRoot := none }
    fer := { s.fer with fleetRole := 0, wards := [], voucher := [], lastSeq := 0 } }

/-- The partner has confirmed an item, and no overwrite of the Key Table runs. -/
def settleNow (s : State) : MirrorWait → State
  | .finish c f => finishNow s c f
  | .slot none _ => s
  | .slot (some c) f => commitSettle s c f
  | .commit c op f => commitBack s c op f
  | .rsv slot blk d => rsvConfirmed s slot blk d
  | .qcmd r => qcmdEnds s r
  | .fleet op r => fleetEnd (match op with
    | some o => applyOp s none o
    | none => s) r
  | .ward n e => fleetEnd (setWard s n e) 0x0
  | .dissolve => fleetEnd (dissolved s) 0x0
  | .cust op _ => match op with
    | some o => applyOp s none o
    | none => s
  | .assign => match s.mews.assign with
    | none => s
    | some a => assignRun 1 { s with mews := { s.mews with assign := some { a with fwd := false, peer := false } } }
  | .record => s

/-- An item whose confirmation makes a commit here. -/
def commitsHere : MirrorWait → Bool
  | .commit _ _ _ => true
  | .fleet op _ => op.isSome
  | .cust op _ => op.isSome
  | _ => false

/-- A change of the Key Table waits for ZEROISING to fall (R196). -/
def holdOp (s : State) (h : HeldOp) : State := { s with mews := { s.mews with heldOps := s.mews.heldOps ++ [h] } }

/-- The partner has confirmed an item. -/
def settle (s : State) (w : MirrorWait) : State :=
  if s.mews.zeroising && commitsHere w then holdOp s (.back w) else settleNow s w

/-- The link is lost before an item is confirmed: a forwarded commit ends with ABORTED, everything else goes on. DESIGN CHOICE: a fleet
command whose change was forwarded then ends with RESULT STATE and nothing changed; on a device that becomes ISOLATED a forwarded
CUST_INSTALL ends with RESULT NOT_ALLOWED and the secret held before, a forwarded MEWS_ASSIGN_CMD ends with RESULT 0x1 and nothing
changed, and a forwarded loss of R197 still takes its key; on one that becomes SOLO these are made here. -/
def forsake (s : State) (w : MirrorWait) : State :=
  let isolated : Bool := s.xing.state = 5
  match w with
  | .commit (some c) _ _ => commitSettle s c { status := 0x08, detail := 0x09 }
  | .fleet (some _) _ => fleetEnd s 0x1
  | .ward _ _ => fleetEnd s 0x1
  | .dissolve => fleetEnd s 0x1
  | .cust (some o) old =>
    if isolated then
      { s with bak := { s.bak with cust := old }, life := { s.life with op := s.life.op.map fun p => { p with result := 0x1 } } }
    else settle s (.cust (some o) old)
  | .assign => match s.mews.assign with
    | none => s
    | some a => if isolated && a.fwd then assignEnd (setFld s Reg.MEWS_ASSIGN_CMD 27 24 1) else settle s .assign
  | w => settle s w

/-- The n-th outstanding item is confirmed. -/
def mirrorConfirm (s : State) (n : Nat) : State :=
  match s.xing.mirror[n]? with
  | none => s
  | some i => settle (setXing s { s.xing with mirror := s.xing.mirror.eraseIdx n }) i.wait

/-- Every outstanding item is forsaken. -/
def flushMirror (s : State) : State :=
  let l := s.xing.mirror
  l.foldl (fun s i => forsake s i.wait) (setXing s { s.xing with mirror := [] })

/-! ## Losing the partner (R457 to R459) -/

/-- A queue becomes LOCAL. -/
def localQueue (s : State) (q : Nat) : State := setQueue s q { queueAt s q with role := 0 }

/-- The queues of a role. -/
def roleQueues (s : State) (r : Nat) : List Nat := (s.quay.queues.filter fun e => e.2.role == r).map (·.1)

/-- The device becomes SOLO and the sequencer: PRIMARY queues run on as LOCAL, STANDBY queues still change their role, and commands that
a join held go on. -/
def goSolo (s : State) : State :=
  let failing := roleQueues s 2
  let s := setXing s { s.xing with state := 4, seqr := true, deciding := false, failing }
  resumeHeld ((roleQueues s 1).foldl localQueue (flushMirror s))

/-- The device becomes ISOLATED: PRIMARY queues are aborted, every queue becomes LOCAL. -/
def goIsolated (s : State) : State :=
  let s := flushMirror (setXing s { s.xing with state := 5, deciding := false })
  let s := (roleQueues s 1).foldl (fun s q => localQueue (qcmdAbort s q).2 q) s
  resumeHeld ((roleQueues s 2).foldl localQueue s)

/-- The link goes down, lost or cut. Commits that reached a joiner before its tables did are dropped with them. The items a partner has
not confirmed wait for its decision on XALIVE_IN (R457). -/
def linkLost (s : State) : State :=
  if !s.xing.link then s
  else
    let joined := s.xing.state == 2 || s.xing.state == 3
    let s := if s.xing.state = 2 then { s with mews := { s.mews with heldOps := [] } } else s
    let s := raiseInt (fntForget (setXing s { s.xing with link := false, sess := none, upWait := none }) whoLink) 0x48 2
    if !joined then s
    else if s.xing.seqr then goSolo s
    else setXing s { s.xing with deciding := true }

/-- The non-sequencer decides on XALIVE_IN. -/
def partnerDecision (s : State) (stopped : Bool) : State :=
  if !s.xing.deciding then s
  else
    let s := setXing s { s.xing with aliveIn := !stopped }
    if stopped then goSolo s else goIsolated s

/-- The link, if it is up, is cut with the partner alive (LEAVE, a completed transition). -/
def cutLink (s : State) : State :=
  let s := linkLost s
  if s.xing.deciding then partnerDecision s false else s

/-- The last STANDBY queue changes its role. -/
def failover (s : State) : State :=
  if s.xing.failing.isEmpty then s
  else
    let l := s.xing.failing
    raiseInt (l.foldl localQueue (setXing s { s.xing with failing := [] })) 0x48 4

/-- LEAVE: a SOLO device gives up its role and is DOWN, an ISOLATED one stays ISOLATED (R458, R459); either joins at the next
link-up. -/
def leaveRun (s : State) : State :=
  if s.xing.state = 0 then xingEnd s 0x1
  else if s.xing.state = 4 || s.xing.state = 5 then
    let state := if s.xing.state = 4 then 1 else 5
    xingEnd (setXing s { s.xing with state, seqr := false, left := true, joinErr := 0 }) 0x0
  else if s.xing.state = 3 then xingEnd (cutLink s) 0x0
  else xingEnd s 0x0

/-- TAKEOVER. -/
def takeoverRun (s : State) : State :=
  if s.xing.state = 5 then xingEnd (setXing s { s.xing with state := 4, seqr := true }) 0x0 else xingEnd s 0x1

/-- The pairing root is gone: the Crossing does not link (R450). -/
def unpairLink (s : State) : State :=
  let up := s.xing.link
  let s := { s with bak := { s.bak with pairRoot := none } }
  let s := flushMirror (setXing s { s.xing with state := 0 })
  let s := (roleQueues s 1 ++ roleQueues s 2).foldl localQueue s
  let s := setXing s { s.xing with
    state := 0, seqr := false, link := false, sess := none, upWait := none, deciding := false, failing := [], joinErr := 0 }
  if up then raiseInt s 0x48 2 else s

/-- UNPAIR. -/
def unpairRun (s : State) : State := xingEnd (unpairLink s) 0x0

def execPrepare (src : Src) (s : State) : Res := .next (xingCmd s src 1 prepareRun)
def execCommit (src : Src) (peer : Option PeerHello) (fails : Nat) (s : State) : Res :=
  .next (xingCmd s src 2 fun s => commitRun s peer fails)
def execCommitPeerTimeout (s : State) : Res := .next (commitTimeout s)
def execLeave (src : Src) (s : State) : Res := .next (xingCmd s src 3 leaveRun)
def execTakeover (src : Src) (s : State) : Res := .next (xingCmd s src 4 takeoverRun)
def execUnpair (src : Src) (s : State) : Res := .next (xingCmd s src 5 unpairRun)
def execMirrorConfirm (n : Nat) (s : State) : Res := .next (mirrorConfirm s n)
def execXingLinkLost (s : State) : Res := .next (linkLost s)
def execPartnerDecision (stopped : Bool) (s : State) : Res := .next (partnerDecision s stopped)
def execFailover (s : State) : Res := .next (failover s)

/-! ## Link-up, session and join (R443, R444, R451, R452) -/

/-- The configuration a join compares: CT_CFG.K, LANE_NONCE_CFG.DEV, COMP_CTRL. -/
def joinConfigOk (s : State) (p : PeerInfo) : Bool :=
  p.k == epochExp s && p.dev == fld s Reg.LANE_NONCE_CFG 16 0 && p.comp == reg s Reg.COMP_CTRL

/-- Which partner is the sequencer at a join (R451, R459). -/
def seqAtJoin (s : State) (p : PeerInfo) : Bool :=
  if s.xing.state = 4 then true
  else if p.solo then false
  else if s.xing.left != p.left then p.left
  else !s.fer.pairB

/-- What a device sends for a join (R452, R462): its reservation records; the sequencer also its tables, its fleet record and its tick,
key material wrapped under the mirror key. -/
def joinBody (s : State) (seqr : Bool) : Bytes :=
  let half (h : Option RsvHalf) : Bytes := toLe 8 ((h.map (·.blk)).getD (2 ^ 64 - 1))
  let recs (t : Tbl RsvRec) : Bytes := toLe 4 t.length ++ cat (t.map fun e => toLe 4 e.1 ++ half e.2.even ++ half e.2.odd)
  let wrapped (b : Bytes) : Bytes := wrapKey 9 (mirrorKey s) b
  let tables := toLe 4 s.mews.genBase ++ toLe 4 s.mews.slots.length
    ++ cat (s.mews.slots.map fun e => toLe 4 e.1 ++ toLe 16 (attrWord e.2) ++ wrapped e.2.mat)
    ++ toLe 4 s.curves.length ++ cat (s.curves.map fun e => toLe 1 e.1 ++ curveRegion e.2) ++ toLe 8 s.tick
    ++ toLe 1 s.fer.fleetRole ++ toLe 8 s.fer.fleetId ++ wrapped ((s.bak.fleetRoot).getD [])
    ++ cat (s.fer.wards.map fun e => wardBody s e.1 (some e.2))
  recs s.fer.rsv ++ recs s.fer.dukpt ++ if seqr then tables else []

/-- The partners join, or JOIN_ERR says why not. -/
def startJoin (s : State) (p : PeerInfo) : State :=
  if p.life ≠ s.life.state then setXing s { s.xing with joinErr := 2 }
  else if !joinConfigOk s p then setXing s { s.xing with joinErr := 1 }
  else if s.xing.state = 4 && p.solo then setXing s { s.xing with joinErr := 3 }
  else
    let seqr := seqAtJoin s p
    let s := setXing s { s.xing with joinErr := 0, state := 2, seqr, left := false, failing := [] }
    let s := sendFrame s 12 (joinBody s seqr)
    if seqr then s else zeroiseTable s false

/-- The directional session keys (R444): A to B, then B to A. -/
def sessionOf (s : State) (own : Bytes) (p : PeerInfo) : Sess :=
  let a := toBe 8 (if s.fer.pairB then s.fer.peerSerial else ownSerial)
  let b := toBe 8 (if s.fer.pairB then ownSerial else s.fer.peerSerial)
  let vals := if s.fer.pairB then fit 32 p.value ++ own else own ++ fit 32 p.value
  let k := kdf 0x11 ((s.bak.pairRoot).getD []) [0x78, 0x69, 0x6E, 0x67] (a ++ b ++ vals) 512
  if s.fer.pairB then { keyOut := k.drop 32, keyIn := k.take 32 } else { keyOut := k.take 32, keyIn := k.drop 32 }

/-- The session values are exchanged and the session begins; frames not acknowledged are sent again (R445), and what a join still
copies. -/
def newSession (s : State) (p : PeerInfo) : State :=
  withDraw s 0 whoLink (fun s => setXing s { s.xing with upWait := some p }) fun b s =>
    let own := b.take 32
    let s := sendClear s 0x20 own
    let s := setXing s { s.xing with sess := some (sessionOf s own p), upWait := none }
    let s := raiseInt s 0x48 1
    let again (s : State) : State := s.xing.mirror.foldl (fun s i => sendFrame s i.kind i.body) s
    if s.xing.state = 3 then again s
    else if s.xing.state = 2 then again (sendFrame s 12 (joinBody s s.xing.seqr))
    else startJoin s p

/-- The link may train (R443, R450, XING_CTRL.LINK_EN). -/
def mayLink (s : State) : Bool :=
  domOn s 17 && rbit s Reg.XING_CTRL 0 && s.bak.pairRoot.isSome && twinState s && !s.xing.deciding

/-- The link trains with the partner of the pairing record. -/
def xingLinkUp (s : State) (p : PeerInfo) : State :=
  if !mayLink s || p.serial.toNat ≠ s.fer.peerSerial || (s.xing.sess.isSome && (s.xing.state == 2 || s.xing.state == 3)) then s
  else newSession (setXing s { s.xing with link := true, aliveIn := p.alive }) p

/-- Each half of a reservation record becomes the higher of two copies. -/
def maxHalf : Option RsvHalf → Option RsvHalf → Option RsvHalf
  | none, b => b
  | a, none => a
  | some a, some b => some (if a.blk < b.blk then b else a)
def mergeRsv (a b : RsvRec) : RsvRec := { even := maxHalf a.even b.even, odd := maxHalf a.odd b.odd }
def mergeRsvs (t u : Tbl RsvRec) : Tbl RsvRec := u.foldl (fun t e => tput t e.1 (mergeRsv (tget {} t e.1) e.2)) t

/-- The joiner takes the sequencer's tables (R452, R462). -/
def takeImage (s : State) (img : JoinImage) : State :=
  let s := { s with
    mews := { s.mews with slots := [], genBase := img.gen0, ctrs := [], dukpt := [] }
    curves := img.curves.foldl (fun t e => tput t e.1 e.2) []
    fer := { s.fer with fleetRole := img.fleetRole, fleetId := img.fleetId, wards := img.wards.foldl (fun t e => tput t e.1 e.2) [] }
    bak := { s.bak with fleetRoot := img.fleetRoot } }
  let s := img.slots.foldl (fun s e => setSlot s e.1 e.2) s
  if rbit s Reg.XING_CTRL 1 && decide (s.tick < img.tick) then loadTick s img.tick img.tick else s

def execXingLinkUp (peer : PeerInfo) (s : State) : Res := .next (xingLinkUp s peer)

/-! ## Frames (R445 to R447, R453, R454, R456) -/

/-- The device confirms what it has applied. -/
def confirmFrame (s : State) : State := sendFrame s 9 []

/-- A commit reaches this partner: the sequencer orders and returns it, or answers that a generation it names has passed, whereupon
its command ends there with KEY_REVOKED (R114, R454); the other partner commits it (R453). While the Key Table is overwritten it waits
(R196), and on a joiner until its tables have come (R452). -/
def commitFrame (s : State) (op : SlotOp) (gens : List (Nat × Nat)) : State :=
  if s.mews.zeroising || s.xing.state = 2 then holdOp s (.frame op gens)
  else if s.xing.seqr then
    if gens.any fun e => (slotAt s e.1).gen != e.2 then sendFrame s 13 (opBody s op gens)
    else mirror (applyOp s none op) (opKind op) (opBody s op gens) .record
  else confirmFrame (applyOp s none op)

/-- An assignment that the partner runs reaches its slots here. -/
def assignFrame (s : State) (op dom base cnt : Nat) : State :=
  if s.mews.zeroising || s.xing.state = 2 then holdOp s (.assign op dom base cnt)
  else confirmFrame ((List.range cnt).foldl (fun s n => assignSlot s op dom (base + n)) s)

/-- What has waited is applied in order. -/
def applyHeld (s : State) : State :=
  let l := s.mews.heldOps
  l.foldl (fun s h => match h with
    | .back w => settle s w
    | .frame op gens => commitFrame s op gens
    | .assign op dom base cnt => assignFrame s op dom base cnt) { s with mews := { s.mews with heldOps := [] } }

/-- The overwrite of the material ends, and what waited for it goes on (R196). -/
def zeroisingEnd (s : State) : State := applyHeld { s with mews := { s.mews with zeroising := false } }

/-- The join ends, once the joiner's own table has been overwritten: PAIRED, every queue LOCAL, held commands go on. -/
def joinDone (s : State) (img : JoinImage) : State :=
  if s.xing.state ≠ 2 || s.xing.sess.isNone || s.mews.zeroising then s
  else
    let s := { s with fer := { s.fer with rsv := mergeRsvs s.fer.rsv img.rsv, dukpt := mergeRsvs s.fer.dukpt img.dukpt } }
    let s := if s.xing.seqr then s else takeImage s img
    let s := (roleQueues s 1 ++ roleQueues s 2).foldl localQueue s
    resumeHeld (applyHeld (raiseInt (setXing s { s.xing with state := 3 }) 0x48 8))

def execJoinDone (img : JoinImage) (s : State) : Res := .next (joinDone s img)

/-- A queue record from the partner, all but FUNC and VECTOR. DESIGN CHOICE: a STANDBY queue's window keeps its entries when the record
changes the DOMAIN; the manual does not say. -/
def takeRecord (s : State) (q : Nat) (w : Tbl Word) : State :=
  let v := queueAt s q
  let r := (List.range 32).foldl (fun t n =>
    let x := tget 0 w n
    let x := if n = 0 then wput x 7 0 (qFunc v) else if n = 2 then wput x 26 16 (qVector v) else x
    tset 0 t n (x &&& recMask n)) []
  setQueue s q { v with rec' := r }

/-- A queue's role set by the partner (R456): the copied window writes the storage of its own entries only (R72). -/
def takeRole (s : State) (q : Nat) (primary : Bool) (w : Tbl Word) (win : List (Nat × Bytes)) : State :=
  if primary then
    let s := takeRecord s q w
    let v := noReplay (queueAt s q)
    setQueue s q { v with
      role := 2, win := win.map (fun e => { tag := e.1, cpl := e.2 }), badFree := v.badFree.filter fun i => decide (win.length ≤ i) }
  else localQueue s q

/-- A frame whose tag is right acts. -/
def frameActs (s : State) : XFrame → State
  | .heartbeat => s
  | .marker => syncMarker s true
  | .peerHello p => match s.xing.stmt with
    | none => s
    | some (a, roleB, fails) => commitPeer s a roleB fails p
  | .commit op gens => commitFrame s op gens
  | .assign op dom base cnt => assignFrame s op dom base cnt
  | .reservation slot blk dukpt =>
    confirmFrame (if dukpt then { s with fer := { s.fer with
        dukpt := tput s.fer.dukpt slot.val (mergeRsv (dukptRec s slot.val) (rsvPut {} true slot.val blk)) } }
      else { s with fer := { s.fer with
        rsv := tput s.fer.rsv slot.val (mergeRsv (rsvAt s slot.val) (rsvPut {} false slot.val blk)) } })
  | .ward n e => confirmFrame (setWard s n e)
  | .dissolve => confirmFrame (dissolved s)
  | .queueRec q w => confirmFrame (if (queueAt s q.val).role = 2 then takeRecord s q.val w else s)
  | .queueRole q p w win => takeRole s q.val p w win
  | .replay q tag cpl => confirmFrame (if (queueAt s q.val).role = 2 then storeReplay s q.val tag cpl else s)

/-- The kind and the body of the frames that say something. -/
def frameBody (s : State) : XFrame → Nat × Bytes
  | .heartbeat => (0, [])
  | .marker => (6, toLe 8 (epochOf s s.tick))
  | .peerHello p => (0x21, toBe 8 p.serial.toNat ++ p.confirm)
  | .commit op gens => (opKind op, opBody s op gens)
  | .assign op dom base cnt => (2, assignBody op dom base cnt)
  | .reservation slot blk dukpt => (if dukpt then 4 else 3, rsvBody slot.val blk)
  | .ward n e => (11, wardBody s n e)
  | .dissolve => (14, [])
  | .queueRec q w => (8, recordBody q.val w)
  | .queueRole q p w win => (10, roleBody q.val p w win)
  | .replay q tag cpl => (7, replayBody q.val tag cpl)

/-- The tags that frames saying f must have, under the session's incoming key and its next frame counters (R444). -/
def frameTags (s : State) (e : Sess) (f : XFrame) : List Bytes :=
  let b := frameBody s f
  (framesOf b.2).map fun p => (sealFrame e.keyIn (!s.fer.pairB) (e.rx + p.2) b.1 p).2

/-- The number of the first tag that is wrong. -/
def badTag (want got : List Bytes) : Nat := ((want.zip got).findIdx? fun p => p.1 != p.2).getD (min want.length got.length)

/-- Frames arrive, with their tags. When each is right they act; the first whose tag fails is discarded, counted, recorded, and makes
the link retrain (R445). The peer of a pairing presents itself before there is a session. -/
def frameReceive (s : State) (f : XFrame) (r : XRx) : State :=
  let s := setXing s { s.xing with aliveIn := r.alive }
  let hello : Bool := match f with
    | .peerHello _ => s.xing.stmt.isSome
    | _ => false
  match s.xing.sess with
  | none => if hello then frameActs s f else s
  | some e =>
    let want := frameTags s e f
    if r.tags = want then frameActs (setXing s { s.xing with sess := some { e with rx := e.rx + want.length } }) f
    else
      let s := errSynd (countFault s 0x48) 0x48 0x10 0x20 0 (e.rx + badTag want r.tags)
      let s := bump (bump s Reg.XING_LINK_ERR 31 16 1) Reg.XING_LINK_ERR 15 0 1
      setXing s { s.xing with sess := none }

/-- The device stops XALIVE_OUT and heartbeat frames: PD_XING off, not READY, a response with ZEROISE or LOCKDOWN, or the
internal heartbeat missed (R446). -/
def xaliveOut (s : State) : Bool :=
  domOn s 17 && bootReady s && !s.kerb.erase && !s.kerb.lockdown && !s.xing.hbLost

/-- A heartbeat frame leaves. -/
def heartbeatSend (s : State) : State := if xaliveOut s then sendFrame s 0 [] else s

/-- XALIVE_OUT carries the wave as long as its conditions hold (R446). -/
def aliveWave (s : State) : State :=
  let on := xaliveOut s
  if s.xing.wave = on then s else emit (setXing s { s.xing with wave := on }) (.pin "XALIVE_OUT" (b2n on))

/-- The device's own heartbeat is missed. -/
def heartbeatLoss (s : State) : State := aliveWave (setXing s { s.xing with hbLost := true })

/-- The round trip is measured (R447). -/
def rttMeasure (s : State) (n : Nat) : State := if s.xing.sess.isSome then setReg s Reg.XING_RTT (BitVec.ofNat 32 n) else s

def execFrameReceive (fr : XFrame) (rx : XRx) (s : State) : Res := .next (frameReceive s fr rx)
def execHeartbeatSend (s : State) : Res := .next (heartbeatSend s)
def execInternalHeartbeatLoss (s : State) : Res := .next (heartbeatLoss s)
def execRttMeasure (n : BitVec 16) (s : State) : Res := .next (rttMeasure s n.toNat)

/-! ## XING_QROLE (R456) -/

/-- A write of XING_QROLE: PRIMARY copies the record and window to the partner, LOCAL ends the mirroring. -/
def qroleWrite (s : State) (src : Src) (v : Word) (peerDisabled : Bool) : State :=
  gateReg s src Reg.XING_QROLE fun s =>
    let q := fld s Reg.XING_QSEL 13 0
    let r := wbits v 1 0
    if r = 0 then
      if (queueAt s q).role = 0 then s else mirror (localQueue s q) 10 (roleBody q false [] []) .record
    else if r = 1 && paired s && decide ((queueAt s q).state = .disabled) && peerDisabled then
      let s := setQueue s q { queueAt s q with role := 1 }
      let v := queueAt s q
      mirror s 10 (roleBody q true v.rec' (v.win.map fun e => (e.tag, e.cpl))) .record
    else errSynd s 0x48 0x12 (masterOf src) q 0

def execXingQroleWrite (src : Src) (v : BitVec 32) (peerDisabled : Bool) (s : State) : Res :=
  .next (qroleWrite s src v peerDisabled)

end Sys2Proof.Machine
end

