-- ==== Sys2Proof/Machine/Fleet.lean ====
section
/-! DEFINITION. The fleet: founding, enrolment, parcels and their acceptance (R462 to R466, R469), and the commands that wait
for the Fountain or for the overwrite of the Key Table (R196, R294). -/
namespace Sys2Proof.Machine
open Sys2Proof

/-- FLEET_CMD.BUSY. -/
def fleetBusy (s : State) : Bool :=
  s.fleet.held.isSome || s.xing.mirror.any fun i => match i.wait with
    | .fleet _ _ => true
    | .ward _ _ => true
    | .dissolve => true
    | _ => false

/-- A write of FLEET_CMD with a value: recorded whole and ignored while BUSY (R469), refused outside the lifecycle states of R448. -/
def fleetCmd (s : State) (src : Src) (v : Nat) (k : State → State) : State :=
  gateReg s src Reg.FLEET_CMD fun s =>
    if fleetBusy s then errSynd s 0x49 0x10 (masterOf src) 0 v
    else if !twinState s then fleetEnd s 0x1
    else k s

/-- A command waits. -/
def fleetWaits (s : State) (h : FHeld) : State := { s with fleet := { s.fleet with held := some h } }

def buf (s : State) (off n : Nat) : Bytes := bufGet s Reg.FLEET_BUF off n
def setBuf (s : State) (off : Nat) (b : Bytes) : State := bufPut s Reg.FLEET_BUF off b

/-- The Town Hall's key-agreement and signing scalars (R462), and the public key of a scalar. -/
def townKex (s : State) : Nat := Config.fleetScalar (fleetRoot s) [0x74, 0x6B, 0x65, 0x78]
def townSig (s : State) : Nat := Config.fleetScalar (fleetRoot s) [0x74, 0x73, 0x69, 0x67]
def p256Public (d : Nat) : Bytes :=
  match ptMul p256 d (basePt p256) with
  | some q => ptBytes p256 q
  | none => []

/-- The registers that hold the fleet ID. -/
def fleetIdReg (s : State) : Nat := (reg s Reg.FLEET_ID_LO).toNat + 2 ^ 32 * (reg s Reg.FLEET_ID_HI).toNat
def setFleetId (s : State) (n : Nat) : State :=
  setReg (setReg s Reg.FLEET_ID_LO (BitVec.ofNat 32 n)) Reg.FLEET_ID_HI (BitVec.ofNat 32 (n / 2 ^ 32))

/-- A change of the fleet record, sent as a frame: forwarded to the sequencer, or made here and sent to the partner, and the command
ends OK once both hold it (R451, R453); without a partner it ends at once. -/
def fleetChange (s : State) (kind : Nat) (body : Bytes) (forwarded : MirrorWait) (change : State → State) : State :=
  if paired s && !s.xing.seqr then { mirror s kind body forwarded with fleet := { s.fleet with held := none } }
  else
    let s := change s
    if paired s then { mirror s kind body (.fleet none 0x0) with fleet := { s.fleet with held := none } }
    else fleetEnd (if copies s then mirror s kind body .record else s) 0x0

/-- A Ward entry is written or emptied in FeRAM. -/
def wardStore (s : State) (n : Nat) (e : Option WardEnt) : State :=
  fleetChange s 11 (wardBody s n e) (.ward n e) fun s => setWard s n e

/-! ## FOUND, DISSOLVE, RETIRE_WARD (R462) -/

/-- FOUND once its unit has the blinding values: the root is drawn, and the keys are derived from it (R462). -/
def foundRoot (s : State) : State :=
  withDraw s 0 whoRoot (fun s => fleetWaits s .foundRoot) fun b s =>
    let s := { s with
      bak := { s.bak with fleetRoot := some b }
      fer := { s.fer with fleetRole := 1, fleetId := fleetIdReg s } }
    fleetEnd (setBuf s 0 (p256Public (townKex s) ++ p256Public (townSig s))) 0x0

/-- FOUND: the blinding values of its two key pairs are drawn by its unit (R269, R294), then the root. -/
def foundRun (s : State) : State :=
  if s.fer.fleetRole ≠ 0 then fleetEnd s 0x1
  else withArcDraw s whoFleet (fleetEnd s 0x8) (fun s => fleetWaits s .found) fun _ s => foundRoot s

/-- DISSOLVE; on a Town Hall the Ward table goes on both partners (R453, R462). -/
def dissolveRun (s : State) (fails : Nat) : State :=
  if 3 ≤ fails then fleetEnd s 0x9
  else if s.fer.fleetRole = 1 then fleetChange s 14 [] .dissolve dissolved
  else fleetEnd (dissolved s) 0x0

def retireRun (s : State) (fails : Nat) : State :=
  if s.fer.fleetRole ≠ 1 then fleetEnd s 0x1
  else if 3 ≤ fails then fleetEnd s 0x9
  else wardStore s (fld s Reg.FLEET_WARD_SEL 9 0) none

/-! ## Enrolment (R463, R464) -/

/-- A voucher: its signature, fleet ID, the serials, the index and the Town Hall's public keys. -/
def voucherOk (s : State) (v : Bytes) : Bool := p256Signed s.fer.integrator (v.take 0xA0) (sl v 0xA0 64)
def vFleet (v : Bytes) : Nat := leAt v 0 8
def vTown (v : Bytes) : Nat := leAt v 8 8
def vWard (v : Bytes) : Nat := leAt v 0x10 8
def vIndex (v : Bytes) : Nat := leAt v 0x18 2
def vKex (v : Bytes) : Bytes := sl v 0x20 64
def vSig (v : Bytes) : Bytes := sl v 0x60 64

/-- K_W from an agreed value and a voucher. -/
def wardKey (z v : Bytes) : Bytes := kdf 0x11 z [0x77, 0x61, 0x72, 0x64] (v.take 0x1A) 256

def enrolRun (s : State) (fails : Nat) : State :=
  let v := buf s 0 224
  if !(s.fer.fleetRole = 0 || (s.fer.fleetRole = 2 && s.bak.fleetRoot.isNone)) then fleetEnd s 0x1
  else withArcDraw s whoFleet (fleetEnd s 0x8) (fun s => fleetWaits s (.enrol fails)) fun b s =>
  if !voucherOk s v then fleetEnd s 0x2
  else if vWard v ≠ ownSerial then fleetEnd s 0x3
  else
    let r := newP256 b
    match p256Agree r.1 (vKex v) with
    | none => fleetEnd s 0x2
    | some z =>
      if 3 ≤ fails then fleetEnd s 0x9
      else
        let k := wardKey z v
        let req := toLe 8 ownSerial ++ toLe 2 (vIndex v) ++ fill 6 0 ++ r.2
        let s := { s with
          bak := { s.bak with fleetRoot := some k }
          fer := { s.fer with fleetRole := 2, fleetId := vFleet v, voucher := v, lastSeq := 0 } }
        fleetEnd (setBuf (setFleetId s (vFleet v)) 0xE0 (req ++ fit 16 (cmacOf 3 k req))) 0x0

/-- ADMIT on the Town Hall; its ECDH's blinding values are drawn by its unit (R269, R294). -/
def admissionRun (s : State) (fails : Nat) : State :=
  let v := buf s 0 224
  let q := buf s 0xE0 96
  let n := vIndex v
  if s.fer.fleetRole ≠ 1 || s.bak.fleetRoot.isNone then fleetEnd s 0x1
  else withArcDraw s whoFleet (fleetEnd s 0x8) (fun s => fleetWaits s (.admission fails)) fun _ s =>
  if !voucherOk s v then fleetEnd s 0x2
  else if vTown v ≠ ownSerial || vFleet v ≠ s.fer.fleetId || vKex v != p256Public (townKex s)
      || vSig v != p256Public (townSig s) || 1024 ≤ n || (tfind s.fer.wards n).isSome
      || leAt q 0 8 ≠ vWard v || leAt q 8 2 ≠ n then fleetEnd s 0x3
  else match p256Agree (townKex s) (sl q 0x10 64) with
    | none => fleetEnd s 0x2
    | some z =>
      let k := wardKey z v
      if fit 16 (cmacOf 3 k (q.take 80)) != sl q 80 16 then fleetEnd s 0x2
      else if 3 ≤ fails then fleetEnd s 0x9
      else wardStore s n (some { serial := vWard v, key := wrapKey 9 (fleetRoot s) k })

/-! ## Parcels (R465, R466) -/

/-- Bytes 0x00 to 0x2F of a parcel. -/
def parcelHead (type ward len id serial seq tick alg k matLen : Nat) : Bytes :=
  toLe 2 0xFA2C ++ toLe 1 1 ++ toLe 1 type ++ toLe 2 ward ++ toLe 2 len ++ toLe 8 id ++ toLe 8 serial ++ toLe 4 seq
    ++ fill 4 0 ++ toLe 8 tick ++ toLe 1 alg ++ toLe 1 k ++ toLe 2 matLen ++ fill 4 0

/-- Bytes of the wrapped part of a KEY parcel, and of a whole parcel. -/
def parcelWrap (alg : Nat) : Nat := (64 + algBytes alg + 7) / 8 * 8 + 8
def parcelLen (type alg : Nat) : Nat := 0x30 + (if type = 1 then parcelWrap alg else 0) + 64

/-- The attribute word of a KEY parcel: GENERATION, PARENT, ASSIGNED and DOMAIN cleared. -/
def parcelAttr (v : Slot) : Nat := attrWord { v with gen := 0, parent := 0, asg := false, dom := 0 }

/-- A handle names a LIVE key whose EXPORT is 1. -/
def exportable (s : State) (h : Nat) : Bool :=
  let v := slotAt s (hSlot h)
  isLive v && v.gen == hGen h && v.exp

def makeRun (s : State) : State :=
  let type := byteAt (buf s 3 1) 0
  let n := leAt (buf s 4 2) 0 2
  let h := (reg s Reg.FLEET_HANDLE).toNat
  if s.fer.fleetRole ≠ 1 || s.bak.fleetRoot.isNone then fleetEnd s 0x1
  else if type = 0 || 3 < type then fleetEnd s 0x4
  else match tfind s.fer.wards n with
    | none => fleetEnd s 0x3
    | some w =>
      if type = 1 && !exportable s h then fleetEnd s 0xA
      else withArcDraw s whoFleet (fleetEnd s 0x8) (fun s => fleetWaits s .make) fun b s =>
        let v := slotAt s (hSlot h)
        let alg := if type = 1 then v.alg else 0
        let tick := if type = 2 then leAt (buf s 0x20 8) 0 8 else s.tick
        let head := parcelHead type n (parcelLen type alg) s.fer.fleetId w.serial (w.seq + 1) tick alg (epochExp s)
          (if type = 1 then algBytes alg else 0)
        let wrapped := if type = 1 then
            fit (parcelWrap alg) (wrapKey 9 (wardSecret s w) (head ++ toLe 16 (parcelAttr v) ++ fit (algBytes alg) (keyMat s (hSlot h))))
          else []
        let sg := ecdsaSign p256 (townSig s) (hashOf 1 32 (head ++ wrapped)) b
        let s := setBuf s 0 (head ++ wrapped ++ toBe 32 sg.1 ++ toBe 32 sg.2)
        wardStore s n (some { w with seq := w.seq + 1 })

/-- The fields of the parcel at FLEET_BUF. -/
structure Parcel where
  head : Bytes
  type : Nat
  ward : Nat
  len : Nat
  id : Nat
  serial : Nat
  seq : Nat
  tick : Nat
  alg : Nat
  k : Nat
  matLen : Nat
deriving DecidableEq, Repr

def parcelAt (s : State) : Parcel :=
  let h := buf s 0 0x30
  { head := h, type := byteAt h 3, ward := leAt h 4 2, len := leAt h 6 2, id := leAt h 8 8, serial := leAt h 0x10 8
    seq := leAt h 0x18 4, tick := leAt h 0x20 8, alg := byteAt h 0x28, k := byteAt h 0x29, matLen := leAt h 0x2A 2 }

/-- Step 1: every format field is what a parcel of its type has. -/
def parcelFormat (s : State) (p : Parcel) : Bool :=
  1 ≤ p.type && p.type ≤ 3 && (p.type != 1 || (algInfo p.alg).isSome)
    && p.head == parcelHead p.type p.ward (parcelLen p.type p.alg) p.id p.serial p.seq p.tick
        (if p.type = 1 then p.alg else 0) p.k (if p.type = 1 then algBytes p.alg else 0)
    && (p.type != 2 || p.tick % epochLen s == 0)

/-- Step 5: the time of the parcel. -/
def parcelTime (s : State) (p : Parcel) : Bool :=
  if p.type = 1 then decide (p.tick ≤ s.tick)
  else if p.type = 2 then clkSrc s != 0 && s.clk.load.isNone && decide (s.tick < p.tick)
  else true

/-- Step 6: the key a KEY parcel carries. -/
def parcelKey (s : State) (p : Parcel) : Option Slot :=
  match unwrapKey 9 (fleetRoot s) (buf s 0x30 (parcelWrap p.alg)) with
  | none => none
  | some pt =>
    if pt.take 0x30 == p.head && pt.length == 64 + p.matLen then
      some { fromTemplate (leAt pt 0x30 16) with mat := sl pt 0x40 p.matLen }
    else none

/-- Step 7: the target slot takes the key. -/
def parcelTarget (s : State) (p : Parcel) (k : Slot) : Bool :=
  let h := (reg s Reg.FLEET_HANDLE).toNat
  let n := hSlot h
  let v := slotAt s n
  v.gen == hGen h && k.alg == p.alg && !templateBad k && n % algRun p.alg == 0
    && (List.range (algRun p.alg)).all fun i => (slotAt s (n + i)).asg && (slotAt s (n + i)).dom == v.dom

/-- SEQ is confirmed in FeRAM, then the parcel acts. -/
def acceptSeq (s : State) (p : Parcel) (fails : Nat) (act : State → State) : State :=
  if 3 ≤ fails then fleetEnd s 0x9
  else fleetEnd (act { s with fer := { s.fer with lastSeq := p.seq } }) 0x0

/-- A KEY parcel is written into its target, with the slot's domain; the command ends once both partners of a pair have made the
commit (R453, R466). -/
def acceptKey (s : State) (p : Parcel) (k : Slot) (fails : Nat) : State :=
  let n := hSlot (reg s Reg.FLEET_HANDLE).toNat
  let op : SlotOp := .write n { k with asg := true, dom := (slotAt s n).dom }
  if 3 ≤ fails then fleetEnd s 0x9
  else
    let s := commitVia { s with fer := { s.fer with lastSeq := p.seq } } op [(n, hGen (reg s Reg.FLEET_HANDLE).toNat)] (.fleet (some op) 0x0) (.fleet none 0x0)
    if paired s then { s with fleet := { s.fleet with held := none } } else fleetEnd s 0x0

def acceptRun (s : State) (fails : Nat) : State :=
  let p := parcelAt s
  if s.fer.fleetRole ≠ 2 || s.bak.fleetRoot.isNone then fleetEnd s 0x1
  else
    let s := { s with fleet := { s.fleet with tickFail := false } }
    let sgn := buf s (p.len - 64) 64
    if !parcelFormat s p then fleetEnd s 0x4
    else if p.id ≠ s.fer.fleetId || p.serial ≠ ownSerial || p.ward ≠ vIndex s.fer.voucher || p.k ≠ epochExp s then
      fleetEnd s 0x3
    else withArc s (fleetEnd s 0x8) (fun s => fleetWaits s (.accept fails)) fun s =>
    if !p256Signed (vSig s.fer.voucher) (buf s 0 (p.len - 64)) sgn then fleetEnd (countFault s 0x49) 0x2
    else if p.seq ≤ s.fer.lastSeq then fleetEnd s 0x5
    else if !parcelTime s p then fleetEnd s 0x6
    else if p.type = 2 then
      acceptSeq s p fails fun s =>
        let s := loadAtSyncOf s p.tick
        { s with fleet := { s.fleet with tickPend := s.clk.load.isSome } }
    else if p.type = 3 then acceptSeq s p fails dissolved
    else match parcelKey s p with
      | none => fleetEnd (countFault s 0x49) 0x2
      | some k =>
        if !parcelTarget s p k then fleetEnd s 0x7
        else if s.xing.state = 5 then fleetEnd s 0x1
        else if s.mews.zeroising then fleetWaits s (.accept fails)
        else acceptKey s p k fails

def execFound (src : Src) (s : State) : Res := .next (fleetCmd s src 1 foundRun)
def execEnrol (src : Src) (fails : Nat) (s : State) : Res := .next (fleetCmd s src 2 fun s => enrolRun s fails)
def execFleetAdmit (src : Src) (fails : Nat) (s : State) : Res := .next (fleetCmd s src 3 fun s => admissionRun s fails)
def execMake (src : Src) (s : State) : Res := .next (fleetCmd s src 4 makeRun)
def execAccept (src : Src) (fails : Nat) (s : State) : Res := .next (fleetCmd s src 5 fun s => acceptRun s fails)
def execRetireWard (src : Src) (fails : Nat) (s : State) : Res := .next (fleetCmd s src 6 fun s => retireRun s fails)
def execDissolve (src : Src) (fails : Nat) (s : State) : Res := .next (fleetCmd s src 7 fun s => dissolveRun s fails)

/-! ## What waited for the Fountain or for the overwrite goes on (R196, R294) -/

def resumeXing (s : State) : State :=
  match s.xing.held with
  | none => s
  | some .prepare => prepareRun s
  | some (.commit peer fails) => commitRun s peer fails

def resumeFleet (s : State) : State :=
  match s.fleet.held with
  | none => s
  | some .found => foundRun s
  | some .foundRoot => foundRoot s
  | some (.enrol n) => enrolRun s n
  | some (.admission n) => admissionRun s n
  | some .make => makeRun s
  | some (.accept n) => acceptRun s n

/-- Every waiting Crossing and fleet command and link-up is tried again. -/
def resumeWaits (s : State) : State :=
  let s := resumeFleet (resumeXing s)
  match s.xing.upWait with
  | none => s
  | some p => newSession s p

end Sys2Proof.Machine
end

