-- ==== Sys2Proof/Machine/Lifecycle.lean ====
section
/-! DEFINITION. The lifecycle: roots, transitions, the customer secret and LC_CMD (R201 to R209, R211, R527). -/
namespace Sys2Proof.Machine
open Sys2Proof

/-- The state with the lifecycle replaced. -/
def setLife (s : State) (l : Life) : State := { s with life := l }

/-- The valid copy of the lifecycle record with the higher sequence number (R205). -/
def lcNow (s : State) : Option LcRec :=
  let a := s.fer.lcA
  let b := s.fer.lcB
  if a.valid && (!b.valid || decide (b.seq ≤ a.seq)) then some a else if b.valid then some b else none

/-- LC_TOTAL. -/
def lcTotal (s : State) : Nat := ((lcNow s).map (·.total)).getD 0
/-- LC_CNT of a row. -/
def lcCount (s : State) (row : Nat) : Nat := ((lcNow s).map fun r => tget 0 r.cnt row).getD 0
/-- LC_STATE.CUST_VALID. -/
def custValid (s : State) : Bool := s.bak.cust.isSome

/-- The root of the current state, when it has one (R201, R202). DESIGN CHOICE: LC_SERIAL enters the context most significant byte first;
R202 gives no order of its bytes. -/
def rootOf (s : State) : Option Bytes :=
  let k (ctx : Bytes) : Bytes :=
    kdf 0x11 Config.deviceSecret ([0x72, 0x6F, 0x6F, 0x74] ++ toLe 1 s.life.state) ctx 256
  let serial := toBe 8 ownSerial
  if s.life.state = 1 || s.life.state = 2 || s.life.state = 4 then some (k serial)
  else if s.life.state = 3 then s.bak.cust.map fun c => k (serial ++ fit 32 c)
  else none

/-- The root is derived, at boot and after a transition. -/
def deriveRoot (s : State) : State := setLife s { s.life with root := rootOf s }

/-- The row from one state to another (R203). -/
def lcRow (from' dest : Nat) : Option Nat :=
  match from', dest with
  | 0, 1 => some 1
  | 1, 2 => some 2
  | 2, 3 => some 3
  | 3, 4 => some 4
  | 4, 3 => some 5
  | 1, 5 => some 6
  | 2, 5 => some 7
  | 3, 5 => some 7
  | 4, 5 => some 7
  | 5, 6 => some 8
  | _, _ => none

/-- A row signed by the vendor, and a row that zeroises the Key Table. -/
def rowVendor (row : Nat) : Bool := row == 1 || row == 2 || row == 6 || row == 8
def rowZeroises (row : Nat) : Bool := row != 4 && row != 5

/-- LC_AUTH. -/
def lcAuth (s : State) (off n : Nat) : Bytes := bufGet s Reg.LC_AUTH off n

/-- The message M of R204. -/
def lcMessage (s : State) (row dest : Nat) : Bytes :=
  toBe 8 ownSerial ++ toLe 1 s.life.state ++ toLe 1 dest ++ fill 2 0 ++ toBe 4 (lcTotal s)
    ++ (if row = 2 then fit 16 (hashOf 1 32 (lcAuth s 0x40 64)) else fill 16 0)

/-- The signature of a transition verifies under the key of its row. -/
def lcSigned (s : State) (row dest : Nat) : Bool :=
  p256Signed (if rowVendor row then Config.vendorKey else s.fer.integrator) (lcMessage s row dest) (lcAuth s 0 64)

/-- The new record is written to the idle copy (R205). -/
def lcWrite (s : State) (row dest : Nat) : State :=
  match lcNow s with
  | none => s
  | some r =>
    let n : LcRec := { seq := r.seq + 1, state := dest, total := r.total + 1, cnt := tset 0 r.cnt row (tget 0 r.cnt row + 1) }
    if s.fer.lcA = r then { s with fer := { s.fer with lcB := n } } else { s with fer := { s.fer with lcA := n } }

/-- A row's other effect (R203). -/
def rowEffect (s : State) (row : Nat) : State :=
  if row = 2 then { s with fer := { s.fer with integrator := lcAuth s 0x40 64 } }
  else if row = 3 then setLife s { s.life with hardLock := true }
  else if row = 7 then
    setLife { s with bak := { s.bak with cust := none } } { s.life with hardLock := false }
  else s

/-- LC_CMD.BUSY rises; the command ends with a RESULT at LC_CMD_END. -/
def lcStarts (s : State) (cmd result : Nat) : State := setLife s { s.life with op := some { cmd, result } }

/-- A write of the value v to LC_CMD: recorded and ignored while BUSY (R211), FERAM while no record is valid (R527). -/
def lcCmd (s : State) (src : Src) (v : Nat) (k : State → State) : State :=
  gateReg s src Reg.LC_CMD fun s =>
    if s.life.op.isSome then errSynd s 0x29 0x10 (masterOf src) 0 v
    else if s.life.state = 7 then lcStarts s (bits v 3 0) 0x5
    else k s

/-- The transition after its signature has verified. -/
def lcMove (s : State) (row dest fails : Nat) : State :=
  let z := rowZeroises row
  let s := setLife s { s.life with transitioning := true, zero := z }
  let s := if z then zeroiseTable s false else s
  let s := (List.range (min 3 fails)).foldl (fun s _ => countFault s 0x29) s
  if 3 ≤ fails then lcStarts s 1 0x5
  else
    let s := lcWrite s row dest
    let s := rowEffect s row
    lcStarts (deriveRoot (setLife s { s.life with state := dest })) 1 0x0

/-- TRANSITION once it is accepted (R205): the signature check waits for the lowest-numbered powered unit (R276).
DESIGN CHOICE: while it waits, nothing of the transition is latched: the row, its condition and the message are formed when the
unit is free. -/
def transitionRun (s : State) (fails : Nat) : State :=
  let dest := fld s Reg.LC_TARGET 2 0
  match lcRow s.life.state dest with
  | none => lcStarts s 1 0x1
  | some row =>
    if (row = 3 || row = 5) && !custValid s then lcStarts s 1 0x3
    else withArc s (lcStarts s 1 0x4)
      (fun s => setLife s { s.life with op := some { cmd := 1, result := 0, verify := some fails } })
      fun s => if !lcSigned s row dest then lcStarts s 1 0x2 else lcMove s row dest fails

/-- TRANSITION written in LC_CMD (R205). -/
def transition (s : State) (src : Src) (v fails : Nat) : State := lcCmd s src v fun s => transitionRun s fails

/-- A TRANSITION that waits for its unit is tried again (R276). -/
def resumeTransition (s : State) : State :=
  match s.life.op with
  | some o => match o.verify with
    | some fails => transitionRun s fails
    | none => s
  | none => s

/-- CUST_INSTALL (R208). DESIGN CHOICE: an ISOLATED device, which refuses every slot write (R458), ends it with RESULT NOT_ALLOWED and
nothing changed; R209 has no RESULT of its own for this. -/
def custInstall (s : State) (src : Src) (v : Nat) : State :=
  lcCmd s src v fun s =>
    let h := (reg s Reg.LC_HANDLE).toNat
    let v := slotAt s (hSlot h)
    if s.life.state ≠ 2 && s.life.state ≠ 4 || s.xing.state == 5 then lcStarts s 2 0x1
    else if !isLive v || v.gen ≠ hGen h || v.alg ≠ 0x19 || v.usage ≠ uDERIVE then lcStarts s 2 0x6
    else
      let op : SlotOp := .erase (hSlot h) false
      let old := s.bak.cust
      let s := { s with bak := { s.bak with cust := some (fit 32 (keyMat s (hSlot h))) } }
      lcStarts (commitVia s op [(hSlot h, hGen h)] (.cust (some op) old) (.cust none old)) 2 0x0

/-- The erase of CUST_INSTALL waits for the partner (R453). -/
def custWaits (s : State) : Bool := s.xing.mirror.any fun e => match e.wait with
  | .cust _ _ => true
  | _ => false

/-- A lifecycle command ends (R205, R207, R211, R459): not while it waits for its unit (R276), for the zeroisation (R196) or for
the partner's commit of the erase (R453). -/
def lcCmdEnd (s : State) : State :=
  match s.life.op with
  | none => s
  | some o =>
    if s.life.zero && s.mews.zeroising || o.verify.isSome || o.cmd == 2 && custWaits s then s
    else
      let s := setLife s { s.life with op := none, transitioning := false, zero := false }
      let s := (List.range 32).foldl (fun s i => setReg s (Reg.LC_AUTH + 4 * i) 0) s
      let s := raiseInt (setFld s Reg.LC_CMD 7 4 o.result) 0x29 (if o.result = 0 then 1 else 3)
      resumeHeld (if o.cmd = 1 && o.result = 0 then cutLink s else s)

def execTransition (src : Src) (fails : Nat) (s : State) : Res := .next (transition s src 1 fails)
def execCustInstall (src : Src) (s : State) : Res := .next (custInstall s src 2)
def execLcCmdEnd (s : State) : Res := .next (lcCmdEnd s)

/-! ## The record at boot (R206, R527) -/

/-- The recorded state is taken, its effects applied again and the root derived. -/
def lcBoot (s : State) : State :=
  match lcNow s with
  | none => setLife s { s.life with state := 7, hardLock := true, root := none }
  | some r =>
    let s := if r.state = 5 || r.state = 6 then { s with bak := { s.bak with cust := none } } else s
    deriveRoot (setLife s { s.life with state := r.state, hardLock := r.state == 3 || r.state == 4 })

end Sys2Proof.Machine
end

