-- ==== Sys2Proof/Machine/Checkpoint.lean ====
section
/-! DEFINITION. Checkpoints beside their rules: CHECKPOINT_SYNC, the DMA engines and the SRAM scrubber (chapter 12). -/
namespace Sys2Proof.Machine
open Sys2Proof

/-! ## CHECKPOINT_SYNC (R407) -/

/-- A read of CHECKPOINT_SYNC waits for the transfers that run. -/
def syncRead (s : State) (src : Src) : State :=
  gateRead s src Reg.CHECKPOINT_SYNC fun s =>
    setChk s { s.chk with sync := s.chk.sync ++ [(src, s.chk.dma.map (·.1))] }

/-- The data of a read that waited returns: to the load that stalls for it (R322), or to the requester. -/
def syncData (s : State) (src : Src) (v : Nat) : State :=
  match src with
  | .core c =>
    if (coreAt s c.val).busy then setCore s c.val { coreAt s c.val with loaded := some v }
    else emit s (.readData src (toLe 4 v))
  | _ => if answers s src then emit s (.readData src (toLe 4 v)) else s

/-- The oldest waiting read returns: DONE 1 when every access it waits for has completed, DONE 0 when 50 µs have passed. -/
def syncReturn (s : State) : State :=
  match s.chk.sync with
  | [] => s
  | (src, l) :: rest =>
    syncData (setChk s { s.chk with sync := rest }) src (b2n l.isEmpty)

def execCheckpointSyncRead (src : Src) (s : State) : Res := .next (syncRead s src)
def execCheckpointSyncReturn (s : State) : Res := .next (syncReturn s)

/-! ## Uncorrectable errors of the shared SRAM and of local RAM (R324, R411, R413 to R415, R417) -/

/-- An uncorrectable shared SRAM error is found: counted once until the word is written (R414). -/
def sramUncorr (s : State) (addr : Nat) : State :=
  if s.chk.eccBad.contains (addr / 8) then s
  else
    let s := setChk s { s.chk with eccBad := addr / 8 :: s.chk.eccBad }
    let s := bump (countFault s 0x40) Reg.CHECKPOINT_SRAM_ECC 31 16 1
    raiseInt (errSynd s 0x40 0x12 0x20 0 addr) 0x40 4

/-- An uncorrectable error of core c's local RAM at a local address (R324, R362). -/
def lramUncorr (s : State) (c addr : Nat) : State :=
  let w := (lramBase c + addr) / 8
  if s.chk.eccBad.contains w then s
  else
    let s := setChk s { s.chk with eccBad := w :: s.chk.eccBad }
    let s := bump (countFault s (0x30 + c)) (rk (0x30 + c) Reg.IXM_LRAM_ECC) 31 16 1
    raiseInt (errSynd s (0x30 + c) 0x10 0x20 0 addr) (0x30 + c) 2

/-- An uncorrectable error found at a stored address. -/
def memUncorr (s : State) (a : Nat) : State :=
  if 0x02000000 ≤ a then lramUncorr s ((a - 0x02000000) / 0x40000) ((a - 0x02000000) % 0x40000) else sramUncorr s a

/-- A corrected error found at a stored address. -/
def memCorr (s : State) (a : Nat) : State :=
  if 0x02000000 ≤ a then bump s (rk (0x30 + (a - 0x02000000) / 0x40000) Reg.IXM_LRAM_ECC) 15 0 1
  else bump s Reg.CHECKPOINT_SRAM_ECC 15 0 1

/-- The first marked word of a range, by its address (R414). -/
def damagedAt (s : State) (a n : Nat) : Option Nat :=
  (s.chk.eccBad.filter fun w => decide (w * 8 < a + n) && decide (a < w * 8 + 8)).foldl
    (fun m w => match m with
      | none => some (w * 8)
      | some v => some (min v (w * 8))) none

/-- An uncorrectable Context SRAM error (R121), counted once until the context is written for its next command (R414). -/
def ctxUncorr (s : State) (c : Nat) : State :=
  if s.chk.ctxBad.contains c then s else
  let s := setChk s { s.chk with ctxBad := c :: s.chk.ctxBad }
  let s := bump (countFault s 0x10) Reg.RBT_CTX_ECC 31 16 1
  let s := raiseInt (errSynd s 0x10 0x10 0x20 c c) 0x10 4
  match ctxAt s c with
  | none => s
  | some x => match x.phase with
    | .parked _ => finishS s c 0x08 0x05 0
    | _ => stopCtx s c 0x08 0x05

/-- The scrubber visits a word with an error, correctable or not (R413, R414). -/
def sramScrub (s : State) (site : ScrubSite) (uncorr : Bool) : State :=
  match site with
  | .sharedSram w =>
    let a := sramBase + 8 * (w % 2 ^ 20)
    if !domOn s 0 then s else if uncorr then sramUncorr s a else bump s Reg.CHECKPOINT_SRAM_ECC 15 0 1
  | .context c =>
    if !domOn s 18 then s else if uncorr then ctxUncorr s c.val else bump s Reg.RBT_CTX_ECC 15 0 1
  | .keyTable n lost =>
    if !domOn s 12 then s else if uncorr then ktLoss s n.val lost else bump s Reg.MEWS_KT_ECC 15 0 1
  | .replay q e =>
    if !domOn s 13 then s else if uncorr then replayEcc s q.val e.val else bump s Reg.QUAY_RPL_ECC 15 0 1
  | .curve e =>
    if !domOn s 0 then s else if uncorr then curveLoss s e.val else bump s Reg.CHECKPOINT_SRAM_ECC 15 0 1

def execSramScrub (site : ScrubSite) (uncorr : Bool) (s : State) : Res := .next (sramScrub s site uncorr)

/-! ## The DMA engines (R409 to R411) -/

/-- An address pair of engine e; an internal address takes its low word only. -/
def dmaAddr (s : State) (e off : Nat) (host : Bool) : Nat :=
  (reg s (dmaReg e off)).toNat + (if host then 2 ^ 32 * (reg s (dmaReg e (off + 4))).toNat else 0)

/-- The transfer the registers of engine e describe. -/
def dmaOp (s : State) (e : Nat) : DmaOp :=
  let dir := fld s (dmaReg e 0x14) 1 0
  let queue := fld s (dmaReg e 0x14) 29 16
  { dom := masterDom s (16 + e), fn := qFunc (queueAt s queue), src := dmaAddr s e 0 (dir == 1), dst := dmaAddr s e 8 (dir == 2)
    len := fld s (dmaReg e 0x10) 24 0, dir := if dir = 3 then 0 else dir, queue }

/-- The internal ranges a transfer reads and writes, as its Checkpoint sees them. -/
def dmaRanges (e : Nat) (o : DmaOp) : List Acs :=
  let a (addr : Nat) (n : Need) : Acs := { mid := 0x30 + e, user := false, dom := o.dom, addr, len := o.len, need := n }
  (if o.dir = 1 then [] else [a o.src .read]) ++ (if o.dir = 2 then [] else [a o.dst .write])

/-- The host range of a transfer lies in a window of its queue (R410). -/
def dmaHostOk (s : State) (o : DmaOp) : Bool :=
  o.dir == 0 || covered (queueAt s o.queue) (o.dir == 2) (if o.dir = 1 then o.src else o.dst) o.len

/-- GO while BUSY is 0: the checks of R409 to R411, in the order LENGTH_LIMIT, DOMAIN, ACCESS. -/
def dmaStart (s : State) (e : Nat) : State :=
  let o := dmaOp s e
  if o.len = 0 || o.len % 4 != 0 || o.src % 4 != 0 || o.dst % 4 != 0 then dmaEnds s e 0x03 0
  else if o.dir != 0 && qDomain (queueAt s o.queue) != o.dom then dmaEnds s e 0x0C 0
  else match (dmaRanges e o).find? fun a => !permits s a with
    | some a => dmaEnds (refused s a) e 0x04 0
    | none =>
      if !dmaHostOk s o then dmaEnds s e 0x04 0
      else
        let s := setReg (setChk s { s.chk with dma := tput s.chk.dma e o }) (dmaReg e 0x1C) 0
        if o.dir = 1 then hostRead s o.fn o.src o.len else s

/-- ABORT stops a running engine at its next beat. -/
def dmaStop (s : State) (e : Nat) : State :=
  match tfind s.chk.dma e with
  | some o => setChk s { s.chk with dma := tput s.chk.dma e { o with abort := true } }
  | none => s

/-- A write of DMA_CTRL: QUEUE and DIR, then ABORT, then GO, which lockdown ignores (R428). -/
def dmaCtrl (s : State) (src : Src) (e : Nat) (v : Word) : State :=
  let busy := (tfind s.chk.dma e).isSome
  let s := setReg s (dmaReg e 0x14) (BitVec.ofNat 32 (wbits v 29 16 * 2 ^ 16 + wbits v 1 0))
  let s := if wbit v 30 then dmaStop s e else s
  if !wbit v 31 || s.kerb.lockdown then s
  else if busy then errSynd s 0x40 0x14 (masterOf src) e v.toNat
  else dmaStart s e

def dmaGo (s : State) (src : Src) (e : Nat) (v : Word) : State :=
  gateReg s src (dmaReg e 0x14) fun s => dmaCtrl s src e (v ||| 0x80000000)
def dmaAbort (s : State) (src : Src) (e : Nat) : State :=
  gateReg s src (dmaReg e 0x14) fun s => dmaStop s e

def execDmaGo (src : Src) (e : DmaNo) (v : BitVec 32) (s : State) : Res := .next (dmaGo s src e.val v)
def execDmaAbort (src : Src) (e : DmaNo) (s : State) : Res := .next (dmaAbort s src e.val)

/-- The first n bytes of a transfer as they leave its source: a host source brings the data; overlapping internal ranges give
free bytes (R410). -/
def dmaData (s : State) (o : DmaOp) (data : Bytes) (n : Nat) : Bytes × State :=
  if o.dir = 1 then (fit n data, s)
  else if o.dir = 0 && decide (o.src < o.dst + o.len) && decide (o.dst < o.src + o.len) then freshBytes n s
  else mapRead s 16 o.src n

/-- Bytes of a transfer are written to the destination; nothing leaves through a port whose link is down (R547). -/
def dmaWrite (s : State) (o : DmaOp) (b : Bytes) : State :=
  if o.dir ≠ 2 then memWrite s o.dst b
  else if linkUp s (fnPort o.fn) then emit s (.dmaWrite o.fn o.dst b) else s

/-- The first n bytes of a transfer are moved. -/
def dmaMove (s : State) (o : DmaOp) (data : Bytes) (n : Nat) : State :=
  let r := dmaData s o data n
  dmaWrite r.2 o r.1

/-- The page of the sink of a write to n bytes as core c sees them (R38, R415): a core's page for its local RAM, a register's page,
page 0x40 for the shared SRAM. DESIGN CHOICE: page 0x40 for the FeRAM too, which has no page of its own (assumption log). -/
def memSinkPage (c a n : Nat) : Nat :=
  match regionOf c a n with
  | some (.localRam k) => 0x30 + k
  | some .regs => a % 0x100000 / 0x1000
  | _ => 0x40

/-- The page of the sink of a transfer: the Quay's functions page for host memory. -/
def dmaSinkPage (o : DmaOp) : Nat := if o.dir = 2 then 0x0A else memSinkPage 16 o.dst o.len

/-- Where a transfer that stops short stops: before the beat of its byte n, which is one of the range (R411). -/
def beatStart (o : DmaOp) (n : Nat) : Nat := min n (o.len - 1) / 64 * 64

/-- The page of the block a transfer's data enters the fabric from: the Quay for host memory. -/
def dmaSourcePage (o : DmaOp) : Nat := if o.dir = 1 then 0x0A else memSinkPage 16 o.src o.len

/-- A transfer's data is written up to a length and the transfer ends, or ends before the beat whose Seal check fails at the sink
(R38). -/
def dmaSealed (s : State) (e : Nat) (o : DmaOp) (data : Bytes) (hit : Option Hit) : State :=
  let r := dmaData s o data o.len
  let p := sealPass (dmaSourcePage o) (dmaSinkPage o) none 0 r.1 hit
  let s := dmaWrite r.2 o p.1
  if p.2 then dmaEnds s e 0x00 o.len else dmaEnds (sealFault s (dmaSinkPage o)) e 0x08 p.1.length

/-- Errors that a transfer corrected in the source words it read are counted (R413). -/
def dmaCorrected (s : State) (o : DmaOp) (l : List Nat) (n : Nat) : State :=
  if o.dir = 1 then s else (l.filter fun i => decide (i < n)).foldl (fun s i => memCorr s (o.src + i)) s

/-- A transfer comes to its end: complete, or stopped before the beat of the byte its data ends at; a source word marked as damaged
stops it before (R411, R414). -/
def dmaDone (s : State) (e : Nat) (data : Bytes) (fin : DmaFin) : State :=
  match tfind s.chk.dma e with
  | none => s
  | some o =>
    let n := beatStart o data.length
    let reach := match fin.how with
      | .ok _ => o.len
      | .ecc => n + 64
      | _ => n
    let stop (k : Nat) (s : State) : State := dmaEnds (dmaMove s o data k) e 0x08 k
    match if o.dir = 1 then none else damagedAt s o.src (min reach o.len) with
    | some w =>
      let k := beatStart o (w - o.src)
      stop k (dmaCorrected s o fin.corrected k)
    | none =>
      let s' := dmaCorrected s o fin.corrected (min reach o.len)
      match fin.how with
      | .ok hit => dmaSealed s' e o data hit
      | .aborted => if o.abort then stop n s' else s
      | .ecc => if o.dir = 1 then s else memUncorr (stop n s') (o.src + min data.length (o.len - 1))
      | .poisoned => if o.dir = 1 then stop n s' else s

def execDmaDone (e : DmaNo) (data : Bytes) (fin : DmaFin) (s : State) : Res := .next (dmaDone s e.val data fin)

end Sys2Proof.Machine
end

