-- ==== Sys2Proof/Machine/Cores.lean ====
section
/-! DEFINITION. The Ixmet cores from outside: interrupt sources, IXM_CTRL, software interrupts and the Survey buffer (R363, R373, R394,
R396, R428). -/
namespace Sys2Proof.Machine
open Sys2Proof

/-! ## IXM_CTRL (R363, R376, R428) -/

/-- A core starts at an address. -/
def startCore (s : State) (c : Nat) (pc : Word) : State :=
  let v := coreAt s c
  setCore s c { v with state := 2, slot := none, shadow := false, haltReq := false, busy := false, loaded := none, r := { v.r with pc := pc } }

/-- A command the state of the core, or lockdown, does not allow (R362, R428). -/
def ctrlRefused (s : State) (src : Nat) (c v : Nat) : State :=
  errSynd s (corePage c) 0x11 src (coreStateOf s c) v

/-- Every general and special register of a core takes its reset value, the Survey counters among them, which are special registers
0x30 to 0x37 (DEDUCED, R363, R368); its sampling buffer stays. -/
def coreFresh (s : State) (c st : Nat) : State :=
  (List.range 8).foldl (fun s k => setReg s (ck c (Reg.SV_CNT + 4 * k)) 0)
    (setCore s c { state := st, samples := (coreAt s c).samples })

/-- A core's registers take their reset values and its local RAM is zeroised; it stays RESETTING until that ends. -/
def resetCore (s : State) (c : Nat) : State :=
  setFld (memClear (coreFresh s c 0) (lramBase c) (lramBase c + 0x40000)) (ck c Reg.IXM_IMG_SVN) 15 0 0

def ctrlStart (s : State) (src : Src) (c v : Nat) : State :=
  gate s src (corePage c) Reg.IXM_CTRL fun s =>
    if (coreAt s c).state ≠ 1 || s.kerb.lockdown then ctrlRefused s (masterOf src) c v
    else startCore s c (reg s (ck c Reg.IXM_START_PC))
def ctrlHalt (s : State) (src : Src) (c v : Nat) : State :=
  gate s src (corePage c) Reg.IXM_CTRL fun s =>
    if (coreAt s c).state ≠ 2 && (coreAt s c).state ≠ 3 then ctrlRefused s (masterOf src) c v else haltCore s c
def ctrlReset (s : State) (src : Src) (c v : Nat) : State :=
  gate s src (corePage c) Reg.IXM_CTRL fun s =>
    if (coreAt s c).state = 4 then ctrlRefused s (masterOf src) c v else resetCore s c
/-- The zeroisation of a reset core's local RAM ends. -/
def coreResetDone (s : State) (c : Nat) : State := if (coreAt s c).state = 0 then coreHalted s c else s

def execIxmCtrlStart (src : Src) (c : CoreNo) (s : State) : Res := .next (ctrlStart s src c.val 1)
def execIxmCtrlHalt (src : Src) (c : CoreNo) (s : State) : Res := .next (ctrlHalt s src c.val 2)
def execIxmCtrlReset (src : Src) (c : CoreNo) (s : State) : Res := .next (ctrlReset s src c.val 3)
def execCoreResetDone (c : CoreNo) (s : State) : Res := .next (coreResetDone s c.val)

/-- A write of IXM_SWI_RAISE. -/
def swiRaise (s : State) (src : Src) (c m : Nat) : State :=
  gate s src (corePage c) Reg.IXM_SWI_RAISE fun s =>
    setReg s (ck c Reg.IXM_SWI_PEND) (reg s (ck c Reg.IXM_SWI_PEND) ||| BitVec.ofNat 32 m)
def execIxmSwiRaise (src : Src) (c : CoreNo) (bits : BitVec 16) (s : State) : Res :=
  .next (swiRaise s src c.val bits.toNat)

/-- The sampling buffer is emptied (R396). -/
def smpEmpty (s : State) (c : Nat) : State :=
  let s := wake s c
  setReg (setCore s c { coreAt s c with samples := [] }) (ck c Reg.SV_SMP_STAT) 0
def smpClear (s : State) (src : Src) (c : Nat) : State :=
  gate s src (corePage c) Reg.SV_SMP_CTRL fun s => smpEmpty s c
def execSvSmpClear (src : Src) (c : CoreNo) (s : State) : Res := .next (smpClear s src c.val)

end Sys2Proof.Machine
end

