-- ==== Sys2Proof/Machine/Depot.lean ====
section
/-! DEFINITION. The Depot SD port: INIT, runs, the backup journal, RAW, retries and fallback, tuning, and the loss of a card
(R470 to R485, R494). -/
namespace Sys2Proof.Machine
open Sys2Proof

/-- The autoload ends: AUTOLOAD_DONE on OK, otherwise ERR reads AUTOLOAD and BOOT_ERR is set (R528, R529). -/
def autoloadEnds (s : State) (ok : Bool) : State :=
  let s := setFld { s with autoload := none } Reg.BOOT_STAT 7 0 5
  if ok then raiseInt s 3 4 else raiseInt (setFld s Reg.BOOT_STAT 23 16 2) 3 2

/-- The SD clock runs or stops (R476). DESIGN CHOICE: the 8 clocks it goes on after the last token are not counted. -/
def sdClock (s : State) (on : Bool) : State :=
  if s.sd.clk = on then s else emit { s with sd := { s.sd with clk := on } } (.pin "DEPOT_CLK" (b2n on))

def setSd (s : State) (d : Sd) : State := { s with sd := d }
/-- The clock a command in hand needs: none throughout a busy phase, nor while the buffer path cannot take the next block; it never
stops during identification (R476). -/
def opClock (o : SdOp) : Bool := o.kind == .start || (!o.full && o.wait != .busy)

/-- The running command replaced, and the clock with it. -/
def setOp (s : State) (o : SdOp) : State := sdClock (setSd s { s.sd with op := some o }) (opClock o)

/-- A command token as it leaves: start and transmission bits, index, argument, CRC-7 and the end bit (R473; PRESUMED layout of the
SD specification). -/
def cmdToken (idx arg : Nat) : Bytes :=
  let b := BitVec.ofNat 8 (0x40 + idx % 64) :: toBe 4 (arg % 2 ^ 32)
  b ++ [BitVec.ofNat 8 (2 * (b.foldl (fun a x => crcStep 2 a x.toNat 8) 0) + 1)]

/-- A command token is sent. -/
def sdCmd (s : State) (idx arg : Nat) : State := emit s (.sdCmd (cmdToken idx arg))

/-- The CRC-16/CCITT of DAT line n over a block, initial value 0: bit 4 + n of each byte, then bit n (R473; PRESUMED layout of the SD
specification for 4-bit width). -/
def datCrc (b : Bytes) (n : Nat) : Nat :=
  b.foldl (fun a x => crcBit 1 (crcBit 1 a (x.toNat.testBit (4 + n))) (x.toNat.testBit n)) 0

/-- Card mode in force (R470). -/
def sdMode (s : State) : Nat := fld s Reg.DEPOT_STAT 5 3
def sdReady (s : State) : Bool := rbit s Reg.DEPOT_STAT 1
def sdPresent (s : State) : Bool := rbit s Reg.DEPOT_STAT 0
/-- A mode that is tuned. -/
def tuned (m : Nat) : Bool := m == 6 || m == 7

/-- The card supply switched on or off. -/
def sdSupply (s : State) (on : Bool) : State := emit (setFld s Reg.DEPOT_STAT 6 6 (b2n on)) (.pin "DEPOT_VEN" (b2n on))

/-- The card is no longer initialised: READY, V18, MODE and DEPOT_CAP at 0. -/
def sdForget (s : State) : State := setReg (setFld s Reg.DEPOT_STAT 5 1 0) Reg.DEPOT_CAP 0

/-- No command is in hand any more, and the clock stops. -/
def sdDrop (s : State) : State := sdClock (setSd s { s.sd with op := none }) false

/-- A command ends with a RESULT: one that ends with DATA_ERR or VERIFY counts a fault, and after INIT the card is READY with its
capacity shown (R494). The loader's read ends for the loader alone: RESULT and CMD_DONE are those of commands (DEDUCED, R484). -/
def sdEnd (s : State) (r : Nat) : State :=
  match s.sd.op with
  | none => s
  | some o =>
    if o.kind = .image then { sdDrop s with load := s.load.map fun l => { l with fin := some r } }
    else
      let s := setFld (sdDrop s) Reg.DEPOT_CMD 7 4 r
      let s := if r = 0x4 || r = 0x9 then countFault s 0x4C else s
      let s := if r = 0x9 then errSynd s 0x4C 0x11 0x20 (fld s Reg.DEPOT_XFER 31 15 % 65536) o.lba else s
      let s := if o.kind = .start && r = 0 then
        setReg (setFld s Reg.DEPOT_STAT 1 1 1) Reg.DEPOT_CAP (BitVec.ofNat 32 o.cap) else s
      let s := raiseInt s 0x4C 1
      if o.auto && r != 0 && s.autoload.isSome then autoloadEnds s false else s

/-- An SD command leaves; the command waits for its response. -/
def sdSend (s : State) (o : SdOp) (idx arg : Nat) : State :=
  sdCmd (setOp s { o with wait := .resp, idx, arg }) idx arg

/-- An application command: CMD55 and the command itself, one exchange. -/
def sdSendApp (s : State) (o : SdOp) (idx arg : Nat) : State :=
  sdSend (sdCmd s 55 (s.sd.rca * 2 ^ 16)) o idx arg

/-- CMD19 at each of the 64 taps (R472). -/
def sdTune (s : State) (o : SdOp) : State :=
  (List.range 64).foldl (fun s _ => sdCmd s 19 0) (setOp s { o with wait := .tune })

/-! ## Runs (R477) -/

/-- Whether the step of the command in hand reads the card, and where its blocks lie: first block, count. -/
def sdReads (o : SdOp) : Bool := o.kind == .read || o.kind == .image || (o.kind == .seg && (o.step == 2 || o.step == 4))
/-- The step moves a journal record (R482). -/
def sdRecord (o : SdOp) : Bool := o.kind == .seg && (o.step == 0 || o.step == 3 || o.step == 4)
def sdFirst (s : State) (o : SdOp) : Nat :=
  if sdRecord o then (reg s Reg.DEPOT_JBASE).toNat + fld s Reg.DEPOT_XFER 31 15 else o.lba
def sdCount (o : SdOp) : Nat := if sdRecord o then 1 else o.count

/-- The command index of a run: single or multiple, read or write. -/
def runCmd (o : SdOp) : Nat := if sdReads o then (if o.run = 1 then 17 else 18) else if o.run = 1 then 24 else 25

/-- The run at the offset in hand begins. -/
def runStart (s : State) (o : SdOp) : State :=
  let o := { o with run := min 8 (sdCount o - o.off), got := 0 }
  sdSend s o (runCmd o) (sdFirst s o + o.off)

/-- A journal record (R481). -/
def journal (s : State) (o : SdOp) : Bytes :=
  let v := o.step != 0
  let head := [0x44, 0x4A, 0x4E, 0x4C, 0x01, (if v then 0xA5 else 0x55 : Byte)] ++ fill 2 0
    ++ toLe 4 (fld s Reg.DEPOT_XFER 31 15) ++ toLe 4 o.lba ++ toLe 2 o.count ++ fill 2 0
    ++ toLe 4 (if v then crc32c o.sent else 0) ++ toLe 8 o.tick ++ toLe 8 ownSerial
  let body := fit 0x1FC head
  body ++ toLe 4 (crc32c body)

/-- n bytes of the shared SRAM as an access reads them that is no core's: errors it corrects are counted, and it ends before the
first word that is damaged or found uncorrectable; whether it read them all (R413, R414). -/
def sramRead (s : State) (a n : Nat) (way : Passage) : (Bytes × Bool) × State :=
  let bad := (way.uncorr.toList.map fun i => i / 8 * 8) ++ (damagedAt s a n).toList.map fun w => w - a
  let m := bad.foldl min n
  let s := (way.corrected.filter fun i => decide (i < m)).foldl (fun s i => memCorr s (a + i)) s
  ((memBytes s a m, m == n), if m < n then sramUncorr s (a + m) else s)

/-- The bytes of a block that cross to the card, with the CRC of each line; one cut short carries none. -/
def sdDataOut (s : State) (b : Bytes) : State :=
  if b.isEmpty then s else emit s (.sdData b (if b.length < 512 then [] else (List.range 4).map (datCrc b)))

/-- The next block of a write run goes to the card: a journal record as the Depot makes it, or 512 bytes of the buffer. A beat that
fails its Seal check ends the command before it reaches the card (R478), and so does a word the buffer cannot give (DESIGN CHOICE:
as R411 ends a DMA transfer; the beats before it have gone out). DATA_CRC is computed over what is sent (R482). -/
def sendBlock (s : State) (o : SdOp) (way : Passage) : State :=
  if sdRecord o then sdDataOut (setOp s { o with wait := .data }) (journal s o)
  else
    let off := 512 * (o.off + o.got)
    let r := sramRead s (o.buf + off) 512 way
    let p := sealPass 0x40 0x4C none off r.1.1 way.hit
    let o := { o with wait := .data, sent := if o.kind = .seg then o.sent ++ p.1 else o.sent }
    let s := sdDataOut (setOp r.2 o) p.1
    if !p.2 then sdEnd (sealFault s 0x4C) 0xD else if !r.1.2 then sdEnd s 0xD else s

/-- The step of a command, or its transfer, is complete. -/
def stepDone (s : State) (o : SdOp) : State :=
  if o.kind ≠ .seg then sdEnd s 0x0
  else if o.step = 2 && crc32c o.back != crc32c o.sent then sdEnd s 0x9
  else if o.step = 4 then sdEnd s (if o.back = journal s o then 0x0 else 0x9)
  else
    let n : SdOp := { o with step := o.step + 1, off := 0, back := [] }
    runStart s n

/-- A run is complete: the boundary at which an ABORT ends the command (R485). -/
def runDone (s : State) (o : SdOp) : State :=
  let o := { o with off := o.off + o.run, fails := 0, cfails := 0 }
  if o.abort then sdEnd s 0xD else if o.off < sdCount o then runStart s o else stepDone s o

/-- DEPOT_DONE advances to the blocks of a transfer that are done (R479). -/
def blocksDone (s : State) (o : SdOp) (n : Nat) : State :=
  if sdRecord o || o.kind == .image || (o.kind == .seg && o.step == 2) then s
  else if fld s Reg.DEPOT_DONE 14 0 < n then setReg s Reg.DEPOT_DONE (BitVec.ofNat 32 n) else s

/-! ## INIT (R471) -/

/-- ACMD41 with S18R, HCS and the supply window; without HCS for a card that CMD8 found silent. -/
def acmd41 (o : SdOp) : Nat := if o.step = 9 then 0x01FF8000 else 0x41FF8000

/-- The CMD6 argument that selects a mode's access function, or queries. -/
def cmd6Arg (mode : Nat) : Nat :=
  2 ^ 31 + 0xFFFFF0 + (if mode = 2 || mode = 4 then 1 else if mode = 6 then 2 else if mode = 7 then 3
    else if mode = 5 then 4 else 0)

/-- The highest mode offered that MAX_MODE and the signalling permit; the lowest of the signalling when none is. -/
def pickMode (v18 : Bool) (maxMode : Nat) (offered : Nat) : Nat :=
  ((if v18 then [7, 6, 5, 4, 3] else [2, 1]).find? fun m => decide (m ≤ maxMode) && offered.testBit m).getD
    (if v18 then 3 else 1)

/-- INIT is complete. -/
def initDone (s : State) (o : SdOp) : State := if o.abort then sdEnd s 0xD else sdEnd s 0x0

/-- A response of INIT: the next step of R471. -/
def initResp (s : State) (o : SdOp) (r : Nat) : State :=
  if o.abort then sdEnd s 0xD
  else
    match o.idx with
    | 8 => sdSendApp s o 41 (acmd41 o)
    | 41 =>
      if !r.testBit 31 then sdSendApp s o 41 (acmd41 o)
      else if !r.testBit 30 || r.testBit 27 then sdEnd s 0xA
      else sdSend s { o with s18 := r.testBit 24 } 2 0
    | 2 => sdSend s o 3 0
    | 3 =>
      let rca := bits r 31 16
      sdSend (setSd s { s.sd with rca }) o 9 (rca * 2 ^ 16)
    | 9 => sdSend s { o with cap := (bits r 61 40 + 1) % 2 ^ 23 } 7 (s.sd.rca * 2 ^ 16)
    | 7 => setOp s { o with wait := .busy }
    | 11 => sdSendApp (setFld s Reg.DEPOT_STAT 2 2 1) o 6 2
    | _ =>
      if o.step = 0 then sdSend s { o with step := 1 } 6 0xFFFFFF
      else if o.step = 1 then setOp s { o with wait := .data }
      else if tuned (sdMode s) then sdTune s o else initDone s o

/-- INIT goes on after the busy of CMD7. -/
def initBusy (s : State) (o : SdOp) : State :=
  if o.abort then sdEnd s 0xD else if o.s18 then sdSend s o 11 0 else sdSendApp s o 6 2

/-- The modes of the CMD6 status block: the highest permitted one is selected. -/
def initModes (s : State) (o : SdOp) (offered : Nat) : State :=
  if o.abort then sdEnd s 0xD
  else
    let m := pickMode (rbit s Reg.DEPOT_STAT 2) (fld s Reg.DEPOT_CFG 2 0) offered
    sdSend (setFld s Reg.DEPOT_STAT 5 3 m) { o with step := 2 } 6 (cmd6Arg m)

/-! ## Failures (R472, R474, R480) -/

/-- The last command again: an application command with its CMD55. -/
def resend (s : State) (o : SdOp) : State :=
  if o.kind = .start && (o.idx = 41 || (o.idx = 6 && o.step = 0)) then sdSendApp s o o.idx o.arg
  else sdSend s o o.idx o.arg

/-- RAW sends its command; with RTYPE none it ends there (R484). -/
def rawSend (s : State) (o : SdOp) : State :=
  if o.rtype = 0 then sdEnd (sdCmd (setOp s o) o.idx o.arg) (if o.abort then 0xD else 0x0) else sdSend s o o.idx o.arg

/-- What stopped is done again in a new mode: the last command of INIT or RAW, the run from its first block; INIT is complete when
its tuning has fallen back to a mode that needs none. -/
def sdAgain (s : State) (o : SdOp) : State :=
  match o.kind with
  | .start =>
    if o.step = 2 then (if o.wait = .tune then initDone s o else sdSend s o 6 (cmd6Arg (sdMode s))) else resend s o
  | .raw => rawSend s o
  | _ => runStart s { o with redo := false }

/-- Fall back one mode, or end the command in the lowest (R474). -/
def sdFallback (s : State) (o : SdOp) (err : Nat) : State :=
  let m := sdMode s
  if m = 0 || m = 1 || m = 3 then sdEnd s err
  else
    let s := raiseInt (setFld s Reg.DEPOT_STAT 5 3 (m - 1)) 0x4C 8
    let s := if o.kind = .start && o.wait = .resp then s else sdCmd s 6 (cmd6Arg (m - 1))
    let o := { o with fails := 0, cfails := 0 }
    if tuned (m - 1) then sdTune s o else sdAgain (setSd s { s.sd with retune := false }) o

/-- The card is declared lost: lines low, supply off, the command ends, READY falls (R480). -/
def sdLost (s : State) : State :=
  let s := emit (emit (sdClock s false) (.pin "DEPOT_CMD" 0)) (.pin "DEPOT_DAT" 0)
  let s := sdForget (sdSupply (setSd s { s.sd with timeouts := 0, retune := false }) false)
  raiseInt (sdEnd s 0x2) 0x4C 4

/-- A command without a good response: sent again once, then the fallback; three timeouts in a row lose the card. A card that gives
CMD8 no response twice is taken for one of version 1 and identified on, without HCS (PRESUMED, the SD specification: such a card is
SDSC, which INIT refuses with CARD_TYPE). -/
def cmdFails (s : State) (o : SdOp) (timeout : Bool) : State :=
  let s := bump s Reg.DEPOT_ERR 15 0 1
  let n := if timeout then s.sd.timeouts + 1 else 0
  let s := setSd s { s.sd with timeouts := n }
  if 3 ≤ n then sdLost s
  else if o.cfails = 0 then resend s { o with cfails := 1 }
  else if o.kind = .start && o.idx = 8 && timeout then
    let o := { o with step := 9, cfails := 0 }
    sdSendApp s o 41 (acmd41 o)
  else sdFallback s o 0x3

/-- A run that had a data error is transferred again, with retuning first in a tuned mode; after the second in a row at one mode the
Depot falls back (R472, R474). -/
def runAgain (s : State) (o : SdOp) : State :=
  if o.fails = 0 then
    let o := { o with fails := 1, redo := false }
    if tuned (sdMode s) then sdTune s o else sdAgain s o
  else sdFallback s { o with redo := false } 0x4

/-- A data error: a run of several blocks is ended by CMD12 and its busy first (R475). -/
def dataFails (s : State) (o : SdOp) : State :=
  let s := bump s Reg.DEPOT_ERR 31 16 1
  if 1 < o.run then sdSend s { o with redo := true } 12 0 else runAgain s o

/-- The widest run of passing taps: its first tap and its length, the first of equals (R472). -/
def widestRun (taps : Nat) : Nat × Nat :=
  ((List.range 64).foldl (fun (acc : Nat × Nat × Nat × Nat) i =>
    let (bs, bl, cs, cl) := acc
    if taps.testBit i then
      let cs := if cl = 0 then i else cs
      if bl < cl + 1 then (cs, cl + 1, cs, cl + 1) else (bs, bl, cs, cl + 1)
    else (bs, bl, 0, 0)) (0, 0, 0, 0)) |> fun a => (a.1, a.2.1)

/-- A tuning sweep ends: the centre of a run of at least 8 taps, or the fallback. -/
def tuneDone (s : State) (o : SdOp) (taps : Nat) : State :=
  let (b, n) := widestRun taps
  if 8 ≤ n then
    let s := setSd s { s.sd with tap := b + n / 2, retune := false }
    if o.abort then sdEnd s 0xD
    else sdAgain s o
  else sdFallback s o 0x4

/-! ## Tokens, data, busy -/

/-- A response arrives whole: DEPOT_RESP shows it, and the command goes on. -/
def respOk (s : State) (o : SdOp) (r : Nat) (way : Passage) : State :=
  let s := setSd s { s.sd with timeouts := 0 }
  let o := { o with cfails := 0 }
  let s := [0, 1, 2, 3].foldl (fun s n => setReg s (Reg.DEPOT_RESP + 4 * n) (BitVec.ofNat 32 (bits r (32 * n + 31) (32 * n)))) s
  match o.kind with
  | .start => initResp s o r
  | .raw =>
    if o.rtype = 3 then setOp s { o with wait := .busy }
    else sdEnd s (if o.abort then 0xD else 0x0)
  | _ =>
    if o.idx = 12 then setOp s { o with wait := .busy }
    else if sdReads o then setOp s { o with wait := .data }
    else sendBlock s o way

/-- A response, or none. The R3 of ACMD41 carries no CRC and is not checked (R473). -/
def sdResponse (s : State) (r : SdResp) : State :=
  match s.sd.op with
  | none => s
  | some o =>
    if o.wait ≠ .resp then s
    else match r with
      | .token b ok way => if ok || (o.kind == .start && o.idx == 41) then respOk s o b.toNat way else cmdFails s o false
      | .timeout => cmdFails s o true

/-- Where the data of a read goes: the shared SRAM, the loader, or, for the comparison of SEG_WRITE, nowhere beyond the Depot. -/
def blockPlace (s : State) (o : SdOp) (b : Bytes) : State :=
  match o.kind with
  | .read => if o.cut then s else memWrite s (o.buf + 512 * (o.off + o.got)) b
  | .image => { s with load := s.load.map fun l => { l with got := l.got ++ b } }
  | _ => s

/-- A block of a read run has passed its CRC and crosses to its sink, where a beat may fail its Seal check (R38, R478); with `full`
the clock stops at the boundary until the next block comes (R476). -/
def blockIn (s : State) (o : SdOp) (b : Bytes) (full : Bool) (hit : Option Hit) : State :=
  let b := fit 512 b
  let sink := if o.kind = .image then 0x30 else 0x40
  let p := if o.kind = .seg || o.cut then (b, true) else sealPass 0x4C sink none (512 * (o.off + o.got)) b hit
  let s := blockPlace s o p.1
  if !p.2 then sdEnd (sealFault s sink) 0xD
  else
    let o := { o with full := false, got := o.got + 1, back := if o.kind = .seg then o.back ++ b else [] }
    let s := blocksDone (setOp s o) o (o.off + o.got)
    if o.got < o.run then setOp s { o with wait := .data, full }
    else if 1 < o.run then sdSend s o 12 0
    else runDone s o

/-- A block of a write run has been accepted. -/
def blockOut (s : State) (o : SdOp) (way : Passage) : State :=
  let o := { o with got := o.got + 1 }
  if o.got < o.run then sendBlock s o way
  else if 1 < o.run then sdSend s o 12 0
  else setOp s { o with wait := .busy }

/-- The data of the run's earlier attempt is dropped before the run is transferred again. -/
def dropRun (o : SdOp) : SdOp :=
  { o with full := false, sent := if o.kind = .seg && o.step = 1 then o.sent.take (512 * o.off) else o.sent
           back := o.back.take (512 * o.off) }
/-- What the loader has of it is dropped too. -/
def dropImage (s : State) (o : SdOp) : State :=
  if o.kind = .image then { s with load := s.load.map fun l =>
    let n := 512 * (o.lba + o.off - l.addr)
    { l with got := l.got.take n, put := min l.put n } } else s

def sdDataBlock (s : State) (d : SdData) : State :=
  match s.sd.op with
  | none => s
  | some o =>
    match o.wait, d with
    | .tune, .taps p => tuneDone s o p.toNat
    | .data, .modes m => if o.kind = .start then initModes s o m.toNat else s
    | .data, .block b ok full hit =>
      if o.kind = .start || !sdReads o then s
      else if ok then blockIn s o b full hit else dataFails (dropImage s o) (dropRun o)
    | .data, .token ok way =>
      if o.kind = .start || sdReads o then s
      else if ok then blockOut s o way else dataFails s (dropRun o)
    | _, _ => s

/-- The card releases DAT0: a write run is confirmed (R475, R479), or a run that failed is transferred again. -/
def cardBusyEnd (s : State) : State :=
  match s.sd.op with
  | none => s
  | some o =>
    if o.wait ≠ .busy then s
    else match o.kind with
      | .start => initBusy s o
      | .raw => sdEnd s (if o.abort then 0xD else 0x0)
      | _ => if o.redo then runAgain s o else runDone (if sdReads o then s else blocksDone s o (o.off + o.run)) o

/-- DAT0 stays low for BUSY_MS (R475). -/
def busyTimeout (s : State) : State :=
  match s.sd.op with
  | none => s
  | some o => if o.wait = .busy then sdEnd s 0x5 else s

/-- RETUNE seconds have passed since the last tuning (R472). -/
def retuneTimer (s : State) : State :=
  if sdReady s && tuned (sdMode s) && fld s Reg.DEPOT_CFG 11 8 != 0 then setSd s { s.sd with retune := true } else s

/-- DEPOT_CD shows no card for 20 µs (R480). -/
def cardGone (s : State) : State :=
  if sdPresent s && domOn s 23 then sdLost (setFld s Reg.DEPOT_STAT 0 0 0) else s
/-- A card is inserted. -/
def cardIn (s : State) : State :=
  if !sdPresent s && domOn s 23 then raiseInt (setFld s Reg.DEPOT_STAT 0 0 1) 0x4C 2 else s

/-- DEPOT_CFG is written: a pin that keeps its level shows the opposite under the other CD_POL (DEDUCED, R494; DESIGN CHOICE: the 20 µs
of R480 have passed). -/
def depotCfg (s : State) (old : Word) : State :=
  if wbit old 3 == rbit s Reg.DEPOT_CFG 3 then s else if sdPresent s then cardGone s else cardIn s

def execRetuneTimer (s : State) : Res := .next (retuneTimer s)
def execCardIn (s : State) : Res := .next (cardIn s)

/-! ## Commands (R484, R485) -/

/-- DEPOT_CMD.BUSY: a command or a loader read runs. -/
def depotBusy (s : State) : Bool :=
  s.sd.op.isSome || (match s.load with
    | some o => o.src == 1 && !o.wait
    | none => false)

/-- A command that ends at once, by way of BUSY. -/
def depotResult (s : State) (r : Nat) : State := raiseInt (setFld s Reg.DEPOT_CMD 7 4 r) 0x4C 1

/-- A write of the value v to DEPOT_CMD: recorded while BUSY, refused in lockdown, without a card, or when the card is not READY. -/
def depotCmd (s : State) (src : Src) (v : Nat) (k : State → State) : State :=
  gateReg s src Reg.DEPOT_CMD fun s =>
    if depotBusy s then errSynd s 0x4C 0x10 (masterOf src) 0 v
    else if s.kerb.lockdown then depotResult s 0xC
    else if !sdPresent s then depotResult s 0x1
    else if bits v 3 0 ≠ 1 && !sdReady s then depotResult s 0xB
    else k s

/-- INIT: the card is power-cycled if it is powered, then identified. -/
def depotInitRun (s : State) (auto : Bool) : State :=
  let s := if rbit s Reg.DEPOT_STAT 6 then sdSupply s false else s
  let s := setSd (sdSupply (sdForget s) true) { s.sd with rca := 0, timeouts := 0, retune := false }
  let o : SdOp := { kind := .start, auto }
  sdSend (sdCmd (setOp s o) 0 0) o 8 0x1AA

/-- The transfer of READ, WRITE and SEG_WRITE as the registers give it. -/
def xferOp (s : State) (k : SdKind) : SdOp :=
  let n := fld s Reg.DEPOT_XFER 14 0
  { kind := k, lba := (reg s Reg.DEPOT_LBA).toNat, buf := (reg s Reg.DEPOT_BUF).toNat
    count := if n = 0 then 16384 else min n 16384, tick := s.tick }

/-- A transfer command: its range in the shared SRAM and on the card, a retune that is due, then its first run (R472, R477). -/
def xferRun (s : State) (k : SdKind) : State :=
  let o := xferOp s k
  let s := setReg s Reg.DEPOT_DONE 0
  if o.buf < sramBase || sramEnd < o.buf + 512 * o.count then depotResult s 0x6
  else if fld s Reg.DEPOT_CAP 22 0 * 1024 < o.lba + o.count then depotResult s 0x8
  else if k = .seg && decide (fld s Reg.DEPOT_CAP 22 0 * 1024 ≤ sdFirst s { o with step := 0 }) then depotResult s 0x8
  else if s.sd.retune then sdTune s o else runStart s o

/-- RAW. -/
def rawRun (s : State) : State :=
  let i := fld s Reg.DEPOT_RAW 5 0
  let arg := (reg s Reg.DEPOT_ARG).toNat
  if i = 17 || i = 18 || i = 19 || i = 24 || i = 25 then depotResult s 0xE
  else
    let o : SdOp := { kind := .raw, idx := i, arg, rtype := fld s Reg.DEPOT_RAW 7 6 }
    if s.sd.retune then sdTune s o else rawSend s o

/-- POWER_OFF. -/
def powerOff (s : State) (src : Src) (v : Nat) : State :=
  gateReg s src Reg.DEPOT_CMD fun s =>
    if depotBusy s then errSynd s 0x4C 0x10 (masterOf src) 0 v else depotResult (sdForget (sdSupply s false)) 0x0

/-- The running command is to end at its next run boundary (R485); the loader's read is no command, and goes on (DEDUCED). -/
def sdAbort (s : State) : State :=
  match s.sd.op with
  | some o => if o.kind = .image then s else setOp s { o with abort := true }
  | none => s

/-- ABORT acts on the running command; with none running it meets the checks of R484 and ends. -/
def depotAbort (s : State) (src : Src) (v : Nat) : State :=
  gateReg s src Reg.DEPOT_CMD fun s =>
    if s.sd.op.any (fun o => o.kind != .image) then sdAbort s else depotCmd s src v fun s => depotResult s 0x0

/-- A Hub reset: the running command is to end as under ABORT, and what it still reads reaches no buffer; the loader, which the Hub
holds, is gone with its read (R524). -/
def sdHubReset (s : State) : State :=
  match s.sd.op with
  | none => s
  | some o => if o.kind = .image then sdDrop s else setOp s { o with abort := true, cut := true }

/-- An unknown command. -/
def depotUnknown (s : State) (src : Src) (v : Nat) : State :=
  gateReg s src Reg.DEPOT_CMD fun s =>
    if depotBusy s then errSynd s 0x4C 0x10 (masterOf src) 0 v else depotResult s 0xF

def execDepotInit (src : Src) (s : State) : Res := .next (depotCmd s src 1 fun s => depotInitRun s false)
def execDepotRead (src : Src) (s : State) : Res := .next (depotCmd s src 2 fun s => xferRun s .read)
def execDepotWrite (src : Src) (s : State) : Res := .next (depotCmd s src 3 fun s => xferRun s .write)
def execSegWrite (src : Src) (s : State) : Res := .next (depotCmd s src 4 fun s => xferRun s .seg)
def execDepotRaw (src : Src) (s : State) : Res := .next (depotCmd s src 5 rawRun)
def execPowerOff (src : Src) (s : State) : Res := .next (powerOff s src 6)
def execDepotAbort (src : Src) (s : State) : Res := .next (depotAbort s src 7)

/-- The Depot loses its power: the card supply goes off first, any command ends with ABORTED (R485). -/
def depotDown (s : State) : State := sdEnd (sdForget (sdSupply s false)) 0xD

end Sys2Proof.Machine
end

