-- ==== Sys2Proof/Machine/Loader.lean ====
section
/-! DEFINITION. The image loader: the image's header and segments, its sources, verification, and how a load ends; and what goes on
when an Arcade unit, a Fountain draw, the Key Table or the Depot is free again (R357 to R364, R485). -/
namespace Sys2Proof.Machine
open Sys2Proof

/-! ## The image loader (R357 to R361, R364) -/

/-- Header fields. -/
def hLen' (h : Bytes) : Nat := leAt h 0x08 4
def hMask (h : Bytes) : Nat := leAt h 0x0C 2
def hSvn (h : Bytes) : Nat := leAt h 0x06 2
def hNseg (h : Bytes) : Nat := byteAt h 0x14
/-- Segment i: DEST, LEN, OFFSET. -/
def hSeg (h : Bytes) (i : Nat) : Nat × Nat × Nat :=
  (leAt h (0x20 + 12 * i) 4, leAt h (0x24 + 12 * i) 4, leAt h (0x28 + 12 * i) 4)
/-- The cores an image loads. -/
def hCores (h : Bytes) : List Nat := bitsOf (hMask h) 16

def zeros (h : Bytes) (off n : Nat) : Bool := (sl h off n).all fun b => b == 0

/-- A destination lies wholly in local RAM or wholly in the shared SRAM. -/
def destOk (a n : Nat) : Bool := decide (a + n ≤ 0x40000) || (decide (sramBase ≤ a) && decide (a + n ≤ sramEnd))

/-- A segment obeys the rules of R357; `lo` is where the segment before it ended in the image. -/
def segOk (h : Bytes) (lo i : Nat) : Bool :=
  let (d, n, o) := hSeg h i
  n != 0 && n % 4 == 0 && d % 4 == 0 && o % 4 == 0 && decide (0x100 ≤ o) && decide (o + n ≤ hLen' h)
    && decide (lo ≤ o) && destOk d n

def segsOk (h : Bytes) : Bool :=
  (List.range (hNseg h)).all fun i => segOk h (if i = 0 then 0 else (hSeg h (i - 1)).2.2 + (hSeg h (i - 1)).2.1) i

/-- Every header field and segment rule of R357. -/
def headerOk (h : Bytes) : Bool :=
  sl h 0 4 == [0x49, 0x58, 0x4D, 0x49] && leAt h 4 2 == 1 && hLen' h % 4 == 0
    && decide (260 ≤ hLen' h) && decide (hLen' h ≤ 8388864) && hMask h != 0 && decide (byteAt h 0x0E ≤ 1)
    && leAt h 0x10 4 % 4 == 0
    && (decide (leAt h 0x10 4 < 0x40000) || (decide (sramBase ≤ leAt h 0x10 4) && decide (leAt h 0x10 4 < sramEnd)))
    && decide (1 ≤ hNseg h) && decide (hNseg h ≤ 8) && zeros h 0x15 3
    && zeros h (0x20 + 12 * hNseg h) (0x60 - 12 * hNseg h) && zeros h 0xA0 32 && segsOk h

/-- STATE_MASK and SERIAL admit this device. -/
def bindingOk (s : State) (h : Bytes) : Bool :=
  bitAt (byteAt h 0x0F) s.life.state && (leAt h 0x18 8 == 0 || leAt h 0x18 8 == ownSerial)

/-- The vendor key verifies images in MANUFACTURED and FAILURE_ANALYSIS (R358). -/
def vendorState (s : State) : Bool := s.life.state == 1 || s.life.state == 6
/-- BLANK, DECOMMISSIONED and NO_RECORD refuse every image (R358). -/
def loadClosed (s : State) : Bool := s.life.state == 0 || s.life.state == 5 || s.life.state == 7

def imageSigned (s : State) (h : Bytes) : Bool :=
  p256Signed (if vendorState s then Config.vendorKey else s.fer.integrator) (h.take 0xC0) (sl h 0xC0 64)

/-- The floor for images of a key (R360). -/
def svnFloor (s : State) (vendor : Bool) : Nat := if vendor then s.fer.svnVendor else s.fer.svnInteg

/-- A load ends: BUSY falls, RESULT, LD_DONE and LD_REJECT; AUTH and ROLLBACK count as faults (R362); a boot load ends the
autoload (R528). -/
def loadDone (s : State) (o : LoadOp) (r : Nat) : State :=
  let s := setFld { s with load := none } Reg.IXM_LD_CMD 7 4 r
  let s := if r = 0x3 || r = 0x4 then countFault s 0x30 else s
  let s := raiseInt s 0x30 (if r = 0 then 4 else 12)
  if o.auto then autoloadEnds s (r == 0) else s

/-- The source of a load: 0 HOST, 1 DEPOT, 2 SHARED. -/
def loadSrc (s : State) : Nat := if fld s Reg.IXM_LD_SRC 1 0 = 3 then 0 else fld s Reg.IXM_LD_SRC 1 0
def loadAddr (s : State) : Nat :=
  (reg s Reg.IXM_LD_ADDR_LO).toNat + (if loadSrc s = 0 then 2 ^ 32 * (reg s Reg.IXM_LD_ADDR_HI).toNat else 0)

/-- A load as the loader's registers describe it when it begins (DESIGN CHOICE: they are latched then). -/
def loadOp (s : State) (start auto : Bool) : LoadOp :=
  { hdr := none, start, auto, src := loadSrc s, addr := loadAddr s, queue := fld s Reg.IXM_LD_SRC 29 16 }

/-- The bytes, of n from a host address, that accesses of at most 4 KiB read before the first that is rejected (R359). -/
def hostGood (q : Queue) : Nat → Nat → Nat → Nat
  | 0, _, _ => 0
  | f + 1, a, n => if n = 0 || !covered q false a (min n 4096) then 0 else min n 4096 + hostGood q f (a + 4096) (n - 4096)

/-- What arrives of n bytes of the image from an offset, from the host or the shared SRAM: it ends before a rejected access, an
address outside the shared SRAM, a word that cannot be given, or a beat that fails its Seal check at the loader, which page 0x30
counts (R38, R359, R413). -/
def loadIn (s : State) (o : LoadOp) (off n : Nat) (img : ImgIn) : Bytes × State :=
  let a := o.addr + off
  let r : (Bytes × Bool) × State :=
    if o.src = 0 then (((img.bytes.take n).take (hostGood (queueAt s o.queue) (n / 4096 + 1) a n), true), s)
    else if a < sramBase then (([], false), s)
    else sramRead s a (min n (sramEnd - a)) img.way
  let p := sealPass (if o.src = 0 then 0x0A else 0x40) 0x30 none off r.1.1 img.way.hit
  (p.1, if p.2 then r.2 else sealFault r.2 0x30)

/-- The target cores go to LOADING with their local RAM zeroised. -/
def startLoading (s : State) (h : Bytes) : State :=
  (hCores h).foldl (fun s c =>
    memClear (setCore s c { coreAt s c with state := 4 }) (lramBase c) (lramBase c + 0x40000)) s

/-- The Depot reads n card blocks of the image from its block k, in runs as a READ does, after a retune that is due (R472, R477, R485).
Blocks beyond the card, or a card that is not READY, end the read at once. -/
def imageRead (s : State) (o : LoadOp) (k n : Nat) : State :=
  let ok := sdReady s && domOn s 23 && decide (o.addr + k + n ≤ fld s Reg.DEPOT_CAP 22 0 * 1024)
  let s := { s with load := some { o with fin := if ok then none else some 0xB } }
  let op : SdOp := { kind := .image, lba := o.addr + k, count := n }
  if !ok then s else if s.sd.retune then sdTune s op else runStart s op

/-- The blocks of an image after its first. -/
def imageBlocks (h : Bytes) : Nat := (hLen' h + 511) / 512 - 1

/-- The signature and the floor, on the unit R276 chooses; then the body streams (R358 to R360). -/
def loadVerify (s : State) (o : LoadOp) (h : Bytes) : State :=
  let o := { o with hdr := some h, arc := false, put := 0x100, vendor := vendorState s }
  withArc s (loadDone s o 0x7) (fun s => { s with load := some { o with arc := true } }) fun s =>
    if !imageSigned s h then loadDone s o 0x3
    else if hSvn h < svnFloor s o.vendor then loadDone s o 0x4
    else
      let s := { startLoading s h with load := some o }
      if o.src = 1 && imageBlocks h ≠ 0 then imageRead s o 1 (imageBlocks h) else s

/-- The sequence of R359 once its header has been read, or could not be. -/
def loadRun (s : State) (o : LoadOp) (h : Bytes) : State :=
  if h.length < 256 then loadDone s o (if loadClosed s then 0x1 else 0x6)
  else if (hCores h).any fun c => (coreAt s c).state ≠ 1 then loadDone s o 0x5
  else if loadClosed s then loadDone s o 0x1
  else
    let s := setReg s Reg.IXM_LD_INFO (BitVec.ofNat 32 (hNseg h % 16 * 2 ^ 16 + hMask h))
    if !headerOk h then loadDone s o 0x2
    else if !bindingOk s h then loadDone s o 0x9
    else loadVerify s o h

/-- A load begins to read its header: from the host or the shared SRAM at once, from the card by the Depot, one block first (DESIGN
CHOICE: IMAGE_LEN is not known before), and once a running Depot command has ended (R485). A host's bytes that did not come with the
write come with IMAGE_LOAD_DONE. -/
def loadBegin (s : State) (o : LoadOp) (img : Option ImgIn) : State :=
  if o.src = 1 then
    if s.sd.op.isSome then { s with load := some { o with wait := true } } else imageRead s { o with wait := false } 0 1
  else if o.src = 0 && img.isNone then { s with load := some o }
  else let r := loadIn s o 0 256 (img.getD {}); loadRun r.2 o r.1

/-- A write of the value v to IXM_LD_CMD: recorded while BUSY, or while the autoload runs (R528). -/
def ldCmd (s : State) (src : Src) (v : Nat) (k : State → State) : State :=
  gateReg s src Reg.IXM_LD_CMD fun s =>
    if s.load.isSome || fld s Reg.BOOT_STAT 7 0 = 6 then errSynd s 0x30 0x12 (masterOf src) 0 v else k s

/-- LOAD or LOAD_START. -/
def loadCmd (s : State) (src : Src) (v : Nat) (start : Bool) (img : Option ImgIn) : State :=
  ldCmd s src v fun s => loadBegin s (loadOp s start false) img

/-- A load that waits for its Arcade unit is tried again (R276). -/
def resumeLoad (s : State) : State :=
  match s.load with
  | some o => match o.arc, o.hdr with
    | true, some h => loadVerify s o h
    | _, _ => s
  | none => s

/-- Where a segment lands: every target core's local RAM, or the shared SRAM. -/
def segTargets (h : Bytes) (d : Nat) : List Nat :=
  if d < 0x40000 then (hCores h).map fun c => lramBase c + d else [d]

/-- Bytes of the image from an offset are written to the segments they belong to. -/
def writePart (s : State) (h : Bytes) (off : Nat) (b : Bytes) : State :=
  (List.range (hNseg h)).foldl (fun s i =>
    let (d, n, o) := hSeg h i
    let lo := max o off
    let hi := min (o + n) (off + b.length)
    if hi ≤ lo then s
    else (segTargets h (d + (lo - o))).foldl (fun s a => memWrite s a (sl b (lo - off) (hi - lo))) s) s

/-- A failed load: the targets' local RAM and every shared segment written, up to the image bytes that arrived, are zeroised, the
cores HALTED (R359, R360). -/
def loadFails (s : State) (o : LoadOp) (h : Bytes) (arrived r : Nat) : State :=
  let s := (List.range (hNseg h)).foldl (fun s i =>
    let (d, n, off) := hSeg h i
    if d < 0x40000 then s else memClear s d (d + min n (arrived - off))) s
  let s := (hCores h).foldl (fun s c => memClear s (lramBase c) (lramBase c + 0x40000)) s
  loadDone ((hCores h).foldl coreHalted s) o r

/-- The floor of the key that verified the image is raised and confirmed, three attempts at most; each failed one counts a fault
(R360, R415). -/
def raiseFloor (s : State) (o : LoadOp) (h : Bytes) (fails : Nat) : Bool × State :=
  if byteAt h 0x0E % 2 = 0 || decide (hSvn h ≤ svnFloor s o.vendor) then (true, s)
  else
    let s := (List.range (min 3 fails)).foldl (fun s _ => countFault s 0x30) s
    if 3 ≤ fails then (false, s)
    else (true, { s with fer :=
      if o.vendor then { s.fer with svnVendor := hSvn h } else { s.fer with svnInteg := hSvn h } })

/-- The start step of LOAD_START, which lockdown ignores and records (R428). -/
def loadStarts (s : State) (c : Nat) (pc : Word) : State :=
  if s.kerb.lockdown then ctrlRefused s 0x20 c 2 else startCore s c pc

/-- The loaded cores are reset, HALTED, and started by LOAD_START. -/
def loadCores (s : State) (o : LoadOp) (h : Bytes) : State :=
  let pc : Word := BitVec.ofNat 32 (leAt h 0x10 4)
  let v := b2n o.vendor
  (hCores h).foldl (fun s c =>
    let s := setReg (coreFresh s c 1) (ck c Reg.IXM_START_PC) pc
    let s := coreHalted (setReg s (ck c Reg.IXM_IMG_SVN) (BitVec.ofNat 32 (v * 2 ^ 31 + hSvn h))) c
    if o.start then loadStarts s c pc else s) s

/-- The body is in its segments: its hash decides, then the floor (R359, R360). -/
def loadHash (s : State) (o : LoadOp) (h body : Bytes) (fails : Nat) : State :=
  if sha256 body != sl h 0x80 32 then loadFails s o h (hLen' h) 0x3
  else
    let r := raiseFloor s o h fails
    if !r.1 then loadFails r.2 o h (hLen' h) 0x8 else loadDone (loadCores r.2 o h) o 0x0

/-- The body has streamed from the host or the shared SRAM, each segment written as it came; of a card's image the Depot has read the
last block. A header that a host still owes comes first. -/
def imageLoadDone (s : State) (img : ImgIn) (fails : Nat) : State :=
  match s.load with
  | none => s
  | some o =>
    if o.wait || o.arc then s
    else match o.hdr with
    | none => if o.src = 0 then let r := loadIn s o 0 256 img; loadRun r.2 o r.1 else s
    | some h =>
      let n := hLen' h - 0x100
      if o.src = 1 then
        if o.got.length < hLen' h then s
        else loadHash (writePart s h o.put (o.got.drop o.put)) o h (sl o.got 0x100 n) fails
      else
        let r := loadIn s o 0x100 n img
        let s := writePart r.2 h 0x100 r.1
        if r.1.length < n then loadFails s o h (0x100 + r.1.length) 0x6 else loadHash s o h r.1 fails

/-- What has arrived from the card goes on to its segments; a read that failed gives SOURCE (R485). -/
def loadStream (s : State) : State :=
  match s.load with
  | none => s
  | some o =>
    match o.hdr with
    | none => s
    | some h =>
      if o.src ≠ 1 || o.arc then s
      else
        let s := { writePart s h o.put (o.got.drop o.put) with load := some { o with put := max o.put o.got.length } }
        match o.fin with
        | some r => if r = 0 then s else loadFails s o h o.got.length 0x6
        | none => s

/-- What the loader does after a step of the Depot: a load that waited for its end begins, what arrived goes on to its segments, and a
read that failed gives SOURCE (R485); the boot image follows on its INIT (R528). -/
def loaderGo (s : State) : State :=
  match s.load with
  | none =>
    match s.autoload with
    | some (start, lba) =>
      if fld s Reg.BOOT_STAT 7 0 = 6 && sdReady s && s.sd.op.isNone then
        let s := setReg (setReg s Reg.IXM_LD_SRC 1) Reg.IXM_LD_ADDR_LO (BitVec.ofNat 32 lba)
        loadBegin s (loadOp s start true) none
      else s
    | none => s
  | some o =>
    if o.src ≠ 1 || o.arc then s
    else if o.wait then loadBegin s o none
    else match o.hdr, o.fin with
    | none, some r => loadStream (loadRun s o (if r = 0 then o.got.take 256 else []))
    | none, none => s
    | some _, _ => loadStream s

def execLoad (src : Src) (img : ImgIn) (s : State) : Res := .next (loaderGo (loadCmd s src 1 false (some img)))
def execLoadStart (src : Src) (img : ImgIn) (s : State) : Res := .next (loaderGo (loadCmd s src 2 true (some img)))
def execImageLoadDone (img : ImgIn) (fails : Nat) (s : State) : Res := .next (loaderGo (imageLoadDone s img fails))

def execSdResponse (r : SdResp) (s : State) : Res := .next (loaderGo (sdResponse s r))
def execSdDataBlock (d : SdData) (s : State) : Res := .next (loaderGo (sdDataBlock s d))
def execCardBusyEnd (s : State) : Res := .next (loaderGo (cardBusyEnd s))
def execBusyTimeout (s : State) : Res := .next (loaderGo (busyTimeout s))
def execCardLost (s : State) : Res := .next (loaderGo (cardGone s))

/-! ## What goes on when an Arcade unit, a Fountain draw or the Key Table is free again (R196, R276, R294) -/

/-- Every operation that waits for a unit, a draw or the end of a zeroisation is tried again. -/
def resumeAll (s : State) : State := loaderGo (resumeLoad (resumeTransition (resumeXing (resumeWaits s))))

def execDrbgGenerate (turn : DrbgTurn) (s : State) : Res := .next (resumeAll (drbgGenerate s turn.sw turn.hit))
def execZeroisingEnd (s : State) : Res := .next (resumeAll (zeroisingEnd s))
def execArcZeroiseDone (n : ArcNo) (s : State) : Res := .next (resumeAll (arcZeroised s n.val))
def execArcKatDone (n : ArcNo) (ok : Bool) (s : State) : Res := .next (resumeAll (arcKatDone s n.val ok))

end Sys2Proof.Machine
end

