-- ==== Sys2Proof/Machine/Postbox.lean ====
section
/-! DEFINITION. The Postbox contact-card ports: activation and ATR, protocol selection, T=0 and T=1 exchanges, deactivation
(R486 to R493, R495). -/
namespace Sys2Proof.Machine
open Sys2Proof

/-- A port, and the state with it replaced. -/
def port (s : State) (p : Nat) : PbPort := if p = 0 then s.pb0 else s.pb1
def setPort (s : State) (p : Nat) (v : PbPort) : State := if p = 0 then { s with pb0 := v } else { s with pb1 := v }
/-- A register of port p, by its name for port 0. -/
def pr (p k : Nat) : Nat := k + 0x40 * p
/-- The buffer of port p. -/
def pbBuf (p : Nat) : Nat := Reg.PB_BUF + 0x200 * p

def pbActive (s : State) (p : Nat) : Bool := rbit s (pr p Reg.PB_STAT) 1
def pbPresent (s : State) (p : Nat) : Bool := rbit s (pr p Reg.PB_STAT) 0
def pbBusy (s : State) (p : Nat) : Bool := (port s p).cmd != 0

/-- A pin of port p is driven, by its name for port 0 and for port 1. -/
def pbPin (s : State) (p : Nat) (a b : String) (v : Nat) : State := emit s (.pin (if p = 0 then a else b) v)

/-- The card clock of port p: its INC, 0 while it is stopped. -/
def pbClock (s : State) (p inc : Nat) : State := pbPin (setPort s p { port s p with clk := inc }) p "PB0_CLK" "PB1_CLK" inc

/-- The highest card clock of an Fi index as an INC (R488; PRESUMED: f(max) of ISO/IEC 7816-3, in units of 0.5 MHz). -/
def fiCap (fi : Nat) : Nat := [8, 10, 12, 16, 24, 32, 40, 10, 10, 10, 15, 20, 30, 40, 10, 10].getD fi 10 * 65536 / 100

/-- Deactivation: RST low, CLK low, I/O low, VCC off; the buffer is zeroised, PB_STAT keeps PRESENT alone (R491, R495, R539). -/
def deactivate (s : State) (p : Nat) : State :=
  let s := setReg s (pr p Reg.PB_STAT) (reg s (pr p Reg.PB_STAT) &&& 1)
  let s := (List.range 128).foldl (fun s i => setReg s (pbBuf p + 4 * i) 0) s
  let s := setPort s p { cmd := (port s p).cmd, classes := (port s p).classes }
  let s := pbPin (pbClock (pbPin s p "PB0_RST" "PB1_RST" 0) p 0) p "PB0_IO" "PB1_IO" 0
  pbPin (pbPin s p "PB0_VCC_EN" "PB1_VCC_EN" 0) p "PB0_VSEL" "PB1_VSEL" 0

/-- A command that ends, or one refused at once: RESULT and CMD_DONE. -/
def pbResult (s : State) (p r : Nat) : State :=
  raiseInt (setFld s (pr p Reg.PB_CMD) 7 4 r) 0x4D (2 ^ p)

/-- A running command ends. -/
def pbEnd (s : State) (p r : Nat) : State :=
  let s := setPort s p { port s p with cmd := 0, phase := .idle, classes := [] }
  pbResult (if r = 0x7 then countFault s 0x4D else s) p r

/-- A running command ends and the port deactivates. -/
def pbEndOff (s : State) (p r : Nat) : State := pbEnd (deactivate s p) p r

/-- Bytes received are placed in the buffer, RX_LEN with them. -/
def pbReceive (s : State) (p : Nat) (b : Bytes) : State :=
  setFld (bufPut s (pbBuf p) 0 b) (pr p Reg.PB_LEN) 25 16 b.length

/-! ## Activation (R486) -/

/-- RST is held low for 40,000 clocks, then driven high. -/
def pbReset (s : State) (p : Nat) : State := pbPin (pbPin s p "PB0_RST" "PB1_RST" 0) p "PB0_RST" "PB1_RST" 1

/-- A cold reset in a class: VCC on, I/O to reception, CLK at the activation frequency, RST low, then high (R486, R539). -/
def coldReset (s : State) (p cls : Nat) (v : PbPort) : State :=
  let s := setReg s (pr p Reg.PB_STAT) (wput (reg s (pr p Reg.PB_STAT) &&& 1) 3 2 cls)
  let s := pbPin (pbPin (setPort s p { v with phase := .atr }) p "PB0_VSEL" "PB1_VSEL" cls) p "PB0_VCC_EN" "PB1_VCC_EN" 1
  pbReset (pbClock (pbPin s p "PB0_IO" "PB1_IO" 1) p (fld s (pr p Reg.PB_CLK) 15 0)) p

/-- The classes of PB_CFG, in the order C, B, A. -/
def pbClasses (s : State) (p : Nat) : List Nat :=
  let m := fld s (pr p Reg.PB_CFG) 2 0
  let m := if m = 0 then 1 else m
  (bitsOf m 3).map (· + 1)

/-- ACTIVATE: an active port is deactivated first, then the first class is tried. -/
def activate (s : State) (p : Nat) : State :=
  let s := if pbActive s p then deactivate s p else s
  match pbClasses s p with
  | [] => s
  | c :: l => coldReset s p c { cmd := 1, classes := l }

/-- A class fails: the port deactivates and the next class is tried after 10 ms; the last class's result is reported. A WARM_RESET
has the current class alone. -/
def classFails (s : State) (p r : Nat) : State :=
  let v := port s p
  if v.classes.isEmpty then pbEndOff s p r
  else
    let s := deactivate s p
    setPort s p { port s p with phase := .retry, classes := v.classes }

/-- 10 ms after a failed class. -/
def classRetry (s : State) (p : Nat) : State :=
  let v := port s p
  if v.phase ≠ .retry then s
  else match v.classes with
    | [] => s
    | c :: l => coldReset s p c { cmd := v.cmd, classes := l }

def execClassRetry (p : PortNo) (s : State) : Res := .next (classRetry s p.val)

/-! ## The ATR (R487, R488; its layout is ISO/IEC 7816-3's) -/

/-- The interface bytes of an ATR: the T of TD(i-1) with TA(i), TB(i), TC(i), and the rest after the last TD. -/
structure AtrGroup where
  t : Nat
  ta : Option Nat
  tb : Option Nat
  tc : Option Nat

/-- Take one interface byte when it is present. -/
def atrTake (present : Bool) (b : Bytes) : Option Nat × Bytes :=
  if present then (some (byteAt b 0), b.drop 1) else (none, b)

/-- The interface groups, the T of every TD, and the bytes after them. -/
def atrGroups : Nat → Nat → Nat → Bytes → List AtrGroup × Bytes
  | 0, _, _, b => ([], b)
  | f + 1, y, t, b =>
    let a := atrTake (y.testBit 0) b
    let bb := atrTake (y.testBit 1) a.2
    let c := atrTake (y.testBit 2) bb.2
    let d := atrTake (y.testBit 3) c.2
    let g : AtrGroup := { t, ta := a.1, tb := bb.1, tc := c.1 }
    match d.1 with
    | none => ([g], d.2)
    | some td =>
      let r := atrGroups f (td / 16) (td % 16) d.2
      (g :: r.1, r.2)

/-- The groups of an ATR, and the historical bytes with TCK. -/
def atrParse (b : Bytes) : List AtrGroup × Bytes := atrGroups 8 (byteAt b 1 / 16) 0 (b.drop 2)

/-- The protocols an ATR offers, in order: those of its TD bytes, T=0 without TD1. -/
def atrOffers (g : List AtrGroup) : List Nat :=
  let l := ((g.drop 1).map (·.t)).filter fun t => t != 15
  if g.length ≤ 1 then [0] else l

/-- TCK is required when a T other than 0 is offered or T=15 stands. -/
def atrNeedsTck (g : List AtrGroup) : Bool := (g.drop 1).any fun x => x.t != 0

/-- The class indicator: bits A 0, B 1, C 2 of the TA after T=15. -/
def atrClasses (g : List AtrGroup) : Option Nat :=
  ((g.drop 1).find? fun x => x.t == 15).bind fun x => x.ta.map fun v => v % 64

/-- TS is 0x3B or 0x3F. -/
def tsOk (b : Bytes) : Bool := byteAt b 0 == 0x3B || byteAt b 0 == 0x3F
/-- TCK makes the exclusive or of T0 to TCK zero. -/
def tckOk (b : Bytes) : Bool := (b.drop 1).foldl (fun a x => a ^^^ x) 0 == 0

/-- The first group of T=1 bytes: TA3, TB3, TC3. -/
def atrT1 (g : List AtrGroup) : Option AtrGroup := (g.drop 2).find? fun x => x.t == 1

/-! ## T=1 blocks -/

/-- The ISO/IEC 13239 CRC of a block. -/
def blockCrc (b : Bytes) : Nat :=
  let step (a : Nat) (x : Byte) : Nat :=
    (List.range 8).foldl (fun a i => if (a.testBit 0).xor (x.toNat.testBit i) then (a / 2) ^^^ 0x8408 else a / 2) a
  (b.foldl step 0xFFFF) ^^^ 0xFFFF

/-- A block: NAD 0x00, PCB, LEN, INF and its error code, LRC or CRC. -/
def t1Block (v : PbPort) (pcb : Nat) (inf : Bytes) : Bytes :=
  let b : Bytes := [0, BitVec.ofNat 8 pcb, BitVec.ofNat 8 inf.length] ++ inf
  b ++ (if v.crc then toBe 2 (blockCrc b) else [b.foldl (fun a x => a ^^^ x) 0])

/-- A block leaves and is remembered. -/
def t1Send (s : State) (p : Nat) (v : PbPort) (b : Bytes) : State := emit (setPort s p { v with last := b }) (.card p b)

/-- R-blocks and S(RESYNCH) sent. -/
def pbRetrans (s : State) (p : Nat) : State := bump s (pr p Reg.PB_ERR) 31 16 1
def pbRepeat (s : State) (p : Nat) : State := bump s (pr p Reg.PB_ERR) 15 0 1

/-- What EXCHANGE sends. -/
def txBytes (s : State) (p : Nat) : Bytes := bufGet s (pbBuf p) 0 (fld s (pr p Reg.PB_LEN) 9 0)

/-- The next I-block of the APDU, with M while more follows. -/
def t1SendI (s : State) (p : Nat) (v : PbPort) : State :=
  let tx := txBytes s p
  let inf := (tx.drop v.sent).take (min 254 v.ifsc)
  let more := decide (v.sent + inf.length < tx.length)
  let v := { v with lastLen := inf.length, rblocks := 0 }
  t1Send s p v (t1Block v (b2n v.ns * 64 + b2n more * 32) inf)

/-- An R-block: N(R), and error 0 or 1. RETRANS counts it whether it acknowledges or asks again (R495). -/
def t1SendR (s : State) (p : Nat) (v : PbPort) (err : Nat) : State :=
  t1Send (pbRetrans s p) p v (t1Block v (0x80 + b2n v.nr * 16 + err) [])

/-- T1_ERR: the exchange ends and the port deactivates. -/
def t1Err (s : State) (p : Nat) : State := pbEndOff s p 0x7

/-- A block with an error, or none within BWT: an R-block at most twice, S(RESYNCH) up to 3 times, then T1_ERR (R490). -/
def t1Error (s : State) (p : Nat) (v : PbPort) (err : Nat) : State :=
  if v.rblocks < 2 && v.resyncs = 0 then
    t1SendR s p { v with rblocks := v.rblocks + 1 } err
  else if v.resyncs < 3 then
    t1Send (pbRetrans s p) p { v with resyncs := v.resyncs + 1 } (t1Block v 0xC0 [])
  else t1Err s p

/-- Activation ends with OK, the ATR in the buffer, and the clock moves to the operating frequency (R487, R488). -/
def activated (s : State) (p : Nat) : State :=
  let inc := min (fld s (pr p Reg.PB_CLK) 31 16) (fiCap (fld s (pr p Reg.PB_STAT) 11 8))
  pbEnd (pbReceive (pbClock (setFld s (pr p Reg.PB_STAT) 1 1 1) p inc) p (port s p).atr) p 0x0

/-- T=1 begins with S(IFS request), IFSD 254 (R490). -/
def t1SendIfs (s : State) (p : Nat) (v : PbPort) : State :=
  t1Send s p { v with phase := .ifs, ns := false, nr := false, rblocks := 0 } (t1Block v 0xC1 [254])

/-- The protocol is chosen and PPS is behind: T=1 begins with S(IFS request), IFSD 254 (R490). -/
def protoReady (s : State) (p : Nat) : State :=
  let v := port s p
  if rbit s (pr p Reg.PB_STAT) 4 then
    t1SendIfs s p { v with resyncs := 0 }
  else activated s p

/-- PROTO, FI and DI in PB_STAT. -/
def setProto (s : State) (p t fi di : Nat) : State :=
  let k := pr p Reg.PB_STAT
  setFld (setFld (setFld s k 4 4 t) k 11 8 fi) k 15 12 di

/-- The PPS request: PPSS, PPS0, PPS1, PCK. -/
def ppsRequest (t ta1 : Nat) : Bytes :=
  let b : Bytes := [0xFF, BitVec.ofNat 8 (0x10 + t), BitVec.ofNat 8 ta1]
  b ++ [b.foldl (fun a x => a ^^^ x) 0]

/-- A whole ATR that has passed its checks: specific or negotiable mode (R488). -/
def atrAccept (s : State) (p : Nat) (b : Bytes) (g : List AtrGroup) : State :=
  let v := port s p
  let offers := (atrOffers g).filter fun t => t == 0 || t == 1
  let t1 := atrT1 g
  let v := { v with atr := b, ifsc := ((t1.bind (·.ta)).getD 32), crc := ((t1.bind (·.tc)).getD 0) % 2 == 1 }
  let ta1 := ((g.head?.bind (·.ta)).getD 0x11)
  let s := setPort s p v
  match (g.drop 1).head?.bind (·.ta) with
  | some ta2 =>
    let t := ta2 % 16
    if t > 1 then pbEndOff s p 0x4
    else if ta2.testBit 4 then protoReady (setProto s p t 1 1) p
    else protoReady (setProto s p t (ta1 / 16) (ta1 % 16)) p
  | none =>
    let pref := fld s (pr p Reg.PB_CFG) 5 5
    match (if offers.contains pref then some pref else offers.head?) with
    | none => pbEndOff s p 0x4
    | some t =>
      let s := setProto s p t 1 1
      if rbit s (pr p Reg.PB_CFG) 4 && !v.noPps then
        emit (setPort s p { v with phase := .pps, last := ppsRequest t ta1 }) (.card p (ppsRequest t ta1))
      else protoReady s p

/-- An ATR arrives whole. -/
def atrReceive (s : State) (p : Nat) (b : Bytes) : State :=
  let v := port s p
  if v.phase ≠ .atr then s
  else if !tsOk b then classFails s p 0x3
  else
    let b := b.take 33
    let (g, rest) := atrParse b
    let hist := byteAt b 1 % 16
    let cls := fld s (pr p Reg.PB_STAT) 3 2
    if (atrClasses g).any fun m => !m.testBit (3 - cls) then classFails s p 0x4
    else if rest.length != hist + b2n (atrNeedsTck g) || (atrNeedsTck g && !tckOk b) then pbEndOff s p 0x3
    else if !((atrOffers g).any fun t => t == 0 || t == 1) then pbEndOff s p 0x4
    else atrAccept s p b g

def execAtrReceive (p : PortNo) (bytes : Bytes) (s : State) : Res := .next (atrReceive s p.val bytes)

/-- A failed PPS: deactivate, cold-reset again in the same class, and go on without PPS. -/
def ppsFails (s : State) (p : Nat) : State :=
  let cls := fld s (pr p Reg.PB_STAT) 3 2
  let v := port s p
  coldReset (deactivate s p) p cls { cmd := v.cmd, classes := v.classes, noPps := true }

/-- The card's PPS response: identical to the request, or not. -/
def ppsResponse (s : State) (p : Nat) (b : Option Bytes) : State :=
  let v := port s p
  if v.phase ≠ .pps then s
  else if b = some v.last then
    let ta1 := byteAt v.last 2
    let s := setProto s p (byteAt v.last 1 % 16) (ta1 / 16) (ta1 % 16)
    protoReady (setFld s (pr p Reg.PB_STAT) 5 5 1) p
  else ppsFails s p

def execPpsResponse (p : PortNo) (bytes : Option Bytes) (s : State) : Res := .next (ppsResponse s p.val bytes)

/-! ## T=0 (R489) -/

/-- Bytes of the TPDU sent from the mark on, to its end or one of them. -/
def t0Send (s : State) (p : Nat) (v : PbPort) (n : Nat) : State :=
  let b := ((txBytes s p).drop v.sent).take n
  emit (setPort s p { v with sent := v.sent + b.length }) (.card p b)

/-- Data bytes still to be received: P3, 0 for 256, when the TPDU carries no data. -/
def t0Want (s : State) (p : Nat) (v : PbPort) : Nat :=
  let tx := txBytes s p
  if 5 < tx.length then 0
  else (if byteAt tx 4 = 0 then 256 else byteAt tx 4) - v.rx.length

/-- A procedure byte (R489). -/
def t0Procedure (s : State) (p : Nat) (v : PbPort) (b : Nat) : State :=
  let tx := txBytes s p
  let ins := byteAt tx 1
  if b = 0x60 then s
  else if b / 16 = 6 || b / 16 = 9 then setPort s p { v with phase := .sw2, sw1 := b }
  else if b = ins then
    (if 5 < tx.length then t0Send s p v (tx.length - v.sent)
     else if t0Want s p v = 0 then s else setPort s p { v with phase := .recvAll })
  else if b = 255 - ins then
    (if 5 < tx.length then t0Send s p v 1
     else if t0Want s p v = 0 then s else setPort s p { v with phase := .recvOne })
  else s

/-- A good character. -/
def t0Char (s : State) (p : Nat) (v : PbPort) (b : Byte) : State :=
  match v.phase with
  | .proc => t0Procedure s p v b.toNat
  | .recvAll =>
    let v := { v with rx := v.rx ++ [b] }
    setPort s p { v with phase := if t0Want s p v = 0 then .proc else .recvAll }
  | .recvOne => setPort s p { v with rx := v.rx ++ [b], phase := .proc }
  | .sw2 => pbEnd (pbReceive s p (v.rx ++ [BitVec.ofNat 8 v.sw1, b])) p 0x0
  | _ => s

/-- A port that exchanges under T=0. -/
def inT0 (v : PbPort) : Bool := v.phase == .proc || v.phase == .recvAll || v.phase == .recvOne || v.phase == .sw2

/-- A character received with bad parity is signalled to the card, which sends it again: I/O is pulled low and released. -/
def t0Signal (s : State) (p : Nat) : State :=
  pbPin (pbPin (pbRepeat s p) p "PB0_IO" "PB1_IO" 0) p "PB0_IO" "PB1_IO" 1

/-- The card signals an error in a character sent: it is repeated up to 4 times, then the exchange ends with PARITY (R489). -/
def t0SendAgain (s : State) (p : Nat) (v : PbPort) (i : Nat) : State :=
  let n := if v.repAt = i then v.rep else 0
  if v.sent ≤ i then s
  else if n < 4 then
    emit (setPort (pbRepeat s p) p { v with repAt := i, rep := n + 1 }) (.card p [BitVec.ofNat 8 (byteAt (txBytes s p) i)])
  else pbEndOff s p 0x6

/-- What the card puts on the line. While the ATR is received only a bad character counts here: the good ones arrive together as
ATR_RECEIVE (R487; DESIGN CHOICE). -/
def t0Receive (s : State) (p : Nat) (e : T0Ev) : State :=
  let v := port s p
  if v.phase == .atr then
    match e with
    | .char _ false => t0Signal s p
    | _ => s
  else if !inT0 v then s
  else match e with
    | .char b true => t0Char s p v b
    | .char _ false => t0Signal s p
    | .errorSignal i => t0SendAgain s p v i.toNat

def execT0CharacterReceive (p : PortNo) (ev : T0Ev) (s : State) : Res := .next (t0Receive s p.val ev)

/-! ## T=1 (R490) -/

/-- An I-block in sequence: its INF is added; chained by the card, or the response is whole. -/
def t1InfoBlock (s : State) (p : Nat) (v : PbPort) (pcb : Nat) (inf : Bytes) : State :=
  let rx := v.rx ++ inf
  if v.sent + v.lastLen < (txBytes s p).length || pcb.testBit 6 != v.nr then t1Error s p v 2
  else if 512 < rx.length then pbEnd s p 0x9
  else
    let v := { v with rx, nr := !v.nr, rblocks := 0, resyncs := 0 }
    if pcb.testBit 5 then t1SendR s p v 0
    else pbEnd (pbReceive (setPort s p { v with ns := !v.ns }) p rx) p 0x0

/-- An R-block: the next I-block of the chain when it acknowledges the last, the last block again otherwise. -/
def t1Ready (s : State) (p : Nat) (v : PbPort) (pcb : Nat) : State :=
  if pcb.testBit 4 != v.ns && decide (v.sent + v.lastLen < (txBytes s p).length) then
    t1SendI s p { v with ns := !v.ns, sent := v.sent + v.lastLen, resyncs := 0 }
  else emit (if byteAt v.last 1 / 64 = 2 then pbRetrans s p else s) (.card p v.last)

/-- An S-block: WTX and IFS are answered, ABORT ends the exchange, a RESYNCH response starts it again. -/
def t1Supervisory (s : State) (p : Nat) (v : PbPort) (pcb : Nat) (inf : Bytes) : State :=
  if pcb = 0xC3 then emit s (.card p (t1Block v 0xE3 inf))
  else if pcb = 0xC1 then
    emit (setPort s p { v with ifsc := byteAt inf 0 }) (.card p (t1Block v 0xE1 inf))
  else if pcb = 0xC2 then t1Err s p
  else if pcb = 0xE0 && v.resyncs != 0 then
    t1SendI s p { v with ns := false, nr := false, sent := 0, rx := [], resyncs := 0 }
  else t1Error s p v 2

/-- A T=1 block arrives, good or with an error. -/
def t1Receive (s : State) (p : Nat) (b : Bytes) (good : Bool) : State :=
  let v := port s p
  if v.phase ≠ .t1 && v.phase ≠ .ifs then s
  else if !good then t1Error s p v 1
  else
    let pcb := byteAt b 1
    let inf := sl b 3 (byteAt b 2)
    if v.phase = .ifs then
      (if pcb = 0xE1 && inf == [254] then activated s p
       else if pcb = 0xE0 && v.resyncs != 0 then t1SendIfs s p { v with resyncs := 0 }
       else if pcb = 0xC1 || pcb = 0xC2 || pcb = 0xC3 then t1Supervisory s p v pcb inf
       else t1Error s p v 2)
    else if pcb < 0x80 then t1InfoBlock s p v pcb inf
    else if pcb < 0xC0 then t1Ready s p v pcb
    else t1Supervisory s p v pcb inf

def execT1BlockReceive (p : PortNo) (bytes : Bytes) (good : Bool) (s : State) : Res :=
  .next (t1Receive s p.val bytes good)

/-! ## Timeouts, removal, insertion -/

/-- WT, BWT or the ATR window expires (R486, R488 to R491). -/
def waitTimeout (s : State) (p : Nat) : State :=
  let v := port s p
  match v.phase with
  | .atr => classFails s p 0x2
  | .pps => ppsFails s p
  | .ifs => t1Error s p v 2
  | .t1 => t1Error s p v 2
  | .proc => pbEndOff s p 0x5
  | .recvAll => pbEndOff s p 0x5
  | .recvOne => pbEndOff s p 0x5
  | .sw2 => pbEndOff s p 0x5
  | .idle => s
  | .retry => s

/-- A running command ends with REMOVED and its port deactivates (R492, R524). -/
def pbAbort (s : State) (p : Nat) : State := if pbBusy s p then pbEndOff s p 0x8 else s

/-- A running command ends with REMOVED and the port deactivates (R491, R492); an active port that runs none deactivates too (DEDUCED
for a Kerb ABORT: R492 names the port, not its command). -/
def pbStop (s : State) (p : Nat) : State :=
  if pbBusy s p then pbEndOff s p 0x8 else if pbActive s p then deactivate s p else s

/-- PBp_DET shows no card for 20 µs. -/
def pbRemove (s : State) (p : Nat) : State :=
  if pbPresent s p && domOn s 23 then
    let s := pbStop (setFld s (pr p Reg.PB_STAT) 0 0 0) p
    raiseInt s 0x4D (2 ^ (4 + p))
  else s
/-- A card is inserted. -/
def pbInsert (s : State) (p : Nat) : State :=
  if !pbPresent s p && domOn s 23 then raiseInt (setFld s (pr p Reg.PB_STAT) 0 0 1) 0x4D (2 ^ (2 + p)) else s

/-- PB_CFG is written: a pin that keeps its level shows the opposite under the other DET_POL (DEDUCED, R495; DESIGN CHOICE: the 20 µs of
R491 have passed). -/
def pbCfg (s : State) (p : Nat) (old : Word) : State :=
  if wbit old 6 == rbit s (pr p Reg.PB_CFG) 6 then s else if pbPresent s p then pbRemove s p else pbInsert s p

def execCardWaitTimeout (p : PortNo) (s : State) : Res := .next (waitTimeout s p.val)
def execPbRemove (p : PortNo) (s : State) : Res := .next (pbRemove s p.val)
def execPbInsert (p : PortNo) (s : State) : Res := .next (pbInsert s p.val)

/-! ## Commands (R492, R493) -/

/-- A write of the value v to PB_CMD: recorded while BUSY; in lockdown everything but DEACTIVATE is refused. -/
def pbCmd (s : State) (src : Src) (p v : Nat) (k : State → State) : State :=
  gateReg s src (pr p Reg.PB_CMD) fun s =>
    if pbBusy s p then errSynd s 0x4D 0x10 (masterOf src) p v
    else if s.kerb.lockdown && bits v 3 0 ≠ 3 then pbResult s p 0xB
    else k s

def activateCmd (s : State) (src : Src) (p v : Nat) : State :=
  pbCmd s src p v fun s => if pbPresent s p then activate s p else pbResult s p 0x1

/-- EXCHANGE under the protocol in force. -/
def exchangeRun (s : State) (p : Nat) : State :=
  let n := fld s (pr p Reg.PB_LEN) 9 0
  let v := { port s p with cmd := 2, sent := 0, rx := [], rep := 0, repAt := 0, rblocks := 0, resyncs := 0 }
  if rbit s (pr p Reg.PB_STAT) 4 then
    (if n = 0 || 512 < n then pbResult s p 0x9 else t1SendI s p { v with phase := .t1 })
  else if n < 5 || 260 < n then pbResult s p 0x9
  else t0Send s p { v with phase := .proc } 5

def exchangeCmd (s : State) (src : Src) (p v : Nat) : State :=
  pbCmd s src p v fun s => if pbActive s p then exchangeRun s p else pbResult s p 0xA

def deactivateCmd (s : State) (src : Src) (p v : Nat) : State :=
  pbCmd s src p v fun s => pbResult (deactivate s p) p 0x0

/-- WARM_RESET: RST low for 40,000 clocks, then the ATR again in the current class. -/
def warmResetCmd (s : State) (src : Src) (p v : Nat) : State :=
  pbCmd s src p v fun s =>
    if pbActive s p then
      let s := setReg s (pr p Reg.PB_STAT) (reg s (pr p Reg.PB_STAT) &&& 0xF)
      pbReset (setPort s p { cmd := 4, phase := .atr, clk := (port s p).clk }) p
    else pbResult s p 0xA

def execActivate (src : Src) (p : PortNo) (s : State) : Res := .next (activateCmd s src p.val 1)
def execExchange (src : Src) (p : PortNo) (s : State) : Res := .next (exchangeCmd s src p.val 2)
def execDeactivate (src : Src) (p : PortNo) (s : State) : Res := .next (deactivateCmd s src p.val 3)
def execWarmReset (src : Src) (p : PortNo) (s : State) : Res := .next (warmResetCmd s src p.val 4)

end Sys2Proof.Machine
end

