-- ==== Sys2Proof/Machine/Kiosk.lean ====
section
/-! DEFINITION. The Kiosk: reader commands, card detection, the tag with its Placard and mailbox, COMMIT, field-powered service and
the harvest output (R496 to R511). -/
namespace Sys2Proof.Machine
open Sys2Proof

def setKiosk (s : State) (k : Kiosk) : State := { s with kiosk := k }
/-- Mode in force: 0 OFF, 1 READER, 2 TAG, 3 LPCD. -/
def kMode (s : State) : Nat := fld s Reg.KIOSK_STAT 1 0
def fieldOn' (s : State) : Bool := rbit s Reg.KIOSK_STAT 2
def inSession (s : State) : Bool := s.kiosk.latched.isSome
/-- The Kiosk's registers are powered. -/
def kioskOn (s : State) : Bool := domOn s 22 && s.mainOn

/-- The mailbox, the reader buffer and the Placard staging buffer. -/
def mbxBuf : Nat := Reg.KIOSK_BUF
def rdBuf : Nat := Reg.KIOSK_BUF + 0x200
def plcBuf : Nat := Reg.KIOSK_BUF + 0x400

/-- Words of a buffer are zeroised. -/
def bufClear (s : State) (base words : Nat) : State := (List.range words).foldl (fun s i => setReg s (base + 4 * i) 0) s

/-! ## Placard records and sessions (R503, R504) -/

/-- The valid copy of the Placard record with the higher sequence number. -/
def placard (s : State) : Option PlcRec :=
  match s.fer.plcA, s.fer.plcB with
  | some a, some b => if b.seq ≤ a.seq then some a else some b
  | some a, none => some a
  | none, b => b
def bankBytes (s : State) (b : Bool) : Bytes := if b then s.fer.bank1 else s.fer.bank0
/-- The record of a device whose Placard was never committed: no length, a UID of zeros. -/
def noPlacard : PlcRec := { bank := false, len := 0, uid := fill 7 0, fwi := 4, fieldTag := false, seq := 0 }
/-- The record the tag presents: the session's, or the active one. -/
def tagRecord (s : State) : PlcRec := (s.kiosk.latched).getD ((placard s).getD noPlacard)

/-- A COMMIT starts: the staging buffer is copied for the bank that is not active, and the record takes the UID, FWI and FIELD_TAG as
they stand (R503; DESIGN CHOICE: all at the start). -/
def plcStart (s : State) (len : Nat) : State :=
  let old := (placard s).getD { noPlacard with bank := true }
  let r : PlcRec := {
    bank := !old.bank, len, uid := toLe 4 (reg s Reg.KIOSK_UID_LO).toNat ++ toLe 3 (reg s Reg.KIOSK_UID_HI).toNat
    fwi := fld s Reg.KIOSK_TAG_CFG 3 0, fieldTag := rbit s Reg.KIOSK_TAG_CFG 4, seq := old.seq + 1 }
  setKiosk s { s.kiosk with plc := some (.runs r (bufGet s plcBuf 0 len)) }

/-- A COMMIT that waits for the session starts once its bank is free. -/
def plcResume (s : State) : State :=
  match s.kiosk.plc with
  | some (.waits len) => plcStart s len
  | _ => s

/-- A session ends: the bank is released, a waiting mailbox APDU is dropped, SESSION_END is set with main power up. -/
def endSession (s : State) : State :=
  if !inSession s then setKiosk s { s.kiosk with app := false, file := none, wtx := none }
  else
    let s := setKiosk s { s.kiosk with latched := none, app := false, file := none, wtx := none }
    let s := setFld s Reg.KIOSK_STAT 3 3 0
    plcResume (if s.mainOn then raiseInt s 0x4E 16 else s)

/-- A session begins and latches the active record. -/
def beginSession (s : State) : State :=
  let s := setKiosk s { s.kiosk with latched := some (tagRecord s), tag := .active, tagRate := 0, app := false, file := none }
  if s.mainOn then setFld s Reg.KIOSK_STAT 3 3 1 else s

/-! ## The mailbox's owner (R506) -/

def holdGnt (s : State) : Bool := rbit s Reg.KIOSK_MBX_CTRL 1

/-- The host gets the mailbox. -/
def grantHold (s : State) : State :=
  if rbit s Reg.KIOSK_MBX_CTRL 0 && !holdGnt s then raiseInt (setFld s Reg.KIOSK_MBX_CTRL 1 1 1) 0x4E 256 else s

/-! ## Modes (R496, R509) -/

/-- The harvest output takes a voltage and a limit. -/
def harvTo (s : State) (o : Nat × Nat) : State :=
  if s.kiosk.harv = o then s
  else emit (emit (setFld (setKiosk s { s.kiosk with harv := o }) Reg.KIOSK_HARV_STAT 0 0 (b2n (o.1 != 0))) (.pin "HARV" o.1))
    (.pin "HARV_ILIM" o.2)

/-- The harvest output follows its conditions, VSEL and ILIM (R509). -/
def harvest (s : State) : State :=
  if kioskOn s && kMode s == 2 && fieldOn' s && rbit s Reg.KIOSK_HARV_CTRL 0 then
    harvTo s (if rbit s Reg.KIOSK_HARV_CTRL 1 then 3300 else 1800, max 1 (min 10 (fld s Reg.KIOSK_HARV_CTRL 7 4)))
  else harvTo s (0, 0)

/-- The carrier on or off. -/
def carrierTo (s : State) (on : Bool) : State :=
  if s.kiosk.carrier == on then s
  else emit (setKiosk s { s.kiosk with carrier := on }) (.pin "CARRIER" (b2n on))

/-- A reader command or a field APDU is in progress. -/
def kioskWorks (s : State) : Bool := s.kiosk.rd.isSome || s.kiosk.wtx.isSome

/-- KIOSK_STAT.FIELD shows the external field; in TAG mode one that begins to be seen raises FIELD_ON (R501, R511; DESIGN CHOICE: FIELD
shows it in every mode, and a field that stands when TAG mode begins is seen then). -/
def fieldSeen (s : State) : State :=
  let s := setFld s Reg.KIOSK_STAT 2 2 (b2n s.kiosk.field)
  harvest (if kMode s == 2 && s.kiosk.field then raiseInt s 0x4E 4 else s)

/-- What the Kiosk holds after a loss of its power: only the field outside stands. -/
def kioskFresh (s : State) : Kiosk := { field := s.kiosk.field, strong := s.kiosk.strong }

/-- The pending mode takes effect: leaving TAG ends the session, leaving READER switches the carrier off. -/
def applyMode (s : State) : State :=
  match s.kiosk.pend with
  | none => s
  | some m =>
    let old := kMode s
    let s := setKiosk s { s.kiosk with pend := none }
    let s := if old = 2 && m ≠ 2 then setKiosk (endSession s) { (endSession s).kiosk with tag := .idle } else s
    let s := if m ≠ 1 then carrierTo s false else s
    let s := setFld (setFld s Reg.KIOSK_STAT 4 4 0) Reg.KIOSK_STAT 1 0 m
    if m = 2 && old ≠ 2 then fieldSeen s else harvest s

/-- A mode that waits for the end of a command or APDU takes effect after it. -/
def modeAfter (s : State) : State := if kioskWorks s then s else applyMode s

/-- A write of KIOSK_MODE. -/
def modeWrite (s : State) (src : Src) (m : Nat) : State :=
  gateReg s src Reg.KIOSK_MODE fun s =>
    let s := setFld (setReg s Reg.KIOSK_MODE (BitVec.ofNat 32 m)) Reg.KIOSK_STAT 4 4 1
    modeAfter (setKiosk s { s.kiosk with pend := some m })

def execKioskModeWrite (src : Src) (v : BitVec 2) (s : State) : Res := .next (modeWrite s src v.toNat)
def execModeChangeApply (s : State) : Res := .next (modeAfter s)

/-! ## The reader (R497 to R499) -/

/-- A reader command ends: RESULT, RX_LEN, RD_DONE, and a mode that waited. -/
def rdEnd (s : State) (r : Nat) : State :=
  modeAfter (raiseInt (setFld (setKiosk s { s.kiosk with rd := none }) Reg.KIOSK_RD_CMD 7 4 r) 0x4E 1)

/-- Received bytes go to the reader buffer. -/
def rdReceive (s : State) (b : Bytes) : State :=
  setFld (bufPut s rdBuf 0 b) Reg.KIOSK_RD_LEN 24 16 b.length

/-- The CRC_A or CRC_B of a frame, low byte first (ISO/IEC 14443-3). -/
def crcAB (typeB : Bool) (b : Bytes) : Bytes :=
  let step (a : Nat) (x : Byte) : Nat :=
    (List.range 8).foldl (fun a i => if (a.testBit 0).xor (x.toNat.testBit i) then (a / 2) ^^^ 0x8408 else a / 2) a
  let v := b.foldl step (if typeB then 0xFFFF else 0x6363)
  toLe 2 (if typeB then v ^^^ 0xFFFF else v)

/-- A frame leaves the antenna at RATE_TX. -/
def rdSend (s : State) (op : Option RdOp) (b : Bytes) : State :=
  emit (setKiosk s { s.kiosk with rd := op }) (.reader b (fld s Reg.KIOSK_RD_CFG 1 0))
/-- TYPE selects Type B. -/
def rdTypeB (s : State) : Bool := rbit s Reg.KIOSK_RD_CFG 4
/-- A frame with its CRC_A or CRC_B. -/
def withCrc (typeB : Bool) (b : Bytes) : Bytes := b ++ crcAB typeB b

/-- A write of the value v to KIOSK_RD_CMD: recorded while BUSY, LOCKED in lockdown, STATE outside READER mode, EXT_FIELD before the carrier starts. -/
def rdCmd (s : State) (src : Src) (v : Nat) (ext : Bool) (k : State → State) : State :=
  gateReg s src Reg.KIOSK_RD_CMD fun s =>
    if s.kiosk.rd.isSome then errSynd s 0x4E 0x10 (masterOf src) 0 v
    else
      let s := setFld s Reg.KIOSK_RD_LEN 24 16 0
      if s.kerb.lockdown then rdEnd s 0x6
      else if kMode s ≠ 1 then rdEnd s 0x8
      else if !s.kiosk.carrier && (ext || s.kiosk.field) then rdEnd s 0x5
      else k s

/-- The carrier runs before a frame. -/
def withCarrier (s : State) : State := carrierTo s true

/-- REQA or WUPA. -/
def pollA (s : State) (src : Src) (v : Nat) (ext : Bool) : State :=
  rdCmd s src v ext fun s => rdSend (withCarrier s) (some .atqa) [if rbit s Reg.KIOSK_RD_CFG 5 then 0x52 else 0x26]
/-- REQB or WUPB with AFI and one slot. -/
def pollB (s : State) (src : Src) (v : Nat) (ext : Bool) : State :=
  rdCmd s src v ext fun s =>
    rdSend (withCarrier s) (some .atqb) (withCrc true
      [0x05, BitVec.ofNat 8 (fld s Reg.KIOSK_RD_CFG 23 16), if rbit s Reg.KIOSK_RD_CFG 5 then 8 else 0])
/-- TRANSCEIVE: TX_LEN bytes of the buffer. -/
def transceive (s : State) (src : Src) (v : Nat) (ext : Bool) : State :=
  rdCmd s src v ext fun s =>
    let n := fld s Reg.KIOSK_RD_LEN 8 0
    if n = 0 || 254 < n then rdEnd s 0x9
    else rdSend (withCarrier s) (some .reply) (withCrc (rdTypeB s) (bufGet s rdBuf 0 n))
/-- HLTA, or HLTB with the PUPI in buffer bytes 0 to 3: no reply is expected. -/
def readerHalt (s : State) (src : Src) (v : Nat) (ext : Bool) : State :=
  rdCmd s src v ext fun s =>
    let f : Bytes := if rdTypeB s then 0x50 :: bufGet s rdBuf 0 4 else [0x50, 0x00]
    rdEnd (rdSend (withCarrier s) none (withCrc (rdTypeB s) f)) 0x0

def execPollA (src : Src) (extField : Bool) (s : State) : Res := .next (pollA s src 1 extField)
def execPollB (src : Src) (extField : Bool) (s : State) : Res := .next (pollB s src 2 extField)
def execTransceive (src : Src) (extField : Bool) (s : State) : Res := .next (transceive s src 3 extField)
def execReaderHalt (src : Src) (extField : Bool) (s : State) : Res := .next (readerHalt s src 4 extField)

/-- The SEL byte of a cascade level. -/
def selByte (level : Nat) : Byte := if level = 0 then 0x93 else if level = 1 then 0x95 else 0x97

/-- The anticollision of a cascade level begins. -/
def anticolStart (s : State) (level : Nat) (atqa uid : Bytes) : State :=
  rdSend s (some (.anticol level atqa uid 0 0)) [selByte level, 0x20]

/-- Replies collided after n bits of what the cards still had to send: the anticollision goes on with the bits that stand and a 1
(PRESUMED, ISO/IEC 14443-3: the cards that match them send the rest, from the first bit not yet known). -/
def anticolAgain (s : State) (level : Nat) (atqa uid : Bytes) (known val : Nat) (b : Bytes) (n : Nat) : State :=
  let k := known + n
  if 39 ≤ k then rdEnd s 0x4
  else
    let v := val + 2 ^ known * (le b % 2 ^ n) + 2 ^ k
    rdSend s (some (.anticol level atqa uid (k + 1) v))
      ([selByte level, BitVec.ofNat 8 ((2 + (k + 1) / 8) * 16 + (k + 1) % 8)] ++ toLe ((k + 8) / 8) v)

/-- The whole UID CLn once the bits not yet known have arrived, lowest first; none when the reply has another length. -/
def anticolWhole (known val : Nat) (b : Bytes) : Option Bytes :=
  if b.length = (47 - known) / 8 then some (toLe 5 (val + 2 ^ known * le b)) else none

/-- The UID CLn of a level: its check byte, then SELECT. -/
def anticolDone (s : State) (level : Nat) (atqa uid : Bytes) (cl : Option Bytes) : State :=
  match cl with
  | none => rdEnd s 0x4
  | some b =>
    if b.foldl (fun a x => a ^^^ x) 0 != 0 then rdEnd s 0x4
    else rdSend s (some (.sak level atqa uid b)) (withCrc false ([selByte level, 0x70] ++ b))

/-- The SAK of a level: the next level while its cascade bit is set, else the card is selected. -/
def sakDone (s : State) (level : Nat) (atqa uid cl b : Bytes) : State :=
  if b.length ≠ 1 then rdEnd s 0x4
  else if (byteAt b 0).testBit 2 then
    (if level < 2 then anticolStart s (level + 1) atqa (uid ++ sl cl 1 3) else rdEnd s 0x4)
  else rdEnd (rdReceive s (uid ++ cl.take 4 ++ atqa ++ b)) 0x0

/-- A card's reply is received whole and its CRC checked. -/
def readerReceive (s : State) (f : RdFrame) : State :=
  match s.kiosk.rd, f with
  | none, _ => s
  | some _, .malformed => rdEnd s 0x4
  | some (.anticol l a u k v), .collision b n => anticolAgain s l a u k v b n
  | some .atqb, .collision _ _ => rdEnd s 0x2
  | some .atqa, .collision b _ => anticolStart s 0 (fit 2 b) []
  | some _, .collision _ _ => rdEnd s 0x4
  | some _, .badCrc => rdEnd s 0x3
  | some .atqa, .frame b => if b.length = 2 then anticolStart s 0 b [] else rdEnd s 0x4
  | some (.anticol l a u k v), .frame b => anticolDone s l a u (anticolWhole k v b)
  | some (.sak l a u cl), .frame b => sakDone s l a u cl b
  | some .atqb, .frame b => if b.length ≤ 254 then rdEnd (rdReceive s b) 0x0 else rdEnd s 0x4
  | some .reply, .frame b => if b.length ≤ 254 then rdEnd (rdReceive s b) 0x0 else rdEnd s 0x4

def execReaderFrameReceive (f : RdFrame) (s : State) : Res := .next (readerReceive s f)

/-- No reply within FWT. -/
def fwtExpire (s : State) : State := if s.kiosk.rd.isSome then rdEnd s 0x1 else s
def execFwtExpire (s : State) : Res := .next (fwtExpire s)

/-! ## Card detection (R500) -/

/-- A ping: skipped when an external field is present; CARD_NEAR when the amplitude is off REF by more than THRESH, also for the
measurement that CALIBRATE then stores (DEDUCED). -/
def lpcdPing (s : State) (ext : Bool) (amp : Nat) : State :=
  if !kioskOn s || kMode s ≠ 3 || ext || s.kiosk.field then s
  else
    let ref := fld s Reg.KIOSK_LPCD_REF 9 0
    let s := emit (emit s (.pin "CARRIER" 1)) (.pin "CARRIER" 0)
    let s := setFld s Reg.KIOSK_LPCD_REF 25 16 amp
    let s := if fld s Reg.KIOSK_LPCD_CFG 25 16 < max ref amp - min ref amp then raiseInt s 0x4E 2 else s
    if s.kiosk.calib then setFld (setKiosk s { s.kiosk with calib := false }) Reg.KIOSK_LPCD_REF 9 0 amp else s
def lpcdCalibrate (s : State) (src : Src) : State :=
  gateReg s src Reg.KIOSK_LPCD_CFG fun s => setKiosk s { s.kiosk with calib := true }

def execLpcdPing (extField : Bool) (amp : BitVec 10) (s : State) : Res := .next (lpcdPing s extField amp.toNat)
def execLpcdCalibrate (src : Src) (s : State) : Res := .next (lpcdCalibrate s src)

/-! ## The tag on the field (R501, R504, R507 to R509) -/

/-- The tag front end runs: in TAG mode with main power, or powered by the field. -/
def tagOn (s : State) : Bool :=
  !s.kiosk.muted && ((kioskOn s && kMode s == 2 && fieldOn' s) || s.kiosk.fieldPowered)

/-- Without main power a sufficient field powers the tag when the active record allows it (R508). -/
def fieldPower (s : State) : State :=
  if !s.mainOn && s.kiosk.field && s.kiosk.strong && ((placard s).getD noPlacard).fieldTag then
    setKiosk s { s.kiosk with fieldPowered := true, tag := .idle } else s

/-- An external field appears. -/
def fieldAppears (s : State) (strong : Bool) : State :=
  if s.kiosk.field then s
  else
    let s := setKiosk s { s.kiosk with field := true, strong }
    if !s.mainOn then fieldPower s else if !domOn s 22 then s else fieldSeen s

/-- The field collapses: the session ends, the mailbox may be zeroised, the harvest output switches off. -/
def fieldLost (s : State) : State :=
  let s := setKiosk s { s.kiosk with field := false, strong := false }
  if s.kiosk.fieldPowered then
    let s := endSession s
    setKiosk s { s.kiosk with fieldPowered := false, tag := .idle }
  else if !kioskOn s || !fieldOn' s then s
  else
    let s := setFld s Reg.KIOSK_STAT 2 2 0
    if kMode s ≠ 2 then s
    else
      let s := endSession s
      let s := raiseInt (setKiosk s { s.kiosk with tag := .idle }) 0x4E 8
      let s := if rbit s Reg.KIOSK_MBX_CTRL 2 then bufClear s mbxBuf 64 else s
      harvest (modeAfter s)

/-- KICK ends the session and mutes the tag. -/
def kickTag (s : State) : State :=
  let s := endSession s
  setKiosk s { s.kiosk with muted := true, tag := .idle }
def kick (s : State) (src : Src) : State := gateReg s src Reg.KIOSK_TAG_CFG fun s => modeAfter (kickTag s)
/-- The field has been absent for 5 ms. -/
def muteEnd (s : State) : State := if s.kiosk.field then s else setKiosk s { s.kiosk with muted := false }

def execFieldOn (strong : Bool) (s : State) : Res := .next (fieldAppears s strong)
def execFieldOff (s : State) : Res := .next (fieldLost s)
def execKick (src : Src) (s : State) : Res := .next (kick s src)
def execMuteEnd (s : State) : Res := .next (muteEnd s)

/-- A tag frame leaves, at the rate in force. -/
def tagSend (s : State) (b : Bytes) : State := emit s (.tag b s.kiosk.tagRate)
def setTag (s : State) (t : TagState) : State := setKiosk s { s.kiosk with tag := t }

/-- UID CLn of a level with its check byte: the cascade tag and three bytes, then four bytes. -/
def uidLevel (s : State) (level : Bool) : Bytes :=
  let u := (tagRecord s).uid
  let b : Bytes := if level then sl u 3 4 else 0x88 :: sl u 0 3
  b ++ [b.foldl (fun a x => a ^^^ x) 0]

/-- The ATS: FSCI 8, the rates of R501, FWI and SFGI 0, no historical bytes. -/
def atsBytes (s : State) : Bytes := [0x05, 0x78, 0x77, BitVec.ofNat 8 ((tagRecord s).fwi * 16), 0x00]

/-- A frame of the tag with its CRC_A. -/
def tagCrc (b : Bytes) : Bytes := b ++ crcAB false b

/-- A reader frame below the APDU layer (R501). PRESUMED (ISO/IEC 14443-4): bits [3:2] of PPS1 are the rate of the tag's frames, from
the frame after the PPS response. -/
def tagFrame (s : State) (f : TagFrame) : State :=
  if !tagOn s then s
  else
    let st := s.kiosk.tag
    match f with
    | .reqa => if st = .idle then tagSend (setTag s .ready1) [0x44, 0x00] else s
    | .wupa => if st = .idle || st = .halt then tagSend (setTag s .ready1) [0x44, 0x00] else s
    | .anticol l => if st = (if l then .ready2 else .ready1) then tagSend s (uidLevel s l) else s
    | .select l uid =>
      if st ≠ (if l then .ready2 else .ready1) then s
      else if uid ≠ uidLevel s l then setTag s .idle
      else if l then tagSend (beginSession s) (tagCrc [0x20])
      else tagSend (setTag s .ready2) (tagCrc [0x04])
    | .rats _ => if st = .active then tagSend (setTag s .protocol) (tagCrc (atsBytes s)) else s
    | .pps a b =>
      if st ≠ .protocol then s
      else
        let s := tagSend s (tagCrc [0xD0 ||| (a &&& 0x0F)])
        setKiosk s { s.kiosk with tagRate := b.toNat / 4 % 4 }
    | .deselect => if st = .protocol then modeAfter (setTag (endSession (tagSend s (tagCrc [0xC2]))) .halt) else s
    | .hlta => if st = .active then modeAfter (setTag (endSession s) .halt) else s

def execTagFrame (f : TagFrame) (s : State) : Res := .next (tagFrame s f)

/-! ## APDUs (R502, R505, R506) -/

/-- An APDU's response goes out, and a mode or a HOLD that waited for it takes effect. -/
def respond (s : State) (b : Bytes) : State := modeAfter (grantHold (tagSend s b))
def sw (a b : Nat) : Bytes := [BitVec.ofNat 8 a, BitVec.ofNat 8 b]

/-- READ BINARY of a file of bytes: R502's three cases. -/
def readBinary (file : Bytes) (off le' : Nat) : Bytes :=
  if file.length ≤ off then sw 0x6B 0x00
  else if file.length < off + le' then file.drop off ++ sw 0x62 0x82
  else sl file off le' ++ sw 0x90 0x00

/-- Le: 0 stands for 256 (PRESUMED, ISO/IEC 7816-4). -/
def apduLe (a : Bytes) : Nat := if byteAt a 4 = 0 then 256 else byteAt a 4
def apduOff (a : Bytes) : Nat := byteAt a 2 * 256 + byteAt a 3

/-- A mailbox APDU is served: 69 85 in lockdown (R510), a read, or a write applied in one step. -/
def serveMailbox (s : State) (a : Bytes) : State :=
  let off := apduOff a
  if s.kerb.lockdown then respond s (sw 0x69 0x85)
  else if byteAt a 1 = 0xB0 then respond s (readBinary (bufGet s mbxBuf 0 256) off (apduLe a))
  else
    let n := byteAt a 4
    if 256 < off + n then respond s (sw 0x6B 0x00)
    else
      let s := bufPut s mbxBuf off (sl a 5 n)
      let s := setReg s Reg.KIOSK_MBX_LAST (BitVec.ofNat 32 (off % 256 * 2 ^ 16 + n))
      respond (raiseInt s 0x4E 32) (sw 0x90 0x00)

/-- S(WTX) with WTXM. -/
def sendWtx (s : State) : State :=
  let m := max 1 (min 59 (fld s Reg.KIOSK_TAG_CFG 13 8))
  tagSend s (tagCrc [0xF2, BitVec.ofNat 8 m])

/-- A mailbox APDU: 69 85 in lockdown, an S(WTX) while the host holds the mailbox, otherwise served. -/
def mailboxApdu (s : State) (a : Bytes) : State :=
  if s.kerb.lockdown then respond s (sw 0x69 0x85)
  else if holdGnt s then sendWtx (setKiosk s { s.kiosk with wtx := some (a, 1) })
  else serveMailbox s a

/-- An APDU of the forms 00 B0 P1 P2 Le, and 00 D6 P1 P2 Lc with Lc bytes of data (R502). -/
def apduRead (a : Bytes) : Bool := byteAt a 0 == 0 && byteAt a 1 == 0xB0 && a.length == 5
def apduUpdate (a : Bytes) : Bool := byteAt a 0 == 0 && byteAt a 1 == 0xD6 && decide (5 ≤ a.length) && a.length == 5 + byteAt a 4

/-- The commands of R502. An update of the Placard is answered 69 86 whatever follows its 00 D6. -/
def apduRun (s : State) (a : Bytes) : State :=
  let k := s.kiosk
  if a = [0x00, 0xA4, 0x04, 0x00, 0x06, 0xF0, 0x46, 0x5A, 0x58, 0x4B, 0x01] then
    respond (setKiosk s { k with app := true, file := none }) (sw 0x90 0x00)
  else if a = [0x00, 0xA4, 0x00, 0x0C, 0x02, 0x00, 0x01] then
    respond (setKiosk s { k with file := some false }) (sw 0x90 0x00)
  else if a = [0x00, 0xA4, 0x00, 0x0C, 0x02, 0x00, 0x02] then
    (if s.mainOn then respond (setKiosk s { k with file := some true }) (sw 0x90 0x00)
     else respond s (sw 0x6A 0x82))
  else if k.file = some false && decide (2 ≤ a.length) && byteAt a 0 == 0 && byteAt a 1 == 0xD6 then respond s (sw 0x69 0x86)
  else if !apduRead a && !apduUpdate a then respond s (sw 0x6D 0x00)
  else match k.file with
    | none => respond s (sw 0x69 0x86)
    | some false =>
      let r := tagRecord s
      respond s (readBinary (fit r.len (bankBytes s r.bank)) (apduOff a) (apduLe a))
    | some true => mailboxApdu s a

/-- A field APDU arrives whole; one whose CRC_A is wrong is not taken (R506). -/
def tagApdu (s : State) (a : Bytes) (crcOk : Bool) : State :=
  if !tagOn s || s.kiosk.tag ≠ .protocol || s.kiosk.wtx.isSome || !crcOk then s else apduRun s a

/-- The extended time is about to run out: a further S(WTX), up to 8; then 69 85 and MBX_BUSY. -/
def wtxExpire (s : State) : State :=
  match s.kiosk.wtx with
  | none => s
  | some (a, n) =>
    if n < 8 then sendWtx (setKiosk s { s.kiosk with wtx := some (a, n + 1) })
    else respond (raiseInt (setKiosk s { s.kiosk with wtx := none }) 0x4E 64) (sw 0x69 0x85)

/-- A write of MBX_CTRL.HOLD: granted at once when no field APDU touches the mailbox; the release serves one that waits. -/
def mbxHold (s : State) (on : Bool) : State :=
  if on then
    let s := setFld s Reg.KIOSK_MBX_CTRL 0 0 1
    if s.kiosk.wtx.isSome then s else grantHold s
  else
    let s := setFld s Reg.KIOSK_MBX_CTRL 1 0 0
    match s.kiosk.wtx with
    | some (a, _) => serveMailbox (setKiosk s { s.kiosk with wtx := none }) a
    | none => s

def mbxHoldCmd (s : State) (src : Src) (on : Bool) : State := gateReg s src Reg.KIOSK_MBX_CTRL fun s => mbxHold s on

def execTagApdu (apdu : Bytes) (crcOk : Bool) (s : State) : Res := .next (tagApdu s apdu crcOk)
def execWtxExpire (s : State) : Res := .next (wtxExpire s)
def execMbxHold (src : Src) (on : Bool) (s : State) : Res := .next (mbxHoldCmd s src on)

/-! ## COMMIT (R503 to R505, R510) -/

/-- COMMIT is refused or ends: RESULT and PLC_DONE. -/
def plcEnd (s : State) (r : Nat) : State :=
  raiseInt (setFld (setKiosk s { s.kiosk with plc := none }) Reg.KIOSK_PLC_CMD 30 28 r) 0x4E 128

/-- A write of the value v to KIOSK_PLC_CMD: recorded while BUSY (DEDUCED: with COMMIT or without); with COMMIT the staged Placard goes
to the bank that is not active, and waits for a session that holds that bank. -/
def plcWrite (s : State) (src : Src) (v : Nat) : State :=
  gateReg s src Reg.KIOSK_PLC_CMD fun s =>
    let len := bits v 11 0
    if s.kiosk.plc.isSome then errSynd s 0x4E 0x10 (masterOf src) 0 v
    else
      let s := setFld s Reg.KIOSK_PLC_CMD 11 0 len
      if !v.testBit 27 then s
      else if s.kerb.lockdown then plcEnd s 3
      else if len = 0 || 2048 < len then plcEnd s 1
      else
        let idle := !((placard s).getD { noPlacard with bank := true }).bank
        if s.kiosk.latched.any fun l => l.bank == idle then setKiosk s { s.kiosk with plc := some (.waits len) }
        else plcStart s len

/-- The copy and the new record are confirmed, or a read-back failed. -/
def plcDone (s : State) (ok : Bool) : State :=
  match s.kiosk.plc with
  | some (.runs r data) =>
    if !ok then plcEnd (countFault s 0x4E) 2
    else
      let f := if r.bank then { s.fer with bank1 := data } else { s.fer with bank0 := data }
      let aNow := match s.fer.plcA, s.fer.plcB with
        | some a, some b => decide (b.seq ≤ a.seq)
        | some _, none => true
        | none, _ => false
      plcEnd { s with fer := if aNow then { f with plcB := some r } else { f with plcA := some r } } 0
  | _ => s

def execPlcCommit (src : Src) (len : BitVec 12) (s : State) : Res := .next (plcWrite s src (2 ^ 27 + len.toNat))
def execPlcCommitDone (ok : Bool) (s : State) : Res := .next (plcDone s ok)

/-! ## Meeting the rest of the device (R510, R524) -/

/-- A Hub reset switches the reader's carrier off and ends its command; a tag session is unaffected. -/
def readerOff (s : State) : State := carrierTo (if s.kiosk.rd.isSome then rdEnd s 0x7 else s) false

/-- A Kerb ABORT or ZEROISE reaches the Kiosk. -/
def kioskStop (s : State) (zeroise : Bool) : State :=
  let s := readerOff s
  let s := if inSession s then kickTag s else s
  let s := if s.kiosk.plc.isSome then plcEnd s 4 else s
  if zeroise then bufClear (bufClear (bufClear s mbxBuf 64) rdBuf 128) plcBuf 512 else s

end Sys2Proof.Machine
end

