-- ==== Sys2Proof/Machine/Power.lean ====
section
/-! DEFINITION. The power domains and the reset of the Hub die: PWR_REQ, drains, power-on, and what a Hub reset takes
(R512 to R516, R523, R524). -/
namespace Sys2Proof.Machine
open Sys2Proof

/-! ## The Hub reset (R523, R524) -/

/-- A register that a Hub reset leaves alone: the Kerb die's pages, and RST_CAUSE, which PD_KERB holds. -/
def keptByHubReset (k : Nat) : Bool :=
  let p := k / 0x1000
  k == Reg.RST_CAUSE || (decide (0x44 ≤ p) && decide (p ≤ 0x46)) || (decide (0x4C ≤ p) && decide (p ≤ 0x4E))

/-- Internal addresses that hold FeRAM, which no reset touches. -/
def feramAddr (a : Nat) : Bool := decide (0x05000000 ≤ a)

/-- What every reset of the Hub die takes: all that Hub registers and Hub SRAM hold. The lifecycle state in force is the record's,
which FeRAM keeps. -/
def hubClear (s : State) : State :=
  { s with
    tick := 0, quay := {}, units := {}, mews := {}, fnt := {}, curves := [], fleet := {}, clk := {}, cores := []
    load := none, autoload := none, chk := {}
    life := { state := s.life.state, hardLock := s.life.hardLock }
    xing := { state := if s.bak.pairRoot.isSome then 1 else 0, wave := s.xing.wave }
    mem := s.mem.filter fun e => feramAddr e.1
    regs := s.regs.filter fun e => keptByHubReset e.1
    parBad := s.parBad.filter fun e => keptByHubReset e.1
    wins := s.wins.filter fun p => keptByHubReset (rk p 0) }

/-- BOOT_STAT.STAGE set. -/
def setStage (s : State) (n : Nat) : State := setFld s Reg.BOOT_STAT 7 0 n

/-- The PLL runs: the boot sequence has passed its step. -/
def pllRuns (s : State) : Bool := s.mainOn && decide (2 ≤ bootStage s)

/-- A Hub reset with a cause, a bit of RST_CAUSE: the Depot and Postbox commands end as under a Kerb ABORT, the reader's carrier
goes off, and the boot sequence resumes at the PLL step once SYS_RST_N is high. -/
def hubReset (s : State) (cause : Nat) : State :=
  let s := readerOff (pbAbort (pbAbort (sdHubReset s) 0) 1)
  let s := hubClear (setFld s Reg.RST_CAUSE cause cause 1)
  aliveWave (setStage s (if s.rstHigh then 1 else 0))

/-- SYS_RST_N held low for 1 µs. -/
def sysRst (s : State) : State :=
  if s.mainOn && s.rstHigh then hubReset { s with rstHigh := false } 1 else s

/-- SYS_RST_N goes high: the PLL begins to lock (R525). -/
def sysRstRise (s : State) : State :=
  if s.mainOn && !s.rstHigh then setStage { s with rstHigh := true } 1 else s

/-- A write of RST_CTRL with HUB_RESET 1. -/
def rstCtrl (s : State) (src : Src) (v : Word) : State :=
  gateReg s src Reg.RST_CTRL fun s =>
    if !wbit v 0 then s
    else if wbits v 31 16 = 0xA5C3 then hubReset s 3
    else errSynd s 3 0x10 (masterOf src) 0 v.toNat

def execSysRstN (s : State) : Res := .next (sysRst s)
def execSysRstNRise (s : State) : Res := .next (sysRstRise s)
def execHubReset (src : Src) (key : BitVec 16) (s : State) : Res :=
  .next (rstCtrl s src (BitVec.ofNat 32 (key.toNat * 2 ^ 16 + 1)))

/-! ## Switching a domain (R514 to R516) -/

/-- The domains PWR_REQ can switch off (R512). -/
def switchable (n : Nat) : Bool := (decide (1 ≤ n) && decide (n ≤ 11)) || (decide (14 ≤ n) && decide (n ≤ 17)) || n == 22 || n == 23

/-- Why a switch-off is refused, as INFO gives it (R515). -/
def offReason (s : State) (n : Nat) : Option Nat :=
  if !switchable n then some 1
  else if rbit s Reg.PWR_KEEP n then some 2
  else if n = 16 && ((List.range 16).any fun c => [2, 3, 4].contains (coreAt s c).state) then some 3
  else if n = 17 && (s.xing.state == 2 || s.xing.state == 3) then some 4
  else none

/-- One PWR_REQ bit is written as 0. -/
def pwrOff (s : State) (src : Src) (n : Nat) (v : Word) : State :=
  match offReason s n with
  | some r => errSynd s 2 0x10 (masterOf src) (n + r * 2 ^ 8) v.toNat
  | none =>
    if rbit s Reg.PWR_REQ n then setFld (setFld s Reg.PWR_REQ n n 0) Reg.PWR_BUSY n n 1 else s

/-- Every command on the domain's units has run to completion (R514 step 1). -/
def drainedDom (s : State) (n : Nat) : Bool :=
  !(s.units.cipher.any fun e => e.2.ctx.isSome && cunitDom e.1 == n)
    && !(s.units.hash.any fun e => e.2.ctx.isSome && 1 + e.1 / 4 == n)
    && !(s.units.arc.any fun e => (e.2.ctx.isSome || e.2.zero || e.2.internal.isSome) && aunitDom e.1 == n)

/-- One PWR_REQ bit is written as 1: a drain in its first step is cancelled, and a domain that is off begins to switch on. Once a
drained domain's power is being removed the write only stands, and is acted on when the domain is off (R516). -/
def pwrOn (s : State) (n : Nat) : State :=
  if rbit s Reg.PWR_REQ n then s
  else
    let s := setFld s Reg.PWR_REQ n n 1
    setFld s Reg.PWR_BUSY n n (b2n (!domOn s n || (rbit s Reg.PWR_BUSY n && drainedDom s n)))

/-- A write of PWR_REQ: every bit in turn, lowest first. A 0 in a bit that reads 0 already has a reason to be refused or changes
nothing (R515). -/
def pwrReq (s : State) (src : Src) (v : Word) : State :=
  gateReg s src Reg.PWR_REQ fun s =>
    (List.range 24).foldl (fun s n => if wbit v n then pwrOn s n else pwrOff s src n v) s

/-- A write that changes one bit of PWR_REQ. -/
def pwrBit (s : State) (src : Src) (n : Nat) (on : Bool) : State :=
  pwrReq s src (wput (reg s Reg.PWR_REQ) n n (b2n on))

def execDomainSwitchOff (src : Src) (n : DomNo) (s : State) : Res := .next (pwrBit s src n.val false)
def execDomainSwitchOn (src : Src) (n : DomNo) (s : State) : Res := .next (pwrBit s src n.val true)

/-- A register whose power a domain is (R25, R135). -/
def inDom (n k : Nat) : Bool :=
  let p := k / 0x1000
  implemented p && pageDom p == n && !(p == 0x11 && decide (0x100 ≤ k % 0x1000) && decide (k % 0x1000 ≤ 0x110))

/-- The registers of a domain lose their values; at power-on they hold their reset values. -/
def domClear (s : State) (n : Nat) : State :=
  { s with
    regs := s.regs.filter fun e => !inDom n e.1
    parBad := s.parBad.filter fun e => !inDom n e.1
    wins := s.wins.filter fun p => !inDom n (rk p 0) }

/-- The units of a domain are zeroised, and will run their tests when they come on again (R124, R147, R154, R274). -/
def unitsClear (s : State) (n : Nat) : State :=
  { s with units := { s.units with
    cipher := s.units.cipher.filter fun e => cunitDom e.1 != n
    hash := s.units.hash.filter fun e => 1 + e.1 / 4 != n
    arc := s.units.arc.filter fun e => aunitDom e.1 != n
    laneBlocks := if n ≤ 8 then tdel s.units.laneBlocks (n - 1) else s.units.laneBlocks
    blvdBytes := if n = 9 then [] else s.units.blvdBytes } }

/-- The Crossing loses its power: what its domain holds takes its reset values, a command of XING_CMD is gone with its draw and its
unit, and the ephemeral key stays where the Mews keeps it (R448, R516). -/
def xingOff (s : State) : State :=
  let s := freeInternal (fntForget s whoXing) whoXing
  setXing s { state := if s.bak.pairRoot.isSome then 1 else 0, eph := s.xing.eph, wave := s.xing.wave, hbLost := s.xing.hbLost }

/-- The domain's own rules before its power goes (R514 step 2): a port goes down as at PERST, the cores and their RAM are lost, the
Crossing's link goes, the Kiosk's carrier and HARV go off and its session ends, the cards lose their supplies. -/
def domRules (s : State) (n : Nat) : State :=
  if n ≤ 11 then unitsClear s n
  else if n = 14 || n = 15 then perst s (n - 14)
  else if n = 16 then
    let s := if s.load.any (·.auto) then autoloadEnds s false else s
    let s := if s.sd.op.any (fun o => o.kind == .image) then sdDrop s else s
    memClear { s with cores := [], load := none } (lramBase 0) (lramBase 16)
  else if n = 17 then xingOff (linkLost s)
  else if n = 22 then
    let s := endSession (carrierTo s false)
    setKiosk (harvTo s (0, 0)) (kioskFresh s)
  else if n = 23 then
    let s := pbStop (pbStop (depotDown s) 0) 1
    { setSd s {} with pb0 := {}, pb1 := {} }
  else s

/-- A domain's units have drained: its power is removed, and PWR_DONE is set. A 1 written meanwhile begins its power-on (R516). -/
def domainOff (s : State) (n : Nat) : State :=
  if rbit s Reg.PWR_BUSY n && domOn s n && drainedDom s n then
    let s := domClear (domRules (wakeAll s) n) n
    let s := setFld (setFld s Reg.PWR_STAT n n 0) Reg.PWR_BUSY n n (b2n (rbit s Reg.PWR_REQ n))
    aliveWave (raiseInt s 2 1)
  else s

/-- What PD_MEWS held for page 0x11 while PD_LANE0 was off (R135). DESIGN CHOICE: a retry held so writes no ERR_SYND 0x12 at power-up:
R135 holds the events and the faults, and does not name the record. -/
def heldEvents (s : State) : State :=
  let s := (List.range s.units.heldRetry).foldl (fun s _ => raiseInt (countFault s 0x11) 0x11 (2 ^ 8)) s
  let s := if s.units.heldEnd then raiseInt s 0x11 (2 ^ 9) else s
  { s with units := { s.units with heldRetry := 0, heldEnd := false } }

/-- A domain has powered up: its registers hold their reset values, its units test themselves; a 0 written meanwhile stands and
begins its drain (R516). -/
def domainOn (s : State) (n : Nat) : State :=
  if rbit s Reg.PWR_BUSY n && !domOn s n then
    let s := setFld s Reg.PWR_STAT n n 1
    let s := aliveWave (if n = 1 then heldEvents s else if n = 22 then fieldSeen s else s)
    if rbit s Reg.PWR_REQ n then raiseInt (setFld s Reg.PWR_BUSY n n 0) 2 1 else s
  else s

def execDomainOffDone (n : DomNo) (s : State) : Res := .next (resumeAll (domainOff s n.val))
def execDomainOnDone (n : DomNo) (s : State) : Res := .next (resumeAll (domainOn s n.val))

end Sys2Proof.Machine
end

