-- ==== Sys2Proof/Machine/Kerb.lean ====
section
/-! DEFINITION. The Kerb: sources, counting, lasting and transient detections, responses, the event log, backup operation and its log
(R418 to R442). -/
namespace Sys2Proof.Machine
open Sys2Proof

def setKerb (s : State) (k : Kerb) : State := { s with kerb := k }

/-! ## The sources' settings (R418, R419) -/

/-- The registers of source n. -/
def kCfg (n : Nat) : Nat := Reg.KERB_SRC_CFG + 4 * n
def kCnt (n : Nat) : Nat := Reg.KERB_SRC_CNT + 4 * n

/-- Source n is a hard source and HARD_LOCK is 1 (R419). -/
def locked (s : State) (n : Nat) : Bool := s.life.hardLock && decide (n < 3)

/-- A level source: its condition begins and ends (R421). -/
def levelSrc (n : Nat) : Bool := decide (n ≤ 6) || n == 11

/-- Source n detects. -/
def kEn (s : State) (n : Nat) : Bool := decide (n < 13) && (locked s n || rbit s (kCfg n) 0)

/-- Source n is armed in backup operation: only 0, 1, 2, 6 and 11 can be. -/
def kArmed (s : State) (n : Nat) : Bool := [0, 1, 2, 6, 11].contains n && (locked s n || rbit s (kCfg n) 1)

/-- Source n logs its transient detections. -/
def kLogs (s : State) (n : Nat) : Bool := locked s n || rbit s (kCfg n) 2

/-- Lasting threshold: 0 acts as 1, and FOUNTAIN and FAULT act as 1. -/
def kThr (s : State) (n : Nat) : Nat := if locked s n || n = 9 || n = 10 then 1 else max 1 (fld s (kCfg n) 31 16)

/-- Effective actions and severity of source n (R419, R424). -/
def kActs (s : State) (n : Nat) : Nat :=
  let a := fld s (Reg.KERB_RESP + 4 * n) 6 0
  if locked s n then a ||| 0x3F else a
def kSev (s : State) (n : Nat) : Nat := if locked s n then 3 else fld s (Reg.KERB_RESP + 4 * n) 9 8

def lasting (s : State) (n : Nat) : Bool := rbit s Reg.KERB_LASTING n
def kCount (s : State) (n : Nat) : Nat := fld s (kCnt n) 15 0

/-! ## BTIME and the event log (R431, R437, R438) -/

/-- BTIME now: it advances by an amount nothing here fixes while VBAT or main power runs it (R431). -/
def readBtime (s : State) : Nat × State :=
  if s.bak.vbat then
    let r := freshNat s
    let b := (s.bak.btime + r.1) % 2 ^ 48
    (b, { r.2 with bak := { r.2.bak with btime := b } })
  else (s.bak.btime, s)

/-- An entry enters the queue; a TRANSIENT one that finds 12 or more is dropped. -/
def logPush (s : State) (e : LogEnt) : State :=
  if e.kind = 1 && decide (12 ≤ s.kerb.logQ.length) then raiseInt (bump s Reg.KERB_LOG_DROP 15 0 1) 0x46 1
  else setKerb s { s.kerb with logQ := s.kerb.logQ ++ [e] }

/-- An event is logged with the tick, BTIME and lifecycle state at it. -/
def logEvent (s : State) (e : LogEnt) : State :=
  let r := readBtime s
  logPush r.2 { e with tick := if domOn s 0 then s.tick else 0, btime := r.1, lc := s.life.state }

/-- The 32 bytes of an entry (R437). -/
def logBytes (e : LogEnt) (seq : Nat) : Bytes :=
  let b := toLe 8 e.tick ++ toLe 6 e.btime ++ toLe 1 e.kind ++ toLe 1 e.source ++ toLe 2 e.sources ++ toLe 1 e.actions
    ++ toLe 1 (e.sev % 4 + 16 * (e.lc % 8)) ++ toLe 2 e.count ++ toLe 2 e.info ++ toLe 4 seq
  b ++ toLe 4 (crc32c b)

/-- The backup log takes an entry: full, it replaces the oldest applied one, or is merged into the newest (R433). -/
def blogPut (l : List BlogEnt) (e : BlogEnt) : List BlogEnt :=
  if l.length < 64 then l ++ [e]
  else match l.findIdx? (·.applied) with
    | some i => l.eraseIdx i ++ [e]
    | none => match l.reverse with
      | [] => [e]
      | n :: rest => ({ n with
          actions := n.actions ||| e.actions, sev := max n.sev e.sev, erased := n.erased || e.erased
          count := satAdd 0xFFFF n.count 1 } :: rest).reverse

/-- A backup entry of an event at a BTIME; and of one now. -/
def blogAt (s : State) (btime source kind actions sev : Nat) (erased applied : Bool) : State :=
  { s with bak := { s.bak with blog := blogPut s.bak.blog { btime, source, kind, actions, sev, erased, applied, count := 1 } } }
def blogEvent (s : State) (source kind actions sev : Nat) (erased applied : Bool) : State :=
  let r := readBtime s
  blogAt r.2 r.1 source kind actions sev erased applied

/-- The 16 bytes of a backup entry (R439). -/
def blogBytes (e : BlogEnt) : Bytes :=
  let b := toLe 6 e.btime ++ toLe 1 e.source ++ toLe 1 e.kind ++ toLe 1 e.actions
    ++ toLe 1 (e.sev % 4 + 64 * b2n e.erased + 128 * b2n e.applied) ++ toLe 2 e.count
  b ++ toLe 4 (crc32c b)

/-- The RESPONSE entry of the running response is confirmed in FeRAM (R425). -/
def respConfirmed (s : State) : State :=
  setKerb s { s.kerb with resp := s.kerb.resp.map fun r => { r with conf := true } }

/-- The next entry is written to FeRAM and confirmed, or after three failed read-backs goes to the backup log with its own BTIME (R438,
R439). -/
def logEntryWrite (s : State) (fails : Nat) : State :=
  if !s.mainOn then s
  else match s.kerb.logQ with
    | [] => s
    | e :: rest =>
      let s := setKerb s { s.kerb with logQ := rest }
      if 3 ≤ fails then
        let s := blogAt s e.btime e.source 4 e.actions e.sev false true
        raiseInt (countFault s 0x46) 0x46 2
      else
        let q := s.fer.logNext
        let s := if e.kind = 3 then respConfirmed s else s
        { s with fer := { s.fer with log := tput s.fer.log (q % 8192) (logBytes e q), logNext := (q + 1) % 2 ^ 32 } }

def execLogEntryWrite (fails : Nat) (s : State) : Res := .next (logEntryWrite s fails)

/-! ## The actions of a response (R424 to R428) -/

/-- The customer secret and both backup roots are overwritten (R427, R432); with the pairing root gone the Crossing unpairs. -/
def eraseSecrets (s : State) : State :=
  let s := { s with bak := { s.bak with cust := none, fleetRoot := none } }
  if s.bak.pairRoot.isSome then unpairLink s else s

/-- ERASE_BACKUP: in PRODUCTION the operational root goes with the secrets (R427). -/
def actErase (s : State) : State :=
  let s := eraseSecrets s
  if s.life.state = 3 then { s with life := { s.life with root := none } } else s

/-- ABORT (R424, R426, R485, R492, R510). -/
def actAbort (s : State) : State :=
  let s := stopWhere s none (fun _ => true) 0x08 (fun _ => 0x06)
  let s := (s.chk.dma.map (·.1)).foldl dmaStop s
  kioskStop (pbStop (pbStop (sdAbort s) 0) 1) false

/-- Every Arcade operand memory is cleared at once (R272, R425). -/
def wipeOpmem (s : State) : State := (List.range 8).foldl (fun s n => setAunit s n { aunit s n with mem := {} }) s

/-- ZEROISE: the erase wires are asserted; the Key Table, every schedule, the operand memories and the shared SRAM are cleared, every
command ends, and the Kiosk's buffers are zeroised (R16, R196, R425, R426, R510). -/
def actZeroise (s : State) : State :=
  let s := setKerb s { s.kerb with erase := true }
  let s := if pllRuns s then memClear (wipeOpmem (zeroiseTable s true)) sramBase sramEnd else s
  let s := aliveWave (actAbort s)
  kioskStop (if pllRuns s then eraseUnits s else s) true

/-- LOCKDOWN (R428). -/
def actLockdown (s : State) : State :=
  if s.kerb.lockdown then s
  else
    let s := aliveWave (raiseInt (setKerb s { s.kerb with lockdown := true }) 0x44 16)
    (List.range 16).foldl haltCore s

/-- ALERT: the KSEV pins show the highest severity of a response that included it (R424). -/
def actAlert (s : State) (sev : Nat) : State :=
  if sev ≤ s.kerb.ksev then s else emit (setKerb s { s.kerb with ksev := sev }) (.pin "KSEV" sev)

/-- A response begins, or sources join the one that runs: actions not yet part of it are applied, ZEROISE and ERASE_BACKUP again
(R429). Its RESPONSE entry takes the sources that join while it waits to be written; once written it is not written again (DESIGN
CHOICE). -/
def kerbRespond (s : State) (mask act sev : Nat) : State :=
  let old := s.kerb.resp.getD { mask := 0, act := 0, sev := 0 }
  let r : KResp := { mask := old.mask ||| mask, act := old.act ||| act, sev := max old.sev sev }
  let fresh (n : Nat) : Bool := act.testBit n && (!old.act.testBit n || n == 4 || n == 5)
  let r := { r with logged := old.logged, conf := old.conf }
  let entry (e : LogEnt) : LogEnt := if old.logged && e.kind == 3 then { e with sources := r.mask, actions := r.act, sev := r.sev } else e
  let s := setKerb s { s.kerb with resp := some r, sev := max s.kerb.sev r.sev, logQ := s.kerb.logQ.map entry }
  let s := setReg s Reg.KERB_LAST_SRC (BitVec.ofNat 32 r.mask)
  let s := setReg s Reg.KERB_LAST_ACT (BitVec.ofNat 32 (r.act + 256 * r.sev))
  let s := if fresh 5 then actErase s else s
  let s := if fresh 4 then actZeroise s else if fresh 2 then actAbort s else s
  let s := if fresh 3 then actLockdown s else s
  let s := if fresh 0 then raiseInt s 0x44 4 else s
  if r.act.testBit 1 then actAlert s r.sev else s

/-- The sources that became lasting in one cycle receive one response (R429). -/
def respondAll (s : State) (l : List Nat) : State :=
  if l.isEmpty then s
  else kerbRespond s (maskOf l) (l.foldl (fun a n => a ||| kActs s n) 0) (l.foldl (fun a n => max a (kSev s n)) 0)

/-! ## Detections (R421, R422) -/

/-- Source n becomes lasting, or answers again: its window stops and its LASTING entry is logged. -/
def makeLasting (s : State) (n info : Nat) : State :=
  let s := setFld s Reg.KERB_LASTING n n 1
  let s := setKerb s { s.kerb with wins := s.kerb.wins.filter (· != n) }
  let s := logEvent s { tick := 0, btime := 0, kind := 2, source := n, actions := kActs s n, sev := kSev s n, count := kCount s n, info }
  raiseInt s 0x44 1

/-- A transient detection: TRANSIENT, and an entry when TRANS_LOG is 1. -/
def makeTransient (s : State) (n info : Nat) : State :=
  let s := raiseInt s 0x44 2
  if kLogs s n then
    logEvent s { tick := 0, btime := 0, kind := 1, source := n, count := kCount s n, info }
  else s

/-- One detection of a counted source, or a FOUNTAIN event: whether the source became lasting by it, and the state. -/
def detect (s : State) (n info : Nat) : Bool × State :=
  if !kEn s n then (false, s)
  else
    let c := kCount s n
    let s := bump s (kCnt n) 15 0 1
    if lasting s n then (false, s)
    else if kThr s n ≤ c + 1 then (true, makeLasting s n info)
    else
      let s := if s.kerb.wins.contains n then s else setKerb s { s.kerb with wins := n :: s.kerb.wins }
      (false, makeTransient s n info)

/-- Detections that fall in one cycle, in source order, and their one response. -/
def detectAll (s : State) (l : List Nat) : State :=
  let r := l.foldl (fun (a : List Nat × State) n =>
    let d := detect a.2 n 0
    (if d.1 then a.1 ++ [n] else a.1, d.2)) ([], s)
  respondAll r.2 r.1

/-- The condition of source n as the sensors show it (R418): VMAIN without the Hub rails below their windows while SYS_RST_N is low
(R519), TEMP outside KERB_TEMP_LIM, EXT with an enabled pin at its active level. -/
def senses (s : State) (k : KSense) (n : Nat) : Bool :=
  if n = 3 then k.kerbRail || k.hubHigh || (k.hubLow && s.rstHigh)
  else if n = 6 then
    decide (k.temp.toInt < sext 8 (fld s Reg.KERB_TEMP_LIM 7 0)) || decide (sext 8 (fld s Reg.KERB_TEMP_LIM 15 8) < k.temp.toInt)
  else if n = 11 then
    [0, 1].any fun p => rbit s Reg.KERB_EXT_CFG (2 + p) && k.tamp.getLsbD p == rbit s Reg.KERB_EXT_CFG p
  else k.mask.getLsbD n

/-- Conditions of level sources begin: each source detects whose condition was not present before (R421). -/
def levelsBegin (s : State) (m : Nat) : State :=
  if !domOn s 19 then s
  else
    let l := (bitsOf m 13).filter fun n => levelSrc n && !rbit s Reg.KERB_PRESENT n
    detectAll (setReg s Reg.KERB_PRESENT (BitVec.ofNat 32 ((reg s Reg.KERB_PRESENT).toNat ||| maskOf l))) l

/-- The sensors are read. -/
def kerbDetection (s : State) (k : KSense) : State := levelsBegin s (maskOf ((List.range 13).filter (senses s k)))

/-- The condition of a level source goes away. -/
def levelEnd (s : State) (n : Nat) : State := if levelSrc n && domOn s 19 then setFld s Reg.KERB_PRESENT n n 0 else s

/-- A FAULT report: a page's lasting report makes FAULT lasting and is answered once for each page; any other is transient (R422). -/
def faultReport (s : State) (page : Nat) (last : Bool) : State :=
  if !kEn s 10 then s
  else if last && !s.kerb.answered.contains page then
    respondAll (makeLasting (setKerb s { s.kerb with answered := page :: s.kerb.answered }) 10 page) [10]
  else
    let s := bump s (kCnt 10) 15 0 1
    if lasting s 10 then s else makeTransient s 10 page

/-- The oldest report reaches the Kerb (R420). -/
def kerbReport (s : State) : State :=
  if !domOn s 19 then s
  else match s.kerb.reports with
    | [] => s
    | r :: rest =>
      let s := setKerb s { s.kerb with reports := rest }
      if r.src = 10 then faultReport s r.info r.lasting
      else
        let d := detect s r.src (if r.src = 9 then 0 else r.info)
        if d.1 then respondAll d.2 [r.src] else d.2

/-- A source's window ends with COUNT below THRESHOLD. -/
def kerbWindow (s : State) (n : Nat) : State :=
  if s.kerb.wins.contains n then
    setFld (setKerb s { s.kerb with wins := s.kerb.wins.filter (· != n) }) (kCnt n) 15 0 0
  else s

/-- A write of KERB_INJECT: one detection on each named source; while HARD_LOCK is 1 only bit 12 acts (R440). -/
def kerbInject (s : State) (src : Src) (v : Word) : State :=
  gateReg s src Reg.KERB_INJECT fun s =>
    let l := bitsOf v.toNat 13
    if s.life.hardLock then
      let s := (l.filter (· != 12)).foldl (fun s n => errSynd s 0x44 0x10 (masterOf src) n v.toNat) s
      detectAll s (l.filter (· == 12))
    else detectAll s l

/-- One source is cleared (R423). -/
def clearSource (s : State) (n : Nat) : State :=
  let s := setFld (setFld s (kCnt n) 15 0 0) Reg.KERB_LASTING n n 0
  let s := setKerb s { s.kerb with
    wins := s.kerb.wins.filter (· != n), answered := if n = 10 then [] else s.kerb.answered }
  logEvent s { tick := 0, btime := 0, kind := 6, source := n }

/-- A write of KERB_SRC_CLR: a level source whose condition is present detects again. -/
def srcClr (s : State) (src : Src) (v : Word) : State :=
  gateReg s src Reg.KERB_SRC_CLR fun s =>
    let l := bitsOf v.toNat 13
    let s := l.foldl clearSource s
    detectAll s (l.filter fun n => levelSrc n && rbit s Reg.KERB_PRESENT n)

def execKerbDetection (sense : KSense) (s : State) : Res := .next (kerbDetection s sense)
def execKerbReport (s : State) : Res := .next (kerbReport s)
def execKerbInject (src : Src) (v : BitVec 32) (s : State) : Res := .next (kerbInject s src v)
def execKerbWindowExpire (n : SrcNo) (s : State) : Res := .next (kerbWindow s n.val)
def execKerbSrcClr (src : Src) (v : BitVec 32) (s : State) : Res := .next (srcClr s src v)
def execLevelConditionEnd (n : SrcNo) (s : State) : Res := .next (levelEnd s n.val)

/-! ## The end of a response (R425, R426, R429) -/

/-- Every action but RESET has completed: the RESPONSE entry is queued; without RESET the response is over. The erase wires fall once
the zeroisation has ended. -/
def responseEnd (s : State) : State :=
  match s.kerb.resp with
  | none => s
  | some r =>
    if r.logged || s.mews.zeroising || (s.kerb.erase && !pllRuns s) then s
    else
      let s := logEvent s { tick := 0, btime := 0, kind := 3, source := 0xFF, sources := r.mask, actions := r.act, sev := r.sev }
      setKerb s { s.kerb with
        erase := false, resp := if r.act.testBit 6 then some { r with logged := true } else none }

/-- The RESET action, last, once every other action has completed and the RESPONSE entry is confirmed in FeRAM (R425). DEDUCED: an entry
that went to the backup log instead is not confirmed in FeRAM, and the response then goes on without its RESET. -/
def kerbReset (s : State) : State :=
  match s.kerb.resp with
  | none => s
  | some r =>
    if r.act.testBit 6 && r.conf && !s.mews.zeroising && (!s.kerb.erase || pllRuns s) then
      hubReset (setKerb s { s.kerb with resp := none, erase := false }) 2
    else s

def execResponseEnd (s : State) : Res := .next (responseEnd s)
def execKerbResetAction (s : State) : Res := .next (kerbReset s)

/-! ## KERB_ACK (R428, R441) -/

/-- A write of KERB_ACK. -/
def kerbAck (s : State) (src : Src) (v : Word) : State :=
  gateReg s src Reg.KERB_ACK fun s =>
    let s := if wbit v 0 then setKerb s { s.kerb with lockdown := false } else s
    let s := if wbit v 1 then
        let up := s.kerb.ksev != 0
        let s := setKerb s { s.kerb with sev := 0, ksev := 0 }
        if up then emit s (.pin "KSEV" 0) else s
      else s
    raiseInt (logEvent s { tick := 0, btime := 0, kind := 7, source := 0xFF }) 0x45 1

def execLockdownClr (src : Src) (s : State) : Res := .next (kerbAck s src 1)
def execSevClr (src : Src) (s : State) : Res := .next (kerbAck s src 2)

/-! ## Backup operation (R430 to R436) -/

/-- VBAT is first applied: BTIME starts at 0. -/
def vbatApplied (s : State) : State :=
  if s.bak.vbat then s else { s with bak := { s.bak with vbat := true, btime := 0 } }

/-- What a running response still owes when main power fails: ZEROISE until the zeroisation has ended, and RESET (R430). -/
def respOwed (s : State) (r : KResp) : Nat :=
  (if r.act.testBit 4 && (s.kerb.erase || s.mews.zeroising) then 2 ^ 4 else 0) + (if r.act.testBit 6 then 2 ^ 6 else 0)

/-- The copies of BACKUP_ARM and of the effective responses that backup operation uses (R431). -/
def armCopies (s : State) : State :=
  { s with bak := { s.bak with
    arm := (List.range 13).filter (kArmed s)
    resp := ((List.range 13).map fun n => (n, kActs s n + 256 * kSev s n)).filter fun e => e.2 != 0 } }

/-- A response cut short is recorded as deferred under its lowest source (R430). -/
def deferResp (s : State) : State :=
  match s.kerb.resp with
  | none => s
  | some r =>
    if respOwed s r = 0 then s
    else blogEvent s ((bitsOf r.mask 13).headD 0) 2 (respOwed s r) r.sev (r.act.testBit 5) false

/-- Main power fails: only FeRAM and, with a cell, PD_BACKUP go on. The carrier, the harvest output and XALIVE_OUT fall, and a field
that stands may power the tag (R446, R508, R509). -/
def mainFail (s : State) : State :=
  if !s.mainOn then s
  else
    let s := harvTo (carrierTo (armCopies (deferResp s)) false) (0, 0)
    let s := if s.xing.wave then emit s (.pin "XALIVE_OUT" 0) else s
    let bak := if s.bak.vbat then s.bak else {}
    fieldPower { pending := s.pending, out := s.out, free := s.free, fer := s.fer, bak, mainOn := false
                 life := { state := s.life.state, hardLock := s.life.hardLock }
                 xing := { state := if bak.pairRoot.isSome then 1 else 0 }
                 kiosk := kioskFresh s
                 mem := s.mem.filter fun e => feramAddr e.1 }

/-- The erase logic acts from the cell and records an alarm with the source's effective response (R432, R434). -/
def backupErase (s : State) (n kind : Nat) : State :=
  let r := tget 0 s.bak.resp n
  blogEvent (eraseSecrets s) n kind (r % 256) (r / 256) true false

/-- PD_BACKUP runs alone from the cell. -/
def backupOnly (s : State) : Bool := !s.mainOn && s.bak.vbat

def backupAlarm (s : State) (n : Nat) : State :=
  if backupOnly s && s.bak.arm.contains n then backupErase s n 1 else s

def brownout (s : State) : State := if backupOnly s then backupErase s 4 3 else s

/-- KOSC stops while main power is present: an alarm of source 5, armed (R435). -/
def koscStop (s : State) : State :=
  if s.mainOn then blogEvent (eraseSecrets s) 5 1 (kActs s 5) (kSev s 5) true false else s

/-- The mesh pattern changes (R418). -/
def meshChange (s : State) : State :=
  if s.mainOn || s.bak.vbat then
    let r := freshNat s
    setKerb r.2 { r.2.kerb with mesh := r.1 % 2 ^ 16 }
  else s

/-- The backup entries not yet applied, with their indices. -/
def unapplied (s : State) : List (Nat × BlogEnt) :=
  ((List.range s.bak.blog.length).zip s.bak.blog).filter fun e => !e.2.applied

/-- The deferred actions at power-up: what reaches memories that are not yet powered is met by their power-up (R436). -/
def applyDeferred (s : State) (mask act sev : Nat) : State :=
  let s := setKerb s { s.kerb with sev, deferred := true, erase := act.testBit 4, lockdown := act.testBit 3 }
  let s := setReg s Reg.KERB_LAST_SRC (BitVec.ofNat 32 mask)
  let s := setReg s Reg.KERB_LAST_ACT (BitVec.ofNat 32 (act + 256 * sev))
  let s := raiseInt s 0x44 (8 + (if act.testBit 0 then 4 else 0) + (if act.testBit 3 then 16 else 0))
  if act.testBit 1 then actAlert s sev else s

/-- The backup log is read, its open entries applied as one response, copied to the log and marked (R436). -/
def deferred (s : State) : State :=
  let l := unapplied s
  if l.isEmpty then s
  else
    let act := l.foldl (fun a e => a ||| e.2.actions) 0
    let sev := l.foldl (fun a e => max a e.2.sev) 0
    let mask := maskOf (l.map fun e => e.2.source)
    let s := applyDeferred s mask act sev
    let s := l.foldl (fun s e => logPush s { tick := 0, btime := e.2.btime, kind := 4, source := e.2.source, actions := e.2.actions,
                                             sev := e.2.sev, lc := s.life.state, count := e.2.count, info := e.1 }) s
    let s := logEvent s { tick := 0, btime := 0, kind := 5, source := 0xFF, sources := mask, actions := act, sev }
    { s with bak := { s.bak with blog := s.bak.blog.map fun e => { e with applied := true } } }

/-- Main power returns: PD_KERB and PD_FERAM power up, the deferred actions are applied, and boot waits for SYS_RST_N. -/
def kerbPowerUp (s : State) : State :=
  if s.mainOn then s
  else
    let s := fieldSeen (setKiosk { s with mainOn := true, rstHigh := false } (kioskFresh s))
    logEvent (deferred s) { tick := 0, btime := 0, kind := 8, source := 0xFF }

def execVbatApplied (s : State) : Res := .next (vbatApplied s)
def execMainPowerFail (s : State) : Res := .next (mainFail s)
def execBackupAlarm (n : SrcNo) (s : State) : Res := .next (backupAlarm s n.val)
def execBrownout (s : State) : Res := .next (brownout s)
def execKoscStop (s : State) : Res := .next (koscStop s)
def execMeshPatternChange (s : State) : Res := .next (meshChange s)
def execKerbPowerUp (s : State) : Res := .next (kerbPowerUp s)

/-! ## Reading the logs (R442) -/

/-- The words of a byte string from a register on, latched. -/
def latchWords (s : State) (base n : Nat) (b : Bytes) : State :=
  (List.range n).foldl (fun s i => setReg s (base + 4 * i) (BitVec.ofNat 32 (leAt b (4 * i) 4))) s

/-- A read of a register that latches n words from it. -/
def latchRead (s : State) (src : Src) (base n : Nat) (b : State → Bytes) : State :=
  gateRead s src base fun s =>
    let s := latchWords s base n (b s)
    emit s (.readData src (toLe 4 (reg s base).toNat))

/-- The entry KERB_LOG_SEL selects; zeros when it is overwritten or not yet written. -/
def selectedLog (s : State) : Bytes :=
  let q := (reg s Reg.KERB_LOG_SEL).toNat
  let back := (s.fer.logNext + 2 ^ 32 - q) % 2 ^ 32
  if 1 ≤ back && back ≤ 8192 then (tget [] s.fer.log (q % 8192)) else []

def selectedBlog (s : State) : Bytes :=
  match s.bak.blog[fld s Reg.KERB_BLOG_SEL 5 0]? with
  | some e => blogBytes e
  | none => []

def logDataRead (s : State) (src : Src) : State := latchRead s src Reg.KERB_LOG_DATA 8 selectedLog
def blogDataRead (s : State) (src : Src) : State := latchRead s src Reg.KERB_BLOG_DATA 4 selectedBlog

/-- A read of KERB_BTIME_LO latches HI. -/
def btimeRead (s : State) (src : Src) : State :=
  gateRead s src Reg.KERB_BTIME_LO fun s =>
    let r := readBtime s
    let s := latchWords r.2 Reg.KERB_BTIME_LO 2 (toLe 8 r.1)
    emit s (.readData src (toLe 4 r.1))

/-- A write of KERB_BLOG_CLR. -/
def blogClr (s : State) (src : Src) (v : Word) : State :=
  gateReg s src Reg.KERB_BLOG_CLR fun s =>
    if wbit v 0 then { s with bak := { s.bak with blog := s.bak.blog.filter fun e => !e.applied } } else s

def execKerbBlogClr (src : Src) (s : State) : Res := .next (blogClr s src 1)
def execKerbLogData0Read (src : Src) (s : State) : Res := .next (logDataRead s src)
def execKerbBlogData0Read (src : Src) (s : State) : Res := .next (blogDataRead s src)
def execKerbBtimeLoRead (src : Src) (s : State) : Res := .next (btimeRead s src)

end Sys2Proof.Machine
end

