-- ==== Sys2Proof/Machine/Boot.lean ====
section
/-! DEFINITION. The boot sequence from the PLL to READY and the autoload, the loss of the PLL, and the boot configuration
(R520, R522, R525 to R530). -/
namespace Sys2Proof.Machine
open Sys2Proof

/-- The PLL loses lock: the Kerb's CLOCK source detects it, and the Hub is reset (R522, R418). -/
def pllLoss (s : State) : State := if pllRuns s then hubReset (levelsBegin s (2 ^ 5)) 4 else s

/-- CLK_STAT once the PLL has locked: the preferred reference if it is present, otherwise the other (R520). -/
def clkStat (prefer1 ref0 ref1 : Bool) : Word :=
  BitVec.ofNat 32 (1 + 2 * b2n (if prefer1 then ref1 else !ref0) + 4 * b2n ref0 + 8 * b2n ref1)

/-- The PLL locks: the erase wires, if asserted, fall with the memories about to be zeroed; the Hub domains power up, the Fountain
starts and every unit begins its test (R525). -/
def pllLock (s : State) (ref0 ref1 : Bool) : State :=
  if s.mainOn && bootStage s == 1 && (ref0 || ref1) then
    let s := setStage (setKerb s { s.kerb with erase := false }) 3
    fountainStart (setReg s Reg.CLK_STAT (clkStat (wbit s.fer.bootCfg 0) ref0 ref1))
  else s

/-- Hub SRAM is zeroed: the lifecycle record is read, its effects applied again and the root derived, and the device is READY
(R167, R206, R525, R527). -/
def sramInitDone (s : State) (us : Word) : State :=
  if bootStage s != 3 || !s.mainOn then s
  else
    let s := memClear s sramBase sramEnd
    let n := s.fer.bootCount + 1
    let g := 1 + n % 0x7FFF
    let s := { s with fer := { s.fer with bootCount := n }, mews := { s.mews with genBase := g, bootGen := g } }
    let s := lcBoot s
    let s := setFld (setFld (setStage s 5) Reg.BOOT_STAT 31 31 1) Reg.BOOT_STAT 23 16 (if (lcNow s).isNone then 1 else 0)
    let s := setReg s Reg.BOOT_TIME us
    let a := if wbit s.fer.bootCfg 1 then some (wbit s.fer.bootCfg 2, s.fer.bootLba.toNat) else none
    aliveWave (raiseInt { s with autoload := a } 3 1)

/-- Every powered Arcade unit has ended its test. -/
def arcTested (s : State) : Bool := (List.range 8).all fun u => !(domOn s (aunitDom u)) || !(aunit s u).kat

/-- The autoload begins: Depot INIT once the Arcade tests have ended; the loader follows when INIT has succeeded (R528). -/
def autoloadRun (s : State) : State :=
  if s.autoload.isNone || !bootReady s || !arcTested s || depotBusy s || s.load.isSome || bootStage s != 5 then s
  else
    let s := setStage s 6
    if !domOn s 23 || s.kerb.lockdown || !sdPresent s then autoloadEnds s false else depotInitRun s true

def execPllLoss (s : State) : Res := .next (pllLoss s)
def execPllLock (ref0 ref1 : Bool) (s : State) : Res := .next (pllLock s ref0 ref1)
def execSramInitDone (us : BitVec 32) (s : State) : Res := .next (sramInitDone s us)
def execAutoload (_ended : Unit) (s : State) : Res := .next (autoloadRun s)

/-- A write of a register that FeRAM keeps: refused when locked and different, otherwise confirmed within three read-backs or
recorded (R33, R530). -/
def feramWrite (s : State) (src : Src) (key : Nat) (old v : Word) (fails written : Nat) (k : FeRam → FeRam) : State :=
  gateReg s src key fun s =>
    if pageLocked s 3 (key % 0x1000) then
      if old = v then s else errSynd s 3 0x02 (masterOf src) 0 (key % 0x1000)
    else if 3 ≤ fails then errSynd s 3 0x11 (masterOf src) 0 written
    else { s with fer := k s.fer }

def bootCfgWrite (s : State) (src : Src) (v : Word) (fails : Nat) : State :=
  feramWrite s src Reg.BOOT_CFG s.fer.bootCfg (v &&& 7) fails v.toNat fun f => { f with bootCfg := v &&& 7 }
def bootLbaWrite (s : State) (src : Src) (v : Word) (fails : Nat) : State :=
  feramWrite s src Reg.BOOT_LBA s.fer.bootLba v fails v.toNat fun f => { f with bootLba := v }

def execBootCfgWrite (src : Src) (v : BitVec 3) (fails : Nat) (s : State) : Res :=
  .next (bootCfgWrite s src (v.setWidth 32) fails)
def execBootLbaWrite (src : Src) (v : BitVec 32) (fails : Nat) (s : State) : Res := .next (bootLbaWrite s src v fails)

end Sys2Proof.Machine
end

