-- ==== Sys2Proof/Machine/Flags.lean ====
section
/-! DEFINITION. CY and the predicates of the Ixmet cores: how each is read and written, the carry and the borrow, the relations and
the combinations of TEST (R326, R335, R336, R342, R344). -/
namespace Sys2Proof.Machine
open Sys2Proof

/-- CY as a number. -/
def cyIn (r : CoreRegs) : Nat := b2n (wbit r.psw 0)
/-- The registers with CY written. -/
def setCy (r : CoreRegs) (b : Bool) : CoreRegs := { r with psw := wput r.psw 0 0 (b2n b) }

/-- Predicate p; P0 always reads 1. -/
def pred (r : CoreRegs) (p : Nat) : Bool := if p = 0 then true else wbit r.psw p
/-- The registers with a predicate written; P0 has no storage. -/
def setPred (r : CoreRegs) (p : Nat) (b : Bool) : CoreRegs :=
  if p = 0 then r else { r with psw := wput r.psw p p (b2n b) }

/-- The carry out of bit 31 of a + b + k. -/
def carryOut (a b : Word) (k : Nat) : Bool := decide (2 ^ 32 ≤ a.toNat + b.toNat + k)
/-- The borrow of a − b − k: a < b + k, unsigned. -/
def borrowOut (a b : Word) (k : Nat) : Bool := decide (a.toNat < b.toNat + k)

/-- The relation REL of a and b (R344). -/
def relation (rel : BitVec 3) (a b : Word) : Bool :=
  match rel.toNat with
  | 0 => a == b
  | 1 => a != b
  | 2 => a.slt b
  | 3 => !a.slt b
  | 4 => a.ult b
  | 5 => !a.ult b
  | 6 => (a &&& b) != 0
  | _ => (a &&& b) == 0

/-- The new value of a predicate under COMB (R344). -/
def combined (comb : BitVec 2) (old r : Bool) : Bool :=
  if comb = 0 then r else if comb = 1 then old && r else old || r

end Sys2Proof.Machine
end

