-- ==== Sys2Proof/Machine/View.lean ====
section
/-! DEFINITION. What a register reads: a stored register its stored value, a register that shows live state the value computed from
it (the RO fields of every chapter's register tables). -/
namespace Sys2Proof.Machine
open Sys2Proof

/-- The bits of a predicate over 0 to n - 1. -/
def maskIf (n : Nat) (p : Nat → Bool) : Nat := maskOf ((List.range n).filter p)

/-! ## The page header (R30) -/

/-- INSTANCE of a page (R41). -/
def pageInstance (p : Nat) : Nat :=
  if 8 ≤ p && p ≤ 0x0B then p - 8
  else if 0x11 ≤ p && p ≤ 0x18 then p - 0x11
  else if 0x20 ≤ p && p ≤ 0x27 then p - 0x20
  else if 0x30 ≤ p && p ≤ 0x3F then p - 0x30
  else 0

/-- PAGE_CAP.BLOCK_CAP of a page, as its chapter gives it. -/
def blockCap (p : Nat) : Nat :=
  match p with
  | 0x02 => 0x18
  | 0x08 => 1
  | 0x09 => 2
  | 0x04 => 0x2814
  | 0x11 => 0x10FF
  | 0x19 => 0x3
  | 0x1A => 0x20
  | 0x20 => 0x34000
  | 0x28 => 0x20000
  | 0x2A => 0x7FF
  | 0x2C => 0x4
  | 0x30 => 0x10100
  | 0x40 => 0x80100
  | 0x44 => 0xD
  | 0x46 => 0x402000
  | 0x48 => 0x8
  | 0x49 => 0x400
  | 0x4C => 0xFF
  | 0x4D => 0x2
  | 0x4E => 0x800
  | _ =>
    if 0x12 ≤ p && p ≤ 0x18 then 0xFF
    else if 0x21 ≤ p && p ≤ 0x27 then 0x14000
    else if 0x31 ≤ p && p ≤ 0x3F then 0x100
    else 0

/-- A lane pair or pipeline is busy (a command or its test), or offline (R147, R148, R162). -/
def cunitBusy (s : State) (u : Nat) : Bool := (cunit s u).ctx.isSome || (cunit s u).kat
def cunitOff (s : State) (u : Nat) : Bool := (cunit s u).offline || (cunit s u).forced

/-- PAGE_STAT.BLOCK_STAT of a page, as its chapter gives it. -/
def blockStat (s : State) (p : Nat) : Nat :=
  if p = 0x02 then b2n (reg s Reg.PWR_BUSY != 0)
  else if p = 0x04 then s.clk.lock + 4 * b2n s.clk.load.isSome
  else if 0x11 ≤ p && p ≤ 0x18 then
    maskIf 8 (fun n => cunitBusy s (8 * (p - 0x11) + n)) + 2 ^ 8 * maskIf 8 fun n => cunitOff s (8 * (p - 0x11) + n)
  else if p = 0x19 then maskIf 2 (fun n => cunitBusy s (64 + n)) + 4 * maskIf 2 fun n => cunitOff s (64 + n)
  else if 0x20 ≤ p && p ≤ 0x27 then
    let v := aunit s (p - 0x20)
    b2n (v.ctx.isSome || v.kat || v.zero || v.internal.isSome) + 2 * b2n (fld s (rk p Reg.ARC_MODE) 14 12 == 5) + 4 * b2n (v.offline || v.forced)
  else if p = 0x28 then
    b2n (cascadePending s != 0) + 2 * b2n s.mews.assign.isSome + 4 * b2n s.mews.zeroising
  else if p = 0x2A then b2n (s.quay.ctxs.any fun e => e.2.waitRsv && decide (0x60 ≤ e.2.d.opcode))
  else if p = 0x2C then b2n (intServing s) + 2 * b2n (swServing s)
  else if 0x30 ≤ p && p ≤ 0x3F then coreStateOf s (p - 0x30)
  else if p = 0x40 then b2n s.chk.rcmd.isSome + 2 ^ 8 * maskIf 8 fun e => (tfind s.chk.dma e).isSome
  else if p = 0x44 then s.kerb.sev + 4 * b2n s.kerb.lockdown
  else if p = 0x48 then s.xing.state
  else if p = 0x49 then s.fer.fleetRole
  else if p = 0x4C then b2n (sdPresent s) + 2 * b2n (sdReady s) + 4 * b2n (depotBusy s)
  else if p = 0x4D then b2n (pbActive s 0) + 2 * b2n (pbActive s 1)
  else if p = 0x4E then kMode s + 4 * b2n (inSession s)
  else 0

/-- A header register of page p, when it is computed. -/
def headerView (s : State) (p off : Nat) : Option Nat :=
  match off with
  | 0x000 => some (0xAD2E * 2 ^ 16 + pageInstance p * 2 ^ 8 + p)
  | 0x004 => some 0x00010000
  | 0x008 => some (2 ^ 31 + blockCap p)
  | 0x010 => some (blockStat s p + 2 ^ 29 * b2n (rbit s (rk p Reg.PAGE_LOCK) 0) + 2 ^ 30 * b2n (rbit s (rk p Reg.PAR_STAT) 31)
      + 2 ^ 31 * b2n (rbit s (rk p Reg.PAGE_STAT) 31))
  | _ => none

/-! ## The block registers that show live state -/

/-- Pages 0x08 to 0x10. -/
def viewQuay (s : State) (key : Nat) : Option Nat :=
  if key = Reg.QUAY_QCMD then some ((reg s key).toNat + 2 ^ 31 * b2n (qcmdWaits s))
  else if key = Reg.QUAY_DOM_RESV then some (domAt s (fld s Reg.QUAY_DOM_SEL 11 0)).resv
  else if key = Reg.QUAY_DOM_CAP then some (domAt s (fld s Reg.QUAY_DOM_SEL 11 0)).cap
  else if key = Reg.QUAY_DOM_INFL then some (domHeld s (fld s Reg.QUAY_DOM_SEL 11 0))
  else if key = Reg.QUAY_CTX_FREE then some (ctxFree s)
  else if key = Reg.QUAY_RESV_TOTAL then some (resvTotal s)
  else if key = Reg.QUAY_RPL_PARKED then
    some (s.quay.ctxs.filter fun e => match e.2.phase with
      | .parked _ => true
      | _ => false).length
  else if key = Reg.RBT_HELD then some (heldCount s)
  else if key = Reg.RBT_ENG_AVAIL then
    let x := (reg s Reg.RBT_ENG_EXCL).toNat
    some (maskIf 18 fun n =>
      !x.testBit n && domOn s (if n < 8 then 1 + n else if n < 10 then 9 else aunitDom (n - 10)))
  else none

/-- Pages 0x11 to 0x1A. -/
def viewLanes (s : State) (key : Nat) : Option Nat :=
  if key = Reg.LANE_NONCE_CFG then some ((reg s key).toNat % 2 ^ 31 + 2 ^ 31 * b2n (twinB s))
  else if key = Reg.LANE_SHARES then
    some (laneShares s + 2 ^ 12 * (cunit s 64).shares + 2 ^ 16 * (cunit s 65).shares + 2 ^ 24 * sharesFree s)
  else if key = Reg.LANE_RSV_WAIT then
    some (s.quay.ctxs.filter fun e => e.2.waitRsv && decide (e.2.d.opcode < 0x60)).length
  else if key = Reg.HASH_BUSY then some (maskIf 32 fun u => domOn s (1 + u / 4) && (hunit s u).ctx.isSome)
  else if key = Reg.HASH_OFFLINE then some (maskIf 32 fun u => domOn s (1 + u / 4) && (hunit s u).offline)
  else none

/-- Pages 0x20 to 0x2C. -/
def viewKeys (s : State) (key : Nat) : Option Nat :=
  if key = Reg.ARC_CURVE_INFO then
    some (match tfind s.curves (fld s Reg.ARC_CURVE_SEL 5 0) with
      | some c => 2 ^ 31 + c.h % 16 * 2 ^ 27 + c.pbits % 2048 * 2 ^ 16 + c.dom % 4096
      | none => 0)
  else if key = Reg.ARC_CURVE_USED then some s.curves.length
  else if key = Reg.MEWS_ASSIGN_CMD then some ((reg s key).toNat + 2 ^ 31 * b2n s.mews.assign.isSome)
  else if key = Reg.MEWS_LIVE then some (liveCount s)
  else if key = Reg.MEWS_CASCADE then some (cascadePending s)
  else if key = Reg.MEWS_BOOT_GEN then some s.mews.bootGen
  else if key = Reg.LC_STATE then
    some (s.life.state + 2 ^ 8 * b2n s.life.root.isSome + 2 ^ 9 * b2n (custValid s) + 2 ^ 10 * b2n s.life.hardLock
      + 2 ^ 11 * b2n s.life.transitioning)
  else if key = Reg.LC_SERIAL_LO then some (ownSerial % 2 ^ 32)
  else if key = Reg.LC_SERIAL_HI then some (ownSerial / 2 ^ 32)
  else if key = Reg.LC_TOTAL then some (lcTotal s)
  else if key = Reg.LC_CMD then some ((reg s key).toNat + 2 ^ 31 * b2n s.life.op.isSome)
  else if key = Reg.LC_CNT then some (lcCount s (reg s Reg.LC_CNT_SEL).toNat)
  else if key = Reg.COMP_ACTIVE then some (s.quay.ctxs.filter fun e => !e.2.resv.isEmpty).length
  else if key = Reg.FNT_CFG then
    some ((reg s key).toNat % 4 + (if s.life.state = 1 || s.life.state = 2 then 4 * b2n (rbit s key 2) else 0)
      + 2 ^ 8 * fld s key 15 8)
  else if key = Reg.FNT_STAT then
    let paused (d : Drbg) : Bool := d.on && decide (seedLimit ≤ d.reqs)
    some (s.fnt.state + 2 ^ 8 * b2n (intServing s) + 2 ^ 9 * b2n (swServing s) + 2 ^ 10 * b2n (paused s.fnt.int)
      + 2 ^ 11 * b2n (paused s.fnt.sw) + 2 ^ 16 * (s.fnt.tries % 32))
  else if key = Reg.FNT_WAIT then some (maskOf (s.fnt.draws.map (·.1)))
  else if key = Reg.FNT_KAT then some (2 ^ 8 * b2n s.fnt.katBusy + 2 ^ 9 * b2n s.fnt.katPass)
  else if key = Reg.FNT_RAW_CNT then some (s.fnt.raw.length / 32)
  else none

/-- Pages 0x01 to 0x04, and 0x48 and 0x49. -/
def viewTime (s : State) (key : Nat) : Option Nat :=
  if key = Reg.CT_SLEW then some (sat32 s.clk.corr).toNat
  else if key = Reg.CT_TICK_LO then some (s.tick % 2 ^ 32)
  else if key = Reg.CT_STAT then some (s.clk.lock + 4 * b2n (s.clk.corr != 0))
  else if key = Reg.CT_CMD then some ((reg s key).toNat + 2 ^ 31 * b2n s.clk.load.isSome)
  else if key = Reg.BOOT_CFG then some s.fer.bootCfg.toNat
  else if key = Reg.BOOT_LBA then some s.fer.bootLba.toNat
  else if key = Reg.XING_STAT then
    some (s.xing.state + 2 ^ 4 * b2n s.fer.pairB + 2 ^ 5 * b2n s.xing.seqr + 2 ^ 6 * b2n s.xing.aliveIn
      + 2 ^ 7 * b2n s.bak.pairRoot.isSome + 2 ^ 8 * s.xing.joinErr)
  else if key = Reg.XING_CMD then some ((reg s key).toNat + 2 ^ 31 * b2n (xingBusy s))
  else if key = Reg.XING_PEER_SERIAL_LO then some (s.fer.peerSerial % 2 ^ 32)
  else if key = Reg.XING_PEER_SERIAL_HI then some (s.fer.peerSerial / 2 ^ 32)
  else if key = Reg.XING_PAIR_CNT then some s.fer.pairCnt
  else if key = Reg.XING_QROLE then some (queueAt s (fld s Reg.XING_QSEL 13 0)).role
  else if key = Reg.FLEET_STAT then
    some (s.fer.fleetRole + 4 * b2n s.bak.fleetRoot.isSome + 8 * b2n s.fleet.tickPend + 16 * b2n s.fleet.tickFail)
  else if key = Reg.FLEET_CMD then some ((reg s key).toNat + 2 ^ 31 * b2n (fleetBusy s))
  else if key = Reg.FLEET_ID_LO && s.fer.fleetRole != 0 then some (s.fer.fleetId % 2 ^ 32)
  else if key = Reg.FLEET_ID_HI && s.fer.fleetRole != 0 then some (s.fer.fleetId / 2 ^ 32)
  else if key = Reg.FLEET_WARDS then some s.fer.wards.length
  else if key = Reg.FLEET_WARD_SEQ then
    some (if s.fer.fleetRole = 2 then s.fer.lastSeq
      else ((tfind s.fer.wards (fld s Reg.FLEET_WARD_SEL 9 0)).map (·.seq + 1)).getD 0)
  else none

/-- Pages 0x30 to 0x40. -/
def viewCores (s : State) (key : Nat) : Option Nat :=
  let p := key / 0x1000
  let off := key % 0x1000
  if 0x30 ≤ p && p ≤ 0x3F then
    let c := p - 0x30
    if off = Reg.IXM_STAT then some (coreStateOf s c)
    else if off = Reg.IXM_PC then some (if (coreAt s c).state = 1 then (coreAt s c).r.pc.toNat else 0)
    else if off = Reg.IXM_INT_STAT then some (pendMask s c)
    else if Reg.SV_SMP_BUF ≤ off && off < 0x800 then
      let m := tget { w0 := 0, w1 := 0, w2 := 0, w3 := 0 } (coreAt s c).samples ((off - Reg.SV_SMP_BUF) / 16)
      some (match off / 4 % 4 with
        | 0 => m.w0.toNat
        | 1 => m.w1.toNat
        | 2 => m.w2.toNat
        | _ => m.w3.toNat)
    else if key = Reg.IXM_LD_CMD then some ((reg s key).toNat + 2 ^ 31 * b2n s.load.isSome)
    else if key = Reg.IXM_LD_FLOOR then some (s.fer.svnVendor % 2 ^ 16 * 2 ^ 16 + s.fer.svnInteg % 2 ^ 16)
    else none
  else if key = Reg.CHECKPOINT_RCMD then some ((reg s key).toNat + 2 ^ 31 * b2n s.chk.rcmd.isSome)
  else if 0x40100 ≤ key && key < 0x40200 && key % 0x20 = 0x18 then
    some ((reg s key).toNat % 2 ^ 31 + 2 ^ 31 * b2n (tfind s.chk.dma ((key - 0x40100) / 0x20)).isSome)
  else none

/-- Pages 0x44 to 0x4E. -/
def viewKerb (s : State) (key : Nat) : Option Nat :=
  if key = Reg.KERB_STAT then
    some (s.kerb.sev + 4 * b2n s.kerb.lockdown + 8 * b2n s.kerb.resp.isSome + 16 * b2n s.kerb.deferred + 32 * b2n s.life.hardLock)
  else if Reg.KERB_RESP_EFF ≤ key && key < Reg.KERB_RESP_EFF + 52 then
    let n := (key - Reg.KERB_RESP_EFF) / 4
    some (kActs s n + 256 * kSev s n)
  else if key = Reg.KERB_LOG_NEXT then some s.fer.logNext
  else if key = Reg.KERB_BLOG_STAT then some (s.bak.blog.length + 2 ^ 8 * (unapplied s).length)
  else if key = Reg.DEPOT_CMD then some ((reg s key).toNat + 2 ^ 31 * b2n (depotBusy s))
  else if key = pr 0 Reg.PB_CMD then some ((reg s key).toNat + 2 ^ 31 * b2n (pbBusy s 0))
  else if key = pr 1 Reg.PB_CMD then some ((reg s key).toNat + 2 ^ 31 * b2n (pbBusy s 1))
  else if key = Reg.KIOSK_RD_CMD then some ((reg s key).toNat + 2 ^ 31 * b2n s.kiosk.rd.isSome)
  else if key = Reg.KIOSK_PLC_CMD then some ((reg s key).toNat + 2 ^ 31 * b2n s.kiosk.plc.isSome)
  else if mbxBuf ≤ key && key < mbxBuf + 0x100 && !holdGnt s then some 0
  else if mbxBuf + 0x100 ≤ key && key < mbxBuf + 0x200 then some 0
  else none

/-- The width of a register that shows a quantity nothing in the device fixes: requests outstanding, the temperature and the cell's
voltage. -/
def freeWidth (key : Nat) : Option Nat :=
  if key = rk 8 Reg.QUAY_DMA_OUTST || key = rk 9 Reg.QUAY_DMA_OUTST then some 13
  else if key = Reg.KERB_TEMP then some 8
  else if key = Reg.KERB_VBAT then some 12
  else none

/-- The word a register reads, without the read's side effects. -/
def view (s : State) (key : Nat) : Nat :=
  let p := key / 0x1000
  let o := headerView s p (key % 0x1000) <|> viewQuay s key <|> viewLanes s key <|> viewKeys s key <|> viewTime s key
    <|> viewCores s key <|> viewKerb s key
  o.getD (reg s key).toNat

/-- The word a register reads, and the state that has drawn what the word needs. -/
def viewDraw (s : State) (key : Nat) : Nat × State :=
  match freeWidth key with
  | some w =>
    let r := freshNat s
    (if w = 13 then min 4096 (r.1 % 2 ^ 13) else r.1 % 2 ^ w, r.2)
  | none => (view s key, s)

end Sys2Proof.Machine
end

