-- ==== Sys2Proof/Machine/RegAccess.lean ====
section
/-! DEFINITION. Register accesses from ports, cores and BAR2: sizes, sub-word writes, RC reads, the header's commands, parity, and the
registers whose write is a command (R9 to R11, R22 to R25, R30 to R40, R48, R49). -/
namespace Sys2Proof.Machine
open Sys2Proof

/-! ## The header's commands and events (R30, R33, R34, R39, R40, R300) -/

/-- CNT_CLEAR: the count and LASTING clear, the window stops; in FAILED the Fountain starts again (R34, R300). -/
def cntClear (s : State) (p : Nat) : State :=
  let s := setFld (setFld s (rk p Reg.FAULT_CNT) 15 0 0) (rk p Reg.PAGE_STAT) 31 31 0
  let s := { s with wins := s.wins.filter (· != p) }
  if p = 0x2C && s.fnt.state == 5 then fountainStart (endDead s) else s

/-- INT_FORCE: the named INT_STAT bits are set as if their events had occurred. -/
def intForce (s : State) (p : Nat) (v : Word) : State := raiseInt s p v.toNat

/-- PAGE_LOCK.LOCK; of page 0x11 it also locks DEV in PD_MEWS (R33, R135). -/
def pageLock (s : State) (p : Nat) : State :=
  let s := setFld s (rk p Reg.PAGE_LOCK) 0 0 1
  if p = 0x11 then { s with units := { s.units with devLock := true } } else s

/-- A fault window expires below the threshold. -/
def faultWindow (s : State) (p : Nat) : State :=
  if s.wins.contains p && pageOn s p then
    setFld { s with wins := s.wins.filter (· != p) } (rk p Reg.FAULT_CNT) 15 0 0
  else s

/-- A register exists at a BAR0 offset and is powered: one of the page's own, or of its header (PAGE_ID, PAGE_VER, PAGE_CAP and
PAGE_STAT among them, R30). -/
def regThere (s : State) (key : Nat) : Bool :=
  key % 4 == 0 && regOn s (key / 0x1000) (key % 0x1000)
    && (!(fieldsAt (key / 0x1000) (key % 0x1000)).isEmpty
      || ((headerView s (key / 0x1000) (key % 0x1000)).isSome && implemented (key / 0x1000)))

/-- A register is found with bad parity (R11, R40): the stored value stands, PAR_STAT and INT_STAT.PARITY are set and one fault is
counted. It is not counted again until it is written or updated; an update of a register that shows live state is seen by the
value it shows. -/
def parityFail (s : State) (key : Nat) : State :=
  let p := key / 0x1000
  if !regThere s key || tfind s.parBad key == some (view s key) then s
  else
    let ps := rk p Reg.PAR_STAT
    let s := { s with parBad := tput s.parBad key (view s key) }
    let s := if rbit s ps 31 then setFld s ps 30 30 1
      else setReg s ps (BitVec.ofNat 32 (2 ^ 31 + key % 0x1000 / 4))
    countFault (raiseInt s p (2 ^ 30)) p

/-- The scrub, or a use of a register by its block's logic, finds the listed registers bad (R39). -/
def parityScrub (s : State) (bad : List Nat) : State := bad.foldl parityFail s

def execCntClear (src : Src) (page : PageNo) (s : State) : Res :=
  .next (gate s src page.val Reg.PAGE_CTRL fun s => cntClear s page.val)
def execIntForce (src : Src) (page : PageNo) (v : BitVec 32) (s : State) : Res :=
  .next (gate s src page.val Reg.INT_FORCE fun s => intForce s page.val v)
def execPageLock (src : Src) (page : PageNo) (s : State) : Res :=
  .next (gate s src page.val Reg.PAGE_LOCK fun s => pageLock s page.val)
def execFaultWindowExpire (page : PageNo) (s : State) : Res := .next (faultWindow s page.val)
def execParityScrub (bad : List Nat) (s : State) : Res := .next (parityScrub s bad)

/-! ## Writes: the registers whose write is a command -/

/-- A write that stores its fields after the gate, then goes on. -/
def storeThen (s : State) (src : Src) (key : Nat) (v : Word) (k : State → State) : State :=
  gateReg s src key fun s => k (plainWrite s src (key / 0x1000) (key % 0x1000) v)

/-- A write that is only stored. -/
def store (s : State) (src : Src) (key : Nat) (v : Word) : State := storeThen s src key v id

/-- QUAY_QCMD (R76). -/
def writeQcmd (s : State) (src : Src) (w : Word) : State :=
  let v := w.toNat
  match wbits w 3 0 with
  | 1 => qcmd s src false 1 v qcmdRead
  | 2 => qcmd s src false 2 v qcmdWrite
  | 3 => qcmd s src false 3 v qcmdEnable
  | 4 => qcmd s src false 4 v qcmdDisable
  | 5 => qcmd s src false 5 v qcmdAbort
  | 6 => qcmd s src false 6 v qcmdClear
  | c => qcmdUnknown s src c v

/-- LC_CMD (R209): an unknown command ends with RESULT 0xF. -/
def writeLc (s : State) (src : Src) (w : Word) : State :=
  let v := w.toNat
  match wbits w 3 0 with
  | 1 => transition s src v 0
  | 2 => custInstall s src v
  | c => lcCmd s src v fun s => lcStarts s c 0xF

/-- CT_CMD (R317, R320): an unknown command gives RESULT 0xF. -/
def writeCt (s : State) (src : Src) (w : Word) : State :=
  let v := w.toNat
  match wbits w 3 0 with
  | 1 => loadNow s src v
  | 2 => loadAtSync s src v
  | 3 => cancelLoad s src
  | _ => ctCmd s src v fun s => setFld s Reg.CT_CMD 7 4 0xF

/-- IXM_LD_CMD: a host's header comes with the row LOAD or LOAD_START; here it comes later, with IMAGE_LOAD_DONE. -/
def writeLd (s : State) (src : Src) (w : Word) : State :=
  let v := w.toNat
  match wbits w 3 0 with
  | 1 => loaderGo (loadCmd s src v false none)
  | 2 => loaderGo (loadCmd s src v true none)
  | _ => ldCmd s src v fun s => loadDone s (loadOp s false false) 0xF

/-- CHECKPOINT_RCMD (R408). -/
def writeRcmd (s : State) (src : Src) (w : Word) : State :=
  let v := w.toNat
  match wbits w 3 0 with
  | 1 => rcmd s src true v rcmdRead
  | 2 => rcmd s src true v rcmdWrite
  | 3 => rcmd s src true v rcmdClear
  | _ => rcmd s src true v rcmdUnknown

/-- XING_CMD (R468): no peer is there yet and every read-back passes; the row COMMIT carries them. -/
def writeXing (s : State) (src : Src) (w : Word) : State :=
  let v := w.toNat
  match wbits w 3 0 with
  | 1 => xingCmd s src v prepareRun
  | 2 => xingCmd s src v fun s => commitRun s none 0
  | 3 => xingCmd s src v leaveRun
  | 4 => xingCmd s src v takeoverRun
  | 5 => xingCmd s src v unpairRun
  | _ => xingCmd s src v fun s => xingEnd s 0xF

/-- FLEET_CMD (R469). -/
def writeFleet (s : State) (src : Src) (w : Word) : State :=
  let v := w.toNat
  match wbits w 3 0 with
  | 1 => fleetCmd s src v foundRun
  | 2 => fleetCmd s src v fun s => enrolRun s 0
  | 3 => fleetCmd s src v fun s => admissionRun s 0
  | 4 => fleetCmd s src v makeRun
  | 5 => fleetCmd s src v fun s => acceptRun s 0
  | 6 => fleetCmd s src v fun s => retireRun s 0
  | 7 => fleetCmd s src v fun s => dissolveRun s 0
  | _ => fleetCmd s src v fun s => fleetEnd s 0xF

/-- DEPOT_CMD (R484). -/
def writeDepot (s : State) (src : Src) (w : Word) : State :=
  let v := w.toNat
  match wbits w 3 0 with
  | 1 => depotCmd s src v fun s => depotInitRun s false
  | 2 => depotCmd s src v fun s => xferRun s .read
  | 3 => depotCmd s src v fun s => xferRun s .write
  | 4 => depotCmd s src v fun s => xferRun s .seg
  | 5 => depotCmd s src v rawRun
  | 6 => powerOff s src v
  | 7 => depotAbort s src v
  | _ => depotUnknown s src v

/-- PB_CMD (R493). -/
def writePb (s : State) (src : Src) (p : Nat) (w : Word) : State :=
  let v := w.toNat
  match wbits w 3 0 with
  | 1 => activateCmd s src p v
  | 2 => exchangeCmd s src p v
  | 3 => deactivateCmd s src p v
  | 4 => warmResetCmd s src p v
  | _ => pbCmd s src p v fun s => pbResult s p 0xF

/-- KIOSK_RD_CMD (R498), with no external field present before the carrier. -/
def writeRd (s : State) (src : Src) (w : Word) : State :=
  let v := w.toNat
  match wbits w 3 0 with
  | 1 => pollA s src v false
  | 2 => pollB s src v false
  | 3 => transceive s src v false
  | 4 => readerHalt s src v false
  | _ => rdCmd s src v false fun s => rdEnd s 0xF

/-- A write of IXM_CTRL (R363). -/
def writeCore (s : State) (src : Src) (c : Nat) (w : Word) : State :=
  let v := w.toNat
  match wbits w 2 0 with
  | 1 => ctrlStart s src c v
  | 2 => ctrlHalt s src c v
  | 3 => ctrlReset s src c v
  | _ => gate s src (corePage c) Reg.IXM_CTRL id

/-- A clock increment held to the range of its field (PB_CLK). -/
def clkHeld (lo hi v : Nat) : Nat := min hi (max lo v)

/-- PB_CLK with both increments held to their ranges. -/
def pbClkWord (w : Word) : Word :=
  BitVec.ofNat 32 (clkHeld 1311 26214 (wbits w 31 16) * 2 ^ 16 + clkHeld 1311 6553 (wbits w 15 0))

/-- A write of MEWS_ASSIGN_CMD. -/
def writeAssign (s : State) (src : Src) (v : Word) : State := assignCmd s src v.toNat

/-- A mailbox write counts only while the host holds the mailbox; otherwise it is recorded (R506, R511). -/
def writeMailbox (s : State) (src : Src) (key : Nat) (v : Word) : State :=
  gateReg s src key fun s =>
    if holdGnt s then setReg s key v else errSynd s 0x4E 0x11 (masterOf src) 0 (key % 0x1000)

/-- A write of QUAY_LINK_CTRL: what RETRAIN trains the link to is the link's, a free value within the limits. -/
def retrainFree (s : State) (src : Src) (p : Nat) (v : Word) : State :=
  if wbit v 9 then
    let f := freshNat s
    retrain f.2 src p v { speed := Fin.ofNat 7 f.1, widthLog := Fin.ofNat 5 (f.1 / 8), l0p := false }
  else store s src (rk (8 + p) Reg.QUAY_LINK_CTRL) v

/-- A write of a register of pages 0x01 to 0x1A that acts; none for a register that is only stored. -/
def writeLow (s : State) (src : Src) (key : Nat) (v : Word) : Option State :=
  let p := key / 0x1000
  let off := key % 0x1000
  if key = Reg.PWR_REQ then some (pwrReq s src v)
  else if key = Reg.RST_CTRL then some (rstCtrl s src v)
  else if key = Reg.BOOT_CFG then some (bootCfgWrite s src v 0)
  else if key = Reg.BOOT_LBA then some (bootLbaWrite s src v 0)
  else if key = Reg.CT_CFG then some (ctCfgWrite s src v)
  else if key = Reg.CT_CMD then some (writeCt s src v)
  else if key = Reg.QUAY_QCMD then some (writeQcmd s src v)
  else if key = Reg.QUAY_DOM_RESV then some (domResvWrite s src v)
  else if key = Reg.QUAY_DOM_CAP then some (domCapWrite s src v)
  else if key = rk 8 Reg.QUAY_LINK_CTRL then some (retrainFree s src 0 v)
  else if key = rk 9 Reg.QUAY_LINK_CTRL then some (retrainFree s src 1 v)
  else if key = Reg.QUAY_WIN_SYNC then some (if wbit v 0 then winSync s src else gateReg s src key id)
  else if 0x11 ≤ p && p ≤ 0x18 && off = Reg.LANE_OFFLINE_CTRL then
    some (laneRetest (laneForceOff s src (p - 0x11) (wbits v 7 0)) src (p - 0x11) (wbits v 15 8))
  else if key = Reg.BLVD_OFFLINE_CTRL then some (blvdRetest (blvdForceOff s src (wbits v 1 0)) src (wbits v 9 8))
  else if key = Reg.HASH_RETEST then some (hashRetest s src v)
  else none

/-- A write of a register of pages 0x20 to 0x40 that acts. -/
def writeMid (s : State) (src : Src) (key : Nat) (v : Word) : Option State :=
  let p := key / 0x1000
  let off := key % 0x1000
  if 0x20 ≤ p && p ≤ 0x27 && off = Reg.ARC_OFFLINE_CTRL then
    let s := arcForceOff s src (p - 0x20) (wbit v 0)
    some (if wbit v 8 then arcRetest s src (p - 0x20) else s)
  else if key = Reg.ARC_CURVE_FREE then some (if wbit v 0 then arcCurveFree s src else gateReg s src key id)
  else if key = Reg.MEWS_ASSIGN_CMD then some (writeAssign s src v)
  else if key = Reg.LC_CMD then some (writeLc s src v)
  else if key = Reg.FNT_KAT then some (if wbit v 0 then fntKat s src else gateReg s src key id)
  else if key = Reg.FNT_CFG then
    some (store s src key (if s.life.state = 1 || s.life.state = 2 then v else (v &&& 0xFFFFFFFB) ||| (reg s key &&& 4)))
  else if 0x30 ≤ p && p ≤ 0x3F then
    let c := p - 0x30
    if off = Reg.IXM_CTRL then some (writeCore s src c v)
    else if off = Reg.IXM_SWI_RAISE then some (swiRaise s src c (wbits v 15 0))
    else if off = Reg.IXM_INT_PRI + 12 then some (store s src key (v &&& 0x0FFFFFFF))
    else if off = Reg.SV_SMP_CTRL then
      some (storeThen s src key v fun s => if wbit v 6 then smpEmpty s c else s)
    else if key = Reg.IXM_LD_CMD then some (writeLd s src v)
    else none
  else if key = Reg.CHECKPOINT_RCMD then some (writeRcmd s src v)
  else if 0x40100 ≤ key && key < 0x40200 && key % 0x20 = 0x14 then
    let e := (key - 0x40100) / 0x20
    some (gateReg s src key fun s => dmaCtrl s src e v)
  else none

/-- A write of a register of pages 0x44 to 0x4E that acts. -/
def writeHigh (s : State) (src : Src) (key : Nat) (v : Word) : Option State :=
  let unusedSrc (b : Nat) : Bool := decide (b + 52 ≤ key) && decide (key < b + 64)
  if key = Reg.KERB_SRC_CLR then some (srcClr s src v)
  else if key = Reg.KERB_INJECT then some (kerbInject s src v)
  else if unusedSrc Reg.KERB_SRC_CFG || unusedSrc Reg.KERB_SRC_WIN || unusedSrc Reg.KERB_RESP then some (gateReg s src key id)
  else if Reg.KERB_RESP ≤ key && key < Reg.KERB_RESP + 52 then some (store s src key (v &&& 0x37F))
  else if key = Reg.KERB_ACK then some (kerbAck s src v)
  else if key = Reg.KERB_BLOG_CLR then some (blogClr s src v)
  else if key = Reg.XING_CMD then some (writeXing s src v)
  else if key = Reg.XING_QROLE then some (qroleWrite s src v false)
  else if key = Reg.FLEET_CMD then some (writeFleet s src v)
  else if (key = Reg.FLEET_ID_LO || key = Reg.FLEET_ID_HI) && s.fer.fleetRole != 0 then some (gateReg s src key id)
  else if key = Reg.DEPOT_CFG then some (storeThen s src key v fun t => loaderGo (depotCfg t (reg s key)))
  else if key = Reg.DEPOT_CMD then some (writeDepot s src v)
  else if key = pr 0 Reg.PB_CFG then some (storeThen s src key v fun t => pbCfg t 0 (reg s key))
  else if key = pr 1 Reg.PB_CFG then some (storeThen s src key v fun t => pbCfg t 1 (reg s key))
  else if key = pr 0 Reg.PB_CMD then some (writePb s src 0 v)
  else if key = pr 1 Reg.PB_CMD then some (writePb s src 1 v)
  else if key = Reg.KIOSK_MODE then some (modeWrite s src (wbits v 1 0))
  else if key = Reg.KIOSK_RD_CMD then some (writeRd s src v)
  else if key = Reg.KIOSK_LPCD_CFG then
    some (storeThen s src key v fun s => if wbit v 31 then lpcdCalibrate s src else s)
  else if key = Reg.KIOSK_TAG_CFG then some (storeThen s src key v fun s => if wbit v 16 then kick s src else s)
  else if key = Reg.KIOSK_UID_HI then some (store s src key (v &&& 0xFFFFFF))
  else if key = pr 0 Reg.PB_CLK || key = pr 1 Reg.PB_CLK then some (store s src key (pbClkWord v))
  else if key = Reg.KIOSK_PLC_CMD then some (plcWrite s src v.toNat)
  else if key = Reg.KIOSK_MBX_CTRL then
    some (gateReg s src key fun s => mbxHold (setFld s key 2 2 (b2n (wbit v 2))) (wbit v 0))
  else if key = Reg.KIOSK_HARV_CTRL then some (storeThen s src key v harvest)
  else if mbxBuf ≤ key && key < mbxBuf + 0x100 then some (writeMailbox s src key v)
  else if mbxBuf + 0x100 ≤ key && key < mbxBuf + 0x200 then some (gateReg s src key id)
  else none

/-- A 32-bit write of a BAR0 offset: dropped where it does not reach its page; the header's commands, a register whose write acts, or
a plain register. -/
def writeReg (s : State) (src : Src) (key : Nat) (v : Word) : State :=
  let p := key / 0x1000
  let off := key % 0x1000
  if !pageReaches s src p off then dropped s src p off
  else if off = Reg.PAGE_CTRL then gate s src p off fun s => if wbit v 0 then cntClear s p else s
  else if off = Reg.INT_FORCE then gate s src p off fun s => intForce s p v
  else if off = Reg.PAGE_LOCK then gate s src p off fun s => if wbit v 0 then pageLock s p else s
  else (writeLow s src key v <|> writeMid s src key v <|> writeHigh s src key v).getD (store s src key v)

/-- A write of part of a word: ignored and recorded with CODE 0x01 (R22). DESIGN CHOICE: ERR_ADDR holds the offset of the first byte
addressed, and a write to an offset of an implemented page that holds no register is recorded too; the manual says "the offset
within the page" and "that page's ERR_SYND". -/
def subWrite (s : State) (src : Src) (addr : Nat) : State :=
  let p := addr / 0x1000
  if pageReaches s src p (addr % 0x1000) then errSynd s p 0x01 (masterOf src) 0 (addr % 0x1000)
  else dropped s src p (addr % 0x1000)

/-- A write of a BAR2 offset (R48, R49): 4 bytes of a doorbell act on the queue; nothing else takes a write, and a write of any size
by a function that does not own the queue is recorded. -/
def writeBar2 (s : State) (fn addr n : Nat) (v : Word) : State :=
  let q := addr / 0x40 % 16384
  if bar2Open s fn && qFunc (queueAt s q) != fn then errSynd s 0x0A 0x11 (fnPort fn) fn (addr % 0x100000)
  else if n ≠ 4 then s
  else match addr % 0x40 with
    | 0x00 => sqTailDb s fn q v
    | 0x04 => cqHeadDb s fn q v
    | _ => s

/-- The MSI-X table field at a BAR4 offset (R45, R79, PRESUMED layout of PCI Express: 16-byte entries). -/
def msixField (addr : Nat) : Option MsixField :=
  if addr < 0x8000 then
    let e : Fin 2048 := Fin.ofNat 2048 (addr / 16)
    match addr % 16 with
    | 0 => some (.addrLo e)
    | 4 => some (.addrHi e)
    | 8 => some (.data e)
    | 12 => some (.vectorControl e)
    | _ => none
  else none

/-- A 4-byte write of a BAR4 offset: a table field; the Pending Bits and the rest take none. -/
def writeBar4 (s : State) (fn addr : Nat) (v : Word) : State :=
  match msixField (addr % 0x10000) with
  | some f => msixWrite s fn f v
  | none => s

/-- The dwords an access of n bytes touches, lowest first, each with its first byte and count within it (R22). -/
def dwords (addr n : Nat) : List (Nat × Nat × Nat) :=
  ((List.range ((addr % 4 + n + 3) / 4)).map fun i =>
    let a := addr / 4 * 4 + 4 * i
    let lo := max addr a
    (a, lo - a, min (addr + n) (a + 4) - lo))

/-- Where the data of a register access enters and leaves the fabric beside the register's page (R37): the Quay, or the core. -/
def accessPage : Src → Nat
  | .core c => corePage c.val
  | _ => 0x0A

/-- What happened to word i of an access, each a transfer of one beat. -/
def wordHit (hit : Option Hit) (i : Nat) : Option Hit :=
  hit.bind fun h => if h.beat = i then some { h with beat := 0 } else none

/-- A write of n bytes from an offset arrives at its register, the sink, where its Seal is checked: what fails is discarded (R37, R38). -/
def writeSealed (s : State) (src : Src) (key b n : Nat) (w : Word) (hit : Option Hit) : State :=
  let p := key / 0x1000
  if !pageReaches s src p (key % 0x1000) then dropped s src p (key % 0x1000)
  else match sealPass (accessPage src) p none 0 (toLe n (w.toNat / 256 ^ b)) hit with
    | (_, false) => sealFault s p
    | (l, true) => if n = 4 then writeReg s src key (BitVec.ofNat 32 (le l)) else subWrite s src (key + b)

/-- A write of up to 8 bytes. -/
def registerWrite (s : State) (src : Src) (addr : Nat) (wr : RegWrite) (v : BitVec 64) : State :=
  let a := addr % 0x100000
  (dwords a (min 8 wr.size)).foldl (fun s d =>
    let w : Word := BitVec.ofNat 32 ((v.toNat * 256 ^ (a % 4)) >>> (8 * (d.1 - a / 4 * 4)))
    match src with
    | .bar2 f => writeBar2 s f.val (d.1 + d.2.1) d.2.2 w
    | .bar4 f => if d.2.2 = 4 then writeBar4 s f.val d.1 w else s
    | _ => writeSealed s src d.1 d.2.1 d.2.2 w (wordHit wr.hit ((d.1 - a / 4 * 4) / 4))) s

def execRegisterWrite (src : Src) (addr : Nat) (wr : RegWrite) (v : BitVec 64) (s : State) : Res :=
  .next (registerWrite s src addr wr v)

/-! ## Reads -/

/-- The RC fields of a register that a read of n bytes from byte b addresses are cleared (R22). -/
def rcClear (s : State) (key b n : Nat) : State :=
  (fieldsAt (key / 0x1000) (key % 0x1000)).foldl (fun s f =>
    if f.acc = .rc && decide (f.lo / 8 < b + n) && decide (b ≤ f.hi / 8) then setFld s key f.hi f.lo 0 else s) s

/-- The read of a register that does more than show its value: the row's own effect, which sends the word. -/
def readEffect (s : State) (src : Src) (key : Nat) : Option State :=
  let p := key / 0x1000
  if 0x11 ≤ p && p ≤ 0x18 && key % 0x1000 = Reg.LANE_BLOCKS_LO then some (laneBlocksRead s src (p - 0x11))
  else if key = Reg.BLVD_BYTES0_LO then some (blvdBytesRead s src 0)
  else if key = Reg.BLVD_BYTES1_LO then some (blvdBytesRead s src 1)
  else if key = Reg.HASH_BYTES_LO then some (hashBytesRead s src)
  else if key = Reg.RBT_NEXT_LAUNCH_LO then some (nextLaunchRead s src)
  else if key = Reg.MEWS_SLOT_ATTR then some (attrRead s src .clean)
  else if key = Reg.CT_TICK_LO then some (tickLoRead s src)
  else if key = Reg.FNT_SW_DATA then some (swData s src)
  else if key = Reg.FNT_RAW_DATA then some (rawData s src)
  else if key = Reg.CHECKPOINT_SYNC then some (syncRead s src)
  else if key = Reg.KERB_BTIME_LO then some (btimeRead s src)
  else if key = Reg.KERB_LOG_DATA then some (logDataRead s src)
  else if key = Reg.KERB_BLOG_DATA then some (blogDataRead s src)
  else none

/-- The word an effect has sent, taken back from the trace: none when the read still waits. -/
def taken (before after : State) : Option Nat × State :=
  match after.out with
  | .readData _ b :: rest => if before.out.length < after.out.length then (some (le b), { after with out := rest }) else (none, after)
  | _ => (none, after)

/-- A read of n bytes from byte b of the register at a BAR0 offset: the word, none while the read waits, and the state after it. -/
def readReg (s : State) (src : Src) (key b n : Nat) : Option Nat × State :=
  match readEffect s src key with
  | some t => taken s t
  | none =>
    if !pageReaches s src (key / 0x1000) (key % 0x1000) then (some 0, dropped s src (key / 0x1000) (key % 0x1000))
    else
      let r := viewDraw s key
      (some r.1, rcClear r.2 key b n)

/-- The word at an offset of a BAR2 queue entry (R48). -/
def bar2Word (s : State) (q off : Nat) : Nat :=
  let v := queueAt s q
  match off with
  | 0x08 => (match v.state with
      | .disabled => 0
      | .enabled => 1
      | .draining => 2) + 8 * b2n v.dbErr + 2 ^ 16 * v.sqHead
  | 0x0C => (s.quay.ctxs.filter fun e => e.2.q == q).length
  | 0x10 => v.cqTail + 2 ^ 16 * b2n v.phase
  | _ => 0

/-- A BAR2 read by a function: its own queue, or as the physical function of the owner's port (R49). DESIGN CHOICE: ERR_ADDR of a
read that is recorded is the offset of the word that holds the bytes, of a write the first byte addressed; the manual says only the
BAR2 offset (R83). -/
def readBar2 (s : State) (fn addr : Nat) : Option Nat × State :=
  let q := addr / 0x40 % 16384
  let own := qFunc (queueAt s q)
  if !bar2Open s fn then (some 0, s)
  else if own == fn || (fn % 128 == 0 && fnPort own == fnPort fn) then (some (bar2Word s q (addr % 0x40)), s)
  else (some 0, errSynd s 0x0A 0x11 (fnPort fn) fn (addr % 0x100000))

/-- A BAR4 read by a function (R45, R546): a word of an MSI-X table entry, or 32 Pending Bits from 0x8000. -/
def readBar4 (s : State) (fn addr : Nat) : Nat :=
  let a := addr % 0x10000
  let m := msixAt s fn (a / 16)
  if !bar2Open s fn then 0
  else if a < 0x8000 then
    (match a % 16 with
    | 0 => m.addrLo.toNat
    | 4 => m.addrHi.toNat
    | 8 => m.data.toNat
    | _ => b2n m.mask)
  else if a < 0x8100 then
    maskOf ((List.range 32).filter fun i => (msixAt s fn (8 * (a - 0x8000) + i)).pend)
  else 0

/-- The registers an access addresses and reaches show bad parity (R39). -/
def parityMet (s : State) (src : Src) (key : Nat) (par : Bool) : State :=
  if par && pageReaches s src (key / 0x1000) (key % 0x1000) then parityFail s key else s

/-- A word of a register reaches its reader, the sink, where its Seal is checked (R37, R38): none when it fails. DESIGN CHOICE: a port
then gets no answer; the manual says only that the beat is discarded. -/
def readSealed (s : State) (src : Src) (key n : Nat) (b : Bytes) (hit : Option Hit) : Option Bytes × State :=
  match src with
  | .bar2 _ => (some b, s)
  | .bar4 _ => (some b, s)
  | _ =>
    if (hit.isSome && pageReaches s src (key / 0x1000) (key % 0x1000))
        && !(sealPass (key / 0x1000) (accessPage src) none 0 (fit n b) hit).2 then
      (none, sealFault s (accessPage src))
    else (some b, s)

/-- A read of up to 8 bytes, word by word, lower first; the bytes addressed are sent once no word waits. The parity of each register
read is checked, and is bad when the row says so (R39): the value is returned all the same (R11). -/
def fieldRead (s : State) (src : Src) (addr : Nat) (rd : RegRead) : State :=
  let first := addr % 0x100000 / 4 * 4
  let r := (dwords (addr % 0x100000) (min 8 rd.size)).foldl (fun (a : Option Bytes × State) d =>
    let w := match src with
      | .bar2 f => readBar2 a.2 f.val d.1
      | .bar4 f => (some (readBar4 a.2 f.val d.1), a.2)
      | _ => readReg (parityMet a.2 src d.1 rd.par) src d.1 d.2.1 d.2.2
    match w.1 with
    | none => (none, w.2)
    | some n =>
      let t := readSealed w.2 src d.1 d.2.2 (sl (toLe 4 n) d.2.1 d.2.2) (wordHit rd.hit ((d.1 - first) / 4))
      (match a.1, t.1 with
        | some b, some l => (some (b ++ l), t.2)
        | _, _ => (none, t.2))) (some [], s)
  match r.1 with
  | some b => if answers r.2 src then emit r.2 (.readData src b) else r.2
  | none => r.2

def execRcFieldRead (src : Src) (addr : Nat) (rd : RegRead) (s : State) : Res :=
  .next (fieldRead s src addr rd)

end Sys2Proof.Machine
end

