-- ==== Sys2Proof/Machine/IxmetAccess.lean ====
section
/-! DEFINITION. The accesses of an Ixmet core: loads, stores and fetches through its Checkpoint, their exceptions, and the Survey
(R321 to R324, R328, R329, R370 to R372, R390 to R395). -/
namespace Sys2Proof.Machine
open Sys2Proof

/-! ## Data accesses -/

/-- An exception: its vector, SUB and ADDR (R370). -/
structure Exc where
  vec : Nat
  sub : Nat
  addr : Nat
deriving DecidableEq, Repr

/-- What an exception leaves recorded outside the core: a refusal, an error found, a count. -/
abbrev Note := State → State

/-- What a load gives: data, a wait (a read of CHECKPOINT_SYNC), or an exception with what it leaves recorded; and the state after
whatever came before. -/
inductive Got where
  | val (v : Nat) (s : State)
  | wait (s : State)
  | bad (e : Exc) (note : Note) (s : State)

/-- What a store gives. -/
inductive Put where
  | done (s : State)
  | bad (e : Exc) (note : Note) (s : State)

/-- An access of core c as its Checkpoint sees it. -/
def coreAcs (s : State) (c : Nat) (user : Bool) (addr len : Nat) (need : Need) : Acs :=
  { mid := 0x10 + c, user, dom := masterDom s c, addr, len, need }

/-- The events of an access that issues: its kind, shared SRAM, a register page. -/
def accessEvents (s : State) (c kind a n : Nat) (user : Bool) : State :=
  let s := surveyEvent s c kind a (!user)
  match regionOf c a n with
  | some .shared => surveyEvent s c 0x09 a (!user)
  | some .regs => surveyEvent s c 0x0A a (!user)
  | _ => s

/-- A region of error-correcting RAM. -/
def eccRegion : Option Region → Bool
  | some .shared => true
  | some (.localRam _) => true
  | _ => false

/-- A corrected error of a load is counted (mark 0x100); in the core's own local RAM it is a Survey event. -/
def loadCorrected (s : State) (c a : Nat) (user : Bool) : State :=
  let s := surveyEvent (memCorr s (physAddr c a)) c 0x100 (physAddr c a) (!user)
  if a < 0x40000 then surveyEvent s c 0x11 a (!user) else s

/-- What happened to a sealed transfer on its way. -/
def metHit : MemFlt → Option Hit
  | .hit h => some h
  | _ => none

/-- The data of a load returns to core c, its sink: MEMERR when its Seal check fails, with the state before the read (R372). -/
def returned (c a n : Nat) (b : Bytes) (flt : MemFlt) (before after : State) : Got :=
  match sealPass (memSinkPage c a n) (corePage c) none 0 b (metHit flt) with
  | (_, false) => .bad ⟨6, 3, a⟩ (fun s => sealFault s (corePage c)) before
  | (b, true) => .val (le b) after

/-- A load of n bytes that the Checkpoint has permitted (R22, R324, R372, R407). -/
def loadData (s : State) (c : Nat) (user : Bool) (a n : Nat) (flt : MemFlt) : Got :=
  match regionOf c a n with
  | some .regs =>
    let s := parityMet s (.core (Fin.ofNat 16 c)) (a % 0x100000 / 4 * 4) (flt == .parity)
    let v := coreAt s c
    let r := match v.loaded with
      | some w => (some w, setCore s c { v with loaded := none })
      | none => readReg s (.core (Fin.ofNat 16 c)) (a % 0x100000 / 4 * 4) (a % 4) n
    match r.1 with
    | none => .wait r.2
    | some w =>
      returned c a n (toLe n (w / 256 ^ (a % 4) % 256 ^ n)) flt s r.2
  | rg =>
    if eccRegion rg && (decide (flt = .uncorr) || (damagedAt s (physAddr c a) n).isSome) then
      .bad ⟨6, 2, a⟩ (fun s => memUncorr s (physAddr c a)) s
    else
      let s' := s
      let s := if eccRegion rg && decide (flt = .corrected) then loadCorrected s c a user else s
      let r := mapRead s c a n
      returned c a n r.1 flt s' r.2

/-- The ACCESS exception of an access the Checkpoint refuses; sub is its SUB (R370, R372, R404). -/
def denied (s : State) (c : Nat) (user : Bool) (a n : Nat) (need : Need) (sub : Nat) : Option (Exc × Note) :=
  let q := coreAcs s c user a n need
  if permits s q then none else some (⟨4, sub, a⟩, fun s => refused s q)

/-- A load of n bytes. -/
def coreLoad (s : State) (c : Nat) (user : Bool) (a n sub : Nat) (flt : MemFlt) : Got :=
  match denied s c user a n .read sub with
  | some (e, k) => .bad e k s
  | none => loadData (accessEvents s c 5 a n user) c user a n flt

/-- A store that the Checkpoint has permitted: a register takes a whole word only (R22). Data that fails its Seal check at the sink
is discarded there (R38). A store to a register page leaves mark 0x106. -/
def storeData (s : State) (c a : Nat) (b : Bytes) (hit : Option Hit := none) : State :=
  let sink := memSinkPage c a b.length
  match sealPass (corePage c) sink none 0 b hit with
  | (_, false) => sealFault s sink
  | (b, true) =>
    match regionOf c a b.length with
    | some .regs =>
      let src : Src := .core (Fin.ofNat 16 c)
      let s := surveyEvent s c 0x106 (a % 0x100000) true
      if b.length = 4 then writeReg s src (a % 0x100000) (BitVec.ofNat 32 (le b)) else subWrite s src (a % 0x100000)
    | _ => memWrite s (physAddr c a) b

/-- A store of bytes; sub is the SUB of a refusal. -/
def coreStore (s : State) (c : Nat) (user : Bool) (a : Nat) (b : Bytes) (sub : Nat) (hit : Option Hit := none) : Put :=
  match denied s c user a b.length .write sub with
  | some (e, k) => .bad e k s
  | none => .done (storeData (accessEvents s c 6 a b.length user) c a b hit)

/-- A word store. -/
def coreStoreWord (s : State) (c : Nat) (user : Bool) (a : Nat) (w : Word) (sub : Nat) (hit : Option Hit := none) : Put :=
  coreStore s c user a (toLe 4 w.toNat) sub hit

/-- A store reaches into the return stack range of the current mode (R329). -/
def hitsReturnStack (r : CoreRegs) (a n : Nat) : Bool :=
  decide (a < (stk r).rlimit.toNat) && decide ((stk r).rbase.toNat < a + n)

/-- An ordinary store of core c: alignment, the return stack range, then the Checkpoint (R371). -/
def dataStore (s : State) (c a : Nat) (b : Bytes) (sub : Nat) (hit : Option Hit := none) : Put :=
  let r := cregs s c
  if a % b.length ≠ 0 then .bad ⟨2, 0, a⟩ id s
  else if hitsReturnStack r a b.length then .bad ⟨5, 3, a⟩ id s
  else coreStore s c (userMode r) a b sub hit

/-- An ordinary load of core c: alignment, then the Checkpoint. -/
def dataLoad (s : State) (c a n sub : Nat) (flt : MemFlt) : Got :=
  if a % n ≠ 0 then .bad ⟨2, 0, a⟩ id s else coreLoad s c (userMode (cregs s c)) a n sub flt

/-! ## Implicit stack accesses (R328, R329) -/

/-- A word lies within the data stack, within the return stack. -/
def inDataStack (k : Stacks) (a : Word) : Bool := decide (k.base.toNat ≤ a.toNat) && decide (a.toNat + 4 ≤ k.limit.toNat)
def inReturnStack (k : Stacks) (a : Word) : Bool := decide (k.rbase.toNat ≤ a.toNat) && decide (a.toNat + 4 ≤ k.rlimit.toNat)

/-- The first check an implicit access to both stacks fails: alignment, then bounds (R371). -/
def stackFault (k : Stacks) (d r : Word) : Option Exc :=
  if d.toNat % 4 ≠ 0 then some ⟨2, 0, d.toNat⟩
  else if r.toNat % 4 ≠ 0 then some ⟨2, 0, r.toNat⟩
  else if !inDataStack k d then some ⟨5, 1, d.toNat⟩
  else if !inReturnStack k r then some ⟨5, 2, r.toNat⟩
  else none

/-! ## Fetch (R321, R324, R370, R371) -/

/-- The exception the fetch of an address raises, if it raises one: the Checkpoint refuses every fetch from outside the core's own
local RAM and the shared SRAM (R321, R402, R404). DEDUCED: a fetched word whose Seal fails is returned data (MEMERR, SUB 3). -/
def fetchFault (s : State) (c : Nat) (user : Bool) (a : Word) (flt : MemFlt) : Option (Exc × Note) :=
  let q := coreAcs s c user a.toNat 4 .fetch
  if a.toNat % 4 ≠ 0 then some (⟨3, 0, a.toNat⟩, id)
  else if !permits s q then some (⟨3, 0, a.toNat⟩, fun s => refused s q)
  else if flt = .uncorr || (damagedAt s (physAddr c a.toNat) 4).isSome then
    some (⟨6, 1, a.toNat⟩, fun s => memUncorr s (physAddr c a.toNat))
  else if (sealPass (memSinkPage c a.toNat 4) (corePage c) none 0 (memBytes s (physAddr c a.toNat) 4) (metHit flt)).2 then none
  else some (⟨6, 3, a.toNat⟩, fun s => sealFault s (corePage c))

/-- A fetch that succeeds: a corrected error is counted (R324). -/
def fetched (s : State) (c : Nat) (user : Bool) (a : Word) (flt : MemFlt) : State :=
  if flt = .corrected then loadCorrected s c a.toNat user else s

/-! ## Special registers (R327, R366 to R369, R395) -/

/-- The numbers that name a special register. -/
def srNamed (n : Nat) : Bool := decide (n ≤ 0x10) || (decide (0x20 ≤ n) && decide (n ≤ 0x37))

/-- A read or write of a named special register is refused in user mode (R369). -/
def srRefused (s : State) (c n : Nat) (write : Bool) : Bool :=
  srNamed n && userMode (cregs s c)
    && ((write && decide (1 ≤ n) && decide (n ≤ 5)) || (decide (0x20 ≤ n) && decide (n ≤ 0x2F))
      || (decide (0x30 ≤ n) && !rbit s (ck c (Reg.SV_CFG + 4 * (n - 0x30))) 12))

/-- A special register that is only shown. -/
def srShow (r : CoreRegs) (n : Nat) : Word :=
  match n with
  | 0x00 => r.psw
  | 0x01 => (stk r).base
  | 0x02 => (stk r).limit
  | 0x03 => (stk r).rsp
  | 0x04 => (stk r).rbase
  | 0x05 => (stk r).rlimit
  | 0x06 => r.lc0
  | 0x07 => r.ls0
  | 0x08 => r.le0
  | 0x09 => r.lc1
  | 0x0A => r.ls1
  | 0x0B => r.le1
  | 0x0E => r.cycHi
  | 0x10 => r.tickHi
  | 0x20 => r.vbase
  | 0x21 => r.epc
  | 0x22 => r.ecause
  | 0x23 => r.eaddr
  | 0x24 => r.usr.sp
  | 0x25 => r.usr.base
  | 0x26 => r.usr.limit
  | 0x27 => r.usr.rsp
  | 0x28 => r.usr.rbase
  | 0x29 => r.usr.rlimit
  | 0x2A => r.tgBase
  | 0x2B => r.tgLimit
  | 0x2C => r.uwBase
  | 0x2D => r.uwLimit
  | 0x2E => r.cmpLo
  | 0x2F => BitVec.ofNat 32 (r.cmp / 2 ^ 32)
  | _ => 0

/-- A read of a special register: CORE_ID; CYCLE_LO, a free value since cycles are not modelled, latching CYCLE_HI; TICK_LO
latching TICK_HI; the Survey counters; the others shown. -/
def srRead (s : State) (c n : Nat) : Word × State :=
  let r := cregs s c
  if n = 0x0C then (BitVec.ofNat 32 c, s)
  else if n = 0x0D then
    let f := freshNat s
    (BitVec.ofNat 32 f.1, setRegs f.2 c { r with cycHi := BitVec.ofNat 32 (f.1 / 2 ^ 32) })
  else if n = 0x0F then
    (BitVec.ofNat 32 s.tick, setRegs s c { r with tickHi := BitVec.ofNat 32 (s.tick / 2 ^ 32) })
  else if 0x30 ≤ n then (reg s (ck c (Reg.SV_CNT + 4 * (n - 0x30))), s)
  else (srShow r n, s)

/-- PSW after a write: system mode all fields, DFL only cleared; user mode bits [3:0] (R366, R369). -/
def pswWritten (r : CoreRegs) (v : Word) : Word :=
  if userMode r then (r.psw &&& 0xFFFFFFF0) ||| (v &&& 0xF) else (v &&& 0xF3F) ||| (r.psw &&& v &&& 0x40)

/-- The registers after a write of a special register; a write of an RO one is discarded (R327). -/
def srWritten (r : CoreRegs) (n : Nat) (v : Word) : CoreRegs :=
  match n with
  | 0x00 => { r with psw := pswWritten r v }
  | 0x01 => setStk r { stk r with base := v }
  | 0x02 => setStk r { stk r with limit := v }
  | 0x03 => setStk r { stk r with rsp := v }
  | 0x04 => setStk r { stk r with rbase := v }
  | 0x05 => setStk r { stk r with rlimit := v }
  | 0x06 => { r with lc0 := v }
  | 0x07 => { r with ls0 := v }
  | 0x08 => { r with le0 := v }
  | 0x09 => { r with lc1 := v }
  | 0x0A => { r with ls1 := v }
  | 0x0B => { r with le1 := v }
  | 0x20 => { r with vbase := v &&& 0xFFFFF800 }
  | 0x24 => { r with usr := { r.usr with sp := v } }
  | 0x25 => { r with usr := { r.usr with base := v } }
  | 0x26 => { r with usr := { r.usr with limit := v } }
  | 0x27 => { r with usr := { r.usr with rsp := v } }
  | 0x28 => { r with usr := { r.usr with rbase := v } }
  | 0x29 => { r with usr := { r.usr with rlimit := v } }
  | 0x2A => { r with tgBase := v &&& 0xFFFFFFF8 }
  | 0x2B => { r with tgLimit := v }
  | 0x2C => { r with uwBase := v }
  | 0x2D => { r with uwLimit := v }
  | 0x2E => { r with cmpLo := v }
  | 0x2F => { r with cmp := r.cmpLo.toNat + 2 ^ 32 * v.toNat }
  | _ => r

/-- A write of PSW changes UM, IE or IPL (R382). -/
def modeChanges (old new : Word) : Bool := (old ^^^ new) &&& 0xF30 != 0

end Sys2Proof.Machine
end

