-- ==== Sys2Proof/Machine/IxmetEntry.lean ====
section
/-! DEFINITION. Taking an exception, an interrupt or a Tollgate call on an Ixmet core, the double and third faults, the return from
an exception, and how an instruction issues, completes and meets the loop ends, delay slots and guards (R331, R333, R345 to R351,
R355, R370 to R383, R387 to R389). -/
namespace Sys2Proof.Machine
open Sys2Proof

/-! ## Double and third faults (R387 to R389, R396) -/

/-- A cause word: KIND, CODE, SUB and ORIG (R368). -/
def causeWord (kind code sub orig : Nat) : Nat := code % 64 + kind % 4 * 2 ^ 6 + sub % 256 * 2 ^ 8 + orig % 256 * 2 ^ 16

/-- A third fault: the core stops in STOPPED (R389). -/
def thirdFault (s : State) (c cause : Nat) (saved : Word) : State :=
  let s := setCore s c { coreAt s c with state := 5, slot := none, shadow := false, haltReq := false, busy := false, loaded := none }
  let s := setReg (setReg s (ck c Reg.IXM_FAULT_PC) saved) (ck c Reg.IXM_FAULT_CAUSE)
    (BitVec.ofNat 32 (cause % 2 ^ 24 + 2 ^ 31))
  errSynd (raiseInt (countFault s (corePage c)) (corePage c) 0x100) (corePage c) 0x13 0x20 (cause % 2 ^ 16) saved.toNat

/-- A double fault: a failure e inside an entry with a cause and a saved PC (R387). -/
def doubleFault (s : State) (c cause : Nat) (saved : Word) (e : Exc) : State :=
  let v := coreAt s c
  let ec := causeWord 0 9 e.sub (cause % 256)
  let r := { v.r with
    epc := saved, eaddr := BitVec.ofNat 32 e.addr, ecause := BitVec.ofNat 32 ec
    psw := (v.r.psw &&& 0xFFFFFFCF) ||| 0x40, pc := v.r.vbase + 0x240 }
  let s := setCore s c { v with r, slot := none, shadow := false, busy := false }
  let s := setReg (setReg s (ck c Reg.IXM_FAULT_PC) saved) (ck c Reg.IXM_FAULT_CAUSE) (BitVec.ofNat 32 (ec % 2 ^ 24))
  let s := bump (raiseInt (countFault s (corePage c)) (corePage c) 0x200) (ck c Reg.IXM_EXC_CNT) 15 0 1
  errSynd s (corePage c) 0x14 0x20 (ec % 2 ^ 16) saved.toNat

/-! ## Entry (R377, R378) -/

/-- The frame's words, lowest first. -/
def frameWords (r : CoreRegs) (saved : Word) (cause addr : Nat) : List Word :=
  [saved, r.psw, BitVec.ofNat 32 cause, BitVec.ofNat 32 addr, r.lc0, r.ls0, r.le0, r.lc1, r.ls1, r.le1]

/-- A word of an entry sequence is stored: aligned, and through the Checkpoint in system mode. -/
def sequenceStore (s : State) (c : Nat) (hit : Option Hit) (a w : Word) : Put :=
  if a.toNat % 4 ≠ 0 then .bad ⟨2, 0, a.toNat⟩ id s else coreStoreWord s c false a.toNat w 2 hit

/-- The frame is stored from its highest word down. -/
def storeFrame (s : State) (c : Nat) (hit : Option Hit) (sp : Word) : List Word → Put
  | [] => .done s
  | w :: ws =>
    match storeFrame s c hit (sp + 4) ws with
    | .done s => sequenceStore s c hit sp w
    | .bad e k s => .bad e k s

/-- The bounds an entry checks on the system stacks. -/
def entryBounds (k : Stacks) : Option Exc :=
  if !(decide (k.base.toNat + 40 ≤ k.sp.toNat) && decide (k.sp.toNat ≤ k.limit.toNat)) then
    some ⟨5, 1, (k.sp - 40).toNat⟩
  else if !(decide (k.rbase.toNat + 4 ≤ k.rsp.toNat) && decide (k.rsp.toNat ≤ k.rlimit.toNat)) then
    some ⟨5, 2, (k.rsp - 4).toNat⟩
  else none

/-- What an entry stores and fetches, or the access that fails, with the frame words stored before it: a failed fetch takes the
return-stack word back (R387). -/
def entryStores (s : State) (c cause addr : Nat) (saved target : Word) (m : EntryMet) : Put :=
  let r := cregs s c
  match entryBounds r.sys with
  | some e => .bad e id s
  | none =>
    match storeFrame s c m.hit (r.sys.sp - 40) (frameWords r saved cause addr) with
    | .bad e k s => .bad e k s
    | .done s1 =>
      match sequenceStore s1 c m.hit (r.sys.rsp - 4) saved with
      | .bad e k _ => .bad e k s1
      | .done s2 =>
        match fetchFault s2 c false target m.fetch with
        | some (e, k) => .bad e k s1
        | none => .done (fetched s2 c false target m.fetch)

/-- PSW after an entry: UM 0; IE 0 unless a Tollgate call; IPL the priority of an interrupt. -/
def entryPsw (psw : Word) (kind : Nat) (ipl : Option Nat) : Word :=
  let p := psw &&& (if kind = 1 then 0xFFFFFFEF else 0xFFFFFFCF)
  match ipl with
  | some n => wput p 11 8 n
  | none => p

/-- The registers after an entry. -/
def entryRegs (r : CoreRegs) (cause addr : Nat) (saved target : Word) (ipl : Option Nat) : CoreRegs :=
  { r with
    psw := entryPsw r.psw (cause / 64 % 4) ipl
    sys := { r.sys with sp := r.sys.sp - 40, rsp := r.sys.rsp - 4 }
    lc0 := 0, lc1 := 0, epc := saved, ecause := BitVec.ofNat 32 cause, eaddr := BitVec.ofNat 32 addr, pc := target }

/-- The Survey event of an entry: exception, Tollgate call, interrupt (R391). -/
def entryEvent (kind : Nat) : Nat := if kind = 0 then 0x0B else if kind = 1 then 0x0D else 0x0C

/-- Taking an exception, a Tollgate call or an interrupt (R378): the frame and the return-stack copy are stored, the saved registers
written, the mode changed, and the pc set to the target; a failure is a double fault, an entry under DFL a third fault. -/
def enter (s : State) (c cause addr : Nat) (saved target : Word) (ipl : Option Nat) (m : EntryMet) : State :=
  if wbit (cregs s c).psw 6 then thirdFault s c cause saved
  else
    let r := cregs s c
    let s := surveyEvent (setCore s c { coreAt s c with busy := true }) c (entryEvent (cause / 64 % 4)) addr true
    let s := match entryStores s c cause addr saved target m with
      | .bad e k s => if (coreAt s c).state ≠ 2 then s else doubleFault (k s) c cause saved e
      | .done s =>
        if (coreAt s c).state ≠ 2 then s
        else setCore s c { coreAt s c with
          r := entryRegs r cause addr saved target ipl, slot := none, shadow := false, busy := false }
    survey s c true saved

/-- An instruction of core c raises an exception; in a delay slot it is taken at the transfer with IN_SLOT, whose registers are as
they were before it (R347, R381). -/
def raise (s : State) (c : Nat) (e : Exc) (m : EntryMet) : State :=
  let cause := causeWord 0 e.vec e.sub 0
  let vector (r : CoreRegs) : Word := r.vbase + BitVec.ofNat 32 (64 * e.vec)
  match (coreAt s c).slot with
  | none => enter s c cause e.addr (savedPc (cregs s c).pc) (vector (cregs s c)) none m
  | some w =>
    enter (setCore s c { coreAt s c with r := w.before, slot := none }) c cause e.addr (savedPc w.before.pc ||| 1)
      (vector w.before) none m

/-- A SHADOW exception is counted (R383, R396). -/
def shadowCount (s : State) (c : Nat) : State :=
  bump (raiseInt (countFault s (corePage c)) (corePage c) 0x400) (ck c Reg.IXM_EXC_CNT) 31 16 1

/-! ## What a transfer leaves to its slot (R23, R323, R347) -/

/-- An access that a transfer has issued takes effect: its word is stored, or the register is read. -/
def lateAccess (c : Nat) (s : State) (e : Nat × Option (Word × Option Hit)) : State :=
  match e.2 with
  | some w => storeData s c e.1 (toLe 4 w.1.toNat) w.2
  | none =>
    let r := readReg s (.core (Fin.ofNat 16 c)) (e.1 % 0x100000) 0 4
    if r.1.isSome then r.2 else s

/-- The accesses of the transfer take effect as its slot executes, before the slot's own. -/
def lateAccesses (s : State) (c : Nat) : State :=
  match (coreAt s c).slot with
  | some w => w.late.foldl (lateAccess c) s
  | none => s

/-! ## Interrupts and WFI (R374, R375) -/

/-- The interrupt the core takes at this boundary: source and priority. -/
def takeable (s : State) (c : Nat) : Option (Nat × Nat) :=
  let v := coreAt s c
  if wbit v.r.psw 5 && !wbit v.r.psw 6 && v.slot.isNone && !v.shadow && !v.busy then
    bestSource s c (wbits v.r.psw 11 8)
  else none

/-- The entry of an interrupt: vector 15 + priority. -/
def interruptTaken (s : State) (c n p : Nat) (m : EntryMet) : State :=
  let r := cregs s c
  enter s c (causeWord 2 n 0 0) 0 (savedPc r.pc) (r.vbase + BitVec.ofNat 32 (64 * (15 + p))) (some p) m

/-- INTERRUPT_ENTRY: at a boundary of a running core, or of one that WFI leaves, the best pending interrupt is taken. -/
def interruptEntry (s : State) (c : Nat) (m : EntryMet) : State :=
  let s := wake s c
  if (coreAt s c).state ≠ 2 then s
  else match takeable s c with
    | some (n, p) => boundary (interruptTaken s c n p m) c
    | none => s

def execInterruptEntry (e : EntryIn) (s : State) : Res := .next (interruptEntry s e.c.val e.entry)

/-! ## Issue (R331, R333, R346, R351, R369, R371) -/

/-- What an instruction is for the placement rules. -/
inductive Kind where
  | plain
  /-- B, CALL, JMP, CALLR, RET. -/
  | transfer
  /-- LOOP. -/
  | loop
  /-- BLOCK, GATE, ERET, HALT: not allowed in a delay slot. -/
  | alone
deriving DecidableEq, Repr

/-- The form of an instruction: an undefined value or a reserved bit in its encoding, its kind, and whether its execution in this mode
is refused. -/
structure Form where
  undef : Bool := false
  rsv : Bool := false
  kind : Kind := .plain
  priv : Bool := false

/-- An instruction breaks a placement rule (R346, R351). -/
def misplaced (v : Core) (k : Kind) : Bool :=
  let r := v.r
  let at' (lc le : Word) : Bool := lc != 0 && (le == r.pc || le == r.pc + 4)
  (v.slot.isSome && decide (k ≠ .plain))
    || ((k == .transfer || k == .loop) && (at' r.lc0 r.le0 || at' r.lc1 r.le1))

/-- The ILLEGAL or PRIVILEGE exception of an instruction, whatever its guard selects. -/
def formFault (v : Core) (g : BitVec 4) (f : Form) : Option Exc :=
  if guardUndefined g || f.undef then some ⟨0, 1, 0⟩
  else if f.rsv then some ⟨0, 2, 0⟩
  else if misplaced v f.kind then some ⟨0, 3, 0⟩
  else if f.priv then some ⟨1, 0, 0⟩
  else none

/-- How an instruction's own effect ends. -/
inductive Ended where
  /-- It completes. -/
  | ok (s : State)
  /-- A transfer: its slot follows. -/
  | transfer (s : State) (w : SlotWait)
  /-- It completes and execution goes on at an address, with no loop-end decision. -/
  | goto (s : State) (pc : Word)
  /-- It has not completed and issues again: a BLOCK with elements left, a WFI, a core that stopped. -/
  | stay (s : State)
  /-- A load waits for its data. -/
  | wait (s : State)
  /-- HALT. -/
  | halt (s : State)
  /-- A Tollgate call of gate n. -/
  | call (s : State) (n : Nat) (target : Word)
  /-- An exception, what it leaves recorded, the state as far as the instruction had gone, and whether what it has written stays
  (PUSHM, R341). -/
  | exc (e : Exc) (note : Note) (s : State) (keep : Bool)

/-- The state an exception is taken in: as the instruction issued, since it has no effect (R347, R370), but for what a PUSHM outside
a slot has written; the events it caused, the errors corrected for it (R324) and the free values it drew are kept. -/
def excState (c : Nat) (v : Core) (s0 s : State) (keep : Bool) : State :=
  if keep && v.slot.isNone then s
  else
    let evs := (coreAt s c).evs
    let t := setCore { s0 with free := s.free } c { coreAt s0 c with evs }
    (evs.drop (coreAt s0 c).evs.length).foldl (fun t e => if e.1 = 0x100 then memCorr t e.2.1 else t) t

/-- The slot of core c has nothing of its transfer's left to take effect. -/
def settled (v : Core) : Option SlotWait := v.slot.map fun w => { w with late := [] }

/-- An instruction of core c ends; v is the core and s0 the state as it issued, m what the entry of a handler meets. -/
def instrEnds (c : Nat) (v : Core) (s0 : State) (m : EntryMet) (e : Ended) : State :=
  let sys := !userMode v.r
  let count (s : State) : State := survey s c sys (samplePc v)
  match e with
  | .ok s => boundary (completes s c v) c
  | .transfer s w =>
    let x := coreAt s c
    if x.state ≠ 2 then count s
    else
      let evs := (if w.target.isSome then [(0x04, 0, sys)] else []) ++ [(0x02, 0, sys)]
      count (setCore s c { x with
        r := { x.r with pc := v.r.pc + 4 }, slot := some { w with evs := w.evs ++ evs, word0 := samplePc v }
        busy := false, loaded := none })
  | .goto s pc =>
    let s := count (surveyEvent s c 0x02 0 sys)
    let x := coreAt s c
    boundary (setCore s c { x with r := { x.r with pc }, slot := none, busy := false, loaded := none }) c
  | .stay s =>
    let x := coreAt s c
    boundary (count (setCore s c { x with busy := false, loaded := none, slot := settled x })) c
  | .wait s => count s
  | .halt s => coreHalted (completes s c v) c
  | .call s n target =>
    let s := completes s c v
    boundary (enter s c (causeWord 1 0 0 0) n (savedPc (cregs s c).pc) target none m) c
  | .exc e note s keep =>
    let s := note (excState c v s0 s keep)
    if (coreAt s c).state ≠ 2 then count s
    else boundary (raise (count (setCore s c { coreAt s c with busy := false, loaded := none })) c e m) c

/-- A transfer that is not taken: its slot still executes. -/
def notTaken (v : Core) : SlotWait := { target := none, before := v.r, evs := [(0x03, 0, !userMode v.r)] }

/-- The instruction runs: LOOP is not guarded (R343). -/
def runs (r : CoreRegs) (g : BitVec 4) (f : Form) : Bool := guardTrue r g || f.kind == .loop

/-- What an instruction of core v does once it has been fetched: ILLEGAL and PRIVILEGE, then the guard, then its effect. -/
def effect (s : State) (c : Nat) (v : Core) (g : BitVec 4) (f : Form) (body : State → Ended) : Ended :=
  match formFault v g f with
  | some e => .exc e id s false
  | none =>
    if runs v.r g f then body s
    else if f.kind = .transfer then .transfer s (notTaken v)
    else .ok (surveyEvent s c 0x03 0 (!userMode v.r))

/-- The effect of the instruction behind what its transfer has left to it; a load that waits leaves that to wait with it. -/
def slotEffect (s : State) (c : Nat) (v : Core) (g : BitVec 4) (f : Form) (body : State → Ended) : Ended :=
  match effect (lateAccesses s c) c v g f body with
  | .wait _ => effect s c v g f body
  | e => e

/-- The instruction at the pc of a running core issues: it is fetched, once though a load that waited issues it again, and has its
effect. -/
def issue (s : State) (c : Nat) (g : IssueIn) (f : Form) (body : State → Ended) : State :=
  let v := coreAt s c
  let flt := if v.loaded.isSome then .none else g.fetch
  let s := setCore s c { v with shadow := false, busy := true }
  match fetchFault s c (userMode v.r) v.r.pc flt with
  | some (e, k) => instrEnds c v s g.entry (.exc e k s false)
  | none =>
    let s := fetched s c (userMode v.r) v.r.pc flt
    instrEnds c v s g.entry (slotEffect s c v g.guard f body)

/-- An instruction row of core c: nothing while the core does not run or stalls; an interrupt that may be taken at the boundary is
taken in its place (R374). -/
def instr (s : State) (c : Nat) (g : IssueIn) (f : State → Form) (body : State → Ended) : State :=
  let s := wake s c
  let v := coreAt s c
  if v.state ≠ 2 || (v.busy && v.loaded.isNone) then s
  else match takeable s c with
    | some (n, p) => boundary (interruptTaken s c n p g.entry) c
    | none => issue s c g (f s) body

end Sys2Proof.Machine
end

