-- ==== Sys2Proof/Machine/IxmetWord.lean ====
section
/-! DEFINITION. The Ixmet instruction word: its fields, the words whose encoding is not defined, and the word of each instruction
(R330, R331, R334 to R348, R352, R354). -/
namespace Sys2Proof.Machine
open Sys2Proof

/-! ## Undefined encodings (R331) -/

/-- What is wrong with the bits of a word: a value that is not defined for its class, and a reserved bit that is 1. -/
structure Misfit where
  undef : Bool
  rsv : Bool := false

/-- Bits [hi:lo] of a word that must be 0. -/
def mustBeZero (w : Word) (hi lo : Nat) : Bool := wbits w hi lo != 0

/-- FUNC values of BIT that are defined. -/
def bitFunc (n : Nat) : Bool := decide (n ≤ 3) || (decide (8 ≤ n) && decide (n ≤ 14))

/-- The misfits of bits [23:0] of a word, by its class. DESIGN CHOICE where the manual does not say which of the two a field that must
have one value breaks: a POLY or a width is an undefined value; X, a mask bit and BCLR's Ga are reserved bits. -/
def classMisfit (w : Word) : Misfit :=
  let f := wbits w
  match f 27 24 with
  | 0x0 => { undef := decide (f 23 18 = 0) || decide (8 < f 23 18), rsv := mustBeZero w 13 12 || (f 23 18 != 6 && mustBeZero w 11 8) }
  | 0x1 => { undef := decide (15 < f 5 0), rsv := mustBeZero w 11 6 }
  | 0x2 => { undef := decide (4 < f 14 12), rsv := mustBeZero w 15 15 }
  | 0x3 => { undef := false, rsv := mustBeZero w 18 16 }
  | 0x4 => { undef := !bitFunc (f 5 0) || ((f 5 0 == 10 || f 5 0 == 12) && (!wbit w 11 || f 7 6 == 3)) }
  | 0x5 => { undef := f 2 0 == 7, rsv := mustBeZero w 11 3 }
  | 0x6 => { undef := f 14 13 == 3, rsv := wbit w 12 && (!wbit w 15 || f 14 13 == 2) }
  | 0x7 => { undef := f 23 22 == 3, rsv := mustBeZero w 21 16 || (decide (f 23 22 < 2) && (wbit w 0 || wbit w 15)) }
  | 0x8 => { undef := f 11 10 == 3, rsv := mustBeZero w 7 0 }
  | 0x9 => { undef := false, rsv := wbit w 22 }
  | 0xA => { undef := f 23 22 == 3, rsv := mustBeZero w 21 20 || mustBeZero w 15 0 }
  | 0xB => { undef := f 11 0 == 0, rsv := !wbit w 22 && mustBeZero w 21 16 }
  | 0xC =>
    let d := f 23 20
    let a := f 19 16
    let n := f 15 12
    let same := d == n || d == 0 || n == 0 || (f 11 10 != 1 && (a == 0 || a == d || a == n))
    { undef := f 11 10 == 3 || same || (if f 11 10 = 2 then f 9 8 == 3 else f 9 8 != 0)
      rsv := mustBeZero w 7 0 || (f 11 10 == 1 && a != 0) }
  | 0xD => { undef := f 11 10 == 3 || f 9 8 == 3, rsv := mustBeZero w 15 12 || mustBeZero w 7 0 }
  | 0xE => { undef := f 23 22 == 0 || f 21 20 == 3, rsv := !wbit w 15 && mustBeZero w 7 0 }
  | _ => { undef := true }

/-- SUB of the ILLEGAL exception that a word raises by its bits alone: 1 an undefined value, 2 a reserved bit; none for an instruction
that is defined. DESIGN CHOICE: a word with both has SUB 1. -/
def ixSub (w : Word) : Option Nat :=
  let m := classMisfit w
  let guard := wbits w 31 28
  if guard == 7 || guard == 8 || guard == 15 || m.undef then some 1 else if m.rsv then some 2 else none

/-! ## The instruction of a word -/

/-- A register field of a word. -/
def ixReg (w : Word) (lo : Nat) : GReg := Fin.ofNat 16 (wbits w (lo + 3) lo)

/-- One of a list of instructions, chosen by a field; UDF beyond it. -/
def ixPick (udf : Instr) (l : List Instr) (n : Nat) : Instr := l.getD n udf

/-- A shift amount: SH5 with I, or Gb. -/
def ixAmount (w : Word) : ShAmt := if wbit w 11 then .imm (Fin.ofNat 32 (wbits w 10 6)) else .reg (ixReg w 12)

/-- The instruction of a defined word, by its CLASS and FUNC. -/
def ixClass (c : CoreNo) (g : IssueIn) (w : Word) : Instr :=
  let f := wbits w
  let d := ixReg w 20
  let a := ixReg w 16
  let b := ixReg w 12
  let low : BitVec 12 := BitVec.ofNat 12 (f 11 0)
  let half : BitVec 16 := BitVec.ofNat 16 (f 15 0)
  let poly : BitVec 2 := BitVec.ofNat 2 (f 9 8)
  let udf : Instr := .udf c g w
  match f 27 24 with
  | 0x0 =>
    let sr : BitVec 8 := BitVec.ofNat 8 (f 7 0)
    let r := ixReg w 14
    ixPick udf [udf, .sysNop c g, .wfi c g, .mbar c g, .mfs c g r sr, .mts c g sr r, .gate c g low, .eret c g, .halt c g] (f 23 18)
  | 0x1 =>
    ixPick udf [.add c g d a b, .addc c g d a b, .addx c g d a b, .sub c g d a b, .subc c g d a b, .subx c g d a b, .and c g d a b,
      .or c g d a b, .xor c g d a b, .andn c g d a b, .copy c g d a b, .inv c g d a b, .min c g d a b, .max c g d a b,
      .minu c g d a b, .maxu c g d a b] (f 5 0)
  | 0x2 => ixPick udf [.addi c g d a low, .andi c g d a low, .ori c g d a low, .xori c g d a low, .addci c g d a low] (f 14 12)
  | 0x3 => .movi c g d (wbit w 19) half
  | 0x4 =>
    let n := ixAmount w
    let k : BitField := ⟨wbit w 11, BitVec.ofNat 2 (f 7 6)⟩
    ixPick udf [.shl c g d a n, .shr c g d a n, .sar c g d a n, .ror c g d a n, udf, udf, udf, udf, .clz c g d a, .popc c g d a,
      .par c g d a k, .bpar c g d a, .brev c g d a k, .brevb c g d a, .bswap c g d a] (f 5 0)
  | 0x5 =>
    ixPick udf [.mul c g d a b, .mulhu c g d a b, .mulhs c g d a b, .divu c g d a b, .divs c g d a b, .remu c g d a b,
      .rems c g d a b] (f 2 0)
  | 0x6 =>
    let sz : BitVec 2 := BitVec.ofNat 2 (f 14 13)
    if wbit w 15 then .ldstLoad c g d a sz (wbit w 12) low (g.data.headD .none) else .ldstStore c g d a ⟨sz, wbit w 12⟩ low
  | 0x7 => ixPick udf [.pushm c g half, .popm c g half, .adj c g half] (f 23 22)
  | 0x8 => ixPick udf [.swap c g d a b, .cas c g d a b poly, .adda c g d a b] (f 11 10)
  | 0x9 =>
    let disp : BitVec 22 := BitVec.ofNat 22 (f 21 0)
    if wbit w 23 then .call c g disp else .b c g disp
  | 0xA => ixPick udf [.jmp c g a, .callr c g a, .ret c g] (f 23 22)
  | 0xB =>
    .loop c g (wbit w 23) (if wbit w 22 then .imm (BitVec.ofNat 10 (f 21 12)) else .reg b) low
  | 0xC => ixPick udf [.bcopy c g d a ⟨b, poly⟩, .bclr c g d ⟨a, b, poly⟩, .bcrc c g d a b poly] (f 11 10)
  | 0xD => .crc c g d a (BitVec.ofNat 2 (f 11 10)) poly
  | 0xE =>
    .test c g (BitVec.ofNat 2 (f 23 22)) (BitVec.ofNat 2 (f 21 20)) a (BitVec.ofNat 3 (f 14 12))
      (if wbit w 15 then .imm low else .reg (ixReg w 8))
  | _ => udf

/-- The instruction that a fetched word is (R330, R331): UDF for every word whose encoding is not defined. What the issue meets (its
fetch, its data) comes from g. -/
def ixDecode (c : CoreNo) (g : IssueIn) (w : Word) : Instr :=
  let g := { g with guard := BitVec.ofNat 4 (wbits w 31 28) }
  if (ixSub w).isSome then .udf c g w else ixClass c g w

/-! ## The word of each instruction -/

/-- The word of a guard, a class, and bits [23:0]. -/
def ixFields (g : IssueIn) (cls body : Nat) : Word := BitVec.ofNat 32 (g.guard.toNat * 2 ^ 28 + cls * 2 ^ 24 + body % 2 ^ 24)

/-- Three register fields [23:20], [19:16], [15:12] and the low 12 bits. -/
def ixRegs (g : IssueIn) (cls : Nat) (x y z : GReg) (low : Nat) : Option Word :=
  some (ixFields g cls (x.val * 2 ^ 20 + y.val * 2 ^ 16 + z.val * 2 ^ 12 + low))

/-- SYS: FUNC, G and the low 12 bits. -/
def ixSys (g : IssueIn) (func : Nat) (r : GReg) (low : Nat) : Option Word :=
  some (ixFields g 0 (func * 2 ^ 18 + r.val * 2 ^ 14 + low))

/-- ALUI: Gd, Ga, FUNC and IMM12. -/
def ixImm (g : IssueIn) (func : Nat) (d a : GReg) (imm : BitVec 12) : Option Word :=
  ixRegs g 2 d a 0 (func * 2 ^ 12 + imm.toNat)

/-- BIT with a shift amount: SH5 with I, or Gb. -/
def ixShift (g : IssueIn) (func : Nat) (d a : GReg) : ShAmt → Option Word
  | .imm n => ixRegs g 4 d a 0 (2 ^ 11 + n.val * 2 ^ 6 + func)
  | .reg b => ixRegs g 4 d a b func

/-- The word of an Ixmet instruction (R330); none for a command that is no instruction. Fields an instruction does not use are 0. -/
def ixWord (i : Instr) : Option Word :=
  match i with
  | .udf _ _ w => some w
  | .sysNop _ g => ixSys g 1 0 0
  | .wfi _ g => ixSys g 2 0 0
  | .mbar _ g => ixSys g 3 0 0
  | .mfs _ g d sr => ixSys g 4 d sr.toNat
  | .mts _ g sr a => ixSys g 5 a sr.toNat
  | .gate _ g n => ixSys g 6 0 n.toNat
  | .eret _ g => ixSys g 7 0 0
  | .halt _ g => ixSys g 8 0 0
  | .add _ g d a b => ixRegs g 1 d a b 0x00
  | .addc _ g d a b => ixRegs g 1 d a b 0x01
  | .addx _ g d a b => ixRegs g 1 d a b 0x02
  | .sub _ g d a b => ixRegs g 1 d a b 0x03
  | .subc _ g d a b => ixRegs g 1 d a b 0x04
  | .subx _ g d a b => ixRegs g 1 d a b 0x05
  | .and _ g d a b => ixRegs g 1 d a b 0x06
  | .or _ g d a b => ixRegs g 1 d a b 0x07
  | .xor _ g d a b => ixRegs g 1 d a b 0x08
  | .andn _ g d a b => ixRegs g 1 d a b 0x09
  | .copy _ g d a b => ixRegs g 1 d a b 0x0A
  | .inv _ g d a b => ixRegs g 1 d a b 0x0B
  | .min _ g d a b => ixRegs g 1 d a b 0x0C
  | .max _ g d a b => ixRegs g 1 d a b 0x0D
  | .minu _ g d a b => ixRegs g 1 d a b 0x0E
  | .maxu _ g d a b => ixRegs g 1 d a b 0x0F
  | .addi _ g d a imm => ixImm g 0 d a imm
  | .andi _ g d a imm => ixImm g 1 d a imm
  | .ori _ g d a imm => ixImm g 2 d a imm
  | .xori _ g d a imm => ixImm g 3 d a imm
  | .addci _ g d a imm => ixImm g 4 d a imm
  | .movi _ g d h imm => some (ixFields g 3 (d.val * 2 ^ 20 + b2n h * 2 ^ 19 + imm.toNat))
  | .shl _ g d a amt => ixShift g 0x00 d a amt
  | .shr _ g d a amt => ixShift g 0x01 d a amt
  | .sar _ g d a amt => ixShift g 0x02 d a amt
  | .ror _ g d a amt => ixShift g 0x03 d a amt
  | .clz _ g d a => ixRegs g 4 d a 0 0x08
  | .popc _ g d a => ixRegs g 4 d a 0 0x09
  | .par _ g d a ⟨i, w⟩ => ixRegs g 4 d a 0 (b2n i * 2 ^ 11 + w.toNat * 2 ^ 6 + 0x0A)
  | .bpar _ g d a => ixRegs g 4 d a 0 0x0B
  | .brev _ g d a ⟨i, w⟩ => ixRegs g 4 d a 0 (b2n i * 2 ^ 11 + w.toNat * 2 ^ 6 + 0x0C)
  | .brevb _ g d a => ixRegs g 4 d a 0 0x0D
  | .bswap _ g d a => ixRegs g 4 d a 0 0x0E
  | .mul _ g d a b => ixRegs g 5 d a b 0
  | .mulhu _ g d a b => ixRegs g 5 d a b 1
  | .mulhs _ g d a b => ixRegs g 5 d a b 2
  | .divu _ g d a b => ixRegs g 5 d a b 3
  | .divs _ g d a b => ixRegs g 5 d a b 4
  | .remu _ g d a b => ixRegs g 5 d a b 5
  | .rems _ g d a b => ixRegs g 5 d a b 6
  | .ldstLoad _ g d b sz x off _ => ixRegs g 6 d b 0 (2 ^ 15 + sz.toNat * 2 ^ 13 + b2n x * 2 ^ 12 + off.toNat)
  | .ldstStore _ g d b ⟨sz, x⟩ off => ixRegs g 6 d b 0 (sz.toNat * 2 ^ 13 + b2n x * 2 ^ 12 + off.toNat)
  | .pushm _ g mask => some (ixFields g 7 mask.toNat)
  | .popm _ g mask => some (ixFields g 7 (2 ^ 22 + mask.toNat))
  | .adj _ g imm => some (ixFields g 7 (2 ^ 23 + imm.toNat))
  | .swap _ g d b a => ixRegs g 8 d b a 0
  | .cas _ g d b a pd => ixRegs g 8 d b a (2 ^ 10 + pd.toNat * 2 ^ 8)
  | .adda _ g d b a => ixRegs g 8 d b a (2 ^ 11)
  | .b _ g disp => some (ixFields g 9 disp.toNat)
  | .call _ g disp => some (ixFields g 9 (2 ^ 23 + disp.toNat))
  | .jmp _ g a => ixRegs g 0xA 0 a 0 0
  | .callr _ g a => ixRegs g 0xA 4 a 0 0
  | .ret _ g => ixRegs g 0xA 8 0 0 0
  | .loop _ g lvl (.imm n) len => some (ixFields g 0xB (b2n lvl * 2 ^ 23 + 2 ^ 22 + n.toNat * 2 ^ 12 + len.toNat))
  | .loop _ g lvl (.reg a) len => some (ixFields g 0xB (b2n lvl * 2 ^ 23 + a.val * 2 ^ 12 + len.toNat))
  | .bcopy _ g d a ⟨n, poly⟩ => ixRegs g 0xC d a n (poly.toNat * 2 ^ 8)
  | .bclr _ g d ⟨a, n, poly⟩ => ixRegs g 0xC d a n (2 ^ 10 + poly.toNat * 2 ^ 8)
  | .bcrc _ g d a n poly => ixRegs g 0xC d a n (2 ^ 11 + poly.toNat * 2 ^ 8)
  | .crc _ g d a poly sz => ixRegs g 0xD d a 0 (poly.toNat * 2 ^ 10 + sz.toNat * 2 ^ 8)
  | .test _ g pd comb a rel (.imm n) =>
    some (ixFields g 0xE (pd.toNat * 2 ^ 22 + comb.toNat * 2 ^ 20 + a.val * 2 ^ 16 + 2 ^ 15 + rel.toNat * 2 ^ 12 + n.toNat))
  | .test _ g pd comb a rel (.reg b) =>
    some (ixFields g 0xE (pd.toNat * 2 ^ 22 + comb.toNat * 2 ^ 20 + a.val * 2 ^ 16 + rel.toNat * 2 ^ 12 + b.val * 2 ^ 8))
  | _ => none

end Sys2Proof.Machine
end

