-- ==== Sys2Proof/Machine/IxmetAlu.lean ====
section
/-! DEFINITION. The Ixmet instructions that act on registers only: NOP, UDF, MFS, MTS, ALU, ALUI, MOVI, BIT, MULDIV, CRC, ADJ and TEST
(R326, R327, R334 to R339, R341, R344, R352, R366 to R369, R382). -/
namespace Sys2Proof.Machine
open Sys2Proof

/-- An instruction whose whole effect is on its core's registers. -/
def regInstr (s : State) (c : Nat) (g : IssueIn) (f : Form) (k : CoreRegs → CoreRegs) : State :=
  instr s c g (fun _ => f) fun s => .ok (setRegs s c (k (cregs s c)))

/-- An instruction that writes Gd with an operation on Ga and Gb. -/
def binary (s : State) (c : CoreNo) (g : IssueIn) (d a b : GReg) (op : Word → Word → Word) : State :=
  regInstr s c.val g {} fun r => setGpr r d (op (gpr r a) (gpr r b))

/-- An instruction that writes Gd with a function of Ga. -/
def unary (s : State) (c : CoreNo) (g : IssueIn) (d a : GReg) (f : Form) (op : Word → Word) : State :=
  regInstr s c.val g f fun r => setGpr r d (op (gpr r a))

/-! ## SYS (R334) -/

/-- UDF, and every word whose encoding is not defined: ILLEGAL whatever its guard selects (R331). -/
def execUdf (c : CoreNo) (g : IssueIn) (w : BitVec 32) (s : State) : Res :=
  .next (instr s c.val g (fun _ => { undef := ixSub w != some 2, rsv := ixSub w == some 2 }) .ok)
def execSysNop (c : CoreNo) (g : IssueIn) (s : State) : Res := .next (regInstr s c.val g {} id)
/-- In program order every store has taken effect when the next command runs (R323). -/
def execMbar (c : CoreNo) (g : IssueIn) (s : State) : Res := .next (regInstr s c.val g {} id)

/-- A reserved special-register number: ILLEGAL (R327, R370). It is not among the checks of R331, so a false guard passes it over. -/
def srReserved (s : State) : Ended := .exc ⟨0, 1, 0⟩ id s false

def execMfs (c : CoreNo) (g : IssueIn) (d : GReg) (sr : BitVec 8) (s : State) : Res :=
  .next (instr s c.val g (fun s => { priv := srRefused s c.val sr.toNat false }) fun s =>
    if srNamed sr.toNat then
      let r := srRead s c.val sr.toNat
      .ok (setRegs r.2 c.val (setGpr (cregs r.2 c.val) d r.1))
    else srReserved s)

/-- A write of a special register; one of PSW that changes UM, IE or IPL makes the next instruction a shadow instruction. -/
def mtsDone (s : State) (c n : Nat) (v : Word) : State :=
  let x := coreAt s c
  let r := srWritten x.r n v
  setCore s c { x with r, shadow := n == 0 && modeChanges x.r.psw r.psw }

def execMts (c : CoreNo) (g : IssueIn) (sr : BitVec 8) (a : GReg) (s : State) : Res :=
  .next (instr s c.val g (fun s => { priv := srRefused s c.val sr.toNat true }) fun s =>
    if srNamed sr.toNat then .ok (mtsDone s c.val sr.toNat (gpr (cregs s c.val) a)) else srReserved s)

/-! ## ALU (R335) -/

/-- An ALU instruction that writes CY too. -/
def carrying (s : State) (c : CoreNo) (g : IssueIn) (d : GReg) (k : CoreRegs → Word × Bool) : State :=
  regInstr s c.val g {} fun r => setCy (setGpr r d (k r).1) (k r).2

def execAdd (c : CoreNo) (g : IssueIn) (d a b : GReg) (s : State) : Res := .next (binary s c g d a b fun x y => x + y)
def execAddc (c : CoreNo) (g : IssueIn) (d a b : GReg) (s : State) : Res :=
  .next (carrying s c g d fun r => (gpr r a + gpr r b, carryOut (gpr r a) (gpr r b) 0))
def execAddx (c : CoreNo) (g : IssueIn) (d a b : GReg) (s : State) : Res :=
  .next (carrying s c g d fun r =>
    (gpr r a + gpr r b + BitVec.ofNat 32 (cyIn r), carryOut (gpr r a) (gpr r b) (cyIn r)))
def execSub (c : CoreNo) (g : IssueIn) (d a b : GReg) (s : State) : Res := .next (binary s c g d a b fun x y => x - y)
def execSubc (c : CoreNo) (g : IssueIn) (d a b : GReg) (s : State) : Res :=
  .next (carrying s c g d fun r => (gpr r a - gpr r b, borrowOut (gpr r a) (gpr r b) 0))
def execSubx (c : CoreNo) (g : IssueIn) (d a b : GReg) (s : State) : Res :=
  .next (carrying s c g d fun r =>
    (gpr r a - gpr r b - BitVec.ofNat 32 (cyIn r), borrowOut (gpr r a) (gpr r b) (cyIn r)))
def execAnd (c : CoreNo) (g : IssueIn) (d a b : GReg) (s : State) : Res := .next (binary s c g d a b fun x y => x &&& y)
def execOr (c : CoreNo) (g : IssueIn) (d a b : GReg) (s : State) : Res := .next (binary s c g d a b fun x y => x ||| y)
def execXor (c : CoreNo) (g : IssueIn) (d a b : GReg) (s : State) : Res := .next (binary s c g d a b fun x y => x ^^^ y)
def execAndn (c : CoreNo) (g : IssueIn) (d a b : GReg) (s : State) : Res := .next (binary s c g d a b fun x y => x &&& ~~~y)
def execCopy (c : CoreNo) (g : IssueIn) (d a b : GReg) (s : State) : Res := .next (binary s c g d a b fun _ y => y)
def execInv (c : CoreNo) (g : IssueIn) (d a b : GReg) (s : State) : Res := .next (binary s c g d a b fun _ y => ~~~y)
def execMin (c : CoreNo) (g : IssueIn) (d a b : GReg) (s : State) : Res :=
  .next (binary s c g d a b fun x y => if x.slt y then x else y)
def execMax (c : CoreNo) (g : IssueIn) (d a b : GReg) (s : State) : Res :=
  .next (binary s c g d a b fun x y => if x.slt y then y else x)
def execMinu (c : CoreNo) (g : IssueIn) (d a b : GReg) (s : State) : Res :=
  .next (binary s c g d a b fun x y => if x.ult y then x else y)
def execMaxu (c : CoreNo) (g : IssueIn) (d a b : GReg) (s : State) : Res :=
  .next (binary s c g d a b fun x y => if x.ult y then y else x)

/-! ## ALUI and MOVI (R336, R337) -/

def execAddi (c : CoreNo) (g : IssueIn) (d a : GReg) (imm : BitVec 12) (s : State) : Res :=
  .next (unary s c g d a {} fun x => x + imm12 imm)
def execAndi (c : CoreNo) (g : IssueIn) (d a : GReg) (imm : BitVec 12) (s : State) : Res :=
  .next (unary s c g d a {} fun x => x &&& uimm12 imm)
def execOri (c : CoreNo) (g : IssueIn) (d a : GReg) (imm : BitVec 12) (s : State) : Res :=
  .next (unary s c g d a {} fun x => x ||| uimm12 imm)
def execXori (c : CoreNo) (g : IssueIn) (d a : GReg) (imm : BitVec 12) (s : State) : Res :=
  .next (unary s c g d a {} fun x => x ^^^ uimm12 imm)
def execAddci (c : CoreNo) (g : IssueIn) (d a : GReg) (imm : BitVec 12) (s : State) : Res :=
  .next (carrying s c g d fun r => (gpr r a + imm12 imm, carryOut (gpr r a) (imm12 imm) 0))

/-- MOVI: the whole register from IMM16, or its upper half. -/
def movi (h : Bool) (imm : BitVec 16) (old : Word) : Word :=
  if h then (old &&& 0xFFFF) ||| (imm.zeroExtend 32 <<< 16) else imm.zeroExtend 32
def execMovi (c : CoreNo) (g : IssueIn) (d : GReg) (h : Bool) (imm : BitVec 16) (s : State) : Res :=
  .next (unary s c g d d {} (movi h imm))

/-! ## BIT (R338) -/

/-- A shift or rotation of Ga by an amount. -/
def shifted (s : State) (c : CoreNo) (g : IssueIn) (d a : GReg) (amt : ShAmt) (op : Word → Nat → Word) : State :=
  regInstr s c.val g {} fun r => setGpr r d (op (gpr r a) (shAmount r amt))

def execShl (c : CoreNo) (g : IssueIn) (d a : GReg) (amt : ShAmt) (s : State) : Res :=
  .next (shifted s c g d a amt fun x n => x <<< n)
def execShr (c : CoreNo) (g : IssueIn) (d a : GReg) (amt : ShAmt) (s : State) : Res :=
  .next (shifted s c g d a amt fun x n => x >>> n)
def execSar (c : CoreNo) (g : IssueIn) (d a : GReg) (amt : ShAmt) (s : State) : Res :=
  .next (shifted s c g d a amt fun x n => x.sshiftRight n)
def execRor (c : CoreNo) (g : IssueIn) (d a : GReg) (amt : ShAmt) (s : State) : Res :=
  .next (shifted s c g d a amt fun x n => x.rotateRight n)

/-- One bits of the low n bits. -/
def ones (x : Word) (n : Nat) : Nat := ((List.range n).filter fun i => wbit x i).length
/-- Leading zero bits. -/
def leadingZeros (x : Word) : Nat := ((List.range 32).takeWhile fun i => !wbit x (31 - i)).length
/-- Even-parity bit of n bits from bit lo. -/
def parityOf (x : Word) (lo n : Nat) : Nat := ones (x >>> lo) n % 2
/-- The low n bits in reverse order. -/
def reversed (x : Word) (n : Nat) : Nat := maskOf ((List.range n).filter fun i => wbit x (n - 1 - i))

def execClz (c : CoreNo) (g : IssueIn) (d a : GReg) (s : State) : Res :=
  .next (unary s c g d a {} fun x => BitVec.ofNat 32 (leadingZeros x))
def execPopc (c : CoreNo) (g : IssueIn) (d a : GReg) (s : State) : Res :=
  .next (unary s c g d a {} fun x => BitVec.ofNat 32 (ones x 32))
def execPar (c : CoreNo) (g : IssueIn) (d a : GReg) (f : BitField) (s : State) : Res :=
  .next (unary s c g d a { undef := !f.i || f.w == 3 } fun x => BitVec.ofNat 32 (parityOf x 0 (fieldWidth f.w)))
def execBpar (c : CoreNo) (g : IssueIn) (d a : GReg) (s : State) : Res :=
  .next (unary s c g d a {} fun x => BitVec.ofNat 32 (maskOf ((List.range 4).filter fun n => parityOf x (8 * n) 8 == 1)))
def execBrev (c : CoreNo) (g : IssueIn) (d a : GReg) (f : BitField) (s : State) : Res :=
  .next (unary s c g d a { undef := !f.i || f.w == 3 } fun x => BitVec.ofNat 32 (reversed x (fieldWidth f.w)))
def execBrevb (c : CoreNo) (g : IssueIn) (d a : GReg) (s : State) : Res :=
  .next (unary s c g d a {} fun x =>
    BitVec.ofNat 32 (le ((List.range 4).map fun n => BitVec.ofNat 8 (reversed (x >>> (8 * n)) 8))))
def execBswap (c : CoreNo) (g : IssueIn) (d a : GReg) (s : State) : Res :=
  .next (unary s c g d a {} fun x => BitVec.ofNat 32 (be (toLe 4 x.toNat)))

/-! ## MULDIV (R339) -/

/-- A division: the Survey sees that the core may stall on it (mark 0x108, R391). -/
def dividing (s : State) (c : CoreNo) (g : IssueIn) (d a b : GReg) (op : Word → Word → Word) : State :=
  instr s c.val g (fun _ => {}) fun s =>
    let r := cregs s c.val
    .ok (setRegs (surveyEvent s c.val 0x108 0 (!userMode r)) c.val (setGpr r d (op (gpr r a) (gpr r b))))

def execMul (c : CoreNo) (g : IssueIn) (d a b : GReg) (s : State) : Res := .next (binary s c g d a b fun x y => x * y)
def execMulhu (c : CoreNo) (g : IssueIn) (d a b : GReg) (s : State) : Res :=
  .next (binary s c g d a b fun x y => BitVec.ofNat 32 (x.toNat * y.toNat / 2 ^ 32))
def execMulhs (c : CoreNo) (g : IssueIn) (d a b : GReg) (s : State) : Res :=
  .next (binary s c g d a b fun x y => BitVec.ofInt 32 (x.toInt * y.toInt / 2 ^ 32))
def execDivu (c : CoreNo) (g : IssueIn) (d a b : GReg) (s : State) : Res :=
  .next (dividing s c g d a b fun x y => if y = 0 then 0xFFFFFFFF else x / y)
def execDivs (c : CoreNo) (g : IssueIn) (d a b : GReg) (s : State) : Res :=
  .next (dividing s c g d a b fun x y => if y = 0 then 0xFFFFFFFF else x.sdiv y)
def execRemu (c : CoreNo) (g : IssueIn) (d a b : GReg) (s : State) : Res :=
  .next (dividing s c g d a b fun x y => if y = 0 then x else x % y)
def execRems (c : CoreNo) (g : IssueIn) (d a b : GReg) (s : State) : Res :=
  .next (dividing s c g d a b fun x y => if y = 0 then x else x.srem y)

/-! ## CRC, ADJ, TEST (R341, R344, R352) -/

def execCrc (c : CoreNo) (g : IssueIn) (d a : GReg) (poly sz : BitVec 2) (s : State) : Res :=
  .next (regInstr s c.val g { undef := poly == 3 || sz == 3 } fun r =>
    setGpr r d (BitVec.ofNat 32 (crcStep poly.toNat (gpr r d).toNat (gpr r a).toNat (8 * sizeBytes sz))))

def execAdj (c : CoreNo) (g : IssueIn) (imm : BitVec 16) (s : State) : Res :=
  .next (regInstr s c.val g {} fun r => setSp r ((stk r).sp + imm.signExtend 32 * 4))

def execTest (c : CoreNo) (g : IssueIn) (pd comb : BitVec 2) (a : GReg) (rel : BitVec 3) (b : TestArg) (s : State) : Res :=
  .next (regInstr s c.val g { undef := pd == 0 || comb == 3 } fun r =>
    setPred r pd.toNat (combined comb (pred r pd.toNat) (relation rel (gpr r a) (testArg r b))))

end Sys2Proof.Machine
end

