-- ==== Sys2Proof/Machine/IxmetFlow.lean ====
section
/-! DEFINITION. The Ixmet instructions that reach memory or change the flow: LDST, PUSHM and POPM, ATOMIC, BRANCH, JUMP, LOOP, BLOCK, WFI,
HALT, GATE and ERET (R328, R329, R334, R340 to R348, R354, R355, R375, R379, R383 to R386). -/
namespace Sys2Proof.Machine
open Sys2Proof

/-! ## LDST (R340) -/

/-- What the n-th data read of an instruction meets. -/
def readFlt (g : IssueIn) (n : Nat) : MemFlt := g.data.getD n .none

/-- The effect of a load. -/
def loadBody (c : Nat) (d b : GReg) (sz : BitVec 2) (x : Bool) (off : BitVec 12) (flt : MemFlt) (s : State) : Ended :=
  match dataLoad s c (ldstAddr (cregs s c) b off).toNat (sizeBytes sz) 1 flt with
  | .val v s => .ok (setRegs s c (setGpr (cregs s c) d (extended sz x v)))
  | .wait s => .wait s
  | .bad e k s => .exc e k s false

/-- The effect of a store. -/
def storeBody (c : Nat) (d b : GReg) (sz : BitVec 2) (off : BitVec 12) (hit : Option Hit) (s : State) : Ended :=
  match dataStore s c (ldstAddr (cregs s c) b off).toNat (toLe (sizeBytes sz) (gpr (cregs s c) d).toNat) 2 hit with
  | .done s => .ok s
  | .bad e k s => .exc e k s false

def execLdstLoad (c : CoreNo) (g : IssueIn) (d b : GReg) (sz : BitVec 2) (x : Bool) (off : BitVec 12) (flt : MemFlt)
    (s : State) : Res :=
  .next (instr s c.val g (fun _ => { undef := sz == 3, rsv := sz == 2 && x }) (loadBody c.val d b sz x off flt))
def execLdstStore (c : CoreNo) (g : IssueIn) (d b : GReg) (k : StoreKind) (off : BitVec 12) (s : State) : Res :=
  .next (instr s c.val g (fun _ => { undef := k.sz == 3, rsv := k.x }) (storeBody c.val d b k.sz off g.hit))

/-! ## PUSHM and POPM (R328, R341) -/

/-- The check of an implicit data-stack access before its Checkpoint: alignment, then bounds, then for a store the return stack
range (R371). -/
def dataStackFault (r : CoreRegs) (a : Word) (write : Bool) : Option Exc :=
  if a.toNat % 4 ≠ 0 then some ⟨2, 0, a.toNat⟩
  else if !inDataStack (stk r) a then some ⟨5, 1, a.toNat⟩
  else if write && hitsReturnStack r a.toNat 4 then some ⟨5, 3, a.toNat⟩
  else none

/-- The Checkpoint's refusal of a word access in the current mode. -/
def wordDenied (s : State) (c : Nat) (need : Need) (sub : Nat) (a : Word) : Option (Exc × Note) :=
  denied s c (userMode (cregs s c)) a.toNat 4 need sub

/-- The exception of the implicit accesses at some addresses: alignment and bounds of all come before the Checkpoint of any (R371). -/
def stackDenied (s : State) (c : Nat) (write : Bool) (l : List Word) : Option (Exc × Note) :=
  match l.findSome? fun a => dataStackFault (cregs s c) a write with
  | some e => some (e, id)
  | none => l.findSome? (wordDenied s c (if write then .write else .read) (if write then 2 else 1))

/-- The words a PUSHM stores: the registers of its list, the last first, each 4 bytes lower. -/
def pushList (r : CoreRegs) (sp : Word) : List GReg → List (Word × Word)
  | [] => []
  | n :: l => (sp - 4, gpr r n) :: pushList r (sp - 4) l

/-- Words are stored in order. -/
def pushWords (c : Nat) (hit : Option Hit) (s : State) (l : List (Word × Word)) : State :=
  l.foldl (fun s e =>
    storeData (accessEvents s c 6 e.1.toNat 4 (userMode (cregs s c))) c e.1.toNat (toLe 4 e.2.toNat) hit) s

/-- PUSHM: on an exception a free number of the words that could be stored have been, and DSP keeps its value (R341). -/
def pushBody (c : Nat) (l : List GReg) (hit : Option Hit) (s : State) : Ended :=
  let r := cregs s c
  let ws := pushList r (stk r).sp l
  match stackDenied s c true (ws.map (·.1)) with
  | some (e, k) =>
    let f := freshNat s
    let n := (ws.takeWhile fun w => (stackDenied s c true [w.1]).isNone).length
    .exc e k (pushWords c hit f.2 (ws.take (f.1 % (n + 1)))) true
  | none =>
    let s := pushWords c hit s ws
    .ok (setRegs s c (setSp (cregs s c) ((stk r).sp - BitVec.ofNat 32 (4 * ws.length))))

/-- Pop registers in order, the reads meeting flts in turn; they and DSP are written when every word has been read. -/
def popAll (c : Nat) (r : CoreRegs) (new : CoreRegs) (s : State) (sp : Word) (flts : List MemFlt) : List GReg → Ended
  | [] => .ok (setRegs s c (setSp new sp))
  | n :: l =>
    match coreLoad s c (userMode r) sp.toNat 4 1 (flts.headD .none) with
    | .val v s => popAll c r (setGpr new n (BitVec.ofNat 32 v)) s (sp + 4) flts.tail l
    | .wait s => .wait s
    | .bad e k s => .exc e k s false

/-- POPM. -/
def popBody (c : Nat) (l : List GReg) (flts : List MemFlt) (s : State) : Ended :=
  let r := cregs s c
  match stackDenied s c false ((List.range l.length).map fun i => (stk r).sp + BitVec.ofNat 32 (4 * i)) with
  | some (e, k) => .exc e k s false
  | none => popAll c r r s (stk r).sp flts l

/-- Mask bits 0 and 15 must be 0. -/
def maskBad (m : BitVec 16) : Bool := m.toNat.testBit 0 || m.toNat.testBit 15

def execPushm (c : CoreNo) (g : IssueIn) (mask : BitVec 16) (s : State) : Res :=
  .next (instr s c.val g (fun _ => { rsv := maskBad mask }) (pushBody c.val (maskRegs mask).reverse g.hit))
def execPopm (c : CoreNo) (g : IssueIn) (mask : BitVec 16) (s : State) : Res :=
  .next (instr s c.val g (fun _ => { rsv := maskBad mask }) (popBody c.val (maskRegs mask) g.data))

/-! ## ATOMIC (R342) -/

/-- An indivisible read-modify-write of the shared SRAM word at Gb; `k` gives the new word for the old one, or none to leave it,
and the registers. The Checkpoint judges the access first (R404); one it permits outside the shared SRAM raises ACCESS alone
(R342). -/
def atomicBody (c : Nat) (b : GReg) (g : IssueIn) (k : CoreRegs → Word → Option Word × CoreRegs) (s : State) : Ended :=
  let r := cregs s c
  let a := (gpr r b).toNat
  if a % 4 ≠ 0 then .exc ⟨2, 0, a⟩ id s false
  else if hitsReturnStack r a 4 then .exc ⟨5, 3, a⟩ id s false
  else match denied s c (userMode r) a 4 .atomic 3 with
    | some (e, k) => .exc e k s false
    | none =>
      if !(decide (sramBase ≤ a) && decide (a < sramEnd)) then .exc ⟨4, 3, a⟩ id s false
      else match loadData (accessEvents s c 5 a 4 (userMode r)) c (userMode r) a 4 (readFlt g 0) with
      | .bad e k s => .exc e k s false
      | .wait s => .wait s
      | .val old s =>
        let x := k r (BitVec.ofNat 32 old)
        match x.1 with
        | some w => .ok (setRegs (storeData s c a (toLe 4 w.toNat) g.hit) c x.2)
        | none => .ok (setRegs s c x.2)

def execSwap (c : CoreNo) (g : IssueIn) (d b a : GReg) (s : State) : Res :=
  .next (instr s c.val g (fun _ => {}) (atomicBody c.val b g fun r old => (some (gpr r a), setGpr r d old)))
def execCas (c : CoreNo) (g : IssueIn) (d b a : GReg) (pd : BitVec 2) (s : State) : Res :=
  .next (instr s c.val g (fun _ => {}) (atomicBody c.val b g fun r old =>
    let hit := old == gpr r d
    (if hit then some (gpr r a) else none, setPred (setGpr r d old) pd.toNat hit)))
def execAdda (c : CoreNo) (g : IssueIn) (d b a : GReg) (s : State) : Res :=
  .next (instr s c.val g (fun _ => {}) (atomicBody c.val b g fun r old => (some (old + gpr r a), setGpr r d old)))

/-! ## Transfers (R329, R343, R345, R347, R383) -/

/-- A transfer to a target that has accessed nothing. -/
def slotOf (r : CoreRegs) (target : Word) : SlotWait := { target := some target, before := r }

/-- A transfer that pushes nothing. -/
def goBody (c : Nat) (target : CoreRegs → Word) (s : State) : Ended :=
  let r := cregs s c
  .transfer s (slotOf r (target r))

/-- An access lies in the register pages. -/
def onRegs (c a : Nat) : Bool := decide (regionOf c a 4 = some .regs)

/-- A transfer pushes a word, which is stored as its slot executes (R347). -/
def heldPush (hit : Option Hit) (a w : Word) (k : SlotWait) : SlotWait := { k with late := k.late ++ [(a.toNat, some (w, hit))] }

/-- The transfer of a call: the return address goes to both stacks; every check comes before either store (R371). -/
def callBody (c : Nat) (hit : Option Hit) (target : CoreRegs → Word) (s : State) : Ended :=
  let r := cregs s c
  let k := stk r
  let d := k.sp - 4
  let p := k.rsp - 4
  let ret := r.pc + 8
  match stackFault k d p with
  | some e => .exc e id s false
  | none =>
    match [d, p].findSome? (wordDenied s c .write 2) with
    | some (e, n) => .exc e n s false
    | none =>
      let s := [d, p].foldl (fun s a => accessEvents s c 6 a.toNat 4 (userMode r)) s
      .transfer (setRegs s c (setSps r d p)) (heldPush hit p ret (heldPush hit d ret (slotOf r (target r))))

/-- A transfer reads a word: of a register page, whose read is made again as its slot executes, only the value is taken now. -/
def heldLoad (s : State) (c : Nat) (a : Word) (flt : MemFlt) : Got :=
  match coreLoad s c (userMode (cregs s c)) a.toNat 4 1 flt with
  | .val v t =>
    if onRegs c a.toNat then
      let s := accessEvents { s with free := t.free } c 5 a.toNat 4 (userMode (cregs s c))
      .val v (setCore s c { coreAt s c with loaded := none })
    else .val v t
  | g => g

/-- The reads of register pages that a transfer holds. -/
def heldReads (c : Nat) (l : List Word) : List (Nat × Option (Word × Option Hit)) :=
  (l.filter fun a => onRegs c a.toNat).map fun a => (a.toNat, none)

/-- RET: both copies of the return address are read and compared, then popped. -/
def retBody (c : Nat) (f0 f1 : MemFlt) (s : State) : Ended :=
  let r := cregs s c
  let k := stk r
  match stackFault k k.sp k.rsp with
  | some e => .exc e id s false
  | none =>
    match [k.sp, k.rsp].findSome? (wordDenied s c .read 1) with
    | some (e, n) => .exc e n s false
    | none =>
      match heldLoad s c k.sp f0 with
      | .bad e n s => .exc e n s false
      | .wait s => .wait s
      | .val x s =>
        match heldLoad s c k.rsp f1 with
        | .bad e n s => .exc e n s false
        | .wait s => .wait s
        | .val y s =>
          if x ≠ y then .exc ⟨7, 1, x⟩ (fun s => shadowCount s c) s false
          else .transfer (setRegs s c (setSps (cregs s c) (k.sp + 4) (k.rsp + 4)))
            { slotOf r (BitVec.ofNat 32 x) with late := heldReads c [k.sp, k.rsp] }

def execB (c : CoreNo) (g : IssueIn) (disp : BitVec 22) (s : State) : Res :=
  .next (instr s c.val g (fun _ => { kind := .transfer }) (goBody c.val fun r => branchTarget r disp))
def execCall (c : CoreNo) (g : IssueIn) (disp : BitVec 22) (s : State) : Res :=
  .next (instr s c.val g (fun _ => { kind := .transfer }) (callBody c.val g.hit fun r => branchTarget r disp))
def execJmp (c : CoreNo) (g : IssueIn) (a : GReg) (s : State) : Res :=
  .next (instr s c.val g (fun _ => { kind := .transfer }) (goBody c.val fun r => gpr r a))
def execCallr (c : CoreNo) (g : IssueIn) (a : GReg) (s : State) : Res :=
  .next (instr s c.val g (fun _ => { kind := .transfer }) (callBody c.val g.hit fun r => gpr r a))
def execRet (c : CoreNo) (g : IssueIn) (s : State) : Res :=
  .next (instr s c.val g (fun _ => { kind := .transfer }) (retBody c.val (readFlt g 0) (readFlt g 1)))

/-! ## LOOP (R348) -/

/-- The registers after LOOP: start, end and count of its level. -/
def loopRegs (r : CoreRegs) (lvl : Bool) (n : Word) (len : BitVec 12) : CoreRegs :=
  let ls := r.pc + 4
  let le := r.pc + len.zeroExtend 32 * 4
  if lvl then { r with lc1 := n, ls1 := ls, le1 := le } else { r with lc0 := n, ls0 := ls, le0 := le }

/-- LOOP: with a count of 0 the body is skipped. -/
def loopBody (c : Nat) (lvl : Bool) (cnt : LoopCnt) (len : BitVec 12) (s : State) : Ended :=
  let r := cregs s c
  let n := loopCount r cnt
  let s := setRegs s c (loopRegs r lvl n len)
  if n = 0 then .goto s (r.pc + len.zeroExtend 32 * 4 + 4) else .ok s

def execLoop (c : CoreNo) (g : IssueIn) (lvl : Bool) (cnt : LoopCnt) (len : BitVec 12) (s : State) : Res :=
  .next (instr s c.val g (fun _ => { undef := len == 0, kind := .loop }) (loopBody c.val lvl cnt len))

/-! ## BLOCK (R354, R355): one element a command -/

/-- An element has been done: the count register falls, and the instruction completes when it reaches 0. -/
def elementDone (c : Nat) (n : GReg) (k : CoreRegs → CoreRegs) (s : State) : Ended :=
  let r := k (cregs s c)
  let v := gpr r n - 1
  let s := surveyEvent (setRegs s c (setGpr r n v)) c 0x10 0 (!userMode r)
  if v = 0 then .ok s else .stay s

/-- A BLOCK instruction: it completes at once when Gn is 0, otherwise it does one element. -/
def blockBody (c : Nat) (n : GReg) (k : State → Ended) (s : State) : Ended :=
  if gpr (cregs s c) n = 0 then .ok s else k s

/-- The operand registers must be different, none of them G0. -/
def blockOperands (l : List GReg) : Bool := decide l.Nodup && !l.contains 0

/-- BCOPY: both accesses are checked before either is made, so that an element that fails has made no change (R355, R371). -/
def bcopyElement (c : Nat) (d a n : GReg) (flt : MemFlt) (hit : Option Hit) (s : State) : Ended :=
  let r := cregs s c
  let x := gpr r a
  let y := gpr r d
  if x.toNat % 4 ≠ 0 then .exc ⟨2, 0, x.toNat⟩ id s false
  else if y.toNat % 4 ≠ 0 then .exc ⟨2, 0, y.toNat⟩ id s false
  else if hitsReturnStack r y.toNat 4 then .exc ⟨5, 3, y.toNat⟩ id s false
  else match wordDenied s c .read 4 x <|> wordDenied s c .write 5 y with
    | some (e, k) => .exc e k s false
    | none =>
      match coreLoad s c (userMode r) x.toNat 4 4 flt with
      | .bad e k s => .exc e k s false
      | .wait s => .wait s
      | .val v s =>
        match coreStoreWord s c (userMode r) y.toNat (BitVec.ofNat 32 v) 5 hit with
        | .bad e k s => .exc e k s false
        | .done s => elementDone c n (fun r => setGpr (setGpr r a (gpr r a + 4)) d (gpr r d + 4)) s

def bclrElement (c : Nat) (d n : GReg) (hit : Option Hit) (s : State) : Ended :=
  match dataStore s c (gpr (cregs s c) d).toNat (toLe 4 0) 5 hit with
  | .bad e k s => .exc e k s false
  | .done s => elementDone c n (fun r => setGpr r d (gpr r d + 4)) s

def bcrcElement (c : Nat) (d a n : GReg) (poly : BitVec 2) (flt : MemFlt) (s : State) : Ended :=
  match dataLoad s c (gpr (cregs s c) a).toNat 1 4 flt with
  | .bad e k s => .exc e k s false
  | .wait s => .wait s
  | .val v s => elementDone c n (fun r =>
      setGpr (setGpr r d (BitVec.ofNat 32 (crcStep poly.toNat (gpr r d).toNat v 8))) a (gpr r a + 1)) s

def execBcopy (c : CoreNo) (g : IssueIn) (d a : GReg) (m : BlockLen) (s : State) : Res :=
  .next (instr s c.val g (fun _ => { undef := m.poly != 0 || !blockOperands [d, a, m.n], kind := .alone })
    (blockBody c.val m.n (bcopyElement c.val d a m.n (readFlt g 0) g.hit)))
def execBclr (c : CoreNo) (g : IssueIn) (d : GReg) (m : ClearLen) (s : State) : Res :=
  .next (instr s c.val g (fun _ => { undef := m.poly != 0 || !blockOperands [d, m.n], rsv := m.a != 0, kind := .alone })
    (blockBody c.val m.n (bclrElement c.val d m.n g.hit)))
def execBcrc (c : CoreNo) (g : IssueIn) (d a n : GReg) (poly : BitVec 2) (s : State) : Res :=
  .next (instr s c.val g (fun _ => { undef := poly == 3 || !blockOperands [d, a, n], kind := .alone })
    (blockBody c.val n (bcrcElement c.val d a n poly (readFlt g 0))))

/-! ## WFI and HALT (R334, R375) -/

/-- An instruction that user mode may not execute (R369). -/
def privileged (k : Kind) (c : Nat) (s : State) : Form := { kind := k, priv := userMode (cregs s c) }

def wfiBody (c : Nat) (s : State) : Ended :=
  if wfiDone s c then .ok s else .stay (surveyEvent (setCore s c { coreAt s c with state := 3 }) c 0x10E 0 (!userMode (cregs s c)))

def execWfi (c : CoreNo) (g : IssueIn) (s : State) : Res :=
  .next (instr s c.val g (privileged .plain c.val) (wfiBody c.val))
def execHalt (c : CoreNo) (g : IssueIn) (s : State) : Res :=
  .next (instr s c.val g (privileged .alone c.val) fun s => .halt s)

/-! ## GATE (R384 to R386) -/

/-- A pair of a Tollgate entry marked as a buffer fails: SUB. -/
def pairFault (r : CoreRegs) (w1 : Nat) (p : Nat) : Option Nat :=
  if bits w1 (2 * p + 1) (2 * p) ≠ 1 then none
  else
    let ptr := (gpr r (Fin.ofNat 16 (2 * p + 1))).toNat
    let len := (gpr r (Fin.ofNat 16 (2 * p + 2))).toNat
    if 2 ^ bits w1 20 16 < len then some (0x20 + p)
    else if ptr < r.uwBase.toNat || r.uwLimit.toNat < ptr + len then some (0x10 + p)
    else none

/-- An entry that cannot be called: not VALID, a reserved field set, MAXLOG over 24, or not callable from user mode. -/
def gateRefused (r : CoreRegs) (w0 w1 : Nat) : Bool :=
  !w0.testBit 0 || ((List.range 4).any fun p => decide (2 ≤ bits w1 (2 * p + 1) (2 * p))) || bits w1 15 8 != 0
    || bits w1 31 21 != 0 || decide (24 < bits w1 20 16) || (!w0.testBit 1 && userMode r)

/-- An entry that has been read decides: its pairs for a call from user mode, then the call. -/
def gateCall (c n w0 w1 : Nat) (s : State) : Ended :=
  let r := cregs s c
  if gateRefused r w0 w1 then .exc ⟨8, 2, n⟩ id s false
  else match if userMode r then (List.range 4).findSome? (pairFault r w1) else none with
    | some sub => .exc ⟨8, sub, n⟩ id s false
    | none => .call s n (BitVec.ofNat 32 (w0 / 4 * 4))

/-- A read of a Tollgate entry that fails: TOLLGATE when it is refused or finds an uncorrectable error (R385); a Seal failure stays
MEMERR (R372). -/
def gateBad (n : Nat) (e : Exc) : Exc := if e.vec = 6 && e.sub = 3 then e else ⟨8, 3, n⟩

/-- Word 0's read has failed: its Seal failure is MEMERR only when word 1's read raises no TOLLGATE, which comes first (R371). -/
def gateFails (n : Nat) (e : Exc) (k : Note) (s : State) (second : State → Got) : Ended :=
  match second s with
  | .bad e2 k2 s2 =>
    if (gateBad n e).vec = 6 && (gateBad n e2).vec = 8 then .exc (gateBad n e2) (fun s => k2 (k s)) s2 false
    else .exc (gateBad n e) k s false
  | _ => .exc (gateBad n e) k s false

/-- GATE: the entry is read as a system-mode load. -/
def gateBody (c n : Nat) (f0 f1 : MemFlt) (s : State) : Ended :=
  let r := cregs s c
  let a := (r.tgBase + BitVec.ofNat 32 (8 * n)).toNat
  if min 4096 r.tgLimit.toNat ≤ n then .exc ⟨8, 1, n⟩ id s false
  else match coreLoad s c false a 4 1 f0 with
    | .bad e k s => gateFails n e k s fun s => coreLoad s c false (a + 4) 4 1 f1
    | .wait s => .wait s
    | .val w0 s =>
      match coreLoad s c false (a + 4) 4 1 f1 with
      | .bad e k s => .exc (gateBad n e) k s false
      | .wait s => .wait s
      | .val w1 s => gateCall c n w0 w1 s

def execGate (c : CoreNo) (g : IssueIn) (n : BitVec 12) (s : State) : Res :=
  .next (instr s c.val g (fun _ => { kind := .alone }) (gateBody c.val n.toNat (readFlt g 0) (readFlt g 1)))

/-! ## ERET (R379) -/

/-- The n words from an address are read in system mode, lowest first, meeting flts in turn. -/
def loadWords (c : Nat) (s : State) (a : Word) (flts : List MemFlt) (l : List Word) : Nat → Except Ended (List Word × State)
  | 0 => .ok (l, s)
  | n + 1 =>
    match coreLoad s c false a.toNat 4 1 (flts.headD .none) with
    | .bad e k s => .error (.exc e k s false)
    | .wait s => .error (.wait s)
    | .val v s => loadWords c s (a + 4) flts.tail (l ++ [BitVec.ofNat 32 v]) n

/-- What ERET checks on the system stacks: alignment, then bounds (R371). -/
def eretBounds (k : Stacks) : Option Exc :=
  if k.sp.toNat % 4 ≠ 0 then some ⟨2, 0, k.sp.toNat⟩
  else if k.rsp.toNat % 4 ≠ 0 then some ⟨2, 0, k.rsp.toNat⟩
  else if k.limit.toNat < k.sp.toNat + 40 then some ⟨5, 1, k.sp.toNat⟩
  else if k.rlimit.toNat < k.rsp.toNat + 4 then some ⟨5, 2, k.rsp.toNat⟩
  else none

/-- The words ERET reads: the frame, then the return-stack copy. -/
def eretReads (k : Stacks) : List Word := ((List.range 10).map fun i => k.sp + BitVec.ofNat 32 (4 * i)) ++ [k.rsp]

/-- The registers after ERET from a frame: DFL and the reserved bits of PSW 0. -/
def eretRegs (r : CoreRegs) (f : List Word) : CoreRegs :=
  let w (n : Nat) : Word := f.getD n 0
  { r with
    sys := { r.sys with sp := r.sys.sp + 40, rsp := r.sys.rsp + 4 }
    lc0 := w 4, ls0 := w 5, le0 := w 6, lc1 := w 7, ls1 := w 8, le1 := w 9
    psw := w 1 &&& 0xF3F }

/-- The return from an exception; under DFL it is a third fault, whose cause the manual leaves open (R388). -/
def eretBody (c : Nat) (flts : List MemFlt) (s : State) : Ended :=
  let r := cregs s c
  if wbit r.psw 6 then
    let f := freshNat s
    .stay (thirdFault f.2 c (f.1 % 2 ^ 24) (savedPc r.pc))
  else match eretBounds r.sys with
    | some e => .exc e id s false
    | none =>
      match (eretReads r.sys).findSome? fun a => denied s c false a.toNat 4 .read 1 with
      | some (e, k) => .exc e k s false
      | none =>
        match loadWords c s r.sys.sp flts [] 10 with
        | .error e => e
        | .ok (f, s) =>
          match coreLoad s c false r.sys.rsp.toNat 4 1 (flts.getD 10 .none) with
          | .bad e k s => .exc e k s false
          | .wait s => .wait s
          | .val x s =>
            if f.getD 0 0 != BitVec.ofNat 32 x then .exc ⟨7, 2, (f.getD 0 0).toNat⟩ (fun s => shadowCount s c) s false
            else .goto (setRegs s c (eretRegs (cregs s c) f)) (savedPc (f.getD 0 0))

def execEret (c : CoreNo) (g : IssueIn) (s : State) : Res :=
  .next (instr s c.val g (privileged .alone c.val) (eretBody c.val g.data))

end Sys2Proof.Machine
end

