-- ==== Sys2Proof/Machine/Dispatch.lean ====
section
/-! DEFINITION. One arm per command: its meaning, called directly. -/
namespace Sys2Proof.Machine
open Sys2Proof

/-- The effect of a command or event on everything but the queue. -/
def exec (i : Instr) (s : State) : Host.Outcome State Fault Refusal :=
  match i with
  | .registerWrite src addr wr v => Sys2Proof.Machine.execRegisterWrite src addr wr v s
  | .rcFieldRead src addr rd => Sys2Proof.Machine.execRcFieldRead src addr rd s
  | .cntClear src page => Sys2Proof.Machine.execCntClear src page s
  | .intForce src page v => Sys2Proof.Machine.execIntForce src page v s
  | .pageLock src page => Sys2Proof.Machine.execPageLock src page s
  | .faultWindowExpire page => Sys2Proof.Machine.execFaultWindowExpire page s
  | .parityScrub bad => Sys2Proof.Machine.execParityScrub bad s
  | .sqTailDb fn q v => Sys2Proof.Machine.execSqTailDb fn q v s
  | .cqHeadDb fn q v => Sys2Proof.Machine.execCqHeadDb fn q v s
  | .admitOne ctx => Sys2Proof.Machine.execAdmitOne ctx s
  | .descriptorArrive ctx bytes ecc => Sys2Proof.Machine.execDescriptorArrive ctx bytes ecc s
  | .coalTimeExpire q => Sys2Proof.Machine.execCoalTimeExpire q s
  | .msixTableWrite fn fld v => Sys2Proof.Machine.execMsixTableWrite fn fld v s
  | .qcmdRead src early => Sys2Proof.Machine.execQcmdRead src early s
  | .qcmdWrite src early => Sys2Proof.Machine.execQcmdWrite src early s
  | .enable src early => Sys2Proof.Machine.execEnable src early s
  | .disable src early => Sys2Proof.Machine.execDisable src early s
  | .disableAbort src early => Sys2Proof.Machine.execDisableAbort src early s
  | .clearReplay src early => Sys2Proof.Machine.execClearReplay src early s
  | .winSync src => Sys2Proof.Machine.execWinSync src s
  | .winSyncDone => Sys2Proof.Machine.execWinSyncDone s
  | .domResvWrite src v => Sys2Proof.Machine.execDomResvWrite src v s
  | .domCapWrite src v => Sys2Proof.Machine.execDomCapWrite src v s
  | .flr fn => Sys2Proof.Machine.execFlr fn s
  | .flrDone fn => Sys2Proof.Machine.execFlrDone fn s
  | .vfDisable p n => Sys2Proof.Machine.execVfDisable p n s
  | .linkDown p => Sys2Proof.Machine.execLinkDown p s
  | .linkUp p tr => Sys2Proof.Machine.execLinkUp p tr s
  | .retrain src p v tr => Sys2Proof.Machine.execRetrain src p v tr s
  | .poisonedTlp p fn addr ctx uncorr => Sys2Proof.Machine.execPoisonedTlp p fn addr ctx uncorr s
  | .perst p => Sys2Proof.Machine.execPerst p s
  | .sourceDataArrive ctx bytes hit => Sys2Proof.Machine.execSourceDataArrive ctx bytes hit s
  | .roundaboutAccept ctx inp => Sys2Proof.Machine.execRoundaboutAccept ctx inp s
  | .convoyRelease => Sys2Proof.Machine.execConvoyRelease s
  | .dispatch cls unit seen => Sys2Proof.Machine.execDispatch cls unit seen s
  | .reservationConfirm slot ok => Sys2Proof.Machine.execReservationConfirm slot ok s
  | .nop ctx => Sys2Proof.Machine.execNop ctx s
  | .encrypt ctx => Sys2Proof.Machine.execEncrypt ctx s
  | .decrypt ctx => Sys2Proof.Machine.execDecrypt ctx s
  | .macGenerate ctx => Sys2Proof.Machine.execMacGenerate ctx s
  | .macVerify ctx => Sys2Proof.Machine.execMacVerify ctx s
  | .wrap ctx => Sys2Proof.Machine.execWrap ctx s
  | .unwrap ctx => Sys2Proof.Machine.execUnwrap ctx s
  | .hash ctx => Sys2Proof.Machine.execHash ctx s
  | .hmacGenerate ctx => Sys2Proof.Machine.execHmacGenerate ctx s
  | .hmacVerify ctx => Sys2Proof.Machine.execHmacVerify ctx s
  | .laneBeat u e => Sys2Proof.Machine.execLaneBeat u e s
  | .laneKatDone n pass => Sys2Proof.Machine.execLaneKatDone n pass s
  | .blvdKatDone n pass => Sys2Proof.Machine.execBlvdKatDone n pass s
  | .hashKatDone n pass => Sys2Proof.Machine.execHashKatDone n pass s
  | .unitStop u => Sys2Proof.Machine.execUnitStop u s
  | .laneRetest src g bits => Sys2Proof.Machine.execLaneRetest src g bits s
  | .laneForceOff src g bits => Sys2Proof.Machine.execLaneForceOff src g bits s
  | .blvdRetest src bits => Sys2Proof.Machine.execBlvdRetest src bits s
  | .blvdForceOff src bits => Sys2Proof.Machine.execBlvdForceOff src bits s
  | .hashRetest src bits => Sys2Proof.Machine.execHashRetest src bits s
  | .laneBlocksLoRead src g => Sys2Proof.Machine.execLaneBlocksLoRead src g s
  | .blvdBytesLoRead src n => Sys2Proof.Machine.execBlvdBytesLoRead src n s
  | .hashBytesLoRead src => Sys2Proof.Machine.execHashBytesLoRead src s
  | .rbtNextLaunchLoRead src => Sys2Proof.Machine.execRbtNextLaunchLoRead src s
  | .keyGenerate ctx => Sys2Proof.Machine.execKeyGenerate ctx s
  | .keyDerive ctx => Sys2Proof.Machine.execKeyDerive ctx s
  | .keyImport ctx => Sys2Proof.Machine.execKeyImport ctx s
  | .keyExport o => Sys2Proof.Machine.execKeyExport o s
  | .keyErase ctx => Sys2Proof.Machine.execKeyErase ctx s
  | .keyQuery ctx ecc => Sys2Proof.Machine.execKeyQuery ctx ecc s
  | .cascadeRevoke => Sys2Proof.Machine.execCascadeRevoke s
  | .zeroisingEnd => Sys2Proof.Machine.execZeroisingEnd s
  | .assign src dom => Sys2Proof.Machine.execAssign src dom s
  | .unassign src => Sys2Proof.Machine.execUnassign src s
  | .eraseAssign src dom => Sys2Proof.Machine.execEraseAssign src dom s
  | .eraseUnassign src => Sys2Proof.Machine.execEraseUnassign src s
  | .assignDone => Sys2Proof.Machine.execAssignDone s
  | .mewsSlotAttr0Read src ecc => Sys2Proof.Machine.execMewsSlotAttr0Read src ecc s
  | .transition src fails => Sys2Proof.Machine.execTransition src fails s
  | .custInstall src => Sys2Proof.Machine.execCustInstall src s
  | .lcCmdEnd => Sys2Proof.Machine.execLcCmdEnd s
  | .pinTranslate ctx => Sys2Proof.Machine.execPinTranslate ctx s
  | .dukptPinTranslate ctx => Sys2Proof.Machine.execDukptPinTranslate ctx s
  | .dukptMacVerify ctx => Sys2Proof.Machine.execDukptMacVerify ctx s
  | .dukptOriginate ctx => Sys2Proof.Machine.execDukptOriginate ctx s
  | .dukptReservationConfirm slot ok => Sys2Proof.Machine.execDukptReservationConfirm slot ok s
  | .emvArqcVerify ctx => Sys2Proof.Machine.execEmvArqcVerify ctx s
  | .emvArpcGenerate ctx => Sys2Proof.Machine.execEmvArpcGenerate ctx s
  | .ff1Encrypt ctx => Sys2Proof.Machine.execFf1Encrypt ctx s
  | .ff1Decrypt ctx => Sys2Proof.Machine.execFf1Decrypt ctx s
  | .milenageVector ctx => Sys2Proof.Machine.execMilenageVector ctx s
  | .milenageResync ctx => Sys2Proof.Machine.execMilenageResync ctx s
  | .tuakVector ctx => Sys2Proof.Machine.execTuakVector ctx s
  | .tuakResync ctx => Sys2Proof.Machine.execTuakResync ctx s
  | .aka5gDerive ctx => Sys2Proof.Machine.execAka5gDerive ctx s
  | .pkSign ctx => Sys2Proof.Machine.execPkSign ctx s
  | .pkVerify ctx => Sys2Proof.Machine.execPkVerify ctx s
  | .pkEncrypt ctx => Sys2Proof.Machine.execPkEncrypt ctx s
  | .pkDecrypt ctx => Sys2Proof.Machine.execPkDecrypt ctx s
  | .pkKeypair ctx => Sys2Proof.Machine.execPkKeypair ctx s
  | .pkAgree ctx => Sys2Proof.Machine.execPkAgree ctx s
  | .kemEncap ctx => Sys2Proof.Machine.execKemEncap ctx s
  | .kemDecap ctx => Sys2Proof.Machine.execKemDecap ctx s
  | .modAdd ctx => Sys2Proof.Machine.execModAdd ctx s
  | .modSub ctx => Sys2Proof.Machine.execModSub ctx s
  | .modMul ctx => Sys2Proof.Machine.execModMul ctx s
  | .modInv ctx => Sys2Proof.Machine.execModInv ctx s
  | .modExp ctx => Sys2Proof.Machine.execModExp ctx s
  | .ptAdd ctx => Sys2Proof.Machine.execPtAdd ctx s
  | .ptDbl ctx => Sys2Proof.Machine.execPtDbl ctx s
  | .ptMul ctx => Sys2Proof.Machine.execPtMul ctx s
  | .ptMulG ctx => Sys2Proof.Machine.execPtMulG ctx s
  | .ptCheck ctx => Sys2Proof.Machine.execPtCheck ctx s
  | .curveLoad ctx => Sys2Proof.Machine.execCurveLoad ctx s
  | .curveFree ctx => Sys2Proof.Machine.execCurveFree ctx s
  | .ntt ctx => Sys2Proof.Machine.execNtt ctx s
  | .intt ctx => Sys2Proof.Machine.execIntt ctx s
  | .pmul ctx => Sys2Proof.Machine.execPmul ctx s
  | .padd ctx => Sys2Proof.Machine.execPadd ctx s
  | .psub ctx => Sys2Proof.Machine.execPsub ctx s
  | .arcZeroiseDone n => Sys2Proof.Machine.execArcZeroiseDone n s
  | .arcKatDone n pass => Sys2Proof.Machine.execArcKatDone n pass s
  | .arcRetest src n => Sys2Proof.Machine.execArcRetest src n s
  | .arcForceOff src n on => Sys2Proof.Machine.execArcForceOff src n on s
  | .arcCurveFree src => Sys2Proof.Machine.execArcCurveFree src s
  | .rngRead ctx => Sys2Proof.Machine.execRngRead ctx s
  | .noiseSample bits => Sys2Proof.Machine.execNoiseSample bits s
  | .fountainSettleEnd => Sys2Proof.Machine.execFountainSettleEnd s
  | .startupTimeout => Sys2Proof.Machine.execStartupTimeout s
  | .drbgGenerate turn => Sys2Proof.Machine.execDrbgGenerate turn s
  | .fntKat src => Sys2Proof.Machine.execFntKat src s
  | .fntKatDone pass => Sys2Proof.Machine.execFntKatDone pass s
  | .fntSwDataRead src => Sys2Proof.Machine.execFntSwDataRead src s
  | .fntRawDataRead src => Sys2Proof.Machine.execFntRawDataRead src s
  | .epochBoundary => Sys2Proof.Machine.execEpochBoundary s
  | .slewStep => Sys2Proof.Machine.execSlewStep s
  | .syncMarker fromXing => Sys2Proof.Machine.execSyncMarker fromXing s
  | .holdoverTimeout => Sys2Proof.Machine.execHoldoverTimeout s
  | .ctCfgWrite src v => Sys2Proof.Machine.execCtCfgWrite src v s
  | .loadNow src => Sys2Proof.Machine.execLoadNow src s
  | .loadAtSync src => Sys2Proof.Machine.execLoadAtSync src s
  | .cancelLoad src => Sys2Proof.Machine.execCancelLoad src s
  | .ctTickLoRead src => Sys2Proof.Machine.execCtTickLoRead src s
  | .tickCompareMatch c => Sys2Proof.Machine.execTickCompareMatch c s
  | .udf c g w => Sys2Proof.Machine.execUdf c g w s
  | .sysNop c g => Sys2Proof.Machine.execSysNop c g s
  | .wfi c g => Sys2Proof.Machine.execWfi c g s
  | .mbar c g => Sys2Proof.Machine.execMbar c g s
  | .mfs c g d sr => Sys2Proof.Machine.execMfs c g d sr s
  | .mts c g sr a => Sys2Proof.Machine.execMts c g sr a s
  | .gate c g n => Sys2Proof.Machine.execGate c g n s
  | .eret c g => Sys2Proof.Machine.execEret c g s
  | .halt c g => Sys2Proof.Machine.execHalt c g s
  | .add c g d a b => Sys2Proof.Machine.execAdd c g d a b s
  | .addc c g d a b => Sys2Proof.Machine.execAddc c g d a b s
  | .addx c g d a b => Sys2Proof.Machine.execAddx c g d a b s
  | .sub c g d a b => Sys2Proof.Machine.execSub c g d a b s
  | .subc c g d a b => Sys2Proof.Machine.execSubc c g d a b s
  | .subx c g d a b => Sys2Proof.Machine.execSubx c g d a b s
  | .and c g d a b => Sys2Proof.Machine.execAnd c g d a b s
  | .or c g d a b => Sys2Proof.Machine.execOr c g d a b s
  | .xor c g d a b => Sys2Proof.Machine.execXor c g d a b s
  | .andn c g d a b => Sys2Proof.Machine.execAndn c g d a b s
  | .copy c g d a b => Sys2Proof.Machine.execCopy c g d a b s
  | .inv c g d a b => Sys2Proof.Machine.execInv c g d a b s
  | .min c g d a b => Sys2Proof.Machine.execMin c g d a b s
  | .max c g d a b => Sys2Proof.Machine.execMax c g d a b s
  | .minu c g d a b => Sys2Proof.Machine.execMinu c g d a b s
  | .maxu c g d a b => Sys2Proof.Machine.execMaxu c g d a b s
  | .addi c g d a imm => Sys2Proof.Machine.execAddi c g d a imm s
  | .andi c g d a imm => Sys2Proof.Machine.execAndi c g d a imm s
  | .ori c g d a imm => Sys2Proof.Machine.execOri c g d a imm s
  | .xori c g d a imm => Sys2Proof.Machine.execXori c g d a imm s
  | .addci c g d a imm => Sys2Proof.Machine.execAddci c g d a imm s
  | .movi c g d h imm => Sys2Proof.Machine.execMovi c g d h imm s
  | .shl c g d a amt => Sys2Proof.Machine.execShl c g d a amt s
  | .shr c g d a amt => Sys2Proof.Machine.execShr c g d a amt s
  | .sar c g d a amt => Sys2Proof.Machine.execSar c g d a amt s
  | .ror c g d a amt => Sys2Proof.Machine.execRor c g d a amt s
  | .clz c g d a => Sys2Proof.Machine.execClz c g d a s
  | .popc c g d a => Sys2Proof.Machine.execPopc c g d a s
  | .par c g d a f => Sys2Proof.Machine.execPar c g d a f s
  | .bpar c g d a => Sys2Proof.Machine.execBpar c g d a s
  | .brev c g d a f => Sys2Proof.Machine.execBrev c g d a f s
  | .brevb c g d a => Sys2Proof.Machine.execBrevb c g d a s
  | .bswap c g d a => Sys2Proof.Machine.execBswap c g d a s
  | .mul c g d a b => Sys2Proof.Machine.execMul c g d a b s
  | .mulhu c g d a b => Sys2Proof.Machine.execMulhu c g d a b s
  | .mulhs c g d a b => Sys2Proof.Machine.execMulhs c g d a b s
  | .divu c g d a b => Sys2Proof.Machine.execDivu c g d a b s
  | .divs c g d a b => Sys2Proof.Machine.execDivs c g d a b s
  | .remu c g d a b => Sys2Proof.Machine.execRemu c g d a b s
  | .rems c g d a b => Sys2Proof.Machine.execRems c g d a b s
  | .ldstLoad c g d b sz x off flt => Sys2Proof.Machine.execLdstLoad c g d b sz x off flt s
  | .ldstStore c g d b k off => Sys2Proof.Machine.execLdstStore c g d b k off s
  | .pushm c g mask => Sys2Proof.Machine.execPushm c g mask s
  | .popm c g mask => Sys2Proof.Machine.execPopm c g mask s
  | .adj c g imm => Sys2Proof.Machine.execAdj c g imm s
  | .swap c g d b a => Sys2Proof.Machine.execSwap c g d b a s
  | .cas c g d b a pd => Sys2Proof.Machine.execCas c g d b a pd s
  | .adda c g d b a => Sys2Proof.Machine.execAdda c g d b a s
  | .b c g disp => Sys2Proof.Machine.execB c g disp s
  | .call c g disp => Sys2Proof.Machine.execCall c g disp s
  | .jmp c g a => Sys2Proof.Machine.execJmp c g a s
  | .callr c g a => Sys2Proof.Machine.execCallr c g a s
  | .ret c g => Sys2Proof.Machine.execRet c g s
  | .loop c g lvl cnt len => Sys2Proof.Machine.execLoop c g lvl cnt len s
  | .bcopy c g d a m => Sys2Proof.Machine.execBcopy c g d a m s
  | .bclr c g d m => Sys2Proof.Machine.execBclr c g d m s
  | .bcrc c g d a n poly => Sys2Proof.Machine.execBcrc c g d a n poly s
  | .crc c g d a poly sz => Sys2Proof.Machine.execCrc c g d a poly sz s
  | .test c g pd comb a rel b => Sys2Proof.Machine.execTest c g pd comb a rel b s
  | .interruptEntry e => Sys2Proof.Machine.execInterruptEntry e s
  | .svSmpClear src c => Sys2Proof.Machine.execSvSmpClear src c s
  | .ixmSwiRaise src c bits => Sys2Proof.Machine.execIxmSwiRaise src c bits s
  | .ixmCtrlStart src c => Sys2Proof.Machine.execIxmCtrlStart src c s
  | .ixmCtrlHalt src c => Sys2Proof.Machine.execIxmCtrlHalt src c s
  | .ixmCtrlReset src c => Sys2Proof.Machine.execIxmCtrlReset src c s
  | .coreResetDone c => Sys2Proof.Machine.execCoreResetDone c s
  | .load src img => Sys2Proof.Machine.execLoad src img s
  | .loadStart src img => Sys2Proof.Machine.execLoadStart src img s
  | .imageLoadDone body fails => Sys2Proof.Machine.execImageLoadDone body fails s
  | .sramScrub site uncorr => Sys2Proof.Machine.execSramScrub site uncorr s
  | .rcmdRead src early => Sys2Proof.Machine.execRcmdRead src early s
  | .rcmdWrite src early => Sys2Proof.Machine.execRcmdWrite src early s
  | .rcmdClear src early => Sys2Proof.Machine.execRcmdClear src early s
  | .checkpointSyncRead src => Sys2Proof.Machine.execCheckpointSyncRead src s
  | .checkpointSyncReturn => Sys2Proof.Machine.execCheckpointSyncReturn s
  | .dmaGo src e v => Sys2Proof.Machine.execDmaGo src e v s
  | .dmaAbort src e => Sys2Proof.Machine.execDmaAbort src e s
  | .dmaDone e data fin => Sys2Proof.Machine.execDmaDone e data fin s
  | .kerbDetection sense => Sys2Proof.Machine.execKerbDetection sense s
  | .kerbReport => Sys2Proof.Machine.execKerbReport s
  | .kerbInject src v => Sys2Proof.Machine.execKerbInject src v s
  | .kerbWindowExpire n => Sys2Proof.Machine.execKerbWindowExpire n s
  | .kerbResetAction => Sys2Proof.Machine.execKerbResetAction s
  | .responseEnd => Sys2Proof.Machine.execResponseEnd s
  | .kerbSrcClr src v => Sys2Proof.Machine.execKerbSrcClr src v s
  | .lockdownClr src => Sys2Proof.Machine.execLockdownClr src s
  | .sevClr src => Sys2Proof.Machine.execSevClr src s
  | .mainPowerFail => Sys2Proof.Machine.execMainPowerFail s
  | .backupAlarm n => Sys2Proof.Machine.execBackupAlarm n s
  | .brownout => Sys2Proof.Machine.execBrownout s
  | .koscStop => Sys2Proof.Machine.execKoscStop s
  | .meshPatternChange => Sys2Proof.Machine.execMeshPatternChange s
  | .kerbPowerUp => Sys2Proof.Machine.execKerbPowerUp s
  | .logEntryWrite fails => Sys2Proof.Machine.execLogEntryWrite fails s
  | .kerbBlogClr src => Sys2Proof.Machine.execKerbBlogClr src s
  | .kerbLogData0Read src => Sys2Proof.Machine.execKerbLogData0Read src s
  | .kerbBlogData0Read src => Sys2Proof.Machine.execKerbBlogData0Read src s
  | .kerbBtimeLoRead src => Sys2Proof.Machine.execKerbBtimeLoRead src s
  | .prepare src => Sys2Proof.Machine.execPrepare src s
  | .commit src peer fails => Sys2Proof.Machine.execCommit src peer fails s
  | .commitPeerTimeout => Sys2Proof.Machine.execCommitPeerTimeout s
  | .leave src => Sys2Proof.Machine.execLeave src s
  | .takeover src => Sys2Proof.Machine.execTakeover src s
  | .unpair src => Sys2Proof.Machine.execUnpair src s
  | .xingLinkUp peer => Sys2Proof.Machine.execXingLinkUp peer s
  | .joinDone img => Sys2Proof.Machine.execJoinDone img s
  | .frameReceive fr rx => Sys2Proof.Machine.execFrameReceive fr rx s
  | .mirrorConfirm n => Sys2Proof.Machine.execMirrorConfirm n s
  | .heartbeatSend => Sys2Proof.Machine.execHeartbeatSend s
  | .xingLinkLost => Sys2Proof.Machine.execXingLinkLost s
  | .partnerDecision stopped => Sys2Proof.Machine.execPartnerDecision stopped s
  | .failover => Sys2Proof.Machine.execFailover s
  | .rttMeasure n => Sys2Proof.Machine.execRttMeasure n s
  | .xingQroleWrite src v peerDisabled => Sys2Proof.Machine.execXingQroleWrite src v peerDisabled s
  | .found src => Sys2Proof.Machine.execFound src s
  | .enrol src fails => Sys2Proof.Machine.execEnrol src fails s
  | .make src => Sys2Proof.Machine.execMake src s
  | .accept src fails => Sys2Proof.Machine.execAccept src fails s
  | .retireWard src fails => Sys2Proof.Machine.execRetireWard src fails s
  | .dissolve src fails => Sys2Proof.Machine.execDissolve src fails s
  | .depotInit src => Sys2Proof.Machine.execDepotInit src s
  | .depotRead src => Sys2Proof.Machine.execDepotRead src s
  | .depotWrite src => Sys2Proof.Machine.execDepotWrite src s
  | .segWrite src => Sys2Proof.Machine.execSegWrite src s
  | .depotRaw src => Sys2Proof.Machine.execDepotRaw src s
  | .powerOff src => Sys2Proof.Machine.execPowerOff src s
  | .depotAbort src => Sys2Proof.Machine.execDepotAbort src s
  | .sdResponse r => Sys2Proof.Machine.execSdResponse r s
  | .sdDataBlock d => Sys2Proof.Machine.execSdDataBlock d s
  | .cardBusyEnd => Sys2Proof.Machine.execCardBusyEnd s
  | .busyTimeout => Sys2Proof.Machine.execBusyTimeout s
  | .retuneTimer => Sys2Proof.Machine.execRetuneTimer s
  | .cardLost => Sys2Proof.Machine.execCardLost s
  | .cardIn => Sys2Proof.Machine.execCardIn s
  | .activate src p => Sys2Proof.Machine.execActivate src p s
  | .exchange src p => Sys2Proof.Machine.execExchange src p s
  | .deactivate src p => Sys2Proof.Machine.execDeactivate src p s
  | .warmReset src p => Sys2Proof.Machine.execWarmReset src p s
  | .atrReceive p bytes => Sys2Proof.Machine.execAtrReceive p bytes s
  | .ppsResponse p bytes => Sys2Proof.Machine.execPpsResponse p bytes s
  | .t1BlockReceive p bytes good => Sys2Proof.Machine.execT1BlockReceive p bytes good s
  | .cardWaitTimeout p => Sys2Proof.Machine.execCardWaitTimeout p s
  | .classRetry p => Sys2Proof.Machine.execClassRetry p s
  | .pbRemove p => Sys2Proof.Machine.execPbRemove p s
  | .pbInsert p => Sys2Proof.Machine.execPbInsert p s
  | .kioskModeWrite src v => Sys2Proof.Machine.execKioskModeWrite src v s
  | .modeChangeApply => Sys2Proof.Machine.execModeChangeApply s
  | .pollA src extField => Sys2Proof.Machine.execPollA src extField s
  | .pollB src extField => Sys2Proof.Machine.execPollB src extField s
  | .transceive src extField => Sys2Proof.Machine.execTransceive src extField s
  | .readerHalt src extField => Sys2Proof.Machine.execReaderHalt src extField s
  | .readerFrameReceive f => Sys2Proof.Machine.execReaderFrameReceive f s
  | .fwtExpire => Sys2Proof.Machine.execFwtExpire s
  | .lpcdPing extField amp => Sys2Proof.Machine.execLpcdPing extField amp s
  | .lpcdCalibrate src => Sys2Proof.Machine.execLpcdCalibrate src s
  | .fieldOn strong => Sys2Proof.Machine.execFieldOn strong s
  | .fieldOff => Sys2Proof.Machine.execFieldOff s
  | .tagApdu apdu crcOk => Sys2Proof.Machine.execTagApdu apdu crcOk s
  | .wtxExpire => Sys2Proof.Machine.execWtxExpire s
  | .kick src => Sys2Proof.Machine.execKick src s
  | .plcCommit src len => Sys2Proof.Machine.execPlcCommit src len s
  | .plcCommitDone ok => Sys2Proof.Machine.execPlcCommitDone ok s
  | .mbxHold src on => Sys2Proof.Machine.execMbxHold src on s
  | .domainSwitchOff src n => Sys2Proof.Machine.execDomainSwitchOff src n s
  | .domainOffDone n => Sys2Proof.Machine.execDomainOffDone n s
  | .domainSwitchOn src n => Sys2Proof.Machine.execDomainSwitchOn src n s
  | .domainOnDone n => Sys2Proof.Machine.execDomainOnDone n s
  | .sysRstN => Sys2Proof.Machine.execSysRstN s
  | .hubReset src key => Sys2Proof.Machine.execHubReset src key s
  | .pllLoss => Sys2Proof.Machine.execPllLoss s
  | .pllLock ref0 ref1 => Sys2Proof.Machine.execPllLock ref0 ref1 s
  | .sramInitDone us => Sys2Proof.Machine.execSramInitDone us s
  | .autoload ended => Sys2Proof.Machine.execAutoload ended s
  | .bootCfgWrite src v fails => Sys2Proof.Machine.execBootCfgWrite src v fails s
  | .bootLbaWrite src v fails => Sys2Proof.Machine.execBootLbaWrite src v fails s
  | .fleetAdmit src fails => Sys2Proof.Machine.execFleetAdmit src fails s
  | .vfEnable p n => Sys2Proof.Machine.execVfEnable p n s
  | .linkWidthChange p tr => Sys2Proof.Machine.execLinkWidthChange p tr s
  | .aerErrorLogged p uncorr => Sys2Proof.Machine.execAerErrorLogged p uncorr s
  | .arcResultRelease n seen hit => Sys2Proof.Machine.execArcResultRelease n seen hit s
  | .hashDigestDone o => Sys2Proof.Machine.execHashDigestDone o s
  | .compositeStepEnd ctx e hit => Sys2Proof.Machine.execCompositeStepEnd ctx e hit s
  | .internalHeartbeatLoss => Sys2Proof.Machine.execInternalHeartbeatLoss s
  | .levelConditionEnd n => Sys2Proof.Machine.execLevelConditionEnd n s
  | .vbatApplied => Sys2Proof.Machine.execVbatApplied s
  | .t0CharacterReceive p ev => Sys2Proof.Machine.execT0CharacterReceive p ev s
  | .tagFrame f => Sys2Proof.Machine.execTagFrame f s
  | .muteEnd => Sys2Proof.Machine.execMuteEnd s
  | .sysRstNRise => Sys2Proof.Machine.execSysRstNRise s
  | .syncOutFall => Sys2Proof.Machine.execSyncOutFall s

end Sys2Proof.Machine
end

