-- ==== Sys2Proof/WellFormed.lean ====
section
/-! DEFINITION. Which commands are well formed: an Ixmet instruction whose encoding uses only defined values and leaves the reserved
bits 0 (R331, R332, R338 to R344, R348, R352, R354), and a register access of 1 to 8 bytes (R22). -/
namespace Sys2Proof

/-- A guard other than 0x7, 0x8 and 0xF (R332). -/
def guardDefined (g : IssueIn) : Bool := g.guard != 0x7 && g.guard != 0x8 && g.guard != 0xF
/-- A word of class SYS and FUNC 0 with its reserved bits 0 (R330, R334). -/
def udfDefined (w : BitVec 32) : Bool := (w &&& 0x0FFC3F00) == 0 && guardDefined { guard := (w >>> 28).setWidth 4 }
/-- A number that names a special register (R327, R368). -/
def srDefined (n : BitVec 8) : Bool := decide (n.toNat ≤ 0x10) || (decide (0x20 ≤ n.toNat) && decide (n.toNat ≤ 0x37))
/-- MASK bits 0 and 15 are 0 (R341). -/
def maskDefined (m : BitVec 16) : Bool := !m.getLsbD 0 && !m.getLsbD 15
/-- Three different registers, none of them G0 (R354). -/
def threeRegs (d a n : GReg) : Bool := d != 0 && a != 0 && n != 0 && d != a && d != n && a != n
/-- The size of a register access in bytes (R22). -/
def sizeDefined (n : Nat) : Bool := decide (1 ≤ n) && decide (n ≤ 8)

/-- The well-formed commands. -/
def Instr.wellFormed : Instr → Bool
  | .registerWrite _ _ wr _ => sizeDefined wr.size
  | .rcFieldRead _ _ rd => sizeDefined rd.size
  | .udf _ _ w => udfDefined w
  | .mfs _ g _ sr => guardDefined g && srDefined sr
  | .mts _ g sr _ => guardDefined g && srDefined sr
  | .par _ g _ _ f => guardDefined g && f.i && f.w != 3
  | .brev _ g _ _ f => guardDefined g && f.i && f.w != 3
  | .ldstLoad _ g _ _ sz x _ _ => guardDefined g && sz != 3 && !(sz == 2 && x)
  | .ldstStore _ g _ _ k _ => guardDefined g && k.sz != 3 && !k.x
  | .pushm _ g m => guardDefined g && maskDefined m
  | .popm _ g m => guardDefined g && maskDefined m
  | .loop _ g _ _ len => guardDefined g && len != 0
  | .bcopy _ g d a m => guardDefined g && m.poly == 0 && threeRegs d a m.n
  | .bclr _ g d m => guardDefined g && m.poly == 0 && m.a == 0 && d != 0 && m.n != 0 && d != m.n
  | .bcrc _ g d a n p => guardDefined g && p != 3 && threeRegs d a n
  | .crc _ g _ _ p sz => guardDefined g && p != 3 && sz != 3
  | .test _ g pd comb _ _ _ => guardDefined g && pd != 0 && comb != 3
  | .sysNop _ g => guardDefined g
  | .wfi _ g => guardDefined g
  | .mbar _ g => guardDefined g
  | .gate _ g _ => guardDefined g
  | .eret _ g => guardDefined g
  | .halt _ g => guardDefined g
  | .add _ g _ _ _ => guardDefined g
  | .addc _ g _ _ _ => guardDefined g
  | .addx _ g _ _ _ => guardDefined g
  | .sub _ g _ _ _ => guardDefined g
  | .subc _ g _ _ _ => guardDefined g
  | .subx _ g _ _ _ => guardDefined g
  | .and _ g _ _ _ => guardDefined g
  | .or _ g _ _ _ => guardDefined g
  | .xor _ g _ _ _ => guardDefined g
  | .andn _ g _ _ _ => guardDefined g
  | .copy _ g _ _ _ => guardDefined g
  | .inv _ g _ _ _ => guardDefined g
  | .min _ g _ _ _ => guardDefined g
  | .max _ g _ _ _ => guardDefined g
  | .minu _ g _ _ _ => guardDefined g
  | .maxu _ g _ _ _ => guardDefined g
  | .addi _ g _ _ _ => guardDefined g
  | .andi _ g _ _ _ => guardDefined g
  | .ori _ g _ _ _ => guardDefined g
  | .xori _ g _ _ _ => guardDefined g
  | .addci _ g _ _ _ => guardDefined g
  | .movi _ g _ _ _ => guardDefined g
  | .shl _ g _ _ _ => guardDefined g
  | .shr _ g _ _ _ => guardDefined g
  | .sar _ g _ _ _ => guardDefined g
  | .ror _ g _ _ _ => guardDefined g
  | .clz _ g _ _ => guardDefined g
  | .popc _ g _ _ => guardDefined g
  | .bpar _ g _ _ => guardDefined g
  | .brevb _ g _ _ => guardDefined g
  | .bswap _ g _ _ => guardDefined g
  | .mul _ g _ _ _ => guardDefined g
  | .mulhu _ g _ _ _ => guardDefined g
  | .mulhs _ g _ _ _ => guardDefined g
  | .divu _ g _ _ _ => guardDefined g
  | .divs _ g _ _ _ => guardDefined g
  | .remu _ g _ _ _ => guardDefined g
  | .rems _ g _ _ _ => guardDefined g
  | .adj _ g _ => guardDefined g
  | .swap _ g _ _ _ => guardDefined g
  | .cas _ g _ _ _ _ => guardDefined g
  | .adda _ g _ _ _ => guardDefined g
  | .b _ g _ => guardDefined g
  | .call _ g _ => guardDefined g
  | .jmp _ g _ => guardDefined g
  | .callr _ g _ => guardDefined g
  | .ret _ g => guardDefined g
  | .cntClear _ _ => true
  | .intForce _ _ _ => true
  | .pageLock _ _ => true
  | .faultWindowExpire _ => true
  | .parityScrub _ => true
  | .sqTailDb _ _ _ => true
  | .cqHeadDb _ _ _ => true
  | .admitOne _ => true
  | .descriptorArrive _ _ _ => true
  | .coalTimeExpire _ => true
  | .msixTableWrite _ _ _ => true
  | .qcmdRead _ _ => true
  | .qcmdWrite _ _ => true
  | .enable _ _ => true
  | .disable _ _ => true
  | .disableAbort _ _ => true
  | .clearReplay _ _ => true
  | .winSync _ => true
  | .winSyncDone => true
  | .domResvWrite _ _ => true
  | .domCapWrite _ _ => true
  | .flr _ => true
  | .flrDone _ => true
  | .vfDisable _ _ => true
  | .linkDown _ => true
  | .linkUp _ _ => true
  | .retrain _ _ _ _ => true
  | .poisonedTlp _ _ _ _ _ => true
  | .perst _ => true
  | .sourceDataArrive _ _ _ => true
  | .roundaboutAccept _ _ => true
  | .convoyRelease => true
  | .dispatch _ _ _ => true
  | .reservationConfirm _ _ => true
  | .nop _ => true
  | .encrypt _ => true
  | .decrypt _ => true
  | .macGenerate _ => true
  | .macVerify _ => true
  | .wrap _ => true
  | .unwrap _ => true
  | .hash _ => true
  | .hmacGenerate _ => true
  | .hmacVerify _ => true
  | .laneBeat _ _ => true
  | .laneKatDone _ _ => true
  | .blvdKatDone _ _ => true
  | .hashKatDone _ _ => true
  | .unitStop _ => true
  | .laneRetest _ _ _ => true
  | .laneForceOff _ _ _ => true
  | .blvdRetest _ _ => true
  | .blvdForceOff _ _ => true
  | .hashRetest _ _ => true
  | .laneBlocksLoRead _ _ => true
  | .blvdBytesLoRead _ _ => true
  | .hashBytesLoRead _ => true
  | .rbtNextLaunchLoRead _ => true
  | .keyGenerate _ => true
  | .keyDerive _ => true
  | .keyImport _ => true
  | .keyExport _ => true
  | .keyErase _ => true
  | .keyQuery _ _ => true
  | .cascadeRevoke => true
  | .zeroisingEnd => true
  | .assign _ _ => true
  | .unassign _ => true
  | .eraseAssign _ _ => true
  | .eraseUnassign _ => true
  | .assignDone => true
  | .mewsSlotAttr0Read _ _ => true
  | .transition _ _ => true
  | .custInstall _ => true
  | .lcCmdEnd => true
  | .pinTranslate _ => true
  | .dukptPinTranslate _ => true
  | .dukptMacVerify _ => true
  | .dukptOriginate _ => true
  | .dukptReservationConfirm _ _ => true
  | .emvArqcVerify _ => true
  | .emvArpcGenerate _ => true
  | .ff1Encrypt _ => true
  | .ff1Decrypt _ => true
  | .milenageVector _ => true
  | .milenageResync _ => true
  | .tuakVector _ => true
  | .tuakResync _ => true
  | .aka5gDerive _ => true
  | .pkSign _ => true
  | .pkVerify _ => true
  | .pkEncrypt _ => true
  | .pkDecrypt _ => true
  | .pkKeypair _ => true
  | .pkAgree _ => true
  | .kemEncap _ => true
  | .kemDecap _ => true
  | .modAdd _ => true
  | .modSub _ => true
  | .modMul _ => true
  | .modInv _ => true
  | .modExp _ => true
  | .ptAdd _ => true
  | .ptDbl _ => true
  | .ptMul _ => true
  | .ptMulG _ => true
  | .ptCheck _ => true
  | .curveLoad _ => true
  | .curveFree _ => true
  | .ntt _ => true
  | .intt _ => true
  | .pmul _ => true
  | .padd _ => true
  | .psub _ => true
  | .arcZeroiseDone _ => true
  | .arcKatDone _ _ => true
  | .arcRetest _ _ => true
  | .arcForceOff _ _ _ => true
  | .arcCurveFree _ => true
  | .rngRead _ => true
  | .noiseSample _ => true
  | .fountainSettleEnd => true
  | .startupTimeout => true
  | .drbgGenerate _ => true
  | .fntKat _ => true
  | .fntKatDone _ => true
  | .fntSwDataRead _ => true
  | .fntRawDataRead _ => true
  | .epochBoundary => true
  | .slewStep => true
  | .syncMarker _ => true
  | .holdoverTimeout => true
  | .ctCfgWrite _ _ => true
  | .loadNow _ => true
  | .loadAtSync _ => true
  | .cancelLoad _ => true
  | .ctTickLoRead _ => true
  | .tickCompareMatch _ => true
  | .interruptEntry _ => true
  | .svSmpClear _ _ => true
  | .ixmSwiRaise _ _ _ => true
  | .ixmCtrlStart _ _ => true
  | .ixmCtrlHalt _ _ => true
  | .ixmCtrlReset _ _ => true
  | .coreResetDone _ => true
  | .load _ _ => true
  | .loadStart _ _ => true
  | .imageLoadDone _ _ => true
  | .sramScrub _ _ => true
  | .rcmdRead _ _ => true
  | .rcmdWrite _ _ => true
  | .rcmdClear _ _ => true
  | .checkpointSyncRead _ => true
  | .checkpointSyncReturn => true
  | .dmaGo _ _ _ => true
  | .dmaAbort _ _ => true
  | .dmaDone _ _ _ => true
  | .kerbDetection _ => true
  | .kerbReport => true
  | .kerbInject _ _ => true
  | .kerbWindowExpire _ => true
  | .kerbResetAction => true
  | .responseEnd => true
  | .kerbSrcClr _ _ => true
  | .lockdownClr _ => true
  | .sevClr _ => true
  | .mainPowerFail => true
  | .backupAlarm _ => true
  | .brownout => true
  | .koscStop => true
  | .meshPatternChange => true
  | .kerbPowerUp => true
  | .logEntryWrite _ => true
  | .kerbBlogClr _ => true
  | .kerbLogData0Read _ => true
  | .kerbBlogData0Read _ => true
  | .kerbBtimeLoRead _ => true
  | .prepare _ => true
  | .commit _ _ _ => true
  | .commitPeerTimeout => true
  | .leave _ => true
  | .takeover _ => true
  | .unpair _ => true
  | .xingLinkUp _ => true
  | .joinDone _ => true
  | .frameReceive _ _ => true
  | .mirrorConfirm _ => true
  | .heartbeatSend => true
  | .xingLinkLost => true
  | .partnerDecision _ => true
  | .failover => true
  | .rttMeasure _ => true
  | .xingQroleWrite _ _ _ => true
  | .found _ => true
  | .enrol _ _ => true
  | .make _ => true
  | .accept _ _ => true
  | .retireWard _ _ => true
  | .dissolve _ _ => true
  | .depotInit _ => true
  | .depotRead _ => true
  | .depotWrite _ => true
  | .segWrite _ => true
  | .depotRaw _ => true
  | .powerOff _ => true
  | .depotAbort _ => true
  | .sdResponse _ => true
  | .sdDataBlock _ => true
  | .cardBusyEnd => true
  | .busyTimeout => true
  | .retuneTimer => true
  | .cardLost => true
  | .cardIn => true
  | .activate _ _ => true
  | .exchange _ _ => true
  | .deactivate _ _ => true
  | .warmReset _ _ => true
  | .atrReceive _ _ => true
  | .ppsResponse _ _ => true
  | .t1BlockReceive _ _ _ => true
  | .cardWaitTimeout _ => true
  | .classRetry _ => true
  | .pbRemove _ => true
  | .pbInsert _ => true
  | .kioskModeWrite _ _ => true
  | .modeChangeApply => true
  | .pollA _ _ => true
  | .pollB _ _ => true
  | .transceive _ _ => true
  | .readerHalt _ _ => true
  | .readerFrameReceive _ => true
  | .fwtExpire => true
  | .lpcdPing _ _ => true
  | .lpcdCalibrate _ => true
  | .fieldOn _ => true
  | .fieldOff => true
  | .tagApdu _ _ => true
  | .wtxExpire => true
  | .kick _ => true
  | .plcCommit _ _ => true
  | .plcCommitDone _ => true
  | .mbxHold _ _ => true
  | .domainSwitchOff _ _ => true
  | .domainOffDone _ => true
  | .domainSwitchOn _ _ => true
  | .domainOnDone _ => true
  | .sysRstN => true
  | .hubReset _ _ => true
  | .pllLoss => true
  | .pllLock _ _ => true
  | .sramInitDone _ => true
  | .autoload _ => true
  | .bootCfgWrite _ _ _ => true
  | .bootLbaWrite _ _ _ => true
  | .fleetAdmit _ _ => true
  | .vfEnable _ _ => true
  | .linkWidthChange _ _ => true
  | .aerErrorLogged _ _ => true
  | .arcResultRelease _ _ _ => true
  | .hashDigestDone _ => true
  | .compositeStepEnd _ _ _ => true
  | .internalHeartbeatLoss => true
  | .levelConditionEnd _ => true
  | .vbatApplied => true
  | .t0CharacterReceive _ _ => true
  | .tagFrame _ => true
  | .muteEnd => true
  | .sysRstNRise => true
  | .syncOutFall => true

end Sys2Proof
end

