-- ==== Sys2Proof/Safety.lean ====
section
/-! DEFINITION. The terms the statements are written in: that a command answers a next state, that a register access reaches its
register, that an instruction issues, and the invariants. -/
namespace Sys2Proof.Machine
open Sys2Proof

/-- A command answers a next state of which P holds. -/
def Answers (i : Instr) (s : State) (P : State → Prop) : Prop := ∃ t, exec i s = .next t ∧ P t

/-- An access by src reaches the register at a BAR0 offset (R25, R412, R526). -/
abbrev Reaches (s : State) (src : Src) (key : Nat) : Prop := pageReaches s src (key / 0x1000) (key % 0x1000) = true

/-- An access through BAR0 or the internal map, which is to the register pages (R21). -/
abbrev AtPages : Src → Prop
  | .port _ => True
  | .core _ => True
  | _ => False

/-- Of the registers of the register pages, only those named may differ: by BAR0 offset, by offset within any page, or by page. -/
def OtherRegs (s t : State) (keys offs pages : List Nat) : Prop :=
  ∀ k, k < 0x50000 → k ∉ keys → k % 0x1000 ∉ offs → k / 0x1000 ∉ pages → reg t k = reg s k

/-- No register-page access waits for the slot of core c to retire (R347). -/
abbrev NoLate (s : State) (c : Nat) : Prop := ((coreAt s c).slot.all fun w => w.late.isEmpty) = true

/-- An instruction of core c issues in state s with its guard true: the core runs, no interrupt may be taken, no load stalls, and the
fetch at its pc raises nothing and finds no error it cannot correct (R321, R324, R333, R374). It may be the slot of a transfer that
holds no register-page access. -/
abbrev Issues (s : State) (c : Nat) (g : IssueIn) : Prop :=
  (coreAt s c).state = 2 ∧ (coreAt s c).busy = false ∧ takeable s c = none
    ∧ fetchFault s c (userMode (cregs s c)) (cregs s c).pc .none = none ∧ (g.fetch = .none ∨ g.fetch = .corrected) ∧ guardUndefined g.guard = false
    ∧ guardTrue (cregs s c) g.guard = true ∧ NoLate s c

/-- Such an instruction stands where its kind is allowed: not in a slot nor at a loop end where that is forbidden (R346, R351). -/
abbrev Placed (s : State) (c : Nat) (k : Kind) : Prop := misplaced (coreAt s c) k = false

/-- The registers when an instruction has completed: its loop ends decided, then the slot's transfer made (R345, R349, R350). -/
def after (w : Option SlotWait) (r : CoreRegs) : CoreRegs :=
  let d := loopEnds r r.pc (r.pc + 4)
  { d.1 with pc := (w.bind (·.target)).getD d.2.1 }

/-- What an instruction of core c may touch beside memory: the core itself, the registers of its page (Survey counts and its
interrupts) and those `more` names, messages, free values; every other register, the other cores and the rest of the device are as before. -/
def CoreOnly (s t : State) (c : Nat) (more : Nat → Bool) : Prop :=
  t = { s with
    out := t.out, free := t.free, regs := t.regs, parBad := t.parBad, cores := t.cores, mem := t.mem
    quay := { s.quay with msix := t.quay.msix }, chk := { s.chk with eccBad := t.chk.eccBad } }
  ∧ (∀ n, n ≠ c → coreAt t n = coreAt s n)
  ∧ ∀ k, k / 0x1000 ≠ corePage c → more k = false → reg t k = reg s k

/-- The same where the instruction's page or the Checkpoint counts a fault: fault windows and the reports for the Kerb too. -/
def FaultOnly (s t : State) (c : Nat) (more : Nat → Bool) : Prop :=
  t = { s with
    out := t.out, free := t.free, regs := t.regs, parBad := t.parBad, cores := t.cores, mem := t.mem, wins := t.wins
    kerb := { s.kerb with reports := t.kerb.reports }
    quay := { s.quay with msix := t.quay.msix }, chk := { s.chk with eccBad := t.chk.eccBad } }
  ∧ (∀ n, n ≠ c → coreAt t n = coreAt s n)
  ∧ ∀ k, k / 0x1000 ≠ corePage c → more k = false → reg t k = reg s k

/-- No further register. -/
def noReg : Nat → Bool := fun _ => false
/-- The counts of corrected errors of RAM (R414). -/
def eccCount (k : Nat) : Bool := k == Reg.CHECKPOINT_SRAM_ECC || k % 0x1000 == Reg.IXM_LRAM_ECC
/-- The Checkpoint page. -/
def checkpointPage (k : Nat) : Bool := k / 0x1000 == 0x40

/-- The counts that a corrected error of the instruction's fetch advances (R324); none where it finds no error. -/
def fetchReg (g : IssueIn) : Nat → Bool := if g.fetch = .corrected then eccCount else noReg
/-- The same where the fetch of the handler it enters may meet a corrected error too. -/
def entryReg (g : IssueIn) : Nat → Bool := if .corrected ∈ [g.fetch, g.entry.fetch] then eccCount else noReg
/-- The same where its data reads, or the fetch of the handler it enters, may meet corrected errors too. -/
def issueReg (g : IssueIn) : Nat → Bool := if .corrected ∈ g.fetch :: g.entry.fetch :: g.data then eccCount else noReg

/-- The instruction of core c has completed with its whole effect on its registers: they are those of f, its loop ends and its slot
decided; memory is as before, and so is all else but what CoreOnly names. -/
def Retires (s t : State) (c : Nat) (g : IssueIn) (f : CoreRegs → CoreRegs) : Prop :=
  cregs t c = after (coreAt s c).slot (f (cregs s c)) ∧ (coreAt t c).slot = none ∧ t.mem = s.mem ∧ CoreOnly s t c (fetchReg g)

/-- The word of memory core c sees at an address. -/
def wordAt (s : State) (c : Nat) (a : Word) : Word := BitVec.ofNat 32 (le (memBytes s (physAddr c a.toNat) 4))

/-- Memory is as before but for the n bytes core c sees at address a. -/
def OnlyBytes (s t : State) (c a n : Nat) : Prop :=
  ∀ x, (x < physAddr c a ∨ physAddr c a + n ≤ x) → memByte t x = memByte s x

/-- Core c may read or write n bytes of undamaged RAM at an address in a mode. -/
abbrev MayUse (s : State) (c : Nat) (user : Bool) (need : Need) (a n : Nat) : Prop :=
  permits s (coreAcs s c user a n need) = true ∧ eccRegion (regionOf c a n) = true ∧ damagedAt s (physAddr c a) n = none

/-- Core c may store n bytes to RAM at an address in a mode; a damaged word is written anew. -/
abbrev MayStore (s : State) (c : Nat) (user : Bool) (a n : Nat) : Prop :=
  permits s (coreAcs s c user a n .write) = true ∧ eccRegion (regionOf c a n) = true

/-- The n-th data read of an instruction meets no error it cannot correct. -/
abbrev Readable (g : IssueIn) (n : Nat) : Prop := readFlt g n = .none ∨ readFlt g n = .corrected

/-- An entry of core c to a target can be made: DFL is 0, both system stacks have room and are aligned, every word of them is RAM the
Checkpoint lets the core write and arrives there as it left, and the target can be fetched (R37, R377, R378). -/
abbrev CanEnter (s : State) (c : Nat) (target : Word) (m : EntryMet) : Prop :=
  wbit (cregs s c).psw 6 = false ∧ entryBounds (cregs s c).sys = none
    ∧ (cregs s c).sys.sp.toNat % 4 = 0 ∧ (cregs s c).sys.rsp.toNat % 4 = 0
    ∧ (∀ i ∈ List.range 10, MayStore s c false ((cregs s c).sys.sp - 40 + BitVec.ofNat 32 (4 * i)).toNat 4)
    ∧ MayStore s c false ((cregs s c).sys.rsp - 4).toNat 4 ∧ m.hit = none ∧ fetchFault s c false target m.fetch = none

/-- Word i of the ten that an entry from registers r stores (R378). -/
def frameAt (r : CoreRegs) (i : Nat) : Word := r.sys.sp - 40 + BitVec.ofNat 32 (4 * i)

/-- Core c has taken an entry from registers r: its registers are the entry's, the word at the new RSP is the saved pc, the frame's
words are stored (a word of it that is the return stack's has the saved pc), and no other byte of memory changes (R378). -/
def Entered (s t : State) (c : Nat) (r : CoreRegs) (cause addr : Nat) (saved target : Word) (ipl : Option Nat) : Prop :=
  cregs t c = entryRegs r cause addr saved target ipl ∧ (coreAt t c).slot = none ∧ wordAt t c (r.sys.rsp - 4) = saved
    ∧ (∀ i, i < 10 → physAddr c (frameAt r i).toNat ≠ physAddr c (r.sys.rsp - 4).toNat →
        wordAt t c (frameAt r i) = (frameWords r saved cause addr).getD i 0)
    ∧ ∀ x, (∀ i, i < 10 → x < physAddr c (frameAt r i).toNat ∨ physAddr c (frameAt r i).toNat + 4 ≤ x) →
        (x < physAddr c (r.sys.rsp - 4).toNat ∨ physAddr c (r.sys.rsp - 4).toNat + 4 ≤ x) → memByte t x = memByte s x

/-- The completion of a command of context x can be written to its queue's CQ: it does not end silently, its queue is not mirrored to a
partner, its port's link is up, and a window covers the next CQ entry (R53, R60, R78, R453, R547). -/
abbrev Deliverable (s : State) (x : Ctx) : Prop :=
  x.silent = false ∧ linkUp s (fnPort (qFunc (queueAt s x.q))) = true ∧ (paired s = false ∨ (queueAt s x.q).role ≠ 1) ∧
    covered (queueAt s x.q) true (qCqBase (queueAt s x.q) + 32 * (queueAt s x.q).cqTail) 32 = true

/-- The command of context x, in context c of s, has ended in t as f says: its context is released and its completion written to the
next CQ entry of its queue (R53, R104, R105). -/
abbrev Completed (s t : State) (c : Nat) (x : Ctx) (f : CmdEnd) : Prop :=
  ctxAt t c = none ∧
    Out.hostWrite (qFunc (queueAt s x.q)) (qCqBase (queueAt s x.q) + 32 * (queueAt s x.q).cqTail)
      (cplBytes (finBody f) f.status f.detail x.d.tag (queueAt s x.q).phase) false ∈ t.out

/-- No command but the one in context c names a key. -/
abbrev OnlyKeyUser (s : State) (c : Nat) : Prop := ∀ e ∈ s.quay.ctxs, e.1 ≠ c → e.2.keys = []

/-- An internal operation holds unit n, and its draw b has arrived (R276, R294). -/
abbrev UnitReady (s : State) (who n : Nat) (b : Bytes) : Prop :=
  ((List.range 8).find? fun n => (aunit s n).internal == some who) = some n ∧ drawn s who = some b

/-- An internal operation that begins finds its unit n idle and has no draw on the wires; finds it busy; finds none (R276, R294). -/
abbrev UnitFree (s : State) (who n : Nat) : Prop :=
  ((List.range 8).find? fun n => (aunit s n).internal == some who) = none ∧ arcPick s = some n ∧ arcIdle s n = true
    ∧ drawn s who = none ∧ (s.fnt.draws.any fun e => e.2 == who) = false
abbrev UnitBusy (s : State) (who n : Nat) : Prop :=
  ((List.range 8).find? fun n => (aunit s n).internal == some who) = none ∧ arcPick s = some n ∧ arcIdle s n = false
abbrev UnitNone (s : State) (who : Nat) : Prop :=
  ((List.range 8).find? fun n => (aunit s n).internal == some who) = none ∧ arcPick s = none

/-- No operation that waits for an Arcade unit, a Fountain draw or the end of a zeroisation can go on in s (R196, R276, R294). -/
abbrev NothingResumes (s : State) : Prop := resumeAll s = s

/-- The image loader neither reads the card nor is to follow on an INIT. -/
abbrev NoCardLoad (s : State) : Prop := s.autoload = none ∧ (s.load.all fun o => o.src != 1) = true

/-- The memory is in its canonical form: addresses strictly rising, no byte listed that an unlisted address reads as. -/
def MemInv (s : State) : Prop := Memory.wf s.mem = true

end Sys2Proof.Machine
end

