-- ==== Sys2Proof/Certificates/Slice0/Obligations.lean ====
section
/-! DEFINITION. The statements for the provers: what each command does, family by family, and what every step keeps. -/
open Sys2Proof Sys2Proof.Machine

/-- Where a register access reaches a page, CNT_CLEAR answers with FAULT_CNT 0 and LASTING 0; INT_FORCE sets the INT_STAT bits written, as if their events had occurred; PAGE_LOCK sets LOCK; a running fault window that expires sets FAULT_CNT to 0 and no longer runs. Each clause names what may change beside; every other part of the state and every other register is as before. Forms whose completion it states: cntClear, intForce, pageLock, faultWindowExpire. (R30, R33, R34) -/
def Obligations.PageHeaderCommands : Prop :=
  (∀ (s : State) (src : Src) (page : PageNo), Reaches s src (rk page.val Reg.PAGE_CTRL) → 
    Answers (.cntClear src page) s fun t => fld t (rk page.val Reg.FAULT_CNT) 15 0 = 0 ∧ rbit t (rk page.val Reg.PAGE_STAT) 31 = false ∧ t.wins.contains page.val = false ∧ t = { s with out := t.out, regs := t.regs, parBad := t.parBad, wins := t.wins, quay := { s.quay with queues := t.quay.queues, doms := t.quay.doms, domRR := t.quay.domRR, ctxs := t.quay.ctxs, msix := t.quay.msix }, units := { s.units with cipher := t.units.cipher, hash := t.units.hash, arc := t.units.arc }, kerb := { s.kerb with reports := t.kerb.reports }, fnt := { s.fnt with begun := t.fnt.begun, state := t.fnt.state, tries := t.fnt.tries, settled := t.fnt.settled, katOk := t.fnt.katOk, xorEn := t.fnt.xorEn, vnEn := t.fnt.vnEn, hClaim := t.fnt.hClaim, streams := t.fnt.streams, passed := t.fnt.passed, noCredit := t.fnt.noCredit, absorbed := t.fnt.absorbed, credit := t.fnt.credit, seed := t.fnt.seed, swTurn := t.fnt.swTurn, int := t.fnt.int, sw := t.fnt.sw, katBusy := t.fnt.katBusy, draws := t.fnt.draws, part := t.fnt.part, got := t.fnt.got, rng := t.fnt.rng, rngDone := t.fnt.rngDone, rngDead := t.fnt.rngDead, intRun := t.fnt.intRun }, xing := { s.xing with mirror := t.xing.mirror, sess := t.xing.sess } } ∧ OtherRegs s t [Reg.QUAY_RPL_HITS, Reg.RBT_LATE, Reg.COMP_AUTH_FAIL, Reg.COMP_DONE] [Reg.PAGE_STAT, Reg.INT_STAT, Reg.ERR_SYND, Reg.ERR_ADDR, Reg.FAULT_CNT, Reg.QUAY_LINK_STAT] []) ∧
  (∀ (s : State) (src : Src) (page : PageNo) (v : BitVec 32), Reaches s src (rk page.val Reg.INT_FORCE) → 
    Answers (.intForce src page v) s fun t => reg t (rk page.val Reg.INT_STAT) = reg s (rk page.val Reg.INT_STAT) ||| v ∧ t = { s with out := t.out, regs := t.regs, parBad := t.parBad, quay := { s.quay with msix := t.quay.msix } } ∧ OtherRegs s t [] [Reg.INT_STAT, Reg.ERR_SYND, Reg.ERR_ADDR] []) ∧
  (∀ (s : State) (src : Src) (page : PageNo), Reaches s src (rk page.val Reg.PAGE_LOCK) → 
    Answers (.pageLock src page) s fun t => rbit t (rk page.val Reg.PAGE_LOCK) 0 = true ∧ t = { s with out := t.out, regs := t.regs, parBad := t.parBad, quay := { s.quay with msix := t.quay.msix }, units := { s.units with devLock := t.units.devLock } } ∧ OtherRegs s t [] [Reg.INT_STAT, Reg.ERR_SYND, Reg.ERR_ADDR, Reg.PAGE_LOCK] []) ∧
  (∀ (s : State) (page : PageNo), s.wins.contains page.val = true → pageOn s page.val = true → 
    Answers (.faultWindowExpire page) s fun t => fld t (rk page.val Reg.FAULT_CNT) 15 0 = 0 ∧ t.wins.contains page.val = false ∧ t = { s with regs := t.regs, parBad := t.parBad, wins := t.wins } ∧ OtherRegs s t [] [Reg.FAULT_CNT] [])

/-- An access by a port or a core that reaches its page acts so. A 4-byte write of a register that is only stored (its write starts no command) leaves the value its fields' access types give, ERR_SYND and PAR_STAT as their VALID bits clear them; a write of 8 bytes is the write of the low word at the lower address, then of the high word. A write of fewer than 4 bytes within a word leaves every register but those that record it, and sets CODE 0x01 with the offset where VALID was 0. A read of 1 to 4 bytes within a register that shows its value returns those bytes and clears its RC fields among them, whatever its parity; where its parity is bad, that is recorded first. A write whose Seal check fails at its register is discarded, counted as a fault of the page and reported to the Kerb. A write that does not reach its page leaves the device as dropped says: a port that the page filter denies is recorded, and nothing else happens. A 4-byte write of BAR2 or BAR4 at a doorbell, or at a field of the MSI-X table, is the doorbell or the table write itself, and a read of BAR2 by the owner, or of BAR4, returns the word there. A scrub that finds one register bad leaves its value, sets PAR_STAT.VALID with the register number where it was 0, and counts it once. Each clause names what may change beside; every other part of the state and every other register is as before. Forms whose completion it states: registerWrite, rcFieldRead, parityScrub. (R9, R10, R11, R22, R25, R30, R32, R38, R39, R40, R45, R48) -/
def Obligations.RegisterAccesses : Prop :=
  (∀ (s : State) (src : Src) (key : Nat) (v : BitVec 64), Reaches s src key → key % 4 = 0 → key % 0x1000 ≠ Reg.PAGE_CTRL → key % 0x1000 ≠ Reg.INT_FORCE → key % 0x1000 ≠ Reg.PAGE_LOCK → (writeLow s src key (v.truncate 32) <|> writeMid s src key (v.truncate 32) <|> writeHigh s src key (v.truncate 32)) = none → (fieldsAt (key / 0x1000) (key % 0x1000)).isEmpty = false → 
    Answers (.registerWrite src key { size := 4 } v) s fun t => reg t key = headerClears (key % 0x1000) (v.truncate 32) (wordAfter (fieldsAt (key / 0x1000) (key % 0x1000)) (pageLocked s (key / 0x1000) (key % 0x1000)) (reg s key) (v.truncate 32)) ∧ t = { s with out := t.out, regs := t.regs, parBad := t.parBad, quay := { s.quay with msix := t.quay.msix } } ∧ OtherRegs s t [key] [Reg.INT_STAT, Reg.ERR_SYND, Reg.ERR_ADDR] []) ∧
  (∀ (s : State) (src : Src) (key : Nat) (v : BitVec 64), AtPages src → key % 4 = 0 → key + 8 ≤ 0x100000 → 
    Answers (.registerWrite src key { size := 8 } v) s fun t => t = writeReg (writeReg s src key (v.truncate 32)) src (key + 4) ((v >>> 32).truncate 32)) ∧
  (∀ (s : State) (src : Src) (a n : Nat) (v : BitVec 64), Reaches s src a → a < 0x50000 → 0 < n → n < 4 → a % 4 + n ≤ 4 → pageOn s (a / 0x1000) = true → rbit s (rk (a / 0x1000) Reg.ERR_SYND) 23 = false → 
    Answers (.registerWrite src a { size := n } v) s fun t => fld t (rk (a / 0x1000) Reg.ERR_SYND) 31 24 = 0x01 ∧ fld t (rk (a / 0x1000) Reg.ERR_SYND) 21 16 = masterOf src % 64 ∧ rbit t (rk (a / 0x1000) Reg.ERR_SYND) 23 = true ∧ reg t (rk (a / 0x1000) Reg.ERR_ADDR) = BitVec.ofNat 32 (a % 0x1000) ∧ t = { s with out := t.out, regs := t.regs, parBad := t.parBad, quay := { s.quay with msix := t.quay.msix } } ∧ OtherRegs s t [] [Reg.INT_STAT, Reg.ERR_SYND, Reg.ERR_ADDR] []) ∧
  (∀ (s : State) (src : Src) (key : Nat) (v : BitVec 64) (h : Hit), Reaches s src key → key % 4 = 0 → key < 0x50000 → AtPages src → h.beat = 0 → (sealPass (accessPage src) (key / 0x1000) none 0 (toLe 4 (BitVec.ofNat 32 v.toNat).toNat) (some h)).2 = false → 
    Answers (.registerWrite src key { size := 4, hit := some h } v) s fun t => t = sealFault s (key / 0x1000)) ∧
  (∀ (s : State) (src : Src) (key n : Nat) (v : BitVec 64), AtPages src → 0 < n → n ≤ 4 → key % 4 + n ≤ 4 → key < 0x100000 → pageReaches s src (key / 0x1000) (key % 0x1000) = false → 
    Answers (.registerWrite src key { size := n } v) s fun t => t = dropped s src (key / 0x1000) (key % 0x1000)) ∧
  (∀ (s : State) (fn : FnNo) (q : QueueNo) (v : BitVec 64), bar2Open s fn.val = true → qFunc (queueAt s q.val) = fn.val → 
    Answers (.registerWrite (.bar2 fn) (0x40 * q.val) { size := 4 } v) s fun t => t = sqTailDb s fn.val q.val (v.truncate 32) ∧ t.mem = s.mem) ∧
  (∀ (s : State) (fn : FnNo) (e : Fin 2048) (v : BitVec 64), 
    Answers (.registerWrite (.bar4 fn) (16 * e.val + 8) { size := 4 } v) s fun t => t = msixWrite s fn.val (.data e) (v.truncate 32) ∧ t.mem = s.mem) ∧
  (∀ (s : State) (src : Src) (key b n : Nat) (par : Bool), Reaches s src key → key % 4 = 0 → 0 < n → b + n ≤ 4 → answers s src = true → readEffect (parityMet s src key par) src key = none → freeWidth key = none → 
    Answers (.rcFieldRead src (key + b) ⟨n, par, none⟩) s fun t => t = emit (rcClear (parityMet s src key par) key b n) (.readData src (sl (toLe 4 (view (parityMet s src key par) key)) b n))) ∧
  (∀ (s : State) (c : CoreNo), domOn s 0 = true → 
    Answers (.rcFieldRead (.core c) Reg.CHECKPOINT_REFUSED ⟨4, false, none⟩) s fun t => t.out = .readData (.core c) (toLe 4 (reg s Reg.CHECKPOINT_REFUSED).toNat) :: s.out ∧ reg t Reg.CHECKPOINT_REFUSED = 0 ∧ t = { s with out := t.out, regs := t.regs, parBad := t.parBad } ∧ OtherRegs s t [Reg.CHECKPOINT_REFUSED] [] []) ∧
  (∀ (s : State) (fn : FnNo) (q : QueueNo) (off : Nat) (par : Bool), off < 0x40 → off % 4 = 0 → bar2Open s fn.val = true → qFunc (queueAt s q.val) = fn.val → 
    Answers (.rcFieldRead (.bar2 fn) (0x40 * q.val + off) ⟨4, par, none⟩) s fun t => t = emit s (.readData (.bar2 fn) (toLe 4 (bar2Word s q.val off)))) ∧
  (∀ (s : State) (fn : FnNo) (a : Nat) (par : Bool), a < 0x10000 → a % 4 = 0 → linkUp s (fnPort fn.val) = true → 
    Answers (.rcFieldRead (.bar4 fn) a ⟨4, par, none⟩) s fun t => t = emit s (.readData (.bar4 fn) (toLe 4 (readBar4 s fn.val a)))) ∧
  (∀ (s : State) (key : Nat), regThere s key = true → tfind s.parBad key ≠ some (view s key) → key % 0x1000 ≥ 0x40 → key < 0x50000 → rbit s (rk (key / 0x1000) Reg.PAR_STAT) 31 = false → 
    Answers (.parityScrub [key]) s fun t => reg t key = reg s key ∧ tfind t.parBad key = some (view s key) ∧ rbit t (rk (key / 0x1000) Reg.PAR_STAT) 31 = true ∧ fld t (rk (key / 0x1000) Reg.PAR_STAT) 9 0 = key % 0x1000 / 4 ∧ t = { s with out := t.out, regs := t.regs, parBad := t.parBad, wins := t.wins, quay := { s.quay with msix := t.quay.msix }, kerb := { s.kerb with reports := t.kerb.reports }, fnt := { s.fnt with state := t.fnt.state, absorbed := t.fnt.absorbed, credit := t.fnt.credit, seed := t.fnt.seed, int := t.fnt.int, sw := t.fnt.sw, katBusy := t.fnt.katBusy, part := t.fnt.part, rngDead := t.fnt.rngDead } } ∧ OtherRegs s t [] [Reg.PAGE_STAT, Reg.INT_STAT, Reg.PAR_STAT, Reg.FAULT_CNT] []) ∧
  (∀ (s : State) (l : List Nat), ∀ key ∈ l, tfind s.parBad key = some (view s key) → 
    Answers (.parityScrub l) s fun t => t = s)

/-- A doorbell written by the owning function of an ENABLED queue with a value in range sets the SQ tail, or the CQ head, to the value; out of range, or past the entries written, it changes no index and sets DB_ERR. Written while the queue is not ENABLED, or before READY, with the link down or by a function that does not exist, it changes nothing; by a function that does not own the queue it is recorded with CODE 0x11 where VALID was 0 and changes no queue. Each clause names what may change beside; every other part of the state and every other register is as before. Forms whose completion it states: sqTailDb, cqHeadDb. (R48, R49, R50, R52) -/
def Obligations.Doorbells : Prop :=
  (∀ (s : State) (fn : FnNo) (q : QueueNo) (v : BitVec 32), bar2Open s fn.val = true → qFunc (queueAt s q.val) = fn.val → (queueAt s q.val).state = .enabled → wbits v 15 0 < sqSize (queueAt s q.val) → 
    Answers (.sqTailDb fn q v) s fun t => queueAt t q.val = { queueAt s q.val with sqTail := wbits v 15 0 } ∧ t = { s with out := t.out, regs := t.regs, parBad := t.parBad, quay := { s.quay with queues := t.quay.queues, msix := t.quay.msix } } ∧ OtherRegs s t [] [Reg.INT_STAT, Reg.ERR_SYND, Reg.ERR_ADDR] []) ∧
  (∀ (s : State) (fn : FnNo) (q : QueueNo) (v : BitVec 32), bar2Open s fn.val = true → qFunc (queueAt s q.val) = fn.val → (queueAt s q.val).state = .enabled → sqSize (queueAt s q.val) ≤ wbits v 15 0 → 
    Answers (.sqTailDb fn q v) s fun t => queueAt t q.val = { queueAt s q.val with dbErr := true } ∧ t = { s with out := t.out, regs := t.regs, parBad := t.parBad, quay := { s.quay with queues := t.quay.queues, msix := t.quay.msix } } ∧ OtherRegs s t [] [Reg.INT_STAT, Reg.ERR_SYND, Reg.ERR_ADDR] []) ∧
  (∀ (s : State) (fn : FnNo) (q : QueueNo) (v : BitVec 32), bar2Open s fn.val = true → qFunc (queueAt s q.val) = fn.val → (queueAt s q.val).state = .enabled → wbits v 15 0 < cqSize (queueAt s q.val) → ringFwd (cqSize (queueAt s q.val)) (queueAt s q.val).cqHead (wbits v 15 0) ≤ ringFwd (cqSize (queueAt s q.val)) (queueAt s q.val).cqHead (queueAt s q.val).cqTail → 
    Answers (.cqHeadDb fn q v) s fun t => queueAt t q.val = { queueAt s q.val with cqHead := wbits v 15 0 } ∧ t = { s with out := t.out, regs := t.regs, parBad := t.parBad, quay := { s.quay with queues := t.quay.queues, msix := t.quay.msix } } ∧ OtherRegs s t [] [Reg.INT_STAT, Reg.ERR_SYND, Reg.ERR_ADDR] []) ∧
  (∀ (s : State) (fn : FnNo) (q : QueueNo) (v : BitVec 32), bar2Open s fn.val = true → qFunc (queueAt s q.val) = fn.val → (queueAt s q.val).state = .enabled → ¬ (wbits v 15 0 < cqSize (queueAt s q.val) ∧ ringFwd (cqSize (queueAt s q.val)) (queueAt s q.val).cqHead (wbits v 15 0) ≤ ringFwd (cqSize (queueAt s q.val)) (queueAt s q.val).cqHead (queueAt s q.val).cqTail) → 
    Answers (.cqHeadDb fn q v) s fun t => queueAt t q.val = { queueAt s q.val with dbErr := true } ∧ t = { s with out := t.out, regs := t.regs, parBad := t.parBad, quay := { s.quay with queues := t.quay.queues, msix := t.quay.msix } } ∧ OtherRegs s t [] [Reg.INT_STAT, Reg.ERR_SYND, Reg.ERR_ADDR] []) ∧
  (∀ (s : State) (fn : FnNo) (q : QueueNo) (v : BitVec 32), bar2Open s fn.val = false ∨ (qFunc (queueAt s q.val) = fn.val ∧ (queueAt s q.val).state ≠ .enabled) → 
    Answers (.sqTailDb fn q v) s fun t => t = s) ∧
  (∀ (s : State) (fn : FnNo) (q : QueueNo) (v : BitVec 32), bar2Open s fn.val = true → qFunc (queueAt s q.val) ≠ fn.val → pageOn s 0x0A = true → rbit s (rk 0x0A Reg.ERR_SYND) 23 = false → 
    Answers (.sqTailDb fn q v) s fun t => fld t (rk 0x0A Reg.ERR_SYND) 31 24 = 0x11 ∧ fld t (rk 0x0A Reg.ERR_SYND) 15 0 = fn.val ∧ reg t (rk 0x0A Reg.ERR_ADDR) = BitVec.ofNat 32 (0x40 * q.val + 0) ∧ t.quay.queues = s.quay.queues ∧ t = { s with out := t.out, regs := t.regs, parBad := t.parBad, quay := { s.quay with queues := t.quay.queues, msix := t.quay.msix } } ∧ OtherRegs s t [] [Reg.INT_STAT, Reg.ERR_SYND, Reg.ERR_ADDR] []) ∧
  (∀ (s : State) (fn : FnNo) (q : QueueNo) (v : BitVec 32), bar2Open s fn.val = false ∨ (qFunc (queueAt s q.val) = fn.val ∧ (queueAt s q.val).state ≠ .enabled) → 
    Answers (.cqHeadDb fn q v) s fun t => t = s) ∧
  (∀ (s : State) (fn : FnNo) (q : QueueNo) (v : BitVec 32), bar2Open s fn.val = true → qFunc (queueAt s q.val) ≠ fn.val → pageOn s 0x0A = true → rbit s (rk 0x0A Reg.ERR_SYND) 23 = false → 
    Answers (.cqHeadDb fn q v) s fun t => fld t (rk 0x0A Reg.ERR_SYND) 31 24 = 0x11 ∧ fld t (rk 0x0A Reg.ERR_SYND) 15 0 = fn.val ∧ reg t (rk 0x0A Reg.ERR_ADDR) = BitVec.ofNat 32 (0x40 * q.val + 4) ∧ t.quay.queues = s.quay.queues ∧ t = { s with out := t.out, regs := t.regs, parBad := t.parBad, quay := { s.quay with queues := t.quay.queues, msix := t.quay.msix } } ∧ OtherRegs s t [] [Reg.INT_STAT, Reg.ERR_SYND, Reg.ERR_ADDR] [])

/-- Admission reserves the context for the queue whose turn it is and issues the fetch of its next SQ entry; the arrival of the oldest outstanding descriptor advances SQ_HEAD, and an idempotent command, or one whose tag is neither in an undamaged replay window nor that of a command in flight, goes to the Roundabout with its fields decoded; one whose tag a command of its queue in flight has is parked behind that command; nothing arrives while the link is down, nor before an older descriptor of the queue. Each clause names what may change beside; every other part of the state and every other register is as before. Forms whose completion it states: admitOne, descriptorArrive. (R54, R56, R63, R65, R67, R88) -/
def Obligations.Admission : Prop :=
  (∀ (s : State) (c : CtxNo) (q : Nat), admitting s = true → ctxAt s c.val = none → admitQueue s = some q → 
    Answers (.admitOne c) s fun t => ctxAt t c.val = some { q, dom := qDomain (queueAt s q), seq := s.quay.nextSeq } ∧ t.out = .hostRead (qFunc (queueAt s q)) (qSqBase (queueAt s q) + 64 * fetchIdx s q) 64 :: s.out ∧ t = { s with out := t.out, quay := { s.quay with doms := t.quay.doms, ctxs := t.quay.ctxs, nextSeq := t.quay.nextSeq, turnQ := t.quay.turnQ, turnLeft := t.quay.turnLeft }, chk := { s.chk with ctxBad := t.chk.ctxBad } }) ∧
  (∀ (s : State) (c : CtxNo) (x : Ctx) (bytes : Bytes) (ecc : Option (Fin 64)), ctxAt s c.val = some x → x.phase = .fetching → linkUp s (fnPort (qFunc (queueAt s x.q))) = true → (fetchingOf s x.q).any (fun e => decide (e.2.seq < x.seq)) = false → x.stop = none → nonIdem (decodeDesc bytes) = false → 
    Answers (.descriptorArrive c bytes ecc) s fun t => ctxAt t c.val = some { x with d := decodeDesc bytes, raw := bytes.take 64, phase := .fetched } ∧ (queueAt t x.q).sqHead = ((queueAt s x.q).sqHead + 1) % sqSize (queueAt s x.q) ∧ t = { s with out := t.out, regs := t.regs, parBad := t.parBad, wins := t.wins, quay := { s.quay with queues := t.quay.queues, doms := t.quay.doms, domRR := t.quay.domRR, ctxs := t.quay.ctxs, msix := t.quay.msix }, units := { s.units with cipher := t.units.cipher, hash := t.units.hash, arc := t.units.arc }, kerb := { s.kerb with reports := t.kerb.reports }, fnt := { s.fnt with state := t.fnt.state, absorbed := t.fnt.absorbed, credit := t.fnt.credit, seed := t.fnt.seed, int := t.fnt.int, sw := t.fnt.sw, katBusy := t.fnt.katBusy, draws := t.fnt.draws, part := t.fnt.part, got := t.fnt.got, rng := t.fnt.rng, rngDone := t.fnt.rngDone, rngDead := t.fnt.rngDead }, xing := { s.xing with mirror := t.xing.mirror, sess := t.xing.sess } } ∧ OtherRegs s t [Reg.QUAY_RPL_HITS, Reg.QUAY_RPL_ECC, Reg.RBT_LATE, Reg.COMP_AUTH_FAIL, Reg.COMP_DONE] [Reg.PAGE_STAT, Reg.INT_STAT, Reg.ERR_SYND, Reg.ERR_ADDR, Reg.FAULT_CNT, Reg.QUAY_LINK_STAT] []) ∧
  (∀ (s : State) (c : CtxNo) (x : Ctx) (bytes : Bytes), ctxAt s c.val = some x → x.phase = .fetching → linkUp s (fnPort (qFunc (queueAt s x.q))) = true → (fetchingOf s x.q).any (fun e => decide (e.2.seq < x.seq)) = false → x.stop = none → nonIdem (decodeDesc bytes) = true → (queueAt s x.q).win.any (fun e => e.bad || e.tag == (decodeDesc bytes).tag) = false → parkTarget s c.val { x with d := decodeDesc bytes } = none → 
    Answers (.descriptorArrive c bytes none) s fun t => ctxAt t c.val = some { x with d := decodeDesc bytes, raw := bytes.take 64, phase := .fetched } ∧ (queueAt t x.q).sqHead = ((queueAt s x.q).sqHead + 1) % sqSize (queueAt s x.q) ∧ t = { s with out := t.out, regs := t.regs, parBad := t.parBad, wins := t.wins, quay := { s.quay with queues := t.quay.queues, doms := t.quay.doms, domRR := t.quay.domRR, ctxs := t.quay.ctxs, msix := t.quay.msix }, units := { s.units with cipher := t.units.cipher, hash := t.units.hash, arc := t.units.arc }, kerb := { s.kerb with reports := t.kerb.reports }, fnt := { s.fnt with state := t.fnt.state, absorbed := t.fnt.absorbed, credit := t.fnt.credit, seed := t.fnt.seed, int := t.fnt.int, sw := t.fnt.sw, katBusy := t.fnt.katBusy, draws := t.fnt.draws, part := t.fnt.part, got := t.fnt.got, rng := t.fnt.rng, rngDone := t.fnt.rngDone, rngDead := t.fnt.rngDead }, xing := { s.xing with mirror := t.xing.mirror, sess := t.xing.sess } } ∧ OtherRegs s t [Reg.QUAY_RPL_HITS, Reg.QUAY_RPL_ECC, Reg.RBT_LATE, Reg.COMP_AUTH_FAIL, Reg.COMP_DONE] [Reg.PAGE_STAT, Reg.INT_STAT, Reg.ERR_SYND, Reg.ERR_ADDR, Reg.FAULT_CNT, Reg.QUAY_LINK_STAT] []) ∧
  (∀ (s : State) (c : CtxNo) (x : Ctx) (bytes : Bytes) (b : Nat), ctxAt s c.val = some x → x.phase = .fetching → linkUp s (fnPort (qFunc (queueAt s x.q))) = true → (fetchingOf s x.q).any (fun e => decide (e.2.seq < x.seq)) = false → x.stop = none → nonIdem (decodeDesc bytes) = true → (queueAt s x.q).win.any (fun e => e.bad || e.tag == (decodeDesc bytes).tag) = false → parkTarget s c.val { x with d := decodeDesc bytes } = some b → 
    Answers (.descriptorArrive c bytes none) s fun t => ctxAt t c.val = some { x with d := decodeDesc bytes, raw := bytes.take 64, phase := .parked b } ∧ t = { s with out := t.out, regs := t.regs, parBad := t.parBad, wins := t.wins, quay := { s.quay with queues := t.quay.queues, doms := t.quay.doms, domRR := t.quay.domRR, ctxs := t.quay.ctxs, msix := t.quay.msix }, units := { s.units with cipher := t.units.cipher, hash := t.units.hash, arc := t.units.arc }, kerb := { s.kerb with reports := t.kerb.reports }, fnt := { s.fnt with state := t.fnt.state, absorbed := t.fnt.absorbed, credit := t.fnt.credit, seed := t.fnt.seed, int := t.fnt.int, sw := t.fnt.sw, katBusy := t.fnt.katBusy, draws := t.fnt.draws, part := t.fnt.part, got := t.fnt.got, rng := t.fnt.rng, rngDone := t.fnt.rngDone, rngDead := t.fnt.rngDead }, xing := { s.xing with mirror := t.xing.mirror, sess := t.xing.sess } } ∧ OtherRegs s t [Reg.QUAY_RPL_HITS, Reg.QUAY_RPL_ECC, Reg.RBT_LATE, Reg.COMP_AUTH_FAIL, Reg.COMP_DONE] [Reg.PAGE_STAT, Reg.INT_STAT, Reg.ERR_SYND, Reg.ERR_ADDR, Reg.FAULT_CNT, Reg.QUAY_LINK_STAT] []) ∧
  (∀ (s : State) (c : CtxNo) (x : Ctx) (bytes : Bytes) (ecc : Option (Fin 64)), ctxAt s c.val = some x → x.phase ≠ .fetching ∨ linkUp s (fnPort (qFunc (queueAt s x.q))) = false ∨ (fetchingOf s x.q).any (fun e => decide (e.2.seq < x.seq)) = true → 
    Answers (.descriptorArrive c bytes ecc) s fun t => t = s)

/-- When COAL_TIME has passed the count of completions returns to 0 and its timer stops; a host write to a Message Address, Message Data or Vector Control entry stores what it names and leaves the entry otherwise as it was, but that unmasking an entry whose Pending Bit is set, while the function may send, sends its message and clears the bit; a write of Message Control sets MSI-X Enable and Function Mask, one of Device Control the Relaxed Ordering bit. Each clause names what may change beside; every other part of the state and every other register is as before. Forms whose completion it states: coalTimeExpire, msixTableWrite. (R79, R80, R81, R546) -/
def Obligations.Interrupts : Prop :=
  (∀ (s : State) (q : QueueNo), (queueAt s q.val).coalTimer = false ∨ qCoalTime (queueAt s q.val) = 0 → 
    Answers (.coalTimeExpire q) s fun t => t = s) ∧
  (∀ (s : State) (q : QueueNo), (queueAt s q.val).coalTimer = true → qCoalTime (queueAt s q.val) ≠ 0 → 
    Answers (.coalTimeExpire q) s fun t => queueAt t q.val = { queueAt s q.val with coalCnt := 0, coalTimer := false } ∧ t = { s with out := t.out, quay := { s.quay with queues := t.quay.queues, msix := t.quay.msix } }) ∧
  (∀ (s : State) (fn : FnNo) (e : Fin 2048) (v : BitVec 32), bar2Open s fn.val = true → 
    Answers (.msixTableWrite fn (.data e) v) s fun t => msixAt t fn.val e.val = { msixAt s fn.val e.val with data := v } ∧ t = { s with out := t.out, quay := { s.quay with msix := t.quay.msix, msixEn := t.quay.msixEn, msixMask := t.quay.msixMask, pcie := t.quay.pcie } }) ∧
  (∀ (s : State) (fn : FnNo) (e : Fin 2048) (v : BitVec 32), bar2Open s fn.val = true → 
    Answers (.msixTableWrite fn (.addrLo e) v) s fun t => msixAt t fn.val e.val = { msixAt s fn.val e.val with addrLo := wput v 1 0 0 } ∧ t = { s with out := t.out, quay := { s.quay with msix := t.quay.msix, msixEn := t.quay.msixEn, msixMask := t.quay.msixMask, pcie := t.quay.pcie } }) ∧
  (∀ (s : State) (fn : FnNo) (e : Fin 2048) (v : BitVec 32), bar2Open s fn.val = true → 
    Answers (.msixTableWrite fn (.addrHi e) v) s fun t => msixAt t fn.val e.val = { msixAt s fn.val e.val with addrHi := v } ∧ t = { s with out := t.out, quay := { s.quay with msix := t.quay.msix, msixEn := t.quay.msixEn, msixMask := t.quay.msixMask, pcie := t.quay.pcie } }) ∧
  (∀ (s : State) (fn : FnNo) (e : Fin 2048) (v : BitVec 32), bar2Open s fn.val = true → (msixAt s fn.val e.val).pend = false → 
    Answers (.msixTableWrite fn (.vectorControl e) v) s fun t => msixAt t fn.val e.val = { msixAt s fn.val e.val with mask := wbit v 0 } ∧ t = { s with out := t.out, quay := { s.quay with msix := t.quay.msix, msixEn := t.quay.msixEn, msixMask := t.quay.msixMask, pcie := t.quay.pcie } }) ∧
  (∀ (s : State) (fn : FnNo) (e : Fin 2048) (v : BitVec 32), bar2Open s fn.val = true → (msixAt s fn.val e.val).pend = true → wbit v 0 = false → s.quay.msixEn.contains fn.val = true → s.quay.msixMask.contains fn.val = false → 
    Answers (.msixTableWrite fn (.vectorControl e) v) s fun t => msixAt t fn.val e.val = { msixAt s fn.val e.val with mask := false, pend := false } ∧ t.out = .msix fn.val e.val ((msixAt s fn.val e.val).addrLo.toNat + 2 ^ 32 * (msixAt s fn.val e.val).addrHi.toNat) (msixAt s fn.val e.val).data :: s.out ∧ t = { s with out := t.out, quay := { s.quay with msix := t.quay.msix, msixEn := t.quay.msixEn, msixMask := t.quay.msixMask, pcie := t.quay.pcie } }) ∧
  (∀ (s : State) (fn : FnNo) (v : BitVec 32), bar2Open s fn.val = true → 
    Answers (.msixTableWrite fn .messageControl v) s fun t => t.quay.msixEn.contains fn.val = wbit v 15 ∧ t.quay.msixMask.contains fn.val = wbit v 14 ∧ t = { s with out := t.out, quay := { s.quay with msix := t.quay.msix, msixEn := t.quay.msixEn, msixMask := t.quay.msixMask, pcie := t.quay.pcie } }) ∧
  (∀ (s : State) (fn : FnNo) (v : BitVec 32), bar2Open s fn.val = true → 
    Answers (.msixTableWrite fn .deviceControl v) s fun t => pcieOf t fn.val = devControl (pcieOf s fn.val) v ∧ t = { s with out := t.out, quay := { s.quay with msix := t.quay.msix, msixEn := t.quay.msixEn, msixMask := t.quay.msixMask, pcie := t.quay.pcie } })

/-- While BUSY is 0, READ copies the record of the selected queue to QUAY_QDATA; WRITE on a DISABLED queue stores the staged record; ENABLE of a DISABLED queue whose record passes every check puts it to ENABLED with its indices 0 and its phase bit 1; DISABLE and DISABLE_ABORT leave it no longer ENABLED; CLEAR_REPLAY empties the window of a DISABLED queue. Each of these ends with RESULT 0. A command written while BUSY is 1 is ignored and recorded with CODE 0x12. Each clause names what may change beside; every other part of the state and every other register is as before. Forms whose completion it states: qcmdRead, qcmdWrite, enable, disable, disableAbort, clearReplay. (R62, R76, R77, R85, R456) -/
def Obligations.QueueCommands : Prop :=
  (∀ (s : State) (src : Src), Reaches s src Reg.QUAY_QCMD → qcmdWaits s = false → 
    Answers (.qcmdRead src false) s fun t => fld t Reg.QUAY_QCMD 7 4 = 0 ∧ (∀ n : Fin 32, reg t (Reg.QUAY_QDATA + 4 * n.val) = qw (queueAt s (fld s Reg.QUAY_QSEL 13 0)) n.val) ∧ t = { s with out := t.out, regs := t.regs, parBad := t.parBad, quay := { s.quay with msix := t.quay.msix }, xing := { s.xing with mirror := t.xing.mirror, sess := t.xing.sess } } ∧ OtherRegs s t [Reg.QUAY_QCMD] [Reg.INT_STAT, Reg.ERR_SYND, Reg.ERR_ADDR] [0xA]) ∧
  (∀ (s : State) (src : Src), Reaches s src Reg.QUAY_QCMD → qcmdWaits s = false → (queueAt s (fld s Reg.QUAY_QSEL 13 0)).state = .disabled → (queueAt s (fld s Reg.QUAY_QSEL 13 0)).role = 0 → 
    Answers (.qcmdWrite src false) s fun t => fld t Reg.QUAY_QCMD 7 4 = 0 ∧ (queueAt t (fld s Reg.QUAY_QSEL 13 0)).rec' = stagedRec s ∧ (queueAt t (fld s Reg.QUAY_QSEL 13 0)).state = .disabled ∧ t = { s with out := t.out, regs := t.regs, parBad := t.parBad, quay := { s.quay with queues := t.quay.queues, msix := t.quay.msix }, xing := { s.xing with mirror := t.xing.mirror, sess := t.xing.sess } } ∧ OtherRegs s t [Reg.QUAY_QCMD] [Reg.INT_STAT, Reg.ERR_SYND, Reg.ERR_ADDR] []) ∧
  (∀ (s : State) (src : Src), Reaches s src Reg.QUAY_QCMD → qcmdWaits s = false → (queueAt s (fld s Reg.QUAY_QSEL 13 0)).state = .disabled → (queueAt s (fld s Reg.QUAY_QSEL 13 0)).role ≠ 2 → checkRecord s (queueAt s (fld s Reg.QUAY_QSEL 13 0)) = 0 → 
    Answers (.enable src false) s fun t => fld t Reg.QUAY_QCMD 7 4 = 0 ∧ queueAt t (fld s Reg.QUAY_QSEL 13 0) = { queueAt s (fld s Reg.QUAY_QSEL 13 0) with state := .enabled, sqHead := 0, sqTail := 0, cqTail := 0, cqHead := 0, dbErr := false, phase := true } ∧ t = { s with out := t.out, regs := t.regs, parBad := t.parBad, quay := { s.quay with queues := t.quay.queues, msix := t.quay.msix }, xing := { s.xing with mirror := t.xing.mirror, sess := t.xing.sess } } ∧ OtherRegs s t [Reg.QUAY_QCMD] [Reg.INT_STAT, Reg.ERR_SYND, Reg.ERR_ADDR] []) ∧
  (∀ (s : State) (src : Src), Reaches s src Reg.QUAY_QCMD → qcmdWaits s = false → (queueAt s (fld s Reg.QUAY_QSEL 13 0)).state = .enabled → 
    Answers (.disable src false) s fun t => fld t Reg.QUAY_QCMD 7 4 = 0 ∧ (queueAt t (fld s Reg.QUAY_QSEL 13 0)).state = (if qInfl s (fld s Reg.QUAY_QSEL 13 0) = 0 then .disabled else .draining) ∧ t = { s with out := t.out, regs := t.regs, parBad := t.parBad, quay := { s.quay with queues := t.quay.queues, msix := t.quay.msix }, xing := { s.xing with mirror := t.xing.mirror, sess := t.xing.sess } } ∧ OtherRegs s t [Reg.QUAY_QCMD] [Reg.INT_STAT, Reg.ERR_SYND, Reg.ERR_ADDR] []) ∧
  (∀ (s : State) (src : Src), Reaches s src Reg.QUAY_QCMD → qcmdWaits s = false → (queueAt s (fld s Reg.QUAY_QSEL 13 0)).state = .enabled → 
    Answers (.disableAbort src false) s fun t => fld t Reg.QUAY_QCMD 7 4 = 0 ∧ (queueAt t (fld s Reg.QUAY_QSEL 13 0)).state ≠ .enabled ∧ t = { s with out := t.out, regs := t.regs, parBad := t.parBad, wins := t.wins, quay := { s.quay with queues := t.quay.queues, doms := t.quay.doms, domRR := t.quay.domRR, ctxs := t.quay.ctxs, msix := t.quay.msix }, units := { s.units with cipher := t.units.cipher, hash := t.units.hash, arc := t.units.arc }, kerb := { s.kerb with reports := t.kerb.reports }, fnt := { s.fnt with state := t.fnt.state, absorbed := t.fnt.absorbed, credit := t.fnt.credit, seed := t.fnt.seed, int := t.fnt.int, sw := t.fnt.sw, katBusy := t.fnt.katBusy, draws := t.fnt.draws, part := t.fnt.part, got := t.fnt.got, rng := t.fnt.rng, rngDone := t.fnt.rngDone, rngDead := t.fnt.rngDead }, xing := { s.xing with mirror := t.xing.mirror, sess := t.xing.sess } } ∧ OtherRegs s t [Reg.QUAY_QCMD, Reg.QUAY_RPL_HITS, Reg.RBT_LATE, Reg.COMP_AUTH_FAIL, Reg.COMP_DONE] [Reg.PAGE_STAT, Reg.INT_STAT, Reg.ERR_SYND, Reg.ERR_ADDR, Reg.FAULT_CNT, Reg.QUAY_LINK_STAT] []) ∧
  (∀ (s : State) (src : Src), Reaches s src Reg.QUAY_QCMD → qcmdWaits s = false → (queueAt s (fld s Reg.QUAY_QSEL 13 0)).state = .disabled → 
    Answers (.clearReplay src false) s fun t => fld t Reg.QUAY_QCMD 7 4 = 0 ∧ (queueAt t (fld s Reg.QUAY_QSEL 13 0)).win = [] ∧ t = { s with out := t.out, regs := t.regs, parBad := t.parBad, quay := { s.quay with queues := t.quay.queues, msix := t.quay.msix }, xing := { s.xing with mirror := t.xing.mirror, sess := t.xing.sess } } ∧ OtherRegs s t [Reg.QUAY_QCMD] [Reg.INT_STAT, Reg.ERR_SYND, Reg.ERR_ADDR] []) ∧
  (∀ (s : State) (src : Src) (early : Bool), Reaches s src Reg.QUAY_QCMD → early = true ∨ qcmdWaits s = true → pageOn s 0x0A = true → rbit s (rk 0x0A Reg.ERR_SYND) 23 = false → 
    Answers (.qcmdRead src early) s fun t => fld t (rk 0x0A Reg.ERR_SYND) 31 24 = 0x12 ∧ t.quay.queues = s.quay.queues ∧ reg t Reg.QUAY_QCMD = reg s Reg.QUAY_QCMD ∧ t = { s with out := t.out, regs := t.regs, parBad := t.parBad, quay := { s.quay with msix := t.quay.msix }, xing := { s.xing with mirror := t.xing.mirror, sess := t.xing.sess } } ∧ OtherRegs s t [Reg.QUAY_QCMD] [Reg.INT_STAT, Reg.ERR_SYND, Reg.ERR_ADDR] [0xA]) ∧
  (∀ (s : State) (src : Src) (early : Bool), Reaches s src Reg.QUAY_QCMD → early = true ∨ qcmdWaits s = true → pageOn s 0x0A = true → rbit s (rk 0x0A Reg.ERR_SYND) 23 = false → 
    Answers (.qcmdWrite src early) s fun t => fld t (rk 0x0A Reg.ERR_SYND) 31 24 = 0x12 ∧ t.quay.queues = s.quay.queues ∧ reg t Reg.QUAY_QCMD = reg s Reg.QUAY_QCMD ∧ t = { s with out := t.out, regs := t.regs, parBad := t.parBad, quay := { s.quay with queues := t.quay.queues, msix := t.quay.msix }, xing := { s.xing with mirror := t.xing.mirror, sess := t.xing.sess } } ∧ OtherRegs s t [Reg.QUAY_QCMD] [Reg.INT_STAT, Reg.ERR_SYND, Reg.ERR_ADDR] []) ∧
  (∀ (s : State) (src : Src) (early : Bool), Reaches s src Reg.QUAY_QCMD → early = true ∨ qcmdWaits s = true → pageOn s 0x0A = true → rbit s (rk 0x0A Reg.ERR_SYND) 23 = false → 
    Answers (.enable src early) s fun t => fld t (rk 0x0A Reg.ERR_SYND) 31 24 = 0x12 ∧ t.quay.queues = s.quay.queues ∧ reg t Reg.QUAY_QCMD = reg s Reg.QUAY_QCMD ∧ t = { s with out := t.out, regs := t.regs, parBad := t.parBad, quay := { s.quay with queues := t.quay.queues, msix := t.quay.msix }, xing := { s.xing with mirror := t.xing.mirror, sess := t.xing.sess } } ∧ OtherRegs s t [Reg.QUAY_QCMD] [Reg.INT_STAT, Reg.ERR_SYND, Reg.ERR_ADDR] []) ∧
  (∀ (s : State) (src : Src) (early : Bool), Reaches s src Reg.QUAY_QCMD → early = true ∨ qcmdWaits s = true → pageOn s 0x0A = true → rbit s (rk 0x0A Reg.ERR_SYND) 23 = false → 
    Answers (.disable src early) s fun t => fld t (rk 0x0A Reg.ERR_SYND) 31 24 = 0x12 ∧ t.quay.queues = s.quay.queues ∧ reg t Reg.QUAY_QCMD = reg s Reg.QUAY_QCMD ∧ t = { s with out := t.out, regs := t.regs, parBad := t.parBad, quay := { s.quay with queues := t.quay.queues, msix := t.quay.msix }, xing := { s.xing with mirror := t.xing.mirror, sess := t.xing.sess } } ∧ OtherRegs s t [Reg.QUAY_QCMD] [Reg.INT_STAT, Reg.ERR_SYND, Reg.ERR_ADDR] []) ∧
  (∀ (s : State) (src : Src) (early : Bool), Reaches s src Reg.QUAY_QCMD → early = true ∨ qcmdWaits s = true → pageOn s 0x0A = true → rbit s (rk 0x0A Reg.ERR_SYND) 23 = false → 
    Answers (.disableAbort src early) s fun t => fld t (rk 0x0A Reg.ERR_SYND) 31 24 = 0x12 ∧ t.quay.queues = s.quay.queues ∧ reg t Reg.QUAY_QCMD = reg s Reg.QUAY_QCMD ∧ t = { s with out := t.out, regs := t.regs, parBad := t.parBad, wins := t.wins, quay := { s.quay with queues := t.quay.queues, doms := t.quay.doms, domRR := t.quay.domRR, ctxs := t.quay.ctxs, msix := t.quay.msix }, units := { s.units with cipher := t.units.cipher, hash := t.units.hash, arc := t.units.arc }, kerb := { s.kerb with reports := t.kerb.reports }, fnt := { s.fnt with state := t.fnt.state, absorbed := t.fnt.absorbed, credit := t.fnt.credit, seed := t.fnt.seed, int := t.fnt.int, sw := t.fnt.sw, katBusy := t.fnt.katBusy, draws := t.fnt.draws, part := t.fnt.part, got := t.fnt.got, rng := t.fnt.rng, rngDone := t.fnt.rngDone, rngDead := t.fnt.rngDead }, xing := { s.xing with mirror := t.xing.mirror, sess := t.xing.sess } } ∧ OtherRegs s t [Reg.QUAY_QCMD, Reg.QUAY_RPL_HITS, Reg.RBT_LATE, Reg.COMP_AUTH_FAIL, Reg.COMP_DONE] [Reg.PAGE_STAT, Reg.INT_STAT, Reg.ERR_SYND, Reg.ERR_ADDR, Reg.FAULT_CNT, Reg.QUAY_LINK_STAT] []) ∧
  (∀ (s : State) (src : Src) (early : Bool), Reaches s src Reg.QUAY_QCMD → early = true ∨ qcmdWaits s = true → pageOn s 0x0A = true → rbit s (rk 0x0A Reg.ERR_SYND) 23 = false → 
    Answers (.clearReplay src early) s fun t => fld t (rk 0x0A Reg.ERR_SYND) 31 24 = 0x12 ∧ t.quay.queues = s.quay.queues ∧ reg t Reg.QUAY_QCMD = reg s Reg.QUAY_QCMD ∧ t = { s with out := t.out, regs := t.regs, parBad := t.parBad, quay := { s.quay with queues := t.quay.queues, msix := t.quay.msix }, xing := { s.xing with mirror := t.xing.mirror, sess := t.xing.sess } } ∧ OtherRegs s t [Reg.QUAY_QCMD] [Reg.INT_STAT, Reg.ERR_SYND, Reg.ERR_ADDR] [])

/-- WIN_SYNC clears DONE, which stays 0 until every access checked before it has completed and is then set; a reservation that keeps the sum within 65,536 becomes the reservation of the selected domain, one that does not is ignored and recorded with CODE 0x13; a cap becomes the domain's cap. Each clause names what may change beside; every other part of the state and every other register is as before. Forms whose completion it states: winSync, winSyncDone, domResvWrite, domCapWrite. (R61, R64) -/
def Obligations.WindowsAndDomains : Prop :=
  (∀ (s : State) (src : Src), Reaches s src Reg.QUAY_WIN_SYNC → 
    Answers (.winSync src) s fun t => rbit t Reg.QUAY_WIN_SYNC 1 = false ∧ t = { s with out := t.out, regs := t.regs, parBad := t.parBad, quay := { s.quay with msix := t.quay.msix, winWait := t.quay.winWait } } ∧ OtherRegs s t [Reg.QUAY_WIN_SYNC] [Reg.INT_STAT, Reg.ERR_SYND, Reg.ERR_ADDR] []) ∧
  (∀ (s : State), s.quay.winWait.cmds.all (accessDone s) = false ∨ s.quay.winWait.dmas ≠ [] → 
    Answers (.winSyncDone) s fun t => t = s) ∧
  (∀ (s : State), s.quay.winWait.cmds.all (accessDone s) = true → s.quay.winWait.dmas = [] → 
    Answers (.winSyncDone) s fun t => rbit t Reg.QUAY_WIN_SYNC 1 = true ∧ t = { s with regs := t.regs, parBad := t.parBad } ∧ OtherRegs s t [Reg.QUAY_WIN_SYNC] [] []) ∧
  (∀ (s : State) (src : Src) (v : BitVec 32), Reaches s src Reg.QUAY_DOM_RESV → resvTotal s - (domAt s (fld s Reg.QUAY_DOM_SEL 11 0)).resv + wbits v 16 0 ≤ 65536 → 
    Answers (.domResvWrite src v) s fun t => (domAt t (fld s Reg.QUAY_DOM_SEL 11 0)).resv = wbits v 16 0 ∧ (domAt t (fld s Reg.QUAY_DOM_SEL 11 0)).cap = (domAt s (fld s Reg.QUAY_DOM_SEL 11 0)).cap ∧ t = { s with out := t.out, regs := t.regs, parBad := t.parBad, quay := { s.quay with doms := t.quay.doms, domRR := t.quay.domRR, msix := t.quay.msix } } ∧ OtherRegs s t [] [Reg.INT_STAT, Reg.ERR_SYND, Reg.ERR_ADDR] []) ∧
  (∀ (s : State) (src : Src) (v : BitVec 32), Reaches s src Reg.QUAY_DOM_RESV → 65536 < resvTotal s - (domAt s (fld s Reg.QUAY_DOM_SEL 11 0)).resv + wbits v 16 0 → pageOn s 0x0A = true → rbit s (rk 0x0A Reg.ERR_SYND) 23 = false → 
    Answers (.domResvWrite src v) s fun t => t.quay.doms = s.quay.doms ∧ fld t (rk 0x0A Reg.ERR_SYND) 31 24 = 0x13 ∧ t = { s with out := t.out, regs := t.regs, parBad := t.parBad, quay := { s.quay with doms := t.quay.doms, domRR := t.quay.domRR, msix := t.quay.msix } } ∧ OtherRegs s t [] [Reg.INT_STAT, Reg.ERR_SYND, Reg.ERR_ADDR] []) ∧
  (∀ (s : State) (src : Src) (v : BitVec 32), Reaches s src Reg.QUAY_DOM_CAP → 
    Answers (.domCapWrite src v) s fun t => domAt t (fld s Reg.QUAY_DOM_SEL 11 0) = { domAt s (fld s Reg.QUAY_DOM_SEL 11 0) with cap := wbits v 16 0 } ∧ t = { s with out := t.out, regs := t.regs, parBad := t.parBad, quay := { s.quay with doms := t.quay.doms, msix := t.quay.msix } } ∧ OtherRegs s t [] [Reg.INT_STAT, Reg.ERR_SYND, Reg.ERR_ADDR] [])

/-- A Function Level Reset of a function that exists is running afterwards, and is complete once none of its commands is in flight; lowering NumVFs to n, or raising it, on an open link leaves n virtual functions; each is a configuration request, answered with Request Retry Status before READY and lost while the link is down; PERST leaves none. Each clause names what may change beside; every other part of the state and every other register is as before. Forms whose completion it states: flr, flrDone, vfDisable, vfEnable, perst. (R44, R78, R523, R546) -/
def Obligations.FunctionResets : Prop :=
  (∀ (s : State) (fn : FnNo), bootReady s = true → linkUp s (fnPort fn.val) = true → fnExists s fn.val = true → fn.val % 128 ≠ 0 ∨ numVfs s (fnPort fn.val) = 0 → 
    Answers (.flr fn) s fun t => t.quay.flr.contains fn.val = true ∧ t = { s with out := t.out, regs := t.regs, parBad := t.parBad, wins := t.wins, quay := { s.quay with queues := t.quay.queues, doms := t.quay.doms, domRR := t.quay.domRR, ctxs := t.quay.ctxs, msix := t.quay.msix, msixEn := t.quay.msixEn, msixMask := t.quay.msixMask, pcie := t.quay.pcie, flr := t.quay.flr }, units := { s.units with cipher := t.units.cipher, hash := t.units.hash, arc := t.units.arc }, kerb := { s.kerb with reports := t.kerb.reports }, fnt := { s.fnt with state := t.fnt.state, absorbed := t.fnt.absorbed, credit := t.fnt.credit, seed := t.fnt.seed, int := t.fnt.int, sw := t.fnt.sw, katBusy := t.fnt.katBusy, draws := t.fnt.draws, part := t.fnt.part, got := t.fnt.got, rng := t.fnt.rng, rngDone := t.fnt.rngDone, rngDead := t.fnt.rngDead }, xing := { s.xing with mirror := t.xing.mirror, sess := t.xing.sess } } ∧ OtherRegs s t [Reg.QUAY_RPL_HITS, Reg.RBT_LATE, Reg.COMP_AUTH_FAIL, Reg.COMP_DONE] [Reg.PAGE_STAT, Reg.INT_STAT, Reg.ERR_SYND, Reg.ERR_ADDR, Reg.FAULT_CNT, Reg.QUAY_LINK_STAT] []) ∧
  (∀ (s : State) (fn : FnNo), s.quay.flr.contains fn.val = true → (s.quay.ctxs.any fun e => qFunc (queueAt s e.2.q) == fn.val && e.2.silent) = false → 
    Answers (.flrDone fn) s fun t => t.quay.flr.contains fn.val = false ∧ t = { s with out := t.out, regs := t.regs, parBad := t.parBad, quay := { s.quay with msix := t.quay.msix, winWait := t.quay.winWait, flr := t.quay.flr }, chk := { s.chk with dma := t.chk.dma, sync := t.chk.sync } } ∧ OtherRegs s t [] [Reg.INT_STAT] [0x40]) ∧
  (∀ (s : State) (p : PortNo) (n : BitVec 7), bootReady s = true → linkUp s p.val = true → n.toNat < numVfs s p.val → 
    Answers (.vfDisable p n) s fun t => numVfs t p.val = n.toNat ∧ t = { s with out := t.out, regs := t.regs, parBad := t.parBad, wins := t.wins, quay := { s.quay with queues := t.quay.queues, doms := t.quay.doms, domRR := t.quay.domRR, ctxs := t.quay.ctxs, vf0 := t.quay.vf0, vf1 := t.quay.vf1, msix := t.quay.msix, msixEn := t.quay.msixEn, msixMask := t.quay.msixMask, pcie := t.quay.pcie, flr := t.quay.flr }, units := { s.units with cipher := t.units.cipher, hash := t.units.hash, arc := t.units.arc }, kerb := { s.kerb with reports := t.kerb.reports }, fnt := { s.fnt with state := t.fnt.state, absorbed := t.fnt.absorbed, credit := t.fnt.credit, seed := t.fnt.seed, int := t.fnt.int, sw := t.fnt.sw, katBusy := t.fnt.katBusy, draws := t.fnt.draws, part := t.fnt.part, got := t.fnt.got, rng := t.fnt.rng, rngDone := t.fnt.rngDone, rngDead := t.fnt.rngDead }, xing := { s.xing with mirror := t.xing.mirror, sess := t.xing.sess } } ∧ OtherRegs s t [Reg.QUAY_RPL_HITS, Reg.RBT_LATE, Reg.COMP_AUTH_FAIL, Reg.COMP_DONE] [Reg.PAGE_STAT, Reg.INT_STAT, Reg.ERR_SYND, Reg.ERR_ADDR, Reg.FAULT_CNT, Reg.QUAY_LINK_STAT] []) ∧
  (∀ (s : State) (p : PortNo) (n : BitVec 7), bootReady s = true → linkUp s p.val = true → numVfs s p.val < n.toNat → 
    Answers (.vfEnable p n) s fun t => numVfs t p.val = n.toNat ∧ t = { s with out := t.out, quay := { s.quay with vf0 := t.quay.vf0, vf1 := t.quay.vf1 } }) ∧
  (∀ (s : State) (fn : FnNo), linkUp s (fnPort fn.val) = true → bootReady s = false → 
    Answers (.flr fn) s fun t => t = { s with out := .retry fn.val :: s.out }) ∧
  (∀ (s : State) (fn : FnNo), linkUp s (fnPort fn.val) = false → 
    Answers (.flr fn) s fun t => t = s) ∧
  (∀ (s : State) (p : PortNo) (n : BitVec 7), linkUp s (fnPort (128 * p.val)) = true → bootReady s = false → 
    Answers (.vfDisable p n) s fun t => t = { s with out := .retry (128 * p.val) :: s.out }) ∧
  (∀ (s : State) (p : PortNo) (n : BitVec 7), linkUp s (fnPort (128 * p.val)) = false → 
    Answers (.vfDisable p n) s fun t => t = s) ∧
  (∀ (s : State) (p : PortNo) (n : BitVec 7), linkUp s (fnPort (128 * p.val)) = true → bootReady s = false → 
    Answers (.vfEnable p n) s fun t => t = { s with out := .retry (128 * p.val) :: s.out }) ∧
  (∀ (s : State) (p : PortNo) (n : BitVec 7), linkUp s (fnPort (128 * p.val)) = false → 
    Answers (.vfEnable p n) s fun t => t = s) ∧
  (∀ (s : State) (p : PortNo), 
    Answers (.perst p) s fun t => numVfs t p.val = 0 ∧ t = { s with out := t.out, regs := t.regs, parBad := t.parBad, wins := t.wins, quay := { s.quay with queues := t.quay.queues, doms := t.quay.doms, domRR := t.quay.domRR, ctxs := t.quay.ctxs, vf0 := t.quay.vf0, vf1 := t.quay.vf1, msix := t.quay.msix, msixEn := t.quay.msixEn, msixMask := t.quay.msixMask, pcie := t.quay.pcie, winWait := t.quay.winWait, flr := t.quay.flr }, units := { s.units with cipher := t.units.cipher, hash := t.units.hash, arc := t.units.arc }, kerb := { s.kerb with reports := t.kerb.reports }, fnt := { s.fnt with state := t.fnt.state, absorbed := t.fnt.absorbed, credit := t.fnt.credit, seed := t.fnt.seed, int := t.fnt.int, sw := t.fnt.sw, katBusy := t.fnt.katBusy, draws := t.fnt.draws, part := t.fnt.part, got := t.fnt.got, rng := t.fnt.rng, rngDone := t.fnt.rngDone, rngDead := t.fnt.rngDead }, xing := { s.xing with mirror := t.xing.mirror, sess := t.xing.sess }, chk := { s.chk with dma := t.chk.dma, sync := t.chk.sync } } ∧ OtherRegs s t [Reg.QUAY_RPL_HITS, Reg.RBT_LATE, Reg.COMP_AUTH_FAIL, Reg.COMP_DONE] [Reg.PAGE_STAT, Reg.INT_STAT, Reg.ERR_SYND, Reg.ERR_ADDR, Reg.FAULT_CNT, Reg.QUAY_LINK_STAT] [0x40])

/-- A link that comes up shows what it trained to within the advertised limits, which are those in force until it trains again, and one that changes its width shows the width within those in force; a link that goes down shows DL_UP 0; RETRAIN of a link that is up keeps it up within MAX_SPEED and MAX_WIDTH; a logged correctable error is counted, an uncorrectable one sets UNCORR; a poisoned TLP sets its interrupt bit, or ends the source side of the lane command it belongs to with ABORTED and DETAIL 0x03. Each clause names what may change beside; every other part of the state and every other register is as before. Forms whose completion it states: linkUp, linkDown, retrain, linkWidthChange, aerErrorLogged, poisonedTlp. (R42, R82, R83, R84, R547, R548) -/
def Obligations.LinkEvents : Prop :=
  (∀ (s : State) (p : PortNo) (tr : LinkTrain), linkUp s p.val = false → domOn s (14 + p.val) = true → 
    Answers (.linkUp p tr) s fun t => reg t (rk (8 + p.val) Reg.QUAY_LINK_STAT) = trained (withLimits s p.val) p.val tr ∧ limits t p.val = limitsNow s p.val ∧ linkUp t p.val = true ∧ t = { s with out := t.out, regs := t.regs, parBad := t.parBad, quay := { s.quay with msix := t.quay.msix, lims := t.quay.lims } } ∧ OtherRegs s t [] [Reg.INT_STAT, Reg.QUAY_LINK_STAT] []) ∧
  (∀ (s : State) (p : PortNo), linkUp s p.val = true → 
    Answers (.linkDown p) s fun t => linkUp t p.val = false ∧ t = { s with out := t.out, regs := t.regs, parBad := t.parBad, wins := t.wins, quay := { s.quay with queues := t.quay.queues, doms := t.quay.doms, domRR := t.quay.domRR, ctxs := t.quay.ctxs, msix := t.quay.msix, msixEn := t.quay.msixEn, msixMask := t.quay.msixMask, pcie := t.quay.pcie, winWait := t.quay.winWait, flr := t.quay.flr }, units := { s.units with cipher := t.units.cipher, hash := t.units.hash, arc := t.units.arc }, kerb := { s.kerb with reports := t.kerb.reports }, fnt := { s.fnt with state := t.fnt.state, absorbed := t.fnt.absorbed, credit := t.fnt.credit, seed := t.fnt.seed, int := t.fnt.int, sw := t.fnt.sw, katBusy := t.fnt.katBusy, draws := t.fnt.draws, part := t.fnt.part, got := t.fnt.got, rng := t.fnt.rng, rngDone := t.fnt.rngDone, rngDead := t.fnt.rngDead }, xing := { s.xing with mirror := t.xing.mirror, sess := t.xing.sess }, chk := { s.chk with dma := t.chk.dma, sync := t.chk.sync } } ∧ OtherRegs s t [Reg.QUAY_RPL_HITS, Reg.RBT_LATE, Reg.COMP_AUTH_FAIL, Reg.COMP_DONE] [Reg.PAGE_STAT, Reg.INT_STAT, Reg.ERR_SYND, Reg.ERR_ADDR, Reg.FAULT_CNT, Reg.QUAY_LINK_STAT] [0x40]) ∧
  (∀ (s : State) (src : Src) (p : PortNo) (v : BitVec 32) (tr : LinkTrain), Reaches s src (rk (8 + p.val) Reg.QUAY_LINK_CTRL) → wbit v 9 = true → linkUp s p.val = true → 
    Answers (.retrain src p v tr) s fun t => linkUp t p.val = true ∧ fld t (rk (8 + p.val) Reg.QUAY_LINK_STAT) 3 0 ≤ maxSpeed t p.val ∧ fld t (rk (8 + p.val) Reg.QUAY_LINK_STAT) 8 4 ≤ maxWidth t p.val ∧ t = { s with out := t.out, regs := t.regs, parBad := t.parBad, quay := { s.quay with msix := t.quay.msix, lims := t.quay.lims } } ∧ OtherRegs s t [] [Reg.QUAY_LINK_CTRL, Reg.QUAY_LINK_STAT, Reg.INT_STAT, Reg.ERR_SYND, Reg.ERR_ADDR] []) ∧
  (∀ (s : State) (p : PortNo) (tr : LinkTrain), linkUp s p.val = true → 
    Answers (.linkWidthChange p tr) s fun t => reg t (rk (8 + p.val) Reg.QUAY_LINK_STAT) = trained s p.val tr ∧ t = { s with out := t.out, regs := t.regs, parBad := t.parBad, quay := { s.quay with msix := t.quay.msix } } ∧ OtherRegs s t [] [Reg.INT_STAT, Reg.QUAY_LINK_STAT] []) ∧
  (∀ (s : State) (p : PortNo), 
    Answers (.aerErrorLogged p false) s fun t => fld t (rk (8 + p.val) Reg.QUAY_LINK_ERR) 15 0 = min 65535 (fld s (rk (8 + p.val) Reg.QUAY_LINK_ERR) 15 0 + 1) ∧ t = { s with out := t.out, regs := t.regs, parBad := t.parBad, wins := t.wins, quay := { s.quay with msix := t.quay.msix }, kerb := { s.kerb with reports := t.kerb.reports }, fnt := { s.fnt with state := t.fnt.state, absorbed := t.fnt.absorbed, credit := t.fnt.credit, seed := t.fnt.seed, int := t.fnt.int, sw := t.fnt.sw, katBusy := t.fnt.katBusy, part := t.fnt.part, rngDead := t.fnt.rngDead } } ∧ OtherRegs s t [] [Reg.PAGE_STAT, Reg.INT_STAT, Reg.FAULT_CNT, Reg.QUAY_LINK_ERR] []) ∧
  (∀ (s : State) (p : PortNo), pageOn s (8 + p.val) = true → 
    Answers (.aerErrorLogged p true) s fun t => rbit t (rk (8 + p.val) Reg.INT_STAT) 3 = true ∧ t = { s with out := t.out, regs := t.regs, parBad := t.parBad, wins := t.wins, quay := { s.quay with msix := t.quay.msix }, kerb := { s.kerb with reports := t.kerb.reports }, fnt := { s.fnt with state := t.fnt.state, absorbed := t.fnt.absorbed, credit := t.fnt.credit, seed := t.fnt.seed, int := t.fnt.int, sw := t.fnt.sw, katBusy := t.fnt.katBusy, part := t.fnt.part, rngDead := t.fnt.rngDead } } ∧ OtherRegs s t [] [Reg.PAGE_STAT, Reg.INT_STAT, Reg.FAULT_CNT, Reg.QUAY_LINK_ERR] []) ∧
  (∀ (s : State) (p : PortNo) (fn : FnNo) (addr : BitVec 64) (u : Bool), pageOn s (8 + p.val) = true → 
    Answers (.poisonedTlp p fn addr none u) s fun t => rbit t (rk (8 + p.val) Reg.INT_STAT) 4 = true ∧ t = { s with out := t.out, regs := t.regs, parBad := t.parBad, wins := t.wins, quay := { s.quay with queues := t.quay.queues, doms := t.quay.doms, domRR := t.quay.domRR, ctxs := t.quay.ctxs, msix := t.quay.msix }, units := { s.units with cipher := t.units.cipher, hash := t.units.hash, arc := t.units.arc }, kerb := { s.kerb with reports := t.kerb.reports }, fnt := { s.fnt with state := t.fnt.state, absorbed := t.fnt.absorbed, credit := t.fnt.credit, seed := t.fnt.seed, int := t.fnt.int, sw := t.fnt.sw, katBusy := t.fnt.katBusy, draws := t.fnt.draws, part := t.fnt.part, got := t.fnt.got, rng := t.fnt.rng, rngDone := t.fnt.rngDone, rngDead := t.fnt.rngDead }, xing := { s.xing with mirror := t.xing.mirror, sess := t.xing.sess } } ∧ OtherRegs s t [Reg.QUAY_RPL_HITS, Reg.RBT_LATE, Reg.COMP_AUTH_FAIL, Reg.COMP_DONE] [Reg.PAGE_STAT, Reg.INT_STAT, Reg.ERR_SYND, Reg.ERR_ADDR, Reg.FAULT_CNT, Reg.QUAY_LINK_STAT, Reg.QUAY_LINK_ERR] []) ∧
  (∀ (s : State) (p : PortNo) (fn : FnNo) (addr : BitVec 64) (c : CtxNo) (x : Ctx) (u : CipherUnit), ctxAt s c.val = some x → x.eng = some (.cipher u) → x.srcEnd = none → 
    Answers (.poisonedTlp p fn addr (some c) false) s fun t => ctxAt t c.val = some { x with srcEnd := some (0x08, 0x03) } ∧ t = { s with out := t.out, regs := t.regs, parBad := t.parBad, wins := t.wins, quay := { s.quay with queues := t.quay.queues, doms := t.quay.doms, domRR := t.quay.domRR, ctxs := t.quay.ctxs, msix := t.quay.msix }, units := { s.units with cipher := t.units.cipher, hash := t.units.hash, arc := t.units.arc }, kerb := { s.kerb with reports := t.kerb.reports }, fnt := { s.fnt with state := t.fnt.state, absorbed := t.fnt.absorbed, credit := t.fnt.credit, seed := t.fnt.seed, int := t.fnt.int, sw := t.fnt.sw, katBusy := t.fnt.katBusy, draws := t.fnt.draws, part := t.fnt.part, got := t.fnt.got, rng := t.fnt.rng, rngDone := t.fnt.rngDone, rngDead := t.fnt.rngDead }, xing := { s.xing with mirror := t.xing.mirror, sess := t.xing.sess } } ∧ OtherRegs s t [Reg.QUAY_RPL_HITS, Reg.RBT_LATE, Reg.COMP_AUTH_FAIL, Reg.COMP_DONE] [Reg.PAGE_STAT, Reg.INT_STAT, Reg.ERR_SYND, Reg.ERR_ADDR, Reg.FAULT_CNT, Reg.QUAY_LINK_STAT, Reg.QUAY_LINK_ERR] [])

/-- Source bytes of a placed or running command, while its link is up and its source has not ended, are added to what the command has received, no further than it needs nor past a segment that was rejected; where a beat of them fails its Seal check, the bytes before that beat alone, and the failure is one fault of the page of a lane command's engine; where they reach a rejected segment, the source of a lane or hash command ends with ACCESS and DETAIL 0x01. Otherwise nothing is taken. Each clause names what may change beside; every other part of the state and every other register is as before. Forms whose completion it states: sourceDataArrive. (R37, R38, R59, R60, R548) -/
def Obligations.SourceData : Prop :=
  (∀ (s : State) (c : CtxNo) (x : Ctx) (bytes : Bytes), ctxAt s c.val = some x → x.phase = .placed ∨ x.phase = .running → x.srcEnd = none → linkUp s (fnPort (qFunc (queueAt s x.q))) = true → x.srcRej = false ∨ x.srcIn.length + bytes.length < srcGood x → 
    Answers (.sourceDataArrive c bytes none) s fun t => ctxAt t c.val = some { x with srcIn := x.srcIn ++ (bytes.take (srcGood x - x.srcIn.length)) } ∧ t = { s with out := t.out, regs := t.regs, parBad := t.parBad, wins := t.wins, quay := { s.quay with queues := t.quay.queues, doms := t.quay.doms, domRR := t.quay.domRR, ctxs := t.quay.ctxs, msix := t.quay.msix }, units := { s.units with cipher := t.units.cipher, hash := t.units.hash, arc := t.units.arc }, kerb := { s.kerb with reports := t.kerb.reports }, fnt := { s.fnt with state := t.fnt.state, absorbed := t.fnt.absorbed, credit := t.fnt.credit, seed := t.fnt.seed, int := t.fnt.int, sw := t.fnt.sw, katBusy := t.fnt.katBusy, draws := t.fnt.draws, part := t.fnt.part, got := t.fnt.got, rng := t.fnt.rng, rngDone := t.fnt.rngDone, rngDead := t.fnt.rngDead }, xing := { s.xing with mirror := t.xing.mirror, sess := t.xing.sess } } ∧ OtherRegs s t [Reg.QUAY_RPL_HITS, Reg.RBT_LATE, Reg.COMP_AUTH_FAIL, Reg.COMP_DONE] [Reg.PAGE_STAT, Reg.INT_STAT, Reg.ERR_SYND, Reg.ERR_ADDR, Reg.FAULT_CNT, Reg.QUAY_LINK_STAT] []) ∧
  (∀ (s : State) (c : CtxNo) (x : Ctx) (u : CipherUnit) (bytes : Bytes) (hit : Option Hit), ctxAt s c.val = some x → x.phase = .placed ∨ x.phase = .running → x.srcEnd = none → linkUp s (fnPort (qFunc (queueAt s x.q))) = true → x.eng = some (.cipher u) → pageOn s (sinkPage x) = true → (sealPass (portPage s x.q) (sinkPage x) (some c.val) x.srcIn.length (bytes.take (srcGood x - x.srcIn.length)) hit).2 = false → 
    Answers (.sourceDataArrive c bytes hit) s fun t => ctxAt t c.val = some { x with srcIn := x.srcIn ++ (sealPass (portPage s x.q) (sinkPage x) (some c.val) x.srcIn.length (bytes.take (srcGood x - x.srcIn.length)) hit).1, srcEnd := some (0x08, 0x02) } ∧ fld t (rk (sinkPage x) Reg.FAULT_CNT) 15 0 = min 65535 (fld s (rk (sinkPage x) Reg.FAULT_CNT) 15 0 + 1) ∧ t = { s with out := t.out, regs := t.regs, parBad := t.parBad, wins := t.wins, quay := { s.quay with queues := t.quay.queues, doms := t.quay.doms, domRR := t.quay.domRR, ctxs := t.quay.ctxs, msix := t.quay.msix }, units := { s.units with cipher := t.units.cipher, hash := t.units.hash, arc := t.units.arc }, kerb := { s.kerb with reports := t.kerb.reports }, fnt := { s.fnt with state := t.fnt.state, absorbed := t.fnt.absorbed, credit := t.fnt.credit, seed := t.fnt.seed, int := t.fnt.int, sw := t.fnt.sw, katBusy := t.fnt.katBusy, draws := t.fnt.draws, part := t.fnt.part, got := t.fnt.got, rng := t.fnt.rng, rngDone := t.fnt.rngDone, rngDead := t.fnt.rngDead }, xing := { s.xing with mirror := t.xing.mirror, sess := t.xing.sess } } ∧ OtherRegs s t [Reg.QUAY_RPL_HITS, Reg.RBT_LATE, Reg.COMP_AUTH_FAIL, Reg.COMP_DONE] [Reg.PAGE_STAT, Reg.INT_STAT, Reg.ERR_SYND, Reg.ERR_ADDR, Reg.FAULT_CNT, Reg.QUAY_LINK_STAT] []) ∧
  (∀ (s : State) (c : CtxNo) (x : Ctx) (u : CipherUnit) (bytes : Bytes), ctxAt s c.val = some x → x.phase = .placed ∨ x.phase = .running → x.srcEnd = none → linkUp s (fnPort (qFunc (queueAt s x.q))) = true → x.eng = some (.cipher u) → x.srcRej = true → srcGood x ≤ x.srcIn.length + bytes.length → 
    Answers (.sourceDataArrive c bytes none) s fun t => ctxAt t c.val = some { x with srcIn := x.srcIn ++ (bytes.take (srcGood x - x.srcIn.length)), srcEnd := some (0x04, 0x01) } ∧ t = { s with out := t.out, regs := t.regs, parBad := t.parBad, wins := t.wins, quay := { s.quay with queues := t.quay.queues, doms := t.quay.doms, domRR := t.quay.domRR, ctxs := t.quay.ctxs, msix := t.quay.msix }, units := { s.units with cipher := t.units.cipher, hash := t.units.hash, arc := t.units.arc }, kerb := { s.kerb with reports := t.kerb.reports }, fnt := { s.fnt with state := t.fnt.state, absorbed := t.fnt.absorbed, credit := t.fnt.credit, seed := t.fnt.seed, int := t.fnt.int, sw := t.fnt.sw, katBusy := t.fnt.katBusy, draws := t.fnt.draws, part := t.fnt.part, got := t.fnt.got, rng := t.fnt.rng, rngDone := t.fnt.rngDone, rngDead := t.fnt.rngDead }, xing := { s.xing with mirror := t.xing.mirror, sess := t.xing.sess } } ∧ OtherRegs s t [Reg.QUAY_RPL_HITS, Reg.RBT_LATE, Reg.COMP_AUTH_FAIL, Reg.COMP_DONE] [Reg.PAGE_STAT, Reg.INT_STAT, Reg.ERR_SYND, Reg.ERR_ADDR, Reg.FAULT_CNT, Reg.QUAY_LINK_STAT] []) ∧
  (∀ (s : State) (c : CtxNo) (x : Ctx) (u : HashNo) (bytes : Bytes), ctxAt s c.val = some x → x.phase = .placed ∨ x.phase = .running → x.srcEnd = none → linkUp s (fnPort (qFunc (queueAt s x.q))) = true → x.eng = some (.hash u) → x.srcRej = true → srcGood x ≤ x.srcIn.length + bytes.length → 
    Answers (.sourceDataArrive c bytes none) s fun t => ctxAt t c.val = some { x with srcIn := x.srcIn ++ (bytes.take (srcGood x - x.srcIn.length)), srcEnd := some (0x04, 0x01) } ∧ t = { s with out := t.out, regs := t.regs, parBad := t.parBad, wins := t.wins, quay := { s.quay with queues := t.quay.queues, doms := t.quay.doms, domRR := t.quay.domRR, ctxs := t.quay.ctxs, msix := t.quay.msix }, units := { s.units with cipher := t.units.cipher, hash := t.units.hash, arc := t.units.arc }, kerb := { s.kerb with reports := t.kerb.reports }, fnt := { s.fnt with state := t.fnt.state, absorbed := t.fnt.absorbed, credit := t.fnt.credit, seed := t.fnt.seed, int := t.fnt.int, sw := t.fnt.sw, katBusy := t.fnt.katBusy, draws := t.fnt.draws, part := t.fnt.part, got := t.fnt.got, rng := t.fnt.rng, rngDone := t.fnt.rngDone, rngDead := t.fnt.rngDead }, xing := { s.xing with mirror := t.xing.mirror, sess := t.xing.sess } } ∧ OtherRegs s t [Reg.QUAY_RPL_HITS, Reg.RBT_LATE, Reg.COMP_AUTH_FAIL, Reg.COMP_DONE] [Reg.PAGE_STAT, Reg.INT_STAT, Reg.ERR_SYND, Reg.ERR_ADDR, Reg.FAULT_CNT, Reg.QUAY_LINK_STAT] []) ∧
  (∀ (s : State) (c : CtxNo) (x : Ctx) (bytes : Bytes) (hit : Option Hit), ctxAt s c.val = some x → (x.phase ≠ .placed ∧ x.phase ≠ .running) ∨ x.srcEnd ≠ none ∨ linkUp s (fnPort (qFunc (queueAt s x.q))) = false → 
    Answers (.sourceDataArrive c bytes hit) s fun t => t = s)

/-- A fetched command that is next to be accepted, whose inputs pass their Seal checks and which passes checks 1 to 4, has its key operands captured and is held for its launch tick when it is timed and early; otherwise it is ready, with the current tick as its launch tick, or ends with EPOCH when the window of a key operand excludes the current epoch. One that fails checks 1 to 3 ends with that failure; one not fetched, or behind an earlier command of its queue, is not accepted. The release of a convoy takes the tick to the earliest later launch tick of a held command its fence allows, or to the tick after it where a hurry passes over it. Dispatch puts the chosen command on the given unit of its class, with a fresh invocation value where its mode needs one and one is left; a key transfer that fails its Seal check ends a lane command with ABORTED and DETAIL 0x02; where no unit is available it ends with UNSUPPORTED and DETAIL 0x05; with none to choose nothing happens. NOP completes once launched and allowed by its fence, and not before. Each clause names what may change beside; every other part of the state and every other register is as before. Forms whose completion it states: roundaboutAccept, convoyRelease, dispatch, nop. (R99, R100, R101, R109, R113, R116, R117, R118, R120, R132, R38) -/
def Obligations.Acceptance : Prop :=
  (∀ (s : State) (c : CtxNo) (x y : Ctx) (inp : AcceptIn), ctxAt s c.val = some x → x.phase = .fetched → isNextToAccept s c.val x = true → inp.descHit = none → firstFail [check1 s.life.state x.d, check2 x.d, checkMacLen s x.d, check3 (queueAt s x.q) x.d] = none → withInputs s c.val x inp = some y → holdsAfter3 s y = false → firstFail [checkParam s { y with keys := capture s (operands s y) }, check4 s { y with keys := capture s (operands s y) }, checkAfter s { y with keys := capture s (operands s y) }] = none → x.d.timed = false → epochFail s { y with keys := capture s (operands s y) } s.tick = none → 
    Answers (.roundaboutAccept c inp) s fun t => (ctxAt t c.val).map (fun z => (z.phase, z.launch, z.late, z.acc, z.keys)) = some (.ready, s.tick, false, s.quay.nextAcc, capture s (operands s y)) ∧ t = { s with out := t.out, regs := t.regs, parBad := t.parBad, wins := t.wins, quay := { s.quay with queues := t.quay.queues, doms := t.quay.doms, domRR := t.quay.domRR, ctxs := t.quay.ctxs, nextAcc := t.quay.nextAcc, msix := t.quay.msix }, units := { s.units with cipher := t.units.cipher, hash := t.units.hash, arc := t.units.arc }, kerb := { s.kerb with reports := t.kerb.reports }, fnt := { s.fnt with state := t.fnt.state, absorbed := t.fnt.absorbed, credit := t.fnt.credit, seed := t.fnt.seed, int := t.fnt.int, sw := t.fnt.sw, katBusy := t.fnt.katBusy, draws := t.fnt.draws, part := t.fnt.part, got := t.fnt.got, rng := t.fnt.rng, rngDone := t.fnt.rngDone, rngDead := t.fnt.rngDead }, xing := { s.xing with mirror := t.xing.mirror, sess := t.xing.sess } } ∧ OtherRegs s t [Reg.QUAY_RPL_HITS, Reg.RBT_LATE, Reg.COMP_AUTH_FAIL, Reg.COMP_DONE] [Reg.PAGE_STAT, Reg.INT_STAT, Reg.ERR_SYND, Reg.ERR_ADDR, Reg.FAULT_CNT, Reg.QUAY_LINK_STAT] []) ∧
  (∀ (s : State) (c : CtxNo) (x y : Ctx) (inp : AcceptIn), ctxAt s c.val = some x → x.phase = .fetched → isNextToAccept s c.val x = true → inp.descHit = none → firstFail [check1 s.life.state x.d, check2 x.d, checkMacLen s x.d, check3 (queueAt s x.q) x.d] = none → withInputs s c.val x inp = some y → holdsAfter3 s y = false → firstFail [checkParam s { y with keys := capture s (operands s y) }, check4 s { y with keys := capture s (operands s y) }, checkAfter s { y with keys := capture s (operands s y) }] = none → x.d.timed = true → x.d.launch ≤ s.tick → epochFail s { y with keys := capture s (operands s y) } s.tick = none → 
    Answers (.roundaboutAccept c inp) s fun t => (ctxAt t c.val).map (fun z => (z.phase, z.launch, z.late, z.acc, z.keys)) = some (.ready, s.tick, true, s.quay.nextAcc, capture s (operands s y)) ∧ t = { s with out := t.out, regs := t.regs, parBad := t.parBad, wins := t.wins, quay := { s.quay with queues := t.quay.queues, doms := t.quay.doms, domRR := t.quay.domRR, ctxs := t.quay.ctxs, nextAcc := t.quay.nextAcc, msix := t.quay.msix }, units := { s.units with cipher := t.units.cipher, hash := t.units.hash, arc := t.units.arc }, kerb := { s.kerb with reports := t.kerb.reports }, fnt := { s.fnt with state := t.fnt.state, absorbed := t.fnt.absorbed, credit := t.fnt.credit, seed := t.fnt.seed, int := t.fnt.int, sw := t.fnt.sw, katBusy := t.fnt.katBusy, draws := t.fnt.draws, part := t.fnt.part, got := t.fnt.got, rng := t.fnt.rng, rngDone := t.fnt.rngDone, rngDead := t.fnt.rngDead }, xing := { s.xing with mirror := t.xing.mirror, sess := t.xing.sess } } ∧ OtherRegs s t [Reg.QUAY_RPL_HITS, Reg.RBT_LATE, Reg.COMP_AUTH_FAIL, Reg.COMP_DONE] [Reg.PAGE_STAT, Reg.INT_STAT, Reg.ERR_SYND, Reg.ERR_ADDR, Reg.FAULT_CNT, Reg.QUAY_LINK_STAT] []) ∧
  (∀ (s : State) (c : CtxNo) (x y : Ctx) (inp : AcceptIn) (i : Nat), ctxAt s c.val = some x → x.phase = .fetched → isNextToAccept s c.val x = true → inp.descHit = none → firstFail [check1 s.life.state x.d, check2 x.d, checkMacLen s x.d, check3 (queueAt s x.q) x.d] = none → withInputs s c.val x inp = some y → holdsAfter3 s y = false → firstFail [checkParam s { y with keys := capture s (operands s y) }, check4 s { y with keys := capture s (operands s y) }, checkAfter s { y with keys := capture s (operands s y) }] = none → x.d.timed = false → epochFail s { y with keys := capture s (operands s y) } s.tick = some i → Deliverable s x → 
    Answers (.roundaboutAccept c inp) s fun t => Completed s t c.val x { status := 0x09, detail := i } ∧ t = { s with out := t.out, regs := t.regs, parBad := t.parBad, wins := t.wins, quay := { s.quay with queues := t.quay.queues, doms := t.quay.doms, domRR := t.quay.domRR, ctxs := t.quay.ctxs, nextAcc := t.quay.nextAcc, msix := t.quay.msix }, units := { s.units with cipher := t.units.cipher, hash := t.units.hash, arc := t.units.arc }, kerb := { s.kerb with reports := t.kerb.reports }, fnt := { s.fnt with state := t.fnt.state, absorbed := t.fnt.absorbed, credit := t.fnt.credit, seed := t.fnt.seed, int := t.fnt.int, sw := t.fnt.sw, katBusy := t.fnt.katBusy, draws := t.fnt.draws, part := t.fnt.part, got := t.fnt.got, rng := t.fnt.rng, rngDone := t.fnt.rngDone, rngDead := t.fnt.rngDead }, xing := { s.xing with mirror := t.xing.mirror, sess := t.xing.sess } } ∧ OtherRegs s t [Reg.QUAY_RPL_HITS, Reg.RBT_LATE, Reg.COMP_AUTH_FAIL, Reg.COMP_DONE] [Reg.PAGE_STAT, Reg.INT_STAT, Reg.ERR_SYND, Reg.ERR_ADDR, Reg.FAULT_CNT, Reg.QUAY_LINK_STAT] []) ∧
  (∀ (s : State) (c : CtxNo) (x y : Ctx) (inp : AcceptIn), ctxAt s c.val = some x → x.phase = .fetched → isNextToAccept s c.val x = true → inp.descHit = none → firstFail [check1 s.life.state x.d, check2 x.d, checkMacLen s x.d, check3 (queueAt s x.q) x.d] = none → withInputs s c.val x inp = some y → holdsAfter3 s y = false → firstFail [checkParam s { y with keys := capture s (operands s y) }, check4 s { y with keys := capture s (operands s y) }, checkAfter s { y with keys := capture s (operands s y) }] = none → x.d.timed = true → s.tick < x.d.launch → 
    Answers (.roundaboutAccept c inp) s fun t => (ctxAt t c.val).map (fun z => (z.phase, z.launch, z.acc, z.keys)) = some (.held, x.d.launch, s.quay.nextAcc, capture s (operands s y)) ∧ t = { s with out := t.out, regs := t.regs, parBad := t.parBad, wins := t.wins, quay := { s.quay with queues := t.quay.queues, doms := t.quay.doms, domRR := t.quay.domRR, ctxs := t.quay.ctxs, nextAcc := t.quay.nextAcc, msix := t.quay.msix }, units := { s.units with cipher := t.units.cipher, hash := t.units.hash, arc := t.units.arc }, kerb := { s.kerb with reports := t.kerb.reports }, fnt := { s.fnt with state := t.fnt.state, absorbed := t.fnt.absorbed, credit := t.fnt.credit, seed := t.fnt.seed, int := t.fnt.int, sw := t.fnt.sw, katBusy := t.fnt.katBusy, draws := t.fnt.draws, part := t.fnt.part, got := t.fnt.got, rng := t.fnt.rng, rngDone := t.fnt.rngDone, rngDead := t.fnt.rngDead }, xing := { s.xing with mirror := t.xing.mirror, sess := t.xing.sess } } ∧ OtherRegs s t [Reg.QUAY_RPL_HITS, Reg.RBT_LATE, Reg.COMP_AUTH_FAIL, Reg.COMP_DONE] [Reg.PAGE_STAT, Reg.INT_STAT, Reg.ERR_SYND, Reg.ERR_ADDR, Reg.FAULT_CNT, Reg.QUAY_LINK_STAT] []) ∧
  (∀ (s : State) (c : CtxNo) (x : Ctx) (inp : AcceptIn) (f : Nat × Nat), ctxAt s c.val = some x → x.phase = .fetched → isNextToAccept s c.val x = true → inp.descHit = none → firstFail [check1 s.life.state x.d, check2 x.d, checkMacLen s x.d, check3 (queueAt s x.q) x.d] = some f → Deliverable s x → 
    Answers (.roundaboutAccept c inp) s fun t => Completed s t c.val x { status := f.1, detail := f.2, result := ivResult x } ∧ t = { s with out := t.out, regs := t.regs, parBad := t.parBad, wins := t.wins, quay := { s.quay with queues := t.quay.queues, doms := t.quay.doms, domRR := t.quay.domRR, ctxs := t.quay.ctxs, nextAcc := t.quay.nextAcc, msix := t.quay.msix }, units := { s.units with cipher := t.units.cipher, hash := t.units.hash, arc := t.units.arc }, kerb := { s.kerb with reports := t.kerb.reports }, fnt := { s.fnt with state := t.fnt.state, absorbed := t.fnt.absorbed, credit := t.fnt.credit, seed := t.fnt.seed, int := t.fnt.int, sw := t.fnt.sw, katBusy := t.fnt.katBusy, draws := t.fnt.draws, part := t.fnt.part, got := t.fnt.got, rng := t.fnt.rng, rngDone := t.fnt.rngDone, rngDead := t.fnt.rngDead }, xing := { s.xing with mirror := t.xing.mirror, sess := t.xing.sess } } ∧ OtherRegs s t [Reg.QUAY_RPL_HITS, Reg.RBT_LATE, Reg.COMP_AUTH_FAIL, Reg.COMP_DONE] [Reg.PAGE_STAT, Reg.INT_STAT, Reg.ERR_SYND, Reg.ERR_ADDR, Reg.FAULT_CNT, Reg.QUAY_LINK_STAT] []) ∧
  (∀ (s : State) (c : CtxNo) (inp : AcceptIn), (ctxAt s c.val).any (fun x => decide (x.phase = .fetched) && isNextToAccept s c.val x) = false → 
    Answers (.roundaboutAccept c inp) s fun t => t = s) ∧
  (∀ (s : State) (e : Nat × Ctx) (l : List (Nat × Ctx)), ticking s = true → (heldWhere s fun c x => decide (s.tick < x.launch) && fenceOk s c x) = e :: l → 
    Answers (.convoyRelease) s fun t => t.tick = e.2.launch + (slewAfter s.clk (e.2.launch - s.tick)).2 ∧ t = { s with out := t.out, tick := t.tick, regs := t.regs, parBad := t.parBad, wins := t.wins, quay := { s.quay with queues := t.quay.queues, doms := t.quay.doms, domRR := t.quay.domRR, ctxs := t.quay.ctxs, msix := t.quay.msix }, units := { s.units with cipher := t.units.cipher, hash := t.units.hash, arc := t.units.arc }, kerb := { s.kerb with reports := t.kerb.reports }, fnt := { s.fnt with state := t.fnt.state, absorbed := t.fnt.absorbed, credit := t.fnt.credit, seed := t.fnt.seed, int := t.fnt.int, sw := t.fnt.sw, katBusy := t.fnt.katBusy, draws := t.fnt.draws, part := t.fnt.part, got := t.fnt.got, rng := t.fnt.rng, rngDone := t.fnt.rngDone, rngDead := t.fnt.rngDead }, xing := { s.xing with mirror := t.xing.mirror, sess := t.xing.sess }, clk := { s.clk with corr := t.clk.corr, gap := t.clk.gap, lock := t.clk.lock, syncOut := t.clk.syncOut }, chk := { s.chk with rules := t.chk.rules, rcmd := t.chk.rcmd } } ∧ OtherRegs s t [Reg.QUAY_RPL_HITS, Reg.RBT_LATE, Reg.COMP_AUTH_FAIL, Reg.COMP_DONE, Reg.CHECKPOINT_RCMD] [Reg.PAGE_STAT, Reg.INT_STAT, Reg.ERR_SYND, Reg.ERR_ADDR, Reg.FAULT_CNT, Reg.QUAY_LINK_STAT] [0x40]) ∧
  (∀ (s : State), ticking s = false ∨ (heldWhere s fun c x => decide (s.tick < x.launch) && fenceOk s c x) = [] → 
    Answers (.convoyRelease) s fun t => t = s) ∧
  (∀ (s : State) (c : CtxNo) (x : Ctx) (u : LaneNo), chooseNext s .lane u.val = some (c.val, x) → anyAvail s x.d = true → takesInv x.d = false → 
    Answers (.dispatch .lane u.val ⟨.clean, none⟩) s fun t => (cunit t u.val).ctx = some c.val ∧ (ctxAt t c.val).map (fun z => (z.phase, z.eng)) = some (.placed, some (.cipher (Fin.castLE (by decide) u))) ∧ t = { s with out := t.out, regs := t.regs, parBad := t.parBad, wins := t.wins, quay := { s.quay with queues := t.quay.queues, doms := t.quay.doms, domRR := t.quay.domRR, ctxs := t.quay.ctxs, msix := t.quay.msix, rr := t.quay.rr }, units := { s.units with cipher := t.units.cipher, hash := t.units.hash, arc := t.units.arc, heldEnd := t.units.heldEnd }, mews := { s.mews with slots := t.mews.slots, cascades := t.mews.cascades, ctrs := t.mews.ctrs, dukpt := t.mews.dukpt }, kerb := { s.kerb with reports := t.kerb.reports }, fnt := { s.fnt with state := t.fnt.state, absorbed := t.fnt.absorbed, credit := t.fnt.credit, seed := t.fnt.seed, int := t.fnt.int, sw := t.fnt.sw, katBusy := t.fnt.katBusy, draws := t.fnt.draws, part := t.fnt.part, got := t.fnt.got, rng := t.fnt.rng, rngDone := t.fnt.rngDone, rngDead := t.fnt.rngDead }, curves := t.curves, xing := { s.xing with mirror := t.xing.mirror, sess := t.xing.sess }, chk := { s.chk with slotBad := t.chk.slotBad } } ∧ OtherRegs s t [Reg.QUAY_RPL_HITS, Reg.RBT_LATE, Reg.RBT_DISPATCHED, Reg.LANE_CTR_END, Reg.MEWS_REVOKES, Reg.MEWS_KT_ECC, Reg.COMP_AUTH_FAIL, Reg.COMP_DUKPT_END, Reg.COMP_DONE, Reg.CHECKPOINT_SRAM_ECC] [Reg.PAGE_STAT, Reg.INT_STAT, Reg.ERR_SYND, Reg.ERR_ADDR, Reg.FAULT_CNT, Reg.QUAY_LINK_STAT] []) ∧
  (∀ (s : State) (c : CtxNo) (x : Ctx) (u : LaneNo) (value blk : Nat) (v : Ctr), chooseNext s .lane u.val = some (c.val, x) → anyAvail s x.d = true → takesInv x.d = true → takeInv (ctrAt s (keySlotNo x)) = some (value, blk, v) → 
    Answers (.dispatch .lane u.val ⟨.clean, none⟩) s fun t => (cunit t u.val).ctx = some c.val ∧ ctrAt t (keySlotNo x) = v ∧ (ctxAt t c.val).map (fun z => (z.phase, z.inv, z.fixed, z.waitRsv)) = some (.placed, some value, if blkConfirmed v blk then fixedField s x.q else 0, !blkConfirmed v blk) ∧ t = { s with out := t.out, regs := t.regs, parBad := t.parBad, wins := t.wins, quay := { s.quay with queues := t.quay.queues, doms := t.quay.doms, domRR := t.quay.domRR, ctxs := t.quay.ctxs, msix := t.quay.msix, rr := t.quay.rr }, units := { s.units with cipher := t.units.cipher, hash := t.units.hash, arc := t.units.arc, heldEnd := t.units.heldEnd }, mews := { s.mews with slots := t.mews.slots, cascades := t.mews.cascades, ctrs := t.mews.ctrs, dukpt := t.mews.dukpt }, kerb := { s.kerb with reports := t.kerb.reports }, fnt := { s.fnt with state := t.fnt.state, absorbed := t.fnt.absorbed, credit := t.fnt.credit, seed := t.fnt.seed, int := t.fnt.int, sw := t.fnt.sw, katBusy := t.fnt.katBusy, draws := t.fnt.draws, part := t.fnt.part, got := t.fnt.got, rng := t.fnt.rng, rngDone := t.fnt.rngDone, rngDead := t.fnt.rngDead }, curves := t.curves, xing := { s.xing with mirror := t.xing.mirror, sess := t.xing.sess }, chk := { s.chk with slotBad := t.chk.slotBad } } ∧ OtherRegs s t [Reg.QUAY_RPL_HITS, Reg.RBT_LATE, Reg.RBT_DISPATCHED, Reg.LANE_CTR_END, Reg.MEWS_REVOKES, Reg.MEWS_KT_ECC, Reg.COMP_AUTH_FAIL, Reg.COMP_DUKPT_END, Reg.COMP_DONE, Reg.CHECKPOINT_SRAM_ECC] [Reg.PAGE_STAT, Reg.INT_STAT, Reg.ERR_SYND, Reg.ERR_ADDR, Reg.FAULT_CNT, Reg.QUAY_LINK_STAT] []) ∧
  (∀ (s : State) (c : CtxNo) (x : Ctx) (u : LaneNo), chooseNext s .lane u.val = some (c.val, x) → ctxAt s c.val = some x → anyAvail s x.d = true → takesInv x.d = true → takeInv (ctrAt s (keySlotNo x)) = none → Deliverable s x → 
    Answers (.dispatch .lane u.val ⟨.clean, none⟩) s fun t => Completed s t c.val x { status := 0x03, detail := 0x06, result := ivResult x } ∧ fld t Reg.LANE_CTR_END 15 0 = keySlotNo x % 2 ^ 16 ∧ t = { s with out := t.out, regs := t.regs, parBad := t.parBad, wins := t.wins, quay := { s.quay with queues := t.quay.queues, doms := t.quay.doms, domRR := t.quay.domRR, ctxs := t.quay.ctxs, msix := t.quay.msix, rr := t.quay.rr }, units := { s.units with cipher := t.units.cipher, hash := t.units.hash, arc := t.units.arc, heldEnd := t.units.heldEnd }, mews := { s.mews with slots := t.mews.slots, cascades := t.mews.cascades, ctrs := t.mews.ctrs, dukpt := t.mews.dukpt }, kerb := { s.kerb with reports := t.kerb.reports }, fnt := { s.fnt with state := t.fnt.state, absorbed := t.fnt.absorbed, credit := t.fnt.credit, seed := t.fnt.seed, int := t.fnt.int, sw := t.fnt.sw, katBusy := t.fnt.katBusy, draws := t.fnt.draws, part := t.fnt.part, got := t.fnt.got, rng := t.fnt.rng, rngDone := t.fnt.rngDone, rngDead := t.fnt.rngDead }, curves := t.curves, xing := { s.xing with mirror := t.xing.mirror, sess := t.xing.sess }, chk := { s.chk with slotBad := t.chk.slotBad } } ∧ OtherRegs s t [Reg.QUAY_RPL_HITS, Reg.RBT_LATE, Reg.RBT_DISPATCHED, Reg.LANE_CTR_END, Reg.MEWS_REVOKES, Reg.MEWS_KT_ECC, Reg.COMP_AUTH_FAIL, Reg.COMP_DUKPT_END, Reg.COMP_DONE, Reg.CHECKPOINT_SRAM_ECC] [Reg.PAGE_STAT, Reg.INT_STAT, Reg.ERR_SYND, Reg.ERR_ADDR, Reg.FAULT_CNT, Reg.QUAY_LINK_STAT] []) ∧
  (∀ (s : State) (c : CtxNo) (x : Ctx) (u : LaneNo) (hit : Option Hit), chooseNext s .lane u.val = some (c.val, x) → anyAvail s x.d = true → takesInv x.d = false → (cunit s u.val).key ≠ keyTags x → keyBus s (cunitPage u.val) c.val x hit = none → Deliverable s x → 
    Answers (.dispatch .lane u.val ⟨.clean, hit⟩) s fun t => Completed s t c.val x { status := 0x08, detail := 0x02 } ∧ t = { s with out := t.out, regs := t.regs, parBad := t.parBad, wins := t.wins, quay := { s.quay with queues := t.quay.queues, doms := t.quay.doms, domRR := t.quay.domRR, ctxs := t.quay.ctxs, msix := t.quay.msix, rr := t.quay.rr }, units := { s.units with cipher := t.units.cipher, hash := t.units.hash, arc := t.units.arc, heldEnd := t.units.heldEnd }, mews := { s.mews with slots := t.mews.slots, cascades := t.mews.cascades, ctrs := t.mews.ctrs, dukpt := t.mews.dukpt }, kerb := { s.kerb with reports := t.kerb.reports }, fnt := { s.fnt with state := t.fnt.state, absorbed := t.fnt.absorbed, credit := t.fnt.credit, seed := t.fnt.seed, int := t.fnt.int, sw := t.fnt.sw, katBusy := t.fnt.katBusy, draws := t.fnt.draws, part := t.fnt.part, got := t.fnt.got, rng := t.fnt.rng, rngDone := t.fnt.rngDone, rngDead := t.fnt.rngDead }, curves := t.curves, xing := { s.xing with mirror := t.xing.mirror, sess := t.xing.sess }, chk := { s.chk with slotBad := t.chk.slotBad } } ∧ OtherRegs s t [Reg.QUAY_RPL_HITS, Reg.RBT_LATE, Reg.RBT_DISPATCHED, Reg.LANE_CTR_END, Reg.MEWS_REVOKES, Reg.MEWS_KT_ECC, Reg.COMP_AUTH_FAIL, Reg.COMP_DUKPT_END, Reg.COMP_DONE, Reg.CHECKPOINT_SRAM_ECC] [Reg.PAGE_STAT, Reg.INT_STAT, Reg.ERR_SYND, Reg.ERR_ADDR, Reg.FAULT_CNT, Reg.QUAY_LINK_STAT] []) ∧
  (∀ (s : State) (c : CtxNo) (x : Ctx) (u : PipeNo), chooseNext s .blvd u.val = some (c.val, x) → anyAvail s x.d = true → takesInv x.d = false → 
    Answers (.dispatch .blvd u.val ⟨.clean, none⟩) s fun t => (cunit t (64 + u.val)).ctx = some c.val ∧ (ctxAt t c.val).map (fun z => (z.phase, z.eng)) = some (.placed, some (.cipher (Fin.natAdd 64 u))) ∧ t = { s with out := t.out, regs := t.regs, parBad := t.parBad, wins := t.wins, quay := { s.quay with queues := t.quay.queues, doms := t.quay.doms, domRR := t.quay.domRR, ctxs := t.quay.ctxs, msix := t.quay.msix, rr := t.quay.rr }, units := { s.units with cipher := t.units.cipher, hash := t.units.hash, arc := t.units.arc, heldEnd := t.units.heldEnd }, mews := { s.mews with slots := t.mews.slots, cascades := t.mews.cascades, ctrs := t.mews.ctrs, dukpt := t.mews.dukpt }, kerb := { s.kerb with reports := t.kerb.reports }, fnt := { s.fnt with state := t.fnt.state, absorbed := t.fnt.absorbed, credit := t.fnt.credit, seed := t.fnt.seed, int := t.fnt.int, sw := t.fnt.sw, katBusy := t.fnt.katBusy, draws := t.fnt.draws, part := t.fnt.part, got := t.fnt.got, rng := t.fnt.rng, rngDone := t.fnt.rngDone, rngDead := t.fnt.rngDead }, curves := t.curves, xing := { s.xing with mirror := t.xing.mirror, sess := t.xing.sess }, chk := { s.chk with slotBad := t.chk.slotBad } } ∧ OtherRegs s t [Reg.QUAY_RPL_HITS, Reg.RBT_LATE, Reg.RBT_DISPATCHED, Reg.LANE_CTR_END, Reg.MEWS_REVOKES, Reg.MEWS_KT_ECC, Reg.COMP_AUTH_FAIL, Reg.COMP_DUKPT_END, Reg.COMP_DONE, Reg.CHECKPOINT_SRAM_ECC] [Reg.PAGE_STAT, Reg.INT_STAT, Reg.ERR_SYND, Reg.ERR_ADDR, Reg.FAULT_CNT, Reg.QUAY_LINK_STAT] []) ∧
  (∀ (s : State) (c : CtxNo) (x : Ctx) (u : HashNo), chooseNext s .hash u.val = some (c.val, x) → anyAvail s x.d = true → 
    Answers (.dispatch .hash u.val ⟨.clean, none⟩) s fun t => (hunit t u.val).ctx = some c.val ∧ (ctxAt t c.val).map (fun z => (z.phase, z.eng)) = some (.placed, some (.hash u)) ∧ t = { s with out := t.out, regs := t.regs, parBad := t.parBad, wins := t.wins, quay := { s.quay with queues := t.quay.queues, doms := t.quay.doms, domRR := t.quay.domRR, ctxs := t.quay.ctxs, msix := t.quay.msix, rr := t.quay.rr }, units := { s.units with cipher := t.units.cipher, hash := t.units.hash, arc := t.units.arc, heldEnd := t.units.heldEnd }, mews := { s.mews with slots := t.mews.slots, cascades := t.mews.cascades, ctrs := t.mews.ctrs, dukpt := t.mews.dukpt }, kerb := { s.kerb with reports := t.kerb.reports }, fnt := { s.fnt with state := t.fnt.state, absorbed := t.fnt.absorbed, credit := t.fnt.credit, seed := t.fnt.seed, int := t.fnt.int, sw := t.fnt.sw, katBusy := t.fnt.katBusy, draws := t.fnt.draws, part := t.fnt.part, got := t.fnt.got, rng := t.fnt.rng, rngDone := t.fnt.rngDone, rngDead := t.fnt.rngDead }, curves := t.curves, xing := { s.xing with mirror := t.xing.mirror, sess := t.xing.sess }, chk := { s.chk with slotBad := t.chk.slotBad } } ∧ OtherRegs s t [Reg.QUAY_RPL_HITS, Reg.RBT_LATE, Reg.RBT_DISPATCHED, Reg.LANE_CTR_END, Reg.MEWS_REVOKES, Reg.MEWS_KT_ECC, Reg.COMP_AUTH_FAIL, Reg.COMP_DUKPT_END, Reg.COMP_DONE, Reg.CHECKPOINT_SRAM_ECC] [Reg.PAGE_STAT, Reg.INT_STAT, Reg.ERR_SYND, Reg.ERR_ADDR, Reg.FAULT_CNT, Reg.QUAY_LINK_STAT] []) ∧
  (∀ (s : State) (c : CtxNo) (x : Ctx) (u : ArcNo), chooseNext s .arcade u.val = some (c.val, x) → anyAvail s x.d = true → 
    Answers (.dispatch .arcade u.val ⟨.clean, none⟩) s fun t => (aunit t u.val).ctx = some c.val ∧ fld t (rk (0x20 + u.val) Reg.ARC_MODE) 14 12 = arcCur x.d % 8 ∧ (ctxAt t c.val).map (fun z => (z.phase, z.eng)) = some (.placed, some (.arcade u)) ∧ t = { s with out := t.out, regs := t.regs, parBad := t.parBad, wins := t.wins, quay := { s.quay with queues := t.quay.queues, doms := t.quay.doms, domRR := t.quay.domRR, ctxs := t.quay.ctxs, msix := t.quay.msix, rr := t.quay.rr }, units := { s.units with cipher := t.units.cipher, hash := t.units.hash, arc := t.units.arc, heldEnd := t.units.heldEnd }, mews := { s.mews with slots := t.mews.slots, cascades := t.mews.cascades, ctrs := t.mews.ctrs, dukpt := t.mews.dukpt }, kerb := { s.kerb with reports := t.kerb.reports }, fnt := { s.fnt with state := t.fnt.state, absorbed := t.fnt.absorbed, credit := t.fnt.credit, seed := t.fnt.seed, int := t.fnt.int, sw := t.fnt.sw, katBusy := t.fnt.katBusy, draws := t.fnt.draws, part := t.fnt.part, got := t.fnt.got, rng := t.fnt.rng, rngDone := t.fnt.rngDone, rngDead := t.fnt.rngDead }, curves := t.curves, xing := { s.xing with mirror := t.xing.mirror, sess := t.xing.sess }, chk := { s.chk with slotBad := t.chk.slotBad } } ∧ OtherRegs s t [Reg.QUAY_RPL_HITS, Reg.RBT_LATE, Reg.RBT_DISPATCHED, Reg.LANE_CTR_END, Reg.MEWS_REVOKES, Reg.MEWS_KT_ECC, Reg.COMP_AUTH_FAIL, Reg.COMP_DUKPT_END, Reg.COMP_DONE, Reg.CHECKPOINT_SRAM_ECC] [Reg.PAGE_STAT, Reg.INT_STAT, Reg.ERR_SYND, Reg.ERR_ADDR, Reg.FAULT_CNT, Reg.QUAY_LINK_STAT] []) ∧
  (∀ (s : State) (c : CtxNo) (x : Ctx) (u : Nat), chooseNext s .mews u = some (c.val, x) → anyAvail s x.d = true → x.eng = none → x.resv = [] → (checkSegs (queueAt s x.q) false x.srcs (srcNeed x) (x.srcs.length + 1) 0).2 = false → 
    Answers (.dispatch .mews u ⟨.clean, none⟩) s fun t => (ctxAt t c.val).map (·.phase) = some .placed ∧ t = { s with out := t.out, regs := t.regs, parBad := t.parBad, wins := t.wins, quay := { s.quay with queues := t.quay.queues, doms := t.quay.doms, domRR := t.quay.domRR, ctxs := t.quay.ctxs, msix := t.quay.msix, rr := t.quay.rr }, units := { s.units with cipher := t.units.cipher, hash := t.units.hash, arc := t.units.arc, heldEnd := t.units.heldEnd }, mews := { s.mews with slots := t.mews.slots, cascades := t.mews.cascades, ctrs := t.mews.ctrs, dukpt := t.mews.dukpt }, kerb := { s.kerb with reports := t.kerb.reports }, fnt := { s.fnt with state := t.fnt.state, absorbed := t.fnt.absorbed, credit := t.fnt.credit, seed := t.fnt.seed, int := t.fnt.int, sw := t.fnt.sw, katBusy := t.fnt.katBusy, draws := t.fnt.draws, part := t.fnt.part, got := t.fnt.got, rng := t.fnt.rng, rngDone := t.fnt.rngDone, rngDead := t.fnt.rngDead }, curves := t.curves, xing := { s.xing with mirror := t.xing.mirror, sess := t.xing.sess }, chk := { s.chk with slotBad := t.chk.slotBad } } ∧ OtherRegs s t [Reg.QUAY_RPL_HITS, Reg.RBT_LATE, Reg.RBT_DISPATCHED, Reg.LANE_CTR_END, Reg.MEWS_REVOKES, Reg.MEWS_KT_ECC, Reg.COMP_AUTH_FAIL, Reg.COMP_DUKPT_END, Reg.COMP_DONE, Reg.CHECKPOINT_SRAM_ECC] [Reg.PAGE_STAT, Reg.INT_STAT, Reg.ERR_SYND, Reg.ERR_ADDR, Reg.FAULT_CNT, Reg.QUAY_LINK_STAT] []) ∧
  (∀ (s : State) (c : CtxNo) (x : Ctx) (u : Nat), chooseNext s .fountain u = some (c.val, x) → anyAvail s x.d = true → x.eng = none → x.resv = [] → (checkSegs (queueAt s x.q) false x.srcs (srcNeed x) (x.srcs.length + 1) 0).2 = false → 
    Answers (.dispatch .fountain u ⟨.clean, none⟩) s fun t => (ctxAt t c.val).map (·.phase) = some .placed ∧ t.fnt.rng = s.fnt.rng ++ [.cmd c.val] ∧ t = { s with out := t.out, regs := t.regs, parBad := t.parBad, wins := t.wins, quay := { s.quay with queues := t.quay.queues, doms := t.quay.doms, domRR := t.quay.domRR, ctxs := t.quay.ctxs, msix := t.quay.msix, rr := t.quay.rr }, units := { s.units with cipher := t.units.cipher, hash := t.units.hash, arc := t.units.arc, heldEnd := t.units.heldEnd }, mews := { s.mews with slots := t.mews.slots, cascades := t.mews.cascades, ctrs := t.mews.ctrs, dukpt := t.mews.dukpt }, kerb := { s.kerb with reports := t.kerb.reports }, fnt := { s.fnt with state := t.fnt.state, absorbed := t.fnt.absorbed, credit := t.fnt.credit, seed := t.fnt.seed, int := t.fnt.int, sw := t.fnt.sw, katBusy := t.fnt.katBusy, draws := t.fnt.draws, part := t.fnt.part, got := t.fnt.got, rng := t.fnt.rng, rngDone := t.fnt.rngDone, rngDead := t.fnt.rngDead }, curves := t.curves, xing := { s.xing with mirror := t.xing.mirror, sess := t.xing.sess }, chk := { s.chk with slotBad := t.chk.slotBad } } ∧ OtherRegs s t [Reg.QUAY_RPL_HITS, Reg.RBT_LATE, Reg.RBT_DISPATCHED, Reg.LANE_CTR_END, Reg.MEWS_REVOKES, Reg.MEWS_KT_ECC, Reg.COMP_AUTH_FAIL, Reg.COMP_DUKPT_END, Reg.COMP_DONE, Reg.CHECKPOINT_SRAM_ECC] [Reg.PAGE_STAT, Reg.INT_STAT, Reg.ERR_SYND, Reg.ERR_ADDR, Reg.FAULT_CNT, Reg.QUAY_LINK_STAT] []) ∧
  (∀ (s : State) (c : CtxNo) (x : Ctx) (u : LaneNo), chooseNext s .composite u.val = some (c.val, x) → anyAvail s x.d = true → x.eng = none → x.d.opcode ≠ 0x63 → 
    Answers (.dispatch .composite u.val ⟨.clean, none⟩) s fun t => (cunit t u.val).ctx = some c.val ∧ (ctxAt t c.val).map (fun z => (z.phase, z.resv.head?)) = some (.placed, some (.cipher (Fin.castLE (by decide) u))) ∧ t = { s with out := t.out, regs := t.regs, parBad := t.parBad, wins := t.wins, quay := { s.quay with queues := t.quay.queues, doms := t.quay.doms, domRR := t.quay.domRR, ctxs := t.quay.ctxs, msix := t.quay.msix, rr := t.quay.rr }, units := { s.units with cipher := t.units.cipher, hash := t.units.hash, arc := t.units.arc, heldEnd := t.units.heldEnd }, mews := { s.mews with slots := t.mews.slots, cascades := t.mews.cascades, ctrs := t.mews.ctrs, dukpt := t.mews.dukpt }, kerb := { s.kerb with reports := t.kerb.reports }, fnt := { s.fnt with state := t.fnt.state, absorbed := t.fnt.absorbed, credit := t.fnt.credit, seed := t.fnt.seed, int := t.fnt.int, sw := t.fnt.sw, katBusy := t.fnt.katBusy, draws := t.fnt.draws, part := t.fnt.part, got := t.fnt.got, rng := t.fnt.rng, rngDone := t.fnt.rngDone, rngDead := t.fnt.rngDead }, curves := t.curves, xing := { s.xing with mirror := t.xing.mirror, sess := t.xing.sess }, chk := { s.chk with slotBad := t.chk.slotBad } } ∧ OtherRegs s t [Reg.QUAY_RPL_HITS, Reg.RBT_LATE, Reg.RBT_DISPATCHED, Reg.LANE_CTR_END, Reg.MEWS_REVOKES, Reg.MEWS_KT_ECC, Reg.COMP_AUTH_FAIL, Reg.COMP_DUKPT_END, Reg.COMP_DONE, Reg.CHECKPOINT_SRAM_ECC] [Reg.PAGE_STAT, Reg.INT_STAT, Reg.ERR_SYND, Reg.ERR_ADDR, Reg.FAULT_CNT, Reg.QUAY_LINK_STAT] []) ∧
  (∀ (s : State) (c : CtxNo) (x : Ctx) (cls : EngClass) (u : Nat) (ecc : EccSeen) (hit : Option Hit), chooseNext s cls u = some (c.val, x) → ctxAt s c.val = some x → anyAvail s x.d = false → Deliverable s x → 
    Answers (.dispatch cls u ⟨ecc, hit⟩) s fun t => Completed s t c.val x { status := 0x0B, detail := 0x05, result := ivResult x } ∧ t = { s with out := t.out, regs := t.regs, parBad := t.parBad, wins := t.wins, quay := { s.quay with queues := t.quay.queues, doms := t.quay.doms, domRR := t.quay.domRR, ctxs := t.quay.ctxs, msix := t.quay.msix, rr := t.quay.rr }, units := { s.units with cipher := t.units.cipher, hash := t.units.hash, arc := t.units.arc, heldEnd := t.units.heldEnd }, mews := { s.mews with slots := t.mews.slots, cascades := t.mews.cascades, ctrs := t.mews.ctrs, dukpt := t.mews.dukpt }, kerb := { s.kerb with reports := t.kerb.reports }, fnt := { s.fnt with state := t.fnt.state, absorbed := t.fnt.absorbed, credit := t.fnt.credit, seed := t.fnt.seed, int := t.fnt.int, sw := t.fnt.sw, katBusy := t.fnt.katBusy, draws := t.fnt.draws, part := t.fnt.part, got := t.fnt.got, rng := t.fnt.rng, rngDone := t.fnt.rngDone, rngDead := t.fnt.rngDead }, curves := t.curves, xing := { s.xing with mirror := t.xing.mirror, sess := t.xing.sess }, chk := { s.chk with slotBad := t.chk.slotBad } } ∧ OtherRegs s t [Reg.QUAY_RPL_HITS, Reg.RBT_LATE, Reg.RBT_DISPATCHED, Reg.LANE_CTR_END, Reg.MEWS_REVOKES, Reg.MEWS_KT_ECC, Reg.COMP_AUTH_FAIL, Reg.COMP_DUKPT_END, Reg.COMP_DONE, Reg.CHECKPOINT_SRAM_ECC] [Reg.PAGE_STAT, Reg.INT_STAT, Reg.ERR_SYND, Reg.ERR_ADDR, Reg.FAULT_CNT, Reg.QUAY_LINK_STAT] []) ∧
  (∀ (s : State) (cls : EngClass) (u : Nat) (ecc : EccSeen) (hit : Option Hit), chooseNext s cls u = none → 
    Answers (.dispatch cls u ⟨ecc, hit⟩) s fun t => t = s) ∧
  (∀ (s : State) (c : CtxNo) (x : Ctx), ctxAt s c.val = some x → x.d.opcode = 0x00 → x.phase = .ready → fenceOk s c.val x = true → Deliverable s x → 
    Answers (.nop c) s fun t => Completed s t c.val x { detail := b2n x.late } ∧ t = { s with out := t.out, regs := t.regs, parBad := t.parBad, wins := t.wins, quay := { s.quay with queues := t.quay.queues, doms := t.quay.doms, domRR := t.quay.domRR, ctxs := t.quay.ctxs, msix := t.quay.msix }, units := { s.units with cipher := t.units.cipher, hash := t.units.hash, arc := t.units.arc }, kerb := { s.kerb with reports := t.kerb.reports }, fnt := { s.fnt with state := t.fnt.state, absorbed := t.fnt.absorbed, credit := t.fnt.credit, seed := t.fnt.seed, int := t.fnt.int, sw := t.fnt.sw, katBusy := t.fnt.katBusy, draws := t.fnt.draws, part := t.fnt.part, got := t.fnt.got, rng := t.fnt.rng, rngDone := t.fnt.rngDone, rngDead := t.fnt.rngDead }, xing := { s.xing with mirror := t.xing.mirror, sess := t.xing.sess } } ∧ OtherRegs s t [Reg.QUAY_RPL_HITS, Reg.RBT_LATE, Reg.COMP_AUTH_FAIL, Reg.COMP_DONE] [Reg.PAGE_STAT, Reg.INT_STAT, Reg.ERR_SYND, Reg.ERR_ADDR, Reg.FAULT_CNT, Reg.QUAY_LINK_STAT] []) ∧
  (∀ (s : State) (c : CtxNo), (ctxAt s c.val).any (fun x => x.d.opcode == 0x00 && decide (x.phase = .ready) && fenceOk s c.val x) = false → 
    Answers (.nop c) s fun t => t = s)

/-- ENCRYPT, DECRYPT, MAC_GENERATE, MAC_VERIFY, WRAP, UNWRAP, HASH, HMAC_GENERATE and HMAC_VERIFY, placed on their unit and not waiting for a reservation, run from then on with the IV, nonce or counter block the command gives or the device has formed; otherwise nothing happens. Each clause names what may change beside; every other part of the state and every other register is as before. Forms whose completion it states: encrypt, decrypt, macGenerate, macVerify, wrap, unwrap, hash, hmacGenerate, hmacVerify. (R95, R123, R136, R138, R550) -/
def Obligations.CipherAndHashOpcodes : Prop :=
  (∀ (s : State) (c : CtxNo) (x : Ctx), ctxAt s c.val = some x → x.phase = .placed → x.waitRsv = false → x.d.opcode = 0x10 → 
    Answers (.encrypt c) s fun t => ctxAt t c.val = some { x with phase := .running, iv := startIv x } ∧ t.units = s.units ∧ t.out = s.out ∧ t = { s with quay := { s.quay with ctxs := t.quay.ctxs } }) ∧
  (∀ (s : State) (c : CtxNo), (ctxAt s c.val).any (fun x => decide (x.phase = .placed) && !x.waitRsv && x.d.opcode == 0x10) = false → 
    Answers (.encrypt c) s fun t => t = s) ∧
  (∀ (s : State) (c : CtxNo) (x : Ctx), ctxAt s c.val = some x → x.phase = .placed → x.waitRsv = false → x.d.opcode = 0x11 → 
    Answers (.decrypt c) s fun t => ctxAt t c.val = some { x with phase := .running, iv := startIv x } ∧ t.units = s.units ∧ t.out = s.out ∧ t = { s with quay := { s.quay with ctxs := t.quay.ctxs } }) ∧
  (∀ (s : State) (c : CtxNo), (ctxAt s c.val).any (fun x => decide (x.phase = .placed) && !x.waitRsv && x.d.opcode == 0x11) = false → 
    Answers (.decrypt c) s fun t => t = s) ∧
  (∀ (s : State) (c : CtxNo) (x : Ctx), ctxAt s c.val = some x → x.phase = .placed → x.waitRsv = false → x.d.opcode = 0x12 → 
    Answers (.macGenerate c) s fun t => ctxAt t c.val = some { x with phase := .running, iv := startIv x } ∧ t.units = s.units ∧ t.out = s.out ∧ t = { s with quay := { s.quay with ctxs := t.quay.ctxs } }) ∧
  (∀ (s : State) (c : CtxNo), (ctxAt s c.val).any (fun x => decide (x.phase = .placed) && !x.waitRsv && x.d.opcode == 0x12) = false → 
    Answers (.macGenerate c) s fun t => t = s) ∧
  (∀ (s : State) (c : CtxNo) (x : Ctx), ctxAt s c.val = some x → x.phase = .placed → x.waitRsv = false → x.d.opcode = 0x13 → 
    Answers (.macVerify c) s fun t => ctxAt t c.val = some { x with phase := .running, iv := startIv x } ∧ t.units = s.units ∧ t.out = s.out ∧ t = { s with quay := { s.quay with ctxs := t.quay.ctxs } }) ∧
  (∀ (s : State) (c : CtxNo), (ctxAt s c.val).any (fun x => decide (x.phase = .placed) && !x.waitRsv && x.d.opcode == 0x13) = false → 
    Answers (.macVerify c) s fun t => t = s) ∧
  (∀ (s : State) (c : CtxNo) (x : Ctx), ctxAt s c.val = some x → x.phase = .placed → x.waitRsv = false → x.d.opcode = 0x14 → 
    Answers (.wrap c) s fun t => ctxAt t c.val = some { x with phase := .running, iv := startIv x } ∧ t.units = s.units ∧ t.out = s.out ∧ t = { s with quay := { s.quay with ctxs := t.quay.ctxs } }) ∧
  (∀ (s : State) (c : CtxNo), (ctxAt s c.val).any (fun x => decide (x.phase = .placed) && !x.waitRsv && x.d.opcode == 0x14) = false → 
    Answers (.wrap c) s fun t => t = s) ∧
  (∀ (s : State) (c : CtxNo) (x : Ctx), ctxAt s c.val = some x → x.phase = .placed → x.waitRsv = false → x.d.opcode = 0x15 → 
    Answers (.unwrap c) s fun t => ctxAt t c.val = some { x with phase := .running, iv := startIv x } ∧ t.units = s.units ∧ t.out = s.out ∧ t = { s with quay := { s.quay with ctxs := t.quay.ctxs } }) ∧
  (∀ (s : State) (c : CtxNo), (ctxAt s c.val).any (fun x => decide (x.phase = .placed) && !x.waitRsv && x.d.opcode == 0x15) = false → 
    Answers (.unwrap c) s fun t => t = s) ∧
  (∀ (s : State) (c : CtxNo) (x : Ctx), ctxAt s c.val = some x → x.phase = .placed → x.waitRsv = false → x.d.opcode = 0x20 → 
    Answers (.hash c) s fun t => ctxAt t c.val = some { x with phase := .running, iv := startIv x } ∧ t.units = s.units ∧ t.out = s.out ∧ t = { s with quay := { s.quay with ctxs := t.quay.ctxs } }) ∧
  (∀ (s : State) (c : CtxNo), (ctxAt s c.val).any (fun x => decide (x.phase = .placed) && !x.waitRsv && x.d.opcode == 0x20) = false → 
    Answers (.hash c) s fun t => t = s) ∧
  (∀ (s : State) (c : CtxNo) (x : Ctx), ctxAt s c.val = some x → x.phase = .placed → x.waitRsv = false → x.d.opcode = 0x21 → 
    Answers (.hmacGenerate c) s fun t => ctxAt t c.val = some { x with phase := .running, iv := startIv x } ∧ t.units = s.units ∧ t.out = s.out ∧ t = { s with quay := { s.quay with ctxs := t.quay.ctxs } }) ∧
  (∀ (s : State) (c : CtxNo), (ctxAt s c.val).any (fun x => decide (x.phase = .placed) && !x.waitRsv && x.d.opcode == 0x21) = false → 
    Answers (.hmacGenerate c) s fun t => t = s) ∧
  (∀ (s : State) (c : CtxNo) (x : Ctx), ctxAt s c.val = some x → x.phase = .placed → x.waitRsv = false → x.d.opcode = 0x22 → 
    Answers (.hmacVerify c) s fun t => ctxAt t c.val = some { x with phase := .running, iv := startIv x } ∧ t.units = s.units ∧ t.out = s.out ∧ t = { s with quay := { s.quay with ctxs := t.quay.ctxs } }) ∧
  (∀ (s : State) (c : CtxNo), (ctxAt s c.val).any (fun x => decide (x.phase = .placed) && !x.waitRsv && x.d.opcode == 0x22) = false → 
    Answers (.hmacVerify c) s fun t => t = s)

/-- A beat of an ENCRYPT or DECRYPT command on whose work the two cores agree, with its input there and its segments covered, that is not the command's last and reaches no stop point, releases what the primary made of up to 64 bytes and writes it to the destination; one of a key wrap or unwrap whose output is released at its end consumes up to 64 bytes more of what has arrived. A payload beat on which the cores disagree ends the command with FAULT_COMPARE and its unit number, and the unit starts its test. A hash unit that has all its input ends HASH and HMAC_GENERATE with the digest or code as output, HMAC_VERIFY with OK when the code is the expected one and AUTH_FAIL otherwise; before that nothing happens. A stop that reaches a hash unit ends its command with the stop status, one that reaches an Arcade unit begins its zeroising; one that reaches a lane or pipeline ends a command with no stop point ahead, and fixes the stop point of another; a unit with no stop to make goes on. Each clause names what may change beside; every other part of the state and every other register is as before. Forms whose completion it states: laneBeat, hashDigestDone, unitStop. (R144, R145, R146, R147, R150, R153, R271) -/
def Obligations.UnitsAtWork : Prop :=
  (∀ (s : State) (c : CtxNo) (x : Ctx) (u : CipherUnit) (b : BeatOut), (cunit s u.val).ctx = some c.val → ctxAt s c.val = some x → x.phase = .running → x.eng = some (.cipher u) → streams x.d = true → x.srcEnd = none → x.stop = none → x.done + 64 < x.d.len → inputFor x.d (x.done + 64) ≤ (payIn x).length → beatOf x (cunit s u.val) (x.done + 64) {} {} = some b → (putDst s c.val b.out none).1 = none → 
    Answers (.laneBeat u ⟨{}, {}, none⟩) s fun t => (ctxAt t c.val).map (fun z => (z.phase, z.done, z.wrote)) = some (.running, x.done + 64, x.wrote + b.out.length) ∧ cunit t u.val = { cunit s u.val with prim := b.prim, chk := b.chk } ∧ t = { s with out := t.out, regs := t.regs, parBad := t.parBad, wins := t.wins, quay := { s.quay with queues := t.quay.queues, doms := t.quay.doms, domRR := t.quay.domRR, ctxs := t.quay.ctxs, msix := t.quay.msix }, units := { s.units with cipher := t.units.cipher, hash := t.units.hash, arc := t.units.arc, laneBlocks := t.units.laneBlocks, blvdBytes := t.units.blvdBytes }, kerb := { s.kerb with reports := t.kerb.reports }, fnt := { s.fnt with state := t.fnt.state, absorbed := t.fnt.absorbed, credit := t.fnt.credit, seed := t.fnt.seed, int := t.fnt.int, sw := t.fnt.sw, katBusy := t.fnt.katBusy, draws := t.fnt.draws, part := t.fnt.part, got := t.fnt.got, rng := t.fnt.rng, rngDone := t.fnt.rngDone, rngDead := t.fnt.rngDead }, xing := { s.xing with mirror := t.xing.mirror, sess := t.xing.sess } } ∧ OtherRegs s t [Reg.QUAY_RPL_HITS, Reg.RBT_LATE, Reg.BLVD_CMP_CNT, Reg.COMP_AUTH_FAIL, Reg.COMP_DONE] [Reg.PAGE_STAT, Reg.INT_STAT, Reg.ERR_SYND, Reg.ERR_ADDR, Reg.FAULT_CNT, Reg.QUAY_LINK_STAT, Reg.QUAY_LINK_CTRL, Reg.LANE_STOPS] []) ∧
  (∀ (s : State) (c : CtxNo) (x : Ctx) (u : CipherUnit) (pe ce : CoreErr) (hit : Option Hit), (cunit s u.val).ctx = some c.val → ctxAt s c.val = some x → x.phase = .running → x.eng = some (.cipher u) → x.d.opcode = 0x14 ∨ x.d.opcode = 0x15 → x.done < (payIn x).length → 
    Answers (.laneBeat u ⟨pe, ce, hit⟩) s fun t => ctxAt t c.val = some { x with done := min (x.done + 64) (payIn x).length } ∧ t = { s with out := t.out, regs := t.regs, parBad := t.parBad, wins := t.wins, quay := { s.quay with queues := t.quay.queues, doms := t.quay.doms, domRR := t.quay.domRR, ctxs := t.quay.ctxs, msix := t.quay.msix }, units := { s.units with cipher := t.units.cipher, hash := t.units.hash, arc := t.units.arc, laneBlocks := t.units.laneBlocks, blvdBytes := t.units.blvdBytes }, kerb := { s.kerb with reports := t.kerb.reports }, fnt := { s.fnt with state := t.fnt.state, absorbed := t.fnt.absorbed, credit := t.fnt.credit, seed := t.fnt.seed, int := t.fnt.int, sw := t.fnt.sw, katBusy := t.fnt.katBusy, draws := t.fnt.draws, part := t.fnt.part, got := t.fnt.got, rng := t.fnt.rng, rngDone := t.fnt.rngDone, rngDead := t.fnt.rngDead }, xing := { s.xing with mirror := t.xing.mirror, sess := t.xing.sess } } ∧ OtherRegs s t [Reg.QUAY_RPL_HITS, Reg.RBT_LATE, Reg.BLVD_CMP_CNT, Reg.COMP_AUTH_FAIL, Reg.COMP_DONE] [Reg.PAGE_STAT, Reg.INT_STAT, Reg.ERR_SYND, Reg.ERR_ADDR, Reg.FAULT_CNT, Reg.QUAY_LINK_STAT, Reg.QUAY_LINK_CTRL, Reg.LANE_STOPS] []) ∧
  (∀ (s : State) (c : CtxNo) (x : Ctx) (u : CipherUnit) (pe ce : CoreErr) (hit : Option Hit), (cunit s u.val).ctx = some c.val → ctxAt s c.val = some x → x.phase = .running → x.eng = some (.cipher u) → streams x.d = true → x.srcEnd = none → x.done < x.d.len → inputFor x.d (min x.d.len (x.done + 64)) ≤ (payIn x).length → beatOf x (cunit s u.val) (min x.d.len (x.done + 64)) pe ce = none → Deliverable s x → 
    Answers (.laneBeat u ⟨pe, ce, hit⟩) s fun t => Completed s t c.val x { status := 0x0A, detail := unitCode u.val, bytesDone := x.done, result := ivResult x } ∧ (cunit t u.val).kat = true ∧ t = { s with out := t.out, regs := t.regs, parBad := t.parBad, wins := t.wins, quay := { s.quay with queues := t.quay.queues, doms := t.quay.doms, domRR := t.quay.domRR, ctxs := t.quay.ctxs, msix := t.quay.msix }, units := { s.units with cipher := t.units.cipher, hash := t.units.hash, arc := t.units.arc, laneBlocks := t.units.laneBlocks, blvdBytes := t.units.blvdBytes }, kerb := { s.kerb with reports := t.kerb.reports }, fnt := { s.fnt with state := t.fnt.state, absorbed := t.fnt.absorbed, credit := t.fnt.credit, seed := t.fnt.seed, int := t.fnt.int, sw := t.fnt.sw, katBusy := t.fnt.katBusy, draws := t.fnt.draws, part := t.fnt.part, got := t.fnt.got, rng := t.fnt.rng, rngDone := t.fnt.rngDone, rngDead := t.fnt.rngDead }, xing := { s.xing with mirror := t.xing.mirror, sess := t.xing.sess } } ∧ OtherRegs s t [Reg.QUAY_RPL_HITS, Reg.RBT_LATE, Reg.BLVD_CMP_CNT, Reg.COMP_AUTH_FAIL, Reg.COMP_DONE] [Reg.PAGE_STAT, Reg.INT_STAT, Reg.ERR_SYND, Reg.ERR_ADDR, Reg.FAULT_CNT, Reg.QUAY_LINK_STAT, Reg.QUAY_LINK_CTRL, Reg.LANE_STOPS] []) ∧
  (∀ (s : State) (c : CtxNo) (x : Ctx) (u : HashNo) (hit : Option Hit), (hunit s u.val).ctx = some c.val → ctxAt s c.val = some x → x.phase = .running → x.eng = some (.hash u) → x.d.opcode = 0x22 → x.srcEnd = none → x.d.len ≤ x.srcIn.length → Deliverable s x → 
    Answers (.hashDigestDone ⟨u, hit⟩) s fun t => Completed s t c.val x (if fit (macLen x.d) (hmacOf x.d.mode (hunit s u.val).key x.srcIn) = sl x.param 0 (macLen x.d) then { detail := b2n x.late, bytesDone := x.d.len } else { status := 0x05, bytesDone := x.d.len }) ∧ t = { s with out := t.out, regs := t.regs, parBad := t.parBad, wins := t.wins, quay := { s.quay with queues := t.quay.queues, doms := t.quay.doms, domRR := t.quay.domRR, ctxs := t.quay.ctxs, msix := t.quay.msix }, units := { s.units with cipher := t.units.cipher, hash := t.units.hash, arc := t.units.arc, hashBytes := t.units.hashBytes }, kerb := { s.kerb with reports := t.kerb.reports }, fnt := { s.fnt with state := t.fnt.state, absorbed := t.fnt.absorbed, credit := t.fnt.credit, seed := t.fnt.seed, int := t.fnt.int, sw := t.fnt.sw, katBusy := t.fnt.katBusy, draws := t.fnt.draws, part := t.fnt.part, got := t.fnt.got, rng := t.fnt.rng, rngDone := t.fnt.rngDone, rngDead := t.fnt.rngDead }, xing := { s.xing with mirror := t.xing.mirror, sess := t.xing.sess } } ∧ OtherRegs s t [Reg.QUAY_RPL_HITS, Reg.RBT_LATE, Reg.COMP_AUTH_FAIL, Reg.COMP_DONE] [Reg.PAGE_STAT, Reg.INT_STAT, Reg.ERR_SYND, Reg.ERR_ADDR, Reg.FAULT_CNT, Reg.QUAY_LINK_STAT] []) ∧
  (∀ (s : State) (c : CtxNo) (x : Ctx) (u : HashNo), (hunit s u.val).ctx = some c.val → ctxAt s c.val = some x → x.phase = .running → x.eng = some (.hash u) → x.d.opcode = 0x20 → x.srcEnd = none → x.d.len ≤ x.srcIn.length → x.d.dstSgl = false → x.wrote = 0 → x.dstChk = 0 → 0 < (if x.d.mode = 6 ∨ x.d.mode = 7 then outLen x.d else digestLen x.d.mode) → covered (queueAt s x.q) true x.d.dst (if x.d.mode = 6 ∨ x.d.mode = 7 then outLen x.d else digestLen x.d.mode) = true → Deliverable s x → 
    Answers (.hashDigestDone ⟨u, none⟩) s fun t => Completed s t c.val x { detail := b2n x.late, bytesDone := x.d.len } ∧ Out.hostWrite (qFunc (queueAt s x.q)) x.d.dst (fit (if x.d.mode = 6 ∨ x.d.mode = 7 then outLen x.d else digestLen x.d.mode) (hashOf x.d.mode (if x.d.mode = 6 ∨ x.d.mode = 7 then outLen x.d else digestLen x.d.mode) x.srcIn)) (pcieOf s (qFunc (queueAt s x.q))).ro ∈ t.out ∧ t = { s with out := t.out, regs := t.regs, parBad := t.parBad, wins := t.wins, quay := { s.quay with queues := t.quay.queues, doms := t.quay.doms, domRR := t.quay.domRR, ctxs := t.quay.ctxs, msix := t.quay.msix }, units := { s.units with cipher := t.units.cipher, hash := t.units.hash, arc := t.units.arc, hashBytes := t.units.hashBytes }, kerb := { s.kerb with reports := t.kerb.reports }, fnt := { s.fnt with state := t.fnt.state, absorbed := t.fnt.absorbed, credit := t.fnt.credit, seed := t.fnt.seed, int := t.fnt.int, sw := t.fnt.sw, katBusy := t.fnt.katBusy, draws := t.fnt.draws, part := t.fnt.part, got := t.fnt.got, rng := t.fnt.rng, rngDone := t.fnt.rngDone, rngDead := t.fnt.rngDead }, xing := { s.xing with mirror := t.xing.mirror, sess := t.xing.sess } } ∧ OtherRegs s t [Reg.QUAY_RPL_HITS, Reg.RBT_LATE, Reg.COMP_AUTH_FAIL, Reg.COMP_DONE] [Reg.PAGE_STAT, Reg.INT_STAT, Reg.ERR_SYND, Reg.ERR_ADDR, Reg.FAULT_CNT, Reg.QUAY_LINK_STAT] []) ∧
  (∀ (s : State) (c : CtxNo) (x : Ctx) (u : HashNo), (hunit s u.val).ctx = some c.val → ctxAt s c.val = some x → x.phase = .running → x.eng = some (.hash u) → x.d.opcode = 0x21 → x.srcEnd = none → x.d.len ≤ x.srcIn.length → x.d.dstSgl = false → x.wrote = 0 → x.dstChk = 0 → 0 < macLen x.d → covered (queueAt s x.q) true x.d.dst (macLen x.d) = true → Deliverable s x → 
    Answers (.hashDigestDone ⟨u, none⟩) s fun t => Completed s t c.val x { detail := b2n x.late, bytesDone := x.d.len } ∧ Out.hostWrite (qFunc (queueAt s x.q)) x.d.dst (fit (macLen x.d) (hmacOf x.d.mode (hunit s u.val).key x.srcIn)) (pcieOf s (qFunc (queueAt s x.q))).ro ∈ t.out ∧ t = { s with out := t.out, regs := t.regs, parBad := t.parBad, wins := t.wins, quay := { s.quay with queues := t.quay.queues, doms := t.quay.doms, domRR := t.quay.domRR, ctxs := t.quay.ctxs, msix := t.quay.msix }, units := { s.units with cipher := t.units.cipher, hash := t.units.hash, arc := t.units.arc, hashBytes := t.units.hashBytes }, kerb := { s.kerb with reports := t.kerb.reports }, fnt := { s.fnt with state := t.fnt.state, absorbed := t.fnt.absorbed, credit := t.fnt.credit, seed := t.fnt.seed, int := t.fnt.int, sw := t.fnt.sw, katBusy := t.fnt.katBusy, draws := t.fnt.draws, part := t.fnt.part, got := t.fnt.got, rng := t.fnt.rng, rngDone := t.fnt.rngDone, rngDead := t.fnt.rngDead }, xing := { s.xing with mirror := t.xing.mirror, sess := t.xing.sess } } ∧ OtherRegs s t [Reg.QUAY_RPL_HITS, Reg.RBT_LATE, Reg.COMP_AUTH_FAIL, Reg.COMP_DONE] [Reg.PAGE_STAT, Reg.INT_STAT, Reg.ERR_SYND, Reg.ERR_ADDR, Reg.FAULT_CNT, Reg.QUAY_LINK_STAT] []) ∧
  (∀ (s : State) (c : CtxNo) (x : Ctx) (u : HashNo) (hit : Option Hit), (hunit s u.val).ctx = some c.val → ctxAt s c.val = some x → x.phase = .running → x.eng = some (.hash u) → x.srcEnd = none → x.srcIn.length < x.d.len → 
    Answers (.hashDigestDone ⟨u, hit⟩) s fun t => t = s) ∧
  (∀ (s : State) (c : CtxNo) (x : Ctx) (u : HashNo) (p : Stop), (hunit s u.val).ctx = some c.val → ctxAt s c.val = some x → x.stop = some p → x.eng = some (.hash u) → Deliverable s x → 
    Answers (.unitStop (.hash u)) s fun t => Completed s t c.val x { status := p.status, detail := p.detail, bytesDone := stopBytes x, result := ivResult x } ∧ t = { s with out := t.out, regs := t.regs, parBad := t.parBad, wins := t.wins, quay := { s.quay with queues := t.quay.queues, doms := t.quay.doms, domRR := t.quay.domRR, ctxs := t.quay.ctxs, msix := t.quay.msix }, units := { s.units with cipher := t.units.cipher, hash := t.units.hash, arc := t.units.arc, hashBytes := t.units.hashBytes }, kerb := { s.kerb with reports := t.kerb.reports }, fnt := { s.fnt with state := t.fnt.state, absorbed := t.fnt.absorbed, credit := t.fnt.credit, seed := t.fnt.seed, int := t.fnt.int, sw := t.fnt.sw, katBusy := t.fnt.katBusy, draws := t.fnt.draws, part := t.fnt.part, got := t.fnt.got, rng := t.fnt.rng, rngDone := t.fnt.rngDone, rngDead := t.fnt.rngDead }, xing := { s.xing with mirror := t.xing.mirror, sess := t.xing.sess } } ∧ OtherRegs s t [Reg.QUAY_RPL_HITS, Reg.RBT_LATE, Reg.COMP_AUTH_FAIL, Reg.COMP_DONE] [Reg.PAGE_STAT, Reg.INT_STAT, Reg.ERR_SYND, Reg.ERR_ADDR, Reg.FAULT_CNT, Reg.QUAY_LINK_STAT, Reg.LANE_STOPS] []) ∧
  (∀ (s : State) (c : CtxNo) (x : Ctx) (u : ArcNo), (aunit s u.val).ctx = some c.val → ctxAt s c.val = some x → x.stop.isSome = true → x.phase ≠ .zeroising → 
    Answers (.unitStop (.arcade u)) s fun t => ctxAt t c.val = some { x with phase := .zeroising } ∧ fld t (rk (0x20 + u.val) Reg.ARC_MODE) 14 12 = 5 ∧ t = { s with out := t.out, regs := t.regs, parBad := t.parBad, wins := t.wins, quay := { s.quay with queues := t.quay.queues, doms := t.quay.doms, domRR := t.quay.domRR, ctxs := t.quay.ctxs, msix := t.quay.msix }, units := { s.units with cipher := t.units.cipher, hash := t.units.hash, arc := t.units.arc, hashBytes := t.units.hashBytes }, kerb := { s.kerb with reports := t.kerb.reports }, fnt := { s.fnt with state := t.fnt.state, absorbed := t.fnt.absorbed, credit := t.fnt.credit, seed := t.fnt.seed, int := t.fnt.int, sw := t.fnt.sw, katBusy := t.fnt.katBusy, draws := t.fnt.draws, part := t.fnt.part, got := t.fnt.got, rng := t.fnt.rng, rngDone := t.fnt.rngDone, rngDead := t.fnt.rngDead }, xing := { s.xing with mirror := t.xing.mirror, sess := t.xing.sess } } ∧ OtherRegs s t [Reg.QUAY_RPL_HITS, Reg.RBT_LATE, Reg.COMP_AUTH_FAIL, Reg.COMP_DONE] [Reg.PAGE_STAT, Reg.INT_STAT, Reg.ERR_SYND, Reg.ERR_ADDR, Reg.FAULT_CNT, Reg.QUAY_LINK_STAT, Reg.LANE_STOPS] []) ∧
  (∀ (s : State) (c : CtxNo) (x : Ctx) (u : CipherUnit) (p : Stop), (cunit s u.val).ctx = some c.val → ctxAt s c.val = some x → x.stop = some p → x.eng = some (.cipher u) → x.phase ≠ .running ∨ stopPoint x = none → Deliverable s x → 
    Answers (.unitStop (.cipher u)) s fun t => Completed s t c.val x { status := p.status, detail := p.detail, bytesDone := stopBytes x, result := ivResult x } ∧ (cunit t u.val).prim = {} ∧ (cunit t u.val).chk = {} ∧ t = { s with out := t.out, regs := t.regs, parBad := t.parBad, wins := t.wins, quay := { s.quay with queues := t.quay.queues, doms := t.quay.doms, domRR := t.quay.domRR, ctxs := t.quay.ctxs, msix := t.quay.msix }, units := { s.units with cipher := t.units.cipher, hash := t.units.hash, arc := t.units.arc, hashBytes := t.units.hashBytes }, kerb := { s.kerb with reports := t.kerb.reports }, fnt := { s.fnt with state := t.fnt.state, absorbed := t.fnt.absorbed, credit := t.fnt.credit, seed := t.fnt.seed, int := t.fnt.int, sw := t.fnt.sw, katBusy := t.fnt.katBusy, draws := t.fnt.draws, part := t.fnt.part, got := t.fnt.got, rng := t.fnt.rng, rngDone := t.fnt.rngDone, rngDead := t.fnt.rngDead }, xing := { s.xing with mirror := t.xing.mirror, sess := t.xing.sess } } ∧ OtherRegs s t [Reg.QUAY_RPL_HITS, Reg.RBT_LATE, Reg.COMP_AUTH_FAIL, Reg.COMP_DONE] [Reg.PAGE_STAT, Reg.INT_STAT, Reg.ERR_SYND, Reg.ERR_ADDR, Reg.FAULT_CNT, Reg.QUAY_LINK_STAT, Reg.LANE_STOPS] []) ∧
  (∀ (s : State) (c : CtxNo) (x : Ctx) (u : CipherUnit) (p : Stop) (n : Nat), (cunit s u.val).ctx = some c.val → ctxAt s c.val = some x → x.stop = some p → x.eng = some (.cipher u) → x.phase = .running → stopPoint x = some n → 
    Answers (.unitStop (.cipher u)) s fun t => ctxAt t c.val = some { x with stop := some { p with at' := min p.at' n } } ∧ t = { s with out := t.out, regs := t.regs, parBad := t.parBad, wins := t.wins, quay := { s.quay with queues := t.quay.queues, doms := t.quay.doms, domRR := t.quay.domRR, ctxs := t.quay.ctxs, msix := t.quay.msix }, units := { s.units with cipher := t.units.cipher, hash := t.units.hash, arc := t.units.arc, hashBytes := t.units.hashBytes }, kerb := { s.kerb with reports := t.kerb.reports }, fnt := { s.fnt with state := t.fnt.state, absorbed := t.fnt.absorbed, credit := t.fnt.credit, seed := t.fnt.seed, int := t.fnt.int, sw := t.fnt.sw, katBusy := t.fnt.katBusy, draws := t.fnt.draws, part := t.fnt.part, got := t.fnt.got, rng := t.fnt.rng, rngDone := t.fnt.rngDone, rngDead := t.fnt.rngDead }, xing := { s.xing with mirror := t.xing.mirror, sess := t.xing.sess } } ∧ OtherRegs s t [Reg.QUAY_RPL_HITS, Reg.RBT_LATE, Reg.COMP_AUTH_FAIL, Reg.COMP_DONE] [Reg.PAGE_STAT, Reg.INT_STAT, Reg.ERR_SYND, Reg.ERR_ADDR, Reg.FAULT_CNT, Reg.QUAY_LINK_STAT, Reg.LANE_STOPS] []) ∧
  (∀ (s : State) (u : HashNo), ((hunit s u.val).ctx.bind (ctxAt s)).any (fun x => x.stop.isSome) = false → 
    Answers (.unitStop (.hash u)) s fun t => t = s) ∧
  (∀ (s : State) (u : CipherUnit), ((cunit s u.val).ctx.bind (ctxAt s)).any (fun x => x.stop.isSome) = false → 
    Answers (.unitStop (.cipher u)) s fun t => t = s) ∧
  (∀ (s : State) (u : ArcNo), ((aunit s u.val).ctx.bind (ctxAt s)).any (fun x => x.stop.isSome) = false → 
    Answers (.unitStop (.arcade u)) s fun t => t = s)

/-- A known-answer test that passes leaves its lane, pipeline or hash unit tested and not offline; one that fails leaves it offline, counts one fault of its page and sets its interrupt bits; a result that no test awaits, or of a unit without power, changes nothing. RETEST starts the test of every idle unit named and makes a busy one start it when its command completes; FORCE_OFF holds every idle unit named and releases every idle unit not named. Each clause names what may change beside; every other part of the state and every other register is as before. Forms whose completion it states: laneKatDone, blvdKatDone, hashKatDone, laneRetest, laneForceOff, blvdRetest, blvdForceOff, hashRetest. (R147, R148, R154, R156, R162, R163, R164) -/
def Obligations.UnitTests : Prop :=
  (∀ (s : State) (u : LaneNo), (cunit s u.val).kat = true → domOn s (cunitDom u.val) = true → 
    Answers (.laneKatDone u true) s fun t => cunit t u.val = { cunit s u.val with kat := false, offline := false } ∧ t = { s with out := t.out, regs := t.regs, parBad := t.parBad, wins := t.wins, quay := { s.quay with queues := t.quay.queues, doms := t.quay.doms, domRR := t.quay.domRR, ctxs := t.quay.ctxs, msix := t.quay.msix }, units := { s.units with cipher := t.units.cipher, hash := t.units.hash, arc := t.units.arc }, kerb := { s.kerb with reports := t.kerb.reports }, fnt := { s.fnt with state := t.fnt.state, absorbed := t.fnt.absorbed, credit := t.fnt.credit, seed := t.fnt.seed, int := t.fnt.int, sw := t.fnt.sw, katBusy := t.fnt.katBusy, draws := t.fnt.draws, part := t.fnt.part, got := t.fnt.got, rng := t.fnt.rng, rngDone := t.fnt.rngDone, rngDead := t.fnt.rngDead }, xing := { s.xing with mirror := t.xing.mirror, sess := t.xing.sess } } ∧ OtherRegs s t [Reg.QUAY_RPL_HITS, Reg.RBT_LATE, Reg.COMP_AUTH_FAIL, Reg.COMP_DONE] [Reg.PAGE_STAT, Reg.INT_STAT, Reg.ERR_SYND, Reg.ERR_ADDR, Reg.FAULT_CNT, Reg.QUAY_LINK_STAT] []) ∧
  (∀ (s : State) (u : LaneNo), (cunit s u.val).kat = true → domOn s (cunitDom u.val) = true → pageOn s (0x11 + u.val / 8) = true → 
    Answers (.laneKatDone u false) s fun t => (cunit t u.val).kat = false ∧ (cunit t u.val).offline = true ∧ [1, 2].all (rbit t (rk (0x11 + u.val / 8) Reg.INT_STAT)) = true ∧ fld t (rk (0x11 + u.val / 8) Reg.FAULT_CNT) 15 0 = min 65535 (fld s (rk (0x11 + u.val / 8) Reg.FAULT_CNT) 15 0 + 1) ∧ t = { s with out := t.out, regs := t.regs, parBad := t.parBad, wins := t.wins, quay := { s.quay with queues := t.quay.queues, doms := t.quay.doms, domRR := t.quay.domRR, ctxs := t.quay.ctxs, msix := t.quay.msix }, units := { s.units with cipher := t.units.cipher, hash := t.units.hash, arc := t.units.arc }, kerb := { s.kerb with reports := t.kerb.reports }, fnt := { s.fnt with state := t.fnt.state, absorbed := t.fnt.absorbed, credit := t.fnt.credit, seed := t.fnt.seed, int := t.fnt.int, sw := t.fnt.sw, katBusy := t.fnt.katBusy, draws := t.fnt.draws, part := t.fnt.part, got := t.fnt.got, rng := t.fnt.rng, rngDone := t.fnt.rngDone, rngDead := t.fnt.rngDead }, xing := { s.xing with mirror := t.xing.mirror, sess := t.xing.sess } } ∧ OtherRegs s t [Reg.QUAY_RPL_HITS, Reg.RBT_LATE, Reg.COMP_AUTH_FAIL, Reg.COMP_DONE] [Reg.PAGE_STAT, Reg.INT_STAT, Reg.ERR_SYND, Reg.ERR_ADDR, Reg.FAULT_CNT, Reg.QUAY_LINK_STAT] []) ∧
  (∀ (s : State) (u : LaneNo) (ok : Bool), (cunit s u.val).kat = false ∨ domOn s (cunitDom u.val) = false → 
    Answers (.laneKatDone u ok) s fun t => t = s) ∧
  (∀ (s : State) (u : PipeNo), (cunit s (64 + u.val)).kat = true → domOn s (9) = true → 
    Answers (.blvdKatDone u true) s fun t => cunit t (64 + u.val) = { cunit s (64 + u.val) with kat := false, offline := false } ∧ t = { s with out := t.out, regs := t.regs, parBad := t.parBad, wins := t.wins, quay := { s.quay with queues := t.quay.queues, doms := t.quay.doms, domRR := t.quay.domRR, ctxs := t.quay.ctxs, msix := t.quay.msix }, units := { s.units with cipher := t.units.cipher, hash := t.units.hash, arc := t.units.arc }, kerb := { s.kerb with reports := t.kerb.reports }, fnt := { s.fnt with state := t.fnt.state, absorbed := t.fnt.absorbed, credit := t.fnt.credit, seed := t.fnt.seed, int := t.fnt.int, sw := t.fnt.sw, katBusy := t.fnt.katBusy, draws := t.fnt.draws, part := t.fnt.part, got := t.fnt.got, rng := t.fnt.rng, rngDone := t.fnt.rngDone, rngDead := t.fnt.rngDead }, xing := { s.xing with mirror := t.xing.mirror, sess := t.xing.sess } } ∧ OtherRegs s t [Reg.QUAY_RPL_HITS, Reg.RBT_LATE, Reg.COMP_AUTH_FAIL, Reg.COMP_DONE] [Reg.PAGE_STAT, Reg.INT_STAT, Reg.ERR_SYND, Reg.ERR_ADDR, Reg.FAULT_CNT, Reg.QUAY_LINK_STAT] []) ∧
  (∀ (s : State) (u : PipeNo), (cunit s (64 + u.val)).kat = true → domOn s (9) = true → pageOn s 0x19 = true → 
    Answers (.blvdKatDone u false) s fun t => (cunit t (64 + u.val)).kat = false ∧ (cunit t (64 + u.val)).offline = true ∧ [1, 2].all (rbit t (rk 0x19 Reg.INT_STAT)) = true ∧ fld t (rk 0x19 Reg.FAULT_CNT) 15 0 = min 65535 (fld s (rk 0x19 Reg.FAULT_CNT) 15 0 + 1) ∧ t = { s with out := t.out, regs := t.regs, parBad := t.parBad, wins := t.wins, quay := { s.quay with queues := t.quay.queues, doms := t.quay.doms, domRR := t.quay.domRR, ctxs := t.quay.ctxs, msix := t.quay.msix }, units := { s.units with cipher := t.units.cipher, hash := t.units.hash, arc := t.units.arc }, kerb := { s.kerb with reports := t.kerb.reports }, fnt := { s.fnt with state := t.fnt.state, absorbed := t.fnt.absorbed, credit := t.fnt.credit, seed := t.fnt.seed, int := t.fnt.int, sw := t.fnt.sw, katBusy := t.fnt.katBusy, draws := t.fnt.draws, part := t.fnt.part, got := t.fnt.got, rng := t.fnt.rng, rngDone := t.fnt.rngDone, rngDead := t.fnt.rngDead }, xing := { s.xing with mirror := t.xing.mirror, sess := t.xing.sess } } ∧ OtherRegs s t [Reg.QUAY_RPL_HITS, Reg.RBT_LATE, Reg.COMP_AUTH_FAIL, Reg.COMP_DONE] [Reg.PAGE_STAT, Reg.INT_STAT, Reg.ERR_SYND, Reg.ERR_ADDR, Reg.FAULT_CNT, Reg.QUAY_LINK_STAT] []) ∧
  (∀ (s : State) (u : PipeNo) (ok : Bool), (cunit s (64 + u.val)).kat = false ∨ domOn s (9) = false → 
    Answers (.blvdKatDone u ok) s fun t => t = s) ∧
  (∀ (s : State) (u : HashNo), (hunit s u.val).kat = true → domOn s ((1 + u.val / 4)) = true → 
    Answers (.hashKatDone u true) s fun t => hunit t u.val = { hunit s u.val with kat := false, offline := false } ∧ t = { s with out := t.out, regs := t.regs, parBad := t.parBad, wins := t.wins, quay := { s.quay with queues := t.quay.queues, doms := t.quay.doms, domRR := t.quay.domRR, ctxs := t.quay.ctxs, msix := t.quay.msix }, units := { s.units with cipher := t.units.cipher, hash := t.units.hash, arc := t.units.arc }, kerb := { s.kerb with reports := t.kerb.reports }, fnt := { s.fnt with state := t.fnt.state, absorbed := t.fnt.absorbed, credit := t.fnt.credit, seed := t.fnt.seed, int := t.fnt.int, sw := t.fnt.sw, katBusy := t.fnt.katBusy, draws := t.fnt.draws, part := t.fnt.part, got := t.fnt.got, rng := t.fnt.rng, rngDone := t.fnt.rngDone, rngDead := t.fnt.rngDead }, xing := { s.xing with mirror := t.xing.mirror, sess := t.xing.sess } } ∧ OtherRegs s t [Reg.QUAY_RPL_HITS, Reg.RBT_LATE, Reg.COMP_AUTH_FAIL, Reg.COMP_DONE] [Reg.PAGE_STAT, Reg.INT_STAT, Reg.ERR_SYND, Reg.ERR_ADDR, Reg.FAULT_CNT, Reg.QUAY_LINK_STAT] []) ∧
  (∀ (s : State) (u : HashNo), (hunit s u.val).kat = true → domOn s ((1 + u.val / 4)) = true → pageOn s 0x1A = true → 
    Answers (.hashKatDone u false) s fun t => (hunit t u.val).kat = false ∧ (hunit t u.val).offline = true ∧ [0, 1].all (rbit t (rk 0x1A Reg.INT_STAT)) = true ∧ fld t (rk 0x1A Reg.FAULT_CNT) 15 0 = min 65535 (fld s (rk 0x1A Reg.FAULT_CNT) 15 0 + 1) ∧ t = { s with out := t.out, regs := t.regs, parBad := t.parBad, wins := t.wins, quay := { s.quay with queues := t.quay.queues, doms := t.quay.doms, domRR := t.quay.domRR, ctxs := t.quay.ctxs, msix := t.quay.msix }, units := { s.units with cipher := t.units.cipher, hash := t.units.hash, arc := t.units.arc }, kerb := { s.kerb with reports := t.kerb.reports }, fnt := { s.fnt with state := t.fnt.state, absorbed := t.fnt.absorbed, credit := t.fnt.credit, seed := t.fnt.seed, int := t.fnt.int, sw := t.fnt.sw, katBusy := t.fnt.katBusy, draws := t.fnt.draws, part := t.fnt.part, got := t.fnt.got, rng := t.fnt.rng, rngDone := t.fnt.rngDone, rngDead := t.fnt.rngDead }, xing := { s.xing with mirror := t.xing.mirror, sess := t.xing.sess } } ∧ OtherRegs s t [Reg.QUAY_RPL_HITS, Reg.RBT_LATE, Reg.COMP_AUTH_FAIL, Reg.COMP_DONE] [Reg.PAGE_STAT, Reg.INT_STAT, Reg.ERR_SYND, Reg.ERR_ADDR, Reg.FAULT_CNT, Reg.QUAY_LINK_STAT] []) ∧
  (∀ (s : State) (u : HashNo) (ok : Bool), (hunit s u.val).kat = false ∨ domOn s ((1 + u.val / 4)) = false → 
    Answers (.hashKatDone u ok) s fun t => t = s) ∧
  (∀ (s : State) (src : Src) (g : GroupNo) (b : BitVec 8) (n : Fin 8), Reaches s src (rk (0x11 + g.val) Reg.LANE_OFFLINE_CTRL) → b.toNat.testBit n.val = true → (cunit s (8 * g.val + n.val)).ctx = none → 
    Answers (.laneRetest src g b) s fun t => cunit t (8 * g.val + n.val) = { cleared (cunit s (8 * g.val + n.val)) with kat := true } ∧ t = { s with out := t.out, regs := t.regs, parBad := t.parBad, quay := { s.quay with msix := t.quay.msix }, units := { s.units with cipher := t.units.cipher } } ∧ OtherRegs s t [] [Reg.INT_STAT, Reg.ERR_SYND, Reg.ERR_ADDR] []) ∧
  (∀ (s : State) (src : Src) (g : GroupNo) (b : BitVec 8) (n : Fin 8), Reaches s src (rk (0x11 + g.val) Reg.LANE_OFFLINE_CTRL) → b.toNat.testBit n.val = true → (cunit s (8 * g.val + n.val)).ctx.isSome = true → 
    Answers (.laneRetest src g b) s fun t => cunit t (8 * g.val + n.val) = { cunit s (8 * g.val + n.val) with retest := true } ∧ t = { s with out := t.out, regs := t.regs, parBad := t.parBad, quay := { s.quay with msix := t.quay.msix }, units := { s.units with cipher := t.units.cipher } } ∧ OtherRegs s t [] [Reg.INT_STAT, Reg.ERR_SYND, Reg.ERR_ADDR] []) ∧
  (∀ (s : State) (src : Src) (g : GroupNo) (b : BitVec 8) (n : Fin 8), Reaches s src (rk (0x11 + g.val) Reg.LANE_OFFLINE_CTRL) → (cunit s (8 * g.val + n.val)).ctx = none → 
    Answers (.laneForceOff src g b) s fun t => fld t (rk (0x11 + g.val) Reg.LANE_OFFLINE_CTRL) 7 0 = b.toNat ∧ (cunit t (8 * g.val + n.val)).forced = b.toNat.testBit n.val ∧ t = { s with out := t.out, regs := t.regs, parBad := t.parBad, quay := { s.quay with msix := t.quay.msix }, units := { s.units with cipher := t.units.cipher } } ∧ OtherRegs s t [] [Reg.INT_STAT, Reg.ERR_SYND, Reg.ERR_ADDR, Reg.QUAY_GRP_ROUTE] []) ∧
  (∀ (s : State) (src : Src) (g : GroupNo) (b : BitVec 8) (n : Fin 8), Reaches s src (rk (0x11 + g.val) Reg.LANE_OFFLINE_CTRL) → (cunit s (8 * g.val + n.val)).ctx.isSome = true → 
    Answers (.laneForceOff src g b) s fun t => fld t (rk (0x11 + g.val) Reg.LANE_OFFLINE_CTRL) 7 0 = b.toNat ∧ cunit t (8 * g.val + n.val) = cunit s (8 * g.val + n.val) ∧ t = { s with out := t.out, regs := t.regs, parBad := t.parBad, quay := { s.quay with msix := t.quay.msix }, units := { s.units with cipher := t.units.cipher } } ∧ OtherRegs s t [] [Reg.INT_STAT, Reg.ERR_SYND, Reg.ERR_ADDR, Reg.QUAY_GRP_ROUTE] []) ∧
  (∀ (s : State) (src : Src) (b : BitVec 2) (n : PipeNo), Reaches s src Reg.BLVD_OFFLINE_CTRL → b.toNat.testBit n.val = true → (cunit s (64 + n.val)).ctx = none → 
    Answers (.blvdRetest src b) s fun t => cunit t (64 + n.val) = { cleared (cunit s (64 + n.val)) with kat := true } ∧ t = { s with out := t.out, regs := t.regs, parBad := t.parBad, quay := { s.quay with msix := t.quay.msix }, units := { s.units with cipher := t.units.cipher } } ∧ OtherRegs s t [] [Reg.INT_STAT, Reg.ERR_SYND, Reg.ERR_ADDR] []) ∧
  (∀ (s : State) (src : Src) (b : BitVec 2) (n : PipeNo), Reaches s src Reg.BLVD_OFFLINE_CTRL → b.toNat.testBit n.val = true → (cunit s (64 + n.val)).ctx.isSome = true → 
    Answers (.blvdRetest src b) s fun t => cunit t (64 + n.val) = { cunit s (64 + n.val) with retest := true } ∧ t = { s with out := t.out, regs := t.regs, parBad := t.parBad, quay := { s.quay with msix := t.quay.msix }, units := { s.units with cipher := t.units.cipher } } ∧ OtherRegs s t [] [Reg.INT_STAT, Reg.ERR_SYND, Reg.ERR_ADDR] []) ∧
  (∀ (s : State) (src : Src) (b : BitVec 2) (n : PipeNo), Reaches s src Reg.BLVD_OFFLINE_CTRL → (cunit s (64 + n.val)).ctx = none → 
    Answers (.blvdForceOff src b) s fun t => fld t Reg.BLVD_OFFLINE_CTRL 1 0 = b.toNat ∧ (cunit t (64 + n.val)).forced = b.toNat.testBit n.val ∧ t = { s with out := t.out, regs := t.regs, parBad := t.parBad, quay := { s.quay with msix := t.quay.msix }, units := { s.units with cipher := t.units.cipher } } ∧ OtherRegs s t [Reg.BLVD_OFFLINE_CTRL] [Reg.INT_STAT, Reg.ERR_SYND, Reg.ERR_ADDR] []) ∧
  (∀ (s : State) (src : Src) (b : BitVec 2) (n : PipeNo), Reaches s src Reg.BLVD_OFFLINE_CTRL → (cunit s (64 + n.val)).ctx.isSome = true → 
    Answers (.blvdForceOff src b) s fun t => fld t Reg.BLVD_OFFLINE_CTRL 1 0 = b.toNat ∧ cunit t (64 + n.val) = cunit s (64 + n.val) ∧ t = { s with out := t.out, regs := t.regs, parBad := t.parBad, quay := { s.quay with msix := t.quay.msix }, units := { s.units with cipher := t.units.cipher } } ∧ OtherRegs s t [Reg.BLVD_OFFLINE_CTRL] [Reg.INT_STAT, Reg.ERR_SYND, Reg.ERR_ADDR] []) ∧
  (∀ (s : State) (src : Src) (v : BitVec 32) (n : HashNo), Reaches s src Reg.HASH_RETEST → v.toNat.testBit n.val = true → domOn s (1 + n.val / 4) = true → 
    Answers (.hashRetest src v) s fun t => hunit t n.val = (if (hunit s n.val).ctx = none then { hunit s n.val with kat := true } else { hunit s n.val with retest := true }) ∧ t = { s with out := t.out, regs := t.regs, parBad := t.parBad, quay := { s.quay with msix := t.quay.msix }, units := { s.units with hash := t.units.hash } } ∧ OtherRegs s t [] [Reg.INT_STAT, Reg.ERR_SYND, Reg.ERR_ADDR] []) ∧
  (∀ (s : State) (src : Src) (v : BitVec 32) (n : HashNo), Reaches s src Reg.HASH_RETEST → v.toNat.testBit n.val = false ∨ domOn s (1 + n.val / 4) = false → 
    Answers (.hashRetest src v) s fun t => hunit t n.val = hunit s n.val ∧ t = { s with out := t.out, regs := t.regs, parBad := t.parBad, quay := { s.quay with msix := t.quay.msix }, units := { s.units with hash := t.units.hash } } ∧ OtherRegs s t [] [Reg.INT_STAT, Reg.ERR_SYND, Reg.ERR_ADDR] [])

/-- A read of the low word of a 64-bit count that reaches its register returns the low word and latches the high word: LANE_BLOCKS, BLVD_BYTES, HASH_BYTES, RBT_NEXT_LAUNCH and CT_TICK. Each clause names what may change beside; every other part of the state and every other register is as before. Forms whose completion it states: laneBlocksLoRead, blvdBytesLoRead, hashBytesLoRead, rbtNextLaunchLoRead, ctTickLoRead. (R162, R163, R164, R122, R305) -/
def Obligations.LatchedCounts : Prop :=
  (∀ (s : State) (src : Src) (g : GroupNo), Reaches s src (rk (0x11 + g.val) Reg.LANE_BLOCKS_LO) → 
    Answers (.laneBlocksLoRead src g) s fun t => t.out = .readData src (toLe 4 (tget 0 s.units.laneBlocks g.val)) :: s.out ∧ reg t (rk (0x11 + g.val) Reg.LANE_BLOCKS_HI) = BitVec.ofNat 32 ((tget 0 s.units.laneBlocks g.val) / 2 ^ 32) ∧ t = { s with out := t.out, regs := t.regs, parBad := t.parBad, quay := { s.quay with msix := t.quay.msix } } ∧ OtherRegs s t [] [Reg.INT_STAT, Reg.ERR_SYND, Reg.ERR_ADDR, Reg.QUAY_LINK_ERR] []) ∧
  (∀ (s : State) (src : Src) (p : PipeNo), Reaches s src (Reg.BLVD_BYTES0_LO + 8 * p.val) → 
    Answers (.blvdBytesLoRead src p) s fun t => t.out = .readData src (toLe 4 (tget 0 s.units.blvdBytes p.val)) :: s.out ∧ reg t (Reg.BLVD_BYTES0_HI + 8 * p.val) = BitVec.ofNat 32 ((tget 0 s.units.blvdBytes p.val) / 2 ^ 32) ∧ t = { s with out := t.out, regs := t.regs, parBad := t.parBad, quay := { s.quay with msix := t.quay.msix } } ∧ OtherRegs s t [] [Reg.INT_STAT, Reg.ERR_SYND, Reg.ERR_ADDR] [0x19]) ∧
  (∀ (s : State) (src : Src), Reaches s src Reg.HASH_BYTES_LO → 
    Answers (.hashBytesLoRead src) s fun t => t.out = .readData src (toLe 4 s.units.hashBytes) :: s.out ∧ reg t Reg.HASH_BYTES_HI = BitVec.ofNat 32 (s.units.hashBytes / 2 ^ 32) ∧ t = { s with out := t.out, regs := t.regs, parBad := t.parBad, quay := { s.quay with msix := t.quay.msix } } ∧ OtherRegs s t [Reg.HASH_BYTES_HI] [Reg.INT_STAT, Reg.ERR_SYND, Reg.ERR_ADDR] []) ∧
  (∀ (s : State) (src : Src), Reaches s src Reg.RBT_NEXT_LAUNCH_LO → 
    Answers (.rbtNextLaunchLoRead src) s fun t => t.out = .readData src (toLe 4 (nextLaunch s)) :: s.out ∧ reg t Reg.RBT_NEXT_LAUNCH_HI = BitVec.ofNat 32 ((nextLaunch s) / 2 ^ 32) ∧ t = { s with out := t.out, regs := t.regs, parBad := t.parBad, quay := { s.quay with msix := t.quay.msix } } ∧ OtherRegs s t [Reg.RBT_NEXT_LAUNCH_HI] [Reg.INT_STAT, Reg.ERR_SYND, Reg.ERR_ADDR] []) ∧
  (∀ (s : State) (src : Src), Reaches s src Reg.CT_TICK_LO → 
    Answers (.ctTickLoRead src) s fun t => t.out = .readData src (toLe 4 s.tick) :: s.out ∧ reg t Reg.CT_TICK_HI = BitVec.ofNat 32 (s.tick / 2 ^ 32) ∧ t = { s with out := t.out, regs := t.regs, parBad := t.parBad, quay := { s.quay with msix := t.quay.msix } } ∧ OtherRegs s t [Reg.CT_TICK_HI, Reg.CT_EPOCH_LO, Reg.CT_EPOCH_HI] [Reg.INT_STAT, Reg.ERR_SYND, Reg.ERR_ADDR] [])

/-- A read-back of a pending block of an invocation counter, or of a DUKPT counter, that succeeds on a device without a partner records the block in the half of its parity and, where the block is of the parity the device issues from and no command waits for another, confirms it; on a paired device it is recorded and sent to the partner, whose confirmation it then waits for; one that fails is counted and retried, the block still pending; with no block pending, or while the partner's confirmation is awaited, nothing happens. Each clause names what may change beside; every other part of the state and every other register is as before. Forms whose completion it states: reservationConfirm, dukptReservationConfirm. (R138, R139, R234) -/
def Obligations.Reservations : Prop :=
  (∀ (s : State) (n : SlotNo) (b : Nat), (ctrAt s n.val).pend = some b → paired s = false → rsvMirrored s n.val b false = false → 
    Answers (.reservationConfirm n true) s fun t => rsvAt t n.val = rsvPut (rsvAt s n.val) false n.val b ∧ t = { s with out := t.out, regs := t.regs, parBad := t.parBad, wins := t.wins, quay := { s.quay with ctxs := t.quay.ctxs, msix := t.quay.msix }, units := { s.units with heldRetry := t.units.heldRetry }, mews := { s.mews with ctrs := t.mews.ctrs, dukpt := t.mews.dukpt }, kerb := { s.kerb with reports := t.kerb.reports }, fer := { s.fer with rsv := t.fer.rsv, dukpt := t.fer.dukpt }, fnt := { s.fnt with state := t.fnt.state, absorbed := t.fnt.absorbed, credit := t.fnt.credit, seed := t.fnt.seed, int := t.fnt.int, sw := t.fnt.sw, katBusy := t.fnt.katBusy, part := t.fnt.part, rngDead := t.fnt.rngDead }, xing := { s.xing with mirror := t.xing.mirror, sess := t.xing.sess } } ∧ OtherRegs s t [Reg.LANE_RSV_CNT, Reg.COMP_DUKPT_RSV] [Reg.PAGE_STAT, Reg.INT_STAT, Reg.ERR_SYND, Reg.ERR_ADDR, Reg.FAULT_CNT] []) ∧
  (∀ (s : State) (n : SlotNo) (b : Nat), (ctrAt s n.val).pend = some b → b % 2 = (ctrAt s n.val).blk % 2 → tfind s.mews.ctrs n.val = some (ctrAt s n.val) → paired s = false → rsvMirrored s n.val b false = false → (s.quay.ctxs.any fun e => e.2.waitRsv) = false → 
    Answers (.reservationConfirm n true) s fun t => (ctrAt t n.val).conf = some (max b ((ctrAt s n.val).conf.getD 0)) ∧ (ctrAt t n.val).pend = none ∧ t = { s with out := t.out, regs := t.regs, parBad := t.parBad, wins := t.wins, quay := { s.quay with ctxs := t.quay.ctxs, msix := t.quay.msix }, units := { s.units with heldRetry := t.units.heldRetry }, mews := { s.mews with ctrs := t.mews.ctrs, dukpt := t.mews.dukpt }, kerb := { s.kerb with reports := t.kerb.reports }, fer := { s.fer with rsv := t.fer.rsv, dukpt := t.fer.dukpt }, fnt := { s.fnt with state := t.fnt.state, absorbed := t.fnt.absorbed, credit := t.fnt.credit, seed := t.fnt.seed, int := t.fnt.int, sw := t.fnt.sw, katBusy := t.fnt.katBusy, part := t.fnt.part, rngDead := t.fnt.rngDead }, xing := { s.xing with mirror := t.xing.mirror, sess := t.xing.sess } } ∧ OtherRegs s t [Reg.LANE_RSV_CNT, Reg.COMP_DUKPT_RSV] [Reg.PAGE_STAT, Reg.INT_STAT, Reg.ERR_SYND, Reg.ERR_ADDR, Reg.FAULT_CNT] []) ∧
  (∀ (s : State) (n : SlotNo) (b : Nat), (dukptAt s n.val).pend = some b → paired s = false → rsvMirrored s n.val b true = false → 
    Answers (.dukptReservationConfirm n true) s fun t => dukptRec t n.val = rsvPut (dukptRec s n.val) true n.val b ∧ t = { s with out := t.out, regs := t.regs, parBad := t.parBad, wins := t.wins, quay := { s.quay with ctxs := t.quay.ctxs, msix := t.quay.msix }, mews := { s.mews with ctrs := t.mews.ctrs, dukpt := t.mews.dukpt }, kerb := { s.kerb with reports := t.kerb.reports }, fer := { s.fer with rsv := t.fer.rsv, dukpt := t.fer.dukpt }, fnt := { s.fnt with state := t.fnt.state, absorbed := t.fnt.absorbed, credit := t.fnt.credit, seed := t.fnt.seed, int := t.fnt.int, sw := t.fnt.sw, katBusy := t.fnt.katBusy, part := t.fnt.part, rngDead := t.fnt.rngDead }, xing := { s.xing with mirror := t.xing.mirror, sess := t.xing.sess } } ∧ OtherRegs s t [Reg.LANE_RSV_CNT, Reg.COMP_DUKPT_RSV] [Reg.PAGE_STAT, Reg.INT_STAT, Reg.ERR_SYND, Reg.ERR_ADDR, Reg.FAULT_CNT] []) ∧
  (∀ (s : State) (n : SlotNo) (b : Nat), (dukptAt s n.val).pend = some b → b % 2 = (dukptAt s n.val).par → tfind s.mews.dukpt n.val = some (dukptAt s n.val) → paired s = false → rsvMirrored s n.val b true = false → (dukptAt s n.val).next ≤ b * 1024 → (s.quay.ctxs.any fun e => e.2.waitRsv) = false → 
    Answers (.dukptReservationConfirm n true) s fun t => (dukptAt t n.val).top = some (max b ((dukptAt s n.val).top.getD 0)) ∧ (dukptAt t n.val).pend = none ∧ t = { s with out := t.out, regs := t.regs, parBad := t.parBad, wins := t.wins, quay := { s.quay with ctxs := t.quay.ctxs, msix := t.quay.msix }, mews := { s.mews with ctrs := t.mews.ctrs, dukpt := t.mews.dukpt }, kerb := { s.kerb with reports := t.kerb.reports }, fer := { s.fer with rsv := t.fer.rsv, dukpt := t.fer.dukpt }, fnt := { s.fnt with state := t.fnt.state, absorbed := t.fnt.absorbed, credit := t.fnt.credit, seed := t.fnt.seed, int := t.fnt.int, sw := t.fnt.sw, katBusy := t.fnt.katBusy, part := t.fnt.part, rngDead := t.fnt.rngDead }, xing := { s.xing with mirror := t.xing.mirror, sess := t.xing.sess } } ∧ OtherRegs s t [Reg.LANE_RSV_CNT, Reg.COMP_DUKPT_RSV] [Reg.PAGE_STAT, Reg.INT_STAT, Reg.ERR_SYND, Reg.ERR_ADDR, Reg.FAULT_CNT] []) ∧
  (∀ (s : State) (n : SlotNo) (b : Nat), (ctrAt s n.val).pend = some b → paired s = true → rsvMirrored s n.val b false = false → 
    Answers (.reservationConfirm n true) s fun t => rsvAt t n.val = rsvPut (rsvAt s n.val) false n.val b ∧ rsvMirrored t n.val b false = true ∧ t = { s with out := t.out, regs := t.regs, parBad := t.parBad, wins := t.wins, quay := { s.quay with ctxs := t.quay.ctxs, msix := t.quay.msix }, units := { s.units with heldRetry := t.units.heldRetry }, mews := { s.mews with ctrs := t.mews.ctrs, dukpt := t.mews.dukpt }, kerb := { s.kerb with reports := t.kerb.reports }, fer := { s.fer with rsv := t.fer.rsv, dukpt := t.fer.dukpt }, fnt := { s.fnt with state := t.fnt.state, absorbed := t.fnt.absorbed, credit := t.fnt.credit, seed := t.fnt.seed, int := t.fnt.int, sw := t.fnt.sw, katBusy := t.fnt.katBusy, part := t.fnt.part, rngDead := t.fnt.rngDead }, xing := { s.xing with mirror := t.xing.mirror, sess := t.xing.sess } } ∧ OtherRegs s t [Reg.LANE_RSV_CNT, Reg.COMP_DUKPT_RSV] [Reg.PAGE_STAT, Reg.INT_STAT, Reg.ERR_SYND, Reg.ERR_ADDR, Reg.FAULT_CNT] []) ∧
  (∀ (s : State) (n : SlotNo) (b : Nat), (dukptAt s n.val).pend = some b → paired s = true → rsvMirrored s n.val b true = false → 
    Answers (.dukptReservationConfirm n true) s fun t => dukptRec t n.val = rsvPut (dukptRec s n.val) true n.val b ∧ rsvMirrored t n.val b true = true ∧ t = { s with out := t.out, regs := t.regs, parBad := t.parBad, wins := t.wins, quay := { s.quay with ctxs := t.quay.ctxs, msix := t.quay.msix }, mews := { s.mews with ctrs := t.mews.ctrs, dukpt := t.mews.dukpt }, kerb := { s.kerb with reports := t.kerb.reports }, fer := { s.fer with rsv := t.fer.rsv, dukpt := t.fer.dukpt }, fnt := { s.fnt with state := t.fnt.state, absorbed := t.fnt.absorbed, credit := t.fnt.credit, seed := t.fnt.seed, int := t.fnt.int, sw := t.fnt.sw, katBusy := t.fnt.katBusy, part := t.fnt.part, rngDead := t.fnt.rngDead }, xing := { s.xing with mirror := t.xing.mirror, sess := t.xing.sess } } ∧ OtherRegs s t [Reg.LANE_RSV_CNT, Reg.COMP_DUKPT_RSV] [Reg.PAGE_STAT, Reg.INT_STAT, Reg.ERR_SYND, Reg.ERR_ADDR, Reg.FAULT_CNT] []) ∧
  (∀ (s : State) (n : SlotNo) (b : Nat), (ctrAt s n.val).pend = some b → rsvMirrored s n.val b false = false → 
    Answers (.reservationConfirm n false) s fun t => ctrAt t n.val = ctrAt s n.val ∧ (fld t Reg.LANE_RSV_CNT 31 16 = min 65535 (fld s Reg.LANE_RSV_CNT 31 16 + 1)) ∧ t = { s with out := t.out, regs := t.regs, parBad := t.parBad, wins := t.wins, quay := { s.quay with ctxs := t.quay.ctxs, msix := t.quay.msix }, units := { s.units with heldRetry := t.units.heldRetry }, mews := { s.mews with ctrs := t.mews.ctrs, dukpt := t.mews.dukpt }, kerb := { s.kerb with reports := t.kerb.reports }, fer := { s.fer with rsv := t.fer.rsv, dukpt := t.fer.dukpt }, fnt := { s.fnt with state := t.fnt.state, absorbed := t.fnt.absorbed, credit := t.fnt.credit, seed := t.fnt.seed, int := t.fnt.int, sw := t.fnt.sw, katBusy := t.fnt.katBusy, part := t.fnt.part, rngDead := t.fnt.rngDead }, xing := { s.xing with mirror := t.xing.mirror, sess := t.xing.sess } } ∧ OtherRegs s t [Reg.LANE_RSV_CNT, Reg.COMP_DUKPT_RSV] [Reg.PAGE_STAT, Reg.INT_STAT, Reg.ERR_SYND, Reg.ERR_ADDR, Reg.FAULT_CNT] []) ∧
  (∀ (s : State) (n : SlotNo) (ok : Bool), ((ctrAt s n.val).pend.any fun b => !rsvMirrored s n.val b false) = false → 
    Answers (.reservationConfirm n ok) s fun t => t = s) ∧
  (∀ (s : State) (n : SlotNo) (b : Nat), (dukptAt s n.val).pend = some b → rsvMirrored s n.val b true = false → 
    Answers (.dukptReservationConfirm n false) s fun t => dukptAt t n.val = dukptAt s n.val ∧ (fld t Reg.COMP_DUKPT_RSV 31 16 = min 65535 (fld s Reg.COMP_DUKPT_RSV 31 16 + 1)) ∧ t = { s with out := t.out, regs := t.regs, parBad := t.parBad, wins := t.wins, quay := { s.quay with ctxs := t.quay.ctxs, msix := t.quay.msix }, mews := { s.mews with ctrs := t.mews.ctrs, dukpt := t.mews.dukpt }, kerb := { s.kerb with reports := t.kerb.reports }, fer := { s.fer with rsv := t.fer.rsv, dukpt := t.fer.dukpt }, fnt := { s.fnt with state := t.fnt.state, absorbed := t.fnt.absorbed, credit := t.fnt.credit, seed := t.fnt.seed, int := t.fnt.int, sw := t.fnt.sw, katBusy := t.fnt.katBusy, part := t.fnt.part, rngDead := t.fnt.rngDead }, xing := { s.xing with mirror := t.xing.mirror, sess := t.xing.sess } } ∧ OtherRegs s t [Reg.LANE_RSV_CNT, Reg.COMP_DUKPT_RSV] [Reg.PAGE_STAT, Reg.INT_STAT, Reg.ERR_SYND, Reg.ERR_ADDR, Reg.FAULT_CNT] []) ∧
  (∀ (s : State) (n : SlotNo) (ok : Bool), ((dukptAt s n.val).pend.any fun b => !rsvMirrored s n.val b true) = false → 
    Answers (.dukptReservationConfirm n ok) s fun t => t = s)

/-- On a device that is neither PAIRED nor ISOLATED, KEY_GENERATE with its Fountain bytes there, KEY_DERIVE, and KEY_IMPORT whose whole blob has arrived, opens and passes its checks put the new key into the head of their run at the slot's next generation, assigned to the queue's domain, and end with the new handle in AUX; KEY_ERASE leaves the slot EMPTY at its next generation. A blob that does not open ends KEY_IMPORT with AUTH_FAIL, one that fails a check with that failure, and neither changes a slot. While ISOLATED the four end with ABORTED and DETAIL 0x09; on a PAIRED device that is not the sequencer each forwards its commit and waits. KEY_EXPORT writes the blob to its destination where a window covers it, and ends with ACCESS and DETAIL 0x02 where none does; KEY_QUERY returns the attribute word, but an uncorrectable error found in the key's head empties the slot. A KEY_EXPORT, or a KEY_IMPORT whose turn has come, whose blob is there and whose ROOT operand is not kept any more, ends with KEY_REVOKED. A command that is not placed, whose turn among the slot writes has not come or whose bytes are not there does nothing yet. Each clause names what may change beside; every other part of the state and every other register is as before. Forms whose completion it states: keyGenerate, keyDerive, keyImport, keyExport, keyErase, keyQuery. (R114, R166, R172, R182, R183, R184, R185, R186, R187, R188, R192, R197) -/
def Obligations.KeyCommands : Prop :=
  (∀ (s : State) (c : CtxNo) (x : Ctx) (b : Bytes), ctxAt s c.val = some x → x.d.opcode = 0x30 → x.phase = .placed → slotWriteWaits s c.val x = false → drawn s c.val = some b → paired s = false → s.xing.state ≠ 5 → 
    Answers (.keyGenerate c) s fun t => slotAt t (targetOf x 0) = { newKey x (templateOf x.param) (fit (algBytes (templateOf x.param).alg) b) with gen := nextGen (slotAt s (targetOf x 0)).gen, mat := matPart (fit (algBytes (templateOf x.param).alg) b) (algRun (templateOf x.param).alg) 0 } ∧ ctxAt t c.val = none ∧ (OnlyKeyUser s c.val → Deliverable s x → Completed s t c.val x { okEnd x with aux := mkHandle (targetOf x 0) (nextGen (slotAt s (targetOf x 0)).gen) }) ∧ t = { s with out := t.out, regs := t.regs, parBad := t.parBad, wins := t.wins, quay := { s.quay with queues := t.quay.queues, doms := t.quay.doms, domRR := t.quay.domRR, ctxs := t.quay.ctxs, msix := t.quay.msix }, units := { s.units with cipher := t.units.cipher, hash := t.units.hash, arc := t.units.arc }, mews := { s.mews with slots := t.mews.slots, cascades := t.mews.cascades }, kerb := { s.kerb with reports := t.kerb.reports }, fnt := { s.fnt with state := t.fnt.state, absorbed := t.fnt.absorbed, credit := t.fnt.credit, seed := t.fnt.seed, int := t.fnt.int, sw := t.fnt.sw, katBusy := t.fnt.katBusy, draws := t.fnt.draws, part := t.fnt.part, got := t.fnt.got, rng := t.fnt.rng, rngDone := t.fnt.rngDone, rngDead := t.fnt.rngDead }, curves := t.curves, xing := { s.xing with mirror := t.xing.mirror, sess := t.xing.sess }, chk := { s.chk with slotBad := t.chk.slotBad } } ∧ OtherRegs s t [Reg.QUAY_RPL_HITS, Reg.RBT_LATE, Reg.MEWS_REVOKES, Reg.COMP_AUTH_FAIL, Reg.COMP_DONE] [Reg.PAGE_STAT, Reg.INT_STAT, Reg.ERR_SYND, Reg.ERR_ADDR, Reg.FAULT_CNT, Reg.QUAY_LINK_STAT] []) ∧
  (∀ (s : State) (c : CtxNo) (x : Ctx), ctxAt s c.val = some x → x.d.opcode = 0x31 → x.phase = .placed → slotWriteWaits s c.val x = false → paired s = false → s.xing.state ≠ 5 → 
    Answers (.keyDerive c) s fun t => slotAt t (targetOf x 1) = { newKey x ({ templateOf x.param with parent := x.d.handle } : Slot) (kdf (algOf x 0) (operandMat s x 0) (sl x.param 0x14 4) (sl x.param 0x18 (bits x.d.arg 5 0)) (algBits (templateOf x.param).alg)) with gen := nextGen (slotAt s (targetOf x 1)).gen, mat := matPart (kdf (algOf x 0) (operandMat s x 0) (sl x.param 0x14 4) (sl x.param 0x18 (bits x.d.arg 5 0)) (algBits (templateOf x.param).alg)) (algRun ({ templateOf x.param with parent := x.d.handle } : Slot).alg) 0 } ∧ ctxAt t c.val = none ∧ (OnlyKeyUser s c.val → Deliverable s x → Completed s t c.val x { okEnd x with aux := mkHandle (targetOf x 1) (nextGen (slotAt s (targetOf x 1)).gen) }) ∧ t = { s with out := t.out, regs := t.regs, parBad := t.parBad, wins := t.wins, quay := { s.quay with queues := t.quay.queues, doms := t.quay.doms, domRR := t.quay.domRR, ctxs := t.quay.ctxs, msix := t.quay.msix }, units := { s.units with cipher := t.units.cipher, hash := t.units.hash, arc := t.units.arc }, mews := { s.mews with slots := t.mews.slots, cascades := t.mews.cascades }, kerb := { s.kerb with reports := t.kerb.reports }, fnt := { s.fnt with state := t.fnt.state, absorbed := t.fnt.absorbed, credit := t.fnt.credit, seed := t.fnt.seed, int := t.fnt.int, sw := t.fnt.sw, katBusy := t.fnt.katBusy, draws := t.fnt.draws, part := t.fnt.part, got := t.fnt.got, rng := t.fnt.rng, rngDone := t.fnt.rngDone, rngDead := t.fnt.rngDead }, curves := t.curves, xing := { s.xing with mirror := t.xing.mirror, sess := t.xing.sess }, chk := { s.chk with slotBad := t.chk.slotBad } } ∧ OtherRegs s t [Reg.QUAY_RPL_HITS, Reg.RBT_LATE, Reg.MEWS_REVOKES, Reg.COMP_AUTH_FAIL, Reg.COMP_DONE] [Reg.PAGE_STAT, Reg.INT_STAT, Reg.ERR_SYND, Reg.ERR_ADDR, Reg.FAULT_CNT, Reg.QUAY_LINK_STAT] []) ∧
  (∀ (s : State) (c : CtxNo) (x : Ctx), ctxAt s c.val = some x → x.d.opcode = 0x32 → x.phase = .placed → slotWriteWaits s c.val x = false → x.d.len ≤ x.srcIn.length → rootGone s x = false → paired s = false → s.xing.state ≠ 5 → 
    Answers (.keyImport c) s fun t => (match openBlob s x x.srcIn with
      | none => (Deliverable s x → Completed s t c.val x { status := 0x05 }) ∧ t.mews.slots = s.mews.slots
      | some (attr, mat) => match importCheck s x (fromTemplate attr) (byteAt x.srcIn 5) (bits attr 75 64) (targetOf x 1) with
        | some f => (Deliverable s x → Completed s t c.val x { status := f.1, detail := f.2 }) ∧ t.mews.slots = s.mews.slots
        | none => slotAt t (targetOf x 1) = { newKey x (fromTemplate attr) mat with gen := nextGen (slotAt s (targetOf x 1)).gen, mat := matPart mat (algRun (fromTemplate attr).alg) 0 } ∧ ctxAt t c.val = none ∧ (OnlyKeyUser s c.val → Deliverable s x → Completed s t c.val x { okEnd x with bytesDone := x.d.len, aux := mkHandle (targetOf x 1) (nextGen (slotAt s (targetOf x 1)).gen) })) ∧ t = { s with out := t.out, regs := t.regs, parBad := t.parBad, wins := t.wins, quay := { s.quay with queues := t.quay.queues, doms := t.quay.doms, domRR := t.quay.domRR, ctxs := t.quay.ctxs, msix := t.quay.msix }, units := { s.units with cipher := t.units.cipher, hash := t.units.hash, arc := t.units.arc }, mews := { s.mews with slots := t.mews.slots, cascades := t.mews.cascades }, kerb := { s.kerb with reports := t.kerb.reports }, fnt := { s.fnt with state := t.fnt.state, absorbed := t.fnt.absorbed, credit := t.fnt.credit, seed := t.fnt.seed, int := t.fnt.int, sw := t.fnt.sw, katBusy := t.fnt.katBusy, draws := t.fnt.draws, part := t.fnt.part, got := t.fnt.got, rng := t.fnt.rng, rngDone := t.fnt.rngDone, rngDead := t.fnt.rngDead }, curves := t.curves, xing := { s.xing with mirror := t.xing.mirror, sess := t.xing.sess }, chk := { s.chk with slotBad := t.chk.slotBad } } ∧ OtherRegs s t [Reg.QUAY_RPL_HITS, Reg.RBT_LATE, Reg.MEWS_REVOKES, Reg.COMP_AUTH_FAIL, Reg.COMP_DONE] [Reg.PAGE_STAT, Reg.INT_STAT, Reg.ERR_SYND, Reg.ERR_ADDR, Reg.FAULT_CNT, Reg.QUAY_LINK_STAT] []) ∧
  (∀ (s : State) (c : CtxNo) (x : Ctx), ctxAt s c.val = some x → x.d.opcode = 0x33 → x.phase = .placed → rootGone s x = false → x.d.dstSgl = false → x.wrote = 0 → x.dstChk = 0 → covered (queueAt s x.q) true x.d.dst (blobLen (slotAt s (targetOf x 1)).alg) = true → Deliverable s x → 
    Answers (.keyExport ⟨c, none⟩) s fun t => Out.hostWrite (qFunc (queueAt s x.q)) x.d.dst (makeBlob s x (targetOf x 1)) (pcieOf s (qFunc (queueAt s x.q))).ro ∈ t.out ∧ Completed s t c.val x { okEnd x with bytesDone := blobLen (slotAt s (targetOf x 1)).alg } ∧ t.mews.slots = s.mews.slots ∧ t = { s with out := t.out, regs := t.regs, parBad := t.parBad, wins := t.wins, quay := { s.quay with queues := t.quay.queues, doms := t.quay.doms, domRR := t.quay.domRR, ctxs := t.quay.ctxs, msix := t.quay.msix }, units := { s.units with cipher := t.units.cipher, hash := t.units.hash, arc := t.units.arc }, kerb := { s.kerb with reports := t.kerb.reports }, fnt := { s.fnt with state := t.fnt.state, absorbed := t.fnt.absorbed, credit := t.fnt.credit, seed := t.fnt.seed, int := t.fnt.int, sw := t.fnt.sw, katBusy := t.fnt.katBusy, draws := t.fnt.draws, part := t.fnt.part, got := t.fnt.got, rng := t.fnt.rng, rngDone := t.fnt.rngDone, rngDead := t.fnt.rngDead }, xing := { s.xing with mirror := t.xing.mirror, sess := t.xing.sess } } ∧ OtherRegs s t [Reg.QUAY_RPL_HITS, Reg.RBT_LATE, Reg.COMP_AUTH_FAIL, Reg.COMP_DONE] [Reg.PAGE_STAT, Reg.INT_STAT, Reg.ERR_SYND, Reg.ERR_ADDR, Reg.FAULT_CNT, Reg.QUAY_LINK_STAT] []) ∧
  (∀ (s : State) (c : CtxNo) (x : Ctx), ctxAt s c.val = some x → x.d.opcode = 0x33 → x.phase = .placed → x.d.len ≤ x.srcIn.length → rootGone s x = true → Deliverable s x → 
    Answers (.keyExport ⟨c, none⟩) s fun t => Completed s t c.val x { status := 0x02 } ∧ t.mews.slots = s.mews.slots ∧ t = { s with out := t.out, regs := t.regs, parBad := t.parBad, wins := t.wins, quay := { s.quay with queues := t.quay.queues, doms := t.quay.doms, domRR := t.quay.domRR, ctxs := t.quay.ctxs, msix := t.quay.msix }, units := { s.units with cipher := t.units.cipher, hash := t.units.hash, arc := t.units.arc }, kerb := { s.kerb with reports := t.kerb.reports }, fnt := { s.fnt with state := t.fnt.state, absorbed := t.fnt.absorbed, credit := t.fnt.credit, seed := t.fnt.seed, int := t.fnt.int, sw := t.fnt.sw, katBusy := t.fnt.katBusy, draws := t.fnt.draws, part := t.fnt.part, got := t.fnt.got, rng := t.fnt.rng, rngDone := t.fnt.rngDone, rngDead := t.fnt.rngDead }, xing := { s.xing with mirror := t.xing.mirror, sess := t.xing.sess } } ∧ OtherRegs s t [Reg.QUAY_RPL_HITS, Reg.RBT_LATE, Reg.COMP_AUTH_FAIL, Reg.COMP_DONE] [Reg.PAGE_STAT, Reg.INT_STAT, Reg.ERR_SYND, Reg.ERR_ADDR, Reg.FAULT_CNT, Reg.QUAY_LINK_STAT] []) ∧
  (∀ (s : State) (c : CtxNo) (x : Ctx), ctxAt s c.val = some x → x.d.opcode = 0x32 → x.phase = .placed → x.d.len ≤ x.srcIn.length → rootGone s x = true → Deliverable s x → slotWriteWaits s c.val x = false → 
    Answers (.keyImport c) s fun t => Completed s t c.val x { status := 0x02 } ∧ t.mews.slots = s.mews.slots ∧ t = { s with out := t.out, regs := t.regs, parBad := t.parBad, wins := t.wins, quay := { s.quay with queues := t.quay.queues, doms := t.quay.doms, domRR := t.quay.domRR, ctxs := t.quay.ctxs, msix := t.quay.msix }, units := { s.units with cipher := t.units.cipher, hash := t.units.hash, arc := t.units.arc }, mews := { s.mews with slots := t.mews.slots, cascades := t.mews.cascades }, kerb := { s.kerb with reports := t.kerb.reports }, fnt := { s.fnt with state := t.fnt.state, absorbed := t.fnt.absorbed, credit := t.fnt.credit, seed := t.fnt.seed, int := t.fnt.int, sw := t.fnt.sw, katBusy := t.fnt.katBusy, draws := t.fnt.draws, part := t.fnt.part, got := t.fnt.got, rng := t.fnt.rng, rngDone := t.fnt.rngDone, rngDead := t.fnt.rngDead }, curves := t.curves, xing := { s.xing with mirror := t.xing.mirror, sess := t.xing.sess }, chk := { s.chk with slotBad := t.chk.slotBad } } ∧ OtherRegs s t [Reg.QUAY_RPL_HITS, Reg.RBT_LATE, Reg.MEWS_REVOKES, Reg.COMP_AUTH_FAIL, Reg.COMP_DONE] [Reg.PAGE_STAT, Reg.INT_STAT, Reg.ERR_SYND, Reg.ERR_ADDR, Reg.FAULT_CNT, Reg.QUAY_LINK_STAT] []) ∧
  (∀ (s : State) (c : CtxNo) (x : Ctx), ctxAt s c.val = some x → x.d.opcode = 0x33 → x.phase = .placed → rootGone s x = false → x.d.dstSgl = false → x.wrote = 0 → x.dstChk = 0 → covered (queueAt s x.q) true x.d.dst (blobLen (slotAt s (targetOf x 1)).alg) = false → Deliverable s x → 
    Answers (.keyExport ⟨c, none⟩) s fun t => Completed s t c.val x { status := 0x04, detail := 0x02 } ∧ t.mews.slots = s.mews.slots ∧ t = { s with out := t.out, regs := t.regs, parBad := t.parBad, wins := t.wins, quay := { s.quay with queues := t.quay.queues, doms := t.quay.doms, domRR := t.quay.domRR, ctxs := t.quay.ctxs, msix := t.quay.msix }, units := { s.units with cipher := t.units.cipher, hash := t.units.hash, arc := t.units.arc }, kerb := { s.kerb with reports := t.kerb.reports }, fnt := { s.fnt with state := t.fnt.state, absorbed := t.fnt.absorbed, credit := t.fnt.credit, seed := t.fnt.seed, int := t.fnt.int, sw := t.fnt.sw, katBusy := t.fnt.katBusy, draws := t.fnt.draws, part := t.fnt.part, got := t.fnt.got, rng := t.fnt.rng, rngDone := t.fnt.rngDone, rngDead := t.fnt.rngDead }, xing := { s.xing with mirror := t.xing.mirror, sess := t.xing.sess } } ∧ OtherRegs s t [Reg.QUAY_RPL_HITS, Reg.RBT_LATE, Reg.COMP_AUTH_FAIL, Reg.COMP_DONE] [Reg.PAGE_STAT, Reg.INT_STAT, Reg.ERR_SYND, Reg.ERR_ADDR, Reg.FAULT_CNT, Reg.QUAY_LINK_STAT] []) ∧
  (∀ (s : State) (c : CtxNo) (x : Ctx), ctxAt s c.val = some x → x.d.opcode = 0x34 → x.phase = .placed → slotWriteWaits s c.val x = false → (isCont (slotAt s (targetOf x 0)) = true → targetOf x 0 ∈ runOf s (hSlot (slotAt s (targetOf x 0)).parent)) → paired s = false → s.xing.state ≠ 5 → 
    Answers (.keyErase c) s fun t => slotAt t (targetOf x 0) = emptied (slotAt s (targetOf x 0)) ∧ ctxAt t c.val = none ∧ (OnlyKeyUser s c.val → Deliverable s x → Completed s t c.val x { okEnd x with aux := mkHandle (targetOf x 0) (nextGen (slotAt s (targetOf x 0)).gen) }) ∧ t = { s with out := t.out, regs := t.regs, parBad := t.parBad, wins := t.wins, quay := { s.quay with queues := t.quay.queues, doms := t.quay.doms, domRR := t.quay.domRR, ctxs := t.quay.ctxs, msix := t.quay.msix }, units := { s.units with cipher := t.units.cipher, hash := t.units.hash, arc := t.units.arc }, mews := { s.mews with slots := t.mews.slots, cascades := t.mews.cascades }, kerb := { s.kerb with reports := t.kerb.reports }, fnt := { s.fnt with state := t.fnt.state, absorbed := t.fnt.absorbed, credit := t.fnt.credit, seed := t.fnt.seed, int := t.fnt.int, sw := t.fnt.sw, katBusy := t.fnt.katBusy, draws := t.fnt.draws, part := t.fnt.part, got := t.fnt.got, rng := t.fnt.rng, rngDone := t.fnt.rngDone, rngDead := t.fnt.rngDead }, curves := t.curves, xing := { s.xing with mirror := t.xing.mirror, sess := t.xing.sess }, chk := { s.chk with slotBad := t.chk.slotBad } } ∧ OtherRegs s t [Reg.QUAY_RPL_HITS, Reg.RBT_LATE, Reg.MEWS_REVOKES, Reg.COMP_AUTH_FAIL, Reg.COMP_DONE] [Reg.PAGE_STAT, Reg.INT_STAT, Reg.ERR_SYND, Reg.ERR_ADDR, Reg.FAULT_CNT, Reg.QUAY_LINK_STAT] []) ∧
  (∀ (s : State) (c : CtxNo) (x : Ctx), ctxAt s c.val = some x → x.d.opcode = 0x30 → x.phase = .placed → slotWriteWaits s c.val x = false → (drawn s c.val).isSome = true → s.xing.state = 5 → Deliverable s x → 
    Answers (.keyGenerate c) s fun t => Completed s t c.val x { status := 0x08, detail := 0x09 } ∧ t.mews.slots = s.mews.slots ∧ t = { s with out := t.out, regs := t.regs, parBad := t.parBad, wins := t.wins, quay := { s.quay with queues := t.quay.queues, doms := t.quay.doms, domRR := t.quay.domRR, ctxs := t.quay.ctxs, msix := t.quay.msix }, units := { s.units with cipher := t.units.cipher, hash := t.units.hash, arc := t.units.arc }, mews := { s.mews with slots := t.mews.slots, cascades := t.mews.cascades }, kerb := { s.kerb with reports := t.kerb.reports }, fnt := { s.fnt with state := t.fnt.state, absorbed := t.fnt.absorbed, credit := t.fnt.credit, seed := t.fnt.seed, int := t.fnt.int, sw := t.fnt.sw, katBusy := t.fnt.katBusy, draws := t.fnt.draws, part := t.fnt.part, got := t.fnt.got, rng := t.fnt.rng, rngDone := t.fnt.rngDone, rngDead := t.fnt.rngDead }, curves := t.curves, xing := { s.xing with mirror := t.xing.mirror, sess := t.xing.sess }, chk := { s.chk with slotBad := t.chk.slotBad } } ∧ OtherRegs s t [Reg.QUAY_RPL_HITS, Reg.RBT_LATE, Reg.MEWS_REVOKES, Reg.COMP_AUTH_FAIL, Reg.COMP_DONE] [Reg.PAGE_STAT, Reg.INT_STAT, Reg.ERR_SYND, Reg.ERR_ADDR, Reg.FAULT_CNT, Reg.QUAY_LINK_STAT] []) ∧
  (∀ (s : State) (c : CtxNo) (x : Ctx), ctxAt s c.val = some x → x.d.opcode = 0x30 → x.phase = .placed → slotWriteWaits s c.val x = false → (drawn s c.val).isSome = true → paired s = true → s.xing.seqr = false → 
    Answers (.keyGenerate c) s fun t => ctxAt t c.val = some { x with phase := .zeroising, eng := none } ∧ t.mews.slots = s.mews.slots ∧ t.xing.mirror.length = s.xing.mirror.length + 1 ∧ t = { s with out := t.out, regs := t.regs, parBad := t.parBad, wins := t.wins, quay := { s.quay with queues := t.quay.queues, doms := t.quay.doms, domRR := t.quay.domRR, ctxs := t.quay.ctxs, msix := t.quay.msix }, units := { s.units with cipher := t.units.cipher, hash := t.units.hash, arc := t.units.arc }, mews := { s.mews with slots := t.mews.slots, cascades := t.mews.cascades }, kerb := { s.kerb with reports := t.kerb.reports }, fnt := { s.fnt with state := t.fnt.state, absorbed := t.fnt.absorbed, credit := t.fnt.credit, seed := t.fnt.seed, int := t.fnt.int, sw := t.fnt.sw, katBusy := t.fnt.katBusy, draws := t.fnt.draws, part := t.fnt.part, got := t.fnt.got, rng := t.fnt.rng, rngDone := t.fnt.rngDone, rngDead := t.fnt.rngDead }, curves := t.curves, xing := { s.xing with mirror := t.xing.mirror, sess := t.xing.sess }, chk := { s.chk with slotBad := t.chk.slotBad } } ∧ OtherRegs s t [Reg.QUAY_RPL_HITS, Reg.RBT_LATE, Reg.MEWS_REVOKES, Reg.COMP_AUTH_FAIL, Reg.COMP_DONE] [Reg.PAGE_STAT, Reg.INT_STAT, Reg.ERR_SYND, Reg.ERR_ADDR, Reg.FAULT_CNT, Reg.QUAY_LINK_STAT] []) ∧
  (∀ (s : State) (c : CtxNo) (x : Ctx), ctxAt s c.val = some x → x.d.opcode = 0x31 → x.phase = .placed → slotWriteWaits s c.val x = false → s.xing.state = 5 → Deliverable s x → 
    Answers (.keyDerive c) s fun t => Completed s t c.val x { status := 0x08, detail := 0x09 } ∧ t.mews.slots = s.mews.slots ∧ t = { s with out := t.out, regs := t.regs, parBad := t.parBad, wins := t.wins, quay := { s.quay with queues := t.quay.queues, doms := t.quay.doms, domRR := t.quay.domRR, ctxs := t.quay.ctxs, msix := t.quay.msix }, units := { s.units with cipher := t.units.cipher, hash := t.units.hash, arc := t.units.arc }, mews := { s.mews with slots := t.mews.slots, cascades := t.mews.cascades }, kerb := { s.kerb with reports := t.kerb.reports }, fnt := { s.fnt with state := t.fnt.state, absorbed := t.fnt.absorbed, credit := t.fnt.credit, seed := t.fnt.seed, int := t.fnt.int, sw := t.fnt.sw, katBusy := t.fnt.katBusy, draws := t.fnt.draws, part := t.fnt.part, got := t.fnt.got, rng := t.fnt.rng, rngDone := t.fnt.rngDone, rngDead := t.fnt.rngDead }, curves := t.curves, xing := { s.xing with mirror := t.xing.mirror, sess := t.xing.sess }, chk := { s.chk with slotBad := t.chk.slotBad } } ∧ OtherRegs s t [Reg.QUAY_RPL_HITS, Reg.RBT_LATE, Reg.MEWS_REVOKES, Reg.COMP_AUTH_FAIL, Reg.COMP_DONE] [Reg.PAGE_STAT, Reg.INT_STAT, Reg.ERR_SYND, Reg.ERR_ADDR, Reg.FAULT_CNT, Reg.QUAY_LINK_STAT] []) ∧
  (∀ (s : State) (c : CtxNo) (x : Ctx), ctxAt s c.val = some x → x.d.opcode = 0x31 → x.phase = .placed → slotWriteWaits s c.val x = false → paired s = true → s.xing.seqr = false → 
    Answers (.keyDerive c) s fun t => ctxAt t c.val = some { x with phase := .zeroising, eng := none } ∧ t.mews.slots = s.mews.slots ∧ t.xing.mirror.length = s.xing.mirror.length + 1 ∧ t = { s with out := t.out, regs := t.regs, parBad := t.parBad, wins := t.wins, quay := { s.quay with queues := t.quay.queues, doms := t.quay.doms, domRR := t.quay.domRR, ctxs := t.quay.ctxs, msix := t.quay.msix }, units := { s.units with cipher := t.units.cipher, hash := t.units.hash, arc := t.units.arc }, mews := { s.mews with slots := t.mews.slots, cascades := t.mews.cascades }, kerb := { s.kerb with reports := t.kerb.reports }, fnt := { s.fnt with state := t.fnt.state, absorbed := t.fnt.absorbed, credit := t.fnt.credit, seed := t.fnt.seed, int := t.fnt.int, sw := t.fnt.sw, katBusy := t.fnt.katBusy, draws := t.fnt.draws, part := t.fnt.part, got := t.fnt.got, rng := t.fnt.rng, rngDone := t.fnt.rngDone, rngDead := t.fnt.rngDead }, curves := t.curves, xing := { s.xing with mirror := t.xing.mirror, sess := t.xing.sess }, chk := { s.chk with slotBad := t.chk.slotBad } } ∧ OtherRegs s t [Reg.QUAY_RPL_HITS, Reg.RBT_LATE, Reg.MEWS_REVOKES, Reg.COMP_AUTH_FAIL, Reg.COMP_DONE] [Reg.PAGE_STAT, Reg.INT_STAT, Reg.ERR_SYND, Reg.ERR_ADDR, Reg.FAULT_CNT, Reg.QUAY_LINK_STAT] []) ∧
  (∀ (s : State) (c : CtxNo) (x : Ctx), ctxAt s c.val = some x → x.d.opcode = 0x34 → x.phase = .placed → slotWriteWaits s c.val x = false → s.xing.state = 5 → Deliverable s x → 
    Answers (.keyErase c) s fun t => Completed s t c.val x { status := 0x08, detail := 0x09 } ∧ t.mews.slots = s.mews.slots ∧ t = { s with out := t.out, regs := t.regs, parBad := t.parBad, wins := t.wins, quay := { s.quay with queues := t.quay.queues, doms := t.quay.doms, domRR := t.quay.domRR, ctxs := t.quay.ctxs, msix := t.quay.msix }, units := { s.units with cipher := t.units.cipher, hash := t.units.hash, arc := t.units.arc }, mews := { s.mews with slots := t.mews.slots, cascades := t.mews.cascades }, kerb := { s.kerb with reports := t.kerb.reports }, fnt := { s.fnt with state := t.fnt.state, absorbed := t.fnt.absorbed, credit := t.fnt.credit, seed := t.fnt.seed, int := t.fnt.int, sw := t.fnt.sw, katBusy := t.fnt.katBusy, draws := t.fnt.draws, part := t.fnt.part, got := t.fnt.got, rng := t.fnt.rng, rngDone := t.fnt.rngDone, rngDead := t.fnt.rngDead }, curves := t.curves, xing := { s.xing with mirror := t.xing.mirror, sess := t.xing.sess }, chk := { s.chk with slotBad := t.chk.slotBad } } ∧ OtherRegs s t [Reg.QUAY_RPL_HITS, Reg.RBT_LATE, Reg.MEWS_REVOKES, Reg.COMP_AUTH_FAIL, Reg.COMP_DONE] [Reg.PAGE_STAT, Reg.INT_STAT, Reg.ERR_SYND, Reg.ERR_ADDR, Reg.FAULT_CNT, Reg.QUAY_LINK_STAT] []) ∧
  (∀ (s : State) (c : CtxNo) (x : Ctx), ctxAt s c.val = some x → x.d.opcode = 0x34 → x.phase = .placed → slotWriteWaits s c.val x = false → paired s = true → s.xing.seqr = false → 
    Answers (.keyErase c) s fun t => ctxAt t c.val = some { x with phase := .zeroising, eng := none } ∧ t.mews.slots = s.mews.slots ∧ t.xing.mirror.length = s.xing.mirror.length + 1 ∧ t = { s with out := t.out, regs := t.regs, parBad := t.parBad, wins := t.wins, quay := { s.quay with queues := t.quay.queues, doms := t.quay.doms, domRR := t.quay.domRR, ctxs := t.quay.ctxs, msix := t.quay.msix }, units := { s.units with cipher := t.units.cipher, hash := t.units.hash, arc := t.units.arc }, mews := { s.mews with slots := t.mews.slots, cascades := t.mews.cascades }, kerb := { s.kerb with reports := t.kerb.reports }, fnt := { s.fnt with state := t.fnt.state, absorbed := t.fnt.absorbed, credit := t.fnt.credit, seed := t.fnt.seed, int := t.fnt.int, sw := t.fnt.sw, katBusy := t.fnt.katBusy, draws := t.fnt.draws, part := t.fnt.part, got := t.fnt.got, rng := t.fnt.rng, rngDone := t.fnt.rngDone, rngDead := t.fnt.rngDead }, curves := t.curves, xing := { s.xing with mirror := t.xing.mirror, sess := t.xing.sess }, chk := { s.chk with slotBad := t.chk.slotBad } } ∧ OtherRegs s t [Reg.QUAY_RPL_HITS, Reg.RBT_LATE, Reg.MEWS_REVOKES, Reg.COMP_AUTH_FAIL, Reg.COMP_DONE] [Reg.PAGE_STAT, Reg.INT_STAT, Reg.ERR_SYND, Reg.ERR_ADDR, Reg.FAULT_CNT, Reg.QUAY_LINK_STAT] []) ∧
  (∀ (s : State) (c : CtxNo), (ctxAt s c.val).any (fun x => x.d.opcode == 0x30 && decide (x.phase = .placed) && !slotWriteWaits s c.val x && (drawn s c.val).isSome) = false → 
    Answers (.keyGenerate c) s fun t => t = s) ∧
  (∀ (s : State) (c : CtxNo), (ctxAt s c.val).any (fun x => x.d.opcode == 0x31 && decide (x.phase = .placed) && !slotWriteWaits s c.val x) = false → 
    Answers (.keyDerive c) s fun t => t = s) ∧
  (∀ (s : State) (c : CtxNo), (ctxAt s c.val).any (fun x => x.d.opcode == 0x32 && decide (x.phase = .placed) && !slotWriteWaits s c.val x && decide (x.d.len ≤ x.srcIn.length)) = false → 
    Answers (.keyImport c) s fun t => t = s) ∧
  (∀ (s : State) (c : CtxNo) (hit : Option Hit), (ctxAt s c.val).any (fun x => x.d.opcode == 0x33 && decide (x.phase = .placed)) = false → 
    Answers (.keyExport ⟨c, hit⟩) s fun t => t = s) ∧
  (∀ (s : State) (c : CtxNo), (ctxAt s c.val).any (fun x => x.d.opcode == 0x34 && decide (x.phase = .placed) && !slotWriteWaits s c.val x) = false → 
    Answers (.keyErase c) s fun t => t = s) ∧
  (∀ (s : State) (c : CtxNo) (ecc : EccSeen), (ctxAt s c.val).any (fun x => x.d.opcode == 0x35 && decide (x.phase = .placed)) = false → 
    Answers (.keyQuery c ecc) s fun t => t = s) ∧
  (∀ (s : State) (c : CtxNo) (x : Ctx) (ecc : EccSeen), ctxAt s c.val = some x → x.d.opcode = 0x35 → x.phase = .placed → ecc = .clean ∨ ecc = .corrected → Deliverable s x → 
    Answers (.keyQuery c ecc) s fun t => Completed s t c.val x { okEnd x with result := toLe 16 (attrWord (slotAt s (targetOf x 0))) } ∧ t.mews.slots = s.mews.slots ∧ t = { s with out := t.out, regs := t.regs, parBad := t.parBad, wins := t.wins, quay := { s.quay with queues := t.quay.queues, doms := t.quay.doms, domRR := t.quay.domRR, ctxs := t.quay.ctxs, msix := t.quay.msix }, units := { s.units with cipher := t.units.cipher, hash := t.units.hash, arc := t.units.arc }, mews := { s.mews with slots := t.mews.slots, cascades := t.mews.cascades }, kerb := { s.kerb with reports := t.kerb.reports }, fnt := { s.fnt with state := t.fnt.state, absorbed := t.fnt.absorbed, credit := t.fnt.credit, seed := t.fnt.seed, int := t.fnt.int, sw := t.fnt.sw, katBusy := t.fnt.katBusy, draws := t.fnt.draws, part := t.fnt.part, got := t.fnt.got, rng := t.fnt.rng, rngDone := t.fnt.rngDone, rngDead := t.fnt.rngDead }, curves := t.curves, xing := { s.xing with mirror := t.xing.mirror, sess := t.xing.sess }, chk := { s.chk with slotBad := t.chk.slotBad } } ∧ OtherRegs s t [Reg.QUAY_RPL_HITS, Reg.RBT_LATE, Reg.MEWS_REVOKES, Reg.MEWS_KT_ECC, Reg.COMP_AUTH_FAIL, Reg.COMP_DONE, Reg.CHECKPOINT_SRAM_ECC] [Reg.PAGE_STAT, Reg.INT_STAT, Reg.ERR_SYND, Reg.ERR_ADDR, Reg.FAULT_CNT, Reg.QUAY_LINK_STAT] []) ∧
  (∀ (s : State) (c : CtxNo) (x : Ctx) (n : SlotNo) (lost : Bool), ctxAt s c.val = some x → x.d.opcode = 0x35 → x.phase = .placed → n.val = targetOf x 0 → x.keys.any (fun k => decide (k.slot ≤ n.val ∧ n.val < k.slot + k.run)) = true → isLive (slotAt s n.val) = true → paired s = false → s.chk.slotBad.contains n.val = false → 
    Answers (.keyQuery c (.keyTable n lost)) s fun t => slotAt t n.val = emptied (slotAt s n.val) ∧ fld t Reg.MEWS_KT_ECC 31 16 = min 65535 (fld s Reg.MEWS_KT_ECC 31 16 + 1) ∧ t = { s with out := t.out, regs := t.regs, parBad := t.parBad, wins := t.wins, quay := { s.quay with queues := t.quay.queues, doms := t.quay.doms, domRR := t.quay.domRR, ctxs := t.quay.ctxs, msix := t.quay.msix }, units := { s.units with cipher := t.units.cipher, hash := t.units.hash, arc := t.units.arc }, mews := { s.mews with slots := t.mews.slots, cascades := t.mews.cascades }, kerb := { s.kerb with reports := t.kerb.reports }, fnt := { s.fnt with state := t.fnt.state, absorbed := t.fnt.absorbed, credit := t.fnt.credit, seed := t.fnt.seed, int := t.fnt.int, sw := t.fnt.sw, katBusy := t.fnt.katBusy, draws := t.fnt.draws, part := t.fnt.part, got := t.fnt.got, rng := t.fnt.rng, rngDone := t.fnt.rngDone, rngDead := t.fnt.rngDead }, curves := t.curves, xing := { s.xing with mirror := t.xing.mirror, sess := t.xing.sess }, chk := { s.chk with slotBad := t.chk.slotBad } } ∧ OtherRegs s t [Reg.QUAY_RPL_HITS, Reg.RBT_LATE, Reg.MEWS_REVOKES, Reg.MEWS_KT_ECC, Reg.COMP_AUTH_FAIL, Reg.COMP_DONE, Reg.CHECKPOINT_SRAM_ECC] [Reg.PAGE_STAT, Reg.INT_STAT, Reg.ERR_SYND, Reg.ERR_ADDR, Reg.FAULT_CNT, Reg.QUAY_LINK_STAT] [])

/-- A cascade empties the next live descendant at its next generation, and with none left no cascade runs. The end of the overwrite, where no waiting operation goes on, clears ZEROISING, and changes nothing else when nothing was held for it. An assignment command written while none runs, with a range inside the table, begins its operation on that range with RESULT 0; with an empty range or one past the table it begins none and RESULT is 1, and so for the erasing two while ISOLATED (the model's choice, assumption 119); while one runs it is ignored and the value written is recorded with CODE 0x11. When the operation ends, while the table is not being zeroised, every slot of the rest of its range is assigned or unassigned: by ASSIGN and UNASSIGN the EMPTY ones, by the erasing two all. A read of MEWS_SLOT_ATTR0 latches and returns the selected slot's attribute word; where the head's error cannot be corrected and there is no partner, the word of the slot just emptied. Each clause names what may change beside; every other part of the state and every other register is as before. Forms whose completion it states: cascadeRevoke, zeroisingEnd, assign, unassign, eraseAssign, eraseUnassign, assignDone, mewsSlotAttr0Read. (R170, R173, R196, R197, R199, R200, R210, R549) -/
def Obligations.KeyTableEffects : Prop :=
  (∀ (s : State) (h : Nat), (s.mews.cascades.map List.flatten).flatten.find? (liveHandle s) = some h → 
    Answers (.cascadeRevoke) s fun t => slotAt t (hSlot h) = emptied (slotAt s (hSlot h)) ∧ t = { s with out := t.out, regs := t.regs, parBad := t.parBad, wins := t.wins, quay := { s.quay with queues := t.quay.queues, doms := t.quay.doms, domRR := t.quay.domRR, ctxs := t.quay.ctxs, msix := t.quay.msix }, units := { s.units with cipher := t.units.cipher, hash := t.units.hash, arc := t.units.arc }, mews := { s.mews with slots := t.mews.slots, cascades := t.mews.cascades }, kerb := { s.kerb with reports := t.kerb.reports }, fnt := { s.fnt with state := t.fnt.state, absorbed := t.fnt.absorbed, credit := t.fnt.credit, seed := t.fnt.seed, int := t.fnt.int, sw := t.fnt.sw, katBusy := t.fnt.katBusy, draws := t.fnt.draws, part := t.fnt.part, got := t.fnt.got, rng := t.fnt.rng, rngDone := t.fnt.rngDone, rngDead := t.fnt.rngDead }, xing := { s.xing with mirror := t.xing.mirror, sess := t.xing.sess }, chk := { s.chk with slotBad := t.chk.slotBad } } ∧ OtherRegs s t [Reg.QUAY_RPL_HITS, Reg.RBT_LATE, Reg.MEWS_REVOKES, Reg.COMP_AUTH_FAIL, Reg.COMP_DONE] [Reg.PAGE_STAT, Reg.INT_STAT, Reg.ERR_SYND, Reg.ERR_ADDR, Reg.FAULT_CNT, Reg.QUAY_LINK_STAT] []) ∧
  (∀ (s : State), (s.mews.cascades.map List.flatten).flatten.find? (liveHandle s) = none → 
    Answers (.cascadeRevoke) s fun t => t.mews.cascades = [] ∧ t.mews.slots = s.mews.slots ∧ t = { s with out := t.out, regs := t.regs, parBad := t.parBad, wins := t.wins, quay := { s.quay with queues := t.quay.queues, doms := t.quay.doms, domRR := t.quay.domRR, ctxs := t.quay.ctxs, msix := t.quay.msix }, units := { s.units with cipher := t.units.cipher, hash := t.units.hash, arc := t.units.arc }, mews := { s.mews with slots := t.mews.slots, cascades := t.mews.cascades }, kerb := { s.kerb with reports := t.kerb.reports }, fnt := { s.fnt with state := t.fnt.state, absorbed := t.fnt.absorbed, credit := t.fnt.credit, seed := t.fnt.seed, int := t.fnt.int, sw := t.fnt.sw, katBusy := t.fnt.katBusy, draws := t.fnt.draws, part := t.fnt.part, got := t.fnt.got, rng := t.fnt.rng, rngDone := t.fnt.rngDone, rngDead := t.fnt.rngDead }, xing := { s.xing with mirror := t.xing.mirror, sess := t.xing.sess }, chk := { s.chk with slotBad := t.chk.slotBad } } ∧ OtherRegs s t [Reg.QUAY_RPL_HITS, Reg.RBT_LATE, Reg.MEWS_REVOKES, Reg.COMP_AUTH_FAIL, Reg.COMP_DONE] [Reg.PAGE_STAT, Reg.INT_STAT, Reg.ERR_SYND, Reg.ERR_ADDR, Reg.FAULT_CNT, Reg.QUAY_LINK_STAT] []) ∧
  (∀ (s : State), NothingResumes (zeroisingEnd s) → 
    Answers (.zeroisingEnd) s fun t => t.mews.zeroising = false ∧ t = { s with out := t.out, regs := t.regs, parBad := t.parBad, wins := t.wins, quay := { s.quay with queues := t.quay.queues, doms := t.quay.doms, domRR := t.quay.domRR, ctxs := t.quay.ctxs, nextAcc := t.quay.nextAcc, msix := t.quay.msix }, units := { s.units with cipher := t.units.cipher, hash := t.units.hash, arc := t.units.arc }, mews := { s.mews with slots := t.mews.slots, genBase := t.mews.genBase, assign := t.mews.assign, cascades := t.mews.cascades, heldOps := t.mews.heldOps, zeroising := t.mews.zeroising, ctrs := t.mews.ctrs, dukpt := t.mews.dukpt }, life := t.life, kerb := { s.kerb with reports := t.kerb.reports }, fer := { s.fer with lcA := t.fer.lcA, lcB := t.fer.lcB, integrator := t.fer.integrator, pairB := t.fer.pairB, peerSerial := t.fer.peerSerial, pairId := t.fer.pairId, pairCnt := t.fer.pairCnt, fleetRole := t.fer.fleetRole, fleetId := t.fer.fleetId, wards := t.fer.wards, voucher := t.fer.voucher, lastSeq := t.fer.lastSeq }, bak := { s.bak with cust := t.bak.cust, pairRoot := t.bak.pairRoot, fleetRoot := t.bak.fleetRoot }, fnt := { s.fnt with state := t.fnt.state, absorbed := t.fnt.absorbed, credit := t.fnt.credit, seed := t.fnt.seed, int := t.fnt.int, sw := t.fnt.sw, katBusy := t.fnt.katBusy, draws := t.fnt.draws, part := t.fnt.part, got := t.fnt.got, rng := t.fnt.rng, rngDone := t.fnt.rngDone, rngDead := t.fnt.rngDead }, curves := t.curves, xing := { s.xing with state := t.xing.state, seqr := t.xing.seqr, mirror := t.xing.mirror, sess := t.xing.sess, upWait := t.xing.upWait, joinErr := t.xing.joinErr, held := t.xing.held, stmt := t.xing.stmt, eph := t.xing.eph, failing := t.xing.failing, left := t.xing.left }, fleet := t.fleet, clk := { s.clk with load := t.clk.load }, cores := t.cores, load := t.load, autoload := t.autoload, chk := { s.chk with eccBad := t.chk.eccBad, slotBad := t.chk.slotBad }, sd := { s.sd with op := t.sd.op, clk := t.sd.clk }, mem := t.mem } ∧ OtherRegs s t [Reg.BOOT_STAT, Reg.CT_CMD, Reg.QUAY_QCMD, Reg.QUAY_RPL_HITS, Reg.RBT_LATE, Reg.MEWS_ASSIGN_SKIP, Reg.MEWS_REVOKES, Reg.COMP_AUTH_FAIL, Reg.COMP_DONE, Reg.IXM_LD_SRC, Reg.IXM_LD_ADDR_LO, Reg.IXM_LD_CMD, Reg.IXM_LD_INFO, Reg.CHECKPOINT_SRAM_ECC, Reg.XING_CMD, Reg.FLEET_CMD, Reg.FLEET_ID_LO, Reg.FLEET_ID_HI] [Reg.PAGE_STAT, Reg.INT_STAT, Reg.ERR_SYND, Reg.ERR_ADDR, Reg.FAULT_CNT, Reg.QUAY_LINK_STAT, Reg.QUAY_LINK_CTRL, Reg.QUAY_GRP_ROUTE, Reg.QUAY_DMA_OUTST, Reg.QUAY_LINK_ERR, Reg.ARC_LAST] [0x48, 0x49, 0x4A, 0x4B, 0x4C, 0x4D, 0x4E, 0x4F]) ∧
  (∀ (s : State), s.mews.heldOps = [] → NothingResumes { s with mews := { s.mews with zeroising := false } } → 
    Answers (.zeroisingEnd) s fun t => t = { s with mews := { s.mews with zeroising := false } }) ∧
  (∀ (s : State) (src : Src) (dom : BitVec 12), Reaches s src Reg.MEWS_ASSIGN_CMD → s.mews.assign = none → 0 < (fld s Reg.MEWS_ASSIGN_CNT 17 0) → (fld s Reg.MEWS_ASSIGN_BASE 16 0) + (fld s Reg.MEWS_ASSIGN_CNT 17 0) ≤ 131072 → 
    Answers (.assign src dom) s fun t => t.mews.assign = some { op := 0, dom := dom.toNat, next := (fld s Reg.MEWS_ASSIGN_BASE 16 0), last := (fld s Reg.MEWS_ASSIGN_BASE 16 0) + (fld s Reg.MEWS_ASSIGN_CNT 17 0) - 1, fwd := paired s && !s.xing.seqr, peer := paired s } ∧ t.xing.mirror.length = s.xing.mirror.length + (if paired s = true ∨ copies s = true then 1 else 0) ∧ t.mews.slots = s.mews.slots ∧ fld t Reg.MEWS_ASSIGN_CMD 27 24 = 0 ∧ t = { s with out := t.out, regs := t.regs, parBad := t.parBad, quay := { s.quay with msix := t.quay.msix }, mews := { s.mews with assign := t.mews.assign }, xing := { s.xing with mirror := t.xing.mirror, sess := t.xing.sess } } ∧ OtherRegs s t [Reg.MEWS_ASSIGN_CMD, Reg.MEWS_ASSIGN_SKIP] [Reg.INT_STAT, Reg.ERR_SYND, Reg.ERR_ADDR] []) ∧
  (∀ (s : State) (src : Src) (dom : BitVec 12), Reaches s src Reg.MEWS_ASSIGN_CMD → s.mews.assign = none → (fld s Reg.MEWS_ASSIGN_CNT 17 0) = 0 ∨ 131072 < (fld s Reg.MEWS_ASSIGN_BASE 16 0) + (fld s Reg.MEWS_ASSIGN_CNT 17 0) → 
    Answers (.assign src dom) s fun t => t.mews = s.mews ∧ fld t Reg.MEWS_ASSIGN_CMD 27 24 = 1 ∧ t = { s with out := t.out, regs := t.regs, parBad := t.parBad, quay := { s.quay with msix := t.quay.msix }, mews := { s.mews with assign := t.mews.assign }, xing := { s.xing with mirror := t.xing.mirror, sess := t.xing.sess } } ∧ OtherRegs s t [Reg.MEWS_ASSIGN_CMD, Reg.MEWS_ASSIGN_SKIP] [Reg.INT_STAT, Reg.ERR_SYND, Reg.ERR_ADDR] []) ∧
  (∀ (s : State) (src : Src) (dom : BitVec 12), Reaches s src Reg.MEWS_ASSIGN_CMD → s.mews.assign.isSome = true → rbit s (rk 0x28 Reg.ERR_SYND) 23 = false → 
    Answers (.assign src dom) s fun t => t.mews = s.mews ∧ fld t (rk 0x28 Reg.ERR_SYND) 31 24 = 0x11 ∧ reg t (rk 0x28 Reg.ERR_ADDR) = BitVec.ofNat 32 (0 + dom.toNat) ∧ t = { s with out := t.out, regs := t.regs, parBad := t.parBad, quay := { s.quay with msix := t.quay.msix }, mews := { s.mews with assign := t.mews.assign }, xing := { s.xing with mirror := t.xing.mirror, sess := t.xing.sess } } ∧ OtherRegs s t [Reg.MEWS_ASSIGN_CMD, Reg.MEWS_ASSIGN_SKIP] [Reg.INT_STAT, Reg.ERR_SYND, Reg.ERR_ADDR] []) ∧
  (∀ (s : State) (src : Src), Reaches s src Reg.MEWS_ASSIGN_CMD → s.mews.assign = none → 0 < (fld s Reg.MEWS_ASSIGN_CNT 17 0) → (fld s Reg.MEWS_ASSIGN_BASE 16 0) + (fld s Reg.MEWS_ASSIGN_CNT 17 0) ≤ 131072 → 
    Answers (.unassign src) s fun t => t.mews.assign = some { op := 1, dom := 0, next := (fld s Reg.MEWS_ASSIGN_BASE 16 0), last := (fld s Reg.MEWS_ASSIGN_BASE 16 0) + (fld s Reg.MEWS_ASSIGN_CNT 17 0) - 1, fwd := paired s && !s.xing.seqr, peer := paired s } ∧ t.xing.mirror.length = s.xing.mirror.length + (if paired s = true ∨ copies s = true then 1 else 0) ∧ t.mews.slots = s.mews.slots ∧ fld t Reg.MEWS_ASSIGN_CMD 27 24 = 0 ∧ t = { s with out := t.out, regs := t.regs, parBad := t.parBad, quay := { s.quay with msix := t.quay.msix }, mews := { s.mews with assign := t.mews.assign }, xing := { s.xing with mirror := t.xing.mirror, sess := t.xing.sess } } ∧ OtherRegs s t [Reg.MEWS_ASSIGN_CMD, Reg.MEWS_ASSIGN_SKIP] [Reg.INT_STAT, Reg.ERR_SYND, Reg.ERR_ADDR] []) ∧
  (∀ (s : State) (src : Src), Reaches s src Reg.MEWS_ASSIGN_CMD → s.mews.assign = none → (fld s Reg.MEWS_ASSIGN_CNT 17 0) = 0 ∨ 131072 < (fld s Reg.MEWS_ASSIGN_BASE 16 0) + (fld s Reg.MEWS_ASSIGN_CNT 17 0) → 
    Answers (.unassign src) s fun t => t.mews = s.mews ∧ fld t Reg.MEWS_ASSIGN_CMD 27 24 = 1 ∧ t = { s with out := t.out, regs := t.regs, parBad := t.parBad, quay := { s.quay with msix := t.quay.msix }, mews := { s.mews with assign := t.mews.assign }, xing := { s.xing with mirror := t.xing.mirror, sess := t.xing.sess } } ∧ OtherRegs s t [Reg.MEWS_ASSIGN_CMD, Reg.MEWS_ASSIGN_SKIP] [Reg.INT_STAT, Reg.ERR_SYND, Reg.ERR_ADDR] []) ∧
  (∀ (s : State) (src : Src), Reaches s src Reg.MEWS_ASSIGN_CMD → s.mews.assign.isSome = true → rbit s (rk 0x28 Reg.ERR_SYND) 23 = false → 
    Answers (.unassign src) s fun t => t.mews = s.mews ∧ fld t (rk 0x28 Reg.ERR_SYND) 31 24 = 0x11 ∧ reg t (rk 0x28 Reg.ERR_ADDR) = BitVec.ofNat 32 (4096 + 0) ∧ t = { s with out := t.out, regs := t.regs, parBad := t.parBad, quay := { s.quay with msix := t.quay.msix }, mews := { s.mews with assign := t.mews.assign }, xing := { s.xing with mirror := t.xing.mirror, sess := t.xing.sess } } ∧ OtherRegs s t [Reg.MEWS_ASSIGN_CMD, Reg.MEWS_ASSIGN_SKIP] [Reg.INT_STAT, Reg.ERR_SYND, Reg.ERR_ADDR] []) ∧
  (∀ (s : State) (src : Src) (dom : BitVec 12), Reaches s src Reg.MEWS_ASSIGN_CMD → s.mews.assign = none → 0 < (fld s Reg.MEWS_ASSIGN_CNT 17 0) → (fld s Reg.MEWS_ASSIGN_BASE 16 0) + (fld s Reg.MEWS_ASSIGN_CNT 17 0) ≤ 131072 → s.xing.state ≠ 5 → 
    Answers (.eraseAssign src dom) s fun t => t.mews.assign = some { op := 2, dom := dom.toNat, next := (fld s Reg.MEWS_ASSIGN_BASE 16 0), last := (fld s Reg.MEWS_ASSIGN_BASE 16 0) + (fld s Reg.MEWS_ASSIGN_CNT 17 0) - 1, fwd := paired s && !s.xing.seqr, peer := paired s } ∧ t.xing.mirror.length = s.xing.mirror.length + (if paired s = true ∨ copies s = true then 1 else 0) ∧ t.mews.slots = s.mews.slots ∧ fld t Reg.MEWS_ASSIGN_CMD 27 24 = 0 ∧ t = { s with out := t.out, regs := t.regs, parBad := t.parBad, quay := { s.quay with msix := t.quay.msix }, mews := { s.mews with assign := t.mews.assign }, xing := { s.xing with mirror := t.xing.mirror, sess := t.xing.sess } } ∧ OtherRegs s t [Reg.MEWS_ASSIGN_CMD, Reg.MEWS_ASSIGN_SKIP] [Reg.INT_STAT, Reg.ERR_SYND, Reg.ERR_ADDR] []) ∧
  (∀ (s : State) (src : Src) (dom : BitVec 12), Reaches s src Reg.MEWS_ASSIGN_CMD → s.mews.assign = none → (fld s Reg.MEWS_ASSIGN_CNT 17 0) = 0 ∨ 131072 < (fld s Reg.MEWS_ASSIGN_BASE 16 0) + (fld s Reg.MEWS_ASSIGN_CNT 17 0) ∨ s.xing.state = 5 → 
    Answers (.eraseAssign src dom) s fun t => t.mews = s.mews ∧ fld t Reg.MEWS_ASSIGN_CMD 27 24 = 1 ∧ t = { s with out := t.out, regs := t.regs, parBad := t.parBad, quay := { s.quay with msix := t.quay.msix }, mews := { s.mews with assign := t.mews.assign }, xing := { s.xing with mirror := t.xing.mirror, sess := t.xing.sess } } ∧ OtherRegs s t [Reg.MEWS_ASSIGN_CMD, Reg.MEWS_ASSIGN_SKIP] [Reg.INT_STAT, Reg.ERR_SYND, Reg.ERR_ADDR] []) ∧
  (∀ (s : State) (src : Src) (dom : BitVec 12), Reaches s src Reg.MEWS_ASSIGN_CMD → s.mews.assign.isSome = true → rbit s (rk 0x28 Reg.ERR_SYND) 23 = false → 
    Answers (.eraseAssign src dom) s fun t => t.mews = s.mews ∧ fld t (rk 0x28 Reg.ERR_SYND) 31 24 = 0x11 ∧ reg t (rk 0x28 Reg.ERR_ADDR) = BitVec.ofNat 32 (8192 + dom.toNat) ∧ t = { s with out := t.out, regs := t.regs, parBad := t.parBad, quay := { s.quay with msix := t.quay.msix }, mews := { s.mews with assign := t.mews.assign }, xing := { s.xing with mirror := t.xing.mirror, sess := t.xing.sess } } ∧ OtherRegs s t [Reg.MEWS_ASSIGN_CMD, Reg.MEWS_ASSIGN_SKIP] [Reg.INT_STAT, Reg.ERR_SYND, Reg.ERR_ADDR] []) ∧
  (∀ (s : State) (src : Src), Reaches s src Reg.MEWS_ASSIGN_CMD → s.mews.assign = none → 0 < (fld s Reg.MEWS_ASSIGN_CNT 17 0) → (fld s Reg.MEWS_ASSIGN_BASE 16 0) + (fld s Reg.MEWS_ASSIGN_CNT 17 0) ≤ 131072 → s.xing.state ≠ 5 → 
    Answers (.eraseUnassign src) s fun t => t.mews.assign = some { op := 3, dom := 0, next := (fld s Reg.MEWS_ASSIGN_BASE 16 0), last := (fld s Reg.MEWS_ASSIGN_BASE 16 0) + (fld s Reg.MEWS_ASSIGN_CNT 17 0) - 1, fwd := paired s && !s.xing.seqr, peer := paired s } ∧ t.xing.mirror.length = s.xing.mirror.length + (if paired s = true ∨ copies s = true then 1 else 0) ∧ t.mews.slots = s.mews.slots ∧ fld t Reg.MEWS_ASSIGN_CMD 27 24 = 0 ∧ t = { s with out := t.out, regs := t.regs, parBad := t.parBad, quay := { s.quay with msix := t.quay.msix }, mews := { s.mews with assign := t.mews.assign }, xing := { s.xing with mirror := t.xing.mirror, sess := t.xing.sess } } ∧ OtherRegs s t [Reg.MEWS_ASSIGN_CMD, Reg.MEWS_ASSIGN_SKIP] [Reg.INT_STAT, Reg.ERR_SYND, Reg.ERR_ADDR] []) ∧
  (∀ (s : State) (src : Src), Reaches s src Reg.MEWS_ASSIGN_CMD → s.mews.assign = none → (fld s Reg.MEWS_ASSIGN_CNT 17 0) = 0 ∨ 131072 < (fld s Reg.MEWS_ASSIGN_BASE 16 0) + (fld s Reg.MEWS_ASSIGN_CNT 17 0) ∨ s.xing.state = 5 → 
    Answers (.eraseUnassign src) s fun t => t.mews = s.mews ∧ fld t Reg.MEWS_ASSIGN_CMD 27 24 = 1 ∧ t = { s with out := t.out, regs := t.regs, parBad := t.parBad, quay := { s.quay with msix := t.quay.msix }, mews := { s.mews with assign := t.mews.assign }, xing := { s.xing with mirror := t.xing.mirror, sess := t.xing.sess } } ∧ OtherRegs s t [Reg.MEWS_ASSIGN_CMD, Reg.MEWS_ASSIGN_SKIP] [Reg.INT_STAT, Reg.ERR_SYND, Reg.ERR_ADDR] []) ∧
  (∀ (s : State) (src : Src), Reaches s src Reg.MEWS_ASSIGN_CMD → s.mews.assign.isSome = true → rbit s (rk 0x28 Reg.ERR_SYND) 23 = false → 
    Answers (.eraseUnassign src) s fun t => t.mews = s.mews ∧ fld t (rk 0x28 Reg.ERR_SYND) 31 24 = 0x11 ∧ reg t (rk 0x28 Reg.ERR_ADDR) = BitVec.ofNat 32 (12288 + 0) ∧ t = { s with out := t.out, regs := t.regs, parBad := t.parBad, quay := { s.quay with msix := t.quay.msix }, mews := { s.mews with assign := t.mews.assign }, xing := { s.xing with mirror := t.xing.mirror, sess := t.xing.sess } } ∧ OtherRegs s t [Reg.MEWS_ASSIGN_CMD, Reg.MEWS_ASSIGN_SKIP] [Reg.INT_STAT, Reg.ERR_SYND, Reg.ERR_ADDR] []) ∧
  (∀ (s : State) (a : AssignOp), s.mews.assign = some a → s.mews.zeroising = false → a.next ≤ a.last + 1 → 
    Answers (.assignDone) s fun t => t.mews.assign = none ∧ (a.op < 2 → ∀ n, a.next ≤ n → n ≤ a.last → slotAt t n = if isEmpty (slotAt s n) then { slotAt s n with asg := decide (a.op = 0), dom := if a.op = 0 then a.dom else 0 } else slotAt s n) ∧ (2 ≤ a.op → ∀ n, a.next ≤ n → n ≤ a.last → (slotAt t n).asg = decide (a.op = 2) ∧ (slotAt t n).dom = if a.op = 2 then a.dom else 0) ∧ t = { s with out := t.out, regs := t.regs, parBad := t.parBad, wins := t.wins, quay := { s.quay with queues := t.quay.queues, doms := t.quay.doms, domRR := t.quay.domRR, ctxs := t.quay.ctxs, nextAcc := t.quay.nextAcc, msix := t.quay.msix }, units := { s.units with cipher := t.units.cipher, hash := t.units.hash, arc := t.units.arc }, mews := { s.mews with slots := t.mews.slots, assign := t.mews.assign, cascades := t.mews.cascades }, kerb := { s.kerb with reports := t.kerb.reports }, fnt := { s.fnt with state := t.fnt.state, absorbed := t.fnt.absorbed, credit := t.fnt.credit, seed := t.fnt.seed, int := t.fnt.int, sw := t.fnt.sw, katBusy := t.fnt.katBusy, draws := t.fnt.draws, part := t.fnt.part, got := t.fnt.got, rng := t.fnt.rng, rngDone := t.fnt.rngDone, rngDead := t.fnt.rngDead }, xing := { s.xing with mirror := t.xing.mirror, sess := t.xing.sess }, chk := { s.chk with slotBad := t.chk.slotBad } } ∧ OtherRegs s t [Reg.QUAY_RPL_HITS, Reg.RBT_LATE, Reg.MEWS_ASSIGN_SKIP, Reg.MEWS_REVOKES, Reg.COMP_AUTH_FAIL, Reg.COMP_DONE] [Reg.PAGE_STAT, Reg.INT_STAT, Reg.ERR_SYND, Reg.ERR_ADDR, Reg.FAULT_CNT, Reg.QUAY_LINK_STAT] []) ∧
  (∀ (s : State), s.mews.assign = none ∨ s.mews.zeroising = true → 
    Answers (.assignDone) s fun t => t = s) ∧
  (∀ (s : State) (src : Src) (ecc : EccSeen), Reaches s src Reg.MEWS_SLOT_ATTR → ecc = .clean ∨ ecc = .corrected → 
    Answers (.mewsSlotAttr0Read src ecc) s fun t => t.out = .readData src (toLe 4 (attrWord (slotAt s (fld s Reg.MEWS_SLOT_SEL 16 0)))) :: s.out ∧ (∀ i : Fin 4, reg t (Reg.MEWS_SLOT_ATTR + 4 * i.val) = BitVec.ofNat 32 ((attrWord (slotAt s (fld s Reg.MEWS_SLOT_SEL 16 0))) / 2 ^ (32 * i.val))) ∧ t = { s with out := t.out, regs := t.regs, parBad := t.parBad, wins := t.wins, quay := { s.quay with queues := t.quay.queues, doms := t.quay.doms, domRR := t.quay.domRR, ctxs := t.quay.ctxs, msix := t.quay.msix }, units := { s.units with cipher := t.units.cipher, hash := t.units.hash, arc := t.units.arc }, mews := { s.mews with slots := t.mews.slots, cascades := t.mews.cascades }, kerb := { s.kerb with reports := t.kerb.reports }, fnt := { s.fnt with state := t.fnt.state, absorbed := t.fnt.absorbed, credit := t.fnt.credit, seed := t.fnt.seed, int := t.fnt.int, sw := t.fnt.sw, katBusy := t.fnt.katBusy, draws := t.fnt.draws, part := t.fnt.part, got := t.fnt.got, rng := t.fnt.rng, rngDone := t.fnt.rngDone, rngDead := t.fnt.rngDead }, curves := t.curves, xing := { s.xing with mirror := t.xing.mirror, sess := t.xing.sess }, chk := { s.chk with slotBad := t.chk.slotBad } } ∧ OtherRegs s t [Reg.QUAY_RPL_HITS, Reg.RBT_LATE, Reg.MEWS_REVOKES, Reg.MEWS_KT_ECC, Reg.COMP_AUTH_FAIL, Reg.COMP_DONE] [Reg.PAGE_STAT, Reg.INT_STAT, Reg.ERR_SYND, Reg.ERR_ADDR, Reg.FAULT_CNT, Reg.QUAY_LINK_STAT] [0x28]) ∧
  (∀ (s : State) (src : Src) (n : SlotNo) (lost : Bool), Reaches s src Reg.MEWS_SLOT_ATTR → n.val = (fld s Reg.MEWS_SLOT_SEL 16 0) → isLive (slotAt s n.val) = true → paired s = false → s.chk.slotBad.contains n.val = false → 
    Answers (.mewsSlotAttr0Read src (.keyTable n lost)) s fun t => t.out.head? = some (.readData src (toLe 4 (attrWord (emptied (slotAt s (fld s Reg.MEWS_SLOT_SEL 16 0)))))) ∧ (∀ i : Fin 4, reg t (Reg.MEWS_SLOT_ATTR + 4 * i.val) = BitVec.ofNat 32 ((attrWord (emptied (slotAt s (fld s Reg.MEWS_SLOT_SEL 16 0)))) / 2 ^ (32 * i.val))) ∧ slotAt t n.val = emptied (slotAt s n.val) ∧ t = { s with out := t.out, regs := t.regs, parBad := t.parBad, wins := t.wins, quay := { s.quay with queues := t.quay.queues, doms := t.quay.doms, domRR := t.quay.domRR, ctxs := t.quay.ctxs, msix := t.quay.msix }, units := { s.units with cipher := t.units.cipher, hash := t.units.hash, arc := t.units.arc }, mews := { s.mews with slots := t.mews.slots, cascades := t.mews.cascades }, kerb := { s.kerb with reports := t.kerb.reports }, fnt := { s.fnt with state := t.fnt.state, absorbed := t.fnt.absorbed, credit := t.fnt.credit, seed := t.fnt.seed, int := t.fnt.int, sw := t.fnt.sw, katBusy := t.fnt.katBusy, draws := t.fnt.draws, part := t.fnt.part, got := t.fnt.got, rng := t.fnt.rng, rngDone := t.fnt.rngDone, rngDead := t.fnt.rngDead }, curves := t.curves, xing := { s.xing with mirror := t.xing.mirror, sess := t.xing.sess }, chk := { s.chk with slotBad := t.chk.slotBad } } ∧ OtherRegs s t [Reg.QUAY_RPL_HITS, Reg.RBT_LATE, Reg.MEWS_REVOKES, Reg.MEWS_KT_ECC, Reg.COMP_AUTH_FAIL, Reg.COMP_DONE] [Reg.PAGE_STAT, Reg.INT_STAT, Reg.ERR_SYND, Reg.ERR_ADDR, Reg.FAULT_CNT, Reg.QUAY_LINK_STAT] [0x28])

/-- A TRANSITION along a row of the table, written while no lifecycle command runs in a state other than INTEGRITY_FAIL, with the customer secret where the row needs it: when its signature verifies and the record is confirmed within three attempts, the device moves to the target state and counts it, and the command is to end with RESULT 0; a signature that does not verify leaves everything and gives RESULT 2, a record not confirmed RESULT 5. It waits while the unit that checks the signature is not idle, and is to end with RESULT 4 with no unit, 3 without a needed customer secret, 1 along no row. CUST_INSTALL takes the named DERIVE key as the customer secret and, without a partner, erases it; in another state RESULT is 1, for another key 6; while ISOLATED RESULT is 1 too (the model's choice, assumption 119). A lifecycle command written while one runs is recorded with CODE 0x10 and ignored, and one with no valid record gives RESULT 5. The end of a command that waits for nothing writes its RESULT. Each clause names what may change beside; every other part of the state and every other register is as before. Forms whose completion it states: transition, custInstall, lcCmdEnd. (R203, R204, R205, R207, R208, R211, R276, R527) -/
def Obligations.LifecycleCommands : Prop :=
  (∀ (s : State) (src : Src) (fails : Nat) (row u : Nat) (r : LcRec), Reaches s src Reg.LC_CMD → s.life.op = none → s.life.state ≠ 7 → lcRow s.life.state (fld s Reg.LC_TARGET 2 0) = some row → ((row = 3 ∨ row = 5) → custValid s = true) → arcPick s = some u → arcIdle s u = true → lcNow s = some r → fails < 3 → 
    Answers (.transition src fails) s fun t => (if lcSigned s row (fld s Reg.LC_TARGET 2 0) then t.life.state = (fld s Reg.LC_TARGET 2 0) ∧ t.life.op = some { cmd := 1, result := 0 } ∧ lcTotal t = lcTotal s + 1 ∧ lcCount t row = lcCount s row + 1 ∧ (rowZeroises row = true → t.mews.zeroising = true ∧ t.mews.genBase = nextGen s.mews.genBase) else t = { s with life := { s.life with op := some { cmd := 1, result := 2 } } }) ∧ t = { s with out := t.out, regs := t.regs, parBad := t.parBad, wins := t.wins, quay := { s.quay with queues := t.quay.queues, doms := t.quay.doms, domRR := t.quay.domRR, ctxs := t.quay.ctxs, msix := t.quay.msix }, units := { s.units with cipher := t.units.cipher, hash := t.units.hash, arc := t.units.arc }, mews := { s.mews with slots := t.mews.slots, genBase := t.mews.genBase, cascades := t.mews.cascades, zeroising := t.mews.zeroising }, life := t.life, kerb := { s.kerb with reports := t.kerb.reports }, fer := { s.fer with lcA := t.fer.lcA, lcB := t.fer.lcB, integrator := t.fer.integrator }, bak := { s.bak with cust := t.bak.cust }, fnt := { s.fnt with state := t.fnt.state, absorbed := t.fnt.absorbed, credit := t.fnt.credit, seed := t.fnt.seed, int := t.fnt.int, sw := t.fnt.sw, katBusy := t.fnt.katBusy, draws := t.fnt.draws, part := t.fnt.part, got := t.fnt.got, rng := t.fnt.rng, rngDone := t.fnt.rngDone, rngDead := t.fnt.rngDead }, xing := { s.xing with mirror := t.xing.mirror, sess := t.xing.sess }, chk := { s.chk with slotBad := t.chk.slotBad } } ∧ OtherRegs s t [Reg.QUAY_RPL_HITS, Reg.RBT_LATE, Reg.MEWS_REVOKES, Reg.COMP_AUTH_FAIL, Reg.COMP_DONE] [Reg.PAGE_STAT, Reg.INT_STAT, Reg.ERR_SYND, Reg.ERR_ADDR, Reg.FAULT_CNT, Reg.QUAY_LINK_STAT] []) ∧
  (∀ (s : State) (src : Src) (fails : Nat) (row u : Nat), Reaches s src Reg.LC_CMD → s.life.op = none → s.life.state ≠ 7 → lcRow s.life.state (fld s Reg.LC_TARGET 2 0) = some row → ((row = 3 ∨ row = 5) → custValid s = true) → arcPick s = some u → arcIdle s u = true → 3 ≤ fails → 
    Answers (.transition src fails) s fun t => t.life.op = some { cmd := 1, result := if lcSigned s row (fld s Reg.LC_TARGET 2 0) then 5 else 2 } ∧ t.life.state = s.life.state ∧ t.fer = s.fer ∧ t = { s with out := t.out, regs := t.regs, parBad := t.parBad, wins := t.wins, quay := { s.quay with queues := t.quay.queues, doms := t.quay.doms, domRR := t.quay.domRR, ctxs := t.quay.ctxs, msix := t.quay.msix }, units := { s.units with cipher := t.units.cipher, hash := t.units.hash, arc := t.units.arc }, mews := { s.mews with slots := t.mews.slots, genBase := t.mews.genBase, cascades := t.mews.cascades, zeroising := t.mews.zeroising }, life := t.life, kerb := { s.kerb with reports := t.kerb.reports }, fer := { s.fer with lcA := t.fer.lcA, lcB := t.fer.lcB, integrator := t.fer.integrator }, bak := { s.bak with cust := t.bak.cust }, fnt := { s.fnt with state := t.fnt.state, absorbed := t.fnt.absorbed, credit := t.fnt.credit, seed := t.fnt.seed, int := t.fnt.int, sw := t.fnt.sw, katBusy := t.fnt.katBusy, draws := t.fnt.draws, part := t.fnt.part, got := t.fnt.got, rng := t.fnt.rng, rngDone := t.fnt.rngDone, rngDead := t.fnt.rngDead }, xing := { s.xing with mirror := t.xing.mirror, sess := t.xing.sess }, chk := { s.chk with slotBad := t.chk.slotBad } } ∧ OtherRegs s t [Reg.QUAY_RPL_HITS, Reg.RBT_LATE, Reg.MEWS_REVOKES, Reg.COMP_AUTH_FAIL, Reg.COMP_DONE] [Reg.PAGE_STAT, Reg.INT_STAT, Reg.ERR_SYND, Reg.ERR_ADDR, Reg.FAULT_CNT, Reg.QUAY_LINK_STAT] []) ∧
  (∀ (s : State) (src : Src) (fails : Nat) (row u : Nat), Reaches s src Reg.LC_CMD → s.life.op = none → s.life.state ≠ 7 → lcRow s.life.state (fld s Reg.LC_TARGET 2 0) = some row → ((row = 3 ∨ row = 5) → custValid s = true) → arcPick s = some u → arcIdle s u = false → 
    Answers (.transition src fails) s fun t => t = { s with life := { s.life with op := some { cmd := 1, result := 0, verify := some fails } } }) ∧
  (∀ (s : State) (src : Src) (fails : Nat) (row : Nat), Reaches s src Reg.LC_CMD → s.life.op = none → s.life.state ≠ 7 → lcRow s.life.state (fld s Reg.LC_TARGET 2 0) = some row → ((row = 3 ∨ row = 5) → custValid s = true) → arcPick s = none → 
    Answers (.transition src fails) s fun t => t = { s with life := { s.life with op := some { cmd := 1, result := 4 } } }) ∧
  (∀ (s : State) (src : Src) (fails : Nat) (row : Nat), Reaches s src Reg.LC_CMD → s.life.op = none → s.life.state ≠ 7 → lcRow s.life.state (fld s Reg.LC_TARGET 2 0) = some row → row = 3 ∨ row = 5 → custValid s = false → 
    Answers (.transition src fails) s fun t => t = { s with life := { s.life with op := some { cmd := 1, result := 3 } } }) ∧
  (∀ (s : State) (src : Src) (fails : Nat), Reaches s src Reg.LC_CMD → s.life.op = none → s.life.state ≠ 7 → lcRow s.life.state (fld s Reg.LC_TARGET 2 0) = none → 
    Answers (.transition src fails) s fun t => t = { s with life := { s.life with op := some { cmd := 1, result := 1 } } }) ∧
  (∀ (s : State) (src : Src) (fails : Nat), Reaches s src Reg.LC_CMD → s.life.op = none → s.life.state = 7 → 
    Answers (.transition src fails) s fun t => t = { s with life := { s.life with op := some { cmd := 1, result := 5 } } }) ∧
  (∀ (s : State) (src : Src), Reaches s src Reg.LC_CMD → s.life.op = none → s.life.state ≠ 7 → s.life.state = 2 ∨ s.life.state = 4 → s.xing.state ≠ 5 → isLive (slotAt s (hSlot (reg s Reg.LC_HANDLE).toNat)) = true ∧ (slotAt s (hSlot (reg s Reg.LC_HANDLE).toNat)).gen = hGen (reg s Reg.LC_HANDLE).toNat ∧ (slotAt s (hSlot (reg s Reg.LC_HANDLE).toNat)).alg = 0x19 ∧ (slotAt s (hSlot (reg s Reg.LC_HANDLE).toNat)).usage = uDERIVE → 
    Answers (.custInstall src) s fun t => t.bak.cust = some (fit 32 (keyMat s (hSlot (reg s Reg.LC_HANDLE).toNat))) ∧ (paired s = false → slotAt t (hSlot (reg s Reg.LC_HANDLE).toNat) = emptied (slotAt s (hSlot (reg s Reg.LC_HANDLE).toNat))) ∧ t.life.op = some { cmd := 2, result := 0 } ∧ t = { s with out := t.out, regs := t.regs, parBad := t.parBad, wins := t.wins, quay := { s.quay with queues := t.quay.queues, doms := t.quay.doms, domRR := t.quay.domRR, ctxs := t.quay.ctxs, msix := t.quay.msix }, units := { s.units with cipher := t.units.cipher, hash := t.units.hash, arc := t.units.arc }, mews := { s.mews with slots := t.mews.slots, cascades := t.mews.cascades }, life := { s.life with op := t.life.op }, kerb := { s.kerb with reports := t.kerb.reports }, bak := { s.bak with cust := t.bak.cust }, fnt := { s.fnt with state := t.fnt.state, absorbed := t.fnt.absorbed, credit := t.fnt.credit, seed := t.fnt.seed, int := t.fnt.int, sw := t.fnt.sw, katBusy := t.fnt.katBusy, draws := t.fnt.draws, part := t.fnt.part, got := t.fnt.got, rng := t.fnt.rng, rngDone := t.fnt.rngDone, rngDead := t.fnt.rngDead }, curves := t.curves, xing := { s.xing with mirror := t.xing.mirror, sess := t.xing.sess }, chk := { s.chk with slotBad := t.chk.slotBad } } ∧ OtherRegs s t [Reg.QUAY_RPL_HITS, Reg.RBT_LATE, Reg.MEWS_REVOKES, Reg.COMP_AUTH_FAIL, Reg.COMP_DONE] [Reg.PAGE_STAT, Reg.INT_STAT, Reg.ERR_SYND, Reg.ERR_ADDR, Reg.FAULT_CNT, Reg.QUAY_LINK_STAT] []) ∧
  (∀ (s : State) (src : Src), Reaches s src Reg.LC_CMD → s.life.op = none → s.life.state ≠ 7 → s.life.state ≠ 2 → s.life.state ≠ 4 → 
    Answers (.custInstall src) s fun t => t = { s with life := { s.life with op := some { cmd := 2, result := 1 } } }) ∧
  (∀ (s : State) (src : Src), Reaches s src Reg.LC_CMD → s.life.op = none → s.life.state ≠ 7 → s.xing.state = 5 → 
    Answers (.custInstall src) s fun t => t = { s with life := { s.life with op := some { cmd := 2, result := 1 } } }) ∧
  (∀ (s : State) (src : Src), Reaches s src Reg.LC_CMD → s.life.op = none → s.life.state ≠ 7 → s.life.state = 2 ∨ s.life.state = 4 → s.xing.state ≠ 5 → ¬ (isLive (slotAt s (hSlot (reg s Reg.LC_HANDLE).toNat)) = true ∧ (slotAt s (hSlot (reg s Reg.LC_HANDLE).toNat)).gen = hGen (reg s Reg.LC_HANDLE).toNat ∧ (slotAt s (hSlot (reg s Reg.LC_HANDLE).toNat)).alg = 0x19 ∧ (slotAt s (hSlot (reg s Reg.LC_HANDLE).toNat)).usage = uDERIVE) → 
    Answers (.custInstall src) s fun t => t = { s with life := { s.life with op := some { cmd := 2, result := 6 } } }) ∧
  (∀ (s : State) (src : Src), Reaches s src Reg.LC_CMD → s.life.op = none → s.life.state = 7 → 
    Answers (.custInstall src) s fun t => t = { s with life := { s.life with op := some { cmd := 2, result := 5 } } }) ∧
  (∀ (s : State) (src : Src) (fails : Nat), Reaches s src Reg.LC_CMD → s.life.op.isSome = true → rbit s (rk 0x29 Reg.ERR_SYND) 23 = false → 
    Answers (.transition src fails) s fun t => t.life = s.life ∧ fld t (rk 0x29 Reg.ERR_SYND) 31 24 = 0x10 ∧ reg t (rk 0x29 Reg.ERR_ADDR) = 1 ∧ t = { s with out := t.out, regs := t.regs, parBad := t.parBad, wins := t.wins, quay := { s.quay with queues := t.quay.queues, doms := t.quay.doms, domRR := t.quay.domRR, ctxs := t.quay.ctxs, msix := t.quay.msix }, units := { s.units with cipher := t.units.cipher, hash := t.units.hash, arc := t.units.arc }, mews := { s.mews with slots := t.mews.slots, genBase := t.mews.genBase, cascades := t.mews.cascades, zeroising := t.mews.zeroising }, life := t.life, kerb := { s.kerb with reports := t.kerb.reports }, fer := { s.fer with lcA := t.fer.lcA, lcB := t.fer.lcB, integrator := t.fer.integrator }, bak := { s.bak with cust := t.bak.cust }, fnt := { s.fnt with state := t.fnt.state, absorbed := t.fnt.absorbed, credit := t.fnt.credit, seed := t.fnt.seed, int := t.fnt.int, sw := t.fnt.sw, katBusy := t.fnt.katBusy, draws := t.fnt.draws, part := t.fnt.part, got := t.fnt.got, rng := t.fnt.rng, rngDone := t.fnt.rngDone, rngDead := t.fnt.rngDead }, xing := { s.xing with mirror := t.xing.mirror, sess := t.xing.sess }, chk := { s.chk with slotBad := t.chk.slotBad } } ∧ OtherRegs s t [Reg.QUAY_RPL_HITS, Reg.RBT_LATE, Reg.MEWS_REVOKES, Reg.COMP_AUTH_FAIL, Reg.COMP_DONE] [Reg.PAGE_STAT, Reg.INT_STAT, Reg.ERR_SYND, Reg.ERR_ADDR, Reg.FAULT_CNT, Reg.QUAY_LINK_STAT] []) ∧
  (∀ (s : State) (src : Src), Reaches s src Reg.LC_CMD → s.life.op.isSome = true → rbit s (rk 0x29 Reg.ERR_SYND) 23 = false → 
    Answers (.custInstall src) s fun t => t.life = s.life ∧ fld t (rk 0x29 Reg.ERR_SYND) 31 24 = 0x10 ∧ reg t (rk 0x29 Reg.ERR_ADDR) = 2 ∧ t = { s with out := t.out, regs := t.regs, parBad := t.parBad, wins := t.wins, quay := { s.quay with queues := t.quay.queues, doms := t.quay.doms, domRR := t.quay.domRR, ctxs := t.quay.ctxs, msix := t.quay.msix }, units := { s.units with cipher := t.units.cipher, hash := t.units.hash, arc := t.units.arc }, mews := { s.mews with slots := t.mews.slots, cascades := t.mews.cascades }, life := { s.life with op := t.life.op }, kerb := { s.kerb with reports := t.kerb.reports }, bak := { s.bak with cust := t.bak.cust }, fnt := { s.fnt with state := t.fnt.state, absorbed := t.fnt.absorbed, credit := t.fnt.credit, seed := t.fnt.seed, int := t.fnt.int, sw := t.fnt.sw, katBusy := t.fnt.katBusy, draws := t.fnt.draws, part := t.fnt.part, got := t.fnt.got, rng := t.fnt.rng, rngDone := t.fnt.rngDone, rngDead := t.fnt.rngDead }, curves := t.curves, xing := { s.xing with mirror := t.xing.mirror, sess := t.xing.sess }, chk := { s.chk with slotBad := t.chk.slotBad } } ∧ OtherRegs s t [Reg.QUAY_RPL_HITS, Reg.RBT_LATE, Reg.MEWS_REVOKES, Reg.COMP_AUTH_FAIL, Reg.COMP_DONE] [Reg.PAGE_STAT, Reg.INT_STAT, Reg.ERR_SYND, Reg.ERR_ADDR, Reg.FAULT_CNT, Reg.QUAY_LINK_STAT] []) ∧
  (∀ (s : State) (op : LcOp), s.life.op = some op → (s.life.zero && s.mews.zeroising || op.verify.isSome || op.cmd == 2 && custWaits s) = false → op.result < 16 → 
    Answers (.lcCmdEnd) s fun t => t.life.op = none ∧ t.life.transitioning = false ∧ t.life.state = s.life.state ∧ (op.cmd ≠ 1 → fld t Reg.LC_CMD 7 4 = op.result) ∧ t.mews.slots = s.mews.slots ∧ t = { s with out := t.out, regs := t.regs, parBad := t.parBad, wins := t.wins, quay := { s.quay with queues := t.quay.queues, doms := t.quay.doms, domRR := t.quay.domRR, ctxs := t.quay.ctxs, nextAcc := t.quay.nextAcc, msix := t.quay.msix }, units := { s.units with cipher := t.units.cipher, hash := t.units.hash, arc := t.units.arc }, mews := { s.mews with slots := t.mews.slots, assign := t.mews.assign, cascades := t.mews.cascades, heldOps := t.mews.heldOps, ctrs := t.mews.ctrs, dukpt := t.mews.dukpt }, life := { s.life with op := t.life.op, transitioning := t.life.transitioning, zero := t.life.zero }, kerb := { s.kerb with reports := t.kerb.reports }, fer := { s.fer with fleetRole := t.fer.fleetRole, wards := t.fer.wards, voucher := t.fer.voucher, lastSeq := t.fer.lastSeq }, bak := { s.bak with cust := t.bak.cust, fleetRoot := t.bak.fleetRoot }, fnt := { s.fnt with state := t.fnt.state, absorbed := t.fnt.absorbed, credit := t.fnt.credit, seed := t.fnt.seed, int := t.fnt.int, sw := t.fnt.sw, katBusy := t.fnt.katBusy, draws := t.fnt.draws, part := t.fnt.part, got := t.fnt.got, rng := t.fnt.rng, rngDone := t.fnt.rngDone, rngDead := t.fnt.rngDead }, curves := t.curves, xing := { s.xing with state := t.xing.state, seqr := t.xing.seqr, mirror := t.xing.mirror, link := t.xing.link, sess := t.xing.sess, upWait := t.xing.upWait, aliveIn := t.xing.aliveIn, deciding := t.xing.deciding, failing := t.xing.failing }, fleet := { s.fleet with held := t.fleet.held }, chk := { s.chk with slotBad := t.chk.slotBad } } ∧ OtherRegs s t [Reg.QUAY_QCMD, Reg.QUAY_RPL_HITS, Reg.RBT_LATE, Reg.MEWS_ASSIGN_CMD, Reg.MEWS_ASSIGN_SKIP, Reg.MEWS_REVOKES, Reg.LC_CMD, Reg.COMP_AUTH_FAIL, Reg.COMP_DONE, Reg.FLEET_CMD] [Reg.PAGE_STAT, Reg.INT_STAT, Reg.ERR_SYND, Reg.ERR_ADDR, Reg.FAULT_CNT, Reg.QUAY_LINK_STAT, Reg.QUAY_LINK_CTRL, Reg.QUAY_GRP_ROUTE, Reg.QUAY_DMA_OUTST, Reg.ARC_LAST] [0x29]) ∧
  (∀ (s : State), s.life.op.all (fun op => (s.life.zero && s.mews.zeroising || op.verify.isSome || op.cmd == 2 && custWaits s)) = true → 
    Answers (.lcCmdEnd) s fun t => t = s)

/-- A composite command that holds its units and has its counter confirmed runs from then on, nothing else changed; before that nothing happens. A step whose source and Fountain bytes are there and on which the cores, alike before it, agree leaves its values in both stores and the next step current; the last step ends the command with the result of its arithmetic: AUTH_FAIL with its DETAIL where a check fails, a completion with the values that go there, or its output written to a covered destination. A step on which the cores disagree ends the command with FAULT_COMPARE and the lane's number; one whose bytes are not there, with its source not ended and no stop, changes nothing. Each clause names what may change beside; every other part of the state and every other register is as before. Forms whose completion it states: pinTranslate, dukptPinTranslate, dukptMacVerify, dukptOriginate, emvArqcVerify, emvArpcGenerate, ff1Encrypt, ff1Decrypt, milenageVector, milenageResync, tuakVector, tuakResync, aka5gDerive, compositeStepEnd. (R212, R213, R214, R215, R216, R217, R220, R224, R234, R248, R293) -/
def Obligations.CompositeCommands : Prop :=
  (∀ (s : State) (c : CtxNo) (x : Ctx), ctxAt s c.val = some x → x.d.opcode = 0x60 → x.phase = .placed → x.resv.isEmpty = false → x.waitRsv = false → 
    Answers (.pinTranslate c) s fun t => ctxAt t c.val = some { x with phase := .running } ∧ t.units = s.units ∧ t.mews = s.mews ∧ t.out = s.out ∧ t = { s with quay := { s.quay with ctxs := t.quay.ctxs } }) ∧
  (∀ (s : State) (c : CtxNo), (ctxAt s c.val).any (fun x => x.d.opcode == 0x60 && decide (x.phase = .placed) && !x.resv.isEmpty && !x.waitRsv) = false → 
    Answers (.pinTranslate c) s fun t => t = s) ∧
  (∀ (s : State) (c : CtxNo) (x : Ctx), ctxAt s c.val = some x → x.d.opcode = 0x61 → x.phase = .placed → x.resv.isEmpty = false → x.waitRsv = false → 
    Answers (.dukptPinTranslate c) s fun t => ctxAt t c.val = some { x with phase := .running } ∧ t.units = s.units ∧ t.mews = s.mews ∧ t.out = s.out ∧ t = { s with quay := { s.quay with ctxs := t.quay.ctxs } }) ∧
  (∀ (s : State) (c : CtxNo), (ctxAt s c.val).any (fun x => x.d.opcode == 0x61 && decide (x.phase = .placed) && !x.resv.isEmpty && !x.waitRsv) = false → 
    Answers (.dukptPinTranslate c) s fun t => t = s) ∧
  (∀ (s : State) (c : CtxNo) (x : Ctx), ctxAt s c.val = some x → x.d.opcode = 0x62 → x.phase = .placed → x.resv.isEmpty = false → x.waitRsv = false → 
    Answers (.dukptMacVerify c) s fun t => ctxAt t c.val = some { x with phase := .running } ∧ t.units = s.units ∧ t.mews = s.mews ∧ t.out = s.out ∧ t = { s with quay := { s.quay with ctxs := t.quay.ctxs } }) ∧
  (∀ (s : State) (c : CtxNo), (ctxAt s c.val).any (fun x => x.d.opcode == 0x62 && decide (x.phase = .placed) && !x.resv.isEmpty && !x.waitRsv) = false → 
    Answers (.dukptMacVerify c) s fun t => t = s) ∧
  (∀ (s : State) (c : CtxNo) (x : Ctx), ctxAt s c.val = some x → x.d.opcode = 0x63 → x.phase = .placed → x.resv.isEmpty = false → x.waitRsv = false → 
    Answers (.dukptOriginate c) s fun t => ctxAt t c.val = some { x with phase := .running } ∧ t.units = s.units ∧ t.mews = s.mews ∧ t.out = s.out ∧ t = { s with quay := { s.quay with ctxs := t.quay.ctxs } }) ∧
  (∀ (s : State) (c : CtxNo), (ctxAt s c.val).any (fun x => x.d.opcode == 0x63 && decide (x.phase = .placed) && !x.resv.isEmpty && !x.waitRsv) = false → 
    Answers (.dukptOriginate c) s fun t => t = s) ∧
  (∀ (s : State) (c : CtxNo) (x : Ctx), ctxAt s c.val = some x → x.d.opcode = 0x64 → x.phase = .placed → x.resv.isEmpty = false → x.waitRsv = false → 
    Answers (.emvArqcVerify c) s fun t => ctxAt t c.val = some { x with phase := .running } ∧ t.units = s.units ∧ t.mews = s.mews ∧ t.out = s.out ∧ t = { s with quay := { s.quay with ctxs := t.quay.ctxs } }) ∧
  (∀ (s : State) (c : CtxNo), (ctxAt s c.val).any (fun x => x.d.opcode == 0x64 && decide (x.phase = .placed) && !x.resv.isEmpty && !x.waitRsv) = false → 
    Answers (.emvArqcVerify c) s fun t => t = s) ∧
  (∀ (s : State) (c : CtxNo) (x : Ctx), ctxAt s c.val = some x → x.d.opcode = 0x65 → x.phase = .placed → x.resv.isEmpty = false → x.waitRsv = false → 
    Answers (.emvArpcGenerate c) s fun t => ctxAt t c.val = some { x with phase := .running } ∧ t.units = s.units ∧ t.mews = s.mews ∧ t.out = s.out ∧ t = { s with quay := { s.quay with ctxs := t.quay.ctxs } }) ∧
  (∀ (s : State) (c : CtxNo), (ctxAt s c.val).any (fun x => x.d.opcode == 0x65 && decide (x.phase = .placed) && !x.resv.isEmpty && !x.waitRsv) = false → 
    Answers (.emvArpcGenerate c) s fun t => t = s) ∧
  (∀ (s : State) (c : CtxNo) (x : Ctx), ctxAt s c.val = some x → x.d.opcode = 0x66 → x.phase = .placed → x.resv.isEmpty = false → x.waitRsv = false → 
    Answers (.ff1Encrypt c) s fun t => ctxAt t c.val = some { x with phase := .running } ∧ t.units = s.units ∧ t.mews = s.mews ∧ t.out = s.out ∧ t = { s with quay := { s.quay with ctxs := t.quay.ctxs } }) ∧
  (∀ (s : State) (c : CtxNo), (ctxAt s c.val).any (fun x => x.d.opcode == 0x66 && decide (x.phase = .placed) && !x.resv.isEmpty && !x.waitRsv) = false → 
    Answers (.ff1Encrypt c) s fun t => t = s) ∧
  (∀ (s : State) (c : CtxNo) (x : Ctx), ctxAt s c.val = some x → x.d.opcode = 0x67 → x.phase = .placed → x.resv.isEmpty = false → x.waitRsv = false → 
    Answers (.ff1Decrypt c) s fun t => ctxAt t c.val = some { x with phase := .running } ∧ t.units = s.units ∧ t.mews = s.mews ∧ t.out = s.out ∧ t = { s with quay := { s.quay with ctxs := t.quay.ctxs } }) ∧
  (∀ (s : State) (c : CtxNo), (ctxAt s c.val).any (fun x => x.d.opcode == 0x67 && decide (x.phase = .placed) && !x.resv.isEmpty && !x.waitRsv) = false → 
    Answers (.ff1Decrypt c) s fun t => t = s) ∧
  (∀ (s : State) (c : CtxNo) (x : Ctx), ctxAt s c.val = some x → x.d.opcode = 0x68 → x.d.mode = 1 → x.phase = .placed → x.resv.isEmpty = false → x.waitRsv = false → 
    Answers (.milenageVector c) s fun t => ctxAt t c.val = some { x with phase := .running } ∧ t.units = s.units ∧ t.mews = s.mews ∧ t.out = s.out ∧ t = { s with quay := { s.quay with ctxs := t.quay.ctxs } }) ∧
  (∀ (s : State) (c : CtxNo), (ctxAt s c.val).any (fun x => x.d.opcode == 0x68 && x.d.mode == 1 && decide (x.phase = .placed) && !x.resv.isEmpty && !x.waitRsv) = false → 
    Answers (.milenageVector c) s fun t => t = s) ∧
  (∀ (s : State) (c : CtxNo) (x : Ctx), ctxAt s c.val = some x → x.d.opcode = 0x68 → x.d.mode = 2 → x.phase = .placed → x.resv.isEmpty = false → x.waitRsv = false → 
    Answers (.milenageResync c) s fun t => ctxAt t c.val = some { x with phase := .running } ∧ t.units = s.units ∧ t.mews = s.mews ∧ t.out = s.out ∧ t = { s with quay := { s.quay with ctxs := t.quay.ctxs } }) ∧
  (∀ (s : State) (c : CtxNo), (ctxAt s c.val).any (fun x => x.d.opcode == 0x68 && x.d.mode == 2 && decide (x.phase = .placed) && !x.resv.isEmpty && !x.waitRsv) = false → 
    Answers (.milenageResync c) s fun t => t = s) ∧
  (∀ (s : State) (c : CtxNo) (x : Ctx), ctxAt s c.val = some x → x.d.opcode = 0x69 → x.d.mode = 1 → x.phase = .placed → x.resv.isEmpty = false → x.waitRsv = false → 
    Answers (.tuakVector c) s fun t => ctxAt t c.val = some { x with phase := .running } ∧ t.units = s.units ∧ t.mews = s.mews ∧ t.out = s.out ∧ t = { s with quay := { s.quay with ctxs := t.quay.ctxs } }) ∧
  (∀ (s : State) (c : CtxNo), (ctxAt s c.val).any (fun x => x.d.opcode == 0x69 && x.d.mode == 1 && decide (x.phase = .placed) && !x.resv.isEmpty && !x.waitRsv) = false → 
    Answers (.tuakVector c) s fun t => t = s) ∧
  (∀ (s : State) (c : CtxNo) (x : Ctx), ctxAt s c.val = some x → x.d.opcode = 0x69 → x.d.mode = 2 → x.phase = .placed → x.resv.isEmpty = false → x.waitRsv = false → 
    Answers (.tuakResync c) s fun t => ctxAt t c.val = some { x with phase := .running } ∧ t.units = s.units ∧ t.mews = s.mews ∧ t.out = s.out ∧ t = { s with quay := { s.quay with ctxs := t.quay.ctxs } }) ∧
  (∀ (s : State) (c : CtxNo), (ctxAt s c.val).any (fun x => x.d.opcode == 0x69 && x.d.mode == 2 && decide (x.phase = .placed) && !x.resv.isEmpty && !x.waitRsv) = false → 
    Answers (.tuakResync c) s fun t => t = s) ∧
  (∀ (s : State) (c : CtxNo) (x : Ctx), ctxAt s c.val = some x → x.d.opcode = 0x6a → x.phase = .placed → x.resv.isEmpty = false → x.waitRsv = false → 
    Answers (.aka5gDerive c) s fun t => ctxAt t c.val = some { x with phase := .running } ∧ t.units = s.units ∧ t.mews = s.mews ∧ t.out = s.out ∧ t = { s with quay := { s.quay with ctxs := t.quay.ctxs } }) ∧
  (∀ (s : State) (c : CtxNo), (ctxAt s c.val).any (fun x => x.d.opcode == 0x6a && decide (x.phase = .placed) && !x.resv.isEmpty && !x.waitRsv) = false → 
    Answers (.aka5gDerive c) s fun t => t = s) ∧
  (∀ (s : State) (c : CtxNo) (x : Ctx) (u : Nat) (hit : Option Hit), ctxAt s c.val = some x → compLane x = some u → 0x60 ≤ x.d.opcode → x.phase = .running → x.stop = none → ((compSteps s x ((drawn s c.val).getD []))[x.step]?).any (fun f => decide (f.need ≤ x.srcIn.length) && (!f.rnd || (drawn s c.val).isSome)) = true → (cunit s u).prim = (cunit s u).chk → x.step + 1 < (compSteps s x ((drawn s c.val).getD [])).length → 
    Answers (.compositeStepEnd c ⟨{}, {}⟩ hit) s fun t => ctxAt t c.val = some { x with step := x.step + 1 } ∧ (cunit t u).prim.store = ((((compSteps s x ((drawn s c.val).getD []))[x.step]?).map fun f => (runStep f (cunit s u).prim {}).store).getD []) ∧ (cunit t u).chk = (cunit t u).prim ∧ t = { s with out := t.out, free := t.free, regs := t.regs, parBad := t.parBad, wins := t.wins, quay := { s.quay with queues := t.quay.queues, doms := t.quay.doms, domRR := t.quay.domRR, ctxs := t.quay.ctxs, msix := t.quay.msix }, units := { s.units with cipher := t.units.cipher, hash := t.units.hash, arc := t.units.arc, laneBlocks := t.units.laneBlocks, hashBytes := t.units.hashBytes }, kerb := { s.kerb with reports := t.kerb.reports }, fnt := { s.fnt with state := t.fnt.state, absorbed := t.fnt.absorbed, credit := t.fnt.credit, seed := t.fnt.seed, int := t.fnt.int, sw := t.fnt.sw, katBusy := t.fnt.katBusy, draws := t.fnt.draws, part := t.fnt.part, got := t.fnt.got, rng := t.fnt.rng, rngDone := t.fnt.rngDone, rngDead := t.fnt.rngDead }, xing := { s.xing with mirror := t.xing.mirror, sess := t.xing.sess } } ∧ OtherRegs s t [Reg.QUAY_RPL_HITS, Reg.RBT_LATE, Reg.BLVD_CMP_CNT, Reg.COMP_AUTH_FAIL, Reg.COMP_DONE] [Reg.PAGE_STAT, Reg.INT_STAT, Reg.ERR_SYND, Reg.ERR_ADDR, Reg.FAULT_CNT, Reg.QUAY_LINK_STAT, Reg.QUAY_LINK_CTRL, Reg.LANE_STOPS] []) ∧
  (∀ (s : State) (c : CtxNo) (x : Ctx) (u : Nat), ctxAt s c.val = some x → compLane x = some u → 0x60 ≤ x.d.opcode → x.phase = .running → x.stop = none → ((compSteps s x ((drawn s c.val).getD []))[x.step]?).any (fun f => decide (f.need ≤ x.srcIn.length) && (!f.rnd || (drawn s c.val).isSome)) = true → (cunit s u).prim = (cunit s u).chk → x.step + 1 = (compSteps s x ((drawn s c.val).getD [])).length → Deliverable s x → 
    Answers (.compositeStepEnd c ⟨{}, {}⟩ none) s fun t => (match compEnd x ((((compSteps s x ((drawn s c.val).getD []))[x.step]?).map fun f => (runStep f (cunit s u).prim {}).store).getD []) with
      | .fail dt => Completed s t c.val x { status := 0x05, detail := dt, bytesDone := if dt = 0x30 then 0 else x.srcIn.length }
      | .done f => Completed s t c.val x { f with detail := b2n x.late }
      | .output b => ctxAt t c.val = none ∧ (x.d.dstSgl = false → x.wrote = 0 → x.dstChk = 0 → 0 < b.length → covered (queueAt s x.q) true x.d.dst b.length = true →
          Out.hostWrite (qFunc (queueAt s x.q)) x.d.dst b (pcieOf s (qFunc (queueAt s x.q))).ro ∈ t.out)) ∧ t = { s with out := t.out, free := t.free, regs := t.regs, parBad := t.parBad, wins := t.wins, quay := { s.quay with queues := t.quay.queues, doms := t.quay.doms, domRR := t.quay.domRR, ctxs := t.quay.ctxs, msix := t.quay.msix }, units := { s.units with cipher := t.units.cipher, hash := t.units.hash, arc := t.units.arc, laneBlocks := t.units.laneBlocks, hashBytes := t.units.hashBytes }, kerb := { s.kerb with reports := t.kerb.reports }, fnt := { s.fnt with state := t.fnt.state, absorbed := t.fnt.absorbed, credit := t.fnt.credit, seed := t.fnt.seed, int := t.fnt.int, sw := t.fnt.sw, katBusy := t.fnt.katBusy, draws := t.fnt.draws, part := t.fnt.part, got := t.fnt.got, rng := t.fnt.rng, rngDone := t.fnt.rngDone, rngDead := t.fnt.rngDead }, xing := { s.xing with mirror := t.xing.mirror, sess := t.xing.sess } } ∧ OtherRegs s t [Reg.QUAY_RPL_HITS, Reg.RBT_LATE, Reg.BLVD_CMP_CNT, Reg.COMP_AUTH_FAIL, Reg.COMP_DONE] [Reg.PAGE_STAT, Reg.INT_STAT, Reg.ERR_SYND, Reg.ERR_ADDR, Reg.FAULT_CNT, Reg.QUAY_LINK_STAT, Reg.QUAY_LINK_CTRL, Reg.LANE_STOPS] []) ∧
  (∀ (s : State) (c : CtxNo) (x : Ctx) (u : Nat) (pe ce : CoreErr) (hit : Option Hit), ctxAt s c.val = some x → compLane x = some u → 0x60 ≤ x.d.opcode → x.phase = .running → ((compSteps s x ((drawn s c.val).getD []))[x.step]?).any (fun f => decide (f.need ≤ x.srcIn.length) && (!f.rnd || (drawn s c.val).isSome)) = true → ((compSteps s x ((drawn s c.val).getD []))[x.step]?).any (fun f => (runStep f (cunit s u).prim pe).store != (runStep f (cunit s u).chk ce).store) = true → Deliverable s x → 
    Answers (.compositeStepEnd c ⟨pe, ce⟩ hit) s fun t => Completed s t c.val x { status := 0x0A, detail := unitCode u, bytesDone := 0 } ∧ t = { s with out := t.out, free := t.free, regs := t.regs, parBad := t.parBad, wins := t.wins, quay := { s.quay with queues := t.quay.queues, doms := t.quay.doms, domRR := t.quay.domRR, ctxs := t.quay.ctxs, msix := t.quay.msix }, units := { s.units with cipher := t.units.cipher, hash := t.units.hash, arc := t.units.arc, laneBlocks := t.units.laneBlocks, hashBytes := t.units.hashBytes }, kerb := { s.kerb with reports := t.kerb.reports }, fnt := { s.fnt with state := t.fnt.state, absorbed := t.fnt.absorbed, credit := t.fnt.credit, seed := t.fnt.seed, int := t.fnt.int, sw := t.fnt.sw, katBusy := t.fnt.katBusy, draws := t.fnt.draws, part := t.fnt.part, got := t.fnt.got, rng := t.fnt.rng, rngDone := t.fnt.rngDone, rngDead := t.fnt.rngDead }, xing := { s.xing with mirror := t.xing.mirror, sess := t.xing.sess } } ∧ OtherRegs s t [Reg.QUAY_RPL_HITS, Reg.RBT_LATE, Reg.BLVD_CMP_CNT, Reg.COMP_AUTH_FAIL, Reg.COMP_DONE] [Reg.PAGE_STAT, Reg.INT_STAT, Reg.ERR_SYND, Reg.ERR_ADDR, Reg.FAULT_CNT, Reg.QUAY_LINK_STAT, Reg.QUAY_LINK_CTRL, Reg.LANE_STOPS] []) ∧
  (∀ (s : State) (c : CtxNo) (x : Ctx) (pe ce : CoreErr) (hit : Option Hit), ctxAt s c.val = some x → 0x60 ≤ x.d.opcode → x.phase = .running → x.stop = none → x.srcEnd = none → ((compSteps s x ((drawn s c.val).getD []))[x.step]?).any (fun f => decide (f.need ≤ x.srcIn.length) && (!f.rnd || (drawn s c.val).isSome)) = false → 
    Answers (.compositeStepEnd c ⟨pe, ce⟩ hit) s fun t => t = s)

/-- An Arcade command on its unit, whose source has arrived, whose Fountain draw, if it needs one, has been delivered, and which no stop has reached, runs from then on with its operands in the unit's operand memory; otherwise nothing happens. Each clause names what may change beside; every other part of the state and every other register is as before. Forms whose completion it states: pkSign, pkVerify, pkKeypair, pkAgree, kemEncap, kemDecap, pkEncrypt, pkDecrypt, modAdd, modSub, modMul, modInv, modExp, ptAdd, ptDbl, ptMul, ptMulG, ptCheck, curveLoad, curveFree, ntt, intt, pmul, padd, psub. (R249, R251, R255, R258, R261, R270) -/
def Obligations.ArcadeOpcodes : Prop :=
  (∀ (s : State) (c : CtxNo) (x : Ctx) (n : ArcNo), ctxAt s c.val = some x → x.d.opcode = 0x50 → x.eng = some (.arcade n) → x.phase = .placed → srcNeed x ≤ x.srcIn.length → x.stop = none → needsFountain x.d = true → (drawn s c.val).isSome = true → 
    Answers (.pkSign c) s fun t => ctxAt t c.val = some { x with phase := .running } ∧ aunit t n.val = { aunit s n.val with mem := loadedMem s c.val x (aunit s n.val).mem } ∧ t.mews = s.mews ∧ t.out = s.out ∧ t = { s with free := t.free, quay := { s.quay with ctxs := t.quay.ctxs }, units := { s.units with arc := t.units.arc } }) ∧
  (∀ (s : State) (c : CtxNo), (ctxAt s c.val).any (fun x => x.d.opcode == 0x50 && decide (x.phase = .placed) && decide (srcNeed x ≤ x.srcIn.length) && x.stop.isNone && (!needsFountain x.d || (drawn s c.val).isSome) && x.eng.any fun e => match e with
      | .arcade _ => true
      | _ => false) = false → 
    Answers (.pkSign c) s fun t => t = s) ∧
  (∀ (s : State) (c : CtxNo) (x : Ctx) (n : ArcNo), ctxAt s c.val = some x → x.d.opcode = 0x51 → x.eng = some (.arcade n) → x.phase = .placed → srcNeed x ≤ x.srcIn.length → x.stop = none → 
    Answers (.pkVerify c) s fun t => ctxAt t c.val = some { x with phase := .running } ∧ aunit t n.val = { aunit s n.val with mem := loadedMem s c.val x (aunit s n.val).mem } ∧ t.mews = s.mews ∧ t.out = s.out ∧ t = { s with free := t.free, quay := { s.quay with ctxs := t.quay.ctxs }, units := { s.units with arc := t.units.arc } }) ∧
  (∀ (s : State) (c : CtxNo), (ctxAt s c.val).any (fun x => x.d.opcode == 0x51 && decide (x.phase = .placed) && decide (srcNeed x ≤ x.srcIn.length) && x.stop.isNone && (!needsFountain x.d || (drawn s c.val).isSome) && x.eng.any fun e => match e with
      | .arcade _ => true
      | _ => false) = false → 
    Answers (.pkVerify c) s fun t => t = s) ∧
  (∀ (s : State) (c : CtxNo) (x : Ctx) (n : ArcNo), ctxAt s c.val = some x → x.d.opcode = 0x52 → x.eng = some (.arcade n) → x.phase = .placed → srcNeed x ≤ x.srcIn.length → x.stop = none → needsFountain x.d = true → (drawn s c.val).isSome = true → 
    Answers (.pkKeypair c) s fun t => ctxAt t c.val = some { x with phase := .running } ∧ aunit t n.val = { aunit s n.val with mem := loadedMem s c.val x (aunit s n.val).mem } ∧ t.mews = s.mews ∧ t.out = s.out ∧ t = { s with free := t.free, quay := { s.quay with ctxs := t.quay.ctxs }, units := { s.units with arc := t.units.arc } }) ∧
  (∀ (s : State) (c : CtxNo), (ctxAt s c.val).any (fun x => x.d.opcode == 0x52 && decide (x.phase = .placed) && decide (srcNeed x ≤ x.srcIn.length) && x.stop.isNone && (!needsFountain x.d || (drawn s c.val).isSome) && x.eng.any fun e => match e with
      | .arcade _ => true
      | _ => false) = false → 
    Answers (.pkKeypair c) s fun t => t = s) ∧
  (∀ (s : State) (c : CtxNo) (x : Ctx) (n : ArcNo), ctxAt s c.val = some x → x.d.opcode = 0x53 → x.eng = some (.arcade n) → x.phase = .placed → srcNeed x ≤ x.srcIn.length → x.stop = none → needsFountain x.d = true → (drawn s c.val).isSome = true → 
    Answers (.pkAgree c) s fun t => ctxAt t c.val = some { x with phase := .running } ∧ aunit t n.val = { aunit s n.val with mem := loadedMem s c.val x (aunit s n.val).mem } ∧ t.mews = s.mews ∧ t.out = s.out ∧ t = { s with free := t.free, quay := { s.quay with ctxs := t.quay.ctxs }, units := { s.units with arc := t.units.arc } }) ∧
  (∀ (s : State) (c : CtxNo), (ctxAt s c.val).any (fun x => x.d.opcode == 0x53 && decide (x.phase = .placed) && decide (srcNeed x ≤ x.srcIn.length) && x.stop.isNone && (!needsFountain x.d || (drawn s c.val).isSome) && x.eng.any fun e => match e with
      | .arcade _ => true
      | _ => false) = false → 
    Answers (.pkAgree c) s fun t => t = s) ∧
  (∀ (s : State) (c : CtxNo) (x : Ctx) (n : ArcNo), ctxAt s c.val = some x → x.d.opcode = 0x54 → x.eng = some (.arcade n) → x.phase = .placed → srcNeed x ≤ x.srcIn.length → x.stop = none → needsFountain x.d = true → (drawn s c.val).isSome = true → 
    Answers (.kemEncap c) s fun t => ctxAt t c.val = some { x with phase := .running } ∧ aunit t n.val = { aunit s n.val with mem := loadedMem s c.val x (aunit s n.val).mem } ∧ t.mews = s.mews ∧ t.out = s.out ∧ t = { s with free := t.free, quay := { s.quay with ctxs := t.quay.ctxs }, units := { s.units with arc := t.units.arc } }) ∧
  (∀ (s : State) (c : CtxNo), (ctxAt s c.val).any (fun x => x.d.opcode == 0x54 && decide (x.phase = .placed) && decide (srcNeed x ≤ x.srcIn.length) && x.stop.isNone && (!needsFountain x.d || (drawn s c.val).isSome) && x.eng.any fun e => match e with
      | .arcade _ => true
      | _ => false) = false → 
    Answers (.kemEncap c) s fun t => t = s) ∧
  (∀ (s : State) (c : CtxNo) (x : Ctx) (n : ArcNo), ctxAt s c.val = some x → x.d.opcode = 0x55 → x.eng = some (.arcade n) → x.phase = .placed → srcNeed x ≤ x.srcIn.length → x.stop = none → needsFountain x.d = true → (drawn s c.val).isSome = true → 
    Answers (.kemDecap c) s fun t => ctxAt t c.val = some { x with phase := .running } ∧ aunit t n.val = { aunit s n.val with mem := loadedMem s c.val x (aunit s n.val).mem } ∧ t.mews = s.mews ∧ t.out = s.out ∧ t = { s with free := t.free, quay := { s.quay with ctxs := t.quay.ctxs }, units := { s.units with arc := t.units.arc } }) ∧
  (∀ (s : State) (c : CtxNo), (ctxAt s c.val).any (fun x => x.d.opcode == 0x55 && decide (x.phase = .placed) && decide (srcNeed x ≤ x.srcIn.length) && x.stop.isNone && (!needsFountain x.d || (drawn s c.val).isSome) && x.eng.any fun e => match e with
      | .arcade _ => true
      | _ => false) = false → 
    Answers (.kemDecap c) s fun t => t = s) ∧
  (∀ (s : State) (c : CtxNo) (x : Ctx) (n : ArcNo), ctxAt s c.val = some x → x.d.opcode = 0x56 → x.eng = some (.arcade n) → x.phase = .placed → srcNeed x ≤ x.srcIn.length → x.stop = none → needsFountain x.d = true → (drawn s c.val).isSome = true → 
    Answers (.pkEncrypt c) s fun t => ctxAt t c.val = some { x with phase := .running } ∧ aunit t n.val = { aunit s n.val with mem := loadedMem s c.val x (aunit s n.val).mem } ∧ t.mews = s.mews ∧ t.out = s.out ∧ t = { s with free := t.free, quay := { s.quay with ctxs := t.quay.ctxs }, units := { s.units with arc := t.units.arc } }) ∧
  (∀ (s : State) (c : CtxNo), (ctxAt s c.val).any (fun x => x.d.opcode == 0x56 && decide (x.phase = .placed) && decide (srcNeed x ≤ x.srcIn.length) && x.stop.isNone && (!needsFountain x.d || (drawn s c.val).isSome) && x.eng.any fun e => match e with
      | .arcade _ => true
      | _ => false) = false → 
    Answers (.pkEncrypt c) s fun t => t = s) ∧
  (∀ (s : State) (c : CtxNo) (x : Ctx) (n : ArcNo), ctxAt s c.val = some x → x.d.opcode = 0x57 → x.eng = some (.arcade n) → x.phase = .placed → srcNeed x ≤ x.srcIn.length → x.stop = none → needsFountain x.d = true → (drawn s c.val).isSome = true → 
    Answers (.pkDecrypt c) s fun t => ctxAt t c.val = some { x with phase := .running } ∧ aunit t n.val = { aunit s n.val with mem := loadedMem s c.val x (aunit s n.val).mem } ∧ t.mews = s.mews ∧ t.out = s.out ∧ t = { s with free := t.free, quay := { s.quay with ctxs := t.quay.ctxs }, units := { s.units with arc := t.units.arc } }) ∧
  (∀ (s : State) (c : CtxNo), (ctxAt s c.val).any (fun x => x.d.opcode == 0x57 && decide (x.phase = .placed) && decide (srcNeed x ≤ x.srcIn.length) && x.stop.isNone && (!needsFountain x.d || (drawn s c.val).isSome) && x.eng.any fun e => match e with
      | .arcade _ => true
      | _ => false) = false → 
    Answers (.pkDecrypt c) s fun t => t = s) ∧
  (∀ (s : State) (c : CtxNo) (x : Ctx) (n : ArcNo), ctxAt s c.val = some x → x.d.opcode = 0x58 → x.d.mode = 1 → arcFunc x.d = 0x01 → x.eng = some (.arcade n) → x.phase = .placed → srcNeed x ≤ x.srcIn.length → x.stop = none → 
    Answers (.modAdd c) s fun t => ctxAt t c.val = some { x with phase := .running } ∧ aunit t n.val = { aunit s n.val with mem := loadedMem s c.val x (aunit s n.val).mem } ∧ t.mews = s.mews ∧ t.out = s.out ∧ t = { s with free := t.free, quay := { s.quay with ctxs := t.quay.ctxs }, units := { s.units with arc := t.units.arc } }) ∧
  (∀ (s : State) (c : CtxNo), (ctxAt s c.val).any (fun x => x.d.opcode == 0x58 && x.d.mode == 1 && arcFunc x.d == 0x01 && decide (x.phase = .placed) && decide (srcNeed x ≤ x.srcIn.length) && x.stop.isNone && (!needsFountain x.d || (drawn s c.val).isSome) && x.eng.any fun e => match e with
      | .arcade _ => true
      | _ => false) = false → 
    Answers (.modAdd c) s fun t => t = s) ∧
  (∀ (s : State) (c : CtxNo) (x : Ctx) (n : ArcNo), ctxAt s c.val = some x → x.d.opcode = 0x58 → x.d.mode = 1 → arcFunc x.d = 0x02 → x.eng = some (.arcade n) → x.phase = .placed → srcNeed x ≤ x.srcIn.length → x.stop = none → 
    Answers (.modSub c) s fun t => ctxAt t c.val = some { x with phase := .running } ∧ aunit t n.val = { aunit s n.val with mem := loadedMem s c.val x (aunit s n.val).mem } ∧ t.mews = s.mews ∧ t.out = s.out ∧ t = { s with free := t.free, quay := { s.quay with ctxs := t.quay.ctxs }, units := { s.units with arc := t.units.arc } }) ∧
  (∀ (s : State) (c : CtxNo), (ctxAt s c.val).any (fun x => x.d.opcode == 0x58 && x.d.mode == 1 && arcFunc x.d == 0x02 && decide (x.phase = .placed) && decide (srcNeed x ≤ x.srcIn.length) && x.stop.isNone && (!needsFountain x.d || (drawn s c.val).isSome) && x.eng.any fun e => match e with
      | .arcade _ => true
      | _ => false) = false → 
    Answers (.modSub c) s fun t => t = s) ∧
  (∀ (s : State) (c : CtxNo) (x : Ctx) (n : ArcNo), ctxAt s c.val = some x → x.d.opcode = 0x58 → x.d.mode = 1 → arcFunc x.d = 0x03 → x.eng = some (.arcade n) → x.phase = .placed → srcNeed x ≤ x.srcIn.length → x.stop = none → 
    Answers (.modMul c) s fun t => ctxAt t c.val = some { x with phase := .running } ∧ aunit t n.val = { aunit s n.val with mem := loadedMem s c.val x (aunit s n.val).mem } ∧ t.mews = s.mews ∧ t.out = s.out ∧ t = { s with free := t.free, quay := { s.quay with ctxs := t.quay.ctxs }, units := { s.units with arc := t.units.arc } }) ∧
  (∀ (s : State) (c : CtxNo), (ctxAt s c.val).any (fun x => x.d.opcode == 0x58 && x.d.mode == 1 && arcFunc x.d == 0x03 && decide (x.phase = .placed) && decide (srcNeed x ≤ x.srcIn.length) && x.stop.isNone && (!needsFountain x.d || (drawn s c.val).isSome) && x.eng.any fun e => match e with
      | .arcade _ => true
      | _ => false) = false → 
    Answers (.modMul c) s fun t => t = s) ∧
  (∀ (s : State) (c : CtxNo) (x : Ctx) (n : ArcNo), ctxAt s c.val = some x → x.d.opcode = 0x58 → x.d.mode = 1 → arcFunc x.d = 0x04 → x.eng = some (.arcade n) → x.phase = .placed → srcNeed x ≤ x.srcIn.length → x.stop = none → 
    Answers (.modInv c) s fun t => ctxAt t c.val = some { x with phase := .running } ∧ aunit t n.val = { aunit s n.val with mem := loadedMem s c.val x (aunit s n.val).mem } ∧ t.mews = s.mews ∧ t.out = s.out ∧ t = { s with free := t.free, quay := { s.quay with ctxs := t.quay.ctxs }, units := { s.units with arc := t.units.arc } }) ∧
  (∀ (s : State) (c : CtxNo), (ctxAt s c.val).any (fun x => x.d.opcode == 0x58 && x.d.mode == 1 && arcFunc x.d == 0x04 && decide (x.phase = .placed) && decide (srcNeed x ≤ x.srcIn.length) && x.stop.isNone && (!needsFountain x.d || (drawn s c.val).isSome) && x.eng.any fun e => match e with
      | .arcade _ => true
      | _ => false) = false → 
    Answers (.modInv c) s fun t => t = s) ∧
  (∀ (s : State) (c : CtxNo) (x : Ctx) (n : ArcNo), ctxAt s c.val = some x → x.d.opcode = 0x58 → x.d.mode = 1 → arcFunc x.d = 0x05 → x.eng = some (.arcade n) → x.phase = .placed → srcNeed x ≤ x.srcIn.length → x.stop = none → 
    Answers (.modExp c) s fun t => ctxAt t c.val = some { x with phase := .running } ∧ aunit t n.val = { aunit s n.val with mem := loadedMem s c.val x (aunit s n.val).mem } ∧ t.mews = s.mews ∧ t.out = s.out ∧ t = { s with free := t.free, quay := { s.quay with ctxs := t.quay.ctxs }, units := { s.units with arc := t.units.arc } }) ∧
  (∀ (s : State) (c : CtxNo), (ctxAt s c.val).any (fun x => x.d.opcode == 0x58 && x.d.mode == 1 && arcFunc x.d == 0x05 && decide (x.phase = .placed) && decide (srcNeed x ≤ x.srcIn.length) && x.stop.isNone && (!needsFountain x.d || (drawn s c.val).isSome) && x.eng.any fun e => match e with
      | .arcade _ => true
      | _ => false) = false → 
    Answers (.modExp c) s fun t => t = s) ∧
  (∀ (s : State) (c : CtxNo) (x : Ctx) (n : ArcNo), ctxAt s c.val = some x → x.d.opcode = 0x58 → x.d.mode = 2 → arcFunc x.d = 0x11 → x.eng = some (.arcade n) → x.phase = .placed → srcNeed x ≤ x.srcIn.length → x.stop = none → 
    Answers (.ptAdd c) s fun t => ctxAt t c.val = some { x with phase := .running } ∧ aunit t n.val = { aunit s n.val with mem := loadedMem s c.val x (aunit s n.val).mem } ∧ t.mews = s.mews ∧ t.out = s.out ∧ t = { s with free := t.free, quay := { s.quay with ctxs := t.quay.ctxs }, units := { s.units with arc := t.units.arc } }) ∧
  (∀ (s : State) (c : CtxNo), (ctxAt s c.val).any (fun x => x.d.opcode == 0x58 && x.d.mode == 2 && arcFunc x.d == 0x11 && decide (x.phase = .placed) && decide (srcNeed x ≤ x.srcIn.length) && x.stop.isNone && (!needsFountain x.d || (drawn s c.val).isSome) && x.eng.any fun e => match e with
      | .arcade _ => true
      | _ => false) = false → 
    Answers (.ptAdd c) s fun t => t = s) ∧
  (∀ (s : State) (c : CtxNo) (x : Ctx) (n : ArcNo), ctxAt s c.val = some x → x.d.opcode = 0x58 → x.d.mode = 2 → arcFunc x.d = 0x12 → x.eng = some (.arcade n) → x.phase = .placed → srcNeed x ≤ x.srcIn.length → x.stop = none → 
    Answers (.ptDbl c) s fun t => ctxAt t c.val = some { x with phase := .running } ∧ aunit t n.val = { aunit s n.val with mem := loadedMem s c.val x (aunit s n.val).mem } ∧ t.mews = s.mews ∧ t.out = s.out ∧ t = { s with free := t.free, quay := { s.quay with ctxs := t.quay.ctxs }, units := { s.units with arc := t.units.arc } }) ∧
  (∀ (s : State) (c : CtxNo), (ctxAt s c.val).any (fun x => x.d.opcode == 0x58 && x.d.mode == 2 && arcFunc x.d == 0x12 && decide (x.phase = .placed) && decide (srcNeed x ≤ x.srcIn.length) && x.stop.isNone && (!needsFountain x.d || (drawn s c.val).isSome) && x.eng.any fun e => match e with
      | .arcade _ => true
      | _ => false) = false → 
    Answers (.ptDbl c) s fun t => t = s) ∧
  (∀ (s : State) (c : CtxNo) (x : Ctx) (n : ArcNo), ctxAt s c.val = some x → x.d.opcode = 0x58 → x.d.mode = 2 → arcFunc x.d = 0x13 → x.eng = some (.arcade n) → x.phase = .placed → srcNeed x ≤ x.srcIn.length → x.stop = none → needsFountain x.d = true → (drawn s c.val).isSome = true → 
    Answers (.ptMul c) s fun t => ctxAt t c.val = some { x with phase := .running } ∧ aunit t n.val = { aunit s n.val with mem := loadedMem s c.val x (aunit s n.val).mem } ∧ t.mews = s.mews ∧ t.out = s.out ∧ t = { s with free := t.free, quay := { s.quay with ctxs := t.quay.ctxs }, units := { s.units with arc := t.units.arc } }) ∧
  (∀ (s : State) (c : CtxNo), (ctxAt s c.val).any (fun x => x.d.opcode == 0x58 && x.d.mode == 2 && arcFunc x.d == 0x13 && decide (x.phase = .placed) && decide (srcNeed x ≤ x.srcIn.length) && x.stop.isNone && (!needsFountain x.d || (drawn s c.val).isSome) && x.eng.any fun e => match e with
      | .arcade _ => true
      | _ => false) = false → 
    Answers (.ptMul c) s fun t => t = s) ∧
  (∀ (s : State) (c : CtxNo) (x : Ctx) (n : ArcNo), ctxAt s c.val = some x → x.d.opcode = 0x58 → x.d.mode = 2 → arcFunc x.d = 0x14 → x.eng = some (.arcade n) → x.phase = .placed → srcNeed x ≤ x.srcIn.length → x.stop = none → needsFountain x.d = true → (drawn s c.val).isSome = true → 
    Answers (.ptMulG c) s fun t => ctxAt t c.val = some { x with phase := .running } ∧ aunit t n.val = { aunit s n.val with mem := loadedMem s c.val x (aunit s n.val).mem } ∧ t.mews = s.mews ∧ t.out = s.out ∧ t = { s with free := t.free, quay := { s.quay with ctxs := t.quay.ctxs }, units := { s.units with arc := t.units.arc } }) ∧
  (∀ (s : State) (c : CtxNo), (ctxAt s c.val).any (fun x => x.d.opcode == 0x58 && x.d.mode == 2 && arcFunc x.d == 0x14 && decide (x.phase = .placed) && decide (srcNeed x ≤ x.srcIn.length) && x.stop.isNone && (!needsFountain x.d || (drawn s c.val).isSome) && x.eng.any fun e => match e with
      | .arcade _ => true
      | _ => false) = false → 
    Answers (.ptMulG c) s fun t => t = s) ∧
  (∀ (s : State) (c : CtxNo) (x : Ctx) (n : ArcNo), ctxAt s c.val = some x → x.d.opcode = 0x58 → x.d.mode = 2 → arcFunc x.d = 0x15 → x.eng = some (.arcade n) → x.phase = .placed → srcNeed x ≤ x.srcIn.length → x.stop = none → 
    Answers (.ptCheck c) s fun t => ctxAt t c.val = some { x with phase := .running } ∧ aunit t n.val = { aunit s n.val with mem := loadedMem s c.val x (aunit s n.val).mem } ∧ t.mews = s.mews ∧ t.out = s.out ∧ t = { s with free := t.free, quay := { s.quay with ctxs := t.quay.ctxs }, units := { s.units with arc := t.units.arc } }) ∧
  (∀ (s : State) (c : CtxNo), (ctxAt s c.val).any (fun x => x.d.opcode == 0x58 && x.d.mode == 2 && arcFunc x.d == 0x15 && decide (x.phase = .placed) && decide (srcNeed x ≤ x.srcIn.length) && x.stop.isNone && (!needsFountain x.d || (drawn s c.val).isSome) && x.eng.any fun e => match e with
      | .arcade _ => true
      | _ => false) = false → 
    Answers (.ptCheck c) s fun t => t = s) ∧
  (∀ (s : State) (c : CtxNo) (x : Ctx) (n : ArcNo), ctxAt s c.val = some x → x.d.opcode = 0x58 → x.d.mode = 2 → arcFunc x.d = 0x16 → x.eng = some (.arcade n) → x.phase = .placed → srcNeed x ≤ x.srcIn.length → x.stop = none → needsFountain x.d = true → (drawn s c.val).isSome = true → 
    Answers (.curveLoad c) s fun t => ctxAt t c.val = some { x with phase := .running } ∧ aunit t n.val = { aunit s n.val with mem := loadedMem s c.val x (aunit s n.val).mem } ∧ t.mews = s.mews ∧ t.out = s.out ∧ t = { s with free := t.free, quay := { s.quay with ctxs := t.quay.ctxs }, units := { s.units with arc := t.units.arc } }) ∧
  (∀ (s : State) (c : CtxNo), (ctxAt s c.val).any (fun x => x.d.opcode == 0x58 && x.d.mode == 2 && arcFunc x.d == 0x16 && decide (x.phase = .placed) && decide (srcNeed x ≤ x.srcIn.length) && x.stop.isNone && (!needsFountain x.d || (drawn s c.val).isSome) && x.eng.any fun e => match e with
      | .arcade _ => true
      | _ => false) = false → 
    Answers (.curveLoad c) s fun t => t = s) ∧
  (∀ (s : State) (c : CtxNo) (x : Ctx) (n : ArcNo), ctxAt s c.val = some x → x.d.opcode = 0x58 → x.d.mode = 2 → arcFunc x.d = 0x17 → x.eng = some (.arcade n) → x.phase = .placed → srcNeed x ≤ x.srcIn.length → x.stop = none → 
    Answers (.curveFree c) s fun t => ctxAt t c.val = some { x with phase := .running } ∧ aunit t n.val = { aunit s n.val with mem := loadedMem s c.val x (aunit s n.val).mem } ∧ t.mews = s.mews ∧ t.out = s.out ∧ t = { s with free := t.free, quay := { s.quay with ctxs := t.quay.ctxs }, units := { s.units with arc := t.units.arc } }) ∧
  (∀ (s : State) (c : CtxNo), (ctxAt s c.val).any (fun x => x.d.opcode == 0x58 && x.d.mode == 2 && arcFunc x.d == 0x17 && decide (x.phase = .placed) && decide (srcNeed x ≤ x.srcIn.length) && x.stop.isNone && (!needsFountain x.d || (drawn s c.val).isSome) && x.eng.any fun e => match e with
      | .arcade _ => true
      | _ => false) = false → 
    Answers (.curveFree c) s fun t => t = s) ∧
  (∀ (s : State) (c : CtxNo) (x : Ctx) (n : ArcNo), ctxAt s c.val = some x → x.d.opcode = 0x58 → x.d.mode = 3 → arcFunc x.d = 0x21 → x.eng = some (.arcade n) → x.phase = .placed → srcNeed x ≤ x.srcIn.length → x.stop = none → 
    Answers (.ntt c) s fun t => ctxAt t c.val = some { x with phase := .running } ∧ aunit t n.val = { aunit s n.val with mem := loadedMem s c.val x (aunit s n.val).mem } ∧ t.mews = s.mews ∧ t.out = s.out ∧ t = { s with free := t.free, quay := { s.quay with ctxs := t.quay.ctxs }, units := { s.units with arc := t.units.arc } }) ∧
  (∀ (s : State) (c : CtxNo), (ctxAt s c.val).any (fun x => x.d.opcode == 0x58 && x.d.mode == 3 && arcFunc x.d == 0x21 && decide (x.phase = .placed) && decide (srcNeed x ≤ x.srcIn.length) && x.stop.isNone && (!needsFountain x.d || (drawn s c.val).isSome) && x.eng.any fun e => match e with
      | .arcade _ => true
      | _ => false) = false → 
    Answers (.ntt c) s fun t => t = s) ∧
  (∀ (s : State) (c : CtxNo) (x : Ctx) (n : ArcNo), ctxAt s c.val = some x → x.d.opcode = 0x58 → x.d.mode = 3 → arcFunc x.d = 0x22 → x.eng = some (.arcade n) → x.phase = .placed → srcNeed x ≤ x.srcIn.length → x.stop = none → 
    Answers (.intt c) s fun t => ctxAt t c.val = some { x with phase := .running } ∧ aunit t n.val = { aunit s n.val with mem := loadedMem s c.val x (aunit s n.val).mem } ∧ t.mews = s.mews ∧ t.out = s.out ∧ t = { s with free := t.free, quay := { s.quay with ctxs := t.quay.ctxs }, units := { s.units with arc := t.units.arc } }) ∧
  (∀ (s : State) (c : CtxNo), (ctxAt s c.val).any (fun x => x.d.opcode == 0x58 && x.d.mode == 3 && arcFunc x.d == 0x22 && decide (x.phase = .placed) && decide (srcNeed x ≤ x.srcIn.length) && x.stop.isNone && (!needsFountain x.d || (drawn s c.val).isSome) && x.eng.any fun e => match e with
      | .arcade _ => true
      | _ => false) = false → 
    Answers (.intt c) s fun t => t = s) ∧
  (∀ (s : State) (c : CtxNo) (x : Ctx) (n : ArcNo), ctxAt s c.val = some x → x.d.opcode = 0x58 → x.d.mode = 3 → arcFunc x.d = 0x23 → x.eng = some (.arcade n) → x.phase = .placed → srcNeed x ≤ x.srcIn.length → x.stop = none → 
    Answers (.pmul c) s fun t => ctxAt t c.val = some { x with phase := .running } ∧ aunit t n.val = { aunit s n.val with mem := loadedMem s c.val x (aunit s n.val).mem } ∧ t.mews = s.mews ∧ t.out = s.out ∧ t = { s with free := t.free, quay := { s.quay with ctxs := t.quay.ctxs }, units := { s.units with arc := t.units.arc } }) ∧
  (∀ (s : State) (c : CtxNo), (ctxAt s c.val).any (fun x => x.d.opcode == 0x58 && x.d.mode == 3 && arcFunc x.d == 0x23 && decide (x.phase = .placed) && decide (srcNeed x ≤ x.srcIn.length) && x.stop.isNone && (!needsFountain x.d || (drawn s c.val).isSome) && x.eng.any fun e => match e with
      | .arcade _ => true
      | _ => false) = false → 
    Answers (.pmul c) s fun t => t = s) ∧
  (∀ (s : State) (c : CtxNo) (x : Ctx) (n : ArcNo), ctxAt s c.val = some x → x.d.opcode = 0x58 → x.d.mode = 3 → arcFunc x.d = 0x24 → x.eng = some (.arcade n) → x.phase = .placed → srcNeed x ≤ x.srcIn.length → x.stop = none → 
    Answers (.padd c) s fun t => ctxAt t c.val = some { x with phase := .running } ∧ aunit t n.val = { aunit s n.val with mem := loadedMem s c.val x (aunit s n.val).mem } ∧ t.mews = s.mews ∧ t.out = s.out ∧ t = { s with free := t.free, quay := { s.quay with ctxs := t.quay.ctxs }, units := { s.units with arc := t.units.arc } }) ∧
  (∀ (s : State) (c : CtxNo), (ctxAt s c.val).any (fun x => x.d.opcode == 0x58 && x.d.mode == 3 && arcFunc x.d == 0x24 && decide (x.phase = .placed) && decide (srcNeed x ≤ x.srcIn.length) && x.stop.isNone && (!needsFountain x.d || (drawn s c.val).isSome) && x.eng.any fun e => match e with
      | .arcade _ => true
      | _ => false) = false → 
    Answers (.padd c) s fun t => t = s) ∧
  (∀ (s : State) (c : CtxNo) (x : Ctx) (n : ArcNo), ctxAt s c.val = some x → x.d.opcode = 0x58 → x.d.mode = 3 → arcFunc x.d = 0x25 → x.eng = some (.arcade n) → x.phase = .placed → srcNeed x ≤ x.srcIn.length → x.stop = none → 
    Answers (.psub c) s fun t => ctxAt t c.val = some { x with phase := .running } ∧ aunit t n.val = { aunit s n.val with mem := loadedMem s c.val x (aunit s n.val).mem } ∧ t.mews = s.mews ∧ t.out = s.out ∧ t = { s with free := t.free, quay := { s.quay with ctxs := t.quay.ctxs }, units := { s.units with arc := t.units.arc } }) ∧
  (∀ (s : State) (c : CtxNo), (ctxAt s c.val).any (fun x => x.d.opcode == 0x58 && x.d.mode == 3 && arcFunc x.d == 0x25 && decide (x.phase = .placed) && decide (srcNeed x ≤ x.srcIn.length) && x.stop.isNone && (!needsFountain x.d || (drawn s c.val).isSome) && x.eng.any fun e => match e with
      | .arcade _ => true
      | _ => false) = false → 
    Answers (.psub c) s fun t => t = s)

/-- When a unit releases MOD_ADD, MOD_SUB, MOD_MUL or MOD_EXP on operands below an odd modulus n of at least 3, or MOD_INV of an operand whose inverse modulo n it found, with no error in its operand memory or its result and a window over the destination, the result modulo n, big-endian, is written to the destination, and the command waits only for the zeroisation that ends it with OK and the length of the result. An even modulus, one below 3, or an operand of the first four not below the modulus settles it as ARC_REJECT with nothing written. Each clause names what may change beside; every other part of the state and every other register is as before. Forms whose completion it states: arcResultRelease. (R252, R261, R265, R268) -/
def Obligations.ModularResults : Prop :=
  (∀ (s : State) (n : ArcNo) (c : CtxNo) (x : Ctx), (aunit s n.val).ctx = some c.val → ctxAt s c.val = some x → x.phase = .running → x.d.opcode = 0x58 → x.d.mode = 1 → arcFunc x.d = 0x01 → 0 < lWords x → lWords x ≤ 256 → x.d.dstSgl = false → x.wrote = 0 → x.dstChk = 0 → covered (queueAt s x.q) true x.d.dst (freeB x) = true → linkUp s (fnPort (qFunc (queueAt s x.q))) = true → freeN (aunit s n.val).mem % 2 = 1 → 3 ≤ freeN (aunit s n.val).mem → freeOp x (aunit s n.val).mem 1 < freeN (aunit s n.val).mem → freeOp x (aunit s n.val).mem 2 < freeN (aunit s n.val).mem → 
    Answers (.arcResultRelease n ⟨[], .clean⟩ none) s fun t => Out.hostWrite (qFunc (queueAt s x.q)) x.d.dst (toBe (freeB x) ((freeOp x (aunit s n.val).mem 1 + freeOp x (aunit s n.val).mem 2) % freeN (aunit s n.val).mem)) (pcieOf s (qFunc (queueAt s x.q))).ro ∈ t.out ∧ (ctxAt t c.val).map (fun y => (y.phase, y.status, y.detail, y.bytesDone)) = some (.zeroising, 0, b2n x.late, freeB x) ∧ t = { s with out := t.out, regs := t.regs, parBad := t.parBad, wins := t.wins, quay := { s.quay with queues := t.quay.queues, doms := t.quay.doms, domRR := t.quay.domRR, ctxs := t.quay.ctxs, msix := t.quay.msix }, units := { s.units with cipher := t.units.cipher, hash := t.units.hash, arc := t.units.arc }, mews := { s.mews with slots := t.mews.slots, cascades := t.mews.cascades }, kerb := { s.kerb with reports := t.kerb.reports }, fnt := { s.fnt with state := t.fnt.state, absorbed := t.fnt.absorbed, credit := t.fnt.credit, seed := t.fnt.seed, int := t.fnt.int, sw := t.fnt.sw, katBusy := t.fnt.katBusy, draws := t.fnt.draws, part := t.fnt.part, got := t.fnt.got, rng := t.fnt.rng, rngDone := t.fnt.rngDone, rngDead := t.fnt.rngDead }, curves := t.curves, xing := { s.xing with mirror := t.xing.mirror, sess := t.xing.sess }, chk := { s.chk with slotBad := t.chk.slotBad } } ∧ OtherRegs s t [Reg.QUAY_RPL_HITS, Reg.RBT_LATE, Reg.MEWS_REVOKES, Reg.COMP_AUTH_FAIL, Reg.COMP_DONE] [Reg.PAGE_STAT, Reg.INT_STAT, Reg.ERR_SYND, Reg.ERR_ADDR, Reg.FAULT_CNT, Reg.QUAY_LINK_STAT, Reg.QUAY_LINK_ERR] []) ∧
  (∀ (s : State) (n : ArcNo) (c : CtxNo) (x : Ctx) (err : Bytes) (hit : Option Hit), (aunit s n.val).ctx = some c.val → ctxAt s c.val = some x → x.phase = .running → x.d.opcode = 0x58 → x.d.mode = 1 → arcFunc x.d = 0x01 → freeN (aunit s n.val).mem % 2 = 0 ∨ freeN (aunit s n.val).mem < 3 ∨ freeN (aunit s n.val).mem ≤ freeOp x (aunit s n.val).mem 1 ∨ freeN (aunit s n.val).mem ≤ freeOp x (aunit s n.val).mem 2 → 
    Answers (.arcResultRelease n ⟨err, .clean⟩ hit) s fun t => (ctxAt t c.val).map (fun y => (y.phase, y.status, y.detail, y.bytesDone)) = some (.zeroising, 0x06, 0, 0) ∧ t = { s with out := t.out, regs := t.regs, parBad := t.parBad, wins := t.wins, quay := { s.quay with queues := t.quay.queues, doms := t.quay.doms, domRR := t.quay.domRR, ctxs := t.quay.ctxs, msix := t.quay.msix }, units := { s.units with cipher := t.units.cipher, hash := t.units.hash, arc := t.units.arc }, mews := { s.mews with slots := t.mews.slots, cascades := t.mews.cascades }, kerb := { s.kerb with reports := t.kerb.reports }, fnt := { s.fnt with state := t.fnt.state, absorbed := t.fnt.absorbed, credit := t.fnt.credit, seed := t.fnt.seed, int := t.fnt.int, sw := t.fnt.sw, katBusy := t.fnt.katBusy, draws := t.fnt.draws, part := t.fnt.part, got := t.fnt.got, rng := t.fnt.rng, rngDone := t.fnt.rngDone, rngDead := t.fnt.rngDead }, curves := t.curves, xing := { s.xing with mirror := t.xing.mirror, sess := t.xing.sess }, chk := { s.chk with slotBad := t.chk.slotBad } } ∧ OtherRegs s t [Reg.QUAY_RPL_HITS, Reg.RBT_LATE, Reg.MEWS_REVOKES, Reg.COMP_AUTH_FAIL, Reg.COMP_DONE] [Reg.PAGE_STAT, Reg.INT_STAT, Reg.ERR_SYND, Reg.ERR_ADDR, Reg.FAULT_CNT, Reg.QUAY_LINK_STAT, Reg.QUAY_LINK_ERR] []) ∧
  (∀ (s : State) (n : ArcNo) (c : CtxNo) (x : Ctx), (aunit s n.val).ctx = some c.val → ctxAt s c.val = some x → x.phase = .running → x.d.opcode = 0x58 → x.d.mode = 1 → arcFunc x.d = 0x02 → 0 < lWords x → lWords x ≤ 256 → x.d.dstSgl = false → x.wrote = 0 → x.dstChk = 0 → covered (queueAt s x.q) true x.d.dst (freeB x) = true → linkUp s (fnPort (qFunc (queueAt s x.q))) = true → freeN (aunit s n.val).mem % 2 = 1 → 3 ≤ freeN (aunit s n.val).mem → freeOp x (aunit s n.val).mem 1 < freeN (aunit s n.val).mem → freeOp x (aunit s n.val).mem 2 < freeN (aunit s n.val).mem → 
    Answers (.arcResultRelease n ⟨[], .clean⟩ none) s fun t => Out.hostWrite (qFunc (queueAt s x.q)) x.d.dst (toBe (freeB x) (subMod (freeOp x (aunit s n.val).mem 1) (freeOp x (aunit s n.val).mem 2) (freeN (aunit s n.val).mem))) (pcieOf s (qFunc (queueAt s x.q))).ro ∈ t.out ∧ (ctxAt t c.val).map (fun y => (y.phase, y.status, y.detail, y.bytesDone)) = some (.zeroising, 0, b2n x.late, freeB x) ∧ t = { s with out := t.out, regs := t.regs, parBad := t.parBad, wins := t.wins, quay := { s.quay with queues := t.quay.queues, doms := t.quay.doms, domRR := t.quay.domRR, ctxs := t.quay.ctxs, msix := t.quay.msix }, units := { s.units with cipher := t.units.cipher, hash := t.units.hash, arc := t.units.arc }, mews := { s.mews with slots := t.mews.slots, cascades := t.mews.cascades }, kerb := { s.kerb with reports := t.kerb.reports }, fnt := { s.fnt with state := t.fnt.state, absorbed := t.fnt.absorbed, credit := t.fnt.credit, seed := t.fnt.seed, int := t.fnt.int, sw := t.fnt.sw, katBusy := t.fnt.katBusy, draws := t.fnt.draws, part := t.fnt.part, got := t.fnt.got, rng := t.fnt.rng, rngDone := t.fnt.rngDone, rngDead := t.fnt.rngDead }, curves := t.curves, xing := { s.xing with mirror := t.xing.mirror, sess := t.xing.sess }, chk := { s.chk with slotBad := t.chk.slotBad } } ∧ OtherRegs s t [Reg.QUAY_RPL_HITS, Reg.RBT_LATE, Reg.MEWS_REVOKES, Reg.COMP_AUTH_FAIL, Reg.COMP_DONE] [Reg.PAGE_STAT, Reg.INT_STAT, Reg.ERR_SYND, Reg.ERR_ADDR, Reg.FAULT_CNT, Reg.QUAY_LINK_STAT, Reg.QUAY_LINK_ERR] []) ∧
  (∀ (s : State) (n : ArcNo) (c : CtxNo) (x : Ctx) (err : Bytes) (hit : Option Hit), (aunit s n.val).ctx = some c.val → ctxAt s c.val = some x → x.phase = .running → x.d.opcode = 0x58 → x.d.mode = 1 → arcFunc x.d = 0x02 → freeN (aunit s n.val).mem % 2 = 0 ∨ freeN (aunit s n.val).mem < 3 ∨ freeN (aunit s n.val).mem ≤ freeOp x (aunit s n.val).mem 1 ∨ freeN (aunit s n.val).mem ≤ freeOp x (aunit s n.val).mem 2 → 
    Answers (.arcResultRelease n ⟨err, .clean⟩ hit) s fun t => (ctxAt t c.val).map (fun y => (y.phase, y.status, y.detail, y.bytesDone)) = some (.zeroising, 0x06, 0, 0) ∧ t = { s with out := t.out, regs := t.regs, parBad := t.parBad, wins := t.wins, quay := { s.quay with queues := t.quay.queues, doms := t.quay.doms, domRR := t.quay.domRR, ctxs := t.quay.ctxs, msix := t.quay.msix }, units := { s.units with cipher := t.units.cipher, hash := t.units.hash, arc := t.units.arc }, mews := { s.mews with slots := t.mews.slots, cascades := t.mews.cascades }, kerb := { s.kerb with reports := t.kerb.reports }, fnt := { s.fnt with state := t.fnt.state, absorbed := t.fnt.absorbed, credit := t.fnt.credit, seed := t.fnt.seed, int := t.fnt.int, sw := t.fnt.sw, katBusy := t.fnt.katBusy, draws := t.fnt.draws, part := t.fnt.part, got := t.fnt.got, rng := t.fnt.rng, rngDone := t.fnt.rngDone, rngDead := t.fnt.rngDead }, curves := t.curves, xing := { s.xing with mirror := t.xing.mirror, sess := t.xing.sess }, chk := { s.chk with slotBad := t.chk.slotBad } } ∧ OtherRegs s t [Reg.QUAY_RPL_HITS, Reg.RBT_LATE, Reg.MEWS_REVOKES, Reg.COMP_AUTH_FAIL, Reg.COMP_DONE] [Reg.PAGE_STAT, Reg.INT_STAT, Reg.ERR_SYND, Reg.ERR_ADDR, Reg.FAULT_CNT, Reg.QUAY_LINK_STAT, Reg.QUAY_LINK_ERR] []) ∧
  (∀ (s : State) (n : ArcNo) (c : CtxNo) (x : Ctx), (aunit s n.val).ctx = some c.val → ctxAt s c.val = some x → x.phase = .running → x.d.opcode = 0x58 → x.d.mode = 1 → arcFunc x.d = 0x03 → 0 < lWords x → lWords x ≤ 256 → x.d.dstSgl = false → x.wrote = 0 → x.dstChk = 0 → covered (queueAt s x.q) true x.d.dst (freeB x) = true → linkUp s (fnPort (qFunc (queueAt s x.q))) = true → freeN (aunit s n.val).mem % 2 = 1 → 3 ≤ freeN (aunit s n.val).mem → freeOp x (aunit s n.val).mem 1 < freeN (aunit s n.val).mem → freeOp x (aunit s n.val).mem 2 < freeN (aunit s n.val).mem → 
    Answers (.arcResultRelease n ⟨[], .clean⟩ none) s fun t => Out.hostWrite (qFunc (queueAt s x.q)) x.d.dst (toBe (freeB x) (freeOp x (aunit s n.val).mem 1 * freeOp x (aunit s n.val).mem 2 % freeN (aunit s n.val).mem)) (pcieOf s (qFunc (queueAt s x.q))).ro ∈ t.out ∧ (ctxAt t c.val).map (fun y => (y.phase, y.status, y.detail, y.bytesDone)) = some (.zeroising, 0, b2n x.late, freeB x) ∧ t = { s with out := t.out, regs := t.regs, parBad := t.parBad, wins := t.wins, quay := { s.quay with queues := t.quay.queues, doms := t.quay.doms, domRR := t.quay.domRR, ctxs := t.quay.ctxs, msix := t.quay.msix }, units := { s.units with cipher := t.units.cipher, hash := t.units.hash, arc := t.units.arc }, mews := { s.mews with slots := t.mews.slots, cascades := t.mews.cascades }, kerb := { s.kerb with reports := t.kerb.reports }, fnt := { s.fnt with state := t.fnt.state, absorbed := t.fnt.absorbed, credit := t.fnt.credit, seed := t.fnt.seed, int := t.fnt.int, sw := t.fnt.sw, katBusy := t.fnt.katBusy, draws := t.fnt.draws, part := t.fnt.part, got := t.fnt.got, rng := t.fnt.rng, rngDone := t.fnt.rngDone, rngDead := t.fnt.rngDead }, curves := t.curves, xing := { s.xing with mirror := t.xing.mirror, sess := t.xing.sess }, chk := { s.chk with slotBad := t.chk.slotBad } } ∧ OtherRegs s t [Reg.QUAY_RPL_HITS, Reg.RBT_LATE, Reg.MEWS_REVOKES, Reg.COMP_AUTH_FAIL, Reg.COMP_DONE] [Reg.PAGE_STAT, Reg.INT_STAT, Reg.ERR_SYND, Reg.ERR_ADDR, Reg.FAULT_CNT, Reg.QUAY_LINK_STAT, Reg.QUAY_LINK_ERR] []) ∧
  (∀ (s : State) (n : ArcNo) (c : CtxNo) (x : Ctx) (err : Bytes) (hit : Option Hit), (aunit s n.val).ctx = some c.val → ctxAt s c.val = some x → x.phase = .running → x.d.opcode = 0x58 → x.d.mode = 1 → arcFunc x.d = 0x03 → freeN (aunit s n.val).mem % 2 = 0 ∨ freeN (aunit s n.val).mem < 3 ∨ freeN (aunit s n.val).mem ≤ freeOp x (aunit s n.val).mem 1 ∨ freeN (aunit s n.val).mem ≤ freeOp x (aunit s n.val).mem 2 → 
    Answers (.arcResultRelease n ⟨err, .clean⟩ hit) s fun t => (ctxAt t c.val).map (fun y => (y.phase, y.status, y.detail, y.bytesDone)) = some (.zeroising, 0x06, 0, 0) ∧ t = { s with out := t.out, regs := t.regs, parBad := t.parBad, wins := t.wins, quay := { s.quay with queues := t.quay.queues, doms := t.quay.doms, domRR := t.quay.domRR, ctxs := t.quay.ctxs, msix := t.quay.msix }, units := { s.units with cipher := t.units.cipher, hash := t.units.hash, arc := t.units.arc }, mews := { s.mews with slots := t.mews.slots, cascades := t.mews.cascades }, kerb := { s.kerb with reports := t.kerb.reports }, fnt := { s.fnt with state := t.fnt.state, absorbed := t.fnt.absorbed, credit := t.fnt.credit, seed := t.fnt.seed, int := t.fnt.int, sw := t.fnt.sw, katBusy := t.fnt.katBusy, draws := t.fnt.draws, part := t.fnt.part, got := t.fnt.got, rng := t.fnt.rng, rngDone := t.fnt.rngDone, rngDead := t.fnt.rngDead }, curves := t.curves, xing := { s.xing with mirror := t.xing.mirror, sess := t.xing.sess }, chk := { s.chk with slotBad := t.chk.slotBad } } ∧ OtherRegs s t [Reg.QUAY_RPL_HITS, Reg.RBT_LATE, Reg.MEWS_REVOKES, Reg.COMP_AUTH_FAIL, Reg.COMP_DONE] [Reg.PAGE_STAT, Reg.INT_STAT, Reg.ERR_SYND, Reg.ERR_ADDR, Reg.FAULT_CNT, Reg.QUAY_LINK_STAT, Reg.QUAY_LINK_ERR] []) ∧
  (∀ (s : State) (n : ArcNo) (c : CtxNo) (x : Ctx) (v : Nat), (aunit s n.val).ctx = some c.val → ctxAt s c.val = some x → x.phase = .running → x.d.opcode = 0x58 → x.d.mode = 1 → arcFunc x.d = 0x04 → 0 < lWords x → lWords x ≤ 256 → x.d.dstSgl = false → x.wrote = 0 → x.dstChk = 0 → covered (queueAt s x.q) true x.d.dst (freeB x) = true → linkUp s (fnPort (qFunc (queueAt s x.q))) = true → freeN (aunit s n.val).mem % 2 = 1 → 3 ≤ freeN (aunit s n.val).mem → 0 < freeOp x (aunit s n.val).mem 1 → freeOp x (aunit s n.val).mem 1 < freeN (aunit s n.val).mem → invMod (freeOp x (aunit s n.val).mem 1) (freeN (aunit s n.val).mem) = some v → v < freeN (aunit s n.val).mem → freeOp x (aunit s n.val).mem 1 * v % freeN (aunit s n.val).mem = 1 → 
    Answers (.arcResultRelease n ⟨[], .clean⟩ none) s fun t => Out.hostWrite (qFunc (queueAt s x.q)) x.d.dst (toBe (freeB x) (v)) (pcieOf s (qFunc (queueAt s x.q))).ro ∈ t.out ∧ (ctxAt t c.val).map (fun y => (y.phase, y.status, y.detail, y.bytesDone)) = some (.zeroising, 0, b2n x.late, freeB x) ∧ t = { s with out := t.out, regs := t.regs, parBad := t.parBad, wins := t.wins, quay := { s.quay with queues := t.quay.queues, doms := t.quay.doms, domRR := t.quay.domRR, ctxs := t.quay.ctxs, msix := t.quay.msix }, units := { s.units with cipher := t.units.cipher, hash := t.units.hash, arc := t.units.arc }, mews := { s.mews with slots := t.mews.slots, cascades := t.mews.cascades }, kerb := { s.kerb with reports := t.kerb.reports }, fnt := { s.fnt with state := t.fnt.state, absorbed := t.fnt.absorbed, credit := t.fnt.credit, seed := t.fnt.seed, int := t.fnt.int, sw := t.fnt.sw, katBusy := t.fnt.katBusy, draws := t.fnt.draws, part := t.fnt.part, got := t.fnt.got, rng := t.fnt.rng, rngDone := t.fnt.rngDone, rngDead := t.fnt.rngDead }, curves := t.curves, xing := { s.xing with mirror := t.xing.mirror, sess := t.xing.sess }, chk := { s.chk with slotBad := t.chk.slotBad } } ∧ OtherRegs s t [Reg.QUAY_RPL_HITS, Reg.RBT_LATE, Reg.MEWS_REVOKES, Reg.COMP_AUTH_FAIL, Reg.COMP_DONE] [Reg.PAGE_STAT, Reg.INT_STAT, Reg.ERR_SYND, Reg.ERR_ADDR, Reg.FAULT_CNT, Reg.QUAY_LINK_STAT, Reg.QUAY_LINK_ERR] []) ∧
  (∀ (s : State) (n : ArcNo) (c : CtxNo) (x : Ctx) (err : Bytes) (hit : Option Hit), (aunit s n.val).ctx = some c.val → ctxAt s c.val = some x → x.phase = .running → x.d.opcode = 0x58 → x.d.mode = 1 → arcFunc x.d = 0x04 → freeN (aunit s n.val).mem % 2 = 0 ∨ freeN (aunit s n.val).mem < 3 ∨ freeN (aunit s n.val).mem ≤ freeOp x (aunit s n.val).mem 1 ∨ freeOp x (aunit s n.val).mem 1 = 0 → 
    Answers (.arcResultRelease n ⟨err, .clean⟩ hit) s fun t => (ctxAt t c.val).map (fun y => (y.phase, y.status, y.detail, y.bytesDone)) = some (.zeroising, 0x06, 0, 0) ∧ t = { s with out := t.out, regs := t.regs, parBad := t.parBad, wins := t.wins, quay := { s.quay with queues := t.quay.queues, doms := t.quay.doms, domRR := t.quay.domRR, ctxs := t.quay.ctxs, msix := t.quay.msix }, units := { s.units with cipher := t.units.cipher, hash := t.units.hash, arc := t.units.arc }, mews := { s.mews with slots := t.mews.slots, cascades := t.mews.cascades }, kerb := { s.kerb with reports := t.kerb.reports }, fnt := { s.fnt with state := t.fnt.state, absorbed := t.fnt.absorbed, credit := t.fnt.credit, seed := t.fnt.seed, int := t.fnt.int, sw := t.fnt.sw, katBusy := t.fnt.katBusy, draws := t.fnt.draws, part := t.fnt.part, got := t.fnt.got, rng := t.fnt.rng, rngDone := t.fnt.rngDone, rngDead := t.fnt.rngDead }, curves := t.curves, xing := { s.xing with mirror := t.xing.mirror, sess := t.xing.sess }, chk := { s.chk with slotBad := t.chk.slotBad } } ∧ OtherRegs s t [Reg.QUAY_RPL_HITS, Reg.RBT_LATE, Reg.MEWS_REVOKES, Reg.COMP_AUTH_FAIL, Reg.COMP_DONE] [Reg.PAGE_STAT, Reg.INT_STAT, Reg.ERR_SYND, Reg.ERR_ADDR, Reg.FAULT_CNT, Reg.QUAY_LINK_STAT, Reg.QUAY_LINK_ERR] []) ∧
  (∀ (s : State) (n : ArcNo) (c : CtxNo) (x : Ctx), (aunit s n.val).ctx = some c.val → ctxAt s c.val = some x → x.phase = .running → x.d.opcode = 0x58 → x.d.mode = 1 → arcFunc x.d = 0x05 → 0 < lWords x → lWords x ≤ 256 → x.d.dstSgl = false → x.wrote = 0 → x.dstChk = 0 → covered (queueAt s x.q) true x.d.dst (freeB x) = true → linkUp s (fnPort (qFunc (queueAt s x.q))) = true → freeN (aunit s n.val).mem % 2 = 1 → 3 ≤ freeN (aunit s n.val).mem → freeOp x (aunit s n.val).mem 1 < freeN (aunit s n.val).mem → 
    Answers (.arcResultRelease n ⟨[], .clean⟩ none) s fun t => Out.hostWrite (qFunc (queueAt s x.q)) x.d.dst (toBe (freeB x) (powMod (freeOp x (aunit s n.val).mem 1) (be (sl (arcInput (aunit s n.val).mem x) (2 * freeB x) (8 * eWords x))) (freeN (aunit s n.val).mem))) (pcieOf s (qFunc (queueAt s x.q))).ro ∈ t.out ∧ (ctxAt t c.val).map (fun y => (y.phase, y.status, y.detail, y.bytesDone)) = some (.zeroising, 0, b2n x.late, freeB x) ∧ t = { s with out := t.out, regs := t.regs, parBad := t.parBad, wins := t.wins, quay := { s.quay with queues := t.quay.queues, doms := t.quay.doms, domRR := t.quay.domRR, ctxs := t.quay.ctxs, msix := t.quay.msix }, units := { s.units with cipher := t.units.cipher, hash := t.units.hash, arc := t.units.arc }, mews := { s.mews with slots := t.mews.slots, cascades := t.mews.cascades }, kerb := { s.kerb with reports := t.kerb.reports }, fnt := { s.fnt with state := t.fnt.state, absorbed := t.fnt.absorbed, credit := t.fnt.credit, seed := t.fnt.seed, int := t.fnt.int, sw := t.fnt.sw, katBusy := t.fnt.katBusy, draws := t.fnt.draws, part := t.fnt.part, got := t.fnt.got, rng := t.fnt.rng, rngDone := t.fnt.rngDone, rngDead := t.fnt.rngDead }, curves := t.curves, xing := { s.xing with mirror := t.xing.mirror, sess := t.xing.sess }, chk := { s.chk with slotBad := t.chk.slotBad } } ∧ OtherRegs s t [Reg.QUAY_RPL_HITS, Reg.RBT_LATE, Reg.MEWS_REVOKES, Reg.COMP_AUTH_FAIL, Reg.COMP_DONE] [Reg.PAGE_STAT, Reg.INT_STAT, Reg.ERR_SYND, Reg.ERR_ADDR, Reg.FAULT_CNT, Reg.QUAY_LINK_STAT, Reg.QUAY_LINK_ERR] []) ∧
  (∀ (s : State) (n : ArcNo) (c : CtxNo) (x : Ctx) (err : Bytes) (hit : Option Hit), (aunit s n.val).ctx = some c.val → ctxAt s c.val = some x → x.phase = .running → x.d.opcode = 0x58 → x.d.mode = 1 → arcFunc x.d = 0x05 → freeN (aunit s n.val).mem % 2 = 0 ∨ freeN (aunit s n.val).mem < 3 ∨ freeN (aunit s n.val).mem ≤ freeOp x (aunit s n.val).mem 1 → 
    Answers (.arcResultRelease n ⟨err, .clean⟩ hit) s fun t => (ctxAt t c.val).map (fun y => (y.phase, y.status, y.detail, y.bytesDone)) = some (.zeroising, 0x06, 0, 0) ∧ t = { s with out := t.out, regs := t.regs, parBad := t.parBad, wins := t.wins, quay := { s.quay with queues := t.quay.queues, doms := t.quay.doms, domRR := t.quay.domRR, ctxs := t.quay.ctxs, msix := t.quay.msix }, units := { s.units with cipher := t.units.cipher, hash := t.units.hash, arc := t.units.arc }, mews := { s.mews with slots := t.mews.slots, cascades := t.mews.cascades }, kerb := { s.kerb with reports := t.kerb.reports }, fnt := { s.fnt with state := t.fnt.state, absorbed := t.fnt.absorbed, credit := t.fnt.credit, seed := t.fnt.seed, int := t.fnt.int, sw := t.fnt.sw, katBusy := t.fnt.katBusy, draws := t.fnt.draws, part := t.fnt.part, got := t.fnt.got, rng := t.fnt.rng, rngDone := t.fnt.rngDone, rngDead := t.fnt.rngDead }, curves := t.curves, xing := { s.xing with mirror := t.xing.mirror, sess := t.xing.sess }, chk := { s.chk with slotBad := t.chk.slotBad } } ∧ OtherRegs s t [Reg.QUAY_RPL_HITS, Reg.RBT_LATE, Reg.MEWS_REVOKES, Reg.COMP_AUTH_FAIL, Reg.COMP_DONE] [Reg.PAGE_STAT, Reg.INT_STAT, Reg.ERR_SYND, Reg.ERR_ADDR, Reg.FAULT_CNT, Reg.QUAY_LINK_STAT, Reg.QUAY_LINK_ERR] [])

/-- Of a command that may release its result, an uncorrectable operand-memory error settles it as ABORTED with DETAIL 0x07, and arithmetic that fails a validation as ARC_REJECT with nothing written; one that may not yet changes nothing. The end of a unit's zeroisation empties its operand memory and writes the completion of its settled command. A known-answer test that passes leaves the unit tested and not offline, one that fails offline. RETEST starts the test of an idle unit and is noted by a busy one; FORCE_OFF sets its bit and holds or frees an idle unit. ARC_CURVE_FREE leaves the selected entry empty, or on a PAIRED device that is not the sequencer forwards the commit. Each clause names what may change beside; every other part of the state and every other register is as before. Forms whose completion it states: arcResultRelease, arcZeroiseDone, arcKatDone, arcRetest, arcForceOff, arcCurveFree. (R252, R263, R265, R271, R273, R274, R276) -/
def Obligations.ArcadeUnits : Prop :=
  (∀ (s : State) (n : ArcNo) (c : CtxNo) (x : Ctx) (err : Bytes) (hit : Option Hit) (off : Fin 65536), (aunit s n.val).ctx = some c.val → ctxAt s c.val = some x → x.phase = .running → (writesSlot x.d.opcode = true → x.stop = none ∧ slotWriteWaits s c.val x = false) → 
    Answers (.arcResultRelease n ⟨err, (.uncorr off)⟩ hit) s fun t => (ctxAt t c.val).map (fun y => (y.phase, y.status, y.detail, y.bytesDone)) = some (.zeroising, 0x08, 0x07, 0) ∧ fld t (rk (0x20 + n.val) Reg.ARC_MODE) 14 12 = 5 ∧ t = { s with out := t.out, regs := t.regs, parBad := t.parBad, wins := t.wins, quay := { s.quay with queues := t.quay.queues, doms := t.quay.doms, domRR := t.quay.domRR, ctxs := t.quay.ctxs, msix := t.quay.msix }, units := { s.units with cipher := t.units.cipher, hash := t.units.hash, arc := t.units.arc }, mews := { s.mews with slots := t.mews.slots, cascades := t.mews.cascades }, kerb := { s.kerb with reports := t.kerb.reports }, fnt := { s.fnt with state := t.fnt.state, absorbed := t.fnt.absorbed, credit := t.fnt.credit, seed := t.fnt.seed, int := t.fnt.int, sw := t.fnt.sw, katBusy := t.fnt.katBusy, draws := t.fnt.draws, part := t.fnt.part, got := t.fnt.got, rng := t.fnt.rng, rngDone := t.fnt.rngDone, rngDead := t.fnt.rngDead }, curves := t.curves, xing := { s.xing with mirror := t.xing.mirror, sess := t.xing.sess }, chk := { s.chk with slotBad := t.chk.slotBad } } ∧ OtherRegs s t [Reg.QUAY_RPL_HITS, Reg.RBT_LATE, Reg.MEWS_REVOKES, Reg.COMP_AUTH_FAIL, Reg.COMP_DONE] [Reg.PAGE_STAT, Reg.INT_STAT, Reg.ERR_SYND, Reg.ERR_ADDR, Reg.FAULT_CNT, Reg.QUAY_LINK_STAT, Reg.QUAY_LINK_ERR] []) ∧
  (∀ (s : State) (n : ArcNo) (c : CtxNo) (x : Ctx) (err : Bytes) (hit : Option Hit), (aunit s n.val).ctx = some c.val → ctxAt s c.val = some x → x.phase = .running → (writesSlot x.d.opcode = true → x.stop = none ∧ slotWriteWaits s c.val x = false) → arcResult x (aunit s n.val).mem = .reject → 
    Answers (.arcResultRelease n ⟨err, .clean⟩ hit) s fun t => (ctxAt t c.val).map (fun y => (y.phase, y.status, y.detail, y.bytesDone)) = some (.zeroising, 0x06, 0, 0) ∧ fld t (rk (0x20 + n.val) Reg.ARC_MODE) 14 12 = 5 ∧ t = { s with out := t.out, regs := t.regs, parBad := t.parBad, wins := t.wins, quay := { s.quay with queues := t.quay.queues, doms := t.quay.doms, domRR := t.quay.domRR, ctxs := t.quay.ctxs, msix := t.quay.msix }, units := { s.units with cipher := t.units.cipher, hash := t.units.hash, arc := t.units.arc }, mews := { s.mews with slots := t.mews.slots, cascades := t.mews.cascades }, kerb := { s.kerb with reports := t.kerb.reports }, fnt := { s.fnt with state := t.fnt.state, absorbed := t.fnt.absorbed, credit := t.fnt.credit, seed := t.fnt.seed, int := t.fnt.int, sw := t.fnt.sw, katBusy := t.fnt.katBusy, draws := t.fnt.draws, part := t.fnt.part, got := t.fnt.got, rng := t.fnt.rng, rngDone := t.fnt.rngDone, rngDead := t.fnt.rngDead }, curves := t.curves, xing := { s.xing with mirror := t.xing.mirror, sess := t.xing.sess }, chk := { s.chk with slotBad := t.chk.slotBad } } ∧ OtherRegs s t [Reg.QUAY_RPL_HITS, Reg.RBT_LATE, Reg.MEWS_REVOKES, Reg.COMP_AUTH_FAIL, Reg.COMP_DONE] [Reg.PAGE_STAT, Reg.INT_STAT, Reg.ERR_SYND, Reg.ERR_ADDR, Reg.FAULT_CNT, Reg.QUAY_LINK_STAT, Reg.QUAY_LINK_ERR] []) ∧
  (∀ (s : State) (n : ArcNo) (err : Bytes) (ecc : OpEcc) (hit : Option Hit), ((aunit s n.val).ctx.any fun c => (ctxAt s c).any fun x => decide (x.phase = .running) && (!writesSlot x.d.opcode || (x.stop.isNone && !slotWriteWaits s c x))) = false → 
    Answers (.arcResultRelease n ⟨err, ecc⟩ hit) s fun t => t = s) ∧
  (∀ (s : State) (n : ArcNo) (c : CtxNo) (x : Ctx), (aunit s n.val).ctx = some c.val → ctxAt s c.val = some x → x.phase = .zeroising → x.mirWait = false → Deliverable s x → 
    Answers (.arcZeroiseDone n) s fun t => Completed s t c.val x (settledEnd x) ∧ t.mem = s.mem ∧ t = { s with out := t.out, regs := t.regs, parBad := t.parBad, wins := t.wins, quay := { s.quay with queues := t.quay.queues, doms := t.quay.doms, domRR := t.quay.domRR, ctxs := t.quay.ctxs, msix := t.quay.msix }, units := { s.units with cipher := t.units.cipher, hash := t.units.hash, arc := t.units.arc }, mews := { s.mews with slots := t.mews.slots, genBase := t.mews.genBase, cascades := t.mews.cascades, zeroising := t.mews.zeroising }, life := t.life, kerb := { s.kerb with reports := t.kerb.reports }, fer := { s.fer with lcA := t.fer.lcA, lcB := t.fer.lcB, integrator := t.fer.integrator, pairB := t.fer.pairB, peerSerial := t.fer.peerSerial, pairId := t.fer.pairId, pairCnt := t.fer.pairCnt, fleetRole := t.fer.fleetRole, fleetId := t.fer.fleetId, wards := t.fer.wards, voucher := t.fer.voucher, lastSeq := t.fer.lastSeq }, bak := { s.bak with cust := t.bak.cust, pairRoot := t.bak.pairRoot, fleetRoot := t.bak.fleetRoot }, fnt := { s.fnt with state := t.fnt.state, absorbed := t.fnt.absorbed, credit := t.fnt.credit, seed := t.fnt.seed, int := t.fnt.int, sw := t.fnt.sw, katBusy := t.fnt.katBusy, draws := t.fnt.draws, part := t.fnt.part, got := t.fnt.got, rng := t.fnt.rng, rngDone := t.fnt.rngDone, rngDead := t.fnt.rngDead }, curves := t.curves, xing := { s.xing with state := t.xing.state, seqr := t.xing.seqr, mirror := t.xing.mirror, sess := t.xing.sess, upWait := t.xing.upWait, joinErr := t.xing.joinErr, held := t.xing.held, stmt := t.xing.stmt, eph := t.xing.eph, failing := t.xing.failing, left := t.xing.left }, fleet := t.fleet, clk := { s.clk with load := t.clk.load }, cores := t.cores, load := t.load, autoload := t.autoload, chk := { s.chk with eccBad := t.chk.eccBad, slotBad := t.chk.slotBad }, sd := { s.sd with op := t.sd.op, clk := t.sd.clk }, mem := t.mem } ∧ OtherRegs s t [Reg.BOOT_STAT, Reg.CT_CMD, Reg.QUAY_RPL_HITS, Reg.RBT_LATE, Reg.MEWS_REVOKES, Reg.COMP_AUTH_FAIL, Reg.COMP_DONE, Reg.IXM_LD_SRC, Reg.IXM_LD_ADDR_LO, Reg.IXM_LD_CMD, Reg.IXM_LD_INFO, Reg.CHECKPOINT_SRAM_ECC, Reg.XING_CMD, Reg.FLEET_CMD, Reg.FLEET_ID_LO, Reg.FLEET_ID_HI] [Reg.PAGE_STAT, Reg.INT_STAT, Reg.ERR_SYND, Reg.ERR_ADDR, Reg.FAULT_CNT, Reg.QUAY_LINK_STAT, Reg.QUAY_LINK_CTRL, Reg.QUAY_GRP_ROUTE, Reg.QUAY_DMA_OUTST, Reg.QUAY_LINK_ERR, Reg.ARC_LAST] [0x48, 0x49, 0x4A, 0x4B, 0x4C, 0x4D, 0x4E, 0x4F]) ∧
  (∀ (s : State) (n : ArcNo), (aunit s n.val).ctx = none → NothingResumes (arcZeroised s n.val) → 
    Answers (.arcZeroiseDone n) s fun t => aunit t n.val = { aunit s n.val with zero := false, mem := {} } ∧ t.mem = s.mem ∧ t = { s with out := t.out, regs := t.regs, parBad := t.parBad, wins := t.wins, quay := { s.quay with queues := t.quay.queues, doms := t.quay.doms, domRR := t.quay.domRR, ctxs := t.quay.ctxs, msix := t.quay.msix }, units := { s.units with cipher := t.units.cipher, hash := t.units.hash, arc := t.units.arc }, mews := { s.mews with slots := t.mews.slots, genBase := t.mews.genBase, cascades := t.mews.cascades, zeroising := t.mews.zeroising }, life := t.life, kerb := { s.kerb with reports := t.kerb.reports }, fer := { s.fer with lcA := t.fer.lcA, lcB := t.fer.lcB, integrator := t.fer.integrator, pairB := t.fer.pairB, peerSerial := t.fer.peerSerial, pairId := t.fer.pairId, pairCnt := t.fer.pairCnt, fleetRole := t.fer.fleetRole, fleetId := t.fer.fleetId, wards := t.fer.wards, voucher := t.fer.voucher, lastSeq := t.fer.lastSeq }, bak := { s.bak with cust := t.bak.cust, pairRoot := t.bak.pairRoot, fleetRoot := t.bak.fleetRoot }, fnt := { s.fnt with state := t.fnt.state, absorbed := t.fnt.absorbed, credit := t.fnt.credit, seed := t.fnt.seed, int := t.fnt.int, sw := t.fnt.sw, katBusy := t.fnt.katBusy, draws := t.fnt.draws, part := t.fnt.part, got := t.fnt.got, rng := t.fnt.rng, rngDone := t.fnt.rngDone, rngDead := t.fnt.rngDead }, curves := t.curves, xing := { s.xing with state := t.xing.state, seqr := t.xing.seqr, mirror := t.xing.mirror, sess := t.xing.sess, upWait := t.xing.upWait, joinErr := t.xing.joinErr, held := t.xing.held, stmt := t.xing.stmt, eph := t.xing.eph, failing := t.xing.failing, left := t.xing.left }, fleet := t.fleet, clk := { s.clk with load := t.clk.load }, cores := t.cores, load := t.load, autoload := t.autoload, chk := { s.chk with eccBad := t.chk.eccBad, slotBad := t.chk.slotBad }, sd := { s.sd with op := t.sd.op, clk := t.sd.clk }, mem := t.mem } ∧ OtherRegs s t [Reg.BOOT_STAT, Reg.CT_CMD, Reg.QUAY_RPL_HITS, Reg.RBT_LATE, Reg.MEWS_REVOKES, Reg.COMP_AUTH_FAIL, Reg.COMP_DONE, Reg.IXM_LD_SRC, Reg.IXM_LD_ADDR_LO, Reg.IXM_LD_CMD, Reg.IXM_LD_INFO, Reg.CHECKPOINT_SRAM_ECC, Reg.XING_CMD, Reg.FLEET_CMD, Reg.FLEET_ID_LO, Reg.FLEET_ID_HI] [Reg.PAGE_STAT, Reg.INT_STAT, Reg.ERR_SYND, Reg.ERR_ADDR, Reg.FAULT_CNT, Reg.QUAY_LINK_STAT, Reg.QUAY_LINK_CTRL, Reg.QUAY_GRP_ROUTE, Reg.QUAY_DMA_OUTST, Reg.QUAY_LINK_ERR, Reg.ARC_LAST] [0x48, 0x49, 0x4A, 0x4B, 0x4C, 0x4D, 0x4E, 0x4F]) ∧
  (∀ (s : State) (n : ArcNo), (aunit s n.val).kat = true → domOn s (aunitDom n.val) = true → NothingResumes (arcKatDone s n.val true) → 
    Answers (.arcKatDone n true) s fun t => aunit t n.val = { aunit s n.val with kat := false, offline := false } ∧ t.mem = s.mem ∧ t = { s with out := t.out, regs := t.regs, parBad := t.parBad, wins := t.wins, quay := { s.quay with queues := t.quay.queues, doms := t.quay.doms, domRR := t.quay.domRR, ctxs := t.quay.ctxs, msix := t.quay.msix }, units := { s.units with cipher := t.units.cipher, hash := t.units.hash, arc := t.units.arc }, mews := { s.mews with slots := t.mews.slots, genBase := t.mews.genBase, cascades := t.mews.cascades, zeroising := t.mews.zeroising }, life := t.life, kerb := { s.kerb with reports := t.kerb.reports }, fer := { s.fer with lcA := t.fer.lcA, lcB := t.fer.lcB, integrator := t.fer.integrator, pairB := t.fer.pairB, peerSerial := t.fer.peerSerial, pairId := t.fer.pairId, pairCnt := t.fer.pairCnt, fleetRole := t.fer.fleetRole, fleetId := t.fer.fleetId, wards := t.fer.wards, voucher := t.fer.voucher, lastSeq := t.fer.lastSeq }, bak := { s.bak with cust := t.bak.cust, pairRoot := t.bak.pairRoot, fleetRoot := t.bak.fleetRoot }, fnt := { s.fnt with state := t.fnt.state, absorbed := t.fnt.absorbed, credit := t.fnt.credit, seed := t.fnt.seed, int := t.fnt.int, sw := t.fnt.sw, katBusy := t.fnt.katBusy, draws := t.fnt.draws, part := t.fnt.part, got := t.fnt.got, rng := t.fnt.rng, rngDone := t.fnt.rngDone, rngDead := t.fnt.rngDead }, curves := t.curves, xing := { s.xing with state := t.xing.state, seqr := t.xing.seqr, mirror := t.xing.mirror, sess := t.xing.sess, upWait := t.xing.upWait, joinErr := t.xing.joinErr, held := t.xing.held, stmt := t.xing.stmt, eph := t.xing.eph, failing := t.xing.failing, left := t.xing.left }, fleet := t.fleet, clk := { s.clk with load := t.clk.load }, cores := t.cores, load := t.load, autoload := t.autoload, chk := { s.chk with eccBad := t.chk.eccBad, slotBad := t.chk.slotBad }, sd := { s.sd with op := t.sd.op, clk := t.sd.clk }, mem := t.mem } ∧ OtherRegs s t [Reg.BOOT_STAT, Reg.CT_CMD, Reg.QUAY_RPL_HITS, Reg.RBT_LATE, Reg.MEWS_REVOKES, Reg.COMP_AUTH_FAIL, Reg.COMP_DONE, Reg.IXM_LD_SRC, Reg.IXM_LD_ADDR_LO, Reg.IXM_LD_CMD, Reg.IXM_LD_INFO, Reg.CHECKPOINT_SRAM_ECC, Reg.XING_CMD, Reg.FLEET_CMD, Reg.FLEET_ID_LO, Reg.FLEET_ID_HI] [Reg.PAGE_STAT, Reg.INT_STAT, Reg.ERR_SYND, Reg.ERR_ADDR, Reg.FAULT_CNT, Reg.QUAY_LINK_STAT, Reg.QUAY_LINK_ERR] [0x48, 0x49, 0x4A, 0x4B, 0x4C, 0x4D, 0x4E, 0x4F]) ∧
  (∀ (s : State) (n : ArcNo), (aunit s n.val).kat = true → domOn s (aunitDom n.val) = true → NothingResumes (arcKatDone s n.val false) → 
    Answers (.arcKatDone n false) s fun t => (aunit t n.val).kat = false ∧ (aunit t n.val).offline = true ∧ t.mem = s.mem ∧ t = { s with out := t.out, regs := t.regs, parBad := t.parBad, wins := t.wins, quay := { s.quay with queues := t.quay.queues, doms := t.quay.doms, domRR := t.quay.domRR, ctxs := t.quay.ctxs, msix := t.quay.msix }, units := { s.units with cipher := t.units.cipher, hash := t.units.hash, arc := t.units.arc }, mews := { s.mews with slots := t.mews.slots, genBase := t.mews.genBase, cascades := t.mews.cascades, zeroising := t.mews.zeroising }, life := t.life, kerb := { s.kerb with reports := t.kerb.reports }, fer := { s.fer with lcA := t.fer.lcA, lcB := t.fer.lcB, integrator := t.fer.integrator, pairB := t.fer.pairB, peerSerial := t.fer.peerSerial, pairId := t.fer.pairId, pairCnt := t.fer.pairCnt, fleetRole := t.fer.fleetRole, fleetId := t.fer.fleetId, wards := t.fer.wards, voucher := t.fer.voucher, lastSeq := t.fer.lastSeq }, bak := { s.bak with cust := t.bak.cust, pairRoot := t.bak.pairRoot, fleetRoot := t.bak.fleetRoot }, fnt := { s.fnt with state := t.fnt.state, absorbed := t.fnt.absorbed, credit := t.fnt.credit, seed := t.fnt.seed, int := t.fnt.int, sw := t.fnt.sw, katBusy := t.fnt.katBusy, draws := t.fnt.draws, part := t.fnt.part, got := t.fnt.got, rng := t.fnt.rng, rngDone := t.fnt.rngDone, rngDead := t.fnt.rngDead }, curves := t.curves, xing := { s.xing with state := t.xing.state, seqr := t.xing.seqr, mirror := t.xing.mirror, sess := t.xing.sess, upWait := t.xing.upWait, joinErr := t.xing.joinErr, held := t.xing.held, stmt := t.xing.stmt, eph := t.xing.eph, failing := t.xing.failing, left := t.xing.left }, fleet := t.fleet, clk := { s.clk with load := t.clk.load }, cores := t.cores, load := t.load, autoload := t.autoload, chk := { s.chk with eccBad := t.chk.eccBad, slotBad := t.chk.slotBad }, sd := { s.sd with op := t.sd.op, clk := t.sd.clk }, mem := t.mem } ∧ OtherRegs s t [Reg.BOOT_STAT, Reg.CT_CMD, Reg.QUAY_RPL_HITS, Reg.RBT_LATE, Reg.MEWS_REVOKES, Reg.COMP_AUTH_FAIL, Reg.COMP_DONE, Reg.IXM_LD_SRC, Reg.IXM_LD_ADDR_LO, Reg.IXM_LD_CMD, Reg.IXM_LD_INFO, Reg.CHECKPOINT_SRAM_ECC, Reg.XING_CMD, Reg.FLEET_CMD, Reg.FLEET_ID_LO, Reg.FLEET_ID_HI] [Reg.PAGE_STAT, Reg.INT_STAT, Reg.ERR_SYND, Reg.ERR_ADDR, Reg.FAULT_CNT, Reg.QUAY_LINK_STAT, Reg.QUAY_LINK_ERR] [0x48, 0x49, 0x4A, 0x4B, 0x4C, 0x4D, 0x4E, 0x4F]) ∧
  (∀ (s : State) (n : ArcNo) (ok : Bool), (aunit s n.val).kat = false ∨ domOn s (aunitDom n.val) = false → NothingResumes s → 
    Answers (.arcKatDone n ok) s fun t => t = s) ∧
  (∀ (s : State) (src : Src) (n : ArcNo), Reaches s src (rk (0x20 + n.val) Reg.ARC_OFFLINE_CTRL) → 
    Answers (.arcRetest src n) s fun t => aunit t n.val = (if (aunit s n.val).ctx = none then { aunit s n.val with kat := true, mem := {} } else { aunit s n.val with retest := true }) ∧ t = { s with out := t.out, regs := t.regs, parBad := t.parBad, quay := { s.quay with msix := t.quay.msix }, units := { s.units with arc := t.units.arc } } ∧ OtherRegs s t [] [Reg.INT_STAT, Reg.ERR_SYND, Reg.ERR_ADDR] []) ∧
  (∀ (s : State) (src : Src) (n : ArcNo) (on : Bool), Reaches s src (rk (0x20 + n.val) Reg.ARC_OFFLINE_CTRL) → 
    Answers (.arcForceOff src n on) s fun t => aunit t n.val = (if (aunit s n.val).ctx = none then { aunit s n.val with forced := on } else aunit s n.val) ∧ fld t (rk (0x20 + n.val) Reg.ARC_OFFLINE_CTRL) 0 0 = b2n on ∧ t = { s with out := t.out, regs := t.regs, parBad := t.parBad, quay := { s.quay with msix := t.quay.msix }, units := { s.units with arc := t.units.arc } } ∧ OtherRegs s t [] [Reg.INT_STAT, Reg.ERR_SYND, Reg.ERR_ADDR, Reg.LANE_STOPS] []) ∧
  (∀ (s : State) (src : Src), Reaches s src Reg.ARC_CURVE_FREE → paired s = false ∨ s.xing.seqr = true → 
    Answers (.arcCurveFree src) s fun t => tfind t.curves (fld s Reg.ARC_CURVE_SEL 5 0) = none ∧ t = { s with out := t.out, regs := t.regs, parBad := t.parBad, wins := t.wins, quay := { s.quay with queues := t.quay.queues, doms := t.quay.doms, domRR := t.quay.domRR, ctxs := t.quay.ctxs, msix := t.quay.msix }, units := { s.units with cipher := t.units.cipher, hash := t.units.hash, arc := t.units.arc }, mews := { s.mews with slots := t.mews.slots, cascades := t.mews.cascades }, kerb := { s.kerb with reports := t.kerb.reports }, fnt := { s.fnt with state := t.fnt.state, absorbed := t.fnt.absorbed, credit := t.fnt.credit, seed := t.fnt.seed, int := t.fnt.int, sw := t.fnt.sw, katBusy := t.fnt.katBusy, draws := t.fnt.draws, part := t.fnt.part, got := t.fnt.got, rng := t.fnt.rng, rngDone := t.fnt.rngDone, rngDead := t.fnt.rngDead }, curves := t.curves, xing := { s.xing with mirror := t.xing.mirror, sess := t.xing.sess }, chk := { s.chk with slotBad := t.chk.slotBad } } ∧ OtherRegs s t [Reg.QUAY_RPL_HITS, Reg.RBT_LATE, Reg.MEWS_REVOKES, Reg.COMP_AUTH_FAIL, Reg.COMP_DONE] [Reg.PAGE_STAT, Reg.INT_STAT, Reg.ERR_SYND, Reg.ERR_ADDR, Reg.FAULT_CNT, Reg.QUAY_LINK_STAT] []) ∧
  (∀ (s : State) (src : Src), Reaches s src Reg.ARC_CURVE_FREE → paired s = true → s.xing.seqr = false → 
    Answers (.arcCurveFree src) s fun t => t.curves = s.curves ∧ t.xing.mirror.length = s.xing.mirror.length + 1 ∧ t = { s with out := t.out, regs := t.regs, parBad := t.parBad, wins := t.wins, quay := { s.quay with queues := t.quay.queues, doms := t.quay.doms, domRR := t.quay.domRR, ctxs := t.quay.ctxs, msix := t.quay.msix }, units := { s.units with cipher := t.units.cipher, hash := t.units.hash, arc := t.units.arc }, mews := { s.mews with slots := t.mews.slots, cascades := t.mews.cascades }, kerb := { s.kerb with reports := t.kerb.reports }, fnt := { s.fnt with state := t.fnt.state, absorbed := t.fnt.absorbed, credit := t.fnt.credit, seed := t.fnt.seed, int := t.fnt.int, sw := t.fnt.sw, katBusy := t.fnt.katBusy, draws := t.fnt.draws, part := t.fnt.part, got := t.fnt.got, rng := t.fnt.rng, rngDone := t.fnt.rngDone, rngDead := t.fnt.rngDead }, curves := t.curves, xing := { s.xing with mirror := t.xing.mirror, sess := t.xing.sess }, chk := { s.chk with slotBad := t.chk.slotBad } } ∧ OtherRegs s t [Reg.QUAY_RPL_HITS, Reg.RBT_LATE, Reg.MEWS_REVOKES, Reg.COMP_AUTH_FAIL, Reg.COMP_DONE] [Reg.PAGE_STAT, Reg.INT_STAT, Reg.ERR_SYND, Reg.ERR_ADDR, Reg.FAULT_CNT, Reg.QUAY_LINK_STAT] [])

/-- Once its cells have settled the Fountain, powered and not FAILED, tests each sampling time's sample of every stream; before that, and while FAILED, it discards the samples. The end of settling begins the start-up test if the known-answer test has passed; no seed within the limit puts the Fountain into FAILED. A write to FNT_KAT starts the known-answer test, which ends not busy with its verdict; a failed one puts the Fountain into FAILED. Each clause names what may change beside; every other part of the state and every other register is as before. Forms whose completion it states: noiseSample, fountainSettleEnd, startupTimeout, fntKat, fntKatDone. (R280, R283, R284, R286, R297, R298, R301) -/
def Obligations.FountainNoise : Prop :=
  (∀ (s : State) (cells : BitVec 4), domOn s 12 = true → s.fnt.begun = true → s.fnt.state ≠ 1 → s.fnt.state ≠ 5 → s.fnt.xorEn = true → s.fnt.streams.length = 1 → 
    Answers (.noiseSample cells) s fun t => (t.fnt.streams.getD 0 {}).tested = (s.fnt.streams.getD 0 {}).tested + 1 ∧ (t.fnt.streams.getD 0 {}).last = ((cells.getLsbD 0 != cells.getLsbD 1) != (cells.getLsbD 2 != cells.getLsbD 3)) ∧ t = { s with out := t.out, regs := t.regs, parBad := t.parBad, wins := t.wins, quay := { s.quay with queues := t.quay.queues, doms := t.quay.doms, domRR := t.quay.domRR, ctxs := t.quay.ctxs, msix := t.quay.msix }, units := { s.units with cipher := t.units.cipher, hash := t.units.hash, arc := t.units.arc }, kerb := { s.kerb with reports := t.kerb.reports }, fnt := { s.fnt with state := t.fnt.state, tries := t.fnt.tries, streams := t.fnt.streams, passed := t.fnt.passed, noCredit := t.fnt.noCredit, absorbed := t.fnt.absorbed, credit := t.fnt.credit, seed := t.fnt.seed, swTurn := t.fnt.swTurn, int := t.fnt.int, sw := t.fnt.sw, katBusy := t.fnt.katBusy, raw := t.fnt.raw, draws := t.fnt.draws, part := t.fnt.part, got := t.fnt.got, rng := t.fnt.rng, rngDone := t.fnt.rngDone, rngDead := t.fnt.rngDead }, xing := { s.xing with mirror := t.xing.mirror, sess := t.xing.sess } } ∧ OtherRegs s t [Reg.QUAY_RPL_HITS, Reg.RBT_LATE, Reg.COMP_AUTH_FAIL, Reg.COMP_DONE, Reg.FNT_HEALTH_CNT, Reg.FNT_SEEDS] [Reg.PAGE_STAT, Reg.INT_STAT, Reg.ERR_SYND, Reg.ERR_ADDR, Reg.FAULT_CNT, Reg.QUAY_LINK_STAT] []) ∧
  (∀ (s : State) (cells : BitVec 4) (i : Fin 4), domOn s 12 = true → s.fnt.begun = true → s.fnt.state ≠ 1 → s.fnt.state ≠ 5 → s.fnt.xorEn = false → s.fnt.streams.length = 4 → 
    Answers (.noiseSample cells) s fun t => (t.fnt.streams.getD i.val {}).tested = (s.fnt.streams.getD i.val {}).tested + 1 ∧ (t.fnt.streams.getD i.val {}).last = cells.getLsbD i.val ∧ t = { s with out := t.out, regs := t.regs, parBad := t.parBad, wins := t.wins, quay := { s.quay with queues := t.quay.queues, doms := t.quay.doms, domRR := t.quay.domRR, ctxs := t.quay.ctxs, msix := t.quay.msix }, units := { s.units with cipher := t.units.cipher, hash := t.units.hash, arc := t.units.arc }, kerb := { s.kerb with reports := t.kerb.reports }, fnt := { s.fnt with state := t.fnt.state, tries := t.fnt.tries, streams := t.fnt.streams, passed := t.fnt.passed, noCredit := t.fnt.noCredit, absorbed := t.fnt.absorbed, credit := t.fnt.credit, seed := t.fnt.seed, swTurn := t.fnt.swTurn, int := t.fnt.int, sw := t.fnt.sw, katBusy := t.fnt.katBusy, raw := t.fnt.raw, draws := t.fnt.draws, part := t.fnt.part, got := t.fnt.got, rng := t.fnt.rng, rngDone := t.fnt.rngDone, rngDead := t.fnt.rngDead }, xing := { s.xing with mirror := t.xing.mirror, sess := t.xing.sess } } ∧ OtherRegs s t [Reg.QUAY_RPL_HITS, Reg.RBT_LATE, Reg.COMP_AUTH_FAIL, Reg.COMP_DONE, Reg.FNT_HEALTH_CNT, Reg.FNT_SEEDS] [Reg.PAGE_STAT, Reg.INT_STAT, Reg.ERR_SYND, Reg.ERR_ADDR, Reg.FAULT_CNT, Reg.QUAY_LINK_STAT] []) ∧
  (∀ (s : State) (cells : BitVec 4), domOn s 12 = false ∨ s.fnt.begun = false ∨ s.fnt.state = 1 ∨ s.fnt.state = 5 → 
    Answers (.noiseSample cells) s fun t => t = s) ∧
  (∀ (s : State), s.fnt.begun = true → s.fnt.state = 1 → s.fnt.settled = false → 
    Answers (.fountainSettleEnd) s fun t => t.fnt.settled = true ∧ t.fnt.state = (if s.fnt.katOk = true then 2 else 1) ∧ t = { s with fnt := { s.fnt with state := t.fnt.state, tries := t.fnt.tries, settled := t.fnt.settled, passed := t.fnt.passed } }) ∧
  (∀ (s : State), s.fnt.begun = false ∨ s.fnt.state ≠ 1 ∨ s.fnt.settled = true → 
    Answers (.fountainSettleEnd) s fun t => t = s) ∧
  (∀ (s : State), s.fnt.begun = true → s.fnt.state < 4 → s.fnt.int.on = false → 
    Answers (.startupTimeout) s fun t => t.fnt.state = 5 ∧ t.fnt.sw.on = false ∧ t.fnt.absorbed = [] ∧ t = { s with out := t.out, regs := t.regs, parBad := t.parBad, wins := t.wins, quay := { s.quay with msix := t.quay.msix }, kerb := { s.kerb with reports := t.kerb.reports }, fnt := { s.fnt with state := t.fnt.state, absorbed := t.fnt.absorbed, credit := t.fnt.credit, seed := t.fnt.seed, int := t.fnt.int, sw := t.fnt.sw, katBusy := t.fnt.katBusy, part := t.fnt.part, rngDead := t.fnt.rngDead } } ∧ OtherRegs s t [] [Reg.PAGE_STAT, Reg.INT_STAT, Reg.ERR_SYND, Reg.ERR_ADDR, Reg.FAULT_CNT] []) ∧
  (∀ (s : State), s.fnt.begun = false ∨ 4 ≤ s.fnt.state ∨ s.fnt.int.on = true → 
    Answers (.startupTimeout) s fun t => t = s) ∧
  (∀ (s : State) (src : Src), Reaches s src Reg.FNT_KAT → 
    Answers (.fntKat src) s fun t => t.fnt = { s.fnt with katBusy := true } ∧ t = { s with out := t.out, regs := t.regs, parBad := t.parBad, quay := { s.quay with msix := t.quay.msix }, fnt := { s.fnt with katBusy := t.fnt.katBusy } } ∧ OtherRegs s t [] [Reg.INT_STAT, Reg.ERR_SYND, Reg.ERR_ADDR] []) ∧
  (∀ (s : State), s.fnt.katBusy = true → 
    Answers (.fntKatDone true) s fun t => t.fnt.katBusy = false ∧ t.fnt.katPass = true ∧ t.fnt.int = s.fnt.int ∧ t = { s with out := t.out, regs := t.regs, parBad := t.parBad, wins := t.wins, quay := { s.quay with queues := t.quay.queues, doms := t.quay.doms, domRR := t.quay.domRR, ctxs := t.quay.ctxs, msix := t.quay.msix }, units := { s.units with cipher := t.units.cipher, hash := t.units.hash, arc := t.units.arc }, kerb := { s.kerb with reports := t.kerb.reports }, fnt := { s.fnt with state := t.fnt.state, tries := t.fnt.tries, katOk := t.fnt.katOk, passed := t.fnt.passed, absorbed := t.fnt.absorbed, credit := t.fnt.credit, seed := t.fnt.seed, int := t.fnt.int, sw := t.fnt.sw, katBusy := t.fnt.katBusy, katPass := t.fnt.katPass, draws := t.fnt.draws, part := t.fnt.part, got := t.fnt.got, rng := t.fnt.rng, rngDone := t.fnt.rngDone, rngDead := t.fnt.rngDead }, xing := { s.xing with mirror := t.xing.mirror, sess := t.xing.sess } } ∧ OtherRegs s t [Reg.QUAY_RPL_HITS, Reg.RBT_LATE, Reg.COMP_AUTH_FAIL, Reg.COMP_DONE] [Reg.PAGE_STAT, Reg.INT_STAT, Reg.ERR_SYND, Reg.ERR_ADDR, Reg.FAULT_CNT, Reg.QUAY_LINK_STAT] []) ∧
  (∀ (s : State), s.fnt.katBusy = true → s.fnt.state ≠ 5 → 
    Answers (.fntKatDone false) s fun t => t.fnt.state = 5 ∧ t.fnt.katPass = false ∧ t.fnt.int.on = false ∧ t = { s with out := t.out, regs := t.regs, parBad := t.parBad, wins := t.wins, quay := { s.quay with queues := t.quay.queues, doms := t.quay.doms, domRR := t.quay.domRR, ctxs := t.quay.ctxs, msix := t.quay.msix }, units := { s.units with cipher := t.units.cipher, hash := t.units.hash, arc := t.units.arc }, kerb := { s.kerb with reports := t.kerb.reports }, fnt := { s.fnt with state := t.fnt.state, tries := t.fnt.tries, katOk := t.fnt.katOk, passed := t.fnt.passed, absorbed := t.fnt.absorbed, credit := t.fnt.credit, seed := t.fnt.seed, int := t.fnt.int, sw := t.fnt.sw, katBusy := t.fnt.katBusy, katPass := t.fnt.katPass, draws := t.fnt.draws, part := t.fnt.part, got := t.fnt.got, rng := t.fnt.rng, rngDone := t.fnt.rngDone, rngDead := t.fnt.rngDead }, xing := { s.xing with mirror := t.xing.mirror, sess := t.xing.sess } } ∧ OtherRegs s t [Reg.QUAY_RPL_HITS, Reg.RBT_LATE, Reg.COMP_AUTH_FAIL, Reg.COMP_DONE] [Reg.PAGE_STAT, Reg.INT_STAT, Reg.ERR_SYND, Reg.ERR_ADDR, Reg.FAULT_CNT, Reg.QUAY_LINK_STAT] []) ∧
  (∀ (s : State) (ok : Bool), s.fnt.katBusy = false → 
    Answers (.fntKatDone ok) s fun t => t = s)

/-- A generate request on the private wires, where no waiting operation then goes on, delivers the oldest draw whole when at most 4,096 bytes of it are missing, and otherwise adds 4,096 bytes to what it has while the instance serves on; when no draw can be served, or the software instance is due, it does nothing. RNG_READ runs once the software instance is instantiated and ends with RNG_NOT_READY otherwise. A request of the software instance whose turn is a command's that no FAILED state has met is advanced by its next bytes, at most 4,096, and completes OK with the last of them; whose turn is a read's returns VALID with 16 bits. A read of FNT_SW_DATA returns 0 while the instance does not serve, VALID with 16 bits at once when nothing goes before it, and otherwise takes its place in the turn; FNT_RAW_DATA returns and removes the oldest 32 raw samples, or returns 0 when there are fewer. Each clause names what may change beside; every other part of the state and every other register is as before. Forms whose completion it states: drbgGenerate, rngRead, fntSwDataRead, fntRawDataRead. (R288, R290, R291, R292, R295, R296, R303, R551) -/
def Obligations.FountainService : Prop :=
  (∀ (s : State) (w who : Nat) (l : List (Nat × Nat)) (hit : Option Hit), s.fnt.draws = (w, who) :: l → intServing s = true → (swServing s && decide (7 ≤ s.fnt.intRun) && swWaiting s) = false → (drawBytes w who - s.fnt.part.length) ≤ 4096 → NothingResumes (drbgGenerate s false hit) → 
    Answers (.drbgGenerate ⟨false, hit⟩) s fun t => t.fnt.draws = l ∧ drawn t who = some (s.fnt.part ++ (drbgRequest s.fnt.int (drawBytes w who - s.fnt.part.length)).1) ∧ t.fnt.int = (drbgRequest s.fnt.int (drawBytes w who - s.fnt.part.length)).2 ∧ t.mem = s.mem ∧ t = { s with out := t.out, regs := t.regs, parBad := t.parBad, wins := t.wins, quay := { s.quay with queues := t.quay.queues, doms := t.quay.doms, domRR := t.quay.domRR, ctxs := t.quay.ctxs, msix := t.quay.msix }, units := { s.units with cipher := t.units.cipher, hash := t.units.hash, arc := t.units.arc }, mews := { s.mews with slots := t.mews.slots, genBase := t.mews.genBase, cascades := t.mews.cascades, zeroising := t.mews.zeroising }, life := t.life, kerb := { s.kerb with reports := t.kerb.reports }, fer := { s.fer with lcA := t.fer.lcA, lcB := t.fer.lcB, integrator := t.fer.integrator, pairB := t.fer.pairB, peerSerial := t.fer.peerSerial, pairId := t.fer.pairId, pairCnt := t.fer.pairCnt, fleetRole := t.fer.fleetRole, fleetId := t.fer.fleetId, wards := t.fer.wards, voucher := t.fer.voucher, lastSeq := t.fer.lastSeq }, bak := { s.bak with cust := t.bak.cust, pairRoot := t.bak.pairRoot, fleetRoot := t.bak.fleetRoot }, fnt := { s.fnt with state := t.fnt.state, absorbed := t.fnt.absorbed, credit := t.fnt.credit, seed := t.fnt.seed, int := t.fnt.int, sw := t.fnt.sw, katBusy := t.fnt.katBusy, draws := t.fnt.draws, part := t.fnt.part, got := t.fnt.got, rng := t.fnt.rng, rngDone := t.fnt.rngDone, rngDead := t.fnt.rngDead, intRun := t.fnt.intRun }, curves := t.curves, xing := { s.xing with state := t.xing.state, seqr := t.xing.seqr, mirror := t.xing.mirror, sess := t.xing.sess, upWait := t.xing.upWait, joinErr := t.xing.joinErr, held := t.xing.held, stmt := t.xing.stmt, eph := t.xing.eph, failing := t.xing.failing, left := t.xing.left }, fleet := t.fleet, clk := { s.clk with load := t.clk.load }, cores := t.cores, load := t.load, autoload := t.autoload, chk := { s.chk with eccBad := t.chk.eccBad, slotBad := t.chk.slotBad }, sd := { s.sd with op := t.sd.op, clk := t.sd.clk }, mem := t.mem } ∧ OtherRegs s t [Reg.BOOT_STAT, Reg.CT_CMD, Reg.QUAY_RPL_HITS, Reg.RBT_LATE, Reg.MEWS_REVOKES, Reg.COMP_AUTH_FAIL, Reg.COMP_DONE, Reg.IXM_LD_SRC, Reg.IXM_LD_ADDR_LO, Reg.IXM_LD_CMD, Reg.IXM_LD_INFO, Reg.CHECKPOINT_SRAM_ECC, Reg.XING_CMD, Reg.FLEET_CMD, Reg.FLEET_ID_LO, Reg.FLEET_ID_HI] [Reg.PAGE_STAT, Reg.INT_STAT, Reg.ERR_SYND, Reg.ERR_ADDR, Reg.FAULT_CNT, Reg.QUAY_LINK_STAT, Reg.QUAY_LINK_ERR] [0x48, 0x49, 0x4A, 0x4B, 0x4C, 0x4D, 0x4E, 0x4F]) ∧
  (∀ (s : State) (w who : Nat) (l : List (Nat × Nat)) (hit : Option Hit), s.fnt.draws = (w, who) :: l → intServing s = true → (swServing s && decide (7 ≤ s.fnt.intRun) && swWaiting s) = false → 4096 < (drawBytes w who - s.fnt.part.length) → s.fnt.int.reqs + 1 < seedLimit → NothingResumes (drbgGenerate s false hit) → 
    Answers (.drbgGenerate ⟨false, hit⟩) s fun t => t.fnt.draws = s.fnt.draws ∧ t.fnt.part = s.fnt.part ++ (drbgRequest s.fnt.int 4096).1 ∧ t.fnt.int = (drbgRequest s.fnt.int 4096).2 ∧ t.mem = s.mem ∧ t = { s with out := t.out, regs := t.regs, parBad := t.parBad, wins := t.wins, quay := { s.quay with queues := t.quay.queues, doms := t.quay.doms, domRR := t.quay.domRR, ctxs := t.quay.ctxs, msix := t.quay.msix }, units := { s.units with cipher := t.units.cipher, hash := t.units.hash, arc := t.units.arc }, mews := { s.mews with slots := t.mews.slots, genBase := t.mews.genBase, cascades := t.mews.cascades, zeroising := t.mews.zeroising }, life := t.life, kerb := { s.kerb with reports := t.kerb.reports }, fer := { s.fer with lcA := t.fer.lcA, lcB := t.fer.lcB, integrator := t.fer.integrator, pairB := t.fer.pairB, peerSerial := t.fer.peerSerial, pairId := t.fer.pairId, pairCnt := t.fer.pairCnt, fleetRole := t.fer.fleetRole, fleetId := t.fer.fleetId, wards := t.fer.wards, voucher := t.fer.voucher, lastSeq := t.fer.lastSeq }, bak := { s.bak with cust := t.bak.cust, pairRoot := t.bak.pairRoot, fleetRoot := t.bak.fleetRoot }, fnt := { s.fnt with state := t.fnt.state, absorbed := t.fnt.absorbed, credit := t.fnt.credit, seed := t.fnt.seed, int := t.fnt.int, sw := t.fnt.sw, katBusy := t.fnt.katBusy, draws := t.fnt.draws, part := t.fnt.part, got := t.fnt.got, rng := t.fnt.rng, rngDone := t.fnt.rngDone, rngDead := t.fnt.rngDead, intRun := t.fnt.intRun }, curves := t.curves, xing := { s.xing with state := t.xing.state, seqr := t.xing.seqr, mirror := t.xing.mirror, sess := t.xing.sess, upWait := t.xing.upWait, joinErr := t.xing.joinErr, held := t.xing.held, stmt := t.xing.stmt, eph := t.xing.eph, failing := t.xing.failing, left := t.xing.left }, fleet := t.fleet, clk := { s.clk with load := t.clk.load }, cores := t.cores, load := t.load, autoload := t.autoload, chk := { s.chk with eccBad := t.chk.eccBad, slotBad := t.chk.slotBad }, sd := { s.sd with op := t.sd.op, clk := t.sd.clk }, mem := t.mem } ∧ OtherRegs s t [Reg.BOOT_STAT, Reg.CT_CMD, Reg.QUAY_RPL_HITS, Reg.RBT_LATE, Reg.MEWS_REVOKES, Reg.COMP_AUTH_FAIL, Reg.COMP_DONE, Reg.IXM_LD_SRC, Reg.IXM_LD_ADDR_LO, Reg.IXM_LD_CMD, Reg.IXM_LD_INFO, Reg.CHECKPOINT_SRAM_ECC, Reg.XING_CMD, Reg.FLEET_CMD, Reg.FLEET_ID_LO, Reg.FLEET_ID_HI] [Reg.PAGE_STAT, Reg.INT_STAT, Reg.ERR_SYND, Reg.ERR_ADDR, Reg.FAULT_CNT, Reg.QUAY_LINK_STAT, Reg.QUAY_LINK_ERR] [0x48, 0x49, 0x4A, 0x4B, 0x4C, 0x4D, 0x4E, 0x4F]) ∧
  (∀ (s : State) (hit : Option Hit), s.fnt.draws = [] ∨ intServing s = false ∨ (swServing s && decide (7 ≤ s.fnt.intRun) && swWaiting s) = true → NothingResumes s → 
    Answers (.drbgGenerate ⟨false, hit⟩) s fun t => t = s) ∧
  (∀ (s : State) (c : CtxNo) (x : Ctx), ctxAt s c.val = some x → x.d.opcode = 0x40 → x.phase = .placed → s.fnt.sw.on = true → 
    Answers (.rngRead c) s fun t => ctxAt t c.val = some { x with phase := .running } ∧ t.fnt = s.fnt ∧ t = { s with out := t.out, regs := t.regs, parBad := t.parBad, wins := t.wins, quay := { s.quay with queues := t.quay.queues, doms := t.quay.doms, domRR := t.quay.domRR, ctxs := t.quay.ctxs, msix := t.quay.msix }, units := { s.units with cipher := t.units.cipher, hash := t.units.hash, arc := t.units.arc }, kerb := { s.kerb with reports := t.kerb.reports }, fnt := { s.fnt with state := t.fnt.state, absorbed := t.fnt.absorbed, credit := t.fnt.credit, seed := t.fnt.seed, int := t.fnt.int, sw := t.fnt.sw, katBusy := t.fnt.katBusy, draws := t.fnt.draws, part := t.fnt.part, got := t.fnt.got, rng := t.fnt.rng, rngDone := t.fnt.rngDone, rngDead := t.fnt.rngDead }, xing := { s.xing with mirror := t.xing.mirror, sess := t.xing.sess } } ∧ OtherRegs s t [Reg.QUAY_RPL_HITS, Reg.RBT_LATE, Reg.COMP_AUTH_FAIL, Reg.COMP_DONE] [Reg.PAGE_STAT, Reg.INT_STAT, Reg.ERR_SYND, Reg.ERR_ADDR, Reg.FAULT_CNT, Reg.QUAY_LINK_STAT] []) ∧
  (∀ (s : State) (c : CtxNo) (x : Ctx), ctxAt s c.val = some x → x.d.opcode = 0x40 → x.phase = .placed → s.fnt.sw.on = false → Deliverable s x → 
    Answers (.rngRead c) s fun t => Completed s t c.val x { status := 0x07 } ∧ t = { s with out := t.out, regs := t.regs, parBad := t.parBad, wins := t.wins, quay := { s.quay with queues := t.quay.queues, doms := t.quay.doms, domRR := t.quay.domRR, ctxs := t.quay.ctxs, msix := t.quay.msix }, units := { s.units with cipher := t.units.cipher, hash := t.units.hash, arc := t.units.arc }, kerb := { s.kerb with reports := t.kerb.reports }, fnt := { s.fnt with state := t.fnt.state, absorbed := t.fnt.absorbed, credit := t.fnt.credit, seed := t.fnt.seed, int := t.fnt.int, sw := t.fnt.sw, katBusy := t.fnt.katBusy, draws := t.fnt.draws, part := t.fnt.part, got := t.fnt.got, rng := t.fnt.rng, rngDone := t.fnt.rngDone, rngDead := t.fnt.rngDead }, xing := { s.xing with mirror := t.xing.mirror, sess := t.xing.sess } } ∧ OtherRegs s t [Reg.QUAY_RPL_HITS, Reg.RBT_LATE, Reg.COMP_AUTH_FAIL, Reg.COMP_DONE] [Reg.PAGE_STAT, Reg.INT_STAT, Reg.ERR_SYND, Reg.ERR_ADDR, Reg.FAULT_CNT, Reg.QUAY_LINK_STAT] []) ∧
  (∀ (s : State) (c : CtxNo), (ctxAt s c.val).any (fun x => x.d.opcode == 0x40 && decide (x.phase = .placed)) = false → 
    Answers (.rngRead c) s fun t => t = s) ∧
  (∀ (s : State) (c : CtxNo) (x : Ctx) (rest : List RngReq), s.fnt.rng = .cmd c.val :: rest → ctxAt s c.val = some x → x.phase = .running → s.fnt.rngDead = [] → swServing s = true → swDue s = true → x.wrote = x.done → x.d.len ≤ x.done + 4096 → x.done ≤ x.d.len → (checkSegs (queueAt s x.q) true x.dsts (x.d.len) (x.dsts.length + 1) x.dstChk).2 = false → Deliverable s x → 
    Answers (.drbgGenerate ⟨true, none⟩) s fun t => Completed s t c.val x { detail := b2n x.late, bytesDone := x.d.len } ∧ t.mem = s.mem ∧ t = { s with out := t.out, regs := t.regs, parBad := t.parBad, wins := t.wins, quay := { s.quay with queues := t.quay.queues, doms := t.quay.doms, domRR := t.quay.domRR, ctxs := t.quay.ctxs, msix := t.quay.msix }, units := { s.units with cipher := t.units.cipher, hash := t.units.hash, arc := t.units.arc }, mews := { s.mews with slots := t.mews.slots, genBase := t.mews.genBase, cascades := t.mews.cascades, zeroising := t.mews.zeroising }, life := t.life, kerb := { s.kerb with reports := t.kerb.reports }, fer := { s.fer with lcA := t.fer.lcA, lcB := t.fer.lcB, integrator := t.fer.integrator, pairB := t.fer.pairB, peerSerial := t.fer.peerSerial, pairId := t.fer.pairId, pairCnt := t.fer.pairCnt, fleetRole := t.fer.fleetRole, fleetId := t.fer.fleetId, wards := t.fer.wards, voucher := t.fer.voucher, lastSeq := t.fer.lastSeq }, bak := { s.bak with cust := t.bak.cust, pairRoot := t.bak.pairRoot, fleetRoot := t.bak.fleetRoot }, fnt := { s.fnt with state := t.fnt.state, absorbed := t.fnt.absorbed, credit := t.fnt.credit, seed := t.fnt.seed, int := t.fnt.int, sw := t.fnt.sw, katBusy := t.fnt.katBusy, draws := t.fnt.draws, part := t.fnt.part, got := t.fnt.got, rng := t.fnt.rng, rngDone := t.fnt.rngDone, rngDead := t.fnt.rngDead, intRun := t.fnt.intRun }, curves := t.curves, xing := { s.xing with state := t.xing.state, seqr := t.xing.seqr, mirror := t.xing.mirror, sess := t.xing.sess, upWait := t.xing.upWait, joinErr := t.xing.joinErr, held := t.xing.held, stmt := t.xing.stmt, eph := t.xing.eph, failing := t.xing.failing, left := t.xing.left }, fleet := t.fleet, clk := { s.clk with load := t.clk.load }, cores := t.cores, load := t.load, autoload := t.autoload, chk := { s.chk with eccBad := t.chk.eccBad, slotBad := t.chk.slotBad }, sd := { s.sd with op := t.sd.op, clk := t.sd.clk }, mem := t.mem } ∧ OtherRegs s t [Reg.BOOT_STAT, Reg.CT_CMD, Reg.QUAY_RPL_HITS, Reg.RBT_LATE, Reg.MEWS_REVOKES, Reg.COMP_AUTH_FAIL, Reg.COMP_DONE, Reg.IXM_LD_SRC, Reg.IXM_LD_ADDR_LO, Reg.IXM_LD_CMD, Reg.IXM_LD_INFO, Reg.CHECKPOINT_SRAM_ECC, Reg.XING_CMD, Reg.FLEET_CMD, Reg.FLEET_ID_LO, Reg.FLEET_ID_HI] [Reg.PAGE_STAT, Reg.INT_STAT, Reg.ERR_SYND, Reg.ERR_ADDR, Reg.FAULT_CNT, Reg.QUAY_LINK_STAT, Reg.QUAY_LINK_ERR] [0x48, 0x49, 0x4A, 0x4B, 0x4C, 0x4D, 0x4E, 0x4F]) ∧
  (∀ (s : State) (c : CtxNo) (x : Ctx) (rest : List RngReq), s.fnt.rng = .cmd c.val :: rest → ctxAt s c.val = some x → x.phase = .running → s.fnt.rngDead = [] → swServing s = true → swDue s = true → x.wrote = x.done → x.done + 4096 < x.d.len → (checkSegs (queueAt s x.q) true x.dsts (x.done + 4096) (x.dsts.length + 1) x.dstChk).2 = false → NothingResumes (drbgGenerate s true none) → 
    Answers (.drbgGenerate ⟨true, none⟩) s fun t => (ctxAt t c.val).map (fun y => (y.phase, y.done, y.wrote)) = some (.running, x.done + 4096, x.done + 4096) ∧ t.fnt.rng = rest ∧ t.fnt.rngDone = s.fnt.rngDone ++ [.cmd c.val] ∧ t.fnt.sw = (drbgRequest s.fnt.sw 4096).2 ∧ t.mem = s.mem ∧ t = { s with out := t.out, regs := t.regs, parBad := t.parBad, wins := t.wins, quay := { s.quay with queues := t.quay.queues, doms := t.quay.doms, domRR := t.quay.domRR, ctxs := t.quay.ctxs, msix := t.quay.msix }, units := { s.units with cipher := t.units.cipher, hash := t.units.hash, arc := t.units.arc }, mews := { s.mews with slots := t.mews.slots, genBase := t.mews.genBase, cascades := t.mews.cascades, zeroising := t.mews.zeroising }, life := t.life, kerb := { s.kerb with reports := t.kerb.reports }, fer := { s.fer with lcA := t.fer.lcA, lcB := t.fer.lcB, integrator := t.fer.integrator, pairB := t.fer.pairB, peerSerial := t.fer.peerSerial, pairId := t.fer.pairId, pairCnt := t.fer.pairCnt, fleetRole := t.fer.fleetRole, fleetId := t.fer.fleetId, wards := t.fer.wards, voucher := t.fer.voucher, lastSeq := t.fer.lastSeq }, bak := { s.bak with cust := t.bak.cust, pairRoot := t.bak.pairRoot, fleetRoot := t.bak.fleetRoot }, fnt := { s.fnt with state := t.fnt.state, absorbed := t.fnt.absorbed, credit := t.fnt.credit, seed := t.fnt.seed, int := t.fnt.int, sw := t.fnt.sw, katBusy := t.fnt.katBusy, draws := t.fnt.draws, part := t.fnt.part, got := t.fnt.got, rng := t.fnt.rng, rngDone := t.fnt.rngDone, rngDead := t.fnt.rngDead, intRun := t.fnt.intRun }, curves := t.curves, xing := { s.xing with state := t.xing.state, seqr := t.xing.seqr, mirror := t.xing.mirror, sess := t.xing.sess, upWait := t.xing.upWait, joinErr := t.xing.joinErr, held := t.xing.held, stmt := t.xing.stmt, eph := t.xing.eph, failing := t.xing.failing, left := t.xing.left }, fleet := t.fleet, clk := { s.clk with load := t.clk.load }, cores := t.cores, load := t.load, autoload := t.autoload, chk := { s.chk with eccBad := t.chk.eccBad, slotBad := t.chk.slotBad }, sd := { s.sd with op := t.sd.op, clk := t.sd.clk }, mem := t.mem } ∧ OtherRegs s t [Reg.BOOT_STAT, Reg.CT_CMD, Reg.QUAY_RPL_HITS, Reg.RBT_LATE, Reg.MEWS_REVOKES, Reg.COMP_AUTH_FAIL, Reg.COMP_DONE, Reg.IXM_LD_SRC, Reg.IXM_LD_ADDR_LO, Reg.IXM_LD_CMD, Reg.IXM_LD_INFO, Reg.CHECKPOINT_SRAM_ECC, Reg.XING_CMD, Reg.FLEET_CMD, Reg.FLEET_ID_LO, Reg.FLEET_ID_HI] [Reg.PAGE_STAT, Reg.INT_STAT, Reg.ERR_SYND, Reg.ERR_ADDR, Reg.FAULT_CNT, Reg.QUAY_LINK_STAT, Reg.QUAY_LINK_ERR] [0x48, 0x49, 0x4A, 0x4B, 0x4C, 0x4D, 0x4E, 0x4F]) ∧
  (∀ (s : State) (src : Src) (rest : List RngReq) (hit : Option Hit), s.fnt.rng = .read src :: rest → s.fnt.rngDead = [] → swServing s = true → swDue s = true → answers s src = true → NothingResumes (drbgGenerate s true hit) → 
    Answers (.drbgGenerate ⟨true, hit⟩) s fun t => t.out = .readData src (toLe 4 (2 ^ 31 + le (drbgRequest s.fnt.sw 2).1 % 2 ^ 16)) :: s.out ∧ t.fnt.rng = rest ∧ t.fnt.sw = (drbgRequest s.fnt.sw 2).2 ∧ t.mem = s.mem ∧ t = { s with out := t.out, regs := t.regs, parBad := t.parBad, wins := t.wins, quay := { s.quay with queues := t.quay.queues, doms := t.quay.doms, domRR := t.quay.domRR, ctxs := t.quay.ctxs, msix := t.quay.msix }, units := { s.units with cipher := t.units.cipher, hash := t.units.hash, arc := t.units.arc }, mews := { s.mews with slots := t.mews.slots, genBase := t.mews.genBase, cascades := t.mews.cascades, zeroising := t.mews.zeroising }, life := t.life, kerb := { s.kerb with reports := t.kerb.reports }, fer := { s.fer with lcA := t.fer.lcA, lcB := t.fer.lcB, integrator := t.fer.integrator, pairB := t.fer.pairB, peerSerial := t.fer.peerSerial, pairId := t.fer.pairId, pairCnt := t.fer.pairCnt, fleetRole := t.fer.fleetRole, fleetId := t.fer.fleetId, wards := t.fer.wards, voucher := t.fer.voucher, lastSeq := t.fer.lastSeq }, bak := { s.bak with cust := t.bak.cust, pairRoot := t.bak.pairRoot, fleetRoot := t.bak.fleetRoot }, fnt := { s.fnt with state := t.fnt.state, absorbed := t.fnt.absorbed, credit := t.fnt.credit, seed := t.fnt.seed, int := t.fnt.int, sw := t.fnt.sw, katBusy := t.fnt.katBusy, draws := t.fnt.draws, part := t.fnt.part, got := t.fnt.got, rng := t.fnt.rng, rngDone := t.fnt.rngDone, rngDead := t.fnt.rngDead, intRun := t.fnt.intRun }, curves := t.curves, xing := { s.xing with state := t.xing.state, seqr := t.xing.seqr, mirror := t.xing.mirror, sess := t.xing.sess, upWait := t.xing.upWait, joinErr := t.xing.joinErr, held := t.xing.held, stmt := t.xing.stmt, eph := t.xing.eph, failing := t.xing.failing, left := t.xing.left }, fleet := t.fleet, clk := { s.clk with load := t.clk.load }, cores := t.cores, load := t.load, autoload := t.autoload, chk := { s.chk with eccBad := t.chk.eccBad, slotBad := t.chk.slotBad }, sd := { s.sd with op := t.sd.op, clk := t.sd.clk }, mem := t.mem } ∧ OtherRegs s t [Reg.BOOT_STAT, Reg.CT_CMD, Reg.QUAY_RPL_HITS, Reg.RBT_LATE, Reg.MEWS_REVOKES, Reg.COMP_AUTH_FAIL, Reg.COMP_DONE, Reg.IXM_LD_SRC, Reg.IXM_LD_ADDR_LO, Reg.IXM_LD_CMD, Reg.IXM_LD_INFO, Reg.CHECKPOINT_SRAM_ECC, Reg.XING_CMD, Reg.FLEET_CMD, Reg.FLEET_ID_LO, Reg.FLEET_ID_HI] [Reg.PAGE_STAT, Reg.INT_STAT, Reg.ERR_SYND, Reg.ERR_ADDR, Reg.FAULT_CNT, Reg.QUAY_LINK_STAT, Reg.QUAY_LINK_ERR] [0x48, 0x49, 0x4A, 0x4B, 0x4C, 0x4D, 0x4E, 0x4F]) ∧
  (∀ (s : State) (src : Src), Reaches s src Reg.FNT_SW_DATA → swServing s = false → 
    Answers (.fntSwDataRead src) s fun t => t.out = .readData src (toLe 4 0) :: s.out ∧ t.fnt = s.fnt ∧ t = { s with out := t.out, regs := t.regs, parBad := t.parBad, quay := { s.quay with msix := t.quay.msix }, fnt := { s.fnt with sw := t.fnt.sw, rng := t.fnt.rng, rngDone := t.fnt.rngDone, intRun := t.fnt.intRun } } ∧ OtherRegs s t [] [Reg.INT_STAT, Reg.ERR_SYND, Reg.ERR_ADDR] []) ∧
  (∀ (s : State) (src : Src), Reaches s src Reg.FNT_SW_DATA → swServing s = true → swWaiting s = false → (s.fnt.draws.isEmpty || !intServing s || decide (7 ≤ s.fnt.intRun)) = true → answers s src = true → 
    Answers (.fntSwDataRead src) s fun t => t.out = .readData src (toLe 4 (2 ^ 31 + le (drbgRequest s.fnt.sw 2).1 % 2 ^ 16)) :: s.out ∧ t.fnt.sw = (drbgRequest s.fnt.sw 2).2 ∧ t.fnt.rng = s.fnt.rng ∧ t = { s with out := t.out, regs := t.regs, parBad := t.parBad, quay := { s.quay with msix := t.quay.msix }, fnt := { s.fnt with sw := t.fnt.sw, rng := t.fnt.rng, rngDone := t.fnt.rngDone, intRun := t.fnt.intRun } } ∧ OtherRegs s t [] [Reg.INT_STAT, Reg.ERR_SYND, Reg.ERR_ADDR] []) ∧
  (∀ (s : State) (src : Src), Reaches s src Reg.FNT_SW_DATA → swServing s = true → swWaiting s = true ∨ (s.fnt.draws.isEmpty || !intServing s || decide (7 ≤ s.fnt.intRun)) = false → 
    Answers (.fntSwDataRead src) s fun t => t.fnt = { s.fnt with rng := s.fnt.rng ++ [.read src] } ∧ t.out = s.out ∧ t = { s with out := t.out, regs := t.regs, parBad := t.parBad, quay := { s.quay with msix := t.quay.msix }, fnt := { s.fnt with sw := t.fnt.sw, rng := t.fnt.rng, rngDone := t.fnt.rngDone, intRun := t.fnt.intRun } } ∧ OtherRegs s t [] [Reg.INT_STAT, Reg.ERR_SYND, Reg.ERR_ADDR] []) ∧
  (∀ (s : State) (src : Src), Reaches s src Reg.FNT_RAW_DATA → 32 ≤ s.fnt.raw.length → 
    Answers (.fntRawDataRead src) s fun t => t.out = .readData src (toLe 4 ((s.fnt.raw.take 32).foldr (fun b a => b2n b + 2 * a) 0)) :: s.out ∧ t.fnt = { s.fnt with raw := s.fnt.raw.drop 32 } ∧ t = { s with out := t.out, regs := t.regs, parBad := t.parBad, quay := { s.quay with msix := t.quay.msix }, fnt := { s.fnt with raw := t.fnt.raw } } ∧ OtherRegs s t [] [Reg.INT_STAT, Reg.ERR_SYND, Reg.ERR_ADDR] []) ∧
  (∀ (s : State) (src : Src), Reaches s src Reg.FNT_RAW_DATA → s.fnt.raw.length < 32 → 
    Answers (.fntRawDataRead src) s fun t => t.out = .readData src (toLe 4 0) :: s.out ∧ t.fnt = s.fnt ∧ t = { s with out := t.out, regs := t.regs, parBad := t.parBad, quay := { s.quay with msix := t.quay.msix }, fnt := { s.fnt with raw := t.fnt.raw } } ∧ OtherRegs s t [] [Reg.INT_STAT, Reg.ERR_SYND, Reg.ERR_ADDR] [])

/-- While CLK_TICK runs, time passes to the next epoch boundary, to a core's later compare value, or to the end of the last of TIMEOUT whole epochs without a marker, where the lock becomes HOLDOVER; where a hurry passes over that tick, to the one after it. While the lock is not FREE and a correction is pending, time passes to the next slew step, which holds the tick or advances it by one more. SYNC_OUT falls at its tick. Otherwise nothing happens. Each clause names what may change beside; every other part of the state and every other register is as before. Forms whose completion it states: epochBoundary, tickCompareMatch, slewStep, syncOutFall, holdoverTimeout. (R305, R306, R312, R313, R316, R373, R536) -/
def Obligations.ClockPasses : Prop :=
  (∀ (s : State), ticking s = true → 
    Answers (.epochBoundary) s fun t => t.tick = (((epochOf s s.tick + 1) * epochLen s) + (slewAfter s.clk (((epochOf s s.tick + 1) * epochLen s) - s.tick)).2) ∧ t = { s with out := t.out, tick := t.tick, regs := t.regs, parBad := t.parBad, wins := t.wins, quay := { s.quay with queues := t.quay.queues, doms := t.quay.doms, domRR := t.quay.domRR, ctxs := t.quay.ctxs, msix := t.quay.msix }, units := { s.units with cipher := t.units.cipher, hash := t.units.hash, arc := t.units.arc }, kerb := { s.kerb with reports := t.kerb.reports }, fnt := { s.fnt with state := t.fnt.state, absorbed := t.fnt.absorbed, credit := t.fnt.credit, seed := t.fnt.seed, int := t.fnt.int, sw := t.fnt.sw, katBusy := t.fnt.katBusy, draws := t.fnt.draws, part := t.fnt.part, got := t.fnt.got, rng := t.fnt.rng, rngDone := t.fnt.rngDone, rngDead := t.fnt.rngDead }, xing := { s.xing with mirror := t.xing.mirror, sess := t.xing.sess }, clk := { s.clk with corr := t.clk.corr, gap := t.clk.gap, lock := t.clk.lock, syncOut := t.clk.syncOut }, chk := { s.chk with rules := t.chk.rules, rcmd := t.chk.rcmd } } ∧ OtherRegs s t [Reg.QUAY_RPL_HITS, Reg.RBT_LATE, Reg.COMP_AUTH_FAIL, Reg.COMP_DONE, Reg.CHECKPOINT_RCMD] [Reg.PAGE_STAT, Reg.INT_STAT, Reg.ERR_SYND, Reg.ERR_ADDR, Reg.FAULT_CNT, Reg.QUAY_LINK_STAT] [0x40]) ∧
  (∀ (s : State) (c : CoreNo), ticking s = true → s.tick < (cregs s c.val).cmp → 
    Answers (.tickCompareMatch c) s fun t => t.tick = ((cregs s c.val).cmp + (slewAfter s.clk ((cregs s c.val).cmp - s.tick)).2) ∧ t = { s with out := t.out, tick := t.tick, regs := t.regs, parBad := t.parBad, wins := t.wins, quay := { s.quay with queues := t.quay.queues, doms := t.quay.doms, domRR := t.quay.domRR, ctxs := t.quay.ctxs, msix := t.quay.msix }, units := { s.units with cipher := t.units.cipher, hash := t.units.hash, arc := t.units.arc }, kerb := { s.kerb with reports := t.kerb.reports }, fnt := { s.fnt with state := t.fnt.state, absorbed := t.fnt.absorbed, credit := t.fnt.credit, seed := t.fnt.seed, int := t.fnt.int, sw := t.fnt.sw, katBusy := t.fnt.katBusy, draws := t.fnt.draws, part := t.fnt.part, got := t.fnt.got, rng := t.fnt.rng, rngDone := t.fnt.rngDone, rngDead := t.fnt.rngDead }, xing := { s.xing with mirror := t.xing.mirror, sess := t.xing.sess }, clk := { s.clk with corr := t.clk.corr, gap := t.clk.gap, lock := t.clk.lock, syncOut := t.clk.syncOut }, chk := { s.chk with rules := t.chk.rules, rcmd := t.chk.rcmd } } ∧ OtherRegs s t [Reg.QUAY_RPL_HITS, Reg.RBT_LATE, Reg.COMP_AUTH_FAIL, Reg.COMP_DONE, Reg.CHECKPOINT_RCMD] [Reg.PAGE_STAT, Reg.INT_STAT, Reg.ERR_SYND, Reg.ERR_ADDR, Reg.FAULT_CNT, Reg.QUAY_LINK_STAT] [0x40]) ∧
  (∀ (s : State), ticking s = true → 0 < s.clk.corr → s.clk.lock ≠ 0 → 
    Answers (.slewStep) s fun t => t.tick = s.tick + (15 - s.clk.gap) + 2 ∧ t.clk.corr = s.clk.corr - 1 ∧ t.clk.gap = 0 ∧ t = { s with out := t.out, tick := t.tick, regs := t.regs, parBad := t.parBad, wins := t.wins, quay := { s.quay with queues := t.quay.queues, doms := t.quay.doms, domRR := t.quay.domRR, ctxs := t.quay.ctxs, msix := t.quay.msix }, units := { s.units with cipher := t.units.cipher, hash := t.units.hash, arc := t.units.arc }, kerb := { s.kerb with reports := t.kerb.reports }, fnt := { s.fnt with state := t.fnt.state, absorbed := t.fnt.absorbed, credit := t.fnt.credit, seed := t.fnt.seed, int := t.fnt.int, sw := t.fnt.sw, katBusy := t.fnt.katBusy, draws := t.fnt.draws, part := t.fnt.part, got := t.fnt.got, rng := t.fnt.rng, rngDone := t.fnt.rngDone, rngDead := t.fnt.rngDead }, xing := { s.xing with mirror := t.xing.mirror, sess := t.xing.sess }, clk := { s.clk with corr := t.clk.corr, gap := t.clk.gap, lock := t.clk.lock, syncOut := t.clk.syncOut }, chk := { s.chk with rules := t.chk.rules, rcmd := t.chk.rcmd } } ∧ OtherRegs s t [Reg.QUAY_RPL_HITS, Reg.RBT_LATE, Reg.COMP_AUTH_FAIL, Reg.COMP_DONE, Reg.CHECKPOINT_RCMD] [Reg.PAGE_STAT, Reg.INT_STAT, Reg.ERR_SYND, Reg.ERR_ADDR, Reg.FAULT_CNT, Reg.QUAY_LINK_STAT] [0x40]) ∧
  (∀ (s : State), ticking s = true → s.clk.corr < 0 → s.clk.lock ≠ 0 → 
    Answers (.slewStep) s fun t => t.tick = s.tick + (15 - s.clk.gap) ∧ t.clk.corr = s.clk.corr + 1 ∧ t.clk.gap = 0 ∧ t = { s with out := t.out, tick := t.tick, regs := t.regs, parBad := t.parBad, wins := t.wins, quay := { s.quay with queues := t.quay.queues, doms := t.quay.doms, domRR := t.quay.domRR, ctxs := t.quay.ctxs, msix := t.quay.msix }, units := { s.units with cipher := t.units.cipher, hash := t.units.hash, arc := t.units.arc }, kerb := { s.kerb with reports := t.kerb.reports }, fnt := { s.fnt with state := t.fnt.state, absorbed := t.fnt.absorbed, credit := t.fnt.credit, seed := t.fnt.seed, int := t.fnt.int, sw := t.fnt.sw, katBusy := t.fnt.katBusy, draws := t.fnt.draws, part := t.fnt.part, got := t.fnt.got, rng := t.fnt.rng, rngDone := t.fnt.rngDone, rngDead := t.fnt.rngDead }, xing := { s.xing with mirror := t.xing.mirror, sess := t.xing.sess }, clk := { s.clk with corr := t.clk.corr, gap := t.clk.gap, lock := t.clk.lock, syncOut := t.clk.syncOut }, chk := { s.chk with rules := t.chk.rules, rcmd := t.chk.rcmd } } ∧ OtherRegs s t [Reg.QUAY_RPL_HITS, Reg.RBT_LATE, Reg.COMP_AUTH_FAIL, Reg.COMP_DONE, Reg.CHECKPOINT_RCMD] [Reg.PAGE_STAT, Reg.INT_STAT, Reg.ERR_SYND, Reg.ERR_ADDR, Reg.FAULT_CNT, Reg.QUAY_LINK_STAT] [0x40]) ∧
  (∀ (s : State) (e : Nat), ticking s = true → s.clk.syncOut = some e → e < ((epochOf s s.tick + 1) * epochLen s) → 
    Answers (.syncOutFall) s fun t => Out.pin "SYNC_OUT" 0 ∈ t.out ∧ t.tick = (if e ≤ s.tick then s.tick else (e + (slewAfter s.clk (e - s.tick)).2)) ∧ t = { s with out := t.out, tick := t.tick, regs := t.regs, parBad := t.parBad, wins := t.wins, quay := { s.quay with queues := t.quay.queues, doms := t.quay.doms, domRR := t.quay.domRR, ctxs := t.quay.ctxs, msix := t.quay.msix }, units := { s.units with cipher := t.units.cipher, hash := t.units.hash, arc := t.units.arc }, kerb := { s.kerb with reports := t.kerb.reports }, fnt := { s.fnt with state := t.fnt.state, absorbed := t.fnt.absorbed, credit := t.fnt.credit, seed := t.fnt.seed, int := t.fnt.int, sw := t.fnt.sw, katBusy := t.fnt.katBusy, draws := t.fnt.draws, part := t.fnt.part, got := t.fnt.got, rng := t.fnt.rng, rngDone := t.fnt.rngDone, rngDead := t.fnt.rngDead }, xing := { s.xing with mirror := t.xing.mirror, sess := t.xing.sess }, clk := { s.clk with corr := t.clk.corr, gap := t.clk.gap, lock := t.clk.lock, syncOut := t.clk.syncOut }, chk := { s.chk with rules := t.chk.rules, rcmd := t.chk.rcmd } } ∧ OtherRegs s t [Reg.QUAY_RPL_HITS, Reg.RBT_LATE, Reg.COMP_AUTH_FAIL, Reg.COMP_DONE, Reg.CHECKPOINT_RCMD] [Reg.PAGE_STAT, Reg.INT_STAT, Reg.ERR_SYND, Reg.ERR_ADDR, Reg.FAULT_CNT, Reg.QUAY_LINK_STAT] [0x40]) ∧
  (∀ (s : State), ticking s = true → s.clk.lock = 1 ∨ s.clk.lock = 2 → s.tick < ((s.clk.base + max 1 (fld s Reg.CT_SYNC_CFG 27 24) + 1) * epochLen s) → 
    Answers (.holdoverTimeout) s fun t => t.tick = (((s.clk.base + max 1 (fld s Reg.CT_SYNC_CFG 27 24) + 1) * epochLen s) + (slewAfter s.clk (((s.clk.base + max 1 (fld s Reg.CT_SYNC_CFG 27 24) + 1) * epochLen s) - s.tick)).2) ∧ t.clk.lock = 3 ∧ t = { s with out := t.out, tick := t.tick, regs := t.regs, parBad := t.parBad, wins := t.wins, quay := { s.quay with queues := t.quay.queues, doms := t.quay.doms, domRR := t.quay.domRR, ctxs := t.quay.ctxs, msix := t.quay.msix }, units := { s.units with cipher := t.units.cipher, hash := t.units.hash, arc := t.units.arc }, kerb := { s.kerb with reports := t.kerb.reports }, fnt := { s.fnt with state := t.fnt.state, absorbed := t.fnt.absorbed, credit := t.fnt.credit, seed := t.fnt.seed, int := t.fnt.int, sw := t.fnt.sw, katBusy := t.fnt.katBusy, draws := t.fnt.draws, part := t.fnt.part, got := t.fnt.got, rng := t.fnt.rng, rngDone := t.fnt.rngDone, rngDead := t.fnt.rngDead }, xing := { s.xing with mirror := t.xing.mirror, sess := t.xing.sess }, clk := { s.clk with corr := t.clk.corr, gap := t.clk.gap, lock := t.clk.lock, syncOut := t.clk.syncOut }, chk := { s.chk with rules := t.chk.rules, rcmd := t.chk.rcmd } } ∧ OtherRegs s t [Reg.QUAY_RPL_HITS, Reg.RBT_LATE, Reg.COMP_AUTH_FAIL, Reg.COMP_DONE, Reg.CHECKPOINT_RCMD] [Reg.PAGE_STAT, Reg.INT_STAT, Reg.ERR_SYND, Reg.ERR_ADDR, Reg.FAULT_CNT, Reg.QUAY_LINK_STAT] [0x40]) ∧
  (∀ (s : State), ticking s = false → 
    Answers (.epochBoundary) s fun t => t = s) ∧
  (∀ (s : State) (c : CoreNo), ticking s = false ∨ (cregs s c.val).cmp ≤ s.tick → 
    Answers (.tickCompareMatch c) s fun t => t = s) ∧
  (∀ (s : State), ticking s = false ∨ s.clk.corr = 0 ∨ s.clk.lock = 0 → 
    Answers (.slewStep) s fun t => t = s) ∧
  (∀ (s : State), ticking s = false ∨ s.clk.syncOut = none → 
    Answers (.syncOutFall) s fun t => t = s) ∧
  (∀ (s : State), ticking s = false ∨ (s.clk.lock ≠ 1 ∧ s.clk.lock ≠ 2) ∨ ((s.clk.base + max 1 (fld s Reg.CT_SYNC_CFG 27 24) + 1) * epochLen s) ≤ s.tick → 
    Answers (.holdoverTimeout) s fun t => t = s)

/-- A marker of the selected source while no load is pending shows its offset in CT_SYNC_ERR and becomes the last one counted, unless one of its epoch has been counted, which is counted apart; one of another source changes nothing. The marker of a pending load whose tick is still ahead sets the tick and the lock to LOCKED with RESULT OK; one too late ends the load PAST. A write of CT_CFG takes effect with K and SRC as they act where K stays or may change; where K may not change it stays, and the value written is recorded with CODE 0x10. While no load is pending LOAD_NOW of a later value sets the tick, of another one ends PAST; LOAD_AT_SYNC is pending with a source and an aligned value, and otherwise ends NO_SOURCE or ALIGN; both are ignored and recorded with CODE 0x11 while a load is pending. CANCEL ends a pending load CANCELLED and otherwise answers NONE. Each clause names what may change beside; every other part of the state and every other register is as before. Forms whose completion it states: syncMarker, ctCfgWrite, loadNow, loadAtSync, cancelLoad. (R307, R314, R315, R316, R317, R318, R319) -/
def Obligations.ClockMarkers : Prop :=
  (∀ (s : State) (fromXing : Bool), ticking s = true → clkSrc s = (if fromXing then 2 else 1) → s.clk.load = none → s.clk.marked.contains ((arrival s fromXing + (epochLen s : Int) / 2) / (epochLen s : Int)).toNat = false → 
    Answers (.syncMarker fromXing) s fun t => reg t Reg.CT_SYNC_ERR = sat32 (arrival s fromXing - ((arrival s fromXing + (epochLen s : Int) / 2) / (epochLen s : Int)) * (epochLen s : Int)) ∧ t.clk.lastMark = some ((arrival s fromXing + (epochLen s : Int) / 2) / (epochLen s : Int)).toNat ∧ t.clk.marked.contains ((arrival s fromXing + (epochLen s : Int) / 2) / (epochLen s : Int)).toNat = true ∧ t.tick = s.tick ∧ t = { s with out := t.out, tick := t.tick, regs := t.regs, parBad := t.parBad, wins := t.wins, quay := { s.quay with queues := t.quay.queues, doms := t.quay.doms, domRR := t.quay.domRR, ctxs := t.quay.ctxs, msix := t.quay.msix }, units := { s.units with cipher := t.units.cipher, hash := t.units.hash, arc := t.units.arc }, kerb := { s.kerb with reports := t.kerb.reports }, fnt := { s.fnt with state := t.fnt.state, absorbed := t.fnt.absorbed, credit := t.fnt.credit, seed := t.fnt.seed, int := t.fnt.int, sw := t.fnt.sw, katBusy := t.fnt.katBusy, draws := t.fnt.draws, part := t.fnt.part, got := t.fnt.got, rng := t.fnt.rng, rngDone := t.fnt.rngDone, rngDead := t.fnt.rngDead }, xing := { s.xing with mirror := t.xing.mirror, sess := t.xing.sess }, fleet := { s.fleet with tickPend := t.fleet.tickPend, tickFail := t.fleet.tickFail }, clk := { s.clk with corr := t.clk.corr, lock := t.clk.lock, marked := t.clk.marked, lastMark := t.clk.lastMark, lastE := t.clk.lastE, lastBeyond := t.clk.lastBeyond, base := t.clk.base, load := t.clk.load, syncOut := t.clk.syncOut } } ∧ OtherRegs s t [Reg.CT_SYNC_ERR, Reg.CT_CMD, Reg.CT_SYNC_CNT, Reg.QUAY_RPL_HITS, Reg.RBT_LATE, Reg.COMP_AUTH_FAIL, Reg.COMP_DONE] [Reg.PAGE_STAT, Reg.INT_STAT, Reg.ERR_SYND, Reg.ERR_ADDR, Reg.FAULT_CNT, Reg.QUAY_LINK_STAT] []) ∧
  (∀ (s : State) (fromXing : Bool), ticking s = true → clkSrc s = (if fromXing then 2 else 1) → s.clk.load = none → s.clk.marked.contains ((arrival s fromXing + (epochLen s : Int) / 2) / (epochLen s : Int)).toNat = true → 
    Answers (.syncMarker fromXing) s fun t => fld t Reg.CT_SYNC_CNT 31 24 = min 255 (fld s Reg.CT_SYNC_CNT 31 24 + 1) ∧ t.clk = s.clk ∧ t.tick = s.tick ∧ t = { s with out := t.out, tick := t.tick, regs := t.regs, parBad := t.parBad, wins := t.wins, quay := { s.quay with queues := t.quay.queues, doms := t.quay.doms, domRR := t.quay.domRR, ctxs := t.quay.ctxs, msix := t.quay.msix }, units := { s.units with cipher := t.units.cipher, hash := t.units.hash, arc := t.units.arc }, kerb := { s.kerb with reports := t.kerb.reports }, fnt := { s.fnt with state := t.fnt.state, absorbed := t.fnt.absorbed, credit := t.fnt.credit, seed := t.fnt.seed, int := t.fnt.int, sw := t.fnt.sw, katBusy := t.fnt.katBusy, draws := t.fnt.draws, part := t.fnt.part, got := t.fnt.got, rng := t.fnt.rng, rngDone := t.fnt.rngDone, rngDead := t.fnt.rngDead }, xing := { s.xing with mirror := t.xing.mirror, sess := t.xing.sess }, fleet := { s.fleet with tickPend := t.fleet.tickPend, tickFail := t.fleet.tickFail }, clk := { s.clk with corr := t.clk.corr, lock := t.clk.lock, marked := t.clk.marked, lastMark := t.clk.lastMark, lastE := t.clk.lastE, lastBeyond := t.clk.lastBeyond, base := t.clk.base, load := t.clk.load, syncOut := t.clk.syncOut } } ∧ OtherRegs s t [Reg.CT_SYNC_ERR, Reg.CT_CMD, Reg.CT_SYNC_CNT, Reg.QUAY_RPL_HITS, Reg.RBT_LATE, Reg.COMP_AUTH_FAIL, Reg.COMP_DONE] [Reg.PAGE_STAT, Reg.INT_STAT, Reg.ERR_SYND, Reg.ERR_ADDR, Reg.FAULT_CNT, Reg.QUAY_LINK_STAT] []) ∧
  (∀ (s : State) (fromXing : Bool) (v : Nat), ticking s = true → clkSrc s = (if fromXing then 2 else 1) → s.clk.load = some v → (s.tick : Int) < ((v : Int) + syncDelay s + 3) → 
    Answers (.syncMarker fromXing) s fun t => t.tick = ((v : Int) + syncDelay s + 3).toNat ∧ t.clk.load = none ∧ t.clk.lock = 2 ∧ fld t Reg.CT_CMD 7 4 = 0 ∧ t = { s with out := t.out, tick := t.tick, regs := t.regs, parBad := t.parBad, wins := t.wins, quay := { s.quay with queues := t.quay.queues, doms := t.quay.doms, domRR := t.quay.domRR, ctxs := t.quay.ctxs, msix := t.quay.msix }, units := { s.units with cipher := t.units.cipher, hash := t.units.hash, arc := t.units.arc }, kerb := { s.kerb with reports := t.kerb.reports }, fnt := { s.fnt with state := t.fnt.state, absorbed := t.fnt.absorbed, credit := t.fnt.credit, seed := t.fnt.seed, int := t.fnt.int, sw := t.fnt.sw, katBusy := t.fnt.katBusy, draws := t.fnt.draws, part := t.fnt.part, got := t.fnt.got, rng := t.fnt.rng, rngDone := t.fnt.rngDone, rngDead := t.fnt.rngDead }, xing := { s.xing with mirror := t.xing.mirror, sess := t.xing.sess }, fleet := { s.fleet with tickPend := t.fleet.tickPend, tickFail := t.fleet.tickFail }, clk := { s.clk with corr := t.clk.corr, lock := t.clk.lock, marked := t.clk.marked, lastMark := t.clk.lastMark, lastE := t.clk.lastE, lastBeyond := t.clk.lastBeyond, base := t.clk.base, load := t.clk.load, syncOut := t.clk.syncOut } } ∧ OtherRegs s t [Reg.CT_SYNC_ERR, Reg.CT_CMD, Reg.CT_SYNC_CNT, Reg.QUAY_RPL_HITS, Reg.RBT_LATE, Reg.COMP_AUTH_FAIL, Reg.COMP_DONE] [Reg.PAGE_STAT, Reg.INT_STAT, Reg.ERR_SYND, Reg.ERR_ADDR, Reg.FAULT_CNT, Reg.QUAY_LINK_STAT] []) ∧
  (∀ (s : State) (fromXing : Bool) (v : Nat), ticking s = true → clkSrc s = (if fromXing then 2 else 1) → s.clk.load = some v → ((v : Int) + syncDelay s + 3) ≤ (s.tick : Int) → 
    Answers (.syncMarker fromXing) s fun t => t.tick = s.tick ∧ t.clk.load = none ∧ fld t Reg.CT_CMD 7 4 = 1 ∧ t = { s with out := t.out, tick := t.tick, regs := t.regs, parBad := t.parBad, wins := t.wins, quay := { s.quay with queues := t.quay.queues, doms := t.quay.doms, domRR := t.quay.domRR, ctxs := t.quay.ctxs, msix := t.quay.msix }, units := { s.units with cipher := t.units.cipher, hash := t.units.hash, arc := t.units.arc }, kerb := { s.kerb with reports := t.kerb.reports }, fnt := { s.fnt with state := t.fnt.state, absorbed := t.fnt.absorbed, credit := t.fnt.credit, seed := t.fnt.seed, int := t.fnt.int, sw := t.fnt.sw, katBusy := t.fnt.katBusy, draws := t.fnt.draws, part := t.fnt.part, got := t.fnt.got, rng := t.fnt.rng, rngDone := t.fnt.rngDone, rngDead := t.fnt.rngDead }, xing := { s.xing with mirror := t.xing.mirror, sess := t.xing.sess }, fleet := { s.fleet with tickPend := t.fleet.tickPend, tickFail := t.fleet.tickFail }, clk := { s.clk with corr := t.clk.corr, lock := t.clk.lock, marked := t.clk.marked, lastMark := t.clk.lastMark, lastE := t.clk.lastE, lastBeyond := t.clk.lastBeyond, base := t.clk.base, load := t.clk.load, syncOut := t.clk.syncOut } } ∧ OtherRegs s t [Reg.CT_SYNC_ERR, Reg.CT_CMD, Reg.CT_SYNC_CNT, Reg.QUAY_RPL_HITS, Reg.RBT_LATE, Reg.COMP_AUTH_FAIL, Reg.COMP_DONE] [Reg.PAGE_STAT, Reg.INT_STAT, Reg.ERR_SYND, Reg.ERR_ADDR, Reg.FAULT_CNT, Reg.QUAY_LINK_STAT] []) ∧
  (∀ (s : State) (fromXing : Bool), ticking s = false ∨ clkSrc s ≠ (if fromXing then 2 else 1) → 
    Answers (.syncMarker fromXing) s fun t => t = s) ∧
  (∀ (s : State) (src : Src) (v : BitVec 32), Reaches s src Reg.CT_CFG → actK (wbits v 5 0) = epochExp s ∨ (s.clk.lock = 0 ∧ s.clk.load = none ∧ heldCount s = 0) → 
    Answers (.ctCfgWrite src v) s fun t => epochExp t = actK (wbits v 5 0) ∧ clkSrc t = actSrc (wbits v 9 8) ∧ t.tick = s.tick ∧ t = { s with out := t.out, regs := t.regs, parBad := t.parBad, quay := { s.quay with msix := t.quay.msix }, clk := { s.clk with lock := t.clk.lock, marked := t.clk.marked, lastMark := t.clk.lastMark, base := t.clk.base } } ∧ OtherRegs s t [Reg.CT_CFG] [Reg.INT_STAT, Reg.ERR_SYND, Reg.ERR_ADDR] []) ∧
  (∀ (s : State) (src : Src) (v : BitVec 32), Reaches s src Reg.CT_CFG → actK (wbits v 5 0) ≠ epochExp s → ¬ (s.clk.lock = 0 ∧ s.clk.load = none ∧ heldCount s = 0) → epochExp s < 64 → rbit s (rk 4 Reg.ERR_SYND) 23 = false → 
    Answers (.ctCfgWrite src v) s fun t => epochExp t = epochExp s ∧ clkSrc t = actSrc (wbits v 9 8) ∧ fld t (rk 4 Reg.ERR_SYND) 31 24 = 0x10 ∧ reg t (rk 4 Reg.ERR_ADDR) = v ∧ t.tick = s.tick ∧ t = { s with out := t.out, regs := t.regs, parBad := t.parBad, quay := { s.quay with msix := t.quay.msix }, clk := { s.clk with lock := t.clk.lock, marked := t.clk.marked, lastMark := t.clk.lastMark, base := t.clk.base } } ∧ OtherRegs s t [Reg.CT_CFG] [Reg.INT_STAT, Reg.ERR_SYND, Reg.ERR_ADDR] []) ∧
  (∀ (s : State) (src : Src), Reaches s src Reg.CT_CMD → s.clk.load = none → s.tick < loadValue s → 
    Answers (.loadNow src) s fun t => t.tick = loadValue s ∧ fld t Reg.CT_CMD 7 4 = 0 ∧ t = { s with out := t.out, tick := t.tick, regs := t.regs, parBad := t.parBad, wins := t.wins, quay := { s.quay with queues := t.quay.queues, doms := t.quay.doms, domRR := t.quay.domRR, ctxs := t.quay.ctxs, msix := t.quay.msix }, units := { s.units with cipher := t.units.cipher, hash := t.units.hash, arc := t.units.arc }, kerb := { s.kerb with reports := t.kerb.reports }, fnt := { s.fnt with state := t.fnt.state, absorbed := t.fnt.absorbed, credit := t.fnt.credit, seed := t.fnt.seed, int := t.fnt.int, sw := t.fnt.sw, katBusy := t.fnt.katBusy, draws := t.fnt.draws, part := t.fnt.part, got := t.fnt.got, rng := t.fnt.rng, rngDone := t.fnt.rngDone, rngDead := t.fnt.rngDead }, xing := { s.xing with mirror := t.xing.mirror, sess := t.xing.sess }, fleet := { s.fleet with tickPend := t.fleet.tickPend, tickFail := t.fleet.tickFail }, clk := { s.clk with lock := t.clk.lock, load := t.clk.load, syncOut := t.clk.syncOut } } ∧ OtherRegs s t [Reg.CT_CMD, Reg.QUAY_RPL_HITS, Reg.RBT_LATE, Reg.COMP_AUTH_FAIL, Reg.COMP_DONE] [Reg.PAGE_STAT, Reg.INT_STAT, Reg.ERR_SYND, Reg.ERR_ADDR, Reg.FAULT_CNT, Reg.QUAY_LINK_STAT] []) ∧
  (∀ (s : State) (src : Src), Reaches s src Reg.CT_CMD → s.clk.load = none → loadValue s ≤ s.tick → 
    Answers (.loadNow src) s fun t => t.tick = s.tick ∧ fld t Reg.CT_CMD 7 4 = 1 ∧ t = { s with out := t.out, tick := t.tick, regs := t.regs, parBad := t.parBad, wins := t.wins, quay := { s.quay with queues := t.quay.queues, doms := t.quay.doms, domRR := t.quay.domRR, ctxs := t.quay.ctxs, msix := t.quay.msix }, units := { s.units with cipher := t.units.cipher, hash := t.units.hash, arc := t.units.arc }, kerb := { s.kerb with reports := t.kerb.reports }, fnt := { s.fnt with state := t.fnt.state, absorbed := t.fnt.absorbed, credit := t.fnt.credit, seed := t.fnt.seed, int := t.fnt.int, sw := t.fnt.sw, katBusy := t.fnt.katBusy, draws := t.fnt.draws, part := t.fnt.part, got := t.fnt.got, rng := t.fnt.rng, rngDone := t.fnt.rngDone, rngDead := t.fnt.rngDead }, xing := { s.xing with mirror := t.xing.mirror, sess := t.xing.sess }, fleet := { s.fleet with tickPend := t.fleet.tickPend, tickFail := t.fleet.tickFail }, clk := { s.clk with lock := t.clk.lock, load := t.clk.load, syncOut := t.clk.syncOut } } ∧ OtherRegs s t [Reg.CT_CMD, Reg.QUAY_RPL_HITS, Reg.RBT_LATE, Reg.COMP_AUTH_FAIL, Reg.COMP_DONE] [Reg.PAGE_STAT, Reg.INT_STAT, Reg.ERR_SYND, Reg.ERR_ADDR, Reg.FAULT_CNT, Reg.QUAY_LINK_STAT] []) ∧
  (∀ (s : State) (src : Src), Reaches s src Reg.CT_CMD → s.clk.load = none → clkSrc s ≠ 0 → loadValue s % epochLen s = 0 → 
    Answers (.loadAtSync src) s fun t => t.clk.load = some (loadValue s) ∧ fld t Reg.CT_CMD 7 4 = 0 ∧ t.tick = s.tick ∧ t = { s with out := t.out, regs := t.regs, parBad := t.parBad, quay := { s.quay with msix := t.quay.msix }, fleet := { s.fleet with tickPend := t.fleet.tickPend, tickFail := t.fleet.tickFail }, clk := { s.clk with load := t.clk.load } } ∧ OtherRegs s t [Reg.CT_CMD] [Reg.INT_STAT, Reg.ERR_SYND, Reg.ERR_ADDR] []) ∧
  (∀ (s : State) (src : Src), Reaches s src Reg.CT_CMD → s.clk.load = none → clkSrc s = 0 → 
    Answers (.loadAtSync src) s fun t => t.clk.load = none ∧ fld t Reg.CT_CMD 7 4 = 3 ∧ t.tick = s.tick ∧ t = { s with out := t.out, regs := t.regs, parBad := t.parBad, quay := { s.quay with msix := t.quay.msix }, fleet := { s.fleet with tickPend := t.fleet.tickPend, tickFail := t.fleet.tickFail }, clk := { s.clk with load := t.clk.load } } ∧ OtherRegs s t [Reg.CT_CMD] [Reg.INT_STAT, Reg.ERR_SYND, Reg.ERR_ADDR] []) ∧
  (∀ (s : State) (src : Src), Reaches s src Reg.CT_CMD → s.clk.load = none → clkSrc s ≠ 0 → loadValue s % epochLen s ≠ 0 → 
    Answers (.loadAtSync src) s fun t => t.clk.load = none ∧ fld t Reg.CT_CMD 7 4 = 2 ∧ t.tick = s.tick ∧ t = { s with out := t.out, regs := t.regs, parBad := t.parBad, quay := { s.quay with msix := t.quay.msix }, fleet := { s.fleet with tickPend := t.fleet.tickPend, tickFail := t.fleet.tickFail }, clk := { s.clk with load := t.clk.load } } ∧ OtherRegs s t [Reg.CT_CMD] [Reg.INT_STAT, Reg.ERR_SYND, Reg.ERR_ADDR] []) ∧
  (∀ (s : State) (src : Src), Reaches s src Reg.CT_CMD → s.clk.load.isSome = true → rbit s (rk 4 Reg.ERR_SYND) 23 = false → 
    Answers (.loadNow src) s fun t => t.clk = s.clk ∧ fld t (rk 4 Reg.ERR_SYND) 31 24 = 0x11 ∧ reg t (rk 4 Reg.ERR_ADDR) = 1 ∧ t.tick = s.tick ∧ t = { s with out := t.out, tick := t.tick, regs := t.regs, parBad := t.parBad, wins := t.wins, quay := { s.quay with queues := t.quay.queues, doms := t.quay.doms, domRR := t.quay.domRR, ctxs := t.quay.ctxs, msix := t.quay.msix }, units := { s.units with cipher := t.units.cipher, hash := t.units.hash, arc := t.units.arc }, kerb := { s.kerb with reports := t.kerb.reports }, fnt := { s.fnt with state := t.fnt.state, absorbed := t.fnt.absorbed, credit := t.fnt.credit, seed := t.fnt.seed, int := t.fnt.int, sw := t.fnt.sw, katBusy := t.fnt.katBusy, draws := t.fnt.draws, part := t.fnt.part, got := t.fnt.got, rng := t.fnt.rng, rngDone := t.fnt.rngDone, rngDead := t.fnt.rngDead }, xing := { s.xing with mirror := t.xing.mirror, sess := t.xing.sess }, fleet := { s.fleet with tickPend := t.fleet.tickPend, tickFail := t.fleet.tickFail }, clk := { s.clk with lock := t.clk.lock, load := t.clk.load, syncOut := t.clk.syncOut } } ∧ OtherRegs s t [Reg.CT_CMD, Reg.QUAY_RPL_HITS, Reg.RBT_LATE, Reg.COMP_AUTH_FAIL, Reg.COMP_DONE] [Reg.PAGE_STAT, Reg.INT_STAT, Reg.ERR_SYND, Reg.ERR_ADDR, Reg.FAULT_CNT, Reg.QUAY_LINK_STAT] []) ∧
  (∀ (s : State) (src : Src), Reaches s src Reg.CT_CMD → s.clk.load.isSome = true → rbit s (rk 4 Reg.ERR_SYND) 23 = false → 
    Answers (.loadAtSync src) s fun t => t.clk = s.clk ∧ fld t (rk 4 Reg.ERR_SYND) 31 24 = 0x11 ∧ reg t (rk 4 Reg.ERR_ADDR) = 2 ∧ t.tick = s.tick ∧ t = { s with out := t.out, regs := t.regs, parBad := t.parBad, quay := { s.quay with msix := t.quay.msix }, fleet := { s.fleet with tickPend := t.fleet.tickPend, tickFail := t.fleet.tickFail }, clk := { s.clk with load := t.clk.load } } ∧ OtherRegs s t [Reg.CT_CMD] [Reg.INT_STAT, Reg.ERR_SYND, Reg.ERR_ADDR] []) ∧
  (∀ (s : State) (src : Src), Reaches s src Reg.CT_CMD → 
    Answers (.cancelLoad src) s fun t => t.clk.load = none ∧ fld t Reg.CT_CMD 7 4 = (if s.clk.load.isSome then 4 else 5) ∧ t.tick = s.tick ∧ t = { s with out := t.out, regs := t.regs, parBad := t.parBad, quay := { s.quay with msix := t.quay.msix }, fleet := { s.fleet with tickPend := t.fleet.tickPend, tickFail := t.fleet.tickFail }, clk := { s.clk with load := t.clk.load } } ∧ OtherRegs s t [Reg.CT_CMD] [Reg.INT_STAT, Reg.ERR_SYND, Reg.ERR_ADDR] [])

/-- START of a HALTED core outside lockdown runs it at START_PC. HALT of a running or waiting core halts it at once at a boundary, and otherwise asks it to halt at its next one. RESET of a core that is not LOADING gives its registers their reset values and zeroises its local RAM and nothing else, and when that ends it is HALTED. A command the core's state or lockdown does not allow changes no core and is recorded with CODE 0x11. A software interrupt sets the bits raised; SV_SMP_CTRL.CLEAR empties the sampling buffer. Each clause names what may change beside; every other part of the state and every other register is as before. Forms whose completion it states: ixmCtrlStart, ixmCtrlHalt, ixmCtrlReset, coreResetDone, ixmSwiRaise, svSmpClear. (R361, R362, R363, R373, R376, R396, R428) -/
def Obligations.CoreControl : Prop :=
  (∀ (s : State) (src : Src) (c : CoreNo), Reaches s src (ck c.val Reg.IXM_CTRL) → (coreAt s c.val).state = 1 → s.kerb.lockdown = false → 
    Answers (.ixmCtrlStart src c) s fun t => (coreAt t c.val).state = 2 ∧ cregs t c.val = { cregs s c.val with pc := reg s (ck c.val Reg.IXM_START_PC) } ∧ (∀ n, n ≠ c.val → coreAt t n = coreAt s n) ∧ t = { s with out := t.out, regs := t.regs, parBad := t.parBad, quay := { s.quay with msix := t.quay.msix }, cores := t.cores } ∧ OtherRegs s t [] [Reg.INT_STAT, Reg.ERR_SYND, Reg.ERR_ADDR] []) ∧
  (∀ (s : State) (src : Src) (c : CoreNo), Reaches s src (ck c.val Reg.IXM_CTRL) → (coreAt s c.val).state = 2 ∨ (coreAt s c.val).state = 3 ∧ wfiDone s c.val = false → (coreAt s c.val).slot = none → (coreAt s c.val).busy = false → 
    Answers (.ixmCtrlHalt src c) s fun t => (coreAt t c.val).state = 1 ∧ cregs t c.val = cregs s c.val ∧ (∀ n, n ≠ c.val → coreAt t n = coreAt s n) ∧ t = { s with out := t.out, free := t.free, regs := t.regs, parBad := t.parBad, quay := { s.quay with msix := t.quay.msix }, cores := t.cores } ∧ OtherRegs s t [] [Reg.INT_STAT, Reg.ERR_SYND, Reg.ERR_ADDR, Reg.SV_CNT, Reg.SV_CNT + 4, Reg.SV_CNT + 8, Reg.SV_CNT + 12, Reg.SV_CNT + 16, Reg.SV_CNT + 20, Reg.SV_CNT + 24, Reg.SV_CNT + 28, Reg.SV_OVF, Reg.SV_SMP_STAT] []) ∧
  (∀ (s : State) (src : Src) (c : CoreNo), Reaches s src (ck c.val Reg.IXM_CTRL) → (coreAt s c.val).state = 2 ∨ (coreAt s c.val).state = 3 → (coreAt s c.val).slot ≠ none ∨ (coreAt s c.val).busy = true → 
    Answers (.ixmCtrlHalt src c) s fun t => coreAt t c.val = { coreAt s c.val with haltReq := true } ∧ (∀ n, n ≠ c.val → coreAt t n = coreAt s n) ∧ t = { s with out := t.out, free := t.free, regs := t.regs, parBad := t.parBad, quay := { s.quay with msix := t.quay.msix }, cores := t.cores } ∧ OtherRegs s t [] [Reg.INT_STAT, Reg.ERR_SYND, Reg.ERR_ADDR, Reg.SV_CNT, Reg.SV_CNT + 4, Reg.SV_CNT + 8, Reg.SV_CNT + 12, Reg.SV_CNT + 16, Reg.SV_CNT + 20, Reg.SV_CNT + 24, Reg.SV_CNT + 28, Reg.SV_OVF, Reg.SV_SMP_STAT] []) ∧
  (∀ (s : State) (src : Src) (c : CoreNo), Reaches s src (ck c.val Reg.IXM_CTRL) → (coreAt s c.val).state ≠ 4 → 
    Answers (.ixmCtrlReset src c) s fun t => coreAt t c.val = { state := 0, samples := (coreAt s c.val).samples } ∧ (∀ k : Fin 8, reg t (ck c.val (Reg.SV_CNT + 4 * k.val)) = 0) ∧ (∀ a, memByte t a = if lramBase c.val ≤ a ∧ a < lramBase c.val + 0x40000 then 0 else memByte s a) ∧ (∀ n, n ≠ c.val → coreAt t n = coreAt s n) ∧ t = { s with out := t.out, regs := t.regs, parBad := t.parBad, quay := { s.quay with msix := t.quay.msix }, cores := t.cores, chk := { s.chk with eccBad := t.chk.eccBad }, mem := t.mem } ∧ OtherRegs s t [] [Reg.INT_STAT, Reg.ERR_SYND, Reg.ERR_ADDR, Reg.LANE_STOPS, Reg.SV_CNT, Reg.SV_CNT + 4, Reg.SV_CNT + 8, Reg.SV_CNT + 12, Reg.SV_CNT + 16, Reg.SV_CNT + 20, Reg.SV_CNT + 24, Reg.SV_CNT + 28] []) ∧
  (∀ (s : State) (src : Src) (c : CoreNo), Reaches s src (ck c.val Reg.IXM_CTRL) → (coreAt s c.val).state ≠ 1 ∨ s.kerb.lockdown = true → rbit s (rk (corePage c.val) Reg.ERR_SYND) 23 = false → 
    Answers (.ixmCtrlStart src c) s fun t => t.cores = s.cores ∧ fld t (rk (corePage c.val) Reg.ERR_SYND) 31 24 = 0x11 ∧ reg t (rk (corePage c.val) Reg.ERR_ADDR) = 1 ∧ t = { s with out := t.out, regs := t.regs, parBad := t.parBad, quay := { s.quay with msix := t.quay.msix }, cores := t.cores } ∧ OtherRegs s t [] [Reg.INT_STAT, Reg.ERR_SYND, Reg.ERR_ADDR] []) ∧
  (∀ (s : State) (src : Src) (c : CoreNo), Reaches s src (ck c.val Reg.IXM_CTRL) → (coreAt s c.val).state ≠ 2 ∧ (coreAt s c.val).state ≠ 3 → rbit s (rk (corePage c.val) Reg.ERR_SYND) 23 = false → 
    Answers (.ixmCtrlHalt src c) s fun t => t.cores = s.cores ∧ fld t (rk (corePage c.val) Reg.ERR_SYND) 31 24 = 0x11 ∧ reg t (rk (corePage c.val) Reg.ERR_ADDR) = 2 ∧ t = { s with out := t.out, free := t.free, regs := t.regs, parBad := t.parBad, quay := { s.quay with msix := t.quay.msix }, cores := t.cores } ∧ OtherRegs s t [] [Reg.INT_STAT, Reg.ERR_SYND, Reg.ERR_ADDR, Reg.SV_CNT, Reg.SV_CNT + 4, Reg.SV_CNT + 8, Reg.SV_CNT + 12, Reg.SV_CNT + 16, Reg.SV_CNT + 20, Reg.SV_CNT + 24, Reg.SV_CNT + 28, Reg.SV_OVF, Reg.SV_SMP_STAT] []) ∧
  (∀ (s : State) (src : Src) (c : CoreNo), Reaches s src (ck c.val Reg.IXM_CTRL) → (coreAt s c.val).state = 4 → rbit s (rk (corePage c.val) Reg.ERR_SYND) 23 = false → 
    Answers (.ixmCtrlReset src c) s fun t => t.cores = s.cores ∧ fld t (rk (corePage c.val) Reg.ERR_SYND) 31 24 = 0x11 ∧ reg t (rk (corePage c.val) Reg.ERR_ADDR) = 3 ∧ t.mem = s.mem ∧ t = { s with out := t.out, regs := t.regs, parBad := t.parBad, quay := { s.quay with msix := t.quay.msix }, cores := t.cores, chk := { s.chk with eccBad := t.chk.eccBad }, mem := t.mem } ∧ OtherRegs s t [] [Reg.INT_STAT, Reg.ERR_SYND, Reg.ERR_ADDR, Reg.LANE_STOPS, Reg.SV_CNT, Reg.SV_CNT + 4, Reg.SV_CNT + 8, Reg.SV_CNT + 12, Reg.SV_CNT + 16, Reg.SV_CNT + 20, Reg.SV_CNT + 24, Reg.SV_CNT + 28] []) ∧
  (∀ (s : State) (c : CoreNo), (coreAt s c.val).state = 0 → 
    Answers (.coreResetDone c) s fun t => (coreAt t c.val).state = 1 ∧ cregs t c.val = cregs s c.val ∧ t = { s with out := t.out, regs := t.regs, parBad := t.parBad, quay := { s.quay with msix := t.quay.msix }, cores := t.cores } ∧ OtherRegs s t [] [Reg.INT_STAT] []) ∧
  (∀ (s : State) (c : CoreNo), (coreAt s c.val).state ≠ 0 → 
    Answers (.coreResetDone c) s fun t => t = s) ∧
  (∀ (s : State) (src : Src) (c : CoreNo) (m : BitVec 16), Reaches s src (ck c.val Reg.IXM_SWI_RAISE) → 
    Answers (.ixmSwiRaise src c m) s fun t => reg t (ck c.val Reg.IXM_SWI_PEND) = reg s (ck c.val Reg.IXM_SWI_PEND) ||| BitVec.ofNat 32 m.toNat ∧ t.cores = s.cores ∧ t = { s with out := t.out, regs := t.regs, parBad := t.parBad, quay := { s.quay with msix := t.quay.msix } } ∧ OtherRegs s t [] [Reg.INT_STAT, Reg.ERR_SYND, Reg.ERR_ADDR, Reg.IXM_SWI_PEND] []) ∧
  (∀ (s : State) (src : Src) (c : CoreNo), Reaches s src (ck c.val Reg.SV_SMP_CTRL) → 
    Answers (.svSmpClear src c) s fun t => (coreAt t c.val).samples = [] ∧ smpCount t c.val = 0 ∧ smpNext t c.val = 0 ∧ cregs t c.val = cregs s c.val ∧ t = { s with out := t.out, free := t.free, regs := t.regs, parBad := t.parBad, quay := { s.quay with msix := t.quay.msix }, cores := t.cores } ∧ OtherRegs s t [] [Reg.INT_STAT, Reg.ERR_SYND, Reg.ERR_ADDR, Reg.SV_CNT, Reg.SV_CNT + 4, Reg.SV_CNT + 8, Reg.SV_CNT + 12, Reg.SV_CNT + 16, Reg.SV_CNT + 20, Reg.SV_CNT + 24, Reg.SV_CNT + 28, Reg.SV_OVF, Reg.SV_SMP_STAT] [])

/-- LOAD and LOAD_START, while no load or autoload runs, from the host or the shared SRAM: a load ends with the result of the first test of the header that fails: it arrives whole, its cores are HALTED, the lifecycle state is open, its fields and its binding are right, an Arcade unit is powered. Past these the load waits while that unit is not idle; where it is, the load goes on with its cores LOADING when signature and SVN pass, and otherwise ends with RESULT 3 or 4, no core changed. A load from the card waits for a running Depot command; with none running the Depot reads its first block, and a card that is not READY ends it with STATE or SOURCE. A load written while one runs is recorded with CODE 0x12. The end of a load: a body not whole gives RESULT 6, a wrong hash 3, a floor not confirmed 8, each with the cores HALTED; otherwise RESULT is 0, each core HALTED at the entry point, or RUNNING for LOAD_START outside lockdown, and a single segment of a body that has come at once stands at each of its targets, with no byte outside the targets of the segments changed; a failure changes no byte outside them and the local RAM of the cores. A body that the card still owes leaves the load as it is, and a header that a host still owes is tested when it comes. Each clause names what may change beside; every other part of the state and every other register is as before. Forms whose completion it states: load, loadStart, imageLoadDone. (R357, R358, R359, R360, R361, R362, R428, R485) -/
def Obligations.ImageLoads : Prop :=
  (∀ (s : State) (src : Src) (img : ImgIn) (u : Nat), Reaches s src Reg.IXM_LD_CMD → s.load = none → fld s Reg.BOOT_STAT 7 0 ≠ 6 → (loadOp s false false).src ≠ 1 → (if (loadIn s (loadOp s false false) 0 256 img).1.length < 256 then (if loadClosed s = true then some 1 else some 6) else if (hCores (loadIn s (loadOp s false false) 0 256 img).1).any (fun c => decide ((coreAt s c).state ≠ 1)) = true then some 5 else if loadClosed s = true then some 1 else if headerOk (loadIn s (loadOp s false false) 0 256 img).1 = false then some 2 else if bindingOk s (loadIn s (loadOp s false false) 0 256 img).1 = false then some 9 else if arcPick s = none then some 7 else none) = none → arcPick s = some u → arcIdle s u = true → 
    Answers (.load src img) s fun t => (if imageSigned s (loadIn s (loadOp s false false) 0 256 img).1 = true ∧ svnFloor s (vendorState s) ≤ hSvn (loadIn s (loadOp s false false) 0 256 img).1 then t.load = some { (loadOp s false false) with hdr := some (loadIn s (loadOp s false false) 0 256 img).1, arc := false, put := 0x100, vendor := vendorState s } ∧ ∀ c ∈ hCores (loadIn s (loadOp s false false) 0 256 img).1, (coreAt t c).state = 4 else t.load = none ∧ t.cores = s.cores ∧ fld t Reg.IXM_LD_CMD 7 4 = (if imageSigned s (loadIn s (loadOp s false false) 0 256 img).1 = true then 4 else 3)) ∧ t = { s with out := t.out, regs := t.regs, parBad := t.parBad, wins := t.wins, quay := { s.quay with msix := t.quay.msix }, kerb := { s.kerb with reports := t.kerb.reports }, fnt := { s.fnt with state := t.fnt.state, absorbed := t.fnt.absorbed, credit := t.fnt.credit, seed := t.fnt.seed, int := t.fnt.int, sw := t.fnt.sw, katBusy := t.fnt.katBusy, part := t.fnt.part, rngDead := t.fnt.rngDead }, cores := t.cores, load := t.load, autoload := t.autoload, chk := { s.chk with eccBad := t.chk.eccBad }, sd := { s.sd with op := t.sd.op, clk := t.sd.clk }, mem := t.mem } ∧ OtherRegs s t [Reg.BOOT_STAT, Reg.IXM_LD_SRC, Reg.IXM_LD_ADDR_LO, Reg.IXM_LD_CMD, Reg.IXM_LD_INFO, Reg.CHECKPOINT_SRAM_ECC] [Reg.PAGE_STAT, Reg.INT_STAT, Reg.ERR_SYND, Reg.ERR_ADDR, Reg.FAULT_CNT, Reg.QUAY_LINK_ERR] []) ∧
  (∀ (s : State) (src : Src) (img : ImgIn) (r : Nat), Reaches s src Reg.IXM_LD_CMD → s.load = none → fld s Reg.BOOT_STAT 7 0 ≠ 6 → (loadOp s false false).src ≠ 1 → (if (loadIn s (loadOp s false false) 0 256 img).1.length < 256 then (if loadClosed s = true then some 1 else some 6) else if (hCores (loadIn s (loadOp s false false) 0 256 img).1).any (fun c => decide ((coreAt s c).state ≠ 1)) = true then some 5 else if loadClosed s = true then some 1 else if headerOk (loadIn s (loadOp s false false) 0 256 img).1 = false then some 2 else if bindingOk s (loadIn s (loadOp s false false) 0 256 img).1 = false then some 9 else if arcPick s = none then some 7 else none) = some r → 
    Answers (.load src img) s fun t => t.load = none ∧ t.cores = s.cores ∧ fld t Reg.IXM_LD_CMD 7 4 = r ∧ t.mem = s.mem ∧ t = { s with out := t.out, regs := t.regs, parBad := t.parBad, wins := t.wins, quay := { s.quay with msix := t.quay.msix }, kerb := { s.kerb with reports := t.kerb.reports }, fnt := { s.fnt with state := t.fnt.state, absorbed := t.fnt.absorbed, credit := t.fnt.credit, seed := t.fnt.seed, int := t.fnt.int, sw := t.fnt.sw, katBusy := t.fnt.katBusy, part := t.fnt.part, rngDead := t.fnt.rngDead }, cores := t.cores, load := t.load, autoload := t.autoload, chk := { s.chk with eccBad := t.chk.eccBad }, sd := { s.sd with op := t.sd.op, clk := t.sd.clk }, mem := t.mem } ∧ OtherRegs s t [Reg.BOOT_STAT, Reg.IXM_LD_SRC, Reg.IXM_LD_ADDR_LO, Reg.IXM_LD_CMD, Reg.IXM_LD_INFO, Reg.CHECKPOINT_SRAM_ECC] [Reg.PAGE_STAT, Reg.INT_STAT, Reg.ERR_SYND, Reg.ERR_ADDR, Reg.FAULT_CNT, Reg.QUAY_LINK_ERR] []) ∧
  (∀ (s : State) (src : Src) (img : ImgIn) (u : Nat), Reaches s src Reg.IXM_LD_CMD → s.load = none → fld s Reg.BOOT_STAT 7 0 ≠ 6 → (loadOp s false false).src ≠ 1 → (if (loadIn s (loadOp s false false) 0 256 img).1.length < 256 then (if loadClosed s = true then some 1 else some 6) else if (hCores (loadIn s (loadOp s false false) 0 256 img).1).any (fun c => decide ((coreAt s c).state ≠ 1)) = true then some 5 else if loadClosed s = true then some 1 else if headerOk (loadIn s (loadOp s false false) 0 256 img).1 = false then some 2 else if bindingOk s (loadIn s (loadOp s false false) 0 256 img).1 = false then some 9 else if arcPick s = none then some 7 else none) = none → arcPick s = some u → arcIdle s u = false → 
    Answers (.load src img) s fun t => t.load = some { (loadOp s false false) with hdr := some (loadIn s (loadOp s false false) 0 256 img).1, arc := true, put := 0x100, vendor := vendorState s } ∧ t.cores = s.cores ∧ t = { s with out := t.out, regs := t.regs, parBad := t.parBad, wins := t.wins, quay := { s.quay with msix := t.quay.msix }, kerb := { s.kerb with reports := t.kerb.reports }, fnt := { s.fnt with state := t.fnt.state, absorbed := t.fnt.absorbed, credit := t.fnt.credit, seed := t.fnt.seed, int := t.fnt.int, sw := t.fnt.sw, katBusy := t.fnt.katBusy, part := t.fnt.part, rngDead := t.fnt.rngDead }, cores := t.cores, load := t.load, autoload := t.autoload, chk := { s.chk with eccBad := t.chk.eccBad }, sd := { s.sd with op := t.sd.op, clk := t.sd.clk }, mem := t.mem } ∧ OtherRegs s t [Reg.BOOT_STAT, Reg.IXM_LD_SRC, Reg.IXM_LD_ADDR_LO, Reg.IXM_LD_CMD, Reg.IXM_LD_INFO, Reg.CHECKPOINT_SRAM_ECC] [Reg.PAGE_STAT, Reg.INT_STAT, Reg.ERR_SYND, Reg.ERR_ADDR, Reg.FAULT_CNT, Reg.QUAY_LINK_ERR] []) ∧
  (∀ (s : State) (src : Src) (img : ImgIn), Reaches s src Reg.IXM_LD_CMD → s.load = none → fld s Reg.BOOT_STAT 7 0 ≠ 6 → (loadOp s false false).src = 1 → s.sd.op.isSome = true → 
    Answers (.load src img) s fun t => t.load = some { (loadOp s false false) with wait := true } ∧ t.cores = s.cores ∧ t.mem = s.mem ∧ t = { s with out := t.out, regs := t.regs, parBad := t.parBad, wins := t.wins, quay := { s.quay with msix := t.quay.msix }, kerb := { s.kerb with reports := t.kerb.reports }, fnt := { s.fnt with state := t.fnt.state, absorbed := t.fnt.absorbed, credit := t.fnt.credit, seed := t.fnt.seed, int := t.fnt.int, sw := t.fnt.sw, katBusy := t.fnt.katBusy, part := t.fnt.part, rngDead := t.fnt.rngDead }, cores := t.cores, load := t.load, autoload := t.autoload, chk := { s.chk with eccBad := t.chk.eccBad }, sd := { s.sd with op := t.sd.op, clk := t.sd.clk }, mem := t.mem } ∧ OtherRegs s t [Reg.BOOT_STAT, Reg.IXM_LD_SRC, Reg.IXM_LD_ADDR_LO, Reg.IXM_LD_CMD, Reg.IXM_LD_INFO, Reg.CHECKPOINT_SRAM_ECC] [Reg.PAGE_STAT, Reg.INT_STAT, Reg.ERR_SYND, Reg.ERR_ADDR, Reg.FAULT_CNT, Reg.QUAY_LINK_ERR] []) ∧
  (∀ (s : State) (src : Src) (img : ImgIn), Reaches s src Reg.IXM_LD_CMD → s.load = none → fld s Reg.BOOT_STAT 7 0 ≠ 6 → (loadOp s false false).src = 1 → s.sd.op = none → s.sd.retune = false → (sdReady s && domOn s 23 && decide ((loadOp s false false).addr + 1 ≤ fld s Reg.DEPOT_CAP 22 0 * 1024)) = true → 
    Answers (.load src img) s fun t => t.load = some (loadOp s false false) ∧ t.sd.op = some { kind := .image, lba := (loadOp s false false).addr, count := 1, run := 1, idx := 17, arg := (loadOp s false false).addr } ∧ t.cores = s.cores ∧ t.mem = s.mem ∧ t = { s with out := t.out, regs := t.regs, parBad := t.parBad, wins := t.wins, quay := { s.quay with msix := t.quay.msix }, kerb := { s.kerb with reports := t.kerb.reports }, fnt := { s.fnt with state := t.fnt.state, absorbed := t.fnt.absorbed, credit := t.fnt.credit, seed := t.fnt.seed, int := t.fnt.int, sw := t.fnt.sw, katBusy := t.fnt.katBusy, part := t.fnt.part, rngDead := t.fnt.rngDead }, cores := t.cores, load := t.load, autoload := t.autoload, chk := { s.chk with eccBad := t.chk.eccBad }, sd := { s.sd with op := t.sd.op, clk := t.sd.clk }, mem := t.mem } ∧ OtherRegs s t [Reg.BOOT_STAT, Reg.IXM_LD_SRC, Reg.IXM_LD_ADDR_LO, Reg.IXM_LD_CMD, Reg.IXM_LD_INFO, Reg.CHECKPOINT_SRAM_ECC] [Reg.PAGE_STAT, Reg.INT_STAT, Reg.ERR_SYND, Reg.ERR_ADDR, Reg.FAULT_CNT, Reg.QUAY_LINK_ERR] []) ∧
  (∀ (s : State) (src : Src) (img : ImgIn), Reaches s src Reg.IXM_LD_CMD → s.load = none → fld s Reg.BOOT_STAT 7 0 ≠ 6 → (loadOp s false false).src = 1 → s.sd.op = none → (sdReady s && domOn s 23 && decide ((loadOp s false false).addr + 1 ≤ fld s Reg.DEPOT_CAP 22 0 * 1024)) = false → 
    Answers (.load src img) s fun t => t.load = none ∧ t.cores = s.cores ∧ fld t Reg.IXM_LD_CMD 7 4 = (if loadClosed s = true then 1 else 6) ∧ t.mem = s.mem ∧ t = { s with out := t.out, regs := t.regs, parBad := t.parBad, wins := t.wins, quay := { s.quay with msix := t.quay.msix }, kerb := { s.kerb with reports := t.kerb.reports }, fnt := { s.fnt with state := t.fnt.state, absorbed := t.fnt.absorbed, credit := t.fnt.credit, seed := t.fnt.seed, int := t.fnt.int, sw := t.fnt.sw, katBusy := t.fnt.katBusy, part := t.fnt.part, rngDead := t.fnt.rngDead }, cores := t.cores, load := t.load, autoload := t.autoload, chk := { s.chk with eccBad := t.chk.eccBad }, sd := { s.sd with op := t.sd.op, clk := t.sd.clk }, mem := t.mem } ∧ OtherRegs s t [Reg.BOOT_STAT, Reg.IXM_LD_SRC, Reg.IXM_LD_ADDR_LO, Reg.IXM_LD_CMD, Reg.IXM_LD_INFO, Reg.CHECKPOINT_SRAM_ECC] [Reg.PAGE_STAT, Reg.INT_STAT, Reg.ERR_SYND, Reg.ERR_ADDR, Reg.FAULT_CNT, Reg.QUAY_LINK_ERR] []) ∧
  (∀ (s : State) (src : Src) (img : ImgIn), Reaches s src Reg.IXM_LD_CMD → s.load.any (fun o => o.src != 1) = true → rbit s (rk 0x30 Reg.ERR_SYND) 23 = false → 
    Answers (.load src img) s fun t => t.load = s.load ∧ t.cores = s.cores ∧ fld t (rk 0x30 Reg.ERR_SYND) 31 24 = 0x12 ∧ reg t (rk 0x30 Reg.ERR_ADDR) = 1 ∧ t.mem = s.mem ∧ t = { s with out := t.out, regs := t.regs, parBad := t.parBad, wins := t.wins, quay := { s.quay with msix := t.quay.msix }, kerb := { s.kerb with reports := t.kerb.reports }, fnt := { s.fnt with state := t.fnt.state, absorbed := t.fnt.absorbed, credit := t.fnt.credit, seed := t.fnt.seed, int := t.fnt.int, sw := t.fnt.sw, katBusy := t.fnt.katBusy, part := t.fnt.part, rngDead := t.fnt.rngDead }, cores := t.cores, load := t.load, autoload := t.autoload, chk := { s.chk with eccBad := t.chk.eccBad }, sd := { s.sd with op := t.sd.op, clk := t.sd.clk }, mem := t.mem } ∧ OtherRegs s t [Reg.BOOT_STAT, Reg.IXM_LD_SRC, Reg.IXM_LD_ADDR_LO, Reg.IXM_LD_CMD, Reg.IXM_LD_INFO, Reg.CHECKPOINT_SRAM_ECC] [Reg.PAGE_STAT, Reg.INT_STAT, Reg.ERR_SYND, Reg.ERR_ADDR, Reg.FAULT_CNT, Reg.QUAY_LINK_ERR] []) ∧
  (∀ (s : State) (src : Src) (img : ImgIn) (u : Nat), Reaches s src Reg.IXM_LD_CMD → s.load = none → fld s Reg.BOOT_STAT 7 0 ≠ 6 → (loadOp s true false).src ≠ 1 → (if (loadIn s (loadOp s true false) 0 256 img).1.length < 256 then (if loadClosed s = true then some 1 else some 6) else if (hCores (loadIn s (loadOp s true false) 0 256 img).1).any (fun c => decide ((coreAt s c).state ≠ 1)) = true then some 5 else if loadClosed s = true then some 1 else if headerOk (loadIn s (loadOp s true false) 0 256 img).1 = false then some 2 else if bindingOk s (loadIn s (loadOp s true false) 0 256 img).1 = false then some 9 else if arcPick s = none then some 7 else none) = none → arcPick s = some u → arcIdle s u = true → 
    Answers (.loadStart src img) s fun t => (if imageSigned s (loadIn s (loadOp s true false) 0 256 img).1 = true ∧ svnFloor s (vendorState s) ≤ hSvn (loadIn s (loadOp s true false) 0 256 img).1 then t.load = some { (loadOp s true false) with hdr := some (loadIn s (loadOp s true false) 0 256 img).1, arc := false, put := 0x100, vendor := vendorState s } ∧ ∀ c ∈ hCores (loadIn s (loadOp s true false) 0 256 img).1, (coreAt t c).state = 4 else t.load = none ∧ t.cores = s.cores ∧ fld t Reg.IXM_LD_CMD 7 4 = (if imageSigned s (loadIn s (loadOp s true false) 0 256 img).1 = true then 4 else 3)) ∧ t = { s with out := t.out, regs := t.regs, parBad := t.parBad, wins := t.wins, quay := { s.quay with msix := t.quay.msix }, kerb := { s.kerb with reports := t.kerb.reports }, fnt := { s.fnt with state := t.fnt.state, absorbed := t.fnt.absorbed, credit := t.fnt.credit, seed := t.fnt.seed, int := t.fnt.int, sw := t.fnt.sw, katBusy := t.fnt.katBusy, part := t.fnt.part, rngDead := t.fnt.rngDead }, cores := t.cores, load := t.load, autoload := t.autoload, chk := { s.chk with eccBad := t.chk.eccBad }, sd := { s.sd with op := t.sd.op, clk := t.sd.clk }, mem := t.mem } ∧ OtherRegs s t [Reg.BOOT_STAT, Reg.IXM_LD_SRC, Reg.IXM_LD_ADDR_LO, Reg.IXM_LD_CMD, Reg.IXM_LD_INFO, Reg.CHECKPOINT_SRAM_ECC] [Reg.PAGE_STAT, Reg.INT_STAT, Reg.ERR_SYND, Reg.ERR_ADDR, Reg.FAULT_CNT, Reg.QUAY_LINK_ERR] []) ∧
  (∀ (s : State) (src : Src) (img : ImgIn) (r : Nat), Reaches s src Reg.IXM_LD_CMD → s.load = none → fld s Reg.BOOT_STAT 7 0 ≠ 6 → (loadOp s true false).src ≠ 1 → (if (loadIn s (loadOp s true false) 0 256 img).1.length < 256 then (if loadClosed s = true then some 1 else some 6) else if (hCores (loadIn s (loadOp s true false) 0 256 img).1).any (fun c => decide ((coreAt s c).state ≠ 1)) = true then some 5 else if loadClosed s = true then some 1 else if headerOk (loadIn s (loadOp s true false) 0 256 img).1 = false then some 2 else if bindingOk s (loadIn s (loadOp s true false) 0 256 img).1 = false then some 9 else if arcPick s = none then some 7 else none) = some r → 
    Answers (.loadStart src img) s fun t => t.load = none ∧ t.cores = s.cores ∧ fld t Reg.IXM_LD_CMD 7 4 = r ∧ t.mem = s.mem ∧ t = { s with out := t.out, regs := t.regs, parBad := t.parBad, wins := t.wins, quay := { s.quay with msix := t.quay.msix }, kerb := { s.kerb with reports := t.kerb.reports }, fnt := { s.fnt with state := t.fnt.state, absorbed := t.fnt.absorbed, credit := t.fnt.credit, seed := t.fnt.seed, int := t.fnt.int, sw := t.fnt.sw, katBusy := t.fnt.katBusy, part := t.fnt.part, rngDead := t.fnt.rngDead }, cores := t.cores, load := t.load, autoload := t.autoload, chk := { s.chk with eccBad := t.chk.eccBad }, sd := { s.sd with op := t.sd.op, clk := t.sd.clk }, mem := t.mem } ∧ OtherRegs s t [Reg.BOOT_STAT, Reg.IXM_LD_SRC, Reg.IXM_LD_ADDR_LO, Reg.IXM_LD_CMD, Reg.IXM_LD_INFO, Reg.CHECKPOINT_SRAM_ECC] [Reg.PAGE_STAT, Reg.INT_STAT, Reg.ERR_SYND, Reg.ERR_ADDR, Reg.FAULT_CNT, Reg.QUAY_LINK_ERR] []) ∧
  (∀ (s : State) (src : Src) (img : ImgIn) (u : Nat), Reaches s src Reg.IXM_LD_CMD → s.load = none → fld s Reg.BOOT_STAT 7 0 ≠ 6 → (loadOp s true false).src ≠ 1 → (if (loadIn s (loadOp s true false) 0 256 img).1.length < 256 then (if loadClosed s = true then some 1 else some 6) else if (hCores (loadIn s (loadOp s true false) 0 256 img).1).any (fun c => decide ((coreAt s c).state ≠ 1)) = true then some 5 else if loadClosed s = true then some 1 else if headerOk (loadIn s (loadOp s true false) 0 256 img).1 = false then some 2 else if bindingOk s (loadIn s (loadOp s true false) 0 256 img).1 = false then some 9 else if arcPick s = none then some 7 else none) = none → arcPick s = some u → arcIdle s u = false → 
    Answers (.loadStart src img) s fun t => t.load = some { (loadOp s true false) with hdr := some (loadIn s (loadOp s true false) 0 256 img).1, arc := true, put := 0x100, vendor := vendorState s } ∧ t.cores = s.cores ∧ t = { s with out := t.out, regs := t.regs, parBad := t.parBad, wins := t.wins, quay := { s.quay with msix := t.quay.msix }, kerb := { s.kerb with reports := t.kerb.reports }, fnt := { s.fnt with state := t.fnt.state, absorbed := t.fnt.absorbed, credit := t.fnt.credit, seed := t.fnt.seed, int := t.fnt.int, sw := t.fnt.sw, katBusy := t.fnt.katBusy, part := t.fnt.part, rngDead := t.fnt.rngDead }, cores := t.cores, load := t.load, autoload := t.autoload, chk := { s.chk with eccBad := t.chk.eccBad }, sd := { s.sd with op := t.sd.op, clk := t.sd.clk }, mem := t.mem } ∧ OtherRegs s t [Reg.BOOT_STAT, Reg.IXM_LD_SRC, Reg.IXM_LD_ADDR_LO, Reg.IXM_LD_CMD, Reg.IXM_LD_INFO, Reg.CHECKPOINT_SRAM_ECC] [Reg.PAGE_STAT, Reg.INT_STAT, Reg.ERR_SYND, Reg.ERR_ADDR, Reg.FAULT_CNT, Reg.QUAY_LINK_ERR] []) ∧
  (∀ (s : State) (src : Src) (img : ImgIn), Reaches s src Reg.IXM_LD_CMD → s.load = none → fld s Reg.BOOT_STAT 7 0 ≠ 6 → (loadOp s true false).src = 1 → s.sd.op.isSome = true → 
    Answers (.loadStart src img) s fun t => t.load = some { (loadOp s true false) with wait := true } ∧ t.cores = s.cores ∧ t.mem = s.mem ∧ t = { s with out := t.out, regs := t.regs, parBad := t.parBad, wins := t.wins, quay := { s.quay with msix := t.quay.msix }, kerb := { s.kerb with reports := t.kerb.reports }, fnt := { s.fnt with state := t.fnt.state, absorbed := t.fnt.absorbed, credit := t.fnt.credit, seed := t.fnt.seed, int := t.fnt.int, sw := t.fnt.sw, katBusy := t.fnt.katBusy, part := t.fnt.part, rngDead := t.fnt.rngDead }, cores := t.cores, load := t.load, autoload := t.autoload, chk := { s.chk with eccBad := t.chk.eccBad }, sd := { s.sd with op := t.sd.op, clk := t.sd.clk }, mem := t.mem } ∧ OtherRegs s t [Reg.BOOT_STAT, Reg.IXM_LD_SRC, Reg.IXM_LD_ADDR_LO, Reg.IXM_LD_CMD, Reg.IXM_LD_INFO, Reg.CHECKPOINT_SRAM_ECC] [Reg.PAGE_STAT, Reg.INT_STAT, Reg.ERR_SYND, Reg.ERR_ADDR, Reg.FAULT_CNT, Reg.QUAY_LINK_ERR] []) ∧
  (∀ (s : State) (src : Src) (img : ImgIn), Reaches s src Reg.IXM_LD_CMD → s.load = none → fld s Reg.BOOT_STAT 7 0 ≠ 6 → (loadOp s true false).src = 1 → s.sd.op = none → s.sd.retune = false → (sdReady s && domOn s 23 && decide ((loadOp s true false).addr + 1 ≤ fld s Reg.DEPOT_CAP 22 0 * 1024)) = true → 
    Answers (.loadStart src img) s fun t => t.load = some (loadOp s true false) ∧ t.sd.op = some { kind := .image, lba := (loadOp s true false).addr, count := 1, run := 1, idx := 17, arg := (loadOp s true false).addr } ∧ t.cores = s.cores ∧ t.mem = s.mem ∧ t = { s with out := t.out, regs := t.regs, parBad := t.parBad, wins := t.wins, quay := { s.quay with msix := t.quay.msix }, kerb := { s.kerb with reports := t.kerb.reports }, fnt := { s.fnt with state := t.fnt.state, absorbed := t.fnt.absorbed, credit := t.fnt.credit, seed := t.fnt.seed, int := t.fnt.int, sw := t.fnt.sw, katBusy := t.fnt.katBusy, part := t.fnt.part, rngDead := t.fnt.rngDead }, cores := t.cores, load := t.load, autoload := t.autoload, chk := { s.chk with eccBad := t.chk.eccBad }, sd := { s.sd with op := t.sd.op, clk := t.sd.clk }, mem := t.mem } ∧ OtherRegs s t [Reg.BOOT_STAT, Reg.IXM_LD_SRC, Reg.IXM_LD_ADDR_LO, Reg.IXM_LD_CMD, Reg.IXM_LD_INFO, Reg.CHECKPOINT_SRAM_ECC] [Reg.PAGE_STAT, Reg.INT_STAT, Reg.ERR_SYND, Reg.ERR_ADDR, Reg.FAULT_CNT, Reg.QUAY_LINK_ERR] []) ∧
  (∀ (s : State) (src : Src) (img : ImgIn), Reaches s src Reg.IXM_LD_CMD → s.load = none → fld s Reg.BOOT_STAT 7 0 ≠ 6 → (loadOp s true false).src = 1 → s.sd.op = none → (sdReady s && domOn s 23 && decide ((loadOp s true false).addr + 1 ≤ fld s Reg.DEPOT_CAP 22 0 * 1024)) = false → 
    Answers (.loadStart src img) s fun t => t.load = none ∧ t.cores = s.cores ∧ fld t Reg.IXM_LD_CMD 7 4 = (if loadClosed s = true then 1 else 6) ∧ t.mem = s.mem ∧ t = { s with out := t.out, regs := t.regs, parBad := t.parBad, wins := t.wins, quay := { s.quay with msix := t.quay.msix }, kerb := { s.kerb with reports := t.kerb.reports }, fnt := { s.fnt with state := t.fnt.state, absorbed := t.fnt.absorbed, credit := t.fnt.credit, seed := t.fnt.seed, int := t.fnt.int, sw := t.fnt.sw, katBusy := t.fnt.katBusy, part := t.fnt.part, rngDead := t.fnt.rngDead }, cores := t.cores, load := t.load, autoload := t.autoload, chk := { s.chk with eccBad := t.chk.eccBad }, sd := { s.sd with op := t.sd.op, clk := t.sd.clk }, mem := t.mem } ∧ OtherRegs s t [Reg.BOOT_STAT, Reg.IXM_LD_SRC, Reg.IXM_LD_ADDR_LO, Reg.IXM_LD_CMD, Reg.IXM_LD_INFO, Reg.CHECKPOINT_SRAM_ECC] [Reg.PAGE_STAT, Reg.INT_STAT, Reg.ERR_SYND, Reg.ERR_ADDR, Reg.FAULT_CNT, Reg.QUAY_LINK_ERR] []) ∧
  (∀ (s : State) (src : Src) (img : ImgIn), Reaches s src Reg.IXM_LD_CMD → s.load.any (fun o => o.src != 1) = true → rbit s (rk 0x30 Reg.ERR_SYND) 23 = false → 
    Answers (.loadStart src img) s fun t => t.load = s.load ∧ t.cores = s.cores ∧ fld t (rk 0x30 Reg.ERR_SYND) 31 24 = 0x12 ∧ reg t (rk 0x30 Reg.ERR_ADDR) = 2 ∧ t.mem = s.mem ∧ t = { s with out := t.out, regs := t.regs, parBad := t.parBad, wins := t.wins, quay := { s.quay with msix := t.quay.msix }, kerb := { s.kerb with reports := t.kerb.reports }, fnt := { s.fnt with state := t.fnt.state, absorbed := t.fnt.absorbed, credit := t.fnt.credit, seed := t.fnt.seed, int := t.fnt.int, sw := t.fnt.sw, katBusy := t.fnt.katBusy, part := t.fnt.part, rngDead := t.fnt.rngDead }, cores := t.cores, load := t.load, autoload := t.autoload, chk := { s.chk with eccBad := t.chk.eccBad }, sd := { s.sd with op := t.sd.op, clk := t.sd.clk }, mem := t.mem } ∧ OtherRegs s t [Reg.BOOT_STAT, Reg.IXM_LD_SRC, Reg.IXM_LD_ADDR_LO, Reg.IXM_LD_CMD, Reg.IXM_LD_INFO, Reg.CHECKPOINT_SRAM_ECC] [Reg.PAGE_STAT, Reg.INT_STAT, Reg.ERR_SYND, Reg.ERR_ADDR, Reg.FAULT_CNT, Reg.QUAY_LINK_ERR] []) ∧
  (∀ (s : State) (o : LoadOp) (h : Bytes) (img : ImgIn) (fails : Nat), s.load = some o → o.hdr = some h → o.wait = false → o.arc = false → s.autoload = none → o.src ≠ 1 → (hLen' h - 0x100) ≤ (loadIn s o 0x100 (hLen' h - 0x100) img).1.length → (byteAt h 0x0E % 2 = 0 ∨ hSvn h ≤ svnFloor s o.vendor ∨ fails < 3) → 
    Answers (.imageLoadDone img fails) s fun t => t.load = none ∧ (if sha256 (loadIn s o 0x100 (hLen' h - 0x100) img).1 = sl h 0x80 32 then fld t Reg.IXM_LD_CMD 7 4 = 0 ∧ (∀ c ∈ hCores h, (coreAt t c).state = (if o.start = true ∧ s.kerb.lockdown = false then 2 else 1) ∧ (o.start = true → s.kerb.lockdown = false → (cregs t c).pc = BitVec.ofNat 32 (leAt h 0x10 4))) ∧ (hNseg h = 1 → ∀ d ∈ segTargets h (hSeg h 0).1, 0x100 ≤ (hSeg h 0).2.2 → (hSeg h 0).2.2 + (hSeg h 0).2.1 ≤ hLen' h → memBytes t d (hSeg h 0).2.1 = sl (loadIn s o 0x100 (hLen' h - 0x100) img).1 ((hSeg h 0).2.2 - 0x100) (hSeg h 0).2.1) ∧ (∀ a, (∀ i < hNseg h, ∀ d ∈ segTargets h (hSeg h i).1, a < d ∨ d + (hSeg h i).2.1 ≤ a) → memByte t a = memByte s a) else fld t Reg.IXM_LD_CMD 7 4 = 3 ∧ (∀ c ∈ hCores h, (coreAt t c).state = 1) ∧ (∀ a, (∀ c ∈ hCores h, a < lramBase c ∨ lramBase c + 0x40000 ≤ a) → (∀ i < hNseg h, ∀ d ∈ segTargets h (hSeg h i).1, a < d ∨ d + (hSeg h i).2.1 ≤ a) → memByte t a = memByte s a)) ∧ t = { s with out := t.out, regs := t.regs, parBad := t.parBad, wins := t.wins, quay := { s.quay with msix := t.quay.msix }, kerb := { s.kerb with reports := t.kerb.reports }, fer := { s.fer with svnVendor := t.fer.svnVendor, svnInteg := t.fer.svnInteg }, fnt := { s.fnt with state := t.fnt.state, absorbed := t.fnt.absorbed, credit := t.fnt.credit, seed := t.fnt.seed, int := t.fnt.int, sw := t.fnt.sw, katBusy := t.fnt.katBusy, part := t.fnt.part, rngDead := t.fnt.rngDead }, cores := t.cores, load := t.load, autoload := t.autoload, chk := { s.chk with eccBad := t.chk.eccBad }, sd := { s.sd with op := t.sd.op, clk := t.sd.clk }, mem := t.mem } ∧ OtherRegs s t [Reg.BOOT_STAT, Reg.IXM_LD_SRC, Reg.IXM_LD_ADDR_LO, Reg.IXM_LD_CMD, Reg.IXM_LD_INFO, Reg.CHECKPOINT_SRAM_ECC] [Reg.PAGE_STAT, Reg.INT_STAT, Reg.ERR_SYND, Reg.ERR_ADDR, Reg.FAULT_CNT, Reg.QUAY_GRP_ROUTE, Reg.QUAY_LINK_ERR, Reg.LANE_STOPS, Reg.SV_CNT, Reg.SV_CNT + 4, Reg.SV_CNT + 8, Reg.SV_CNT + 12, Reg.SV_CNT + 16, Reg.SV_CNT + 20, Reg.SV_CNT + 24, Reg.SV_CNT + 28] []) ∧
  (∀ (s : State) (o : LoadOp) (h : Bytes) (img : ImgIn) (fails : Nat), s.load = some o → o.hdr = some h → o.wait = false → o.arc = false → s.autoload = none → o.src ≠ 1 → (loadIn s o 0x100 (hLen' h - 0x100) img).1.length < (hLen' h - 0x100) → 
    Answers (.imageLoadDone img fails) s fun t => t.load = none ∧ fld t Reg.IXM_LD_CMD 7 4 = 6 ∧ (∀ c ∈ hCores h, (coreAt t c).state = 1) ∧ (∀ a, (∀ c ∈ hCores h, a < lramBase c ∨ lramBase c + 0x40000 ≤ a) → (∀ i < hNseg h, ∀ d ∈ segTargets h (hSeg h i).1, a < d ∨ d + (hSeg h i).2.1 ≤ a) → memByte t a = memByte s a) ∧ t = { s with out := t.out, regs := t.regs, parBad := t.parBad, wins := t.wins, quay := { s.quay with msix := t.quay.msix }, kerb := { s.kerb with reports := t.kerb.reports }, fer := { s.fer with svnVendor := t.fer.svnVendor, svnInteg := t.fer.svnInteg }, fnt := { s.fnt with state := t.fnt.state, absorbed := t.fnt.absorbed, credit := t.fnt.credit, seed := t.fnt.seed, int := t.fnt.int, sw := t.fnt.sw, katBusy := t.fnt.katBusy, part := t.fnt.part, rngDead := t.fnt.rngDead }, cores := t.cores, load := t.load, autoload := t.autoload, chk := { s.chk with eccBad := t.chk.eccBad }, sd := { s.sd with op := t.sd.op, clk := t.sd.clk }, mem := t.mem } ∧ OtherRegs s t [Reg.BOOT_STAT, Reg.IXM_LD_SRC, Reg.IXM_LD_ADDR_LO, Reg.IXM_LD_CMD, Reg.IXM_LD_INFO, Reg.CHECKPOINT_SRAM_ECC] [Reg.PAGE_STAT, Reg.INT_STAT, Reg.ERR_SYND, Reg.ERR_ADDR, Reg.FAULT_CNT, Reg.QUAY_GRP_ROUTE, Reg.QUAY_LINK_ERR, Reg.LANE_STOPS, Reg.SV_CNT, Reg.SV_CNT + 4, Reg.SV_CNT + 8, Reg.SV_CNT + 12, Reg.SV_CNT + 16, Reg.SV_CNT + 20, Reg.SV_CNT + 24, Reg.SV_CNT + 28] []) ∧
  (∀ (s : State) (o : LoadOp) (h : Bytes) (img : ImgIn) (fails : Nat), s.load = some o → o.hdr = some h → o.wait = false → o.arc = false → s.autoload = none → o.src ≠ 1 → (hLen' h - 0x100) ≤ (loadIn s o 0x100 (hLen' h - 0x100) img).1.length → ¬ (byteAt h 0x0E % 2 = 0 ∨ hSvn h ≤ svnFloor s o.vendor ∨ fails < 3) → 
    Answers (.imageLoadDone img fails) s fun t => t.load = none ∧ fld t Reg.IXM_LD_CMD 7 4 = (if sha256 (loadIn s o 0x100 (hLen' h - 0x100) img).1 = sl h 0x80 32 then 8 else 3) ∧ (∀ c ∈ hCores h, (coreAt t c).state = 1) ∧ (∀ a, (∀ c ∈ hCores h, a < lramBase c ∨ lramBase c + 0x40000 ≤ a) → (∀ i < hNseg h, ∀ d ∈ segTargets h (hSeg h i).1, a < d ∨ d + (hSeg h i).2.1 ≤ a) → memByte t a = memByte s a) ∧ t = { s with out := t.out, regs := t.regs, parBad := t.parBad, wins := t.wins, quay := { s.quay with msix := t.quay.msix }, kerb := { s.kerb with reports := t.kerb.reports }, fer := { s.fer with svnVendor := t.fer.svnVendor, svnInteg := t.fer.svnInteg }, fnt := { s.fnt with state := t.fnt.state, absorbed := t.fnt.absorbed, credit := t.fnt.credit, seed := t.fnt.seed, int := t.fnt.int, sw := t.fnt.sw, katBusy := t.fnt.katBusy, part := t.fnt.part, rngDead := t.fnt.rngDead }, cores := t.cores, load := t.load, autoload := t.autoload, chk := { s.chk with eccBad := t.chk.eccBad }, sd := { s.sd with op := t.sd.op, clk := t.sd.clk }, mem := t.mem } ∧ OtherRegs s t [Reg.BOOT_STAT, Reg.IXM_LD_SRC, Reg.IXM_LD_ADDR_LO, Reg.IXM_LD_CMD, Reg.IXM_LD_INFO, Reg.CHECKPOINT_SRAM_ECC] [Reg.PAGE_STAT, Reg.INT_STAT, Reg.ERR_SYND, Reg.ERR_ADDR, Reg.FAULT_CNT, Reg.QUAY_GRP_ROUTE, Reg.QUAY_LINK_ERR, Reg.LANE_STOPS, Reg.SV_CNT, Reg.SV_CNT + 4, Reg.SV_CNT + 8, Reg.SV_CNT + 12, Reg.SV_CNT + 16, Reg.SV_CNT + 20, Reg.SV_CNT + 24, Reg.SV_CNT + 28] []) ∧
  (∀ (s : State) (o : LoadOp) (h : Bytes) (img : ImgIn) (fails : Nat), s.load = some o → o.hdr = some h → o.wait = false → o.arc = false → s.autoload = none → o.src = 1 → hLen' h ≤ o.got.length → (byteAt h 0x0E % 2 = 0 ∨ hSvn h ≤ svnFloor s o.vendor ∨ fails < 3) → 
    Answers (.imageLoadDone img fails) s fun t => t.load = none ∧ (if sha256 (sl o.got 0x100 (hLen' h - 0x100)) = sl h 0x80 32 then fld t Reg.IXM_LD_CMD 7 4 = 0 ∧ (∀ c ∈ hCores h, (coreAt t c).state = (if o.start = true ∧ s.kerb.lockdown = false then 2 else 1) ∧ (o.start = true → s.kerb.lockdown = false → (cregs t c).pc = BitVec.ofNat 32 (leAt h 0x10 4))) ∧ (∀ a, (∀ i < hNseg h, ∀ d ∈ segTargets h (hSeg h i).1, a < d ∨ d + (hSeg h i).2.1 ≤ a) → memByte t a = memByte s a) else fld t Reg.IXM_LD_CMD 7 4 = 3 ∧ (∀ c ∈ hCores h, (coreAt t c).state = 1) ∧ (∀ a, (∀ c ∈ hCores h, a < lramBase c ∨ lramBase c + 0x40000 ≤ a) → (∀ i < hNseg h, ∀ d ∈ segTargets h (hSeg h i).1, a < d ∨ d + (hSeg h i).2.1 ≤ a) → memByte t a = memByte s a)) ∧ t = { s with out := t.out, regs := t.regs, parBad := t.parBad, wins := t.wins, quay := { s.quay with msix := t.quay.msix }, kerb := { s.kerb with reports := t.kerb.reports }, fer := { s.fer with svnVendor := t.fer.svnVendor, svnInteg := t.fer.svnInteg }, fnt := { s.fnt with state := t.fnt.state, absorbed := t.fnt.absorbed, credit := t.fnt.credit, seed := t.fnt.seed, int := t.fnt.int, sw := t.fnt.sw, katBusy := t.fnt.katBusy, part := t.fnt.part, rngDead := t.fnt.rngDead }, cores := t.cores, load := t.load, autoload := t.autoload, chk := { s.chk with eccBad := t.chk.eccBad }, sd := { s.sd with op := t.sd.op, clk := t.sd.clk }, mem := t.mem } ∧ OtherRegs s t [Reg.BOOT_STAT, Reg.IXM_LD_SRC, Reg.IXM_LD_ADDR_LO, Reg.IXM_LD_CMD, Reg.IXM_LD_INFO, Reg.CHECKPOINT_SRAM_ECC] [Reg.PAGE_STAT, Reg.INT_STAT, Reg.ERR_SYND, Reg.ERR_ADDR, Reg.FAULT_CNT, Reg.QUAY_GRP_ROUTE, Reg.QUAY_LINK_ERR, Reg.LANE_STOPS, Reg.SV_CNT, Reg.SV_CNT + 4, Reg.SV_CNT + 8, Reg.SV_CNT + 12, Reg.SV_CNT + 16, Reg.SV_CNT + 20, Reg.SV_CNT + 24, Reg.SV_CNT + 28] []) ∧
  (∀ (s : State) (o : LoadOp) (h : Bytes) (img : ImgIn) (fails : Nat), s.load = some o → o.hdr = some h → o.wait = false → o.arc = false → s.autoload = none → o.src = 1 → o.got.length < hLen' h → o.got.length ≤ o.put → o.fin = none → 
    Answers (.imageLoadDone img fails) s fun t => t = s) ∧
  (∀ (s : State) (o : LoadOp) (img : ImgIn) (fails : Nat), s.load = some o → o.hdr = none → o.wait = false → o.arc = false → o.src = 0 → s.autoload = none → 
    Answers (.imageLoadDone img fails) s fun t => t = loadRun (loadIn s o 0 256 img).2 o (loadIn s o 0 256 img).1) ∧
  (∀ (s : State) (img : ImgIn) (fails : Nat), s.load = none ∧ s.autoload = none ∨ s.load.any (fun o => o.arc) = true → 
    Answers (.imageLoadDone img fails) s fun t => t = s)

/-- An ALU instruction that issues with its guard true writes Gd as its row says (G0 discards it), ADDC, ADDX, SUBC and SUBX write CY as well, and nothing else changes but by its completion: its loop ends and its slot's transfer, the Survey of its core, and the count of an error corrected in its fetch. Forms whose completion it states: add, sub, and, or, xor, andn, copy, inv, min, max, minu, maxu, addc, addx, subc, subx. (R325, R326, R335) -/
def Obligations.AluOps : Prop :=
  (∀ (s : State) (c : CoreNo) (g : IssueIn) (d a b : GReg), Issues s c.val g → 
    Answers (.add c g d a b) s fun t => Retires s t c.val g fun r => setGpr r d (gpr r a + gpr r b)) ∧
  (∀ (s : State) (c : CoreNo) (g : IssueIn) (d a b : GReg), Issues s c.val g → 
    Answers (.sub c g d a b) s fun t => Retires s t c.val g fun r => setGpr r d (gpr r a - gpr r b)) ∧
  (∀ (s : State) (c : CoreNo) (g : IssueIn) (d a b : GReg), Issues s c.val g → 
    Answers (.and c g d a b) s fun t => Retires s t c.val g fun r => setGpr r d (gpr r a &&& gpr r b)) ∧
  (∀ (s : State) (c : CoreNo) (g : IssueIn) (d a b : GReg), Issues s c.val g → 
    Answers (.or c g d a b) s fun t => Retires s t c.val g fun r => setGpr r d (gpr r a ||| gpr r b)) ∧
  (∀ (s : State) (c : CoreNo) (g : IssueIn) (d a b : GReg), Issues s c.val g → 
    Answers (.xor c g d a b) s fun t => Retires s t c.val g fun r => setGpr r d (gpr r a ^^^ gpr r b)) ∧
  (∀ (s : State) (c : CoreNo) (g : IssueIn) (d a b : GReg), Issues s c.val g → 
    Answers (.andn c g d a b) s fun t => Retires s t c.val g fun r => setGpr r d (gpr r a &&& ~~~gpr r b)) ∧
  (∀ (s : State) (c : CoreNo) (g : IssueIn) (d a b : GReg), Issues s c.val g → 
    Answers (.copy c g d a b) s fun t => Retires s t c.val g fun r => setGpr r d (gpr r b)) ∧
  (∀ (s : State) (c : CoreNo) (g : IssueIn) (d a b : GReg), Issues s c.val g → 
    Answers (.inv c g d a b) s fun t => Retires s t c.val g fun r => setGpr r d (~~~gpr r b)) ∧
  (∀ (s : State) (c : CoreNo) (g : IssueIn) (d a b : GReg), Issues s c.val g → 
    Answers (.min c g d a b) s fun t => Retires s t c.val g fun r => setGpr r d (if (gpr r a).toInt < (gpr r b).toInt then gpr r a else gpr r b)) ∧
  (∀ (s : State) (c : CoreNo) (g : IssueIn) (d a b : GReg), Issues s c.val g → 
    Answers (.max c g d a b) s fun t => Retires s t c.val g fun r => setGpr r d (if (gpr r a).toInt < (gpr r b).toInt then gpr r b else gpr r a)) ∧
  (∀ (s : State) (c : CoreNo) (g : IssueIn) (d a b : GReg), Issues s c.val g → 
    Answers (.minu c g d a b) s fun t => Retires s t c.val g fun r => setGpr r d (if (gpr r a).toNat < (gpr r b).toNat then gpr r a else gpr r b)) ∧
  (∀ (s : State) (c : CoreNo) (g : IssueIn) (d a b : GReg), Issues s c.val g → 
    Answers (.maxu c g d a b) s fun t => Retires s t c.val g fun r => setGpr r d (if (gpr r a).toNat < (gpr r b).toNat then gpr r b else gpr r a)) ∧
  (∀ (s : State) (c : CoreNo) (g : IssueIn) (d a b : GReg), Issues s c.val g → 
    Answers (.addc c g d a b) s fun t => Retires s t c.val g fun r => setCy (setGpr r d (gpr r a + gpr r b)) (decide (2 ^ 32 ≤ (gpr r a).toNat + (gpr r b).toNat))) ∧
  (∀ (s : State) (c : CoreNo) (g : IssueIn) (d a b : GReg), Issues s c.val g → 
    Answers (.addx c g d a b) s fun t => Retires s t c.val g fun r => setCy (setGpr r d (gpr r a + gpr r b + BitVec.ofNat 32 (cyIn r))) (decide (2 ^ 32 ≤ (gpr r a).toNat + (gpr r b).toNat + cyIn r))) ∧
  (∀ (s : State) (c : CoreNo) (g : IssueIn) (d a b : GReg), Issues s c.val g → 
    Answers (.subc c g d a b) s fun t => Retires s t c.val g fun r => setCy (setGpr r d (gpr r a - gpr r b)) (decide ((gpr r a).toNat < (gpr r b).toNat))) ∧
  (∀ (s : State) (c : CoreNo) (g : IssueIn) (d a b : GReg), Issues s c.val g → 
    Answers (.subx c g d a b) s fun t => Retires s t c.val g fun r => setCy (setGpr r d (gpr r a - gpr r b - BitVec.ofNat 32 (cyIn r))) (decide ((gpr r a).toNat < (gpr r b).toNat + cyIn r)))

/-- An ALUI, MOVI or BIT instruction that issues with its guard true writes Gd as its row says (PAR and BREV with I 1 and a width that is not 3), ADDCI writes CY as well, and nothing else changes but by its completion; a shift or rotation takes its amount from the immediate or from bits [4:0] of Gb. Forms whose completion it states: addi, andi, ori, xori, addci, movi, shl, shr, sar, ror, clz, popc, bpar, brevb, bswap, par, brev. (R325, R326, R336, R337, R338) -/
def Obligations.ImmediateAndBitOps : Prop :=
  (∀ (s : State) (c : CoreNo) (g : IssueIn) (d a : GReg) (imm : BitVec 12), Issues s c.val g → 
    Answers (.addi c g d a imm) s fun t => Retires s t c.val g fun r => setGpr r d (gpr r a + imm.signExtend 32)) ∧
  (∀ (s : State) (c : CoreNo) (g : IssueIn) (d a : GReg) (imm : BitVec 12), Issues s c.val g → 
    Answers (.andi c g d a imm) s fun t => Retires s t c.val g fun r => setGpr r d (gpr r a &&& imm.zeroExtend 32)) ∧
  (∀ (s : State) (c : CoreNo) (g : IssueIn) (d a : GReg) (imm : BitVec 12), Issues s c.val g → 
    Answers (.ori c g d a imm) s fun t => Retires s t c.val g fun r => setGpr r d (gpr r a ||| imm.zeroExtend 32)) ∧
  (∀ (s : State) (c : CoreNo) (g : IssueIn) (d a : GReg) (imm : BitVec 12), Issues s c.val g → 
    Answers (.xori c g d a imm) s fun t => Retires s t c.val g fun r => setGpr r d (gpr r a ^^^ imm.zeroExtend 32)) ∧
  (∀ (s : State) (c : CoreNo) (g : IssueIn) (d a : GReg) (imm : BitVec 12), Issues s c.val g → 
    Answers (.addci c g d a imm) s fun t => Retires s t c.val g fun r => setCy (setGpr r d (gpr r a + imm.signExtend 32)) (decide (2 ^ 32 ≤ (gpr r a).toNat + (imm.signExtend 32).toNat))) ∧
  (∀ (s : State) (c : CoreNo) (g : IssueIn) (d : GReg) (h : Bool) (imm : BitVec 16), Issues s c.val g → 
    Answers (.movi c g d h imm) s fun t => Retires s t c.val g fun r => setGpr r d (if h then BitVec.ofNat 32 ((gpr r d).toNat % 2 ^ 16 + imm.toNat * 2 ^ 16) else BitVec.ofNat 32 imm.toNat)) ∧
  (∀ (s : State) (c : CoreNo) (g : IssueIn) (d a : GReg) (amt : ShAmt), Issues s c.val g → 
    Answers (.shl c g d a amt) s fun t => Retires s t c.val g fun r => setGpr r d (gpr r a <<< shAmount r amt)) ∧
  (∀ (s : State) (c : CoreNo) (g : IssueIn) (d a : GReg) (amt : ShAmt), Issues s c.val g → 
    Answers (.shr c g d a amt) s fun t => Retires s t c.val g fun r => setGpr r d (gpr r a >>> shAmount r amt)) ∧
  (∀ (s : State) (c : CoreNo) (g : IssueIn) (d a : GReg) (amt : ShAmt), Issues s c.val g → 
    Answers (.sar c g d a amt) s fun t => Retires s t c.val g fun r => setGpr r d ((gpr r a).sshiftRight (shAmount r amt))) ∧
  (∀ (s : State) (c : CoreNo) (g : IssueIn) (d a : GReg) (amt : ShAmt), Issues s c.val g → 
    Answers (.ror c g d a amt) s fun t => Retires s t c.val g fun r => setGpr r d ((gpr r a).rotateRight (shAmount r amt))) ∧
  (∀ (s : State) (c : CoreNo) (g : IssueIn) (d a : GReg), Issues s c.val g → 
    Answers (.clz c g d a) s fun t => Retires s t c.val g fun r => setGpr r d (BitVec.ofNat 32 (leadingZeros (gpr r a)))) ∧
  (∀ (s : State) (c : CoreNo) (g : IssueIn) (d a : GReg), Issues s c.val g → 
    Answers (.popc c g d a) s fun t => Retires s t c.val g fun r => setGpr r d (BitVec.ofNat 32 (ones (gpr r a) 32))) ∧
  (∀ (s : State) (c : CoreNo) (g : IssueIn) (d a : GReg), Issues s c.val g → 
    Answers (.bpar c g d a) s fun t => Retires s t c.val g fun r => setGpr r d (BitVec.ofNat 32 (((List.range 4).filter fun n => parityOf (gpr r a) (8 * n) 8 == 1).foldl (fun m i => m ||| 2 ^ i) 0))) ∧
  (∀ (s : State) (c : CoreNo) (g : IssueIn) (d a : GReg), Issues s c.val g → 
    Answers (.brevb c g d a) s fun t => Retires s t c.val g fun r => setGpr r d (BitVec.ofNat 32 (le ((List.range 4).map fun n => BitVec.ofNat 8 (reversed (gpr r a >>> (8 * n)) 8))))) ∧
  (∀ (s : State) (c : CoreNo) (g : IssueIn) (d a : GReg), Issues s c.val g → 
    Answers (.bswap c g d a) s fun t => Retires s t c.val g fun r => setGpr r d (BitVec.ofNat 32 (be (toLe 4 (gpr r a).toNat)))) ∧
  (∀ (s : State) (c : CoreNo) (g : IssueIn) (d a : GReg) (w : BitVec 2), Issues s c.val g → w ≠ 3 → 
    Answers (.par c g d a ⟨true, w⟩) s fun t => Retires s t c.val g fun r => setGpr r d (BitVec.ofNat 32 (parityOf (gpr r a) 0 (fieldWidth w)))) ∧
  (∀ (s : State) (c : CoreNo) (g : IssueIn) (d a : GReg) (w : BitVec 2), Issues s c.val g → w ≠ 3 → 
    Answers (.brev c g d a ⟨true, w⟩) s fun t => Retires s t c.val g fun r => setGpr r d (BitVec.ofNat 32 (reversed (gpr r a) (fieldWidth w))))

/-- A MULDIV instruction that issues with its guard true writes Gd with the product, the upper word of the product, the quotient or the remainder, and nothing else changes but by its completion; division by zero gives 0xFFFFFFFF and leaves the dividend as the remainder. Forms whose completion it states: mul, mulhu, mulhs, divu, divs, remu, rems. (R325, R339) -/
def Obligations.MulDivOps : Prop :=
  (∀ (s : State) (c : CoreNo) (g : IssueIn) (d a b : GReg), Issues s c.val g → 
    Answers (.mul c g d a b) s fun t => Retires s t c.val g fun r => setGpr r d (BitVec.ofNat 32 ((gpr r a).toNat * (gpr r b).toNat))) ∧
  (∀ (s : State) (c : CoreNo) (g : IssueIn) (d a b : GReg), Issues s c.val g → 
    Answers (.mulhu c g d a b) s fun t => Retires s t c.val g fun r => setGpr r d (BitVec.ofNat 32 ((gpr r a).toNat * (gpr r b).toNat / 2 ^ 32))) ∧
  (∀ (s : State) (c : CoreNo) (g : IssueIn) (d a b : GReg), Issues s c.val g → 
    Answers (.mulhs c g d a b) s fun t => Retires s t c.val g fun r => setGpr r d (BitVec.ofInt 32 ((gpr r a).toInt * (gpr r b).toInt / 2 ^ 32))) ∧
  (∀ (s : State) (c : CoreNo) (g : IssueIn) (d a b : GReg), Issues s c.val g → 
    Answers (.divu c g d a b) s fun t => Retires s t c.val g fun r => setGpr r d (if gpr r b = 0 then 0xFFFFFFFF else BitVec.ofNat 32 ((gpr r a).toNat / (gpr r b).toNat))) ∧
  (∀ (s : State) (c : CoreNo) (g : IssueIn) (d a b : GReg), Issues s c.val g → 
    Answers (.divs c g d a b) s fun t => Retires s t c.val g fun r => setGpr r d (if gpr r b = 0 then 0xFFFFFFFF else BitVec.ofInt 32 (Int.tdiv (gpr r a).toInt (gpr r b).toInt))) ∧
  (∀ (s : State) (c : CoreNo) (g : IssueIn) (d a b : GReg), Issues s c.val g → 
    Answers (.remu c g d a b) s fun t => Retires s t c.val g fun r => setGpr r d (if gpr r b = 0 then gpr r a else BitVec.ofNat 32 ((gpr r a).toNat % (gpr r b).toNat))) ∧
  (∀ (s : State) (c : CoreNo) (g : IssueIn) (d a b : GReg), Issues s c.val g → 
    Answers (.rems c g d a b) s fun t => Retires s t c.val g fun r => setGpr r d (if gpr r b = 0 then gpr r a else BitVec.ofInt 32 (Int.tmod (gpr r a).toInt (gpr r b).toInt)))

/-- NOP and MBAR only complete; MFS copies a named special register into Gd and MTS a general register into one, each where the mode allows it; ADJ moves the data stack pointer by 4 times its immediate; CRC folds Ga into Gd; TEST writes predicate Pd. Forms whose completion it states: sysNop, mbar, mfs, mts, adj, crc, test. (R326, R327, R334, R341, R344, R352, R366, R368, R369, R382) -/
def Obligations.SystemRegisterOps : Prop :=
  (∀ (s : State) (c : CoreNo) (g : IssueIn), Issues s c.val g → 
    Answers (.sysNop c g) s fun t => Retires s t c.val g fun r => r) ∧
  (∀ (s : State) (c : CoreNo) (g : IssueIn), Issues s c.val g → 
    Answers (.mbar c g) s fun t => Retires s t c.val g fun r => r) ∧
  (∀ (s : State) (c : CoreNo) (g : IssueIn) (d : GReg) (sr : BitVec 8), Issues s c.val g → srNamed sr.toNat = true → srRefused s c.val sr.toNat false = false → 
    Answers (.mfs c g d sr) s fun t => Retires s t c.val g fun _ => setGpr (cregs (srRead s c.val sr.toNat).2 c.val) d (srRead s c.val sr.toNat).1) ∧
  (∀ (s : State) (c : CoreNo) (g : IssueIn) (sr : BitVec 8) (a : GReg), Issues s c.val g → srNamed sr.toNat = true → srRefused s c.val sr.toNat true = false → 
    Answers (.mts c g sr a) s fun t => Retires s t c.val g (fun r => srWritten r sr.toNat (gpr r a)) ∧ ((coreAt s c.val).haltReq = false → (coreAt t c.val).shadow = (sr == 0 && modeChanges (cregs s c.val).psw (pswWritten (cregs s c.val) (gpr (cregs s c.val) a))))) ∧
  (∀ (s : State) (c : CoreNo) (g : IssueIn) (imm : BitVec 16), Issues s c.val g → 
    Answers (.adj c g imm) s fun t => Retires s t c.val g fun r => setGpr r 15 (gpr r 15 + imm.signExtend 32 * 4)) ∧
  (∀ (s : State) (c : CoreNo) (g : IssueIn) (d a : GReg) (poly sz : BitVec 2), Issues s c.val g → poly ≠ 3 → sz ≠ 3 → 
    Answers (.crc c g d a poly sz) s fun t => Retires s t c.val g fun r => setGpr r d (BitVec.ofNat 32 (crcStep poly.toNat (gpr r d).toNat (gpr r a).toNat (8 * sizeBytes sz)))) ∧
  (∀ (s : State) (c : CoreNo) (g : IssueIn) (pd comb : BitVec 2) (a : GReg) (rel : BitVec 3) (b : TestArg), Issues s c.val g → pd ≠ 0 → comb ≠ 3 → 
    Answers (.test c g pd comb a rel b) s fun t => Retires s t c.val g fun r => setPred r pd.toNat (combined comb (wbit r.psw pd.toNat) (relation rel (gpr r a) (testArg r b))))

/-- An instruction whose guard is false, ADD, a store, a transfer and LOOP standing for their kinds, completes with no effect, a transfer with its slot still to come, but LOOP, which is not guarded, has its effect; one with an undefined guard raises ILLEGAL with SUB 1. Forms whose completion it states: add, ldstStore, b, loop. (R332, R333, R343, R345) -/
def Obligations.GuardsDecide : Prop :=
  (∀ (s : State) (c : CoreNo) (g : IssueIn) (d a b : GReg), (coreAt s c.val).state = 2 → (coreAt s c.val).busy = false → takeable s c.val = none → fetchFault s c.val (userMode (cregs s c.val)) (cregs s c.val).pc .none = none → g.fetch = .none ∨ g.fetch = .corrected → guardUndefined g.guard = false → guardTrue (cregs s c.val) g.guard = false → NoLate s c.val → 
    Answers (.add c g d a b) s fun t => Retires s t c.val g fun r => r) ∧
  (∀ (s : State) (c : CoreNo) (g : IssueIn) (d b : GReg) (sz : BitVec 2) (off : BitVec 12), (coreAt s c.val).state = 2 → (coreAt s c.val).busy = false → takeable s c.val = none → fetchFault s c.val (userMode (cregs s c.val)) (cregs s c.val).pc .none = none → g.fetch = .none ∨ g.fetch = .corrected → guardUndefined g.guard = false → guardTrue (cregs s c.val) g.guard = false → NoLate s c.val → sz ≠ 3 → 
    Answers (.ldstStore c g d b ⟨sz, false⟩ off) s fun t => Retires s t c.val g fun r => r) ∧
  (∀ (s : State) (c : CoreNo) (g : IssueIn) (disp : BitVec 22), (coreAt s c.val).state = 2 → (coreAt s c.val).busy = false → takeable s c.val = none → fetchFault s c.val (userMode (cregs s c.val)) (cregs s c.val).pc .none = none → g.fetch = .none ∨ g.fetch = .corrected → guardUndefined g.guard = false → guardTrue (cregs s c.val) g.guard = false → NoLate s c.val → Placed s c.val .transfer → 
    Answers (.b c g disp) s fun t => cregs t c.val = { cregs s c.val with pc := (cregs s c.val).pc + 4 } ∧ ((coreAt t c.val).slot.map fun w => (w.target, w.before, w.late)) = some (none, cregs s c.val, []) ∧ t.mem = s.mem ∧ CoreOnly s t c.val (fetchReg g)) ∧
  (∀ (s : State) (c : CoreNo) (g : IssueIn) (lvl : Bool) (cnt : LoopCnt) (len : BitVec 12), (coreAt s c.val).state = 2 → (coreAt s c.val).busy = false → takeable s c.val = none → fetchFault s c.val (userMode (cregs s c.val)) (cregs s c.val).pc .none = none → g.fetch = .none ∨ g.fetch = .corrected → guardUndefined g.guard = false → guardTrue (cregs s c.val) g.guard = false → NoLate s c.val → Placed s c.val .loop → len ≠ 0 → loopCount (cregs s c.val) cnt ≠ 0 → 
    Answers (.loop c g lvl cnt len) s fun t => Retires s t c.val g fun r => loopRegs r lvl (loopCount r cnt) len) ∧
  (∀ (s : State) (c : CoreNo) (g : IssueIn) (d a b : GReg), (coreAt s c.val).state = 2 → (coreAt s c.val).busy = false → (coreAt s c.val).slot = none → takeable s c.val = none → fetchFault s c.val (userMode (cregs s c.val)) (cregs s c.val).pc .none = none → g.fetch = .none ∨ g.fetch = .corrected → guardUndefined g.guard = true → CanEnter s c.val ((cregs s c.val).vbase + BitVec.ofNat 32 (64 * 0)) g.entry → 
    Answers (.add c g d a b) s fun t => Entered s t c.val (cregs s c.val) (causeWord 0 0 1 0) 0 (savedPc (cregs s c.val).pc) ((cregs s c.val).vbase + BitVec.ofNat 32 (64 * 0)) none ∧ CoreOnly s t c.val (entryReg g))

/-- Where the system stacks have room and the instruction is in no slot: UDF, a word that is not defined and an instruction with an undefined value raise ILLEGAL with SUB 1 whatever the guard, one with a reserved bit SUB 2; MFS and MTS of a reserved number with the guard true raise ILLEGAL; a transfer at a loop end raises ILLEGAL with SUB 3; WFI, HALT and ERET in user mode, and an MFS or MTS the mode refuses, raise PRIVILEGE; a misaligned load or store raises ALIGN; a pc that cannot be fetched raises FETCH; a store into the return stack range, and a first word pushed outside the data stack, raise STACK; an access the Checkpoint refuses raises ACCESS; RET and ERET whose two copies differ raise SHADOW; GATE past the table or through an entry that may not be called raises TOLLGATE: the saved registers, the mode, the stacks and the pc are the entry's. UDF in a slot is taken at the transfer with IN_SLOT set. Forms whose completion it states: udf, crc, test, par, brev, loop, bcopy, bclr, bcrc, ldstLoad, ldstStore, pushm, popm, mfs, mts, b, halt, wfi, eret, ret, gate, sysNop. (R331, R334, R341, R346, R347, R351, R369, R370, R371, R377, R378, R385) -/
def Obligations.ExceptionsAreTaken : Prop :=
  (∀ (s : State) (c : CoreNo) (g : IssueIn) (w : BitVec 32), (coreAt s c.val).state = 2 → (coreAt s c.val).busy = false → (coreAt s c.val).slot = none → takeable s c.val = none → fetchFault s c.val (userMode (cregs s c.val)) (cregs s c.val).pc .none = none → g.fetch = .none ∨ g.fetch = .corrected → ixSub w ≠ some 2 → CanEnter s c.val ((cregs s c.val).vbase + BitVec.ofNat 32 (64 * 0)) g.entry → 
    Answers (.udf c g w) s fun t => Entered s t c.val (cregs s c.val) (causeWord 0 0 1 0) 0 (savedPc (cregs s c.val).pc) ((cregs s c.val).vbase + BitVec.ofNat 32 (64 * 0)) none ∧ CoreOnly s t c.val (entryReg g)) ∧
  (∀ (s : State) (c : CoreNo) (g : IssueIn) (w : BitVec 32), (coreAt s c.val).state = 2 → (coreAt s c.val).busy = false → (coreAt s c.val).slot = none → takeable s c.val = none → fetchFault s c.val (userMode (cregs s c.val)) (cregs s c.val).pc .none = none → g.fetch = .none ∨ g.fetch = .corrected → guardUndefined g.guard = false → ixSub w = some 2 → CanEnter s c.val ((cregs s c.val).vbase + BitVec.ofNat 32 (64 * 0)) g.entry → 
    Answers (.udf c g w) s fun t => Entered s t c.val (cregs s c.val) (causeWord 0 0 2 0) 0 (savedPc (cregs s c.val).pc) ((cregs s c.val).vbase + BitVec.ofNat 32 (64 * 0)) none ∧ CoreOnly s t c.val (entryReg g)) ∧
  (∀ (s : State) (c : CoreNo) (g : IssueIn) (d a : GReg) (poly sz : BitVec 2), (coreAt s c.val).state = 2 → (coreAt s c.val).busy = false → (coreAt s c.val).slot = none → takeable s c.val = none → fetchFault s c.val (userMode (cregs s c.val)) (cregs s c.val).pc .none = none → g.fetch = .none ∨ g.fetch = .corrected → poly = 3 ∨ sz = 3 → CanEnter s c.val ((cregs s c.val).vbase + BitVec.ofNat 32 (64 * 0)) g.entry → 
    Answers (.crc c g d a poly sz) s fun t => Entered s t c.val (cregs s c.val) (causeWord 0 0 1 0) 0 (savedPc (cregs s c.val).pc) ((cregs s c.val).vbase + BitVec.ofNat 32 (64 * 0)) none ∧ CoreOnly s t c.val (entryReg g)) ∧
  (∀ (s : State) (c : CoreNo) (g : IssueIn) (pd comb : BitVec 2) (a : GReg) (rel : BitVec 3) (b : TestArg), (coreAt s c.val).state = 2 → (coreAt s c.val).busy = false → (coreAt s c.val).slot = none → takeable s c.val = none → fetchFault s c.val (userMode (cregs s c.val)) (cregs s c.val).pc .none = none → g.fetch = .none ∨ g.fetch = .corrected → pd = 0 ∨ comb = 3 → CanEnter s c.val ((cregs s c.val).vbase + BitVec.ofNat 32 (64 * 0)) g.entry → 
    Answers (.test c g pd comb a rel b) s fun t => Entered s t c.val (cregs s c.val) (causeWord 0 0 1 0) 0 (savedPc (cregs s c.val).pc) ((cregs s c.val).vbase + BitVec.ofNat 32 (64 * 0)) none ∧ CoreOnly s t c.val (entryReg g)) ∧
  (∀ (s : State) (c : CoreNo) (g : IssueIn) (d a : GReg) (i : Bool) (w : BitVec 2), (coreAt s c.val).state = 2 → (coreAt s c.val).busy = false → (coreAt s c.val).slot = none → takeable s c.val = none → fetchFault s c.val (userMode (cregs s c.val)) (cregs s c.val).pc .none = none → g.fetch = .none ∨ g.fetch = .corrected → i = false ∨ w = 3 → CanEnter s c.val ((cregs s c.val).vbase + BitVec.ofNat 32 (64 * 0)) g.entry → 
    Answers (.par c g d a ⟨i, w⟩) s fun t => Entered s t c.val (cregs s c.val) (causeWord 0 0 1 0) 0 (savedPc (cregs s c.val).pc) ((cregs s c.val).vbase + BitVec.ofNat 32 (64 * 0)) none ∧ CoreOnly s t c.val (entryReg g)) ∧
  (∀ (s : State) (c : CoreNo) (g : IssueIn) (d a : GReg) (i : Bool) (w : BitVec 2), (coreAt s c.val).state = 2 → (coreAt s c.val).busy = false → (coreAt s c.val).slot = none → takeable s c.val = none → fetchFault s c.val (userMode (cregs s c.val)) (cregs s c.val).pc .none = none → g.fetch = .none ∨ g.fetch = .corrected → i = false ∨ w = 3 → CanEnter s c.val ((cregs s c.val).vbase + BitVec.ofNat 32 (64 * 0)) g.entry → 
    Answers (.brev c g d a ⟨i, w⟩) s fun t => Entered s t c.val (cregs s c.val) (causeWord 0 0 1 0) 0 (savedPc (cregs s c.val).pc) ((cregs s c.val).vbase + BitVec.ofNat 32 (64 * 0)) none ∧ CoreOnly s t c.val (entryReg g)) ∧
  (∀ (s : State) (c : CoreNo) (g : IssueIn) (lvl : Bool) (cnt : LoopCnt), (coreAt s c.val).state = 2 → (coreAt s c.val).busy = false → (coreAt s c.val).slot = none → takeable s c.val = none → fetchFault s c.val (userMode (cregs s c.val)) (cregs s c.val).pc .none = none → g.fetch = .none ∨ g.fetch = .corrected → CanEnter s c.val ((cregs s c.val).vbase + BitVec.ofNat 32 (64 * 0)) g.entry → 
    Answers (.loop c g lvl cnt 0) s fun t => Entered s t c.val (cregs s c.val) (causeWord 0 0 1 0) 0 (savedPc (cregs s c.val).pc) ((cregs s c.val).vbase + BitVec.ofNat 32 (64 * 0)) none ∧ CoreOnly s t c.val (entryReg g)) ∧
  (∀ (s : State) (c : CoreNo) (g : IssueIn) (d a n : GReg) (poly : BitVec 2), (coreAt s c.val).state = 2 → (coreAt s c.val).busy = false → (coreAt s c.val).slot = none → takeable s c.val = none → fetchFault s c.val (userMode (cregs s c.val)) (cregs s c.val).pc .none = none → g.fetch = .none ∨ g.fetch = .corrected → poly ≠ 0 ∨ blockOperands [d, a, n] = false → CanEnter s c.val ((cregs s c.val).vbase + BitVec.ofNat 32 (64 * 0)) g.entry → 
    Answers (.bcopy c g d a ⟨n, poly⟩) s fun t => Entered s t c.val (cregs s c.val) (causeWord 0 0 1 0) 0 (savedPc (cregs s c.val).pc) ((cregs s c.val).vbase + BitVec.ofNat 32 (64 * 0)) none ∧ CoreOnly s t c.val (entryReg g)) ∧
  (∀ (s : State) (c : CoreNo) (g : IssueIn) (d a n : GReg) (poly : BitVec 2), (coreAt s c.val).state = 2 → (coreAt s c.val).busy = false → (coreAt s c.val).slot = none → takeable s c.val = none → fetchFault s c.val (userMode (cregs s c.val)) (cregs s c.val).pc .none = none → g.fetch = .none ∨ g.fetch = .corrected → poly ≠ 0 ∨ blockOperands [d, n] = false → CanEnter s c.val ((cregs s c.val).vbase + BitVec.ofNat 32 (64 * 0)) g.entry → 
    Answers (.bclr c g d ⟨a, n, poly⟩) s fun t => Entered s t c.val (cregs s c.val) (causeWord 0 0 1 0) 0 (savedPc (cregs s c.val).pc) ((cregs s c.val).vbase + BitVec.ofNat 32 (64 * 0)) none ∧ CoreOnly s t c.val (entryReg g)) ∧
  (∀ (s : State) (c : CoreNo) (g : IssueIn) (d a n : GReg), (coreAt s c.val).state = 2 → (coreAt s c.val).busy = false → (coreAt s c.val).slot = none → takeable s c.val = none → fetchFault s c.val (userMode (cregs s c.val)) (cregs s c.val).pc .none = none → g.fetch = .none ∨ g.fetch = .corrected → guardUndefined g.guard = false → a ≠ 0 → blockOperands [d, n] = true → CanEnter s c.val ((cregs s c.val).vbase + BitVec.ofNat 32 (64 * 0)) g.entry → 
    Answers (.bclr c g d ⟨a, n, 0⟩) s fun t => Entered s t c.val (cregs s c.val) (causeWord 0 0 2 0) 0 (savedPc (cregs s c.val).pc) ((cregs s c.val).vbase + BitVec.ofNat 32 (64 * 0)) none ∧ CoreOnly s t c.val (entryReg g)) ∧
  (∀ (s : State) (c : CoreNo) (g : IssueIn) (d a n : GReg) (poly : BitVec 2), (coreAt s c.val).state = 2 → (coreAt s c.val).busy = false → (coreAt s c.val).slot = none → takeable s c.val = none → fetchFault s c.val (userMode (cregs s c.val)) (cregs s c.val).pc .none = none → g.fetch = .none ∨ g.fetch = .corrected → poly = 3 ∨ blockOperands [d, a, n] = false → CanEnter s c.val ((cregs s c.val).vbase + BitVec.ofNat 32 (64 * 0)) g.entry → 
    Answers (.bcrc c g d a n poly) s fun t => Entered s t c.val (cregs s c.val) (causeWord 0 0 1 0) 0 (savedPc (cregs s c.val).pc) ((cregs s c.val).vbase + BitVec.ofNat 32 (64 * 0)) none ∧ CoreOnly s t c.val (entryReg g)) ∧
  (∀ (s : State) (c : CoreNo) (g : IssueIn) (d b : GReg) (x : Bool) (off : BitVec 12) (flt : MemFlt), (coreAt s c.val).state = 2 → (coreAt s c.val).busy = false → (coreAt s c.val).slot = none → takeable s c.val = none → fetchFault s c.val (userMode (cregs s c.val)) (cregs s c.val).pc .none = none → g.fetch = .none ∨ g.fetch = .corrected → CanEnter s c.val ((cregs s c.val).vbase + BitVec.ofNat 32 (64 * 0)) g.entry → 
    Answers (.ldstLoad c g d b 3 x off flt) s fun t => Entered s t c.val (cregs s c.val) (causeWord 0 0 1 0) 0 (savedPc (cregs s c.val).pc) ((cregs s c.val).vbase + BitVec.ofNat 32 (64 * 0)) none ∧ CoreOnly s t c.val (entryReg g)) ∧
  (∀ (s : State) (c : CoreNo) (g : IssueIn) (d b : GReg) (off : BitVec 12) (flt : MemFlt), (coreAt s c.val).state = 2 → (coreAt s c.val).busy = false → (coreAt s c.val).slot = none → takeable s c.val = none → fetchFault s c.val (userMode (cregs s c.val)) (cregs s c.val).pc .none = none → g.fetch = .none ∨ g.fetch = .corrected → guardUndefined g.guard = false → CanEnter s c.val ((cregs s c.val).vbase + BitVec.ofNat 32 (64 * 0)) g.entry → 
    Answers (.ldstLoad c g d b 2 true off flt) s fun t => Entered s t c.val (cregs s c.val) (causeWord 0 0 2 0) 0 (savedPc (cregs s c.val).pc) ((cregs s c.val).vbase + BitVec.ofNat 32 (64 * 0)) none ∧ CoreOnly s t c.val (entryReg g)) ∧
  (∀ (s : State) (c : CoreNo) (g : IssueIn) (d b : GReg) (x : Bool) (off : BitVec 12), (coreAt s c.val).state = 2 → (coreAt s c.val).busy = false → (coreAt s c.val).slot = none → takeable s c.val = none → fetchFault s c.val (userMode (cregs s c.val)) (cregs s c.val).pc .none = none → g.fetch = .none ∨ g.fetch = .corrected → CanEnter s c.val ((cregs s c.val).vbase + BitVec.ofNat 32 (64 * 0)) g.entry → 
    Answers (.ldstStore c g d b ⟨3, x⟩ off) s fun t => Entered s t c.val (cregs s c.val) (causeWord 0 0 1 0) 0 (savedPc (cregs s c.val).pc) ((cregs s c.val).vbase + BitVec.ofNat 32 (64 * 0)) none ∧ CoreOnly s t c.val (entryReg g)) ∧
  (∀ (s : State) (c : CoreNo) (g : IssueIn) (d b : GReg) (sz : BitVec 2) (off : BitVec 12), (coreAt s c.val).state = 2 → (coreAt s c.val).busy = false → (coreAt s c.val).slot = none → takeable s c.val = none → fetchFault s c.val (userMode (cregs s c.val)) (cregs s c.val).pc .none = none → g.fetch = .none ∨ g.fetch = .corrected → guardUndefined g.guard = false → sz ≠ 3 → CanEnter s c.val ((cregs s c.val).vbase + BitVec.ofNat 32 (64 * 0)) g.entry → 
    Answers (.ldstStore c g d b ⟨sz, true⟩ off) s fun t => Entered s t c.val (cregs s c.val) (causeWord 0 0 2 0) 0 (savedPc (cregs s c.val).pc) ((cregs s c.val).vbase + BitVec.ofNat 32 (64 * 0)) none ∧ CoreOnly s t c.val (entryReg g)) ∧
  (∀ (s : State) (c : CoreNo) (g : IssueIn) (mask : BitVec 16), (coreAt s c.val).state = 2 → (coreAt s c.val).busy = false → (coreAt s c.val).slot = none → takeable s c.val = none → fetchFault s c.val (userMode (cregs s c.val)) (cregs s c.val).pc .none = none → g.fetch = .none ∨ g.fetch = .corrected → guardUndefined g.guard = false → maskBad mask = true → CanEnter s c.val ((cregs s c.val).vbase + BitVec.ofNat 32 (64 * 0)) g.entry → 
    Answers (.pushm c g mask) s fun t => Entered s t c.val (cregs s c.val) (causeWord 0 0 2 0) 0 (savedPc (cregs s c.val).pc) ((cregs s c.val).vbase + BitVec.ofNat 32 (64 * 0)) none ∧ CoreOnly s t c.val (entryReg g)) ∧
  (∀ (s : State) (c : CoreNo) (g : IssueIn) (mask : BitVec 16), (coreAt s c.val).state = 2 → (coreAt s c.val).busy = false → (coreAt s c.val).slot = none → takeable s c.val = none → fetchFault s c.val (userMode (cregs s c.val)) (cregs s c.val).pc .none = none → g.fetch = .none ∨ g.fetch = .corrected → guardUndefined g.guard = false → maskBad mask = true → CanEnter s c.val ((cregs s c.val).vbase + BitVec.ofNat 32 (64 * 0)) g.entry → 
    Answers (.popm c g mask) s fun t => Entered s t c.val (cregs s c.val) (causeWord 0 0 2 0) 0 (savedPc (cregs s c.val).pc) ((cregs s c.val).vbase + BitVec.ofNat 32 (64 * 0)) none ∧ CoreOnly s t c.val (entryReg g)) ∧
  (∀ (s : State) (c : CoreNo) (g : IssueIn) (d : GReg) (sr : BitVec 8), (coreAt s c.val).state = 2 → (coreAt s c.val).busy = false → (coreAt s c.val).slot = none → takeable s c.val = none → fetchFault s c.val (userMode (cregs s c.val)) (cregs s c.val).pc .none = none → g.fetch = .none ∨ g.fetch = .corrected → guardUndefined g.guard = false → guardTrue (cregs s c.val) g.guard = true → srNamed sr.toNat = false → CanEnter s c.val ((cregs s c.val).vbase + BitVec.ofNat 32 (64 * 0)) g.entry → 
    Answers (.mfs c g d sr) s fun t => Entered s t c.val (cregs s c.val) (causeWord 0 0 1 0) 0 (savedPc (cregs s c.val).pc) ((cregs s c.val).vbase + BitVec.ofNat 32 (64 * 0)) none ∧ CoreOnly s t c.val (entryReg g)) ∧
  (∀ (s : State) (c : CoreNo) (g : IssueIn) (sr : BitVec 8) (a : GReg), (coreAt s c.val).state = 2 → (coreAt s c.val).busy = false → (coreAt s c.val).slot = none → takeable s c.val = none → fetchFault s c.val (userMode (cregs s c.val)) (cregs s c.val).pc .none = none → g.fetch = .none ∨ g.fetch = .corrected → guardUndefined g.guard = false → guardTrue (cregs s c.val) g.guard = true → srNamed sr.toNat = false → CanEnter s c.val ((cregs s c.val).vbase + BitVec.ofNat 32 (64 * 0)) g.entry → 
    Answers (.mts c g sr a) s fun t => Entered s t c.val (cregs s c.val) (causeWord 0 0 1 0) 0 (savedPc (cregs s c.val).pc) ((cregs s c.val).vbase + BitVec.ofNat 32 (64 * 0)) none ∧ CoreOnly s t c.val (entryReg g)) ∧
  (∀ (s : State) (c : CoreNo) (g : IssueIn) (disp : BitVec 22), (coreAt s c.val).state = 2 → (coreAt s c.val).busy = false → (coreAt s c.val).slot = none → takeable s c.val = none → fetchFault s c.val (userMode (cregs s c.val)) (cregs s c.val).pc .none = none → g.fetch = .none ∨ g.fetch = .corrected → guardUndefined g.guard = false → (cregs s c.val).lc0 ≠ 0 → (cregs s c.val).le0 = (cregs s c.val).pc → CanEnter s c.val ((cregs s c.val).vbase + BitVec.ofNat 32 (64 * 0)) g.entry → 
    Answers (.b c g disp) s fun t => Entered s t c.val (cregs s c.val) (causeWord 0 0 3 0) 0 (savedPc (cregs s c.val).pc) ((cregs s c.val).vbase + BitVec.ofNat 32 (64 * 0)) none ∧ CoreOnly s t c.val (entryReg g)) ∧
  (∀ (s : State) (c : CoreNo) (g : IssueIn), (coreAt s c.val).state = 2 → (coreAt s c.val).busy = false → (coreAt s c.val).slot = none → takeable s c.val = none → fetchFault s c.val (userMode (cregs s c.val)) (cregs s c.val).pc .none = none → g.fetch = .none ∨ g.fetch = .corrected → guardUndefined g.guard = false → userMode (cregs s c.val) = true → CanEnter s c.val ((cregs s c.val).vbase + BitVec.ofNat 32 (64 * 1)) g.entry → 
    Answers (.halt c g) s fun t => Entered s t c.val (cregs s c.val) (causeWord 0 1 0 0) 0 (savedPc (cregs s c.val).pc) ((cregs s c.val).vbase + BitVec.ofNat 32 (64 * 1)) none ∧ CoreOnly s t c.val (entryReg g)) ∧
  (∀ (s : State) (c : CoreNo) (g : IssueIn), (coreAt s c.val).state = 2 → (coreAt s c.val).busy = false → (coreAt s c.val).slot = none → takeable s c.val = none → fetchFault s c.val (userMode (cregs s c.val)) (cregs s c.val).pc .none = none → g.fetch = .none ∨ g.fetch = .corrected → guardUndefined g.guard = false → userMode (cregs s c.val) = true → CanEnter s c.val ((cregs s c.val).vbase + BitVec.ofNat 32 (64 * 1)) g.entry → 
    Answers (.wfi c g) s fun t => Entered s t c.val (cregs s c.val) (causeWord 0 1 0 0) 0 (savedPc (cregs s c.val).pc) ((cregs s c.val).vbase + BitVec.ofNat 32 (64 * 1)) none ∧ CoreOnly s t c.val (entryReg g)) ∧
  (∀ (s : State) (c : CoreNo) (g : IssueIn), (coreAt s c.val).state = 2 → (coreAt s c.val).busy = false → (coreAt s c.val).slot = none → takeable s c.val = none → fetchFault s c.val (userMode (cregs s c.val)) (cregs s c.val).pc .none = none → g.fetch = .none ∨ g.fetch = .corrected → guardUndefined g.guard = false → userMode (cregs s c.val) = true → CanEnter s c.val ((cregs s c.val).vbase + BitVec.ofNat 32 (64 * 1)) g.entry → 
    Answers (.eret c g) s fun t => Entered s t c.val (cregs s c.val) (causeWord 0 1 0 0) 0 (savedPc (cregs s c.val).pc) ((cregs s c.val).vbase + BitVec.ofNat 32 (64 * 1)) none ∧ CoreOnly s t c.val (entryReg g)) ∧
  (∀ (s : State) (c : CoreNo) (g : IssueIn) (sr : BitVec 8) (a : GReg), (coreAt s c.val).state = 2 → (coreAt s c.val).busy = false → (coreAt s c.val).slot = none → takeable s c.val = none → fetchFault s c.val (userMode (cregs s c.val)) (cregs s c.val).pc .none = none → g.fetch = .none ∨ g.fetch = .corrected → guardUndefined g.guard = false → srNamed sr.toNat = true → srRefused s c.val sr.toNat true = true → CanEnter s c.val ((cregs s c.val).vbase + BitVec.ofNat 32 (64 * 1)) g.entry → 
    Answers (.mts c g sr a) s fun t => Entered s t c.val (cregs s c.val) (causeWord 0 1 0 0) 0 (savedPc (cregs s c.val).pc) ((cregs s c.val).vbase + BitVec.ofNat 32 (64 * 1)) none ∧ CoreOnly s t c.val (entryReg g)) ∧
  (∀ (s : State) (c : CoreNo) (g : IssueIn) (d : GReg) (sr : BitVec 8), (coreAt s c.val).state = 2 → (coreAt s c.val).busy = false → (coreAt s c.val).slot = none → takeable s c.val = none → fetchFault s c.val (userMode (cregs s c.val)) (cregs s c.val).pc .none = none → g.fetch = .none ∨ g.fetch = .corrected → guardUndefined g.guard = false → srNamed sr.toNat = true → srRefused s c.val sr.toNat false = true → CanEnter s c.val ((cregs s c.val).vbase + BitVec.ofNat 32 (64 * 1)) g.entry → 
    Answers (.mfs c g d sr) s fun t => Entered s t c.val (cregs s c.val) (causeWord 0 1 0 0) 0 (savedPc (cregs s c.val).pc) ((cregs s c.val).vbase + BitVec.ofNat 32 (64 * 1)) none ∧ CoreOnly s t c.val (entryReg g)) ∧
  (∀ (s : State) (c : CoreNo) (g : IssueIn) (d b : GReg) (sz : BitVec 2) (x : Bool) (off : BitVec 12) (flt : MemFlt), (coreAt s c.val).state = 2 → (coreAt s c.val).busy = false → (coreAt s c.val).slot = none → takeable s c.val = none → fetchFault s c.val (userMode (cregs s c.val)) (cregs s c.val).pc .none = none → g.fetch = .none ∨ g.fetch = .corrected → guardUndefined g.guard = false → guardTrue (cregs s c.val) g.guard = true → sz ≠ 3 → sz ≠ 2 ∨ x = false → (ldstAddr (cregs s c.val) b off).toNat % sizeBytes sz ≠ 0 → CanEnter s c.val ((cregs s c.val).vbase + BitVec.ofNat 32 (64 * 2)) g.entry → 
    Answers (.ldstLoad c g d b sz x off flt) s fun t => Entered s t c.val (cregs s c.val) (causeWord 0 2 0 0) (ldstAddr (cregs s c.val) b off).toNat (savedPc (cregs s c.val).pc) ((cregs s c.val).vbase + BitVec.ofNat 32 (64 * 2)) none ∧ CoreOnly s t c.val (entryReg g)) ∧
  (∀ (s : State) (c : CoreNo) (g : IssueIn) (d b : GReg) (sz : BitVec 2) (off : BitVec 12), (coreAt s c.val).state = 2 → (coreAt s c.val).busy = false → (coreAt s c.val).slot = none → takeable s c.val = none → fetchFault s c.val (userMode (cregs s c.val)) (cregs s c.val).pc .none = none → g.fetch = .none ∨ g.fetch = .corrected → guardUndefined g.guard = false → guardTrue (cregs s c.val) g.guard = true → sz ≠ 3 → (ldstAddr (cregs s c.val) b off).toNat % sizeBytes sz ≠ 0 → CanEnter s c.val ((cregs s c.val).vbase + BitVec.ofNat 32 (64 * 2)) g.entry → 
    Answers (.ldstStore c g d b ⟨sz, false⟩ off) s fun t => Entered s t c.val (cregs s c.val) (causeWord 0 2 0 0) (ldstAddr (cregs s c.val) b off).toNat (savedPc (cregs s c.val).pc) ((cregs s c.val).vbase + BitVec.ofNat 32 (64 * 2)) none ∧ CoreOnly s t c.val (entryReg g)) ∧
  (∀ (s : State) (c : CoreNo) (g : IssueIn) (d b : GReg) (sz : BitVec 2) (off : BitVec 12), (coreAt s c.val).state = 2 → (coreAt s c.val).busy = false → (coreAt s c.val).slot = none → takeable s c.val = none → fetchFault s c.val (userMode (cregs s c.val)) (cregs s c.val).pc .none = none → g.fetch = .none ∨ g.fetch = .corrected → guardUndefined g.guard = false → guardTrue (cregs s c.val) g.guard = true → sz ≠ 3 → (ldstAddr (cregs s c.val) b off).toNat % sizeBytes sz = 0 → hitsReturnStack (cregs s c.val) (ldstAddr (cregs s c.val) b off).toNat (sizeBytes sz) = true → CanEnter s c.val ((cregs s c.val).vbase + BitVec.ofNat 32 (64 * 5)) g.entry → 
    Answers (.ldstStore c g d b ⟨sz, false⟩ off) s fun t => Entered s t c.val (cregs s c.val) (causeWord 0 5 3 0) (ldstAddr (cregs s c.val) b off).toNat (savedPc (cregs s c.val).pc) ((cregs s c.val).vbase + BitVec.ofNat 32 (64 * 5)) none ∧ CoreOnly s t c.val (entryReg g)) ∧
  (∀ (s : State) (c : CoreNo) (g : IssueIn) (d b : GReg) (sz : BitVec 2) (off : BitVec 12), (coreAt s c.val).state = 2 → (coreAt s c.val).busy = false → (coreAt s c.val).slot = none → takeable s c.val = none → fetchFault s c.val (userMode (cregs s c.val)) (cregs s c.val).pc .none = none → g.fetch = .none ∨ g.fetch = .corrected → guardUndefined g.guard = false → guardTrue (cregs s c.val) g.guard = true → sz ≠ 3 → (ldstAddr (cregs s c.val) b off).toNat % sizeBytes sz = 0 → hitsReturnStack (cregs s c.val) (ldstAddr (cregs s c.val) b off).toNat (sizeBytes sz) = false → permits s (coreAcs s c.val (userMode (cregs s c.val)) (ldstAddr (cregs s c.val) b off).toNat (sizeBytes sz) .write) = false → CanEnter s c.val ((cregs s c.val).vbase + BitVec.ofNat 32 (64 * 4)) g.entry → 
    Answers (.ldstStore c g d b ⟨sz, false⟩ off) s fun t => Entered s t c.val (cregs s c.val) (causeWord 0 4 2 0) (ldstAddr (cregs s c.val) b off).toNat (savedPc (cregs s c.val).pc) ((cregs s c.val).vbase + BitVec.ofNat 32 (64 * 4)) none ∧ FaultOnly s t c.val (fun k => checkpointPage k || entryReg g k)) ∧
  (∀ (s : State) (c : CoreNo) (g : IssueIn) (d b : GReg) (sz : BitVec 2) (x : Bool) (off : BitVec 12) (flt : MemFlt), (coreAt s c.val).state = 2 → (coreAt s c.val).busy = false → (coreAt s c.val).slot = none → takeable s c.val = none → fetchFault s c.val (userMode (cregs s c.val)) (cregs s c.val).pc .none = none → g.fetch = .none ∨ g.fetch = .corrected → guardUndefined g.guard = false → guardTrue (cregs s c.val) g.guard = true → sz ≠ 3 → sz ≠ 2 ∨ x = false → (ldstAddr (cregs s c.val) b off).toNat % sizeBytes sz = 0 → permits s (coreAcs s c.val (userMode (cregs s c.val)) (ldstAddr (cregs s c.val) b off).toNat (sizeBytes sz) .read) = false → CanEnter s c.val ((cregs s c.val).vbase + BitVec.ofNat 32 (64 * 4)) g.entry → 
    Answers (.ldstLoad c g d b sz x off flt) s fun t => Entered s t c.val (cregs s c.val) (causeWord 0 4 1 0) (ldstAddr (cregs s c.val) b off).toNat (savedPc (cregs s c.val).pc) ((cregs s c.val).vbase + BitVec.ofNat 32 (64 * 4)) none ∧ FaultOnly s t c.val (fun k => checkpointPage k || entryReg g k)) ∧
  (∀ (s : State) (c : CoreNo) (g : IssueIn) (mask : BitVec 16) (e : Exc), (coreAt s c.val).state = 2 → (coreAt s c.val).busy = false → (coreAt s c.val).slot = none → takeable s c.val = none → fetchFault s c.val (userMode (cregs s c.val)) (cregs s c.val).pc .none = none → g.fetch = .none ∨ g.fetch = .corrected → guardUndefined g.guard = false → guardTrue (cregs s c.val) g.guard = true → maskBad mask = false → maskRegs mask ≠ [] → dataStackFault (cregs s c.val) ((stk (cregs s c.val)).sp - 4) true = some e → CanEnter s c.val ((cregs s c.val).vbase + BitVec.ofNat 32 (64 * e.vec)) g.entry → 
    Answers (.pushm c g mask) s fun t => Entered s t c.val (cregs s c.val) (causeWord 0 e.vec e.sub 0) e.addr (savedPc (cregs s c.val).pc) ((cregs s c.val).vbase + BitVec.ofNat 32 (64 * e.vec)) none ∧ CoreOnly s t c.val (issueReg g)) ∧
  (∀ (s : State) (c : CoreNo) (g : IssueIn), (coreAt s c.val).state = 2 → (coreAt s c.val).busy = false → (coreAt s c.val).slot = none → takeable s c.val = none → fetchFault s c.val (userMode (cregs s c.val)) (cregs s c.val).pc .none = none → g.fetch = .none ∨ g.fetch = .corrected → guardUndefined g.guard = false → guardTrue (cregs s c.val) g.guard = true → Placed s c.val .transfer → stackFault (stk (cregs s c.val)) (stk (cregs s c.val)).sp (stk (cregs s c.val)).rsp = none → MayUse s c.val (userMode (cregs s c.val)) .read (stk (cregs s c.val)).sp.toNat 4 → MayUse s c.val (userMode (cregs s c.val)) .read (stk (cregs s c.val)).rsp.toNat 4 → wordAt s c.val (stk (cregs s c.val)).sp ≠ wordAt s c.val (stk (cregs s c.val)).rsp → readFlt g 0 = .none → readFlt g 1 = .none → CanEnter s c.val ((cregs s c.val).vbase + BitVec.ofNat 32 (64 * 7)) g.entry → 
    Answers (.ret c g) s fun t => Entered s t c.val (cregs s c.val) (causeWord 0 7 1 0) (wordAt s c.val (stk (cregs s c.val)).sp).toNat (savedPc (cregs s c.val).pc) ((cregs s c.val).vbase + BitVec.ofNat 32 (64 * 7)) none ∧ FaultOnly s t c.val (fun k => noReg k || entryReg g k)) ∧
  (∀ (s : State) (c : CoreNo) (g : IssueIn), (coreAt s c.val).state = 2 → (coreAt s c.val).busy = false → (coreAt s c.val).slot = none → takeable s c.val = none → fetchFault s c.val (userMode (cregs s c.val)) (cregs s c.val).pc .none = none → g.fetch = .none ∨ g.fetch = .corrected → guardUndefined g.guard = false → guardTrue (cregs s c.val) g.guard = true → Placed s c.val .alone → userMode (cregs s c.val) = false → eretBounds (cregs s c.val).sys = none → ∀ i ∈ List.range 10, MayUse s c.val false .read ((cregs s c.val).sys.sp + BitVec.ofNat 32 (4 * i)).toNat 4 → MayUse s c.val false .read (cregs s c.val).sys.rsp.toNat 4 → wordAt s c.val (cregs s c.val).sys.sp ≠ wordAt s c.val (cregs s c.val).sys.rsp → g.data = [] → CanEnter s c.val ((cregs s c.val).vbase + BitVec.ofNat 32 (64 * 7)) g.entry → 
    Answers (.eret c g) s fun t => Entered s t c.val (cregs s c.val) (causeWord 0 7 2 0) (wordAt s c.val (cregs s c.val).sys.sp).toNat (savedPc (cregs s c.val).pc) ((cregs s c.val).vbase + BitVec.ofNat 32 (64 * 7)) none ∧ FaultOnly s t c.val (fun k => noReg k || entryReg g k)) ∧
  (∀ (s : State) (c : CoreNo) (g : IssueIn) (n : BitVec 12), (coreAt s c.val).state = 2 → (coreAt s c.val).busy = false → (coreAt s c.val).slot = none → takeable s c.val = none → fetchFault s c.val (userMode (cregs s c.val)) (cregs s c.val).pc .none = none → g.fetch = .none ∨ g.fetch = .corrected → guardUndefined g.guard = false → guardTrue (cregs s c.val) g.guard = true → Placed s c.val .alone → min 4096 (cregs s c.val).tgLimit.toNat ≤ n.toNat → CanEnter s c.val ((cregs s c.val).vbase + BitVec.ofNat 32 (64 * 8)) g.entry → 
    Answers (.gate c g n) s fun t => Entered s t c.val (cregs s c.val) (causeWord 0 8 1 0) n.toNat (savedPc (cregs s c.val).pc) ((cregs s c.val).vbase + BitVec.ofNat 32 (64 * 8)) none ∧ CoreOnly s t c.val (entryReg g)) ∧
  (∀ (s : State) (c : CoreNo) (g : IssueIn) (n : BitVec 12), (coreAt s c.val).state = 2 → (coreAt s c.val).busy = false → (coreAt s c.val).slot = none → takeable s c.val = none → fetchFault s c.val (userMode (cregs s c.val)) (cregs s c.val).pc .none = none → g.fetch = .none ∨ g.fetch = .corrected → guardUndefined g.guard = false → guardTrue (cregs s c.val) g.guard = true → Placed s c.val .alone → n.toNat < min 4096 (cregs s c.val).tgLimit.toNat → MayUse s c.val false .read ((cregs s c.val).tgBase + BitVec.ofNat 32 (8 * n.toNat)).toNat 4 → MayUse s c.val false .read (((cregs s c.val).tgBase + BitVec.ofNat 32 (8 * n.toNat)).toNat + 4) 4 → (((cregs s c.val).tgBase + BitVec.ofNat 32 (8 * n.toNat)) + 4).toNat = ((cregs s c.val).tgBase + BitVec.ofNat 32 (8 * n.toNat)).toNat + 4 → gateRefused (cregs s c.val) (wordAt s c.val ((cregs s c.val).tgBase + BitVec.ofNat 32 (8 * n.toNat))).toNat (wordAt s c.val (((cregs s c.val).tgBase + BitVec.ofNat 32 (8 * n.toNat)) + 4)).toNat = true → readFlt g 0 = .none → readFlt g 1 = .none → CanEnter s c.val ((cregs s c.val).vbase + BitVec.ofNat 32 (64 * 8)) g.entry → 
    Answers (.gate c g n) s fun t => Entered s t c.val (cregs s c.val) (causeWord 0 8 2 0) n.toNat (savedPc (cregs s c.val).pc) ((cregs s c.val).vbase + BitVec.ofNat 32 (64 * 8)) none ∧ CoreOnly s t c.val (entryReg g)) ∧
  (∀ (s : State) (c : CoreNo) (g : IssueIn), (coreAt s c.val).state = 2 → (coreAt s c.val).busy = false → (coreAt s c.val).slot = none → takeable s c.val = none → (cregs s c.val).pc.toNat % 4 ≠ 0 → CanEnter s c.val ((cregs s c.val).vbase + BitVec.ofNat 32 (64 * 3)) g.entry → 
    Answers (.sysNop c g) s fun t => Entered s t c.val (cregs s c.val) (causeWord 0 3 0 0) (cregs s c.val).pc.toNat (savedPc (cregs s c.val).pc) ((cregs s c.val).vbase + BitVec.ofNat 32 (64 * 3)) none ∧ CoreOnly s t c.val (entryReg g)) ∧
  (∀ (s : State) (c : CoreNo) (g : IssueIn), (coreAt s c.val).state = 2 → (coreAt s c.val).busy = false → (coreAt s c.val).slot = none → takeable s c.val = none → (cregs s c.val).pc.toNat % 4 = 0 → permits s (coreAcs s c.val (userMode (cregs s c.val)) (cregs s c.val).pc.toNat 4 .fetch) = false → CanEnter s c.val ((cregs s c.val).vbase + BitVec.ofNat 32 (64 * 3)) g.entry → 
    Answers (.sysNop c g) s fun t => Entered s t c.val (cregs s c.val) (causeWord 0 3 0 0) (cregs s c.val).pc.toNat (savedPc (cregs s c.val).pc) ((cregs s c.val).vbase + BitVec.ofNat 32 (64 * 3)) none ∧ FaultOnly s t c.val (fun k => checkpointPage k || entryReg g k)) ∧
  (∀ (s : State) (c : CoreNo) (g : IssueIn) (w : SlotWait) (x : BitVec 32), (coreAt s c.val).state = 2 → (coreAt s c.val).busy = false → takeable s c.val = none → fetchFault s c.val (userMode (cregs s c.val)) (cregs s c.val).pc .none = none → g.fetch = .none ∨ g.fetch = .corrected → (coreAt s c.val).slot = some w → ixSub x ≠ some 2 → CanEnter (setCore s c.val { coreAt s c.val with r := w.before, slot := none }) c.val (w.before.vbase + BitVec.ofNat 32 0) g.entry → 
    Answers (.udf c g x) s fun t => Entered (setCore s c.val { coreAt s c.val with r := w.before, slot := none }) t c.val w.before (causeWord 0 0 1 0) 0 (savedPc w.before.pc ||| 1) (w.before.vbase + BitVec.ofNat 32 0) none ∧ CoreOnly s t c.val (entryReg g))

/-- INTERRUPT_ENTRY at a boundary takes the pending source of highest priority at vector 15 + priority with IPL its priority; an entry whose system stack has no room is a double fault at vector 9 with DFL set; an entry under DFL is a third fault, which stops the core and nothing else, and so is an ERET under DFL; a core in WFI whose source is pending goes on behind the WFI. An instruction of a core that does not run, or whose load waits, and an INTERRUPT_ENTRY with nothing to take, do nothing; an instruction at a boundary where an interrupt may be taken gives way to its entry. Forms whose completion it states: interruptEntry, udf, sysNop, eret. (R374, R375, R377, R378, R387, R388, R389) -/
def Obligations.InterruptsAndFaults : Prop :=
  (∀ (s : State) (c : CoreNo) (n p : Nat) (m : EntryMet), (coreAt s c.val).state = 2 → takeable s c.val = some (n, p) → CanEnter s c.val ((cregs s c.val).vbase + BitVec.ofNat 32 (64 * (15 + p))) m → 
    Answers (.interruptEntry ⟨c, m⟩) s fun t => Entered s t c.val (cregs s c.val) (causeWord 2 n 0 0) 0 (savedPc (cregs s c.val).pc) ((cregs s c.val).vbase + BitVec.ofNat 32 (64 * (15 + p))) (some p) ∧ CoreOnly s t c.val (fetchReg { guard := 0, fetch := m.fetch })) ∧
  (∀ (s : State) (c : CoreNo) (g : IssueIn), (coreAt s c.val).state = 2 → (coreAt s c.val).busy = false → (coreAt s c.val).slot = none → takeable s c.val = none → fetchFault s c.val (userMode (cregs s c.val)) (cregs s c.val).pc .none = none → g.fetch = .none ∨ g.fetch = .corrected → wbit (cregs s c.val).psw 6 = false → (cregs s c.val).sys.sp.toNat < (cregs s c.val).sys.base.toNat + 40 → 
    Answers (.udf c g 0) s fun t => cregs t c.val = { cregs s c.val with epc := savedPc (cregs s c.val).pc, eaddr := (cregs s c.val).sys.sp - 40, ecause := BitVec.ofNat 32 (causeWord 0 9 1 0), psw := ((cregs s c.val).psw &&& 0xFFFFFFCF) ||| 0x40, pc := (cregs s c.val).vbase + 0x240 } ∧ t.mem = s.mem ∧ FaultOnly s t c.val (fetchReg g)) ∧
  (∀ (s : State) (c : CoreNo) (g : IssueIn), (coreAt s c.val).state = 2 → (coreAt s c.val).busy = false → (coreAt s c.val).slot = none → takeable s c.val = none → fetchFault s c.val (userMode (cregs s c.val)) (cregs s c.val).pc .none = none → g.fetch = .none ∨ g.fetch = .corrected → wbit (cregs s c.val).psw 6 = true → 
    Answers (.udf c g 0) s fun t => (coreAt t c.val).state = 5 ∧ cregs t c.val = cregs s c.val ∧ reg t (ck c.val Reg.IXM_FAULT_PC) = savedPc (cregs s c.val).pc ∧ t.mem = s.mem ∧ FaultOnly s t c.val (fetchReg g)) ∧
  (∀ (s : State) (c : CoreNo) (m : EntryMet), (coreAt s c.val).state = 3 → wfiDone s c.val = true → wbit (cregs s c.val).psw 5 = false → (coreAt s c.val).slot = none → (coreAt s c.val).haltReq = false → 
    Answers (.interruptEntry ⟨c, m⟩) s fun t => (coreAt t c.val).state = 2 ∧ cregs t c.val = after none (cregs s c.val) ∧ t.mem = s.mem ∧ CoreOnly s t c.val noReg) ∧
  (∀ (s : State) (c : CoreNo) (m : EntryMet), (coreAt s c.val).state ≠ 3 ∨ wfiDone s c.val = false → (coreAt s c.val).state ≠ 2 ∨ takeable s c.val = none → 
    Answers (.interruptEntry ⟨c, m⟩) s fun t => t = s) ∧
  (∀ (s : State) (c : CoreNo) (g : IssueIn), (coreAt s c.val).state ≠ 2 → (coreAt s c.val).state ≠ 3 ∨ wfiDone s c.val = false → 
    Answers (.sysNop c g) s fun t => t = s) ∧
  (∀ (s : State) (c : CoreNo) (g : IssueIn), (coreAt s c.val).state = 2 → (coreAt s c.val).busy = true → (coreAt s c.val).loaded = none → 
    Answers (.sysNop c g) s fun t => t = s) ∧
  (∀ (s : State) (c : CoreNo) (g : IssueIn) (n p : Nat), (coreAt s c.val).state = 2 → takeable s c.val = some (n, p) → CanEnter s c.val ((cregs s c.val).vbase + BitVec.ofNat 32 (64 * (15 + p))) g.entry → 
    Answers (.sysNop c g) s fun t => Entered s t c.val (cregs s c.val) (causeWord 2 n 0 0) 0 (savedPc (cregs s c.val).pc) ((cregs s c.val).vbase + BitVec.ofNat 32 (64 * (15 + p))) (some p) ∧ CoreOnly s t c.val (fetchReg { guard := 0, fetch := g.entry.fetch })) ∧
  (∀ (s : State) (c : CoreNo) (g : IssueIn), (coreAt s c.val).state = 2 → (coreAt s c.val).busy = false → (coreAt s c.val).slot = none → takeable s c.val = none → fetchFault s c.val (userMode (cregs s c.val)) (cregs s c.val).pc .none = none → g.fetch = .none ∨ g.fetch = .corrected → guardUndefined g.guard = false → guardTrue (cregs s c.val) g.guard = true → Placed s c.val .alone → userMode (cregs s c.val) = false → wbit (cregs s c.val).psw 6 = true → 
    Answers (.eret c g) s fun t => (coreAt t c.val).state = 5 ∧ cregs t c.val = cregs s c.val ∧ reg t (ck c.val Reg.IXM_FAULT_PC) = savedPc (cregs s c.val).pc ∧ t.mem = s.mem ∧ FaultOnly s t c.val (fetchReg g))

/-- An aligned load of RAM the Checkpoint lets the core read, whose data meet no error or a corrected one, writes Gd with the data, zero- or sign-extended; a load from elsewhere in the map gives Gd what a read of the map gives; a load of a register page gives Gd the bytes of the register read, and one that waits for CHECKPOINT_SYNC issues again and takes its data; an aligned store outside the return stack range writes the low bytes of Gd, little-endian, to those bytes of RAM and no others, and a word store to a register page writes that register; data that fails its Seal check at its sink is discarded there, and the store has done nothing else. Forms whose completion it states: ldstLoad, ldstStore. (R38, R322, R340, R371, R400) -/
def Obligations.LoadsAndStores : Prop :=
  (∀ (s : State) (c : CoreNo) (g : IssueIn) (d b : GReg) (sz : BitVec 2) (x : Bool) (off : BitVec 12), Issues s c.val g → sz ≠ 3 → sz ≠ 2 ∨ x = false → (ldstAddr (cregs s c.val) b off).toNat % sizeBytes sz = 0 → MayUse s c.val (userMode (cregs s c.val)) .read (ldstAddr (cregs s c.val) b off).toNat (sizeBytes sz) → 
    Answers (.ldstLoad c g d b sz x off .none) s fun t => Retires s t c.val g fun r => setGpr r d (extended sz x (le (memBytes s (physAddr c.val (ldstAddr (cregs s c.val) b off).toNat) (sizeBytes sz))))) ∧
  (∀ (s : State) (c : CoreNo) (g : IssueIn) (d b : GReg) (sz : BitVec 2) (x : Bool) (off : BitVec 12), Issues s c.val g → sz ≠ 3 → sz ≠ 2 ∨ x = false → (ldstAddr (cregs s c.val) b off).toNat % sizeBytes sz = 0 → MayUse s c.val (userMode (cregs s c.val)) .read (ldstAddr (cregs s c.val) b off).toNat (sizeBytes sz) → 
    Answers (.ldstLoad c g d b sz x off .corrected) s fun t => cregs t c.val = after (coreAt s c.val).slot (setGpr (cregs s c.val) d (extended sz x (le (memBytes s (physAddr c.val (ldstAddr (cregs s c.val) b off).toNat) (sizeBytes sz))))) ∧ (coreAt t c.val).slot = none ∧ t.mem = s.mem ∧ CoreOnly s t c.val eccCount) ∧
  (∀ (s : State) (c : CoreNo) (g : IssueIn) (d b : GReg) (sz : BitVec 2) (x : Bool) (off : BitVec 12) (flt : MemFlt), Issues s c.val g → sz ≠ 3 → sz ≠ 2 ∨ x = false → (ldstAddr (cregs s c.val) b off).toNat % sizeBytes sz = 0 → flt = .none ∨ flt = .corrected ∨ flt = .uncorr → permits s (coreAcs s c.val (userMode (cregs s c.val)) (ldstAddr (cregs s c.val) b off).toNat (sizeBytes sz) .read) = true → eccRegion (regionOf c.val (ldstAddr (cregs s c.val) b off).toNat (sizeBytes sz)) = false → regionOf c.val (ldstAddr (cregs s c.val) b off).toNat (sizeBytes sz) ≠ some .regs → 
    Answers (.ldstLoad c g d b sz x off flt) s fun t => Retires s t c.val g fun r => setGpr r d (extended sz x (le (mapRead s c.val (ldstAddr (cregs s c.val) b off).toNat (sizeBytes sz)).1))) ∧
  (∀ (s : State) (c : CoreNo) (g : IssueIn) (d b : GReg) (sz : BitVec 2) (x : Bool) (off : BitVec 12) (v : Nat), Issues s c.val g → sz ≠ 3 → sz ≠ 2 ∨ x = false → (ldstAddr (cregs s c.val) b off).toNat % sizeBytes sz = 0 → permits s (coreAcs s c.val (userMode (cregs s c.val)) (ldstAddr (cregs s c.val) b off).toNat (sizeBytes sz) .read) = true → regionOf c.val (ldstAddr (cregs s c.val) b off).toNat (sizeBytes sz) = some .regs → (coreAt s c.val).loaded = none → (readReg (accessEvents (fetched (setCore s c.val { coreAt s c.val with shadow := false, busy := true }) c.val (userMode (cregs s c.val)) (cregs s c.val).pc g.fetch) c.val 5 (ldstAddr (cregs s c.val) b off).toNat (sizeBytes sz) (userMode (cregs s c.val))) (.core c) ((ldstAddr (cregs s c.val) b off).toNat % 0x100000 / 4 * 4) ((ldstAddr (cregs s c.val) b off).toNat % 4) (sizeBytes sz)).1 = some v → 
    Answers (.ldstLoad c g d b sz x off .none) s fun t => t = instrEnds c.val (coreAt s c.val) (setCore s c.val { coreAt s c.val with shadow := false, busy := true }) g.entry (.ok (setRegs (readReg (accessEvents (fetched (setCore s c.val { coreAt s c.val with shadow := false, busy := true }) c.val (userMode (cregs s c.val)) (cregs s c.val).pc g.fetch) c.val 5 (ldstAddr (cregs s c.val) b off).toNat (sizeBytes sz) (userMode (cregs s c.val))) (.core c) ((ldstAddr (cregs s c.val) b off).toNat % 0x100000 / 4 * 4) ((ldstAddr (cregs s c.val) b off).toNat % 4) (sizeBytes sz)).2 c.val (setGpr (cregs (readReg (accessEvents (fetched (setCore s c.val { coreAt s c.val with shadow := false, busy := true }) c.val (userMode (cregs s c.val)) (cregs s c.val).pc g.fetch) c.val 5 (ldstAddr (cregs s c.val) b off).toNat (sizeBytes sz) (userMode (cregs s c.val))) (.core c) ((ldstAddr (cregs s c.val) b off).toNat % 0x100000 / 4 * 4) ((ldstAddr (cregs s c.val) b off).toNat % 4) (sizeBytes sz)).2 c.val) d (extended sz x (v / 256 ^ ((ldstAddr (cregs s c.val) b off).toNat % 4) % 256 ^ sizeBytes sz)))))) ∧
  (∀ (s : State) (c : CoreNo) (g : IssueIn) (d b : GReg) (sz : BitVec 2) (x : Bool) (off : BitVec 12) (v : Nat), NoLate s c.val → (coreAt s c.val).state = 2 → (coreAt s c.val).busy = true → (coreAt s c.val).loaded = some v → fetchFault s c.val (userMode (cregs s c.val)) (cregs s c.val).pc .none = none → guardUndefined g.guard = false → guardTrue (cregs s c.val) g.guard = true → sz ≠ 3 → sz ≠ 2 ∨ x = false → (ldstAddr (cregs s c.val) b off).toNat % sizeBytes sz = 0 → permits s (coreAcs s c.val (userMode (cregs s c.val)) (ldstAddr (cregs s c.val) b off).toNat (sizeBytes sz) .read) = true → regionOf c.val (ldstAddr (cregs s c.val) b off).toNat (sizeBytes sz) = some .regs → 
    Answers (.ldstLoad c g d b sz x off .none) s fun t => cregs t c.val = after (coreAt s c.val).slot (setGpr (cregs s c.val) d (extended sz x (v / 256 ^ ((ldstAddr (cregs s c.val) b off).toNat % 4) % 256 ^ sizeBytes sz))) ∧ t.mem = s.mem ∧ CoreOnly s t c.val noReg) ∧
  (∀ (s : State) (c : CoreNo) (g : IssueIn) (d b : GReg) (sz : BitVec 2) (off : BitVec 12), Issues s c.val g → g.hit = none → sz ≠ 3 → (ldstAddr (cregs s c.val) b off).toNat % sizeBytes sz = 0 → hitsReturnStack (cregs s c.val) (ldstAddr (cregs s c.val) b off).toNat (sizeBytes sz) = false → MayStore s c.val (userMode (cregs s c.val)) (ldstAddr (cregs s c.val) b off).toNat (sizeBytes sz) → 
    Answers (.ldstStore c g d b ⟨sz, false⟩ off) s fun t => cregs t c.val = after (coreAt s c.val).slot (cregs s c.val) ∧ memBytes t (physAddr c.val (ldstAddr (cregs s c.val) b off).toNat) (sizeBytes sz) = toLe (sizeBytes sz) (gpr (cregs s c.val) d).toNat ∧ OnlyBytes s t c.val (ldstAddr (cregs s c.val) b off).toNat (sizeBytes sz) ∧ CoreOnly s t c.val (fetchReg g)) ∧
  (∀ (s : State) (c : CoreNo) (g : IssueIn) (d b : GReg) (sz : BitVec 2) (off : BitVec 12), Issues s c.val g → g.hit = none → sz ≠ 3 → (ldstAddr (cregs s c.val) b off).toNat % sizeBytes sz = 0 → hitsReturnStack (cregs s c.val) (ldstAddr (cregs s c.val) b off).toNat (sizeBytes sz) = false → permits s (coreAcs s c.val (userMode (cregs s c.val)) (ldstAddr (cregs s c.val) b off).toNat (sizeBytes sz) .write) = true → regionOf c.val (ldstAddr (cregs s c.val) b off).toNat (sizeBytes sz) = some .regs → sz = 2 → (coreAt s c.val).loaded = none → 
    Answers (.ldstStore c g d b ⟨sz, false⟩ off) s fun t => t = instrEnds c.val (coreAt s c.val) (setCore s c.val { coreAt s c.val with shadow := false, busy := true }) g.entry (.ok (writeReg (surveyEvent (accessEvents (fetched (setCore s c.val { coreAt s c.val with shadow := false, busy := true }) c.val (userMode (cregs s c.val)) (cregs s c.val).pc g.fetch) c.val 6 (ldstAddr (cregs s c.val) b off).toNat 4 (userMode (cregs s c.val))) c.val 0x106 ((ldstAddr (cregs s c.val) b off).toNat % 0x100000) true) (.core c) ((ldstAddr (cregs s c.val) b off).toNat % 0x100000) (gpr (cregs s c.val) d)))) ∧
  (∀ (s : State) (c : CoreNo) (g : IssueIn) (d b : GReg) (sz : BitVec 2) (off : BitVec 12), (sealPass (corePage c.val) (memSinkPage c.val (ldstAddr (cregs s c.val) b off).toNat (sizeBytes sz)) none 0 (toLe (sizeBytes sz) (gpr (cregs s c.val) d).toNat) g.hit).2 = false → (coreAt s c.val).loaded = none → Issues s c.val g → sz ≠ 3 → (ldstAddr (cregs s c.val) b off).toNat % sizeBytes sz = 0 → hitsReturnStack (cregs s c.val) (ldstAddr (cregs s c.val) b off).toNat (sizeBytes sz) = false → permits s (coreAcs s c.val (userMode (cregs s c.val)) (ldstAddr (cregs s c.val) b off).toNat (sizeBytes sz) .write) = true → 
    Answers (.ldstStore c g d b ⟨sz, false⟩ off) s fun t => t = instrEnds c.val (coreAt s c.val) (setCore s c.val { coreAt s c.val with shadow := false, busy := true }) g.entry (.ok (sealFault (accessEvents (fetched (setCore s c.val { coreAt s c.val with shadow := false, busy := true }) c.val (userMode (cregs s c.val)) (cregs s c.val).pc g.fetch) c.val 6 (ldstAddr (cregs s c.val) b off).toNat (sizeBytes sz) (userMode (cregs s c.val))) (memSinkPage c.val (ldstAddr (cregs s c.val) b off).toNat (sizeBytes sz)))))

/-- PUSHM stores the named registers below the data stack pointer, the highest number highest, and lowers the pointer by their bytes; POPM reads them back in ascending order and raises it. The words are RAM that the Checkpoint permits; the data read may meet corrected errors. Forms whose completion it states: pushm, popm. (R328, R341) -/
def Obligations.MultipleTransfers : Prop :=
  (∀ (s : State) (c : CoreNo) (g : IssueIn) (mask : BitVec 16), Issues s c.val g → g.hit = none → maskBad mask = false → (stk (cregs s c.val)).sp.toNat % 4 = 0 → (stk (cregs s c.val)).base.toNat + 4 * (maskRegs mask).length ≤ (stk (cregs s c.val)).sp.toNat → (stk (cregs s c.val)).sp.toNat ≤ (stk (cregs s c.val)).limit.toNat → ∀ i ∈ List.range (maskRegs mask).length, MayStore s c.val (userMode (cregs s c.val)) ((stk (cregs s c.val)).sp.toNat - 4 * (i + 1)) 4 ∧ hitsReturnStack (cregs s c.val) ((stk (cregs s c.val)).sp.toNat - 4 * (i + 1)) 4 = false → 
    Answers (.pushm c g mask) s fun t => cregs t c.val = after (coreAt s c.val).slot (setSp (cregs s c.val) ((stk (cregs s c.val)).sp - BitVec.ofNat 32 (4 * (maskRegs mask).length))) ∧ (∀ i (h : i < (maskRegs mask).length), wordAt t c.val ((stk (cregs s c.val)).sp - BitVec.ofNat 32 (4 * ((maskRegs mask).length - i))) = gpr (cregs s c.val) ((maskRegs mask)[i])) ∧ (∀ x, (∀ i, i < (maskRegs mask).length → x < physAddr c.val ((stk (cregs s c.val)).sp.toNat - 4 * (i + 1)) ∨ physAddr c.val ((stk (cregs s c.val)).sp.toNat - 4 * (i + 1)) + 4 ≤ x) → memByte t x = memByte s x) ∧ CoreOnly s t c.val (fetchReg g)) ∧
  (∀ (s : State) (c : CoreNo) (g : IssueIn) (mask : BitVec 16), Issues s c.val g → maskBad mask = false → (stk (cregs s c.val)).sp.toNat % 4 = 0 → (stk (cregs s c.val)).base.toNat ≤ (stk (cregs s c.val)).sp.toNat → (stk (cregs s c.val)).sp.toNat + 4 * (maskRegs mask).length ≤ (stk (cregs s c.val)).limit.toNat → ∀ i ∈ List.range (maskRegs mask).length, MayUse s c.val (userMode (cregs s c.val)) .read ((stk (cregs s c.val)).sp.toNat + 4 * i) 4 ∧ Readable g i → 
    Answers (.popm c g mask) s fun t => cregs t c.val = after (coreAt s c.val).slot (setSp ((maskRegs mask).zipIdx.foldl (fun r e => setGpr r e.1 (wordAt s c.val ((stk (cregs s c.val)).sp + BitVec.ofNat 32 (4 * e.2)))) (cregs s c.val)) ((stk (cregs s c.val)).sp + BitVec.ofNat 32 (4 * (maskRegs mask).length))) ∧ t.mem = s.mem ∧ CoreOnly s t c.val (issueReg g))

/-- An atomic instruction on an aligned shared-SRAM word the Checkpoint permits gives Gd the old word and writes the new one, Ga, the sum, or for CAS Ga where the old word equals Gd, with Pd telling whether it did; no other byte changes. A write that fails its Seal check at the SRAM is discarded. Forms whose completion it states: swap, adda, cas. (R38, R323, R342) -/
def Obligations.AtomicOps : Prop :=
  (∀ (s : State) (c : CoreNo) (g : IssueIn) (d b a : GReg), g.hit = none → Issues s c.val g → (gpr (cregs s c.val) b).toNat % 4 = 0 → hitsReturnStack (cregs s c.val) (gpr (cregs s c.val) b).toNat 4 = false → sramBase ≤ (gpr (cregs s c.val) b).toNat → (gpr (cregs s c.val) b).toNat < sramEnd → MayUse s c.val (userMode (cregs s c.val)) .atomic (gpr (cregs s c.val) b).toNat 4 → Readable g 0 → 
    Answers (.swap c g d b a) s fun t => cregs t c.val = after (coreAt s c.val).slot (setGpr (cregs s c.val) d (wordAt s c.val (gpr (cregs s c.val) b))) ∧ wordAt t c.val (gpr (cregs s c.val) b) = gpr (cregs s c.val) a ∧ OnlyBytes s t c.val (gpr (cregs s c.val) b).toNat 4 ∧ CoreOnly s t c.val (issueReg g)) ∧
  (∀ (s : State) (c : CoreNo) (g : IssueIn) (d b a : GReg), g.hit = none → Issues s c.val g → (gpr (cregs s c.val) b).toNat % 4 = 0 → hitsReturnStack (cregs s c.val) (gpr (cregs s c.val) b).toNat 4 = false → sramBase ≤ (gpr (cregs s c.val) b).toNat → (gpr (cregs s c.val) b).toNat < sramEnd → MayUse s c.val (userMode (cregs s c.val)) .atomic (gpr (cregs s c.val) b).toNat 4 → Readable g 0 → 
    Answers (.adda c g d b a) s fun t => cregs t c.val = after (coreAt s c.val).slot (setGpr (cregs s c.val) d (wordAt s c.val (gpr (cregs s c.val) b))) ∧ wordAt t c.val (gpr (cregs s c.val) b) = (wordAt s c.val (gpr (cregs s c.val) b)) + gpr (cregs s c.val) a ∧ OnlyBytes s t c.val (gpr (cregs s c.val) b).toNat 4 ∧ CoreOnly s t c.val (issueReg g)) ∧
  (∀ (s : State) (c : CoreNo) (g : IssueIn) (d b a : GReg) (pd : BitVec 2), g.hit = none → Issues s c.val g → (gpr (cregs s c.val) b).toNat % 4 = 0 → hitsReturnStack (cregs s c.val) (gpr (cregs s c.val) b).toNat 4 = false → sramBase ≤ (gpr (cregs s c.val) b).toNat → (gpr (cregs s c.val) b).toNat < sramEnd → MayUse s c.val (userMode (cregs s c.val)) .atomic (gpr (cregs s c.val) b).toNat 4 → Readable g 0 → 
    Answers (.cas c g d b a pd) s fun t => cregs t c.val = after (coreAt s c.val).slot (setPred (setGpr (cregs s c.val) d (wordAt s c.val (gpr (cregs s c.val) b))) pd.toNat (decide ((wordAt s c.val (gpr (cregs s c.val) b)) = gpr (cregs s c.val) d))) ∧ wordAt t c.val (gpr (cregs s c.val) b) = (if (wordAt s c.val (gpr (cregs s c.val) b)) = gpr (cregs s c.val) d then gpr (cregs s c.val) a else (wordAt s c.val (gpr (cregs s c.val) b))) ∧ OnlyBytes s t c.val (gpr (cregs s c.val) b).toNat 4 ∧ CoreOnly s t c.val (issueReg g)) ∧
  (∀ (s : State) (c : CoreNo) (g : IssueIn) (d b a : GReg), (sealPass (corePage c.val) 0x40 none 0 (toLe 4 (gpr (cregs s c.val) a).toNat) g.hit).2 = false → Issues s c.val g → (gpr (cregs s c.val) b).toNat % 4 = 0 → hitsReturnStack (cregs s c.val) (gpr (cregs s c.val) b).toNat 4 = false → sramBase ≤ (gpr (cregs s c.val) b).toNat → (gpr (cregs s c.val) b).toNat < sramEnd → MayUse s c.val (userMode (cregs s c.val)) .atomic (gpr (cregs s c.val) b).toNat 4 → Readable g 0 → 
    Answers (.swap c g d b a) s fun t => cregs t c.val = after (coreAt s c.val).slot (setGpr (cregs s c.val) d (wordAt s c.val (gpr (cregs s c.val) b))) ∧ t.mem = s.mem ∧ FaultOnly s t c.val (fun k => issueReg g k || checkpointPage k)) ∧
  (∀ (s : State) (c : CoreNo) (g : IssueIn) (d b a : GReg), (sealPass (corePage c.val) 0x40 none 0 (toLe 4 ((wordAt s c.val (gpr (cregs s c.val) b)) + gpr (cregs s c.val) a).toNat) g.hit).2 = false → Issues s c.val g → (gpr (cregs s c.val) b).toNat % 4 = 0 → hitsReturnStack (cregs s c.val) (gpr (cregs s c.val) b).toNat 4 = false → sramBase ≤ (gpr (cregs s c.val) b).toNat → (gpr (cregs s c.val) b).toNat < sramEnd → MayUse s c.val (userMode (cregs s c.val)) .atomic (gpr (cregs s c.val) b).toNat 4 → Readable g 0 → 
    Answers (.adda c g d b a) s fun t => cregs t c.val = after (coreAt s c.val).slot (setGpr (cregs s c.val) d (wordAt s c.val (gpr (cregs s c.val) b))) ∧ t.mem = s.mem ∧ FaultOnly s t c.val (fun k => issueReg g k || checkpointPage k)) ∧
  (∀ (s : State) (c : CoreNo) (g : IssueIn) (d b a : GReg) (pd : BitVec 2), (sealPass (corePage c.val) 0x40 none 0 (toLe 4 (gpr (cregs s c.val) a).toNat) g.hit).2 = false → Issues s c.val g → (gpr (cregs s c.val) b).toNat % 4 = 0 → hitsReturnStack (cregs s c.val) (gpr (cregs s c.val) b).toNat 4 = false → sramBase ≤ (gpr (cregs s c.val) b).toNat → (gpr (cregs s c.val) b).toNat < sramEnd → MayUse s c.val (userMode (cregs s c.val)) .atomic (gpr (cregs s c.val) b).toNat 4 → Readable g 0 → 
    Answers (.cas c g d b a pd) s fun t => cregs t c.val = after (coreAt s c.val).slot (setPred (setGpr (cregs s c.val) d (wordAt s c.val (gpr (cregs s c.val) b))) pd.toNat (decide ((wordAt s c.val (gpr (cregs s c.val) b)) = gpr (cregs s c.val) d))) ∧ t.mem = s.mem ∧ FaultOnly s t c.val (fun k => issueReg g k || checkpointPage k))

/-- A transfer that is taken leaves its target for after its slot, which executes next; CALL and CALLR lower both pointers by 4 and hold the return address, 8 bytes on, for both stacks until their slot executes, before whose own effect it is stored; RET whose two copies agree raises them by 4 and goes to the address. LOOP, whatever its guard, sets up its level, and with a count of 0 skips its body. Forms whose completion it states: b, jmp, call, callr, ret, loop, sysNop, add. (R329, R343, R345) -/
def Obligations.BranchesAndCalls : Prop :=
  (∀ (s : State) (c : CoreNo) (g : IssueIn) (disp : BitVec 22), Issues s c.val g → Placed s c.val .transfer → 
    Answers (.b c g disp) s fun t => cregs t c.val = { cregs s c.val with pc := (cregs s c.val).pc + 4 } ∧ ((coreAt t c.val).slot.map fun w => (w.target, w.before, w.late)) = some (some ((cregs s c.val).pc + disp.signExtend 32 * 4), cregs s c.val, []) ∧ t.mem = s.mem ∧ CoreOnly s t c.val (fetchReg g)) ∧
  (∀ (s : State) (c : CoreNo) (g : IssueIn) (a : GReg), Issues s c.val g → Placed s c.val .transfer → 
    Answers (.jmp c g a) s fun t => cregs t c.val = { cregs s c.val with pc := (cregs s c.val).pc + 4 } ∧ ((coreAt t c.val).slot.map fun w => (w.target, w.before, w.late)) = some (some (gpr (cregs s c.val) a), cregs s c.val, []) ∧ t.mem = s.mem ∧ CoreOnly s t c.val (fetchReg g)) ∧
  (∀ (s : State) (c : CoreNo) (g : IssueIn) (disp : BitVec 22), Issues s c.val g → Placed s c.val .transfer → stackFault (stk (cregs s c.val)) ((stk (cregs s c.val)).sp - 4) ((stk (cregs s c.val)).rsp - 4) = none → permits s (coreAcs s c.val (userMode (cregs s c.val)) ((stk (cregs s c.val)).sp - 4).toNat 4 .write) = true → permits s (coreAcs s c.val (userMode (cregs s c.val)) ((stk (cregs s c.val)).rsp - 4).toNat 4 .write) = true → 
    Answers (.call c g disp) s fun t => cregs t c.val = { setSps (cregs s c.val) ((stk (cregs s c.val)).sp - 4) ((stk (cregs s c.val)).rsp - 4) with pc := (cregs s c.val).pc + 4 } ∧ ((coreAt t c.val).slot.map fun w => (w.target, w.before, w.late)) = some (some ((cregs s c.val).pc + disp.signExtend 32 * 4), cregs s c.val, [(((stk (cregs s c.val)).sp - 4).toNat, some (((cregs s c.val).pc + 8), g.hit)), (((stk (cregs s c.val)).rsp - 4).toNat, some (((cregs s c.val).pc + 8), g.hit))]) ∧ t.mem = s.mem ∧ CoreOnly s t c.val (fetchReg g)) ∧
  (∀ (s : State) (c : CoreNo) (g : IssueIn) (a : GReg), Issues s c.val g → Placed s c.val .transfer → stackFault (stk (cregs s c.val)) ((stk (cregs s c.val)).sp - 4) ((stk (cregs s c.val)).rsp - 4) = none → permits s (coreAcs s c.val (userMode (cregs s c.val)) ((stk (cregs s c.val)).sp - 4).toNat 4 .write) = true → permits s (coreAcs s c.val (userMode (cregs s c.val)) ((stk (cregs s c.val)).rsp - 4).toNat 4 .write) = true → 
    Answers (.callr c g a) s fun t => cregs t c.val = { setSps (cregs s c.val) ((stk (cregs s c.val)).sp - 4) ((stk (cregs s c.val)).rsp - 4) with pc := (cregs s c.val).pc + 4 } ∧ ((coreAt t c.val).slot.map fun w => (w.target, w.before, w.late)) = some (some (gpr (cregs s c.val) a), cregs s c.val, [(((stk (cregs s c.val)).sp - 4).toNat, some (((cregs s c.val).pc + 8), g.hit)), (((stk (cregs s c.val)).rsp - 4).toNat, some (((cregs s c.val).pc + 8), g.hit))]) ∧ t.mem = s.mem ∧ CoreOnly s t c.val (fetchReg g)) ∧
  (∀ (s : State) (c : CoreNo) (g : IssueIn), Issues s c.val g → Placed s c.val .transfer → stackFault (stk (cregs s c.val)) (stk (cregs s c.val)).sp (stk (cregs s c.val)).rsp = none → MayUse s c.val (userMode (cregs s c.val)) .read (stk (cregs s c.val)).sp.toNat 4 → MayUse s c.val (userMode (cregs s c.val)) .read (stk (cregs s c.val)).rsp.toNat 4 → wordAt s c.val (stk (cregs s c.val)).sp = wordAt s c.val (stk (cregs s c.val)).rsp → Readable g 0 → Readable g 1 → 
    Answers (.ret c g) s fun t => cregs t c.val = { setSps (cregs s c.val) ((stk (cregs s c.val)).sp + 4) ((stk (cregs s c.val)).rsp + 4) with pc := (cregs s c.val).pc + 4 } ∧ ((coreAt t c.val).slot.map fun w => (w.target, w.before, w.late)) = some (some (wordAt s c.val (stk (cregs s c.val)).sp), cregs s c.val, []) ∧ t.mem = s.mem ∧ CoreOnly s t c.val (issueReg g)) ∧
  (∀ (s : State) (c : CoreNo) (g : IssueIn) (lvl : Bool) (cnt : LoopCnt) (len : BitVec 12), (coreAt s c.val).state = 2 → (coreAt s c.val).busy = false → takeable s c.val = none → fetchFault s c.val (userMode (cregs s c.val)) (cregs s c.val).pc .none = none → g.fetch = .none ∨ g.fetch = .corrected → guardUndefined g.guard = false → NoLate s c.val → Placed s c.val .loop → len ≠ 0 → loopCount (cregs s c.val) cnt ≠ 0 → 
    Answers (.loop c g lvl cnt len) s fun t => Retires s t c.val g fun r => loopRegs r lvl (loopCount r cnt) len) ∧
  (∀ (s : State) (c : CoreNo) (g : IssueIn) (lvl : Bool) (cnt : LoopCnt) (len : BitVec 12), (coreAt s c.val).state = 2 → (coreAt s c.val).busy = false → takeable s c.val = none → fetchFault s c.val (userMode (cregs s c.val)) (cregs s c.val).pc .none = none → g.fetch = .none ∨ g.fetch = .corrected → guardUndefined g.guard = false → NoLate s c.val → Placed s c.val .loop → len ≠ 0 → loopCount (cregs s c.val) cnt = 0 → 
    Answers (.loop c g lvl cnt len) s fun t => cregs t c.val = { loopRegs (cregs s c.val) lvl 0 len with pc := (cregs s c.val).pc + len.zeroExtend 32 * 4 + 4 } ∧ t.mem = s.mem ∧ CoreOnly s t c.val (fetchReg g)) ∧
  (∀ (s : State) (c : CoreNo) (g : IssueIn), (coreAt s c.val).state = 2 → (coreAt s c.val).busy = false → takeable s c.val = none → fetchFault s c.val (userMode (cregs s c.val)) (cregs s c.val).pc .none = none → g.fetch = .none ∨ g.fetch = .corrected → guardUndefined g.guard = false → guardTrue (cregs s c.val) g.guard = true → (coreAt s c.val).loaded = none → 
    Answers (.sysNop c g) s fun t => t = instrEnds c.val (coreAt s c.val) (setCore s c.val { coreAt s c.val with shadow := false, busy := true }) g.entry (.ok (setRegs (lateAccesses (fetched (setCore s c.val { coreAt s c.val with shadow := false, busy := true }) c.val (userMode (cregs s c.val)) (cregs s c.val).pc g.fetch) c.val) c.val (cregs (lateAccesses (fetched (setCore s c.val { coreAt s c.val with shadow := false, busy := true }) c.val (userMode (cregs s c.val)) (cregs s c.val).pc g.fetch) c.val) c.val)))) ∧
  (∀ (s : State) (c : CoreNo) (g : IssueIn) (d a b : GReg) (w : SlotWait) (x y v : Word), (coreAt s c.val).state = 2 → (coreAt s c.val).busy = false → takeable s c.val = none → fetchFault s c.val (userMode (cregs s c.val)) (cregs s c.val).pc .none = none → g.fetch = .none ∨ g.fetch = .corrected → guardUndefined g.guard = false → guardTrue (cregs s c.val) g.guard = true → (coreAt s c.val).slot = some w → w.late = [(x.toNat, some (v, none)), (y.toNat, some (v, none))] → x.toNat % 4 = 0 → y.toNat % 4 = 0 → eccRegion (regionOf c.val x.toNat 4) = true → eccRegion (regionOf c.val y.toNat 4) = true → 
    Answers (.add c g d a b) s fun t => cregs t c.val = after (some w) (setGpr (cregs s c.val) d (gpr (cregs s c.val) a + gpr (cregs s c.val) b)) ∧ (coreAt t c.val).slot = none ∧ wordAt t c.val x = v ∧ wordAt t c.val y = v ∧ (∀ z, (z < physAddr c.val x.toNat ∨ physAddr c.val x.toNat + 4 ≤ z) → (z < physAddr c.val y.toNat ∨ physAddr c.val y.toNat + 4 ≤ z) → memByte t z = memByte s z) ∧ CoreOnly s t c.val (fetchReg g))

/-- A BLOCK instruction with its count at 0 only completes; with elements left it does one, moves its pointers, lowers the count and issues again, until the last completes it; WFI completes at once or waits; HALT completes and halts the core. Forms whose completion it states: bcopy, bclr, bcrc, wfi, halt. (R38, R334, R354, R355, R375, R376) -/
def Obligations.BlockAndHaltOps : Prop :=
  (∀ (s : State) (c : CoreNo) (g : IssueIn) (d a n : GReg), Issues s c.val g → Placed s c.val .alone → blockOperands [d, a, n] = true → gpr (cregs s c.val) n = 0 → 
    Answers (.bcopy c g d a ⟨n, 0⟩) s fun t => Retires s t c.val g fun r => r) ∧
  (∀ (s : State) (c : CoreNo) (g : IssueIn) (d n : GReg), Issues s c.val g → Placed s c.val .alone → blockOperands [d, n] = true → gpr (cregs s c.val) n = 0 → 
    Answers (.bclr c g d ⟨0, n, 0⟩) s fun t => Retires s t c.val g fun r => r) ∧
  (∀ (s : State) (c : CoreNo) (g : IssueIn) (d a n : GReg) (poly : BitVec 2), Issues s c.val g → Placed s c.val .alone → poly ≠ 3 → blockOperands [d, a, n] = true → gpr (cregs s c.val) n = 0 → 
    Answers (.bcrc c g d a n poly) s fun t => Retires s t c.val g fun r => r) ∧
  (∀ (s : State) (c : CoreNo) (g : IssueIn) (d a n : GReg), Issues s c.val g → Placed s c.val .alone → blockOperands [d, a, n] = true → gpr (cregs s c.val) n ≠ 0 → (gpr (cregs s c.val) a).toNat % 4 = 0 → (gpr (cregs s c.val) d).toNat % 4 = 0 → hitsReturnStack (cregs s c.val) (gpr (cregs s c.val) d).toNat 4 = false → MayUse s c.val (userMode (cregs s c.val)) .read (gpr (cregs s c.val) a).toNat 4 → Readable g 0 → MayStore s c.val (userMode (cregs s c.val)) (gpr (cregs s c.val) d).toNat 4 → g.hit = none → 
    Answers (.bcopy c g d a ⟨n, 0⟩) s fun t => cregs t c.val = (if gpr (cregs s c.val) n = 1 then after none (setGpr (setGpr (setGpr (cregs s c.val) a ((gpr (cregs s c.val) a) + 4)) d ((gpr (cregs s c.val) d) + 4)) n (gpr (cregs s c.val) n - 1)) else setGpr (setGpr (setGpr (cregs s c.val) a ((gpr (cregs s c.val) a) + 4)) d ((gpr (cregs s c.val) d) + 4)) n (gpr (cregs s c.val) n - 1)) ∧ wordAt t c.val (gpr (cregs s c.val) d) = wordAt s c.val (gpr (cregs s c.val) a) ∧ OnlyBytes s t c.val (gpr (cregs s c.val) d).toNat 4 ∧ CoreOnly s t c.val (issueReg g)) ∧
  (∀ (s : State) (c : CoreNo) (g : IssueIn) (d n : GReg), Issues s c.val g → Placed s c.val .alone → blockOperands [d, n] = true → gpr (cregs s c.val) n ≠ 0 → (gpr (cregs s c.val) d).toNat % 4 = 0 → hitsReturnStack (cregs s c.val) (gpr (cregs s c.val) d).toNat 4 = false → MayStore s c.val (userMode (cregs s c.val)) (gpr (cregs s c.val) d).toNat 4 → g.hit = none → 
    Answers (.bclr c g d ⟨0, n, 0⟩) s fun t => cregs t c.val = (if gpr (cregs s c.val) n = 1 then after none (setGpr (setGpr (cregs s c.val) d ((gpr (cregs s c.val) d) + 4)) n (gpr (cregs s c.val) n - 1)) else setGpr (setGpr (cregs s c.val) d ((gpr (cregs s c.val) d) + 4)) n (gpr (cregs s c.val) n - 1)) ∧ wordAt t c.val (gpr (cregs s c.val) d) = 0 ∧ OnlyBytes s t c.val (gpr (cregs s c.val) d).toNat 4 ∧ CoreOnly s t c.val (fetchReg g)) ∧
  (∀ (s : State) (c : CoreNo) (g : IssueIn) (d n : GReg), Issues s c.val g → Placed s c.val .alone → (sealPass (corePage c.val) (memSinkPage c.val (gpr (cregs s c.val) d).toNat 4) none 0 (toLe 4 0) g.hit).2 = false → blockOperands [d, n] = true → gpr (cregs s c.val) n ≠ 0 → (gpr (cregs s c.val) d).toNat % 4 = 0 → hitsReturnStack (cregs s c.val) (gpr (cregs s c.val) d).toNat 4 = false → MayStore s c.val (userMode (cregs s c.val)) (gpr (cregs s c.val) d).toNat 4 → 
    Answers (.bclr c g d ⟨0, n, 0⟩) s fun t => cregs t c.val = (if gpr (cregs s c.val) n = 1 then after none (setGpr (setGpr (cregs s c.val) d ((gpr (cregs s c.val) d) + 4)) n (gpr (cregs s c.val) n - 1)) else setGpr (setGpr (cregs s c.val) d ((gpr (cregs s c.val) d) + 4)) n (gpr (cregs s c.val) n - 1)) ∧ t.mem = s.mem ∧ FaultOnly s t c.val (fun k => fetchReg g k || k / 0x1000 == memSinkPage c.val (gpr (cregs s c.val) d).toNat 4)) ∧
  (∀ (s : State) (c : CoreNo) (g : IssueIn) (d a n : GReg) (poly : BitVec 2), Issues s c.val g → Placed s c.val .alone → poly ≠ 3 → blockOperands [d, a, n] = true → gpr (cregs s c.val) n ≠ 0 → MayUse s c.val (userMode (cregs s c.val)) .read (gpr (cregs s c.val) a).toNat 1 → Readable g 0 → 
    Answers (.bcrc c g d a n poly) s fun t => cregs t c.val = (if gpr (cregs s c.val) n = 1 then after none (setGpr (setGpr (setGpr (cregs s c.val) d (BitVec.ofNat 32 (crcStep poly.toNat (gpr (cregs s c.val) d).toNat (memByte s (physAddr c.val (gpr (cregs s c.val) a).toNat)).toNat 8))) a ((gpr (cregs s c.val) a) + 1)) n (gpr (cregs s c.val) n - 1)) else setGpr (setGpr (setGpr (cregs s c.val) d (BitVec.ofNat 32 (crcStep poly.toNat (gpr (cregs s c.val) d).toNat (memByte s (physAddr c.val (gpr (cregs s c.val) a).toNat)).toNat 8))) a ((gpr (cregs s c.val) a) + 1)) n (gpr (cregs s c.val) n - 1)) ∧ t.mem = s.mem ∧ CoreOnly s t c.val (issueReg g)) ∧
  (∀ (s : State) (c : CoreNo) (g : IssueIn), Issues s c.val g → userMode (cregs s c.val) = false → wfiDone s c.val = true → 
    Answers (.wfi c g) s fun t => Retires s t c.val g fun r => r) ∧
  (∀ (s : State) (c : CoreNo) (g : IssueIn), Issues s c.val g → userMode (cregs s c.val) = false → wfiDone s c.val = false → (coreAt s c.val).haltReq = false → 
    Answers (.wfi c g) s fun t => (coreAt t c.val).state = 3 ∧ cregs t c.val = cregs s c.val ∧ t.mem = s.mem ∧ CoreOnly s t c.val (fetchReg g)) ∧
  (∀ (s : State) (c : CoreNo) (g : IssueIn), Issues s c.val g → Placed s c.val .alone → userMode (cregs s c.val) = false → 
    Answers (.halt c g) s fun t => (coreAt t c.val).state = 1 ∧ cregs t c.val = after none (cregs s c.val) ∧ t.mem = s.mem ∧ CoreOnly s t c.val (fetchReg g))

/-- GATE through an entry that may be called enters system mode at its target with the caller's next pc saved and IE kept; ERET with DFL 0 and two saved pc copies that agree restores the loop registers and PSW from the frame, raises both system stacks and goes to the saved pc. Forms whose completion it states: gate, eret. (R378, R379, R384, R385, R386) -/
def Obligations.GatesAndReturns : Prop :=
  (∀ (s : State) (c : CoreNo) (g : IssueIn) (n : BitVec 12), Issues s c.val g → Placed s c.val .alone → n.toNat < min 4096 (cregs s c.val).tgLimit.toNat → MayUse s c.val false .read ((cregs s c.val).tgBase + BitVec.ofNat 32 (8 * n.toNat)).toNat 4 → MayUse s c.val false .read (((cregs s c.val).tgBase + BitVec.ofNat 32 (8 * n.toNat)).toNat + 4) 4 → (((cregs s c.val).tgBase + BitVec.ofNat 32 (8 * n.toNat)) + 4).toNat = ((cregs s c.val).tgBase + BitVec.ofNat 32 (8 * n.toNat)).toNat + 4 → gateRefused (cregs s c.val) (wordAt s c.val ((cregs s c.val).tgBase + BitVec.ofNat 32 (8 * n.toNat))).toNat (wordAt s c.val (((cregs s c.val).tgBase + BitVec.ofNat 32 (8 * n.toNat)) + 4)).toNat = false → (if userMode (cregs s c.val) then (List.range 4).findSome? (pairFault (cregs s c.val) (wordAt s c.val (((cregs s c.val).tgBase + BitVec.ofNat 32 (8 * n.toNat)) + 4)).toNat) else none) = none → CanEnter s c.val (BitVec.ofNat 32 ((wordAt s c.val ((cregs s c.val).tgBase + BitVec.ofNat 32 (8 * n.toNat))).toNat / 4 * 4)) g.entry → Readable g 0 → Readable g 1 → 
    Answers (.gate c g n) s fun t => Entered s t c.val (after none (cregs s c.val)) (causeWord 1 0 0 0) n.toNat (savedPc (after none (cregs s c.val)).pc) (BitVec.ofNat 32 ((wordAt s c.val ((cregs s c.val).tgBase + BitVec.ofNat 32 (8 * n.toNat))).toNat / 4 * 4)) none ∧ CoreOnly s t c.val (issueReg g)) ∧
  (∀ (s : State) (c : CoreNo) (g : IssueIn), Issues s c.val g → Placed s c.val .alone → userMode (cregs s c.val) = false → wbit (cregs s c.val).psw 6 = false → eretBounds (cregs s c.val).sys = none → (cregs s c.val).sys.sp.toNat % 4 = 0 → (cregs s c.val).sys.rsp.toNat % 4 = 0 → ∀ i ∈ List.range 10, MayUse s c.val false .read ((cregs s c.val).sys.sp + BitVec.ofNat 32 (4 * i)).toNat 4 ∧ Readable g i → Readable g 10 → MayUse s c.val false .read (cregs s c.val).sys.rsp.toNat 4 → wordAt s c.val ((cregs s c.val).sys.sp + BitVec.ofNat 32 (4 * 0)) = wordAt s c.val (cregs s c.val).sys.rsp → 
    Answers (.eret c g) s fun t => cregs t c.val = { eretRegs (cregs s c.val) ((List.range 10).map fun i => wordAt s c.val ((cregs s c.val).sys.sp + BitVec.ofNat 32 (4 * i))) with pc := savedPc (wordAt s c.val (cregs s c.val).sys.sp) } ∧ (coreAt t c.val).slot = none ∧ t.mem = s.mem ∧ CoreOnly s t c.val (issueReg g))

/-- Where the memory it visits is powered, a corrected error the scrubber finds is counted in the low half of its memory's register and an uncorrectable one in the high half: one of the shared SRAM marks its word and is counted once, one of the Curve Store removes its entry, one of a replay window marks its entry or its free storage and is counted once, one of a Key Table slot that no key holds or of a context that holds no command is counted once; the same word, until it is next written, is not counted again. A site whose domain is off is not visited. Each clause names what may change beside; every other part of the state and every other register is as before. Forms whose completion it states: sramScrub. (R72, R121, R197, R413, R414, R416) -/
def Obligations.Scrubbing : Prop :=
  (∀ (s : State) (w : Nat), domOn s 0 = true → 
    Answers (.sramScrub (.sharedSram w) false) s fun t => fld t Reg.CHECKPOINT_SRAM_ECC 15 0 = min 65535 (fld s Reg.CHECKPOINT_SRAM_ECC 15 0 + 1) ∧ t.quay = s.quay ∧ t.mews = s.mews ∧ t = { s with out := t.out, regs := t.regs, parBad := t.parBad, wins := t.wins, quay := { s.quay with queues := t.quay.queues, doms := t.quay.doms, domRR := t.quay.domRR, ctxs := t.quay.ctxs, msix := t.quay.msix }, units := { s.units with cipher := t.units.cipher, hash := t.units.hash, arc := t.units.arc }, mews := { s.mews with slots := t.mews.slots, cascades := t.mews.cascades }, kerb := { s.kerb with reports := t.kerb.reports }, fnt := { s.fnt with state := t.fnt.state, absorbed := t.fnt.absorbed, credit := t.fnt.credit, seed := t.fnt.seed, int := t.fnt.int, sw := t.fnt.sw, katBusy := t.fnt.katBusy, draws := t.fnt.draws, part := t.fnt.part, got := t.fnt.got, rng := t.fnt.rng, rngDone := t.fnt.rngDone, rngDead := t.fnt.rngDead }, curves := t.curves, xing := { s.xing with mirror := t.xing.mirror, sess := t.xing.sess }, chk := { s.chk with eccBad := t.chk.eccBad, ctxBad := t.chk.ctxBad, slotBad := t.chk.slotBad } } ∧ OtherRegs s t [Reg.QUAY_RPL_HITS, Reg.QUAY_RPL_ECC, Reg.RBT_LATE, Reg.RBT_CTX_ECC, Reg.MEWS_REVOKES, Reg.MEWS_KT_ECC, Reg.COMP_AUTH_FAIL, Reg.COMP_DONE, Reg.CHECKPOINT_SRAM_ECC] [Reg.PAGE_STAT, Reg.INT_STAT, Reg.ERR_SYND, Reg.ERR_ADDR, Reg.FAULT_CNT, Reg.QUAY_LINK_STAT] []) ∧
  (∀ (s : State) (uncorr : Bool) (w : Nat), domOn s 0 = false → 
    Answers (.sramScrub (.sharedSram w) uncorr) s fun t => t = s) ∧
  (∀ (s : State) (e : Fin 64), domOn s 0 = true → 
    Answers (.sramScrub (.curve e) false) s fun t => fld t Reg.CHECKPOINT_SRAM_ECC 15 0 = min 65535 (fld s Reg.CHECKPOINT_SRAM_ECC 15 0 + 1) ∧ t.quay = s.quay ∧ t.mews = s.mews ∧ t = { s with out := t.out, regs := t.regs, parBad := t.parBad, wins := t.wins, quay := { s.quay with queues := t.quay.queues, doms := t.quay.doms, domRR := t.quay.domRR, ctxs := t.quay.ctxs, msix := t.quay.msix }, units := { s.units with cipher := t.units.cipher, hash := t.units.hash, arc := t.units.arc }, mews := { s.mews with slots := t.mews.slots, cascades := t.mews.cascades }, kerb := { s.kerb with reports := t.kerb.reports }, fnt := { s.fnt with state := t.fnt.state, absorbed := t.fnt.absorbed, credit := t.fnt.credit, seed := t.fnt.seed, int := t.fnt.int, sw := t.fnt.sw, katBusy := t.fnt.katBusy, draws := t.fnt.draws, part := t.fnt.part, got := t.fnt.got, rng := t.fnt.rng, rngDone := t.fnt.rngDone, rngDead := t.fnt.rngDead }, curves := t.curves, xing := { s.xing with mirror := t.xing.mirror, sess := t.xing.sess }, chk := { s.chk with eccBad := t.chk.eccBad, ctxBad := t.chk.ctxBad, slotBad := t.chk.slotBad } } ∧ OtherRegs s t [Reg.QUAY_RPL_HITS, Reg.QUAY_RPL_ECC, Reg.RBT_LATE, Reg.RBT_CTX_ECC, Reg.MEWS_REVOKES, Reg.MEWS_KT_ECC, Reg.COMP_AUTH_FAIL, Reg.COMP_DONE, Reg.CHECKPOINT_SRAM_ECC] [Reg.PAGE_STAT, Reg.INT_STAT, Reg.ERR_SYND, Reg.ERR_ADDR, Reg.FAULT_CNT, Reg.QUAY_LINK_STAT] []) ∧
  (∀ (s : State) (uncorr : Bool) (e : Fin 64), domOn s 0 = false → 
    Answers (.sramScrub (.curve e) uncorr) s fun t => t = s) ∧
  (∀ (s : State) (c : CtxNo), domOn s 18 = true → 
    Answers (.sramScrub (.context c) false) s fun t => fld t Reg.RBT_CTX_ECC 15 0 = min 65535 (fld s Reg.RBT_CTX_ECC 15 0 + 1) ∧ t.quay = s.quay ∧ t.mews = s.mews ∧ t = { s with out := t.out, regs := t.regs, parBad := t.parBad, wins := t.wins, quay := { s.quay with queues := t.quay.queues, doms := t.quay.doms, domRR := t.quay.domRR, ctxs := t.quay.ctxs, msix := t.quay.msix }, units := { s.units with cipher := t.units.cipher, hash := t.units.hash, arc := t.units.arc }, mews := { s.mews with slots := t.mews.slots, cascades := t.mews.cascades }, kerb := { s.kerb with reports := t.kerb.reports }, fnt := { s.fnt with state := t.fnt.state, absorbed := t.fnt.absorbed, credit := t.fnt.credit, seed := t.fnt.seed, int := t.fnt.int, sw := t.fnt.sw, katBusy := t.fnt.katBusy, draws := t.fnt.draws, part := t.fnt.part, got := t.fnt.got, rng := t.fnt.rng, rngDone := t.fnt.rngDone, rngDead := t.fnt.rngDead }, curves := t.curves, xing := { s.xing with mirror := t.xing.mirror, sess := t.xing.sess }, chk := { s.chk with eccBad := t.chk.eccBad, ctxBad := t.chk.ctxBad, slotBad := t.chk.slotBad } } ∧ OtherRegs s t [Reg.QUAY_RPL_HITS, Reg.QUAY_RPL_ECC, Reg.RBT_LATE, Reg.RBT_CTX_ECC, Reg.MEWS_REVOKES, Reg.MEWS_KT_ECC, Reg.COMP_AUTH_FAIL, Reg.COMP_DONE, Reg.CHECKPOINT_SRAM_ECC] [Reg.PAGE_STAT, Reg.INT_STAT, Reg.ERR_SYND, Reg.ERR_ADDR, Reg.FAULT_CNT, Reg.QUAY_LINK_STAT] []) ∧
  (∀ (s : State) (uncorr : Bool) (c : CtxNo), domOn s 18 = false → 
    Answers (.sramScrub (.context c) uncorr) s fun t => t = s) ∧
  (∀ (s : State) (n : SlotNo) (l : Bool), domOn s 12 = true → 
    Answers (.sramScrub (.keyTable n l) false) s fun t => fld t Reg.MEWS_KT_ECC 15 0 = min 65535 (fld s Reg.MEWS_KT_ECC 15 0 + 1) ∧ t.quay = s.quay ∧ t.mews = s.mews ∧ t = { s with out := t.out, regs := t.regs, parBad := t.parBad, wins := t.wins, quay := { s.quay with queues := t.quay.queues, doms := t.quay.doms, domRR := t.quay.domRR, ctxs := t.quay.ctxs, msix := t.quay.msix }, units := { s.units with cipher := t.units.cipher, hash := t.units.hash, arc := t.units.arc }, mews := { s.mews with slots := t.mews.slots, cascades := t.mews.cascades }, kerb := { s.kerb with reports := t.kerb.reports }, fnt := { s.fnt with state := t.fnt.state, absorbed := t.fnt.absorbed, credit := t.fnt.credit, seed := t.fnt.seed, int := t.fnt.int, sw := t.fnt.sw, katBusy := t.fnt.katBusy, draws := t.fnt.draws, part := t.fnt.part, got := t.fnt.got, rng := t.fnt.rng, rngDone := t.fnt.rngDone, rngDead := t.fnt.rngDead }, curves := t.curves, xing := { s.xing with mirror := t.xing.mirror, sess := t.xing.sess }, chk := { s.chk with eccBad := t.chk.eccBad, ctxBad := t.chk.ctxBad, slotBad := t.chk.slotBad } } ∧ OtherRegs s t [Reg.QUAY_RPL_HITS, Reg.QUAY_RPL_ECC, Reg.RBT_LATE, Reg.RBT_CTX_ECC, Reg.MEWS_REVOKES, Reg.MEWS_KT_ECC, Reg.COMP_AUTH_FAIL, Reg.COMP_DONE, Reg.CHECKPOINT_SRAM_ECC] [Reg.PAGE_STAT, Reg.INT_STAT, Reg.ERR_SYND, Reg.ERR_ADDR, Reg.FAULT_CNT, Reg.QUAY_LINK_STAT] []) ∧
  (∀ (s : State) (uncorr : Bool) (n : SlotNo) (l : Bool), domOn s 12 = false → 
    Answers (.sramScrub (.keyTable n l) uncorr) s fun t => t = s) ∧
  (∀ (s : State) (q : QueueNo) (e : Fin 64), domOn s 13 = true → 
    Answers (.sramScrub (.replay q e) false) s fun t => fld t Reg.QUAY_RPL_ECC 15 0 = min 65535 (fld s Reg.QUAY_RPL_ECC 15 0 + 1) ∧ t.quay = s.quay ∧ t.mews = s.mews ∧ t = { s with out := t.out, regs := t.regs, parBad := t.parBad, wins := t.wins, quay := { s.quay with queues := t.quay.queues, doms := t.quay.doms, domRR := t.quay.domRR, ctxs := t.quay.ctxs, msix := t.quay.msix }, units := { s.units with cipher := t.units.cipher, hash := t.units.hash, arc := t.units.arc }, mews := { s.mews with slots := t.mews.slots, cascades := t.mews.cascades }, kerb := { s.kerb with reports := t.kerb.reports }, fnt := { s.fnt with state := t.fnt.state, absorbed := t.fnt.absorbed, credit := t.fnt.credit, seed := t.fnt.seed, int := t.fnt.int, sw := t.fnt.sw, katBusy := t.fnt.katBusy, draws := t.fnt.draws, part := t.fnt.part, got := t.fnt.got, rng := t.fnt.rng, rngDone := t.fnt.rngDone, rngDead := t.fnt.rngDead }, curves := t.curves, xing := { s.xing with mirror := t.xing.mirror, sess := t.xing.sess }, chk := { s.chk with eccBad := t.chk.eccBad, ctxBad := t.chk.ctxBad, slotBad := t.chk.slotBad } } ∧ OtherRegs s t [Reg.QUAY_RPL_HITS, Reg.QUAY_RPL_ECC, Reg.RBT_LATE, Reg.RBT_CTX_ECC, Reg.MEWS_REVOKES, Reg.MEWS_KT_ECC, Reg.COMP_AUTH_FAIL, Reg.COMP_DONE, Reg.CHECKPOINT_SRAM_ECC] [Reg.PAGE_STAT, Reg.INT_STAT, Reg.ERR_SYND, Reg.ERR_ADDR, Reg.FAULT_CNT, Reg.QUAY_LINK_STAT] []) ∧
  (∀ (s : State) (uncorr : Bool) (q : QueueNo) (e : Fin 64), domOn s 13 = false → 
    Answers (.sramScrub (.replay q e) uncorr) s fun t => t = s) ∧
  (∀ (s : State) (w : Nat), domOn s 0 = true → s.chk.eccBad.contains ((sramBase + 8 * (w % 2 ^ 20)) / 8) = false → 
    Answers (.sramScrub (.sharedSram w) true) s fun t => t.chk.eccBad = ((sramBase + 8 * (w % 2 ^ 20)) / 8) :: s.chk.eccBad ∧ fld t Reg.CHECKPOINT_SRAM_ECC 31 16 = min 65535 (fld s Reg.CHECKPOINT_SRAM_ECC 31 16 + 1) ∧ rbit t (rk 0x40 Reg.INT_STAT) 2 = true ∧ t = { s with out := t.out, regs := t.regs, parBad := t.parBad, wins := t.wins, quay := { s.quay with queues := t.quay.queues, doms := t.quay.doms, domRR := t.quay.domRR, ctxs := t.quay.ctxs, msix := t.quay.msix }, units := { s.units with cipher := t.units.cipher, hash := t.units.hash, arc := t.units.arc }, mews := { s.mews with slots := t.mews.slots, cascades := t.mews.cascades }, kerb := { s.kerb with reports := t.kerb.reports }, fnt := { s.fnt with state := t.fnt.state, absorbed := t.fnt.absorbed, credit := t.fnt.credit, seed := t.fnt.seed, int := t.fnt.int, sw := t.fnt.sw, katBusy := t.fnt.katBusy, draws := t.fnt.draws, part := t.fnt.part, got := t.fnt.got, rng := t.fnt.rng, rngDone := t.fnt.rngDone, rngDead := t.fnt.rngDead }, curves := t.curves, xing := { s.xing with mirror := t.xing.mirror, sess := t.xing.sess }, chk := { s.chk with eccBad := t.chk.eccBad, ctxBad := t.chk.ctxBad, slotBad := t.chk.slotBad } } ∧ OtherRegs s t [Reg.QUAY_RPL_HITS, Reg.QUAY_RPL_ECC, Reg.RBT_LATE, Reg.RBT_CTX_ECC, Reg.MEWS_REVOKES, Reg.MEWS_KT_ECC, Reg.COMP_AUTH_FAIL, Reg.COMP_DONE, Reg.CHECKPOINT_SRAM_ECC] [Reg.PAGE_STAT, Reg.INT_STAT, Reg.ERR_SYND, Reg.ERR_ADDR, Reg.FAULT_CNT, Reg.QUAY_LINK_STAT] []) ∧
  (∀ (s : State) (w : Nat), domOn s 0 = true → s.chk.eccBad.contains ((sramBase + 8 * (w % 2 ^ 20)) / 8) = true → 
    Answers (.sramScrub (.sharedSram w) true) s fun t => t = s) ∧
  (∀ (s : State) (e : Fin 64), domOn s 0 = true → 
    Answers (.sramScrub (.curve e) true) s fun t => t.curves = tdel s.curves e.val ∧ fld t Reg.CHECKPOINT_SRAM_ECC 31 16 = min 65535 (fld s Reg.CHECKPOINT_SRAM_ECC 31 16 + 1) ∧ rbit t (rk 0x40 Reg.INT_STAT) 3 = true ∧ t = { s with out := t.out, regs := t.regs, parBad := t.parBad, wins := t.wins, quay := { s.quay with queues := t.quay.queues, doms := t.quay.doms, domRR := t.quay.domRR, ctxs := t.quay.ctxs, msix := t.quay.msix }, units := { s.units with cipher := t.units.cipher, hash := t.units.hash, arc := t.units.arc }, mews := { s.mews with slots := t.mews.slots, cascades := t.mews.cascades }, kerb := { s.kerb with reports := t.kerb.reports }, fnt := { s.fnt with state := t.fnt.state, absorbed := t.fnt.absorbed, credit := t.fnt.credit, seed := t.fnt.seed, int := t.fnt.int, sw := t.fnt.sw, katBusy := t.fnt.katBusy, draws := t.fnt.draws, part := t.fnt.part, got := t.fnt.got, rng := t.fnt.rng, rngDone := t.fnt.rngDone, rngDead := t.fnt.rngDead }, curves := t.curves, xing := { s.xing with mirror := t.xing.mirror, sess := t.xing.sess }, chk := { s.chk with eccBad := t.chk.eccBad, ctxBad := t.chk.ctxBad, slotBad := t.chk.slotBad } } ∧ OtherRegs s t [Reg.QUAY_RPL_HITS, Reg.QUAY_RPL_ECC, Reg.RBT_LATE, Reg.RBT_CTX_ECC, Reg.MEWS_REVOKES, Reg.MEWS_KT_ECC, Reg.COMP_AUTH_FAIL, Reg.COMP_DONE, Reg.CHECKPOINT_SRAM_ECC] [Reg.PAGE_STAT, Reg.INT_STAT, Reg.ERR_SYND, Reg.ERR_ADDR, Reg.FAULT_CNT, Reg.QUAY_LINK_STAT] []) ∧
  (∀ (s : State) (q : QueueNo) (e : Fin 64) (x : RplEntry), domOn s 13 = true → (queueAt s q.val).win[e.val]? = some x → x.bad = false → 
    Answers (.sramScrub (.replay q e) true) s fun t => (queueAt t q.val).win = (queueAt s q.val).win.set e.val { x with bad := true } ∧ fld t Reg.QUAY_RPL_ECC 31 16 = min 65535 (fld s Reg.QUAY_RPL_ECC 31 16 + 1) ∧ t = { s with out := t.out, regs := t.regs, parBad := t.parBad, wins := t.wins, quay := { s.quay with queues := t.quay.queues, doms := t.quay.doms, domRR := t.quay.domRR, ctxs := t.quay.ctxs, msix := t.quay.msix }, units := { s.units with cipher := t.units.cipher, hash := t.units.hash, arc := t.units.arc }, mews := { s.mews with slots := t.mews.slots, cascades := t.mews.cascades }, kerb := { s.kerb with reports := t.kerb.reports }, fnt := { s.fnt with state := t.fnt.state, absorbed := t.fnt.absorbed, credit := t.fnt.credit, seed := t.fnt.seed, int := t.fnt.int, sw := t.fnt.sw, katBusy := t.fnt.katBusy, draws := t.fnt.draws, part := t.fnt.part, got := t.fnt.got, rng := t.fnt.rng, rngDone := t.fnt.rngDone, rngDead := t.fnt.rngDead }, curves := t.curves, xing := { s.xing with mirror := t.xing.mirror, sess := t.xing.sess }, chk := { s.chk with eccBad := t.chk.eccBad, ctxBad := t.chk.ctxBad, slotBad := t.chk.slotBad } } ∧ OtherRegs s t [Reg.QUAY_RPL_HITS, Reg.QUAY_RPL_ECC, Reg.RBT_LATE, Reg.RBT_CTX_ECC, Reg.MEWS_REVOKES, Reg.MEWS_KT_ECC, Reg.COMP_AUTH_FAIL, Reg.COMP_DONE, Reg.CHECKPOINT_SRAM_ECC] [Reg.PAGE_STAT, Reg.INT_STAT, Reg.ERR_SYND, Reg.ERR_ADDR, Reg.FAULT_CNT, Reg.QUAY_LINK_STAT] []) ∧
  (∀ (s : State) (q : QueueNo) (e : Fin 64), domOn s 13 = true → (queueAt s q.val).win[e.val]? = none → (queueAt s q.val).badFree.contains e.val = false → 
    Answers (.sramScrub (.replay q e) true) s fun t => (queueAt t q.val).badFree = e.val :: (queueAt s q.val).badFree ∧ fld t Reg.QUAY_RPL_ECC 31 16 = min 65535 (fld s Reg.QUAY_RPL_ECC 31 16 + 1) ∧ t = { s with out := t.out, regs := t.regs, parBad := t.parBad, wins := t.wins, quay := { s.quay with queues := t.quay.queues, doms := t.quay.doms, domRR := t.quay.domRR, ctxs := t.quay.ctxs, msix := t.quay.msix }, units := { s.units with cipher := t.units.cipher, hash := t.units.hash, arc := t.units.arc }, mews := { s.mews with slots := t.mews.slots, cascades := t.mews.cascades }, kerb := { s.kerb with reports := t.kerb.reports }, fnt := { s.fnt with state := t.fnt.state, absorbed := t.fnt.absorbed, credit := t.fnt.credit, seed := t.fnt.seed, int := t.fnt.int, sw := t.fnt.sw, katBusy := t.fnt.katBusy, draws := t.fnt.draws, part := t.fnt.part, got := t.fnt.got, rng := t.fnt.rng, rngDone := t.fnt.rngDone, rngDead := t.fnt.rngDead }, curves := t.curves, xing := { s.xing with mirror := t.xing.mirror, sess := t.xing.sess }, chk := { s.chk with eccBad := t.chk.eccBad, ctxBad := t.chk.ctxBad, slotBad := t.chk.slotBad } } ∧ OtherRegs s t [Reg.QUAY_RPL_HITS, Reg.QUAY_RPL_ECC, Reg.RBT_LATE, Reg.RBT_CTX_ECC, Reg.MEWS_REVOKES, Reg.MEWS_KT_ECC, Reg.COMP_AUTH_FAIL, Reg.COMP_DONE, Reg.CHECKPOINT_SRAM_ECC] [Reg.PAGE_STAT, Reg.INT_STAT, Reg.ERR_SYND, Reg.ERR_ADDR, Reg.FAULT_CNT, Reg.QUAY_LINK_STAT] []) ∧
  (∀ (s : State) (q : QueueNo) (e : Fin 64), domOn s 13 = true → ((queueAt s q.val).win[e.val]?.map (·.bad)).getD ((queueAt s q.val).badFree.contains e.val) = true → 
    Answers (.sramScrub (.replay q e) true) s fun t => t = s) ∧
  (∀ (s : State) (n : SlotNo) (l : Bool), domOn s 12 = true → s.chk.slotBad.contains n.val = false → headOf s n.val = none → 
    Answers (.sramScrub (.keyTable n l) true) s fun t => fld t Reg.MEWS_KT_ECC 31 16 = min 65535 (fld s Reg.MEWS_KT_ECC 31 16 + 1) ∧ t.chk.slotBad = n.val :: s.chk.slotBad ∧ t.mews = s.mews ∧ t = { s with out := t.out, regs := t.regs, parBad := t.parBad, wins := t.wins, quay := { s.quay with queues := t.quay.queues, doms := t.quay.doms, domRR := t.quay.domRR, ctxs := t.quay.ctxs, msix := t.quay.msix }, units := { s.units with cipher := t.units.cipher, hash := t.units.hash, arc := t.units.arc }, mews := { s.mews with slots := t.mews.slots, cascades := t.mews.cascades }, kerb := { s.kerb with reports := t.kerb.reports }, fnt := { s.fnt with state := t.fnt.state, absorbed := t.fnt.absorbed, credit := t.fnt.credit, seed := t.fnt.seed, int := t.fnt.int, sw := t.fnt.sw, katBusy := t.fnt.katBusy, draws := t.fnt.draws, part := t.fnt.part, got := t.fnt.got, rng := t.fnt.rng, rngDone := t.fnt.rngDone, rngDead := t.fnt.rngDead }, curves := t.curves, xing := { s.xing with mirror := t.xing.mirror, sess := t.xing.sess }, chk := { s.chk with eccBad := t.chk.eccBad, ctxBad := t.chk.ctxBad, slotBad := t.chk.slotBad } } ∧ OtherRegs s t [Reg.QUAY_RPL_HITS, Reg.QUAY_RPL_ECC, Reg.RBT_LATE, Reg.RBT_CTX_ECC, Reg.MEWS_REVOKES, Reg.MEWS_KT_ECC, Reg.COMP_AUTH_FAIL, Reg.COMP_DONE, Reg.CHECKPOINT_SRAM_ECC] [Reg.PAGE_STAT, Reg.INT_STAT, Reg.ERR_SYND, Reg.ERR_ADDR, Reg.FAULT_CNT, Reg.QUAY_LINK_STAT] []) ∧
  (∀ (s : State) (n : SlotNo) (l : Bool), domOn s 12 = true → s.chk.slotBad.contains n.val = true → 
    Answers (.sramScrub (.keyTable n l) true) s fun t => t = s) ∧
  (∀ (s : State) (c : CtxNo), domOn s 18 = true → s.chk.ctxBad.contains c.val = true → 
    Answers (.sramScrub (.context c) true) s fun t => t = s) ∧
  (∀ (s : State) (c : CtxNo), domOn s 18 = true → s.chk.ctxBad.contains c.val = false → ctxAt s c.val = none → 
    Answers (.sramScrub (.context c) true) s fun t => fld t Reg.RBT_CTX_ECC 31 16 = min 65535 (fld s Reg.RBT_CTX_ECC 31 16 + 1) ∧ t.chk.ctxBad = c.val :: s.chk.ctxBad ∧ t.quay.ctxs = s.quay.ctxs ∧ t = { s with out := t.out, regs := t.regs, parBad := t.parBad, wins := t.wins, quay := { s.quay with queues := t.quay.queues, doms := t.quay.doms, domRR := t.quay.domRR, ctxs := t.quay.ctxs, msix := t.quay.msix }, units := { s.units with cipher := t.units.cipher, hash := t.units.hash, arc := t.units.arc }, mews := { s.mews with slots := t.mews.slots, cascades := t.mews.cascades }, kerb := { s.kerb with reports := t.kerb.reports }, fnt := { s.fnt with state := t.fnt.state, absorbed := t.fnt.absorbed, credit := t.fnt.credit, seed := t.fnt.seed, int := t.fnt.int, sw := t.fnt.sw, katBusy := t.fnt.katBusy, draws := t.fnt.draws, part := t.fnt.part, got := t.fnt.got, rng := t.fnt.rng, rngDone := t.fnt.rngDone, rngDead := t.fnt.rngDead }, curves := t.curves, xing := { s.xing with mirror := t.xing.mirror, sess := t.xing.sess }, chk := { s.chk with eccBad := t.chk.eccBad, ctxBad := t.chk.ctxBad, slotBad := t.chk.slotBad } } ∧ OtherRegs s t [Reg.QUAY_RPL_HITS, Reg.QUAY_RPL_ECC, Reg.RBT_LATE, Reg.RBT_CTX_ECC, Reg.MEWS_REVOKES, Reg.MEWS_KT_ECC, Reg.COMP_AUTH_FAIL, Reg.COMP_DONE, Reg.CHECKPOINT_SRAM_ECC] [Reg.PAGE_STAT, Reg.INT_STAT, Reg.ERR_SYND, Reg.ERR_ADDR, Reg.FAULT_CNT, Reg.QUAY_LINK_STAT] [])

/-- While no rule command is pending, READ leaves the selected entry to be staged, WRITE of an unlocked entry with a good format the staged words to be stored in it, CLEAR of an unlocked entry its zeroes, each with RESULT 0; a LOCKED entry gives RESULT 1, PAGE_LOCK 2 and a bad format 3, with no entry to store. A later command finds the one before committed: the words stored in its entry and in no other, or staged, and its RESULT shown. A write before that commit is recorded with CODE 0x14 and has no other effect. A read of CHECKPOINT_SYNC waits for the engines that run, and the oldest returns its data to the requester, or to the load that stalls for it; one whose port is down returns nothing. Each clause names what may change beside; every other part of the state and every other register is as before. Forms whose completion it states: rcmdRead, rcmdWrite, rcmdClear, checkpointSyncRead, checkpointSyncReturn. (R322, R405, R406, R407, R408, R547) -/
def Obligations.RuleTable : Prop :=
  (∀ (s : State) (src : Src), Reaches s src Reg.CHECKPOINT_RCMD → s.chk.rcmd = none → 
    Answers (.rcmdRead src false) s fun t => t.chk = { s.chk with rcmd := some { result := 0, rdata := some ([0, 1, 2, 3].map fun i => ruleWord s (rsel s) i) } } ∧ t = { s with out := t.out, regs := t.regs, parBad := t.parBad, quay := { s.quay with msix := t.quay.msix }, chk := { s.chk with rules := t.chk.rules, rcmd := t.chk.rcmd } } ∧ OtherRegs s t [Reg.CHECKPOINT_RCMD] [Reg.INT_STAT, Reg.ERR_SYND, Reg.ERR_ADDR] [0x40]) ∧
  (∀ (s : State) (src : Src), Reaches s src Reg.CHECKPOINT_RCMD → s.chk.rcmd = none → rcmdLocked s = none → ruleFormatBad s = false → 
    Answers (.rcmdWrite src false) s fun t => t.chk = { s.chk with rcmd := some { result := 0, entry := rsel s, rule := some ([0, 1, 2, 3].map fun i => staged s i) } } ∧ t = { s with out := t.out, regs := t.regs, parBad := t.parBad, quay := { s.quay with msix := t.quay.msix }, chk := { s.chk with rules := t.chk.rules, rcmd := t.chk.rcmd } } ∧ OtherRegs s t [Reg.CHECKPOINT_RCMD] [Reg.INT_STAT, Reg.ERR_SYND, Reg.ERR_ADDR] [0x40]) ∧
  (∀ (s : State) (src : Src), Reaches s src Reg.CHECKPOINT_RCMD → s.chk.rcmd = none → rcmdLocked s = none → 
    Answers (.rcmdClear src false) s fun t => t.chk = { s.chk with rcmd := some { result := 0, entry := rsel s, rule := some [] } } ∧ t = { s with out := t.out, regs := t.regs, parBad := t.parBad, quay := { s.quay with msix := t.quay.msix }, chk := { s.chk with rules := t.chk.rules, rcmd := t.chk.rcmd } } ∧ OtherRegs s t [Reg.CHECKPOINT_RCMD] [Reg.INT_STAT, Reg.ERR_SYND, Reg.ERR_ADDR] [0x40]) ∧
  (∀ (s : State) (src : Src), Reaches s src Reg.CHECKPOINT_RCMD → s.chk.rcmd = none → rcmdLocked s = none → ruleFormatBad s = true → 
    Answers (.rcmdWrite src false) s fun t => t.chk = { s.chk with rcmd := some { result := 3 } } ∧ t = { s with out := t.out, regs := t.regs, parBad := t.parBad, quay := { s.quay with msix := t.quay.msix }, chk := { s.chk with rules := t.chk.rules, rcmd := t.chk.rcmd } } ∧ OtherRegs s t [Reg.CHECKPOINT_RCMD] [Reg.INT_STAT, Reg.ERR_SYND, Reg.ERR_ADDR] [0x40]) ∧
  (∀ (s : State) (src : Src), Reaches s src Reg.CHECKPOINT_RCMD → s.chk.rcmd = none → wbit (ruleWord s (rsel s) 0) 4 = true → 
    Answers (.rcmdWrite src false) s fun t => t.chk = { s.chk with rcmd := some { result := 1 } } ∧ t = { s with out := t.out, regs := t.regs, parBad := t.parBad, quay := { s.quay with msix := t.quay.msix }, chk := { s.chk with rules := t.chk.rules, rcmd := t.chk.rcmd } } ∧ OtherRegs s t [Reg.CHECKPOINT_RCMD] [Reg.INT_STAT, Reg.ERR_SYND, Reg.ERR_ADDR] [0x40]) ∧
  (∀ (s : State) (src : Src), Reaches s src Reg.CHECKPOINT_RCMD → s.chk.rcmd = none → wbit (ruleWord s (rsel s) 0) 4 = false → rbit s (rk 0x40 Reg.PAGE_LOCK) 0 = true → 
    Answers (.rcmdWrite src false) s fun t => t.chk = { s.chk with rcmd := some { result := 2 } } ∧ t = { s with out := t.out, regs := t.regs, parBad := t.parBad, quay := { s.quay with msix := t.quay.msix }, chk := { s.chk with rules := t.chk.rules, rcmd := t.chk.rcmd } } ∧ OtherRegs s t [Reg.CHECKPOINT_RCMD] [Reg.INT_STAT, Reg.ERR_SYND, Reg.ERR_ADDR] [0x40]) ∧
  (∀ (s : State) (src : Src), Reaches s src Reg.CHECKPOINT_RCMD → s.chk.rcmd = none → wbit (ruleWord s (rsel s) 0) 4 = true → 
    Answers (.rcmdClear src false) s fun t => t.chk = { s.chk with rcmd := some { result := 1 } } ∧ t = { s with out := t.out, regs := t.regs, parBad := t.parBad, quay := { s.quay with msix := t.quay.msix }, chk := { s.chk with rules := t.chk.rules, rcmd := t.chk.rcmd } } ∧ OtherRegs s t [Reg.CHECKPOINT_RCMD] [Reg.INT_STAT, Reg.ERR_SYND, Reg.ERR_ADDR] [0x40]) ∧
  (∀ (s : State) (src : Src), Reaches s src Reg.CHECKPOINT_RCMD → s.chk.rcmd = none → wbit (ruleWord s (rsel s) 0) 4 = false → rbit s (rk 0x40 Reg.PAGE_LOCK) 0 = true → 
    Answers (.rcmdClear src false) s fun t => t.chk = { s.chk with rcmd := some { result := 2 } } ∧ t = { s with out := t.out, regs := t.regs, parBad := t.parBad, quay := { s.quay with msix := t.quay.msix }, chk := { s.chk with rules := t.chk.rules, rcmd := t.chk.rcmd } } ∧ OtherRegs s t [Reg.CHECKPOINT_RCMD] [Reg.INT_STAT, Reg.ERR_SYND, Reg.ERR_ADDR] [0x40]) ∧
  (∀ (s : State) (src : Src) (p : RuleCmd), Reaches s src Reg.CHECKPOINT_RCMD → s.chk.rcmd = some p → 
    Answers (.rcmdRead src false) s fun t => fld t Reg.CHECKPOINT_RCMD 7 4 = p.result % 16 ∧ (∀ i : Fin 4, ruleWord t p.entry i.val = (p.rule.map fun l => l.getD i.val 0).getD (ruleWord s p.entry i.val)) ∧ (∀ e i, e ≠ p.entry → i < 4 → ruleWord t e i = ruleWord s e i) ∧ (∀ i : Fin 4, reg t (Reg.CHECKPOINT_RDATA + 4 * i.val) = (p.rdata.map fun l => l.getD i.val 0).getD (reg s (Reg.CHECKPOINT_RDATA + 4 * i.val))) ∧ t.chk.rcmd.isSome = true ∧ t = { s with out := t.out, regs := t.regs, parBad := t.parBad, quay := { s.quay with msix := t.quay.msix }, chk := { s.chk with rules := t.chk.rules, rcmd := t.chk.rcmd } } ∧ OtherRegs s t [Reg.CHECKPOINT_RCMD] [Reg.INT_STAT, Reg.ERR_SYND, Reg.ERR_ADDR] [0x40]) ∧
  (∀ (s : State) (src : Src), Reaches s src Reg.CHECKPOINT_RCMD → rbit s (rk 0x40 Reg.ERR_SYND) 23 = false → s.chk.rcmd.isSome = true → 
    Answers (.rcmdRead src true) s fun t => t.chk = s.chk ∧ fld t (rk 0x40 Reg.ERR_SYND) 31 24 = 0x14 ∧ fld t (rk 0x40 Reg.ERR_SYND) 15 0 = 0xFF ∧ reg t (rk 0x40 Reg.ERR_ADDR) = 1 ∧ t = { s with out := t.out, regs := t.regs, parBad := t.parBad, quay := { s.quay with msix := t.quay.msix }, chk := { s.chk with rules := t.chk.rules, rcmd := t.chk.rcmd } } ∧ OtherRegs s t [Reg.CHECKPOINT_RCMD] [Reg.INT_STAT, Reg.ERR_SYND, Reg.ERR_ADDR] [0x40]) ∧
  (∀ (s : State) (src : Src), Reaches s src Reg.CHECKPOINT_RCMD → rbit s (rk 0x40 Reg.ERR_SYND) 23 = false → s.chk.rcmd.isSome = true → 
    Answers (.rcmdWrite src true) s fun t => t.chk = s.chk ∧ fld t (rk 0x40 Reg.ERR_SYND) 31 24 = 0x14 ∧ fld t (rk 0x40 Reg.ERR_SYND) 15 0 = 0xFF ∧ reg t (rk 0x40 Reg.ERR_ADDR) = 2 ∧ t = { s with out := t.out, regs := t.regs, parBad := t.parBad, quay := { s.quay with msix := t.quay.msix }, chk := { s.chk with rules := t.chk.rules, rcmd := t.chk.rcmd } } ∧ OtherRegs s t [Reg.CHECKPOINT_RCMD] [Reg.INT_STAT, Reg.ERR_SYND, Reg.ERR_ADDR] [0x40]) ∧
  (∀ (s : State) (src : Src), Reaches s src Reg.CHECKPOINT_RCMD → rbit s (rk 0x40 Reg.ERR_SYND) 23 = false → s.chk.rcmd.isSome = true → 
    Answers (.rcmdClear src true) s fun t => t.chk = s.chk ∧ fld t (rk 0x40 Reg.ERR_SYND) 31 24 = 0x14 ∧ fld t (rk 0x40 Reg.ERR_SYND) 15 0 = 0xFF ∧ reg t (rk 0x40 Reg.ERR_ADDR) = 3 ∧ t = { s with out := t.out, regs := t.regs, parBad := t.parBad, quay := { s.quay with msix := t.quay.msix }, chk := { s.chk with rules := t.chk.rules, rcmd := t.chk.rcmd } } ∧ OtherRegs s t [Reg.CHECKPOINT_RCMD] [Reg.INT_STAT, Reg.ERR_SYND, Reg.ERR_ADDR] [0x40]) ∧
  (∀ (s : State) (src : Src), Reaches s src Reg.CHECKPOINT_SYNC → 
    Answers (.checkpointSyncRead src) s fun t => t.chk = { s.chk with sync := s.chk.sync ++ [(src, s.chk.dma.map (·.1))] } ∧ t = { s with out := t.out, regs := t.regs, parBad := t.parBad, quay := { s.quay with msix := t.quay.msix }, chk := { s.chk with sync := t.chk.sync } } ∧ OtherRegs s t [] [Reg.INT_STAT, Reg.ERR_SYND, Reg.ERR_ADDR] []) ∧
  (∀ (s : State) (p : PortNo) (l : List Nat) (rest : List (Src × List Nat)), s.chk.sync = (.port p, l) :: rest → linkUp s p.val = true → 
    Answers (.checkpointSyncReturn) s fun t => t.out = .readData (.port p) (toLe 4 (b2n l.isEmpty)) :: s.out ∧ t.chk.sync = rest ∧ t = { s with out := t.out, cores := t.cores, chk := { s.chk with sync := t.chk.sync } }) ∧
  (∀ (s : State) (p : PortNo) (l : List Nat) (rest : List (Src × List Nat)), s.chk.sync = (.port p, l) :: rest → linkUp s p.val = false → 
    Answers (.checkpointSyncReturn) s fun t => t = { s with chk := { s.chk with sync := rest } }) ∧
  (∀ (s : State) (c : CoreNo) (l : List Nat) (rest : List (Src × List Nat)), s.chk.sync = (.core c, l) :: rest → (coreAt s c.val).busy = true → 
    Answers (.checkpointSyncReturn) s fun t => coreAt t c.val = { coreAt s c.val with loaded := some (b2n l.isEmpty) } ∧ t.chk.sync = rest ∧ t = { s with out := t.out, cores := t.cores, chk := { s.chk with sync := t.chk.sync } }) ∧
  (∀ (s : State), s.chk.sync = [] → 
    Answers (.checkpointSyncReturn) s fun t => t = s)

/-- GO on an engine that is not busy, outside lockdown, whose transfer is within the rules, starts the transfer its registers describe; one that is not word-aligned or of length 0 ends with LENGTH_LIMIT, one for a queue of another domain with DOMAIN, one that a Checkpoint or no window permits with ACCESS, and moves nothing; GO while busy is recorded and in lockdown ignored; ABORT marks a running transfer. A transfer that completes has moved every byte to its destination and nothing else, free bytes where its ranges overlap; one that meets an error, or stops after ABORT, has moved the bytes before it and ends ABORTED; the engine is then no longer busy. Each clause names what may change beside; every other part of the state and every other register is as before. Forms whose completion it states: dmaGo, dmaAbort, dmaDone. (R38, R409, R410, R411, R428, R547) -/
def Obligations.DmaTransfers : Prop :=
  (∀ (s : State) (src : Src) (e : DmaNo) (v : BitVec 32) (op : DmaOp), Reaches s src (dmaReg e.val 0x14) → wbit v 30 = false → s.kerb.lockdown = false → tfind s.chk.dma e.val = none → op = dmaOp (setReg s (dmaReg e.val 0x14) (BitVec.ofNat 32 (wbits (v ||| 0x80000000) 29 16 * 2 ^ 16 + wbits (v ||| 0x80000000) 1 0))) e.val → op.len ≠ 0 → op.len % 4 = 0 → op.src % 4 = 0 → op.dst % 4 = 0 → op.dir = 0 ∨ qDomain (queueAt s op.queue) = op.dom → (dmaRanges e.val op).find? (fun a => !permits s a) = none → dmaHostOk s op = true → 
    Answers (.dmaGo src e v) s fun t => tfind t.chk.dma e.val = some op ∧ (∀ n, n ≠ e.val → tfind t.chk.dma n = tfind s.chk.dma n) ∧ t = { s with out := t.out, regs := t.regs, parBad := t.parBad, wins := t.wins, quay := { s.quay with msix := t.quay.msix, winWait := t.quay.winWait }, kerb := { s.kerb with reports := t.kerb.reports }, fnt := { s.fnt with state := t.fnt.state, absorbed := t.fnt.absorbed, credit := t.fnt.credit, seed := t.fnt.seed, int := t.fnt.int, sw := t.fnt.sw, katBusy := t.fnt.katBusy, part := t.fnt.part, rngDead := t.fnt.rngDead }, chk := { s.chk with dma := t.chk.dma, sync := t.chk.sync } } ∧ OtherRegs s t [Reg.CHECKPOINT_REFUSED] [Reg.PAGE_STAT, Reg.INT_STAT, Reg.ERR_SYND, Reg.ERR_ADDR, Reg.FAULT_CNT] [0x40]) ∧
  (∀ (s : State) (src : Src) (e : DmaNo) (v : BitVec 32) (op : DmaOp), Reaches s src (dmaReg e.val 0x14) → wbit v 30 = false → s.kerb.lockdown = false → tfind s.chk.dma e.val = none → op = dmaOp (setReg s (dmaReg e.val 0x14) (BitVec.ofNat 32 (wbits (v ||| 0x80000000) 29 16 * 2 ^ 16 + wbits (v ||| 0x80000000) 1 0))) e.val → op.len = 0 ∨ op.len % 4 ≠ 0 ∨ op.src % 4 ≠ 0 ∨ op.dst % 4 ≠ 0 → 
    Answers (.dmaGo src e v) s fun t => tfind t.chk.dma e.val = none ∧ reg t (dmaReg e.val 0x18) = 3 ∧ reg t (dmaReg e.val 0x1C) = 0 ∧ t = { s with out := t.out, regs := t.regs, parBad := t.parBad, wins := t.wins, quay := { s.quay with msix := t.quay.msix, winWait := t.quay.winWait }, kerb := { s.kerb with reports := t.kerb.reports }, fnt := { s.fnt with state := t.fnt.state, absorbed := t.fnt.absorbed, credit := t.fnt.credit, seed := t.fnt.seed, int := t.fnt.int, sw := t.fnt.sw, katBusy := t.fnt.katBusy, part := t.fnt.part, rngDead := t.fnt.rngDead }, chk := { s.chk with dma := t.chk.dma, sync := t.chk.sync } } ∧ OtherRegs s t [Reg.CHECKPOINT_REFUSED] [Reg.PAGE_STAT, Reg.INT_STAT, Reg.ERR_SYND, Reg.ERR_ADDR, Reg.FAULT_CNT] [0x40]) ∧
  (∀ (s : State) (src : Src) (e : DmaNo) (v : BitVec 32) (op : DmaOp), Reaches s src (dmaReg e.val 0x14) → wbit v 30 = false → s.kerb.lockdown = false → tfind s.chk.dma e.val = none → op = dmaOp (setReg s (dmaReg e.val 0x14) (BitVec.ofNat 32 (wbits (v ||| 0x80000000) 29 16 * 2 ^ 16 + wbits (v ||| 0x80000000) 1 0))) e.val → op.len ≠ 0 → op.len % 4 = 0 → op.src % 4 = 0 → op.dst % 4 = 0 → op.dir ≠ 0 → qDomain (queueAt s op.queue) ≠ op.dom → 
    Answers (.dmaGo src e v) s fun t => tfind t.chk.dma e.val = none ∧ reg t (dmaReg e.val 0x18) = 0x0C ∧ reg t (dmaReg e.val 0x1C) = 0 ∧ t = { s with out := t.out, regs := t.regs, parBad := t.parBad, wins := t.wins, quay := { s.quay with msix := t.quay.msix, winWait := t.quay.winWait }, kerb := { s.kerb with reports := t.kerb.reports }, fnt := { s.fnt with state := t.fnt.state, absorbed := t.fnt.absorbed, credit := t.fnt.credit, seed := t.fnt.seed, int := t.fnt.int, sw := t.fnt.sw, katBusy := t.fnt.katBusy, part := t.fnt.part, rngDead := t.fnt.rngDead }, chk := { s.chk with dma := t.chk.dma, sync := t.chk.sync } } ∧ OtherRegs s t [Reg.CHECKPOINT_REFUSED] [Reg.PAGE_STAT, Reg.INT_STAT, Reg.ERR_SYND, Reg.ERR_ADDR, Reg.FAULT_CNT] [0x40]) ∧
  (∀ (s : State) (src : Src) (e : DmaNo) (v : BitVec 32) (op : DmaOp), Reaches s src (dmaReg e.val 0x14) → wbit v 30 = false → s.kerb.lockdown = false → tfind s.chk.dma e.val = none → op = dmaOp (setReg s (dmaReg e.val 0x14) (BitVec.ofNat 32 (wbits (v ||| 0x80000000) 29 16 * 2 ^ 16 + wbits (v ||| 0x80000000) 1 0))) e.val → op.len ≠ 0 → op.len % 4 = 0 → op.src % 4 = 0 → op.dst % 4 = 0 → op.dir = 0 ∨ qDomain (queueAt s op.queue) = op.dom → (dmaRanges e.val op).all (permits s) = false → 
    Answers (.dmaGo src e v) s fun t => tfind t.chk.dma e.val = none ∧ reg t (dmaReg e.val 0x18) = 4 ∧ reg t (dmaReg e.val 0x1C) = 0 ∧ t = { s with out := t.out, regs := t.regs, parBad := t.parBad, wins := t.wins, quay := { s.quay with msix := t.quay.msix, winWait := t.quay.winWait }, kerb := { s.kerb with reports := t.kerb.reports }, fnt := { s.fnt with state := t.fnt.state, absorbed := t.fnt.absorbed, credit := t.fnt.credit, seed := t.fnt.seed, int := t.fnt.int, sw := t.fnt.sw, katBusy := t.fnt.katBusy, part := t.fnt.part, rngDead := t.fnt.rngDead }, chk := { s.chk with dma := t.chk.dma, sync := t.chk.sync } } ∧ OtherRegs s t [Reg.CHECKPOINT_REFUSED] [Reg.PAGE_STAT, Reg.INT_STAT, Reg.ERR_SYND, Reg.ERR_ADDR, Reg.FAULT_CNT] [0x40]) ∧
  (∀ (s : State) (src : Src) (e : DmaNo) (v : BitVec 32) (op : DmaOp), Reaches s src (dmaReg e.val 0x14) → wbit v 30 = false → s.kerb.lockdown = false → tfind s.chk.dma e.val = none → op = dmaOp (setReg s (dmaReg e.val 0x14) (BitVec.ofNat 32 (wbits (v ||| 0x80000000) 29 16 * 2 ^ 16 + wbits (v ||| 0x80000000) 1 0))) e.val → op.len ≠ 0 → op.len % 4 = 0 → op.src % 4 = 0 → op.dst % 4 = 0 → op.dir = 0 ∨ qDomain (queueAt s op.queue) = op.dom → (dmaRanges e.val op).find? (fun a => !permits s a) = none → dmaHostOk s op = false → 
    Answers (.dmaGo src e v) s fun t => tfind t.chk.dma e.val = none ∧ reg t (dmaReg e.val 0x18) = 4 ∧ reg t (dmaReg e.val 0x1C) = 0 ∧ t = { s with out := t.out, regs := t.regs, parBad := t.parBad, wins := t.wins, quay := { s.quay with msix := t.quay.msix, winWait := t.quay.winWait }, kerb := { s.kerb with reports := t.kerb.reports }, fnt := { s.fnt with state := t.fnt.state, absorbed := t.fnt.absorbed, credit := t.fnt.credit, seed := t.fnt.seed, int := t.fnt.int, sw := t.fnt.sw, katBusy := t.fnt.katBusy, part := t.fnt.part, rngDead := t.fnt.rngDead }, chk := { s.chk with dma := t.chk.dma, sync := t.chk.sync } } ∧ OtherRegs s t [Reg.CHECKPOINT_REFUSED] [Reg.PAGE_STAT, Reg.INT_STAT, Reg.ERR_SYND, Reg.ERR_ADDR, Reg.FAULT_CNT] [0x40]) ∧
  (∀ (s : State) (src : Src) (e : DmaNo) (v : BitVec 32), Reaches s src (dmaReg e.val 0x14) → wbit v 30 = false → s.kerb.lockdown = false → (tfind s.chk.dma e.val).isSome = true → rbit s (rk 0x40 Reg.ERR_SYND) 23 = false → 
    Answers (.dmaGo src e v) s fun t => t.chk = s.chk ∧ fld t (rk 0x40 Reg.ERR_SYND) 31 24 = 0x14 ∧ fld t (rk 0x40 Reg.ERR_SYND) 15 0 = e.val ∧ reg t (rk 0x40 Reg.ERR_ADDR) = (v ||| 0x80000000) ∧ t = { s with out := t.out, regs := t.regs, parBad := t.parBad, wins := t.wins, quay := { s.quay with msix := t.quay.msix, winWait := t.quay.winWait }, kerb := { s.kerb with reports := t.kerb.reports }, fnt := { s.fnt with state := t.fnt.state, absorbed := t.fnt.absorbed, credit := t.fnt.credit, seed := t.fnt.seed, int := t.fnt.int, sw := t.fnt.sw, katBusy := t.fnt.katBusy, part := t.fnt.part, rngDead := t.fnt.rngDead }, chk := { s.chk with dma := t.chk.dma, sync := t.chk.sync } } ∧ OtherRegs s t [Reg.CHECKPOINT_REFUSED] [Reg.PAGE_STAT, Reg.INT_STAT, Reg.ERR_SYND, Reg.ERR_ADDR, Reg.FAULT_CNT] [0x40]) ∧
  (∀ (s : State) (src : Src) (e : DmaNo) (v : BitVec 32), Reaches s src (dmaReg e.val 0x14) → wbit v 30 = false → s.kerb.lockdown = true → 
    Answers (.dmaGo src e v) s fun t => t.chk = s.chk ∧ t = { s with out := t.out, regs := t.regs, parBad := t.parBad, wins := t.wins, quay := { s.quay with msix := t.quay.msix, winWait := t.quay.winWait }, kerb := { s.kerb with reports := t.kerb.reports }, fnt := { s.fnt with state := t.fnt.state, absorbed := t.fnt.absorbed, credit := t.fnt.credit, seed := t.fnt.seed, int := t.fnt.int, sw := t.fnt.sw, katBusy := t.fnt.katBusy, part := t.fnt.part, rngDead := t.fnt.rngDead }, chk := { s.chk with dma := t.chk.dma, sync := t.chk.sync } } ∧ OtherRegs s t [Reg.CHECKPOINT_REFUSED] [Reg.PAGE_STAT, Reg.INT_STAT, Reg.ERR_SYND, Reg.ERR_ADDR, Reg.FAULT_CNT] [0x40]) ∧
  (∀ (s : State) (src : Src) (e : DmaNo) (op : DmaOp), Reaches s src (dmaReg e.val 0x14) → tfind s.chk.dma e.val = some op → 
    Answers (.dmaAbort src e) s fun t => tfind t.chk.dma e.val = some { op with abort := true } ∧ t = { s with out := t.out, regs := t.regs, parBad := t.parBad, quay := { s.quay with msix := t.quay.msix }, chk := { s.chk with dma := t.chk.dma } } ∧ OtherRegs s t [] [Reg.INT_STAT, Reg.ERR_SYND, Reg.ERR_ADDR] []) ∧
  (∀ (s : State) (src : Src) (e : DmaNo), Reaches s src (dmaReg e.val 0x14) → tfind s.chk.dma e.val = none → 
    Answers (.dmaAbort src e) s fun t => t.chk = s.chk ∧ t = { s with out := t.out, regs := t.regs, parBad := t.parBad, quay := { s.quay with msix := t.quay.msix }, chk := { s.chk with dma := t.chk.dma } } ∧ OtherRegs s t [] [Reg.INT_STAT, Reg.ERR_SYND, Reg.ERR_ADDR] []) ∧
  (∀ (s : State) (e : DmaNo) (op : DmaOp) (data : Bytes) (cor : List Nat), tfind s.chk.dma e.val = some op → op.dir = 0 → damagedAt s op.src op.len = none → op.dst + op.len ≤ op.src ∨ op.src + op.len ≤ op.dst → 
    Answers (.dmaDone e data { how := .ok none, corrected := cor }) s fun t => tfind t.chk.dma e.val = none ∧ reg t (dmaReg e.val 0x18) = 0 ∧ reg t (dmaReg e.val 0x1C) = BitVec.ofNat 32 (op.len) ∧ memBytes t op.dst op.len = (mapRead s 16 op.src op.len).1 ∧ (∀ a, (a < op.dst ∨ op.dst + op.len ≤ a) → memByte t a = memByte s a) ∧ t = { s with out := t.out, free := t.free, regs := t.regs, parBad := t.parBad, wins := t.wins, quay := { s.quay with msix := t.quay.msix, winWait := t.quay.winWait }, kerb := { s.kerb with reports := t.kerb.reports }, fnt := { s.fnt with state := t.fnt.state, absorbed := t.fnt.absorbed, credit := t.fnt.credit, seed := t.fnt.seed, int := t.fnt.int, sw := t.fnt.sw, katBusy := t.fnt.katBusy, part := t.fnt.part, rngDead := t.fnt.rngDead }, chk := { s.chk with dma := t.chk.dma, sync := t.chk.sync, eccBad := t.chk.eccBad }, mem := t.mem } ∧ OtherRegs s t [Reg.CHECKPOINT_SRAM_ECC] [Reg.PAGE_STAT, Reg.INT_STAT, Reg.ERR_SYND, Reg.ERR_ADDR, Reg.FAULT_CNT, Reg.QUAY_LINK_ERR] [0x40]) ∧
  (∀ (s : State) (e : DmaNo) (op : DmaOp) (data : Bytes) (cor : List Nat), tfind s.chk.dma e.val = some op → op.dir = 0 → damagedAt s op.src op.len = none → op.src < op.dst + op.len → op.dst < op.src + op.len → 
    Answers (.dmaDone e data { how := .ok none, corrected := cor }) s fun t => tfind t.chk.dma e.val = none ∧ reg t (dmaReg e.val 0x18) = 0 ∧ reg t (dmaReg e.val 0x1C) = BitVec.ofNat 32 (op.len) ∧ (∀ a, (a < op.dst ∨ op.dst + op.len ≤ a) → memByte t a = memByte s a) ∧ t = { s with out := t.out, free := t.free, regs := t.regs, parBad := t.parBad, wins := t.wins, quay := { s.quay with msix := t.quay.msix, winWait := t.quay.winWait }, kerb := { s.kerb with reports := t.kerb.reports }, fnt := { s.fnt with state := t.fnt.state, absorbed := t.fnt.absorbed, credit := t.fnt.credit, seed := t.fnt.seed, int := t.fnt.int, sw := t.fnt.sw, katBusy := t.fnt.katBusy, part := t.fnt.part, rngDead := t.fnt.rngDead }, chk := { s.chk with dma := t.chk.dma, sync := t.chk.sync, eccBad := t.chk.eccBad }, mem := t.mem } ∧ OtherRegs s t [Reg.CHECKPOINT_SRAM_ECC] [Reg.PAGE_STAT, Reg.INT_STAT, Reg.ERR_SYND, Reg.ERR_ADDR, Reg.FAULT_CNT, Reg.QUAY_LINK_ERR] [0x40]) ∧
  (∀ (s : State) (e : DmaNo) (op : DmaOp) (data : Bytes) (cor : List Nat), tfind s.chk.dma e.val = some op → op.dir = 1 → op.len ≤ data.length → 
    Answers (.dmaDone e data { how := .ok none, corrected := cor }) s fun t => tfind t.chk.dma e.val = none ∧ reg t (dmaReg e.val 0x18) = 0 ∧ reg t (dmaReg e.val 0x1C) = BitVec.ofNat 32 (op.len) ∧ memBytes t op.dst op.len = data.take op.len ∧ (∀ a, (a < op.dst ∨ op.dst + op.len ≤ a) → memByte t a = memByte s a) ∧ t = { s with out := t.out, free := t.free, regs := t.regs, parBad := t.parBad, wins := t.wins, quay := { s.quay with msix := t.quay.msix, winWait := t.quay.winWait }, kerb := { s.kerb with reports := t.kerb.reports }, fnt := { s.fnt with state := t.fnt.state, absorbed := t.fnt.absorbed, credit := t.fnt.credit, seed := t.fnt.seed, int := t.fnt.int, sw := t.fnt.sw, katBusy := t.fnt.katBusy, part := t.fnt.part, rngDead := t.fnt.rngDead }, chk := { s.chk with dma := t.chk.dma, sync := t.chk.sync, eccBad := t.chk.eccBad }, mem := t.mem } ∧ OtherRegs s t [Reg.CHECKPOINT_SRAM_ECC] [Reg.PAGE_STAT, Reg.INT_STAT, Reg.ERR_SYND, Reg.ERR_ADDR, Reg.FAULT_CNT, Reg.QUAY_LINK_ERR] [0x40]) ∧
  (∀ (s : State) (e : DmaNo) (op : DmaOp) (data : Bytes) (cor : List Nat), tfind s.chk.dma e.val = some op → op.dir = 2 → damagedAt s op.src op.len = none → linkUp s (fnPort op.fn) = true → 
    Answers (.dmaDone e data { how := .ok none, corrected := cor }) s fun t => tfind t.chk.dma e.val = none ∧ reg t (dmaReg e.val 0x18) = 0 ∧ reg t (dmaReg e.val 0x1C) = BitVec.ofNat 32 (op.len) ∧ Out.dmaWrite op.fn op.dst (mapRead s 16 op.src op.len).1 ∈ t.out ∧ t.mem = s.mem ∧ t = { s with out := t.out, free := t.free, regs := t.regs, parBad := t.parBad, wins := t.wins, quay := { s.quay with msix := t.quay.msix, winWait := t.quay.winWait }, kerb := { s.kerb with reports := t.kerb.reports }, fnt := { s.fnt with state := t.fnt.state, absorbed := t.fnt.absorbed, credit := t.fnt.credit, seed := t.fnt.seed, int := t.fnt.int, sw := t.fnt.sw, katBusy := t.fnt.katBusy, part := t.fnt.part, rngDead := t.fnt.rngDead }, chk := { s.chk with dma := t.chk.dma, sync := t.chk.sync, eccBad := t.chk.eccBad }, mem := t.mem } ∧ OtherRegs s t [Reg.CHECKPOINT_SRAM_ECC] [Reg.PAGE_STAT, Reg.INT_STAT, Reg.ERR_SYND, Reg.ERR_ADDR, Reg.FAULT_CNT, Reg.QUAY_LINK_ERR] [0x40]) ∧
  (∀ (s : State) (e : DmaNo) (op : DmaOp) (data : Bytes) (cor : List Nat), tfind s.chk.dma e.val = some op → op.dir = 2 → damagedAt s op.src op.len = none → linkUp s (fnPort op.fn) = false → 
    Answers (.dmaDone e data { how := .ok none, corrected := cor }) s fun t => tfind t.chk.dma e.val = none ∧ reg t (dmaReg e.val 0x18) = 0 ∧ reg t (dmaReg e.val 0x1C) = BitVec.ofNat 32 (op.len) ∧ (∀ f a b, Out.dmaWrite f a b ∈ t.out → Out.dmaWrite f a b ∈ s.out) ∧ t.mem = s.mem ∧ t = { s with out := t.out, free := t.free, regs := t.regs, parBad := t.parBad, wins := t.wins, quay := { s.quay with msix := t.quay.msix, winWait := t.quay.winWait }, kerb := { s.kerb with reports := t.kerb.reports }, fnt := { s.fnt with state := t.fnt.state, absorbed := t.fnt.absorbed, credit := t.fnt.credit, seed := t.fnt.seed, int := t.fnt.int, sw := t.fnt.sw, katBusy := t.fnt.katBusy, part := t.fnt.part, rngDead := t.fnt.rngDead }, chk := { s.chk with dma := t.chk.dma, sync := t.chk.sync, eccBad := t.chk.eccBad }, mem := t.mem } ∧ OtherRegs s t [Reg.CHECKPOINT_SRAM_ECC] [Reg.PAGE_STAT, Reg.INT_STAT, Reg.ERR_SYND, Reg.ERR_ADDR, Reg.FAULT_CNT, Reg.QUAY_LINK_ERR] [0x40]) ∧
  (∀ (s : State) (e : DmaNo) (op : DmaOp) (data : Bytes) (cor : List Nat) (w : Nat), tfind s.chk.dma e.val = some op → op.dir ≠ 1 → damagedAt s op.src op.len = some w → 
    Answers (.dmaDone e data { how := .ok none, corrected := cor }) s fun t => tfind t.chk.dma e.val = none ∧ reg t (dmaReg e.val 0x18) = 8 ∧ reg t (dmaReg e.val 0x1C) = BitVec.ofNat 32 (beatStart op (w - op.src)) ∧ (∀ a, (a < op.dst ∨ op.dst + op.len ≤ a) → memByte t a = memByte s a) ∧ t = { s with out := t.out, free := t.free, regs := t.regs, parBad := t.parBad, wins := t.wins, quay := { s.quay with msix := t.quay.msix, winWait := t.quay.winWait }, kerb := { s.kerb with reports := t.kerb.reports }, fnt := { s.fnt with state := t.fnt.state, absorbed := t.fnt.absorbed, credit := t.fnt.credit, seed := t.fnt.seed, int := t.fnt.int, sw := t.fnt.sw, katBusy := t.fnt.katBusy, part := t.fnt.part, rngDead := t.fnt.rngDead }, chk := { s.chk with dma := t.chk.dma, sync := t.chk.sync, eccBad := t.chk.eccBad }, mem := t.mem } ∧ OtherRegs s t [Reg.CHECKPOINT_SRAM_ECC] [Reg.PAGE_STAT, Reg.INT_STAT, Reg.ERR_SYND, Reg.ERR_ADDR, Reg.FAULT_CNT, Reg.QUAY_LINK_ERR] [0x40]) ∧
  (∀ (s : State) (e : DmaNo) (op : DmaOp) (data : Bytes) (cor : List Nat), tfind s.chk.dma e.val = some op → op.abort = true → op.dir = 1 ∨ damagedAt s op.src (min (beatStart op data.length) op.len) = none → 
    Answers (.dmaDone e data { how := .aborted, corrected := cor }) s fun t => tfind t.chk.dma e.val = none ∧ reg t (dmaReg e.val 0x18) = 8 ∧ reg t (dmaReg e.val 0x1C) = BitVec.ofNat 32 (beatStart op data.length) ∧ (∀ a, (a < op.dst ∨ op.dst + beatStart op data.length ≤ a) → memByte t a = memByte s a) ∧ t = { s with out := t.out, free := t.free, regs := t.regs, parBad := t.parBad, wins := t.wins, quay := { s.quay with msix := t.quay.msix, winWait := t.quay.winWait }, kerb := { s.kerb with reports := t.kerb.reports }, fnt := { s.fnt with state := t.fnt.state, absorbed := t.fnt.absorbed, credit := t.fnt.credit, seed := t.fnt.seed, int := t.fnt.int, sw := t.fnt.sw, katBusy := t.fnt.katBusy, part := t.fnt.part, rngDead := t.fnt.rngDead }, chk := { s.chk with dma := t.chk.dma, sync := t.chk.sync, eccBad := t.chk.eccBad }, mem := t.mem } ∧ OtherRegs s t [Reg.CHECKPOINT_SRAM_ECC] [Reg.PAGE_STAT, Reg.INT_STAT, Reg.ERR_SYND, Reg.ERR_ADDR, Reg.FAULT_CNT, Reg.QUAY_LINK_ERR] [0x40]) ∧
  (∀ (s : State) (e : DmaNo) (op : DmaOp) (data : Bytes) (cor : List Nat), tfind s.chk.dma e.val = some op → op.dir ≠ 1 → damagedAt s op.src (min (beatStart op data.length + 64) op.len) = none → 
    Answers (.dmaDone e data { how := .ecc, corrected := cor }) s fun t => tfind t.chk.dma e.val = none ∧ reg t (dmaReg e.val 0x18) = 8 ∧ reg t (dmaReg e.val 0x1C) = BitVec.ofNat 32 (beatStart op data.length) ∧ (∀ a, (a < op.dst ∨ op.dst + beatStart op data.length ≤ a) → memByte t a = memByte s a) ∧ t = { s with out := t.out, free := t.free, regs := t.regs, parBad := t.parBad, wins := t.wins, quay := { s.quay with msix := t.quay.msix, winWait := t.quay.winWait }, kerb := { s.kerb with reports := t.kerb.reports }, fnt := { s.fnt with state := t.fnt.state, absorbed := t.fnt.absorbed, credit := t.fnt.credit, seed := t.fnt.seed, int := t.fnt.int, sw := t.fnt.sw, katBusy := t.fnt.katBusy, part := t.fnt.part, rngDead := t.fnt.rngDead }, chk := { s.chk with dma := t.chk.dma, sync := t.chk.sync, eccBad := t.chk.eccBad }, mem := t.mem } ∧ OtherRegs s t [Reg.CHECKPOINT_SRAM_ECC] [Reg.PAGE_STAT, Reg.INT_STAT, Reg.ERR_SYND, Reg.ERR_ADDR, Reg.FAULT_CNT, Reg.QUAY_LINK_ERR] [0x40]) ∧
  (∀ (s : State) (e : DmaNo) (op : DmaOp) (data : Bytes) (cor : List Nat), tfind s.chk.dma e.val = some op → op.dir = 1 → 
    Answers (.dmaDone e data { how := .poisoned, corrected := cor }) s fun t => tfind t.chk.dma e.val = none ∧ reg t (dmaReg e.val 0x18) = 8 ∧ reg t (dmaReg e.val 0x1C) = BitVec.ofNat 32 (beatStart op data.length) ∧ (∀ a, (a < op.dst ∨ op.dst + beatStart op data.length ≤ a) → memByte t a = memByte s a) ∧ t = { s with out := t.out, free := t.free, regs := t.regs, parBad := t.parBad, wins := t.wins, quay := { s.quay with msix := t.quay.msix, winWait := t.quay.winWait }, kerb := { s.kerb with reports := t.kerb.reports }, fnt := { s.fnt with state := t.fnt.state, absorbed := t.fnt.absorbed, credit := t.fnt.credit, seed := t.fnt.seed, int := t.fnt.int, sw := t.fnt.sw, katBusy := t.fnt.katBusy, part := t.fnt.part, rngDead := t.fnt.rngDead }, chk := { s.chk with dma := t.chk.dma, sync := t.chk.sync, eccBad := t.chk.eccBad }, mem := t.mem } ∧ OtherRegs s t [Reg.CHECKPOINT_SRAM_ECC] [Reg.PAGE_STAT, Reg.INT_STAT, Reg.ERR_SYND, Reg.ERR_ADDR, Reg.FAULT_CNT, Reg.QUAY_LINK_ERR] [0x40]) ∧
  (∀ (s : State) (e : DmaNo) (op : DmaOp) (data : Bytes) (h : Hit), tfind s.chk.dma e.val = some op → op.dir = 1 ∨ damagedAt s op.src op.len = none → (sealPass (dmaSourcePage op) (dmaSinkPage op) none 0 (dmaData s op data op.len).1 (some h)).2 = false → 
    Answers (.dmaDone e data { how := .ok (some h) }) s fun t => tfind t.chk.dma e.val = none ∧ reg t (dmaReg e.val 0x18) = 8 ∧ reg t (dmaReg e.val 0x1C) = BitVec.ofNat 32 ((sealPass (dmaSourcePage op) (dmaSinkPage op) none 0 (dmaData s op data op.len).1 (some h)).1.length) ∧ (∀ a, (a < op.dst ∨ op.dst + op.len ≤ a) → memByte t a = memByte s a) ∧ t = { s with out := t.out, free := t.free, regs := t.regs, parBad := t.parBad, wins := t.wins, quay := { s.quay with msix := t.quay.msix, winWait := t.quay.winWait }, kerb := { s.kerb with reports := t.kerb.reports }, fnt := { s.fnt with state := t.fnt.state, absorbed := t.fnt.absorbed, credit := t.fnt.credit, seed := t.fnt.seed, int := t.fnt.int, sw := t.fnt.sw, katBusy := t.fnt.katBusy, part := t.fnt.part, rngDead := t.fnt.rngDead }, chk := { s.chk with dma := t.chk.dma, sync := t.chk.sync, eccBad := t.chk.eccBad }, mem := t.mem } ∧ OtherRegs s t [Reg.CHECKPOINT_SRAM_ECC] [Reg.PAGE_STAT, Reg.INT_STAT, Reg.ERR_SYND, Reg.ERR_ADDR, Reg.FAULT_CNT, Reg.QUAY_LINK_ERR] [0x40]) ∧
  (∀ (s : State) (e : DmaNo) (data : Bytes) (fin : DmaFin), tfind s.chk.dma e.val = none → 
    Answers (.dmaDone e data fin) s fun t => t = s)

/-- A detection of level sources not yet present, TEMP by its limits, EXT by an enabled pin at its level, VMAIN without the low Hub rails in reset, shows each in PRESENT, and where none of them reaches its threshold counts each that is enabled; so do injected detections; one that reaches the threshold of its source, with no other response running, makes it lasting, and LOCKDOWN among its actions locks the device down. A FAULT report is counted, a lasting one makes FAULT lasting, and is answered once for each page; a report of another source below its threshold is counted. A window that ends zeroes its count; a cleared source is no longer lasting and its count is 0; a condition that ends leaves PRESENT. Each clause names what may change beside; every other part of the state and every other register is as before. Forms whose completion it states: kerbDetection, kerbInject, kerbReport, kerbWindowExpire, kerbSrcClr, levelConditionEnd. (R418, R420, R421, R422, R423, R424, R428, R440) -/
def Obligations.KerbSources : Prop :=
  (∀ (s : State) (k : KSense), domOn s 19 = true → ∀ n ∈ ((List.range 13).filter fun n => levelSrc n && senses s k n && !rbit s Reg.KERB_PRESENT n), (kEn s n = false ∨ lasting s n = true ∨ kCount s n + 1 < kThr s n) → 
    Answers (.kerbDetection k) s fun t => (∀ n ∈ ((List.range 13).filter fun n => levelSrc n && senses s k n && !rbit s Reg.KERB_PRESENT n), rbit t Reg.KERB_PRESENT n = true ∧ kCount t n = (if kEn s n then min 65535 (kCount s n + 1) else kCount s n)) ∧ (∀ n, n < 13 → n ∉ ((List.range 13).filter fun n => levelSrc n && senses s k n && !rbit s Reg.KERB_PRESENT n) → rbit t Reg.KERB_PRESENT n = rbit s Reg.KERB_PRESENT n ∧ kCount t n = kCount s n) ∧ t.quay.queues = s.quay.queues ∧ t.mem = s.mem ∧ t = { s with out := t.out, free := t.free, regs := t.regs, parBad := t.parBad, wins := t.wins, quay := { s.quay with queues := t.quay.queues, doms := t.quay.doms, domRR := t.quay.domRR, ctxs := t.quay.ctxs, nextAcc := t.quay.nextAcc, msix := t.quay.msix }, units := { s.units with cipher := t.units.cipher, hash := t.units.hash, arc := t.units.arc, laneBlocks := t.units.laneBlocks, blvdBytes := t.units.blvdBytes, hashBytes := t.units.hashBytes }, mews := { s.mews with slots := t.mews.slots, genBase := t.mews.genBase, assign := t.mews.assign, cascades := t.mews.cascades, heldOps := t.mews.heldOps, zeroising := t.mews.zeroising, ctrs := t.mews.ctrs, dukpt := t.mews.dukpt }, life := { s.life with op := t.life.op, root := t.life.root }, kerb := { s.kerb with reports := t.kerb.reports, lockdown := t.kerb.lockdown, erase := t.kerb.erase, sev := t.kerb.sev, ksev := t.kerb.ksev, wins := t.kerb.wins, resp := t.kerb.resp, logQ := t.kerb.logQ }, fer := { s.fer with fleetRole := t.fer.fleetRole, wards := t.fer.wards, voucher := t.fer.voucher, lastSeq := t.fer.lastSeq }, bak := { s.bak with cust := t.bak.cust, pairRoot := t.bak.pairRoot, fleetRoot := t.bak.fleetRoot, btime := t.bak.btime }, fnt := { s.fnt with state := t.fnt.state, absorbed := t.fnt.absorbed, credit := t.fnt.credit, seed := t.fnt.seed, int := t.fnt.int, sw := t.fnt.sw, katBusy := t.fnt.katBusy, draws := t.fnt.draws, part := t.fnt.part, got := t.fnt.got, rng := t.fnt.rng, rngDone := t.fnt.rngDone, rngDead := t.fnt.rngDead }, curves := t.curves, xing := { s.xing with state := t.xing.state, seqr := t.xing.seqr, mirror := t.xing.mirror, link := t.xing.link, sess := t.xing.sess, upWait := t.xing.upWait, joinErr := t.xing.joinErr, deciding := t.xing.deciding, failing := t.xing.failing, wave := t.xing.wave }, fleet := { s.fleet with held := t.fleet.held }, cores := t.cores, chk := { s.chk with dma := t.chk.dma, eccBad := t.chk.eccBad, slotBad := t.chk.slotBad }, sd := { s.sd with op := t.sd.op, clk := t.sd.clk }, pb0 := t.pb0, pb1 := t.pb1, kiosk := { s.kiosk with pend := t.kiosk.pend, rd := t.kiosk.rd, carrier := t.kiosk.carrier, tag := t.kiosk.tag, harv := t.kiosk.harv, latched := t.kiosk.latched, app := t.kiosk.app, file := t.kiosk.file, wtx := t.kiosk.wtx, muted := t.kiosk.muted, plc := t.kiosk.plc }, mem := t.mem } ∧ OtherRegs s t [Reg.QUAY_QCMD, Reg.QUAY_RPL_HITS, Reg.RBT_LATE, Reg.BLVD_CMP_CNT, Reg.MEWS_ASSIGN_CMD, Reg.MEWS_ASSIGN_SKIP, Reg.MEWS_REVOKES, Reg.COMP_AUTH_FAIL, Reg.COMP_DONE, Reg.KERB_LASTING, Reg.KERB_PRESENT, Reg.KERB_LAST_SRC, Reg.KERB_LAST_ACT, Reg.KERB_LOG_DROP, Reg.FLEET_CMD, Reg.PB_STAT, Reg.PB_CMD, Reg.PB_STAT_1, Reg.PB_CMD_1, Reg.KIOSK_STAT, Reg.KIOSK_RD_CMD, Reg.KIOSK_PLC_CMD, Reg.KIOSK_HARV_STAT] [Reg.PAGE_STAT, Reg.INT_STAT, Reg.ERR_SYND, Reg.ERR_ADDR, Reg.FAULT_CNT, Reg.QUAY_LINK_STAT, Reg.QUAY_LINK_CTRL, Reg.QUAY_GRP_ROUTE, Reg.QUAY_DMA_OUTST, Reg.LANE_STOPS, Reg.ARC_LAST, Reg.SV_CNT, Reg.SV_CNT + 4, Reg.SV_CNT + 8, Reg.SV_CNT + 12, Reg.SV_CNT + 16, Reg.SV_CNT + 20, Reg.SV_CNT + 24, Reg.SV_CNT + 28, Reg.SV_OVF, Reg.SV_SMP_STAT] [0x44, 0x4D, 0x4E, 0x4F]) ∧
  (∀ (s : State) (k : KSense), domOn s 19 = false → 
    Answers (.kerbDetection k) s fun t => t = s) ∧
  (∀ (s : State) (src : Src) (v : BitVec 32), Reaches s src Reg.KERB_INJECT → s.life.hardLock = false → ∀ n ∈ bitsOf v.toNat 13, (kEn s n = false ∨ lasting s n = true ∨ kCount s n + 1 < kThr s n) → 
    Answers (.kerbInject src v) s fun t => (∀ n ∈ bitsOf v.toNat 13, kCount t n = (if kEn s n then min 65535 (kCount s n + 1) else kCount s n)) ∧ (∀ n, n < 13 → n ∉ bitsOf v.toNat 13 → kCount t n = kCount s n) ∧ t.mem = s.mem ∧ t = { s with out := t.out, free := t.free, regs := t.regs, parBad := t.parBad, wins := t.wins, quay := { s.quay with queues := t.quay.queues, doms := t.quay.doms, domRR := t.quay.domRR, ctxs := t.quay.ctxs, nextAcc := t.quay.nextAcc, msix := t.quay.msix }, units := { s.units with cipher := t.units.cipher, hash := t.units.hash, arc := t.units.arc, laneBlocks := t.units.laneBlocks, blvdBytes := t.units.blvdBytes, hashBytes := t.units.hashBytes }, mews := { s.mews with slots := t.mews.slots, genBase := t.mews.genBase, assign := t.mews.assign, cascades := t.mews.cascades, heldOps := t.mews.heldOps, zeroising := t.mews.zeroising, ctrs := t.mews.ctrs, dukpt := t.mews.dukpt }, life := { s.life with op := t.life.op, root := t.life.root }, kerb := { s.kerb with reports := t.kerb.reports, lockdown := t.kerb.lockdown, erase := t.kerb.erase, sev := t.kerb.sev, ksev := t.kerb.ksev, wins := t.kerb.wins, resp := t.kerb.resp, logQ := t.kerb.logQ }, fer := { s.fer with fleetRole := t.fer.fleetRole, wards := t.fer.wards, voucher := t.fer.voucher, lastSeq := t.fer.lastSeq }, bak := { s.bak with cust := t.bak.cust, pairRoot := t.bak.pairRoot, fleetRoot := t.bak.fleetRoot, btime := t.bak.btime }, fnt := { s.fnt with state := t.fnt.state, absorbed := t.fnt.absorbed, credit := t.fnt.credit, seed := t.fnt.seed, int := t.fnt.int, sw := t.fnt.sw, katBusy := t.fnt.katBusy, draws := t.fnt.draws, part := t.fnt.part, got := t.fnt.got, rng := t.fnt.rng, rngDone := t.fnt.rngDone, rngDead := t.fnt.rngDead }, curves := t.curves, xing := { s.xing with state := t.xing.state, seqr := t.xing.seqr, mirror := t.xing.mirror, link := t.xing.link, sess := t.xing.sess, upWait := t.xing.upWait, joinErr := t.xing.joinErr, deciding := t.xing.deciding, failing := t.xing.failing, wave := t.xing.wave }, fleet := { s.fleet with held := t.fleet.held }, cores := t.cores, chk := { s.chk with dma := t.chk.dma, eccBad := t.chk.eccBad, slotBad := t.chk.slotBad }, sd := { s.sd with op := t.sd.op, clk := t.sd.clk }, pb0 := t.pb0, pb1 := t.pb1, kiosk := { s.kiosk with pend := t.kiosk.pend, rd := t.kiosk.rd, carrier := t.kiosk.carrier, tag := t.kiosk.tag, harv := t.kiosk.harv, latched := t.kiosk.latched, app := t.kiosk.app, file := t.kiosk.file, wtx := t.kiosk.wtx, muted := t.kiosk.muted, plc := t.kiosk.plc }, mem := t.mem } ∧ OtherRegs s t [Reg.QUAY_QCMD, Reg.QUAY_RPL_HITS, Reg.RBT_LATE, Reg.BLVD_CMP_CNT, Reg.MEWS_ASSIGN_CMD, Reg.MEWS_ASSIGN_SKIP, Reg.MEWS_REVOKES, Reg.COMP_AUTH_FAIL, Reg.COMP_DONE, Reg.KERB_LASTING, Reg.KERB_LAST_SRC, Reg.KERB_LAST_ACT, Reg.KERB_LOG_DROP, Reg.FLEET_CMD, Reg.PB_STAT, Reg.PB_CMD, Reg.PB_STAT_1, Reg.PB_CMD_1, Reg.KIOSK_STAT, Reg.KIOSK_RD_CMD, Reg.KIOSK_PLC_CMD, Reg.KIOSK_HARV_STAT] [Reg.PAGE_STAT, Reg.INT_STAT, Reg.ERR_SYND, Reg.ERR_ADDR, Reg.FAULT_CNT, Reg.QUAY_LINK_STAT, Reg.QUAY_LINK_CTRL, Reg.QUAY_GRP_ROUTE, Reg.QUAY_DMA_OUTST, Reg.LANE_STOPS, Reg.ARC_LAST, Reg.SV_CNT, Reg.SV_CNT + 4, Reg.SV_CNT + 8, Reg.SV_CNT + 12, Reg.SV_CNT + 16, Reg.SV_CNT + 20, Reg.SV_CNT + 24, Reg.SV_CNT + 28, Reg.SV_OVF, Reg.SV_SMP_STAT] [0x44, 0x4D, 0x4E, 0x4F]) ∧
  (∀ (s : State) (src : Src) (v : BitVec 32) (n : SrcNo), Reaches s src Reg.KERB_INJECT → s.life.hardLock = false → bitsOf v.toNat 13 = [n.val] → kEn s n.val = true → lasting s n.val = false → kThr s n.val ≤ kCount s n.val + 1 → s.kerb.resp = none → 
    Answers (.kerbInject src v) s fun t => ((kActs s n.val).testBit 3 = true → t.kerb.lockdown = true) ∧ (kActs s n.val = 0 → lasting t n.val = true ∧ t.kerb.resp = some { mask := 2 ^ n.val, act := 0, sev := kSev s n.val } ∧ t.mem = s.mem) ∧ t = { s with out := t.out, free := t.free, regs := t.regs, parBad := t.parBad, wins := t.wins, quay := { s.quay with queues := t.quay.queues, doms := t.quay.doms, domRR := t.quay.domRR, ctxs := t.quay.ctxs, nextAcc := t.quay.nextAcc, msix := t.quay.msix }, units := { s.units with cipher := t.units.cipher, hash := t.units.hash, arc := t.units.arc, laneBlocks := t.units.laneBlocks, blvdBytes := t.units.blvdBytes, hashBytes := t.units.hashBytes }, mews := { s.mews with slots := t.mews.slots, genBase := t.mews.genBase, assign := t.mews.assign, cascades := t.mews.cascades, heldOps := t.mews.heldOps, zeroising := t.mews.zeroising, ctrs := t.mews.ctrs, dukpt := t.mews.dukpt }, life := { s.life with op := t.life.op, root := t.life.root }, kerb := { s.kerb with reports := t.kerb.reports, lockdown := t.kerb.lockdown, erase := t.kerb.erase, sev := t.kerb.sev, ksev := t.kerb.ksev, wins := t.kerb.wins, resp := t.kerb.resp, logQ := t.kerb.logQ }, fer := { s.fer with fleetRole := t.fer.fleetRole, wards := t.fer.wards, voucher := t.fer.voucher, lastSeq := t.fer.lastSeq }, bak := { s.bak with cust := t.bak.cust, pairRoot := t.bak.pairRoot, fleetRoot := t.bak.fleetRoot, btime := t.bak.btime }, fnt := { s.fnt with state := t.fnt.state, absorbed := t.fnt.absorbed, credit := t.fnt.credit, seed := t.fnt.seed, int := t.fnt.int, sw := t.fnt.sw, katBusy := t.fnt.katBusy, draws := t.fnt.draws, part := t.fnt.part, got := t.fnt.got, rng := t.fnt.rng, rngDone := t.fnt.rngDone, rngDead := t.fnt.rngDead }, curves := t.curves, xing := { s.xing with state := t.xing.state, seqr := t.xing.seqr, mirror := t.xing.mirror, link := t.xing.link, sess := t.xing.sess, upWait := t.xing.upWait, joinErr := t.xing.joinErr, deciding := t.xing.deciding, failing := t.xing.failing, wave := t.xing.wave }, fleet := { s.fleet with held := t.fleet.held }, cores := t.cores, chk := { s.chk with dma := t.chk.dma, eccBad := t.chk.eccBad, slotBad := t.chk.slotBad }, sd := { s.sd with op := t.sd.op, clk := t.sd.clk }, pb0 := t.pb0, pb1 := t.pb1, kiosk := { s.kiosk with pend := t.kiosk.pend, rd := t.kiosk.rd, carrier := t.kiosk.carrier, tag := t.kiosk.tag, harv := t.kiosk.harv, latched := t.kiosk.latched, app := t.kiosk.app, file := t.kiosk.file, wtx := t.kiosk.wtx, muted := t.kiosk.muted, plc := t.kiosk.plc }, mem := t.mem } ∧ OtherRegs s t [Reg.QUAY_QCMD, Reg.QUAY_RPL_HITS, Reg.RBT_LATE, Reg.BLVD_CMP_CNT, Reg.MEWS_ASSIGN_CMD, Reg.MEWS_ASSIGN_SKIP, Reg.MEWS_REVOKES, Reg.COMP_AUTH_FAIL, Reg.COMP_DONE, Reg.KERB_LASTING, Reg.KERB_LAST_SRC, Reg.KERB_LAST_ACT, Reg.KERB_LOG_DROP, Reg.FLEET_CMD, Reg.PB_STAT, Reg.PB_CMD, Reg.PB_STAT_1, Reg.PB_CMD_1, Reg.KIOSK_STAT, Reg.KIOSK_RD_CMD, Reg.KIOSK_PLC_CMD, Reg.KIOSK_HARV_STAT] [Reg.PAGE_STAT, Reg.INT_STAT, Reg.ERR_SYND, Reg.ERR_ADDR, Reg.FAULT_CNT, Reg.QUAY_LINK_STAT, Reg.QUAY_LINK_CTRL, Reg.QUAY_GRP_ROUTE, Reg.QUAY_DMA_OUTST, Reg.LANE_STOPS, Reg.ARC_LAST, Reg.SV_CNT, Reg.SV_CNT + 4, Reg.SV_CNT + 8, Reg.SV_CNT + 12, Reg.SV_CNT + 16, Reg.SV_CNT + 20, Reg.SV_CNT + 24, Reg.SV_CNT + 28, Reg.SV_OVF, Reg.SV_SMP_STAT] [0x44, 0x4D, 0x4E, 0x4F]) ∧
  (∀ (s : State) (r : KReport) (rest : List KReport), domOn s 19 = true → s.kerb.reports = r :: rest → r.src = 10 → r.lasting = false → kEn s 10 = true → lasting s 10 = false → 
    Answers (.kerbReport) s fun t => kCount t 10 = min 65535 (kCount s 10 + 1) ∧ t.kerb.reports = rest ∧ t.mem = s.mem ∧ t = { s with out := t.out, free := t.free, regs := t.regs, parBad := t.parBad, wins := t.wins, quay := { s.quay with queues := t.quay.queues, doms := t.quay.doms, domRR := t.quay.domRR, ctxs := t.quay.ctxs, nextAcc := t.quay.nextAcc, msix := t.quay.msix }, units := { s.units with cipher := t.units.cipher, hash := t.units.hash, arc := t.units.arc, laneBlocks := t.units.laneBlocks, blvdBytes := t.units.blvdBytes, hashBytes := t.units.hashBytes }, mews := { s.mews with slots := t.mews.slots, genBase := t.mews.genBase, assign := t.mews.assign, cascades := t.mews.cascades, heldOps := t.mews.heldOps, zeroising := t.mews.zeroising, ctrs := t.mews.ctrs, dukpt := t.mews.dukpt }, life := { s.life with op := t.life.op, root := t.life.root }, kerb := { s.kerb with reports := t.kerb.reports, lockdown := t.kerb.lockdown, erase := t.kerb.erase, sev := t.kerb.sev, ksev := t.kerb.ksev, wins := t.kerb.wins, answered := t.kerb.answered, resp := t.kerb.resp, logQ := t.kerb.logQ }, fer := { s.fer with fleetRole := t.fer.fleetRole, wards := t.fer.wards, voucher := t.fer.voucher, lastSeq := t.fer.lastSeq }, bak := { s.bak with cust := t.bak.cust, pairRoot := t.bak.pairRoot, fleetRoot := t.bak.fleetRoot, btime := t.bak.btime }, fnt := { s.fnt with state := t.fnt.state, absorbed := t.fnt.absorbed, credit := t.fnt.credit, seed := t.fnt.seed, int := t.fnt.int, sw := t.fnt.sw, katBusy := t.fnt.katBusy, draws := t.fnt.draws, part := t.fnt.part, got := t.fnt.got, rng := t.fnt.rng, rngDone := t.fnt.rngDone, rngDead := t.fnt.rngDead }, curves := t.curves, xing := { s.xing with state := t.xing.state, seqr := t.xing.seqr, mirror := t.xing.mirror, link := t.xing.link, sess := t.xing.sess, upWait := t.xing.upWait, joinErr := t.xing.joinErr, deciding := t.xing.deciding, failing := t.xing.failing, wave := t.xing.wave }, fleet := { s.fleet with held := t.fleet.held }, cores := t.cores, chk := { s.chk with dma := t.chk.dma, eccBad := t.chk.eccBad, slotBad := t.chk.slotBad }, sd := { s.sd with op := t.sd.op, clk := t.sd.clk }, pb0 := t.pb0, pb1 := t.pb1, kiosk := { s.kiosk with pend := t.kiosk.pend, rd := t.kiosk.rd, carrier := t.kiosk.carrier, tag := t.kiosk.tag, harv := t.kiosk.harv, latched := t.kiosk.latched, app := t.kiosk.app, file := t.kiosk.file, wtx := t.kiosk.wtx, muted := t.kiosk.muted, plc := t.kiosk.plc }, mem := t.mem } ∧ OtherRegs s t [Reg.QUAY_QCMD, Reg.QUAY_RPL_HITS, Reg.RBT_LATE, Reg.BLVD_CMP_CNT, Reg.MEWS_ASSIGN_CMD, Reg.MEWS_ASSIGN_SKIP, Reg.MEWS_REVOKES, Reg.COMP_AUTH_FAIL, Reg.COMP_DONE, Reg.KERB_LASTING, Reg.KERB_SRC_CNT + 40, Reg.KERB_LAST_SRC, Reg.KERB_LAST_ACT, Reg.KERB_LOG_DROP, Reg.FLEET_CMD, Reg.PB_STAT, Reg.PB_CMD, Reg.PB_STAT_1, Reg.PB_CMD_1, Reg.KIOSK_STAT, Reg.KIOSK_RD_CMD, Reg.KIOSK_PLC_CMD, Reg.KIOSK_HARV_STAT] [Reg.PAGE_STAT, Reg.INT_STAT, Reg.ERR_SYND, Reg.ERR_ADDR, Reg.FAULT_CNT, Reg.QUAY_LINK_STAT, Reg.QUAY_LINK_CTRL, Reg.QUAY_GRP_ROUTE, Reg.QUAY_DMA_OUTST, Reg.LANE_STOPS, Reg.ARC_LAST, Reg.SV_CNT, Reg.SV_CNT + 4, Reg.SV_CNT + 8, Reg.SV_CNT + 12, Reg.SV_CNT + 16, Reg.SV_CNT + 20, Reg.SV_CNT + 24, Reg.SV_CNT + 28, Reg.SV_OVF, Reg.SV_SMP_STAT] [0x44, 0x4D, 0x4E, 0x4F]) ∧
  (∀ (s : State) (r : KReport) (rest : List KReport), domOn s 19 = true → s.kerb.reports = r :: rest → r.src = 10 → r.lasting = true → kEn s 10 = true → s.kerb.answered.contains r.info = false → kActs s 10 = 0 → 
    Answers (.kerbReport) s fun t => lasting t 10 = true ∧ t.kerb.answered = r.info :: s.kerb.answered ∧ t.kerb.reports = rest ∧ t.mem = s.mem ∧ t = { s with out := t.out, free := t.free, regs := t.regs, parBad := t.parBad, wins := t.wins, quay := { s.quay with queues := t.quay.queues, doms := t.quay.doms, domRR := t.quay.domRR, ctxs := t.quay.ctxs, nextAcc := t.quay.nextAcc, msix := t.quay.msix }, units := { s.units with cipher := t.units.cipher, hash := t.units.hash, arc := t.units.arc, laneBlocks := t.units.laneBlocks, blvdBytes := t.units.blvdBytes, hashBytes := t.units.hashBytes }, mews := { s.mews with slots := t.mews.slots, genBase := t.mews.genBase, assign := t.mews.assign, cascades := t.mews.cascades, heldOps := t.mews.heldOps, zeroising := t.mews.zeroising, ctrs := t.mews.ctrs, dukpt := t.mews.dukpt }, life := { s.life with op := t.life.op, root := t.life.root }, kerb := { s.kerb with reports := t.kerb.reports, lockdown := t.kerb.lockdown, erase := t.kerb.erase, sev := t.kerb.sev, ksev := t.kerb.ksev, wins := t.kerb.wins, answered := t.kerb.answered, resp := t.kerb.resp, logQ := t.kerb.logQ }, fer := { s.fer with fleetRole := t.fer.fleetRole, wards := t.fer.wards, voucher := t.fer.voucher, lastSeq := t.fer.lastSeq }, bak := { s.bak with cust := t.bak.cust, pairRoot := t.bak.pairRoot, fleetRoot := t.bak.fleetRoot, btime := t.bak.btime }, fnt := { s.fnt with state := t.fnt.state, absorbed := t.fnt.absorbed, credit := t.fnt.credit, seed := t.fnt.seed, int := t.fnt.int, sw := t.fnt.sw, katBusy := t.fnt.katBusy, draws := t.fnt.draws, part := t.fnt.part, got := t.fnt.got, rng := t.fnt.rng, rngDone := t.fnt.rngDone, rngDead := t.fnt.rngDead }, curves := t.curves, xing := { s.xing with state := t.xing.state, seqr := t.xing.seqr, mirror := t.xing.mirror, link := t.xing.link, sess := t.xing.sess, upWait := t.xing.upWait, joinErr := t.xing.joinErr, deciding := t.xing.deciding, failing := t.xing.failing, wave := t.xing.wave }, fleet := { s.fleet with held := t.fleet.held }, cores := t.cores, chk := { s.chk with dma := t.chk.dma, eccBad := t.chk.eccBad, slotBad := t.chk.slotBad }, sd := { s.sd with op := t.sd.op, clk := t.sd.clk }, pb0 := t.pb0, pb1 := t.pb1, kiosk := { s.kiosk with pend := t.kiosk.pend, rd := t.kiosk.rd, carrier := t.kiosk.carrier, tag := t.kiosk.tag, harv := t.kiosk.harv, latched := t.kiosk.latched, app := t.kiosk.app, file := t.kiosk.file, wtx := t.kiosk.wtx, muted := t.kiosk.muted, plc := t.kiosk.plc }, mem := t.mem } ∧ OtherRegs s t [Reg.QUAY_QCMD, Reg.QUAY_RPL_HITS, Reg.RBT_LATE, Reg.BLVD_CMP_CNT, Reg.MEWS_ASSIGN_CMD, Reg.MEWS_ASSIGN_SKIP, Reg.MEWS_REVOKES, Reg.COMP_AUTH_FAIL, Reg.COMP_DONE, Reg.KERB_LASTING, Reg.KERB_SRC_CNT + 40, Reg.KERB_LAST_SRC, Reg.KERB_LAST_ACT, Reg.KERB_LOG_DROP, Reg.FLEET_CMD, Reg.PB_STAT, Reg.PB_CMD, Reg.PB_STAT_1, Reg.PB_CMD_1, Reg.KIOSK_STAT, Reg.KIOSK_RD_CMD, Reg.KIOSK_PLC_CMD, Reg.KIOSK_HARV_STAT] [Reg.PAGE_STAT, Reg.INT_STAT, Reg.ERR_SYND, Reg.ERR_ADDR, Reg.FAULT_CNT, Reg.QUAY_LINK_STAT, Reg.QUAY_LINK_CTRL, Reg.QUAY_GRP_ROUTE, Reg.QUAY_DMA_OUTST, Reg.LANE_STOPS, Reg.ARC_LAST, Reg.SV_CNT, Reg.SV_CNT + 4, Reg.SV_CNT + 8, Reg.SV_CNT + 12, Reg.SV_CNT + 16, Reg.SV_CNT + 20, Reg.SV_CNT + 24, Reg.SV_CNT + 28, Reg.SV_OVF, Reg.SV_SMP_STAT] [0x44, 0x4D, 0x4E, 0x4F]) ∧
  (∀ (s : State) (r : KReport) (rest : List KReport), domOn s 19 = true → s.kerb.reports = r :: rest → r.src = 10 → kEn s 10 = false → 
    Answers (.kerbReport) s fun t => t = setKerb s { s.kerb with reports := rest }) ∧
  (∀ (s : State) (r : KReport) (rest : List KReport), domOn s 19 = true → s.kerb.reports = r :: rest → r.src = 10 → kEn s 10 = true → r.lasting = true → s.kerb.answered.contains r.info = true → 
    Answers (.kerbReport) s fun t => kCount t 10 = min 65535 (kCount s 10 + 1) ∧ lasting t 10 = lasting s 10 ∧ t.kerb.answered = s.kerb.answered ∧ t.kerb.resp = s.kerb.resp ∧ t.kerb.reports = rest ∧ t.mem = s.mem ∧ t = { s with out := t.out, free := t.free, regs := t.regs, parBad := t.parBad, wins := t.wins, quay := { s.quay with queues := t.quay.queues, doms := t.quay.doms, domRR := t.quay.domRR, ctxs := t.quay.ctxs, nextAcc := t.quay.nextAcc, msix := t.quay.msix }, units := { s.units with cipher := t.units.cipher, hash := t.units.hash, arc := t.units.arc, laneBlocks := t.units.laneBlocks, blvdBytes := t.units.blvdBytes, hashBytes := t.units.hashBytes }, mews := { s.mews with slots := t.mews.slots, genBase := t.mews.genBase, assign := t.mews.assign, cascades := t.mews.cascades, heldOps := t.mews.heldOps, zeroising := t.mews.zeroising, ctrs := t.mews.ctrs, dukpt := t.mews.dukpt }, life := { s.life with op := t.life.op, root := t.life.root }, kerb := { s.kerb with reports := t.kerb.reports, lockdown := t.kerb.lockdown, erase := t.kerb.erase, sev := t.kerb.sev, ksev := t.kerb.ksev, wins := t.kerb.wins, answered := t.kerb.answered, resp := t.kerb.resp, logQ := t.kerb.logQ }, fer := { s.fer with fleetRole := t.fer.fleetRole, wards := t.fer.wards, voucher := t.fer.voucher, lastSeq := t.fer.lastSeq }, bak := { s.bak with cust := t.bak.cust, pairRoot := t.bak.pairRoot, fleetRoot := t.bak.fleetRoot, btime := t.bak.btime }, fnt := { s.fnt with state := t.fnt.state, absorbed := t.fnt.absorbed, credit := t.fnt.credit, seed := t.fnt.seed, int := t.fnt.int, sw := t.fnt.sw, katBusy := t.fnt.katBusy, draws := t.fnt.draws, part := t.fnt.part, got := t.fnt.got, rng := t.fnt.rng, rngDone := t.fnt.rngDone, rngDead := t.fnt.rngDead }, curves := t.curves, xing := { s.xing with state := t.xing.state, seqr := t.xing.seqr, mirror := t.xing.mirror, link := t.xing.link, sess := t.xing.sess, upWait := t.xing.upWait, joinErr := t.xing.joinErr, deciding := t.xing.deciding, failing := t.xing.failing, wave := t.xing.wave }, fleet := { s.fleet with held := t.fleet.held }, cores := t.cores, chk := { s.chk with dma := t.chk.dma, eccBad := t.chk.eccBad, slotBad := t.chk.slotBad }, sd := { s.sd with op := t.sd.op, clk := t.sd.clk }, pb0 := t.pb0, pb1 := t.pb1, kiosk := { s.kiosk with pend := t.kiosk.pend, rd := t.kiosk.rd, carrier := t.kiosk.carrier, tag := t.kiosk.tag, harv := t.kiosk.harv, latched := t.kiosk.latched, app := t.kiosk.app, file := t.kiosk.file, wtx := t.kiosk.wtx, muted := t.kiosk.muted, plc := t.kiosk.plc }, mem := t.mem } ∧ OtherRegs s t [Reg.QUAY_QCMD, Reg.QUAY_RPL_HITS, Reg.RBT_LATE, Reg.BLVD_CMP_CNT, Reg.MEWS_ASSIGN_CMD, Reg.MEWS_ASSIGN_SKIP, Reg.MEWS_REVOKES, Reg.COMP_AUTH_FAIL, Reg.COMP_DONE, Reg.KERB_LASTING, Reg.KERB_SRC_CNT + 40, Reg.KERB_LAST_SRC, Reg.KERB_LAST_ACT, Reg.KERB_LOG_DROP, Reg.FLEET_CMD, Reg.PB_STAT, Reg.PB_CMD, Reg.PB_STAT_1, Reg.PB_CMD_1, Reg.KIOSK_STAT, Reg.KIOSK_RD_CMD, Reg.KIOSK_PLC_CMD, Reg.KIOSK_HARV_STAT] [Reg.PAGE_STAT, Reg.INT_STAT, Reg.ERR_SYND, Reg.ERR_ADDR, Reg.FAULT_CNT, Reg.QUAY_LINK_STAT, Reg.QUAY_LINK_CTRL, Reg.QUAY_GRP_ROUTE, Reg.QUAY_DMA_OUTST, Reg.LANE_STOPS, Reg.ARC_LAST, Reg.SV_CNT, Reg.SV_CNT + 4, Reg.SV_CNT + 8, Reg.SV_CNT + 12, Reg.SV_CNT + 16, Reg.SV_CNT + 20, Reg.SV_CNT + 24, Reg.SV_CNT + 28, Reg.SV_OVF, Reg.SV_SMP_STAT] [0x44, 0x4D, 0x4E, 0x4F]) ∧
  (∀ (s : State) (r : KReport) (rest : List KReport), domOn s 19 = true → s.kerb.reports = r :: rest → r.src < 13 → r.src ≠ 10 → (kEn s r.src = false ∨ lasting s r.src = true ∨ kCount s r.src + 1 < kThr s r.src) → 
    Answers (.kerbReport) s fun t => kCount t r.src = (if kEn s r.src then min 65535 (kCount s r.src + 1) else kCount s r.src) ∧ t.kerb.reports = rest ∧ t.mem = s.mem ∧ t = { s with out := t.out, free := t.free, regs := t.regs, parBad := t.parBad, wins := t.wins, quay := { s.quay with queues := t.quay.queues, doms := t.quay.doms, domRR := t.quay.domRR, ctxs := t.quay.ctxs, nextAcc := t.quay.nextAcc, msix := t.quay.msix }, units := { s.units with cipher := t.units.cipher, hash := t.units.hash, arc := t.units.arc, laneBlocks := t.units.laneBlocks, blvdBytes := t.units.blvdBytes, hashBytes := t.units.hashBytes }, mews := { s.mews with slots := t.mews.slots, genBase := t.mews.genBase, assign := t.mews.assign, cascades := t.mews.cascades, heldOps := t.mews.heldOps, zeroising := t.mews.zeroising, ctrs := t.mews.ctrs, dukpt := t.mews.dukpt }, life := { s.life with op := t.life.op, root := t.life.root }, kerb := { s.kerb with reports := t.kerb.reports, lockdown := t.kerb.lockdown, erase := t.kerb.erase, sev := t.kerb.sev, ksev := t.kerb.ksev, wins := t.kerb.wins, answered := t.kerb.answered, resp := t.kerb.resp, logQ := t.kerb.logQ }, fer := { s.fer with fleetRole := t.fer.fleetRole, wards := t.fer.wards, voucher := t.fer.voucher, lastSeq := t.fer.lastSeq }, bak := { s.bak with cust := t.bak.cust, pairRoot := t.bak.pairRoot, fleetRoot := t.bak.fleetRoot, btime := t.bak.btime }, fnt := { s.fnt with state := t.fnt.state, absorbed := t.fnt.absorbed, credit := t.fnt.credit, seed := t.fnt.seed, int := t.fnt.int, sw := t.fnt.sw, katBusy := t.fnt.katBusy, draws := t.fnt.draws, part := t.fnt.part, got := t.fnt.got, rng := t.fnt.rng, rngDone := t.fnt.rngDone, rngDead := t.fnt.rngDead }, curves := t.curves, xing := { s.xing with state := t.xing.state, seqr := t.xing.seqr, mirror := t.xing.mirror, link := t.xing.link, sess := t.xing.sess, upWait := t.xing.upWait, joinErr := t.xing.joinErr, deciding := t.xing.deciding, failing := t.xing.failing, wave := t.xing.wave }, fleet := { s.fleet with held := t.fleet.held }, cores := t.cores, chk := { s.chk with dma := t.chk.dma, eccBad := t.chk.eccBad, slotBad := t.chk.slotBad }, sd := { s.sd with op := t.sd.op, clk := t.sd.clk }, pb0 := t.pb0, pb1 := t.pb1, kiosk := { s.kiosk with pend := t.kiosk.pend, rd := t.kiosk.rd, carrier := t.kiosk.carrier, tag := t.kiosk.tag, harv := t.kiosk.harv, latched := t.kiosk.latched, app := t.kiosk.app, file := t.kiosk.file, wtx := t.kiosk.wtx, muted := t.kiosk.muted, plc := t.kiosk.plc }, mem := t.mem } ∧ OtherRegs s t [Reg.QUAY_QCMD, Reg.QUAY_RPL_HITS, Reg.RBT_LATE, Reg.BLVD_CMP_CNT, Reg.MEWS_ASSIGN_CMD, Reg.MEWS_ASSIGN_SKIP, Reg.MEWS_REVOKES, Reg.COMP_AUTH_FAIL, Reg.COMP_DONE, Reg.KERB_LASTING, Reg.KERB_SRC_CNT + 40, Reg.KERB_LAST_SRC, Reg.KERB_LAST_ACT, Reg.KERB_LOG_DROP, Reg.FLEET_CMD, Reg.PB_STAT, Reg.PB_CMD, Reg.PB_STAT_1, Reg.PB_CMD_1, Reg.KIOSK_STAT, Reg.KIOSK_RD_CMD, Reg.KIOSK_PLC_CMD, Reg.KIOSK_HARV_STAT] [Reg.PAGE_STAT, Reg.INT_STAT, Reg.ERR_SYND, Reg.ERR_ADDR, Reg.FAULT_CNT, Reg.QUAY_LINK_STAT, Reg.QUAY_LINK_CTRL, Reg.QUAY_GRP_ROUTE, Reg.QUAY_DMA_OUTST, Reg.LANE_STOPS, Reg.ARC_LAST, Reg.SV_CNT, Reg.SV_CNT + 4, Reg.SV_CNT + 8, Reg.SV_CNT + 12, Reg.SV_CNT + 16, Reg.SV_CNT + 20, Reg.SV_CNT + 24, Reg.SV_CNT + 28, Reg.SV_OVF, Reg.SV_SMP_STAT] [0x44, 0x4D, 0x4E, 0x4F]) ∧
  (∀ (s : State), domOn s 19 = false ∨ s.kerb.reports = [] → 
    Answers (.kerbReport) s fun t => t = s) ∧
  (∀ (s : State) (n : SrcNo), s.kerb.wins.contains n.val = true → 
    Answers (.kerbWindowExpire n) s fun t => kCount t n.val = 0 ∧ t.kerb.wins.contains n.val = false ∧ t = { s with regs := t.regs, parBad := t.parBad, kerb := { s.kerb with wins := t.kerb.wins } } ∧ OtherRegs s t [] [] [0x44]) ∧
  (∀ (s : State) (n : SrcNo), s.kerb.wins.contains n.val = false → 
    Answers (.kerbWindowExpire n) s fun t => t = s) ∧
  (∀ (s : State) (src : Src) (v : BitVec 32), Reaches s src Reg.KERB_SRC_CLR → ∀ n ∈ bitsOf v.toNat 13, levelSrc n = false ∨ rbit s Reg.KERB_PRESENT n = false → 
    Answers (.kerbSrcClr src v) s fun t => (∀ n ∈ bitsOf v.toNat 13, kCount t n = 0 ∧ lasting t n = false ∧ t.kerb.wins.contains n = false) ∧ (∀ n, n < 13 → n ∉ bitsOf v.toNat 13 → kCount t n = kCount s n ∧ lasting t n = lasting s n) ∧ t.mem = s.mem ∧ t = { s with out := t.out, free := t.free, regs := t.regs, parBad := t.parBad, wins := t.wins, quay := { s.quay with queues := t.quay.queues, doms := t.quay.doms, domRR := t.quay.domRR, ctxs := t.quay.ctxs, nextAcc := t.quay.nextAcc, msix := t.quay.msix }, units := { s.units with cipher := t.units.cipher, hash := t.units.hash, arc := t.units.arc, laneBlocks := t.units.laneBlocks, blvdBytes := t.units.blvdBytes, hashBytes := t.units.hashBytes }, mews := { s.mews with slots := t.mews.slots, genBase := t.mews.genBase, assign := t.mews.assign, cascades := t.mews.cascades, heldOps := t.mews.heldOps, zeroising := t.mews.zeroising, ctrs := t.mews.ctrs, dukpt := t.mews.dukpt }, life := { s.life with op := t.life.op, root := t.life.root }, kerb := { s.kerb with reports := t.kerb.reports, lockdown := t.kerb.lockdown, erase := t.kerb.erase, sev := t.kerb.sev, ksev := t.kerb.ksev, wins := t.kerb.wins, answered := t.kerb.answered, resp := t.kerb.resp, logQ := t.kerb.logQ }, fer := { s.fer with fleetRole := t.fer.fleetRole, wards := t.fer.wards, voucher := t.fer.voucher, lastSeq := t.fer.lastSeq }, bak := { s.bak with cust := t.bak.cust, pairRoot := t.bak.pairRoot, fleetRoot := t.bak.fleetRoot, btime := t.bak.btime }, fnt := { s.fnt with state := t.fnt.state, absorbed := t.fnt.absorbed, credit := t.fnt.credit, seed := t.fnt.seed, int := t.fnt.int, sw := t.fnt.sw, katBusy := t.fnt.katBusy, draws := t.fnt.draws, part := t.fnt.part, got := t.fnt.got, rng := t.fnt.rng, rngDone := t.fnt.rngDone, rngDead := t.fnt.rngDead }, curves := t.curves, xing := { s.xing with state := t.xing.state, seqr := t.xing.seqr, mirror := t.xing.mirror, link := t.xing.link, sess := t.xing.sess, upWait := t.xing.upWait, joinErr := t.xing.joinErr, deciding := t.xing.deciding, failing := t.xing.failing, wave := t.xing.wave }, fleet := { s.fleet with held := t.fleet.held }, cores := t.cores, chk := { s.chk with dma := t.chk.dma, eccBad := t.chk.eccBad, slotBad := t.chk.slotBad }, sd := { s.sd with op := t.sd.op, clk := t.sd.clk }, pb0 := t.pb0, pb1 := t.pb1, kiosk := { s.kiosk with pend := t.kiosk.pend, rd := t.kiosk.rd, carrier := t.kiosk.carrier, tag := t.kiosk.tag, harv := t.kiosk.harv, latched := t.kiosk.latched, app := t.kiosk.app, file := t.kiosk.file, wtx := t.kiosk.wtx, muted := t.kiosk.muted, plc := t.kiosk.plc }, mem := t.mem } ∧ OtherRegs s t [Reg.QUAY_QCMD, Reg.QUAY_RPL_HITS, Reg.RBT_LATE, Reg.BLVD_CMP_CNT, Reg.MEWS_ASSIGN_CMD, Reg.MEWS_ASSIGN_SKIP, Reg.MEWS_REVOKES, Reg.COMP_AUTH_FAIL, Reg.COMP_DONE, Reg.KERB_LASTING, Reg.KERB_LAST_SRC, Reg.KERB_LAST_ACT, Reg.KERB_LOG_DROP, Reg.FLEET_CMD, Reg.PB_STAT, Reg.PB_CMD, Reg.PB_STAT_1, Reg.PB_CMD_1, Reg.KIOSK_STAT, Reg.KIOSK_RD_CMD, Reg.KIOSK_PLC_CMD, Reg.KIOSK_HARV_STAT] [Reg.PAGE_STAT, Reg.INT_STAT, Reg.ERR_SYND, Reg.ERR_ADDR, Reg.FAULT_CNT, Reg.QUAY_LINK_STAT, Reg.QUAY_LINK_CTRL, Reg.QUAY_GRP_ROUTE, Reg.QUAY_DMA_OUTST, Reg.LANE_STOPS, Reg.ARC_LAST, Reg.SV_CNT, Reg.SV_CNT + 4, Reg.SV_CNT + 8, Reg.SV_CNT + 12, Reg.SV_CNT + 16, Reg.SV_CNT + 20, Reg.SV_CNT + 24, Reg.SV_CNT + 28, Reg.SV_OVF, Reg.SV_SMP_STAT] [0x44, 0x4D, 0x4E, 0x4F]) ∧
  (∀ (s : State) (n : SrcNo), domOn s 19 = true → levelSrc n.val = true → 
    Answers (.levelConditionEnd n) s fun t => rbit t Reg.KERB_PRESENT n.val = false ∧ t.kerb = s.kerb ∧ t = { s with regs := t.regs, parBad := t.parBad } ∧ OtherRegs s t [Reg.KERB_PRESENT] [] []) ∧
  (∀ (s : State) (n : SrcNo), domOn s 19 = false ∨ levelSrc n.val = false → 
    Answers (.levelConditionEnd n) s fun t => t = s)

/-- When the actions of a response have completed the erase wires fall and the response is over unless RESET is still to come; RESET, once the RESPONSE entry is in the log, resets the Hub with its cause; KERB_ACK clears lockdown, or the severity; the oldest entry written to the log takes the next position and number, or after three failed read-backs goes to the backup log; BLOG_CLR removes the applied backup entries; the log registers latch the entry selected and BTIME. A response that runs on, a RESET not yet due and an empty log queue change nothing. Each clause names what may change beside; every other part of the state and every other register is as before. Forms whose completion it states: responseEnd, kerbResetAction, lockdownClr, sevClr, logEntryWrite, kerbBlogClr, kerbLogData0Read, kerbBlogData0Read, kerbBtimeLoRead. (R425, R426, R428, R429, R437, R438, R441, R442) -/
def Obligations.KerbResponses : Prop :=
  (∀ (s : State) (r : KResp), s.kerb.resp = some r → r.logged = false → s.mews.zeroising = false → s.kerb.erase = false ∨ pllRuns s = true → 
    Answers (.responseEnd) s fun t => t.kerb.erase = false ∧ t.kerb.resp = (if r.act.testBit 6 then some { r with logged := true } else none) ∧ t = { s with out := t.out, free := t.free, regs := t.regs, parBad := t.parBad, quay := { s.quay with msix := t.quay.msix }, kerb := { s.kerb with erase := t.kerb.erase, resp := t.kerb.resp, logQ := t.kerb.logQ }, bak := { s.bak with btime := t.bak.btime } } ∧ OtherRegs s t [Reg.KERB_LOG_DROP] [Reg.INT_STAT] []) ∧
  (∀ (s : State), s.kerb.resp = none ∨ (s.kerb.resp.map (·.logged)) = some true ∨ s.mews.zeroising = true ∨ (s.kerb.erase = true ∧ pllRuns s = false) → 
    Answers (.responseEnd) s fun t => t = s) ∧
  (∀ (s : State) (r : KResp), s.kerb.resp = some r → r.act.testBit 6 = true → r.conf = true → s.mews.zeroising = false → s.kerb.erase = false ∨ pllRuns s = true → 
    Answers (.kerbResetAction) s fun t => rbit t Reg.RST_CAUSE 2 = true ∧ t.quay = {} ∧ t.mews = {} ∧ t.cores = [] ∧ t.tick = 0 ∧ bootStage t = (if s.rstHigh then 1 else 0) ∧ (∀ a, memByte t a = if 0x05000000 ≤ a then memByte s a else 0)) ∧
  (∀ (s : State), s.kerb.resp = none ∨ (s.kerb.resp.map fun r => r.act.testBit 6 && r.conf) = some false ∨ s.mews.zeroising = true ∨ (s.kerb.erase = true ∧ pllRuns s = false) → 
    Answers (.kerbResetAction) s fun t => t = s) ∧
  (∀ (s : State) (src : Src), Reaches s src Reg.KERB_ACK → 
    Answers (.lockdownClr src) s fun t => t.kerb.lockdown = false ∧ t.kerb.ksev = s.kerb.ksev ∧ rbit t (rk 0x45 Reg.INT_STAT) 0 = true ∧ t = { s with out := t.out, free := t.free, regs := t.regs, parBad := t.parBad, quay := { s.quay with msix := t.quay.msix }, kerb := { s.kerb with lockdown := t.kerb.lockdown, sev := t.kerb.sev, ksev := t.kerb.ksev, logQ := t.kerb.logQ }, bak := { s.bak with btime := t.bak.btime } } ∧ OtherRegs s t [Reg.KERB_LOG_DROP] [Reg.INT_STAT, Reg.ERR_SYND, Reg.ERR_ADDR] []) ∧
  (∀ (s : State) (src : Src), Reaches s src Reg.KERB_ACK → 
    Answers (.sevClr src) s fun t => t.kerb.sev = 0 ∧ t.kerb.ksev = 0 ∧ t.kerb.lockdown = s.kerb.lockdown ∧ (s.kerb.ksev ≠ 0 → Out.pin "KSEV" 0 ∈ t.out) ∧ rbit t (rk 0x45 Reg.INT_STAT) 0 = true ∧ t = { s with out := t.out, free := t.free, regs := t.regs, parBad := t.parBad, quay := { s.quay with msix := t.quay.msix }, kerb := { s.kerb with lockdown := t.kerb.lockdown, sev := t.kerb.sev, ksev := t.kerb.ksev, logQ := t.kerb.logQ }, bak := { s.bak with btime := t.bak.btime } } ∧ OtherRegs s t [Reg.KERB_LOG_DROP] [Reg.INT_STAT, Reg.ERR_SYND, Reg.ERR_ADDR] []) ∧
  (∀ (s : State) (e : LogEnt) (rest : List LogEnt) (fails : Nat), s.mainOn = true → s.kerb.logQ = e :: rest → fails < 3 → 
    Answers (.logEntryWrite fails) s fun t => t.kerb.logQ = rest ∧ tfind t.fer.log (s.fer.logNext % 8192) = some (logBytes e s.fer.logNext) ∧ (∀ n, n ≠ s.fer.logNext % 8192 → tfind t.fer.log n = tfind s.fer.log n) ∧ t.fer.logNext = (s.fer.logNext + 1) % 2 ^ 32 ∧ t = { s with out := t.out, regs := t.regs, parBad := t.parBad, wins := t.wins, quay := { s.quay with msix := t.quay.msix }, kerb := { s.kerb with reports := t.kerb.reports, resp := t.kerb.resp, logQ := t.kerb.logQ }, fer := { s.fer with log := t.fer.log, logNext := t.fer.logNext }, bak := { s.bak with blog := t.bak.blog }, fnt := { s.fnt with state := t.fnt.state, absorbed := t.fnt.absorbed, credit := t.fnt.credit, seed := t.fnt.seed, int := t.fnt.int, sw := t.fnt.sw, katBusy := t.fnt.katBusy, part := t.fnt.part, rngDead := t.fnt.rngDead } } ∧ OtherRegs s t [] [Reg.PAGE_STAT, Reg.INT_STAT, Reg.FAULT_CNT] []) ∧
  (∀ (s : State) (e : LogEnt) (rest : List LogEnt) (fails : Nat), s.mainOn = true → pageOn s 0x46 = true → s.kerb.logQ = e :: rest → 3 ≤ fails → 
    Answers (.logEntryWrite fails) s fun t => t.kerb.logQ = rest ∧ t.fer = s.fer ∧ t.bak.blog.length = (if s.bak.blog.length < 64 then s.bak.blog.length + 1 else s.bak.blog.length) ∧ rbit t (rk 0x46 Reg.INT_STAT) 1 = true ∧ t = { s with out := t.out, regs := t.regs, parBad := t.parBad, wins := t.wins, quay := { s.quay with msix := t.quay.msix }, kerb := { s.kerb with reports := t.kerb.reports, resp := t.kerb.resp, logQ := t.kerb.logQ }, fer := { s.fer with log := t.fer.log, logNext := t.fer.logNext }, bak := { s.bak with blog := t.bak.blog }, fnt := { s.fnt with state := t.fnt.state, absorbed := t.fnt.absorbed, credit := t.fnt.credit, seed := t.fnt.seed, int := t.fnt.int, sw := t.fnt.sw, katBusy := t.fnt.katBusy, part := t.fnt.part, rngDead := t.fnt.rngDead } } ∧ OtherRegs s t [] [Reg.PAGE_STAT, Reg.INT_STAT, Reg.FAULT_CNT] []) ∧
  (∀ (s : State) (fails : Nat), s.mainOn = false ∨ s.kerb.logQ = [] → 
    Answers (.logEntryWrite fails) s fun t => t = s) ∧
  (∀ (s : State) (src : Src), Reaches s src Reg.KERB_BLOG_CLR → 
    Answers (.kerbBlogClr src) s fun t => t.bak = { s.bak with blog := s.bak.blog.filter fun e => !e.applied } ∧ t = { s with out := t.out, regs := t.regs, parBad := t.parBad, quay := { s.quay with msix := t.quay.msix }, bak := { s.bak with blog := t.bak.blog } } ∧ OtherRegs s t [] [Reg.INT_STAT, Reg.ERR_SYND, Reg.ERR_ADDR] []) ∧
  (∀ (s : State) (src : Src), Reaches s src Reg.KERB_LOG_DATA → 
    Answers (.kerbLogData0Read src) s fun t => t.out = .readData src (toLe 4 (leAt (selectedLog s) 0 4)) :: s.out ∧ (∀ i : Fin 8, reg t (Reg.KERB_LOG_DATA + 4 * i.val) = BitVec.ofNat 32 (leAt (selectedLog s) (4 * i.val) 4)) ∧ t = { s with out := t.out, regs := t.regs, parBad := t.parBad, quay := { s.quay with msix := t.quay.msix } } ∧ OtherRegs s t [] [Reg.INT_STAT, Reg.ERR_SYND, Reg.ERR_ADDR] [0x46]) ∧
  (∀ (s : State) (src : Src), Reaches s src Reg.KERB_BLOG_DATA → 
    Answers (.kerbBlogData0Read src) s fun t => t.out = .readData src (toLe 4 (leAt (selectedBlog s) 0 4)) :: s.out ∧ (∀ i : Fin 4, reg t (Reg.KERB_BLOG_DATA + 4 * i.val) = BitVec.ofNat 32 (leAt (selectedBlog s) (4 * i.val) 4)) ∧ t = { s with out := t.out, regs := t.regs, parBad := t.parBad, quay := { s.quay with msix := t.quay.msix } } ∧ OtherRegs s t [] [Reg.INT_STAT, Reg.ERR_SYND, Reg.ERR_ADDR] [0x46]) ∧
  (∀ (s : State) (src : Src), Reaches s src Reg.KERB_BTIME_LO → 
    Answers (.kerbBtimeLoRead src) s fun t => t.out = .readData src (toLe 4 (readBtime s).1) :: s.out ∧ reg t (Reg.KERB_BTIME_LO + 4) = BitVec.ofNat 32 (leAt (toLe 8 (readBtime s).1) 4 4) ∧ t = { s with out := t.out, free := t.free, regs := t.regs, parBad := t.parBad, quay := { s.quay with msix := t.quay.msix }, bak := { s.bak with btime := t.bak.btime } } ∧ OtherRegs s t [] [Reg.INT_STAT, Reg.ERR_SYND, Reg.ERR_ADDR] [0x44])

/-- VBAT first applied starts BTIME at 0; a failure of main power keeps FeRAM, with a cell also what PD_BACKUP holds and the copies of the armed sources, and loses what the Hub held; an alarm of an armed source, a brownout, or a stopped KOSC erases the customer secret and both roots and is recorded in the backup log; the mesh pattern alone changes by its change; main power returning applies every open backup entry. Each of these events at another time changes nothing. Each clause names what may change beside; every other part of the state and every other register is as before. Forms whose completion it states: vbatApplied, mainPowerFail, backupAlarm, brownout, koscStop, meshPatternChange, kerbPowerUp. (R418, R430, R431, R432, R434, R435, R436) -/
def Obligations.BackupOperation : Prop :=
  (∀ (s : State), s.bak.vbat = false → 
    Answers (.vbatApplied) s fun t => t.bak = { s.bak with vbat := true, btime := 0 } ∧ t = { s with bak := { s.bak with vbat := t.bak.vbat, btime := t.bak.btime } }) ∧
  (∀ (s : State), s.mainOn = true → 
    Answers (.mainPowerFail) s fun t => t.mainOn = false ∧ t.fer = s.fer ∧ t.cores = [] ∧ t.quay = {} ∧ t.mews = {} ∧ t.regs = [] ∧ (∀ a, memByte t a = if 0x05000000 ≤ a then memByte s a else 0) ∧ (s.bak.vbat = false → t.bak = {}) ∧ (s.bak.vbat = true → t.bak.cust = s.bak.cust ∧ t.bak.fleetRoot = s.bak.fleetRoot ∧ t.bak.pairRoot = s.bak.pairRoot ∧ t.bak.arm = (List.range 13).filter (kArmed s))) ∧
  (∀ (s : State) (n : SrcNo), backupOnly s = true → s.bak.arm.contains n.val = true → 
    Answers (.backupAlarm n) s fun t => t.bak.cust = none ∧ t.bak.fleetRoot = none ∧ t.bak.pairRoot = none ∧ (s.bak.blog.length < 64 → t.bak.blog.length = s.bak.blog.length + 1 ∧ (t.bak.blog.getLast?.map fun e => (e.source, e.erased, e.applied)) = some (n.val, true, false)) ∧ t = { s with out := t.out, free := t.free, regs := t.regs, parBad := t.parBad, wins := t.wins, quay := { s.quay with queues := t.quay.queues, doms := t.quay.doms, domRR := t.quay.domRR, ctxs := t.quay.ctxs, nextAcc := t.quay.nextAcc, msix := t.quay.msix }, units := { s.units with cipher := t.units.cipher, hash := t.units.hash, arc := t.units.arc }, mews := { s.mews with slots := t.mews.slots, assign := t.mews.assign, cascades := t.mews.cascades, heldOps := t.mews.heldOps, ctrs := t.mews.ctrs, dukpt := t.mews.dukpt }, life := { s.life with op := t.life.op }, kerb := { s.kerb with reports := t.kerb.reports }, fer := { s.fer with fleetRole := t.fer.fleetRole, wards := t.fer.wards, voucher := t.fer.voucher, lastSeq := t.fer.lastSeq }, bak := { s.bak with cust := t.bak.cust, pairRoot := t.bak.pairRoot, fleetRoot := t.bak.fleetRoot, btime := t.bak.btime, blog := t.bak.blog }, fnt := { s.fnt with state := t.fnt.state, absorbed := t.fnt.absorbed, credit := t.fnt.credit, seed := t.fnt.seed, int := t.fnt.int, sw := t.fnt.sw, katBusy := t.fnt.katBusy, draws := t.fnt.draws, part := t.fnt.part, got := t.fnt.got, rng := t.fnt.rng, rngDone := t.fnt.rngDone, rngDead := t.fnt.rngDead }, curves := t.curves, xing := { s.xing with state := t.xing.state, seqr := t.xing.seqr, mirror := t.xing.mirror, link := t.xing.link, sess := t.xing.sess, upWait := t.xing.upWait, joinErr := t.xing.joinErr, deciding := t.xing.deciding, failing := t.xing.failing }, fleet := { s.fleet with held := t.fleet.held }, chk := { s.chk with slotBad := t.chk.slotBad } } ∧ OtherRegs s t [Reg.QUAY_QCMD, Reg.QUAY_RPL_HITS, Reg.RBT_LATE, Reg.MEWS_ASSIGN_CMD, Reg.MEWS_ASSIGN_SKIP, Reg.MEWS_REVOKES, Reg.COMP_AUTH_FAIL, Reg.COMP_DONE, Reg.FLEET_CMD] [Reg.PAGE_STAT, Reg.INT_STAT, Reg.ERR_SYND, Reg.ERR_ADDR, Reg.FAULT_CNT, Reg.QUAY_LINK_STAT, Reg.QUAY_LINK_CTRL, Reg.QUAY_GRP_ROUTE, Reg.QUAY_DMA_OUTST, Reg.ARC_LAST] []) ∧
  (∀ (s : State), backupOnly s = true → 
    Answers (.brownout) s fun t => t.bak.cust = none ∧ t.bak.fleetRoot = none ∧ t.bak.pairRoot = none ∧ (s.bak.blog.length < 64 → t.bak.blog.length = s.bak.blog.length + 1 ∧ (t.bak.blog.getLast?.map fun e => (e.source, e.erased, e.applied)) = some (4, true, false)) ∧ t = { s with out := t.out, free := t.free, regs := t.regs, parBad := t.parBad, wins := t.wins, quay := { s.quay with queues := t.quay.queues, doms := t.quay.doms, domRR := t.quay.domRR, ctxs := t.quay.ctxs, nextAcc := t.quay.nextAcc, msix := t.quay.msix }, units := { s.units with cipher := t.units.cipher, hash := t.units.hash, arc := t.units.arc }, mews := { s.mews with slots := t.mews.slots, assign := t.mews.assign, cascades := t.mews.cascades, heldOps := t.mews.heldOps, ctrs := t.mews.ctrs, dukpt := t.mews.dukpt }, life := { s.life with op := t.life.op }, kerb := { s.kerb with reports := t.kerb.reports }, fer := { s.fer with fleetRole := t.fer.fleetRole, wards := t.fer.wards, voucher := t.fer.voucher, lastSeq := t.fer.lastSeq }, bak := { s.bak with cust := t.bak.cust, pairRoot := t.bak.pairRoot, fleetRoot := t.bak.fleetRoot, btime := t.bak.btime, blog := t.bak.blog }, fnt := { s.fnt with state := t.fnt.state, absorbed := t.fnt.absorbed, credit := t.fnt.credit, seed := t.fnt.seed, int := t.fnt.int, sw := t.fnt.sw, katBusy := t.fnt.katBusy, draws := t.fnt.draws, part := t.fnt.part, got := t.fnt.got, rng := t.fnt.rng, rngDone := t.fnt.rngDone, rngDead := t.fnt.rngDead }, curves := t.curves, xing := { s.xing with state := t.xing.state, seqr := t.xing.seqr, mirror := t.xing.mirror, link := t.xing.link, sess := t.xing.sess, upWait := t.xing.upWait, joinErr := t.xing.joinErr, deciding := t.xing.deciding, failing := t.xing.failing }, fleet := { s.fleet with held := t.fleet.held }, chk := { s.chk with slotBad := t.chk.slotBad } } ∧ OtherRegs s t [Reg.QUAY_QCMD, Reg.QUAY_RPL_HITS, Reg.RBT_LATE, Reg.MEWS_ASSIGN_CMD, Reg.MEWS_ASSIGN_SKIP, Reg.MEWS_REVOKES, Reg.COMP_AUTH_FAIL, Reg.COMP_DONE, Reg.FLEET_CMD] [Reg.PAGE_STAT, Reg.INT_STAT, Reg.ERR_SYND, Reg.ERR_ADDR, Reg.FAULT_CNT, Reg.QUAY_LINK_STAT, Reg.QUAY_LINK_CTRL, Reg.QUAY_GRP_ROUTE, Reg.QUAY_DMA_OUTST, Reg.ARC_LAST] []) ∧
  (∀ (s : State), s.mainOn = true → 
    Answers (.koscStop) s fun t => t.bak.cust = none ∧ t.bak.fleetRoot = none ∧ t.bak.pairRoot = none ∧ (s.bak.blog.length < 64 → t.bak.blog.length = s.bak.blog.length + 1 ∧ (t.bak.blog.getLast?.map fun e => (e.source, e.erased, e.applied)) = some (5, true, false)) ∧ t = { s with out := t.out, free := t.free, regs := t.regs, parBad := t.parBad, wins := t.wins, quay := { s.quay with queues := t.quay.queues, doms := t.quay.doms, domRR := t.quay.domRR, ctxs := t.quay.ctxs, nextAcc := t.quay.nextAcc, msix := t.quay.msix }, units := { s.units with cipher := t.units.cipher, hash := t.units.hash, arc := t.units.arc }, mews := { s.mews with slots := t.mews.slots, assign := t.mews.assign, cascades := t.mews.cascades, heldOps := t.mews.heldOps, ctrs := t.mews.ctrs, dukpt := t.mews.dukpt }, life := { s.life with op := t.life.op }, kerb := { s.kerb with reports := t.kerb.reports }, fer := { s.fer with fleetRole := t.fer.fleetRole, wards := t.fer.wards, voucher := t.fer.voucher, lastSeq := t.fer.lastSeq }, bak := { s.bak with cust := t.bak.cust, pairRoot := t.bak.pairRoot, fleetRoot := t.bak.fleetRoot, btime := t.bak.btime, blog := t.bak.blog }, fnt := { s.fnt with state := t.fnt.state, absorbed := t.fnt.absorbed, credit := t.fnt.credit, seed := t.fnt.seed, int := t.fnt.int, sw := t.fnt.sw, katBusy := t.fnt.katBusy, draws := t.fnt.draws, part := t.fnt.part, got := t.fnt.got, rng := t.fnt.rng, rngDone := t.fnt.rngDone, rngDead := t.fnt.rngDead }, curves := t.curves, xing := { s.xing with state := t.xing.state, seqr := t.xing.seqr, mirror := t.xing.mirror, link := t.xing.link, sess := t.xing.sess, upWait := t.xing.upWait, joinErr := t.xing.joinErr, deciding := t.xing.deciding, failing := t.xing.failing }, fleet := { s.fleet with held := t.fleet.held }, chk := { s.chk with slotBad := t.chk.slotBad } } ∧ OtherRegs s t [Reg.QUAY_QCMD, Reg.QUAY_RPL_HITS, Reg.RBT_LATE, Reg.MEWS_ASSIGN_CMD, Reg.MEWS_ASSIGN_SKIP, Reg.MEWS_REVOKES, Reg.COMP_AUTH_FAIL, Reg.COMP_DONE, Reg.FLEET_CMD] [Reg.PAGE_STAT, Reg.INT_STAT, Reg.ERR_SYND, Reg.ERR_ADDR, Reg.FAULT_CNT, Reg.QUAY_LINK_STAT, Reg.QUAY_LINK_CTRL, Reg.QUAY_GRP_ROUTE, Reg.QUAY_DMA_OUTST, Reg.ARC_LAST] []) ∧
  (∀ (s : State), s.mainOn = true ∨ s.bak.vbat = true → 
    Answers (.meshPatternChange) s fun t => t.kerb = { s.kerb with mesh := t.kerb.mesh } ∧ t.kerb.mesh < 2 ^ 16 ∧ t.regs = s.regs ∧ t = { s with free := t.free, kerb := { s.kerb with mesh := t.kerb.mesh } }) ∧
  (∀ (s : State), s.mainOn = false → 
    Answers (.kerbPowerUp) s fun t => t.mainOn = true ∧ t.rstHigh = false ∧ unapplied t = [] ∧ t = { s with out := t.out, free := t.free, regs := t.regs, parBad := t.parBad, quay := { s.quay with msix := t.quay.msix }, kerb := { s.kerb with lockdown := t.kerb.lockdown, erase := t.kerb.erase, sev := t.kerb.sev, ksev := t.kerb.ksev, deferred := t.kerb.deferred, logQ := t.kerb.logQ }, bak := { s.bak with btime := t.bak.btime, blog := t.bak.blog }, kiosk := { s.kiosk with pend := t.kiosk.pend, rd := t.kiosk.rd, carrier := t.kiosk.carrier, calib := t.kiosk.calib, tag := t.kiosk.tag, tagRate := t.kiosk.tagRate, harv := t.kiosk.harv, latched := t.kiosk.latched, app := t.kiosk.app, file := t.kiosk.file, wtx := t.kiosk.wtx, muted := t.kiosk.muted, plc := t.kiosk.plc, fieldPowered := t.kiosk.fieldPowered }, mainOn := t.mainOn, rstHigh := t.rstHigh } ∧ OtherRegs s t [Reg.KERB_LAST_SRC, Reg.KERB_LAST_ACT, Reg.KERB_LOG_DROP, Reg.KIOSK_STAT, Reg.KIOSK_HARV_STAT] [Reg.INT_STAT] []) ∧
  (∀ (s : State), s.bak.vbat = true → 
    Answers (.vbatApplied) s fun t => t = s) ∧
  (∀ (s : State), s.mainOn = false → 
    Answers (.mainPowerFail) s fun t => t = s) ∧
  (∀ (s : State) (n : SrcNo), backupOnly s = false ∨ s.bak.arm.contains n.val = false → 
    Answers (.backupAlarm n) s fun t => t = s) ∧
  (∀ (s : State), backupOnly s = false → 
    Answers (.brownout) s fun t => t = s) ∧
  (∀ (s : State), s.mainOn = false → 
    Answers (.koscStop) s fun t => t = s) ∧
  (∀ (s : State), s.mainOn = false ∧ s.bak.vbat = false → 
    Answers (.meshPatternChange) s fun t => t = s) ∧
  (∀ (s : State), s.mainOn = true → 
    Answers (.kerbPowerUp) s fun t => t = s)

/-- Where it may run, PREPARE takes an idle Arcade unit and asks for its draw, waits where the unit is busy, and ends with RESULT 4 where there is none; with its draw at hand it keeps a new private key and shows the public one. COMMIT checks the statement's place for this device, takes its unit in the same way, checks the signature, and then waits for the peer, whose presentation stores the pairing root and the records; what waited goes on when a generate request has brought its draw; after 10 s without a peer it ends with PEER. LEAVE on a SOLO, ISOLATED or UNPAIRED device, LEAVE on a PAIRED device as a cut with the partner alive, TAKEOVER and UNPAIR move the state as the rules say. A command while one runs is recorded and has no other effect. Each clause names what may change beside; every other part of the state and every other register is as before. Forms whose completion it states: prepare, commit, drbgGenerate, frameReceive, commitPeerTimeout, leave, takeover, unpair. (R276, R294, R448, R449, R450, R457, R458, R459, R467, R468) -/
def Obligations.PairingCommands : Prop :=
  (∀ (s : State) (src : Src) (n : Nat) (b : Bytes), Reaches s src Reg.XING_CMD → xingBusy s = false → twinState s = true → UnitReady s whoXing n b → 
    Answers (.prepare src) s fun t => t.xing = { s.xing with eph := some (newP256 b).1 } ∧ (∀ i : Fin 16, reg t (Reg.XING_EPUB + 4 * i.val) = BitVec.ofNat 32 (leAt (newP256 b).2 (4 * i.val) 4)) ∧ (aunit t n).internal = none ∧ fld t Reg.XING_CMD 7 4 = 0 ∧ t = { s with out := t.out, regs := t.regs, parBad := t.parBad, quay := { s.quay with msix := t.quay.msix }, units := { s.units with arc := t.units.arc }, fnt := { s.fnt with draws := t.fnt.draws, part := t.fnt.part, got := t.fnt.got, rng := t.fnt.rng, rngDone := t.fnt.rngDone, rngDead := t.fnt.rngDead }, xing := { s.xing with held := t.xing.held, stmt := t.xing.stmt, eph := t.xing.eph } } ∧ OtherRegs s t [Reg.XING_CMD] [Reg.INT_STAT, Reg.ERR_SYND, Reg.ERR_ADDR] [0x48, 0x49, 0x4A, 0x4B, 0x4C, 0x4D, 0x4E, 0x4F]) ∧
  (∀ (s : State) (src : Src), Reaches s src Reg.XING_CMD → xingBusy s = false → twinState s = false → 
    Answers (.prepare src) s fun t => t.xing = s.xing ∧ fld t Reg.XING_CMD 7 4 = 1 ∧ t = { s with out := t.out, regs := t.regs, parBad := t.parBad, quay := { s.quay with msix := t.quay.msix }, units := { s.units with arc := t.units.arc }, fnt := { s.fnt with draws := t.fnt.draws, part := t.fnt.part, got := t.fnt.got, rng := t.fnt.rng, rngDone := t.fnt.rngDone, rngDead := t.fnt.rngDead }, xing := { s.xing with held := t.xing.held, stmt := t.xing.stmt, eph := t.xing.eph } } ∧ OtherRegs s t [Reg.XING_CMD] [Reg.INT_STAT, Reg.ERR_SYND, Reg.ERR_ADDR] [0x48, 0x49, 0x4A, 0x4B, 0x4C, 0x4D, 0x4E, 0x4F]) ∧
  (∀ (s : State) (src : Src) (n : Nat), Reaches s src Reg.XING_CMD → xingBusy s = false → twinState s = true → UnitFree s whoXing n → 
    Answers (.prepare src) s fun t => t.xing = { s.xing with held := some .prepare } ∧ (aunit t n).internal = some whoXing ∧ t.fnt.draws = s.fnt.draws ++ [(9 + n, whoXing)] ∧ t = { s with out := t.out, regs := t.regs, parBad := t.parBad, quay := { s.quay with msix := t.quay.msix }, units := { s.units with arc := t.units.arc }, fnt := { s.fnt with draws := t.fnt.draws, part := t.fnt.part, got := t.fnt.got, rng := t.fnt.rng, rngDone := t.fnt.rngDone, rngDead := t.fnt.rngDead }, xing := { s.xing with held := t.xing.held, stmt := t.xing.stmt, eph := t.xing.eph } } ∧ OtherRegs s t [Reg.XING_CMD] [Reg.INT_STAT, Reg.ERR_SYND, Reg.ERR_ADDR] [0x48, 0x49, 0x4A, 0x4B, 0x4C, 0x4D, 0x4E, 0x4F]) ∧
  (∀ (s : State) (src : Src) (n : Nat), Reaches s src Reg.XING_CMD → xingBusy s = false → twinState s = true → UnitBusy s whoXing n → 
    Answers (.prepare src) s fun t => t.xing = { s.xing with held := some .prepare } ∧ t.units = s.units ∧ t.fnt = s.fnt ∧ t = { s with out := t.out, regs := t.regs, parBad := t.parBad, quay := { s.quay with msix := t.quay.msix }, units := { s.units with arc := t.units.arc }, fnt := { s.fnt with draws := t.fnt.draws, part := t.fnt.part, got := t.fnt.got, rng := t.fnt.rng, rngDone := t.fnt.rngDone, rngDead := t.fnt.rngDead }, xing := { s.xing with held := t.xing.held, stmt := t.xing.stmt, eph := t.xing.eph } } ∧ OtherRegs s t [Reg.XING_CMD] [Reg.INT_STAT, Reg.ERR_SYND, Reg.ERR_ADDR] [0x48, 0x49, 0x4A, 0x4B, 0x4C, 0x4D, 0x4E, 0x4F]) ∧
  (∀ (s : State) (src : Src), Reaches s src Reg.XING_CMD → xingBusy s = false → twinState s = true → UnitNone s whoXing → 
    Answers (.prepare src) s fun t => fld t Reg.XING_CMD 7 4 = 4 ∧ t.xing = s.xing ∧ t = { s with out := t.out, regs := t.regs, parBad := t.parBad, quay := { s.quay with msix := t.quay.msix }, units := { s.units with arc := t.units.arc }, fnt := { s.fnt with draws := t.fnt.draws, part := t.fnt.part, got := t.fnt.got, rng := t.fnt.rng, rngDone := t.fnt.rngDone, rngDead := t.fnt.rngDead }, xing := { s.xing with held := t.xing.held, stmt := t.xing.stmt, eph := t.xing.eph } } ∧ OtherRegs s t [Reg.XING_CMD] [Reg.INT_STAT, Reg.ERR_SYND, Reg.ERR_ADDR] [0x48, 0x49, 0x4A, 0x4B, 0x4C, 0x4D, 0x4E, 0x4F]) ∧
  (∀ (s : State) (src : Src) (fails : Nat) (peer : Option PeerHello), Reaches s src Reg.XING_CMD → xingBusy s = false → twinState s = false → 
    Answers (.commit src peer fails) s fun t => fld t Reg.XING_CMD 7 4 = 1 ∧ t.xing.eph = none ∧ t.xing.stmt = none ∧ t.xing.held = none ∧ t.bak = s.bak ∧ t.fer = s.fer ∧ (∀ i : Fin 60, reg t (Reg.XING_AUTH + 4 * i.val) = 0) ∧ t = { s with out := t.out, regs := t.regs, parBad := t.parBad, wins := t.wins, quay := { s.quay with msix := t.quay.msix }, units := { s.units with arc := t.units.arc }, kerb := { s.kerb with reports := t.kerb.reports }, fer := { s.fer with pairB := t.fer.pairB, peerSerial := t.fer.peerSerial, pairId := t.fer.pairId, pairCnt := t.fer.pairCnt }, bak := { s.bak with pairRoot := t.bak.pairRoot }, fnt := { s.fnt with state := t.fnt.state, absorbed := t.fnt.absorbed, credit := t.fnt.credit, seed := t.fnt.seed, int := t.fnt.int, sw := t.fnt.sw, katBusy := t.fnt.katBusy, draws := t.fnt.draws, part := t.fnt.part, got := t.fnt.got, rng := t.fnt.rng, rngDone := t.fnt.rngDone, rngDead := t.fnt.rngDead }, xing := { s.xing with state := t.xing.state, held := t.xing.held, stmt := t.xing.stmt, eph := t.xing.eph } } ∧ OtherRegs s t [Reg.XING_CMD] [Reg.PAGE_STAT, Reg.INT_STAT, Reg.ERR_SYND, Reg.ERR_ADDR, Reg.FAULT_CNT] [0x48, 0x49, 0x4A, 0x4B, 0x4C, 0x4D, 0x4E, 0x4F]) ∧
  (∀ (s : State) (src : Src) (fails : Nat) (peer : Option PeerHello) (a : Bytes) (b : Bool), Reaches s src Reg.XING_CMD → xingBusy s = false → twinState s = true → a = (bufGet s Reg.XING_AUTH 0 240) → b = decide (be (sl a 0 8) ≠ ownSerial) → ¬ ((be (sl a 0 8) = ownSerial ∨ be (sl a 8 8) = ownSerial) ∧ be (sl a (if b then 0x14 else 0x10) 4) = s.fer.pairCnt ∧ s.xing.eph.isSome = true ∧ sl a (if b then 0x60 else 0x20) 64 = bufGet s Reg.XING_EPUB 0 64) → 
    Answers (.commit src peer fails) s fun t => fld t Reg.XING_CMD 7 4 = 3 ∧ t.xing.eph = none ∧ t.xing.stmt = none ∧ t.xing.held = none ∧ t.bak = s.bak ∧ t.fer = s.fer ∧ (∀ i : Fin 60, reg t (Reg.XING_AUTH + 4 * i.val) = 0) ∧ t = { s with out := t.out, regs := t.regs, parBad := t.parBad, wins := t.wins, quay := { s.quay with msix := t.quay.msix }, units := { s.units with arc := t.units.arc }, kerb := { s.kerb with reports := t.kerb.reports }, fer := { s.fer with pairB := t.fer.pairB, peerSerial := t.fer.peerSerial, pairId := t.fer.pairId, pairCnt := t.fer.pairCnt }, bak := { s.bak with pairRoot := t.bak.pairRoot }, fnt := { s.fnt with state := t.fnt.state, absorbed := t.fnt.absorbed, credit := t.fnt.credit, seed := t.fnt.seed, int := t.fnt.int, sw := t.fnt.sw, katBusy := t.fnt.katBusy, draws := t.fnt.draws, part := t.fnt.part, got := t.fnt.got, rng := t.fnt.rng, rngDone := t.fnt.rngDone, rngDead := t.fnt.rngDead }, xing := { s.xing with state := t.xing.state, held := t.xing.held, stmt := t.xing.stmt, eph := t.xing.eph } } ∧ OtherRegs s t [Reg.XING_CMD] [Reg.PAGE_STAT, Reg.INT_STAT, Reg.ERR_SYND, Reg.ERR_ADDR, Reg.FAULT_CNT] [0x48, 0x49, 0x4A, 0x4B, 0x4C, 0x4D, 0x4E, 0x4F]) ∧
  (∀ (s : State) (src : Src) (fails : Nat) (peer : Option PeerHello) (a : Bytes) (b : Bool) (n : Nat), Reaches s src Reg.XING_CMD → xingBusy s = false → twinState s = true → a = (bufGet s Reg.XING_AUTH 0 240) → b = decide (be (sl a 0 8) ≠ ownSerial) → (be (sl a 0 8) = ownSerial ∨ be (sl a 8 8) = ownSerial) → be (sl a (if b then 0x14 else 0x10) 4) = s.fer.pairCnt ∧ s.xing.eph.isSome = true ∧ sl a (if b then 0x60 else 0x20) 64 = bufGet s Reg.XING_EPUB 0 64 → UnitFree s whoXing n → 
    Answers (.commit src peer fails) s fun t => t.xing = { s.xing with held := some (.commit peer fails) } ∧ (aunit t n).internal = some whoXing ∧ t.fnt.draws = s.fnt.draws ++ [(9 + n, whoXing)] ∧ t = { s with out := t.out, regs := t.regs, parBad := t.parBad, wins := t.wins, quay := { s.quay with msix := t.quay.msix }, units := { s.units with arc := t.units.arc }, kerb := { s.kerb with reports := t.kerb.reports }, fer := { s.fer with pairB := t.fer.pairB, peerSerial := t.fer.peerSerial, pairId := t.fer.pairId, pairCnt := t.fer.pairCnt }, bak := { s.bak with pairRoot := t.bak.pairRoot }, fnt := { s.fnt with state := t.fnt.state, absorbed := t.fnt.absorbed, credit := t.fnt.credit, seed := t.fnt.seed, int := t.fnt.int, sw := t.fnt.sw, katBusy := t.fnt.katBusy, draws := t.fnt.draws, part := t.fnt.part, got := t.fnt.got, rng := t.fnt.rng, rngDone := t.fnt.rngDone, rngDead := t.fnt.rngDead }, xing := { s.xing with state := t.xing.state, held := t.xing.held, stmt := t.xing.stmt, eph := t.xing.eph } } ∧ OtherRegs s t [Reg.XING_CMD] [Reg.PAGE_STAT, Reg.INT_STAT, Reg.ERR_SYND, Reg.ERR_ADDR, Reg.FAULT_CNT] [0x48, 0x49, 0x4A, 0x4B, 0x4C, 0x4D, 0x4E, 0x4F]) ∧
  (∀ (s : State) (src : Src) (fails : Nat) (peer : Option PeerHello) (a : Bytes) (b : Bool) (n : Nat), Reaches s src Reg.XING_CMD → xingBusy s = false → twinState s = true → a = (bufGet s Reg.XING_AUTH 0 240) → b = decide (be (sl a 0 8) ≠ ownSerial) → (be (sl a 0 8) = ownSerial ∨ be (sl a 8 8) = ownSerial) → be (sl a (if b then 0x14 else 0x10) 4) = s.fer.pairCnt ∧ s.xing.eph.isSome = true ∧ sl a (if b then 0x60 else 0x20) 64 = bufGet s Reg.XING_EPUB 0 64 → UnitBusy s whoXing n → 
    Answers (.commit src peer fails) s fun t => t.xing = { s.xing with held := some (.commit peer fails) } ∧ t.units = s.units ∧ t.fnt = s.fnt ∧ t = { s with out := t.out, regs := t.regs, parBad := t.parBad, wins := t.wins, quay := { s.quay with msix := t.quay.msix }, units := { s.units with arc := t.units.arc }, kerb := { s.kerb with reports := t.kerb.reports }, fer := { s.fer with pairB := t.fer.pairB, peerSerial := t.fer.peerSerial, pairId := t.fer.pairId, pairCnt := t.fer.pairCnt }, bak := { s.bak with pairRoot := t.bak.pairRoot }, fnt := { s.fnt with state := t.fnt.state, absorbed := t.fnt.absorbed, credit := t.fnt.credit, seed := t.fnt.seed, int := t.fnt.int, sw := t.fnt.sw, katBusy := t.fnt.katBusy, draws := t.fnt.draws, part := t.fnt.part, got := t.fnt.got, rng := t.fnt.rng, rngDone := t.fnt.rngDone, rngDead := t.fnt.rngDead }, xing := { s.xing with state := t.xing.state, held := t.xing.held, stmt := t.xing.stmt, eph := t.xing.eph } } ∧ OtherRegs s t [Reg.XING_CMD] [Reg.PAGE_STAT, Reg.INT_STAT, Reg.ERR_SYND, Reg.ERR_ADDR, Reg.FAULT_CNT] [0x48, 0x49, 0x4A, 0x4B, 0x4C, 0x4D, 0x4E, 0x4F]) ∧
  (∀ (s : State) (src : Src) (fails : Nat) (peer : Option PeerHello) (a : Bytes) (b : Bool), Reaches s src Reg.XING_CMD → xingBusy s = false → twinState s = true → a = (bufGet s Reg.XING_AUTH 0 240) → b = decide (be (sl a 0 8) ≠ ownSerial) → (be (sl a 0 8) = ownSerial ∨ be (sl a 8 8) = ownSerial) → be (sl a (if b then 0x14 else 0x10) 4) = s.fer.pairCnt ∧ s.xing.eph.isSome = true ∧ sl a (if b then 0x60 else 0x20) 64 = bufGet s Reg.XING_EPUB 0 64 → UnitNone s whoXing → 
    Answers (.commit src peer fails) s fun t => fld t Reg.XING_CMD 7 4 = 4 ∧ t.xing.eph = none ∧ t.xing.stmt = none ∧ t.xing.held = none ∧ t.bak = s.bak ∧ t.fer = s.fer ∧ (∀ i : Fin 60, reg t (Reg.XING_AUTH + 4 * i.val) = 0) ∧ t = { s with out := t.out, regs := t.regs, parBad := t.parBad, wins := t.wins, quay := { s.quay with msix := t.quay.msix }, units := { s.units with arc := t.units.arc }, kerb := { s.kerb with reports := t.kerb.reports }, fer := { s.fer with pairB := t.fer.pairB, peerSerial := t.fer.peerSerial, pairId := t.fer.pairId, pairCnt := t.fer.pairCnt }, bak := { s.bak with pairRoot := t.bak.pairRoot }, fnt := { s.fnt with state := t.fnt.state, absorbed := t.fnt.absorbed, credit := t.fnt.credit, seed := t.fnt.seed, int := t.fnt.int, sw := t.fnt.sw, katBusy := t.fnt.katBusy, draws := t.fnt.draws, part := t.fnt.part, got := t.fnt.got, rng := t.fnt.rng, rngDone := t.fnt.rngDone, rngDead := t.fnt.rngDead }, xing := { s.xing with state := t.xing.state, held := t.xing.held, stmt := t.xing.stmt, eph := t.xing.eph } } ∧ OtherRegs s t [Reg.XING_CMD] [Reg.PAGE_STAT, Reg.INT_STAT, Reg.ERR_SYND, Reg.ERR_ADDR, Reg.FAULT_CNT] [0x48, 0x49, 0x4A, 0x4B, 0x4C, 0x4D, 0x4E, 0x4F]) ∧
  (∀ (s : State) (src : Src) (fails : Nat) (a : Bytes) (b : Bool) (n : Nat) (d : Bytes), Reaches s src Reg.XING_CMD → xingBusy s = false → twinState s = true → a = (bufGet s Reg.XING_AUTH 0 240) → b = decide (be (sl a 0 8) ≠ ownSerial) → (be (sl a 0 8) = ownSerial ∨ be (sl a 8 8) = ownSerial) → be (sl a (if b then 0x14 else 0x10) 4) = s.fer.pairCnt ∧ s.xing.eph.isSome = true ∧ sl a (if b then 0x60 else 0x20) 64 = bufGet s Reg.XING_EPUB 0 64 → UnitReady s whoXing n d → 
    Answers (.commit src none fails) s fun t => (if p256Signed s.fer.integrator (a.take 176) (sl a 176 64) = true then t.xing = { s.xing with stmt := some (a, b, fails) } ∧ t.bak = s.bak ∧ t.fer = s.fer else fld t Reg.XING_CMD 7 4 = 2 ∧ t.xing.eph = none ∧ t.xing.stmt = none ∧ t.xing.held = none ∧ t.bak = s.bak ∧ t.fer = s.fer ∧ (∀ i : Fin 60, reg t (Reg.XING_AUTH + 4 * i.val) = 0)) ∧ (aunit t n).internal = none ∧ t = { s with out := t.out, regs := t.regs, parBad := t.parBad, wins := t.wins, quay := { s.quay with msix := t.quay.msix }, units := { s.units with arc := t.units.arc }, kerb := { s.kerb with reports := t.kerb.reports }, fer := { s.fer with pairB := t.fer.pairB, peerSerial := t.fer.peerSerial, pairId := t.fer.pairId, pairCnt := t.fer.pairCnt }, bak := { s.bak with pairRoot := t.bak.pairRoot }, fnt := { s.fnt with state := t.fnt.state, absorbed := t.fnt.absorbed, credit := t.fnt.credit, seed := t.fnt.seed, int := t.fnt.int, sw := t.fnt.sw, katBusy := t.fnt.katBusy, draws := t.fnt.draws, part := t.fnt.part, got := t.fnt.got, rng := t.fnt.rng, rngDone := t.fnt.rngDone, rngDead := t.fnt.rngDead }, xing := { s.xing with state := t.xing.state, held := t.xing.held, stmt := t.xing.stmt, eph := t.xing.eph } } ∧ OtherRegs s t [Reg.XING_CMD] [Reg.PAGE_STAT, Reg.INT_STAT, Reg.ERR_SYND, Reg.ERR_ADDR, Reg.FAULT_CNT] [0x48, 0x49, 0x4A, 0x4B, 0x4C, 0x4D, 0x4E, 0x4F]) ∧
  (∀ (s : State) (src : Src) (fails : Nat) (p : PeerHello) (a : Bytes) (b : Bool) (n : Nat) (d : Bytes), Reaches s src Reg.XING_CMD → xingBusy s = false → twinState s = true → a = (bufGet s Reg.XING_AUTH 0 240) → b = decide (be (sl a 0 8) ≠ ownSerial) → (be (sl a 0 8) = ownSerial ∨ be (sl a 8 8) = ownSerial) → be (sl a (if b then 0x14 else 0x10) 4) = s.fer.pairCnt ∧ s.xing.eph.isSome = true ∧ sl a (if b then 0x60 else 0x20) 64 = bufGet s Reg.XING_EPUB 0 64 → UnitReady s whoXing n d → s.xing.sess = none → 
    Answers (.commit src (some p) fails) s fun t => (∃ u, exec (.commit src none fails) s = .next u ∧ exec (.frameReceive (.peerHello p) ⟨[], s.xing.aliveIn⟩) u = .next t) ∧ t = { s with out := t.out, regs := t.regs, parBad := t.parBad, wins := t.wins, quay := { s.quay with msix := t.quay.msix }, units := { s.units with arc := t.units.arc }, kerb := { s.kerb with reports := t.kerb.reports }, fer := { s.fer with pairB := t.fer.pairB, peerSerial := t.fer.peerSerial, pairId := t.fer.pairId, pairCnt := t.fer.pairCnt }, bak := { s.bak with pairRoot := t.bak.pairRoot }, fnt := { s.fnt with state := t.fnt.state, absorbed := t.fnt.absorbed, credit := t.fnt.credit, seed := t.fnt.seed, int := t.fnt.int, sw := t.fnt.sw, katBusy := t.fnt.katBusy, draws := t.fnt.draws, part := t.fnt.part, got := t.fnt.got, rng := t.fnt.rng, rngDone := t.fnt.rngDone, rngDead := t.fnt.rngDead }, xing := { s.xing with state := t.xing.state, held := t.xing.held, stmt := t.xing.stmt, eph := t.xing.eph } } ∧ OtherRegs s t [Reg.XING_CMD] [Reg.PAGE_STAT, Reg.INT_STAT, Reg.ERR_SYND, Reg.ERR_ADDR, Reg.FAULT_CNT] [0x48, 0x49, 0x4A, 0x4B, 0x4C, 0x4D, 0x4E, 0x4F]) ∧
  (∀ (s p : State) (hit : Option Hit), p = drbgGenerate s false hit → p.fleet.held = none → p.xing.upWait = none → p.life.op = none → p.load = none → p.xing.held = some .prepare → (prepareRun p).fleet.held = none ∧ (prepareRun p).xing.upWait = none ∧ (prepareRun p).life.op = none ∧ (prepareRun p).load = none → 
    Answers (.drbgGenerate ⟨false, hit⟩) s fun t => t = prepareRun p) ∧
  (∀ (s p : State) (hit : Option Hit) (peer : Option PeerHello) (fails : Nat), p = drbgGenerate s false hit → p.fleet.held = none → p.xing.upWait = none → p.life.op = none → p.load = none → p.xing.held = some (.commit peer fails) → (commitRun p peer fails).fleet.held = none ∧ (commitRun p peer fails).xing.upWait = none ∧ (commitRun p peer fails).life.op = none ∧ (commitRun p peer fails).load = none → 
    Answers (.drbgGenerate ⟨false, hit⟩) s fun t => t = commitRun p peer fails) ∧
  (∀ (s : State) (a : Bytes) (roleB : Bool) (fails : Nat) (p : PeerHello) (rx : XRx), s.xing.stmt = some (a, roleB, fails) → s.xing.sess = none → 
    Answers (.frameReceive (.peerHello p) rx) s fun t => (if p.serial.toNat ≠ be (sl a (if roleB then 0 else 8) 8) then t = { s with xing := { s.xing with aliveIn := rx.alive } }
      else match p256Agree (s.xing.eph.getD 0) (sl a (if roleB then 0x20 else 0x60) 64) with
      | none => fld t Reg.XING_CMD 7 4 = 2 ∧ t.xing.eph = none ∧ t.xing.stmt = none ∧ t.bak = s.bak ∧ t.fer = s.fer
      | some z => t.xing.eph = none ∧ t.xing.stmt = none ∧
        (if p.confirm ≠ Config.keyConfirm (kdf 0x11 z [0x70, 0x61, 0x69, 0x72] (a.take 176) 256) (!roleB) then fld t Reg.XING_CMD 7 4 = 2 ∧ t.bak = s.bak ∧ t.fer = s.fer
        else if 3 ≤ fails then fld t Reg.XING_CMD 7 4 = 5 ∧ t.bak = s.bak ∧ t.fer = s.fer
        else fld t Reg.XING_CMD 7 4 = 0 ∧ t.bak = { s.bak with pairRoot := some (kdf 0x11 z [0x70, 0x61, 0x69, 0x72] (a.take 176) 256) }
          ∧ t.fer = { s.fer with pairB := roleB, peerSerial := be (sl a (if roleB then 0 else 8) 8), pairId := be (sl a 0x18 8), pairCnt := (s.fer.pairCnt + 1) % 2 ^ 32 }
          ∧ t.xing.state = (if s.xing.state = 0 then 1 else s.xing.state))) ∧ t = { s with out := t.out, tick := t.tick, regs := t.regs, parBad := t.parBad, wins := t.wins, quay := { s.quay with queues := t.quay.queues, doms := t.quay.doms, domRR := t.quay.domRR, ctxs := t.quay.ctxs, msix := t.quay.msix }, units := { s.units with cipher := t.units.cipher, hash := t.units.hash, arc := t.units.arc }, mews := { s.mews with slots := t.mews.slots, cascades := t.mews.cascades, heldOps := t.mews.heldOps }, kerb := { s.kerb with reports := t.kerb.reports }, fer := { s.fer with rsv := t.fer.rsv, dukpt := t.fer.dukpt, pairB := t.fer.pairB, peerSerial := t.fer.peerSerial, pairId := t.fer.pairId, pairCnt := t.fer.pairCnt, fleetRole := t.fer.fleetRole, wards := t.fer.wards, voucher := t.fer.voucher, lastSeq := t.fer.lastSeq }, bak := { s.bak with pairRoot := t.bak.pairRoot, fleetRoot := t.bak.fleetRoot }, fnt := { s.fnt with state := t.fnt.state, absorbed := t.fnt.absorbed, credit := t.fnt.credit, seed := t.fnt.seed, int := t.fnt.int, sw := t.fnt.sw, katBusy := t.fnt.katBusy, draws := t.fnt.draws, part := t.fnt.part, got := t.fnt.got, rng := t.fnt.rng, rngDone := t.fnt.rngDone, rngDead := t.fnt.rngDead }, curves := t.curves, xing := { s.xing with state := t.xing.state, mirror := t.xing.mirror, sess := t.xing.sess, aliveIn := t.xing.aliveIn, held := t.xing.held, stmt := t.xing.stmt, eph := t.xing.eph }, fleet := { s.fleet with tickPend := t.fleet.tickPend, tickFail := t.fleet.tickFail }, clk := { s.clk with corr := t.clk.corr, lock := t.clk.lock, marked := t.clk.marked, lastMark := t.clk.lastMark, lastE := t.clk.lastE, lastBeyond := t.clk.lastBeyond, base := t.clk.base, load := t.clk.load, syncOut := t.clk.syncOut }, chk := { s.chk with slotBad := t.chk.slotBad } } ∧ OtherRegs s t [Reg.CT_SYNC_ERR, Reg.CT_CMD, Reg.CT_SYNC_CNT, Reg.QUAY_RPL_HITS, Reg.RBT_LATE, Reg.MEWS_ASSIGN_SKIP, Reg.MEWS_REVOKES, Reg.COMP_AUTH_FAIL, Reg.COMP_DONE, Reg.XING_CMD, Reg.XING_LINK_ERR] [Reg.PAGE_STAT, Reg.INT_STAT, Reg.ERR_SYND, Reg.ERR_ADDR, Reg.FAULT_CNT, Reg.QUAY_LINK_STAT] [0x48, 0x49, 0x4A, 0x4B, 0x4C, 0x4D, 0x4E, 0x4F]) ∧
  (∀ (s : State), s.xing.stmt.isSome = true → 
    Answers (.commitPeerTimeout) s fun t => t.xing = { s.xing with held := none, stmt := none, eph := none } ∧ fld t Reg.XING_CMD 7 4 = 6 ∧ t.bak = s.bak ∧ t = { s with out := t.out, regs := t.regs, parBad := t.parBad, quay := { s.quay with msix := t.quay.msix }, xing := { s.xing with held := t.xing.held, stmt := t.xing.stmt, eph := t.xing.eph } } ∧ OtherRegs s t [Reg.XING_CMD] [Reg.INT_STAT] [0x48, 0x49, 0x4A, 0x4B, 0x4C, 0x4D, 0x4E, 0x4F]) ∧
  (∀ (s : State), s.xing.stmt = none → 
    Answers (.commitPeerTimeout) s fun t => t = s) ∧
  (∀ (s : State) (src : Src), Reaches s src Reg.XING_CMD → xingBusy s = false → s.xing.state = 0 → 
    Answers (.leave src) s fun t => t.xing = s.xing ∧ fld t Reg.XING_CMD 7 4 = 1 ∧ t = { s with out := t.out, regs := t.regs, parBad := t.parBad, wins := t.wins, quay := { s.quay with queues := t.quay.queues, doms := t.quay.doms, domRR := t.quay.domRR, ctxs := t.quay.ctxs, nextAcc := t.quay.nextAcc, msix := t.quay.msix }, units := { s.units with cipher := t.units.cipher, hash := t.units.hash, arc := t.units.arc }, mews := { s.mews with slots := t.mews.slots, assign := t.mews.assign, cascades := t.mews.cascades, heldOps := t.mews.heldOps, ctrs := t.mews.ctrs, dukpt := t.mews.dukpt }, life := { s.life with op := t.life.op }, kerb := { s.kerb with reports := t.kerb.reports }, fer := { s.fer with fleetRole := t.fer.fleetRole, wards := t.fer.wards, voucher := t.fer.voucher, lastSeq := t.fer.lastSeq }, bak := { s.bak with cust := t.bak.cust, fleetRoot := t.bak.fleetRoot }, fnt := { s.fnt with state := t.fnt.state, absorbed := t.fnt.absorbed, credit := t.fnt.credit, seed := t.fnt.seed, int := t.fnt.int, sw := t.fnt.sw, katBusy := t.fnt.katBusy, draws := t.fnt.draws, part := t.fnt.part, got := t.fnt.got, rng := t.fnt.rng, rngDone := t.fnt.rngDone, rngDead := t.fnt.rngDead }, curves := t.curves, xing := { s.xing with state := t.xing.state, seqr := t.xing.seqr, mirror := t.xing.mirror, link := t.xing.link, sess := t.xing.sess, upWait := t.xing.upWait, aliveIn := t.xing.aliveIn, joinErr := t.xing.joinErr, held := t.xing.held, stmt := t.xing.stmt, deciding := t.xing.deciding, failing := t.xing.failing, left := t.xing.left }, fleet := { s.fleet with held := t.fleet.held }, chk := { s.chk with slotBad := t.chk.slotBad } } ∧ OtherRegs s t [Reg.QUAY_QCMD, Reg.QUAY_RPL_HITS, Reg.RBT_LATE, Reg.MEWS_ASSIGN_CMD, Reg.MEWS_ASSIGN_SKIP, Reg.MEWS_REVOKES, Reg.COMP_AUTH_FAIL, Reg.COMP_DONE, Reg.XING_CMD, Reg.FLEET_CMD] [Reg.PAGE_STAT, Reg.INT_STAT, Reg.ERR_SYND, Reg.ERR_ADDR, Reg.FAULT_CNT, Reg.QUAY_LINK_STAT, Reg.QUAY_LINK_CTRL, Reg.QUAY_GRP_ROUTE, Reg.QUAY_DMA_OUTST, Reg.ARC_LAST] [0x48, 0x49, 0x4A, 0x4B, 0x4C, 0x4D, 0x4E, 0x4F]) ∧
  (∀ (s : State) (src : Src), Reaches s src Reg.XING_CMD → xingBusy s = false → s.xing.state = 4 ∨ s.xing.state = 5 → 
    Answers (.leave src) s fun t => t.xing = { s.xing with state := if s.xing.state = 4 then 1 else 5, seqr := false, left := true, joinErr := 0 } ∧ fld t Reg.XING_CMD 7 4 = 0 ∧ t = { s with out := t.out, regs := t.regs, parBad := t.parBad, wins := t.wins, quay := { s.quay with queues := t.quay.queues, doms := t.quay.doms, domRR := t.quay.domRR, ctxs := t.quay.ctxs, nextAcc := t.quay.nextAcc, msix := t.quay.msix }, units := { s.units with cipher := t.units.cipher, hash := t.units.hash, arc := t.units.arc }, mews := { s.mews with slots := t.mews.slots, assign := t.mews.assign, cascades := t.mews.cascades, heldOps := t.mews.heldOps, ctrs := t.mews.ctrs, dukpt := t.mews.dukpt }, life := { s.life with op := t.life.op }, kerb := { s.kerb with reports := t.kerb.reports }, fer := { s.fer with fleetRole := t.fer.fleetRole, wards := t.fer.wards, voucher := t.fer.voucher, lastSeq := t.fer.lastSeq }, bak := { s.bak with cust := t.bak.cust, fleetRoot := t.bak.fleetRoot }, fnt := { s.fnt with state := t.fnt.state, absorbed := t.fnt.absorbed, credit := t.fnt.credit, seed := t.fnt.seed, int := t.fnt.int, sw := t.fnt.sw, katBusy := t.fnt.katBusy, draws := t.fnt.draws, part := t.fnt.part, got := t.fnt.got, rng := t.fnt.rng, rngDone := t.fnt.rngDone, rngDead := t.fnt.rngDead }, curves := t.curves, xing := { s.xing with state := t.xing.state, seqr := t.xing.seqr, mirror := t.xing.mirror, link := t.xing.link, sess := t.xing.sess, upWait := t.xing.upWait, aliveIn := t.xing.aliveIn, joinErr := t.xing.joinErr, held := t.xing.held, stmt := t.xing.stmt, deciding := t.xing.deciding, failing := t.xing.failing, left := t.xing.left }, fleet := { s.fleet with held := t.fleet.held }, chk := { s.chk with slotBad := t.chk.slotBad } } ∧ OtherRegs s t [Reg.QUAY_QCMD, Reg.QUAY_RPL_HITS, Reg.RBT_LATE, Reg.MEWS_ASSIGN_CMD, Reg.MEWS_ASSIGN_SKIP, Reg.MEWS_REVOKES, Reg.COMP_AUTH_FAIL, Reg.COMP_DONE, Reg.XING_CMD, Reg.FLEET_CMD] [Reg.PAGE_STAT, Reg.INT_STAT, Reg.ERR_SYND, Reg.ERR_ADDR, Reg.FAULT_CNT, Reg.QUAY_LINK_STAT, Reg.QUAY_LINK_CTRL, Reg.QUAY_GRP_ROUTE, Reg.QUAY_DMA_OUTST, Reg.ARC_LAST] [0x48, 0x49, 0x4A, 0x4B, 0x4C, 0x4D, 0x4E, 0x4F]) ∧
  (∀ (s : State) (src : Src), Reaches s src Reg.XING_CMD → xingBusy s = false → s.xing.state = 3 → s.xing.link = true → 
    Answers (.leave src) s fun t => t.xing.state = (if s.xing.seqr then 4 else 5) ∧ t.xing.link = false ∧ t.xing.sess = none ∧ t.xing.mirror = [] ∧ fld t Reg.XING_CMD 7 4 = 0 ∧ t = { s with out := t.out, regs := t.regs, parBad := t.parBad, wins := t.wins, quay := { s.quay with queues := t.quay.queues, doms := t.quay.doms, domRR := t.quay.domRR, ctxs := t.quay.ctxs, nextAcc := t.quay.nextAcc, msix := t.quay.msix }, units := { s.units with cipher := t.units.cipher, hash := t.units.hash, arc := t.units.arc }, mews := { s.mews with slots := t.mews.slots, assign := t.mews.assign, cascades := t.mews.cascades, heldOps := t.mews.heldOps, ctrs := t.mews.ctrs, dukpt := t.mews.dukpt }, life := { s.life with op := t.life.op }, kerb := { s.kerb with reports := t.kerb.reports }, fer := { s.fer with fleetRole := t.fer.fleetRole, wards := t.fer.wards, voucher := t.fer.voucher, lastSeq := t.fer.lastSeq }, bak := { s.bak with cust := t.bak.cust, fleetRoot := t.bak.fleetRoot }, fnt := { s.fnt with state := t.fnt.state, absorbed := t.fnt.absorbed, credit := t.fnt.credit, seed := t.fnt.seed, int := t.fnt.int, sw := t.fnt.sw, katBusy := t.fnt.katBusy, draws := t.fnt.draws, part := t.fnt.part, got := t.fnt.got, rng := t.fnt.rng, rngDone := t.fnt.rngDone, rngDead := t.fnt.rngDead }, curves := t.curves, xing := { s.xing with state := t.xing.state, seqr := t.xing.seqr, mirror := t.xing.mirror, link := t.xing.link, sess := t.xing.sess, upWait := t.xing.upWait, aliveIn := t.xing.aliveIn, joinErr := t.xing.joinErr, held := t.xing.held, stmt := t.xing.stmt, deciding := t.xing.deciding, failing := t.xing.failing, left := t.xing.left }, fleet := { s.fleet with held := t.fleet.held }, chk := { s.chk with slotBad := t.chk.slotBad } } ∧ OtherRegs s t [Reg.QUAY_QCMD, Reg.QUAY_RPL_HITS, Reg.RBT_LATE, Reg.MEWS_ASSIGN_CMD, Reg.MEWS_ASSIGN_SKIP, Reg.MEWS_REVOKES, Reg.COMP_AUTH_FAIL, Reg.COMP_DONE, Reg.XING_CMD, Reg.FLEET_CMD] [Reg.PAGE_STAT, Reg.INT_STAT, Reg.ERR_SYND, Reg.ERR_ADDR, Reg.FAULT_CNT, Reg.QUAY_LINK_STAT, Reg.QUAY_LINK_CTRL, Reg.QUAY_GRP_ROUTE, Reg.QUAY_DMA_OUTST, Reg.ARC_LAST] [0x48, 0x49, 0x4A, 0x4B, 0x4C, 0x4D, 0x4E, 0x4F]) ∧
  (∀ (s : State) (src : Src), Reaches s src Reg.XING_CMD → xingBusy s = false → s.xing.state = 1 ∨ s.xing.state = 2 ∨ (s.xing.state = 3 ∧ s.xing.link = false ∧ s.xing.deciding = false) → 
    Answers (.leave src) s fun t => t.xing = s.xing ∧ fld t Reg.XING_CMD 7 4 = 0 ∧ t = { s with out := t.out, regs := t.regs, parBad := t.parBad, wins := t.wins, quay := { s.quay with queues := t.quay.queues, doms := t.quay.doms, domRR := t.quay.domRR, ctxs := t.quay.ctxs, nextAcc := t.quay.nextAcc, msix := t.quay.msix }, units := { s.units with cipher := t.units.cipher, hash := t.units.hash, arc := t.units.arc }, mews := { s.mews with slots := t.mews.slots, assign := t.mews.assign, cascades := t.mews.cascades, heldOps := t.mews.heldOps, ctrs := t.mews.ctrs, dukpt := t.mews.dukpt }, life := { s.life with op := t.life.op }, kerb := { s.kerb with reports := t.kerb.reports }, fer := { s.fer with fleetRole := t.fer.fleetRole, wards := t.fer.wards, voucher := t.fer.voucher, lastSeq := t.fer.lastSeq }, bak := { s.bak with cust := t.bak.cust, fleetRoot := t.bak.fleetRoot }, fnt := { s.fnt with state := t.fnt.state, absorbed := t.fnt.absorbed, credit := t.fnt.credit, seed := t.fnt.seed, int := t.fnt.int, sw := t.fnt.sw, katBusy := t.fnt.katBusy, draws := t.fnt.draws, part := t.fnt.part, got := t.fnt.got, rng := t.fnt.rng, rngDone := t.fnt.rngDone, rngDead := t.fnt.rngDead }, curves := t.curves, xing := { s.xing with state := t.xing.state, seqr := t.xing.seqr, mirror := t.xing.mirror, link := t.xing.link, sess := t.xing.sess, upWait := t.xing.upWait, aliveIn := t.xing.aliveIn, joinErr := t.xing.joinErr, held := t.xing.held, stmt := t.xing.stmt, deciding := t.xing.deciding, failing := t.xing.failing, left := t.xing.left }, fleet := { s.fleet with held := t.fleet.held }, chk := { s.chk with slotBad := t.chk.slotBad } } ∧ OtherRegs s t [Reg.QUAY_QCMD, Reg.QUAY_RPL_HITS, Reg.RBT_LATE, Reg.MEWS_ASSIGN_CMD, Reg.MEWS_ASSIGN_SKIP, Reg.MEWS_REVOKES, Reg.COMP_AUTH_FAIL, Reg.COMP_DONE, Reg.XING_CMD, Reg.FLEET_CMD] [Reg.PAGE_STAT, Reg.INT_STAT, Reg.ERR_SYND, Reg.ERR_ADDR, Reg.FAULT_CNT, Reg.QUAY_LINK_STAT, Reg.QUAY_LINK_CTRL, Reg.QUAY_GRP_ROUTE, Reg.QUAY_DMA_OUTST, Reg.ARC_LAST] [0x48, 0x49, 0x4A, 0x4B, 0x4C, 0x4D, 0x4E, 0x4F]) ∧
  (∀ (s : State) (src : Src), Reaches s src Reg.XING_CMD → xingBusy s = false → s.xing.state = 5 → 
    Answers (.takeover src) s fun t => t.xing = { s.xing with state := 4, seqr := true } ∧ fld t Reg.XING_CMD 7 4 = 0 ∧ t = { s with out := t.out, regs := t.regs, parBad := t.parBad, quay := { s.quay with msix := t.quay.msix }, xing := { s.xing with state := t.xing.state, seqr := t.xing.seqr, held := t.xing.held, stmt := t.xing.stmt } } ∧ OtherRegs s t [Reg.XING_CMD] [Reg.INT_STAT, Reg.ERR_SYND, Reg.ERR_ADDR] [0x48, 0x49, 0x4A, 0x4B, 0x4C, 0x4D, 0x4E, 0x4F]) ∧
  (∀ (s : State) (src : Src), Reaches s src Reg.XING_CMD → xingBusy s = false → s.xing.state ≠ 5 → 
    Answers (.takeover src) s fun t => t.xing = s.xing ∧ fld t Reg.XING_CMD 7 4 = 1 ∧ t = { s with out := t.out, regs := t.regs, parBad := t.parBad, quay := { s.quay with msix := t.quay.msix }, xing := { s.xing with state := t.xing.state, seqr := t.xing.seqr, held := t.xing.held, stmt := t.xing.stmt } } ∧ OtherRegs s t [Reg.XING_CMD] [Reg.INT_STAT, Reg.ERR_SYND, Reg.ERR_ADDR] [0x48, 0x49, 0x4A, 0x4B, 0x4C, 0x4D, 0x4E, 0x4F]) ∧
  (∀ (s : State) (src : Src), Reaches s src Reg.XING_CMD → xingBusy s = false → 
    Answers (.unpair src) s fun t => t.bak.pairRoot = none ∧ t.xing.state = 0 ∧ t.xing.seqr = false ∧ t.xing.link = false ∧ t.xing.sess = none ∧ t.xing.mirror = [] ∧ fld t Reg.XING_CMD 7 4 = 0 ∧ t = { s with out := t.out, regs := t.regs, parBad := t.parBad, wins := t.wins, quay := { s.quay with queues := t.quay.queues, doms := t.quay.doms, domRR := t.quay.domRR, ctxs := t.quay.ctxs, nextAcc := t.quay.nextAcc, msix := t.quay.msix }, units := { s.units with cipher := t.units.cipher, hash := t.units.hash, arc := t.units.arc }, mews := { s.mews with slots := t.mews.slots, assign := t.mews.assign, cascades := t.mews.cascades, heldOps := t.mews.heldOps, ctrs := t.mews.ctrs, dukpt := t.mews.dukpt }, life := { s.life with op := t.life.op }, kerb := { s.kerb with reports := t.kerb.reports }, fer := { s.fer with fleetRole := t.fer.fleetRole, wards := t.fer.wards, voucher := t.fer.voucher, lastSeq := t.fer.lastSeq }, bak := { s.bak with cust := t.bak.cust, pairRoot := t.bak.pairRoot, fleetRoot := t.bak.fleetRoot }, fnt := { s.fnt with state := t.fnt.state, absorbed := t.fnt.absorbed, credit := t.fnt.credit, seed := t.fnt.seed, int := t.fnt.int, sw := t.fnt.sw, katBusy := t.fnt.katBusy, draws := t.fnt.draws, part := t.fnt.part, got := t.fnt.got, rng := t.fnt.rng, rngDone := t.fnt.rngDone, rngDead := t.fnt.rngDead }, curves := t.curves, xing := { s.xing with state := t.xing.state, seqr := t.xing.seqr, mirror := t.xing.mirror, link := t.xing.link, sess := t.xing.sess, upWait := t.xing.upWait, joinErr := t.xing.joinErr, held := t.xing.held, stmt := t.xing.stmt, deciding := t.xing.deciding, failing := t.xing.failing }, fleet := { s.fleet with held := t.fleet.held }, chk := { s.chk with slotBad := t.chk.slotBad } } ∧ OtherRegs s t [Reg.QUAY_QCMD, Reg.QUAY_RPL_HITS, Reg.RBT_LATE, Reg.MEWS_ASSIGN_CMD, Reg.MEWS_ASSIGN_SKIP, Reg.MEWS_REVOKES, Reg.COMP_AUTH_FAIL, Reg.COMP_DONE, Reg.XING_CMD, Reg.FLEET_CMD] [Reg.PAGE_STAT, Reg.INT_STAT, Reg.ERR_SYND, Reg.ERR_ADDR, Reg.FAULT_CNT, Reg.QUAY_LINK_STAT, Reg.QUAY_LINK_CTRL, Reg.QUAY_GRP_ROUTE, Reg.QUAY_DMA_OUTST, Reg.ARC_LAST] [0x48, 0x49, 0x4A, 0x4B, 0x4C, 0x4D, 0x4E, 0x4F]) ∧
  (∀ (s : State) (src : Src), Reaches s src Reg.XING_CMD → xingBusy s = true → rbit s (rk 0x48 Reg.ERR_SYND) 23 = false → 
    Answers (.prepare src) s fun t => t.xing = s.xing ∧ t.bak = s.bak ∧ fld t (rk 0x48 Reg.ERR_SYND) 31 24 = 0x11 ∧ reg t (rk 0x48 Reg.ERR_ADDR) = 1 ∧ t = { s with out := t.out, regs := t.regs, parBad := t.parBad, quay := { s.quay with msix := t.quay.msix }, units := { s.units with arc := t.units.arc }, fnt := { s.fnt with draws := t.fnt.draws, part := t.fnt.part, got := t.fnt.got, rng := t.fnt.rng, rngDone := t.fnt.rngDone, rngDead := t.fnt.rngDead }, xing := { s.xing with held := t.xing.held, stmt := t.xing.stmt, eph := t.xing.eph } } ∧ OtherRegs s t [Reg.XING_CMD] [Reg.INT_STAT, Reg.ERR_SYND, Reg.ERR_ADDR] [0x48, 0x49, 0x4A, 0x4B, 0x4C, 0x4D, 0x4E, 0x4F]) ∧
  (∀ (s : State) (src : Src) (fails : Nat) (peer : Option PeerHello), Reaches s src Reg.XING_CMD → xingBusy s = true → rbit s (rk 0x48 Reg.ERR_SYND) 23 = false → 
    Answers (.commit src peer fails) s fun t => t.xing = s.xing ∧ t.bak = s.bak ∧ fld t (rk 0x48 Reg.ERR_SYND) 31 24 = 0x11 ∧ reg t (rk 0x48 Reg.ERR_ADDR) = 2 ∧ t = { s with out := t.out, regs := t.regs, parBad := t.parBad, wins := t.wins, quay := { s.quay with msix := t.quay.msix }, units := { s.units with arc := t.units.arc }, kerb := { s.kerb with reports := t.kerb.reports }, fer := { s.fer with pairB := t.fer.pairB, peerSerial := t.fer.peerSerial, pairId := t.fer.pairId, pairCnt := t.fer.pairCnt }, bak := { s.bak with pairRoot := t.bak.pairRoot }, fnt := { s.fnt with state := t.fnt.state, absorbed := t.fnt.absorbed, credit := t.fnt.credit, seed := t.fnt.seed, int := t.fnt.int, sw := t.fnt.sw, katBusy := t.fnt.katBusy, draws := t.fnt.draws, part := t.fnt.part, got := t.fnt.got, rng := t.fnt.rng, rngDone := t.fnt.rngDone, rngDead := t.fnt.rngDead }, xing := { s.xing with state := t.xing.state, held := t.xing.held, stmt := t.xing.stmt, eph := t.xing.eph } } ∧ OtherRegs s t [Reg.XING_CMD] [Reg.PAGE_STAT, Reg.INT_STAT, Reg.ERR_SYND, Reg.ERR_ADDR, Reg.FAULT_CNT] [0x48, 0x49, 0x4A, 0x4B, 0x4C, 0x4D, 0x4E, 0x4F]) ∧
  (∀ (s : State) (src : Src), Reaches s src Reg.XING_CMD → xingBusy s = true → rbit s (rk 0x48 Reg.ERR_SYND) 23 = false → 
    Answers (.leave src) s fun t => t.xing = s.xing ∧ t.bak = s.bak ∧ fld t (rk 0x48 Reg.ERR_SYND) 31 24 = 0x11 ∧ reg t (rk 0x48 Reg.ERR_ADDR) = 3 ∧ t = { s with out := t.out, regs := t.regs, parBad := t.parBad, wins := t.wins, quay := { s.quay with queues := t.quay.queues, doms := t.quay.doms, domRR := t.quay.domRR, ctxs := t.quay.ctxs, nextAcc := t.quay.nextAcc, msix := t.quay.msix }, units := { s.units with cipher := t.units.cipher, hash := t.units.hash, arc := t.units.arc }, mews := { s.mews with slots := t.mews.slots, assign := t.mews.assign, cascades := t.mews.cascades, heldOps := t.mews.heldOps, ctrs := t.mews.ctrs, dukpt := t.mews.dukpt }, life := { s.life with op := t.life.op }, kerb := { s.kerb with reports := t.kerb.reports }, fer := { s.fer with fleetRole := t.fer.fleetRole, wards := t.fer.wards, voucher := t.fer.voucher, lastSeq := t.fer.lastSeq }, bak := { s.bak with cust := t.bak.cust, fleetRoot := t.bak.fleetRoot }, fnt := { s.fnt with state := t.fnt.state, absorbed := t.fnt.absorbed, credit := t.fnt.credit, seed := t.fnt.seed, int := t.fnt.int, sw := t.fnt.sw, katBusy := t.fnt.katBusy, draws := t.fnt.draws, part := t.fnt.part, got := t.fnt.got, rng := t.fnt.rng, rngDone := t.fnt.rngDone, rngDead := t.fnt.rngDead }, curves := t.curves, xing := { s.xing with state := t.xing.state, seqr := t.xing.seqr, mirror := t.xing.mirror, link := t.xing.link, sess := t.xing.sess, upWait := t.xing.upWait, aliveIn := t.xing.aliveIn, joinErr := t.xing.joinErr, held := t.xing.held, stmt := t.xing.stmt, deciding := t.xing.deciding, failing := t.xing.failing, left := t.xing.left }, fleet := { s.fleet with held := t.fleet.held }, chk := { s.chk with slotBad := t.chk.slotBad } } ∧ OtherRegs s t [Reg.QUAY_QCMD, Reg.QUAY_RPL_HITS, Reg.RBT_LATE, Reg.MEWS_ASSIGN_CMD, Reg.MEWS_ASSIGN_SKIP, Reg.MEWS_REVOKES, Reg.COMP_AUTH_FAIL, Reg.COMP_DONE, Reg.XING_CMD, Reg.FLEET_CMD] [Reg.PAGE_STAT, Reg.INT_STAT, Reg.ERR_SYND, Reg.ERR_ADDR, Reg.FAULT_CNT, Reg.QUAY_LINK_STAT, Reg.QUAY_LINK_CTRL, Reg.QUAY_GRP_ROUTE, Reg.QUAY_DMA_OUTST, Reg.ARC_LAST] [0x48, 0x49, 0x4A, 0x4B, 0x4C, 0x4D, 0x4E, 0x4F]) ∧
  (∀ (s : State) (src : Src), Reaches s src Reg.XING_CMD → xingBusy s = true → rbit s (rk 0x48 Reg.ERR_SYND) 23 = false → 
    Answers (.takeover src) s fun t => t.xing = s.xing ∧ t.bak = s.bak ∧ fld t (rk 0x48 Reg.ERR_SYND) 31 24 = 0x11 ∧ reg t (rk 0x48 Reg.ERR_ADDR) = 4 ∧ t = { s with out := t.out, regs := t.regs, parBad := t.parBad, quay := { s.quay with msix := t.quay.msix }, xing := { s.xing with state := t.xing.state, seqr := t.xing.seqr, held := t.xing.held, stmt := t.xing.stmt } } ∧ OtherRegs s t [Reg.XING_CMD] [Reg.INT_STAT, Reg.ERR_SYND, Reg.ERR_ADDR] [0x48, 0x49, 0x4A, 0x4B, 0x4C, 0x4D, 0x4E, 0x4F]) ∧
  (∀ (s : State) (src : Src), Reaches s src Reg.XING_CMD → xingBusy s = true → rbit s (rk 0x48 Reg.ERR_SYND) 23 = false → 
    Answers (.unpair src) s fun t => t.xing = s.xing ∧ t.bak = s.bak ∧ fld t (rk 0x48 Reg.ERR_SYND) 31 24 = 0x11 ∧ reg t (rk 0x48 Reg.ERR_ADDR) = 5 ∧ t = { s with out := t.out, regs := t.regs, parBad := t.parBad, wins := t.wins, quay := { s.quay with queues := t.quay.queues, doms := t.quay.doms, domRR := t.quay.domRR, ctxs := t.quay.ctxs, nextAcc := t.quay.nextAcc, msix := t.quay.msix }, units := { s.units with cipher := t.units.cipher, hash := t.units.hash, arc := t.units.arc }, mews := { s.mews with slots := t.mews.slots, assign := t.mews.assign, cascades := t.mews.cascades, heldOps := t.mews.heldOps, ctrs := t.mews.ctrs, dukpt := t.mews.dukpt }, life := { s.life with op := t.life.op }, kerb := { s.kerb with reports := t.kerb.reports }, fer := { s.fer with fleetRole := t.fer.fleetRole, wards := t.fer.wards, voucher := t.fer.voucher, lastSeq := t.fer.lastSeq }, bak := { s.bak with cust := t.bak.cust, pairRoot := t.bak.pairRoot, fleetRoot := t.bak.fleetRoot }, fnt := { s.fnt with state := t.fnt.state, absorbed := t.fnt.absorbed, credit := t.fnt.credit, seed := t.fnt.seed, int := t.fnt.int, sw := t.fnt.sw, katBusy := t.fnt.katBusy, draws := t.fnt.draws, part := t.fnt.part, got := t.fnt.got, rng := t.fnt.rng, rngDone := t.fnt.rngDone, rngDead := t.fnt.rngDead }, curves := t.curves, xing := { s.xing with state := t.xing.state, seqr := t.xing.seqr, mirror := t.xing.mirror, link := t.xing.link, sess := t.xing.sess, upWait := t.xing.upWait, joinErr := t.xing.joinErr, held := t.xing.held, stmt := t.xing.stmt, deciding := t.xing.deciding, failing := t.xing.failing }, fleet := { s.fleet with held := t.fleet.held }, chk := { s.chk with slotBad := t.chk.slotBad } } ∧ OtherRegs s t [Reg.QUAY_QCMD, Reg.QUAY_RPL_HITS, Reg.RBT_LATE, Reg.MEWS_ASSIGN_CMD, Reg.MEWS_ASSIGN_SKIP, Reg.MEWS_REVOKES, Reg.COMP_AUTH_FAIL, Reg.COMP_DONE, Reg.XING_CMD, Reg.FLEET_CMD] [Reg.PAGE_STAT, Reg.INT_STAT, Reg.ERR_SYND, Reg.ERR_ADDR, Reg.FAULT_CNT, Reg.QUAY_LINK_STAT, Reg.QUAY_LINK_CTRL, Reg.QUAY_GRP_ROUTE, Reg.QUAY_DMA_OUTST, Reg.ARC_LAST] [0x48, 0x49, 0x4A, 0x4B, 0x4C, 0x4D, 0x4E, 0x4F])

/-- A link-up with the recorded partner asks for its session value, and with it begins a session and, unless the partners are joining or paired, a join when they agree; the end of the join, once the joiner's table is overwritten, copies and merges the records and is PAIRED. A frame with a right tag acts on this partner, and a mirrored one is confirmed; one whose tag fails is counted and ends the session; without a session none acts. A confirmed item lets what waits for it go on, a commit only once no overwrite of the Key Table runs. A lost link makes the sequencer SOLO and the other decide; queues then change their role; heartbeats, the round trip and a write of XING_QROLE do as the rules say. Each event at another time does nothing. Each clause names what may change beside; every other part of the state and every other register is as before. Forms whose completion it states: xingLinkUp, drbgGenerate, joinDone, frameReceive, mirrorConfirm, heartbeatSend, internalHeartbeatLoss, xingLinkLost, partnerDecision, failover, rttMeasure, xingQroleWrite. (R196, R294, R443, R444, R445, R446, R447, R451, R452, R453, R456, R457) -/
def Obligations.CrossingEffects : Prop :=
  (∀ (s : State) (p : PeerInfo) (b : Bytes), mayLink s = true → p.serial.toNat = s.fer.peerSerial → drawn s whoLink = some b → s.xing.state ≠ 2 → s.xing.state ≠ 3 → p.life = s.life.state → joinConfigOk s p = true → s.xing.state ≠ 4 ∨ p.solo = false → 
    Answers (.xingLinkUp p) s fun t => t.xing.link = true ∧ t.xing.upWait = none ∧ (t.xing.sess.map fun e => (e.keyOut, e.keyIn)) = some ((sessionOf s (b.take 32) p).keyOut, (sessionOf s (b.take 32) p).keyIn) ∧ t.xing.state = 2 ∧ t.xing.seqr = seqAtJoin s p ∧ t.xing.joinErr = 0 ∧ t = { s with out := t.out, regs := t.regs, parBad := t.parBad, wins := t.wins, quay := { s.quay with queues := t.quay.queues, doms := t.quay.doms, domRR := t.quay.domRR, ctxs := t.quay.ctxs, msix := t.quay.msix }, units := { s.units with cipher := t.units.cipher, hash := t.units.hash, arc := t.units.arc }, mews := { s.mews with slots := t.mews.slots, genBase := t.mews.genBase, cascades := t.mews.cascades, zeroising := t.mews.zeroising }, kerb := { s.kerb with reports := t.kerb.reports }, fnt := { s.fnt with state := t.fnt.state, absorbed := t.fnt.absorbed, credit := t.fnt.credit, seed := t.fnt.seed, int := t.fnt.int, sw := t.fnt.sw, katBusy := t.fnt.katBusy, draws := t.fnt.draws, part := t.fnt.part, got := t.fnt.got, rng := t.fnt.rng, rngDone := t.fnt.rngDone, rngDead := t.fnt.rngDead }, xing := { s.xing with state := t.xing.state, seqr := t.xing.seqr, mirror := t.xing.mirror, link := t.xing.link, sess := t.xing.sess, upWait := t.xing.upWait, aliveIn := t.xing.aliveIn, joinErr := t.xing.joinErr, failing := t.xing.failing, left := t.xing.left }, chk := { s.chk with slotBad := t.chk.slotBad } } ∧ OtherRegs s t [Reg.QUAY_RPL_HITS, Reg.RBT_LATE, Reg.MEWS_REVOKES, Reg.COMP_AUTH_FAIL, Reg.COMP_DONE] [Reg.PAGE_STAT, Reg.INT_STAT, Reg.ERR_SYND, Reg.ERR_ADDR, Reg.FAULT_CNT, Reg.QUAY_LINK_STAT] []) ∧
  (∀ (s : State) (p : PeerInfo) (b : Bytes), mayLink s = true → p.serial.toNat = s.fer.peerSerial → drawn s whoLink = some b → s.xing.state ≠ 2 → s.xing.state ≠ 3 → p.life ≠ s.life.state → 
    Answers (.xingLinkUp p) s fun t => t.xing.link = true ∧ t.xing.upWait = none ∧ t.xing.sess = some (sessionOf s (b.take 32) p) ∧ t.xing.state = s.xing.state ∧ t.xing.joinErr = 2 ∧ t.mews = s.mews ∧ t = { s with out := t.out, regs := t.regs, parBad := t.parBad, wins := t.wins, quay := { s.quay with queues := t.quay.queues, doms := t.quay.doms, domRR := t.quay.domRR, ctxs := t.quay.ctxs, msix := t.quay.msix }, units := { s.units with cipher := t.units.cipher, hash := t.units.hash, arc := t.units.arc }, mews := { s.mews with slots := t.mews.slots, genBase := t.mews.genBase, cascades := t.mews.cascades, zeroising := t.mews.zeroising }, kerb := { s.kerb with reports := t.kerb.reports }, fnt := { s.fnt with state := t.fnt.state, absorbed := t.fnt.absorbed, credit := t.fnt.credit, seed := t.fnt.seed, int := t.fnt.int, sw := t.fnt.sw, katBusy := t.fnt.katBusy, draws := t.fnt.draws, part := t.fnt.part, got := t.fnt.got, rng := t.fnt.rng, rngDone := t.fnt.rngDone, rngDead := t.fnt.rngDead }, xing := { s.xing with state := t.xing.state, seqr := t.xing.seqr, mirror := t.xing.mirror, link := t.xing.link, sess := t.xing.sess, upWait := t.xing.upWait, aliveIn := t.xing.aliveIn, joinErr := t.xing.joinErr, failing := t.xing.failing, left := t.xing.left }, chk := { s.chk with slotBad := t.chk.slotBad } } ∧ OtherRegs s t [Reg.QUAY_RPL_HITS, Reg.RBT_LATE, Reg.MEWS_REVOKES, Reg.COMP_AUTH_FAIL, Reg.COMP_DONE] [Reg.PAGE_STAT, Reg.INT_STAT, Reg.ERR_SYND, Reg.ERR_ADDR, Reg.FAULT_CNT, Reg.QUAY_LINK_STAT] []) ∧
  (∀ (s : State) (p : PeerInfo) (b : Bytes), mayLink s = true → p.serial.toNat = s.fer.peerSerial → drawn s whoLink = some b → s.xing.state ≠ 2 → s.xing.state ≠ 3 → p.life = s.life.state → joinConfigOk s p = false → 
    Answers (.xingLinkUp p) s fun t => t.xing.link = true ∧ t.xing.upWait = none ∧ t.xing.sess = some (sessionOf s (b.take 32) p) ∧ t.xing.state = s.xing.state ∧ t.xing.joinErr = 1 ∧ t.mews = s.mews ∧ t = { s with out := t.out, regs := t.regs, parBad := t.parBad, wins := t.wins, quay := { s.quay with queues := t.quay.queues, doms := t.quay.doms, domRR := t.quay.domRR, ctxs := t.quay.ctxs, msix := t.quay.msix }, units := { s.units with cipher := t.units.cipher, hash := t.units.hash, arc := t.units.arc }, mews := { s.mews with slots := t.mews.slots, genBase := t.mews.genBase, cascades := t.mews.cascades, zeroising := t.mews.zeroising }, kerb := { s.kerb with reports := t.kerb.reports }, fnt := { s.fnt with state := t.fnt.state, absorbed := t.fnt.absorbed, credit := t.fnt.credit, seed := t.fnt.seed, int := t.fnt.int, sw := t.fnt.sw, katBusy := t.fnt.katBusy, draws := t.fnt.draws, part := t.fnt.part, got := t.fnt.got, rng := t.fnt.rng, rngDone := t.fnt.rngDone, rngDead := t.fnt.rngDead }, xing := { s.xing with state := t.xing.state, seqr := t.xing.seqr, mirror := t.xing.mirror, link := t.xing.link, sess := t.xing.sess, upWait := t.xing.upWait, aliveIn := t.xing.aliveIn, joinErr := t.xing.joinErr, failing := t.xing.failing, left := t.xing.left }, chk := { s.chk with slotBad := t.chk.slotBad } } ∧ OtherRegs s t [Reg.QUAY_RPL_HITS, Reg.RBT_LATE, Reg.MEWS_REVOKES, Reg.COMP_AUTH_FAIL, Reg.COMP_DONE] [Reg.PAGE_STAT, Reg.INT_STAT, Reg.ERR_SYND, Reg.ERR_ADDR, Reg.FAULT_CNT, Reg.QUAY_LINK_STAT] []) ∧
  (∀ (s : State) (p : PeerInfo) (b : Bytes), mayLink s = true → p.serial.toNat = s.fer.peerSerial → drawn s whoLink = some b → s.xing.state ≠ 2 → s.xing.state ≠ 3 → p.life = s.life.state → joinConfigOk s p = true → s.xing.state = 4 → p.solo = true → 
    Answers (.xingLinkUp p) s fun t => t.xing.link = true ∧ t.xing.upWait = none ∧ t.xing.sess = some (sessionOf s (b.take 32) p) ∧ t.xing.state = s.xing.state ∧ t.xing.joinErr = 3 ∧ t.mews = s.mews ∧ t = { s with out := t.out, regs := t.regs, parBad := t.parBad, wins := t.wins, quay := { s.quay with queues := t.quay.queues, doms := t.quay.doms, domRR := t.quay.domRR, ctxs := t.quay.ctxs, msix := t.quay.msix }, units := { s.units with cipher := t.units.cipher, hash := t.units.hash, arc := t.units.arc }, mews := { s.mews with slots := t.mews.slots, genBase := t.mews.genBase, cascades := t.mews.cascades, zeroising := t.mews.zeroising }, kerb := { s.kerb with reports := t.kerb.reports }, fnt := { s.fnt with state := t.fnt.state, absorbed := t.fnt.absorbed, credit := t.fnt.credit, seed := t.fnt.seed, int := t.fnt.int, sw := t.fnt.sw, katBusy := t.fnt.katBusy, draws := t.fnt.draws, part := t.fnt.part, got := t.fnt.got, rng := t.fnt.rng, rngDone := t.fnt.rngDone, rngDead := t.fnt.rngDead }, xing := { s.xing with state := t.xing.state, seqr := t.xing.seqr, mirror := t.xing.mirror, link := t.xing.link, sess := t.xing.sess, upWait := t.xing.upWait, aliveIn := t.xing.aliveIn, joinErr := t.xing.joinErr, failing := t.xing.failing, left := t.xing.left }, chk := { s.chk with slotBad := t.chk.slotBad } } ∧ OtherRegs s t [Reg.QUAY_RPL_HITS, Reg.RBT_LATE, Reg.MEWS_REVOKES, Reg.COMP_AUTH_FAIL, Reg.COMP_DONE] [Reg.PAGE_STAT, Reg.INT_STAT, Reg.ERR_SYND, Reg.ERR_ADDR, Reg.FAULT_CNT, Reg.QUAY_LINK_STAT] []) ∧
  (∀ (s : State) (p : PeerInfo) (b : Bytes), mayLink s = true → p.serial.toNat = s.fer.peerSerial → drawn s whoLink = some b → s.xing.state = 2 ∨ (s.xing.state = 3 ∧ s.xing.mirror = []) → s.xing.sess = none → 
    Answers (.xingLinkUp p) s fun t => t.xing.link = true ∧ t.xing.upWait = none ∧ (t.xing.sess.map fun e => (e.keyOut, e.keyIn)) = some ((sessionOf s (b.take 32) p).keyOut, (sessionOf s (b.take 32) p).keyIn) ∧ t.xing.state = s.xing.state ∧ t.xing.seqr = s.xing.seqr ∧ t.mews = s.mews ∧ t = { s with out := t.out, regs := t.regs, parBad := t.parBad, wins := t.wins, quay := { s.quay with queues := t.quay.queues, doms := t.quay.doms, domRR := t.quay.domRR, ctxs := t.quay.ctxs, msix := t.quay.msix }, units := { s.units with cipher := t.units.cipher, hash := t.units.hash, arc := t.units.arc }, mews := { s.mews with slots := t.mews.slots, genBase := t.mews.genBase, cascades := t.mews.cascades, zeroising := t.mews.zeroising }, kerb := { s.kerb with reports := t.kerb.reports }, fnt := { s.fnt with state := t.fnt.state, absorbed := t.fnt.absorbed, credit := t.fnt.credit, seed := t.fnt.seed, int := t.fnt.int, sw := t.fnt.sw, katBusy := t.fnt.katBusy, draws := t.fnt.draws, part := t.fnt.part, got := t.fnt.got, rng := t.fnt.rng, rngDone := t.fnt.rngDone, rngDead := t.fnt.rngDead }, xing := { s.xing with state := t.xing.state, seqr := t.xing.seqr, mirror := t.xing.mirror, link := t.xing.link, sess := t.xing.sess, upWait := t.xing.upWait, aliveIn := t.xing.aliveIn, joinErr := t.xing.joinErr, failing := t.xing.failing, left := t.xing.left }, chk := { s.chk with slotBad := t.chk.slotBad } } ∧ OtherRegs s t [Reg.QUAY_RPL_HITS, Reg.RBT_LATE, Reg.MEWS_REVOKES, Reg.COMP_AUTH_FAIL, Reg.COMP_DONE] [Reg.PAGE_STAT, Reg.INT_STAT, Reg.ERR_SYND, Reg.ERR_ADDR, Reg.FAULT_CNT, Reg.QUAY_LINK_STAT] []) ∧
  (∀ (s : State) (p : PeerInfo), mayLink s = true → p.serial.toNat = s.fer.peerSerial → drawn s whoLink = none → (s.fnt.draws.any fun e => e.2 == whoLink) = false → s.xing.sess = none ∨ (s.xing.state ≠ 2 ∧ s.xing.state ≠ 3) → 
    Answers (.xingLinkUp p) s fun t => t.xing = { s.xing with link := true, aliveIn := p.alive, upWait := some p } ∧ t.fnt.draws = s.fnt.draws ++ [(0, whoLink)] ∧ t = { s with out := t.out, regs := t.regs, parBad := t.parBad, wins := t.wins, quay := { s.quay with queues := t.quay.queues, doms := t.quay.doms, domRR := t.quay.domRR, ctxs := t.quay.ctxs, msix := t.quay.msix }, units := { s.units with cipher := t.units.cipher, hash := t.units.hash, arc := t.units.arc }, mews := { s.mews with slots := t.mews.slots, genBase := t.mews.genBase, cascades := t.mews.cascades, zeroising := t.mews.zeroising }, kerb := { s.kerb with reports := t.kerb.reports }, fnt := { s.fnt with state := t.fnt.state, absorbed := t.fnt.absorbed, credit := t.fnt.credit, seed := t.fnt.seed, int := t.fnt.int, sw := t.fnt.sw, katBusy := t.fnt.katBusy, draws := t.fnt.draws, part := t.fnt.part, got := t.fnt.got, rng := t.fnt.rng, rngDone := t.fnt.rngDone, rngDead := t.fnt.rngDead }, xing := { s.xing with state := t.xing.state, seqr := t.xing.seqr, mirror := t.xing.mirror, link := t.xing.link, sess := t.xing.sess, upWait := t.xing.upWait, aliveIn := t.xing.aliveIn, joinErr := t.xing.joinErr, failing := t.xing.failing, left := t.xing.left }, chk := { s.chk with slotBad := t.chk.slotBad } } ∧ OtherRegs s t [Reg.QUAY_RPL_HITS, Reg.RBT_LATE, Reg.MEWS_REVOKES, Reg.COMP_AUTH_FAIL, Reg.COMP_DONE] [Reg.PAGE_STAT, Reg.INT_STAT, Reg.ERR_SYND, Reg.ERR_ADDR, Reg.FAULT_CNT, Reg.QUAY_LINK_STAT] []) ∧
  (∀ (s : State) (p : PeerInfo), mayLink s = false ∨ p.serial.toNat ≠ s.fer.peerSerial ∨ (s.xing.sess.isSome = true ∧ (s.xing.state = 2 ∨ s.xing.state = 3)) → 
    Answers (.xingLinkUp p) s fun t => t = s) ∧
  (∀ (s u : State) (hit : Option Hit) (p : PeerInfo), u = drbgGenerate s false hit → u.xing.upWait = some p → u.xing.held = none → u.fleet.held = none → u.life.op = none → u.load = none → (newSession u p).life.op = none ∧ (newSession u p).load = none → 
    Answers (.drbgGenerate ⟨false, hit⟩) s fun t => t = newSession u p) ∧
  (∀ (s : State) (img : JoinImage), s.xing.state = 2 → s.xing.sess.isSome = true → s.mews.zeroising = false → 
    Answers (.joinDone img) s fun t => t.xing.state = 3 ∧ t.fer.rsv = mergeRsvs s.fer.rsv img.rsv ∧ t.fer.dukpt = mergeRsvs s.fer.dukpt img.dukpt ∧ (s.xing.seqr = false → t.fer.fleetRole = img.fleetRole ∧ t.fer.fleetId = img.fleetId ∧ t.bak.fleetRoot = img.fleetRoot) ∧ (s.xing.seqr = true → t.fer.fleetRole = s.fer.fleetRole ∧ t.bak = s.bak) ∧ t = { s with out := t.out, tick := t.tick, regs := t.regs, parBad := t.parBad, wins := t.wins, quay := { s.quay with queues := t.quay.queues, doms := t.quay.doms, domRR := t.quay.domRR, ctxs := t.quay.ctxs, nextAcc := t.quay.nextAcc, msix := t.quay.msix }, units := { s.units with cipher := t.units.cipher, hash := t.units.hash, arc := t.units.arc }, mews := { s.mews with slots := t.mews.slots, genBase := t.mews.genBase, assign := t.mews.assign, cascades := t.mews.cascades, heldOps := t.mews.heldOps, ctrs := t.mews.ctrs, dukpt := t.mews.dukpt }, kerb := { s.kerb with reports := t.kerb.reports }, fer := { s.fer with rsv := t.fer.rsv, dukpt := t.fer.dukpt, fleetRole := t.fer.fleetRole, fleetId := t.fer.fleetId, wards := t.fer.wards, voucher := t.fer.voucher, lastSeq := t.fer.lastSeq }, bak := { s.bak with fleetRoot := t.bak.fleetRoot }, fnt := { s.fnt with state := t.fnt.state, absorbed := t.fnt.absorbed, credit := t.fnt.credit, seed := t.fnt.seed, int := t.fnt.int, sw := t.fnt.sw, katBusy := t.fnt.katBusy, draws := t.fnt.draws, part := t.fnt.part, got := t.fnt.got, rng := t.fnt.rng, rngDone := t.fnt.rngDone, rngDead := t.fnt.rngDead }, curves := t.curves, xing := { s.xing with state := t.xing.state, mirror := t.xing.mirror, sess := t.xing.sess }, fleet := { s.fleet with held := t.fleet.held }, clk := { s.clk with lock := t.clk.lock, syncOut := t.clk.syncOut }, chk := { s.chk with slotBad := t.chk.slotBad } } ∧ OtherRegs s t [Reg.QUAY_QCMD, Reg.QUAY_RPL_HITS, Reg.RBT_LATE, Reg.MEWS_ASSIGN_SKIP, Reg.MEWS_REVOKES, Reg.COMP_AUTH_FAIL, Reg.COMP_DONE, Reg.FLEET_CMD] [Reg.PAGE_STAT, Reg.INT_STAT, Reg.ERR_SYND, Reg.ERR_ADDR, Reg.FAULT_CNT, Reg.QUAY_LINK_STAT, Reg.QUAY_LINK_CTRL, Reg.QUAY_GRP_ROUTE, Reg.QUAY_DMA_OUTST, Reg.ARC_LAST] []) ∧
  (∀ (s : State) (img : JoinImage), s.xing.state ≠ 2 ∨ s.xing.sess = none ∨ s.mews.zeroising = true → 
    Answers (.joinDone img) s fun t => t = s) ∧
  (∀ (s : State) (e : Sess) (rx : XRx) (u : State), s.xing.sess = some e → rx.tags = frameTags s e .heartbeat → u = { s with xing := { s.xing with aliveIn := rx.alive, sess := some { e with rx := e.rx + rx.tags.length } } } → 
    Answers (.frameReceive .heartbeat rx) s fun t => t = u) ∧
  (∀ (s : State) (e : Sess) (rx : XRx) (u : State), s.xing.sess = some e → rx.tags = frameTags s e .marker → u = { s with xing := { s.xing with aliveIn := rx.alive, sess := some { e with rx := e.rx + rx.tags.length } } } → 
    Answers (.frameReceive .marker rx) s fun t => t = syncMarker u true) ∧
  (∀ (s : State) (e : Sess) (p : PeerHello) (rx : XRx) (u : State), s.xing.sess = some e → s.xing.stmt = none → rx.tags = frameTags s e (.peerHello p) → u = { s with xing := { s.xing with aliveIn := rx.alive, sess := some { e with rx := e.rx + rx.tags.length } } } → 
    Answers (.frameReceive (.peerHello p) rx) s fun t => t = u) ∧
  (∀ (s : State) (e : Sess) (h : Nat) (k : Slot) (gens : List (Nat × Nat)) (rx : XRx) (u : State), s.xing.sess = some e → s.xing.seqr = false → s.xing.state ≠ 2 → s.mews.zeroising = false → algRun k.alg = 1 → headOf s h = none → k.parent = 0 → s.mews.cascades = [] → rx.tags = frameTags s e (.commit (.write h k) gens) → u = { s with xing := { s.xing with aliveIn := rx.alive, sess := some { e with rx := e.rx + rx.tags.length } } } → 
    Answers (.frameReceive (.commit (.write h k) gens) rx) s fun t => t = confirmFrame (applyOp u none (.write h k)) ∧ slotAt t h = { k with gen := nextGen (slotAt s h).gen, mat := matPart k.mat 1 0 } ∧ (∀ n, n ≠ h → slotAt t n = slotAt s n)) ∧
  (∀ (s : State) (e : Sess) (op : SlotOp) (gens : List (Nat × Nat)) (rx : XRx) (u : State), s.xing.sess = some e → s.xing.seqr = false → s.xing.state ≠ 2 → s.mews.zeroising = false → rx.tags = frameTags s e (.commit op gens) → u = { s with xing := { s.xing with aliveIn := rx.alive, sess := some { e with rx := e.rx + rx.tags.length } } } → 
    Answers (.frameReceive (.commit op gens) rx) s fun t => t = confirmFrame (applyOp u none op)) ∧
  (∀ (s : State) (e : Sess) (op : SlotOp) (gens : List (Nat × Nat)) (rx : XRx) (u : State), s.xing.sess = some e → s.xing.seqr = true → s.xing.state ≠ 2 → s.mews.zeroising = false → (gens.any fun e => (slotAt s e.1).gen != e.2) = false → rx.tags = frameTags s e (.commit op gens) → u = { s with xing := { s.xing with aliveIn := rx.alive, sess := some { e with rx := e.rx + rx.tags.length } } } → 
    Answers (.frameReceive (.commit op gens) rx) s fun t => t = mirror (applyOp u none op) (opKind op) (opBody u op gens) .record) ∧
  (∀ (s : State) (e : Sess) (op : SlotOp) (gens : List (Nat × Nat)) (rx : XRx) (u : State), s.xing.sess = some e → s.xing.seqr = true → s.xing.state ≠ 2 → s.mews.zeroising = false → (gens.any fun e => (slotAt s e.1).gen != e.2) = true → rx.tags = frameTags s e (.commit op gens) → u = { s with xing := { s.xing with aliveIn := rx.alive, sess := some { e with rx := e.rx + rx.tags.length } } } → 
    Answers (.frameReceive (.commit op gens) rx) s fun t => t = sendFrame u 13 (opBody u op gens)) ∧
  (∀ (s : State) (e : Sess) (op : SlotOp) (gens : List (Nat × Nat)) (rx : XRx) (u : State), s.xing.sess = some e → s.mews.zeroising = true ∨ s.xing.state = 2 → rx.tags = frameTags s e (.commit op gens) → u = { s with xing := { s.xing with aliveIn := rx.alive, sess := some { e with rx := e.rx + rx.tags.length } } } → 
    Answers (.frameReceive (.commit op gens) rx) s fun t => t = { u with mews := { u.mews with heldOps := u.mews.heldOps ++ [.frame op gens] } }) ∧
  (∀ (s : State) (e : Sess) (op dom base cnt : Nat) (rx : XRx) (u : State), s.xing.sess = some e → s.mews.zeroising = false → s.xing.state ≠ 2 → rx.tags = frameTags s e (.assign op dom base cnt) → u = { s with xing := { s.xing with aliveIn := rx.alive, sess := some { e with rx := e.rx + rx.tags.length } } } → 
    Answers (.frameReceive (.assign op dom base cnt) rx) s fun t => t = confirmFrame ((List.range cnt).foldl (fun s n => assignSlot s op dom (base + n)) u)) ∧
  (∀ (s : State) (e : Sess) (op dom base cnt : Nat) (rx : XRx) (u : State), s.xing.sess = some e → s.mews.zeroising = true ∨ s.xing.state = 2 → rx.tags = frameTags s e (.assign op dom base cnt) → u = { s with xing := { s.xing with aliveIn := rx.alive, sess := some { e with rx := e.rx + rx.tags.length } } } → 
    Answers (.frameReceive (.assign op dom base cnt) rx) s fun t => t = { u with mews := { u.mews with heldOps := u.mews.heldOps ++ [.assign op dom base cnt] } }) ∧
  (∀ (s : State) (e : Sess) (slot : SlotNo) (blk : Nat) (rx : XRx) (u : State), s.xing.sess = some e → rx.tags = frameTags s e (.reservation slot blk false) → u = { s with xing := { s.xing with aliveIn := rx.alive, sess := some { e with rx := e.rx + rx.tags.length } } } → 
    Answers (.frameReceive (.reservation slot blk false) rx) s fun t => t = confirmFrame { u with fer := { s.fer with rsv := t.fer.rsv } } ∧ rsvAt t slot.val = mergeRsv (rsvAt s slot.val) (rsvPut {} false slot.val blk) ∧ (∀ n, n ≠ slot.val → rsvAt t n = rsvAt s n)) ∧
  (∀ (s : State) (e : Sess) (slot : SlotNo) (blk : Nat) (rx : XRx) (u : State), s.xing.sess = some e → rx.tags = frameTags s e (.reservation slot blk true) → u = { s with xing := { s.xing with aliveIn := rx.alive, sess := some { e with rx := e.rx + rx.tags.length } } } → 
    Answers (.frameReceive (.reservation slot blk true) rx) s fun t => t = confirmFrame { u with fer := { s.fer with dukpt := t.fer.dukpt } } ∧ dukptRec t slot.val = mergeRsv (dukptRec s slot.val) (rsvPut {} true slot.val blk) ∧ (∀ n, n ≠ slot.val → dukptRec t n = dukptRec s n)) ∧
  (∀ (s : State) (e : Sess) (k : Nat) (w : Option WardEnt) (rx : XRx) (u : State), s.xing.sess = some e → rx.tags = frameTags s e (.ward k w) → u = { s with xing := { s.xing with aliveIn := rx.alive, sess := some { e with rx := e.rx + rx.tags.length } } } → 
    Answers (.frameReceive (.ward k w) rx) s fun t => t = confirmFrame { u with fer := { s.fer with wards := t.fer.wards } } ∧ tfind t.fer.wards k = w ∧ (∀ m, m ≠ k → tfind t.fer.wards m = tfind s.fer.wards m)) ∧
  (∀ (s : State) (e : Sess) (q : QueueNo) (w : Tbl Word) (rx : XRx) (u : State), s.xing.sess = some e → (queueAt s q.val).role = 2 → rx.tags = frameTags s e (.queueRec q w) → u = { s with xing := { s.xing with aliveIn := rx.alive, sess := some { e with rx := e.rx + rx.tags.length } } } → 
    Answers (.frameReceive (.queueRec q w) rx) s fun t => t = confirmFrame (takeRecord u q.val w) ∧ (∀ n, 0 < n → n < 32 → n ≠ 2 → qw (queueAt t q.val) n = tget 0 w n &&& recMask n) ∧ qFunc (queueAt t q.val) = qFunc (queueAt s q.val)) ∧
  (∀ (s : State) (e : Sess) (q : QueueNo) (w : Tbl Word) (win : List (Nat × Bytes)) (rx : XRx) (u : State), s.xing.sess = some e → rx.tags = frameTags s e (.queueRole q true w win) → u = { s with xing := { s.xing with aliveIn := rx.alive, sess := some { e with rx := e.rx + rx.tags.length } } } → 
    Answers (.frameReceive (.queueRole q true w win) rx) s fun t => (queueAt t q.val).role = 2 ∧ (queueAt t q.val).win = win.map (fun e => { tag := e.1, cpl := e.2 }) ∧ (∀ n, n ≠ q.val → queueAt t n = queueAt s n) ∧ t.out = s.out ∧ t = { s with out := t.out, tick := t.tick, regs := t.regs, parBad := t.parBad, wins := t.wins, quay := { s.quay with queues := t.quay.queues, doms := t.quay.doms, domRR := t.quay.domRR, ctxs := t.quay.ctxs, msix := t.quay.msix }, units := { s.units with cipher := t.units.cipher, hash := t.units.hash, arc := t.units.arc }, mews := { s.mews with slots := t.mews.slots, cascades := t.mews.cascades, heldOps := t.mews.heldOps }, kerb := { s.kerb with reports := t.kerb.reports }, fer := { s.fer with rsv := t.fer.rsv, dukpt := t.fer.dukpt, pairB := t.fer.pairB, peerSerial := t.fer.peerSerial, pairId := t.fer.pairId, pairCnt := t.fer.pairCnt, fleetRole := t.fer.fleetRole, wards := t.fer.wards, voucher := t.fer.voucher, lastSeq := t.fer.lastSeq }, bak := { s.bak with pairRoot := t.bak.pairRoot, fleetRoot := t.bak.fleetRoot }, fnt := { s.fnt with state := t.fnt.state, absorbed := t.fnt.absorbed, credit := t.fnt.credit, seed := t.fnt.seed, int := t.fnt.int, sw := t.fnt.sw, katBusy := t.fnt.katBusy, draws := t.fnt.draws, part := t.fnt.part, got := t.fnt.got, rng := t.fnt.rng, rngDone := t.fnt.rngDone, rngDead := t.fnt.rngDead }, curves := t.curves, xing := { s.xing with state := t.xing.state, mirror := t.xing.mirror, sess := t.xing.sess, aliveIn := t.xing.aliveIn, held := t.xing.held, stmt := t.xing.stmt, eph := t.xing.eph }, fleet := { s.fleet with tickPend := t.fleet.tickPend, tickFail := t.fleet.tickFail }, clk := { s.clk with corr := t.clk.corr, lock := t.clk.lock, marked := t.clk.marked, lastMark := t.clk.lastMark, lastE := t.clk.lastE, lastBeyond := t.clk.lastBeyond, base := t.clk.base, load := t.clk.load, syncOut := t.clk.syncOut }, chk := { s.chk with slotBad := t.chk.slotBad } } ∧ OtherRegs s t [Reg.CT_SYNC_ERR, Reg.CT_CMD, Reg.CT_SYNC_CNT, Reg.QUAY_RPL_HITS, Reg.RBT_LATE, Reg.MEWS_ASSIGN_SKIP, Reg.MEWS_REVOKES, Reg.COMP_AUTH_FAIL, Reg.COMP_DONE, Reg.XING_CMD, Reg.XING_LINK_ERR] [Reg.PAGE_STAT, Reg.INT_STAT, Reg.ERR_SYND, Reg.ERR_ADDR, Reg.FAULT_CNT, Reg.QUAY_LINK_STAT] [0x48, 0x49, 0x4A, 0x4B, 0x4C, 0x4D, 0x4E, 0x4F]) ∧
  (∀ (s : State) (e : Sess) (q : QueueNo) (w : Tbl Word) (win : List (Nat × Bytes)) (rx : XRx) (u : State), s.xing.sess = some e → rx.tags = frameTags s e (.queueRole q false w win) → u = { s with xing := { s.xing with aliveIn := rx.alive, sess := some { e with rx := e.rx + rx.tags.length } } } → 
    Answers (.frameReceive (.queueRole q false w win) rx) s fun t => (queueAt t q.val).role = 0 ∧ (∀ n, n ≠ q.val → queueAt t n = queueAt s n) ∧ t.out = s.out ∧ t = { s with out := t.out, tick := t.tick, regs := t.regs, parBad := t.parBad, wins := t.wins, quay := { s.quay with queues := t.quay.queues, doms := t.quay.doms, domRR := t.quay.domRR, ctxs := t.quay.ctxs, msix := t.quay.msix }, units := { s.units with cipher := t.units.cipher, hash := t.units.hash, arc := t.units.arc }, mews := { s.mews with slots := t.mews.slots, cascades := t.mews.cascades, heldOps := t.mews.heldOps }, kerb := { s.kerb with reports := t.kerb.reports }, fer := { s.fer with rsv := t.fer.rsv, dukpt := t.fer.dukpt, pairB := t.fer.pairB, peerSerial := t.fer.peerSerial, pairId := t.fer.pairId, pairCnt := t.fer.pairCnt, fleetRole := t.fer.fleetRole, wards := t.fer.wards, voucher := t.fer.voucher, lastSeq := t.fer.lastSeq }, bak := { s.bak with pairRoot := t.bak.pairRoot, fleetRoot := t.bak.fleetRoot }, fnt := { s.fnt with state := t.fnt.state, absorbed := t.fnt.absorbed, credit := t.fnt.credit, seed := t.fnt.seed, int := t.fnt.int, sw := t.fnt.sw, katBusy := t.fnt.katBusy, draws := t.fnt.draws, part := t.fnt.part, got := t.fnt.got, rng := t.fnt.rng, rngDone := t.fnt.rngDone, rngDead := t.fnt.rngDead }, curves := t.curves, xing := { s.xing with state := t.xing.state, mirror := t.xing.mirror, sess := t.xing.sess, aliveIn := t.xing.aliveIn, held := t.xing.held, stmt := t.xing.stmt, eph := t.xing.eph }, fleet := { s.fleet with tickPend := t.fleet.tickPend, tickFail := t.fleet.tickFail }, clk := { s.clk with corr := t.clk.corr, lock := t.clk.lock, marked := t.clk.marked, lastMark := t.clk.lastMark, lastE := t.clk.lastE, lastBeyond := t.clk.lastBeyond, base := t.clk.base, load := t.clk.load, syncOut := t.clk.syncOut }, chk := { s.chk with slotBad := t.chk.slotBad } } ∧ OtherRegs s t [Reg.CT_SYNC_ERR, Reg.CT_CMD, Reg.CT_SYNC_CNT, Reg.QUAY_RPL_HITS, Reg.RBT_LATE, Reg.MEWS_ASSIGN_SKIP, Reg.MEWS_REVOKES, Reg.COMP_AUTH_FAIL, Reg.COMP_DONE, Reg.XING_CMD, Reg.XING_LINK_ERR] [Reg.PAGE_STAT, Reg.INT_STAT, Reg.ERR_SYND, Reg.ERR_ADDR, Reg.FAULT_CNT, Reg.QUAY_LINK_STAT] [0x48, 0x49, 0x4A, 0x4B, 0x4C, 0x4D, 0x4E, 0x4F]) ∧
  (∀ (s : State) (e : Sess) (q : QueueNo) (tag : Nat) (cpl : Bytes) (rx : XRx) (u : State), s.xing.sess = some e → (queueAt s q.val).role = 2 → rx.tags = frameTags s e (.replay q tag cpl) → u = { s with xing := { s.xing with aliveIn := rx.alive, sess := some { e with rx := e.rx + rx.tags.length } } } → 
    Answers (.frameReceive (.replay q tag cpl) rx) s fun t => t = confirmFrame (storeReplay u q.val tag cpl) ∧ ((queueAt t q.val).win.getLast?.map fun x => (x.tag, x.cpl)) = some (tag, cpl) ∧ (queueAt t q.val).win.length = min 64 ((queueAt s q.val).win.length + 1)) ∧
  (∀ (s : State) (e : Sess) (q : QueueNo) (tag : Nat) (cpl : Bytes) (rx : XRx) (u : State), s.xing.sess = some e → (queueAt s q.val).role ≠ 2 → rx.tags = frameTags s e (.replay q tag cpl) → u = { s with xing := { s.xing with aliveIn := rx.alive, sess := some { e with rx := e.rx + rx.tags.length } } } → 
    Answers (.frameReceive (.replay q tag cpl) rx) s fun t => t = confirmFrame u) ∧
  (∀ (s : State) (e : Sess) (f : XFrame) (rx : XRx), s.xing.sess = some e → rx.tags ≠ frameTags s e f → 
    Answers (.frameReceive f rx) s fun t => t.xing = { s.xing with aliveIn := rx.alive, sess := none } ∧ fld t Reg.XING_LINK_ERR 15 0 = min 65535 (fld s Reg.XING_LINK_ERR 15 0 + 1) ∧ t.mews = s.mews ∧ t.fer = s.fer ∧ t = { s with out := t.out, tick := t.tick, regs := t.regs, parBad := t.parBad, wins := t.wins, quay := { s.quay with queues := t.quay.queues, doms := t.quay.doms, domRR := t.quay.domRR, ctxs := t.quay.ctxs, msix := t.quay.msix }, units := { s.units with cipher := t.units.cipher, hash := t.units.hash, arc := t.units.arc }, mews := { s.mews with slots := t.mews.slots, cascades := t.mews.cascades, heldOps := t.mews.heldOps }, kerb := { s.kerb with reports := t.kerb.reports }, fer := { s.fer with rsv := t.fer.rsv, dukpt := t.fer.dukpt, pairB := t.fer.pairB, peerSerial := t.fer.peerSerial, pairId := t.fer.pairId, pairCnt := t.fer.pairCnt, fleetRole := t.fer.fleetRole, wards := t.fer.wards, voucher := t.fer.voucher, lastSeq := t.fer.lastSeq }, bak := { s.bak with pairRoot := t.bak.pairRoot, fleetRoot := t.bak.fleetRoot }, fnt := { s.fnt with state := t.fnt.state, absorbed := t.fnt.absorbed, credit := t.fnt.credit, seed := t.fnt.seed, int := t.fnt.int, sw := t.fnt.sw, katBusy := t.fnt.katBusy, draws := t.fnt.draws, part := t.fnt.part, got := t.fnt.got, rng := t.fnt.rng, rngDone := t.fnt.rngDone, rngDead := t.fnt.rngDead }, curves := t.curves, xing := { s.xing with state := t.xing.state, mirror := t.xing.mirror, sess := t.xing.sess, aliveIn := t.xing.aliveIn, held := t.xing.held, stmt := t.xing.stmt, eph := t.xing.eph }, fleet := { s.fleet with tickPend := t.fleet.tickPend, tickFail := t.fleet.tickFail }, clk := { s.clk with corr := t.clk.corr, lock := t.clk.lock, marked := t.clk.marked, lastMark := t.clk.lastMark, lastE := t.clk.lastE, lastBeyond := t.clk.lastBeyond, base := t.clk.base, load := t.clk.load, syncOut := t.clk.syncOut }, chk := { s.chk with slotBad := t.chk.slotBad } } ∧ OtherRegs s t [Reg.CT_SYNC_ERR, Reg.CT_CMD, Reg.CT_SYNC_CNT, Reg.QUAY_RPL_HITS, Reg.RBT_LATE, Reg.MEWS_ASSIGN_SKIP, Reg.MEWS_REVOKES, Reg.COMP_AUTH_FAIL, Reg.COMP_DONE, Reg.XING_CMD, Reg.XING_LINK_ERR] [Reg.PAGE_STAT, Reg.INT_STAT, Reg.ERR_SYND, Reg.ERR_ADDR, Reg.FAULT_CNT, Reg.QUAY_LINK_STAT] [0x48, 0x49, 0x4A, 0x4B, 0x4C, 0x4D, 0x4E, 0x4F]) ∧
  (∀ (s : State) (f : XFrame) (rx : XRx), s.xing.sess = none → s.xing.stmt = none → 
    Answers (.frameReceive f rx) s fun t => t = { s with xing := { s.xing with aliveIn := rx.alive } }) ∧
  (∀ (s : State) (n : Nat) (i : MirrorItem), s.xing.mirror[n]? = some i → s.mews.zeroising = false ∨ commitsHere i.wait = false → 
    Answers (.mirrorConfirm n) s fun t => t = settleNow (setXing s { s.xing with mirror := s.xing.mirror.eraseIdx n }) i.wait) ∧
  (∀ (s : State) (n : Nat) (i : MirrorItem), s.xing.mirror[n]? = some i → s.mews.zeroising = true → commitsHere i.wait = true → 
    Answers (.mirrorConfirm n) s fun t => t = holdOp (setXing s { s.xing with mirror := s.xing.mirror.eraseIdx n }) (.back i.wait)) ∧
  (∀ (s : State) (n : Nat), s.xing.mirror.length ≤ n → 
    Answers (.mirrorConfirm n) s fun t => t = s) ∧
  (∀ (s : State) (n r : Nat) (i : MirrorItem), s.xing.mirror[n]? = some i → i.wait = .qcmd r → r < 16 → 
    Answers (.mirrorConfirm n) s fun t => fld t Reg.QUAY_QCMD 7 4 = r ∧ t.xing.mirror = s.xing.mirror.eraseIdx n ∧ t = { s with out := t.out, regs := t.regs, parBad := t.parBad, wins := t.wins, quay := { s.quay with queues := t.quay.queues, doms := t.quay.doms, domRR := t.quay.domRR, ctxs := t.quay.ctxs, nextAcc := t.quay.nextAcc, msix := t.quay.msix }, units := { s.units with cipher := t.units.cipher, hash := t.units.hash, arc := t.units.arc }, mews := { s.mews with slots := t.mews.slots, assign := t.mews.assign, cascades := t.mews.cascades, heldOps := t.mews.heldOps, ctrs := t.mews.ctrs, dukpt := t.mews.dukpt }, kerb := { s.kerb with reports := t.kerb.reports }, fer := { s.fer with fleetRole := t.fer.fleetRole, wards := t.fer.wards, voucher := t.fer.voucher, lastSeq := t.fer.lastSeq }, bak := { s.bak with fleetRoot := t.bak.fleetRoot }, fnt := { s.fnt with state := t.fnt.state, absorbed := t.fnt.absorbed, credit := t.fnt.credit, seed := t.fnt.seed, int := t.fnt.int, sw := t.fnt.sw, katBusy := t.fnt.katBusy, draws := t.fnt.draws, part := t.fnt.part, got := t.fnt.got, rng := t.fnt.rng, rngDone := t.fnt.rngDone, rngDead := t.fnt.rngDead }, curves := t.curves, xing := { s.xing with mirror := t.xing.mirror, sess := t.xing.sess }, fleet := { s.fleet with held := t.fleet.held }, chk := { s.chk with slotBad := t.chk.slotBad } } ∧ OtherRegs s t [Reg.QUAY_QCMD, Reg.QUAY_RPL_HITS, Reg.RBT_LATE, Reg.MEWS_ASSIGN_SKIP, Reg.MEWS_REVOKES, Reg.COMP_AUTH_FAIL, Reg.COMP_DONE, Reg.FLEET_CMD] [Reg.PAGE_STAT, Reg.INT_STAT, Reg.ERR_SYND, Reg.ERR_ADDR, Reg.FAULT_CNT, Reg.QUAY_LINK_STAT, Reg.QUAY_LINK_CTRL, Reg.QUAY_GRP_ROUTE, Reg.QUAY_DMA_OUTST, Reg.ARC_LAST] []) ∧
  (∀ (s : State) (n r : Nat) (i : MirrorItem), s.xing.mirror[n]? = some i → i.wait = .fleet none r → r < 16 → 
    Answers (.mirrorConfirm n) s fun t => fld t Reg.FLEET_CMD 7 4 = r ∧ t.fleet.held = none ∧ t.xing.mirror = s.xing.mirror.eraseIdx n ∧ t = { s with out := t.out, regs := t.regs, parBad := t.parBad, wins := t.wins, quay := { s.quay with queues := t.quay.queues, doms := t.quay.doms, domRR := t.quay.domRR, ctxs := t.quay.ctxs, nextAcc := t.quay.nextAcc, msix := t.quay.msix }, units := { s.units with cipher := t.units.cipher, hash := t.units.hash, arc := t.units.arc }, mews := { s.mews with slots := t.mews.slots, assign := t.mews.assign, cascades := t.mews.cascades, heldOps := t.mews.heldOps, ctrs := t.mews.ctrs, dukpt := t.mews.dukpt }, kerb := { s.kerb with reports := t.kerb.reports }, fer := { s.fer with fleetRole := t.fer.fleetRole, wards := t.fer.wards, voucher := t.fer.voucher, lastSeq := t.fer.lastSeq }, bak := { s.bak with fleetRoot := t.bak.fleetRoot }, fnt := { s.fnt with state := t.fnt.state, absorbed := t.fnt.absorbed, credit := t.fnt.credit, seed := t.fnt.seed, int := t.fnt.int, sw := t.fnt.sw, katBusy := t.fnt.katBusy, draws := t.fnt.draws, part := t.fnt.part, got := t.fnt.got, rng := t.fnt.rng, rngDone := t.fnt.rngDone, rngDead := t.fnt.rngDead }, curves := t.curves, xing := { s.xing with mirror := t.xing.mirror, sess := t.xing.sess }, fleet := { s.fleet with held := t.fleet.held }, chk := { s.chk with slotBad := t.chk.slotBad } } ∧ OtherRegs s t [Reg.QUAY_QCMD, Reg.QUAY_RPL_HITS, Reg.RBT_LATE, Reg.MEWS_ASSIGN_SKIP, Reg.MEWS_REVOKES, Reg.COMP_AUTH_FAIL, Reg.COMP_DONE, Reg.FLEET_CMD] [Reg.PAGE_STAT, Reg.INT_STAT, Reg.ERR_SYND, Reg.ERR_ADDR, Reg.FAULT_CNT, Reg.QUAY_LINK_STAT, Reg.QUAY_LINK_CTRL, Reg.QUAY_GRP_ROUTE, Reg.QUAY_DMA_OUTST, Reg.ARC_LAST] []) ∧
  (∀ (s : State) (n : Nat) (i : MirrorItem) (c : CtxNo) (x : Ctx) (f : CmdEnd), s.xing.mirror[n]? = some i → i.wait = .finish c.val f → ctxAt s c.val = some x → x.silent = false → linkUp s (fnPort (qFunc (queueAt s x.q))) = true → covered (queueAt s x.q) true (qCqBase (queueAt s x.q) + 32 * (queueAt s x.q).cqTail) 32 = true → 
    Answers (.mirrorConfirm n) s fun t => Completed s t c.val x f ∧ t = { s with out := t.out, regs := t.regs, parBad := t.parBad, wins := t.wins, quay := { s.quay with queues := t.quay.queues, doms := t.quay.doms, domRR := t.quay.domRR, ctxs := t.quay.ctxs, nextAcc := t.quay.nextAcc, msix := t.quay.msix }, units := { s.units with cipher := t.units.cipher, hash := t.units.hash, arc := t.units.arc }, mews := { s.mews with slots := t.mews.slots, assign := t.mews.assign, cascades := t.mews.cascades, heldOps := t.mews.heldOps, ctrs := t.mews.ctrs, dukpt := t.mews.dukpt }, kerb := { s.kerb with reports := t.kerb.reports }, fer := { s.fer with fleetRole := t.fer.fleetRole, wards := t.fer.wards, voucher := t.fer.voucher, lastSeq := t.fer.lastSeq }, bak := { s.bak with fleetRoot := t.bak.fleetRoot }, fnt := { s.fnt with state := t.fnt.state, absorbed := t.fnt.absorbed, credit := t.fnt.credit, seed := t.fnt.seed, int := t.fnt.int, sw := t.fnt.sw, katBusy := t.fnt.katBusy, draws := t.fnt.draws, part := t.fnt.part, got := t.fnt.got, rng := t.fnt.rng, rngDone := t.fnt.rngDone, rngDead := t.fnt.rngDead }, curves := t.curves, xing := { s.xing with mirror := t.xing.mirror, sess := t.xing.sess }, fleet := { s.fleet with held := t.fleet.held }, chk := { s.chk with slotBad := t.chk.slotBad } } ∧ OtherRegs s t [Reg.QUAY_QCMD, Reg.QUAY_RPL_HITS, Reg.RBT_LATE, Reg.MEWS_ASSIGN_SKIP, Reg.MEWS_REVOKES, Reg.COMP_AUTH_FAIL, Reg.COMP_DONE, Reg.FLEET_CMD] [Reg.PAGE_STAT, Reg.INT_STAT, Reg.ERR_SYND, Reg.ERR_ADDR, Reg.FAULT_CNT, Reg.QUAY_LINK_STAT, Reg.QUAY_LINK_CTRL, Reg.QUAY_GRP_ROUTE, Reg.QUAY_DMA_OUTST, Reg.ARC_LAST] []) ∧
  (∀ (s : State) (e : Sess), s.xing.sess = some e → xaliveOut s = true → 
    Answers (.heartbeatSend) s fun t => (∃ p g, t.out = .xing (fill 16 0) p g :: s.out ∧ p.length = 16 ∧ g.length = 16) ∧ t.xing = { s.xing with sess := some { e with tx := e.tx + 1 } } ∧ t = { s with out := t.out, xing := { s.xing with sess := t.xing.sess } }) ∧
  (∀ (s : State), xaliveOut s = false ∨ s.xing.sess = none → 
    Answers (.heartbeatSend) s fun t => t = s) ∧
  (∀ (s : State), 
    Answers (.internalHeartbeatLoss) s fun t => t = { s with xing := { s.xing with hbLost := true, wave := false }, out := if s.xing.wave then .pin "XALIVE_OUT" 0 :: s.out else s.out }) ∧
  (∀ (s : State), s.xing.link = true → s.xing.state = 2 ∨ s.xing.state = 3 → s.xing.seqr = true → 
    Answers (.xingLinkLost) s fun t => t.xing.state = 4 ∧ t.xing.seqr = true ∧ t.xing.link = false ∧ t.xing.sess = none ∧ t.xing.mirror = [] ∧ t = { s with out := t.out, regs := t.regs, parBad := t.parBad, wins := t.wins, quay := { s.quay with queues := t.quay.queues, doms := t.quay.doms, domRR := t.quay.domRR, ctxs := t.quay.ctxs, nextAcc := t.quay.nextAcc, msix := t.quay.msix }, units := { s.units with cipher := t.units.cipher, hash := t.units.hash, arc := t.units.arc }, mews := { s.mews with slots := t.mews.slots, assign := t.mews.assign, cascades := t.mews.cascades, heldOps := t.mews.heldOps, ctrs := t.mews.ctrs, dukpt := t.mews.dukpt }, life := { s.life with op := t.life.op }, kerb := { s.kerb with reports := t.kerb.reports }, fer := { s.fer with fleetRole := t.fer.fleetRole, wards := t.fer.wards, voucher := t.fer.voucher, lastSeq := t.fer.lastSeq }, bak := { s.bak with cust := t.bak.cust, fleetRoot := t.bak.fleetRoot }, fnt := { s.fnt with state := t.fnt.state, absorbed := t.fnt.absorbed, credit := t.fnt.credit, seed := t.fnt.seed, int := t.fnt.int, sw := t.fnt.sw, katBusy := t.fnt.katBusy, draws := t.fnt.draws, part := t.fnt.part, got := t.fnt.got, rng := t.fnt.rng, rngDone := t.fnt.rngDone, rngDead := t.fnt.rngDead }, curves := t.curves, xing := { s.xing with state := t.xing.state, seqr := t.xing.seqr, mirror := t.xing.mirror, link := t.xing.link, sess := t.xing.sess, upWait := t.xing.upWait, deciding := t.xing.deciding, failing := t.xing.failing }, fleet := { s.fleet with held := t.fleet.held }, chk := { s.chk with slotBad := t.chk.slotBad } } ∧ OtherRegs s t [Reg.QUAY_QCMD, Reg.QUAY_RPL_HITS, Reg.RBT_LATE, Reg.MEWS_ASSIGN_CMD, Reg.MEWS_ASSIGN_SKIP, Reg.MEWS_REVOKES, Reg.COMP_AUTH_FAIL, Reg.COMP_DONE, Reg.FLEET_CMD] [Reg.PAGE_STAT, Reg.INT_STAT, Reg.ERR_SYND, Reg.ERR_ADDR, Reg.FAULT_CNT, Reg.QUAY_LINK_STAT, Reg.QUAY_LINK_CTRL, Reg.QUAY_GRP_ROUTE, Reg.QUAY_DMA_OUTST, Reg.ARC_LAST] []) ∧
  (∀ (s : State), s.xing.link = true → s.xing.state = 2 ∨ s.xing.state = 3 → s.xing.seqr = false → 
    Answers (.xingLinkLost) s fun t => t.xing = { s.xing with link := false, sess := none, upWait := none, deciding := true } ∧ t = { s with out := t.out, regs := t.regs, parBad := t.parBad, wins := t.wins, quay := { s.quay with queues := t.quay.queues, doms := t.quay.doms, domRR := t.quay.domRR, ctxs := t.quay.ctxs, nextAcc := t.quay.nextAcc, msix := t.quay.msix }, units := { s.units with cipher := t.units.cipher, hash := t.units.hash, arc := t.units.arc }, mews := { s.mews with slots := t.mews.slots, assign := t.mews.assign, cascades := t.mews.cascades, heldOps := t.mews.heldOps, ctrs := t.mews.ctrs, dukpt := t.mews.dukpt }, life := { s.life with op := t.life.op }, kerb := { s.kerb with reports := t.kerb.reports }, fer := { s.fer with fleetRole := t.fer.fleetRole, wards := t.fer.wards, voucher := t.fer.voucher, lastSeq := t.fer.lastSeq }, bak := { s.bak with cust := t.bak.cust, fleetRoot := t.bak.fleetRoot }, fnt := { s.fnt with state := t.fnt.state, absorbed := t.fnt.absorbed, credit := t.fnt.credit, seed := t.fnt.seed, int := t.fnt.int, sw := t.fnt.sw, katBusy := t.fnt.katBusy, draws := t.fnt.draws, part := t.fnt.part, got := t.fnt.got, rng := t.fnt.rng, rngDone := t.fnt.rngDone, rngDead := t.fnt.rngDead }, curves := t.curves, xing := { s.xing with state := t.xing.state, seqr := t.xing.seqr, mirror := t.xing.mirror, link := t.xing.link, sess := t.xing.sess, upWait := t.xing.upWait, deciding := t.xing.deciding, failing := t.xing.failing }, fleet := { s.fleet with held := t.fleet.held }, chk := { s.chk with slotBad := t.chk.slotBad } } ∧ OtherRegs s t [Reg.QUAY_QCMD, Reg.QUAY_RPL_HITS, Reg.RBT_LATE, Reg.MEWS_ASSIGN_CMD, Reg.MEWS_ASSIGN_SKIP, Reg.MEWS_REVOKES, Reg.COMP_AUTH_FAIL, Reg.COMP_DONE, Reg.FLEET_CMD] [Reg.PAGE_STAT, Reg.INT_STAT, Reg.ERR_SYND, Reg.ERR_ADDR, Reg.FAULT_CNT, Reg.QUAY_LINK_STAT, Reg.QUAY_LINK_CTRL, Reg.QUAY_GRP_ROUTE, Reg.QUAY_DMA_OUTST, Reg.ARC_LAST] []) ∧
  (∀ (s : State), s.xing.link = true → s.xing.state ≠ 2 → s.xing.state ≠ 3 → 
    Answers (.xingLinkLost) s fun t => t.xing = { s.xing with link := false, sess := none, upWait := none } ∧ t = { s with out := t.out, regs := t.regs, parBad := t.parBad, wins := t.wins, quay := { s.quay with queues := t.quay.queues, doms := t.quay.doms, domRR := t.quay.domRR, ctxs := t.quay.ctxs, nextAcc := t.quay.nextAcc, msix := t.quay.msix }, units := { s.units with cipher := t.units.cipher, hash := t.units.hash, arc := t.units.arc }, mews := { s.mews with slots := t.mews.slots, assign := t.mews.assign, cascades := t.mews.cascades, heldOps := t.mews.heldOps, ctrs := t.mews.ctrs, dukpt := t.mews.dukpt }, life := { s.life with op := t.life.op }, kerb := { s.kerb with reports := t.kerb.reports }, fer := { s.fer with fleetRole := t.fer.fleetRole, wards := t.fer.wards, voucher := t.fer.voucher, lastSeq := t.fer.lastSeq }, bak := { s.bak with cust := t.bak.cust, fleetRoot := t.bak.fleetRoot }, fnt := { s.fnt with state := t.fnt.state, absorbed := t.fnt.absorbed, credit := t.fnt.credit, seed := t.fnt.seed, int := t.fnt.int, sw := t.fnt.sw, katBusy := t.fnt.katBusy, draws := t.fnt.draws, part := t.fnt.part, got := t.fnt.got, rng := t.fnt.rng, rngDone := t.fnt.rngDone, rngDead := t.fnt.rngDead }, curves := t.curves, xing := { s.xing with state := t.xing.state, seqr := t.xing.seqr, mirror := t.xing.mirror, link := t.xing.link, sess := t.xing.sess, upWait := t.xing.upWait, deciding := t.xing.deciding, failing := t.xing.failing }, fleet := { s.fleet with held := t.fleet.held }, chk := { s.chk with slotBad := t.chk.slotBad } } ∧ OtherRegs s t [Reg.QUAY_QCMD, Reg.QUAY_RPL_HITS, Reg.RBT_LATE, Reg.MEWS_ASSIGN_CMD, Reg.MEWS_ASSIGN_SKIP, Reg.MEWS_REVOKES, Reg.COMP_AUTH_FAIL, Reg.COMP_DONE, Reg.FLEET_CMD] [Reg.PAGE_STAT, Reg.INT_STAT, Reg.ERR_SYND, Reg.ERR_ADDR, Reg.FAULT_CNT, Reg.QUAY_LINK_STAT, Reg.QUAY_LINK_CTRL, Reg.QUAY_GRP_ROUTE, Reg.QUAY_DMA_OUTST, Reg.ARC_LAST] []) ∧
  (∀ (s : State), s.xing.link = false → 
    Answers (.xingLinkLost) s fun t => t = s) ∧
  (∀ (s : State) (stopped : Bool), s.xing.deciding = true → 
    Answers (.partnerDecision stopped) s fun t => t.xing.state = (if stopped then 4 else 5) ∧ t.xing.seqr = (stopped || s.xing.seqr) ∧ t.xing.deciding = false ∧ t.xing.aliveIn = !stopped ∧ t = { s with out := t.out, regs := t.regs, parBad := t.parBad, wins := t.wins, quay := { s.quay with queues := t.quay.queues, doms := t.quay.doms, domRR := t.quay.domRR, ctxs := t.quay.ctxs, nextAcc := t.quay.nextAcc, msix := t.quay.msix }, units := { s.units with cipher := t.units.cipher, hash := t.units.hash, arc := t.units.arc }, mews := { s.mews with slots := t.mews.slots, assign := t.mews.assign, cascades := t.mews.cascades, heldOps := t.mews.heldOps, ctrs := t.mews.ctrs, dukpt := t.mews.dukpt }, life := { s.life with op := t.life.op }, kerb := { s.kerb with reports := t.kerb.reports }, fer := { s.fer with fleetRole := t.fer.fleetRole, wards := t.fer.wards, voucher := t.fer.voucher, lastSeq := t.fer.lastSeq }, bak := { s.bak with cust := t.bak.cust, fleetRoot := t.bak.fleetRoot }, fnt := { s.fnt with state := t.fnt.state, absorbed := t.fnt.absorbed, credit := t.fnt.credit, seed := t.fnt.seed, int := t.fnt.int, sw := t.fnt.sw, katBusy := t.fnt.katBusy, draws := t.fnt.draws, part := t.fnt.part, got := t.fnt.got, rng := t.fnt.rng, rngDone := t.fnt.rngDone, rngDead := t.fnt.rngDead }, curves := t.curves, xing := { s.xing with state := t.xing.state, seqr := t.xing.seqr, mirror := t.xing.mirror, sess := t.xing.sess, aliveIn := t.xing.aliveIn, deciding := t.xing.deciding, failing := t.xing.failing }, fleet := { s.fleet with held := t.fleet.held }, chk := { s.chk with slotBad := t.chk.slotBad } } ∧ OtherRegs s t [Reg.QUAY_QCMD, Reg.QUAY_RPL_HITS, Reg.RBT_LATE, Reg.MEWS_ASSIGN_CMD, Reg.MEWS_ASSIGN_SKIP, Reg.MEWS_REVOKES, Reg.COMP_AUTH_FAIL, Reg.COMP_DONE, Reg.FLEET_CMD] [Reg.PAGE_STAT, Reg.INT_STAT, Reg.ERR_SYND, Reg.ERR_ADDR, Reg.FAULT_CNT, Reg.QUAY_LINK_STAT, Reg.QUAY_LINK_CTRL, Reg.QUAY_GRP_ROUTE, Reg.QUAY_DMA_OUTST, Reg.ARC_LAST] []) ∧
  (∀ (s : State) (stopped : Bool), s.xing.deciding = false → 
    Answers (.partnerDecision stopped) s fun t => t = s) ∧
  (∀ (s : State), s.xing.failing ≠ [] → 
    Answers (.failover) s fun t => t.xing = { s.xing with failing := [] } ∧ (∀ q ∈ s.xing.failing, (queueAt t q).role = 0) ∧ t = { s with out := t.out, regs := t.regs, parBad := t.parBad, quay := { s.quay with queues := t.quay.queues, msix := t.quay.msix }, xing := { s.xing with failing := t.xing.failing } } ∧ OtherRegs s t [] [Reg.INT_STAT] []) ∧
  (∀ (s : State), s.xing.failing = [] → 
    Answers (.failover) s fun t => t = s) ∧
  (∀ (s : State) (n : BitVec 16), s.xing.sess.isSome = true → 
    Answers (.rttMeasure n) s fun t => reg t Reg.XING_RTT = BitVec.ofNat 32 n.toNat ∧ t.xing = s.xing ∧ t = { s with regs := t.regs, parBad := t.parBad } ∧ OtherRegs s t [Reg.XING_RTT] [] []) ∧
  (∀ (s : State) (n : BitVec 16), s.xing.sess = none → 
    Answers (.rttMeasure n) s fun t => t = s) ∧
  (∀ (s : State) (src : Src) (v : BitVec 32) (d : Bool), Reaches s src Reg.XING_QROLE → wbits v 1 0 = 0 → 
    Answers (.xingQroleWrite src v d) s fun t => (queueAt t (fld s Reg.XING_QSEL 13 0)).role = 0 ∧ (∀ q, q ≠ (fld s Reg.XING_QSEL 13 0) → queueAt t q = queueAt s q) ∧ t.xing.mirror.length = s.xing.mirror.length + (if (queueAt s (fld s Reg.XING_QSEL 13 0)).role = 0 then 0 else 1) ∧ t = { s with out := t.out, regs := t.regs, parBad := t.parBad, quay := { s.quay with queues := t.quay.queues, msix := t.quay.msix }, xing := { s.xing with mirror := t.xing.mirror, sess := t.xing.sess } } ∧ OtherRegs s t [] [Reg.INT_STAT, Reg.ERR_SYND, Reg.ERR_ADDR] []) ∧
  (∀ (s : State) (src : Src) (v : BitVec 32), Reaches s src Reg.XING_QROLE → wbits v 1 0 = 1 → paired s = true → (queueAt s (fld s Reg.XING_QSEL 13 0)).state = .disabled → 
    Answers (.xingQroleWrite src v true) s fun t => queueAt t (fld s Reg.XING_QSEL 13 0) = { queueAt s (fld s Reg.XING_QSEL 13 0) with role := 1 } ∧ (∀ q, q ≠ (fld s Reg.XING_QSEL 13 0) → queueAt t q = queueAt s q) ∧ (t.xing.mirror.getLast?.map fun i => (i.kind, i.wait, i.body)) = some (10, .record, roleBody (fld s Reg.XING_QSEL 13 0) true (queueAt s (fld s Reg.XING_QSEL 13 0)).rec' ((queueAt s (fld s Reg.XING_QSEL 13 0)).win.map fun e => (e.tag, e.cpl))) ∧ t.xing.mirror.length = s.xing.mirror.length + 1 ∧ t = { s with out := t.out, regs := t.regs, parBad := t.parBad, quay := { s.quay with queues := t.quay.queues, msix := t.quay.msix }, xing := { s.xing with mirror := t.xing.mirror, sess := t.xing.sess } } ∧ OtherRegs s t [] [Reg.INT_STAT, Reg.ERR_SYND, Reg.ERR_ADDR] []) ∧
  (∀ (s : State) (src : Src) (v : BitVec 32) (d : Bool), Reaches s src Reg.XING_QROLE → wbits v 1 0 ≠ 0 → wbits v 1 0 ≠ 1 ∨ paired s = false ∨ (queueAt s (fld s Reg.XING_QSEL 13 0)).state ≠ .disabled ∨ d = false → rbit s (rk 0x48 Reg.ERR_SYND) 23 = false → 
    Answers (.xingQroleWrite src v d) s fun t => t.quay.queues = s.quay.queues ∧ t.xing = s.xing ∧ fld t (rk 0x48 Reg.ERR_SYND) 31 24 = 0x12 ∧ t = { s with out := t.out, regs := t.regs, parBad := t.parBad, quay := { s.quay with queues := t.quay.queues, msix := t.quay.msix }, xing := { s.xing with mirror := t.xing.mirror, sess := t.xing.sess } } ∧ OtherRegs s t [] [Reg.INT_STAT, Reg.ERR_SYND, Reg.ERR_ADDR] [])

/-- Where its lifecycle state and role allow it: FOUND, with an Arcade unit idle, draws a fleet root and makes the device the Town Hall; ENROL, on its unit and with its draw, checks the voucher and stores the Ward's key and voucher; ADMIT checks voucher and request and stores the Ward entry; MAKE raises the Ward's sequence number and writes the parcel to FLEET_BUF; ACCEPT of a good parcel records its number and loads the tick at the next marker, dissolves the fleet, or writes the key; RETIRE_WARD empties the entry; DISSOLVE erases the fleet record. Each ends with the first RESULT that applies; one with no unit ends with RESULT 8, one whose unit or draw is not there waits, and goes on when a generate request has brought the draw; with a partner a Ward entry and a key are mirrored before the command ends. A command while one runs is recorded and has no other effect. Each clause names what may change beside; every other part of the state and every other register is as before. Forms whose completion it states: found, enrol, fleetAdmit, make, accept, retireWard, dissolve, drbgGenerate. (R276, R294, R453, R462, R463, R464, R465, R466, R469) -/
def Obligations.FleetEffects : Prop :=
  (∀ (s : State) (src : Src) (n : Nat) (b r : Bytes), Reaches s src Reg.FLEET_CMD → fleetBusy s = false → twinState s = true → s.fer.fleetRole = 0 → UnitReady s whoFleet n b → drawn s whoRoot = some r → 
    Answers (.found src) s fun t => t.bak = { s.bak with fleetRoot := some r } ∧ t.fer = { s.fer with fleetRole := 1, fleetId := fleetIdReg s } ∧ buf t 0 (p256Public (townKex t) ++ p256Public (townSig t)).length = p256Public (townKex t) ++ p256Public (townSig t) ∧ (aunit t n).internal = none ∧ fld t Reg.FLEET_CMD 7 4 = 0 ∧ t = { s with out := t.out, regs := t.regs, parBad := t.parBad, quay := { s.quay with msix := t.quay.msix }, units := { s.units with arc := t.units.arc }, fer := { s.fer with fleetRole := t.fer.fleetRole, fleetId := t.fer.fleetId }, bak := { s.bak with fleetRoot := t.bak.fleetRoot }, fnt := { s.fnt with draws := t.fnt.draws, part := t.fnt.part, got := t.fnt.got, rng := t.fnt.rng, rngDone := t.fnt.rngDone, rngDead := t.fnt.rngDead }, fleet := { s.fleet with held := t.fleet.held } } ∧ OtherRegs s t [Reg.FLEET_CMD] [Reg.INT_STAT, Reg.ERR_SYND, Reg.ERR_ADDR] [0x49, 0x4A, 0x4B, 0x4C, 0x4D, 0x4E, 0x4F]) ∧
  (∀ (s : State) (src : Src) (n : Nat) (b : Bytes), Reaches s src Reg.FLEET_CMD → fleetBusy s = false → twinState s = true → s.fer.fleetRole = 0 → UnitReady s whoFleet n b → drawn s whoRoot = none → (s.fnt.draws.any fun e => e.2 == whoRoot) = false → 
    Answers (.found src) s fun t => t.fleet = { s.fleet with held := some .foundRoot } ∧ t.fnt.draws = s.fnt.draws ++ [(0, whoRoot)] ∧ (aunit t n).internal = none ∧ t.bak = s.bak ∧ t.fer = s.fer ∧ t = { s with out := t.out, regs := t.regs, parBad := t.parBad, quay := { s.quay with msix := t.quay.msix }, units := { s.units with arc := t.units.arc }, fer := { s.fer with fleetRole := t.fer.fleetRole, fleetId := t.fer.fleetId }, bak := { s.bak with fleetRoot := t.bak.fleetRoot }, fnt := { s.fnt with draws := t.fnt.draws, part := t.fnt.part, got := t.fnt.got, rng := t.fnt.rng, rngDone := t.fnt.rngDone, rngDead := t.fnt.rngDead }, fleet := { s.fleet with held := t.fleet.held } } ∧ OtherRegs s t [Reg.FLEET_CMD] [Reg.INT_STAT, Reg.ERR_SYND, Reg.ERR_ADDR] [0x49, 0x4A, 0x4B, 0x4C, 0x4D, 0x4E, 0x4F]) ∧
  (∀ (s : State) (src : Src) (n : Nat), Reaches s src Reg.FLEET_CMD → fleetBusy s = false → twinState s = true → s.fer.fleetRole = 0 → UnitFree s whoFleet n → 
    Answers (.found src) s fun t => t.fleet = { s.fleet with held := some .found } ∧ (aunit t n).internal = some whoFleet ∧ t.fnt.draws = s.fnt.draws ++ [(9 + n, whoFleet)] ∧ t.bak = s.bak ∧ t.fer = s.fer ∧ t = { s with out := t.out, regs := t.regs, parBad := t.parBad, quay := { s.quay with msix := t.quay.msix }, units := { s.units with arc := t.units.arc }, fer := { s.fer with fleetRole := t.fer.fleetRole, fleetId := t.fer.fleetId }, bak := { s.bak with fleetRoot := t.bak.fleetRoot }, fnt := { s.fnt with draws := t.fnt.draws, part := t.fnt.part, got := t.fnt.got, rng := t.fnt.rng, rngDone := t.fnt.rngDone, rngDead := t.fnt.rngDead }, fleet := { s.fleet with held := t.fleet.held } } ∧ OtherRegs s t [Reg.FLEET_CMD] [Reg.INT_STAT, Reg.ERR_SYND, Reg.ERR_ADDR] [0x49, 0x4A, 0x4B, 0x4C, 0x4D, 0x4E, 0x4F]) ∧
  (∀ (s : State) (src : Src) (n : Nat), Reaches s src Reg.FLEET_CMD → fleetBusy s = false → twinState s = true → s.fer.fleetRole = 0 → UnitBusy s whoFleet n → 
    Answers (.found src) s fun t => t.fleet = { s.fleet with held := some .found } ∧ t.fnt = s.fnt ∧ t.bak = s.bak ∧ t.fer = s.fer ∧ t = { s with out := t.out, regs := t.regs, parBad := t.parBad, quay := { s.quay with msix := t.quay.msix }, units := { s.units with arc := t.units.arc }, fer := { s.fer with fleetRole := t.fer.fleetRole, fleetId := t.fer.fleetId }, bak := { s.bak with fleetRoot := t.bak.fleetRoot }, fnt := { s.fnt with draws := t.fnt.draws, part := t.fnt.part, got := t.fnt.got, rng := t.fnt.rng, rngDone := t.fnt.rngDone, rngDead := t.fnt.rngDead }, fleet := { s.fleet with held := t.fleet.held } } ∧ OtherRegs s t [Reg.FLEET_CMD] [Reg.INT_STAT, Reg.ERR_SYND, Reg.ERR_ADDR] [0x49, 0x4A, 0x4B, 0x4C, 0x4D, 0x4E, 0x4F]) ∧
  (∀ (s : State) (src : Src), Reaches s src Reg.FLEET_CMD → fleetBusy s = false → twinState s = true → s.fer.fleetRole = 0 → UnitNone s whoFleet → 
    Answers (.found src) s fun t => fld t Reg.FLEET_CMD 7 4 = 8 ∧ t.bak = s.bak ∧ t.fer = s.fer ∧ t = { s with out := t.out, regs := t.regs, parBad := t.parBad, quay := { s.quay with msix := t.quay.msix }, units := { s.units with arc := t.units.arc }, fer := { s.fer with fleetRole := t.fer.fleetRole, fleetId := t.fer.fleetId }, bak := { s.bak with fleetRoot := t.bak.fleetRoot }, fnt := { s.fnt with draws := t.fnt.draws, part := t.fnt.part, got := t.fnt.got, rng := t.fnt.rng, rngDone := t.fnt.rngDone, rngDead := t.fnt.rngDead }, fleet := { s.fleet with held := t.fleet.held } } ∧ OtherRegs s t [Reg.FLEET_CMD] [Reg.INT_STAT, Reg.ERR_SYND, Reg.ERR_ADDR] [0x49, 0x4A, 0x4B, 0x4C, 0x4D, 0x4E, 0x4F]) ∧
  (∀ (s : State) (src : Src), Reaches s src Reg.FLEET_CMD → fleetBusy s = false → twinState s = true → s.fer.fleetRole ≠ 0 → 
    Answers (.found src) s fun t => fld t Reg.FLEET_CMD 7 4 = 1 ∧ t.bak = s.bak ∧ t.fer = s.fer ∧ t = { s with out := t.out, regs := t.regs, parBad := t.parBad, quay := { s.quay with msix := t.quay.msix }, units := { s.units with arc := t.units.arc }, fer := { s.fer with fleetRole := t.fer.fleetRole, fleetId := t.fer.fleetId }, bak := { s.bak with fleetRoot := t.bak.fleetRoot }, fnt := { s.fnt with draws := t.fnt.draws, part := t.fnt.part, got := t.fnt.got, rng := t.fnt.rng, rngDone := t.fnt.rngDone, rngDead := t.fnt.rngDead }, fleet := { s.fleet with held := t.fleet.held } } ∧ OtherRegs s t [Reg.FLEET_CMD] [Reg.INT_STAT, Reg.ERR_SYND, Reg.ERR_ADDR] [0x49, 0x4A, 0x4B, 0x4C, 0x4D, 0x4E, 0x4F]) ∧
  (∀ (s : State) (src : Src) (v b : Bytes) (n fails : Nat), Reaches s src Reg.FLEET_CMD → fleetBusy s = false → twinState s = true → s.fer.fleetRole = 0 ∨ (s.fer.fleetRole = 2 ∧ s.bak.fleetRoot = none) → v = buf s 0 224 → UnitReady s whoFleet n b → 
    Answers (.enrol src fails) s fun t => (aunit t n).internal = none ∧ (if voucherOk s v = false then fld t Reg.FLEET_CMD 7 4 = 2 ∧ t.bak = s.bak ∧ t.fer = s.fer
      else if vWard v ≠ ownSerial then fld t Reg.FLEET_CMD 7 4 = 3 ∧ t.bak = s.bak ∧ t.fer = s.fer
      else match p256Agree (newP256 b).1 (vKex v) with
      | none => fld t Reg.FLEET_CMD 7 4 = 2 ∧ t.bak = s.bak ∧ t.fer = s.fer
      | some z => if 3 ≤ fails then fld t Reg.FLEET_CMD 7 4 = 9 ∧ t.bak = s.bak ∧ t.fer = s.fer else fld t Reg.FLEET_CMD 7 4 = 0 ∧ t.bak = { s.bak with fleetRoot := some (wardKey z v) } ∧ t.fer = { s.fer with fleetRole := 2, fleetId := vFleet v, voucher := v, lastSeq := 0 }
        ∧ buf t 0xE0 80 = toLe 8 ownSerial ++ toLe 2 (vIndex v) ++ fill 6 0 ++ (newP256 b).2 ∧ buf t 0x130 16 = fit 16 (cmacOf 3 (wardKey z v) (buf t 0xE0 80))) ∧ t = { s with out := t.out, regs := t.regs, parBad := t.parBad, quay := { s.quay with msix := t.quay.msix }, units := { s.units with arc := t.units.arc }, fer := { s.fer with fleetRole := t.fer.fleetRole, fleetId := t.fer.fleetId, voucher := t.fer.voucher, lastSeq := t.fer.lastSeq }, bak := { s.bak with fleetRoot := t.bak.fleetRoot }, fnt := { s.fnt with draws := t.fnt.draws, part := t.fnt.part, got := t.fnt.got, rng := t.fnt.rng, rngDone := t.fnt.rngDone, rngDead := t.fnt.rngDead }, fleet := { s.fleet with held := t.fleet.held } } ∧ OtherRegs s t [Reg.FLEET_CMD, Reg.FLEET_ID_LO, Reg.FLEET_ID_HI] [Reg.INT_STAT, Reg.ERR_SYND, Reg.ERR_ADDR] [0x49, 0x4A, 0x4B, 0x4C, 0x4D, 0x4E, 0x4F]) ∧
  (∀ (s : State) (src : Src) (fails : Nat) (n : Nat), Reaches s src Reg.FLEET_CMD → fleetBusy s = false → twinState s = true → s.fer.fleetRole = 0 ∨ (s.fer.fleetRole = 2 ∧ s.bak.fleetRoot = none) → UnitFree s whoFleet n → 
    Answers (.enrol src fails) s fun t => t.fleet = { s.fleet with held := some (.enrol fails) } ∧ (aunit t n).internal = some whoFleet ∧ t.fnt.draws = s.fnt.draws ++ [(9 + n, whoFleet)] ∧ t.bak = s.bak ∧ t.fer = s.fer ∧ t = { s with out := t.out, regs := t.regs, parBad := t.parBad, quay := { s.quay with msix := t.quay.msix }, units := { s.units with arc := t.units.arc }, fer := { s.fer with fleetRole := t.fer.fleetRole, fleetId := t.fer.fleetId, voucher := t.fer.voucher, lastSeq := t.fer.lastSeq }, bak := { s.bak with fleetRoot := t.bak.fleetRoot }, fnt := { s.fnt with draws := t.fnt.draws, part := t.fnt.part, got := t.fnt.got, rng := t.fnt.rng, rngDone := t.fnt.rngDone, rngDead := t.fnt.rngDead }, fleet := { s.fleet with held := t.fleet.held } } ∧ OtherRegs s t [Reg.FLEET_CMD, Reg.FLEET_ID_LO, Reg.FLEET_ID_HI] [Reg.INT_STAT, Reg.ERR_SYND, Reg.ERR_ADDR] [0x49, 0x4A, 0x4B, 0x4C, 0x4D, 0x4E, 0x4F]) ∧
  (∀ (s : State) (src : Src) (fails : Nat) (n : Nat), Reaches s src Reg.FLEET_CMD → fleetBusy s = false → twinState s = true → s.fer.fleetRole = 0 ∨ (s.fer.fleetRole = 2 ∧ s.bak.fleetRoot = none) → UnitBusy s whoFleet n → 
    Answers (.enrol src fails) s fun t => t.fleet = { s.fleet with held := some (.enrol fails) } ∧ t.units = s.units ∧ t.fnt = s.fnt ∧ t.bak = s.bak ∧ t.fer = s.fer ∧ t = { s with out := t.out, regs := t.regs, parBad := t.parBad, quay := { s.quay with msix := t.quay.msix }, units := { s.units with arc := t.units.arc }, fer := { s.fer with fleetRole := t.fer.fleetRole, fleetId := t.fer.fleetId, voucher := t.fer.voucher, lastSeq := t.fer.lastSeq }, bak := { s.bak with fleetRoot := t.bak.fleetRoot }, fnt := { s.fnt with draws := t.fnt.draws, part := t.fnt.part, got := t.fnt.got, rng := t.fnt.rng, rngDone := t.fnt.rngDone, rngDead := t.fnt.rngDead }, fleet := { s.fleet with held := t.fleet.held } } ∧ OtherRegs s t [Reg.FLEET_CMD, Reg.FLEET_ID_LO, Reg.FLEET_ID_HI] [Reg.INT_STAT, Reg.ERR_SYND, Reg.ERR_ADDR] [0x49, 0x4A, 0x4B, 0x4C, 0x4D, 0x4E, 0x4F]) ∧
  (∀ (s : State) (src : Src) (fails : Nat), Reaches s src Reg.FLEET_CMD → fleetBusy s = false → twinState s = true → s.fer.fleetRole = 0 ∨ (s.fer.fleetRole = 2 ∧ s.bak.fleetRoot = none) → UnitNone s whoFleet → 
    Answers (.enrol src fails) s fun t => fld t Reg.FLEET_CMD 7 4 = 8 ∧ t.bak = s.bak ∧ t.fer = s.fer ∧ t = { s with out := t.out, regs := t.regs, parBad := t.parBad, quay := { s.quay with msix := t.quay.msix }, units := { s.units with arc := t.units.arc }, fer := { s.fer with fleetRole := t.fer.fleetRole, fleetId := t.fer.fleetId, voucher := t.fer.voucher, lastSeq := t.fer.lastSeq }, bak := { s.bak with fleetRoot := t.bak.fleetRoot }, fnt := { s.fnt with draws := t.fnt.draws, part := t.fnt.part, got := t.fnt.got, rng := t.fnt.rng, rngDone := t.fnt.rngDone, rngDead := t.fnt.rngDead }, fleet := { s.fleet with held := t.fleet.held } } ∧ OtherRegs s t [Reg.FLEET_CMD, Reg.FLEET_ID_LO, Reg.FLEET_ID_HI] [Reg.INT_STAT, Reg.ERR_SYND, Reg.ERR_ADDR] [0x49, 0x4A, 0x4B, 0x4C, 0x4D, 0x4E, 0x4F]) ∧
  (∀ (s : State) (src : Src) (fails : Nat), Reaches s src Reg.FLEET_CMD → fleetBusy s = false → twinState s = true → s.fer.fleetRole ≠ 0 → s.fer.fleetRole ≠ 2 ∨ s.bak.fleetRoot.isSome = true → 
    Answers (.enrol src fails) s fun t => fld t Reg.FLEET_CMD 7 4 = 1 ∧ t.bak = s.bak ∧ t.fer = s.fer ∧ t = { s with out := t.out, regs := t.regs, parBad := t.parBad, quay := { s.quay with msix := t.quay.msix }, units := { s.units with arc := t.units.arc }, fer := { s.fer with fleetRole := t.fer.fleetRole, fleetId := t.fer.fleetId, voucher := t.fer.voucher, lastSeq := t.fer.lastSeq }, bak := { s.bak with fleetRoot := t.bak.fleetRoot }, fnt := { s.fnt with draws := t.fnt.draws, part := t.fnt.part, got := t.fnt.got, rng := t.fnt.rng, rngDone := t.fnt.rngDone, rngDead := t.fnt.rngDead }, fleet := { s.fleet with held := t.fleet.held } } ∧ OtherRegs s t [Reg.FLEET_CMD, Reg.FLEET_ID_LO, Reg.FLEET_ID_HI] [Reg.INT_STAT, Reg.ERR_SYND, Reg.ERR_ADDR] [0x49, 0x4A, 0x4B, 0x4C, 0x4D, 0x4E, 0x4F]) ∧
  (∀ (s : State) (src : Src) (v q b : Bytes) (n fails : Nat), Reaches s src Reg.FLEET_CMD → fleetBusy s = false → twinState s = true → s.fer.fleetRole = 1 → s.bak.fleetRoot.isSome = true → v = buf s 0 224 → q = buf s 0xE0 96 → UnitReady s whoFleet n b → 
    Answers (.fleetAdmit src fails) s fun t => (aunit t n).internal = none ∧ (if voucherOk s v = false then fld t Reg.FLEET_CMD 7 4 = 2 ∧ t.bak = s.bak ∧ t.fer = s.fer
      else if vTown v ≠ ownSerial ∨ vFleet v ≠ s.fer.fleetId ∨ vKex v ≠ p256Public (townKex s) ∨ vSig v ≠ p256Public (townSig s) ∨ 1024 ≤ vIndex v
        ∨ (tfind s.fer.wards (vIndex v)).isSome = true ∨ leAt q 0 8 ≠ vWard v ∨ leAt q 8 2 ≠ vIndex v then fld t Reg.FLEET_CMD 7 4 = 3 ∧ t.bak = s.bak ∧ t.fer = s.fer
      else match p256Agree (townKex s) (sl q 0x10 64) with
      | none => fld t Reg.FLEET_CMD 7 4 = 2 ∧ t.bak = s.bak ∧ t.fer = s.fer
      | some z => if fit 16 (cmacOf 3 (wardKey z v) (q.take 80)) ≠ sl q 80 16 then fld t Reg.FLEET_CMD 7 4 = 2 ∧ t.bak = s.bak ∧ t.fer = s.fer else if 3 ≤ fails then fld t Reg.FLEET_CMD 7 4 = 9 ∧ t.bak = s.bak ∧ t.fer = s.fer
        else (if paired s = true ∧ s.xing.seqr = false then t.fer = s.fer ∧ t.xing.mirror.length = s.xing.mirror.length + 1 ∧ (t.xing.mirror.getLast?.map (·.wait)) = some (.ward (vIndex v) (some { serial := vWard v, key := wrapKey 9 (fleetRoot s) (wardKey z v) })) else (if paired s = true then t.xing.mirror.length = s.xing.mirror.length + 1 ∧ (t.xing.mirror.getLast?.map (·.wait)) = some (.fleet none 0) else fld t Reg.FLEET_CMD 7 4 = 0) ∧ tfind t.fer.wards (vIndex v) = some { serial := vWard v, key := wrapKey 9 (fleetRoot s) (wardKey z v) } ∧ (∀ m, m ≠ (vIndex v) → tfind t.fer.wards m = tfind s.fer.wards m)) ∧ t.bak = s.bak) ∧ t = { s with out := t.out, regs := t.regs, parBad := t.parBad, quay := { s.quay with msix := t.quay.msix }, units := { s.units with arc := t.units.arc }, fer := { s.fer with wards := t.fer.wards }, fnt := { s.fnt with draws := t.fnt.draws, part := t.fnt.part, got := t.fnt.got, rng := t.fnt.rng, rngDone := t.fnt.rngDone, rngDead := t.fnt.rngDead }, xing := { s.xing with mirror := t.xing.mirror, sess := t.xing.sess }, fleet := { s.fleet with held := t.fleet.held } } ∧ OtherRegs s t [Reg.FLEET_CMD] [Reg.INT_STAT, Reg.ERR_SYND, Reg.ERR_ADDR] []) ∧
  (∀ (s : State) (src : Src) (fails : Nat) (n : Nat), Reaches s src Reg.FLEET_CMD → fleetBusy s = false → twinState s = true → s.fer.fleetRole = 1 → s.bak.fleetRoot.isSome = true → UnitFree s whoFleet n → 
    Answers (.fleetAdmit src fails) s fun t => t.fleet = { s.fleet with held := some (.admission fails) } ∧ (aunit t n).internal = some whoFleet ∧ t.fnt.draws = s.fnt.draws ++ [(9 + n, whoFleet)] ∧ t.bak = s.bak ∧ t.fer = s.fer ∧ t = { s with out := t.out, regs := t.regs, parBad := t.parBad, quay := { s.quay with msix := t.quay.msix }, units := { s.units with arc := t.units.arc }, fer := { s.fer with wards := t.fer.wards }, fnt := { s.fnt with draws := t.fnt.draws, part := t.fnt.part, got := t.fnt.got, rng := t.fnt.rng, rngDone := t.fnt.rngDone, rngDead := t.fnt.rngDead }, xing := { s.xing with mirror := t.xing.mirror, sess := t.xing.sess }, fleet := { s.fleet with held := t.fleet.held } } ∧ OtherRegs s t [Reg.FLEET_CMD] [Reg.INT_STAT, Reg.ERR_SYND, Reg.ERR_ADDR] []) ∧
  (∀ (s : State) (src : Src) (fails : Nat) (n : Nat), Reaches s src Reg.FLEET_CMD → fleetBusy s = false → twinState s = true → s.fer.fleetRole = 1 → s.bak.fleetRoot.isSome = true → UnitBusy s whoFleet n → 
    Answers (.fleetAdmit src fails) s fun t => t.fleet = { s.fleet with held := some (.admission fails) } ∧ t.units = s.units ∧ t.fnt = s.fnt ∧ t.bak = s.bak ∧ t.fer = s.fer ∧ t = { s with out := t.out, regs := t.regs, parBad := t.parBad, quay := { s.quay with msix := t.quay.msix }, units := { s.units with arc := t.units.arc }, fer := { s.fer with wards := t.fer.wards }, fnt := { s.fnt with draws := t.fnt.draws, part := t.fnt.part, got := t.fnt.got, rng := t.fnt.rng, rngDone := t.fnt.rngDone, rngDead := t.fnt.rngDead }, xing := { s.xing with mirror := t.xing.mirror, sess := t.xing.sess }, fleet := { s.fleet with held := t.fleet.held } } ∧ OtherRegs s t [Reg.FLEET_CMD] [Reg.INT_STAT, Reg.ERR_SYND, Reg.ERR_ADDR] []) ∧
  (∀ (s : State) (src : Src) (fails : Nat), Reaches s src Reg.FLEET_CMD → fleetBusy s = false → twinState s = true → s.fer.fleetRole = 1 → s.bak.fleetRoot.isSome = true → UnitNone s whoFleet → 
    Answers (.fleetAdmit src fails) s fun t => fld t Reg.FLEET_CMD 7 4 = 8 ∧ t.bak = s.bak ∧ t.fer = s.fer ∧ t = { s with out := t.out, regs := t.regs, parBad := t.parBad, quay := { s.quay with msix := t.quay.msix }, units := { s.units with arc := t.units.arc }, fer := { s.fer with wards := t.fer.wards }, fnt := { s.fnt with draws := t.fnt.draws, part := t.fnt.part, got := t.fnt.got, rng := t.fnt.rng, rngDone := t.fnt.rngDone, rngDead := t.fnt.rngDead }, xing := { s.xing with mirror := t.xing.mirror, sess := t.xing.sess }, fleet := { s.fleet with held := t.fleet.held } } ∧ OtherRegs s t [Reg.FLEET_CMD] [Reg.INT_STAT, Reg.ERR_SYND, Reg.ERR_ADDR] []) ∧
  (∀ (s : State) (src : Src) (fails : Nat), Reaches s src Reg.FLEET_CMD → fleetBusy s = false → twinState s = true → s.fer.fleetRole ≠ 1 ∨ s.bak.fleetRoot = none → 
    Answers (.fleetAdmit src fails) s fun t => fld t Reg.FLEET_CMD 7 4 = 1 ∧ t.bak = s.bak ∧ t.fer = s.fer ∧ t = { s with out := t.out, regs := t.regs, parBad := t.parBad, quay := { s.quay with msix := t.quay.msix }, units := { s.units with arc := t.units.arc }, fer := { s.fer with wards := t.fer.wards }, fnt := { s.fnt with draws := t.fnt.draws, part := t.fnt.part, got := t.fnt.got, rng := t.fnt.rng, rngDone := t.fnt.rngDone, rngDead := t.fnt.rngDead }, xing := { s.xing with mirror := t.xing.mirror, sess := t.xing.sess }, fleet := { s.fleet with held := t.fleet.held } } ∧ OtherRegs s t [Reg.FLEET_CMD] [Reg.INT_STAT, Reg.ERR_SYND, Reg.ERR_ADDR] []) ∧
  (∀ (s : State) (src : Src) (w : WardEnt) (b : Bytes) (n : Nat), Reaches s src Reg.FLEET_CMD → fleetBusy s = false → twinState s = true → s.fer.fleetRole = 1 → s.bak.fleetRoot.isSome = true → (byteAt (buf s 3 1) 0) = 1 ∨ (byteAt (buf s 3 1) 0) = 2 ∨ (byteAt (buf s 3 1) 0) = 3 → tfind s.fer.wards (leAt (buf s 4 2) 0 2) = some w → ((byteAt (buf s 3 1) 0) = 1 → exportable s (reg s Reg.FLEET_HANDLE).toNat = true) → UnitReady s whoFleet n b → 
    Answers (.make src) s fun t => (if paired s = true ∧ s.xing.seqr = false then t.fer = s.fer ∧ t.xing.mirror.length = s.xing.mirror.length + 1 ∧ (t.xing.mirror.getLast?.map (·.wait)) = some (.ward (leAt (buf s 4 2) 0 2) (some { w with seq := w.seq + 1 })) else (if paired s = true then t.xing.mirror.length = s.xing.mirror.length + 1 ∧ (t.xing.mirror.getLast?.map (·.wait)) = some (.fleet none 0) else fld t Reg.FLEET_CMD 7 4 = 0) ∧ tfind t.fer.wards (leAt (buf s 4 2) 0 2) = some { w with seq := w.seq + 1 } ∧ (∀ m, m ≠ (leAt (buf s 4 2) 0 2) → tfind t.fer.wards m = tfind s.fer.wards m)) ∧ t.bak = s.bak ∧ buf t 0 ((parcelLen (byteAt (buf s 3 1) 0) (if (byteAt (buf s 3 1) 0) = 1 then (slotAt s (hSlot (reg s Reg.FLEET_HANDLE).toNat)).alg else 0)) - 64) = ((parcelHead (byteAt (buf s 3 1) 0) (leAt (buf s 4 2) 0 2) (parcelLen (byteAt (buf s 3 1) 0) (if (byteAt (buf s 3 1) 0) = 1 then (slotAt s (hSlot (reg s Reg.FLEET_HANDLE).toNat)).alg else 0)) s.fer.fleetId w.serial (w.seq + 1) (if (byteAt (buf s 3 1) 0) = 2 then leAt (buf s 0x20 8) 0 8 else s.tick) (if (byteAt (buf s 3 1) 0) = 1 then (slotAt s (hSlot (reg s Reg.FLEET_HANDLE).toNat)).alg else 0) (epochExp s) (if (byteAt (buf s 3 1) 0) = 1 then algBytes (if (byteAt (buf s 3 1) 0) = 1 then (slotAt s (hSlot (reg s Reg.FLEET_HANDLE).toNat)).alg else 0) else 0)) ++ (if (byteAt (buf s 3 1) 0) = 1 then fit (parcelWrap (if (byteAt (buf s 3 1) 0) = 1 then (slotAt s (hSlot (reg s Reg.FLEET_HANDLE).toNat)).alg else 0)) (wrapKey 9 (wardSecret s w) ((parcelHead (byteAt (buf s 3 1) 0) (leAt (buf s 4 2) 0 2) (parcelLen (byteAt (buf s 3 1) 0) (if (byteAt (buf s 3 1) 0) = 1 then (slotAt s (hSlot (reg s Reg.FLEET_HANDLE).toNat)).alg else 0)) s.fer.fleetId w.serial (w.seq + 1) (if (byteAt (buf s 3 1) 0) = 2 then leAt (buf s 0x20 8) 0 8 else s.tick) (if (byteAt (buf s 3 1) 0) = 1 then (slotAt s (hSlot (reg s Reg.FLEET_HANDLE).toNat)).alg else 0) (epochExp s) (if (byteAt (buf s 3 1) 0) = 1 then algBytes (if (byteAt (buf s 3 1) 0) = 1 then (slotAt s (hSlot (reg s Reg.FLEET_HANDLE).toNat)).alg else 0) else 0)) ++ toLe 16 (parcelAttr (slotAt s (hSlot (reg s Reg.FLEET_HANDLE).toNat))) ++ fit (algBytes (if (byteAt (buf s 3 1) 0) = 1 then (slotAt s (hSlot (reg s Reg.FLEET_HANDLE).toNat)).alg else 0)) (keyMat s (hSlot (reg s Reg.FLEET_HANDLE).toNat)))) else [])) ∧ buf t ((parcelLen (byteAt (buf s 3 1) 0) (if (byteAt (buf s 3 1) 0) = 1 then (slotAt s (hSlot (reg s Reg.FLEET_HANDLE).toNat)).alg else 0)) - 64) 64 = toBe 32 (ecdsaSign p256 (townSig s) (hashOf 1 32 ((parcelHead (byteAt (buf s 3 1) 0) (leAt (buf s 4 2) 0 2) (parcelLen (byteAt (buf s 3 1) 0) (if (byteAt (buf s 3 1) 0) = 1 then (slotAt s (hSlot (reg s Reg.FLEET_HANDLE).toNat)).alg else 0)) s.fer.fleetId w.serial (w.seq + 1) (if (byteAt (buf s 3 1) 0) = 2 then leAt (buf s 0x20 8) 0 8 else s.tick) (if (byteAt (buf s 3 1) 0) = 1 then (slotAt s (hSlot (reg s Reg.FLEET_HANDLE).toNat)).alg else 0) (epochExp s) (if (byteAt (buf s 3 1) 0) = 1 then algBytes (if (byteAt (buf s 3 1) 0) = 1 then (slotAt s (hSlot (reg s Reg.FLEET_HANDLE).toNat)).alg else 0) else 0)) ++ (if (byteAt (buf s 3 1) 0) = 1 then fit (parcelWrap (if (byteAt (buf s 3 1) 0) = 1 then (slotAt s (hSlot (reg s Reg.FLEET_HANDLE).toNat)).alg else 0)) (wrapKey 9 (wardSecret s w) ((parcelHead (byteAt (buf s 3 1) 0) (leAt (buf s 4 2) 0 2) (parcelLen (byteAt (buf s 3 1) 0) (if (byteAt (buf s 3 1) 0) = 1 then (slotAt s (hSlot (reg s Reg.FLEET_HANDLE).toNat)).alg else 0)) s.fer.fleetId w.serial (w.seq + 1) (if (byteAt (buf s 3 1) 0) = 2 then leAt (buf s 0x20 8) 0 8 else s.tick) (if (byteAt (buf s 3 1) 0) = 1 then (slotAt s (hSlot (reg s Reg.FLEET_HANDLE).toNat)).alg else 0) (epochExp s) (if (byteAt (buf s 3 1) 0) = 1 then algBytes (if (byteAt (buf s 3 1) 0) = 1 then (slotAt s (hSlot (reg s Reg.FLEET_HANDLE).toNat)).alg else 0) else 0)) ++ toLe 16 (parcelAttr (slotAt s (hSlot (reg s Reg.FLEET_HANDLE).toNat))) ++ fit (algBytes (if (byteAt (buf s 3 1) 0) = 1 then (slotAt s (hSlot (reg s Reg.FLEET_HANDLE).toNat)).alg else 0)) (keyMat s (hSlot (reg s Reg.FLEET_HANDLE).toNat)))) else []))) b).1 ++ toBe 32 (ecdsaSign p256 (townSig s) (hashOf 1 32 ((parcelHead (byteAt (buf s 3 1) 0) (leAt (buf s 4 2) 0 2) (parcelLen (byteAt (buf s 3 1) 0) (if (byteAt (buf s 3 1) 0) = 1 then (slotAt s (hSlot (reg s Reg.FLEET_HANDLE).toNat)).alg else 0)) s.fer.fleetId w.serial (w.seq + 1) (if (byteAt (buf s 3 1) 0) = 2 then leAt (buf s 0x20 8) 0 8 else s.tick) (if (byteAt (buf s 3 1) 0) = 1 then (slotAt s (hSlot (reg s Reg.FLEET_HANDLE).toNat)).alg else 0) (epochExp s) (if (byteAt (buf s 3 1) 0) = 1 then algBytes (if (byteAt (buf s 3 1) 0) = 1 then (slotAt s (hSlot (reg s Reg.FLEET_HANDLE).toNat)).alg else 0) else 0)) ++ (if (byteAt (buf s 3 1) 0) = 1 then fit (parcelWrap (if (byteAt (buf s 3 1) 0) = 1 then (slotAt s (hSlot (reg s Reg.FLEET_HANDLE).toNat)).alg else 0)) (wrapKey 9 (wardSecret s w) ((parcelHead (byteAt (buf s 3 1) 0) (leAt (buf s 4 2) 0 2) (parcelLen (byteAt (buf s 3 1) 0) (if (byteAt (buf s 3 1) 0) = 1 then (slotAt s (hSlot (reg s Reg.FLEET_HANDLE).toNat)).alg else 0)) s.fer.fleetId w.serial (w.seq + 1) (if (byteAt (buf s 3 1) 0) = 2 then leAt (buf s 0x20 8) 0 8 else s.tick) (if (byteAt (buf s 3 1) 0) = 1 then (slotAt s (hSlot (reg s Reg.FLEET_HANDLE).toNat)).alg else 0) (epochExp s) (if (byteAt (buf s 3 1) 0) = 1 then algBytes (if (byteAt (buf s 3 1) 0) = 1 then (slotAt s (hSlot (reg s Reg.FLEET_HANDLE).toNat)).alg else 0) else 0)) ++ toLe 16 (parcelAttr (slotAt s (hSlot (reg s Reg.FLEET_HANDLE).toNat))) ++ fit (algBytes (if (byteAt (buf s 3 1) 0) = 1 then (slotAt s (hSlot (reg s Reg.FLEET_HANDLE).toNat)).alg else 0)) (keyMat s (hSlot (reg s Reg.FLEET_HANDLE).toNat)))) else []))) b).2 ∧ (aunit t n).internal = none ∧ t = { s with out := t.out, regs := t.regs, parBad := t.parBad, quay := { s.quay with msix := t.quay.msix }, units := { s.units with arc := t.units.arc }, fer := { s.fer with wards := t.fer.wards }, fnt := { s.fnt with draws := t.fnt.draws, part := t.fnt.part, got := t.fnt.got, rng := t.fnt.rng, rngDone := t.fnt.rngDone, rngDead := t.fnt.rngDead }, xing := { s.xing with mirror := t.xing.mirror, sess := t.xing.sess }, fleet := { s.fleet with held := t.fleet.held } } ∧ OtherRegs s t [Reg.FLEET_CMD] [Reg.INT_STAT, Reg.ERR_SYND, Reg.ERR_ADDR] [0x49, 0x4A, 0x4B, 0x4C, 0x4D, 0x4E, 0x4F]) ∧
  (∀ (s : State) (src : Src) (w : WardEnt) (n : Nat), Reaches s src Reg.FLEET_CMD → fleetBusy s = false → twinState s = true → s.fer.fleetRole = 1 → s.bak.fleetRoot.isSome = true → (byteAt (buf s 3 1) 0) = 1 ∨ (byteAt (buf s 3 1) 0) = 2 ∨ (byteAt (buf s 3 1) 0) = 3 → tfind s.fer.wards (leAt (buf s 4 2) 0 2) = some w → ((byteAt (buf s 3 1) 0) = 1 → exportable s (reg s Reg.FLEET_HANDLE).toNat = true) → UnitFree s whoFleet n → 
    Answers (.make src) s fun t => t.fleet = { s.fleet with held := some .make } ∧ (aunit t n).internal = some whoFleet ∧ t.fnt.draws = s.fnt.draws ++ [(9 + n, whoFleet)] ∧ t.bak = s.bak ∧ t.fer = s.fer ∧ t = { s with out := t.out, regs := t.regs, parBad := t.parBad, quay := { s.quay with msix := t.quay.msix }, units := { s.units with arc := t.units.arc }, fer := { s.fer with wards := t.fer.wards }, fnt := { s.fnt with draws := t.fnt.draws, part := t.fnt.part, got := t.fnt.got, rng := t.fnt.rng, rngDone := t.fnt.rngDone, rngDead := t.fnt.rngDead }, xing := { s.xing with mirror := t.xing.mirror, sess := t.xing.sess }, fleet := { s.fleet with held := t.fleet.held } } ∧ OtherRegs s t [Reg.FLEET_CMD] [Reg.INT_STAT, Reg.ERR_SYND, Reg.ERR_ADDR] [0x49, 0x4A, 0x4B, 0x4C, 0x4D, 0x4E, 0x4F]) ∧
  (∀ (s : State) (src : Src) (w : WardEnt) (n : Nat), Reaches s src Reg.FLEET_CMD → fleetBusy s = false → twinState s = true → s.fer.fleetRole = 1 → s.bak.fleetRoot.isSome = true → (byteAt (buf s 3 1) 0) = 1 ∨ (byteAt (buf s 3 1) 0) = 2 ∨ (byteAt (buf s 3 1) 0) = 3 → tfind s.fer.wards (leAt (buf s 4 2) 0 2) = some w → ((byteAt (buf s 3 1) 0) = 1 → exportable s (reg s Reg.FLEET_HANDLE).toNat = true) → UnitBusy s whoFleet n → 
    Answers (.make src) s fun t => t.fleet = { s.fleet with held := some .make } ∧ t.units = s.units ∧ t.fnt = s.fnt ∧ t.bak = s.bak ∧ t.fer = s.fer ∧ t = { s with out := t.out, regs := t.regs, parBad := t.parBad, quay := { s.quay with msix := t.quay.msix }, units := { s.units with arc := t.units.arc }, fer := { s.fer with wards := t.fer.wards }, fnt := { s.fnt with draws := t.fnt.draws, part := t.fnt.part, got := t.fnt.got, rng := t.fnt.rng, rngDone := t.fnt.rngDone, rngDead := t.fnt.rngDead }, xing := { s.xing with mirror := t.xing.mirror, sess := t.xing.sess }, fleet := { s.fleet with held := t.fleet.held } } ∧ OtherRegs s t [Reg.FLEET_CMD] [Reg.INT_STAT, Reg.ERR_SYND, Reg.ERR_ADDR] [0x49, 0x4A, 0x4B, 0x4C, 0x4D, 0x4E, 0x4F]) ∧
  (∀ (s : State) (src : Src) (w : WardEnt), Reaches s src Reg.FLEET_CMD → fleetBusy s = false → twinState s = true → s.fer.fleetRole = 1 → s.bak.fleetRoot.isSome = true → (byteAt (buf s 3 1) 0) = 1 ∨ (byteAt (buf s 3 1) 0) = 2 ∨ (byteAt (buf s 3 1) 0) = 3 → tfind s.fer.wards (leAt (buf s 4 2) 0 2) = some w → ((byteAt (buf s 3 1) 0) = 1 → exportable s (reg s Reg.FLEET_HANDLE).toNat = true) → UnitNone s whoFleet → 
    Answers (.make src) s fun t => fld t Reg.FLEET_CMD 7 4 = 8 ∧ t.bak = s.bak ∧ t.fer = s.fer ∧ t = { s with out := t.out, regs := t.regs, parBad := t.parBad, quay := { s.quay with msix := t.quay.msix }, units := { s.units with arc := t.units.arc }, fer := { s.fer with wards := t.fer.wards }, fnt := { s.fnt with draws := t.fnt.draws, part := t.fnt.part, got := t.fnt.got, rng := t.fnt.rng, rngDone := t.fnt.rngDone, rngDead := t.fnt.rngDead }, xing := { s.xing with mirror := t.xing.mirror, sess := t.xing.sess }, fleet := { s.fleet with held := t.fleet.held } } ∧ OtherRegs s t [Reg.FLEET_CMD] [Reg.INT_STAT, Reg.ERR_SYND, Reg.ERR_ADDR] [0x49, 0x4A, 0x4B, 0x4C, 0x4D, 0x4E, 0x4F]) ∧
  (∀ (s : State) (src : Src), Reaches s src Reg.FLEET_CMD → fleetBusy s = false → twinState s = true → s.fer.fleetRole ≠ 1 ∨ s.bak.fleetRoot = none → 
    Answers (.make src) s fun t => fld t Reg.FLEET_CMD 7 4 = 1 ∧ t.bak = s.bak ∧ t.fer = s.fer ∧ t = { s with out := t.out, regs := t.regs, parBad := t.parBad, quay := { s.quay with msix := t.quay.msix }, units := { s.units with arc := t.units.arc }, fer := { s.fer with wards := t.fer.wards }, fnt := { s.fnt with draws := t.fnt.draws, part := t.fnt.part, got := t.fnt.got, rng := t.fnt.rng, rngDone := t.fnt.rngDone, rngDead := t.fnt.rngDead }, xing := { s.xing with mirror := t.xing.mirror, sess := t.xing.sess }, fleet := { s.fleet with held := t.fleet.held } } ∧ OtherRegs s t [Reg.FLEET_CMD] [Reg.INT_STAT, Reg.ERR_SYND, Reg.ERR_ADDR] [0x49, 0x4A, 0x4B, 0x4C, 0x4D, 0x4E, 0x4F]) ∧
  (∀ (s : State) (src : Src), Reaches s src Reg.FLEET_CMD → fleetBusy s = false → twinState s = true → s.fer.fleetRole = 1 → s.bak.fleetRoot.isSome = true → (byteAt (buf s 3 1) 0) = 0 ∨ 3 < (byteAt (buf s 3 1) 0) → 
    Answers (.make src) s fun t => fld t Reg.FLEET_CMD 7 4 = 4 ∧ t.bak = s.bak ∧ t.fer = s.fer ∧ t = { s with out := t.out, regs := t.regs, parBad := t.parBad, quay := { s.quay with msix := t.quay.msix }, units := { s.units with arc := t.units.arc }, fer := { s.fer with wards := t.fer.wards }, fnt := { s.fnt with draws := t.fnt.draws, part := t.fnt.part, got := t.fnt.got, rng := t.fnt.rng, rngDone := t.fnt.rngDone, rngDead := t.fnt.rngDead }, xing := { s.xing with mirror := t.xing.mirror, sess := t.xing.sess }, fleet := { s.fleet with held := t.fleet.held } } ∧ OtherRegs s t [Reg.FLEET_CMD] [Reg.INT_STAT, Reg.ERR_SYND, Reg.ERR_ADDR] [0x49, 0x4A, 0x4B, 0x4C, 0x4D, 0x4E, 0x4F]) ∧
  (∀ (s : State) (src : Src), Reaches s src Reg.FLEET_CMD → fleetBusy s = false → twinState s = true → s.fer.fleetRole = 1 → s.bak.fleetRoot.isSome = true → (byteAt (buf s 3 1) 0) = 1 ∨ (byteAt (buf s 3 1) 0) = 2 ∨ (byteAt (buf s 3 1) 0) = 3 → tfind s.fer.wards (leAt (buf s 4 2) 0 2) = none → 
    Answers (.make src) s fun t => fld t Reg.FLEET_CMD 7 4 = 3 ∧ t.bak = s.bak ∧ t.fer = s.fer ∧ t = { s with out := t.out, regs := t.regs, parBad := t.parBad, quay := { s.quay with msix := t.quay.msix }, units := { s.units with arc := t.units.arc }, fer := { s.fer with wards := t.fer.wards }, fnt := { s.fnt with draws := t.fnt.draws, part := t.fnt.part, got := t.fnt.got, rng := t.fnt.rng, rngDone := t.fnt.rngDone, rngDead := t.fnt.rngDead }, xing := { s.xing with mirror := t.xing.mirror, sess := t.xing.sess }, fleet := { s.fleet with held := t.fleet.held } } ∧ OtherRegs s t [Reg.FLEET_CMD] [Reg.INT_STAT, Reg.ERR_SYND, Reg.ERR_ADDR] [0x49, 0x4A, 0x4B, 0x4C, 0x4D, 0x4E, 0x4F]) ∧
  (∀ (s : State) (src : Src) (w : WardEnt), Reaches s src Reg.FLEET_CMD → fleetBusy s = false → twinState s = true → s.fer.fleetRole = 1 → s.bak.fleetRoot.isSome = true → (byteAt (buf s 3 1) 0) = 1 → tfind s.fer.wards (leAt (buf s 4 2) 0 2) = some w → exportable s (reg s Reg.FLEET_HANDLE).toNat = false → 
    Answers (.make src) s fun t => fld t Reg.FLEET_CMD 7 4 = 10 ∧ t.bak = s.bak ∧ t.fer = s.fer ∧ t = { s with out := t.out, regs := t.regs, parBad := t.parBad, quay := { s.quay with msix := t.quay.msix }, units := { s.units with arc := t.units.arc }, fer := { s.fer with wards := t.fer.wards }, fnt := { s.fnt with draws := t.fnt.draws, part := t.fnt.part, got := t.fnt.got, rng := t.fnt.rng, rngDone := t.fnt.rngDone, rngDead := t.fnt.rngDead }, xing := { s.xing with mirror := t.xing.mirror, sess := t.xing.sess }, fleet := { s.fleet with held := t.fleet.held } } ∧ OtherRegs s t [Reg.FLEET_CMD] [Reg.INT_STAT, Reg.ERR_SYND, Reg.ERR_ADDR] [0x49, 0x4A, 0x4B, 0x4C, 0x4D, 0x4E, 0x4F]) ∧
  (∀ (s : State) (src : Src) (p : Parcel) (fails : Nat) (n : Nat), Reaches s src Reg.FLEET_CMD → fleetBusy s = false → twinState s = true → s.fer.fleetRole = 2 → s.bak.fleetRoot.isSome = true → p = parcelAt s → parcelFormat s p = true → p.type = 2 → arcPick s = some n → arcIdle s n = true → 
    Answers (.accept src fails) s fun t => (if (p.id ≠ s.fer.fleetId ∨ p.serial ≠ ownSerial ∨ p.ward ≠ vIndex s.fer.voucher ∨ p.k ≠ epochExp s) then fld t Reg.FLEET_CMD 7 4 = 3 ∧ t.bak = s.bak ∧ t.fer = s.fer
      else if p256Signed (vSig s.fer.voucher) (buf s 0 (p.len - 64)) (buf s (p.len - 64) 64) = false then fld t Reg.FLEET_CMD 7 4 = 2 ∧ t.bak = s.bak ∧ t.fer = s.fer
      else if p.seq ≤ s.fer.lastSeq then fld t Reg.FLEET_CMD 7 4 = 5 ∧ t.bak = s.bak ∧ t.fer = s.fer
      else if parcelTime s p = false then fld t Reg.FLEET_CMD 7 4 = 6 ∧ t.bak = s.bak ∧ t.fer = s.fer
      else if 3 ≤ fails then fld t Reg.FLEET_CMD 7 4 = 9 ∧ t.bak = s.bak ∧ t.fer = s.fer else fld t Reg.FLEET_CMD 7 4 = 0 ∧ t.fer = { s.fer with lastSeq := p.seq } ∧ t.clk.load = some p.tick ∧ t.fleet.tickPend = true ∧ t.bak = s.bak) ∧ t = { s with out := t.out, regs := t.regs, parBad := t.parBad, wins := t.wins, quay := { s.quay with queues := t.quay.queues, doms := t.quay.doms, domRR := t.quay.domRR, ctxs := t.quay.ctxs, msix := t.quay.msix }, units := { s.units with cipher := t.units.cipher, hash := t.units.hash, arc := t.units.arc }, mews := { s.mews with slots := t.mews.slots, cascades := t.mews.cascades }, kerb := { s.kerb with reports := t.kerb.reports }, fer := { s.fer with fleetRole := t.fer.fleetRole, wards := t.fer.wards, voucher := t.fer.voucher, lastSeq := t.fer.lastSeq }, bak := { s.bak with fleetRoot := t.bak.fleetRoot }, fnt := { s.fnt with state := t.fnt.state, absorbed := t.fnt.absorbed, credit := t.fnt.credit, seed := t.fnt.seed, int := t.fnt.int, sw := t.fnt.sw, katBusy := t.fnt.katBusy, draws := t.fnt.draws, part := t.fnt.part, got := t.fnt.got, rng := t.fnt.rng, rngDone := t.fnt.rngDone, rngDead := t.fnt.rngDead }, curves := t.curves, xing := { s.xing with mirror := t.xing.mirror, sess := t.xing.sess }, fleet := t.fleet, clk := { s.clk with load := t.clk.load }, chk := { s.chk with slotBad := t.chk.slotBad } } ∧ OtherRegs s t [Reg.CT_CMD, Reg.QUAY_RPL_HITS, Reg.RBT_LATE, Reg.MEWS_REVOKES, Reg.COMP_AUTH_FAIL, Reg.COMP_DONE, Reg.FLEET_CMD] [Reg.PAGE_STAT, Reg.INT_STAT, Reg.ERR_SYND, Reg.ERR_ADDR, Reg.FAULT_CNT, Reg.QUAY_LINK_STAT] []) ∧
  (∀ (s : State) (src : Src) (p : Parcel) (fails : Nat) (n : Nat), Reaches s src Reg.FLEET_CMD → fleetBusy s = false → twinState s = true → s.fer.fleetRole = 2 → s.bak.fleetRoot.isSome = true → p = parcelAt s → parcelFormat s p = true → p.type = 3 → arcPick s = some n → arcIdle s n = true → 
    Answers (.accept src fails) s fun t => (if (p.id ≠ s.fer.fleetId ∨ p.serial ≠ ownSerial ∨ p.ward ≠ vIndex s.fer.voucher ∨ p.k ≠ epochExp s) then fld t Reg.FLEET_CMD 7 4 = 3 ∧ t.bak = s.bak ∧ t.fer = s.fer
      else if p256Signed (vSig s.fer.voucher) (buf s 0 (p.len - 64)) (buf s (p.len - 64) 64) = false then fld t Reg.FLEET_CMD 7 4 = 2 ∧ t.bak = s.bak ∧ t.fer = s.fer
      else if p.seq ≤ s.fer.lastSeq then fld t Reg.FLEET_CMD 7 4 = 5 ∧ t.bak = s.bak ∧ t.fer = s.fer
      else if parcelTime s p = false then fld t Reg.FLEET_CMD 7 4 = 6 ∧ t.bak = s.bak ∧ t.fer = s.fer
      else if 3 ≤ fails then fld t Reg.FLEET_CMD 7 4 = 9 ∧ t.bak = s.bak ∧ t.fer = s.fer else fld t Reg.FLEET_CMD 7 4 = 0 ∧ t.fer = { s.fer with fleetRole := 0, wards := [], voucher := [], lastSeq := 0 } ∧ t.bak = { s.bak with fleetRoot := none }) ∧ t = { s with out := t.out, regs := t.regs, parBad := t.parBad, wins := t.wins, quay := { s.quay with queues := t.quay.queues, doms := t.quay.doms, domRR := t.quay.domRR, ctxs := t.quay.ctxs, msix := t.quay.msix }, units := { s.units with cipher := t.units.cipher, hash := t.units.hash, arc := t.units.arc }, mews := { s.mews with slots := t.mews.slots, cascades := t.mews.cascades }, kerb := { s.kerb with reports := t.kerb.reports }, fer := { s.fer with fleetRole := t.fer.fleetRole, wards := t.fer.wards, voucher := t.fer.voucher, lastSeq := t.fer.lastSeq }, bak := { s.bak with fleetRoot := t.bak.fleetRoot }, fnt := { s.fnt with state := t.fnt.state, absorbed := t.fnt.absorbed, credit := t.fnt.credit, seed := t.fnt.seed, int := t.fnt.int, sw := t.fnt.sw, katBusy := t.fnt.katBusy, draws := t.fnt.draws, part := t.fnt.part, got := t.fnt.got, rng := t.fnt.rng, rngDone := t.fnt.rngDone, rngDead := t.fnt.rngDead }, curves := t.curves, xing := { s.xing with mirror := t.xing.mirror, sess := t.xing.sess }, fleet := t.fleet, clk := { s.clk with load := t.clk.load }, chk := { s.chk with slotBad := t.chk.slotBad } } ∧ OtherRegs s t [Reg.CT_CMD, Reg.QUAY_RPL_HITS, Reg.RBT_LATE, Reg.MEWS_REVOKES, Reg.COMP_AUTH_FAIL, Reg.COMP_DONE, Reg.FLEET_CMD] [Reg.PAGE_STAT, Reg.INT_STAT, Reg.ERR_SYND, Reg.ERR_ADDR, Reg.FAULT_CNT, Reg.QUAY_LINK_STAT] []) ∧
  (∀ (s : State) (src : Src) (p : Parcel) (fails : Nat) (n : Nat), Reaches s src Reg.FLEET_CMD → fleetBusy s = false → twinState s = true → s.fer.fleetRole = 2 → s.bak.fleetRoot.isSome = true → p = parcelAt s → parcelFormat s p = true → p.type = 1 → arcPick s = some n → arcIdle s n = true → 
    Answers (.accept src fails) s fun t => (if (p.id ≠ s.fer.fleetId ∨ p.serial ≠ ownSerial ∨ p.ward ≠ vIndex s.fer.voucher ∨ p.k ≠ epochExp s) then fld t Reg.FLEET_CMD 7 4 = 3 ∧ t.bak = s.bak ∧ t.fer = s.fer
      else if p256Signed (vSig s.fer.voucher) (buf s 0 (p.len - 64)) (buf s (p.len - 64) 64) = false then fld t Reg.FLEET_CMD 7 4 = 2 ∧ t.bak = s.bak ∧ t.fer = s.fer
      else if p.seq ≤ s.fer.lastSeq then fld t Reg.FLEET_CMD 7 4 = 5 ∧ t.bak = s.bak ∧ t.fer = s.fer
      else if parcelTime s p = false then fld t Reg.FLEET_CMD 7 4 = 6 ∧ t.bak = s.bak ∧ t.fer = s.fer
      else match parcelKey s p with
        | none => fld t Reg.FLEET_CMD 7 4 = 2 ∧ t.bak = s.bak ∧ t.fer = s.fer
        | some k => if parcelTarget s p k = false then fld t Reg.FLEET_CMD 7 4 = 7 ∧ t.bak = s.bak ∧ t.fer = s.fer else if s.xing.state = 5 then fld t Reg.FLEET_CMD 7 4 = 1 ∧ t.bak = s.bak ∧ t.fer = s.fer
          else if s.mews.zeroising = true then t.fleet.held = some (.accept fails) ∧ t.bak = s.bak ∧ t.fer = s.fer ∧ t.mews = s.mews else if 3 ≤ fails then fld t Reg.FLEET_CMD 7 4 = 9 ∧ t.bak = s.bak ∧ t.fer = s.fer
          else t.fer = { s.fer with lastSeq := p.seq } ∧ t.bak = s.bak ∧
          (if paired s = true then t.xing.mirror.length = s.xing.mirror.length + 1 ∧ (t.xing.mirror.getLast?.map (·.kind)) = some 1 ∧ (if s.xing.seqr = true then slotAt t (hSlot (reg s Reg.FLEET_HANDLE).toNat) = { k with asg := true, dom := (slotAt s (hSlot (reg s Reg.FLEET_HANDLE).toNat)).dom, gen := (slotAt t (hSlot (reg s Reg.FLEET_HANDLE).toNat)).gen, mat := matPart k.mat (algRun k.alg) 0 } else t.mews = s.mews)
            else fld t Reg.FLEET_CMD 7 4 = 0 ∧ slotAt t (hSlot (reg s Reg.FLEET_HANDLE).toNat) = { k with asg := true, dom := (slotAt s (hSlot (reg s Reg.FLEET_HANDLE).toNat)).dom, gen := (slotAt t (hSlot (reg s Reg.FLEET_HANDLE).toNat)).gen, mat := matPart k.mat (algRun k.alg) 0 })) ∧ t = { s with out := t.out, regs := t.regs, parBad := t.parBad, wins := t.wins, quay := { s.quay with queues := t.quay.queues, doms := t.quay.doms, domRR := t.quay.domRR, ctxs := t.quay.ctxs, msix := t.quay.msix }, units := { s.units with cipher := t.units.cipher, hash := t.units.hash, arc := t.units.arc }, mews := { s.mews with slots := t.mews.slots, cascades := t.mews.cascades }, kerb := { s.kerb with reports := t.kerb.reports }, fer := { s.fer with fleetRole := t.fer.fleetRole, wards := t.fer.wards, voucher := t.fer.voucher, lastSeq := t.fer.lastSeq }, bak := { s.bak with fleetRoot := t.bak.fleetRoot }, fnt := { s.fnt with state := t.fnt.state, absorbed := t.fnt.absorbed, credit := t.fnt.credit, seed := t.fnt.seed, int := t.fnt.int, sw := t.fnt.sw, katBusy := t.fnt.katBusy, draws := t.fnt.draws, part := t.fnt.part, got := t.fnt.got, rng := t.fnt.rng, rngDone := t.fnt.rngDone, rngDead := t.fnt.rngDead }, curves := t.curves, xing := { s.xing with mirror := t.xing.mirror, sess := t.xing.sess }, fleet := t.fleet, clk := { s.clk with load := t.clk.load }, chk := { s.chk with slotBad := t.chk.slotBad } } ∧ OtherRegs s t [Reg.CT_CMD, Reg.QUAY_RPL_HITS, Reg.RBT_LATE, Reg.MEWS_REVOKES, Reg.COMP_AUTH_FAIL, Reg.COMP_DONE, Reg.FLEET_CMD] [Reg.PAGE_STAT, Reg.INT_STAT, Reg.ERR_SYND, Reg.ERR_ADDR, Reg.FAULT_CNT, Reg.QUAY_LINK_STAT] []) ∧
  (∀ (s : State) (src : Src) (p : Parcel) (fails : Nat) (n : Nat), Reaches s src Reg.FLEET_CMD → fleetBusy s = false → twinState s = true → s.fer.fleetRole = 2 → s.bak.fleetRoot.isSome = true → p = parcelAt s → parcelFormat s p = true → arcPick s = some n → arcIdle s n = false → 
    Answers (.accept src fails) s fun t => (if (p.id ≠ s.fer.fleetId ∨ p.serial ≠ ownSerial ∨ p.ward ≠ vIndex s.fer.voucher ∨ p.k ≠ epochExp s) then fld t Reg.FLEET_CMD 7 4 = 3 else t.fleet.held = some (.accept fails)) ∧ t.bak = s.bak ∧ t.fer = s.fer ∧ t = { s with out := t.out, regs := t.regs, parBad := t.parBad, wins := t.wins, quay := { s.quay with queues := t.quay.queues, doms := t.quay.doms, domRR := t.quay.domRR, ctxs := t.quay.ctxs, msix := t.quay.msix }, units := { s.units with cipher := t.units.cipher, hash := t.units.hash, arc := t.units.arc }, mews := { s.mews with slots := t.mews.slots, cascades := t.mews.cascades }, kerb := { s.kerb with reports := t.kerb.reports }, fer := { s.fer with fleetRole := t.fer.fleetRole, wards := t.fer.wards, voucher := t.fer.voucher, lastSeq := t.fer.lastSeq }, bak := { s.bak with fleetRoot := t.bak.fleetRoot }, fnt := { s.fnt with state := t.fnt.state, absorbed := t.fnt.absorbed, credit := t.fnt.credit, seed := t.fnt.seed, int := t.fnt.int, sw := t.fnt.sw, katBusy := t.fnt.katBusy, draws := t.fnt.draws, part := t.fnt.part, got := t.fnt.got, rng := t.fnt.rng, rngDone := t.fnt.rngDone, rngDead := t.fnt.rngDead }, curves := t.curves, xing := { s.xing with mirror := t.xing.mirror, sess := t.xing.sess }, fleet := t.fleet, clk := { s.clk with load := t.clk.load }, chk := { s.chk with slotBad := t.chk.slotBad } } ∧ OtherRegs s t [Reg.CT_CMD, Reg.QUAY_RPL_HITS, Reg.RBT_LATE, Reg.MEWS_REVOKES, Reg.COMP_AUTH_FAIL, Reg.COMP_DONE, Reg.FLEET_CMD] [Reg.PAGE_STAT, Reg.INT_STAT, Reg.ERR_SYND, Reg.ERR_ADDR, Reg.FAULT_CNT, Reg.QUAY_LINK_STAT] []) ∧
  (∀ (s : State) (src : Src) (p : Parcel) (fails : Nat), Reaches s src Reg.FLEET_CMD → fleetBusy s = false → twinState s = true → s.fer.fleetRole = 2 → s.bak.fleetRoot.isSome = true → p = parcelAt s → parcelFormat s p = true → arcPick s = none → 
    Answers (.accept src fails) s fun t => (if (p.id ≠ s.fer.fleetId ∨ p.serial ≠ ownSerial ∨ p.ward ≠ vIndex s.fer.voucher ∨ p.k ≠ epochExp s) then fld t Reg.FLEET_CMD 7 4 = 3 else fld t Reg.FLEET_CMD 7 4 = 8) ∧ t.bak = s.bak ∧ t.fer = s.fer ∧ t = { s with out := t.out, regs := t.regs, parBad := t.parBad, wins := t.wins, quay := { s.quay with queues := t.quay.queues, doms := t.quay.doms, domRR := t.quay.domRR, ctxs := t.quay.ctxs, msix := t.quay.msix }, units := { s.units with cipher := t.units.cipher, hash := t.units.hash, arc := t.units.arc }, mews := { s.mews with slots := t.mews.slots, cascades := t.mews.cascades }, kerb := { s.kerb with reports := t.kerb.reports }, fer := { s.fer with fleetRole := t.fer.fleetRole, wards := t.fer.wards, voucher := t.fer.voucher, lastSeq := t.fer.lastSeq }, bak := { s.bak with fleetRoot := t.bak.fleetRoot }, fnt := { s.fnt with state := t.fnt.state, absorbed := t.fnt.absorbed, credit := t.fnt.credit, seed := t.fnt.seed, int := t.fnt.int, sw := t.fnt.sw, katBusy := t.fnt.katBusy, draws := t.fnt.draws, part := t.fnt.part, got := t.fnt.got, rng := t.fnt.rng, rngDone := t.fnt.rngDone, rngDead := t.fnt.rngDead }, curves := t.curves, xing := { s.xing with mirror := t.xing.mirror, sess := t.xing.sess }, fleet := t.fleet, clk := { s.clk with load := t.clk.load }, chk := { s.chk with slotBad := t.chk.slotBad } } ∧ OtherRegs s t [Reg.CT_CMD, Reg.QUAY_RPL_HITS, Reg.RBT_LATE, Reg.MEWS_REVOKES, Reg.COMP_AUTH_FAIL, Reg.COMP_DONE, Reg.FLEET_CMD] [Reg.PAGE_STAT, Reg.INT_STAT, Reg.ERR_SYND, Reg.ERR_ADDR, Reg.FAULT_CNT, Reg.QUAY_LINK_STAT] []) ∧
  (∀ (s : State) (src : Src) (p : Parcel) (fails : Nat), Reaches s src Reg.FLEET_CMD → fleetBusy s = false → twinState s = true → s.fer.fleetRole = 2 → s.bak.fleetRoot.isSome = true → p = parcelAt s → parcelFormat s p = false → 
    Answers (.accept src fails) s fun t => fld t Reg.FLEET_CMD 7 4 = 4 ∧ t.bak = s.bak ∧ t.fer = s.fer ∧ t = { s with out := t.out, regs := t.regs, parBad := t.parBad, wins := t.wins, quay := { s.quay with queues := t.quay.queues, doms := t.quay.doms, domRR := t.quay.domRR, ctxs := t.quay.ctxs, msix := t.quay.msix }, units := { s.units with cipher := t.units.cipher, hash := t.units.hash, arc := t.units.arc }, mews := { s.mews with slots := t.mews.slots, cascades := t.mews.cascades }, kerb := { s.kerb with reports := t.kerb.reports }, fer := { s.fer with fleetRole := t.fer.fleetRole, wards := t.fer.wards, voucher := t.fer.voucher, lastSeq := t.fer.lastSeq }, bak := { s.bak with fleetRoot := t.bak.fleetRoot }, fnt := { s.fnt with state := t.fnt.state, absorbed := t.fnt.absorbed, credit := t.fnt.credit, seed := t.fnt.seed, int := t.fnt.int, sw := t.fnt.sw, katBusy := t.fnt.katBusy, draws := t.fnt.draws, part := t.fnt.part, got := t.fnt.got, rng := t.fnt.rng, rngDone := t.fnt.rngDone, rngDead := t.fnt.rngDead }, curves := t.curves, xing := { s.xing with mirror := t.xing.mirror, sess := t.xing.sess }, fleet := t.fleet, clk := { s.clk with load := t.clk.load }, chk := { s.chk with slotBad := t.chk.slotBad } } ∧ OtherRegs s t [Reg.CT_CMD, Reg.QUAY_RPL_HITS, Reg.RBT_LATE, Reg.MEWS_REVOKES, Reg.COMP_AUTH_FAIL, Reg.COMP_DONE, Reg.FLEET_CMD] [Reg.PAGE_STAT, Reg.INT_STAT, Reg.ERR_SYND, Reg.ERR_ADDR, Reg.FAULT_CNT, Reg.QUAY_LINK_STAT] []) ∧
  (∀ (s : State) (src : Src) (fails : Nat), Reaches s src Reg.FLEET_CMD → fleetBusy s = false → twinState s = true → s.fer.fleetRole ≠ 2 ∨ s.bak.fleetRoot = none → 
    Answers (.accept src fails) s fun t => fld t Reg.FLEET_CMD 7 4 = 1 ∧ t.bak = s.bak ∧ t.fer = s.fer ∧ t = { s with out := t.out, regs := t.regs, parBad := t.parBad, wins := t.wins, quay := { s.quay with queues := t.quay.queues, doms := t.quay.doms, domRR := t.quay.domRR, ctxs := t.quay.ctxs, msix := t.quay.msix }, units := { s.units with cipher := t.units.cipher, hash := t.units.hash, arc := t.units.arc }, mews := { s.mews with slots := t.mews.slots, cascades := t.mews.cascades }, kerb := { s.kerb with reports := t.kerb.reports }, fer := { s.fer with fleetRole := t.fer.fleetRole, wards := t.fer.wards, voucher := t.fer.voucher, lastSeq := t.fer.lastSeq }, bak := { s.bak with fleetRoot := t.bak.fleetRoot }, fnt := { s.fnt with state := t.fnt.state, absorbed := t.fnt.absorbed, credit := t.fnt.credit, seed := t.fnt.seed, int := t.fnt.int, sw := t.fnt.sw, katBusy := t.fnt.katBusy, draws := t.fnt.draws, part := t.fnt.part, got := t.fnt.got, rng := t.fnt.rng, rngDone := t.fnt.rngDone, rngDead := t.fnt.rngDead }, curves := t.curves, xing := { s.xing with mirror := t.xing.mirror, sess := t.xing.sess }, fleet := t.fleet, clk := { s.clk with load := t.clk.load }, chk := { s.chk with slotBad := t.chk.slotBad } } ∧ OtherRegs s t [Reg.CT_CMD, Reg.QUAY_RPL_HITS, Reg.RBT_LATE, Reg.MEWS_REVOKES, Reg.COMP_AUTH_FAIL, Reg.COMP_DONE, Reg.FLEET_CMD] [Reg.PAGE_STAT, Reg.INT_STAT, Reg.ERR_SYND, Reg.ERR_ADDR, Reg.FAULT_CNT, Reg.QUAY_LINK_STAT] []) ∧
  (∀ (s : State) (src : Src) (fails : Nat), Reaches s src Reg.FLEET_CMD → fleetBusy s = false → twinState s = true → s.fer.fleetRole = 1 → fails < 3 → 
    Answers (.retireWard src fails) s fun t => (if paired s = true ∧ s.xing.seqr = false then t.fer = s.fer ∧ t.xing.mirror.length = s.xing.mirror.length + 1 ∧ (t.xing.mirror.getLast?.map (·.wait)) = some (.ward (fld s Reg.FLEET_WARD_SEL 9 0) (none)) else (if paired s = true then t.xing.mirror.length = s.xing.mirror.length + 1 ∧ (t.xing.mirror.getLast?.map (·.wait)) = some (.fleet none 0) else fld t Reg.FLEET_CMD 7 4 = 0) ∧ tfind t.fer.wards (fld s Reg.FLEET_WARD_SEL 9 0) = none ∧ (∀ m, m ≠ (fld s Reg.FLEET_WARD_SEL 9 0) → tfind t.fer.wards m = tfind s.fer.wards m)) ∧ t.bak = s.bak ∧ t = { s with out := t.out, regs := t.regs, parBad := t.parBad, quay := { s.quay with msix := t.quay.msix }, fer := { s.fer with wards := t.fer.wards }, xing := { s.xing with mirror := t.xing.mirror, sess := t.xing.sess }, fleet := { s.fleet with held := t.fleet.held } } ∧ OtherRegs s t [Reg.FLEET_CMD] [Reg.INT_STAT, Reg.ERR_SYND, Reg.ERR_ADDR] []) ∧
  (∀ (s : State) (src : Src) (fails : Nat), Reaches s src Reg.FLEET_CMD → fleetBusy s = false → twinState s = true → s.fer.fleetRole ≠ 1 ∨ 3 ≤ fails → 
    Answers (.retireWard src fails) s fun t => (if s.fer.fleetRole ≠ 1 then fld t Reg.FLEET_CMD 7 4 = 1 else fld t Reg.FLEET_CMD 7 4 = 9) ∧ t.bak = s.bak ∧ t.fer = s.fer ∧ t = { s with out := t.out, regs := t.regs, parBad := t.parBad, quay := { s.quay with msix := t.quay.msix }, fer := { s.fer with wards := t.fer.wards }, xing := { s.xing with mirror := t.xing.mirror, sess := t.xing.sess }, fleet := { s.fleet with held := t.fleet.held } } ∧ OtherRegs s t [Reg.FLEET_CMD] [Reg.INT_STAT, Reg.ERR_SYND, Reg.ERR_ADDR] []) ∧
  (∀ (s : State) (src : Src) (fails : Nat), Reaches s src Reg.FLEET_CMD → fleetBusy s = false → twinState s = true → fails < 3 → s.fer.fleetRole ≠ 1 ∨ paired s = false ∨ s.xing.seqr = true → 
    Answers (.dissolve src fails) s fun t => t.fer = { s.fer with fleetRole := 0, wards := [], voucher := [], lastSeq := 0 } ∧ t.bak = { s.bak with fleetRoot := none } ∧ (if s.fer.fleetRole = 1 ∧ paired s = true then t.xing.mirror.length = s.xing.mirror.length + 1 ∧ (t.xing.mirror.getLast?.map (·.wait)) = some (.fleet none 0) else fld t Reg.FLEET_CMD 7 4 = 0) ∧ t = { s with out := t.out, regs := t.regs, parBad := t.parBad, quay := { s.quay with msix := t.quay.msix }, fer := { s.fer with fleetRole := t.fer.fleetRole, wards := t.fer.wards, voucher := t.fer.voucher, lastSeq := t.fer.lastSeq }, bak := { s.bak with fleetRoot := t.bak.fleetRoot }, xing := { s.xing with mirror := t.xing.mirror, sess := t.xing.sess }, fleet := { s.fleet with held := t.fleet.held } } ∧ OtherRegs s t [Reg.FLEET_CMD] [Reg.INT_STAT, Reg.ERR_SYND, Reg.ERR_ADDR] []) ∧
  (∀ (s : State) (src : Src) (fails : Nat), Reaches s src Reg.FLEET_CMD → fleetBusy s = false → twinState s = true → fails < 3 → s.fer.fleetRole = 1 → paired s = true → s.xing.seqr = false → 
    Answers (.dissolve src fails) s fun t => t.fer = s.fer ∧ t.bak = s.bak ∧ t.xing.mirror.length = s.xing.mirror.length + 1 ∧ (t.xing.mirror.getLast?.map (·.wait)) = some .dissolve ∧ t = { s with out := t.out, regs := t.regs, parBad := t.parBad, quay := { s.quay with msix := t.quay.msix }, fer := { s.fer with fleetRole := t.fer.fleetRole, wards := t.fer.wards, voucher := t.fer.voucher, lastSeq := t.fer.lastSeq }, bak := { s.bak with fleetRoot := t.bak.fleetRoot }, xing := { s.xing with mirror := t.xing.mirror, sess := t.xing.sess }, fleet := { s.fleet with held := t.fleet.held } } ∧ OtherRegs s t [Reg.FLEET_CMD] [Reg.INT_STAT, Reg.ERR_SYND, Reg.ERR_ADDR] []) ∧
  (∀ (s : State) (src : Src) (fails : Nat), Reaches s src Reg.FLEET_CMD → fleetBusy s = false → twinState s = true → 3 ≤ fails → 
    Answers (.dissolve src fails) s fun t => fld t Reg.FLEET_CMD 7 4 = 9 ∧ t.bak = s.bak ∧ t.fer = s.fer ∧ t = { s with out := t.out, regs := t.regs, parBad := t.parBad, quay := { s.quay with msix := t.quay.msix }, fer := { s.fer with fleetRole := t.fer.fleetRole, wards := t.fer.wards, voucher := t.fer.voucher, lastSeq := t.fer.lastSeq }, bak := { s.bak with fleetRoot := t.bak.fleetRoot }, xing := { s.xing with mirror := t.xing.mirror, sess := t.xing.sess }, fleet := { s.fleet with held := t.fleet.held } } ∧ OtherRegs s t [Reg.FLEET_CMD] [Reg.INT_STAT, Reg.ERR_SYND, Reg.ERR_ADDR] []) ∧
  (∀ (s : State) (src : Src), Reaches s src Reg.FLEET_CMD → fleetBusy s = false → twinState s = false → 
    Answers (.found src) s fun t => t.bak = s.bak ∧ t.fer = s.fer ∧ fld t Reg.FLEET_CMD 7 4 = 1 ∧ t = { s with out := t.out, regs := t.regs, parBad := t.parBad, quay := { s.quay with msix := t.quay.msix }, units := { s.units with arc := t.units.arc }, fer := { s.fer with fleetRole := t.fer.fleetRole, fleetId := t.fer.fleetId }, bak := { s.bak with fleetRoot := t.bak.fleetRoot }, fnt := { s.fnt with draws := t.fnt.draws, part := t.fnt.part, got := t.fnt.got, rng := t.fnt.rng, rngDone := t.fnt.rngDone, rngDead := t.fnt.rngDead }, fleet := { s.fleet with held := t.fleet.held } } ∧ OtherRegs s t [Reg.FLEET_CMD] [Reg.INT_STAT, Reg.ERR_SYND, Reg.ERR_ADDR] [0x49, 0x4A, 0x4B, 0x4C, 0x4D, 0x4E, 0x4F]) ∧
  (∀ (s : State) (src : Src), Reaches s src Reg.FLEET_CMD → fleetBusy s = true → rbit s (rk 0x49 Reg.ERR_SYND) 23 = false → 
    Answers (.found src) s fun t => t.bak = s.bak ∧ t.fer = s.fer ∧ t.fleet = s.fleet ∧ fld t (rk 0x49 Reg.ERR_SYND) 31 24 = 0x10 ∧ reg t (rk 0x49 Reg.ERR_ADDR) = 1 ∧ t = { s with out := t.out, regs := t.regs, parBad := t.parBad, quay := { s.quay with msix := t.quay.msix }, units := { s.units with arc := t.units.arc }, fer := { s.fer with fleetRole := t.fer.fleetRole, fleetId := t.fer.fleetId }, bak := { s.bak with fleetRoot := t.bak.fleetRoot }, fnt := { s.fnt with draws := t.fnt.draws, part := t.fnt.part, got := t.fnt.got, rng := t.fnt.rng, rngDone := t.fnt.rngDone, rngDead := t.fnt.rngDead }, fleet := { s.fleet with held := t.fleet.held } } ∧ OtherRegs s t [Reg.FLEET_CMD] [Reg.INT_STAT, Reg.ERR_SYND, Reg.ERR_ADDR] [0x49, 0x4A, 0x4B, 0x4C, 0x4D, 0x4E, 0x4F]) ∧
  (∀ (s : State) (src : Src) (fails : Nat), Reaches s src Reg.FLEET_CMD → fleetBusy s = false → twinState s = false → 
    Answers (.enrol src fails) s fun t => t.bak = s.bak ∧ t.fer = s.fer ∧ fld t Reg.FLEET_CMD 7 4 = 1 ∧ t = { s with out := t.out, regs := t.regs, parBad := t.parBad, quay := { s.quay with msix := t.quay.msix }, units := { s.units with arc := t.units.arc }, fer := { s.fer with fleetRole := t.fer.fleetRole, fleetId := t.fer.fleetId, voucher := t.fer.voucher, lastSeq := t.fer.lastSeq }, bak := { s.bak with fleetRoot := t.bak.fleetRoot }, fnt := { s.fnt with draws := t.fnt.draws, part := t.fnt.part, got := t.fnt.got, rng := t.fnt.rng, rngDone := t.fnt.rngDone, rngDead := t.fnt.rngDead }, fleet := { s.fleet with held := t.fleet.held } } ∧ OtherRegs s t [Reg.FLEET_CMD, Reg.FLEET_ID_LO, Reg.FLEET_ID_HI] [Reg.INT_STAT, Reg.ERR_SYND, Reg.ERR_ADDR] [0x49, 0x4A, 0x4B, 0x4C, 0x4D, 0x4E, 0x4F]) ∧
  (∀ (s : State) (src : Src) (fails : Nat), Reaches s src Reg.FLEET_CMD → fleetBusy s = true → rbit s (rk 0x49 Reg.ERR_SYND) 23 = false → 
    Answers (.enrol src fails) s fun t => t.bak = s.bak ∧ t.fer = s.fer ∧ t.fleet = s.fleet ∧ fld t (rk 0x49 Reg.ERR_SYND) 31 24 = 0x10 ∧ reg t (rk 0x49 Reg.ERR_ADDR) = 2 ∧ t = { s with out := t.out, regs := t.regs, parBad := t.parBad, quay := { s.quay with msix := t.quay.msix }, units := { s.units with arc := t.units.arc }, fer := { s.fer with fleetRole := t.fer.fleetRole, fleetId := t.fer.fleetId, voucher := t.fer.voucher, lastSeq := t.fer.lastSeq }, bak := { s.bak with fleetRoot := t.bak.fleetRoot }, fnt := { s.fnt with draws := t.fnt.draws, part := t.fnt.part, got := t.fnt.got, rng := t.fnt.rng, rngDone := t.fnt.rngDone, rngDead := t.fnt.rngDead }, fleet := { s.fleet with held := t.fleet.held } } ∧ OtherRegs s t [Reg.FLEET_CMD, Reg.FLEET_ID_LO, Reg.FLEET_ID_HI] [Reg.INT_STAT, Reg.ERR_SYND, Reg.ERR_ADDR] [0x49, 0x4A, 0x4B, 0x4C, 0x4D, 0x4E, 0x4F]) ∧
  (∀ (s : State) (src : Src) (fails : Nat), Reaches s src Reg.FLEET_CMD → fleetBusy s = false → twinState s = false → 
    Answers (.fleetAdmit src fails) s fun t => t.bak = s.bak ∧ t.fer = s.fer ∧ fld t Reg.FLEET_CMD 7 4 = 1 ∧ t = { s with out := t.out, regs := t.regs, parBad := t.parBad, quay := { s.quay with msix := t.quay.msix }, units := { s.units with arc := t.units.arc }, fer := { s.fer with wards := t.fer.wards }, fnt := { s.fnt with draws := t.fnt.draws, part := t.fnt.part, got := t.fnt.got, rng := t.fnt.rng, rngDone := t.fnt.rngDone, rngDead := t.fnt.rngDead }, xing := { s.xing with mirror := t.xing.mirror, sess := t.xing.sess }, fleet := { s.fleet with held := t.fleet.held } } ∧ OtherRegs s t [Reg.FLEET_CMD] [Reg.INT_STAT, Reg.ERR_SYND, Reg.ERR_ADDR] []) ∧
  (∀ (s : State) (src : Src) (fails : Nat), Reaches s src Reg.FLEET_CMD → fleetBusy s = true → rbit s (rk 0x49 Reg.ERR_SYND) 23 = false → 
    Answers (.fleetAdmit src fails) s fun t => t.bak = s.bak ∧ t.fer = s.fer ∧ t.fleet = s.fleet ∧ fld t (rk 0x49 Reg.ERR_SYND) 31 24 = 0x10 ∧ reg t (rk 0x49 Reg.ERR_ADDR) = 3 ∧ t = { s with out := t.out, regs := t.regs, parBad := t.parBad, quay := { s.quay with msix := t.quay.msix }, units := { s.units with arc := t.units.arc }, fer := { s.fer with wards := t.fer.wards }, fnt := { s.fnt with draws := t.fnt.draws, part := t.fnt.part, got := t.fnt.got, rng := t.fnt.rng, rngDone := t.fnt.rngDone, rngDead := t.fnt.rngDead }, xing := { s.xing with mirror := t.xing.mirror, sess := t.xing.sess }, fleet := { s.fleet with held := t.fleet.held } } ∧ OtherRegs s t [Reg.FLEET_CMD] [Reg.INT_STAT, Reg.ERR_SYND, Reg.ERR_ADDR] []) ∧
  (∀ (s : State) (src : Src), Reaches s src Reg.FLEET_CMD → fleetBusy s = false → twinState s = false → 
    Answers (.make src) s fun t => t.bak = s.bak ∧ t.fer = s.fer ∧ fld t Reg.FLEET_CMD 7 4 = 1 ∧ t = { s with out := t.out, regs := t.regs, parBad := t.parBad, quay := { s.quay with msix := t.quay.msix }, units := { s.units with arc := t.units.arc }, fer := { s.fer with wards := t.fer.wards }, fnt := { s.fnt with draws := t.fnt.draws, part := t.fnt.part, got := t.fnt.got, rng := t.fnt.rng, rngDone := t.fnt.rngDone, rngDead := t.fnt.rngDead }, xing := { s.xing with mirror := t.xing.mirror, sess := t.xing.sess }, fleet := { s.fleet with held := t.fleet.held } } ∧ OtherRegs s t [Reg.FLEET_CMD] [Reg.INT_STAT, Reg.ERR_SYND, Reg.ERR_ADDR] [0x49, 0x4A, 0x4B, 0x4C, 0x4D, 0x4E, 0x4F]) ∧
  (∀ (s : State) (src : Src), Reaches s src Reg.FLEET_CMD → fleetBusy s = true → rbit s (rk 0x49 Reg.ERR_SYND) 23 = false → 
    Answers (.make src) s fun t => t.bak = s.bak ∧ t.fer = s.fer ∧ t.fleet = s.fleet ∧ fld t (rk 0x49 Reg.ERR_SYND) 31 24 = 0x10 ∧ reg t (rk 0x49 Reg.ERR_ADDR) = 4 ∧ t = { s with out := t.out, regs := t.regs, parBad := t.parBad, quay := { s.quay with msix := t.quay.msix }, units := { s.units with arc := t.units.arc }, fer := { s.fer with wards := t.fer.wards }, fnt := { s.fnt with draws := t.fnt.draws, part := t.fnt.part, got := t.fnt.got, rng := t.fnt.rng, rngDone := t.fnt.rngDone, rngDead := t.fnt.rngDead }, xing := { s.xing with mirror := t.xing.mirror, sess := t.xing.sess }, fleet := { s.fleet with held := t.fleet.held } } ∧ OtherRegs s t [Reg.FLEET_CMD] [Reg.INT_STAT, Reg.ERR_SYND, Reg.ERR_ADDR] [0x49, 0x4A, 0x4B, 0x4C, 0x4D, 0x4E, 0x4F]) ∧
  (∀ (s : State) (src : Src) (fails : Nat), Reaches s src Reg.FLEET_CMD → fleetBusy s = false → twinState s = false → 
    Answers (.accept src fails) s fun t => t.bak = s.bak ∧ t.fer = s.fer ∧ fld t Reg.FLEET_CMD 7 4 = 1 ∧ t = { s with out := t.out, regs := t.regs, parBad := t.parBad, wins := t.wins, quay := { s.quay with queues := t.quay.queues, doms := t.quay.doms, domRR := t.quay.domRR, ctxs := t.quay.ctxs, msix := t.quay.msix }, units := { s.units with cipher := t.units.cipher, hash := t.units.hash, arc := t.units.arc }, mews := { s.mews with slots := t.mews.slots, cascades := t.mews.cascades }, kerb := { s.kerb with reports := t.kerb.reports }, fer := { s.fer with fleetRole := t.fer.fleetRole, wards := t.fer.wards, voucher := t.fer.voucher, lastSeq := t.fer.lastSeq }, bak := { s.bak with fleetRoot := t.bak.fleetRoot }, fnt := { s.fnt with state := t.fnt.state, absorbed := t.fnt.absorbed, credit := t.fnt.credit, seed := t.fnt.seed, int := t.fnt.int, sw := t.fnt.sw, katBusy := t.fnt.katBusy, draws := t.fnt.draws, part := t.fnt.part, got := t.fnt.got, rng := t.fnt.rng, rngDone := t.fnt.rngDone, rngDead := t.fnt.rngDead }, curves := t.curves, xing := { s.xing with mirror := t.xing.mirror, sess := t.xing.sess }, fleet := t.fleet, clk := { s.clk with load := t.clk.load }, chk := { s.chk with slotBad := t.chk.slotBad } } ∧ OtherRegs s t [Reg.CT_CMD, Reg.QUAY_RPL_HITS, Reg.RBT_LATE, Reg.MEWS_REVOKES, Reg.COMP_AUTH_FAIL, Reg.COMP_DONE, Reg.FLEET_CMD] [Reg.PAGE_STAT, Reg.INT_STAT, Reg.ERR_SYND, Reg.ERR_ADDR, Reg.FAULT_CNT, Reg.QUAY_LINK_STAT] []) ∧
  (∀ (s : State) (src : Src) (fails : Nat), Reaches s src Reg.FLEET_CMD → fleetBusy s = true → rbit s (rk 0x49 Reg.ERR_SYND) 23 = false → 
    Answers (.accept src fails) s fun t => t.bak = s.bak ∧ t.fer = s.fer ∧ t.fleet = s.fleet ∧ fld t (rk 0x49 Reg.ERR_SYND) 31 24 = 0x10 ∧ reg t (rk 0x49 Reg.ERR_ADDR) = 5 ∧ t = { s with out := t.out, regs := t.regs, parBad := t.parBad, wins := t.wins, quay := { s.quay with queues := t.quay.queues, doms := t.quay.doms, domRR := t.quay.domRR, ctxs := t.quay.ctxs, msix := t.quay.msix }, units := { s.units with cipher := t.units.cipher, hash := t.units.hash, arc := t.units.arc }, mews := { s.mews with slots := t.mews.slots, cascades := t.mews.cascades }, kerb := { s.kerb with reports := t.kerb.reports }, fer := { s.fer with fleetRole := t.fer.fleetRole, wards := t.fer.wards, voucher := t.fer.voucher, lastSeq := t.fer.lastSeq }, bak := { s.bak with fleetRoot := t.bak.fleetRoot }, fnt := { s.fnt with state := t.fnt.state, absorbed := t.fnt.absorbed, credit := t.fnt.credit, seed := t.fnt.seed, int := t.fnt.int, sw := t.fnt.sw, katBusy := t.fnt.katBusy, draws := t.fnt.draws, part := t.fnt.part, got := t.fnt.got, rng := t.fnt.rng, rngDone := t.fnt.rngDone, rngDead := t.fnt.rngDead }, curves := t.curves, xing := { s.xing with mirror := t.xing.mirror, sess := t.xing.sess }, fleet := t.fleet, clk := { s.clk with load := t.clk.load }, chk := { s.chk with slotBad := t.chk.slotBad } } ∧ OtherRegs s t [Reg.CT_CMD, Reg.QUAY_RPL_HITS, Reg.RBT_LATE, Reg.MEWS_REVOKES, Reg.COMP_AUTH_FAIL, Reg.COMP_DONE, Reg.FLEET_CMD] [Reg.PAGE_STAT, Reg.INT_STAT, Reg.ERR_SYND, Reg.ERR_ADDR, Reg.FAULT_CNT, Reg.QUAY_LINK_STAT] []) ∧
  (∀ (s : State) (src : Src) (fails : Nat), Reaches s src Reg.FLEET_CMD → fleetBusy s = false → twinState s = false → 
    Answers (.retireWard src fails) s fun t => t.bak = s.bak ∧ t.fer = s.fer ∧ fld t Reg.FLEET_CMD 7 4 = 1 ∧ t = { s with out := t.out, regs := t.regs, parBad := t.parBad, quay := { s.quay with msix := t.quay.msix }, fer := { s.fer with wards := t.fer.wards }, xing := { s.xing with mirror := t.xing.mirror, sess := t.xing.sess }, fleet := { s.fleet with held := t.fleet.held } } ∧ OtherRegs s t [Reg.FLEET_CMD] [Reg.INT_STAT, Reg.ERR_SYND, Reg.ERR_ADDR] []) ∧
  (∀ (s : State) (src : Src) (fails : Nat), Reaches s src Reg.FLEET_CMD → fleetBusy s = true → rbit s (rk 0x49 Reg.ERR_SYND) 23 = false → 
    Answers (.retireWard src fails) s fun t => t.bak = s.bak ∧ t.fer = s.fer ∧ t.fleet = s.fleet ∧ fld t (rk 0x49 Reg.ERR_SYND) 31 24 = 0x10 ∧ reg t (rk 0x49 Reg.ERR_ADDR) = 6 ∧ t = { s with out := t.out, regs := t.regs, parBad := t.parBad, quay := { s.quay with msix := t.quay.msix }, fer := { s.fer with wards := t.fer.wards }, xing := { s.xing with mirror := t.xing.mirror, sess := t.xing.sess }, fleet := { s.fleet with held := t.fleet.held } } ∧ OtherRegs s t [Reg.FLEET_CMD] [Reg.INT_STAT, Reg.ERR_SYND, Reg.ERR_ADDR] []) ∧
  (∀ (s : State) (src : Src) (fails : Nat), Reaches s src Reg.FLEET_CMD → fleetBusy s = false → twinState s = false → 
    Answers (.dissolve src fails) s fun t => t.bak = s.bak ∧ t.fer = s.fer ∧ fld t Reg.FLEET_CMD 7 4 = 1 ∧ t = { s with out := t.out, regs := t.regs, parBad := t.parBad, quay := { s.quay with msix := t.quay.msix }, fer := { s.fer with fleetRole := t.fer.fleetRole, wards := t.fer.wards, voucher := t.fer.voucher, lastSeq := t.fer.lastSeq }, bak := { s.bak with fleetRoot := t.bak.fleetRoot }, xing := { s.xing with mirror := t.xing.mirror, sess := t.xing.sess }, fleet := { s.fleet with held := t.fleet.held } } ∧ OtherRegs s t [Reg.FLEET_CMD] [Reg.INT_STAT, Reg.ERR_SYND, Reg.ERR_ADDR] []) ∧
  (∀ (s : State) (src : Src) (fails : Nat), Reaches s src Reg.FLEET_CMD → fleetBusy s = true → rbit s (rk 0x49 Reg.ERR_SYND) 23 = false → 
    Answers (.dissolve src fails) s fun t => t.bak = s.bak ∧ t.fer = s.fer ∧ t.fleet = s.fleet ∧ fld t (rk 0x49 Reg.ERR_SYND) 31 24 = 0x10 ∧ reg t (rk 0x49 Reg.ERR_ADDR) = 7 ∧ t = { s with out := t.out, regs := t.regs, parBad := t.parBad, quay := { s.quay with msix := t.quay.msix }, fer := { s.fer with fleetRole := t.fer.fleetRole, wards := t.fer.wards, voucher := t.fer.voucher, lastSeq := t.fer.lastSeq }, bak := { s.bak with fleetRoot := t.bak.fleetRoot }, xing := { s.xing with mirror := t.xing.mirror, sess := t.xing.sess }, fleet := { s.fleet with held := t.fleet.held } } ∧ OtherRegs s t [Reg.FLEET_CMD] [Reg.INT_STAT, Reg.ERR_SYND, Reg.ERR_ADDR] []) ∧
  (∀ (s p : State) (hit : Option Hit), p = drbgGenerate s false hit → p.xing.held = none → p.fleet.held = some .found → (foundRun p).xing.upWait = none ∧ (foundRun p).life.op = none ∧ (foundRun p).load = none → 
    Answers (.drbgGenerate ⟨false, hit⟩) s fun t => t = foundRun p) ∧
  (∀ (s p : State) (hit : Option Hit), p = drbgGenerate s false hit → p.xing.held = none → p.fleet.held = some .foundRoot → (foundRoot p).xing.upWait = none ∧ (foundRoot p).life.op = none ∧ (foundRoot p).load = none → 
    Answers (.drbgGenerate ⟨false, hit⟩) s fun t => t = foundRoot p) ∧
  (∀ (s p : State) (hit : Option Hit) (fails : Nat), p = drbgGenerate s false hit → p.xing.held = none → p.fleet.held = some (.enrol fails) → (enrolRun p fails).xing.upWait = none ∧ (enrolRun p fails).life.op = none ∧ (enrolRun p fails).load = none → 
    Answers (.drbgGenerate ⟨false, hit⟩) s fun t => t = enrolRun p fails) ∧
  (∀ (s p : State) (hit : Option Hit) (fails : Nat), p = drbgGenerate s false hit → p.xing.held = none → p.fleet.held = some (.admission fails) → (admissionRun p fails).xing.upWait = none ∧ (admissionRun p fails).life.op = none ∧ (admissionRun p fails).load = none → 
    Answers (.drbgGenerate ⟨false, hit⟩) s fun t => t = admissionRun p fails) ∧
  (∀ (s p : State) (hit : Option Hit), p = drbgGenerate s false hit → p.xing.held = none → p.fleet.held = some .make → (makeRun p).xing.upWait = none ∧ (makeRun p).life.op = none ∧ (makeRun p).load = none → 
    Answers (.drbgGenerate ⟨false, hit⟩) s fun t => t = makeRun p)

/-- A Depot command written while none runs, outside lockdown and with a card that is READY where the command needs one, begins: INIT power-cycles and identifies the card, READ, WRITE and SEG_WRITE start their first run within SRAM and card, RAW sends its command; where a retune is due the sweep comes first. POWER_OFF removes the supply; ABORT marks the running command. Otherwise the command ends with the RESULT of the first check that fails, and one while BUSY is recorded. Responses take INIT from step to step and a transfer to its data; a failed one is sent again, then the mode falls back, and the third timeout in a row loses the card; data are stored and counted, the end of busy confirms a run, a timeout of busy, a Seal failure and the loss of the card end the command; tuning chooses the centre of the widest run of taps. What does not belong to the command in hand does nothing. Each clause names what may change beside; every other part of the state and every other register is as before. Forms whose completion it states: depotInit, depotRead, depotWrite, segWrite, depotRaw, powerOff, depotAbort, sdResponse, cardBusyEnd, sdDataBlock, busyTimeout, retuneTimer, cardLost, cardIn. (R471, R472, R474, R475, R476, R477, R479, R480, R481, R482, R484, R485) -/
def Obligations.DepotEffects : Prop :=
  (∀ (s : State) (src : Src), Reaches s src Reg.DEPOT_CMD → depotBusy s = false → s.kerb.lockdown = false → sdPresent s = true → 
    Answers (.depotInit src) s fun t => t.sd = { s.sd with op := some { kind := .start, idx := 8, arg := 0x1AA }, rca := 0, timeouts := 0, retune := false, clk := true } ∧ rbit t Reg.DEPOT_STAT 6 = true ∧ fld t Reg.DEPOT_STAT 5 1 = 0 ∧ reg t Reg.DEPOT_CAP = 0 ∧ t.out.head? = some (.sdCmd (cmdToken 8 0x1AA)) ∧ Out.sdCmd (cmdToken 0 0) ∈ t.out ∧ Out.pin "DEPOT_VEN" 1 ∈ t.out ∧ (rbit s Reg.DEPOT_STAT 6 = true → Out.pin "DEPOT_VEN" 0 ∈ t.out) ∧ t = { s with out := t.out, regs := t.regs, parBad := t.parBad, quay := { s.quay with msix := t.quay.msix }, sd := { s.sd with op := t.sd.op, clk := t.sd.clk, rca := t.sd.rca, timeouts := t.sd.timeouts, retune := t.sd.retune } } ∧ OtherRegs s t [Reg.DEPOT_STAT, Reg.DEPOT_CAP, Reg.DEPOT_CMD] [Reg.INT_STAT, Reg.ERR_SYND, Reg.ERR_ADDR] []) ∧
  (∀ (s : State) (src : Src), Reaches s src Reg.DEPOT_CMD → depotBusy s = false → s.kerb.lockdown = false → sdPresent s = true → sdReady s = true → sramBase ≤ (xferOp s .read).buf → (xferOp s .read).buf + 512 * (xferOp s .read).count ≤ sramEnd → (xferOp s .read).lba + (xferOp s .read).count ≤ fld s Reg.DEPOT_CAP 22 0 * 1024 → s.sd.retune = false → 
    Answers (.depotRead src) s fun t => t.sd = { s.sd with clk := true, op := some { xferOp s .read with run := min 8 (xferOp s .read).count, idx := if min 8 (xferOp s .read).count = 1 then 17 else 18, arg := (xferOp s .read).lba } } ∧ reg t Reg.DEPOT_DONE = 0 ∧ t = { s with out := t.out, regs := t.regs, parBad := t.parBad, quay := { s.quay with msix := t.quay.msix }, sd := { s.sd with op := t.sd.op, clk := t.sd.clk } } ∧ OtherRegs s t [Reg.DEPOT_CMD, Reg.DEPOT_DONE] [Reg.INT_STAT, Reg.ERR_SYND, Reg.ERR_ADDR] []) ∧
  (∀ (s : State) (src : Src), Reaches s src Reg.DEPOT_CMD → depotBusy s = false → s.kerb.lockdown = false → sdPresent s = true → sdReady s = true → sramBase ≤ (xferOp s .read).buf → (xferOp s .read).buf + 512 * (xferOp s .read).count ≤ sramEnd → (xferOp s .read).lba + (xferOp s .read).count ≤ fld s Reg.DEPOT_CAP 22 0 * 1024 → s.sd.retune = true → 
    Answers (.depotRead src) s fun t => t.sd = { s.sd with clk := true, op := some { xferOp s .read with wait := .tune } } ∧ reg t Reg.DEPOT_DONE = 0 ∧ t = { s with out := t.out, regs := t.regs, parBad := t.parBad, quay := { s.quay with msix := t.quay.msix }, sd := { s.sd with op := t.sd.op, clk := t.sd.clk } } ∧ OtherRegs s t [Reg.DEPOT_CMD, Reg.DEPOT_DONE] [Reg.INT_STAT, Reg.ERR_SYND, Reg.ERR_ADDR] []) ∧
  (∀ (s : State) (src : Src), Reaches s src Reg.DEPOT_CMD → depotBusy s = false → s.kerb.lockdown = false → sdPresent s = true → sdReady s = true → (xferOp s .read).buf < sramBase ∨ sramEnd < (xferOp s .read).buf + 512 * (xferOp s .read).count → 
    Answers (.depotRead src) s fun t => fld t Reg.DEPOT_CMD 7 4 = 6 ∧ reg t Reg.DEPOT_DONE = 0 ∧ t.sd = s.sd ∧ t = { s with out := t.out, regs := t.regs, parBad := t.parBad, quay := { s.quay with msix := t.quay.msix }, sd := { s.sd with op := t.sd.op, clk := t.sd.clk } } ∧ OtherRegs s t [Reg.DEPOT_CMD, Reg.DEPOT_DONE] [Reg.INT_STAT, Reg.ERR_SYND, Reg.ERR_ADDR] []) ∧
  (∀ (s : State) (src : Src), Reaches s src Reg.DEPOT_CMD → depotBusy s = false → s.kerb.lockdown = false → sdPresent s = true → sdReady s = true → sramBase ≤ (xferOp s .read).buf → (xferOp s .read).buf + 512 * (xferOp s .read).count ≤ sramEnd → fld s Reg.DEPOT_CAP 22 0 * 1024 < (xferOp s .read).lba + (xferOp s .read).count → 
    Answers (.depotRead src) s fun t => fld t Reg.DEPOT_CMD 7 4 = 8 ∧ reg t Reg.DEPOT_DONE = 0 ∧ t.sd = s.sd ∧ t = { s with out := t.out, regs := t.regs, parBad := t.parBad, quay := { s.quay with msix := t.quay.msix }, sd := { s.sd with op := t.sd.op, clk := t.sd.clk } } ∧ OtherRegs s t [Reg.DEPOT_CMD, Reg.DEPOT_DONE] [Reg.INT_STAT, Reg.ERR_SYND, Reg.ERR_ADDR] []) ∧
  (∀ (s : State) (src : Src), Reaches s src Reg.DEPOT_CMD → depotBusy s = false → s.kerb.lockdown = false → sdPresent s = true → sdReady s = true → sramBase ≤ (xferOp s .write).buf → (xferOp s .write).buf + 512 * (xferOp s .write).count ≤ sramEnd → (xferOp s .write).lba + (xferOp s .write).count ≤ fld s Reg.DEPOT_CAP 22 0 * 1024 → s.sd.retune = false → 
    Answers (.depotWrite src) s fun t => t.sd = { s.sd with clk := true, op := some { xferOp s .write with run := min 8 (xferOp s .write).count, idx := if min 8 (xferOp s .write).count = 1 then 24 else 25, arg := (xferOp s .write).lba } } ∧ reg t Reg.DEPOT_DONE = 0 ∧ t = { s with out := t.out, regs := t.regs, parBad := t.parBad, quay := { s.quay with msix := t.quay.msix }, sd := { s.sd with op := t.sd.op, clk := t.sd.clk } } ∧ OtherRegs s t [Reg.DEPOT_CMD, Reg.DEPOT_DONE] [Reg.INT_STAT, Reg.ERR_SYND, Reg.ERR_ADDR] []) ∧
  (∀ (s : State) (src : Src), Reaches s src Reg.DEPOT_CMD → depotBusy s = false → s.kerb.lockdown = false → sdPresent s = true → sdReady s = true → sramBase ≤ (xferOp s .write).buf → (xferOp s .write).buf + 512 * (xferOp s .write).count ≤ sramEnd → (xferOp s .write).lba + (xferOp s .write).count ≤ fld s Reg.DEPOT_CAP 22 0 * 1024 → s.sd.retune = true → 
    Answers (.depotWrite src) s fun t => t.sd = { s.sd with clk := true, op := some { xferOp s .write with wait := .tune } } ∧ reg t Reg.DEPOT_DONE = 0 ∧ t = { s with out := t.out, regs := t.regs, parBad := t.parBad, quay := { s.quay with msix := t.quay.msix }, sd := { s.sd with op := t.sd.op, clk := t.sd.clk } } ∧ OtherRegs s t [Reg.DEPOT_CMD, Reg.DEPOT_DONE] [Reg.INT_STAT, Reg.ERR_SYND, Reg.ERR_ADDR] []) ∧
  (∀ (s : State) (src : Src), Reaches s src Reg.DEPOT_CMD → depotBusy s = false → s.kerb.lockdown = false → sdPresent s = true → sdReady s = true → (xferOp s .write).buf < sramBase ∨ sramEnd < (xferOp s .write).buf + 512 * (xferOp s .write).count → 
    Answers (.depotWrite src) s fun t => fld t Reg.DEPOT_CMD 7 4 = 6 ∧ reg t Reg.DEPOT_DONE = 0 ∧ t.sd = s.sd ∧ t = { s with out := t.out, regs := t.regs, parBad := t.parBad, quay := { s.quay with msix := t.quay.msix }, sd := { s.sd with op := t.sd.op, clk := t.sd.clk } } ∧ OtherRegs s t [Reg.DEPOT_CMD, Reg.DEPOT_DONE] [Reg.INT_STAT, Reg.ERR_SYND, Reg.ERR_ADDR] []) ∧
  (∀ (s : State) (src : Src), Reaches s src Reg.DEPOT_CMD → depotBusy s = false → s.kerb.lockdown = false → sdPresent s = true → sdReady s = true → sramBase ≤ (xferOp s .write).buf → (xferOp s .write).buf + 512 * (xferOp s .write).count ≤ sramEnd → fld s Reg.DEPOT_CAP 22 0 * 1024 < (xferOp s .write).lba + (xferOp s .write).count → 
    Answers (.depotWrite src) s fun t => fld t Reg.DEPOT_CMD 7 4 = 8 ∧ reg t Reg.DEPOT_DONE = 0 ∧ t.sd = s.sd ∧ t = { s with out := t.out, regs := t.regs, parBad := t.parBad, quay := { s.quay with msix := t.quay.msix }, sd := { s.sd with op := t.sd.op, clk := t.sd.clk } } ∧ OtherRegs s t [Reg.DEPOT_CMD, Reg.DEPOT_DONE] [Reg.INT_STAT, Reg.ERR_SYND, Reg.ERR_ADDR] []) ∧
  (∀ (s : State) (src : Src), Reaches s src Reg.DEPOT_CMD → depotBusy s = false → s.kerb.lockdown = false → sdPresent s = true → sdReady s = true → sramBase ≤ (xferOp s .seg).buf → (xferOp s .seg).buf + 512 * (xferOp s .seg).count ≤ sramEnd → (xferOp s .seg).lba + (xferOp s .seg).count ≤ fld s Reg.DEPOT_CAP 22 0 * 1024 → (reg s Reg.DEPOT_JBASE).toNat + fld s Reg.DEPOT_XFER 31 15 < fld s Reg.DEPOT_CAP 22 0 * 1024 → s.sd.retune = false → 
    Answers (.segWrite src) s fun t => t.sd = { s.sd with clk := true, op := some { xferOp s .seg with run := 1, idx := if 1 = 1 then 24 else 24, arg := (reg s Reg.DEPOT_JBASE).toNat + fld s Reg.DEPOT_XFER 31 15 } } ∧ reg t Reg.DEPOT_DONE = 0 ∧ t = { s with out := t.out, regs := t.regs, parBad := t.parBad, quay := { s.quay with msix := t.quay.msix }, sd := { s.sd with op := t.sd.op, clk := t.sd.clk } } ∧ OtherRegs s t [Reg.DEPOT_CMD, Reg.DEPOT_DONE] [Reg.INT_STAT, Reg.ERR_SYND, Reg.ERR_ADDR] []) ∧
  (∀ (s : State) (src : Src), Reaches s src Reg.DEPOT_CMD → depotBusy s = false → s.kerb.lockdown = false → sdPresent s = true → sdReady s = true → sramBase ≤ (xferOp s .seg).buf → (xferOp s .seg).buf + 512 * (xferOp s .seg).count ≤ sramEnd → (xferOp s .seg).lba + (xferOp s .seg).count ≤ fld s Reg.DEPOT_CAP 22 0 * 1024 → (reg s Reg.DEPOT_JBASE).toNat + fld s Reg.DEPOT_XFER 31 15 < fld s Reg.DEPOT_CAP 22 0 * 1024 → s.sd.retune = true → 
    Answers (.segWrite src) s fun t => t.sd = { s.sd with clk := true, op := some { xferOp s .seg with wait := .tune } } ∧ reg t Reg.DEPOT_DONE = 0 ∧ t = { s with out := t.out, regs := t.regs, parBad := t.parBad, quay := { s.quay with msix := t.quay.msix }, sd := { s.sd with op := t.sd.op, clk := t.sd.clk } } ∧ OtherRegs s t [Reg.DEPOT_CMD, Reg.DEPOT_DONE] [Reg.INT_STAT, Reg.ERR_SYND, Reg.ERR_ADDR] []) ∧
  (∀ (s : State) (src : Src), Reaches s src Reg.DEPOT_CMD → depotBusy s = false → s.kerb.lockdown = false → sdPresent s = true → sdReady s = true → (xferOp s .seg).buf < sramBase ∨ sramEnd < (xferOp s .seg).buf + 512 * (xferOp s .seg).count → 
    Answers (.segWrite src) s fun t => fld t Reg.DEPOT_CMD 7 4 = 6 ∧ reg t Reg.DEPOT_DONE = 0 ∧ t.sd = s.sd ∧ t = { s with out := t.out, regs := t.regs, parBad := t.parBad, quay := { s.quay with msix := t.quay.msix }, sd := { s.sd with op := t.sd.op, clk := t.sd.clk } } ∧ OtherRegs s t [Reg.DEPOT_CMD, Reg.DEPOT_DONE] [Reg.INT_STAT, Reg.ERR_SYND, Reg.ERR_ADDR] []) ∧
  (∀ (s : State) (src : Src), Reaches s src Reg.DEPOT_CMD → depotBusy s = false → s.kerb.lockdown = false → sdPresent s = true → sdReady s = true → sramBase ≤ (xferOp s .seg).buf → (xferOp s .seg).buf + 512 * (xferOp s .seg).count ≤ sramEnd → fld s Reg.DEPOT_CAP 22 0 * 1024 < (xferOp s .seg).lba + (xferOp s .seg).count ∨ fld s Reg.DEPOT_CAP 22 0 * 1024 ≤ (reg s Reg.DEPOT_JBASE).toNat + fld s Reg.DEPOT_XFER 31 15 → 
    Answers (.segWrite src) s fun t => fld t Reg.DEPOT_CMD 7 4 = 8 ∧ reg t Reg.DEPOT_DONE = 0 ∧ t.sd = s.sd ∧ t = { s with out := t.out, regs := t.regs, parBad := t.parBad, quay := { s.quay with msix := t.quay.msix }, sd := { s.sd with op := t.sd.op, clk := t.sd.clk } } ∧ OtherRegs s t [Reg.DEPOT_CMD, Reg.DEPOT_DONE] [Reg.INT_STAT, Reg.ERR_SYND, Reg.ERR_ADDR] []) ∧
  (∀ (s : State) (src : Src), Reaches s src Reg.DEPOT_CMD → depotBusy s = false → s.kerb.lockdown = false → sdPresent s = true → sdReady s = true → (fld s Reg.DEPOT_RAW 5 0) ∉ [17, 18, 19, 24, 25] → fld s Reg.DEPOT_RAW 7 6 = 0 → s.sd.retune = false → 
    Answers (.depotRaw src) s fun t => Out.sdCmd (cmdToken (fld s Reg.DEPOT_RAW 5 0) (reg s Reg.DEPOT_ARG).toNat) ∈ t.out ∧ fld t Reg.DEPOT_CMD 7 4 = 0 ∧ t.sd = { s.sd with op := none, clk := false } ∧ t = { s with out := t.out, regs := t.regs, parBad := t.parBad, wins := t.wins, quay := { s.quay with msix := t.quay.msix }, kerb := { s.kerb with reports := t.kerb.reports }, fnt := { s.fnt with state := t.fnt.state, absorbed := t.fnt.absorbed, credit := t.fnt.credit, seed := t.fnt.seed, int := t.fnt.int, sw := t.fnt.sw, katBusy := t.fnt.katBusy, part := t.fnt.part, rngDead := t.fnt.rngDead }, load := t.load, autoload := t.autoload, sd := { s.sd with op := t.sd.op, clk := t.sd.clk } } ∧ OtherRegs s t [Reg.BOOT_STAT, Reg.DEPOT_STAT, Reg.DEPOT_CAP, Reg.DEPOT_CMD] [Reg.PAGE_STAT, Reg.INT_STAT, Reg.ERR_SYND, Reg.ERR_ADDR, Reg.FAULT_CNT] []) ∧
  (∀ (s : State) (src : Src), Reaches s src Reg.DEPOT_CMD → depotBusy s = false → s.kerb.lockdown = false → sdPresent s = true → sdReady s = true → (fld s Reg.DEPOT_RAW 5 0) ∉ [17, 18, 19, 24, 25] → fld s Reg.DEPOT_RAW 7 6 ≠ 0 → s.sd.retune = false → 
    Answers (.depotRaw src) s fun t => t.sd = { s.sd with clk := true, op := some { kind := .raw, idx := (fld s Reg.DEPOT_RAW 5 0), arg := (reg s Reg.DEPOT_ARG).toNat, rtype := fld s Reg.DEPOT_RAW 7 6 } } ∧ t.out.head? = some (.sdCmd (cmdToken (fld s Reg.DEPOT_RAW 5 0) (reg s Reg.DEPOT_ARG).toNat)) ∧ t = { s with out := t.out, regs := t.regs, parBad := t.parBad, wins := t.wins, quay := { s.quay with msix := t.quay.msix }, kerb := { s.kerb with reports := t.kerb.reports }, fnt := { s.fnt with state := t.fnt.state, absorbed := t.fnt.absorbed, credit := t.fnt.credit, seed := t.fnt.seed, int := t.fnt.int, sw := t.fnt.sw, katBusy := t.fnt.katBusy, part := t.fnt.part, rngDead := t.fnt.rngDead }, load := t.load, autoload := t.autoload, sd := { s.sd with op := t.sd.op, clk := t.sd.clk } } ∧ OtherRegs s t [Reg.BOOT_STAT, Reg.DEPOT_STAT, Reg.DEPOT_CAP, Reg.DEPOT_CMD] [Reg.PAGE_STAT, Reg.INT_STAT, Reg.ERR_SYND, Reg.ERR_ADDR, Reg.FAULT_CNT] []) ∧
  (∀ (s : State) (src : Src), Reaches s src Reg.DEPOT_CMD → depotBusy s = false → s.kerb.lockdown = false → sdPresent s = true → sdReady s = true → (fld s Reg.DEPOT_RAW 5 0) ∉ [17, 18, 19, 24, 25] → s.sd.retune = true → 
    Answers (.depotRaw src) s fun t => t.sd = { s.sd with clk := true, op := some { ({ kind := .raw, idx := (fld s Reg.DEPOT_RAW 5 0), arg := (reg s Reg.DEPOT_ARG).toNat, rtype := fld s Reg.DEPOT_RAW 7 6 } : SdOp) with wait := .tune } } ∧ t = { s with out := t.out, regs := t.regs, parBad := t.parBad, wins := t.wins, quay := { s.quay with msix := t.quay.msix }, kerb := { s.kerb with reports := t.kerb.reports }, fnt := { s.fnt with state := t.fnt.state, absorbed := t.fnt.absorbed, credit := t.fnt.credit, seed := t.fnt.seed, int := t.fnt.int, sw := t.fnt.sw, katBusy := t.fnt.katBusy, part := t.fnt.part, rngDead := t.fnt.rngDead }, load := t.load, autoload := t.autoload, sd := { s.sd with op := t.sd.op, clk := t.sd.clk } } ∧ OtherRegs s t [Reg.BOOT_STAT, Reg.DEPOT_STAT, Reg.DEPOT_CAP, Reg.DEPOT_CMD] [Reg.PAGE_STAT, Reg.INT_STAT, Reg.ERR_SYND, Reg.ERR_ADDR, Reg.FAULT_CNT] []) ∧
  (∀ (s : State) (src : Src), Reaches s src Reg.DEPOT_CMD → depotBusy s = false → s.kerb.lockdown = false → sdPresent s = true → sdReady s = true → (fld s Reg.DEPOT_RAW 5 0) ∈ [17, 18, 19, 24, 25] → 
    Answers (.depotRaw src) s fun t => fld t Reg.DEPOT_CMD 7 4 = 14 ∧ t.sd = s.sd ∧ t = { s with out := t.out, regs := t.regs, parBad := t.parBad, wins := t.wins, quay := { s.quay with msix := t.quay.msix }, kerb := { s.kerb with reports := t.kerb.reports }, fnt := { s.fnt with state := t.fnt.state, absorbed := t.fnt.absorbed, credit := t.fnt.credit, seed := t.fnt.seed, int := t.fnt.int, sw := t.fnt.sw, katBusy := t.fnt.katBusy, part := t.fnt.part, rngDead := t.fnt.rngDead }, load := t.load, autoload := t.autoload, sd := { s.sd with op := t.sd.op, clk := t.sd.clk } } ∧ OtherRegs s t [Reg.BOOT_STAT, Reg.DEPOT_STAT, Reg.DEPOT_CAP, Reg.DEPOT_CMD] [Reg.PAGE_STAT, Reg.INT_STAT, Reg.ERR_SYND, Reg.ERR_ADDR, Reg.FAULT_CNT] []) ∧
  (∀ (s : State) (src : Src), Reaches s src Reg.DEPOT_CMD → depotBusy s = false → 
    Answers (.powerOff src) s fun t => fld t Reg.DEPOT_STAT 6 1 = 0 ∧ reg t Reg.DEPOT_CAP = 0 ∧ Out.pin "DEPOT_VEN" 0 ∈ t.out ∧ fld t Reg.DEPOT_CMD 7 4 = 0 ∧ t.sd = s.sd ∧ t = { s with out := t.out, regs := t.regs, parBad := t.parBad, quay := { s.quay with msix := t.quay.msix } } ∧ OtherRegs s t [Reg.DEPOT_STAT, Reg.DEPOT_CAP, Reg.DEPOT_CMD] [Reg.INT_STAT, Reg.ERR_SYND, Reg.ERR_ADDR] []) ∧
  (∀ (s : State) (src : Src) (o : SdOp), Reaches s src Reg.DEPOT_CMD → s.sd.op = some o → o.kind ≠ .image → 
    Answers (.depotAbort src) s fun t => t.sd = { s.sd with op := some { o with abort := true }, clk := opClock o } ∧ t.regs = s.regs ∧ t = { s with out := t.out, regs := t.regs, parBad := t.parBad, quay := { s.quay with msix := t.quay.msix }, sd := { s.sd with op := t.sd.op, clk := t.sd.clk } } ∧ OtherRegs s t [Reg.DEPOT_CMD] [Reg.INT_STAT, Reg.ERR_SYND, Reg.ERR_ADDR] []) ∧
  (∀ (s : State) (src : Src), Reaches s src Reg.DEPOT_CMD → depotBusy s = false → s.kerb.lockdown = false → sdPresent s = true → sdReady s = true → 
    Answers (.depotAbort src) s fun t => fld t Reg.DEPOT_CMD 7 4 = 0 ∧ t.sd = s.sd ∧ t = { s with out := t.out, regs := t.regs, parBad := t.parBad, quay := { s.quay with msix := t.quay.msix }, sd := { s.sd with op := t.sd.op, clk := t.sd.clk } } ∧ OtherRegs s t [Reg.DEPOT_CMD] [Reg.INT_STAT, Reg.ERR_SYND, Reg.ERR_ADDR] []) ∧
  (∀ (s : State) (src : Src), Reaches s src Reg.DEPOT_CMD → depotBusy s = true → rbit s (rk 0x4C Reg.ERR_SYND) 23 = false → 
    Answers (.depotInit src) s fun t => fld t (rk 0x4C Reg.ERR_SYND) 31 24 = 0x10 ∧ reg t (rk 0x4C Reg.ERR_ADDR) = 1 ∧ t.sd = s.sd ∧ t = { s with out := t.out, regs := t.regs, parBad := t.parBad, quay := { s.quay with msix := t.quay.msix }, sd := { s.sd with op := t.sd.op, clk := t.sd.clk, rca := t.sd.rca, timeouts := t.sd.timeouts, retune := t.sd.retune } } ∧ OtherRegs s t [Reg.DEPOT_STAT, Reg.DEPOT_CAP, Reg.DEPOT_CMD] [Reg.INT_STAT, Reg.ERR_SYND, Reg.ERR_ADDR] []) ∧
  (∀ (s : State) (src : Src), Reaches s src Reg.DEPOT_CMD → depotBusy s = false → s.kerb.lockdown = true → 
    Answers (.depotInit src) s fun t => fld t Reg.DEPOT_CMD 7 4 = 12 ∧ t.sd = s.sd ∧ t = { s with out := t.out, regs := t.regs, parBad := t.parBad, quay := { s.quay with msix := t.quay.msix }, sd := { s.sd with op := t.sd.op, clk := t.sd.clk, rca := t.sd.rca, timeouts := t.sd.timeouts, retune := t.sd.retune } } ∧ OtherRegs s t [Reg.DEPOT_STAT, Reg.DEPOT_CAP, Reg.DEPOT_CMD] [Reg.INT_STAT, Reg.ERR_SYND, Reg.ERR_ADDR] []) ∧
  (∀ (s : State) (src : Src), Reaches s src Reg.DEPOT_CMD → depotBusy s = false → s.kerb.lockdown = false → sdPresent s = false → 
    Answers (.depotInit src) s fun t => fld t Reg.DEPOT_CMD 7 4 = 1 ∧ t.sd = s.sd ∧ t = { s with out := t.out, regs := t.regs, parBad := t.parBad, quay := { s.quay with msix := t.quay.msix }, sd := { s.sd with op := t.sd.op, clk := t.sd.clk, rca := t.sd.rca, timeouts := t.sd.timeouts, retune := t.sd.retune } } ∧ OtherRegs s t [Reg.DEPOT_STAT, Reg.DEPOT_CAP, Reg.DEPOT_CMD] [Reg.INT_STAT, Reg.ERR_SYND, Reg.ERR_ADDR] []) ∧
  (∀ (s : State) (src : Src), Reaches s src Reg.DEPOT_CMD → depotBusy s = true → rbit s (rk 0x4C Reg.ERR_SYND) 23 = false → 
    Answers (.depotRead src) s fun t => fld t (rk 0x4C Reg.ERR_SYND) 31 24 = 0x10 ∧ reg t (rk 0x4C Reg.ERR_ADDR) = 2 ∧ t.sd = s.sd ∧ t = { s with out := t.out, regs := t.regs, parBad := t.parBad, quay := { s.quay with msix := t.quay.msix }, sd := { s.sd with op := t.sd.op, clk := t.sd.clk } } ∧ OtherRegs s t [Reg.DEPOT_CMD, Reg.DEPOT_DONE] [Reg.INT_STAT, Reg.ERR_SYND, Reg.ERR_ADDR] []) ∧
  (∀ (s : State) (src : Src), Reaches s src Reg.DEPOT_CMD → depotBusy s = false → s.kerb.lockdown = true → 
    Answers (.depotRead src) s fun t => fld t Reg.DEPOT_CMD 7 4 = 12 ∧ t.sd = s.sd ∧ t = { s with out := t.out, regs := t.regs, parBad := t.parBad, quay := { s.quay with msix := t.quay.msix }, sd := { s.sd with op := t.sd.op, clk := t.sd.clk } } ∧ OtherRegs s t [Reg.DEPOT_CMD, Reg.DEPOT_DONE] [Reg.INT_STAT, Reg.ERR_SYND, Reg.ERR_ADDR] []) ∧
  (∀ (s : State) (src : Src), Reaches s src Reg.DEPOT_CMD → depotBusy s = false → s.kerb.lockdown = false → sdPresent s = false → 
    Answers (.depotRead src) s fun t => fld t Reg.DEPOT_CMD 7 4 = 1 ∧ t.sd = s.sd ∧ t = { s with out := t.out, regs := t.regs, parBad := t.parBad, quay := { s.quay with msix := t.quay.msix }, sd := { s.sd with op := t.sd.op, clk := t.sd.clk } } ∧ OtherRegs s t [Reg.DEPOT_CMD, Reg.DEPOT_DONE] [Reg.INT_STAT, Reg.ERR_SYND, Reg.ERR_ADDR] []) ∧
  (∀ (s : State) (src : Src), Reaches s src Reg.DEPOT_CMD → depotBusy s = false → s.kerb.lockdown = false → sdPresent s = true → sdReady s = false → 
    Answers (.depotRead src) s fun t => fld t Reg.DEPOT_CMD 7 4 = 11 ∧ t.sd = s.sd ∧ t = { s with out := t.out, regs := t.regs, parBad := t.parBad, quay := { s.quay with msix := t.quay.msix }, sd := { s.sd with op := t.sd.op, clk := t.sd.clk } } ∧ OtherRegs s t [Reg.DEPOT_CMD, Reg.DEPOT_DONE] [Reg.INT_STAT, Reg.ERR_SYND, Reg.ERR_ADDR] []) ∧
  (∀ (s : State) (src : Src), Reaches s src Reg.DEPOT_CMD → depotBusy s = true → rbit s (rk 0x4C Reg.ERR_SYND) 23 = false → 
    Answers (.depotWrite src) s fun t => fld t (rk 0x4C Reg.ERR_SYND) 31 24 = 0x10 ∧ reg t (rk 0x4C Reg.ERR_ADDR) = 3 ∧ t.sd = s.sd ∧ t = { s with out := t.out, regs := t.regs, parBad := t.parBad, quay := { s.quay with msix := t.quay.msix }, sd := { s.sd with op := t.sd.op, clk := t.sd.clk } } ∧ OtherRegs s t [Reg.DEPOT_CMD, Reg.DEPOT_DONE] [Reg.INT_STAT, Reg.ERR_SYND, Reg.ERR_ADDR] []) ∧
  (∀ (s : State) (src : Src), Reaches s src Reg.DEPOT_CMD → depotBusy s = false → s.kerb.lockdown = true → 
    Answers (.depotWrite src) s fun t => fld t Reg.DEPOT_CMD 7 4 = 12 ∧ t.sd = s.sd ∧ t = { s with out := t.out, regs := t.regs, parBad := t.parBad, quay := { s.quay with msix := t.quay.msix }, sd := { s.sd with op := t.sd.op, clk := t.sd.clk } } ∧ OtherRegs s t [Reg.DEPOT_CMD, Reg.DEPOT_DONE] [Reg.INT_STAT, Reg.ERR_SYND, Reg.ERR_ADDR] []) ∧
  (∀ (s : State) (src : Src), Reaches s src Reg.DEPOT_CMD → depotBusy s = false → s.kerb.lockdown = false → sdPresent s = false → 
    Answers (.depotWrite src) s fun t => fld t Reg.DEPOT_CMD 7 4 = 1 ∧ t.sd = s.sd ∧ t = { s with out := t.out, regs := t.regs, parBad := t.parBad, quay := { s.quay with msix := t.quay.msix }, sd := { s.sd with op := t.sd.op, clk := t.sd.clk } } ∧ OtherRegs s t [Reg.DEPOT_CMD, Reg.DEPOT_DONE] [Reg.INT_STAT, Reg.ERR_SYND, Reg.ERR_ADDR] []) ∧
  (∀ (s : State) (src : Src), Reaches s src Reg.DEPOT_CMD → depotBusy s = false → s.kerb.lockdown = false → sdPresent s = true → sdReady s = false → 
    Answers (.depotWrite src) s fun t => fld t Reg.DEPOT_CMD 7 4 = 11 ∧ t.sd = s.sd ∧ t = { s with out := t.out, regs := t.regs, parBad := t.parBad, quay := { s.quay with msix := t.quay.msix }, sd := { s.sd with op := t.sd.op, clk := t.sd.clk } } ∧ OtherRegs s t [Reg.DEPOT_CMD, Reg.DEPOT_DONE] [Reg.INT_STAT, Reg.ERR_SYND, Reg.ERR_ADDR] []) ∧
  (∀ (s : State) (src : Src), Reaches s src Reg.DEPOT_CMD → depotBusy s = true → rbit s (rk 0x4C Reg.ERR_SYND) 23 = false → 
    Answers (.segWrite src) s fun t => fld t (rk 0x4C Reg.ERR_SYND) 31 24 = 0x10 ∧ reg t (rk 0x4C Reg.ERR_ADDR) = 4 ∧ t.sd = s.sd ∧ t = { s with out := t.out, regs := t.regs, parBad := t.parBad, quay := { s.quay with msix := t.quay.msix }, sd := { s.sd with op := t.sd.op, clk := t.sd.clk } } ∧ OtherRegs s t [Reg.DEPOT_CMD, Reg.DEPOT_DONE] [Reg.INT_STAT, Reg.ERR_SYND, Reg.ERR_ADDR] []) ∧
  (∀ (s : State) (src : Src), Reaches s src Reg.DEPOT_CMD → depotBusy s = false → s.kerb.lockdown = true → 
    Answers (.segWrite src) s fun t => fld t Reg.DEPOT_CMD 7 4 = 12 ∧ t.sd = s.sd ∧ t = { s with out := t.out, regs := t.regs, parBad := t.parBad, quay := { s.quay with msix := t.quay.msix }, sd := { s.sd with op := t.sd.op, clk := t.sd.clk } } ∧ OtherRegs s t [Reg.DEPOT_CMD, Reg.DEPOT_DONE] [Reg.INT_STAT, Reg.ERR_SYND, Reg.ERR_ADDR] []) ∧
  (∀ (s : State) (src : Src), Reaches s src Reg.DEPOT_CMD → depotBusy s = false → s.kerb.lockdown = false → sdPresent s = false → 
    Answers (.segWrite src) s fun t => fld t Reg.DEPOT_CMD 7 4 = 1 ∧ t.sd = s.sd ∧ t = { s with out := t.out, regs := t.regs, parBad := t.parBad, quay := { s.quay with msix := t.quay.msix }, sd := { s.sd with op := t.sd.op, clk := t.sd.clk } } ∧ OtherRegs s t [Reg.DEPOT_CMD, Reg.DEPOT_DONE] [Reg.INT_STAT, Reg.ERR_SYND, Reg.ERR_ADDR] []) ∧
  (∀ (s : State) (src : Src), Reaches s src Reg.DEPOT_CMD → depotBusy s = false → s.kerb.lockdown = false → sdPresent s = true → sdReady s = false → 
    Answers (.segWrite src) s fun t => fld t Reg.DEPOT_CMD 7 4 = 11 ∧ t.sd = s.sd ∧ t = { s with out := t.out, regs := t.regs, parBad := t.parBad, quay := { s.quay with msix := t.quay.msix }, sd := { s.sd with op := t.sd.op, clk := t.sd.clk } } ∧ OtherRegs s t [Reg.DEPOT_CMD, Reg.DEPOT_DONE] [Reg.INT_STAT, Reg.ERR_SYND, Reg.ERR_ADDR] []) ∧
  (∀ (s : State) (src : Src), Reaches s src Reg.DEPOT_CMD → depotBusy s = true → rbit s (rk 0x4C Reg.ERR_SYND) 23 = false → 
    Answers (.depotRaw src) s fun t => fld t (rk 0x4C Reg.ERR_SYND) 31 24 = 0x10 ∧ reg t (rk 0x4C Reg.ERR_ADDR) = 5 ∧ t.sd = s.sd ∧ t = { s with out := t.out, regs := t.regs, parBad := t.parBad, wins := t.wins, quay := { s.quay with msix := t.quay.msix }, kerb := { s.kerb with reports := t.kerb.reports }, fnt := { s.fnt with state := t.fnt.state, absorbed := t.fnt.absorbed, credit := t.fnt.credit, seed := t.fnt.seed, int := t.fnt.int, sw := t.fnt.sw, katBusy := t.fnt.katBusy, part := t.fnt.part, rngDead := t.fnt.rngDead }, load := t.load, autoload := t.autoload, sd := { s.sd with op := t.sd.op, clk := t.sd.clk } } ∧ OtherRegs s t [Reg.BOOT_STAT, Reg.DEPOT_STAT, Reg.DEPOT_CAP, Reg.DEPOT_CMD] [Reg.PAGE_STAT, Reg.INT_STAT, Reg.ERR_SYND, Reg.ERR_ADDR, Reg.FAULT_CNT] []) ∧
  (∀ (s : State) (src : Src), Reaches s src Reg.DEPOT_CMD → depotBusy s = false → s.kerb.lockdown = true → 
    Answers (.depotRaw src) s fun t => fld t Reg.DEPOT_CMD 7 4 = 12 ∧ t.sd = s.sd ∧ t = { s with out := t.out, regs := t.regs, parBad := t.parBad, wins := t.wins, quay := { s.quay with msix := t.quay.msix }, kerb := { s.kerb with reports := t.kerb.reports }, fnt := { s.fnt with state := t.fnt.state, absorbed := t.fnt.absorbed, credit := t.fnt.credit, seed := t.fnt.seed, int := t.fnt.int, sw := t.fnt.sw, katBusy := t.fnt.katBusy, part := t.fnt.part, rngDead := t.fnt.rngDead }, load := t.load, autoload := t.autoload, sd := { s.sd with op := t.sd.op, clk := t.sd.clk } } ∧ OtherRegs s t [Reg.BOOT_STAT, Reg.DEPOT_STAT, Reg.DEPOT_CAP, Reg.DEPOT_CMD] [Reg.PAGE_STAT, Reg.INT_STAT, Reg.ERR_SYND, Reg.ERR_ADDR, Reg.FAULT_CNT] []) ∧
  (∀ (s : State) (src : Src), Reaches s src Reg.DEPOT_CMD → depotBusy s = false → s.kerb.lockdown = false → sdPresent s = false → 
    Answers (.depotRaw src) s fun t => fld t Reg.DEPOT_CMD 7 4 = 1 ∧ t.sd = s.sd ∧ t = { s with out := t.out, regs := t.regs, parBad := t.parBad, wins := t.wins, quay := { s.quay with msix := t.quay.msix }, kerb := { s.kerb with reports := t.kerb.reports }, fnt := { s.fnt with state := t.fnt.state, absorbed := t.fnt.absorbed, credit := t.fnt.credit, seed := t.fnt.seed, int := t.fnt.int, sw := t.fnt.sw, katBusy := t.fnt.katBusy, part := t.fnt.part, rngDead := t.fnt.rngDead }, load := t.load, autoload := t.autoload, sd := { s.sd with op := t.sd.op, clk := t.sd.clk } } ∧ OtherRegs s t [Reg.BOOT_STAT, Reg.DEPOT_STAT, Reg.DEPOT_CAP, Reg.DEPOT_CMD] [Reg.PAGE_STAT, Reg.INT_STAT, Reg.ERR_SYND, Reg.ERR_ADDR, Reg.FAULT_CNT] []) ∧
  (∀ (s : State) (src : Src), Reaches s src Reg.DEPOT_CMD → depotBusy s = false → s.kerb.lockdown = false → sdPresent s = true → sdReady s = false → 
    Answers (.depotRaw src) s fun t => fld t Reg.DEPOT_CMD 7 4 = 11 ∧ t.sd = s.sd ∧ t = { s with out := t.out, regs := t.regs, parBad := t.parBad, wins := t.wins, quay := { s.quay with msix := t.quay.msix }, kerb := { s.kerb with reports := t.kerb.reports }, fnt := { s.fnt with state := t.fnt.state, absorbed := t.fnt.absorbed, credit := t.fnt.credit, seed := t.fnt.seed, int := t.fnt.int, sw := t.fnt.sw, katBusy := t.fnt.katBusy, part := t.fnt.part, rngDead := t.fnt.rngDead }, load := t.load, autoload := t.autoload, sd := { s.sd with op := t.sd.op, clk := t.sd.clk } } ∧ OtherRegs s t [Reg.BOOT_STAT, Reg.DEPOT_STAT, Reg.DEPOT_CAP, Reg.DEPOT_CMD] [Reg.PAGE_STAT, Reg.INT_STAT, Reg.ERR_SYND, Reg.ERR_ADDR, Reg.FAULT_CNT] []) ∧
  (∀ (s : State) (src : Src), Reaches s src Reg.DEPOT_CMD → depotBusy s = true → rbit s (rk 0x4C Reg.ERR_SYND) 23 = false → 
    Answers (.powerOff src) s fun t => fld t (rk 0x4C Reg.ERR_SYND) 31 24 = 0x10 ∧ reg t (rk 0x4C Reg.ERR_ADDR) = 6 ∧ t.sd = s.sd ∧ t = { s with out := t.out, regs := t.regs, parBad := t.parBad, quay := { s.quay with msix := t.quay.msix } } ∧ OtherRegs s t [Reg.DEPOT_STAT, Reg.DEPOT_CAP, Reg.DEPOT_CMD] [Reg.INT_STAT, Reg.ERR_SYND, Reg.ERR_ADDR] []) ∧
  (∀ (s : State) (src : Src), Reaches s src Reg.DEPOT_CMD → depotBusy s = false → s.kerb.lockdown = true → 
    Answers (.depotAbort src) s fun t => fld t Reg.DEPOT_CMD 7 4 = 12 ∧ t.sd = s.sd ∧ t = { s with out := t.out, regs := t.regs, parBad := t.parBad, quay := { s.quay with msix := t.quay.msix }, sd := { s.sd with op := t.sd.op, clk := t.sd.clk } } ∧ OtherRegs s t [Reg.DEPOT_CMD] [Reg.INT_STAT, Reg.ERR_SYND, Reg.ERR_ADDR] []) ∧
  (∀ (s : State) (src : Src), Reaches s src Reg.DEPOT_CMD → depotBusy s = false → s.kerb.lockdown = false → sdPresent s = false → 
    Answers (.depotAbort src) s fun t => fld t Reg.DEPOT_CMD 7 4 = 1 ∧ t.sd = s.sd ∧ t = { s with out := t.out, regs := t.regs, parBad := t.parBad, quay := { s.quay with msix := t.quay.msix }, sd := { s.sd with op := t.sd.op, clk := t.sd.clk } } ∧ OtherRegs s t [Reg.DEPOT_CMD] [Reg.INT_STAT, Reg.ERR_SYND, Reg.ERR_ADDR] []) ∧
  (∀ (s : State) (src : Src), Reaches s src Reg.DEPOT_CMD → depotBusy s = false → s.kerb.lockdown = false → sdPresent s = true → sdReady s = false → 
    Answers (.depotAbort src) s fun t => fld t Reg.DEPOT_CMD 7 4 = 11 ∧ t.sd = s.sd ∧ t = { s with out := t.out, regs := t.regs, parBad := t.parBad, quay := { s.quay with msix := t.quay.msix }, sd := { s.sd with op := t.sd.op, clk := t.sd.clk } } ∧ OtherRegs s t [Reg.DEPOT_CMD] [Reg.INT_STAT, Reg.ERR_SYND, Reg.ERR_ADDR] []) ∧
  (∀ (s : State) (b : BitVec 128) (way : Passage) (o : SdOp), s.sd.op = some o → o.wait = .resp → o.kind = .start → o.idx = 8 → o.abort = false → NoCardLoad s → 
    Answers (.sdResponse (.token b true way)) s fun t => t.sd = { s.sd with timeouts := 0, clk := true, op := some { o with cfails := 0, wait := .resp, idx := 41, arg := acmd41 o } } ∧ (∀ i : Fin 4, reg t (Reg.DEPOT_RESP + 4 * i.val) = BitVec.ofNat 32 (bits b.toNat (32 * i.val + 31) (32 * i.val))) ∧ t.mem = s.mem ∧ t = { s with out := t.out, regs := t.regs, parBad := t.parBad, wins := t.wins, quay := { s.quay with msix := t.quay.msix }, kerb := { s.kerb with reports := t.kerb.reports }, fnt := { s.fnt with state := t.fnt.state, absorbed := t.fnt.absorbed, credit := t.fnt.credit, seed := t.fnt.seed, int := t.fnt.int, sw := t.fnt.sw, katBusy := t.fnt.katBusy, part := t.fnt.part, rngDead := t.fnt.rngDead }, cores := t.cores, load := t.load, autoload := t.autoload, chk := { s.chk with eccBad := t.chk.eccBad }, sd := { s.sd with op := t.sd.op, clk := t.sd.clk, rca := t.sd.rca, timeouts := t.sd.timeouts, retune := t.sd.retune }, mem := t.mem } ∧ OtherRegs s t [Reg.BOOT_STAT, Reg.IXM_LD_SRC, Reg.IXM_LD_ADDR_LO, Reg.IXM_LD_CMD, Reg.IXM_LD_INFO, Reg.CHECKPOINT_SRAM_ECC, Reg.DEPOT_STAT, Reg.DEPOT_CAP, Reg.DEPOT_CMD, Reg.DEPOT_ERR] [Reg.PAGE_STAT, Reg.INT_STAT, Reg.ERR_SYND, Reg.ERR_ADDR, Reg.FAULT_CNT, Reg.QUAY_LINK_ERR] [0x4C]) ∧
  (∀ (s : State) (b : BitVec 128) (way : Passage) (o : SdOp) (crc : Bool), s.sd.op = some o → o.wait = .resp → o.kind = .start → o.idx = 41 → o.abort = false → b.toNat.testBit 31 = false → NoCardLoad s → 
    Answers (.sdResponse (.token b crc way)) s fun t => t.sd = { s.sd with timeouts := 0, clk := true, op := some { o with cfails := 0, wait := .resp, idx := 41, arg := acmd41 o } } ∧ (∀ i : Fin 4, reg t (Reg.DEPOT_RESP + 4 * i.val) = BitVec.ofNat 32 (bits b.toNat (32 * i.val + 31) (32 * i.val))) ∧ t.mem = s.mem ∧ t = { s with out := t.out, regs := t.regs, parBad := t.parBad, wins := t.wins, quay := { s.quay with msix := t.quay.msix }, kerb := { s.kerb with reports := t.kerb.reports }, fnt := { s.fnt with state := t.fnt.state, absorbed := t.fnt.absorbed, credit := t.fnt.credit, seed := t.fnt.seed, int := t.fnt.int, sw := t.fnt.sw, katBusy := t.fnt.katBusy, part := t.fnt.part, rngDead := t.fnt.rngDead }, cores := t.cores, load := t.load, autoload := t.autoload, chk := { s.chk with eccBad := t.chk.eccBad }, sd := { s.sd with op := t.sd.op, clk := t.sd.clk, rca := t.sd.rca, timeouts := t.sd.timeouts, retune := t.sd.retune }, mem := t.mem } ∧ OtherRegs s t [Reg.BOOT_STAT, Reg.IXM_LD_SRC, Reg.IXM_LD_ADDR_LO, Reg.IXM_LD_CMD, Reg.IXM_LD_INFO, Reg.CHECKPOINT_SRAM_ECC, Reg.DEPOT_STAT, Reg.DEPOT_CAP, Reg.DEPOT_CMD, Reg.DEPOT_ERR] [Reg.PAGE_STAT, Reg.INT_STAT, Reg.ERR_SYND, Reg.ERR_ADDR, Reg.FAULT_CNT, Reg.QUAY_LINK_ERR] [0x4C]) ∧
  (∀ (s : State) (b : BitVec 128) (way : Passage) (o : SdOp) (crc : Bool), s.sd.op = some o → o.wait = .resp → o.kind = .start → o.idx = 41 → o.abort = false → b.toNat.testBit 31 = true → b.toNat.testBit 30 = false ∨ b.toNat.testBit 27 = true → o.auto = false → NoCardLoad s → 
    Answers (.sdResponse (.token b crc way)) s fun t => t.sd.op = none ∧ fld t Reg.DEPOT_CMD 7 4 = 10 ∧ (∀ i : Fin 4, reg t (Reg.DEPOT_RESP + 4 * i.val) = BitVec.ofNat 32 (bits b.toNat (32 * i.val + 31) (32 * i.val))) ∧ t.mem = s.mem ∧ t = { s with out := t.out, regs := t.regs, parBad := t.parBad, wins := t.wins, quay := { s.quay with msix := t.quay.msix }, kerb := { s.kerb with reports := t.kerb.reports }, fnt := { s.fnt with state := t.fnt.state, absorbed := t.fnt.absorbed, credit := t.fnt.credit, seed := t.fnt.seed, int := t.fnt.int, sw := t.fnt.sw, katBusy := t.fnt.katBusy, part := t.fnt.part, rngDead := t.fnt.rngDead }, cores := t.cores, load := t.load, autoload := t.autoload, chk := { s.chk with eccBad := t.chk.eccBad }, sd := { s.sd with op := t.sd.op, clk := t.sd.clk, rca := t.sd.rca, timeouts := t.sd.timeouts, retune := t.sd.retune }, mem := t.mem } ∧ OtherRegs s t [Reg.BOOT_STAT, Reg.IXM_LD_SRC, Reg.IXM_LD_ADDR_LO, Reg.IXM_LD_CMD, Reg.IXM_LD_INFO, Reg.CHECKPOINT_SRAM_ECC, Reg.DEPOT_STAT, Reg.DEPOT_CAP, Reg.DEPOT_CMD, Reg.DEPOT_ERR] [Reg.PAGE_STAT, Reg.INT_STAT, Reg.ERR_SYND, Reg.ERR_ADDR, Reg.FAULT_CNT, Reg.QUAY_LINK_ERR] [0x4C]) ∧
  (∀ (s : State) (b : BitVec 128) (way : Passage) (o : SdOp) (crc : Bool), s.sd.op = some o → o.wait = .resp → o.kind = .start → o.idx = 41 → o.abort = false → b.toNat.testBit 31 = true → b.toNat.testBit 30 = true → b.toNat.testBit 27 = false → NoCardLoad s → 
    Answers (.sdResponse (.token b crc way)) s fun t => t.sd = { s.sd with timeouts := 0, clk := true, op := some { o with cfails := 0, wait := .resp, idx := 2, arg := 0, s18 := b.toNat.testBit 24 } } ∧ (∀ i : Fin 4, reg t (Reg.DEPOT_RESP + 4 * i.val) = BitVec.ofNat 32 (bits b.toNat (32 * i.val + 31) (32 * i.val))) ∧ t.mem = s.mem ∧ t = { s with out := t.out, regs := t.regs, parBad := t.parBad, wins := t.wins, quay := { s.quay with msix := t.quay.msix }, kerb := { s.kerb with reports := t.kerb.reports }, fnt := { s.fnt with state := t.fnt.state, absorbed := t.fnt.absorbed, credit := t.fnt.credit, seed := t.fnt.seed, int := t.fnt.int, sw := t.fnt.sw, katBusy := t.fnt.katBusy, part := t.fnt.part, rngDead := t.fnt.rngDead }, cores := t.cores, load := t.load, autoload := t.autoload, chk := { s.chk with eccBad := t.chk.eccBad }, sd := { s.sd with op := t.sd.op, clk := t.sd.clk, rca := t.sd.rca, timeouts := t.sd.timeouts, retune := t.sd.retune }, mem := t.mem } ∧ OtherRegs s t [Reg.BOOT_STAT, Reg.IXM_LD_SRC, Reg.IXM_LD_ADDR_LO, Reg.IXM_LD_CMD, Reg.IXM_LD_INFO, Reg.CHECKPOINT_SRAM_ECC, Reg.DEPOT_STAT, Reg.DEPOT_CAP, Reg.DEPOT_CMD, Reg.DEPOT_ERR] [Reg.PAGE_STAT, Reg.INT_STAT, Reg.ERR_SYND, Reg.ERR_ADDR, Reg.FAULT_CNT, Reg.QUAY_LINK_ERR] [0x4C]) ∧
  (∀ (s : State) (b : BitVec 128) (way : Passage) (o : SdOp), s.sd.op = some o → o.wait = .resp → o.kind = .start → o.idx = 2 → o.abort = false → NoCardLoad s → 
    Answers (.sdResponse (.token b true way)) s fun t => t.sd = { s.sd with timeouts := 0, clk := true, op := some { o with cfails := 0, wait := .resp, idx := 3, arg := 0 } } ∧ (∀ i : Fin 4, reg t (Reg.DEPOT_RESP + 4 * i.val) = BitVec.ofNat 32 (bits b.toNat (32 * i.val + 31) (32 * i.val))) ∧ t.mem = s.mem ∧ t = { s with out := t.out, regs := t.regs, parBad := t.parBad, wins := t.wins, quay := { s.quay with msix := t.quay.msix }, kerb := { s.kerb with reports := t.kerb.reports }, fnt := { s.fnt with state := t.fnt.state, absorbed := t.fnt.absorbed, credit := t.fnt.credit, seed := t.fnt.seed, int := t.fnt.int, sw := t.fnt.sw, katBusy := t.fnt.katBusy, part := t.fnt.part, rngDead := t.fnt.rngDead }, cores := t.cores, load := t.load, autoload := t.autoload, chk := { s.chk with eccBad := t.chk.eccBad }, sd := { s.sd with op := t.sd.op, clk := t.sd.clk, rca := t.sd.rca, timeouts := t.sd.timeouts, retune := t.sd.retune }, mem := t.mem } ∧ OtherRegs s t [Reg.BOOT_STAT, Reg.IXM_LD_SRC, Reg.IXM_LD_ADDR_LO, Reg.IXM_LD_CMD, Reg.IXM_LD_INFO, Reg.CHECKPOINT_SRAM_ECC, Reg.DEPOT_STAT, Reg.DEPOT_CAP, Reg.DEPOT_CMD, Reg.DEPOT_ERR] [Reg.PAGE_STAT, Reg.INT_STAT, Reg.ERR_SYND, Reg.ERR_ADDR, Reg.FAULT_CNT, Reg.QUAY_LINK_ERR] [0x4C]) ∧
  (∀ (s : State) (b : BitVec 128) (way : Passage) (o : SdOp), s.sd.op = some o → o.wait = .resp → o.kind = .start → o.idx = 3 → o.abort = false → NoCardLoad s → 
    Answers (.sdResponse (.token b true way)) s fun t => t.sd = { s.sd with timeouts := 0, clk := true, rca := bits b.toNat 31 16, op := some { o with cfails := 0, wait := .resp, idx := 9, arg := bits b.toNat 31 16 * 2 ^ 16 } } ∧ (∀ i : Fin 4, reg t (Reg.DEPOT_RESP + 4 * i.val) = BitVec.ofNat 32 (bits b.toNat (32 * i.val + 31) (32 * i.val))) ∧ t.mem = s.mem ∧ t = { s with out := t.out, regs := t.regs, parBad := t.parBad, wins := t.wins, quay := { s.quay with msix := t.quay.msix }, kerb := { s.kerb with reports := t.kerb.reports }, fnt := { s.fnt with state := t.fnt.state, absorbed := t.fnt.absorbed, credit := t.fnt.credit, seed := t.fnt.seed, int := t.fnt.int, sw := t.fnt.sw, katBusy := t.fnt.katBusy, part := t.fnt.part, rngDead := t.fnt.rngDead }, cores := t.cores, load := t.load, autoload := t.autoload, chk := { s.chk with eccBad := t.chk.eccBad }, sd := { s.sd with op := t.sd.op, clk := t.sd.clk, rca := t.sd.rca, timeouts := t.sd.timeouts, retune := t.sd.retune }, mem := t.mem } ∧ OtherRegs s t [Reg.BOOT_STAT, Reg.IXM_LD_SRC, Reg.IXM_LD_ADDR_LO, Reg.IXM_LD_CMD, Reg.IXM_LD_INFO, Reg.CHECKPOINT_SRAM_ECC, Reg.DEPOT_STAT, Reg.DEPOT_CAP, Reg.DEPOT_CMD, Reg.DEPOT_ERR] [Reg.PAGE_STAT, Reg.INT_STAT, Reg.ERR_SYND, Reg.ERR_ADDR, Reg.FAULT_CNT, Reg.QUAY_LINK_ERR] [0x4C]) ∧
  (∀ (s : State) (b : BitVec 128) (way : Passage) (o : SdOp), s.sd.op = some o → o.wait = .resp → o.kind = .start → o.idx = 9 → o.abort = false → NoCardLoad s → 
    Answers (.sdResponse (.token b true way)) s fun t => t.sd = { s.sd with timeouts := 0, clk := true, op := some { o with cfails := 0, wait := .resp, idx := 7, arg := s.sd.rca * 2 ^ 16, cap := (bits b.toNat 61 40 + 1) % 2 ^ 23 } } ∧ (∀ i : Fin 4, reg t (Reg.DEPOT_RESP + 4 * i.val) = BitVec.ofNat 32 (bits b.toNat (32 * i.val + 31) (32 * i.val))) ∧ t.mem = s.mem ∧ t = { s with out := t.out, regs := t.regs, parBad := t.parBad, wins := t.wins, quay := { s.quay with msix := t.quay.msix }, kerb := { s.kerb with reports := t.kerb.reports }, fnt := { s.fnt with state := t.fnt.state, absorbed := t.fnt.absorbed, credit := t.fnt.credit, seed := t.fnt.seed, int := t.fnt.int, sw := t.fnt.sw, katBusy := t.fnt.katBusy, part := t.fnt.part, rngDead := t.fnt.rngDead }, cores := t.cores, load := t.load, autoload := t.autoload, chk := { s.chk with eccBad := t.chk.eccBad }, sd := { s.sd with op := t.sd.op, clk := t.sd.clk, rca := t.sd.rca, timeouts := t.sd.timeouts, retune := t.sd.retune }, mem := t.mem } ∧ OtherRegs s t [Reg.BOOT_STAT, Reg.IXM_LD_SRC, Reg.IXM_LD_ADDR_LO, Reg.IXM_LD_CMD, Reg.IXM_LD_INFO, Reg.CHECKPOINT_SRAM_ECC, Reg.DEPOT_STAT, Reg.DEPOT_CAP, Reg.DEPOT_CMD, Reg.DEPOT_ERR] [Reg.PAGE_STAT, Reg.INT_STAT, Reg.ERR_SYND, Reg.ERR_ADDR, Reg.FAULT_CNT, Reg.QUAY_LINK_ERR] [0x4C]) ∧
  (∀ (s : State) (b : BitVec 128) (way : Passage) (o : SdOp), s.sd.op = some o → o.wait = .resp → o.kind = .start → o.idx = 7 → o.abort = false → NoCardLoad s → 
    Answers (.sdResponse (.token b true way)) s fun t => t.sd = { s.sd with timeouts := 0, clk := true, op := some { o with cfails := 0, wait := .busy } } ∧ (∀ i : Fin 4, reg t (Reg.DEPOT_RESP + 4 * i.val) = BitVec.ofNat 32 (bits b.toNat (32 * i.val + 31) (32 * i.val))) ∧ t.mem = s.mem ∧ t = { s with out := t.out, regs := t.regs, parBad := t.parBad, wins := t.wins, quay := { s.quay with msix := t.quay.msix }, kerb := { s.kerb with reports := t.kerb.reports }, fnt := { s.fnt with state := t.fnt.state, absorbed := t.fnt.absorbed, credit := t.fnt.credit, seed := t.fnt.seed, int := t.fnt.int, sw := t.fnt.sw, katBusy := t.fnt.katBusy, part := t.fnt.part, rngDead := t.fnt.rngDead }, cores := t.cores, load := t.load, autoload := t.autoload, chk := { s.chk with eccBad := t.chk.eccBad }, sd := { s.sd with op := t.sd.op, clk := t.sd.clk, rca := t.sd.rca, timeouts := t.sd.timeouts, retune := t.sd.retune }, mem := t.mem } ∧ OtherRegs s t [Reg.BOOT_STAT, Reg.IXM_LD_SRC, Reg.IXM_LD_ADDR_LO, Reg.IXM_LD_CMD, Reg.IXM_LD_INFO, Reg.CHECKPOINT_SRAM_ECC, Reg.DEPOT_STAT, Reg.DEPOT_CAP, Reg.DEPOT_CMD, Reg.DEPOT_ERR] [Reg.PAGE_STAT, Reg.INT_STAT, Reg.ERR_SYND, Reg.ERR_ADDR, Reg.FAULT_CNT, Reg.QUAY_LINK_ERR] [0x4C]) ∧
  (∀ (s : State) (b : BitVec 128) (way : Passage) (o : SdOp), s.sd.op = some o → o.wait = .resp → o.kind = .start → o.idx = 11 → o.abort = false → NoCardLoad s → 
    Answers (.sdResponse (.token b true way)) s fun t => t.sd = { s.sd with timeouts := 0, clk := true, op := some { o with cfails := 0, wait := .resp, idx := 6, arg := 2 } } ∧ rbit t Reg.DEPOT_STAT 2 = true ∧ (∀ i : Fin 4, reg t (Reg.DEPOT_RESP + 4 * i.val) = BitVec.ofNat 32 (bits b.toNat (32 * i.val + 31) (32 * i.val))) ∧ t.mem = s.mem ∧ t = { s with out := t.out, regs := t.regs, parBad := t.parBad, wins := t.wins, quay := { s.quay with msix := t.quay.msix }, kerb := { s.kerb with reports := t.kerb.reports }, fnt := { s.fnt with state := t.fnt.state, absorbed := t.fnt.absorbed, credit := t.fnt.credit, seed := t.fnt.seed, int := t.fnt.int, sw := t.fnt.sw, katBusy := t.fnt.katBusy, part := t.fnt.part, rngDead := t.fnt.rngDead }, cores := t.cores, load := t.load, autoload := t.autoload, chk := { s.chk with eccBad := t.chk.eccBad }, sd := { s.sd with op := t.sd.op, clk := t.sd.clk, rca := t.sd.rca, timeouts := t.sd.timeouts, retune := t.sd.retune }, mem := t.mem } ∧ OtherRegs s t [Reg.BOOT_STAT, Reg.IXM_LD_SRC, Reg.IXM_LD_ADDR_LO, Reg.IXM_LD_CMD, Reg.IXM_LD_INFO, Reg.CHECKPOINT_SRAM_ECC, Reg.DEPOT_STAT, Reg.DEPOT_CAP, Reg.DEPOT_CMD, Reg.DEPOT_ERR] [Reg.PAGE_STAT, Reg.INT_STAT, Reg.ERR_SYND, Reg.ERR_ADDR, Reg.FAULT_CNT, Reg.QUAY_LINK_ERR] [0x4C]) ∧
  (∀ (s : State) (b : BitVec 128) (way : Passage) (o : SdOp), s.sd.op = some o → o.wait = .resp → o.kind = .start → o.idx = 6 → o.abort = false → o.step = 0 → NoCardLoad s → 
    Answers (.sdResponse (.token b true way)) s fun t => t.sd = { s.sd with timeouts := 0, clk := true, op := some { o with cfails := 0, wait := .resp, idx := 6, arg := 0xFFFFFF, step := 1 } } ∧ (∀ i : Fin 4, reg t (Reg.DEPOT_RESP + 4 * i.val) = BitVec.ofNat 32 (bits b.toNat (32 * i.val + 31) (32 * i.val))) ∧ t.mem = s.mem ∧ t = { s with out := t.out, regs := t.regs, parBad := t.parBad, wins := t.wins, quay := { s.quay with msix := t.quay.msix }, kerb := { s.kerb with reports := t.kerb.reports }, fnt := { s.fnt with state := t.fnt.state, absorbed := t.fnt.absorbed, credit := t.fnt.credit, seed := t.fnt.seed, int := t.fnt.int, sw := t.fnt.sw, katBusy := t.fnt.katBusy, part := t.fnt.part, rngDead := t.fnt.rngDead }, cores := t.cores, load := t.load, autoload := t.autoload, chk := { s.chk with eccBad := t.chk.eccBad }, sd := { s.sd with op := t.sd.op, clk := t.sd.clk, rca := t.sd.rca, timeouts := t.sd.timeouts, retune := t.sd.retune }, mem := t.mem } ∧ OtherRegs s t [Reg.BOOT_STAT, Reg.IXM_LD_SRC, Reg.IXM_LD_ADDR_LO, Reg.IXM_LD_CMD, Reg.IXM_LD_INFO, Reg.CHECKPOINT_SRAM_ECC, Reg.DEPOT_STAT, Reg.DEPOT_CAP, Reg.DEPOT_CMD, Reg.DEPOT_ERR] [Reg.PAGE_STAT, Reg.INT_STAT, Reg.ERR_SYND, Reg.ERR_ADDR, Reg.FAULT_CNT, Reg.QUAY_LINK_ERR] [0x4C]) ∧
  (∀ (s : State) (b : BitVec 128) (way : Passage) (o : SdOp), s.sd.op = some o → o.wait = .resp → o.kind = .start → o.idx = 6 → o.abort = false → o.step = 1 → NoCardLoad s → 
    Answers (.sdResponse (.token b true way)) s fun t => t.sd = { s.sd with timeouts := 0, clk := true, op := some { o with cfails := 0, wait := .data } } ∧ (∀ i : Fin 4, reg t (Reg.DEPOT_RESP + 4 * i.val) = BitVec.ofNat 32 (bits b.toNat (32 * i.val + 31) (32 * i.val))) ∧ t.mem = s.mem ∧ t = { s with out := t.out, regs := t.regs, parBad := t.parBad, wins := t.wins, quay := { s.quay with msix := t.quay.msix }, kerb := { s.kerb with reports := t.kerb.reports }, fnt := { s.fnt with state := t.fnt.state, absorbed := t.fnt.absorbed, credit := t.fnt.credit, seed := t.fnt.seed, int := t.fnt.int, sw := t.fnt.sw, katBusy := t.fnt.katBusy, part := t.fnt.part, rngDead := t.fnt.rngDead }, cores := t.cores, load := t.load, autoload := t.autoload, chk := { s.chk with eccBad := t.chk.eccBad }, sd := { s.sd with op := t.sd.op, clk := t.sd.clk, rca := t.sd.rca, timeouts := t.sd.timeouts, retune := t.sd.retune }, mem := t.mem } ∧ OtherRegs s t [Reg.BOOT_STAT, Reg.IXM_LD_SRC, Reg.IXM_LD_ADDR_LO, Reg.IXM_LD_CMD, Reg.IXM_LD_INFO, Reg.CHECKPOINT_SRAM_ECC, Reg.DEPOT_STAT, Reg.DEPOT_CAP, Reg.DEPOT_CMD, Reg.DEPOT_ERR] [Reg.PAGE_STAT, Reg.INT_STAT, Reg.ERR_SYND, Reg.ERR_ADDR, Reg.FAULT_CNT, Reg.QUAY_LINK_ERR] [0x4C]) ∧
  (∀ (s : State) (b : BitVec 128) (way : Passage) (o : SdOp), s.sd.op = some o → o.wait = .resp → o.kind = .start → o.idx = 6 → o.abort = false → o.step = 2 → tuned (sdMode s) = false → o.auto = false → NoCardLoad s → 
    Answers (.sdResponse (.token b true way)) s fun t => t.sd.op = none ∧ rbit t Reg.DEPOT_STAT 1 = true ∧ reg t Reg.DEPOT_CAP = BitVec.ofNat 32 o.cap ∧ fld t Reg.DEPOT_CMD 7 4 = 0 ∧ (∀ i : Fin 4, reg t (Reg.DEPOT_RESP + 4 * i.val) = BitVec.ofNat 32 (bits b.toNat (32 * i.val + 31) (32 * i.val))) ∧ t.mem = s.mem ∧ t = { s with out := t.out, regs := t.regs, parBad := t.parBad, wins := t.wins, quay := { s.quay with msix := t.quay.msix }, kerb := { s.kerb with reports := t.kerb.reports }, fnt := { s.fnt with state := t.fnt.state, absorbed := t.fnt.absorbed, credit := t.fnt.credit, seed := t.fnt.seed, int := t.fnt.int, sw := t.fnt.sw, katBusy := t.fnt.katBusy, part := t.fnt.part, rngDead := t.fnt.rngDead }, cores := t.cores, load := t.load, autoload := t.autoload, chk := { s.chk with eccBad := t.chk.eccBad }, sd := { s.sd with op := t.sd.op, clk := t.sd.clk, rca := t.sd.rca, timeouts := t.sd.timeouts, retune := t.sd.retune }, mem := t.mem } ∧ OtherRegs s t [Reg.BOOT_STAT, Reg.IXM_LD_SRC, Reg.IXM_LD_ADDR_LO, Reg.IXM_LD_CMD, Reg.IXM_LD_INFO, Reg.CHECKPOINT_SRAM_ECC, Reg.DEPOT_STAT, Reg.DEPOT_CAP, Reg.DEPOT_CMD, Reg.DEPOT_ERR] [Reg.PAGE_STAT, Reg.INT_STAT, Reg.ERR_SYND, Reg.ERR_ADDR, Reg.FAULT_CNT, Reg.QUAY_LINK_ERR] [0x4C]) ∧
  (∀ (s : State) (b : BitVec 128) (way : Passage) (o : SdOp), s.sd.op = some o → o.wait = .resp → o.kind = .start → o.idx = 6 → o.abort = false → o.step = 2 → tuned (sdMode s) = true → NoCardLoad s → 
    Answers (.sdResponse (.token b true way)) s fun t => t.sd = { s.sd with timeouts := 0, clk := true, op := some { o with cfails := 0, wait := .tune } } ∧ (∀ i : Fin 4, reg t (Reg.DEPOT_RESP + 4 * i.val) = BitVec.ofNat 32 (bits b.toNat (32 * i.val + 31) (32 * i.val))) ∧ t.mem = s.mem ∧ t = { s with out := t.out, regs := t.regs, parBad := t.parBad, wins := t.wins, quay := { s.quay with msix := t.quay.msix }, kerb := { s.kerb with reports := t.kerb.reports }, fnt := { s.fnt with state := t.fnt.state, absorbed := t.fnt.absorbed, credit := t.fnt.credit, seed := t.fnt.seed, int := t.fnt.int, sw := t.fnt.sw, katBusy := t.fnt.katBusy, part := t.fnt.part, rngDead := t.fnt.rngDead }, cores := t.cores, load := t.load, autoload := t.autoload, chk := { s.chk with eccBad := t.chk.eccBad }, sd := { s.sd with op := t.sd.op, clk := t.sd.clk, rca := t.sd.rca, timeouts := t.sd.timeouts, retune := t.sd.retune }, mem := t.mem } ∧ OtherRegs s t [Reg.BOOT_STAT, Reg.IXM_LD_SRC, Reg.IXM_LD_ADDR_LO, Reg.IXM_LD_CMD, Reg.IXM_LD_INFO, Reg.CHECKPOINT_SRAM_ECC, Reg.DEPOT_STAT, Reg.DEPOT_CAP, Reg.DEPOT_CMD, Reg.DEPOT_ERR] [Reg.PAGE_STAT, Reg.INT_STAT, Reg.ERR_SYND, Reg.ERR_ADDR, Reg.FAULT_CNT, Reg.QUAY_LINK_ERR] [0x4C]) ∧
  (∀ (s : State) (o : SdOp), s.sd.op = some o → o.wait = .busy → o.kind = .start → o.abort = false → NoCardLoad s → 
    Answers (.cardBusyEnd) s fun t => t.sd = { s.sd with clk := true, op := some { o with wait := .resp, idx := if o.s18 then 11 else 6, arg := if o.s18 then 0 else 2 } } ∧ t.mem = s.mem ∧ t = { s with out := t.out, regs := t.regs, parBad := t.parBad, wins := t.wins, quay := { s.quay with msix := t.quay.msix }, kerb := { s.kerb with reports := t.kerb.reports }, fnt := { s.fnt with state := t.fnt.state, absorbed := t.fnt.absorbed, credit := t.fnt.credit, seed := t.fnt.seed, int := t.fnt.int, sw := t.fnt.sw, katBusy := t.fnt.katBusy, part := t.fnt.part, rngDead := t.fnt.rngDead }, cores := t.cores, load := t.load, autoload := t.autoload, chk := { s.chk with eccBad := t.chk.eccBad }, sd := { s.sd with op := t.sd.op, clk := t.sd.clk, retune := t.sd.retune }, mem := t.mem } ∧ OtherRegs s t [Reg.BOOT_STAT, Reg.IXM_LD_SRC, Reg.IXM_LD_ADDR_LO, Reg.IXM_LD_CMD, Reg.IXM_LD_INFO, Reg.CHECKPOINT_SRAM_ECC, Reg.DEPOT_STAT, Reg.DEPOT_CAP, Reg.DEPOT_CMD, Reg.DEPOT_DONE] [Reg.PAGE_STAT, Reg.INT_STAT, Reg.ERR_SYND, Reg.ERR_ADDR, Reg.FAULT_CNT, Reg.QUAY_LINK_ERR] []) ∧
  (∀ (s : State) (m : BitVec 8) (o : SdOp), s.sd.op = some o → o.wait = .data → o.kind = .start → o.abort = false → NoCardLoad s → 
    Answers (.sdDataBlock (.modes m)) s fun t => sdMode t = (pickMode (rbit s Reg.DEPOT_STAT 2) (fld s Reg.DEPOT_CFG 2 0) m.toNat) ∧ t.sd = { s.sd with clk := true, op := some { o with step := 2, wait := .resp, idx := 6, arg := cmd6Arg (pickMode (rbit s Reg.DEPOT_STAT 2) (fld s Reg.DEPOT_CFG 2 0) m.toNat) } } ∧ t.mem = s.mem ∧ t = { s with out := t.out, regs := t.regs, parBad := t.parBad, wins := t.wins, quay := { s.quay with msix := t.quay.msix }, kerb := { s.kerb with reports := t.kerb.reports }, fnt := { s.fnt with state := t.fnt.state, absorbed := t.fnt.absorbed, credit := t.fnt.credit, seed := t.fnt.seed, int := t.fnt.int, sw := t.fnt.sw, katBusy := t.fnt.katBusy, part := t.fnt.part, rngDead := t.fnt.rngDead }, cores := t.cores, load := t.load, autoload := t.autoload, chk := { s.chk with eccBad := t.chk.eccBad }, sd := { s.sd with op := t.sd.op, clk := t.sd.clk, tap := t.sd.tap, retune := t.sd.retune }, mem := t.mem } ∧ OtherRegs s t [Reg.BOOT_STAT, Reg.IXM_LD_SRC, Reg.IXM_LD_ADDR_LO, Reg.IXM_LD_CMD, Reg.IXM_LD_INFO, Reg.CHECKPOINT_SRAM_ECC, Reg.DEPOT_STAT, Reg.DEPOT_CAP, Reg.DEPOT_CMD, Reg.DEPOT_DONE, Reg.DEPOT_ERR] [Reg.PAGE_STAT, Reg.INT_STAT, Reg.ERR_SYND, Reg.ERR_ADDR, Reg.FAULT_CNT, Reg.QUAY_LINK_ERR] []) ∧
  (∀ (s : State) (b : BitVec 128) (way : Passage) (o : SdOp), s.sd.op = some o → o.wait = .resp → o.kind ≠ .start → o.kind ≠ .raw → o.idx ≠ 12 → sdReads o = true → NoCardLoad s → 
    Answers (.sdResponse (.token b true way)) s fun t => t.sd = { s.sd with op := some { o with cfails := 0, wait := .data }, timeouts := 0, clk := !o.full } ∧ (∀ i : Fin 4, reg t (Reg.DEPOT_RESP + 4 * i.val) = BitVec.ofNat 32 (bits b.toNat (32 * i.val + 31) (32 * i.val))) ∧ t.mem = s.mem ∧ t = { s with out := t.out, regs := t.regs, parBad := t.parBad, wins := t.wins, quay := { s.quay with msix := t.quay.msix }, kerb := { s.kerb with reports := t.kerb.reports }, fnt := { s.fnt with state := t.fnt.state, absorbed := t.fnt.absorbed, credit := t.fnt.credit, seed := t.fnt.seed, int := t.fnt.int, sw := t.fnt.sw, katBusy := t.fnt.katBusy, part := t.fnt.part, rngDead := t.fnt.rngDead }, cores := t.cores, load := t.load, autoload := t.autoload, chk := { s.chk with eccBad := t.chk.eccBad }, sd := { s.sd with op := t.sd.op, clk := t.sd.clk, rca := t.sd.rca, timeouts := t.sd.timeouts, retune := t.sd.retune }, mem := t.mem } ∧ OtherRegs s t [Reg.BOOT_STAT, Reg.IXM_LD_SRC, Reg.IXM_LD_ADDR_LO, Reg.IXM_LD_CMD, Reg.IXM_LD_INFO, Reg.CHECKPOINT_SRAM_ECC, Reg.DEPOT_STAT, Reg.DEPOT_CAP, Reg.DEPOT_CMD, Reg.DEPOT_ERR] [Reg.PAGE_STAT, Reg.INT_STAT, Reg.ERR_SYND, Reg.ERR_ADDR, Reg.FAULT_CNT, Reg.QUAY_LINK_ERR] [0x4C]) ∧
  (∀ (s : State) (b : BitVec 128) (way : Passage) (o : SdOp), s.sd.op = some o → o.wait = .resp → o.kind = .write → o.idx ≠ 12 → way.hit = none → way.uncorr = none → damagedAt s (o.buf + 512 * (o.off + o.got)) 512 = none → sdRecord o = false → NoCardLoad s → 
    Answers (.sdResponse (.token b true way)) s fun t => t.sd = { s.sd with op := some { o with cfails := 0, wait := .data }, timeouts := 0, clk := !o.full } ∧ t.out.head? = some (.sdData (memBytes s (o.buf + 512 * (o.off + o.got)) 512) ((List.range 4).map (datCrc (memBytes s (o.buf + 512 * (o.off + o.got)) 512)))) ∧ (∀ i : Fin 4, reg t (Reg.DEPOT_RESP + 4 * i.val) = BitVec.ofNat 32 (bits b.toNat (32 * i.val + 31) (32 * i.val))) ∧ t.mem = s.mem ∧ t = { s with out := t.out, regs := t.regs, parBad := t.parBad, wins := t.wins, quay := { s.quay with msix := t.quay.msix }, kerb := { s.kerb with reports := t.kerb.reports }, fnt := { s.fnt with state := t.fnt.state, absorbed := t.fnt.absorbed, credit := t.fnt.credit, seed := t.fnt.seed, int := t.fnt.int, sw := t.fnt.sw, katBusy := t.fnt.katBusy, part := t.fnt.part, rngDead := t.fnt.rngDead }, cores := t.cores, load := t.load, autoload := t.autoload, chk := { s.chk with eccBad := t.chk.eccBad }, sd := { s.sd with op := t.sd.op, clk := t.sd.clk, rca := t.sd.rca, timeouts := t.sd.timeouts, retune := t.sd.retune }, mem := t.mem } ∧ OtherRegs s t [Reg.BOOT_STAT, Reg.IXM_LD_SRC, Reg.IXM_LD_ADDR_LO, Reg.IXM_LD_CMD, Reg.IXM_LD_INFO, Reg.CHECKPOINT_SRAM_ECC, Reg.DEPOT_STAT, Reg.DEPOT_CAP, Reg.DEPOT_CMD, Reg.DEPOT_ERR] [Reg.PAGE_STAT, Reg.INT_STAT, Reg.ERR_SYND, Reg.ERR_ADDR, Reg.FAULT_CNT, Reg.QUAY_LINK_ERR] [0x4C]) ∧
  (∀ (s : State) (b : BitVec 128) (way : Passage) (o : SdOp), s.sd.op = some o → o.wait = .resp → o.kind = .seg → sdReads o = false → o.idx ≠ 12 → way.hit = none → way.uncorr = none → damagedAt s (o.buf + 512 * (o.off + o.got)) 512 = none → sdRecord o = false → NoCardLoad s → 
    Answers (.sdResponse (.token b true way)) s fun t => t.sd = { s.sd with op := some { o with cfails := 0, wait := .data, sent := o.sent ++ (memBytes s (o.buf + 512 * (o.off + o.got)) 512) }, timeouts := 0, clk := !o.full } ∧ t.out.head? = some (.sdData (memBytes s (o.buf + 512 * (o.off + o.got)) 512) ((List.range 4).map (datCrc (memBytes s (o.buf + 512 * (o.off + o.got)) 512)))) ∧ (∀ i : Fin 4, reg t (Reg.DEPOT_RESP + 4 * i.val) = BitVec.ofNat 32 (bits b.toNat (32 * i.val + 31) (32 * i.val))) ∧ t.mem = s.mem ∧ t = { s with out := t.out, regs := t.regs, parBad := t.parBad, wins := t.wins, quay := { s.quay with msix := t.quay.msix }, kerb := { s.kerb with reports := t.kerb.reports }, fnt := { s.fnt with state := t.fnt.state, absorbed := t.fnt.absorbed, credit := t.fnt.credit, seed := t.fnt.seed, int := t.fnt.int, sw := t.fnt.sw, katBusy := t.fnt.katBusy, part := t.fnt.part, rngDead := t.fnt.rngDead }, cores := t.cores, load := t.load, autoload := t.autoload, chk := { s.chk with eccBad := t.chk.eccBad }, sd := { s.sd with op := t.sd.op, clk := t.sd.clk, rca := t.sd.rca, timeouts := t.sd.timeouts, retune := t.sd.retune }, mem := t.mem } ∧ OtherRegs s t [Reg.BOOT_STAT, Reg.IXM_LD_SRC, Reg.IXM_LD_ADDR_LO, Reg.IXM_LD_CMD, Reg.IXM_LD_INFO, Reg.CHECKPOINT_SRAM_ECC, Reg.DEPOT_STAT, Reg.DEPOT_CAP, Reg.DEPOT_CMD, Reg.DEPOT_ERR] [Reg.PAGE_STAT, Reg.INT_STAT, Reg.ERR_SYND, Reg.ERR_ADDR, Reg.FAULT_CNT, Reg.QUAY_LINK_ERR] [0x4C]) ∧
  (∀ (s : State) (b : BitVec 128) (way : Passage) (o : SdOp), s.sd.op = some o → o.wait = .resp → sdReads o = false → sdRecord o = true → o.idx ≠ 12 → NoCardLoad s → 
    Answers (.sdResponse (.token b true way)) s fun t => t.sd = { s.sd with op := some { o with cfails := 0, wait := .data }, timeouts := 0, clk := !o.full } ∧ t.out.head? = some (.sdData (journal s o) ((List.range 4).map (datCrc (journal s o)))) ∧ (∀ i : Fin 4, reg t (Reg.DEPOT_RESP + 4 * i.val) = BitVec.ofNat 32 (bits b.toNat (32 * i.val + 31) (32 * i.val))) ∧ t.mem = s.mem ∧ t = { s with out := t.out, regs := t.regs, parBad := t.parBad, wins := t.wins, quay := { s.quay with msix := t.quay.msix }, kerb := { s.kerb with reports := t.kerb.reports }, fnt := { s.fnt with state := t.fnt.state, absorbed := t.fnt.absorbed, credit := t.fnt.credit, seed := t.fnt.seed, int := t.fnt.int, sw := t.fnt.sw, katBusy := t.fnt.katBusy, part := t.fnt.part, rngDead := t.fnt.rngDead }, cores := t.cores, load := t.load, autoload := t.autoload, chk := { s.chk with eccBad := t.chk.eccBad }, sd := { s.sd with op := t.sd.op, clk := t.sd.clk, rca := t.sd.rca, timeouts := t.sd.timeouts, retune := t.sd.retune }, mem := t.mem } ∧ OtherRegs s t [Reg.BOOT_STAT, Reg.IXM_LD_SRC, Reg.IXM_LD_ADDR_LO, Reg.IXM_LD_CMD, Reg.IXM_LD_INFO, Reg.CHECKPOINT_SRAM_ECC, Reg.DEPOT_STAT, Reg.DEPOT_CAP, Reg.DEPOT_CMD, Reg.DEPOT_ERR] [Reg.PAGE_STAT, Reg.INT_STAT, Reg.ERR_SYND, Reg.ERR_ADDR, Reg.FAULT_CNT, Reg.QUAY_LINK_ERR] [0x4C]) ∧
  (∀ (s : State) (b : BitVec 128) (way : Passage) (o : SdOp), s.sd.op = some o → o.wait = .resp → o.kind ≠ .start → o.kind ≠ .raw → o.idx = 12 → NoCardLoad s → 
    Answers (.sdResponse (.token b true way)) s fun t => t.sd = { s.sd with op := some { o with cfails := 0, wait := .busy }, timeouts := 0, clk := false } ∧ (∀ i : Fin 4, reg t (Reg.DEPOT_RESP + 4 * i.val) = BitVec.ofNat 32 (bits b.toNat (32 * i.val + 31) (32 * i.val))) ∧ t.mem = s.mem ∧ t = { s with out := t.out, regs := t.regs, parBad := t.parBad, wins := t.wins, quay := { s.quay with msix := t.quay.msix }, kerb := { s.kerb with reports := t.kerb.reports }, fnt := { s.fnt with state := t.fnt.state, absorbed := t.fnt.absorbed, credit := t.fnt.credit, seed := t.fnt.seed, int := t.fnt.int, sw := t.fnt.sw, katBusy := t.fnt.katBusy, part := t.fnt.part, rngDead := t.fnt.rngDead }, cores := t.cores, load := t.load, autoload := t.autoload, chk := { s.chk with eccBad := t.chk.eccBad }, sd := { s.sd with op := t.sd.op, clk := t.sd.clk, rca := t.sd.rca, timeouts := t.sd.timeouts, retune := t.sd.retune }, mem := t.mem } ∧ OtherRegs s t [Reg.BOOT_STAT, Reg.IXM_LD_SRC, Reg.IXM_LD_ADDR_LO, Reg.IXM_LD_CMD, Reg.IXM_LD_INFO, Reg.CHECKPOINT_SRAM_ECC, Reg.DEPOT_STAT, Reg.DEPOT_CAP, Reg.DEPOT_CMD, Reg.DEPOT_ERR] [Reg.PAGE_STAT, Reg.INT_STAT, Reg.ERR_SYND, Reg.ERR_ADDR, Reg.FAULT_CNT, Reg.QUAY_LINK_ERR] [0x4C]) ∧
  (∀ (s : State) (b : BitVec 128) (way : Passage) (o : SdOp), s.sd.op = some o → o.wait = .resp → o.kind = .raw → o.rtype ≠ 3 → o.auto = false → NoCardLoad s → 
    Answers (.sdResponse (.token b true way)) s fun t => t.sd.op = none ∧ fld t Reg.DEPOT_CMD 7 4 = (if o.abort then 13 else 0) ∧ (∀ i : Fin 4, reg t (Reg.DEPOT_RESP + 4 * i.val) = BitVec.ofNat 32 (bits b.toNat (32 * i.val + 31) (32 * i.val))) ∧ t.mem = s.mem ∧ t = { s with out := t.out, regs := t.regs, parBad := t.parBad, wins := t.wins, quay := { s.quay with msix := t.quay.msix }, kerb := { s.kerb with reports := t.kerb.reports }, fnt := { s.fnt with state := t.fnt.state, absorbed := t.fnt.absorbed, credit := t.fnt.credit, seed := t.fnt.seed, int := t.fnt.int, sw := t.fnt.sw, katBusy := t.fnt.katBusy, part := t.fnt.part, rngDead := t.fnt.rngDead }, cores := t.cores, load := t.load, autoload := t.autoload, chk := { s.chk with eccBad := t.chk.eccBad }, sd := { s.sd with op := t.sd.op, clk := t.sd.clk, rca := t.sd.rca, timeouts := t.sd.timeouts, retune := t.sd.retune }, mem := t.mem } ∧ OtherRegs s t [Reg.BOOT_STAT, Reg.IXM_LD_SRC, Reg.IXM_LD_ADDR_LO, Reg.IXM_LD_CMD, Reg.IXM_LD_INFO, Reg.CHECKPOINT_SRAM_ECC, Reg.DEPOT_STAT, Reg.DEPOT_CAP, Reg.DEPOT_CMD, Reg.DEPOT_ERR] [Reg.PAGE_STAT, Reg.INT_STAT, Reg.ERR_SYND, Reg.ERR_ADDR, Reg.FAULT_CNT, Reg.QUAY_LINK_ERR] [0x4C]) ∧
  (∀ (s : State) (b : BitVec 128) (way : Passage) (o : SdOp), s.sd.op = some o → o.wait = .resp → o.kind = .raw → o.rtype = 3 → NoCardLoad s → 
    Answers (.sdResponse (.token b true way)) s fun t => t.sd = { s.sd with op := some { o with cfails := 0, wait := .busy }, timeouts := 0, clk := false } ∧ (∀ i : Fin 4, reg t (Reg.DEPOT_RESP + 4 * i.val) = BitVec.ofNat 32 (bits b.toNat (32 * i.val + 31) (32 * i.val))) ∧ t.mem = s.mem ∧ t = { s with out := t.out, regs := t.regs, parBad := t.parBad, wins := t.wins, quay := { s.quay with msix := t.quay.msix }, kerb := { s.kerb with reports := t.kerb.reports }, fnt := { s.fnt with state := t.fnt.state, absorbed := t.fnt.absorbed, credit := t.fnt.credit, seed := t.fnt.seed, int := t.fnt.int, sw := t.fnt.sw, katBusy := t.fnt.katBusy, part := t.fnt.part, rngDead := t.fnt.rngDead }, cores := t.cores, load := t.load, autoload := t.autoload, chk := { s.chk with eccBad := t.chk.eccBad }, sd := { s.sd with op := t.sd.op, clk := t.sd.clk, rca := t.sd.rca, timeouts := t.sd.timeouts, retune := t.sd.retune }, mem := t.mem } ∧ OtherRegs s t [Reg.BOOT_STAT, Reg.IXM_LD_SRC, Reg.IXM_LD_ADDR_LO, Reg.IXM_LD_CMD, Reg.IXM_LD_INFO, Reg.CHECKPOINT_SRAM_ECC, Reg.DEPOT_STAT, Reg.DEPOT_CAP, Reg.DEPOT_CMD, Reg.DEPOT_ERR] [Reg.PAGE_STAT, Reg.INT_STAT, Reg.ERR_SYND, Reg.ERR_ADDR, Reg.FAULT_CNT, Reg.QUAY_LINK_ERR] [0x4C]) ∧
  (∀ (s : State) (timeout : Bool) (o : SdOp), s.sd.op = some o → o.wait = .resp → o.kind ≠ .start → o.cfails = 0 → ¬ (timeout = true ∧ 2 ≤ s.sd.timeouts) → NoCardLoad s → 
    Answers (.sdResponse (if timeout then .timeout else .token 0 false {})) s fun t => t.sd = { s.sd with op := some { o with cfails := 1 }, timeouts := if timeout then s.sd.timeouts + 1 else 0, clk := !o.full } ∧ fld t Reg.DEPOT_ERR 15 0 = min 65535 (fld s Reg.DEPOT_ERR 15 0 + 1) ∧ Out.sdCmd (cmdToken o.idx o.arg) ∈ t.out ∧ t.mem = s.mem ∧ t = { s with out := t.out, regs := t.regs, parBad := t.parBad, wins := t.wins, quay := { s.quay with msix := t.quay.msix }, kerb := { s.kerb with reports := t.kerb.reports }, fnt := { s.fnt with state := t.fnt.state, absorbed := t.fnt.absorbed, credit := t.fnt.credit, seed := t.fnt.seed, int := t.fnt.int, sw := t.fnt.sw, katBusy := t.fnt.katBusy, part := t.fnt.part, rngDead := t.fnt.rngDead }, cores := t.cores, load := t.load, autoload := t.autoload, chk := { s.chk with eccBad := t.chk.eccBad }, sd := { s.sd with op := t.sd.op, clk := t.sd.clk, rca := t.sd.rca, timeouts := t.sd.timeouts, retune := t.sd.retune }, mem := t.mem } ∧ OtherRegs s t [Reg.BOOT_STAT, Reg.IXM_LD_SRC, Reg.IXM_LD_ADDR_LO, Reg.IXM_LD_CMD, Reg.IXM_LD_INFO, Reg.CHECKPOINT_SRAM_ECC, Reg.DEPOT_STAT, Reg.DEPOT_CAP, Reg.DEPOT_CMD, Reg.DEPOT_ERR] [Reg.PAGE_STAT, Reg.INT_STAT, Reg.ERR_SYND, Reg.ERR_ADDR, Reg.FAULT_CNT, Reg.QUAY_LINK_ERR] [0x4C]) ∧
  (∀ (s : State) (timeout : Bool) (o : SdOp), s.sd.op = some o → o.wait = .resp → o.kind = .raw → o.rtype ≠ 0 → o.cfails ≠ 0 → domOn s 23 = true → ¬ (timeout = true ∧ 2 ≤ s.sd.timeouts) → NoCardLoad s → sdMode s ∉ [0, 1, 3] → tuned (sdMode s - 1) = false → sdMode s < 8 → 
    Answers (.sdResponse (if timeout then .timeout else .token 0 false {})) s fun t => sdMode t = sdMode s - 1 ∧ t.sd.op = some { o with fails := 0, cfails := 0 } ∧ t.sd.retune = false ∧ fld t Reg.DEPOT_ERR 15 0 = min 65535 (fld s Reg.DEPOT_ERR 15 0 + 1) ∧ rbit t (rk 0x4C Reg.INT_STAT) 3 = true ∧ t.mem = s.mem ∧ t = { s with out := t.out, regs := t.regs, parBad := t.parBad, wins := t.wins, quay := { s.quay with msix := t.quay.msix }, kerb := { s.kerb with reports := t.kerb.reports }, fnt := { s.fnt with state := t.fnt.state, absorbed := t.fnt.absorbed, credit := t.fnt.credit, seed := t.fnt.seed, int := t.fnt.int, sw := t.fnt.sw, katBusy := t.fnt.katBusy, part := t.fnt.part, rngDead := t.fnt.rngDead }, cores := t.cores, load := t.load, autoload := t.autoload, chk := { s.chk with eccBad := t.chk.eccBad }, sd := { s.sd with op := t.sd.op, clk := t.sd.clk, rca := t.sd.rca, timeouts := t.sd.timeouts, retune := t.sd.retune }, mem := t.mem } ∧ OtherRegs s t [Reg.BOOT_STAT, Reg.IXM_LD_SRC, Reg.IXM_LD_ADDR_LO, Reg.IXM_LD_CMD, Reg.IXM_LD_INFO, Reg.CHECKPOINT_SRAM_ECC, Reg.DEPOT_STAT, Reg.DEPOT_CAP, Reg.DEPOT_CMD, Reg.DEPOT_ERR] [Reg.PAGE_STAT, Reg.INT_STAT, Reg.ERR_SYND, Reg.ERR_ADDR, Reg.FAULT_CNT, Reg.QUAY_LINK_ERR] [0x4C]) ∧
  (∀ (s : State) (timeout : Bool) (o : SdOp), s.sd.op = some o → o.wait = .resp → o.cfails ≠ 0 → ¬ (timeout = true ∧ 2 ≤ s.sd.timeouts) → sdMode s ∈ [0, 1, 3] → o.auto = false → o.kind ≠ .image → o.kind = .start → o.idx = 8 ∨ o.idx = 41 → timeout = false ∧ o.idx = 8 → NoCardLoad s → 
    Answers (.sdResponse (if timeout then .timeout else .token 0 false {})) s fun t => t.sd.op = none ∧ fld t Reg.DEPOT_CMD 7 4 = 3 ∧ fld t Reg.DEPOT_ERR 15 0 = min 65535 (fld s Reg.DEPOT_ERR 15 0 + 1) ∧ t.mem = s.mem ∧ t = { s with out := t.out, regs := t.regs, parBad := t.parBad, wins := t.wins, quay := { s.quay with msix := t.quay.msix }, kerb := { s.kerb with reports := t.kerb.reports }, fnt := { s.fnt with state := t.fnt.state, absorbed := t.fnt.absorbed, credit := t.fnt.credit, seed := t.fnt.seed, int := t.fnt.int, sw := t.fnt.sw, katBusy := t.fnt.katBusy, part := t.fnt.part, rngDead := t.fnt.rngDead }, cores := t.cores, load := t.load, autoload := t.autoload, chk := { s.chk with eccBad := t.chk.eccBad }, sd := { s.sd with op := t.sd.op, clk := t.sd.clk, rca := t.sd.rca, timeouts := t.sd.timeouts, retune := t.sd.retune }, mem := t.mem } ∧ OtherRegs s t [Reg.BOOT_STAT, Reg.IXM_LD_SRC, Reg.IXM_LD_ADDR_LO, Reg.IXM_LD_CMD, Reg.IXM_LD_INFO, Reg.CHECKPOINT_SRAM_ECC, Reg.DEPOT_STAT, Reg.DEPOT_CAP, Reg.DEPOT_CMD, Reg.DEPOT_ERR] [Reg.PAGE_STAT, Reg.INT_STAT, Reg.ERR_SYND, Reg.ERR_ADDR, Reg.FAULT_CNT, Reg.QUAY_LINK_ERR] [0x4C]) ∧
  (∀ (s : State) (o : SdOp), s.sd.op = some o → o.wait = .resp → o.kind = .start → o.idx = 8 → o.cfails ≠ 0 → s.sd.timeouts < 2 → NoCardLoad s → 
    Answers (.sdResponse .timeout) s fun t => t.sd = { s.sd with op := some { o with cfails := 0, step := 9, idx := 41, arg := 0x01FF8000 }, timeouts := s.sd.timeouts + 1, clk := !o.full } ∧ fld t Reg.DEPOT_ERR 15 0 = min 65535 (fld s Reg.DEPOT_ERR 15 0 + 1) ∧ Out.sdCmd (cmdToken 41 0x01FF8000) ∈ t.out ∧ t.mem = s.mem ∧ t = { s with out := t.out, regs := t.regs, parBad := t.parBad, wins := t.wins, quay := { s.quay with msix := t.quay.msix }, kerb := { s.kerb with reports := t.kerb.reports }, fnt := { s.fnt with state := t.fnt.state, absorbed := t.fnt.absorbed, credit := t.fnt.credit, seed := t.fnt.seed, int := t.fnt.int, sw := t.fnt.sw, katBusy := t.fnt.katBusy, part := t.fnt.part, rngDead := t.fnt.rngDead }, cores := t.cores, load := t.load, autoload := t.autoload, chk := { s.chk with eccBad := t.chk.eccBad }, sd := { s.sd with op := t.sd.op, clk := t.sd.clk, rca := t.sd.rca, timeouts := t.sd.timeouts, retune := t.sd.retune }, mem := t.mem } ∧ OtherRegs s t [Reg.BOOT_STAT, Reg.IXM_LD_SRC, Reg.IXM_LD_ADDR_LO, Reg.IXM_LD_CMD, Reg.IXM_LD_INFO, Reg.CHECKPOINT_SRAM_ECC, Reg.DEPOT_STAT, Reg.DEPOT_CAP, Reg.DEPOT_CMD, Reg.DEPOT_ERR] [Reg.PAGE_STAT, Reg.INT_STAT, Reg.ERR_SYND, Reg.ERR_ADDR, Reg.FAULT_CNT, Reg.QUAY_LINK_ERR] [0x4C]) ∧
  (∀ (s : State) (o : SdOp), s.sd.op = some o → o.wait = .resp → 2 ≤ s.sd.timeouts → o.auto = false → o.kind ≠ .image → NoCardLoad s → 
    Answers (.sdResponse .timeout) s fun t => t.sd.op = none ∧ t.sd.timeouts = 0 ∧ fld t Reg.DEPOT_CMD 7 4 = 2 ∧ fld t Reg.DEPOT_STAT 6 1 = 0 ∧ Out.pin "DEPOT_CMD" 0 ∈ t.out ∧ Out.pin "DEPOT_DAT" 0 ∈ t.out ∧ Out.pin "DEPOT_VEN" 0 ∈ t.out ∧ t.mem = s.mem ∧ t = { s with out := t.out, regs := t.regs, parBad := t.parBad, wins := t.wins, quay := { s.quay with msix := t.quay.msix }, kerb := { s.kerb with reports := t.kerb.reports }, fnt := { s.fnt with state := t.fnt.state, absorbed := t.fnt.absorbed, credit := t.fnt.credit, seed := t.fnt.seed, int := t.fnt.int, sw := t.fnt.sw, katBusy := t.fnt.katBusy, part := t.fnt.part, rngDead := t.fnt.rngDead }, cores := t.cores, load := t.load, autoload := t.autoload, chk := { s.chk with eccBad := t.chk.eccBad }, sd := { s.sd with op := t.sd.op, clk := t.sd.clk, rca := t.sd.rca, timeouts := t.sd.timeouts, retune := t.sd.retune }, mem := t.mem } ∧ OtherRegs s t [Reg.BOOT_STAT, Reg.IXM_LD_SRC, Reg.IXM_LD_ADDR_LO, Reg.IXM_LD_CMD, Reg.IXM_LD_INFO, Reg.CHECKPOINT_SRAM_ECC, Reg.DEPOT_STAT, Reg.DEPOT_CAP, Reg.DEPOT_CMD, Reg.DEPOT_ERR] [Reg.PAGE_STAT, Reg.INT_STAT, Reg.ERR_SYND, Reg.ERR_ADDR, Reg.FAULT_CNT, Reg.QUAY_LINK_ERR] [0x4C]) ∧
  (∀ (s : State) (r : SdResp), (s.sd.op.any fun o => o.wait == .resp) = false → NoCardLoad s → 
    Answers (.sdResponse r) s fun t => t = s) ∧
  (∀ (s : State) (b : Bytes) (full : Bool) (o : SdOp), s.sd.op = some o → o.wait = .data → o.kind = .read → o.cut = false → o.got + 1 < o.run → NoCardLoad s → 
    Answers (.sdDataBlock (.block b true full none)) s fun t => t.sd = { s.sd with clk := !full, op := some { o with got := o.got + 1, back := [], full } } ∧ memBytes t (o.buf + 512 * (o.off + o.got)) 512 = fit 512 b ∧ (∀ a, (a < (o.buf + 512 * (o.off + o.got)) ∨ (o.buf + 512 * (o.off + o.got)) + 512 ≤ a) → memByte t a = memByte s a) ∧ t = { s with out := t.out, regs := t.regs, parBad := t.parBad, wins := t.wins, quay := { s.quay with msix := t.quay.msix }, kerb := { s.kerb with reports := t.kerb.reports }, fnt := { s.fnt with state := t.fnt.state, absorbed := t.fnt.absorbed, credit := t.fnt.credit, seed := t.fnt.seed, int := t.fnt.int, sw := t.fnt.sw, katBusy := t.fnt.katBusy, part := t.fnt.part, rngDead := t.fnt.rngDead }, cores := t.cores, load := t.load, autoload := t.autoload, chk := { s.chk with eccBad := t.chk.eccBad }, sd := { s.sd with op := t.sd.op, clk := t.sd.clk, tap := t.sd.tap, retune := t.sd.retune }, mem := t.mem } ∧ OtherRegs s t [Reg.BOOT_STAT, Reg.IXM_LD_SRC, Reg.IXM_LD_ADDR_LO, Reg.IXM_LD_CMD, Reg.IXM_LD_INFO, Reg.CHECKPOINT_SRAM_ECC, Reg.DEPOT_STAT, Reg.DEPOT_CAP, Reg.DEPOT_CMD, Reg.DEPOT_DONE, Reg.DEPOT_ERR] [Reg.PAGE_STAT, Reg.INT_STAT, Reg.ERR_SYND, Reg.ERR_ADDR, Reg.FAULT_CNT, Reg.QUAY_LINK_ERR] []) ∧
  (∀ (s : State) (b : Bytes) (full : Bool) (h : Hit) (o : SdOp), s.sd.op = some o → o.wait = .data → o.kind = .read → o.cut = false → o.auto = false → (sealPass 0x4C 0x40 none (512 * (o.off + o.got)) (fit 512 b) (some h)).2 = false → NoCardLoad s → 
    Answers (.sdDataBlock (.block b true full (some h))) s fun t => t.sd.op = none ∧ fld t Reg.DEPOT_CMD 7 4 = 13 ∧ memBytes t (o.buf + 512 * (o.off + o.got)) (sealPass 0x4C 0x40 none (512 * (o.off + o.got)) (fit 512 b) (some h)).1.length = (sealPass 0x4C 0x40 none (512 * (o.off + o.got)) (fit 512 b) (some h)).1 ∧ (∀ a, (a < (o.buf + 512 * (o.off + o.got)) ∨ (o.buf + 512 * (o.off + o.got)) + (sealPass 0x4C 0x40 none (512 * (o.off + o.got)) (fit 512 b) (some h)).1.length ≤ a) → memByte t a = memByte s a) ∧ t = { s with out := t.out, regs := t.regs, parBad := t.parBad, wins := t.wins, quay := { s.quay with msix := t.quay.msix }, kerb := { s.kerb with reports := t.kerb.reports }, fnt := { s.fnt with state := t.fnt.state, absorbed := t.fnt.absorbed, credit := t.fnt.credit, seed := t.fnt.seed, int := t.fnt.int, sw := t.fnt.sw, katBusy := t.fnt.katBusy, part := t.fnt.part, rngDead := t.fnt.rngDead }, cores := t.cores, load := t.load, autoload := t.autoload, chk := { s.chk with eccBad := t.chk.eccBad }, sd := { s.sd with op := t.sd.op, clk := t.sd.clk, tap := t.sd.tap, retune := t.sd.retune }, mem := t.mem } ∧ OtherRegs s t [Reg.BOOT_STAT, Reg.IXM_LD_SRC, Reg.IXM_LD_ADDR_LO, Reg.IXM_LD_CMD, Reg.IXM_LD_INFO, Reg.CHECKPOINT_SRAM_ECC, Reg.DEPOT_STAT, Reg.DEPOT_CAP, Reg.DEPOT_CMD, Reg.DEPOT_DONE, Reg.DEPOT_ERR] [Reg.PAGE_STAT, Reg.INT_STAT, Reg.ERR_SYND, Reg.ERR_ADDR, Reg.FAULT_CNT, Reg.QUAY_LINK_ERR] []) ∧
  (∀ (s : State) (b : Bytes) (full : Bool) (o : SdOp), s.sd.op = some o → o.wait = .data → o.kind = .read → o.cut = false → o.got + 1 = o.run → 1 < o.run → NoCardLoad s → 
    Answers (.sdDataBlock (.block b true full none)) s fun t => t.sd = { s.sd with clk := true, op := some { o with got := o.got + 1, back := [], full := false, wait := .resp, idx := 12, arg := 0 } } ∧ memBytes t (o.buf + 512 * (o.off + o.got)) 512 = fit 512 b ∧ (∀ a, (a < (o.buf + 512 * (o.off + o.got)) ∨ (o.buf + 512 * (o.off + o.got)) + 512 ≤ a) → memByte t a = memByte s a) ∧ t = { s with out := t.out, regs := t.regs, parBad := t.parBad, wins := t.wins, quay := { s.quay with msix := t.quay.msix }, kerb := { s.kerb with reports := t.kerb.reports }, fnt := { s.fnt with state := t.fnt.state, absorbed := t.fnt.absorbed, credit := t.fnt.credit, seed := t.fnt.seed, int := t.fnt.int, sw := t.fnt.sw, katBusy := t.fnt.katBusy, part := t.fnt.part, rngDead := t.fnt.rngDead }, cores := t.cores, load := t.load, autoload := t.autoload, chk := { s.chk with eccBad := t.chk.eccBad }, sd := { s.sd with op := t.sd.op, clk := t.sd.clk, tap := t.sd.tap, retune := t.sd.retune }, mem := t.mem } ∧ OtherRegs s t [Reg.BOOT_STAT, Reg.IXM_LD_SRC, Reg.IXM_LD_ADDR_LO, Reg.IXM_LD_CMD, Reg.IXM_LD_INFO, Reg.CHECKPOINT_SRAM_ECC, Reg.DEPOT_STAT, Reg.DEPOT_CAP, Reg.DEPOT_CMD, Reg.DEPOT_DONE, Reg.DEPOT_ERR] [Reg.PAGE_STAT, Reg.INT_STAT, Reg.ERR_SYND, Reg.ERR_ADDR, Reg.FAULT_CNT, Reg.QUAY_LINK_ERR] []) ∧
  (∀ (s : State) (b : Bytes) (full : Bool) (o : SdOp), s.sd.op = some o → o.wait = .data → o.kind = .read → o.cut = false → o.got = 0 → o.run = 1 → o.count ≤ o.off + 1 → o.abort = false → o.auto = false → NoCardLoad s → 
    Answers (.sdDataBlock (.block b true full none)) s fun t => t.sd.op = none ∧ t.sd.clk = false ∧ fld t Reg.DEPOT_CMD 7 4 = 0 ∧ memBytes t (o.buf + 512 * (o.off + o.got)) 512 = fit 512 b ∧ (∀ a, (a < (o.buf + 512 * (o.off + o.got)) ∨ (o.buf + 512 * (o.off + o.got)) + 512 ≤ a) → memByte t a = memByte s a) ∧ t = { s with out := t.out, regs := t.regs, parBad := t.parBad, wins := t.wins, quay := { s.quay with msix := t.quay.msix }, kerb := { s.kerb with reports := t.kerb.reports }, fnt := { s.fnt with state := t.fnt.state, absorbed := t.fnt.absorbed, credit := t.fnt.credit, seed := t.fnt.seed, int := t.fnt.int, sw := t.fnt.sw, katBusy := t.fnt.katBusy, part := t.fnt.part, rngDead := t.fnt.rngDead }, cores := t.cores, load := t.load, autoload := t.autoload, chk := { s.chk with eccBad := t.chk.eccBad }, sd := { s.sd with op := t.sd.op, clk := t.sd.clk, tap := t.sd.tap, retune := t.sd.retune }, mem := t.mem } ∧ OtherRegs s t [Reg.BOOT_STAT, Reg.IXM_LD_SRC, Reg.IXM_LD_ADDR_LO, Reg.IXM_LD_CMD, Reg.IXM_LD_INFO, Reg.CHECKPOINT_SRAM_ECC, Reg.DEPOT_STAT, Reg.DEPOT_CAP, Reg.DEPOT_CMD, Reg.DEPOT_DONE, Reg.DEPOT_ERR] [Reg.PAGE_STAT, Reg.INT_STAT, Reg.ERR_SYND, Reg.ERR_ADDR, Reg.FAULT_CNT, Reg.QUAY_LINK_ERR] []) ∧
  (∀ (s : State) (b : Bytes) (full : Bool) (o : SdOp), s.sd.op = some o → o.wait = .data → o.kind = .read ∨ o.kind = .seg → sdReads o = true → 1 < o.run → NoCardLoad s → 
    Answers (.sdDataBlock (.block b false full none)) s fun t => (t.sd.op.map fun z => (z.fails, z.redo, z.wait, z.idx, z.off)) = some (o.fails, true, .resp, 12, o.off) ∧ fld t Reg.DEPOT_ERR 31 16 = min 65535 (fld s Reg.DEPOT_ERR 31 16 + 1) ∧ t.mem = s.mem ∧ t = { s with out := t.out, regs := t.regs, parBad := t.parBad, wins := t.wins, quay := { s.quay with msix := t.quay.msix }, kerb := { s.kerb with reports := t.kerb.reports }, fnt := { s.fnt with state := t.fnt.state, absorbed := t.fnt.absorbed, credit := t.fnt.credit, seed := t.fnt.seed, int := t.fnt.int, sw := t.fnt.sw, katBusy := t.fnt.katBusy, part := t.fnt.part, rngDead := t.fnt.rngDead }, cores := t.cores, load := t.load, autoload := t.autoload, chk := { s.chk with eccBad := t.chk.eccBad }, sd := { s.sd with op := t.sd.op, clk := t.sd.clk, tap := t.sd.tap, retune := t.sd.retune }, mem := t.mem } ∧ OtherRegs s t [Reg.BOOT_STAT, Reg.IXM_LD_SRC, Reg.IXM_LD_ADDR_LO, Reg.IXM_LD_CMD, Reg.IXM_LD_INFO, Reg.CHECKPOINT_SRAM_ECC, Reg.DEPOT_STAT, Reg.DEPOT_CAP, Reg.DEPOT_CMD, Reg.DEPOT_DONE, Reg.DEPOT_ERR] [Reg.PAGE_STAT, Reg.INT_STAT, Reg.ERR_SYND, Reg.ERR_ADDR, Reg.FAULT_CNT, Reg.QUAY_LINK_ERR] []) ∧
  (∀ (s : State) (b : Bytes) (full : Bool) (o : SdOp), s.sd.op = some o → o.wait = .data → o.kind = .read ∨ o.kind = .seg → sdReads o = true → o.run ≤ 1 → o.fails = 0 → tuned (sdMode s) = false → NoCardLoad s → 
    Answers (.sdDataBlock (.block b false full none)) s fun t => (t.sd.op.map fun z => (z.fails, z.redo, z.wait, z.off, z.run, z.got)) = some (1, false, .resp, o.off, min 8 (sdCount o - o.off), 0) ∧ fld t Reg.DEPOT_ERR 31 16 = min 65535 (fld s Reg.DEPOT_ERR 31 16 + 1) ∧ t.mem = s.mem ∧ t = { s with out := t.out, regs := t.regs, parBad := t.parBad, wins := t.wins, quay := { s.quay with msix := t.quay.msix }, kerb := { s.kerb with reports := t.kerb.reports }, fnt := { s.fnt with state := t.fnt.state, absorbed := t.fnt.absorbed, credit := t.fnt.credit, seed := t.fnt.seed, int := t.fnt.int, sw := t.fnt.sw, katBusy := t.fnt.katBusy, part := t.fnt.part, rngDead := t.fnt.rngDead }, cores := t.cores, load := t.load, autoload := t.autoload, chk := { s.chk with eccBad := t.chk.eccBad }, sd := { s.sd with op := t.sd.op, clk := t.sd.clk, tap := t.sd.tap, retune := t.sd.retune }, mem := t.mem } ∧ OtherRegs s t [Reg.BOOT_STAT, Reg.IXM_LD_SRC, Reg.IXM_LD_ADDR_LO, Reg.IXM_LD_CMD, Reg.IXM_LD_INFO, Reg.CHECKPOINT_SRAM_ECC, Reg.DEPOT_STAT, Reg.DEPOT_CAP, Reg.DEPOT_CMD, Reg.DEPOT_DONE, Reg.DEPOT_ERR] [Reg.PAGE_STAT, Reg.INT_STAT, Reg.ERR_SYND, Reg.ERR_ADDR, Reg.FAULT_CNT, Reg.QUAY_LINK_ERR] []) ∧
  (∀ (s : State) (b : Bytes) (full : Bool) (o : SdOp), s.sd.op = some o → o.wait = .data → o.kind = .read ∨ o.kind = .seg → sdReads o = true → o.run ≤ 1 → o.fails ≠ 0 → sdMode s ∈ [0, 1, 3] → o.auto = false → NoCardLoad s → 
    Answers (.sdDataBlock (.block b false full none)) s fun t => t.sd.op = none ∧ fld t Reg.DEPOT_CMD 7 4 = 4 ∧ fld t Reg.DEPOT_ERR 31 16 = min 65535 (fld s Reg.DEPOT_ERR 31 16 + 1) ∧ t.mem = s.mem ∧ t = { s with out := t.out, regs := t.regs, parBad := t.parBad, wins := t.wins, quay := { s.quay with msix := t.quay.msix }, kerb := { s.kerb with reports := t.kerb.reports }, fnt := { s.fnt with state := t.fnt.state, absorbed := t.fnt.absorbed, credit := t.fnt.credit, seed := t.fnt.seed, int := t.fnt.int, sw := t.fnt.sw, katBusy := t.fnt.katBusy, part := t.fnt.part, rngDead := t.fnt.rngDead }, cores := t.cores, load := t.load, autoload := t.autoload, chk := { s.chk with eccBad := t.chk.eccBad }, sd := { s.sd with op := t.sd.op, clk := t.sd.clk, tap := t.sd.tap, retune := t.sd.retune }, mem := t.mem } ∧ OtherRegs s t [Reg.BOOT_STAT, Reg.IXM_LD_SRC, Reg.IXM_LD_ADDR_LO, Reg.IXM_LD_CMD, Reg.IXM_LD_INFO, Reg.CHECKPOINT_SRAM_ECC, Reg.DEPOT_STAT, Reg.DEPOT_CAP, Reg.DEPOT_CMD, Reg.DEPOT_DONE, Reg.DEPOT_ERR] [Reg.PAGE_STAT, Reg.INT_STAT, Reg.ERR_SYND, Reg.ERR_ADDR, Reg.FAULT_CNT, Reg.QUAY_LINK_ERR] []) ∧
  (∀ (s : State) (o : SdOp), s.sd.op = some o → o.wait = .busy → o.kind = .read ∨ o.kind = .write ∨ o.kind = .seg → o.redo = true → o.fails = 0 → tuned (sdMode s) = false → NoCardLoad s → 
    Answers (.cardBusyEnd) s fun t => (t.sd.op.map fun z => (z.fails, z.redo, z.wait, z.off, z.run, z.got)) = some (1, false, .resp, o.off, min 8 (sdCount o - o.off), 0) ∧ t.mem = s.mem ∧ t = { s with out := t.out, regs := t.regs, parBad := t.parBad, wins := t.wins, quay := { s.quay with msix := t.quay.msix }, kerb := { s.kerb with reports := t.kerb.reports }, fnt := { s.fnt with state := t.fnt.state, absorbed := t.fnt.absorbed, credit := t.fnt.credit, seed := t.fnt.seed, int := t.fnt.int, sw := t.fnt.sw, katBusy := t.fnt.katBusy, part := t.fnt.part, rngDead := t.fnt.rngDead }, cores := t.cores, load := t.load, autoload := t.autoload, chk := { s.chk with eccBad := t.chk.eccBad }, sd := { s.sd with op := t.sd.op, clk := t.sd.clk, retune := t.sd.retune }, mem := t.mem } ∧ OtherRegs s t [Reg.BOOT_STAT, Reg.IXM_LD_SRC, Reg.IXM_LD_ADDR_LO, Reg.IXM_LD_CMD, Reg.IXM_LD_INFO, Reg.CHECKPOINT_SRAM_ECC, Reg.DEPOT_STAT, Reg.DEPOT_CAP, Reg.DEPOT_CMD, Reg.DEPOT_DONE] [Reg.PAGE_STAT, Reg.INT_STAT, Reg.ERR_SYND, Reg.ERR_ADDR, Reg.FAULT_CNT, Reg.QUAY_LINK_ERR] []) ∧
  (∀ (s : State) (o : SdOp), s.sd.op = some o → o.wait = .busy → o.kind = .read ∨ o.kind = .write ∨ o.kind = .seg → o.redo = true → o.fails ≠ 0 → sdMode s ∈ [0, 1, 3] → o.auto = false → NoCardLoad s → 
    Answers (.cardBusyEnd) s fun t => t.sd.op = none ∧ fld t Reg.DEPOT_CMD 7 4 = 4 ∧ t.mem = s.mem ∧ t = { s with out := t.out, regs := t.regs, parBad := t.parBad, wins := t.wins, quay := { s.quay with msix := t.quay.msix }, kerb := { s.kerb with reports := t.kerb.reports }, fnt := { s.fnt with state := t.fnt.state, absorbed := t.fnt.absorbed, credit := t.fnt.credit, seed := t.fnt.seed, int := t.fnt.int, sw := t.fnt.sw, katBusy := t.fnt.katBusy, part := t.fnt.part, rngDead := t.fnt.rngDead }, cores := t.cores, load := t.load, autoload := t.autoload, chk := { s.chk with eccBad := t.chk.eccBad }, sd := { s.sd with op := t.sd.op, clk := t.sd.clk, retune := t.sd.retune }, mem := t.mem } ∧ OtherRegs s t [Reg.BOOT_STAT, Reg.IXM_LD_SRC, Reg.IXM_LD_ADDR_LO, Reg.IXM_LD_CMD, Reg.IXM_LD_INFO, Reg.CHECKPOINT_SRAM_ECC, Reg.DEPOT_STAT, Reg.DEPOT_CAP, Reg.DEPOT_CMD, Reg.DEPOT_DONE] [Reg.PAGE_STAT, Reg.INT_STAT, Reg.ERR_SYND, Reg.ERR_ADDR, Reg.FAULT_CNT, Reg.QUAY_LINK_ERR] []) ∧
  (∀ (s : State) (way : Passage) (o : SdOp), s.sd.op = some o → o.wait = .data → o.kind = .write → o.got + 1 < o.run → way.hit = none → way.uncorr = none → damagedAt s (o.buf + 512 * (o.off + (o.got + 1))) 512 = none → sdRecord o = false → NoCardLoad s → 
    Answers (.sdDataBlock (.token true way)) s fun t => t.sd.op = some { o with got := o.got + 1 } ∧ t.out.head? = some (.sdData (memBytes s (o.buf + 512 * (o.off + (o.got + 1))) 512) ((List.range 4).map (datCrc (memBytes s (o.buf + 512 * (o.off + (o.got + 1))) 512)))) ∧ t.mem = s.mem ∧ t = { s with out := t.out, regs := t.regs, parBad := t.parBad, wins := t.wins, quay := { s.quay with msix := t.quay.msix }, kerb := { s.kerb with reports := t.kerb.reports }, fnt := { s.fnt with state := t.fnt.state, absorbed := t.fnt.absorbed, credit := t.fnt.credit, seed := t.fnt.seed, int := t.fnt.int, sw := t.fnt.sw, katBusy := t.fnt.katBusy, part := t.fnt.part, rngDead := t.fnt.rngDead }, cores := t.cores, load := t.load, autoload := t.autoload, chk := { s.chk with eccBad := t.chk.eccBad }, sd := { s.sd with op := t.sd.op, clk := t.sd.clk, tap := t.sd.tap, retune := t.sd.retune }, mem := t.mem } ∧ OtherRegs s t [Reg.BOOT_STAT, Reg.IXM_LD_SRC, Reg.IXM_LD_ADDR_LO, Reg.IXM_LD_CMD, Reg.IXM_LD_INFO, Reg.CHECKPOINT_SRAM_ECC, Reg.DEPOT_STAT, Reg.DEPOT_CAP, Reg.DEPOT_CMD, Reg.DEPOT_DONE, Reg.DEPOT_ERR] [Reg.PAGE_STAT, Reg.INT_STAT, Reg.ERR_SYND, Reg.ERR_ADDR, Reg.FAULT_CNT, Reg.QUAY_LINK_ERR] []) ∧
  (∀ (s : State) (way : Passage) (o : SdOp), s.sd.op = some o → o.wait = .data → sdReads o = false → o.kind ≠ .start → o.run ≤ o.got + 1 → NoCardLoad s → 
    Answers (.sdDataBlock (.token true way)) s fun t => t.sd.op = some (if 1 < o.run then { o with got := o.got + 1, wait := .resp, idx := 12, arg := 0 } else { o with got := o.got + 1, wait := .busy }) ∧ t.mem = s.mem ∧ t = { s with out := t.out, regs := t.regs, parBad := t.parBad, wins := t.wins, quay := { s.quay with msix := t.quay.msix }, kerb := { s.kerb with reports := t.kerb.reports }, fnt := { s.fnt with state := t.fnt.state, absorbed := t.fnt.absorbed, credit := t.fnt.credit, seed := t.fnt.seed, int := t.fnt.int, sw := t.fnt.sw, katBusy := t.fnt.katBusy, part := t.fnt.part, rngDead := t.fnt.rngDead }, cores := t.cores, load := t.load, autoload := t.autoload, chk := { s.chk with eccBad := t.chk.eccBad }, sd := { s.sd with op := t.sd.op, clk := t.sd.clk, tap := t.sd.tap, retune := t.sd.retune }, mem := t.mem } ∧ OtherRegs s t [Reg.BOOT_STAT, Reg.IXM_LD_SRC, Reg.IXM_LD_ADDR_LO, Reg.IXM_LD_CMD, Reg.IXM_LD_INFO, Reg.CHECKPOINT_SRAM_ECC, Reg.DEPOT_STAT, Reg.DEPOT_CAP, Reg.DEPOT_CMD, Reg.DEPOT_DONE, Reg.DEPOT_ERR] [Reg.PAGE_STAT, Reg.INT_STAT, Reg.ERR_SYND, Reg.ERR_ADDR, Reg.FAULT_CNT, Reg.QUAY_LINK_ERR] []) ∧
  (∀ (s : State) (way : Passage) (o : SdOp), s.sd.op = some o → o.wait = .data → o.kind = .write → 1 < o.run → NoCardLoad s → 
    Answers (.sdDataBlock (.token false way)) s fun t => (t.sd.op.map fun z => (z.fails, z.redo, z.wait, z.idx, z.off)) = some (o.fails, true, .resp, 12, o.off) ∧ fld t Reg.DEPOT_ERR 31 16 = min 65535 (fld s Reg.DEPOT_ERR 31 16 + 1) ∧ t.mem = s.mem ∧ t = { s with out := t.out, regs := t.regs, parBad := t.parBad, wins := t.wins, quay := { s.quay with msix := t.quay.msix }, kerb := { s.kerb with reports := t.kerb.reports }, fnt := { s.fnt with state := t.fnt.state, absorbed := t.fnt.absorbed, credit := t.fnt.credit, seed := t.fnt.seed, int := t.fnt.int, sw := t.fnt.sw, katBusy := t.fnt.katBusy, part := t.fnt.part, rngDead := t.fnt.rngDead }, cores := t.cores, load := t.load, autoload := t.autoload, chk := { s.chk with eccBad := t.chk.eccBad }, sd := { s.sd with op := t.sd.op, clk := t.sd.clk, tap := t.sd.tap, retune := t.sd.retune }, mem := t.mem } ∧ OtherRegs s t [Reg.BOOT_STAT, Reg.IXM_LD_SRC, Reg.IXM_LD_ADDR_LO, Reg.IXM_LD_CMD, Reg.IXM_LD_INFO, Reg.CHECKPOINT_SRAM_ECC, Reg.DEPOT_STAT, Reg.DEPOT_CAP, Reg.DEPOT_CMD, Reg.DEPOT_DONE, Reg.DEPOT_ERR] [Reg.PAGE_STAT, Reg.INT_STAT, Reg.ERR_SYND, Reg.ERR_ADDR, Reg.FAULT_CNT, Reg.QUAY_LINK_ERR] []) ∧
  (∀ (s : State) (way : Passage) (o : SdOp), s.sd.op = some o → o.wait = .data → o.kind = .write → o.run ≤ 1 → o.fails = 0 → tuned (sdMode s) = false → NoCardLoad s → 
    Answers (.sdDataBlock (.token false way)) s fun t => (t.sd.op.map fun z => (z.fails, z.redo, z.wait, z.off, z.run, z.got)) = some (1, false, .resp, o.off, min 8 (sdCount o - o.off), 0) ∧ fld t Reg.DEPOT_ERR 31 16 = min 65535 (fld s Reg.DEPOT_ERR 31 16 + 1) ∧ t.mem = s.mem ∧ t = { s with out := t.out, regs := t.regs, parBad := t.parBad, wins := t.wins, quay := { s.quay with msix := t.quay.msix }, kerb := { s.kerb with reports := t.kerb.reports }, fnt := { s.fnt with state := t.fnt.state, absorbed := t.fnt.absorbed, credit := t.fnt.credit, seed := t.fnt.seed, int := t.fnt.int, sw := t.fnt.sw, katBusy := t.fnt.katBusy, part := t.fnt.part, rngDead := t.fnt.rngDead }, cores := t.cores, load := t.load, autoload := t.autoload, chk := { s.chk with eccBad := t.chk.eccBad }, sd := { s.sd with op := t.sd.op, clk := t.sd.clk, tap := t.sd.tap, retune := t.sd.retune }, mem := t.mem } ∧ OtherRegs s t [Reg.BOOT_STAT, Reg.IXM_LD_SRC, Reg.IXM_LD_ADDR_LO, Reg.IXM_LD_CMD, Reg.IXM_LD_INFO, Reg.CHECKPOINT_SRAM_ECC, Reg.DEPOT_STAT, Reg.DEPOT_CAP, Reg.DEPOT_CMD, Reg.DEPOT_DONE, Reg.DEPOT_ERR] [Reg.PAGE_STAT, Reg.INT_STAT, Reg.ERR_SYND, Reg.ERR_ADDR, Reg.FAULT_CNT, Reg.QUAY_LINK_ERR] []) ∧
  (∀ (s : State) (way : Passage) (o : SdOp), s.sd.op = some o → o.wait = .data → o.kind = .write → o.auto = false → o.got + 1 < o.run → (sealPass 0x40 0x4C none (512 * (o.off + (o.got + 1))) (memBytes s (o.buf + 512 * (o.off + (o.got + 1))) 512) way.hit).2 = false → way.uncorr = none → damagedAt s (o.buf + 512 * (o.off + (o.got + 1))) 512 = none → sdRecord o = false → NoCardLoad s → 
    Answers (.sdDataBlock (.token true way)) s fun t => t.sd.op = none ∧ fld t Reg.DEPOT_CMD 7 4 = 13 ∧ t.mem = s.mem ∧ t = { s with out := t.out, regs := t.regs, parBad := t.parBad, wins := t.wins, quay := { s.quay with msix := t.quay.msix }, kerb := { s.kerb with reports := t.kerb.reports }, fnt := { s.fnt with state := t.fnt.state, absorbed := t.fnt.absorbed, credit := t.fnt.credit, seed := t.fnt.seed, int := t.fnt.int, sw := t.fnt.sw, katBusy := t.fnt.katBusy, part := t.fnt.part, rngDead := t.fnt.rngDead }, cores := t.cores, load := t.load, autoload := t.autoload, chk := { s.chk with eccBad := t.chk.eccBad }, sd := { s.sd with op := t.sd.op, clk := t.sd.clk, tap := t.sd.tap, retune := t.sd.retune }, mem := t.mem } ∧ OtherRegs s t [Reg.BOOT_STAT, Reg.IXM_LD_SRC, Reg.IXM_LD_ADDR_LO, Reg.IXM_LD_CMD, Reg.IXM_LD_INFO, Reg.CHECKPOINT_SRAM_ECC, Reg.DEPOT_STAT, Reg.DEPOT_CAP, Reg.DEPOT_CMD, Reg.DEPOT_DONE, Reg.DEPOT_ERR] [Reg.PAGE_STAT, Reg.INT_STAT, Reg.ERR_SYND, Reg.ERR_ADDR, Reg.FAULT_CNT, Reg.QUAY_LINK_ERR] []) ∧
  (∀ (s : State) (way : Passage) (o : SdOp), s.sd.op = some o → o.wait = .data → o.kind = .write → o.auto = false → o.got + 1 < o.run → way.hit = none → sdRecord o = false → damagedAt s (o.buf + 512 * (o.off + (o.got + 1))) 512 ≠ none → NoCardLoad s → 
    Answers (.sdDataBlock (.token true way)) s fun t => t.sd.op = none ∧ fld t Reg.DEPOT_CMD 7 4 = 13 ∧ t.mem = s.mem ∧ t = { s with out := t.out, regs := t.regs, parBad := t.parBad, wins := t.wins, quay := { s.quay with msix := t.quay.msix }, kerb := { s.kerb with reports := t.kerb.reports }, fnt := { s.fnt with state := t.fnt.state, absorbed := t.fnt.absorbed, credit := t.fnt.credit, seed := t.fnt.seed, int := t.fnt.int, sw := t.fnt.sw, katBusy := t.fnt.katBusy, part := t.fnt.part, rngDead := t.fnt.rngDead }, cores := t.cores, load := t.load, autoload := t.autoload, chk := { s.chk with eccBad := t.chk.eccBad }, sd := { s.sd with op := t.sd.op, clk := t.sd.clk, tap := t.sd.tap, retune := t.sd.retune }, mem := t.mem } ∧ OtherRegs s t [Reg.BOOT_STAT, Reg.IXM_LD_SRC, Reg.IXM_LD_ADDR_LO, Reg.IXM_LD_CMD, Reg.IXM_LD_INFO, Reg.CHECKPOINT_SRAM_ECC, Reg.DEPOT_STAT, Reg.DEPOT_CAP, Reg.DEPOT_CMD, Reg.DEPOT_DONE, Reg.DEPOT_ERR] [Reg.PAGE_STAT, Reg.INT_STAT, Reg.ERR_SYND, Reg.ERR_ADDR, Reg.FAULT_CNT, Reg.QUAY_LINK_ERR] []) ∧
  (∀ (s : State) (p : BitVec 64) (o : SdOp), s.sd.op = some o → o.wait = .tune → o.kind = .raw → o.rtype ≠ 0 → o.abort = false → 8 ≤ (widestRun p.toNat).2 → NoCardLoad s → 
    Answers (.sdDataBlock (.taps p)) s fun t => t.sd = { s.sd with tap := (widestRun p.toNat).1 + (widestRun p.toNat).2 / 2, retune := false, clk := !o.full, op := some { o with wait := .resp } } ∧ Out.sdCmd (cmdToken o.idx o.arg) ∈ t.out ∧ t.mem = s.mem ∧ t = { s with out := t.out, regs := t.regs, parBad := t.parBad, wins := t.wins, quay := { s.quay with msix := t.quay.msix }, kerb := { s.kerb with reports := t.kerb.reports }, fnt := { s.fnt with state := t.fnt.state, absorbed := t.fnt.absorbed, credit := t.fnt.credit, seed := t.fnt.seed, int := t.fnt.int, sw := t.fnt.sw, katBusy := t.fnt.katBusy, part := t.fnt.part, rngDead := t.fnt.rngDead }, cores := t.cores, load := t.load, autoload := t.autoload, chk := { s.chk with eccBad := t.chk.eccBad }, sd := { s.sd with op := t.sd.op, clk := t.sd.clk, tap := t.sd.tap, retune := t.sd.retune }, mem := t.mem } ∧ OtherRegs s t [Reg.BOOT_STAT, Reg.IXM_LD_SRC, Reg.IXM_LD_ADDR_LO, Reg.IXM_LD_CMD, Reg.IXM_LD_INFO, Reg.CHECKPOINT_SRAM_ECC, Reg.DEPOT_STAT, Reg.DEPOT_CAP, Reg.DEPOT_CMD, Reg.DEPOT_DONE, Reg.DEPOT_ERR] [Reg.PAGE_STAT, Reg.INT_STAT, Reg.ERR_SYND, Reg.ERR_ADDR, Reg.FAULT_CNT, Reg.QUAY_LINK_ERR] []) ∧
  (∀ (s : State) (p : BitVec 64) (o : SdOp), s.sd.op = some o → o.wait = .tune → o.kind = .read ∨ o.kind = .write ∨ o.kind = .seg → o.abort = false → 8 ≤ (widestRun p.toNat).2 → NoCardLoad s → 
    Answers (.sdDataBlock (.taps p)) s fun t => t.sd.tap = (widestRun p.toNat).1 + (widestRun p.toNat).2 / 2 ∧ t.sd.retune = false ∧ (t.sd.op.map fun z => (z.wait, z.run, z.got)) = some (.resp, min 8 (sdCount o - o.off), 0) ∧ t.mem = s.mem ∧ t = { s with out := t.out, regs := t.regs, parBad := t.parBad, wins := t.wins, quay := { s.quay with msix := t.quay.msix }, kerb := { s.kerb with reports := t.kerb.reports }, fnt := { s.fnt with state := t.fnt.state, absorbed := t.fnt.absorbed, credit := t.fnt.credit, seed := t.fnt.seed, int := t.fnt.int, sw := t.fnt.sw, katBusy := t.fnt.katBusy, part := t.fnt.part, rngDead := t.fnt.rngDead }, cores := t.cores, load := t.load, autoload := t.autoload, chk := { s.chk with eccBad := t.chk.eccBad }, sd := { s.sd with op := t.sd.op, clk := t.sd.clk, tap := t.sd.tap, retune := t.sd.retune }, mem := t.mem } ∧ OtherRegs s t [Reg.BOOT_STAT, Reg.IXM_LD_SRC, Reg.IXM_LD_ADDR_LO, Reg.IXM_LD_CMD, Reg.IXM_LD_INFO, Reg.CHECKPOINT_SRAM_ECC, Reg.DEPOT_STAT, Reg.DEPOT_CAP, Reg.DEPOT_CMD, Reg.DEPOT_DONE, Reg.DEPOT_ERR] [Reg.PAGE_STAT, Reg.INT_STAT, Reg.ERR_SYND, Reg.ERR_ADDR, Reg.FAULT_CNT, Reg.QUAY_LINK_ERR] []) ∧
  (∀ (s : State) (p : BitVec 64) (o : SdOp), s.sd.op = some o → o.wait = .tune → (widestRun p.toNat).2 < 8 → sdMode s ∈ [0, 1, 3] → o.auto = false → o.kind ≠ .image → NoCardLoad s → 
    Answers (.sdDataBlock (.taps p)) s fun t => t.sd.op = none ∧ fld t Reg.DEPOT_CMD 7 4 = 4 ∧ t.mem = s.mem ∧ t = { s with out := t.out, regs := t.regs, parBad := t.parBad, wins := t.wins, quay := { s.quay with msix := t.quay.msix }, kerb := { s.kerb with reports := t.kerb.reports }, fnt := { s.fnt with state := t.fnt.state, absorbed := t.fnt.absorbed, credit := t.fnt.credit, seed := t.fnt.seed, int := t.fnt.int, sw := t.fnt.sw, katBusy := t.fnt.katBusy, part := t.fnt.part, rngDead := t.fnt.rngDead }, cores := t.cores, load := t.load, autoload := t.autoload, chk := { s.chk with eccBad := t.chk.eccBad }, sd := { s.sd with op := t.sd.op, clk := t.sd.clk, tap := t.sd.tap, retune := t.sd.retune }, mem := t.mem } ∧ OtherRegs s t [Reg.BOOT_STAT, Reg.IXM_LD_SRC, Reg.IXM_LD_ADDR_LO, Reg.IXM_LD_CMD, Reg.IXM_LD_INFO, Reg.CHECKPOINT_SRAM_ECC, Reg.DEPOT_STAT, Reg.DEPOT_CAP, Reg.DEPOT_CMD, Reg.DEPOT_DONE, Reg.DEPOT_ERR] [Reg.PAGE_STAT, Reg.INT_STAT, Reg.ERR_SYND, Reg.ERR_ADDR, Reg.FAULT_CNT, Reg.QUAY_LINK_ERR] []) ∧
  (∀ (s : State) (d : SdData), (s.sd.op.any fun o => o.wait == .data || o.wait == .tune) = false → NoCardLoad s → 
    Answers (.sdDataBlock d) s fun t => t = s) ∧
  (∀ (s : State) (o : SdOp), s.sd.op = some o → o.wait = .busy → o.kind = .write → o.redo = false → o.abort = false → o.auto = false → o.count ≤ o.off + o.run → o.off + o.run < 2 ^ 15 → fld s Reg.DEPOT_DONE 14 0 < o.off + o.run → NoCardLoad s → 
    Answers (.cardBusyEnd) s fun t => t.sd.op = none ∧ fld t Reg.DEPOT_CMD 7 4 = 0 ∧ fld t Reg.DEPOT_DONE 14 0 = o.off + o.run ∧ t.mem = s.mem ∧ t = { s with out := t.out, regs := t.regs, parBad := t.parBad, wins := t.wins, quay := { s.quay with msix := t.quay.msix }, kerb := { s.kerb with reports := t.kerb.reports }, fnt := { s.fnt with state := t.fnt.state, absorbed := t.fnt.absorbed, credit := t.fnt.credit, seed := t.fnt.seed, int := t.fnt.int, sw := t.fnt.sw, katBusy := t.fnt.katBusy, part := t.fnt.part, rngDead := t.fnt.rngDead }, cores := t.cores, load := t.load, autoload := t.autoload, chk := { s.chk with eccBad := t.chk.eccBad }, sd := { s.sd with op := t.sd.op, clk := t.sd.clk, retune := t.sd.retune }, mem := t.mem } ∧ OtherRegs s t [Reg.BOOT_STAT, Reg.IXM_LD_SRC, Reg.IXM_LD_ADDR_LO, Reg.IXM_LD_CMD, Reg.IXM_LD_INFO, Reg.CHECKPOINT_SRAM_ECC, Reg.DEPOT_STAT, Reg.DEPOT_CAP, Reg.DEPOT_CMD, Reg.DEPOT_DONE] [Reg.PAGE_STAT, Reg.INT_STAT, Reg.ERR_SYND, Reg.ERR_ADDR, Reg.FAULT_CNT, Reg.QUAY_LINK_ERR] []) ∧
  (∀ (s : State) (o : SdOp), s.sd.op = some o → o.wait = .busy → o.kind = .read ∨ o.kind = .write → o.redo = false → o.abort = false → o.off + o.run < o.count → NoCardLoad s → 
    Answers (.cardBusyEnd) s fun t => (t.sd.op.map fun z => (z.wait, z.off, z.run, z.got, z.fails)) = some (.resp, o.off + o.run, min 8 (o.count - (o.off + o.run)), 0, 0) ∧ t.mem = s.mem ∧ t = { s with out := t.out, regs := t.regs, parBad := t.parBad, wins := t.wins, quay := { s.quay with msix := t.quay.msix }, kerb := { s.kerb with reports := t.kerb.reports }, fnt := { s.fnt with state := t.fnt.state, absorbed := t.fnt.absorbed, credit := t.fnt.credit, seed := t.fnt.seed, int := t.fnt.int, sw := t.fnt.sw, katBusy := t.fnt.katBusy, part := t.fnt.part, rngDead := t.fnt.rngDead }, cores := t.cores, load := t.load, autoload := t.autoload, chk := { s.chk with eccBad := t.chk.eccBad }, sd := { s.sd with op := t.sd.op, clk := t.sd.clk, retune := t.sd.retune }, mem := t.mem } ∧ OtherRegs s t [Reg.BOOT_STAT, Reg.IXM_LD_SRC, Reg.IXM_LD_ADDR_LO, Reg.IXM_LD_CMD, Reg.IXM_LD_INFO, Reg.CHECKPOINT_SRAM_ECC, Reg.DEPOT_STAT, Reg.DEPOT_CAP, Reg.DEPOT_CMD, Reg.DEPOT_DONE] [Reg.PAGE_STAT, Reg.INT_STAT, Reg.ERR_SYND, Reg.ERR_ADDR, Reg.FAULT_CNT, Reg.QUAY_LINK_ERR] []) ∧
  (∀ (s : State) (o : SdOp), s.sd.op = some o → o.wait = .busy → o.abort = true → o.auto = false → o.redo = false → o.kind ≠ .image → NoCardLoad s → 
    Answers (.cardBusyEnd) s fun t => t.sd.op = none ∧ fld t Reg.DEPOT_CMD 7 4 = 13 ∧ t.mem = s.mem ∧ t = { s with out := t.out, regs := t.regs, parBad := t.parBad, wins := t.wins, quay := { s.quay with msix := t.quay.msix }, kerb := { s.kerb with reports := t.kerb.reports }, fnt := { s.fnt with state := t.fnt.state, absorbed := t.fnt.absorbed, credit := t.fnt.credit, seed := t.fnt.seed, int := t.fnt.int, sw := t.fnt.sw, katBusy := t.fnt.katBusy, part := t.fnt.part, rngDead := t.fnt.rngDead }, cores := t.cores, load := t.load, autoload := t.autoload, chk := { s.chk with eccBad := t.chk.eccBad }, sd := { s.sd with op := t.sd.op, clk := t.sd.clk, retune := t.sd.retune }, mem := t.mem } ∧ OtherRegs s t [Reg.BOOT_STAT, Reg.IXM_LD_SRC, Reg.IXM_LD_ADDR_LO, Reg.IXM_LD_CMD, Reg.IXM_LD_INFO, Reg.CHECKPOINT_SRAM_ECC, Reg.DEPOT_STAT, Reg.DEPOT_CAP, Reg.DEPOT_CMD, Reg.DEPOT_DONE] [Reg.PAGE_STAT, Reg.INT_STAT, Reg.ERR_SYND, Reg.ERR_ADDR, Reg.FAULT_CNT, Reg.QUAY_LINK_ERR] []) ∧
  (∀ (s : State) (o : SdOp), s.sd.op = some o → o.wait = .busy → o.kind = .raw → o.abort = false → o.auto = false → NoCardLoad s → 
    Answers (.cardBusyEnd) s fun t => t.sd.op = none ∧ fld t Reg.DEPOT_CMD 7 4 = 0 ∧ t.mem = s.mem ∧ t = { s with out := t.out, regs := t.regs, parBad := t.parBad, wins := t.wins, quay := { s.quay with msix := t.quay.msix }, kerb := { s.kerb with reports := t.kerb.reports }, fnt := { s.fnt with state := t.fnt.state, absorbed := t.fnt.absorbed, credit := t.fnt.credit, seed := t.fnt.seed, int := t.fnt.int, sw := t.fnt.sw, katBusy := t.fnt.katBusy, part := t.fnt.part, rngDead := t.fnt.rngDead }, cores := t.cores, load := t.load, autoload := t.autoload, chk := { s.chk with eccBad := t.chk.eccBad }, sd := { s.sd with op := t.sd.op, clk := t.sd.clk, retune := t.sd.retune }, mem := t.mem } ∧ OtherRegs s t [Reg.BOOT_STAT, Reg.IXM_LD_SRC, Reg.IXM_LD_ADDR_LO, Reg.IXM_LD_CMD, Reg.IXM_LD_INFO, Reg.CHECKPOINT_SRAM_ECC, Reg.DEPOT_STAT, Reg.DEPOT_CAP, Reg.DEPOT_CMD, Reg.DEPOT_DONE] [Reg.PAGE_STAT, Reg.INT_STAT, Reg.ERR_SYND, Reg.ERR_ADDR, Reg.FAULT_CNT, Reg.QUAY_LINK_ERR] []) ∧
  (∀ (s : State) (o : SdOp), s.sd.op = some o → o.wait = .busy → o.kind = .seg → o.step = 4 → o.redo = false → o.abort = false → o.auto = false → 1 ≤ o.off + o.run → NoCardLoad s → 
    Answers (.cardBusyEnd) s fun t => t.sd.op = none ∧ fld t Reg.DEPOT_CMD 7 4 = (if o.back = journal s { o with off := o.off + o.run, fails := 0 } then 0 else 9) ∧ t.mem = s.mem ∧ t = { s with out := t.out, regs := t.regs, parBad := t.parBad, wins := t.wins, quay := { s.quay with msix := t.quay.msix }, kerb := { s.kerb with reports := t.kerb.reports }, fnt := { s.fnt with state := t.fnt.state, absorbed := t.fnt.absorbed, credit := t.fnt.credit, seed := t.fnt.seed, int := t.fnt.int, sw := t.fnt.sw, katBusy := t.fnt.katBusy, part := t.fnt.part, rngDead := t.fnt.rngDead }, cores := t.cores, load := t.load, autoload := t.autoload, chk := { s.chk with eccBad := t.chk.eccBad }, sd := { s.sd with op := t.sd.op, clk := t.sd.clk, retune := t.sd.retune }, mem := t.mem } ∧ OtherRegs s t [Reg.BOOT_STAT, Reg.IXM_LD_SRC, Reg.IXM_LD_ADDR_LO, Reg.IXM_LD_CMD, Reg.IXM_LD_INFO, Reg.CHECKPOINT_SRAM_ECC, Reg.DEPOT_STAT, Reg.DEPOT_CAP, Reg.DEPOT_CMD, Reg.DEPOT_DONE] [Reg.PAGE_STAT, Reg.INT_STAT, Reg.ERR_SYND, Reg.ERR_ADDR, Reg.FAULT_CNT, Reg.QUAY_LINK_ERR] []) ∧
  (∀ (s : State) (o : SdOp), s.sd.op = some o → o.wait = .busy → o.auto = false → o.kind ≠ .image → NoCardLoad s → 
    Answers (.busyTimeout) s fun t => t.sd.op = none ∧ fld t Reg.DEPOT_CMD 7 4 = 5 ∧ t.mem = s.mem ∧ t = { s with out := t.out, regs := t.regs, parBad := t.parBad, wins := t.wins, quay := { s.quay with msix := t.quay.msix }, kerb := { s.kerb with reports := t.kerb.reports }, fnt := { s.fnt with state := t.fnt.state, absorbed := t.fnt.absorbed, credit := t.fnt.credit, seed := t.fnt.seed, int := t.fnt.int, sw := t.fnt.sw, katBusy := t.fnt.katBusy, part := t.fnt.part, rngDead := t.fnt.rngDead }, cores := t.cores, load := t.load, autoload := t.autoload, chk := { s.chk with eccBad := t.chk.eccBad }, sd := { s.sd with op := t.sd.op, clk := t.sd.clk }, mem := t.mem } ∧ OtherRegs s t [Reg.BOOT_STAT, Reg.IXM_LD_SRC, Reg.IXM_LD_ADDR_LO, Reg.IXM_LD_CMD, Reg.IXM_LD_INFO, Reg.CHECKPOINT_SRAM_ECC, Reg.DEPOT_STAT, Reg.DEPOT_CAP, Reg.DEPOT_CMD] [Reg.PAGE_STAT, Reg.INT_STAT, Reg.ERR_SYND, Reg.ERR_ADDR, Reg.FAULT_CNT, Reg.QUAY_LINK_ERR] []) ∧
  (∀ (s : State), (s.sd.op.any fun o => o.wait == .busy) = false → NoCardLoad s → 
    Answers (.cardBusyEnd) s fun t => t = s) ∧
  (∀ (s : State), (s.sd.op.any fun o => o.wait == .busy) = false → NoCardLoad s → 
    Answers (.busyTimeout) s fun t => t = s) ∧
  (∀ (s : State), sdReady s = true → tuned (sdMode s) = true → fld s Reg.DEPOT_CFG 11 8 ≠ 0 → 
    Answers (.retuneTimer) s fun t => t = { s with sd := { s.sd with retune := true } }) ∧
  (∀ (s : State), ¬ (sdReady s = true ∧ tuned (sdMode s) = true ∧ fld s Reg.DEPOT_CFG 11 8 ≠ 0) → 
    Answers (.retuneTimer) s fun t => t = s) ∧
  (∀ (s : State), sdPresent s = true → domOn s 23 = true → (s.sd.op.any fun o => o.auto || o.kind == .image) = false → NoCardLoad s → 
    Answers (.cardLost) s fun t => t.sd.op = none ∧ fld t Reg.DEPOT_STAT 6 0 = 0 ∧ (s.sd.op.isSome = true → fld t Reg.DEPOT_CMD 7 4 = 2) ∧ t.mem = s.mem ∧ t = { s with out := t.out, regs := t.regs, parBad := t.parBad, wins := t.wins, quay := { s.quay with msix := t.quay.msix }, kerb := { s.kerb with reports := t.kerb.reports }, fnt := { s.fnt with state := t.fnt.state, absorbed := t.fnt.absorbed, credit := t.fnt.credit, seed := t.fnt.seed, int := t.fnt.int, sw := t.fnt.sw, katBusy := t.fnt.katBusy, part := t.fnt.part, rngDead := t.fnt.rngDead }, cores := t.cores, load := t.load, autoload := t.autoload, chk := { s.chk with eccBad := t.chk.eccBad }, sd := { s.sd with op := t.sd.op, clk := t.sd.clk, timeouts := t.sd.timeouts, retune := t.sd.retune }, mem := t.mem } ∧ OtherRegs s t [Reg.BOOT_STAT, Reg.IXM_LD_SRC, Reg.IXM_LD_ADDR_LO, Reg.IXM_LD_CMD, Reg.IXM_LD_INFO, Reg.CHECKPOINT_SRAM_ECC, Reg.DEPOT_STAT, Reg.DEPOT_CAP, Reg.DEPOT_CMD] [Reg.PAGE_STAT, Reg.INT_STAT, Reg.ERR_SYND, Reg.ERR_ADDR, Reg.FAULT_CNT, Reg.QUAY_LINK_ERR] []) ∧
  (∀ (s : State), sdPresent s = false ∨ domOn s 23 = false → NoCardLoad s → 
    Answers (.cardLost) s fun t => t = s) ∧
  (∀ (s : State), sdPresent s = false → domOn s 23 = true → 
    Answers (.cardIn) s fun t => sdPresent t = true ∧ rbit t (rk 0x4C Reg.INT_STAT) 1 = true ∧ t.sd = s.sd ∧ t = { s with out := t.out, regs := t.regs, parBad := t.parBad, quay := { s.quay with msix := t.quay.msix } } ∧ OtherRegs s t [Reg.DEPOT_STAT] [Reg.INT_STAT] []) ∧
  (∀ (s : State), sdPresent s = true ∨ domOn s 23 = false → 
    Answers (.cardIn) s fun t => t = s)

/-- A Postbox command written while none runs begins: ACTIVATE resets the first class cold, EXCHANGE sends the first bytes under the protocol in force, DEACTIVATE and WARM_RESET act on the lines; without a card, without activation, with a length outside the protocol's range or in lockdown it ends at once with that RESULT, and one while BUSY is recorded. An ATR, a PPS response, characters, blocks, expired waiting times, a retried class, removal and insertion move the port on or end its command with the RESULT the rules give, and what the port does not expect leaves it as it is. Each clause names what may change beside; every other part of the state and every other register is as before. Forms whose completion it states: activate, exchange, deactivate, warmReset, atrReceive, ppsResponse, t0CharacterReceive, t1BlockReceive, cardWaitTimeout, classRetry, pbRemove, pbInsert. (R486, R487, R488, R489, R490, R491, R492, R493, R495) -/
def Obligations.PostboxEffects : Prop :=
  (∀ (s : State) (src : Src) (p : PortNo) (c : Nat) (l : List Nat), Reaches s src (pr p.val Reg.PB_CMD) → pbBusy s p.val = false → s.kerb.lockdown = false → pbPresent s p.val = true → pbActive s p.val = false → pbClasses s p.val = c :: l → c < 4 → 
    Answers (.activate src p) s fun t => port t p.val = { cmd := 1, classes := l, phase := .atr, clk := fld s (pr p.val Reg.PB_CLK) 15 0 } ∧ fld t (pr p.val Reg.PB_STAT) 3 2 = c ∧ pbActive t p.val = false ∧ t.out = .pin (if p.val = 0 then "PB0_RST" else "PB1_RST") (1) :: .pin (if p.val = 0 then "PB0_RST" else "PB1_RST") (0) :: .pin (if p.val = 0 then "PB0_CLK" else "PB1_CLK") (fld s (pr p.val Reg.PB_CLK) 15 0) :: .pin (if p.val = 0 then "PB0_IO" else "PB1_IO") (1) :: .pin (if p.val = 0 then "PB0_VCC_EN" else "PB1_VCC_EN") (1) :: .pin (if p.val = 0 then "PB0_VSEL" else "PB1_VSEL") (c) :: s.out ∧ t = { s with out := t.out, regs := t.regs, parBad := t.parBad, quay := { s.quay with msix := t.quay.msix }, pb0 := t.pb0, pb1 := t.pb1 } ∧ OtherRegs s t [Reg.PB_STAT, Reg.PB_CMD, Reg.PB_STAT_1, Reg.PB_CMD_1] [Reg.INT_STAT, Reg.ERR_SYND, Reg.ERR_ADDR] [0x4D, 0x4E, 0x4F]) ∧
  (∀ (s : State) (src : Src) (p : PortNo) (c : Nat) (l : List Nat), Reaches s src (pr p.val Reg.PB_CMD) → pbBusy s p.val = false → s.kerb.lockdown = false → pbPresent s p.val = true → pbActive s p.val = true → pbClasses s p.val = c :: l → c < 4 → 
    Answers (.activate src p) s fun t => port t p.val = { cmd := 1, classes := l, phase := .atr, clk := fld s (pr p.val Reg.PB_CLK) 15 0 } ∧ fld t (pr p.val Reg.PB_STAT) 3 2 = c ∧ pbActive t p.val = false ∧ t.out = .pin (if p.val = 0 then "PB0_RST" else "PB1_RST") (1) :: .pin (if p.val = 0 then "PB0_RST" else "PB1_RST") (0) :: .pin (if p.val = 0 then "PB0_CLK" else "PB1_CLK") (fld s (pr p.val Reg.PB_CLK) 15 0) :: .pin (if p.val = 0 then "PB0_IO" else "PB1_IO") (1) :: .pin (if p.val = 0 then "PB0_VCC_EN" else "PB1_VCC_EN") (1) :: .pin (if p.val = 0 then "PB0_VSEL" else "PB1_VSEL") (c) :: .pin (if p.val = 0 then "PB0_VSEL" else "PB1_VSEL") (0) :: .pin (if p.val = 0 then "PB0_VCC_EN" else "PB1_VCC_EN") (0) :: .pin (if p.val = 0 then "PB0_IO" else "PB1_IO") (0) :: .pin (if p.val = 0 then "PB0_CLK" else "PB1_CLK") (0) :: .pin (if p.val = 0 then "PB0_RST" else "PB1_RST") (0) :: s.out ∧ (∀ i : Fin 128, reg t (pbBuf p.val + 4 * i.val) = 0) ∧ t = { s with out := t.out, regs := t.regs, parBad := t.parBad, quay := { s.quay with msix := t.quay.msix }, pb0 := t.pb0, pb1 := t.pb1 } ∧ OtherRegs s t [Reg.PB_STAT, Reg.PB_CMD, Reg.PB_STAT_1, Reg.PB_CMD_1] [Reg.INT_STAT, Reg.ERR_SYND, Reg.ERR_ADDR] [0x4D, 0x4E, 0x4F]) ∧
  (∀ (s : State) (src : Src) (p : PortNo), Reaches s src (pr p.val Reg.PB_CMD) → pbBusy s p.val = false → s.kerb.lockdown = false → pbPresent s p.val = false → 
    Answers (.activate src p) s fun t => port t p.val = port s p.val ∧ fld t (pr p.val Reg.PB_CMD) 7 4 = 1 ∧ t = { s with out := t.out, regs := t.regs, parBad := t.parBad, quay := { s.quay with msix := t.quay.msix }, pb0 := t.pb0, pb1 := t.pb1 } ∧ OtherRegs s t [Reg.PB_STAT, Reg.PB_CMD, Reg.PB_STAT_1, Reg.PB_CMD_1] [Reg.INT_STAT, Reg.ERR_SYND, Reg.ERR_ADDR] [0x4D, 0x4E, 0x4F]) ∧
  (∀ (s : State) (src : Src) (p : PortNo), Reaches s src (pr p.val Reg.PB_CMD) → pbBusy s p.val = false → s.kerb.lockdown = false → pbActive s p.val = true → rbit s (pr p.val Reg.PB_STAT) 4 = true → 0 < (fld s (pr p.val Reg.PB_LEN) 9 0) → (fld s (pr p.val Reg.PB_LEN) 9 0) ≤ 512 → 
    Answers (.exchange src p) s fun t => (port t p.val).cmd = 2 ∧ (port t p.val).phase = .t1 ∧ (port t p.val).lastLen = ((txBytes s p.val).take (min 254 (port s p.val).ifsc)).length ∧ t.out = .card p.val (t1Block (port s p.val) (b2n (port s p.val).ns * 64 + b2n (decide (((txBytes s p.val).take (min 254 (port s p.val).ifsc)).length < (txBytes s p.val).length)) * 32) ((txBytes s p.val).take (min 254 (port s p.val).ifsc))) :: s.out ∧ t = { s with out := t.out, regs := t.regs, parBad := t.parBad, quay := { s.quay with msix := t.quay.msix }, pb0 := { s.pb0 with phase := t.pb0.phase, cmd := t.pb0.cmd, sent := t.pb0.sent, rx := t.pb0.rx, repAt := t.pb0.repAt, rep := t.pb0.rep, lastLen := t.pb0.lastLen, last := t.pb0.last, rblocks := t.pb0.rblocks, resyncs := t.pb0.resyncs }, pb1 := { s.pb1 with phase := t.pb1.phase, cmd := t.pb1.cmd, sent := t.pb1.sent, rx := t.pb1.rx, repAt := t.pb1.repAt, rep := t.pb1.rep, lastLen := t.pb1.lastLen, last := t.pb1.last, rblocks := t.pb1.rblocks, resyncs := t.pb1.resyncs } } ∧ OtherRegs s t [Reg.PB_CMD, Reg.PB_CMD_1] [Reg.INT_STAT, Reg.ERR_SYND, Reg.ERR_ADDR] []) ∧
  (∀ (s : State) (src : Src) (p : PortNo), Reaches s src (pr p.val Reg.PB_CMD) → pbBusy s p.val = false → s.kerb.lockdown = false → pbActive s p.val = true → rbit s (pr p.val Reg.PB_STAT) 4 = false → 5 ≤ (fld s (pr p.val Reg.PB_LEN) 9 0) → (fld s (pr p.val Reg.PB_LEN) 9 0) ≤ 260 → 
    Answers (.exchange src p) s fun t => (port t p.val).cmd = 2 ∧ (port t p.val).phase = .proc ∧ (port t p.val).sent = 5 ∧ t.out = .card p.val ((txBytes s p.val).take 5) :: s.out ∧ t = { s with out := t.out, regs := t.regs, parBad := t.parBad, quay := { s.quay with msix := t.quay.msix }, pb0 := { s.pb0 with phase := t.pb0.phase, cmd := t.pb0.cmd, sent := t.pb0.sent, rx := t.pb0.rx, repAt := t.pb0.repAt, rep := t.pb0.rep, lastLen := t.pb0.lastLen, last := t.pb0.last, rblocks := t.pb0.rblocks, resyncs := t.pb0.resyncs }, pb1 := { s.pb1 with phase := t.pb1.phase, cmd := t.pb1.cmd, sent := t.pb1.sent, rx := t.pb1.rx, repAt := t.pb1.repAt, rep := t.pb1.rep, lastLen := t.pb1.lastLen, last := t.pb1.last, rblocks := t.pb1.rblocks, resyncs := t.pb1.resyncs } } ∧ OtherRegs s t [Reg.PB_CMD, Reg.PB_CMD_1] [Reg.INT_STAT, Reg.ERR_SYND, Reg.ERR_ADDR] []) ∧
  (∀ (s : State) (src : Src) (p : PortNo), Reaches s src (pr p.val Reg.PB_CMD) → pbBusy s p.val = false → s.kerb.lockdown = false → pbActive s p.val = true → (if rbit s (pr p.val Reg.PB_STAT) 4 then (fld s (pr p.val Reg.PB_LEN) 9 0) = 0 ∨ 512 < (fld s (pr p.val Reg.PB_LEN) 9 0) else (fld s (pr p.val Reg.PB_LEN) 9 0) < 5 ∨ 260 < (fld s (pr p.val Reg.PB_LEN) 9 0)) → 
    Answers (.exchange src p) s fun t => port t p.val = port s p.val ∧ fld t (pr p.val Reg.PB_CMD) 7 4 = 9 ∧ t = { s with out := t.out, regs := t.regs, parBad := t.parBad, quay := { s.quay with msix := t.quay.msix }, pb0 := { s.pb0 with phase := t.pb0.phase, cmd := t.pb0.cmd, sent := t.pb0.sent, rx := t.pb0.rx, repAt := t.pb0.repAt, rep := t.pb0.rep, lastLen := t.pb0.lastLen, last := t.pb0.last, rblocks := t.pb0.rblocks, resyncs := t.pb0.resyncs }, pb1 := { s.pb1 with phase := t.pb1.phase, cmd := t.pb1.cmd, sent := t.pb1.sent, rx := t.pb1.rx, repAt := t.pb1.repAt, rep := t.pb1.rep, lastLen := t.pb1.lastLen, last := t.pb1.last, rblocks := t.pb1.rblocks, resyncs := t.pb1.resyncs } } ∧ OtherRegs s t [Reg.PB_CMD, Reg.PB_CMD_1] [Reg.INT_STAT, Reg.ERR_SYND, Reg.ERR_ADDR] []) ∧
  (∀ (s : State) (src : Src) (p : PortNo), Reaches s src (pr p.val Reg.PB_CMD) → pbBusy s p.val = false → s.kerb.lockdown = false → pbActive s p.val = false → 
    Answers (.exchange src p) s fun t => port t p.val = port s p.val ∧ fld t (pr p.val Reg.PB_CMD) 7 4 = 10 ∧ t = { s with out := t.out, regs := t.regs, parBad := t.parBad, quay := { s.quay with msix := t.quay.msix }, pb0 := { s.pb0 with phase := t.pb0.phase, cmd := t.pb0.cmd, sent := t.pb0.sent, rx := t.pb0.rx, repAt := t.pb0.repAt, rep := t.pb0.rep, lastLen := t.pb0.lastLen, last := t.pb0.last, rblocks := t.pb0.rblocks, resyncs := t.pb0.resyncs }, pb1 := { s.pb1 with phase := t.pb1.phase, cmd := t.pb1.cmd, sent := t.pb1.sent, rx := t.pb1.rx, repAt := t.pb1.repAt, rep := t.pb1.rep, lastLen := t.pb1.lastLen, last := t.pb1.last, rblocks := t.pb1.rblocks, resyncs := t.pb1.resyncs } } ∧ OtherRegs s t [Reg.PB_CMD, Reg.PB_CMD_1] [Reg.INT_STAT, Reg.ERR_SYND, Reg.ERR_ADDR] []) ∧
  (∀ (s : State) (src : Src) (p : PortNo), Reaches s src (pr p.val Reg.PB_CMD) → pbBusy s p.val = false → 
    Answers (.deactivate src p) s fun t => fld t (pr p.val Reg.PB_STAT) 31 1 = 0 ∧ (∀ i : Fin 128, reg t (pbBuf p.val + 4 * i.val) = 0) ∧ (.pin (if p.val = 0 then "PB0_VSEL" else "PB1_VSEL") (0) :: .pin (if p.val = 0 then "PB0_VCC_EN" else "PB1_VCC_EN") (0) :: .pin (if p.val = 0 then "PB0_IO" else "PB1_IO") (0) :: .pin (if p.val = 0 then "PB0_CLK" else "PB1_CLK") (0) :: .pin (if p.val = 0 then "PB0_RST" else "PB1_RST") (0) :: s.out) <:+ t.out ∧ (port t p.val).phase = .idle ∧ fld t (pr p.val Reg.PB_CMD) 7 4 = 0 ∧ t = { s with out := t.out, regs := t.regs, parBad := t.parBad, quay := { s.quay with msix := t.quay.msix }, pb0 := { s.pb0 with phase := t.pb0.phase, clk := t.pb0.clk, noPps := t.pb0.noPps, atr := t.pb0.atr, ifsc := t.pb0.ifsc, crc := t.pb0.crc, sent := t.pb0.sent, rx := t.pb0.rx, sw1 := t.pb0.sw1, repAt := t.pb0.repAt, rep := t.pb0.rep, ns := t.pb0.ns, nr := t.pb0.nr, lastLen := t.pb0.lastLen, last := t.pb0.last, rblocks := t.pb0.rblocks, resyncs := t.pb0.resyncs }, pb1 := { s.pb1 with phase := t.pb1.phase, clk := t.pb1.clk, noPps := t.pb1.noPps, atr := t.pb1.atr, ifsc := t.pb1.ifsc, crc := t.pb1.crc, sent := t.pb1.sent, rx := t.pb1.rx, sw1 := t.pb1.sw1, repAt := t.pb1.repAt, rep := t.pb1.rep, ns := t.pb1.ns, nr := t.pb1.nr, lastLen := t.pb1.lastLen, last := t.pb1.last, rblocks := t.pb1.rblocks, resyncs := t.pb1.resyncs } } ∧ OtherRegs s t [Reg.PB_STAT, Reg.PB_CMD, Reg.PB_STAT_1, Reg.PB_CMD_1] [Reg.INT_STAT, Reg.ERR_SYND, Reg.ERR_ADDR] [0x4D, 0x4E, 0x4F]) ∧
  (∀ (s : State) (src : Src) (p : PortNo), Reaches s src (pr p.val Reg.PB_CMD) → pbBusy s p.val = false → s.kerb.lockdown = false → pbActive s p.val = true → 
    Answers (.warmReset src p) s fun t => port t p.val = { cmd := 4, phase := .atr, clk := (port s p.val).clk } ∧ fld t (pr p.val Reg.PB_STAT) 31 4 = 0 ∧ pbActive t p.val = true ∧ t.out = .pin (if p.val = 0 then "PB0_RST" else "PB1_RST") (1) :: .pin (if p.val = 0 then "PB0_RST" else "PB1_RST") (0) :: s.out ∧ t = { s with out := t.out, regs := t.regs, parBad := t.parBad, quay := { s.quay with msix := t.quay.msix }, pb0 := { s.pb0 with phase := t.pb0.phase, cmd := t.pb0.cmd, classes := t.pb0.classes, noPps := t.pb0.noPps, atr := t.pb0.atr, ifsc := t.pb0.ifsc, crc := t.pb0.crc, sent := t.pb0.sent, rx := t.pb0.rx, sw1 := t.pb0.sw1, repAt := t.pb0.repAt, rep := t.pb0.rep, ns := t.pb0.ns, nr := t.pb0.nr, lastLen := t.pb0.lastLen, last := t.pb0.last, rblocks := t.pb0.rblocks, resyncs := t.pb0.resyncs }, pb1 := { s.pb1 with phase := t.pb1.phase, cmd := t.pb1.cmd, classes := t.pb1.classes, noPps := t.pb1.noPps, atr := t.pb1.atr, ifsc := t.pb1.ifsc, crc := t.pb1.crc, sent := t.pb1.sent, rx := t.pb1.rx, sw1 := t.pb1.sw1, repAt := t.pb1.repAt, rep := t.pb1.rep, ns := t.pb1.ns, nr := t.pb1.nr, lastLen := t.pb1.lastLen, last := t.pb1.last, rblocks := t.pb1.rblocks, resyncs := t.pb1.resyncs } } ∧ OtherRegs s t [Reg.PB_STAT, Reg.PB_CMD, Reg.PB_STAT_1, Reg.PB_CMD_1] [Reg.INT_STAT, Reg.ERR_SYND, Reg.ERR_ADDR] []) ∧
  (∀ (s : State) (src : Src) (p : PortNo), Reaches s src (pr p.val Reg.PB_CMD) → pbBusy s p.val = false → s.kerb.lockdown = false → pbActive s p.val = false → 
    Answers (.warmReset src p) s fun t => port t p.val = port s p.val ∧ fld t (pr p.val Reg.PB_CMD) 7 4 = 10 ∧ t = { s with out := t.out, regs := t.regs, parBad := t.parBad, quay := { s.quay with msix := t.quay.msix }, pb0 := { s.pb0 with phase := t.pb0.phase, cmd := t.pb0.cmd, classes := t.pb0.classes, noPps := t.pb0.noPps, atr := t.pb0.atr, ifsc := t.pb0.ifsc, crc := t.pb0.crc, sent := t.pb0.sent, rx := t.pb0.rx, sw1 := t.pb0.sw1, repAt := t.pb0.repAt, rep := t.pb0.rep, ns := t.pb0.ns, nr := t.pb0.nr, lastLen := t.pb0.lastLen, last := t.pb0.last, rblocks := t.pb0.rblocks, resyncs := t.pb0.resyncs }, pb1 := { s.pb1 with phase := t.pb1.phase, cmd := t.pb1.cmd, classes := t.pb1.classes, noPps := t.pb1.noPps, atr := t.pb1.atr, ifsc := t.pb1.ifsc, crc := t.pb1.crc, sent := t.pb1.sent, rx := t.pb1.rx, sw1 := t.pb1.sw1, repAt := t.pb1.repAt, rep := t.pb1.rep, ns := t.pb1.ns, nr := t.pb1.nr, lastLen := t.pb1.lastLen, last := t.pb1.last, rblocks := t.pb1.rblocks, resyncs := t.pb1.resyncs } } ∧ OtherRegs s t [Reg.PB_STAT, Reg.PB_CMD, Reg.PB_STAT_1, Reg.PB_CMD_1] [Reg.INT_STAT, Reg.ERR_SYND, Reg.ERR_ADDR] []) ∧
  (∀ (s : State) (src : Src) (p : PortNo), Reaches s src (pr p.val Reg.PB_CMD) → pbBusy s p.val = true → rbit s (rk 0x4D Reg.ERR_SYND) 23 = false → 
    Answers (.activate src p) s fun t => fld t (rk 0x4D Reg.ERR_SYND) 31 24 = 0x10 ∧ fld t (rk 0x4D Reg.ERR_SYND) 15 0 = p.val ∧ reg t (rk 0x4D Reg.ERR_ADDR) = 1 ∧ port t p.val = port s p.val ∧ t = { s with out := t.out, regs := t.regs, parBad := t.parBad, quay := { s.quay with msix := t.quay.msix }, pb0 := t.pb0, pb1 := t.pb1 } ∧ OtherRegs s t [Reg.PB_STAT, Reg.PB_CMD, Reg.PB_STAT_1, Reg.PB_CMD_1] [Reg.INT_STAT, Reg.ERR_SYND, Reg.ERR_ADDR] [0x4D, 0x4E, 0x4F]) ∧
  (∀ (s : State) (src : Src) (p : PortNo), Reaches s src (pr p.val Reg.PB_CMD) → pbBusy s p.val = false → s.kerb.lockdown = true → 
    Answers (.activate src p) s fun t => fld t (pr p.val Reg.PB_CMD) 7 4 = 11 ∧ port t p.val = port s p.val ∧ t = { s with out := t.out, regs := t.regs, parBad := t.parBad, quay := { s.quay with msix := t.quay.msix }, pb0 := t.pb0, pb1 := t.pb1 } ∧ OtherRegs s t [Reg.PB_STAT, Reg.PB_CMD, Reg.PB_STAT_1, Reg.PB_CMD_1] [Reg.INT_STAT, Reg.ERR_SYND, Reg.ERR_ADDR] [0x4D, 0x4E, 0x4F]) ∧
  (∀ (s : State) (src : Src) (p : PortNo), Reaches s src (pr p.val Reg.PB_CMD) → pbBusy s p.val = true → rbit s (rk 0x4D Reg.ERR_SYND) 23 = false → 
    Answers (.exchange src p) s fun t => fld t (rk 0x4D Reg.ERR_SYND) 31 24 = 0x10 ∧ fld t (rk 0x4D Reg.ERR_SYND) 15 0 = p.val ∧ reg t (rk 0x4D Reg.ERR_ADDR) = 2 ∧ port t p.val = port s p.val ∧ t = { s with out := t.out, regs := t.regs, parBad := t.parBad, quay := { s.quay with msix := t.quay.msix }, pb0 := { s.pb0 with phase := t.pb0.phase, cmd := t.pb0.cmd, sent := t.pb0.sent, rx := t.pb0.rx, repAt := t.pb0.repAt, rep := t.pb0.rep, lastLen := t.pb0.lastLen, last := t.pb0.last, rblocks := t.pb0.rblocks, resyncs := t.pb0.resyncs }, pb1 := { s.pb1 with phase := t.pb1.phase, cmd := t.pb1.cmd, sent := t.pb1.sent, rx := t.pb1.rx, repAt := t.pb1.repAt, rep := t.pb1.rep, lastLen := t.pb1.lastLen, last := t.pb1.last, rblocks := t.pb1.rblocks, resyncs := t.pb1.resyncs } } ∧ OtherRegs s t [Reg.PB_CMD, Reg.PB_CMD_1] [Reg.INT_STAT, Reg.ERR_SYND, Reg.ERR_ADDR] []) ∧
  (∀ (s : State) (src : Src) (p : PortNo), Reaches s src (pr p.val Reg.PB_CMD) → pbBusy s p.val = false → s.kerb.lockdown = true → 
    Answers (.exchange src p) s fun t => fld t (pr p.val Reg.PB_CMD) 7 4 = 11 ∧ port t p.val = port s p.val ∧ t = { s with out := t.out, regs := t.regs, parBad := t.parBad, quay := { s.quay with msix := t.quay.msix }, pb0 := { s.pb0 with phase := t.pb0.phase, cmd := t.pb0.cmd, sent := t.pb0.sent, rx := t.pb0.rx, repAt := t.pb0.repAt, rep := t.pb0.rep, lastLen := t.pb0.lastLen, last := t.pb0.last, rblocks := t.pb0.rblocks, resyncs := t.pb0.resyncs }, pb1 := { s.pb1 with phase := t.pb1.phase, cmd := t.pb1.cmd, sent := t.pb1.sent, rx := t.pb1.rx, repAt := t.pb1.repAt, rep := t.pb1.rep, lastLen := t.pb1.lastLen, last := t.pb1.last, rblocks := t.pb1.rblocks, resyncs := t.pb1.resyncs } } ∧ OtherRegs s t [Reg.PB_CMD, Reg.PB_CMD_1] [Reg.INT_STAT, Reg.ERR_SYND, Reg.ERR_ADDR] []) ∧
  (∀ (s : State) (src : Src) (p : PortNo), Reaches s src (pr p.val Reg.PB_CMD) → pbBusy s p.val = true → rbit s (rk 0x4D Reg.ERR_SYND) 23 = false → 
    Answers (.deactivate src p) s fun t => fld t (rk 0x4D Reg.ERR_SYND) 31 24 = 0x10 ∧ fld t (rk 0x4D Reg.ERR_SYND) 15 0 = p.val ∧ reg t (rk 0x4D Reg.ERR_ADDR) = 3 ∧ port t p.val = port s p.val ∧ t = { s with out := t.out, regs := t.regs, parBad := t.parBad, quay := { s.quay with msix := t.quay.msix }, pb0 := { s.pb0 with phase := t.pb0.phase, clk := t.pb0.clk, noPps := t.pb0.noPps, atr := t.pb0.atr, ifsc := t.pb0.ifsc, crc := t.pb0.crc, sent := t.pb0.sent, rx := t.pb0.rx, sw1 := t.pb0.sw1, repAt := t.pb0.repAt, rep := t.pb0.rep, ns := t.pb0.ns, nr := t.pb0.nr, lastLen := t.pb0.lastLen, last := t.pb0.last, rblocks := t.pb0.rblocks, resyncs := t.pb0.resyncs }, pb1 := { s.pb1 with phase := t.pb1.phase, clk := t.pb1.clk, noPps := t.pb1.noPps, atr := t.pb1.atr, ifsc := t.pb1.ifsc, crc := t.pb1.crc, sent := t.pb1.sent, rx := t.pb1.rx, sw1 := t.pb1.sw1, repAt := t.pb1.repAt, rep := t.pb1.rep, ns := t.pb1.ns, nr := t.pb1.nr, lastLen := t.pb1.lastLen, last := t.pb1.last, rblocks := t.pb1.rblocks, resyncs := t.pb1.resyncs } } ∧ OtherRegs s t [Reg.PB_STAT, Reg.PB_CMD, Reg.PB_STAT_1, Reg.PB_CMD_1] [Reg.INT_STAT, Reg.ERR_SYND, Reg.ERR_ADDR] [0x4D, 0x4E, 0x4F]) ∧
  (∀ (s : State) (src : Src) (p : PortNo), Reaches s src (pr p.val Reg.PB_CMD) → pbBusy s p.val = true → rbit s (rk 0x4D Reg.ERR_SYND) 23 = false → 
    Answers (.warmReset src p) s fun t => fld t (rk 0x4D Reg.ERR_SYND) 31 24 = 0x10 ∧ fld t (rk 0x4D Reg.ERR_SYND) 15 0 = p.val ∧ reg t (rk 0x4D Reg.ERR_ADDR) = 4 ∧ port t p.val = port s p.val ∧ t = { s with out := t.out, regs := t.regs, parBad := t.parBad, quay := { s.quay with msix := t.quay.msix }, pb0 := { s.pb0 with phase := t.pb0.phase, cmd := t.pb0.cmd, classes := t.pb0.classes, noPps := t.pb0.noPps, atr := t.pb0.atr, ifsc := t.pb0.ifsc, crc := t.pb0.crc, sent := t.pb0.sent, rx := t.pb0.rx, sw1 := t.pb0.sw1, repAt := t.pb0.repAt, rep := t.pb0.rep, ns := t.pb0.ns, nr := t.pb0.nr, lastLen := t.pb0.lastLen, last := t.pb0.last, rblocks := t.pb0.rblocks, resyncs := t.pb0.resyncs }, pb1 := { s.pb1 with phase := t.pb1.phase, cmd := t.pb1.cmd, classes := t.pb1.classes, noPps := t.pb1.noPps, atr := t.pb1.atr, ifsc := t.pb1.ifsc, crc := t.pb1.crc, sent := t.pb1.sent, rx := t.pb1.rx, sw1 := t.pb1.sw1, repAt := t.pb1.repAt, rep := t.pb1.rep, ns := t.pb1.ns, nr := t.pb1.nr, lastLen := t.pb1.lastLen, last := t.pb1.last, rblocks := t.pb1.rblocks, resyncs := t.pb1.resyncs } } ∧ OtherRegs s t [Reg.PB_STAT, Reg.PB_CMD, Reg.PB_STAT_1, Reg.PB_CMD_1] [Reg.INT_STAT, Reg.ERR_SYND, Reg.ERR_ADDR] []) ∧
  (∀ (s : State) (src : Src) (p : PortNo), Reaches s src (pr p.val Reg.PB_CMD) → pbBusy s p.val = false → s.kerb.lockdown = true → 
    Answers (.warmReset src p) s fun t => fld t (pr p.val Reg.PB_CMD) 7 4 = 11 ∧ port t p.val = port s p.val ∧ t = { s with out := t.out, regs := t.regs, parBad := t.parBad, quay := { s.quay with msix := t.quay.msix }, pb0 := { s.pb0 with phase := t.pb0.phase, cmd := t.pb0.cmd, classes := t.pb0.classes, noPps := t.pb0.noPps, atr := t.pb0.atr, ifsc := t.pb0.ifsc, crc := t.pb0.crc, sent := t.pb0.sent, rx := t.pb0.rx, sw1 := t.pb0.sw1, repAt := t.pb0.repAt, rep := t.pb0.rep, ns := t.pb0.ns, nr := t.pb0.nr, lastLen := t.pb0.lastLen, last := t.pb0.last, rblocks := t.pb0.rblocks, resyncs := t.pb0.resyncs }, pb1 := { s.pb1 with phase := t.pb1.phase, cmd := t.pb1.cmd, classes := t.pb1.classes, noPps := t.pb1.noPps, atr := t.pb1.atr, ifsc := t.pb1.ifsc, crc := t.pb1.crc, sent := t.pb1.sent, rx := t.pb1.rx, sw1 := t.pb1.sw1, repAt := t.pb1.repAt, rep := t.pb1.rep, ns := t.pb1.ns, nr := t.pb1.nr, lastLen := t.pb1.lastLen, last := t.pb1.last, rblocks := t.pb1.rblocks, resyncs := t.pb1.resyncs } } ∧ OtherRegs s t [Reg.PB_STAT, Reg.PB_CMD, Reg.PB_STAT_1, Reg.PB_CMD_1] [Reg.INT_STAT, Reg.ERR_SYND, Reg.ERR_ADDR] []) ∧
  (∀ (s : State) (p : PortNo) (b : Bytes) (x : Nat), (port s p.val).phase = .atr → tsOk b = true → ((atrClasses ((atrParse (b.take 33)).1)).any fun m => !m.testBit (3 - fld s (pr p.val Reg.PB_STAT) 3 2)) = false → ((atrParse (b.take 33)).2).length = byteAt b 1 % 16 + b2n (atrNeedsTck ((atrParse (b.take 33)).1)) → (atrNeedsTck ((atrParse (b.take 33)).1) = true → tckOk (b.take 33) = true) → (((atrParse (b.take 33)).1).drop 1).head?.bind (·.ta) = none → (if ((atrOffers ((atrParse (b.take 33)).1)).filter fun x => x == 0 || x == 1).contains (fld s (pr p.val Reg.PB_CFG) 5 5) then some (fld s (pr p.val Reg.PB_CFG) 5 5) else ((atrOffers ((atrParse (b.take 33)).1)).filter fun x => x == 0 || x == 1).head?) = some x → x = 0 → (rbit s (pr p.val Reg.PB_CFG) 4 && !(port s p.val).noPps) = false → 
    Answers (.atrReceive p b) s fun t => fld t (pr p.val Reg.PB_CMD) 7 4 = 0 ∧ pbActive t p.val = true ∧ (port t p.val).phase = .idle ∧ (port t p.val).cmd = 0 ∧ bufGet t (pbBuf p.val) 0 (b.take 33).length = (b.take 33) ∧ fld t (pr p.val Reg.PB_LEN) 25 16 = (b.take 33).length ∧ rbit t (pr p.val Reg.PB_STAT) 4 = false ∧ fld t (pr p.val Reg.PB_STAT) 11 8 = 1 ∧ fld t (pr p.val Reg.PB_STAT) 15 12 = 1 ∧ (.pin (if p.val = 0 then "PB0_CLK" else "PB1_CLK") (min (fld s (pr p.val Reg.PB_CLK) 31 16) (fiCap (1))) :: s.out) <:+ t.out ∧ t = { s with out := t.out, regs := t.regs, parBad := t.parBad, wins := t.wins, quay := { s.quay with msix := t.quay.msix }, kerb := { s.kerb with reports := t.kerb.reports }, fnt := { s.fnt with state := t.fnt.state, absorbed := t.fnt.absorbed, credit := t.fnt.credit, seed := t.fnt.seed, int := t.fnt.int, sw := t.fnt.sw, katBusy := t.fnt.katBusy, part := t.fnt.part, rngDead := t.fnt.rngDead }, pb0 := t.pb0, pb1 := t.pb1 } ∧ OtherRegs s t [Reg.PB_STAT, Reg.PB_CMD, Reg.PB_LEN, Reg.PB_STAT_1, Reg.PB_CMD_1, Reg.PB_LEN_1] [Reg.PAGE_STAT, Reg.INT_STAT, Reg.FAULT_CNT] [0x4D, 0x4E, 0x4F]) ∧
  (∀ (s : State) (p : PortNo) (b : Bytes) (x : Nat), (port s p.val).phase = .atr → tsOk b = true → ((atrClasses ((atrParse (b.take 33)).1)).any fun m => !m.testBit (3 - fld s (pr p.val Reg.PB_STAT) 3 2)) = false → ((atrParse (b.take 33)).2).length = byteAt b 1 % 16 + b2n (atrNeedsTck ((atrParse (b.take 33)).1)) → (atrNeedsTck ((atrParse (b.take 33)).1) = true → tckOk (b.take 33) = true) → (((atrParse (b.take 33)).1).drop 1).head?.bind (·.ta) = none → (if ((atrOffers ((atrParse (b.take 33)).1)).filter fun x => x == 0 || x == 1).contains (fld s (pr p.val Reg.PB_CFG) 5 5) then some (fld s (pr p.val Reg.PB_CFG) 5 5) else ((atrOffers ((atrParse (b.take 33)).1)).filter fun x => x == 0 || x == 1).head?) = some x → x = 1 → (rbit s (pr p.val Reg.PB_CFG) 4 && !(port s p.val).noPps) = false → 
    Answers (.atrReceive p b) s fun t => rbit t (pr p.val Reg.PB_STAT) 4 = true ∧ (port t p.val).phase = .ifs ∧ (port t p.val).cmd = (port s p.val).cmd ∧ (port t p.val).ifsc = ((atrT1 ((atrParse (b.take 33)).1)).bind (·.ta)).getD 32 ∧ t.out = .card p.val (t1Block ({ port s p.val with crc := (((atrT1 ((atrParse (b.take 33)).1)).bind (·.tc)).getD 0) % 2 == 1 } : PbPort) 0xC1 [254]) :: s.out ∧ t = { s with out := t.out, regs := t.regs, parBad := t.parBad, wins := t.wins, quay := { s.quay with msix := t.quay.msix }, kerb := { s.kerb with reports := t.kerb.reports }, fnt := { s.fnt with state := t.fnt.state, absorbed := t.fnt.absorbed, credit := t.fnt.credit, seed := t.fnt.seed, int := t.fnt.int, sw := t.fnt.sw, katBusy := t.fnt.katBusy, part := t.fnt.part, rngDead := t.fnt.rngDead }, pb0 := t.pb0, pb1 := t.pb1 } ∧ OtherRegs s t [Reg.PB_STAT, Reg.PB_CMD, Reg.PB_LEN, Reg.PB_STAT_1, Reg.PB_CMD_1, Reg.PB_LEN_1] [Reg.PAGE_STAT, Reg.INT_STAT, Reg.FAULT_CNT] [0x4D, 0x4E, 0x4F]) ∧
  (∀ (s : State) (p : PortNo) (b : Bytes) (x : Nat), (port s p.val).phase = .atr → tsOk b = true → ((atrClasses ((atrParse (b.take 33)).1)).any fun m => !m.testBit (3 - fld s (pr p.val Reg.PB_STAT) 3 2)) = false → ((atrParse (b.take 33)).2).length = byteAt b 1 % 16 + b2n (atrNeedsTck ((atrParse (b.take 33)).1)) → (atrNeedsTck ((atrParse (b.take 33)).1) = true → tckOk (b.take 33) = true) → (((atrParse (b.take 33)).1).drop 1).head?.bind (·.ta) = none → (if ((atrOffers ((atrParse (b.take 33)).1)).filter fun x => x == 0 || x == 1).contains (fld s (pr p.val Reg.PB_CFG) 5 5) then some (fld s (pr p.val Reg.PB_CFG) 5 5) else ((atrOffers ((atrParse (b.take 33)).1)).filter fun x => x == 0 || x == 1).head?) = some x → (rbit s (pr p.val Reg.PB_CFG) 4 && !(port s p.val).noPps) = true → 
    Answers (.atrReceive p b) s fun t => (port t p.val).phase = .pps ∧ (port t p.val).last = ppsRequest x ((((atrParse (b.take 33)).1).head?.bind (·.ta)).getD 0x11) ∧ t.out = .card p.val (ppsRequest x ((((atrParse (b.take 33)).1).head?.bind (·.ta)).getD 0x11)) :: s.out ∧ t = { s with out := t.out, regs := t.regs, parBad := t.parBad, wins := t.wins, quay := { s.quay with msix := t.quay.msix }, kerb := { s.kerb with reports := t.kerb.reports }, fnt := { s.fnt with state := t.fnt.state, absorbed := t.fnt.absorbed, credit := t.fnt.credit, seed := t.fnt.seed, int := t.fnt.int, sw := t.fnt.sw, katBusy := t.fnt.katBusy, part := t.fnt.part, rngDead := t.fnt.rngDead }, pb0 := t.pb0, pb1 := t.pb1 } ∧ OtherRegs s t [Reg.PB_STAT, Reg.PB_CMD, Reg.PB_LEN, Reg.PB_STAT_1, Reg.PB_CMD_1, Reg.PB_LEN_1] [Reg.PAGE_STAT, Reg.INT_STAT, Reg.FAULT_CNT] [0x4D, 0x4E, 0x4F]) ∧
  (∀ (s : State) (p : PortNo) (b : Bytes) (a : Nat), (port s p.val).phase = .atr → tsOk b = true → ((atrClasses ((atrParse (b.take 33)).1)).any fun m => !m.testBit (3 - fld s (pr p.val Reg.PB_STAT) 3 2)) = false → ((atrParse (b.take 33)).2).length = byteAt b 1 % 16 + b2n (atrNeedsTck ((atrParse (b.take 33)).1)) → (atrNeedsTck ((atrParse (b.take 33)).1) = true → tckOk (b.take 33) = true) → ((atrOffers ((atrParse (b.take 33)).1)).any fun x => x == 0 || x == 1) = true → (((atrParse (b.take 33)).1).drop 1).head?.bind (·.ta) = some a → a % 16 = 0 → 
    Answers (.atrReceive p b) s fun t => fld t (pr p.val Reg.PB_CMD) 7 4 = 0 ∧ pbActive t p.val = true ∧ (port t p.val).phase = .idle ∧ (port t p.val).cmd = 0 ∧ bufGet t (pbBuf p.val) 0 (b.take 33).length = (b.take 33) ∧ fld t (pr p.val Reg.PB_LEN) 25 16 = (b.take 33).length ∧ rbit t (pr p.val Reg.PB_STAT) 4 = false ∧ fld t (pr p.val Reg.PB_STAT) 11 8 = (if a.testBit 4 then 1 else ((((atrParse (b.take 33)).1).head?.bind (·.ta)).getD 0x11) / 16 % 16) ∧ fld t (pr p.val Reg.PB_STAT) 15 12 = (if a.testBit 4 then 1 else ((((atrParse (b.take 33)).1).head?.bind (·.ta)).getD 0x11) % 16) ∧ (.pin (if p.val = 0 then "PB0_CLK" else "PB1_CLK") (min (fld s (pr p.val Reg.PB_CLK) 31 16) (fiCap ((if a.testBit 4 then 1 else ((((atrParse (b.take 33)).1).head?.bind (·.ta)).getD 0x11) / 16 % 16)))) :: s.out) <:+ t.out ∧ t = { s with out := t.out, regs := t.regs, parBad := t.parBad, wins := t.wins, quay := { s.quay with msix := t.quay.msix }, kerb := { s.kerb with reports := t.kerb.reports }, fnt := { s.fnt with state := t.fnt.state, absorbed := t.fnt.absorbed, credit := t.fnt.credit, seed := t.fnt.seed, int := t.fnt.int, sw := t.fnt.sw, katBusy := t.fnt.katBusy, part := t.fnt.part, rngDead := t.fnt.rngDead }, pb0 := t.pb0, pb1 := t.pb1 } ∧ OtherRegs s t [Reg.PB_STAT, Reg.PB_CMD, Reg.PB_LEN, Reg.PB_STAT_1, Reg.PB_CMD_1, Reg.PB_LEN_1] [Reg.PAGE_STAT, Reg.INT_STAT, Reg.FAULT_CNT] [0x4D, 0x4E, 0x4F]) ∧
  (∀ (s : State) (p : PortNo) (b : Bytes) (a : Nat), (port s p.val).phase = .atr → tsOk b = true → ((atrClasses ((atrParse (b.take 33)).1)).any fun m => !m.testBit (3 - fld s (pr p.val Reg.PB_STAT) 3 2)) = false → ((atrParse (b.take 33)).2).length = byteAt b 1 % 16 + b2n (atrNeedsTck ((atrParse (b.take 33)).1)) → (atrNeedsTck ((atrParse (b.take 33)).1) = true → tckOk (b.take 33) = true) → ((atrOffers ((atrParse (b.take 33)).1)).any fun x => x == 0 || x == 1) = true → (((atrParse (b.take 33)).1).drop 1).head?.bind (·.ta) = some a → a % 16 = 1 → 
    Answers (.atrReceive p b) s fun t => rbit t (pr p.val Reg.PB_STAT) 4 = true ∧ fld t (pr p.val Reg.PB_STAT) 11 8 = (if a.testBit 4 then 1 else ((((atrParse (b.take 33)).1).head?.bind (·.ta)).getD 0x11) / 16 % 16) ∧ fld t (pr p.val Reg.PB_STAT) 15 12 = (if a.testBit 4 then 1 else ((((atrParse (b.take 33)).1).head?.bind (·.ta)).getD 0x11) % 16) ∧ (port t p.val).phase = .ifs ∧ (port t p.val).cmd = (port s p.val).cmd ∧ (port t p.val).ifsc = ((atrT1 ((atrParse (b.take 33)).1)).bind (·.ta)).getD 32 ∧ t.out = .card p.val (t1Block ({ port s p.val with crc := (((atrT1 ((atrParse (b.take 33)).1)).bind (·.tc)).getD 0) % 2 == 1 } : PbPort) 0xC1 [254]) :: s.out ∧ t = { s with out := t.out, regs := t.regs, parBad := t.parBad, wins := t.wins, quay := { s.quay with msix := t.quay.msix }, kerb := { s.kerb with reports := t.kerb.reports }, fnt := { s.fnt with state := t.fnt.state, absorbed := t.fnt.absorbed, credit := t.fnt.credit, seed := t.fnt.seed, int := t.fnt.int, sw := t.fnt.sw, katBusy := t.fnt.katBusy, part := t.fnt.part, rngDead := t.fnt.rngDead }, pb0 := t.pb0, pb1 := t.pb1 } ∧ OtherRegs s t [Reg.PB_STAT, Reg.PB_CMD, Reg.PB_LEN, Reg.PB_STAT_1, Reg.PB_CMD_1, Reg.PB_LEN_1] [Reg.PAGE_STAT, Reg.INT_STAT, Reg.FAULT_CNT] [0x4D, 0x4E, 0x4F]) ∧
  (∀ (s : State) (p : PortNo) (b : Bytes) (a : Nat), (port s p.val).phase = .atr → tsOk b = true → ((atrClasses ((atrParse (b.take 33)).1)).any fun m => !m.testBit (3 - fld s (pr p.val Reg.PB_STAT) 3 2)) = false → ((atrParse (b.take 33)).2).length = byteAt b 1 % 16 + b2n (atrNeedsTck ((atrParse (b.take 33)).1)) → (atrNeedsTck ((atrParse (b.take 33)).1) = true → tckOk (b.take 33) = true) → ((atrOffers ((atrParse (b.take 33)).1)).any fun x => x == 0 || x == 1) = true → (((atrParse (b.take 33)).1).drop 1).head?.bind (·.ta) = some a → 1 < a % 16 → 
    Answers (.atrReceive p b) s fun t => fld t (pr p.val Reg.PB_CMD) 7 4 = 4 ∧ fld t (pr p.val Reg.PB_STAT) 31 1 = 0 ∧ (∀ i : Fin 128, reg t (pbBuf p.val + 4 * i.val) = 0) ∧ (.pin (if p.val = 0 then "PB0_VSEL" else "PB1_VSEL") (0) :: .pin (if p.val = 0 then "PB0_VCC_EN" else "PB1_VCC_EN") (0) :: .pin (if p.val = 0 then "PB0_IO" else "PB1_IO") (0) :: .pin (if p.val = 0 then "PB0_CLK" else "PB1_CLK") (0) :: .pin (if p.val = 0 then "PB0_RST" else "PB1_RST") (0) :: s.out) <:+ t.out ∧ (port t p.val).phase = .idle ∧ (port t p.val).cmd = 0 ∧ (port t p.val).clk = 0 ∧ t = { s with out := t.out, regs := t.regs, parBad := t.parBad, wins := t.wins, quay := { s.quay with msix := t.quay.msix }, kerb := { s.kerb with reports := t.kerb.reports }, fnt := { s.fnt with state := t.fnt.state, absorbed := t.fnt.absorbed, credit := t.fnt.credit, seed := t.fnt.seed, int := t.fnt.int, sw := t.fnt.sw, katBusy := t.fnt.katBusy, part := t.fnt.part, rngDead := t.fnt.rngDead }, pb0 := t.pb0, pb1 := t.pb1 } ∧ OtherRegs s t [Reg.PB_STAT, Reg.PB_CMD, Reg.PB_LEN, Reg.PB_STAT_1, Reg.PB_CMD_1, Reg.PB_LEN_1] [Reg.PAGE_STAT, Reg.INT_STAT, Reg.FAULT_CNT] [0x4D, 0x4E, 0x4F]) ∧
  (∀ (s : State) (p : PortNo) (b : Bytes), (port s p.val).phase = .atr → tsOk b = true → ((atrClasses ((atrParse (b.take 33)).1)).any fun m => !m.testBit (3 - fld s (pr p.val Reg.PB_STAT) 3 2)) = false → ((atrParse (b.take 33)).2).length = byteAt b 1 % 16 + b2n (atrNeedsTck ((atrParse (b.take 33)).1)) → (atrNeedsTck ((atrParse (b.take 33)).1) = true → tckOk (b.take 33) = true) → ((atrOffers ((atrParse (b.take 33)).1)).any fun x => x == 0 || x == 1) = false → 
    Answers (.atrReceive p b) s fun t => fld t (pr p.val Reg.PB_CMD) 7 4 = 4 ∧ fld t (pr p.val Reg.PB_STAT) 31 1 = 0 ∧ (∀ i : Fin 128, reg t (pbBuf p.val + 4 * i.val) = 0) ∧ (.pin (if p.val = 0 then "PB0_VSEL" else "PB1_VSEL") (0) :: .pin (if p.val = 0 then "PB0_VCC_EN" else "PB1_VCC_EN") (0) :: .pin (if p.val = 0 then "PB0_IO" else "PB1_IO") (0) :: .pin (if p.val = 0 then "PB0_CLK" else "PB1_CLK") (0) :: .pin (if p.val = 0 then "PB0_RST" else "PB1_RST") (0) :: s.out) <:+ t.out ∧ (port t p.val).phase = .idle ∧ (port t p.val).cmd = 0 ∧ (port t p.val).clk = 0 ∧ t = { s with out := t.out, regs := t.regs, parBad := t.parBad, wins := t.wins, quay := { s.quay with msix := t.quay.msix }, kerb := { s.kerb with reports := t.kerb.reports }, fnt := { s.fnt with state := t.fnt.state, absorbed := t.fnt.absorbed, credit := t.fnt.credit, seed := t.fnt.seed, int := t.fnt.int, sw := t.fnt.sw, katBusy := t.fnt.katBusy, part := t.fnt.part, rngDead := t.fnt.rngDead }, pb0 := t.pb0, pb1 := t.pb1 } ∧ OtherRegs s t [Reg.PB_STAT, Reg.PB_CMD, Reg.PB_LEN, Reg.PB_STAT_1, Reg.PB_CMD_1, Reg.PB_LEN_1] [Reg.PAGE_STAT, Reg.INT_STAT, Reg.FAULT_CNT] [0x4D, 0x4E, 0x4F]) ∧
  (∀ (s : State) (p : PortNo) (b : Bytes), (port s p.val).phase = .atr → tsOk b = true → ((atrClasses ((atrParse (b.take 33)).1)).any fun m => !m.testBit (3 - fld s (pr p.val Reg.PB_STAT) 3 2)) = false → ((atrParse (b.take 33)).2).length ≠ byteAt b 1 % 16 + b2n (atrNeedsTck ((atrParse (b.take 33)).1)) ∨ (atrNeedsTck ((atrParse (b.take 33)).1) = true ∧ tckOk (b.take 33) = false) → 
    Answers (.atrReceive p b) s fun t => fld t (pr p.val Reg.PB_CMD) 7 4 = 3 ∧ fld t (pr p.val Reg.PB_STAT) 31 1 = 0 ∧ (∀ i : Fin 128, reg t (pbBuf p.val + 4 * i.val) = 0) ∧ (.pin (if p.val = 0 then "PB0_VSEL" else "PB1_VSEL") (0) :: .pin (if p.val = 0 then "PB0_VCC_EN" else "PB1_VCC_EN") (0) :: .pin (if p.val = 0 then "PB0_IO" else "PB1_IO") (0) :: .pin (if p.val = 0 then "PB0_CLK" else "PB1_CLK") (0) :: .pin (if p.val = 0 then "PB0_RST" else "PB1_RST") (0) :: s.out) <:+ t.out ∧ (port t p.val).phase = .idle ∧ (port t p.val).cmd = 0 ∧ (port t p.val).clk = 0 ∧ t = { s with out := t.out, regs := t.regs, parBad := t.parBad, wins := t.wins, quay := { s.quay with msix := t.quay.msix }, kerb := { s.kerb with reports := t.kerb.reports }, fnt := { s.fnt with state := t.fnt.state, absorbed := t.fnt.absorbed, credit := t.fnt.credit, seed := t.fnt.seed, int := t.fnt.int, sw := t.fnt.sw, katBusy := t.fnt.katBusy, part := t.fnt.part, rngDead := t.fnt.rngDead }, pb0 := t.pb0, pb1 := t.pb1 } ∧ OtherRegs s t [Reg.PB_STAT, Reg.PB_CMD, Reg.PB_LEN, Reg.PB_STAT_1, Reg.PB_CMD_1, Reg.PB_LEN_1] [Reg.PAGE_STAT, Reg.INT_STAT, Reg.FAULT_CNT] [0x4D, 0x4E, 0x4F]) ∧
  (∀ (s : State) (p : PortNo) (b : Bytes), (port s p.val).phase = .atr → tsOk b = false ∨ ((atrClasses ((atrParse (b.take 33)).1)).any fun m => !m.testBit (3 - fld s (pr p.val Reg.PB_STAT) 3 2)) = true → (port s p.val).classes = [] → 
    Answers (.atrReceive p b) s fun t => fld t (pr p.val Reg.PB_CMD) 7 4 = (if tsOk b then 4 else 3) ∧ fld t (pr p.val Reg.PB_STAT) 31 1 = 0 ∧ (∀ i : Fin 128, reg t (pbBuf p.val + 4 * i.val) = 0) ∧ (.pin (if p.val = 0 then "PB0_VSEL" else "PB1_VSEL") (0) :: .pin (if p.val = 0 then "PB0_VCC_EN" else "PB1_VCC_EN") (0) :: .pin (if p.val = 0 then "PB0_IO" else "PB1_IO") (0) :: .pin (if p.val = 0 then "PB0_CLK" else "PB1_CLK") (0) :: .pin (if p.val = 0 then "PB0_RST" else "PB1_RST") (0) :: s.out) <:+ t.out ∧ (port t p.val).phase = .idle ∧ (port t p.val).cmd = 0 ∧ (port t p.val).clk = 0 ∧ t = { s with out := t.out, regs := t.regs, parBad := t.parBad, wins := t.wins, quay := { s.quay with msix := t.quay.msix }, kerb := { s.kerb with reports := t.kerb.reports }, fnt := { s.fnt with state := t.fnt.state, absorbed := t.fnt.absorbed, credit := t.fnt.credit, seed := t.fnt.seed, int := t.fnt.int, sw := t.fnt.sw, katBusy := t.fnt.katBusy, part := t.fnt.part, rngDead := t.fnt.rngDead }, pb0 := t.pb0, pb1 := t.pb1 } ∧ OtherRegs s t [Reg.PB_STAT, Reg.PB_CMD, Reg.PB_LEN, Reg.PB_STAT_1, Reg.PB_CMD_1, Reg.PB_LEN_1] [Reg.PAGE_STAT, Reg.INT_STAT, Reg.FAULT_CNT] [0x4D, 0x4E, 0x4F]) ∧
  (∀ (s : State) (p : PortNo) (b : Bytes) (c : Nat) (l : List Nat), (port s p.val).phase = .atr → tsOk b = false ∨ ((atrClasses ((atrParse (b.take 33)).1)).any fun m => !m.testBit (3 - fld s (pr p.val Reg.PB_STAT) 3 2)) = true → (port s p.val).classes = c :: l → 
    Answers (.atrReceive p b) s fun t => port t p.val = { cmd := (port s p.val).cmd, phase := .retry, classes := c :: l } ∧ fld t (pr p.val Reg.PB_STAT) 31 1 = 0 ∧ (∀ i : Fin 128, reg t (pbBuf p.val + 4 * i.val) = 0) ∧ (.pin (if p.val = 0 then "PB0_VSEL" else "PB1_VSEL") (0) :: .pin (if p.val = 0 then "PB0_VCC_EN" else "PB1_VCC_EN") (0) :: .pin (if p.val = 0 then "PB0_IO" else "PB1_IO") (0) :: .pin (if p.val = 0 then "PB0_CLK" else "PB1_CLK") (0) :: .pin (if p.val = 0 then "PB0_RST" else "PB1_RST") (0) :: s.out) <:+ t.out ∧ t = { s with out := t.out, regs := t.regs, parBad := t.parBad, wins := t.wins, quay := { s.quay with msix := t.quay.msix }, kerb := { s.kerb with reports := t.kerb.reports }, fnt := { s.fnt with state := t.fnt.state, absorbed := t.fnt.absorbed, credit := t.fnt.credit, seed := t.fnt.seed, int := t.fnt.int, sw := t.fnt.sw, katBusy := t.fnt.katBusy, part := t.fnt.part, rngDead := t.fnt.rngDead }, pb0 := t.pb0, pb1 := t.pb1 } ∧ OtherRegs s t [Reg.PB_STAT, Reg.PB_CMD, Reg.PB_LEN, Reg.PB_STAT_1, Reg.PB_CMD_1, Reg.PB_LEN_1] [Reg.PAGE_STAT, Reg.INT_STAT, Reg.FAULT_CNT] [0x4D, 0x4E, 0x4F]) ∧
  (∀ (s : State) (p : PortNo) (b : Bytes), (port s p.val).phase ≠ .atr → 
    Answers (.atrReceive p b) s fun t => t = s) ∧
  (∀ (s : State) (p : PortNo), (port s p.val).phase = .pps → byteAt (port s p.val).last 1 % 16 = 0 → (port s p.val).atr.length ≤ 33 → 
    Answers (.ppsResponse p (some (port s p.val).last)) s fun t => fld t (pr p.val Reg.PB_CMD) 7 4 = 0 ∧ pbActive t p.val = true ∧ (port t p.val).phase = .idle ∧ (port t p.val).cmd = 0 ∧ rbit t (pr p.val Reg.PB_STAT) 5 = true ∧ fld t (pr p.val Reg.PB_STAT) 11 8 = byteAt (port s p.val).last 2 / 16 ∧ fld t (pr p.val Reg.PB_STAT) 15 12 = byteAt (port s p.val).last 2 % 16 ∧ bufGet t (pbBuf p.val) 0 (port s p.val).atr.length = (port s p.val).atr ∧ (.pin (if p.val = 0 then "PB0_CLK" else "PB1_CLK") (min (fld s (pr p.val Reg.PB_CLK) 31 16) (fiCap (byteAt (port s p.val).last 2 / 16))) :: s.out) <:+ t.out ∧ t = { s with out := t.out, regs := t.regs, parBad := t.parBad, wins := t.wins, quay := { s.quay with msix := t.quay.msix }, kerb := { s.kerb with reports := t.kerb.reports }, fnt := { s.fnt with state := t.fnt.state, absorbed := t.fnt.absorbed, credit := t.fnt.credit, seed := t.fnt.seed, int := t.fnt.int, sw := t.fnt.sw, katBusy := t.fnt.katBusy, part := t.fnt.part, rngDead := t.fnt.rngDead }, pb0 := t.pb0, pb1 := t.pb1 } ∧ OtherRegs s t [Reg.PB_STAT, Reg.PB_CMD, Reg.PB_LEN, Reg.PB_STAT_1, Reg.PB_CMD_1, Reg.PB_LEN_1] [Reg.PAGE_STAT, Reg.INT_STAT, Reg.FAULT_CNT] [0x4D, 0x4E, 0x4F]) ∧
  (∀ (s : State) (p : PortNo), (port s p.val).phase = .pps → byteAt (port s p.val).last 1 % 16 = 1 → 
    Answers (.ppsResponse p (some (port s p.val).last)) s fun t => rbit t (pr p.val Reg.PB_STAT) 5 = true ∧ fld t (pr p.val Reg.PB_STAT) 11 8 = byteAt (port s p.val).last 2 / 16 ∧ fld t (pr p.val Reg.PB_STAT) 15 12 = byteAt (port s p.val).last 2 % 16 ∧ rbit t (pr p.val Reg.PB_STAT) 4 = true ∧ (port t p.val).phase = .ifs ∧ t.out = .card p.val (t1Block (port s p.val) 0xC1 [254]) :: s.out ∧ t = { s with out := t.out, regs := t.regs, parBad := t.parBad, wins := t.wins, quay := { s.quay with msix := t.quay.msix }, kerb := { s.kerb with reports := t.kerb.reports }, fnt := { s.fnt with state := t.fnt.state, absorbed := t.fnt.absorbed, credit := t.fnt.credit, seed := t.fnt.seed, int := t.fnt.int, sw := t.fnt.sw, katBusy := t.fnt.katBusy, part := t.fnt.part, rngDead := t.fnt.rngDead }, pb0 := t.pb0, pb1 := t.pb1 } ∧ OtherRegs s t [Reg.PB_STAT, Reg.PB_CMD, Reg.PB_LEN, Reg.PB_STAT_1, Reg.PB_CMD_1, Reg.PB_LEN_1] [Reg.PAGE_STAT, Reg.INT_STAT, Reg.FAULT_CNT] [0x4D, 0x4E, 0x4F]) ∧
  (∀ (s : State) (p : PortNo) (b : Option Bytes), (port s p.val).phase = .pps → b ≠ some (port s p.val).last → 
    Answers (.ppsResponse p b) s fun t => port t p.val = { cmd := (port s p.val).cmd, noPps := true, phase := .atr, classes := (port s p.val).classes, clk := fld s (pr p.val Reg.PB_CLK) 15 0 } ∧ fld t (pr p.val Reg.PB_STAT) 3 2 = fld s (pr p.val Reg.PB_STAT) 3 2 ∧ t.out = .pin (if p.val = 0 then "PB0_RST" else "PB1_RST") (1) :: .pin (if p.val = 0 then "PB0_RST" else "PB1_RST") (0) :: .pin (if p.val = 0 then "PB0_CLK" else "PB1_CLK") (fld s (pr p.val Reg.PB_CLK) 15 0) :: .pin (if p.val = 0 then "PB0_IO" else "PB1_IO") (1) :: .pin (if p.val = 0 then "PB0_VCC_EN" else "PB1_VCC_EN") (1) :: .pin (if p.val = 0 then "PB0_VSEL" else "PB1_VSEL") (fld s (pr p.val Reg.PB_STAT) 3 2) :: .pin (if p.val = 0 then "PB0_VSEL" else "PB1_VSEL") (0) :: .pin (if p.val = 0 then "PB0_VCC_EN" else "PB1_VCC_EN") (0) :: .pin (if p.val = 0 then "PB0_IO" else "PB1_IO") (0) :: .pin (if p.val = 0 then "PB0_CLK" else "PB1_CLK") (0) :: .pin (if p.val = 0 then "PB0_RST" else "PB1_RST") (0) :: s.out ∧ t = { s with out := t.out, regs := t.regs, parBad := t.parBad, wins := t.wins, quay := { s.quay with msix := t.quay.msix }, kerb := { s.kerb with reports := t.kerb.reports }, fnt := { s.fnt with state := t.fnt.state, absorbed := t.fnt.absorbed, credit := t.fnt.credit, seed := t.fnt.seed, int := t.fnt.int, sw := t.fnt.sw, katBusy := t.fnt.katBusy, part := t.fnt.part, rngDead := t.fnt.rngDead }, pb0 := t.pb0, pb1 := t.pb1 } ∧ OtherRegs s t [Reg.PB_STAT, Reg.PB_CMD, Reg.PB_LEN, Reg.PB_STAT_1, Reg.PB_CMD_1, Reg.PB_LEN_1] [Reg.PAGE_STAT, Reg.INT_STAT, Reg.FAULT_CNT] [0x4D, 0x4E, 0x4F]) ∧
  (∀ (s : State) (p : PortNo) (b : Option Bytes), (port s p.val).phase ≠ .pps → 
    Answers (.ppsResponse p b) s fun t => t = s) ∧
  (∀ (s : State) (p : PortNo) (b : Byte), (port s p.val).phase = .sw2 → (port s p.val).rx.length ≤ 256 → 
    Answers (.t0CharacterReceive p (.char b true)) s fun t => fld t (pr p.val Reg.PB_CMD) 7 4 = 0 ∧ (port t p.val).phase = .idle ∧ (port t p.val).cmd = 0 ∧ bufGet t (pbBuf p.val) 0 ((port s p.val).rx.length + 2) = (port s p.val).rx ++ [BitVec.ofNat 8 (port s p.val).sw1, b] ∧ fld t (pr p.val Reg.PB_LEN) 25 16 = (port s p.val).rx.length + 2 ∧ t = { s with out := t.out, regs := t.regs, parBad := t.parBad, wins := t.wins, quay := { s.quay with msix := t.quay.msix }, kerb := { s.kerb with reports := t.kerb.reports }, fnt := { s.fnt with state := t.fnt.state, absorbed := t.fnt.absorbed, credit := t.fnt.credit, seed := t.fnt.seed, int := t.fnt.int, sw := t.fnt.sw, katBusy := t.fnt.katBusy, part := t.fnt.part, rngDead := t.fnt.rngDead }, pb0 := t.pb0, pb1 := t.pb1 } ∧ OtherRegs s t [Reg.PB_STAT, Reg.PB_CMD, Reg.PB_LEN, Reg.PB_ERR, Reg.PB_STAT_1, Reg.PB_CMD_1, Reg.PB_LEN_1, Reg.PB_ERR_1] [Reg.PAGE_STAT, Reg.INT_STAT, Reg.FAULT_CNT] [0x4D, 0x4E, 0x4F]) ∧
  (∀ (s : State) (p : PortNo), (port s p.val).phase = .proc → 
    Answers (.t0CharacterReceive p (.char 0x60 true)) s fun t => t = s) ∧
  (∀ (s : State) (p : PortNo) (b : Byte), (port s p.val).phase = .proc → b ≠ 0x60 → b.toNat / 16 = 6 ∨ b.toNat / 16 = 9 → 
    Answers (.t0CharacterReceive p (.char b true)) s fun t => port t p.val = { port s p.val with phase := .sw2, sw1 := b.toNat } ∧ t.regs = s.regs ∧ t.out = s.out ∧ t = { s with out := t.out, regs := t.regs, parBad := t.parBad, wins := t.wins, quay := { s.quay with msix := t.quay.msix }, kerb := { s.kerb with reports := t.kerb.reports }, fnt := { s.fnt with state := t.fnt.state, absorbed := t.fnt.absorbed, credit := t.fnt.credit, seed := t.fnt.seed, int := t.fnt.int, sw := t.fnt.sw, katBusy := t.fnt.katBusy, part := t.fnt.part, rngDead := t.fnt.rngDead }, pb0 := t.pb0, pb1 := t.pb1 } ∧ OtherRegs s t [Reg.PB_STAT, Reg.PB_CMD, Reg.PB_LEN, Reg.PB_ERR, Reg.PB_STAT_1, Reg.PB_CMD_1, Reg.PB_LEN_1, Reg.PB_ERR_1] [Reg.PAGE_STAT, Reg.INT_STAT, Reg.FAULT_CNT] [0x4D, 0x4E, 0x4F]) ∧
  (∀ (s : State) (p : PortNo) (b : Byte), (port s p.val).phase = .proc → b.toNat / 16 ≠ 6 → b.toNat / 16 ≠ 9 → b.toNat = (byteAt (txBytes s p.val) 1) → 5 < (txBytes s p.val).length → 
    Answers (.t0CharacterReceive p (.char b true)) s fun t => port t p.val = { port s p.val with sent := (port s p.val).sent + (((txBytes s p.val).drop (port s p.val).sent).take ((txBytes s p.val).length - (port s p.val).sent)).length } ∧ t.out = .card p.val (((txBytes s p.val).drop (port s p.val).sent).take ((txBytes s p.val).length - (port s p.val).sent)) :: s.out ∧ t.regs = s.regs ∧ t = { s with out := t.out, regs := t.regs, parBad := t.parBad, wins := t.wins, quay := { s.quay with msix := t.quay.msix }, kerb := { s.kerb with reports := t.kerb.reports }, fnt := { s.fnt with state := t.fnt.state, absorbed := t.fnt.absorbed, credit := t.fnt.credit, seed := t.fnt.seed, int := t.fnt.int, sw := t.fnt.sw, katBusy := t.fnt.katBusy, part := t.fnt.part, rngDead := t.fnt.rngDead }, pb0 := t.pb0, pb1 := t.pb1 } ∧ OtherRegs s t [Reg.PB_STAT, Reg.PB_CMD, Reg.PB_LEN, Reg.PB_ERR, Reg.PB_STAT_1, Reg.PB_CMD_1, Reg.PB_LEN_1, Reg.PB_ERR_1] [Reg.PAGE_STAT, Reg.INT_STAT, Reg.FAULT_CNT] [0x4D, 0x4E, 0x4F]) ∧
  (∀ (s : State) (p : PortNo) (b : Byte), (port s p.val).phase = .proc → b.toNat / 16 ≠ 6 → b.toNat / 16 ≠ 9 → b.toNat = 255 - (byteAt (txBytes s p.val) 1) → 5 < (txBytes s p.val).length → 
    Answers (.t0CharacterReceive p (.char b true)) s fun t => port t p.val = { port s p.val with sent := (port s p.val).sent + (((txBytes s p.val).drop (port s p.val).sent).take 1).length } ∧ t.out = .card p.val (((txBytes s p.val).drop (port s p.val).sent).take 1) :: s.out ∧ t.regs = s.regs ∧ t = { s with out := t.out, regs := t.regs, parBad := t.parBad, wins := t.wins, quay := { s.quay with msix := t.quay.msix }, kerb := { s.kerb with reports := t.kerb.reports }, fnt := { s.fnt with state := t.fnt.state, absorbed := t.fnt.absorbed, credit := t.fnt.credit, seed := t.fnt.seed, int := t.fnt.int, sw := t.fnt.sw, katBusy := t.fnt.katBusy, part := t.fnt.part, rngDead := t.fnt.rngDead }, pb0 := t.pb0, pb1 := t.pb1 } ∧ OtherRegs s t [Reg.PB_STAT, Reg.PB_CMD, Reg.PB_LEN, Reg.PB_ERR, Reg.PB_STAT_1, Reg.PB_CMD_1, Reg.PB_LEN_1, Reg.PB_ERR_1] [Reg.PAGE_STAT, Reg.INT_STAT, Reg.FAULT_CNT] [0x4D, 0x4E, 0x4F]) ∧
  (∀ (s : State) (p : PortNo) (b : Byte), (port s p.val).phase = .proc → b.toNat / 16 ≠ 6 → b.toNat / 16 ≠ 9 → b.toNat = (byteAt (txBytes s p.val) 1) → (txBytes s p.val).length ≤ 5 → 0 < t0Want s p.val (port s p.val) → 
    Answers (.t0CharacterReceive p (.char b true)) s fun t => port t p.val = { port s p.val with phase := .recvAll } ∧ t.regs = s.regs ∧ t.out = s.out ∧ t = { s with out := t.out, regs := t.regs, parBad := t.parBad, wins := t.wins, quay := { s.quay with msix := t.quay.msix }, kerb := { s.kerb with reports := t.kerb.reports }, fnt := { s.fnt with state := t.fnt.state, absorbed := t.fnt.absorbed, credit := t.fnt.credit, seed := t.fnt.seed, int := t.fnt.int, sw := t.fnt.sw, katBusy := t.fnt.katBusy, part := t.fnt.part, rngDead := t.fnt.rngDead }, pb0 := t.pb0, pb1 := t.pb1 } ∧ OtherRegs s t [Reg.PB_STAT, Reg.PB_CMD, Reg.PB_LEN, Reg.PB_ERR, Reg.PB_STAT_1, Reg.PB_CMD_1, Reg.PB_LEN_1, Reg.PB_ERR_1] [Reg.PAGE_STAT, Reg.INT_STAT, Reg.FAULT_CNT] [0x4D, 0x4E, 0x4F]) ∧
  (∀ (s : State) (p : PortNo) (b : Byte), (port s p.val).phase = .proc → b.toNat / 16 ≠ 6 → b.toNat / 16 ≠ 9 → b.toNat = 255 - (byteAt (txBytes s p.val) 1) → (txBytes s p.val).length ≤ 5 → 0 < t0Want s p.val (port s p.val) → 
    Answers (.t0CharacterReceive p (.char b true)) s fun t => port t p.val = { port s p.val with phase := .recvOne } ∧ t.regs = s.regs ∧ t.out = s.out ∧ t = { s with out := t.out, regs := t.regs, parBad := t.parBad, wins := t.wins, quay := { s.quay with msix := t.quay.msix }, kerb := { s.kerb with reports := t.kerb.reports }, fnt := { s.fnt with state := t.fnt.state, absorbed := t.fnt.absorbed, credit := t.fnt.credit, seed := t.fnt.seed, int := t.fnt.int, sw := t.fnt.sw, katBusy := t.fnt.katBusy, part := t.fnt.part, rngDead := t.fnt.rngDead }, pb0 := t.pb0, pb1 := t.pb1 } ∧ OtherRegs s t [Reg.PB_STAT, Reg.PB_CMD, Reg.PB_LEN, Reg.PB_ERR, Reg.PB_STAT_1, Reg.PB_CMD_1, Reg.PB_LEN_1, Reg.PB_ERR_1] [Reg.PAGE_STAT, Reg.INT_STAT, Reg.FAULT_CNT] [0x4D, 0x4E, 0x4F]) ∧
  (∀ (s : State) (p : PortNo) (b : Byte), (port s p.val).phase = .proc → b.toNat / 16 ≠ 6 → b.toNat / 16 ≠ 9 → (b.toNat ≠ (byteAt (txBytes s p.val) 1) ∧ b.toNat ≠ 255 - (byteAt (txBytes s p.val) 1)) ∨ ((txBytes s p.val).length ≤ 5 ∧ t0Want s p.val (port s p.val) = 0) → 
    Answers (.t0CharacterReceive p (.char b true)) s fun t => t = s) ∧
  (∀ (s : State) (p : PortNo) (b : Byte), (port s p.val).phase = .recvAll → 1 < t0Want s p.val (port s p.val) → 
    Answers (.t0CharacterReceive p (.char b true)) s fun t => port t p.val = { port s p.val with rx := (port s p.val).rx ++ [b] } ∧ t.regs = s.regs ∧ t.out = s.out ∧ t = { s with out := t.out, regs := t.regs, parBad := t.parBad, wins := t.wins, quay := { s.quay with msix := t.quay.msix }, kerb := { s.kerb with reports := t.kerb.reports }, fnt := { s.fnt with state := t.fnt.state, absorbed := t.fnt.absorbed, credit := t.fnt.credit, seed := t.fnt.seed, int := t.fnt.int, sw := t.fnt.sw, katBusy := t.fnt.katBusy, part := t.fnt.part, rngDead := t.fnt.rngDead }, pb0 := t.pb0, pb1 := t.pb1 } ∧ OtherRegs s t [Reg.PB_STAT, Reg.PB_CMD, Reg.PB_LEN, Reg.PB_ERR, Reg.PB_STAT_1, Reg.PB_CMD_1, Reg.PB_LEN_1, Reg.PB_ERR_1] [Reg.PAGE_STAT, Reg.INT_STAT, Reg.FAULT_CNT] [0x4D, 0x4E, 0x4F]) ∧
  (∀ (s : State) (p : PortNo) (b : Byte), (port s p.val).phase = .recvAll → t0Want s p.val (port s p.val) ≤ 1 → 
    Answers (.t0CharacterReceive p (.char b true)) s fun t => port t p.val = { port s p.val with rx := (port s p.val).rx ++ [b], phase := .proc } ∧ t.regs = s.regs ∧ t.out = s.out ∧ t = { s with out := t.out, regs := t.regs, parBad := t.parBad, wins := t.wins, quay := { s.quay with msix := t.quay.msix }, kerb := { s.kerb with reports := t.kerb.reports }, fnt := { s.fnt with state := t.fnt.state, absorbed := t.fnt.absorbed, credit := t.fnt.credit, seed := t.fnt.seed, int := t.fnt.int, sw := t.fnt.sw, katBusy := t.fnt.katBusy, part := t.fnt.part, rngDead := t.fnt.rngDead }, pb0 := t.pb0, pb1 := t.pb1 } ∧ OtherRegs s t [Reg.PB_STAT, Reg.PB_CMD, Reg.PB_LEN, Reg.PB_ERR, Reg.PB_STAT_1, Reg.PB_CMD_1, Reg.PB_LEN_1, Reg.PB_ERR_1] [Reg.PAGE_STAT, Reg.INT_STAT, Reg.FAULT_CNT] [0x4D, 0x4E, 0x4F]) ∧
  (∀ (s : State) (p : PortNo) (b : Byte), (port s p.val).phase = .recvOne → 
    Answers (.t0CharacterReceive p (.char b true)) s fun t => port t p.val = { port s p.val with rx := (port s p.val).rx ++ [b], phase := .proc } ∧ t.regs = s.regs ∧ t.out = s.out ∧ t = { s with out := t.out, regs := t.regs, parBad := t.parBad, wins := t.wins, quay := { s.quay with msix := t.quay.msix }, kerb := { s.kerb with reports := t.kerb.reports }, fnt := { s.fnt with state := t.fnt.state, absorbed := t.fnt.absorbed, credit := t.fnt.credit, seed := t.fnt.seed, int := t.fnt.int, sw := t.fnt.sw, katBusy := t.fnt.katBusy, part := t.fnt.part, rngDead := t.fnt.rngDead }, pb0 := t.pb0, pb1 := t.pb1 } ∧ OtherRegs s t [Reg.PB_STAT, Reg.PB_CMD, Reg.PB_LEN, Reg.PB_ERR, Reg.PB_STAT_1, Reg.PB_CMD_1, Reg.PB_LEN_1, Reg.PB_ERR_1] [Reg.PAGE_STAT, Reg.INT_STAT, Reg.FAULT_CNT] [0x4D, 0x4E, 0x4F]) ∧
  (∀ (s : State) (p : PortNo) (b : Byte), inT0 (port s p.val) = true → 
    Answers (.t0CharacterReceive p (.char b false)) s fun t => port t p.val = port s p.val ∧ t.out = .pin (if p.val = 0 then "PB0_IO" else "PB1_IO") 1 :: .pin (if p.val = 0 then "PB0_IO" else "PB1_IO") 0 :: s.out ∧ fld t (pr p.val Reg.PB_ERR) 15 0 = min 65535 (fld s (pr p.val Reg.PB_ERR) 15 0 + 1) ∧ t = { s with out := t.out, regs := t.regs, parBad := t.parBad, wins := t.wins, quay := { s.quay with msix := t.quay.msix }, kerb := { s.kerb with reports := t.kerb.reports }, fnt := { s.fnt with state := t.fnt.state, absorbed := t.fnt.absorbed, credit := t.fnt.credit, seed := t.fnt.seed, int := t.fnt.int, sw := t.fnt.sw, katBusy := t.fnt.katBusy, part := t.fnt.part, rngDead := t.fnt.rngDead }, pb0 := t.pb0, pb1 := t.pb1 } ∧ OtherRegs s t [Reg.PB_STAT, Reg.PB_CMD, Reg.PB_LEN, Reg.PB_ERR, Reg.PB_STAT_1, Reg.PB_CMD_1, Reg.PB_LEN_1, Reg.PB_ERR_1] [Reg.PAGE_STAT, Reg.INT_STAT, Reg.FAULT_CNT] [0x4D, 0x4E, 0x4F]) ∧
  (∀ (s : State) (p : PortNo) (b : Byte), (port s p.val).phase = .atr → 
    Answers (.t0CharacterReceive p (.char b false)) s fun t => port t p.val = port s p.val ∧ t.out = .pin (if p.val = 0 then "PB0_IO" else "PB1_IO") 1 :: .pin (if p.val = 0 then "PB0_IO" else "PB1_IO") 0 :: s.out ∧ fld t (pr p.val Reg.PB_ERR) 15 0 = min 65535 (fld s (pr p.val Reg.PB_ERR) 15 0 + 1) ∧ t = { s with out := t.out, regs := t.regs, parBad := t.parBad, wins := t.wins, quay := { s.quay with msix := t.quay.msix }, kerb := { s.kerb with reports := t.kerb.reports }, fnt := { s.fnt with state := t.fnt.state, absorbed := t.fnt.absorbed, credit := t.fnt.credit, seed := t.fnt.seed, int := t.fnt.int, sw := t.fnt.sw, katBusy := t.fnt.katBusy, part := t.fnt.part, rngDead := t.fnt.rngDead }, pb0 := t.pb0, pb1 := t.pb1 } ∧ OtherRegs s t [Reg.PB_STAT, Reg.PB_CMD, Reg.PB_LEN, Reg.PB_ERR, Reg.PB_STAT_1, Reg.PB_CMD_1, Reg.PB_LEN_1, Reg.PB_ERR_1] [Reg.PAGE_STAT, Reg.INT_STAT, Reg.FAULT_CNT] [0x4D, 0x4E, 0x4F]) ∧
  (∀ (s : State) (p : PortNo) (i : BitVec 9), inT0 (port s p.val) = true → i.toNat < (port s p.val).sent → (if (port s p.val).repAt = i.toNat then (port s p.val).rep else 0) < 4 → 
    Answers (.t0CharacterReceive p (.errorSignal i)) s fun t => port t p.val = { port s p.val with repAt := i.toNat, rep := (if (port s p.val).repAt = i.toNat then (port s p.val).rep else 0) + 1 } ∧ t.out = .card p.val [BitVec.ofNat 8 (byteAt (txBytes s p.val) i.toNat)] :: s.out ∧ fld t (pr p.val Reg.PB_ERR) 15 0 = min 65535 (fld s (pr p.val Reg.PB_ERR) 15 0 + 1) ∧ t = { s with out := t.out, regs := t.regs, parBad := t.parBad, wins := t.wins, quay := { s.quay with msix := t.quay.msix }, kerb := { s.kerb with reports := t.kerb.reports }, fnt := { s.fnt with state := t.fnt.state, absorbed := t.fnt.absorbed, credit := t.fnt.credit, seed := t.fnt.seed, int := t.fnt.int, sw := t.fnt.sw, katBusy := t.fnt.katBusy, part := t.fnt.part, rngDead := t.fnt.rngDead }, pb0 := t.pb0, pb1 := t.pb1 } ∧ OtherRegs s t [Reg.PB_STAT, Reg.PB_CMD, Reg.PB_LEN, Reg.PB_ERR, Reg.PB_STAT_1, Reg.PB_CMD_1, Reg.PB_LEN_1, Reg.PB_ERR_1] [Reg.PAGE_STAT, Reg.INT_STAT, Reg.FAULT_CNT] [0x4D, 0x4E, 0x4F]) ∧
  (∀ (s : State) (p : PortNo) (i : BitVec 9), inT0 (port s p.val) = true → i.toNat < (port s p.val).sent → 4 ≤ (if (port s p.val).repAt = i.toNat then (port s p.val).rep else 0) → 
    Answers (.t0CharacterReceive p (.errorSignal i)) s fun t => fld t (pr p.val Reg.PB_CMD) 7 4 = 6 ∧ fld t (pr p.val Reg.PB_STAT) 31 1 = 0 ∧ (∀ i : Fin 128, reg t (pbBuf p.val + 4 * i.val) = 0) ∧ (.pin (if p.val = 0 then "PB0_VSEL" else "PB1_VSEL") (0) :: .pin (if p.val = 0 then "PB0_VCC_EN" else "PB1_VCC_EN") (0) :: .pin (if p.val = 0 then "PB0_IO" else "PB1_IO") (0) :: .pin (if p.val = 0 then "PB0_CLK" else "PB1_CLK") (0) :: .pin (if p.val = 0 then "PB0_RST" else "PB1_RST") (0) :: s.out) <:+ t.out ∧ (port t p.val).phase = .idle ∧ (port t p.val).cmd = 0 ∧ (port t p.val).clk = 0 ∧ t = { s with out := t.out, regs := t.regs, parBad := t.parBad, wins := t.wins, quay := { s.quay with msix := t.quay.msix }, kerb := { s.kerb with reports := t.kerb.reports }, fnt := { s.fnt with state := t.fnt.state, absorbed := t.fnt.absorbed, credit := t.fnt.credit, seed := t.fnt.seed, int := t.fnt.int, sw := t.fnt.sw, katBusy := t.fnt.katBusy, part := t.fnt.part, rngDead := t.fnt.rngDead }, pb0 := t.pb0, pb1 := t.pb1 } ∧ OtherRegs s t [Reg.PB_STAT, Reg.PB_CMD, Reg.PB_LEN, Reg.PB_ERR, Reg.PB_STAT_1, Reg.PB_CMD_1, Reg.PB_LEN_1, Reg.PB_ERR_1] [Reg.PAGE_STAT, Reg.INT_STAT, Reg.FAULT_CNT] [0x4D, 0x4E, 0x4F]) ∧
  (∀ (s : State) (p : PortNo) (i : BitVec 9), inT0 (port s p.val) = true → (port s p.val).sent ≤ i.toNat → 
    Answers (.t0CharacterReceive p (.errorSignal i)) s fun t => t = s) ∧
  (∀ (s : State) (p : PortNo) (e : T0Ev), inT0 (port s p.val) = false → (port s p.val).phase ≠ .atr → 
    Answers (.t0CharacterReceive p e) s fun t => t = s) ∧
  (∀ (s : State) (p : PortNo) (b : Bytes), (port s p.val).phase = .t1 → (byteAt b 1) < 0x80 → (byteAt b 1).testBit 6 = (port s p.val).nr → (txBytes s p.val).length ≤ (port s p.val).sent + (port s p.val).lastLen → (byteAt b 1).testBit 5 = false → ((port s p.val).rx ++ (sl b 3 (byteAt b 2))).length ≤ 512 → 
    Answers (.t1BlockReceive p b true) s fun t => fld t (pr p.val Reg.PB_CMD) 7 4 = 0 ∧ (port t p.val).phase = .idle ∧ (port t p.val).cmd = 0 ∧ (port t p.val).ns = !(port s p.val).ns ∧ (port t p.val).nr = !(port s p.val).nr ∧ bufGet t (pbBuf p.val) 0 ((port s p.val).rx ++ (sl b 3 (byteAt b 2))).length = ((port s p.val).rx ++ (sl b 3 (byteAt b 2))) ∧ fld t (pr p.val Reg.PB_LEN) 25 16 = ((port s p.val).rx ++ (sl b 3 (byteAt b 2))).length ∧ t = { s with out := t.out, regs := t.regs, parBad := t.parBad, wins := t.wins, quay := { s.quay with msix := t.quay.msix }, kerb := { s.kerb with reports := t.kerb.reports }, fnt := { s.fnt with state := t.fnt.state, absorbed := t.fnt.absorbed, credit := t.fnt.credit, seed := t.fnt.seed, int := t.fnt.int, sw := t.fnt.sw, katBusy := t.fnt.katBusy, part := t.fnt.part, rngDead := t.fnt.rngDead }, pb0 := t.pb0, pb1 := t.pb1 } ∧ OtherRegs s t [Reg.PB_STAT, Reg.PB_CMD, Reg.PB_LEN, Reg.PB_ERR, Reg.PB_STAT_1, Reg.PB_CMD_1, Reg.PB_LEN_1, Reg.PB_ERR_1] [Reg.PAGE_STAT, Reg.INT_STAT, Reg.FAULT_CNT] [0x4D, 0x4E, 0x4F]) ∧
  (∀ (s : State) (p : PortNo) (b : Bytes), (port s p.val).phase = .t1 → (byteAt b 1) < 0x80 → (byteAt b 1).testBit 6 = (port s p.val).nr → (txBytes s p.val).length ≤ (port s p.val).sent + (port s p.val).lastLen → (byteAt b 1).testBit 5 = true → ((port s p.val).rx ++ (sl b 3 (byteAt b 2))).length ≤ 512 → 
    Answers (.t1BlockReceive p b true) s fun t => (port t p.val).rx = ((port s p.val).rx ++ (sl b 3 (byteAt b 2))) ∧ (port t p.val).nr = !(port s p.val).nr ∧ (port t p.val).phase = .t1 ∧ (port t p.val).rblocks = 0 ∧ t.out = .card p.val (t1Block (port s p.val) (0x80 + b2n (!(port s p.val).nr) * 16) []) :: s.out ∧ fld t (pr p.val Reg.PB_ERR) 31 16 = min 65535 (fld s (pr p.val Reg.PB_ERR) 31 16 + 1) ∧ t = { s with out := t.out, regs := t.regs, parBad := t.parBad, wins := t.wins, quay := { s.quay with msix := t.quay.msix }, kerb := { s.kerb with reports := t.kerb.reports }, fnt := { s.fnt with state := t.fnt.state, absorbed := t.fnt.absorbed, credit := t.fnt.credit, seed := t.fnt.seed, int := t.fnt.int, sw := t.fnt.sw, katBusy := t.fnt.katBusy, part := t.fnt.part, rngDead := t.fnt.rngDead }, pb0 := t.pb0, pb1 := t.pb1 } ∧ OtherRegs s t [Reg.PB_STAT, Reg.PB_CMD, Reg.PB_LEN, Reg.PB_ERR, Reg.PB_STAT_1, Reg.PB_CMD_1, Reg.PB_LEN_1, Reg.PB_ERR_1] [Reg.PAGE_STAT, Reg.INT_STAT, Reg.FAULT_CNT] [0x4D, 0x4E, 0x4F]) ∧
  (∀ (s : State) (p : PortNo) (b : Bytes), (port s p.val).phase = .t1 → (byteAt b 1) < 0x80 → (byteAt b 1).testBit 6 = (port s p.val).nr → (txBytes s p.val).length ≤ (port s p.val).sent + (port s p.val).lastLen → 512 < ((port s p.val).rx ++ (sl b 3 (byteAt b 2))).length → 
    Answers (.t1BlockReceive p b true) s fun t => fld t (pr p.val Reg.PB_CMD) 7 4 = 9 ∧ (port t p.val).phase = .idle ∧ (port t p.val).cmd = 0 ∧ t = { s with out := t.out, regs := t.regs, parBad := t.parBad, wins := t.wins, quay := { s.quay with msix := t.quay.msix }, kerb := { s.kerb with reports := t.kerb.reports }, fnt := { s.fnt with state := t.fnt.state, absorbed := t.fnt.absorbed, credit := t.fnt.credit, seed := t.fnt.seed, int := t.fnt.int, sw := t.fnt.sw, katBusy := t.fnt.katBusy, part := t.fnt.part, rngDead := t.fnt.rngDead }, pb0 := t.pb0, pb1 := t.pb1 } ∧ OtherRegs s t [Reg.PB_STAT, Reg.PB_CMD, Reg.PB_LEN, Reg.PB_ERR, Reg.PB_STAT_1, Reg.PB_CMD_1, Reg.PB_LEN_1, Reg.PB_ERR_1] [Reg.PAGE_STAT, Reg.INT_STAT, Reg.FAULT_CNT] [0x4D, 0x4E, 0x4F]) ∧
  (∀ (s : State) (p : PortNo) (b : Bytes), (port s p.val).phase = .t1 → 0x80 ≤ (byteAt b 1) → (byteAt b 1) < 0xC0 → ((byteAt b 1).testBit 4 != (port s p.val).ns && decide ((port s p.val).sent + (port s p.val).lastLen < (txBytes s p.val).length)) = true → 
    Answers (.t1BlockReceive p b true) s fun t => (port t p.val).ns = !(port s p.val).ns ∧ (port t p.val).sent = (port s p.val).sent + (port s p.val).lastLen ∧ (port t p.val).lastLen = ((((txBytes s p.val)).drop ((port s p.val).sent + (port s p.val).lastLen)).take (min 254 (port s p.val).ifsc)).length ∧ t.out = .card p.val (t1Block (port s p.val) (b2n (!(port s p.val).ns) * 64 + b2n (decide ((port s p.val).sent + (port s p.val).lastLen + ((((txBytes s p.val)).drop ((port s p.val).sent + (port s p.val).lastLen)).take (min 254 (port s p.val).ifsc)).length < (txBytes s p.val).length)) * 32) ((((txBytes s p.val)).drop ((port s p.val).sent + (port s p.val).lastLen)).take (min 254 (port s p.val).ifsc))) :: s.out ∧ t.regs = s.regs ∧ t = { s with out := t.out, regs := t.regs, parBad := t.parBad, wins := t.wins, quay := { s.quay with msix := t.quay.msix }, kerb := { s.kerb with reports := t.kerb.reports }, fnt := { s.fnt with state := t.fnt.state, absorbed := t.fnt.absorbed, credit := t.fnt.credit, seed := t.fnt.seed, int := t.fnt.int, sw := t.fnt.sw, katBusy := t.fnt.katBusy, part := t.fnt.part, rngDead := t.fnt.rngDead }, pb0 := t.pb0, pb1 := t.pb1 } ∧ OtherRegs s t [Reg.PB_STAT, Reg.PB_CMD, Reg.PB_LEN, Reg.PB_ERR, Reg.PB_STAT_1, Reg.PB_CMD_1, Reg.PB_LEN_1, Reg.PB_ERR_1] [Reg.PAGE_STAT, Reg.INT_STAT, Reg.FAULT_CNT] [0x4D, 0x4E, 0x4F]) ∧
  (∀ (s : State) (p : PortNo) (b : Bytes), (port s p.val).phase = .t1 → 0x80 ≤ (byteAt b 1) → (byteAt b 1) < 0xC0 → ((byteAt b 1).testBit 4 != (port s p.val).ns && decide ((port s p.val).sent + (port s p.val).lastLen < (txBytes s p.val).length)) = false → 
    Answers (.t1BlockReceive p b true) s fun t => port t p.val = port s p.val ∧ t.out = .card p.val (port s p.val).last :: s.out ∧ t.regs = s.regs ∧ t = { s with out := t.out, regs := t.regs, parBad := t.parBad, wins := t.wins, quay := { s.quay with msix := t.quay.msix }, kerb := { s.kerb with reports := t.kerb.reports }, fnt := { s.fnt with state := t.fnt.state, absorbed := t.fnt.absorbed, credit := t.fnt.credit, seed := t.fnt.seed, int := t.fnt.int, sw := t.fnt.sw, katBusy := t.fnt.katBusy, part := t.fnt.part, rngDead := t.fnt.rngDead }, pb0 := t.pb0, pb1 := t.pb1 } ∧ OtherRegs s t [Reg.PB_STAT, Reg.PB_CMD, Reg.PB_LEN, Reg.PB_ERR, Reg.PB_STAT_1, Reg.PB_CMD_1, Reg.PB_LEN_1, Reg.PB_ERR_1] [Reg.PAGE_STAT, Reg.INT_STAT, Reg.FAULT_CNT] [0x4D, 0x4E, 0x4F]) ∧
  (∀ (s : State) (p : PortNo) (b : Bytes), (port s p.val).phase = .t1 → (byteAt b 1) = 0xC3 → 
    Answers (.t1BlockReceive p b true) s fun t => port t p.val = port s p.val ∧ t.out = .card p.val (t1Block (port s p.val) 0xE3 (sl b 3 (byteAt b 2))) :: s.out ∧ t.regs = s.regs ∧ t = { s with out := t.out, regs := t.regs, parBad := t.parBad, wins := t.wins, quay := { s.quay with msix := t.quay.msix }, kerb := { s.kerb with reports := t.kerb.reports }, fnt := { s.fnt with state := t.fnt.state, absorbed := t.fnt.absorbed, credit := t.fnt.credit, seed := t.fnt.seed, int := t.fnt.int, sw := t.fnt.sw, katBusy := t.fnt.katBusy, part := t.fnt.part, rngDead := t.fnt.rngDead }, pb0 := t.pb0, pb1 := t.pb1 } ∧ OtherRegs s t [Reg.PB_STAT, Reg.PB_CMD, Reg.PB_LEN, Reg.PB_ERR, Reg.PB_STAT_1, Reg.PB_CMD_1, Reg.PB_LEN_1, Reg.PB_ERR_1] [Reg.PAGE_STAT, Reg.INT_STAT, Reg.FAULT_CNT] [0x4D, 0x4E, 0x4F]) ∧
  (∀ (s : State) (p : PortNo) (b : Bytes), (port s p.val).phase = .t1 → (byteAt b 1) = 0xC1 → 
    Answers (.t1BlockReceive p b true) s fun t => port t p.val = { port s p.val with ifsc := byteAt (sl b 3 (byteAt b 2)) 0 } ∧ t.out = .card p.val (t1Block (port s p.val) 0xE1 (sl b 3 (byteAt b 2))) :: s.out ∧ t.regs = s.regs ∧ t = { s with out := t.out, regs := t.regs, parBad := t.parBad, wins := t.wins, quay := { s.quay with msix := t.quay.msix }, kerb := { s.kerb with reports := t.kerb.reports }, fnt := { s.fnt with state := t.fnt.state, absorbed := t.fnt.absorbed, credit := t.fnt.credit, seed := t.fnt.seed, int := t.fnt.int, sw := t.fnt.sw, katBusy := t.fnt.katBusy, part := t.fnt.part, rngDead := t.fnt.rngDead }, pb0 := t.pb0, pb1 := t.pb1 } ∧ OtherRegs s t [Reg.PB_STAT, Reg.PB_CMD, Reg.PB_LEN, Reg.PB_ERR, Reg.PB_STAT_1, Reg.PB_CMD_1, Reg.PB_LEN_1, Reg.PB_ERR_1] [Reg.PAGE_STAT, Reg.INT_STAT, Reg.FAULT_CNT] [0x4D, 0x4E, 0x4F]) ∧
  (∀ (s : State) (p : PortNo) (b : Bytes), (port s p.val).phase = .t1 → (byteAt b 1) = 0xC2 → 
    Answers (.t1BlockReceive p b true) s fun t => fld t (pr p.val Reg.PB_CMD) 7 4 = 7 ∧ fld t (pr p.val Reg.PB_STAT) 31 1 = 0 ∧ (∀ i : Fin 128, reg t (pbBuf p.val + 4 * i.val) = 0) ∧ (.pin (if p.val = 0 then "PB0_VSEL" else "PB1_VSEL") (0) :: .pin (if p.val = 0 then "PB0_VCC_EN" else "PB1_VCC_EN") (0) :: .pin (if p.val = 0 then "PB0_IO" else "PB1_IO") (0) :: .pin (if p.val = 0 then "PB0_CLK" else "PB1_CLK") (0) :: .pin (if p.val = 0 then "PB0_RST" else "PB1_RST") (0) :: s.out) <:+ t.out ∧ (port t p.val).phase = .idle ∧ (port t p.val).cmd = 0 ∧ (port t p.val).clk = 0 ∧ t = { s with out := t.out, regs := t.regs, parBad := t.parBad, wins := t.wins, quay := { s.quay with msix := t.quay.msix }, kerb := { s.kerb with reports := t.kerb.reports }, fnt := { s.fnt with state := t.fnt.state, absorbed := t.fnt.absorbed, credit := t.fnt.credit, seed := t.fnt.seed, int := t.fnt.int, sw := t.fnt.sw, katBusy := t.fnt.katBusy, part := t.fnt.part, rngDead := t.fnt.rngDead }, pb0 := t.pb0, pb1 := t.pb1 } ∧ OtherRegs s t [Reg.PB_STAT, Reg.PB_CMD, Reg.PB_LEN, Reg.PB_ERR, Reg.PB_STAT_1, Reg.PB_CMD_1, Reg.PB_LEN_1, Reg.PB_ERR_1] [Reg.PAGE_STAT, Reg.INT_STAT, Reg.FAULT_CNT] [0x4D, 0x4E, 0x4F]) ∧
  (∀ (s : State) (p : PortNo) (b : Bytes), (port s p.val).phase = .t1 → (byteAt b 1) = 0xE0 → (port s p.val).resyncs ≠ 0 → 
    Answers (.t1BlockReceive p b true) s fun t => (port t p.val).ns = false ∧ (port t p.val).nr = false ∧ (port t p.val).sent = 0 ∧ (port t p.val).rx = [] ∧ t.out = .card p.val (t1Block (port s p.val) (b2n (decide (((txBytes s p.val).take (min 254 (port s p.val).ifsc)).length < (txBytes s p.val).length)) * 32) ((txBytes s p.val).take (min 254 (port s p.val).ifsc))) :: s.out ∧ t.regs = s.regs ∧ t = { s with out := t.out, regs := t.regs, parBad := t.parBad, wins := t.wins, quay := { s.quay with msix := t.quay.msix }, kerb := { s.kerb with reports := t.kerb.reports }, fnt := { s.fnt with state := t.fnt.state, absorbed := t.fnt.absorbed, credit := t.fnt.credit, seed := t.fnt.seed, int := t.fnt.int, sw := t.fnt.sw, katBusy := t.fnt.katBusy, part := t.fnt.part, rngDead := t.fnt.rngDead }, pb0 := t.pb0, pb1 := t.pb1 } ∧ OtherRegs s t [Reg.PB_STAT, Reg.PB_CMD, Reg.PB_LEN, Reg.PB_ERR, Reg.PB_STAT_1, Reg.PB_CMD_1, Reg.PB_LEN_1, Reg.PB_ERR_1] [Reg.PAGE_STAT, Reg.INT_STAT, Reg.FAULT_CNT] [0x4D, 0x4E, 0x4F]) ∧
  (∀ (s : State) (p : PortNo) (b : Bytes) (good : Bool), (port s p.val).phase = .t1 ∨ (port s p.val).phase = .ifs → (good = false ∨ ((port s p.val).phase = .t1 ∧ (byteAt b 1) < 0x80 ∧ ((port s p.val).sent + (port s p.val).lastLen < (txBytes s p.val).length ∨ (byteAt b 1).testBit 6 ≠ (port s p.val).nr)) ∨ ((port s p.val).phase = .t1 ∧ 0xC0 ≤ (byteAt b 1) ∧ (byteAt b 1) ≠ 0xC3 ∧ (byteAt b 1) ≠ 0xC1 ∧ (byteAt b 1) ≠ 0xC2 ∧ ((byteAt b 1) = 0xE0 → (port s p.val).resyncs = 0)) ∨ ((port s p.val).phase = .ifs ∧ ¬ ((byteAt b 1) = 0xE1 ∧ (sl b 3 (byteAt b 2)) = [254]) ∧ ((byteAt b 1) = 0xE0 → (port s p.val).resyncs = 0))) → (port s p.val).rblocks < 2 → (port s p.val).resyncs = 0 → 
    Answers (.t1BlockReceive p b good) s fun t => port t p.val = { port s p.val with rblocks := (port s p.val).rblocks + 1, last := t1Block (port s p.val) (0x80 + b2n (port s p.val).nr * 16 + (if good then 2 else 1)) [] } ∧ t.out = .card p.val (t1Block (port s p.val) (0x80 + b2n (port s p.val).nr * 16 + (if good then 2 else 1)) []) :: s.out ∧ fld t (pr p.val Reg.PB_ERR) 31 16 = min 65535 (fld s (pr p.val Reg.PB_ERR) 31 16 + 1) ∧ t = { s with out := t.out, regs := t.regs, parBad := t.parBad, wins := t.wins, quay := { s.quay with msix := t.quay.msix }, kerb := { s.kerb with reports := t.kerb.reports }, fnt := { s.fnt with state := t.fnt.state, absorbed := t.fnt.absorbed, credit := t.fnt.credit, seed := t.fnt.seed, int := t.fnt.int, sw := t.fnt.sw, katBusy := t.fnt.katBusy, part := t.fnt.part, rngDead := t.fnt.rngDead }, pb0 := t.pb0, pb1 := t.pb1 } ∧ OtherRegs s t [Reg.PB_STAT, Reg.PB_CMD, Reg.PB_LEN, Reg.PB_ERR, Reg.PB_STAT_1, Reg.PB_CMD_1, Reg.PB_LEN_1, Reg.PB_ERR_1] [Reg.PAGE_STAT, Reg.INT_STAT, Reg.FAULT_CNT] [0x4D, 0x4E, 0x4F]) ∧
  (∀ (s : State) (p : PortNo) (b : Bytes) (good : Bool), (port s p.val).phase = .t1 ∨ (port s p.val).phase = .ifs → (good = false ∨ ((port s p.val).phase = .t1 ∧ (byteAt b 1) < 0x80 ∧ ((port s p.val).sent + (port s p.val).lastLen < (txBytes s p.val).length ∨ (byteAt b 1).testBit 6 ≠ (port s p.val).nr)) ∨ ((port s p.val).phase = .t1 ∧ 0xC0 ≤ (byteAt b 1) ∧ (byteAt b 1) ≠ 0xC3 ∧ (byteAt b 1) ≠ 0xC1 ∧ (byteAt b 1) ≠ 0xC2 ∧ ((byteAt b 1) = 0xE0 → (port s p.val).resyncs = 0)) ∨ ((port s p.val).phase = .ifs ∧ ¬ ((byteAt b 1) = 0xE1 ∧ (sl b 3 (byteAt b 2)) = [254]) ∧ ((byteAt b 1) = 0xE0 → (port s p.val).resyncs = 0))) → 2 ≤ (port s p.val).rblocks ∨ (port s p.val).resyncs ≠ 0 → (port s p.val).resyncs < 3 → 
    Answers (.t1BlockReceive p b good) s fun t => port t p.val = { port s p.val with resyncs := (port s p.val).resyncs + 1, last := t1Block (port s p.val) 0xC0 [] } ∧ t.out = .card p.val (t1Block (port s p.val) 0xC0 []) :: s.out ∧ fld t (pr p.val Reg.PB_ERR) 31 16 = min 65535 (fld s (pr p.val Reg.PB_ERR) 31 16 + 1) ∧ t = { s with out := t.out, regs := t.regs, parBad := t.parBad, wins := t.wins, quay := { s.quay with msix := t.quay.msix }, kerb := { s.kerb with reports := t.kerb.reports }, fnt := { s.fnt with state := t.fnt.state, absorbed := t.fnt.absorbed, credit := t.fnt.credit, seed := t.fnt.seed, int := t.fnt.int, sw := t.fnt.sw, katBusy := t.fnt.katBusy, part := t.fnt.part, rngDead := t.fnt.rngDead }, pb0 := t.pb0, pb1 := t.pb1 } ∧ OtherRegs s t [Reg.PB_STAT, Reg.PB_CMD, Reg.PB_LEN, Reg.PB_ERR, Reg.PB_STAT_1, Reg.PB_CMD_1, Reg.PB_LEN_1, Reg.PB_ERR_1] [Reg.PAGE_STAT, Reg.INT_STAT, Reg.FAULT_CNT] [0x4D, 0x4E, 0x4F]) ∧
  (∀ (s : State) (p : PortNo) (b : Bytes) (good : Bool), (port s p.val).phase = .t1 ∨ (port s p.val).phase = .ifs → (good = false ∨ ((port s p.val).phase = .t1 ∧ (byteAt b 1) < 0x80 ∧ ((port s p.val).sent + (port s p.val).lastLen < (txBytes s p.val).length ∨ (byteAt b 1).testBit 6 ≠ (port s p.val).nr)) ∨ ((port s p.val).phase = .t1 ∧ 0xC0 ≤ (byteAt b 1) ∧ (byteAt b 1) ≠ 0xC3 ∧ (byteAt b 1) ≠ 0xC1 ∧ (byteAt b 1) ≠ 0xC2 ∧ ((byteAt b 1) = 0xE0 → (port s p.val).resyncs = 0)) ∨ ((port s p.val).phase = .ifs ∧ ¬ ((byteAt b 1) = 0xE1 ∧ (sl b 3 (byteAt b 2)) = [254]) ∧ ((byteAt b 1) = 0xE0 → (port s p.val).resyncs = 0))) → 3 ≤ (port s p.val).resyncs → 
    Answers (.t1BlockReceive p b good) s fun t => fld t (pr p.val Reg.PB_CMD) 7 4 = 7 ∧ fld t (pr p.val Reg.PB_STAT) 31 1 = 0 ∧ (∀ i : Fin 128, reg t (pbBuf p.val + 4 * i.val) = 0) ∧ (.pin (if p.val = 0 then "PB0_VSEL" else "PB1_VSEL") (0) :: .pin (if p.val = 0 then "PB0_VCC_EN" else "PB1_VCC_EN") (0) :: .pin (if p.val = 0 then "PB0_IO" else "PB1_IO") (0) :: .pin (if p.val = 0 then "PB0_CLK" else "PB1_CLK") (0) :: .pin (if p.val = 0 then "PB0_RST" else "PB1_RST") (0) :: s.out) <:+ t.out ∧ (port t p.val).phase = .idle ∧ (port t p.val).cmd = 0 ∧ (port t p.val).clk = 0 ∧ t = { s with out := t.out, regs := t.regs, parBad := t.parBad, wins := t.wins, quay := { s.quay with msix := t.quay.msix }, kerb := { s.kerb with reports := t.kerb.reports }, fnt := { s.fnt with state := t.fnt.state, absorbed := t.fnt.absorbed, credit := t.fnt.credit, seed := t.fnt.seed, int := t.fnt.int, sw := t.fnt.sw, katBusy := t.fnt.katBusy, part := t.fnt.part, rngDead := t.fnt.rngDead }, pb0 := t.pb0, pb1 := t.pb1 } ∧ OtherRegs s t [Reg.PB_STAT, Reg.PB_CMD, Reg.PB_LEN, Reg.PB_ERR, Reg.PB_STAT_1, Reg.PB_CMD_1, Reg.PB_LEN_1, Reg.PB_ERR_1] [Reg.PAGE_STAT, Reg.INT_STAT, Reg.FAULT_CNT] [0x4D, 0x4E, 0x4F]) ∧
  (∀ (s : State) (p : PortNo) (b : Bytes), (port s p.val).phase = .ifs → (byteAt b 1) = 0xE1 → (sl b 3 (byteAt b 2)) = [254] → (port s p.val).atr.length ≤ 33 → 
    Answers (.t1BlockReceive p b true) s fun t => fld t (pr p.val Reg.PB_CMD) 7 4 = 0 ∧ pbActive t p.val = true ∧ (port t p.val).phase = .idle ∧ (port t p.val).cmd = 0 ∧ bufGet t (pbBuf p.val) 0 (port s p.val).atr.length = (port s p.val).atr ∧ (.pin (if p.val = 0 then "PB0_CLK" else "PB1_CLK") (min (fld s (pr p.val Reg.PB_CLK) 31 16) (fiCap (fld s (pr p.val Reg.PB_STAT) 11 8))) :: s.out) <:+ t.out ∧ t = { s with out := t.out, regs := t.regs, parBad := t.parBad, wins := t.wins, quay := { s.quay with msix := t.quay.msix }, kerb := { s.kerb with reports := t.kerb.reports }, fnt := { s.fnt with state := t.fnt.state, absorbed := t.fnt.absorbed, credit := t.fnt.credit, seed := t.fnt.seed, int := t.fnt.int, sw := t.fnt.sw, katBusy := t.fnt.katBusy, part := t.fnt.part, rngDead := t.fnt.rngDead }, pb0 := t.pb0, pb1 := t.pb1 } ∧ OtherRegs s t [Reg.PB_STAT, Reg.PB_CMD, Reg.PB_LEN, Reg.PB_ERR, Reg.PB_STAT_1, Reg.PB_CMD_1, Reg.PB_LEN_1, Reg.PB_ERR_1] [Reg.PAGE_STAT, Reg.INT_STAT, Reg.FAULT_CNT] [0x4D, 0x4E, 0x4F]) ∧
  (∀ (s : State) (p : PortNo) (b : Bytes), (port s p.val).phase = .ifs → (byteAt b 1) = 0xE0 → (port s p.val).resyncs ≠ 0 → 
    Answers (.t1BlockReceive p b true) s fun t => (port t p.val).phase = .ifs ∧ (port t p.val).ns = false ∧ (port t p.val).nr = false ∧ t.out = .card p.val (t1Block (port s p.val) 0xC1 [254]) :: s.out ∧ t.regs = s.regs ∧ t = { s with out := t.out, regs := t.regs, parBad := t.parBad, wins := t.wins, quay := { s.quay with msix := t.quay.msix }, kerb := { s.kerb with reports := t.kerb.reports }, fnt := { s.fnt with state := t.fnt.state, absorbed := t.fnt.absorbed, credit := t.fnt.credit, seed := t.fnt.seed, int := t.fnt.int, sw := t.fnt.sw, katBusy := t.fnt.katBusy, part := t.fnt.part, rngDead := t.fnt.rngDead }, pb0 := t.pb0, pb1 := t.pb1 } ∧ OtherRegs s t [Reg.PB_STAT, Reg.PB_CMD, Reg.PB_LEN, Reg.PB_ERR, Reg.PB_STAT_1, Reg.PB_CMD_1, Reg.PB_LEN_1, Reg.PB_ERR_1] [Reg.PAGE_STAT, Reg.INT_STAT, Reg.FAULT_CNT] [0x4D, 0x4E, 0x4F]) ∧
  (∀ (s : State) (p : PortNo) (b : Bytes) (good : Bool), (port s p.val).phase ≠ .t1 → (port s p.val).phase ≠ .ifs → 
    Answers (.t1BlockReceive p b good) s fun t => t = s) ∧
  (∀ (s : State) (p : PortNo), inT0 (port s p.val) = true → 
    Answers (.cardWaitTimeout p) s fun t => fld t (pr p.val Reg.PB_CMD) 7 4 = 5 ∧ fld t (pr p.val Reg.PB_STAT) 31 1 = 0 ∧ (∀ i : Fin 128, reg t (pbBuf p.val + 4 * i.val) = 0) ∧ (.pin (if p.val = 0 then "PB0_VSEL" else "PB1_VSEL") (0) :: .pin (if p.val = 0 then "PB0_VCC_EN" else "PB1_VCC_EN") (0) :: .pin (if p.val = 0 then "PB0_IO" else "PB1_IO") (0) :: .pin (if p.val = 0 then "PB0_CLK" else "PB1_CLK") (0) :: .pin (if p.val = 0 then "PB0_RST" else "PB1_RST") (0) :: s.out) <:+ t.out ∧ (port t p.val).phase = .idle ∧ (port t p.val).cmd = 0 ∧ (port t p.val).clk = 0 ∧ t = { s with out := t.out, regs := t.regs, parBad := t.parBad, wins := t.wins, quay := { s.quay with msix := t.quay.msix }, kerb := { s.kerb with reports := t.kerb.reports }, fnt := { s.fnt with state := t.fnt.state, absorbed := t.fnt.absorbed, credit := t.fnt.credit, seed := t.fnt.seed, int := t.fnt.int, sw := t.fnt.sw, katBusy := t.fnt.katBusy, part := t.fnt.part, rngDead := t.fnt.rngDead }, pb0 := t.pb0, pb1 := t.pb1 } ∧ OtherRegs s t [Reg.PB_STAT, Reg.PB_CMD, Reg.PB_ERR, Reg.PB_STAT_1, Reg.PB_CMD_1, Reg.PB_ERR_1] [Reg.PAGE_STAT, Reg.INT_STAT, Reg.FAULT_CNT] [0x4D, 0x4E, 0x4F]) ∧
  (∀ (s : State) (p : PortNo), (port s p.val).phase = .atr → (port s p.val).classes = [] → 
    Answers (.cardWaitTimeout p) s fun t => fld t (pr p.val Reg.PB_CMD) 7 4 = 2 ∧ fld t (pr p.val Reg.PB_STAT) 31 1 = 0 ∧ (∀ i : Fin 128, reg t (pbBuf p.val + 4 * i.val) = 0) ∧ (.pin (if p.val = 0 then "PB0_VSEL" else "PB1_VSEL") (0) :: .pin (if p.val = 0 then "PB0_VCC_EN" else "PB1_VCC_EN") (0) :: .pin (if p.val = 0 then "PB0_IO" else "PB1_IO") (0) :: .pin (if p.val = 0 then "PB0_CLK" else "PB1_CLK") (0) :: .pin (if p.val = 0 then "PB0_RST" else "PB1_RST") (0) :: s.out) <:+ t.out ∧ (port t p.val).phase = .idle ∧ (port t p.val).cmd = 0 ∧ (port t p.val).clk = 0 ∧ t = { s with out := t.out, regs := t.regs, parBad := t.parBad, wins := t.wins, quay := { s.quay with msix := t.quay.msix }, kerb := { s.kerb with reports := t.kerb.reports }, fnt := { s.fnt with state := t.fnt.state, absorbed := t.fnt.absorbed, credit := t.fnt.credit, seed := t.fnt.seed, int := t.fnt.int, sw := t.fnt.sw, katBusy := t.fnt.katBusy, part := t.fnt.part, rngDead := t.fnt.rngDead }, pb0 := t.pb0, pb1 := t.pb1 } ∧ OtherRegs s t [Reg.PB_STAT, Reg.PB_CMD, Reg.PB_ERR, Reg.PB_STAT_1, Reg.PB_CMD_1, Reg.PB_ERR_1] [Reg.PAGE_STAT, Reg.INT_STAT, Reg.FAULT_CNT] [0x4D, 0x4E, 0x4F]) ∧
  (∀ (s : State) (p : PortNo) (c : Nat) (l : List Nat), (port s p.val).phase = .atr → (port s p.val).classes = c :: l → 
    Answers (.cardWaitTimeout p) s fun t => port t p.val = { cmd := (port s p.val).cmd, phase := .retry, classes := c :: l } ∧ fld t (pr p.val Reg.PB_STAT) 31 1 = 0 ∧ (∀ i : Fin 128, reg t (pbBuf p.val + 4 * i.val) = 0) ∧ (.pin (if p.val = 0 then "PB0_VSEL" else "PB1_VSEL") (0) :: .pin (if p.val = 0 then "PB0_VCC_EN" else "PB1_VCC_EN") (0) :: .pin (if p.val = 0 then "PB0_IO" else "PB1_IO") (0) :: .pin (if p.val = 0 then "PB0_CLK" else "PB1_CLK") (0) :: .pin (if p.val = 0 then "PB0_RST" else "PB1_RST") (0) :: s.out) <:+ t.out ∧ t = { s with out := t.out, regs := t.regs, parBad := t.parBad, wins := t.wins, quay := { s.quay with msix := t.quay.msix }, kerb := { s.kerb with reports := t.kerb.reports }, fnt := { s.fnt with state := t.fnt.state, absorbed := t.fnt.absorbed, credit := t.fnt.credit, seed := t.fnt.seed, int := t.fnt.int, sw := t.fnt.sw, katBusy := t.fnt.katBusy, part := t.fnt.part, rngDead := t.fnt.rngDead }, pb0 := t.pb0, pb1 := t.pb1 } ∧ OtherRegs s t [Reg.PB_STAT, Reg.PB_CMD, Reg.PB_ERR, Reg.PB_STAT_1, Reg.PB_CMD_1, Reg.PB_ERR_1] [Reg.PAGE_STAT, Reg.INT_STAT, Reg.FAULT_CNT] [0x4D, 0x4E, 0x4F]) ∧
  (∀ (s : State) (p : PortNo), (port s p.val).phase = .pps → 
    Answers (.cardWaitTimeout p) s fun t => port t p.val = { cmd := (port s p.val).cmd, noPps := true, phase := .atr, classes := (port s p.val).classes, clk := fld s (pr p.val Reg.PB_CLK) 15 0 } ∧ fld t (pr p.val Reg.PB_STAT) 3 2 = fld s (pr p.val Reg.PB_STAT) 3 2 ∧ t.out = .pin (if p.val = 0 then "PB0_RST" else "PB1_RST") (1) :: .pin (if p.val = 0 then "PB0_RST" else "PB1_RST") (0) :: .pin (if p.val = 0 then "PB0_CLK" else "PB1_CLK") (fld s (pr p.val Reg.PB_CLK) 15 0) :: .pin (if p.val = 0 then "PB0_IO" else "PB1_IO") (1) :: .pin (if p.val = 0 then "PB0_VCC_EN" else "PB1_VCC_EN") (1) :: .pin (if p.val = 0 then "PB0_VSEL" else "PB1_VSEL") (fld s (pr p.val Reg.PB_STAT) 3 2) :: .pin (if p.val = 0 then "PB0_VSEL" else "PB1_VSEL") (0) :: .pin (if p.val = 0 then "PB0_VCC_EN" else "PB1_VCC_EN") (0) :: .pin (if p.val = 0 then "PB0_IO" else "PB1_IO") (0) :: .pin (if p.val = 0 then "PB0_CLK" else "PB1_CLK") (0) :: .pin (if p.val = 0 then "PB0_RST" else "PB1_RST") (0) :: s.out ∧ t = { s with out := t.out, regs := t.regs, parBad := t.parBad, wins := t.wins, quay := { s.quay with msix := t.quay.msix }, kerb := { s.kerb with reports := t.kerb.reports }, fnt := { s.fnt with state := t.fnt.state, absorbed := t.fnt.absorbed, credit := t.fnt.credit, seed := t.fnt.seed, int := t.fnt.int, sw := t.fnt.sw, katBusy := t.fnt.katBusy, part := t.fnt.part, rngDead := t.fnt.rngDead }, pb0 := t.pb0, pb1 := t.pb1 } ∧ OtherRegs s t [Reg.PB_STAT, Reg.PB_CMD, Reg.PB_ERR, Reg.PB_STAT_1, Reg.PB_CMD_1, Reg.PB_ERR_1] [Reg.PAGE_STAT, Reg.INT_STAT, Reg.FAULT_CNT] [0x4D, 0x4E, 0x4F]) ∧
  (∀ (s : State) (p : PortNo), (port s p.val).phase = .t1 ∨ (port s p.val).phase = .ifs → (port s p.val).rblocks < 2 → (port s p.val).resyncs = 0 → 
    Answers (.cardWaitTimeout p) s fun t => port t p.val = { port s p.val with rblocks := (port s p.val).rblocks + 1, last := t1Block (port s p.val) (0x80 + b2n (port s p.val).nr * 16 + 2) [] } ∧ t.out = .card p.val (t1Block (port s p.val) (0x80 + b2n (port s p.val).nr * 16 + 2) []) :: s.out ∧ fld t (pr p.val Reg.PB_ERR) 31 16 = min 65535 (fld s (pr p.val Reg.PB_ERR) 31 16 + 1) ∧ t = { s with out := t.out, regs := t.regs, parBad := t.parBad, wins := t.wins, quay := { s.quay with msix := t.quay.msix }, kerb := { s.kerb with reports := t.kerb.reports }, fnt := { s.fnt with state := t.fnt.state, absorbed := t.fnt.absorbed, credit := t.fnt.credit, seed := t.fnt.seed, int := t.fnt.int, sw := t.fnt.sw, katBusy := t.fnt.katBusy, part := t.fnt.part, rngDead := t.fnt.rngDead }, pb0 := t.pb0, pb1 := t.pb1 } ∧ OtherRegs s t [Reg.PB_STAT, Reg.PB_CMD, Reg.PB_ERR, Reg.PB_STAT_1, Reg.PB_CMD_1, Reg.PB_ERR_1] [Reg.PAGE_STAT, Reg.INT_STAT, Reg.FAULT_CNT] [0x4D, 0x4E, 0x4F]) ∧
  (∀ (s : State) (p : PortNo), (port s p.val).phase = .t1 ∨ (port s p.val).phase = .ifs → 2 ≤ (port s p.val).rblocks ∨ (port s p.val).resyncs ≠ 0 → (port s p.val).resyncs < 3 → 
    Answers (.cardWaitTimeout p) s fun t => port t p.val = { port s p.val with resyncs := (port s p.val).resyncs + 1, last := t1Block (port s p.val) 0xC0 [] } ∧ t.out = .card p.val (t1Block (port s p.val) 0xC0 []) :: s.out ∧ fld t (pr p.val Reg.PB_ERR) 31 16 = min 65535 (fld s (pr p.val Reg.PB_ERR) 31 16 + 1) ∧ t = { s with out := t.out, regs := t.regs, parBad := t.parBad, wins := t.wins, quay := { s.quay with msix := t.quay.msix }, kerb := { s.kerb with reports := t.kerb.reports }, fnt := { s.fnt with state := t.fnt.state, absorbed := t.fnt.absorbed, credit := t.fnt.credit, seed := t.fnt.seed, int := t.fnt.int, sw := t.fnt.sw, katBusy := t.fnt.katBusy, part := t.fnt.part, rngDead := t.fnt.rngDead }, pb0 := t.pb0, pb1 := t.pb1 } ∧ OtherRegs s t [Reg.PB_STAT, Reg.PB_CMD, Reg.PB_ERR, Reg.PB_STAT_1, Reg.PB_CMD_1, Reg.PB_ERR_1] [Reg.PAGE_STAT, Reg.INT_STAT, Reg.FAULT_CNT] [0x4D, 0x4E, 0x4F]) ∧
  (∀ (s : State) (p : PortNo), (port s p.val).phase = .t1 ∨ (port s p.val).phase = .ifs → 3 ≤ (port s p.val).resyncs → 
    Answers (.cardWaitTimeout p) s fun t => fld t (pr p.val Reg.PB_CMD) 7 4 = 7 ∧ fld t (pr p.val Reg.PB_STAT) 31 1 = 0 ∧ (∀ i : Fin 128, reg t (pbBuf p.val + 4 * i.val) = 0) ∧ (.pin (if p.val = 0 then "PB0_VSEL" else "PB1_VSEL") (0) :: .pin (if p.val = 0 then "PB0_VCC_EN" else "PB1_VCC_EN") (0) :: .pin (if p.val = 0 then "PB0_IO" else "PB1_IO") (0) :: .pin (if p.val = 0 then "PB0_CLK" else "PB1_CLK") (0) :: .pin (if p.val = 0 then "PB0_RST" else "PB1_RST") (0) :: s.out) <:+ t.out ∧ (port t p.val).phase = .idle ∧ (port t p.val).cmd = 0 ∧ (port t p.val).clk = 0 ∧ t = { s with out := t.out, regs := t.regs, parBad := t.parBad, wins := t.wins, quay := { s.quay with msix := t.quay.msix }, kerb := { s.kerb with reports := t.kerb.reports }, fnt := { s.fnt with state := t.fnt.state, absorbed := t.fnt.absorbed, credit := t.fnt.credit, seed := t.fnt.seed, int := t.fnt.int, sw := t.fnt.sw, katBusy := t.fnt.katBusy, part := t.fnt.part, rngDead := t.fnt.rngDead }, pb0 := t.pb0, pb1 := t.pb1 } ∧ OtherRegs s t [Reg.PB_STAT, Reg.PB_CMD, Reg.PB_ERR, Reg.PB_STAT_1, Reg.PB_CMD_1, Reg.PB_ERR_1] [Reg.PAGE_STAT, Reg.INT_STAT, Reg.FAULT_CNT] [0x4D, 0x4E, 0x4F]) ∧
  (∀ (s : State) (p : PortNo), (port s p.val).phase = .idle ∨ (port s p.val).phase = .retry → 
    Answers (.cardWaitTimeout p) s fun t => t = s) ∧
  (∀ (s : State) (p : PortNo) (c : Nat) (l : List Nat), (port s p.val).phase = .retry → (port s p.val).classes = c :: l → c < 4 → 
    Answers (.classRetry p) s fun t => port t p.val = { cmd := (port s p.val).cmd, classes := l, phase := .atr, clk := fld s (pr p.val Reg.PB_CLK) 15 0 } ∧ fld t (pr p.val Reg.PB_STAT) 3 2 = c ∧ t.out = .pin (if p.val = 0 then "PB0_RST" else "PB1_RST") (1) :: .pin (if p.val = 0 then "PB0_RST" else "PB1_RST") (0) :: .pin (if p.val = 0 then "PB0_CLK" else "PB1_CLK") (fld s (pr p.val Reg.PB_CLK) 15 0) :: .pin (if p.val = 0 then "PB0_IO" else "PB1_IO") (1) :: .pin (if p.val = 0 then "PB0_VCC_EN" else "PB1_VCC_EN") (1) :: .pin (if p.val = 0 then "PB0_VSEL" else "PB1_VSEL") (c) :: s.out ∧ t = { s with out := t.out, regs := t.regs, parBad := t.parBad, pb0 := { s.pb0 with phase := t.pb0.phase, clk := t.pb0.clk, classes := t.pb0.classes, noPps := t.pb0.noPps, atr := t.pb0.atr, ifsc := t.pb0.ifsc, crc := t.pb0.crc, sent := t.pb0.sent, rx := t.pb0.rx, sw1 := t.pb0.sw1, repAt := t.pb0.repAt, rep := t.pb0.rep, ns := t.pb0.ns, nr := t.pb0.nr, lastLen := t.pb0.lastLen, last := t.pb0.last, rblocks := t.pb0.rblocks, resyncs := t.pb0.resyncs }, pb1 := { s.pb1 with phase := t.pb1.phase, clk := t.pb1.clk, classes := t.pb1.classes, noPps := t.pb1.noPps, atr := t.pb1.atr, ifsc := t.pb1.ifsc, crc := t.pb1.crc, sent := t.pb1.sent, rx := t.pb1.rx, sw1 := t.pb1.sw1, repAt := t.pb1.repAt, rep := t.pb1.rep, ns := t.pb1.ns, nr := t.pb1.nr, lastLen := t.pb1.lastLen, last := t.pb1.last, rblocks := t.pb1.rblocks, resyncs := t.pb1.resyncs } } ∧ OtherRegs s t [Reg.PB_STAT, Reg.PB_STAT_1] [] []) ∧
  (∀ (s : State) (p : PortNo), (port s p.val).phase ≠ .retry ∨ (port s p.val).classes = [] → 
    Answers (.classRetry p) s fun t => t = s) ∧
  (∀ (s : State) (p : PortNo), pbPresent s p.val = true → domOn s 23 = true → pbBusy s p.val = true → 
    Answers (.pbRemove p) s fun t => pbPresent t p.val = false ∧ fld t (pr p.val Reg.PB_CMD) 7 4 = 8 ∧ fld t (pr p.val Reg.PB_STAT) 31 1 = 0 ∧ (∀ i : Fin 128, reg t (pbBuf p.val + 4 * i.val) = 0) ∧ (.pin (if p.val = 0 then "PB0_VSEL" else "PB1_VSEL") (0) :: .pin (if p.val = 0 then "PB0_VCC_EN" else "PB1_VCC_EN") (0) :: .pin (if p.val = 0 then "PB0_IO" else "PB1_IO") (0) :: .pin (if p.val = 0 then "PB0_CLK" else "PB1_CLK") (0) :: .pin (if p.val = 0 then "PB0_RST" else "PB1_RST") (0) :: s.out) <:+ t.out ∧ (port t p.val).phase = .idle ∧ (port t p.val).cmd = 0 ∧ (port t p.val).clk = 0 ∧ rbit t (rk 0x4D Reg.INT_STAT) (4 + p.val) = true ∧ t = { s with out := t.out, regs := t.regs, parBad := t.parBad, wins := t.wins, quay := { s.quay with msix := t.quay.msix }, kerb := { s.kerb with reports := t.kerb.reports }, fnt := { s.fnt with state := t.fnt.state, absorbed := t.fnt.absorbed, credit := t.fnt.credit, seed := t.fnt.seed, int := t.fnt.int, sw := t.fnt.sw, katBusy := t.fnt.katBusy, part := t.fnt.part, rngDead := t.fnt.rngDead }, pb0 := t.pb0, pb1 := t.pb1 } ∧ OtherRegs s t [Reg.PB_STAT, Reg.PB_CMD, Reg.PB_STAT_1, Reg.PB_CMD_1] [Reg.PAGE_STAT, Reg.INT_STAT, Reg.FAULT_CNT] [0x4D, 0x4E, 0x4F]) ∧
  (∀ (s : State) (p : PortNo), pbPresent s p.val = true → domOn s 23 = true → pbBusy s p.val = false → 
    Answers (.pbRemove p) s fun t => pbPresent t p.val = false ∧ rbit t (rk 0x4D Reg.INT_STAT) (4 + p.val) = true ∧ (pbActive s p.val = true → fld t (pr p.val Reg.PB_STAT) 31 1 = 0 ∧ (∀ i : Fin 128, reg t (pbBuf p.val + 4 * i.val) = 0) ∧ (.pin (if p.val = 0 then "PB0_VSEL" else "PB1_VSEL") (0) :: .pin (if p.val = 0 then "PB0_VCC_EN" else "PB1_VCC_EN") (0) :: .pin (if p.val = 0 then "PB0_IO" else "PB1_IO") (0) :: .pin (if p.val = 0 then "PB0_CLK" else "PB1_CLK") (0) :: .pin (if p.val = 0 then "PB0_RST" else "PB1_RST") (0) :: s.out) <:+ t.out) ∧ (pbActive s p.val = false → port t p.val = port s p.val) ∧ t = { s with out := t.out, regs := t.regs, parBad := t.parBad, wins := t.wins, quay := { s.quay with msix := t.quay.msix }, kerb := { s.kerb with reports := t.kerb.reports }, fnt := { s.fnt with state := t.fnt.state, absorbed := t.fnt.absorbed, credit := t.fnt.credit, seed := t.fnt.seed, int := t.fnt.int, sw := t.fnt.sw, katBusy := t.fnt.katBusy, part := t.fnt.part, rngDead := t.fnt.rngDead }, pb0 := t.pb0, pb1 := t.pb1 } ∧ OtherRegs s t [Reg.PB_STAT, Reg.PB_CMD, Reg.PB_STAT_1, Reg.PB_CMD_1] [Reg.PAGE_STAT, Reg.INT_STAT, Reg.FAULT_CNT] [0x4D, 0x4E, 0x4F]) ∧
  (∀ (s : State) (p : PortNo), pbPresent s p.val = false ∨ domOn s 23 = false → 
    Answers (.pbRemove p) s fun t => t = s) ∧
  (∀ (s : State) (p : PortNo), pbPresent s p.val = false → domOn s 23 = true → 
    Answers (.pbInsert p) s fun t => pbPresent t p.val = true ∧ rbit t (rk 0x4D Reg.INT_STAT) (2 + p.val) = true ∧ port t p.val = port s p.val ∧ t = { s with out := t.out, regs := t.regs, parBad := t.parBad, quay := { s.quay with msix := t.quay.msix } } ∧ OtherRegs s t [Reg.PB_STAT, Reg.PB_STAT_1] [Reg.INT_STAT] []) ∧
  (∀ (s : State) (p : PortNo), pbPresent s p.val = true ∨ domOn s 23 = false → 
    Answers (.pbInsert p) s fun t => t = s)

/-- A mode written while nothing works takes effect, otherwise when it ends; reader commands send their frames and replies end them, and without READER mode, in lockdown, in an external field or while BUSY they end or are recorded; pings compare or calibrate; the field, tag frames and APDUs act on the tag and its session; KICK mutes; the mailbox is granted, released and timed; COMMIT stages a Placard and its completion stores it. What does not belong to the state in hand does nothing. Each clause names what may change beside; every other part of the state and every other register is as before. Forms whose completion it states: kioskModeWrite, modeChangeApply, pollA, pollB, transceive, readerHalt, readerFrameReceive, fwtExpire, lpcdPing, lpcdCalibrate, fieldOn, fieldOff, tagFrame, tagApdu, wtxExpire, kick, muteEnd, plcCommit, plcCommitDone, mbxHold. (R496, R497, R498, R500, R501, R502, R503, R504, R505, R506, R507, R508) -/
def Obligations.KioskEffects : Prop :=
  (∀ (s : State) (src : Src) (v : BitVec 2), Reaches s src Reg.KIOSK_MODE → kioskWorks s = false → 
    Answers (.kioskModeWrite src v) s fun t => kMode t = v.toNat ∧ fld t Reg.KIOSK_MODE 31 0 = v.toNat ∧ rbit t Reg.KIOSK_STAT 4 = false ∧ t.kiosk.pend = none ∧ (v ≠ 1 → t.kiosk.carrier = false) ∧ (kMode s = 2 → v ≠ 2 → t.kiosk.latched = none ∧ t.kiosk.tag = .idle) ∧ t = { s with out := t.out, regs := t.regs, parBad := t.parBad, quay := { s.quay with msix := t.quay.msix }, kiosk := { s.kiosk with pend := t.kiosk.pend, carrier := t.kiosk.carrier, tag := t.kiosk.tag, harv := t.kiosk.harv, latched := t.kiosk.latched, app := t.kiosk.app, file := t.kiosk.file, wtx := t.kiosk.wtx, plc := t.kiosk.plc } } ∧ OtherRegs s t [Reg.KIOSK_MODE, Reg.KIOSK_STAT, Reg.KIOSK_HARV_STAT] [Reg.INT_STAT, Reg.ERR_SYND, Reg.ERR_ADDR] []) ∧
  (∀ (s : State) (src : Src) (v : BitVec 2), Reaches s src Reg.KIOSK_MODE → kioskWorks s = true → 
    Answers (.kioskModeWrite src v) s fun t => kMode t = kMode s ∧ fld t Reg.KIOSK_MODE 31 0 = v.toNat ∧ rbit t Reg.KIOSK_STAT 4 = true ∧ t.kiosk = { s.kiosk with pend := some v.toNat } ∧ t = { s with out := t.out, regs := t.regs, parBad := t.parBad, quay := { s.quay with msix := t.quay.msix }, kiosk := { s.kiosk with pend := t.kiosk.pend, carrier := t.kiosk.carrier, tag := t.kiosk.tag, harv := t.kiosk.harv, latched := t.kiosk.latched, app := t.kiosk.app, file := t.kiosk.file, wtx := t.kiosk.wtx, plc := t.kiosk.plc } } ∧ OtherRegs s t [Reg.KIOSK_MODE, Reg.KIOSK_STAT, Reg.KIOSK_HARV_STAT] [Reg.INT_STAT, Reg.ERR_SYND, Reg.ERR_ADDR] []) ∧
  (∀ (s : State) (m : Nat), s.kiosk.pend = some m → m < 4 → kioskWorks s = false → 
    Answers (.modeChangeApply) s fun t => kMode t = m ∧ rbit t Reg.KIOSK_STAT 4 = false ∧ t.kiosk.pend = none ∧ (m ≠ 1 → t.kiosk.carrier = false) ∧ (kMode s = 2 → m ≠ 2 → t.kiosk.latched = none ∧ t.kiosk.tag = .idle) ∧ t = { s with out := t.out, regs := t.regs, parBad := t.parBad, quay := { s.quay with msix := t.quay.msix }, kiosk := { s.kiosk with pend := t.kiosk.pend, carrier := t.kiosk.carrier, tag := t.kiosk.tag, harv := t.kiosk.harv, latched := t.kiosk.latched, app := t.kiosk.app, file := t.kiosk.file, wtx := t.kiosk.wtx, plc := t.kiosk.plc } } ∧ OtherRegs s t [Reg.KIOSK_STAT, Reg.KIOSK_HARV_STAT] [Reg.INT_STAT] []) ∧
  (∀ (s : State), s.kiosk.pend = none ∨ kioskWorks s = true → 
    Answers (.modeChangeApply) s fun t => t = s) ∧
  (∀ (s : State) (src : Src) (ext : Bool), Reaches s src Reg.KIOSK_RD_CMD → s.kiosk.rd = none → s.kerb.lockdown = false → kMode s = 1 → s.kiosk.carrier = true ∨ (ext = false ∧ s.kiosk.field = false) → 
    Answers (.pollA src ext) s fun t => t.kiosk = { s.kiosk with carrier := true, rd := some .atqa } ∧ t.out = .reader [if rbit s Reg.KIOSK_RD_CFG 5 then 0x52 else 0x26] (fld s Reg.KIOSK_RD_CFG 1 0) :: (if s.kiosk.carrier then s.out else .pin "CARRIER" 1 :: s.out) ∧ fld t Reg.KIOSK_RD_LEN 24 16 = 0 ∧ t = { s with out := t.out, regs := t.regs, parBad := t.parBad, quay := { s.quay with msix := t.quay.msix }, kiosk := { s.kiosk with pend := t.kiosk.pend, rd := t.kiosk.rd, carrier := t.kiosk.carrier, tag := t.kiosk.tag, harv := t.kiosk.harv, latched := t.kiosk.latched, app := t.kiosk.app, file := t.kiosk.file, wtx := t.kiosk.wtx, plc := t.kiosk.plc } } ∧ OtherRegs s t [Reg.KIOSK_STAT, Reg.KIOSK_RD_CMD, Reg.KIOSK_RD_LEN, Reg.KIOSK_HARV_STAT] [Reg.INT_STAT, Reg.ERR_SYND, Reg.ERR_ADDR] []) ∧
  (∀ (s : State) (src : Src) (ext : Bool), Reaches s src Reg.KIOSK_RD_CMD → s.kiosk.rd = none → s.kerb.lockdown = false → kMode s = 1 → s.kiosk.carrier = true ∨ (ext = false ∧ s.kiosk.field = false) → 
    Answers (.pollB src ext) s fun t => t.kiosk = { s.kiosk with carrier := true, rd := some .atqb } ∧ t.out = .reader ([0x05, BitVec.ofNat 8 (fld s Reg.KIOSK_RD_CFG 23 16), (if rbit s Reg.KIOSK_RD_CFG 5 then 8 else 0 : Byte)] ++ crcAB true [0x05, BitVec.ofNat 8 (fld s Reg.KIOSK_RD_CFG 23 16), (if rbit s Reg.KIOSK_RD_CFG 5 then 8 else 0 : Byte)]) (fld s Reg.KIOSK_RD_CFG 1 0) :: (if s.kiosk.carrier then s.out else .pin "CARRIER" 1 :: s.out) ∧ fld t Reg.KIOSK_RD_LEN 24 16 = 0 ∧ t = { s with out := t.out, regs := t.regs, parBad := t.parBad, quay := { s.quay with msix := t.quay.msix }, kiosk := { s.kiosk with pend := t.kiosk.pend, rd := t.kiosk.rd, carrier := t.kiosk.carrier, tag := t.kiosk.tag, harv := t.kiosk.harv, latched := t.kiosk.latched, app := t.kiosk.app, file := t.kiosk.file, wtx := t.kiosk.wtx, plc := t.kiosk.plc } } ∧ OtherRegs s t [Reg.KIOSK_STAT, Reg.KIOSK_RD_CMD, Reg.KIOSK_RD_LEN, Reg.KIOSK_HARV_STAT] [Reg.INT_STAT, Reg.ERR_SYND, Reg.ERR_ADDR] []) ∧
  (∀ (s : State) (src : Src) (ext : Bool), Reaches s src Reg.KIOSK_RD_CMD → s.kiosk.rd = none → s.kerb.lockdown = false → kMode s = 1 → s.kiosk.carrier = true ∨ (ext = false ∧ s.kiosk.field = false) → 0 < (fld s Reg.KIOSK_RD_LEN 8 0) → (fld s Reg.KIOSK_RD_LEN 8 0) ≤ 254 → 
    Answers (.transceive src ext) s fun t => t.kiosk = { s.kiosk with carrier := true, rd := some .reply } ∧ t.out = .reader ((bufGet s rdBuf 0 (fld s Reg.KIOSK_RD_LEN 8 0)) ++ crcAB (rbit s Reg.KIOSK_RD_CFG 4) (bufGet s rdBuf 0 (fld s Reg.KIOSK_RD_LEN 8 0))) (fld s Reg.KIOSK_RD_CFG 1 0) :: (if s.kiosk.carrier then s.out else .pin "CARRIER" 1 :: s.out) ∧ fld t Reg.KIOSK_RD_LEN 24 16 = 0 ∧ t = { s with out := t.out, regs := t.regs, parBad := t.parBad, quay := { s.quay with msix := t.quay.msix }, kiosk := { s.kiosk with pend := t.kiosk.pend, rd := t.kiosk.rd, carrier := t.kiosk.carrier, tag := t.kiosk.tag, harv := t.kiosk.harv, latched := t.kiosk.latched, app := t.kiosk.app, file := t.kiosk.file, wtx := t.kiosk.wtx, plc := t.kiosk.plc } } ∧ OtherRegs s t [Reg.KIOSK_STAT, Reg.KIOSK_RD_CMD, Reg.KIOSK_RD_LEN, Reg.KIOSK_HARV_STAT] [Reg.INT_STAT, Reg.ERR_SYND, Reg.ERR_ADDR] []) ∧
  (∀ (s : State) (src : Src) (ext : Bool), Reaches s src Reg.KIOSK_RD_CMD → s.kiosk.rd = none → s.kerb.lockdown = false → kMode s = 1 → s.kiosk.carrier = true ∨ (ext = false ∧ s.kiosk.field = false) → (fld s Reg.KIOSK_RD_LEN 8 0) = 0 ∨ 254 < (fld s Reg.KIOSK_RD_LEN 8 0) → 
    Answers (.transceive src ext) s fun t => fld t Reg.KIOSK_RD_CMD 7 4 = 9 ∧ (s.kiosk.pend = none → t.kiosk = s.kiosk) ∧ t.kiosk.rd = none ∧ t = { s with out := t.out, regs := t.regs, parBad := t.parBad, quay := { s.quay with msix := t.quay.msix }, kiosk := { s.kiosk with pend := t.kiosk.pend, rd := t.kiosk.rd, carrier := t.kiosk.carrier, tag := t.kiosk.tag, harv := t.kiosk.harv, latched := t.kiosk.latched, app := t.kiosk.app, file := t.kiosk.file, wtx := t.kiosk.wtx, plc := t.kiosk.plc } } ∧ OtherRegs s t [Reg.KIOSK_STAT, Reg.KIOSK_RD_CMD, Reg.KIOSK_RD_LEN, Reg.KIOSK_HARV_STAT] [Reg.INT_STAT, Reg.ERR_SYND, Reg.ERR_ADDR] []) ∧
  (∀ (s : State) (src : Src) (ext : Bool), Reaches s src Reg.KIOSK_RD_CMD → s.kiosk.rd = none → s.kerb.lockdown = false → kMode s = 1 → s.kiosk.carrier = true ∨ (ext = false ∧ s.kiosk.field = false) → 
    Answers (.readerHalt src ext) s fun t => fld t Reg.KIOSK_RD_CMD 7 4 = 0 ∧ t.kiosk.rd = none ∧ (s.kiosk.pend = none → t.kiosk.carrier = true) ∧ Out.reader ((if rbit s Reg.KIOSK_RD_CFG 4 then 0x50 :: bufGet s rdBuf 0 4 else [0x50, 0x00] : Bytes) ++ crcAB (rbit s Reg.KIOSK_RD_CFG 4) (if rbit s Reg.KIOSK_RD_CFG 4 then 0x50 :: bufGet s rdBuf 0 4 else [0x50, 0x00] : Bytes)) (fld s Reg.KIOSK_RD_CFG 1 0) ∈ t.out ∧ t = { s with out := t.out, regs := t.regs, parBad := t.parBad, quay := { s.quay with msix := t.quay.msix }, kiosk := { s.kiosk with pend := t.kiosk.pend, rd := t.kiosk.rd, carrier := t.kiosk.carrier, tag := t.kiosk.tag, harv := t.kiosk.harv, latched := t.kiosk.latched, app := t.kiosk.app, file := t.kiosk.file, wtx := t.kiosk.wtx, plc := t.kiosk.plc } } ∧ OtherRegs s t [Reg.KIOSK_STAT, Reg.KIOSK_RD_CMD, Reg.KIOSK_RD_LEN, Reg.KIOSK_HARV_STAT] [Reg.INT_STAT, Reg.ERR_SYND, Reg.ERR_ADDR] []) ∧
  (∀ (s : State) (src : Src) (ext : Bool), Reaches s src Reg.KIOSK_RD_CMD → s.kiosk.rd.isSome = true → rbit s (rk 0x4E Reg.ERR_SYND) 23 = false → 
    Answers (.pollA src ext) s fun t => fld t (rk 0x4E Reg.ERR_SYND) 31 24 = 0x10 ∧ reg t (rk 0x4E Reg.ERR_ADDR) = 1 ∧ t.kiosk = s.kiosk ∧ t = { s with out := t.out, regs := t.regs, parBad := t.parBad, quay := { s.quay with msix := t.quay.msix }, kiosk := { s.kiosk with pend := t.kiosk.pend, rd := t.kiosk.rd, carrier := t.kiosk.carrier, tag := t.kiosk.tag, harv := t.kiosk.harv, latched := t.kiosk.latched, app := t.kiosk.app, file := t.kiosk.file, wtx := t.kiosk.wtx, plc := t.kiosk.plc } } ∧ OtherRegs s t [Reg.KIOSK_STAT, Reg.KIOSK_RD_CMD, Reg.KIOSK_RD_LEN, Reg.KIOSK_HARV_STAT] [Reg.INT_STAT, Reg.ERR_SYND, Reg.ERR_ADDR] []) ∧
  (∀ (s : State) (src : Src) (ext : Bool), Reaches s src Reg.KIOSK_RD_CMD → s.kiosk.rd = none → s.kerb.lockdown = true → 
    Answers (.pollA src ext) s fun t => fld t Reg.KIOSK_RD_CMD 7 4 = 6 ∧ (s.kiosk.pend = none → t.kiosk = s.kiosk) ∧ t.kiosk.rd = none ∧ t = { s with out := t.out, regs := t.regs, parBad := t.parBad, quay := { s.quay with msix := t.quay.msix }, kiosk := { s.kiosk with pend := t.kiosk.pend, rd := t.kiosk.rd, carrier := t.kiosk.carrier, tag := t.kiosk.tag, harv := t.kiosk.harv, latched := t.kiosk.latched, app := t.kiosk.app, file := t.kiosk.file, wtx := t.kiosk.wtx, plc := t.kiosk.plc } } ∧ OtherRegs s t [Reg.KIOSK_STAT, Reg.KIOSK_RD_CMD, Reg.KIOSK_RD_LEN, Reg.KIOSK_HARV_STAT] [Reg.INT_STAT, Reg.ERR_SYND, Reg.ERR_ADDR] []) ∧
  (∀ (s : State) (src : Src) (ext : Bool), Reaches s src Reg.KIOSK_RD_CMD → s.kiosk.rd = none → s.kerb.lockdown = false → kMode s ≠ 1 → 
    Answers (.pollA src ext) s fun t => fld t Reg.KIOSK_RD_CMD 7 4 = 8 ∧ (s.kiosk.pend = none → t.kiosk = s.kiosk) ∧ t.kiosk.rd = none ∧ t = { s with out := t.out, regs := t.regs, parBad := t.parBad, quay := { s.quay with msix := t.quay.msix }, kiosk := { s.kiosk with pend := t.kiosk.pend, rd := t.kiosk.rd, carrier := t.kiosk.carrier, tag := t.kiosk.tag, harv := t.kiosk.harv, latched := t.kiosk.latched, app := t.kiosk.app, file := t.kiosk.file, wtx := t.kiosk.wtx, plc := t.kiosk.plc } } ∧ OtherRegs s t [Reg.KIOSK_STAT, Reg.KIOSK_RD_CMD, Reg.KIOSK_RD_LEN, Reg.KIOSK_HARV_STAT] [Reg.INT_STAT, Reg.ERR_SYND, Reg.ERR_ADDR] []) ∧
  (∀ (s : State) (src : Src), Reaches s src Reg.KIOSK_RD_CMD → s.kiosk.rd = none → s.kerb.lockdown = false → kMode s = 1 → s.kiosk.carrier = false → 
    Answers (.pollA src true) s fun t => fld t Reg.KIOSK_RD_CMD 7 4 = 5 ∧ (s.kiosk.pend = none → t.kiosk = s.kiosk) ∧ t.kiosk.rd = none ∧ t = { s with out := t.out, regs := t.regs, parBad := t.parBad, quay := { s.quay with msix := t.quay.msix }, kiosk := { s.kiosk with pend := t.kiosk.pend, rd := t.kiosk.rd, carrier := t.kiosk.carrier, tag := t.kiosk.tag, harv := t.kiosk.harv, latched := t.kiosk.latched, app := t.kiosk.app, file := t.kiosk.file, wtx := t.kiosk.wtx, plc := t.kiosk.plc } } ∧ OtherRegs s t [Reg.KIOSK_STAT, Reg.KIOSK_RD_CMD, Reg.KIOSK_RD_LEN, Reg.KIOSK_HARV_STAT] [Reg.INT_STAT, Reg.ERR_SYND, Reg.ERR_ADDR] []) ∧
  (∀ (s : State) (src : Src) (ext : Bool), Reaches s src Reg.KIOSK_RD_CMD → s.kiosk.rd.isSome = true → rbit s (rk 0x4E Reg.ERR_SYND) 23 = false → 
    Answers (.pollB src ext) s fun t => fld t (rk 0x4E Reg.ERR_SYND) 31 24 = 0x10 ∧ reg t (rk 0x4E Reg.ERR_ADDR) = 2 ∧ t.kiosk = s.kiosk ∧ t = { s with out := t.out, regs := t.regs, parBad := t.parBad, quay := { s.quay with msix := t.quay.msix }, kiosk := { s.kiosk with pend := t.kiosk.pend, rd := t.kiosk.rd, carrier := t.kiosk.carrier, tag := t.kiosk.tag, harv := t.kiosk.harv, latched := t.kiosk.latched, app := t.kiosk.app, file := t.kiosk.file, wtx := t.kiosk.wtx, plc := t.kiosk.plc } } ∧ OtherRegs s t [Reg.KIOSK_STAT, Reg.KIOSK_RD_CMD, Reg.KIOSK_RD_LEN, Reg.KIOSK_HARV_STAT] [Reg.INT_STAT, Reg.ERR_SYND, Reg.ERR_ADDR] []) ∧
  (∀ (s : State) (src : Src) (ext : Bool), Reaches s src Reg.KIOSK_RD_CMD → s.kiosk.rd = none → s.kerb.lockdown = true → 
    Answers (.pollB src ext) s fun t => fld t Reg.KIOSK_RD_CMD 7 4 = 6 ∧ (s.kiosk.pend = none → t.kiosk = s.kiosk) ∧ t.kiosk.rd = none ∧ t = { s with out := t.out, regs := t.regs, parBad := t.parBad, quay := { s.quay with msix := t.quay.msix }, kiosk := { s.kiosk with pend := t.kiosk.pend, rd := t.kiosk.rd, carrier := t.kiosk.carrier, tag := t.kiosk.tag, harv := t.kiosk.harv, latched := t.kiosk.latched, app := t.kiosk.app, file := t.kiosk.file, wtx := t.kiosk.wtx, plc := t.kiosk.plc } } ∧ OtherRegs s t [Reg.KIOSK_STAT, Reg.KIOSK_RD_CMD, Reg.KIOSK_RD_LEN, Reg.KIOSK_HARV_STAT] [Reg.INT_STAT, Reg.ERR_SYND, Reg.ERR_ADDR] []) ∧
  (∀ (s : State) (src : Src) (ext : Bool), Reaches s src Reg.KIOSK_RD_CMD → s.kiosk.rd = none → s.kerb.lockdown = false → kMode s ≠ 1 → 
    Answers (.pollB src ext) s fun t => fld t Reg.KIOSK_RD_CMD 7 4 = 8 ∧ (s.kiosk.pend = none → t.kiosk = s.kiosk) ∧ t.kiosk.rd = none ∧ t = { s with out := t.out, regs := t.regs, parBad := t.parBad, quay := { s.quay with msix := t.quay.msix }, kiosk := { s.kiosk with pend := t.kiosk.pend, rd := t.kiosk.rd, carrier := t.kiosk.carrier, tag := t.kiosk.tag, harv := t.kiosk.harv, latched := t.kiosk.latched, app := t.kiosk.app, file := t.kiosk.file, wtx := t.kiosk.wtx, plc := t.kiosk.plc } } ∧ OtherRegs s t [Reg.KIOSK_STAT, Reg.KIOSK_RD_CMD, Reg.KIOSK_RD_LEN, Reg.KIOSK_HARV_STAT] [Reg.INT_STAT, Reg.ERR_SYND, Reg.ERR_ADDR] []) ∧
  (∀ (s : State) (src : Src), Reaches s src Reg.KIOSK_RD_CMD → s.kiosk.rd = none → s.kerb.lockdown = false → kMode s = 1 → s.kiosk.carrier = false → 
    Answers (.pollB src true) s fun t => fld t Reg.KIOSK_RD_CMD 7 4 = 5 ∧ (s.kiosk.pend = none → t.kiosk = s.kiosk) ∧ t.kiosk.rd = none ∧ t = { s with out := t.out, regs := t.regs, parBad := t.parBad, quay := { s.quay with msix := t.quay.msix }, kiosk := { s.kiosk with pend := t.kiosk.pend, rd := t.kiosk.rd, carrier := t.kiosk.carrier, tag := t.kiosk.tag, harv := t.kiosk.harv, latched := t.kiosk.latched, app := t.kiosk.app, file := t.kiosk.file, wtx := t.kiosk.wtx, plc := t.kiosk.plc } } ∧ OtherRegs s t [Reg.KIOSK_STAT, Reg.KIOSK_RD_CMD, Reg.KIOSK_RD_LEN, Reg.KIOSK_HARV_STAT] [Reg.INT_STAT, Reg.ERR_SYND, Reg.ERR_ADDR] []) ∧
  (∀ (s : State) (src : Src) (ext : Bool), Reaches s src Reg.KIOSK_RD_CMD → s.kiosk.rd.isSome = true → rbit s (rk 0x4E Reg.ERR_SYND) 23 = false → 
    Answers (.transceive src ext) s fun t => fld t (rk 0x4E Reg.ERR_SYND) 31 24 = 0x10 ∧ reg t (rk 0x4E Reg.ERR_ADDR) = 3 ∧ t.kiosk = s.kiosk ∧ t = { s with out := t.out, regs := t.regs, parBad := t.parBad, quay := { s.quay with msix := t.quay.msix }, kiosk := { s.kiosk with pend := t.kiosk.pend, rd := t.kiosk.rd, carrier := t.kiosk.carrier, tag := t.kiosk.tag, harv := t.kiosk.harv, latched := t.kiosk.latched, app := t.kiosk.app, file := t.kiosk.file, wtx := t.kiosk.wtx, plc := t.kiosk.plc } } ∧ OtherRegs s t [Reg.KIOSK_STAT, Reg.KIOSK_RD_CMD, Reg.KIOSK_RD_LEN, Reg.KIOSK_HARV_STAT] [Reg.INT_STAT, Reg.ERR_SYND, Reg.ERR_ADDR] []) ∧
  (∀ (s : State) (src : Src) (ext : Bool), Reaches s src Reg.KIOSK_RD_CMD → s.kiosk.rd = none → s.kerb.lockdown = true → 
    Answers (.transceive src ext) s fun t => fld t Reg.KIOSK_RD_CMD 7 4 = 6 ∧ (s.kiosk.pend = none → t.kiosk = s.kiosk) ∧ t.kiosk.rd = none ∧ t = { s with out := t.out, regs := t.regs, parBad := t.parBad, quay := { s.quay with msix := t.quay.msix }, kiosk := { s.kiosk with pend := t.kiosk.pend, rd := t.kiosk.rd, carrier := t.kiosk.carrier, tag := t.kiosk.tag, harv := t.kiosk.harv, latched := t.kiosk.latched, app := t.kiosk.app, file := t.kiosk.file, wtx := t.kiosk.wtx, plc := t.kiosk.plc } } ∧ OtherRegs s t [Reg.KIOSK_STAT, Reg.KIOSK_RD_CMD, Reg.KIOSK_RD_LEN, Reg.KIOSK_HARV_STAT] [Reg.INT_STAT, Reg.ERR_SYND, Reg.ERR_ADDR] []) ∧
  (∀ (s : State) (src : Src) (ext : Bool), Reaches s src Reg.KIOSK_RD_CMD → s.kiosk.rd = none → s.kerb.lockdown = false → kMode s ≠ 1 → 
    Answers (.transceive src ext) s fun t => fld t Reg.KIOSK_RD_CMD 7 4 = 8 ∧ (s.kiosk.pend = none → t.kiosk = s.kiosk) ∧ t.kiosk.rd = none ∧ t = { s with out := t.out, regs := t.regs, parBad := t.parBad, quay := { s.quay with msix := t.quay.msix }, kiosk := { s.kiosk with pend := t.kiosk.pend, rd := t.kiosk.rd, carrier := t.kiosk.carrier, tag := t.kiosk.tag, harv := t.kiosk.harv, latched := t.kiosk.latched, app := t.kiosk.app, file := t.kiosk.file, wtx := t.kiosk.wtx, plc := t.kiosk.plc } } ∧ OtherRegs s t [Reg.KIOSK_STAT, Reg.KIOSK_RD_CMD, Reg.KIOSK_RD_LEN, Reg.KIOSK_HARV_STAT] [Reg.INT_STAT, Reg.ERR_SYND, Reg.ERR_ADDR] []) ∧
  (∀ (s : State) (src : Src), Reaches s src Reg.KIOSK_RD_CMD → s.kiosk.rd = none → s.kerb.lockdown = false → kMode s = 1 → s.kiosk.carrier = false → 
    Answers (.transceive src true) s fun t => fld t Reg.KIOSK_RD_CMD 7 4 = 5 ∧ (s.kiosk.pend = none → t.kiosk = s.kiosk) ∧ t.kiosk.rd = none ∧ t = { s with out := t.out, regs := t.regs, parBad := t.parBad, quay := { s.quay with msix := t.quay.msix }, kiosk := { s.kiosk with pend := t.kiosk.pend, rd := t.kiosk.rd, carrier := t.kiosk.carrier, tag := t.kiosk.tag, harv := t.kiosk.harv, latched := t.kiosk.latched, app := t.kiosk.app, file := t.kiosk.file, wtx := t.kiosk.wtx, plc := t.kiosk.plc } } ∧ OtherRegs s t [Reg.KIOSK_STAT, Reg.KIOSK_RD_CMD, Reg.KIOSK_RD_LEN, Reg.KIOSK_HARV_STAT] [Reg.INT_STAT, Reg.ERR_SYND, Reg.ERR_ADDR] []) ∧
  (∀ (s : State) (src : Src) (ext : Bool), Reaches s src Reg.KIOSK_RD_CMD → s.kiosk.rd.isSome = true → rbit s (rk 0x4E Reg.ERR_SYND) 23 = false → 
    Answers (.readerHalt src ext) s fun t => fld t (rk 0x4E Reg.ERR_SYND) 31 24 = 0x10 ∧ reg t (rk 0x4E Reg.ERR_ADDR) = 4 ∧ t.kiosk = s.kiosk ∧ t = { s with out := t.out, regs := t.regs, parBad := t.parBad, quay := { s.quay with msix := t.quay.msix }, kiosk := { s.kiosk with pend := t.kiosk.pend, rd := t.kiosk.rd, carrier := t.kiosk.carrier, tag := t.kiosk.tag, harv := t.kiosk.harv, latched := t.kiosk.latched, app := t.kiosk.app, file := t.kiosk.file, wtx := t.kiosk.wtx, plc := t.kiosk.plc } } ∧ OtherRegs s t [Reg.KIOSK_STAT, Reg.KIOSK_RD_CMD, Reg.KIOSK_RD_LEN, Reg.KIOSK_HARV_STAT] [Reg.INT_STAT, Reg.ERR_SYND, Reg.ERR_ADDR] []) ∧
  (∀ (s : State) (src : Src) (ext : Bool), Reaches s src Reg.KIOSK_RD_CMD → s.kiosk.rd = none → s.kerb.lockdown = true → 
    Answers (.readerHalt src ext) s fun t => fld t Reg.KIOSK_RD_CMD 7 4 = 6 ∧ (s.kiosk.pend = none → t.kiosk = s.kiosk) ∧ t.kiosk.rd = none ∧ t = { s with out := t.out, regs := t.regs, parBad := t.parBad, quay := { s.quay with msix := t.quay.msix }, kiosk := { s.kiosk with pend := t.kiosk.pend, rd := t.kiosk.rd, carrier := t.kiosk.carrier, tag := t.kiosk.tag, harv := t.kiosk.harv, latched := t.kiosk.latched, app := t.kiosk.app, file := t.kiosk.file, wtx := t.kiosk.wtx, plc := t.kiosk.plc } } ∧ OtherRegs s t [Reg.KIOSK_STAT, Reg.KIOSK_RD_CMD, Reg.KIOSK_RD_LEN, Reg.KIOSK_HARV_STAT] [Reg.INT_STAT, Reg.ERR_SYND, Reg.ERR_ADDR] []) ∧
  (∀ (s : State) (src : Src) (ext : Bool), Reaches s src Reg.KIOSK_RD_CMD → s.kiosk.rd = none → s.kerb.lockdown = false → kMode s ≠ 1 → 
    Answers (.readerHalt src ext) s fun t => fld t Reg.KIOSK_RD_CMD 7 4 = 8 ∧ (s.kiosk.pend = none → t.kiosk = s.kiosk) ∧ t.kiosk.rd = none ∧ t = { s with out := t.out, regs := t.regs, parBad := t.parBad, quay := { s.quay with msix := t.quay.msix }, kiosk := { s.kiosk with pend := t.kiosk.pend, rd := t.kiosk.rd, carrier := t.kiosk.carrier, tag := t.kiosk.tag, harv := t.kiosk.harv, latched := t.kiosk.latched, app := t.kiosk.app, file := t.kiosk.file, wtx := t.kiosk.wtx, plc := t.kiosk.plc } } ∧ OtherRegs s t [Reg.KIOSK_STAT, Reg.KIOSK_RD_CMD, Reg.KIOSK_RD_LEN, Reg.KIOSK_HARV_STAT] [Reg.INT_STAT, Reg.ERR_SYND, Reg.ERR_ADDR] []) ∧
  (∀ (s : State) (src : Src), Reaches s src Reg.KIOSK_RD_CMD → s.kiosk.rd = none → s.kerb.lockdown = false → kMode s = 1 → s.kiosk.carrier = false → 
    Answers (.readerHalt src true) s fun t => fld t Reg.KIOSK_RD_CMD 7 4 = 5 ∧ (s.kiosk.pend = none → t.kiosk = s.kiosk) ∧ t.kiosk.rd = none ∧ t = { s with out := t.out, regs := t.regs, parBad := t.parBad, quay := { s.quay with msix := t.quay.msix }, kiosk := { s.kiosk with pend := t.kiosk.pend, rd := t.kiosk.rd, carrier := t.kiosk.carrier, tag := t.kiosk.tag, harv := t.kiosk.harv, latched := t.kiosk.latched, app := t.kiosk.app, file := t.kiosk.file, wtx := t.kiosk.wtx, plc := t.kiosk.plc } } ∧ OtherRegs s t [Reg.KIOSK_STAT, Reg.KIOSK_RD_CMD, Reg.KIOSK_RD_LEN, Reg.KIOSK_HARV_STAT] [Reg.INT_STAT, Reg.ERR_SYND, Reg.ERR_ADDR] []) ∧
  (∀ (s : State) (b : Bytes), s.kiosk.rd = some .reply ∨ s.kiosk.rd = some .atqb → b.length ≤ 254 → 
    Answers (.readerFrameReceive (.frame b)) s fun t => fld t Reg.KIOSK_RD_CMD 7 4 = 0 ∧ t.kiosk.rd = none ∧ bufGet t rdBuf 0 b.length = b ∧ fld t Reg.KIOSK_RD_LEN 24 16 = b.length ∧ t = { s with out := t.out, regs := t.regs, parBad := t.parBad, quay := { s.quay with msix := t.quay.msix }, kiosk := { s.kiosk with pend := t.kiosk.pend, rd := t.kiosk.rd, carrier := t.kiosk.carrier, tag := t.kiosk.tag, harv := t.kiosk.harv, latched := t.kiosk.latched, app := t.kiosk.app, file := t.kiosk.file, wtx := t.kiosk.wtx, plc := t.kiosk.plc } } ∧ OtherRegs s t [Reg.KIOSK_STAT, Reg.KIOSK_RD_CMD, Reg.KIOSK_RD_LEN, Reg.KIOSK_HARV_STAT] [Reg.INT_STAT] [0x4E, 0x4F]) ∧
  (∀ (s : State) (b : Bytes), s.kiosk.rd = some .atqa → b.length = 2 → 
    Answers (.readerFrameReceive (.frame b)) s fun t => t.kiosk = { s.kiosk with rd := some (.anticol 0 b [] 0 0) } ∧ t.out = .reader [0x93, 0x20] (fld s Reg.KIOSK_RD_CFG 1 0) :: s.out ∧ t.regs = s.regs ∧ t = { s with out := t.out, regs := t.regs, parBad := t.parBad, quay := { s.quay with msix := t.quay.msix }, kiosk := { s.kiosk with pend := t.kiosk.pend, rd := t.kiosk.rd, carrier := t.kiosk.carrier, tag := t.kiosk.tag, harv := t.kiosk.harv, latched := t.kiosk.latched, app := t.kiosk.app, file := t.kiosk.file, wtx := t.kiosk.wtx, plc := t.kiosk.plc } } ∧ OtherRegs s t [Reg.KIOSK_STAT, Reg.KIOSK_RD_CMD, Reg.KIOSK_RD_LEN, Reg.KIOSK_HARV_STAT] [Reg.INT_STAT] [0x4E, 0x4F]) ∧
  (∀ (s : State) (b : Bytes) (n : Nat), s.kiosk.rd = some .atqa → 
    Answers (.readerFrameReceive (.collision b n)) s fun t => t.kiosk = { s.kiosk with rd := some (.anticol 0 (fit 2 b) [] 0 0) } ∧ t.out = .reader [0x93, 0x20] (fld s Reg.KIOSK_RD_CFG 1 0) :: s.out ∧ t.regs = s.regs ∧ t = { s with out := t.out, regs := t.regs, parBad := t.parBad, quay := { s.quay with msix := t.quay.msix }, kiosk := { s.kiosk with pend := t.kiosk.pend, rd := t.kiosk.rd, carrier := t.kiosk.carrier, tag := t.kiosk.tag, harv := t.kiosk.harv, latched := t.kiosk.latched, app := t.kiosk.app, file := t.kiosk.file, wtx := t.kiosk.wtx, plc := t.kiosk.plc } } ∧ OtherRegs s t [Reg.KIOSK_STAT, Reg.KIOSK_RD_CMD, Reg.KIOSK_RD_LEN, Reg.KIOSK_HARV_STAT] [Reg.INT_STAT] [0x4E, 0x4F]) ∧
  (∀ (s : State) (a u b : Bytes) (l k v : Nat) (cl : Bytes), s.kiosk.rd = some (.anticol l a u k v) → anticolWhole k v b = some cl → cl.foldl (fun x y => x ^^^ y) 0 = 0 → 
    Answers (.readerFrameReceive (.frame b)) s fun t => t.kiosk = { s.kiosk with rd := some (.sak l a u cl) } ∧ t.out = .reader (withCrc false ([selByte l, 0x70] ++ cl)) (fld s Reg.KIOSK_RD_CFG 1 0) :: s.out ∧ t.regs = s.regs ∧ t = { s with out := t.out, regs := t.regs, parBad := t.parBad, quay := { s.quay with msix := t.quay.msix }, kiosk := { s.kiosk with pend := t.kiosk.pend, rd := t.kiosk.rd, carrier := t.kiosk.carrier, tag := t.kiosk.tag, harv := t.kiosk.harv, latched := t.kiosk.latched, app := t.kiosk.app, file := t.kiosk.file, wtx := t.kiosk.wtx, plc := t.kiosk.plc } } ∧ OtherRegs s t [Reg.KIOSK_STAT, Reg.KIOSK_RD_CMD, Reg.KIOSK_RD_LEN, Reg.KIOSK_HARV_STAT] [Reg.INT_STAT] [0x4E, 0x4F]) ∧
  (∀ (s : State) (a u b : Bytes) (l k v : Nat) (n : Nat), s.kiosk.rd = some (.anticol l a u k v) → k + n < 39 → 
    Answers (.readerFrameReceive (.collision b n)) s fun t => t.kiosk = { s.kiosk with rd := some (.anticol l a u (k + n + 1) (v + 2 ^ k * (le b % 2 ^ n) + 2 ^ (k + n))) } ∧ t.out = .reader ([selByte l, BitVec.ofNat 8 ((2 + (k + n + 1) / 8) * 16 + (k + n + 1) % 8)] ++ toLe (((k + n + 1) + 7) / 8) (v + 2 ^ k * (le b % 2 ^ n) + 2 ^ (k + n))) (fld s Reg.KIOSK_RD_CFG 1 0) :: s.out ∧ t.regs = s.regs ∧ t = { s with out := t.out, regs := t.regs, parBad := t.parBad, quay := { s.quay with msix := t.quay.msix }, kiosk := { s.kiosk with pend := t.kiosk.pend, rd := t.kiosk.rd, carrier := t.kiosk.carrier, tag := t.kiosk.tag, harv := t.kiosk.harv, latched := t.kiosk.latched, app := t.kiosk.app, file := t.kiosk.file, wtx := t.kiosk.wtx, plc := t.kiosk.plc } } ∧ OtherRegs s t [Reg.KIOSK_STAT, Reg.KIOSK_RD_CMD, Reg.KIOSK_RD_LEN, Reg.KIOSK_HARV_STAT] [Reg.INT_STAT] [0x4E, 0x4F]) ∧
  (∀ (s : State) (a u b : Bytes) (l k v : Nat) (n : Nat), s.kiosk.rd = some (.anticol l a u k v) → 39 ≤ k + n → 
    Answers (.readerFrameReceive (.collision b n)) s fun t => fld t Reg.KIOSK_RD_CMD 7 4 = 4 ∧ t.kiosk.rd = none ∧ t = { s with out := t.out, regs := t.regs, parBad := t.parBad, quay := { s.quay with msix := t.quay.msix }, kiosk := { s.kiosk with pend := t.kiosk.pend, rd := t.kiosk.rd, carrier := t.kiosk.carrier, tag := t.kiosk.tag, harv := t.kiosk.harv, latched := t.kiosk.latched, app := t.kiosk.app, file := t.kiosk.file, wtx := t.kiosk.wtx, plc := t.kiosk.plc } } ∧ OtherRegs s t [Reg.KIOSK_STAT, Reg.KIOSK_RD_CMD, Reg.KIOSK_RD_LEN, Reg.KIOSK_HARV_STAT] [Reg.INT_STAT] [0x4E, 0x4F]) ∧
  (∀ (s : State) (a u cl b : Bytes) (l : Nat), s.kiosk.rd = some (.sak l a u cl) → b.length = 1 → (byteAt b 0).testBit 2 = false → (u ++ cl.take 4 ++ a ++ b).length ≤ 254 → 
    Answers (.readerFrameReceive (.frame b)) s fun t => fld t Reg.KIOSK_RD_CMD 7 4 = 0 ∧ t.kiosk.rd = none ∧ bufGet t rdBuf 0 (u ++ cl.take 4 ++ a ++ b).length = u ++ cl.take 4 ++ a ++ b ∧ t = { s with out := t.out, regs := t.regs, parBad := t.parBad, quay := { s.quay with msix := t.quay.msix }, kiosk := { s.kiosk with pend := t.kiosk.pend, rd := t.kiosk.rd, carrier := t.kiosk.carrier, tag := t.kiosk.tag, harv := t.kiosk.harv, latched := t.kiosk.latched, app := t.kiosk.app, file := t.kiosk.file, wtx := t.kiosk.wtx, plc := t.kiosk.plc } } ∧ OtherRegs s t [Reg.KIOSK_STAT, Reg.KIOSK_RD_CMD, Reg.KIOSK_RD_LEN, Reg.KIOSK_HARV_STAT] [Reg.INT_STAT] [0x4E, 0x4F]) ∧
  (∀ (s : State) (a u cl b : Bytes) (l : Nat), s.kiosk.rd = some (.sak l a u cl) → b.length = 1 → (byteAt b 0).testBit 2 = true → l < 2 → 
    Answers (.readerFrameReceive (.frame b)) s fun t => t.kiosk = { s.kiosk with rd := some (.anticol (l + 1) a (u ++ sl cl 1 3) 0 0) } ∧ t.out = .reader [selByte (l + 1), 0x20] (fld s Reg.KIOSK_RD_CFG 1 0) :: s.out ∧ t.regs = s.regs ∧ t = { s with out := t.out, regs := t.regs, parBad := t.parBad, quay := { s.quay with msix := t.quay.msix }, kiosk := { s.kiosk with pend := t.kiosk.pend, rd := t.kiosk.rd, carrier := t.kiosk.carrier, tag := t.kiosk.tag, harv := t.kiosk.harv, latched := t.kiosk.latched, app := t.kiosk.app, file := t.kiosk.file, wtx := t.kiosk.wtx, plc := t.kiosk.plc } } ∧ OtherRegs s t [Reg.KIOSK_STAT, Reg.KIOSK_RD_CMD, Reg.KIOSK_RD_LEN, Reg.KIOSK_HARV_STAT] [Reg.INT_STAT] [0x4E, 0x4F]) ∧
  (∀ (s : State) (b : Bytes), (match s.kiosk.rd with | some .atqa => decide (b.length ≠ 2) | some (.anticol _ _ _ k v) => (anticolWhole k v b).all (fun cl => cl.foldl (fun x y => x ^^^ y) 0 != 0) | some (.sak l _ _ _) => decide (b.length ≠ 1 ∨ ((byteAt b 0).testBit 2 = true ∧ 2 ≤ l)) | some _ => decide (254 < b.length) | none => false) = true → 
    Answers (.readerFrameReceive (.frame b)) s fun t => fld t Reg.KIOSK_RD_CMD 7 4 = 4 ∧ t.kiosk.rd = none ∧ t = { s with out := t.out, regs := t.regs, parBad := t.parBad, quay := { s.quay with msix := t.quay.msix }, kiosk := { s.kiosk with pend := t.kiosk.pend, rd := t.kiosk.rd, carrier := t.kiosk.carrier, tag := t.kiosk.tag, harv := t.kiosk.harv, latched := t.kiosk.latched, app := t.kiosk.app, file := t.kiosk.file, wtx := t.kiosk.wtx, plc := t.kiosk.plc } } ∧ OtherRegs s t [Reg.KIOSK_STAT, Reg.KIOSK_RD_CMD, Reg.KIOSK_RD_LEN, Reg.KIOSK_HARV_STAT] [Reg.INT_STAT] [0x4E, 0x4F]) ∧
  (∀ (s : State), s.kiosk.rd.isSome = true → 
    Answers (.readerFrameReceive .badCrc) s fun t => fld t Reg.KIOSK_RD_CMD 7 4 = 3 ∧ t.kiosk.rd = none ∧ t = { s with out := t.out, regs := t.regs, parBad := t.parBad, quay := { s.quay with msix := t.quay.msix }, kiosk := { s.kiosk with pend := t.kiosk.pend, rd := t.kiosk.rd, carrier := t.kiosk.carrier, tag := t.kiosk.tag, harv := t.kiosk.harv, latched := t.kiosk.latched, app := t.kiosk.app, file := t.kiosk.file, wtx := t.kiosk.wtx, plc := t.kiosk.plc } } ∧ OtherRegs s t [Reg.KIOSK_STAT, Reg.KIOSK_RD_CMD, Reg.KIOSK_RD_LEN, Reg.KIOSK_HARV_STAT] [Reg.INT_STAT] [0x4E, 0x4F]) ∧
  (∀ (s : State), s.kiosk.rd.isSome = true → 
    Answers (.readerFrameReceive .malformed) s fun t => fld t Reg.KIOSK_RD_CMD 7 4 = 4 ∧ t.kiosk.rd = none ∧ t = { s with out := t.out, regs := t.regs, parBad := t.parBad, quay := { s.quay with msix := t.quay.msix }, kiosk := { s.kiosk with pend := t.kiosk.pend, rd := t.kiosk.rd, carrier := t.kiosk.carrier, tag := t.kiosk.tag, harv := t.kiosk.harv, latched := t.kiosk.latched, app := t.kiosk.app, file := t.kiosk.file, wtx := t.kiosk.wtx, plc := t.kiosk.plc } } ∧ OtherRegs s t [Reg.KIOSK_STAT, Reg.KIOSK_RD_CMD, Reg.KIOSK_RD_LEN, Reg.KIOSK_HARV_STAT] [Reg.INT_STAT] [0x4E, 0x4F]) ∧
  (∀ (s : State) (b : Bytes) (n : Nat), (match s.kiosk.rd with | some .atqb => true | some .reply => true | some (.sak _ _ _ _) => true | _ => false) = true → 
    Answers (.readerFrameReceive (.collision b n)) s fun t => fld t Reg.KIOSK_RD_CMD 7 4 = (if s.kiosk.rd = some .atqb then 2 else 4) ∧ t.kiosk.rd = none ∧ t = { s with out := t.out, regs := t.regs, parBad := t.parBad, quay := { s.quay with msix := t.quay.msix }, kiosk := { s.kiosk with pend := t.kiosk.pend, rd := t.kiosk.rd, carrier := t.kiosk.carrier, tag := t.kiosk.tag, harv := t.kiosk.harv, latched := t.kiosk.latched, app := t.kiosk.app, file := t.kiosk.file, wtx := t.kiosk.wtx, plc := t.kiosk.plc } } ∧ OtherRegs s t [Reg.KIOSK_STAT, Reg.KIOSK_RD_CMD, Reg.KIOSK_RD_LEN, Reg.KIOSK_HARV_STAT] [Reg.INT_STAT] [0x4E, 0x4F]) ∧
  (∀ (s : State) (f : RdFrame), s.kiosk.rd = none → 
    Answers (.readerFrameReceive f) s fun t => t = s) ∧
  (∀ (s : State), s.kiosk.rd.isSome = true → 
    Answers (.fwtExpire) s fun t => fld t Reg.KIOSK_RD_CMD 7 4 = 1 ∧ t.kiosk.rd = none ∧ t = { s with out := t.out, regs := t.regs, parBad := t.parBad, quay := { s.quay with msix := t.quay.msix }, kiosk := { s.kiosk with pend := t.kiosk.pend, rd := t.kiosk.rd, carrier := t.kiosk.carrier, tag := t.kiosk.tag, harv := t.kiosk.harv, latched := t.kiosk.latched, app := t.kiosk.app, file := t.kiosk.file, wtx := t.kiosk.wtx, plc := t.kiosk.plc } } ∧ OtherRegs s t [Reg.KIOSK_STAT, Reg.KIOSK_RD_CMD, Reg.KIOSK_HARV_STAT] [Reg.INT_STAT] []) ∧
  (∀ (s : State), s.kiosk.rd = none → 
    Answers (.fwtExpire) s fun t => t = s) ∧
  (∀ (s : State) (amp : BitVec 10), kioskOn s = true → kMode s = 3 → s.kiosk.field = false → s.kiosk.calib = true → 
    Answers (.lpcdPing false amp) s fun t => fld t Reg.KIOSK_LPCD_REF 9 0 = amp.toNat ∧ fld t Reg.KIOSK_LPCD_REF 25 16 = amp.toNat ∧ t.kiosk = { s.kiosk with calib := false } ∧ (.pin "CARRIER" 0 :: .pin "CARRIER" 1 :: s.out) <:+ t.out ∧ t = { s with out := t.out, regs := t.regs, parBad := t.parBad, quay := { s.quay with msix := t.quay.msix }, kiosk := { s.kiosk with calib := t.kiosk.calib } } ∧ OtherRegs s t [Reg.KIOSK_LPCD_REF] [Reg.INT_STAT] []) ∧
  (∀ (s : State) (amp : BitVec 10), kioskOn s = true → kMode s = 3 → s.kiosk.field = false → s.kiosk.calib = false → fld s Reg.KIOSK_LPCD_CFG 25 16 < max (fld s Reg.KIOSK_LPCD_REF 9 0) amp.toNat - min (fld s Reg.KIOSK_LPCD_REF 9 0) amp.toNat → 
    Answers (.lpcdPing false amp) s fun t => rbit t (rk 0x4E Reg.INT_STAT) 1 = true ∧ fld t Reg.KIOSK_LPCD_REF 25 16 = amp.toNat ∧ t.kiosk = s.kiosk ∧ (.pin "CARRIER" 0 :: .pin "CARRIER" 1 :: s.out) <:+ t.out ∧ t = { s with out := t.out, regs := t.regs, parBad := t.parBad, quay := { s.quay with msix := t.quay.msix }, kiosk := { s.kiosk with calib := t.kiosk.calib } } ∧ OtherRegs s t [Reg.KIOSK_LPCD_REF] [Reg.INT_STAT] []) ∧
  (∀ (s : State) (amp : BitVec 10), kioskOn s = true → kMode s = 3 → s.kiosk.field = false → s.kiosk.calib = false → max (fld s Reg.KIOSK_LPCD_REF 9 0) amp.toNat - min (fld s Reg.KIOSK_LPCD_REF 9 0) amp.toNat ≤ fld s Reg.KIOSK_LPCD_CFG 25 16 → 
    Answers (.lpcdPing false amp) s fun t => reg t (rk 0x4E Reg.INT_STAT) = reg s (rk 0x4E Reg.INT_STAT) ∧ fld t Reg.KIOSK_LPCD_REF 25 16 = amp.toNat ∧ t.kiosk = s.kiosk ∧ (.pin "CARRIER" 0 :: .pin "CARRIER" 1 :: s.out) <:+ t.out ∧ t = { s with out := t.out, regs := t.regs, parBad := t.parBad, quay := { s.quay with msix := t.quay.msix }, kiosk := { s.kiosk with calib := t.kiosk.calib } } ∧ OtherRegs s t [Reg.KIOSK_LPCD_REF] [Reg.INT_STAT] []) ∧
  (∀ (s : State) (ext : Bool) (amp : BitVec 10), kioskOn s = false ∨ kMode s ≠ 3 ∨ ext = true ∨ s.kiosk.field = true → 
    Answers (.lpcdPing ext amp) s fun t => t = s) ∧
  (∀ (s : State) (src : Src), Reaches s src Reg.KIOSK_LPCD_CFG → 
    Answers (.lpcdCalibrate src) s fun t => t = { reparity s Reg.KIOSK_LPCD_CFG with kiosk := { s.kiosk with calib := true } }) ∧
  (∀ (s : State) (strong : Bool), s.mainOn = true → domOn s 22 = true → kMode s = 2 → s.kiosk.field = false → 
    Answers (.fieldOn strong) s fun t => fieldOn' t = true ∧ rbit t (rk 0x4E Reg.INT_STAT) 2 = true ∧ t.kiosk.field = true ∧ t.kiosk.tag = s.kiosk.tag ∧ t.kiosk.latched = s.kiosk.latched ∧ (rbit s Reg.KIOSK_HARV_CTRL 0 = true → t.kiosk.harv = (if rbit s Reg.KIOSK_HARV_CTRL 1 then 3300 else 1800, max 1 (min 10 (fld s Reg.KIOSK_HARV_CTRL 7 4)))) ∧ t = { s with out := t.out, regs := t.regs, parBad := t.parBad, quay := { s.quay with msix := t.quay.msix }, kiosk := { s.kiosk with tag := t.kiosk.tag, harv := t.kiosk.harv, field := t.kiosk.field, strong := t.kiosk.strong, fieldPowered := t.kiosk.fieldPowered } } ∧ OtherRegs s t [Reg.KIOSK_STAT, Reg.KIOSK_HARV_STAT] [Reg.INT_STAT] []) ∧
  (∀ (s : State) (strong : Bool), s.mainOn = true → domOn s 22 = true → kMode s ≠ 2 → s.kiosk.field = false → s.kiosk.harv = (0, 0) → 
    Answers (.fieldOn strong) s fun t => fieldOn' t = true ∧ t.kiosk = { s.kiosk with field := true, strong } ∧ reg t (rk 0x4E Reg.INT_STAT) = reg s (rk 0x4E Reg.INT_STAT) ∧ t = { s with out := t.out, regs := t.regs, parBad := t.parBad, quay := { s.quay with msix := t.quay.msix }, kiosk := { s.kiosk with tag := t.kiosk.tag, harv := t.kiosk.harv, field := t.kiosk.field, strong := t.kiosk.strong, fieldPowered := t.kiosk.fieldPowered } } ∧ OtherRegs s t [Reg.KIOSK_STAT, Reg.KIOSK_HARV_STAT] [Reg.INT_STAT] []) ∧
  (∀ (s : State), s.mainOn = false → s.kiosk.field = false → ((placard s).getD noPlacard).fieldTag = true → 
    Answers (.fieldOn true) s fun t => t = { s with kiosk := { s.kiosk with field := true, strong := true, fieldPowered := true, tag := .idle } }) ∧
  (∀ (s : State) (strong : Bool), (if s.mainOn then domOn s 22 = false else strong = false ∨ ((placard s).getD noPlacard).fieldTag = false) → s.kiosk.field = false → 
    Answers (.fieldOn strong) s fun t => t = { s with kiosk := { s.kiosk with field := true, strong } }) ∧
  (∀ (s : State) (strong : Bool), s.kiosk.field = true → 
    Answers (.fieldOn strong) s fun t => t = s) ∧
  (∀ (s : State), s.kiosk.fieldPowered = false → kioskOn s = true → fieldOn' s = true → kMode s = 2 → 
    Answers (.fieldOff) s fun t => fieldOn' t = false ∧ t.kiosk.field = false ∧ t.kiosk.latched = none ∧ t.kiosk.tag = .idle ∧ t.kiosk.wtx = none ∧ rbit t (rk 0x4E Reg.INT_STAT) 3 = true ∧ (s.kiosk.latched.isSome = true → rbit t (rk 0x4E Reg.INT_STAT) 4 = true) ∧ t.kiosk.harv = (0, 0) ∧ (rbit s Reg.KIOSK_MBX_CTRL 2 = true → ∀ i : Fin 64, reg t (mbxBuf + 4 * i.val) = 0) ∧ t = { s with out := t.out, regs := t.regs, parBad := t.parBad, quay := { s.quay with msix := t.quay.msix }, kiosk := { s.kiosk with pend := t.kiosk.pend, carrier := t.kiosk.carrier, tag := t.kiosk.tag, harv := t.kiosk.harv, latched := t.kiosk.latched, app := t.kiosk.app, file := t.kiosk.file, wtx := t.kiosk.wtx, plc := t.kiosk.plc, field := t.kiosk.field, strong := t.kiosk.strong, fieldPowered := t.kiosk.fieldPowered } } ∧ OtherRegs s t [Reg.KIOSK_STAT, Reg.KIOSK_HARV_STAT] [Reg.INT_STAT] [0x4E, 0x4F]) ∧
  (∀ (s : State), s.kiosk.fieldPowered = false → kioskOn s = true → fieldOn' s = true → kMode s ≠ 2 → 
    Answers (.fieldOff) s fun t => fieldOn' t = false ∧ t.kiosk = { s.kiosk with field := false, strong := false } ∧ t = { s with out := t.out, regs := t.regs, parBad := t.parBad, quay := { s.quay with msix := t.quay.msix }, kiosk := { s.kiosk with pend := t.kiosk.pend, carrier := t.kiosk.carrier, tag := t.kiosk.tag, harv := t.kiosk.harv, latched := t.kiosk.latched, app := t.kiosk.app, file := t.kiosk.file, wtx := t.kiosk.wtx, plc := t.kiosk.plc, field := t.kiosk.field, strong := t.kiosk.strong, fieldPowered := t.kiosk.fieldPowered } } ∧ OtherRegs s t [Reg.KIOSK_STAT, Reg.KIOSK_HARV_STAT] [Reg.INT_STAT] [0x4E, 0x4F]) ∧
  (∀ (s : State), s.kiosk.fieldPowered = true → 
    Answers (.fieldOff) s fun t => t.kiosk.fieldPowered = false ∧ t.kiosk.latched = none ∧ t.kiosk.tag = .idle ∧ t.kiosk.app = false ∧ t.kiosk.file = none ∧ t.kiosk.wtx = none ∧ t = { s with out := t.out, regs := t.regs, parBad := t.parBad, quay := { s.quay with msix := t.quay.msix }, kiosk := { s.kiosk with pend := t.kiosk.pend, carrier := t.kiosk.carrier, tag := t.kiosk.tag, harv := t.kiosk.harv, latched := t.kiosk.latched, app := t.kiosk.app, file := t.kiosk.file, wtx := t.kiosk.wtx, plc := t.kiosk.plc, field := t.kiosk.field, strong := t.kiosk.strong, fieldPowered := t.kiosk.fieldPowered } } ∧ OtherRegs s t [Reg.KIOSK_STAT, Reg.KIOSK_HARV_STAT] [Reg.INT_STAT] [0x4E, 0x4F]) ∧
  (∀ (s : State), s.kiosk.fieldPowered = false → kioskOn s = false ∨ fieldOn' s = false → 
    Answers (.fieldOff) s fun t => t = { s with kiosk := { s.kiosk with field := false, strong := false } }) ∧
  (∀ (s : State), tagOn s = true → s.kiosk.tag = .idle → 
    Answers (.tagFrame .reqa) s fun t => t = { s with kiosk := { s.kiosk with tag := .ready1 }, out := .tag [0x44, 0x00] s.kiosk.tagRate :: s.out }) ∧
  (∀ (s : State), tagOn s = true → s.kiosk.tag = .idle ∨ s.kiosk.tag = .halt → 
    Answers (.tagFrame .wupa) s fun t => t = { s with kiosk := { s.kiosk with tag := .ready1 }, out := .tag [0x44, 0x00] s.kiosk.tagRate :: s.out }) ∧
  (∀ (s : State) (l : Bool), tagOn s = true → s.kiosk.tag = (if l then .ready2 else .ready1) → 
    Answers (.tagFrame (.anticol l)) s fun t => t = { s with out := .tag (uidLevel s l) s.kiosk.tagRate :: s.out }) ∧
  (∀ (s : State), tagOn s = true → s.kiosk.tag = .ready1 → 
    Answers (.tagFrame (.select false (uidLevel s false))) s fun t => t = { s with kiosk := { s.kiosk with tag := .ready2 }, out := .tag (tagCrc [0x04]) s.kiosk.tagRate :: s.out }) ∧
  (∀ (s : State), tagOn s = true → s.kiosk.tag = .ready2 → 
    Answers (.tagFrame (.select true (uidLevel s true))) s fun t => t.kiosk = { s.kiosk with latched := some (tagRecord s), tag := .active, tagRate := 0, app := false, file := none } ∧ t.out = .tag (tagCrc [0x20]) 0 :: s.out ∧ (s.mainOn = true → rbit t Reg.KIOSK_STAT 3 = true) ∧ t = { s with out := t.out, regs := t.regs, parBad := t.parBad, quay := { s.quay with msix := t.quay.msix }, kiosk := { s.kiosk with pend := t.kiosk.pend, carrier := t.kiosk.carrier, tag := t.kiosk.tag, tagRate := t.kiosk.tagRate, harv := t.kiosk.harv, latched := t.kiosk.latched, app := t.kiosk.app, file := t.kiosk.file, wtx := t.kiosk.wtx, plc := t.kiosk.plc } } ∧ OtherRegs s t [Reg.KIOSK_STAT, Reg.KIOSK_HARV_STAT] [Reg.INT_STAT] []) ∧
  (∀ (s : State) (l : Bool) (u : Bytes), tagOn s = true → s.kiosk.tag = (if l then .ready2 else .ready1) → u ≠ uidLevel s l → 
    Answers (.tagFrame (.select l u)) s fun t => t = { s with kiosk := { s.kiosk with tag := .idle } }) ∧
  (∀ (s : State) (n : Byte), tagOn s = true → s.kiosk.tag = .active → 
    Answers (.tagFrame (.rats n)) s fun t => t = { s with kiosk := { s.kiosk with tag := .protocol }, out := .tag (tagCrc (atsBytes s)) s.kiosk.tagRate :: s.out }) ∧
  (∀ (s : State) (a b : Byte), tagOn s = true → s.kiosk.tag = .protocol → 
    Answers (.tagFrame (.pps a b)) s fun t => t = { s with kiosk := { s.kiosk with tagRate := b.toNat / 4 % 4 }, out := .tag (tagCrc [0xD0 ||| (a &&& 0x0F)]) s.kiosk.tagRate :: s.out }) ∧
  (∀ (s : State), tagOn s = true → s.kiosk.tag = .protocol → s.kiosk.pend = none → 
    Answers (.tagFrame .deselect) s fun t => t.kiosk.tag = .halt ∧ t.kiosk.latched = none ∧ t.kiosk.app = false ∧ t.kiosk.file = none ∧ t.kiosk.wtx = none ∧ (.tag (tagCrc [0xC2]) s.kiosk.tagRate :: s.out) <:+ t.out ∧ (s.mainOn = true → s.kiosk.latched.isSome = true → kioskOn s = true → rbit t (rk 0x4E Reg.INT_STAT) 4 = true) ∧ t = { s with out := t.out, regs := t.regs, parBad := t.parBad, quay := { s.quay with msix := t.quay.msix }, kiosk := { s.kiosk with pend := t.kiosk.pend, carrier := t.kiosk.carrier, tag := t.kiosk.tag, tagRate := t.kiosk.tagRate, harv := t.kiosk.harv, latched := t.kiosk.latched, app := t.kiosk.app, file := t.kiosk.file, wtx := t.kiosk.wtx, plc := t.kiosk.plc } } ∧ OtherRegs s t [Reg.KIOSK_STAT, Reg.KIOSK_HARV_STAT] [Reg.INT_STAT] []) ∧
  (∀ (s : State), tagOn s = true → s.kiosk.tag = .active → s.kiosk.pend = none → 
    Answers (.tagFrame .hlta) s fun t => t.kiosk.tag = .halt ∧ t.kiosk.latched = none ∧ t.kiosk.app = false ∧ t.kiosk.file = none ∧ t.kiosk.wtx = none ∧ t = { s with out := t.out, regs := t.regs, parBad := t.parBad, quay := { s.quay with msix := t.quay.msix }, kiosk := { s.kiosk with pend := t.kiosk.pend, carrier := t.kiosk.carrier, tag := t.kiosk.tag, tagRate := t.kiosk.tagRate, harv := t.kiosk.harv, latched := t.kiosk.latched, app := t.kiosk.app, file := t.kiosk.file, wtx := t.kiosk.wtx, plc := t.kiosk.plc } } ∧ OtherRegs s t [Reg.KIOSK_STAT, Reg.KIOSK_HARV_STAT] [Reg.INT_STAT] []) ∧
  (∀ (s : State) (f : TagFrame), tagOn s = false ∨ (match f with | .reqa => s.kiosk.tag ≠ .idle | .wupa => s.kiosk.tag ≠ .idle ∧ s.kiosk.tag ≠ .halt | .anticol l => s.kiosk.tag ≠ (if l then .ready2 else .ready1) | .select l _ => s.kiosk.tag ≠ (if l then .ready2 else .ready1) | .rats _ => s.kiosk.tag ≠ .active | .pps _ _ => s.kiosk.tag ≠ .protocol | .deselect => s.kiosk.tag ≠ .protocol | .hlta => s.kiosk.tag ≠ .active) → 
    Answers (.tagFrame f) s fun t => t = s) ∧
  (∀ (s : State), tagOn s = true → s.kiosk.tag = .protocol → s.kiosk.wtx = none → s.kiosk.pend = none → 
    Answers (.tagApdu [0x00, 0xA4, 0x04, 0x00, 0x06, 0xF0, 0x46, 0x5A, 0x58, 0x4B, 0x01] true) s fun t => t.kiosk = { s.kiosk with app := true, file := none } ∧ Out.tag [0x90, 0x00] s.kiosk.tagRate ∈ t.out ∧ t = { s with out := t.out, regs := t.regs, parBad := t.parBad, quay := { s.quay with msix := t.quay.msix }, kiosk := { s.kiosk with pend := t.kiosk.pend, carrier := t.kiosk.carrier, tag := t.kiosk.tag, harv := t.kiosk.harv, latched := t.kiosk.latched, app := t.kiosk.app, file := t.kiosk.file, wtx := t.kiosk.wtx, plc := t.kiosk.plc } } ∧ OtherRegs s t [Reg.KIOSK_STAT, Reg.KIOSK_MBX_CTRL, Reg.KIOSK_MBX_LAST, Reg.KIOSK_HARV_STAT] [Reg.INT_STAT] [0x4E, 0x4F]) ∧
  (∀ (s : State), tagOn s = true → s.kiosk.tag = .protocol → s.kiosk.wtx = none → s.kiosk.pend = none → 
    Answers (.tagApdu [0x00, 0xA4, 0x00, 0x0C, 0x02, 0x00, 0x01] true) s fun t => t.kiosk = { s.kiosk with file := some false } ∧ Out.tag [0x90, 0x00] s.kiosk.tagRate ∈ t.out ∧ t = { s with out := t.out, regs := t.regs, parBad := t.parBad, quay := { s.quay with msix := t.quay.msix }, kiosk := { s.kiosk with pend := t.kiosk.pend, carrier := t.kiosk.carrier, tag := t.kiosk.tag, harv := t.kiosk.harv, latched := t.kiosk.latched, app := t.kiosk.app, file := t.kiosk.file, wtx := t.kiosk.wtx, plc := t.kiosk.plc } } ∧ OtherRegs s t [Reg.KIOSK_STAT, Reg.KIOSK_MBX_CTRL, Reg.KIOSK_MBX_LAST, Reg.KIOSK_HARV_STAT] [Reg.INT_STAT] [0x4E, 0x4F]) ∧
  (∀ (s : State), tagOn s = true → s.kiosk.tag = .protocol → s.kiosk.wtx = none → s.kiosk.pend = none → s.mainOn = true → 
    Answers (.tagApdu [0x00, 0xA4, 0x00, 0x0C, 0x02, 0x00, 0x02] true) s fun t => t.kiosk = { s.kiosk with file := some true } ∧ Out.tag [0x90, 0x00] s.kiosk.tagRate ∈ t.out ∧ t = { s with out := t.out, regs := t.regs, parBad := t.parBad, quay := { s.quay with msix := t.quay.msix }, kiosk := { s.kiosk with pend := t.kiosk.pend, carrier := t.kiosk.carrier, tag := t.kiosk.tag, harv := t.kiosk.harv, latched := t.kiosk.latched, app := t.kiosk.app, file := t.kiosk.file, wtx := t.kiosk.wtx, plc := t.kiosk.plc } } ∧ OtherRegs s t [Reg.KIOSK_STAT, Reg.KIOSK_MBX_CTRL, Reg.KIOSK_MBX_LAST, Reg.KIOSK_HARV_STAT] [Reg.INT_STAT] [0x4E, 0x4F]) ∧
  (∀ (s : State), tagOn s = true → s.kiosk.tag = .protocol → s.kiosk.wtx = none → s.kiosk.pend = none → s.mainOn = false → 
    Answers (.tagApdu [0x00, 0xA4, 0x00, 0x0C, 0x02, 0x00, 0x02] true) s fun t => t.kiosk = s.kiosk ∧ Out.tag [0x6A, 0x82] s.kiosk.tagRate ∈ t.out ∧ t = { s with out := t.out, regs := t.regs, parBad := t.parBad, quay := { s.quay with msix := t.quay.msix }, kiosk := { s.kiosk with pend := t.kiosk.pend, carrier := t.kiosk.carrier, tag := t.kiosk.tag, harv := t.kiosk.harv, latched := t.kiosk.latched, app := t.kiosk.app, file := t.kiosk.file, wtx := t.kiosk.wtx, plc := t.kiosk.plc } } ∧ OtherRegs s t [Reg.KIOSK_STAT, Reg.KIOSK_MBX_CTRL, Reg.KIOSK_MBX_LAST, Reg.KIOSK_HARV_STAT] [Reg.INT_STAT] [0x4E, 0x4F]) ∧
  (∀ (s : State) (a : Bytes), tagOn s = true → s.kiosk.tag = .protocol → s.kiosk.wtx = none → s.kiosk.pend = none → s.kiosk.file = some false → apduRead a = true → 
    Answers (.tagApdu a true) s fun t => Out.tag (readBinary (fit (tagRecord s).len (bankBytes s (tagRecord s).bank)) (apduOff a) (apduLe a)) s.kiosk.tagRate ∈ t.out ∧ t.kiosk = s.kiosk ∧ t.fer = s.fer ∧ t = { s with out := t.out, regs := t.regs, parBad := t.parBad, quay := { s.quay with msix := t.quay.msix }, kiosk := { s.kiosk with pend := t.kiosk.pend, carrier := t.kiosk.carrier, tag := t.kiosk.tag, harv := t.kiosk.harv, latched := t.kiosk.latched, app := t.kiosk.app, file := t.kiosk.file, wtx := t.kiosk.wtx, plc := t.kiosk.plc } } ∧ OtherRegs s t [Reg.KIOSK_STAT, Reg.KIOSK_MBX_CTRL, Reg.KIOSK_MBX_LAST, Reg.KIOSK_HARV_STAT] [Reg.INT_STAT] [0x4E, 0x4F]) ∧
  (∀ (s : State) (a : Bytes), tagOn s = true → s.kiosk.tag = .protocol → s.kiosk.wtx = none → s.kiosk.pend = none → (s.kiosk.file = none ∧ (apduRead a = true ∨ apduUpdate a = true)) ∨ (s.kiosk.file = some false ∧ 2 ≤ a.length ∧ byteAt a 0 = 0 ∧ byteAt a 1 = 0xD6) → 
    Answers (.tagApdu a true) s fun t => t.kiosk = s.kiosk ∧ Out.tag [0x69, 0x86] s.kiosk.tagRate ∈ t.out ∧ t = { s with out := t.out, regs := t.regs, parBad := t.parBad, quay := { s.quay with msix := t.quay.msix }, kiosk := { s.kiosk with pend := t.kiosk.pend, carrier := t.kiosk.carrier, tag := t.kiosk.tag, harv := t.kiosk.harv, latched := t.kiosk.latched, app := t.kiosk.app, file := t.kiosk.file, wtx := t.kiosk.wtx, plc := t.kiosk.plc } } ∧ OtherRegs s t [Reg.KIOSK_STAT, Reg.KIOSK_MBX_CTRL, Reg.KIOSK_MBX_LAST, Reg.KIOSK_HARV_STAT] [Reg.INT_STAT] [0x4E, 0x4F]) ∧
  (∀ (s : State) (a : Bytes), tagOn s = true → s.kiosk.tag = .protocol → s.kiosk.wtx = none → s.kiosk.pend = none → a ≠ [0x00, 0xA4, 0x04, 0x00, 0x06, 0xF0, 0x46, 0x5A, 0x58, 0x4B, 0x01] → a ≠ [0x00, 0xA4, 0x00, 0x0C, 0x02, 0x00, 0x01] → a ≠ [0x00, 0xA4, 0x00, 0x0C, 0x02, 0x00, 0x02] → apduRead a = false → apduUpdate a = false → ¬ (s.kiosk.file = some false ∧ 2 ≤ a.length ∧ byteAt a 0 = 0 ∧ byteAt a 1 = 0xD6) → 
    Answers (.tagApdu a true) s fun t => t.kiosk = s.kiosk ∧ Out.tag [0x6D, 0x00] s.kiosk.tagRate ∈ t.out ∧ t = { s with out := t.out, regs := t.regs, parBad := t.parBad, quay := { s.quay with msix := t.quay.msix }, kiosk := { s.kiosk with pend := t.kiosk.pend, carrier := t.kiosk.carrier, tag := t.kiosk.tag, harv := t.kiosk.harv, latched := t.kiosk.latched, app := t.kiosk.app, file := t.kiosk.file, wtx := t.kiosk.wtx, plc := t.kiosk.plc } } ∧ OtherRegs s t [Reg.KIOSK_STAT, Reg.KIOSK_MBX_CTRL, Reg.KIOSK_MBX_LAST, Reg.KIOSK_HARV_STAT] [Reg.INT_STAT] [0x4E, 0x4F]) ∧
  (∀ (s : State) (a : Bytes), tagOn s = true → s.kiosk.tag = .protocol → s.kiosk.wtx = none → s.kiosk.file = some true → apduRead a = true ∨ apduUpdate a = true → s.kiosk.pend = none → s.kerb.lockdown = true → 
    Answers (.tagApdu a true) s fun t => t.kiosk = s.kiosk ∧ Out.tag [0x69, 0x85] s.kiosk.tagRate ∈ t.out ∧ t = { s with out := t.out, regs := t.regs, parBad := t.parBad, quay := { s.quay with msix := t.quay.msix }, kiosk := { s.kiosk with pend := t.kiosk.pend, carrier := t.kiosk.carrier, tag := t.kiosk.tag, harv := t.kiosk.harv, latched := t.kiosk.latched, app := t.kiosk.app, file := t.kiosk.file, wtx := t.kiosk.wtx, plc := t.kiosk.plc } } ∧ OtherRegs s t [Reg.KIOSK_STAT, Reg.KIOSK_MBX_CTRL, Reg.KIOSK_MBX_LAST, Reg.KIOSK_HARV_STAT] [Reg.INT_STAT] [0x4E, 0x4F]) ∧
  (∀ (s : State) (a : Bytes), tagOn s = true → s.kiosk.tag = .protocol → s.kiosk.wtx = none → s.kiosk.file = some true → apduRead a = true ∨ apduUpdate a = true → s.kerb.lockdown = false → holdGnt s = true → 
    Answers (.tagApdu a true) s fun t => t = { s with kiosk := { s.kiosk with wtx := some (a, 1) }, out := .tag (tagCrc [0xF2, BitVec.ofNat 8 (max 1 (min 59 (fld s Reg.KIOSK_TAG_CFG 13 8)))]) s.kiosk.tagRate :: s.out }) ∧
  (∀ (s : State) (a : Bytes), tagOn s = true → s.kiosk.tag = .protocol → s.kiosk.wtx = none → s.kiosk.file = some true → s.kerb.lockdown = false → holdGnt s = false → s.kiosk.pend = none → apduRead a = true → 
    Answers (.tagApdu a true) s fun t => t.kiosk = s.kiosk ∧ Out.tag (readBinary (bufGet s mbxBuf 0 256) (apduOff a) (apduLe a)) s.kiosk.tagRate ∈ t.out ∧ t = { s with out := t.out, regs := t.regs, parBad := t.parBad, quay := { s.quay with msix := t.quay.msix }, kiosk := { s.kiosk with pend := t.kiosk.pend, carrier := t.kiosk.carrier, tag := t.kiosk.tag, harv := t.kiosk.harv, latched := t.kiosk.latched, app := t.kiosk.app, file := t.kiosk.file, wtx := t.kiosk.wtx, plc := t.kiosk.plc } } ∧ OtherRegs s t [Reg.KIOSK_STAT, Reg.KIOSK_MBX_CTRL, Reg.KIOSK_MBX_LAST, Reg.KIOSK_HARV_STAT] [Reg.INT_STAT] [0x4E, 0x4F]) ∧
  (∀ (s : State) (a : Bytes), tagOn s = true → s.kiosk.tag = .protocol → s.kiosk.wtx = none → s.kiosk.file = some true → s.kerb.lockdown = false → holdGnt s = false → domOn s 22 = true → apduUpdate a = true → apduOff a + byteAt a 4 ≤ 256 → 
    Answers (.tagApdu a true) s fun t => bufGet t mbxBuf (apduOff a) (byteAt a 4) = sl a 5 (byteAt a 4) ∧ Out.tag [0x90, 0x00] s.kiosk.tagRate ∈ t.out ∧ rbit t (rk 0x4E Reg.INT_STAT) 5 = true ∧ reg t Reg.KIOSK_MBX_LAST = BitVec.ofNat 32 (apduOff a % 256 * 2 ^ 16 + byteAt a 4) ∧ t = { s with out := t.out, regs := t.regs, parBad := t.parBad, quay := { s.quay with msix := t.quay.msix }, kiosk := { s.kiosk with pend := t.kiosk.pend, carrier := t.kiosk.carrier, tag := t.kiosk.tag, harv := t.kiosk.harv, latched := t.kiosk.latched, app := t.kiosk.app, file := t.kiosk.file, wtx := t.kiosk.wtx, plc := t.kiosk.plc } } ∧ OtherRegs s t [Reg.KIOSK_STAT, Reg.KIOSK_MBX_CTRL, Reg.KIOSK_MBX_LAST, Reg.KIOSK_HARV_STAT] [Reg.INT_STAT] [0x4E, 0x4F]) ∧
  (∀ (s : State) (a : Bytes), tagOn s = true → s.kiosk.tag = .protocol → s.kiosk.wtx = none → s.kiosk.file = some true → s.kerb.lockdown = false → holdGnt s = false → s.kiosk.pend = none → apduUpdate a = true → 256 < apduOff a + byteAt a 4 → 
    Answers (.tagApdu a true) s fun t => t.kiosk = s.kiosk ∧ Out.tag [0x6B, 0x00] s.kiosk.tagRate ∈ t.out ∧ (∀ i : Fin 64, reg t (mbxBuf + 4 * i.val) = reg s (mbxBuf + 4 * i.val)) ∧ t = { s with out := t.out, regs := t.regs, parBad := t.parBad, quay := { s.quay with msix := t.quay.msix }, kiosk := { s.kiosk with pend := t.kiosk.pend, carrier := t.kiosk.carrier, tag := t.kiosk.tag, harv := t.kiosk.harv, latched := t.kiosk.latched, app := t.kiosk.app, file := t.kiosk.file, wtx := t.kiosk.wtx, plc := t.kiosk.plc } } ∧ OtherRegs s t [Reg.KIOSK_STAT, Reg.KIOSK_MBX_CTRL, Reg.KIOSK_MBX_LAST, Reg.KIOSK_HARV_STAT] [Reg.INT_STAT] [0x4E, 0x4F]) ∧
  (∀ (s : State) (a : Bytes) (ok : Bool), tagOn s = false ∨ s.kiosk.tag ≠ .protocol ∨ s.kiosk.wtx.isSome = true ∨ ok = false → 
    Answers (.tagApdu a ok) s fun t => t = s) ∧
  (∀ (s : State) (a : Bytes) (n : Nat), s.kiosk.wtx = some (a, n) → n < 8 → 
    Answers (.wtxExpire) s fun t => t = { s with kiosk := { s.kiosk with wtx := some (a, n + 1) }, out := .tag (tagCrc [0xF2, BitVec.ofNat 8 (max 1 (min 59 (fld s Reg.KIOSK_TAG_CFG 13 8)))]) s.kiosk.tagRate :: s.out }) ∧
  (∀ (s : State) (a : Bytes) (n : Nat), s.kiosk.wtx = some (a, n) → 8 ≤ n → 
    Answers (.wtxExpire) s fun t => t.kiosk.wtx = none ∧ Out.tag [0x69, 0x85] s.kiosk.tagRate ∈ t.out ∧ (kioskOn s = true → rbit t (rk 0x4E Reg.INT_STAT) 6 = true) ∧ t = { s with out := t.out, regs := t.regs, parBad := t.parBad, quay := { s.quay with msix := t.quay.msix }, kiosk := { s.kiosk with pend := t.kiosk.pend, carrier := t.kiosk.carrier, tag := t.kiosk.tag, harv := t.kiosk.harv, latched := t.kiosk.latched, app := t.kiosk.app, file := t.kiosk.file, wtx := t.kiosk.wtx, plc := t.kiosk.plc } } ∧ OtherRegs s t [Reg.KIOSK_STAT, Reg.KIOSK_MBX_CTRL, Reg.KIOSK_HARV_STAT] [Reg.INT_STAT] []) ∧
  (∀ (s : State), s.kiosk.wtx = none → 
    Answers (.wtxExpire) s fun t => t = s) ∧
  (∀ (s : State) (src : Src), Reaches s src Reg.KIOSK_TAG_CFG → 
    Answers (.kick src) s fun t => t.kiosk.latched = none ∧ t.kiosk.muted = true ∧ t.kiosk.tag = .idle ∧ t.kiosk.wtx = none ∧ t = { s with out := t.out, regs := t.regs, parBad := t.parBad, quay := { s.quay with msix := t.quay.msix }, kiosk := { s.kiosk with pend := t.kiosk.pend, carrier := t.kiosk.carrier, tag := t.kiosk.tag, harv := t.kiosk.harv, latched := t.kiosk.latched, app := t.kiosk.app, file := t.kiosk.file, wtx := t.kiosk.wtx, muted := t.kiosk.muted, plc := t.kiosk.plc } } ∧ OtherRegs s t [Reg.KIOSK_STAT, Reg.KIOSK_HARV_STAT] [Reg.INT_STAT, Reg.ERR_SYND, Reg.ERR_ADDR] []) ∧
  (∀ (s : State), s.kiosk.field = false → 
    Answers (.muteEnd) s fun t => t = { s with kiosk := { s.kiosk with muted := false } }) ∧
  (∀ (s : State), s.kiosk.field = true → 
    Answers (.muteEnd) s fun t => t = s) ∧
  (∀ (s : State) (src : Src) (len : BitVec 12), Reaches s src Reg.KIOSK_PLC_CMD → s.kiosk.plc = none → s.kerb.lockdown = false → 0 < len.toNat → len.toNat ≤ 2048 → (s.kiosk.latched.any fun l => l.bank == !((placard s).getD { noPlacard with bank := true }).bank) = false → 
    Answers (.plcCommit src len) s fun t => fld t Reg.KIOSK_PLC_CMD 11 0 = len.toNat ∧ t.kiosk = { s.kiosk with plc := some (.runs ({ bank := !((placard s).getD { noPlacard with bank := true }).bank, len := len.toNat, uid := toLe 4 (reg s Reg.KIOSK_UID_LO).toNat ++ toLe 3 (reg s Reg.KIOSK_UID_HI).toNat, fwi := fld s Reg.KIOSK_TAG_CFG 3 0, fieldTag := rbit s Reg.KIOSK_TAG_CFG 4, seq := ((placard s).getD { noPlacard with bank := true }).seq + 1 } : PlcRec) (bufGet s plcBuf 0 len.toNat)) } ∧ t.fer = s.fer ∧ t = { s with out := t.out, regs := t.regs, parBad := t.parBad, quay := { s.quay with msix := t.quay.msix }, kiosk := { s.kiosk with plc := t.kiosk.plc } } ∧ OtherRegs s t [Reg.KIOSK_PLC_CMD] [Reg.INT_STAT, Reg.ERR_SYND, Reg.ERR_ADDR] []) ∧
  (∀ (s : State) (src : Src) (len : BitVec 12), Reaches s src Reg.KIOSK_PLC_CMD → s.kiosk.plc = none → s.kerb.lockdown = false → 0 < len.toNat → len.toNat ≤ 2048 → (s.kiosk.latched.any fun l => l.bank == !((placard s).getD { noPlacard with bank := true }).bank) = true → 
    Answers (.plcCommit src len) s fun t => fld t Reg.KIOSK_PLC_CMD 11 0 = len.toNat ∧ t.kiosk = { s.kiosk with plc := some (.waits len.toNat) } ∧ t.fer = s.fer ∧ t = { s with out := t.out, regs := t.regs, parBad := t.parBad, quay := { s.quay with msix := t.quay.msix }, kiosk := { s.kiosk with plc := t.kiosk.plc } } ∧ OtherRegs s t [Reg.KIOSK_PLC_CMD] [Reg.INT_STAT, Reg.ERR_SYND, Reg.ERR_ADDR] []) ∧
  (∀ (s : State) (src : Src) (len : BitVec 12), Reaches s src Reg.KIOSK_PLC_CMD → s.kiosk.plc = none → s.kerb.lockdown = false → len.toNat = 0 ∨ 2048 < len.toNat → 
    Answers (.plcCommit src len) s fun t => fld t Reg.KIOSK_PLC_CMD 30 28 = 1 ∧ t.kiosk = s.kiosk ∧ t.fer = s.fer ∧ t = { s with out := t.out, regs := t.regs, parBad := t.parBad, quay := { s.quay with msix := t.quay.msix }, kiosk := { s.kiosk with plc := t.kiosk.plc } } ∧ OtherRegs s t [Reg.KIOSK_PLC_CMD] [Reg.INT_STAT, Reg.ERR_SYND, Reg.ERR_ADDR] []) ∧
  (∀ (s : State) (src : Src) (len : BitVec 12), Reaches s src Reg.KIOSK_PLC_CMD → s.kiosk.plc = none → s.kerb.lockdown = true → 
    Answers (.plcCommit src len) s fun t => fld t Reg.KIOSK_PLC_CMD 30 28 = 3 ∧ t.kiosk = s.kiosk ∧ t.fer = s.fer ∧ t = { s with out := t.out, regs := t.regs, parBad := t.parBad, quay := { s.quay with msix := t.quay.msix }, kiosk := { s.kiosk with plc := t.kiosk.plc } } ∧ OtherRegs s t [Reg.KIOSK_PLC_CMD] [Reg.INT_STAT, Reg.ERR_SYND, Reg.ERR_ADDR] []) ∧
  (∀ (s : State) (src : Src) (len : BitVec 12), Reaches s src Reg.KIOSK_PLC_CMD → s.kiosk.plc.isSome = true → rbit s (rk 0x4E Reg.ERR_SYND) 23 = false → 
    Answers (.plcCommit src len) s fun t => fld t (rk 0x4E Reg.ERR_SYND) 31 24 = 0x10 ∧ reg t (rk 0x4E Reg.ERR_ADDR) = BitVec.ofNat 32 (2 ^ 27 + len.toNat) ∧ t.kiosk = s.kiosk ∧ t.fer = s.fer ∧ t = { s with out := t.out, regs := t.regs, parBad := t.parBad, quay := { s.quay with msix := t.quay.msix }, kiosk := { s.kiosk with plc := t.kiosk.plc } } ∧ OtherRegs s t [Reg.KIOSK_PLC_CMD] [Reg.INT_STAT, Reg.ERR_SYND, Reg.ERR_ADDR] []) ∧
  (∀ (s : State) (r : PlcRec) (d : Bytes), s.kiosk.plc = some (.runs r d) → 
    Answers (.plcCommitDone true) s fun t => bankBytes t r.bank = d ∧ bankBytes t (!r.bank) = bankBytes s (!r.bank) ∧ (t.fer.plcA = some r ∨ t.fer.plcB = some r) ∧ t.kiosk = { s.kiosk with plc := none } ∧ fld t Reg.KIOSK_PLC_CMD 30 28 = 0 ∧ t = { s with out := t.out, regs := t.regs, parBad := t.parBad, wins := t.wins, quay := { s.quay with msix := t.quay.msix }, kerb := { s.kerb with reports := t.kerb.reports }, fer := { s.fer with bank0 := t.fer.bank0, bank1 := t.fer.bank1, plcA := t.fer.plcA, plcB := t.fer.plcB }, fnt := { s.fnt with state := t.fnt.state, absorbed := t.fnt.absorbed, credit := t.fnt.credit, seed := t.fnt.seed, int := t.fnt.int, sw := t.fnt.sw, katBusy := t.fnt.katBusy, part := t.fnt.part, rngDead := t.fnt.rngDead }, kiosk := { s.kiosk with plc := t.kiosk.plc } } ∧ OtherRegs s t [Reg.KIOSK_PLC_CMD] [Reg.PAGE_STAT, Reg.INT_STAT, Reg.FAULT_CNT] []) ∧
  (∀ (s : State) (r : PlcRec) (d : Bytes), s.kiosk.plc = some (.runs r d) → 
    Answers (.plcCommitDone false) s fun t => t.fer = s.fer ∧ t.kiosk = { s.kiosk with plc := none } ∧ fld t Reg.KIOSK_PLC_CMD 30 28 = 2 ∧ t = { s with out := t.out, regs := t.regs, parBad := t.parBad, wins := t.wins, quay := { s.quay with msix := t.quay.msix }, kerb := { s.kerb with reports := t.kerb.reports }, fer := { s.fer with bank0 := t.fer.bank0, bank1 := t.fer.bank1, plcA := t.fer.plcA, plcB := t.fer.plcB }, fnt := { s.fnt with state := t.fnt.state, absorbed := t.fnt.absorbed, credit := t.fnt.credit, seed := t.fnt.seed, int := t.fnt.int, sw := t.fnt.sw, katBusy := t.fnt.katBusy, part := t.fnt.part, rngDead := t.fnt.rngDead }, kiosk := { s.kiosk with plc := t.kiosk.plc } } ∧ OtherRegs s t [Reg.KIOSK_PLC_CMD] [Reg.PAGE_STAT, Reg.INT_STAT, Reg.FAULT_CNT] []) ∧
  (∀ (s : State) (ok : Bool), (match s.kiosk.plc with | some (.runs _ _) => false | _ => true) = true → 
    Answers (.plcCommitDone ok) s fun t => t = s) ∧
  (∀ (s : State) (src : Src), Reaches s src Reg.KIOSK_MBX_CTRL → s.kiosk.wtx = none → 
    Answers (.mbxHold src true) s fun t => holdGnt t = true ∧ rbit t Reg.KIOSK_MBX_CTRL 0 = true ∧ (holdGnt s = false → rbit t (rk 0x4E Reg.INT_STAT) 8 = true) ∧ t.kiosk = s.kiosk ∧ t = { s with out := t.out, regs := t.regs, parBad := t.parBad, quay := { s.quay with msix := t.quay.msix }, kiosk := { s.kiosk with pend := t.kiosk.pend, carrier := t.kiosk.carrier, tag := t.kiosk.tag, harv := t.kiosk.harv, latched := t.kiosk.latched, app := t.kiosk.app, file := t.kiosk.file, wtx := t.kiosk.wtx, plc := t.kiosk.plc } } ∧ OtherRegs s t [Reg.KIOSK_STAT, Reg.KIOSK_MBX_CTRL, Reg.KIOSK_MBX_LAST, Reg.KIOSK_HARV_STAT] [Reg.INT_STAT, Reg.ERR_SYND, Reg.ERR_ADDR] [0x4E, 0x4F]) ∧
  (∀ (s : State) (src : Src), Reaches s src Reg.KIOSK_MBX_CTRL → s.kiosk.wtx.isSome = true → 
    Answers (.mbxHold src true) s fun t => rbit t Reg.KIOSK_MBX_CTRL 0 = true ∧ holdGnt t = holdGnt s ∧ t.kiosk = s.kiosk ∧ t.out = s.out ∧ t = { s with out := t.out, regs := t.regs, parBad := t.parBad, quay := { s.quay with msix := t.quay.msix }, kiosk := { s.kiosk with pend := t.kiosk.pend, carrier := t.kiosk.carrier, tag := t.kiosk.tag, harv := t.kiosk.harv, latched := t.kiosk.latched, app := t.kiosk.app, file := t.kiosk.file, wtx := t.kiosk.wtx, plc := t.kiosk.plc } } ∧ OtherRegs s t [Reg.KIOSK_STAT, Reg.KIOSK_MBX_CTRL, Reg.KIOSK_MBX_LAST, Reg.KIOSK_HARV_STAT] [Reg.INT_STAT, Reg.ERR_SYND, Reg.ERR_ADDR] [0x4E, 0x4F]) ∧
  (∀ (s : State) (src : Src), Reaches s src Reg.KIOSK_MBX_CTRL → s.kiosk.wtx = none → 
    Answers (.mbxHold src false) s fun t => holdGnt t = false ∧ rbit t Reg.KIOSK_MBX_CTRL 0 = false ∧ t.kiosk = s.kiosk ∧ t.out = s.out ∧ t = { s with out := t.out, regs := t.regs, parBad := t.parBad, quay := { s.quay with msix := t.quay.msix }, kiosk := { s.kiosk with pend := t.kiosk.pend, carrier := t.kiosk.carrier, tag := t.kiosk.tag, harv := t.kiosk.harv, latched := t.kiosk.latched, app := t.kiosk.app, file := t.kiosk.file, wtx := t.kiosk.wtx, plc := t.kiosk.plc } } ∧ OtherRegs s t [Reg.KIOSK_STAT, Reg.KIOSK_MBX_CTRL, Reg.KIOSK_MBX_LAST, Reg.KIOSK_HARV_STAT] [Reg.INT_STAT, Reg.ERR_SYND, Reg.ERR_ADDR] [0x4E, 0x4F]) ∧
  (∀ (s : State) (src : Src) (a : Bytes) (n : Nat), Reaches s src Reg.KIOSK_MBX_CTRL → s.kiosk.wtx = some (a, n) → s.kiosk.pend = none → s.kerb.lockdown = true → 
    Answers (.mbxHold src false) s fun t => holdGnt t = false ∧ t.kiosk = { s.kiosk with wtx := none } ∧ Out.tag [0x69, 0x85] s.kiosk.tagRate ∈ t.out ∧ t = { s with out := t.out, regs := t.regs, parBad := t.parBad, quay := { s.quay with msix := t.quay.msix }, kiosk := { s.kiosk with pend := t.kiosk.pend, carrier := t.kiosk.carrier, tag := t.kiosk.tag, harv := t.kiosk.harv, latched := t.kiosk.latched, app := t.kiosk.app, file := t.kiosk.file, wtx := t.kiosk.wtx, plc := t.kiosk.plc } } ∧ OtherRegs s t [Reg.KIOSK_STAT, Reg.KIOSK_MBX_CTRL, Reg.KIOSK_MBX_LAST, Reg.KIOSK_HARV_STAT] [Reg.INT_STAT, Reg.ERR_SYND, Reg.ERR_ADDR] [0x4E, 0x4F]) ∧
  (∀ (s : State) (src : Src) (a : Bytes) (n : Nat), Reaches s src Reg.KIOSK_MBX_CTRL → s.kiosk.wtx = some (a, n) → s.kerb.lockdown = false → s.kiosk.pend = none → byteAt a 1 = 0xB0 → 
    Answers (.mbxHold src false) s fun t => holdGnt t = false ∧ t.kiosk = { s.kiosk with wtx := none } ∧ Out.tag (readBinary (bufGet s mbxBuf 0 256) (apduOff a) (apduLe a)) s.kiosk.tagRate ∈ t.out ∧ t = { s with out := t.out, regs := t.regs, parBad := t.parBad, quay := { s.quay with msix := t.quay.msix }, kiosk := { s.kiosk with pend := t.kiosk.pend, carrier := t.kiosk.carrier, tag := t.kiosk.tag, harv := t.kiosk.harv, latched := t.kiosk.latched, app := t.kiosk.app, file := t.kiosk.file, wtx := t.kiosk.wtx, plc := t.kiosk.plc } } ∧ OtherRegs s t [Reg.KIOSK_STAT, Reg.KIOSK_MBX_CTRL, Reg.KIOSK_MBX_LAST, Reg.KIOSK_HARV_STAT] [Reg.INT_STAT, Reg.ERR_SYND, Reg.ERR_ADDR] [0x4E, 0x4F]) ∧
  (∀ (s : State) (src : Src) (a : Bytes) (n : Nat), Reaches s src Reg.KIOSK_MBX_CTRL → s.kiosk.wtx = some (a, n) → s.kerb.lockdown = false → byteAt a 1 ≠ 0xB0 → apduOff a + byteAt a 4 ≤ 256 → byteAt a 4 + 5 ≤ a.length → 
    Answers (.mbxHold src false) s fun t => holdGnt t = false ∧ t.kiosk.wtx = none ∧ bufGet t mbxBuf (apduOff a) (byteAt a 4) = sl a 5 (byteAt a 4) ∧ Out.tag [0x90, 0x00] s.kiosk.tagRate ∈ t.out ∧ t = { s with out := t.out, regs := t.regs, parBad := t.parBad, quay := { s.quay with msix := t.quay.msix }, kiosk := { s.kiosk with pend := t.kiosk.pend, carrier := t.kiosk.carrier, tag := t.kiosk.tag, harv := t.kiosk.harv, latched := t.kiosk.latched, app := t.kiosk.app, file := t.kiosk.file, wtx := t.kiosk.wtx, plc := t.kiosk.plc } } ∧ OtherRegs s t [Reg.KIOSK_STAT, Reg.KIOSK_MBX_CTRL, Reg.KIOSK_MBX_LAST, Reg.KIOSK_HARV_STAT] [Reg.INT_STAT, Reg.ERR_SYND, Reg.ERR_ADDR] [0x4E, 0x4F])

/-- A 0 written to a PWR_REQ bit that may fall begins the domain's drain, one that may not is recorded with its reason, and once drained the domain is off and has lost its registers, units, cores, link, tag session, cards; a 1 cancels a drain or begins switching on, and at its end the domain is on; SYS_RST_N, HUB_RESET with the key and the loss of the PLL reset the Hub, each with its cause; the PLL then locks, SRAM is initialised and the device is READY; the autoload issues INIT and then the load; BOOT_CFG and BOOT_LBA are stored while unlocked and confirmed. What is not due does nothing. A clause that is no reset, loss of power or switching off names what may change beside; every other part of the state and every other register is as before. Forms whose completion it states: domainSwitchOff, domainSwitchOn, domainOffDone, domainOnDone, sysRstN, sysRstNRise, hubReset, pllLoss, pllLock, sramInitDone, autoload, sdResponse, busyTimeout, bootCfgWrite, bootLbaWrite. (R512, R514, R515, R516, R520, R522, R523, R525, R526, R527, R528, R530) -/
def Obligations.PowerAndBoot : Prop :=
  (∀ (s : State) (src : Src) (n : DomNo), Reaches s src Reg.PWR_REQ → offReason s n.val = none → rbit s Reg.PWR_REQ n.val = true → 
    Answers (.domainSwitchOff src n) s fun t => rbit t Reg.PWR_REQ n.val = false ∧ rbit t Reg.PWR_BUSY n.val = true ∧ domOn t n.val = domOn s n.val ∧ (∀ m : DomNo, m ≠ n → rbit t Reg.PWR_REQ m.val = rbit s Reg.PWR_REQ m.val) ∧ t = { s with out := t.out, regs := t.regs, parBad := t.parBad, quay := { s.quay with msix := t.quay.msix } } ∧ OtherRegs s t [Reg.PWR_REQ, Reg.PWR_BUSY] [Reg.INT_STAT, Reg.ERR_SYND, Reg.ERR_ADDR] []) ∧
  (∀ (s : State) (src : Src) (n : DomNo) (r : Nat), Reaches s src Reg.PWR_REQ → offReason s n.val = some r → ∀ m : DomNo, m.val < n.val → rbit s Reg.PWR_REQ m.val = true ∨ offReason s m.val = none → 
    Answers (.domainSwitchOff src n) s fun t => (∀ m : DomNo, rbit t Reg.PWR_REQ m.val = rbit s Reg.PWR_REQ m.val) ∧ (domOn s 0 = true ∧ rbit s (rk 2 Reg.ERR_SYND) 23 = false → fld t (rk 2 Reg.ERR_SYND) 31 24 = 16 ∧ fld t (rk 2 Reg.ERR_SYND) 15 0 = n.val + 256 * r ∧ reg t (rk 2 Reg.ERR_ADDR) = wput (reg s Reg.PWR_REQ) n.val n.val 0) ∧ t = { s with out := t.out, regs := t.regs, parBad := t.parBad, quay := { s.quay with msix := t.quay.msix } } ∧ OtherRegs s t [Reg.PWR_REQ, Reg.PWR_BUSY] [Reg.INT_STAT, Reg.ERR_SYND, Reg.ERR_ADDR] []) ∧
  (∀ (s : State) (src : Src) (n : DomNo), Reaches s src Reg.PWR_REQ → rbit s Reg.PWR_REQ n.val = false → ∀ m : DomNo, rbit s Reg.PWR_REQ m.val = true ∨ offReason s m.val = none → 
    Answers (.domainSwitchOff src n) s fun t => t = reparity s Reg.PWR_REQ) ∧
  (∀ (s : State) (src : Src) (n : DomNo), Reaches s src Reg.PWR_REQ → rbit s Reg.PWR_REQ n.val = false → 
    Answers (.domainSwitchOn src n) s fun t => rbit t Reg.PWR_REQ n.val = true ∧ rbit t Reg.PWR_BUSY n.val = (!domOn s n.val) ∧ (∀ m : DomNo, m ≠ n → rbit t Reg.PWR_REQ m.val = rbit s Reg.PWR_REQ m.val) ∧ t = { s with out := t.out, regs := t.regs, parBad := t.parBad, quay := { s.quay with msix := t.quay.msix } } ∧ OtherRegs s t [Reg.PWR_REQ, Reg.PWR_BUSY] [Reg.INT_STAT, Reg.ERR_SYND, Reg.ERR_ADDR] []) ∧
  (∀ (s : State) (src : Src) (n : DomNo), Reaches s src Reg.PWR_REQ → rbit s Reg.PWR_REQ n.val = true → ∀ m : DomNo, rbit s Reg.PWR_REQ m.val = true ∨ offReason s m.val = none → 
    Answers (.domainSwitchOn src n) s fun t => t = reparity s Reg.PWR_REQ) ∧
  (∀ (s : State) (n : DomNo), rbit s Reg.PWR_BUSY n.val = true → rbit s Reg.PWR_REQ n.val = false → domOn s n.val = true → drainedDom s n.val = true → switchable n.val = true → 
    Answers (.domainOffDone n) s fun t => rbit t Reg.PWR_STAT n.val = false ∧ rbit t Reg.PWR_BUSY n.val = false ∧ (∀ m : DomNo, m ≠ n → rbit t Reg.PWR_STAT m.val = rbit s Reg.PWR_STAT m.val)) ∧
  (∀ (s : State) (n : DomNo), rbit s Reg.PWR_BUSY n.val = true → rbit s Reg.PWR_REQ n.val = false → domOn s n.val = true → drainedDom s n.val = true → 1 ≤ n.val → n.val ≤ 11 → 
    Answers (.domainOffDone n) s fun t => rbit t Reg.PWR_STAT n.val = false ∧ rbit t Reg.PWR_BUSY n.val = false ∧ (∀ k, inDom n.val k = true → reg t k = regReset k) ∧ (s.load = none → t.mem = s.mem)) ∧
  (∀ (s : State), rbit s Reg.PWR_BUSY 16 = true → rbit s Reg.PWR_REQ 16 = false → domOn s 16 = true → drainedDom s 16 = true → 
    Answers (.domainOffDone 16) s fun t => rbit t Reg.PWR_STAT 16 = false ∧ t.cores = [] ∧ (∀ a, memByte t a = if lramBase 0 ≤ a ∧ a < lramBase 16 then 0 else memByte s a)) ∧
  (∀ (s : State), rbit s Reg.PWR_BUSY 17 = true → rbit s Reg.PWR_REQ 17 = false → domOn s 17 = true → drainedDom s 17 = true → s.xing.link = true → 
    Answers (.domainOffDone 17) s fun t => rbit t Reg.PWR_STAT 17 = false ∧ rbit t Reg.PWR_BUSY 17 = false ∧ t.xing.link = false ∧ t.xing.sess = none ∧ (s.load = none → t.mem = s.mem)) ∧
  (∀ (s : State), rbit s Reg.PWR_BUSY 22 = true → rbit s Reg.PWR_REQ 22 = false → domOn s 22 = true → drainedDom s 22 = true → 
    Answers (.domainOffDone 22) s fun t => rbit t Reg.PWR_STAT 22 = false ∧ rbit t Reg.PWR_BUSY 22 = false ∧ t.kiosk = kioskFresh s ∧ (s.load = none → t.mem = s.mem)) ∧
  (∀ (s : State), rbit s Reg.PWR_BUSY 23 = true → rbit s Reg.PWR_REQ 23 = false → domOn s 23 = true → drainedDom s 23 = true → s.load = none → 
    Answers (.domainOffDone 23) s fun t => rbit t Reg.PWR_STAT 23 = false ∧ rbit t Reg.PWR_BUSY 23 = false ∧ t.sd = {} ∧ t.pb0 = {} ∧ t.pb1 = {}) ∧
  (∀ (s : State) (n : DomNo), rbit s Reg.PWR_BUSY n.val = true → rbit s Reg.PWR_REQ n.val = true → domOn s n.val = true → drainedDom s n.val = true → switchable n.val = true → 
    Answers (.domainOffDone n) s fun t => rbit t Reg.PWR_STAT n.val = false ∧ rbit t Reg.PWR_BUSY n.val = true ∧ (∀ m : DomNo, m ≠ n → rbit t Reg.PWR_STAT m.val = rbit s Reg.PWR_STAT m.val)) ∧
  (∀ (s : State) (n : DomNo), rbit s Reg.PWR_BUSY n.val = false ∨ domOn s n.val = false ∨ drainedDom s n.val = false → 
    Answers (.domainOffDone n) s fun t => t = resumeAll s) ∧
  (∀ (s : State) (n : DomNo), rbit s Reg.PWR_BUSY n.val = true → rbit s Reg.PWR_STAT n.val = false → rbit s Reg.PWR_REQ n.val = true → 
    Answers (.domainOnDone n) s fun t => rbit t Reg.PWR_STAT n.val = true ∧ rbit t Reg.PWR_BUSY n.val = false ∧ (∀ m : DomNo, m ≠ n → rbit t Reg.PWR_STAT m.val = rbit s Reg.PWR_STAT m.val) ∧ (s.load = none → t.mem = s.mem) ∧ t = { s with out := t.out, regs := t.regs, parBad := t.parBad, wins := t.wins, quay := { s.quay with queues := t.quay.queues, doms := t.quay.doms, domRR := t.quay.domRR, ctxs := t.quay.ctxs, msix := t.quay.msix }, units := { s.units with cipher := t.units.cipher, hash := t.units.hash, arc := t.units.arc, heldRetry := t.units.heldRetry, heldEnd := t.units.heldEnd }, mews := { s.mews with slots := t.mews.slots, genBase := t.mews.genBase, cascades := t.mews.cascades, zeroising := t.mews.zeroising }, life := t.life, kerb := { s.kerb with reports := t.kerb.reports }, fer := { s.fer with lcA := t.fer.lcA, lcB := t.fer.lcB, integrator := t.fer.integrator, pairB := t.fer.pairB, peerSerial := t.fer.peerSerial, pairId := t.fer.pairId, pairCnt := t.fer.pairCnt, fleetRole := t.fer.fleetRole, fleetId := t.fer.fleetId, wards := t.fer.wards, voucher := t.fer.voucher, lastSeq := t.fer.lastSeq }, bak := { s.bak with cust := t.bak.cust, pairRoot := t.bak.pairRoot, fleetRoot := t.bak.fleetRoot }, fnt := { s.fnt with state := t.fnt.state, absorbed := t.fnt.absorbed, credit := t.fnt.credit, seed := t.fnt.seed, int := t.fnt.int, sw := t.fnt.sw, katBusy := t.fnt.katBusy, draws := t.fnt.draws, part := t.fnt.part, got := t.fnt.got, rng := t.fnt.rng, rngDone := t.fnt.rngDone, rngDead := t.fnt.rngDead }, curves := t.curves, xing := { s.xing with state := t.xing.state, seqr := t.xing.seqr, mirror := t.xing.mirror, sess := t.xing.sess, upWait := t.xing.upWait, joinErr := t.xing.joinErr, held := t.xing.held, stmt := t.xing.stmt, eph := t.xing.eph, failing := t.xing.failing, left := t.xing.left, wave := t.xing.wave }, fleet := t.fleet, clk := { s.clk with load := t.clk.load }, cores := t.cores, load := t.load, autoload := t.autoload, chk := { s.chk with eccBad := t.chk.eccBad, slotBad := t.chk.slotBad }, sd := { s.sd with op := t.sd.op, clk := t.sd.clk }, kiosk := { s.kiosk with harv := t.kiosk.harv }, mem := t.mem } ∧ OtherRegs s t [Reg.PWR_STAT, Reg.PWR_BUSY, Reg.BOOT_STAT, Reg.CT_CMD, Reg.QUAY_RPL_HITS, Reg.RBT_LATE, Reg.MEWS_REVOKES, Reg.COMP_AUTH_FAIL, Reg.COMP_DONE, Reg.IXM_LD_SRC, Reg.IXM_LD_ADDR_LO, Reg.IXM_LD_CMD, Reg.IXM_LD_INFO, Reg.CHECKPOINT_SRAM_ECC, Reg.XING_CMD, Reg.FLEET_CMD, Reg.FLEET_ID_LO, Reg.FLEET_ID_HI, Reg.KIOSK_STAT, Reg.KIOSK_HARV_STAT] [Reg.PAGE_STAT, Reg.INT_STAT, Reg.ERR_SYND, Reg.ERR_ADDR, Reg.FAULT_CNT, Reg.QUAY_LINK_STAT, Reg.QUAY_LINK_ERR] [0x48, 0x49, 0x4A, 0x4B, 0x4C, 0x4D, 0x4E, 0x4F]) ∧
  (∀ (s : State) (n : DomNo), rbit s Reg.PWR_BUSY n.val = true → rbit s Reg.PWR_STAT n.val = false → rbit s Reg.PWR_REQ n.val = false → 
    Answers (.domainOnDone n) s fun t => rbit t Reg.PWR_STAT n.val = true ∧ rbit t Reg.PWR_BUSY n.val = true ∧ (∀ m : DomNo, m ≠ n → rbit t Reg.PWR_STAT m.val = rbit s Reg.PWR_STAT m.val) ∧ (s.load = none → t.mem = s.mem) ∧ t = { s with out := t.out, regs := t.regs, parBad := t.parBad, wins := t.wins, quay := { s.quay with queues := t.quay.queues, doms := t.quay.doms, domRR := t.quay.domRR, ctxs := t.quay.ctxs, msix := t.quay.msix }, units := { s.units with cipher := t.units.cipher, hash := t.units.hash, arc := t.units.arc, heldRetry := t.units.heldRetry, heldEnd := t.units.heldEnd }, mews := { s.mews with slots := t.mews.slots, genBase := t.mews.genBase, cascades := t.mews.cascades, zeroising := t.mews.zeroising }, life := t.life, kerb := { s.kerb with reports := t.kerb.reports }, fer := { s.fer with lcA := t.fer.lcA, lcB := t.fer.lcB, integrator := t.fer.integrator, pairB := t.fer.pairB, peerSerial := t.fer.peerSerial, pairId := t.fer.pairId, pairCnt := t.fer.pairCnt, fleetRole := t.fer.fleetRole, fleetId := t.fer.fleetId, wards := t.fer.wards, voucher := t.fer.voucher, lastSeq := t.fer.lastSeq }, bak := { s.bak with cust := t.bak.cust, pairRoot := t.bak.pairRoot, fleetRoot := t.bak.fleetRoot }, fnt := { s.fnt with state := t.fnt.state, absorbed := t.fnt.absorbed, credit := t.fnt.credit, seed := t.fnt.seed, int := t.fnt.int, sw := t.fnt.sw, katBusy := t.fnt.katBusy, draws := t.fnt.draws, part := t.fnt.part, got := t.fnt.got, rng := t.fnt.rng, rngDone := t.fnt.rngDone, rngDead := t.fnt.rngDead }, curves := t.curves, xing := { s.xing with state := t.xing.state, seqr := t.xing.seqr, mirror := t.xing.mirror, sess := t.xing.sess, upWait := t.xing.upWait, joinErr := t.xing.joinErr, held := t.xing.held, stmt := t.xing.stmt, eph := t.xing.eph, failing := t.xing.failing, left := t.xing.left, wave := t.xing.wave }, fleet := t.fleet, clk := { s.clk with load := t.clk.load }, cores := t.cores, load := t.load, autoload := t.autoload, chk := { s.chk with eccBad := t.chk.eccBad, slotBad := t.chk.slotBad }, sd := { s.sd with op := t.sd.op, clk := t.sd.clk }, kiosk := { s.kiosk with harv := t.kiosk.harv }, mem := t.mem } ∧ OtherRegs s t [Reg.PWR_STAT, Reg.PWR_BUSY, Reg.BOOT_STAT, Reg.CT_CMD, Reg.QUAY_RPL_HITS, Reg.RBT_LATE, Reg.MEWS_REVOKES, Reg.COMP_AUTH_FAIL, Reg.COMP_DONE, Reg.IXM_LD_SRC, Reg.IXM_LD_ADDR_LO, Reg.IXM_LD_CMD, Reg.IXM_LD_INFO, Reg.CHECKPOINT_SRAM_ECC, Reg.XING_CMD, Reg.FLEET_CMD, Reg.FLEET_ID_LO, Reg.FLEET_ID_HI, Reg.KIOSK_STAT, Reg.KIOSK_HARV_STAT] [Reg.PAGE_STAT, Reg.INT_STAT, Reg.ERR_SYND, Reg.ERR_ADDR, Reg.FAULT_CNT, Reg.QUAY_LINK_STAT, Reg.QUAY_LINK_ERR] [0x48, 0x49, 0x4A, 0x4B, 0x4C, 0x4D, 0x4E, 0x4F]) ∧
  (∀ (s : State) (n : DomNo), rbit s Reg.PWR_BUSY n.val = false ∨ domOn s n.val = true → 
    Answers (.domainOnDone n) s fun t => t = resumeAll s) ∧
  (∀ (s : State), s.mainOn = true → s.rstHigh = true → 
    Answers (.sysRstN) s fun t => t.tick = 0 ∧ t.quay = {} ∧ t.mews = {} ∧ t.cores = [] ∧ t.units = {} ∧ t.chk = {} ∧ t.fnt = {} ∧ t.fleet = {} ∧ t.clk = {} ∧ t.curves = [] ∧ t.load = none ∧ t.autoload = none ∧ t.life.root = none ∧ t.bak = s.bak ∧ rbit t Reg.RST_CAUSE 1 = true ∧ bootStage t = 0 ∧ bootReady t = false ∧ (∀ a, memByte t a = if 0x05000000 ≤ a then memByte s a else 0) ∧ t.xing.wave = false ∧ (s.xing.wave = true → t.out.head? = some (.pin "XALIVE_OUT" 0)) ∧ t.rstHigh = false) ∧
  (∀ (s : State), s.mainOn = false ∨ s.rstHigh = false → 
    Answers (.sysRstN) s fun t => t = s) ∧
  (∀ (s : State), s.mainOn = true → s.rstHigh = false → 
    Answers (.sysRstNRise) s fun t => bootStage t = 1 ∧ t.rstHigh = true ∧ t.quay = s.quay ∧ t = { s with regs := t.regs, parBad := t.parBad, rstHigh := t.rstHigh } ∧ OtherRegs s t [Reg.BOOT_STAT] [] []) ∧
  (∀ (s : State), s.mainOn = false ∨ s.rstHigh = true → 
    Answers (.sysRstNRise) s fun t => t = s) ∧
  (∀ (s : State) (src : Src), Reaches s src Reg.RST_CTRL → 
    Answers (.hubReset src 0xA5C3) s fun t => t.tick = 0 ∧ t.quay = {} ∧ t.mews = {} ∧ t.cores = [] ∧ t.units = {} ∧ t.chk = {} ∧ t.fnt = {} ∧ t.fleet = {} ∧ t.clk = {} ∧ t.curves = [] ∧ t.load = none ∧ t.autoload = none ∧ t.life.root = none ∧ t.bak = s.bak ∧ rbit t Reg.RST_CAUSE 3 = true ∧ bootStage t = (if s.rstHigh then 1 else 0) ∧ bootReady t = false ∧ (∀ a, memByte t a = if 0x05000000 ≤ a then memByte s a else 0) ∧ t.xing.wave = false ∧ (s.xing.wave = true → t.out.head? = some (.pin "XALIVE_OUT" 0))) ∧
  (∀ (s : State) (src : Src) (k : BitVec 16), Reaches s src Reg.RST_CTRL → k ≠ 0xA5C3 → 
    Answers (.hubReset src k) s fun t => t.tick = s.tick ∧ t.mews = s.mews ∧ t.quay.ctxs = s.quay.ctxs ∧ bootStage t = bootStage s ∧ (rbit s (rk 3 Reg.ERR_SYND) 23 = false ∧ domOn s 0 = true → fld t (rk 3 Reg.ERR_SYND) 31 24 = 0x10 ∧ reg t (rk 3 Reg.ERR_ADDR) = BitVec.ofNat 32 (k.toNat * 2 ^ 16 + 1)) ∧ t = { s with out := t.out, regs := t.regs, parBad := t.parBad, quay := { s.quay with msix := t.quay.msix } } ∧ OtherRegs s t [] [Reg.INT_STAT, Reg.ERR_SYND, Reg.ERR_ADDR] []) ∧
  (∀ (s : State), pllRuns s = true → 
    Answers (.pllLoss) s fun t => t.tick = 0 ∧ t.quay = {} ∧ t.mews = {} ∧ t.cores = [] ∧ t.units = {} ∧ t.chk = {} ∧ t.fnt = {} ∧ t.fleet = {} ∧ t.clk = {} ∧ t.curves = [] ∧ t.load = none ∧ t.autoload = none ∧ t.life.root = none ∧ rbit t Reg.RST_CAUSE 4 = true ∧ bootStage t = (if s.rstHigh then 1 else 0) ∧ bootReady t = false ∧ t.xing.wave = false ∧ (s.xing.wave = true → t.out.head? = some (.pin "XALIVE_OUT" 0))) ∧
  (∀ (s : State), pllRuns s = false → 
    Answers (.pllLoss) s fun t => t = s) ∧
  (∀ (s : State) (r0 r1 : Bool), s.mainOn = true → bootStage s = 1 → (r0 || r1) = true → 
    Answers (.pllLock r0 r1) s fun t => bootStage t = 3 ∧ reg t Reg.CLK_STAT = clkStat (wbit s.fer.bootCfg 0) r0 r1 ∧ t.kerb.erase = false ∧ t.fnt.state = 1 ∧ t.fnt.begun = true ∧ t.quay.queues = s.quay.queues ∧ t = { s with regs := t.regs, parBad := t.parBad, kerb := { s.kerb with erase := t.kerb.erase }, fnt := { s.fnt with begun := t.fnt.begun, state := t.fnt.state, tries := t.fnt.tries, settled := t.fnt.settled, katOk := t.fnt.katOk, xorEn := t.fnt.xorEn, vnEn := t.fnt.vnEn, hClaim := t.fnt.hClaim, streams := t.fnt.streams, passed := t.fnt.passed, noCredit := t.fnt.noCredit, absorbed := t.fnt.absorbed, credit := t.fnt.credit, seed := t.fnt.seed, swTurn := t.fnt.swTurn, int := t.fnt.int, sw := t.fnt.sw, katBusy := t.fnt.katBusy, part := t.fnt.part, intRun := t.fnt.intRun } } ∧ OtherRegs s t [Reg.CLK_STAT, Reg.BOOT_STAT] [] []) ∧
  (∀ (s : State) (r0 r1 : Bool), s.mainOn = false ∨ bootStage s ≠ 1 ∨ (r0 || r1) = false → 
    Answers (.pllLock r0 r1) s fun t => t = s) ∧
  (∀ (s : State) (us : BitVec 32), s.mainOn = true → bootStage s = 3 → 
    Answers (.sramInitDone us) s fun t => bootReady t = true ∧ bootStage t = 5 ∧ reg t Reg.BOOT_TIME = us ∧ fld t Reg.BOOT_STAT 23 16 = (if (lcNow s).isNone then 1 else 0) ∧ t.life.state = ((lcNow s).map (·.state)).getD 7 ∧ t.fer.bootCount = s.fer.bootCount + 1 ∧ t.mews.genBase = 1 + (s.fer.bootCount + 1) % 0x7FFF ∧ t.autoload = (if wbit s.fer.bootCfg 1 then some (wbit s.fer.bootCfg 2, s.fer.bootLba.toNat) else none) ∧ (∀ a, memByte t a = if sramBase ≤ a ∧ a < sramEnd then 0 else memByte s a) ∧ t = { s with out := t.out, regs := t.regs, parBad := t.parBad, quay := { s.quay with msix := t.quay.msix }, mews := { s.mews with genBase := t.mews.genBase, bootGen := t.mews.bootGen }, life := { s.life with root := t.life.root, state := t.life.state, hardLock := t.life.hardLock }, fer := { s.fer with bootCount := t.fer.bootCount }, bak := { s.bak with cust := t.bak.cust }, xing := { s.xing with wave := t.xing.wave }, autoload := t.autoload, chk := { s.chk with eccBad := t.chk.eccBad }, mem := t.mem } ∧ OtherRegs s t [Reg.BOOT_STAT, Reg.BOOT_TIME] [Reg.INT_STAT] []) ∧
  (∀ (s : State) (us : BitVec 32), s.mainOn = false ∨ bootStage s ≠ 3 → 
    Answers (.sramInitDone us) s fun t => t = s) ∧
  (∀ (s : State) (a : Bool × Nat) (ended : Unit), s.autoload = some a → bootReady s = true → arcTested s = true → depotBusy s = false → s.load = none → bootStage s = 5 → domOn s 23 = true → s.kerb.lockdown = false → sdPresent s = true → 
    Answers (.autoload ended) s fun t => bootStage t = 6 ∧ t.sd.op = some { kind := .start, wait := .resp, idx := 8, arg := 0x1AA, auto := true } ∧ t.autoload = some a ∧ t = { s with out := t.out, regs := t.regs, parBad := t.parBad, quay := { s.quay with msix := t.quay.msix }, autoload := t.autoload, sd := { s.sd with op := t.sd.op, clk := t.sd.clk, rca := t.sd.rca, timeouts := t.sd.timeouts, retune := t.sd.retune } } ∧ OtherRegs s t [Reg.BOOT_STAT, Reg.DEPOT_STAT, Reg.DEPOT_CAP] [Reg.INT_STAT] []) ∧
  (∀ (s : State) (a : Bool × Nat) (ended : Unit), s.autoload = some a → bootReady s = true → arcTested s = true → depotBusy s = false → s.load = none → bootStage s = 5 → domOn s 23 = false ∨ s.kerb.lockdown = true ∨ sdPresent s = false → 
    Answers (.autoload ended) s fun t => bootStage t = 5 ∧ fld t Reg.BOOT_STAT 23 16 = 2 ∧ t.autoload = none ∧ t.sd = s.sd ∧ t = { s with out := t.out, regs := t.regs, parBad := t.parBad, quay := { s.quay with msix := t.quay.msix }, autoload := t.autoload, sd := { s.sd with op := t.sd.op, clk := t.sd.clk, rca := t.sd.rca, timeouts := t.sd.timeouts, retune := t.sd.retune } } ∧ OtherRegs s t [Reg.BOOT_STAT, Reg.DEPOT_STAT, Reg.DEPOT_CAP] [Reg.INT_STAT] []) ∧
  (∀ (s : State) (a : Bool × Nat) (o : SdOp) (bits : BitVec 128) (way : Passage), s.sd.op = some o → o.kind = .start → o.wait = .resp → o.step = 2 → o.idx = 6 → o.abort = false → o.auto = true → tuned (sdMode s) = false → s.sd.retune = false → s.autoload = some a → bootStage s = 6 → s.load = none → domOn s 23 = true → a.2 < 2 ^ 32 → a.2 + 1 ≤ o.cap % 2 ^ 23 * 1024 → 
    Answers (.sdResponse (.token bits true way)) s fun t => t.load.map (fun l => (l.hdr, l.start, l.auto, l.src, l.addr)) = some (none, a.1, true, 1, a.2) ∧ t.sd.op = some { kind := .image, lba := a.2, count := 1, run := 1, idx := 17, arg := a.2 } ∧ t.autoload = some a ∧ t.mem = s.mem ∧ t = { s with out := t.out, regs := t.regs, parBad := t.parBad, wins := t.wins, quay := { s.quay with msix := t.quay.msix }, kerb := { s.kerb with reports := t.kerb.reports }, fnt := { s.fnt with state := t.fnt.state, absorbed := t.fnt.absorbed, credit := t.fnt.credit, seed := t.fnt.seed, int := t.fnt.int, sw := t.fnt.sw, katBusy := t.fnt.katBusy, part := t.fnt.part, rngDead := t.fnt.rngDead }, cores := t.cores, load := t.load, autoload := t.autoload, chk := { s.chk with eccBad := t.chk.eccBad }, sd := { s.sd with op := t.sd.op, clk := t.sd.clk, rca := t.sd.rca, timeouts := t.sd.timeouts, retune := t.sd.retune }, mem := t.mem } ∧ OtherRegs s t [Reg.BOOT_STAT, Reg.IXM_LD_SRC, Reg.IXM_LD_ADDR_LO, Reg.IXM_LD_CMD, Reg.IXM_LD_INFO, Reg.CHECKPOINT_SRAM_ECC, Reg.DEPOT_STAT, Reg.DEPOT_CAP, Reg.DEPOT_CMD, Reg.DEPOT_ERR] [Reg.PAGE_STAT, Reg.INT_STAT, Reg.ERR_SYND, Reg.ERR_ADDR, Reg.FAULT_CNT, Reg.QUAY_LINK_ERR] [0x4C]) ∧
  (∀ (s : State) (a : Bool × Nat) (o : SdOp), s.sd.op = some o → o.kind = .start → o.auto = true → o.wait = .busy → s.autoload = some a → s.load = none → 
    Answers (.busyTimeout) s fun t => bootStage t = 5 ∧ fld t Reg.BOOT_STAT 23 16 = 2 ∧ t.autoload = none ∧ t.load = none ∧ t.sd.op = none ∧ t.mem = s.mem ∧ t = { s with out := t.out, regs := t.regs, parBad := t.parBad, wins := t.wins, quay := { s.quay with msix := t.quay.msix }, kerb := { s.kerb with reports := t.kerb.reports }, fnt := { s.fnt with state := t.fnt.state, absorbed := t.fnt.absorbed, credit := t.fnt.credit, seed := t.fnt.seed, int := t.fnt.int, sw := t.fnt.sw, katBusy := t.fnt.katBusy, part := t.fnt.part, rngDead := t.fnt.rngDead }, cores := t.cores, load := t.load, autoload := t.autoload, chk := { s.chk with eccBad := t.chk.eccBad }, sd := { s.sd with op := t.sd.op, clk := t.sd.clk }, mem := t.mem } ∧ OtherRegs s t [Reg.BOOT_STAT, Reg.IXM_LD_SRC, Reg.IXM_LD_ADDR_LO, Reg.IXM_LD_CMD, Reg.IXM_LD_INFO, Reg.CHECKPOINT_SRAM_ECC, Reg.DEPOT_STAT, Reg.DEPOT_CAP, Reg.DEPOT_CMD] [Reg.PAGE_STAT, Reg.INT_STAT, Reg.ERR_SYND, Reg.ERR_ADDR, Reg.FAULT_CNT, Reg.QUAY_LINK_ERR] []) ∧
  (∀ (s : State) (ended : Unit), s.autoload = none ∨ bootReady s = false ∨ arcTested s = false ∨ depotBusy s = true ∨ s.load.isSome = true ∨ bootStage s ≠ 5 → 
    Answers (.autoload ended) s fun t => t = s) ∧
  (∀ (s : State) (src : Src) (v : BitVec 3) (fails : Nat), Reaches s src Reg.BOOT_CFG → rbit s (rk 3 Reg.PAGE_LOCK) 0 = false → fails < 3 → 
    Answers (.bootCfgWrite src v fails) s fun t => t = { reparity s Reg.BOOT_CFG with fer := { s.fer with bootCfg := v.setWidth 32 } }) ∧
  (∀ (s : State) (src : Src) (v : BitVec 3) (fails : Nat), Reaches s src Reg.BOOT_CFG → rbit s (rk 3 Reg.PAGE_LOCK) 0 = false → 3 ≤ fails → rbit s (rk 3 Reg.ERR_SYND) 23 = false → 
    Answers (.bootCfgWrite src v fails) s fun t => fld t (rk 3 Reg.ERR_SYND) 31 24 = 0x11 ∧ (reg t (rk 3 Reg.ERR_ADDR)).toNat = v.toNat ∧ t.fer = s.fer ∧ t = { s with out := t.out, regs := t.regs, parBad := t.parBad, quay := { s.quay with msix := t.quay.msix }, fer := { s.fer with bootCfg := t.fer.bootCfg } } ∧ OtherRegs s t [] [Reg.INT_STAT, Reg.ERR_SYND, Reg.ERR_ADDR] []) ∧
  (∀ (s : State) (src : Src) (v : BitVec 3) (fails : Nat), Reaches s src Reg.BOOT_CFG → rbit s (rk 3 Reg.PAGE_LOCK) 0 = true → s.fer.bootCfg ≠ v.setWidth 32 → rbit s (rk 3 Reg.ERR_SYND) 23 = false → 
    Answers (.bootCfgWrite src v fails) s fun t => fld t (rk 3 Reg.ERR_SYND) 31 24 = 0x02 ∧ reg t (rk 3 Reg.ERR_ADDR) = BitVec.ofNat 32 (Reg.BOOT_CFG % 0x1000) ∧ t.fer = s.fer ∧ t = { s with out := t.out, regs := t.regs, parBad := t.parBad, quay := { s.quay with msix := t.quay.msix }, fer := { s.fer with bootCfg := t.fer.bootCfg } } ∧ OtherRegs s t [] [Reg.INT_STAT, Reg.ERR_SYND, Reg.ERR_ADDR] []) ∧
  (∀ (s : State) (src : Src) (v : BitVec 3) (fails : Nat), Reaches s src Reg.BOOT_CFG → rbit s (rk 3 Reg.PAGE_LOCK) 0 = true → s.fer.bootCfg = v.setWidth 32 → 
    Answers (.bootCfgWrite src v fails) s fun t => t = reparity s Reg.BOOT_CFG) ∧
  (∀ (s : State) (src : Src) (v : BitVec 32) (fails : Nat), Reaches s src Reg.BOOT_LBA → rbit s (rk 3 Reg.PAGE_LOCK) 0 = false → fails < 3 → 
    Answers (.bootLbaWrite src v fails) s fun t => t = { reparity s Reg.BOOT_LBA with fer := { s.fer with bootLba := v } }) ∧
  (∀ (s : State) (src : Src) (v : BitVec 32) (fails : Nat), Reaches s src Reg.BOOT_LBA → rbit s (rk 3 Reg.PAGE_LOCK) 0 = false → 3 ≤ fails → rbit s (rk 3 Reg.ERR_SYND) 23 = false → 
    Answers (.bootLbaWrite src v fails) s fun t => fld t (rk 3 Reg.ERR_SYND) 31 24 = 0x11 ∧ (reg t (rk 3 Reg.ERR_ADDR)).toNat = v.toNat ∧ t.fer = s.fer ∧ t = { s with out := t.out, regs := t.regs, parBad := t.parBad, quay := { s.quay with msix := t.quay.msix }, fer := { s.fer with bootLba := t.fer.bootLba } } ∧ OtherRegs s t [] [Reg.INT_STAT, Reg.ERR_SYND, Reg.ERR_ADDR] []) ∧
  (∀ (s : State) (src : Src) (v : BitVec 32) (fails : Nat), Reaches s src Reg.BOOT_LBA → rbit s (rk 3 Reg.PAGE_LOCK) 0 = true → s.fer.bootLba ≠ v → rbit s (rk 3 Reg.ERR_SYND) 23 = false → 
    Answers (.bootLbaWrite src v fails) s fun t => fld t (rk 3 Reg.ERR_SYND) 31 24 = 0x02 ∧ reg t (rk 3 Reg.ERR_ADDR) = BitVec.ofNat 32 (Reg.BOOT_LBA % 0x1000) ∧ t.fer = s.fer ∧ t = { s with out := t.out, regs := t.regs, parBad := t.parBad, quay := { s.quay with msix := t.quay.msix }, fer := { s.fer with bootLba := t.fer.bootLba } } ∧ OtherRegs s t [] [Reg.INT_STAT, Reg.ERR_SYND, Reg.ERR_ADDR] []) ∧
  (∀ (s : State) (src : Src) (v : BitVec 32) (fails : Nat), Reaches s src Reg.BOOT_LBA → rbit s (rk 3 Reg.PAGE_LOCK) 0 = true → s.fer.bootLba = v → 
    Answers (.bootLbaWrite src v fails) s fun t => t = reparity s Reg.BOOT_LBA)

/-- On a powered page, an error recorded while VALID is 0 leaves CODE, MASTER, INFO and ERR_ADDR of that error with VALID 1; one recorded while VALID is 1 sets OVERFLOW and changes nothing else, and writing VALID as 1 clears it. (R32) -/
def Obligations.ErrorRecord : Prop :=
  (∀ (s : State) (p code master info addr : Nat), pageOn s p = true → rbit s (rk p Reg.ERR_SYND) 23 = false →
    let t := errSynd s p code master info addr
    rbit t (rk p Reg.ERR_SYND) 23 = true ∧ rbit t (rk p Reg.ERR_SYND) 22 = false ∧
    fld t (rk p Reg.ERR_SYND) 31 24 = code % 256 ∧ fld t (rk p Reg.ERR_SYND) 21 16 = master % 64 ∧
    fld t (rk p Reg.ERR_SYND) 15 0 = info % 65536 ∧ reg t (rk p Reg.ERR_ADDR) = BitVec.ofNat 32 addr) ∧
  (∀ (s : State) (p code master info addr : Nat), pageOn s p = true → rbit s (rk p Reg.ERR_SYND) 23 = true →
    let t := errSynd s p code master info addr
    rbit t (rk p Reg.ERR_SYND) 22 = true ∧ (∀ n : Fin 32, n.val ≠ 22 → rbit t (rk p Reg.ERR_SYND) n.val = rbit s (rk p Reg.ERR_SYND) n.val) ∧
    (∀ k, k ≠ rk p Reg.ERR_SYND → reg t k = reg s k) ∧ t.quay = s.quay ∧ t.mem = s.mem) ∧
  (∀ (s : State) (src : Src) (p : Nat) (v : Word), pageOn s p = true → wbit v 23 = true →
    rbit (plainWrite s src p Reg.ERR_SYND v) (rk p Reg.ERR_SYND) 23 = false)

/-- MOVI with H 0 that issues sets Gd to IMM16 zero-extended; with H 1 it sets Gd[31:16] to IMM16 and leaves Gd[15:0]; for Gd = G0, which discards writes, no register changes; a constant is made of its low half and then its high half. (R337) -/
def Obligations.MoviResult : Prop :=
  (∀ (s : State) (c : CoreNo) (g : IssueIn) (d : GReg) (imm : BitVec 16), Issues s c.val g → d.val ≠ 0 →
    Answers (.movi c g d false imm) s fun t => gpr (cregs t c.val) d = imm.zeroExtend 32 ∧
      ∀ a : GReg, a ≠ d → gpr (cregs t c.val) a = gpr (cregs s c.val) a) ∧
  (∀ (s : State) (c : CoreNo) (g : IssueIn) (d : GReg) (imm : BitVec 16), Issues s c.val g → d.val ≠ 0 →
    Answers (.movi c g d true imm) s fun t =>
      wbits (gpr (cregs t c.val) d) 31 16 = imm.toNat ∧ wbits (gpr (cregs t c.val) d) 15 0 = wbits (gpr (cregs s c.val) d) 15 0 ∧
      ∀ a : GReg, a ≠ d → gpr (cregs t c.val) a = gpr (cregs s c.val) a) ∧
  (∀ (s : State) (c : CoreNo) (g : IssueIn) (h : Bool) (d : GReg) (imm : BitVec 16), Issues s c.val g → d.val = 0 →
    Answers (.movi c g d h imm) s fun t => ∀ a : GReg, gpr (cregs t c.val) a = gpr (cregs s c.val) a) ∧
  (∀ (s : State) (c : CoreNo) (g h : IssueIn) (d : GReg) (lo hi : BitVec 16), Issues s c.val g → d.val ≠ 0 →
    Answers (.movi c g d false lo) s fun t => Issues t c.val h →
      Answers (.movi c h d true hi) t fun u => gpr (cregs u c.val) d = hi ++ lo)

/-- For every command and state, a step with the command at the front of the queue is exec of the command on the state with the queue's rest, and exec of every command on every state answers a next state; on an empty queue one tick cycle passes, which is the model's own choice (assumption 1). (R305, R549) -/
def Obligations.StepRunsFrontCommand : Prop :=
  (∀ (c : Instr) (rest : List Instr) (s : State),
    step { s with pending := c :: rest } = exec c { s with pending := rest }) ∧
  (∀ (c : Instr) (s : State), ∃ t, exec c s = .next t) ∧
  (∀ s : State, s.pending = [] → step s = .next (idleCycle s))

/-- From every state whose memory is in its canonical form, any step that answers a next state leaves the memory in its canonical form. (R27, R29, R322) -/
def Obligations.StepKeepsMemory : Prop :=
  ∀ s t : State, MemInv s → step s = .next t → MemInv t

/-- After reset the memory is in its canonical form with nothing listed, the tick is 0, no command waits, no queue is enabled, no key is held, no pairing exists, every core is in system mode and the device is not READY (memory that nothing has written reading 0 is the model's choice, assumption 12). (R167, R305, R322, R365, R525) -/
def Obligations.ResetState : Prop :=
  MemInv State.reset ∧ State.reset.mem = [] ∧ State.reset.tick = 0 ∧ State.reset.pending = [] ∧ bootReady State.reset = false ∧
  (∀ q, (queueAt State.reset q).state = .disabled) ∧ (∀ n, isLive (slotAt State.reset n) = false) ∧
  State.reset.bak.pairRoot = none ∧ State.reset.xing.state = 0 ∧ (∀ c, userMode (cregs State.reset c) = false) ∧ (∀ a, memByte State.reset a = 0)
end

