-- ==== Sys2Proof/Laws/Tbl.lean ====
section
/-! SUPPORT. Reading a sparse table after writing it, and that every update keeps the canonical form. -/
namespace Sys2Proof.Machine

variable {α : Type}

@[simp] theorem tfind_tput_same (t : Tbl α) (k : Nat) (v : α) : tfind (tput t k v) k = some v := by
  induction t with
  | nil => simp [tput, tfind]
  | cons e t ih =>
    simp only [tput]
    split
    · simp [tfind]
    · split
      · simp [tfind]
      · rename_i h
        simp [tfind, h, ih]

theorem tfind_tput_ne (t : Tbl α) {k j : Nat} (v : α) (h : j ≠ k) : tfind (tput t k v) j = tfind t j := by
  induction t with
  | nil => simp [tput, tfind, Ne.symm h]
  | cons e t ih =>
    simp only [tput]
    split
    · simp [tfind, Ne.symm h]
    · split
      · rename_i _ g
        simp [tfind, Ne.symm h, g]
      · simp [tfind, ih]

@[simp] theorem tfind_tdel_same (t : Tbl α) (k : Nat) : tfind (tdel t k) k = none := by
  induction t with
  | nil => rfl
  | cons e t ih =>
    simp only [tdel]
    split
    · exact ih
    · rename_i h
      simp [tfind, h, ih]

theorem tfind_tdel_ne (t : Tbl α) {k j : Nat} (h : j ≠ k) : tfind (tdel t k) j = tfind t j := by
  induction t with
  | nil => rfl
  | cons e t ih =>
    simp only [tdel]
    split
    · rename_i g
      have : e.1 ≠ j := by omega
      simp [tfind, this, ih]
    · simp [tfind, ih]

/-- A filter by key keeps the entries it keeps. -/
theorem tfind_filter (t : Tbl α) (p : Nat → Bool) (k : Nat) :
    tfind (t.filter fun e => p e.1) k = if p k then tfind t k else none := by
  induction t with
  | nil => simp [tfind]
  | cons e t ih =>
    by_cases h : e.1 = k
    · subst h
      by_cases g : p e.1 <;> simp [List.filter, tfind, g, ih]
    · by_cases g : p e.1 <;> simp [List.filter, tfind, g, h, ih]

@[simp] theorem tget_tset_same [DecidableEq α] (d : α) (t : Tbl α) (k : Nat) (v : α) : tget d (tset d t k v) k = v := by
  unfold tget tset
  split <;> simp_all

theorem tget_tset_ne [DecidableEq α] (d : α) (t : Tbl α) {k j : Nat} (v : α) (h : j ≠ k) :
    tget d (tset d t k v) j = tget d t j := by
  unfold tget tset
  split
  · rw [tfind_tdel_ne t h]
  · rw [tfind_tput_ne t v h]

/-! ## The canonical form -/

/-- The keys of a table below a bound rise above it. -/
theorem tsorted_weaken {t : Tbl α} {lo hi : Nat} (h : tsorted (some hi) t = true) (g : lo ≤ hi) : tsorted (some lo) t = true := by
  cases t with
  | nil => rfl
  | cons e t =>
    simp only [tsorted, Bool.and_eq_true, decide_eq_true_eq] at *
    exact ⟨by omega, h.2⟩

theorem tsorted_none {t : Tbl α} {lo : Nat} (h : tsorted (some lo) t = true) : tsorted none t = true := by
  cases t with
  | nil => rfl
  | cons e t =>
    simp only [tsorted, Bool.and_eq_true] at *
    exact ⟨trivial, h.2⟩

/-- A filter keeps keys rising. -/
theorem tsorted_filter_some (p : Nat × α → Bool) : ∀ (t : Tbl α) (lo : Nat),
    tsorted (some lo) t = true → tsorted (some lo) (t.filter p) = true
  | [], _, _ => rfl
  | e :: t, lo, h => by
    simp only [tsorted, Bool.and_eq_true, decide_eq_true_eq] at h
    by_cases g : p e
    · simp only [List.filter, g, tsorted, Bool.and_eq_true, decide_eq_true_eq]
      exact ⟨h.1, tsorted_filter_some p t _ h.2⟩
    · simp only [List.filter, g]
      exact tsorted_filter_some p t lo (tsorted_weaken h.2 (by omega))

theorem tsorted_filter (p : Nat × α → Bool) (t : Tbl α) (h : tsorted none t = true) : tsorted none (t.filter p) = true := by
  cases t with
  | nil => rfl
  | cons e t =>
    simp only [tsorted, Bool.and_eq_true] at h
    by_cases g : p e
    · simp only [List.filter, g, tsorted, Bool.and_eq_true]
      exact ⟨trivial, tsorted_filter_some p t _ h.2⟩
    · simp only [List.filter, g]
      exact tsorted_none (tsorted_filter_some p t _ h.2)

/-- Removing a key is a filter. -/
theorem tdel_eq_filter (t : Tbl α) (k : Nat) : tdel t k = t.filter fun e => decide (e.1 ≠ k) := by
  induction t with
  | nil => rfl
  | cons e t ih =>
    by_cases h : e.1 = k <;> simp [tdel, List.filter, h, ih]

theorem tsorted_tput_some (k : Nat) (v : α) : ∀ (t : Tbl α) (lo : Nat),
    tsorted (some lo) t = true → lo < k → tsorted (some lo) (tput t k v) = true
  | [], _, _, g => by simp [tput, tsorted, g]
  | e :: t, lo, h, g => by
    simp only [tsorted, Bool.and_eq_true, decide_eq_true_eq] at h
    simp only [tput]
    split
    · simp only [tsorted, Bool.and_eq_true, decide_eq_true_eq]
      exact ⟨g, by assumption, h.2⟩
    · split
      · rename_i e'
        simp only [tsorted, Bool.and_eq_true, decide_eq_true_eq]
        exact ⟨g, e' ▸ h.2⟩
      · simp only [tsorted, Bool.and_eq_true, decide_eq_true_eq]
        exact ⟨h.1, tsorted_tput_some k v t _ h.2 (by omega)⟩

theorem tsorted_tput (t : Tbl α) (k : Nat) (v : α) (h : tsorted none t = true) : tsorted none (tput t k v) = true := by
  cases t with
  | nil => rfl
  | cons e t =>
    simp only [tsorted, Bool.and_eq_true] at h
    simp only [tput]
    split
    · simp only [tsorted, Bool.and_eq_true, decide_eq_true_eq]
      exact ⟨trivial, by assumption, h.2⟩
    · split
      · rename_i e'
        simp only [tsorted, Bool.and_eq_true]
        exact ⟨trivial, e' ▸ h.2⟩
      · simp only [tsorted, Bool.and_eq_true]
        exact ⟨trivial, tsorted_tput_some k v t _ h.2 (by omega)⟩

/-- The entries of a table after a write are the written one and entries it had. -/
theorem mem_tput {t : Tbl α} {k : Nat} {v : α} {e : Nat × α} (h : e ∈ tput t k v) : e = (k, v) ∨ e ∈ t := by
  induction t with
  | nil => simpa [tput] using h
  | cons x t ih =>
    simp only [tput] at h
    split at h
    · simpa using h
    · split at h
      · simp only [List.mem_cons] at h ⊢
        rcases h with h | h
        · exact .inl h
        · exact .inr (.inr h)
      · simp only [List.mem_cons] at h ⊢
        rcases h with h | h
        · exact .inr (.inl h)
        · exact (ih h).imp id .inr

theorem twf_iff [DecidableEq α] (d : α) (t : Tbl α) : twf d t = true ↔ tsorted none t = true ∧ ∀ e ∈ t, e.2 ≠ d := by
  simp [twf]

/-- A filter keeps the canonical form. -/
theorem twf_filter [DecidableEq α] {d : α} {t : Tbl α} (p : Nat × α → Bool) (h : twf d t = true) : twf d (t.filter p) = true := by
  rw [twf_iff] at *
  exact ⟨tsorted_filter p t h.1, fun e he => h.2 e ((List.mem_filter.1 he).1)⟩

/-- Setting a key keeps the canonical form. -/
theorem twf_tset [DecidableEq α] {d : α} {t : Tbl α} (k : Nat) (v : α) (h : twf d t = true) : twf d (tset d t k v) = true := by
  unfold tset
  split
  · rw [tdel_eq_filter]
    exact twf_filter _ h
  · rename_i g
    rw [twf_iff] at *
    refine ⟨tsorted_tput t k v h.1, fun e he => ?_⟩
    rcases mem_tput he with rfl | he
    · exact g
    · exact h.2 e he

end Sys2Proof.Machine
end

