-- ==== Sys2Proof/Laws/Memory.lean ====
section
/-! SUPPORT. Memory: a byte read after a write, and that every memory operation keeps the canonical form. -/
namespace Sys2Proof.Machine
open Sys2Proof

/-- The memory after reset is in its canonical form. -/
theorem reset_memory_wf : Memory.wf State.reset.mem = true := rfl

theorem putBytes_wf (b : Bytes) : ∀ (m : List Host.Cell) (a : Nat), Memory.wf m = true → Memory.wf (putBytes m a b) = true := by
  induction b with
  | nil => exact fun m a h => h
  | cons x b ih => exact fun m a h => ih _ _ (twf_tset a x h)

/-- A write keeps the canonical form. -/
theorem memWrite_wf (s : State) (a : Nat) (b : Bytes) (h : Memory.wf s.mem = true) : Memory.wf (memWrite s a b).mem = true :=
  putBytes_wf b s.mem a h

/-- Zeroising a range keeps the canonical form. -/
theorem memClear_wf (s : State) (lo hi : Nat) (h : Memory.wf s.mem = true) : Memory.wf (memClear s lo hi).mem = true :=
  twf_filter _ h

theorem tget_putBytes (b : Bytes) : ∀ (m : List Host.Cell) (a j : Nat),
    tget 0 (putBytes m a b) j = if a ≤ j ∧ j < a + b.length then b.getD (j - a) 0 else tget 0 m j := by
  induction b with
  | nil => intro m a j; simp only [putBytes, List.length_nil]; rw [if_neg (by omega)]
  | cons x b ih =>
    intro m a j
    rw [putBytes, ih]
    by_cases h : j = a
    · subst h
      have g : ¬(j + 1 ≤ j ∧ j < j + 1 + b.length) := by omega
      rw [if_neg g]
      simp
    · rw [tget_tset_ne _ _ _ h]
      by_cases g : a + 1 ≤ j ∧ j < a + 1 + b.length
      · have g' : a ≤ j ∧ j < a + (x :: b).length := by simp only [List.length_cons]; omega
        rw [if_pos g, if_pos g']
        obtain ⟨n, rfl⟩ : ∃ n, j = a + 1 + n := ⟨j - (a + 1), by omega⟩
        have e1 : a + 1 + n - (a + 1) = n := by omega
        have e2 : a + 1 + n - a = n + 1 := by omega
        rw [e1, e2, List.getD_cons_succ]
      · have g' : ¬(a ≤ j ∧ j < a + (x :: b).length) := by simp only [List.length_cons]; omega
        rw [if_neg g, if_neg g']

/-- A byte after a write: the byte written there, or what it was. -/
theorem memByte_memWrite (s : State) (a j : Nat) (b : Bytes) :
    memByte (memWrite s a b) j = if a ≤ j ∧ j < a + b.length then b.getD (j - a) 0 else memByte s j :=
  tget_putBytes b s.mem a j

/-- The bytes written are read back. -/
theorem memBytes_memWrite (s : State) (a : Nat) (b : Bytes) : memBytes (memWrite s a b) a b.length = b := by
  apply List.ext_getElem
  · simp [memBytes]
  · intro i h1 h2
    simp only [memBytes, List.getElem_map, List.getElem_range, memByte_memWrite]
    rw [if_pos ⟨by omega, by omega⟩]
    have e : a + i - a = i := by omega
    rw [e]
    simp [List.getD_eq_getElem?_getD, h2]

/-- A byte after a range is zeroised. -/
theorem memByte_memClear (s : State) (lo hi j : Nat) :
    memByte (memClear s lo hi) j = if lo ≤ j ∧ j < hi then 0 else memByte s j := by
  unfold memByte memClear tget
  have h := tfind_filter s.mem (fun k => decide (k < lo) || decide (hi ≤ k)) j
  simp only [h]
  by_cases g : lo ≤ j ∧ j < hi
  · have g1 : ¬ j < lo := by omega
    have g2 : ¬ hi ≤ j := by omega
    simp [g, g1, g2]
  · rw [if_neg g]
    have g1 : (decide (j < lo) || decide (hi ≤ j)) = true := by simp only [Bool.or_eq_true, decide_eq_true_eq]; omega
    simp [g1]

end Sys2Proof.Machine
end

