-- ==== Sys2Proof/Laws/State.lean ====
section
/-! SUPPORT. What each update of one part of the state leaves alone, field by field. -/
namespace Sys2Proof.Machine
open Sys2Proof

/-! emit changes out alone. -/
@[simp] theorem emit_pending (s : State) (o : Out) : (emit s o).pending = s.pending := rfl
@[simp] theorem emit_free (s : State) (o : Out) : (emit s o).free = s.free := rfl
@[simp] theorem emit_tick (s : State) (o : Out) : (emit s o).tick = s.tick := rfl
@[simp] theorem emit_regs (s : State) (o : Out) : (emit s o).regs = s.regs := rfl
@[simp] theorem emit_parBad (s : State) (o : Out) : (emit s o).parBad = s.parBad := rfl
@[simp] theorem emit_wins (s : State) (o : Out) : (emit s o).wins = s.wins := rfl
@[simp] theorem emit_quay (s : State) (o : Out) : (emit s o).quay = s.quay := rfl
@[simp] theorem emit_units (s : State) (o : Out) : (emit s o).units = s.units := rfl
@[simp] theorem emit_mews (s : State) (o : Out) : (emit s o).mews = s.mews := rfl
@[simp] theorem emit_life (s : State) (o : Out) : (emit s o).life = s.life := rfl
@[simp] theorem emit_kerb (s : State) (o : Out) : (emit s o).kerb = s.kerb := rfl
@[simp] theorem emit_fer (s : State) (o : Out) : (emit s o).fer = s.fer := rfl
@[simp] theorem emit_bak (s : State) (o : Out) : (emit s o).bak = s.bak := rfl
@[simp] theorem emit_fnt (s : State) (o : Out) : (emit s o).fnt = s.fnt := rfl
@[simp] theorem emit_curves (s : State) (o : Out) : (emit s o).curves = s.curves := rfl
@[simp] theorem emit_xing (s : State) (o : Out) : (emit s o).xing = s.xing := rfl
@[simp] theorem emit_fleet (s : State) (o : Out) : (emit s o).fleet = s.fleet := rfl
@[simp] theorem emit_clk (s : State) (o : Out) : (emit s o).clk = s.clk := rfl
@[simp] theorem emit_cores (s : State) (o : Out) : (emit s o).cores = s.cores := rfl
@[simp] theorem emit_load (s : State) (o : Out) : (emit s o).load = s.load := rfl
@[simp] theorem emit_autoload (s : State) (o : Out) : (emit s o).autoload = s.autoload := rfl
@[simp] theorem emit_chk (s : State) (o : Out) : (emit s o).chk = s.chk := rfl
@[simp] theorem emit_sd (s : State) (o : Out) : (emit s o).sd = s.sd := rfl
@[simp] theorem emit_pb0 (s : State) (o : Out) : (emit s o).pb0 = s.pb0 := rfl
@[simp] theorem emit_pb1 (s : State) (o : Out) : (emit s o).pb1 = s.pb1 := rfl
@[simp] theorem emit_kiosk (s : State) (o : Out) : (emit s o).kiosk = s.kiosk := rfl
@[simp] theorem emit_mainOn (s : State) (o : Out) : (emit s o).mainOn = s.mainOn := rfl
@[simp] theorem emit_rstHigh (s : State) (o : Out) : (emit s o).rstHigh = s.rstHigh := rfl
@[simp] theorem emit_mem (s : State) (o : Out) : (emit s o).mem = s.mem := rfl

/-! setReg changes regs and parBad alone. -/
@[simp] theorem setReg_pending (s : State) (k : Nat) (w : Word) : (setReg s k w).pending = s.pending := rfl
@[simp] theorem setReg_out (s : State) (k : Nat) (w : Word) : (setReg s k w).out = s.out := rfl
@[simp] theorem setReg_free (s : State) (k : Nat) (w : Word) : (setReg s k w).free = s.free := rfl
@[simp] theorem setReg_tick (s : State) (k : Nat) (w : Word) : (setReg s k w).tick = s.tick := rfl
@[simp] theorem setReg_wins (s : State) (k : Nat) (w : Word) : (setReg s k w).wins = s.wins := rfl
@[simp] theorem setReg_quay (s : State) (k : Nat) (w : Word) : (setReg s k w).quay = s.quay := rfl
@[simp] theorem setReg_units (s : State) (k : Nat) (w : Word) : (setReg s k w).units = s.units := rfl
@[simp] theorem setReg_mews (s : State) (k : Nat) (w : Word) : (setReg s k w).mews = s.mews := rfl
@[simp] theorem setReg_life (s : State) (k : Nat) (w : Word) : (setReg s k w).life = s.life := rfl
@[simp] theorem setReg_kerb (s : State) (k : Nat) (w : Word) : (setReg s k w).kerb = s.kerb := rfl
@[simp] theorem setReg_fer (s : State) (k : Nat) (w : Word) : (setReg s k w).fer = s.fer := rfl
@[simp] theorem setReg_bak (s : State) (k : Nat) (w : Word) : (setReg s k w).bak = s.bak := rfl
@[simp] theorem setReg_fnt (s : State) (k : Nat) (w : Word) : (setReg s k w).fnt = s.fnt := rfl
@[simp] theorem setReg_curves (s : State) (k : Nat) (w : Word) : (setReg s k w).curves = s.curves := rfl
@[simp] theorem setReg_xing (s : State) (k : Nat) (w : Word) : (setReg s k w).xing = s.xing := rfl
@[simp] theorem setReg_fleet (s : State) (k : Nat) (w : Word) : (setReg s k w).fleet = s.fleet := rfl
@[simp] theorem setReg_clk (s : State) (k : Nat) (w : Word) : (setReg s k w).clk = s.clk := rfl
@[simp] theorem setReg_cores (s : State) (k : Nat) (w : Word) : (setReg s k w).cores = s.cores := rfl
@[simp] theorem setReg_load (s : State) (k : Nat) (w : Word) : (setReg s k w).load = s.load := rfl
@[simp] theorem setReg_autoload (s : State) (k : Nat) (w : Word) : (setReg s k w).autoload = s.autoload := rfl
@[simp] theorem setReg_chk (s : State) (k : Nat) (w : Word) : (setReg s k w).chk = s.chk := rfl
@[simp] theorem setReg_sd (s : State) (k : Nat) (w : Word) : (setReg s k w).sd = s.sd := rfl
@[simp] theorem setReg_pb0 (s : State) (k : Nat) (w : Word) : (setReg s k w).pb0 = s.pb0 := rfl
@[simp] theorem setReg_pb1 (s : State) (k : Nat) (w : Word) : (setReg s k w).pb1 = s.pb1 := rfl
@[simp] theorem setReg_kiosk (s : State) (k : Nat) (w : Word) : (setReg s k w).kiosk = s.kiosk := rfl
@[simp] theorem setReg_mainOn (s : State) (k : Nat) (w : Word) : (setReg s k w).mainOn = s.mainOn := rfl
@[simp] theorem setReg_rstHigh (s : State) (k : Nat) (w : Word) : (setReg s k w).rstHigh = s.rstHigh := rfl
@[simp] theorem setReg_mem (s : State) (k : Nat) (w : Word) : (setReg s k w).mem = s.mem := rfl

/-! setFld changes regs and parBad alone. -/
@[simp] theorem setFld_pending (s : State) (k hi lo v : Nat) : (setFld s k hi lo v).pending = s.pending := rfl
@[simp] theorem setFld_out (s : State) (k hi lo v : Nat) : (setFld s k hi lo v).out = s.out := rfl
@[simp] theorem setFld_free (s : State) (k hi lo v : Nat) : (setFld s k hi lo v).free = s.free := rfl
@[simp] theorem setFld_tick (s : State) (k hi lo v : Nat) : (setFld s k hi lo v).tick = s.tick := rfl
@[simp] theorem setFld_wins (s : State) (k hi lo v : Nat) : (setFld s k hi lo v).wins = s.wins := rfl
@[simp] theorem setFld_quay (s : State) (k hi lo v : Nat) : (setFld s k hi lo v).quay = s.quay := rfl
@[simp] theorem setFld_units (s : State) (k hi lo v : Nat) : (setFld s k hi lo v).units = s.units := rfl
@[simp] theorem setFld_mews (s : State) (k hi lo v : Nat) : (setFld s k hi lo v).mews = s.mews := rfl
@[simp] theorem setFld_life (s : State) (k hi lo v : Nat) : (setFld s k hi lo v).life = s.life := rfl
@[simp] theorem setFld_kerb (s : State) (k hi lo v : Nat) : (setFld s k hi lo v).kerb = s.kerb := rfl
@[simp] theorem setFld_fer (s : State) (k hi lo v : Nat) : (setFld s k hi lo v).fer = s.fer := rfl
@[simp] theorem setFld_bak (s : State) (k hi lo v : Nat) : (setFld s k hi lo v).bak = s.bak := rfl
@[simp] theorem setFld_fnt (s : State) (k hi lo v : Nat) : (setFld s k hi lo v).fnt = s.fnt := rfl
@[simp] theorem setFld_curves (s : State) (k hi lo v : Nat) : (setFld s k hi lo v).curves = s.curves := rfl
@[simp] theorem setFld_xing (s : State) (k hi lo v : Nat) : (setFld s k hi lo v).xing = s.xing := rfl
@[simp] theorem setFld_fleet (s : State) (k hi lo v : Nat) : (setFld s k hi lo v).fleet = s.fleet := rfl
@[simp] theorem setFld_clk (s : State) (k hi lo v : Nat) : (setFld s k hi lo v).clk = s.clk := rfl
@[simp] theorem setFld_cores (s : State) (k hi lo v : Nat) : (setFld s k hi lo v).cores = s.cores := rfl
@[simp] theorem setFld_load (s : State) (k hi lo v : Nat) : (setFld s k hi lo v).load = s.load := rfl
@[simp] theorem setFld_autoload (s : State) (k hi lo v : Nat) : (setFld s k hi lo v).autoload = s.autoload := rfl
@[simp] theorem setFld_chk (s : State) (k hi lo v : Nat) : (setFld s k hi lo v).chk = s.chk := rfl
@[simp] theorem setFld_sd (s : State) (k hi lo v : Nat) : (setFld s k hi lo v).sd = s.sd := rfl
@[simp] theorem setFld_pb0 (s : State) (k hi lo v : Nat) : (setFld s k hi lo v).pb0 = s.pb0 := rfl
@[simp] theorem setFld_pb1 (s : State) (k hi lo v : Nat) : (setFld s k hi lo v).pb1 = s.pb1 := rfl
@[simp] theorem setFld_kiosk (s : State) (k hi lo v : Nat) : (setFld s k hi lo v).kiosk = s.kiosk := rfl
@[simp] theorem setFld_mainOn (s : State) (k hi lo v : Nat) : (setFld s k hi lo v).mainOn = s.mainOn := rfl
@[simp] theorem setFld_rstHigh (s : State) (k hi lo v : Nat) : (setFld s k hi lo v).rstHigh = s.rstHigh := rfl
@[simp] theorem setFld_mem (s : State) (k hi lo v : Nat) : (setFld s k hi lo v).mem = s.mem := rfl

/-! bump changes regs and parBad alone. -/
@[simp] theorem bump_pending (s : State) (k hi lo n : Nat) : (bump s k hi lo n).pending = s.pending := rfl
@[simp] theorem bump_out (s : State) (k hi lo n : Nat) : (bump s k hi lo n).out = s.out := rfl
@[simp] theorem bump_free (s : State) (k hi lo n : Nat) : (bump s k hi lo n).free = s.free := rfl
@[simp] theorem bump_tick (s : State) (k hi lo n : Nat) : (bump s k hi lo n).tick = s.tick := rfl
@[simp] theorem bump_wins (s : State) (k hi lo n : Nat) : (bump s k hi lo n).wins = s.wins := rfl
@[simp] theorem bump_quay (s : State) (k hi lo n : Nat) : (bump s k hi lo n).quay = s.quay := rfl
@[simp] theorem bump_units (s : State) (k hi lo n : Nat) : (bump s k hi lo n).units = s.units := rfl
@[simp] theorem bump_mews (s : State) (k hi lo n : Nat) : (bump s k hi lo n).mews = s.mews := rfl
@[simp] theorem bump_life (s : State) (k hi lo n : Nat) : (bump s k hi lo n).life = s.life := rfl
@[simp] theorem bump_kerb (s : State) (k hi lo n : Nat) : (bump s k hi lo n).kerb = s.kerb := rfl
@[simp] theorem bump_fer (s : State) (k hi lo n : Nat) : (bump s k hi lo n).fer = s.fer := rfl
@[simp] theorem bump_bak (s : State) (k hi lo n : Nat) : (bump s k hi lo n).bak = s.bak := rfl
@[simp] theorem bump_fnt (s : State) (k hi lo n : Nat) : (bump s k hi lo n).fnt = s.fnt := rfl
@[simp] theorem bump_curves (s : State) (k hi lo n : Nat) : (bump s k hi lo n).curves = s.curves := rfl
@[simp] theorem bump_xing (s : State) (k hi lo n : Nat) : (bump s k hi lo n).xing = s.xing := rfl
@[simp] theorem bump_fleet (s : State) (k hi lo n : Nat) : (bump s k hi lo n).fleet = s.fleet := rfl
@[simp] theorem bump_clk (s : State) (k hi lo n : Nat) : (bump s k hi lo n).clk = s.clk := rfl
@[simp] theorem bump_cores (s : State) (k hi lo n : Nat) : (bump s k hi lo n).cores = s.cores := rfl
@[simp] theorem bump_load (s : State) (k hi lo n : Nat) : (bump s k hi lo n).load = s.load := rfl
@[simp] theorem bump_autoload (s : State) (k hi lo n : Nat) : (bump s k hi lo n).autoload = s.autoload := rfl
@[simp] theorem bump_chk (s : State) (k hi lo n : Nat) : (bump s k hi lo n).chk = s.chk := rfl
@[simp] theorem bump_sd (s : State) (k hi lo n : Nat) : (bump s k hi lo n).sd = s.sd := rfl
@[simp] theorem bump_pb0 (s : State) (k hi lo n : Nat) : (bump s k hi lo n).pb0 = s.pb0 := rfl
@[simp] theorem bump_pb1 (s : State) (k hi lo n : Nat) : (bump s k hi lo n).pb1 = s.pb1 := rfl
@[simp] theorem bump_kiosk (s : State) (k hi lo n : Nat) : (bump s k hi lo n).kiosk = s.kiosk := rfl
@[simp] theorem bump_mainOn (s : State) (k hi lo n : Nat) : (bump s k hi lo n).mainOn = s.mainOn := rfl
@[simp] theorem bump_rstHigh (s : State) (k hi lo n : Nat) : (bump s k hi lo n).rstHigh = s.rstHigh := rfl
@[simp] theorem bump_mem (s : State) (k hi lo n : Nat) : (bump s k hi lo n).mem = s.mem := rfl

/-! setMsix changes quay alone. -/
@[simp] theorem setMsix_pending (s : State) (f e : Nat) (m : Msix) : (setMsix s f e m).pending = s.pending := rfl
@[simp] theorem setMsix_out (s : State) (f e : Nat) (m : Msix) : (setMsix s f e m).out = s.out := rfl
@[simp] theorem setMsix_free (s : State) (f e : Nat) (m : Msix) : (setMsix s f e m).free = s.free := rfl
@[simp] theorem setMsix_tick (s : State) (f e : Nat) (m : Msix) : (setMsix s f e m).tick = s.tick := rfl
@[simp] theorem setMsix_regs (s : State) (f e : Nat) (m : Msix) : (setMsix s f e m).regs = s.regs := rfl
@[simp] theorem setMsix_parBad (s : State) (f e : Nat) (m : Msix) : (setMsix s f e m).parBad = s.parBad := rfl
@[simp] theorem setMsix_wins (s : State) (f e : Nat) (m : Msix) : (setMsix s f e m).wins = s.wins := rfl
@[simp] theorem setMsix_units (s : State) (f e : Nat) (m : Msix) : (setMsix s f e m).units = s.units := rfl
@[simp] theorem setMsix_mews (s : State) (f e : Nat) (m : Msix) : (setMsix s f e m).mews = s.mews := rfl
@[simp] theorem setMsix_life (s : State) (f e : Nat) (m : Msix) : (setMsix s f e m).life = s.life := rfl
@[simp] theorem setMsix_kerb (s : State) (f e : Nat) (m : Msix) : (setMsix s f e m).kerb = s.kerb := rfl
@[simp] theorem setMsix_fer (s : State) (f e : Nat) (m : Msix) : (setMsix s f e m).fer = s.fer := rfl
@[simp] theorem setMsix_bak (s : State) (f e : Nat) (m : Msix) : (setMsix s f e m).bak = s.bak := rfl
@[simp] theorem setMsix_fnt (s : State) (f e : Nat) (m : Msix) : (setMsix s f e m).fnt = s.fnt := rfl
@[simp] theorem setMsix_curves (s : State) (f e : Nat) (m : Msix) : (setMsix s f e m).curves = s.curves := rfl
@[simp] theorem setMsix_xing (s : State) (f e : Nat) (m : Msix) : (setMsix s f e m).xing = s.xing := rfl
@[simp] theorem setMsix_fleet (s : State) (f e : Nat) (m : Msix) : (setMsix s f e m).fleet = s.fleet := rfl
@[simp] theorem setMsix_clk (s : State) (f e : Nat) (m : Msix) : (setMsix s f e m).clk = s.clk := rfl
@[simp] theorem setMsix_cores (s : State) (f e : Nat) (m : Msix) : (setMsix s f e m).cores = s.cores := rfl
@[simp] theorem setMsix_load (s : State) (f e : Nat) (m : Msix) : (setMsix s f e m).load = s.load := rfl
@[simp] theorem setMsix_autoload (s : State) (f e : Nat) (m : Msix) : (setMsix s f e m).autoload = s.autoload := rfl
@[simp] theorem setMsix_chk (s : State) (f e : Nat) (m : Msix) : (setMsix s f e m).chk = s.chk := rfl
@[simp] theorem setMsix_sd (s : State) (f e : Nat) (m : Msix) : (setMsix s f e m).sd = s.sd := rfl
@[simp] theorem setMsix_pb0 (s : State) (f e : Nat) (m : Msix) : (setMsix s f e m).pb0 = s.pb0 := rfl
@[simp] theorem setMsix_pb1 (s : State) (f e : Nat) (m : Msix) : (setMsix s f e m).pb1 = s.pb1 := rfl
@[simp] theorem setMsix_kiosk (s : State) (f e : Nat) (m : Msix) : (setMsix s f e m).kiosk = s.kiosk := rfl
@[simp] theorem setMsix_mainOn (s : State) (f e : Nat) (m : Msix) : (setMsix s f e m).mainOn = s.mainOn := rfl
@[simp] theorem setMsix_rstHigh (s : State) (f e : Nat) (m : Msix) : (setMsix s f e m).rstHigh = s.rstHigh := rfl
@[simp] theorem setMsix_mem (s : State) (f e : Nat) (m : Msix) : (setMsix s f e m).mem = s.mem := rfl

/-! setQueue changes quay alone. -/
@[simp] theorem setQueue_pending (s : State) (q : Nat) (v : Queue) : (setQueue s q v).pending = s.pending := rfl
@[simp] theorem setQueue_out (s : State) (q : Nat) (v : Queue) : (setQueue s q v).out = s.out := rfl
@[simp] theorem setQueue_free (s : State) (q : Nat) (v : Queue) : (setQueue s q v).free = s.free := rfl
@[simp] theorem setQueue_tick (s : State) (q : Nat) (v : Queue) : (setQueue s q v).tick = s.tick := rfl
@[simp] theorem setQueue_regs (s : State) (q : Nat) (v : Queue) : (setQueue s q v).regs = s.regs := rfl
@[simp] theorem setQueue_parBad (s : State) (q : Nat) (v : Queue) : (setQueue s q v).parBad = s.parBad := rfl
@[simp] theorem setQueue_wins (s : State) (q : Nat) (v : Queue) : (setQueue s q v).wins = s.wins := rfl
@[simp] theorem setQueue_units (s : State) (q : Nat) (v : Queue) : (setQueue s q v).units = s.units := rfl
@[simp] theorem setQueue_mews (s : State) (q : Nat) (v : Queue) : (setQueue s q v).mews = s.mews := rfl
@[simp] theorem setQueue_life (s : State) (q : Nat) (v : Queue) : (setQueue s q v).life = s.life := rfl
@[simp] theorem setQueue_kerb (s : State) (q : Nat) (v : Queue) : (setQueue s q v).kerb = s.kerb := rfl
@[simp] theorem setQueue_fer (s : State) (q : Nat) (v : Queue) : (setQueue s q v).fer = s.fer := rfl
@[simp] theorem setQueue_bak (s : State) (q : Nat) (v : Queue) : (setQueue s q v).bak = s.bak := rfl
@[simp] theorem setQueue_fnt (s : State) (q : Nat) (v : Queue) : (setQueue s q v).fnt = s.fnt := rfl
@[simp] theorem setQueue_curves (s : State) (q : Nat) (v : Queue) : (setQueue s q v).curves = s.curves := rfl
@[simp] theorem setQueue_xing (s : State) (q : Nat) (v : Queue) : (setQueue s q v).xing = s.xing := rfl
@[simp] theorem setQueue_fleet (s : State) (q : Nat) (v : Queue) : (setQueue s q v).fleet = s.fleet := rfl
@[simp] theorem setQueue_clk (s : State) (q : Nat) (v : Queue) : (setQueue s q v).clk = s.clk := rfl
@[simp] theorem setQueue_cores (s : State) (q : Nat) (v : Queue) : (setQueue s q v).cores = s.cores := rfl
@[simp] theorem setQueue_load (s : State) (q : Nat) (v : Queue) : (setQueue s q v).load = s.load := rfl
@[simp] theorem setQueue_autoload (s : State) (q : Nat) (v : Queue) : (setQueue s q v).autoload = s.autoload := rfl
@[simp] theorem setQueue_chk (s : State) (q : Nat) (v : Queue) : (setQueue s q v).chk = s.chk := rfl
@[simp] theorem setQueue_sd (s : State) (q : Nat) (v : Queue) : (setQueue s q v).sd = s.sd := rfl
@[simp] theorem setQueue_pb0 (s : State) (q : Nat) (v : Queue) : (setQueue s q v).pb0 = s.pb0 := rfl
@[simp] theorem setQueue_pb1 (s : State) (q : Nat) (v : Queue) : (setQueue s q v).pb1 = s.pb1 := rfl
@[simp] theorem setQueue_kiosk (s : State) (q : Nat) (v : Queue) : (setQueue s q v).kiosk = s.kiosk := rfl
@[simp] theorem setQueue_mainOn (s : State) (q : Nat) (v : Queue) : (setQueue s q v).mainOn = s.mainOn := rfl
@[simp] theorem setQueue_rstHigh (s : State) (q : Nat) (v : Queue) : (setQueue s q v).rstHigh = s.rstHigh := rfl
@[simp] theorem setQueue_mem (s : State) (q : Nat) (v : Queue) : (setQueue s q v).mem = s.mem := rfl

/-! setCtx changes quay alone. -/
@[simp] theorem setCtx_pending (s : State) (c : Nat) (x : Ctx) : (setCtx s c x).pending = s.pending := rfl
@[simp] theorem setCtx_out (s : State) (c : Nat) (x : Ctx) : (setCtx s c x).out = s.out := rfl
@[simp] theorem setCtx_free (s : State) (c : Nat) (x : Ctx) : (setCtx s c x).free = s.free := rfl
@[simp] theorem setCtx_tick (s : State) (c : Nat) (x : Ctx) : (setCtx s c x).tick = s.tick := rfl
@[simp] theorem setCtx_regs (s : State) (c : Nat) (x : Ctx) : (setCtx s c x).regs = s.regs := rfl
@[simp] theorem setCtx_parBad (s : State) (c : Nat) (x : Ctx) : (setCtx s c x).parBad = s.parBad := rfl
@[simp] theorem setCtx_wins (s : State) (c : Nat) (x : Ctx) : (setCtx s c x).wins = s.wins := rfl
@[simp] theorem setCtx_units (s : State) (c : Nat) (x : Ctx) : (setCtx s c x).units = s.units := rfl
@[simp] theorem setCtx_mews (s : State) (c : Nat) (x : Ctx) : (setCtx s c x).mews = s.mews := rfl
@[simp] theorem setCtx_life (s : State) (c : Nat) (x : Ctx) : (setCtx s c x).life = s.life := rfl
@[simp] theorem setCtx_kerb (s : State) (c : Nat) (x : Ctx) : (setCtx s c x).kerb = s.kerb := rfl
@[simp] theorem setCtx_fer (s : State) (c : Nat) (x : Ctx) : (setCtx s c x).fer = s.fer := rfl
@[simp] theorem setCtx_bak (s : State) (c : Nat) (x : Ctx) : (setCtx s c x).bak = s.bak := rfl
@[simp] theorem setCtx_fnt (s : State) (c : Nat) (x : Ctx) : (setCtx s c x).fnt = s.fnt := rfl
@[simp] theorem setCtx_curves (s : State) (c : Nat) (x : Ctx) : (setCtx s c x).curves = s.curves := rfl
@[simp] theorem setCtx_xing (s : State) (c : Nat) (x : Ctx) : (setCtx s c x).xing = s.xing := rfl
@[simp] theorem setCtx_fleet (s : State) (c : Nat) (x : Ctx) : (setCtx s c x).fleet = s.fleet := rfl
@[simp] theorem setCtx_clk (s : State) (c : Nat) (x : Ctx) : (setCtx s c x).clk = s.clk := rfl
@[simp] theorem setCtx_cores (s : State) (c : Nat) (x : Ctx) : (setCtx s c x).cores = s.cores := rfl
@[simp] theorem setCtx_load (s : State) (c : Nat) (x : Ctx) : (setCtx s c x).load = s.load := rfl
@[simp] theorem setCtx_autoload (s : State) (c : Nat) (x : Ctx) : (setCtx s c x).autoload = s.autoload := rfl
@[simp] theorem setCtx_chk (s : State) (c : Nat) (x : Ctx) : (setCtx s c x).chk = s.chk := rfl
@[simp] theorem setCtx_sd (s : State) (c : Nat) (x : Ctx) : (setCtx s c x).sd = s.sd := rfl
@[simp] theorem setCtx_pb0 (s : State) (c : Nat) (x : Ctx) : (setCtx s c x).pb0 = s.pb0 := rfl
@[simp] theorem setCtx_pb1 (s : State) (c : Nat) (x : Ctx) : (setCtx s c x).pb1 = s.pb1 := rfl
@[simp] theorem setCtx_kiosk (s : State) (c : Nat) (x : Ctx) : (setCtx s c x).kiosk = s.kiosk := rfl
@[simp] theorem setCtx_mainOn (s : State) (c : Nat) (x : Ctx) : (setCtx s c x).mainOn = s.mainOn := rfl
@[simp] theorem setCtx_rstHigh (s : State) (c : Nat) (x : Ctx) : (setCtx s c x).rstHigh = s.rstHigh := rfl
@[simp] theorem setCtx_mem (s : State) (c : Nat) (x : Ctx) : (setCtx s c x).mem = s.mem := rfl

/-! setDom changes quay alone. -/
@[simp] theorem setDom_pending (s : State) (d : Nat) (v : Dom) : (setDom s d v).pending = s.pending := rfl
@[simp] theorem setDom_out (s : State) (d : Nat) (v : Dom) : (setDom s d v).out = s.out := rfl
@[simp] theorem setDom_free (s : State) (d : Nat) (v : Dom) : (setDom s d v).free = s.free := rfl
@[simp] theorem setDom_tick (s : State) (d : Nat) (v : Dom) : (setDom s d v).tick = s.tick := rfl
@[simp] theorem setDom_regs (s : State) (d : Nat) (v : Dom) : (setDom s d v).regs = s.regs := rfl
@[simp] theorem setDom_parBad (s : State) (d : Nat) (v : Dom) : (setDom s d v).parBad = s.parBad := rfl
@[simp] theorem setDom_wins (s : State) (d : Nat) (v : Dom) : (setDom s d v).wins = s.wins := rfl
@[simp] theorem setDom_units (s : State) (d : Nat) (v : Dom) : (setDom s d v).units = s.units := rfl
@[simp] theorem setDom_mews (s : State) (d : Nat) (v : Dom) : (setDom s d v).mews = s.mews := rfl
@[simp] theorem setDom_life (s : State) (d : Nat) (v : Dom) : (setDom s d v).life = s.life := rfl
@[simp] theorem setDom_kerb (s : State) (d : Nat) (v : Dom) : (setDom s d v).kerb = s.kerb := rfl
@[simp] theorem setDom_fer (s : State) (d : Nat) (v : Dom) : (setDom s d v).fer = s.fer := rfl
@[simp] theorem setDom_bak (s : State) (d : Nat) (v : Dom) : (setDom s d v).bak = s.bak := rfl
@[simp] theorem setDom_fnt (s : State) (d : Nat) (v : Dom) : (setDom s d v).fnt = s.fnt := rfl
@[simp] theorem setDom_curves (s : State) (d : Nat) (v : Dom) : (setDom s d v).curves = s.curves := rfl
@[simp] theorem setDom_xing (s : State) (d : Nat) (v : Dom) : (setDom s d v).xing = s.xing := rfl
@[simp] theorem setDom_fleet (s : State) (d : Nat) (v : Dom) : (setDom s d v).fleet = s.fleet := rfl
@[simp] theorem setDom_clk (s : State) (d : Nat) (v : Dom) : (setDom s d v).clk = s.clk := rfl
@[simp] theorem setDom_cores (s : State) (d : Nat) (v : Dom) : (setDom s d v).cores = s.cores := rfl
@[simp] theorem setDom_load (s : State) (d : Nat) (v : Dom) : (setDom s d v).load = s.load := rfl
@[simp] theorem setDom_autoload (s : State) (d : Nat) (v : Dom) : (setDom s d v).autoload = s.autoload := rfl
@[simp] theorem setDom_chk (s : State) (d : Nat) (v : Dom) : (setDom s d v).chk = s.chk := rfl
@[simp] theorem setDom_sd (s : State) (d : Nat) (v : Dom) : (setDom s d v).sd = s.sd := rfl
@[simp] theorem setDom_pb0 (s : State) (d : Nat) (v : Dom) : (setDom s d v).pb0 = s.pb0 := rfl
@[simp] theorem setDom_pb1 (s : State) (d : Nat) (v : Dom) : (setDom s d v).pb1 = s.pb1 := rfl
@[simp] theorem setDom_kiosk (s : State) (d : Nat) (v : Dom) : (setDom s d v).kiosk = s.kiosk := rfl
@[simp] theorem setDom_mainOn (s : State) (d : Nat) (v : Dom) : (setDom s d v).mainOn = s.mainOn := rfl
@[simp] theorem setDom_rstHigh (s : State) (d : Nat) (v : Dom) : (setDom s d v).rstHigh = s.rstHigh := rfl
@[simp] theorem setDom_mem (s : State) (d : Nat) (v : Dom) : (setDom s d v).mem = s.mem := rfl

/-! setCunit changes units alone. -/
@[simp] theorem setCunit_pending (s : State) (u : Nat) (v : CUnit) : (setCunit s u v).pending = s.pending := rfl
@[simp] theorem setCunit_out (s : State) (u : Nat) (v : CUnit) : (setCunit s u v).out = s.out := rfl
@[simp] theorem setCunit_free (s : State) (u : Nat) (v : CUnit) : (setCunit s u v).free = s.free := rfl
@[simp] theorem setCunit_tick (s : State) (u : Nat) (v : CUnit) : (setCunit s u v).tick = s.tick := rfl
@[simp] theorem setCunit_regs (s : State) (u : Nat) (v : CUnit) : (setCunit s u v).regs = s.regs := rfl
@[simp] theorem setCunit_parBad (s : State) (u : Nat) (v : CUnit) : (setCunit s u v).parBad = s.parBad := rfl
@[simp] theorem setCunit_wins (s : State) (u : Nat) (v : CUnit) : (setCunit s u v).wins = s.wins := rfl
@[simp] theorem setCunit_quay (s : State) (u : Nat) (v : CUnit) : (setCunit s u v).quay = s.quay := rfl
@[simp] theorem setCunit_mews (s : State) (u : Nat) (v : CUnit) : (setCunit s u v).mews = s.mews := rfl
@[simp] theorem setCunit_life (s : State) (u : Nat) (v : CUnit) : (setCunit s u v).life = s.life := rfl
@[simp] theorem setCunit_kerb (s : State) (u : Nat) (v : CUnit) : (setCunit s u v).kerb = s.kerb := rfl
@[simp] theorem setCunit_fer (s : State) (u : Nat) (v : CUnit) : (setCunit s u v).fer = s.fer := rfl
@[simp] theorem setCunit_bak (s : State) (u : Nat) (v : CUnit) : (setCunit s u v).bak = s.bak := rfl
@[simp] theorem setCunit_fnt (s : State) (u : Nat) (v : CUnit) : (setCunit s u v).fnt = s.fnt := rfl
@[simp] theorem setCunit_curves (s : State) (u : Nat) (v : CUnit) : (setCunit s u v).curves = s.curves := rfl
@[simp] theorem setCunit_xing (s : State) (u : Nat) (v : CUnit) : (setCunit s u v).xing = s.xing := rfl
@[simp] theorem setCunit_fleet (s : State) (u : Nat) (v : CUnit) : (setCunit s u v).fleet = s.fleet := rfl
@[simp] theorem setCunit_clk (s : State) (u : Nat) (v : CUnit) : (setCunit s u v).clk = s.clk := rfl
@[simp] theorem setCunit_cores (s : State) (u : Nat) (v : CUnit) : (setCunit s u v).cores = s.cores := rfl
@[simp] theorem setCunit_load (s : State) (u : Nat) (v : CUnit) : (setCunit s u v).load = s.load := rfl
@[simp] theorem setCunit_autoload (s : State) (u : Nat) (v : CUnit) : (setCunit s u v).autoload = s.autoload := rfl
@[simp] theorem setCunit_chk (s : State) (u : Nat) (v : CUnit) : (setCunit s u v).chk = s.chk := rfl
@[simp] theorem setCunit_sd (s : State) (u : Nat) (v : CUnit) : (setCunit s u v).sd = s.sd := rfl
@[simp] theorem setCunit_pb0 (s : State) (u : Nat) (v : CUnit) : (setCunit s u v).pb0 = s.pb0 := rfl
@[simp] theorem setCunit_pb1 (s : State) (u : Nat) (v : CUnit) : (setCunit s u v).pb1 = s.pb1 := rfl
@[simp] theorem setCunit_kiosk (s : State) (u : Nat) (v : CUnit) : (setCunit s u v).kiosk = s.kiosk := rfl
@[simp] theorem setCunit_mainOn (s : State) (u : Nat) (v : CUnit) : (setCunit s u v).mainOn = s.mainOn := rfl
@[simp] theorem setCunit_rstHigh (s : State) (u : Nat) (v : CUnit) : (setCunit s u v).rstHigh = s.rstHigh := rfl
@[simp] theorem setCunit_mem (s : State) (u : Nat) (v : CUnit) : (setCunit s u v).mem = s.mem := rfl

/-! setHunit changes units alone. -/
@[simp] theorem setHunit_pending (s : State) (u : Nat) (v : HUnit) : (setHunit s u v).pending = s.pending := rfl
@[simp] theorem setHunit_out (s : State) (u : Nat) (v : HUnit) : (setHunit s u v).out = s.out := rfl
@[simp] theorem setHunit_free (s : State) (u : Nat) (v : HUnit) : (setHunit s u v).free = s.free := rfl
@[simp] theorem setHunit_tick (s : State) (u : Nat) (v : HUnit) : (setHunit s u v).tick = s.tick := rfl
@[simp] theorem setHunit_regs (s : State) (u : Nat) (v : HUnit) : (setHunit s u v).regs = s.regs := rfl
@[simp] theorem setHunit_parBad (s : State) (u : Nat) (v : HUnit) : (setHunit s u v).parBad = s.parBad := rfl
@[simp] theorem setHunit_wins (s : State) (u : Nat) (v : HUnit) : (setHunit s u v).wins = s.wins := rfl
@[simp] theorem setHunit_quay (s : State) (u : Nat) (v : HUnit) : (setHunit s u v).quay = s.quay := rfl
@[simp] theorem setHunit_mews (s : State) (u : Nat) (v : HUnit) : (setHunit s u v).mews = s.mews := rfl
@[simp] theorem setHunit_life (s : State) (u : Nat) (v : HUnit) : (setHunit s u v).life = s.life := rfl
@[simp] theorem setHunit_kerb (s : State) (u : Nat) (v : HUnit) : (setHunit s u v).kerb = s.kerb := rfl
@[simp] theorem setHunit_fer (s : State) (u : Nat) (v : HUnit) : (setHunit s u v).fer = s.fer := rfl
@[simp] theorem setHunit_bak (s : State) (u : Nat) (v : HUnit) : (setHunit s u v).bak = s.bak := rfl
@[simp] theorem setHunit_fnt (s : State) (u : Nat) (v : HUnit) : (setHunit s u v).fnt = s.fnt := rfl
@[simp] theorem setHunit_curves (s : State) (u : Nat) (v : HUnit) : (setHunit s u v).curves = s.curves := rfl
@[simp] theorem setHunit_xing (s : State) (u : Nat) (v : HUnit) : (setHunit s u v).xing = s.xing := rfl
@[simp] theorem setHunit_fleet (s : State) (u : Nat) (v : HUnit) : (setHunit s u v).fleet = s.fleet := rfl
@[simp] theorem setHunit_clk (s : State) (u : Nat) (v : HUnit) : (setHunit s u v).clk = s.clk := rfl
@[simp] theorem setHunit_cores (s : State) (u : Nat) (v : HUnit) : (setHunit s u v).cores = s.cores := rfl
@[simp] theorem setHunit_load (s : State) (u : Nat) (v : HUnit) : (setHunit s u v).load = s.load := rfl
@[simp] theorem setHunit_autoload (s : State) (u : Nat) (v : HUnit) : (setHunit s u v).autoload = s.autoload := rfl
@[simp] theorem setHunit_chk (s : State) (u : Nat) (v : HUnit) : (setHunit s u v).chk = s.chk := rfl
@[simp] theorem setHunit_sd (s : State) (u : Nat) (v : HUnit) : (setHunit s u v).sd = s.sd := rfl
@[simp] theorem setHunit_pb0 (s : State) (u : Nat) (v : HUnit) : (setHunit s u v).pb0 = s.pb0 := rfl
@[simp] theorem setHunit_pb1 (s : State) (u : Nat) (v : HUnit) : (setHunit s u v).pb1 = s.pb1 := rfl
@[simp] theorem setHunit_kiosk (s : State) (u : Nat) (v : HUnit) : (setHunit s u v).kiosk = s.kiosk := rfl
@[simp] theorem setHunit_mainOn (s : State) (u : Nat) (v : HUnit) : (setHunit s u v).mainOn = s.mainOn := rfl
@[simp] theorem setHunit_rstHigh (s : State) (u : Nat) (v : HUnit) : (setHunit s u v).rstHigh = s.rstHigh := rfl
@[simp] theorem setHunit_mem (s : State) (u : Nat) (v : HUnit) : (setHunit s u v).mem = s.mem := rfl

/-! setAunit changes units alone. -/
@[simp] theorem setAunit_pending (s : State) (u : Nat) (v : AUnit) : (setAunit s u v).pending = s.pending := rfl
@[simp] theorem setAunit_out (s : State) (u : Nat) (v : AUnit) : (setAunit s u v).out = s.out := rfl
@[simp] theorem setAunit_free (s : State) (u : Nat) (v : AUnit) : (setAunit s u v).free = s.free := rfl
@[simp] theorem setAunit_tick (s : State) (u : Nat) (v : AUnit) : (setAunit s u v).tick = s.tick := rfl
@[simp] theorem setAunit_regs (s : State) (u : Nat) (v : AUnit) : (setAunit s u v).regs = s.regs := rfl
@[simp] theorem setAunit_parBad (s : State) (u : Nat) (v : AUnit) : (setAunit s u v).parBad = s.parBad := rfl
@[simp] theorem setAunit_wins (s : State) (u : Nat) (v : AUnit) : (setAunit s u v).wins = s.wins := rfl
@[simp] theorem setAunit_quay (s : State) (u : Nat) (v : AUnit) : (setAunit s u v).quay = s.quay := rfl
@[simp] theorem setAunit_mews (s : State) (u : Nat) (v : AUnit) : (setAunit s u v).mews = s.mews := rfl
@[simp] theorem setAunit_life (s : State) (u : Nat) (v : AUnit) : (setAunit s u v).life = s.life := rfl
@[simp] theorem setAunit_kerb (s : State) (u : Nat) (v : AUnit) : (setAunit s u v).kerb = s.kerb := rfl
@[simp] theorem setAunit_fer (s : State) (u : Nat) (v : AUnit) : (setAunit s u v).fer = s.fer := rfl
@[simp] theorem setAunit_bak (s : State) (u : Nat) (v : AUnit) : (setAunit s u v).bak = s.bak := rfl
@[simp] theorem setAunit_fnt (s : State) (u : Nat) (v : AUnit) : (setAunit s u v).fnt = s.fnt := rfl
@[simp] theorem setAunit_curves (s : State) (u : Nat) (v : AUnit) : (setAunit s u v).curves = s.curves := rfl
@[simp] theorem setAunit_xing (s : State) (u : Nat) (v : AUnit) : (setAunit s u v).xing = s.xing := rfl
@[simp] theorem setAunit_fleet (s : State) (u : Nat) (v : AUnit) : (setAunit s u v).fleet = s.fleet := rfl
@[simp] theorem setAunit_clk (s : State) (u : Nat) (v : AUnit) : (setAunit s u v).clk = s.clk := rfl
@[simp] theorem setAunit_cores (s : State) (u : Nat) (v : AUnit) : (setAunit s u v).cores = s.cores := rfl
@[simp] theorem setAunit_load (s : State) (u : Nat) (v : AUnit) : (setAunit s u v).load = s.load := rfl
@[simp] theorem setAunit_autoload (s : State) (u : Nat) (v : AUnit) : (setAunit s u v).autoload = s.autoload := rfl
@[simp] theorem setAunit_chk (s : State) (u : Nat) (v : AUnit) : (setAunit s u v).chk = s.chk := rfl
@[simp] theorem setAunit_sd (s : State) (u : Nat) (v : AUnit) : (setAunit s u v).sd = s.sd := rfl
@[simp] theorem setAunit_pb0 (s : State) (u : Nat) (v : AUnit) : (setAunit s u v).pb0 = s.pb0 := rfl
@[simp] theorem setAunit_pb1 (s : State) (u : Nat) (v : AUnit) : (setAunit s u v).pb1 = s.pb1 := rfl
@[simp] theorem setAunit_kiosk (s : State) (u : Nat) (v : AUnit) : (setAunit s u v).kiosk = s.kiosk := rfl
@[simp] theorem setAunit_mainOn (s : State) (u : Nat) (v : AUnit) : (setAunit s u v).mainOn = s.mainOn := rfl
@[simp] theorem setAunit_rstHigh (s : State) (u : Nat) (v : AUnit) : (setAunit s u v).rstHigh = s.rstHigh := rfl
@[simp] theorem setAunit_mem (s : State) (u : Nat) (v : AUnit) : (setAunit s u v).mem = s.mem := rfl

/-! setSlot changes mews and chk alone. -/
@[simp] theorem setSlot_pending (s : State) (n : Nat) (v : Slot) : (setSlot s n v).pending = s.pending := rfl
@[simp] theorem setSlot_out (s : State) (n : Nat) (v : Slot) : (setSlot s n v).out = s.out := rfl
@[simp] theorem setSlot_free (s : State) (n : Nat) (v : Slot) : (setSlot s n v).free = s.free := rfl
@[simp] theorem setSlot_tick (s : State) (n : Nat) (v : Slot) : (setSlot s n v).tick = s.tick := rfl
@[simp] theorem setSlot_regs (s : State) (n : Nat) (v : Slot) : (setSlot s n v).regs = s.regs := rfl
@[simp] theorem setSlot_parBad (s : State) (n : Nat) (v : Slot) : (setSlot s n v).parBad = s.parBad := rfl
@[simp] theorem setSlot_wins (s : State) (n : Nat) (v : Slot) : (setSlot s n v).wins = s.wins := rfl
@[simp] theorem setSlot_quay (s : State) (n : Nat) (v : Slot) : (setSlot s n v).quay = s.quay := rfl
@[simp] theorem setSlot_units (s : State) (n : Nat) (v : Slot) : (setSlot s n v).units = s.units := rfl
@[simp] theorem setSlot_life (s : State) (n : Nat) (v : Slot) : (setSlot s n v).life = s.life := rfl
@[simp] theorem setSlot_kerb (s : State) (n : Nat) (v : Slot) : (setSlot s n v).kerb = s.kerb := rfl
@[simp] theorem setSlot_fer (s : State) (n : Nat) (v : Slot) : (setSlot s n v).fer = s.fer := rfl
@[simp] theorem setSlot_bak (s : State) (n : Nat) (v : Slot) : (setSlot s n v).bak = s.bak := rfl
@[simp] theorem setSlot_fnt (s : State) (n : Nat) (v : Slot) : (setSlot s n v).fnt = s.fnt := rfl
@[simp] theorem setSlot_curves (s : State) (n : Nat) (v : Slot) : (setSlot s n v).curves = s.curves := rfl
@[simp] theorem setSlot_xing (s : State) (n : Nat) (v : Slot) : (setSlot s n v).xing = s.xing := rfl
@[simp] theorem setSlot_fleet (s : State) (n : Nat) (v : Slot) : (setSlot s n v).fleet = s.fleet := rfl
@[simp] theorem setSlot_clk (s : State) (n : Nat) (v : Slot) : (setSlot s n v).clk = s.clk := rfl
@[simp] theorem setSlot_cores (s : State) (n : Nat) (v : Slot) : (setSlot s n v).cores = s.cores := rfl
@[simp] theorem setSlot_load (s : State) (n : Nat) (v : Slot) : (setSlot s n v).load = s.load := rfl
@[simp] theorem setSlot_autoload (s : State) (n : Nat) (v : Slot) : (setSlot s n v).autoload = s.autoload := rfl
@[simp] theorem setSlot_sd (s : State) (n : Nat) (v : Slot) : (setSlot s n v).sd = s.sd := rfl
@[simp] theorem setSlot_pb0 (s : State) (n : Nat) (v : Slot) : (setSlot s n v).pb0 = s.pb0 := rfl
@[simp] theorem setSlot_pb1 (s : State) (n : Nat) (v : Slot) : (setSlot s n v).pb1 = s.pb1 := rfl
@[simp] theorem setSlot_kiosk (s : State) (n : Nat) (v : Slot) : (setSlot s n v).kiosk = s.kiosk := rfl
@[simp] theorem setSlot_mainOn (s : State) (n : Nat) (v : Slot) : (setSlot s n v).mainOn = s.mainOn := rfl
@[simp] theorem setSlot_rstHigh (s : State) (n : Nat) (v : Slot) : (setSlot s n v).rstHigh = s.rstHigh := rfl
@[simp] theorem setSlot_mem (s : State) (n : Nat) (v : Slot) : (setSlot s n v).mem = s.mem := rfl

/-! setCtr changes mews alone. -/
@[simp] theorem setCtr_pending (s : State) (n : Nat) (v : Ctr) : (setCtr s n v).pending = s.pending := rfl
@[simp] theorem setCtr_out (s : State) (n : Nat) (v : Ctr) : (setCtr s n v).out = s.out := rfl
@[simp] theorem setCtr_free (s : State) (n : Nat) (v : Ctr) : (setCtr s n v).free = s.free := rfl
@[simp] theorem setCtr_tick (s : State) (n : Nat) (v : Ctr) : (setCtr s n v).tick = s.tick := rfl
@[simp] theorem setCtr_regs (s : State) (n : Nat) (v : Ctr) : (setCtr s n v).regs = s.regs := rfl
@[simp] theorem setCtr_parBad (s : State) (n : Nat) (v : Ctr) : (setCtr s n v).parBad = s.parBad := rfl
@[simp] theorem setCtr_wins (s : State) (n : Nat) (v : Ctr) : (setCtr s n v).wins = s.wins := rfl
@[simp] theorem setCtr_quay (s : State) (n : Nat) (v : Ctr) : (setCtr s n v).quay = s.quay := rfl
@[simp] theorem setCtr_units (s : State) (n : Nat) (v : Ctr) : (setCtr s n v).units = s.units := rfl
@[simp] theorem setCtr_life (s : State) (n : Nat) (v : Ctr) : (setCtr s n v).life = s.life := rfl
@[simp] theorem setCtr_kerb (s : State) (n : Nat) (v : Ctr) : (setCtr s n v).kerb = s.kerb := rfl
@[simp] theorem setCtr_fer (s : State) (n : Nat) (v : Ctr) : (setCtr s n v).fer = s.fer := rfl
@[simp] theorem setCtr_bak (s : State) (n : Nat) (v : Ctr) : (setCtr s n v).bak = s.bak := rfl
@[simp] theorem setCtr_fnt (s : State) (n : Nat) (v : Ctr) : (setCtr s n v).fnt = s.fnt := rfl
@[simp] theorem setCtr_curves (s : State) (n : Nat) (v : Ctr) : (setCtr s n v).curves = s.curves := rfl
@[simp] theorem setCtr_xing (s : State) (n : Nat) (v : Ctr) : (setCtr s n v).xing = s.xing := rfl
@[simp] theorem setCtr_fleet (s : State) (n : Nat) (v : Ctr) : (setCtr s n v).fleet = s.fleet := rfl
@[simp] theorem setCtr_clk (s : State) (n : Nat) (v : Ctr) : (setCtr s n v).clk = s.clk := rfl
@[simp] theorem setCtr_cores (s : State) (n : Nat) (v : Ctr) : (setCtr s n v).cores = s.cores := rfl
@[simp] theorem setCtr_load (s : State) (n : Nat) (v : Ctr) : (setCtr s n v).load = s.load := rfl
@[simp] theorem setCtr_autoload (s : State) (n : Nat) (v : Ctr) : (setCtr s n v).autoload = s.autoload := rfl
@[simp] theorem setCtr_chk (s : State) (n : Nat) (v : Ctr) : (setCtr s n v).chk = s.chk := rfl
@[simp] theorem setCtr_sd (s : State) (n : Nat) (v : Ctr) : (setCtr s n v).sd = s.sd := rfl
@[simp] theorem setCtr_pb0 (s : State) (n : Nat) (v : Ctr) : (setCtr s n v).pb0 = s.pb0 := rfl
@[simp] theorem setCtr_pb1 (s : State) (n : Nat) (v : Ctr) : (setCtr s n v).pb1 = s.pb1 := rfl
@[simp] theorem setCtr_kiosk (s : State) (n : Nat) (v : Ctr) : (setCtr s n v).kiosk = s.kiosk := rfl
@[simp] theorem setCtr_mainOn (s : State) (n : Nat) (v : Ctr) : (setCtr s n v).mainOn = s.mainOn := rfl
@[simp] theorem setCtr_rstHigh (s : State) (n : Nat) (v : Ctr) : (setCtr s n v).rstHigh = s.rstHigh := rfl
@[simp] theorem setCtr_mem (s : State) (n : Nat) (v : Ctr) : (setCtr s n v).mem = s.mem := rfl

/-! setDukpt changes mews alone. -/
@[simp] theorem setDukpt_pending (s : State) (n : Nat) (v : DukptCtr) : (setDukpt s n v).pending = s.pending := rfl
@[simp] theorem setDukpt_out (s : State) (n : Nat) (v : DukptCtr) : (setDukpt s n v).out = s.out := rfl
@[simp] theorem setDukpt_free (s : State) (n : Nat) (v : DukptCtr) : (setDukpt s n v).free = s.free := rfl
@[simp] theorem setDukpt_tick (s : State) (n : Nat) (v : DukptCtr) : (setDukpt s n v).tick = s.tick := rfl
@[simp] theorem setDukpt_regs (s : State) (n : Nat) (v : DukptCtr) : (setDukpt s n v).regs = s.regs := rfl
@[simp] theorem setDukpt_parBad (s : State) (n : Nat) (v : DukptCtr) : (setDukpt s n v).parBad = s.parBad := rfl
@[simp] theorem setDukpt_wins (s : State) (n : Nat) (v : DukptCtr) : (setDukpt s n v).wins = s.wins := rfl
@[simp] theorem setDukpt_quay (s : State) (n : Nat) (v : DukptCtr) : (setDukpt s n v).quay = s.quay := rfl
@[simp] theorem setDukpt_units (s : State) (n : Nat) (v : DukptCtr) : (setDukpt s n v).units = s.units := rfl
@[simp] theorem setDukpt_life (s : State) (n : Nat) (v : DukptCtr) : (setDukpt s n v).life = s.life := rfl
@[simp] theorem setDukpt_kerb (s : State) (n : Nat) (v : DukptCtr) : (setDukpt s n v).kerb = s.kerb := rfl
@[simp] theorem setDukpt_fer (s : State) (n : Nat) (v : DukptCtr) : (setDukpt s n v).fer = s.fer := rfl
@[simp] theorem setDukpt_bak (s : State) (n : Nat) (v : DukptCtr) : (setDukpt s n v).bak = s.bak := rfl
@[simp] theorem setDukpt_fnt (s : State) (n : Nat) (v : DukptCtr) : (setDukpt s n v).fnt = s.fnt := rfl
@[simp] theorem setDukpt_curves (s : State) (n : Nat) (v : DukptCtr) : (setDukpt s n v).curves = s.curves := rfl
@[simp] theorem setDukpt_xing (s : State) (n : Nat) (v : DukptCtr) : (setDukpt s n v).xing = s.xing := rfl
@[simp] theorem setDukpt_fleet (s : State) (n : Nat) (v : DukptCtr) : (setDukpt s n v).fleet = s.fleet := rfl
@[simp] theorem setDukpt_clk (s : State) (n : Nat) (v : DukptCtr) : (setDukpt s n v).clk = s.clk := rfl
@[simp] theorem setDukpt_cores (s : State) (n : Nat) (v : DukptCtr) : (setDukpt s n v).cores = s.cores := rfl
@[simp] theorem setDukpt_load (s : State) (n : Nat) (v : DukptCtr) : (setDukpt s n v).load = s.load := rfl
@[simp] theorem setDukpt_autoload (s : State) (n : Nat) (v : DukptCtr) : (setDukpt s n v).autoload = s.autoload := rfl
@[simp] theorem setDukpt_chk (s : State) (n : Nat) (v : DukptCtr) : (setDukpt s n v).chk = s.chk := rfl
@[simp] theorem setDukpt_sd (s : State) (n : Nat) (v : DukptCtr) : (setDukpt s n v).sd = s.sd := rfl
@[simp] theorem setDukpt_pb0 (s : State) (n : Nat) (v : DukptCtr) : (setDukpt s n v).pb0 = s.pb0 := rfl
@[simp] theorem setDukpt_pb1 (s : State) (n : Nat) (v : DukptCtr) : (setDukpt s n v).pb1 = s.pb1 := rfl
@[simp] theorem setDukpt_kiosk (s : State) (n : Nat) (v : DukptCtr) : (setDukpt s n v).kiosk = s.kiosk := rfl
@[simp] theorem setDukpt_mainOn (s : State) (n : Nat) (v : DukptCtr) : (setDukpt s n v).mainOn = s.mainOn := rfl
@[simp] theorem setDukpt_rstHigh (s : State) (n : Nat) (v : DukptCtr) : (setDukpt s n v).rstHigh = s.rstHigh := rfl
@[simp] theorem setDukpt_mem (s : State) (n : Nat) (v : DukptCtr) : (setDukpt s n v).mem = s.mem := rfl

/-! setFnt changes fnt alone. -/
@[simp] theorem setFnt_pending (s : State) (v : Fnt) : (setFnt s v).pending = s.pending := rfl
@[simp] theorem setFnt_out (s : State) (v : Fnt) : (setFnt s v).out = s.out := rfl
@[simp] theorem setFnt_free (s : State) (v : Fnt) : (setFnt s v).free = s.free := rfl
@[simp] theorem setFnt_tick (s : State) (v : Fnt) : (setFnt s v).tick = s.tick := rfl
@[simp] theorem setFnt_regs (s : State) (v : Fnt) : (setFnt s v).regs = s.regs := rfl
@[simp] theorem setFnt_parBad (s : State) (v : Fnt) : (setFnt s v).parBad = s.parBad := rfl
@[simp] theorem setFnt_wins (s : State) (v : Fnt) : (setFnt s v).wins = s.wins := rfl
@[simp] theorem setFnt_quay (s : State) (v : Fnt) : (setFnt s v).quay = s.quay := rfl
@[simp] theorem setFnt_units (s : State) (v : Fnt) : (setFnt s v).units = s.units := rfl
@[simp] theorem setFnt_mews (s : State) (v : Fnt) : (setFnt s v).mews = s.mews := rfl
@[simp] theorem setFnt_life (s : State) (v : Fnt) : (setFnt s v).life = s.life := rfl
@[simp] theorem setFnt_kerb (s : State) (v : Fnt) : (setFnt s v).kerb = s.kerb := rfl
@[simp] theorem setFnt_fer (s : State) (v : Fnt) : (setFnt s v).fer = s.fer := rfl
@[simp] theorem setFnt_bak (s : State) (v : Fnt) : (setFnt s v).bak = s.bak := rfl
@[simp] theorem setFnt_curves (s : State) (v : Fnt) : (setFnt s v).curves = s.curves := rfl
@[simp] theorem setFnt_xing (s : State) (v : Fnt) : (setFnt s v).xing = s.xing := rfl
@[simp] theorem setFnt_fleet (s : State) (v : Fnt) : (setFnt s v).fleet = s.fleet := rfl
@[simp] theorem setFnt_clk (s : State) (v : Fnt) : (setFnt s v).clk = s.clk := rfl
@[simp] theorem setFnt_cores (s : State) (v : Fnt) : (setFnt s v).cores = s.cores := rfl
@[simp] theorem setFnt_load (s : State) (v : Fnt) : (setFnt s v).load = s.load := rfl
@[simp] theorem setFnt_autoload (s : State) (v : Fnt) : (setFnt s v).autoload = s.autoload := rfl
@[simp] theorem setFnt_chk (s : State) (v : Fnt) : (setFnt s v).chk = s.chk := rfl
@[simp] theorem setFnt_sd (s : State) (v : Fnt) : (setFnt s v).sd = s.sd := rfl
@[simp] theorem setFnt_pb0 (s : State) (v : Fnt) : (setFnt s v).pb0 = s.pb0 := rfl
@[simp] theorem setFnt_pb1 (s : State) (v : Fnt) : (setFnt s v).pb1 = s.pb1 := rfl
@[simp] theorem setFnt_kiosk (s : State) (v : Fnt) : (setFnt s v).kiosk = s.kiosk := rfl
@[simp] theorem setFnt_mainOn (s : State) (v : Fnt) : (setFnt s v).mainOn = s.mainOn := rfl
@[simp] theorem setFnt_rstHigh (s : State) (v : Fnt) : (setFnt s v).rstHigh = s.rstHigh := rfl
@[simp] theorem setFnt_mem (s : State) (v : Fnt) : (setFnt s v).mem = s.mem := rfl

/-! setClk changes clk alone. -/
@[simp] theorem setClk_pending (s : State) (v : Clk) : (setClk s v).pending = s.pending := rfl
@[simp] theorem setClk_out (s : State) (v : Clk) : (setClk s v).out = s.out := rfl
@[simp] theorem setClk_free (s : State) (v : Clk) : (setClk s v).free = s.free := rfl
@[simp] theorem setClk_tick (s : State) (v : Clk) : (setClk s v).tick = s.tick := rfl
@[simp] theorem setClk_regs (s : State) (v : Clk) : (setClk s v).regs = s.regs := rfl
@[simp] theorem setClk_parBad (s : State) (v : Clk) : (setClk s v).parBad = s.parBad := rfl
@[simp] theorem setClk_wins (s : State) (v : Clk) : (setClk s v).wins = s.wins := rfl
@[simp] theorem setClk_quay (s : State) (v : Clk) : (setClk s v).quay = s.quay := rfl
@[simp] theorem setClk_units (s : State) (v : Clk) : (setClk s v).units = s.units := rfl
@[simp] theorem setClk_mews (s : State) (v : Clk) : (setClk s v).mews = s.mews := rfl
@[simp] theorem setClk_life (s : State) (v : Clk) : (setClk s v).life = s.life := rfl
@[simp] theorem setClk_kerb (s : State) (v : Clk) : (setClk s v).kerb = s.kerb := rfl
@[simp] theorem setClk_fer (s : State) (v : Clk) : (setClk s v).fer = s.fer := rfl
@[simp] theorem setClk_bak (s : State) (v : Clk) : (setClk s v).bak = s.bak := rfl
@[simp] theorem setClk_fnt (s : State) (v : Clk) : (setClk s v).fnt = s.fnt := rfl
@[simp] theorem setClk_curves (s : State) (v : Clk) : (setClk s v).curves = s.curves := rfl
@[simp] theorem setClk_xing (s : State) (v : Clk) : (setClk s v).xing = s.xing := rfl
@[simp] theorem setClk_fleet (s : State) (v : Clk) : (setClk s v).fleet = s.fleet := rfl
@[simp] theorem setClk_cores (s : State) (v : Clk) : (setClk s v).cores = s.cores := rfl
@[simp] theorem setClk_load (s : State) (v : Clk) : (setClk s v).load = s.load := rfl
@[simp] theorem setClk_autoload (s : State) (v : Clk) : (setClk s v).autoload = s.autoload := rfl
@[simp] theorem setClk_chk (s : State) (v : Clk) : (setClk s v).chk = s.chk := rfl
@[simp] theorem setClk_sd (s : State) (v : Clk) : (setClk s v).sd = s.sd := rfl
@[simp] theorem setClk_pb0 (s : State) (v : Clk) : (setClk s v).pb0 = s.pb0 := rfl
@[simp] theorem setClk_pb1 (s : State) (v : Clk) : (setClk s v).pb1 = s.pb1 := rfl
@[simp] theorem setClk_kiosk (s : State) (v : Clk) : (setClk s v).kiosk = s.kiosk := rfl
@[simp] theorem setClk_mainOn (s : State) (v : Clk) : (setClk s v).mainOn = s.mainOn := rfl
@[simp] theorem setClk_rstHigh (s : State) (v : Clk) : (setClk s v).rstHigh = s.rstHigh := rfl
@[simp] theorem setClk_mem (s : State) (v : Clk) : (setClk s v).mem = s.mem := rfl

/-! setCore changes cores alone. -/
@[simp] theorem setCore_pending (s : State) (c : Nat) (v : Core) : (setCore s c v).pending = s.pending := rfl
@[simp] theorem setCore_out (s : State) (c : Nat) (v : Core) : (setCore s c v).out = s.out := rfl
@[simp] theorem setCore_free (s : State) (c : Nat) (v : Core) : (setCore s c v).free = s.free := rfl
@[simp] theorem setCore_tick (s : State) (c : Nat) (v : Core) : (setCore s c v).tick = s.tick := rfl
@[simp] theorem setCore_regs (s : State) (c : Nat) (v : Core) : (setCore s c v).regs = s.regs := rfl
@[simp] theorem setCore_parBad (s : State) (c : Nat) (v : Core) : (setCore s c v).parBad = s.parBad := rfl
@[simp] theorem setCore_wins (s : State) (c : Nat) (v : Core) : (setCore s c v).wins = s.wins := rfl
@[simp] theorem setCore_quay (s : State) (c : Nat) (v : Core) : (setCore s c v).quay = s.quay := rfl
@[simp] theorem setCore_units (s : State) (c : Nat) (v : Core) : (setCore s c v).units = s.units := rfl
@[simp] theorem setCore_mews (s : State) (c : Nat) (v : Core) : (setCore s c v).mews = s.mews := rfl
@[simp] theorem setCore_life (s : State) (c : Nat) (v : Core) : (setCore s c v).life = s.life := rfl
@[simp] theorem setCore_kerb (s : State) (c : Nat) (v : Core) : (setCore s c v).kerb = s.kerb := rfl
@[simp] theorem setCore_fer (s : State) (c : Nat) (v : Core) : (setCore s c v).fer = s.fer := rfl
@[simp] theorem setCore_bak (s : State) (c : Nat) (v : Core) : (setCore s c v).bak = s.bak := rfl
@[simp] theorem setCore_fnt (s : State) (c : Nat) (v : Core) : (setCore s c v).fnt = s.fnt := rfl
@[simp] theorem setCore_curves (s : State) (c : Nat) (v : Core) : (setCore s c v).curves = s.curves := rfl
@[simp] theorem setCore_xing (s : State) (c : Nat) (v : Core) : (setCore s c v).xing = s.xing := rfl
@[simp] theorem setCore_fleet (s : State) (c : Nat) (v : Core) : (setCore s c v).fleet = s.fleet := rfl
@[simp] theorem setCore_clk (s : State) (c : Nat) (v : Core) : (setCore s c v).clk = s.clk := rfl
@[simp] theorem setCore_load (s : State) (c : Nat) (v : Core) : (setCore s c v).load = s.load := rfl
@[simp] theorem setCore_autoload (s : State) (c : Nat) (v : Core) : (setCore s c v).autoload = s.autoload := rfl
@[simp] theorem setCore_chk (s : State) (c : Nat) (v : Core) : (setCore s c v).chk = s.chk := rfl
@[simp] theorem setCore_sd (s : State) (c : Nat) (v : Core) : (setCore s c v).sd = s.sd := rfl
@[simp] theorem setCore_pb0 (s : State) (c : Nat) (v : Core) : (setCore s c v).pb0 = s.pb0 := rfl
@[simp] theorem setCore_pb1 (s : State) (c : Nat) (v : Core) : (setCore s c v).pb1 = s.pb1 := rfl
@[simp] theorem setCore_kiosk (s : State) (c : Nat) (v : Core) : (setCore s c v).kiosk = s.kiosk := rfl
@[simp] theorem setCore_mainOn (s : State) (c : Nat) (v : Core) : (setCore s c v).mainOn = s.mainOn := rfl
@[simp] theorem setCore_rstHigh (s : State) (c : Nat) (v : Core) : (setCore s c v).rstHigh = s.rstHigh := rfl
@[simp] theorem setCore_mem (s : State) (c : Nat) (v : Core) : (setCore s c v).mem = s.mem := rfl

/-! setRegs changes cores alone. -/
@[simp] theorem setRegs_pending (s : State) (c : Nat) (v : CoreRegs) : (setRegs s c v).pending = s.pending := rfl
@[simp] theorem setRegs_out (s : State) (c : Nat) (v : CoreRegs) : (setRegs s c v).out = s.out := rfl
@[simp] theorem setRegs_free (s : State) (c : Nat) (v : CoreRegs) : (setRegs s c v).free = s.free := rfl
@[simp] theorem setRegs_tick (s : State) (c : Nat) (v : CoreRegs) : (setRegs s c v).tick = s.tick := rfl
@[simp] theorem setRegs_regs (s : State) (c : Nat) (v : CoreRegs) : (setRegs s c v).regs = s.regs := rfl
@[simp] theorem setRegs_parBad (s : State) (c : Nat) (v : CoreRegs) : (setRegs s c v).parBad = s.parBad := rfl
@[simp] theorem setRegs_wins (s : State) (c : Nat) (v : CoreRegs) : (setRegs s c v).wins = s.wins := rfl
@[simp] theorem setRegs_quay (s : State) (c : Nat) (v : CoreRegs) : (setRegs s c v).quay = s.quay := rfl
@[simp] theorem setRegs_units (s : State) (c : Nat) (v : CoreRegs) : (setRegs s c v).units = s.units := rfl
@[simp] theorem setRegs_mews (s : State) (c : Nat) (v : CoreRegs) : (setRegs s c v).mews = s.mews := rfl
@[simp] theorem setRegs_life (s : State) (c : Nat) (v : CoreRegs) : (setRegs s c v).life = s.life := rfl
@[simp] theorem setRegs_kerb (s : State) (c : Nat) (v : CoreRegs) : (setRegs s c v).kerb = s.kerb := rfl
@[simp] theorem setRegs_fer (s : State) (c : Nat) (v : CoreRegs) : (setRegs s c v).fer = s.fer := rfl
@[simp] theorem setRegs_bak (s : State) (c : Nat) (v : CoreRegs) : (setRegs s c v).bak = s.bak := rfl
@[simp] theorem setRegs_fnt (s : State) (c : Nat) (v : CoreRegs) : (setRegs s c v).fnt = s.fnt := rfl
@[simp] theorem setRegs_curves (s : State) (c : Nat) (v : CoreRegs) : (setRegs s c v).curves = s.curves := rfl
@[simp] theorem setRegs_xing (s : State) (c : Nat) (v : CoreRegs) : (setRegs s c v).xing = s.xing := rfl
@[simp] theorem setRegs_fleet (s : State) (c : Nat) (v : CoreRegs) : (setRegs s c v).fleet = s.fleet := rfl
@[simp] theorem setRegs_clk (s : State) (c : Nat) (v : CoreRegs) : (setRegs s c v).clk = s.clk := rfl
@[simp] theorem setRegs_load (s : State) (c : Nat) (v : CoreRegs) : (setRegs s c v).load = s.load := rfl
@[simp] theorem setRegs_autoload (s : State) (c : Nat) (v : CoreRegs) : (setRegs s c v).autoload = s.autoload := rfl
@[simp] theorem setRegs_chk (s : State) (c : Nat) (v : CoreRegs) : (setRegs s c v).chk = s.chk := rfl
@[simp] theorem setRegs_sd (s : State) (c : Nat) (v : CoreRegs) : (setRegs s c v).sd = s.sd := rfl
@[simp] theorem setRegs_pb0 (s : State) (c : Nat) (v : CoreRegs) : (setRegs s c v).pb0 = s.pb0 := rfl
@[simp] theorem setRegs_pb1 (s : State) (c : Nat) (v : CoreRegs) : (setRegs s c v).pb1 = s.pb1 := rfl
@[simp] theorem setRegs_kiosk (s : State) (c : Nat) (v : CoreRegs) : (setRegs s c v).kiosk = s.kiosk := rfl
@[simp] theorem setRegs_mainOn (s : State) (c : Nat) (v : CoreRegs) : (setRegs s c v).mainOn = s.mainOn := rfl
@[simp] theorem setRegs_rstHigh (s : State) (c : Nat) (v : CoreRegs) : (setRegs s c v).rstHigh = s.rstHigh := rfl
@[simp] theorem setRegs_mem (s : State) (c : Nat) (v : CoreRegs) : (setRegs s c v).mem = s.mem := rfl

/-! surveyEvent changes cores alone. -/
@[simp] theorem surveyEvent_pending (s : State) (c e a : Nat) (b : Bool) : (surveyEvent s c e a b).pending = s.pending := rfl
@[simp] theorem surveyEvent_out (s : State) (c e a : Nat) (b : Bool) : (surveyEvent s c e a b).out = s.out := rfl
@[simp] theorem surveyEvent_free (s : State) (c e a : Nat) (b : Bool) : (surveyEvent s c e a b).free = s.free := rfl
@[simp] theorem surveyEvent_tick (s : State) (c e a : Nat) (b : Bool) : (surveyEvent s c e a b).tick = s.tick := rfl
@[simp] theorem surveyEvent_regs (s : State) (c e a : Nat) (b : Bool) : (surveyEvent s c e a b).regs = s.regs := rfl
@[simp] theorem surveyEvent_parBad (s : State) (c e a : Nat) (b : Bool) : (surveyEvent s c e a b).parBad = s.parBad := rfl
@[simp] theorem surveyEvent_wins (s : State) (c e a : Nat) (b : Bool) : (surveyEvent s c e a b).wins = s.wins := rfl
@[simp] theorem surveyEvent_quay (s : State) (c e a : Nat) (b : Bool) : (surveyEvent s c e a b).quay = s.quay := rfl
@[simp] theorem surveyEvent_units (s : State) (c e a : Nat) (b : Bool) : (surveyEvent s c e a b).units = s.units := rfl
@[simp] theorem surveyEvent_mews (s : State) (c e a : Nat) (b : Bool) : (surveyEvent s c e a b).mews = s.mews := rfl
@[simp] theorem surveyEvent_life (s : State) (c e a : Nat) (b : Bool) : (surveyEvent s c e a b).life = s.life := rfl
@[simp] theorem surveyEvent_kerb (s : State) (c e a : Nat) (b : Bool) : (surveyEvent s c e a b).kerb = s.kerb := rfl
@[simp] theorem surveyEvent_fer (s : State) (c e a : Nat) (b : Bool) : (surveyEvent s c e a b).fer = s.fer := rfl
@[simp] theorem surveyEvent_bak (s : State) (c e a : Nat) (b : Bool) : (surveyEvent s c e a b).bak = s.bak := rfl
@[simp] theorem surveyEvent_fnt (s : State) (c e a : Nat) (b : Bool) : (surveyEvent s c e a b).fnt = s.fnt := rfl
@[simp] theorem surveyEvent_curves (s : State) (c e a : Nat) (b : Bool) : (surveyEvent s c e a b).curves = s.curves := rfl
@[simp] theorem surveyEvent_xing (s : State) (c e a : Nat) (b : Bool) : (surveyEvent s c e a b).xing = s.xing := rfl
@[simp] theorem surveyEvent_fleet (s : State) (c e a : Nat) (b : Bool) : (surveyEvent s c e a b).fleet = s.fleet := rfl
@[simp] theorem surveyEvent_clk (s : State) (c e a : Nat) (b : Bool) : (surveyEvent s c e a b).clk = s.clk := rfl
@[simp] theorem surveyEvent_load (s : State) (c e a : Nat) (b : Bool) : (surveyEvent s c e a b).load = s.load := rfl
@[simp] theorem surveyEvent_autoload (s : State) (c e a : Nat) (b : Bool) : (surveyEvent s c e a b).autoload = s.autoload := rfl
@[simp] theorem surveyEvent_chk (s : State) (c e a : Nat) (b : Bool) : (surveyEvent s c e a b).chk = s.chk := rfl
@[simp] theorem surveyEvent_sd (s : State) (c e a : Nat) (b : Bool) : (surveyEvent s c e a b).sd = s.sd := rfl
@[simp] theorem surveyEvent_pb0 (s : State) (c e a : Nat) (b : Bool) : (surveyEvent s c e a b).pb0 = s.pb0 := rfl
@[simp] theorem surveyEvent_pb1 (s : State) (c e a : Nat) (b : Bool) : (surveyEvent s c e a b).pb1 = s.pb1 := rfl
@[simp] theorem surveyEvent_kiosk (s : State) (c e a : Nat) (b : Bool) : (surveyEvent s c e a b).kiosk = s.kiosk := rfl
@[simp] theorem surveyEvent_mainOn (s : State) (c e a : Nat) (b : Bool) : (surveyEvent s c e a b).mainOn = s.mainOn := rfl
@[simp] theorem surveyEvent_rstHigh (s : State) (c e a : Nat) (b : Bool) : (surveyEvent s c e a b).rstHigh = s.rstHigh := rfl
@[simp] theorem surveyEvent_mem (s : State) (c e a : Nat) (b : Bool) : (surveyEvent s c e a b).mem = s.mem := rfl

/-! setXing changes xing alone. -/
@[simp] theorem setXing_pending (s : State) (v : Xing) : (setXing s v).pending = s.pending := rfl
@[simp] theorem setXing_out (s : State) (v : Xing) : (setXing s v).out = s.out := rfl
@[simp] theorem setXing_free (s : State) (v : Xing) : (setXing s v).free = s.free := rfl
@[simp] theorem setXing_tick (s : State) (v : Xing) : (setXing s v).tick = s.tick := rfl
@[simp] theorem setXing_regs (s : State) (v : Xing) : (setXing s v).regs = s.regs := rfl
@[simp] theorem setXing_parBad (s : State) (v : Xing) : (setXing s v).parBad = s.parBad := rfl
@[simp] theorem setXing_wins (s : State) (v : Xing) : (setXing s v).wins = s.wins := rfl
@[simp] theorem setXing_quay (s : State) (v : Xing) : (setXing s v).quay = s.quay := rfl
@[simp] theorem setXing_units (s : State) (v : Xing) : (setXing s v).units = s.units := rfl
@[simp] theorem setXing_mews (s : State) (v : Xing) : (setXing s v).mews = s.mews := rfl
@[simp] theorem setXing_life (s : State) (v : Xing) : (setXing s v).life = s.life := rfl
@[simp] theorem setXing_kerb (s : State) (v : Xing) : (setXing s v).kerb = s.kerb := rfl
@[simp] theorem setXing_fer (s : State) (v : Xing) : (setXing s v).fer = s.fer := rfl
@[simp] theorem setXing_bak (s : State) (v : Xing) : (setXing s v).bak = s.bak := rfl
@[simp] theorem setXing_fnt (s : State) (v : Xing) : (setXing s v).fnt = s.fnt := rfl
@[simp] theorem setXing_curves (s : State) (v : Xing) : (setXing s v).curves = s.curves := rfl
@[simp] theorem setXing_fleet (s : State) (v : Xing) : (setXing s v).fleet = s.fleet := rfl
@[simp] theorem setXing_clk (s : State) (v : Xing) : (setXing s v).clk = s.clk := rfl
@[simp] theorem setXing_cores (s : State) (v : Xing) : (setXing s v).cores = s.cores := rfl
@[simp] theorem setXing_load (s : State) (v : Xing) : (setXing s v).load = s.load := rfl
@[simp] theorem setXing_autoload (s : State) (v : Xing) : (setXing s v).autoload = s.autoload := rfl
@[simp] theorem setXing_chk (s : State) (v : Xing) : (setXing s v).chk = s.chk := rfl
@[simp] theorem setXing_sd (s : State) (v : Xing) : (setXing s v).sd = s.sd := rfl
@[simp] theorem setXing_pb0 (s : State) (v : Xing) : (setXing s v).pb0 = s.pb0 := rfl
@[simp] theorem setXing_pb1 (s : State) (v : Xing) : (setXing s v).pb1 = s.pb1 := rfl
@[simp] theorem setXing_kiosk (s : State) (v : Xing) : (setXing s v).kiosk = s.kiosk := rfl
@[simp] theorem setXing_mainOn (s : State) (v : Xing) : (setXing s v).mainOn = s.mainOn := rfl
@[simp] theorem setXing_rstHigh (s : State) (v : Xing) : (setXing s v).rstHigh = s.rstHigh := rfl
@[simp] theorem setXing_mem (s : State) (v : Xing) : (setXing s v).mem = s.mem := rfl

/-! setLife changes life alone. -/
@[simp] theorem setLife_pending (s : State) (v : Life) : (setLife s v).pending = s.pending := rfl
@[simp] theorem setLife_out (s : State) (v : Life) : (setLife s v).out = s.out := rfl
@[simp] theorem setLife_free (s : State) (v : Life) : (setLife s v).free = s.free := rfl
@[simp] theorem setLife_tick (s : State) (v : Life) : (setLife s v).tick = s.tick := rfl
@[simp] theorem setLife_regs (s : State) (v : Life) : (setLife s v).regs = s.regs := rfl
@[simp] theorem setLife_parBad (s : State) (v : Life) : (setLife s v).parBad = s.parBad := rfl
@[simp] theorem setLife_wins (s : State) (v : Life) : (setLife s v).wins = s.wins := rfl
@[simp] theorem setLife_quay (s : State) (v : Life) : (setLife s v).quay = s.quay := rfl
@[simp] theorem setLife_units (s : State) (v : Life) : (setLife s v).units = s.units := rfl
@[simp] theorem setLife_mews (s : State) (v : Life) : (setLife s v).mews = s.mews := rfl
@[simp] theorem setLife_kerb (s : State) (v : Life) : (setLife s v).kerb = s.kerb := rfl
@[simp] theorem setLife_fer (s : State) (v : Life) : (setLife s v).fer = s.fer := rfl
@[simp] theorem setLife_bak (s : State) (v : Life) : (setLife s v).bak = s.bak := rfl
@[simp] theorem setLife_fnt (s : State) (v : Life) : (setLife s v).fnt = s.fnt := rfl
@[simp] theorem setLife_curves (s : State) (v : Life) : (setLife s v).curves = s.curves := rfl
@[simp] theorem setLife_xing (s : State) (v : Life) : (setLife s v).xing = s.xing := rfl
@[simp] theorem setLife_fleet (s : State) (v : Life) : (setLife s v).fleet = s.fleet := rfl
@[simp] theorem setLife_clk (s : State) (v : Life) : (setLife s v).clk = s.clk := rfl
@[simp] theorem setLife_cores (s : State) (v : Life) : (setLife s v).cores = s.cores := rfl
@[simp] theorem setLife_load (s : State) (v : Life) : (setLife s v).load = s.load := rfl
@[simp] theorem setLife_autoload (s : State) (v : Life) : (setLife s v).autoload = s.autoload := rfl
@[simp] theorem setLife_chk (s : State) (v : Life) : (setLife s v).chk = s.chk := rfl
@[simp] theorem setLife_sd (s : State) (v : Life) : (setLife s v).sd = s.sd := rfl
@[simp] theorem setLife_pb0 (s : State) (v : Life) : (setLife s v).pb0 = s.pb0 := rfl
@[simp] theorem setLife_pb1 (s : State) (v : Life) : (setLife s v).pb1 = s.pb1 := rfl
@[simp] theorem setLife_kiosk (s : State) (v : Life) : (setLife s v).kiosk = s.kiosk := rfl
@[simp] theorem setLife_mainOn (s : State) (v : Life) : (setLife s v).mainOn = s.mainOn := rfl
@[simp] theorem setLife_rstHigh (s : State) (v : Life) : (setLife s v).rstHigh = s.rstHigh := rfl
@[simp] theorem setLife_mem (s : State) (v : Life) : (setLife s v).mem = s.mem := rfl

/-! setKerb changes kerb alone. -/
@[simp] theorem setKerb_pending (s : State) (v : Kerb) : (setKerb s v).pending = s.pending := rfl
@[simp] theorem setKerb_out (s : State) (v : Kerb) : (setKerb s v).out = s.out := rfl
@[simp] theorem setKerb_free (s : State) (v : Kerb) : (setKerb s v).free = s.free := rfl
@[simp] theorem setKerb_tick (s : State) (v : Kerb) : (setKerb s v).tick = s.tick := rfl
@[simp] theorem setKerb_regs (s : State) (v : Kerb) : (setKerb s v).regs = s.regs := rfl
@[simp] theorem setKerb_parBad (s : State) (v : Kerb) : (setKerb s v).parBad = s.parBad := rfl
@[simp] theorem setKerb_wins (s : State) (v : Kerb) : (setKerb s v).wins = s.wins := rfl
@[simp] theorem setKerb_quay (s : State) (v : Kerb) : (setKerb s v).quay = s.quay := rfl
@[simp] theorem setKerb_units (s : State) (v : Kerb) : (setKerb s v).units = s.units := rfl
@[simp] theorem setKerb_mews (s : State) (v : Kerb) : (setKerb s v).mews = s.mews := rfl
@[simp] theorem setKerb_life (s : State) (v : Kerb) : (setKerb s v).life = s.life := rfl
@[simp] theorem setKerb_fer (s : State) (v : Kerb) : (setKerb s v).fer = s.fer := rfl
@[simp] theorem setKerb_bak (s : State) (v : Kerb) : (setKerb s v).bak = s.bak := rfl
@[simp] theorem setKerb_fnt (s : State) (v : Kerb) : (setKerb s v).fnt = s.fnt := rfl
@[simp] theorem setKerb_curves (s : State) (v : Kerb) : (setKerb s v).curves = s.curves := rfl
@[simp] theorem setKerb_xing (s : State) (v : Kerb) : (setKerb s v).xing = s.xing := rfl
@[simp] theorem setKerb_fleet (s : State) (v : Kerb) : (setKerb s v).fleet = s.fleet := rfl
@[simp] theorem setKerb_clk (s : State) (v : Kerb) : (setKerb s v).clk = s.clk := rfl
@[simp] theorem setKerb_cores (s : State) (v : Kerb) : (setKerb s v).cores = s.cores := rfl
@[simp] theorem setKerb_load (s : State) (v : Kerb) : (setKerb s v).load = s.load := rfl
@[simp] theorem setKerb_autoload (s : State) (v : Kerb) : (setKerb s v).autoload = s.autoload := rfl
@[simp] theorem setKerb_chk (s : State) (v : Kerb) : (setKerb s v).chk = s.chk := rfl
@[simp] theorem setKerb_sd (s : State) (v : Kerb) : (setKerb s v).sd = s.sd := rfl
@[simp] theorem setKerb_pb0 (s : State) (v : Kerb) : (setKerb s v).pb0 = s.pb0 := rfl
@[simp] theorem setKerb_pb1 (s : State) (v : Kerb) : (setKerb s v).pb1 = s.pb1 := rfl
@[simp] theorem setKerb_kiosk (s : State) (v : Kerb) : (setKerb s v).kiosk = s.kiosk := rfl
@[simp] theorem setKerb_mainOn (s : State) (v : Kerb) : (setKerb s v).mainOn = s.mainOn := rfl
@[simp] theorem setKerb_rstHigh (s : State) (v : Kerb) : (setKerb s v).rstHigh = s.rstHigh := rfl
@[simp] theorem setKerb_mem (s : State) (v : Kerb) : (setKerb s v).mem = s.mem := rfl

/-! kreport changes kerb alone. -/
@[simp] theorem kreport_pending (s : State) (v : KReport) : (kreport s v).pending = s.pending := rfl
@[simp] theorem kreport_out (s : State) (v : KReport) : (kreport s v).out = s.out := rfl
@[simp] theorem kreport_free (s : State) (v : KReport) : (kreport s v).free = s.free := rfl
@[simp] theorem kreport_tick (s : State) (v : KReport) : (kreport s v).tick = s.tick := rfl
@[simp] theorem kreport_regs (s : State) (v : KReport) : (kreport s v).regs = s.regs := rfl
@[simp] theorem kreport_parBad (s : State) (v : KReport) : (kreport s v).parBad = s.parBad := rfl
@[simp] theorem kreport_wins (s : State) (v : KReport) : (kreport s v).wins = s.wins := rfl
@[simp] theorem kreport_quay (s : State) (v : KReport) : (kreport s v).quay = s.quay := rfl
@[simp] theorem kreport_units (s : State) (v : KReport) : (kreport s v).units = s.units := rfl
@[simp] theorem kreport_mews (s : State) (v : KReport) : (kreport s v).mews = s.mews := rfl
@[simp] theorem kreport_life (s : State) (v : KReport) : (kreport s v).life = s.life := rfl
@[simp] theorem kreport_fer (s : State) (v : KReport) : (kreport s v).fer = s.fer := rfl
@[simp] theorem kreport_bak (s : State) (v : KReport) : (kreport s v).bak = s.bak := rfl
@[simp] theorem kreport_fnt (s : State) (v : KReport) : (kreport s v).fnt = s.fnt := rfl
@[simp] theorem kreport_curves (s : State) (v : KReport) : (kreport s v).curves = s.curves := rfl
@[simp] theorem kreport_xing (s : State) (v : KReport) : (kreport s v).xing = s.xing := rfl
@[simp] theorem kreport_fleet (s : State) (v : KReport) : (kreport s v).fleet = s.fleet := rfl
@[simp] theorem kreport_clk (s : State) (v : KReport) : (kreport s v).clk = s.clk := rfl
@[simp] theorem kreport_cores (s : State) (v : KReport) : (kreport s v).cores = s.cores := rfl
@[simp] theorem kreport_load (s : State) (v : KReport) : (kreport s v).load = s.load := rfl
@[simp] theorem kreport_autoload (s : State) (v : KReport) : (kreport s v).autoload = s.autoload := rfl
@[simp] theorem kreport_chk (s : State) (v : KReport) : (kreport s v).chk = s.chk := rfl
@[simp] theorem kreport_sd (s : State) (v : KReport) : (kreport s v).sd = s.sd := rfl
@[simp] theorem kreport_pb0 (s : State) (v : KReport) : (kreport s v).pb0 = s.pb0 := rfl
@[simp] theorem kreport_pb1 (s : State) (v : KReport) : (kreport s v).pb1 = s.pb1 := rfl
@[simp] theorem kreport_kiosk (s : State) (v : KReport) : (kreport s v).kiosk = s.kiosk := rfl
@[simp] theorem kreport_mainOn (s : State) (v : KReport) : (kreport s v).mainOn = s.mainOn := rfl
@[simp] theorem kreport_rstHigh (s : State) (v : KReport) : (kreport s v).rstHigh = s.rstHigh := rfl
@[simp] theorem kreport_mem (s : State) (v : KReport) : (kreport s v).mem = s.mem := rfl

/-! setChk changes chk alone. -/
@[simp] theorem setChk_pending (s : State) (v : Chk) : (setChk s v).pending = s.pending := rfl
@[simp] theorem setChk_out (s : State) (v : Chk) : (setChk s v).out = s.out := rfl
@[simp] theorem setChk_free (s : State) (v : Chk) : (setChk s v).free = s.free := rfl
@[simp] theorem setChk_tick (s : State) (v : Chk) : (setChk s v).tick = s.tick := rfl
@[simp] theorem setChk_regs (s : State) (v : Chk) : (setChk s v).regs = s.regs := rfl
@[simp] theorem setChk_parBad (s : State) (v : Chk) : (setChk s v).parBad = s.parBad := rfl
@[simp] theorem setChk_wins (s : State) (v : Chk) : (setChk s v).wins = s.wins := rfl
@[simp] theorem setChk_quay (s : State) (v : Chk) : (setChk s v).quay = s.quay := rfl
@[simp] theorem setChk_units (s : State) (v : Chk) : (setChk s v).units = s.units := rfl
@[simp] theorem setChk_mews (s : State) (v : Chk) : (setChk s v).mews = s.mews := rfl
@[simp] theorem setChk_life (s : State) (v : Chk) : (setChk s v).life = s.life := rfl
@[simp] theorem setChk_kerb (s : State) (v : Chk) : (setChk s v).kerb = s.kerb := rfl
@[simp] theorem setChk_fer (s : State) (v : Chk) : (setChk s v).fer = s.fer := rfl
@[simp] theorem setChk_bak (s : State) (v : Chk) : (setChk s v).bak = s.bak := rfl
@[simp] theorem setChk_fnt (s : State) (v : Chk) : (setChk s v).fnt = s.fnt := rfl
@[simp] theorem setChk_curves (s : State) (v : Chk) : (setChk s v).curves = s.curves := rfl
@[simp] theorem setChk_xing (s : State) (v : Chk) : (setChk s v).xing = s.xing := rfl
@[simp] theorem setChk_fleet (s : State) (v : Chk) : (setChk s v).fleet = s.fleet := rfl
@[simp] theorem setChk_clk (s : State) (v : Chk) : (setChk s v).clk = s.clk := rfl
@[simp] theorem setChk_cores (s : State) (v : Chk) : (setChk s v).cores = s.cores := rfl
@[simp] theorem setChk_load (s : State) (v : Chk) : (setChk s v).load = s.load := rfl
@[simp] theorem setChk_autoload (s : State) (v : Chk) : (setChk s v).autoload = s.autoload := rfl
@[simp] theorem setChk_sd (s : State) (v : Chk) : (setChk s v).sd = s.sd := rfl
@[simp] theorem setChk_pb0 (s : State) (v : Chk) : (setChk s v).pb0 = s.pb0 := rfl
@[simp] theorem setChk_pb1 (s : State) (v : Chk) : (setChk s v).pb1 = s.pb1 := rfl
@[simp] theorem setChk_kiosk (s : State) (v : Chk) : (setChk s v).kiosk = s.kiosk := rfl
@[simp] theorem setChk_mainOn (s : State) (v : Chk) : (setChk s v).mainOn = s.mainOn := rfl
@[simp] theorem setChk_rstHigh (s : State) (v : Chk) : (setChk s v).rstHigh = s.rstHigh := rfl
@[simp] theorem setChk_mem (s : State) (v : Chk) : (setChk s v).mem = s.mem := rfl

/-! setSd changes sd alone. -/
@[simp] theorem setSd_pending (s : State) (v : Sd) : (setSd s v).pending = s.pending := rfl
@[simp] theorem setSd_out (s : State) (v : Sd) : (setSd s v).out = s.out := rfl
@[simp] theorem setSd_free (s : State) (v : Sd) : (setSd s v).free = s.free := rfl
@[simp] theorem setSd_tick (s : State) (v : Sd) : (setSd s v).tick = s.tick := rfl
@[simp] theorem setSd_regs (s : State) (v : Sd) : (setSd s v).regs = s.regs := rfl
@[simp] theorem setSd_parBad (s : State) (v : Sd) : (setSd s v).parBad = s.parBad := rfl
@[simp] theorem setSd_wins (s : State) (v : Sd) : (setSd s v).wins = s.wins := rfl
@[simp] theorem setSd_quay (s : State) (v : Sd) : (setSd s v).quay = s.quay := rfl
@[simp] theorem setSd_units (s : State) (v : Sd) : (setSd s v).units = s.units := rfl
@[simp] theorem setSd_mews (s : State) (v : Sd) : (setSd s v).mews = s.mews := rfl
@[simp] theorem setSd_life (s : State) (v : Sd) : (setSd s v).life = s.life := rfl
@[simp] theorem setSd_kerb (s : State) (v : Sd) : (setSd s v).kerb = s.kerb := rfl
@[simp] theorem setSd_fer (s : State) (v : Sd) : (setSd s v).fer = s.fer := rfl
@[simp] theorem setSd_bak (s : State) (v : Sd) : (setSd s v).bak = s.bak := rfl
@[simp] theorem setSd_fnt (s : State) (v : Sd) : (setSd s v).fnt = s.fnt := rfl
@[simp] theorem setSd_curves (s : State) (v : Sd) : (setSd s v).curves = s.curves := rfl
@[simp] theorem setSd_xing (s : State) (v : Sd) : (setSd s v).xing = s.xing := rfl
@[simp] theorem setSd_fleet (s : State) (v : Sd) : (setSd s v).fleet = s.fleet := rfl
@[simp] theorem setSd_clk (s : State) (v : Sd) : (setSd s v).clk = s.clk := rfl
@[simp] theorem setSd_cores (s : State) (v : Sd) : (setSd s v).cores = s.cores := rfl
@[simp] theorem setSd_load (s : State) (v : Sd) : (setSd s v).load = s.load := rfl
@[simp] theorem setSd_autoload (s : State) (v : Sd) : (setSd s v).autoload = s.autoload := rfl
@[simp] theorem setSd_chk (s : State) (v : Sd) : (setSd s v).chk = s.chk := rfl
@[simp] theorem setSd_pb0 (s : State) (v : Sd) : (setSd s v).pb0 = s.pb0 := rfl
@[simp] theorem setSd_pb1 (s : State) (v : Sd) : (setSd s v).pb1 = s.pb1 := rfl
@[simp] theorem setSd_kiosk (s : State) (v : Sd) : (setSd s v).kiosk = s.kiosk := rfl
@[simp] theorem setSd_mainOn (s : State) (v : Sd) : (setSd s v).mainOn = s.mainOn := rfl
@[simp] theorem setSd_rstHigh (s : State) (v : Sd) : (setSd s v).rstHigh = s.rstHigh := rfl
@[simp] theorem setSd_mem (s : State) (v : Sd) : (setSd s v).mem = s.mem := rfl

/-! setOp changes sd and out alone. -/
@[simp] theorem setOp_pending (s : State) (v : SdOp) : (setOp s v).pending = s.pending := by unfold setOp sdClock; split <;> rfl
@[simp] theorem setOp_free (s : State) (v : SdOp) : (setOp s v).free = s.free := by unfold setOp sdClock; split <;> rfl
@[simp] theorem setOp_tick (s : State) (v : SdOp) : (setOp s v).tick = s.tick := by unfold setOp sdClock; split <;> rfl
@[simp] theorem setOp_regs (s : State) (v : SdOp) : (setOp s v).regs = s.regs := by unfold setOp sdClock; split <;> rfl
@[simp] theorem setOp_parBad (s : State) (v : SdOp) : (setOp s v).parBad = s.parBad := by unfold setOp sdClock; split <;> rfl
@[simp] theorem setOp_wins (s : State) (v : SdOp) : (setOp s v).wins = s.wins := by unfold setOp sdClock; split <;> rfl
@[simp] theorem setOp_quay (s : State) (v : SdOp) : (setOp s v).quay = s.quay := by unfold setOp sdClock; split <;> rfl
@[simp] theorem setOp_units (s : State) (v : SdOp) : (setOp s v).units = s.units := by unfold setOp sdClock; split <;> rfl
@[simp] theorem setOp_mews (s : State) (v : SdOp) : (setOp s v).mews = s.mews := by unfold setOp sdClock; split <;> rfl
@[simp] theorem setOp_life (s : State) (v : SdOp) : (setOp s v).life = s.life := by unfold setOp sdClock; split <;> rfl
@[simp] theorem setOp_kerb (s : State) (v : SdOp) : (setOp s v).kerb = s.kerb := by unfold setOp sdClock; split <;> rfl
@[simp] theorem setOp_fer (s : State) (v : SdOp) : (setOp s v).fer = s.fer := by unfold setOp sdClock; split <;> rfl
@[simp] theorem setOp_bak (s : State) (v : SdOp) : (setOp s v).bak = s.bak := by unfold setOp sdClock; split <;> rfl
@[simp] theorem setOp_fnt (s : State) (v : SdOp) : (setOp s v).fnt = s.fnt := by unfold setOp sdClock; split <;> rfl
@[simp] theorem setOp_curves (s : State) (v : SdOp) : (setOp s v).curves = s.curves := by unfold setOp sdClock; split <;> rfl
@[simp] theorem setOp_xing (s : State) (v : SdOp) : (setOp s v).xing = s.xing := by unfold setOp sdClock; split <;> rfl
@[simp] theorem setOp_fleet (s : State) (v : SdOp) : (setOp s v).fleet = s.fleet := by unfold setOp sdClock; split <;> rfl
@[simp] theorem setOp_clk (s : State) (v : SdOp) : (setOp s v).clk = s.clk := by unfold setOp sdClock; split <;> rfl
@[simp] theorem setOp_cores (s : State) (v : SdOp) : (setOp s v).cores = s.cores := by unfold setOp sdClock; split <;> rfl
@[simp] theorem setOp_load (s : State) (v : SdOp) : (setOp s v).load = s.load := by unfold setOp sdClock; split <;> rfl
@[simp] theorem setOp_autoload (s : State) (v : SdOp) : (setOp s v).autoload = s.autoload := by unfold setOp sdClock; split <;> rfl
@[simp] theorem setOp_chk (s : State) (v : SdOp) : (setOp s v).chk = s.chk := by unfold setOp sdClock; split <;> rfl
@[simp] theorem setOp_pb0 (s : State) (v : SdOp) : (setOp s v).pb0 = s.pb0 := by unfold setOp sdClock; split <;> rfl
@[simp] theorem setOp_pb1 (s : State) (v : SdOp) : (setOp s v).pb1 = s.pb1 := by unfold setOp sdClock; split <;> rfl
@[simp] theorem setOp_kiosk (s : State) (v : SdOp) : (setOp s v).kiosk = s.kiosk := by unfold setOp sdClock; split <;> rfl
@[simp] theorem setOp_mainOn (s : State) (v : SdOp) : (setOp s v).mainOn = s.mainOn := by unfold setOp sdClock; split <;> rfl
@[simp] theorem setOp_rstHigh (s : State) (v : SdOp) : (setOp s v).rstHigh = s.rstHigh := by unfold setOp sdClock; split <;> rfl
@[simp] theorem setOp_mem (s : State) (v : SdOp) : (setOp s v).mem = s.mem := by unfold setOp sdClock; split <;> rfl

/-! sdClock changes sd and out alone. -/
@[simp] theorem sdClock_pending (s : State) (on : Bool) : (sdClock s on).pending = s.pending := by unfold sdClock; split <;> rfl
@[simp] theorem sdClock_free (s : State) (on : Bool) : (sdClock s on).free = s.free := by unfold sdClock; split <;> rfl
@[simp] theorem sdClock_tick (s : State) (on : Bool) : (sdClock s on).tick = s.tick := by unfold sdClock; split <;> rfl
@[simp] theorem sdClock_regs (s : State) (on : Bool) : (sdClock s on).regs = s.regs := by unfold sdClock; split <;> rfl
@[simp] theorem sdClock_parBad (s : State) (on : Bool) : (sdClock s on).parBad = s.parBad := by unfold sdClock; split <;> rfl
@[simp] theorem sdClock_wins (s : State) (on : Bool) : (sdClock s on).wins = s.wins := by unfold sdClock; split <;> rfl
@[simp] theorem sdClock_quay (s : State) (on : Bool) : (sdClock s on).quay = s.quay := by unfold sdClock; split <;> rfl
@[simp] theorem sdClock_units (s : State) (on : Bool) : (sdClock s on).units = s.units := by unfold sdClock; split <;> rfl
@[simp] theorem sdClock_mews (s : State) (on : Bool) : (sdClock s on).mews = s.mews := by unfold sdClock; split <;> rfl
@[simp] theorem sdClock_life (s : State) (on : Bool) : (sdClock s on).life = s.life := by unfold sdClock; split <;> rfl
@[simp] theorem sdClock_kerb (s : State) (on : Bool) : (sdClock s on).kerb = s.kerb := by unfold sdClock; split <;> rfl
@[simp] theorem sdClock_fer (s : State) (on : Bool) : (sdClock s on).fer = s.fer := by unfold sdClock; split <;> rfl
@[simp] theorem sdClock_bak (s : State) (on : Bool) : (sdClock s on).bak = s.bak := by unfold sdClock; split <;> rfl
@[simp] theorem sdClock_fnt (s : State) (on : Bool) : (sdClock s on).fnt = s.fnt := by unfold sdClock; split <;> rfl
@[simp] theorem sdClock_curves (s : State) (on : Bool) : (sdClock s on).curves = s.curves := by unfold sdClock; split <;> rfl
@[simp] theorem sdClock_xing (s : State) (on : Bool) : (sdClock s on).xing = s.xing := by unfold sdClock; split <;> rfl
@[simp] theorem sdClock_fleet (s : State) (on : Bool) : (sdClock s on).fleet = s.fleet := by unfold sdClock; split <;> rfl
@[simp] theorem sdClock_clk (s : State) (on : Bool) : (sdClock s on).clk = s.clk := by unfold sdClock; split <;> rfl
@[simp] theorem sdClock_cores (s : State) (on : Bool) : (sdClock s on).cores = s.cores := by unfold sdClock; split <;> rfl
@[simp] theorem sdClock_load (s : State) (on : Bool) : (sdClock s on).load = s.load := by unfold sdClock; split <;> rfl
@[simp] theorem sdClock_autoload (s : State) (on : Bool) : (sdClock s on).autoload = s.autoload := by unfold sdClock; split <;> rfl
@[simp] theorem sdClock_chk (s : State) (on : Bool) : (sdClock s on).chk = s.chk := by unfold sdClock; split <;> rfl
@[simp] theorem sdClock_pb0 (s : State) (on : Bool) : (sdClock s on).pb0 = s.pb0 := by unfold sdClock; split <;> rfl
@[simp] theorem sdClock_pb1 (s : State) (on : Bool) : (sdClock s on).pb1 = s.pb1 := by unfold sdClock; split <;> rfl
@[simp] theorem sdClock_kiosk (s : State) (on : Bool) : (sdClock s on).kiosk = s.kiosk := by unfold sdClock; split <;> rfl
@[simp] theorem sdClock_mainOn (s : State) (on : Bool) : (sdClock s on).mainOn = s.mainOn := by unfold sdClock; split <;> rfl
@[simp] theorem sdClock_rstHigh (s : State) (on : Bool) : (sdClock s on).rstHigh = s.rstHigh := by unfold sdClock; split <;> rfl
@[simp] theorem sdClock_mem (s : State) (on : Bool) : (sdClock s on).mem = s.mem := by unfold sdClock; split <;> rfl

/-! setKiosk changes kiosk alone. -/
@[simp] theorem setKiosk_pending (s : State) (v : Kiosk) : (setKiosk s v).pending = s.pending := rfl
@[simp] theorem setKiosk_out (s : State) (v : Kiosk) : (setKiosk s v).out = s.out := rfl
@[simp] theorem setKiosk_free (s : State) (v : Kiosk) : (setKiosk s v).free = s.free := rfl
@[simp] theorem setKiosk_tick (s : State) (v : Kiosk) : (setKiosk s v).tick = s.tick := rfl
@[simp] theorem setKiosk_regs (s : State) (v : Kiosk) : (setKiosk s v).regs = s.regs := rfl
@[simp] theorem setKiosk_parBad (s : State) (v : Kiosk) : (setKiosk s v).parBad = s.parBad := rfl
@[simp] theorem setKiosk_wins (s : State) (v : Kiosk) : (setKiosk s v).wins = s.wins := rfl
@[simp] theorem setKiosk_quay (s : State) (v : Kiosk) : (setKiosk s v).quay = s.quay := rfl
@[simp] theorem setKiosk_units (s : State) (v : Kiosk) : (setKiosk s v).units = s.units := rfl
@[simp] theorem setKiosk_mews (s : State) (v : Kiosk) : (setKiosk s v).mews = s.mews := rfl
@[simp] theorem setKiosk_life (s : State) (v : Kiosk) : (setKiosk s v).life = s.life := rfl
@[simp] theorem setKiosk_kerb (s : State) (v : Kiosk) : (setKiosk s v).kerb = s.kerb := rfl
@[simp] theorem setKiosk_fer (s : State) (v : Kiosk) : (setKiosk s v).fer = s.fer := rfl
@[simp] theorem setKiosk_bak (s : State) (v : Kiosk) : (setKiosk s v).bak = s.bak := rfl
@[simp] theorem setKiosk_fnt (s : State) (v : Kiosk) : (setKiosk s v).fnt = s.fnt := rfl
@[simp] theorem setKiosk_curves (s : State) (v : Kiosk) : (setKiosk s v).curves = s.curves := rfl
@[simp] theorem setKiosk_xing (s : State) (v : Kiosk) : (setKiosk s v).xing = s.xing := rfl
@[simp] theorem setKiosk_fleet (s : State) (v : Kiosk) : (setKiosk s v).fleet = s.fleet := rfl
@[simp] theorem setKiosk_clk (s : State) (v : Kiosk) : (setKiosk s v).clk = s.clk := rfl
@[simp] theorem setKiosk_cores (s : State) (v : Kiosk) : (setKiosk s v).cores = s.cores := rfl
@[simp] theorem setKiosk_load (s : State) (v : Kiosk) : (setKiosk s v).load = s.load := rfl
@[simp] theorem setKiosk_autoload (s : State) (v : Kiosk) : (setKiosk s v).autoload = s.autoload := rfl
@[simp] theorem setKiosk_chk (s : State) (v : Kiosk) : (setKiosk s v).chk = s.chk := rfl
@[simp] theorem setKiosk_sd (s : State) (v : Kiosk) : (setKiosk s v).sd = s.sd := rfl
@[simp] theorem setKiosk_pb0 (s : State) (v : Kiosk) : (setKiosk s v).pb0 = s.pb0 := rfl
@[simp] theorem setKiosk_pb1 (s : State) (v : Kiosk) : (setKiosk s v).pb1 = s.pb1 := rfl
@[simp] theorem setKiosk_mainOn (s : State) (v : Kiosk) : (setKiosk s v).mainOn = s.mainOn := rfl
@[simp] theorem setKiosk_rstHigh (s : State) (v : Kiosk) : (setKiosk s v).rstHigh = s.rstHigh := rfl
@[simp] theorem setKiosk_mem (s : State) (v : Kiosk) : (setKiosk s v).mem = s.mem := rfl

/-! setTag changes kiosk alone. -/
@[simp] theorem setTag_pending (s : State) (v : TagState) : (setTag s v).pending = s.pending := rfl
@[simp] theorem setTag_out (s : State) (v : TagState) : (setTag s v).out = s.out := rfl
@[simp] theorem setTag_free (s : State) (v : TagState) : (setTag s v).free = s.free := rfl
@[simp] theorem setTag_tick (s : State) (v : TagState) : (setTag s v).tick = s.tick := rfl
@[simp] theorem setTag_regs (s : State) (v : TagState) : (setTag s v).regs = s.regs := rfl
@[simp] theorem setTag_parBad (s : State) (v : TagState) : (setTag s v).parBad = s.parBad := rfl
@[simp] theorem setTag_wins (s : State) (v : TagState) : (setTag s v).wins = s.wins := rfl
@[simp] theorem setTag_quay (s : State) (v : TagState) : (setTag s v).quay = s.quay := rfl
@[simp] theorem setTag_units (s : State) (v : TagState) : (setTag s v).units = s.units := rfl
@[simp] theorem setTag_mews (s : State) (v : TagState) : (setTag s v).mews = s.mews := rfl
@[simp] theorem setTag_life (s : State) (v : TagState) : (setTag s v).life = s.life := rfl
@[simp] theorem setTag_kerb (s : State) (v : TagState) : (setTag s v).kerb = s.kerb := rfl
@[simp] theorem setTag_fer (s : State) (v : TagState) : (setTag s v).fer = s.fer := rfl
@[simp] theorem setTag_bak (s : State) (v : TagState) : (setTag s v).bak = s.bak := rfl
@[simp] theorem setTag_fnt (s : State) (v : TagState) : (setTag s v).fnt = s.fnt := rfl
@[simp] theorem setTag_curves (s : State) (v : TagState) : (setTag s v).curves = s.curves := rfl
@[simp] theorem setTag_xing (s : State) (v : TagState) : (setTag s v).xing = s.xing := rfl
@[simp] theorem setTag_fleet (s : State) (v : TagState) : (setTag s v).fleet = s.fleet := rfl
@[simp] theorem setTag_clk (s : State) (v : TagState) : (setTag s v).clk = s.clk := rfl
@[simp] theorem setTag_cores (s : State) (v : TagState) : (setTag s v).cores = s.cores := rfl
@[simp] theorem setTag_load (s : State) (v : TagState) : (setTag s v).load = s.load := rfl
@[simp] theorem setTag_autoload (s : State) (v : TagState) : (setTag s v).autoload = s.autoload := rfl
@[simp] theorem setTag_chk (s : State) (v : TagState) : (setTag s v).chk = s.chk := rfl
@[simp] theorem setTag_sd (s : State) (v : TagState) : (setTag s v).sd = s.sd := rfl
@[simp] theorem setTag_pb0 (s : State) (v : TagState) : (setTag s v).pb0 = s.pb0 := rfl
@[simp] theorem setTag_pb1 (s : State) (v : TagState) : (setTag s v).pb1 = s.pb1 := rfl
@[simp] theorem setTag_mainOn (s : State) (v : TagState) : (setTag s v).mainOn = s.mainOn := rfl
@[simp] theorem setTag_rstHigh (s : State) (v : TagState) : (setTag s v).rstHigh = s.rstHigh := rfl
@[simp] theorem setTag_mem (s : State) (v : TagState) : (setTag s v).mem = s.mem := rfl

/-! memWrite changes mem and chk alone. -/
@[simp] theorem memWrite_pending (s : State) (a : Nat) (b : Bytes) : (memWrite s a b).pending = s.pending := rfl
@[simp] theorem memWrite_out (s : State) (a : Nat) (b : Bytes) : (memWrite s a b).out = s.out := rfl
@[simp] theorem memWrite_free (s : State) (a : Nat) (b : Bytes) : (memWrite s a b).free = s.free := rfl
@[simp] theorem memWrite_tick (s : State) (a : Nat) (b : Bytes) : (memWrite s a b).tick = s.tick := rfl
@[simp] theorem memWrite_regs (s : State) (a : Nat) (b : Bytes) : (memWrite s a b).regs = s.regs := rfl
@[simp] theorem memWrite_parBad (s : State) (a : Nat) (b : Bytes) : (memWrite s a b).parBad = s.parBad := rfl
@[simp] theorem memWrite_wins (s : State) (a : Nat) (b : Bytes) : (memWrite s a b).wins = s.wins := rfl
@[simp] theorem memWrite_quay (s : State) (a : Nat) (b : Bytes) : (memWrite s a b).quay = s.quay := rfl
@[simp] theorem memWrite_units (s : State) (a : Nat) (b : Bytes) : (memWrite s a b).units = s.units := rfl
@[simp] theorem memWrite_mews (s : State) (a : Nat) (b : Bytes) : (memWrite s a b).mews = s.mews := rfl
@[simp] theorem memWrite_life (s : State) (a : Nat) (b : Bytes) : (memWrite s a b).life = s.life := rfl
@[simp] theorem memWrite_kerb (s : State) (a : Nat) (b : Bytes) : (memWrite s a b).kerb = s.kerb := rfl
@[simp] theorem memWrite_fer (s : State) (a : Nat) (b : Bytes) : (memWrite s a b).fer = s.fer := rfl
@[simp] theorem memWrite_bak (s : State) (a : Nat) (b : Bytes) : (memWrite s a b).bak = s.bak := rfl
@[simp] theorem memWrite_fnt (s : State) (a : Nat) (b : Bytes) : (memWrite s a b).fnt = s.fnt := rfl
@[simp] theorem memWrite_curves (s : State) (a : Nat) (b : Bytes) : (memWrite s a b).curves = s.curves := rfl
@[simp] theorem memWrite_xing (s : State) (a : Nat) (b : Bytes) : (memWrite s a b).xing = s.xing := rfl
@[simp] theorem memWrite_fleet (s : State) (a : Nat) (b : Bytes) : (memWrite s a b).fleet = s.fleet := rfl
@[simp] theorem memWrite_clk (s : State) (a : Nat) (b : Bytes) : (memWrite s a b).clk = s.clk := rfl
@[simp] theorem memWrite_cores (s : State) (a : Nat) (b : Bytes) : (memWrite s a b).cores = s.cores := rfl
@[simp] theorem memWrite_load (s : State) (a : Nat) (b : Bytes) : (memWrite s a b).load = s.load := rfl
@[simp] theorem memWrite_autoload (s : State) (a : Nat) (b : Bytes) : (memWrite s a b).autoload = s.autoload := rfl
@[simp] theorem memWrite_sd (s : State) (a : Nat) (b : Bytes) : (memWrite s a b).sd = s.sd := rfl
@[simp] theorem memWrite_pb0 (s : State) (a : Nat) (b : Bytes) : (memWrite s a b).pb0 = s.pb0 := rfl
@[simp] theorem memWrite_pb1 (s : State) (a : Nat) (b : Bytes) : (memWrite s a b).pb1 = s.pb1 := rfl
@[simp] theorem memWrite_kiosk (s : State) (a : Nat) (b : Bytes) : (memWrite s a b).kiosk = s.kiosk := rfl
@[simp] theorem memWrite_mainOn (s : State) (a : Nat) (b : Bytes) : (memWrite s a b).mainOn = s.mainOn := rfl
@[simp] theorem memWrite_rstHigh (s : State) (a : Nat) (b : Bytes) : (memWrite s a b).rstHigh = s.rstHigh := rfl

/-! memClear changes mem and chk alone. -/
@[simp] theorem memClear_pending (s : State) (lo hi : Nat) : (memClear s lo hi).pending = s.pending := rfl
@[simp] theorem memClear_out (s : State) (lo hi : Nat) : (memClear s lo hi).out = s.out := rfl
@[simp] theorem memClear_free (s : State) (lo hi : Nat) : (memClear s lo hi).free = s.free := rfl
@[simp] theorem memClear_tick (s : State) (lo hi : Nat) : (memClear s lo hi).tick = s.tick := rfl
@[simp] theorem memClear_regs (s : State) (lo hi : Nat) : (memClear s lo hi).regs = s.regs := rfl
@[simp] theorem memClear_parBad (s : State) (lo hi : Nat) : (memClear s lo hi).parBad = s.parBad := rfl
@[simp] theorem memClear_wins (s : State) (lo hi : Nat) : (memClear s lo hi).wins = s.wins := rfl
@[simp] theorem memClear_quay (s : State) (lo hi : Nat) : (memClear s lo hi).quay = s.quay := rfl
@[simp] theorem memClear_units (s : State) (lo hi : Nat) : (memClear s lo hi).units = s.units := rfl
@[simp] theorem memClear_mews (s : State) (lo hi : Nat) : (memClear s lo hi).mews = s.mews := rfl
@[simp] theorem memClear_life (s : State) (lo hi : Nat) : (memClear s lo hi).life = s.life := rfl
@[simp] theorem memClear_kerb (s : State) (lo hi : Nat) : (memClear s lo hi).kerb = s.kerb := rfl
@[simp] theorem memClear_fer (s : State) (lo hi : Nat) : (memClear s lo hi).fer = s.fer := rfl
@[simp] theorem memClear_bak (s : State) (lo hi : Nat) : (memClear s lo hi).bak = s.bak := rfl
@[simp] theorem memClear_fnt (s : State) (lo hi : Nat) : (memClear s lo hi).fnt = s.fnt := rfl
@[simp] theorem memClear_curves (s : State) (lo hi : Nat) : (memClear s lo hi).curves = s.curves := rfl
@[simp] theorem memClear_xing (s : State) (lo hi : Nat) : (memClear s lo hi).xing = s.xing := rfl
@[simp] theorem memClear_fleet (s : State) (lo hi : Nat) : (memClear s lo hi).fleet = s.fleet := rfl
@[simp] theorem memClear_clk (s : State) (lo hi : Nat) : (memClear s lo hi).clk = s.clk := rfl
@[simp] theorem memClear_cores (s : State) (lo hi : Nat) : (memClear s lo hi).cores = s.cores := rfl
@[simp] theorem memClear_load (s : State) (lo hi : Nat) : (memClear s lo hi).load = s.load := rfl
@[simp] theorem memClear_autoload (s : State) (lo hi : Nat) : (memClear s lo hi).autoload = s.autoload := rfl
@[simp] theorem memClear_sd (s : State) (lo hi : Nat) : (memClear s lo hi).sd = s.sd := rfl
@[simp] theorem memClear_pb0 (s : State) (lo hi : Nat) : (memClear s lo hi).pb0 = s.pb0 := rfl
@[simp] theorem memClear_pb1 (s : State) (lo hi : Nat) : (memClear s lo hi).pb1 = s.pb1 := rfl
@[simp] theorem memClear_kiosk (s : State) (lo hi : Nat) : (memClear s lo hi).kiosk = s.kiosk := rfl
@[simp] theorem memClear_mainOn (s : State) (lo hi : Nat) : (memClear s lo hi).mainOn = s.mainOn := rfl
@[simp] theorem memClear_rstHigh (s : State) (lo hi : Nat) : (memClear s lo hi).rstHigh = s.rstHigh := rfl

@[simp] theorem setFnt_fnt (s : State) (v : Fnt) : (setFnt s v).fnt = v := rfl
@[simp] theorem setClk_clk (s : State) (v : Clk) : (setClk s v).clk = v := rfl
@[simp] theorem setXing_xing (s : State) (v : Xing) : (setXing s v).xing = v := rfl
@[simp] theorem setLife_life (s : State) (v : Life) : (setLife s v).life = v := rfl
@[simp] theorem setKerb_kerb (s : State) (v : Kerb) : (setKerb s v).kerb = v := rfl
@[simp] theorem setChk_chk (s : State) (v : Chk) : (setChk s v).chk = v := rfl
@[simp] theorem setSd_sd (s : State) (v : Sd) : (setSd s v).sd = v := rfl
@[simp] theorem setKiosk_kiosk (s : State) (v : Kiosk) : (setKiosk s v).kiosk = v := rfl
@[simp] theorem emit_out (s : State) (o : Out) : (emit s o).out = o :: s.out := rfl

end Sys2Proof.Machine
end

