-- ==== Sys2Proof/Laws/Ops.lean ====
section
/-! SUPPORT. Reading a register and its fields after writing them, general registers, and everything the operations that every family
shares can do: messages, events, error records, faults and reports. -/
namespace Sys2Proof.Machine
open Sys2Proof

/-! ## Words and fields -/

theorem putBits_lt {x hi lo v : Nat} (h : lo ≤ hi) (g : hi < 32) (w : x < 2 ^ 32) : putBits x hi lo v < 2 ^ 32 := by
  unfold putBits
  have h1 : x % 2 ^ lo < 2 ^ lo := Nat.mod_lt _ (Nat.two_pow_pos _)
  have h2 : v % 2 ^ (hi + 1 - lo) < 2 ^ (hi + 1 - lo) := Nat.mod_lt _ (Nat.two_pow_pos _)
  have e1 : (2 : Nat) ^ (hi + 1) = 2 ^ lo * 2 ^ (hi + 1 - lo) := by rw [← Nat.pow_add]; congr 1; omega
  have e2 : (2 : Nat) ^ 32 = 2 ^ (hi + 1) * 2 ^ (31 - hi) := by rw [← Nat.pow_add]; congr 1; omega
  have h3 : x >>> (hi + 1) < 2 ^ (31 - hi) := by
    rw [Nat.shiftRight_eq_div_pow]
    exact Nat.div_lt_of_lt_mul (e2 ▸ w)
  have a : x % 2 ^ lo + v % 2 ^ (hi + 1 - lo) * 2 ^ lo < 2 ^ (hi + 1) := by
    have : v % 2 ^ (hi + 1 - lo) * 2 ^ lo + 2 ^ lo ≤ 2 ^ (hi + 1 - lo) * 2 ^ lo := by
      have := Nat.mul_le_mul_right (2 ^ lo) (Nat.succ_le_of_lt h2)
      rw [Nat.succ_mul] at this
      exact this
    rw [e1, Nat.mul_comm (2 ^ lo)]
    omega
  have b : x >>> (hi + 1) * 2 ^ (hi + 1) + 2 ^ (hi + 1) ≤ 2 ^ 32 := by
    have := Nat.mul_le_mul_right (2 ^ (hi + 1)) (Nat.succ_le_of_lt h3)
    rw [Nat.succ_mul] at this
    rw [e2, Nat.mul_comm (2 ^ (hi + 1))]
    exact this
  omega

/-- A bit of a word with a field replaced: the field's bit inside it, the old one outside. -/
theorem putBits_testBit {x hi lo v : Nat} (h : lo ≤ hi) (i : Nat) :
    (putBits x hi lo v).testBit i = if lo ≤ i ∧ i ≤ hi then v.testBit (i - lo) else x.testBit i := by
  unfold putBits
  have h1 : x % 2 ^ lo < 2 ^ lo := Nat.mod_lt _ (Nat.two_pow_pos _)
  have h2 : v % 2 ^ (hi + 1 - lo) < 2 ^ (hi + 1 - lo) := Nat.mod_lt _ (Nat.two_pow_pos _)
  have e1 : (2 : Nat) ^ (hi + 1) = 2 ^ lo * 2 ^ (hi + 1 - lo) := by rw [← Nat.pow_add]; congr 1; omega
  have a : x % 2 ^ lo + v % 2 ^ (hi + 1 - lo) * 2 ^ lo < 2 ^ (hi + 1) := by
    have : v % 2 ^ (hi + 1 - lo) * 2 ^ lo + 2 ^ lo ≤ 2 ^ (hi + 1 - lo) * 2 ^ lo := by
      have := Nat.mul_le_mul_right (2 ^ lo) (Nat.succ_le_of_lt h2)
      rw [Nat.succ_mul] at this
      exact this
    rw [e1, Nat.mul_comm (2 ^ lo)]
    omega
  rw [Nat.add_comm, Nat.mul_comm (x >>> (hi + 1)), Nat.testBit_two_pow_mul_add _ a]
  by_cases c : i < hi + 1
  · rw [if_pos c, Nat.add_comm, Nat.mul_comm, Nat.testBit_two_pow_mul_add _ h1]
    by_cases d : i < lo
    · rw [if_pos d, if_neg (by omega), Nat.testBit_mod_two_pow]
      simp [d]
    · rw [if_neg d, if_pos (by omega), Nat.testBit_mod_two_pow]
      have : i - lo < hi + 1 - lo := by omega
      simp [this]
  · rw [if_neg c, if_neg (by omega), Nat.testBit_shiftRight]
    congr 1
    omega

theorem bits_testBit (x hi lo i : Nat) : (bits x hi lo).testBit i = (decide (i < hi + 1 - lo) && x.testBit (lo + i)) := by
  unfold bits
  rw [Nat.testBit_mod_two_pow, Nat.testBit_shiftRight]

theorem wput_toNat {w : Word} {hi lo v : Nat} (h : lo ≤ hi) (g : hi < 32) : (wput w hi lo v).toNat = putBits w.toNat hi lo v := by
  unfold wput
  rw [BitVec.toNat_ofNat]
  exact Nat.mod_eq_of_lt (putBits_lt h g w.isLt)

/-- A bit of a word with a field replaced. -/
theorem wbit_wput {w : Word} {hi lo v : Nat} (h : lo ≤ hi) (g : hi < 32) (n : Nat) :
    wbit (wput w hi lo v) n = if lo ≤ n ∧ n ≤ hi then v.testBit (n - lo) else wbit w n := by
  unfold wbit
  rw [wput_toNat h g, putBits_testBit h]

/-- The field just written. -/
theorem wbits_wput_same {w : Word} {hi lo v : Nat} (h : lo ≤ hi) (g : hi < 32) :
    wbits (wput w hi lo v) hi lo = v % 2 ^ (hi + 1 - lo) := by
  unfold wbits
  rw [wput_toNat h g]
  apply Nat.eq_of_testBit_eq
  intro i
  rw [bits_testBit, putBits_testBit h, Nat.testBit_mod_two_pow]
  by_cases c : i < hi + 1 - lo
  · rw [if_pos (by omega)]
    simp
  · simp [c]

/-- A field that does not meet the one just written. -/
theorem wbits_wput_ne {w : Word} {hi lo v a b : Nat} (h : lo ≤ hi) (g : hi < 32) (d : a < lo ∨ hi < b) :
    wbits (wput w hi lo v) a b = wbits w a b := by
  unfold wbits
  rw [wput_toNat h g]
  apply Nat.eq_of_testBit_eq
  intro i
  rw [bits_testBit, bits_testBit, putBits_testBit h]
  by_cases c : i < a + 1 - b
  · rw [if_neg (by omega)]
  · simp [c]

/-! ## Registers -/

@[simp] theorem reg_setReg_same (s : State) (k : Nat) (w : Word) : reg (setReg s k w) k = w := by
  unfold reg setReg
  by_cases h : w = regReset k <;> simp [h]

theorem reg_setReg_ne (s : State) {k j : Nat} (w : Word) (h : j ≠ k) : reg (setReg s k w) j = reg s j := by
  unfold reg setReg
  by_cases g : w = regReset k
  · simp [g, tfind_tdel_ne s.regs h]
  · simp [g, tfind_tput_ne s.regs w h]

@[simp] theorem reg_setFld_same (s : State) (k hi lo v : Nat) : reg (setFld s k hi lo v) k = wput (reg s k) hi lo v :=
  reg_setReg_same s k _

theorem reg_setFld_ne (s : State) {k j : Nat} (hi lo v : Nat) (h : j ≠ k) : reg (setFld s k hi lo v) j = reg s j :=
  reg_setReg_ne s _ h

/-- The field just written, in its register. -/
theorem fld_setFld_same (s : State) (k : Nat) {hi lo v : Nat} (h : lo ≤ hi) (g : hi < 32) :
    fld (setFld s k hi lo v) k hi lo = v % 2 ^ (hi + 1 - lo) := by
  unfold fld
  rw [reg_setFld_same, wbits_wput_same h g]

/-- Another field of that register. -/
theorem fld_setFld_ne (s : State) (k : Nat) {hi lo v a b : Nat} (h : lo ≤ hi) (g : hi < 32) (d : a < lo ∨ hi < b) :
    fld (setFld s k hi lo v) k a b = fld s k a b := by
  unfold fld
  rw [reg_setFld_same, wbits_wput_ne h g d]

/-- A field of another register. -/
theorem fld_setReg_ne (s : State) {k j : Nat} (w : Word) (a b : Nat) (h : j ≠ k) : fld (setReg s k w) j a b = fld s j a b := by
  unfold fld
  rw [reg_setReg_ne s w h]

theorem rbit_setReg_ne (s : State) {k j : Nat} (w : Word) (n : Nat) (h : j ≠ k) : rbit (setReg s k w) j n = rbit s j n := by
  unfold rbit
  rw [reg_setReg_ne s w h]

theorem rbit_setFld_same (s : State) (k : Nat) {hi lo v : Nat} (h : lo ≤ hi) (g : hi < 32) (n : Nat) :
    rbit (setFld s k hi lo v) k n = if lo ≤ n ∧ n ≤ hi then v.testBit (n - lo) else rbit s k n := by
  unfold rbit
  rw [reg_setFld_same, wbit_wput h g]

/-! ## General registers (R325) -/

/-- G0 reads 0. -/
@[simp] theorem gpr_zero (r : CoreRegs) : gpr r 0 = 0 := rfl
/-- A write of G0 is discarded. -/
@[simp] theorem setGpr_zero (r : CoreRegs) (v : Word) : setGpr r 0 v = r := rfl

/-- A general register after one has been written. -/
theorem gpr_setGpr (r : CoreRegs) (n m : GReg) (v : Word) : gpr (setGpr r n v) m = if m = n ∧ n ≠ 0 then v else gpr r m := by
  unfold gpr setGpr
  by_cases h0 : n = 0
  · subst h0
    simp
  · by_cases h15 : n = 15
    · subst h15
      by_cases m0 : m = 0
      · subst m0
        simp
      · by_cases m15 : m = 15
        · subst m15
          by_cases u : userMode r <;> simp [setStk, stk, userMode] <;> simp_all [userMode]
        · by_cases u : userMode r <;> simp [setStk, stk, u, m0, m15]
    · by_cases m0 : m = 0
      · subst m0
        simp [Ne.symm h0]
      · by_cases m15 : m = 15
        · subst m15
          have : ¬ (15 : GReg) = n := fun e => h15 e.symm
          simp [h0, h15, this, stk, userMode]
          rfl
        · by_cases e : m = n
          · subst e
            simp [m0, m15]
          · have : m.val ≠ n.val := fun g => e (Fin.ext g)
            simp [h0, h15, m0, m15, e, tget_tset_ne _ _ _ this]

/-! ## What the shared operations change

Each says that the result is the state with the named fields replaced, so that every other field is as before. -/

/-- A message changes its table entry and the trace. -/
theorem sendMsix_frame (s : State) (fn e : Nat) :
    ∃ m o, sendMsix s fn e = { s with quay := { s.quay with msix := m }, out := o } := by
  unfold sendMsix
  split
  · exact ⟨s.quay.msix, s.out, rfl⟩
  · split
    · exact ⟨_, _, rfl⟩
    · exact ⟨_, s.out, rfl⟩

/-- So do the messages of a group. -/
theorem groupMessage_frame (s : State) (g : Nat) :
    ∃ m o, groupMessage s g = { s with quay := { s.quay with msix := m }, out := o } := by
  have h (b : Bool) (z : State) (f : Nat) (hz : ∃ m o, z = { s with quay := { s.quay with msix := m }, out := o }) :
      ∃ m o, (if b then sendMsix z f g else z) = { s with quay := { s.quay with msix := m }, out := o } := by
    obtain ⟨m, o, rfl⟩ := hz
    cases b
    · exact ⟨m, o, rfl⟩
    · obtain ⟨m', o', e⟩ := sendMsix_frame { s with quay := { s.quay with msix := m }, out := o } f g
      exact ⟨m', o', by simpa using e⟩
  unfold groupMessage
  exact h _ _ 128 (h _ _ 0 ⟨s.quay.msix, s.out, rfl⟩)

/-- Block events change the register file, message entries and the trace. -/
theorem raiseInt_frame (s : State) (p mask : Nat) :
    ∃ r b m o, raiseInt s p mask = { s with regs := r, parBad := b, quay := { s.quay with msix := m }, out := o } := by
  unfold raiseInt
  split
  · exact ⟨s.regs, s.parBad, s.quay.msix, s.out, rfl⟩
  · dsimp only
    split
    · obtain ⟨m, o, e⟩ := groupMessage_frame (setReg s (rk p Reg.INT_STAT) (reg s (rk p Reg.INT_STAT) ||| BitVec.ofNat 32 mask)) (groupOf p)
      exact ⟨_, _, m, o, e⟩
    · exact ⟨_, _, s.quay.msix, s.out, rfl⟩

theorem intWritten_frame (s : State) (p : Nat) :
    ∃ m o, intWritten s p = { s with quay := { s.quay with msix := m }, out := o } := by
  unfold intWritten
  split
  · exact groupMessage_frame s _
  · exact ⟨s.quay.msix, s.out, rfl⟩

/-- Two registers written, then events raised. -/
theorem raiseInt_setReg2_frame (s : State) (k k' : Nat) (w w' : Word) (p mask : Nat) :
    ∃ r b m o, raiseInt (setReg (setReg s k w) k' w') p mask =
      { s with regs := r, parBad := b, quay := { s.quay with msix := m }, out := o } := by
  have hw : ∃ r b, setReg (setReg s k w) k' w' = { s with regs := r, parBad := b } := ⟨_, _, rfl⟩
  obtain ⟨r, b, h⟩ := hw
  rw [h]
  exact raiseInt_frame { s with regs := r, parBad := b } p mask

/-- An error record does too. -/
theorem errSynd_frame (s : State) (p code master info addr : Nat) :
    ∃ r b m o, errSynd s p code master info addr = { s with regs := r, parBad := b, quay := { s.quay with msix := m }, out := o } := by
  unfold errSynd
  split
  · exact ⟨s.regs, s.parBad, s.quay.msix, s.out, rfl⟩
  · split
    · exact ⟨_, _, s.quay.msix, s.out, rfl⟩
    · exact raiseInt_setReg2_frame s _ _ _ _ p _

/-- The Fountain's failure also changes the Fountain and the reports that wait for the Kerb. -/
theorem fountainFail_frame (s : State) :
    ∃ r b m o f l, fountainFail s = { s with regs := r, parBad := b, quay := { s.quay with msix := m }, out := o, fnt := f
                                             kerb := { s.kerb with reports := l } } := by
  unfold fountainFail
  generalize List.filterMap _ _ = dead
  generalize hf : ({ s.fnt with
    state := 5, int := {}, sw := {}, absorbed := [], credit := 0, seed := [], katBusy := false
    part := [], rngDead := s.fnt.rngDead ++ dead } : Fnt) = f
  obtain ⟨r, b, m, o, e⟩ := raiseInt_frame { s with fnt := f } 0x2C 4
  refine ⟨r, b, m, o, f, ?_⟩
  subst hf
  dsimp only at e ⊢
  rw [e]
  exact ⟨_, rfl⟩

/-- A register write changes the register file and its parity flags. -/
theorem setReg_frame (s : State) (k : Nat) (w : Word) : ∃ r b, setReg s k w = { s with regs := r, parBad := b } := ⟨_, _, rfl⟩

theorem setFld_frame (s : State) (k hi lo v : Nat) : ∃ r b, setFld s k hi lo v = { s with regs := r, parBad := b } := setReg_frame s k _

theorem bump_frame (s : State) (k hi lo d : Nat) : ∃ r b, bump s k hi lo d = { s with regs := r, parBad := b } := setReg_frame s k _

/-- A lasting fault's events and report, and the Fountain's failure where it is the Fountain's. -/
theorem lasting_frame (s : State) (p mask : Nat) (c : Prop) [Decidable c] (rep : KReport) :
    ∃ r b m o f l, (if c then fountainFail (kreport (raiseInt s p mask) rep) else kreport (raiseInt s p mask) rep) =
      { s with regs := r, parBad := b, quay := { s.quay with msix := m }, out := o, fnt := f, kerb := { s.kerb with reports := l } } := by
  obtain ⟨r, b, m, o, e⟩ := raiseInt_frame s p mask
  rw [e]
  split
  · obtain ⟨r', b', m', o', f, l, e'⟩ := fountainFail_frame (kreport { s with
      regs := r, parBad := b, quay := { s.quay with msix := m }, out := o } rep)
    exact ⟨r', b', m', o', f, l, e'⟩
  · exact ⟨r, b, m, o, s.fnt, _, rfl⟩

/-- A counted fault changes the register file, the fault windows, message entries, the trace and the reports, and through page 0x2C
the Fountain. -/
theorem countFault_frame (s : State) (p : Nat) :
    ∃ r b m o f l w, countFault s p = { s with regs := r, parBad := b, quay := { s.quay with msix := m }, out := o, fnt := f, wins := w
                                               kerb := { s.kerb with reports := l } } := by
  unfold countFault
  split
  · exact ⟨s.regs, s.parBad, s.quay.msix, s.out, s.fnt, s.kerb.reports, s.wins, rfl⟩
  · obtain ⟨r, b, h⟩ := bump_frame s (rk p Reg.FAULT_CNT) 15 0 1
    rw [h]
    dsimp only [kreport]
    split
    · exact ⟨r, b, s.quay.msix, s.out, s.fnt, _, s.wins, rfl⟩
    · split
      · obtain ⟨r', b', h'⟩ := setFld_frame { s with regs := r, parBad := b } (rk p Reg.PAGE_STAT) 31 31 1
        dsimp only at h'
        rw [h']
        dsimp only
        generalize List.filter _ s.wins = w
        obtain ⟨r2, b2, m, o, f, l', e⟩ := lasting_frame
          { s with regs := r', parBad := b', wins := w } p (2 ^ 31) (p = 0x2C) { src := 10, info := p, lasting := true }
        exact ⟨r2, b2, m, o, f, l', w, e⟩
      · split
        · exact ⟨r, b, s.quay.msix, s.out, s.fnt, _, _, rfl⟩
        · exact ⟨r, b, s.quay.msix, s.out, s.fnt, _, s.wins, rfl⟩

/-! ## The fields they leave alone, one by one -/

@[simp] theorem sendMsix_pending (s : State) (f e : Nat) : (sendMsix s f e).pending = s.pending := by
  obtain ⟨_, _, e⟩ := sendMsix_frame s f e
  rw [e]
@[simp] theorem sendMsix_free (s : State) (f e : Nat) : (sendMsix s f e).free = s.free := by
  obtain ⟨_, _, e⟩ := sendMsix_frame s f e
  rw [e]
@[simp] theorem sendMsix_tick (s : State) (f e : Nat) : (sendMsix s f e).tick = s.tick := by
  obtain ⟨_, _, e⟩ := sendMsix_frame s f e
  rw [e]
@[simp] theorem sendMsix_wins (s : State) (f e : Nat) : (sendMsix s f e).wins = s.wins := by
  obtain ⟨_, _, e⟩ := sendMsix_frame s f e
  rw [e]
@[simp] theorem sendMsix_units (s : State) (f e : Nat) : (sendMsix s f e).units = s.units := by
  obtain ⟨_, _, e⟩ := sendMsix_frame s f e
  rw [e]
@[simp] theorem sendMsix_mews (s : State) (f e : Nat) : (sendMsix s f e).mews = s.mews := by
  obtain ⟨_, _, e⟩ := sendMsix_frame s f e
  rw [e]
@[simp] theorem sendMsix_life (s : State) (f e : Nat) : (sendMsix s f e).life = s.life := by
  obtain ⟨_, _, e⟩ := sendMsix_frame s f e
  rw [e]
@[simp] theorem sendMsix_kerb (s : State) (f e : Nat) : (sendMsix s f e).kerb = s.kerb := by
  obtain ⟨_, _, e⟩ := sendMsix_frame s f e
  rw [e]
@[simp] theorem sendMsix_fer (s : State) (f e : Nat) : (sendMsix s f e).fer = s.fer := by
  obtain ⟨_, _, e⟩ := sendMsix_frame s f e
  rw [e]
@[simp] theorem sendMsix_bak (s : State) (f e : Nat) : (sendMsix s f e).bak = s.bak := by
  obtain ⟨_, _, e⟩ := sendMsix_frame s f e
  rw [e]
@[simp] theorem sendMsix_fnt (s : State) (f e : Nat) : (sendMsix s f e).fnt = s.fnt := by
  obtain ⟨_, _, e⟩ := sendMsix_frame s f e
  rw [e]
@[simp] theorem sendMsix_curves (s : State) (f e : Nat) : (sendMsix s f e).curves = s.curves := by
  obtain ⟨_, _, e⟩ := sendMsix_frame s f e
  rw [e]
@[simp] theorem sendMsix_xing (s : State) (f e : Nat) : (sendMsix s f e).xing = s.xing := by
  obtain ⟨_, _, e⟩ := sendMsix_frame s f e
  rw [e]
@[simp] theorem sendMsix_fleet (s : State) (f e : Nat) : (sendMsix s f e).fleet = s.fleet := by
  obtain ⟨_, _, e⟩ := sendMsix_frame s f e
  rw [e]
@[simp] theorem sendMsix_clk (s : State) (f e : Nat) : (sendMsix s f e).clk = s.clk := by
  obtain ⟨_, _, e⟩ := sendMsix_frame s f e
  rw [e]
@[simp] theorem sendMsix_cores (s : State) (f e : Nat) : (sendMsix s f e).cores = s.cores := by
  obtain ⟨_, _, e⟩ := sendMsix_frame s f e
  rw [e]
@[simp] theorem sendMsix_load (s : State) (f e : Nat) : (sendMsix s f e).load = s.load := by
  obtain ⟨_, _, e⟩ := sendMsix_frame s f e
  rw [e]
@[simp] theorem sendMsix_autoload (s : State) (f e : Nat) : (sendMsix s f e).autoload = s.autoload := by
  obtain ⟨_, _, e⟩ := sendMsix_frame s f e
  rw [e]
@[simp] theorem sendMsix_chk (s : State) (f e : Nat) : (sendMsix s f e).chk = s.chk := by
  obtain ⟨_, _, e⟩ := sendMsix_frame s f e
  rw [e]
@[simp] theorem sendMsix_sd (s : State) (f e : Nat) : (sendMsix s f e).sd = s.sd := by
  obtain ⟨_, _, e⟩ := sendMsix_frame s f e
  rw [e]
@[simp] theorem sendMsix_pb0 (s : State) (f e : Nat) : (sendMsix s f e).pb0 = s.pb0 := by
  obtain ⟨_, _, e⟩ := sendMsix_frame s f e
  rw [e]
@[simp] theorem sendMsix_pb1 (s : State) (f e : Nat) : (sendMsix s f e).pb1 = s.pb1 := by
  obtain ⟨_, _, e⟩ := sendMsix_frame s f e
  rw [e]
@[simp] theorem sendMsix_kiosk (s : State) (f e : Nat) : (sendMsix s f e).kiosk = s.kiosk := by
  obtain ⟨_, _, e⟩ := sendMsix_frame s f e
  rw [e]
@[simp] theorem sendMsix_mainOn (s : State) (f e : Nat) : (sendMsix s f e).mainOn = s.mainOn := by
  obtain ⟨_, _, e⟩ := sendMsix_frame s f e
  rw [e]
@[simp] theorem sendMsix_rstHigh (s : State) (f e : Nat) : (sendMsix s f e).rstHigh = s.rstHigh := by
  obtain ⟨_, _, e⟩ := sendMsix_frame s f e
  rw [e]
@[simp] theorem sendMsix_mem (s : State) (f e : Nat) : (sendMsix s f e).mem = s.mem := by
  obtain ⟨_, _, e⟩ := sendMsix_frame s f e
  rw [e]

@[simp] theorem groupMessage_pending (s : State) (g : Nat) : (groupMessage s g).pending = s.pending := by
  obtain ⟨_, _, e⟩ := groupMessage_frame s g
  rw [e]
@[simp] theorem groupMessage_free (s : State) (g : Nat) : (groupMessage s g).free = s.free := by
  obtain ⟨_, _, e⟩ := groupMessage_frame s g
  rw [e]
@[simp] theorem groupMessage_tick (s : State) (g : Nat) : (groupMessage s g).tick = s.tick := by
  obtain ⟨_, _, e⟩ := groupMessage_frame s g
  rw [e]
@[simp] theorem groupMessage_wins (s : State) (g : Nat) : (groupMessage s g).wins = s.wins := by
  obtain ⟨_, _, e⟩ := groupMessage_frame s g
  rw [e]
@[simp] theorem groupMessage_units (s : State) (g : Nat) : (groupMessage s g).units = s.units := by
  obtain ⟨_, _, e⟩ := groupMessage_frame s g
  rw [e]
@[simp] theorem groupMessage_mews (s : State) (g : Nat) : (groupMessage s g).mews = s.mews := by
  obtain ⟨_, _, e⟩ := groupMessage_frame s g
  rw [e]
@[simp] theorem groupMessage_life (s : State) (g : Nat) : (groupMessage s g).life = s.life := by
  obtain ⟨_, _, e⟩ := groupMessage_frame s g
  rw [e]
@[simp] theorem groupMessage_kerb (s : State) (g : Nat) : (groupMessage s g).kerb = s.kerb := by
  obtain ⟨_, _, e⟩ := groupMessage_frame s g
  rw [e]
@[simp] theorem groupMessage_fer (s : State) (g : Nat) : (groupMessage s g).fer = s.fer := by
  obtain ⟨_, _, e⟩ := groupMessage_frame s g
  rw [e]
@[simp] theorem groupMessage_bak (s : State) (g : Nat) : (groupMessage s g).bak = s.bak := by
  obtain ⟨_, _, e⟩ := groupMessage_frame s g
  rw [e]
@[simp] theorem groupMessage_fnt (s : State) (g : Nat) : (groupMessage s g).fnt = s.fnt := by
  obtain ⟨_, _, e⟩ := groupMessage_frame s g
  rw [e]
@[simp] theorem groupMessage_curves (s : State) (g : Nat) : (groupMessage s g).curves = s.curves := by
  obtain ⟨_, _, e⟩ := groupMessage_frame s g
  rw [e]
@[simp] theorem groupMessage_xing (s : State) (g : Nat) : (groupMessage s g).xing = s.xing := by
  obtain ⟨_, _, e⟩ := groupMessage_frame s g
  rw [e]
@[simp] theorem groupMessage_fleet (s : State) (g : Nat) : (groupMessage s g).fleet = s.fleet := by
  obtain ⟨_, _, e⟩ := groupMessage_frame s g
  rw [e]
@[simp] theorem groupMessage_clk (s : State) (g : Nat) : (groupMessage s g).clk = s.clk := by
  obtain ⟨_, _, e⟩ := groupMessage_frame s g
  rw [e]
@[simp] theorem groupMessage_cores (s : State) (g : Nat) : (groupMessage s g).cores = s.cores := by
  obtain ⟨_, _, e⟩ := groupMessage_frame s g
  rw [e]
@[simp] theorem groupMessage_load (s : State) (g : Nat) : (groupMessage s g).load = s.load := by
  obtain ⟨_, _, e⟩ := groupMessage_frame s g
  rw [e]
@[simp] theorem groupMessage_autoload (s : State) (g : Nat) : (groupMessage s g).autoload = s.autoload := by
  obtain ⟨_, _, e⟩ := groupMessage_frame s g
  rw [e]
@[simp] theorem groupMessage_chk (s : State) (g : Nat) : (groupMessage s g).chk = s.chk := by
  obtain ⟨_, _, e⟩ := groupMessage_frame s g
  rw [e]
@[simp] theorem groupMessage_sd (s : State) (g : Nat) : (groupMessage s g).sd = s.sd := by
  obtain ⟨_, _, e⟩ := groupMessage_frame s g
  rw [e]
@[simp] theorem groupMessage_pb0 (s : State) (g : Nat) : (groupMessage s g).pb0 = s.pb0 := by
  obtain ⟨_, _, e⟩ := groupMessage_frame s g
  rw [e]
@[simp] theorem groupMessage_pb1 (s : State) (g : Nat) : (groupMessage s g).pb1 = s.pb1 := by
  obtain ⟨_, _, e⟩ := groupMessage_frame s g
  rw [e]
@[simp] theorem groupMessage_kiosk (s : State) (g : Nat) : (groupMessage s g).kiosk = s.kiosk := by
  obtain ⟨_, _, e⟩ := groupMessage_frame s g
  rw [e]
@[simp] theorem groupMessage_mainOn (s : State) (g : Nat) : (groupMessage s g).mainOn = s.mainOn := by
  obtain ⟨_, _, e⟩ := groupMessage_frame s g
  rw [e]
@[simp] theorem groupMessage_rstHigh (s : State) (g : Nat) : (groupMessage s g).rstHigh = s.rstHigh := by
  obtain ⟨_, _, e⟩ := groupMessage_frame s g
  rw [e]
@[simp] theorem groupMessage_mem (s : State) (g : Nat) : (groupMessage s g).mem = s.mem := by
  obtain ⟨_, _, e⟩ := groupMessage_frame s g
  rw [e]

@[simp] theorem raiseInt_pending (s : State) (p m : Nat) : (raiseInt s p m).pending = s.pending := by
  obtain ⟨_, _, _, _, e⟩ := raiseInt_frame s p m
  rw [e]
@[simp] theorem raiseInt_free (s : State) (p m : Nat) : (raiseInt s p m).free = s.free := by
  obtain ⟨_, _, _, _, e⟩ := raiseInt_frame s p m
  rw [e]
@[simp] theorem raiseInt_tick (s : State) (p m : Nat) : (raiseInt s p m).tick = s.tick := by
  obtain ⟨_, _, _, _, e⟩ := raiseInt_frame s p m
  rw [e]
@[simp] theorem raiseInt_wins (s : State) (p m : Nat) : (raiseInt s p m).wins = s.wins := by
  obtain ⟨_, _, _, _, e⟩ := raiseInt_frame s p m
  rw [e]
@[simp] theorem raiseInt_units (s : State) (p m : Nat) : (raiseInt s p m).units = s.units := by
  obtain ⟨_, _, _, _, e⟩ := raiseInt_frame s p m
  rw [e]
@[simp] theorem raiseInt_mews (s : State) (p m : Nat) : (raiseInt s p m).mews = s.mews := by
  obtain ⟨_, _, _, _, e⟩ := raiseInt_frame s p m
  rw [e]
@[simp] theorem raiseInt_life (s : State) (p m : Nat) : (raiseInt s p m).life = s.life := by
  obtain ⟨_, _, _, _, e⟩ := raiseInt_frame s p m
  rw [e]
@[simp] theorem raiseInt_kerb (s : State) (p m : Nat) : (raiseInt s p m).kerb = s.kerb := by
  obtain ⟨_, _, _, _, e⟩ := raiseInt_frame s p m
  rw [e]
@[simp] theorem raiseInt_fer (s : State) (p m : Nat) : (raiseInt s p m).fer = s.fer := by
  obtain ⟨_, _, _, _, e⟩ := raiseInt_frame s p m
  rw [e]
@[simp] theorem raiseInt_bak (s : State) (p m : Nat) : (raiseInt s p m).bak = s.bak := by
  obtain ⟨_, _, _, _, e⟩ := raiseInt_frame s p m
  rw [e]
@[simp] theorem raiseInt_fnt (s : State) (p m : Nat) : (raiseInt s p m).fnt = s.fnt := by
  obtain ⟨_, _, _, _, e⟩ := raiseInt_frame s p m
  rw [e]
@[simp] theorem raiseInt_curves (s : State) (p m : Nat) : (raiseInt s p m).curves = s.curves := by
  obtain ⟨_, _, _, _, e⟩ := raiseInt_frame s p m
  rw [e]
@[simp] theorem raiseInt_xing (s : State) (p m : Nat) : (raiseInt s p m).xing = s.xing := by
  obtain ⟨_, _, _, _, e⟩ := raiseInt_frame s p m
  rw [e]
@[simp] theorem raiseInt_fleet (s : State) (p m : Nat) : (raiseInt s p m).fleet = s.fleet := by
  obtain ⟨_, _, _, _, e⟩ := raiseInt_frame s p m
  rw [e]
@[simp] theorem raiseInt_clk (s : State) (p m : Nat) : (raiseInt s p m).clk = s.clk := by
  obtain ⟨_, _, _, _, e⟩ := raiseInt_frame s p m
  rw [e]
@[simp] theorem raiseInt_cores (s : State) (p m : Nat) : (raiseInt s p m).cores = s.cores := by
  obtain ⟨_, _, _, _, e⟩ := raiseInt_frame s p m
  rw [e]
@[simp] theorem raiseInt_load (s : State) (p m : Nat) : (raiseInt s p m).load = s.load := by
  obtain ⟨_, _, _, _, e⟩ := raiseInt_frame s p m
  rw [e]
@[simp] theorem raiseInt_autoload (s : State) (p m : Nat) : (raiseInt s p m).autoload = s.autoload := by
  obtain ⟨_, _, _, _, e⟩ := raiseInt_frame s p m
  rw [e]
@[simp] theorem raiseInt_chk (s : State) (p m : Nat) : (raiseInt s p m).chk = s.chk := by
  obtain ⟨_, _, _, _, e⟩ := raiseInt_frame s p m
  rw [e]
@[simp] theorem raiseInt_sd (s : State) (p m : Nat) : (raiseInt s p m).sd = s.sd := by
  obtain ⟨_, _, _, _, e⟩ := raiseInt_frame s p m
  rw [e]
@[simp] theorem raiseInt_pb0 (s : State) (p m : Nat) : (raiseInt s p m).pb0 = s.pb0 := by
  obtain ⟨_, _, _, _, e⟩ := raiseInt_frame s p m
  rw [e]
@[simp] theorem raiseInt_pb1 (s : State) (p m : Nat) : (raiseInt s p m).pb1 = s.pb1 := by
  obtain ⟨_, _, _, _, e⟩ := raiseInt_frame s p m
  rw [e]
@[simp] theorem raiseInt_kiosk (s : State) (p m : Nat) : (raiseInt s p m).kiosk = s.kiosk := by
  obtain ⟨_, _, _, _, e⟩ := raiseInt_frame s p m
  rw [e]
@[simp] theorem raiseInt_mainOn (s : State) (p m : Nat) : (raiseInt s p m).mainOn = s.mainOn := by
  obtain ⟨_, _, _, _, e⟩ := raiseInt_frame s p m
  rw [e]
@[simp] theorem raiseInt_rstHigh (s : State) (p m : Nat) : (raiseInt s p m).rstHigh = s.rstHigh := by
  obtain ⟨_, _, _, _, e⟩ := raiseInt_frame s p m
  rw [e]
@[simp] theorem raiseInt_mem (s : State) (p m : Nat) : (raiseInt s p m).mem = s.mem := by
  obtain ⟨_, _, _, _, e⟩ := raiseInt_frame s p m
  rw [e]

@[simp] theorem intWritten_pending (s : State) (p : Nat) : (intWritten s p).pending = s.pending := by
  obtain ⟨_, _, e⟩ := intWritten_frame s p
  rw [e]
@[simp] theorem intWritten_free (s : State) (p : Nat) : (intWritten s p).free = s.free := by
  obtain ⟨_, _, e⟩ := intWritten_frame s p
  rw [e]
@[simp] theorem intWritten_tick (s : State) (p : Nat) : (intWritten s p).tick = s.tick := by
  obtain ⟨_, _, e⟩ := intWritten_frame s p
  rw [e]
@[simp] theorem intWritten_wins (s : State) (p : Nat) : (intWritten s p).wins = s.wins := by
  obtain ⟨_, _, e⟩ := intWritten_frame s p
  rw [e]
@[simp] theorem intWritten_units (s : State) (p : Nat) : (intWritten s p).units = s.units := by
  obtain ⟨_, _, e⟩ := intWritten_frame s p
  rw [e]
@[simp] theorem intWritten_mews (s : State) (p : Nat) : (intWritten s p).mews = s.mews := by
  obtain ⟨_, _, e⟩ := intWritten_frame s p
  rw [e]
@[simp] theorem intWritten_life (s : State) (p : Nat) : (intWritten s p).life = s.life := by
  obtain ⟨_, _, e⟩ := intWritten_frame s p
  rw [e]
@[simp] theorem intWritten_kerb (s : State) (p : Nat) : (intWritten s p).kerb = s.kerb := by
  obtain ⟨_, _, e⟩ := intWritten_frame s p
  rw [e]
@[simp] theorem intWritten_fer (s : State) (p : Nat) : (intWritten s p).fer = s.fer := by
  obtain ⟨_, _, e⟩ := intWritten_frame s p
  rw [e]
@[simp] theorem intWritten_bak (s : State) (p : Nat) : (intWritten s p).bak = s.bak := by
  obtain ⟨_, _, e⟩ := intWritten_frame s p
  rw [e]
@[simp] theorem intWritten_fnt (s : State) (p : Nat) : (intWritten s p).fnt = s.fnt := by
  obtain ⟨_, _, e⟩ := intWritten_frame s p
  rw [e]
@[simp] theorem intWritten_curves (s : State) (p : Nat) : (intWritten s p).curves = s.curves := by
  obtain ⟨_, _, e⟩ := intWritten_frame s p
  rw [e]
@[simp] theorem intWritten_xing (s : State) (p : Nat) : (intWritten s p).xing = s.xing := by
  obtain ⟨_, _, e⟩ := intWritten_frame s p
  rw [e]
@[simp] theorem intWritten_fleet (s : State) (p : Nat) : (intWritten s p).fleet = s.fleet := by
  obtain ⟨_, _, e⟩ := intWritten_frame s p
  rw [e]
@[simp] theorem intWritten_clk (s : State) (p : Nat) : (intWritten s p).clk = s.clk := by
  obtain ⟨_, _, e⟩ := intWritten_frame s p
  rw [e]
@[simp] theorem intWritten_cores (s : State) (p : Nat) : (intWritten s p).cores = s.cores := by
  obtain ⟨_, _, e⟩ := intWritten_frame s p
  rw [e]
@[simp] theorem intWritten_load (s : State) (p : Nat) : (intWritten s p).load = s.load := by
  obtain ⟨_, _, e⟩ := intWritten_frame s p
  rw [e]
@[simp] theorem intWritten_autoload (s : State) (p : Nat) : (intWritten s p).autoload = s.autoload := by
  obtain ⟨_, _, e⟩ := intWritten_frame s p
  rw [e]
@[simp] theorem intWritten_chk (s : State) (p : Nat) : (intWritten s p).chk = s.chk := by
  obtain ⟨_, _, e⟩ := intWritten_frame s p
  rw [e]
@[simp] theorem intWritten_sd (s : State) (p : Nat) : (intWritten s p).sd = s.sd := by
  obtain ⟨_, _, e⟩ := intWritten_frame s p
  rw [e]
@[simp] theorem intWritten_pb0 (s : State) (p : Nat) : (intWritten s p).pb0 = s.pb0 := by
  obtain ⟨_, _, e⟩ := intWritten_frame s p
  rw [e]
@[simp] theorem intWritten_pb1 (s : State) (p : Nat) : (intWritten s p).pb1 = s.pb1 := by
  obtain ⟨_, _, e⟩ := intWritten_frame s p
  rw [e]
@[simp] theorem intWritten_kiosk (s : State) (p : Nat) : (intWritten s p).kiosk = s.kiosk := by
  obtain ⟨_, _, e⟩ := intWritten_frame s p
  rw [e]
@[simp] theorem intWritten_mainOn (s : State) (p : Nat) : (intWritten s p).mainOn = s.mainOn := by
  obtain ⟨_, _, e⟩ := intWritten_frame s p
  rw [e]
@[simp] theorem intWritten_rstHigh (s : State) (p : Nat) : (intWritten s p).rstHigh = s.rstHigh := by
  obtain ⟨_, _, e⟩ := intWritten_frame s p
  rw [e]
@[simp] theorem intWritten_mem (s : State) (p : Nat) : (intWritten s p).mem = s.mem := by
  obtain ⟨_, _, e⟩ := intWritten_frame s p
  rw [e]

@[simp] theorem errSynd_pending (s : State) (p c m i a : Nat) : (errSynd s p c m i a).pending = s.pending := by
  obtain ⟨_, _, _, _, e⟩ := errSynd_frame s p c m i a
  rw [e]
@[simp] theorem errSynd_free (s : State) (p c m i a : Nat) : (errSynd s p c m i a).free = s.free := by
  obtain ⟨_, _, _, _, e⟩ := errSynd_frame s p c m i a
  rw [e]
@[simp] theorem errSynd_tick (s : State) (p c m i a : Nat) : (errSynd s p c m i a).tick = s.tick := by
  obtain ⟨_, _, _, _, e⟩ := errSynd_frame s p c m i a
  rw [e]
@[simp] theorem errSynd_wins (s : State) (p c m i a : Nat) : (errSynd s p c m i a).wins = s.wins := by
  obtain ⟨_, _, _, _, e⟩ := errSynd_frame s p c m i a
  rw [e]
@[simp] theorem errSynd_units (s : State) (p c m i a : Nat) : (errSynd s p c m i a).units = s.units := by
  obtain ⟨_, _, _, _, e⟩ := errSynd_frame s p c m i a
  rw [e]
@[simp] theorem errSynd_mews (s : State) (p c m i a : Nat) : (errSynd s p c m i a).mews = s.mews := by
  obtain ⟨_, _, _, _, e⟩ := errSynd_frame s p c m i a
  rw [e]
@[simp] theorem errSynd_life (s : State) (p c m i a : Nat) : (errSynd s p c m i a).life = s.life := by
  obtain ⟨_, _, _, _, e⟩ := errSynd_frame s p c m i a
  rw [e]
@[simp] theorem errSynd_kerb (s : State) (p c m i a : Nat) : (errSynd s p c m i a).kerb = s.kerb := by
  obtain ⟨_, _, _, _, e⟩ := errSynd_frame s p c m i a
  rw [e]
@[simp] theorem errSynd_fer (s : State) (p c m i a : Nat) : (errSynd s p c m i a).fer = s.fer := by
  obtain ⟨_, _, _, _, e⟩ := errSynd_frame s p c m i a
  rw [e]
@[simp] theorem errSynd_bak (s : State) (p c m i a : Nat) : (errSynd s p c m i a).bak = s.bak := by
  obtain ⟨_, _, _, _, e⟩ := errSynd_frame s p c m i a
  rw [e]
@[simp] theorem errSynd_fnt (s : State) (p c m i a : Nat) : (errSynd s p c m i a).fnt = s.fnt := by
  obtain ⟨_, _, _, _, e⟩ := errSynd_frame s p c m i a
  rw [e]
@[simp] theorem errSynd_curves (s : State) (p c m i a : Nat) : (errSynd s p c m i a).curves = s.curves := by
  obtain ⟨_, _, _, _, e⟩ := errSynd_frame s p c m i a
  rw [e]
@[simp] theorem errSynd_xing (s : State) (p c m i a : Nat) : (errSynd s p c m i a).xing = s.xing := by
  obtain ⟨_, _, _, _, e⟩ := errSynd_frame s p c m i a
  rw [e]
@[simp] theorem errSynd_fleet (s : State) (p c m i a : Nat) : (errSynd s p c m i a).fleet = s.fleet := by
  obtain ⟨_, _, _, _, e⟩ := errSynd_frame s p c m i a
  rw [e]
@[simp] theorem errSynd_clk (s : State) (p c m i a : Nat) : (errSynd s p c m i a).clk = s.clk := by
  obtain ⟨_, _, _, _, e⟩ := errSynd_frame s p c m i a
  rw [e]
@[simp] theorem errSynd_cores (s : State) (p c m i a : Nat) : (errSynd s p c m i a).cores = s.cores := by
  obtain ⟨_, _, _, _, e⟩ := errSynd_frame s p c m i a
  rw [e]
@[simp] theorem errSynd_load (s : State) (p c m i a : Nat) : (errSynd s p c m i a).load = s.load := by
  obtain ⟨_, _, _, _, e⟩ := errSynd_frame s p c m i a
  rw [e]
@[simp] theorem errSynd_autoload (s : State) (p c m i a : Nat) : (errSynd s p c m i a).autoload = s.autoload := by
  obtain ⟨_, _, _, _, e⟩ := errSynd_frame s p c m i a
  rw [e]
@[simp] theorem errSynd_chk (s : State) (p c m i a : Nat) : (errSynd s p c m i a).chk = s.chk := by
  obtain ⟨_, _, _, _, e⟩ := errSynd_frame s p c m i a
  rw [e]
@[simp] theorem errSynd_sd (s : State) (p c m i a : Nat) : (errSynd s p c m i a).sd = s.sd := by
  obtain ⟨_, _, _, _, e⟩ := errSynd_frame s p c m i a
  rw [e]
@[simp] theorem errSynd_pb0 (s : State) (p c m i a : Nat) : (errSynd s p c m i a).pb0 = s.pb0 := by
  obtain ⟨_, _, _, _, e⟩ := errSynd_frame s p c m i a
  rw [e]
@[simp] theorem errSynd_pb1 (s : State) (p c m i a : Nat) : (errSynd s p c m i a).pb1 = s.pb1 := by
  obtain ⟨_, _, _, _, e⟩ := errSynd_frame s p c m i a
  rw [e]
@[simp] theorem errSynd_kiosk (s : State) (p c m i a : Nat) : (errSynd s p c m i a).kiosk = s.kiosk := by
  obtain ⟨_, _, _, _, e⟩ := errSynd_frame s p c m i a
  rw [e]
@[simp] theorem errSynd_mainOn (s : State) (p c m i a : Nat) : (errSynd s p c m i a).mainOn = s.mainOn := by
  obtain ⟨_, _, _, _, e⟩ := errSynd_frame s p c m i a
  rw [e]
@[simp] theorem errSynd_rstHigh (s : State) (p c m i a : Nat) : (errSynd s p c m i a).rstHigh = s.rstHigh := by
  obtain ⟨_, _, _, _, e⟩ := errSynd_frame s p c m i a
  rw [e]
@[simp] theorem errSynd_mem (s : State) (p c m i a : Nat) : (errSynd s p c m i a).mem = s.mem := by
  obtain ⟨_, _, _, _, e⟩ := errSynd_frame s p c m i a
  rw [e]

@[simp] theorem fountainFail_pending (s : State)  : (fountainFail s).pending = s.pending := by
  obtain ⟨_, _, _, _, _, _, e⟩ := fountainFail_frame s 
  rw [e]
@[simp] theorem fountainFail_free (s : State)  : (fountainFail s).free = s.free := by
  obtain ⟨_, _, _, _, _, _, e⟩ := fountainFail_frame s 
  rw [e]
@[simp] theorem fountainFail_tick (s : State)  : (fountainFail s).tick = s.tick := by
  obtain ⟨_, _, _, _, _, _, e⟩ := fountainFail_frame s 
  rw [e]
@[simp] theorem fountainFail_wins (s : State)  : (fountainFail s).wins = s.wins := by
  obtain ⟨_, _, _, _, _, _, e⟩ := fountainFail_frame s 
  rw [e]
@[simp] theorem fountainFail_units (s : State)  : (fountainFail s).units = s.units := by
  obtain ⟨_, _, _, _, _, _, e⟩ := fountainFail_frame s 
  rw [e]
@[simp] theorem fountainFail_mews (s : State)  : (fountainFail s).mews = s.mews := by
  obtain ⟨_, _, _, _, _, _, e⟩ := fountainFail_frame s 
  rw [e]
@[simp] theorem fountainFail_life (s : State)  : (fountainFail s).life = s.life := by
  obtain ⟨_, _, _, _, _, _, e⟩ := fountainFail_frame s 
  rw [e]
@[simp] theorem fountainFail_fer (s : State)  : (fountainFail s).fer = s.fer := by
  obtain ⟨_, _, _, _, _, _, e⟩ := fountainFail_frame s 
  rw [e]
@[simp] theorem fountainFail_bak (s : State)  : (fountainFail s).bak = s.bak := by
  obtain ⟨_, _, _, _, _, _, e⟩ := fountainFail_frame s 
  rw [e]
@[simp] theorem fountainFail_curves (s : State)  : (fountainFail s).curves = s.curves := by
  obtain ⟨_, _, _, _, _, _, e⟩ := fountainFail_frame s 
  rw [e]
@[simp] theorem fountainFail_xing (s : State)  : (fountainFail s).xing = s.xing := by
  obtain ⟨_, _, _, _, _, _, e⟩ := fountainFail_frame s 
  rw [e]
@[simp] theorem fountainFail_fleet (s : State)  : (fountainFail s).fleet = s.fleet := by
  obtain ⟨_, _, _, _, _, _, e⟩ := fountainFail_frame s 
  rw [e]
@[simp] theorem fountainFail_clk (s : State)  : (fountainFail s).clk = s.clk := by
  obtain ⟨_, _, _, _, _, _, e⟩ := fountainFail_frame s 
  rw [e]
@[simp] theorem fountainFail_cores (s : State)  : (fountainFail s).cores = s.cores := by
  obtain ⟨_, _, _, _, _, _, e⟩ := fountainFail_frame s 
  rw [e]
@[simp] theorem fountainFail_load (s : State)  : (fountainFail s).load = s.load := by
  obtain ⟨_, _, _, _, _, _, e⟩ := fountainFail_frame s 
  rw [e]
@[simp] theorem fountainFail_autoload (s : State)  : (fountainFail s).autoload = s.autoload := by
  obtain ⟨_, _, _, _, _, _, e⟩ := fountainFail_frame s 
  rw [e]
@[simp] theorem fountainFail_chk (s : State)  : (fountainFail s).chk = s.chk := by
  obtain ⟨_, _, _, _, _, _, e⟩ := fountainFail_frame s 
  rw [e]
@[simp] theorem fountainFail_sd (s : State)  : (fountainFail s).sd = s.sd := by
  obtain ⟨_, _, _, _, _, _, e⟩ := fountainFail_frame s 
  rw [e]
@[simp] theorem fountainFail_pb0 (s : State)  : (fountainFail s).pb0 = s.pb0 := by
  obtain ⟨_, _, _, _, _, _, e⟩ := fountainFail_frame s 
  rw [e]
@[simp] theorem fountainFail_pb1 (s : State)  : (fountainFail s).pb1 = s.pb1 := by
  obtain ⟨_, _, _, _, _, _, e⟩ := fountainFail_frame s 
  rw [e]
@[simp] theorem fountainFail_kiosk (s : State)  : (fountainFail s).kiosk = s.kiosk := by
  obtain ⟨_, _, _, _, _, _, e⟩ := fountainFail_frame s 
  rw [e]
@[simp] theorem fountainFail_mainOn (s : State)  : (fountainFail s).mainOn = s.mainOn := by
  obtain ⟨_, _, _, _, _, _, e⟩ := fountainFail_frame s 
  rw [e]
@[simp] theorem fountainFail_rstHigh (s : State)  : (fountainFail s).rstHigh = s.rstHigh := by
  obtain ⟨_, _, _, _, _, _, e⟩ := fountainFail_frame s 
  rw [e]
@[simp] theorem fountainFail_mem (s : State)  : (fountainFail s).mem = s.mem := by
  obtain ⟨_, _, _, _, _, _, e⟩ := fountainFail_frame s 
  rw [e]

@[simp] theorem countFault_pending (s : State) (p : Nat) : (countFault s p).pending = s.pending := by
  obtain ⟨_, _, _, _, _, _, _, e⟩ := countFault_frame s p
  rw [e]
@[simp] theorem countFault_free (s : State) (p : Nat) : (countFault s p).free = s.free := by
  obtain ⟨_, _, _, _, _, _, _, e⟩ := countFault_frame s p
  rw [e]
@[simp] theorem countFault_tick (s : State) (p : Nat) : (countFault s p).tick = s.tick := by
  obtain ⟨_, _, _, _, _, _, _, e⟩ := countFault_frame s p
  rw [e]
@[simp] theorem countFault_units (s : State) (p : Nat) : (countFault s p).units = s.units := by
  obtain ⟨_, _, _, _, _, _, _, e⟩ := countFault_frame s p
  rw [e]
@[simp] theorem countFault_mews (s : State) (p : Nat) : (countFault s p).mews = s.mews := by
  obtain ⟨_, _, _, _, _, _, _, e⟩ := countFault_frame s p
  rw [e]
@[simp] theorem countFault_life (s : State) (p : Nat) : (countFault s p).life = s.life := by
  obtain ⟨_, _, _, _, _, _, _, e⟩ := countFault_frame s p
  rw [e]
@[simp] theorem countFault_fer (s : State) (p : Nat) : (countFault s p).fer = s.fer := by
  obtain ⟨_, _, _, _, _, _, _, e⟩ := countFault_frame s p
  rw [e]
@[simp] theorem countFault_bak (s : State) (p : Nat) : (countFault s p).bak = s.bak := by
  obtain ⟨_, _, _, _, _, _, _, e⟩ := countFault_frame s p
  rw [e]
@[simp] theorem countFault_curves (s : State) (p : Nat) : (countFault s p).curves = s.curves := by
  obtain ⟨_, _, _, _, _, _, _, e⟩ := countFault_frame s p
  rw [e]
@[simp] theorem countFault_xing (s : State) (p : Nat) : (countFault s p).xing = s.xing := by
  obtain ⟨_, _, _, _, _, _, _, e⟩ := countFault_frame s p
  rw [e]
@[simp] theorem countFault_fleet (s : State) (p : Nat) : (countFault s p).fleet = s.fleet := by
  obtain ⟨_, _, _, _, _, _, _, e⟩ := countFault_frame s p
  rw [e]
@[simp] theorem countFault_clk (s : State) (p : Nat) : (countFault s p).clk = s.clk := by
  obtain ⟨_, _, _, _, _, _, _, e⟩ := countFault_frame s p
  rw [e]
@[simp] theorem countFault_cores (s : State) (p : Nat) : (countFault s p).cores = s.cores := by
  obtain ⟨_, _, _, _, _, _, _, e⟩ := countFault_frame s p
  rw [e]
@[simp] theorem countFault_load (s : State) (p : Nat) : (countFault s p).load = s.load := by
  obtain ⟨_, _, _, _, _, _, _, e⟩ := countFault_frame s p
  rw [e]
@[simp] theorem countFault_autoload (s : State) (p : Nat) : (countFault s p).autoload = s.autoload := by
  obtain ⟨_, _, _, _, _, _, _, e⟩ := countFault_frame s p
  rw [e]
@[simp] theorem countFault_chk (s : State) (p : Nat) : (countFault s p).chk = s.chk := by
  obtain ⟨_, _, _, _, _, _, _, e⟩ := countFault_frame s p
  rw [e]
@[simp] theorem countFault_sd (s : State) (p : Nat) : (countFault s p).sd = s.sd := by
  obtain ⟨_, _, _, _, _, _, _, e⟩ := countFault_frame s p
  rw [e]
@[simp] theorem countFault_pb0 (s : State) (p : Nat) : (countFault s p).pb0 = s.pb0 := by
  obtain ⟨_, _, _, _, _, _, _, e⟩ := countFault_frame s p
  rw [e]
@[simp] theorem countFault_pb1 (s : State) (p : Nat) : (countFault s p).pb1 = s.pb1 := by
  obtain ⟨_, _, _, _, _, _, _, e⟩ := countFault_frame s p
  rw [e]
@[simp] theorem countFault_kiosk (s : State) (p : Nat) : (countFault s p).kiosk = s.kiosk := by
  obtain ⟨_, _, _, _, _, _, _, e⟩ := countFault_frame s p
  rw [e]
@[simp] theorem countFault_mainOn (s : State) (p : Nat) : (countFault s p).mainOn = s.mainOn := by
  obtain ⟨_, _, _, _, _, _, _, e⟩ := countFault_frame s p
  rw [e]
@[simp] theorem countFault_rstHigh (s : State) (p : Nat) : (countFault s p).rstHigh = s.rstHigh := by
  obtain ⟨_, _, _, _, _, _, _, e⟩ := countFault_frame s p
  rw [e]
@[simp] theorem countFault_mem (s : State) (p : Nat) : (countFault s p).mem = s.mem := by
  obtain ⟨_, _, _, _, _, _, _, e⟩ := countFault_frame s p
  rw [e]

end Sys2Proof.Machine
end

