-- ==== Sys2Proof/Tests/States.lean ====
section
/-! SUPPORT. The small states that the tests and the witnesses start from. -/
namespace Sys2Proof.Machine
open Sys2Proof

/-- READY with both links up at 32 GT/s x16. -/
def ready : State :=
  { State.reset with rstHigh := true, regs := [(0x3048, 0x80000005), (0x8040, 0x505), (0x9040, 0x505)] }

/-- READY with queue 7 enabled for function 0 and domain 0, its rings in one host window, three commands in its SQ. -/
def q7 : State :=
  setQueue ready 7 { rec' := [(0, 0x08800000), (2, 0x00100000), (10, 3), (12, 0x00100000)], state := .enabled, sqTail := 3 }

/-- The next state a command answers. -/
def nextOf : Res → State
  | .next s => s
  | _ => State.reset

end Sys2Proof.Machine
end

