-- ==== Sys2Proof/Tests/Slice0.lean ====
section
/-! SUPPORT. Smoke tests of well-formedness, an ill-formed term for each check, and tests against the values that the manual's own
worked examples state. -/
namespace Sys2Proof.Machine
open Sys2Proof

set_option maxRecDepth 100000

/-! ## Well-formedness -/

/-- An instruction with GUARD always, whose fetch and data meet no error. -/
def always : IssueIn := { guard := 0 }

theorem test_wf_add : (Instr.add 3 always 4 2 1).wellFormed = true := by decide
theorem test_wf_ldst : (Instr.ldstLoad 3 always 4 2 2 false 0 .none).wellFormed = true := by decide
theorem test_wf_write : (Instr.registerWrite (.port 0) 0x1040 { size := 4 } 7).wellFormed = true := by decide
/-- GUARD 0x7 is undefined (R332). -/
theorem test_ill_guard : (Instr.add 3 { guard := 7 } 4 2 1).wellFormed = false := by decide
/-- A register access of 0 bytes, and of 9 (R22). -/
theorem test_ill_size : (Instr.registerWrite (.port 0) 0x1040 { size := 0 } 7).wellFormed = false
    ∧ (Instr.rcFieldRead (.port 0) 0x1040 { size := 9, par := false }).wellFormed = false := by decide
/-- Number 0x11 names no special register (R327). -/
theorem test_ill_sr : (Instr.mfs 3 always 4 0x11).wellFormed = false ∧ (Instr.mts 3 always 0x38 4).wellFormed = false := by decide
/-- MASK bits 0 and 15 (R341). -/
theorem test_ill_mask : (Instr.pushm 3 always 1).wellFormed = false ∧ (Instr.popm 3 always 0x8000).wellFormed = false := by decide
/-- Reserved bits of UDF. -/
theorem test_ill_udf : (Instr.udf 3 always 0x1000).wellFormed = false ∧ (Instr.udf 3 always 5).wellFormed = true := by decide
/-- W 3, and I 0 (R338). -/
theorem test_ill_width : (Instr.par 3 always 4 2 ⟨true, 3⟩).wellFormed = false ∧ (Instr.brev 3 always 4 2 ⟨true, 3⟩).wellFormed = false
    ∧ (Instr.par 3 always 4 2 ⟨false, 0⟩).wellFormed = false := by decide
/-- SZ 3, a sign-extended word, and a store with X 1 (R340). -/
theorem test_ill_sz : (Instr.ldstLoad 3 always 4 2 3 false 0 .none).wellFormed = false
    ∧ (Instr.ldstLoad 3 always 4 2 2 true 0 .none).wellFormed = false ∧ (Instr.ldstStore 3 always 4 2 ⟨3, false⟩ 0).wellFormed = false
    ∧ (Instr.ldstStore 3 always 4 2 ⟨1, true⟩ 0).wellFormed = false := by decide
/-- LEN 0 (R348). -/
theorem test_ill_loop : (Instr.loop 3 always false (.imm 5) 0).wellFormed = false := by decide
/-- Registers of a block instruction that coincide or are G0, a POLY, and a Ga of BCLR (R354). -/
theorem test_ill_block : (Instr.bcopy 3 always 2 2 ⟨1, 0⟩).wellFormed = false ∧ (Instr.bclr 3 always 0 ⟨0, 1, 0⟩).wellFormed = false
    ∧ (Instr.bclr 3 always 2 ⟨0, 2, 0⟩).wellFormed = false ∧ (Instr.bcrc 3 always 1 0 3 0).wellFormed = false
    ∧ (Instr.bcopy 3 always 1 2 ⟨3, 1⟩).wellFormed = false ∧ (Instr.bclr 3 always 1 ⟨2, 3, 0⟩).wellFormed = false := by decide
/-- POLY 3 (R352). -/
theorem test_ill_poly : (Instr.bcrc 3 always 1 2 3 3).wellFormed = false ∧ (Instr.crc 3 always 1 2 3 0).wellFormed = false
    ∧ (Instr.crc 3 always 1 2 0 3).wellFormed = false := by decide
/-- PD 0 and COMB 3 (R344). -/
theorem test_ill_test : (Instr.test 3 always 0 0 0 2 (.imm 5)).wellFormed = false
    ∧ (Instr.test 3 always 1 3 0 2 (.imm 5)).wellFormed = false := by decide

/-! ## The words of the manual's Ixmet examples -/

/-- The words of the example after R356: MOVI G2, 0x2000; MOVI G3, 5; MOVI G1, 0. -/
theorem test_word_movi : ixWord (.movi 0 always 2 false 0x2000) = some 0x03202000 ∧ ixWord (.movi 0 always 3 false 5) = some 0x03300005
    ∧ ixWord (.movi 0 always 1 false 0) = some 0x03100000 := by decide
/-- Its BCRC G1, G2, G3 with CRC-7, SHL G1, G1, 1 and ORI G1, G1, 1. -/
theorem test_word_crc : ixWord (.bcrc 0 always 1 2 3 2) = some 0x0C123A00 ∧ ixWord (.shl 0 always 1 1 (.imm 1)) = some 0x04110840
    ∧ ixWord (.ori 0 always 1 1 1) = some 0x02112001 := by decide
/-- R334: GATE #5 is class 0, FUNC 6, with the number in bits [11:0]. -/
theorem test_word_gate : ixWord (.gate 0 always 5) = some 0x00180005 := by decide
/-- R331: class 0xF is an undefined value; a reserved bit of NOP is SUB 2; a defined word has none. -/
theorem test_word_sub : ixSub 0x0F000000 = some 1 ∧ ixSub 0x00041000 = some 2 ∧ ixSub 0x0C123A00 = none := by decide

/-! The instruction a word is (R330): the words above, read back, and UDF for an undefined one. -/
theorem test_decode_movi : ixDecode 0 always 0x03202000 = .movi 0 always 2 false 0x2000 := by decide
theorem test_decode_bcrc : ixDecode 0 always 0x0C123A00 = .bcrc 0 always 1 2 3 2 := by decide
theorem test_decode_gate : ixDecode 0 always 0x00180005 = .gate 0 always 5 := by decide
theorem test_decode_udf : ixDecode 0 always 0x0F000000 = .udf 0 always 0x0F000000 := by decide
/-- R332: GUARD is bits [31:28]. -/
theorem test_decode_guard : ixDecode 0 always 0x13202000 = .movi 0 { guard := 1 } 2 false 0x2000 := by decide

/-! ## The worked examples of the manual -/

/-- R34: THRESHOLD 3; two faults leave the page sound, a window that ends restarts the count, the third in one window lasts. -/
theorem test_fault_window :
    let z := setReg ready (rk 4 Reg.FAULT_THR) 3
    let two := countFault (countFault z 4) 4
    fld two (rk 4 Reg.FAULT_CNT) 15 0 = 2 ∧ rbit two (rk 4 Reg.PAGE_STAT) 31 = false ∧ two.wins = [4]
      ∧ rbit (countFault two 4) (rk 4 Reg.PAGE_STAT) 31 = true ∧ (countFault two 4).wins = [] := by decide
/-- R60: with W1 over 0x7000_0000 to 0x7000_FFFF, 8,192 bytes at 0x7000_C000 pass and 12,288 bytes at 0x7000_E000 do not. -/
theorem test_window :
    covered { rec' := [(10, 0x70000003), (12, 0x7000F000)] } true 0x7000C000 8192 = true
      ∧ covered { rec' := [(10, 0x70000003), (12, 0x7000F000)] } true 0x7000E000 12288 = false := by decide
/-- The descriptor of chapter 3: generation 3 of slot 0x1C40 is handle 0x0006_1C40. -/
theorem test_handle : mkHandle 0x1C40 3 = 0x61C40 ∧ hSlot 0x61C40 = 0x1C40 ∧ hGen 0x61C40 = 3 := by decide
/-- R104: the status word of that command is 0x9A2B_0000, and of its replay 0x9A2B_000D. -/
theorem test_status_word : statusWord 0 0 0x1A2B true = 0x9A2B0000 ∧ statusWord 0x0D 0 0x1A2B true = 0x9A2B000D := by decide
/-- R133: DEV 0xA5C, TWIN 0 and queue 0x123 give the fixed field 0x052E_0123. -/
theorem test_fixed_field : fixedField (setReg ready Reg.LANE_NONCE_CFG 0xA5C) 0x123 = 0x052E0123 := by decide
/-- R140: after block 2 an even device resumes at block 4, 0x0040_0000; R234: above block 4 at block 6, counter 0x1800. -/
theorem test_reservation : firstBlock { even := some { blk := 2, code := 0 } } 0 * 2 ^ 20 = 0x400000 ∧ firstBlock { even := some { blk := 4, code := 0 } } 0 * 1024 = 0x1800 := by
  decide
/-- R191: blobs of an AES-256 key and of an ML-DSA-65 public key have 88 and 2,008 bytes. -/
theorem test_blob : blobLen 3 = 88 ∧ blobLen 0x65 = 2008 := by decide
/-- R197: erasing generation 0x41 of slot 0x300 leaves it EMPTY with the new handle 0x0084_0300. -/
theorem test_erase :
    let v : Slot := { gen := 0x41, usage := 0, alg := 3, asg := true, dom := 0x11, mat := toLe 32 5 }
    mkHandle 0x300 v.gen = 0x820300 ∧ isEmpty (emptied v) = true ∧ (emptied v).mat = [] ∧ (emptied v).dom = 0x11
      ∧ mkHandle 0x300 (emptied v).gen = 0x840300 := by decide
/-- R316: k 20, LOCK_TOL 4, OUTLIER L/4; offsets of 150,000, then 18,928, then 2 ticks. -/
theorem test_slew :
    let z := setReg (setReg { ready with clk := { lock := 1 } } Reg.CT_CFG 0x114) Reg.CT_SYNC_CFG 0x44040000
    (countMarker z 5 150000).clk.corr = -65536 ∧ (countMarker z 5 150000).clk.lock = 1
      ∧ (countMarker z 5 18928).clk.corr = -18928 ∧ (countMarker z 5 2).clk.corr = -2 ∧ (countMarker z 5 2).clk.lock = 2 := by decide
/-- R306: with k 24 the tick 0x0000_003A_0000_0000 is the first of epoch 0x3A00. -/
theorem test_rollover :
    let z := setReg ready Reg.CT_CFG 24
    epochOf z 0x3A00000000 = 0x3A00 ∧ epochOf z (0x3A00000000 - 1) = 0x39FF := by decide
/-- R352: the CRC-7 of 40 00 00 00 00, 0x64 after its first byte and 0x4A after the last. -/
theorem test_crc7 : crcStep 2 0 0x40 8 = 0x64 ∧ crcStep 2 (crcStep 2 (crcStep 2 (crcStep 2 0x64 0 8) 0 8) 0 8) 0 8 = 0x4A := by decide
/-- CRC-32C of the nine digits, the check value of its usual catalogue entry. -/
theorem test_crc32c : crc32c [0x31, 0x32, 0x33, 0x34, 0x35, 0x36, 0x37, 0x38, 0x39] = 0xE3069283 := by decide

/-- The core of R386's worked example, with entry 5 of its tollgate table, and a Checkpoint rule that lets it run from its local RAM. -/
def gateCore : State :=
  { ready with
    chk := { rules := [(0, 0x8F), (3, 0x3FFC0)] }
    mem := [(lramBase 0 + 0x38028, 0x03), (lramBase 0 + 0x38029, 0x60), (lramBase 0 + 0x3802C, 0x01), (lramBase 0 + 0x3802E, 0x0C)]
    cores := [(0, { state := 2, r := {
      pc := 0x4100, psw := 0x34, g := [(1, 0x2A000), (2, 0x200)], tgBase := 0x38000, tgLimit := 16, uwBase := 0x20000, uwLimit := 0x30000
      sys := { sp := 0x34000, base := 0x30000, limit := 0x34000, rsp := 0x34400, rbase := 0x34000, rlimit := 0x34400 }
      usr := { sp := 0x2F800 } } })] }

/-- GATE #5 enters system mode at 0x6000 with PSW 0x24, DSP 0x0003_3FD8 and RSP 0x0003_43FC. -/
theorem test_gate :
    let t := nextOf (execGate 0 always 5 gateCore)
    (cregs t 0).pc = 0x6000 ∧ (cregs t 0).psw = 0x24 ∧ (cregs t 0).sys.sp = 0x33FD8 ∧ (cregs t 0).sys.rsp = 0x343FC
        ∧ (cregs t 0).usr.sp = 0x2F800 := by decide
/-- The frame holds the saved pc 0x4104, PSW 0x34, ECAUSE 0x40 and ADDR 5; 0x4104 stands at 0x0003_43FC too. -/
theorem test_gate_frame :
    let t := nextOf (execGate 0 always 5 gateCore)
    le (memBytes t (lramBase 0 + 0x33FD8) 4) = 0x4104 ∧ le (memBytes t (lramBase 0 + 0x33FDC) 4) = 0x34
        ∧ le (memBytes t (lramBase 0 + 0x33FE0) 4) = 0x40 ∧ le (memBytes t (lramBase 0 + 0x33FE4) 4) = 5
        ∧ le (memBytes t (lramBase 0 + 0x343FC) 4) = 0x4104 := by decide
/-- With G2 0x1800 pair 0 fails: TOLLGATE at VBASE + 0x200, saved pc 0x4100, ECAUSE 0x2008, ADDR 5, PSW 4. -/
theorem test_gate_pair :
    let t := nextOf (execGate 0 always 5 (setCore gateCore 0 (let v := coreAt gateCore 0; { v with r := { v.r with g := [(1, 0x2A000), (2, 0x1800)] } })))
    (cregs t 0).pc = 0x200 ∧ (cregs t 0).psw = 4 ∧ le (memBytes t (lramBase 0 + 0x33FD8) 4) = 0x4100
        ∧ le (memBytes t (lramBase 0 + 0x33FE0) 4) = 0x2008 ∧ le (memBytes t (lramBase 0 + 0x33FE4) 4) = 5 := by decide
/-- R483: SEG_WRITE of segment 3 with DEPOT_JBASE 0x800 first writes block 0x0803 with CMD24. -/
theorem test_seg_write :
    let z := [(Reg.DEPOT_STAT, 0x47), (Reg.DEPOT_CAP, 0x800), (Reg.DEPOT_JBASE, 0x800), (Reg.DEPOT_LBA, 0x10000),
      (Reg.DEPOT_BUF, 0x1100000), (Reg.DEPOT_XFER, 0x18010)].foldl (fun z e => setReg z e.1 e.2) ready
    let t := nextOf (execSegWrite (.core 0) z)
    t.out.head? = some (.sdCmd (cmdToken 24 0x803)) ∧ t.sd.op.map (·.count) = some 16 := by decide
/-- R502: 240 bytes from offset 0 of a Placard of 640 bytes come with 90 00; from offset 640 the answer is 6B 00. -/
theorem test_placard : (readBinary (fill 640 7) 0 240).length = 242 ∧ (readBinary (fill 640 7) 0 240).drop 240 = [0x90, 0x00]
    ∧ readBinary (fill 640 7) 640 1 = [0x6B, 0x00] := by decide
/-- R525: when SRAM initialisation ends the device is READY with BOOT_TIME 300. -/
theorem test_ready :
    let t := nextOf (execSramInitDone 300 (setFld { State.reset with rstHigh := true } Reg.BOOT_STAT 7 0 3))
    bootReady t = true ∧ reg t Reg.BOOT_TIME = 300 := by decide

end Sys2Proof.Machine
end

