-- ==== Sys2Proof/Tests/Witnesses.lean ====
section
/-! SUPPORT. For every statement, states and operands that meet its hypotheses, clause by clause. -/
open Sys2Proof Sys2Proof.Machine

set_option maxRecDepth 100000
set_option linter.unusedVariables false
set_option Elab.async false

/-- A first beat whose code alone was changed fails its Seal check. -/
theorem sealPass_code {src sink : Nat} {ctx : Option Nat} {off : Nat} {data : Bytes} (h : data ≠ [])
    (hx : xorBytes (data.take 64) [] = data.take 64) : (sealPass src sink ctx off data (some { code := 1 })).2 = false := by
  have h0 : 0 < data.length := List.length_pos_iff.mpr h
  have hne (a : Nat) : a ^^^ 1 ≠ a := by
    intro e
    have := congrArg (· ^^^ a) e
    simp [Nat.xor_comm a 1, Nat.xor_assoc] at this
  have h64 : (data.drop (64 * 0)).take 64 = data.take 64 := rfl
  unfold sealPass
  simp only [h64, hx, if_neg (Nat.not_le.mpr h0), Nat.mul_zero]
  exact if_neg (hne _) ▸ rfl

/-- A register of a buffer that holds four bytes, and each byte as the buffer gives it. -/
def fourBytes (a b c d : Nat) : Word := BitVec.ofNat 32 (a % 256 + 256 * (b % 256) + 65536 * (c % 256) + 16777216 * (d % 256))

theorem fourBytes_get (a b c d : Nat) :
    (BitVec.ofNat 8 (wbits (fourBytes a b c d) 31 0)).toNat = a % 256
      ∧ (BitVec.ofNat 8 (wbits (fourBytes a b c d) 31 8)).toNat = b % 256
      ∧ (BitVec.ofNat 8 (wbits (fourBytes a b c d) 31 16)).toNat = c % 256
      ∧ (BitVec.ofNat 8 (wbits (fourBytes a b c d) 31 24)).toNat = d % 256 := by
  simp only [wbits, bits, fourBytes, BitVec.toNat_ofNat, Nat.shiftRight_eq_div_pow, Nat.reducePow, Nat.reduceAdd, Nat.reduceSub]
  omega

/-- A state whose XING_AUTH begins with this device's serial. -/
def withAuth (s : State) : State :=
  let n := ownSerial
  { s with regs :=
      (Reg.XING_AUTH, fourBytes (n / 2 ^ 56) (n / 2 ^ 48) (n / 2 ^ 40) (n / 2 ^ 32))
        :: (Reg.XING_AUTH + 4, fourBytes (n / 2 ^ 24) (n / 2 ^ 16) (n / 2 ^ 8) n) :: s.regs }

theorem withAuth_serial (s : State) : be (sl (bufGet (withAuth s) Reg.XING_AUTH 0 240) 0 8) = ownSerial := by
  have h : ownSerial < 2 ^ 64 := Config.serial.isLt
  have e : sl (bufGet (withAuth s) Reg.XING_AUTH 0 240) 0 8 = (List.range 8).map fun i => BitVec.ofNat 8 (wbits
      (if i < 4 then fourBytes (ownSerial / 2 ^ 56) (ownSerial / 2 ^ 48) (ownSerial / 2 ^ 40) (ownSerial / 2 ^ 32)
        else fourBytes (ownSerial / 2 ^ 24) (ownSerial / 2 ^ 16) (ownSerial / 2 ^ 8) ownSerial) 31 (8 * (i % 4))) := rfl
  rw [e]
  simp only [List.range, List.range.loop, List.map, be, List.foldl, Nat.reduceLT, if_true, if_false, Nat.reduceMul, Nat.reduceMod,
    fourBytes_get, Nat.reducePow]
  omega

theorem withAuth_mine (s : State) : decide (be (sl (bufGet (withAuth s) Reg.XING_AUTH 0 240) 0 8) ≠ ownSerial) = false :=
  decide_eq_false fun h => h (withAuth_serial s)

/-- States and operands that meet the hypotheses of each clause of PageHeaderCommands: cntClear, intForce, pageLock, faultWindow. -/
theorem meets_PageHeaderCommands :
    (let s : State := ready; let src : Src := .core 3; let page : PageNo := 4; (Reaches s src (rk page.val Reg.PAGE_CTRL))) ∧
    (let s : State := ready; let src : Src := .core 3; let page : PageNo := 0x40; let v : BitVec 32 := 0x80000003; (Reaches s src (rk page.val Reg.INT_FORCE))) ∧
    (let s : State := ready; let src : Src := .core 3; let page : PageNo := 0x11; (Reaches s src (rk page.val Reg.PAGE_LOCK))) ∧
    (let s : State := { ready with wins := [4, 8] }; let page : PageNo := 4; (s.wins.contains page.val = true) ∧ (pageOn s page.val = true)) :=
  by and_intros <;> decide +kernel

/-- States and operands that meet the hypotheses of each clause of RegisterAccesses: write, eight, subWord, dropped, bar2, read, rcRead, bar2Read, bar4Read, parity, parityAgain. -/
theorem meets_RegisterAccesses :
    (let s : State := ready; let src : Src := .core 3; let key : Nat := rk 0x2C Reg.INT_EN; let v : BitVec 64 := 0xFFFFFFFF00000005; (Reaches s src key) ∧ (key % 4 = 0) ∧ (key % 0x1000 ≠ Reg.PAGE_CTRL) ∧ (key % 0x1000 ≠ Reg.INT_FORCE) ∧ (key % 0x1000 ≠ Reg.PAGE_LOCK) ∧ ((writeLow s src key (v.truncate 32) <|> writeMid s src key (v.truncate 32) <|> writeHigh s src key (v.truncate 32)) = none) ∧ ((fieldsAt (key / 0x1000) (key % 0x1000)).isEmpty = false)) ∧
    (let s : State := ready; let src : Src := .core 3; let key : Nat := Reg.MEWS_ASSIGN_BASE; let v : BitVec 64 := 0x0000000300000040; (AtPages src) ∧ (key % 4 = 0) ∧ (key + 8 ≤ 0x100000)) ∧
    (let s : State := ready; let src : Src := .core 3; let a : Nat := rk 0x2C Reg.INT_EN + 1; let n : Nat := 2; let v : BitVec 64 := 5; (Reaches s src a) ∧ (a < 0x50000) ∧ (0 < n) ∧ (n < 4) ∧ (a % 4 + n ≤ 4) ∧ (pageOn s (a / 0x1000) = true) ∧ (rbit s (rk (a / 0x1000) Reg.ERR_SYND) 23 = false)) ∧
    (let s : State := ready; let src : Src := .port 0; let key : Nat := 0x50040; let n : Nat := 4; let v : BitVec 64 := 1; (AtPages src) ∧ (0 < n) ∧ (n ≤ 4) ∧ (key % 4 + n ≤ 4) ∧ (key < 0x100000) ∧ (pageReaches s src (key / 0x1000) (key % 0x1000) = false)) ∧
    (let s : State := q7; let fn : FnNo := 0; let q : QueueNo := 7; let v : BitVec 64 := 9; (bar2Open s fn.val = true) ∧ (qFunc (queueAt s q.val) = fn.val)) ∧
    (let s : State := ready; let src : Src := .core 3; let key : Nat := Reg.CT_CFG; let b : Nat := 1; let n : Nat := 2; let par : Bool := true; (Reaches s src key) ∧ (key % 4 = 0) ∧ (0 < n) ∧ (b + n ≤ 4) ∧ (answers s src = true) ∧ (readEffect (parityMet s src key par) src key = none) ∧ (freeWidth key = none)) ∧
    (let s : State := setReg ready Reg.CHECKPOINT_REFUSED 7; let c : CoreNo := 1; (domOn s 0 = true)) ∧
    (let s : State := q7; let fn : FnNo := 0; let q : QueueNo := 7; let off : Nat := 8; let par : Bool := false; (off < 0x40) ∧ (off % 4 = 0) ∧ (bar2Open s fn.val = true) ∧ (qFunc (queueAt s q.val) = fn.val)) ∧
    (let s : State := ready; let fn : FnNo := 0; let a : Nat := 0x8000; let par : Bool := false; (a < 0x10000) ∧ (a % 4 = 0) ∧ (linkUp s (fnPort fn.val) = true)) ∧
    (let s : State := ready; let key : Nat := Reg.CT_CFG; (regThere s key = true) ∧ (tfind s.parBad key ≠ some (view s key)) ∧ (key % 0x1000 ≥ 0x40) ∧ (key < 0x50000) ∧ (rbit s (rk (key / 0x1000) Reg.PAR_STAT) 31 = false)) ∧
    (let s : State := { ready with parBad := [(Reg.CT_CFG, view ready Reg.CT_CFG)] }; let l : List Nat := [Reg.CT_CFG]; (∀ key ∈ l, tfind s.parBad key = some (view s key))) :=
  by and_intros <;> decide +kernel

/-- States and operands that meet the hypotheses of each clause of Doorbells: sqTail, sqTailRange, cqHead, cqHeadRange, sqTailIdle, sqTailOther, cqHeadIdle, cqHeadOther. -/
theorem meets_Doorbells :
    (let s : State := setQueue ready 7 ({ rec' := [(0, 0x08800000), (2, 0x00100000), (10, 3), (12, 0x00100000)], state := .enabled, sqTail := 3 } : Queue); let fn : FnNo := 0; let q : QueueNo := 7; let v : BitVec 32 := 9; (bar2Open s fn.val = true) ∧ (qFunc (queueAt s q.val) = fn.val) ∧ ((queueAt s q.val).state = .enabled) ∧ (wbits v 15 0 < sqSize (queueAt s q.val))) ∧
    (let s : State := setQueue ready 7 ({ rec' := [(0, 0x08800000), (2, 0x00100000), (10, 3), (12, 0x00100000)], state := .enabled, sqTail := 3 } : Queue); let fn : FnNo := 0; let q : QueueNo := 7; let v : BitVec 32 := 256; (bar2Open s fn.val = true) ∧ (qFunc (queueAt s q.val) = fn.val) ∧ ((queueAt s q.val).state = .enabled) ∧ (sqSize (queueAt s q.val) ≤ wbits v 15 0)) ∧
    (let s : State := setQueue ready 7 { ({ rec' := [(0, 0x08800000), (2, 0x00100000), (10, 3), (12, 0x00100000)], state := .enabled, sqTail := 3 } : Queue) with cqTail := 5 }; let fn : FnNo := 0; let q : QueueNo := 7; let v : BitVec 32 := 5; (bar2Open s fn.val = true) ∧ (qFunc (queueAt s q.val) = fn.val) ∧ ((queueAt s q.val).state = .enabled) ∧ (wbits v 15 0 < cqSize (queueAt s q.val)) ∧ (ringFwd (cqSize (queueAt s q.val)) (queueAt s q.val).cqHead (wbits v 15 0) ≤ ringFwd (cqSize (queueAt s q.val)) (queueAt s q.val).cqHead (queueAt s q.val).cqTail)) ∧
    (let s : State := setQueue ready 7 { ({ rec' := [(0, 0x08800000), (2, 0x00100000), (10, 3), (12, 0x00100000)], state := .enabled, sqTail := 3 } : Queue) with cqTail := 5 }; let fn : FnNo := 0; let q : QueueNo := 7; let v : BitVec 32 := 6; (bar2Open s fn.val = true) ∧ (qFunc (queueAt s q.val) = fn.val) ∧ ((queueAt s q.val).state = .enabled) ∧ (¬ (wbits v 15 0 < cqSize (queueAt s q.val) ∧ ringFwd (cqSize (queueAt s q.val)) (queueAt s q.val).cqHead (wbits v 15 0) ≤ ringFwd (cqSize (queueAt s q.val)) (queueAt s q.val).cqHead (queueAt s q.val).cqTail))) ∧
    (let s : State := ready; let fn : FnNo := 0; let q : QueueNo := 7; let v : BitVec 32 := 3; (bar2Open s fn.val = false ∨ (qFunc (queueAt s q.val) = fn.val ∧ (queueAt s q.val).state ≠ .enabled))) ∧
    (let s : State := setQueue ready 7 ({ rec' := [(0, 0x08800000), (2, 0x00100000), (10, 3), (12, 0x00100000)], state := .enabled, sqTail := 3 } : Queue); let fn : FnNo := 128; let q : QueueNo := 7; let v : BitVec 32 := 3; (bar2Open s fn.val = true) ∧ (qFunc (queueAt s q.val) ≠ fn.val) ∧ (pageOn s 0x0A = true) ∧ (rbit s (rk 0x0A Reg.ERR_SYND) 23 = false)) ∧
    (let s : State := ready; let fn : FnNo := 0; let q : QueueNo := 7; let v : BitVec 32 := 3; (bar2Open s fn.val = false ∨ (qFunc (queueAt s q.val) = fn.val ∧ (queueAt s q.val).state ≠ .enabled))) ∧
    (let s : State := setQueue ready 7 ({ rec' := [(0, 0x08800000), (2, 0x00100000), (10, 3), (12, 0x00100000)], state := .enabled, sqTail := 3 } : Queue); let fn : FnNo := 128; let q : QueueNo := 7; let v : BitVec 32 := 3; (bar2Open s fn.val = true) ∧ (qFunc (queueAt s q.val) ≠ fn.val) ∧ (pageOn s 0x0A = true) ∧ (rbit s (rk 0x0A Reg.ERR_SYND) 23 = false)) :=
  by and_intros <;> decide +kernel

/-- States and operands that meet the hypotheses of each clause of Admission: admitOne, arrive, arriveOnce, parked, arriveNot. -/
theorem meets_Admission :
    (let s : State := setQueue ready 7 ({ rec' := [(0, 0x08800000), (2, 0x00100000), (10, 3), (12, 0x00100000)], state := .enabled, sqTail := 3 } : Queue); let c : CtxNo := 4; let q : Nat := 7; (admitting s = true) ∧ (ctxAt s c.val = none) ∧ (admitQueue s = some q)) ∧
    (let s : State := setCtx (setQueue ready 7 ({ rec' := [(0, 0x08800000), (2, 0x00100000), (10, 3), (12, 0x00100000)], state := .enabled, sqTail := 3 } : Queue)) 4 { q := 7, seq := 1 }; let c : CtxNo := 4; let x : Ctx := { q := 7, seq := 1 }; let bytes : Bytes := toLe 64 0x10020; let ecc : Option (Fin 64) := none; (ctxAt s c.val = some x) ∧ (x.phase = .fetching) ∧ (linkUp s (fnPort (qFunc (queueAt s x.q))) = true) ∧ ((fetchingOf s x.q).any (fun e => decide (e.2.seq < x.seq)) = false) ∧ (x.stop = none) ∧ (nonIdem (decodeDesc bytes) = false)) ∧
    (let s : State := setCtx (setQueue ready 7 ({ rec' := [(0, 0x08800000), (2, 0x00100000), (10, 3), (12, 0x00100000)], state := .enabled, sqTail := 3 } : Queue)) 4 { q := 7, seq := 1 }; let c : CtxNo := 4; let x : Ctx := { q := 7, seq := 1 }; let bytes : Bytes := toLe 64 0x00030; (ctxAt s c.val = some x) ∧ (x.phase = .fetching) ∧ (linkUp s (fnPort (qFunc (queueAt s x.q))) = true) ∧ ((fetchingOf s x.q).any (fun e => decide (e.2.seq < x.seq)) = false) ∧ (x.stop = none) ∧ (nonIdem (decodeDesc bytes) = true) ∧ ((queueAt s x.q).win.any (fun e => e.bad || e.tag == (decodeDesc bytes).tag) = false) ∧ (parkTarget s c.val { x with d := decodeDesc bytes } = none)) ∧
    (let s : State := setCtx (setCtx (setQueue ready 7 ({ rec' := [(0, 0x08800000), (2, 0x00100000), (10, 3), (12, 0x00100000)], state := .enabled, sqTail := 3 } : Queue)) 4 { q := 7, seq := 1 }) 2 { q := 7, seq := 0, phase := .running, d := { opcode := 0x30 } }; let c : CtxNo := 4; let x : Ctx := { q := 7, seq := 1 }; let bytes : Bytes := toLe 64 0x00030; let b : Nat := 2; (ctxAt s c.val = some x) ∧ (x.phase = .fetching) ∧ (linkUp s (fnPort (qFunc (queueAt s x.q))) = true) ∧ ((fetchingOf s x.q).any (fun e => decide (e.2.seq < x.seq)) = false) ∧ (x.stop = none) ∧ (nonIdem (decodeDesc bytes) = true) ∧ ((queueAt s x.q).win.any (fun e => e.bad || e.tag == (decodeDesc bytes).tag) = false) ∧ (parkTarget s c.val { x with d := decodeDesc bytes } = some b)) ∧
    (let s : State := setCtx (setReg (setQueue ready 7 ({ rec' := [(0, 0x08800000), (2, 0x00100000), (10, 3), (12, 0x00100000)], state := .enabled, sqTail := 3 } : Queue)) 0x8040 0) 4 { q := 7, seq := 1 }; let c : CtxNo := 4; let x : Ctx := { q := 7, seq := 1 }; let bytes : Bytes := toLe 64 0x00030; let ecc : Option (Fin 64) := some 3; (ctxAt s c.val = some x) ∧ (x.phase ≠ .fetching ∨ linkUp s (fnPort (qFunc (queueAt s x.q))) = false ∨ (fetchingOf s x.q).any (fun e => decide (e.2.seq < x.seq)) = true)) :=
  by and_intros <;> decide +kernel

/-- States and operands that meet the hypotheses of each clause of Interrupts: coalOff, coal, msix, addrLo, addrHi, vectorControl, unmask, messageControl, deviceControl. -/
theorem meets_Interrupts :
    (let s : State := setQueue ready 7 { ({ rec' := [(0, 0x08800000), (2, 0x00100000), (10, 3), (12, 0x00100000)], state := .enabled, sqTail := 3 } : Queue) with coalTimer := true, coalCnt := 3 }; let q : QueueNo := 7; ((queueAt s q.val).coalTimer = false ∨ qCoalTime (queueAt s q.val) = 0)) ∧
    (let s : State := setQueue ready 7 { ({ rec' := [(0, 0x08800000), (2, 0x00100000), (10, 3), (12, 0x00100000)], state := .enabled, sqTail := 3 } : Queue) with rec' := [(3, 0x500)], coalTimer := true, coalCnt := 3 }; let q : QueueNo := 7; ((queueAt s q.val).coalTimer = true) ∧ (qCoalTime (queueAt s q.val) ≠ 0)) ∧
    (let s : State := ready; let fn : FnNo := 128; let e : Fin 2048 := 16; let v : BitVec 32 := 77; (bar2Open s fn.val = true)) ∧
    (let s : State := ready; let fn : FnNo := 128; let e : Fin 2048 := 16; let v : BitVec 32 := 77; (bar2Open s fn.val = true)) ∧
    (let s : State := ready; let fn : FnNo := 128; let e : Fin 2048 := 16; let v : BitVec 32 := 77; (bar2Open s fn.val = true)) ∧
    (let s : State := ready; let fn : FnNo := 128; let e : Fin 2048 := 16; let v : BitVec 32 := 77; (bar2Open s fn.val = true) ∧ ((msixAt s fn.val e.val).pend = false)) ∧
    (let s : State := setMsix { ready with quay := { msixEn := [128] } } 128 16 { mask := true, pend := true, data := 7 }; let fn : FnNo := 128; let e : Fin 2048 := 16; let v : BitVec 32 := 2; (bar2Open s fn.val = true) ∧ ((msixAt s fn.val e.val).pend = true) ∧ (wbit v 0 = false) ∧ (s.quay.msixEn.contains fn.val = true) ∧ (s.quay.msixMask.contains fn.val = false)) ∧
    (let s : State := ready; let fn : FnNo := 128; let v : BitVec 32 := 0x8000; (bar2Open s fn.val = true)) ∧
    (let s : State := ready; let fn : FnNo := 128; let v : BitVec 32 := 0x2010; (bar2Open s fn.val = true)) :=
  by and_intros <;> decide +kernel

/-- States and operands that meet the hypotheses of each clause of QueueCommands: read, write, enable, disable, abort, clear, qcmdReadBusy, qcmdWriteBusy, enableBusy, disableBusy, disableAbortBusy, clearReplayBusy. -/
theorem meets_QueueCommands :
    (let s : State := setReg (setQueue ready 7 ({ rec' := [(0, 0x08800000), (2, 0x00100000), (10, 3), (12, 0x00100000)], state := .enabled, sqTail := 3 } : Queue)) Reg.QUAY_QSEL 7; let src : Src := .core 3; (Reaches s src Reg.QUAY_QCMD) ∧ (qcmdWaits s = false)) ∧
    (let s : State := setReg (setQueue ready 7 { ({ rec' := [(0, 0x08800000), (2, 0x00100000), (10, 3), (12, 0x00100000)], state := .enabled, sqTail := 3 } : Queue) with state := .disabled }) Reg.QUAY_QSEL 7; let src : Src := .core 3; (Reaches s src Reg.QUAY_QCMD) ∧ (qcmdWaits s = false) ∧ ((queueAt s (fld s Reg.QUAY_QSEL 13 0)).state = .disabled) ∧ ((queueAt s (fld s Reg.QUAY_QSEL 13 0)).role = 0)) ∧
    (let s : State := setReg (setQueue ready 7 { ({ rec' := [(0, 0x08800000), (2, 0x00100000), (10, 3), (12, 0x00100000)], state := .enabled, sqTail := 3 } : Queue) with state := .disabled, sqHead := 2 }) Reg.QUAY_QSEL 7; let src : Src := .core 3; (Reaches s src Reg.QUAY_QCMD) ∧ (qcmdWaits s = false) ∧ ((queueAt s (fld s Reg.QUAY_QSEL 13 0)).state = .disabled) ∧ ((queueAt s (fld s Reg.QUAY_QSEL 13 0)).role ≠ 2) ∧ (checkRecord s (queueAt s (fld s Reg.QUAY_QSEL 13 0)) = 0)) ∧
    (let s : State := setReg (setQueue ready 7 ({ rec' := [(0, 0x08800000), (2, 0x00100000), (10, 3), (12, 0x00100000)], state := .enabled, sqTail := 3 } : Queue)) Reg.QUAY_QSEL 7; let src : Src := .core 3; (Reaches s src Reg.QUAY_QCMD) ∧ (qcmdWaits s = false) ∧ ((queueAt s (fld s Reg.QUAY_QSEL 13 0)).state = .enabled)) ∧
    (let s : State := setReg (setQueue ready 7 ({ rec' := [(0, 0x08800000), (2, 0x00100000), (10, 3), (12, 0x00100000)], state := .enabled, sqTail := 3 } : Queue)) Reg.QUAY_QSEL 7; let src : Src := .core 3; (Reaches s src Reg.QUAY_QCMD) ∧ (qcmdWaits s = false) ∧ ((queueAt s (fld s Reg.QUAY_QSEL 13 0)).state = .enabled)) ∧
    (let s : State := setReg (setQueue ready 7 { ({ rec' := [(0, 0x08800000), (2, 0x00100000), (10, 3), (12, 0x00100000)], state := .enabled, sqTail := 3 } : Queue) with state := .disabled, win := [⟨3, [], false⟩] }) Reg.QUAY_QSEL 7; let src : Src := .core 3; (Reaches s src Reg.QUAY_QCMD) ∧ (qcmdWaits s = false) ∧ ((queueAt s (fld s Reg.QUAY_QSEL 13 0)).state = .disabled)) ∧
    (let s : State := ready; let src : Src := .core 3; let early : Bool := true; (Reaches s src Reg.QUAY_QCMD) ∧ (early = true ∨ qcmdWaits s = true) ∧ (pageOn s 0x0A = true) ∧ (rbit s (rk 0x0A Reg.ERR_SYND) 23 = false)) ∧
    (let s : State := ready; let src : Src := .core 3; let early : Bool := true; (Reaches s src Reg.QUAY_QCMD) ∧ (early = true ∨ qcmdWaits s = true) ∧ (pageOn s 0x0A = true) ∧ (rbit s (rk 0x0A Reg.ERR_SYND) 23 = false)) ∧
    (let s : State := ready; let src : Src := .core 3; let early : Bool := true; (Reaches s src Reg.QUAY_QCMD) ∧ (early = true ∨ qcmdWaits s = true) ∧ (pageOn s 0x0A = true) ∧ (rbit s (rk 0x0A Reg.ERR_SYND) 23 = false)) ∧
    (let s : State := ready; let src : Src := .core 3; let early : Bool := true; (Reaches s src Reg.QUAY_QCMD) ∧ (early = true ∨ qcmdWaits s = true) ∧ (pageOn s 0x0A = true) ∧ (rbit s (rk 0x0A Reg.ERR_SYND) 23 = false)) ∧
    (let s : State := ready; let src : Src := .core 3; let early : Bool := true; (Reaches s src Reg.QUAY_QCMD) ∧ (early = true ∨ qcmdWaits s = true) ∧ (pageOn s 0x0A = true) ∧ (rbit s (rk 0x0A Reg.ERR_SYND) 23 = false)) ∧
    (let s : State := ready; let src : Src := .core 3; let early : Bool := true; (Reaches s src Reg.QUAY_QCMD) ∧ (early = true ∨ qcmdWaits s = true) ∧ (pageOn s 0x0A = true) ∧ (rbit s (rk 0x0A Reg.ERR_SYND) 23 = false)) :=
  by and_intros <;> decide +kernel

/-- States and operands that meet the hypotheses of each clause of WindowsAndDomains: sync, syncWaits, syncDone, resv, resvTooMany, cap. -/
theorem meets_WindowsAndDomains :
    (let s : State := ready; let src : Src := .port 1; (Reaches s src Reg.QUAY_WIN_SYNC)) ∧
    (let s : State := { ready with quay := { winWait := { cmds := [], dmas := [2] } } }; (s.quay.winWait.cmds.all (accessDone s) = false ∨ s.quay.winWait.dmas ≠ [])) ∧
    (let s : State := ready; (s.quay.winWait.cmds.all (accessDone s) = true) ∧ (s.quay.winWait.dmas = [])) ∧
    (let s : State := setReg ready Reg.QUAY_DOM_SEL 3; let src : Src := .port 0; let v : BitVec 32 := 100; (Reaches s src Reg.QUAY_DOM_RESV) ∧ (resvTotal s - (domAt s (fld s Reg.QUAY_DOM_SEL 11 0)).resv + wbits v 16 0 ≤ 65536)) ∧
    (let s : State := setDom ready 5 { resv := 65536 }; let src : Src := .port 0; let v : BitVec 32 := 100; (Reaches s src Reg.QUAY_DOM_RESV) ∧ (65536 < resvTotal s - (domAt s (fld s Reg.QUAY_DOM_SEL 11 0)).resv + wbits v 16 0) ∧ (pageOn s 0x0A = true) ∧ (rbit s (rk 0x0A Reg.ERR_SYND) 23 = false)) ∧
    (let s : State := setReg ready Reg.QUAY_DOM_SEL 3; let src : Src := .port 0; let v : BitVec 32 := 100; (Reaches s src Reg.QUAY_DOM_CAP)) :=
  by and_intros <;> decide +kernel

/-- States and operands that meet the hypotheses of each clause of FunctionResets: flr, flrDone, vfDisable, vfEnable, flrRetry, flrClosed, vfDisableRetry, vfDisableClosed, vfEnableRetry, vfEnableClosed. -/
theorem meets_FunctionResets :
    (let s : State := setQueue ready 7 ({ rec' := [(0, 0x08800000), (2, 0x00100000), (10, 3), (12, 0x00100000)], state := .enabled, sqTail := 3 } : Queue); let fn : FnNo := 0; (bootReady s = true) ∧ (linkUp s (fnPort fn.val) = true) ∧ (fnExists s fn.val = true) ∧ (fn.val % 128 ≠ 0 ∨ numVfs s (fnPort fn.val) = 0)) ∧
    (let s : State := { ready with quay := { flr := [5, 0] } }; let fn : FnNo := 5; (s.quay.flr.contains fn.val = true) ∧ ((s.quay.ctxs.any fun e => qFunc (queueAt s e.2.q) == fn.val && e.2.silent) = false)) ∧
    (let s : State := { ready with quay := { vf1 := 9 } }; let p : PortNo := 1; let n : BitVec 7 := 2; (bootReady s = true) ∧ (linkUp s p.val = true) ∧ (n.toNat < numVfs s p.val)) ∧
    (let s : State := ready; let p : PortNo := 1; let n : BitVec 7 := 127; (bootReady s = true) ∧ (linkUp s p.val = true) ∧ (numVfs s p.val < n.toNat)) ∧
    (let s : State := setReg ready Reg.BOOT_STAT 3; let fn : FnNo := 0; (linkUp s (fnPort fn.val) = true) ∧ (bootReady s = false)) ∧
    (let s : State := State.reset; let fn : FnNo := 0; (linkUp s (fnPort fn.val) = false)) ∧
    (let s : State := setReg ready Reg.BOOT_STAT 3; let p : PortNo := 1; let n : BitVec 7 := 2; (linkUp s (fnPort (128 * p.val)) = true) ∧ (bootReady s = false)) ∧
    (let s : State := State.reset; let p : PortNo := 1; let n : BitVec 7 := 2; (linkUp s (fnPort (128 * p.val)) = false)) ∧
    (let s : State := setReg ready Reg.BOOT_STAT 3; let p : PortNo := 1; let n : BitVec 7 := 2; (linkUp s (fnPort (128 * p.val)) = true) ∧ (bootReady s = false)) ∧
    (let s : State := State.reset; let p : PortNo := 1; let n : BitVec 7 := 2; (linkUp s (fnPort (128 * p.val)) = false)) :=
  by and_intros <;> decide +kernel

/-- States and operands that meet the hypotheses of each clause of LinkEvents: up, down, retrain, width, aerUncorr, poison, poisonCtx. -/
theorem meets_LinkEvents :
    (let s : State := setReg ready 0x9040 0; let p : PortNo := 1; let tr : LinkTrain := ⟨6, 4, false⟩; (linkUp s p.val = false) ∧ (domOn s (14 + p.val) = true)) ∧
    (let s : State := ready; let p : PortNo := 1; (linkUp s p.val = true)) ∧
    (let s : State := ready; let src : Src := .core 0; let p : PortNo := 0; let v : BitVec 32 := 0x243; let tr : LinkTrain := ⟨6, 4, true⟩; (Reaches s src (rk (8 + p.val) Reg.QUAY_LINK_CTRL)) ∧ (wbit v 9 = true) ∧ (linkUp s p.val = true)) ∧
    (let s : State := ready; let p : PortNo := 1; let tr : LinkTrain := ⟨4, 3, true⟩; (linkUp s p.val = true)) ∧
    (let s : State := ready; let p : PortNo := 1; (pageOn s (8 + p.val) = true)) ∧
    (let s : State := ready; let p : PortNo := 1; let fn : FnNo := 128; let addr : BitVec 64 := 64; let u : Bool := true; (pageOn s (8 + p.val) = true)) ∧
    (let s : State := setCtx (setQueue ready 7 ({ rec' := [(0, 0x08800000), (2, 0x00100000), (10, 3), (12, 0x00100000)], state := .enabled, sqTail := 3 } : Queue)) 4 { q := 7, phase := .running, eng := some (.cipher 3), d := { opcode := 0x10, len := 64 }, srcs := [⟨0x1000, 64⟩] }; let p : PortNo := 0; let fn : FnNo := 0; let addr : BitVec 64 := 64; let c : CtxNo := 4; let x : Ctx := { q := 7, phase := .running, eng := some (.cipher 3), d := { opcode := 0x10, len := 64 }, srcs := [⟨0x1000, 64⟩] }; let u : CipherUnit := 3; (ctxAt s c.val = some x) ∧ (x.eng = some (.cipher u)) ∧ (x.srcEnd = none)) :=
  by and_intros <;> decide +kernel

/-- States and operands that meet the hypotheses of each clause of SourceData: arrive, rejected, rejectedHash, notTaken. -/
theorem meets_SourceData :
    (let s : State := setCtx (setQueue ready 7 ({ rec' := [(0, 0x08800000), (2, 0x00100000), (10, 3), (12, 0x00100000)], state := .enabled, sqTail := 3 } : Queue)) 4 { q := 7, phase := .running, eng := some (.cipher 3), d := { opcode := 0x10, len := 64 }, srcs := [⟨0x1000, 64⟩] }; let c : CtxNo := 4; let x : Ctx := { q := 7, phase := .running, eng := some (.cipher 3), d := { opcode := 0x10, len := 64 }, srcs := [⟨0x1000, 64⟩] }; let bytes : Bytes := toLe 16 5; (ctxAt s c.val = some x) ∧ (x.phase = .placed ∨ x.phase = .running) ∧ (x.srcEnd = none) ∧ (linkUp s (fnPort (qFunc (queueAt s x.q))) = true) ∧ (x.srcRej = false ∨ x.srcIn.length + bytes.length < srcGood x)) ∧
    (let s : State := setCtx (setQueue ready 7 ({ rec' := [(0, 0x08800000), (2, 0x00100000), (10, 3), (12, 0x00100000)], state := .enabled, sqTail := 3 } : Queue)) 4 { q := 7, phase := .running, eng := some (.cipher 3), d := { opcode := 0x10, len := 64 }, srcs := [⟨0x1000, 64⟩], srcRej := true }; let c : CtxNo := 4; let x : Ctx := { q := 7, phase := .running, eng := some (.cipher 3), d := { opcode := 0x10, len := 64 }, srcs := [⟨0x1000, 64⟩], srcRej := true }; let u : CipherUnit := 3; let bytes : Bytes := []; (ctxAt s c.val = some x) ∧ (x.phase = .placed ∨ x.phase = .running) ∧ (x.srcEnd = none) ∧ (linkUp s (fnPort (qFunc (queueAt s x.q))) = true) ∧ (x.eng = some (.cipher u)) ∧ (x.srcRej = true) ∧ (srcGood x ≤ x.srcIn.length + bytes.length)) ∧
    (let s : State := setCtx (setQueue ready 7 ({ rec' := [(0, 0x08800000), (2, 0x00100000), (10, 3), (12, 0x00100000)], state := .enabled, sqTail := 3 } : Queue)) 4 { q := 7, phase := .running, eng := some (.hash 3), d := { opcode := 0x10, len := 64 }, srcs := [⟨0x1000, 64⟩], srcRej := true }; let c : CtxNo := 4; let x : Ctx := { q := 7, phase := .running, eng := some (.hash 3), d := { opcode := 0x10, len := 64 }, srcs := [⟨0x1000, 64⟩], srcRej := true }; let u : HashNo := 3; let bytes : Bytes := []; (ctxAt s c.val = some x) ∧ (x.phase = .placed ∨ x.phase = .running) ∧ (x.srcEnd = none) ∧ (linkUp s (fnPort (qFunc (queueAt s x.q))) = true) ∧ (x.eng = some (.hash u)) ∧ (x.srcRej = true) ∧ (srcGood x ≤ x.srcIn.length + bytes.length)) ∧
    (let s : State := setCtx (setReg (setQueue ready 7 ({ rec' := [(0, 0x08800000), (2, 0x00100000), (10, 3), (12, 0x00100000)], state := .enabled, sqTail := 3 } : Queue)) 0x8040 0) 4 { q := 7, phase := .running, eng := some (.cipher 3), d := { opcode := 0x10, len := 64 }, srcs := [⟨0x1000, 64⟩] }; let c : CtxNo := 4; let x : Ctx := { q := 7, phase := .running, eng := some (.cipher 3), d := { opcode := 0x10, len := 64 }, srcs := [⟨0x1000, 64⟩] }; let bytes : Bytes := []; let hit : Option Hit := none; (ctxAt s c.val = some x) ∧ ((x.phase ≠ .placed ∧ x.phase ≠ .running) ∨ x.srcEnd ≠ none ∨ linkUp s (fnPort (qFunc (queueAt s x.q))) = false)) :=
  by and_intros <;> decide +kernel

/-- States and operands that meet the hypotheses of each clause of Acceptance_1: accept, acceptLate, acceptEpoch, hold, acceptFails, acceptNot, convoy, convoyNone, dispatchLane, dispatchInv, dispatchInvEnd, dispatchBlvd, dispatchHash, dispatchArcade. -/
theorem meets_Acceptance_1 :
    (let s : State := setCtx (q7) 4 { q := 7, seq := 1, phase := .fetched, d := { opcode := 0, tag := 1 } }; let c : CtxNo := 4; let x : Ctx := { q := 7, seq := 1, phase := .fetched, d := { opcode := 0, tag := 1 } }; let y : Ctx := { q := 7, seq := 1, phase := .fetched, d := { opcode := 0, tag := 1 }, srcs := [⟨0, 0⟩] }; let inp : AcceptIn := ⟨[], [], [], none, none, none, none⟩; (ctxAt s c.val = some x) ∧ (x.phase = .fetched) ∧ (isNextToAccept s c.val x = true) ∧ (inp.descHit = none) ∧ (firstFail [check1 s.life.state x.d, check2 x.d, checkMacLen s x.d, check3 (queueAt s x.q) x.d] = none) ∧ (withInputs s c.val x inp = some y) ∧ (holdsAfter3 s y = false) ∧ (firstFail [checkParam s { y with keys := capture s (operands s y) }, check4 s { y with keys := capture s (operands s y) }, checkAfter s { y with keys := capture s (operands s y) }] = none) ∧ (x.d.timed = false) ∧ (epochFail s { y with keys := capture s (operands s y) } s.tick = none)) ∧
    (let s : State := { (setCtx (q7) 4 { q := 7, seq := 1, phase := .fetched, d := { opcode := 0, tag := 1, timed := true, launch := 9 } }) with tick := 9 }; let c : CtxNo := 4; let x : Ctx := { q := 7, seq := 1, phase := .fetched, d := { opcode := 0, tag := 1, timed := true, launch := 9 } }; let y : Ctx := { q := 7, seq := 1, phase := .fetched, d := { opcode := 0, tag := 1, timed := true, launch := 9 }, srcs := [⟨0, 0⟩] }; let inp : AcceptIn := ⟨[], [], [], none, none, none, none⟩; (ctxAt s c.val = some x) ∧ (x.phase = .fetched) ∧ (isNextToAccept s c.val x = true) ∧ (inp.descHit = none) ∧ (firstFail [check1 s.life.state x.d, check2 x.d, checkMacLen s x.d, check3 (queueAt s x.q) x.d] = none) ∧ (withInputs s c.val x inp = some y) ∧ (holdsAfter3 s y = false) ∧ (firstFail [checkParam s { y with keys := capture s (operands s y) }, check4 s { y with keys := capture s (operands s y) }, checkAfter s { y with keys := capture s (operands s y) }] = none) ∧ (x.d.timed = true) ∧ (x.d.launch ≤ s.tick) ∧ (epochFail s { y with keys := capture s (operands s y) } s.tick = none)) ∧
    (let s : State := setSlot (setCtx (q7) 4 { q := 7, seq := 1, dom := 8, phase := .fetched, d := { opcode := 0x35, tag := 1, handle := 0x20009 } }) 9 { gen := 1, usage := 1, alg := 1, asg := true, dom := 8, epEn := true, epFirst := 5, epLast := 6 }; let c : CtxNo := 4; let x : Ctx := { q := 7, seq := 1, dom := 8, phase := .fetched, d := { opcode := 0x35, tag := 1, handle := 0x20009 } }; let y : Ctx := { q := 7, seq := 1, dom := 8, phase := .fetched, d := { opcode := 0x35, tag := 1, handle := 0x20009 }, srcs := [⟨0, 0⟩] }; let inp : AcceptIn := ⟨[], [], [], none, none, none, none⟩; let i : Nat := 0; (ctxAt s c.val = some x) ∧ (x.phase = .fetched) ∧ (isNextToAccept s c.val x = true) ∧ (inp.descHit = none) ∧ (firstFail [check1 s.life.state x.d, check2 x.d, checkMacLen s x.d, check3 (queueAt s x.q) x.d] = none) ∧ (withInputs s c.val x inp = some y) ∧ (holdsAfter3 s y = false) ∧ (firstFail [checkParam s { y with keys := capture s (operands s y) }, check4 s { y with keys := capture s (operands s y) }, checkAfter s { y with keys := capture s (operands s y) }] = none) ∧ (x.d.timed = false) ∧ (epochFail s { y with keys := capture s (operands s y) } s.tick = some i) ∧ (Deliverable s x)) ∧
    (let s : State := setCtx (q7) 4 { q := 7, seq := 1, phase := .fetched, d := { opcode := 0, tag := 1, timed := true, launch := 99 } }; let c : CtxNo := 4; let x : Ctx := { q := 7, seq := 1, phase := .fetched, d := { opcode := 0, tag := 1, timed := true, launch := 99 } }; let y : Ctx := { q := 7, seq := 1, phase := .fetched, d := { opcode := 0, tag := 1, timed := true, launch := 99 }, srcs := [⟨0, 0⟩] }; let inp : AcceptIn := ⟨[], [], [], none, none, none, none⟩; (ctxAt s c.val = some x) ∧ (x.phase = .fetched) ∧ (isNextToAccept s c.val x = true) ∧ (inp.descHit = none) ∧ (firstFail [check1 s.life.state x.d, check2 x.d, checkMacLen s x.d, check3 (queueAt s x.q) x.d] = none) ∧ (withInputs s c.val x inp = some y) ∧ (holdsAfter3 s y = false) ∧ (firstFail [checkParam s { y with keys := capture s (operands s y) }, check4 s { y with keys := capture s (operands s y) }, checkAfter s { y with keys := capture s (operands s y) }] = none) ∧ (x.d.timed = true) ∧ (s.tick < x.d.launch)) ∧
    (let s : State := setCtx (q7) 4 { q := 7, seq := 1, phase := .fetched, d := { opcode := 0x7F, tag := 1 } }; let c : CtxNo := 4; let x : Ctx := { q := 7, seq := 1, phase := .fetched, d := { opcode := 0x7F, tag := 1 } }; let inp : AcceptIn := ⟨[], [], [], none, none, none, none⟩; let f : Nat × Nat := (0x0B, 1); (ctxAt s c.val = some x) ∧ (x.phase = .fetched) ∧ (isNextToAccept s c.val x = true) ∧ (inp.descHit = none) ∧ (firstFail [check1 s.life.state x.d, check2 x.d, checkMacLen s x.d, check3 (queueAt s x.q) x.d] = some f) ∧ (Deliverable s x)) ∧
    (let s : State := q7; let c : CtxNo := 4; let inp : AcceptIn := ⟨[], [], [], none, none, none, none⟩; ((ctxAt s c.val).any (fun x => decide (x.phase = .fetched) && isNextToAccept s c.val x) = false)) ∧
    (let s : State := setCtx (q7) 4 { q := 7, seq := 1, phase := .held, launch := 99 }; let e : Nat × Ctx := (4, { q := 7, seq := 1, phase := .held, launch := 99 }); let l : List (Nat × Ctx) := []; (ticking s = true) ∧ ((heldWhere s fun c x => decide (s.tick < x.launch) && fenceOk s c x) = e :: l)) ∧
    (let s : State := q7; (ticking s = false ∨ (heldWhere s fun c x => decide (s.tick < x.launch) && fenceOk s c x) = [])) ∧
    (let s : State := { (setCtx (q7) 4 { q := 7, seq := 1, phase := .ready, d := { opcode := 0x11, mode := 1, len := 16 } }) with units := { cipher := [(3, { kat := false }), (65, { kat := false })], hash := [(2, { kat := false })], arc := [(1, { kat := false })] } }; let c : CtxNo := 4; let x : Ctx := { q := 7, seq := 1, phase := .ready, d := { opcode := 0x11, mode := 1, len := 16 } }; let u : LaneNo := 3; (chooseNext s .lane u.val = some (c.val, x)) ∧ (anyAvail s x.d = true) ∧ (takesInv x.d = false)) ∧
    (let s : State := { (setCtx (q7) 4 { q := 7, seq := 1, phase := .ready, d := { opcode := 0x10, mode := 3, len := 16 }, keys := [{ handle := 0x100009, slot := 9, gen := 1 }] }) with units := { cipher := [(3, { kat := false }), (65, { kat := false })], hash := [(2, { kat := false })], arc := [(1, { kat := false })] } }; let c : CtxNo := 4; let x : Ctx := { q := 7, seq := 1, phase := .ready, d := { opcode := 0x10, mode := 3, len := 16 }, keys := [{ handle := 0x100009, slot := 9, gen := 1 }] }; let u : LaneNo := 3; let value : Nat := 0; let blk : Nat := 0; let v : Ctr := { blk := 0, off := 1, conf := none, pend := some 0 }; (chooseNext s .lane u.val = some (c.val, x)) ∧ (anyAvail s x.d = true) ∧ (takesInv x.d = true) ∧ (takeInv (ctrAt s (keySlotNo x)) = some (value, blk, v))) ∧
    (let s : State := setCtr ({ (setCtx (q7) 4 { q := 7, seq := 1, phase := .ready, d := { opcode := 0x10, mode := 3, len := 16 }, keys := [{ handle := 0x100009, slot := 9, gen := 1 }] }) with units := { cipher := [(3, { kat := false }), (65, { kat := false })], hash := [(2, { kat := false })], arc := [(1, { kat := false })] } }) 9 { blk := 2 ^ 44, off := 0, conf := none, pend := none }; let c : CtxNo := 4; let x : Ctx := { q := 7, seq := 1, phase := .ready, d := { opcode := 0x10, mode := 3, len := 16 }, keys := [{ handle := 0x100009, slot := 9, gen := 1 }] }; let u : LaneNo := 3; (chooseNext s .lane u.val = some (c.val, x)) ∧ (ctxAt s c.val = some x) ∧ (anyAvail s x.d = true) ∧ (takesInv x.d = true) ∧ (takeInv (ctrAt s (keySlotNo x)) = none) ∧ (Deliverable s x)) ∧
    (let s : State := { (setCtx (q7) 4 { q := 7, seq := 1, phase := .ready, d := { opcode := 0x11, mode := 1, len := 16, blvd := true } }) with units := { cipher := [(3, { kat := false }), (65, { kat := false })], hash := [(2, { kat := false })], arc := [(1, { kat := false })] } }; let c : CtxNo := 4; let x : Ctx := { q := 7, seq := 1, phase := .ready, d := { opcode := 0x11, mode := 1, len := 16, blvd := true } }; let u : PipeNo := 1; (chooseNext s .blvd u.val = some (c.val, x)) ∧ (anyAvail s x.d = true) ∧ (takesInv x.d = false)) ∧
    (let s : State := { (setCtx (q7) 4 { q := 7, seq := 1, phase := .ready, d := { opcode := 0x20, mode := 1, len := 16 } }) with units := { cipher := [(3, { kat := false }), (65, { kat := false })], hash := [(2, { kat := false })], arc := [(1, { kat := false })] } }; let c : CtxNo := 4; let x : Ctx := { q := 7, seq := 1, phase := .ready, d := { opcode := 0x20, mode := 1, len := 16 } }; let u : HashNo := 2; (chooseNext s .hash u.val = some (c.val, x)) ∧ (anyAvail s x.d = true)) ∧
    (let s : State := { (setCtx (q7) 4 { q := 7, seq := 1, phase := .ready, d := { opcode := 0x51, mode := 1, len := 16 } }) with units := { cipher := [(3, { kat := false }), (65, { kat := false })], hash := [(2, { kat := false })], arc := [(1, { kat := false })] } }; let c : CtxNo := 4; let x : Ctx := { q := 7, seq := 1, phase := .ready, d := { opcode := 0x51, mode := 1, len := 16 } }; let u : ArcNo := 1; (chooseNext s .arcade u.val = some (c.val, x)) ∧ (anyAvail s x.d = true)) :=
  by and_intros <;> decide +kernel

/-- States and operands that meet the hypotheses of each clause of Acceptance_2: dispatchMews, dispatchFountain, dispatchComposite, dispatchNoUnit, dispatchNone, nop, nopNot. -/
theorem meets_Acceptance_2 :
    (let s : State := setCtx (q7) 4 { q := 7, seq := 1, phase := .ready, d := { opcode := 0x35 } }; let c : CtxNo := 4; let x : Ctx := { q := 7, seq := 1, phase := .ready, d := { opcode := 0x35 } }; let u : Nat := 0; (chooseNext s .mews u = some (c.val, x)) ∧ (anyAvail s x.d = true) ∧ (x.eng = none) ∧ (x.resv = []) ∧ ((checkSegs (queueAt s x.q) false x.srcs (srcNeed x) (x.srcs.length + 1) 0).2 = false)) ∧
    (let s : State := setCtx (q7) 4 { q := 7, seq := 1, phase := .ready, d := { opcode := 0x40, len := 100 } }; let c : CtxNo := 4; let x : Ctx := { q := 7, seq := 1, phase := .ready, d := { opcode := 0x40, len := 100 } }; let u : Nat := 0; (chooseNext s .fountain u = some (c.val, x)) ∧ (anyAvail s x.d = true) ∧ (x.eng = none) ∧ (x.resv = []) ∧ ((checkSegs (queueAt s x.q) false x.srcs (srcNeed x) (x.srcs.length + 1) 0).2 = false)) ∧
    (let s : State := { (setCtx (q7) 4 { q := 7, seq := 1, phase := .ready, d := { opcode := 0x66, mode := 1, len := 16 } }) with units := { cipher := [(3, { kat := false }), (65, { kat := false })], hash := [(2, { kat := false })], arc := [(1, { kat := false })] } }; let c : CtxNo := 4; let x : Ctx := { q := 7, seq := 1, phase := .ready, d := { opcode := 0x66, mode := 1, len := 16 } }; let u : LaneNo := 3; (chooseNext s .composite u.val = some (c.val, x)) ∧ (anyAvail s x.d = true) ∧ (x.eng = none) ∧ (x.d.opcode ≠ 0x63)) ∧
    (let s : State := setReg (setCtx (q7) 4 { q := 7, seq := 1, phase := .ready, d := { opcode := 0x11, mode := 1, len := 16 } }) Reg.RBT_ENG_EXCL 0xFF; let c : CtxNo := 4; let x : Ctx := { q := 7, seq := 1, phase := .ready, d := { opcode := 0x11, mode := 1, len := 16 } }; let cls : EngClass := .lane; let u : Nat := 3; let ecc : EccSeen := .corrected; let hit : Option Hit := none; (chooseNext s cls u = some (c.val, x)) ∧ (ctxAt s c.val = some x) ∧ (anyAvail s x.d = false) ∧ (Deliverable s x)) ∧
    (let s : State := q7; let cls : EngClass := .lane; let u : Nat := 3; let ecc : EccSeen := .corrected; let hit : Option Hit := none; (chooseNext s cls u = none)) ∧
    (let s : State := setCtx (q7) 4 { q := 7, seq := 1, phase := .ready, d := { opcode := 0, tag := 9 } }; let c : CtxNo := 4; let x : Ctx := { q := 7, seq := 1, phase := .ready, d := { opcode := 0, tag := 9 } }; (ctxAt s c.val = some x) ∧ (x.d.opcode = 0x00) ∧ (x.phase = .ready) ∧ (fenceOk s c.val x = true) ∧ (Deliverable s x)) ∧
    (let s : State := q7; let c : CtxNo := 4; ((ctxAt s c.val).any (fun x => x.d.opcode == 0x00 && decide (x.phase = .ready) && fenceOk s c.val x) = false)) :=
  by and_intros <;> decide +kernel

/-- States and operands that meet the hypotheses of each clause of CipherAndHashOpcodes_1: encrypt, encryptNot, decrypt, decryptNot, macGenerate, macGenerateNot, macVerify, macVerifyNot, wrap, wrapNot, unwrap, unwrapNot, hash, hashNot. -/
theorem meets_CipherAndHashOpcodes_1 :
    (let s : State := setCtx (q7) 4 { q := 7, seq := 1, phase := .placed, d := { opcode := 0x10, mode := 1 } }; let c : CtxNo := 4; let x : Ctx := { q := 7, seq := 1, phase := .placed, d := { opcode := 0x10, mode := 1 } }; (ctxAt s c.val = some x) ∧ (x.phase = .placed) ∧ (x.waitRsv = false) ∧ (x.d.opcode = 0x10)) ∧
    (let s : State := setCtx (q7) 4 { q := 7, seq := 1, phase := .running, d := { opcode := 0x10, mode := 1 } }; let c : CtxNo := 4; ((ctxAt s c.val).any (fun x => decide (x.phase = .placed) && !x.waitRsv && x.d.opcode == 0x10) = false)) ∧
    (let s : State := setCtx (q7) 4 { q := 7, seq := 1, phase := .placed, d := { opcode := 0x11, mode := 1 } }; let c : CtxNo := 4; let x : Ctx := { q := 7, seq := 1, phase := .placed, d := { opcode := 0x11, mode := 1 } }; (ctxAt s c.val = some x) ∧ (x.phase = .placed) ∧ (x.waitRsv = false) ∧ (x.d.opcode = 0x11)) ∧
    (let s : State := setCtx (q7) 4 { q := 7, seq := 1, phase := .running, d := { opcode := 0x11, mode := 1 } }; let c : CtxNo := 4; ((ctxAt s c.val).any (fun x => decide (x.phase = .placed) && !x.waitRsv && x.d.opcode == 0x11) = false)) ∧
    (let s : State := setCtx (q7) 4 { q := 7, seq := 1, phase := .placed, d := { opcode := 0x12, mode := 1 } }; let c : CtxNo := 4; let x : Ctx := { q := 7, seq := 1, phase := .placed, d := { opcode := 0x12, mode := 1 } }; (ctxAt s c.val = some x) ∧ (x.phase = .placed) ∧ (x.waitRsv = false) ∧ (x.d.opcode = 0x12)) ∧
    (let s : State := setCtx (q7) 4 { q := 7, seq := 1, phase := .running, d := { opcode := 0x12, mode := 1 } }; let c : CtxNo := 4; ((ctxAt s c.val).any (fun x => decide (x.phase = .placed) && !x.waitRsv && x.d.opcode == 0x12) = false)) ∧
    (let s : State := setCtx (q7) 4 { q := 7, seq := 1, phase := .placed, d := { opcode := 0x13, mode := 1 } }; let c : CtxNo := 4; let x : Ctx := { q := 7, seq := 1, phase := .placed, d := { opcode := 0x13, mode := 1 } }; (ctxAt s c.val = some x) ∧ (x.phase = .placed) ∧ (x.waitRsv = false) ∧ (x.d.opcode = 0x13)) ∧
    (let s : State := setCtx (q7) 4 { q := 7, seq := 1, phase := .running, d := { opcode := 0x13, mode := 1 } }; let c : CtxNo := 4; ((ctxAt s c.val).any (fun x => decide (x.phase = .placed) && !x.waitRsv && x.d.opcode == 0x13) = false)) ∧
    (let s : State := setCtx (q7) 4 { q := 7, seq := 1, phase := .placed, d := { opcode := 0x14, mode := 1 } }; let c : CtxNo := 4; let x : Ctx := { q := 7, seq := 1, phase := .placed, d := { opcode := 0x14, mode := 1 } }; (ctxAt s c.val = some x) ∧ (x.phase = .placed) ∧ (x.waitRsv = false) ∧ (x.d.opcode = 0x14)) ∧
    (let s : State := setCtx (q7) 4 { q := 7, seq := 1, phase := .running, d := { opcode := 0x14, mode := 1 } }; let c : CtxNo := 4; ((ctxAt s c.val).any (fun x => decide (x.phase = .placed) && !x.waitRsv && x.d.opcode == 0x14) = false)) ∧
    (let s : State := setCtx (q7) 4 { q := 7, seq := 1, phase := .placed, d := { opcode := 0x15, mode := 1 } }; let c : CtxNo := 4; let x : Ctx := { q := 7, seq := 1, phase := .placed, d := { opcode := 0x15, mode := 1 } }; (ctxAt s c.val = some x) ∧ (x.phase = .placed) ∧ (x.waitRsv = false) ∧ (x.d.opcode = 0x15)) ∧
    (let s : State := setCtx (q7) 4 { q := 7, seq := 1, phase := .running, d := { opcode := 0x15, mode := 1 } }; let c : CtxNo := 4; ((ctxAt s c.val).any (fun x => decide (x.phase = .placed) && !x.waitRsv && x.d.opcode == 0x15) = false)) ∧
    (let s : State := setCtx (q7) 4 { q := 7, seq := 1, phase := .placed, d := { opcode := 0x20, mode := 1 } }; let c : CtxNo := 4; let x : Ctx := { q := 7, seq := 1, phase := .placed, d := { opcode := 0x20, mode := 1 } }; (ctxAt s c.val = some x) ∧ (x.phase = .placed) ∧ (x.waitRsv = false) ∧ (x.d.opcode = 0x20)) ∧
    (let s : State := setCtx (q7) 4 { q := 7, seq := 1, phase := .running, d := { opcode := 0x20, mode := 1 } }; let c : CtxNo := 4; ((ctxAt s c.val).any (fun x => decide (x.phase = .placed) && !x.waitRsv && x.d.opcode == 0x20) = false)) :=
  by and_intros <;> decide +kernel

/-- States and operands that meet the hypotheses of each clause of CipherAndHashOpcodes_2: hmacGenerate, hmacGenerateNot, hmacVerify, hmacVerifyNot. -/
theorem meets_CipherAndHashOpcodes_2 :
    (let s : State := setCtx (q7) 4 { q := 7, seq := 1, phase := .placed, d := { opcode := 0x21, mode := 1 } }; let c : CtxNo := 4; let x : Ctx := { q := 7, seq := 1, phase := .placed, d := { opcode := 0x21, mode := 1 } }; (ctxAt s c.val = some x) ∧ (x.phase = .placed) ∧ (x.waitRsv = false) ∧ (x.d.opcode = 0x21)) ∧
    (let s : State := setCtx (q7) 4 { q := 7, seq := 1, phase := .running, d := { opcode := 0x21, mode := 1 } }; let c : CtxNo := 4; ((ctxAt s c.val).any (fun x => decide (x.phase = .placed) && !x.waitRsv && x.d.opcode == 0x21) = false)) ∧
    (let s : State := setCtx (q7) 4 { q := 7, seq := 1, phase := .placed, d := { opcode := 0x22, mode := 1 } }; let c : CtxNo := 4; let x : Ctx := { q := 7, seq := 1, phase := .placed, d := { opcode := 0x22, mode := 1 } }; (ctxAt s c.val = some x) ∧ (x.phase = .placed) ∧ (x.waitRsv = false) ∧ (x.d.opcode = 0x22)) ∧
    (let s : State := setCtx (q7) 4 { q := 7, seq := 1, phase := .running, d := { opcode := 0x22, mode := 1 } }; let c : CtxNo := 4; ((ctxAt s c.val).any (fun x => decide (x.phase = .placed) && !x.waitRsv && x.d.opcode == 0x22) = false)) :=
  by and_intros <;> decide +kernel

/-- States and operands that meet the hypotheses of each clause of UnitsAtWork: beat, disagree, verify, digest, code, digestWaits, stopHash, stopArcade, stopLane, stopPoint, noStopHash, noStopLane, noStopArcade. -/
theorem meets_UnitsAtWork :
    (let s : State := { (setCtx (q7) 4 { q := 7, seq := 1, phase := .running, eng := some (.cipher 3), d := { opcode := 0x14, mode := 0x15, len := 100 }, srcIn := toLe 100 7 }) with units := { cipher := [(3, { kat := false, ctx := some 4 })], hash := [(2, { kat := false, ctx := some 4 })], arc := [(1, { kat := false, ctx := some 4 })] } }; let c : CtxNo := 4; let x : Ctx := { q := 7, seq := 1, phase := .running, eng := some (.cipher 3), d := { opcode := 0x14, mode := 0x15, len := 100 }, srcIn := toLe 100 7 }; let u : CipherUnit := 3; let pe : CoreErr := {}; let ce : CoreErr := {}; let hit : Option Hit := none; ((cunit s u.val).ctx = some c.val) ∧ (ctxAt s c.val = some x) ∧ (x.phase = .running) ∧ (x.eng = some (.cipher u)) ∧ (x.d.opcode = 0x14 ∨ x.d.opcode = 0x15) ∧ (x.done < (payIn x).length)) ∧
    (let s : State := { (setCtx (q7) 4 { q := 7, seq := 1, phase := .running, eng := some (.cipher 3), d := { opcode := 0x10, mode := 2, len := 128 }, srcIn := toLe 128 7, dsts := [⟨200, 128⟩] }) with units := { cipher := [(3, { kat := false, ctx := some 4 })], hash := [(2, { kat := false, ctx := some 4 })], arc := [(1, { kat := false, ctx := some 4 })] } }; let c : CtxNo := 4; let x : Ctx := { q := 7, seq := 1, phase := .running, eng := some (.cipher 3), d := { opcode := 0x10, mode := 2, len := 128 }, srcIn := toLe 128 7, dsts := [⟨200, 128⟩] }; let u : CipherUnit := 3; let pe : CoreErr := { acc := [1] }; let ce : CoreErr := {}; let hit : Option Hit := none; ((cunit s u.val).ctx = some c.val) ∧ (ctxAt s c.val = some x) ∧ (x.phase = .running) ∧ (x.eng = some (.cipher u)) ∧ (streams x.d = true) ∧ (x.srcEnd = none) ∧ (x.done < x.d.len) ∧ (inputFor x.d (min x.d.len (x.done + 64)) ≤ (payIn x).length) ∧ (beatOf x (cunit s u.val) (min x.d.len (x.done + 64)) pe ce = none) ∧ (Deliverable s x)) ∧
    (let s : State := { (setCtx (q7) 4 { q := 7, seq := 1, phase := .running, eng := some (.hash 2), d := { opcode := 0x22, mode := 1, len := 10, arg := 32 }, srcIn := toLe 10 7 }) with units := { cipher := [(3, { kat := false, ctx := some 4 })], hash := [(2, { kat := false, ctx := some 4 })], arc := [(1, { kat := false, ctx := some 4 })] } }; let c : CtxNo := 4; let x : Ctx := { q := 7, seq := 1, phase := .running, eng := some (.hash 2), d := { opcode := 0x22, mode := 1, len := 10, arg := 32 }, srcIn := toLe 10 7 }; let u : HashNo := 2; let hit : Option Hit := none; ((hunit s u.val).ctx = some c.val) ∧ (ctxAt s c.val = some x) ∧ (x.phase = .running) ∧ (x.eng = some (.hash u)) ∧ (x.d.opcode = 0x22) ∧ (x.srcEnd = none) ∧ (x.d.len ≤ x.srcIn.length) ∧ (Deliverable s x)) ∧
    (let s : State := { (setCtx (q7) 4 { q := 7, seq := 1, phase := .running, eng := some (.hash 2), d := { opcode := 0x20, mode := 1, len := 10, dst := 0x2000 }, srcIn := toLe 10 7 }) with units := { cipher := [(3, { kat := false, ctx := some 4 })], hash := [(2, { kat := false, ctx := some 4 })], arc := [(1, { kat := false, ctx := some 4 })] } }; let c : CtxNo := 4; let x : Ctx := { q := 7, seq := 1, phase := .running, eng := some (.hash 2), d := { opcode := 0x20, mode := 1, len := 10, dst := 0x2000 }, srcIn := toLe 10 7 }; let u : HashNo := 2; ((hunit s u.val).ctx = some c.val) ∧ (ctxAt s c.val = some x) ∧ (x.phase = .running) ∧ (x.eng = some (.hash u)) ∧ (x.d.opcode = 0x20) ∧ (x.srcEnd = none) ∧ (x.d.len ≤ x.srcIn.length) ∧ (x.d.dstSgl = false) ∧ (x.wrote = 0) ∧ (x.dstChk = 0) ∧ (0 < (if x.d.mode = 6 ∨ x.d.mode = 7 then outLen x.d else digestLen x.d.mode)) ∧ (covered (queueAt s x.q) true x.d.dst (if x.d.mode = 6 ∨ x.d.mode = 7 then outLen x.d else digestLen x.d.mode) = true) ∧ (Deliverable s x)) ∧
    (let s : State := { (setCtx (q7) 4 { q := 7, seq := 1, phase := .running, eng := some (.hash 2), d := { opcode := 0x21, arg := 32, mode := 1, len := 10, dst := 0x2000 }, srcIn := toLe 10 7 }) with units := { cipher := [(3, { kat := false, ctx := some 4 })], hash := [(2, { kat := false, ctx := some 4 })], arc := [(1, { kat := false, ctx := some 4 })] } }; let c : CtxNo := 4; let x : Ctx := { q := 7, seq := 1, phase := .running, eng := some (.hash 2), d := { opcode := 0x21, arg := 32, mode := 1, len := 10, dst := 0x2000 }, srcIn := toLe 10 7 }; let u : HashNo := 2; ((hunit s u.val).ctx = some c.val) ∧ (ctxAt s c.val = some x) ∧ (x.phase = .running) ∧ (x.eng = some (.hash u)) ∧ (x.d.opcode = 0x21) ∧ (x.srcEnd = none) ∧ (x.d.len ≤ x.srcIn.length) ∧ (x.d.dstSgl = false) ∧ (x.wrote = 0) ∧ (x.dstChk = 0) ∧ (0 < macLen x.d) ∧ (covered (queueAt s x.q) true x.d.dst (macLen x.d) = true) ∧ (Deliverable s x)) ∧
    (let s : State := { (setCtx (q7) 4 { q := 7, seq := 1, phase := .running, eng := some (.hash 2), d := { opcode := 0x20, mode := 1, len := 10 }, srcIn := toLe 9 7 }) with units := { cipher := [(3, { kat := false, ctx := some 4 })], hash := [(2, { kat := false, ctx := some 4 })], arc := [(1, { kat := false, ctx := some 4 })] } }; let c : CtxNo := 4; let x : Ctx := { q := 7, seq := 1, phase := .running, eng := some (.hash 2), d := { opcode := 0x20, mode := 1, len := 10 }, srcIn := toLe 9 7 }; let u : HashNo := 2; let hit : Option Hit := none; ((hunit s u.val).ctx = some c.val) ∧ (ctxAt s c.val = some x) ∧ (x.phase = .running) ∧ (x.eng = some (.hash u)) ∧ (x.srcEnd = none) ∧ (x.srcIn.length < x.d.len)) ∧
    (let s : State := { (setCtx (q7) 4 { q := 7, seq := 1, phase := .running, eng := some (.hash 2), d := { opcode := 0x20, mode := 1, len := 10 }, stop := some { status := 0x08, detail := 1, at' := 0 } }) with units := { cipher := [(3, { kat := false, ctx := some 4 })], hash := [(2, { kat := false, ctx := some 4 })], arc := [(1, { kat := false, ctx := some 4 })] } }; let c : CtxNo := 4; let x : Ctx := { q := 7, seq := 1, phase := .running, eng := some (.hash 2), d := { opcode := 0x20, mode := 1, len := 10 }, stop := some { status := 0x08, detail := 1, at' := 0 } }; let u : HashNo := 2; let p : Stop := { status := 0x08, detail := 1, at' := 0 }; ((hunit s u.val).ctx = some c.val) ∧ (ctxAt s c.val = some x) ∧ (x.stop = some p) ∧ (x.eng = some (.hash u)) ∧ (Deliverable s x)) ∧
    (let s : State := { (setCtx (q7) 4 { q := 7, seq := 1, phase := .running, eng := some (.arcade 1), d := { opcode := 0x50 }, stop := some { status := 0x08, detail := 1, at' := 0 } }) with units := { cipher := [(3, { kat := false, ctx := some 4 })], hash := [(2, { kat := false, ctx := some 4 })], arc := [(1, { kat := false, ctx := some 4 })] } }; let c : CtxNo := 4; let x : Ctx := { q := 7, seq := 1, phase := .running, eng := some (.arcade 1), d := { opcode := 0x50 }, stop := some { status := 0x08, detail := 1, at' := 0 } }; let u : ArcNo := 1; ((aunit s u.val).ctx = some c.val) ∧ (ctxAt s c.val = some x) ∧ (x.stop.isSome = true) ∧ (x.phase ≠ .zeroising)) ∧
    (let s : State := { (setCtx (q7) 4 { q := 7, seq := 1, phase := .running, eng := some (.cipher 3), d := { opcode := 0x10, mode := 0x20, len := 128 }, srcIn := toLe 128 7, dsts := [⟨0x2000, 128⟩], stop := some { status := 0x08, detail := 1, at' := 0 } }) with units := { cipher := [(3, { kat := false, ctx := some 4 })], hash := [(2, { kat := false, ctx := some 4 })], arc := [(1, { kat := false, ctx := some 4 })] } }; let c : CtxNo := 4; let x : Ctx := { q := 7, seq := 1, phase := .running, eng := some (.cipher 3), d := { opcode := 0x10, mode := 0x20, len := 128 }, srcIn := toLe 128 7, dsts := [⟨0x2000, 128⟩], stop := some { status := 0x08, detail := 1, at' := 0 } }; let u : CipherUnit := 3; let p : Stop := { status := 0x08, detail := 1, at' := 0 }; ((cunit s u.val).ctx = some c.val) ∧ (ctxAt s c.val = some x) ∧ (x.stop = some p) ∧ (x.eng = some (.cipher u)) ∧ (x.phase ≠ .running ∨ stopPoint x = none) ∧ (Deliverable s x)) ∧
    (let s : State := { (setCtx (q7) 4 { q := 7, seq := 1, phase := .running, eng := some (.cipher 3), d := { opcode := 0x10, mode := 0x20, len := 128 }, srcIn := toLe 128 7, dsts := [⟨0x2000, 128⟩], done := 64, stop := some { status := 0x08, detail := 1, at' := 0 } }) with units := { cipher := [(3, { kat := false, ctx := some 4 })], hash := [(2, { kat := false, ctx := some 4 })], arc := [(1, { kat := false, ctx := some 4 })] } }; let c : CtxNo := 4; let x : Ctx := { q := 7, seq := 1, phase := .running, eng := some (.cipher 3), d := { opcode := 0x10, mode := 0x20, len := 128 }, srcIn := toLe 128 7, dsts := [⟨0x2000, 128⟩], done := 64, stop := some { status := 0x08, detail := 1, at' := 0 } }; let u : CipherUnit := 3; let p : Stop := { status := 0x08, detail := 1, at' := 0 }; let n : Nat := 128; ((cunit s u.val).ctx = some c.val) ∧ (ctxAt s c.val = some x) ∧ (x.stop = some p) ∧ (x.eng = some (.cipher u)) ∧ (x.phase = .running) ∧ (stopPoint x = some n)) ∧
    (let s : State := q7; let u : HashNo := 1; (((hunit s u.val).ctx.bind (ctxAt s)).any (fun x => x.stop.isSome) = false)) ∧
    (let s : State := q7; let u : CipherUnit := 1; (((cunit s u.val).ctx.bind (ctxAt s)).any (fun x => x.stop.isSome) = false)) ∧
    (let s : State := q7; let u : ArcNo := 1; (((aunit s u.val).ctx.bind (ctxAt s)).any (fun x => x.stop.isSome) = false)) :=
  by and_intros <;> decide +kernel

/-- States and operands that meet the hypotheses of each clause of UnitTests_1: laneKat, laneKatFails, laneKatNot, blvdKat, blvdKatFails, blvdKatNot, hashKat, hashKatFails, hashKatNot, laneRetest, laneRetestBusy, laneForce, laneForceBusy, blvdRetest. -/
theorem meets_UnitTests_1 :
    (let s : State := ready; let u : LaneNo := 11; ((cunit s u.val).kat = true) ∧ (domOn s (cunitDom u.val) = true)) ∧
    (let s : State := ready; let u : LaneNo := 11; ((cunit s u.val).kat = true) ∧ (domOn s (cunitDom u.val) = true) ∧ (pageOn s (0x11 + u.val / 8) = true)) ∧
    (let s : State := { ready with units := { cipher := [(11, { kat := false }), (65, { kat := false })], hash := [(11, { kat := false })] } }; let u : LaneNo := 11; let ok : Bool := false; ((cunit s u.val).kat = false ∨ domOn s (cunitDom u.val) = false)) ∧
    (let s : State := ready; let u : PipeNo := 1; ((cunit s (64 + u.val)).kat = true) ∧ (domOn s (9) = true)) ∧
    (let s : State := ready; let u : PipeNo := 1; ((cunit s (64 + u.val)).kat = true) ∧ (domOn s (9) = true) ∧ (pageOn s 0x19 = true)) ∧
    (let s : State := { ready with units := { cipher := [(11, { kat := false }), (65, { kat := false })], hash := [(11, { kat := false })] } }; let u : PipeNo := 1; let ok : Bool := false; ((cunit s (64 + u.val)).kat = false ∨ domOn s (9) = false)) ∧
    (let s : State := ready; let u : HashNo := 11; ((hunit s u.val).kat = true) ∧ (domOn s ((1 + u.val / 4)) = true)) ∧
    (let s : State := ready; let u : HashNo := 11; ((hunit s u.val).kat = true) ∧ (domOn s ((1 + u.val / 4)) = true) ∧ (pageOn s 0x1A = true)) ∧
    (let s : State := { ready with units := { cipher := [(11, { kat := false }), (65, { kat := false })], hash := [(11, { kat := false })] } }; let u : HashNo := 11; let ok : Bool := false; ((hunit s u.val).kat = false ∨ domOn s ((1 + u.val / 4)) = false)) ∧
    (let s : State := { ready with units := { cipher := [(9, { kat := false })], hash := [(2, { kat := false })] } }; let src : Src := .core 1; let g : GroupNo := 1; let b : BitVec 8 := 2; let n : Fin 8 := 1; (Reaches s src (rk (0x11 + g.val) Reg.LANE_OFFLINE_CTRL)) ∧ (b.toNat.testBit n.val = true) ∧ ((cunit s (8 * g.val + n.val)).ctx = none)) ∧
    (let s : State := { ready with units := { cipher := [(9, { kat := false, ctx := some 3 }), (65, { kat := false, ctx := some 3 })], hash := [(2, { kat := false, ctx := some 3 })] } }; let src : Src := .core 1; let g : GroupNo := 1; let b : BitVec 8 := 2; let n : Fin 8 := 1; (Reaches s src (rk (0x11 + g.val) Reg.LANE_OFFLINE_CTRL)) ∧ (b.toNat.testBit n.val = true) ∧ ((cunit s (8 * g.val + n.val)).ctx.isSome = true)) ∧
    (let s : State := { ready with units := { cipher := [(9, { kat := false })], hash := [(2, { kat := false })] } }; let src : Src := .core 1; let g : GroupNo := 1; let b : BitVec 8 := 2; let n : Fin 8 := 1; (Reaches s src (rk (0x11 + g.val) Reg.LANE_OFFLINE_CTRL)) ∧ ((cunit s (8 * g.val + n.val)).ctx = none)) ∧
    (let s : State := { ready with units := { cipher := [(9, { kat := false, ctx := some 3 }), (65, { kat := false, ctx := some 3 })], hash := [(2, { kat := false, ctx := some 3 })] } }; let src : Src := .core 1; let g : GroupNo := 1; let b : BitVec 8 := 2; let n : Fin 8 := 1; (Reaches s src (rk (0x11 + g.val) Reg.LANE_OFFLINE_CTRL)) ∧ ((cunit s (8 * g.val + n.val)).ctx.isSome = true)) ∧
    (let s : State := { ready with units := { cipher := [(9, { kat := false })], hash := [(2, { kat := false })] } }; let src : Src := .core 1; let b : BitVec 2 := 2; let n : PipeNo := 1; (Reaches s src Reg.BLVD_OFFLINE_CTRL) ∧ (b.toNat.testBit n.val = true) ∧ ((cunit s (64 + n.val)).ctx = none)) :=
  by and_intros <;> decide +kernel

/-- States and operands that meet the hypotheses of each clause of UnitTests_2: blvdRetestBusy, blvdForce, blvdForceBusy, hashRetest, hashRetestOff. -/
theorem meets_UnitTests_2 :
    (let s : State := { ready with units := { cipher := [(9, { kat := false, ctx := some 3 }), (65, { kat := false, ctx := some 3 })], hash := [(2, { kat := false, ctx := some 3 })] } }; let src : Src := .core 1; let b : BitVec 2 := 2; let n : PipeNo := 1; (Reaches s src Reg.BLVD_OFFLINE_CTRL) ∧ (b.toNat.testBit n.val = true) ∧ ((cunit s (64 + n.val)).ctx.isSome = true)) ∧
    (let s : State := { ready with units := { cipher := [(9, { kat := false })], hash := [(2, { kat := false })] } }; let src : Src := .core 1; let b : BitVec 2 := 2; let n : PipeNo := 1; (Reaches s src Reg.BLVD_OFFLINE_CTRL) ∧ ((cunit s (64 + n.val)).ctx = none)) ∧
    (let s : State := { ready with units := { cipher := [(9, { kat := false, ctx := some 3 }), (65, { kat := false, ctx := some 3 })], hash := [(2, { kat := false, ctx := some 3 })] } }; let src : Src := .core 1; let b : BitVec 2 := 2; let n : PipeNo := 1; (Reaches s src Reg.BLVD_OFFLINE_CTRL) ∧ ((cunit s (64 + n.val)).ctx.isSome = true)) ∧
    (let s : State := { ready with units := { cipher := [(9, { kat := false, ctx := some 3 }), (65, { kat := false, ctx := some 3 })], hash := [(2, { kat := false, ctx := some 3 })] } }; let src : Src := .port 0; let v : BitVec 32 := 4; let n : HashNo := 2; (Reaches s src Reg.HASH_RETEST) ∧ (v.toNat.testBit n.val = true) ∧ (domOn s (1 + n.val / 4) = true)) ∧
    (let s : State := { ready with units := { cipher := [(9, { kat := false, ctx := some 3 }), (65, { kat := false, ctx := some 3 })], hash := [(2, { kat := false, ctx := some 3 })] } }; let src : Src := .port 0; let v : BitVec 32 := 4; let n : HashNo := 3; (Reaches s src Reg.HASH_RETEST) ∧ (v.toNat.testBit n.val = false ∨ domOn s (1 + n.val / 4) = false)) :=
  by and_intros <;> decide +kernel

/-- States and operands that meet the hypotheses of each clause of LatchedCounts: lane, blvd, hash, launch, tick. -/
theorem meets_LatchedCounts :
    (let s : State := { ready with tick := 2 ^ 33 + 5, units := { hashBytes := 2 ^ 40 + 1, laneBlocks := [(2, 77)] } }; let src : Src := .core 2; let g : GroupNo := 2; (Reaches s src (rk (0x11 + g.val) Reg.LANE_BLOCKS_LO))) ∧
    (let s : State := { ready with tick := 2 ^ 33 + 5, units := { hashBytes := 2 ^ 40 + 1, laneBlocks := [(2, 77)] } }; let src : Src := .core 2; let p : PipeNo := 1; (Reaches s src (Reg.BLVD_BYTES0_LO + 8 * p.val))) ∧
    (let s : State := { ready with tick := 2 ^ 33 + 5, units := { hashBytes := 2 ^ 40 + 1, laneBlocks := [(2, 77)] } }; let src : Src := .core 2; (Reaches s src Reg.HASH_BYTES_LO)) ∧
    (let s : State := { ready with tick := 2 ^ 33 + 5, units := { hashBytes := 2 ^ 40 + 1, laneBlocks := [(2, 77)] } }; let src : Src := .core 2; (Reaches s src Reg.RBT_NEXT_LAUNCH_LO)) ∧
    (let s : State := { ready with tick := 2 ^ 33 + 5, units := { hashBytes := 2 ^ 40 + 1, laneBlocks := [(2, 77)] } }; let src : Src := .core 2; (Reaches s src Reg.CT_TICK_LO)) :=
  by and_intros <;> decide +kernel

/-- States and operands that meet the hypotheses of each clause of Reservations: nonce, nonceConfirmed, dukpt, dukptConfirmed, noncePaired, dukptPaired, nonceRetry, nonceNot, dukptRetry, dukptNot. -/
theorem meets_Reservations :
    (let s : State := setCtr ready 9 { blk := 4, off := 1, conf := none, pend := some 4 }; let n : SlotNo := 9; let b : Nat := 4; ((ctrAt s n.val).pend = some b) ∧ (paired s = false) ∧ (rsvMirrored s n.val b false = false)) ∧
    (let s : State := setCtr ready 9 { blk := 4, off := 1, conf := none, pend := some 4 }; let n : SlotNo := 9; let b : Nat := 4; ((ctrAt s n.val).pend = some b) ∧ (b % 2 = (ctrAt s n.val).blk % 2) ∧ (tfind s.mews.ctrs n.val = some (ctrAt s n.val)) ∧ (paired s = false) ∧ (rsvMirrored s n.val b false = false) ∧ ((s.quay.ctxs.any fun e => e.2.waitRsv) = false)) ∧
    (let s : State := setDukpt ready 9 { par := 0, next := 4096, top := none, pend := some 4 }; let n : SlotNo := 9; let b : Nat := 4; ((dukptAt s n.val).pend = some b) ∧ (paired s = false) ∧ (rsvMirrored s n.val b true = false)) ∧
    (let s : State := setDukpt ready 9 { par := 0, next := 4096, top := none, pend := some 4 }; let n : SlotNo := 9; let b : Nat := 4; ((dukptAt s n.val).pend = some b) ∧ (b % 2 = (dukptAt s n.val).par) ∧ (tfind s.mews.dukpt n.val = some (dukptAt s n.val)) ∧ (paired s = false) ∧ (rsvMirrored s n.val b true = false) ∧ ((dukptAt s n.val).next ≤ b * 1024) ∧ ((s.quay.ctxs.any fun e => e.2.waitRsv) = false)) ∧
    (let s : State := { setCtr (setDukpt ready 9 { par := 0, next := 4096, top := none, pend := some 4 }) 9 { blk := 4, off := 1, conf := none, pend := some 4 } with xing := { state := 3 } }; let n : SlotNo := 9; let b : Nat := 4; ((ctrAt s n.val).pend = some b) ∧ (paired s = true) ∧ (rsvMirrored s n.val b false = false)) ∧
    (let s : State := { setCtr (setDukpt ready 9 { par := 0, next := 4096, top := none, pend := some 4 }) 9 { blk := 4, off := 1, conf := none, pend := some 4 } with xing := { state := 3 } }; let n : SlotNo := 9; let b : Nat := 4; ((dukptAt s n.val).pend = some b) ∧ (paired s = true) ∧ (rsvMirrored s n.val b true = false)) ∧
    (let s : State := setCtr (setDukpt ready 9 { par := 0, next := 4096, top := none, pend := some 4 }) 9 { blk := 4, off := 1, conf := none, pend := some 4 }; let n : SlotNo := 9; let b : Nat := 4; ((ctrAt s n.val).pend = some b) ∧ (rsvMirrored s n.val b false = false)) ∧
    (let s : State := ready; let n : SlotNo := 9; let ok : Bool := true; (((ctrAt s n.val).pend.any fun b => !rsvMirrored s n.val b false) = false)) ∧
    (let s : State := setCtr (setDukpt ready 9 { par := 0, next := 4096, top := none, pend := some 4 }) 9 { blk := 4, off := 1, conf := none, pend := some 4 }; let n : SlotNo := 9; let b : Nat := 4; ((dukptAt s n.val).pend = some b) ∧ (rsvMirrored s n.val b true = false)) ∧
    (let s : State := ready; let n : SlotNo := 9; let ok : Bool := true; (((dukptAt s n.val).pend.any fun b => !rsvMirrored s n.val b true) = false)) :=
  by and_intros <;> decide +kernel

/-- States and operands that meet the hypotheses of each clause of KeyCommands_1: generate, derive, import, exportKey, exportGone, importGone, exportRejected, erase, generateIsolated, generateForwarded, deriveIsolated, deriveForwarded, eraseIsolated, eraseForwarded. -/
theorem meets_KeyCommands_1 :
    (let s : State := let z := setCtx (q7) 4 { q := 7, seq := 1, phase := .placed, d := { opcode := 0x30, handle := 1, len := 0 }, keys := [{ handle := 0, slot := 40, gen := 1, target := true }], param := toLe 16 (0 + 3 * 16) }; { z with fnt := { z.fnt with got := [(4, toLe 64 9)] } }; let c : CtxNo := 4; let x : Ctx := { q := 7, seq := 1, phase := .placed, d := { opcode := 0x30, handle := 1, len := 0 }, keys := [{ handle := 0, slot := 40, gen := 1, target := true }], param := toLe 16 (0 + 3 * 16) }; let b : Bytes := toLe 64 9; (ctxAt s c.val = some x) ∧ (x.d.opcode = 0x30) ∧ (x.phase = .placed) ∧ (slotWriteWaits s c.val x = false) ∧ (drawn s c.val = some b) ∧ (paired s = false) ∧ (s.xing.state ≠ 5)) ∧
    (let s : State := setCtx (q7) 4 { q := 7, seq := 1, phase := .placed, d := { opcode := 0x31, handle := 1, len := 0 }, keys := [{ handle := 1, slot := 9, gen := 1 }, { handle := 0, slot := 40, gen := 1, target := true }], param := toLe 16 (0 + 3 * 16) }; let c : CtxNo := 4; let x : Ctx := { q := 7, seq := 1, phase := .placed, d := { opcode := 0x31, handle := 1, len := 0 }, keys := [{ handle := 1, slot := 9, gen := 1 }, { handle := 0, slot := 40, gen := 1, target := true }], param := toLe 16 (0 + 3 * 16) }; (ctxAt s c.val = some x) ∧ (x.d.opcode = 0x31) ∧ (x.phase = .placed) ∧ (slotWriteWaits s c.val x = false) ∧ (paired s = false) ∧ (s.xing.state ≠ 5)) ∧
    (let s : State := (let z := setCtx (q7) 4 { q := 7, seq := 1, phase := .placed, d := { opcode := 0x32, handle := 1, len := 0 }, keys := [{ handle := 1, slot := 9, gen := 1 }, { handle := 0, slot := 40, gen := 1, target := true }] }; { z with life := { z.life with root := some (toLe 32 3) } }); let c : CtxNo := 4; let x : Ctx := { q := 7, seq := 1, phase := .placed, d := { opcode := 0x32, handle := 1, len := 0 }, keys := [{ handle := 1, slot := 9, gen := 1 }, { handle := 0, slot := 40, gen := 1, target := true }] }; (ctxAt s c.val = some x) ∧ (x.d.opcode = 0x32) ∧ (x.phase = .placed) ∧ (slotWriteWaits s c.val x = false) ∧ (x.d.len ≤ x.srcIn.length) ∧ (rootGone s x = false) ∧ (paired s = false) ∧ (s.xing.state ≠ 5)) ∧
    (let s : State := (let z := setCtx (q7) 4 { q := 7, seq := 1, phase := .placed, d := { opcode := 0x33, handle := 1, dst := 0x3000 }, keys := [{ handle := 1, slot := 9, gen := 1 }] }; { z with life := { z.life with root := some (toLe 32 3) } }); let c : CtxNo := 4; let x : Ctx := { q := 7, seq := 1, phase := .placed, d := { opcode := 0x33, handle := 1, dst := 0x3000 }, keys := [{ handle := 1, slot := 9, gen := 1 }] }; (ctxAt s c.val = some x) ∧ (x.d.opcode = 0x33) ∧ (x.phase = .placed) ∧ (rootGone s x = false) ∧ (x.d.dstSgl = false) ∧ (x.wrote = 0) ∧ (x.dstChk = 0) ∧ (covered (queueAt s x.q) true x.d.dst (blobLen (slotAt s (targetOf x 1)).alg) = true) ∧ (Deliverable s x)) ∧
    (let s : State := setCtx (q7) 4 { q := 7, seq := 1, phase := .placed, d := { opcode := 51, handle := 1 }, keys := [{ handle := 1, slot := 9, gen := 1 }] }; let c : CtxNo := 4; let x : Ctx := { q := 7, seq := 1, phase := .placed, d := { opcode := 51, handle := 1 }, keys := [{ handle := 1, slot := 9, gen := 1 }] }; (ctxAt s c.val = some x) ∧ (x.d.opcode = 0x33) ∧ (x.phase = .placed) ∧ (x.d.len ≤ x.srcIn.length) ∧ (rootGone s x = true) ∧ (Deliverable s x)) ∧
    (let s : State := setCtx (q7) 4 { q := 7, seq := 1, phase := .placed, d := { opcode := 50, handle := 1 }, keys := [{ handle := 1, slot := 9, gen := 1 }] }; let c : CtxNo := 4; let x : Ctx := { q := 7, seq := 1, phase := .placed, d := { opcode := 50, handle := 1 }, keys := [{ handle := 1, slot := 9, gen := 1 }] }; (ctxAt s c.val = some x) ∧ (x.d.opcode = 0x32) ∧ (x.phase = .placed) ∧ (x.d.len ≤ x.srcIn.length) ∧ (rootGone s x = true) ∧ (Deliverable s x) ∧ (slotWriteWaits s c.val x = false)) ∧
    (let s : State := (let z := setCtx (q7) 4 { q := 7, seq := 1, phase := .placed, d := { opcode := 0x33, handle := 1, dst := 2 ^ 40 }, keys := [{ handle := 1, slot := 9, gen := 1 }] }; { z with life := { z.life with root := some (toLe 32 3) } }); let c : CtxNo := 4; let x : Ctx := { q := 7, seq := 1, phase := .placed, d := { opcode := 0x33, handle := 1, dst := 2 ^ 40 }, keys := [{ handle := 1, slot := 9, gen := 1 }] }; (ctxAt s c.val = some x) ∧ (x.d.opcode = 0x33) ∧ (x.phase = .placed) ∧ (rootGone s x = false) ∧ (x.d.dstSgl = false) ∧ (x.wrote = 0) ∧ (x.dstChk = 0) ∧ (covered (queueAt s x.q) true x.d.dst (blobLen (slotAt s (targetOf x 1)).alg) = false) ∧ (Deliverable s x)) ∧
    (let s : State := setSlot (setCtx (q7) 4 { q := 7, seq := 1, phase := .placed, d := { opcode := 0x34, handle := 1, len := 0 }, keys := [{ handle := 0, slot := 40, gen := 1, target := true }] }) 40 { gen := 5, usage := 0, alg := 3, asg := true, dom := 7 }; let c : CtxNo := 4; let x : Ctx := { q := 7, seq := 1, phase := .placed, d := { opcode := 0x34, handle := 1, len := 0 }, keys := [{ handle := 0, slot := 40, gen := 1, target := true }] }; (ctxAt s c.val = some x) ∧ (x.d.opcode = 0x34) ∧ (x.phase = .placed) ∧ (slotWriteWaits s c.val x = false) ∧ ((isCont (slotAt s (targetOf x 0)) = true → targetOf x 0 ∈ runOf s (hSlot (slotAt s (targetOf x 0)).parent))) ∧ (paired s = false) ∧ (s.xing.state ≠ 5)) ∧
    (let s : State := { (let z := setCtx (q7) 4 { q := 7, seq := 1, phase := .placed, d := { opcode := 0x30, handle := 1, len := 0 }, keys := [{ handle := 0, slot := 40, gen := 1, target := true }], param := toLe 16 (0 + 3 * 16) }; { z with fnt := { z.fnt with got := [(4, toLe 64 9)] } }) with xing := { state := 5 } }; let c : CtxNo := 4; let x : Ctx := { q := 7, seq := 1, phase := .placed, d := { opcode := 0x30, handle := 1, len := 0 }, keys := [{ handle := 0, slot := 40, gen := 1, target := true }], param := toLe 16 (0 + 3 * 16) }; (ctxAt s c.val = some x) ∧ (x.d.opcode = 0x30) ∧ (x.phase = .placed) ∧ (slotWriteWaits s c.val x = false) ∧ ((drawn s c.val).isSome = true) ∧ (s.xing.state = 5) ∧ (Deliverable s x)) ∧
    (let s : State := { (let z := setCtx (q7) 4 { q := 7, seq := 1, phase := .placed, d := { opcode := 0x30, handle := 1, len := 0 }, keys := [{ handle := 0, slot := 40, gen := 1, target := true }], param := toLe 16 (0 + 3 * 16) }; { z with fnt := { z.fnt with got := [(4, toLe 64 9)] } }) with xing := { state := 3 } }; let c : CtxNo := 4; let x : Ctx := { q := 7, seq := 1, phase := .placed, d := { opcode := 0x30, handle := 1, len := 0 }, keys := [{ handle := 0, slot := 40, gen := 1, target := true }], param := toLe 16 (0 + 3 * 16) }; (ctxAt s c.val = some x) ∧ (x.d.opcode = 0x30) ∧ (x.phase = .placed) ∧ (slotWriteWaits s c.val x = false) ∧ ((drawn s c.val).isSome = true) ∧ (paired s = true) ∧ (s.xing.seqr = false)) ∧
    (let s : State := { (setCtx (q7) 4 { q := 7, seq := 1, phase := .placed, d := { opcode := 0x31, handle := 1, len := 0 }, keys := [{ handle := 1, slot := 9, gen := 1 }, { handle := 0, slot := 40, gen := 1, target := true }], param := toLe 16 (0 + 3 * 16) }) with xing := { state := 5 } }; let c : CtxNo := 4; let x : Ctx := { q := 7, seq := 1, phase := .placed, d := { opcode := 0x31, handle := 1, len := 0 }, keys := [{ handle := 1, slot := 9, gen := 1 }, { handle := 0, slot := 40, gen := 1, target := true }], param := toLe 16 (0 + 3 * 16) }; (ctxAt s c.val = some x) ∧ (x.d.opcode = 0x31) ∧ (x.phase = .placed) ∧ (slotWriteWaits s c.val x = false) ∧ (s.xing.state = 5) ∧ (Deliverable s x)) ∧
    (let s : State := { (setCtx (q7) 4 { q := 7, seq := 1, phase := .placed, d := { opcode := 0x31, handle := 1, len := 0 }, keys := [{ handle := 1, slot := 9, gen := 1 }, { handle := 0, slot := 40, gen := 1, target := true }], param := toLe 16 (0 + 3 * 16) }) with xing := { state := 3 } }; let c : CtxNo := 4; let x : Ctx := { q := 7, seq := 1, phase := .placed, d := { opcode := 0x31, handle := 1, len := 0 }, keys := [{ handle := 1, slot := 9, gen := 1 }, { handle := 0, slot := 40, gen := 1, target := true }], param := toLe 16 (0 + 3 * 16) }; (ctxAt s c.val = some x) ∧ (x.d.opcode = 0x31) ∧ (x.phase = .placed) ∧ (slotWriteWaits s c.val x = false) ∧ (paired s = true) ∧ (s.xing.seqr = false)) ∧
    (let s : State := { (setCtx (q7) 4 { q := 7, seq := 1, phase := .placed, d := { opcode := 0x34, handle := 1, len := 0 }, keys := [{ handle := 0, slot := 40, gen := 1, target := true }] }) with xing := { state := 5 } }; let c : CtxNo := 4; let x : Ctx := { q := 7, seq := 1, phase := .placed, d := { opcode := 0x34, handle := 1, len := 0 }, keys := [{ handle := 0, slot := 40, gen := 1, target := true }] }; (ctxAt s c.val = some x) ∧ (x.d.opcode = 0x34) ∧ (x.phase = .placed) ∧ (slotWriteWaits s c.val x = false) ∧ (s.xing.state = 5) ∧ (Deliverable s x)) ∧
    (let s : State := { (setCtx (q7) 4 { q := 7, seq := 1, phase := .placed, d := { opcode := 0x34, handle := 1, len := 0 }, keys := [{ handle := 0, slot := 40, gen := 1, target := true }] }) with xing := { state := 3 } }; let c : CtxNo := 4; let x : Ctx := { q := 7, seq := 1, phase := .placed, d := { opcode := 0x34, handle := 1, len := 0 }, keys := [{ handle := 0, slot := 40, gen := 1, target := true }] }; (ctxAt s c.val = some x) ∧ (x.d.opcode = 0x34) ∧ (x.phase = .placed) ∧ (slotWriteWaits s c.val x = false) ∧ (paired s = true) ∧ (s.xing.seqr = false)) :=
  by and_intros <;> decide +kernel

/-- States and operands that meet the hypotheses of each clause of KeyCommands_2: generateNotYet, deriveNotYet, importNotYet, exportNotYet, eraseNotYet, queryNotYet, query, queryLost. -/
theorem meets_KeyCommands_2 :
    (let s : State := q7; let c : CtxNo := 4; ((ctxAt s c.val).any (fun x => x.d.opcode == 0x30 && decide (x.phase = .placed) && !slotWriteWaits s c.val x && (drawn s c.val).isSome) = false)) ∧
    (let s : State := q7; let c : CtxNo := 4; ((ctxAt s c.val).any (fun x => x.d.opcode == 0x31 && decide (x.phase = .placed) && !slotWriteWaits s c.val x) = false)) ∧
    (let s : State := q7; let c : CtxNo := 4; ((ctxAt s c.val).any (fun x => x.d.opcode == 0x32 && decide (x.phase = .placed) && !slotWriteWaits s c.val x && decide (x.d.len ≤ x.srcIn.length)) = false)) ∧
    (let s : State := q7; let c : CtxNo := 4; let hit : Option Hit := none; ((ctxAt s c.val).any (fun x => x.d.opcode == 0x33 && decide (x.phase = .placed)) = false)) ∧
    (let s : State := q7; let c : CtxNo := 4; ((ctxAt s c.val).any (fun x => x.d.opcode == 0x34 && decide (x.phase = .placed) && !slotWriteWaits s c.val x) = false)) ∧
    (let s : State := q7; let c : CtxNo := 4; let ecc : EccSeen := .clean; ((ctxAt s c.val).any (fun x => x.d.opcode == 0x35 && decide (x.phase = .placed)) = false)) ∧
    (let s : State := setCtx (q7) 4 { q := 7, seq := 1, phase := .placed, d := { opcode := 0x35, handle := 1, len := 0 }, keys := [{ handle := 1, slot := 9, gen := 1 }] }; let c : CtxNo := 4; let x : Ctx := { q := 7, seq := 1, phase := .placed, d := { opcode := 0x35, handle := 1, len := 0 }, keys := [{ handle := 1, slot := 9, gen := 1 }] }; let ecc : EccSeen := .corrected; (ctxAt s c.val = some x) ∧ (x.d.opcode = 0x35) ∧ (x.phase = .placed) ∧ (ecc = .clean ∨ ecc = .corrected) ∧ (Deliverable s x)) ∧
    (let s : State := setSlot (setCtx (q7) 4 { q := 7, seq := 1, phase := .placed, d := { opcode := 0x35, handle := 1, len := 0 }, keys := [{ handle := 1, slot := 9, gen := 1 }] }) 9 { gen := 1, usage := 0, alg := 3, asg := true, dom := 8 }; let c : CtxNo := 4; let x : Ctx := { q := 7, seq := 1, phase := .placed, d := { opcode := 0x35, handle := 1, len := 0 }, keys := [{ handle := 1, slot := 9, gen := 1 }] }; let n : SlotNo := 9; let lost : Bool := true; (ctxAt s c.val = some x) ∧ (x.d.opcode = 0x35) ∧ (x.phase = .placed) ∧ (n.val = targetOf x 0) ∧ (x.keys.any (fun k => decide (k.slot ≤ n.val ∧ n.val < k.slot + k.run)) = true) ∧ (isLive (slotAt s n.val) = true) ∧ (paired s = false) ∧ (s.chk.slotBad.contains n.val = false)) :=
  by and_intros <;> decide +kernel

/-- States and operands that meet the hypotheses of each clause of KeyTableEffects_1: cascade, cascadeEnds, zeroised, zeroisedAlone, assign, assignRange, assignBusy, unassign, unassignRange, unassignBusy, eraseAssign, eraseAssignRange, eraseAssignBusy, eraseUnassign. -/
theorem meets_KeyTableEffects_1 :
    (let s : State := { ready with mews := { slots := [(9, { gen := 2, usage := 0, alg := 3 })], cascades := [[[mkHandle 9 2]]] } }; let h : Nat := mkHandle 9 2; ((s.mews.cascades.map List.flatten).flatten.find? (liveHandle s) = some h)) ∧
    (let s : State := { ready with mews := { cascades := [[[mkHandle 9 2]]] } }; ((s.mews.cascades.map List.flatten).flatten.find? (liveHandle s) = none)) ∧
    (let s : State := { ready with mews := { zeroising := true, heldOps := [.assign 0 5 8 3] } }; (NothingResumes (zeroisingEnd s))) ∧
    (let s : State := { ready with mews := { zeroising := true } }; (s.mews.heldOps = []) ∧ (NothingResumes { s with mews := { s.mews with zeroising := false } })) ∧
    (let s : State := setReg (setReg ready Reg.MEWS_ASSIGN_BASE 64) Reg.MEWS_ASSIGN_CNT 3; let src : Src := .port 0; let dom : BitVec 12 := 77; (Reaches s src Reg.MEWS_ASSIGN_CMD) ∧ (s.mews.assign = none) ∧ (0 < (fld s Reg.MEWS_ASSIGN_CNT 17 0)) ∧ ((fld s Reg.MEWS_ASSIGN_BASE 16 0) + (fld s Reg.MEWS_ASSIGN_CNT 17 0) ≤ 131072)) ∧
    (let s : State := ready; let src : Src := .port 0; let dom : BitVec 12 := 77; (Reaches s src Reg.MEWS_ASSIGN_CMD) ∧ (s.mews.assign = none) ∧ ((fld s Reg.MEWS_ASSIGN_CNT 17 0) = 0 ∨ 131072 < (fld s Reg.MEWS_ASSIGN_BASE 16 0) + (fld s Reg.MEWS_ASSIGN_CNT 17 0))) ∧
    (let s : State := { ready with mews := { assign := some { op := 0, dom := 5, next := 8, last := 10 } } }; let src : Src := .port 0; let dom : BitVec 12 := 77; (Reaches s src Reg.MEWS_ASSIGN_CMD) ∧ (s.mews.assign.isSome = true) ∧ (rbit s (rk 0x28 Reg.ERR_SYND) 23 = false)) ∧
    (let s : State := setReg (setReg ready Reg.MEWS_ASSIGN_BASE 64) Reg.MEWS_ASSIGN_CNT 3; let src : Src := .port 0; (Reaches s src Reg.MEWS_ASSIGN_CMD) ∧ (s.mews.assign = none) ∧ (0 < (fld s Reg.MEWS_ASSIGN_CNT 17 0)) ∧ ((fld s Reg.MEWS_ASSIGN_BASE 16 0) + (fld s Reg.MEWS_ASSIGN_CNT 17 0) ≤ 131072)) ∧
    (let s : State := ready; let src : Src := .port 0; (Reaches s src Reg.MEWS_ASSIGN_CMD) ∧ (s.mews.assign = none) ∧ ((fld s Reg.MEWS_ASSIGN_CNT 17 0) = 0 ∨ 131072 < (fld s Reg.MEWS_ASSIGN_BASE 16 0) + (fld s Reg.MEWS_ASSIGN_CNT 17 0))) ∧
    (let s : State := { ready with mews := { assign := some { op := 0, dom := 5, next := 8, last := 10 } } }; let src : Src := .port 0; (Reaches s src Reg.MEWS_ASSIGN_CMD) ∧ (s.mews.assign.isSome = true) ∧ (rbit s (rk 0x28 Reg.ERR_SYND) 23 = false)) ∧
    (let s : State := setReg (setReg ready Reg.MEWS_ASSIGN_BASE 64) Reg.MEWS_ASSIGN_CNT 3; let src : Src := .port 0; let dom : BitVec 12 := 77; (Reaches s src Reg.MEWS_ASSIGN_CMD) ∧ (s.mews.assign = none) ∧ (0 < (fld s Reg.MEWS_ASSIGN_CNT 17 0)) ∧ ((fld s Reg.MEWS_ASSIGN_BASE 16 0) + (fld s Reg.MEWS_ASSIGN_CNT 17 0) ≤ 131072) ∧ (s.xing.state ≠ 5)) ∧
    (let s : State := ready; let src : Src := .port 0; let dom : BitVec 12 := 77; (Reaches s src Reg.MEWS_ASSIGN_CMD) ∧ (s.mews.assign = none) ∧ ((fld s Reg.MEWS_ASSIGN_CNT 17 0) = 0 ∨ 131072 < (fld s Reg.MEWS_ASSIGN_BASE 16 0) + (fld s Reg.MEWS_ASSIGN_CNT 17 0) ∨ s.xing.state = 5)) ∧
    (let s : State := { ready with mews := { assign := some { op := 0, dom := 5, next := 8, last := 10 } } }; let src : Src := .port 0; let dom : BitVec 12 := 77; (Reaches s src Reg.MEWS_ASSIGN_CMD) ∧ (s.mews.assign.isSome = true) ∧ (rbit s (rk 0x28 Reg.ERR_SYND) 23 = false)) ∧
    (let s : State := setReg (setReg ready Reg.MEWS_ASSIGN_BASE 64) Reg.MEWS_ASSIGN_CNT 3; let src : Src := .port 0; (Reaches s src Reg.MEWS_ASSIGN_CMD) ∧ (s.mews.assign = none) ∧ (0 < (fld s Reg.MEWS_ASSIGN_CNT 17 0)) ∧ ((fld s Reg.MEWS_ASSIGN_BASE 16 0) + (fld s Reg.MEWS_ASSIGN_CNT 17 0) ≤ 131072) ∧ (s.xing.state ≠ 5)) :=
  by and_intros <;> decide +kernel

/-- States and operands that meet the hypotheses of each clause of KeyTableEffects_2: eraseUnassignRange, eraseUnassignBusy, done, doneNot, attr, attrLost. -/
theorem meets_KeyTableEffects_2 :
    (let s : State := ready; let src : Src := .port 0; (Reaches s src Reg.MEWS_ASSIGN_CMD) ∧ (s.mews.assign = none) ∧ ((fld s Reg.MEWS_ASSIGN_CNT 17 0) = 0 ∨ 131072 < (fld s Reg.MEWS_ASSIGN_BASE 16 0) + (fld s Reg.MEWS_ASSIGN_CNT 17 0) ∨ s.xing.state = 5)) ∧
    (let s : State := { ready with mews := { assign := some { op := 0, dom := 5, next := 8, last := 10 } } }; let src : Src := .port 0; (Reaches s src Reg.MEWS_ASSIGN_CMD) ∧ (s.mews.assign.isSome = true) ∧ (rbit s (rk 0x28 Reg.ERR_SYND) 23 = false)) ∧
    (let s : State := { ready with mews := { slots := [(9, { gen := 2, usage := 0, alg := 3 })], assign := some { op := 0, dom := 5, next := 8, last := 10 } } }; let a : AssignOp := { op := 0, dom := 5, next := 8, last := 10 }; (s.mews.assign = some a) ∧ (s.mews.zeroising = false) ∧ (a.next ≤ a.last + 1)) ∧
    (let s : State := ready; (s.mews.assign = none ∨ s.mews.zeroising = true)) ∧
    (let s : State := setReg ready Reg.MEWS_SLOT_SEL 9; let src : Src := .core 2; let ecc : EccSeen := .corrected; (Reaches s src Reg.MEWS_SLOT_ATTR) ∧ (ecc = .clean ∨ ecc = .corrected)) ∧
    (let s : State := setReg (setSlot ready 9 { gen := 1, usage := 0, alg := 3 }) Reg.MEWS_SLOT_SEL 9; let src : Src := .core 2; let n : SlotNo := 9; let lost : Bool := false; (Reaches s src Reg.MEWS_SLOT_ATTR) ∧ (n.val = (fld s Reg.MEWS_SLOT_SEL 16 0)) ∧ (isLive (slotAt s n.val) = true) ∧ (paired s = false) ∧ (s.chk.slotBad.contains n.val = false)) :=
  by and_intros <;> decide +kernel

/-- States and operands that meet the hypotheses of each clause of LifecycleCommands_1: transition, notConfirmed, transitionWaits, transitionNoUnit, transitionNoSecret, transitionNoRow, transitionNoRecord, install, installState, installIsolated, installKey, installNoRecord, transitionBusy, installBusy. -/
theorem meets_LifecycleCommands_1 :
    (let s : State := setReg { ready with life := { state := 1 }, units := { arc := [(1, { kat := false }), (0, { kat := false })] } } Reg.LC_TARGET 2; let src : Src := .port 0; let fails : Nat := 1; let row : Nat := 2; let u : Nat := 0; let r : LcRec := { total := 1, cnt := [(1, 1)] }; (Reaches s src Reg.LC_CMD) ∧ (s.life.op = none) ∧ (s.life.state ≠ 7) ∧ (lcRow s.life.state (fld s Reg.LC_TARGET 2 0) = some row) ∧ (((row = 3 ∨ row = 5) → custValid s = true)) ∧ (arcPick s = some u) ∧ (arcIdle s u = true) ∧ (lcNow s = some r) ∧ (fails < 3)) ∧
    (let s : State := setReg { ready with life := { state := 1 }, units := { arc := [(1, { kat := false }), (0, { kat := false })] } } Reg.LC_TARGET 2; let src : Src := .port 0; let fails : Nat := 3; let row : Nat := 2; let u : Nat := 0; (Reaches s src Reg.LC_CMD) ∧ (s.life.op = none) ∧ (s.life.state ≠ 7) ∧ (lcRow s.life.state (fld s Reg.LC_TARGET 2 0) = some row) ∧ (((row = 3 ∨ row = 5) → custValid s = true)) ∧ (arcPick s = some u) ∧ (arcIdle s u = true) ∧ (3 ≤ fails)) ∧
    (let s : State := setReg { ready with life := { state := 1 }, units := { arc := [(1, { kat := false }), (0, { kat := true })] } } Reg.LC_TARGET 2; let src : Src := .port 0; let fails : Nat := 3; let row : Nat := 2; let u : Nat := 0; (Reaches s src Reg.LC_CMD) ∧ (s.life.op = none) ∧ (s.life.state ≠ 7) ∧ (lcRow s.life.state (fld s Reg.LC_TARGET 2 0) = some row) ∧ (((row = 3 ∨ row = 5) → custValid s = true)) ∧ (arcPick s = some u) ∧ (arcIdle s u = false)) ∧
    (let s : State := setReg (setReg { ready with life := { state := 1 }, units := { arc := [(1, { kat := false }), (0, { kat := true })] } } Reg.LC_TARGET 2) Reg.PWR_REQ 0; let src : Src := .port 0; let fails : Nat := 0; let row : Nat := 2; (Reaches s src Reg.LC_CMD) ∧ (s.life.op = none) ∧ (s.life.state ≠ 7) ∧ (lcRow s.life.state (fld s Reg.LC_TARGET 2 0) = some row) ∧ (((row = 3 ∨ row = 5) → custValid s = true)) ∧ (arcPick s = none)) ∧
    (let s : State := setReg { ready with life := { state := 2 }, units := { arc := [(1, { kat := false }), (0, { kat := true })] } } Reg.LC_TARGET 3; let src : Src := .port 0; let fails : Nat := 0; let row : Nat := 3; (Reaches s src Reg.LC_CMD) ∧ (s.life.op = none) ∧ (s.life.state ≠ 7) ∧ (lcRow s.life.state (fld s Reg.LC_TARGET 2 0) = some row) ∧ (row = 3 ∨ row = 5) ∧ (custValid s = false)) ∧
    (let s : State := setReg { ready with life := { state := 6 }, units := { arc := [(1, { kat := false }), (0, { kat := true })] } } Reg.LC_TARGET 2; let src : Src := .port 0; let fails : Nat := 0; (Reaches s src Reg.LC_CMD) ∧ (s.life.op = none) ∧ (s.life.state ≠ 7) ∧ (lcRow s.life.state (fld s Reg.LC_TARGET 2 0) = none)) ∧
    (let s : State := setReg { ready with life := { state := 7 }, units := { arc := [(1, { kat := false }), (0, { kat := true })] } } Reg.LC_TARGET 2; let src : Src := .port 0; let fails : Nat := 0; (Reaches s src Reg.LC_CMD) ∧ (s.life.op = none) ∧ (s.life.state = 7)) ∧
    (let s : State := setReg (setSlot { ready with life := { state := 2 } } 9 { gen := 1, usage := 4, alg := 0x19, mat := toLe 32 5 }) Reg.LC_HANDLE 0x20009; let src : Src := .port 1; (Reaches s src Reg.LC_CMD) ∧ (s.life.op = none) ∧ (s.life.state ≠ 7) ∧ (s.life.state = 2 ∨ s.life.state = 4) ∧ (s.xing.state ≠ 5) ∧ (isLive (slotAt s (hSlot (reg s Reg.LC_HANDLE).toNat)) = true ∧ (slotAt s (hSlot (reg s Reg.LC_HANDLE).toNat)).gen = hGen (reg s Reg.LC_HANDLE).toNat ∧ (slotAt s (hSlot (reg s Reg.LC_HANDLE).toNat)).alg = 0x19 ∧ (slotAt s (hSlot (reg s Reg.LC_HANDLE).toNat)).usage = uDERIVE)) ∧
    (let s : State := { ready with life := { state := 1 } }; let src : Src := .port 1; (Reaches s src Reg.LC_CMD) ∧ (s.life.op = none) ∧ (s.life.state ≠ 7) ∧ (s.life.state ≠ 2) ∧ (s.life.state ≠ 4)) ∧
    (let s : State := { ready with life := { state := 4 }, xing := { state := 5 } }; let src : Src := .port 1; (Reaches s src Reg.LC_CMD) ∧ (s.life.op = none) ∧ (s.life.state ≠ 7) ∧ (s.xing.state = 5)) ∧
    (let s : State := { ready with life := { state := 4 } }; let src : Src := .port 1; (Reaches s src Reg.LC_CMD) ∧ (s.life.op = none) ∧ (s.life.state ≠ 7) ∧ (s.life.state = 2 ∨ s.life.state = 4) ∧ (s.xing.state ≠ 5) ∧ (¬ (isLive (slotAt s (hSlot (reg s Reg.LC_HANDLE).toNat)) = true ∧ (slotAt s (hSlot (reg s Reg.LC_HANDLE).toNat)).gen = hGen (reg s Reg.LC_HANDLE).toNat ∧ (slotAt s (hSlot (reg s Reg.LC_HANDLE).toNat)).alg = 0x19 ∧ (slotAt s (hSlot (reg s Reg.LC_HANDLE).toNat)).usage = uDERIVE))) ∧
    (let s : State := { ready with life := { state := 7 } }; let src : Src := .port 1; (Reaches s src Reg.LC_CMD) ∧ (s.life.op = none) ∧ (s.life.state = 7)) ∧
    (let s : State := { ready with life := { op := some { cmd := 2, result := 6 } } }; let src : Src := .port 1; let fails : Nat := 0; (Reaches s src Reg.LC_CMD) ∧ (s.life.op.isSome = true) ∧ (rbit s (rk 0x29 Reg.ERR_SYND) 23 = false)) ∧
    (let s : State := { ready with life := { op := some { cmd := 2, result := 6 } } }; let src : Src := .port 1; (Reaches s src Reg.LC_CMD) ∧ (s.life.op.isSome = true) ∧ (rbit s (rk 0x29 Reg.ERR_SYND) 23 = false)) :=
  by and_intros <;> decide +kernel

/-- States and operands that meet the hypotheses of each clause of LifecycleCommands_2: ends, endsNot. -/
theorem meets_LifecycleCommands_2 :
    (let s : State := { ready with life := { op := some { cmd := 2, result := 6 } } }; let op : LcOp := { cmd := 2, result := 6 }; (s.life.op = some op) ∧ ((s.life.zero && s.mews.zeroising || op.verify.isSome || op.cmd == 2 && custWaits s) = false) ∧ (op.result < 16)) ∧
    (let s : State := { ready with life := { op := some { cmd := 1, result := 0, verify := some 0 } } }; (s.life.op.all (fun op => (s.life.zero && s.mews.zeroising || op.verify.isSome || op.cmd == 2 && custWaits s)) = true)) :=
  by and_intros <;> decide +kernel

/-- States and operands that meet the hypotheses of each clause of CompositeCommands_1: pinTranslate, pinTranslateNot, dukptPinTranslate, dukptPinTranslateNot, dukptMacVerify, dukptMacVerifyNot, dukptOriginate, dukptOriginateNot, emvArqcVerify, emvArqcVerifyNot, emvArpcGenerate, emvArpcGenerateNot, ff1Encrypt, ff1EncryptNot. -/
theorem meets_CompositeCommands_1 :
    (let s : State := setCtx (q7) 4 { q := 7, seq := 1, phase := .placed, d := { opcode := 0x60, mode := 1 }, resv := [.cipher 3] }; let c : CtxNo := 4; let x : Ctx := { q := 7, seq := 1, phase := .placed, d := { opcode := 0x60, mode := 1 }, resv := [.cipher 3] }; (ctxAt s c.val = some x) ∧ (x.d.opcode = 0x60) ∧ (x.phase = .placed) ∧ (x.resv.isEmpty = false) ∧ (x.waitRsv = false)) ∧
    (let s : State := setCtx (q7) 4 { q := 7, seq := 1, phase := .ready, d := { opcode := 0x60, mode := 1 }, resv := [.cipher 3] }; let c : CtxNo := 4; ((ctxAt s c.val).any (fun x => x.d.opcode == 0x60 && decide (x.phase = .placed) && !x.resv.isEmpty && !x.waitRsv) = false)) ∧
    (let s : State := setCtx (q7) 4 { q := 7, seq := 1, phase := .placed, d := { opcode := 0x61, mode := 1 }, resv := [.cipher 3] }; let c : CtxNo := 4; let x : Ctx := { q := 7, seq := 1, phase := .placed, d := { opcode := 0x61, mode := 1 }, resv := [.cipher 3] }; (ctxAt s c.val = some x) ∧ (x.d.opcode = 0x61) ∧ (x.phase = .placed) ∧ (x.resv.isEmpty = false) ∧ (x.waitRsv = false)) ∧
    (let s : State := setCtx (q7) 4 { q := 7, seq := 1, phase := .ready, d := { opcode := 0x61, mode := 1 }, resv := [.cipher 3] }; let c : CtxNo := 4; ((ctxAt s c.val).any (fun x => x.d.opcode == 0x61 && decide (x.phase = .placed) && !x.resv.isEmpty && !x.waitRsv) = false)) ∧
    (let s : State := setCtx (q7) 4 { q := 7, seq := 1, phase := .placed, d := { opcode := 0x62, mode := 1 }, resv := [.cipher 3] }; let c : CtxNo := 4; let x : Ctx := { q := 7, seq := 1, phase := .placed, d := { opcode := 0x62, mode := 1 }, resv := [.cipher 3] }; (ctxAt s c.val = some x) ∧ (x.d.opcode = 0x62) ∧ (x.phase = .placed) ∧ (x.resv.isEmpty = false) ∧ (x.waitRsv = false)) ∧
    (let s : State := setCtx (q7) 4 { q := 7, seq := 1, phase := .ready, d := { opcode := 0x62, mode := 1 }, resv := [.cipher 3] }; let c : CtxNo := 4; ((ctxAt s c.val).any (fun x => x.d.opcode == 0x62 && decide (x.phase = .placed) && !x.resv.isEmpty && !x.waitRsv) = false)) ∧
    (let s : State := setCtx (q7) 4 { q := 7, seq := 1, phase := .placed, d := { opcode := 0x63, mode := 1 }, resv := [.cipher 3] }; let c : CtxNo := 4; let x : Ctx := { q := 7, seq := 1, phase := .placed, d := { opcode := 0x63, mode := 1 }, resv := [.cipher 3] }; (ctxAt s c.val = some x) ∧ (x.d.opcode = 0x63) ∧ (x.phase = .placed) ∧ (x.resv.isEmpty = false) ∧ (x.waitRsv = false)) ∧
    (let s : State := setCtx (q7) 4 { q := 7, seq := 1, phase := .ready, d := { opcode := 0x63, mode := 1 }, resv := [.cipher 3] }; let c : CtxNo := 4; ((ctxAt s c.val).any (fun x => x.d.opcode == 0x63 && decide (x.phase = .placed) && !x.resv.isEmpty && !x.waitRsv) = false)) ∧
    (let s : State := setCtx (q7) 4 { q := 7, seq := 1, phase := .placed, d := { opcode := 0x64, mode := 1 }, resv := [.cipher 3] }; let c : CtxNo := 4; let x : Ctx := { q := 7, seq := 1, phase := .placed, d := { opcode := 0x64, mode := 1 }, resv := [.cipher 3] }; (ctxAt s c.val = some x) ∧ (x.d.opcode = 0x64) ∧ (x.phase = .placed) ∧ (x.resv.isEmpty = false) ∧ (x.waitRsv = false)) ∧
    (let s : State := setCtx (q7) 4 { q := 7, seq := 1, phase := .ready, d := { opcode := 0x64, mode := 1 }, resv := [.cipher 3] }; let c : CtxNo := 4; ((ctxAt s c.val).any (fun x => x.d.opcode == 0x64 && decide (x.phase = .placed) && !x.resv.isEmpty && !x.waitRsv) = false)) ∧
    (let s : State := setCtx (q7) 4 { q := 7, seq := 1, phase := .placed, d := { opcode := 0x65, mode := 1 }, resv := [.cipher 3] }; let c : CtxNo := 4; let x : Ctx := { q := 7, seq := 1, phase := .placed, d := { opcode := 0x65, mode := 1 }, resv := [.cipher 3] }; (ctxAt s c.val = some x) ∧ (x.d.opcode = 0x65) ∧ (x.phase = .placed) ∧ (x.resv.isEmpty = false) ∧ (x.waitRsv = false)) ∧
    (let s : State := setCtx (q7) 4 { q := 7, seq := 1, phase := .ready, d := { opcode := 0x65, mode := 1 }, resv := [.cipher 3] }; let c : CtxNo := 4; ((ctxAt s c.val).any (fun x => x.d.opcode == 0x65 && decide (x.phase = .placed) && !x.resv.isEmpty && !x.waitRsv) = false)) ∧
    (let s : State := setCtx (q7) 4 { q := 7, seq := 1, phase := .placed, d := { opcode := 0x66, mode := 1 }, resv := [.cipher 3] }; let c : CtxNo := 4; let x : Ctx := { q := 7, seq := 1, phase := .placed, d := { opcode := 0x66, mode := 1 }, resv := [.cipher 3] }; (ctxAt s c.val = some x) ∧ (x.d.opcode = 0x66) ∧ (x.phase = .placed) ∧ (x.resv.isEmpty = false) ∧ (x.waitRsv = false)) ∧
    (let s : State := setCtx (q7) 4 { q := 7, seq := 1, phase := .ready, d := { opcode := 0x66, mode := 1 }, resv := [.cipher 3] }; let c : CtxNo := 4; ((ctxAt s c.val).any (fun x => x.d.opcode == 0x66 && decide (x.phase = .placed) && !x.resv.isEmpty && !x.waitRsv) = false)) :=
  by and_intros <;> decide +kernel

/-- States and operands that meet the hypotheses of each clause of CompositeCommands_2: ff1Decrypt, ff1DecryptNot, milenageVector, milenageVectorNot, milenageResync, milenageResyncNot, tuakVector, tuakVectorNot, tuakResync, tuakResyncNot, aka5gDerive, aka5gDeriveNot, step, last. -/
theorem meets_CompositeCommands_2 :
    (let s : State := setCtx (q7) 4 { q := 7, seq := 1, phase := .placed, d := { opcode := 0x67, mode := 1 }, resv := [.cipher 3] }; let c : CtxNo := 4; let x : Ctx := { q := 7, seq := 1, phase := .placed, d := { opcode := 0x67, mode := 1 }, resv := [.cipher 3] }; (ctxAt s c.val = some x) ∧ (x.d.opcode = 0x67) ∧ (x.phase = .placed) ∧ (x.resv.isEmpty = false) ∧ (x.waitRsv = false)) ∧
    (let s : State := setCtx (q7) 4 { q := 7, seq := 1, phase := .ready, d := { opcode := 0x67, mode := 1 }, resv := [.cipher 3] }; let c : CtxNo := 4; ((ctxAt s c.val).any (fun x => x.d.opcode == 0x67 && decide (x.phase = .placed) && !x.resv.isEmpty && !x.waitRsv) = false)) ∧
    (let s : State := setCtx (q7) 4 { q := 7, seq := 1, phase := .placed, d := { opcode := 0x68, mode := 1 }, resv := [.cipher 3] }; let c : CtxNo := 4; let x : Ctx := { q := 7, seq := 1, phase := .placed, d := { opcode := 0x68, mode := 1 }, resv := [.cipher 3] }; (ctxAt s c.val = some x) ∧ (x.d.opcode = 0x68) ∧ (x.d.mode = 1) ∧ (x.phase = .placed) ∧ (x.resv.isEmpty = false) ∧ (x.waitRsv = false)) ∧
    (let s : State := setCtx (q7) 4 { q := 7, seq := 1, phase := .ready, d := { opcode := 0x68, mode := 1 }, resv := [.cipher 3] }; let c : CtxNo := 4; ((ctxAt s c.val).any (fun x => x.d.opcode == 0x68 && x.d.mode == 1 && decide (x.phase = .placed) && !x.resv.isEmpty && !x.waitRsv) = false)) ∧
    (let s : State := setCtx (q7) 4 { q := 7, seq := 1, phase := .placed, d := { opcode := 0x68, mode := 2 }, resv := [.cipher 3] }; let c : CtxNo := 4; let x : Ctx := { q := 7, seq := 1, phase := .placed, d := { opcode := 0x68, mode := 2 }, resv := [.cipher 3] }; (ctxAt s c.val = some x) ∧ (x.d.opcode = 0x68) ∧ (x.d.mode = 2) ∧ (x.phase = .placed) ∧ (x.resv.isEmpty = false) ∧ (x.waitRsv = false)) ∧
    (let s : State := setCtx (q7) 4 { q := 7, seq := 1, phase := .ready, d := { opcode := 0x68, mode := 2 }, resv := [.cipher 3] }; let c : CtxNo := 4; ((ctxAt s c.val).any (fun x => x.d.opcode == 0x68 && x.d.mode == 2 && decide (x.phase = .placed) && !x.resv.isEmpty && !x.waitRsv) = false)) ∧
    (let s : State := setCtx (q7) 4 { q := 7, seq := 1, phase := .placed, d := { opcode := 0x69, mode := 1 }, resv := [.cipher 3] }; let c : CtxNo := 4; let x : Ctx := { q := 7, seq := 1, phase := .placed, d := { opcode := 0x69, mode := 1 }, resv := [.cipher 3] }; (ctxAt s c.val = some x) ∧ (x.d.opcode = 0x69) ∧ (x.d.mode = 1) ∧ (x.phase = .placed) ∧ (x.resv.isEmpty = false) ∧ (x.waitRsv = false)) ∧
    (let s : State := setCtx (q7) 4 { q := 7, seq := 1, phase := .ready, d := { opcode := 0x69, mode := 1 }, resv := [.cipher 3] }; let c : CtxNo := 4; ((ctxAt s c.val).any (fun x => x.d.opcode == 0x69 && x.d.mode == 1 && decide (x.phase = .placed) && !x.resv.isEmpty && !x.waitRsv) = false)) ∧
    (let s : State := setCtx (q7) 4 { q := 7, seq := 1, phase := .placed, d := { opcode := 0x69, mode := 2 }, resv := [.cipher 3] }; let c : CtxNo := 4; let x : Ctx := { q := 7, seq := 1, phase := .placed, d := { opcode := 0x69, mode := 2 }, resv := [.cipher 3] }; (ctxAt s c.val = some x) ∧ (x.d.opcode = 0x69) ∧ (x.d.mode = 2) ∧ (x.phase = .placed) ∧ (x.resv.isEmpty = false) ∧ (x.waitRsv = false)) ∧
    (let s : State := setCtx (q7) 4 { q := 7, seq := 1, phase := .ready, d := { opcode := 0x69, mode := 2 }, resv := [.cipher 3] }; let c : CtxNo := 4; ((ctxAt s c.val).any (fun x => x.d.opcode == 0x69 && x.d.mode == 2 && decide (x.phase = .placed) && !x.resv.isEmpty && !x.waitRsv) = false)) ∧
    (let s : State := setCtx (q7) 4 { q := 7, seq := 1, phase := .placed, d := { opcode := 0x6a, mode := 1 }, resv := [.cipher 3] }; let c : CtxNo := 4; let x : Ctx := { q := 7, seq := 1, phase := .placed, d := { opcode := 0x6a, mode := 1 }, resv := [.cipher 3] }; (ctxAt s c.val = some x) ∧ (x.d.opcode = 0x6a) ∧ (x.phase = .placed) ∧ (x.resv.isEmpty = false) ∧ (x.waitRsv = false)) ∧
    (let s : State := setCtx (q7) 4 { q := 7, seq := 1, phase := .ready, d := { opcode := 0x6a, mode := 1 }, resv := [.cipher 3] }; let c : CtxNo := 4; ((ctxAt s c.val).any (fun x => x.d.opcode == 0x6a && decide (x.phase = .placed) && !x.resv.isEmpty && !x.waitRsv) = false)) ∧
    (let s : State := setCtx (q7) 4 { q := 7, seq := 1, phase := .running, d := { opcode := 0x68, mode := 1 }, resv := [.cipher 3] }; let c : CtxNo := 4; let x : Ctx := { q := 7, seq := 1, phase := .running, d := { opcode := 0x68, mode := 1 }, resv := [.cipher 3] }; let u : Nat := 3; let hit : Option Hit := none; (ctxAt s c.val = some x) ∧ (compLane x = some u) ∧ (0x60 ≤ x.d.opcode) ∧ (x.phase = .running) ∧ (x.stop = none) ∧ (((compSteps s x ((drawn s c.val).getD []))[x.step]?).any (fun f => decide (f.need ≤ x.srcIn.length) && (!f.rnd || (drawn s c.val).isSome)) = true) ∧ ((cunit s u).prim = (cunit s u).chk) ∧ (x.step + 1 < (compSteps s x ((drawn s c.val).getD [])).length)) ∧
    (let s : State := setCtx (q7) 4 { q := 7, seq := 1, phase := .running, step := 2, d := { opcode := 0x60, mode := 0x00 }, resv := [.cipher 3] }; let c : CtxNo := 4; let x : Ctx := { q := 7, seq := 1, phase := .running, step := 2, d := { opcode := 0x60, mode := 0x00 }, resv := [.cipher 3] }; let u : Nat := 3; (ctxAt s c.val = some x) ∧ (compLane x = some u) ∧ (0x60 ≤ x.d.opcode) ∧ (x.phase = .running) ∧ (x.stop = none) ∧ (((compSteps s x ((drawn s c.val).getD []))[x.step]?).any (fun f => decide (f.need ≤ x.srcIn.length) && (!f.rnd || (drawn s c.val).isSome)) = true) ∧ ((cunit s u).prim = (cunit s u).chk) ∧ (x.step + 1 = (compSteps s x ((drawn s c.val).getD [])).length) ∧ (Deliverable s x)) :=
  by and_intros <;> decide +kernel

/-- States and operands that meet the hypotheses of each clause of CompositeCommands_3: disagree, stalls. -/
theorem meets_CompositeCommands_3 :
    (let s : State := setCtx (q7) 4 { q := 7, seq := 1, phase := .running, d := { opcode := 0x68, mode := 1 }, resv := [.cipher 3] }; let c : CtxNo := 4; let x : Ctx := { q := 7, seq := 1, phase := .running, d := { opcode := 0x68, mode := 1 }, resv := [.cipher 3] }; let u : Nat := 3; let pe : CoreErr := { out := [1] }; let ce : CoreErr := {}; let hit : Option Hit := none; (ctxAt s c.val = some x) ∧ (compLane x = some u) ∧ (0x60 ≤ x.d.opcode) ∧ (x.phase = .running) ∧ (((compSteps s x ((drawn s c.val).getD []))[x.step]?).any (fun f => decide (f.need ≤ x.srcIn.length) && (!f.rnd || (drawn s c.val).isSome)) = true) ∧ (((compSteps s x ((drawn s c.val).getD []))[x.step]?).any (fun f => (runStep f (cunit s u).prim pe).store != (runStep f (cunit s u).chk ce).store) = true) ∧ (Deliverable s x)) ∧
    (let s : State := setCtx (q7) 4 { q := 7, seq := 1, phase := .running, d := { opcode := 0x66, mode := 1, len := 8 }, resv := [.cipher 3] }; let c : CtxNo := 4; let x : Ctx := { q := 7, seq := 1, phase := .running, d := { opcode := 0x66, mode := 1, len := 8 }, resv := [.cipher 3] }; let pe : CoreErr := {}; let ce : CoreErr := {}; let hit : Option Hit := none; (ctxAt s c.val = some x) ∧ (0x60 ≤ x.d.opcode) ∧ (x.phase = .running) ∧ (x.stop = none) ∧ (x.srcEnd = none) ∧ (((compSteps s x ((drawn s c.val).getD []))[x.step]?).any (fun f => decide (f.need ≤ x.srcIn.length) && (!f.rnd || (drawn s c.val).isSome)) = false)) :=
  by and_intros <;> decide +kernel

/-- States and operands that meet the hypotheses of each clause of ArcadeOpcodes_1: pkSign, pkSignNot, pkVerify, pkVerifyNot, pkKeypair, pkKeypairNot, pkAgree, pkAgreeNot, kemEncap, kemEncapNot, kemDecap, kemDecapNot, pkEncrypt, pkEncryptNot. -/
theorem meets_ArcadeOpcodes_1 :
    (let s : State := let z := setCtx (q7) 4 { q := 7, seq := 1, phase := .placed, eng := some (.arcade 1), d := { opcode := 0x50, mode := 1, arg := 0 }, srcIn := toLe 9000 5 }; { z with fnt := { z.fnt with got := [(4, [])] } }; let c : CtxNo := 4; let x : Ctx := { q := 7, seq := 1, phase := .placed, eng := some (.arcade 1), d := { opcode := 0x50, mode := 1, arg := 0 }, srcIn := toLe 9000 5 }; let n : ArcNo := 1; (ctxAt s c.val = some x) ∧ (x.d.opcode = 0x50) ∧ (x.eng = some (.arcade n)) ∧ (x.phase = .placed) ∧ (srcNeed x ≤ x.srcIn.length) ∧ (x.stop = none) ∧ (needsFountain x.d = true → (drawn s c.val).isSome = true)) ∧
    (let s : State := setCtx (q7) 4 { q := 7, seq := 1, phase := .ready, eng := some (.arcade 1), d := { opcode := 0x50, mode := 1, arg := 0 }, srcIn := toLe 9000 5 }; let c : CtxNo := 4; ((ctxAt s c.val).any (fun x => x.d.opcode == 0x50 && decide (x.phase = .placed) && decide (srcNeed x ≤ x.srcIn.length) && x.stop.isNone && (!needsFountain x.d || (drawn s c.val).isSome) && x.eng.any fun e => match e with
      | .arcade _ => true
      | _ => false) = false)) ∧
    (let s : State := let z := setCtx (q7) 4 { q := 7, seq := 1, phase := .placed, eng := some (.arcade 1), d := { opcode := 0x51, mode := 1, arg := 0 }, srcIn := toLe 9000 5 }; { z with fnt := { z.fnt with got := [(4, [])] } }; let c : CtxNo := 4; let x : Ctx := { q := 7, seq := 1, phase := .placed, eng := some (.arcade 1), d := { opcode := 0x51, mode := 1, arg := 0 }, srcIn := toLe 9000 5 }; let n : ArcNo := 1; (ctxAt s c.val = some x) ∧ (x.d.opcode = 0x51) ∧ (x.eng = some (.arcade n)) ∧ (x.phase = .placed) ∧ (srcNeed x ≤ x.srcIn.length) ∧ (x.stop = none)) ∧
    (let s : State := setCtx (q7) 4 { q := 7, seq := 1, phase := .ready, eng := some (.arcade 1), d := { opcode := 0x51, mode := 1, arg := 0 }, srcIn := toLe 9000 5 }; let c : CtxNo := 4; ((ctxAt s c.val).any (fun x => x.d.opcode == 0x51 && decide (x.phase = .placed) && decide (srcNeed x ≤ x.srcIn.length) && x.stop.isNone && (!needsFountain x.d || (drawn s c.val).isSome) && x.eng.any fun e => match e with
      | .arcade _ => true
      | _ => false) = false)) ∧
    (let s : State := let z := setCtx (q7) 4 { q := 7, seq := 1, phase := .placed, eng := some (.arcade 1), d := { opcode := 0x52, mode := 1, arg := 0 }, srcIn := toLe 9000 5 }; { z with fnt := { z.fnt with got := [(4, [])] } }; let c : CtxNo := 4; let x : Ctx := { q := 7, seq := 1, phase := .placed, eng := some (.arcade 1), d := { opcode := 0x52, mode := 1, arg := 0 }, srcIn := toLe 9000 5 }; let n : ArcNo := 1; (ctxAt s c.val = some x) ∧ (x.d.opcode = 0x52) ∧ (x.eng = some (.arcade n)) ∧ (x.phase = .placed) ∧ (srcNeed x ≤ x.srcIn.length) ∧ (x.stop = none) ∧ (needsFountain x.d = true → (drawn s c.val).isSome = true)) ∧
    (let s : State := setCtx (q7) 4 { q := 7, seq := 1, phase := .ready, eng := some (.arcade 1), d := { opcode := 0x52, mode := 1, arg := 0 }, srcIn := toLe 9000 5 }; let c : CtxNo := 4; ((ctxAt s c.val).any (fun x => x.d.opcode == 0x52 && decide (x.phase = .placed) && decide (srcNeed x ≤ x.srcIn.length) && x.stop.isNone && (!needsFountain x.d || (drawn s c.val).isSome) && x.eng.any fun e => match e with
      | .arcade _ => true
      | _ => false) = false)) ∧
    (let s : State := let z := setCtx (q7) 4 { q := 7, seq := 1, phase := .placed, eng := some (.arcade 1), d := { opcode := 0x53, mode := 1, arg := 0 }, srcIn := toLe 9000 5 }; { z with fnt := { z.fnt with got := [(4, [])] } }; let c : CtxNo := 4; let x : Ctx := { q := 7, seq := 1, phase := .placed, eng := some (.arcade 1), d := { opcode := 0x53, mode := 1, arg := 0 }, srcIn := toLe 9000 5 }; let n : ArcNo := 1; (ctxAt s c.val = some x) ∧ (x.d.opcode = 0x53) ∧ (x.eng = some (.arcade n)) ∧ (x.phase = .placed) ∧ (srcNeed x ≤ x.srcIn.length) ∧ (x.stop = none) ∧ (needsFountain x.d = true → (drawn s c.val).isSome = true)) ∧
    (let s : State := setCtx (q7) 4 { q := 7, seq := 1, phase := .ready, eng := some (.arcade 1), d := { opcode := 0x53, mode := 1, arg := 0 }, srcIn := toLe 9000 5 }; let c : CtxNo := 4; ((ctxAt s c.val).any (fun x => x.d.opcode == 0x53 && decide (x.phase = .placed) && decide (srcNeed x ≤ x.srcIn.length) && x.stop.isNone && (!needsFountain x.d || (drawn s c.val).isSome) && x.eng.any fun e => match e with
      | .arcade _ => true
      | _ => false) = false)) ∧
    (let s : State := let z := setCtx (q7) 4 { q := 7, seq := 1, phase := .placed, eng := some (.arcade 1), d := { opcode := 0x54, mode := 1, arg := 0 }, srcIn := toLe 9000 5 }; { z with fnt := { z.fnt with got := [(4, [])] } }; let c : CtxNo := 4; let x : Ctx := { q := 7, seq := 1, phase := .placed, eng := some (.arcade 1), d := { opcode := 0x54, mode := 1, arg := 0 }, srcIn := toLe 9000 5 }; let n : ArcNo := 1; (ctxAt s c.val = some x) ∧ (x.d.opcode = 0x54) ∧ (x.eng = some (.arcade n)) ∧ (x.phase = .placed) ∧ (srcNeed x ≤ x.srcIn.length) ∧ (x.stop = none) ∧ (needsFountain x.d = true → (drawn s c.val).isSome = true)) ∧
    (let s : State := setCtx (q7) 4 { q := 7, seq := 1, phase := .ready, eng := some (.arcade 1), d := { opcode := 0x54, mode := 1, arg := 0 }, srcIn := toLe 9000 5 }; let c : CtxNo := 4; ((ctxAt s c.val).any (fun x => x.d.opcode == 0x54 && decide (x.phase = .placed) && decide (srcNeed x ≤ x.srcIn.length) && x.stop.isNone && (!needsFountain x.d || (drawn s c.val).isSome) && x.eng.any fun e => match e with
      | .arcade _ => true
      | _ => false) = false)) ∧
    (let s : State := let z := setCtx (q7) 4 { q := 7, seq := 1, phase := .placed, eng := some (.arcade 1), d := { opcode := 0x55, mode := 1, arg := 0 }, srcIn := toLe 9000 5 }; { z with fnt := { z.fnt with got := [(4, [])] } }; let c : CtxNo := 4; let x : Ctx := { q := 7, seq := 1, phase := .placed, eng := some (.arcade 1), d := { opcode := 0x55, mode := 1, arg := 0 }, srcIn := toLe 9000 5 }; let n : ArcNo := 1; (ctxAt s c.val = some x) ∧ (x.d.opcode = 0x55) ∧ (x.eng = some (.arcade n)) ∧ (x.phase = .placed) ∧ (srcNeed x ≤ x.srcIn.length) ∧ (x.stop = none) ∧ (needsFountain x.d = true → (drawn s c.val).isSome = true)) ∧
    (let s : State := setCtx (q7) 4 { q := 7, seq := 1, phase := .ready, eng := some (.arcade 1), d := { opcode := 0x55, mode := 1, arg := 0 }, srcIn := toLe 9000 5 }; let c : CtxNo := 4; ((ctxAt s c.val).any (fun x => x.d.opcode == 0x55 && decide (x.phase = .placed) && decide (srcNeed x ≤ x.srcIn.length) && x.stop.isNone && (!needsFountain x.d || (drawn s c.val).isSome) && x.eng.any fun e => match e with
      | .arcade _ => true
      | _ => false) = false)) ∧
    (let s : State := let z := setCtx (q7) 4 { q := 7, seq := 1, phase := .placed, eng := some (.arcade 1), d := { opcode := 0x56, mode := 1, arg := 0 }, srcIn := toLe 9000 5 }; { z with fnt := { z.fnt with got := [(4, [])] } }; let c : CtxNo := 4; let x : Ctx := { q := 7, seq := 1, phase := .placed, eng := some (.arcade 1), d := { opcode := 0x56, mode := 1, arg := 0 }, srcIn := toLe 9000 5 }; let n : ArcNo := 1; (ctxAt s c.val = some x) ∧ (x.d.opcode = 0x56) ∧ (x.eng = some (.arcade n)) ∧ (x.phase = .placed) ∧ (srcNeed x ≤ x.srcIn.length) ∧ (x.stop = none) ∧ (needsFountain x.d = true → (drawn s c.val).isSome = true)) ∧
    (let s : State := setCtx (q7) 4 { q := 7, seq := 1, phase := .ready, eng := some (.arcade 1), d := { opcode := 0x56, mode := 1, arg := 0 }, srcIn := toLe 9000 5 }; let c : CtxNo := 4; ((ctxAt s c.val).any (fun x => x.d.opcode == 0x56 && decide (x.phase = .placed) && decide (srcNeed x ≤ x.srcIn.length) && x.stop.isNone && (!needsFountain x.d || (drawn s c.val).isSome) && x.eng.any fun e => match e with
      | .arcade _ => true
      | _ => false) = false)) :=
  by and_intros <;> decide +kernel

/-- States and operands that meet the hypotheses of each clause of ArcadeOpcodes_2: pkDecrypt, pkDecryptNot, modAdd, modAddNot, modSub, modSubNot, modMul, modMulNot, modInv, modInvNot, modExp, modExpNot, ptAdd, ptAddNot. -/
theorem meets_ArcadeOpcodes_2 :
    (let s : State := let z := setCtx (q7) 4 { q := 7, seq := 1, phase := .placed, eng := some (.arcade 1), d := { opcode := 0x57, mode := 1, arg := 0 }, srcIn := toLe 9000 5 }; { z with fnt := { z.fnt with got := [(4, [])] } }; let c : CtxNo := 4; let x : Ctx := { q := 7, seq := 1, phase := .placed, eng := some (.arcade 1), d := { opcode := 0x57, mode := 1, arg := 0 }, srcIn := toLe 9000 5 }; let n : ArcNo := 1; (ctxAt s c.val = some x) ∧ (x.d.opcode = 0x57) ∧ (x.eng = some (.arcade n)) ∧ (x.phase = .placed) ∧ (srcNeed x ≤ x.srcIn.length) ∧ (x.stop = none) ∧ (needsFountain x.d = true → (drawn s c.val).isSome = true)) ∧
    (let s : State := setCtx (q7) 4 { q := 7, seq := 1, phase := .ready, eng := some (.arcade 1), d := { opcode := 0x57, mode := 1, arg := 0 }, srcIn := toLe 9000 5 }; let c : CtxNo := 4; ((ctxAt s c.val).any (fun x => x.d.opcode == 0x57 && decide (x.phase = .placed) && decide (srcNeed x ≤ x.srcIn.length) && x.stop.isNone && (!needsFountain x.d || (drawn s c.val).isSome) && x.eng.any fun e => match e with
      | .arcade _ => true
      | _ => false) = false)) ∧
    (let s : State := let z := setCtx (q7) 4 { q := 7, seq := 1, phase := .placed, eng := some (.arcade 1), d := { opcode := 0x58, mode := 1, arg := 1 }, srcIn := toLe 9000 5 }; { z with fnt := { z.fnt with got := [(4, [])] } }; let c : CtxNo := 4; let x : Ctx := { q := 7, seq := 1, phase := .placed, eng := some (.arcade 1), d := { opcode := 0x58, mode := 1, arg := 1 }, srcIn := toLe 9000 5 }; let n : ArcNo := 1; (ctxAt s c.val = some x) ∧ (x.d.opcode = 0x58) ∧ (x.d.mode = 1) ∧ (arcFunc x.d = 0x01) ∧ (x.eng = some (.arcade n)) ∧ (x.phase = .placed) ∧ (srcNeed x ≤ x.srcIn.length) ∧ (x.stop = none)) ∧
    (let s : State := setCtx (q7) 4 { q := 7, seq := 1, phase := .ready, eng := some (.arcade 1), d := { opcode := 0x58, mode := 1, arg := 1 }, srcIn := toLe 9000 5 }; let c : CtxNo := 4; ((ctxAt s c.val).any (fun x => x.d.opcode == 0x58 && x.d.mode == 1 && arcFunc x.d == 0x01 && decide (x.phase = .placed) && decide (srcNeed x ≤ x.srcIn.length) && x.stop.isNone && (!needsFountain x.d || (drawn s c.val).isSome) && x.eng.any fun e => match e with
      | .arcade _ => true
      | _ => false) = false)) ∧
    (let s : State := let z := setCtx (q7) 4 { q := 7, seq := 1, phase := .placed, eng := some (.arcade 1), d := { opcode := 0x58, mode := 1, arg := 2 }, srcIn := toLe 9000 5 }; { z with fnt := { z.fnt with got := [(4, [])] } }; let c : CtxNo := 4; let x : Ctx := { q := 7, seq := 1, phase := .placed, eng := some (.arcade 1), d := { opcode := 0x58, mode := 1, arg := 2 }, srcIn := toLe 9000 5 }; let n : ArcNo := 1; (ctxAt s c.val = some x) ∧ (x.d.opcode = 0x58) ∧ (x.d.mode = 1) ∧ (arcFunc x.d = 0x02) ∧ (x.eng = some (.arcade n)) ∧ (x.phase = .placed) ∧ (srcNeed x ≤ x.srcIn.length) ∧ (x.stop = none)) ∧
    (let s : State := setCtx (q7) 4 { q := 7, seq := 1, phase := .ready, eng := some (.arcade 1), d := { opcode := 0x58, mode := 1, arg := 2 }, srcIn := toLe 9000 5 }; let c : CtxNo := 4; ((ctxAt s c.val).any (fun x => x.d.opcode == 0x58 && x.d.mode == 1 && arcFunc x.d == 0x02 && decide (x.phase = .placed) && decide (srcNeed x ≤ x.srcIn.length) && x.stop.isNone && (!needsFountain x.d || (drawn s c.val).isSome) && x.eng.any fun e => match e with
      | .arcade _ => true
      | _ => false) = false)) ∧
    (let s : State := let z := setCtx (q7) 4 { q := 7, seq := 1, phase := .placed, eng := some (.arcade 1), d := { opcode := 0x58, mode := 1, arg := 3 }, srcIn := toLe 9000 5 }; { z with fnt := { z.fnt with got := [(4, [])] } }; let c : CtxNo := 4; let x : Ctx := { q := 7, seq := 1, phase := .placed, eng := some (.arcade 1), d := { opcode := 0x58, mode := 1, arg := 3 }, srcIn := toLe 9000 5 }; let n : ArcNo := 1; (ctxAt s c.val = some x) ∧ (x.d.opcode = 0x58) ∧ (x.d.mode = 1) ∧ (arcFunc x.d = 0x03) ∧ (x.eng = some (.arcade n)) ∧ (x.phase = .placed) ∧ (srcNeed x ≤ x.srcIn.length) ∧ (x.stop = none)) ∧
    (let s : State := setCtx (q7) 4 { q := 7, seq := 1, phase := .ready, eng := some (.arcade 1), d := { opcode := 0x58, mode := 1, arg := 3 }, srcIn := toLe 9000 5 }; let c : CtxNo := 4; ((ctxAt s c.val).any (fun x => x.d.opcode == 0x58 && x.d.mode == 1 && arcFunc x.d == 0x03 && decide (x.phase = .placed) && decide (srcNeed x ≤ x.srcIn.length) && x.stop.isNone && (!needsFountain x.d || (drawn s c.val).isSome) && x.eng.any fun e => match e with
      | .arcade _ => true
      | _ => false) = false)) ∧
    (let s : State := let z := setCtx (q7) 4 { q := 7, seq := 1, phase := .placed, eng := some (.arcade 1), d := { opcode := 0x58, mode := 1, arg := 4 }, srcIn := toLe 9000 5 }; { z with fnt := { z.fnt with got := [(4, [])] } }; let c : CtxNo := 4; let x : Ctx := { q := 7, seq := 1, phase := .placed, eng := some (.arcade 1), d := { opcode := 0x58, mode := 1, arg := 4 }, srcIn := toLe 9000 5 }; let n : ArcNo := 1; (ctxAt s c.val = some x) ∧ (x.d.opcode = 0x58) ∧ (x.d.mode = 1) ∧ (arcFunc x.d = 0x04) ∧ (x.eng = some (.arcade n)) ∧ (x.phase = .placed) ∧ (srcNeed x ≤ x.srcIn.length) ∧ (x.stop = none)) ∧
    (let s : State := setCtx (q7) 4 { q := 7, seq := 1, phase := .ready, eng := some (.arcade 1), d := { opcode := 0x58, mode := 1, arg := 4 }, srcIn := toLe 9000 5 }; let c : CtxNo := 4; ((ctxAt s c.val).any (fun x => x.d.opcode == 0x58 && x.d.mode == 1 && arcFunc x.d == 0x04 && decide (x.phase = .placed) && decide (srcNeed x ≤ x.srcIn.length) && x.stop.isNone && (!needsFountain x.d || (drawn s c.val).isSome) && x.eng.any fun e => match e with
      | .arcade _ => true
      | _ => false) = false)) ∧
    (let s : State := let z := setCtx (q7) 4 { q := 7, seq := 1, phase := .placed, eng := some (.arcade 1), d := { opcode := 0x58, mode := 1, arg := 5 }, srcIn := toLe 9000 5 }; { z with fnt := { z.fnt with got := [(4, [])] } }; let c : CtxNo := 4; let x : Ctx := { q := 7, seq := 1, phase := .placed, eng := some (.arcade 1), d := { opcode := 0x58, mode := 1, arg := 5 }, srcIn := toLe 9000 5 }; let n : ArcNo := 1; (ctxAt s c.val = some x) ∧ (x.d.opcode = 0x58) ∧ (x.d.mode = 1) ∧ (arcFunc x.d = 0x05) ∧ (x.eng = some (.arcade n)) ∧ (x.phase = .placed) ∧ (srcNeed x ≤ x.srcIn.length) ∧ (x.stop = none)) ∧
    (let s : State := setCtx (q7) 4 { q := 7, seq := 1, phase := .ready, eng := some (.arcade 1), d := { opcode := 0x58, mode := 1, arg := 5 }, srcIn := toLe 9000 5 }; let c : CtxNo := 4; ((ctxAt s c.val).any (fun x => x.d.opcode == 0x58 && x.d.mode == 1 && arcFunc x.d == 0x05 && decide (x.phase = .placed) && decide (srcNeed x ≤ x.srcIn.length) && x.stop.isNone && (!needsFountain x.d || (drawn s c.val).isSome) && x.eng.any fun e => match e with
      | .arcade _ => true
      | _ => false) = false)) ∧
    (let s : State := let z := setCtx (q7) 4 { q := 7, seq := 1, phase := .placed, eng := some (.arcade 1), d := { opcode := 0x58, mode := 2, arg := 17 }, srcIn := toLe 9000 5 }; { z with fnt := { z.fnt with got := [(4, [])] } }; let c : CtxNo := 4; let x : Ctx := { q := 7, seq := 1, phase := .placed, eng := some (.arcade 1), d := { opcode := 0x58, mode := 2, arg := 17 }, srcIn := toLe 9000 5 }; let n : ArcNo := 1; (ctxAt s c.val = some x) ∧ (x.d.opcode = 0x58) ∧ (x.d.mode = 2) ∧ (arcFunc x.d = 0x11) ∧ (x.eng = some (.arcade n)) ∧ (x.phase = .placed) ∧ (srcNeed x ≤ x.srcIn.length) ∧ (x.stop = none)) ∧
    (let s : State := setCtx (q7) 4 { q := 7, seq := 1, phase := .ready, eng := some (.arcade 1), d := { opcode := 0x58, mode := 2, arg := 17 }, srcIn := toLe 9000 5 }; let c : CtxNo := 4; ((ctxAt s c.val).any (fun x => x.d.opcode == 0x58 && x.d.mode == 2 && arcFunc x.d == 0x11 && decide (x.phase = .placed) && decide (srcNeed x ≤ x.srcIn.length) && x.stop.isNone && (!needsFountain x.d || (drawn s c.val).isSome) && x.eng.any fun e => match e with
      | .arcade _ => true
      | _ => false) = false)) :=
  by and_intros <;> decide +kernel

/-- States and operands that meet the hypotheses of each clause of ArcadeOpcodes_3: ptDbl, ptDblNot, ptMul, ptMulNot, ptMulG, ptMulGNot, ptCheck, ptCheckNot, curveLoad, curveLoadNot, curveFree, curveFreeNot, ntt, nttNot. -/
theorem meets_ArcadeOpcodes_3 :
    (let s : State := let z := setCtx (q7) 4 { q := 7, seq := 1, phase := .placed, eng := some (.arcade 1), d := { opcode := 0x58, mode := 2, arg := 18 }, srcIn := toLe 9000 5 }; { z with fnt := { z.fnt with got := [(4, [])] } }; let c : CtxNo := 4; let x : Ctx := { q := 7, seq := 1, phase := .placed, eng := some (.arcade 1), d := { opcode := 0x58, mode := 2, arg := 18 }, srcIn := toLe 9000 5 }; let n : ArcNo := 1; (ctxAt s c.val = some x) ∧ (x.d.opcode = 0x58) ∧ (x.d.mode = 2) ∧ (arcFunc x.d = 0x12) ∧ (x.eng = some (.arcade n)) ∧ (x.phase = .placed) ∧ (srcNeed x ≤ x.srcIn.length) ∧ (x.stop = none)) ∧
    (let s : State := setCtx (q7) 4 { q := 7, seq := 1, phase := .ready, eng := some (.arcade 1), d := { opcode := 0x58, mode := 2, arg := 18 }, srcIn := toLe 9000 5 }; let c : CtxNo := 4; ((ctxAt s c.val).any (fun x => x.d.opcode == 0x58 && x.d.mode == 2 && arcFunc x.d == 0x12 && decide (x.phase = .placed) && decide (srcNeed x ≤ x.srcIn.length) && x.stop.isNone && (!needsFountain x.d || (drawn s c.val).isSome) && x.eng.any fun e => match e with
      | .arcade _ => true
      | _ => false) = false)) ∧
    (let s : State := let z := setCtx (q7) 4 { q := 7, seq := 1, phase := .placed, eng := some (.arcade 1), d := { opcode := 0x58, mode := 2, arg := 19 }, srcIn := toLe 9000 5 }; { z with fnt := { z.fnt with got := [(4, [])] } }; let c : CtxNo := 4; let x : Ctx := { q := 7, seq := 1, phase := .placed, eng := some (.arcade 1), d := { opcode := 0x58, mode := 2, arg := 19 }, srcIn := toLe 9000 5 }; let n : ArcNo := 1; (ctxAt s c.val = some x) ∧ (x.d.opcode = 0x58) ∧ (x.d.mode = 2) ∧ (arcFunc x.d = 0x13) ∧ (x.eng = some (.arcade n)) ∧ (x.phase = .placed) ∧ (srcNeed x ≤ x.srcIn.length) ∧ (x.stop = none) ∧ (needsFountain x.d = true → (drawn s c.val).isSome = true)) ∧
    (let s : State := setCtx (q7) 4 { q := 7, seq := 1, phase := .ready, eng := some (.arcade 1), d := { opcode := 0x58, mode := 2, arg := 19 }, srcIn := toLe 9000 5 }; let c : CtxNo := 4; ((ctxAt s c.val).any (fun x => x.d.opcode == 0x58 && x.d.mode == 2 && arcFunc x.d == 0x13 && decide (x.phase = .placed) && decide (srcNeed x ≤ x.srcIn.length) && x.stop.isNone && (!needsFountain x.d || (drawn s c.val).isSome) && x.eng.any fun e => match e with
      | .arcade _ => true
      | _ => false) = false)) ∧
    (let s : State := let z := setCtx (q7) 4 { q := 7, seq := 1, phase := .placed, eng := some (.arcade 1), d := { opcode := 0x58, mode := 2, arg := 20 }, srcIn := toLe 9000 5 }; { z with fnt := { z.fnt with got := [(4, [])] } }; let c : CtxNo := 4; let x : Ctx := { q := 7, seq := 1, phase := .placed, eng := some (.arcade 1), d := { opcode := 0x58, mode := 2, arg := 20 }, srcIn := toLe 9000 5 }; let n : ArcNo := 1; (ctxAt s c.val = some x) ∧ (x.d.opcode = 0x58) ∧ (x.d.mode = 2) ∧ (arcFunc x.d = 0x14) ∧ (x.eng = some (.arcade n)) ∧ (x.phase = .placed) ∧ (srcNeed x ≤ x.srcIn.length) ∧ (x.stop = none) ∧ (needsFountain x.d = true → (drawn s c.val).isSome = true)) ∧
    (let s : State := setCtx (q7) 4 { q := 7, seq := 1, phase := .ready, eng := some (.arcade 1), d := { opcode := 0x58, mode := 2, arg := 20 }, srcIn := toLe 9000 5 }; let c : CtxNo := 4; ((ctxAt s c.val).any (fun x => x.d.opcode == 0x58 && x.d.mode == 2 && arcFunc x.d == 0x14 && decide (x.phase = .placed) && decide (srcNeed x ≤ x.srcIn.length) && x.stop.isNone && (!needsFountain x.d || (drawn s c.val).isSome) && x.eng.any fun e => match e with
      | .arcade _ => true
      | _ => false) = false)) ∧
    (let s : State := let z := setCtx (q7) 4 { q := 7, seq := 1, phase := .placed, eng := some (.arcade 1), d := { opcode := 0x58, mode := 2, arg := 21 }, srcIn := toLe 9000 5 }; { z with fnt := { z.fnt with got := [(4, [])] } }; let c : CtxNo := 4; let x : Ctx := { q := 7, seq := 1, phase := .placed, eng := some (.arcade 1), d := { opcode := 0x58, mode := 2, arg := 21 }, srcIn := toLe 9000 5 }; let n : ArcNo := 1; (ctxAt s c.val = some x) ∧ (x.d.opcode = 0x58) ∧ (x.d.mode = 2) ∧ (arcFunc x.d = 0x15) ∧ (x.eng = some (.arcade n)) ∧ (x.phase = .placed) ∧ (srcNeed x ≤ x.srcIn.length) ∧ (x.stop = none)) ∧
    (let s : State := setCtx (q7) 4 { q := 7, seq := 1, phase := .ready, eng := some (.arcade 1), d := { opcode := 0x58, mode := 2, arg := 21 }, srcIn := toLe 9000 5 }; let c : CtxNo := 4; ((ctxAt s c.val).any (fun x => x.d.opcode == 0x58 && x.d.mode == 2 && arcFunc x.d == 0x15 && decide (x.phase = .placed) && decide (srcNeed x ≤ x.srcIn.length) && x.stop.isNone && (!needsFountain x.d || (drawn s c.val).isSome) && x.eng.any fun e => match e with
      | .arcade _ => true
      | _ => false) = false)) ∧
    (let s : State := let z := setCtx (q7) 4 { q := 7, seq := 1, phase := .placed, eng := some (.arcade 1), d := { opcode := 0x58, mode := 2, arg := 22 }, srcIn := toLe 9000 5 }; { z with fnt := { z.fnt with got := [(4, [])] } }; let c : CtxNo := 4; let x : Ctx := { q := 7, seq := 1, phase := .placed, eng := some (.arcade 1), d := { opcode := 0x58, mode := 2, arg := 22 }, srcIn := toLe 9000 5 }; let n : ArcNo := 1; (ctxAt s c.val = some x) ∧ (x.d.opcode = 0x58) ∧ (x.d.mode = 2) ∧ (arcFunc x.d = 0x16) ∧ (x.eng = some (.arcade n)) ∧ (x.phase = .placed) ∧ (srcNeed x ≤ x.srcIn.length) ∧ (x.stop = none) ∧ (needsFountain x.d = true → (drawn s c.val).isSome = true)) ∧
    (let s : State := setCtx (q7) 4 { q := 7, seq := 1, phase := .ready, eng := some (.arcade 1), d := { opcode := 0x58, mode := 2, arg := 22 }, srcIn := toLe 9000 5 }; let c : CtxNo := 4; ((ctxAt s c.val).any (fun x => x.d.opcode == 0x58 && x.d.mode == 2 && arcFunc x.d == 0x16 && decide (x.phase = .placed) && decide (srcNeed x ≤ x.srcIn.length) && x.stop.isNone && (!needsFountain x.d || (drawn s c.val).isSome) && x.eng.any fun e => match e with
      | .arcade _ => true
      | _ => false) = false)) ∧
    (let s : State := let z := setCtx (q7) 4 { q := 7, seq := 1, phase := .placed, eng := some (.arcade 1), d := { opcode := 0x58, mode := 2, arg := 23 }, srcIn := toLe 9000 5 }; { z with fnt := { z.fnt with got := [(4, [])] } }; let c : CtxNo := 4; let x : Ctx := { q := 7, seq := 1, phase := .placed, eng := some (.arcade 1), d := { opcode := 0x58, mode := 2, arg := 23 }, srcIn := toLe 9000 5 }; let n : ArcNo := 1; (ctxAt s c.val = some x) ∧ (x.d.opcode = 0x58) ∧ (x.d.mode = 2) ∧ (arcFunc x.d = 0x17) ∧ (x.eng = some (.arcade n)) ∧ (x.phase = .placed) ∧ (srcNeed x ≤ x.srcIn.length) ∧ (x.stop = none)) ∧
    (let s : State := setCtx (q7) 4 { q := 7, seq := 1, phase := .ready, eng := some (.arcade 1), d := { opcode := 0x58, mode := 2, arg := 23 }, srcIn := toLe 9000 5 }; let c : CtxNo := 4; ((ctxAt s c.val).any (fun x => x.d.opcode == 0x58 && x.d.mode == 2 && arcFunc x.d == 0x17 && decide (x.phase = .placed) && decide (srcNeed x ≤ x.srcIn.length) && x.stop.isNone && (!needsFountain x.d || (drawn s c.val).isSome) && x.eng.any fun e => match e with
      | .arcade _ => true
      | _ => false) = false)) ∧
    (let s : State := let z := setCtx (q7) 4 { q := 7, seq := 1, phase := .placed, eng := some (.arcade 1), d := { opcode := 0x58, mode := 3, arg := 33 }, srcIn := toLe 9000 5 }; { z with fnt := { z.fnt with got := [(4, [])] } }; let c : CtxNo := 4; let x : Ctx := { q := 7, seq := 1, phase := .placed, eng := some (.arcade 1), d := { opcode := 0x58, mode := 3, arg := 33 }, srcIn := toLe 9000 5 }; let n : ArcNo := 1; (ctxAt s c.val = some x) ∧ (x.d.opcode = 0x58) ∧ (x.d.mode = 3) ∧ (arcFunc x.d = 0x21) ∧ (x.eng = some (.arcade n)) ∧ (x.phase = .placed) ∧ (srcNeed x ≤ x.srcIn.length) ∧ (x.stop = none)) ∧
    (let s : State := setCtx (q7) 4 { q := 7, seq := 1, phase := .ready, eng := some (.arcade 1), d := { opcode := 0x58, mode := 3, arg := 33 }, srcIn := toLe 9000 5 }; let c : CtxNo := 4; ((ctxAt s c.val).any (fun x => x.d.opcode == 0x58 && x.d.mode == 3 && arcFunc x.d == 0x21 && decide (x.phase = .placed) && decide (srcNeed x ≤ x.srcIn.length) && x.stop.isNone && (!needsFountain x.d || (drawn s c.val).isSome) && x.eng.any fun e => match e with
      | .arcade _ => true
      | _ => false) = false)) :=
  by and_intros <;> decide +kernel

/-- States and operands that meet the hypotheses of each clause of ArcadeOpcodes_4: intt, inttNot, pmul, pmulNot, padd, paddNot, psub, psubNot. -/
theorem meets_ArcadeOpcodes_4 :
    (let s : State := let z := setCtx (q7) 4 { q := 7, seq := 1, phase := .placed, eng := some (.arcade 1), d := { opcode := 0x58, mode := 3, arg := 34 }, srcIn := toLe 9000 5 }; { z with fnt := { z.fnt with got := [(4, [])] } }; let c : CtxNo := 4; let x : Ctx := { q := 7, seq := 1, phase := .placed, eng := some (.arcade 1), d := { opcode := 0x58, mode := 3, arg := 34 }, srcIn := toLe 9000 5 }; let n : ArcNo := 1; (ctxAt s c.val = some x) ∧ (x.d.opcode = 0x58) ∧ (x.d.mode = 3) ∧ (arcFunc x.d = 0x22) ∧ (x.eng = some (.arcade n)) ∧ (x.phase = .placed) ∧ (srcNeed x ≤ x.srcIn.length) ∧ (x.stop = none)) ∧
    (let s : State := setCtx (q7) 4 { q := 7, seq := 1, phase := .ready, eng := some (.arcade 1), d := { opcode := 0x58, mode := 3, arg := 34 }, srcIn := toLe 9000 5 }; let c : CtxNo := 4; ((ctxAt s c.val).any (fun x => x.d.opcode == 0x58 && x.d.mode == 3 && arcFunc x.d == 0x22 && decide (x.phase = .placed) && decide (srcNeed x ≤ x.srcIn.length) && x.stop.isNone && (!needsFountain x.d || (drawn s c.val).isSome) && x.eng.any fun e => match e with
      | .arcade _ => true
      | _ => false) = false)) ∧
    (let s : State := let z := setCtx (q7) 4 { q := 7, seq := 1, phase := .placed, eng := some (.arcade 1), d := { opcode := 0x58, mode := 3, arg := 35 }, srcIn := toLe 9000 5 }; { z with fnt := { z.fnt with got := [(4, [])] } }; let c : CtxNo := 4; let x : Ctx := { q := 7, seq := 1, phase := .placed, eng := some (.arcade 1), d := { opcode := 0x58, mode := 3, arg := 35 }, srcIn := toLe 9000 5 }; let n : ArcNo := 1; (ctxAt s c.val = some x) ∧ (x.d.opcode = 0x58) ∧ (x.d.mode = 3) ∧ (arcFunc x.d = 0x23) ∧ (x.eng = some (.arcade n)) ∧ (x.phase = .placed) ∧ (srcNeed x ≤ x.srcIn.length) ∧ (x.stop = none)) ∧
    (let s : State := setCtx (q7) 4 { q := 7, seq := 1, phase := .ready, eng := some (.arcade 1), d := { opcode := 0x58, mode := 3, arg := 35 }, srcIn := toLe 9000 5 }; let c : CtxNo := 4; ((ctxAt s c.val).any (fun x => x.d.opcode == 0x58 && x.d.mode == 3 && arcFunc x.d == 0x23 && decide (x.phase = .placed) && decide (srcNeed x ≤ x.srcIn.length) && x.stop.isNone && (!needsFountain x.d || (drawn s c.val).isSome) && x.eng.any fun e => match e with
      | .arcade _ => true
      | _ => false) = false)) ∧
    (let s : State := let z := setCtx (q7) 4 { q := 7, seq := 1, phase := .placed, eng := some (.arcade 1), d := { opcode := 0x58, mode := 3, arg := 36 }, srcIn := toLe 9000 5 }; { z with fnt := { z.fnt with got := [(4, [])] } }; let c : CtxNo := 4; let x : Ctx := { q := 7, seq := 1, phase := .placed, eng := some (.arcade 1), d := { opcode := 0x58, mode := 3, arg := 36 }, srcIn := toLe 9000 5 }; let n : ArcNo := 1; (ctxAt s c.val = some x) ∧ (x.d.opcode = 0x58) ∧ (x.d.mode = 3) ∧ (arcFunc x.d = 0x24) ∧ (x.eng = some (.arcade n)) ∧ (x.phase = .placed) ∧ (srcNeed x ≤ x.srcIn.length) ∧ (x.stop = none)) ∧
    (let s : State := setCtx (q7) 4 { q := 7, seq := 1, phase := .ready, eng := some (.arcade 1), d := { opcode := 0x58, mode := 3, arg := 36 }, srcIn := toLe 9000 5 }; let c : CtxNo := 4; ((ctxAt s c.val).any (fun x => x.d.opcode == 0x58 && x.d.mode == 3 && arcFunc x.d == 0x24 && decide (x.phase = .placed) && decide (srcNeed x ≤ x.srcIn.length) && x.stop.isNone && (!needsFountain x.d || (drawn s c.val).isSome) && x.eng.any fun e => match e with
      | .arcade _ => true
      | _ => false) = false)) ∧
    (let s : State := let z := setCtx (q7) 4 { q := 7, seq := 1, phase := .placed, eng := some (.arcade 1), d := { opcode := 0x58, mode := 3, arg := 37 }, srcIn := toLe 9000 5 }; { z with fnt := { z.fnt with got := [(4, [])] } }; let c : CtxNo := 4; let x : Ctx := { q := 7, seq := 1, phase := .placed, eng := some (.arcade 1), d := { opcode := 0x58, mode := 3, arg := 37 }, srcIn := toLe 9000 5 }; let n : ArcNo := 1; (ctxAt s c.val = some x) ∧ (x.d.opcode = 0x58) ∧ (x.d.mode = 3) ∧ (arcFunc x.d = 0x25) ∧ (x.eng = some (.arcade n)) ∧ (x.phase = .placed) ∧ (srcNeed x ≤ x.srcIn.length) ∧ (x.stop = none)) ∧
    (let s : State := setCtx (q7) 4 { q := 7, seq := 1, phase := .ready, eng := some (.arcade 1), d := { opcode := 0x58, mode := 3, arg := 37 }, srcIn := toLe 9000 5 }; let c : CtxNo := 4; ((ctxAt s c.val).any (fun x => x.d.opcode == 0x58 && x.d.mode == 3 && arcFunc x.d == 0x25 && decide (x.phase = .placed) && decide (srcNeed x ≤ x.srcIn.length) && x.stop.isNone && (!needsFountain x.d || (drawn s c.val).isSome) && x.eng.any fun e => match e with
      | .arcade _ => true
      | _ => false) = false)) :=
  by and_intros <;> decide +kernel

/-- States and operands that meet the hypotheses of each clause of ModularResults: add, addRejected, sub, subRejected, mul, mulRejected, inv, invRejected, exp, expRejected. -/
theorem meets_ModularResults :
    (let s : State := let z := setCtx (q7) 4 { q := 7, seq := 1, phase := .running, eng := some (.arcade 1), d := { opcode := 0x58, mode := 1, arg := 1 + 0x100, dst := 0x3000 }, param := toLe 2 1 ++ toLe 2 1 }; { z with units := { arc := [(1, { kat := false, ctx := some 4, mem := { modulus := toBe 8 1000003, input := toBe 8 1000003 ++ toBe 8 999999 ++ toBe 8 77777 } })] } }; let n : ArcNo := 1; let c : CtxNo := 4; let x : Ctx := { q := 7, seq := 1, phase := .running, eng := some (.arcade 1), d := { opcode := 0x58, mode := 1, arg := 1 + 0x100, dst := 0x3000 }, param := toLe 2 1 ++ toLe 2 1 }; ((aunit s n.val).ctx = some c.val) ∧ (ctxAt s c.val = some x) ∧ (x.phase = .running) ∧ (x.d.opcode = 0x58) ∧ (x.d.mode = 1) ∧ (arcFunc x.d = 0x01) ∧ (0 < lWords x) ∧ (lWords x ≤ 256) ∧ (x.d.dstSgl = false) ∧ (x.wrote = 0) ∧ (x.dstChk = 0) ∧ (covered (queueAt s x.q) true x.d.dst (freeB x) = true) ∧ (linkUp s (fnPort (qFunc (queueAt s x.q))) = true) ∧ (freeN (aunit s n.val).mem % 2 = 1) ∧ (3 ≤ freeN (aunit s n.val).mem) ∧ (freeOp x (aunit s n.val).mem 1 < freeN (aunit s n.val).mem) ∧ (freeOp x (aunit s n.val).mem 2 < freeN (aunit s n.val).mem)) ∧
    (let s : State := let z := setCtx (q7) 4 { q := 7, seq := 1, phase := .running, eng := some (.arcade 1), d := { opcode := 0x58, mode := 1, arg := 1 + 0x100, dst := 0x3000 }, param := toLe 2 1 ++ toLe 2 1 }; { z with units := { arc := [(1, { kat := false, ctx := some 4, mem := { modulus := toBe 8 1000003, input := toBe 8 1000003 ++ toBe 8 1999999 ++ toBe 8 77777 } })] } }; let n : ArcNo := 1; let c : CtxNo := 4; let x : Ctx := { q := 7, seq := 1, phase := .running, eng := some (.arcade 1), d := { opcode := 0x58, mode := 1, arg := 1 + 0x100, dst := 0x3000 }, param := toLe 2 1 ++ toLe 2 1 }; let err : Bytes := []; let hit : Option Hit := none; ((aunit s n.val).ctx = some c.val) ∧ (ctxAt s c.val = some x) ∧ (x.phase = .running) ∧ (x.d.opcode = 0x58) ∧ (x.d.mode = 1) ∧ (arcFunc x.d = 0x01) ∧ (freeN (aunit s n.val).mem % 2 = 0 ∨ freeN (aunit s n.val).mem < 3 ∨ freeN (aunit s n.val).mem ≤ freeOp x (aunit s n.val).mem 1 ∨ freeN (aunit s n.val).mem ≤ freeOp x (aunit s n.val).mem 2)) ∧
    (let s : State := let z := setCtx (q7) 4 { q := 7, seq := 1, phase := .running, eng := some (.arcade 1), d := { opcode := 0x58, mode := 1, arg := 2 + 0x100, dst := 0x3000 }, param := toLe 2 1 ++ toLe 2 1 }; { z with units := { arc := [(1, { kat := false, ctx := some 4, mem := { modulus := toBe 8 1000003, input := toBe 8 1000003 ++ toBe 8 999999 ++ toBe 8 77777 } })] } }; let n : ArcNo := 1; let c : CtxNo := 4; let x : Ctx := { q := 7, seq := 1, phase := .running, eng := some (.arcade 1), d := { opcode := 0x58, mode := 1, arg := 2 + 0x100, dst := 0x3000 }, param := toLe 2 1 ++ toLe 2 1 }; ((aunit s n.val).ctx = some c.val) ∧ (ctxAt s c.val = some x) ∧ (x.phase = .running) ∧ (x.d.opcode = 0x58) ∧ (x.d.mode = 1) ∧ (arcFunc x.d = 0x02) ∧ (0 < lWords x) ∧ (lWords x ≤ 256) ∧ (x.d.dstSgl = false) ∧ (x.wrote = 0) ∧ (x.dstChk = 0) ∧ (covered (queueAt s x.q) true x.d.dst (freeB x) = true) ∧ (linkUp s (fnPort (qFunc (queueAt s x.q))) = true) ∧ (freeN (aunit s n.val).mem % 2 = 1) ∧ (3 ≤ freeN (aunit s n.val).mem) ∧ (freeOp x (aunit s n.val).mem 1 < freeN (aunit s n.val).mem) ∧ (freeOp x (aunit s n.val).mem 2 < freeN (aunit s n.val).mem)) ∧
    (let s : State := let z := setCtx (q7) 4 { q := 7, seq := 1, phase := .running, eng := some (.arcade 1), d := { opcode := 0x58, mode := 1, arg := 2 + 0x100, dst := 0x3000 }, param := toLe 2 1 ++ toLe 2 1 }; { z with units := { arc := [(1, { kat := false, ctx := some 4, mem := { modulus := toBe 8 1000003, input := toBe 8 1000003 ++ toBe 8 1999999 ++ toBe 8 77777 } })] } }; let n : ArcNo := 1; let c : CtxNo := 4; let x : Ctx := { q := 7, seq := 1, phase := .running, eng := some (.arcade 1), d := { opcode := 0x58, mode := 1, arg := 2 + 0x100, dst := 0x3000 }, param := toLe 2 1 ++ toLe 2 1 }; let err : Bytes := []; let hit : Option Hit := none; ((aunit s n.val).ctx = some c.val) ∧ (ctxAt s c.val = some x) ∧ (x.phase = .running) ∧ (x.d.opcode = 0x58) ∧ (x.d.mode = 1) ∧ (arcFunc x.d = 0x02) ∧ (freeN (aunit s n.val).mem % 2 = 0 ∨ freeN (aunit s n.val).mem < 3 ∨ freeN (aunit s n.val).mem ≤ freeOp x (aunit s n.val).mem 1 ∨ freeN (aunit s n.val).mem ≤ freeOp x (aunit s n.val).mem 2)) ∧
    (let s : State := let z := setCtx (q7) 4 { q := 7, seq := 1, phase := .running, eng := some (.arcade 1), d := { opcode := 0x58, mode := 1, arg := 3 + 0x100, dst := 0x3000 }, param := toLe 2 1 ++ toLe 2 1 }; { z with units := { arc := [(1, { kat := false, ctx := some 4, mem := { modulus := toBe 8 1000003, input := toBe 8 1000003 ++ toBe 8 999999 ++ toBe 8 77777 } })] } }; let n : ArcNo := 1; let c : CtxNo := 4; let x : Ctx := { q := 7, seq := 1, phase := .running, eng := some (.arcade 1), d := { opcode := 0x58, mode := 1, arg := 3 + 0x100, dst := 0x3000 }, param := toLe 2 1 ++ toLe 2 1 }; ((aunit s n.val).ctx = some c.val) ∧ (ctxAt s c.val = some x) ∧ (x.phase = .running) ∧ (x.d.opcode = 0x58) ∧ (x.d.mode = 1) ∧ (arcFunc x.d = 0x03) ∧ (0 < lWords x) ∧ (lWords x ≤ 256) ∧ (x.d.dstSgl = false) ∧ (x.wrote = 0) ∧ (x.dstChk = 0) ∧ (covered (queueAt s x.q) true x.d.dst (freeB x) = true) ∧ (linkUp s (fnPort (qFunc (queueAt s x.q))) = true) ∧ (freeN (aunit s n.val).mem % 2 = 1) ∧ (3 ≤ freeN (aunit s n.val).mem) ∧ (freeOp x (aunit s n.val).mem 1 < freeN (aunit s n.val).mem) ∧ (freeOp x (aunit s n.val).mem 2 < freeN (aunit s n.val).mem)) ∧
    (let s : State := let z := setCtx (q7) 4 { q := 7, seq := 1, phase := .running, eng := some (.arcade 1), d := { opcode := 0x58, mode := 1, arg := 3 + 0x100, dst := 0x3000 }, param := toLe 2 1 ++ toLe 2 1 }; { z with units := { arc := [(1, { kat := false, ctx := some 4, mem := { modulus := toBe 8 1000003, input := toBe 8 1000003 ++ toBe 8 1999999 ++ toBe 8 77777 } })] } }; let n : ArcNo := 1; let c : CtxNo := 4; let x : Ctx := { q := 7, seq := 1, phase := .running, eng := some (.arcade 1), d := { opcode := 0x58, mode := 1, arg := 3 + 0x100, dst := 0x3000 }, param := toLe 2 1 ++ toLe 2 1 }; let err : Bytes := []; let hit : Option Hit := none; ((aunit s n.val).ctx = some c.val) ∧ (ctxAt s c.val = some x) ∧ (x.phase = .running) ∧ (x.d.opcode = 0x58) ∧ (x.d.mode = 1) ∧ (arcFunc x.d = 0x03) ∧ (freeN (aunit s n.val).mem % 2 = 0 ∨ freeN (aunit s n.val).mem < 3 ∨ freeN (aunit s n.val).mem ≤ freeOp x (aunit s n.val).mem 1 ∨ freeN (aunit s n.val).mem ≤ freeOp x (aunit s n.val).mem 2)) ∧
    (let s : State := let z := setCtx (q7) 4 { q := 7, seq := 1, phase := .running, eng := some (.arcade 1), d := { opcode := 0x58, mode := 1, arg := 4 + 0x100, dst := 0x3000 }, param := toLe 2 1 ++ toLe 2 1 }; { z with units := { arc := [(1, { kat := false, ctx := some 4, mem := { modulus := toBe 8 1000003, input := toBe 8 1000003 ++ toBe 8 999999 ++ toBe 8 77777 } })] } }; let n : ArcNo := 1; let c : CtxNo := 4; let x : Ctx := { q := 7, seq := 1, phase := .running, eng := some (.arcade 1), d := { opcode := 0x58, mode := 1, arg := 4 + 0x100, dst := 0x3000 }, param := toLe 2 1 ++ toLe 2 1 }; let v : Nat := 750002; ((aunit s n.val).ctx = some c.val) ∧ (ctxAt s c.val = some x) ∧ (x.phase = .running) ∧ (x.d.opcode = 0x58) ∧ (x.d.mode = 1) ∧ (arcFunc x.d = 0x04) ∧ (0 < lWords x) ∧ (lWords x ≤ 256) ∧ (x.d.dstSgl = false) ∧ (x.wrote = 0) ∧ (x.dstChk = 0) ∧ (covered (queueAt s x.q) true x.d.dst (freeB x) = true) ∧ (linkUp s (fnPort (qFunc (queueAt s x.q))) = true) ∧ (freeN (aunit s n.val).mem % 2 = 1) ∧ (3 ≤ freeN (aunit s n.val).mem) ∧ (0 < freeOp x (aunit s n.val).mem 1) ∧ (freeOp x (aunit s n.val).mem 1 < freeN (aunit s n.val).mem) ∧ (invMod (freeOp x (aunit s n.val).mem 1) (freeN (aunit s n.val).mem) = some v) ∧ (v < freeN (aunit s n.val).mem) ∧ (freeOp x (aunit s n.val).mem 1 * v % freeN (aunit s n.val).mem = 1)) ∧
    (let s : State := let z := setCtx (q7) 4 { q := 7, seq := 1, phase := .running, eng := some (.arcade 1), d := { opcode := 0x58, mode := 1, arg := 4 + 0x100, dst := 0x3000 }, param := toLe 2 1 ++ toLe 2 1 }; { z with units := { arc := [(1, { kat := false, ctx := some 4, mem := { modulus := toBe 8 1000003, input := toBe 8 1000003 ++ toBe 8 1999999 ++ toBe 8 77777 } })] } }; let n : ArcNo := 1; let c : CtxNo := 4; let x : Ctx := { q := 7, seq := 1, phase := .running, eng := some (.arcade 1), d := { opcode := 0x58, mode := 1, arg := 4 + 0x100, dst := 0x3000 }, param := toLe 2 1 ++ toLe 2 1 }; let err : Bytes := []; let hit : Option Hit := none; ((aunit s n.val).ctx = some c.val) ∧ (ctxAt s c.val = some x) ∧ (x.phase = .running) ∧ (x.d.opcode = 0x58) ∧ (x.d.mode = 1) ∧ (arcFunc x.d = 0x04) ∧ (freeN (aunit s n.val).mem % 2 = 0 ∨ freeN (aunit s n.val).mem < 3 ∨ freeN (aunit s n.val).mem ≤ freeOp x (aunit s n.val).mem 1 ∨ freeOp x (aunit s n.val).mem 1 = 0)) ∧
    (let s : State := let z := setCtx (q7) 4 { q := 7, seq := 1, phase := .running, eng := some (.arcade 1), d := { opcode := 0x58, mode := 1, arg := 5 + 0x100, dst := 0x3000 }, param := toLe 2 1 ++ toLe 2 1 }; { z with units := { arc := [(1, { kat := false, ctx := some 4, mem := { modulus := toBe 8 1000003, input := toBe 8 1000003 ++ toBe 8 999999 ++ toBe 8 77777 } })] } }; let n : ArcNo := 1; let c : CtxNo := 4; let x : Ctx := { q := 7, seq := 1, phase := .running, eng := some (.arcade 1), d := { opcode := 0x58, mode := 1, arg := 5 + 0x100, dst := 0x3000 }, param := toLe 2 1 ++ toLe 2 1 }; ((aunit s n.val).ctx = some c.val) ∧ (ctxAt s c.val = some x) ∧ (x.phase = .running) ∧ (x.d.opcode = 0x58) ∧ (x.d.mode = 1) ∧ (arcFunc x.d = 0x05) ∧ (0 < lWords x) ∧ (lWords x ≤ 256) ∧ (x.d.dstSgl = false) ∧ (x.wrote = 0) ∧ (x.dstChk = 0) ∧ (covered (queueAt s x.q) true x.d.dst (freeB x) = true) ∧ (linkUp s (fnPort (qFunc (queueAt s x.q))) = true) ∧ (freeN (aunit s n.val).mem % 2 = 1) ∧ (3 ≤ freeN (aunit s n.val).mem) ∧ (freeOp x (aunit s n.val).mem 1 < freeN (aunit s n.val).mem)) ∧
    (let s : State := let z := setCtx (q7) 4 { q := 7, seq := 1, phase := .running, eng := some (.arcade 1), d := { opcode := 0x58, mode := 1, arg := 5 + 0x100, dst := 0x3000 }, param := toLe 2 1 ++ toLe 2 1 }; { z with units := { arc := [(1, { kat := false, ctx := some 4, mem := { modulus := toBe 8 1000003, input := toBe 8 1000003 ++ toBe 8 1999999 ++ toBe 8 77777 } })] } }; let n : ArcNo := 1; let c : CtxNo := 4; let x : Ctx := { q := 7, seq := 1, phase := .running, eng := some (.arcade 1), d := { opcode := 0x58, mode := 1, arg := 5 + 0x100, dst := 0x3000 }, param := toLe 2 1 ++ toLe 2 1 }; let err : Bytes := []; let hit : Option Hit := none; ((aunit s n.val).ctx = some c.val) ∧ (ctxAt s c.val = some x) ∧ (x.phase = .running) ∧ (x.d.opcode = 0x58) ∧ (x.d.mode = 1) ∧ (arcFunc x.d = 0x05) ∧ (freeN (aunit s n.val).mem % 2 = 0 ∨ freeN (aunit s n.val).mem < 3 ∨ freeN (aunit s n.val).mem ≤ freeOp x (aunit s n.val).mem 1)) :=
  by and_intros <;> decide +kernel

/-- States and operands that meet the hypotheses of each clause of ArcadeUnits: ecc, rejects, notYet, zeroised, zeroIdle, kat, katFails, katNot, retest, force, curve, curveForwarded. -/
theorem meets_ArcadeUnits :
    (let s : State := let z := setCtx (q7) 4 { q := 7, seq := 1, phase := .running, eng := some (.arcade 1), d := { opcode := 0x58, mode := 1, arg := 0x101 }, param := toLe 2 1 }; { z with units := { arc := [(1, { kat := false, ctx := some 4, mem := { modulus := toBe 8 1000003, input := toBe 8 1000003 ++ toBe 8 999999 ++ toBe 8 77777 } })] } }; let n : ArcNo := 1; let c : CtxNo := 4; let x : Ctx := { q := 7, seq := 1, phase := .running, eng := some (.arcade 1), d := { opcode := 0x58, mode := 1, arg := 0x101 }, param := toLe 2 1 }; let err : Bytes := []; let hit : Option Hit := none; let off : Fin 65536 := 9; ((aunit s n.val).ctx = some c.val) ∧ (ctxAt s c.val = some x) ∧ (x.phase = .running) ∧ ((writesSlot x.d.opcode = true → x.stop = none ∧ slotWriteWaits s c.val x = false))) ∧
    (let s : State := let z := setCtx (q7) 4 { q := 7, seq := 1, phase := .running, eng := some (.arcade 1), d := { opcode := 0x58, mode := 1, arg := 0x104 }, param := toLe 2 1 }; { z with units := { arc := [(1, { kat := false, ctx := some 4, mem := { modulus := toBe 8 1000003, input := toBe 8 1000003 ++ toBe 8 0 ++ toBe 8 77777 } })] } }; let n : ArcNo := 1; let c : CtxNo := 4; let x : Ctx := { q := 7, seq := 1, phase := .running, eng := some (.arcade 1), d := { opcode := 0x58, mode := 1, arg := 0x104 }, param := toLe 2 1 }; let err : Bytes := []; let hit : Option Hit := none; ((aunit s n.val).ctx = some c.val) ∧ (ctxAt s c.val = some x) ∧ (x.phase = .running) ∧ ((writesSlot x.d.opcode = true → x.stop = none ∧ slotWriteWaits s c.val x = false)) ∧ (arcResult x (aunit s n.val).mem = .reject)) ∧
    (let s : State := ready; let n : ArcNo := 1; let err : Bytes := []; let ecc : OpEcc := .clean; let hit : Option Hit := none; (((aunit s n.val).ctx.any fun c => (ctxAt s c).any fun x => decide (x.phase = .running) && (!writesSlot x.d.opcode || (x.stop.isNone && !slotWriteWaits s c x))) = false)) ∧
    (let s : State := let z := setCtx (q7) 4 { q := 7, seq := 1, phase := .zeroising, eng := some (.arcade 1), d := { opcode := 0x58, mode := 1, arg := 0x101 }, bytesDone := 8 }; { z with units := { arc := [(1, { kat := false, ctx := some 4, mem := { modulus := toBe 8 1000003, input := toBe 8 1000003 ++ toBe 8 999999 ++ toBe 8 77777 } })] } }; let n : ArcNo := 1; let c : CtxNo := 4; let x : Ctx := { q := 7, seq := 1, phase := .zeroising, eng := some (.arcade 1), d := { opcode := 0x58, mode := 1, arg := 0x101 }, bytesDone := 8 }; ((aunit s n.val).ctx = some c.val) ∧ (ctxAt s c.val = some x) ∧ (x.phase = .zeroising) ∧ (x.mirWait = false) ∧ (Deliverable s x)) ∧
    (let s : State := setAunit ready 2 { zero := true }; let n : ArcNo := 2; ((aunit s n.val).ctx = none) ∧ (NothingResumes (arcZeroised s n.val))) ∧
    (let s : State := ready; let n : ArcNo := 5; ((aunit s n.val).kat = true) ∧ (domOn s (aunitDom n.val) = true) ∧ (NothingResumes (arcKatDone s n.val true))) ∧
    (let s : State := ready; let n : ArcNo := 5; ((aunit s n.val).kat = true) ∧ (domOn s (aunitDom n.val) = true) ∧ (NothingResumes (arcKatDone s n.val false))) ∧
    (let s : State := setAunit ready 2 { kat := false }; let n : ArcNo := 2; let ok : Bool := true; ((aunit s n.val).kat = false ∨ domOn s (aunitDom n.val) = false) ∧ (NothingResumes s)) ∧
    (let s : State := setAunit ready 2 { kat := false }; let src : Src := .port 0; let n : ArcNo := 2; (Reaches s src (rk (0x20 + n.val) Reg.ARC_OFFLINE_CTRL))) ∧
    (let s : State := setAunit ready 2 { kat := false }; let src : Src := .port 0; let n : ArcNo := 2; let on : Bool := true; (Reaches s src (rk (0x20 + n.val) Reg.ARC_OFFLINE_CTRL))) ∧
    (let s : State := setReg { ready with curves := [(3, p256)] } Reg.ARC_CURVE_SEL 3; let src : Src := .core 9; (Reaches s src Reg.ARC_CURVE_FREE) ∧ (paired s = false ∨ s.xing.seqr = true)) ∧
    (let s : State := { ready with xing := { state := 3 } }; let src : Src := .core 9; (Reaches s src Reg.ARC_CURVE_FREE) ∧ (paired s = true) ∧ (s.xing.seqr = false)) :=
  by and_intros <;> decide +kernel

/-- States and operands that meet the hypotheses of each clause of FountainNoise: xor, cells, discarded, settle, settleNot, timeout, timeoutNot, katRun, katPass, katFail, katNot. -/
theorem meets_FountainNoise :
    (let s : State := { ready with fnt := { begun := true, state := 4, vnEn := true } }; let cells : BitVec 4 := 7; (domOn s 12 = true) ∧ (s.fnt.begun = true) ∧ (s.fnt.state ≠ 1) ∧ (s.fnt.state ≠ 5) ∧ (s.fnt.xorEn = true) ∧ (s.fnt.streams.length = 1)) ∧
    (let s : State := { ready with fnt := { begun := true, state := 2, xorEn := false, streams := List.replicate 4 {} } }; let cells : BitVec 4 := 6; let i : Fin 4 := 2; (domOn s 12 = true) ∧ (s.fnt.begun = true) ∧ (s.fnt.state ≠ 1) ∧ (s.fnt.state ≠ 5) ∧ (s.fnt.xorEn = false) ∧ (s.fnt.streams.length = 4)) ∧
    (let s : State := { ready with fnt := { begun := true, state := 5, tries := 1 } }; let cells : BitVec 4 := 7; (domOn s 12 = false ∨ s.fnt.begun = false ∨ s.fnt.state = 1 ∨ s.fnt.state = 5)) ∧
    (let s : State := { ready with fnt := { begun := true, state := 1, katOk := true } }; (s.fnt.begun = true) ∧ (s.fnt.state = 1) ∧ (s.fnt.settled = false)) ∧
    (let s : State := { ready with fnt := { begun := true, state := 2, katOk := true } }; (s.fnt.begun = false ∨ s.fnt.state ≠ 1 ∨ s.fnt.settled = true)) ∧
    (let s : State := { ready with fnt := { begun := true, state := 2, tries := 3 } }; (s.fnt.begun = true) ∧ (s.fnt.state < 4) ∧ (s.fnt.int.on = false)) ∧
    (let s : State := ready; (s.fnt.begun = false ∨ 4 ≤ s.fnt.state ∨ s.fnt.int.on = true)) ∧
    (let s : State := ready; let src : Src := .port 1; (Reaches s src Reg.FNT_KAT)) ∧
    (let s : State := { ready with fnt := { begun := true, state := 4, katBusy := true } }; (s.fnt.katBusy = true)) ∧
    (let s : State := { ready with fnt := { begun := true, state := 4, katBusy := true, int := { on := true } } }; (s.fnt.katBusy = true) ∧ (s.fnt.state ≠ 5)) ∧
    (let s : State := { ready with fnt := { begun := true, state := 4, katBusy := false } }; let ok : Bool := false; (s.fnt.katBusy = false)) :=
  by and_intros <;> decide +kernel

/-- States and operands that meet the hypotheses of each clause of FountainService: drawNot, rng, rngNotReady, rngNot, turn, swOff, swRead, swQueued, rawRead, rawEmpty. -/
theorem meets_FountainService :
    (let s : State := ready; let hit : Option Hit := none; (s.fnt.draws = [] ∨ intServing s = false ∨ (swServing s && decide (7 ≤ s.fnt.intRun) && swWaiting s) = true) ∧ (NothingResumes s)) ∧
    (let s : State := let z := setCtx (q7) 4 { q := 7, seq := 1, phase := .placed, d := { opcode := 0x40, len := 40 } }; { z with fnt := { begun := true, state := 4, sw := { on := true, key := toLe 32 1, v := toLe 16 2 }, rng := [.cmd 4] } }; let c : CtxNo := 4; let x : Ctx := { q := 7, seq := 1, phase := .placed, d := { opcode := 0x40, len := 40 } }; (ctxAt s c.val = some x) ∧ (x.d.opcode = 0x40) ∧ (x.phase = .placed) ∧ (s.fnt.sw.on = true)) ∧
    (let s : State := let z := setCtx (q7) 4 { q := 7, seq := 1, phase := .placed, d := { opcode := 0x40, len := 40 } }; { z with fnt := { begun := true, state := 4, sw := {}, rng := [.cmd 4] } }; let c : CtxNo := 4; let x : Ctx := { q := 7, seq := 1, phase := .placed, d := { opcode := 0x40, len := 40 } }; (ctxAt s c.val = some x) ∧ (x.d.opcode = 0x40) ∧ (x.phase = .placed) ∧ (s.fnt.sw.on = false) ∧ (Deliverable s x)) ∧
    (let s : State := ready; let c : CtxNo := 4; ((ctxAt s c.val).any (fun x => x.d.opcode == 0x40 && decide (x.phase = .placed)) = false)) ∧
    (let s : State := let z := setCtx (q7) 4 { q := 7, seq := 1, phase := .running, d := { opcode := 0x40, len := 40 }, dsts := [⟨0x3000, 40⟩] }; { z with fnt := { begun := true, state := 4, sw := { on := true, key := toLe 32 1, v := toLe 16 2 }, rng := [.cmd 4] } }; let c : CtxNo := 4; let x : Ctx := { q := 7, seq := 1, phase := .running, d := { opcode := 0x40, len := 40 }, dsts := [⟨0x3000, 40⟩] }; let rest : List RngReq := []; (s.fnt.rng = .cmd c.val :: rest) ∧ (ctxAt s c.val = some x) ∧ (x.phase = .running) ∧ (s.fnt.rngDead = []) ∧ (swServing s = true) ∧ (swDue s = true) ∧ (x.wrote = x.done) ∧ (x.d.len ≤ x.done + 4096) ∧ (x.done ≤ x.d.len) ∧ ((checkSegs (queueAt s x.q) true x.dsts (x.d.len) (x.dsts.length + 1) x.dstChk).2 = false) ∧ (Deliverable s x)) ∧
    (let s : State := ready; let src : Src := .core 1; (Reaches s src Reg.FNT_SW_DATA) ∧ (swServing s = false)) ∧
    (let s : State := let z := ready; { z with fnt := { begun := true, state := 4, sw := { on := true, key := toLe 32 1, v := toLe 16 2 }, rng := [] } }; let src : Src := .core 1; (Reaches s src Reg.FNT_SW_DATA) ∧ (swServing s = true) ∧ (swWaiting s = false) ∧ ((s.fnt.draws.isEmpty || !intServing s || decide (7 ≤ s.fnt.intRun)) = true) ∧ (answers s src = true)) ∧
    (let s : State := let z := ready; { z with fnt := { begun := true, state := 4, sw := { on := true, key := toLe 32 1, v := toLe 16 2 }, rng := [.read (.core 2)] } }; let src : Src := .core 1; (Reaches s src Reg.FNT_SW_DATA) ∧ (swServing s = true) ∧ (swWaiting s = true ∨ (s.fnt.draws.isEmpty || !intServing s || decide (7 ≤ s.fnt.intRun)) = false)) ∧
    (let s : State := { ready with fnt := { begun := true, state := 4, raw := List.replicate 40 true } }; let src : Src := .core 1; (Reaches s src Reg.FNT_RAW_DATA) ∧ (32 ≤ s.fnt.raw.length)) ∧
    (let s : State := ready; let src : Src := .core 1; (Reaches s src Reg.FNT_RAW_DATA) ∧ (s.fnt.raw.length < 32)) :=
  by and_intros <;> decide +kernel

/-- States and operands that meet the hypotheses of each clause of ClockPasses: epoch, compare, hurry, hold, fall, holdover, epochNot, compareNot, slewNot, fallNot, holdoverNot. -/
theorem meets_ClockPasses :
    (let s : State := { ready with tick := 5 }; (ticking s = true)) ∧
    (let s : State := { ready with tick := 5, cores := [(2, { r := { cmp := 77 } })] }; let c : CoreNo := 2; (ticking s = true) ∧ (s.tick < (cregs s c.val).cmp)) ∧
    (let s : State := { ready with clk := { corr := 3, gap := 4, lock := 1 } }; (ticking s = true) ∧ (0 < s.clk.corr) ∧ (s.clk.lock ≠ 0)) ∧
    (let s : State := { ready with clk := { corr := -3, gap := 15, lock := 2 } }; (ticking s = true) ∧ (s.clk.corr < 0) ∧ (s.clk.lock ≠ 0)) ∧
    (let s : State := { ready with clk := { syncOut := some 8 } }; let e : Nat := 8; (ticking s = true) ∧ (s.clk.syncOut = some e) ∧ (e < ((epochOf s s.tick + 1) * epochLen s))) ∧
    (let s : State := { ready with clk := { lock := 2 } }; (ticking s = true) ∧ (s.clk.lock = 1 ∨ s.clk.lock = 2) ∧ (s.tick < ((s.clk.base + max 1 (fld s Reg.CT_SYNC_CFG 27 24) + 1) * epochLen s))) ∧
    (let s : State := { ready with mainOn := false }; (ticking s = false)) ∧
    (let s : State := { ready with mainOn := false }; let c : CoreNo := 2; (ticking s = false ∨ (cregs s c.val).cmp ≤ s.tick)) ∧
    (let s : State := { ready with mainOn := false }; (ticking s = false ∨ s.clk.corr = 0 ∨ s.clk.lock = 0)) ∧
    (let s : State := { ready with mainOn := false }; (ticking s = false ∨ s.clk.syncOut = none)) ∧
    (let s : State := { ready with mainOn := false }; (ticking s = false ∨ (s.clk.lock ≠ 1 ∧ s.clk.lock ≠ 2) ∨ ((s.clk.base + max 1 (fld s Reg.CT_SYNC_CFG 27 24) + 1) * epochLen s) ≤ s.tick)) :=
  by and_intros <;> decide +kernel

/-- States and operands that meet the hypotheses of each clause of ClockMarkers_1: marker, markerTwice, markerLoads, markerPast, markerNot, cfg, cfgRefused, now, past, sync, noSource, align, nowBusy, syncBusy. -/
theorem meets_ClockMarkers_1 :
    (let s : State := setReg { ready with tick := 2 ^ 30 + 17 } Reg.CT_CFG 0x11E; let fromXing : Bool := false; (ticking s = true) ∧ (clkSrc s = (if fromXing then 2 else 1)) ∧ (s.clk.load = none) ∧ (s.clk.marked.contains ((arrival s fromXing + (epochLen s : Int) / 2) / (epochLen s : Int)).toNat = false)) ∧
    (let s : State := setReg { ready with tick := 2 ^ 30 + 17, clk := { lastMark := some 1, marked := [0, 1] } } Reg.CT_CFG 0x11E; let fromXing : Bool := false; (ticking s = true) ∧ (clkSrc s = (if fromXing then 2 else 1)) ∧ (s.clk.load = none) ∧ (s.clk.marked.contains ((arrival s fromXing + (epochLen s : Int) / 2) / (epochLen s : Int)).toNat = true)) ∧
    (let s : State := setReg { ready with tick := 2 ^ 30 + 17, clk := { load := some (2 ^ 31) } } Reg.CT_CFG 0x11E; let fromXing : Bool := false; let v : Nat := 2 ^ 31; (ticking s = true) ∧ (clkSrc s = (if fromXing then 2 else 1)) ∧ (s.clk.load = some v) ∧ ((s.tick : Int) < ((v : Int) + syncDelay s + 3))) ∧
    (let s : State := setReg { ready with tick := 2 ^ 30 + 17, clk := { load := some 0 } } Reg.CT_CFG 0x11E; let fromXing : Bool := false; let v : Nat := 0; (ticking s = true) ∧ (clkSrc s = (if fromXing then 2 else 1)) ∧ (s.clk.load = some v) ∧ (((v : Int) + syncDelay s + 3) ≤ (s.tick : Int))) ∧
    (let s : State := ready; let fromXing : Bool := true; (ticking s = false ∨ clkSrc s ≠ (if fromXing then 2 else 1))) ∧
    (let s : State := ready; let src : Src := .core 1; let v : BitVec 32 := 0x13F; (Reaches s src Reg.CT_CFG) ∧ (actK (wbits v 5 0) = epochExp s ∨ (s.clk.lock = 0 ∧ s.clk.load = none ∧ heldCount s = 0))) ∧
    (let s : State := { ready with clk := { lock := 1 } }; let src : Src := .core 1; let v : BitVec 32 := 0x13F; (Reaches s src Reg.CT_CFG) ∧ (actK (wbits v 5 0) ≠ epochExp s) ∧ (¬ (s.clk.lock = 0 ∧ s.clk.load = none ∧ heldCount s = 0)) ∧ (epochExp s < 64) ∧ (rbit s (rk 4 Reg.ERR_SYND) 23 = false)) ∧
    (let s : State := setReg { ready with tick := 50 } Reg.CT_LOAD_LO 99; let src : Src := .port 0; (Reaches s src Reg.CT_CMD) ∧ (s.clk.load = none) ∧ (s.tick < loadValue s)) ∧
    (let s : State := setReg { ready with tick := 50 } Reg.CT_LOAD_LO 50; let src : Src := .port 0; (Reaches s src Reg.CT_CMD) ∧ (s.clk.load = none) ∧ (loadValue s ≤ s.tick)) ∧
    (let s : State := setReg (setReg ready Reg.CT_CFG 0x11E) Reg.CT_LOAD_LO 0x40000000; let src : Src := .port 0; (Reaches s src Reg.CT_CMD) ∧ (s.clk.load = none) ∧ (clkSrc s ≠ 0) ∧ (loadValue s % epochLen s = 0)) ∧
    (let s : State := ready; let src : Src := .port 0; (Reaches s src Reg.CT_CMD) ∧ (s.clk.load = none) ∧ (clkSrc s = 0)) ∧
    (let s : State := setReg (setReg ready Reg.CT_CFG 0x11E) Reg.CT_LOAD_LO 0x40000001; let src : Src := .port 0; (Reaches s src Reg.CT_CMD) ∧ (s.clk.load = none) ∧ (clkSrc s ≠ 0) ∧ (loadValue s % epochLen s ≠ 0)) ∧
    (let s : State := { ready with clk := { load := some 7 } }; let src : Src := .port 0; (Reaches s src Reg.CT_CMD) ∧ (s.clk.load.isSome = true) ∧ (rbit s (rk 4 Reg.ERR_SYND) 23 = false)) ∧
    (let s : State := { ready with clk := { load := some 7 } }; let src : Src := .port 0; (Reaches s src Reg.CT_CMD) ∧ (s.clk.load.isSome = true) ∧ (rbit s (rk 4 Reg.ERR_SYND) 23 = false)) :=
  by and_intros <;> decide +kernel

/-- States and operands that meet the hypotheses of each clause of ClockMarkers_2: cancel. -/
theorem meets_ClockMarkers_2 :
    (let s : State := { ready with clk := { load := some 7 } }; let src : Src := .port 0; (Reaches s src Reg.CT_CMD)) :=
  by decide +kernel

/-- States and operands that meet the hypotheses of each clause of CoreControl: start, halt, haltLater, reset, startRefused, haltRefused, resetRefused, done, doneNot, swi, smp. -/
theorem meets_CoreControl :
    (let s : State := ready; let src : Src := .core 2; let c : CoreNo := 3; (Reaches s src (ck c.val Reg.IXM_CTRL)) ∧ ((coreAt s c.val).state = 1) ∧ (s.kerb.lockdown = false)) ∧
    (let s : State := { ready with cores := [(3, { state := 3 })] }; let src : Src := .core 2; let c : CoreNo := 3; (Reaches s src (ck c.val Reg.IXM_CTRL)) ∧ ((coreAt s c.val).state = 2 ∨ (coreAt s c.val).state = 3 ∧ wfiDone s c.val = false) ∧ ((coreAt s c.val).slot = none) ∧ ((coreAt s c.val).busy = false)) ∧
    (let s : State := { ready with cores := [(3, { state := 2, busy := true })] }; let src : Src := .core 2; let c : CoreNo := 3; (Reaches s src (ck c.val Reg.IXM_CTRL)) ∧ ((coreAt s c.val).state = 2 ∨ (coreAt s c.val).state = 3) ∧ ((coreAt s c.val).slot ≠ none ∨ (coreAt s c.val).busy = true)) ∧
    (let s : State := { ready with cores := [(3, { state := 2 })] }; let src : Src := .core 2; let c : CoreNo := 3; (Reaches s src (ck c.val Reg.IXM_CTRL)) ∧ ((coreAt s c.val).state ≠ 4)) ∧
    (let s : State := { ready with cores := [(3, { state := 2 })] }; let src : Src := .core 2; let c : CoreNo := 3; (Reaches s src (ck c.val Reg.IXM_CTRL)) ∧ ((coreAt s c.val).state ≠ 1 ∨ s.kerb.lockdown = true) ∧ (rbit s (rk (corePage c.val) Reg.ERR_SYND) 23 = false)) ∧
    (let s : State := { ready with cores := [(3, { state := 1 })] }; let src : Src := .core 2; let c : CoreNo := 3; (Reaches s src (ck c.val Reg.IXM_CTRL)) ∧ ((coreAt s c.val).state ≠ 2 ∧ (coreAt s c.val).state ≠ 3) ∧ (rbit s (rk (corePage c.val) Reg.ERR_SYND) 23 = false)) ∧
    (let s : State := { ready with cores := [(3, { state := 4 })] }; let src : Src := .core 2; let c : CoreNo := 3; (Reaches s src (ck c.val Reg.IXM_CTRL)) ∧ ((coreAt s c.val).state = 4) ∧ (rbit s (rk (corePage c.val) Reg.ERR_SYND) 23 = false)) ∧
    (let s : State := { ready with cores := [(3, { state := 0 })] }; let c : CoreNo := 3; ((coreAt s c.val).state = 0)) ∧
    (let s : State := ready; let c : CoreNo := 3; ((coreAt s c.val).state ≠ 0)) ∧
    (let s : State := ready; let src : Src := .core 2; let c : CoreNo := 3; let m : BitVec 16 := 5; (Reaches s src (ck c.val Reg.IXM_SWI_RAISE))) ∧
    (let s : State := { ready with cores := [(3, { samples := [(0, ⟨1, 2, 3, 4⟩)] })] }; let src : Src := .core 2; let c : CoreNo := 3; (Reaches s src (ck c.val Reg.SV_SMP_CTRL))) :=
  by and_intros <;> decide +kernel

/-- States and operands that meet the hypotheses of each clause of ImageLoads_1: load, loadFails, loadWaitsUnit, loadWaitsCard, loadCard, loadNoCard, loadBusy, loadStart, loadStartFails, loadStartWaitsUnit, loadStartWaitsCard, loadStartCard, loadStartNoCard, loadStartBusy. -/
theorem meets_ImageLoads_1 :
    (let s : State := setQueue { ready with life := { state := 3 }, units := { arc := [(0, { kat := false })] } } 0 { rec' := [(0, 0x08800000), (10, 3), (12, 0x00100000)], state := .enabled }; let src : Src := .port 0; let img : ImgIn := { bytes := toLe 256 0x100000000080000000000000000000000000000000100000000ff0000080000010800000001494d5849 }; let u : Nat := 0; (Reaches s src Reg.IXM_LD_CMD) ∧ (s.load = none) ∧ (fld s Reg.BOOT_STAT 7 0 ≠ 6) ∧ ((loadOp s false false).src ≠ 1) ∧ ((if (loadIn s (loadOp s false false) 0 256 img).1.length < 256 then (if loadClosed s = true then some 1 else some 6) else if (hCores (loadIn s (loadOp s false false) 0 256 img).1).any (fun c => decide ((coreAt s c).state ≠ 1)) = true then some 5 else if loadClosed s = true then some 1 else if headerOk (loadIn s (loadOp s false false) 0 256 img).1 = false then some 2 else if bindingOk s (loadIn s (loadOp s false false) 0 256 img).1 = false then some 9 else if arcPick s = none then some 7 else none) = none) ∧ (arcPick s = some u) ∧ (arcIdle s u = true)) ∧
    (let s : State := setQueue { ready with life := { state := 5 }, units := { arc := [(0, { kat := false })] } } 0 { rec' := [(0, 0x08800000), (10, 3), (12, 0x00100000)], state := .enabled }; let src : Src := .port 0; let img : ImgIn := { bytes := toLe 256 0x100000000080000000000000000000000000000000100000000ff0000080000010800000001494d5849 }; let r : Nat := 1; (Reaches s src Reg.IXM_LD_CMD) ∧ (s.load = none) ∧ (fld s Reg.BOOT_STAT 7 0 ≠ 6) ∧ ((loadOp s false false).src ≠ 1) ∧ ((if (loadIn s (loadOp s false false) 0 256 img).1.length < 256 then (if loadClosed s = true then some 1 else some 6) else if (hCores (loadIn s (loadOp s false false) 0 256 img).1).any (fun c => decide ((coreAt s c).state ≠ 1)) = true then some 5 else if loadClosed s = true then some 1 else if headerOk (loadIn s (loadOp s false false) 0 256 img).1 = false then some 2 else if bindingOk s (loadIn s (loadOp s false false) 0 256 img).1 = false then some 9 else if arcPick s = none then some 7 else none) = some r)) ∧
    (let s : State := setQueue { ready with life := { state := 3 }, units := { arc := [(0, { kat := true })] } } 0 { rec' := [(0, 0x08800000), (10, 3), (12, 0x00100000)], state := .enabled }; let src : Src := .port 0; let img : ImgIn := { bytes := toLe 256 0x100000000080000000000000000000000000000000100000000ff0000080000010800000001494d5849 }; let u : Nat := 0; (Reaches s src Reg.IXM_LD_CMD) ∧ (s.load = none) ∧ (fld s Reg.BOOT_STAT 7 0 ≠ 6) ∧ ((loadOp s false false).src ≠ 1) ∧ ((if (loadIn s (loadOp s false false) 0 256 img).1.length < 256 then (if loadClosed s = true then some 1 else some 6) else if (hCores (loadIn s (loadOp s false false) 0 256 img).1).any (fun c => decide ((coreAt s c).state ≠ 1)) = true then some 5 else if loadClosed s = true then some 1 else if headerOk (loadIn s (loadOp s false false) 0 256 img).1 = false then some 2 else if bindingOk s (loadIn s (loadOp s false false) 0 256 img).1 = false then some 9 else if arcPick s = none then some 7 else none) = none) ∧ (arcPick s = some u) ∧ (arcIdle s u = false)) ∧
    (let s : State := setReg { ready with sd := { op := some { kind := .seg } } } Reg.IXM_LD_SRC 1; let src : Src := .port 0; let img : ImgIn := {}; (Reaches s src Reg.IXM_LD_CMD) ∧ (s.load = none) ∧ (fld s Reg.BOOT_STAT 7 0 ≠ 6) ∧ ((loadOp s false false).src = 1) ∧ (s.sd.op.isSome = true)) ∧
    (let s : State := setReg (setReg (setReg ready Reg.IXM_LD_SRC 1) Reg.DEPOT_STAT 3) Reg.DEPOT_CAP 9; let src : Src := .port 0; let img : ImgIn := {}; (Reaches s src Reg.IXM_LD_CMD) ∧ (s.load = none) ∧ (fld s Reg.BOOT_STAT 7 0 ≠ 6) ∧ ((loadOp s false false).src = 1) ∧ (s.sd.op = none) ∧ (s.sd.retune = false) ∧ ((sdReady s && domOn s 23 && decide ((loadOp s false false).addr + 1 ≤ fld s Reg.DEPOT_CAP 22 0 * 1024)) = true)) ∧
    (let s : State := setReg ready Reg.IXM_LD_SRC 1; let src : Src := .port 0; let img : ImgIn := {}; (Reaches s src Reg.IXM_LD_CMD) ∧ (s.load = none) ∧ (fld s Reg.BOOT_STAT 7 0 ≠ 6) ∧ ((loadOp s false false).src = 1) ∧ (s.sd.op = none) ∧ ((sdReady s && domOn s 23 && decide ((loadOp s false false).addr + 1 ≤ fld s Reg.DEPOT_CAP 22 0 * 1024)) = false)) ∧
    (let s : State := { ready with load := some { hdr := none, start := false } }; let src : Src := .port 0; let img : ImgIn := {}; (Reaches s src Reg.IXM_LD_CMD) ∧ (s.load.any (fun o => o.src != 1) = true) ∧ (rbit s (rk 0x30 Reg.ERR_SYND) 23 = false)) ∧
    (let s : State := setQueue { ready with life := { state := 3 }, units := { arc := [(0, { kat := false })] } } 0 { rec' := [(0, 0x08800000), (10, 3), (12, 0x00100000)], state := .enabled }; let src : Src := .port 0; let img : ImgIn := { bytes := toLe 256 0x100000000080000000000000000000000000000000100000000ff0000080000010800000001494d5849 }; let u : Nat := 0; (Reaches s src Reg.IXM_LD_CMD) ∧ (s.load = none) ∧ (fld s Reg.BOOT_STAT 7 0 ≠ 6) ∧ ((loadOp s true false).src ≠ 1) ∧ ((if (loadIn s (loadOp s true false) 0 256 img).1.length < 256 then (if loadClosed s = true then some 1 else some 6) else if (hCores (loadIn s (loadOp s true false) 0 256 img).1).any (fun c => decide ((coreAt s c).state ≠ 1)) = true then some 5 else if loadClosed s = true then some 1 else if headerOk (loadIn s (loadOp s true false) 0 256 img).1 = false then some 2 else if bindingOk s (loadIn s (loadOp s true false) 0 256 img).1 = false then some 9 else if arcPick s = none then some 7 else none) = none) ∧ (arcPick s = some u) ∧ (arcIdle s u = true)) ∧
    (let s : State := setQueue { ready with life := { state := 5 }, units := { arc := [(0, { kat := false })] } } 0 { rec' := [(0, 0x08800000), (10, 3), (12, 0x00100000)], state := .enabled }; let src : Src := .port 0; let img : ImgIn := { bytes := toLe 256 0x100000000080000000000000000000000000000000100000000ff0000080000010800000001494d5849 }; let r : Nat := 1; (Reaches s src Reg.IXM_LD_CMD) ∧ (s.load = none) ∧ (fld s Reg.BOOT_STAT 7 0 ≠ 6) ∧ ((loadOp s true false).src ≠ 1) ∧ ((if (loadIn s (loadOp s true false) 0 256 img).1.length < 256 then (if loadClosed s = true then some 1 else some 6) else if (hCores (loadIn s (loadOp s true false) 0 256 img).1).any (fun c => decide ((coreAt s c).state ≠ 1)) = true then some 5 else if loadClosed s = true then some 1 else if headerOk (loadIn s (loadOp s true false) 0 256 img).1 = false then some 2 else if bindingOk s (loadIn s (loadOp s true false) 0 256 img).1 = false then some 9 else if arcPick s = none then some 7 else none) = some r)) ∧
    (let s : State := setQueue { ready with life := { state := 3 }, units := { arc := [(0, { kat := true })] } } 0 { rec' := [(0, 0x08800000), (10, 3), (12, 0x00100000)], state := .enabled }; let src : Src := .port 0; let img : ImgIn := { bytes := toLe 256 0x100000000080000000000000000000000000000000100000000ff0000080000010800000001494d5849 }; let u : Nat := 0; (Reaches s src Reg.IXM_LD_CMD) ∧ (s.load = none) ∧ (fld s Reg.BOOT_STAT 7 0 ≠ 6) ∧ ((loadOp s true false).src ≠ 1) ∧ ((if (loadIn s (loadOp s true false) 0 256 img).1.length < 256 then (if loadClosed s = true then some 1 else some 6) else if (hCores (loadIn s (loadOp s true false) 0 256 img).1).any (fun c => decide ((coreAt s c).state ≠ 1)) = true then some 5 else if loadClosed s = true then some 1 else if headerOk (loadIn s (loadOp s true false) 0 256 img).1 = false then some 2 else if bindingOk s (loadIn s (loadOp s true false) 0 256 img).1 = false then some 9 else if arcPick s = none then some 7 else none) = none) ∧ (arcPick s = some u) ∧ (arcIdle s u = false)) ∧
    (let s : State := setReg { ready with sd := { op := some { kind := .seg } } } Reg.IXM_LD_SRC 1; let src : Src := .port 0; let img : ImgIn := {}; (Reaches s src Reg.IXM_LD_CMD) ∧ (s.load = none) ∧ (fld s Reg.BOOT_STAT 7 0 ≠ 6) ∧ ((loadOp s true false).src = 1) ∧ (s.sd.op.isSome = true)) ∧
    (let s : State := setReg (setReg (setReg ready Reg.IXM_LD_SRC 1) Reg.DEPOT_STAT 3) Reg.DEPOT_CAP 9; let src : Src := .port 0; let img : ImgIn := {}; (Reaches s src Reg.IXM_LD_CMD) ∧ (s.load = none) ∧ (fld s Reg.BOOT_STAT 7 0 ≠ 6) ∧ ((loadOp s true false).src = 1) ∧ (s.sd.op = none) ∧ (s.sd.retune = false) ∧ ((sdReady s && domOn s 23 && decide ((loadOp s true false).addr + 1 ≤ fld s Reg.DEPOT_CAP 22 0 * 1024)) = true)) ∧
    (let s : State := setReg ready Reg.IXM_LD_SRC 1; let src : Src := .port 0; let img : ImgIn := {}; (Reaches s src Reg.IXM_LD_CMD) ∧ (s.load = none) ∧ (fld s Reg.BOOT_STAT 7 0 ≠ 6) ∧ ((loadOp s true false).src = 1) ∧ (s.sd.op = none) ∧ ((sdReady s && domOn s 23 && decide ((loadOp s true false).addr + 1 ≤ fld s Reg.DEPOT_CAP 22 0 * 1024)) = false)) ∧
    (let s : State := { ready with load := some { hdr := none, start := false } }; let src : Src := .port 0; let img : ImgIn := {}; (Reaches s src Reg.IXM_LD_CMD) ∧ (s.load.any (fun o => o.src != 1) = true) ∧ (rbit s (rk 0x30 Reg.ERR_SYND) 23 = false)) :=
  by and_intros <;> decide +kernel

/-- States and operands that meet the hypotheses of each clause of ImageLoads_2: done, doneShort, doneFloor, doneCard, doneCardWaits, header, doneNot. -/
theorem meets_ImageLoads_2 :
    (let s : State := setQueue { ready with life := { state := 3 }, load := some { hdr := some (toLe 256 0x100000000080000000000000000000000000000000100000000ff0000080000010800000001494d5849), start := true, put := 0x100 } } 0 { rec' := [(0, 0x08800000), (10, 3), (12, 0x00100000)], state := .enabled }; let o : LoadOp := { hdr := some (toLe 256 0x100000000080000000000000000000000000000000100000000ff0000080000010800000001494d5849), start := true, put := 0x100 }; let h : Bytes := toLe 256 0x100000000080000000000000000000000000000000100000000ff0000080000010800000001494d5849; let img : ImgIn := { bytes := toLe 8 7 }; let fails : Nat := 0; (s.load = some o) ∧ (o.hdr = some h) ∧ (o.wait = false) ∧ (o.arc = false) ∧ (s.autoload = none) ∧ (o.src ≠ 1) ∧ ((hLen' h - 0x100) ≤ (loadIn s o 0x100 (hLen' h - 0x100) img).1.length) ∧ ((byteAt h 0x0E % 2 = 0 ∨ hSvn h ≤ svnFloor s o.vendor ∨ fails < 3))) ∧
    (let s : State := setQueue { ready with life := { state := 3 }, load := some { hdr := some (toLe 256 0x100000000080000000000000000000000000000000100000000ff0000080000010800000001494d5849), start := true, put := 0x100 } } 0 { rec' := [(0, 0x08800000), (10, 3), (12, 0x00100000)], state := .enabled }; let o : LoadOp := { hdr := some (toLe 256 0x100000000080000000000000000000000000000000100000000ff0000080000010800000001494d5849), start := true, put := 0x100 }; let h : Bytes := toLe 256 0x100000000080000000000000000000000000000000100000000ff0000080000010800000001494d5849; let img : ImgIn := { bytes := toLe 4 7 }; let fails : Nat := 0; (s.load = some o) ∧ (o.hdr = some h) ∧ (o.wait = false) ∧ (o.arc = false) ∧ (s.autoload = none) ∧ (o.src ≠ 1) ∧ ((loadIn s o 0x100 (hLen' h - 0x100) img).1.length < (hLen' h - 0x100))) ∧
    (let s : State := setQueue { ready with life := { state := 3 }, load := some { hdr := some (toLe 256 0x100000000080000000000000000000000000000000100000000ff0100080000010800090001494d5849), start := true, put := 0x100 } } 0 { rec' := [(0, 0x08800000), (10, 3), (12, 0x00100000)], state := .enabled }; let o : LoadOp := { hdr := some (toLe 256 0x100000000080000000000000000000000000000000100000000ff0100080000010800090001494d5849), start := true, put := 0x100 }; let h : Bytes := toLe 256 0x100000000080000000000000000000000000000000100000000ff0100080000010800090001494d5849; let img : ImgIn := { bytes := toLe 8 7 }; let fails : Nat := 3; (s.load = some o) ∧ (o.hdr = some h) ∧ (o.wait = false) ∧ (o.arc = false) ∧ (s.autoload = none) ∧ (o.src ≠ 1) ∧ ((hLen' h - 0x100) ≤ (loadIn s o 0x100 (hLen' h - 0x100) img).1.length) ∧ (¬ (byteAt h 0x0E % 2 = 0 ∨ hSvn h ≤ svnFloor s o.vendor ∨ fails < 3))) ∧
    (let s : State := { ready with life := { state := 3 }, load := some { hdr := some (toLe 256 0x100000000080000000000000000000000000000000100000000ff0000080000010800000001494d5849), start := true, src := 1, put := 512, got := (toLe 256 0x100000000080000000000000000000000000000000100000000ff0000080000010800000001494d5849) ++ toLe 256 7, fin := some 0 } }; let o : LoadOp := { hdr := some (toLe 256 0x100000000080000000000000000000000000000000100000000ff0000080000010800000001494d5849), start := true, src := 1, put := 512, got := (toLe 256 0x100000000080000000000000000000000000000000100000000ff0000080000010800000001494d5849) ++ toLe 256 7, fin := some 0 }; let h : Bytes := toLe 256 0x100000000080000000000000000000000000000000100000000ff0000080000010800000001494d5849; let img : ImgIn := {}; let fails : Nat := 0; (s.load = some o) ∧ (o.hdr = some h) ∧ (o.wait = false) ∧ (o.arc = false) ∧ (s.autoload = none) ∧ (o.src = 1) ∧ (hLen' h ≤ o.got.length) ∧ ((byteAt h 0x0E % 2 = 0 ∨ hSvn h ≤ svnFloor s o.vendor ∨ fails < 3))) ∧
    (let s : State := { ready with load := some { hdr := some (toLe 256 0x100000000080000000000000000000000000000000100000000ff0000080000010800000001494d5849), start := true, src := 1, put := 256, got := toLe 256 0x100000000080000000000000000000000000000000100000000ff0000080000010800000001494d5849, fin := none } }; let o : LoadOp := { hdr := some (toLe 256 0x100000000080000000000000000000000000000000100000000ff0000080000010800000001494d5849), start := true, src := 1, put := 256, got := toLe 256 0x100000000080000000000000000000000000000000100000000ff0000080000010800000001494d5849, fin := none }; let h : Bytes := toLe 256 0x100000000080000000000000000000000000000000100000000ff0000080000010800000001494d5849; let img : ImgIn := {}; let fails : Nat := 0; (s.load = some o) ∧ (o.hdr = some h) ∧ (o.wait = false) ∧ (o.arc = false) ∧ (s.autoload = none) ∧ (o.src = 1) ∧ (o.got.length < hLen' h) ∧ (o.got.length ≤ o.put) ∧ (o.fin = none)) ∧
    (let s : State := { ready with load := some { hdr := none, start := false } }; let o : LoadOp := { hdr := none, start := false }; let img : ImgIn := {}; let fails : Nat := 0; (s.load = some o) ∧ (o.hdr = none) ∧ (o.wait = false) ∧ (o.arc = false) ∧ (o.src = 0) ∧ (s.autoload = none)) ∧
    (let s : State := ready; let img : ImgIn := {}; let fails : Nat := 0; (s.load = none ∧ s.autoload = none ∨ s.load.any (fun o => o.arc) = true)) :=
  by and_intros <;> decide +kernel

/-- States and operands that meet the hypotheses of each clause of AluOps_1: add, sub, and, or, xor, andn, copy, inv, min, max, minu, maxu, addc, addx. -/
theorem meets_AluOps_1 :
    (let s : State := { ready with cores := [(3, { state := 2, r := { pc := 0x100, g := [(1, 7), (2, 0xFFFFFFF5), (3, 0x80000000)] } })] }; let c : CoreNo := 3; let g : IssueIn := { guard := 0 }; let d : GReg := 4; let a : GReg := 2; let b : GReg := 1; (Issues s c.val g)) ∧
    (let s : State := { ready with cores := [(3, { state := 2, r := { pc := 0x100, g := [(1, 7), (2, 0xFFFFFFF5), (3, 0x80000000)] } })] }; let c : CoreNo := 3; let g : IssueIn := { guard := 0 }; let d : GReg := 4; let a : GReg := 2; let b : GReg := 1; (Issues s c.val g)) ∧
    (let s : State := { ready with cores := [(3, { state := 2, r := { pc := 0x100, g := [(1, 7), (2, 0xFFFFFFF5), (3, 0x80000000)] } })] }; let c : CoreNo := 3; let g : IssueIn := { guard := 0 }; let d : GReg := 4; let a : GReg := 2; let b : GReg := 1; (Issues s c.val g)) ∧
    (let s : State := { ready with cores := [(3, { state := 2, r := { pc := 0x100, g := [(1, 7), (2, 0xFFFFFFF5), (3, 0x80000000)] } })] }; let c : CoreNo := 3; let g : IssueIn := { guard := 0 }; let d : GReg := 4; let a : GReg := 2; let b : GReg := 1; (Issues s c.val g)) ∧
    (let s : State := { ready with cores := [(3, { state := 2, r := { pc := 0x100, g := [(1, 7), (2, 0xFFFFFFF5), (3, 0x80000000)] } })] }; let c : CoreNo := 3; let g : IssueIn := { guard := 0 }; let d : GReg := 4; let a : GReg := 2; let b : GReg := 1; (Issues s c.val g)) ∧
    (let s : State := { ready with cores := [(3, { state := 2, r := { pc := 0x100, g := [(1, 7), (2, 0xFFFFFFF5), (3, 0x80000000)] } })] }; let c : CoreNo := 3; let g : IssueIn := { guard := 0 }; let d : GReg := 4; let a : GReg := 2; let b : GReg := 1; (Issues s c.val g)) ∧
    (let s : State := { ready with cores := [(3, { state := 2, r := { pc := 0x100, g := [(1, 7), (2, 0xFFFFFFF5), (3, 0x80000000)] } })] }; let c : CoreNo := 3; let g : IssueIn := { guard := 0 }; let d : GReg := 4; let a : GReg := 2; let b : GReg := 1; (Issues s c.val g)) ∧
    (let s : State := { ready with cores := [(3, { state := 2, r := { pc := 0x100, g := [(1, 7), (2, 0xFFFFFFF5), (3, 0x80000000)] } })] }; let c : CoreNo := 3; let g : IssueIn := { guard := 0 }; let d : GReg := 4; let a : GReg := 2; let b : GReg := 1; (Issues s c.val g)) ∧
    (let s : State := { ready with cores := [(3, { state := 2, r := { pc := 0x100, g := [(1, 7), (2, 0xFFFFFFF5), (3, 0x80000000)] } })] }; let c : CoreNo := 3; let g : IssueIn := { guard := 0 }; let d : GReg := 4; let a : GReg := 2; let b : GReg := 1; (Issues s c.val g)) ∧
    (let s : State := { ready with cores := [(3, { state := 2, r := { pc := 0x100, g := [(1, 7), (2, 0xFFFFFFF5), (3, 0x80000000)] } })] }; let c : CoreNo := 3; let g : IssueIn := { guard := 0 }; let d : GReg := 4; let a : GReg := 2; let b : GReg := 1; (Issues s c.val g)) ∧
    (let s : State := { ready with cores := [(3, { state := 2, r := { pc := 0x100, g := [(1, 7), (2, 0xFFFFFFF5), (3, 0x80000000)] } })] }; let c : CoreNo := 3; let g : IssueIn := { guard := 0 }; let d : GReg := 4; let a : GReg := 2; let b : GReg := 1; (Issues s c.val g)) ∧
    (let s : State := { ready with cores := [(3, { state := 2, r := { pc := 0x100, g := [(1, 7), (2, 0xFFFFFFF5), (3, 0x80000000)] } })] }; let c : CoreNo := 3; let g : IssueIn := { guard := 0 }; let d : GReg := 4; let a : GReg := 2; let b : GReg := 1; (Issues s c.val g)) ∧
    (let s : State := { ready with cores := [(3, { state := 2, r := { pc := 0x100, g := [(1, 7), (2, 0xFFFFFFF5), (3, 0x80000000)] } })] }; let c : CoreNo := 3; let g : IssueIn := { guard := 0 }; let d : GReg := 4; let a : GReg := 2; let b : GReg := 1; (Issues s c.val g)) ∧
    (let s : State := { ready with cores := [(3, { state := 2, r := { pc := 0x100, g := [(1, 7), (2, 0xFFFFFFF5), (3, 0x80000000)] } })] }; let c : CoreNo := 3; let g : IssueIn := { guard := 0 }; let d : GReg := 4; let a : GReg := 2; let b : GReg := 1; (Issues s c.val g)) :=
  by and_intros <;> decide +kernel

/-- States and operands that meet the hypotheses of each clause of AluOps_2: subc, subx. -/
theorem meets_AluOps_2 :
    (let s : State := { ready with cores := [(3, { state := 2, r := { pc := 0x100, g := [(1, 7), (2, 0xFFFFFFF5), (3, 0x80000000)] } })] }; let c : CoreNo := 3; let g : IssueIn := { guard := 0 }; let d : GReg := 4; let a : GReg := 2; let b : GReg := 1; (Issues s c.val g)) ∧
    (let s : State := { ready with cores := [(3, { state := 2, r := { pc := 0x100, g := [(1, 7), (2, 0xFFFFFFF5), (3, 0x80000000)] } })] }; let c : CoreNo := 3; let g : IssueIn := { guard := 0 }; let d : GReg := 4; let a : GReg := 2; let b : GReg := 1; (Issues s c.val g)) :=
  by and_intros <;> decide +kernel

/-- States and operands that meet the hypotheses of each clause of ImmediateAndBitOps_1: addi, andi, ori, xori, addci, movi, shl, shr, sar, ror, clz, popc, bpar, brevb. -/
theorem meets_ImmediateAndBitOps_1 :
    (let s : State := { ready with cores := [(3, { state := 2, r := { pc := 0x100, g := [(1, 7), (2, 0xFFFFFFF5), (3, 0x80000000)] } })] }; let c : CoreNo := 3; let g : IssueIn := { guard := 0 }; let d : GReg := 4; let a : GReg := 2; let imm : BitVec 12 := 0xFFB; (Issues s c.val g)) ∧
    (let s : State := { ready with cores := [(3, { state := 2, r := { pc := 0x100, g := [(1, 7), (2, 0xFFFFFFF5), (3, 0x80000000)] } })] }; let c : CoreNo := 3; let g : IssueIn := { guard := 0 }; let d : GReg := 4; let a : GReg := 2; let imm : BitVec 12 := 0xFFB; (Issues s c.val g)) ∧
    (let s : State := { ready with cores := [(3, { state := 2, r := { pc := 0x100, g := [(1, 7), (2, 0xFFFFFFF5), (3, 0x80000000)] } })] }; let c : CoreNo := 3; let g : IssueIn := { guard := 0 }; let d : GReg := 4; let a : GReg := 2; let imm : BitVec 12 := 0xFFB; (Issues s c.val g)) ∧
    (let s : State := { ready with cores := [(3, { state := 2, r := { pc := 0x100, g := [(1, 7), (2, 0xFFFFFFF5), (3, 0x80000000)] } })] }; let c : CoreNo := 3; let g : IssueIn := { guard := 0 }; let d : GReg := 4; let a : GReg := 2; let imm : BitVec 12 := 0xFFB; (Issues s c.val g)) ∧
    (let s : State := { ready with cores := [(3, { state := 2, r := { pc := 0x100, g := [(1, 7), (2, 0xFFFFFFF5), (3, 0x80000000)] } })] }; let c : CoreNo := 3; let g : IssueIn := { guard := 0 }; let d : GReg := 4; let a : GReg := 2; let imm : BitVec 12 := 0xFFB; (Issues s c.val g)) ∧
    (let s : State := { ready with cores := [(3, { state := 2, r := { pc := 0x100, g := [(1, 7), (2, 0xFFFFFFF5), (3, 0x80000000)] } })] }; let c : CoreNo := 3; let g : IssueIn := { guard := 0 }; let d : GReg := 2; let h : Bool := true; let imm : BitVec 16 := 0xABCD; (Issues s c.val g)) ∧
    (let s : State := { ready with cores := [(3, { state := 2, r := { pc := 0x100, g := [(1, 7), (2, 0xFFFFFFF5), (3, 0x80000000)] } })] }; let c : CoreNo := 3; let g : IssueIn := { guard := 0 }; let d : GReg := 4; let a : GReg := 3; let amt : ShAmt := .imm 5; (Issues s c.val g)) ∧
    (let s : State := { ready with cores := [(3, { state := 2, r := { pc := 0x100, g := [(1, 7), (2, 0xFFFFFFF5), (3, 0x80000000)] } })] }; let c : CoreNo := 3; let g : IssueIn := { guard := 0 }; let d : GReg := 4; let a : GReg := 3; let amt : ShAmt := .imm 5; (Issues s c.val g)) ∧
    (let s : State := { ready with cores := [(3, { state := 2, r := { pc := 0x100, g := [(1, 7), (2, 0xFFFFFFF5), (3, 0x80000000)] } })] }; let c : CoreNo := 3; let g : IssueIn := { guard := 0 }; let d : GReg := 4; let a : GReg := 3; let amt : ShAmt := .imm 5; (Issues s c.val g)) ∧
    (let s : State := { ready with cores := [(3, { state := 2, r := { pc := 0x100, g := [(1, 7), (2, 0xFFFFFFF5), (3, 0x80000000)] } })] }; let c : CoreNo := 3; let g : IssueIn := { guard := 0 }; let d : GReg := 4; let a : GReg := 3; let amt : ShAmt := .imm 5; (Issues s c.val g)) ∧
    (let s : State := { ready with cores := [(3, { state := 2, r := { pc := 0x100, g := [(1, 7), (2, 0xFFFFFFF5), (3, 0x80000000)] } })] }; let c : CoreNo := 3; let g : IssueIn := { guard := 0 }; let d : GReg := 4; let a : GReg := 2; (Issues s c.val g)) ∧
    (let s : State := { ready with cores := [(3, { state := 2, r := { pc := 0x100, g := [(1, 7), (2, 0xFFFFFFF5), (3, 0x80000000)] } })] }; let c : CoreNo := 3; let g : IssueIn := { guard := 0 }; let d : GReg := 4; let a : GReg := 2; (Issues s c.val g)) ∧
    (let s : State := { ready with cores := [(3, { state := 2, r := { pc := 0x100, g := [(1, 7), (2, 0xFFFFFFF5), (3, 0x80000000)] } })] }; let c : CoreNo := 3; let g : IssueIn := { guard := 0 }; let d : GReg := 4; let a : GReg := 2; (Issues s c.val g)) ∧
    (let s : State := { ready with cores := [(3, { state := 2, r := { pc := 0x100, g := [(1, 7), (2, 0xFFFFFFF5), (3, 0x80000000)] } })] }; let c : CoreNo := 3; let g : IssueIn := { guard := 0 }; let d : GReg := 4; let a : GReg := 2; (Issues s c.val g)) :=
  by and_intros <;> decide +kernel

/-- States and operands that meet the hypotheses of each clause of ImmediateAndBitOps_2: bswap, par, brev. -/
theorem meets_ImmediateAndBitOps_2 :
    (let s : State := { ready with cores := [(3, { state := 2, r := { pc := 0x100, g := [(1, 7), (2, 0xFFFFFFF5), (3, 0x80000000)] } })] }; let c : CoreNo := 3; let g : IssueIn := { guard := 0 }; let d : GReg := 4; let a : GReg := 2; (Issues s c.val g)) ∧
    (let s : State := { ready with cores := [(3, { state := 2, r := { pc := 0x100, g := [(1, 7), (2, 0xFFFFFFF5), (3, 0x80000000)] } })] }; let c : CoreNo := 3; let g : IssueIn := { guard := 0 }; let d : GReg := 4; let a : GReg := 2; let w : BitVec 2 := 1; (Issues s c.val g) ∧ (w ≠ 3)) ∧
    (let s : State := { ready with cores := [(3, { state := 2, r := { pc := 0x100, g := [(1, 7), (2, 0xFFFFFFF5), (3, 0x80000000)] } })] }; let c : CoreNo := 3; let g : IssueIn := { guard := 0 }; let d : GReg := 4; let a : GReg := 2; let w : BitVec 2 := 1; (Issues s c.val g) ∧ (w ≠ 3)) :=
  by and_intros <;> decide +kernel

/-- States and operands that meet the hypotheses of each clause of MulDivOps: mul, mulhu, mulhs, divu, divs, remu, rems. -/
theorem meets_MulDivOps :
    (let s : State := { ready with cores := [(3, { state := 2, r := { pc := 0x100, g := [(1, 7), (2, 0xFFFFFFF5), (3, 0x80000000)] } })] }; let c : CoreNo := 3; let g : IssueIn := { guard := 0 }; let d : GReg := 4; let a : GReg := 2; let b : GReg := 1; (Issues s c.val g)) ∧
    (let s : State := { ready with cores := [(3, { state := 2, r := { pc := 0x100, g := [(1, 7), (2, 0xFFFFFFF5), (3, 0x80000000)] } })] }; let c : CoreNo := 3; let g : IssueIn := { guard := 0 }; let d : GReg := 4; let a : GReg := 2; let b : GReg := 1; (Issues s c.val g)) ∧
    (let s : State := { ready with cores := [(3, { state := 2, r := { pc := 0x100, g := [(1, 7), (2, 0xFFFFFFF5), (3, 0x80000000)] } })] }; let c : CoreNo := 3; let g : IssueIn := { guard := 0 }; let d : GReg := 4; let a : GReg := 2; let b : GReg := 1; (Issues s c.val g)) ∧
    (let s : State := { ready with cores := [(3, { state := 2, r := { pc := 0x100, g := [(1, 7), (2, 0xFFFFFFF5), (3, 0x80000000)] } })] }; let c : CoreNo := 3; let g : IssueIn := { guard := 0 }; let d : GReg := 4; let a : GReg := 2; let b : GReg := 1; (Issues s c.val g)) ∧
    (let s : State := { ready with cores := [(3, { state := 2, r := { pc := 0x100, g := [(1, 7), (2, 0xFFFFFFF5), (3, 0x80000000)] } })] }; let c : CoreNo := 3; let g : IssueIn := { guard := 0 }; let d : GReg := 4; let a : GReg := 2; let b : GReg := 1; (Issues s c.val g)) ∧
    (let s : State := { ready with cores := [(3, { state := 2, r := { pc := 0x100, g := [(1, 7), (2, 0xFFFFFFF5), (3, 0x80000000)] } })] }; let c : CoreNo := 3; let g : IssueIn := { guard := 0 }; let d : GReg := 4; let a : GReg := 2; let b : GReg := 1; (Issues s c.val g)) ∧
    (let s : State := { ready with cores := [(3, { state := 2, r := { pc := 0x100, g := [(1, 7), (2, 0xFFFFFFF5), (3, 0x80000000)] } })] }; let c : CoreNo := 3; let g : IssueIn := { guard := 0 }; let d : GReg := 4; let a : GReg := 2; let b : GReg := 1; (Issues s c.val g)) :=
  by and_intros <;> decide +kernel

/-- States and operands that meet the hypotheses of each clause of SystemRegisterOps: nop, mbar, mfs, mts, adj, crc, test. -/
theorem meets_SystemRegisterOps :
    (let s : State := { ready with cores := [(3, { state := 2, r := { pc := 0x100, g := [(1, 7), (2, 0xFFFFFFF5), (3, 0x80000000)] } })] }; let c : CoreNo := 3; let g : IssueIn := { guard := 0 }; (Issues s c.val g)) ∧
    (let s : State := { ready with cores := [(3, { state := 2, r := { pc := 0x100, g := [(1, 7), (2, 0xFFFFFFF5), (3, 0x80000000)] } })] }; let c : CoreNo := 3; let g : IssueIn := { guard := 0 }; (Issues s c.val g)) ∧
    (let s : State := { ready with cores := [(3, { state := 2, r := { pc := 0x100, g := [(1, 7), (2, 0xFFFFFFF5), (3, 0x80000000)] } })] }; let c : CoreNo := 3; let g : IssueIn := { guard := 0 }; let d : GReg := 4; let sr : BitVec 8 := 0x20; (Issues s c.val g) ∧ (srNamed sr.toNat = true) ∧ (srRefused s c.val sr.toNat false = false)) ∧
    (let s : State := { ready with cores := [(3, { state := 2, r := { pc := 0x100, g := [(1, 7), (2, 0xFFFFFFF5), (3, 0x80000000)] } })] }; let c : CoreNo := 3; let g : IssueIn := { guard := 0 }; let sr : BitVec 8 := 0; let a : GReg := 2; (Issues s c.val g) ∧ (srNamed sr.toNat = true) ∧ (srRefused s c.val sr.toNat true = false)) ∧
    (let s : State := { ready with cores := [(3, { state := 2, r := { pc := 0x100, g := [(1, 7), (2, 0xFFFFFFF5), (3, 0x80000000)] } })] }; let c : CoreNo := 3; let g : IssueIn := { guard := 0 }; let imm : BitVec 16 := 0xFFFE; (Issues s c.val g)) ∧
    (let s : State := { ready with cores := [(3, { state := 2, r := { pc := 0x100, g := [(1, 7), (2, 0xFFFFFFF5), (3, 0x80000000)] } })] }; let c : CoreNo := 3; let g : IssueIn := { guard := 0 }; let d : GReg := 4; let a : GReg := 2; let poly : BitVec 2 := 1; let sz : BitVec 2 := 1; (Issues s c.val g) ∧ (poly ≠ 3) ∧ (sz ≠ 3)) ∧
    (let s : State := { ready with cores := [(3, { state := 2, r := { pc := 0x100, g := [(1, 7), (2, 0xFFFFFFF5), (3, 0x80000000)] } })] }; let c : CoreNo := 3; let g : IssueIn := { guard := 0 }; let pd : BitVec 2 := 2; let comb : BitVec 2 := 0; let a : GReg := 2; let rel : BitVec 3 := 2; let b : TestArg := .imm 5; (Issues s c.val g) ∧ (pd ≠ 0) ∧ (comb ≠ 3)) :=
  by and_intros <;> decide +kernel

/-- States and operands that meet the hypotheses of each clause of GuardsDecide: add, store, branch, loop, undefGuard. -/
theorem meets_GuardsDecide :
    (let s : State := { ready with cores := [(3, { state := 2, r := { pc := 0x100, g := [(1, 7), (2, 0xFFFFFFF5), (3, 0x80000000)], psw := 2 } })] }; let c : CoreNo := 3; let g : IssueIn := { guard := 0x9 }; let d : GReg := 4; let a : GReg := 2; let b : GReg := 1; ((coreAt s c.val).state = 2) ∧ ((coreAt s c.val).busy = false) ∧ (takeable s c.val = none) ∧ (fetchFault s c.val (userMode (cregs s c.val)) (cregs s c.val).pc .none = none) ∧ (g.fetch = .none ∨ g.fetch = .corrected) ∧ (guardUndefined g.guard = false) ∧ (guardTrue (cregs s c.val) g.guard = false) ∧ (NoLate s c.val)) ∧
    (let s : State := { ready with cores := [(3, { state := 2, r := { pc := 0x100, g := [(1, 7), (2, 0xFFFFFFF5), (3, 0x80000000)], psw := 2 } })] }; let c : CoreNo := 3; let g : IssueIn := { guard := 0x9 }; let d : GReg := 4; let b : GReg := 1; let sz : BitVec 2 := 2; let off : BitVec 12 := 0; ((coreAt s c.val).state = 2) ∧ ((coreAt s c.val).busy = false) ∧ (takeable s c.val = none) ∧ (fetchFault s c.val (userMode (cregs s c.val)) (cregs s c.val).pc .none = none) ∧ (g.fetch = .none ∨ g.fetch = .corrected) ∧ (guardUndefined g.guard = false) ∧ (guardTrue (cregs s c.val) g.guard = false) ∧ (NoLate s c.val) ∧ (sz ≠ 3)) ∧
    (let s : State := { ready with cores := [(3, { state := 2, r := { pc := 0x100, g := [(1, 7), (2, 0xFFFFFFF5), (3, 0x80000000)], psw := 2 } })] }; let c : CoreNo := 3; let g : IssueIn := { guard := 0x9 }; let disp : BitVec 22 := 9; ((coreAt s c.val).state = 2) ∧ ((coreAt s c.val).busy = false) ∧ (takeable s c.val = none) ∧ (fetchFault s c.val (userMode (cregs s c.val)) (cregs s c.val).pc .none = none) ∧ (g.fetch = .none ∨ g.fetch = .corrected) ∧ (guardUndefined g.guard = false) ∧ (guardTrue (cregs s c.val) g.guard = false) ∧ (NoLate s c.val) ∧ (Placed s c.val .transfer)) ∧
    (let s : State := { ready with cores := [(3, { state := 2, r := { pc := 0x100, g := [(1, 7), (2, 0xFFFFFFF5), (3, 0x80000000)], psw := 2 } })] }; let c : CoreNo := 3; let g : IssueIn := { guard := 0x9 }; let lvl : Bool := false; let cnt : LoopCnt := .imm 3; let len : BitVec 12 := 2; ((coreAt s c.val).state = 2) ∧ ((coreAt s c.val).busy = false) ∧ (takeable s c.val = none) ∧ (fetchFault s c.val (userMode (cregs s c.val)) (cregs s c.val).pc .none = none) ∧ (g.fetch = .none ∨ g.fetch = .corrected) ∧ (guardUndefined g.guard = false) ∧ (guardTrue (cregs s c.val) g.guard = false) ∧ (NoLate s c.val) ∧ (Placed s c.val .loop) ∧ (len ≠ 0) ∧ (loopCount (cregs s c.val) cnt ≠ 0)) ∧
    (let s : State := { ready with cores := [(3, { state := 2, r := { pc := 0x100, g := [(1, 7), (2, 0xFFFFFFF5), (3, 0x80000000)], vbase := 0x1000, sys := { sp := 0x8000, base := 0x7000, limit := 0x8000, rsp := 0x9000, rbase := 0x8800, rlimit := 0x9000 } } })] }; let c : CoreNo := 3; let g : IssueIn := { guard := 0x7 }; let d : GReg := 4; let a : GReg := 2; let b : GReg := 1; ((coreAt s c.val).state = 2) ∧ ((coreAt s c.val).busy = false) ∧ ((coreAt s c.val).slot = none) ∧ (takeable s c.val = none) ∧ (fetchFault s c.val (userMode (cregs s c.val)) (cregs s c.val).pc .none = none) ∧ (g.fetch = .none ∨ g.fetch = .corrected) ∧ (guardUndefined g.guard = true) ∧ (CanEnter s c.val ((cregs s c.val).vbase + BitVec.ofNat 32 (64 * 0)) g.entry)) :=
  by and_intros <;> decide +kernel

/-- States and operands that meet the hypotheses of each clause of ExceptionsAreTaken_1: udf, udfRsv, crcUndef, testUndef, parUndef, brevUndef, loopUndef, copyUndef, clearUndef, clearRsv, bcrcUndef, loadUndef, loadRsv, storeUndef. -/
theorem meets_ExceptionsAreTaken_1 :
    (let s : State := { ready with cores := [(3, { state := 2, r := { pc := 0x100, g := [(1, 7), (2, 0xFFFFFFF5), (3, 0x80000000)], vbase := 0x1000, sys := { sp := 0x8000, base := 0x7000, limit := 0x8000, rsp := 0x9000, rbase := 0x8800, rlimit := 0x9000 } } })] }; let c : CoreNo := 3; let g : IssueIn := { guard := 0x9, fetch := .corrected }; let w : BitVec 32 := 0; ((coreAt s c.val).state = 2) ∧ ((coreAt s c.val).busy = false) ∧ ((coreAt s c.val).slot = none) ∧ (takeable s c.val = none) ∧ (fetchFault s c.val (userMode (cregs s c.val)) (cregs s c.val).pc .none = none) ∧ (g.fetch = .none ∨ g.fetch = .corrected) ∧ (ixSub w ≠ some 2) ∧ (CanEnter s c.val ((cregs s c.val).vbase + BitVec.ofNat 32 (64 * 0)) g.entry)) ∧
    (let s : State := { ready with cores := [(3, { state := 2, r := { pc := 0x100, g := [(1, 7), (2, 0xFFFFFFF5), (3, 0x80000000)], vbase := 0x1000, sys := { sp := 0x8000, base := 0x7000, limit := 0x8000, rsp := 0x9000, rbase := 0x8800, rlimit := 0x9000 } } })] }; let c : CoreNo := 3; let g : IssueIn := { guard := 0 }; let w : BitVec 32 := 0x01000040; ((coreAt s c.val).state = 2) ∧ ((coreAt s c.val).busy = false) ∧ ((coreAt s c.val).slot = none) ∧ (takeable s c.val = none) ∧ (fetchFault s c.val (userMode (cregs s c.val)) (cregs s c.val).pc .none = none) ∧ (g.fetch = .none ∨ g.fetch = .corrected) ∧ (guardUndefined g.guard = false) ∧ (ixSub w = some 2) ∧ (CanEnter s c.val ((cregs s c.val).vbase + BitVec.ofNat 32 (64 * 0)) g.entry)) ∧
    (let s : State := { ready with cores := [(3, { state := 2, r := { pc := 0x100, g := [(1, 7), (2, 0xFFFFFFF5), (3, 0x80000000)], vbase := 0x1000, sys := { sp := 0x8000, base := 0x7000, limit := 0x8000, rsp := 0x9000, rbase := 0x8800, rlimit := 0x9000 } } })] }; let c : CoreNo := 3; let g : IssueIn := { guard := 0 }; let d : GReg := 1; let a : GReg := 1; let poly : BitVec 2 := 3; let sz : BitVec 2 := 0; ((coreAt s c.val).state = 2) ∧ ((coreAt s c.val).busy = false) ∧ ((coreAt s c.val).slot = none) ∧ (takeable s c.val = none) ∧ (fetchFault s c.val (userMode (cregs s c.val)) (cregs s c.val).pc .none = none) ∧ (g.fetch = .none ∨ g.fetch = .corrected) ∧ (poly = 3 ∨ sz = 3) ∧ (CanEnter s c.val ((cregs s c.val).vbase + BitVec.ofNat 32 (64 * 0)) g.entry)) ∧
    (let s : State := { ready with cores := [(3, { state := 2, r := { pc := 0x100, g := [(1, 7), (2, 0xFFFFFFF5), (3, 0x80000000)], vbase := 0x1000, sys := { sp := 0x8000, base := 0x7000, limit := 0x8000, rsp := 0x9000, rbase := 0x8800, rlimit := 0x9000 } } })] }; let c : CoreNo := 3; let g : IssueIn := { guard := 0 }; let pd : BitVec 2 := 0; let comb : BitVec 2 := 0; let a : GReg := 1; let rel : BitVec 3 := 0; let b : TestArg := .imm 5; ((coreAt s c.val).state = 2) ∧ ((coreAt s c.val).busy = false) ∧ ((coreAt s c.val).slot = none) ∧ (takeable s c.val = none) ∧ (fetchFault s c.val (userMode (cregs s c.val)) (cregs s c.val).pc .none = none) ∧ (g.fetch = .none ∨ g.fetch = .corrected) ∧ (pd = 0 ∨ comb = 3) ∧ (CanEnter s c.val ((cregs s c.val).vbase + BitVec.ofNat 32 (64 * 0)) g.entry)) ∧
    (let s : State := { ready with cores := [(3, { state := 2, r := { pc := 0x100, g := [(1, 7), (2, 0xFFFFFFF5), (3, 0x80000000)], vbase := 0x1000, sys := { sp := 0x8000, base := 0x7000, limit := 0x8000, rsp := 0x9000, rbase := 0x8800, rlimit := 0x9000 } } })] }; let c : CoreNo := 3; let g : IssueIn := { guard := 0 }; let d : GReg := 1; let a : GReg := 1; let i : Bool := false; let w : BitVec 2 := 0; ((coreAt s c.val).state = 2) ∧ ((coreAt s c.val).busy = false) ∧ ((coreAt s c.val).slot = none) ∧ (takeable s c.val = none) ∧ (fetchFault s c.val (userMode (cregs s c.val)) (cregs s c.val).pc .none = none) ∧ (g.fetch = .none ∨ g.fetch = .corrected) ∧ (i = false ∨ w = 3) ∧ (CanEnter s c.val ((cregs s c.val).vbase + BitVec.ofNat 32 (64 * 0)) g.entry)) ∧
    (let s : State := { ready with cores := [(3, { state := 2, r := { pc := 0x100, g := [(1, 7), (2, 0xFFFFFFF5), (3, 0x80000000)], vbase := 0x1000, sys := { sp := 0x8000, base := 0x7000, limit := 0x8000, rsp := 0x9000, rbase := 0x8800, rlimit := 0x9000 } } })] }; let c : CoreNo := 3; let g : IssueIn := { guard := 0 }; let d : GReg := 1; let a : GReg := 1; let i : Bool := true; let w : BitVec 2 := 3; ((coreAt s c.val).state = 2) ∧ ((coreAt s c.val).busy = false) ∧ ((coreAt s c.val).slot = none) ∧ (takeable s c.val = none) ∧ (fetchFault s c.val (userMode (cregs s c.val)) (cregs s c.val).pc .none = none) ∧ (g.fetch = .none ∨ g.fetch = .corrected) ∧ (i = false ∨ w = 3) ∧ (CanEnter s c.val ((cregs s c.val).vbase + BitVec.ofNat 32 (64 * 0)) g.entry)) ∧
    (let s : State := { ready with cores := [(3, { state := 2, r := { pc := 0x100, g := [(1, 7), (2, 0xFFFFFFF5), (3, 0x80000000)], vbase := 0x1000, sys := { sp := 0x8000, base := 0x7000, limit := 0x8000, rsp := 0x9000, rbase := 0x8800, rlimit := 0x9000 } } })] }; let c : CoreNo := 3; let g : IssueIn := { guard := 0 }; let lvl : Bool := true; let cnt : LoopCnt := .imm 3; ((coreAt s c.val).state = 2) ∧ ((coreAt s c.val).busy = false) ∧ ((coreAt s c.val).slot = none) ∧ (takeable s c.val = none) ∧ (fetchFault s c.val (userMode (cregs s c.val)) (cregs s c.val).pc .none = none) ∧ (g.fetch = .none ∨ g.fetch = .corrected) ∧ (CanEnter s c.val ((cregs s c.val).vbase + BitVec.ofNat 32 (64 * 0)) g.entry)) ∧
    (let s : State := { ready with cores := [(3, { state := 2, r := { pc := 0x100, g := [(1, 7), (2, 0xFFFFFFF5), (3, 0x80000000)], vbase := 0x1000, sys := { sp := 0x8000, base := 0x7000, limit := 0x8000, rsp := 0x9000, rbase := 0x8800, rlimit := 0x9000 } } })] }; let c : CoreNo := 3; let g : IssueIn := { guard := 0 }; let d : GReg := 1; let a : GReg := 1; let n : GReg := 2; let poly : BitVec 2 := 0; ((coreAt s c.val).state = 2) ∧ ((coreAt s c.val).busy = false) ∧ ((coreAt s c.val).slot = none) ∧ (takeable s c.val = none) ∧ (fetchFault s c.val (userMode (cregs s c.val)) (cregs s c.val).pc .none = none) ∧ (g.fetch = .none ∨ g.fetch = .corrected) ∧ (poly ≠ 0 ∨ blockOperands [d, a, n] = false) ∧ (CanEnter s c.val ((cregs s c.val).vbase + BitVec.ofNat 32 (64 * 0)) g.entry)) ∧
    (let s : State := { ready with cores := [(3, { state := 2, r := { pc := 0x100, g := [(1, 7), (2, 0xFFFFFFF5), (3, 0x80000000)], vbase := 0x1000, sys := { sp := 0x8000, base := 0x7000, limit := 0x8000, rsp := 0x9000, rbase := 0x8800, rlimit := 0x9000 } } })] }; let c : CoreNo := 3; let g : IssueIn := { guard := 0 }; let d : GReg := 1; let a : GReg := 0; let n : GReg := 2; let poly : BitVec 2 := 1; ((coreAt s c.val).state = 2) ∧ ((coreAt s c.val).busy = false) ∧ ((coreAt s c.val).slot = none) ∧ (takeable s c.val = none) ∧ (fetchFault s c.val (userMode (cregs s c.val)) (cregs s c.val).pc .none = none) ∧ (g.fetch = .none ∨ g.fetch = .corrected) ∧ (poly ≠ 0 ∨ blockOperands [d, n] = false) ∧ (CanEnter s c.val ((cregs s c.val).vbase + BitVec.ofNat 32 (64 * 0)) g.entry)) ∧
    (let s : State := { ready with cores := [(3, { state := 2, r := { pc := 0x100, g := [(1, 7), (2, 0xFFFFFFF5), (3, 0x80000000)], vbase := 0x1000, sys := { sp := 0x8000, base := 0x7000, limit := 0x8000, rsp := 0x9000, rbase := 0x8800, rlimit := 0x9000 } } })] }; let c : CoreNo := 3; let g : IssueIn := { guard := 0 }; let d : GReg := 1; let a : GReg := 3; let n : GReg := 2; ((coreAt s c.val).state = 2) ∧ ((coreAt s c.val).busy = false) ∧ ((coreAt s c.val).slot = none) ∧ (takeable s c.val = none) ∧ (fetchFault s c.val (userMode (cregs s c.val)) (cregs s c.val).pc .none = none) ∧ (g.fetch = .none ∨ g.fetch = .corrected) ∧ (guardUndefined g.guard = false) ∧ (a ≠ 0) ∧ (blockOperands [d, n] = true) ∧ (CanEnter s c.val ((cregs s c.val).vbase + BitVec.ofNat 32 (64 * 0)) g.entry)) ∧
    (let s : State := { ready with cores := [(3, { state := 2, r := { pc := 0x100, g := [(1, 7), (2, 0xFFFFFFF5), (3, 0x80000000)], vbase := 0x1000, sys := { sp := 0x8000, base := 0x7000, limit := 0x8000, rsp := 0x9000, rbase := 0x8800, rlimit := 0x9000 } } })] }; let c : CoreNo := 3; let g : IssueIn := { guard := 0 }; let d : GReg := 1; let a : GReg := 0; let n : GReg := 2; let poly : BitVec 2 := 1; ((coreAt s c.val).state = 2) ∧ ((coreAt s c.val).busy = false) ∧ ((coreAt s c.val).slot = none) ∧ (takeable s c.val = none) ∧ (fetchFault s c.val (userMode (cregs s c.val)) (cregs s c.val).pc .none = none) ∧ (g.fetch = .none ∨ g.fetch = .corrected) ∧ (poly = 3 ∨ blockOperands [d, a, n] = false) ∧ (CanEnter s c.val ((cregs s c.val).vbase + BitVec.ofNat 32 (64 * 0)) g.entry)) ∧
    (let s : State := { ready with cores := [(3, { state := 2, r := { pc := 0x100, g := [(1, 7), (2, 0xFFFFFFF5), (3, 0x80000000)], vbase := 0x1000, sys := { sp := 0x8000, base := 0x7000, limit := 0x8000, rsp := 0x9000, rbase := 0x8800, rlimit := 0x9000 } } })] }; let c : CoreNo := 3; let g : IssueIn := { guard := 0 }; let d : GReg := 1; let b : GReg := 1; let x : Bool := false; let off : BitVec 12 := 0; let flt : MemFlt := .none; ((coreAt s c.val).state = 2) ∧ ((coreAt s c.val).busy = false) ∧ ((coreAt s c.val).slot = none) ∧ (takeable s c.val = none) ∧ (fetchFault s c.val (userMode (cregs s c.val)) (cregs s c.val).pc .none = none) ∧ (g.fetch = .none ∨ g.fetch = .corrected) ∧ (CanEnter s c.val ((cregs s c.val).vbase + BitVec.ofNat 32 (64 * 0)) g.entry)) ∧
    (let s : State := { ready with cores := [(3, { state := 2, r := { pc := 0x100, g := [(1, 7), (2, 0xFFFFFFF5), (3, 0x80000000)], vbase := 0x1000, sys := { sp := 0x8000, base := 0x7000, limit := 0x8000, rsp := 0x9000, rbase := 0x8800, rlimit := 0x9000 } } })] }; let c : CoreNo := 3; let g : IssueIn := { guard := 0 }; let d : GReg := 1; let b : GReg := 1; let off : BitVec 12 := 0; let flt : MemFlt := .none; ((coreAt s c.val).state = 2) ∧ ((coreAt s c.val).busy = false) ∧ ((coreAt s c.val).slot = none) ∧ (takeable s c.val = none) ∧ (fetchFault s c.val (userMode (cregs s c.val)) (cregs s c.val).pc .none = none) ∧ (g.fetch = .none ∨ g.fetch = .corrected) ∧ (guardUndefined g.guard = false) ∧ (CanEnter s c.val ((cregs s c.val).vbase + BitVec.ofNat 32 (64 * 0)) g.entry)) ∧
    (let s : State := { ready with cores := [(3, { state := 2, r := { pc := 0x100, g := [(1, 7), (2, 0xFFFFFFF5), (3, 0x80000000)], vbase := 0x1000, sys := { sp := 0x8000, base := 0x7000, limit := 0x8000, rsp := 0x9000, rbase := 0x8800, rlimit := 0x9000 } } })] }; let c : CoreNo := 3; let g : IssueIn := { guard := 0 }; let d : GReg := 1; let b : GReg := 1; let x : Bool := false; let off : BitVec 12 := 0; ((coreAt s c.val).state = 2) ∧ ((coreAt s c.val).busy = false) ∧ ((coreAt s c.val).slot = none) ∧ (takeable s c.val = none) ∧ (fetchFault s c.val (userMode (cregs s c.val)) (cregs s c.val).pc .none = none) ∧ (g.fetch = .none ∨ g.fetch = .corrected) ∧ (CanEnter s c.val ((cregs s c.val).vbase + BitVec.ofNat 32 (64 * 0)) g.entry)) :=
  by and_intros <;> decide +kernel

/-- States and operands that meet the hypotheses of each clause of ExceptionsAreTaken_2: storeRsv, pushmRsv, popmRsv, mfsReserved, mtsReserved, place, haltUser, wfiUser, eretUser, mtsUser, mfsUser, alignLoad, alignStore, rangeStore. -/
theorem meets_ExceptionsAreTaken_2 :
    (let s : State := { ready with cores := [(3, { state := 2, r := { pc := 0x100, g := [(1, 7), (2, 0xFFFFFFF5), (3, 0x80000000)], vbase := 0x1000, sys := { sp := 0x8000, base := 0x7000, limit := 0x8000, rsp := 0x9000, rbase := 0x8800, rlimit := 0x9000 } } })] }; let c : CoreNo := 3; let g : IssueIn := { guard := 0 }; let d : GReg := 1; let b : GReg := 1; let sz : BitVec 2 := 2; let off : BitVec 12 := 0; ((coreAt s c.val).state = 2) ∧ ((coreAt s c.val).busy = false) ∧ ((coreAt s c.val).slot = none) ∧ (takeable s c.val = none) ∧ (fetchFault s c.val (userMode (cregs s c.val)) (cregs s c.val).pc .none = none) ∧ (g.fetch = .none ∨ g.fetch = .corrected) ∧ (guardUndefined g.guard = false) ∧ (sz ≠ 3) ∧ (CanEnter s c.val ((cregs s c.val).vbase + BitVec.ofNat 32 (64 * 0)) g.entry)) ∧
    (let s : State := { ready with cores := [(3, { state := 2, r := { pc := 0x100, g := [(1, 7), (2, 0xFFFFFFF5), (3, 0x80000000)], vbase := 0x1000, sys := { sp := 0x8000, base := 0x7000, limit := 0x8000, rsp := 0x9000, rbase := 0x8800, rlimit := 0x9000 } } })] }; let c : CoreNo := 3; let g : IssueIn := { guard := 0 }; let mask : BitVec 16 := 0x8000; ((coreAt s c.val).state = 2) ∧ ((coreAt s c.val).busy = false) ∧ ((coreAt s c.val).slot = none) ∧ (takeable s c.val = none) ∧ (fetchFault s c.val (userMode (cregs s c.val)) (cregs s c.val).pc .none = none) ∧ (g.fetch = .none ∨ g.fetch = .corrected) ∧ (guardUndefined g.guard = false) ∧ (maskBad mask = true) ∧ (CanEnter s c.val ((cregs s c.val).vbase + BitVec.ofNat 32 (64 * 0)) g.entry)) ∧
    (let s : State := { ready with cores := [(3, { state := 2, r := { pc := 0x100, g := [(1, 7), (2, 0xFFFFFFF5), (3, 0x80000000)], vbase := 0x1000, sys := { sp := 0x8000, base := 0x7000, limit := 0x8000, rsp := 0x9000, rbase := 0x8800, rlimit := 0x9000 } } })] }; let c : CoreNo := 3; let g : IssueIn := { guard := 0 }; let mask : BitVec 16 := 1; ((coreAt s c.val).state = 2) ∧ ((coreAt s c.val).busy = false) ∧ ((coreAt s c.val).slot = none) ∧ (takeable s c.val = none) ∧ (fetchFault s c.val (userMode (cregs s c.val)) (cregs s c.val).pc .none = none) ∧ (g.fetch = .none ∨ g.fetch = .corrected) ∧ (guardUndefined g.guard = false) ∧ (maskBad mask = true) ∧ (CanEnter s c.val ((cregs s c.val).vbase + BitVec.ofNat 32 (64 * 0)) g.entry)) ∧
    (let s : State := { ready with cores := [(3, { state := 2, r := { pc := 0x100, g := [(1, 7), (2, 0xFFFFFFF5), (3, 0x80000000)], vbase := 0x1000, sys := { sp := 0x8000, base := 0x7000, limit := 0x8000, rsp := 0x9000, rbase := 0x8800, rlimit := 0x9000 } } })] }; let c : CoreNo := 3; let g : IssueIn := { guard := 0 }; let d : GReg := 1; let sr : BitVec 8 := 0x11; ((coreAt s c.val).state = 2) ∧ ((coreAt s c.val).busy = false) ∧ ((coreAt s c.val).slot = none) ∧ (takeable s c.val = none) ∧ (fetchFault s c.val (userMode (cregs s c.val)) (cregs s c.val).pc .none = none) ∧ (g.fetch = .none ∨ g.fetch = .corrected) ∧ (guardUndefined g.guard = false) ∧ (guardTrue (cregs s c.val) g.guard = true) ∧ (srNamed sr.toNat = false) ∧ (CanEnter s c.val ((cregs s c.val).vbase + BitVec.ofNat 32 (64 * 0)) g.entry)) ∧
    (let s : State := { ready with cores := [(3, { state := 2, r := { pc := 0x100, g := [(1, 7), (2, 0xFFFFFFF5), (3, 0x80000000)], vbase := 0x1000, sys := { sp := 0x8000, base := 0x7000, limit := 0x8000, rsp := 0x9000, rbase := 0x8800, rlimit := 0x9000 } } })] }; let c : CoreNo := 3; let g : IssueIn := { guard := 0 }; let sr : BitVec 8 := 0x38; let a : GReg := 1; ((coreAt s c.val).state = 2) ∧ ((coreAt s c.val).busy = false) ∧ ((coreAt s c.val).slot = none) ∧ (takeable s c.val = none) ∧ (fetchFault s c.val (userMode (cregs s c.val)) (cregs s c.val).pc .none = none) ∧ (g.fetch = .none ∨ g.fetch = .corrected) ∧ (guardUndefined g.guard = false) ∧ (guardTrue (cregs s c.val) g.guard = true) ∧ (srNamed sr.toNat = false) ∧ (CanEnter s c.val ((cregs s c.val).vbase + BitVec.ofNat 32 (64 * 0)) g.entry)) ∧
    (let s : State := { ready with cores := [(3, { state := 2, r := { pc := 0x100, g := [(1, 7), (2, 0xFFFFFFF5), (3, 0x80000000)], vbase := 0x1000, sys := { sp := 0x8000, base := 0x7000, limit := 0x8000, rsp := 0x9000, rbase := 0x8800, rlimit := 0x9000 }, lc0 := 2, le0 := 0x100 } })] }; let c : CoreNo := 3; let g : IssueIn := { guard := 0 }; let disp : BitVec 22 := 0; ((coreAt s c.val).state = 2) ∧ ((coreAt s c.val).busy = false) ∧ ((coreAt s c.val).slot = none) ∧ (takeable s c.val = none) ∧ (fetchFault s c.val (userMode (cregs s c.val)) (cregs s c.val).pc .none = none) ∧ (g.fetch = .none ∨ g.fetch = .corrected) ∧ (guardUndefined g.guard = false) ∧ ((cregs s c.val).lc0 ≠ 0) ∧ ((cregs s c.val).le0 = (cregs s c.val).pc) ∧ (CanEnter s c.val ((cregs s c.val).vbase + BitVec.ofNat 32 (64 * 0)) g.entry)) ∧
    (let s : State := { ready with chk := { rules := [(0, 0x8F), (3, 0x3FFC0)] }, cores := [(3, { state := 2, r := { pc := 0x100, g := [(1, 7), (2, 0xFFFFFFF5), (3, 0x80000000)], vbase := 0x1000, sys := { sp := 0x8000, base := 0x7000, limit := 0x8000, rsp := 0x9000, rbase := 0x8800, rlimit := 0x9000 }, psw := 0x10 } })] }; let c : CoreNo := 3; let g : IssueIn := { guard := 0 }; ((coreAt s c.val).state = 2) ∧ ((coreAt s c.val).busy = false) ∧ ((coreAt s c.val).slot = none) ∧ (takeable s c.val = none) ∧ (fetchFault s c.val (userMode (cregs s c.val)) (cregs s c.val).pc .none = none) ∧ (g.fetch = .none ∨ g.fetch = .corrected) ∧ (guardUndefined g.guard = false) ∧ (userMode (cregs s c.val) = true) ∧ (CanEnter s c.val ((cregs s c.val).vbase + BitVec.ofNat 32 (64 * 1)) g.entry)) ∧
    (let s : State := { ready with chk := { rules := [(0, 0x8F), (3, 0x3FFC0)] }, cores := [(3, { state := 2, r := { pc := 0x100, g := [(1, 7), (2, 0xFFFFFFF5), (3, 0x80000000)], vbase := 0x1000, sys := { sp := 0x8000, base := 0x7000, limit := 0x8000, rsp := 0x9000, rbase := 0x8800, rlimit := 0x9000 }, psw := 0x10 } })] }; let c : CoreNo := 3; let g : IssueIn := { guard := 0 }; ((coreAt s c.val).state = 2) ∧ ((coreAt s c.val).busy = false) ∧ ((coreAt s c.val).slot = none) ∧ (takeable s c.val = none) ∧ (fetchFault s c.val (userMode (cregs s c.val)) (cregs s c.val).pc .none = none) ∧ (g.fetch = .none ∨ g.fetch = .corrected) ∧ (guardUndefined g.guard = false) ∧ (userMode (cregs s c.val) = true) ∧ (CanEnter s c.val ((cregs s c.val).vbase + BitVec.ofNat 32 (64 * 1)) g.entry)) ∧
    (let s : State := { ready with chk := { rules := [(0, 0x8F), (3, 0x3FFC0)] }, cores := [(3, { state := 2, r := { pc := 0x100, g := [(1, 7), (2, 0xFFFFFFF5), (3, 0x80000000)], vbase := 0x1000, sys := { sp := 0x8000, base := 0x7000, limit := 0x8000, rsp := 0x9000, rbase := 0x8800, rlimit := 0x9000 }, psw := 0x10 } })] }; let c : CoreNo := 3; let g : IssueIn := { guard := 0 }; ((coreAt s c.val).state = 2) ∧ ((coreAt s c.val).busy = false) ∧ ((coreAt s c.val).slot = none) ∧ (takeable s c.val = none) ∧ (fetchFault s c.val (userMode (cregs s c.val)) (cregs s c.val).pc .none = none) ∧ (g.fetch = .none ∨ g.fetch = .corrected) ∧ (guardUndefined g.guard = false) ∧ (userMode (cregs s c.val) = true) ∧ (CanEnter s c.val ((cregs s c.val).vbase + BitVec.ofNat 32 (64 * 1)) g.entry)) ∧
    (let s : State := { ready with chk := { rules := [(0, 0x8F), (3, 0x3FFC0)] }, cores := [(3, { state := 2, r := { pc := 0x100, g := [(1, 7), (2, 0xFFFFFFF5), (3, 0x80000000)], vbase := 0x1000, sys := { sp := 0x8000, base := 0x7000, limit := 0x8000, rsp := 0x9000, rbase := 0x8800, rlimit := 0x9000 }, psw := 0x10 } })] }; let c : CoreNo := 3; let g : IssueIn := { guard := 0 }; let sr : BitVec 8 := 0x20; let a : GReg := 1; ((coreAt s c.val).state = 2) ∧ ((coreAt s c.val).busy = false) ∧ ((coreAt s c.val).slot = none) ∧ (takeable s c.val = none) ∧ (fetchFault s c.val (userMode (cregs s c.val)) (cregs s c.val).pc .none = none) ∧ (g.fetch = .none ∨ g.fetch = .corrected) ∧ (guardUndefined g.guard = false) ∧ (srNamed sr.toNat = true) ∧ (srRefused s c.val sr.toNat true = true) ∧ (CanEnter s c.val ((cregs s c.val).vbase + BitVec.ofNat 32 (64 * 1)) g.entry)) ∧
    (let s : State := { ready with chk := { rules := [(0, 0x8F), (3, 0x3FFC0)] }, cores := [(3, { state := 2, r := { pc := 0x100, g := [(1, 7), (2, 0xFFFFFFF5), (3, 0x80000000)], vbase := 0x1000, sys := { sp := 0x8000, base := 0x7000, limit := 0x8000, rsp := 0x9000, rbase := 0x8800, rlimit := 0x9000 }, psw := 0x10 } })] }; let c : CoreNo := 3; let g : IssueIn := { guard := 0 }; let d : GReg := 1; let sr : BitVec 8 := 0x20; ((coreAt s c.val).state = 2) ∧ ((coreAt s c.val).busy = false) ∧ ((coreAt s c.val).slot = none) ∧ (takeable s c.val = none) ∧ (fetchFault s c.val (userMode (cregs s c.val)) (cregs s c.val).pc .none = none) ∧ (g.fetch = .none ∨ g.fetch = .corrected) ∧ (guardUndefined g.guard = false) ∧ (srNamed sr.toNat = true) ∧ (srRefused s c.val sr.toNat false = true) ∧ (CanEnter s c.val ((cregs s c.val).vbase + BitVec.ofNat 32 (64 * 1)) g.entry)) ∧
    (let s : State := { ready with cores := [(3, { state := 2, r := { pc := 0x100, g := [(1, 7), (2, 0xFFFFFFF5), (3, 0x80000000)], vbase := 0x1000, sys := { sp := 0x8000, base := 0x7000, limit := 0x8000, rsp := 0x9000, rbase := 0x8800, rlimit := 0x9000 } } })] }; let c : CoreNo := 3; let g : IssueIn := { guard := 0 }; let d : GReg := 1; let b : GReg := 1; let sz : BitVec 2 := 2; let x : Bool := false; let off : BitVec 12 := 2; let flt : MemFlt := .none; ((coreAt s c.val).state = 2) ∧ ((coreAt s c.val).busy = false) ∧ ((coreAt s c.val).slot = none) ∧ (takeable s c.val = none) ∧ (fetchFault s c.val (userMode (cregs s c.val)) (cregs s c.val).pc .none = none) ∧ (g.fetch = .none ∨ g.fetch = .corrected) ∧ (guardUndefined g.guard = false) ∧ (guardTrue (cregs s c.val) g.guard = true) ∧ (sz ≠ 3) ∧ (sz ≠ 2 ∨ x = false) ∧ ((ldstAddr (cregs s c.val) b off).toNat % sizeBytes sz ≠ 0) ∧ (CanEnter s c.val ((cregs s c.val).vbase + BitVec.ofNat 32 (64 * 2)) g.entry)) ∧
    (let s : State := { ready with cores := [(3, { state := 2, r := { pc := 0x100, g := [(1, 7), (2, 0xFFFFFFF5), (3, 0x80000000)], vbase := 0x1000, sys := { sp := 0x8000, base := 0x7000, limit := 0x8000, rsp := 0x9000, rbase := 0x8800, rlimit := 0x9000 } } })] }; let c : CoreNo := 3; let g : IssueIn := { guard := 0 }; let d : GReg := 1; let b : GReg := 1; let sz : BitVec 2 := 2; let off : BitVec 12 := 2; ((coreAt s c.val).state = 2) ∧ ((coreAt s c.val).busy = false) ∧ ((coreAt s c.val).slot = none) ∧ (takeable s c.val = none) ∧ (fetchFault s c.val (userMode (cregs s c.val)) (cregs s c.val).pc .none = none) ∧ (g.fetch = .none ∨ g.fetch = .corrected) ∧ (guardUndefined g.guard = false) ∧ (guardTrue (cregs s c.val) g.guard = true) ∧ (sz ≠ 3) ∧ ((ldstAddr (cregs s c.val) b off).toNat % sizeBytes sz ≠ 0) ∧ (CanEnter s c.val ((cregs s c.val).vbase + BitVec.ofNat 32 (64 * 2)) g.entry)) ∧
    (let s : State := { ready with cores := [(3, { state := 2, r := { pc := 0x100, g := [(1, 0x8F00), (2, 0xFFFFFFF5), (3, 0x80000000)], vbase := 0x1000, sys := { sp := 0x8000, base := 0x7000, limit := 0x8000, rsp := 0x9000, rbase := 0x8800, rlimit := 0x9000 } } })] }; let c : CoreNo := 3; let g : IssueIn := { guard := 0 }; let d : GReg := 1; let b : GReg := 1; let sz : BitVec 2 := 2; let off : BitVec 12 := 0; ((coreAt s c.val).state = 2) ∧ ((coreAt s c.val).busy = false) ∧ ((coreAt s c.val).slot = none) ∧ (takeable s c.val = none) ∧ (fetchFault s c.val (userMode (cregs s c.val)) (cregs s c.val).pc .none = none) ∧ (g.fetch = .none ∨ g.fetch = .corrected) ∧ (guardUndefined g.guard = false) ∧ (guardTrue (cregs s c.val) g.guard = true) ∧ (sz ≠ 3) ∧ ((ldstAddr (cregs s c.val) b off).toNat % sizeBytes sz = 0) ∧ (hitsReturnStack (cregs s c.val) (ldstAddr (cregs s c.val) b off).toNat (sizeBytes sz) = true) ∧ (CanEnter s c.val ((cregs s c.val).vbase + BitVec.ofNat 32 (64 * 5)) g.entry)) :=
  by and_intros <;> decide +kernel

/-- States and operands that meet the hypotheses of each clause of ExceptionsAreTaken_3: accessStore, accessLoad, pushFirst, retMismatch, eretMismatch, gateRange, gateEntry, fetch, fetchRefused, inSlot. -/
theorem meets_ExceptionsAreTaken_3 :
    (let s : State := { ready with cores := [(3, { state := 2, r := { pc := 0x100, g := [(1, 0x3000000), (2, 0xFFFFFFF5), (3, 0x80000000)], vbase := 0x1000, sys := { sp := 0x8000, base := 0x7000, limit := 0x8000, rsp := 0x9000, rbase := 0x8800, rlimit := 0x9000 } } })] }; let c : CoreNo := 3; let g : IssueIn := { guard := 0 }; let d : GReg := 1; let b : GReg := 1; let sz : BitVec 2 := 2; let off : BitVec 12 := 0; ((coreAt s c.val).state = 2) ∧ ((coreAt s c.val).busy = false) ∧ ((coreAt s c.val).slot = none) ∧ (takeable s c.val = none) ∧ (fetchFault s c.val (userMode (cregs s c.val)) (cregs s c.val).pc .none = none) ∧ (g.fetch = .none ∨ g.fetch = .corrected) ∧ (guardUndefined g.guard = false) ∧ (guardTrue (cregs s c.val) g.guard = true) ∧ (sz ≠ 3) ∧ ((ldstAddr (cregs s c.val) b off).toNat % sizeBytes sz = 0) ∧ (hitsReturnStack (cregs s c.val) (ldstAddr (cregs s c.val) b off).toNat (sizeBytes sz) = false) ∧ (permits s (coreAcs s c.val (userMode (cregs s c.val)) (ldstAddr (cregs s c.val) b off).toNat (sizeBytes sz) .write) = false) ∧ (CanEnter s c.val ((cregs s c.val).vbase + BitVec.ofNat 32 (64 * 4)) g.entry)) ∧
    (let s : State := { ready with cores := [(3, { state := 2, r := { pc := 0x100, g := [(1, 0x3000000), (2, 0xFFFFFFF5), (3, 0x80000000)], vbase := 0x1000, sys := { sp := 0x8000, base := 0x7000, limit := 0x8000, rsp := 0x9000, rbase := 0x8800, rlimit := 0x9000 } } })] }; let c : CoreNo := 3; let g : IssueIn := { guard := 0 }; let d : GReg := 1; let b : GReg := 1; let sz : BitVec 2 := 2; let x : Bool := false; let off : BitVec 12 := 0; let flt : MemFlt := .none; ((coreAt s c.val).state = 2) ∧ ((coreAt s c.val).busy = false) ∧ ((coreAt s c.val).slot = none) ∧ (takeable s c.val = none) ∧ (fetchFault s c.val (userMode (cregs s c.val)) (cregs s c.val).pc .none = none) ∧ (g.fetch = .none ∨ g.fetch = .corrected) ∧ (guardUndefined g.guard = false) ∧ (guardTrue (cregs s c.val) g.guard = true) ∧ (sz ≠ 3) ∧ (sz ≠ 2 ∨ x = false) ∧ ((ldstAddr (cregs s c.val) b off).toNat % sizeBytes sz = 0) ∧ (permits s (coreAcs s c.val (userMode (cregs s c.val)) (ldstAddr (cregs s c.val) b off).toNat (sizeBytes sz) .read) = false) ∧ (CanEnter s c.val ((cregs s c.val).vbase + BitVec.ofNat 32 (64 * 4)) g.entry)) ∧
    (let s : State := { ready with chk := { rules := [(0, 0x8F), (3, 0x3FFC0)] }, cores := [(3, { state := 2, r := { pc := 0x100, g := [(1, 7), (2, 0xFFFFFFF5), (3, 0x80000000)], psw := 0x10, usr := { sp := 0x100, base := 0x200, limit := 0x300 }, vbase := 0x1000, sys := { sp := 0x7F00, base := 0x7000, limit := 0x7F00, rsp := 0x9000, rbase := 0x8800, rlimit := 0x9000 } } })] }; let c : CoreNo := 3; let g : IssueIn := { guard := 0 }; let mask : BitVec 16 := 2; let e : Exc := ⟨5, 1, 0xFC⟩; ((coreAt s c.val).state = 2) ∧ ((coreAt s c.val).busy = false) ∧ ((coreAt s c.val).slot = none) ∧ (takeable s c.val = none) ∧ (fetchFault s c.val (userMode (cregs s c.val)) (cregs s c.val).pc .none = none) ∧ (g.fetch = .none ∨ g.fetch = .corrected) ∧ (guardUndefined g.guard = false) ∧ (guardTrue (cregs s c.val) g.guard = true) ∧ (maskBad mask = false) ∧ (maskRegs mask ≠ []) ∧ (dataStackFault (cregs s c.val) ((stk (cregs s c.val)).sp - 4) true = some e) ∧ (CanEnter s c.val ((cregs s c.val).vbase + BitVec.ofNat 32 (64 * e.vec)) g.entry)) ∧
    (let s : State := { ready with mem := [(lramBase 3 + 0x7FFC, 0x40)], cores := [(3, { state := 2, r := { pc := 0x100, g := [(1, 7), (2, 0xFFFFFFF5), (3, 0x80000000)], vbase := 0x1000, sys := { sp := 0x7FFC, base := 0x7000, limit := 0x8000, rsp := 0x8FFC, rbase := 0x8800, rlimit := 0x9000 } } })] }; let c : CoreNo := 3; let g : IssueIn := { guard := 0 }; ((coreAt s c.val).state = 2) ∧ ((coreAt s c.val).busy = false) ∧ ((coreAt s c.val).slot = none) ∧ (takeable s c.val = none) ∧ (fetchFault s c.val (userMode (cregs s c.val)) (cregs s c.val).pc .none = none) ∧ (g.fetch = .none ∨ g.fetch = .corrected) ∧ (guardUndefined g.guard = false) ∧ (guardTrue (cregs s c.val) g.guard = true) ∧ (Placed s c.val .transfer) ∧ (stackFault (stk (cregs s c.val)) (stk (cregs s c.val)).sp (stk (cregs s c.val)).rsp = none) ∧ (MayUse s c.val (userMode (cregs s c.val)) .read (stk (cregs s c.val)).sp.toNat 4) ∧ (MayUse s c.val (userMode (cregs s c.val)) .read (stk (cregs s c.val)).rsp.toNat 4) ∧ (wordAt s c.val (stk (cregs s c.val)).sp ≠ wordAt s c.val (stk (cregs s c.val)).rsp) ∧ (readFlt g 0 = .none) ∧ (readFlt g 1 = .none) ∧ (CanEnter s c.val ((cregs s c.val).vbase + BitVec.ofNat 32 (64 * 7)) g.entry)) ∧
    (let s : State := { ready with mem := [(lramBase 3 + 0x7F00, 0x41)], cores := [(3, { state := 2, r := { pc := 0x100, g := [(1, 7), (2, 0xFFFFFFF5), (3, 0x80000000)], vbase := 0x1000, sys := { sp := 0x7F00, base := 0x7000, limit := 0x8000, rsp := 0x8FF0, rbase := 0x8800, rlimit := 0x9000 } } })] }; let c : CoreNo := 3; let g : IssueIn := { guard := 0 }; ((coreAt s c.val).state = 2) ∧ ((coreAt s c.val).busy = false) ∧ ((coreAt s c.val).slot = none) ∧ (takeable s c.val = none) ∧ (fetchFault s c.val (userMode (cregs s c.val)) (cregs s c.val).pc .none = none) ∧ (g.fetch = .none ∨ g.fetch = .corrected) ∧ (guardUndefined g.guard = false) ∧ (guardTrue (cregs s c.val) g.guard = true) ∧ (Placed s c.val .alone) ∧ (userMode (cregs s c.val) = false) ∧ (eretBounds (cregs s c.val).sys = none) ∧ (∀ i ∈ List.range 10, MayUse s c.val false .read ((cregs s c.val).sys.sp + BitVec.ofNat 32 (4 * i)).toNat 4) ∧ (MayUse s c.val false .read (cregs s c.val).sys.rsp.toNat 4) ∧ (wordAt s c.val (cregs s c.val).sys.sp ≠ wordAt s c.val (cregs s c.val).sys.rsp) ∧ (g.data = []) ∧ (CanEnter s c.val ((cregs s c.val).vbase + BitVec.ofNat 32 (64 * 7)) g.entry)) ∧
    (let s : State := { ready with cores := [(3, { state := 2, r := { pc := 0x100, g := [(1, 7), (2, 0xFFFFFFF5), (3, 0x80000000)], vbase := 0x1000, sys := { sp := 0x8000, base := 0x7000, limit := 0x8000, rsp := 0x9000, rbase := 0x8800, rlimit := 0x9000 } } })] }; let c : CoreNo := 3; let g : IssueIn := { guard := 0 }; let n : BitVec 12 := 5; ((coreAt s c.val).state = 2) ∧ ((coreAt s c.val).busy = false) ∧ ((coreAt s c.val).slot = none) ∧ (takeable s c.val = none) ∧ (fetchFault s c.val (userMode (cregs s c.val)) (cregs s c.val).pc .none = none) ∧ (g.fetch = .none ∨ g.fetch = .corrected) ∧ (guardUndefined g.guard = false) ∧ (guardTrue (cregs s c.val) g.guard = true) ∧ (Placed s c.val .alone) ∧ (min 4096 (cregs s c.val).tgLimit.toNat ≤ n.toNat) ∧ (CanEnter s c.val ((cregs s c.val).vbase + BitVec.ofNat 32 (64 * 8)) g.entry)) ∧
    (let s : State := { ready with cores := [(3, { state := 2, r := { pc := 0x100, g := [(1, 7), (2, 0xFFFFFFF5), (3, 0x80000000)], vbase := 0x1000, sys := { sp := 0x8000, base := 0x7000, limit := 0x8000, rsp := 0x9000, rbase := 0x8800, rlimit := 0x9000 }, tgBase := 0x600, tgLimit := 2 } })] }; let c : CoreNo := 3; let g : IssueIn := { guard := 0 }; let n : BitVec 12 := 1; ((coreAt s c.val).state = 2) ∧ ((coreAt s c.val).busy = false) ∧ ((coreAt s c.val).slot = none) ∧ (takeable s c.val = none) ∧ (fetchFault s c.val (userMode (cregs s c.val)) (cregs s c.val).pc .none = none) ∧ (g.fetch = .none ∨ g.fetch = .corrected) ∧ (guardUndefined g.guard = false) ∧ (guardTrue (cregs s c.val) g.guard = true) ∧ (Placed s c.val .alone) ∧ (n.toNat < min 4096 (cregs s c.val).tgLimit.toNat) ∧ (MayUse s c.val false .read ((cregs s c.val).tgBase + BitVec.ofNat 32 (8 * n.toNat)).toNat 4) ∧ (MayUse s c.val false .read (((cregs s c.val).tgBase + BitVec.ofNat 32 (8 * n.toNat)).toNat + 4) 4) ∧ ((((cregs s c.val).tgBase + BitVec.ofNat 32 (8 * n.toNat)) + 4).toNat = ((cregs s c.val).tgBase + BitVec.ofNat 32 (8 * n.toNat)).toNat + 4) ∧ (gateRefused (cregs s c.val) (wordAt s c.val ((cregs s c.val).tgBase + BitVec.ofNat 32 (8 * n.toNat))).toNat (wordAt s c.val (((cregs s c.val).tgBase + BitVec.ofNat 32 (8 * n.toNat)) + 4)).toNat = true) ∧ (readFlt g 0 = .none) ∧ (readFlt g 1 = .none) ∧ (CanEnter s c.val ((cregs s c.val).vbase + BitVec.ofNat 32 (64 * 8)) g.entry)) ∧
    (let s : State := { ready with cores := [(3, { state := 2, r := { pc := 0x102, g := [(1, 7), (2, 0xFFFFFFF5), (3, 0x80000000)], vbase := 0x1000, sys := { sp := 0x8000, base := 0x7000, limit := 0x8000, rsp := 0x9000, rbase := 0x8800, rlimit := 0x9000 } } })] }; let c : CoreNo := 3; let g : IssueIn := { guard := 0 }; ((coreAt s c.val).state = 2) ∧ ((coreAt s c.val).busy = false) ∧ ((coreAt s c.val).slot = none) ∧ (takeable s c.val = none) ∧ ((cregs s c.val).pc.toNat % 4 ≠ 0) ∧ (CanEnter s c.val ((cregs s c.val).vbase + BitVec.ofNat 32 (64 * 3)) g.entry)) ∧
    (let s : State := { ready with cores := [(3, { state := 2, r := { pc := 0x3000000, g := [(1, 7), (2, 0xFFFFFFF5), (3, 0x80000000)], vbase := 0x1000, sys := { sp := 0x8000, base := 0x7000, limit := 0x8000, rsp := 0x9000, rbase := 0x8800, rlimit := 0x9000 } } })] }; let c : CoreNo := 3; let g : IssueIn := { guard := 0 }; ((coreAt s c.val).state = 2) ∧ ((coreAt s c.val).busy = false) ∧ ((coreAt s c.val).slot = none) ∧ (takeable s c.val = none) ∧ ((cregs s c.val).pc.toNat % 4 = 0) ∧ (permits s (coreAcs s c.val (userMode (cregs s c.val)) (cregs s c.val).pc.toNat 4 .fetch) = false) ∧ (CanEnter s c.val ((cregs s c.val).vbase + BitVec.ofNat 32 (64 * 3)) g.entry)) ∧
    (let s : State := { ready with cores := [(3, { state := 2, r := { pc := 0x100, g := [(1, 7), (2, 0xFFFFFFF5), (3, 0x80000000)], vbase := 0x1000, sys := { sp := 0x8000, base := 0x7000, limit := 0x8000, rsp := 0x9000, rbase := 0x8800, rlimit := 0x9000 } }, slot := some { target := some 0x200, before := { pc := 0xFC, vbase := 0x1000, sys := { sp := 0x8000, base := 0x7000, limit := 0x8000, rsp := 0x9000, rbase := 0x8800, rlimit := 0x9000 } } } })] }; let c : CoreNo := 3; let g : IssueIn := { guard := 0 }; let w : SlotWait := { target := some 0x200, before := { pc := 0xFC, vbase := 0x1000, sys := { sp := 0x8000, base := 0x7000, limit := 0x8000, rsp := 0x9000, rbase := 0x8800, rlimit := 0x9000 } } }; let x : BitVec 32 := 0; ((coreAt s c.val).state = 2) ∧ ((coreAt s c.val).busy = false) ∧ (takeable s c.val = none) ∧ (fetchFault s c.val (userMode (cregs s c.val)) (cregs s c.val).pc .none = none) ∧ (g.fetch = .none ∨ g.fetch = .corrected) ∧ ((coreAt s c.val).slot = some w) ∧ (ixSub x ≠ some 2) ∧ (CanEnter (setCore s c.val { coreAt s c.val with r := w.before, slot := none }) c.val (w.before.vbase + BitVec.ofNat 32 0) g.entry)) :=
  by and_intros <;> decide +kernel

/-- States and operands that meet the hypotheses of each clause of InterruptsAndFaults: irq, double, third, wake, nothing, notRunning, stalled, givesWay, eretUnderDfl. -/
theorem meets_InterruptsAndFaults :
    (let s : State := setReg { ready with cores := [(3, { state := 2, r := { pc := 0x100, g := [(1, 7), (2, 0xFFFFFFF5), (3, 0x80000000)], vbase := 0x1000, sys := { sp := 0x8000, base := 0x7000, limit := 0x8000, rsp := 0x9000, rbase := 0x8800, rlimit := 0x9000 }, psw := 0x20, cmp := 0 } })] } (ck 3 (Reg.IXM_INT_PRI + 12)) 0x300000; let c : CoreNo := 3; let n : Nat := 29; let p : Nat := 3; let m : EntryMet := {}; ((coreAt s c.val).state = 2) ∧ (takeable s c.val = some (n, p)) ∧ (CanEnter s c.val ((cregs s c.val).vbase + BitVec.ofNat 32 (64 * (15 + p))) m)) ∧
    (let s : State := { ready with cores := [(3, { state := 2, r := { pc := 0x100, g := [(1, 7), (2, 0xFFFFFFF5), (3, 0x80000000)], vbase := 0x1000 } })] }; let c : CoreNo := 3; let g : IssueIn := { guard := 0 }; ((coreAt s c.val).state = 2) ∧ ((coreAt s c.val).busy = false) ∧ ((coreAt s c.val).slot = none) ∧ (takeable s c.val = none) ∧ (fetchFault s c.val (userMode (cregs s c.val)) (cregs s c.val).pc .none = none) ∧ (g.fetch = .none ∨ g.fetch = .corrected) ∧ (wbit (cregs s c.val).psw 6 = false) ∧ ((cregs s c.val).sys.sp.toNat < (cregs s c.val).sys.base.toNat + 40)) ∧
    (let s : State := { ready with cores := [(3, { state := 2, r := { pc := 0x100, g := [(1, 7), (2, 0xFFFFFFF5), (3, 0x80000000)], psw := 0x40 } })] }; let c : CoreNo := 3; let g : IssueIn := { guard := 0 }; ((coreAt s c.val).state = 2) ∧ ((coreAt s c.val).busy = false) ∧ ((coreAt s c.val).slot = none) ∧ (takeable s c.val = none) ∧ (fetchFault s c.val (userMode (cregs s c.val)) (cregs s c.val).pc .none = none) ∧ (g.fetch = .none ∨ g.fetch = .corrected) ∧ (wbit (cregs s c.val).psw 6 = true)) ∧
    (let s : State := setReg { ready with cores := [(3, { state := 3, r := { pc := 0x100, g := [(1, 7), (2, 0xFFFFFFF5), (3, 0x80000000)], vbase := 0x1000, sys := { sp := 0x8000, base := 0x7000, limit := 0x8000, rsp := 0x9000, rbase := 0x8800, rlimit := 0x9000 }, psw := 0x00, cmp := 0 } })] } (ck 3 (Reg.IXM_INT_PRI + 12)) 0x300000; let c : CoreNo := 3; let m : EntryMet := {}; ((coreAt s c.val).state = 3) ∧ (wfiDone s c.val = true) ∧ (wbit (cregs s c.val).psw 5 = false) ∧ ((coreAt s c.val).slot = none) ∧ ((coreAt s c.val).haltReq = false)) ∧
    (let s : State := { ready with cores := [(3, { state := 2, r := { pc := 0x100, g := [(1, 7), (2, 0xFFFFFFF5), (3, 0x80000000)] } })] }; let c : CoreNo := 3; let m : EntryMet := {}; ((coreAt s c.val).state ≠ 3 ∨ wfiDone s c.val = false) ∧ ((coreAt s c.val).state ≠ 2 ∨ takeable s c.val = none)) ∧
    (let s : State := { ready with cores := [(3, { state := 1, r := { pc := 0x100, g := [(1, 7), (2, 0xFFFFFFF5), (3, 0x80000000)] } })] }; let c : CoreNo := 3; let g : IssueIn := { guard := 0 }; ((coreAt s c.val).state ≠ 2) ∧ ((coreAt s c.val).state ≠ 3 ∨ wfiDone s c.val = false)) ∧
    (let s : State := { ready with cores := [(3, { state := 2, r := { pc := 0x100, g := [(1, 7), (2, 0xFFFFFFF5), (3, 0x80000000)] }, busy := true })] }; let c : CoreNo := 3; let g : IssueIn := { guard := 0 }; ((coreAt s c.val).state = 2) ∧ ((coreAt s c.val).busy = true) ∧ ((coreAt s c.val).loaded = none)) ∧
    (let s : State := setReg { ready with cores := [(3, { state := 2, r := { pc := 0x100, g := [(1, 7), (2, 0xFFFFFFF5), (3, 0x80000000)], vbase := 0x1000, sys := { sp := 0x8000, base := 0x7000, limit := 0x8000, rsp := 0x9000, rbase := 0x8800, rlimit := 0x9000 }, psw := 0x20, cmp := 0 } })] } (ck 3 (Reg.IXM_INT_PRI + 12)) 0x300000; let c : CoreNo := 3; let g : IssueIn := { guard := 0 }; let n : Nat := 29; let p : Nat := 3; ((coreAt s c.val).state = 2) ∧ (takeable s c.val = some (n, p)) ∧ (CanEnter s c.val ((cregs s c.val).vbase + BitVec.ofNat 32 (64 * (15 + p))) g.entry)) ∧
    (let s : State := { ready with cores := [(3, { state := 2, r := { pc := 0x100, g := [(1, 7), (2, 0xFFFFFFF5), (3, 0x80000000)], psw := 0x40 } })] }; let c : CoreNo := 3; let g : IssueIn := { guard := 0 }; ((coreAt s c.val).state = 2) ∧ ((coreAt s c.val).busy = false) ∧ ((coreAt s c.val).slot = none) ∧ (takeable s c.val = none) ∧ (fetchFault s c.val (userMode (cregs s c.val)) (cregs s c.val).pc .none = none) ∧ (g.fetch = .none ∨ g.fetch = .corrected) ∧ (guardUndefined g.guard = false) ∧ (guardTrue (cregs s c.val) g.guard = true) ∧ (Placed s c.val .alone) ∧ (userMode (cregs s c.val) = false) ∧ (wbit (cregs s c.val).psw 6 = true)) :=
  by and_intros <;> decide +kernel

/-- States and operands that meet the hypotheses of each clause of LoadsAndStores: load, corrected, loadMap, loadReg, loadAgain, store, storeReg. -/
theorem meets_LoadsAndStores :
    (let s : State := { ready with mem := [(sramBase + 8, 0xF1), (lramBase 3 + 0x20, 0x80), (lramBase 3 + 0x21, 0xFF)], cores := [(3, { state := 2, r := { pc := 0x100, g := [(1, 0x20), (2, 0xFFFFFFF5), (3, 0x80000000)], vbase := 0x1000, sys := { sp := 0x8000, base := 0x7000, limit := 0x8000, rsp := 0x9000, rbase := 0x8800, rlimit := 0x9000 } } })] }; let c : CoreNo := 3; let g : IssueIn := { guard := 0 }; let d : GReg := 4; let b : GReg := 1; let sz : BitVec 2 := 1; let x : Bool := true; let off : BitVec 12 := 0; (Issues s c.val g) ∧ (sz ≠ 3) ∧ (sz ≠ 2 ∨ x = false) ∧ ((ldstAddr (cregs s c.val) b off).toNat % sizeBytes sz = 0) ∧ (MayUse s c.val (userMode (cregs s c.val)) .read (ldstAddr (cregs s c.val) b off).toNat (sizeBytes sz))) ∧
    (let s : State := { ready with mem := [(sramBase + 8, 0xF1), (lramBase 3 + 0x20, 0x80), (lramBase 3 + 0x21, 0xFF)], cores := [(3, { state := 2, r := { pc := 0x100, g := [(1, 0x20), (2, 0xFFFFFFF5), (3, 0x80000000)], vbase := 0x1000, sys := { sp := 0x8000, base := 0x7000, limit := 0x8000, rsp := 0x9000, rbase := 0x8800, rlimit := 0x9000 } } })] }; let c : CoreNo := 3; let g : IssueIn := { guard := 0 }; let d : GReg := 4; let b : GReg := 1; let sz : BitVec 2 := 0; let x : Bool := false; let off : BitVec 12 := 0; (Issues s c.val g) ∧ (sz ≠ 3) ∧ (sz ≠ 2 ∨ x = false) ∧ ((ldstAddr (cregs s c.val) b off).toNat % sizeBytes sz = 0) ∧ (MayUse s c.val (userMode (cregs s c.val)) .read (ldstAddr (cregs s c.val) b off).toNat (sizeBytes sz))) ∧
    (let s : State := { ready with chk := { rules := [(0, 0x8F), (2, 0x5000000), (3, 0x5003FC0)] }, mem := [(sramBase + 8, 0xF1), (lramBase 3 + 0x20, 0x80), (lramBase 3 + 0x21, 0xFF)], cores := [(3, { state := 2, r := { pc := 0x100, g := [(1, 0x5000000), (2, 0xFFFFFFF5), (3, 0x80000000)], vbase := 0x1000, sys := { sp := 0x8000, base := 0x7000, limit := 0x8000, rsp := 0x9000, rbase := 0x8800, rlimit := 0x9000 } } })] }; let c : CoreNo := 3; let g : IssueIn := { guard := 0 }; let d : GReg := 4; let b : GReg := 1; let sz : BitVec 2 := 1; let x : Bool := true; let off : BitVec 12 := 0; let flt : MemFlt := .none; (Issues s c.val g) ∧ (sz ≠ 3) ∧ (sz ≠ 2 ∨ x = false) ∧ ((ldstAddr (cregs s c.val) b off).toNat % sizeBytes sz = 0) ∧ (flt = .none ∨ flt = .corrected ∨ flt = .uncorr) ∧ (permits s (coreAcs s c.val (userMode (cregs s c.val)) (ldstAddr (cregs s c.val) b off).toNat (sizeBytes sz) .read) = true) ∧ (eccRegion (regionOf c.val (ldstAddr (cregs s c.val) b off).toNat (sizeBytes sz)) = false) ∧ (regionOf c.val (ldstAddr (cregs s c.val) b off).toNat (sizeBytes sz) ≠ some .regs)) ∧
    (let s : State := { ready with chk := { rules := [(0, 0x8F), (2, 0x4000000), (3, 0x4050000)] }, cores := [(3, { state := 2, r := { pc := 0x100, g := [(1, 0x4004018), (2, 0xFFFFFFF5), (3, 0x80000000)], vbase := 0x1000, sys := { sp := 0x8000, base := 0x7000, limit := 0x8000, rsp := 0x9000, rbase := 0x8800, rlimit := 0x9000 } } })] }; let c : CoreNo := 3; let g : IssueIn := { guard := 0 }; let d : GReg := 4; let b : GReg := 1; let sz : BitVec 2 := 2; let x : Bool := false; let off : BitVec 12 := 0; let v : Nat := 0; (Issues s c.val g) ∧ (sz ≠ 3) ∧ (sz ≠ 2 ∨ x = false) ∧ ((ldstAddr (cregs s c.val) b off).toNat % sizeBytes sz = 0) ∧ (permits s (coreAcs s c.val (userMode (cregs s c.val)) (ldstAddr (cregs s c.val) b off).toNat (sizeBytes sz) .read) = true) ∧ (regionOf c.val (ldstAddr (cregs s c.val) b off).toNat (sizeBytes sz) = some .regs) ∧ ((coreAt s c.val).loaded = none) ∧ ((readReg (accessEvents (fetched (setCore s c.val { coreAt s c.val with shadow := false, busy := true }) c.val (userMode (cregs s c.val)) (cregs s c.val).pc g.fetch) c.val 5 (ldstAddr (cregs s c.val) b off).toNat (sizeBytes sz) (userMode (cregs s c.val))) (.core c) ((ldstAddr (cregs s c.val) b off).toNat % 0x100000 / 4 * 4) ((ldstAddr (cregs s c.val) b off).toNat % 4) (sizeBytes sz)).1 = some v)) ∧
    (let s : State := { ready with chk := { rules := [(0, 0x8F), (2, 0x4000000), (3, 0x4050000)] }, cores := [(3, { state := 2, busy := true, loaded := some 0x55, r := { pc := 0x100, g := [(1, 0x4004018), (2, 0xFFFFFFF5), (3, 0x80000000)], vbase := 0x1000, sys := { sp := 0x8000, base := 0x7000, limit := 0x8000, rsp := 0x9000, rbase := 0x8800, rlimit := 0x9000 } } })] }; let c : CoreNo := 3; let g : IssueIn := { guard := 0 }; let d : GReg := 4; let b : GReg := 1; let sz : BitVec 2 := 2; let x : Bool := false; let off : BitVec 12 := 0; let v : Nat := 0x55; (NoLate s c.val) ∧ ((coreAt s c.val).state = 2) ∧ ((coreAt s c.val).busy = true) ∧ ((coreAt s c.val).loaded = some v) ∧ (fetchFault s c.val (userMode (cregs s c.val)) (cregs s c.val).pc .none = none) ∧ (guardUndefined g.guard = false) ∧ (guardTrue (cregs s c.val) g.guard = true) ∧ (sz ≠ 3) ∧ (sz ≠ 2 ∨ x = false) ∧ ((ldstAddr (cregs s c.val) b off).toNat % sizeBytes sz = 0) ∧ (permits s (coreAcs s c.val (userMode (cregs s c.val)) (ldstAddr (cregs s c.val) b off).toNat (sizeBytes sz) .read) = true) ∧ (regionOf c.val (ldstAddr (cregs s c.val) b off).toNat (sizeBytes sz) = some .regs)) ∧
    (let s : State := { ready with mem := [(sramBase + 8, 0xF1), (lramBase 3 + 0x20, 0x80), (lramBase 3 + 0x21, 0xFF)], cores := [(3, { state := 2, r := { pc := 0x100, g := [(1, 0x20), (2, 0xFFFFFFF5), (3, 0x80000000)], vbase := 0x1000, sys := { sp := 0x8000, base := 0x7000, limit := 0x8000, rsp := 0x9000, rbase := 0x8800, rlimit := 0x9000 } } })] }; let c : CoreNo := 3; let g : IssueIn := { guard := 0 }; let d : GReg := 2; let b : GReg := 1; let sz : BitVec 2 := 2; let off : BitVec 12 := 8; (Issues s c.val g) ∧ (g.hit = none) ∧ (sz ≠ 3) ∧ ((ldstAddr (cregs s c.val) b off).toNat % sizeBytes sz = 0) ∧ (hitsReturnStack (cregs s c.val) (ldstAddr (cregs s c.val) b off).toNat (sizeBytes sz) = false) ∧ (MayStore s c.val (userMode (cregs s c.val)) (ldstAddr (cregs s c.val) b off).toNat (sizeBytes sz))) ∧
    (let s : State := { ready with chk := { rules := [(0, 0x8F), (2, 0x4000000), (3, 0x4050000)] }, cores := [(3, { state := 2, r := { pc := 0x100, g := [(1, 0x4004018), (2, 0xFFFFFFF5), (3, 0x80000000)], vbase := 0x1000, sys := { sp := 0x8000, base := 0x7000, limit := 0x8000, rsp := 0x9000, rbase := 0x8800, rlimit := 0x9000 } } })] }; let c : CoreNo := 3; let g : IssueIn := { guard := 0 }; let d : GReg := 2; let b : GReg := 1; let sz : BitVec 2 := 2; let off : BitVec 12 := 0; (Issues s c.val g) ∧ (g.hit = none) ∧ (sz ≠ 3) ∧ ((ldstAddr (cregs s c.val) b off).toNat % sizeBytes sz = 0) ∧ (hitsReturnStack (cregs s c.val) (ldstAddr (cregs s c.val) b off).toNat (sizeBytes sz) = false) ∧ (permits s (coreAcs s c.val (userMode (cregs s c.val)) (ldstAddr (cregs s c.val) b off).toNat (sizeBytes sz) .write) = true) ∧ (regionOf c.val (ldstAddr (cregs s c.val) b off).toNat (sizeBytes sz) = some .regs) ∧ (sz = 2) ∧ ((coreAt s c.val).loaded = none)) :=
  by and_intros <;> decide +kernel

/-- States and operands that meet the hypotheses of each clause of MultipleTransfers: push, pop. -/
theorem meets_MultipleTransfers :
    (let s : State := { ready with mem := [(lramBase 3 + 0x7F00, 0x11), (lramBase 3 + 0x7F05, 0x22)], cores := [(3, { state := 2, r := { pc := 0x100, g := [(1, 7), (2, 0xFFFFFFF5), (3, 0x80000000)], vbase := 0x1000, sys := { sp := 0x7F00, base := 0x7000, limit := 0x8000, rsp := 0x9000, rbase := 0x8800, rlimit := 0x9000 } } })] }; let c : CoreNo := 3; let g : IssueIn := { guard := 0 }; let mask : BitVec 16 := 0x000E; (Issues s c.val g) ∧ (g.hit = none) ∧ (maskBad mask = false) ∧ ((stk (cregs s c.val)).sp.toNat % 4 = 0) ∧ ((stk (cregs s c.val)).base.toNat + 4 * (maskRegs mask).length ≤ (stk (cregs s c.val)).sp.toNat) ∧ ((stk (cregs s c.val)).sp.toNat ≤ (stk (cregs s c.val)).limit.toNat) ∧ (∀ i ∈ List.range (maskRegs mask).length, MayStore s c.val (userMode (cregs s c.val)) ((stk (cregs s c.val)).sp.toNat - 4 * (i + 1)) 4 ∧ hitsReturnStack (cregs s c.val) ((stk (cregs s c.val)).sp.toNat - 4 * (i + 1)) 4 = false)) ∧
    (let s : State := { ready with mem := [(lramBase 3 + 0x7F00, 0x11), (lramBase 3 + 0x7F05, 0x22)], cores := [(3, { state := 2, r := { pc := 0x100, g := [(1, 7), (2, 0xFFFFFFF5), (3, 0x80000000)], vbase := 0x1000, sys := { sp := 0x7F00, base := 0x7000, limit := 0x8000, rsp := 0x9000, rbase := 0x8800, rlimit := 0x9000 } } })] }; let c : CoreNo := 3; let g : IssueIn := { guard := 0, data := [.none, .corrected] }; let mask : BitVec 16 := 0x0006; (Issues s c.val g) ∧ (maskBad mask = false) ∧ ((stk (cregs s c.val)).sp.toNat % 4 = 0) ∧ ((stk (cregs s c.val)).base.toNat ≤ (stk (cregs s c.val)).sp.toNat) ∧ ((stk (cregs s c.val)).sp.toNat + 4 * (maskRegs mask).length ≤ (stk (cregs s c.val)).limit.toNat) ∧ (∀ i ∈ List.range (maskRegs mask).length, MayUse s c.val (userMode (cregs s c.val)) .read ((stk (cregs s c.val)).sp.toNat + 4 * i) 4 ∧ Readable g i)) :=
  by and_intros <;> decide +kernel

/-- States and operands that meet the hypotheses of each clause of AtomicOps: swap, adda, cas. -/
theorem meets_AtomicOps :
    (let s : State := { ready with mem := [(sramBase + 8, 0xF1)], chk := { rules := [(0, 0x8F), (2, 0x1000000), (3, 0x17FFFC0)] }, cores := [(3, { state := 2, r := { pc := 0x100, g := [(1, 0x1000008), (2, 0xFFFFFFF5), (3, 0x80000000)], vbase := 0x1000, sys := { sp := 0x8000, base := 0x7000, limit := 0x8000, rsp := 0x9000, rbase := 0x8800, rlimit := 0x9000 } } })] }; let c : CoreNo := 3; let g : IssueIn := { guard := 0 }; let d : GReg := 4; let b : GReg := 1; let a : GReg := 2; (g.hit = none) ∧ (Issues s c.val g) ∧ ((gpr (cregs s c.val) b).toNat % 4 = 0) ∧ (hitsReturnStack (cregs s c.val) (gpr (cregs s c.val) b).toNat 4 = false) ∧ (sramBase ≤ (gpr (cregs s c.val) b).toNat) ∧ ((gpr (cregs s c.val) b).toNat < sramEnd) ∧ (MayUse s c.val (userMode (cregs s c.val)) .atomic (gpr (cregs s c.val) b).toNat 4) ∧ (Readable g 0)) ∧
    (let s : State := { ready with mem := [(sramBase + 8, 0xF1)], chk := { rules := [(0, 0x8F), (2, 0x1000000), (3, 0x17FFFC0)] }, cores := [(3, { state := 2, r := { pc := 0x100, g := [(1, 0x1000008), (2, 0xFFFFFFF5), (3, 0x80000000)], vbase := 0x1000, sys := { sp := 0x8000, base := 0x7000, limit := 0x8000, rsp := 0x9000, rbase := 0x8800, rlimit := 0x9000 } } })] }; let c : CoreNo := 3; let g : IssueIn := { guard := 0 }; let d : GReg := 4; let b : GReg := 1; let a : GReg := 2; (g.hit = none) ∧ (Issues s c.val g) ∧ ((gpr (cregs s c.val) b).toNat % 4 = 0) ∧ (hitsReturnStack (cregs s c.val) (gpr (cregs s c.val) b).toNat 4 = false) ∧ (sramBase ≤ (gpr (cregs s c.val) b).toNat) ∧ ((gpr (cregs s c.val) b).toNat < sramEnd) ∧ (MayUse s c.val (userMode (cregs s c.val)) .atomic (gpr (cregs s c.val) b).toNat 4) ∧ (Readable g 0)) ∧
    (let s : State := { ready with mem := [(sramBase + 8, 0xF1)], chk := { rules := [(0, 0x8F), (2, 0x1000000), (3, 0x17FFFC0)] }, cores := [(3, { state := 2, r := { pc := 0x100, g := [(1, 0x1000008), (2, 0xFFFFFFF5), (3, 0x80000000)], vbase := 0x1000, sys := { sp := 0x8000, base := 0x7000, limit := 0x8000, rsp := 0x9000, rbase := 0x8800, rlimit := 0x9000 } } })] }; let c : CoreNo := 3; let g : IssueIn := { guard := 0 }; let d : GReg := 4; let b : GReg := 1; let a : GReg := 2; let pd : BitVec 2 := 1; (g.hit = none) ∧ (Issues s c.val g) ∧ ((gpr (cregs s c.val) b).toNat % 4 = 0) ∧ (hitsReturnStack (cregs s c.val) (gpr (cregs s c.val) b).toNat 4 = false) ∧ (sramBase ≤ (gpr (cregs s c.val) b).toNat) ∧ ((gpr (cregs s c.val) b).toNat < sramEnd) ∧ (MayUse s c.val (userMode (cregs s c.val)) .atomic (gpr (cregs s c.val) b).toNat 4) ∧ (Readable g 0)) :=
  by and_intros <;> decide +kernel

/-- States and operands that meet the hypotheses of each clause of BranchesAndCalls: branch, jump, call, callr, ret, loop, loopZero, lateSlot, callSlot. -/
theorem meets_BranchesAndCalls :
    (let s : State := { ready with cores := [(3, { state := 2, r := { pc := 0x100, g := [(1, 7), (2, 0xFFFFFFF5), (3, 0x80000000)], vbase := 0x1000, sys := { sp := 0x8000, base := 0x7000, limit := 0x8000, rsp := 0x9000, rbase := 0x8800, rlimit := 0x9000 } } })] }; let c : CoreNo := 3; let g : IssueIn := { guard := 0 }; let disp : BitVec 22 := 0x3FFFFF; (Issues s c.val g) ∧ (Placed s c.val .transfer)) ∧
    (let s : State := { ready with cores := [(3, { state := 2, r := { pc := 0x100, g := [(1, 7), (2, 0xFFFFFFF5), (3, 0x80000000)], vbase := 0x1000, sys := { sp := 0x8000, base := 0x7000, limit := 0x8000, rsp := 0x9000, rbase := 0x8800, rlimit := 0x9000 } } })] }; let c : CoreNo := 3; let g : IssueIn := { guard := 0 }; let a : GReg := 3; (Issues s c.val g) ∧ (Placed s c.val .transfer)) ∧
    (let s : State := { ready with cores := [(3, { state := 2, r := { pc := 0x100, g := [(1, 7), (2, 0xFFFFFFF5), (3, 0x80000000)], vbase := 0x1000, sys := { sp := 0x8000, base := 0x7000, limit := 0x8000, rsp := 0x9000, rbase := 0x8800, rlimit := 0x9000 } } })] }; let c : CoreNo := 3; let g : IssueIn := { guard := 0 }; let disp : BitVec 22 := 2; (Issues s c.val g) ∧ (Placed s c.val .transfer) ∧ (stackFault (stk (cregs s c.val)) ((stk (cregs s c.val)).sp - 4) ((stk (cregs s c.val)).rsp - 4) = none) ∧ (permits s (coreAcs s c.val (userMode (cregs s c.val)) ((stk (cregs s c.val)).sp - 4).toNat 4 .write) = true) ∧ (permits s (coreAcs s c.val (userMode (cregs s c.val)) ((stk (cregs s c.val)).rsp - 4).toNat 4 .write) = true)) ∧
    (let s : State := { ready with cores := [(3, { state := 2, r := { pc := 0x100, g := [(1, 7), (2, 0xFFFFFFF5), (3, 0x80000000)], vbase := 0x1000, sys := { sp := 0x8000, base := 0x7000, limit := 0x8000, rsp := 0x9000, rbase := 0x8800, rlimit := 0x9000 } } })] }; let c : CoreNo := 3; let g : IssueIn := { guard := 0 }; let a : GReg := 1; (Issues s c.val g) ∧ (Placed s c.val .transfer) ∧ (stackFault (stk (cregs s c.val)) ((stk (cregs s c.val)).sp - 4) ((stk (cregs s c.val)).rsp - 4) = none) ∧ (permits s (coreAcs s c.val (userMode (cregs s c.val)) ((stk (cregs s c.val)).sp - 4).toNat 4 .write) = true) ∧ (permits s (coreAcs s c.val (userMode (cregs s c.val)) ((stk (cregs s c.val)).rsp - 4).toNat 4 .write) = true)) ∧
    (let s : State := { ready with mem := [(lramBase 3 + 0x7FFC, 0x40), (lramBase 3 + 0x8FFC, 0x40)], cores := [(3, { state := 2, r := { pc := 0x100, g := [(1, 7), (2, 0xFFFFFFF5), (3, 0x80000000)], vbase := 0x1000, sys := { sp := 0x7FFC, base := 0x7000, limit := 0x8000, rsp := 0x8FFC, rbase := 0x8800, rlimit := 0x9000 } } })] }; let c : CoreNo := 3; let g : IssueIn := { guard := 0 }; (Issues s c.val g) ∧ (Placed s c.val .transfer) ∧ (stackFault (stk (cregs s c.val)) (stk (cregs s c.val)).sp (stk (cregs s c.val)).rsp = none) ∧ (MayUse s c.val (userMode (cregs s c.val)) .read (stk (cregs s c.val)).sp.toNat 4) ∧ (MayUse s c.val (userMode (cregs s c.val)) .read (stk (cregs s c.val)).rsp.toNat 4) ∧ (wordAt s c.val (stk (cregs s c.val)).sp = wordAt s c.val (stk (cregs s c.val)).rsp) ∧ (Readable g 0) ∧ (Readable g 1)) ∧
    (let s : State := { ready with cores := [(3, { state := 2, r := { pc := 0x100, g := [(1, 7), (2, 0xFFFFFFF5), (3, 0x80000000)], vbase := 0x1000, sys := { sp := 0x8000, base := 0x7000, limit := 0x8000, rsp := 0x9000, rbase := 0x8800, rlimit := 0x9000 } } })] }; let c : CoreNo := 3; let g : IssueIn := { guard := 0 }; let lvl : Bool := true; let cnt : LoopCnt := .imm 3; let len : BitVec 12 := 2; ((coreAt s c.val).state = 2) ∧ ((coreAt s c.val).busy = false) ∧ (takeable s c.val = none) ∧ (fetchFault s c.val (userMode (cregs s c.val)) (cregs s c.val).pc .none = none) ∧ (g.fetch = .none ∨ g.fetch = .corrected) ∧ (guardUndefined g.guard = false) ∧ (NoLate s c.val) ∧ (Placed s c.val .loop) ∧ (len ≠ 0) ∧ (loopCount (cregs s c.val) cnt ≠ 0)) ∧
    (let s : State := { ready with cores := [(3, { state := 2, r := { pc := 0x100, g := [(1, 7), (2, 0xFFFFFFF5), (3, 0x80000000)], vbase := 0x1000, sys := { sp := 0x8000, base := 0x7000, limit := 0x8000, rsp := 0x9000, rbase := 0x8800, rlimit := 0x9000 } } })] }; let c : CoreNo := 3; let g : IssueIn := { guard := 0 }; let lvl : Bool := true; let cnt : LoopCnt := .reg 0; let len : BitVec 12 := 2; ((coreAt s c.val).state = 2) ∧ ((coreAt s c.val).busy = false) ∧ (takeable s c.val = none) ∧ (fetchFault s c.val (userMode (cregs s c.val)) (cregs s c.val).pc .none = none) ∧ (g.fetch = .none ∨ g.fetch = .corrected) ∧ (guardUndefined g.guard = false) ∧ (NoLate s c.val) ∧ (Placed s c.val .loop) ∧ (len ≠ 0) ∧ (loopCount (cregs s c.val) cnt = 0)) ∧
    (let s : State := { ready with cores := [(3, { state := 2, slot := some { target := some 0x40, before := {}, late := [(0x4050018, some (5, none))] }, r := { pc := 0x100, g := [(1, 7), (2, 0xFFFFFFF5), (3, 0x80000000)], vbase := 0x1000, sys := { sp := 0x8000, base := 0x7000, limit := 0x8000, rsp := 0x9000, rbase := 0x8800, rlimit := 0x9000 } } })] }; let c : CoreNo := 3; let g : IssueIn := { guard := 0 }; ((coreAt s c.val).state = 2) ∧ ((coreAt s c.val).busy = false) ∧ (takeable s c.val = none) ∧ (fetchFault s c.val (userMode (cregs s c.val)) (cregs s c.val).pc .none = none) ∧ (g.fetch = .none ∨ g.fetch = .corrected) ∧ (guardUndefined g.guard = false) ∧ (guardTrue (cregs s c.val) g.guard = true) ∧ ((coreAt s c.val).loaded = none)) ∧
    (let s : State := { ready with cores := [(3, { state := 2, slot := some { target := some 0x40, before := {}, late := [(0x7FFC, some (0x108, none)), (0x8FFC, some (0x108, none))] }, r := { pc := 0x100, g := [(1, 7), (2, 0xFFFFFFF5), (3, 0x80000000)], vbase := 0x1000, sys := { sp := 0x8000, base := 0x7000, limit := 0x8000, rsp := 0x9000, rbase := 0x8800, rlimit := 0x9000 } } })] }; let c : CoreNo := 3; let g : IssueIn := { guard := 0 }; let d : GReg := 4; let a : GReg := 1; let b : GReg := 2; let w : SlotWait := { target := some 0x40, before := {}, late := [(0x7FFC, some (0x108, none)), (0x8FFC, some (0x108, none))] }; let x : Word := 0x7FFC; let y : Word := 0x8FFC; let v : Word := 0x108; ((coreAt s c.val).state = 2) ∧ ((coreAt s c.val).busy = false) ∧ (takeable s c.val = none) ∧ (fetchFault s c.val (userMode (cregs s c.val)) (cregs s c.val).pc .none = none) ∧ (g.fetch = .none ∨ g.fetch = .corrected) ∧ (guardUndefined g.guard = false) ∧ (guardTrue (cregs s c.val) g.guard = true) ∧ ((coreAt s c.val).slot = some w) ∧ (w.late = [(x.toNat, some (v, none)), (y.toNat, some (v, none))]) ∧ (x.toNat % 4 = 0) ∧ (y.toNat % 4 = 0) ∧ (eccRegion (regionOf c.val x.toNat 4) = true) ∧ (eccRegion (regionOf c.val y.toNat 4) = true)) :=
  by and_intros <;> decide +kernel

/-- States and operands that meet the hypotheses of each clause of BlockAndHaltOps: copyNone, clearNone, crcNone, copyOne, clearOne, crcOne, wfiNow, wfiWait, halt. -/
theorem meets_BlockAndHaltOps :
    (let s : State := { ready with cores := [(3, { state := 2, r := { pc := 0x100, g := [(1, 7), (2, 0xFFFFFFF5), (3, 0x80000000)] } })] }; let c : CoreNo := 3; let g : IssueIn := { guard := 0 }; let d : GReg := 1; let a : GReg := 2; let n : GReg := 5; (Issues s c.val g) ∧ (Placed s c.val .alone) ∧ (blockOperands [d, a, n] = true) ∧ (gpr (cregs s c.val) n = 0)) ∧
    (let s : State := { ready with cores := [(3, { state := 2, r := { pc := 0x100, g := [(1, 7), (2, 0xFFFFFFF5), (3, 0x80000000)] } })] }; let c : CoreNo := 3; let g : IssueIn := { guard := 0 }; let d : GReg := 1; let n : GReg := 5; (Issues s c.val g) ∧ (Placed s c.val .alone) ∧ (blockOperands [d, n] = true) ∧ (gpr (cregs s c.val) n = 0)) ∧
    (let s : State := { ready with cores := [(3, { state := 2, r := { pc := 0x100, g := [(1, 7), (2, 0xFFFFFFF5), (3, 0x80000000)] } })] }; let c : CoreNo := 3; let g : IssueIn := { guard := 0 }; let d : GReg := 1; let a : GReg := 2; let n : GReg := 5; let poly : BitVec 2 := 0; (Issues s c.val g) ∧ (Placed s c.val .alone) ∧ (poly ≠ 3) ∧ (blockOperands [d, a, n] = true) ∧ (gpr (cregs s c.val) n = 0)) ∧
    (let s : State := { ready with mem := [(lramBase 3 + 0x80, 0x12), (lramBase 3 + 0x83, 0x34)], cores := [(3, { state := 2, r := { pc := 0x100, g := [(1, 0x40), (2, 0x80), (3, 2)], vbase := 0x1000, sys := { sp := 0x8000, base := 0x7000, limit := 0x8000, rsp := 0x9000, rbase := 0x8800, rlimit := 0x9000 } } })] }; let c : CoreNo := 3; let g : IssueIn := { guard := 0 }; let d : GReg := 1; let a : GReg := 2; let n : GReg := 3; (Issues s c.val g) ∧ (Placed s c.val .alone) ∧ (blockOperands [d, a, n] = true) ∧ (gpr (cregs s c.val) n ≠ 0) ∧ ((gpr (cregs s c.val) a).toNat % 4 = 0) ∧ ((gpr (cregs s c.val) d).toNat % 4 = 0) ∧ (hitsReturnStack (cregs s c.val) (gpr (cregs s c.val) d).toNat 4 = false) ∧ (MayUse s c.val (userMode (cregs s c.val)) .read (gpr (cregs s c.val) a).toNat 4) ∧ (Readable g 0) ∧ (MayStore s c.val (userMode (cregs s c.val)) (gpr (cregs s c.val) d).toNat 4) ∧ (g.hit = none)) ∧
    (let s : State := { ready with mem := [(lramBase 3 + 0x80, 0x12), (lramBase 3 + 0x83, 0x34)], cores := [(3, { state := 2, r := { pc := 0x100, g := [(1, 0x40), (2, 0x80), (3, 2)], vbase := 0x1000, sys := { sp := 0x8000, base := 0x7000, limit := 0x8000, rsp := 0x9000, rbase := 0x8800, rlimit := 0x9000 } } })] }; let c : CoreNo := 3; let g : IssueIn := { guard := 0 }; let d : GReg := 2; let n : GReg := 3; (Issues s c.val g) ∧ (Placed s c.val .alone) ∧ (blockOperands [d, n] = true) ∧ (gpr (cregs s c.val) n ≠ 0) ∧ ((gpr (cregs s c.val) d).toNat % 4 = 0) ∧ (hitsReturnStack (cregs s c.val) (gpr (cregs s c.val) d).toNat 4 = false) ∧ (MayStore s c.val (userMode (cregs s c.val)) (gpr (cregs s c.val) d).toNat 4) ∧ (g.hit = none)) ∧
    (let s : State := { ready with mem := [(lramBase 3 + 0x80, 0x12), (lramBase 3 + 0x83, 0x34)], cores := [(3, { state := 2, r := { pc := 0x100, g := [(1, 0x40), (2, 0x80), (3, 2)], vbase := 0x1000, sys := { sp := 0x8000, base := 0x7000, limit := 0x8000, rsp := 0x9000, rbase := 0x8800, rlimit := 0x9000 } } })] }; let c : CoreNo := 3; let g : IssueIn := { guard := 0 }; let d : GReg := 1; let a : GReg := 2; let n : GReg := 3; let poly : BitVec 2 := 0; (Issues s c.val g) ∧ (Placed s c.val .alone) ∧ (poly ≠ 3) ∧ (blockOperands [d, a, n] = true) ∧ (gpr (cregs s c.val) n ≠ 0) ∧ (MayUse s c.val (userMode (cregs s c.val)) .read (gpr (cregs s c.val) a).toNat 1) ∧ (Readable g 0)) ∧
    (let s : State := setReg { ready with cores := [(3, { state := 2, r := { pc := 0x100, g := [(1, 7), (2, 0xFFFFFFF5), (3, 0x80000000)], cmp := 0 } })] } (ck 3 (Reg.IXM_INT_PRI + 12)) 0x300000; let c : CoreNo := 3; let g : IssueIn := { guard := 0 }; (Issues s c.val g) ∧ (userMode (cregs s c.val) = false) ∧ (wfiDone s c.val = true)) ∧
    (let s : State := { ready with cores := [(3, { state := 2, r := { pc := 0x100, g := [(1, 7), (2, 0xFFFFFFF5), (3, 0x80000000)] } })] }; let c : CoreNo := 3; let g : IssueIn := { guard := 0 }; (Issues s c.val g) ∧ (userMode (cregs s c.val) = false) ∧ (wfiDone s c.val = false) ∧ ((coreAt s c.val).haltReq = false)) ∧
    (let s : State := { ready with cores := [(3, { state := 2, r := { pc := 0x100, g := [(1, 7), (2, 0xFFFFFFF5), (3, 0x80000000)] } })] }; let c : CoreNo := 3; let g : IssueIn := { guard := 0 }; (Issues s c.val g) ∧ (Placed s c.val .alone) ∧ (userMode (cregs s c.val) = false)) :=
  by and_intros <;> decide +kernel

/-- States and operands that meet the hypotheses of each clause of GatesAndReturns: gate, eret. -/
theorem meets_GatesAndReturns :
    (let s : State := { ready with mem := [(lramBase 3 + 0x608, 0x03), (lramBase 3 + 0x609, 0x04)], cores := [(3, { state := 2, r := { pc := 0x100, g := [(1, 7), (2, 0xFFFFFFF5), (3, 0x80000000)], vbase := 0x1000, sys := { sp := 0x8000, base := 0x7000, limit := 0x8000, rsp := 0x9000, rbase := 0x8800, rlimit := 0x9000 }, tgBase := 0x600, tgLimit := 2 } })] }; let c : CoreNo := 3; let g : IssueIn := { guard := 0 }; let n : BitVec 12 := 1; (Issues s c.val g) ∧ (Placed s c.val .alone) ∧ (n.toNat < min 4096 (cregs s c.val).tgLimit.toNat) ∧ (MayUse s c.val false .read ((cregs s c.val).tgBase + BitVec.ofNat 32 (8 * n.toNat)).toNat 4) ∧ (MayUse s c.val false .read (((cregs s c.val).tgBase + BitVec.ofNat 32 (8 * n.toNat)).toNat + 4) 4) ∧ ((((cregs s c.val).tgBase + BitVec.ofNat 32 (8 * n.toNat)) + 4).toNat = ((cregs s c.val).tgBase + BitVec.ofNat 32 (8 * n.toNat)).toNat + 4) ∧ (gateRefused (cregs s c.val) (wordAt s c.val ((cregs s c.val).tgBase + BitVec.ofNat 32 (8 * n.toNat))).toNat (wordAt s c.val (((cregs s c.val).tgBase + BitVec.ofNat 32 (8 * n.toNat)) + 4)).toNat = false) ∧ ((if userMode (cregs s c.val) then (List.range 4).findSome? (pairFault (cregs s c.val) (wordAt s c.val (((cregs s c.val).tgBase + BitVec.ofNat 32 (8 * n.toNat)) + 4)).toNat) else none) = none) ∧ (CanEnter s c.val (BitVec.ofNat 32 ((wordAt s c.val ((cregs s c.val).tgBase + BitVec.ofNat 32 (8 * n.toNat))).toNat / 4 * 4)) g.entry) ∧ (Readable g 0) ∧ (Readable g 1)) ∧
    (let s : State := { ready with mem := [(lramBase 3 + 0x7F00, 0x41), (lramBase 3 + 0x7F04, 0x22), (lramBase 3 + 0x7F10, 5), (lramBase 3 + 0x8FF0, 0x41)], cores := [(3, { state := 2, r := { pc := 0x100, g := [(1, 7), (2, 0xFFFFFFF5), (3, 0x80000000)], vbase := 0x1000, sys := { sp := 0x7F00, base := 0x7000, limit := 0x8000, rsp := 0x8FF0, rbase := 0x8800, rlimit := 0x9000 } } })] }; let c : CoreNo := 3; let g : IssueIn := { guard := 0 }; (Issues s c.val g) ∧ (Placed s c.val .alone) ∧ (userMode (cregs s c.val) = false) ∧ (wbit (cregs s c.val).psw 6 = false) ∧ (eretBounds (cregs s c.val).sys = none) ∧ ((cregs s c.val).sys.sp.toNat % 4 = 0) ∧ ((cregs s c.val).sys.rsp.toNat % 4 = 0) ∧ (∀ i ∈ List.range 10, MayUse s c.val false .read ((cregs s c.val).sys.sp + BitVec.ofNat 32 (4 * i)).toNat 4 ∧ Readable g i) ∧ (Readable g 10) ∧ (MayUse s c.val false .read (cregs s c.val).sys.rsp.toNat 4) ∧ (wordAt s c.val ((cregs s c.val).sys.sp + BitVec.ofNat 32 (4 * 0)) = wordAt s c.val (cregs s c.val).sys.rsp)) :=
  by and_intros <;> decide +kernel

/-- States and operands that meet the hypotheses of each clause of Scrubbing_1: shared, sharedOff, curve, curveOff, context, contextOff, keyTable, keyTableOff, replay, replayOff, uncorr, uncorrAgain, curveLost, replayEntry. -/
theorem meets_Scrubbing_1 :
    (let s : State := ready; let w : Nat := 5; (domOn s 0 = true)) ∧
    (let s : State := State.reset; let uncorr : Bool := true; let w : Nat := 5; (domOn s 0 = false)) ∧
    (let s : State := ready; let e : Fin 64 := 5; (domOn s 0 = true)) ∧
    (let s : State := State.reset; let uncorr : Bool := true; let e : Fin 64 := 5; (domOn s 0 = false)) ∧
    (let s : State := ready; let c : CtxNo := 5; (domOn s 18 = true)) ∧
    (let s : State := State.reset; let uncorr : Bool := true; let c : CtxNo := 5; (domOn s 18 = false)) ∧
    (let s : State := ready; let n : SlotNo := 5; let l : Bool := true; (domOn s 12 = true)) ∧
    (let s : State := State.reset; let uncorr : Bool := true; let n : SlotNo := 5; let l : Bool := true; (domOn s 12 = false)) ∧
    (let s : State := ready; let q : QueueNo := 5; let e : Fin 64 := 0; (domOn s 13 = true)) ∧
    (let s : State := State.reset; let uncorr : Bool := true; let q : QueueNo := 5; let e : Fin 64 := 0; (domOn s 13 = false)) ∧
    (let s : State := ready; let w : Nat := 9; (domOn s 0 = true) ∧ (s.chk.eccBad.contains ((sramBase + 8 * (w % 2 ^ 20)) / 8) = false)) ∧
    (let s : State := { ready with chk := { eccBad := [(sramBase + 72) / 8] } }; let w : Nat := 9; (domOn s 0 = true) ∧ (s.chk.eccBad.contains ((sramBase + 8 * (w % 2 ^ 20)) / 8) = true)) ∧
    (let s : State := ready; let e : Fin 64 := 9; (domOn s 0 = true)) ∧
    (let s : State := setQueue ready 5 { win := [{ tag := 7, cpl := [] }] }; let q : QueueNo := 5; let e : Fin 64 := 0; let x : RplEntry := { tag := 7, cpl := [] }; (domOn s 13 = true) ∧ ((queueAt s q.val).win[e.val]? = some x) ∧ (x.bad = false)) :=
  by and_intros <;> decide +kernel

/-- States and operands that meet the hypotheses of each clause of Scrubbing_2: replayFree, replayAgain, keyTableNone, keyTableAgain, contextAgain, contextNone. -/
theorem meets_Scrubbing_2 :
    (let s : State := ready; let q : QueueNo := 5; let e : Fin 64 := 3; (domOn s 13 = true) ∧ ((queueAt s q.val).win[e.val]? = none) ∧ ((queueAt s q.val).badFree.contains e.val = false)) ∧
    (let s : State := setQueue ready 5 { badFree := [3] }; let q : QueueNo := 5; let e : Fin 64 := 3; (domOn s 13 = true) ∧ (((queueAt s q.val).win[e.val]?.map (·.bad)).getD ((queueAt s q.val).badFree.contains e.val) = true)) ∧
    (let s : State := ready; let n : SlotNo := 5; let l : Bool := true; (domOn s 12 = true) ∧ (s.chk.slotBad.contains n.val = false) ∧ (headOf s n.val = none)) ∧
    (let s : State := { ready with chk := { slotBad := [5] } }; let n : SlotNo := 5; let l : Bool := true; (domOn s 12 = true) ∧ (s.chk.slotBad.contains n.val = true)) ∧
    (let s : State := { ready with chk := { ctxBad := [5] } }; let c : CtxNo := 5; (domOn s 18 = true) ∧ (s.chk.ctxBad.contains c.val = true)) ∧
    (let s : State := ready; let c : CtxNo := 5; (domOn s 18 = true) ∧ (s.chk.ctxBad.contains c.val = false) ∧ (ctxAt s c.val = none)) :=
  by and_intros <;> decide +kernel

/-- States and operands that meet the hypotheses of each clause of RuleTable_1: read, write, clear, writeFormat, writeLocked, writePageLock, clearLocked, clearPageLock, commit, readEarly, writeEarly, clearEarly, sync, returnPort. -/
theorem meets_RuleTable_1 :
    (let s : State := setReg (setReg { ready with chk := { rules := [(20, 0x8F), (21, 0x11)] } } Reg.CHECKPOINT_RSEL 5) Reg.CHECKPOINT_RDATA 0x83; let src : Src := .core 1; (Reaches s src Reg.CHECKPOINT_RCMD) ∧ (s.chk.rcmd = none)) ∧
    (let s : State := setReg (setReg { ready with chk := { rules := [(20, 0x8F), (21, 0x11)] } } Reg.CHECKPOINT_RSEL 5) Reg.CHECKPOINT_RDATA 0x83; let src : Src := .core 1; (Reaches s src Reg.CHECKPOINT_RCMD) ∧ (s.chk.rcmd = none) ∧ (rcmdLocked s = none) ∧ (ruleFormatBad s = false)) ∧
    (let s : State := setReg (setReg { ready with chk := { rules := [(20, 0x8F), (21, 0x11)] } } Reg.CHECKPOINT_RSEL 5) Reg.CHECKPOINT_RDATA 0x83; let src : Src := .core 1; (Reaches s src Reg.CHECKPOINT_RCMD) ∧ (s.chk.rcmd = none) ∧ (rcmdLocked s = none)) ∧
    (let s : State := setReg ready Reg.CHECKPOINT_RDATA 0x80000000; let src : Src := .core 1; (Reaches s src Reg.CHECKPOINT_RCMD) ∧ (s.chk.rcmd = none) ∧ (rcmdLocked s = none) ∧ (ruleFormatBad s = true)) ∧
    (let s : State := { ready with chk := { rules := [(0, 0x9F)] } }; let src : Src := .core 1; (Reaches s src Reg.CHECKPOINT_RCMD) ∧ (s.chk.rcmd = none) ∧ (wbit (ruleWord s (rsel s) 0) 4 = true)) ∧
    (let s : State := setReg ready (rk 0x40 Reg.PAGE_LOCK) 1; let src : Src := .core 1; (Reaches s src Reg.CHECKPOINT_RCMD) ∧ (s.chk.rcmd = none) ∧ (wbit (ruleWord s (rsel s) 0) 4 = false) ∧ (rbit s (rk 0x40 Reg.PAGE_LOCK) 0 = true)) ∧
    (let s : State := { ready with chk := { rules := [(0, 0x9F)] } }; let src : Src := .core 1; (Reaches s src Reg.CHECKPOINT_RCMD) ∧ (s.chk.rcmd = none) ∧ (wbit (ruleWord s (rsel s) 0) 4 = true)) ∧
    (let s : State := setReg ready (rk 0x40 Reg.PAGE_LOCK) 1; let src : Src := .core 1; (Reaches s src Reg.CHECKPOINT_RCMD) ∧ (s.chk.rcmd = none) ∧ (wbit (ruleWord s (rsel s) 0) 4 = false) ∧ (rbit s (rk 0x40 Reg.PAGE_LOCK) 0 = true)) ∧
    (let s : State := { ready with chk := { rules := [(0, 0x9F)], rcmd := some { result := 0, entry := 9, rule := some [0x83, 7] } } }; let src : Src := .core 1; let p : RuleCmd := { result := 0, entry := 9, rule := some [0x83, 7] }; (Reaches s src Reg.CHECKPOINT_RCMD) ∧ (s.chk.rcmd = some p)) ∧
    (let s : State := { ready with chk := { rcmd := some { result := 0, entry := 9, rule := some [0x83, 7] } } }; let src : Src := .core 1; (Reaches s src Reg.CHECKPOINT_RCMD) ∧ (rbit s (rk 0x40 Reg.ERR_SYND) 23 = false) ∧ (s.chk.rcmd.isSome = true)) ∧
    (let s : State := { ready with chk := { rcmd := some { result := 0, entry := 9, rule := some [0x83, 7] } } }; let src : Src := .core 1; (Reaches s src Reg.CHECKPOINT_RCMD) ∧ (rbit s (rk 0x40 Reg.ERR_SYND) 23 = false) ∧ (s.chk.rcmd.isSome = true)) ∧
    (let s : State := { ready with chk := { rcmd := some { result := 0, entry := 9, rule := some [0x83, 7] } } }; let src : Src := .core 1; (Reaches s src Reg.CHECKPOINT_RCMD) ∧ (rbit s (rk 0x40 Reg.ERR_SYND) 23 = false) ∧ (s.chk.rcmd.isSome = true)) ∧
    (let s : State := ready; let src : Src := .port 0; (Reaches s src Reg.CHECKPOINT_SYNC)) ∧
    (let s : State := { ready with chk := { sync := [(.port 1, [])] } }; let p : PortNo := 1; let l : List Nat := []; let rest : List (Src × List Nat) := []; (s.chk.sync = (.port p, l) :: rest) ∧ (linkUp s p.val = true)) :=
  by and_intros <;> decide +kernel

/-- States and operands that meet the hypotheses of each clause of RuleTable_2: returnDown, returnCore, returnNone. -/
theorem meets_RuleTable_2 :
    (let s : State := { ready with chk := { sync := [(.port 1, [])] }, regs := [] }; let p : PortNo := 1; let l : List Nat := []; let rest : List (Src × List Nat) := []; (s.chk.sync = (.port p, l) :: rest) ∧ (linkUp s p.val = false)) ∧
    (let s : State := { ready with chk := { sync := [(.core 3, [4])] }, cores := [(3, { state := 2, r := { pc := 0x100, g := [(1, 7), (2, 0xFFFFFFF5), (3, 0x80000000)] }, busy := true })] }; let c : CoreNo := 3; let l : List Nat := [4]; let rest : List (Src × List Nat) := []; (s.chk.sync = (.core c, l) :: rest) ∧ ((coreAt s c.val).busy = true)) ∧
    (let s : State := ready; (s.chk.sync = [])) :=
  by and_intros <;> decide +kernel

/-- States and operands that meet the hypotheses of each clause of DmaTransfers_1: go, goLength, goDomain, goAccess, goWindow, goBusy, goLockdown, abort, abortIdle, inside, overlap, fromHost, toHost, toHostDown. -/
theorem meets_DmaTransfers_1 :
    (let s : State := setReg (setReg (setReg { ready with chk := { rules := [(0, 0x8F), (2, 0x1000000), (3, 0x17FFFC0)] } } (dmaReg 2 0) 0x1000100) (dmaReg 2 8) 0x1000200) (dmaReg 2 16) 8; let src : Src := .core 1; let e : DmaNo := 2; let v : BitVec 32 := 0x80000000; let op : DmaOp := { dom := 0, fn := 0, src := 0x1000100, dst := 0x1000200, len := 8, dir := 0, queue := 0 }; (Reaches s src (dmaReg e.val 0x14)) ∧ (wbit v 30 = false) ∧ (s.kerb.lockdown = false) ∧ (tfind s.chk.dma e.val = none) ∧ (op = dmaOp (setReg s (dmaReg e.val 0x14) (BitVec.ofNat 32 (wbits (v ||| 0x80000000) 29 16 * 2 ^ 16 + wbits (v ||| 0x80000000) 1 0))) e.val) ∧ (op.len ≠ 0) ∧ (op.len % 4 = 0) ∧ (op.src % 4 = 0) ∧ (op.dst % 4 = 0) ∧ (op.dir = 0 ∨ qDomain (queueAt s op.queue) = op.dom) ∧ ((dmaRanges e.val op).find? (fun a => !permits s a) = none) ∧ (dmaHostOk s op = true)) ∧
    (let s : State := setReg (setReg (setReg { ready with chk := { rules := [(0, 0x8F), (2, 0x1000000), (3, 0x17FFFC0)] } } (dmaReg 2 0) 0x1000100) (dmaReg 2 8) 0x1000200) (dmaReg 2 16) 6; let src : Src := .core 1; let e : DmaNo := 2; let v : BitVec 32 := 0x80000000; let op : DmaOp := { dom := 0, fn := 0, src := 0x1000100, dst := 0x1000200, len := 6, dir := 0, queue := 0 }; (Reaches s src (dmaReg e.val 0x14)) ∧ (wbit v 30 = false) ∧ (s.kerb.lockdown = false) ∧ (tfind s.chk.dma e.val = none) ∧ (op = dmaOp (setReg s (dmaReg e.val 0x14) (BitVec.ofNat 32 (wbits (v ||| 0x80000000) 29 16 * 2 ^ 16 + wbits (v ||| 0x80000000) 1 0))) e.val) ∧ (op.len = 0 ∨ op.len % 4 ≠ 0 ∨ op.src % 4 ≠ 0 ∨ op.dst % 4 ≠ 0)) ∧
    (let s : State := setQueue (setReg (setReg (setReg { ready with chk := { rules := [(0, 0x8F), (2, 0x1000000), (3, 0x17FFFC0)] } } (dmaReg 2 0) 0x1000100) (dmaReg 2 8) 0x1000200) (dmaReg 2 16) 8) 7 { rec' := [(0, 0x08800800)] }; let src : Src := .core 1; let e : DmaNo := 2; let v : BitVec 32 := 0x80070002; let op : DmaOp := { dom := 0, fn := 0, src := 0x1000100, dst := 0x1000200, len := 8, dir := 2, queue := 7 }; (Reaches s src (dmaReg e.val 0x14)) ∧ (wbit v 30 = false) ∧ (s.kerb.lockdown = false) ∧ (tfind s.chk.dma e.val = none) ∧ (op = dmaOp (setReg s (dmaReg e.val 0x14) (BitVec.ofNat 32 (wbits (v ||| 0x80000000) 29 16 * 2 ^ 16 + wbits (v ||| 0x80000000) 1 0))) e.val) ∧ (op.len ≠ 0) ∧ (op.len % 4 = 0) ∧ (op.src % 4 = 0) ∧ (op.dst % 4 = 0) ∧ (op.dir ≠ 0) ∧ (qDomain (queueAt s op.queue) ≠ op.dom)) ∧
    (let s : State := setReg (setReg (setReg { ready with chk := { rules := [] } } (dmaReg 2 0) 0x1000100) (dmaReg 2 8) 0x1000200) (dmaReg 2 16) 8; let src : Src := .core 1; let e : DmaNo := 2; let v : BitVec 32 := 0x80000000; let op : DmaOp := { dom := 0, fn := 0, src := 0x1000100, dst := 0x1000200, len := 8, dir := 0, queue := 0 }; (Reaches s src (dmaReg e.val 0x14)) ∧ (wbit v 30 = false) ∧ (s.kerb.lockdown = false) ∧ (tfind s.chk.dma e.val = none) ∧ (op = dmaOp (setReg s (dmaReg e.val 0x14) (BitVec.ofNat 32 (wbits (v ||| 0x80000000) 29 16 * 2 ^ 16 + wbits (v ||| 0x80000000) 1 0))) e.val) ∧ (op.len ≠ 0) ∧ (op.len % 4 = 0) ∧ (op.src % 4 = 0) ∧ (op.dst % 4 = 0) ∧ (op.dir = 0 ∨ qDomain (queueAt s op.queue) = op.dom) ∧ ((dmaRanges e.val op).all (permits s) = false)) ∧
    (let s : State := setReg (setReg (setReg { ready with chk := { rules := [(0, 0x8F), (2, 0x1000000), (3, 0x17FFFC0)] } } (dmaReg 2 0) 0x1000100) (dmaReg 2 8) 0x1000200) (dmaReg 2 16) 8; let src : Src := .core 1; let e : DmaNo := 2; let v : BitVec 32 := 0x80000002; let op : DmaOp := { dom := 0, fn := 0, src := 0x1000100, dst := 0x1000200, len := 8, dir := 2, queue := 0 }; (Reaches s src (dmaReg e.val 0x14)) ∧ (wbit v 30 = false) ∧ (s.kerb.lockdown = false) ∧ (tfind s.chk.dma e.val = none) ∧ (op = dmaOp (setReg s (dmaReg e.val 0x14) (BitVec.ofNat 32 (wbits (v ||| 0x80000000) 29 16 * 2 ^ 16 + wbits (v ||| 0x80000000) 1 0))) e.val) ∧ (op.len ≠ 0) ∧ (op.len % 4 = 0) ∧ (op.src % 4 = 0) ∧ (op.dst % 4 = 0) ∧ (op.dir = 0 ∨ qDomain (queueAt s op.queue) = op.dom) ∧ ((dmaRanges e.val op).find? (fun a => !permits s a) = none) ∧ (dmaHostOk s op = false)) ∧
    (let s : State := { ready with chk := { dma := [(2, { dom := 0, fn := 0, src := 0x1000100, dst := 0x1000200, len := 8, dir := 0, queue := 0 })] } }; let src : Src := .core 1; let e : DmaNo := 2; let v : BitVec 32 := 1; (Reaches s src (dmaReg e.val 0x14)) ∧ (wbit v 30 = false) ∧ (s.kerb.lockdown = false) ∧ ((tfind s.chk.dma e.val).isSome = true) ∧ (rbit s (rk 0x40 Reg.ERR_SYND) 23 = false)) ∧
    (let s : State := { ready with kerb := { lockdown := true } }; let src : Src := .core 1; let e : DmaNo := 2; let v : BitVec 32 := 1; (Reaches s src (dmaReg e.val 0x14)) ∧ (wbit v 30 = false) ∧ (s.kerb.lockdown = true)) ∧
    (let s : State := { ready with mem := [(0x1000101, 0x77)], chk := { dma := [(2, { dom := 0, fn := 0, src := 0x1000100, dst := 0x1000200, len := 8, dir := 0, queue := 0 })] } }; let src : Src := .core 1; let e : DmaNo := 2; let op : DmaOp := { dom := 0, fn := 0, src := 0x1000100, dst := 0x1000200, len := 8, dir := 0, queue := 0 }; (Reaches s src (dmaReg e.val 0x14)) ∧ (tfind s.chk.dma e.val = some op)) ∧
    (let s : State := ready; let src : Src := .core 1; let e : DmaNo := 2; (Reaches s src (dmaReg e.val 0x14)) ∧ (tfind s.chk.dma e.val = none)) ∧
    (let s : State := { ready with mem := [(0x1000101, 0x77)], chk := { dma := [(2, { dom := 0, fn := 0, src := 0x1000100, dst := 0x1000200, len := 8, dir := 0, queue := 0 })] } }; let e : DmaNo := 2; let op : DmaOp := { dom := 0, fn := 0, src := 0x1000100, dst := 0x1000200, len := 8, dir := 0, queue := 0 }; let data : Bytes := []; let cor : List Nat := [0, 4]; (tfind s.chk.dma e.val = some op) ∧ (op.dir = 0) ∧ (damagedAt s op.src op.len = none) ∧ (op.dst + op.len ≤ op.src ∨ op.src + op.len ≤ op.dst)) ∧
    (let s : State := { ready with mem := [(0x1000101, 0x77)], chk := { dma := [(2, { dom := 0, fn := 0, src := 0x1000100, dst := 0x1000104, len := 8, dir := 0, queue := 0 })] } }; let e : DmaNo := 2; let op : DmaOp := { dom := 0, fn := 0, src := 0x1000100, dst := 0x1000104, len := 8, dir := 0, queue := 0 }; let data : Bytes := []; let cor : List Nat := [0, 4]; (tfind s.chk.dma e.val = some op) ∧ (op.dir = 0) ∧ (damagedAt s op.src op.len = none) ∧ (op.src < op.dst + op.len) ∧ (op.dst < op.src + op.len)) ∧
    (let s : State := { ready with mem := [(0x1000101, 0x77)], chk := { dma := [(2, { dom := 0, fn := 0, src := 0x1000100, dst := 0x1000200, len := 8, dir := 1, queue := 0 })] } }; let e : DmaNo := 2; let op : DmaOp := { dom := 0, fn := 0, src := 0x1000100, dst := 0x1000200, len := 8, dir := 1, queue := 0 }; let data : Bytes := toLe 9 0x123456789; let cor : List Nat := []; (tfind s.chk.dma e.val = some op) ∧ (op.dir = 1) ∧ (op.len ≤ data.length)) ∧
    (let s : State := { ready with mem := [(0x1000101, 0x77)], chk := { dma := [(2, { dom := 0, fn := 0, src := 0x1000100, dst := 0x1000200, len := 8, dir := 2, queue := 0 })] } }; let e : DmaNo := 2; let op : DmaOp := { dom := 0, fn := 0, src := 0x1000100, dst := 0x1000200, len := 8, dir := 2, queue := 0 }; let data : Bytes := []; let cor : List Nat := [0, 4]; (tfind s.chk.dma e.val = some op) ∧ (op.dir = 2) ∧ (damagedAt s op.src op.len = none) ∧ (linkUp s (fnPort op.fn) = true)) ∧
    (let s : State := { ready with regs := [], mem := [(0x1000101, 0x77)], chk := { dma := [(2, { dom := 0, fn := 0, src := 0x1000100, dst := 0x1000200, len := 8, dir := 2, queue := 0 })] } }; let e : DmaNo := 2; let op : DmaOp := { dom := 0, fn := 0, src := 0x1000100, dst := 0x1000200, len := 8, dir := 2, queue := 0 }; let data : Bytes := []; let cor : List Nat := [0, 4]; (tfind s.chk.dma e.val = some op) ∧ (op.dir = 2) ∧ (damagedAt s op.src op.len = none) ∧ (linkUp s (fnPort op.fn) = false)) :=
  by and_intros <;> decide +kernel

/-- States and operands that meet the hypotheses of each clause of DmaTransfers_2: damaged, aborted, ecc, poisoned, idle. -/
theorem meets_DmaTransfers_2 :
    (let s : State := { ready with mem := [(0x1000101, 0x77)], chk := { eccBad := [0x1000100 / 8], dma := [(2, { dom := 0, fn := 0, src := 0x1000100, dst := 0x1000200, len := 8, dir := 0, queue := 0 })] } }; let e : DmaNo := 2; let op : DmaOp := { dom := 0, fn := 0, src := 0x1000100, dst := 0x1000200, len := 8, dir := 0, queue := 0 }; let data : Bytes := []; let cor : List Nat := [8]; let w : Nat := 0x1000100; (tfind s.chk.dma e.val = some op) ∧ (op.dir ≠ 1) ∧ (damagedAt s op.src op.len = some w)) ∧
    (let s : State := { ready with mem := [(0x1000101, 0x77)], chk := { dma := [(2, { dom := 0, fn := 0, src := 0x1000100, dst := 0x1000200, len := 80, dir := 0, queue := 0, abort := true })] } }; let e : DmaNo := 2; let op : DmaOp := { dom := 0, fn := 0, src := 0x1000100, dst := 0x1000200, len := 80, dir := 0, queue := 0, abort := true }; let data : Bytes := toLe 68 5; let cor : List Nat := [4]; (tfind s.chk.dma e.val = some op) ∧ (op.abort = true) ∧ (op.dir = 1 ∨ damagedAt s op.src (min (beatStart op data.length) op.len) = none)) ∧
    (let s : State := { ready with mem := [(0x1000101, 0x77)], chk := { dma := [(2, { dom := 0, fn := 0, src := 0x1000100, dst := 0x1000200, len := 80, dir := 0, queue := 0, abort := true })] } }; let e : DmaNo := 2; let op : DmaOp := { dom := 0, fn := 0, src := 0x1000100, dst := 0x1000200, len := 80, dir := 0, queue := 0, abort := true }; let data : Bytes := toLe 68 5; let cor : List Nat := [4]; (tfind s.chk.dma e.val = some op) ∧ (op.dir ≠ 1) ∧ (damagedAt s op.src (min (beatStart op data.length + 64) op.len) = none)) ∧
    (let s : State := { ready with mem := [(0x1000101, 0x77)], chk := { dma := [(2, { dom := 0, fn := 0, src := 0x1000100, dst := 0x1000200, len := 80, dir := 1, queue := 0, abort := true })] } }; let e : DmaNo := 2; let op : DmaOp := { dom := 0, fn := 0, src := 0x1000100, dst := 0x1000200, len := 80, dir := 1, queue := 0, abort := true }; let data : Bytes := toLe 68 5; let cor : List Nat := [4]; (tfind s.chk.dma e.val = some op) ∧ (op.dir = 1)) ∧
    (let s : State := ready; let e : DmaNo := 2; let data : Bytes := [1]; let fin : DmaFin := { how := .ok none }; (tfind s.chk.dma e.val = none)) :=
  by and_intros <;> decide +kernel

/-- States and operands that meet the hypotheses of each clause of KerbSources_1: detect, detectOff, injectQuiet, inject, report, reportLasting, reportOff, reportAnswered, reportOther, reportNone, window, windowNone, clear, ends. -/
theorem meets_KerbSources_1 :
    (let s : State := setReg (setReg (setReg (setReg ready (kCfg 3) 0x50001) (kCnt 3) 2) (kCfg 4) 0x90001) (kCnt 5) 1; let k : KSense := { mask := 0x30, hubLow := false, hubHigh := false, kerbRail := true, temp := 0, tamp := 0 }; (domOn s 19 = true) ∧ (∀ n ∈ ((List.range 13).filter fun n => levelSrc n && senses s k n && !rbit s Reg.KERB_PRESENT n), (kEn s n = false ∨ lasting s n = true ∨ kCount s n + 1 < kThr s n))) ∧
    (let s : State := { State.reset with mainOn := false }; let k : KSense := { mask := 8, hubLow := true, hubHigh := false, kerbRail := true, temp := 0, tamp := 0 }; (domOn s 19 = false)) ∧
    (let s : State := setReg (setReg (setReg (setReg ready (kCfg 3) 0x50001) (kCnt 3) 2) (kCfg 4) 0x90001) (kCnt 5) 1; let src : Src := .port 0; let v : BitVec 32 := 0x18; (Reaches s src Reg.KERB_INJECT) ∧ (s.life.hardLock = false) ∧ (∀ n ∈ bitsOf v.toNat 13, (kEn s n = false ∨ lasting s n = true ∨ kCount s n + 1 < kThr s n))) ∧
    (let s : State := setReg (setReg (setReg ready (kCfg 7) 0x50001) (kCnt 7) 4) (Reg.KERB_RESP + 28) 8; let src : Src := .port 0; let v : BitVec 32 := 0x80; let n : SrcNo := 7; (Reaches s src Reg.KERB_INJECT) ∧ (s.life.hardLock = false) ∧ (bitsOf v.toNat 13 = [n.val]) ∧ (kEn s n.val = true) ∧ (lasting s n.val = false) ∧ (kThr s n.val ≤ kCount s n.val + 1) ∧ (s.kerb.resp = none)) ∧
    (let s : State := setReg { ready with kerb := { reports := [⟨10, 0x40, false⟩] } } (kCfg 10) 1; let r : KReport := ⟨10, 0x40, false⟩; let rest : List KReport := []; (domOn s 19 = true) ∧ (s.kerb.reports = r :: rest) ∧ (r.src = 10) ∧ (r.lasting = false) ∧ (kEn s 10 = true) ∧ (lasting s 10 = false)) ∧
    (let s : State := setReg (setReg { ready with kerb := { reports := [⟨10, 0x40, true⟩] } } (kCfg 10) 1) (Reg.KERB_RESP + 40) 0; let r : KReport := ⟨10, 0x40, true⟩; let rest : List KReport := []; (domOn s 19 = true) ∧ (s.kerb.reports = r :: rest) ∧ (r.src = 10) ∧ (r.lasting = true) ∧ (kEn s 10 = true) ∧ (s.kerb.answered.contains r.info = false) ∧ (kActs s 10 = 0)) ∧
    (let s : State := setReg { ready with kerb := { reports := [⟨10, 0x40, true⟩] } } (kCfg 10) 0; let r : KReport := ⟨10, 0x40, true⟩; let rest : List KReport := []; (domOn s 19 = true) ∧ (s.kerb.reports = r :: rest) ∧ (r.src = 10) ∧ (kEn s 10 = false)) ∧
    (let s : State := setReg { ready with kerb := { reports := [⟨10, 0x40, true⟩], answered := [0x40] } } (kCfg 10) 1; let r : KReport := ⟨10, 0x40, true⟩; let rest : List KReport := []; (domOn s 19 = true) ∧ (s.kerb.reports = r :: rest) ∧ (r.src = 10) ∧ (kEn s 10 = true) ∧ (r.lasting = true) ∧ (s.kerb.answered.contains r.info = true)) ∧
    (let s : State := setReg { ready with kerb := { reports := [⟨7, 0x40, false⟩] } } (kCfg 7) 327681; let r : KReport := ⟨7, 0x40, false⟩; let rest : List KReport := []; (domOn s 19 = true) ∧ (s.kerb.reports = r :: rest) ∧ (r.src < 13) ∧ (r.src ≠ 10) ∧ ((kEn s r.src = false ∨ lasting s r.src = true ∨ kCount s r.src + 1 < kThr s r.src))) ∧
    (let s : State := ready; (domOn s 19 = false ∨ s.kerb.reports = [])) ∧
    (let s : State := { ready with kerb := { wins := [7] } }; let n : SrcNo := 7; (s.kerb.wins.contains n.val = true)) ∧
    (let s : State := ready; let n : SrcNo := 7; (s.kerb.wins.contains n.val = false)) ∧
    (let s : State := setReg (setReg ready (kCfg 7) 0x50001) (kCnt 7) 4; let src : Src := .port 0; let v : BitVec 32 := 0x88; (Reaches s src Reg.KERB_SRC_CLR) ∧ (∀ n ∈ bitsOf v.toNat 13, levelSrc n = false ∨ rbit s Reg.KERB_PRESENT n = false)) ∧
    (let s : State := setReg ready Reg.KERB_PRESENT 0x7F; let n : SrcNo := 3; (domOn s 19 = true) ∧ (levelSrc n.val = true)) :=
  by and_intros <;> decide +kernel

/-- States and operands that meet the hypotheses of each clause of KerbSources_2: endsNot. -/
theorem meets_KerbSources_2 :
    (let s : State := ready; let n : SrcNo := 8; (domOn s 19 = false ∨ levelSrc n.val = false)) :=
  by decide +kernel

/-- States and operands that meet the hypotheses of each clause of KerbResponses: ends, endsNot, reset, resetNot, lockdown, sev, log, logFail, logNone, blogClr, logRead, blogRead, btime. -/
theorem meets_KerbResponses :
    (let s : State := { ready with kerb := { resp := some { mask := 128, act := 0x4F, sev := 2, logged := false }, erase := true, lockdown := true, ksev := 2 } }; let r : KResp := { mask := 128, act := 0x4F, sev := 2 }; (s.kerb.resp = some r) ∧ (r.logged = false) ∧ (s.mews.zeroising = false) ∧ (s.kerb.erase = false ∨ pllRuns s = true)) ∧
    (let s : State := { ready with kerb := { resp := some { mask := 128, act := 0x4F, sev := 2, logged := true }, erase := true, lockdown := true, ksev := 2 } }; (s.kerb.resp = none ∨ (s.kerb.resp.map (·.logged)) = some true ∨ s.mews.zeroising = true ∨ (s.kerb.erase = true ∧ pllRuns s = false))) ∧
    (let s : State := { ready with kerb := { resp := some { mask := 128, act := 0x40, sev := 2, logged := true, conf := true }, erase := true, lockdown := true, ksev := 2 } }; let r : KResp := { mask := 128, act := 0x40, sev := 2, logged := true, conf := true }; (s.kerb.resp = some r) ∧ (r.act.testBit 6 = true) ∧ (r.conf = true) ∧ (s.mews.zeroising = false) ∧ (s.kerb.erase = false ∨ pllRuns s = true)) ∧
    (let s : State := { ready with kerb := { resp := some { mask := 128, act := 0x40, sev := 2, logged := false }, erase := true, lockdown := true, ksev := 2 } }; (s.kerb.resp = none ∨ (s.kerb.resp.map fun r => r.act.testBit 6 && r.conf) = some false ∨ s.mews.zeroising = true ∨ (s.kerb.erase = true ∧ pllRuns s = false))) ∧
    (let s : State := { ready with kerb := { resp := some { mask := 128, act := 1, sev := 2, logged := true }, erase := true, lockdown := true, ksev := 2 } }; let src : Src := .core 0; (Reaches s src Reg.KERB_ACK)) ∧
    (let s : State := { ready with kerb := { resp := some { mask := 128, act := 1, sev := 2, logged := true }, erase := true, lockdown := true, ksev := 2 } }; let src : Src := .core 0; (Reaches s src Reg.KERB_ACK)) ∧
    (let s : State := { ready with kerb := { logQ := [{ tick := 5, btime := 6, kind := 2, source := 7 }] }, fer := { logNext := 8193 } }; let e : LogEnt := { tick := 5, btime := 6, kind := 2, source := 7 }; let rest : List LogEnt := []; let fails : Nat := 2; (s.mainOn = true) ∧ (s.kerb.logQ = e :: rest) ∧ (fails < 3)) ∧
    (let s : State := { ready with kerb := { logQ := [{ tick := 5, btime := 6, kind := 2, source := 7 }] }, fer := { logNext := 8193 } }; let e : LogEnt := { tick := 5, btime := 6, kind := 2, source := 7 }; let rest : List LogEnt := []; let fails : Nat := 3; (s.mainOn = true) ∧ (pageOn s 0x46 = true) ∧ (s.kerb.logQ = e :: rest) ∧ (3 ≤ fails)) ∧
    (let s : State := ready; let fails : Nat := 0; (s.mainOn = false ∨ s.kerb.logQ = [])) ∧
    (let s : State := { ready with bak := { blog := [⟨1, 2, 3, 4, 1, true, true, 1⟩] } }; let src : Src := .core 1; (Reaches s src Reg.KERB_BLOG_CLR)) ∧
    (let s : State := { ready with fer := { log := [(0, toLe 32 0x1234)], logNext := 1 } }; let src : Src := .port 0; (Reaches s src Reg.KERB_LOG_DATA)) ∧
    (let s : State := { ready with bak := { blog := [⟨1, 2, 3, 4, 1, true, true, 1⟩] } }; let src : Src := .port 0; (Reaches s src Reg.KERB_BLOG_DATA)) ∧
    (let s : State := { ready with bak := { btime := 77 } }; let src : Src := .port 0; (Reaches s src Reg.KERB_BTIME_LO)) :=
  by and_intros <;> decide +kernel

/-- States and operands that meet the hypotheses of each clause of BackupOperation: vbat, fails, alarm, brownout, kosc, mesh, powerUp, vbatNot, failsNot, alarmNot, brownoutNot, koscNot, meshNot, powerUpNot. -/
theorem meets_BackupOperation :
    (let s : State := ready; (s.bak.vbat = false)) ∧
    (let s : State := ready; (s.mainOn = true)) ∧
    (let s : State := { ready with mainOn := false, bak := { vbat := true, cust := some [1], fleetRoot := some [2], pairRoot := some [3], arm := [4], blog := [⟨1, 2, 3, 0, 1, true, false, 1⟩] } }; let n : SrcNo := 4; (backupOnly s = true) ∧ (s.bak.arm.contains n.val = true)) ∧
    (let s : State := { ready with mainOn := false, bak := { vbat := true, cust := some [1], fleetRoot := some [2], pairRoot := some [3], arm := [4], blog := [⟨1, 2, 3, 0, 1, true, false, 1⟩] } }; (backupOnly s = true)) ∧
    (let s : State := { ready with mainOn := true, bak := { vbat := true, cust := some [1], fleetRoot := some [2], pairRoot := some [3], arm := [4], blog := [⟨1, 2, 3, 0, 1, true, false, 1⟩] } }; (s.mainOn = true)) ∧
    (let s : State := ready; (s.mainOn = true ∨ s.bak.vbat = true)) ∧
    (let s : State := { ready with mainOn := false, bak := { vbat := true, cust := some [1], fleetRoot := some [2], pairRoot := some [3], arm := [4], blog := [⟨1, 2, 3, 0, 1, true, false, 1⟩] } }; (s.mainOn = false)) ∧
    (let s : State := { ready with mainOn := true, bak := { vbat := true, cust := some [1], fleetRoot := some [2], pairRoot := some [3], arm := [4], blog := [⟨1, 2, 3, 0, 1, true, false, 1⟩] } }; (s.bak.vbat = true)) ∧
    (let s : State := { ready with mainOn := false }; (s.mainOn = false)) ∧
    (let s : State := { ready with mainOn := true, bak := { vbat := true, cust := some [1], fleetRoot := some [2], pairRoot := some [3], arm := [4], blog := [⟨1, 2, 3, 0, 1, true, false, 1⟩] } }; let n : SrcNo := 5; (backupOnly s = false ∨ s.bak.arm.contains n.val = false)) ∧
    (let s : State := { ready with mainOn := true, bak := { vbat := true, cust := some [1], fleetRoot := some [2], pairRoot := some [3], arm := [4], blog := [⟨1, 2, 3, 0, 1, true, false, 1⟩] } }; (backupOnly s = false)) ∧
    (let s : State := { ready with mainOn := false }; (s.mainOn = false)) ∧
    (let s : State := { ready with mainOn := false }; (s.mainOn = false ∧ s.bak.vbat = false)) ∧
    (let s : State := { ready with mainOn := true, bak := { vbat := true, cust := some [1], fleetRoot := some [2], pairRoot := some [3], arm := [4], blog := [⟨1, 2, 3, 0, 1, true, false, 1⟩] } }; (s.mainOn = true)) :=
  by and_intros <;> decide +kernel

/-- States and operands that meet the hypotheses of each clause of PairingCommands_1: prepare, prepareState, prepareStarts, prepareWaits, prepareNoUnit, commitState, peer, timeout, timeoutNot, leaveUnpaired, leaveAlone, leavePaired, leaveDown, takeover. -/
theorem meets_PairingCommands_1 :
    (let s : State := { ready with fnt := { begun := true, state := 4, int := { on := true, key := toLe 32 1, v := toLe 16 2 }, got := [(whoXing, toLe 32 7)] }, life := { state := 2 }, units := { arc := [(0, { kat := false, offline := false, internal := some whoXing })] }, xing := {  } }; let src : Src := .port 0; let n : Nat := 0; let b : Bytes := toLe 32 7; (Reaches s src Reg.XING_CMD) ∧ (xingBusy s = false) ∧ (twinState s = true) ∧ (UnitReady s whoXing n b)) ∧
    (let s : State := { ready with life := { state := 5 } }; let src : Src := .port 0; (Reaches s src Reg.XING_CMD) ∧ (xingBusy s = false) ∧ (twinState s = false)) ∧
    (let s : State := { ready with fnt := { begun := true, state := 4, int := { on := true, key := toLe 32 1, v := toLe 16 2 } }, life := { state := 2 }, units := { arc := [(0, { kat := false, offline := false })] }, xing := {  } }; let src : Src := .port 0; let n : Nat := 0; (Reaches s src Reg.XING_CMD) ∧ (xingBusy s = false) ∧ (twinState s = true) ∧ (UnitFree s whoXing n)) ∧
    (let s : State := { ready with fnt := { begun := true, state := 4, int := { on := true, key := toLe 32 1, v := toLe 16 2 } }, life := { state := 2 }, units := { arc := [(0, { kat := false, offline := false, ctx := some 3 })] }, xing := {  } }; let src : Src := .port 0; let n : Nat := 0; (Reaches s src Reg.XING_CMD) ∧ (xingBusy s = false) ∧ (twinState s = true) ∧ (UnitBusy s whoXing n)) ∧
    (let s : State := { ready with fnt := { begun := true, state := 4, int := { on := true, key := toLe 32 1, v := toLe 16 2 } }, life := { state := 2 }, units := { arc := (List.range 8).map fun n => (n, { offline := true, kat := false }) }, xing := {  } }; let src : Src := .port 0; (Reaches s src Reg.XING_CMD) ∧ (xingBusy s = false) ∧ (twinState s = true) ∧ (UnitNone s whoXing)) ∧
    (let s : State := { ready with life := { state := 5 }, xing := { eph := some 3 } }; let src : Src := .port 0; let fails : Nat := 1; let peer : Option PeerHello := none; (Reaches s src Reg.XING_CMD) ∧ (xingBusy s = false) ∧ (twinState s = false)) ∧
    (let s : State := { ready with fnt := { begun := true, state := 4, int := { on := true, key := toLe 32 1, v := toLe 16 2 } }, life := { state := 2 }, units := { arc := [(0, { kat := false, offline := false })] }, xing := { eph := some 1, stmt := some (List.replicate 240 0, false, 0) } }; let a : Bytes := List.replicate 240 0; let roleB : Bool := false; let fails : Nat := 0; let p : PeerHello := ⟨0, [1]⟩; let rx : XRx := ⟨[], true⟩; (s.xing.stmt = some (a, roleB, fails)) ∧ (s.xing.sess = none)) ∧
    (let s : State := { ready with fnt := { begun := true, state := 4, int := { on := true, key := toLe 32 1, v := toLe 16 2 } }, life := { state := 2 }, units := { arc := [(0, { kat := false, offline := false })] }, xing := { stmt := some ([], false, 0), eph := some 5 } }; (s.xing.stmt.isSome = true)) ∧
    (let s : State := { ready with fnt := { begun := true, state := 4, int := { on := true, key := toLe 32 1, v := toLe 16 2 } }, life := { state := 2 }, units := { arc := [(0, { kat := false, offline := false })] }, xing := {  } }; (s.xing.stmt = none)) ∧
    (let s : State := { ready with fnt := { begun := true, state := 4, int := { on := true, key := toLe 32 1, v := toLe 16 2 } }, life := { state := 2 }, units := { arc := [(0, { kat := false, offline := false })] }, xing := {  } }; let src : Src := .core 0; (Reaches s src Reg.XING_CMD) ∧ (xingBusy s = false) ∧ (s.xing.state = 0)) ∧
    (let s : State := { ready with fnt := { begun := true, state := 4, int := { on := true, key := toLe 32 1, v := toLe 16 2 } }, life := { state := 2 }, units := { arc := [(0, { kat := false, offline := false })] }, xing := { state := 5 } }; let src : Src := .core 0; (Reaches s src Reg.XING_CMD) ∧ (xingBusy s = false) ∧ (s.xing.state = 4 ∨ s.xing.state = 5)) ∧
    (let s : State := { ready with fnt := { begun := true, state := 4, int := { on := true, key := toLe 32 1, v := toLe 16 2 } }, life := { state := 2 }, units := { arc := [(0, { kat := false, offline := false })] }, xing := { state := 3, link := true, mirror := [⟨8, [], .qcmd 0⟩] } }; let src : Src := .core 0; (Reaches s src Reg.XING_CMD) ∧ (xingBusy s = false) ∧ (s.xing.state = 3) ∧ (s.xing.link = true)) ∧
    (let s : State := { ready with fnt := { begun := true, state := 4, int := { on := true, key := toLe 32 1, v := toLe 16 2 } }, life := { state := 2 }, units := { arc := [(0, { kat := false, offline := false })] }, xing := { state := 1 } }; let src : Src := .core 0; (Reaches s src Reg.XING_CMD) ∧ (xingBusy s = false) ∧ (s.xing.state = 1 ∨ s.xing.state = 2 ∨ (s.xing.state = 3 ∧ s.xing.link = false ∧ s.xing.deciding = false))) ∧
    (let s : State := { ready with fnt := { begun := true, state := 4, int := { on := true, key := toLe 32 1, v := toLe 16 2 } }, life := { state := 2 }, units := { arc := [(0, { kat := false, offline := false })] }, xing := { state := 5 } }; let src : Src := .core 0; (Reaches s src Reg.XING_CMD) ∧ (xingBusy s = false) ∧ (s.xing.state = 5)) :=
  by and_intros <;> decide +kernel

/-- States and operands that meet the hypotheses of each clause of PairingCommands_2: takeoverState, unpair, prepareBusy, commitBusy, leaveBusy, takeoverBusy, unpairBusy. -/
theorem meets_PairingCommands_2 :
    (let s : State := { ready with fnt := { begun := true, state := 4, int := { on := true, key := toLe 32 1, v := toLe 16 2 } }, life := { state := 2 }, units := { arc := [(0, { kat := false, offline := false })] }, xing := { state := 3 } }; let src : Src := .core 0; (Reaches s src Reg.XING_CMD) ∧ (xingBusy s = false) ∧ (s.xing.state ≠ 5)) ∧
    (let s : State := { ready with fnt := { begun := true, state := 4, int := { on := true, key := toLe 32 1, v := toLe 16 2 } }, life := { state := 2 }, units := { arc := [(0, { kat := false, offline := false })] }, xing := { state := 3, link := true, mirror := [⟨8, [], .qcmd 0⟩] }, bak := { vbat := true, pairRoot := some [1] } }; let src : Src := .core 0; (Reaches s src Reg.XING_CMD) ∧ (xingBusy s = false)) ∧
    (let s : State := { ready with fnt := { begun := true, state := 4, int := { on := true, key := toLe 32 1, v := toLe 16 2 } }, life := { state := 2 }, units := { arc := [(0, { kat := false, offline := false })] }, xing := { held := some .prepare } }; let src : Src := .core 0; (Reaches s src Reg.XING_CMD) ∧ (xingBusy s = true) ∧ (rbit s (rk 0x48 Reg.ERR_SYND) 23 = false)) ∧
    (let s : State := { ready with fnt := { begun := true, state := 4, int := { on := true, key := toLe 32 1, v := toLe 16 2 } }, life := { state := 2 }, units := { arc := [(0, { kat := false, offline := false })] }, xing := { held := some .prepare } }; let src : Src := .core 0; let fails : Nat := 1; let peer : Option PeerHello := none; (Reaches s src Reg.XING_CMD) ∧ (xingBusy s = true) ∧ (rbit s (rk 0x48 Reg.ERR_SYND) 23 = false)) ∧
    (let s : State := { ready with fnt := { begun := true, state := 4, int := { on := true, key := toLe 32 1, v := toLe 16 2 } }, life := { state := 2 }, units := { arc := [(0, { kat := false, offline := false })] }, xing := { held := some .prepare } }; let src : Src := .core 0; (Reaches s src Reg.XING_CMD) ∧ (xingBusy s = true) ∧ (rbit s (rk 0x48 Reg.ERR_SYND) 23 = false)) ∧
    (let s : State := { ready with fnt := { begun := true, state := 4, int := { on := true, key := toLe 32 1, v := toLe 16 2 } }, life := { state := 2 }, units := { arc := [(0, { kat := false, offline := false })] }, xing := { held := some .prepare } }; let src : Src := .core 0; (Reaches s src Reg.XING_CMD) ∧ (xingBusy s = true) ∧ (rbit s (rk 0x48 Reg.ERR_SYND) 23 = false)) ∧
    (let s : State := { ready with fnt := { begun := true, state := 4, int := { on := true, key := toLe 32 1, v := toLe 16 2 } }, life := { state := 2 }, units := { arc := [(0, { kat := false, offline := false })] }, xing := { held := some .prepare } }; let src : Src := .core 0; (Reaches s src Reg.XING_CMD) ∧ (xingBusy s = true) ∧ (rbit s (rk 0x48 Reg.ERR_SYND) 23 = false)) :=
  by and_intros <;> decide +kernel

/-- States and operands that meet the hypotheses of each clause of CrossingEffects_1: linkUp, linkUpLife, linkUpConfig, linkUpBothSolo, linkAgain, linkWaits, linkNot, joined, joinedNot, badTag, noSession, confirm, confirmHeld, confirmNone. -/
theorem meets_CrossingEffects_1 :
    (let s : State := setReg { ready with fnt := { begun := true, state := 4, int := { on := true, key := toLe 32 1, v := toLe 16 2 }, got := [(whoLink, toLe 64 7)] }, life := { state := 2 }, units := { arc := [(0, { kat := false, offline := false })] }, xing := { state := 1 }, bak := { vbat := true, pairRoot := some [1] } } Reg.XING_CTRL 1; let p : PeerInfo := { serial := 0, value := [], life := 2, k := epochExp ready, dev := 0, comp := reg ready Reg.COMP_CTRL, solo := false, left := false, alive := true }; let b : Bytes := toLe 64 7; (mayLink s = true) ∧ (p.serial.toNat = s.fer.peerSerial) ∧ (drawn s whoLink = some b) ∧ (s.xing.state ≠ 2) ∧ (s.xing.state ≠ 3) ∧ (p.life = s.life.state) ∧ (joinConfigOk s p = true) ∧ (s.xing.state ≠ 4 ∨ p.solo = false)) ∧
    (let s : State := setReg { ready with fnt := { begun := true, state := 4, int := { on := true, key := toLe 32 1, v := toLe 16 2 }, got := [(whoLink, toLe 64 7)] }, life := { state := 2 }, units := { arc := [(0, { kat := false, offline := false })] }, xing := { state := 4 }, bak := { vbat := true, pairRoot := some [1] } } Reg.XING_CTRL 1; let p : PeerInfo := { serial := 0, value := [], life := 3, k := epochExp ready, dev := 0, comp := reg ready Reg.COMP_CTRL, solo := false, left := false, alive := true }; let b : Bytes := toLe 64 7; (mayLink s = true) ∧ (p.serial.toNat = s.fer.peerSerial) ∧ (drawn s whoLink = some b) ∧ (s.xing.state ≠ 2) ∧ (s.xing.state ≠ 3) ∧ (p.life ≠ s.life.state)) ∧
    (let s : State := setReg { ready with fnt := { begun := true, state := 4, int := { on := true, key := toLe 32 1, v := toLe 16 2 }, got := [(whoLink, toLe 64 7)] }, life := { state := 2 }, units := { arc := [(0, { kat := false, offline := false })] }, xing := { state := 4 }, bak := { vbat := true, pairRoot := some [1] } } Reg.XING_CTRL 1; let p : PeerInfo := { serial := 0, value := [], life := 2, k := epochExp ready, dev := 9, comp := reg ready Reg.COMP_CTRL, solo := false, left := false, alive := true }; let b : Bytes := toLe 64 7; (mayLink s = true) ∧ (p.serial.toNat = s.fer.peerSerial) ∧ (drawn s whoLink = some b) ∧ (s.xing.state ≠ 2) ∧ (s.xing.state ≠ 3) ∧ (p.life = s.life.state) ∧ (joinConfigOk s p = false)) ∧
    (let s : State := setReg { ready with fnt := { begun := true, state := 4, int := { on := true, key := toLe 32 1, v := toLe 16 2 }, got := [(whoLink, toLe 64 7)] }, life := { state := 2 }, units := { arc := [(0, { kat := false, offline := false })] }, xing := { state := 4 }, bak := { vbat := true, pairRoot := some [1] } } Reg.XING_CTRL 1; let p : PeerInfo := { serial := 0, value := [], life := 2, k := epochExp ready, dev := 0, comp := reg ready Reg.COMP_CTRL, solo := true, left := false, alive := true }; let b : Bytes := toLe 64 7; (mayLink s = true) ∧ (p.serial.toNat = s.fer.peerSerial) ∧ (drawn s whoLink = some b) ∧ (s.xing.state ≠ 2) ∧ (s.xing.state ≠ 3) ∧ (p.life = s.life.state) ∧ (joinConfigOk s p = true) ∧ (s.xing.state = 4) ∧ (p.solo = true)) ∧
    (let s : State := setReg { ready with fnt := { begun := true, state := 4, int := { on := true, key := toLe 32 1, v := toLe 16 2 }, got := [(whoLink, toLe 64 7)] }, life := { state := 2 }, units := { arc := [(0, { kat := false, offline := false })] }, xing := { state := 3 }, bak := { vbat := true, pairRoot := some [1] } } Reg.XING_CTRL 1; let p : PeerInfo := { serial := 0, value := [], life := 2, k := epochExp ready, dev := 0, comp := reg ready Reg.COMP_CTRL, solo := false, left := false, alive := true }; let b : Bytes := toLe 64 7; (mayLink s = true) ∧ (p.serial.toNat = s.fer.peerSerial) ∧ (drawn s whoLink = some b) ∧ (s.xing.state = 2 ∨ (s.xing.state = 3 ∧ s.xing.mirror = [])) ∧ (s.xing.sess = none)) ∧
    (let s : State := setReg { ready with fnt := { begun := true, state := 4, int := { on := true, key := toLe 32 1, v := toLe 16 2 } }, life := { state := 2 }, units := { arc := [(0, { kat := false, offline := false })] }, xing := { state := 1 }, bak := { vbat := true, pairRoot := some [1] } } Reg.XING_CTRL 1; let p : PeerInfo := { serial := 0, value := [], life := 2, k := epochExp ready, dev := 0, comp := reg ready Reg.COMP_CTRL, solo := false, left := false, alive := true }; (mayLink s = true) ∧ (p.serial.toNat = s.fer.peerSerial) ∧ (drawn s whoLink = none) ∧ ((s.fnt.draws.any fun e => e.2 == whoLink) = false) ∧ (s.xing.sess = none ∨ (s.xing.state ≠ 2 ∧ s.xing.state ≠ 3))) ∧
    (let s : State := { ready with fnt := { begun := true, state := 4, int := { on := true, key := toLe 32 1, v := toLe 16 2 } }, life := { state := 2 }, units := { arc := [(0, { kat := false, offline := false })] }, xing := {  } }; let p : PeerInfo := { serial := 0, value := [], life := 2, k := epochExp ready, dev := 0, comp := reg ready Reg.COMP_CTRL, solo := false, left := false, alive := true }; (mayLink s = false ∨ p.serial.toNat ≠ s.fer.peerSerial ∨ (s.xing.sess.isSome = true ∧ (s.xing.state = 2 ∨ s.xing.state = 3)))) ∧
    (let s : State := { ready with fnt := { begun := true, state := 4, int := { on := true, key := toLe 32 1, v := toLe 16 2 } }, life := { state := 2 }, units := { arc := [(0, { kat := false, offline := false })] }, xing := { state := 2, sess := some { keyOut := toLe 32 5, keyIn := toLe 32 6, tx := 3, rx := 5 } }, fer := { rsv := [(9, { even := some { blk := 2, code := 1 }, odd := some { blk := 3, code := 1 } })] } }; let img : JoinImage := { gen0 := 0, slots := [(9, { gen := 2, usage := 0, alg := 3 })], curves := [], tick := 0, rsv := [(9, { even := some { blk := 4, code := 1 } })], dukpt := [], fleetRole := 1, fleetId := 6, fleetRoot := some [2], wards := [] }; (s.xing.state = 2) ∧ (s.xing.sess.isSome = true) ∧ (s.mews.zeroising = false)) ∧
    (let s : State := { ready with fnt := { begun := true, state := 4, int := { on := true, key := toLe 32 1, v := toLe 16 2 } }, life := { state := 2 }, units := { arc := [(0, { kat := false, offline := false })] }, xing := {  } }; let img : JoinImage := { gen0 := 0, slots := [(9, { gen := 2, usage := 0, alg := 3 })], curves := [], tick := 0, rsv := [(9, { even := some { blk := 4, code := 1 } })], dukpt := [], fleetRole := 1, fleetId := 6, fleetRoot := some [2], wards := [] }; (s.xing.state ≠ 2 ∨ s.xing.sess = none ∨ s.mews.zeroising = true)) ∧
    (let s : State := { ready with fnt := { begun := true, state := 4, int := { on := true, key := toLe 32 1, v := toLe 16 2 } }, life := { state := 2 }, units := { arc := [(0, { kat := false, offline := false })] }, xing := { state := 3, sess := some { keyOut := toLe 32 5, keyIn := toLe 32 6, tx := 3, rx := 5 } } }; let e : Sess := { keyOut := toLe 32 5, keyIn := toLe 32 6, tx := 3, rx := 5 }; let f : XFrame := .ward 3 none; let rx : XRx := ⟨[], true⟩; (s.xing.sess = some e) ∧ (rx.tags ≠ frameTags s e f)) ∧
    (let s : State := { ready with fnt := { begun := true, state := 4, int := { on := true, key := toLe 32 1, v := toLe 16 2 } }, life := { state := 2 }, units := { arc := [(0, { kat := false, offline := false })] }, xing := {  } }; let f : XFrame := .ward 3 none; let rx : XRx := ⟨[], true⟩; (s.xing.sess = none) ∧ (s.xing.stmt = none)) ∧
    (let s : State := { ready with fnt := { begun := true, state := 4, int := { on := true, key := toLe 32 1, v := toLe 16 2 } }, life := { state := 2 }, units := { arc := [(0, { kat := false, offline := false })] }, xing := { state := 3, sess := some { keyOut := toLe 32 5, keyIn := toLe 32 6, tx := 3, rx := 5 }, mirror := [⟨8, [], .qcmd 0⟩, ⟨11, [], .fleet none 9⟩] } }; let n : Nat := 0; let i : MirrorItem := ⟨8, [], .qcmd 0⟩; (s.xing.mirror[n]? = some i) ∧ (s.mews.zeroising = false ∨ commitsHere i.wait = false)) ∧
    (let s : State := { ready with fnt := { begun := true, state := 4, int := { on := true, key := toLe 32 1, v := toLe 16 2 } }, life := { state := 2 }, units := { arc := [(0, { kat := false, offline := false })] }, xing := { state := 3, sess := some { keyOut := toLe 32 5, keyIn := toLe 32 6, tx := 3, rx := 5 }, mirror := [⟨1, [], .cust (some (.erase 4 false)) none⟩] }, mews := { zeroising := true } }; let n : Nat := 0; let i : MirrorItem := ⟨1, [], .cust (some (.erase 4 false)) none⟩; (s.xing.mirror[n]? = some i) ∧ (s.mews.zeroising = true) ∧ (commitsHere i.wait = true)) ∧
    (let s : State := { ready with fnt := { begun := true, state := 4, int := { on := true, key := toLe 32 1, v := toLe 16 2 } }, life := { state := 2 }, units := { arc := [(0, { kat := false, offline := false })] }, xing := {  } }; let n : Nat := 0; (s.xing.mirror.length ≤ n)) :=
  by and_intros <;> decide +kernel

/-- States and operands that meet the hypotheses of each clause of CrossingEffects_2: confirmRecord, confirmWard, confirmReplay, heartbeatSend, heartbeatNot, lostSequencer, lostOther, lostDown, lostNot, decision, decisionNot, failover, failoverNot, rtt. -/
theorem meets_CrossingEffects_2 :
    (let s : State := { ready with fnt := { begun := true, state := 4, int := { on := true, key := toLe 32 1, v := toLe 16 2 } }, life := { state := 2 }, units := { arc := [(0, { kat := false, offline := false })] }, xing := { state := 3, sess := some { keyOut := toLe 32 5, keyIn := toLe 32 6, tx := 3, rx := 5 }, mirror := [⟨8, [], .qcmd 0⟩, ⟨11, [], .fleet none 9⟩] } }; let n : Nat := 0; let r : Nat := 0; let i : MirrorItem := ⟨8, [], .qcmd 0⟩; (s.xing.mirror[n]? = some i) ∧ (i.wait = .qcmd r) ∧ (r < 16)) ∧
    (let s : State := { ready with fnt := { begun := true, state := 4, int := { on := true, key := toLe 32 1, v := toLe 16 2 } }, life := { state := 2 }, units := { arc := [(0, { kat := false, offline := false })] }, xing := { state := 3, sess := some { keyOut := toLe 32 5, keyIn := toLe 32 6, tx := 3, rx := 5 }, mirror := [⟨8, [], .qcmd 0⟩, ⟨11, [], .fleet none 9⟩] } }; let n : Nat := 1; let r : Nat := 9; let i : MirrorItem := ⟨11, [], .fleet none 9⟩; (s.xing.mirror[n]? = some i) ∧ (i.wait = .fleet none r) ∧ (r < 16)) ∧
    (let s : State := let z := setCtx (q7) 4 { q := 7, seq := 1, phase := .zeroising, d := { opcode := 0x20, tag := 3 } }; { z with xing := { state := 3, mirror := [⟨7, [], .finish 4 {}⟩] } }; let n : Nat := 0; let i : MirrorItem := ⟨7, [], .finish 4 {}⟩; let c : CtxNo := 4; let x : Ctx := { q := 7, seq := 1, phase := .zeroising, d := { opcode := 0x20, tag := 3 } }; let f : CmdEnd := {}; (s.xing.mirror[n]? = some i) ∧ (i.wait = .finish c.val f) ∧ (ctxAt s c.val = some x) ∧ (x.silent = false) ∧ (linkUp s (fnPort (qFunc (queueAt s x.q))) = true) ∧ (covered (queueAt s x.q) true (qCqBase (queueAt s x.q) + 32 * (queueAt s x.q).cqTail) 32 = true)) ∧
    (let s : State := { ready with fnt := { begun := true, state := 4, int := { on := true, key := toLe 32 1, v := toLe 16 2 } }, life := { state := 2 }, units := { arc := [(0, { kat := false, offline := false })] }, xing := { state := 3, sess := some { keyOut := toLe 32 5, keyIn := toLe 32 6, tx := 3, rx := 5 } } }; let e : Sess := { keyOut := toLe 32 5, keyIn := toLe 32 6, tx := 3, rx := 5 }; (s.xing.sess = some e) ∧ (xaliveOut s = true)) ∧
    (let s : State := { ready with fnt := { begun := true, state := 4, int := { on := true, key := toLe 32 1, v := toLe 16 2 } }, life := { state := 2 }, units := { arc := [(0, { kat := false, offline := false })] }, xing := { state := 3 } }; (xaliveOut s = false ∨ s.xing.sess = none)) ∧
    (let s : State := { ready with fnt := { begun := true, state := 4, int := { on := true, key := toLe 32 1, v := toLe 16 2 } }, life := { state := 2 }, units := { arc := [(0, { kat := false, offline := false })] }, xing := { state := 3, sess := some { keyOut := toLe 32 5, keyIn := toLe 32 6, tx := 3, rx := 5 }, link := true, seqr := true } }; (s.xing.link = true) ∧ (s.xing.state = 2 ∨ s.xing.state = 3) ∧ (s.xing.seqr = true)) ∧
    (let s : State := { ready with fnt := { begun := true, state := 4, int := { on := true, key := toLe 32 1, v := toLe 16 2 } }, life := { state := 2 }, units := { arc := [(0, { kat := false, offline := false })] }, xing := { state := 3, sess := some { keyOut := toLe 32 5, keyIn := toLe 32 6, tx := 3, rx := 5 }, link := true } }; (s.xing.link = true) ∧ (s.xing.state = 2 ∨ s.xing.state = 3) ∧ (s.xing.seqr = false)) ∧
    (let s : State := { ready with fnt := { begun := true, state := 4, int := { on := true, key := toLe 32 1, v := toLe 16 2 } }, life := { state := 2 }, units := { arc := [(0, { kat := false, offline := false })] }, xing := { state := 1, link := true } }; (s.xing.link = true) ∧ (s.xing.state ≠ 2) ∧ (s.xing.state ≠ 3)) ∧
    (let s : State := { ready with fnt := { begun := true, state := 4, int := { on := true, key := toLe 32 1, v := toLe 16 2 } }, life := { state := 2 }, units := { arc := [(0, { kat := false, offline := false })] }, xing := { state := 1 } }; (s.xing.link = false)) ∧
    (let s : State := { ready with fnt := { begun := true, state := 4, int := { on := true, key := toLe 32 1, v := toLe 16 2 } }, life := { state := 2 }, units := { arc := [(0, { kat := false, offline := false })] }, xing := { state := 3, deciding := true } }; let stopped : Bool := true; (s.xing.deciding = true)) ∧
    (let s : State := { ready with fnt := { begun := true, state := 4, int := { on := true, key := toLe 32 1, v := toLe 16 2 } }, life := { state := 2 }, units := { arc := [(0, { kat := false, offline := false })] }, xing := { state := 3 } }; let stopped : Bool := true; (s.xing.deciding = false)) ∧
    (let s : State := setQueue { ready with fnt := { begun := true, state := 4, int := { on := true, key := toLe 32 1, v := toLe 16 2 } }, life := { state := 2 }, units := { arc := [(0, { kat := false, offline := false })] }, xing := { state := 4, failing := [7] } } 7 { role := 2 }; (s.xing.failing ≠ [])) ∧
    (let s : State := { ready with fnt := { begun := true, state := 4, int := { on := true, key := toLe 32 1, v := toLe 16 2 } }, life := { state := 2 }, units := { arc := [(0, { kat := false, offline := false })] }, xing := {  } }; (s.xing.failing = [])) ∧
    (let s : State := { ready with fnt := { begun := true, state := 4, int := { on := true, key := toLe 32 1, v := toLe 16 2 } }, life := { state := 2 }, units := { arc := [(0, { kat := false, offline := false })] }, xing := { state := 3, sess := some { keyOut := toLe 32 5, keyIn := toLe 32 6, tx := 3, rx := 5 } } }; let n : BitVec 16 := 77; (s.xing.sess.isSome = true)) :=
  by and_intros <;> decide +kernel

/-- States and operands that meet the hypotheses of each clause of CrossingEffects_3: rttNot, local, primary, ignored. -/
theorem meets_CrossingEffects_3 :
    (let s : State := { ready with fnt := { begun := true, state := 4, int := { on := true, key := toLe 32 1, v := toLe 16 2 } }, life := { state := 2 }, units := { arc := [(0, { kat := false, offline := false })] }, xing := {  } }; let n : BitVec 16 := 77; (s.xing.sess = none)) ∧
    (let s : State := setReg (setQueue { ready with fnt := { begun := true, state := 4, int := { on := true, key := toLe 32 1, v := toLe 16 2 } }, life := { state := 2 }, units := { arc := [(0, { kat := false, offline := false })] }, xing := { state := 3, sess := some { keyOut := toLe 32 5, keyIn := toLe 32 6, tx := 3, rx := 5 } } } 7 { role := 1 }) Reg.XING_QSEL 7; let src : Src := .core 1; let v : BitVec 32 := 0; let d : Bool := true; (Reaches s src Reg.XING_QROLE) ∧ (wbits v 1 0 = 0)) ∧
    (let s : State := setReg (setQueue { ready with fnt := { begun := true, state := 4, int := { on := true, key := toLe 32 1, v := toLe 16 2 } }, life := { state := 2 }, units := { arc := [(0, { kat := false, offline := false })] }, xing := { state := 3, sess := some { keyOut := toLe 32 5, keyIn := toLe 32 6, tx := 3, rx := 5 } } } 7 {}) Reg.XING_QSEL 7; let src : Src := .core 1; let v : BitVec 32 := 1; (Reaches s src Reg.XING_QROLE) ∧ (wbits v 1 0 = 1) ∧ (paired s = true) ∧ ((queueAt s (fld s Reg.XING_QSEL 13 0)).state = .disabled)) ∧
    (let s : State := setReg (setQueue { ready with fnt := { begun := true, state := 4, int := { on := true, key := toLe 32 1, v := toLe 16 2 } }, life := { state := 2 }, units := { arc := [(0, { kat := false, offline := false })] }, xing := { state := 3, sess := some { keyOut := toLe 32 5, keyIn := toLe 32 6, tx := 3, rx := 5 } } } 7 {}) Reg.XING_QSEL 7; let src : Src := .core 1; let v : BitVec 32 := 1; let d : Bool := false; (Reaches s src Reg.XING_QROLE) ∧ (wbits v 1 0 ≠ 0) ∧ (wbits v 1 0 ≠ 1 ∨ paired s = false ∨ (queueAt s (fld s Reg.XING_QSEL 13 0)).state ≠ .disabled ∨ d = false) ∧ (rbit s (rk 0x48 Reg.ERR_SYND) 23 = false)) :=
  by and_intros <;> decide +kernel

/-- States and operands that meet the hypotheses of each clause of FleetEffects_1: found, foundDraws, foundStarts, foundWaits, foundNoUnit, foundRole, enrol, enrolDraws, enrolWaits, enrolNoUnit, enrolRole, admission, admissionDraws, admissionWaits. -/
theorem meets_FleetEffects_1 :
    (let s : State := setReg { ready with fnt := { begun := true, state := 4, int := { on := true, key := toLe 32 1, v := toLe 16 2 }, got := [(whoFleet, toLe 32 7), (whoRoot, toLe 32 9)] }, life := { state := 2 }, units := { arc := [(0, { kat := false, offline := false, internal := some whoFleet })] }, xing := {  } } Reg.FLEET_ID_LO 6; let src : Src := .port 0; let n : Nat := 0; let b : Bytes := toLe 32 7; let r : Bytes := toLe 32 9; (Reaches s src Reg.FLEET_CMD) ∧ (fleetBusy s = false) ∧ (twinState s = true) ∧ (s.fer.fleetRole = 0) ∧ (UnitReady s whoFleet n b) ∧ (drawn s whoRoot = some r)) ∧
    (let s : State := { ready with fnt := { begun := true, state := 4, int := { on := true, key := toLe 32 1, v := toLe 16 2 }, got := [(whoFleet, toLe 32 7)] }, life := { state := 2 }, units := { arc := [(0, { kat := false, offline := false, internal := some whoFleet })] }, xing := {  } }; let src : Src := .port 0; let n : Nat := 0; let b : Bytes := toLe 32 7; (Reaches s src Reg.FLEET_CMD) ∧ (fleetBusy s = false) ∧ (twinState s = true) ∧ (s.fer.fleetRole = 0) ∧ (UnitReady s whoFleet n b) ∧ (drawn s whoRoot = none) ∧ ((s.fnt.draws.any fun e => e.2 == whoRoot) = false)) ∧
    (let s : State := { ready with fnt := { begun := true, state := 4, int := { on := true, key := toLe 32 1, v := toLe 16 2 } }, life := { state := 2 }, units := { arc := [(0, { kat := false, offline := false })] }, xing := {  } }; let src : Src := .port 0; let n : Nat := 0; (Reaches s src Reg.FLEET_CMD) ∧ (fleetBusy s = false) ∧ (twinState s = true) ∧ (s.fer.fleetRole = 0) ∧ (UnitFree s whoFleet n)) ∧
    (let s : State := { ready with fnt := { begun := true, state := 4, int := { on := true, key := toLe 32 1, v := toLe 16 2 } }, life := { state := 2 }, units := { arc := [(0, { kat := false, offline := false, ctx := some 3 })] }, xing := {  } }; let src : Src := .port 0; let n : Nat := 0; (Reaches s src Reg.FLEET_CMD) ∧ (fleetBusy s = false) ∧ (twinState s = true) ∧ (s.fer.fleetRole = 0) ∧ (UnitBusy s whoFleet n)) ∧
    (let s : State := { ready with fnt := { begun := true, state := 4, int := { on := true, key := toLe 32 1, v := toLe 16 2 } }, life := { state := 2 }, units := { arc := (List.range 8).map fun n => (n, { offline := true, kat := false }) }, xing := {  } }; let src : Src := .port 0; (Reaches s src Reg.FLEET_CMD) ∧ (fleetBusy s = false) ∧ (twinState s = true) ∧ (s.fer.fleetRole = 0) ∧ (UnitNone s whoFleet)) ∧
    (let s : State := { ready with fnt := { begun := true, state := 4, int := { on := true, key := toLe 32 1, v := toLe 16 2 } }, life := { state := 2 }, units := { arc := [(0, { kat := false, offline := false })] }, xing := {  }, fer := { fleetRole := 1 } }; let src : Src := .port 0; (Reaches s src Reg.FLEET_CMD) ∧ (fleetBusy s = false) ∧ (twinState s = true) ∧ (s.fer.fleetRole ≠ 0)) ∧
    (let s : State := { ready with fnt := { begun := true, state := 4, int := { on := true, key := toLe 32 1, v := toLe 16 2 }, got := [(whoFleet, toLe 32 7)] }, life := { state := 2 }, units := { arc := [(0, { kat := false, offline := false, internal := some whoFleet })] }, xing := {  } }; let src : Src := .port 0; let v : Bytes := List.replicate 224 0; let b : Bytes := toLe 32 7; let n : Nat := 0; let fails : Nat := 1; (Reaches s src Reg.FLEET_CMD) ∧ (fleetBusy s = false) ∧ (twinState s = true) ∧ (s.fer.fleetRole = 0 ∨ (s.fer.fleetRole = 2 ∧ s.bak.fleetRoot = none)) ∧ (v = buf s 0 224) ∧ (UnitReady s whoFleet n b)) ∧
    (let s : State := { ready with fnt := { begun := true, state := 4, int := { on := true, key := toLe 32 1, v := toLe 16 2 } }, life := { state := 2 }, units := { arc := [(0, { kat := false, offline := false })] }, xing := {  } }; let src : Src := .port 0; let fails : Nat := 1; let n : Nat := 0; (Reaches s src Reg.FLEET_CMD) ∧ (fleetBusy s = false) ∧ (twinState s = true) ∧ (s.fer.fleetRole = 0 ∨ (s.fer.fleetRole = 2 ∧ s.bak.fleetRoot = none)) ∧ (UnitFree s whoFleet n)) ∧
    (let s : State := { ready with fnt := { begun := true, state := 4, int := { on := true, key := toLe 32 1, v := toLe 16 2 } }, life := { state := 2 }, units := { arc := [(0, { kat := false, offline := false, ctx := some 3 })] }, xing := {  } }; let src : Src := .port 0; let fails : Nat := 1; let n : Nat := 0; (Reaches s src Reg.FLEET_CMD) ∧ (fleetBusy s = false) ∧ (twinState s = true) ∧ (s.fer.fleetRole = 0 ∨ (s.fer.fleetRole = 2 ∧ s.bak.fleetRoot = none)) ∧ (UnitBusy s whoFleet n)) ∧
    (let s : State := { ready with fnt := { begun := true, state := 4, int := { on := true, key := toLe 32 1, v := toLe 16 2 } }, life := { state := 2 }, units := { arc := (List.range 8).map fun n => (n, { offline := true, kat := false }) }, xing := {  } }; let src : Src := .port 0; let fails : Nat := 1; (Reaches s src Reg.FLEET_CMD) ∧ (fleetBusy s = false) ∧ (twinState s = true) ∧ (s.fer.fleetRole = 0 ∨ (s.fer.fleetRole = 2 ∧ s.bak.fleetRoot = none)) ∧ (UnitNone s whoFleet)) ∧
    (let s : State := { ready with fnt := { begun := true, state := 4, int := { on := true, key := toLe 32 1, v := toLe 16 2 } }, life := { state := 2 }, units := { arc := [(0, { kat := false, offline := false })] }, xing := {  }, fer := { fleetRole := 1 } }; let src : Src := .port 0; let fails : Nat := 1; (Reaches s src Reg.FLEET_CMD) ∧ (fleetBusy s = false) ∧ (twinState s = true) ∧ (s.fer.fleetRole ≠ 0) ∧ (s.fer.fleetRole ≠ 2 ∨ s.bak.fleetRoot.isSome = true)) ∧
    (let s : State := { ready with fnt := { begun := true, state := 4, int := { on := true, key := toLe 32 1, v := toLe 16 2 }, got := [(whoFleet, toLe 32 7)] }, life := { state := 2 }, units := { arc := [(0, { kat := false, offline := false, internal := some whoFleet })] }, xing := {  }, bak := { vbat := true, fleetRoot := some (toLe 32 9) }, fer := { fleetRole := 1, fleetId := 6, wards := [(5, ⟨77, [1], 8⟩)] } }; let src : Src := .port 0; let v : Bytes := List.replicate 224 0; let q : Bytes := List.replicate 96 0; let b : Bytes := toLe 32 7; let n : Nat := 0; let fails : Nat := 1; (Reaches s src Reg.FLEET_CMD) ∧ (fleetBusy s = false) ∧ (twinState s = true) ∧ (s.fer.fleetRole = 1) ∧ (s.bak.fleetRoot.isSome = true) ∧ (v = buf s 0 224) ∧ (q = buf s 0xE0 96) ∧ (UnitReady s whoFleet n b)) ∧
    (let s : State := { ready with fnt := { begun := true, state := 4, int := { on := true, key := toLe 32 1, v := toLe 16 2 } }, life := { state := 2 }, units := { arc := [(0, { kat := false, offline := false })] }, xing := {  }, bak := { vbat := true, fleetRoot := some (toLe 32 9) }, fer := { fleetRole := 1, fleetId := 6, wards := [(5, ⟨77, [1], 8⟩)] } }; let src : Src := .port 0; let fails : Nat := 1; let n : Nat := 0; (Reaches s src Reg.FLEET_CMD) ∧ (fleetBusy s = false) ∧ (twinState s = true) ∧ (s.fer.fleetRole = 1) ∧ (s.bak.fleetRoot.isSome = true) ∧ (UnitFree s whoFleet n)) ∧
    (let s : State := { ready with fnt := { begun := true, state := 4, int := { on := true, key := toLe 32 1, v := toLe 16 2 } }, life := { state := 2 }, units := { arc := [(0, { kat := false, offline := false, ctx := some 3 })] }, xing := {  }, bak := { vbat := true, fleetRoot := some (toLe 32 9) }, fer := { fleetRole := 1, fleetId := 6, wards := [(5, ⟨77, [1], 8⟩)] } }; let src : Src := .port 0; let fails : Nat := 1; let n : Nat := 0; (Reaches s src Reg.FLEET_CMD) ∧ (fleetBusy s = false) ∧ (twinState s = true) ∧ (s.fer.fleetRole = 1) ∧ (s.bak.fleetRoot.isSome = true) ∧ (UnitBusy s whoFleet n)) :=
  by and_intros <;> decide +kernel

/-- States and operands that meet the hypotheses of each clause of FleetEffects_2: admissionNoUnit, admissionRole, make, makeDraws, makeWaits, makeNoUnit, makeRole, makeType, makeNoWard, makeKey, acceptTick, acceptDissolve, acceptKey, acceptWaits. -/
theorem meets_FleetEffects_2 :
    (let s : State := { ready with fnt := { begun := true, state := 4, int := { on := true, key := toLe 32 1, v := toLe 16 2 } }, life := { state := 2 }, units := { arc := (List.range 8).map fun n => (n, { offline := true, kat := false }) }, xing := {  }, bak := { vbat := true, fleetRoot := some (toLe 32 9) }, fer := { fleetRole := 1, fleetId := 6, wards := [(5, ⟨77, [1], 8⟩)] } }; let src : Src := .port 0; let fails : Nat := 1; (Reaches s src Reg.FLEET_CMD) ∧ (fleetBusy s = false) ∧ (twinState s = true) ∧ (s.fer.fleetRole = 1) ∧ (s.bak.fleetRoot.isSome = true) ∧ (UnitNone s whoFleet)) ∧
    (let s : State := { ready with fnt := { begun := true, state := 4, int := { on := true, key := toLe 32 1, v := toLe 16 2 } }, life := { state := 2 }, units := { arc := [(0, { kat := false, offline := false })] }, xing := {  } }; let src : Src := .port 0; let fails : Nat := 1; (Reaches s src Reg.FLEET_CMD) ∧ (fleetBusy s = false) ∧ (twinState s = true) ∧ (s.fer.fleetRole ≠ 1 ∨ s.bak.fleetRoot = none)) ∧
    (let s : State := setReg (setReg { ready with fnt := { begun := true, state := 4, int := { on := true, key := toLe 32 1, v := toLe 16 2 }, got := [(whoFleet, toLe 32 7)] }, life := { state := 2 }, units := { arc := [(0, { kat := false, offline := false, internal := some whoFleet })] }, xing := {  }, bak := { vbat := true, fleetRoot := some (toLe 32 9) }, fer := { fleetRole := 1, fleetId := 6, wards := [(5, ⟨77, [1], 8⟩)] } } Reg.FLEET_BUF 0x03000000) (Reg.FLEET_BUF + 4) 5; let src : Src := .port 0; let w : WardEnt := ⟨77, [1], 8⟩; let b : Bytes := toLe 32 7; let n : Nat := 0; (Reaches s src Reg.FLEET_CMD) ∧ (fleetBusy s = false) ∧ (twinState s = true) ∧ (s.fer.fleetRole = 1) ∧ (s.bak.fleetRoot.isSome = true) ∧ ((byteAt (buf s 3 1) 0) = 1 ∨ (byteAt (buf s 3 1) 0) = 2 ∨ (byteAt (buf s 3 1) 0) = 3) ∧ (tfind s.fer.wards (leAt (buf s 4 2) 0 2) = some w) ∧ (((byteAt (buf s 3 1) 0) = 1 → exportable s (reg s Reg.FLEET_HANDLE).toNat = true)) ∧ (UnitReady s whoFleet n b)) ∧
    (let s : State := setReg (setReg { ready with fnt := { begun := true, state := 4, int := { on := true, key := toLe 32 1, v := toLe 16 2 } }, life := { state := 2 }, units := { arc := [(0, { kat := false, offline := false })] }, xing := {  }, bak := { vbat := true, fleetRoot := some (toLe 32 9) }, fer := { fleetRole := 1, fleetId := 6, wards := [(5, ⟨77, [1], 8⟩)] } } Reg.FLEET_BUF 0x03000000) (Reg.FLEET_BUF + 4) 5; let src : Src := .port 0; let w : WardEnt := ⟨77, [1], 8⟩; let n : Nat := 0; (Reaches s src Reg.FLEET_CMD) ∧ (fleetBusy s = false) ∧ (twinState s = true) ∧ (s.fer.fleetRole = 1) ∧ (s.bak.fleetRoot.isSome = true) ∧ ((byteAt (buf s 3 1) 0) = 1 ∨ (byteAt (buf s 3 1) 0) = 2 ∨ (byteAt (buf s 3 1) 0) = 3) ∧ (tfind s.fer.wards (leAt (buf s 4 2) 0 2) = some w) ∧ (((byteAt (buf s 3 1) 0) = 1 → exportable s (reg s Reg.FLEET_HANDLE).toNat = true)) ∧ (UnitFree s whoFleet n)) ∧
    (let s : State := setReg (setReg { ready with fnt := { begun := true, state := 4, int := { on := true, key := toLe 32 1, v := toLe 16 2 } }, life := { state := 2 }, units := { arc := [(0, { kat := false, offline := false, ctx := some 3 })] }, xing := {  }, bak := { vbat := true, fleetRoot := some (toLe 32 9) }, fer := { fleetRole := 1, fleetId := 6, wards := [(5, ⟨77, [1], 8⟩)] } } Reg.FLEET_BUF 0x03000000) (Reg.FLEET_BUF + 4) 5; let src : Src := .port 0; let w : WardEnt := ⟨77, [1], 8⟩; let n : Nat := 0; (Reaches s src Reg.FLEET_CMD) ∧ (fleetBusy s = false) ∧ (twinState s = true) ∧ (s.fer.fleetRole = 1) ∧ (s.bak.fleetRoot.isSome = true) ∧ ((byteAt (buf s 3 1) 0) = 1 ∨ (byteAt (buf s 3 1) 0) = 2 ∨ (byteAt (buf s 3 1) 0) = 3) ∧ (tfind s.fer.wards (leAt (buf s 4 2) 0 2) = some w) ∧ (((byteAt (buf s 3 1) 0) = 1 → exportable s (reg s Reg.FLEET_HANDLE).toNat = true)) ∧ (UnitBusy s whoFleet n)) ∧
    (let s : State := setReg (setReg { ready with fnt := { begun := true, state := 4, int := { on := true, key := toLe 32 1, v := toLe 16 2 } }, life := { state := 2 }, units := { arc := (List.range 8).map fun n => (n, { offline := true, kat := false }) }, xing := {  }, bak := { vbat := true, fleetRoot := some (toLe 32 9) }, fer := { fleetRole := 1, fleetId := 6, wards := [(5, ⟨77, [1], 8⟩)] } } Reg.FLEET_BUF 0x03000000) (Reg.FLEET_BUF + 4) 5; let src : Src := .port 0; let w : WardEnt := ⟨77, [1], 8⟩; (Reaches s src Reg.FLEET_CMD) ∧ (fleetBusy s = false) ∧ (twinState s = true) ∧ (s.fer.fleetRole = 1) ∧ (s.bak.fleetRoot.isSome = true) ∧ ((byteAt (buf s 3 1) 0) = 1 ∨ (byteAt (buf s 3 1) 0) = 2 ∨ (byteAt (buf s 3 1) 0) = 3) ∧ (tfind s.fer.wards (leAt (buf s 4 2) 0 2) = some w) ∧ (((byteAt (buf s 3 1) 0) = 1 → exportable s (reg s Reg.FLEET_HANDLE).toNat = true)) ∧ (UnitNone s whoFleet)) ∧
    (let s : State := { ready with fnt := { begun := true, state := 4, int := { on := true, key := toLe 32 1, v := toLe 16 2 } }, life := { state := 2 }, units := { arc := [(0, { kat := false, offline := false })] }, xing := {  } }; let src : Src := .port 0; (Reaches s src Reg.FLEET_CMD) ∧ (fleetBusy s = false) ∧ (twinState s = true) ∧ (s.fer.fleetRole ≠ 1 ∨ s.bak.fleetRoot = none)) ∧
    (let s : State := setReg (setReg { ready with fnt := { begun := true, state := 4, int := { on := true, key := toLe 32 1, v := toLe 16 2 } }, life := { state := 2 }, units := { arc := [(0, { kat := false, offline := false })] }, xing := {  }, bak := { vbat := true, fleetRoot := some (toLe 32 9) }, fer := { fleetRole := 1, fleetId := 6, wards := [(5, ⟨77, [1], 8⟩)] } } Reg.FLEET_BUF 0x04000000) (Reg.FLEET_BUF + 4) 5; let src : Src := .port 0; (Reaches s src Reg.FLEET_CMD) ∧ (fleetBusy s = false) ∧ (twinState s = true) ∧ (s.fer.fleetRole = 1) ∧ (s.bak.fleetRoot.isSome = true) ∧ ((byteAt (buf s 3 1) 0) = 0 ∨ 3 < (byteAt (buf s 3 1) 0))) ∧
    (let s : State := setReg (setReg { ready with fnt := { begun := true, state := 4, int := { on := true, key := toLe 32 1, v := toLe 16 2 } }, life := { state := 2 }, units := { arc := [(0, { kat := false, offline := false })] }, xing := {  }, bak := { vbat := true, fleetRoot := some (toLe 32 9) }, fer := { fleetRole := 1, fleetId := 6, wards := [(5, ⟨77, [1], 8⟩)] } } Reg.FLEET_BUF 0x03000000) (Reg.FLEET_BUF + 4) 6; let src : Src := .port 0; (Reaches s src Reg.FLEET_CMD) ∧ (fleetBusy s = false) ∧ (twinState s = true) ∧ (s.fer.fleetRole = 1) ∧ (s.bak.fleetRoot.isSome = true) ∧ ((byteAt (buf s 3 1) 0) = 1 ∨ (byteAt (buf s 3 1) 0) = 2 ∨ (byteAt (buf s 3 1) 0) = 3) ∧ (tfind s.fer.wards (leAt (buf s 4 2) 0 2) = none)) ∧
    (let s : State := setReg (setReg { ready with fnt := { begun := true, state := 4, int := { on := true, key := toLe 32 1, v := toLe 16 2 } }, life := { state := 2 }, units := { arc := [(0, { kat := false, offline := false })] }, xing := {  }, bak := { vbat := true, fleetRoot := some (toLe 32 9) }, fer := { fleetRole := 1, fleetId := 6, wards := [(5, ⟨77, [1], 8⟩)] } } Reg.FLEET_BUF 0x01000000) (Reg.FLEET_BUF + 4) 5; let src : Src := .port 0; let w : WardEnt := ⟨77, [1], 8⟩; (Reaches s src Reg.FLEET_CMD) ∧ (fleetBusy s = false) ∧ (twinState s = true) ∧ (s.fer.fleetRole = 1) ∧ (s.bak.fleetRoot.isSome = true) ∧ ((byteAt (buf s 3 1) 0) = 1) ∧ (tfind s.fer.wards (leAt (buf s 4 2) 0 2) = some w) ∧ (exportable s (reg s Reg.FLEET_HANDLE).toNat = false)) ∧
    (let s : State := setReg (bufPut ({ ready with fnt := { begun := true, state := 4, int := { on := true, key := toLe 32 1, v := toLe 16 2 } }, life := { state := 2 }, units := { arc := [(0, { kat := false, offline := false })] }, xing := {  }, bak := { vbat := true, fleetRoot := some (toLe 32 9) }, fer := { fleetRole := 2, fleetId := 6, voucher := List.replicate 24 0 ++ [5, 0] ++ List.replicate 200 0, lastSeq := 3 } }) Reg.FLEET_BUF 0 (parcelHead 2 5 (parcelLen 2 3) 6 0 4 (2 ^ 40) 0 (epochExp ready) 0)) Reg.CT_CFG (reg ready Reg.CT_CFG ||| 0x100); let src : Src := .port 0; let p : Parcel := parcelAt (setReg (bufPut ({ ready with fnt := { begun := true, state := 4, int := { on := true, key := toLe 32 1, v := toLe 16 2 } }, life := { state := 2 }, units := { arc := [(0, { kat := false, offline := false })] }, xing := {  }, bak := { vbat := true, fleetRoot := some (toLe 32 9) }, fer := { fleetRole := 2, fleetId := 6, voucher := List.replicate 24 0 ++ [5, 0] ++ List.replicate 200 0, lastSeq := 3 } }) Reg.FLEET_BUF 0 (parcelHead 2 5 (parcelLen 2 3) 6 0 4 (2 ^ 40) 0 (epochExp ready) 0)) Reg.CT_CFG (reg ready Reg.CT_CFG ||| 0x100)); let fails : Nat := 1; let n : Nat := 0; (Reaches s src Reg.FLEET_CMD) ∧ (fleetBusy s = false) ∧ (twinState s = true) ∧ (s.fer.fleetRole = 2) ∧ (s.bak.fleetRoot.isSome = true) ∧ (p = parcelAt s) ∧ (parcelFormat s p = true) ∧ (p.type = 2) ∧ (arcPick s = some n) ∧ (arcIdle s n = true)) ∧
    (let s : State := bufPut ({ ready with fnt := { begun := true, state := 4, int := { on := true, key := toLe 32 1, v := toLe 16 2 } }, life := { state := 2 }, units := { arc := [(0, { kat := false, offline := false })] }, xing := {  }, bak := { vbat := true, fleetRoot := some (toLe 32 9) }, fer := { fleetRole := 2, fleetId := 6, voucher := List.replicate 24 0 ++ [5, 0] ++ List.replicate 200 0, lastSeq := 3 } }) Reg.FLEET_BUF 0 (parcelHead 3 5 (parcelLen 3 3) 6 0 4 0 0 (epochExp ready) 0); let src : Src := .port 0; let p : Parcel := parcelAt (bufPut ({ ready with fnt := { begun := true, state := 4, int := { on := true, key := toLe 32 1, v := toLe 16 2 } }, life := { state := 2 }, units := { arc := [(0, { kat := false, offline := false })] }, xing := {  }, bak := { vbat := true, fleetRoot := some (toLe 32 9) }, fer := { fleetRole := 2, fleetId := 6, voucher := List.replicate 24 0 ++ [5, 0] ++ List.replicate 200 0, lastSeq := 3 } }) Reg.FLEET_BUF 0 (parcelHead 3 5 (parcelLen 3 3) 6 0 4 0 0 (epochExp ready) 0)); let fails : Nat := 1; let n : Nat := 0; (Reaches s src Reg.FLEET_CMD) ∧ (fleetBusy s = false) ∧ (twinState s = true) ∧ (s.fer.fleetRole = 2) ∧ (s.bak.fleetRoot.isSome = true) ∧ (p = parcelAt s) ∧ (parcelFormat s p = true) ∧ (p.type = 3) ∧ (arcPick s = some n) ∧ (arcIdle s n = true)) ∧
    (let s : State := bufPut ({ ready with fnt := { begun := true, state := 4, int := { on := true, key := toLe 32 1, v := toLe 16 2 } }, life := { state := 2 }, units := { arc := [(0, { kat := false, offline := false })] }, xing := {  }, bak := { vbat := true, fleetRoot := some (toLe 32 9) }, fer := { fleetRole := 2, fleetId := 6, voucher := List.replicate 24 0 ++ [5, 0] ++ List.replicate 200 0, lastSeq := 3 } }) Reg.FLEET_BUF 0 (parcelHead 1 5 (parcelLen 1 3) 6 0 4 0 3 (epochExp ready) 32); let src : Src := .port 0; let p : Parcel := parcelAt (bufPut ({ ready with fnt := { begun := true, state := 4, int := { on := true, key := toLe 32 1, v := toLe 16 2 } }, life := { state := 2 }, units := { arc := [(0, { kat := false, offline := false })] }, xing := {  }, bak := { vbat := true, fleetRoot := some (toLe 32 9) }, fer := { fleetRole := 2, fleetId := 6, voucher := List.replicate 24 0 ++ [5, 0] ++ List.replicate 200 0, lastSeq := 3 } }) Reg.FLEET_BUF 0 (parcelHead 1 5 (parcelLen 1 3) 6 0 4 0 3 (epochExp ready) 32)); let fails : Nat := 1; let n : Nat := 0; (Reaches s src Reg.FLEET_CMD) ∧ (fleetBusy s = false) ∧ (twinState s = true) ∧ (s.fer.fleetRole = 2) ∧ (s.bak.fleetRoot.isSome = true) ∧ (p = parcelAt s) ∧ (parcelFormat s p = true) ∧ (p.type = 1) ∧ (arcPick s = some n) ∧ (arcIdle s n = true)) ∧
    (let s : State := bufPut ({ ready with fnt := { begun := true, state := 4, int := { on := true, key := toLe 32 1, v := toLe 16 2 } }, life := { state := 2 }, units := { arc := [(0, { kat := false, offline := false, ctx := some 3 })] }, xing := {  }, bak := { vbat := true, fleetRoot := some (toLe 32 9) }, fer := { fleetRole := 2, fleetId := 6, voucher := List.replicate 24 0 ++ [5, 0] ++ List.replicate 200 0, lastSeq := 3 } }) Reg.FLEET_BUF 0 (parcelHead 3 5 (parcelLen 3 3) 6 0 4 0 0 (epochExp ready) 0); let src : Src := .port 0; let p : Parcel := parcelAt (bufPut ({ ready with fnt := { begun := true, state := 4, int := { on := true, key := toLe 32 1, v := toLe 16 2 } }, life := { state := 2 }, units := { arc := [(0, { kat := false, offline := false, ctx := some 3 })] }, xing := {  }, bak := { vbat := true, fleetRoot := some (toLe 32 9) }, fer := { fleetRole := 2, fleetId := 6, voucher := List.replicate 24 0 ++ [5, 0] ++ List.replicate 200 0, lastSeq := 3 } }) Reg.FLEET_BUF 0 (parcelHead 3 5 (parcelLen 3 3) 6 0 4 0 0 (epochExp ready) 0)); let fails : Nat := 1; let n : Nat := 0; (Reaches s src Reg.FLEET_CMD) ∧ (fleetBusy s = false) ∧ (twinState s = true) ∧ (s.fer.fleetRole = 2) ∧ (s.bak.fleetRoot.isSome = true) ∧ (p = parcelAt s) ∧ (parcelFormat s p = true) ∧ (arcPick s = some n) ∧ (arcIdle s n = false)) :=
  by and_intros <;> decide +kernel

/-- States and operands that meet the hypotheses of each clause of FleetEffects_3: acceptNoUnit, acceptFormat, acceptRole, retire, retireNot, dissolve, dissolveForwarded, dissolveFails, foundNotNow, foundBusy, enrolNotNow, enrolBusy, fleetAdmitNotNow, fleetAdmitBusy. -/
theorem meets_FleetEffects_3 :
    (let s : State := bufPut ({ ready with fnt := { begun := true, state := 4, int := { on := true, key := toLe 32 1, v := toLe 16 2 } }, life := { state := 2 }, units := { arc := (List.range 8).map fun n => (n, { offline := true, kat := false }) }, xing := {  }, bak := { vbat := true, fleetRoot := some (toLe 32 9) }, fer := { fleetRole := 2, fleetId := 6, voucher := List.replicate 24 0 ++ [5, 0] ++ List.replicate 200 0, lastSeq := 3 } }) Reg.FLEET_BUF 0 (parcelHead 3 5 (parcelLen 3 3) 6 0 4 0 0 (epochExp ready) 0); let src : Src := .port 0; let p : Parcel := parcelAt (bufPut ({ ready with fnt := { begun := true, state := 4, int := { on := true, key := toLe 32 1, v := toLe 16 2 } }, life := { state := 2 }, units := { arc := (List.range 8).map fun n => (n, { offline := true, kat := false }) }, xing := {  }, bak := { vbat := true, fleetRoot := some (toLe 32 9) }, fer := { fleetRole := 2, fleetId := 6, voucher := List.replicate 24 0 ++ [5, 0] ++ List.replicate 200 0, lastSeq := 3 } }) Reg.FLEET_BUF 0 (parcelHead 3 5 (parcelLen 3 3) 6 0 4 0 0 (epochExp ready) 0)); let fails : Nat := 1; (Reaches s src Reg.FLEET_CMD) ∧ (fleetBusy s = false) ∧ (twinState s = true) ∧ (s.fer.fleetRole = 2) ∧ (s.bak.fleetRoot.isSome = true) ∧ (p = parcelAt s) ∧ (parcelFormat s p = true) ∧ (arcPick s = none)) ∧
    (let s : State := { ready with fnt := { begun := true, state := 4, int := { on := true, key := toLe 32 1, v := toLe 16 2 } }, life := { state := 2 }, units := { arc := [(0, { kat := false, offline := false })] }, xing := {  }, bak := { vbat := true, fleetRoot := some (toLe 32 9) }, fer := { fleetRole := 2, fleetId := 6, voucher := List.replicate 24 0 ++ [5, 0] ++ List.replicate 200 0, lastSeq := 3 } }; let src : Src := .port 0; let p : Parcel := parcelAt ({ ready with fnt := { begun := true, state := 4, int := { on := true, key := toLe 32 1, v := toLe 16 2 } }, life := { state := 2 }, units := { arc := [(0, { kat := false, offline := false })] }, xing := {  }, bak := { vbat := true, fleetRoot := some (toLe 32 9) }, fer := { fleetRole := 2, fleetId := 6, voucher := List.replicate 24 0 ++ [5, 0] ++ List.replicate 200 0, lastSeq := 3 } }); let fails : Nat := 1; (Reaches s src Reg.FLEET_CMD) ∧ (fleetBusy s = false) ∧ (twinState s = true) ∧ (s.fer.fleetRole = 2) ∧ (s.bak.fleetRoot.isSome = true) ∧ (p = parcelAt s) ∧ (parcelFormat s p = false)) ∧
    (let s : State := { ready with fnt := { begun := true, state := 4, int := { on := true, key := toLe 32 1, v := toLe 16 2 } }, life := { state := 2 }, units := { arc := [(0, { kat := false, offline := false })] }, xing := {  } }; let src : Src := .port 0; let fails : Nat := 1; (Reaches s src Reg.FLEET_CMD) ∧ (fleetBusy s = false) ∧ (twinState s = true) ∧ (s.fer.fleetRole ≠ 2 ∨ s.bak.fleetRoot = none)) ∧
    (let s : State := setReg { ready with fnt := { begun := true, state := 4, int := { on := true, key := toLe 32 1, v := toLe 16 2 } }, life := { state := 2 }, units := { arc := [(0, { kat := false, offline := false })] }, xing := {  }, bak := { vbat := true, fleetRoot := some (toLe 32 9) }, fer := { fleetRole := 1, fleetId := 6, wards := [(5, ⟨77, [1], 8⟩)] } } Reg.FLEET_WARD_SEL 5; let src : Src := .port 0; let fails : Nat := 1; (Reaches s src Reg.FLEET_CMD) ∧ (fleetBusy s = false) ∧ (twinState s = true) ∧ (s.fer.fleetRole = 1) ∧ (fails < 3)) ∧
    (let s : State := { ready with fnt := { begun := true, state := 4, int := { on := true, key := toLe 32 1, v := toLe 16 2 } }, life := { state := 2 }, units := { arc := [(0, { kat := false, offline := false })] }, xing := {  } }; let src : Src := .port 0; let fails : Nat := 1; (Reaches s src Reg.FLEET_CMD) ∧ (fleetBusy s = false) ∧ (twinState s = true) ∧ (s.fer.fleetRole ≠ 1 ∨ 3 ≤ fails)) ∧
    (let s : State := { ready with fnt := { begun := true, state := 4, int := { on := true, key := toLe 32 1, v := toLe 16 2 } }, life := { state := 2 }, units := { arc := [(0, { kat := false, offline := false })] }, xing := {  }, bak := { vbat := true, fleetRoot := some (toLe 32 9) }, fer := { fleetRole := 1, fleetId := 6, wards := [(5, ⟨77, [1], 8⟩)] } }; let src : Src := .port 0; let fails : Nat := 2; (Reaches s src Reg.FLEET_CMD) ∧ (fleetBusy s = false) ∧ (twinState s = true) ∧ (fails < 3) ∧ (s.fer.fleetRole ≠ 1 ∨ paired s = false ∨ s.xing.seqr = true)) ∧
    (let s : State := { ready with fnt := { begun := true, state := 4, int := { on := true, key := toLe 32 1, v := toLe 16 2 } }, life := { state := 2 }, units := { arc := [(0, { kat := false, offline := false })] }, xing := { state := 3 }, bak := { vbat := true, fleetRoot := some (toLe 32 9) }, fer := { fleetRole := 1, fleetId := 6, wards := [(5, ⟨77, [1], 8⟩)] } }; let src : Src := .port 0; let fails : Nat := 2; (Reaches s src Reg.FLEET_CMD) ∧ (fleetBusy s = false) ∧ (twinState s = true) ∧ (fails < 3) ∧ (s.fer.fleetRole = 1) ∧ (paired s = true) ∧ (s.xing.seqr = false)) ∧
    (let s : State := { ready with fnt := { begun := true, state := 4, int := { on := true, key := toLe 32 1, v := toLe 16 2 } }, life := { state := 2 }, units := { arc := [(0, { kat := false, offline := false })] }, xing := {  }, bak := { vbat := true, fleetRoot := some (toLe 32 9) }, fer := { fleetRole := 1, fleetId := 6, wards := [(5, ⟨77, [1], 8⟩)] } }; let src : Src := .port 0; let fails : Nat := 3; (Reaches s src Reg.FLEET_CMD) ∧ (fleetBusy s = false) ∧ (twinState s = true) ∧ (3 ≤ fails)) ∧
    (let s : State := { ready with life := { state := 5 } }; let src : Src := .port 0; (Reaches s src Reg.FLEET_CMD) ∧ (fleetBusy s = false) ∧ (twinState s = false)) ∧
    (let s : State := { ready with fleet := { held := some .make } }; let src : Src := .port 0; (Reaches s src Reg.FLEET_CMD) ∧ (fleetBusy s = true) ∧ (rbit s (rk 0x49 Reg.ERR_SYND) 23 = false)) ∧
    (let s : State := { ready with life := { state := 5 } }; let src : Src := .port 0; let fails : Nat := 1; (Reaches s src Reg.FLEET_CMD) ∧ (fleetBusy s = false) ∧ (twinState s = false)) ∧
    (let s : State := { ready with fleet := { held := some .make } }; let src : Src := .port 0; let fails : Nat := 1; (Reaches s src Reg.FLEET_CMD) ∧ (fleetBusy s = true) ∧ (rbit s (rk 0x49 Reg.ERR_SYND) 23 = false)) ∧
    (let s : State := { ready with life := { state := 5 } }; let src : Src := .port 0; let fails : Nat := 1; (Reaches s src Reg.FLEET_CMD) ∧ (fleetBusy s = false) ∧ (twinState s = false)) ∧
    (let s : State := { ready with fleet := { held := some .make } }; let src : Src := .port 0; let fails : Nat := 1; (Reaches s src Reg.FLEET_CMD) ∧ (fleetBusy s = true) ∧ (rbit s (rk 0x49 Reg.ERR_SYND) 23 = false)) :=
  by and_intros <;> decide +kernel

/-- States and operands that meet the hypotheses of each clause of FleetEffects_4: makeNotNow, makeBusy, acceptNotNow, acceptBusy, retireWardNotNow, retireWardBusy, dissolveNotNow, dissolveBusy. -/
theorem meets_FleetEffects_4 :
    (let s : State := { ready with life := { state := 5 } }; let src : Src := .port 0; (Reaches s src Reg.FLEET_CMD) ∧ (fleetBusy s = false) ∧ (twinState s = false)) ∧
    (let s : State := { ready with fleet := { held := some .make } }; let src : Src := .port 0; (Reaches s src Reg.FLEET_CMD) ∧ (fleetBusy s = true) ∧ (rbit s (rk 0x49 Reg.ERR_SYND) 23 = false)) ∧
    (let s : State := { ready with life := { state := 5 } }; let src : Src := .port 0; let fails : Nat := 1; (Reaches s src Reg.FLEET_CMD) ∧ (fleetBusy s = false) ∧ (twinState s = false)) ∧
    (let s : State := { ready with fleet := { held := some .make } }; let src : Src := .port 0; let fails : Nat := 1; (Reaches s src Reg.FLEET_CMD) ∧ (fleetBusy s = true) ∧ (rbit s (rk 0x49 Reg.ERR_SYND) 23 = false)) ∧
    (let s : State := { ready with life := { state := 5 } }; let src : Src := .port 0; let fails : Nat := 1; (Reaches s src Reg.FLEET_CMD) ∧ (fleetBusy s = false) ∧ (twinState s = false)) ∧
    (let s : State := { ready with fleet := { held := some .make } }; let src : Src := .port 0; let fails : Nat := 1; (Reaches s src Reg.FLEET_CMD) ∧ (fleetBusy s = true) ∧ (rbit s (rk 0x49 Reg.ERR_SYND) 23 = false)) ∧
    (let s : State := { ready with life := { state := 5 } }; let src : Src := .port 0; let fails : Nat := 1; (Reaches s src Reg.FLEET_CMD) ∧ (fleetBusy s = false) ∧ (twinState s = false)) ∧
    (let s : State := { ready with fleet := { held := some .make } }; let src : Src := .port 0; let fails : Nat := 1; (Reaches s src Reg.FLEET_CMD) ∧ (fleetBusy s = true) ∧ (rbit s (rk 0x49 Reg.ERR_SYND) 23 = false)) :=
  by and_intros <;> decide +kernel

/-- States and operands that meet the hypotheses of each clause of DepotEffects_1: initialise, read, readTunes, readOutside, readBeyond, write, writeTunes, writeOutside, writeBeyond, segment, segmentTunes, segmentOutside, segmentBeyond, rawSilent. -/
theorem meets_DepotEffects_1 :
    (let s : State := setReg (setReg ({ ready with sd := { rca := 9 } }) Reg.DEPOT_STAT 0x47) Reg.DEPOT_CAP 0x100; let src : Src := .port 0; (Reaches s src Reg.DEPOT_CMD) ∧ (depotBusy s = false) ∧ (s.kerb.lockdown = false) ∧ (sdPresent s = true)) ∧
    (let s : State := setReg (setReg (setReg (setReg (setReg (setReg ({ ready with sd := {  } }) Reg.DEPOT_STAT 0x47) Reg.DEPOT_CAP 0x100) Reg.DEPOT_BUF 0x1000200) Reg.DEPOT_XFER 0x18003) Reg.DEPOT_LBA 77) Reg.DEPOT_JBASE 9; let src : Src := .port 0; (Reaches s src Reg.DEPOT_CMD) ∧ (depotBusy s = false) ∧ (s.kerb.lockdown = false) ∧ (sdPresent s = true) ∧ (sdReady s = true) ∧ (sramBase ≤ (xferOp s .read).buf) ∧ ((xferOp s .read).buf + 512 * (xferOp s .read).count ≤ sramEnd) ∧ ((xferOp s .read).lba + (xferOp s .read).count ≤ fld s Reg.DEPOT_CAP 22 0 * 1024) ∧ (s.sd.retune = false)) ∧
    (let s : State := setReg (setReg (setReg (setReg (setReg (setReg ({ ready with sd := { retune := true } }) Reg.DEPOT_STAT 0x47) Reg.DEPOT_CAP 0x100) Reg.DEPOT_BUF 0x1000200) Reg.DEPOT_XFER 0x18003) Reg.DEPOT_LBA 77) Reg.DEPOT_JBASE 9; let src : Src := .port 0; (Reaches s src Reg.DEPOT_CMD) ∧ (depotBusy s = false) ∧ (s.kerb.lockdown = false) ∧ (sdPresent s = true) ∧ (sdReady s = true) ∧ (sramBase ≤ (xferOp s .read).buf) ∧ ((xferOp s .read).buf + 512 * (xferOp s .read).count ≤ sramEnd) ∧ ((xferOp s .read).lba + (xferOp s .read).count ≤ fld s Reg.DEPOT_CAP 22 0 * 1024) ∧ (s.sd.retune = true)) ∧
    (let s : State := setReg (setReg ({ ready with sd := {  } }) Reg.DEPOT_STAT 0x47) Reg.DEPOT_CAP 0x100; let src : Src := .port 0; (Reaches s src Reg.DEPOT_CMD) ∧ (depotBusy s = false) ∧ (s.kerb.lockdown = false) ∧ (sdPresent s = true) ∧ (sdReady s = true) ∧ ((xferOp s .read).buf < sramBase ∨ sramEnd < (xferOp s .read).buf + 512 * (xferOp s .read).count)) ∧
    (let s : State := setReg (setReg (setReg (setReg (setReg (setReg ({ ready with sd := {  } }) Reg.DEPOT_STAT 0x47) Reg.DEPOT_CAP 0x100) Reg.DEPOT_BUF 0x1000200) Reg.DEPOT_XFER 0x18003) Reg.DEPOT_LBA 0x3FFFF) Reg.DEPOT_CAP 0x10; let src : Src := .port 0; (Reaches s src Reg.DEPOT_CMD) ∧ (depotBusy s = false) ∧ (s.kerb.lockdown = false) ∧ (sdPresent s = true) ∧ (sdReady s = true) ∧ (sramBase ≤ (xferOp s .read).buf) ∧ ((xferOp s .read).buf + 512 * (xferOp s .read).count ≤ sramEnd) ∧ (fld s Reg.DEPOT_CAP 22 0 * 1024 < (xferOp s .read).lba + (xferOp s .read).count)) ∧
    (let s : State := setReg (setReg (setReg (setReg (setReg (setReg ({ ready with sd := {  } }) Reg.DEPOT_STAT 0x47) Reg.DEPOT_CAP 0x100) Reg.DEPOT_BUF 0x1000200) Reg.DEPOT_XFER 0x18003) Reg.DEPOT_LBA 77) Reg.DEPOT_JBASE 9; let src : Src := .port 0; (Reaches s src Reg.DEPOT_CMD) ∧ (depotBusy s = false) ∧ (s.kerb.lockdown = false) ∧ (sdPresent s = true) ∧ (sdReady s = true) ∧ (sramBase ≤ (xferOp s .write).buf) ∧ ((xferOp s .write).buf + 512 * (xferOp s .write).count ≤ sramEnd) ∧ ((xferOp s .write).lba + (xferOp s .write).count ≤ fld s Reg.DEPOT_CAP 22 0 * 1024) ∧ (s.sd.retune = false)) ∧
    (let s : State := setReg (setReg (setReg (setReg (setReg (setReg ({ ready with sd := { retune := true } }) Reg.DEPOT_STAT 0x47) Reg.DEPOT_CAP 0x100) Reg.DEPOT_BUF 0x1000200) Reg.DEPOT_XFER 0x18003) Reg.DEPOT_LBA 77) Reg.DEPOT_JBASE 9; let src : Src := .port 0; (Reaches s src Reg.DEPOT_CMD) ∧ (depotBusy s = false) ∧ (s.kerb.lockdown = false) ∧ (sdPresent s = true) ∧ (sdReady s = true) ∧ (sramBase ≤ (xferOp s .write).buf) ∧ ((xferOp s .write).buf + 512 * (xferOp s .write).count ≤ sramEnd) ∧ ((xferOp s .write).lba + (xferOp s .write).count ≤ fld s Reg.DEPOT_CAP 22 0 * 1024) ∧ (s.sd.retune = true)) ∧
    (let s : State := setReg (setReg ({ ready with sd := {  } }) Reg.DEPOT_STAT 0x47) Reg.DEPOT_CAP 0x100; let src : Src := .port 0; (Reaches s src Reg.DEPOT_CMD) ∧ (depotBusy s = false) ∧ (s.kerb.lockdown = false) ∧ (sdPresent s = true) ∧ (sdReady s = true) ∧ ((xferOp s .write).buf < sramBase ∨ sramEnd < (xferOp s .write).buf + 512 * (xferOp s .write).count)) ∧
    (let s : State := setReg (setReg (setReg (setReg (setReg (setReg ({ ready with sd := {  } }) Reg.DEPOT_STAT 0x47) Reg.DEPOT_CAP 0x100) Reg.DEPOT_BUF 0x1000200) Reg.DEPOT_XFER 0x18003) Reg.DEPOT_LBA 0x3FFFF) Reg.DEPOT_CAP 0x10; let src : Src := .port 0; (Reaches s src Reg.DEPOT_CMD) ∧ (depotBusy s = false) ∧ (s.kerb.lockdown = false) ∧ (sdPresent s = true) ∧ (sdReady s = true) ∧ (sramBase ≤ (xferOp s .write).buf) ∧ ((xferOp s .write).buf + 512 * (xferOp s .write).count ≤ sramEnd) ∧ (fld s Reg.DEPOT_CAP 22 0 * 1024 < (xferOp s .write).lba + (xferOp s .write).count)) ∧
    (let s : State := setReg (setReg (setReg (setReg (setReg (setReg ({ ready with sd := {  } }) Reg.DEPOT_STAT 0x47) Reg.DEPOT_CAP 0x100) Reg.DEPOT_BUF 0x1000200) Reg.DEPOT_XFER 0x18003) Reg.DEPOT_LBA 77) Reg.DEPOT_JBASE 9; let src : Src := .port 0; (Reaches s src Reg.DEPOT_CMD) ∧ (depotBusy s = false) ∧ (s.kerb.lockdown = false) ∧ (sdPresent s = true) ∧ (sdReady s = true) ∧ (sramBase ≤ (xferOp s .seg).buf) ∧ ((xferOp s .seg).buf + 512 * (xferOp s .seg).count ≤ sramEnd) ∧ ((xferOp s .seg).lba + (xferOp s .seg).count ≤ fld s Reg.DEPOT_CAP 22 0 * 1024) ∧ ((reg s Reg.DEPOT_JBASE).toNat + fld s Reg.DEPOT_XFER 31 15 < fld s Reg.DEPOT_CAP 22 0 * 1024) ∧ (s.sd.retune = false)) ∧
    (let s : State := setReg (setReg (setReg (setReg (setReg (setReg ({ ready with sd := { retune := true } }) Reg.DEPOT_STAT 0x47) Reg.DEPOT_CAP 0x100) Reg.DEPOT_BUF 0x1000200) Reg.DEPOT_XFER 0x18003) Reg.DEPOT_LBA 77) Reg.DEPOT_JBASE 9; let src : Src := .port 0; (Reaches s src Reg.DEPOT_CMD) ∧ (depotBusy s = false) ∧ (s.kerb.lockdown = false) ∧ (sdPresent s = true) ∧ (sdReady s = true) ∧ (sramBase ≤ (xferOp s .seg).buf) ∧ ((xferOp s .seg).buf + 512 * (xferOp s .seg).count ≤ sramEnd) ∧ ((xferOp s .seg).lba + (xferOp s .seg).count ≤ fld s Reg.DEPOT_CAP 22 0 * 1024) ∧ ((reg s Reg.DEPOT_JBASE).toNat + fld s Reg.DEPOT_XFER 31 15 < fld s Reg.DEPOT_CAP 22 0 * 1024) ∧ (s.sd.retune = true)) ∧
    (let s : State := setReg (setReg ({ ready with sd := {  } }) Reg.DEPOT_STAT 0x47) Reg.DEPOT_CAP 0x100; let src : Src := .port 0; (Reaches s src Reg.DEPOT_CMD) ∧ (depotBusy s = false) ∧ (s.kerb.lockdown = false) ∧ (sdPresent s = true) ∧ (sdReady s = true) ∧ ((xferOp s .seg).buf < sramBase ∨ sramEnd < (xferOp s .seg).buf + 512 * (xferOp s .seg).count)) ∧
    (let s : State := setReg (setReg (setReg (setReg (setReg (setReg ({ ready with sd := {  } }) Reg.DEPOT_STAT 0x47) Reg.DEPOT_CAP 0x100) Reg.DEPOT_BUF 0x1000200) Reg.DEPOT_XFER 0x18003) Reg.DEPOT_LBA 0x3FFFF) Reg.DEPOT_CAP 0x10; let src : Src := .port 0; (Reaches s src Reg.DEPOT_CMD) ∧ (depotBusy s = false) ∧ (s.kerb.lockdown = false) ∧ (sdPresent s = true) ∧ (sdReady s = true) ∧ (sramBase ≤ (xferOp s .seg).buf) ∧ ((xferOp s .seg).buf + 512 * (xferOp s .seg).count ≤ sramEnd) ∧ (fld s Reg.DEPOT_CAP 22 0 * 1024 < (xferOp s .seg).lba + (xferOp s .seg).count ∨ fld s Reg.DEPOT_CAP 22 0 * 1024 ≤ (reg s Reg.DEPOT_JBASE).toNat + fld s Reg.DEPOT_XFER 31 15)) ∧
    (let s : State := setReg (setReg (setReg ({ ready with sd := {  } }) Reg.DEPOT_STAT 0x47) Reg.DEPOT_CAP 0x100) Reg.DEPOT_RAW 4; let src : Src := .core 1; (Reaches s src Reg.DEPOT_CMD) ∧ (depotBusy s = false) ∧ (s.kerb.lockdown = false) ∧ (sdPresent s = true) ∧ (sdReady s = true) ∧ ((fld s Reg.DEPOT_RAW 5 0) ∉ [17, 18, 19, 24, 25]) ∧ (fld s Reg.DEPOT_RAW 7 6 = 0) ∧ (s.sd.retune = false)) :=
  by and_intros <;> decide +kernel

/-- States and operands that meet the hypotheses of each clause of DepotEffects_2: raw, rawTunes, rawData, powerOff, abort, abortIdle, depotInitBusy, depotInitLockdown, depotInitNoCard, depotReadBusy, depotReadLockdown, depotReadNoCard, depotReadNotReady, depotWriteBusy. -/
theorem meets_DepotEffects_2 :
    (let s : State := setReg (setReg (setReg ({ ready with sd := {  } }) Reg.DEPOT_STAT 0x47) Reg.DEPOT_CAP 0x100) Reg.DEPOT_RAW 0x4D; let src : Src := .core 1; (Reaches s src Reg.DEPOT_CMD) ∧ (depotBusy s = false) ∧ (s.kerb.lockdown = false) ∧ (sdPresent s = true) ∧ (sdReady s = true) ∧ ((fld s Reg.DEPOT_RAW 5 0) ∉ [17, 18, 19, 24, 25]) ∧ (fld s Reg.DEPOT_RAW 7 6 ≠ 0) ∧ (s.sd.retune = false)) ∧
    (let s : State := setReg (setReg (setReg ({ ready with sd := { retune := true } }) Reg.DEPOT_STAT 0x47) Reg.DEPOT_CAP 0x100) Reg.DEPOT_RAW 0x4D; let src : Src := .core 1; (Reaches s src Reg.DEPOT_CMD) ∧ (depotBusy s = false) ∧ (s.kerb.lockdown = false) ∧ (sdPresent s = true) ∧ (sdReady s = true) ∧ ((fld s Reg.DEPOT_RAW 5 0) ∉ [17, 18, 19, 24, 25]) ∧ (s.sd.retune = true)) ∧
    (let s : State := setReg (setReg (setReg ({ ready with sd := {  } }) Reg.DEPOT_STAT 0x47) Reg.DEPOT_CAP 0x100) Reg.DEPOT_RAW 17; let src : Src := .core 1; (Reaches s src Reg.DEPOT_CMD) ∧ (depotBusy s = false) ∧ (s.kerb.lockdown = false) ∧ (sdPresent s = true) ∧ (sdReady s = true) ∧ ((fld s Reg.DEPOT_RAW 5 0) ∈ [17, 18, 19, 24, 25])) ∧
    (let s : State := setReg (setReg ({ ready with sd := {  } }) Reg.DEPOT_STAT 0x47) Reg.DEPOT_CAP 0x100; let src : Src := .core 1; (Reaches s src Reg.DEPOT_CMD) ∧ (depotBusy s = false)) ∧
    (let s : State := setReg (setReg ({ ready with sd := { op := some { kind := .read } } }) Reg.DEPOT_STAT 0x47) Reg.DEPOT_CAP 0x100; let src : Src := .core 1; let o : SdOp := { kind := .read }; (Reaches s src Reg.DEPOT_CMD) ∧ (s.sd.op = some o) ∧ (o.kind ≠ .image)) ∧
    (let s : State := setReg (setReg ({ ready with sd := {  } }) Reg.DEPOT_STAT 0x47) Reg.DEPOT_CAP 0x100; let src : Src := .core 1; (Reaches s src Reg.DEPOT_CMD) ∧ (depotBusy s = false) ∧ (s.kerb.lockdown = false) ∧ (sdPresent s = true) ∧ (sdReady s = true)) ∧
    (let s : State := setReg (setReg ({ ready with sd := { op := some { kind := .read } } }) Reg.DEPOT_STAT 0x47) Reg.DEPOT_CAP 0x100; let src : Src := .port 0; (Reaches s src Reg.DEPOT_CMD) ∧ (depotBusy s = true) ∧ (rbit s (rk 0x4C Reg.ERR_SYND) 23 = false)) ∧
    (let s : State := setReg (setReg ({ ready with sd := {  }, kerb := { lockdown := true } }) Reg.DEPOT_STAT 0x47) Reg.DEPOT_CAP 0x100; let src : Src := .port 0; (Reaches s src Reg.DEPOT_CMD) ∧ (depotBusy s = false) ∧ (s.kerb.lockdown = true)) ∧
    (let s : State := ready; let src : Src := .port 0; (Reaches s src Reg.DEPOT_CMD) ∧ (depotBusy s = false) ∧ (s.kerb.lockdown = false) ∧ (sdPresent s = false)) ∧
    (let s : State := setReg (setReg ({ ready with sd := { op := some { kind := .read } } }) Reg.DEPOT_STAT 0x47) Reg.DEPOT_CAP 0x100; let src : Src := .port 0; (Reaches s src Reg.DEPOT_CMD) ∧ (depotBusy s = true) ∧ (rbit s (rk 0x4C Reg.ERR_SYND) 23 = false)) ∧
    (let s : State := setReg (setReg ({ ready with sd := {  }, kerb := { lockdown := true } }) Reg.DEPOT_STAT 0x47) Reg.DEPOT_CAP 0x100; let src : Src := .port 0; (Reaches s src Reg.DEPOT_CMD) ∧ (depotBusy s = false) ∧ (s.kerb.lockdown = true)) ∧
    (let s : State := ready; let src : Src := .port 0; (Reaches s src Reg.DEPOT_CMD) ∧ (depotBusy s = false) ∧ (s.kerb.lockdown = false) ∧ (sdPresent s = false)) ∧
    (let s : State := setReg (setReg ({ ready with sd := {  } }) Reg.DEPOT_STAT 0x41) Reg.DEPOT_CAP 0x100; let src : Src := .port 0; (Reaches s src Reg.DEPOT_CMD) ∧ (depotBusy s = false) ∧ (s.kerb.lockdown = false) ∧ (sdPresent s = true) ∧ (sdReady s = false)) ∧
    (let s : State := setReg (setReg ({ ready with sd := { op := some { kind := .read } } }) Reg.DEPOT_STAT 0x47) Reg.DEPOT_CAP 0x100; let src : Src := .port 0; (Reaches s src Reg.DEPOT_CMD) ∧ (depotBusy s = true) ∧ (rbit s (rk 0x4C Reg.ERR_SYND) 23 = false)) :=
  by and_intros <;> decide +kernel

/-- States and operands that meet the hypotheses of each clause of DepotEffects_3: depotWriteLockdown, depotWriteNoCard, depotWriteNotReady, segWriteBusy, segWriteLockdown, segWriteNoCard, segWriteNotReady, depotRawBusy, depotRawLockdown, depotRawNoCard, depotRawNotReady, powerOffBusy, depotAbortLockdown, depotAbortNoCard. -/
theorem meets_DepotEffects_3 :
    (let s : State := setReg (setReg ({ ready with sd := {  }, kerb := { lockdown := true } }) Reg.DEPOT_STAT 0x47) Reg.DEPOT_CAP 0x100; let src : Src := .port 0; (Reaches s src Reg.DEPOT_CMD) ∧ (depotBusy s = false) ∧ (s.kerb.lockdown = true)) ∧
    (let s : State := ready; let src : Src := .port 0; (Reaches s src Reg.DEPOT_CMD) ∧ (depotBusy s = false) ∧ (s.kerb.lockdown = false) ∧ (sdPresent s = false)) ∧
    (let s : State := setReg (setReg ({ ready with sd := {  } }) Reg.DEPOT_STAT 0x41) Reg.DEPOT_CAP 0x100; let src : Src := .port 0; (Reaches s src Reg.DEPOT_CMD) ∧ (depotBusy s = false) ∧ (s.kerb.lockdown = false) ∧ (sdPresent s = true) ∧ (sdReady s = false)) ∧
    (let s : State := setReg (setReg ({ ready with sd := { op := some { kind := .read } } }) Reg.DEPOT_STAT 0x47) Reg.DEPOT_CAP 0x100; let src : Src := .port 0; (Reaches s src Reg.DEPOT_CMD) ∧ (depotBusy s = true) ∧ (rbit s (rk 0x4C Reg.ERR_SYND) 23 = false)) ∧
    (let s : State := setReg (setReg ({ ready with sd := {  }, kerb := { lockdown := true } }) Reg.DEPOT_STAT 0x47) Reg.DEPOT_CAP 0x100; let src : Src := .port 0; (Reaches s src Reg.DEPOT_CMD) ∧ (depotBusy s = false) ∧ (s.kerb.lockdown = true)) ∧
    (let s : State := ready; let src : Src := .port 0; (Reaches s src Reg.DEPOT_CMD) ∧ (depotBusy s = false) ∧ (s.kerb.lockdown = false) ∧ (sdPresent s = false)) ∧
    (let s : State := setReg (setReg ({ ready with sd := {  } }) Reg.DEPOT_STAT 0x41) Reg.DEPOT_CAP 0x100; let src : Src := .port 0; (Reaches s src Reg.DEPOT_CMD) ∧ (depotBusy s = false) ∧ (s.kerb.lockdown = false) ∧ (sdPresent s = true) ∧ (sdReady s = false)) ∧
    (let s : State := setReg (setReg ({ ready with sd := { op := some { kind := .read } } }) Reg.DEPOT_STAT 0x47) Reg.DEPOT_CAP 0x100; let src : Src := .port 0; (Reaches s src Reg.DEPOT_CMD) ∧ (depotBusy s = true) ∧ (rbit s (rk 0x4C Reg.ERR_SYND) 23 = false)) ∧
    (let s : State := setReg (setReg ({ ready with sd := {  }, kerb := { lockdown := true } }) Reg.DEPOT_STAT 0x47) Reg.DEPOT_CAP 0x100; let src : Src := .port 0; (Reaches s src Reg.DEPOT_CMD) ∧ (depotBusy s = false) ∧ (s.kerb.lockdown = true)) ∧
    (let s : State := ready; let src : Src := .port 0; (Reaches s src Reg.DEPOT_CMD) ∧ (depotBusy s = false) ∧ (s.kerb.lockdown = false) ∧ (sdPresent s = false)) ∧
    (let s : State := setReg (setReg ({ ready with sd := {  } }) Reg.DEPOT_STAT 0x41) Reg.DEPOT_CAP 0x100; let src : Src := .port 0; (Reaches s src Reg.DEPOT_CMD) ∧ (depotBusy s = false) ∧ (s.kerb.lockdown = false) ∧ (sdPresent s = true) ∧ (sdReady s = false)) ∧
    (let s : State := setReg (setReg ({ ready with sd := { op := some { kind := .read } } }) Reg.DEPOT_STAT 0x47) Reg.DEPOT_CAP 0x100; let src : Src := .port 0; (Reaches s src Reg.DEPOT_CMD) ∧ (depotBusy s = true) ∧ (rbit s (rk 0x4C Reg.ERR_SYND) 23 = false)) ∧
    (let s : State := setReg (setReg ({ ready with sd := {  }, kerb := { lockdown := true } }) Reg.DEPOT_STAT 0x47) Reg.DEPOT_CAP 0x100; let src : Src := .port 0; (Reaches s src Reg.DEPOT_CMD) ∧ (depotBusy s = false) ∧ (s.kerb.lockdown = true)) ∧
    (let s : State := ready; let src : Src := .port 0; (Reaches s src Reg.DEPOT_CMD) ∧ (depotBusy s = false) ∧ (s.kerb.lockdown = false) ∧ (sdPresent s = false)) :=
  by and_intros <;> decide +kernel

/-- States and operands that meet the hypotheses of each clause of DepotEffects_4: depotAbortNotReady, initIf, initAgain, initOther, initCid, initRca, initCsd, initSelect, initBusy, initVolt, initWide, initQuery, initDone, initTune. -/
theorem meets_DepotEffects_4 :
    (let s : State := setReg (setReg ({ ready with sd := {  } }) Reg.DEPOT_STAT 0x41) Reg.DEPOT_CAP 0x100; let src : Src := .port 0; (Reaches s src Reg.DEPOT_CMD) ∧ (depotBusy s = false) ∧ (s.kerb.lockdown = false) ∧ (sdPresent s = true) ∧ (sdReady s = false)) ∧
    (let s : State := setReg (setReg ({ ready with sd := { op := some { kind := .start, idx := 8 }, rca := 7 } }) Reg.DEPOT_STAT 0x41) Reg.DEPOT_CAP 0x100; let b : BitVec 128 := 0x1AA; let way : Passage := {}; let o : SdOp := { kind := .start, idx := 8 }; (s.sd.op = some o) ∧ (o.wait = .resp) ∧ (o.kind = .start) ∧ (o.idx = 8) ∧ (o.abort = false) ∧ (NoCardLoad s)) ∧
    (let s : State := setReg (setReg ({ ready with sd := { op := some { kind := .start, idx := 41 }, rca := 7 } }) Reg.DEPOT_STAT 0x41) Reg.DEPOT_CAP 0x100; let b : BitVec 128 := 0; let way : Passage := {}; let o : SdOp := { kind := .start, idx := 41 }; let crc : Bool := false; (s.sd.op = some o) ∧ (o.wait = .resp) ∧ (o.kind = .start) ∧ (o.idx = 41) ∧ (o.abort = false) ∧ (b.toNat.testBit 31 = false) ∧ (NoCardLoad s)) ∧
    (let s : State := setReg (setReg ({ ready with sd := { op := some { kind := .start, idx := 41 }, rca := 7 } }) Reg.DEPOT_STAT 0x41) Reg.DEPOT_CAP 0x100; let b : BitVec 128 := 0x80000000; let way : Passage := {}; let o : SdOp := { kind := .start, idx := 41 }; let crc : Bool := false; (s.sd.op = some o) ∧ (o.wait = .resp) ∧ (o.kind = .start) ∧ (o.idx = 41) ∧ (o.abort = false) ∧ (b.toNat.testBit 31 = true) ∧ (b.toNat.testBit 30 = false ∨ b.toNat.testBit 27 = true) ∧ (o.auto = false) ∧ (NoCardLoad s)) ∧
    (let s : State := setReg (setReg ({ ready with sd := { op := some { kind := .start, idx := 41 }, rca := 7 } }) Reg.DEPOT_STAT 0x41) Reg.DEPOT_CAP 0x100; let b : BitVec 128 := 0xC1000000; let way : Passage := {}; let o : SdOp := { kind := .start, idx := 41 }; let crc : Bool := false; (s.sd.op = some o) ∧ (o.wait = .resp) ∧ (o.kind = .start) ∧ (o.idx = 41) ∧ (o.abort = false) ∧ (b.toNat.testBit 31 = true) ∧ (b.toNat.testBit 30 = true) ∧ (b.toNat.testBit 27 = false) ∧ (NoCardLoad s)) ∧
    (let s : State := setReg (setReg ({ ready with sd := { op := some { kind := .start, idx := 2 }, rca := 7 } }) Reg.DEPOT_STAT 0x41) Reg.DEPOT_CAP 0x100; let b : BitVec 128 := 5; let way : Passage := {}; let o : SdOp := { kind := .start, idx := 2 }; (s.sd.op = some o) ∧ (o.wait = .resp) ∧ (o.kind = .start) ∧ (o.idx = 2) ∧ (o.abort = false) ∧ (NoCardLoad s)) ∧
    (let s : State := setReg (setReg ({ ready with sd := { op := some { kind := .start, idx := 3 }, rca := 7 } }) Reg.DEPOT_STAT 0x41) Reg.DEPOT_CAP 0x100; let b : BitVec 128 := 0x12340000; let way : Passage := {}; let o : SdOp := { kind := .start, idx := 3 }; (s.sd.op = some o) ∧ (o.wait = .resp) ∧ (o.kind = .start) ∧ (o.idx = 3) ∧ (o.abort = false) ∧ (NoCardLoad s)) ∧
    (let s : State := setReg (setReg ({ ready with sd := { op := some { kind := .start, idx := 9 }, rca := 7 } }) Reg.DEPOT_STAT 0x41) Reg.DEPOT_CAP 0x100; let b : BitVec 128 := 0x5900000000; let way : Passage := {}; let o : SdOp := { kind := .start, idx := 9 }; (s.sd.op = some o) ∧ (o.wait = .resp) ∧ (o.kind = .start) ∧ (o.idx = 9) ∧ (o.abort = false) ∧ (NoCardLoad s)) ∧
    (let s : State := setReg (setReg ({ ready with sd := { op := some { kind := .start, idx := 7 }, rca := 7 } }) Reg.DEPOT_STAT 0x41) Reg.DEPOT_CAP 0x100; let b : BitVec 128 := 0x900; let way : Passage := {}; let o : SdOp := { kind := .start, idx := 7 }; (s.sd.op = some o) ∧ (o.wait = .resp) ∧ (o.kind = .start) ∧ (o.idx = 7) ∧ (o.abort = false) ∧ (NoCardLoad s)) ∧
    (let s : State := setReg (setReg ({ ready with sd := { op := some { kind := .start, idx := 11 }, rca := 7 } }) Reg.DEPOT_STAT 0x41) Reg.DEPOT_CAP 0x100; let b : BitVec 128 := 0x900; let way : Passage := {}; let o : SdOp := { kind := .start, idx := 11 }; (s.sd.op = some o) ∧ (o.wait = .resp) ∧ (o.kind = .start) ∧ (o.idx = 11) ∧ (o.abort = false) ∧ (NoCardLoad s)) ∧
    (let s : State := setReg (setReg ({ ready with sd := { op := some { kind := .start, idx := 6 }, rca := 7 } }) Reg.DEPOT_STAT 0x41) Reg.DEPOT_CAP 0x100; let b : BitVec 128 := 0x900; let way : Passage := {}; let o : SdOp := { kind := .start, idx := 6 }; (s.sd.op = some o) ∧ (o.wait = .resp) ∧ (o.kind = .start) ∧ (o.idx = 6) ∧ (o.abort = false) ∧ (o.step = 0) ∧ (NoCardLoad s)) ∧
    (let s : State := setReg (setReg ({ ready with sd := { op := some { kind := .start, idx := 6, step := 1 }, rca := 7 } }) Reg.DEPOT_STAT 0x41) Reg.DEPOT_CAP 0x100; let b : BitVec 128 := 0x900; let way : Passage := {}; let o : SdOp := { kind := .start, idx := 6, step := 1 }; (s.sd.op = some o) ∧ (o.wait = .resp) ∧ (o.kind = .start) ∧ (o.idx = 6) ∧ (o.abort = false) ∧ (o.step = 1) ∧ (NoCardLoad s)) ∧
    (let s : State := setReg (setReg ({ ready with sd := { op := some { kind := .start, idx := 6, step := 2, cap := 77 }, rca := 7 } }) Reg.DEPOT_STAT 0x41) Reg.DEPOT_CAP 0x100; let b : BitVec 128 := 0x900; let way : Passage := {}; let o : SdOp := { kind := .start, idx := 6, step := 2, cap := 77 }; (s.sd.op = some o) ∧ (o.wait = .resp) ∧ (o.kind = .start) ∧ (o.idx = 6) ∧ (o.abort = false) ∧ (o.step = 2) ∧ (tuned (sdMode s) = false) ∧ (o.auto = false) ∧ (NoCardLoad s)) ∧
    (let s : State := setReg (setReg ({ ready with sd := { op := some { kind := .start, idx := 6, step := 2 }, rca := 7 } }) Reg.DEPOT_STAT 0x75) Reg.DEPOT_CAP 0x100; let b : BitVec 128 := 0x900; let way : Passage := {}; let o : SdOp := { kind := .start, idx := 6, step := 2 }; (s.sd.op = some o) ∧ (o.wait = .resp) ∧ (o.kind = .start) ∧ (o.idx = 6) ∧ (o.abort = false) ∧ (o.step = 2) ∧ (tuned (sdMode s) = true) ∧ (NoCardLoad s)) :=
  by and_intros <;> decide +kernel

/-- States and operands that meet the hypotheses of each clause of DepotEffects_5: initVolts, modes, response, sends, sendsSegment, sendsRecord, stopped, rawEnds, rawBusy, resend, fallBack, cmdError, versionOne, lost. -/
theorem meets_DepotEffects_5 :
    (let s : State := setReg (setReg ({ ready with sd := { op := some { kind := .start, wait := .busy, idx := 7, s18 := true } } }) Reg.DEPOT_STAT 0x41) Reg.DEPOT_CAP 0x100; let o : SdOp := { kind := .start, wait := .busy, idx := 7, s18 := true }; (s.sd.op = some o) ∧ (o.wait = .busy) ∧ (o.kind = .start) ∧ (o.abort = false) ∧ (NoCardLoad s)) ∧
    (let s : State := setReg (setReg ({ ready with sd := { op := some { kind := .start, wait := .data, step := 1 } } }) Reg.DEPOT_STAT 0x41) Reg.DEPOT_CAP 0x100; let m : BitVec 8 := 0x7F; let o : SdOp := { kind := .start, wait := .data, step := 1 }; (s.sd.op = some o) ∧ (o.wait = .data) ∧ (o.kind = .start) ∧ (o.abort = false) ∧ (NoCardLoad s)) ∧
    (let s : State := setReg (setReg ({ ready with sd := { op := some { kind := .read, wait := .resp, buf := 0x1000200, count := 4, run := 4, idx := 18 }, timeouts := 1 } }) Reg.DEPOT_STAT 0x47) Reg.DEPOT_CAP 0x100; let b : BitVec 128 := 0x900; let way : Passage := {}; let o : SdOp := { kind := .read, wait := .resp, buf := 0x1000200, count := 4, run := 4, idx := 18 }; (s.sd.op = some o) ∧ (o.wait = .resp) ∧ (o.kind ≠ .start) ∧ (o.kind ≠ .raw) ∧ (o.idx ≠ 12) ∧ (sdReads o = true) ∧ (NoCardLoad s)) ∧
    (let s : State := setReg (setReg ({ ready with sd := { op := some { kind := .write, wait := .resp, buf := 0x1000200, count := 4, run := 4, idx := 25 }, clk := true } }) Reg.DEPOT_STAT 0x47) Reg.DEPOT_CAP 0x100; let b : BitVec 128 := 0x900; let way : Passage := {}; let o : SdOp := { kind := .write, wait := .resp, buf := 0x1000200, count := 4, run := 4, idx := 25 }; (s.sd.op = some o) ∧ (o.wait = .resp) ∧ (o.kind = .write) ∧ (o.idx ≠ 12) ∧ (way.hit = none) ∧ (way.uncorr = none) ∧ (damagedAt s (o.buf + 512 * (o.off + o.got)) 512 = none) ∧ (sdRecord o = false) ∧ (NoCardLoad s)) ∧
    (let s : State := setReg (setReg ({ ready with sd := { op := some { kind := .seg, wait := .resp, buf := 0x1000200, count := 4, run := 4, idx := 25, step := 1 }, clk := true } }) Reg.DEPOT_STAT 0x47) Reg.DEPOT_CAP 0x100; let b : BitVec 128 := 0x900; let way : Passage := {}; let o : SdOp := { kind := .seg, wait := .resp, buf := 0x1000200, count := 4, run := 4, idx := 25, step := 1 }; (s.sd.op = some o) ∧ (o.wait = .resp) ∧ (o.kind = .seg) ∧ (sdReads o = false) ∧ (o.idx ≠ 12) ∧ (way.hit = none) ∧ (way.uncorr = none) ∧ (damagedAt s (o.buf + 512 * (o.off + o.got)) 512 = none) ∧ (sdRecord o = false) ∧ (NoCardLoad s)) ∧
    (let s : State := setReg (setReg ({ ready with sd := { op := some { kind := .seg, wait := .resp, count := 4, run := 1, idx := 24, step := 3, sent := [1, 2] }, clk := true } }) Reg.DEPOT_STAT 0x47) Reg.DEPOT_CAP 0x100; let b : BitVec 128 := 0x900; let way : Passage := {}; let o : SdOp := { kind := .seg, wait := .resp, count := 4, run := 1, idx := 24, step := 3, sent := [1, 2] }; (s.sd.op = some o) ∧ (o.wait = .resp) ∧ (sdReads o = false) ∧ (sdRecord o = true) ∧ (o.idx ≠ 12) ∧ (NoCardLoad s)) ∧
    (let s : State := setReg (setReg ({ ready with sd := { op := some { kind := .read, wait := .resp, buf := 0x1000200, count := 4, run := 4, idx := 12 } } }) Reg.DEPOT_STAT 0x47) Reg.DEPOT_CAP 0x100; let b : BitVec 128 := 0x900; let way : Passage := {}; let o : SdOp := { kind := .read, wait := .resp, buf := 0x1000200, count := 4, run := 4, idx := 12 }; (s.sd.op = some o) ∧ (o.wait = .resp) ∧ (o.kind ≠ .start) ∧ (o.kind ≠ .raw) ∧ (o.idx = 12) ∧ (NoCardLoad s)) ∧
    (let s : State := setReg (setReg ({ ready with sd := { op := some { kind := .raw, wait := .resp, idx := 13, rtype := 1 } } }) Reg.DEPOT_STAT 0x47) Reg.DEPOT_CAP 0x100; let b : BitVec 128 := 0x900; let way : Passage := {}; let o : SdOp := { kind := .raw, wait := .resp, idx := 13, rtype := 1 }; (s.sd.op = some o) ∧ (o.wait = .resp) ∧ (o.kind = .raw) ∧ (o.rtype ≠ 3) ∧ (o.auto = false) ∧ (NoCardLoad s)) ∧
    (let s : State := setReg (setReg ({ ready with sd := { op := some { kind := .raw, wait := .resp, idx := 13, rtype := 3 } } }) Reg.DEPOT_STAT 0x47) Reg.DEPOT_CAP 0x100; let b : BitVec 128 := 0x900; let way : Passage := {}; let o : SdOp := { kind := .raw, wait := .resp, idx := 13, rtype := 3 }; (s.sd.op = some o) ∧ (o.wait = .resp) ∧ (o.kind = .raw) ∧ (o.rtype = 3) ∧ (NoCardLoad s)) ∧
    (let s : State := setReg (setReg ({ ready with sd := { op := some { kind := .raw, wait := .resp, idx := 13, rtype := 1 } } }) Reg.DEPOT_STAT 0x47) Reg.DEPOT_CAP 0x100; let timeout : Bool := true; let o : SdOp := { kind := .raw, wait := .resp, idx := 13, rtype := 1 }; (s.sd.op = some o) ∧ (o.wait = .resp) ∧ (o.kind ≠ .start) ∧ (o.cfails = 0) ∧ (¬ (timeout = true ∧ 2 ≤ s.sd.timeouts)) ∧ (NoCardLoad s)) ∧
    (let s : State := setReg (setReg ({ ready with sd := { op := some { kind := .raw, wait := .resp, idx := 13, cfails := 1, rtype := 1 } } }) Reg.DEPOT_STAT 0x67) Reg.DEPOT_CAP 0x100; let timeout : Bool := false; let o : SdOp := { kind := .raw, wait := .resp, idx := 13, cfails := 1, rtype := 1 }; (s.sd.op = some o) ∧ (o.wait = .resp) ∧ (o.kind = .raw) ∧ (o.rtype ≠ 0) ∧ (o.cfails ≠ 0) ∧ (domOn s 23 = true) ∧ (¬ (timeout = true ∧ 2 ≤ s.sd.timeouts)) ∧ (NoCardLoad s) ∧ (sdMode s ∉ [0, 1, 3]) ∧ (tuned (sdMode s - 1) = false) ∧ (sdMode s < 8)) ∧
    (let s : State := setReg (setReg ({ ready with sd := { op := some { kind := .raw, wait := .resp, idx := 13, cfails := 1, rtype := 1 } } }) Reg.DEPOT_STAT 0x4F) Reg.DEPOT_CAP 0x100; let timeout : Bool := false; let o : SdOp := { kind := .raw, wait := .resp, idx := 13, cfails := 1, rtype := 1 }; (s.sd.op = some o) ∧ (o.wait = .resp) ∧ (o.cfails ≠ 0) ∧ (¬ (timeout = true ∧ 2 ≤ s.sd.timeouts)) ∧ (sdMode s ∈ [0, 1, 3]) ∧ (o.auto = false) ∧ (o.kind ≠ .image) ∧ (o.kind = .start → o.idx = 8 ∨ o.idx = 41 → timeout = false ∧ o.idx = 8) ∧ (NoCardLoad s)) ∧
    (let s : State := setReg (setReg ({ ready with sd := { op := some { kind := .start, idx := 8, arg := 0x1AA, cfails := 1 }, timeouts := 1 } }) Reg.DEPOT_STAT 0x41) Reg.DEPOT_CAP 0x100; let o : SdOp := { kind := .start, idx := 8, arg := 0x1AA, cfails := 1 }; (s.sd.op = some o) ∧ (o.wait = .resp) ∧ (o.kind = .start) ∧ (o.idx = 8) ∧ (o.cfails ≠ 0) ∧ (s.sd.timeouts < 2) ∧ (NoCardLoad s)) ∧
    (let s : State := setReg (setReg ({ ready with sd := { op := some { kind := .raw, wait := .resp, idx := 13, rtype := 1 }, timeouts := 2 } }) Reg.DEPOT_STAT 0x47) Reg.DEPOT_CAP 0x100; let o : SdOp := { kind := .raw, wait := .resp, idx := 13, rtype := 1 }; (s.sd.op = some o) ∧ (o.wait = .resp) ∧ (2 ≤ s.sd.timeouts) ∧ (o.auto = false) ∧ (o.kind ≠ .image) ∧ (NoCardLoad s)) :=
  by and_intros <;> decide +kernel

/-- States and operands that meet the hypotheses of each clause of DepotEffects_6: responseNot, block, lastBlock, oneBlock, badBlock, badOne, dataError, runAgain, runFails, accepted, acceptedLast, refusedBlock, refusedOne, damagedWord. -/
theorem meets_DepotEffects_6 :
    (let s : State := setReg (setReg ({ ready with sd := {  } }) Reg.DEPOT_STAT 0x47) Reg.DEPOT_CAP 0x100; let r : SdResp := .timeout; ((s.sd.op.any fun o => o.wait == .resp) = false) ∧ (NoCardLoad s)) ∧
    (let s : State := setReg (setReg ({ ready with sd := { op := some { kind := .read, wait := .data, buf := 0x1000200, count := 4, run := 4, got := 1, idx := 18 } } }) Reg.DEPOT_STAT 0x47) Reg.DEPOT_CAP 0x100; let b : Bytes := toLe 40 7; let full : Bool := true; let o : SdOp := { kind := .read, wait := .data, buf := 0x1000200, count := 4, run := 4, got := 1, idx := 18 }; (s.sd.op = some o) ∧ (o.wait = .data) ∧ (o.kind = .read) ∧ (o.cut = false) ∧ (o.got + 1 < o.run) ∧ (NoCardLoad s)) ∧
    (let s : State := setReg (setReg ({ ready with sd := { op := some { kind := .read, wait := .data, buf := 0x1000200, count := 4, run := 4, got := 3, idx := 18 } } }) Reg.DEPOT_STAT 0x47) Reg.DEPOT_CAP 0x100; let b : Bytes := toLe 40 7; let full : Bool := false; let o : SdOp := { kind := .read, wait := .data, buf := 0x1000200, count := 4, run := 4, got := 3, idx := 18 }; (s.sd.op = some o) ∧ (o.wait = .data) ∧ (o.kind = .read) ∧ (o.cut = false) ∧ (o.got + 1 = o.run) ∧ (1 < o.run) ∧ (NoCardLoad s)) ∧
    (let s : State := setReg (setReg ({ ready with sd := { op := some { kind := .read, wait := .data, buf := 0x1000200, count := 1, run := 1, idx := 18 } } }) Reg.DEPOT_STAT 0x47) Reg.DEPOT_CAP 0x100; let b : Bytes := toLe 40 7; let full : Bool := false; let o : SdOp := { kind := .read, wait := .data, buf := 0x1000200, count := 1, run := 1, idx := 18 }; (s.sd.op = some o) ∧ (o.wait = .data) ∧ (o.kind = .read) ∧ (o.cut = false) ∧ (o.got = 0) ∧ (o.run = 1) ∧ (o.count ≤ o.off + 1) ∧ (o.abort = false) ∧ (o.auto = false) ∧ (NoCardLoad s)) ∧
    (let s : State := setReg (setReg ({ ready with sd := { op := some { kind := .read, wait := .data, buf := 0x1000200, count := 4, run := 4, got := 1, idx := 18 } } }) Reg.DEPOT_STAT 0x47) Reg.DEPOT_CAP 0x100; let b : Bytes := []; let full : Bool := false; let o : SdOp := { kind := .read, wait := .data, buf := 0x1000200, count := 4, run := 4, got := 1, idx := 18 }; (s.sd.op = some o) ∧ (o.wait = .data) ∧ (o.kind = .read ∨ o.kind = .seg) ∧ (sdReads o = true) ∧ (1 < o.run) ∧ (NoCardLoad s)) ∧
    (let s : State := setReg (setReg ({ ready with sd := { op := some { kind := .read, wait := .data, buf := 0x1000200, count := 1, run := 1, idx := 18 } } }) Reg.DEPOT_STAT 0x47) Reg.DEPOT_CAP 0x100; let b : Bytes := []; let full : Bool := false; let o : SdOp := { kind := .read, wait := .data, buf := 0x1000200, count := 1, run := 1, idx := 18 }; (s.sd.op = some o) ∧ (o.wait = .data) ∧ (o.kind = .read ∨ o.kind = .seg) ∧ (sdReads o = true) ∧ (o.run ≤ 1) ∧ (o.fails = 0) ∧ (tuned (sdMode s) = false) ∧ (NoCardLoad s)) ∧
    (let s : State := setReg (setReg ({ ready with sd := { op := some { kind := .read, wait := .data, buf := 0x1000200, count := 1, run := 1, fails := 1, idx := 18 } } }) Reg.DEPOT_STAT 0x4F) Reg.DEPOT_CAP 0x100; let b : Bytes := []; let full : Bool := false; let o : SdOp := { kind := .read, wait := .data, buf := 0x1000200, count := 1, run := 1, fails := 1, idx := 18 }; (s.sd.op = some o) ∧ (o.wait = .data) ∧ (o.kind = .read ∨ o.kind = .seg) ∧ (sdReads o = true) ∧ (o.run ≤ 1) ∧ (o.fails ≠ 0) ∧ (sdMode s ∈ [0, 1, 3]) ∧ (o.auto = false) ∧ (NoCardLoad s)) ∧
    (let s : State := setReg (setReg ({ ready with sd := { op := some { kind := .read, wait := .busy, buf := 0x1000200, count := 4, run := 4, got := 1, idx := 12, redo := true } } }) Reg.DEPOT_STAT 0x47) Reg.DEPOT_CAP 0x100; let o : SdOp := { kind := .read, wait := .busy, buf := 0x1000200, count := 4, run := 4, got := 1, idx := 12, redo := true }; (s.sd.op = some o) ∧ (o.wait = .busy) ∧ (o.kind = .read ∨ o.kind = .write ∨ o.kind = .seg) ∧ (o.redo = true) ∧ (o.fails = 0) ∧ (tuned (sdMode s) = false) ∧ (NoCardLoad s)) ∧
    (let s : State := setReg (setReg ({ ready with sd := { op := some { kind := .read, wait := .busy, buf := 0x1000200, count := 4, run := 4, got := 1, idx := 12, fails := 1, redo := true } } }) Reg.DEPOT_STAT 0x4F) Reg.DEPOT_CAP 0x100; let o : SdOp := { kind := .read, wait := .busy, buf := 0x1000200, count := 4, run := 4, got := 1, idx := 12, fails := 1, redo := true }; (s.sd.op = some o) ∧ (o.wait = .busy) ∧ (o.kind = .read ∨ o.kind = .write ∨ o.kind = .seg) ∧ (o.redo = true) ∧ (o.fails ≠ 0) ∧ (sdMode s ∈ [0, 1, 3]) ∧ (o.auto = false) ∧ (NoCardLoad s)) ∧
    (let s : State := setReg (setReg ({ ready with sd := { op := some { kind := .write, wait := .data, buf := 0x1000200, count := 4, run := 4, idx := 25 }, clk := true } }) Reg.DEPOT_STAT 0x47) Reg.DEPOT_CAP 0x100; let way : Passage := {}; let o : SdOp := { kind := .write, wait := .data, buf := 0x1000200, count := 4, run := 4, idx := 25 }; (s.sd.op = some o) ∧ (o.wait = .data) ∧ (o.kind = .write) ∧ (o.got + 1 < o.run) ∧ (way.hit = none) ∧ (way.uncorr = none) ∧ (damagedAt s (o.buf + 512 * (o.off + (o.got + 1))) 512 = none) ∧ (sdRecord o = false) ∧ (NoCardLoad s)) ∧
    (let s : State := setReg (setReg ({ ready with sd := { op := some { kind := .write, wait := .data, buf := 0x1000200, count := 4, run := 4, got := 3, idx := 25 }, clk := true } }) Reg.DEPOT_STAT 0x47) Reg.DEPOT_CAP 0x100; let way : Passage := {}; let o : SdOp := { kind := .write, wait := .data, buf := 0x1000200, count := 4, run := 4, got := 3, idx := 25 }; (s.sd.op = some o) ∧ (o.wait = .data) ∧ (sdReads o = false) ∧ (o.kind ≠ .start) ∧ (o.run ≤ o.got + 1) ∧ (NoCardLoad s)) ∧
    (let s : State := setReg (setReg ({ ready with sd := { op := some { kind := .write, wait := .data, buf := 0x1000200, count := 4, run := 4, idx := 25 } } }) Reg.DEPOT_STAT 0x47) Reg.DEPOT_CAP 0x100; let way : Passage := {}; let o : SdOp := { kind := .write, wait := .data, buf := 0x1000200, count := 4, run := 4, idx := 25 }; (s.sd.op = some o) ∧ (o.wait = .data) ∧ (o.kind = .write) ∧ (1 < o.run) ∧ (NoCardLoad s)) ∧
    (let s : State := setReg (setReg ({ ready with sd := { op := some { kind := .write, wait := .data, buf := 0x1000200, count := 4, run := 1, idx := 25 } } }) Reg.DEPOT_STAT 0x47) Reg.DEPOT_CAP 0x100; let way : Passage := {}; let o : SdOp := { kind := .write, wait := .data, buf := 0x1000200, count := 4, run := 1, idx := 25 }; (s.sd.op = some o) ∧ (o.wait = .data) ∧ (o.kind = .write) ∧ (o.run ≤ 1) ∧ (o.fails = 0) ∧ (tuned (sdMode s) = false) ∧ (NoCardLoad s)) ∧
    (let s : State := setReg (setReg ({ ready with sd := { op := some { kind := .write, wait := .data, buf := 0x1000200, count := 4, run := 4, idx := 25 } }, chk := { eccBad := [(0x1000200 + 512) / 8] } }) Reg.DEPOT_STAT 0x47) Reg.DEPOT_CAP 0x100; let way : Passage := {}; let o : SdOp := { kind := .write, wait := .data, buf := 0x1000200, count := 4, run := 4, idx := 25 }; (s.sd.op = some o) ∧ (o.wait = .data) ∧ (o.kind = .write) ∧ (o.auto = false) ∧ (o.got + 1 < o.run) ∧ (way.hit = none) ∧ (sdRecord o = false) ∧ (damagedAt s (o.buf + 512 * (o.off + (o.got + 1))) 512 ≠ none) ∧ (NoCardLoad s)) :=
  by and_intros <;> decide +kernel

/-- States and operands that meet the hypotheses of each clause of DepotEffects_7: taps, tapsRun, tapsNone, dataNot, busyEnds, nextRun, aborted, rawBusyEnds, verify, busyTimeout, cardBusyEndNot, busyTimeoutNot, retune, retuneNot. -/
theorem meets_DepotEffects_7 :
    (let s : State := setReg (setReg ({ ready with sd := { op := some { kind := .raw, wait := .tune, idx := 13, rtype := 1 }, retune := true } }) Reg.DEPOT_STAT 0x47) Reg.DEPOT_CAP 0x100; let p : BitVec 64 := 0x3FF0; let o : SdOp := { kind := .raw, wait := .tune, idx := 13, rtype := 1 }; (s.sd.op = some o) ∧ (o.wait = .tune) ∧ (o.kind = .raw) ∧ (o.rtype ≠ 0) ∧ (o.abort = false) ∧ (8 ≤ (widestRun p.toNat).2) ∧ (NoCardLoad s)) ∧
    (let s : State := setReg (setReg ({ ready with sd := { op := some { kind := .read, wait := .tune, buf := 0x1000200, count := 4, run := 4, idx := 18 }, retune := true } }) Reg.DEPOT_STAT 0x47) Reg.DEPOT_CAP 0x100; let p : BitVec 64 := 0x3FF0; let o : SdOp := { kind := .read, wait := .tune, buf := 0x1000200, count := 4, run := 4, idx := 18 }; (s.sd.op = some o) ∧ (o.wait = .tune) ∧ (o.kind = .read ∨ o.kind = .write ∨ o.kind = .seg) ∧ (o.abort = false) ∧ (8 ≤ (widestRun p.toNat).2) ∧ (NoCardLoad s)) ∧
    (let s : State := setReg (setReg ({ ready with sd := { op := some { kind := .raw, wait := .tune, idx := 13, rtype := 1 } } }) Reg.DEPOT_STAT 0x4F) Reg.DEPOT_CAP 0x100; let p : BitVec 64 := 0x70; let o : SdOp := { kind := .raw, wait := .tune, idx := 13, rtype := 1 }; (s.sd.op = some o) ∧ (o.wait = .tune) ∧ ((widestRun p.toNat).2 < 8) ∧ (sdMode s ∈ [0, 1, 3]) ∧ (o.auto = false) ∧ (o.kind ≠ .image) ∧ (NoCardLoad s)) ∧
    (let s : State := setReg (setReg ({ ready with sd := { op := some { kind := .read, wait := .resp, buf := 0x1000200, count := 4, run := 4, idx := 18 } } }) Reg.DEPOT_STAT 0x47) Reg.DEPOT_CAP 0x100; let d : SdData := .token true {}; ((s.sd.op.any fun o => o.wait == .data || o.wait == .tune) = false) ∧ (NoCardLoad s)) ∧
    (let s : State := setReg (setReg ({ ready with sd := { op := some { kind := .write, wait := .busy, buf := 0x1000200, count := 12, run := 4, off := 8 } } }) Reg.DEPOT_STAT 0x47) Reg.DEPOT_CAP 0x100; let o : SdOp := { kind := .write, wait := .busy, buf := 0x1000200, count := 12, run := 4, off := 8 }; (s.sd.op = some o) ∧ (o.wait = .busy) ∧ (o.kind = .write) ∧ (o.redo = false) ∧ (o.abort = false) ∧ (o.auto = false) ∧ (o.count ≤ o.off + o.run) ∧ (o.off + o.run < 2 ^ 15) ∧ (fld s Reg.DEPOT_DONE 14 0 < o.off + o.run) ∧ (NoCardLoad s)) ∧
    (let s : State := setReg (setReg ({ ready with sd := { op := some { kind := .write, wait := .busy, buf := 0x1000200, count := 12, run := 4, off := 4 } } }) Reg.DEPOT_STAT 0x47) Reg.DEPOT_CAP 0x100; let o : SdOp := { kind := .write, wait := .busy, buf := 0x1000200, count := 12, run := 4, off := 4 }; (s.sd.op = some o) ∧ (o.wait = .busy) ∧ (o.kind = .read ∨ o.kind = .write) ∧ (o.redo = false) ∧ (o.abort = false) ∧ (o.off + o.run < o.count) ∧ (NoCardLoad s)) ∧
    (let s : State := setReg (setReg ({ ready with sd := { op := some { kind := .write, wait := .busy, buf := 0x1000200, count := 12, run := 4, off := 4, abort := true } } }) Reg.DEPOT_STAT 0x47) Reg.DEPOT_CAP 0x100; let o : SdOp := { kind := .write, wait := .busy, buf := 0x1000200, count := 12, run := 4, off := 4, abort := true }; (s.sd.op = some o) ∧ (o.wait = .busy) ∧ (o.abort = true) ∧ (o.auto = false) ∧ (o.redo = false) ∧ (o.kind ≠ .image) ∧ (NoCardLoad s)) ∧
    (let s : State := setReg (setReg ({ ready with sd := { op := some { kind := .raw, wait := .busy } } }) Reg.DEPOT_STAT 0x47) Reg.DEPOT_CAP 0x100; let o : SdOp := { kind := .raw, wait := .busy }; (s.sd.op = some o) ∧ (o.wait = .busy) ∧ (o.kind = .raw) ∧ (o.abort = false) ∧ (o.auto = false) ∧ (NoCardLoad s)) ∧
    (let s : State := setReg (setReg ({ ready with sd := { op := some { kind := .seg, wait := .busy, step := 4, run := 1, count := 1, back := [1] } } }) Reg.DEPOT_STAT 0x47) Reg.DEPOT_CAP 0x100; let o : SdOp := { kind := .seg, wait := .busy, step := 4, run := 1, count := 1, back := [1] }; (s.sd.op = some o) ∧ (o.wait = .busy) ∧ (o.kind = .seg) ∧ (o.step = 4) ∧ (o.redo = false) ∧ (o.abort = false) ∧ (o.auto = false) ∧ (1 ≤ o.off + o.run) ∧ (NoCardLoad s)) ∧
    (let s : State := setReg (setReg ({ ready with sd := { op := some { kind := .write, wait := .busy, buf := 0x1000200, count := 12, run := 4, off := 8 } } }) Reg.DEPOT_STAT 0x47) Reg.DEPOT_CAP 0x100; let o : SdOp := { kind := .write, wait := .busy, buf := 0x1000200, count := 12, run := 4, off := 8 }; (s.sd.op = some o) ∧ (o.wait = .busy) ∧ (o.auto = false) ∧ (o.kind ≠ .image) ∧ (NoCardLoad s)) ∧
    (let s : State := setReg (setReg ({ ready with sd := { op := some { kind := .read, wait := .resp, buf := 0x1000200, count := 4, run := 4, idx := 18 } } }) Reg.DEPOT_STAT 0x47) Reg.DEPOT_CAP 0x100; ((s.sd.op.any fun o => o.wait == .busy) = false) ∧ (NoCardLoad s)) ∧
    (let s : State := setReg (setReg ({ ready with sd := { op := some { kind := .read, wait := .resp, buf := 0x1000200, count := 4, run := 4, idx := 18 } } }) Reg.DEPOT_STAT 0x47) Reg.DEPOT_CAP 0x100; ((s.sd.op.any fun o => o.wait == .busy) = false) ∧ (NoCardLoad s)) ∧
    (let s : State := setReg (setReg (setReg ({ ready with sd := {  } }) Reg.DEPOT_STAT 0x77) Reg.DEPOT_CAP 0x100) Reg.DEPOT_CFG 0x107; (sdReady s = true) ∧ (tuned (sdMode s) = true) ∧ (fld s Reg.DEPOT_CFG 11 8 ≠ 0)) ∧
    (let s : State := setReg (setReg (setReg ({ ready with sd := {  } }) Reg.DEPOT_STAT 0x47) Reg.DEPOT_CAP 0x100) Reg.DEPOT_CFG 0x107; (¬ (sdReady s = true ∧ tuned (sdMode s) = true ∧ fld s Reg.DEPOT_CFG 11 8 ≠ 0))) :=
  by and_intros <;> decide +kernel

/-- States and operands that meet the hypotheses of each clause of DepotEffects_8: removed, removedNot, inserted, insertedNot. -/
theorem meets_DepotEffects_8 :
    (let s : State := setReg (setReg ({ ready with sd := { op := some { kind := .write, wait := .busy, buf := 0x1000200, count := 12, run := 4, off := 8 } } }) Reg.DEPOT_STAT 0x47) Reg.DEPOT_CAP 0x100; (sdPresent s = true) ∧ (domOn s 23 = true) ∧ ((s.sd.op.any fun o => o.auto || o.kind == .image) = false) ∧ (NoCardLoad s)) ∧
    (let s : State := ready; (sdPresent s = false ∨ domOn s 23 = false) ∧ (NoCardLoad s)) ∧
    (let s : State := ready; (sdPresent s = false) ∧ (domOn s 23 = true)) ∧
    (let s : State := setReg (setReg ({ ready with sd := {  } }) Reg.DEPOT_STAT 0x47) Reg.DEPOT_CAP 0x100; (sdPresent s = true ∨ domOn s 23 = false)) :=
  by and_intros <;> decide +kernel

/-- States and operands that meet the hypotheses of each clause of PostboxEffects_1: activate, activateAgain, noCard, exchangeT1, exchangeT0, exchangeLength, exchangeIdle, deactivate, warm, warmIdle, activateBusy, activateLockdown, exchangeBusy, exchangeLockdown. -/
theorem meets_PostboxEffects_1 :
    (let s : State := setReg (setReg ({ ready with pb0 := {  } }) (pr 0 Reg.PB_STAT) 1) (pr 0 Reg.PB_CFG) 6; let src : Src := .port 0; let p : PortNo := 0; let c : Nat := 2; let l : List Nat := [3]; (Reaches s src (pr p.val Reg.PB_CMD)) ∧ (pbBusy s p.val = false) ∧ (s.kerb.lockdown = false) ∧ (pbPresent s p.val = true) ∧ (pbActive s p.val = false) ∧ (pbClasses s p.val = c :: l) ∧ (c < 4)) ∧
    (let s : State := setReg (setReg ({ ready with pb0 := {  } }) (pr 0 Reg.PB_STAT) 0x13) (pr 0 Reg.PB_CFG) 6; let src : Src := .port 0; let p : PortNo := 0; let c : Nat := 2; let l : List Nat := [3]; (Reaches s src (pr p.val Reg.PB_CMD)) ∧ (pbBusy s p.val = false) ∧ (s.kerb.lockdown = false) ∧ (pbPresent s p.val = true) ∧ (pbActive s p.val = true) ∧ (pbClasses s p.val = c :: l) ∧ (c < 4)) ∧
    (let s : State := ready; let src : Src := .port 0; let p : PortNo := 1; (Reaches s src (pr p.val Reg.PB_CMD)) ∧ (pbBusy s p.val = false) ∧ (s.kerb.lockdown = false) ∧ (pbPresent s p.val = false)) ∧
    (let s : State := setReg (setReg ({ ready with pb1 := {  } }) (pr 1 Reg.PB_STAT) 0x13) (pr 1 Reg.PB_LEN) 5; let src : Src := .port 0; let p : PortNo := 1; (Reaches s src (pr p.val Reg.PB_CMD)) ∧ (pbBusy s p.val = false) ∧ (s.kerb.lockdown = false) ∧ (pbActive s p.val = true) ∧ (rbit s (pr p.val Reg.PB_STAT) 4 = true) ∧ (0 < (fld s (pr p.val Reg.PB_LEN) 9 0)) ∧ ((fld s (pr p.val Reg.PB_LEN) 9 0) ≤ 512)) ∧
    (let s : State := setReg (setReg ({ ready with pb1 := {  } }) (pr 1 Reg.PB_STAT) 0x3) (pr 1 Reg.PB_LEN) 5; let src : Src := .port 0; let p : PortNo := 1; (Reaches s src (pr p.val Reg.PB_CMD)) ∧ (pbBusy s p.val = false) ∧ (s.kerb.lockdown = false) ∧ (pbActive s p.val = true) ∧ (rbit s (pr p.val Reg.PB_STAT) 4 = false) ∧ (5 ≤ (fld s (pr p.val Reg.PB_LEN) 9 0)) ∧ ((fld s (pr p.val Reg.PB_LEN) 9 0) ≤ 260)) ∧
    (let s : State := setReg (setReg ({ ready with pb1 := {  } }) (pr 1 Reg.PB_STAT) 0x3) (pr 1 Reg.PB_LEN) 4; let src : Src := .port 0; let p : PortNo := 1; (Reaches s src (pr p.val Reg.PB_CMD)) ∧ (pbBusy s p.val = false) ∧ (s.kerb.lockdown = false) ∧ (pbActive s p.val = true) ∧ ((if rbit s (pr p.val Reg.PB_STAT) 4 then (fld s (pr p.val Reg.PB_LEN) 9 0) = 0 ∨ 512 < (fld s (pr p.val Reg.PB_LEN) 9 0) else (fld s (pr p.val Reg.PB_LEN) 9 0) < 5 ∨ 260 < (fld s (pr p.val Reg.PB_LEN) 9 0)))) ∧
    (let s : State := ready; let src : Src := .port 0; let p : PortNo := 1; (Reaches s src (pr p.val Reg.PB_CMD)) ∧ (pbBusy s p.val = false) ∧ (s.kerb.lockdown = false) ∧ (pbActive s p.val = false)) ∧
    (let s : State := setReg (setReg ({ ready with pb0 := {  }, kerb := { lockdown := true } }) (pr 0 Reg.PB_STAT) 0x13) Reg.PB_BUF 5; let src : Src := .port 0; let p : PortNo := 0; (Reaches s src (pr p.val Reg.PB_CMD)) ∧ (pbBusy s p.val = false)) ∧
    (let s : State := setReg ({ ready with pb0 := { clk := 5 } }) (pr 0 Reg.PB_STAT) 0x13; let src : Src := .port 0; let p : PortNo := 0; (Reaches s src (pr p.val Reg.PB_CMD)) ∧ (pbBusy s p.val = false) ∧ (s.kerb.lockdown = false) ∧ (pbActive s p.val = true)) ∧
    (let s : State := ready; let src : Src := .port 0; let p : PortNo := 1; (Reaches s src (pr p.val Reg.PB_CMD)) ∧ (pbBusy s p.val = false) ∧ (s.kerb.lockdown = false) ∧ (pbActive s p.val = false)) ∧
    (let s : State := setReg ({ ready with pb1 := { cmd := 2 } }) (pr 1 Reg.PB_STAT) 0x3; let src : Src := .port 0; let p : PortNo := 1; (Reaches s src (pr p.val Reg.PB_CMD)) ∧ (pbBusy s p.val = true) ∧ (rbit s (rk 0x4D Reg.ERR_SYND) 23 = false)) ∧
    (let s : State := setReg ({ ready with pb1 := {  }, kerb := { lockdown := true } }) (pr 1 Reg.PB_STAT) 0x3; let src : Src := .port 0; let p : PortNo := 1; (Reaches s src (pr p.val Reg.PB_CMD)) ∧ (pbBusy s p.val = false) ∧ (s.kerb.lockdown = true)) ∧
    (let s : State := setReg ({ ready with pb1 := { cmd := 2 } }) (pr 1 Reg.PB_STAT) 0x3; let src : Src := .port 0; let p : PortNo := 1; (Reaches s src (pr p.val Reg.PB_CMD)) ∧ (pbBusy s p.val = true) ∧ (rbit s (rk 0x4D Reg.ERR_SYND) 23 = false)) ∧
    (let s : State := setReg ({ ready with pb1 := {  }, kerb := { lockdown := true } }) (pr 1 Reg.PB_STAT) 0x3; let src : Src := .port 0; let p : PortNo := 1; (Reaches s src (pr p.val Reg.PB_CMD)) ∧ (pbBusy s p.val = false) ∧ (s.kerb.lockdown = true)) :=
  by and_intros <;> decide +kernel

/-- States and operands that meet the hypotheses of each clause of PostboxEffects_2: deactivateBusy, warmResetBusy, warmResetLockdown, atr, atrT1, atrPps, atrSpecific, atrSpecificT1, atrSpecificOther, atrNoProtocol, atrLong, atrBad, atrNext, atrNot. -/
theorem meets_PostboxEffects_2 :
    (let s : State := setReg ({ ready with pb1 := { cmd := 2 } }) (pr 1 Reg.PB_STAT) 0x3; let src : Src := .port 0; let p : PortNo := 1; (Reaches s src (pr p.val Reg.PB_CMD)) ∧ (pbBusy s p.val = true) ∧ (rbit s (rk 0x4D Reg.ERR_SYND) 23 = false)) ∧
    (let s : State := setReg ({ ready with pb1 := { cmd := 2 } }) (pr 1 Reg.PB_STAT) 0x3; let src : Src := .port 0; let p : PortNo := 1; (Reaches s src (pr p.val Reg.PB_CMD)) ∧ (pbBusy s p.val = true) ∧ (rbit s (rk 0x4D Reg.ERR_SYND) 23 = false)) ∧
    (let s : State := setReg ({ ready with pb1 := {  }, kerb := { lockdown := true } }) (pr 1 Reg.PB_STAT) 0x3; let src : Src := .port 0; let p : PortNo := 1; (Reaches s src (pr p.val Reg.PB_CMD)) ∧ (pbBusy s p.val = false) ∧ (s.kerb.lockdown = true)) ∧
    (let s : State := setReg (setReg (setReg ({ ready with pb0 := { cmd := 1, phase := .atr } }) (pr 0 Reg.PB_STAT) 0x9) (pr 0 Reg.PB_CFG) 0) (pr 0 Reg.PB_CLK) 0x80008; let p : PortNo := 0; let b : Bytes := [0x3B, 0x02, 0x14, 0x50]; let x : Nat := 0; ((port s p.val).phase = .atr) ∧ (tsOk b = true) ∧ (((atrClasses ((atrParse (b.take 33)).1)).any fun m => !m.testBit (3 - fld s (pr p.val Reg.PB_STAT) 3 2)) = false) ∧ (((atrParse (b.take 33)).2).length = byteAt b 1 % 16 + b2n (atrNeedsTck ((atrParse (b.take 33)).1))) ∧ ((atrNeedsTck ((atrParse (b.take 33)).1) = true → tckOk (b.take 33) = true)) ∧ ((((atrParse (b.take 33)).1).drop 1).head?.bind (·.ta) = none) ∧ ((if ((atrOffers ((atrParse (b.take 33)).1)).filter fun x => x == 0 || x == 1).contains (fld s (pr p.val Reg.PB_CFG) 5 5) then some (fld s (pr p.val Reg.PB_CFG) 5 5) else ((atrOffers ((atrParse (b.take 33)).1)).filter fun x => x == 0 || x == 1).head?) = some x) ∧ (x = 0) ∧ ((rbit s (pr p.val Reg.PB_CFG) 4 && !(port s p.val).noPps) = false)) ∧
    (let s : State := setReg (setReg (setReg ({ ready with pb0 := { cmd := 1, phase := .atr } }) (pr 0 Reg.PB_STAT) 0x9) (pr 0 Reg.PB_CFG) 0) (pr 0 Reg.PB_CLK) 0x80008; let p : PortNo := 0; let b : Bytes := [0x3B, 0x82, 0x01, 0x14, 0x50, 0xC7]; let x : Nat := 1; ((port s p.val).phase = .atr) ∧ (tsOk b = true) ∧ (((atrClasses ((atrParse (b.take 33)).1)).any fun m => !m.testBit (3 - fld s (pr p.val Reg.PB_STAT) 3 2)) = false) ∧ (((atrParse (b.take 33)).2).length = byteAt b 1 % 16 + b2n (atrNeedsTck ((atrParse (b.take 33)).1))) ∧ ((atrNeedsTck ((atrParse (b.take 33)).1) = true → tckOk (b.take 33) = true)) ∧ ((((atrParse (b.take 33)).1).drop 1).head?.bind (·.ta) = none) ∧ ((if ((atrOffers ((atrParse (b.take 33)).1)).filter fun x => x == 0 || x == 1).contains (fld s (pr p.val Reg.PB_CFG) 5 5) then some (fld s (pr p.val Reg.PB_CFG) 5 5) else ((atrOffers ((atrParse (b.take 33)).1)).filter fun x => x == 0 || x == 1).head?) = some x) ∧ (x = 1) ∧ ((rbit s (pr p.val Reg.PB_CFG) 4 && !(port s p.val).noPps) = false)) ∧
    (let s : State := setReg (setReg ({ ready with pb0 := { cmd := 1, phase := .atr } }) (pr 0 Reg.PB_STAT) 0x9) (pr 0 Reg.PB_CFG) 0x10; let p : PortNo := 0; let b : Bytes := [0x3B, 0x02, 0x14, 0x50]; let x : Nat := 0; ((port s p.val).phase = .atr) ∧ (tsOk b = true) ∧ (((atrClasses ((atrParse (b.take 33)).1)).any fun m => !m.testBit (3 - fld s (pr p.val Reg.PB_STAT) 3 2)) = false) ∧ (((atrParse (b.take 33)).2).length = byteAt b 1 % 16 + b2n (atrNeedsTck ((atrParse (b.take 33)).1))) ∧ ((atrNeedsTck ((atrParse (b.take 33)).1) = true → tckOk (b.take 33) = true)) ∧ ((((atrParse (b.take 33)).1).drop 1).head?.bind (·.ta) = none) ∧ ((if ((atrOffers ((atrParse (b.take 33)).1)).filter fun x => x == 0 || x == 1).contains (fld s (pr p.val Reg.PB_CFG) 5 5) then some (fld s (pr p.val Reg.PB_CFG) 5 5) else ((atrOffers ((atrParse (b.take 33)).1)).filter fun x => x == 0 || x == 1).head?) = some x) ∧ ((rbit s (pr p.val Reg.PB_CFG) 4 && !(port s p.val).noPps) = true)) ∧
    (let s : State := setReg (setReg (setReg ({ ready with pb0 := { cmd := 1, phase := .atr } }) (pr 0 Reg.PB_STAT) 0x9) (pr 0 Reg.PB_CFG) 0) (pr 0 Reg.PB_CLK) 0x80008; let p : PortNo := 0; let b : Bytes := [0x3B, 0x92, 0x18, 0x10, 0x00, 0x14, 0x50]; let a : Nat := 0; ((port s p.val).phase = .atr) ∧ (tsOk b = true) ∧ (((atrClasses ((atrParse (b.take 33)).1)).any fun m => !m.testBit (3 - fld s (pr p.val Reg.PB_STAT) 3 2)) = false) ∧ (((atrParse (b.take 33)).2).length = byteAt b 1 % 16 + b2n (atrNeedsTck ((atrParse (b.take 33)).1))) ∧ ((atrNeedsTck ((atrParse (b.take 33)).1) = true → tckOk (b.take 33) = true)) ∧ (((atrOffers ((atrParse (b.take 33)).1)).any fun x => x == 0 || x == 1) = true) ∧ ((((atrParse (b.take 33)).1).drop 1).head?.bind (·.ta) = some a) ∧ (a % 16 = 0)) ∧
    (let s : State := setReg (setReg (setReg ({ ready with pb0 := { cmd := 1, phase := .atr } }) (pr 0 Reg.PB_STAT) 0x9) (pr 0 Reg.PB_CFG) 0) (pr 0 Reg.PB_CLK) 0x80008; let p : PortNo := 0; let b : Bytes := [0x3B, 0x92, 0x18, 0x11, 0x01, 0x14, 0x50, 0xDE]; let a : Nat := 1; ((port s p.val).phase = .atr) ∧ (tsOk b = true) ∧ (((atrClasses ((atrParse (b.take 33)).1)).any fun m => !m.testBit (3 - fld s (pr p.val Reg.PB_STAT) 3 2)) = false) ∧ (((atrParse (b.take 33)).2).length = byteAt b 1 % 16 + b2n (atrNeedsTck ((atrParse (b.take 33)).1))) ∧ ((atrNeedsTck ((atrParse (b.take 33)).1) = true → tckOk (b.take 33) = true)) ∧ (((atrOffers ((atrParse (b.take 33)).1)).any fun x => x == 0 || x == 1) = true) ∧ ((((atrParse (b.take 33)).1).drop 1).head?.bind (·.ta) = some a) ∧ (a % 16 = 1)) ∧
    (let s : State := setReg (setReg (setReg ({ ready with pb0 := { cmd := 1, phase := .atr } }) (pr 0 Reg.PB_STAT) 0x9) (pr 0 Reg.PB_CFG) 0) (pr 0 Reg.PB_CLK) 0x80008; let p : PortNo := 0; let b : Bytes := [0x3B, 0x92, 0x18, 0x10, 0x02, 0x14, 0x50]; let a : Nat := 2; ((port s p.val).phase = .atr) ∧ (tsOk b = true) ∧ (((atrClasses ((atrParse (b.take 33)).1)).any fun m => !m.testBit (3 - fld s (pr p.val Reg.PB_STAT) 3 2)) = false) ∧ (((atrParse (b.take 33)).2).length = byteAt b 1 % 16 + b2n (atrNeedsTck ((atrParse (b.take 33)).1))) ∧ ((atrNeedsTck ((atrParse (b.take 33)).1) = true → tckOk (b.take 33) = true)) ∧ (((atrOffers ((atrParse (b.take 33)).1)).any fun x => x == 0 || x == 1) = true) ∧ ((((atrParse (b.take 33)).1).drop 1).head?.bind (·.ta) = some a) ∧ (1 < a % 16)) ∧
    (let s : State := setReg (setReg (setReg ({ ready with pb0 := { cmd := 1, phase := .atr } }) (pr 0 Reg.PB_STAT) 0x9) (pr 0 Reg.PB_CFG) 0) (pr 0 Reg.PB_CLK) 0x80008; let p : PortNo := 0; let b : Bytes := [0x3B, 0x82, 0x02, 0x14, 0x50, 0xC4]; ((port s p.val).phase = .atr) ∧ (tsOk b = true) ∧ (((atrClasses ((atrParse (b.take 33)).1)).any fun m => !m.testBit (3 - fld s (pr p.val Reg.PB_STAT) 3 2)) = false) ∧ (((atrParse (b.take 33)).2).length = byteAt b 1 % 16 + b2n (atrNeedsTck ((atrParse (b.take 33)).1))) ∧ ((atrNeedsTck ((atrParse (b.take 33)).1) = true → tckOk (b.take 33) = true)) ∧ (((atrOffers ((atrParse (b.take 33)).1)).any fun x => x == 0 || x == 1) = false)) ∧
    (let s : State := setReg (setReg (setReg ({ ready with pb0 := { cmd := 1, phase := .atr } }) (pr 0 Reg.PB_STAT) 0x9) (pr 0 Reg.PB_CFG) 0) (pr 0 Reg.PB_CLK) 0x80008; let p : PortNo := 0; let b : Bytes := [0x3B, 0x03, 0x14, 0x50]; ((port s p.val).phase = .atr) ∧ (tsOk b = true) ∧ (((atrClasses ((atrParse (b.take 33)).1)).any fun m => !m.testBit (3 - fld s (pr p.val Reg.PB_STAT) 3 2)) = false) ∧ (((atrParse (b.take 33)).2).length ≠ byteAt b 1 % 16 + b2n (atrNeedsTck ((atrParse (b.take 33)).1)) ∨ (atrNeedsTck ((atrParse (b.take 33)).1) = true ∧ tckOk (b.take 33) = false))) ∧
    (let s : State := setReg (setReg (setReg ({ ready with pb0 := { cmd := 1, phase := .atr } }) (pr 0 Reg.PB_STAT) 0x9) (pr 0 Reg.PB_CFG) 0) (pr 0 Reg.PB_CLK) 0x80008; let p : PortNo := 0; let b : Bytes := [0x3A]; ((port s p.val).phase = .atr) ∧ (tsOk b = false ∨ ((atrClasses ((atrParse (b.take 33)).1)).any fun m => !m.testBit (3 - fld s (pr p.val Reg.PB_STAT) 3 2)) = true) ∧ ((port s p.val).classes = [])) ∧
    (let s : State := setReg ({ ready with pb0 := { cmd := 1, phase := .atr, classes := [2] } }) (pr 0 Reg.PB_STAT) 0x5; let p : PortNo := 0; let b : Bytes := [0x3A]; let c : Nat := 2; let l : List Nat := []; ((port s p.val).phase = .atr) ∧ (tsOk b = false ∨ ((atrClasses ((atrParse (b.take 33)).1)).any fun m => !m.testBit (3 - fld s (pr p.val Reg.PB_STAT) 3 2)) = true) ∧ ((port s p.val).classes = c :: l)) ∧
    (let s : State := ready; let p : PortNo := 1; let b : Bytes := [0x3B, 0x02, 0x14, 0x50]; ((port s p.val).phase ≠ .atr)) :=
  by and_intros <;> decide +kernel

/-- States and operands that meet the hypotheses of each clause of PostboxEffects_3: ppsSame, ppsSameT1, ppsFails, ppsNot, status, nullByte, statusFirst, sendRest, sendOne, receiveRest, receiveOne, procedureNot, dataByte, dataLast. -/
theorem meets_PostboxEffects_3 :
    (let s : State := setReg ({ ready with pb0 := { cmd := 1, phase := .pps, last := [0xFF, 0x10, 0x13, 0xFC], atr := [0x3B] } }) (pr 0 Reg.PB_STAT) 0x9; let p : PortNo := 0; ((port s p.val).phase = .pps) ∧ (byteAt (port s p.val).last 1 % 16 = 0) ∧ ((port s p.val).atr.length ≤ 33)) ∧
    (let s : State := setReg ({ ready with pb0 := { cmd := 1, phase := .pps, last := [0xFF, 0x11, 0x13, 0xFD], atr := [0x3B] } }) (pr 0 Reg.PB_STAT) 0x9; let p : PortNo := 0; ((port s p.val).phase = .pps) ∧ (byteAt (port s p.val).last 1 % 16 = 1)) ∧
    (let s : State := setReg ({ ready with pb0 := { cmd := 1, phase := .pps, last := [0xFF, 0x10, 0x13, 0xFC], atr := [0x3B] } }) (pr 0 Reg.PB_STAT) 0x9; let p : PortNo := 0; let b : Option Bytes := none; ((port s p.val).phase = .pps) ∧ (b ≠ some (port s p.val).last)) ∧
    (let s : State := ready; let p : PortNo := 1; let b : Option Bytes := none; ((port s p.val).phase ≠ .pps)) ∧
    (let s : State := setReg ({ ready with pb1 := { cmd := 2, phase := .sw2, rx := [1, 2, 3], sw1 := 0x90 } }) (pr 1 Reg.PB_STAT) 0x3; let p : PortNo := 1; let b : Byte := 0; ((port s p.val).phase = .sw2) ∧ ((port s p.val).rx.length ≤ 256)) ∧
    (let s : State := setReg (setReg (setReg (setReg ({ ready with pb1 := { cmd := 2, phase := .proc, sent := 5 } }) (pr 1 Reg.PB_STAT) 0x3) (pr 1 Reg.PB_LEN) 5) (Reg.PB_BUF + 0x200) 0x0000A400) (Reg.PB_BUF + 0x204) 0x0002; let p : PortNo := 1; ((port s p.val).phase = .proc)) ∧
    (let s : State := setReg (setReg (setReg (setReg ({ ready with pb1 := { cmd := 2, phase := .proc, sent := 5 } }) (pr 1 Reg.PB_STAT) 0x3) (pr 1 Reg.PB_LEN) 5) (Reg.PB_BUF + 0x200) 0x0000A400) (Reg.PB_BUF + 0x204) 0x0002; let p : PortNo := 1; let b : Byte := 0x61; ((port s p.val).phase = .proc) ∧ (b ≠ 0x60) ∧ (b.toNat / 16 = 6 ∨ b.toNat / 16 = 9)) ∧
    (let s : State := setReg (setReg (setReg (setReg ({ ready with pb1 := { cmd := 2, phase := .proc, sent := 5 } }) (pr 1 Reg.PB_STAT) 0x3) (pr 1 Reg.PB_LEN) 8) (Reg.PB_BUF + 0x200) 0x0000A400) (Reg.PB_BUF + 0x204) 0x0002; let p : PortNo := 1; let b : Byte := 0xA4; ((port s p.val).phase = .proc) ∧ (b.toNat / 16 ≠ 6) ∧ (b.toNat / 16 ≠ 9) ∧ (b.toNat = (byteAt (txBytes s p.val) 1)) ∧ (5 < (txBytes s p.val).length)) ∧
    (let s : State := setReg (setReg (setReg (setReg ({ ready with pb1 := { cmd := 2, phase := .proc, sent := 5 } }) (pr 1 Reg.PB_STAT) 0x3) (pr 1 Reg.PB_LEN) 8) (Reg.PB_BUF + 0x200) 0x0000A400) (Reg.PB_BUF + 0x204) 0x0002; let p : PortNo := 1; let b : Byte := 0x5B; ((port s p.val).phase = .proc) ∧ (b.toNat / 16 ≠ 6) ∧ (b.toNat / 16 ≠ 9) ∧ (b.toNat = 255 - (byteAt (txBytes s p.val) 1)) ∧ (5 < (txBytes s p.val).length)) ∧
    (let s : State := setReg (setReg (setReg (setReg ({ ready with pb1 := { cmd := 2, phase := .proc, sent := 5 } }) (pr 1 Reg.PB_STAT) 0x3) (pr 1 Reg.PB_LEN) 5) (Reg.PB_BUF + 0x200) 0x0000A400) (Reg.PB_BUF + 0x204) 0x0002; let p : PortNo := 1; let b : Byte := 0xA4; ((port s p.val).phase = .proc) ∧ (b.toNat / 16 ≠ 6) ∧ (b.toNat / 16 ≠ 9) ∧ (b.toNat = (byteAt (txBytes s p.val) 1)) ∧ ((txBytes s p.val).length ≤ 5) ∧ (0 < t0Want s p.val (port s p.val))) ∧
    (let s : State := setReg (setReg (setReg (setReg ({ ready with pb1 := { cmd := 2, phase := .proc, sent := 5 } }) (pr 1 Reg.PB_STAT) 0x3) (pr 1 Reg.PB_LEN) 5) (Reg.PB_BUF + 0x200) 0x0000A400) (Reg.PB_BUF + 0x204) 0x0002; let p : PortNo := 1; let b : Byte := 0x5B; ((port s p.val).phase = .proc) ∧ (b.toNat / 16 ≠ 6) ∧ (b.toNat / 16 ≠ 9) ∧ (b.toNat = 255 - (byteAt (txBytes s p.val) 1)) ∧ ((txBytes s p.val).length ≤ 5) ∧ (0 < t0Want s p.val (port s p.val))) ∧
    (let s : State := setReg (setReg (setReg (setReg ({ ready with pb1 := { cmd := 2, phase := .proc, sent := 5 } }) (pr 1 Reg.PB_STAT) 0x3) (pr 1 Reg.PB_LEN) 5) (Reg.PB_BUF + 0x200) 0x0000A400) (Reg.PB_BUF + 0x204) 0x0002; let p : PortNo := 1; let b : Byte := 0x11; ((port s p.val).phase = .proc) ∧ (b.toNat / 16 ≠ 6) ∧ (b.toNat / 16 ≠ 9) ∧ ((b.toNat ≠ (byteAt (txBytes s p.val) 1) ∧ b.toNat ≠ 255 - (byteAt (txBytes s p.val) 1)) ∨ ((txBytes s p.val).length ≤ 5 ∧ t0Want s p.val (port s p.val) = 0))) ∧
    (let s : State := setReg ({ ready with pb1 := { cmd := 2, phase := .recvAll, rx := [1, 2, 3] } }) (pr 1 Reg.PB_STAT) 0x3; let p : PortNo := 1; let b : Byte := 7; ((port s p.val).phase = .recvAll) ∧ (1 < t0Want s p.val (port s p.val))) ∧
    (let s : State := setReg (setReg (setReg (setReg ({ ready with pb1 := { cmd := 2, phase := .recvAll, sent := 5 } }) (pr 1 Reg.PB_STAT) 0x3) (pr 1 Reg.PB_LEN) 8) (Reg.PB_BUF + 0x200) 0x0000A400) (Reg.PB_BUF + 0x204) 0x0002; let p : PortNo := 1; let b : Byte := 7; ((port s p.val).phase = .recvAll) ∧ (t0Want s p.val (port s p.val) ≤ 1)) :=
  by and_intros <;> decide +kernel

/-- States and operands that meet the hypotheses of each clause of PostboxEffects_4: dataSingle, badParity, badParityAtr, errorSignal, errorSignalLast, errorSignalNone, characterNot, lastBlock, chained, tooLong, nextBlock, blockAgain, moreTime, blockSize. -/
theorem meets_PostboxEffects_4 :
    (let s : State := setReg (setReg (setReg (setReg ({ ready with pb1 := { cmd := 2, phase := .recvOne, sent := 5 } }) (pr 1 Reg.PB_STAT) 0x3) (pr 1 Reg.PB_LEN) 5) (Reg.PB_BUF + 0x200) 0x0000A400) (Reg.PB_BUF + 0x204) 0x0002; let p : PortNo := 1; let b : Byte := 7; ((port s p.val).phase = .recvOne)) ∧
    (let s : State := setReg (setReg (setReg (setReg ({ ready with pb1 := { cmd := 2, phase := .recvAll, sent := 5 } }) (pr 1 Reg.PB_STAT) 0x3) (pr 1 Reg.PB_LEN) 5) (Reg.PB_BUF + 0x200) 0x0000A400) (Reg.PB_BUF + 0x204) 0x0002; let p : PortNo := 1; let b : Byte := 7; (inT0 (port s p.val) = true)) ∧
    (let s : State := setReg (setReg (setReg (setReg ({ ready with pb1 := { cmd := 2, phase := .atr, sent := 5 } }) (pr 1 Reg.PB_STAT) 0x3) (pr 1 Reg.PB_LEN) 5) (Reg.PB_BUF + 0x200) 0x0000A400) (Reg.PB_BUF + 0x204) 0x0002; let p : PortNo := 1; let b : Byte := 7; ((port s p.val).phase = .atr)) ∧
    (let s : State := setReg (setReg (setReg (setReg ({ ready with pb1 := { cmd := 2, phase := .proc, sent := 5, rep := 4, repAt := 3 } }) (pr 1 Reg.PB_STAT) 0x3) (pr 1 Reg.PB_LEN) 5) (Reg.PB_BUF + 0x200) 0x0000A400) (Reg.PB_BUF + 0x204) 0x0002; let p : PortNo := 1; let i : BitVec 9 := 2; (inT0 (port s p.val) = true) ∧ (i.toNat < (port s p.val).sent) ∧ ((if (port s p.val).repAt = i.toNat then (port s p.val).rep else 0) < 4)) ∧
    (let s : State := setReg (setReg (setReg (setReg ({ ready with pb1 := { cmd := 2, phase := .proc, sent := 5, rep := 4, repAt := 3 } }) (pr 1 Reg.PB_STAT) 0x3) (pr 1 Reg.PB_LEN) 5) (Reg.PB_BUF + 0x200) 0x0000A400) (Reg.PB_BUF + 0x204) 0x0002; let p : PortNo := 1; let i : BitVec 9 := 3; (inT0 (port s p.val) = true) ∧ (i.toNat < (port s p.val).sent) ∧ (4 ≤ (if (port s p.val).repAt = i.toNat then (port s p.val).rep else 0))) ∧
    (let s : State := setReg (setReg (setReg (setReg ({ ready with pb1 := { cmd := 2, phase := .proc, sent := 5 } }) (pr 1 Reg.PB_STAT) 0x3) (pr 1 Reg.PB_LEN) 5) (Reg.PB_BUF + 0x200) 0x0000A400) (Reg.PB_BUF + 0x204) 0x0002; let p : PortNo := 1; let i : BitVec 9 := 9; (inT0 (port s p.val) = true) ∧ ((port s p.val).sent ≤ i.toNat)) ∧
    (let s : State := ready; let p : PortNo := 1; let e : T0Ev := .errorSignal 5; (inT0 (port s p.val) = false) ∧ ((port s p.val).phase ≠ .atr)) ∧
    (let s : State := setReg ({ ready with pb0 := { cmd := 2, phase := .t1, rx := [9] } }) (pr 0 Reg.PB_STAT) 0x13; let p : PortNo := 0; let b : Bytes := [0, 0, 2, 0x90, 0, 0x92]; ((port s p.val).phase = .t1) ∧ ((byteAt b 1) < 0x80) ∧ ((byteAt b 1).testBit 6 = (port s p.val).nr) ∧ ((txBytes s p.val).length ≤ (port s p.val).sent + (port s p.val).lastLen) ∧ ((byteAt b 1).testBit 5 = false) ∧ (((port s p.val).rx ++ (sl b 3 (byteAt b 2))).length ≤ 512)) ∧
    (let s : State := setReg (setReg ({ ready with pb0 := { cmd := 2, phase := .t1, lastLen := 40 } }) (pr 0 Reg.PB_STAT) 0x13) (pr 0 Reg.PB_LEN) 40; let p : PortNo := 0; let b : Bytes := [0, 0x20, 2, 0x90, 0, 0x92]; ((port s p.val).phase = .t1) ∧ ((byteAt b 1) < 0x80) ∧ ((byteAt b 1).testBit 6 = (port s p.val).nr) ∧ ((txBytes s p.val).length ≤ (port s p.val).sent + (port s p.val).lastLen) ∧ ((byteAt b 1).testBit 5 = true) ∧ (((port s p.val).rx ++ (sl b 3 (byteAt b 2))).length ≤ 512)) ∧
    (let s : State := setReg (setReg ({ ready with pb0 := { cmd := 2, phase := .t1, lastLen := 40, rx := fill 511 0 } }) (pr 0 Reg.PB_STAT) 0x13) (pr 0 Reg.PB_LEN) 40; let p : PortNo := 0; let b : Bytes := [0, 0, 2, 0x90, 0, 0x92]; ((port s p.val).phase = .t1) ∧ ((byteAt b 1) < 0x80) ∧ ((byteAt b 1).testBit 6 = (port s p.val).nr) ∧ ((txBytes s p.val).length ≤ (port s p.val).sent + (port s p.val).lastLen) ∧ (512 < ((port s p.val).rx ++ (sl b 3 (byteAt b 2))).length)) ∧
    (let s : State := setReg (setReg ({ ready with pb0 := { cmd := 2, phase := .t1, lastLen := 32, ifsc := 32 } }) (pr 0 Reg.PB_STAT) 0x13) (pr 0 Reg.PB_LEN) 40; let p : PortNo := 0; let b : Bytes := [0, 0x90, 0, 0x90]; ((port s p.val).phase = .t1) ∧ (0x80 ≤ (byteAt b 1)) ∧ ((byteAt b 1) < 0xC0) ∧ (((byteAt b 1).testBit 4 != (port s p.val).ns && decide ((port s p.val).sent + (port s p.val).lastLen < (txBytes s p.val).length)) = true)) ∧
    (let s : State := setReg (setReg ({ ready with pb0 := { cmd := 2, phase := .t1, last := [0, 0, 0, 0] } }) (pr 0 Reg.PB_STAT) 0x13) (pr 0 Reg.PB_LEN) 40; let p : PortNo := 0; let b : Bytes := [0, 0x80, 0, 0x80]; ((port s p.val).phase = .t1) ∧ (0x80 ≤ (byteAt b 1)) ∧ ((byteAt b 1) < 0xC0) ∧ (((byteAt b 1).testBit 4 != (port s p.val).ns && decide ((port s p.val).sent + (port s p.val).lastLen < (txBytes s p.val).length)) = false)) ∧
    (let s : State := setReg (setReg ({ ready with pb0 := { cmd := 2, phase := .t1 } }) (pr 0 Reg.PB_STAT) 0x13) (pr 0 Reg.PB_LEN) 40; let p : PortNo := 0; let b : Bytes := [0, 0xC3, 1, 9, 0]; ((port s p.val).phase = .t1) ∧ ((byteAt b 1) = 0xC3)) ∧
    (let s : State := setReg (setReg ({ ready with pb0 := { cmd := 2, phase := .t1 } }) (pr 0 Reg.PB_STAT) 0x13) (pr 0 Reg.PB_LEN) 40; let p : PortNo := 0; let b : Bytes := [0, 0xC1, 1, 9, 0]; ((port s p.val).phase = .t1) ∧ ((byteAt b 1) = 0xC1)) :=
  by and_intros <;> decide +kernel

/-- States and operands that meet the hypotheses of each clause of PostboxEffects_5: abortBlock, resynched, badBlock, badResynch, badFails, ifsTaken, ifsAgain, blockNot, waitT0, waitAtr, waitAtrNext, waitPps, waitBlock, waitResynch. -/
theorem meets_PostboxEffects_5 :
    (let s : State := setReg (setReg ({ ready with pb0 := { cmd := 2, phase := .t1 } }) (pr 0 Reg.PB_STAT) 0x13) (pr 0 Reg.PB_LEN) 40; let p : PortNo := 0; let b : Bytes := [0, 0xC2, 1, 9, 0]; ((port s p.val).phase = .t1) ∧ ((byteAt b 1) = 0xC2)) ∧
    (let s : State := setReg (setReg ({ ready with pb0 := { cmd := 2, phase := .t1, resyncs := 1, sent := 5, rx := [4] } }) (pr 0 Reg.PB_STAT) 0x13) (pr 0 Reg.PB_LEN) 40; let p : PortNo := 0; let b : Bytes := [0, 0xE0, 1, 9, 0]; ((port s p.val).phase = .t1) ∧ ((byteAt b 1) = 0xE0) ∧ ((port s p.val).resyncs ≠ 0)) ∧
    (let s : State := setReg (setReg ({ ready with pb0 := { cmd := 2, phase := .t1 } }) (pr 0 Reg.PB_STAT) 0x13) (pr 0 Reg.PB_LEN) 40; let p : PortNo := 0; let b : Bytes := []; let good : Bool := false; ((port s p.val).phase = .t1 ∨ (port s p.val).phase = .ifs) ∧ ((good = false ∨ ((port s p.val).phase = .t1 ∧ (byteAt b 1) < 0x80 ∧ ((port s p.val).sent + (port s p.val).lastLen < (txBytes s p.val).length ∨ (byteAt b 1).testBit 6 ≠ (port s p.val).nr)) ∨ ((port s p.val).phase = .t1 ∧ 0xC0 ≤ (byteAt b 1) ∧ (byteAt b 1) ≠ 0xC3 ∧ (byteAt b 1) ≠ 0xC1 ∧ (byteAt b 1) ≠ 0xC2 ∧ ((byteAt b 1) = 0xE0 → (port s p.val).resyncs = 0)) ∨ ((port s p.val).phase = .ifs ∧ ¬ ((byteAt b 1) = 0xE1 ∧ (sl b 3 (byteAt b 2)) = [254]) ∧ ((byteAt b 1) = 0xE0 → (port s p.val).resyncs = 0)))) ∧ ((port s p.val).rblocks < 2) ∧ ((port s p.val).resyncs = 0)) ∧
    (let s : State := setReg (setReg ({ ready with pb0 := { cmd := 2, phase := .t1, rblocks := 2 } }) (pr 0 Reg.PB_STAT) 0x13) (pr 0 Reg.PB_LEN) 40; let p : PortNo := 0; let b : Bytes := []; let good : Bool := false; ((port s p.val).phase = .t1 ∨ (port s p.val).phase = .ifs) ∧ ((good = false ∨ ((port s p.val).phase = .t1 ∧ (byteAt b 1) < 0x80 ∧ ((port s p.val).sent + (port s p.val).lastLen < (txBytes s p.val).length ∨ (byteAt b 1).testBit 6 ≠ (port s p.val).nr)) ∨ ((port s p.val).phase = .t1 ∧ 0xC0 ≤ (byteAt b 1) ∧ (byteAt b 1) ≠ 0xC3 ∧ (byteAt b 1) ≠ 0xC1 ∧ (byteAt b 1) ≠ 0xC2 ∧ ((byteAt b 1) = 0xE0 → (port s p.val).resyncs = 0)) ∨ ((port s p.val).phase = .ifs ∧ ¬ ((byteAt b 1) = 0xE1 ∧ (sl b 3 (byteAt b 2)) = [254]) ∧ ((byteAt b 1) = 0xE0 → (port s p.val).resyncs = 0)))) ∧ (2 ≤ (port s p.val).rblocks ∨ (port s p.val).resyncs ≠ 0) ∧ ((port s p.val).resyncs < 3)) ∧
    (let s : State := setReg (setReg ({ ready with pb0 := { cmd := 2, phase := .t1, resyncs := 3 } }) (pr 0 Reg.PB_STAT) 0x13) (pr 0 Reg.PB_LEN) 40; let p : PortNo := 0; let b : Bytes := []; let good : Bool := false; ((port s p.val).phase = .t1 ∨ (port s p.val).phase = .ifs) ∧ ((good = false ∨ ((port s p.val).phase = .t1 ∧ (byteAt b 1) < 0x80 ∧ ((port s p.val).sent + (port s p.val).lastLen < (txBytes s p.val).length ∨ (byteAt b 1).testBit 6 ≠ (port s p.val).nr)) ∨ ((port s p.val).phase = .t1 ∧ 0xC0 ≤ (byteAt b 1) ∧ (byteAt b 1) ≠ 0xC3 ∧ (byteAt b 1) ≠ 0xC1 ∧ (byteAt b 1) ≠ 0xC2 ∧ ((byteAt b 1) = 0xE0 → (port s p.val).resyncs = 0)) ∨ ((port s p.val).phase = .ifs ∧ ¬ ((byteAt b 1) = 0xE1 ∧ (sl b 3 (byteAt b 2)) = [254]) ∧ ((byteAt b 1) = 0xE0 → (port s p.val).resyncs = 0)))) ∧ (3 ≤ (port s p.val).resyncs)) ∧
    (let s : State := setReg ({ ready with pb0 := { cmd := 1, phase := .ifs, atr := [0x3B] } }) (pr 0 Reg.PB_STAT) 0x119; let p : PortNo := 0; let b : Bytes := [0, 0xE1, 1, 254, 0]; ((port s p.val).phase = .ifs) ∧ ((byteAt b 1) = 0xE1) ∧ ((sl b 3 (byteAt b 2)) = [254]) ∧ ((port s p.val).atr.length ≤ 33)) ∧
    (let s : State := setReg ({ ready with pb0 := { cmd := 1, phase := .ifs, resyncs := 1 } }) (pr 0 Reg.PB_STAT) 0x119; let p : PortNo := 0; let b : Bytes := [0, 0xE0, 0, 0xE0]; ((port s p.val).phase = .ifs) ∧ ((byteAt b 1) = 0xE0) ∧ ((port s p.val).resyncs ≠ 0)) ∧
    (let s : State := ready; let p : PortNo := 1; let b : Bytes := []; let good : Bool := true; ((port s p.val).phase ≠ .t1) ∧ ((port s p.val).phase ≠ .ifs)) ∧
    (let s : State := setReg ({ ready with pb0 := { cmd := 2, phase := .proc } }) (pr 0 Reg.PB_STAT) 0x3; let p : PortNo := 0; (inT0 (port s p.val) = true)) ∧
    (let s : State := setReg ({ ready with pb0 := { cmd := 1, phase := .atr } }) (pr 0 Reg.PB_STAT) 0x5; let p : PortNo := 0; ((port s p.val).phase = .atr) ∧ ((port s p.val).classes = [])) ∧
    (let s : State := setReg ({ ready with pb0 := { cmd := 1, phase := .atr, classes := [2] } }) (pr 0 Reg.PB_STAT) 0x5; let p : PortNo := 0; let c : Nat := 2; let l : List Nat := []; ((port s p.val).phase = .atr) ∧ ((port s p.val).classes = c :: l)) ∧
    (let s : State := setReg ({ ready with pb0 := { cmd := 1, phase := .pps, last := [0xFF, 0x10, 0x13, 0xFC], atr := [0x3B] } }) (pr 0 Reg.PB_STAT) 0x9; let p : PortNo := 0; ((port s p.val).phase = .pps)) ∧
    (let s : State := setReg (setReg ({ ready with pb0 := { cmd := 2, phase := .t1 } }) (pr 0 Reg.PB_STAT) 0x13) (pr 0 Reg.PB_LEN) 40; let p : PortNo := 0; ((port s p.val).phase = .t1 ∨ (port s p.val).phase = .ifs) ∧ ((port s p.val).rblocks < 2) ∧ ((port s p.val).resyncs = 0)) ∧
    (let s : State := setReg (setReg ({ ready with pb0 := { cmd := 2, phase := .t1, rblocks := 2 } }) (pr 0 Reg.PB_STAT) 0x13) (pr 0 Reg.PB_LEN) 40; let p : PortNo := 0; ((port s p.val).phase = .t1 ∨ (port s p.val).phase = .ifs) ∧ (2 ≤ (port s p.val).rblocks ∨ (port s p.val).resyncs ≠ 0) ∧ ((port s p.val).resyncs < 3)) :=
  by and_intros <;> decide +kernel

/-- States and operands that meet the hypotheses of each clause of PostboxEffects_6: waitFails, waitNot, retry, retryNot, removed, removedIdle, removedNot, inserted, insertedNot. -/
theorem meets_PostboxEffects_6 :
    (let s : State := setReg (setReg ({ ready with pb0 := { cmd := 2, phase := .t1, resyncs := 3 } }) (pr 0 Reg.PB_STAT) 0x13) (pr 0 Reg.PB_LEN) 40; let p : PortNo := 0; ((port s p.val).phase = .t1 ∨ (port s p.val).phase = .ifs) ∧ (3 ≤ (port s p.val).resyncs)) ∧
    (let s : State := ready; let p : PortNo := 1; ((port s p.val).phase = .idle ∨ (port s p.val).phase = .retry)) ∧
    (let s : State := setReg ({ ready with pb0 := { cmd := 1, phase := .retry, classes := [3] } }) (pr 0 Reg.PB_STAT) 0x1; let p : PortNo := 0; let c : Nat := 3; let l : List Nat := []; ((port s p.val).phase = .retry) ∧ ((port s p.val).classes = c :: l) ∧ (c < 4)) ∧
    (let s : State := ready; let p : PortNo := 1; ((port s p.val).phase ≠ .retry ∨ (port s p.val).classes = [])) ∧
    (let s : State := setReg ({ ready with pb0 := { cmd := 2, phase := .proc } }) (pr 0 Reg.PB_STAT) 0x3; let p : PortNo := 0; (pbPresent s p.val = true) ∧ (domOn s 23 = true) ∧ (pbBusy s p.val = true)) ∧
    (let s : State := setReg ({ ready with pb0 := {  } }) (pr 0 Reg.PB_STAT) 0x3; let p : PortNo := 0; (pbPresent s p.val = true) ∧ (domOn s 23 = true) ∧ (pbBusy s p.val = false)) ∧
    (let s : State := ready; let p : PortNo := 1; (pbPresent s p.val = false ∨ domOn s 23 = false)) ∧
    (let s : State := ready; let p : PortNo := 1; (pbPresent s p.val = false) ∧ (domOn s 23 = true)) ∧
    (let s : State := setReg ({ ready with pb0 := {  } }) (pr 0 Reg.PB_STAT) 1; let p : PortNo := 0; (pbPresent s p.val = true ∨ domOn s 23 = false)) :=
  by and_intros <;> decide +kernel

/-- States and operands that meet the hypotheses of each clause of KioskEffects_1: modeNow, modeLater, apply, applyNot, pollA, pollB, transceive, transceiveLength, halt, pollABusy, pollALockdown, pollAState, pollAExtField, pollBBusy. -/
theorem meets_KioskEffects_1 :
    (let s : State := setReg ({ ready with kiosk := { carrier := true } }) Reg.KIOSK_STAT 1; let src : Src := .port 0; let v : BitVec 2 := 2; (Reaches s src Reg.KIOSK_MODE) ∧ (kioskWorks s = false)) ∧
    (let s : State := setReg ({ ready with kiosk := { carrier := true, rd := some .reply } }) Reg.KIOSK_STAT 1; let src : Src := .port 0; let v : BitVec 2 := 2; (Reaches s src Reg.KIOSK_MODE) ∧ (kioskWorks s = true)) ∧
    (let s : State := setReg ({ ready with kiosk := { carrier := true, pend := some 0 } }) Reg.KIOSK_STAT 0x11; let m : Nat := 0; (s.kiosk.pend = some m) ∧ (m < 4) ∧ (kioskWorks s = false)) ∧
    (let s : State := ready; (s.kiosk.pend = none ∨ kioskWorks s = true)) ∧
    (let s : State := setReg (setReg (setReg ({ ready with kiosk := {  } }) Reg.KIOSK_STAT 1) Reg.KIOSK_RD_LEN 3) Reg.KIOSK_RD_CFG 2; let src : Src := .port 0; let ext : Bool := false; (Reaches s src Reg.KIOSK_RD_CMD) ∧ (s.kiosk.rd = none) ∧ (s.kerb.lockdown = false) ∧ (kMode s = 1) ∧ (s.kiosk.carrier = true ∨ (ext = false ∧ s.kiosk.field = false))) ∧
    (let s : State := setReg (setReg (setReg ({ ready with kiosk := {  } }) Reg.KIOSK_STAT 1) Reg.KIOSK_RD_LEN 3) Reg.KIOSK_RD_CFG 2; let src : Src := .port 0; let ext : Bool := false; (Reaches s src Reg.KIOSK_RD_CMD) ∧ (s.kiosk.rd = none) ∧ (s.kerb.lockdown = false) ∧ (kMode s = 1) ∧ (s.kiosk.carrier = true ∨ (ext = false ∧ s.kiosk.field = false))) ∧
    (let s : State := setReg (setReg (setReg ({ ready with kiosk := {  } }) Reg.KIOSK_STAT 1) Reg.KIOSK_RD_LEN 3) Reg.KIOSK_RD_CFG 2; let src : Src := .port 0; let ext : Bool := false; (Reaches s src Reg.KIOSK_RD_CMD) ∧ (s.kiosk.rd = none) ∧ (s.kerb.lockdown = false) ∧ (kMode s = 1) ∧ (s.kiosk.carrier = true ∨ (ext = false ∧ s.kiosk.field = false)) ∧ (0 < (fld s Reg.KIOSK_RD_LEN 8 0)) ∧ ((fld s Reg.KIOSK_RD_LEN 8 0) ≤ 254)) ∧
    (let s : State := setReg ({ ready with kiosk := {  } }) Reg.KIOSK_STAT 1; let src : Src := .port 0; let ext : Bool := false; (Reaches s src Reg.KIOSK_RD_CMD) ∧ (s.kiosk.rd = none) ∧ (s.kerb.lockdown = false) ∧ (kMode s = 1) ∧ (s.kiosk.carrier = true ∨ (ext = false ∧ s.kiosk.field = false)) ∧ ((fld s Reg.KIOSK_RD_LEN 8 0) = 0 ∨ 254 < (fld s Reg.KIOSK_RD_LEN 8 0))) ∧
    (let s : State := setReg (setReg (setReg ({ ready with kiosk := {  } }) Reg.KIOSK_STAT 1) Reg.KIOSK_RD_LEN 3) Reg.KIOSK_RD_CFG 2; let src : Src := .port 0; let ext : Bool := false; (Reaches s src Reg.KIOSK_RD_CMD) ∧ (s.kiosk.rd = none) ∧ (s.kerb.lockdown = false) ∧ (kMode s = 1) ∧ (s.kiosk.carrier = true ∨ (ext = false ∧ s.kiosk.field = false))) ∧
    (let s : State := setReg ({ ready with kiosk := { rd := some .reply, carrier := true } }) Reg.KIOSK_STAT 1; let src : Src := .port 0; let ext : Bool := false; (Reaches s src Reg.KIOSK_RD_CMD) ∧ (s.kiosk.rd.isSome = true) ∧ (rbit s (rk 0x4E Reg.ERR_SYND) 23 = false)) ∧
    (let s : State := setReg ({ ready with kiosk := {  }, kerb := { lockdown := true } }) Reg.KIOSK_STAT 1; let src : Src := .port 0; let ext : Bool := false; (Reaches s src Reg.KIOSK_RD_CMD) ∧ (s.kiosk.rd = none) ∧ (s.kerb.lockdown = true)) ∧
    (let s : State := setReg ({ ready with kiosk := {  } }) Reg.KIOSK_STAT 2; let src : Src := .port 0; let ext : Bool := false; (Reaches s src Reg.KIOSK_RD_CMD) ∧ (s.kiosk.rd = none) ∧ (s.kerb.lockdown = false) ∧ (kMode s ≠ 1)) ∧
    (let s : State := setReg ({ ready with kiosk := {  } }) Reg.KIOSK_STAT 1; let src : Src := .port 0; (Reaches s src Reg.KIOSK_RD_CMD) ∧ (s.kiosk.rd = none) ∧ (s.kerb.lockdown = false) ∧ (kMode s = 1) ∧ (s.kiosk.carrier = false)) ∧
    (let s : State := setReg ({ ready with kiosk := { rd := some .reply, carrier := true } }) Reg.KIOSK_STAT 1; let src : Src := .port 0; let ext : Bool := false; (Reaches s src Reg.KIOSK_RD_CMD) ∧ (s.kiosk.rd.isSome = true) ∧ (rbit s (rk 0x4E Reg.ERR_SYND) 23 = false)) :=
  by and_intros <;> decide +kernel

/-- States and operands that meet the hypotheses of each clause of KioskEffects_2: pollBLockdown, pollBState, pollBExtField, transceiveBusy, transceiveLockdown, transceiveState, transceiveExtField, readerHaltBusy, readerHaltLockdown, readerHaltState, readerHaltExtField, reply, atqa, atqaCollided. -/
theorem meets_KioskEffects_2 :
    (let s : State := setReg ({ ready with kiosk := {  }, kerb := { lockdown := true } }) Reg.KIOSK_STAT 1; let src : Src := .port 0; let ext : Bool := false; (Reaches s src Reg.KIOSK_RD_CMD) ∧ (s.kiosk.rd = none) ∧ (s.kerb.lockdown = true)) ∧
    (let s : State := setReg ({ ready with kiosk := {  } }) Reg.KIOSK_STAT 2; let src : Src := .port 0; let ext : Bool := false; (Reaches s src Reg.KIOSK_RD_CMD) ∧ (s.kiosk.rd = none) ∧ (s.kerb.lockdown = false) ∧ (kMode s ≠ 1)) ∧
    (let s : State := setReg ({ ready with kiosk := {  } }) Reg.KIOSK_STAT 1; let src : Src := .port 0; (Reaches s src Reg.KIOSK_RD_CMD) ∧ (s.kiosk.rd = none) ∧ (s.kerb.lockdown = false) ∧ (kMode s = 1) ∧ (s.kiosk.carrier = false)) ∧
    (let s : State := setReg ({ ready with kiosk := { rd := some .reply, carrier := true } }) Reg.KIOSK_STAT 1; let src : Src := .port 0; let ext : Bool := false; (Reaches s src Reg.KIOSK_RD_CMD) ∧ (s.kiosk.rd.isSome = true) ∧ (rbit s (rk 0x4E Reg.ERR_SYND) 23 = false)) ∧
    (let s : State := setReg ({ ready with kiosk := {  }, kerb := { lockdown := true } }) Reg.KIOSK_STAT 1; let src : Src := .port 0; let ext : Bool := false; (Reaches s src Reg.KIOSK_RD_CMD) ∧ (s.kiosk.rd = none) ∧ (s.kerb.lockdown = true)) ∧
    (let s : State := setReg ({ ready with kiosk := {  } }) Reg.KIOSK_STAT 2; let src : Src := .port 0; let ext : Bool := false; (Reaches s src Reg.KIOSK_RD_CMD) ∧ (s.kiosk.rd = none) ∧ (s.kerb.lockdown = false) ∧ (kMode s ≠ 1)) ∧
    (let s : State := setReg ({ ready with kiosk := {  } }) Reg.KIOSK_STAT 1; let src : Src := .port 0; (Reaches s src Reg.KIOSK_RD_CMD) ∧ (s.kiosk.rd = none) ∧ (s.kerb.lockdown = false) ∧ (kMode s = 1) ∧ (s.kiosk.carrier = false)) ∧
    (let s : State := setReg ({ ready with kiosk := { rd := some .reply, carrier := true } }) Reg.KIOSK_STAT 1; let src : Src := .port 0; let ext : Bool := false; (Reaches s src Reg.KIOSK_RD_CMD) ∧ (s.kiosk.rd.isSome = true) ∧ (rbit s (rk 0x4E Reg.ERR_SYND) 23 = false)) ∧
    (let s : State := setReg ({ ready with kiosk := {  }, kerb := { lockdown := true } }) Reg.KIOSK_STAT 1; let src : Src := .port 0; let ext : Bool := false; (Reaches s src Reg.KIOSK_RD_CMD) ∧ (s.kiosk.rd = none) ∧ (s.kerb.lockdown = true)) ∧
    (let s : State := setReg ({ ready with kiosk := {  } }) Reg.KIOSK_STAT 2; let src : Src := .port 0; let ext : Bool := false; (Reaches s src Reg.KIOSK_RD_CMD) ∧ (s.kiosk.rd = none) ∧ (s.kerb.lockdown = false) ∧ (kMode s ≠ 1)) ∧
    (let s : State := setReg ({ ready with kiosk := {  } }) Reg.KIOSK_STAT 1; let src : Src := .port 0; (Reaches s src Reg.KIOSK_RD_CMD) ∧ (s.kiosk.rd = none) ∧ (s.kerb.lockdown = false) ∧ (kMode s = 1) ∧ (s.kiosk.carrier = false)) ∧
    (let s : State := setReg ({ ready with kiosk := { rd := some .reply, carrier := true } }) Reg.KIOSK_STAT 1; let b : Bytes := toLe 9 0x12345; (s.kiosk.rd = some .reply ∨ s.kiosk.rd = some .atqb) ∧ (b.length ≤ 254)) ∧
    (let s : State := setReg ({ ready with kiosk := { rd := some .atqa, carrier := true } }) Reg.KIOSK_STAT 1; let b : Bytes := [4, 0]; (s.kiosk.rd = some .atqa) ∧ (b.length = 2)) ∧
    (let s : State := setReg ({ ready with kiosk := { rd := some .atqa, carrier := true } }) Reg.KIOSK_STAT 1; let b : Bytes := [4]; let n : Nat := 3; (s.kiosk.rd = some .atqa)) :=
  by and_intros <;> decide +kernel

/-- States and operands that meet the hypotheses of each clause of KioskEffects_3: anticol, anticolCollided, anticolFull, selected, cascade, wrongFrame, badCrc, malformed, collided, frameNot, noReply, noReplyNot, pingCal, ping. -/
theorem meets_KioskEffects_3 :
    (let s : State := setReg ({ ready with kiosk := { rd := some (.anticol 1 [4, 0] [1] 0 0), carrier := true } }) Reg.KIOSK_STAT 1; let a : Bytes := [4, 0]; let u : Bytes := [1]; let b : Bytes := [1, 2, 3, 4, 4]; let l : Nat := 1; let k : Nat := 0; let v : Nat := 0; let cl : Bytes := [1, 2, 3, 4, 4]; (s.kiosk.rd = some (.anticol l a u k v)) ∧ (anticolWhole k v b = some cl) ∧ (cl.foldl (fun x y => x ^^^ y) 0 = 0)) ∧
    (let s : State := setReg ({ ready with kiosk := { rd := some (.anticol 1 [4, 0] [1] 12 0x201), carrier := true } }) Reg.KIOSK_STAT 1; let a : Bytes := [4, 0]; let u : Bytes := [1]; let b : Bytes := [0x30, 0x40, 0x40, 0x00]; let l : Nat := 1; let k : Nat := 12; let v : Nat := 0x201; let n : Nat := 11; (s.kiosk.rd = some (.anticol l a u k v)) ∧ (k + n < 39)) ∧
    (let s : State := setReg ({ ready with kiosk := { rd := some (.anticol 1 [4, 0] [1] 12 0x201), carrier := true } }) Reg.KIOSK_STAT 1; let a : Bytes := [4, 0]; let u : Bytes := [1]; let b : Bytes := [0x30, 0x40, 0x40, 0x00]; let l : Nat := 1; let k : Nat := 12; let v : Nat := 0x201; let n : Nat := 27; (s.kiosk.rd = some (.anticol l a u k v)) ∧ (39 ≤ k + n)) ∧
    (let s : State := setReg ({ ready with kiosk := { rd := some (.sak 0 [4, 0] [] [1, 2, 3, 4, 4]), carrier := true } }) Reg.KIOSK_STAT 1; let a : Bytes := [4, 0]; let u : Bytes := []; let cl : Bytes := [1, 2, 3, 4, 4]; let b : Bytes := [0x20]; let l : Nat := 0; (s.kiosk.rd = some (.sak l a u cl)) ∧ (b.length = 1) ∧ ((byteAt b 0).testBit 2 = false) ∧ ((u ++ cl.take 4 ++ a ++ b).length ≤ 254)) ∧
    (let s : State := setReg ({ ready with kiosk := { rd := some (.sak 0 [4, 0] [] [1, 2, 3, 4, 4]), carrier := true } }) Reg.KIOSK_STAT 1; let a : Bytes := [4, 0]; let u : Bytes := []; let cl : Bytes := [1, 2, 3, 4, 4]; let b : Bytes := [4]; let l : Nat := 0; (s.kiosk.rd = some (.sak l a u cl)) ∧ (b.length = 1) ∧ ((byteAt b 0).testBit 2 = true) ∧ (l < 2)) ∧
    (let s : State := setReg ({ ready with kiosk := { rd := some .atqa, carrier := true } }) Reg.KIOSK_STAT 1; let b : Bytes := [1]; ((match s.kiosk.rd with | some .atqa => decide (b.length ≠ 2) | some (.anticol _ _ _ k v) => (anticolWhole k v b).all (fun cl => cl.foldl (fun x y => x ^^^ y) 0 != 0) | some (.sak l _ _ _) => decide (b.length ≠ 1 ∨ ((byteAt b 0).testBit 2 = true ∧ 2 ≤ l)) | some _ => decide (254 < b.length) | none => false) = true)) ∧
    (let s : State := setReg ({ ready with kiosk := { rd := some .reply, carrier := true } }) Reg.KIOSK_STAT 1; (s.kiosk.rd.isSome = true)) ∧
    (let s : State := setReg ({ ready with kiosk := { rd := some .reply, carrier := true } }) Reg.KIOSK_STAT 1; (s.kiosk.rd.isSome = true)) ∧
    (let s : State := setReg ({ ready with kiosk := { rd := some .atqb, carrier := true } }) Reg.KIOSK_STAT 1; let b : Bytes := []; let n : Nat := 0; ((match s.kiosk.rd with | some .atqb => true | some .reply => true | some (.sak _ _ _ _) => true | _ => false) = true)) ∧
    (let s : State := ready; let f : RdFrame := .badCrc; (s.kiosk.rd = none)) ∧
    (let s : State := setReg ({ ready with kiosk := { rd := some .reply, carrier := true } }) Reg.KIOSK_STAT 1; (s.kiosk.rd.isSome = true)) ∧
    (let s : State := ready; (s.kiosk.rd = none)) ∧
    (let s : State := setReg ({ ready with kiosk := { calib := true } }) Reg.KIOSK_STAT 3; let amp : BitVec 10 := 0x155; (kioskOn s = true) ∧ (kMode s = 3) ∧ (s.kiosk.field = false) ∧ (s.kiosk.calib = true)) ∧
    (let s : State := setReg ({ ready with kiosk := {  } }) Reg.KIOSK_STAT 3; let amp : BitVec 10 := 0x155; (kioskOn s = true) ∧ (kMode s = 3) ∧ (s.kiosk.field = false) ∧ (s.kiosk.calib = false) ∧ (fld s Reg.KIOSK_LPCD_CFG 25 16 < max (fld s Reg.KIOSK_LPCD_REF 9 0) amp.toNat - min (fld s Reg.KIOSK_LPCD_REF 9 0) amp.toNat)) :=
  by and_intros <;> decide +kernel

/-- States and operands that meet the hypotheses of each clause of KioskEffects_4: pingNear, pingNot, calibrate, field, fieldElsewhere, fieldPower, fieldOff, fieldNot, fieldGone, fieldGoneElsewhere, fieldPowerGone, fieldOffNot, reqa, wupa. -/
theorem meets_KioskEffects_4 :
    (let s : State := setReg ({ ready with kiosk := {  } }) Reg.KIOSK_STAT 3; let amp : BitVec 10 := 0; (kioskOn s = true) ∧ (kMode s = 3) ∧ (s.kiosk.field = false) ∧ (s.kiosk.calib = false) ∧ (max (fld s Reg.KIOSK_LPCD_REF 9 0) amp.toNat - min (fld s Reg.KIOSK_LPCD_REF 9 0) amp.toNat ≤ fld s Reg.KIOSK_LPCD_CFG 25 16)) ∧
    (let s : State := ready; let ext : Bool := true; let amp : BitVec 10 := 5; (kioskOn s = false ∨ kMode s ≠ 3 ∨ ext = true ∨ s.kiosk.field = true)) ∧
    (let s : State := setReg ({ ready with kiosk := {  } }) Reg.KIOSK_STAT 3; let src : Src := .core 1; (Reaches s src Reg.KIOSK_LPCD_CFG)) ∧
    (let s : State := setReg (setReg ({ ready with kiosk := {  } }) Reg.KIOSK_STAT 2) Reg.KIOSK_HARV_CTRL 0x31; let strong : Bool := false; (s.mainOn = true) ∧ (domOn s 22 = true) ∧ (kMode s = 2) ∧ (s.kiosk.field = false)) ∧
    (let s : State := setReg ({ ready with kiosk := {  } }) Reg.KIOSK_STAT 1; let strong : Bool := true; (s.mainOn = true) ∧ (domOn s 22 = true) ∧ (kMode s ≠ 2) ∧ (s.kiosk.field = false) ∧ (s.kiosk.harv = (0, 0))) ∧
    (let s : State := { ready with mainOn := false, fer := { plcA := some { bank := true, len := 3, uid := [1, 2, 3, 4, 5, 6, 7], fwi := 4, fieldTag := true, seq := 5 }, bank1 := [7, 8, 9] } }; (s.mainOn = false) ∧ (s.kiosk.field = false) ∧ (((placard s).getD noPlacard).fieldTag = true)) ∧
    (let s : State := { ready with mainOn := false }; let strong : Bool := false; ((if s.mainOn then domOn s 22 = false else strong = false ∨ ((placard s).getD noPlacard).fieldTag = false)) ∧ (s.kiosk.field = false)) ∧
    (let s : State := setReg ({ ready with kiosk := { field := true } }) Reg.KIOSK_STAT 6; let strong : Bool := true; (s.kiosk.field = true)) ∧
    (let s : State := setReg (setReg (setReg ({ ready with kiosk := { latched := some { bank := true, len := 3, uid := [1, 2, 3, 4, 5, 6, 7], fwi := 4, fieldTag := true, seq := 5 }, tag := .protocol } }) Reg.KIOSK_STAT 6) Reg.KIOSK_MBX_CTRL 4) Reg.KIOSK_BUF 7; (s.kiosk.fieldPowered = false) ∧ (kioskOn s = true) ∧ (fieldOn' s = true) ∧ (kMode s = 2)) ∧
    (let s : State := setReg ({ ready with kiosk := { field := true } }) Reg.KIOSK_STAT 5; (s.kiosk.fieldPowered = false) ∧ (kioskOn s = true) ∧ (fieldOn' s = true) ∧ (kMode s ≠ 2)) ∧
    (let s : State := setReg ({ ready with kiosk := { fieldPowered := true, latched := some { bank := true, len := 3, uid := [1, 2, 3, 4, 5, 6, 7], fwi := 4, fieldTag := true, seq := 5 }, tag := .protocol }, mainOn := false }) Reg.KIOSK_STAT 6; (s.kiosk.fieldPowered = true)) ∧
    (let s : State := ready; (s.kiosk.fieldPowered = false) ∧ (kioskOn s = false ∨ fieldOn' s = false)) ∧
    (let s : State := setReg ({ ready with kiosk := {  }, fer := { plcA := some { bank := true, len := 3, uid := [1, 2, 3, 4, 5, 6, 7], fwi := 4, fieldTag := true, seq := 5 }, bank1 := [7, 8, 9] } }) Reg.KIOSK_STAT 6; (tagOn s = true) ∧ (s.kiosk.tag = .idle)) ∧
    (let s : State := setReg ({ ready with kiosk := { tag := .halt }, fer := { plcA := some { bank := true, len := 3, uid := [1, 2, 3, 4, 5, 6, 7], fwi := 4, fieldTag := true, seq := 5 }, bank1 := [7, 8, 9] } }) Reg.KIOSK_STAT 6; (tagOn s = true) ∧ (s.kiosk.tag = .idle ∨ s.kiosk.tag = .halt)) :=
  by and_intros <;> decide +kernel

/-- States and operands that meet the hypotheses of each clause of KioskEffects_5: anticolTag, selectLevel, selectTag, selectOther, rats, pps, deselect, hltaTag, tagFrameNot, selectApp, selectPlacard, selectMailbox, selectMailboxNot, readPlacard. -/
theorem meets_KioskEffects_5 :
    (let s : State := setReg ({ ready with kiosk := { tag := .ready1 }, fer := { plcA := some { bank := true, len := 3, uid := [1, 2, 3, 4, 5, 6, 7], fwi := 4, fieldTag := true, seq := 5 }, bank1 := [7, 8, 9] } }) Reg.KIOSK_STAT 6; let l : Bool := false; (tagOn s = true) ∧ (s.kiosk.tag = (if l then .ready2 else .ready1))) ∧
    (let s : State := setReg ({ ready with kiosk := { tag := .ready1 }, fer := { plcA := some { bank := true, len := 3, uid := [1, 2, 3, 4, 5, 6, 7], fwi := 4, fieldTag := true, seq := 5 }, bank1 := [7, 8, 9] } }) Reg.KIOSK_STAT 6; (tagOn s = true) ∧ (s.kiosk.tag = .ready1)) ∧
    (let s : State := setReg ({ ready with kiosk := { tag := .ready2 }, fer := { plcA := some { bank := true, len := 3, uid := [1, 2, 3, 4, 5, 6, 7], fwi := 4, fieldTag := true, seq := 5 }, bank1 := [7, 8, 9] } }) Reg.KIOSK_STAT 6; (tagOn s = true) ∧ (s.kiosk.tag = .ready2)) ∧
    (let s : State := setReg ({ ready with kiosk := { tag := .ready1 }, fer := { plcA := some { bank := true, len := 3, uid := [1, 2, 3, 4, 5, 6, 7], fwi := 4, fieldTag := true, seq := 5 }, bank1 := [7, 8, 9] } }) Reg.KIOSK_STAT 6; let l : Bool := false; let u : Bytes := []; (tagOn s = true) ∧ (s.kiosk.tag = (if l then .ready2 else .ready1)) ∧ (u ≠ uidLevel s l)) ∧
    (let s : State := setReg ({ ready with kiosk := { tag := .active }, fer := { plcA := some { bank := true, len := 3, uid := [1, 2, 3, 4, 5, 6, 7], fwi := 4, fieldTag := true, seq := 5 }, bank1 := [7, 8, 9] } }) Reg.KIOSK_STAT 6; let n : Byte := 0x80; (tagOn s = true) ∧ (s.kiosk.tag = .active)) ∧
    (let s : State := setReg ({ ready with kiosk := { tag := .protocol }, fer := { plcA := some { bank := true, len := 3, uid := [1, 2, 3, 4, 5, 6, 7], fwi := 4, fieldTag := true, seq := 5 }, bank1 := [7, 8, 9] } }) Reg.KIOSK_STAT 6; let a : Byte := 1; let b : Byte := 0xA; (tagOn s = true) ∧ (s.kiosk.tag = .protocol)) ∧
    (let s : State := setReg ({ ready with kiosk := { latched := some { bank := true, len := 3, uid := [1, 2, 3, 4, 5, 6, 7], fwi := 4, fieldTag := true, seq := 5 }, tag := .protocol } }) Reg.KIOSK_STAT 6; (tagOn s = true) ∧ (s.kiosk.tag = .protocol) ∧ (s.kiosk.pend = none)) ∧
    (let s : State := setReg ({ ready with kiosk := { latched := some { bank := true, len := 3, uid := [1, 2, 3, 4, 5, 6, 7], fwi := 4, fieldTag := true, seq := 5 }, tag := .active } }) Reg.KIOSK_STAT 6; (tagOn s = true) ∧ (s.kiosk.tag = .active) ∧ (s.kiosk.pend = none)) ∧
    (let s : State := ready; let f : TagFrame := .reqa; (tagOn s = false ∨ (match f with | .reqa => s.kiosk.tag ≠ .idle | .wupa => s.kiosk.tag ≠ .idle ∧ s.kiosk.tag ≠ .halt | .anticol l => s.kiosk.tag ≠ (if l then .ready2 else .ready1) | .select l _ => s.kiosk.tag ≠ (if l then .ready2 else .ready1) | .rats _ => s.kiosk.tag ≠ .active | .pps _ _ => s.kiosk.tag ≠ .protocol | .deselect => s.kiosk.tag ≠ .protocol | .hlta => s.kiosk.tag ≠ .active))) ∧
    (let s : State := setReg ({ ready with kiosk := { latched := some { bank := true, len := 3, uid := [1, 2, 3, 4, 5, 6, 7], fwi := 4, fieldTag := true, seq := 5 }, tag := .protocol } }) Reg.KIOSK_STAT 6; (tagOn s = true) ∧ (s.kiosk.tag = .protocol) ∧ (s.kiosk.wtx = none) ∧ (s.kiosk.pend = none)) ∧
    (let s : State := setReg ({ ready with kiosk := { latched := some { bank := true, len := 3, uid := [1, 2, 3, 4, 5, 6, 7], fwi := 4, fieldTag := true, seq := 5 }, tag := .protocol } }) Reg.KIOSK_STAT 6; (tagOn s = true) ∧ (s.kiosk.tag = .protocol) ∧ (s.kiosk.wtx = none) ∧ (s.kiosk.pend = none)) ∧
    (let s : State := setReg ({ ready with kiosk := { latched := some { bank := true, len := 3, uid := [1, 2, 3, 4, 5, 6, 7], fwi := 4, fieldTag := true, seq := 5 }, tag := .protocol } }) Reg.KIOSK_STAT 6; (tagOn s = true) ∧ (s.kiosk.tag = .protocol) ∧ (s.kiosk.wtx = none) ∧ (s.kiosk.pend = none) ∧ (s.mainOn = true)) ∧
    (let s : State := setReg ({ ready with kiosk := { fieldPowered := true, tag := .protocol }, mainOn := false }) Reg.KIOSK_STAT 6; (tagOn s = true) ∧ (s.kiosk.tag = .protocol) ∧ (s.kiosk.wtx = none) ∧ (s.kiosk.pend = none) ∧ (s.mainOn = false)) ∧
    (let s : State := setReg ({ ready with kiosk := { latched := some { bank := true, len := 3, uid := [1, 2, 3, 4, 5, 6, 7], fwi := 4, fieldTag := true, seq := 5 }, tag := .protocol, file := some false }, fer := { plcA := some { bank := true, len := 3, uid := [1, 2, 3, 4, 5, 6, 7], fwi := 4, fieldTag := true, seq := 5 }, bank1 := [7, 8, 9] } }) Reg.KIOSK_STAT 6; let a : Bytes := [0, 0xB0, 0, 0, 2]; (tagOn s = true) ∧ (s.kiosk.tag = .protocol) ∧ (s.kiosk.wtx = none) ∧ (s.kiosk.pend = none) ∧ (s.kiosk.file = some false) ∧ (apduRead a = true)) :=
  by and_intros <;> decide +kernel

/-- States and operands that meet the hypotheses of each clause of KioskEffects_6: apduRefused, apduUnknown, mailboxLockdown, mailboxHeld, readMailbox, writeMailbox, writeOutside, apduNot, extend, expired, expiredNot, kick, unmute, unmuteNot. -/
theorem meets_KioskEffects_6 :
    (let s : State := setReg ({ ready with kiosk := { latched := some { bank := true, len := 3, uid := [1, 2, 3, 4, 5, 6, 7], fwi := 4, fieldTag := true, seq := 5 }, tag := .protocol } }) Reg.KIOSK_STAT 6; let a : Bytes := [0, 0xB0, 0, 0, 2]; (tagOn s = true) ∧ (s.kiosk.tag = .protocol) ∧ (s.kiosk.wtx = none) ∧ (s.kiosk.pend = none) ∧ ((s.kiosk.file = none ∧ (apduRead a = true ∨ apduUpdate a = true)) ∨ (s.kiosk.file = some false ∧ 2 ≤ a.length ∧ byteAt a 0 = 0 ∧ byteAt a 1 = 0xD6))) ∧
    (let s : State := setReg ({ ready with kiosk := { latched := some { bank := true, len := 3, uid := [1, 2, 3, 4, 5, 6, 7], fwi := 4, fieldTag := true, seq := 5 }, tag := .protocol } }) Reg.KIOSK_STAT 6; let a : Bytes := [0, 0xB0, 0, 0]; (tagOn s = true) ∧ (s.kiosk.tag = .protocol) ∧ (s.kiosk.wtx = none) ∧ (s.kiosk.pend = none) ∧ (a ≠ [0x00, 0xA4, 0x04, 0x00, 0x06, 0xF0, 0x46, 0x5A, 0x58, 0x4B, 0x01]) ∧ (a ≠ [0x00, 0xA4, 0x00, 0x0C, 0x02, 0x00, 0x01]) ∧ (a ≠ [0x00, 0xA4, 0x00, 0x0C, 0x02, 0x00, 0x02]) ∧ (apduRead a = false) ∧ (apduUpdate a = false) ∧ (¬ (s.kiosk.file = some false ∧ 2 ≤ a.length ∧ byteAt a 0 = 0 ∧ byteAt a 1 = 0xD6))) ∧
    (let s : State := setReg ({ ready with kiosk := { latched := some { bank := true, len := 3, uid := [1, 2, 3, 4, 5, 6, 7], fwi := 4, fieldTag := true, seq := 5 }, tag := .protocol, file := some true }, fer := { plcA := some { bank := true, len := 3, uid := [1, 2, 3, 4, 5, 6, 7], fwi := 4, fieldTag := true, seq := 5 }, bank1 := [7, 8, 9] }, kerb := { lockdown := true } }) Reg.KIOSK_STAT 6; let a : Bytes := [0, 0xB0, 0, 0, 2]; (tagOn s = true) ∧ (s.kiosk.tag = .protocol) ∧ (s.kiosk.wtx = none) ∧ (s.kiosk.file = some true) ∧ (apduRead a = true ∨ apduUpdate a = true) ∧ (s.kiosk.pend = none) ∧ (s.kerb.lockdown = true)) ∧
    (let s : State := setReg (setReg ({ ready with kiosk := { latched := some { bank := true, len := 3, uid := [1, 2, 3, 4, 5, 6, 7], fwi := 4, fieldTag := true, seq := 5 }, tag := .protocol, file := some true }, fer := { plcA := some { bank := true, len := 3, uid := [1, 2, 3, 4, 5, 6, 7], fwi := 4, fieldTag := true, seq := 5 }, bank1 := [7, 8, 9] } }) Reg.KIOSK_STAT 6) Reg.KIOSK_MBX_CTRL 3; let a : Bytes := [0, 0xB0, 0, 0, 2]; (tagOn s = true) ∧ (s.kiosk.tag = .protocol) ∧ (s.kiosk.wtx = none) ∧ (s.kiosk.file = some true) ∧ (apduRead a = true ∨ apduUpdate a = true) ∧ (s.kerb.lockdown = false) ∧ (holdGnt s = true)) ∧
    (let s : State := setReg ({ ready with kiosk := { latched := some { bank := true, len := 3, uid := [1, 2, 3, 4, 5, 6, 7], fwi := 4, fieldTag := true, seq := 5 }, tag := .protocol, file := some true }, fer := { plcA := some { bank := true, len := 3, uid := [1, 2, 3, 4, 5, 6, 7], fwi := 4, fieldTag := true, seq := 5 }, bank1 := [7, 8, 9] } }) Reg.KIOSK_STAT 6; let a : Bytes := [0, 0xB0, 0, 3, 2]; (tagOn s = true) ∧ (s.kiosk.tag = .protocol) ∧ (s.kiosk.wtx = none) ∧ (s.kiosk.file = some true) ∧ (s.kerb.lockdown = false) ∧ (holdGnt s = false) ∧ (s.kiosk.pend = none) ∧ (apduRead a = true)) ∧
    (let s : State := setReg ({ ready with kiosk := { latched := some { bank := true, len := 3, uid := [1, 2, 3, 4, 5, 6, 7], fwi := 4, fieldTag := true, seq := 5 }, tag := .protocol, file := some true }, fer := { plcA := some { bank := true, len := 3, uid := [1, 2, 3, 4, 5, 6, 7], fwi := 4, fieldTag := true, seq := 5 }, bank1 := [7, 8, 9] } }) Reg.KIOSK_STAT 6; let a : Bytes := [0, 0xD6, 0, 3, 2, 0x11, 0x22]; (tagOn s = true) ∧ (s.kiosk.tag = .protocol) ∧ (s.kiosk.wtx = none) ∧ (s.kiosk.file = some true) ∧ (s.kerb.lockdown = false) ∧ (holdGnt s = false) ∧ (domOn s 22 = true) ∧ (apduUpdate a = true) ∧ (apduOff a + byteAt a 4 ≤ 256)) ∧
    (let s : State := setReg ({ ready with kiosk := { latched := some { bank := true, len := 3, uid := [1, 2, 3, 4, 5, 6, 7], fwi := 4, fieldTag := true, seq := 5 }, tag := .protocol, file := some true }, fer := { plcA := some { bank := true, len := 3, uid := [1, 2, 3, 4, 5, 6, 7], fwi := 4, fieldTag := true, seq := 5 }, bank1 := [7, 8, 9] } }) Reg.KIOSK_STAT 6; let a : Bytes := [0, 0xD6, 1, 0, 2, 0x11, 0x22]; (tagOn s = true) ∧ (s.kiosk.tag = .protocol) ∧ (s.kiosk.wtx = none) ∧ (s.kiosk.file = some true) ∧ (s.kerb.lockdown = false) ∧ (holdGnt s = false) ∧ (s.kiosk.pend = none) ∧ (apduUpdate a = true) ∧ (256 < apduOff a + byteAt a 4)) ∧
    (let s : State := ready; let a : Bytes := []; let ok : Bool := true; (tagOn s = false ∨ s.kiosk.tag ≠ .protocol ∨ s.kiosk.wtx.isSome = true ∨ ok = false)) ∧
    (let s : State := setReg ({ ready with kiosk := { wtx := some ([0, 0xB0, 0, 0, 2], 3) } }) Reg.KIOSK_STAT 6; let a : Bytes := [0, 0xB0, 0, 0, 2]; let n : Nat := 3; (s.kiosk.wtx = some (a, n)) ∧ (n < 8)) ∧
    (let s : State := setReg ({ ready with kiosk := { wtx := some ([0, 0xB0, 0, 0, 2], 8) } }) Reg.KIOSK_STAT 6; let a : Bytes := [0, 0xB0, 0, 0, 2]; let n : Nat := 8; (s.kiosk.wtx = some (a, n)) ∧ (8 ≤ n)) ∧
    (let s : State := ready; (s.kiosk.wtx = none)) ∧
    (let s : State := setReg ({ ready with kiosk := { latched := some { bank := true, len := 3, uid := [1, 2, 3, 4, 5, 6, 7], fwi := 4, fieldTag := true, seq := 5 }, tag := .protocol } }) Reg.KIOSK_STAT 6; let src : Src := .port 0; (Reaches s src Reg.KIOSK_TAG_CFG)) ∧
    (let s : State := setReg ({ ready with kiosk := { muted := true } }) Reg.KIOSK_STAT 2; (s.kiosk.field = false)) ∧
    (let s : State := setReg ({ ready with kiosk := { muted := true, field := true } }) Reg.KIOSK_STAT 6; (s.kiosk.field = true)) :=
  by and_intros <;> decide +kernel

/-- States and operands that meet the hypotheses of each clause of KioskEffects_7: commit, commitWaits, commitLength, commitLockdown, commitBusy, stored, notStored, storedNot, hold, holdWaits, release, releaseLockdown, releaseReads, releaseWrites. -/
theorem meets_KioskEffects_7 :
    (let s : State := setReg ({ ready with kiosk := {  }, fer := { plcA := some { bank := true, len := 3, uid := [1, 2, 3, 4, 5, 6, 7], fwi := 4, fieldTag := true, seq := 5 }, bank1 := [7, 8, 9] } }) Reg.KIOSK_STAT 2; let src : Src := .port 0; let len : BitVec 12 := 5; (Reaches s src Reg.KIOSK_PLC_CMD) ∧ (s.kiosk.plc = none) ∧ (s.kerb.lockdown = false) ∧ (0 < len.toNat) ∧ (len.toNat ≤ 2048) ∧ ((s.kiosk.latched.any fun l => l.bank == !((placard s).getD { noPlacard with bank := true }).bank) = false)) ∧
    (let s : State := setReg ({ ready with kiosk := { latched := some { bank := false, len := 3, uid := [1, 2, 3, 4, 5, 6, 7], fwi := 4, fieldTag := true, seq := 5 } }, fer := { plcA := some { bank := true, len := 3, uid := [1, 2, 3, 4, 5, 6, 7], fwi := 4, fieldTag := true, seq := 5 }, bank1 := [7, 8, 9] } }) Reg.KIOSK_STAT 2; let src : Src := .port 0; let len : BitVec 12 := 5; (Reaches s src Reg.KIOSK_PLC_CMD) ∧ (s.kiosk.plc = none) ∧ (s.kerb.lockdown = false) ∧ (0 < len.toNat) ∧ (len.toNat ≤ 2048) ∧ ((s.kiosk.latched.any fun l => l.bank == !((placard s).getD { noPlacard with bank := true }).bank) = true)) ∧
    (let s : State := setReg ({ ready with kiosk := {  }, fer := { plcA := some { bank := true, len := 3, uid := [1, 2, 3, 4, 5, 6, 7], fwi := 4, fieldTag := true, seq := 5 }, bank1 := [7, 8, 9] } }) Reg.KIOSK_STAT 2; let src : Src := .port 0; let len : BitVec 12 := 0x801; (Reaches s src Reg.KIOSK_PLC_CMD) ∧ (s.kiosk.plc = none) ∧ (s.kerb.lockdown = false) ∧ (len.toNat = 0 ∨ 2048 < len.toNat)) ∧
    (let s : State := setReg ({ ready with kiosk := {  }, fer := { plcA := some { bank := true, len := 3, uid := [1, 2, 3, 4, 5, 6, 7], fwi := 4, fieldTag := true, seq := 5 }, bank1 := [7, 8, 9] }, kerb := { lockdown := true } }) Reg.KIOSK_STAT 2; let src : Src := .port 0; let len : BitVec 12 := 5; (Reaches s src Reg.KIOSK_PLC_CMD) ∧ (s.kiosk.plc = none) ∧ (s.kerb.lockdown = true)) ∧
    (let s : State := setReg ({ ready with kiosk := { plc := some (.runs { bank := false, len := 2, uid := [], fwi := 4, fieldTag := false, seq := 6 } [5, 6]) }, fer := { plcA := some { bank := true, len := 3, uid := [1, 2, 3, 4, 5, 6, 7], fwi := 4, fieldTag := true, seq := 5 }, bank1 := [7, 8, 9] } }) Reg.KIOSK_STAT 2; let src : Src := .port 0; let len : BitVec 12 := 5; (Reaches s src Reg.KIOSK_PLC_CMD) ∧ (s.kiosk.plc.isSome = true) ∧ (rbit s (rk 0x4E Reg.ERR_SYND) 23 = false)) ∧
    (let s : State := setReg ({ ready with kiosk := { plc := some (.runs { bank := false, len := 2, uid := [], fwi := 4, fieldTag := false, seq := 6 } [5, 6]) }, fer := { plcA := some { bank := true, len := 3, uid := [1, 2, 3, 4, 5, 6, 7], fwi := 4, fieldTag := true, seq := 5 }, bank1 := [7, 8, 9] } }) Reg.KIOSK_STAT 2; let r : PlcRec := { bank := false, len := 2, uid := [], fwi := 4, fieldTag := false, seq := 6 }; let d : Bytes := [5, 6]; (s.kiosk.plc = some (.runs r d))) ∧
    (let s : State := setReg ({ ready with kiosk := { plc := some (.runs { bank := false, len := 2, uid := [], fwi := 4, fieldTag := false, seq := 6 } [5, 6]) }, fer := { plcA := some { bank := true, len := 3, uid := [1, 2, 3, 4, 5, 6, 7], fwi := 4, fieldTag := true, seq := 5 }, bank1 := [7, 8, 9] } }) Reg.KIOSK_STAT 2; let r : PlcRec := { bank := false, len := 2, uid := [], fwi := 4, fieldTag := false, seq := 6 }; let d : Bytes := [5, 6]; (s.kiosk.plc = some (.runs r d))) ∧
    (let s : State := setReg ({ ready with kiosk := { plc := some (.waits 2) } }) Reg.KIOSK_STAT 2; let ok : Bool := true; ((match s.kiosk.plc with | some (.runs _ _) => false | _ => true) = true)) ∧
    (let s : State := setReg ({ ready with kiosk := {  } }) Reg.KIOSK_STAT 2; let src : Src := .port 0; (Reaches s src Reg.KIOSK_MBX_CTRL) ∧ (s.kiosk.wtx = none)) ∧
    (let s : State := setReg ({ ready with kiosk := { wtx := some ([0, 0xB0, 0, 0, 2], 2) } }) Reg.KIOSK_STAT 6; let src : Src := .port 0; (Reaches s src Reg.KIOSK_MBX_CTRL) ∧ (s.kiosk.wtx.isSome = true)) ∧
    (let s : State := setReg (setReg ({ ready with kiosk := {  } }) Reg.KIOSK_STAT 6) Reg.KIOSK_MBX_CTRL 3; let src : Src := .port 0; (Reaches s src Reg.KIOSK_MBX_CTRL) ∧ (s.kiosk.wtx = none)) ∧
    (let s : State := setReg (setReg ({ ready with kiosk := { wtx := some ([0, 0xB0, 0, 0, 2], 2) }, kerb := { lockdown := true } }) Reg.KIOSK_STAT 6) Reg.KIOSK_MBX_CTRL 3; let src : Src := .port 0; let a : Bytes := [0, 0xB0, 0, 0, 2]; let n : Nat := 2; (Reaches s src Reg.KIOSK_MBX_CTRL) ∧ (s.kiosk.wtx = some (a, n)) ∧ (s.kiosk.pend = none) ∧ (s.kerb.lockdown = true)) ∧
    (let s : State := setReg (setReg ({ ready with kiosk := { wtx := some ([0, 0xB0, 0, 0, 2], 2) } }) Reg.KIOSK_STAT 6) Reg.KIOSK_MBX_CTRL 3; let src : Src := .port 0; let a : Bytes := [0, 0xB0, 0, 0, 2]; let n : Nat := 2; (Reaches s src Reg.KIOSK_MBX_CTRL) ∧ (s.kiosk.wtx = some (a, n)) ∧ (s.kerb.lockdown = false) ∧ (s.kiosk.pend = none) ∧ (byteAt a 1 = 0xB0)) ∧
    (let s : State := setReg (setReg ({ ready with kiosk := { wtx := some ([0, 0xD6, 0, 3, 2, 0x11, 0x22], 2) } }) Reg.KIOSK_STAT 6) Reg.KIOSK_MBX_CTRL 3; let src : Src := .port 0; let a : Bytes := [0, 0xD6, 0, 3, 2, 0x11, 0x22]; let n : Nat := 2; (Reaches s src Reg.KIOSK_MBX_CTRL) ∧ (s.kiosk.wtx = some (a, n)) ∧ (s.kerb.lockdown = false) ∧ (byteAt a 1 ≠ 0xB0) ∧ (apduOff a + byteAt a 4 ≤ 256) ∧ (byteAt a 4 + 5 ≤ a.length)) :=
  by and_intros <;> decide +kernel

/-- States and operands that meet the hypotheses of each clause of PowerAndBoot_1: off, refused, offAgain, on, onAgain, offDone, offRegisters, coresOff, crossingOff, kioskOff, cardsOff, offThenOn, offDoneNot, onDone. -/
theorem meets_PowerAndBoot_1 :
    (let s : State := ready; let src : Src := .core 0; let n : DomNo := 4; (Reaches s src Reg.PWR_REQ) ∧ (offReason s n.val = none) ∧ (rbit s Reg.PWR_REQ n.val = true)) ∧
    (let s : State := ready; let src : Src := .core 0; let n : DomNo := 12; let r : Nat := 1; (Reaches s src Reg.PWR_REQ) ∧ (offReason s n.val = some r) ∧ (∀ m : DomNo, m.val < n.val → rbit s Reg.PWR_REQ m.val = true ∨ offReason s m.val = none)) ∧
    (let s : State := setReg ready Reg.PWR_REQ (reg ready Reg.PWR_REQ &&& 0xFFFFFFEF); let src : Src := .core 0; let n : DomNo := 4; (Reaches s src Reg.PWR_REQ) ∧ (rbit s Reg.PWR_REQ n.val = false) ∧ (∀ m : DomNo, rbit s Reg.PWR_REQ m.val = true ∨ offReason s m.val = none)) ∧
    (let s : State := setReg (setReg ready Reg.PWR_REQ (reg ready Reg.PWR_REQ &&& 0xFFFFFFEF)) Reg.PWR_STAT (reg ready Reg.PWR_STAT &&& 0xFFFFFFEF); let src : Src := .core 0; let n : DomNo := 4; (Reaches s src Reg.PWR_REQ) ∧ (rbit s Reg.PWR_REQ n.val = false)) ∧
    (let s : State := ready; let src : Src := .core 0; let n : DomNo := 4; (Reaches s src Reg.PWR_REQ) ∧ (rbit s Reg.PWR_REQ n.val = true) ∧ (∀ m : DomNo, rbit s Reg.PWR_REQ m.val = true ∨ offReason s m.val = none)) ∧
    (let s : State := setReg (setReg ready Reg.PWR_REQ (reg ready Reg.PWR_REQ &&& 0xffffffef)) Reg.PWR_BUSY 0x10; let n : DomNo := 4; (rbit s Reg.PWR_BUSY n.val = true) ∧ (rbit s Reg.PWR_REQ n.val = false) ∧ (domOn s n.val = true) ∧ (drainedDom s n.val = true) ∧ (switchable n.val = true)) ∧
    (let s : State := setReg (setReg ready Reg.PWR_REQ (reg ready Reg.PWR_REQ &&& 0xffffffef)) Reg.PWR_BUSY 0x10; let n : DomNo := 4; (rbit s Reg.PWR_BUSY n.val = true) ∧ (rbit s Reg.PWR_REQ n.val = false) ∧ (domOn s n.val = true) ∧ (drainedDom s n.val = true) ∧ (1 ≤ n.val) ∧ (n.val ≤ 11)) ∧
    (let s : State := setReg (setReg { ready with mem := [(0x2000004, 7)] } Reg.PWR_REQ (reg ready Reg.PWR_REQ &&& 0xfffeffff)) Reg.PWR_BUSY 0x10000; (rbit s Reg.PWR_BUSY 16 = true) ∧ (rbit s Reg.PWR_REQ 16 = false) ∧ (domOn s 16 = true) ∧ (drainedDom s 16 = true)) ∧
    (let s : State := setReg (setReg { ready with xing := { link := true } } Reg.PWR_REQ (reg ready Reg.PWR_REQ &&& 0xfffdffff)) Reg.PWR_BUSY 0x20000; (rbit s Reg.PWR_BUSY 17 = true) ∧ (rbit s Reg.PWR_REQ 17 = false) ∧ (domOn s 17 = true) ∧ (drainedDom s 17 = true) ∧ (s.xing.link = true)) ∧
    (let s : State := setReg (setReg { ready with kiosk := { carrier := true } } Reg.PWR_REQ (reg ready Reg.PWR_REQ &&& 0xffbfffff)) Reg.PWR_BUSY 0x400000; (rbit s Reg.PWR_BUSY 22 = true) ∧ (rbit s Reg.PWR_REQ 22 = false) ∧ (domOn s 22 = true) ∧ (drainedDom s 22 = true)) ∧
    (let s : State := setReg (setReg { ready with pb0 := { cmd := 2, phase := .proc } } Reg.PWR_REQ (reg ready Reg.PWR_REQ &&& 0xff7fffff)) Reg.PWR_BUSY 0x800000; (rbit s Reg.PWR_BUSY 23 = true) ∧ (rbit s Reg.PWR_REQ 23 = false) ∧ (domOn s 23 = true) ∧ (drainedDom s 23 = true) ∧ (s.load = none)) ∧
    (let s : State := setReg ready Reg.PWR_BUSY 0x10; let n : DomNo := 4; (rbit s Reg.PWR_BUSY n.val = true) ∧ (rbit s Reg.PWR_REQ n.val = true) ∧ (domOn s n.val = true) ∧ (drainedDom s n.val = true) ∧ (switchable n.val = true)) ∧
    (let s : State := ready; let n : DomNo := 4; (rbit s Reg.PWR_BUSY n.val = false ∨ domOn s n.val = false ∨ drainedDom s n.val = false)) ∧
    (let s : State := setReg (setReg ready Reg.PWR_STAT (reg ready Reg.PWR_STAT &&& 0xFFFFFFEF)) Reg.PWR_BUSY 0x10; let n : DomNo := 4; (rbit s Reg.PWR_BUSY n.val = true) ∧ (rbit s Reg.PWR_STAT n.val = false) ∧ (rbit s Reg.PWR_REQ n.val = true)) :=
  by and_intros <;> decide +kernel

/-- States and operands that meet the hypotheses of each clause of PowerAndBoot_2: onThenDrains, onDoneNot, sysRst, sysRstNot, rise, riseNot, hubReset, wrongKey, pllLoss, pllLossNot, pllLock, pllLockNot, ready, readyNot. -/
theorem meets_PowerAndBoot_2 :
    (let s : State := setReg (setReg (setReg ready Reg.PWR_STAT (reg ready Reg.PWR_STAT &&& 0xFFFFFFEF)) Reg.PWR_BUSY 0x10) Reg.PWR_REQ (reg ready Reg.PWR_REQ &&& 0xFFFFFFEF); let n : DomNo := 4; (rbit s Reg.PWR_BUSY n.val = true) ∧ (rbit s Reg.PWR_STAT n.val = false) ∧ (rbit s Reg.PWR_REQ n.val = false)) ∧
    (let s : State := ready; let n : DomNo := 4; (rbit s Reg.PWR_BUSY n.val = false ∨ domOn s n.val = true)) ∧
    (let s : State := { ready with tick := 9, xing := { wave := true } }; (s.mainOn = true) ∧ (s.rstHigh = true)) ∧
    (let s : State := State.reset; (s.mainOn = false ∨ s.rstHigh = false)) ∧
    (let s : State := State.reset; (s.mainOn = true) ∧ (s.rstHigh = false)) ∧
    (let s : State := ready; (s.mainOn = false ∨ s.rstHigh = true)) ∧
    (let s : State := { ready with tick := 9, xing := { wave := true } }; let src : Src := .port 1; (Reaches s src Reg.RST_CTRL)) ∧
    (let s : State := { ready with tick := 9, xing := { wave := true } }; let src : Src := .port 1; let k : BitVec 16 := 0xA5C2; (Reaches s src Reg.RST_CTRL) ∧ (k ≠ 0xA5C3)) ∧
    (let s : State := { ready with tick := 9, xing := { wave := true } }; (pllRuns s = true)) ∧
    (let s : State := State.reset; (pllRuns s = false)) ∧
    (let s : State := setFld { State.reset with rstHigh := true } Reg.BOOT_STAT 7 0 1; let r0 : Bool := true; let r1 : Bool := false; (s.mainOn = true) ∧ (bootStage s = 1) ∧ ((r0 || r1) = true)) ∧
    (let s : State := ready; let r0 : Bool := true; let r1 : Bool := false; (s.mainOn = false ∨ bootStage s ≠ 1 ∨ (r0 || r1) = false)) ∧
    (let s : State := setFld { State.reset with rstHigh := true } Reg.BOOT_STAT 7 0 3; let us : BitVec 32 := 1234; (s.mainOn = true) ∧ (bootStage s = 3)) ∧
    (let s : State := ready; let us : BitVec 32 := 1234; (s.mainOn = false ∨ bootStage s ≠ 3)) :=
  by and_intros <;> decide +kernel

/-- States and operands that meet the hypotheses of each clause of PowerAndBoot_3: autoInit, autoNoCard, autoLoad, autoInitFails, autoNot, bootCfg, bootCfgFails, bootCfgLocked, bootCfgLockedSame, bootLba, bootLbaFails, bootLbaLocked, bootLbaLockedSame. -/
theorem meets_PowerAndBoot_3 :
    (let s : State := setReg { ready with autoload := some (true, 64), units := { arc := (List.range 8).map fun n => (n, { kat := false }) } } Reg.DEPOT_STAT 1; let a : Bool × Nat := (true, 64); let ended : Unit := (); (s.autoload = some a) ∧ (bootReady s = true) ∧ (arcTested s = true) ∧ (depotBusy s = false) ∧ (s.load = none) ∧ (bootStage s = 5) ∧ (domOn s 23 = true) ∧ (s.kerb.lockdown = false) ∧ (sdPresent s = true)) ∧
    (let s : State := { ready with autoload := some (true, 64), units := { arc := (List.range 8).map fun n => (n, { kat := false }) } }; let a : Bool × Nat := (true, 64); let ended : Unit := (); (s.autoload = some a) ∧ (bootReady s = true) ∧ (arcTested s = true) ∧ (depotBusy s = false) ∧ (s.load = none) ∧ (bootStage s = 5) ∧ (domOn s 23 = false ∨ s.kerb.lockdown = true ∨ sdPresent s = false)) ∧
    (let s : State := setReg (setFld { ready with autoload := some (true, 64), sd := { op := some { kind := .start, step := 2, idx := 6, cap := 9, auto := true } } } Reg.BOOT_STAT 7 0 6) Reg.DEPOT_STAT 1; let a : Bool × Nat := (true, 64); let o : SdOp := { kind := .start, step := 2, idx := 6, cap := 9, auto := true }; let bits : BitVec 128 := 0; let way : Passage := {}; (s.sd.op = some o) ∧ (o.kind = .start) ∧ (o.wait = .resp) ∧ (o.step = 2) ∧ (o.idx = 6) ∧ (o.abort = false) ∧ (o.auto = true) ∧ (tuned (sdMode s) = false) ∧ (s.sd.retune = false) ∧ (s.autoload = some a) ∧ (bootStage s = 6) ∧ (s.load = none) ∧ (domOn s 23 = true) ∧ (a.2 < 2 ^ 32) ∧ (a.2 + 1 ≤ o.cap % 2 ^ 23 * 1024)) ∧
    (let s : State := setFld { ready with autoload := some (true, 64), sd := { op := some { kind := .start, wait := .busy, auto := true } } } Reg.BOOT_STAT 7 0 6; let a : Bool × Nat := (true, 64); let o : SdOp := { kind := .start, wait := .busy, auto := true }; (s.sd.op = some o) ∧ (o.kind = .start) ∧ (o.auto = true) ∧ (o.wait = .busy) ∧ (s.autoload = some a) ∧ (s.load = none)) ∧
    (let s : State := ready; let ended : Unit := (); (s.autoload = none ∨ bootReady s = false ∨ arcTested s = false ∨ depotBusy s = true ∨ s.load.isSome = true ∨ bootStage s ≠ 5)) ∧
    (let s : State := ready; let src : Src := .port 0; let v : BitVec 3 := 5; let fails : Nat := 2; (Reaches s src Reg.BOOT_CFG) ∧ (rbit s (rk 3 Reg.PAGE_LOCK) 0 = false) ∧ (fails < 3)) ∧
    (let s : State := ready; let src : Src := .port 0; let v : BitVec 3 := 5; let fails : Nat := 3; (Reaches s src Reg.BOOT_CFG) ∧ (rbit s (rk 3 Reg.PAGE_LOCK) 0 = false) ∧ (3 ≤ fails) ∧ (rbit s (rk 3 Reg.ERR_SYND) 23 = false)) ∧
    (let s : State := setReg ready (rk 3 Reg.PAGE_LOCK) 1; let src : Src := .port 0; let v : BitVec 3 := 5; let fails : Nat := 2; (Reaches s src Reg.BOOT_CFG) ∧ (rbit s (rk 3 Reg.PAGE_LOCK) 0 = true) ∧ (s.fer.bootCfg ≠ v.setWidth 32) ∧ (rbit s (rk 3 Reg.ERR_SYND) 23 = false)) ∧
    (let s : State := setReg { ready with fer := { bootCfg := 5 } } (rk 3 Reg.PAGE_LOCK) 1; let src : Src := .port 0; let v : BitVec 3 := 5; let fails : Nat := 2; (Reaches s src Reg.BOOT_CFG) ∧ (rbit s (rk 3 Reg.PAGE_LOCK) 0 = true) ∧ (s.fer.bootCfg = v.setWidth 32)) ∧
    (let s : State := ready; let src : Src := .port 0; let v : BitVec 32 := 5; let fails : Nat := 2; (Reaches s src Reg.BOOT_LBA) ∧ (rbit s (rk 3 Reg.PAGE_LOCK) 0 = false) ∧ (fails < 3)) ∧
    (let s : State := ready; let src : Src := .port 0; let v : BitVec 32 := 5; let fails : Nat := 3; (Reaches s src Reg.BOOT_LBA) ∧ (rbit s (rk 3 Reg.PAGE_LOCK) 0 = false) ∧ (3 ≤ fails) ∧ (rbit s (rk 3 Reg.ERR_SYND) 23 = false)) ∧
    (let s : State := setReg ready (rk 3 Reg.PAGE_LOCK) 1; let src : Src := .port 0; let v : BitVec 32 := 5; let fails : Nat := 2; (Reaches s src Reg.BOOT_LBA) ∧ (rbit s (rk 3 Reg.PAGE_LOCK) 0 = true) ∧ (s.fer.bootLba ≠ v) ∧ (rbit s (rk 3 Reg.ERR_SYND) 23 = false)) ∧
    (let s : State := setReg { ready with fer := { bootLba := 5 } } (rk 3 Reg.PAGE_LOCK) 1; let src : Src := .port 0; let v : BitVec 32 := 5; let fails : Nat := 2; (Reaches s src Reg.BOOT_LBA) ∧ (rbit s (rk 3 Reg.PAGE_LOCK) 0 = true) ∧ (s.fer.bootLba = v)) :=
  by and_intros <;> decide +kernel

/-- A state and operands that meet the hypotheses of the clause sealFails of RegisterAccesses. -/
theorem meets_RegisterAccesses_sealFails :
    (let s : State := ready; let src : Src := .core 3; let key : Nat := Reg.CT_CFG; let v : BitVec 64 := 5; let h : Hit := { code := 1 }; (Reaches s src key) ∧ (key % 4 = 0) ∧ (key < 0x50000) ∧ (AtPages src) ∧ (h.beat = 0) ∧ ((sealPass (accessPage src) (key / 0x1000) none 0 (toLe 4 (BitVec.ofNat 32 v.toNat).toNat) (some h)).2 = false)) :=
  by and_intros <;> first | decide +kernel | exact sealPass_code (by decide) (by decide)

/-- A state and operands that meet the hypotheses of the clause seal of SourceData. -/
theorem meets_SourceData_seal :
    (let s : State := setCtx (setQueue ready 7 ({ rec' := [(0, 0x08800000), (2, 0x00100000), (10, 3), (12, 0x00100000)], state := .enabled, sqTail := 3 } : Queue)) 4 { q := 7, phase := .running, eng := some (.cipher 3), d := { opcode := 0x10, len := 64 }, srcs := [⟨0x1000, 64⟩] }; let c : CtxNo := 4; let x : Ctx := { q := 7, phase := .running, eng := some (.cipher 3), d := { opcode := 0x10, len := 64 }, srcs := [⟨0x1000, 64⟩] }; let u : CipherUnit := 3; let bytes : Bytes := toLe 16 5; let hit : Option Hit := some { code := 1 }; (ctxAt s c.val = some x) ∧ (x.phase = .placed ∨ x.phase = .running) ∧ (x.srcEnd = none) ∧ (linkUp s (fnPort (qFunc (queueAt s x.q))) = true) ∧ (x.eng = some (.cipher u)) ∧ (pageOn s (sinkPage x) = true) ∧ ((sealPass (portPage s x.q) (sinkPage x) (some c.val) x.srcIn.length (bytes.take (srcGood x - x.srcIn.length)) hit).2 = false)) :=
  ⟨by decide, by decide, by decide, by decide, by decide, by decide, sealPass_code (by decide) (by decide)⟩

/-- A state and operands that meet the hypotheses of the clause dispatchSeal of Acceptance. -/
theorem meets_Acceptance_dispatchSeal :
    (let s : State := setSlot ({ (setCtx (q7) 4 { q := 7, seq := 1, phase := .ready, d := { opcode := 0x11, mode := 1, len := 16 }, keys := [{ handle := 0x100009, slot := 9, gen := 1 }] }) with units := { cipher := [(3, { kat := false }), (65, { kat := false })], hash := [(2, { kat := false })], arc := [(1, { kat := false })] } }) 9 { gen := 1, usage := 1, alg := 1, mat := [7] }; let c : CtxNo := 4; let x : Ctx := { q := 7, seq := 1, phase := .ready, d := { opcode := 0x11, mode := 1, len := 16 }, keys := [{ handle := 0x100009, slot := 9, gen := 1 }] }; let u : LaneNo := 3; let hit : Option Hit := some { code := 1 }; (chooseNext s .lane u.val = some (c.val, x)) ∧ (anyAvail s x.d = true) ∧ (takesInv x.d = false) ∧ ((cunit s u.val).key ≠ keyTags x) ∧ (keyBus s (cunitPage u.val) c.val x hit = none) ∧ (Deliverable s x)) :=
  ⟨by decide, by decide, by decide, by decide, if_neg (by rw [sealPass_code (by decide) (by decide)]; decide), by decide⟩

/-- A state and operands that meet the hypotheses of the clause stream of UnitsAtWork. -/
theorem meets_UnitsAtWork_stream :
    (let s : State := { (setCtx (q7) 4 { q := 7, seq := 1, phase := .running, eng := some (.cipher 3), d := { opcode := 0x10, mode := 0x20, len := 128 }, srcIn := toLe 128 7, dsts := [⟨0x2000, 128⟩] }) with units := { cipher := [(3, { kat := false, ctx := some 4 })], hash := [(2, { kat := false, ctx := some 4 })], arc := [(1, { kat := false, ctx := some 4 })] } }; let c : CtxNo := 4; let x : Ctx := { q := 7, seq := 1, phase := .running, eng := some (.cipher 3), d := { opcode := 0x10, mode := 0x20, len := 128 }, srcIn := toLe 128 7, dsts := [⟨0x2000, 128⟩] }; let u : CipherUnit := 3; let b : BeatOut := ⟨toLe 64 5829391845716826576434291523203836281903964969706841104673567551877575462189166507248921274006811892622314429044464657418913957553403401736069832035993496, { chain := ⟨toLe 16 2, toLe 17 648573051692372292291043939845193988278⟩ }, { chain := ⟨toLe 16 2, toLe 17 648573051692372292291043939845193988278⟩ }⟩; ((cunit s u.val).ctx = some c.val) ∧ (ctxAt s c.val = some x) ∧ (x.phase = .running) ∧ (x.eng = some (.cipher u)) ∧ (streams x.d = true) ∧ (x.srcEnd = none) ∧ (x.stop = none) ∧ (x.done + 64 < x.d.len) ∧ (inputFor x.d (x.done + 64) ≤ (payIn x).length) ∧ (beatOf x (cunit s u.val) (x.done + 64) {} {} = some b) ∧ ((putDst s c.val b.out none).1 = none)) :=
  by decide +kernel

/-- A state and operands that meet the hypotheses of the clause draw of FountainService. -/
theorem meets_FountainService_draw :
    (let s : State := { ready with fnt := { begun := true, state := 4, int := { on := true, key := toLe 32 1, v := toLe 16 2 }, draws := [(0, 7)] } }; let w : Nat := 0; let who : Nat := 7; let l : List (Nat × Nat) := []; let hit : Option Hit := none; (s.fnt.draws = (w, who) :: l) ∧ (intServing s = true) ∧ ((swServing s && decide (7 ≤ s.fnt.intRun) && swWaiting s) = false) ∧ ((drawBytes w who - s.fnt.part.length) ≤ 4096) ∧ (NothingResumes (drbgGenerate s false hit))) :=
  by and_intros <;> first | rfl | decide

/-- A state and operands that meet the hypotheses of the clause drawPart of FountainService. -/
theorem meets_FountainService_drawPart :
    (let s : State := { ready with fnt := { begun := true, state := 4, int := { on := true, key := toLe 32 1, v := toLe 16 2 }, draws := [(9, 7)] } }; let w : Nat := 9; let who : Nat := 7; let l : List (Nat × Nat) := []; let hit : Option Hit := none; (s.fnt.draws = (w, who) :: l) ∧ (intServing s = true) ∧ ((swServing s && decide (7 ≤ s.fnt.intRun) && swWaiting s) = false) ∧ (4096 < (drawBytes w who - s.fnt.part.length)) ∧ (s.fnt.int.reqs + 1 < seedLimit) ∧ (NothingResumes (drbgGenerate s false hit))) :=
  by and_intros <;> first | rfl | decide

/-- A state and operands that meet the hypotheses of the clause turnMore of FountainService. -/
theorem meets_FountainService_turnMore :
    (let s : State := let z := setCtx (q7) 4 { q := 7, seq := 1, phase := .running, d := { opcode := 0x40, len := 5000 }, dsts := [⟨0x3000, 5000⟩] }; { z with fnt := { begun := true, state := 4, sw := { on := true, key := toLe 32 1, v := toLe 16 2 }, rng := [.cmd 4] } }; let c : CtxNo := 4; let x : Ctx := { q := 7, seq := 1, phase := .running, d := { opcode := 0x40, len := 5000 }, dsts := [⟨0x3000, 5000⟩] }; let rest : List RngReq := []; (s.fnt.rng = .cmd c.val :: rest) ∧ (ctxAt s c.val = some x) ∧ (x.phase = .running) ∧ (s.fnt.rngDead = []) ∧ (swServing s = true) ∧ (swDue s = true) ∧ (x.wrote = x.done) ∧ (x.done + 4096 < x.d.len) ∧ ((checkSegs (queueAt s x.q) true x.dsts (x.done + 4096) (x.dsts.length + 1) x.dstChk).2 = false) ∧ (NothingResumes (drbgGenerate s true none))) :=
  by and_intros <;> first | rfl | decide

/-- A state and operands that meet the hypotheses of the clause turnRead of FountainService. -/
theorem meets_FountainService_turnRead :
    (let s : State := let z := ready; { z with fnt := { begun := true, state := 4, sw := { on := true, key := toLe 32 1, v := toLe 16 2 }, rng := [.read (.core 1)] } }; let src : Src := .core 1; let rest : List RngReq := []; let hit : Option Hit := none; (s.fnt.rng = .read src :: rest) ∧ (s.fnt.rngDead = []) ∧ (swServing s = true) ∧ (swDue s = true) ∧ (answers s src = true) ∧ (NothingResumes (drbgGenerate s true hit))) :=
  by and_intros <;> first | rfl | decide

/-- A state and operands that meet the hypotheses of the clause storeLost of LoadsAndStores. -/
theorem meets_LoadsAndStores_storeLost :
    (let s : State := { ready with mem := [(sramBase + 8, 0xF1), (lramBase 3 + 0x20, 0x80), (lramBase 3 + 0x21, 0xFF)], cores := [(3, { state := 2, r := { pc := 0x100, g := [(1, 0x20), (2, 0xFFFFFFF5), (3, 0x80000000)], vbase := 0x1000, sys := { sp := 0x8000, base := 0x7000, limit := 0x8000, rsp := 0x9000, rbase := 0x8800, rlimit := 0x9000 } } })] }; let c : CoreNo := 3; let g : IssueIn := { guard := 0, hit := some { code := 1 } }; let d : GReg := 2; let b : GReg := 1; let sz : BitVec 2 := 2; let off : BitVec 12 := 8; ((sealPass (corePage c.val) (memSinkPage c.val (ldstAddr (cregs s c.val) b off).toNat (sizeBytes sz)) none 0 (toLe (sizeBytes sz) (gpr (cregs s c.val) d).toNat) g.hit).2 = false) ∧ ((coreAt s c.val).loaded = none) ∧ (Issues s c.val g) ∧ (sz ≠ 3) ∧ ((ldstAddr (cregs s c.val) b off).toNat % sizeBytes sz = 0) ∧ (hitsReturnStack (cregs s c.val) (ldstAddr (cregs s c.val) b off).toNat (sizeBytes sz) = false) ∧ (permits s (coreAcs s c.val (userMode (cregs s c.val)) (ldstAddr (cregs s c.val) b off).toNat (sizeBytes sz) .write) = true)) :=
  by and_intros <;> first | decide +kernel | exact sealPass_code (by decide) (by decide)

/-- A state and operands that meet the hypotheses of the clause swapLost of AtomicOps. -/
theorem meets_AtomicOps_swapLost :
    (let s : State := { ready with mem := [(sramBase + 8, 0xF1)], chk := { rules := [(0, 0x8F), (2, 0x1000000), (3, 0x17FFFC0)] }, cores := [(3, { state := 2, r := { pc := 0x100, g := [(1, 0x1000008), (2, 0xFFFFFFF5), (3, 0x80000000)], vbase := 0x1000, sys := { sp := 0x8000, base := 0x7000, limit := 0x8000, rsp := 0x9000, rbase := 0x8800, rlimit := 0x9000 } } })] }; let c : CoreNo := 3; let g : IssueIn := { guard := 0, hit := some { code := 1 } }; let d : GReg := 4; let b : GReg := 1; let a : GReg := 2; ((sealPass (corePage c.val) 0x40 none 0 (toLe 4 (gpr (cregs s c.val) a).toNat) g.hit).2 = false) ∧ (Issues s c.val g) ∧ ((gpr (cregs s c.val) b).toNat % 4 = 0) ∧ (hitsReturnStack (cregs s c.val) (gpr (cregs s c.val) b).toNat 4 = false) ∧ (sramBase ≤ (gpr (cregs s c.val) b).toNat) ∧ ((gpr (cregs s c.val) b).toNat < sramEnd) ∧ (MayUse s c.val (userMode (cregs s c.val)) .atomic (gpr (cregs s c.val) b).toNat 4) ∧ (Readable g 0)) :=
  by and_intros <;> first | decide +kernel | exact sealPass_code (by decide) (by decide)

/-- A state and operands that meet the hypotheses of the clause addaLost of AtomicOps. -/
theorem meets_AtomicOps_addaLost :
    (let s : State := { ready with mem := [(sramBase + 8, 0xF1)], chk := { rules := [(0, 0x8F), (2, 0x1000000), (3, 0x17FFFC0)] }, cores := [(3, { state := 2, r := { pc := 0x100, g := [(1, 0x1000008), (2, 0xFFFFFFF5), (3, 0x80000000)], vbase := 0x1000, sys := { sp := 0x8000, base := 0x7000, limit := 0x8000, rsp := 0x9000, rbase := 0x8800, rlimit := 0x9000 } } })] }; let c : CoreNo := 3; let g : IssueIn := { guard := 0, hit := some { code := 1 } }; let d : GReg := 4; let b : GReg := 1; let a : GReg := 2; ((sealPass (corePage c.val) 0x40 none 0 (toLe 4 ((wordAt s c.val (gpr (cregs s c.val) b)) + gpr (cregs s c.val) a).toNat) g.hit).2 = false) ∧ (Issues s c.val g) ∧ ((gpr (cregs s c.val) b).toNat % 4 = 0) ∧ (hitsReturnStack (cregs s c.val) (gpr (cregs s c.val) b).toNat 4 = false) ∧ (sramBase ≤ (gpr (cregs s c.val) b).toNat) ∧ ((gpr (cregs s c.val) b).toNat < sramEnd) ∧ (MayUse s c.val (userMode (cregs s c.val)) .atomic (gpr (cregs s c.val) b).toNat 4) ∧ (Readable g 0)) :=
  by and_intros <;> first | decide +kernel | exact sealPass_code (by decide) (by decide)

/-- A state and operands that meet the hypotheses of the clause casLost of AtomicOps. -/
theorem meets_AtomicOps_casLost :
    (let s : State := { ready with mem := [(sramBase + 8, 0xF1)], chk := { rules := [(0, 0x8F), (2, 0x1000000), (3, 0x17FFFC0)] }, cores := [(3, { state := 2, r := { pc := 0x100, g := [(1, 0x1000008), (2, 0xFFFFFFF5), (3, 0x80000000)], vbase := 0x1000, sys := { sp := 0x8000, base := 0x7000, limit := 0x8000, rsp := 0x9000, rbase := 0x8800, rlimit := 0x9000 } } })] }; let c : CoreNo := 3; let g : IssueIn := { guard := 0, hit := some { code := 1 } }; let d : GReg := 4; let b : GReg := 1; let a : GReg := 2; let pd : BitVec 2 := 1; ((sealPass (corePage c.val) 0x40 none 0 (toLe 4 (gpr (cregs s c.val) a).toNat) g.hit).2 = false) ∧ (Issues s c.val g) ∧ ((gpr (cregs s c.val) b).toNat % 4 = 0) ∧ (hitsReturnStack (cregs s c.val) (gpr (cregs s c.val) b).toNat 4 = false) ∧ (sramBase ≤ (gpr (cregs s c.val) b).toNat) ∧ ((gpr (cregs s c.val) b).toNat < sramEnd) ∧ (MayUse s c.val (userMode (cregs s c.val)) .atomic (gpr (cregs s c.val) b).toNat 4) ∧ (Readable g 0)) :=
  by and_intros <;> first | decide +kernel | exact sealPass_code (by decide) (by decide)

/-- A state and operands that meet the hypotheses of the clause clearLost of BlockAndHaltOps. -/
theorem meets_BlockAndHaltOps_clearLost :
    (let s : State := { ready with mem := [(lramBase 3 + 0x80, 0x12), (lramBase 3 + 0x83, 0x34)], cores := [(3, { state := 2, r := { pc := 0x100, g := [(1, 0x40), (2, 0x80), (3, 2)], vbase := 0x1000, sys := { sp := 0x8000, base := 0x7000, limit := 0x8000, rsp := 0x9000, rbase := 0x8800, rlimit := 0x9000 } } })] }; let c : CoreNo := 3; let g : IssueIn := { guard := 0, hit := some { code := 1 } }; let d : GReg := 2; let n : GReg := 3; (Issues s c.val g) ∧ (Placed s c.val .alone) ∧ ((sealPass (corePage c.val) (memSinkPage c.val (gpr (cregs s c.val) d).toNat 4) none 0 (toLe 4 0) g.hit).2 = false) ∧ (blockOperands [d, n] = true) ∧ (gpr (cregs s c.val) n ≠ 0) ∧ ((gpr (cregs s c.val) d).toNat % 4 = 0) ∧ (hitsReturnStack (cregs s c.val) (gpr (cregs s c.val) d).toNat 4 = false) ∧ (MayStore s c.val (userMode (cregs s c.val)) (gpr (cregs s c.val) d).toNat 4)) :=
  by and_intros <;> first | decide +kernel | exact sealPass_code (by decide) (by decide)

/-- A state and operands that meet the hypotheses of the clause seal of DmaTransfers. -/
theorem meets_DmaTransfers_seal :
    (let s : State := { ready with mem := [(0x1000101, 0x77)], chk := { dma := [(2, { dom := 0, fn := 0, src := 0x1000100, dst := 0x1000200, len := 8, dir := 0, queue := 0 })] } }; let e : DmaNo := 2; let op : DmaOp := { dom := 0, fn := 0, src := 0x1000100, dst := 0x1000200, len := 8, dir := 0, queue := 0 }; let data : Bytes := []; let h : Hit := { code := 1 }; (tfind s.chk.dma e.val = some op) ∧ (op.dir = 1 ∨ damagedAt s op.src op.len = none) ∧ ((sealPass (dmaSourcePage op) (dmaSinkPage op) none 0 (dmaData s op data op.len).1 (some h)).2 = false)) :=
  by and_intros <;> first | decide +kernel | exact sealPass_code (by decide) (by decide)

/-- A state and operands that meet the hypotheses of the clause commitPlace of PairingCommands. -/
theorem meets_PairingCommands_commitPlace :
    (let s : State := { ready with fnt := { begun := true, state := 4, int := { on := true, key := toLe 32 1, v := toLe 16 2 } }, life := { state := 2 }, units := { arc := [(0, { kat := false, offline := false })] }, xing := {  } }; let src : Src := .port 0; let fails : Nat := 1; let peer : Option PeerHello := none; let a : Bytes := List.replicate 240 0; let b : Bool := decide (be (sl (List.replicate 240 (0 : Byte)) 0 8) ≠ ownSerial); (Reaches s src Reg.XING_CMD) ∧ (xingBusy s = false) ∧ (twinState s = true) ∧ (a = (bufGet s Reg.XING_AUTH 0 240)) ∧ (b = decide (be (sl a 0 8) ≠ ownSerial)) ∧ (¬ ((be (sl a 0 8) = ownSerial ∨ be (sl a 8 8) = ownSerial) ∧ be (sl a (if b then 0x14 else 0x10) 4) = s.fer.pairCnt ∧ s.xing.eph.isSome = true ∧ sl a (if b then 0x60 else 0x20) 64 = bufGet s Reg.XING_EPUB 0 64))) :=
  ⟨by decide +kernel, by decide +kernel, by decide +kernel, by decide +kernel, rfl, fun h => absurd h.2.2.1 (by decide)⟩

/-- A state and operands that meet the hypotheses of the clause commitStarts of PairingCommands. -/
theorem meets_PairingCommands_commitStarts :
    (let s : State := withAuth ({ ready with fnt := { begun := true, state := 4, int := { on := true, key := toLe 32 1, v := toLe 16 2 } }, life := { state := 2 }, units := { arc := [(0, { kat := false, offline := false })] }, xing := { eph := some 77 } }); let src : Src := .port 0; let fails : Nat := 1; let peer : Option PeerHello := none; let a : Bytes := bufGet (withAuth ({ ready with fnt := { begun := true, state := 4, int := { on := true, key := toLe 32 1, v := toLe 16 2 } }, life := { state := 2 }, units := { arc := [(0, { kat := false, offline := false })] }, xing := { eph := some 77 } })) Reg.XING_AUTH 0 240; let b : Bool := false; let n : Nat := 0; (Reaches s src Reg.XING_CMD) ∧ (xingBusy s = false) ∧ (twinState s = true) ∧ (a = (bufGet s Reg.XING_AUTH 0 240)) ∧ (b = decide (be (sl a 0 8) ≠ ownSerial)) ∧ ((be (sl a 0 8) = ownSerial ∨ be (sl a 8 8) = ownSerial)) ∧ (be (sl a (if b then 0x14 else 0x10) 4) = s.fer.pairCnt ∧ s.xing.eph.isSome = true ∧ sl a (if b then 0x60 else 0x20) 64 = bufGet s Reg.XING_EPUB 0 64) ∧ (UnitFree s whoXing n)) :=
  by refine ⟨?_, ?_, ?_, rfl, (withAuth_mine _).symm, Or.inl (withAuth_serial _), ?_, ?_⟩ <;> decide +kernel

/-- A state and operands that meet the hypotheses of the clause commitWaits of PairingCommands. -/
theorem meets_PairingCommands_commitWaits :
    (let s : State := withAuth ({ ready with fnt := { begun := true, state := 4, int := { on := true, key := toLe 32 1, v := toLe 16 2 } }, life := { state := 2 }, units := { arc := [(0, { kat := false, offline := false, ctx := some 3 })] }, xing := { eph := some 77 } }); let src : Src := .port 0; let fails : Nat := 1; let peer : Option PeerHello := none; let a : Bytes := bufGet (withAuth ({ ready with fnt := { begun := true, state := 4, int := { on := true, key := toLe 32 1, v := toLe 16 2 } }, life := { state := 2 }, units := { arc := [(0, { kat := false, offline := false, ctx := some 3 })] }, xing := { eph := some 77 } })) Reg.XING_AUTH 0 240; let b : Bool := false; let n : Nat := 0; (Reaches s src Reg.XING_CMD) ∧ (xingBusy s = false) ∧ (twinState s = true) ∧ (a = (bufGet s Reg.XING_AUTH 0 240)) ∧ (b = decide (be (sl a 0 8) ≠ ownSerial)) ∧ ((be (sl a 0 8) = ownSerial ∨ be (sl a 8 8) = ownSerial)) ∧ (be (sl a (if b then 0x14 else 0x10) 4) = s.fer.pairCnt ∧ s.xing.eph.isSome = true ∧ sl a (if b then 0x60 else 0x20) 64 = bufGet s Reg.XING_EPUB 0 64) ∧ (UnitBusy s whoXing n)) :=
  by refine ⟨?_, ?_, ?_, rfl, (withAuth_mine _).symm, Or.inl (withAuth_serial _), ?_, ?_⟩ <;> decide +kernel

/-- A state and operands that meet the hypotheses of the clause commitNoUnit of PairingCommands. -/
theorem meets_PairingCommands_commitNoUnit :
    (let s : State := withAuth ({ ready with fnt := { begun := true, state := 4, int := { on := true, key := toLe 32 1, v := toLe 16 2 } }, life := { state := 2 }, units := { arc := (List.range 8).map fun n => (n, { offline := true, kat := false }) }, xing := { eph := some 77 } }); let src : Src := .port 0; let fails : Nat := 1; let peer : Option PeerHello := none; let a : Bytes := bufGet (withAuth ({ ready with fnt := { begun := true, state := 4, int := { on := true, key := toLe 32 1, v := toLe 16 2 } }, life := { state := 2 }, units := { arc := (List.range 8).map fun n => (n, { offline := true, kat := false }) }, xing := { eph := some 77 } })) Reg.XING_AUTH 0 240; let b : Bool := false; (Reaches s src Reg.XING_CMD) ∧ (xingBusy s = false) ∧ (twinState s = true) ∧ (a = (bufGet s Reg.XING_AUTH 0 240)) ∧ (b = decide (be (sl a 0 8) ≠ ownSerial)) ∧ ((be (sl a 0 8) = ownSerial ∨ be (sl a 8 8) = ownSerial)) ∧ (be (sl a (if b then 0x14 else 0x10) 4) = s.fer.pairCnt ∧ s.xing.eph.isSome = true ∧ sl a (if b then 0x60 else 0x20) 64 = bufGet s Reg.XING_EPUB 0 64) ∧ (UnitNone s whoXing)) :=
  by refine ⟨?_, ?_, ?_, rfl, (withAuth_mine _).symm, Or.inl (withAuth_serial _), ?_, ?_⟩ <;> decide +kernel

/-- A state and operands that meet the hypotheses of the clause commit of PairingCommands. -/
theorem meets_PairingCommands_commit :
    (let s : State := withAuth ({ ready with fnt := { begun := true, state := 4, int := { on := true, key := toLe 32 1, v := toLe 16 2 }, got := [(whoXing, toLe 32 7)] }, life := { state := 2 }, units := { arc := [(0, { kat := false, offline := false, internal := some whoXing })] }, xing := { eph := some 77 } }); let src : Src := .port 0; let fails : Nat := 1; let a : Bytes := bufGet (withAuth ({ ready with fnt := { begun := true, state := 4, int := { on := true, key := toLe 32 1, v := toLe 16 2 }, got := [(whoXing, toLe 32 7)] }, life := { state := 2 }, units := { arc := [(0, { kat := false, offline := false, internal := some whoXing })] }, xing := { eph := some 77 } })) Reg.XING_AUTH 0 240; let b : Bool := false; let n : Nat := 0; let d : Bytes := toLe 32 7; (Reaches s src Reg.XING_CMD) ∧ (xingBusy s = false) ∧ (twinState s = true) ∧ (a = (bufGet s Reg.XING_AUTH 0 240)) ∧ (b = decide (be (sl a 0 8) ≠ ownSerial)) ∧ ((be (sl a 0 8) = ownSerial ∨ be (sl a 8 8) = ownSerial)) ∧ (be (sl a (if b then 0x14 else 0x10) 4) = s.fer.pairCnt ∧ s.xing.eph.isSome = true ∧ sl a (if b then 0x60 else 0x20) 64 = bufGet s Reg.XING_EPUB 0 64) ∧ (UnitReady s whoXing n d)) :=
  by refine ⟨?_, ?_, ?_, rfl, (withAuth_mine _).symm, Or.inl (withAuth_serial _), ?_, ?_⟩ <;> decide +kernel

/-- A state and operands that meet the hypotheses of the clause commitWithPeer of PairingCommands. -/
theorem meets_PairingCommands_commitWithPeer :
    (let s : State := withAuth ({ ready with fnt := { begun := true, state := 4, int := { on := true, key := toLe 32 1, v := toLe 16 2 }, got := [(whoXing, toLe 32 7)] }, life := { state := 2 }, units := { arc := [(0, { kat := false, offline := false, internal := some whoXing })] }, xing := { eph := some 77 } }); let src : Src := .port 0; let fails : Nat := 1; let p : PeerHello := ⟨0, [1]⟩; let a : Bytes := bufGet (withAuth ({ ready with fnt := { begun := true, state := 4, int := { on := true, key := toLe 32 1, v := toLe 16 2 }, got := [(whoXing, toLe 32 7)] }, life := { state := 2 }, units := { arc := [(0, { kat := false, offline := false, internal := some whoXing })] }, xing := { eph := some 77 } })) Reg.XING_AUTH 0 240; let b : Bool := false; let n : Nat := 0; let d : Bytes := toLe 32 7; (Reaches s src Reg.XING_CMD) ∧ (xingBusy s = false) ∧ (twinState s = true) ∧ (a = (bufGet s Reg.XING_AUTH 0 240)) ∧ (b = decide (be (sl a 0 8) ≠ ownSerial)) ∧ ((be (sl a 0 8) = ownSerial ∨ be (sl a 8 8) = ownSerial)) ∧ (be (sl a (if b then 0x14 else 0x10) 4) = s.fer.pairCnt ∧ s.xing.eph.isSome = true ∧ sl a (if b then 0x60 else 0x20) 64 = bufGet s Reg.XING_EPUB 0 64) ∧ (UnitReady s whoXing n d) ∧ (s.xing.sess = none)) :=
  by refine ⟨?_, ?_, ?_, rfl, (withAuth_mine _).symm, Or.inl (withAuth_serial _), ?_, ?_, ?_⟩ <;> decide +kernel

/-- A state and operands that meet the hypotheses of the clause prepareGoesOn of PairingCommands. -/
theorem meets_PairingCommands_prepareGoesOn :
    (let s : State := { ready with fnt := { begun := true, state := 4, int := { on := true, key := toLe 32 1, v := toLe 16 2 } }, life := { state := 2 }, units := { arc := [(0, { kat := false, offline := false })] }, xing := { held := some .prepare } }; let p : State := drbgGenerate ({ ready with fnt := { begun := true, state := 4, int := { on := true, key := toLe 32 1, v := toLe 16 2 } }, life := { state := 2 }, units := { arc := [(0, { kat := false, offline := false })] }, xing := { held := some .prepare } }) false none; let hit : Option Hit := none; (p = drbgGenerate s false hit) ∧ (p.fleet.held = none) ∧ (p.xing.upWait = none) ∧ (p.life.op = none) ∧ (p.load = none) ∧ (p.xing.held = some .prepare) ∧ ((prepareRun p).fleet.held = none ∧ (prepareRun p).xing.upWait = none ∧ (prepareRun p).life.op = none ∧ (prepareRun p).load = none)) :=
  by and_intros <;> rfl

/-- A state and operands that meet the hypotheses of the clause commitGoesOn of PairingCommands. -/
theorem meets_PairingCommands_commitGoesOn :
    (let s : State := { ready with fnt := { begun := true, state := 4, int := { on := true, key := toLe 32 1, v := toLe 16 2 } }, life := { state := 5 }, units := { arc := [(0, { kat := false, offline := false })] }, xing := { held := some (.commit none 1) } }; let p : State := drbgGenerate ({ ready with fnt := { begun := true, state := 4, int := { on := true, key := toLe 32 1, v := toLe 16 2 } }, life := { state := 5 }, units := { arc := [(0, { kat := false, offline := false })] }, xing := { held := some (.commit none 1) } }) false none; let hit : Option Hit := none; let peer : Option PeerHello := none; let fails : Nat := 1; (p = drbgGenerate s false hit) ∧ (p.fleet.held = none) ∧ (p.xing.upWait = none) ∧ (p.life.op = none) ∧ (p.load = none) ∧ (p.xing.held = some (.commit peer fails)) ∧ ((commitRun p peer fails).fleet.held = none ∧ (commitRun p peer fails).xing.upWait = none ∧ (commitRun p peer fails).life.op = none ∧ (commitRun p peer fails).load = none)) :=
  by and_intros <;> rfl

/-- A state and operands that meet the hypotheses of the clause linkGoesOn of CrossingEffects. -/
theorem meets_CrossingEffects_linkGoesOn :
    (let s : State := { ready with fnt := { begun := true, state := 4, int := { on := true, key := toLe 32 1, v := toLe 16 2 } }, life := { state := 2 }, units := { arc := [(0, { kat := false, offline := false })] }, xing := { upWait := some { serial := 0, value := [], life := 2, k := epochExp ready, dev := 0, comp := reg ready Reg.COMP_CTRL, solo := false, left := false, alive := true } } }; let u : State := drbgGenerate ({ ready with fnt := { begun := true, state := 4, int := { on := true, key := toLe 32 1, v := toLe 16 2 } }, life := { state := 2 }, units := { arc := [(0, { kat := false, offline := false })] }, xing := { upWait := some { serial := 0, value := [], life := 2, k := epochExp ready, dev := 0, comp := reg ready Reg.COMP_CTRL, solo := false, left := false, alive := true } } }) false none; let hit : Option Hit := none; let p : PeerInfo := { serial := 0, value := [], life := 2, k := epochExp ready, dev := 0, comp := reg ready Reg.COMP_CTRL, solo := false, left := false, alive := true }; (u = drbgGenerate s false hit) ∧ (u.xing.upWait = some p) ∧ (u.xing.held = none) ∧ (u.fleet.held = none) ∧ (u.life.op = none) ∧ (u.load = none) ∧ ((newSession u p).life.op = none ∧ (newSession u p).load = none)) :=
  by and_intros <;> rfl

/-- A state and operands that meet the hypotheses of the clause heartbeat of CrossingEffects. -/
theorem meets_CrossingEffects_heartbeat :
    (let s : State := { ready with fnt := { begun := true, state := 4, int := { on := true, key := toLe 32 1, v := toLe 16 2 } }, life := { state := 2 }, units := { arc := [(0, { kat := false, offline := false })] }, xing := { state := 3, sess := some { keyOut := toLe 32 5, keyIn := toLe 32 6, tx := 3, rx := 5 } } }; let e : Sess := { keyOut := toLe 32 5, keyIn := toLe 32 6, tx := 3, rx := 5 }; let rx : XRx := ⟨frameTags s e .heartbeat, true⟩; let u : State := { s with xing := { s.xing with aliveIn := rx.alive, sess := some { e with rx := e.rx + rx.tags.length } } }; (s.xing.sess = some e) ∧ (rx.tags = frameTags s e .heartbeat) ∧ (u = { s with xing := { s.xing with aliveIn := rx.alive, sess := some { e with rx := e.rx + rx.tags.length } } })) :=
  by and_intros <;> first | with_reducible rfl | exact (rfl : (_ : List Bytes) = _) | exact (rfl : (_ : State) = _) | decide +kernel

/-- A state and operands that meet the hypotheses of the clause marker of CrossingEffects. -/
theorem meets_CrossingEffects_marker :
    (let s : State := { ready with fnt := { begun := true, state := 4, int := { on := true, key := toLe 32 1, v := toLe 16 2 } }, life := { state := 2 }, units := { arc := [(0, { kat := false, offline := false })] }, xing := { state := 3, sess := some { keyOut := toLe 32 5, keyIn := toLe 32 6, tx := 3, rx := 5 } } }; let e : Sess := { keyOut := toLe 32 5, keyIn := toLe 32 6, tx := 3, rx := 5 }; let rx : XRx := ⟨frameTags s e .marker, true⟩; let u : State := { s with xing := { s.xing with aliveIn := rx.alive, sess := some { e with rx := e.rx + rx.tags.length } } }; (s.xing.sess = some e) ∧ (rx.tags = frameTags s e .marker) ∧ (u = { s with xing := { s.xing with aliveIn := rx.alive, sess := some { e with rx := e.rx + rx.tags.length } } })) :=
  by and_intros <;> first | with_reducible rfl | exact (rfl : (_ : List Bytes) = _) | exact (rfl : (_ : State) = _) | decide +kernel

/-- A state and operands that meet the hypotheses of the clause helloNot of CrossingEffects. -/
theorem meets_CrossingEffects_helloNot :
    (let s : State := { ready with fnt := { begun := true, state := 4, int := { on := true, key := toLe 32 1, v := toLe 16 2 } }, life := { state := 2 }, units := { arc := [(0, { kat := false, offline := false })] }, xing := { state := 3, sess := some { keyOut := toLe 32 5, keyIn := toLe 32 6, tx := 3, rx := 5 } } }; let e : Sess := { keyOut := toLe 32 5, keyIn := toLe 32 6, tx := 3, rx := 5 }; let p : PeerHello := ⟨0, [1]⟩; let rx : XRx := ⟨frameTags s e (.peerHello p), true⟩; let u : State := { s with xing := { s.xing with aliveIn := rx.alive, sess := some { e with rx := e.rx + rx.tags.length } } }; (s.xing.sess = some e) ∧ (s.xing.stmt = none) ∧ (rx.tags = frameTags s e (.peerHello p)) ∧ (u = { s with xing := { s.xing with aliveIn := rx.alive, sess := some { e with rx := e.rx + rx.tags.length } } })) :=
  by and_intros <;> first | with_reducible rfl | exact (rfl : (_ : List Bytes) = _) | exact (rfl : (_ : State) = _) | decide +kernel

/-- A state and operands that meet the hypotheses of the clause slotWrite of CrossingEffects. -/
theorem meets_CrossingEffects_slotWrite :
    (let s : State := { ready with fnt := { begun := true, state := 4, int := { on := true, key := toLe 32 1, v := toLe 16 2 } }, life := { state := 2 }, units := { arc := [(0, { kat := false, offline := false })] }, xing := { state := 3, sess := some { keyOut := toLe 32 5, keyIn := toLe 32 6, tx := 3, rx := 5 } } }; let e : Sess := { keyOut := toLe 32 5, keyIn := toLe 32 6, tx := 3, rx := 5 }; let h : Nat := 40; let k : Slot := { gen := 1, usage := 0, alg := 3, dom := 5, asg := true, mat := toLe 32 8 }; let gens : List (Nat × Nat) := []; let rx : XRx := ⟨frameTags s e (.commit (.write h k) gens), true⟩; let u : State := { s with xing := { s.xing with aliveIn := rx.alive, sess := some { e with rx := e.rx + rx.tags.length } } }; (s.xing.sess = some e) ∧ (s.xing.seqr = false) ∧ (s.xing.state ≠ 2) ∧ (s.mews.zeroising = false) ∧ (algRun k.alg = 1) ∧ (headOf s h = none) ∧ (k.parent = 0) ∧ (s.mews.cascades = []) ∧ (rx.tags = frameTags s e (.commit (.write h k) gens)) ∧ (u = { s with xing := { s.xing with aliveIn := rx.alive, sess := some { e with rx := e.rx + rx.tags.length } } })) :=
  by and_intros <;> first | with_reducible rfl | exact (rfl : (_ : List Bytes) = _) | exact (rfl : (_ : State) = _) | decide +kernel

/-- A state and operands that meet the hypotheses of the clause commit of CrossingEffects. -/
theorem meets_CrossingEffects_commit :
    (let s : State := { ready with fnt := { begun := true, state := 4, int := { on := true, key := toLe 32 1, v := toLe 16 2 } }, life := { state := 2 }, units := { arc := [(0, { kat := false, offline := false })] }, xing := { state := 3, sess := some { keyOut := toLe 32 5, keyIn := toLe 32 6, tx := 3, rx := 5 } } }; let e : Sess := { keyOut := toLe 32 5, keyIn := toLe 32 6, tx := 3, rx := 5 }; let op : SlotOp := .erase 40 false; let gens : List (Nat × Nat) := []; let rx : XRx := ⟨frameTags s e (.commit op gens), true⟩; let u : State := { s with xing := { s.xing with aliveIn := rx.alive, sess := some { e with rx := e.rx + rx.tags.length } } }; (s.xing.sess = some e) ∧ (s.xing.seqr = false) ∧ (s.xing.state ≠ 2) ∧ (s.mews.zeroising = false) ∧ (rx.tags = frameTags s e (.commit op gens)) ∧ (u = { s with xing := { s.xing with aliveIn := rx.alive, sess := some { e with rx := e.rx + rx.tags.length } } })) :=
  by and_intros <;> first | with_reducible rfl | exact (rfl : (_ : List Bytes) = _) | exact (rfl : (_ : State) = _) | decide +kernel

/-- A state and operands that meet the hypotheses of the clause sequence of CrossingEffects. -/
theorem meets_CrossingEffects_sequence :
    (let s : State := { ready with fnt := { begun := true, state := 4, int := { on := true, key := toLe 32 1, v := toLe 16 2 } }, life := { state := 2 }, units := { arc := [(0, { kat := false, offline := false })] }, xing := { state := 3, sess := some { keyOut := toLe 32 5, keyIn := toLe 32 6, tx := 3, rx := 5 }, seqr := true } }; let e : Sess := { keyOut := toLe 32 5, keyIn := toLe 32 6, tx := 3, rx := 5 }; let op : SlotOp := .erase 40 false; let gens : List (Nat × Nat) := []; let rx : XRx := ⟨frameTags s e (.commit op gens), true⟩; let u : State := { s with xing := { s.xing with aliveIn := rx.alive, sess := some { e with rx := e.rx + rx.tags.length } } }; (s.xing.sess = some e) ∧ (s.xing.seqr = true) ∧ (s.xing.state ≠ 2) ∧ (s.mews.zeroising = false) ∧ ((gens.any fun e => (slotAt s e.1).gen != e.2) = false) ∧ (rx.tags = frameTags s e (.commit op gens)) ∧ (u = { s with xing := { s.xing with aliveIn := rx.alive, sess := some { e with rx := e.rx + rx.tags.length } } })) :=
  by and_intros <;> first | with_reducible rfl | exact (rfl : (_ : List Bytes) = _) | exact (rfl : (_ : State) = _) | decide +kernel

/-- A state and operands that meet the hypotheses of the clause passed of CrossingEffects. -/
theorem meets_CrossingEffects_passed :
    (let s : State := { ready with fnt := { begun := true, state := 4, int := { on := true, key := toLe 32 1, v := toLe 16 2 } }, life := { state := 2 }, units := { arc := [(0, { kat := false, offline := false })] }, xing := { state := 3, sess := some { keyOut := toLe 32 5, keyIn := toLe 32 6, tx := 3, rx := 5 }, seqr := true } }; let e : Sess := { keyOut := toLe 32 5, keyIn := toLe 32 6, tx := 3, rx := 5 }; let op : SlotOp := .erase 40 false; let gens : List (Nat × Nat) := [(40, 3)]; let rx : XRx := ⟨frameTags s e (.commit op gens), true⟩; let u : State := { s with xing := { s.xing with aliveIn := rx.alive, sess := some { e with rx := e.rx + rx.tags.length } } }; (s.xing.sess = some e) ∧ (s.xing.seqr = true) ∧ (s.xing.state ≠ 2) ∧ (s.mews.zeroising = false) ∧ ((gens.any fun e => (slotAt s e.1).gen != e.2) = true) ∧ (rx.tags = frameTags s e (.commit op gens)) ∧ (u = { s with xing := { s.xing with aliveIn := rx.alive, sess := some { e with rx := e.rx + rx.tags.length } } })) :=
  by and_intros <;> first | with_reducible rfl | exact (rfl : (_ : List Bytes) = _) | exact (rfl : (_ : State) = _) | decide +kernel

/-- A state and operands that meet the hypotheses of the clause commitHeld of CrossingEffects. -/
theorem meets_CrossingEffects_commitHeld :
    (let s : State := { ready with fnt := { begun := true, state := 4, int := { on := true, key := toLe 32 1, v := toLe 16 2 } }, life := { state := 2 }, units := { arc := [(0, { kat := false, offline := false })] }, xing := { state := 3, sess := some { keyOut := toLe 32 5, keyIn := toLe 32 6, tx := 3, rx := 5 } }, mews := { zeroising := true } }; let e : Sess := { keyOut := toLe 32 5, keyIn := toLe 32 6, tx := 3, rx := 5 }; let op : SlotOp := .erase 40 false; let gens : List (Nat × Nat) := []; let rx : XRx := ⟨frameTags s e (.commit op gens), true⟩; let u : State := { s with xing := { s.xing with aliveIn := rx.alive, sess := some { e with rx := e.rx + rx.tags.length } } }; (s.xing.sess = some e) ∧ (s.mews.zeroising = true ∨ s.xing.state = 2) ∧ (rx.tags = frameTags s e (.commit op gens)) ∧ (u = { s with xing := { s.xing with aliveIn := rx.alive, sess := some { e with rx := e.rx + rx.tags.length } } })) :=
  by and_intros <;> first | with_reducible rfl | exact (rfl : (_ : List Bytes) = _) | exact (rfl : (_ : State) = _) | decide +kernel

/-- A state and operands that meet the hypotheses of the clause assign of CrossingEffects. -/
theorem meets_CrossingEffects_assign :
    (let s : State := { ready with fnt := { begun := true, state := 4, int := { on := true, key := toLe 32 1, v := toLe 16 2 } }, life := { state := 2 }, units := { arc := [(0, { kat := false, offline := false })] }, xing := { state := 3, sess := some { keyOut := toLe 32 5, keyIn := toLe 32 6, tx := 3, rx := 5 } } }; let e : Sess := { keyOut := toLe 32 5, keyIn := toLe 32 6, tx := 3, rx := 5 }; let op : Nat := 1; let dom : Nat := 5; let base : Nat := 40; let cnt : Nat := 2; let rx : XRx := ⟨frameTags s e (.assign op dom base cnt), true⟩; let u : State := { s with xing := { s.xing with aliveIn := rx.alive, sess := some { e with rx := e.rx + rx.tags.length } } }; (s.xing.sess = some e) ∧ (s.mews.zeroising = false) ∧ (s.xing.state ≠ 2) ∧ (rx.tags = frameTags s e (.assign op dom base cnt)) ∧ (u = { s with xing := { s.xing with aliveIn := rx.alive, sess := some { e with rx := e.rx + rx.tags.length } } })) :=
  by and_intros <;> first | with_reducible rfl | exact (rfl : (_ : List Bytes) = _) | exact (rfl : (_ : State) = _) | decide +kernel

/-- A state and operands that meet the hypotheses of the clause assignHeld of CrossingEffects. -/
theorem meets_CrossingEffects_assignHeld :
    (let s : State := { ready with fnt := { begun := true, state := 4, int := { on := true, key := toLe 32 1, v := toLe 16 2 } }, life := { state := 2 }, units := { arc := [(0, { kat := false, offline := false })] }, xing := { state := 3, sess := some { keyOut := toLe 32 5, keyIn := toLe 32 6, tx := 3, rx := 5 } }, mews := { zeroising := true } }; let e : Sess := { keyOut := toLe 32 5, keyIn := toLe 32 6, tx := 3, rx := 5 }; let op : Nat := 1; let dom : Nat := 5; let base : Nat := 40; let cnt : Nat := 2; let rx : XRx := ⟨frameTags s e (.assign op dom base cnt), true⟩; let u : State := { s with xing := { s.xing with aliveIn := rx.alive, sess := some { e with rx := e.rx + rx.tags.length } } }; (s.xing.sess = some e) ∧ (s.mews.zeroising = true ∨ s.xing.state = 2) ∧ (rx.tags = frameTags s e (.assign op dom base cnt)) ∧ (u = { s with xing := { s.xing with aliveIn := rx.alive, sess := some { e with rx := e.rx + rx.tags.length } } })) :=
  by and_intros <;> first | with_reducible rfl | exact (rfl : (_ : List Bytes) = _) | exact (rfl : (_ : State) = _) | decide +kernel

/-- A state and operands that meet the hypotheses of the clause reservation of CrossingEffects. -/
theorem meets_CrossingEffects_reservation :
    (let s : State := { ready with fnt := { begun := true, state := 4, int := { on := true, key := toLe 32 1, v := toLe 16 2 } }, life := { state := 2 }, units := { arc := [(0, { kat := false, offline := false })] }, xing := { state := 3, sess := some { keyOut := toLe 32 5, keyIn := toLe 32 6, tx := 3, rx := 5 } } }; let e : Sess := { keyOut := toLe 32 5, keyIn := toLe 32 6, tx := 3, rx := 5 }; let slot : SlotNo := 9; let blk : Nat := 6; let rx : XRx := ⟨frameTags s e (.reservation slot blk false), true⟩; let u : State := { s with xing := { s.xing with aliveIn := rx.alive, sess := some { e with rx := e.rx + rx.tags.length } } }; (s.xing.sess = some e) ∧ (rx.tags = frameTags s e (.reservation slot blk false)) ∧ (u = { s with xing := { s.xing with aliveIn := rx.alive, sess := some { e with rx := e.rx + rx.tags.length } } })) :=
  by and_intros <;> first | with_reducible rfl | exact (rfl : (_ : List Bytes) = _) | exact (rfl : (_ : State) = _) | decide +kernel

/-- A state and operands that meet the hypotheses of the clause dukptRecord of CrossingEffects. -/
theorem meets_CrossingEffects_dukptRecord :
    (let s : State := { ready with fnt := { begun := true, state := 4, int := { on := true, key := toLe 32 1, v := toLe 16 2 } }, life := { state := 2 }, units := { arc := [(0, { kat := false, offline := false })] }, xing := { state := 3, sess := some { keyOut := toLe 32 5, keyIn := toLe 32 6, tx := 3, rx := 5 } } }; let e : Sess := { keyOut := toLe 32 5, keyIn := toLe 32 6, tx := 3, rx := 5 }; let slot : SlotNo := 9; let blk : Nat := 6; let rx : XRx := ⟨frameTags s e (.reservation slot blk true), true⟩; let u : State := { s with xing := { s.xing with aliveIn := rx.alive, sess := some { e with rx := e.rx + rx.tags.length } } }; (s.xing.sess = some e) ∧ (rx.tags = frameTags s e (.reservation slot blk true)) ∧ (u = { s with xing := { s.xing with aliveIn := rx.alive, sess := some { e with rx := e.rx + rx.tags.length } } })) :=
  by and_intros <;> first | with_reducible rfl | exact (rfl : (_ : List Bytes) = _) | exact (rfl : (_ : State) = _) | decide +kernel

/-- A state and operands that meet the hypotheses of the clause ward of CrossingEffects. -/
theorem meets_CrossingEffects_ward :
    (let s : State := { ready with fnt := { begun := true, state := 4, int := { on := true, key := toLe 32 1, v := toLe 16 2 } }, life := { state := 2 }, units := { arc := [(0, { kat := false, offline := false })] }, xing := { state := 3, sess := some { keyOut := toLe 32 5, keyIn := toLe 32 6, tx := 3, rx := 5 } } }; let e : Sess := { keyOut := toLe 32 5, keyIn := toLe 32 6, tx := 3, rx := 5 }; let k : Nat := 9; let w : Option WardEnt := some ⟨4, [], 0⟩; let rx : XRx := ⟨frameTags s e (.ward k w), true⟩; let u : State := { s with xing := { s.xing with aliveIn := rx.alive, sess := some { e with rx := e.rx + rx.tags.length } } }; (s.xing.sess = some e) ∧ (rx.tags = frameTags s e (.ward k w)) ∧ (u = { s with xing := { s.xing with aliveIn := rx.alive, sess := some { e with rx := e.rx + rx.tags.length } } })) :=
  by and_intros <;> first | with_reducible rfl | exact (rfl : (_ : List Bytes) = _) | exact (rfl : (_ : State) = _) | decide +kernel

/-- A state and operands that meet the hypotheses of the clause queueRec of CrossingEffects. -/
theorem meets_CrossingEffects_queueRec :
    (let s : State := setQueue { ready with fnt := { begun := true, state := 4, int := { on := true, key := toLe 32 1, v := toLe 16 2 } }, life := { state := 2 }, units := { arc := [(0, { kat := false, offline := false })] }, xing := { state := 3, sess := some { keyOut := toLe 32 5, keyIn := toLe 32 6, tx := 3, rx := 5 } } } 7 { role := 2 }; let e : Sess := { keyOut := toLe 32 5, keyIn := toLe 32 6, tx := 3, rx := 5 }; let q : QueueNo := 7; let w : Tbl Word := [(5, 9)]; let rx : XRx := ⟨frameTags s e (.queueRec q w), true⟩; let u : State := { s with xing := { s.xing with aliveIn := rx.alive, sess := some { e with rx := e.rx + rx.tags.length } } }; (s.xing.sess = some e) ∧ ((queueAt s q.val).role = 2) ∧ (rx.tags = frameTags s e (.queueRec q w)) ∧ (u = { s with xing := { s.xing with aliveIn := rx.alive, sess := some { e with rx := e.rx + rx.tags.length } } })) :=
  by and_intros <;> first | with_reducible rfl | exact (rfl : (_ : List Bytes) = _) | exact (rfl : (_ : State) = _) | decide +kernel

/-- A state and operands that meet the hypotheses of the clause queueStandby of CrossingEffects. -/
theorem meets_CrossingEffects_queueStandby :
    (let s : State := { ready with fnt := { begun := true, state := 4, int := { on := true, key := toLe 32 1, v := toLe 16 2 } }, life := { state := 2 }, units := { arc := [(0, { kat := false, offline := false })] }, xing := { state := 3, sess := some { keyOut := toLe 32 5, keyIn := toLe 32 6, tx := 3, rx := 5 } } }; let e : Sess := { keyOut := toLe 32 5, keyIn := toLe 32 6, tx := 3, rx := 5 }; let q : QueueNo := 7; let w : Tbl Word := [(5, 9)]; let win : List (Nat × Bytes) := [(4, [1])]; let rx : XRx := ⟨frameTags s e (.queueRole q true w win), true⟩; let u : State := { s with xing := { s.xing with aliveIn := rx.alive, sess := some { e with rx := e.rx + rx.tags.length } } }; (s.xing.sess = some e) ∧ (rx.tags = frameTags s e (.queueRole q true w win)) ∧ (u = { s with xing := { s.xing with aliveIn := rx.alive, sess := some { e with rx := e.rx + rx.tags.length } } })) :=
  by and_intros <;> first | with_reducible rfl | exact (rfl : (_ : List Bytes) = _) | exact (rfl : (_ : State) = _) | decide +kernel

/-- A state and operands that meet the hypotheses of the clause queueLocal of CrossingEffects. -/
theorem meets_CrossingEffects_queueLocal :
    (let s : State := setQueue { ready with fnt := { begun := true, state := 4, int := { on := true, key := toLe 32 1, v := toLe 16 2 } }, life := { state := 2 }, units := { arc := [(0, { kat := false, offline := false })] }, xing := { state := 3, sess := some { keyOut := toLe 32 5, keyIn := toLe 32 6, tx := 3, rx := 5 } } } 7 { role := 2 }; let e : Sess := { keyOut := toLe 32 5, keyIn := toLe 32 6, tx := 3, rx := 5 }; let q : QueueNo := 7; let w : Tbl Word := []; let win : List (Nat × Bytes) := []; let rx : XRx := ⟨frameTags s e (.queueRole q false w win), true⟩; let u : State := { s with xing := { s.xing with aliveIn := rx.alive, sess := some { e with rx := e.rx + rx.tags.length } } }; (s.xing.sess = some e) ∧ (rx.tags = frameTags s e (.queueRole q false w win)) ∧ (u = { s with xing := { s.xing with aliveIn := rx.alive, sess := some { e with rx := e.rx + rx.tags.length } } })) :=
  by and_intros <;> first | with_reducible rfl | exact (rfl : (_ : List Bytes) = _) | exact (rfl : (_ : State) = _) | decide +kernel

/-- A state and operands that meet the hypotheses of the clause replay of CrossingEffects. -/
theorem meets_CrossingEffects_replay :
    (let s : State := setQueue { ready with fnt := { begun := true, state := 4, int := { on := true, key := toLe 32 1, v := toLe 16 2 } }, life := { state := 2 }, units := { arc := [(0, { kat := false, offline := false })] }, xing := { state := 3, sess := some { keyOut := toLe 32 5, keyIn := toLe 32 6, tx := 3, rx := 5 } } } 7 { role := 2 }; let e : Sess := { keyOut := toLe 32 5, keyIn := toLe 32 6, tx := 3, rx := 5 }; let q : QueueNo := 7; let tag : Nat := 5; let cpl : Bytes := []; let rx : XRx := ⟨frameTags s e (.replay q tag cpl), true⟩; let u : State := { s with xing := { s.xing with aliveIn := rx.alive, sess := some { e with rx := e.rx + rx.tags.length } } }; (s.xing.sess = some e) ∧ ((queueAt s q.val).role = 2) ∧ (rx.tags = frameTags s e (.replay q tag cpl)) ∧ (u = { s with xing := { s.xing with aliveIn := rx.alive, sess := some { e with rx := e.rx + rx.tags.length } } })) :=
  by and_intros <;> first | with_reducible rfl | exact (rfl : (_ : List Bytes) = _) | exact (rfl : (_ : State) = _) | decide +kernel

/-- A state and operands that meet the hypotheses of the clause notStandby of CrossingEffects. -/
theorem meets_CrossingEffects_notStandby :
    (let s : State := { ready with fnt := { begun := true, state := 4, int := { on := true, key := toLe 32 1, v := toLe 16 2 } }, life := { state := 2 }, units := { arc := [(0, { kat := false, offline := false })] }, xing := { state := 3, sess := some { keyOut := toLe 32 5, keyIn := toLe 32 6, tx := 3, rx := 5 } } }; let e : Sess := { keyOut := toLe 32 5, keyIn := toLe 32 6, tx := 3, rx := 5 }; let q : QueueNo := 7; let tag : Nat := 5; let cpl : Bytes := []; let rx : XRx := ⟨frameTags s e (.replay q tag cpl), true⟩; let u : State := { s with xing := { s.xing with aliveIn := rx.alive, sess := some { e with rx := e.rx + rx.tags.length } } }; (s.xing.sess = some e) ∧ ((queueAt s q.val).role ≠ 2) ∧ (rx.tags = frameTags s e (.replay q tag cpl)) ∧ (u = { s with xing := { s.xing with aliveIn := rx.alive, sess := some { e with rx := e.rx + rx.tags.length } } })) :=
  by and_intros <;> first | with_reducible rfl | exact (rfl : (_ : List Bytes) = _) | exact (rfl : (_ : State) = _) | decide +kernel

/-- A state and operands that meet the hypotheses of the clause foundGoesOn of FleetEffects. -/
theorem meets_FleetEffects_foundGoesOn :
    (let s : State := { ready with life := { state := 2 }, fer := { fleetRole := 3 }, fleet := { held := some .found } }; let p : State := drbgGenerate ({ ready with life := { state := 2 }, fer := { fleetRole := 3 }, fleet := { held := some .found } }) false none; let hit : Option Hit := none; (p = drbgGenerate s false hit) ∧ (p.xing.held = none) ∧ (p.fleet.held = some .found) ∧ ((foundRun p).xing.upWait = none ∧ (foundRun p).life.op = none ∧ (foundRun p).load = none)) :=
  by and_intros <;> rfl

/-- A state and operands that meet the hypotheses of the clause foundRootGoesOn of FleetEffects. -/
theorem meets_FleetEffects_foundRootGoesOn :
    (let s : State := { ready with life := { state := 2 }, fer := { fleetRole := 3 }, fleet := { held := some .foundRoot } }; let p : State := drbgGenerate ({ ready with life := { state := 2 }, fer := { fleetRole := 3 }, fleet := { held := some .foundRoot } }) false none; let hit : Option Hit := none; (p = drbgGenerate s false hit) ∧ (p.xing.held = none) ∧ (p.fleet.held = some .foundRoot) ∧ ((foundRoot p).xing.upWait = none ∧ (foundRoot p).life.op = none ∧ (foundRoot p).load = none)) :=
  by and_intros <;> rfl

/-- A state and operands that meet the hypotheses of the clause enrolGoesOn of FleetEffects. -/
theorem meets_FleetEffects_enrolGoesOn :
    (let s : State := { ready with life := { state := 2 }, fer := { fleetRole := 3 }, fleet := { held := some (.enrol 1) } }; let p : State := drbgGenerate ({ ready with life := { state := 2 }, fer := { fleetRole := 3 }, fleet := { held := some (.enrol 1) } }) false none; let hit : Option Hit := none; let fails : Nat := 1; (p = drbgGenerate s false hit) ∧ (p.xing.held = none) ∧ (p.fleet.held = some (.enrol fails)) ∧ ((enrolRun p fails).xing.upWait = none ∧ (enrolRun p fails).life.op = none ∧ (enrolRun p fails).load = none)) :=
  by and_intros <;> rfl

/-- A state and operands that meet the hypotheses of the clause admissionGoesOn of FleetEffects. -/
theorem meets_FleetEffects_admissionGoesOn :
    (let s : State := { ready with life := { state := 2 }, fer := { fleetRole := 3 }, fleet := { held := some (.admission 1) } }; let p : State := drbgGenerate ({ ready with life := { state := 2 }, fer := { fleetRole := 3 }, fleet := { held := some (.admission 1) } }) false none; let hit : Option Hit := none; let fails : Nat := 1; (p = drbgGenerate s false hit) ∧ (p.xing.held = none) ∧ (p.fleet.held = some (.admission fails)) ∧ ((admissionRun p fails).xing.upWait = none ∧ (admissionRun p fails).life.op = none ∧ (admissionRun p fails).load = none)) :=
  by and_intros <;> rfl

/-- A state and operands that meet the hypotheses of the clause makeGoesOn of FleetEffects. -/
theorem meets_FleetEffects_makeGoesOn :
    (let s : State := { ready with life := { state := 2 }, fer := { fleetRole := 3 }, fleet := { held := some .make } }; let p : State := drbgGenerate ({ ready with life := { state := 2 }, fer := { fleetRole := 3 }, fleet := { held := some .make } }) false none; let hit : Option Hit := none; (p = drbgGenerate s false hit) ∧ (p.xing.held = none) ∧ (p.fleet.held = some .make) ∧ ((makeRun p).xing.upWait = none ∧ (makeRun p).life.op = none ∧ (makeRun p).load = none)) :=
  by and_intros <;> rfl

/-- A state and operands that meet the hypotheses of the clause blockSeal of DepotEffects. -/
theorem meets_DepotEffects_blockSeal :
    (let s : State := setReg (setReg ({ ready with sd := { op := some { kind := .read, wait := .data, buf := 0x1000200, count := 4, run := 4, got := 1, idx := 18 } } }) Reg.DEPOT_STAT 0x47) Reg.DEPOT_CAP 0x100; let b : Bytes := toLe 40 7; let full : Bool := true; let h : Hit := { code := 1 }; let o : SdOp := { kind := .read, wait := .data, buf := 0x1000200, count := 4, run := 4, got := 1, idx := 18 }; (s.sd.op = some o) ∧ (o.wait = .data) ∧ (o.kind = .read) ∧ (o.cut = false) ∧ (o.auto = false) ∧ ((sealPass 0x4C 0x40 none (512 * (o.off + o.got)) (fit 512 b) (some h)).2 = false) ∧ (NoCardLoad s)) :=
  by and_intros <;> first | decide +kernel | exact sealPass_code (by decide) (by decide)

/-- A state and operands that meet the hypotheses of the clause sealFails of DepotEffects. -/
theorem meets_DepotEffects_sealFails :
    (let s : State := setReg (setReg ({ ready with sd := { op := some { kind := .write, wait := .data, buf := 0x1000200, count := 4, run := 4, idx := 25 } } }) Reg.DEPOT_STAT 0x47) Reg.DEPOT_CAP 0x100; let way : Passage := { hit := some { code := 1 } }; let o : SdOp := { kind := .write, wait := .data, buf := 0x1000200, count := 4, run := 4, idx := 25 }; (s.sd.op = some o) ∧ (o.wait = .data) ∧ (o.kind = .write) ∧ (o.auto = false) ∧ (o.got + 1 < o.run) ∧ ((sealPass 0x40 0x4C none (512 * (o.off + (o.got + 1))) (memBytes s (o.buf + 512 * (o.off + (o.got + 1))) 512) way.hit).2 = false) ∧ (way.uncorr = none) ∧ (damagedAt s (o.buf + 512 * (o.off + (o.got + 1))) 512 = none) ∧ (sdRecord o = false) ∧ (NoCardLoad s)) :=
  by and_intros <;> first | decide +kernel | exact sealPass_code (by decide) (by decide)

/-- A page with VALID 0 and one with VALID 1; writing 1 to VALID. -/
theorem meets_ErrorRecord :
    (pageOn ready 4 = true ∧ rbit ready (rk 4 Reg.ERR_SYND) 23 = false) ∧
    (let s := errSynd ready 4 0x11 0 0 0; pageOn s 4 = true ∧ rbit s (rk 4 Reg.ERR_SYND) 23 = true) ∧
    (pageOn ready 4 = true ∧ wbit 0x800000 23 = true) :=
  ⟨by decide, by decide, by decide⟩

/-- Core 3 running at pc 0x100. -/
def core3 : State := { ready with cores := [(3, { state := 2, r := { pc := 0x100, g := [(1, 7), (2, 0xFFFFFFF5)] } })] }

/-- MOVI issues on core 3, for G4 and for G0, and again after the low half has been written. -/
theorem meets_MoviResult :
    Issues core3 3 { guard := 0 } ∧ (4 : GReg).val ≠ 0 ∧ (0 : GReg).val = 0 ∧
      ∃ t, execMovi 3 { guard := 0 } 4 false 5 core3 = .next t ∧ Issues t 3 { guard := 0 } := by
  refine ⟨by decide +kernel, by decide, rfl, _, rfl, by decide +kernel⟩

/-- The empty queue of the state after reset, and a step from it. -/
theorem meets_StepRunsFrontCommand : State.reset.pending = [] := rfl
theorem meets_StepKeepsMemory : MemInv State.reset ∧ step State.reset = .next (idleCycle State.reset) := ⟨by unfold MemInv; decide, rfl⟩
end

section
/-! SUPPORT. Footprints: which parts of the state, and which registers, an operation may change, and what a message, a block event, an
error record and a counted fault may change by it. -/
namespace Sys2Proof.Machine
open Sys2Proof

/-- The parts of the state that may change: put s t is s with those parts taken from t. -/
structure Footprint where
  put : State → State → State
  put_put : ∀ s t u, put (put s t) u = put s u := by intros; rfl
  put_self : ∀ s, put s s = s := by intros; rfl

/-- Every part that F lets change, G lets change too. -/
def Footprint.Within (F G : Footprint) : Prop := ∀ s t, G.put s (F.put s t) = F.put s t

/-- From s to t only the parts that F names differ, and of the registers only those for which P holds. -/
structure Changes (F : Footprint) (P : Nat → Prop) (s t : State) : Prop where
  frame : t = F.put s t
  regs : ∀ k, ¬ P k → reg t k = reg s k

section
variable {F G : Footprint} {P Q : Nat → Prop} {s t u : State}

theorem Changes.refl (F : Footprint) (P : Nat → Prop) (s : State) : Changes F P s s := ⟨(F.put_self s).symm, fun _ _ => rfl⟩

theorem Changes.trans (h : Changes F P s t) (g : Changes F P t u) : Changes F P s u := by
  refine ⟨?_, fun k hk => (g.regs k hk).trans (h.regs k hk)⟩
  calc u = F.put t u := g.frame
    _ = F.put (F.put s t) u := by rw [← h.frame]
    _ = F.put s u := F.put_put s t u

theorem Changes.mono (h : Changes F P s t) (hF : F.Within G) (hP : ∀ k, P k → Q k) : Changes G Q s t := by
  refine ⟨?_, fun k hk => h.regs k fun g => hk (hP k g)⟩
  calc t = F.put s t := h.frame
    _ = G.put s (F.put s t) := (hF s t).symm
    _ = G.put s t := by rw [← h.frame]

theorem Footprint.within_refl (F : Footprint) : F.Within F := fun s t => by
  rw [← F.put_put s t (F.put s t), F.put_self]

/-- More registers may differ. -/
theorem Changes.more (h : Changes F P s t) (hP : ∀ k, P k → Q k) : Changes F Q s t := h.mono F.within_refl hP

/-- What the footprint does not touch is as before. -/
theorem Changes.kept {α : Sort _} (h : Changes F P s t) (f : State → α) (hf : ∀ s t, f (F.put s t) = f s) : f t = f s :=
  (congrArg f h.frame).trans (hf s t)

theorem Changes.foldl {α : Type} {f : State → α → State} (hf : ∀ s a, Changes F P s (f s a)) (l : List α) :
    ∀ s, Changes F P s (l.foldl f s) := by
  induction l with
  | nil => exact Changes.refl F P
  | cons a l ih => exact fun s => (hf s a).trans (ih (f s a))
end

/-- The registers a statement names: by BAR0 offset, by offset within any page, or by page. -/
def Named (keys offs pages : List Nat) (k : Nat) : Prop := k ∈ keys ∨ k % 0x1000 ∈ offs ∨ k / 0x1000 ∈ pages

theorem Named.mono {keys offs pages keys' offs' pages' : List Nat} (hk : keys ⊆ keys') (ho : offs ⊆ offs') (hp : pages ⊆ pages')
    (k : Nat) : Named keys offs pages k → Named keys' offs' pages' k :=
  Or.imp (@hk k) (Or.imp (@ho _) (@hp _))

theorem not_named {keys offs pages : List Nat} {k : Nat}
    (h : (keys.contains k || offs.contains (k % 0x1000) || pages.contains (k / 0x1000)) = false) : ¬ Named keys offs pages k := by
  simpa [Named, and_assoc] using h

theorem Changes.otherRegs {F : Footprint} {keys offs pages : List Nat} {s t : State} (h : Changes F (Named keys offs pages) s t) :
    OtherRegs s t keys offs pages :=
  fun k _ hk ho hp => h.regs k fun g => g.elim hk fun g => g.elim ho hp

theorem rk_mod {p off : Nat} (h : off < 0x1000) : rk p off % 0x1000 = off := by unfold rk; omega

/-! ## The footprints of the shared operations -/

/-- A register write. -/
def regFoot : Footprint where
  put s t := { s with regs := t.regs, parBad := t.parBad }
/-- A message. -/
def msgFoot : Footprint where
  put s t := { s with out := t.out, quay := { s.quay with msix := t.quay.msix } }
/-- An event or an error record. -/
def eventFoot : Footprint where
  put s t := { s with out := t.out, regs := t.regs, parBad := t.parBad, quay := { s.quay with msix := t.quay.msix } }
/-- A counted fault. -/
def faultFoot : Footprint where
  put s t := { s with
    out := t.out, regs := t.regs, parBad := t.parBad, wins := t.wins
    quay := { s.quay with msix := t.quay.msix }, kerb := { s.kerb with reports := t.kerb.reports }
    fnt := { s.fnt with
      state := t.fnt.state, absorbed := t.fnt.absorbed, credit := t.fnt.credit, seed := t.fnt.seed, int := t.fnt.int, sw := t.fnt.sw
      katBusy := t.fnt.katBusy, part := t.fnt.part, rngDead := t.fnt.rngDead } }

/-- The registers an event, an error record and a counted fault write, by their offset in a page. -/
abbrev eventRegs : Nat → Prop := Named [] [Reg.INT_STAT] []
abbrev errRegs : Nat → Prop := Named [] [Reg.INT_STAT, Reg.ERR_SYND, Reg.ERR_ADDR] []
abbrev faultRegs : Nat → Prop := Named [] [Reg.PAGE_STAT, Reg.INT_STAT, Reg.FAULT_CNT] []

theorem named_off {p off : Nat} {keys offs pages : List Nat} (h : off < 0x1000) (g : off ∈ offs) : Named keys offs pages (rk p off) :=
  .inr (.inl ((rk_mod h).symm ▸ g))

theorem ne_rk_of_not_named {k p off : Nat} {keys offs pages : List Nat} (hk : ¬ Named keys offs pages k) (h : off < 0x1000)
    (g : off ∈ offs) : k ≠ rk p off := fun e => hk (e ▸ named_off h g)

theorem changes_setReg {P : Nat → Prop} (s : State) {k : Nat} (w : Word) (h : P k) : Changes regFoot P s (setReg s k w) :=
  ⟨rfl, fun _ hj => reg_setReg_ne s w fun e => hj (e ▸ h)⟩

theorem changes_setFld {P : Nat → Prop} (s : State) {k : Nat} (hi lo v : Nat) (h : P k) : Changes regFoot P s (setFld s k hi lo v) :=
  changes_setReg s _ h

theorem changes_bump {P : Nat → Prop} (s : State) {k : Nat} (hi lo n : Nat) (h : P k) : Changes regFoot P s (bump s k hi lo n) :=
  changes_setFld s hi lo _ h

theorem changes_sendMsix (P : Nat → Prop) (s : State) (f e : Nat) : Changes msgFoot P s (sendMsix s f e) := by
  obtain ⟨m, o, h⟩ := sendMsix_frame s f e
  rw [h]
  exact ⟨rfl, fun _ _ => rfl⟩

theorem changes_groupMessage (P : Nat → Prop) (s : State) (g : Nat) : Changes msgFoot P s (groupMessage s g) := by
  obtain ⟨m, o, h⟩ := groupMessage_frame s g
  rw [h]
  exact ⟨rfl, fun _ _ => rfl⟩

@[simp] theorem reg_sendMsix (s : State) (f e k : Nat) : reg (sendMsix s f e) k = reg s k :=
  (changes_sendMsix (fun _ => False) s f e).regs k id

@[simp] theorem reg_groupMessage (s : State) (g k : Nat) : reg (groupMessage s g) k = reg s k :=
  (changes_groupMessage (fun _ => False) s g).regs k id

/-- A block event sets its bits in INT_STAT where its page is on. -/
theorem reg_raiseInt (s : State) (p mask k : Nat) :
    reg (raiseInt s p mask) k =
      if pageOn s p = true ∧ k = rk p Reg.INT_STAT then reg s k ||| BitVec.ofNat 32 mask else reg s k := by
  have hset : reg (setReg s (rk p Reg.INT_STAT) (reg s (rk p Reg.INT_STAT) ||| BitVec.ofNat 32 mask)) k =
      if k = rk p Reg.INT_STAT then reg s k ||| BitVec.ofNat 32 mask else reg s k := by
    by_cases h : k = rk p Reg.INT_STAT
    · rw [h, reg_setReg_same, if_pos rfl]
    · rw [reg_setReg_ne s _ h, if_neg h]
  unfold raiseInt
  by_cases hp : pageOn s p = true
  · simp only [hp, Bool.not_true, Bool.false_eq_true, if_false, true_and]
    split
    · rw [reg_groupMessage, hset]
    · exact hset
  · simp [hp]

theorem reg_raiseInt_ne (s : State) {p k : Nat} (mask : Nat) (h : k ≠ rk p Reg.INT_STAT) : reg (raiseInt s p mask) k = reg s k := by
  rw [reg_raiseInt, if_neg fun g => h g.2]

theorem changes_raiseInt (s : State) (p mask : Nat) : Changes eventFoot eventRegs s (raiseInt s p mask) := by
  refine ⟨?_, fun k hk => reg_raiseInt_ne s mask (ne_rk_of_not_named hk (by decide) (by decide))⟩
  obtain ⟨r, b, m, o, h⟩ := raiseInt_frame s p mask
  rw [h]
  rfl

/-- What an error record leaves in a page whose VALID is 0. -/
theorem errSynd_eq_of_valid_zero {s : State} {p : Nat} (code master info addr : Nat) (hp : pageOn s p = true)
    (hv : rbit s (rk p Reg.ERR_SYND) 23 = false) :
    errSynd s p code master info addr =
      raiseInt (setReg (setReg s (rk p Reg.ERR_SYND)
        (BitVec.ofNat 32 (code % 256 * 2 ^ 24 + 2 ^ 23 + master % 64 * 2 ^ 16 + info % 65536)))
        (rk p Reg.ERR_ADDR) (BitVec.ofNat 32 addr)) p (2 ^ 29) := by
  simp [errSynd, hp, hv]

theorem reg_errSynd_ne (s : State) {p k : Nat} (code master info addr : Nat) (hi : k ≠ rk p Reg.INT_STAT)
    (hs : k ≠ rk p Reg.ERR_SYND) (ha : k ≠ rk p Reg.ERR_ADDR) : reg (errSynd s p code master info addr) k = reg s k := by
  unfold errSynd
  split
  · rfl
  · split
    · exact reg_setFld_ne s _ _ _ hs
    · simp only [reg_raiseInt_ne _ _ hi, reg_setReg_ne _ _ ha, reg_setReg_ne _ _ hs]

theorem changes_errSynd (s : State) (p code master info addr : Nat) :
    Changes eventFoot errRegs s (errSynd s p code master info addr) := by
  refine ⟨?_, fun k hk => reg_errSynd_ne s _ _ _ _ (ne_rk_of_not_named hk (by decide) (by decide))
    (ne_rk_of_not_named hk (by decide) (by decide)) (ne_rk_of_not_named hk (by decide) (by decide))⟩
  obtain ⟨r, b, m, o, h⟩ := errSynd_frame s p code master info addr
  rw [h]
  rfl

theorem event_within_fault : eventFoot.Within faultFoot := fun _ _ => rfl
theorem reg_within_fault : regFoot.Within faultFoot := fun _ _ => rfl
theorem reg_within_event : regFoot.Within eventFoot := fun _ _ => rfl

theorem changes_kreport (P : Nat → Prop) (s : State) (v : KReport) : Changes faultFoot P s (kreport s v) := ⟨rfl, fun _ _ => rfl⟩

theorem changes_raiseInt_fault (s : State) (p mask : Nat) : Changes faultFoot faultRegs s (raiseInt s p mask) :=
  (changes_raiseInt s p mask).mono event_within_fault (Named.mono (by decide) (by decide) (by decide))

theorem changes_fountainFail (s : State) : Changes faultFoot faultRegs s (fountainFail s) := by
  unfold fountainFail
  refine Changes.trans ?_ ((changes_raiseInt_fault _ 0x2C 4).trans (changes_kreport _ _ _))
  exact ⟨rfl, fun _ _ => rfl⟩

theorem changes_countFault (s : State) (p : Nat) : Changes faultFoot faultRegs s (countFault s p) := by
  have hb : Changes faultFoot faultRegs s (bump s (rk p Reg.FAULT_CNT) 15 0 1) :=
    (changes_bump s 15 0 1 (named_off (by decide) (by decide))).mono reg_within_fault fun _ => id
  have hk := hb.trans (changes_kreport faultRegs _ { src := 10, info := p })
  have hw (w : List Nat) (t : State) : Changes faultFoot faultRegs t { t with wins := w } := ⟨rfl, fun _ _ => rfl⟩
  unfold countFault
  split
  · exact Changes.refl ..
  · dsimp only
    split
    · exact hk
    · split
      · have hs := hb.trans ((changes_setFld (P := faultRegs) _ 31 31 1 (named_off (p := p) (off := Reg.PAGE_STAT) (by decide)
          (by decide))).mono reg_within_fault fun _ => id)
        have hl := ((hs.trans (hw ((bump s (rk p Reg.FAULT_CNT) 15 0 1).wins.filter fun q => q != p) _)).trans
          (changes_raiseInt_fault _ p (2 ^ 31))).trans (changes_kreport faultRegs _ { src := 10, info := p, lasting := true })
        split
        · exact hl.trans (changes_fountainFail _)
        · exact hl
      · split
        · exact hk.trans (hw _ _)
        · exact hk

/-! ## What they leave as it was -/

theorem domOn_eq {s t : State} (hm : t.mainOn = s.mainOn) (hp : reg t Reg.PWR_STAT = reg s Reg.PWR_STAT)
    (hb : reg t Reg.BOOT_STAT = reg s Reg.BOOT_STAT) (d : Nat) : domOn t d = domOn s d := by
  unfold domOn bootStage rbit fld
  rw [hm, hp, hb]

theorem pageOn_eq {s t : State} (hm : t.mainOn = s.mainOn) (hp : reg t Reg.PWR_STAT = reg s Reg.PWR_STAT)
    (hb : reg t Reg.BOOT_STAT = reg s Reg.BOOT_STAT) (p : Nat) : pageOn t p = pageOn s p := by
  simp [pageOn, domOn_eq hm hp hb]

@[simp] theorem queueAt_sendMsix (s : State) (f e q : Nat) : queueAt (sendMsix s f e) q = queueAt s q :=
  (changes_sendMsix (fun _ => False) s f e).kept (queueAt · q) fun _ _ => rfl
@[simp] theorem queueAt_raiseInt (s : State) (p m q : Nat) : queueAt (raiseInt s p m) q = queueAt s q :=
  (changes_raiseInt s p m).kept (queueAt · q) fun _ _ => rfl
@[simp] theorem queueAt_errSynd (s : State) (p c m i a q : Nat) : queueAt (errSynd s p c m i a) q = queueAt s q :=
  (changes_errSynd s p c m i a).kept (queueAt · q) fun _ _ => rfl
@[simp] theorem queueAt_setQueue_same (s : State) (q : Nat) (v : Queue) : queueAt (setQueue s q v) q = v := tget_tset_same _ _ _ _
theorem queueAt_setQueue_ne (s : State) {q r : Nat} (v : Queue) (h : r ≠ q) : queueAt (setQueue s q v) r = queueAt s r :=
  tget_tset_ne _ _ _ h
@[simp] theorem ctxAt_setCtx_same (s : State) (c : Nat) (x : Ctx) : ctxAt (setCtx s c x) c = some x := tfind_tput_same _ _ _

/-! ## The record of an error -/

theorem wbits_ofNat (n hi lo : Nat) : wbits (BitVec.ofNat 32 n) hi lo = n % 2 ^ 32 / 2 ^ lo % 2 ^ (hi + 1 - lo) := by
  simp [wbits, bits, Nat.shiftRight_eq_div_pow]

/-- The record of an error in a page that held none: its CODE, its INFO and its address. -/
theorem errSynd_record {s : State} {p : Nat} (code master info addr : Nat) (hp : pageOn s p = true)
    (hv : rbit s (rk p Reg.ERR_SYND) 23 = false) :
    fld (errSynd s p code master info addr) (rk p Reg.ERR_SYND) 31 24 = code % 256 ∧
      fld (errSynd s p code master info addr) (rk p Reg.ERR_SYND) 15 0 = info % 65536 ∧
      reg (errSynd s p code master info addr) (rk p Reg.ERR_ADDR) = BitVec.ofNat 32 addr := by
  have hsi : rk p Reg.ERR_SYND ≠ rk p Reg.INT_STAT := by simp [rk, Reg.ERR_SYND, Reg.INT_STAT]
  have hai : rk p Reg.ERR_ADDR ≠ rk p Reg.INT_STAT := by simp [rk, Reg.ERR_ADDR, Reg.INT_STAT]
  have hsa : rk p Reg.ERR_SYND ≠ rk p Reg.ERR_ADDR := by simp [rk, Reg.ERR_ADDR, Reg.ERR_SYND]
  rw [errSynd_eq_of_valid_zero code master info addr hp hv]
  have hc : code % 256 < 256 := Nat.mod_lt _ (by decide)
  have hm : master % 64 < 64 := Nat.mod_lt _ (by decide)
  have hi : info % 65536 < 65536 := Nat.mod_lt _ (by decide)
  refine ⟨?_, ?_, ?_⟩
  · rw [fld, reg_raiseInt_ne _ _ hsi, reg_setReg_ne _ _ hsa, reg_setReg_same, wbits_ofNat]
    omega
  · rw [fld, reg_raiseInt_ne _ _ hsi, reg_setReg_ne _ _ hsa, reg_setReg_same, wbits_ofNat]
    omega
  · rw [reg_raiseInt_ne _ _ hai, reg_setReg_same]

end Sys2Proof.Machine
end


section
/-! SUPPORT and CLAIM. The doorbells of a queue (R48 to R52). -/
namespace Sys2Proof.Machine
open Sys2Proof

/-- An event, an error record, and queues. -/
def queueFoot : Footprint where
  put s t := { s with
    out := t.out, regs := t.regs, parBad := t.parBad, quay := { s.quay with queues := t.quay.queues, msix := t.quay.msix } }

theorem event_within_queue : eventFoot.Within queueFoot := fun _ _ => rfl

theorem changes_setQueue (P : Nat → Prop) (s : State) (q : Nat) (v : Queue) : Changes queueFoot P s (setQueue s q v) :=
  ⟨rfl, fun _ _ => rfl⟩

section
variable {s : State} {fn q off : Nat} {k : State}

theorem doorbell_ignored (h : bar2Open s fn = false ∨ (qFunc (queueAt s q) = fn ∧ (queueAt s q).state ≠ .enabled)) :
    doorbell s fn q off k = s := by
  rcases h with h | ⟨hf, he⟩
  · simp [doorbell, h]
  · simp [doorbell, hf, he]

theorem doorbell_taken (ho : bar2Open s fn = true) (hf : qFunc (queueAt s q) = fn) (he : (queueAt s q).state = .enabled) :
    doorbell s fn q off k = k := by
  simp [doorbell, ho, hf, he]

theorem doorbell_foreign (ho : bar2Open s fn = true) (hf : qFunc (queueAt s q) ≠ fn) :
    doorbell s fn q off k = errSynd s 0x0A 0x11 (fnPort fn) fn (0x40 * q + off) := by
  simp [doorbell, ho, hf]
end

@[simp] theorem queueAt_doorbellError (s : State) (fn q v : Nat) :
    queueAt (doorbellError s fn q v) q = { queueAt s q with dbErr := true } := by
  simp [doorbellError]

theorem changes_doorbellError (s : State) (fn q v : Nat) : Changes queueFoot errRegs s (doorbellError s fn q v) := by
  unfold doorbellError
  exact ((changes_setQueue errRegs s q _).trans ((changes_errSynd ..).mono event_within_queue fun _ => id)).trans
    ((changes_raiseInt ..).mono event_within_queue (Named.mono (by decide) (by decide) (by decide)))

/-- What a doorbell of a function that does not own the queue leaves: the record with CODE 0x11, and the queues as they were (R49). -/
theorem errSynd_foreign_doorbell {s : State} (fn : FnNo) (a : Nat) (hp : pageOn s 0x0A = true)
    (hv : rbit s (rk 0x0A Reg.ERR_SYND) 23 = false) {t : State} (ht : t = errSynd s 0x0A 0x11 (fnPort fn.val) fn.val a) :
    fld t (rk 0x0A Reg.ERR_SYND) 31 24 = 0x11 ∧ fld t (rk 0x0A Reg.ERR_SYND) 15 0 = fn.val ∧
      reg t (rk 0x0A Reg.ERR_ADDR) = BitVec.ofNat 32 a ∧ t.quay.queues = s.quay.queues ∧ Changes queueFoot errRegs s t := by
  subst ht
  obtain ⟨hcode, hinfo, haddr⟩ := errSynd_record 0x11 (fnPort fn.val) fn.val a hp hv
  have hc := changes_errSynd s 0x0A 0x11 (fnPort fn.val) fn.val a
  exact ⟨hcode, hinfo.trans (Nat.mod_eq_of_lt (by omega)), haddr, hc.kept (·.quay.queues) fun _ _ => rfl,
    hc.mono event_within_queue fun _ => id⟩

/-- Settles O3: each doorbell is one of ignored, recorded, taken or in error, by the state of the queue and the value written. -/
theorem doorbells : Obligations.Doorbells := by
  unfold Obligations.Doorbells
  refine ⟨?sqTaken, ?sqRange, ?cqTaken, ?cqRange, ?sqIgnored, ?sqForeign, ?cqIgnored, ?cqForeign⟩
  case sqTaken =>
    intro s fn q v ho hf he hr
    refine ⟨sqTailDb s fn.val q.val v, rfl, ?_⟩
    have e : sqTailDb s fn.val q.val v = setQueue s q.val { queueAt s q.val with sqTail := wbits v 15 0 } := by
      simp only [sqTailDb, doorbell_taken ho hf he, if_pos hr]
    have hc := changes_setQueue errRegs s q.val { queueAt s q.val with sqTail := wbits v 15 0 }
    rw [e]
    exact ⟨queueAt_setQueue_same .., hc.frame, hc.otherRegs⟩
  case sqRange =>
    intro s fn q v ho hf he hr
    refine ⟨sqTailDb s fn.val q.val v, rfl, ?_⟩
    have e : sqTailDb s fn.val q.val v = doorbellError s fn.val q.val v.toNat := by
      simp only [sqTailDb, doorbell_taken ho hf he, if_neg (Nat.not_lt.2 hr)]
    have hc := changes_doorbellError s fn.val q.val v.toNat
    rw [e]
    exact ⟨queueAt_doorbellError .., hc.frame, hc.otherRegs⟩
  case cqTaken =>
    intro s fn q v ho hf he hr hp
    refine ⟨cqHeadDb s fn.val q.val v, rfl, ?_⟩
    have e : cqHeadDb s fn.val q.val v = setQueue s q.val { queueAt s q.val with cqHead := wbits v 15 0 } := by
      simp [cqHeadDb, doorbell_taken ho hf he, hr, hp]
    have hc := changes_setQueue errRegs s q.val { queueAt s q.val with cqHead := wbits v 15 0 }
    rw [e]
    exact ⟨queueAt_setQueue_same .., hc.frame, hc.otherRegs⟩
  case cqRange =>
    intro s fn q v ho hf he hr
    refine ⟨cqHeadDb s fn.val q.val v, rfl, ?_⟩
    have e : cqHeadDb s fn.val q.val v = doorbellError s fn.val q.val v.toNat := by
      simp only [cqHeadDb, doorbell_taken ho hf he, Bool.and_eq_true, decide_eq_true_eq, if_neg hr]
    have hc := changes_doorbellError s fn.val q.val v.toNat
    rw [e]
    exact ⟨queueAt_doorbellError .., hc.frame, hc.otherRegs⟩
  case sqIgnored =>
    intro s fn q v h
    exact ⟨sqTailDb s fn.val q.val v, rfl, doorbell_ignored h⟩
  case cqIgnored =>
    intro s fn q v h
    exact ⟨cqHeadDb s fn.val q.val v, rfl, doorbell_ignored h⟩
  case sqForeign =>
    intro s fn q v ho hf hp hv
    have e : sqTailDb s fn.val q.val v = errSynd s 0x0A 0x11 (fnPort fn.val) fn.val (0x40 * q.val + 0) := doorbell_foreign ho hf
    obtain ⟨hcode, hinfo, haddr, hq, hc⟩ := errSynd_foreign_doorbell fn _ hp hv e
    exact ⟨_, rfl, hcode, hinfo, haddr, hq, hc.frame, hc.otherRegs⟩
  case cqForeign =>
    intro s fn q v ho hf hp hv
    have e : cqHeadDb s fn.val q.val v = errSynd s 0x0A 0x11 (fnPort fn.val) fn.val (0x40 * q.val + 4) := doorbell_foreign ho hf
    obtain ⟨hcode, hinfo, haddr, hq, hc⟩ := errSynd_foreign_doorbell fn _ hp hv e
    exact ⟨_, rfl, hcode, hinfo, haddr, hq, hc.frame, hc.otherRegs⟩

end Sys2Proof.Machine
end


section
/-! SUPPORT and CLAIM. Coalescing and the MSI-X table (R79 to R81, R546). -/
namespace Sys2Proof.Machine
open Sys2Proof

/-- A message of a queue. -/
def coalFoot : Footprint where
  put s t := { s with out := t.out, quay := { s.quay with queues := t.quay.queues, msix := t.quay.msix } }
/-- A host write to a function's interrupt and control registers. -/
def msixFoot : Footprint where
  put s t := { s with out := t.out, quay := { s.quay with
    msix := t.quay.msix, msixEn := t.quay.msixEn, msixMask := t.quay.msixMask, pcie := t.quay.pcie } }

/-- No register. -/
abbrev noRegs : Nat → Prop := Named [] [] []

theorem msg_within_msix : msgFoot.Within msixFoot := fun _ _ => rfl

@[simp] theorem msixAt_setMsix_same (s : State) (f e : Nat) (m : Msix) : msixAt (setMsix s f e m) f e = m := tget_tset_same _ _ _ _

theorem changes_setMsix (P : Nat → Prop) (s : State) (f e : Nat) (m : Msix) : Changes msixFoot P s (setMsix s f e m) :=
  ⟨rfl, fun _ _ => rfl⟩

theorem member_contains (l : List Nat) (n : Nat) (b : Bool) : (member l n b).contains n = b := by
  cases b <;> simp [member]

/-! ## Coalescing -/

theorem coalTimeExpire_off {s : State} {q : Nat} (h : (queueAt s q).coalTimer = false ∨ qCoalTime (queueAt s q) = 0) :
    coalTimeExpire s q = s := by
  rcases h with h | h <;> simp [coalTimeExpire, h]

theorem coalTimeExpire_due {s : State} {q : Nat} (ht : (queueAt s q).coalTimer = true) (hc : qCoalTime (queueAt s q) ≠ 0) :
    coalTimeExpire s q = sendMsix (setQueue s q { queueAt s q with coalCnt := 0, coalTimer := false })
      (qFunc (queueAt s q)) (qVector (queueAt s q)) := by
  simp [coalTimeExpire, ht, hc]

/-! ## The table -/

theorem sendMsix_open {s : State} {fn e : Nat} (hl : linkUp s (fnPort fn) = true) (ho : msixOpen s fn e = true) :
    sendMsix s fn e = emit (setMsix s fn e { msixAt s fn e with pend := false })
      (.msix fn e ((msixAt s fn e).addrLo.toNat + 2 ^ 32 * (msixAt s fn e).addrHi.toNat) (msixAt s fn e).data) := by
  simp [sendMsix, hl, ho]

theorem msixFlush_idle {s : State} {fn e : Nat} (h : (msixAt s fn e).pend = false) : msixFlush s fn e = s := by
  simp [msixFlush, h]

theorem msixFlush_open {s : State} {fn e : Nat} (h : (msixAt s fn e).pend = true) (ho : msixOpen s fn e = true) :
    msixFlush s fn e = sendMsix s fn e := by
  simp [msixFlush, h, ho]

theorem changes_msixFlush (P : Nat → Prop) (s : State) (fn e : Nat) : Changes msgFoot P s (msixFlush s fn e) := by
  unfold msixFlush
  split
  · exact changes_sendMsix P s fn e
  · exact Changes.refl ..

theorem msixWrite_open {s : State} {fn : Nat} (h : bar2Open s fn = true) (f : MsixField) (v : Word) :
    msixWrite s fn f v = match f with
      | .addrLo e => setMsix s fn e.val { msixAt s fn e.val with addrLo := wput v 1 0 0 }
      | .addrHi e => setMsix s fn e.val { msixAt s fn e.val with addrHi := v }
      | .data e => setMsix s fn e.val { msixAt s fn e.val with data := v }
      | .vectorControl e => msixFlush (setMsix s fn e.val { msixAt s fn e.val with mask := wbit v 0 }) fn e.val
      | .messageControl =>
        (msixPending { s with quay := { s.quay with
            msixEn := member s.quay.msixEn fn (wbit v 15), msixMask := member s.quay.msixMask fn (wbit v 14) } } fn).foldl
          (fun s e => msixFlush s fn e) { s with quay := { s.quay with
            msixEn := member s.quay.msixEn fn (wbit v 15), msixMask := member s.quay.msixMask fn (wbit v 14) } }
      | .deviceControl => { s with quay := { s.quay with pcie := tset {} s.quay.pcie fn (devControl (pcieOf s fn) v) } } := by
  unfold msixWrite
  rw [h]
  rfl

theorem linkUp_of_bar2Open {s : State} {fn : Nat} (h : bar2Open s fn = true) : linkUp s (fnPort fn) = true := by
  simp only [bar2Open, Bool.and_eq_true] at h
  exact h.1.2

/-- An entry that is open once its mask is written sends its pending message (R81). -/
theorem msixWrite_unmask {s u : State} {fn : Nat} {e : Fin 2048} {v : Word} (h : bar2Open s fn = true)
    (hu : u = setMsix s fn e.val { msixAt s fn e.val with mask := wbit v 0 }) (hp : (msixAt u fn e.val).pend = true)
    (ho : msixOpen u fn e.val = true) :
    msixWrite s fn (.vectorControl e) v = emit (setMsix u fn e.val { msixAt u fn e.val with pend := false })
      (.msix fn e.val ((msixAt u fn e.val).addrLo.toNat + 2 ^ 32 * (msixAt u fn e.val).addrHi.toNat) (msixAt u fn e.val).data) := by
  have hl : linkUp u (fnPort fn) = true := hu ▸ linkUp_of_bar2Open h
  rw [msixWrite_open h]
  dsimp only
  rw [← hu, msixFlush_open hp ho, sendMsix_open hl ho]

/-- Settles O5: each write of the table is one assignment of an entry, and the flush of what it unmasks. -/
theorem interrupts : Obligations.Interrupts := by
  unfold Obligations.Interrupts
  refine ⟨?coalOff, ?coal, ?data, ?addrLo, ?addrHi, ?mask, ?unmask, ?messageControl, ?deviceControl⟩
  case coalOff =>
    intro s q h
    exact ⟨_, rfl, coalTimeExpire_off h⟩
  case coal =>
    intro s q ht hc
    refine ⟨coalTimeExpire s q.val, rfl, ?_⟩
    rw [coalTimeExpire_due ht hc]
    have hq : Changes coalFoot noRegs s (setQueue s q.val { queueAt s q.val with coalCnt := 0, coalTimer := false }) :=
      ⟨rfl, fun _ _ => rfl⟩
    have h := hq.trans ((changes_sendMsix noRegs _ (qFunc (queueAt s q.val)) (qVector (queueAt s q.val))).mono
      (fun _ _ => rfl) fun _ => id)
    exact ⟨by simp, h.frame⟩
  case data =>
    intro s fn e v h
    refine ⟨msixWrite s fn.val (.data e) v, rfl, ?_⟩
    rw [msixWrite_open h]
    exact ⟨msixAt_setMsix_same .., (changes_setMsix noRegs ..).frame⟩
  case addrLo =>
    intro s fn e v h
    refine ⟨msixWrite s fn.val (.addrLo e) v, rfl, ?_⟩
    rw [msixWrite_open h]
    exact ⟨msixAt_setMsix_same .., (changes_setMsix noRegs ..).frame⟩
  case addrHi =>
    intro s fn e v h
    refine ⟨msixWrite s fn.val (.addrHi e) v, rfl, ?_⟩
    rw [msixWrite_open h]
    exact ⟨msixAt_setMsix_same .., (changes_setMsix noRegs ..).frame⟩
  case mask =>
    intro s fn e v h hp
    refine ⟨msixWrite s fn.val (.vectorControl e) v, rfl, ?_⟩
    rw [msixWrite_open h]
    dsimp only
    rw [msixFlush_idle (by simpa using hp)]
    exact ⟨msixAt_setMsix_same .., (changes_setMsix noRegs ..).frame⟩
  case unmask =>
    intro s fn e v h hp hv he hm
    refine ⟨msixWrite s fn.val (.vectorControl e) v, rfl, ?_⟩
    generalize hu : setMsix s fn.val e.val { msixAt s fn.val e.val with mask := wbit v 0 } = u
    have hat : msixAt u fn.val e.val = { msixAt s fn.val e.val with mask := false } := by
      rw [← hu, msixAt_setMsix_same, hv]
    have hq : u.quay.msixEn = s.quay.msixEn ∧ u.quay.msixMask = s.quay.msixMask := hu ▸ ⟨rfl, rfl⟩
    have ho : msixOpen u fn.val e.val = true := by
      unfold msixOpen
      rw [hat, hq.1, hq.2, he, hm]
      rfl
    rw [msixWrite_unmask h hu.symm (by rw [hat]; exact hp) ho]
    refine ⟨(msixAt_setMsix_same ..).trans (by rw [hat]), by rw [hat, ← hu]; rfl, ?_⟩
    rw [← hu]
    rfl
  case messageControl =>
    intro s fn v h
    refine ⟨msixWrite s fn.val .messageControl v, rfl, ?_⟩
    rw [msixWrite_open h]
    have hf (l : List Nat) (u : State) := Changes.foldl (fun s e => changes_msixFlush noRegs s fn.val e) l u
    refine ⟨?_, ?_, ?_⟩
    · rw [(hf _ _).kept (·.quay.msixEn) fun _ _ => rfl]
      exact member_contains ..
    · rw [(hf _ _).kept (·.quay.msixMask) fun _ _ => rfl]
      exact member_contains ..
    · have h0 : Changes msixFoot noRegs s { s with quay := { s.quay with
          msixEn := member s.quay.msixEn fn.val (wbit v 15), msixMask := member s.quay.msixMask fn.val (wbit v 14) } } :=
        ⟨rfl, fun _ _ => rfl⟩
      exact (h0.trans ((hf _ _).mono msg_within_msix fun _ => id)).frame
  case deviceControl =>
    intro s fn v h
    refine ⟨msixWrite s fn.val .deviceControl v, rfl, ?_⟩
    rw [msixWrite_open h]
    exact ⟨tget_tset_same _ _ _ _, rfl⟩

end Sys2Proof.Machine
end


section
/-! SUPPORT. What the end of a command may change: completions and their queues, contexts and domains, units, the Fountain's takers,
mirrored items and the counts kept of commands (R53 to R68, R77, R104, R117, R149, R157, R453). -/
namespace Sys2Proof.Machine
open Sys2Proof

/-- The end of commands. -/
def cmdFoot : Footprint where
  put s t := { s with
    out := t.out, regs := t.regs, parBad := t.parBad, wins := t.wins
    quay := { s.quay with
      queues := t.quay.queues, doms := t.quay.doms, domRR := t.quay.domRR, ctxs := t.quay.ctxs, msix := t.quay.msix }
    units := { s.units with cipher := t.units.cipher, hash := t.units.hash, arc := t.units.arc }
    kerb := { s.kerb with reports := t.kerb.reports }
    fnt := { s.fnt with
      state := t.fnt.state, absorbed := t.fnt.absorbed, credit := t.fnt.credit, seed := t.fnt.seed, int := t.fnt.int, sw := t.fnt.sw
      katBusy := t.fnt.katBusy, draws := t.fnt.draws, part := t.fnt.part, got := t.fnt.got, rng := t.fnt.rng
      rngDone := t.fnt.rngDone, rngDead := t.fnt.rngDead }
    xing := { s.xing with mirror := t.xing.mirror, sess := t.xing.sess } }

theorem fault_within_cmd : faultFoot.Within cmdFoot := fun _ _ => rfl
theorem event_within_cmd : eventFoot.Within cmdFoot := fun _ _ => rfl
theorem reg_within_cmd : regFoot.Within cmdFoot := fun _ _ => rfl
theorem msg_within_cmd : msgFoot.Within cmdFoot := fun _ _ => rfl

/-- The counts of commands, and what faults, events and errors write in any page. -/
abbrev cmdCounts : Nat → Prop :=
  Named [Reg.QUAY_RPL_HITS, Reg.RBT_LATE, Reg.COMP_AUTH_FAIL, Reg.COMP_DONE]
    [Reg.PAGE_STAT, Reg.INT_STAT, Reg.ERR_SYND, Reg.ERR_ADDR, Reg.FAULT_CNT] []

/-- The registers that the end of commands may write: the counts, and the mode an Arcade unit shows. -/
def cmdRegs (k : Nat) : Prop := cmdCounts k ∨ ∃ u, k = rk (0x20 + u) Reg.ARC_MODE

theorem cmdRegs_of_key {k : Nat} (h : k ∈ [Reg.QUAY_RPL_HITS, Reg.RBT_LATE, Reg.COMP_AUTH_FAIL, Reg.COMP_DONE]) : cmdRegs k :=
  .inl (.inl h)

theorem cmdRegs_of_event {k : Nat} (h : eventRegs k) : cmdRegs k := .inl (Named.mono (by decide) (by decide) (by decide) k h)
theorem cmdRegs_of_err {k : Nat} (h : errRegs k) : cmdRegs k := .inl (Named.mono (by decide) (by decide) (by decide) k h)
theorem cmdRegs_of_fault {k : Nat} (h : faultRegs k) : cmdRegs k := .inl (Named.mono (by decide) (by decide) (by decide) k h)

/-- A mode shown by an Arcade unit stands at the offset of QUAY_LINK_STAT. -/
theorem named_of_cmdRegs {keys offs pages : List Nat} {k : Nat} (h : cmdRegs k)
    (hk : [Reg.QUAY_RPL_HITS, Reg.RBT_LATE, Reg.COMP_AUTH_FAIL, Reg.COMP_DONE] ⊆ keys)
    (ho : [Reg.PAGE_STAT, Reg.INT_STAT, Reg.ERR_SYND, Reg.ERR_ADDR, Reg.FAULT_CNT, Reg.QUAY_LINK_STAT] ⊆ offs) :
    Named keys offs pages k := by
  rcases h with h | ⟨u, rfl⟩
  · exact Named.mono hk (fun _ hx => ho (List.mem_append_left [Reg.QUAY_LINK_STAT] hx)) (List.nil_subset pages) k h
  · exact named_off (by decide) (ho (by decide))

/-- What the end of commands may change, from s to t; and no queue is ENABLED by it. -/
structure CmdChanges (s t : State) : Prop where
  changes : Changes cmdFoot cmdRegs s t
  enabled : ∀ q, (queueAt t q).state = .enabled → (queueAt s q).state = .enabled

namespace CmdChanges
variable {s t u : State}

theorem refl (s : State) : CmdChanges s s := ⟨Changes.refl .., fun _ => id⟩

theorem trans (h : CmdChanges s t) (g : CmdChanges t u) : CmdChanges s u :=
  ⟨h.changes.trans g.changes, fun q => h.enabled q ∘ g.enabled q⟩

/-- A change that keeps the queues. -/
theorem step (h : CmdChanges s t) (g : Changes cmdFoot cmdRegs t u) (hq : u.quay.queues = t.quay.queues) : CmdChanges s u :=
  ⟨h.changes.trans g, fun q hu => h.enabled q (by unfold queueAt at *; rwa [hq] at hu)⟩

theorem foldl {α : Type} {f : State → α → State} (hf : ∀ s a, CmdChanges s (f s a)) (l : List α) :
    ∀ s, CmdChanges s (l.foldl f s) := by
  induction l with
  | nil => exact refl
  | cons a l ih => exact fun s => (hf s a).trans (ih (f s a))

/-! ## The shared operations -/

theorem setReg (h : CmdChanges s t) {k : Nat} (w : Word) (hk : cmdRegs k) : CmdChanges s (setReg t k w) :=
  h.step ((changes_setReg t w hk).mono reg_within_cmd fun _ => id) rfl

theorem setFld (h : CmdChanges s t) {k : Nat} (hi lo v : Nat) (hk : cmdRegs k) : CmdChanges s (setFld t k hi lo v) :=
  h.setReg _ hk

theorem bump (h : CmdChanges s t) {k : Nat} (hi lo n : Nat) (hk : cmdRegs k) : CmdChanges s (bump t k hi lo n) := h.setReg _ hk

theorem sendMsix (h : CmdChanges s t) (f e : Nat) : CmdChanges s (sendMsix t f e) :=
  have g := changes_sendMsix cmdRegs t f e
  h.step (g.mono msg_within_cmd fun _ => id) (g.kept (·.quay.queues) fun _ _ => rfl)

theorem raiseInt (h : CmdChanges s t) (p m : Nat) : CmdChanges s (raiseInt t p m) :=
  have g := changes_raiseInt t p m
  h.step (g.mono event_within_cmd fun _ => cmdRegs_of_event) (g.kept (·.quay.queues) fun _ _ => rfl)

theorem errSynd (h : CmdChanges s t) (p c m i a : Nat) : CmdChanges s (errSynd t p c m i a) :=
  have g := changes_errSynd t p c m i a
  h.step (g.mono event_within_cmd fun _ => cmdRegs_of_err) (g.kept (·.quay.queues) fun _ _ => rfl)

theorem countFault (h : CmdChanges s t) (p : Nat) : CmdChanges s (countFault t p) :=
  have g := changes_countFault t p
  h.step (g.mono fault_within_cmd fun _ => cmdRegs_of_fault) (g.kept (·.quay.queues) fun _ _ => rfl)

theorem hostWrite (h : CmdChanges s t) (f a : Nat) (b : Bytes) (ro : Bool) : CmdChanges s (hostWrite t f a b ro) := by
  unfold Machine.hostWrite
  split
  · exact h.step ⟨rfl, fun _ _ => rfl⟩ rfl
  · exact h

theorem setQueue (h : CmdChanges s t) {q : Nat} {v : Queue} (hv : v.state = .enabled → (queueAt s q).state = .enabled) :
    CmdChanges s (setQueue t q v) := by
  refine ⟨h.changes.trans ⟨rfl, fun _ _ => rfl⟩, fun r hr => ?_⟩
  by_cases e : r = q
  · subst e
    rw [queueAt_setQueue_same] at hr
    exact hv hr
  · rw [queueAt_setQueue_ne t v e] at hr
    exact h.enabled r hr

/-- A queue keeps its state. -/
theorem updateQueue (h : CmdChanges s t) {q : Nat} {v : Queue} (hv : v.state = (queueAt t q).state := by rfl) :
    CmdChanges s (Machine.setQueue t q v) :=
  h.setQueue fun e => h.enabled q (hv ▸ e)

theorem setCtx (h : CmdChanges s t) (c : Nat) (x : Ctx) : CmdChanges s (setCtx t c x) := h.step ⟨rfl, fun _ _ => rfl⟩ rfl
theorem setDom (h : CmdChanges s t) (d : Nat) (v : Dom) : CmdChanges s (setDom t d v) := h.step ⟨rfl, fun _ _ => rfl⟩ rfl
theorem setCunit (h : CmdChanges s t) (n : Nat) (v : CUnit) : CmdChanges s (setCunit t n v) := h.step ⟨rfl, fun _ _ => rfl⟩ rfl
theorem setHunit (h : CmdChanges s t) (n : Nat) (v : HUnit) : CmdChanges s (setHunit t n v) := h.step ⟨rfl, fun _ _ => rfl⟩ rfl
theorem setAunit (h : CmdChanges s t) (n : Nat) (v : AUnit) : CmdChanges s (setAunit t n v) := h.step ⟨rfl, fun _ _ => rfl⟩ rfl

/-! ## Contexts and domains -/

theorem redistribute (n : Nat) : ∀ {t}, CmdChanges s t → CmdChanges s (redistribute n t) := by
  induction n with
  | zero => exact id
  | succ n ih =>
    intro t h
    unfold Machine.redistribute
    split
    · exact h
    · dsimp only
      split
      · exact h
      · exact ih ((h.setDom _ _).step ⟨rfl, fun _ _ => rfl⟩ rfl)

theorem releaseCtx (h : CmdChanges s t) (c dom : Nat) : CmdChanges s (releaseCtx t c dom) := by
  have hd : CmdChanges s { t with quay := { t.quay with ctxs := tdel t.quay.ctxs c } } := h.step ⟨rfl, fun _ _ => rfl⟩ rfl
  unfold Machine.releaseCtx
  dsimp only
  split
  · exact hd.setDom _ _
  · exact hd.redistribute 1

/-! ## Units -/

theorem cunitIdle (h : CmdChanges s t) (n : Nat) : CmdChanges s (cunitIdle t n) := h.setCunit _ _
theorem hunitIdle (h : CmdChanges s t) (n : Nat) : CmdChanges s (hunitIdle t n) := h.setHunit _ _
theorem aunitIdle (h : CmdChanges s t) (n : Nat) : CmdChanges s (aunitIdle t n) :=
  (h.setFld 14 12 0 (.inr ⟨n, rfl⟩)).setAunit _ _

theorem shareOut (h : CmdChanges s t) : CmdChanges s (shareOut t) := by
  have top {t : State} (n m : Nat) (v : CUnit) (b : Bool) (h : CmdChanges s t) :
      CmdChanges s (if b = true then Machine.setCunit t n v else t) := by
    cases b
    · exact h
    · exact h.setCunit n v
  unfold Machine.shareOut
  exact top 65 0 _ _ (top 64 0 _ _ h)

theorem freeUnit (h : CmdChanges s t) (e : Engine) : CmdChanges s (freeUnit t e) := by
  cases e with
  | cipher n => exact (h.cunitIdle n.val).shareOut
  | hash n => exact h.hunitIdle n.val
  | arcade n => exact h.aunitIdle n.val
  | composite n => exact h

theorem freeUnits (h : CmdChanges s t) (l : List Engine) : CmdChanges s (l.foldl Machine.freeUnit t) :=
  h.trans (foldl (fun u e => (refl u).freeUnit e) l t)

/-! ## The completion -/

theorem storeReplay (h : CmdChanges s t) (q tag : Nat) (b : Bytes) : CmdChanges s (storeReplay t q tag b) :=
  h.updateQueue

theorem coalesce (h : CmdChanges s t) (q : Nat) : CmdChanges s (coalesce t q) := by
  unfold Machine.coalesce
  dsimp only
  split
  · exact CmdChanges.sendMsix h.updateQueue _ _
  · exact h.updateQueue

theorem deliver (h : CmdChanges s t) (q tag : Nat) (body bodyS : Bytes) (status detail : Nat) (silent : Bool) :
    CmdChanges s (deliver t q tag body bodyS status detail silent) := by
  have hits : CmdChanges s (if status = 0x0D then Machine.bump t Reg.QUAY_RPL_HITS 31 0 1 else t) := by
    split
    · exact h.bump 31 0 1 (cmdRegs_of_key (by decide))
    · exact h
  have keep {u : State} (b : Bytes) (hu : CmdChanges s u) :
      CmdChanges s (if status = 0x0D then u else Machine.storeReplay u q tag b) := by
    split
    · exact hu
    · exact hu.storeReplay q tag b
  unfold Machine.deliver
  dsimp only
  split
  · exact keep _ hits
  · split
    · exact ((keep _ hits).countFault _).errSynd ..
    · exact (keep _ (CmdChanges.setQueue (hits.hostWrite _ _ _ _) (by exact h.enabled q))).coalesce q

theorem drained (h : CmdChanges s t) (q : Nat) : CmdChanges s (drained t q) := by
  unfold Machine.drained
  dsimp only
  split
  · exact CmdChanges.raiseInt (h.setQueue (by simp)) _ _
  · exact h

theorem unpark (body : Bytes) (status : Nat) (l : List (Nat × Ctx)) : ∀ {t}, CmdChanges s t → CmdChanges s (unpark t body status l) := by
  induction l with
  | nil => exact id
  | cons e l ih => exact fun h => ih (((h.deliver ..).releaseCtx ..).drained _)

theorem compCounts (h : CmdChanges s t) (op : Nat) (f : CmdEnd) : CmdChanges s (compCounts t op f) := by
  have done := h.bump (k := Reg.COMP_DONE) 31 0 1 (cmdRegs_of_key (by decide))
  unfold Machine.compCounts
  split
  · exact h
  · dsimp only
    split
    · have fails := CmdChanges.raiseInt (done.bump (k := Reg.COMP_AUTH_FAIL) 31 16 1 (cmdRegs_of_key (by decide))) 0x2A 4
      split
      · exact fails.countFault _
      · exact fails
    · split
      · exact done.bump 15 0 1 (cmdRegs_of_key (by decide))
      · exact done

theorem fntForget (h : CmdChanges s t) (c : Nat) : CmdChanges s (fntForget t c) := h.step ⟨rfl, fun _ _ => rfl⟩ rfl

theorem endNow (h : CmdChanges s t) (c : Nat) (f : CmdEnd) : CmdChanges s (endNow t c f) := by
  unfold Machine.endNow
  split
  · exact h
  · next x _ =>
    have share (b : Bool) {u : State} (hu : CmdChanges s u) : CmdChanges s (if b = true then Machine.shareOut u else u) := by
      cases b
      · exact hu
      · exact hu.shareOut
    exact unpark _ _ _ (share _ ((((((h.compCounts ..).deliver ..).freeUnits _).fntForget _).releaseCtx ..).drained _))

/-! ## Mirrored items -/

theorem sendPiece (h : CmdChanges s t) (kind : Nat) (piece : Bytes × Nat) : CmdChanges s (sendPiece kind t piece) := by
  unfold Machine.sendPiece
  split
  · exact h
  · exact h.step ⟨rfl, fun _ _ => rfl⟩ rfl

theorem mirror (h : CmdChanges s t) (kind : Nat) (body : Bytes) (w : MirrorWait) : CmdChanges s (mirror t kind body w) := by
  have hf : CmdChanges s (sendFrame t kind body) := h.trans (foldl (fun u p => (refl u).sendPiece kind p) _ t)
  exact hf.step ⟨rfl, fun _ _ => rfl⟩ rfl

theorem waitMirror (h : CmdChanges s t) (c kind : Nat) (body : Bytes) (w : MirrorWait) :
    CmdChanges s (waitMirror t c kind body w) := by
  unfold Machine.waitMirror
  split
  · exact h
  · exact (CmdChanges.setCtx ((h.fntForget c).freeUnits _) _ _).mirror ..

theorem endCmd (h : CmdChanges s t) (c : Nat) (f : CmdEnd) : CmdChanges s (endCmd t c f) := by
  unfold Machine.endCmd
  split
  · exact h
  · split
    · exact h.waitMirror ..
    · exact h.endNow c f

/-! ## Launch and fences -/

theorem setLaunch (h : CmdChanges s t) (c tick : Nat) (late convoy : Bool) : CmdChanges s (setLaunch t c tick late convoy) := by
  unfold Machine.setLaunch
  split
  · exact h
  · dsimp only
    split
    · exact CmdChanges.setCtx (CmdChanges.raiseInt (h.bump 31 0 1 (cmdRegs_of_key (by decide))) _ _) _ _
    · exact h.setCtx _ _

theorem testEpoch (h : CmdChanges s t) (c : Nat) : CmdChanges s (testEpoch t c) := by
  unfold Machine.testEpoch
  split
  · exact h
  · split
    · exact h
    · split
      · exact h.endCmd ..
      · exact h

theorem releaseLate (n : Nat) : ∀ {t}, CmdChanges s t → CmdChanges s (releaseLate n t) := by
  induction n with
  | zero => exact id
  | succ n ih =>
    intro t h
    unfold Machine.releaseLate
    split
    · exact h
    · exact ih ((h.setLaunch ..).testEpoch _)

theorem finishS (h : CmdChanges s t) (c status detail bytes : Nat) : CmdChanges s (finishS t c status detail bytes) :=
  releaseLate _ (h.endCmd c _)

/-! ## Stops -/

theorem stopCtx (h : CmdChanges s t) (c status detail : Nat) : CmdChanges s (stopCtx t c status detail) := by
  have fin (n : Nat) := h.finishS c status detail n
  unfold Machine.stopCtx
  split
  · exact h
  · split
    · exact h.setCtx _ _
    · exact h
    · split
      · exact h.setCtx _ _
      · exact h
    · exact fin 0
    · exact fin 0
    · exact fin 0
    · exact fin 0
    · split
      · exact fin _
      · exact h.setCtx _ _
    · split
      · exact fin _
      · exact h.setCtx _ _

theorem stopWhere (h : CmdChanges s t) (self : Option Nat) (p : Ctx → Bool) (status : Nat) (detail : Ctx → Nat) :
    CmdChanges s (stopWhere t self p status detail) := by
  refine h.trans (foldl (fun u c => ?_) _ t)
  split
  · exact refl u
  · exact (refl u).stopCtx ..

theorem sourceEnds (h : CmdChanges s t) (c status detail : Nat) : CmdChanges s (sourceEnds t c status detail) := by
  unfold Machine.sourceEnds
  split
  · exact h
  · split
    · exact h.setCtx _ _
    · exact h.setCtx _ _
    · exact h.setCtx _ _
    · split
      · exact h.finishS ..
      · exact h.setCtx _ _

end CmdChanges

theorem CmdChanges.linkUp {s t : State} (h : CmdChanges s t) {p : Nat} (hp : p < 2) : linkUp t p = linkUp s p := by
  unfold Machine.linkUp rbit
  rw [h.changes.regs]
  rintro (g | ⟨u, g⟩)
  · revert g
    obtain rfl | rfl : p = 0 ∨ p = 1 := by omega
    · exact not_named (by decide)
    · exact not_named (by decide)
  · simp only [rk, Reg.QUAY_LINK_STAT, Reg.ARC_MODE] at g
    omega

end Sys2Proof.Machine
end


section
/-! SUPPORT and CLAIM. Admission and the arrival of a descriptor (R54, R56, R63, R65, R67, R68, R88). -/
namespace Sys2Proof.Machine
open Sys2Proof

/-! ## Admission -/

/-- An admission. -/
def admitFoot : Footprint where
  put s t := { s with
    out := t.out
    quay := { s.quay with
      doms := t.quay.doms, ctxs := t.quay.ctxs, nextSeq := t.quay.nextSeq, turnQ := t.quay.turnQ, turnLeft := t.quay.turnLeft }
    chk := { s.chk with ctxBad := t.chk.ctxBad } }

/-- The queue whose turn it is can have its next command fetched. -/
theorem canAdmit_of_admitQueue {s : State} {q : Nat} (h : admitQueue s = some q) : canAdmit s q = true := by
  have mem (l : List Nat) : q ∈ l.filter (canAdmit s) → canAdmit s q = true := fun g => (List.mem_filter.1 g).2
  simp only [admitQueue] at h
  split at h
  · next g =>
    obtain rfl : s.quay.turnQ = q := by simpa using h
    simpa using (Bool.and_eq_true _ _ ▸ g).2
  · apply mem (s.quay.queues.map (·.1))
    rcases hd : ((((s.quay.queues.map (·.1)).filter (canAdmit s)).filter fun q => decide (s.quay.turnQ < q)).head?) with _ | r
    · rw [hd] at h
      exact List.mem_of_mem_head? (by simpa using h)
    · rw [hd] at h
      obtain rfl : r = q := by simpa using h
      exact (List.mem_filter.1 (List.mem_of_mem_head? hd)).1

theorem linkUp_of_canAdmit {s : State} {q : Nat} (h : canAdmit s q = true) : linkUp s (fnPort (qFunc (queueAt s q))) = true := by
  simp only [canAdmit, Bool.and_eq_true] at h
  exact h.2

/-- An admission reserves the context and sends the fetch of the next SQ entry. -/
theorem admitNext_admits {s : State} {c q : Nat} (ha : admitting s = true) (hc : ctxAt s c = none) (hq : admitQueue s = some q) :
    ∃ u, admitNext s c = emit u (.hostRead (qFunc (queueAt s q)) (qSqBase (queueAt s q) + 64 * fetchIdx s q) 64) ∧
      ctxAt u c = some { q, dom := qDomain (queueAt s q), seq := s.quay.nextSeq } ∧ u.out = s.out ∧
      ∀ o, Changes admitFoot noRegs s (emit u o) := by
  have hl := linkUp_of_canAdmit (canAdmit_of_admitQueue hq)
  unfold admitNext hostRead
  simp only [ha, hc, hq, Bool.not_true, Option.isSome_none, Bool.or_self, Bool.false_eq_true, if_false]
  exact ⟨_, if_pos hl, tfind_tput_same _ _ _, rfl, fun _ => ⟨rfl, fun _ _ => rfl⟩⟩

/-! ## The arrival of a descriptor -/

/-- The state once a descriptor has arrived for the command x of context c: SQ_HEAD advanced and written back, and the descriptor
decoded (R56, R88). -/
def arrived (s : State) (c : Nat) (x : Ctx) (b : Bytes) : State :=
  setCtx (headWriteback (setQueue s x.q { queueAt s x.q with sqHead := ((queueAt s x.q).sqHead + 1) % sqSize (queueAt s x.q) }) x.q) c
    { x with d := decodeDesc b, raw := b.take 64, phase := .fetched }

theorem hostWrite_quay (s : State) (f a : Nat) (b : Bytes) (ro : Bool) : (hostWrite s f a b ro).quay = s.quay := by
  unfold hostWrite
  split <;> rfl

theorem headWriteback_quay (s : State) (q : Nat) : (headWriteback s q).quay = s.quay := by
  unfold headWriteback
  dsimp only
  split
  · exact hostWrite_quay ..
  · rfl

theorem CmdChanges.headWriteback {s t : State} (h : CmdChanges s t) (q : Nat) : CmdChanges s (headWriteback t q) := by
  unfold Machine.headWriteback
  dsimp only
  split
  · exact h.hostWrite ..
  · exact h

theorem CmdChanges.arrived (s : State) (c : Nat) (x : Ctx) (b : Bytes) : CmdChanges s (arrived s c x b) :=
  (CmdChanges.headWriteback (CmdChanges.refl s).updateQueue _).setCtx _ _

theorem queueAt_arrived (s : State) (c : Nat) (x : Ctx) (b : Bytes) :
    queueAt (arrived s c x b) x.q =
      { queueAt s x.q with sqHead := ((queueAt s x.q).sqHead + 1) % sqSize (queueAt s x.q) } := by
  show tget {} (headWriteback _ x.q).quay.queues x.q = _
  rw [headWriteback_quay]
  exact queueAt_setQueue_same ..

/-- A search that passes over key k does not see what is put there. -/
theorem find?_tput {α : Type} (p : Nat × α → Bool) (k : Nat) (v : α) (hp : ∀ w, p (k, w) = false) (t : Tbl α) :
    (tput t k v).find? p = t.find? p := by
  induction t with
  | nil => simp [tput, hp]
  | cons e t ih =>
    obtain ⟨j, w⟩ := e
    simp only [tput]
    split
    · simp [hp]
    · split
      · next g => simp [hp, g]
      · simp [List.find?_cons, ih]

theorem parkTarget_arrived (s : State) (c : Nat) (x : Ctx) (b : Bytes) :
    parkTarget (arrived s c x b) c { x with d := decodeDesc b, raw := b.take 64, phase := .fetched } =
      parkTarget s c { x with d := decodeDesc b } := by
  have hctxs : (arrived s c x b).quay.ctxs = tput s.quay.ctxs c { x with d := decodeDesc b, raw := b.take 64, phase := .fetched } := by
    show tput (headWriteback _ x.q).quay.ctxs c _ = _
    rw [headWriteback_quay]
    rfl
  unfold parkTarget
  rw [hctxs, find?_tput _ c _ (by simp)]

section
variable {s : State} {c : Nat} {x : Ctx} {b : Bytes} {ecc : Option (Fin 64)}

theorem descriptorArrive_not (hx : ctxAt s c = some x)
    (h : x.phase ≠ .fetching ∨ linkUp s (fnPort (qFunc (queueAt s x.q))) = false ∨
      (fetchingOf s x.q).any (fun e => decide (e.2.seq < x.seq)) = true) : descriptorArrive s c b ecc = s := by
  unfold descriptorArrive
  rw [hx]
  dsimp only
  rw [if_pos]
  simp only [Bool.or_eq_true, decide_eq_true_eq, Bool.not_eq_true']
  rcases h with h | h | h
  · exact .inl (.inl h)
  · exact .inl (.inr h)
  · exact .inr h

variable (hx : ctxAt s c = some x) (hp : x.phase = .fetching) (hl : linkUp s (fnPort (qFunc (queueAt s x.q))) = true)
  (ho : (fetchingOf s x.q).any (fun e => decide (e.2.seq < x.seq)) = false) (hs : x.stop = none)
include hx hp hl ho hs

/-- An idempotent command goes to the Roundabout. -/
theorem descriptorArrive_idem (hi : nonIdem (decodeDesc b) = false) : descriptorArrive s c b ecc = arrived s c x b := by
  unfold descriptorArrive
  rw [hx]
  dsimp only
  rw [if_neg (by simp [hp, hl, ho])]
  split
  · next st h => exact absurd (hs.symm.trans h) (by simp)
  · rw [hi]
    rfl

/-- So does one whose tag the window does not hold, unless a command in flight has it: then it is parked behind that one. -/
theorem descriptorArrive_once (hi : nonIdem (decodeDesc b) = true)
    (hw : (queueAt s x.q).win.any (fun e => e.bad || e.tag == (decodeDesc b).tag) = false) :
    descriptorArrive s c b none = match parkTarget s c { x with d := decodeDesc b } with
      | some p => setCtx (arrived s c x b) c { x with d := decodeDesc b, raw := b.take 64, phase := .parked p }
      | none => arrived s c x b := by
  have hwin : (queueAt (arrived s c x b) x.q).win = (queueAt s x.q).win := by rw [queueAt_arrived]
  have hall := List.any_eq_false.1 hw
  have hbad : (queueAt s x.q).win.any (·.bad) = false :=
    List.any_eq_false.2 fun e he g => hall e he (by simp [g])
  have htag : (queueAt s x.q).win.reverse.find? (fun e => e.tag == (decodeDesc b).tag) = none :=
    List.find?_eq_none.2 fun e he g => hall e (List.mem_reverse.1 he) (by simpa using .inr (by simpa using g))
  rw [← parkTarget_arrived]
  unfold descriptorArrive
  rw [hx]
  dsimp only
  rw [if_neg (by simp [hp, hl, ho])]
  split
  · next st h => exact absurd (hs.symm.trans h) (by simp)
  · rw [hi]
    unfold arrived at hwin ⊢
    simp only [Bool.not_true, Bool.false_eq_true, if_false]
    rw [hwin, hbad, htag]
    rfl
end

/-- Settles O4: an admission is one fetch sent for a reserved context, and a descriptor arrives in the one state `arrived`. -/
theorem admission : Obligations.Admission := by
  unfold Obligations.Admission
  have counts (k : Nat) (h : cmdRegs k) :
      Named [Reg.QUAY_RPL_HITS, Reg.QUAY_RPL_ECC, Reg.RBT_LATE, Reg.COMP_AUTH_FAIL, Reg.COMP_DONE]
        [Reg.PAGE_STAT, Reg.INT_STAT, Reg.ERR_SYND, Reg.ERR_ADDR, Reg.FAULT_CNT, Reg.QUAY_LINK_STAT] [] k :=
    named_of_cmdRegs h (by decide) (by decide)
  refine ⟨?admitOne, ?idem, ?once, ?parked, ?not⟩
  case admitOne =>
    intro s c q ha hc hq
    refine ⟨admitNext s c.val, rfl, ?_⟩
    obtain ⟨u, hu, hctx, hout, hch⟩ := admitNext_admits ha hc hq
    rw [hu]
    exact ⟨hctx, congrArg _ hout, (hch _).frame⟩
  case idem =>
    intro s c x b ecc hx hp hl ho hs hi
    refine ⟨descriptorArrive s c.val b ecc, rfl, ?_⟩
    rw [descriptorArrive_idem hx hp hl ho hs hi]
    have hc := (CmdChanges.arrived s c.val x b).changes
    exact ⟨ctxAt_setCtx_same .., by rw [queueAt_arrived], hc.frame, (hc.more counts).otherRegs⟩
  case once =>
    intro s c x b hx hp hl ho hs hi hw hk
    refine ⟨descriptorArrive s c.val b none, rfl, ?_⟩
    rw [descriptorArrive_once hx hp hl ho hs hi hw, hk]
    have hc := (CmdChanges.arrived s c.val x b).changes
    exact ⟨ctxAt_setCtx_same .., by rw [queueAt_arrived], hc.frame, (hc.more counts).otherRegs⟩
  case parked =>
    intro s c x b p hx hp hl ho hs hi hw hk
    refine ⟨descriptorArrive s c.val b none, rfl, ?_⟩
    rw [descriptorArrive_once hx hp hl ho hs hi hw, hk]
    have hc := ((CmdChanges.arrived s c.val x b).setCtx c.val
      { x with d := decodeDesc b, raw := b.take 64, phase := .parked p }).changes
    exact ⟨ctxAt_setCtx_same .., hc.frame, (hc.more counts).otherRegs⟩
  case not =>
    intro s c x b ecc hx h
    exact ⟨_, rfl, descriptorArrive_not hx h⟩

end Sys2Proof.Machine
end


section
/-! SUPPORT and CLAIM. The commands of QUAY_QCMD (R62, R76, R77, R85, R456). -/
namespace Sys2Proof.Machine
open Sys2Proof

/-- A command that reads a record, and one that changes a queue. -/
def qcmdReadFoot : Footprint where
  put s t := { s with
    out := t.out, regs := t.regs, parBad := t.parBad, quay := { s.quay with msix := t.quay.msix }
    xing := { s.xing with mirror := t.xing.mirror, sess := t.xing.sess } }
def qcmdFoot : Footprint where
  put s t := { s with
    out := t.out, regs := t.regs, parBad := t.parBad, quay := { s.quay with queues := t.quay.queues, msix := t.quay.msix }
    xing := { s.xing with mirror := t.xing.mirror, sess := t.xing.sess } }

theorem event_within_qcmdRead : eventFoot.Within qcmdReadFoot := fun _ _ => rfl
theorem event_within_qcmd : eventFoot.Within qcmdFoot := fun _ _ => rfl
theorem queue_within_qcmd : queueFoot.Within qcmdFoot := fun _ _ => rfl
theorem reg_within_queue : regFoot.Within queueFoot := fun _ _ => rfl

/-! ## The gate and the end of a command -/

theorem gateReg_reaches {s : State} {src : Src} {key : Nat} (h : Reaches s src key) (k : State → State) :
    gateReg s src key k = k (reparity s (rk (key / 0x1000) (key % 0x1000))) := by
  unfold gateReg gate
  rw [if_pos h]

theorem changes_reparity (P : Nat → Prop) (s : State) (key : Nat) : Changes regFoot P s (reparity s key) := ⟨rfl, fun _ _ => rfl⟩

/-- The state in which a command of QUAY_QCMD is carried out: the register's parity is regenerated. -/
abbrev qcmdBegun (s : State) : State := reparity s (rk (Reg.QUAY_QCMD / 0x1000) (Reg.QUAY_QCMD % 0x1000))
/-- The selected queue. -/
abbrev qsel (s : State) : Nat := fld s Reg.QUAY_QSEL 13 0

theorem qcmd_busy {s : State} {src : Src} {early : Bool} (hr : Reaches s src Reg.QUAY_QCMD) (hb : early = true ∨ qcmdWaits s = true)
    (cmd v : Nat) (k : State → Nat → Nat × State) :
    qcmd s src early cmd v k = errSynd (qcmdBegun s) 0x0A 0x12 (masterOf src) (qsel s) v := by
  unfold qcmd
  rw [gateReg_reaches hr]
  dsimp only
  rw [if_pos]
  · rfl
  · rw [Bool.or_eq_true]
    exact hb

theorem qcmd_ends {s : State} {src : Src} (hr : Reaches s src Reg.QUAY_QCMD) (hb : qcmdWaits s = false) {cmd : Nat}
    (hm : cmd ≠ 2 ∨ (queueAt s (qsel s)).role ≠ 1) (v : Nat) {k : State → Nat → Nat × State} {u : State} {r : Nat}
    (hk : k (qcmdBegun s) (qsel s) = (r, u)) : qcmd s src false cmd v k = qcmdEnds u r := by
  unfold qcmd
  rw [gateReg_reaches hr]
  dsimp only
  rw [if_neg (by rw [Bool.false_or]; exact Bool.eq_false_iff.1 hb)]
  change (if (decide (cmd = 2) && decide ((k (qcmdBegun s) (qsel s)).1 = 0) && paired (qcmdBegun s)
    && decide ((queueAt s (qsel s)).role = 1)) = true then _ else
      qcmdEnds (k (qcmdBegun s) (qsel s)).2 (k (qcmdBegun s) (qsel s)).1) = _
  rw [if_neg, hk]
  simp only [Bool.and_eq_true, decide_eq_true_eq, not_and]
  intro hc hq
  exact hm.elim (absurd hc.1.1) (absurd hq)

theorem changes_qcmdEnds (s : State) (r : Nat) : Changes eventFoot (Named [Reg.QUAY_QCMD] [Reg.INT_STAT] []) s (qcmdEnds s r) :=
  ((changes_setFld s 7 4 r (.inl (by decide))).mono reg_within_event fun _ => id).trans
    ((changes_raiseInt ..).more (Named.mono (by decide) (by decide) (by decide)))

theorem fld_qcmdEnds (s : State) (r : Nat) : fld (qcmdEnds s r) Reg.QUAY_QCMD 7 4 = r % 16 := by
  unfold qcmdEnds fld
  rw [reg_raiseInt_ne _ _ (by decide)]
  exact fld_setFld_same s Reg.QUAY_QCMD (by decide) (by decide)

theorem queueAt_qcmdEnds (s : State) (r q : Nat) : queueAt (qcmdEnds s r) q = queueAt s q :=
  (changes_qcmdEnds s r).kept (queueAt · q) fun _ _ => rfl

/-! ## What each command does to the selected queue -/

/-- The first m words of a queue's record copied to QUAY_QDATA. -/
theorem copyRecord_spec (s : State) (q m : Nat) :
    let t := (List.range m).foldl (fun s n => setReg s (Reg.QUAY_QDATA + 4 * n) (qw (queueAt s q) n)) s
    t.quay = s.quay ∧ ∀ i, i < m → reg t (Reg.QUAY_QDATA + 4 * i) = qw (queueAt s q) i := by
  induction m with
  | zero => exact ⟨rfl, fun i hi => absurd hi (Nat.not_lt_zero i)⟩
  | succ m ih =>
    obtain ⟨hq, hw⟩ := ih
    simp only [List.range_succ, List.foldl_append, List.foldl_cons, List.foldl_nil]
    refine ⟨hq, fun i hi => ?_⟩
    by_cases e : i = m
    · subst e
      rw [reg_setReg_same]
      exact congrArg (fun u : Quay => qw (tget {} u.queues q) i) hq
    · rw [reg_setReg_ne _ _ (by omega)]
      exact hw i (by omega)

theorem changes_copyRecord (s : State) (q : Nat) : Changes regFoot (Named [] [] [0xA]) s (qcmdRead s q).2 := by
  have step (l : List Nat) (hl : ∀ n ∈ l, n < 32) (u : State) : Changes regFoot (Named [] [] [0xA]) u
      (l.foldl (fun s n => setReg s (Reg.QUAY_QDATA + 4 * n) (qw (queueAt s q) n)) u) := by
    induction l generalizing u with
    | nil => exact Changes.refl ..
    | cons n l ih =>
      have hn := hl n List.mem_cons_self
      have hk : (Reg.QUAY_QDATA + 4 * n) / 0x1000 = 0xA := by unfold Reg.QUAY_QDATA; omega
      exact (changes_setReg u _ (.inr (.inr (by simp [hk])))).trans (ih (fun m hm => hl m (List.mem_cons_of_mem n hm)) _)
  exact step _ (fun n hn => List.mem_range.1 hn) s

section
variable {s : State} {q : Nat}

theorem qcmdWrite_disabled (hs : (queueAt s q).state = .disabled) (hr : (queueAt s q).role = 0) :
    ∃ v, qcmdWrite s q = (0, setQueue s q v) ∧ v.rec' = stagedRec s ∧ v.state = .disabled := by
  refine ⟨if (qFunc { queueAt s q with rec' := stagedRec s } != qFunc (queueAt s q) ||
    qDomain { queueAt s q with rec' := stagedRec s } != qDomain (queueAt s q)) = true
      then noReplay { queueAt s q with rec' := stagedRec s } else { queueAt s q with rec' := stagedRec s }, ?_, ?_, ?_⟩
  · simp [qcmdWrite, hs, hr]
  · split <;> rfl
  · split <;> exact hs

theorem qcmdEnable_passes (hs : (queueAt s q).state = .disabled) (hr : (queueAt s q).role ≠ 2)
    (hc : checkRecord s (queueAt s q) = 0) :
    qcmdEnable s q = (0, setQueue s q { queueAt s q with
      state := .enabled, sqHead := 0, sqTail := 0, cqTail := 0, cqHead := 0, dbErr := false, phase := true }) := by
  simp [qcmdEnable, hs, hr, hc]

theorem qcmdDisable_enabled (hs : (queueAt s q).state = .enabled) :
    qcmdDisable s q = (0, drained (setQueue s q { queueAt s q with state := .draining }) q) := by
  simp [qcmdDisable, hs]

theorem qcmdAbort_enabled (hs : (queueAt s q).state = .enabled) :
    qcmdAbort s q = (0, drained (stopWhere (setQueue s q { queueAt s q with state := .draining }) none (fun x => x.q == q) 0x08
      (fun _ => 0x01)) q) := by
  simp [qcmdAbort, hs]

theorem qcmdClear_disabled (hs : (queueAt s q).state = .disabled) :
    qcmdClear s q = (0, setQueue s q (noReplay (queueAt s q))) := by
  simp [qcmdClear, hs]

theorem changes_drained (s : State) (q : Nat) : Changes queueFoot eventRegs s (drained s q) := by
  unfold drained
  dsimp only
  split
  · exact (changes_setQueue ..).trans ((changes_raiseInt ..).mono event_within_queue fun _ => id)
  · exact Changes.refl ..

theorem drained_state (hs : (queueAt s q).state = .draining) :
    (queueAt (drained s q) q).state = if qInfl s q = 0 then .disabled else .draining := by
  by_cases h : qInfl s q = 0 <;> simp [drained, hs, h]
end

/-- A command that ends with RESULT 0 after a change of its queue, in the state u. -/
theorem qcmd_done {s u : State} {src : Src} (hr : Reaches s src Reg.QUAY_QCMD) (hb : qcmdWaits s = false) {cmd : Nat}
    (hm : cmd ≠ 2 ∨ (queueAt s (qsel s)).role ≠ 1) (v : Nat) {k : State → Nat → Nat × State}
    (hk : k (qcmdBegun s) (qsel s) = (0, u)) (hu : Changes qcmdFoot (Named [] [Reg.INT_STAT] []) s u) {t : State}
    (ht : t = qcmd s src false cmd v k) :
    fld t Reg.QUAY_QCMD 7 4 = 0 ∧ queueAt t (qsel s) = queueAt u (qsel s) ∧
      Changes qcmdFoot (Named [Reg.QUAY_QCMD] [Reg.INT_STAT, Reg.ERR_SYND, Reg.ERR_ADDR] []) s t := by
  rw [qcmd_ends hr hb hm v hk] at ht
  subst ht
  exact ⟨fld_qcmdEnds u 0, queueAt_qcmdEnds u 0 _, (hu.more (Named.mono (by decide) (by decide) (by decide))).trans
    ((changes_qcmdEnds u 0).mono event_within_qcmd (Named.mono (by decide) (by decide) (by decide)))⟩

/-- A command written while BUSY is 1 leaves its record and nothing else. -/
theorem qcmd_busy_records {s : State} {src : Src} {early : Bool} (hr : Reaches s src Reg.QUAY_QCMD)
    (hb : early = true ∨ qcmdWaits s = true) (hp : pageOn s 0x0A = true) (hv : rbit s (rk 0x0A Reg.ERR_SYND) 23 = false)
    (cmd v : Nat) (k : State → Nat → Nat × State) {t : State} (ht : t = qcmd s src early cmd v k) :
    fld t (rk 0x0A Reg.ERR_SYND) 31 24 = 0x12 ∧ t.quay.queues = s.quay.queues ∧ reg t Reg.QUAY_QCMD = reg s Reg.QUAY_QCMD ∧
      Changes eventFoot errRegs s t := by
  rw [qcmd_busy hr hb] at ht
  have hc : Changes eventFoot errRegs s t :=
    ht ▸ ((changes_reparity errRegs s _).mono reg_within_event fun _ => id).trans (changes_errSynd ..)
  refine ⟨?_, hc.kept (·.quay.queues) fun _ _ => rfl, hc.regs _ (not_named (by decide)), hc⟩
  subst ht
  exact (errSynd_record 0x12 (masterOf src) (qsel s) v (s := qcmdBegun s) hp hv).1

/-- The same, for each instruction that is such a command, with what its statement lets change. -/
theorem answers_qcmd_busy {F : Footprint} {keys offs pages : List Nat} (hF : eventFoot.Within F)
    (ho : [Reg.INT_STAT, Reg.ERR_SYND, Reg.ERR_ADDR] ⊆ offs) {i : Instr} {s : State} {src : Src} {early : Bool} {cmd v : Nat}
    {k : State → Nat → Nat × State} (hi : exec i s = .next (qcmd s src early cmd v k)) (hr : Reaches s src Reg.QUAY_QCMD)
    (hb : early = true ∨ qcmdWaits s = true) (hp : pageOn s 0x0A = true) (hv : rbit s (rk 0x0A Reg.ERR_SYND) 23 = false) :
    Answers i s fun t => fld t (rk 0x0A Reg.ERR_SYND) 31 24 = 0x12 ∧ t.quay.queues = s.quay.queues ∧
      reg t Reg.QUAY_QCMD = reg s Reg.QUAY_QCMD ∧ t = F.put s t ∧ OtherRegs s t keys offs pages := by
  obtain ⟨hcode, hq, hreg, hc⟩ := qcmd_busy_records hr hb hp hv cmd v k rfl
  have hc : Changes F (Named keys offs pages) s _ := hc.mono hF (Named.mono (List.nil_subset _) ho (List.nil_subset _))
  exact ⟨_, hi, hcode, hq, hreg, hc.frame, hc.otherRegs⟩

/-- Settles O6: a command on an idle QUAY_QCMD is its queue's change and the RESULT, one on a busy one an error record. -/
theorem queueCommands : Obligations.QueueCommands := by
  unfold Obligations.QueueCommands
  have begun (s : State) : Changes queueFoot eventRegs s (qcmdBegun s) := (changes_reparity ..).mono reg_within_queue fun _ => id
  have setq (s : State) (v : Queue) : Changes qcmdFoot (Named [] [Reg.INT_STAT] []) s (setQueue (qcmdBegun s) (qsel s) v) :=
    ((begun s).trans (changes_setQueue ..)).mono queue_within_qcmd fun _ => id
  refine ⟨?read, ?write, ?enable, ?disable, ?abort, ?clear, ?readBusy, ?writeBusy, ?enableBusy, ?disableBusy, ?abortBusy, ?clearBusy⟩
  case read =>
    intro s src hr hb
    refine ⟨qcmd s src false 1 1 qcmdRead, rfl, ?_⟩
    rw [qcmd_ends hr hb (cmd := 1) (.inl (by decide)) 1 (k := qcmdRead) (u := (qcmdRead (qcmdBegun s) (qsel s)).2) (r := 0) rfl]
    have hcopy := (copyRecord_spec (qcmdBegun s) (qsel s) 32).2
    have hends := changes_qcmdEnds (qcmdRead (qcmdBegun s) (qsel s)).2 0
    have hc : Changes qcmdReadFoot (Named [Reg.QUAY_QCMD] [Reg.INT_STAT, Reg.ERR_SYND, Reg.ERR_ADDR] [0xA]) s _ :=
      (((changes_reparity (Named [] [] [0xA]) s _).trans (changes_copyRecord _ (qsel s))).mono (fun _ _ => rfl)
        (Named.mono (by decide) (by decide) (by decide))).trans
          (hends.mono event_within_qcmdRead (Named.mono (by decide) (by decide) (by decide)))
    refine ⟨fld_qcmdEnds .., fun n => ?_, hc.frame, hc.otherRegs⟩
    rw [hends.regs]
    · exact hcopy n.val n.isLt
    · have hn := n.isLt
      simp only [Named, Reg.QUAY_QCMD, Reg.QUAY_QDATA, Reg.INT_STAT, List.mem_singleton, List.not_mem_nil, or_false]
      omega
  case write =>
    intro s src hr hb hs hrole
    refine ⟨qcmd s src false 2 2 qcmdWrite, rfl, ?_⟩
    obtain ⟨v, hv, hrec, hst⟩ := qcmdWrite_disabled (s := qcmdBegun s) hs hrole
    obtain ⟨hres, hq, hc⟩ := qcmd_done hr hb (cmd := 2) (.inr (by rw [hrole]; decide)) 2 hv (setq s v) rfl
    rw [hq, queueAt_setQueue_same]
    exact ⟨hres, hrec, hst, hc.frame, hc.otherRegs⟩
  case enable =>
    intro s src hr hb hs hrole hcheck
    refine ⟨qcmd s src false 3 3 qcmdEnable, rfl, ?_⟩
    have hk := qcmdEnable_passes (s := qcmdBegun s) hs hrole hcheck
    obtain ⟨hres, hq, hc⟩ := qcmd_done hr hb (cmd := 3) (.inl (by decide)) 3 hk (setq s _) rfl
    exact ⟨hres, hq.trans (queueAt_setQueue_same ..), hc.frame, hc.otherRegs⟩
  case disable =>
    intro s src hr hb hs
    refine ⟨qcmd s src false 4 4 qcmdDisable, rfl, ?_⟩
    have hk := qcmdDisable_enabled (s := qcmdBegun s) hs
    obtain ⟨hres, hq, hc⟩ := qcmd_done hr hb (cmd := 4) (.inl (by decide)) 4 hk
      ((setq s _).trans ((changes_drained ..).mono queue_within_qcmd fun _ => id)) rfl
    exact ⟨hres, (congrArg Queue.state hq).trans (drained_state (by rw [queueAt_setQueue_same])), hc.frame, hc.otherRegs⟩
  case abort =>
    intro s src hr hb hs
    refine ⟨qcmd s src false 5 5 qcmdAbort, rfl, ?_⟩
    have hd := (begun s).trans (changes_setQueue eventRegs _ (qsel s) { queueAt s (qsel s) with state := .draining })
    have hstop := ((CmdChanges.refl (setQueue (qcmdBegun s) (qsel s) { queueAt s (qsel s) with state := .draining })).stopWhere
      none (fun x => x.q == qsel s) 0x08 fun _ => 0x01).drained (qsel s)
    rw [qcmd_ends hr hb (cmd := 5) (.inl (by decide)) 5 (qcmdAbort_enabled (s := qcmdBegun s) hs)]
    have hc : Changes cmdFoot (Named [Reg.QUAY_QCMD, Reg.QUAY_RPL_HITS, Reg.RBT_LATE, Reg.COMP_AUTH_FAIL, Reg.COMP_DONE]
        [Reg.PAGE_STAT, Reg.INT_STAT, Reg.ERR_SYND, Reg.ERR_ADDR, Reg.FAULT_CNT, Reg.QUAY_LINK_STAT] []) s _ :=
      ((hd.mono (fun _ _ => rfl) (Named.mono (by decide) (by decide) (by decide))).trans
        (hstop.changes.more fun _ h => named_of_cmdRegs h (by decide) (by decide))).trans
          ((changes_qcmdEnds _ 0).mono event_within_cmd (Named.mono (by decide) (by decide) (by decide)))
    refine ⟨fld_qcmdEnds .., fun he => ?_, hc.frame, hc.otherRegs⟩
    rw [queueAt_qcmdEnds] at he
    have hen := hstop.enabled _ he
    rw [queueAt_setQueue_same] at hen
    exact absurd hen (by simp)
  case clear =>
    intro s src hr hb hs
    refine ⟨qcmd s src false 6 6 qcmdClear, rfl, ?_⟩
    have hk := qcmdClear_disabled (s := qcmdBegun s) hs
    obtain ⟨hres, hq, hc⟩ := qcmd_done hr hb (cmd := 6) (.inl (by decide)) 6 hk (setq s _) rfl
    have hempty := hq.trans (queueAt_setQueue_same ..)
    exact ⟨hres, congrArg Queue.win hempty, hc.frame, hc.otherRegs⟩
  case readBusy => exact fun s src early => answers_qcmd_busy event_within_qcmdRead (by decide) rfl
  case writeBusy => exact fun s src early => answers_qcmd_busy event_within_qcmd (by decide) rfl
  case enableBusy => exact fun s src early => answers_qcmd_busy event_within_qcmd (by decide) rfl
  case disableBusy => exact fun s src early => answers_qcmd_busy event_within_qcmd (by decide) rfl
  case abortBusy => exact fun s src early => answers_qcmd_busy event_within_cmd (by decide) rfl
  case clearBusy => exact fun s src early => answers_qcmd_busy event_within_qcmd (by decide) rfl

end Sys2Proof.Machine
end


section
/-! CLAIM. Function resets (R44, R78, R523, R546) and the link events (R42, R82 to R84, R547, R548), both refuted by one fault: a state may
hold a DMA transfer under any number, and the end of a transfer writes STATUS of the engine of that number. From engine 120 on it lies
beyond page 0x40, the only page of DMA registers that the statements let change. The device has engines 0 to 7 and starts transfers under
those alone (DmaNo), so what the statements lack is the hypothesis that s.chk.dma lists no other. -/
namespace Sys2Proof.Machine
open Sys2Proof

/-- A transfer from host memory through the window of function 0, listed under engine 120, while the FLR of that function runs and the
link of its port is up. -/
def strayTransfer : State :=
  { quay := { flr := [0] }
    regs := [(rk 8 Reg.QUAY_LINK_STAT, 0x400)]
    chk := { dma := [(120, { dom := 0, fn := 0, src := 0, dst := 0, len := 0, dir := 1, queue := 0 })] } }

/-- STATUS of engine 120 is no register that the statements name. -/
theorem otherRegs_status {s t : State} {keys offs : List Nat} (h : OtherRegs s t keys offs [0x40])
    (hk : dmaReg 120 0x18 ∉ keys) (ho : 0x18 ∉ offs) : reg t (dmaReg 120 0x18) = reg s (dmaReg 120 0x18) :=
  h (dmaReg 120 0x18) (by decide) hk ho (by decide)

theorem reg_strayTransfer_status : reg strayTransfer (dmaReg 120 0x18) = 0 := by decide

theorem flrDone_writes_stray_status : reg (flrDone strayTransfer 0) (dmaReg 120 0x18) = 8 := by decide

theorem linkDown_writes_stray_status : reg (linkDown strayTransfer 0) (dmaReg 120 0x18) = 8 := by decide

/-- Refutes O8: the FLR of function 0 completes, and its transfer under engine 120 ends with STATUS written in page 0x41. -/
theorem not_functionResets : ¬ Obligations.FunctionResets := by
  unfold Obligations.FunctionResets
  rintro ⟨-, flrDone, -⟩
  obtain ⟨t, ht, -, -, others⟩ := flrDone strayTransfer 0 (by decide) (by decide)
  cases ht
  have same := otherRegs_status others (by decide) (by decide)
  rw [reg_strayTransfer_status] at same
  exact absurd (flrDone_writes_stray_status.symm.trans same) (by decide)

/-- Refutes O9: the link of port 0 goes down, and the transfer under engine 120 ends with STATUS written in page 0x41. -/
theorem not_linkEvents : ¬ Obligations.LinkEvents := by
  unfold Obligations.LinkEvents
  rintro ⟨-, linkDown, -⟩
  obtain ⟨t, ht, -, -, others⟩ := linkDown strayTransfer 0 (by decide)
  cases ht
  have same := otherRegs_status others (by decide) (by decide)
  rw [reg_strayTransfer_status] at same
  exact absurd (linkDown_writes_stray_status.symm.trans same) (by decide)

end Sys2Proof.Machine
end


section
/-! SUPPORT and CLAIM. The scrubber's findings (R72, R121, R197, R413, R414, R416). -/
namespace Sys2Proof.Machine
open Sys2Proof

/-- What a finding of the scrubber may change, by the statement. -/
def scrubFoot : Footprint where
  put s t := { s with
    out := t.out, regs := t.regs, parBad := t.parBad, wins := t.wins
    quay := { s.quay with
      queues := t.quay.queues, doms := t.quay.doms, domRR := t.quay.domRR, ctxs := t.quay.ctxs, msix := t.quay.msix }
    units := { s.units with cipher := t.units.cipher, hash := t.units.hash, arc := t.units.arc }
    mews := { s.mews with slots := t.mews.slots, cascades := t.mews.cascades }
    kerb := { s.kerb with reports := t.kerb.reports }
    fnt := { s.fnt with
      state := t.fnt.state, absorbed := t.fnt.absorbed, credit := t.fnt.credit, seed := t.fnt.seed, int := t.fnt.int, sw := t.fnt.sw
      katBusy := t.fnt.katBusy, draws := t.fnt.draws, part := t.fnt.part, got := t.fnt.got, rng := t.fnt.rng
      rngDone := t.fnt.rngDone, rngDead := t.fnt.rngDead }
    curves := t.curves
    xing := { s.xing with mirror := t.xing.mirror, sess := t.xing.sess }
    chk := { s.chk with eccBad := t.chk.eccBad, ctxBad := t.chk.ctxBad, slotBad := t.chk.slotBad } }

/-- The registers it names: the counts of what a finding and the ends of commands by it change, and, in any page, what faults, errors
and events write, with the mode an Arcade unit shows. -/
abbrev scrubKeys : List Nat :=
  [Reg.QUAY_RPL_HITS, Reg.QUAY_RPL_ECC, Reg.RBT_LATE, Reg.RBT_CTX_ECC, Reg.MEWS_REVOKES, Reg.MEWS_KT_ECC, Reg.COMP_AUTH_FAIL,
    Reg.COMP_DONE, Reg.CHECKPOINT_SRAM_ECC]
abbrev scrubOffs : List Nat :=
  [Reg.PAGE_STAT, Reg.INT_STAT, Reg.ERR_SYND, Reg.ERR_ADDR, Reg.FAULT_CNT, Reg.QUAY_LINK_STAT]
abbrev scrubRegs : Nat → Prop := Named scrubKeys scrubOffs []

theorem reg_within_scrub : regFoot.Within scrubFoot := fun _ _ => rfl

/-- A fault, its record and its event. -/
abbrev findingRegs : Nat → Prop := Named [] [Reg.PAGE_STAT, Reg.INT_STAT, Reg.ERR_SYND, Reg.ERR_ADDR, Reg.FAULT_CNT] []

/-- The registers in which the memories' errors are counted: corrected ones in the low half, uncorrectable ones in the high half. -/
abbrev eccRegs : List Nat := [Reg.QUAY_RPL_ECC, Reg.RBT_CTX_ECC, Reg.MEWS_KT_ECC, Reg.CHECKPOINT_SRAM_ECC]

theorem eccReg_scrub {k : Nat} (h : k ∈ eccRegs) : scrubRegs k :=
  .inl ((by decide : eccRegs ⊆ scrubKeys) h)

theorem eccReg_not_finding {k : Nat} (h : k ∈ eccRegs) : ¬ findingRegs k :=
  not_named ((by decide : ∀ k ∈ eccRegs, (([] : List Nat).contains k ||
    [Reg.PAGE_STAT, Reg.INT_STAT, Reg.ERR_SYND, Reg.ERR_ADDR, Reg.FAULT_CNT].contains (k % 0x1000) ||
      ([] : List Nat).contains (k / 0x1000)) = false) k h)

/-- A count of 16 bits holds at its top. -/
theorem fld_bump_same (s : State) (k : Nat) {hi lo : Nat} (hh : hi < 32) (hl : hi + 1 - lo = 16) :
    fld (bump s k hi lo 1) k hi lo = min 65535 (fld s k hi lo + 1) := by
  unfold bump
  rw [fld_setFld_same s k (by omega) hh, satAdd, hl]
  exact Nat.mod_eq_of_lt (by omega)

/-- An event's bits are set where its page is on. -/
theorem rbit_raiseInt {s : State} {p mask i : Nat} (hp : pageOn s p = true) (hi : i < 32) (hm : mask.testBit i = true) :
    rbit (raiseInt s p mask) (rk p Reg.INT_STAT) i = true := by
  unfold rbit wbit
  rw [reg_raiseInt, if_pos ⟨hp, rfl⟩, BitVec.toNat_or, Nat.testBit_or, BitVec.toNat_ofNat, Nat.testBit_mod_two_pow, hm]
  simp [hi]

/-! ## A finding counted -/

/-- A corrected error is counted and nothing else changes. -/
theorem corrected_counts (s : State) {k : Nat} (hk : k ∈ eccRegs) :
    fld (bump s k 15 0 1) k 15 0 = min 65535 (fld s k 15 0 + 1) ∧ Changes regFoot scrubRegs s (bump s k 15 0 1) :=
  ⟨fld_bump_same s k (by decide) rfl, changes_bump s 15 0 1 (eccReg_scrub hk)⟩

/-- From s, whose word is marked in m, an uncorrectable error is counted: a fault of page p, the count in k, a record and an event.
The rest is as m has it. -/
structure Counted (k : Nat) (s t : State) (m : State) : Prop where
  count : fld t k 31 16 = min 65535 (fld s k 31 16 + 1)
  changes : Changes scrubFoot scrubRegs s t
  rest : Changes faultFoot (fun j => findingRegs j ∨ j = k) m t

section
variable {k : Nat} {s t m : State}

/-- The count, after what the fault changed. -/
theorem Counted.count_after {n : State} (hk : k ∈ eccRegs) (hm : Changes scrubFoot scrubRegs s m) (hr : reg m k = reg s k)
    (hf : Changes faultFoot findingRegs m n) : Counted k s (bump n k 31 16 1) m := by
  have hb := changes_bump n (P := (· = k)) 31 16 1 rfl
  refine ⟨?_, ?_, (hf.more fun _ => .inl).trans (hb.mono reg_within_fault fun _ => .inr)⟩
  · rw [fld_bump_same _ k (by decide) rfl, fld, hf.regs k (eccReg_not_finding hk), hr, fld]
  · exact (hm.trans (hf.mono (fun _ _ => rfl) (Named.mono (by decide) (by decide) (by decide)))).trans
      (hb.mono reg_within_scrub fun _ h => h ▸ eccReg_scrub hk)

theorem Counted.step (h : Counted k s t m) (hk : k ∈ eccRegs) {u : State} (g : Changes faultFoot findingRegs t u) :
    Counted k s u m := by
  refine ⟨?_, h.changes.trans (g.mono (fun _ _ => rfl) (Named.mono (by decide) (by decide) (by decide))),
    h.rest.trans (g.more fun _ => .inl)⟩
  rw [fld, g.regs k (eccReg_not_finding hk)]
  exact h.count

theorem finding_countFault (s : State) (p : Nat) : Changes faultFoot findingRegs s (countFault s p) :=
  (changes_countFault s p).more (Named.mono (by decide) (by decide) (by decide))

theorem Counted.errSynd (h : Counted k s t m) (hk : k ∈ eccRegs) (p c a i v : Nat) : Counted k s (errSynd t p c a i v) m :=
  h.step hk ((changes_errSynd ..).mono event_within_fault (Named.mono (by decide) (by decide) (by decide)))

theorem Counted.raiseInt (h : Counted k s t m) (hk : k ∈ eccRegs) (p e : Nat) : Counted k s (raiseInt t p e) m :=
  h.step hk ((changes_raiseInt ..).mono event_within_fault (Named.mono (by decide) (by decide) (by decide)))

theorem Counted.pageOn (h : Counted k s t m) (hk : k ∈ eccRegs) (p : Nat) : pageOn t p = pageOn m p := by
  have hreg {j : Nat} (hj : ¬ findingRegs j) (hne : ∀ k ∈ eccRegs, j ≠ k) : reg t j = reg m j :=
    h.rest.regs j fun g => g.elim hj (hne k hk)
  exact pageOn_eq (h.rest.kept (·.mainOn) fun _ _ => rfl) (hreg (not_named (by decide)) (by decide))
    (hreg (not_named (by decide)) (by decide)) p
end

/-! ## The findings, site by site -/

/-- A command that names a Curve Store entry and has still to copy it is marked with its loss. -/
def curveMark (e : Nat) (c : Nat × Ctx) : Nat × Ctx :=
  if beforeCopy c.2 && namesCurve c.2 e then (c.1, { c.2 with curveBad := some e }) else c

/-- The states in which an uncorrectable error has marked what it is found in: a word of the shared SRAM, a Curve Store entry with the
commands that have still to copy it, a Key Table slot, a context. -/
abbrev sramMarked (s : State) (a : Nat) : State := setChk s { s.chk with eccBad := a / 8 :: s.chk.eccBad }
abbrev slotMarked (s : State) (n : Nat) : State := { s with chk := { s.chk with slotBad := n :: s.chk.slotBad } }
abbrev ctxMarked (s : State) (c : Nat) : State := setChk s { s.chk with ctxBad := c :: s.chk.ctxBad }
abbrev curveMarked (s : State) (e : Nat) : State := { s with
  quay := { s.quay with ctxs := s.quay.ctxs.map (curveMark e) }
  curves := tdel s.curves e }

section
variable {s : State}

theorem sramUncorr_new {a : Nat} (h : s.chk.eccBad.contains (a / 8) = false) :
    Counted Reg.CHECKPOINT_SRAM_ECC s (sramUncorr s a) (sramMarked s a) ∧
      (pageOn s 0x40 = true → rbit (sramUncorr s a) (rk 0x40 Reg.INT_STAT) 2 = true) := by
  have hc := (Counted.count_after (k := Reg.CHECKPOINT_SRAM_ECC) (s := s) (m := sramMarked s a) (by decide) ⟨rfl, fun _ _ => rfl⟩ rfl
    (finding_countFault _ 0x40)).errSynd (by decide) 0x40 0x12 0x20 0 a
  unfold sramUncorr
  rw [if_neg (by rw [h]; decide)]
  exact ⟨hc.raiseInt (by decide) 0x40 4, fun hp => rbit_raiseInt ((hc.pageOn (by decide) 0x40).trans hp) (by decide) (by decide)⟩

theorem curveLoss_eq (s : State) (e : Nat) : curveLoss s e =
    raiseInt (errSynd (countFault (bump (curveMarked s e) Reg.CHECKPOINT_SRAM_ECC 31 16 1) 0x40) 0x40 0x13 0x20 e 0) 0x40 8 := rfl

theorem curveLoss_counts (s : State) (e : Nat) :
    Counted Reg.CHECKPOINT_SRAM_ECC s (curveLoss s e) (curveMarked s e) ∧
      (pageOn s 0x40 = true → rbit (curveLoss s e) (rk 0x40 Reg.INT_STAT) 3 = true) := by
  have hc := ((Counted.count_after (k := Reg.CHECKPOINT_SRAM_ECC) (s := s) (m := curveMarked s e) (by decide) ⟨rfl, fun _ _ => rfl⟩ rfl
    (Changes.refl ..)).step (by decide) (finding_countFault _ 0x40)).errSynd (by decide) 0x40 0x13 0x20 e 0
  rw [curveLoss_eq]
  exact ⟨hc.raiseInt (by decide) 0x40 8, fun hp => rbit_raiseInt ((hc.pageOn (by decide) 0x40).trans hp) (by decide) (by decide)⟩

/-- A slot that no key holds loses none. -/
theorem ktLoss_unused {n : Nat} {l : Bool} (h : s.chk.slotBad.contains n = false) (hn : headOf s n = none) :
    Counted Reg.MEWS_KT_ECC s (ktLoss s n l) (slotMarked s n) := by
  have hm : Changes scrubFoot scrubRegs s (slotMarked s n) := ⟨rfl, fun _ _ => rfl⟩
  have hc := ((Counted.count_after (k := Reg.MEWS_KT_ECC) (by decide) hm rfl (finding_countFault _ 0x28)).raiseInt (by decide)
    0x28 4).errSynd (by decide) 0x28 0x10 0x20 n n
  have hhead := (hc.rest.kept (headOf · n) fun _ _ => rfl).trans hn
  fun_cases ktLoss s n l
  case case1 g => rw [h] at g; cases g
  case case2 => exact hc
  case case3 v g => exact absurd (hhead.symm.trans g) (by simp)

/-- A context that holds no command ends none. -/
theorem ctxUncorr_free {c : Nat} (h : s.chk.ctxBad.contains c = false) (hn : ctxAt s c = none) :
    Counted Reg.RBT_CTX_ECC s (ctxUncorr s c) (ctxMarked s c) := by
  have hm : Changes scrubFoot scrubRegs s (ctxMarked s c) := ⟨rfl, fun _ _ => rfl⟩
  have hc := ((Counted.count_after (k := Reg.RBT_CTX_ECC) (by decide) hm rfl (finding_countFault _ 0x10)).errSynd (by decide)
    0x10 0x10 0x20 c c).raiseInt (by decide) 0x10 4
  have hctx := (hc.rest.kept (ctxAt · c) fun _ _ => rfl).trans hn
  fun_cases ctxUncorr s c
  case case1 g => rw [h] at g; cases g
  case case2 => exact hc
  case case3 v g _ _ => exact absurd (hctx.symm.trans g) (by simp)
  case case4 v g _ => exact absurd (hctx.symm.trans g) (by simp)

/-- The end of a finding in a replay window: its queue as v, the error counted, the event raised. -/
theorem replay_counts (s : State) (q : Nat) (v : Queue) :
    Counted Reg.QUAY_RPL_ECC s (raiseInt (bump (countFault (setQueue s q v) 0x0B) Reg.QUAY_RPL_ECC 31 16 1) 0x0B 1) (setQueue s q v) := by
  have hm : Changes scrubFoot scrubRegs s (setQueue s q v) := ⟨rfl, fun _ _ => rfl⟩
  exact (Counted.count_after (by decide) hm rfl (finding_countFault _ 0x0B)).raiseInt (by decide) 0x0B 1

theorem replayEcc_entry {q i : Nat} {x : RplEntry} (hx : (queueAt s q).win[i]? = some x) (hb : x.bad = false) :
    Counted Reg.QUAY_RPL_ECC s (replayEcc s q i)
      (setQueue s q { queueAt s q with win := (queueAt s q).win.set i { x with bad := true } }) := by
  simp only [replayEcc, hx, hb, Bool.false_eq_true, if_false]
  exact replay_counts s q _

theorem replayEcc_free {q i : Nat} (hx : (queueAt s q).win[i]? = none) (hb : (queueAt s q).badFree.contains i = false) :
    Counted Reg.QUAY_RPL_ECC s (replayEcc s q i)
      (setQueue s q { queueAt s q with badFree := i :: (queueAt s q).badFree }) := by
  simp only [replayEcc, hx, hb, Bool.false_eq_true, if_false]
  exact replay_counts s q _

/-- What is marked is not counted again. -/
theorem sramUncorr_again {a : Nat} (h : s.chk.eccBad.contains (a / 8) = true) : sramUncorr s a = s := if_pos h
theorem ktLoss_again {n : Nat} {l : Bool} (h : s.chk.slotBad.contains n = true) : ktLoss s n l = s := if_pos h
theorem ctxUncorr_again {c : Nat} (h : s.chk.ctxBad.contains c = true) : ctxUncorr s c = s := if_pos h

theorem replayEcc_again {q i : Nat}
    (h : ((queueAt s q).win[i]?.map (·.bad)).getD ((queueAt s q).badFree.contains i) = true) : replayEcc s q i = s := by
  rcases hx : (queueAt s q).win[i]? with _ | x
  · simp only [hx, Option.map_none, Option.getD_none] at h
    simp only [replayEcc, hx, h, if_true]
  · simp only [hx, Option.map_some, Option.getD_some] at h
    simp only [replayEcc, hx, h, if_true]

theorem Counted.queue {k q : Nat} {t : State} {v : Queue} (h : Counted k s t (setQueue s q v)) : queueAt t q = v :=
  (h.rest.kept (queueAt · q) fun _ _ => rfl).trans (queueAt_setQueue_same ..)

end

/-- Page 0x40 is powered with the memories of domain 0. -/
theorem pageOn_checkpoint {s : State} (h : domOn s 0 = true) : pageOn s 0x40 = true := h

/-! ## A visit -/

/-- The domain of the memory a site lies in, the register that counts its errors, and what an uncorrectable one does. -/
def siteDom : ScrubSite → Nat
  | .sharedSram _ => 0
  | .context _ => 18
  | .keyTable _ _ => 12
  | .replay _ _ => 13
  | .curve _ => 0
def siteReg : ScrubSite → Nat
  | .sharedSram _ => Reg.CHECKPOINT_SRAM_ECC
  | .context _ => Reg.RBT_CTX_ECC
  | .keyTable _ _ => Reg.MEWS_KT_ECC
  | .replay _ _ => Reg.QUAY_RPL_ECC
  | .curve _ => Reg.CHECKPOINT_SRAM_ECC
def siteLoss (s : State) : ScrubSite → State
  | .sharedSram w => sramUncorr s (sramBase + 8 * (w % 2 ^ 20))
  | .context c => ctxUncorr s c.val
  | .keyTable n lost => ktLoss s n.val lost
  | .replay q e => replayEcc s q.val e.val
  | .curve e => curveLoss s e.val

theorem siteReg_mem (site : ScrubSite) : siteReg site ∈ eccRegs := by
  cases site <;> simp [siteReg, eccRegs]

theorem sramScrub_eq (s : State) (site : ScrubSite) (uncorr : Bool) : sramScrub s site uncorr =
    if !domOn s (siteDom site) then s else if uncorr then siteLoss s site else bump s (siteReg site) 15 0 1 := by
  cases site <;> rfl

theorem exec_sramScrub (s : State) (site : ScrubSite) (uncorr : Bool) :
    exec (.sramScrub site uncorr) s = .next (sramScrub s site uncorr) := rfl

section
variable {s : State} {site : ScrubSite}

/-- A site whose domain is off is not visited. -/
theorem scrub_off {uncorr : Bool} (hd : domOn s (siteDom site) = false) :
    Answers (.sramScrub site uncorr) s fun t => t = s :=
  ⟨_, exec_sramScrub .., by simp [sramScrub_eq, hd]⟩

theorem scrub_uncorr (hd : domOn s (siteDom site) = true) : exec (.sramScrub site true) s = .next (siteLoss s site) := by
  simp [exec_sramScrub, sramScrub_eq, hd]

/-- A corrected error is counted, with what the statement lets change. -/
theorem scrub_corrected (hd : domOn s (siteDom site) = true) :
    Answers (.sramScrub site false) s fun t => fld t (siteReg site) 15 0 = min 65535 (fld s (siteReg site) 15 0 + 1) ∧
      t.quay = s.quay ∧ t.mews = s.mews ∧ t = scrubFoot.put s t ∧ OtherRegs s t scrubKeys scrubOffs [] := by
  obtain ⟨hcount, hc⟩ := corrected_counts s (siteReg_mem site)
  refine ⟨bump s (siteReg site) 15 0 1, ?_, hcount, hc.kept (·.quay) fun _ _ => rfl, hc.kept (·.mews) fun _ _ => rfl,
    (hc.mono reg_within_scrub fun _ => id).frame, hc.otherRegs⟩
  simp [exec_sramScrub, sramScrub_eq, hd]
end

/-- Settles O43: a site is visited where its domain is on, and a finding there marks and counts by the lemma of its memory. -/
theorem scrubbing : Obligations.Scrubbing := by
  unfold Obligations.Scrubbing
  refine ⟨?sram, ?sramOff, ?curve, ?curveOff, ?ctx, ?ctxOff, ?slot, ?slotOff, ?replay, ?replayOff, ?sramNew, ?sramAgain, ?curveNew,
    ?replayEntry, ?replayFree, ?replayAgain, ?slotNew, ?slotAgain, ?ctxAgain, ?ctxNew⟩
  case sram => exact fun s w => scrub_corrected (site := .sharedSram w)
  case curve => exact fun s e => scrub_corrected (site := .curve e)
  case ctx => exact fun s c => scrub_corrected (site := .context c)
  case slot => exact fun s n l => scrub_corrected (site := .keyTable n l)
  case replay => exact fun s q e => scrub_corrected (site := .replay q e)
  case sramOff => exact fun s u w => scrub_off (site := .sharedSram w)
  case curveOff => exact fun s u e => scrub_off (site := .curve e)
  case ctxOff => exact fun s u c => scrub_off (site := .context c)
  case slotOff => exact fun s u n l => scrub_off (site := .keyTable n l)
  case replayOff => exact fun s u q e => scrub_off (site := .replay q e)
  case sramNew =>
    intro s w hd hnew
    obtain ⟨hc, hevent⟩ := sramUncorr_new hnew
    exact ⟨_, scrub_uncorr hd, hc.rest.kept (·.chk.eccBad) fun _ _ => rfl, hc.count, hevent (pageOn_checkpoint hd),
      hc.changes.frame, hc.changes.otherRegs⟩
  case curveNew =>
    intro s e hd
    obtain ⟨hc, hevent⟩ := curveLoss_counts s e.val
    exact ⟨_, scrub_uncorr hd, hc.rest.kept (·.curves) fun _ _ => rfl, hc.count, hevent (pageOn_checkpoint hd),
      hc.changes.frame, hc.changes.otherRegs⟩
  case replayEntry =>
    intro s q e x hd hx hb
    have hc := replayEcc_entry hx hb
    exact ⟨_, scrub_uncorr hd, congrArg Queue.win hc.queue, hc.count, hc.changes.frame, hc.changes.otherRegs⟩
  case replayFree =>
    intro s q e hd hx hb
    have hc := replayEcc_free hx hb
    exact ⟨_, scrub_uncorr hd, congrArg Queue.badFree hc.queue, hc.count, hc.changes.frame, hc.changes.otherRegs⟩
  case slotNew =>
    intro s n l hd hnew hfree
    have hc := ktLoss_unused (l := l) hnew hfree
    exact ⟨_, scrub_uncorr hd, hc.count, hc.rest.kept (·.chk.slotBad) fun _ _ => rfl, hc.rest.kept (·.mews) fun _ _ => rfl,
      hc.changes.frame, hc.changes.otherRegs⟩
  case ctxNew =>
    intro s c hd hnew hfree
    have hc := ctxUncorr_free hnew hfree
    exact ⟨_, scrub_uncorr hd, hc.count, hc.rest.kept (·.chk.ctxBad) fun _ _ => rfl, hc.rest.kept (·.quay.ctxs) fun _ _ => rfl,
      hc.changes.frame, hc.changes.otherRegs⟩
  case sramAgain => exact fun s w hd hbad => ⟨_, scrub_uncorr hd, sramUncorr_again hbad⟩
  case replayAgain => exact fun s q e hd hbad => ⟨_, scrub_uncorr hd, replayEcc_again hbad⟩
  case slotAgain => exact fun s n l hd hbad => ⟨_, scrub_uncorr hd, ktLoss_again hbad⟩
  case ctxAgain => exact fun s c hd hbad => ⟨_, scrub_uncorr hd, ctxUncorr_again hbad⟩

end Sys2Proof.Machine
end


section
/-! CLAIM. The cipher and hash opcodes begin on their units (R95, R123, R136, R138, R550). -/
namespace Sys2Proof.Machine
open Sys2Proof

section
variable {s : State} {c op : Nat} {x : Ctx}

/-- A command of the opcode that is placed on its unit and waits for no reservation runs from then on, from its IV. -/
theorem cipherStart_starts (hx : ctxAt s c = some x) (hp : x.phase = .placed) (hw : x.waitRsv = false) (ho : x.d.opcode = op) :
    cipherStart s c [op] = setCtx s c { x with phase := .running, iv := startIv x } := by
  simp [cipherStart, hx, hp, hw, ho]

/-- A context without such a command starts nothing. -/
theorem cipherStart_not
    (h : (ctxAt s c).any (fun x => decide (x.phase = .placed) && !x.waitRsv && x.d.opcode == op) = false) :
    cipherStart s c [op] = s := by
  unfold cipherStart
  cases hx : ctxAt s c with
  | none => rfl
  | some x =>
    rw [hx, Option.any_some] at h
    simp only [List.contains_cons, List.contains_nil, Bool.or_false, h, Bool.false_eq_true, if_false]
end

section
variable {s : State} {op : Nat} {i : CtxNo → Instr} (hi : ∀ c, exec (i c) s = .next (cipherStart s c.val [op]))
include hi

/-- What a statement says of an opcode's start: the context alone changes. -/
theorem answers_start (c : CtxNo) (x : Ctx) (hx : ctxAt s c.val = some x) (hp : x.phase = .placed) (hw : x.waitRsv = false)
    (ho : x.d.opcode = op) :
    Answers (i c) s fun t => ctxAt t c.val = some { x with phase := .running, iv := startIv x } ∧ t.units = s.units ∧ t.out = s.out ∧
      t = { s with quay := { s.quay with ctxs := t.quay.ctxs } } :=
  ⟨_, (hi c).trans (congrArg _ (cipherStart_starts hx hp hw ho)), ctxAt_setCtx_same .., rfl, rfl, rfl⟩

theorem answers_startNot (c : CtxNo)
    (h : (ctxAt s c.val).any (fun x => decide (x.phase = .placed) && !x.waitRsv && x.d.opcode == op) = false) :
    Answers (i c) s fun t => t = s :=
  ⟨_, hi c, cipherStart_not h⟩
end

/-- Settles O12: the nine opcodes share one start, which their opcode selects. -/
theorem cipherAndHashOpcodes : Obligations.CipherAndHashOpcodes := by
  unfold Obligations.CipherAndHashOpcodes
  refine ⟨?encrypt, ?encryptNot, ?decrypt, ?decryptNot, ?macGenerate, ?macGenerateNot, ?macVerify, ?macVerifyNot, ?wrap, ?wrapNot,
    ?unwrap, ?unwrapNot, ?hash, ?hashNot, ?hmacGenerate, ?hmacGenerateNot, ?hmacVerify, ?hmacVerifyNot⟩
  case encrypt => exact fun _ => answers_start (i := .encrypt) fun _ => rfl
  case encryptNot => exact fun _ => answers_startNot (i := .encrypt) fun _ => rfl
  case decrypt => exact fun _ => answers_start (i := .decrypt) fun _ => rfl
  case decryptNot => exact fun _ => answers_startNot (i := .decrypt) fun _ => rfl
  case macGenerate => exact fun _ => answers_start (i := .macGenerate) fun _ => rfl
  case macGenerateNot => exact fun _ => answers_startNot (i := .macGenerate) fun _ => rfl
  case macVerify => exact fun _ => answers_start (i := .macVerify) fun _ => rfl
  case macVerifyNot => exact fun _ => answers_startNot (i := .macVerify) fun _ => rfl
  case wrap => exact fun _ => answers_start (i := .wrap) fun _ => rfl
  case wrapNot => exact fun _ => answers_startNot (i := .wrap) fun _ => rfl
  case unwrap => exact fun _ => answers_start (i := .unwrap) fun _ => rfl
  case unwrapNot => exact fun _ => answers_startNot (i := .unwrap) fun _ => rfl
  case hash => exact fun _ => answers_start (i := .hash) fun _ => rfl
  case hashNot => exact fun _ => answers_startNot (i := .hash) fun _ => rfl
  case hmacGenerate => exact fun _ => answers_start (i := .hmacGenerate) fun _ => rfl
  case hmacGenerateNot => exact fun _ => answers_startNot (i := .hmacGenerate) fun _ => rfl
  case hmacVerify => exact fun _ => answers_start (i := .hmacVerify) fun _ => rfl
  case hmacVerifyNot => exact fun _ => answers_startNot (i := .hmacVerify) fun _ => rfl

end Sys2Proof.Machine
end

section
/-! CLAIM. Acceptance and dispatch (R99 to R101, R109, R113, R116 to R120), refuted by a command whose Curve Store entry is lost while it waits:
when it is dispatched it ends ABORTED with DETAIL 0x08 (R416), so it is zeroising and not placed. What the statement lacks is the
hypothesis that the chosen command names no lost entry (x.curveBad = none). -/
namespace Sys2Proof.Machine
open Sys2Proof

/-- An ARC_COMPUTE point addition on the curve of entry 0 of the Curve Store, accepted and launched. -/
def pointAddition : Ctx :=
  { q := 7, seq := 1, phase := .ready, d := { opcode := 0x58, mode := 2, arg := 0x11, len := 128 }, param := fit 64 [0, 0, 0, 0, 0x80]
    srcs := [{ addr := 0, len := 128 }], dsts := [{ addr := 0x1000, len := 64 }] }

/-- The state in which it waits for Arcade unit 1, with P-256 in its entry. -/
def curveWaits : State :=
  { setCtx q7 4 pointAddition with units := { arc := [(1, { kat := false })] }, curves := [(0, p256)] }

/-- The state after an uncorrectable error in its entry. -/
def curveLost : State := curveLoss curveWaits 0

/-- The device reaches it from there: the scrub of the entry finds the error. -/
theorem scrub_loses_curve : exec (.sramScrub (.curve 0) true) curveWaits = .next curveLost :=
  scrub_uncorr (site := .curve 0) (by decide)

theorem curveLost_chooses : chooseNext curveLost .arcade 1 = some (4, { pointAddition with curveBad := some 0 }) := by decide

theorem curveLost_unit_available : anyAvail curveLost pointAddition.d = true := by decide

/-- The command ends ABORTED with DETAIL 0x08, its unit zeroising (R416). -/
theorem dispatch_curveLost_ends :
    (ctxAt (dispatch curveLost .arcade 1 .clean none) 4).map (fun z => (z.phase, z.eng)) = some (.zeroising, some (.arcade 1)) ∧
      (ctxAt (dispatch curveLost .arcade 1 .clean none) 4).map (fun z => (z.status, z.detail)) = some (0x08, 0x08) := by
  decide

/-- Refutes O11: the clause for a dispatch to an Arcade unit fails after a Curve Store loss, at `curveLost`. -/
theorem not_acceptance : ¬ Obligations.Acceptance := by
  unfold Obligations.Acceptance
  rintro ⟨-, -, -, -, -, -, -, -, -, -, -, -, -, -, dispatchArcade, -⟩
  obtain ⟨t, ht, -, -, hctx, -, -⟩ := dispatchArcade curveLost 4 _ 1 curveLost_chooses curveLost_unit_available
  cases ht
  have placed_is_zeroising := hctx.symm.trans dispatch_curveLost_ends.1
  exact absurd placed_is_zeroising (by decide)

end Sys2Proof.Machine
end

section
/-! SUPPORT and CLAIM. Counts read low half first (R122, R162 to R164, R305): each read is the one operation `readLatch`. -/
namespace Sys2Proof.Machine
open Sys2Proof

theorem gateRead_reaches {s : State} {src : Src} {key : Nat} (h : Reaches s src key) (k : State → State) :
    gateRead s src key k = k s := by
  unfold gateRead
  rw [if_pos h]

theorem changes_readLatch {P : Nat → Prop} (s : State) (src : Src) {hi : Nat} (n : Nat) (h : P hi) :
    Changes eventFoot P s (readLatch s src hi n) :=
  ⟨rfl, (changes_setReg s _ h).regs⟩

theorem reg_readLatch_same (s : State) (src : Src) (hi n : Nat) :
    reg (readLatch s src hi n) hi = BitVec.ofNat 32 (n / 2 ^ 32) :=
  reg_setReg_same ..

/-- A read that reaches its register and ends in a latch, after writes (to u) of registers that its statement names. -/
theorem answers_latch {i : Instr} {s u : State} {src : Src} {key hi n : Nat} {k : State → State} {keys offs pages : List Nat}
    (hr : Reaches s src key) (he : exec i s = .next (gateRead s src key k)) (hk : k s = readLatch u src hi n)
    (hu : Changes regFoot (Named keys offs pages) s u) (hn : Named keys offs pages hi) :
    Answers i s fun t => t.out = .readData src (toLe 4 n) :: s.out ∧ reg t hi = BitVec.ofNat 32 (n / 2 ^ 32) ∧
      t = eventFoot.put s t ∧ OtherRegs s t keys offs pages := by
  rw [gateRead_reaches hr, hk] at he
  have hc := (hu.mono reg_within_event fun _ => id).trans (changes_readLatch u src n hn)
  have hout : u.out = s.out := hu.kept (·.out) fun _ _ => rfl
  exact ⟨_, he, congrArg _ hout, reg_readLatch_same .., hc.frame, hc.otherRegs⟩

/-- Settles O15: the five reads share one latch, before which a read of CT_TICK_LO writes the two words of CT_EPOCH. -/
theorem latchedCounts : Obligations.LatchedCounts := by
  unfold Obligations.LatchedCounts
  refine ⟨?lane, ?blvd, ?hash, ?launch, ?tick⟩
  case lane => exact fun s src g hr => answers_latch hr rfl rfl (Changes.refl ..) (named_off (by decide) (by decide))
  case blvd =>
    intro s src p hr
    have page : (Reg.BLVD_BYTES0_HI + 8 * p.val) / 0x1000 = 0x19 := by unfold Reg.BLVD_BYTES0_HI; omega
    exact answers_latch hr rfl rfl (Changes.refl ..) (.inr (.inr (by simp [page])))
  case hash => exact fun s src hr => answers_latch hr rfl rfl (Changes.refl ..) (.inl (by decide))
  case launch => exact fun s src hr => answers_latch hr rfl rfl (Changes.refl ..) (.inl (by decide))
  case tick =>
    intro s src hr
    have epoch := (changes_setReg (P := Named [Reg.CT_TICK_HI, Reg.CT_EPOCH_LO, Reg.CT_EPOCH_HI]
        [Reg.INT_STAT, Reg.ERR_SYND, Reg.ERR_ADDR] []) s (k := Reg.CT_EPOCH_LO) (BitVec.ofNat 32 (epochOf s s.tick))
      (.inl (by decide))).trans (changes_setReg _ (k := Reg.CT_EPOCH_HI)
        (BitVec.ofNat 32 (epochOf s s.tick / 2 ^ 32 % 2 ^ 12)) (.inl (by decide)))
    exact answers_latch hr rfl rfl epoch (.inl (by decide))

end Sys2Proof.Machine
end

section
/-! CLAIM. Known-answer tests (R120, R147, R148), refuted by a context that names a unit before its command is dispatched to one. A lane's
test fails, so commands left without an available unit end (R120), and the end of a command frees the units its context names; a RETEST
that waits for one of them then starts its test anew. The device names units in a context only as it dispatches, and a command ends so
only while it waits, so what the statement lacks is the hypothesis that no context held or ready names a unit. -/
namespace Sys2Proof.Machine
open Sys2Proof

/-- An ENCRYPT that waits to be dispatched and names lane 0 already. -/
def strayCommand : Ctx := { q := 7, seq := 1, phase := .ready, eng := some (.cipher 0), d := { opcode := 0x10 } }

/-- READY with this command, every lane group excluded, and lane 0 under test while a RETEST waits for its command to complete. -/
def strayUnit : State :=
  { setCtx (setReg ready Reg.RBT_ENG_EXCL 0xFF) 4 strayCommand with units := { cipher := [(0, { kat := true, retest := true })] } }

theorem strayUnit_awaits_result :
    (cunit strayUnit 0).kat = true ∧ domOn strayUnit (cunitDom 0) = true ∧ pageOn strayUnit 0x11 = true := by
  decide

/-- The command ends with the test that failed, and the RETEST starts the next one. -/
theorem failed_test_restarts :
    ctxAt (cunitKatDone strayUnit 0 false) 4 = none ∧ (cunit (cunitKatDone strayUnit 0 false) 0).kat = true := by
  decide

/-- Refutes O14: at `strayUnit` the failed test of lane 0 leaves lane 0 under test. -/
theorem not_unitTests : ¬ Obligations.UnitTests := by
  unfold Obligations.UnitTests
  rintro ⟨-, laneKatFails, -⟩
  obtain ⟨kat, dom, page⟩ := strayUnit_awaits_result
  obtain ⟨t, ht, tested, -⟩ := laneKatFails strayUnit 0 kat dom page
  cases ht
  exact absurd (tested.symm.trans failed_test_restarts.2) (by decide)

end Sys2Proof.Machine
end

section
/-! CLAIM. Reservations (R137, R138, R140), refuted by a reservation record whose even half holds an odd block. A counter that is not of
the device's parity resumes above the record's half for that parity; here the block it resumes at is odd again, so the counter is read
afresh each time and what has been confirmed of it is not kept. A half holds only blocks of its own parity (R138), so what the statement
lacks is the hypothesis that the block the device issues from is of its parity, (ctrAt s n).blk % 2 = parity s. -/
namespace Sys2Proof.Machine
open Sys2Proof

/-- The counter that resumes above block 1, its reservation of block 3 under way. -/
def oddCounter : Ctr := { blk := 3, off := 0, conf := none, pend := some 3 }

/-- READY, the device unpaired and so of even parity, with block 1 in the even half of the record of slot 9. -/
def oddHalf : State := setCtr { ready with fer := { rsv := [(9, { even := some { blk := 1, code := 0 } })] } } 9 oddCounter

theorem ctrAt_oddHalf : ctrAt oddHalf 9 = oddCounter := by decide

/-- The counter of slot 9 is kept, and its pending block is of the parity it issues from. -/
theorem oddHalf_pending :
    (ctrAt oddHalf 9).pend = some 3 ∧ 3 % 2 = (ctrAt oddHalf 9).blk % 2 ∧ tfind oddHalf.mews.ctrs 9 = some (ctrAt oddHalf 9) := by
  rw [ctrAt_oddHalf]
  exact ⟨rfl, rfl, tfind_tput_same ..⟩

/-- No partner is to confirm it, and no command waits for a block. -/
theorem oddHalf_alone :
    paired oddHalf = false ∧ rsvMirrored oddHalf 9 3 false = false ∧ (oddHalf.quay.ctxs.any fun e => e.2.waitRsv) = false := by
  decide

/-- The read-back of block 3 succeeds, and the counter has no block confirmed. -/
theorem readBack_confirms_nothing : (ctrAt (reservationConfirm oddHalf 9 true) 9).conf = none := by decide

/-- Refutes O16: at `oddHalf` the read-back of block 3 succeeds and does not confirm it. -/
theorem not_reservations : ¬ Obligations.Reservations := by
  unfold Obligations.Reservations
  rintro ⟨-, nonceConfirmed, -⟩
  obtain ⟨pend, parityOfIssue, kept⟩ := oddHalf_pending
  obtain ⟨noPartner, notMirrored, noneWaits⟩ := oddHalf_alone
  obtain ⟨t, ht, confirmed, -⟩ := nonceConfirmed oddHalf 9 3 pend parityOfIssue kept noPartner notMirrored noneWaits
  cases ht
  exact absurd (confirmed.symm.trans readBack_confirms_nothing) (by simp)

end Sys2Proof.Machine
end

section
/-! CLAIM. The state after reset (R167, R305, R322, R365, R525): no table lists anything, so each reads its unlisted value everywhere. -/
namespace Sys2Proof.Machine
open Sys2Proof

/-- A slot that is not listed is EMPTY. -/
theorem isLive_slotDefault (s : State) : isLive (slotDefault s) = false := rfl

/-- A core that is not listed is in system mode. -/
theorem userMode_default : userMode ({} : Core).r = false := by decide

theorem bootReady_reset : bootReady State.reset = false := by decide

/-- Settles O60: each conjunct is a field's reset value or the unlisted value of an empty table. -/
theorem resetState : Obligations.ResetState := by
  unfold Obligations.ResetState
  refine ⟨reset_memory_wf, rfl, rfl, rfl, bootReady_reset, ?queues, ?slots, rfl, rfl, ?cores, ?memory⟩
  case queues => exact fun _ => rfl
  case slots => exact fun _ => isLive_slotDefault State.reset
  case cores => exact fun _ => userMode_default
  case memory => exact fun _ => rfl

end Sys2Proof.Machine
end

section
/-! CLAIM. Cascades, zeroisation and assignment (R170, R196, R197, R199, R200, R210, R549), refuted by an assignment
on a PAIRED device that is not the sequencer. Its operation stands forwarded until the sequencer has committed it (R451, R453), and while
it does ASSIGN_DONE reaches no slot and ends nothing; even a range that has been reached ends only once the partner has confirmed it. What
the clause for ASSIGN_DONE lacks is the hypothesis a.fwd = false ∧ a.peer = false. -/
namespace Sys2Proof.Machine
open Sys2Proof

/-- An operation that the sequencer has not committed reaches no slot, whatever the number of its steps. -/
theorem assignRun_forwarded {s : State} {a : AssignOp} (ha : s.mews.assign = some a) (hf : a.fwd = true) :
    ∀ n, assignRun n s = s
  | 0 => rfl
  | _ + 1 => by simp [assignRun, ha, hf]

theorem assignDone_forwarded {s : State} {a : AssignOp} (ha : s.mews.assign = some a) (hf : a.fwd = true) : assignDone s = s := by
  simp only [assignDone, ha]
  exact assignRun_forwarded ha hf _

/-- READY and PAIRED, the partner the sequencer, MEWS_ASSIGN_CNT 2. -/
def pairedFollower : State := { setReg ready Reg.MEWS_ASSIGN_CNT 2 with xing := { state := 3 } }

/-- The same after port 0 has written ASSIGN for domain 5. -/
def forwardedAssign : State := assignCmd pairedFollower (.port 0) 5

/-- The operation that ASSIGN has begun there. -/
def forwardedOp : AssignOp := { op := 0, dom := 5, next := 0, last := 1, fwd := true, peer := true }

theorem forwardedAssign_runs : forwardedAssign.mews.assign = some forwardedOp ∧ forwardedAssign.mews.zeroising = false := by
  decide

/-- Refutes O18: at `forwardedAssign` ASSIGN_DONE leaves the operation running. -/
theorem not_keyTableEffects : ¬ Obligations.KeyTableEffects := by
  unfold Obligations.KeyTableEffects
  rintro ⟨-, -, -, -, -, -, -, -, -, -, -, -, -, -, -, -, doneEnds, -⟩
  obtain ⟨running, notZeroising⟩ := forwardedAssign_runs
  obtain ⟨t, ht, ended, -⟩ := doneEnds forwardedAssign forwardedOp running notZeroising (by decide)
  have unchanged : forwardedAssign = t := (assignDone_forwarded running rfl).symm.trans (Host.Outcome.next.inj ht)
  rw [← unchanged, running] at ended
  exact absurd ended (by simp)

end Sys2Proof.Machine
end

section
/-! CLAIM. Sessions, frames, mirroring and the loss of the partner (R443 to R447, R451 to R453, R456, R457), refuted by a link-up that
waits for its session value while an autoload has still to follow on the INIT of a card that is READY. DRBG_GENERATE tries all that waits
again, and after the link-up the loader, which begins to read the boot image (R485, R528). The device begins that load within the step that
ends the INIT; the statement excludes a load before and after the link-up but none that is to follow, so what its clause lacks is the
hypothesis NoCardLoad. -/
namespace Sys2Proof.Machine
open Sys2Proof

/-- A partner that is DEPLOYED and has no role yet. -/
def soundPeer : PeerInfo :=
  { serial := 0, value := [], life := 2, k := 0, dev := 0, comp := 0, solo := false, left := false, alive := true }

/-- DEPLOYED and READY at the stage AUTOLOAD, with a card of 1024 blocks READY; the link is up, and its session value is on the Fountain's
wires, whose expander does not serve yet. -/
def linkWaitsAtAutoload : State :=
  { State.reset with
    rstHigh := true
    regs := [(Reg.BOOT_STAT, 0x80000006), (Reg.DEPOT_STAT, 3), (Reg.DEPOT_CAP, 1)]
    life := { state := 2 }
    fnt := { draws := [(0, whoLink)] }
    xing := { state := 1, link := true, upWait := some soundPeer }
    autoload := some (false, 0) }

/-- The expander serves nothing. -/
theorem drbgGenerate_linkWaits : drbgGenerate linkWaitsAtAutoload false none = linkWaitsAtAutoload := rfl

/-- The link-up goes on waiting. -/
theorem newSession_linkWaits : newSession linkWaitsAtAutoload soundPeer = linkWaitsAtAutoload := rfl

/-- The loader begins to read the boot image. -/
theorem load_begins_at_autoload : (resumeAll (drbgGenerate linkWaitsAtAutoload false none)).load.isSome = true := by decide

/-- Refutes O50: at `linkWaitsAtAutoload` a generate request leaves more changed than the link-up. -/
theorem not_crossingEffects : ¬ Obligations.CrossingEffects := by
  unfold Obligations.CrossingEffects
  rintro ⟨-, -, -, -, -, -, -, linkGoesOn, -⟩
  obtain ⟨t, ht, linkUpAlone⟩ :=
    linkGoesOn linkWaitsAtAutoload linkWaitsAtAutoload none soundPeer drbgGenerate_linkWaits.symm rfl rfl rfl rfl rfl ⟨rfl, rfl⟩
  have begun := load_begins_at_autoload
  rw [Host.Outcome.next.inj ht, linkUpAlone, newSession_linkWaits] at begun
  exact absurd begun (by decide)

end Sys2Proof.Machine
end

section
/-! CLAIM. The steps of a composite sequence (R213 to R215, R220), refuted by one fault in one of two cores that are alike. The statement
takes the cores to disagree where the stores they compute differ. A step worked in single blocks is checked by their inverses (R144, R214),
and of the bits a fault flips in the last value the step leaves, the model puts to that check only as many as its last block holds. The ICC
master key is two TDES blocks long (R237): a bit flipped in its second half passes, and the sequence goes on with the primary's key. By
R214 each block is checked, so it is the model's check that is the narrower here; what the clause lacks against it is the hypothesis that
the comparison fails: stepCores f prim chk pe ce = none for the current step f. -/
namespace Sys2Proof.Machine
open Sys2Proof

/-- A step that is not the last, whose comparisons agree and that no stop has reached, leaves the next step current. -/
theorem compStep_goesOn {s : State} {c u : Nat} {x : Ctx} {f : CStep} {pe ce : CoreErr} (hit : Option Hit)
    (hx : ctxAt s c = some x) (hu : compLane x = some u) (composite : 0x60 ≤ x.d.opcode) (running : x.phase = .running)
    (stop : x.stop = none) (step : (compSteps s x ((drawn s c).getD []))[x.step]? = some f)
    (source : f.need ≤ x.srcIn.length) (fountain : f.rnd = false)
    (agree : (stepCores f (cunit s u).prim (cunit s u).chk pe ce).isSome = true)
    (more : x.step + 1 < (compSteps s x ((drawn s c).getD [])).length) :
    ctxAt (compStep s c pe ce hit) c = some { x with step := x.step + 1 } := by
  obtain ⟨⟨p, q⟩, cores⟩ := Option.isSome_iff_exists.mp agree
  simp [compStep, hx, hu, Nat.not_lt_of_le composite, running, step, Nat.not_lt_of_le source, fountain, cores, stop, more]

/-- EMV_ARQC_VERIFY in its TDES mode, about to derive the ICC master key on lane 3: PAN 4761739001010119, PSN 01. -/
def arqcCommand : Ctx :=
  { q := 7, seq := 1, phase := .running, d := { opcode := 0x64, mode := 1, len := 8 }, algs := [8], resv := [.cipher 3]
    param := toBe 8 0x4761739001010119 ++ fill 2 0xFF ++ [16, 1] }

/-- Either core of the lane, its key schedule that of a TDES-2KEY issuer master key. -/
def arqcCore : CipherCore := { keys := [toBe 16 0x0123456789ABCDEFFEDCBA9876543210] }

/-- The command runs in context 4, for the enabled queue 7. -/
def arqcRuns : State :=
  { setCtx q7 4 arqcCommand with units := { cipher := [(3, { ctx := some 4, kat := false, prim := arqcCore, chk := arqcCore })] } }

/-- One bit flipped in the second half of a value of 16 bytes. -/
def secondHalfFault : CoreErr := { out := fill 8 0 ++ [1] }

/-- The step that derives the ICC master key. -/
def masterKeyStep : CStep :=
  { run := fun ks _ => [iccMaster false 8 (ent ks 0) arqcCommand]
    blocks := fun ks _ => fwd 8 (ent ks 0) (iccBlocks false arqcCommand) }

theorem arqcRuns_prim : (cunit arqcRuns 3).prim = arqcCore := rfl
theorem arqcRuns_chk : (cunit arqcRuns 3).chk = arqcCore := rfl

/-- The sequence that context 4 runs. -/
def arqcSequence : List CStep := compSteps arqcRuns arqcCommand ((drawn arqcRuns (4 : CtxNo)).getD [])

theorem arqcSequence_step : arqcSequence[arqcCommand.step]? = some masterKeyStep := rfl

theorem arqcSequence_more : arqcCommand.step + 1 < arqcSequence.length := by decide

theorem arqcRuns_deliverable : Deliverable arqcRuns arqcCommand := by decide

/-- The fault leaves the two stores different. -/
theorem secondHalfFault_disagrees :
    ((runStep masterKeyStep arqcCore secondHalfFault).store != (runStep masterKeyStep arqcCore {}).store) = true := by
  decide +kernel

/-- The checker's inverse of both blocks comes to the step's own inputs. -/
theorem secondHalfFault_passes : (stepCores masterKeyStep arqcCore arqcCore secondHalfFault {}).isSome = true := by
  decide +kernel

theorem arqcRuns_goesOn :
    ctxAt (compStep arqcRuns (4 : CtxNo) secondHalfFault {} none) (4 : CtxNo) = some { arqcCommand with step := 1 } :=
  compStep_goesOn none rfl rfl (by decide) rfl rfl arqcSequence_step (Nat.zero_le _) rfl secondHalfFault_passes
    arqcSequence_more

/-- Refutes O20: at `arqcRuns` the stores come to differ in the first step, and the command goes on to its second. -/
theorem not_compositeCommands : ¬ Obligations.CompositeCommands := by
  unfold Obligations.CompositeCommands
  rintro ⟨-, -, -, -, -, -, -, -, -, -, -, -, -, -, -, -, -, -, -, -, -, -, -, -, -, -, -, -, disagreementEnds, -⟩
  obtain ⟨t, ht, ⟨ended, -⟩, -⟩ := disagreementEnds arqcRuns 4 arqcCommand 3 secondHalfFault {} none rfl rfl (by decide) rfl
    (by rw [← arqcSequence, arqcSequence_step]; rfl)
    (by rw [← arqcSequence, arqcSequence_step, Option.any_some, arqcRuns_prim, arqcRuns_chk]; exact secondHalfFault_disagrees)
    arqcRuns_deliverable
  have answer : compStep arqcRuns (4 : CtxNo) secondHalfFault {} none = t := Host.Outcome.next.inj ht
  rw [← answer, arqcRuns_goesOn] at ended
  exact Option.some_ne_none _ ended

end Sys2Proof.Machine
end

section
/-! CLAIM. The Arcade opcodes begin (R249, R251, R255, R258, R261, R270): one function starts them all, told the opcode and, for a FREE
function, its class and its number. -/
namespace Sys2Proof.Machine
open Sys2Proof

/-- The descriptor asks for this opcode, and for a FREE function for this class and number. -/
def isForm (op : Nat) : Option (Nat × Nat) → Ctx → Bool
  | none, x => x.d.opcode == op
  | some (mode, f), x => x.d.opcode == op && x.d.mode == mode && arcFunc x.d == f

/-- A command of this form is placed, no stop has reached it, and its source and its draw are there. -/
def canBegin (s : State) (c op : Nat) (fn : Option (Nat × Nat)) (x : Ctx) : Bool :=
  isForm op fn x && decide (x.phase = .placed) && decide (srcNeed x ≤ x.srcIn.length) && x.stop.isNone
    && (!needsFountain x.d || (drawn s c).isSome)

/-- The engine is an Arcade unit. -/
def onArcade : Engine → Bool
  | .arcade _ => true
  | _ => false

/-- The operand memory of unit n is loaded, and the command runs. -/
def arcBegun (s : State) (c n : Nat) (x : Ctx) : State :=
  setCtx { setAunit s n { aunit s n with mem := loadedMem s c x (aunit s n).mem } with free := s.free + 1 } c
    { x with phase := .running }

/-- What the statement says of the state t that the begin of x on unit n leaves. -/
def BegunIn (s : State) (c n : Nat) (x : Ctx) (t : State) : Prop :=
  ctxAt t c = some { x with phase := .running } ∧
    aunit t n = { aunit s n with mem := loadedMem s c x (aunit s n).mem } ∧ t.mews = s.mews ∧ t.out = s.out ∧
    t = { s with free := t.free, quay := { s.quay with ctxs := t.quay.ctxs }, units := { s.units with arc := t.units.arc } }

theorem begunIn_arcBegun (s : State) (c n : Nat) (x : Ctx) : BegunIn s c n x (arcBegun s c n x) :=
  ⟨ctxAt_setCtx_same .., tget_tset_same _ _ _ _, rfl, rfl, rfl⟩

section
variable {s : State} {c op : Nat} {fn : Option (Nat × Nat)} {x : Ctx}

/-- What arcStart tests before it turns to the unit is that the command cannot begin. -/
theorem arcStart_eq (hx : ctxAt s c = some x) :
    arcStart s c op fn = if (!canBegin s c op fn x) = true then s else match x.eng with
      | some (.arcade n) => arcBegun s c n.val x
      | _ => s := by
  unfold arcStart
  rw [hx]
  refine ite_congr (congrArg (· = true) ?_) (fun _ => rfl) fun _ => rfl
  cases fn <;>
    simp only [canBegin, isForm, Bool.beq_eq_decide_eq, ne_eq, decide_not, ← Nat.not_le, Option.not_isSome, Option.not_isNone,
      Bool.not_and, Bool.not_or, Bool.not_not, Bool.not_true, Bool.or_false, Bool.or_assoc]

theorem arcStart_of_not_canBegin (hx : ctxAt s c = some x) (h : canBegin s c op fn x = false) : arcStart s c op fn = s := by
  rw [arcStart_eq hx, h]
  rfl

theorem arcStart_of_canBegin (hx : ctxAt s c = some x) (h : canBegin s c op fn x = true) :
    arcStart s c op fn = match x.eng with
      | some (.arcade n) => arcBegun s c n.val x
      | _ => s := by
  rw [arcStart_eq hx, h]
  rfl

/-- A command of the form on its unit begins there. -/
theorem arcStart_begins {n : ArcNo} (hx : ctxAt s c = some x) (h : canBegin s c op fn x = true) (he : x.eng = some (.arcade n)) :
    BegunIn s c n.val x (arcStart s c op fn) := by
  rw [arcStart_of_canBegin hx h, he]
  exact begunIn_arcBegun s c n.val x

/-- Where no command of the form can begin on a unit, nothing happens. -/
theorem arcStart_idle (h : (ctxAt s c).any (fun x => canBegin s c op fn x && x.eng.any onArcade) = false) :
    arcStart s c op fn = s := by
  rcases hx : ctxAt s c with _ | x
  · simp only [arcStart, hx]
  · rw [hx, Option.any_some, Bool.and_eq_false_iff] at h
    rcases h with h | offUnit
    · exact arcStart_of_not_canBegin hx h
    · rcases Bool.eq_false_or_eq_true (canBegin s c op fn x) with h | h
      · rw [arcStart_of_canBegin hx h]
        split
        · next n he => exact absurd (he ▸ offUnit) (by simp [onArcade])
        · rfl
      · exact arcStart_of_not_canBegin hx h
end

section
variable {i : CtxNo → Instr} {op mode f : Nat}

/-- An instruction that starts commands of a form answers so where one can begin. -/
theorem answers_begins {fn : Option (Nat × Nat)} (hi : ∀ c s, exec (i c) s = .next (arcStart s c.val op fn)) {s : State} {c : CtxNo}
    {x : Ctx} {n : ArcNo} (hx : ctxAt s c.val = some x) (form : isForm op fn x = true) (he : x.eng = some (.arcade n))
    (placed : x.phase = .placed) (source : srcNeed x ≤ x.srcIn.length) (stop : x.stop = none)
    (draw : needsFountain x.d = true → (drawn s c.val).isSome = true) : Answers (i c) s (BegunIn s c.val n.val x) := by
  refine ⟨_, hi c s, arcStart_begins hx ?_ he⟩
  rcases hd : needsFountain x.d
  · simp [canBegin, form, placed, source, stop, hd]
  · simp [canBegin, form, placed, source, stop, draw hd]

/-! ## The clauses: an opcode, and a FREE function -/

theorem opcode_idle (hi : ∀ c s, exec (i c) s = .next (arcStart s c.val op none)) (s : State) (c : CtxNo)
    (h : (ctxAt s c.val).any (fun x => canBegin s c.val op none x && x.eng.any onArcade) = false) : Answers (i c) s fun t => t = s :=
  ⟨_, hi c s, arcStart_idle h⟩

theorem free_idle (hi : ∀ c s, exec (i c) s = .next (arcStart s c.val op (some (mode, f)))) (s : State) (c : CtxNo)
    (h : (ctxAt s c.val).any (fun x => canBegin s c.val op (some (mode, f)) x && x.eng.any onArcade) = false) :
    Answers (i c) s fun t => t = s :=
  ⟨_, hi c s, arcStart_idle h⟩

theorem opcode_draws (hi : ∀ c s, exec (i c) s = .next (arcStart s c.val op none)) (s : State) (c : CtxNo) (x : Ctx) (n : ArcNo)
    (hx : ctxAt s c.val = some x) (hop : x.d.opcode = op) (he : x.eng = some (.arcade n)) (placed : x.phase = .placed)
    (source : srcNeed x ≤ x.srcIn.length) (stop : x.stop = none) (_ : needsFountain x.d = true)
    (draw : (drawn s c.val).isSome = true) : Answers (i c) s (BegunIn s c.val n.val x) :=
  answers_begins hi hx (by simp [isForm, hop]) he placed source stop fun _ => draw

theorem free_draws (hi : ∀ c s, exec (i c) s = .next (arcStart s c.val op (some (mode, f)))) (s : State) (c : CtxNo) (x : Ctx)
    (n : ArcNo) (hx : ctxAt s c.val = some x) (hop : x.d.opcode = op) (hm : x.d.mode = mode) (hf : arcFunc x.d = f)
    (he : x.eng = some (.arcade n)) (placed : x.phase = .placed) (source : srcNeed x ≤ x.srcIn.length) (stop : x.stop = none)
    (_ : needsFountain x.d = true) (draw : (drawn s c.val).isSome = true) : Answers (i c) s (BegunIn s c.val n.val x) :=
  answers_begins hi hx (by simp [isForm, hop, hm, hf]) he placed source stop fun _ => draw

/-- PK_VERIFY has no draw to wait for. -/
theorem pkVerify_begins (s : State) (c : CtxNo) (x : Ctx) (n : ArcNo) (hx : ctxAt s c.val = some x) (hop : x.d.opcode = 0x51)
    (he : x.eng = some (.arcade n)) (placed : x.phase = .placed) (source : srcNeed x ≤ x.srcIn.length) (stop : x.stop = none) :
    Answers (.pkVerify c) s (BegunIn s c.val n.val x) :=
  answers_begins (fun _ _ => rfl) hx (fn := none) (by simp [isForm, hop]) he placed source stop fun hd => by
    simp [needsFountain, isPinOp, hop] at hd

/-- Nor has a FREE function, but for the curve functions PT_MUL, PT_MULG and CURVE_LOAD. -/
theorem free_begins (hi : ∀ c s, exec (i c) s = .next (arcStart s c.val 0x58 (some (mode, f))))
    (noDraw : ¬(mode = 2 ∧ f ∈ [0x13, 0x14, 0x16])) (s : State) (c : CtxNo) (x : Ctx) (n : ArcNo) (hx : ctxAt s c.val = some x)
    (hop : x.d.opcode = 0x58) (hm : x.d.mode = mode) (hf : arcFunc x.d = f) (he : x.eng = some (.arcade n))
    (placed : x.phase = .placed) (source : srcNeed x ≤ x.srcIn.length) (stop : x.stop = none) :
    Answers (i c) s (BegunIn s c.val n.val x) :=
  answers_begins hi hx (by simp [isForm, hop, hm, hf]) he placed source stop fun hd => by
    subst hm hf
    exact absurd (by simpa [needsFountain, isPinOp, arcFunc, hop] using hd) noDraw
end

/-- Settles O21: each form is a call of arcStart, which begins a command of the form that can begin and leaves any other alone. -/
theorem arcadeOpcodes : Obligations.ArcadeOpcodes := by
  unfold Obligations.ArcadeOpcodes
  refine ⟨?pkSign, ?pkSignNot, ?pkVerify, ?pkVerifyNot, ?pkKeypair, ?pkKeypairNot, ?pkAgree, ?pkAgreeNot, ?kemEncap, ?kemEncapNot,
    ?kemDecap, ?kemDecapNot, ?pkEncrypt, ?pkEncryptNot, ?pkDecrypt, ?pkDecryptNot, ?modAdd, ?modAddNot, ?modSub, ?modSubNot,
    ?modMul, ?modMulNot, ?modInv, ?modInvNot, ?modExp, ?modExpNot, ?ptAdd, ?ptAddNot, ?ptDbl, ?ptDblNot, ?ptMul, ?ptMulNot,
    ?ptMulG, ?ptMulGNot, ?ptCheck, ?ptCheckNot, ?curveLoad, ?curveLoadNot, ?curveFree, ?curveFreeNot, ?ntt, ?nttNot, ?intt,
    ?inttNot, ?pmul, ?pmulNot, ?padd, ?paddNot, ?psub, ?psubNot⟩
  case pkSign | pkKeypair | pkAgree | kemEncap | kemDecap | pkEncrypt | pkDecrypt =>
    exact opcode_draws fun _ _ => rfl
  case pkVerify => exact pkVerify_begins
  case ptMul | ptMulG | curveLoad => exact free_draws fun _ _ => rfl
  case modAdd | modSub | modMul | modInv | modExp | ptAdd | ptDbl | ptCheck | curveFree | ntt | intt | pmul | padd | psub =>
    exact free_begins (fun _ _ => rfl) (by decide)
  case pkSignNot | pkVerifyNot | pkKeypairNot | pkAgreeNot | kemEncapNot | kemDecapNot | pkEncryptNot | pkDecryptNot =>
    exact opcode_idle fun _ _ => rfl
  case modAddNot | modSubNot | modMulNot | modInvNot | modExpNot | ptAddNot | ptDblNot | ptMulNot | ptMulGNot | ptCheckNot |
      curveLoadNot | curveFreeNot | nttNot | inttNot | pmulNot | paddNot | psubNot =>
    exact free_idle fun _ _ => rfl

end Sys2Proof.Machine
end

section
/-! CLAIM. The commands of the pairing register and of the fleet (R276, R294, R448 to R450, R453, R457 to R459, R462 to R469), both refuted
by a command that waits for its draw while an autoload has still to follow on the INIT of a card that is READY. DRBG_GENERATE tries all
that waits again, and after the command the loader, which begins to read the boot image (R485, R528). As for a link-up, the device begins
that load within the step that ends the INIT; the statements exclude a load before and after the command but none that is to follow, so
what their clauses of DRBG_GENERATE lack is the hypothesis NoCardLoad. -/
namespace Sys2Proof.Machine
open Sys2Proof

/-- A generate request whose step begins a load leaves no state in which none runs. -/
theorem not_answers_of_load {s u : State} {hit : Option Hit} (begun : (resumeAll (drbgGenerate s false hit)).load.isSome = true)
    (hu : u.load = none) : ¬ Answers (.drbgGenerate ⟨false, hit⟩) s fun t => t = u := by
  rintro ⟨t, ht, rfl⟩
  rw [Host.Outcome.next.inj ht, hu] at begun
  exact Bool.false_ne_true begun

/-- DEPLOYED and READY at the stage AUTOLOAD, with a card READY; an internal operation holds Arcade unit 0, and its draw is on the wires of
a Fountain whose expander does not serve yet. -/
def drawWaitsAtAutoload (who : Nat) : State :=
  { linkWaitsAtAutoload with units := { arc := [(0, { internal := some who })] }, fnt := { draws := [(9, who)] }, xing := {} }

/-- There, PREPARE and FOUND each wait for the draw. -/
def prepareWaitsAtAutoload : State := { drawWaitsAtAutoload whoXing with xing := { held := some .prepare } }
def foundWaitsAtAutoload : State := { drawWaitsAtAutoload whoFleet with fleet := { held := some .found } }

/-- The expander serves nothing, so both go on waiting. -/
theorem drbgGenerate_prepareWaits : drbgGenerate prepareWaitsAtAutoload false none = prepareWaitsAtAutoload := rfl
theorem prepareRun_prepareWaits : prepareRun prepareWaitsAtAutoload = prepareWaitsAtAutoload := rfl
theorem drbgGenerate_foundWaits : drbgGenerate foundWaitsAtAutoload false none = foundWaitsAtAutoload := rfl
theorem foundRun_foundWaits : foundRun foundWaitsAtAutoload = foundWaitsAtAutoload := rfl

/-- The loader begins to read the boot image behind either. -/
theorem load_begins_behind_prepare : (resumeAll (drbgGenerate prepareWaitsAtAutoload false none)).load.isSome = true := by decide
theorem load_begins_behind_found : (resumeAll (drbgGenerate foundWaitsAtAutoload false none)).load.isSome = true := by decide

/-- Refutes O49: at `prepareWaitsAtAutoload` a generate request leaves more changed than PREPARE. -/
theorem not_pairingCommands : ¬ Obligations.PairingCommands := by
  unfold Obligations.PairingCommands
  rintro ⟨-, -, -, -, -, -, -, -, -, -, -, -, prepareGoesOn, -⟩
  have prepareAlone := prepareGoesOn prepareWaitsAtAutoload prepareWaitsAtAutoload none drbgGenerate_prepareWaits.symm rfl rfl rfl rfl rfl
    (by rw [prepareRun_prepareWaits]; exact ⟨rfl, rfl, rfl, rfl⟩)
  exact not_answers_of_load load_begins_behind_prepare rfl prepareAlone

/-- Refutes O51: at `foundWaitsAtAutoload` a generate request leaves more changed than FOUND. -/
theorem not_fleetEffects : ¬ Obligations.FleetEffects := by
  unfold Obligations.FleetEffects
  intro h
  iterate 50 replace h := h.2
  obtain ⟨foundGoesOn, -⟩ := h
  have foundAlone := foundGoesOn foundWaitsAtAutoload foundWaitsAtAutoload none drbgGenerate_foundWaits.symm rfl rfl
    (by rw [foundRun_foundWaits]; exact ⟨rfl, rfl, rfl⟩)
  exact not_answers_of_load load_begins_behind_found rfl foundAlone

end Sys2Proof.Machine
end

section
/-! SUPPORT. What a counted fault and the end of commands do to the Fountain (R286, R292, R295, R551): the end of commands changes who
waits for it, and nothing else of it. -/
namespace Sys2Proof.Machine
open Sys2Proof

/-! ## A counted fault -/

/-- The Fountain is in FAILED, both halves of its expander and its conditioner zeroised (R286). -/
structure Failed (s : State) : Prop where
  state : s.fnt.state = 5
  int : s.fnt.int = {}
  sw : s.fnt.sw = {}
  absorbed : s.fnt.absorbed = []

theorem failed_fountainFail (s : State) : Failed (fountainFail s) := by
  constructor <;> simp only [fountainFail, kreport_fnt, raiseInt_fnt]

/-- A counted fault leaves the Fountain, but that the Fountain's own page may become lasting by it: then it has FAILED. -/
theorem countFault_fnt (s : State) (p : Nat) : (countFault s p).fnt = s.fnt ∨ p = 0x2C ∧ Failed (countFault s p) := by
  have windows (t : State) (w : List Nat) : ({ t with wins := w } : State).fnt = t.fnt := rfl
  unfold countFault
  dsimp only
  split
  · exact .inl rfl
  · split
    · exact .inl (by rw [kreport_fnt, bump_fnt])
    · split
      · split
        · next h => exact .inr ⟨h, failed_fountainFail _⟩
        · exact .inl (by rw [kreport_fnt, raiseInt_fnt, windows, setFld_fnt, bump_fnt])
      · split
        · exact .inl (by rw [windows, kreport_fnt, bump_fnt])
        · exact .inl (by rw [kreport_fnt, bump_fnt])

theorem countFault_fnt_of_ne (s : State) {p : Nat} (h : p ≠ 0x2C) : (countFault s p).fnt = s.fnt :=
  (countFault_fnt s p).resolve_right fun g => h g.1

/-! ## Operations that leave the whole Fountain -/

@[simp] theorem hostWrite_fnt (s : State) (f a : Nat) (b : Bytes) (ro : Bool) : (hostWrite s f a b ro).fnt = s.fnt := by
  unfold hostWrite
  split <;> rfl

@[simp] theorem redistribute_fnt (n : Nat) : ∀ s, (redistribute n s).fnt = s.fnt := by
  induction n with
  | zero => exact fun _ => rfl
  | succ n ih =>
    intro s
    unfold redistribute
    split
    · rfl
    · dsimp only
      split
      · rfl
      · exact ih _

@[simp] theorem releaseCtx_fnt (s : State) (c dom : Nat) : (releaseCtx s c dom).fnt = s.fnt := by
  unfold releaseCtx
  dsimp only
  split
  · rfl
  · exact redistribute_fnt 1 _

@[simp] theorem shareOut_fnt (s : State) : (shareOut s).fnt = s.fnt := by
  have top (n : Nat) (v : CUnit) (b : Bool) (t : State) : (if b = true then setCunit t n v else t).fnt = t.fnt := by
    cases b <;> rfl
  unfold shareOut
  exact (top ..).trans (top ..)

@[simp] theorem freeUnit_fnt (s : State) (e : Engine) : (freeUnit s e).fnt = s.fnt := by
  cases e with
  | cipher n => exact shareOut_fnt _
  | hash n => rfl
  | arcade n => rfl
  | composite n => rfl

theorem foldl_fnt {α : Type} {f : State → α → State} (hf : ∀ s a, (f s a).fnt = s.fnt) (l : List α) :
    ∀ s, (l.foldl f s).fnt = s.fnt := by
  induction l with
  | nil => exact fun _ => rfl
  | cons a l ih => exact fun s => (ih _).trans (hf s a)

@[simp] theorem coalesce_fnt (s : State) (q : Nat) : (coalesce s q).fnt = s.fnt := by
  unfold coalesce
  dsimp only
  split
  · exact sendMsix_fnt ..
  · rfl

/-- A completion delivered: of the pages' faults it may count only the Quay's. -/
@[simp] theorem deliver_fnt (s : State) (q tag : Nat) (body bodyS : Bytes) (status detail : Nat) (silent : Bool) :
    (deliver s q tag body bodyS status detail silent).fnt = s.fnt := by
  have hits : (if status = 0x0D then bump s Reg.QUAY_RPL_HITS 31 0 1 else s).fnt = s.fnt := by
    split
    · exact bump_fnt ..
    · rfl
  have keep (u : State) (b : Bytes) : (if status = 0x0D then u else storeReplay u q tag b).fnt = u.fnt := by split <;> rfl
  unfold deliver
  dsimp only
  split
  · rw [keep, hits]
  · split
    · rw [errSynd_fnt, countFault_fnt_of_ne _ (by decide), keep, hits]
    · rw [coalesce_fnt, keep, setQueue_fnt, hostWrite_fnt, hits]

@[simp] theorem drained_fnt (s : State) (q : Nat) : (drained s q).fnt = s.fnt := by
  unfold drained
  dsimp only
  split
  · exact raiseInt_fnt ..
  · rfl

@[simp] theorem unpark_fnt (body : Bytes) (status : Nat) (l : List (Nat × Ctx)) : ∀ s, (unpark s body status l).fnt = s.fnt := by
  induction l with
  | nil => exact fun _ => rfl
  | cons e l ih => exact fun s => (ih _).trans (by simp)

@[simp] theorem compCounts_fnt (s : State) (op : Nat) (f : CmdEnd) : (compCounts s op f).fnt = s.fnt := by
  unfold compCounts
  split
  · rfl
  · dsimp only
    split
    · split
      · rw [countFault_fnt_of_ne _ (by decide), raiseInt_fnt, bump_fnt, bump_fnt]
      · rw [raiseInt_fnt, bump_fnt, bump_fnt]
    · split
      · rw [bump_fnt, bump_fnt]
      · rw [bump_fnt]

@[simp] theorem mirror_fnt (s : State) (kind : Nat) (body : Bytes) (w : MirrorWait) : (mirror s kind body w).fnt = s.fnt := by
  have piece (u : State) (p : Bytes × Nat) : (sendPiece kind u p).fnt = u.fnt := by
    unfold sendPiece
    split <;> rfl
  exact foldl_fnt piece _ s

@[simp] theorem setLaunch_fnt (s : State) (c tick : Nat) (late convoy : Bool) : (setLaunch s c tick late convoy).fnt = s.fnt := by
  unfold setLaunch
  split
  · rfl
  · dsimp only
    split
    · rw [setCtx_fnt, raiseInt_fnt, bump_fnt]
    · rfl

/-! ## Operations that change its takers -/

/-- Of the Fountain, at most the draws and the takers of the software port differ. -/
def TakersOnly (s t : State) : Prop :=
  t.fnt = { s.fnt with
    draws := t.fnt.draws, part := t.fnt.part, got := t.fnt.got
    rng := t.fnt.rng, rngDone := t.fnt.rngDone, rngDead := t.fnt.rngDead }

namespace TakersOnly
variable {s t u : State}

theorem of_fnt_eq (h : t.fnt = s.fnt) : TakersOnly s t := by
  unfold TakersOnly
  rw [h]

theorem trans (h : TakersOnly s t) (g : TakersOnly t u) : TakersOnly s u := by
  unfold TakersOnly at *
  rw [g, h]

theorem then_eq (h : TakersOnly s t) (g : u.fnt = t.fnt) : TakersOnly s u := h.trans (of_fnt_eq g)

theorem state_eq (h : TakersOnly s t) : t.fnt.state = s.fnt.state := by rw [h]
theorem int_eq (h : TakersOnly s t) : t.fnt.int = s.fnt.int := by rw [h]

theorem fntForget (s : State) (c : Nat) : TakersOnly s (fntForget s c) := rfl

theorem endNow (s : State) (c : Nat) (f : CmdEnd) : TakersOnly s (endNow s c f) := by
  unfold Machine.endNow
  split
  · exact of_fnt_eq rfl
  · next x _ =>
    have share (b : Bool) (u : State) : (if b = true then shareOut u else u).fnt = u.fnt := by
      cases b
      · rfl
      · exact shareOut_fnt u
    exact (((((((of_fnt_eq (compCounts_fnt ..)).then_eq (deliver_fnt ..)).then_eq (foldl_fnt freeUnit_fnt _ _)).trans
      (fntForget _ c)).then_eq (releaseCtx_fnt ..)).then_eq (drained_fnt ..)).then_eq (share ..)).then_eq (unpark_fnt ..)

theorem waitMirror (s : State) (c kind : Nat) (body : Bytes) (w : MirrorWait) : TakersOnly s (waitMirror s c kind body w) := by
  unfold Machine.waitMirror
  split
  · exact of_fnt_eq rfl
  · refine (fntForget s c).then_eq ?_
    rw [mirror_fnt, setCtx_fnt, foldl_fnt freeUnit_fnt]

theorem endCmd (s : State) (c : Nat) (f : CmdEnd) : TakersOnly s (endCmd s c f) := by
  unfold Machine.endCmd
  split
  · exact of_fnt_eq rfl
  · split
    · exact waitMirror ..
    · exact endNow ..

theorem testEpoch (s : State) (c : Nat) : TakersOnly s (testEpoch s c) := by
  unfold Machine.testEpoch
  split
  · exact of_fnt_eq rfl
  · split
    · exact of_fnt_eq rfl
    · split
      · exact endCmd ..
      · exact of_fnt_eq rfl

theorem releaseLate (n : Nat) : ∀ s, TakersOnly s (releaseLate n s) := by
  induction n with
  | zero => exact fun _ => of_fnt_eq rfl
  | succ n ih =>
    intro s
    unfold Machine.releaseLate
    split
    · exact of_fnt_eq rfl
    · exact ((of_fnt_eq (setLaunch_fnt ..)).trans (testEpoch ..)).trans (ih _)

theorem finishS (s : State) (c status detail bytes : Nat) : TakersOnly s (finishS s c status detail bytes) :=
  (endCmd s c _).trans (releaseLate _ _)

theorem foldl {α : Type} {f : State → α → State} (hf : ∀ s a, TakersOnly s (f s a)) (l : List α) :
    ∀ s, TakersOnly s (l.foldl f s) := by
  induction l with
  | nil => exact fun _ => of_fnt_eq rfl
  | cons a l ih => exact fun s => (hf s a).trans (ih _)

end TakersOnly

/-! ## The commands that met FAILED -/

/-- The end of one such command (R295). -/
theorem endDead_eq_foldl (s : State) : ∃ f : State → Nat → State, endDead s = s.fnt.rngDead.foldl f s ∧
    ∀ u c, f u c = u ∨ ∃ n, f u c = finishS u c 0x07 0x00 n := by
  refine ⟨_, rfl, fun u c => ?_⟩
  split
  · exact .inl rfl
  · split
    · exact .inr ⟨_, rfl⟩
    · exact .inl rfl

theorem takersOnly_endDead (s : State) : TakersOnly s (endDead s) := by
  obtain ⟨f, h, hf⟩ := endDead_eq_foldl s
  rw [h]
  refine TakersOnly.foldl (fun u c => ?_) _ s
  obtain h | ⟨n, h⟩ := hf u c <;> rw [h]
  · exact .of_fnt_eq rfl
  · exact .finishS ..

theorem cmdChanges_endDead (s : State) : CmdChanges s (endDead s) := by
  obtain ⟨f, h, hf⟩ := endDead_eq_foldl s
  rw [h]
  refine CmdChanges.foldl (fun u c => ?_) _ s
  obtain h | ⟨n, h⟩ := hf u c <;> rw [h]
  · exact .refl u
  · exact (CmdChanges.refl u).finishS ..

end Sys2Proof.Machine
end

section
/-! SUPPORT and CLAIM. Noise samples, start-up and the known-answer test of the Fountain (R280, R283 to R286, R297, R298, R301). -/
namespace Sys2Proof.Machine
open Sys2Proof

/-- Noise samples may change what the end of commands may (those that met FAILED), and the Fountain's samples. -/
def noiseFoot : Footprint where
  put s t := { cmdFoot.put s t with
    fnt := { (cmdFoot.put s t).fnt with
      tries := t.fnt.tries, streams := t.fnt.streams, passed := t.fnt.passed, noCredit := t.fnt.noCredit
      swTurn := t.fnt.swTurn, raw := t.fnt.raw } }

/-- The known-answer test may too, and its own results. -/
def katFoot : Footprint where
  put s t := { cmdFoot.put s t with
    fnt := { (cmdFoot.put s t).fnt with
      tries := t.fnt.tries, katOk := t.fnt.katOk, passed := t.fnt.passed, katPass := t.fnt.katPass } }

theorem cmd_within_noise : cmdFoot.Within noiseFoot := fun _ _ => rfl
theorem fault_within_noise : faultFoot.Within noiseFoot := fun _ _ => rfl
theorem event_within_noise : eventFoot.Within noiseFoot := fun _ _ => rfl
theorem reg_within_noise : regFoot.Within noiseFoot := fun _ _ => rfl
theorem cmd_within_kat : cmdFoot.Within katFoot := fun _ _ => rfl
theorem fault_within_kat : faultFoot.Within katFoot := fun _ _ => rfl
theorem event_within_kat : eventFoot.Within katFoot := fun _ _ => rfl

/-- The registers that the known-answer test may write. -/
abbrev katRegs : Nat → Prop :=
  Named [Reg.QUAY_RPL_HITS, Reg.RBT_LATE, Reg.COMP_AUTH_FAIL, Reg.COMP_DONE]
    [Reg.PAGE_STAT, Reg.INT_STAT, Reg.ERR_SYND, Reg.ERR_ADDR, Reg.FAULT_CNT, Reg.QUAY_LINK_STAT] []

/-- The registers that noise samples may write. -/
abbrev noiseRegs : Nat → Prop :=
  Named [Reg.QUAY_RPL_HITS, Reg.RBT_LATE, Reg.COMP_AUTH_FAIL, Reg.COMP_DONE, Reg.FNT_HEALTH_CNT, Reg.FNT_SEEDS]
    [Reg.PAGE_STAT, Reg.INT_STAT, Reg.ERR_SYND, Reg.ERR_ADDR, Reg.FAULT_CNT, Reg.QUAY_LINK_STAT] []

/-- The registers that a counted and recorded fault writes. -/
abbrev faultErrRegs : Nat → Prop := Named [] [Reg.PAGE_STAT, Reg.INT_STAT, Reg.ERR_SYND, Reg.ERR_ADDR, Reg.FAULT_CNT] []

/-! ## FAILED -/

/-- A fault of the Fountain that ends in FAILED: recorded and counted, and FAILED entered where the count has not done so (R286). -/
def fountainFault (s : State) (code info : Nat) : State :=
  let s := countFault (errSynd s 0x2C code 0x20 info 0) 0x2C
  if s.fnt.state = 5 then s else fountainFail s

theorem failed_fountainFault {s : State} (h : s.fnt.state ≠ 5) (code info : Nat) : Failed (fountainFault s code info) := by
  unfold fountainFault
  dsimp only
  split
  · next h5 =>
    refine (countFault_fnt _ 0x2C).elim (fun e => absurd ?_ h) And.right
    rwa [e, errSynd_fnt] at h5
  · exact failed_fountainFail _

theorem changes_fountainFault (s : State) (code info : Nat) : Changes faultFoot faultErrRegs s (fountainFault s code info) := by
  have fault {t u : State} (h : Changes faultFoot faultRegs t u) : Changes faultFoot faultErrRegs t u :=
    h.more (Named.mono (by decide) (by decide) (by decide))
  have counted := ((changes_errSynd s 0x2C code 0x20 info 0).mono event_within_fault
    (Named.mono (by decide) (by decide) (by decide))).trans (fault (changes_countFault _ 0x2C))
  unfold fountainFault
  dsimp only
  split
  · exact counted
  · exact counted.trans (fault (changes_fountainFail _))

/-! ## Start-up -/

theorem startupTest_eq (s : State) :
    ∃ st tr pa, startupTest s = setFnt s { s.fnt with state := st, tries := tr, passed := pa } := by
  unfold startupTest
  split
  · exact ⟨_, _, _, rfl⟩
  · exact ⟨s.fnt.state, s.fnt.tries, s.fnt.passed, rfl⟩

theorem settleEnd_tested {s : State} (hb : s.fnt.begun = true) (h1 : s.fnt.state = 1) (h2 : s.fnt.settled = false)
    (hk : s.fnt.katOk = true) :
    settleEnd s = setFnt s { s.fnt with settled := true, state := 2, tries := s.fnt.tries + 1, passed := 0 } := by
  simp [settleEnd, startupTest, setFnt, hb, h1, h2, hk]

theorem settleEnd_untested {s : State} (hb : s.fnt.begun = true) (h1 : s.fnt.state = 1) (h2 : s.fnt.settled = false)
    (hk : s.fnt.katOk = false) : settleEnd s = setFnt s { s.fnt with settled := true } := by
  simp [settleEnd, startupTest, setFnt, hb, h1, h2, hk]

theorem settleEnd_not_due {s : State} (h : s.fnt.begun = false ∨ s.fnt.state ≠ 1 ∨ s.fnt.settled = true) : settleEnd s = s := by
  rcases h with h | h | h <;> simp [settleEnd, h]

theorem startupTimeout_due {s : State} (hb : s.fnt.begun = true) (h4 : s.fnt.state < 4) (hi : s.fnt.int.on = false) :
    startupTimeout s = fountainFault s 0x12 s.fnt.tries := by
  simp [startupTimeout, fountainFault, hb, h4, hi]

theorem startupTimeout_not_due {s : State} (h : s.fnt.begun = false ∨ 4 ≤ s.fnt.state ∨ s.fnt.int.on = true) :
    startupTimeout s = s := by
  rcases h with h | h | h
  · simp [startupTimeout, h]
  · simp [startupTimeout, Nat.not_lt_of_le h]
  · simp [startupTimeout, h]

/-! ## The known-answer test -/

/-- The test is over: FNT_KAT and its event say so (R301). -/
def katEnded (s : State) (pass : Bool) : State :=
  raiseInt (setFnt s { s.fnt with katBusy := false, katPass := pass }) 0x2C 32

theorem fntKatDone_idle {s : State} (h : s.fnt.katBusy = false) (ok : Bool) : fntKatDone s ok = s := by
  simp [fntKatDone, h]

theorem katEnded_fnt (s : State) (pass : Bool) : (katEnded s pass).fnt = { s.fnt with katBusy := false, katPass := pass } := by
  unfold katEnded
  rw [raiseInt_fnt, setFnt_fnt]

/-- A test that passes lets start-up go on to its own test (R297, R301). -/
theorem fntKatDone_passed {s : State} (h : s.fnt.katBusy = true) : ∃ st tr ok pa, fntKatDone s true =
    setFnt (katEnded s true) { (katEnded s true).fnt with state := st, tries := tr, katOk := ok, passed := pa } := by
  have answer : fntKatDone s true = if (katEnded s true).fnt.state = 1
      then startupTest (setFnt (katEnded s true) { (katEnded s true).fnt with katOk := true }) else katEnded s true := by
    simp [fntKatDone, h, katEnded]
  rw [answer]
  split
  · obtain ⟨st, tr, pa, e⟩ := startupTest_eq (setFnt (katEnded s true) { (katEnded s true).fnt with katOk := true })
    exact ⟨st, tr, true, pa, e⟩
  · exact ⟨_, _, _, _, rfl⟩

theorem fntKatDone_failed {s : State} (h : s.fnt.katBusy = true) :
    fntKatDone s false = endDead (fountainFault (katEnded s false) 0x11 0) := by
  unfold fntKatDone
  rw [h]
  rfl

theorem changes_katEnded (s : State) (pass : Bool) : Changes katFoot katRegs s (katEnded s pass) := by
  refine Changes.trans (t := setFnt s { s.fnt with katBusy := false, katPass := pass }) ⟨rfl, fun _ _ => rfl⟩ ?_
  exact (changes_raiseInt _ 0x2C 32).mono event_within_kat (Named.mono (by decide) (by decide) (by decide))

theorem changes_endDead {F : Footprint} (hF : cmdFoot.Within F) {keys offs pages : List Nat} (s : State)
    (hk : [Reg.QUAY_RPL_HITS, Reg.RBT_LATE, Reg.COMP_AUTH_FAIL, Reg.COMP_DONE] ⊆ keys)
    (ho : [Reg.PAGE_STAT, Reg.INT_STAT, Reg.ERR_SYND, Reg.ERR_ADDR, Reg.FAULT_CNT, Reg.QUAY_LINK_STAT] ⊆ offs) :
    Changes F (Named keys offs pages) s (endDead s) :=
  (cmdChanges_endDead s).changes.mono hF fun _ h => named_of_cmdRegs h hk ho

/-! ## Samples tested -/

/-- How many samples of stream i have been tested, and the last of them. -/
def sampled (s : State) (i : Nat) : Nat × Bool := ((s.fnt.streams.getD i {}).tested, (s.fnt.streams.getD i {}).last)

theorem sampled_eq {s t : State} (h : t.fnt.streams = s.fnt.streams) (i : Nat) : sampled t i = sampled s i := by
  unfold sampled
  rw [h]

section
variable {s t : State} {i j : Nat} {f : FStream}

theorem sampled_set_same (h : t.fnt.streams = s.fnt.streams.set i f) (hi : i < s.fnt.streams.length) :
    sampled t i = (f.tested, f.last) := by
  unfold sampled
  rw [h, List.getD_eq_getElem?_getD, List.getElem?_set_self hi]
  rfl

theorem sampled_set_ne (h : t.fnt.streams = s.fnt.streams.set i f) (hij : i ≠ j) : sampled t j = sampled s j := by
  unfold sampled
  rw [h, List.getD_eq_getElem?_getD, List.getElem?_set_ne hij, ← List.getD_eq_getElem?_getD]

/-- A stream replaced by one of which as much has been tested. -/
theorem sampled_set (h : t.fnt.streams = s.fnt.streams.set i f) (hf : (f.tested, f.last) = sampled s i) (j : Nat) :
    sampled t j = sampled s j := by
  by_cases hij : i = j
  · subst hij
    by_cases hi : i < s.fnt.streams.length
    · rw [sampled_set_same h hi, hf]
    · exact sampled_eq (h.trans (List.set_eq_of_length_le (Nat.le_of_not_lt hi))) i
  · exact sampled_set_ne h hij
end

theorem streams_countFault (s : State) (p : Nat) : (countFault s p).fnt.streams = s.fnt.streams :=
  (changes_countFault s p).kept (·.fnt.streams) fun _ _ => rfl

/-- A health-test failure counted, announced and recorded (R284, R285). -/
def failureCounted (s : State) (apt : Bool) (cell count : Nat) : State :=
  countFault (errSynd (raiseInt (bump s Reg.FNT_HEALTH_CNT (if apt then 31 else 15) (if apt then 16 else 0) 1)
    0x2C (if apt then 2 else 1)) 0x2C 0x10 0x20 (cell + 256 * b2n apt) count) 0x2C

theorem changes_failureCounted (s : State) (apt : Bool) (cell count : Nat) :
    Changes noiseFoot noiseRegs s (failureCounted s apt cell count) :=
  (((changes_bump s _ _ 1 (.inl (by decide))).mono reg_within_noise fun _ => id).trans
    ((changes_raiseInt ..).mono event_within_noise (Named.mono (by decide) (by decide) (by decide)))).trans
    (((changes_errSynd ..).mono event_within_noise (Named.mono (by decide) (by decide) (by decide))).trans
    ((changes_countFault ..).mono fault_within_noise (Named.mono (by decide) (by decide) (by decide))))

theorem streams_failureCounted (s : State) (apt : Bool) (cell count : Nat) :
    (failureCounted s apt cell count).fnt.streams = s.fnt.streams := by
  unfold failureCounted
  rw [streams_countFault, errSynd_fnt, raiseInt_fnt, bump_fnt]

/-- Then the start-up test, or the block being collected, begins anew, unless the Fountain has FAILED (R284, R285). -/
def collectionRestarts (s : State) : State :=
  if s.fnt.state = 5 then s
  else if s.fnt.state = 2 then setFnt s { s.fnt with passed := 0, tries := s.fnt.tries + 1, noCredit := true }
  else setFnt s { s.fnt with absorbed := [], credit := 0, noCredit := true }

theorem healthFail_eq (s : State) (apt : Bool) (cell count : Nat) :
    healthFail s apt cell count = collectionRestarts (failureCounted s apt cell count) := rfl

theorem changes_collectionRestarts (s : State) : Changes noiseFoot noiseRegs s (collectionRestarts s) := by
  unfold collectionRestarts
  split
  · exact .refl ..
  · split <;> exact ⟨rfl, fun _ _ => rfl⟩

theorem streams_collectionRestarts (s : State) : (collectionRestarts s).fnt.streams = s.fnt.streams := by
  unfold collectionRestarts
  split
  · rfl
  · split <;> rfl

theorem changes_healthFail (s : State) (apt : Bool) (cell count : Nat) :
    Changes noiseFoot noiseRegs s (healthFail s apt cell count) := by
  rw [healthFail_eq]
  exact (changes_failureCounted ..).trans (changes_collectionRestarts _)

theorem streams_healthFail (s : State) (apt : Bool) (cell count : Nat) :
    (healthFail s apt cell count).fnt.streams = s.fnt.streams := by
  rw [healthFail_eq, streams_collectionRestarts, streams_failureCounted]

/-- A health-test failure, where the test fails. -/
def healthFailIf (bad apt : Bool) (cell count : Nat) (s : State) : State := if bad then healthFail s apt cell count else s

theorem changes_healthFailIf (bad apt : Bool) (cell count : Nat) (s : State) :
    Changes noiseFoot noiseRegs s (healthFailIf bad apt cell count s) := by
  cases bad
  · exact .refl ..
  · exact changes_healthFail ..

theorem streams_healthFailIf (bad apt : Bool) (cell count : Nat) (s : State) :
    (healthFailIf bad apt cell count s).fnt.streams = s.fnt.streams := by
  cases bad
  · rfl
  · exact streams_healthFail ..

/-- The stream i after its sample b. -/
def testedStream (s : State) (i : Nat) (b : Bool) : FStream × Bool × Bool :=
  testSample (rctCutoff s) (aptCutoff s) (s.fnt.streams.getD i {}) b

/-- One sample is tested: its stream is replaced, and each of the two tests may fail. -/
theorem sampleStream_eq (s : State) (i : Nat) (b : Bool) : ∃ cell n, sampleStream s i b =
    healthFailIf (testedStream s i b).2.2 true cell n (healthFailIf (testedStream s i b).2.1 false cell n
      (setFnt s { s.fnt with streams := s.fnt.streams.set i (testedStream s i b).1 })) :=
  ⟨_, _, rfl⟩

theorem changes_sampleStream (s : State) (i : Nat) (b : Bool) : Changes noiseFoot noiseRegs s (sampleStream s i b) := by
  obtain ⟨_, _, e⟩ := sampleStream_eq s i b
  have replaced : Changes noiseFoot noiseRegs s
      (setFnt s { s.fnt with streams := s.fnt.streams.set i (testedStream s i b).1 }) := ⟨rfl, fun _ _ => rfl⟩
  rw [e]
  exact (replaced.trans (changes_healthFailIf ..)).trans (changes_healthFailIf ..)

theorem streams_sampleStream (s : State) (i : Nat) (b : Bool) :
    (sampleStream s i b).fnt.streams = s.fnt.streams.set i (testedStream s i b).1 := by
  obtain ⟨_, _, e⟩ := sampleStream_eq s i b
  rw [e, streams_healthFailIf, streams_healthFailIf, setFnt_fnt]

theorem sampled_sampleStream_same {s : State} {i : Nat} (b : Bool) (hi : i < s.fnt.streams.length) :
    sampled (sampleStream s i b) i = ((sampled s i).1 + 1, b) :=
  sampled_set_same (streams_sampleStream ..) hi

theorem sampled_sampleStream_ne {s : State} {i j : Nat} (b : Bool) (h : i ≠ j) :
    sampled (sampleStream s i b) j = sampled s j :=
  sampled_set_ne (streams_sampleStream ..) h

theorem length_sampleStream (s : State) (i : Nat) (b : Bool) :
    (sampleStream s i b).fnt.streams.length = s.fnt.streams.length := by
  rw [streams_sampleStream, List.length_set]

/-- The samples of a sampling time tested, stream by stream. -/
def sampleAll (s : State) (l : List (Nat × Bool)) : State := l.foldl (fun s e => sampleStream s e.1 e.2) s

theorem sampled_sampleAll_of_notMem {i : Nat} (l : List (Nat × Bool)) (hi : i ∉ l.map Prod.fst) :
    ∀ s, sampled (sampleAll s l) i = sampled s i := by
  induction l with
  | nil => exact fun _ => rfl
  | cons e l ih =>
    rw [List.map_cons, List.mem_cons, not_or] at hi
    exact fun s => (ih hi.2 _).trans (sampled_sampleStream_ne _ (Ne.symm hi.1))

/-- Each stream has its own sample tested. -/
theorem sampled_sampleAll {i : Nat} {b : Bool} (l : List (Nat × Bool)) (hb : (i, b) ∈ l) (hd : (l.map Prod.fst).Nodup) :
    ∀ {s : State}, i < s.fnt.streams.length → sampled (sampleAll s l) i = ((sampled s i).1 + 1, b) := by
  induction l with
  | nil => cases hb
  | cons e l ih =>
    intro s hi
    obtain ⟨hne, hd⟩ := List.nodup_cons.1 hd
    rcases List.mem_cons.1 hb with rfl | hb
    · exact (sampled_sampleAll_of_notMem l hne _).trans (sampled_sampleStream_same b hi)
    · have other : e.1 ≠ i := fun h => hne (h ▸ List.mem_map_of_mem hb)
      refine (ih hb hd (s := sampleStream s e.1 e.2) (by rwa [length_sampleStream])).trans ?_
      rw [sampled_sampleStream_ne _ other]

/-! ## Samples that go on to the conditioner -/

/-- What follows the tests of a sample changes no stream but what its debiaser holds. -/
structure Routes (s t : State) : Prop where
  changes : Changes noiseFoot noiseRegs s t
  sampled : ∀ i, sampled t i = sampled s i

theorem Routes.refl (s : State) : Routes s s := ⟨.refl .., fun _ => rfl⟩
theorem Routes.trans {s t u : State} (h : Routes s t) (g : Routes t u) : Routes s u :=
  ⟨h.changes.trans g.changes, fun i => (g.sampled i).trans (h.sampled i)⟩

theorem Routes.foldl {α : Type} {f : State → α → State} (hf : ∀ s a, Routes s (f s a)) (l : List α) :
    ∀ s, Routes s (l.foldl f s) := by
  induction l with
  | nil => exact .refl
  | cons a l ih => exact fun s => (hf s a).trans (ih _)

/-- Nothing changes of the Fountain's streams. -/
theorem Routes.of_changes {s t : State} (h : Changes noiseFoot noiseRegs s t) (hs : t.fnt.streams = s.fnt.streams) : Routes s t :=
  ⟨h, sampled_eq hs⟩

theorem Routes.raiseInt {s t : State} (h : Routes s t) (mask : Nat) : Routes s (raiseInt t 0x2C mask) :=
  h.trans (.of_changes ((changes_raiseInt ..).mono event_within_noise (Named.mono (by decide) (by decide) (by decide)))
    (by rw [raiseInt_fnt]))

theorem debias_keeps (f : FStream) (b : Bool) : (debias f b).1.tested = f.tested ∧ (debias f b).1.last = f.last := by
  unfold debias
  split <;> exact ⟨rfl, rfl⟩

theorem routes_absorbSample (s : State) (i : Nat) (b : Bool) : Routes s (absorbSample s i b) := by
  have keeps (v : Bool) (f : FStream) :
      ((if v then debias f b else (f, [b])).1.tested, (if v then debias f b else (f, [b])).1.last) = (f.tested, f.last) := by
    cases v
    · rfl
    · exact Prod.ext (debias_keeps f b).1 (debias_keeps f b).2
  exact ⟨⟨rfl, fun _ _ => rfl⟩, sampled_set rfl (keeps ..)⟩

theorem routes_setFnt {s : State} {f : Fnt} (h : noiseFoot.put s (setFnt s f) = setFnt s f) (hs : f.streams = s.fnt.streams) :
    Routes s (setFnt s f) :=
  .of_changes ⟨h.symm, fun _ _ => rfl⟩ hs

theorem routes_bumpSeeds (s : State) : Routes s (bump s Reg.FNT_SEEDS 31 0 1) :=
  .of_changes ((changes_bump s 31 0 1 (.inl (by decide))).mono reg_within_noise fun _ => id) (by rw [bump_fnt])

/-- A seed taken by the side of the expander whose turn it is, announced where it is its first (R289, R297). -/
def seedTaken (s : State) (seed : Bytes) : State :=
  if seedTarget s.fnt then
    let t := setFnt s { s.fnt with
      sw := drbgSeed s.fnt.sw seed, swTurn := false, seed := [], state := if s.fnt.state = 3 then 4 else s.fnt.state }
    if !s.fnt.sw.on then raiseInt t 0x2C 16 else t
  else
    let t := setFnt s { s.fnt with int := drbgSeed s.fnt.int seed, swTurn := true, seed := [] }
    if !s.fnt.int.on then raiseInt t 0x2C 8 else t

theorem deliverSeed_eq (s : State) (seed : Bytes) : deliverSeed s seed = seedTaken (bump s Reg.FNT_SEEDS 31 0 1) seed := rfl

theorem routes_seedTaken (s : State) (seed : Bytes) : Routes s (seedTaken s seed) := by
  have announced {u : State} (fresh : Bool) (mask : Nat) (h : Routes s u) : Routes s (if fresh then raiseInt u 0x2C mask else u) := by
    cases fresh
    · exact h
    · exact h.raiseInt mask
  unfold seedTaken
  split
  · exact announced _ 16 (routes_setFnt rfl rfl)
  · exact announced _ 8 (routes_setFnt rfl rfl)

theorem routes_deliverSeed (s : State) (seed : Bytes) : Routes s (deliverSeed s seed) := by
  rw [deliverSeed_eq]
  exact (routes_bumpSeeds s).trans (routes_seedTaken ..)

theorem routes_conditionerBlock (s : State) : Routes s (conditionerBlock s) := by
  unfold conditionerBlock
  split
  · exact .refl s
  · have absorbed := routes_setFnt (s := s) (f := { s.fnt with
      absorbed := [], credit := 0, seed := s.fnt.seed ++ [condition s.fnt.absorbed] }) rfl rfl
    dsimp only
    split
    · exact absorbed
    · exact absorbed.trans (routes_deliverSeed ..)

theorem routes_rawSample (s : State) (b : Bool) : Routes s (rawSample s b) := by
  have kept := routes_setFnt (s := s) (f := { s.fnt with raw := s.fnt.raw ++ [b] }) rfl rfl
  unfold rawSample
  dsimp only
  split
  · exact kept.raiseInt 64
  · exact kept

theorem routes_routeSample (s : State) (seeding : Bool) (i : Nat) (b : Bool) : Routes s (routeSample s seeding i b) := by
  unfold routeSample
  split
  · exact .refl s
  · split
    · exact routes_rawSample ..
    · split
      · exact (routes_absorbSample ..).trans (routes_conditionerBlock _)
      · exact .refl s

theorem routes_countStartup (s : State) (failed : Bool) : Routes s (countStartup s failed) := by
  unfold countStartup
  split
  · exact .refl s
  · split <;> exact routes_setFnt rfl rfl

theorem routes_windowEnd (s : State) : Routes s (windowEnd s) := by
  unfold windowEnd
  split
  · exact routes_setFnt rfl rfl
  · exact .refl s

theorem routes_endDead (s : State) : Routes s (endDead s) :=
  .of_changes (changes_endDead cmd_within_noise s (by decide) (by decide))
    ((cmdChanges_endDead s).changes.kept (·.fnt.streams) fun _ _ => rfl)

/-- A sampling time while samples are taken: all are tested, then they go on. -/
theorem routes_noiseSample {s : State} (hd : domOn s 12 = true) (hb : s.fnt.begun = true) (h1 : s.fnt.state ≠ 1)
    (h5 : s.fnt.state ≠ 5) (cells : BitVec 4) : Routes (sampleAll s (samplesOf s.fnt.xorEn cells)) (noiseSample s cells) := by
  have routed (seeding : Bool) (l : List (Nat × Bool)) (u : State) :
      Routes u (l.foldl (fun s e => routeSample s seeding e.1 e.2) u) :=
    Routes.foldl (fun _ _ => routes_routeSample ..) l u
  have taken : noiseSample s cells = endDead (windowEnd ((samplesOf s.fnt.xorEn cells).foldl
      (fun u e => routeSample u (decide (3 ≤ s.fnt.state)) e.1 e.2)
      (countStartup (sampleAll s (samplesOf s.fnt.xorEn cells))
        ((sampleAll s (samplesOf s.fnt.xorEn cells)).fnt.tries != s.fnt.tries)))) :=
    if_neg (by simp [hd, hb, h1, h5])
  rw [taken]
  exact (((routes_countStartup ..).trans (routed ..)).trans (routes_windowEnd _)).trans (routes_endDead _)

theorem noiseSample_discarded {s : State} (h : domOn s 12 = false ∨ s.fnt.begun = false ∨ s.fnt.state = 1 ∨ s.fnt.state = 5)
    (cells : BitVec 4) : noiseSample s cells = s := by
  refine if_pos ?_
  rcases h with h | h | h | h <;> simp [h]

/-- The clauses of a sampling time: the stream i has its sample b tested, and no more changes than samples may. -/
theorem noiseSample_tests {s : State} (hd : domOn s 12 = true) (hb : s.fnt.begun = true) (h1 : s.fnt.state ≠ 1)
    (h5 : s.fnt.state ≠ 5) {cells : BitVec 4} {i : Nat} {b : Bool} (hm : (i, b) ∈ samplesOf s.fnt.xorEn cells)
    (hn : ((samplesOf s.fnt.xorEn cells).map Prod.fst).Nodup) (hi : i < s.fnt.streams.length) :
    sampled (noiseSample s cells) i = ((sampled s i).1 + 1, b) ∧ Changes noiseFoot noiseRegs s (noiseSample s cells) := by
  have tested : Changes noiseFoot noiseRegs s (sampleAll s (samplesOf s.fnt.xorEn cells)) :=
    Changes.foldl (fun _ _ => changes_sampleStream ..) _ s
  have routed := routes_noiseSample hd hb h1 h5 cells
  exact ⟨(routed.sampled i).trans (sampled_sampleAll _ hm hn hi), tested.trans routed.changes⟩

/-- Settles O24: samples are tested stream by stream and then routed; FAILED is entered by one fault, and kept by the ends it brings. -/
theorem fountainNoise : Obligations.FountainNoise := by
  unfold Obligations.FountainNoise
  refine ⟨?xored, ?separate, ?discarded, ?settled, ?settledNot, ?timeout, ?timeoutNot, ?kat, ?katPasses, ?katFails, ?katIdle⟩
  case xored =>
    intro s cells hd hb h1 h5 hx hl
    obtain ⟨tested, changes⟩ := noiseSample_tests hd hb h1 h5 (cells := cells) (i := 0) (by rw [hx]; exact List.mem_singleton.2 rfl)
      (by rw [hx]; exact List.pairwise_singleton _ _) (by omega)
    exact ⟨_, rfl, congrArg Prod.fst tested, congrArg Prod.snd tested, changes.frame, changes.otherRegs⟩
  case separate =>
    intro s cells i hd hb h1 h5 hx hl
    obtain ⟨tested, changes⟩ := noiseSample_tests hd hb h1 h5 (cells := cells) (i := i.val) (b := cells.getLsbD i.val)
      (by rw [hx]; exact List.mem_map.2 ⟨i.val, List.mem_range.2 i.isLt, rfl⟩) (by rw [hx]; decide +revert) (by omega)
    exact ⟨_, rfl, congrArg Prod.fst tested, congrArg Prod.snd tested, changes.frame, changes.otherRegs⟩
  case discarded => exact fun s cells h => ⟨_, rfl, noiseSample_discarded h cells⟩
  case settled =>
    intro s hb h1 h2
    refine ⟨settleEnd s, rfl, ?_⟩
    cases hk : s.fnt.katOk with
    | true =>
      rw [settleEnd_tested hb h1 h2 hk]
      exact ⟨rfl, rfl, rfl⟩
    | false =>
      rw [settleEnd_untested hb h1 h2 hk]
      exact ⟨rfl, h1, rfl⟩
  case settledNot => exact fun s h => ⟨_, rfl, settleEnd_not_due h⟩
  case timeout =>
    intro s hb h4 hi
    refine ⟨startupTimeout s, rfl, ?_⟩
    rw [startupTimeout_due hb h4 hi]
    have failed := failed_fountainFault (s := s) (by omega) 0x12 s.fnt.tries
    have changes := changes_fountainFault s 0x12 s.fnt.tries
    exact ⟨failed.state, by rw [failed.sw], failed.absorbed, changes.frame, changes.otherRegs⟩
  case timeoutNot => exact fun s h => ⟨_, rfl, startupTimeout_not_due h⟩
  case kat =>
    intro s src hr
    refine ⟨fntKat s src, rfl, ?_⟩
    unfold fntKat
    rw [gateReg_reaches hr]
    exact ⟨rfl, rfl, fun _ _ _ _ _ => rfl⟩
  case katPasses =>
    intro s hk
    refine ⟨fntKatDone s true, rfl, ?_⟩
    obtain ⟨st, tr, ok, pa, e⟩ := fntKatDone_passed hk
    have changes : Changes katFoot katRegs s (fntKatDone s true) := by
      rw [e]
      exact (changes_katEnded s true).trans ⟨rfl, fun _ _ => rfl⟩
    refine ⟨?_, ?_, ?_, changes.frame, changes.otherRegs⟩
    all_goals rw [e, setFnt_fnt, katEnded_fnt]
  case katFails =>
    intro s hk h5
    refine ⟨fntKatDone s false, rfl, ?_⟩
    rw [fntKatDone_failed hk]
    have failed := failed_fountainFault (s := katEnded s false) (by rwa [katEnded_fnt]) 0x11 0
    have fault := (changes_fountainFault (katEnded s false) 0x11 0).mono (Q := katRegs) fault_within_kat
      (Named.mono (by decide) (by decide) (by decide))
    have ended := takersOnly_endDead (fountainFault (katEnded s false) 0x11 0)
    have dead := changes_endDead (keys := [Reg.QUAY_RPL_HITS, Reg.RBT_LATE, Reg.COMP_AUTH_FAIL, Reg.COMP_DONE])
      (pages := []) cmd_within_kat (fountainFault (katEnded s false) 0x11 0) (List.Subset.refl _) (List.Subset.refl _)
    have changes := ((changes_katEnded s false).trans fault).trans dead
    have verdict : (endDead (fountainFault (katEnded s false) 0x11 0)).fnt.katPass = false := by
      rw [ended, changes_fountainFault .. |>.kept (·.fnt.katPass) fun _ _ => rfl, katEnded_fnt]
    exact ⟨ended.state_eq.trans failed.state, verdict, by rw [ended.int_eq, failed.int], changes.frame, changes.otherRegs⟩
  case katIdle => exact fun s ok h => ⟨_, rfl, fntKatDone_idle h ok⟩

end Sys2Proof.Machine
end

section
/-! CLAIM. The services of the Fountain (R288, R290 to R292, R295, R296, R303, R551), refuted by the last turn of an RNG_READ while a LOAD
waits for its Arcade unit. The unit is under test when a FORCE_OFF takes it out of service, so the load is to go on with the next
one (R148, R276, R358); the model tries again what waits as DRBG_GENERATE ends, and the verified load clears the local RAM of its
core (R359), where the clause says that memory is as before. What the clause lacks is the hypothesis that its neighbours have,
NothingResumes (drbgGenerate s true none). -/
namespace Sys2Proof.Machine
open Sys2Proof

/-- Both halves of the signature of the image: its SHA-256 digest z. With r = s = z, ECDSA compares z with the x coordinate of G + Q. -/
def imageDigest : Nat := 0x4e0afb074eac3a531df4719a7681d2f37e450b35b1de354a5f91f4e744a05edb

/-- The integrator's key Q: a point at x = z, less G. -/
def imageKey : Bytes :=
  toBe 32 0xd6bd4517a91b6ecddb2b3f628e9b821a4a944e7811f4d04754ae1100d4cb0e64 ++
    toBe 32 0x21c48be1a657b798d6eb0434823513bf41bff506ea42583fb157ec10d2a372a6

/-- The header of an image of one word for core 0, of SVN 3, for a COMMISSIONED device of any serial (R357): its fields, its segment, the
hash of the word 0, and the signature. -/
def imageHeader : Bytes :=
  [0x49, 0x58, 0x4D, 0x49] ++ toLe 2 1 ++ toLe 2 3 ++ toLe 4 260 ++ [1, 0, 0, 4] ++ toLe 4 0 ++ toLe 4 1 ++ toLe 8 0 ++
    (toLe 4 0 ++ toLe 4 4 ++ toLe 4 0x100 ++ fill 84 0) ++
    (toBe 32 0xdf3f619804a92fdb4057192dc43dd748ea778adc52bc498ce80524c014b81119 ++ fill 32 0) ++
    (toBe 32 imageDigest ++ toBe 32 imageDigest)

/-- An RNG_READ of 16 bytes that runs. -/
def shortRead : Ctx :=
  { q := 7, seq := 1, phase := .running, d := { opcode := 0x40, len := 16 }, dsts := [{ addr := 0x3000, len := 16 }] }

/-- READY and COMMISSIONED, with Arcade unit 0 under test and unit 1 idle, a byte in the local RAM of core 0, and the loader set to read
from the host through queue 7; the RNG_READ in context 4 is the only taker of a Fountain that serves. -/
def beforeLoad : State :=
  { setReg (setCtx q7 4 shortRead) Reg.IXM_LD_SRC 0x70000 with
    fnt := { begun := true, state := 4, sw := { on := true }, rng := [.cmd 4] }
    life := { state := 2 }
    fer := { integrator := imageKey }
    units := { arc := [(1, { kat := false })] }
    mem := [(lramBase 0, 7)] }

/-- A LOAD has read the header and waits for unit 0. -/
def loadWaits : State := loaderGo (loadCmd beforeLoad (.port 0) 1 false (some { bytes := imageHeader }))

/-- Then FORCE_OFF of unit 0 has been set. -/
def unitForced : State := arcForceOff loadWaits (.port 0) 0 true

/-- The device reaches it by these two commands. -/
theorem load_forceOff_reach_unitForced :
    exec (.load (.port 0) { bytes := imageHeader }) beforeLoad = .next loadWaits ∧
      exec (.arcForceOff (.port 0) 0 true) loadWaits = .next unitForced :=
  ⟨rfl, rfl⟩

/-- There the RNG_READ has its last turn, and its completion can be written. -/
theorem unitForced_takers : unitForced.fnt.rng = [.cmd (4 : CtxNo).val] ∧ unitForced.fnt.rngDead = [] := by decide +kernel
theorem unitForced_serves : swServing unitForced = true ∧ swDue unitForced = true := by decide +kernel
theorem ctxAt_unitForced : ctxAt unitForced (4 : CtxNo).val = some shortRead := by decide +kernel
theorem unitForced_windows : (checkSegs (queueAt unitForced shortRead.q) true shortRead.dsts shortRead.d.len
    (shortRead.dsts.length + 1) shortRead.dstChk).2 = false := by decide +kernel
theorem unitForced_deliverable : Deliverable unitForced shortRead := by decide +kernel

theorem unitForced_mem : unitForced.mem = [(lramBase 0, 7)] := by decide +kernel

/-- The load goes on with unit 1: the signature verifies, and the local RAM of core 0 is cleared. -/
theorem turn_clears_localRam : (resumeAll (drbgGenerate unitForced true none)).mem = [] := by decide +kernel

/-- Refutes O25: at `unitForced` the last turn of the RNG_READ does not leave memory as before. -/
theorem not_fountainService : ¬ Obligations.FountainService := by
  unfold Obligations.FountainService
  rintro ⟨-, -, -, -, -, -, lastTurn, -⟩
  obtain ⟨taker, noneDead⟩ := unitForced_takers
  obtain ⟨serves, due⟩ := unitForced_serves
  obtain ⟨t, ht, -, mem, -⟩ := lastTurn unitForced 4 shortRead [] taker ctxAt_unitForced rfl noneDead serves due rfl
    (by decide) (by decide) unitForced_windows unitForced_deliverable
  have answer : resumeAll (drbgGenerate unitForced true none) = t := Host.Outcome.next.inj ht
  rw [← answer, turn_clears_localRam, unitForced_mem] at mem
  exact absurd mem (List.cons_ne_nil _ _).symm

end Sys2Proof.Machine
end
